-- ==== Sys2Proof/Word.lean ====
section
/-! DEFINITION. Word.lean: the register word (R6: registers are 32 bits wide), the octet, and lists of octets. -/
namespace Sys2Proof

/-- A register word: 32 bits (R6). -/
abbrev Word := BitVec 32

/-- An octet is eight bits (Numbers and units). -/
abbrev Byte := BitVec 8

/-- A frame, a record or an entry as a sequence of octets. -/
abbrev Octets := List Byte

end Sys2Proof
end

