-- ==== Sys2Proof/Types.lean ====
section
/-! DEFINITION. Types.lean: the names the spec uses for fixed sets (modes, masters, access codes, tenons), the shape of one row of the
register map, and the records that commands carry (inputs of the ledger, records of the peer, heartbeats). -/
namespace Sys2Proof

/-- The eight operating modes (R27) and, for a package without VSILL, `off` (R17: nothing runs there). -/
inductive Mode
  | off | sill | watch | raise | solo | lead | shadow | hold | bench
  deriving DecidableEq, Repr, Inhabited

/-- The two grades (R1). -/
inductive Grade
  | q2 | q1
  deriving DecidableEq, Repr, Inhabited

/-- The masters of register accesses (R9); the PCIe host has two functions (R502). -/
inductive Master
  | pcie0 | pcie1 | spi | scarf | seq | jtag
  deriving DecidableEq, Repr, Inhabited

/-- The worlds of a master. -/
inductive World
  | secure | normal
  deriving DecidableEq, Repr, Inhabited

/-- Lifecycle states, in the code order of KS_STATUS.LC. -/
inductive Lifecycle
  | blank | provisioned | field | fieldDebug | retired
  deriving DecidableEq, Repr, Inhabited

/-- Access codes (R10). -/
inductive Acc
  | rw | ro | w1c | w1s | wo | rc | lk
  deriving DecidableEq, Repr

/-- Access policies (R9): each constructor is one policy line of the chapters.
`std` PCIe and SPI read in either world and write in the secure world, the scarf peer reads, JTAG reads in Blank and Field-Debug;
`stdAnyW` the same with writes in either world; `ro` the reads of `std`, no writes; `hostRo` PCIe and SPI read only;
`allRo` every master reads, no writes; `allHostW` every master reads, PCIe and SPI write in the secure world;
`ksUp` `std` plus secure writes of the scarf peer; `att` PCIe, SPI and the scarf peer read and write in either world, JTAG both in
Field-Debug; `attRo` the reads of `att`; `hj` PCIe, SPI and the scarf peer read and write in either world; `viol` PCIe and SPI read in
the secure world; `tamp` `std`, writes only in Blank and Provisioned; `ring` the reads of `std`, writes under R517; `msix` each PCIe
function its own copy (R520). -/
inductive Pol
  | std | stdAnyW | ro | hostRo | allRo | allHostW | ksUp | att | attRo | hj | viol | tamp | ring | msix
  deriving DecidableEq, Repr

/-- Which mortises map a register: any, or those running one tenon (R144, R204); `lim` is the limiter part of a scheduler port page,
mapped while the port's mortise runs the CAN tenon. -/
inductive TenMap
  | any | can | lin | t1s | lim
  deriving DecidableEq, Repr

/-- One field of a register: name, low bit, width, access code (R10), reset value, and whether its description says "Ledger input" (R52). -/
structure Field where
  name : String
  lo : Nat
  width : Nat
  acc : Acc
  rst : Nat
  ledger : Bool
  deriving DecidableEq, Repr

/-- One row of the register map: name, offset of instance 0 (R5), the repeats as (count, stride) from the outermost page inward, the
policy, the tenon that maps it, the reset value and the fields. -/
structure RegRow where
  name : String
  base : Nat
  reps : List (Nat × Nat)
  pol : Pol
  ten : TenMap
  reset : Nat
  fields : List Field
  deriving DecidableEq, Repr

/-- Tenon kinds (R127): idle, CAN, LIN, 10BASE-T1S over an external PHY, 10BASE-T1S on the integrated PHY. -/
inductive Tenon
  | idle | can | lin | t1sExt | t1sInt
  deriving DecidableEq, Repr, Inhabited

/-- What an input of the ledger is: a host command, a frame, or a port event (R50, R53). -/
inductive InKind
  | command | frame | event
  deriving DecidableEq, Repr, Inhabited

/-- A stamped input (R50, R55). `cls`, `port` and `origin` are the key fields of R55; `pos` is the arrival position on its port (R60);
`stamp` the epoch it was stamped in and `inst` the stamp instant in ns; `octets` its octets for the match digest and the frame record
for a frame; for a host command `addr`, `data` and the captured registers `cap` (R298); for a bay frame `bad` is the flagged delivery of
R245; for a host ring frame `entry` is PENTRY and `ring` its ring (R519); for a port event `octets` is the event record. `matched` and
`inEp` record the matching (R61, R62), `acked` the fill (R67), `mate` the peer's position of a matched pair. -/
structure Input where
  cls : Nat := 0
  port : Nat := 0
  origin : Nat := 0
  pos : Nat := 0
  rank : Nat := 0
  stamp : Nat := 0
  inst : Nat := 0
  kind : InKind := .frame
  octets : Octets := []
  addr : Nat := 0
  data : Nat := 0
  cap : List Nat := []
  bad : Bool := false
  entry : Nat := 0
  ring : Nat := 0
  matched : Bool := false
  inEp : Nat := 0
  mate : Nat := 0
  acked : Bool := false
  deriving DecidableEq, Repr, Inhabited

/-- A record of one stamped input, as twins exchange it (R60). -/
structure PeerRec where
  stamp : Nat := 0
  cls : Nat := 0
  port : Nat := 0
  origin : Nat := 0
  pos : Nat := 0
  digest : Nat := 0
  matched : Bool := false
  inEp : Nat := 0
  mate : Nat := 0
  deriving DecidableEq, Repr, Inhabited

/-- The outcome of one swap or key update command (R554): accepted, or refused with its event bit. -/
structure CmdOutcome where
  swap : Bool := true
  accepted : Bool := true
  event : Nat := 0
  armed : Bool := false
  deriving DecidableEq, Repr, Inhabited

/-- The outcome record of an epoch (R554). -/
structure OutcomeRec where
  epoch : Nat := 0
  cmds : List CmdOutcome := []
  pairKeys : Option Octets := none
  deriving DecidableEq, Repr, Inhabited

/-- What a CAN node detects as an error, in the cases ISO 11898-1 counts apart: an error of a receiver; the same with a dominant bit read
after its own error flag; an error while it transmits; a missing acknowledge, with or without a dominant bit during a passive error
flag; a stuff error during arbitration, which leaves TEC unchanged; eight more dominant bits after a flag (of a transmitter or of a
receiver). -/
inductive CanErr
  | receive | receivePrimary | transmit | ack (dominant : Bool) | stuffArb | flagTx | flagRx
  deriving DecidableEq, Repr

/-- What a transmit opportunity or a CSMA/CD attempt of a T1S tenon comes to (R226, R229): it starts, the frame on the wire has been sent, or it
collided. -/
inductive T1sTx
  | start | sent | collided
  deriving DecidableEq, Repr

/-- A pairing record (R432): the peer's identity, epoch length code, frame digest, pair key vector, generation and whether it is in
service already. -/
structure PairRec where
  pid : Nat := 0
  elen : Nat := 0
  digest : Octets := []
  keys : Octets := []
  gen : Nat := 0
  inService : Bool := false
  deriving DecidableEq, Repr, Inhabited

/-- Where an access to register space goes: its offset, and its octets, of which the device accepts 4 (R5, R6). -/
structure RegAddr where
  off : Nat := 0
  size : Nat := 4
  deriving DecidableEq, Repr, Inhabited

/-- A word as a write brings it, with the W1C bits of the register that the device sets in the same clock (R11). -/
structure WriteIn where
  word : Word := 0
  upd : Nat := 0
  deriving DecidableEq, Repr, Inhabited

/-- A link as a bay sees it: whether it is up, and whether that has held for the 1 ms of R242. -/
structure LinkView where
  up : Bool := false
  held : Bool := false
  deriving DecidableEq, Repr, Inhabited

/-- A CAN frame as it is received: the instant of its start of frame, which R196 counts from, and its record. -/
structure CanRx where
  sof : Nat := 0
  octets : Octets := []
  deriving DecidableEq, Repr, Inhabited

/-- The end of a CAN transmission attempt that did not succeed: by lost arbitration or an error (R184), with the transmitter delay measured in it,
if any (R158). -/
structure CanLost where
  arb : Bool := false
  tdcv : Option Nat := none
  deriving DecidableEq, Repr, Inhabited

/-- What a CAN bus error leaves beside its kind: whether it is an identifier-collision suspect (R190), and the transmitter delay measured before it in
a frame of the tenon's own, if any (R158). -/
structure CanFault where
  suspect : Bool := false
  tdcv : Option Nat := none
  deriving DecidableEq, Repr, Inhabited

/-- A LIN header as a responder receives it: the start of its break, the break in bit times, and the protected identifier (R208). -/
structure LinRx where
  start : Nat := 0
  brk : Nat := 13
  pid : Nat := 0
  deriving DecidableEq, Repr, Inhabited

/-- A current at ILIM in an integrated PHY: its mortise, and whether the PHY still limits the current (R234, R236). -/
structure PhyTrip where
  mort : Nat := 0
  limit : Bool := false
  deriving DecidableEq, Repr, Inhabited

/-- The measurements of R501 at an instant: VCORE current and die temperature. -/
structure PowerSense where
  t : Nat := 0
  current : Nat := 0
  temp : Nat := 0
  deriving DecidableEq, Repr, Inhabited

/-- A scarf heartbeat (R441). -/
structure Heartbeat where
  pid : Nat := 0
  role : Nat := 0
  renew : Bool := false
  ackv : Bool := false
  fenced : Bool := false
  gen : Nat := 0
  txt : Nat := 0
  ack : Nat := 0
  rxt : Nat := 0
  epoch : Nat := 0
  deriving DecidableEq, Repr, Inhabited

/-- A tell word (R442): SYNC, PID, RENEW, ACK, SEQ, GENL and PAR, as received, with the state of the pair (R443: 0 valid, 1 static,
2 open, 3 invalid). -/
structure TellWord where
  sync : Nat := 0
  pid : Nat := 0
  renew : Bool := false
  ack : Bool := false
  seq : Nat := 0
  genl : Nat := 0
  par : Bool := false
  state : Nat := 0
  deriving DecidableEq, Repr, Inhabited

/-- What a node of the parse graph asks for next on an input's path (R22, R72, R305, R313, R323, R337, R412, R421, R454, R492): the end of the
path; a lookup of a key in a hash table; a source lookup with learning; a longest-prefix lookup; policing by a meter; dispatch to the
gateway with a source offset (R265); a copy for an egress port and class, under a MACsec profile or plain; the 802.1CB functions of a
matched entry's RES and AUX; MACsec verification under a profile; the keep-alive mark with its vector. -/
inductive ParseAct
  | done
  | hash (table : Nat) (key : Octets)
  | source (key : Octets)
  | longest (vrf : Nat) (six : Bool) (addr : Nat)
  | meter (idx : Nat)
  | dispatch (route : Nat) (soff : Nat)
  | forward (port : Nat) (cls : Nat) (prof : Option Nat)
  | stream (res : Nat) (aux : Nat)
  | secure (prof : Nat)
  | keepAlive (vec : Nat)
  deriving DecidableEq, Repr, Inhabited

end Sys2Proof
end

