-- ==== Sys2Proof/Syntax.lean ====
section
/-! DEFINITION. Syntax.lean: the commands of the block, one constructor per row of opcode_table.json, with the operands a command carries.
`t` is an instant in ns on the unit's time base; `c` the epoch in which a host command was stamped and `n`, `g`, `a`, `q` the epoch an action names;
`m` a mortise, `bay` a bay, `ms` and `w` the master and world of an access. What an event brings from outside (octets on a wire, a peer's record,
a measured value) is an operand too; `ecc` lists the table errors met while an epoch is processed, each as the position of the input whose first
lookup meets it and whether it is uncorrectable (R328). -/
namespace Sys2Proof

/-- The commands of opcode_table.json. -/
inductive Instr
  /-- R10. A master writes a register field that has no row of its own; the field takes the value its access code gives. -/
  | registerWrite (ms : Master) (w : World) (addr : RegAddr) (val : WriteIn)
  /-- R12. A permitted read of an RC field returns its value and then clears it, keeping an update made in the same clock. -/
  | readClear (ms : Master) (w : World) (addr : RegAddr) (upd : Nat)
  /-- R10. A read of a low word such as EP_NOW_L, EP_DIGEST_L or TW_LEXP_L latches the high word into its companion register. -/
  | latchedRead (ms : Master) (w : World) (addr : RegAddr)
  /-- R14. A write of 1 to a block's LOCK bit makes its LK fields read-only until PORESET_N. -/
  | blockLockSet (ms : Master) (w : World) (addr : Nat)
  /-- R30. A secure-world host requests a mode change; an allowed transition is made, and any other is ignored and recorded as an F0 notice. -/
  | modeRequest (ms : Master) (w : World) (target : Mode)
  /-- R534. PORESET_N held low for 10 µs resets the frame die and the sill controller, clears registers, fault records and lock bits, and puts the device in Sill. -/
  | poresetAssert
  /-- R534. Release of PORESET_N is a wake source; TWIN_ID is sampled and start follows R529. -/
  | poresetRelease (t : Nat) (twinId : Bool)
  /-- R529. The frame die leaves reset once the rails are in range, the 25 MHz oscillator is stable and the PLLs are locked, and the device enters Raise. -/
  | frameDieStart (t : Nat)
  /-- R530. A frame die not out of reset 20 ms after the wake makes the sill die release the enables, wait 100 ms and sequence again, up to three times. -/
  | powerupTimeout (t : Nat)
  /-- R531. A core-domain rail below 90 % of nominal for 2 µs puts the frame die into reset, with SYSRESET_N low and the fault records kept. -/
  | railUndervoltage (t : Nat) (rail : Nat)
  /-- R531. When every rail is back in range after an undervoltage, the frame die starts again under R529 and raises. -/
  | railRecovery (t : Nat)
  /-- R434. VSILL is lost; the sill die stops and the pair generation reads 0 afterwards. -/
  | vsillLoss
  /-- R536. A SYSCLK reference stopped for 5 µs while the frame die runs raises an F4 fault with cause 0x42. -/
  | refclkFailure (t : Nat)
  /-- R17. When the 32.768 kHz oscillator fails, the sill die continues on its RC fallback and records the switch. -/
  | osc32Failure (t : Nat)
  /-- R96. The loader reads slot A, falls back to slot B on failure, and enters Bench if both images fail their checks. -/
  | raiseFromFlash (t : Nat)
  /-- R96. FR_CTRL.START in Hold or Bench raises a full image from the source that SRC selects, with no fallback. -/
  | hostRaise (t : Nat) (ms : Master) (w : World)
  /-- R93. A section finishes being read; it is checked against SECDIG and R553, and its bent may be configured, or an error is reported. -/
  | sectionChecked (t : Nat) (idx : Nat) (sect : Octets) (readErr : Bool)
  /-- R49. Epoch 0 begins; the EARLY or all bents enter service from the frame defaults, stamping starts, and counters are cleared. -/
  | serviceStart (t : Nat)
  /-- R97. At epoch FULLEP the late bents enter service together before the first input; a bent whose section is not ready is isolated by an F2. -/
  | lateBentsInService (n : Nat)
  /-- R93. FR_CTRL.START in service checks the delta in staging; it is ignored while a delta is armed or a peer is in catch-up. -/
  | deltaCheck (t : Nat) (ms : Master) (w : World)
  /-- R104. A delta check completes; the delta is armed or refused with its code, and a refused delta that wrote entries starts a reverse purge. -/
  | deltaArmed (t : Nat)
  /-- R118. FR_CTRL.ABORT abandons a delta check in progress and starts the reverse purge. -/
  | deltaAbort (ms : Master) (w : World)
  /-- R120. FR_CTRL.FWD copies the staged delta to the peer's staging over the scarf link. -/
  | stagingForward (ms : Master) (w : World)
  /-- R104. An uncorrectable error in armed staging raises an F2 with cause 0x23 and clears the armed state. -/
  | stagingError (t : Nat)
  /-- R105. A processed FR_SWAP_H command with OP 0x1 schedules the swap at G, or is refused as LATE or NOTARMED. -/
  | swapSchedule (c : Nat) (g : Nat)
  /-- R105. A processed FR_SWAP_H command with OP 0x2 disarms the delta, cancels its swap and starts the reverse purge. -/
  | deltaDisarm (c : Nat)
  /-- R106. At the start of epoch G, every bent of the armed delta takes effect together before the first input. -/
  | swap (g : Nat)
  /-- R118. The background generation purge finishes retagging and removing entries, and FR_EVENT.PURGED is set. -/
  | purgeComplete (t : Nat)
  /-- R112. A transmission of an old tenon still running DRAIN µs after the start of G is aborted and its pins are released. -/
  | drainAbort (t : Nat) (m : Nat)
  /-- R111. The old tenon of a changed mortise completes its transmission in progress and releases its pins to idle. -/
  | oldTenonRelease (t : Nat) (m : Nat)
  /-- R113. The new tenon of a re-tenoned mortise is loaded and its pins are configured within 3 ms of the pin release. -/
  | tenonLoaded (t : Nat) (m : Nat)
  /-- R113. At the resume epoch A, the re-tenoned mortise hands inputs to the epoch engine again. -/
  | tenonResume (a : Nat) (m : Nat)
  /-- R41. A Sync message of the epoch domain updates the servo and may lock, re-lock with a slew, or put the time base into Lost. -/
  | gptpSyncReceived (t : Nat) (bay : Nat) (domain : Nat) (offset : Int)
  /-- R41. Three sync intervals without a valid Sync put the time base into Holdover. -/
  | tbHoldover (t : Nat)
  /-- R44. Holdover that lasts longer than HOLDLIM makes the time base Lost, which is an F3 fault. -/
  | tbLost (t : Nat)
  /-- R551. announceReceiptTimeout expires without a better Announce, so the best master clock algorithm selects this unit as grandmaster and it locks. -/
  | announceTimeout (t : Nat)
  /-- R249. A peer delay measurement on a gPTP port updates the mean link delay and asCapable. -/
  | pdelayExchange (t : Nat) (bay : Nat) (delay : Nat)
  /-- R48. An epoch ends and the next begins at a multiple of E, and stamping moves to the next epoch number. -/
  | epochBoundary (t : Nat)
  /-- R243. A bay receives a frame and passes it through the receive stages to stamping, consumption, wake filtering or drop. -/
  | bayFrameReceived (t : Nat) (bay : Nat) (frame : Octets) (fcsErr : Bool) (codeErr : Bool)
  /-- R257. TIME × 512 bit times pass, and the paused classes may start on the wire again. -/
  | pauseExpiry (t : Nat) (bay : Nat)
  /-- R242. The link of a bay goes up or down; once the state has held for 1 ms, it is reported and stamped as link up or link down. -/
  | linkChange (t : Nat) (bay : Nat) (link : LinkView)
  /-- R241. An in-band auto-negotiation word announcing half duplex keeps the link down and sets HDX. -/
  | autonegWordReceived (bay : Nat) (halfDuplex : Bool) (speed : Nat)
  /-- R264. A write of EB_MDIO_CMD starts one MDIO frame and sets BUSY, or is rejected with REJ. -/
  | mdioCommand (ms : Master) (w : World) (val : Word)
  /-- R264. An MDIO frame ends; BUSY clears, RDATA and NOACK are updated, and MDIODONE is set. -/
  | mdioDone (rdata : Nat) (ack : Bool)
  /-- R349. The MAC starts the earliest planned frame among the unpaused class FIFOs and sends it with its own FCS. -/
  | bayFrameTransmit (t : Nat) (bay : Nat)
  /-- R163. A CAN tenon receives a valid frame and hands over its frame record, unless it is its own transmission or a twin echo. -/
  | canFrameReceived (t : Nat) (m : Nat) (rx : CanRx)
  /-- R172. A read of CN_PCk_W0 copies the live buffer into the shadow, clears NEW and returns word 0. -/
  | priorityCellRead (ms : Master) (w : World) (m : Nat) (k : Nat)
  /-- R177. At each start of arbitration the driving tenon offers the winning active frame allowed in the current window. -/
  | canArbitrationStart (t : Nat) (m : Nat)
  /-- R165. A sent frame becomes valid and the driving tenon stamps transmit confirmation event 0x01. -/
  | canTransmitEnd (t : Nat) (m : Nat) (tdcv : Nat)
  /-- R184. A transmission attempt loses arbitration or ends in an error; with ONESHOT set, event 0x02 is reported. -/
  | canTransmitFailed (t : Nat) (m : Nat) (lost : CanLost)
  /-- R185. The driving tenon detects a bus error and updates TEC and REC, reporting an error-state or warning change as event 0x04. -/
  | canBusError (t : Nat) (m : Nat) (err : CanErr) (fault : CanFault)
  /-- R187. After 128 occurrences of 11 recessive bits, a recovering tenon returns to error-active. -/
  | busOffRecovered (t : Nat) (m : Nat)
  /-- R187. A processed CN_CTRL.BORECOV write starts bus-off recovery. -/
  | busOffRecoveryRequest (c : Nat) (m : Nat)
  /-- R183. A processed write of CN_CTRL.OPMODE changes the tenon's operating mode when its epoch completes. -/
  | canOpmodeWrite (c : Nat) (m : Nat) (mode : Nat)
  /-- R180. A processed CN_TXABORT clears next slots and withdraws frames not yet started, reporting event 0x03. -/
  | canTxAbort (t : Nat) (m : Nat) (mask : Nat)
  /-- R179. A unit that begins to drive treats held frames as unsent, waits for 11 recessive bits, and resets its error counters. -/
  | beginDriving (t : Nat)
  /-- R195. A schedule matrix basic cycle begins, selects its row, and in reference-master mode the reference message is sent. -/
  | basicCycleStart (t : Nat) (m : Nat)
  /-- R198. An exclusive window opens or the bus falls idle in it, and the frame starts only if its Tw fits the time left. -/
  | exclusiveWindowOpen (t : Nat) (m : Nat) (busy : Bool)
  /-- R198. An exclusive window ends while the bus stayed busy, and its window miss is reported. -/
  | windowEnd (t : Nat) (m : Nat)
  /-- R196. No reference message arrives within 2 × BCLEN, so REFLOST is set and no exclusive window opens. -/
  | referenceLost (t : Nat) (m : Nat)
  /-- R218. A commander's schedule slot begins; pending control writes act, and the header is sent or not by slot type and RUN. -/
  | linSlotStart (t : Nat) (m : Nat)
  /-- R208. A responder detects break, measures sync, its bit time off by `bitDev` per mille, and reads the protected identifier, then decides its
  response. -/
  | linHeaderReceived (t : Nat) (m : Nat) (rx : LinRx) (bitDev : Int)
  /-- R211. A whole LIN frame with valid parity and checksum, not published by this tenon, is handed over. -/
  | linFrameReceived (t : Nat) (m : Nat) (rec : Octets)
  /-- R221. A response is missing, incomplete, or has a checksum, parity or framing error, and event 0x02 is reported. -/
  | linResponseError (t : Nat) (m : Nat) (fid : Nat) (reason : Nat)
  /-- R219. A corrupted event-triggered response is a collision; event 0x03 is reported and the driving commander runs the resolving table. -/
  | linEventCollision (t : Nat) (m : Nat)
  /-- R221. A published response completes and the driving unit stamps event 0x01. -/
  | linTransmitConfirm (t : Nat) (m : Nat)
  /-- R221. An own transmission fails by bit error or a dominant bus at the header start, reported as event 0x06. -/
  | linTxFailed (t : Nat) (m : Nat) (reason : Nat)
  /-- R221. The bus is idle for LN_TIMEO.IDLE ms and bus sleep event 0x04 is reported. -/
  | linBusIdleTimeout (t : Nat) (m : Nat)
  /-- R222. A dominant level of 150 µs or more while in bus sleep is reported as wake event 0x05. -/
  | linWakePulseReceived (t : Nat) (m : Nat) (us : Nat)
  /-- R220. A processed LN_CTRL.TABLE write starts the new schedule table at the first slot boundary after c + L + 2. -/
  | linTableWrite (c : Nat) (m : Nat) (table : Nat)
  /-- R220. A processed LN_CTRL.RUN write stops or resumes headers at the effect slot boundary. -/
  | linRunWrite (c : Nat) (m : Nat) (run : Bool)
  /-- R220. A processed LN_CTRL.SLEEP makes the commander send a go-to-sleep frame and then clear RUN. -/
  | linSleepCommand (c : Nat) (m : Nat)
  /-- R222. A processed LN_CTRL.WAKEREQ makes the driving tenon send a wake pulse and clears BUSSLEEP. -/
  | linWakeRequest (c : Nat) (m : Nat)
  /-- R227. A T1S tenon receives a frame and drops it if bad, or hands it over unless it is a twin echo. -/
  | t1sFrameReceived (t : Nat) (m : Nat) (frame : Octets) (fcsErr : Bool)
  /-- R226. A BEACON is received or sent, and PLCA becomes active if it was inactive. -/
  | plcaBeacon (t : Nat) (m : Nat) (sent : Bool)
  /-- R226. 400 µs pass without a BEACON, so PLCA becomes inactive and the tenon uses CSMA/CD. -/
  | plcaInactive (t : Nat) (m : Nat)
  /-- R229. The driving tenon sends up to MAXBC + 1 queued frames in its transmit opportunity or CSMA/CD attempt; `ph` is what the opportunity comes to:
  its start, the end of a frame, or a collision. -/
  | t1sTransmitOpportunity (t : Nat) (m : Nat) (ph : T1sTx)
  /-- R234. Current at ILIM disconnects the integrated PHY within TDISC and reports event 0x04, or stays off once retries are exhausted. -/
  | phyDisconnect (t : Nat) (trip : PhyTrip)
  /-- R235. RETRYMS after a disconnection the PHY reconnects, and a reconnection that holds is reported. -/
  | phyReconnect (t : Nat) (m : Nat) (held : Bool)
  /-- R235. A processed T1_CTRL.PHYRST reconnects a PHY that stays off. -/
  | phyResetCommand (c : Nat) (m : Nat)
  /-- R237. A processed T1_CTRL.WAKEREQ makes the driving tenon send 1 ms of continuous transmission. -/
  | t1sWakeRequest (c : Nat) (m : Nat)
  /-- R238. A differential above 150 mV for longer than WFILT is a wake, reported as event 0x05 or starting a wake in Watch. -/
  | phyWakeDetect (t : Nat) (m : Nat) (us : Nat)
  /-- R126. A bank's sensed class differs from BANKV for 10 µs, raising an F2 for the mortise bent. -/
  | bankFault (t : Nat) (bank : Nat) (cls : Nat)
  /-- R134. An output pin's sensed level differs from its driven level for 1 µs, setting PINFAULT and an F0 notice. -/
  | pinFault (t : Nat) (m : Nat) (pin : Nat)
  /-- R142. A processed MZ_CTRL.TXINH write discards the mortise's egress from its epoch on, or ends that discard. -/
  | mortiseTxInhibit (c : Nat) (m : Nat) (on : Bool)
  /-- R142. A processed MZ_CTRL.RXINH write drops the mortise's frames at release from its epoch on, or ends that drop. -/
  | mortiseRxInhibit (c : Nat) (m : Nat) (on : Bool)
  /-- R145. A processed MZ_HCOPY write sets the host-copy enable, mode and ring of a mortise. -/
  | hostCopyControl (c : Nat) (m : Nat) (val : Nat)
  /-- R519. The bridge completes reading a transmit ring frame and stamps it as a host ring input, or completes it with ERR. -/
  | hostRingFrameRead (t : Nat) (ring : Nat) (len : Nat) (entry : Nat) (intr : Bool) (frame : Octets) (err : Bool)
  /-- R517. The owning function advances a ring's TAIL, giving descriptors to the device. -/
  | ringTailWrite (ms : Master) (w : World) (tx : Bool) (ring : Nat) (tail : Nat) (bufLens : List Nat)
  /-- R517. A write of CTL.EN = 0 takes a ring out of use and sets HEAD and TAIL to zero. -/
  | ringDisable (ms : Master) (w : World) (tx : Bool) (ring : Nat) (inten : Bool)
  /-- R51. A source hands a stamped input to the epoch engine, which places it in the ledger of its epoch. -/
  | inputHandover (t : Nat) (cls : Nat) (port : Nat)
  /-- R58. In Solo, the ledger of epoch n closes 1.5 µs after the end of the epoch. -/
  | ledgerClose (t : Nat) (n : Nat)
  /-- R60. In paired modes, the local records of an epoch are sealed and sent to the peer 1.5 µs after the epoch ends. -/
  | recordsSealSend (t : Nat) (n : Nat)
  /-- R60. A twin receives the peer's sealed records of an epoch. -/
  | peerRecordsReceived (t : Nat) (n : Nat) (recs : List PeerRec)
  /-- R61. At E + 2.0 µs + E/16, the records of both twins are matched and one-sided inputs are identified. -/
  | matchingDecided (t : Nat) (n : Nat)
  /-- R67. A one-sided input arrives from the peer and is acknowledged. -/
  | fillReceived (t : Nat) (inp : Input)
  /-- R67. The holder receives the acknowledgement of a one-sided fill. -/
  | fillAckReceived (t : Nat) (cls : Nat) (port : Nat) (pos : Nat)
  /-- R67. At 2.5 × E, only the fills completed and acknowledged in time are kept for the ledger. -/
  | fillDeadline (t : Nat) (n : Nat)
  /-- R22. A closed ledger is sorted, its digest computed, and its inputs are issued to the lanes in canonical order and processed. -/
  | ledgerRelease (t : Nat) (n : Nat) (ecc : List (Nat×Bool))
  /-- R326. A learned entry whose AGE reaches AGEMAX is removed and counted. -/
  | ageOut (key : Nat)
  /-- R326. A frozen entry whose MOVES reaches FRZV is unfrozen. -/
  | entryUnfreeze (key : Nat)
  /-- R327. A flush filter retires after one full sweep from its installation. -/
  | flushFilterRetire (k : Nat)
  /-- R75. The processing of an epoch completes; its egress becomes eligible and covered counters and status update. -/
  | epochProcessingComplete (t : Nat) (n : Nat)
  /-- R77. Processing not completed by the end of its epoch raises an F3 and sets OVERRUN. -/
  | epochOverrun (t : Nat)
  /-- R69. At 4 × E, the twins compare ledger digests and outcome records; on a difference or missing record, the twin without the lease leaves step. -/
  | ledgerCompare (t : Nat) (n : Nat) (dig : Option Nat) (out : Option OutcomeRec)
  /-- R288. A route not applied for RXTMO epochs enters timeout and each cell acts by its TMOACT. -/
  | rxTimeout (n : Nat) (r : Nat)
  /-- R285. A cyclic or mixed PDU falls due when n mod PERIOD equals PHASE and is enqueued. -/
  | pduCycleDue (n : Nat) (p : Nat)
  /-- R298. Gateway command OP 0x1 writes a route entry and restarts its route state. -/
  | routeWrite (c : Nat) (idx : Nat) (d : List Nat)
  /-- R298. Gateway command OP 0x2 writes a signal map cell. -/
  | cellWrite (c : Nat) (idx : Nat) (d : List Nat)
  /-- R298. Gateway command OP 0x3 writes the PDU descriptor in force, keeping or resetting its image. -/
  | pduDescriptorWrite (c : Nat) (idx : Nat) (d : List Nat)
  /-- R298. Gateway command OP 0x4 writes image octets, marking the PDU pending where TRIG allows. -/
  | imageWrite (c : Nat) (idx : Nat) (off : Nat) (len : Nat) (trig : Bool) (d : List Nat)
  /-- R298. Gateway command OP 0x5 marks a PDU pending for a host send. -/
  | hostSend (c : Nat) (idx : Nat)
  /-- R298. Gateway command OP 0x6 restarts a route's timeout monitor. -/
  | restartTimeout (c : Nat) (idx : Nat)
  /-- R319. Table command OP 0x1 writes a direct entry in the bank in force. -/
  | directEntryWrite (c : Nat) (idx : Nat) (d : List Nat)
  /-- R310. Table command OP 0x2 inserts or updates a hash entry by cuckoo relocation. -/
  | hashInsert (c : Nat) (idx : Nat) (d : List Nat)
  /-- R311. Table command OP 0x3 deletes a hash entry and moves a stash entry into the freed slot. -/
  | hashDelete (c : Nat) (idx : Nat) (d : List Nat)
  /-- R318. Table command OP 0x4 adds or replaces a prefix, built in the background for its effect epoch. -/
  | prefixAdd (c : Nat) (idx : Nat) (d : List Nat)
  /-- R318. Table command OP 0x5 deletes a prefix, effective at its effect epoch. -/
  | prefixDelete (c : Nat) (idx : Nat) (d : List Nat)
  /-- R327. Table command OP 0x6 installs a flush filter for a port or for all ports. -/
  | learnedFlush (c : Nat) (idx : Nat) (d : List Nat)
  /-- R318. At the effect epoch the pair's root switches to the new build, or the build fails or raises an F3 if still open. -/
  | prefixEffect (n : Nat)
  /-- R331. The scan compares one table entry with its shadow, opening a pending record or repairing an uncorrectable error. -/
  | plumbScanStep (t : Nat) (uncorr : Bool)
  /-- R332. CONFIRM ms after a pending record opened, an unchanged difference is repaired from the shadow as an F1. -/
  | plumbConfirm (t : Nat) (k : Nat)
  /-- R329. A write of TB_SHWDATA stores four octets in the shadow area at ADDR and adds 4 to ADDR. -/
  | shadowWrite (ms : Master) (w : World) (val : Word)
  /-- R341. Meter command OP 0x1 writes a meter's configuration with full tokens. -/
  | meterWrite (c : Nat) (idx : Nat) (d : List Nat)
  /-- R341. Meter command OP 0x2 clears REDNOW and BLOCKED of a meter. -/
  | meterUnblock (c : Nat) (idx : Nat)
  /-- R341. Meter command OP 0x3 clears a meter's counters. -/
  | meterClearCounters (c : Nat) (idx : Nat)
  /-- R358. A processed SC_GCTL.ACT schedules the admin gate list at change time CT, or is refused. -/
  | gateActivate (c : Nat) (bay : Nat)
  /-- R358. At CT the admin list comes into force, the old list becomes admin, and PEND clears. -/
  | gateListChange (t : Nat) (bay : Nat)
  /-- R363. A processed SC_CTRL.HCLR zeroes every histogram bin before its epoch's selection. -/
  | histogramClear (c : Nat)
  /-- R387. KS_UPCTL.CHECK starts the check of the packet in KS_UPBUF. -/
  | keyPacketCheck (t : Nat) (ms : Master) (w : World)
  /-- R386. The packet check ends, leaving the packet staged with its KCV or failed with its code. -/
  | keyCheckComplete (t : Nat)
  /-- R387. KS_UPCTL.DISCARD discards a staged packet. -/
  | keyPacketDiscard (ms : Master) (w : World)
  /-- R388. A processed KS_UPEP_H apply starts the NVKM commit for epoch A, or is refused. -/
  | keyUpdateApply (c : Nat) (a : Nat)
  /-- R392. The sill die finishes writing a bank's header, image and commit marker. -/
  | nvkmCommitComplete (t : Nat) (ok : Bool)
  /-- R388. At the start of epoch A the committed contents come into force, or the commit is abandoned with an F3. -/
  | keyUpdateInForce (n : Nat)
  /-- R383. A shelf entry of a generation no longer in force is zeroised after the last operation holding it ends. -/
  | shelfEntryZeroise (k : Nat)
  /-- R397. A tamper source held for FILT periods erases ETAMP slots and zeroises keys, with the response of the mode. -/
  | tamperDetected (t : Nat) (src : Nat)
  /-- R396. A write of KS_TAMPCFG in Blank or Provisioned is committed to NVKM. -/
  | tamperConfigWrite (ms : Master) (w : World) (src : Nat) (val : Word)
  /-- R399. KS_ATTCTL.REQ captures the nonce and state fields and starts signing a statement. -/
  | attestationRequest (t : Nat) (ms : Master) (w : World)
  /-- R399. The signed statement is written to KS_STMT and VALID and ATTDONE are set. -/
  | statementReady (t : Nat)
  /-- R428. Cipher command OP 0x1 writes a freshness counter. -/
  | freshnessWrite (c : Nat) (idx : Nat) (d : List Nat)
  /-- R428. Cipher command OP 0x2 writes a profile in the bank in force. -/
  | profileWrite (c : Nat) (idx : Nat) (d : List Nat)
  /-- R427. CP_HJCTL.GO starts a single-block encrypt or decrypt under a derived key. -/
  | hostJob (t : Nat) (ms : Master) (w : World)
  /-- R427. A host job completes, writing CP_HJOUT and DONE, or NOKEY. -/
  | hostJobDone (t : Nat)
  /-- R432. Every 10 ms in Raise the unit exchanges pairing records and pairs when every check passes. -/
  | pairingExchange (t : Nat) (rec : PairRec)
  /-- R433. The peer not reached PAIRWAIT × 10 ms after Raise makes the generation stale and the unit enter Hold. -/
  | pairwaitExpiry (t : Nat)
  /-- R439. TW_CTRL.OVR with KEY 0xA5 in Raise takes the lease and enters Lead without a peer. -/
  | leaseOverride (t : Nat) (ms : Master) (w : World) (key : Nat)
  /-- R440. A processed TW_CTRL.HANDOVER on the Lead schedules hand-over at epoch c + 16. -/
  | handoverCommand (c : Nat)
  /-- R440. At epoch X the Shadow takes the lease and becomes Lead and the old Lead becomes Shadow in step. -/
  | handoverEffect (n : Nat)
  /-- R441. At each heartbeat instant the unit sends its scarf heartbeat, with a renewal when it is Lead. -/
  | heartbeatSend (t : Nat)
  /-- R436. A peer heartbeat arrives, acknowledging renewals, extending the lease and measuring the offset. -/
  | heartbeatReceived (t : Nat) (hb : Heartbeat)
  /-- R442. A tell word is sent on TELL_OUT at each heartbeat instant. -/
  | tellWordSend (t : Nat)
  /-- R442. A tell word arrives on TELL_IN, carrying a renewal or an acknowledgement. -/
  | tellWordReceived (t : Nat) (tw : TellWord)
  /-- R444. Two consecutive heartbeats missing on a path take it down and record an F0 notice. -/
  | pathDown (t : Nat) (tell : Bool)
  /-- R444. Four consecutive valid heartbeats bring a path up again. -/
  | pathUp (t : Nat) (tell : Bool)
  /-- R84. Four consecutive offset measurements above E/16 degrade the pair. -/
  | pairDegrade (t : Nat)
  /-- R446. The Lead's lease expires without renewal; it keeps the lease if the peer is down, and otherwise self-fences. -/
  | leaseExpiry (t : Nat)
  /-- R445. 25 µs after its lease view expires with both paths down, the Shadow takes the lease and enters Lead at the next boundary. -/
  | takeover (t : Nat)
  /-- R447. The sill die fence timer fires, forcing CAN and LIN pins to PIDLE and removing their clock enables. -/
  | fenceTimerFire (t : Nat)
  /-- R458. The Lead admits a paired peer into catch-up and begins copying regions. -/
  | resyncStart (t : Nat)
  /-- R459. A resync region is committed once all its octets are acknowledged. -/
  | resyncRegionCommit (t : Nat) (region : Nat)
  /-- R460. The Lead names the join epoch J, from which the Shadow builds its own ledgers. -/
  | resyncJoin (t : Nat) (j : Nat)
  /-- R461. The Shadow silent for 1 ms, or a Shadow fault, abandons catch-up. -/
  | resyncAbandon (t : Nat)
  /-- R456. Recovery state of a handle resets after RSTEP epochs without a passed frame. -/
  | cbRecoveryReset (n : Nat) (h : Nat)
  /-- R467. At the epoch after an F3 the unit enters Hold and drops unreleased inputs. -/
  | holdEntry (t : Nat)
  /-- R468. An F4 resets the frame die within 10 µs, keeping the fault records, and raising follows. -/
  | frameDieReset (t : Nat)
  /-- R466. FLT_ACK clears pending interrupts and ends the handlers that acknowledgement may end. -/
  | faultAck (ms : Master) (w : World) (ack : Nat)
  /-- R464. FLT_ACK.SFCLR clears the second-fault record and SFCNT. -/
  | secondFaultClear (ms : Master) (w : World)
  /-- R466. An F2 handler not acknowledged ends F2HOLD ms after its fault. -/
  | f2HandlerTimeout (t : Nat)
  /-- R472. A processed WK_CTRL.SLEEP decides a forced sleep, or in Bench starts quiesce at once. -/
  | sleepRequest (t : Nat) (c : Nat)
  /-- R473. A processed WK_CTRL.SLPGO ends prepare at the next epoch. -/
  | sleepGo (c : Nat)
  /-- R475. A processed cancel source ends the sleep before the commit point and the tenons resume. -/
  | sleepCancel (t : Nat)
  /-- R474. At epoch Q, tenons stop transmitting, egress is discarded and the sill die arms wake sources. -/
  | quiesceStart (t : Nat) (q : Nat)
  /-- R476. At the commit point, the frame die hands over and is powered down into Watch or Sill. -/
  | sleepCommit (t : Nat)
  /-- R477. A latched wake is acted on no earlier than 3.0 ms after the commit point and raising begins. -/
  | wakeActed (t : Nat)
  /-- R479. A WAKE_IN pin at its active level for INFILT periods is a wake. -/
  | wakeInDetect (t : Nat) (pin : Nat)
  /-- R480. A wake listener decodes a matching CAN frame, or reaches an error count of 32, and wakes. -/
  | wakeListenerMatch (t : Nat) (k : Nat) (byError : Bool) (rec : Octets)
  /-- R479. The sill timer expires SEC seconds after the commit point and wakes the device. -/
  | sillTimerWake (t : Nat)
  /-- R483. After DWELL hours in Watch the sill die disarms listeners and enters Sill. -/
  | watchDwellExpiry (t : Nat)
  /-- R485. A processed WK_CTRL.WKOUT, or an automatic wake, starts a WAKE_OUT pulse unless within 100 ms of the last. -/
  | wakeOutRequest (t : Nat)
  /-- R485. The WAKE_OUT pulse ends after WKPULSE µs. -/
  | wakeOutPulseEnd (t : Nat)
  /-- R495. A processed WK_CTRL.AWRST restarts the awake time and clears the blocks. -/
  | awakeRestart (c : Nat)
  /-- R495. The maximum awake time expires; rings become ready, own demands end and offenders are blocked. -/
  | maxAwakeExpiry (n : Nat)
  /-- R489. DTYP epochs after a token, the device passes the ring frame to its successor with updated consent. -/
  | ringPass (n : Nat) (r : Nat)
  /-- R491. DTYP epochs after the last ALIVE frame, the lowest member starts the ring. -/
  | ringStart (n : Nat) (r : Nat)
  /-- R491. No token for DMAXEP epochs makes the ring lost and sends ALIVE. -/
  | ringLost (n : Nat) (r : Nat)
  /-- R493. A partial network's keep-alive timer ends, and it falls asleep unless its own demand holds. -/
  | pnTimeout (n : Nat) (p : Nat)
  /-- R501. VCORE current or die temperature beyond the trip threshold raises an F3 and divides the bent clocks. -/
  | powerTrip (t : Nat) (current : Nat) (temp : Nat)
  /-- R501. Both measurements below 90 % of their thresholds for 10 ms clear TRIP. -/
  | tripClear (sense : PowerSense)
  /-- R499. A bent's fast clocks start or stop along a ramp sequenced by the king post. -/
  | clockRamp (t : Nat) (bent : Nat) (start : Bool)
  /-- R504. An SPI transaction with a command octet and address reads or writes register words in its world. -/
  | spiTransaction (cmd : Nat) (addr : Nat) (vals : List Word)
  /-- R510. An access to the far window is sent to the twin as the scarf peer, or fails when the window is not live. -/
  | farAccess (t : Nat) (ms : Master) (w : World) (addr : RegAddr) (write : Option Word)
  /-- R510. The twin completes a far access and the result is returned. -/
  | farCompletion (t : Nat) (data : Option Word)
  /-- R511. A far access not completed in 10 µs fails and a far write is logged with its code. -/
  | farAccessTimeout (t : Nat)
  /-- R511. HB_PWSTAT.CLR clears the posted-write error log and OVF. -/
  | postedLogClear (ms : Master) (w : World)
  /-- R514. HB_LOCKCTL.ACQ reserves the local or far register bus when no other master holds it. -/
  | lockAcquire (t : Nat) (ms : Master) (w : World) (far : Bool)
  /-- R514. HB_LOCKCTL.REL by the holder releases the lock. -/
  | lockRelease (ms : Master) (w : World) (far : Bool)
  /-- R514. A lock held for 4 µs is aborted, logged and the holder's error flag set. -/
  | lockAbort (t : Nat) (far : Bool)
  /-- R515. A read in an enabled prefetch window fetches its whole block from the twin, or is served from the held block. -/
  | prefetchRead (t : Nat) (ms : Master) (w : World) (off : Nat) (block : List Word)
  /-- R515. A held prefetch block is discarded after PFLIFE µs. -/
  | prefetchExpire (t : Nat) (k : Nat)
  /-- R520. Unmasking a vector with its pending bit set sends it. -/
  | msixUnmask (ms : Master) (vec : Nat)
  /-- R17. VSILL enters its operating range, the sill die starts on its RC fallback until the 32.768 kHz crystal runs, and the device is in Sill. -/
  | vsillApplied (t : Nat)
  /-- R130. The supply of an I/O bank rises after the bank was unpowered, and its pins are held high-impedance with input buffers disabled until the bent is configured. -/
  | bankPowerUp (t : Nat) (bank : Nat) (cls : Nat)
  /-- R93. The loader finishes reading and checking the header and record table (checks 1 to 14, with the 1.2 ms signature verification), then proceeds, falls back to slot B, or enters Bench; FLTCFG takes effect. -/
  | headerChecked (t : Nat) (header : Octets) (sig : Octets)
  /-- R318. The background build of a prefix change (TCAM row moves and new trie node copies) completes, clearing TB_STATUS.BUILD and RESORT. -/
  | prefixBuildDone (t : Nat)
  /-- R471. A corrected or uncorrectable SRAM or DRAM error outside a table lookup raises an F1, an F2 of its bent, or an F3 when it lies outside any bent. -/
  | memoryErrorDetected (t : Nat) (bent : Nat) (uncorr : Bool)
  /-- R471. A fault in the epoch engine or the fault manager raises an F4 with cause 0x40, which resets the frame die. -/
  | epochEngineFault (t : Nat)
  /-- R551. An Announce message of the epoch domain arrives and the best master clock algorithm re-evaluates the grandmaster and the port roles. -/
  | announceReceived (t : Nat) (bay : Nat) (domain : Nat) (vec : List Nat)
  /-- R512. A PCIe or JTAG register read by a master whose pending-error flag is set completes with error, returns zero and clears the flag. -/
  | readCompletesWithError (ms : Master)
  /-- R543. The WAKE_OUT driver reaches over-temperature and the pulse in progress ends at once. -/
  | driverOverTemperature (t : Nat)
  /-- R550. The scarf link goes down; every transfer still on it is lost, and outstanding far writes fail with code 0x1. -/
  | scarfLinkLoss (t : Nat)
  /-- R506. A PCIe write through BAR2 is stored in the staging region or the shadow area, or is ignored in other regions and in staging while a delta is armed or being checked. -/
  | bar2Write (w : World) (off : Nat) (data : Octets)
  deriving DecidableEq, Repr

end Sys2Proof
end

