-- ==== Sys2Proof/Decode.lean ====
section
/-! DEFINITION. Decode.lean: the command that a word spells by the bits of opcode_table.json. -/
namespace Sys2Proof

/-- No row of spec/opcode_table.json gives bits (the block takes commands, not words), so no word spells a command. -/
def decodeTableWord (_nbits _w : Nat) : Option Instr := none

end Sys2Proof
end

