-- ==== Sys2Proof/Machine/Bits.lean ====
section
/-! DEFINITION. Machine/Bits.lean: bit fields of words and numbers, and the octet orders the spec uses (little-endian records and tables,
big-endian digests and keys). Bit ranges are written [high:low] in the spec; here a field is its low bit and its width. -/
namespace Sys2Proof.Machine
open Sys2Proof

/-- Field of `w` bits from bit `lo` of a number. -/
def bitsN (n lo w : Nat) : Nat := (n >>> lo) % 2 ^ w

/-- Bit `k` of a number. -/
def bitN (n k : Nat) : Bool := n.testBit k

/-- A number with the field of `w` bits from bit `lo` replaced by `v` (taken modulo the field). -/
def putN (n lo w v : Nat) : Nat := n - (bitsN n lo w) * 2 ^ lo + (v % 2 ^ w) * 2 ^ lo

/-- A number with bit `k` set to `b`. -/
def putBit (n k : Nat) (b : Bool) : Nat := putN n k 1 (if b then 1 else 0)

/-- 1 for true, 0 for false. -/
def b2n (b : Bool) : Nat := if b then 1 else 0

/-- Little-endian octets as a number: octet 0 carries bits [7:0]. -/
def leNat : Octets → Nat
  | [] => 0
  | b :: bs => b.toNat + 256 * leNat bs

/-- A number as `k` little-endian octets. -/
def natLE : Nat → Nat → Octets
  | 0, _ => []
  | k + 1, n => BitVec.ofNat 8 n :: natLE k (n / 256)

/-- Big-endian octets as a number. -/
def beNat (l : Octets) : Nat := leNat l.reverse

/-- A number as `k` big-endian octets. -/
def natBE (k n : Nat) : Octets := (natLE k n).reverse

/-- The octets `[off, off + len)` of a list. -/
def slice (l : Octets) (off len : Nat) : Octets := (l.drop off).take len

/-- Octet `i`, 0 beyond the end. -/
def oct (l : Octets) (i : Nat) : Nat := (l.getD i 0).toNat

/-- Little-endian field of `len` octets at `off`. -/
def leAt (l : Octets) (off len : Nat) : Nat := leNat (slice l off len)

/-- Big-endian field of `len` octets at `off`. -/
def beAt (l : Octets) (off len : Nat) : Nat := beNat (slice l off len)

/-- `l` with its octets from `off` replaced by those of `v` (within the length of `l`). -/
def putOcts (l : Octets) (off : Nat) (v : Octets) : Octets :=
  l.take off ++ (v.take (l.length - off)) ++ l.drop (off + v.length)

/-- `l` extended with zero octets, or cut, to `n` octets. -/
def padTo (n : Nat) (l : Octets) : Octets := l.take n ++ List.replicate (n - l.length) 0

/-- Two's complement value of the low `w` bits. -/
def signedN (w n : Nat) : Int :=
  let m := n % 2 ^ w
  if m < 2 ^ (w - 1) then (m : Int) else (m : Int) - 2 ^ w

/-- The low `w` bits of an integer. -/
def wrapI (w : Nat) (i : Int) : Nat := (i % (2 ^ w : Int)).toNat

/-- Division rounded up. -/
def cdiv (a b : Nat) : Nat := if b = 0 then 0 else (a + b - 1) / b

/-- Element `i` of a list, or the type's default. -/
def nth {α : Type} [Inhabited α] (l : List α) (i : Nat) : α := l.getD i default

/-- `l` with element `i` changed by `f`; unchanged when there is none. -/
def updAt {α : Type} (l : List α) (i : Nat) (f : α → α) : List α := l.modify i f

/-- A stable insertion sort by a numeric key. -/
def insertBy {α : Type} (key : α → Nat) (x : α) : List α → List α
  | [] => [x]
  | y :: ys => if key y ≤ key x then y :: insertBy key x ys else x :: y :: ys

/-- The list sorted by ascending key, elements of equal key in their order in the list. -/
def sortBy {α : Type} (key : α → Nat) (l : List α) : List α := l.foldl (fun acc x => insertBy key x acc) []

/-- The association list's value under `k`. -/
def assoc {β : Type} (l : List (Nat × β)) (k : Nat) : Option β := (l.find? (fun p => p.1 == k)).map (·.2)

/-- The association list without key `k`. -/
def assocDel {β : Type} (l : List (Nat × β)) (k : Nat) : List (Nat × β) := l.filter (fun p => p.1 != k)

/-- The association list with `k` bound to `v`, in place where `k` is bound already, else appended. -/
def assocPut {β : Type} (l : List (Nat × β)) (k : Nat) (v : β) : List (Nat × β) :=
  if l.any (fun p => p.1 == k) then l.map (fun p => if p.1 == k then (k, v) else p) else l ++ [(k, v)]

/-- `[0, …, n-1]` mapped and kept where defined. -/
def collect {β : Type} (n : Nat) (f : Nat → Option β) : List β := (List.range n).filterMap f

/-- The number of set bits among the low `w` bits. -/
def popcount (w n : Nat) : Nat := ((List.range w).filter (fun k => n.testBit k)).length

end Sys2Proof.Machine
end

