-- ==== Sys2Proof/Machine/Crc.lean ====
section
/-! DEFINITION. Machine/Crc.lean: the cyclic codes the spec names: CRC-64 of ECMA-182 (R60), CRC-16/CCITT (R258) and the CRC-32 of the
Ethernet FCS. -/
namespace Sys2Proof.Machine
open Sys2Proof

/-- One bit of a CRC sent most significant bit first: `w` bits wide, polynomial `poly`. -/
def crcBit (w poly c : Nat) (b : Bool) : Nat :=
  let top := xor (c.testBit (w - 1)) b
  let c := (c * 2) % 2 ^ w
  if top then c ^^^ poly else c

/-- The bits of an octet, most significant first. -/
def bitsMsb (b : Byte) : List Bool := [b.getLsbD 7, b.getLsbD 6, b.getLsbD 5, b.getLsbD 4, b.getLsbD 3, b.getLsbD 2, b.getLsbD 1, b.getLsbD 0]

/-- A CRC over octets, most significant bit first, from an initial value. -/
def crcMsb (w poly init : Nat) (l : Octets) : Nat := l.foldl (fun c b => (bitsMsb b).foldl (crcBit w poly) c) init

/-- CRC-64 with the ECMA-182 polynomial (R60): initial value 0, no reflection, no final XOR. -/
def crc64 (l : Octets) : Nat := crcMsb 64 0x42F0E1EBA9EA3693 0 l

/-- CRC-16/CCITT with initial value 0xFFFF (R258). -/
def crc16 (l : Octets) : Nat := crcMsb 16 0x1021 0xFFFF l

/-- One bit of a reflected 32-bit CRC. -/
def crcRef (poly c : Nat) (b : Bool) : Nat := if xor (c.testBit 0) b then (c / 2) ^^^ poly else c / 2

/-- A reflected 32-bit CRC with initial value and final XOR 0xFFFF_FFFF. -/
def crc32r (poly : Nat) (l : Octets) : Nat :=
  (l.foldl (fun c b => (bitsMsb b).reverse.foldl (crcRef poly) c) 0xFFFFFFFF) ^^^ 0xFFFFFFFF

/-- The CRC-32 of IEEE 802.3 (polynomial 0x04C1_1DB7, reflected). PRESUMED (log 14): the spec names the FCS and the CRC-32 without its polynomial. -/
def crc32 (l : Octets) : Nat := crc32r 0xEDB88320 l

/-- The four FCS octets of a frame, in the order they are sent. -/
def fcsOf (l : Octets) : Octets := natLE 4 (crc32 l)

/-- The FCS with every bit inverted: the invalid FCS of a copy cut short (R421). -/
def badFcs (l : Octets) : Octets := natLE 4 (crc32 l ^^^ 0xFFFFFFFF)

end Sys2Proof.Machine
end

