-- ==== Sys2Proof/Config.lean ====
section
/-! DEFINITION. Config.lean: the free values of the model: what the spec leaves open, as constants without a body that no proof can
look into. -/
namespace Sys2Proof

/-- The n-th free value taken by a run. -/
opaque Config.freeValue : Nat → BitVec 256

/-- The octets of a host command over which R60 computes its match digest: the spec defines the octets of frames and events only. The
arguments are the offset written, the word and the captured registers. -/
opaque Config.commandOctets : Nat → Nat → List Nat → Octets

/-- The value REC takes when a receiver above 127 receives a frame well: ISO 11898-1 allows 119 to 127; the constant is taken modulo 9
above 119. -/
opaque Config.canRecReturn : Nat

/-- The elements of this unit's own best-master-clock vector after priority1 (R40, IEEE 802.1AS). -/
opaque Config.ownClock : List Nat

/-- EPOCH of a heartbeat sent at an instant while no epoch is stamped: R441 gives it for a unit that stamps one only. -/
opaque Config.noEpoch : Nat → BitVec 48

/-- The device identity of the factory record (R371), octet 0 in the most significant place. -/
opaque Config.identity : BitVec 128

/-- The attestation private key of the factory record (R372). -/
opaque Config.attestKey : BitVec 256

/-- The transport key in slot 0 of a device as it leaves the factory (R374). -/
opaque Config.transportKey : BitVec 256

/-- The parse graph of a PB0 section (R22, R72): the next step on the path of an input of a CLASS and PORT that entered at a node, from the octets of
its record and the results of the steps before it, each as (found, RES, AUX). The spec gives the graph no format, so the model leaves
it free. -/
opaque Config.parseStep : Octets → Nat → Nat → Nat → Octets → List (Bool × Nat × Nat) → ParseAct

/-- The declared lookup cost that a PB0 section gives for a CLASS and PORT (R72); the spec does not say where it stands. -/
opaque Config.lookupCost : Octets → Nat → Nat → Nat

end Sys2Proof
end

