-- ==== Sys2Proof/Machine/RegMap.lean ====
section
/-! DEFINITION. Machine/RegMap.lean: the register space of BAR0 (R505): every register heading of the chapters, its offset (R5), its repeated
pages, its access policy (R9), its fields with their access codes (R10), their reset values and the mark "Ledger input" (R52).
Reserved fields are left out of the rows: they read as zero and take no write (R8). A register whose reset value comes from outside the
register space (the descriptor, SB0, NVKM, the ball) starts at 0 here and is loaded by the event that loads it. -/
namespace Sys2Proof.Machine
open Sys2Proof

/-! Offsets. -/
abbrev GL_ID : Nat := 0x0
abbrev GL_MODE : Nat := 0x4
abbrev GL_IRQPEND : Nat := 0x8
abbrev GL_IRQPIN : Nat := 0xc
abbrev GL_IRQPEND_H : Nat := 0x10
abbrev GL_IRQPIN_H : Nat := 0x14
abbrev PW_CTRL : Nat := 0x10000
abbrev PW_STATUS : Nat := 0x10004
abbrev PW_GRANT : Nat := 0x10008
abbrev PW_BASE : Nat := 0x1000c
abbrev PW_ENERGY_L : Nat := 0x10010
abbrev PW_ENERGY_H : Nat := 0x10014
abbrev PW_CLKST : Nat := 0x10018
abbrev PW_TRIP : Nat := 0x1001c
abbrev PW_SENSE : Nat := 0x10020
abbrev PW_EVENT : Nat := 0x10024
abbrev PW_INTEN : Nat := 0x10028
abbrev SL_WKSRC : Nat := 0x20000
abbrev FLT_STATUS : Nat := 0x30000
abbrev FLT_ACK : Nat := 0x30004
abbrev FLT_INTEN : Nat := 0x30008
abbrev FLT_FF_W0 (i : Nat) : Nat := 0x30010 + 0x10 * i
abbrev FLT_FF_W1 (i : Nat) : Nat := 0x30014 + 0x10 * i
abbrev FLT_FF_W2 (i : Nat) : Nat := 0x30018 + 0x10 * i
abbrev FLT_FF_W3 (i : Nat) : Nat := 0x3001c + 0x10 * i
abbrev FLT_SF_W0 : Nat := 0x30060
abbrev FLT_SF_W1 : Nat := 0x30064
abbrev FLT_SF_W2 : Nat := 0x30068
abbrev FLT_SF_W3 : Nat := 0x3006c
abbrev FLT_CNT (i : Nat) : Nat := 0x30070 + 0x4 * i
abbrev FLT_HDROP : Nat := 0x30084
abbrev FLT_VIOL : Nat := 0x30088
abbrev EP_CTRL : Nat := 0x40000
abbrev EP_STATUS : Nat := 0x40004
abbrev EP_NOW_L : Nat := 0x40008
abbrev EP_NOW_H : Nat := 0x4000c
abbrev EP_REL_L : Nat := 0x40010
abbrev EP_REL_H : Nat := 0x40014
abbrev EP_TBCFG : Nat := 0x40018
abbrev EP_HOLD : Nat := 0x4001c
abbrev EP_TWOFS : Nat := 0x40020
abbrev EP_TWOFSMAX : Nat := 0x40024
abbrev EP_BUDGET : Nat := 0x40028
abbrev EP_EVENT : Nat := 0x4002c
abbrev EP_INTEN : Nat := 0x40030
abbrev EP_LOSSEP_L : Nat := 0x40034
abbrev EP_LOSSEP_H : Nat := 0x40038
abbrev EP_DIGEST_L : Nat := 0x4003c
abbrev EP_DIGEST_H : Nat := 0x40040
abbrev EP_CNT (i : Nat) : Nat := 0x40050 + 0x4 * i
abbrev FR_CTRL : Nat := 0x80000
abbrev FR_STATUS : Nat := 0x80004
abbrev FR_ERR : Nat := 0x80008
abbrev FR_FLOOR : Nat := 0x80030
abbrev FR_COUNTER : Nat := 0x80034
abbrev FR_FLASHA : Nat := 0x80038
abbrev FR_STAGE : Nat := 0x80040
abbrev FR_BENTST : Nat := 0x80050
abbrev FR_EVENT : Nat := 0x80054
abbrev FR_INTEN : Nat := 0x80058
abbrev FR_TIME : Nat := 0x8005c
abbrev FR_DROP : Nat := 0x80068
abbrev FR_DIG (i : Nat) : Nat := 0x80010 + 0x4 * i
abbrev FR_SWAP_L : Nat := 0x80048
abbrev FR_SWAP_H : Nat := 0x8004c
abbrev FR_RESUME_L : Nat := 0x80060
abbrev FR_RESUME_H : Nat := 0x80064
abbrev MZ_ID (i : Nat) : Nat := 0x100000 + 0x1000 * i
abbrev MZ_CTRL (i : Nat) : Nat := 0x100004 + 0x1000 * i
abbrev MZ_STATUS (i : Nat) : Nat := 0x100008 + 0x1000 * i
abbrev MZ_BANK (i : Nat) : Nat := 0x10000c + 0x1000 * i
abbrev MZ_EVENT (i : Nat) : Nat := 0x100010 + 0x1000 * i
abbrev MZ_INTEN (i : Nat) : Nat := 0x100014 + 0x1000 * i
abbrev MZ_HCOPY (i : Nat) : Nat := 0x100018 + 0x1000 * i
abbrev MZ_CNT (i j : Nat) : Nat := 0x100020 + 0x1000 * i + 0x4 * j
abbrev MZ_RES_L (i : Nat) : Nat := 0x100040 + 0x1000 * i
abbrev MZ_RES_H (i : Nat) : Nat := 0x100044 + 0x1000 * i
abbrev CN_CFG (i : Nat) : Nat := 0x100100 + 0x1000 * i
abbrev CN_CTRL (i : Nat) : Nat := 0x100104 + 0x1000 * i
abbrev CN_STATUS (i : Nat) : Nat := 0x100108 + 0x1000 * i
abbrev CN_BTIM_N (i : Nat) : Nat := 0x10010c + 0x1000 * i
abbrev CN_BTIM_D (i : Nat) : Nat := 0x100110 + 0x1000 * i
abbrev CN_BTIM_X (i : Nat) : Nat := 0x100114 + 0x1000 * i
abbrev CN_TDC_D (i : Nat) : Nat := 0x100118 + 0x1000 * i
abbrev CN_TDC_X (i : Nat) : Nat := 0x10011c + 0x1000 * i
abbrev CN_XLPWM (i : Nat) : Nat := 0x100120 + 0x1000 * i
abbrev CN_ERRC (i : Nat) : Nat := 0x100124 + 0x1000 * i
abbrev CN_LONE (i : Nat) : Nat := 0x100128 + 0x1000 * i
abbrev CN_COLL (i : Nat) : Nat := 0x10012c + 0x1000 * i
abbrev CN_COLLID (i : Nat) : Nat := 0x10013c + 0x1000 * i
abbrev CN_TXOCC (i : Nat) : Nat := 0x100130 + 0x1000 * i
abbrev CN_TXWIRE (i : Nat) : Nat := 0x100134 + 0x1000 * i
abbrev CN_TXABORT (i : Nat) : Nat := 0x100138 + 0x1000 * i
abbrev CN_CNT (i j : Nat) : Nat := 0x100140 + 0x1000 * i + 0x4 * j
abbrev CN_TTCFG (i : Nat) : Nat := 0x100160 + 0x1000 * i
abbrev CN_TTBC (i : Nat) : Nat := 0x100164 + 0x1000 * i
abbrev CN_TTCOL (i j : Nat) : Nat := 0x100168 + 0x1000 * i + 0x4 * j
abbrev CN_TTSTAT (i : Nat) : Nat := 0x100188 + 0x1000 * i
abbrev CN_PC_ID (i j : Nat) : Nat := 0x1001c0 + 0x1000 * i + 0x8 * j
abbrev CN_PC_MASK (i j : Nat) : Nat := 0x1001c4 + 0x1000 * i + 0x8 * j
abbrev CN_PCSTAT (i : Nat) : Nat := 0x1001e0 + 0x1000 * i
abbrev CN_PC_W0 (i j : Nat) : Nat := 0x100200 + 0x1000 * i + 0x80 * j
abbrev CN_PC_W1 (i j : Nat) : Nat := 0x100204 + 0x1000 * i + 0x80 * j
abbrev CN_PC_W2 (i j : Nat) : Nat := 0x100208 + 0x1000 * i + 0x80 * j
abbrev CN_PC_W3 (i j : Nat) : Nat := 0x10020c + 0x1000 * i + 0x80 * j
abbrev CN_PC_DATA (i j k : Nat) : Nat := 0x100210 + 0x1000 * i + 0x80 * j + 0x4 * k
abbrev CN_PC_TS (i j : Nat) : Nat := 0x100250 + 0x1000 * i + 0x80 * j
abbrev CN_OBJ (i j : Nat) : Nat := 0x100400 + 0x1000 * i + 0x4 * j
abbrev CN_TTMX (i j : Nat) : Nat := 0x100800 + 0x1000 * i + 0x4 * j
abbrev LN_CFG (i : Nat) : Nat := 0x100100 + 0x1000 * i
abbrev LN_BAUD (i : Nat) : Nat := 0x100104 + 0x1000 * i
abbrev LN_TIMEO (i : Nat) : Nat := 0x100108 + 0x1000 * i
abbrev LN_CTRL (i : Nat) : Nat := 0x10010c + 0x1000 * i
abbrev LN_STATUS (i : Nat) : Nat := 0x100110 + 0x1000 * i
abbrev LN_PUB_L (i : Nat) : Nat := 0x100114 + 0x1000 * i
abbrev LN_PUB_H (i : Nat) : Nat := 0x100118 + 0x1000 * i
abbrev LN_ENH_L (i : Nat) : Nat := 0x10011c + 0x1000 * i
abbrev LN_ENH_H (i : Nat) : Nat := 0x100120 + 0x1000 * i
abbrev LN_DLEN (i j : Nat) : Nat := 0x100124 + 0x1000 * i + 0x4 * j
abbrev LN_CNT (i j : Nat) : Nat := 0x100160 + 0x1000 * i + 0x4 * j
abbrev LN_SCH (i j : Nat) : Nat := 0x100400 + 0x1000 * i + 0x4 * j
abbrev T1_CFG (i : Nat) : Nat := 0x100100 + 0x1000 * i
abbrev T1_PLCA (i : Nat) : Nat := 0x100104 + 0x1000 * i
abbrev T1_PHY (i : Nat) : Nat := 0x100108 + 0x1000 * i
abbrev T1_CTRL (i : Nat) : Nat := 0x10010c + 0x1000 * i
abbrev T1_STATUS (i : Nat) : Nat := 0x100110 + 0x1000 * i
abbrev T1_CNT (i j : Nat) : Nat := 0x100120 + 0x1000 * i + 0x4 * j
abbrev EB_ID (i : Nat) : Nat := 0x180000 + 0x4000 * i
abbrev EB_MACCFG (i : Nat) : Nat := 0x180004 + 0x4000 * i
abbrev EB_STATUS (i : Nat) : Nat := 0x180008 + 0x4000 * i
abbrev EB_RXCFG (i : Nat) : Nat := 0x18000c + 0x4000 * i
abbrev EB_RXDEF (i : Nat) : Nat := 0x180010 + 0x4000 * i
abbrev EB_FCCFG (i : Nat) : Nat := 0x180014 + 0x4000 * i
abbrev EB_MACADDR_L (i : Nat) : Nat := 0x180018 + 0x4000 * i
abbrev EB_MACADDR_H (i : Nat) : Nat := 0x18001c + 0x4000 * i
abbrev EB_PTPCFG (i : Nat) : Nat := 0x180020 + 0x4000 * i
abbrev EB_PTPLAT (i : Nat) : Nat := 0x180024 + 0x4000 * i
abbrev EB_PTPDLY (i : Nat) : Nat := 0x180028 + 0x4000 * i
abbrev EB_EVENT (i : Nat) : Nat := 0x180030 + 0x4000 * i
abbrev EB_INTEN (i : Nat) : Nat := 0x180034 + 0x4000 * i
abbrev EB_CNT (i j : Nat) : Nat := 0x180040 + 0x4000 * i + 0x4 * j
abbrev EB_RQ (i j : Nat) : Nat := 0x180100 + 0x4000 * i + 0x4 * j
abbrev EB_RULE_W0 (i j : Nat) : Nat := 0x180200 + 0x4000 * i + 0x10 * j
abbrev EB_RULE_W1 (i j : Nat) : Nat := 0x180204 + 0x4000 * i + 0x10 * j
abbrev EB_RULE_W2 (i j : Nat) : Nat := 0x180208 + 0x4000 * i + 0x10 * j
abbrev EB_WP_M (i j k : Nat) : Nat := 0x180600 + 0x4000 * i + 0x20 * j + 0x4 * k
abbrev EB_WP_CTL (i j : Nat) : Nat := 0x180610 + 0x4000 * i + 0x20 * j
abbrev EB_MDIO_CFG : Nat := 0x180800
abbrev EB_MDIO_CMD : Nat := 0x180804
abbrev EB_MDIO_STAT : Nat := 0x180808
abbrev SG_CTRL : Nat := 0x200000
abbrev SG_STATUS : Nat := 0x200004
abbrev SG_BUDGET : Nat := 0x200008
abbrev SG_EVENT : Nat := 0x20000c
abbrev SG_INTEN : Nat := 0x200010
abbrev SG_CMDIDX : Nat := 0x200014
abbrev SG_CMDOFF : Nat := 0x200018
abbrev SG_CMDOP : Nat := 0x20001c
abbrev SG_CMDD (i : Nat) : Nat := 0x200040 + 0x4 * i
abbrev SG_CNT (i : Nat) : Nat := 0x200080 + 0x4 * i
abbrev SG_PCOST (i : Nat) : Nat := 0x200100 + 0x4 * i
abbrev TB_CTRL : Nat := 0x280000
abbrev TB_STATUS : Nat := 0x280004
abbrev TB_CFG : Nat := 0x280008
abbrev TB_LRNCFG : Nat := 0x28000c
abbrev TB_EVENT : Nat := 0x280010
abbrev TB_INTEN : Nat := 0x280014
abbrev TB_PSCTRL : Nat := 0x280018
abbrev TB_PSCFG : Nat := 0x28001c
abbrev TB_PSSTAT : Nat := 0x280020
abbrev TB_PSPOS : Nat := 0x280024
abbrev TB_PSBASE : Nat := 0x280028
abbrev TB_SHWADDR : Nat := 0x28002c
abbrev TB_SHWDATA : Nat := 0x280030
abbrev TB_PSLAST : Nat := 0x280034
abbrev TB_OCC0 : Nat := 0x280038
abbrev TB_OCC1 : Nat := 0x28003c
abbrev TB_OCC2 : Nat := 0x280040
abbrev TB_OCC3 : Nat := 0x280044
abbrev TB_CMDIDX : Nat := 0x280048
abbrev TB_CMDOP : Nat := 0x28004c
abbrev TB_CMDD (i : Nat) : Nat := 0x280050 + 0x4 * i
abbrev TB_CNT (i : Nat) : Nat := 0x280080 + 0x4 * i
abbrev TB_ROOT (i : Nat) : Nat := 0x280100 + 0x4 * i
abbrev SC_CTRL : Nat := 0x300000
abbrev SC_STATUS : Nat := 0x300004
abbrev SC_EVENT : Nat := 0x300008
abbrev SC_INTEN : Nat := 0x30000c
abbrev SC_CMDIDX : Nat := 0x300010
abbrev SC_CMDOP : Nat := 0x300014
abbrev SC_CMDD (i : Nat) : Nat := 0x300020 + 0x4 * i
abbrev SC_CNT (i : Nat) : Nat := 0x300040 + 0x4 * i
abbrev SC_MBASE : Nat := 0x300070
abbrev SC_PCFG (i : Nat) : Nat := 0x301000 + 0x400 * i
abbrev SC_PRATE (i : Nat) : Nat := 0x301004 + 0x400 * i
abbrev SC_PSTAT (i : Nat) : Nat := 0x301008 + 0x400 * i
abbrev SC_PDROP (i : Nat) : Nat := 0x30100c + 0x400 * i
abbrev SC_GCTL (i : Nat) : Nat := 0x321010 + 0x400 * i
abbrev SC_GBASE_L (i : Nat) : Nat := 0x321014 + 0x400 * i
abbrev SC_GBASE_H (i : Nat) : Nat := 0x321018 + 0x400 * i
abbrev SC_GCYC (i : Nat) : Nat := 0x32101c + 0x400 * i
abbrev SC_GCT_L (i : Nat) : Nat := 0x321020 + 0x400 * i
abbrev SC_GCT_H (i : Nat) : Nat := 0x321024 + 0x400 * i
abbrev SC_CL_W0 (i j : Nat) : Nat := 0x301040 + 0x400 * i + 0x10 * j
abbrev SC_CL_W1 (i j : Nat) : Nat := 0x301044 + 0x400 * i + 0x10 * j
abbrev SC_CL_W2 (i j : Nat) : Nat := 0x301048 + 0x400 * i + 0x10 * j
abbrev SC_CL_W3 (i j : Nat) : Nat := 0x30104c + 0x400 * i + 0x10 * j
abbrev SC_QLAST (i j : Nat) : Nat := 0x3010c0 + 0x400 * i + 0x4 * j
abbrev SC_CRED (i j : Nat) : Nat := 0x3010e0 + 0x400 * i + 0x4 * j
abbrev SC_LIM_ID (i j : Nat) : Nat := 0x301100 + 0x400 * i + 0x10 * j
abbrev SC_LIM_MASK (i j : Nat) : Nat := 0x301104 + 0x400 * i + 0x10 * j
abbrev SC_LIM_CFG (i j : Nat) : Nat := 0x301108 + 0x400 * i + 0x10 * j
abbrev SC_LIM_CRED (i j : Nat) : Nat := 0x30110c + 0x400 * i + 0x10 * j
abbrev SC_GLA (i j : Nat) : Nat := 0x330000 + 0x1000 * i + 0x4 * j
abbrev SC_GLB (i j : Nat) : Nat := 0x330800 + 0x1000 * i + 0x4 * j
abbrev SC_HIST (i j : Nat) : Nat := 0x340000 + 0x80 * i + 0x4 * j
abbrev KS_ID (i : Nat) : Nat := 0x380000 + 0x4 * i
abbrev KS_STATUS : Nat := 0x380010
abbrev KS_EVENT : Nat := 0x380014
abbrev KS_INTEN : Nat := 0x380018
abbrev KS_UPCTL : Nat := 0x38001c
abbrev KS_UPST : Nat := 0x380020
abbrev KS_UPEP_L : Nat := 0x380024
abbrev KS_UPEP_H : Nat := 0x380028
abbrev KS_UPKCV_L : Nat := 0x38002c
abbrev KS_UPKCV_H : Nat := 0x380030
abbrev KS_LASTUP : Nat := 0x380034
abbrev KS_LASTCNT : Nat := 0x380038
abbrev KS_NVSEQ : Nat := 0x38003c
abbrev KS_NVWEAR (i : Nat) : Nat := 0x380098 + 0x4 * i
abbrev KS_UPBUF (i : Nat) : Nat := 0x380040 + 0x4 * i
abbrev KS_NONCE (i : Nat) : Nat := 0x3800a0 + 0x4 * i
abbrev KS_ATTPUB (i : Nat) : Nat := 0x3800c0 + 0x4 * i
abbrev KS_ATTCTL : Nat := 0x3802fc
abbrev KS_SLOTA (i : Nat) : Nat := 0x380100 + 0x4 * i
abbrev KS_SLOTC (i : Nat) : Nat := 0x380180 + 0x4 * i
abbrev KS_SLOTS (i : Nat) : Nat := 0x380200 + 0x4 * i
abbrev KS_AUTH (i j : Nat) : Nat := 0x380280 + 0x20 * i + 0x4 * j
abbrev KS_MANIF (i : Nat) : Nat := 0x3802c0 + 0x4 * i
abbrev KS_TAMPCFG (i : Nat) : Nat := 0x3802e0 + 0x4 * i
abbrev KS_TCOUNT : Nat := 0x3802f8
abbrev KS_TLOG_T0 (i : Nat) : Nat := 0x380300 + 0x10 * i
abbrev KS_TLOG_T1 (i : Nat) : Nat := 0x380304 + 0x10 * i
abbrev KS_TLOG_INFO (i : Nat) : Nat := 0x380308 + 0x10 * i
abbrev KS_CNT (i : Nat) : Nat := 0x380380 + 0x4 * i
abbrev KS_STMT (i : Nat) : Nat := 0x380400 + 0x4 * i
abbrev CP_CFG : Nat := 0x390000
abbrev CP_CTRL : Nat := 0x390004
abbrev CP_STATUS : Nat := 0x390008
abbrev CP_BUDGET : Nat := 0x39000c
abbrev CP_EVENT : Nat := 0x390010
abbrev CP_INTEN : Nat := 0x390014
abbrev CP_CMDIDX : Nat := 0x390018
abbrev CP_CMDOP : Nat := 0x39001c
abbrev CP_CMDD (i : Nat) : Nat := 0x390020 + 0x4 * i
abbrev CP_CNT (i : Nat) : Nat := 0x390040 + 0x4 * i
abbrev CP_HJCTL : Nat := 0x390080
abbrev CP_HJKEY : Nat := 0x390084
abbrev CP_HJLBL (i : Nat) : Nat := 0x390088 + 0x4 * i
abbrev CP_HJIN (i : Nat) : Nat := 0x390098 + 0x4 * i
abbrev CP_HJOUT (i : Nat) : Nat := 0x3900a8 + 0x4 * i
abbrev CP_FVBASE : Nat := 0x3900b8
abbrev CP_PRBASE : Nat := 0x3900bc
abbrev CP_PCOST (i : Nat) : Nat := 0x390100 + 0x4 * i
abbrev TW_CTRL : Nat := 0x400000
abbrev TW_STATUS : Nat := 0x400004
abbrev TW_GEN : Nat := 0x400008
abbrev TW_PGEN : Nat := 0x40000c
abbrev TW_LEXP_L : Nat := 0x400010
abbrev TW_LEXP_H : Nat := 0x400014
abbrev TW_EVENT : Nat := 0x400018
abbrev TW_INTEN : Nat := 0x40001c
abbrev TW_RSMARK_L : Nat := 0x400020
abbrev TW_RSMARK_H : Nat := 0x400024
abbrev TW_RSDONE : Nat := 0x400028
abbrev TW_RSTIME : Nat := 0x40002c
abbrev TW_CBBASE : Nat := 0x400030
abbrev TW_CNT (i : Nat) : Nat := 0x400040 + 0x4 * i
abbrev WK_CTRL : Nat := 0x440000
abbrev WK_STATUS : Nat := 0x440004
abbrev WK_SLPCFG : Nat := 0x440008
abbrev WK_VOTE : Nat := 0x44000c
abbrev WK_RVOTE : Nat := 0x440010
abbrev WK_PVOTE : Nat := 0x440014
abbrev WK_MAXAW : Nat := 0x440018
abbrev WK_WKCFG : Nat := 0x44001c
abbrev WK_TIMER : Nat := 0x440020
abbrev WK_T1SARM : Nat := 0x440024
abbrev WK_EVENT : Nat := 0x440028
abbrev WK_INTEN : Nat := 0x44002c
abbrev WK_CNT (i : Nat) : Nat := 0x440030 + 0x4 * i
abbrev WK_RNG_CFG (i : Nat) : Nat := 0x440100 + 0x10 * i
abbrev WK_RNG_TIM (i : Nat) : Nat := 0x440104 + 0x10 * i
abbrev WK_RNG_STAT (i : Nat) : Nat := 0x440108 + 0x10 * i
abbrev WK_PN_CFG (i : Nat) : Nat := 0x440300 + 0x10 * i
abbrev WK_PN_PDU (i : Nat) : Nat := 0x440304 + 0x10 * i
abbrev WK_PN_STAT (i : Nat) : Nat := 0x440308 + 0x10 * i
abbrev WK_LST_CFG (i : Nat) : Nat := 0x440500 + 0x20 * i
abbrev WK_LST_ID (i : Nat) : Nat := 0x440504 + 0x20 * i
abbrev WK_LST_MASK (i : Nat) : Nat := 0x440508 + 0x20 * i
abbrev WK_LST_DATA_L (i : Nat) : Nat := 0x44050c + 0x20 * i
abbrev WK_LST_DATA_H (i : Nat) : Nat := 0x440510 + 0x20 * i
abbrev HB_CTRL : Nat := 0x480000
abbrev HB_STATUS : Nat := 0x480004
abbrev HB_EVENT : Nat := 0x480008
abbrev HB_INTEN : Nat := 0x48000c
abbrev HB_B2PAGE : Nat := 0x480010
abbrev HB_LOCKCTL : Nat := 0x480014
abbrev HB_PORTCFG : Nat := 0x480018
abbrev HB_PWSTAT : Nat := 0x48001c
abbrev HB_PF_BASE (i : Nat) : Nat := 0x480020 + 0x8 * i
abbrev HB_PF_CFG (i : Nat) : Nat := 0x480024 + 0x8 * i
abbrev HB_PWLOG_W0 (i : Nat) : Nat := 0x480040 + 0x10 * i
abbrev HB_PWLOG_W1 (i : Nat) : Nat := 0x480044 + 0x10 * i
abbrev HB_PWLOG_W2 (i : Nat) : Nat := 0x480048 + 0x10 * i
abbrev HB_PWLOG_W3 (i : Nat) : Nat := 0x48004c + 0x10 * i
abbrev HB_CNT (i : Nat) : Nat := 0x480080 + 0x4 * i
abbrev HB_RXR_BASE_L (i : Nat) : Nat := 0x481000 + 0x20 * i
abbrev HB_RXR_BASE_H (i : Nat) : Nat := 0x481004 + 0x20 * i
abbrev HB_RXR_SIZE (i : Nat) : Nat := 0x481008 + 0x20 * i
abbrev HB_RXR_HEAD (i : Nat) : Nat := 0x48100c + 0x20 * i
abbrev HB_RXR_TAIL (i : Nat) : Nat := 0x481010 + 0x20 * i
abbrev HB_RXR_CTL (i : Nat) : Nat := 0x481014 + 0x20 * i
abbrev HB_TXR_BASE_L (i : Nat) : Nat := 0x481200 + 0x20 * i
abbrev HB_TXR_BASE_H (i : Nat) : Nat := 0x481204 + 0x20 * i
abbrev HB_TXR_SIZE (i : Nat) : Nat := 0x481208 + 0x20 * i
abbrev HB_TXR_HEAD (i : Nat) : Nat := 0x48120c + 0x20 * i
abbrev HB_TXR_TAIL (i : Nat) : Nat := 0x481210 + 0x20 * i
abbrev HB_TXR_CTL (i : Nat) : Nat := 0x481214 + 0x20 * i
abbrev HB_MSIX (i j : Nat) : Nat := 0x4c0000 + 0x10 * i + 0x4 * j
abbrev HB_PBA (i : Nat) : Nat := 0x4c0800 + 0x4 * i

/-- The GL block's registers. -/
def rowsGL : List RegRow := [
  ⟨"GL_ID", 0x0, [], .allRo, .any, 0x12801b0,
    [⟨"STEP", 0, 8, .ro, 0xb0, false⟩, ⟨"GRADE", 8, 2, .ro, 0, false⟩, ⟨"PART", 16, 16, .ro, 0x128, false⟩]⟩,
  ⟨"GL_MODE", 0x4, [], .allRo, .any, 0x2,
    [⟨"MODE", 0, 4, .ro, 0x2, false⟩]⟩,
  ⟨"GL_IRQPEND", 0x8, [], .allRo, .any, 0x0,
    [⟨"PEND", 0, 32, .ro, 0, false⟩]⟩,
  ⟨"GL_IRQPIN", 0xc, [], .allHostW, .any, 0x0,
    [⟨"PIN", 0, 32, .rw, 0, false⟩]⟩,
  ⟨"GL_IRQPEND_H", 0x10, [], .allRo, .any, 0x0,
    [⟨"PENDH", 0, 32, .ro, 0, false⟩]⟩,
  ⟨"GL_IRQPIN_H", 0x14, [], .allHostW, .any, 0x0,
    [⟨"PINH", 0, 32, .rw, 0, false⟩]⟩]
/-- The PW block's registers. -/
def rowsPW : List RegRow := [
  ⟨"PW_CTRL", 0x10000, [], .std, .any, 0x0,
    [⟨"NOGATE", 0, 1, .lk, 0, false⟩, ⟨"LOCK", 31, 1, .w1s, 0, false⟩]⟩,
  ⟨"PW_STATUS", 0x10004, [], .ro, .any, 0x0,
    [⟨"TRIP", 0, 1, .ro, 0, false⟩, ⟨"RAMP", 1, 1, .ro, 0, false⟩, ⟨"Q1", 2, 1, .ro, 0, false⟩]⟩,
  ⟨"PW_GRANT", 0x10008, [], .ro, .any, 0x0,
    [⟨"GRANT", 0, 16, .ro, 0, false⟩, ⟨"BUDGET", 16, 16, .ro, 0, false⟩]⟩,
  ⟨"PW_BASE", 0x1000c, [], .ro, .any, 0x8340000,
    [⟨"BASECOST", 0, 16, .ro, 0, false⟩, ⟨"CEIL", 16, 16, .ro, 0, false⟩]⟩,
  ⟨"PW_ENERGY_L", 0x10010, [], .ro, .any, 0x0,
    [⟨"ENL", 0, 32, .ro, 0, false⟩]⟩,
  ⟨"PW_ENERGY_H", 0x10014, [], .ro, .any, 0x0,
    [⟨"ENH", 0, 32, .ro, 0, false⟩]⟩,
  ⟨"PW_CLKST", 0x10018, [], .ro, .any, 0x0,
    [⟨"MB", 0, 16, .ro, 0, false⟩, ⟨"OTHER", 16, 10, .ro, 0, false⟩]⟩,
  ⟨"PW_TRIP", 0x1001c, [], .std, .any, 0x8700f0,
    [⟨"ITRIP", 0, 9, .lk, 0, false⟩, ⟨"TTRIP", 16, 8, .lk, 0, false⟩]⟩,
  ⟨"PW_SENSE", 0x10020, [], .ro, .any, 0x0,
    [⟨"ICORE", 0, 9, .ro, 0, false⟩, ⟨"TJ", 16, 8, .ro, 0, false⟩]⟩,
  ⟨"PW_EVENT", 0x10024, [], .std, .any, 0x0,
    [⟨"TRIP", 0, 1, .w1c, 0, false⟩, ⟨"TRIPCLR", 1, 1, .w1c, 0, false⟩]⟩,
  ⟨"PW_INTEN", 0x10028, [], .std, .any, 0x3,
    [⟨"EN", 0, 2, .rw, 0x3, false⟩]⟩]
/-- The SL block's registers. -/
def rowsSL : List RegRow := [
  ⟨"SL_WKSRC", 0x20000, [], .ro, .any, 0x0,
    [⟨"SRC", 0, 4, .ro, 0, false⟩, ⟨"INDEX", 8, 4, .ro, 0, false⟩, ⟨"POST", 12, 1, .ro, 0, false⟩, ⟨"WATCH", 13, 1, .ro, 0, false⟩]⟩]
/-- The FLT block's registers. -/
def rowsFLT : List RegRow := [
  ⟨"FLT_STATUS", 0x30000, [], .ro, .any, 0x0,
    [⟨"ACT", 0, 5, .ro, 0, false⟩, ⟨"F4SEEN", 5, 1, .ro, 0, false⟩, ⟨"IRQ", 6, 5, .ro, 0, false⟩, ⟨"SFCNT", 16, 16, .ro, 0, false⟩]⟩,
  ⟨"FLT_ACK", 0x30004, [], .std, .any, 0x0,
    [⟨"ACK", 0, 5, .wo, 0, false⟩, ⟨"SFCLR", 5, 1, .wo, 0, false⟩]⟩,
  ⟨"FLT_INTEN", 0x30008, [], .std, .any, 0x1f,
    [⟨"EN", 0, 5, .rw, 0x1f, false⟩, ⟨"PINEN", 8, 5, .lk, 0, false⟩, ⟨"LOCK", 31, 1, .w1s, 0, false⟩]⟩,
  ⟨"FLT_FF_W0", 0x30010, [(5, 0x10)], .ro, .any, 0x0,
    [⟨"CAUSE", 0, 8, .ro, 0, false⟩, ⟨"SRC", 8, 8, .ro, 0, false⟩, ⟨"UNIT", 16, 8, .ro, 0, false⟩, ⟨"VALID", 24, 1, .ro, 0, false⟩, ⟨"CLASS", 25, 3, .ro, 0, false⟩]⟩,
  ⟨"FLT_FF_W1", 0x30014, [(5, 0x10)], .ro, .any, 0x0,
    [⟨"EPL", 0, 32, .ro, 0, false⟩]⟩,
  ⟨"FLT_FF_W2", 0x30018, [(5, 0x10)], .ro, .any, 0x0,
    [⟨"EPH", 0, 16, .ro, 0, false⟩]⟩,
  ⟨"FLT_FF_W3", 0x3001c, [(5, 0x10)], .ro, .any, 0x0,
    [⟨"TS", 0, 32, .ro, 0, false⟩]⟩,
  ⟨"FLT_SF_W0", 0x30060, [], .ro, .any, 0x0,
    [⟨"CAUSE", 0, 8, .ro, 0, false⟩, ⟨"SRC", 8, 8, .ro, 0, false⟩, ⟨"UNIT", 16, 8, .ro, 0, false⟩, ⟨"VALID", 24, 1, .ro, 0, false⟩, ⟨"CLASS", 25, 3, .ro, 0, false⟩]⟩,
  ⟨"FLT_SF_W1", 0x30064, [], .ro, .any, 0x0,
    [⟨"EPL", 0, 32, .ro, 0, false⟩]⟩,
  ⟨"FLT_SF_W2", 0x30068, [], .ro, .any, 0x0,
    [⟨"EPH", 0, 16, .ro, 0, false⟩]⟩,
  ⟨"FLT_SF_W3", 0x3006c, [], .ro, .any, 0x0,
    [⟨"TS", 0, 32, .ro, 0, false⟩]⟩,
  ⟨"FLT_CNT", 0x30070, [(5, 0x4)], .ro, .any, 0x0,
    [⟨"CNT", 0, 32, .ro, 0, false⟩]⟩,
  ⟨"FLT_HDROP", 0x30084, [], .ro, .any, 0x0,
    [⟨"CNT", 0, 32, .ro, 0, false⟩]⟩,
  ⟨"FLT_VIOL", 0x30088, [], .viol, .any, 0x0,
    [⟨"CNT", 0, 32, .ro, 0, false⟩]⟩]
/-- The EP block's registers. -/
def rowsEP : List RegRow := [
  ⟨"EP_CTRL", 0x40000, [], .std, .any, 0x101,
    [⟨"ELEN", 0, 2, .ro, 0x1, false⟩, ⟨"LAG", 2, 2, .ro, 0, false⟩, ⟨"DIGCHK", 8, 1, .lk, 0x1, false⟩, ⟨"LOCK", 31, 1, .w1s, 0, false⟩]⟩,
  ⟨"EP_STATUS", 0x40004, [], .ro, .any, 0xff00,
    [⟨"TBSTATE", 0, 2, .ro, 0, false⟩, ⟨"GM", 2, 1, .ro, 0, false⟩, ⟨"GUAR", 3, 1, .ro, 0, false⟩, ⟨"INSTEP", 4, 1, .ro, 0, false⟩, ⟨"DEGRADED", 5, 1, .ro, 0, false⟩, ⟨"SLVPORT", 8, 8, .ro, 0xff, false⟩]⟩,
  ⟨"EP_NOW_L", 0x40008, [], .ro, .any, 0x0,
    [⟨"NOWL", 0, 32, .ro, 0, false⟩]⟩,
  ⟨"EP_NOW_H", 0x4000c, [], .ro, .any, 0x0,
    [⟨"NOWH", 0, 16, .ro, 0, false⟩]⟩,
  ⟨"EP_REL_L", 0x40010, [], .ro, .any, 0x0,
    [⟨"RELL", 0, 32, .ro, 0, false⟩]⟩,
  ⟨"EP_REL_H", 0x40014, [], .ro, .any, 0x0,
    [⟨"RELH", 0, 16, .ro, 0, false⟩]⟩,
  ⟨"EP_TBCFG", 0x40018, [], .std, .any, 0xf62100,
    [⟨"DOMAIN", 0, 8, .lk, 0, false⟩, ⟨"ROLE", 8, 2, .lk, 0x1, false⟩, ⟨"LOGSYNC", 12, 3, .lk, 0x2, false⟩, ⟨"PRIO1", 16, 8, .lk, 0xf6, false⟩]⟩,
  ⟨"EP_HOLD", 0x4001c, [], .std, .any, 0x6403e8,
    [⟨"HOLDLIM", 0, 16, .lk, 0x3e8, false⟩, ⟨"STEPLIM", 16, 16, .lk, 0x64, false⟩]⟩,
  ⟨"EP_TWOFS", 0x40020, [], .ro, .any, 0x0,
    [⟨"OFS", 0, 32, .ro, 0, false⟩]⟩,
  ⟨"EP_TWOFSMAX", 0x40024, [], .hostRo, .any, 0x0,
    [⟨"OFSMAX", 0, 32, .rc, 0, false⟩]⟩,
  ⟨"EP_BUDGET", 0x40028, [], .ro, .any, 0x1cb60546,
    [⟨"LANEB", 0, 16, .ro, 0x546, false⟩, ⟨"LANEBMAX", 16, 16, .ro, 0x1cb6, false⟩]⟩,
  ⟨"EP_EVENT", 0x4002c, [], .std, .any, 0x0,
    [⟨"TBHOLD", 0, 1, .w1c, 0, false⟩, ⟨"TBLOST", 1, 1, .w1c, 0, false⟩, ⟨"RELOCK", 2, 1, .w1c, 0, false⟩, ⟨"OFFSET", 3, 1, .w1c, 0, false⟩, ⟨"DIVERGE", 4, 1, .w1c, 0, false⟩, ⟨"UNAGREED", 5, 1, .w1c, 0, false⟩, ⟨"SKEWMISS", 6, 1, .w1c, 0, false⟩, ⟨"ADMIT", 7, 1, .w1c, 0, false⟩, ⟨"OVERRUN", 8, 1, .w1c, 0, false⟩, ⟨"GUARLOSS", 9, 1, .w1c, 0, false⟩, ⟨"REALIGN", 10, 1, .w1c, 0, false⟩, ⟨"LATEIN", 11, 1, .w1c, 0, false⟩]⟩,
  ⟨"EP_INTEN", 0x40030, [], .std, .any, 0x37b,
    [⟨"EN", 0, 12, .rw, 0x37b, false⟩]⟩,
  ⟨"EP_LOSSEP_L", 0x40034, [], .ro, .any, 0x0,
    [⟨"LOSSL", 0, 32, .ro, 0, false⟩]⟩,
  ⟨"EP_LOSSEP_H", 0x40038, [], .ro, .any, 0x0,
    [⟨"LOSSH", 0, 16, .ro, 0, false⟩]⟩,
  ⟨"EP_DIGEST_L", 0x4003c, [], .ro, .any, 0x0,
    [⟨"DIGL", 0, 32, .ro, 0, false⟩]⟩,
  ⟨"EP_DIGEST_H", 0x40040, [], .ro, .any, 0x0,
    [⟨"DIGH", 0, 32, .ro, 0, false⟩]⟩,
  ⟨"EP_CNT", 0x40050, [(8, 0x4)], .ro, .any, 0x0,
    [⟨"CNT", 0, 32, .ro, 0, false⟩]⟩]
/-- The FR block's registers. -/
def rowsFR : List RegRow := [
  ⟨"FR_CTRL", 0x80000, [], .std, .any, 0x0,
    [⟨"START", 0, 1, .wo, 0, false⟩, ⟨"SRC", 1, 2, .lk, 0, false⟩, ⟨"FWD", 3, 1, .wo, 0, false⟩, ⟨"ABORT", 4, 1, .wo, 0, false⟩, ⟨"LOCK", 31, 1, .w1s, 0, false⟩]⟩,
  ⟨"FR_STATUS", 0x80004, [], .ro, .any, 0x0,
    [⟨"STAGE", 0, 4, .ro, 0, false⟩, ⟨"UNVERIFIED", 4, 1, .ro, 0, false⟩, ⟨"ARMED", 5, 1, .ro, 0, false⟩, ⟨"PURGE", 6, 1, .ro, 0, false⟩, ⟨"SLOTB", 7, 1, .ro, 0, false⟩]⟩,
  ⟨"FR_ERR", 0x80008, [], .ro, .any, 0x0,
    [⟨"CODE", 0, 8, .ro, 0, false⟩, ⟨"BENT", 8, 8, .ro, 0, false⟩, ⟨"MORT", 16, 7, .ro, 0, false⟩]⟩,
  ⟨"FR_FLOOR", 0x80030, [], .ro, .any, 0x0,
    [⟨"FLOOR", 0, 32, .ro, 0, false⟩]⟩,
  ⟨"FR_COUNTER", 0x80034, [], .ro, .any, 0x0,
    [⟨"COUNTER", 0, 32, .ro, 0, false⟩]⟩,
  ⟨"FR_FLASHA", 0x80038, [], .std, .any, 0x0,
    [⟨"ADDR", 0, 32, .lk, 0, false⟩]⟩,
  ⟨"FR_STAGE", 0x80040, [], .std, .any, 0x0,
    [⟨"LEN", 0, 28, .rw, 0, false⟩]⟩,
  ⟨"FR_BENTST", 0x80050, [], .ro, .any, 0x0,
    [⟨"MB", 0, 16, .ro, 0, false⟩, ⟨"OTHER", 16, 10, .ro, 0, false⟩]⟩,
  ⟨"FR_EVENT", 0x80054, [], .std, .any, 0x0,
    [⟨"FULL", 0, 1, .w1c, 0, false⟩, ⟨"EARLY", 1, 1, .w1c, 0, false⟩, ⟨"REJECT", 2, 1, .w1c, 0, false⟩, ⟨"FALLBACK", 3, 1, .w1c, 0, false⟩, ⟨"ARMED", 4, 1, .w1c, 0, false⟩, ⟨"SWAPDONE", 5, 1, .w1c, 0, false⟩, ⟨"LATE", 6, 1, .w1c, 0, false⟩, ⟨"NOTARMED", 7, 1, .w1c, 0, false⟩, ⟨"LATEBENT", 8, 1, .w1c, 0, false⟩, ⟨"CANCEL", 9, 1, .w1c, 0, false⟩, ⟨"PURGED", 10, 1, .w1c, 0, false⟩, ⟨"DRAINLATE", 11, 1, .w1c, 0, false⟩]⟩,
  ⟨"FR_INTEN", 0x80058, [], .std, .any, 0xbcc,
    [⟨"EN", 0, 12, .rw, 0xbcc, false⟩]⟩,
  ⟨"FR_TIME", 0x8005c, [], .ro, .any, 0x0,
    [⟨"EARLYT", 0, 16, .ro, 0, false⟩, ⟨"FULLT", 16, 16, .ro, 0, false⟩]⟩,
  ⟨"FR_DROP", 0x80068, [], .ro, .any, 0x0,
    [⟨"CNT", 0, 32, .ro, 0, false⟩]⟩,
  ⟨"FR_DIG", 0x80010, [(8, 0x4)], .ro, .any, 0x0,
    [⟨"DIG", 0, 32, .ro, 0, false⟩]⟩,
  ⟨"FR_SWAP_L", 0x80048, [], .std, .any, 0x0,
    [⟨"EPL", 0, 32, .rw, 0, false⟩]⟩,
  ⟨"FR_SWAP_H", 0x8004c, [], .std, .any, 0x0,
    [⟨"EPH", 0, 16, .rw, 0, true⟩, ⟨"OP", 16, 4, .rw, 0, true⟩]⟩,
  ⟨"FR_RESUME_L", 0x80060, [], .ro, .any, 0x0,
    [⟨"RESL", 0, 32, .ro, 0, false⟩]⟩,
  ⟨"FR_RESUME_H", 0x80064, [], .ro, .any, 0x0,
    [⟨"RESH", 0, 16, .ro, 0, false⟩]⟩]
/-- The MZ block's registers. -/
def rowsMZ : List RegRow := [
  ⟨"MZ_ID", 0x100000, [(128, 0x1000)], .ro, .any, 0x0,
    [⟨"MORT", 0, 7, .ro, 0, false⟩, ⟨"BENT", 8, 3, .ro, 0, false⟩, ⟨"T1SCAP", 11, 1, .ro, 0, false⟩, ⟨"TENON", 12, 4, .ro, 0, false⟩, ⟨"KCLK", 16, 1, .ro, 0, false⟩]⟩,
  ⟨"MZ_CTRL", 0x100004, [(128, 0x1000)], .std, .any, 0x0,
    [⟨"TXINH", 0, 1, .rw, 0, true⟩, ⟨"RXINH", 1, 1, .rw, 0, true⟩, ⟨"LOCK", 31, 1, .w1s, 0, false⟩]⟩,
  ⟨"MZ_STATUS", 0x100008, [(128, 0x1000)], .ro, .any, 0x0,
    [⟨"STATE", 0, 2, .ro, 0, false⟩, ⟨"ISOL", 2, 1, .ro, 0, false⟩, ⟨"DRIVES", 3, 1, .ro, 0, false⟩, ⟨"TXINHA", 4, 1, .ro, 0, false⟩, ⟨"RXINHA", 5, 1, .ro, 0, false⟩, ⟨"PINLVL", 8, 4, .ro, 0, false⟩]⟩,
  ⟨"MZ_BANK", 0x10000c, [(128, 0x1000)], .ro, .any, 0x2,
    [⟨"DECL", 0, 2, .ro, 0x2, false⟩, ⟨"SENSED", 2, 2, .ro, 0, false⟩, ⟨"BPEND", 16, 16, .ro, 0, false⟩]⟩,
  ⟨"MZ_EVENT", 0x100010, [(128, 0x1000)], .stdAnyW, .any, 0x0,
    [⟨"UP", 0, 1, .w1c, 0, false⟩, ⟨"DRAINLATE", 1, 1, .w1c, 0, false⟩, ⟨"PINFAULT", 2, 1, .w1c, 0, false⟩, ⟨"BANKFAULT", 3, 1, .w1c, 0, false⟩, ⟨"HCOVF", 4, 1, .w1c, 0, false⟩, ⟨"ISOL", 5, 1, .w1c, 0, false⟩, ⟨"EGDISC", 6, 1, .w1c, 0, false⟩, ⟨"TENEV", 16, 16, .w1c, 0, false⟩]⟩,
  ⟨"MZ_INTEN", 0x100014, [(128, 0x1000)], .stdAnyW, .any, 0x3e,
    [⟨"EN", 0, 32, .rw, 0x3e, false⟩]⟩,
  ⟨"MZ_HCOPY", 0x100018, [(128, 0x1000)], .stdAnyW, .any, 0x0,
    [⟨"EN", 0, 1, .lk, 0, true⟩, ⟨"MODE", 1, 2, .lk, 0, true⟩, ⟨"RING", 4, 4, .lk, 0, true⟩]⟩,
  ⟨"MZ_CNT", 0x100020, [(128, 0x1000), (8, 0x4)], .ro, .any, 0x0,
    [⟨"CNT", 0, 32, .ro, 0, false⟩]⟩,
  ⟨"MZ_RES_L", 0x100040, [(128, 0x1000)], .ro, .any, 0x0,
    [⟨"RESL", 0, 32, .ro, 0, false⟩]⟩,
  ⟨"MZ_RES_H", 0x100044, [(128, 0x1000)], .ro, .any, 0x0,
    [⟨"RESH", 0, 16, .ro, 0, false⟩]⟩]
/-- The CN block's registers. -/
def rowsCN0 : List RegRow := [
  ⟨"CN_CFG", 0x100100, [(128, 0x1000)], .ro, .can, 0x0,
    [⟨"FDEN", 0, 1, .ro, 0, false⟩, ⟨"XLEN", 1, 1, .ro, 0, false⟩, ⟨"BRSEN", 2, 1, .ro, 0, false⟩, ⟨"PXHD", 3, 1, .ro, 0, false⟩, ⟨"ONESHOT", 4, 1, .ro, 0, false⟩, ⟨"BOAUTO", 5, 1, .ro, 0, false⟩, ⟨"TTEN", 6, 1, .ro, 0, false⟩, ⟨"XLES", 7, 1, .ro, 0, false⟩, ⟨"OPINIT", 8, 2, .ro, 0, false⟩, ⟨"PADB", 16, 8, .ro, 0, false⟩]⟩,
  ⟨"CN_CTRL", 0x100104, [(128, 0x1000)], .std, .can, 0x0,
    [⟨"OPMODE", 0, 2, .rw, 0, true⟩, ⟨"BORECOV", 2, 1, .wo, 0, true⟩]⟩,
  ⟨"CN_STATUS", 0x100108, [(128, 0x1000)], .ro, .can, 0x0,
    [⟨"LSTATE", 0, 2, .ro, 0, false⟩, ⟨"LWARN", 2, 1, .ro, 0, false⟩, ⟨"LLONE", 3, 1, .ro, 0, false⟩, ⟨"OPMODEA", 4, 2, .ro, 0, false⟩, ⟨"PSTATE", 8, 2, .ro, 0, false⟩, ⟨"PWARN", 10, 1, .ro, 0, false⟩, ⟨"INTEG", 11, 1, .ro, 0, false⟩]⟩,
  ⟨"CN_BTIM_N", 0x10010c, [(128, 0x1000)], .ro, .can, 0x0,
    [⟨"BRP", 0, 5, .ro, 0, false⟩, ⟨"TSEG1", 5, 8, .ro, 0, false⟩, ⟨"TSEG2", 13, 7, .ro, 0, false⟩, ⟨"SJW", 20, 7, .ro, 0, false⟩]⟩,
  ⟨"CN_BTIM_D", 0x100110, [(128, 0x1000)], .ro, .can, 0x0,
    [⟨"BRP", 0, 5, .ro, 0, false⟩, ⟨"TSEG1", 5, 6, .ro, 0, false⟩, ⟨"TSEG2", 11, 4, .ro, 0, false⟩, ⟨"SJW", 15, 4, .ro, 0, false⟩]⟩,
  ⟨"CN_BTIM_X", 0x100114, [(128, 0x1000)], .ro, .can, 0x0,
    [⟨"BRP", 0, 5, .ro, 0, false⟩, ⟨"TSEG1", 5, 6, .ro, 0, false⟩, ⟨"TSEG2", 11, 4, .ro, 0, false⟩, ⟨"SJW", 15, 4, .ro, 0, false⟩]⟩,
  ⟨"CN_TDC_D", 0x100118, [(128, 0x1000)], .ro, .can, 0x0,
    [⟨"TDCO", 0, 7, .ro, 0, false⟩, ⟨"TDCEN", 7, 1, .ro, 0, false⟩, ⟨"TDCF", 8, 7, .ro, 0, false⟩, ⟨"TDCV", 16, 7, .ro, 0, false⟩, ⟨"TDCSAT", 23, 1, .ro, 0, false⟩]⟩,
  ⟨"CN_TDC_X", 0x10011c, [(128, 0x1000)], .ro, .can, 0x0,
    [⟨"TDCO", 0, 7, .ro, 0, false⟩, ⟨"TDCEN", 7, 1, .ro, 0, false⟩, ⟨"TDCF", 8, 7, .ro, 0, false⟩, ⟨"TDCV", 16, 7, .ro, 0, false⟩, ⟨"TDCSAT", 23, 1, .ro, 0, false⟩]⟩,
  ⟨"CN_XLPWM", 0x100120, [(128, 0x1000)], .ro, .can, 0x0,
    [⟨"PWMS", 0, 6, .ro, 0, false⟩, ⟨"TMSEN", 7, 1, .ro, 0, false⟩, ⟨"PWML", 8, 6, .ro, 0, false⟩]⟩,
  ⟨"CN_ERRC", 0x100124, [(128, 0x1000)], .ro, .can, 0x0,
    [⟨"TEC", 0, 9, .ro, 0, false⟩, ⟨"REC", 16, 8, .ro, 0, false⟩, ⟨"RP", 24, 1, .ro, 0, false⟩]⟩,
  ⟨"CN_LONE", 0x100128, [(128, 0x1000)], .ro, .can, 0x0,
    [⟨"RUN", 0, 8, .ro, 0, false⟩, ⟨"CONS", 8, 8, .ro, 0, false⟩]⟩,
  ⟨"CN_COLL", 0x10012c, [(128, 0x1000)], .ro, .can, 0x0,
    [⟨"ALARMS", 0, 16, .ro, 0, false⟩]⟩,
  ⟨"CN_COLLID", 0x10013c, [(128, 0x1000)], .ro, .can, 0x0,
    [⟨"ID", 0, 29, .ro, 0, false⟩, ⟨"IDE", 29, 1, .ro, 0, false⟩]⟩,
  ⟨"CN_TXOCC", 0x100130, [(128, 0x1000)], .ro, .can, 0x0,
    [⟨"OCC", 0, 32, .ro, 0, false⟩]⟩,
  ⟨"CN_TXWIRE", 0x100134, [(128, 0x1000)], .ro, .can, 0x0,
    [⟨"SENT", 0, 32, .ro, 0, false⟩]⟩,
  ⟨"CN_TXABORT", 0x100138, [(128, 0x1000)], .std, .can, 0x0,
    [⟨"ABORT", 0, 32, .wo, 0, true⟩]⟩,
  ⟨"CN_CNT", 0x100140, [(128, 0x1000), (8, 0x4)], .ro, .can, 0x0,
    [⟨"CNT", 0, 32, .ro, 0, false⟩]⟩,
  ⟨"CN_TTCFG", 0x100160, [(128, 0x1000)], .ro, .can, 0x0,
    [⟨"MODE", 0, 2, .ro, 0, false⟩, ⟨"ROWS", 2, 6, .ro, 0, false⟩, ⟨"COLS", 8, 4, .ro, 0, false⟩, ⟨"REFID", 12, 11, .ro, 0, false⟩]⟩,
  ⟨"CN_TTBC", 0x100164, [(128, 0x1000)], .ro, .can, 0x0,
    [⟨"BCLEN", 0, 16, .ro, 0, false⟩]⟩,
  ⟨"CN_TTCOL", 0x100168, [(128, 0x1000), (8, 0x4)], .ro, .can, 0x0,
    [⟨"OFSA", 0, 16, .ro, 0, false⟩, ⟨"OFSB", 16, 16, .ro, 0, false⟩]⟩,
  ⟨"CN_TTSTAT", 0x100188, [(128, 0x1000)], .ro, .can, 0x0,
    [⟨"ROW", 0, 6, .ro, 0, false⟩, ⟨"COL", 8, 4, .ro, 0, false⟩, ⟨"REFLOST", 12, 1, .ro, 0, false⟩, ⟨"RUN", 13, 1, .ro, 0, false⟩]⟩,
  ⟨"CN_PC_ID", 0x1001c0, [(128, 0x1000), (4, 0x8)], .std, .can, 0x0,
    [⟨"ID", 0, 29, .rw, 0, false⟩, ⟨"IDE", 29, 1, .rw, 0, false⟩, ⟨"XL", 30, 1, .rw, 0, false⟩, ⟨"EN", 31, 1, .rw, 0, false⟩]⟩,
  ⟨"CN_PC_MASK", 0x1001c4, [(128, 0x1000), (4, 0x8)], .std, .can, 0x0,
    [⟨"MASK", 0, 29, .rw, 0, false⟩]⟩,
  ⟨"CN_PCSTAT", 0x1001e0, [(128, 0x1000)], .std, .can, 0x0,
    [⟨"NEW", 0, 4, .ro, 0, false⟩, ⟨"OVR", 4, 4, .w1c, 0, false⟩]⟩]
/-- The CN block's registers. -/
def rowsCN1 : List RegRow := [
  ⟨"CN_PC_W0", 0x100200, [(128, 0x1000), (4, 0x80)], .ro, .can, 0x0,
    [⟨"IDW", 0, 32, .ro, 0, false⟩]⟩,
  ⟨"CN_PC_W1", 0x100204, [(128, 0x1000), (4, 0x80)], .ro, .can, 0x0,
    [⟨"FMT", 0, 8, .ro, 0, false⟩, ⟨"DLC", 8, 8, .ro, 0, false⟩, ⟨"DLEN", 16, 12, .ro, 0, false⟩, ⟨"TRUNC", 28, 1, .ro, 0, false⟩]⟩,
  ⟨"CN_PC_W2", 0x100208, [(128, 0x1000), (4, 0x80)], .ro, .can, 0x0,
    [⟨"AF", 0, 32, .ro, 0, false⟩]⟩,
  ⟨"CN_PC_W3", 0x10020c, [(128, 0x1000), (4, 0x80)], .ro, .can, 0x0,
    [⟨"SDT", 0, 8, .ro, 0, false⟩, ⟨"VCID", 8, 8, .ro, 0, false⟩]⟩,
  ⟨"CN_PC_DATA", 0x100210, [(128, 0x1000), (4, 0x80), (16, 0x4)], .ro, .can, 0x0,
    [⟨"DATA", 0, 32, .ro, 0, false⟩]⟩,
  ⟨"CN_PC_TS", 0x100250, [(128, 0x1000), (4, 0x80)], .ro, .can, 0x0,
    [⟨"TS", 0, 32, .ro, 0, false⟩]⟩,
  ⟨"CN_OBJ", 0x100400, [(128, 0x1000), (32, 0x4)], .ro, .can, 0x0,
    [⟨"ID", 0, 29, .ro, 0, false⟩, ⟨"IDE", 29, 1, .ro, 0, false⟩, ⟨"DED", 30, 1, .ro, 0, false⟩, ⟨"TT", 31, 1, .ro, 0, false⟩]⟩,
  ⟨"CN_TTMX", 0x100800, [(128, 0x1000), (256, 0x4)], .ro, .can, 0x0,
    [⟨"OBJ0", 0, 5, .ro, 0, false⟩, ⟨"TYPE0", 6, 2, .ro, 0, false⟩, ⟨"OBJ1", 8, 5, .ro, 0, false⟩, ⟨"TYPE1", 14, 2, .ro, 0, false⟩, ⟨"OBJ2", 16, 5, .ro, 0, false⟩, ⟨"TYPE2", 22, 2, .ro, 0, false⟩, ⟨"OBJ3", 24, 5, .ro, 0, false⟩, ⟨"TYPE3", 30, 2, .ro, 0, false⟩]⟩]
/-- The CN block's registers. -/
def rowsCN : List RegRow := rowsCN0 ++ rowsCN1
/-- The LN block's registers. -/
def rowsLN : List RegRow := [
  ⟨"LN_CFG", 0x100100, [(128, 0x1000)], .ro, .lin, 0x0,
    [⟨"CMDR", 0, 1, .ro, 0, false⟩, ⟨"BRKX", 1, 4, .ro, 0, false⟩, ⟨"BDEL", 5, 2, .ro, 0, false⟩, ⟨"RUNINIT", 7, 1, .ro, 0, false⟩]⟩,
  ⟨"LN_BAUD", 0x100104, [(128, 0x1000)], .ro, .lin, 0x0,
    [⟨"BRDIV", 0, 18, .ro, 0, false⟩]⟩,
  ⟨"LN_TIMEO", 0x100108, [(128, 0x1000)], .ro, .lin, 0x0,
    [⟨"IDLE", 0, 14, .ro, 0, false⟩, ⟨"WKLEN", 16, 9, .ro, 0, false⟩]⟩,
  ⟨"LN_CTRL", 0x10010c, [(128, 0x1000)], .std, .lin, 0x0,
    [⟨"TABLE", 0, 2, .rw, 0, true⟩, ⟨"RUN", 2, 1, .rw, 0, true⟩, ⟨"SLEEP", 3, 1, .wo, 0, true⟩, ⟨"WAKEREQ", 4, 1, .wo, 0, true⟩]⟩,
  ⟨"LN_STATUS", 0x100110, [(128, 0x1000)], .ro, .lin, 0x0,
    [⟨"TABLEA", 0, 2, .ro, 0, false⟩, ⟨"RUNA", 2, 1, .ro, 0, false⟩, ⟨"BUSSLEEP", 3, 1, .ro, 0, false⟩, ⟨"RESPERR", 4, 1, .ro, 0, false⟩, ⟨"ENTRY", 8, 6, .ro, 0, false⟩]⟩,
  ⟨"LN_PUB_L", 0x100114, [(128, 0x1000)], .ro, .lin, 0x0,
    [⟨"PUB", 0, 32, .ro, 0, false⟩]⟩,
  ⟨"LN_PUB_H", 0x100118, [(128, 0x1000)], .ro, .lin, 0x0,
    [⟨"PUB", 0, 32, .ro, 0, false⟩]⟩,
  ⟨"LN_ENH_L", 0x10011c, [(128, 0x1000)], .ro, .lin, 0x0,
    [⟨"ENH", 0, 32, .ro, 0, false⟩]⟩,
  ⟨"LN_ENH_H", 0x100120, [(128, 0x1000)], .ro, .lin, 0x0,
    [⟨"ENH", 0, 32, .ro, 0, false⟩]⟩,
  ⟨"LN_DLEN", 0x100124, [(128, 0x1000), (8, 0x4)], .ro, .lin, 0x0,
    [⟨"LEN0", 0, 3, .ro, 0, false⟩, ⟨"LEN1", 4, 3, .ro, 0, false⟩, ⟨"LEN2", 8, 3, .ro, 0, false⟩, ⟨"LEN3", 12, 3, .ro, 0, false⟩, ⟨"LEN4", 16, 3, .ro, 0, false⟩, ⟨"LEN5", 20, 3, .ro, 0, false⟩, ⟨"LEN6", 24, 3, .ro, 0, false⟩, ⟨"LEN7", 28, 3, .ro, 0, false⟩]⟩,
  ⟨"LN_CNT", 0x100160, [(128, 0x1000), (8, 0x4)], .ro, .lin, 0x0,
    [⟨"CNT", 0, 32, .ro, 0, false⟩]⟩,
  ⟨"LN_SCH", 0x100400, [(128, 0x1000), (256, 0x4)], .ro, .lin, 0x0,
    [⟨"FID", 0, 6, .ro, 0, false⟩, ⟨"TYPE", 8, 3, .ro, 0, false⟩, ⟨"RTAB", 12, 2, .ro, 0, false⟩, ⟨"SLOT", 16, 16, .ro, 0, false⟩]⟩]
/-- The T1 block's registers. -/
def rowsT1 : List RegRow := [
  ⟨"T1_CFG", 0x100100, [(128, 0x1000)], .ro, .t1s, 0x0,
    [⟨"PLCAEN", 0, 1, .ro, 0, false⟩, ⟨"BTMR", 8, 8, .ro, 0, false⟩, ⟨"MAXLEN", 16, 14, .ro, 0, false⟩]⟩,
  ⟨"T1_PLCA", 0x100104, [(128, 0x1000)], .ro, .t1s, 0x0,
    [⟨"NODEID", 0, 8, .ro, 0, false⟩, ⟨"NCNT", 8, 8, .ro, 0, false⟩, ⟨"TOTMR", 16, 8, .ro, 0, false⟩, ⟨"MAXBC", 24, 8, .ro, 0, false⟩]⟩,
  ⟨"T1_PHY", 0x100108, [(128, 0x1000)], .ro, .t1s, 0x0,
    [⟨"TERM", 0, 2, .ro, 0, false⟩, ⟨"RETRYN", 4, 4, .ro, 0, false⟩, ⟨"RETRYMS", 8, 10, .ro, 0, false⟩, ⟨"WFILT", 18, 8, .ro, 0, false⟩]⟩,
  ⟨"T1_CTRL", 0x10010c, [(128, 0x1000)], .std, .t1s, 0x0,
    [⟨"PHYRST", 0, 1, .wo, 0, true⟩, ⟨"WAKEREQ", 1, 1, .wo, 0, true⟩]⟩,
  ⟨"T1_STATUS", 0x100110, [(128, 0x1000)], .ro, .t1s, 0x0,
    [⟨"PLCAA", 0, 1, .ro, 0, false⟩, ⟨"PHYOFFA", 1, 1, .ro, 0, false⟩, ⟨"RETRYEX", 2, 1, .ro, 0, false⟩, ⟨"PHYLIM", 8, 1, .ro, 0, false⟩, ⟨"PHYDISC", 9, 1, .ro, 0, false⟩, ⟨"TXQ", 16, 5, .ro, 0, false⟩]⟩,
  ⟨"T1_CNT", 0x100120, [(128, 0x1000), (8, 0x4)], .ro, .t1s, 0x0,
    [⟨"CNT", 0, 32, .ro, 0, false⟩]⟩]
/-- The EB block's registers. -/
def rowsEB : List RegRow := [
  ⟨"EB_ID", 0x180000, [(12, 0x4000)], .ro, .any, 0x0,
    [⟨"BAY", 0, 4, .ro, 0, false⟩, ⟨"TENG", 4, 1, .ro, 0, false⟩]⟩,
  ⟨"EB_MACCFG", 0x180004, [(12, 0x4000)], .std, .any, 0x7,
    [⟨"IFMODE", 0, 3, .lk, 0x7, false⟩, ⟨"ANEN", 4, 1, .lk, 0, false⟩, ⟨"FSPEED", 5, 3, .lk, 0, false⟩, ⟨"LOCK", 31, 1, .w1s, 0, false⟩]⟩,
  ⟨"EB_STATUS", 0x180008, [(12, 0x4000)], .ro, .any, 0x0,
    [⟨"LINK", 0, 1, .ro, 0, false⟩, ⟨"SPEED", 1, 3, .ro, 0, false⟩, ⟨"HDX", 4, 1, .ro, 0, false⟩, ⟨"LINKA0", 5, 1, .ro, 0, false⟩, ⟨"LINKA1", 6, 1, .ro, 0, false⟩, ⟨"PAUSEA", 7, 1, .ro, 0, false⟩, ⟨"PFCA", 8, 8, .ro, 0, false⟩, ⟨"WPIDX", 16, 3, .ro, 0, false⟩, ⟨"ASCAP", 19, 1, .ro, 0, false⟩]⟩,
  ⟨"EB_RXCFG", 0x18000c, [(12, 0x4000)], .std, .any, 0x5ee,
    [⟨"MAXU", 0, 14, .lk, 0x5ee, false⟩, ⟨"BADDEL", 14, 1, .lk, 0, false⟩, ⟨"DEFQ", 16, 3, .lk, 0, false⟩, ⟨"BADQ", 20, 3, .lk, 0, false⟩]⟩,
  ⟨"EB_RXDEF", 0x180010, [(12, 0x4000)], .std, .any, 0x1,
    [⟨"PVID", 0, 12, .lk, 0x1, false⟩, ⟨"PPCP", 12, 3, .lk, 0, false⟩]⟩,
  ⟨"EB_FCCFG", 0x180014, [(12, 0x4000)], .std, .any, 0x0,
    [⟨"RXPAUSE", 0, 1, .lk, 0, false⟩, ⟨"RXPFC", 1, 1, .lk, 0, false⟩]⟩,
  ⟨"EB_MACADDR_L", 0x180018, [(12, 0x4000)], .std, .any, 0x0,
    [⟨"ADDRL", 0, 32, .lk, 0, false⟩]⟩,
  ⟨"EB_MACADDR_H", 0x18001c, [(12, 0x4000)], .std, .any, 0x0,
    [⟨"ADDRH", 0, 16, .lk, 0, false⟩]⟩,
  ⟨"EB_PTPCFG", 0x180020, [(12, 0x4000)], .std, .any, 0x3200030,
    [⟨"PTPEN", 0, 1, .lk, 0, false⟩, ⟨"STROLE", 1, 2, .lk, 0, false⟩, ⟨"LOGPDLY", 4, 3, .lk, 0x3, false⟩, ⟨"DLYTHR", 16, 16, .lk, 0x320, false⟩]⟩,
  ⟨"EB_PTPLAT", 0x180024, [(12, 0x4000)], .std, .any, 0x0,
    [⟨"RXLAT", 0, 16, .lk, 0, false⟩, ⟨"TXLAT", 16, 16, .lk, 0, false⟩]⟩,
  ⟨"EB_PTPDLY", 0x180028, [(12, 0x4000)], .ro, .any, 0x0,
    [⟨"DELAY", 0, 32, .ro, 0, false⟩]⟩,
  ⟨"EB_EVENT", 0x180030, [(12, 0x4000)], .stdAnyW, .any, 0x0,
    [⟨"LINKUP", 0, 1, .w1c, 0, false⟩, ⟨"LINKDN", 1, 1, .w1c, 0, false⟩, ⟨"PAUSE", 2, 1, .w1c, 0, false⟩, ⟨"PFC", 3, 1, .w1c, 0, false⟩, ⟨"HDX", 4, 1, .w1c, 0, false⟩, ⟨"WPMATCH", 5, 1, .w1c, 0, false⟩, ⟨"BADRX", 6, 1, .w1c, 0, false⟩, ⟨"QDROP", 7, 1, .w1c, 0, false⟩, ⟨"HCOVF", 8, 1, .w1c, 0, false⟩, ⟨"MDIODONE", 9, 1, .w1c, 0, false⟩]⟩,
  ⟨"EB_INTEN", 0x180034, [(12, 0x4000)], .stdAnyW, .any, 0x333,
    [⟨"EN", 0, 10, .rw, 0x333, false⟩]⟩,
  ⟨"EB_CNT", 0x180040, [(12, 0x4000), (13, 0x4)], .ro, .any, 0x0,
    [⟨"CNT", 0, 32, .ro, 0, false⟩]⟩,
  ⟨"EB_RQ", 0x180100, [(12, 0x4000), (8, 0x4)], .std, .any, 0x3,
    [⟨"DISP", 0, 2, .rw, 0x3, true⟩, ⟨"RING", 4, 4, .rw, 0, true⟩, ⟨"PENTRY", 8, 16, .rw, 0, true⟩]⟩,
  ⟨"EB_RULE_W0", 0x180200, [(12, 0x4000), (64, 0x10)], .std, .any, 0x0,
    [⟨"EN", 0, 1, .rw, 0, true⟩, ⟨"TAGM", 1, 2, .rw, 0, true⟩, ⟨"RTM", 3, 2, .rw, 0, true⟩, ⟨"QUEUE", 5, 3, .rw, 0, true⟩, ⟨"PCPSET", 8, 8, .rw, 0, true⟩]⟩,
  ⟨"EB_RULE_W1", 0x180204, [(12, 0x4000), (64, 0x10)], .std, .any, 0x0,
    [⟨"VID", 0, 12, .rw, 0, true⟩, ⟨"VIDMASK", 16, 12, .rw, 0, true⟩]⟩,
  ⟨"EB_RULE_W2", 0x180208, [(12, 0x4000), (64, 0x10)], .std, .any, 0x0,
    [⟨"ETYPE", 0, 16, .rw, 0, true⟩, ⟨"ETMASK", 16, 16, .rw, 0, true⟩]⟩,
  ⟨"EB_WP_M", 0x180600, [(12, 0x4000), (8, 0x20), (4, 0x4)], .std, .any, 0x0,
    [⟨"MASK", 0, 32, .rw, 0, false⟩]⟩,
  ⟨"EB_WP_CTL", 0x180610, [(12, 0x4000), (8, 0x20)], .std, .any, 0x0,
    [⟨"CRC", 0, 16, .rw, 0, false⟩, ⟨"EN", 16, 1, .rw, 0, false⟩, ⟨"HOLDIN", 17, 1, .rw, 0, false⟩, ⟨"HOST", 18, 1, .rw, 0, false⟩, ⟨"RING", 20, 4, .rw, 0, false⟩]⟩,
  ⟨"EB_MDIO_CFG", 0x180800, [], .std, .any, 0x5f,
    [⟨"DIV", 0, 8, .rw, 0x5f, false⟩, ⟨"PRESUP", 8, 1, .rw, 0, false⟩]⟩,
  ⟨"EB_MDIO_CMD", 0x180804, [], .std, .any, 0x0,
    [⟨"WDATA", 0, 16, .wo, 0, false⟩, ⟨"REGAD", 16, 5, .wo, 0, false⟩, ⟨"PHYAD", 21, 5, .wo, 0, false⟩, ⟨"OP", 26, 2, .wo, 0, false⟩, ⟨"CL45", 28, 1, .wo, 0, false⟩]⟩,
  ⟨"EB_MDIO_STAT", 0x180808, [], .std, .any, 0x0,
    [⟨"RDATA", 0, 16, .ro, 0, false⟩, ⟨"BUSY", 16, 1, .ro, 0, false⟩, ⟨"NOACK", 17, 1, .ro, 0, false⟩, ⟨"REJ", 18, 1, .w1c, 0, false⟩]⟩]
/-- The SG block's registers. -/
def rowsSG : List RegRow := [
  ⟨"SG_CTRL", 0x200000, [], .std, .any, 0x0,
    [⟨"EVEN", 0, 1, .lk, 0, true⟩, ⟨"EVRING", 4, 4, .lk, 0, true⟩, ⟨"LOCK", 31, 1, .w1s, 0, false⟩]⟩,
  ⟨"SG_STATUS", 0x200004, [], .ro, .any, 0x0,
    [⟨"SVC", 0, 1, .ro, 0, false⟩, ⟨"HOLDSAFE", 1, 1, .ro, 0, false⟩, ⟨"DEFER", 2, 1, .ro, 0, false⟩]⟩,
  ⟨"SG_BUDGET", 0x200008, [], .ro, .any, 0x0,
    [⟨"SIGB", 0, 16, .ro, 0, false⟩, ⟨"TMRB", 16, 16, .ro, 0, false⟩]⟩,
  ⟨"SG_EVENT", 0x20000c, [], .std, .any, 0x0,
    [⟨"TMO", 0, 1, .w1c, 0, false⟩, ⟨"TMOEND", 1, 1, .w1c, 0, false⟩, ⟨"VFAIL", 2, 1, .w1c, 0, false⟩, ⟨"SHORT", 3, 1, .w1c, 0, false⟩, ⟨"SAT", 4, 1, .w1c, 0, false⟩, ⟨"OVERCOST", 5, 1, .w1c, 0, false⟩, ⟨"DEFER", 6, 1, .w1c, 0, false⟩, ⟨"CMDREJ", 7, 1, .w1c, 0, false⟩, ⟨"BADREF", 8, 1, .w1c, 0, false⟩, ⟨"EVOVF", 9, 1, .w1c, 0, false⟩]⟩,
  ⟨"SG_INTEN", 0x200010, [], .std, .any, 0x3e4,
    [⟨"EN", 0, 10, .rw, 0x3e4, false⟩]⟩,
  ⟨"SG_CMDIDX", 0x200014, [], .std, .any, 0x0,
    [⟨"IDX", 0, 24, .rw, 0, false⟩]⟩,
  ⟨"SG_CMDOFF", 0x200018, [], .std, .any, 0x0,
    [⟨"OFF", 0, 14, .rw, 0, false⟩, ⟨"LEN", 16, 7, .rw, 0, false⟩]⟩,
  ⟨"SG_CMDOP", 0x20001c, [], .std, .any, 0x0,
    [⟨"OP", 0, 4, .wo, 0, true⟩, ⟨"TRIG", 4, 1, .wo, 0, true⟩]⟩,
  ⟨"SG_CMDD", 0x200040, [(16, 0x4)], .std, .any, 0x0,
    [⟨"DATA", 0, 32, .rw, 0, false⟩]⟩,
  ⟨"SG_CNT", 0x200080, [(11, 0x4)], .ro, .any, 0x0,
    [⟨"CNT", 0, 32, .ro, 0, false⟩]⟩,
  ⟨"SG_PCOST", 0x200100, [(73, 0x4)], .ro, .any, 0x0,
    [⟨"COSTA", 0, 16, .ro, 0, false⟩, ⟨"COSTB", 16, 16, .ro, 0, false⟩]⟩]
/-- The TB block's registers. -/
def rowsTB : List RegRow := [
  ⟨"TB_CTRL", 0x280000, [], .std, .any, 0x0,
    [⟨"LRNEN", 0, 1, .rw, 0, true⟩, ⟨"LOCK", 31, 1, .w1s, 0, false⟩]⟩,
  ⟨"TB_STATUS", 0x280004, [], .ro, .any, 0x0,
    [⟨"RESORT", 0, 1, .ro, 0, false⟩, ⟨"BUILD", 1, 1, .ro, 0, false⟩, ⟨"LPMQ", 2, 5, .ro, 0, false⟩, ⟨"FLUSHN", 8, 3, .ro, 0, false⟩, ⟨"TCROWS", 17, 15, .ro, 0, false⟩]⟩,
  ⟨"TB_CFG", 0x280008, [], .ro, .any, 0x0,
    [⟨"MAXKICK", 0, 6, .ro, 0, false⟩, ⟨"AGESTEP", 8, 7, .ro, 0, false⟩, ⟨"AGEMAX", 16, 8, .ro, 0, false⟩]⟩,
  ⟨"TB_LRNCFG", 0x28000c, [], .ro, .any, 0x0,
    [⟨"LMAX", 0, 19, .ro, 0, false⟩, ⟨"FLAPN", 19, 4, .ro, 0, false⟩, ⟨"FRZV", 23, 4, .ro, 0, false⟩, ⟨"LRNB", 27, 5, .ro, 0, false⟩]⟩,
  ⟨"TB_EVENT", 0x280010, [], .std, .any, 0x0,
    [⟨"CMDREJ", 0, 1, .w1c, 0, false⟩, ⟨"FLAP", 1, 1, .w1c, 0, false⟩, ⟨"LRNDROP", 2, 1, .w1c, 0, false⟩, ⟨"STASHFULL", 3, 1, .w1c, 0, false⟩, ⟨"TCOVF", 4, 1, .w1c, 0, false⟩, ⟨"LPMFAIL", 5, 1, .w1c, 0, false⟩, ⟨"LPMDONE", 6, 1, .w1c, 0, false⟩, ⟨"REPAIR", 7, 1, .w1c, 0, false⟩, ⟨"PSPASS", 8, 1, .w1c, 0, false⟩, ⟨"ECC", 9, 1, .w1c, 0, false⟩, ⟨"PSFAIL", 10, 1, .w1c, 0, false⟩]⟩,
  ⟨"TB_INTEN", 0x280014, [], .std, .any, 0x4bb,
    [⟨"EN", 0, 11, .rw, 0x4bb, false⟩]⟩,
  ⟨"TB_PSCTRL", 0x280018, [], .std, .any, 0x0,
    [⟨"EN", 0, 1, .lk, 0, false⟩, ⟨"REGEN", 1, 7, .lk, 0, false⟩]⟩,
  ⟨"TB_PSCFG", 0x28001c, [], .std, .any, 0x64,
    [⟨"CONFIRM", 0, 14, .lk, 0x64, false⟩]⟩,
  ⟨"TB_PSSTAT", 0x280020, [], .ro, .any, 0x0,
    [⟨"REGION", 0, 3, .ro, 0, false⟩, ⟨"RUN", 3, 1, .ro, 0, false⟩, ⟨"PEND", 4, 5, .ro, 0, false⟩, ⟨"PAUSED", 9, 1, .ro, 0, false⟩]⟩,
  ⟨"TB_PSPOS", 0x280024, [], .ro, .any, 0x0,
    [⟨"IDX", 0, 24, .ro, 0, false⟩]⟩,
  ⟨"TB_PSBASE", 0x280028, [], .ro, .any, 0xb14,
    [⟨"BASE", 0, 12, .ro, 0, false⟩]⟩,
  ⟨"TB_SHWADDR", 0x28002c, [], .std, .any, 0x0,
    [⟨"ADDR", 0, 31, .rw, 0, false⟩]⟩,
  ⟨"TB_SHWDATA", 0x280030, [], .std, .any, 0x0,
    [⟨"DATA", 0, 32, .wo, 0, false⟩]⟩,
  ⟨"TB_PSLAST", 0x280034, [], .ro, .any, 0x0,
    [⟨"IDX", 0, 24, .ro, 0, false⟩, ⟨"REGION", 24, 3, .ro, 0, false⟩, ⟨"UNREP", 27, 1, .ro, 0, false⟩]⟩,
  ⟨"TB_OCC0", 0x280038, [], .ro, .any, 0x0,
    [⟨"SMENT", 0, 19, .ro, 0, false⟩]⟩,
  ⟨"TB_OCC1", 0x28003c, [], .ro, .any, 0x0,
    [⟨"EXENT", 0, 23, .ro, 0, false⟩]⟩,
  ⟨"TB_OCC2", 0x280040, [], .ro, .any, 0x0,
    [⟨"LRN", 0, 19, .ro, 0, false⟩, ⟨"SMSTASH", 20, 6, .ro, 0, false⟩, ⟨"EXSTASH", 26, 6, .ro, 0, false⟩]⟩,
  ⟨"TB_OCC3", 0x280044, [], .ro, .any, 0x0,
    [⟨"PFX", 0, 21, .ro, 0, false⟩]⟩,
  ⟨"TB_CMDIDX", 0x280048, [], .std, .any, 0x0,
    [⟨"IDX", 0, 24, .rw, 0, false⟩]⟩,
  ⟨"TB_CMDOP", 0x28004c, [], .std, .any, 0x0,
    [⟨"OP", 0, 4, .wo, 0, true⟩]⟩,
  ⟨"TB_CMDD", 0x280050, [(8, 0x4)], .std, .any, 0x0,
    [⟨"DATA", 0, 32, .rw, 0, false⟩]⟩,
  ⟨"TB_CNT", 0x280080, [(13, 0x4)], .ro, .any, 0x0,
    [⟨"CNT", 0, 32, .ro, 0, false⟩]⟩,
  ⟨"TB_ROOT", 0x280100, [(64, 0x4)], .ro, .any, 0x0,
    [⟨"VRF", 0, 12, .ro, 0, false⟩, ⟨"AF6", 12, 1, .ro, 0, false⟩, ⟨"TCM", 13, 1, .ro, 0, false⟩, ⟨"EN", 14, 1, .ro, 0, false⟩, ⟨"TCMA", 15, 1, .ro, 0, false⟩]⟩]
/-- The SC block's registers. -/
def rowsSC0 : List RegRow := [
  ⟨"SC_CTRL", 0x300000, [], .std, .any, 0x1,
    [⟨"SAMPEN", 0, 1, .lk, 0x1, true⟩, ⟨"HCLR", 1, 1, .wo, 0, true⟩, ⟨"LOCK", 31, 1, .w1s, 0, false⟩]⟩,
  ⟨"SC_STATUS", 0x300004, [], .ro, .any, 0x0,
    [⟨"SVC", 0, 1, .ro, 0, false⟩]⟩,
  ⟨"SC_EVENT", 0x300008, [], .std, .any, 0x0,
    [⟨"CMDREJ", 0, 1, .w1c, 0, false⟩, ⟨"TAILDROP", 1, 1, .w1c, 0, false⟩, ⟨"REDDROP", 2, 1, .w1c, 0, false⟩, ⟨"BLOCK", 3, 1, .w1c, 0, false⟩, ⟨"GATEOVS", 4, 1, .w1c, 0, false⟩, ⟨"GCLCHG", 5, 1, .w1c, 0, false⟩, ⟨"GCLREF", 6, 1, .w1c, 0, false⟩, ⟨"FLUSH", 7, 1, .w1c, 0, false⟩, ⟨"WIRELOSS", 8, 1, .w1c, 0, false⟩, ⟨"GATELATE", 9, 1, .w1c, 0, false⟩]⟩,
  ⟨"SC_INTEN", 0x30000c, [], .std, .any, 0x3f1,
    [⟨"EN", 0, 10, .rw, 0x3f1, false⟩]⟩,
  ⟨"SC_CMDIDX", 0x300010, [], .std, .any, 0x0,
    [⟨"IDX", 0, 14, .rw, 0, false⟩]⟩,
  ⟨"SC_CMDOP", 0x300014, [], .std, .any, 0x0,
    [⟨"OP", 0, 4, .wo, 0, true⟩]⟩,
  ⟨"SC_CMDD", 0x300020, [(6, 0x4)], .std, .any, 0x0,
    [⟨"DATA", 0, 32, .rw, 0, false⟩]⟩,
  ⟨"SC_CNT", 0x300040, [(11, 0x4)], .ro, .any, 0x0,
    [⟨"CNT", 0, 32, .ro, 0, false⟩]⟩,
  ⟨"SC_MBASE", 0x300070, [], .ro, .any, 0x980,
    [⟨"BASE", 0, 12, .ro, 0, false⟩]⟩,
  ⟨"SC_PCFG", 0x301000, [(140, 0x400)], .std, .any, 0x1400,
    [⟨"WFQ", 0, 1, .rw, 0, true⟩, ⟨"NSTRICT", 1, 4, .rw, 0, true⟩, ⟨"OVH", 8, 8, .rw, 0x14, true⟩]⟩,
  ⟨"SC_PRATE", 0x301004, [(140, 0x400)], .std, .any, 0x0,
    [⟨"RATE", 0, 16, .rw, 0, true⟩]⟩,
  ⟨"SC_PSTAT", 0x301008, [(140, 0x400)], .ro, .any, 0x0,
    [⟨"HELD", 0, 8, .ro, 0, false⟩, ⟨"OPER", 8, 1, .ro, 0, false⟩, ⟨"INF", 9, 1, .ro, 0, false⟩, ⟨"PEND", 10, 1, .ro, 0, false⟩]⟩,
  ⟨"SC_PDROP", 0x30100c, [(140, 0x400)], .ro, .any, 0x0,
    [⟨"CNT", 0, 32, .ro, 0, false⟩]⟩,
  ⟨"SC_GCTL", 0x321010, [(12, 0x400)], .std, .any, 0x0,
    [⟨"GEN", 0, 1, .rw, 0, true⟩, ⟨"ACT", 1, 1, .wo, 0, true⟩, ⟨"LEN", 8, 10, .rw, 0, true⟩]⟩,
  ⟨"SC_GBASE_L", 0x321014, [(12, 0x400)], .std, .any, 0x0,
    [⟨"BTL", 0, 32, .rw, 0, true⟩]⟩,
  ⟨"SC_GBASE_H", 0x321018, [(12, 0x400)], .std, .any, 0x0,
    [⟨"BTH", 0, 32, .rw, 0, true⟩]⟩,
  ⟨"SC_GCYC", 0x32101c, [(12, 0x400)], .std, .any, 0x0,
    [⟨"CYC", 0, 30, .rw, 0, true⟩]⟩,
  ⟨"SC_GCT_L", 0x321020, [(12, 0x400)], .ro, .any, 0x0,
    [⟨"CTL", 0, 32, .ro, 0, false⟩]⟩,
  ⟨"SC_GCT_H", 0x321024, [(12, 0x400)], .ro, .any, 0x0,
    [⟨"CTH", 0, 32, .ro, 0, false⟩]⟩,
  ⟨"SC_CL_W0", 0x301040, [(140, 0x400), (8, 0x10)], .std, .any, 0x0,
    [⟨"QUANT", 0, 16, .rw, 0, true⟩, ⟨"SHEN", 16, 1, .rw, 0, true⟩, ⟨"QEN", 17, 1, .rw, 0, true⟩]⟩,
  ⟨"SC_CL_W1", 0x301044, [(140, 0x400), (8, 0x10)], .std, .any, 0x0,
    [⟨"IDLE", 0, 32, .rw, 0, true⟩]⟩,
  ⟨"SC_CL_W2", 0x301048, [(140, 0x400), (8, 0x10)], .std, .any, 0x0,
    [⟨"BURST", 0, 32, .rw, 0, true⟩]⟩,
  ⟨"SC_CL_W3", 0x30104c, [(140, 0x400), (8, 0x10)], .std, .any, 0x0,
    [⟨"QMAX", 0, 24, .rw, 0, true⟩, ⟨"YTH", 24, 4, .rw, 0, true⟩]⟩,
  ⟨"SC_QLAST", 0x3010c0, [(140, 0x400), (8, 0x4)], .ro, .any, 0x0,
    [⟨"DEPTH", 0, 16, .ro, 0, false⟩, ⟨"DELAY", 16, 16, .ro, 0, false⟩]⟩]
/-- The SC block's registers. -/
def rowsSC1 : List RegRow := [
  ⟨"SC_CRED", 0x3010e0, [(140, 0x400), (8, 0x4)], .ro, .any, 0x0,
    [⟨"CRED", 0, 32, .ro, 0, false⟩]⟩,
  ⟨"SC_LIM_ID", 0x301100, [(128, 0x400), (16, 0x10)], .std, .lim, 0x0,
    [⟨"ID", 0, 29, .rw, 0, true⟩, ⟨"IDE", 29, 1, .rw, 0, true⟩, ⟨"EN", 31, 1, .rw, 0, true⟩]⟩,
  ⟨"SC_LIM_MASK", 0x301104, [(128, 0x400), (16, 0x10)], .std, .lim, 0x0,
    [⟨"MASK", 0, 29, .rw, 0, true⟩]⟩,
  ⟨"SC_LIM_CFG", 0x301108, [(128, 0x400), (16, 0x10)], .std, .lim, 0x0,
    [⟨"SHARE", 0, 10, .rw, 0, true⟩, ⟨"BURST", 16, 16, .rw, 0, true⟩]⟩,
  ⟨"SC_LIM_CRED", 0x30110c, [(128, 0x400), (16, 0x10)], .ro, .lim, 0x0,
    [⟨"CRED", 0, 32, .ro, 0, false⟩]⟩,
  ⟨"SC_GLA", 0x330000, [(12, 0x1000), (512, 0x4)], .std, .any, 0x0,
    [⟨"GATES", 0, 8, .rw, 0, true⟩, ⟨"INTERVAL", 8, 24, .rw, 0, true⟩]⟩,
  ⟨"SC_GLB", 0x330800, [(12, 0x1000), (512, 0x4)], .std, .any, 0x0,
    [⟨"GATES", 0, 8, .rw, 0, true⟩, ⟨"INTERVAL", 8, 24, .rw, 0, true⟩]⟩,
  ⟨"SC_HIST", 0x340000, [(1120, 0x80), (32, 0x4)], .ro, .any, 0x0,
    [⟨"CNT", 0, 32, .ro, 0, false⟩]⟩]
/-- The SC block's registers. -/
def rowsSC : List RegRow := rowsSC0 ++ rowsSC1
/-- The KS block's registers. -/
def rowsKS0 : List RegRow := [
  ⟨"KS_ID", 0x380000, [(4, 0x4)], .allRo, .any, 0x0,
    [⟨"ID", 0, 32, .ro, 0, false⟩]⟩,
  ⟨"KS_STATUS", 0x380010, [], .ro, .any, 0x0,
    [⟨"LC", 0, 3, .ro, 0, false⟩, ⟨"TESTROOT", 3, 1, .ro, 0, false⟩, ⟨"LCNEXT", 4, 3, .ro, 0, false⟩, ⟨"BANK", 7, 1, .ro, 0, false⟩, ⟨"WEARWARN", 8, 1, .ro, 0, false⟩, ⟨"WORN", 9, 1, .ro, 0, false⟩, ⟨"PAIRKEY", 10, 1, .ro, 0, false⟩, ⟨"ROOTSCLR", 11, 1, .ro, 0, false⟩]⟩,
  ⟨"KS_EVENT", 0x380014, [], .std, .any, 0x0,
    [⟨"STAGED", 0, 1, .w1c, 0, false⟩, ⟨"CHKFAIL", 1, 1, .w1c, 0, false⟩, ⟨"SCHED", 2, 1, .w1c, 0, false⟩, ⟨"LATE", 3, 1, .w1c, 0, false⟩, ⟨"NOTSTAGED", 4, 1, .w1c, 0, false⟩, ⟨"INFORCE", 5, 1, .w1c, 0, false⟩, ⟨"ABANDON", 6, 1, .w1c, 0, false⟩, ⟨"TAMPER", 7, 1, .w1c, 0, false⟩, ⟨"WEAR", 8, 1, .w1c, 0, false⟩, ⟨"ATTDONE", 9, 1, .w1c, 0, false⟩, ⟨"NOKEY", 10, 1, .w1c, 0, false⟩, ⟨"PAIRKEY", 11, 1, .w1c, 0, false⟩]⟩,
  ⟨"KS_INTEN", 0x380018, [], .std, .any, 0x9da,
    [⟨"EN", 0, 12, .rw, 0x9da, false⟩]⟩,
  ⟨"KS_UPCTL", 0x38001c, [], .ksUp, .any, 0x0,
    [⟨"CHECK", 0, 1, .wo, 0, false⟩, ⟨"DISCARD", 1, 1, .wo, 0, false⟩]⟩,
  ⟨"KS_UPST", 0x380020, [], .ro, .any, 0x0,
    [⟨"STATE", 0, 3, .ro, 0, false⟩, ⟨"CODE", 8, 4, .ro, 0, false⟩, ⟨"SLOT", 16, 5, .ro, 0, false⟩, ⟨"OP", 24, 3, .ro, 0, false⟩]⟩,
  ⟨"KS_UPEP_L", 0x380024, [], .std, .any, 0x0,
    [⟨"EPL", 0, 32, .rw, 0, false⟩]⟩,
  ⟨"KS_UPEP_H", 0x380028, [], .std, .any, 0x0,
    [⟨"EPH", 0, 16, .rw, 0, true⟩, ⟨"OP", 16, 4, .rw, 0, true⟩]⟩,
  ⟨"KS_UPKCV_L", 0x38002c, [], .ro, .any, 0x0,
    [⟨"KCVL", 0, 32, .ro, 0, false⟩]⟩,
  ⟨"KS_UPKCV_H", 0x380030, [], .ro, .any, 0x0,
    [⟨"KCVH", 0, 32, .ro, 0, false⟩]⟩,
  ⟨"KS_LASTUP", 0x380034, [], .ro, .any, 0x0,
    [⟨"SLOT", 0, 5, .ro, 0, false⟩, ⟨"OP", 8, 3, .ro, 0, false⟩, ⟨"OUTCOME", 12, 2, .ro, 0, false⟩]⟩,
  ⟨"KS_LASTCNT", 0x380038, [], .ro, .any, 0x0,
    [⟨"COUNTER", 0, 32, .ro, 0, false⟩]⟩,
  ⟨"KS_NVSEQ", 0x38003c, [], .ro, .any, 0x0,
    [⟨"SEQ", 0, 32, .ro, 0, false⟩]⟩,
  ⟨"KS_NVWEAR", 0x380098, [(2, 0x4)], .ro, .any, 0x0,
    [⟨"WEAR", 0, 17, .ro, 0, false⟩]⟩,
  ⟨"KS_UPBUF", 0x380040, [(22, 0x4)], .ksUp, .any, 0x0,
    [⟨"DATA", 0, 32, .rw, 0, false⟩]⟩,
  ⟨"KS_NONCE", 0x3800a0, [(8, 0x4)], .att, .any, 0x0,
    [⟨"NONCE", 0, 32, .rw, 0, false⟩]⟩,
  ⟨"KS_ATTPUB", 0x3800c0, [(16, 0x4)], .attRo, .any, 0x0,
    [⟨"PUB", 0, 32, .ro, 0, false⟩]⟩,
  ⟨"KS_ATTCTL", 0x3802fc, [], .att, .any, 0x0,
    [⟨"REQ", 0, 1, .wo, 0, false⟩, ⟨"BUSY", 1, 1, .ro, 0, false⟩, ⟨"VALID", 2, 1, .ro, 0, false⟩]⟩,
  ⟨"KS_SLOTA", 0x380100, [(32, 0x4)], .ro, .any, 0x0,
    [⟨"ATTR", 0, 32, .ro, 0, false⟩]⟩,
  ⟨"KS_SLOTC", 0x380180, [(32, 0x4)], .ro, .any, 0x0,
    [⟨"COUNTER", 0, 32, .ro, 0, false⟩]⟩,
  ⟨"KS_SLOTS", 0x380200, [(32, 0x4)], .ro, .any, 0x0,
    [⟨"STATE", 0, 2, .ro, 0, false⟩, ⟨"GEN", 8, 24, .ro, 0, false⟩]⟩,
  ⟨"KS_AUTH", 0x380280, [(2, 0x20), (8, 0x4)], .ro, .any, 0x0,
    [⟨"DIG", 0, 32, .ro, 0, false⟩]⟩,
  ⟨"KS_MANIF", 0x3802c0, [(8, 0x4)], .ro, .any, 0x0,
    [⟨"DIG", 0, 32, .ro, 0, false⟩]⟩,
  ⟨"KS_TAMPCFG", 0x3802e0, [(6, 0x4)], .tamp, .any, 0x100,
    [⟨"EN", 0, 1, .rw, 0, false⟩, ⟨"POL", 1, 1, .rw, 0, false⟩, ⟨"WAKE", 2, 1, .rw, 0, false⟩, ⟨"FILT", 8, 8, .rw, 0, false⟩]⟩]
/-- The KS block's registers. -/
def rowsKS1 : List RegRow := [
  ⟨"KS_TCOUNT", 0x3802f8, [], .ro, .any, 0x0,
    [⟨"CNT", 0, 32, .ro, 0, false⟩]⟩,
  ⟨"KS_TLOG_T0", 0x380300, [(8, 0x10)], .ro, .any, 0x0,
    [⟨"TL", 0, 32, .ro, 0, false⟩]⟩,
  ⟨"KS_TLOG_T1", 0x380304, [(8, 0x10)], .ro, .any, 0x0,
    [⟨"TH", 0, 32, .ro, 0, false⟩]⟩,
  ⟨"KS_TLOG_INFO", 0x380308, [(8, 0x10)], .ro, .any, 0x0,
    [⟨"SRC", 0, 3, .ro, 0, false⟩, ⟨"USED", 3, 1, .ro, 0, false⟩, ⟨"MODE", 4, 4, .ro, 0, false⟩, ⟨"ERASED", 8, 6, .ro, 0, false⟩]⟩,
  ⟨"KS_CNT", 0x380380, [(8, 0x4)], .ro, .any, 0x0,
    [⟨"CNT", 0, 32, .ro, 0, false⟩]⟩,
  ⟨"KS_STMT", 0x380400, [(54, 0x4)], .attRo, .any, 0x0,
    [⟨"DATA", 0, 32, .ro, 0, false⟩]⟩]
/-- The KS block's registers. -/
def rowsKS : List RegRow := rowsKS0 ++ rowsKS1
/-- The CP block's registers. -/
def rowsCP : List RegRow := [
  ⟨"CP_CFG", 0x390000, [], .ro, .any, 0x0,
    [⟨"DMAX", 0, 3, .ro, 0, false⟩, ⟨"SHUF", 3, 1, .ro, 0, false⟩, ⟨"STCORES", 4, 3, .ro, 0, false⟩, ⟨"CTBAYS", 16, 12, .ro, 0, false⟩]⟩,
  ⟨"CP_CTRL", 0x390004, [], .std, .any, 0x0,
    [⟨"EVEN", 0, 1, .lk, 0, true⟩, ⟨"EVRING", 4, 4, .lk, 0, true⟩, ⟨"LOCK", 31, 1, .w1s, 0, false⟩]⟩,
  ⟨"CP_STATUS", 0x390008, [], .ro, .any, 0x0,
    [⟨"SVC", 0, 1, .ro, 0, false⟩, ⟨"PBANK", 1, 1, .ro, 0, false⟩]⟩,
  ⟨"CP_BUDGET", 0x39000c, [], .ro, .any, 0x0,
    [⟨"BLKB", 0, 16, .ro, 0, false⟩]⟩,
  ⟨"CP_EVENT", 0x390010, [], .std, .any, 0x0,
    [⟨"VFAIL", 0, 1, .w1c, 0, false⟩, ⟨"PFAIL", 1, 1, .w1c, 0, false⟩, ⟨"OVERCOST", 2, 1, .w1c, 0, false⟩, ⟨"CMDREJ", 3, 1, .w1c, 0, false⟩, ⟨"EXHAUST", 4, 1, .w1c, 0, false⟩, ⟨"CTFAIL", 5, 1, .w1c, 0, false⟩, ⟨"HJDONE", 6, 1, .w1c, 0, false⟩, ⟨"EVOVF", 7, 1, .w1c, 0, false⟩]⟩,
  ⟨"CP_INTEN", 0x390014, [], .std, .any, 0xbf,
    [⟨"EN", 0, 8, .rw, 0xbf, false⟩]⟩,
  ⟨"CP_CMDIDX", 0x390018, [], .std, .any, 0x0,
    [⟨"IDX", 0, 16, .rw, 0, false⟩]⟩,
  ⟨"CP_CMDOP", 0x39001c, [], .std, .any, 0x0,
    [⟨"OP", 0, 4, .wo, 0, true⟩]⟩,
  ⟨"CP_CMDD", 0x390020, [(8, 0x4)], .std, .any, 0x0,
    [⟨"DATA", 0, 32, .rw, 0, false⟩]⟩,
  ⟨"CP_CNT", 0x390040, [(11, 0x4)], .ro, .any, 0x0,
    [⟨"CNT", 0, 32, .ro, 0, false⟩]⟩,
  ⟨"CP_HJCTL", 0x390080, [], .hj, .any, 0x0,
    [⟨"GO", 0, 1, .wo, 0, false⟩, ⟨"DEC", 1, 1, .rw, 0, false⟩, ⟨"BUSY", 2, 1, .ro, 0, false⟩, ⟨"DONE", 3, 1, .ro, 0, false⟩, ⟨"NOKEY", 4, 1, .ro, 0, false⟩]⟩,
  ⟨"CP_HJKEY", 0x390084, [], .hj, .any, 0x0,
    [⟨"SLOT", 0, 5, .rw, 0, false⟩, ⟨"KLEN", 8, 1, .rw, 0, false⟩]⟩,
  ⟨"CP_HJLBL", 0x390088, [(4, 0x4)], .hj, .any, 0x0,
    [⟨"LBL", 0, 32, .rw, 0, false⟩]⟩,
  ⟨"CP_HJIN", 0x390098, [(4, 0x4)], .hj, .any, 0x0,
    [⟨"IN", 0, 32, .rw, 0, false⟩]⟩,
  ⟨"CP_HJOUT", 0x3900a8, [(4, 0x4)], .hj, .any, 0x0,
    [⟨"OUT", 0, 32, .ro, 0, false⟩]⟩,
  ⟨"CP_FVBASE", 0x3900b8, [], .ro, .any, 0x981,
    [⟨"BASE", 0, 12, .ro, 0, false⟩]⟩,
  ⟨"CP_PRBASE", 0x3900bc, [], .ro, .any, 0x982,
    [⟨"BASE", 0, 12, .ro, 0, false⟩]⟩,
  ⟨"CP_PCOST", 0x390100, [(73, 0x4)], .ro, .any, 0x0,
    [⟨"COSTA", 0, 16, .ro, 0, false⟩, ⟨"COSTB", 16, 16, .ro, 0, false⟩]⟩]
/-- The TW block's registers. -/
def rowsTW : List RegRow := [
  ⟨"TW_CTRL", 0x400000, [], .std, .any, 0x0,
    [⟨"HANDOVER", 0, 1, .wo, 0, true⟩, ⟨"OVR", 1, 1, .wo, 0, false⟩, ⟨"NOADMIT", 2, 1, .lk, 0, false⟩, ⟨"KEY", 8, 8, .wo, 0, false⟩, ⟨"LOCK", 31, 1, .w1s, 0, false⟩]⟩,
  ⟨"TW_STATUS", 0x400004, [], .ro, .any, 0x0,
    [⟨"PAIRID", 0, 1, .ro, 0, false⟩, ⟨"PAIRED", 1, 1, .ro, 0, false⟩, ⟨"LEASE", 2, 1, .ro, 0, false⟩, ⟨"NOPEER", 3, 1, .ro, 0, false⟩, ⟨"SCFUP", 4, 1, .ro, 0, false⟩, ⟨"TELLUP", 5, 1, .ro, 0, false⟩, ⟨"TELLST", 6, 2, .ro, 0, false⟩, ⟨"PHASE", 8, 3, .ro, 0, false⟩, ⟨"FENCED", 11, 1, .ro, 0, false⟩, ⟨"PREASON", 12, 4, .ro, 0, false⟩, ⟨"REGION", 16, 3, .ro, 0, false⟩]⟩,
  ⟨"TW_GEN", 0x400008, [], .ro, .any, 0x0,
    [⟨"GEN", 0, 32, .ro, 0, false⟩]⟩,
  ⟨"TW_PGEN", 0x40000c, [], .ro, .any, 0x0,
    [⟨"GEN", 0, 32, .ro, 0, false⟩]⟩,
  ⟨"TW_LEXP_L", 0x400010, [], .ro, .any, 0x0,
    [⟨"EXPL", 0, 32, .ro, 0, false⟩]⟩,
  ⟨"TW_LEXP_H", 0x400014, [], .ro, .any, 0x0,
    [⟨"EXPH", 0, 32, .ro, 0, false⟩]⟩,
  ⟨"TW_EVENT", 0x400018, [], .std, .any, 0x0,
    [⟨"SCFDOWN", 0, 1, .w1c, 0, false⟩, ⟨"TELLDOWN", 1, 1, .w1c, 0, false⟩, ⟨"PATHUP", 2, 1, .w1c, 0, false⟩, ⟨"TAKEOVER", 3, 1, .w1c, 0, false⟩, ⟨"FENCE", 4, 1, .w1c, 0, false⟩, ⟨"FENCETMR", 5, 1, .w1c, 0, false⟩, ⟨"STALE", 6, 1, .w1c, 0, false⟩, ⟨"PAIRFAIL", 7, 1, .w1c, 0, false⟩, ⟨"INSTEP", 8, 1, .w1c, 0, false⟩, ⟨"RSFAIL", 9, 1, .w1c, 0, false⟩, ⟨"COLD", 10, 1, .w1c, 0, false⟩, ⟨"HANDOVER", 11, 1, .w1c, 0, false⟩]⟩,
  ⟨"TW_INTEN", 0x40001c, [], .std, .any, 0xffb,
    [⟨"EN", 0, 12, .rw, 0xffb, false⟩]⟩,
  ⟨"TW_RSMARK_L", 0x400020, [], .ro, .any, 0x0,
    [⟨"MKL", 0, 32, .ro, 0, false⟩]⟩,
  ⟨"TW_RSMARK_H", 0x400024, [], .ro, .any, 0x0,
    [⟨"MKH", 0, 16, .ro, 0, false⟩]⟩,
  ⟨"TW_RSDONE", 0x400028, [], .ro, .any, 0x0,
    [⟨"DONE", 0, 7, .ro, 0, false⟩]⟩,
  ⟨"TW_RSTIME", 0x40002c, [], .ro, .any, 0x0,
    [⟨"MS", 0, 16, .ro, 0, false⟩]⟩,
  ⟨"TW_CBBASE", 0x400030, [], .ro, .any, 0x983,
    [⟨"BASE", 0, 12, .ro, 0, false⟩]⟩,
  ⟨"TW_CNT", 0x400040, [(8, 0x4)], .ro, .any, 0x0,
    [⟨"CNT", 0, 32, .ro, 0, false⟩]⟩]
/-- The WK block's registers. -/
def rowsWK : List RegRow := [
  ⟨"WK_CTRL", 0x440000, [], .std, .any, 0x0,
    [⟨"SLEEP", 0, 1, .wo, 0, true⟩, ⟨"SLPGO", 1, 1, .wo, 0, true⟩, ⟨"CANCEL", 2, 1, .wo, 0, true⟩, ⟨"AWRST", 3, 1, .wo, 0, true⟩, ⟨"WKOUT", 4, 1, .wo, 0, true⟩, ⟨"LOCK", 31, 1, .w1s, 0, false⟩]⟩,
  ⟨"WK_STATUS", 0x440004, [], .ro, .any, 0x0,
    [⟨"SLPST", 0, 2, .ro, 0, false⟩, ⟨"FORCED", 2, 1, .ro, 0, false⟩, ⟨"MAXAW", 3, 1, .ro, 0, false⟩, ⟨"LSTOFF", 16, 16, .ro, 0, false⟩]⟩,
  ⟨"WK_SLPCFG", 0x440008, [], .std, .any, 0x640,
    [⟨"AUTO", 0, 1, .lk, 0, true⟩, ⟨"TARGET", 1, 1, .lk, 0, true⟩, ⟨"WKOAUTO", 2, 1, .lk, 0, true⟩, ⟨"PREPMS", 4, 10, .lk, 0x64, true⟩, ⟨"DWELL", 16, 8, .lk, 0, false⟩]⟩,
  ⟨"WK_VOTE", 0x44000c, [], .std, .any, 0x0,
    [⟨"HOST", 0, 1, .rw, 0, true⟩]⟩,
  ⟨"WK_RVOTE", 0x440010, [], .std, .any, 0x0,
    [⟨"RING", 0, 32, .rw, 0, true⟩]⟩,
  ⟨"WK_PVOTE", 0x440014, [], .std, .any, 0x0,
    [⟨"PN", 0, 32, .rw, 0, true⟩]⟩,
  ⟨"WK_MAXAW", 0x440018, [], .std, .any, 0x708,
    [⟨"SEC", 0, 16, .lk, 0x708, true⟩]⟩,
  ⟨"WK_WKCFG", 0x44001c, [], .std, .any, 0x210000,
    [⟨"INEN", 0, 8, .rw, 0, false⟩, ⟨"INPOL", 8, 8, .rw, 0, false⟩, ⟨"INFILT", 16, 8, .rw, 0x21, false⟩]⟩,
  ⟨"WK_TIMER", 0x440020, [], .std, .any, 0x0,
    [⟨"SEC", 0, 24, .rw, 0, false⟩]⟩,
  ⟨"WK_T1SARM", 0x440024, [], .std, .any, 0x0,
    [⟨"ARM", 0, 16, .rw, 0, true⟩]⟩,
  ⟨"WK_EVENT", 0x440028, [], .std, .any, 0x0,
    [⟨"SLPREQ", 0, 1, .w1c, 0, false⟩, ⟨"CANCEL", 1, 1, .w1c, 0, false⟩, ⟨"QUIESCE", 2, 1, .w1c, 0, false⟩, ⟨"RINGSLP", 3, 1, .w1c, 0, false⟩, ⟨"RINGWAKE", 4, 1, .w1c, 0, false⟩, ⟨"RINGLOST", 5, 1, .w1c, 0, false⟩, ⟨"PNWAKE", 6, 1, .w1c, 0, false⟩, ⟨"PNSLP", 7, 1, .w1c, 0, false⟩, ⟨"MAXAWAKE", 8, 1, .w1c, 0, false⟩, ⟨"KABLOCK", 9, 1, .w1c, 0, false⟩]⟩,
  ⟨"WK_INTEN", 0x44002c, [], .std, .any, 0x327,
    [⟨"EN", 0, 10, .rw, 0x327, false⟩]⟩,
  ⟨"WK_CNT", 0x440030, [(4, 0x4)], .ro, .any, 0x0,
    [⟨"CNT", 0, 32, .ro, 0, false⟩]⟩,
  ⟨"WK_RNG_CFG", 0x440100, [(32, 0x10)], .std, .any, 0x0,
    [⟨"MORT", 0, 7, .rw, 0, true⟩, ⟨"EN", 7, 1, .rw, 0, true⟩, ⟨"NODE", 8, 6, .rw, 0, true⟩, ⟨"RBASE", 16, 11, .rw, 0, true⟩]⟩,
  ⟨"WK_RNG_TIM", 0x440104, [(32, 0x10)], .std, .any, 0x0,
    [⟨"TTYP", 0, 12, .rw, 0, true⟩, ⟨"TMAX", 16, 12, .rw, 0, true⟩]⟩,
  ⟨"WK_RNG_STAT", 0x440108, [(32, 0x10)], .ro, .any, 0x0,
    [⟨"ASLEEP", 0, 1, .ro, 0, false⟩, ⟨"LOST", 1, 1, .ro, 0, false⟩, ⟨"TOKEN", 2, 1, .ro, 0, false⟩, ⟨"MEMN", 8, 7, .ro, 0, false⟩, ⟨"CONSENT", 16, 8, .ro, 0, false⟩]⟩,
  ⟨"WK_PN_CFG", 0x440300, [(32, 0x10)], .std, .any, 0x0,
    [⟨"KATMO", 0, 16, .rw, 0, true⟩, ⟨"EN", 16, 1, .rw, 0, true⟩, ⟨"BLK", 17, 1, .rw, 0, true⟩]⟩,
  ⟨"WK_PN_PDU", 0x440304, [(32, 0x10)], .std, .any, 0x0,
    [⟨"PDU", 0, 20, .rw, 0, true⟩, ⟨"PDUEN", 31, 1, .rw, 0, true⟩]⟩,
  ⟨"WK_PN_STAT", 0x440308, [(32, 0x10)], .ro, .any, 0x0,
    [⟨"AWAKE", 0, 1, .ro, 0, false⟩, ⟨"OWN", 1, 1, .ro, 0, false⟩, ⟨"BLOCKED", 2, 1, .ro, 0, false⟩, ⟨"LASTPORT", 8, 8, .ro, 0, false⟩]⟩,
  ⟨"WK_LST_CFG", 0x440500, [(16, 0x20)], .std, .any, 0x0,
    [⟨"MORT", 0, 7, .rw, 0, true⟩, ⟨"EN", 7, 1, .rw, 0, true⟩, ⟨"RATE", 8, 2, .rw, 0, true⟩, ⟨"IDE", 10, 1, .rw, 0, true⟩, ⟨"FDTOL", 11, 1, .rw, 0, true⟩, ⟨"DLCEN", 12, 1, .rw, 0, true⟩, ⟨"DLC", 13, 4, .rw, 0, true⟩, ⟨"ERRWAKE", 17, 1, .rw, 0, true⟩]⟩,
  ⟨"WK_LST_ID", 0x440504, [(16, 0x20)], .std, .any, 0x0,
    [⟨"ID", 0, 29, .rw, 0, true⟩]⟩,
  ⟨"WK_LST_MASK", 0x440508, [(16, 0x20)], .std, .any, 0x0,
    [⟨"MASK", 0, 29, .rw, 0, true⟩]⟩,
  ⟨"WK_LST_DATA_L", 0x44050c, [(16, 0x20)], .std, .any, 0x0,
    [⟨"DML", 0, 32, .rw, 0, true⟩]⟩,
  ⟨"WK_LST_DATA_H", 0x440510, [(16, 0x20)], .std, .any, 0x0,
    [⟨"DMH", 0, 32, .rw, 0, true⟩]⟩]
/-- The HB block's registers. -/
def rowsHB0 : List RegRow := [
  ⟨"HB_CTRL", 0x480000, [], .std, .any, 0x0,
    [⟨"LOCK", 31, 1, .w1s, 0, false⟩]⟩,
  ⟨"HB_STATUS", 0x480004, [], .ro, .any, 0x0,
    [⟨"FARUP", 0, 1, .ro, 0, false⟩, ⟨"PERR", 1, 4, .ro, 0, false⟩, ⟨"LOCKL", 5, 1, .ro, 0, false⟩, ⟨"LOCKF", 6, 1, .ro, 0, false⟩, ⟨"FARQ", 8, 7, .ro, 0, false⟩]⟩,
  ⟨"HB_EVENT", 0x480008, [], .std, .any, 0x0,
    [⟨"PWERR", 0, 1, .w1c, 0, false⟩, ⟨"LOCKAB", 1, 1, .w1c, 0, false⟩, ⟨"DMAERR", 2, 1, .w1c, 0, false⟩]⟩,
  ⟨"HB_INTEN", 0x48000c, [], .std, .any, 0x0,
    [⟨"EN", 0, 3, .rw, 0, false⟩]⟩,
  ⟨"HB_B2PAGE", 0x480010, [], .stdAnyW, .any, 0x0,
    [⟨"PAGE", 0, 2, .rw, 0, false⟩]⟩,
  ⟨"HB_LOCKCTL", 0x480014, [], .stdAnyW, .any, 0x0,
    [⟨"ACQ", 0, 1, .wo, 0, false⟩, ⟨"REL", 1, 1, .wo, 0, false⟩, ⟨"TGT", 2, 1, .rw, 0, false⟩, ⟨"OWN", 3, 1, .ro, 0, false⟩]⟩,
  ⟨"HB_PORTCFG", 0x480018, [], .ro, .any, 0x0,
    [⟨"PORTS", 0, 8, .ro, 0, false⟩, ⟨"SPIEN", 8, 1, .ro, 0, false⟩, ⟨"SPISEC", 9, 1, .ro, 0, false⟩]⟩,
  ⟨"HB_PWSTAT", 0x48001c, [], .std, .any, 0x0,
    [⟨"N", 0, 3, .ro, 0, false⟩, ⟨"CLR", 3, 1, .w1c, 0, false⟩, ⟨"OVF", 8, 8, .ro, 0, false⟩]⟩,
  ⟨"HB_PF_BASE", 0x480020, [(4, 0x8)], .std, .any, 0x0,
    [⟨"ADDR", 8, 16, .lk, 0, false⟩]⟩,
  ⟨"HB_PF_CFG", 0x480024, [(4, 0x8)], .std, .any, 0x0,
    [⟨"NBLK", 0, 8, .lk, 0, false⟩, ⟨"PFLIFE", 8, 8, .lk, 0, false⟩, ⟨"EN", 16, 1, .lk, 0, false⟩]⟩,
  ⟨"HB_PWLOG_W0", 0x480040, [(4, 0x10)], .ro, .any, 0x0,
    [⟨"ADDR", 0, 24, .ro, 0, false⟩, ⟨"MASTER", 24, 3, .ro, 0, false⟩, ⟨"SEC", 27, 1, .ro, 0, false⟩, ⟨"CODE", 28, 4, .ro, 0, false⟩]⟩,
  ⟨"HB_PWLOG_W1", 0x480044, [(4, 0x10)], .ro, .any, 0x0,
    [⟨"DATA", 0, 32, .ro, 0, false⟩]⟩,
  ⟨"HB_PWLOG_W2", 0x480048, [(4, 0x10)], .ro, .any, 0x0,
    [⟨"EPL", 0, 32, .ro, 0, false⟩]⟩,
  ⟨"HB_PWLOG_W3", 0x48004c, [(4, 0x10)], .ro, .any, 0x0,
    [⟨"EPH", 0, 16, .ro, 0, false⟩]⟩,
  ⟨"HB_CNT", 0x480080, [(4, 0x4)], .ro, .any, 0x0,
    [⟨"CNT", 0, 32, .ro, 0, false⟩]⟩,
  ⟨"HB_RXR_BASE_L", 0x481000, [(16, 0x20)], .ring, .any, 0x0,
    [⟨"BASEL", 0, 32, .rw, 0, false⟩]⟩,
  ⟨"HB_RXR_BASE_H", 0x481004, [(16, 0x20)], .ring, .any, 0x0,
    [⟨"BASEH", 0, 32, .rw, 0, false⟩]⟩,
  ⟨"HB_RXR_SIZE", 0x481008, [(16, 0x20)], .ring, .any, 0x0,
    [⟨"SIZE", 0, 13, .rw, 0, false⟩]⟩,
  ⟨"HB_RXR_HEAD", 0x48100c, [(16, 0x20)], .ring, .any, 0x0,
    [⟨"HEAD", 0, 12, .ro, 0, false⟩]⟩,
  ⟨"HB_RXR_TAIL", 0x481010, [(16, 0x20)], .ring, .any, 0x0,
    [⟨"TAIL", 0, 12, .rw, 0, false⟩]⟩,
  ⟨"HB_RXR_CTL", 0x481014, [(16, 0x20)], .ring, .any, 0x0,
    [⟨"EN", 0, 1, .rw, 0, false⟩, ⟨"INTEN", 1, 1, .rw, 0, false⟩]⟩,
  ⟨"HB_TXR_BASE_L", 0x481200, [(16, 0x20)], .ring, .any, 0x0,
    [⟨"BASEL", 0, 32, .rw, 0, false⟩]⟩,
  ⟨"HB_TXR_BASE_H", 0x481204, [(16, 0x20)], .ring, .any, 0x0,
    [⟨"BASEH", 0, 32, .rw, 0, false⟩]⟩,
  ⟨"HB_TXR_SIZE", 0x481208, [(16, 0x20)], .ring, .any, 0x0,
    [⟨"SIZE", 0, 13, .rw, 0, false⟩]⟩]
/-- The HB block's registers. -/
def rowsHB1 : List RegRow := [
  ⟨"HB_TXR_HEAD", 0x48120c, [(16, 0x20)], .ring, .any, 0x0,
    [⟨"HEAD", 0, 12, .ro, 0, false⟩]⟩,
  ⟨"HB_TXR_TAIL", 0x481210, [(16, 0x20)], .ring, .any, 0x0,
    [⟨"TAIL", 0, 12, .rw, 0, false⟩]⟩,
  ⟨"HB_TXR_CTL", 0x481214, [(16, 0x20)], .ring, .any, 0x0,
    [⟨"EN", 0, 1, .rw, 0, false⟩, ⟨"INTEN", 1, 1, .rw, 0, false⟩]⟩,
  ⟨"HB_MSIX", 0x4c0000, [(64, 0x10), (4, 0x4)], .msix, .any, 0x0,
    [⟨"WORD", 0, 32, .rw, 0, false⟩]⟩,
  ⟨"HB_PBA", 0x4c0800, [(2, 0x4)], .msix, .any, 0x0,
    [⟨"PEND", 0, 32, .ro, 0, false⟩]⟩]
/-- The HB block's registers. -/
def rowsHB : List RegRow := rowsHB0 ++ rowsHB1

end Sys2Proof.Machine
end

