-- ==== Sys2Proof/Machine/Parts.lean ====
section
/-! DEFINITION. Machine/Parts.lean: the records State is built from, one per block of the frame die and the sill die. Every field is
plain data. Register values live in State.regs; what stands here is the state the spec gives a block beside its registers. -/
namespace Sys2Proof.Machine
open Sys2Proof

/-- A change of a register that is covered by the guarantee: it is held while an epoch is processed and applied when the processing of
the epoch completes (R76, R149). `add` wraps at 32 bits; `or` sets event bits; `put` writes a field; `note` is an F0 notice of the processing, whose
record is covered as well. -/
inductive Upd
  | add (a n : Nat)
  | or (a mask : Nat)
  | put (a lo w v : Nat)
  | note (cause src unit ep ts : Nat)
  deriving DecidableEq, Repr

/-- States of the time base (R41). -/
inductive TbState
  | unsync | locked | holdover | lost
  deriving DecidableEq, Repr, Inhabited

/-- The time base and its servo (R38 to R45, R551). `good` counts consecutive Sync messages with an offset below 100 ns; `lastSync` is the instant from
which sync intervals without a valid Sync count; `holdAt` the entry into Holdover, `relock` a re-lock under way since; `slew` the re-lock offset in ns that
was still to be slewed out at `slewAt`; `rate` the last rate correction in parts per 10⁹; `firstLock` whether the first lock has come; `best` the best
Announce vector received, with its bay, and `annBy` the instant at which announceReceiptTimeout expires; `dom2` the second gPTP domain relayed; `out` the
gPTP messages sent as (message type, bay, domain). -/
structure TimeBase where
  st : TbState := .unsync
  gm : Bool := false
  slvPort : Nat := 0xFF
  good : Nat := 0
  lastSync : Nat := 0
  holdAt : Nat := 0
  relock : Bool := false
  slew : Int := 0
  slewAt : Nat := 0
  rate : Int := 0
  firstLock : Bool := false
  best : Option (Nat × List Nat) := none
  annBy : Option Nat := none
  asCapable : List Nat := []
  dom2 : Option Nat := none
  out : List (Nat × Nat × Nat) := []
  deriving DecidableEq, Repr, Inhabited

/-- The epoch engine (R47 to R77): the epoch being stamped, its start and end on the time base, the mode and lag in force, the inputs
stamped and not yet released, the arrival positions next on each (class, port), closing and sealing marks, the peer's records, the
fills, and what is kept for the comparison of digests and outcomes. `starts` are the starts of recent epochs; `due` the covered updates caused by epochs not processed yet (R149); `sent` the epochs whose records were sent
to the peer and that no twin has flagged; `runIn` the epoch in which the epoch being processed runs (R77); `guar` tells that the guarantee holds now,
`guarFrom` from which epoch on, and `lossEp` the first epoch of the last loss (R85, R86). -/
structure EpochEng where
  cur : Option Nat := none
  start : Nat := 0
  stop : Nat := 0
  starts : List (Nat × Nat) := []
  due : List (Nat × Upd) := []
  lag : Nat := 0
  pos : List (Nat × Nat) := []
  handing : List Input := []
  inputs : List Input := []
  closed : Option Nat := none
  sealed : Option Nat := none
  sent : List Nat := []
  peer : List PeerRec := []
  peerGot : List Nat := []
  decided : List Nat := []
  fillsIn : List Input := []
  fillsOut : List Input := []
  deadline : List Nat := []
  rel : Option Nat := none
  running : Option Nat := none
  runIn : Nat := 0
  done : Option Nat := none
  digest : Nat := 0
  digests : List (Nat × Nat) := []
  outcomes : List OutcomeRec := []
  lossEp : Nat := 0
  guar : Bool := false
  guarFrom : Nat := 0
  seen : List PeerRec := []
  deriving DecidableEq, Repr, Inhabited

/-- State of a bent (FR_BENTST): absent or empty, in service, isolated, awaiting FULLEP. -/
inductive BentSt
  | absent | inService | isolated | awaiting
  deriving DecidableEq, Repr, Inhabited

/-- An image being raised or checked (R87 to R93): its source (0 slot A, 1 slot B, 2 staging, 3 flash at FR_FLASHA, 4 slot A
without fallback), the header with its
record table, and the sections read so far with those that failed (R100); for a delta, `bad` holds the word of FR_ERR of the failed check. -/
structure Raising where
  src : Nat := 0
  header : Octets := []
  recs : List Octets := []
  sects : List (Nat × Octets) := []
  bad : List Nat := []
  headerOk : Bool := false
  startT : Nat := 0
  deriving DecidableEq, Repr, Inhabited

/-- Direction of the generation purge (R118): none, after a swap, or the other way. -/
inductive Purge
  | none | forward | reverse
  deriving DecidableEq, Repr, Inhabited

/-- The frame loader (R87 to R121): header, bent records and sections in service; the image in hand; the delta armed or being checked;
the swap scheduled, whether its epoch has begun (`switched`) and which bents came back with it (`back`); whether the delta wrote into TB0's or GB0's
tables; the purge of either; `cfg` the bents configured, whose clocks may run (R93, R131); whether shadow entries tagged 0b10 belong to the delta swapped last, and
whether those tagged 0b01 count as absent (R331); drops and flushes of isolated bents (R37), which no register shows, and the epoch from
which each isolated bent drops its inputs. -/
structure Loader where
  header : Octets := []
  recs : List Octets := []
  sects : List (Nat × Octets) := []
  bents : List BentSt := List.replicate 13 .absent
  hand : Option Raising := none
  staged : Bool := false
  full : Bool := false
  delta : Option Raising := none
  checking : Bool := false
  swapAt : Option Nat := none
  switched : Bool := false
  back : List Nat := []
  cfg : List Nat := []
  wroteT : Bool := false
  wroteG : Bool := false
  purgeT : Purge := .none
  purgeG : Purge := .none
  kept10 : Bool := false
  gone01 : Bool := false
  isoDrop : Nat := 0
  isoEp : List (Nat × Nat) := []
  isoFlush : Nat := 0
  peerStage : Octets := []
  resumeEp : Nat := 0
  deriving DecidableEq, Repr, Inhabited

/-- The fault manager beside its registers (R463 to R471): the instant of each F2, the bents the active F2 handler isolated, the Hold
entry an F3 asks for (R467), a pending F4 reset (R468), correctable errors of each bent with their instants (R469), and the
configuration in force (R557). -/
structure FaultMgr where
  f2At : Nat := 0
  f2Iso : List Nat := []
  holdAt : Option Nat := none
  f4 : Bool := false
  errs : List (Nat × Nat) := []
  f2hold : Nat := 1000
  f1rate : Nat := 0
  holdMB : Nat := 0
  deriving DecidableEq, Repr, Inhabited

/-- Where an output pin of a pin group stands (R130 to R133). -/
inductive PinCond
  | highZ | pidle | tenon | psleep
  deriving DecidableEq, Repr, Inhabited

/-- What the device puts on a ball (R129): nothing that drives it, a level, or what the tenon sends, inverted or not. -/
inductive PinOut
  | off | low | high | tenon (inverted : Bool)
  deriving DecidableEq, Repr, Inhabited

/-- MZ_STATUS.STATE. -/
inductive MzState
  | idle | inService | draining | loading
  deriving DecidableEq, Repr, Inhabited

/-- One egress frame on its way to a port (R75): the port code of R279, the class, its record or frame octets, the release epoch, drop
eligibility (R338), the lookup-free order of enqueue, the cut-through stream it belongs to (R421), its planned start on the wire in ns
(R347), the gate close it must end before (R350), the PDU it carries (R292), and whether it ends with a deliberately invalid FCS (R421). -/
structure Egress where
  port : Nat := 0
  cls : Nat := 0
  octets : Octets := []
  rel : Nat := 0
  elig : Bool := false
  ord : Nat := 0
  stream : Option Nat := none
  start : Nat := 0
  close : Option Nat := none
  pdu : Option Nat := none
  bad : Bool := false
  deriving DecidableEq, Repr, Inhabited

/-- One CAN transmit object (R174 to R176): the frame in the active slot (or pool object), the next slot of a dedicated object, the order
of placement, the mark that the frame completed on the wire, that its single attempt is spent (R184) and that the event ending it was
processed, so that it frees at the start of the epoch's placement. -/
structure CanObj where
  active : Option Egress := none
  nxt : Option Egress := none
  ord : Nat := 0
  sent : Bool := false
  spent : Bool := false
  abort : Bool := false
  freeing : Bool := false
  deriving DecidableEq, Repr, Inhabited

/-- The CAN tenon beside its registers. `wire` is the object whose frame is on the wire (32: the reference message), with its record and its length field
(R151); `waitTil` the end of a wait for 11 recessive bits; `recov` a running bus-off recovery; `suspects` the epochs of the suspects counted for R191; `cells` the live buffers of
the priority cells (record and stamp instant); `cycleAt` the start of the running basic cycle, `lastRef` the last reference message, or the
instant its time counts from;
`tried` a frame was started in, and `missed` a miss reported for, the running exclusive window; `newMx` a matrix waiting for row 0 (R200). -/
structure CanSt where
  objs : List CanObj := List.replicate 32 {}
  ordN : Nat := 0
  opmode : Nat := 0
  pendOp : Option Nat := none
  wire : Option Nat := none
  wireRec : Octets := []
  wireLen : Nat := 0
  waitTil : Option Nat := none
  recov : Bool := false
  lone : Bool := false
  suspects : List Nat := []
  cells : List (Octets × Nat) := List.replicate 4 ([], 0)
  cycleAt : Option Nat := none
  lastRef : Nat := 0
  tried : Bool := false
  missed : Bool := false
  newMx : Option (List (Nat × Nat)) := none
  deriving DecidableEq, Repr, Inhabited

/-- A LIN response buffer: the frames that a decision may still choose, its pending mark (R213), and the frame chosen last (R215). -/
structure LinBuf where
  frames : List Egress := []
  pending : Bool := false
  sent : Option Egress := none
  deriving DecidableEq, Repr, Inhabited

/-- A LIN header on the bus (R208): FID and protected identifier, the start of its break, the break and delimiter in bits, and whether this unit
sends it. -/
structure LinHdr where
  fid : Nat := 0
  pid : Nat := 0
  start : Nat := 0
  brk : Nat := 13
  delim : Nat := 1
  own : Bool := false
  deriving DecidableEq, Repr, Inhabited

/-- The LIN tenon beside its registers: the 64 response buffers; the table in effect, the (table, entry) of the running slot (entry 64: none yet) and
its end; the entry at which the table goes on after a resolving run, the table such a run is to start on, and a collision seen in the running slot
(R219); control writes waiting for their slot boundary as (earliest instant, TABLE, RUN, SLEEP) (R220); RUN in effect, and `rest` a bus sleep since
which no RUN = 1 has acted (R222); the header on the bus, and the response on the wire as (FID, octets, its start); a go-to-sleep slot due and running;
the end of a wake pulse being sent; and the instant of the last bus activity. -/
structure LinSt where
  bufs : List LinBuf := List.replicate 64 {}
  table : Nat := 0
  slot : Nat × Nat := (0, 64)
  slotEnd : Option Nat := none
  resume : Option Nat := none
  resolve : Option Nat := none
  coll : Bool := false
  ctl : List (Nat × Option Nat × Option Bool × Bool) := []
  run : Bool := false
  rest : Bool := false
  hdr : Option LinHdr := none
  sending : Option (Nat × Octets × Nat) := none
  sleepReq : Bool := false
  sleepSlot : Bool := false
  pulse : Option Nat := none
  act : Nat := 0
  deriving DecidableEq, Repr, Inhabited

/-- A T1S tenon beside its registers (R224 to R238): its transmit queue with the marks of frames sent and of entries whose event was
processed, the frames left of the opportunity in progress with the one on the wire (0: none), PLCA, the integrated PHY with its retries, the instant
of its reconnection and the end of its holding time, CSMA/CD attempts made for the first frame, and the end of a wake being sent. -/
structure T1sSt where
  queue : List (Egress × Bool × Bool) := []
  burst : Nat := 0
  plca : Bool := false
  beaconAt : Nat := 0
  disc : Bool := false
  off : Bool := false
  retries : Nat := 0
  reconAt : Option Nat := none
  holdAt : Option Nat := none
  attempts : Nat := 0
  waking : Option Nat := none
  deriving DecidableEq, Repr, Inhabited

/-- A mortise (R122 to R149): the tenon in service and its descriptor, its state, its pins, the inhibits in effect (R142), and a
re-tenoning under way: the new descriptor and whether its pins are configured, the resume epoch, the epochs (G, A) between which the mortise takes no input,
the last G, and the instant the drain must end. `latch` is the descriptor whose sleep states the retention latches hold (R133). -/
structure Mortise where
  tenon : Tenon := .idle
  desc : Octets := []
  st : MzState := .idle
  pins : PinCond := .highZ
  txinh : Bool := false
  rxinh : Bool := false
  newDesc : Option Octets := none
  loaded : Bool := false
  swapG : Nat := 0
  latch : Octets := []
  resume : Option Nat := none
  window : Option (Nat × Nat) := none
  drainBy : Nat := 0
  can : CanSt := {}
  lin : LinSt := {}
  t1s : T1sSt := {}
  deriving DecidableEq, Repr, Inhabited

/-- An I/O bank (R125, R130, R133): the sensed class, the declared BANKV, and whether its supply is present. -/
structure Bank where
  sensed : Nat := 2
  decl : Nat := 2
  deriving DecidableEq, Repr, Inhabited

/-- The last bus access as the master that made it saw it: the word read, whether it completed with error, and an SPI answer's octets. -/
structure Bus where
  data : Word := 0
  words : List Word := []
  err : Bool := false
  status : Nat := 0
  deriving DecidableEq, Repr, Inhabited

/-- A bay beside its registers (R240 to R262): the state of the link with the instant from which it holds, the link as last reported, the speed of the last full-duplex in-band word, the frames handed
to the MAC in order with the transmit store they occupy (R349, R350), the frame last started with the instant in ps at which it ends, the
end in ps of the wire pause of all classes and of each class (R257), and the selections each class is still held for (R258). -/
structure Bay where
  phy : Bool := false
  since : Nat := 0
  up : Bool := false
  speed : Nat := 0
  an : Option Nat := none
  fifo : List Egress := []
  wire : Option Egress := none
  wireEnd : Nat := 0
  pauseAll : Nat := 0
  pfc : List Nat := List.replicate 8 0
  hold : List Nat := List.replicate 8 0
  deriving DecidableEq, Repr, Inhabited

/-- A bay when service ends or a frame is loaded: nothing waits in the MAC and no selection is held (R82, R258); the link and the wire stay. -/
def Bay.restart (b : Bay) : Bay := { b with fifo := [], hold := List.replicate 8 0 }

/-- A timer action of the gateway (R286): a route enters timeout, or a PDU is enqueued. -/
inductive TimerAct
  | timeout (r : Nat)
  | send (p : Nat)
  deriving DecidableEq, Repr

/-- The gateway beside its DRAM regions and registers: timer actions carried into the next epoch (R297), and where the timer step of the
epoch stands: its part (0 over, 1 carried actions, 2 timeouts, 3 transmissions), the actions of that part still to do, the operations
left, and whether the budget is spent. -/
structure Gateway where
  carry : List TimerAct := []
  part : Nat := 0
  todo : List TimerAct := []
  left : Nat := 0
  full : Bool := false
  deriving DecidableEq, Repr, Inhabited

/-- A TCAM row in use (R314): its index, the prefix it holds (IPv6, VRF, LEN, the 64 address bits), its handle and tag. -/
structure TcamRow where
  idx : Nat
  af6 : Bool
  vrf : Nat
  len : Nat
  pfx : Nat
  handle : Nat
  gen : Nat
  deriving DecidableEq, Repr

/-- A prefix command awaiting its effect epoch (R318): the epoch, the handle, the entry (none: delete), whether its build is done and
whether the node pool held it, its share of the pool, and whether its pair overflows the TCAM at the effect epoch (R316). -/
structure LpmCmd where
  at_ : Nat
  handle : Nat
  entry : Option Octets
  built : Bool := false
  fits : Bool := true
  units : Nat := 0
  overflow : Bool := false
  deriving DecidableEq, Repr

/-- A pending record of the plumb scan (R332): region, index, the entry and its shadow as read, the instant it opened. -/
structure ScanRec where
  region : Nat
  idx : Nat
  ent : Octets
  shadow : Octets
  opened : Nat
  deriving DecidableEq, Repr

/-- A flush filter (R327): its port code (none: all ports), its epoch, and the sweep visits left. -/
structure FlushFilter where
  port : Option Nat
  epoch : Nat
  left : Nat
  deriving DecidableEq, Repr

/-- The table engine (R302 to R335) beside its registers and DRAM regions: the mortises whose direct bank in force is bank 1, as bits (R117), the TCAM rows, the prefix
commands pending, the learning source lookups of the epoch as (key, port code, canonical position), the sweep position, the flush filters,
the slots left in the epoch (R321), where the timer step of the epoch stands (learning to do, then visits left), and the scan's pending
records and decided repairs. -/
structure Tables where
  bank : Nat := 0
  tcam : List TcamRow := []
  lpm : List LpmCmd := []
  lastEffect : Nat := 0
  learn : List (Octets × Nat × Nat) := []
  age : Nat := 0
  filters : List FlushFilter := []
  slots : Nat := 0
  learnDue : Bool := false
  visits : Nat := 0
  recs : List ScanRec := []
  repairs : List ScanRec := []
  deriving DecidableEq, Repr, Inhabited


/-- One egress class queue: its frames in order and their octets (R342, R343). -/
structure Queue where
  frames : List Egress := []
  depth : Nat := 0
  deriving DecidableEq, Repr, Inhabited

/-- A gate list in force on a bay: which of the two (`b`: list B), its length, base time and cycle (R355). -/
structure GateCur where
  b : Bool := false
  len : Nat := 0
  bt : Nat := 0
  cyc : Nat := 0
  deriving DecidableEq, Repr, Inhabited

/-- The planner of a bay (R347 to R360): the planned end of the last frame, the deficit round robin and fair queueing state, shaper credits
in microbits with the instant up to which they are counted, the gate list in force, and a pending activation with its change time. -/
structure Planner where
  v : Nat := 0
  rr : Nat := 0
  fresh : Bool := true
  deficit : List Nat := List.replicate 8 0
  vt : Nat := 0
  fin : List Nat := List.replicate 8 0
  fl : List Nat := List.replicate 8 0
  credit : List Int := List.replicate 8 0
  credAt : Nat := 0
  cur : Option GateCur := none
  pend : Bool := false
  ct : Nat := 0
  deriving DecidableEq, Repr, Inhabited

/-- The scheduler: its queues, by 8 × port code + class (a queue not listed is empty), and the planner of each bay. -/
structure Sched where
  queues : List (Nat × Queue) := []
  plan : List Planner := List.replicate 12 {}
  deriving DecidableEq, Repr, Inhabited

/-- A root slot (R369, R375, R376): its key, state, attribute word, counter and generation. -/
structure RootSlot where
  key : Octets := List.replicate 32 0
  state : Nat := 0
  attr : Nat := 0
  counter : Nat := 0
  gen : Nat := 0
  deriving DecidableEq, Repr, Inhabited

/-- The NVKM image beside the factory record (R369): the lifecycle in force and the one committed for the next start, the slots, the
authority digests, the anti-rollback floor, the tamper configuration, the tamper log as (time, INFO) with the entry written next, and
the tamper count. -/
structure NvImage where
  lc : Nat := 0
  lcNext : Nat := 0
  slots : List RootSlot := List.replicate 32 {}
  auth : List Octets := List.replicate 2 (List.replicate 32 0)
  floor : Nat := 0
  tamp : List Nat := List.replicate 6 0x100
  tlog : List (Nat × Nat) := List.replicate 8 (0, 0)
  tnext : Nat := 0
  tcount : Nat := 0
  deriving DecidableEq, Repr, Inhabited

/-- A bank of NVKM (R392, R393): the sequence of its marker, whether marker and image are valid, the header written last as (sequence,
slot, OP, counter), the image, and the commits written to it (R395). -/
structure NvBank where
  seq : Nat := 0
  ok : Bool := false
  hdr : Option (Nat × Nat × Nat × Nat) := none
  img : NvImage := {}
  wear : Nat := 0
  deriving DecidableEq, Repr, Inhabited

/-- A checked key update (R384): OP, SLOT, COUNTER, ATTR and the unwrapped key, the digest or the target code. -/
structure KeyUpd where
  op : Nat := 0
  slot : Nat := 0
  counter : Nat := 0
  attr : Nat := 0
  data : Octets := []
  deriving DecidableEq, Repr, Inhabited

/-- A commit the sill die has to carry out (R394): an update (`live` until it is abandoned), a floor advance, a KS_TAMPCFG write, or a
tamper response. -/
inductive Commit
  | update (u : KeyUpd) (live : Bool)
  | floor (n : Nat)
  | tampCfg (src val : Nat)
  | response
  deriving DecidableEq, Repr

/-- An entry of the key shelf (R383): slot, generation, label, length in bits, key. -/
structure ShelfKey where
  slot : Nat
  gen : Nat
  lbl : Octets
  bits : Nat
  key : Octets
  deriving DecidableEq, Repr

/-- The key store (R368 to R402): the two banks with the one in force, the image as the sill die holds it, the commits waiting with the one in
progress first, the last update since the start as (slot, OP, OUTCOME, counter); the root registers in force (lifecycle, LCNEXT, slots,
authority digests) and whether their keys are zeroised; the staged update and its effect epoch (none: at once); the shelf; tamper events
to be counted at the next start; and the fields of a statement being signed. -/
structure KeyStore where
  banks : List NvBank := [{}, {}]
  bank : Nat := 0
  cur : NvImage := {}
  commits : List Commit := []
  last : Option (Nat × Nat × Nat × Nat) := none
  lc : Nat := 0
  lcNext : Nat := 0
  slots : List RootSlot := List.replicate 32 {}
  auth : List Octets := List.replicate 2 (List.replicate 32 0)
  cleared : Bool := false
  upd : Option KeyUpd := none
  effect : Option Nat := none
  shelf : List ShelfKey := []
  tamperPend : Nat := 0
  att : Option Octets := none
  deriving DecidableEq, Repr, Inhabited

/-- A recipe header (R406). -/
structure Recipe where
  cls : Nat := 0
  first : Nat := 0
  bfix : Nat := 0
  bper : Nat := 0
  deriving DecidableEq, Repr, Inhabited

/-- The recipe sequencer (R407): eight block registers, message and output pointers and the LAST flag; the output octets the EMIT steps of the
last run gave, the tag its TAG step wrote, and the result of a checking TAG step. -/
structure Sequencer where
  regs : List Octets := List.replicate 8 (List.replicate 16 0)
  msg : Nat := 0
  out : Nat := 0
  last : Bool := false
  emit : Octets := []
  tag : Option Nat := none
  good : Option Bool := none
  deriving DecidableEq, Repr, Inhabited

/-- The cipher engine (R403 to R429) beside its registers and DRAM regions: the recipes and steps in force, the sequencer, the blocks of the
declared cost left to the input in hand (R411) with the port code of that input (R425), and a running host job as (key, decrypt, input),
its key none when none was derived. -/
structure Cipher where
  recipes : List (Nat × Recipe) := []
  steps : List (Nat × Nat) := []
  seq : Sequencer := {}
  left : Nat := 0
  inp : Nat := 0xFF
  job : Option (Option Octets × Bool × Octets) := none
  deriving DecidableEq, Repr, Inhabited

/-- The twin unit beside its registers (R430 to R462). `gen` is the pair generation, kept by the sill die (R434), `pgen` the peer's from its
last heartbeat; `expiry` this unit's view of the lease's end in ns (R436), `nopeer` a lease without expiry (R437), `renew` the latest own
renewal stamp sent; `fenceAt` the instant up to which the fence timer is armed (R447), `fenced` its forced states in force, `holdDrive` the
lease held on entry to Hold (R34); `driving` the tenons have their pins. `scfUp`, `tellUp` and `tellSt` are the paths (R443, R444);
`hbGot` and `ackDue` the receipt instant of the peer's last heartbeat and the latest stamp acknowledged, `tellAck` the renewal number to be
acknowledged in the next tell word; `hbOut` and `tellOut` what was sent last. `reached` tells that the peer was reached since Raise,
`matched` that every pairing check passed (R432), `peerRole` the role of its last heartbeat, `raiseAt` the entry into Raise; `exLead`
a former Lead that self-fenced; `region` and `preason` are the fields of TW_STATUS. `handAt` is the epoch X of a hand-over (R440), `takeAt` the instant of a takeover
whose mode change is due, `coldHold` a Hold entered for want of the peer or by a cold takeover (R30), `stale` that the unit found itself
stale (R438) and `found` that a heartbeat showed it, `demote` a change to Shadow due at the next epoch boundary (R29). `high` and `low` count consecutive offset measurements above E/16 and at most E/32 (R84). `unagreed` are the epochs whose matching
found the Lead's records missing with the instant of the matching (R449). `rsAt` and `ackAt` are the start of the catch-up and its last
acknowledgement, `joinAt` the join epoch J (R460), `admitted` a peer in catch-up with this Lead, `peerIn` a peer in Shadow; `rsMark` is TW_RSMARK.
`pairAt` is the instant of the last pairing exchange (R432); `hbRun` and `tellRun` count consecutive valid heartbeats on a path, `tellGot` is the receipt
instant of the last tell word (R444). -/
structure Twin where
  pairId : Bool := false
  gen : Nat := 0
  pgen : Nat := 0
  lease : Bool := false
  nopeer : Bool := false
  expiry : Nat := 0
  renew : Nat := 0
  fenceAt : Option Nat := none
  fenced : Bool := false
  holdDrive : Bool := false
  driving : Bool := false
  inStep : Bool := false
  peerInStep : Bool := false
  catchUp : Nat := 0
  egressOff : Bool := false
  scfUp : Bool := false
  tellUp : Bool := false
  tellSt : Nat := 0
  hbGot : Nat := 0
  hbSeen : Option (Nat × Nat) := none
  ackDue : Option Nat := none
  tellAck : Option Nat := none
  hbOut : Option Heartbeat := none
  tellOut : Option TellWord := none
  reached : Bool := false
  matched : Bool := false
  peerRole : Nat := 3
  raiseAt : Nat := 0
  exLead : Bool := false
  region : Nat := 0
  preason : Nat := 0
  handAt : Option Nat := none
  takeAt : Option Nat := none
  coldHold : Bool := false
  stale : Bool := false
  found : Bool := false
  demote : Bool := false
  high : Nat := 0
  low : Nat := 0
  unagreed : List (Nat × Nat) := []
  rsAt : Nat := 0
  ackAt : Nat := 0
  joinAt : Option Nat := none
  admitted : Bool := false
  peerIn : Bool := false
  rsMark : Nat := 0
  pairAt : Option Nat := none
  hbRun : Nat := 0
  tellRun : Nat := 0
  tellGot : Nat := 0
  deriving DecidableEq, Repr, Inhabited

/-- A consent ring (R487 to R491): the other members with the epoch of their last ring frame, the pass scheduled as (epoch, CONSENT
received), whether it is asleep or lost, the epochs of the last token and of the last ALIVE frame, an ALIVE frame owed in the next timer
step, the CONSENT last sent, and the epoch from which the device has been its only member. -/
structure Ring where
  members : List (Nat × Nat) := []
  pass : Option (Nat × Nat) := none
  asleep : Bool := false
  lost : Bool := false
  tokenAt : Nat := 0
  aliveAt : Option Nat := none
  owe : Bool := false
  consent : Nat := 0
  aloneAt : Nat := 0
  deriving DecidableEq, Repr, Inhabited

/-- A partial network (R492 to R495): the epoch at which its timer ends, the port of its last restart, the ports blocked for it, and
whether it was awake when last looked at. -/
structure PartNet where
  until_ : Option Nat := none
  lastport : Nat := 0
  blocked : List Nat := []
  awake : Bool := false
  deriving DecidableEq, Repr, Inhabited

/-- The sleep engine beside its registers (R472 to R478, R486 to R495): its state (0 awake, 1 prepare, 2 quiesce), whether forced, whether Sill is
the target, whether quiesce has begun, epochs Q and C, the listeners not armed at Q (R481), the epochs in which a cancellation and an SLPGO were last
processed, the instant from which tenons take their pins again; in Bench the instant of the commit point; rings and partial networks; the awake time in epochs and its expiry; `listeners` and `phys` what the
sill die armed at Q; and the rings and networks still to do in the timer step of the epoch. -/
structure Wake where
  st : Nat := 0
  forced : Bool := false
  sill : Bool := false
  quiesce : Bool := false
  qEp : Option Nat := none
  cEp : Option Nat := none
  lstOff : Nat := 0
  cancel : Option Nat := none
  go : Option Nat := none
  pinsAt : Option Nat := none
  benchAt : Option Nat := none
  rings : List Ring := List.replicate 32 {}
  nets : List PartNet := List.replicate 32 {}
  awake : Nat := 0
  expired : Bool := false
  ringsDone : Nat := 0
  netsDone : Nat := 0
  woke : Bool := false
  deriving DecidableEq, Repr, Inhabited

/-- The king post beside its registers (R496 to R501): the clock state of each bent (0 stopped, 2 running), a ramp under way as (bent, start,
its end in ns), whether bent clocks are divided, the instant at which a measurement was last seen at 90 % of its threshold or more, and the energy granted.
Bent 13 in `ramp` stands for the blocks without a bent. -/
structure KingPost where
  clk : List Nat := List.replicate 13 0
  ramp : Option (Nat × Bool × Nat) := none
  divided : Bool := false
  highAt : Nat := 0
  energy : Nat := 0
  deriving DecidableEq, Repr, Inhabited

/-- A wake the sill die has latched (R477): source and index of R479, and whether it came before the commit point. -/
structure WakeRec where
  src : Nat := 0
  idx : Nat := 0
  post : Bool := false
  at_ : Nat := 0
  deriving DecidableEq, Repr, Inhabited

/-- The sill die (R15, R17 to R19, R434, R476 to R485, R528 to R534): whether VSILL is in range, PORESET_N low, the frame die out of reset, the
power enables asserted and INH; the instant at which VSILL came and whether a failure of the crystal was recorded; the instant at which a wake was acted
on while the frame die powers up, and failures in a row; an undervoltage being waited out; the commit point;
the configuration handed over (R476): WAKE_IN enables and polarity, sill timer, armed PHYs and listeners with their error counts, WKOAUTO,
DWELL, and the listeners' registers; wakes latched; WKPULSE, WKILIM and whether a frame has been raised since VSILL; the start and end of
the last WAKE_OUT pulse; SL_WKSRC; and whether the clocks of CAN and LIN egress are enabled (R19). -/
structure SillDie where
  vsill : Bool := false
  poreset : Bool := false
  dieOn : Bool := false
  enables : Bool := false
  inh : Bool := false
  vsillAt : Nat := 0
  oscFail : Bool := false
  powerT : Option Nat := none
  fails : Nat := 0
  under : Bool := false
  commitAt : Nat := 0
  inEn : Nat := 0
  inPol : Nat := 0
  inFilt : Nat := 0
  timer : Nat := 0
  phys : Nat := 0
  listeners : Nat := 0
  lstErr : List Nat := List.replicate 16 0
  lstCfg : List Nat := []
  wkoAuto : Bool := false
  dwell : Nat := 0
  latched : List WakeRec := []
  wkPulse : Nat := 0
  wkIlim : Nat := 0
  wkVolt : Nat := 0
  raised : Bool := false
  pulseAt : Option Nat := none
  pulseOn : Bool := false
  wkSrc : Nat := 0
  egressClk : Bool := true
  deriving DecidableEq, Repr, Inhabited

/-- A far access on its way (R510): its master and world, offset in the far window, its octets (R6), the word written (none: a read), and its issue. -/
structure FarReq where
  ms : Master := .pcie0
  w : World := .secure
  off : Nat := 0
  size : Nat := 4
  data : Option Word := none
  at_ : Nat := 0
  deriving DecidableEq, Repr, Inhabited

/-- A bus lock (R514): its holder and the instant it was acquired. -/
structure BusLock where
  ms : Master := .pcie0
  w : World := .secure
  at_ : Nat := 0
  deriving DecidableEq, Repr, Inhabited

/-- A held prefetch block (R515): its offset in the far window, its words, and the instant it was fetched. -/
structure PfBlock where
  off : Nat := 0
  words : List Word := []
  at_ : Nat := 0
  life : Nat := 0
  deriving DecidableEq, Repr, Inhabited

/-- An access to register space, as it may stall at a locked bus (R514): its master and world, the offset in BAR0, its octets (R6), the word written
(none: a read), the bits it writes, and the update of R11 or R12 that meets it. -/
structure Access where
  ms : Master := .pcie0
  w : World := .secure
  addr : Nat := 0
  size : Nat := 4
  data : Option Word := none
  mask : Nat := 0xFFFFFFFF
  upd : Nat := 0
  deriving DecidableEq, Repr, Inhabited

/-- An MSI-X table after reset: 64 vectors of four words, each masked (bit 0 of its fourth word), as PCI Express lays down. -/
def msixReset : List Word := (List.replicate 64 [0, 0, 0, 1]).flatten

/-- The host bridge beside its registers (R502 to R521): per receive ring the BUFLENs of the descriptors the host gave, records written as
(ring, record) and rings whose vector is due, far accesses outstanding in order of issue, the local and far locks, held prefetch blocks,
per port the transmit ring served last and the instant from which the next frame may be read, completed transmit descriptors as (ring,
ERR, epoch), each function's MSI-X table (four words a vector) and PBA, vectors sent as (function, vector), ring sources asserting their
interrupt (bits 0 to 15 receive, 16 to 31 transmit), and accesses stalled at the local bus. -/
structure Bridge where
  bufs : List (List Nat) := List.replicate 16 []
  rxOut : List (Nat × Octets) := []
  rxDue : List Nat := []
  far : List FarReq := []
  lockL : Option BusLock := none
  lockF : Option BusLock := none
  blocks : List PfBlock := []
  served : List Nat := [3, 7, 11, 15]
  txDone : List (Nat × Bool × Nat) := []
  txAt : List Nat := [0, 0, 0, 0]
  msix0 : List Word := msixReset
  msix1 : List Word := msixReset
  pba0 : Nat := 0
  pba1 : Nat := 0
  sent : List (Nat × Nat) := []
  ringIrq : Nat := 0
  stalled : List Access := []
  deriving DecidableEq, Repr, Inhabited

end Sys2Proof.Machine
end

