-- ==== Sys2Proof/Machine/State.lean ====
section
/-! DEFINITION. Machine/State.lean: the state of the block, its faults and refusals, and the state after reset. -/
namespace Sys2Proof.Machine
open Sys2Proof

/-- Faults of the model. No meaning raises one: every command of the table has an effect the spec gives it, or changes nothing. The
constructor stands for a command whose operand names a unit the part does not have (a mortise above 127, a bay above 11), which the
model treats as a command that changes nothing; it is kept so that a later repair has a name to stop with. Safe: it is never raised. -/
inductive Fault
  | noSuchUnit
  deriving DecidableEq, Repr

/-- Refusals of the model. `notModelled` is raised by exec alone for a row without a meaning. Safe: the machine stops. -/
inductive Refusal
  | notModelled (mnemonic : String)
  deriving DecidableEq, Repr

/-- The state of the RQ-G128. `pending` is the queue of commands waiting, first in first out. `now` is the unit's time base in ns (R38).
`regs` holds the registers of BAR0 by offset (a register not listed holds its reset value); `mem` the DRAM table space of R506 (an octet
not listed reads as zero); `held` the covered updates waiting for the end of the epoch being processed (R76). `free` counts the free
values taken. The other fields are the blocks' own state. -/
structure State where
  pending : List Instr := []
  now : Nat := 0
  free : Nat := 0
  grade : Grade := .q2
  mode : Mode := .sill
  regs : List (Nat × Word) := []
  mem : List Host.Cell := []
  held : List Upd := []
  bus : Bus := {}
  tb : TimeBase := {}
  ep : EpochEng := {}
  fr : Loader := {}
  flt : FaultMgr := {}
  mz : List Mortise := List.replicate 128 {}
  banks : List Bank := List.replicate 8 {}
  bays : List Bay := List.replicate 12 {}
  gw : Gateway := {}
  tab : Tables := {}
  sch : Sched := {}
  ks : KeyStore := {}
  cp : Cipher := {}
  tw : Twin := {}
  wk : Wake := {}
  pw : KingPost := {}
  sill : SillDie := {}
  hb : Bridge := {}
  deriving DecidableEq, Repr, Inhabited

/-- The key store of a device as it leaves the factory: Blank, bank 0 in force, the transport key in slot 0 (R374). DESIGN CHOICE (log 3): the commit
sequence 0, and the zero attributes of the transport slot. -/
def factoryKeys : KeyStore :=
  let img : NvImage := { slots := { key := natBE 32 Config.transportKey.toNat, state := 3 } :: List.replicate 31 {} }
  { banks := [{ ok := true, img := img }, {}], cur := img, slots := img.slots }

/-- The machine right after reset: PORESET_N released, the wake acted on and the frame die out of reset in Raise (R430, R479, R529), with every
register at its reset value. DESIGN CHOICE (log 2): the unit of grade Q2 with TWIN_ID low, instant 0, banks without supply, key store as it leaves
the factory. -/
def State.reset : State where
  mode := .raise
  ks := factoryKeys
  sill := { vsill := true, dieOn := true, enables := true, inh := true }

end Sys2Proof.Machine
end

