-- ==== Sys2Proof/Machine/Ops.lean ====
section
/-! DEFINITION. Machine/Ops.lean: the named operations over registers, memory, mortises, inputs and faults that every meaning uses. -/
namespace Sys2Proof.Machine
open Sys2Proof

/-! ### Registers -/

/-- Does `d` (an offset from a row's base) fall on one of the row's repeats? -/
def repHit : List (Nat × Nat) → Nat → Bool
  | [], d => d == 0
  | (n, st) :: rest, d => d / st < n && repHit rest (d % st)

/-- Registers whose reset value is not zero: (offset, repeats, value). -/
def resetTab : List (Nat × List (Nat × Nat) × Nat) := [
  (0x0, [], 0x12801b0),  -- GL_ID
  (0x4, [], 0x2),  -- GL_MODE
  (0x1000c, [], 0x8340000),  -- PW_BASE
  (0x1001c, [], 0x8700f0),  -- PW_TRIP
  (0x10028, [], 0x3),  -- PW_INTEN
  (0x30008, [], 0x1f),  -- FLT_INTEN
  (0x40000, [], 0x101),  -- EP_CTRL
  (0x40004, [], 0xff00),  -- EP_STATUS
  (0x40018, [], 0xf62100),  -- EP_TBCFG
  (0x4001c, [], 0x6403e8),  -- EP_HOLD
  (0x40028, [], 0x1cb60546),  -- EP_BUDGET
  (0x40030, [], 0x37b),  -- EP_INTEN
  (0x80058, [], 0xbcc),  -- FR_INTEN
  (0x10000c, [(128, 0x1000)], 0x2),  -- MZ_BANK
  (0x100014, [(128, 0x1000)], 0x3e),  -- MZ_INTEN
  (0x180004, [(12, 0x4000)], 0x7),  -- EB_MACCFG
  (0x18000c, [(12, 0x4000)], 0x5ee),  -- EB_RXCFG
  (0x180010, [(12, 0x4000)], 0x1),  -- EB_RXDEF
  (0x180020, [(12, 0x4000)], 0x3200030),  -- EB_PTPCFG
  (0x180034, [(12, 0x4000)], 0x333),  -- EB_INTEN
  (0x180100, [(12, 0x4000), (8, 0x4)], 0x3),  -- EB_RQ
  (0x180800, [], 0x5f),  -- EB_MDIO_CFG
  (0x200010, [], 0x3e4),  -- SG_INTEN
  (0x280014, [], 0x4bb),  -- TB_INTEN
  (0x28001c, [], 0x64),  -- TB_PSCFG
  (0x280028, [], 0xb14),  -- TB_PSBASE
  (0x300000, [], 0x1),  -- SC_CTRL
  (0x30000c, [], 0x3f1),  -- SC_INTEN
  (0x300070, [], 0x980),  -- SC_MBASE
  (0x301000, [(140, 0x400)], 0x1400),  -- SC_PCFG
  (0x380018, [], 0x9da),  -- KS_INTEN
  (0x3802e0, [(6, 0x4)], 0x100),  -- KS_TAMPCFG
  (0x390014, [], 0xbf),  -- CP_INTEN
  (0x3900b8, [], 0x981),  -- CP_FVBASE
  (0x3900bc, [], 0x982),  -- CP_PRBASE
  (0x40001c, [], 0xffb),  -- TW_INTEN
  (0x400030, [], 0x983),  -- TW_CBBASE
  (0x440008, [], 0x640),  -- WK_SLPCFG
  (0x440018, [], 0x708),  -- WK_MAXAW
  (0x44001c, [], 0x210000),  -- WK_WKCFG
  (0x44002c, [], 0x327)]  -- WK_INTEN

/-- The reset value of the register at an offset (R9: the first line beneath each heading). -/
def resetOf (a : Nat) : Nat :=
  match resetTab.find? (fun r => r.1 ≤ a && repHit r.2.1 (a - r.1)) with
  | some r => r.2.2
  | none => 0

/-- The stored word under `a`, if any. -/
def regFind : List (Nat × Word) → Nat → Option Word
  | [], _ => none
  | (b, w) :: rs, a => if b = a then some w else if a < b then none else regFind rs a

/-- The register list with `a` holding `w`; offsets stay strictly rising. -/
def regPut : List (Nat × Word) → Nat → Word → List (Nat × Word)
  | [], a, w => [(a, w)]
  | (b, v) :: rs, a, w =>
    if a = b then (a, w) :: rs else if a < b then (a, w) :: (b, v) :: rs else (b, v) :: regPut rs a w

/-- The value a register holds. -/
def State.rd (s : State) (a : Nat) : Word := (regFind s.regs a).getD (BitVec.ofNat 32 (resetOf a))

/-- The machine with register `a` holding `w`. -/
def State.wr (s : State) (a : Nat) (w : Word) : State := { s with regs := regPut s.regs a w }

/-- The register's value as a number. -/
def State.rdN (s : State) (a : Nat) : Nat := (s.rd a).toNat

/-- The machine with register `a` holding the low 32 bits of `n`. -/
def State.wrN (s : State) (a n : Nat) : State := s.wr a (BitVec.ofNat 32 n)

/-- A field of a register. -/
def State.fld (s : State) (a lo w : Nat) : Nat := bitsN (s.rdN a) lo w

/-- The machine with a field of a register replaced. -/
def State.setFld (s : State) (a lo w v : Nat) : State := s.wrN a (putN (s.rdN a) lo w v)

/-- A bit of a register. -/
def State.bit (s : State) (a k : Nat) : Bool := (s.rdN a).testBit k

/-- The machine with a bit of a register set or cleared. -/
def State.setBit (s : State) (a k : Nat) (b : Bool) : State := s.wrN a (putBit (s.rdN a) k b)

/-- The machine with event bits of a register set (a W1C bit set by the device, R11). -/
def State.evt (s : State) (a k : Nat) : State := s.wrN a (s.rdN a ||| 2 ^ k)

/-- The machine with a counter advanced; counters wrap from 0xFFFF_FFFF to 0. -/
def State.inc (s : State) (a : Nat) (n : Nat := 1) : State := s.wrN a (s.rdN a + n)

/-- The machine with a 48- or 64-bit value split over two registers. -/
def State.wr2 (s : State) (lo hi n : Nat) : State := (s.wrN lo (n % 2 ^ 32)).wrN hi (n / 2 ^ 32)

/-- A value split over two registers. -/
def State.rd2 (s : State) (lo hi : Nat) : Nat := s.rdN lo + 2 ^ 32 * s.rdN hi

/-! Covered updates (R76, R149): held until the processing of the epoch completes. -/

/-- Hold one covered update. -/
def State.hold (s : State) (u : Upd) : State := { s with held := s.held ++ [u] }

/-- A covered counter advances when the epoch's processing completes. -/
def State.cInc (s : State) (a : Nat) (n : Nat := 1) : State := s.hold (.add a n)

/-- A covered event bit is set when the epoch's processing completes. -/
def State.cEvt (s : State) (a k : Nat) : State := s.hold (.or a (2 ^ k))

/-- A covered status field changes when the epoch's processing completes. -/
def State.cPut (s : State) (a lo w v : Nat) : State := s.hold (.put a lo w v)

/-! ### The blocks -/

/-- The machine with its time base changed. -/
def State.onTb (s : State) (f : TimeBase → TimeBase) : State := { s with tb := f s.tb }

/-- The machine with its epoch engine changed. -/
def State.onEp (s : State) (f : EpochEng → EpochEng) : State := { s with ep := f s.ep }

/-- The machine with its frame loader changed. -/
def State.onFr (s : State) (f : Loader → Loader) : State := { s with fr := f s.fr }

/-- The machine with its fault manager changed. -/
def State.onFlt (s : State) (f : FaultMgr → FaultMgr) : State := { s with flt := f s.flt }

/-- The machine with its gateway changed. -/
def State.onGw (s : State) (f : Gateway → Gateway) : State := { s with gw := f s.gw }

/-- The machine with its table engine changed. -/
def State.onTab (s : State) (f : Tables → Tables) : State := { s with tab := f s.tab }

/-- The machine with its scheduler changed. -/
def State.onSch (s : State) (f : Sched → Sched) : State := { s with sch := f s.sch }

/-- The machine with its key store changed. -/
def State.onKs (s : State) (f : KeyStore → KeyStore) : State := { s with ks := f s.ks }

/-- The machine with its cipher engine changed. -/
def State.onCp (s : State) (f : Cipher → Cipher) : State := { s with cp := f s.cp }

/-- The machine with its twin unit changed. -/
def State.onTw (s : State) (f : Twin → Twin) : State := { s with tw := f s.tw }

/-- The machine with its sleep unit changed. -/
def State.onWk (s : State) (f : Wake → Wake) : State := { s with wk := f s.wk }

/-- The machine with its king post changed. -/
def State.onPw (s : State) (f : KingPost → KingPost) : State := { s with pw := f s.pw }

/-- The machine with its sill die changed. -/
def State.onSill (s : State) (f : SillDie → SillDie) : State := { s with sill := f s.sill }

/-- The machine with its bridge changed. -/
def State.onHb (s : State) (f : Bridge → Bridge) : State := { s with hb := f s.hb }

/-- The machine with its bus changed. -/
def State.onBus (s : State) (f : Bus → Bus) : State := { s with bus := f s.bus }

/-! ### The DRAM table space -/

/-- What an octet of the table space that nothing has written reads as. -/
def memDefault : Byte := 0

/-- The octet at an address. -/
def memFind : List Host.Cell → Nat → Byte
  | [], _ => memDefault
  | (b, v) :: rs, a => if b = a then v else if a < b then memDefault else memFind rs a

/-- The memory with one octet written; the canonical form is kept. -/
def memPut : List Host.Cell → Nat → Byte → List Host.Cell
  | [], a, v => if v = memDefault then [] else [(a, v)]
  | (b, w) :: rs, a, v =>
    if a = b then (if v = memDefault then rs else (a, v) :: rs)
    else if a < b then (if v = memDefault then (b, w) :: rs else (a, v) :: (b, w) :: rs)
    else (b, w) :: memPut rs a v

/-- Addresses rise strictly from `lo` on, and no entry equals the default. -/
def memWfFrom : Nat → List Host.Cell → Bool
  | _, [] => true
  | lo, (a, v) :: rs => decide (lo ≤ a) && (v != memDefault) && memWfFrom (a + 1) rs

/-- The canonical form of the memory. -/
def Memory.wf (m : List Host.Cell) : Bool := memWfFrom 0 m

/-- The memory with a run of octets written from an address. -/
def memPutAll (m : List Host.Cell) (a : Nat) : Octets → List Host.Cell
  | [] => m
  | v :: vs => memPutAll (memPut m a v) (a + 1) vs

/-- The octet of the table space at `a`. -/
def State.memB (s : State) (a : Nat) : Byte := memFind s.mem a

/-- `n` octets of the table space from `a`. -/
def State.memO (s : State) (a n : Nat) : Octets := (List.range n).map (fun i => s.memB (a + i))

/-- A little-endian number of `n` octets at `a`. -/
def State.memN (s : State) (a n : Nat) : Nat := leNat (s.memO a n)

/-- The machine with octets written to the table space. -/
def State.memW (s : State) (a : Nat) (v : Octets) : State := { s with mem := memPutAll s.mem a v }

/-- The machine with a little-endian number of `n` octets written to the table space. -/
def State.memWN (s : State) (a n v : Nat) : State := s.memW a (natLE n v)

/-- Indices of the units of `size` octets in `[base, stop)` that hold anything but zeros, in ascending order. -/
def State.memIdx (s : State) (base stop size : Nat) : List Nat :=
  ((s.mem.filter (fun c => decide (base ≤ c.1) && decide (c.1 < stop))).map (fun c => (c.1 - base) / size)).dedup

/-- The table space with `[lo, hi)` zero. -/
def State.memClear (s : State) (lo hi : Nat) : State := { s with mem := s.mem.filter (fun c => decide (c.1 < lo) || decide (hi ≤ c.1)) }

/-! ### Time, modes and units -/

/-- The code of a mode, as GL_MODE, the statement (R400) and the tamper log show it. -/
def modeCode : Mode → Nat
  | .off => 0
  | .sill => 0
  | .watch => 1
  | .raise => 2
  | .solo => 3
  | .lead => 4
  | .shadow => 5
  | .hold => 6
  | .bench => 7

/-- Is the device raised out of Sill and Watch into a mode whose commands act at once (R549)? -/
def State.atOnce (s : State) : Bool := s.mode == .raise || s.mode == .bench

/-- An access violation (R508): FLT_VIOL counts it and saturates. -/
def State.violation (s : State) : State := s.wrN FLT_VIOL (min 0xFFFFFFFF (s.rdN FLT_VIOL + 1))

/-- An event at instant `t`: the time base never runs backwards (R38). -/
def State.tick (s : State) (t : Nat) : State := { s with now := max s.now t }

/-- The epoch length E in ns (R47). -/
def State.elen (s : State) : Nat := 4000 * 2 ^ s.fld EP_CTRL 0 2

/-- The start of epoch `n` on the time base: of an epoch begun, when it began; of a later one, its multiple of E after the end of the epoch being
stamped, which a realignment may have moved (R45, R48). -/
def State.epochStart (s : State) (n : Nat) : Nat :=
  match s.ep.cur with
  | none => s.ep.start + n * s.elen
  | some c =>
    if c < n then s.ep.stop + (n - c - 1) * s.elen
    else if n = c then s.ep.start
    else (assoc s.ep.starts n).getD (s.ep.start - (c - n) * s.elen)

/-- The epoch that contains the present instant (R50): one that falls on or after the end of the epoch begun last lies in a later epoch. -/
def State.epochNow (s : State) : Option Nat :=
  s.ep.cur.map (fun c => if s.now < s.ep.stop then c else c + 1 + (s.now - s.ep.stop) / s.elen)

/-- The epoch being stamped, 0xFFFF_FFFF_FFFF when none is (R463). -/
def State.stampEp (s : State) : Nat := s.epochNow.getD 0xFFFFFFFFFFFF

/-- Paired modes are Lead and Shadow. -/
def State.paired (s : State) : Bool := s.mode == .lead || s.mode == .shadow

/-- The modes in which epochs are stamped and processed (R27, R549). -/
def State.serving (s : State) : Bool :=
  (s.mode == .solo || s.mode == .lead || s.mode == .shadow || s.mode == .hold) && s.ep.cur.isSome

/-- Is the frame die running? -/
def State.dieOn (s : State) : Bool := s.sill.dieOn

/-- The mortise `m`. -/
def State.mort (s : State) (m : Nat) : Mortise := nth s.mz m

/-- The machine with mortise `m` changed. -/
def State.onMort (s : State) (m : Nat) (f : Mortise → Mortise) : State := { s with mz := updAt s.mz m f }

/-- The bay `b`. -/
def State.bay (s : State) (b : Nat) : Bay := nth s.bays b

/-- The machine with bay `b` changed. -/
def State.onBay (s : State) (b : Nat) (f : Bay → Bay) : State := { s with bays := updAt s.bays b f }

/-- Pair identity (R430). -/
def State.pid (s : State) : Nat := b2n s.tw.pairId

/-- The right to drive CAN, LIN and T1S egress (R137, R34); the fence timer takes CAN and LIN pins whatever this says (R138). -/
def State.mayDrive (s : State) : Bool :=
  match s.mode with
  | .solo => true
  | .lead => s.tw.lease
  | .hold => s.tw.holdDrive
  | _ => false

/-- Does mortise `m`'s tenon drive its output pins (R137)? -/
def State.drives (s : State) (m : Nat) : Bool :=
  s.mayDrive && s.tw.driving && (s.mort m).pins == .tenon

/-- A free value of `w` bits: an opaque function of a counter that every taking advances. -/
def State.fresh (s : State) (w : Nat) : Nat × State :=
  ((Config.freeValue s.free).toNat % 2 ^ w, { s with free := s.free + 1 })

/-- Does a write to the tenon area stamped in epoch `c` fall between the G and the A of a re-tenoning (R144)? -/
def Mortise.shut (x : Mortise) (c : Nat) : Bool := x.window.any (fun g => decide (g.1 ≤ c) && decide (c < g.2))

/-- A unit that does not drive keeps TEC at zero (R189): its CAN tenons' own state then follows REC alone. -/
def State.tecZero (s : State) : State :=
  (List.range 128).foldl (fun s m =>
    if (s.mort m).tenon == .can && (s.fld (CN_ERRC m) 0 9 != 0 || s.fld (CN_STATUS m) 8 2 == 2) then
      let rec_ := s.fld (CN_ERRC m) 16 8
      ((s.setFld (CN_ERRC m) 0 9 0).setFld (CN_STATUS m) 8 2 (if 128 ≤ rec_ then 1 else 0)).setBit (CN_STATUS m) 10 (decide (96 ≤ rec_))
    else s) s

/-- A mortise whose pins a tenon used has them back in PIDLE (R132). -/
def Mortise.idlePins (x : Mortise) : Mortise := { x with pins := if x.pins == .tenon then .pidle else x.pins }

/-! ### Bents -/

/-- The index of a bent code of R89 among the thirteen bents, in bent code order. -/
def bentIdx (code : Nat) : Option Nat :=
  if code < 8 then some code else if 0x10 ≤ code ∧ code ≤ 0x14 then some (code - 0x10 + 8) else none

/-- The bent code of an index. -/
def bentCode (i : Nat) : Nat := if i < 8 then i else i - 8 + 0x10

/-- Index of TB0. -/
abbrev TB0 : Nat := 8
/-- Index of SB0. -/
abbrev SB0 : Nat := 9
/-- Index of KB0. -/
abbrev KB0 : Nat := 10
/-- Index of GB0. -/
abbrev GB0 : Nat := 11
/-- Index of PB0. -/
abbrev PB0 : Nat := 12

/-- The state of a bent. -/
def State.bent (s : State) (i : Nat) : BentSt := s.fr.bents.getD i .absent

/-- Is a bent in service? -/
def State.bentUp (s : State) (i : Nat) : Bool := s.bent i == .inService

/-- The machine with a bent's state changed. -/
def State.setBent (s : State) (i : Nat) (b : BentSt) : State := { s with fr := { s.fr with bents := s.fr.bents.set i b } }

/-- Does bent `i` drop the inputs of epoch `n` routed to it, being isolated since then or before (R37)? -/
def State.gone (s : State) (i n : Nat) : Bool := s.bent i == .isolated && decide ((assoc s.fr.isoEp i).getD 0 ≤ n)

/-- Does bent `i` serve the inputs of epoch `n`: in service, or isolated only after it (R37)? -/
def State.serves (s : State) (i n : Nat) : Bool := s.bentUp i || (s.bent i == .isolated && !s.gone i n)

/-- An input or frame dropped by an isolated bent is counted (R37). -/
def State.isoLoss (s : State) : State := s.onFr (fun f => { f with isoDrop := f.isoDrop + 1 })

/-! ### The guarantee (R85, R86) -/

/-- The guarantee is lost from epoch `e`: GUAR cleared, GUARLOSS set, the first epoch without it recorded. -/
def State.loseGuar (s : State) (e : Nat) : State :=
  if s.ep.guar then { s with ep := { s.ep with guar := false, lossEp := e } }.evt EP_EVENT 9 else s

/-- Does the guarantee hold for epoch `n` (R85, R86): from the epoch in which it began, up to the first epoch of the loss? -/
def State.guarOf (s : State) (n : Nat) : Bool := s.ep.cur.isSome && decide (s.ep.guarFrom ≤ n) && (s.ep.guar || decide (n < s.ep.lossEp))

/-- The epoch now being processed, or the one released last when none is; for EP_STATUS.GUAR (R85). -/
def State.procEp (s : State) : Nat := s.ep.running.getD (s.ep.rel.getD (s.ep.cur.getD 0))

/-! ### Faults (R35 to R37, R463 to R466, R552) -/

/-- The four words of a fault record: cause, source, unit, class, epoch and time (R463). -/
def faultWords (cls cause src unit ep ts : Nat) : Nat × Nat × Nat × Nat :=
  (cause + src * 2 ^ 8 + unit * 2 ^ 16 + 2 ^ 24 + cls * 2 ^ 25, ep % 2 ^ 32, ep / 2 ^ 32, ts % 2 ^ 32)

/-- The scheduler queues of a port dropped; the number of frames dropped comes with the machine. -/
def State.flushPort (s : State) (p : Nat) : Nat × State :=
  let qs := s.sch.queues.filter (fun q => q.1 / 8 == p)
  ((qs.map (fun q => q.2.frames.length)).sum,
   s.onSch (fun c => { c with queues := c.queues.map (fun q => if q.1 / 8 == p then (q.1, { q.2 with frames := [], depth := 0 }) else q) }))

/-- A covered event bit caused by epoch `n` is set when the processing of that epoch completes (R149), or at once where no epoch is stamped. -/
def State.evtOf (s : State) (n a k : Nat) : State :=
  if s.ep.cur.isNone || s.ep.done.any (fun d => n ≤ d) then s.evt a k else s.onEp (fun e => { e with due := e.due ++ [(n, .or a (2 ^ k))] })

/-- Does a LIN buffer hold a frame that no decision has chosen yet? -/
def LinBuf.waiting (b : LinBuf) : Bool := b.pending && b.frames.getLast? != b.sent

/-- Frames a tenon holds that no transmission has ended for: CAN objects' active and next slots, LIN responses not yet sent, T1S queue entries. -/
def Mortise.unsent (x : Mortise) : Nat :=
  (x.can.objs.filter (fun o => o.active.isSome && !o.sent && !o.spent)).length + (x.can.objs.filter (fun o => o.nxt.isSome)).length +
  (x.lin.bufs.filter LinBuf.waiting).length + (x.t1s.queue.filter (fun q => !q.2.1)).length

/-- Isolate a bent (R37, R132, R141): its queues are flushed and counted, its mortises' pins take their idle states. -/
def State.isolateBent (s : State) (i : Nat) : State :=
  let s := (s.setBent i .isolated).onFr (fun f => { f with isoEp := assocPut f.isoEp i s.stampEp })
  let s := { s with flt := { s.flt with f2Iso := s.flt.f2Iso ++ [i] } }
  if i < 8 then
    (List.range 16).foldl (fun s j =>
      let m := 16 * i + j
      let (n, s) := s.flushPort m
      let s := { s with fr := { s.fr with isoFlush := s.fr.isoFlush + n + (s.mort m).unsent } }
      (s.onMort m (fun x => { x with
          pins := if x.pins == .tenon then .pidle else x.pins
          can := { x.can with objs := List.replicate 32 {}, wire := none }
          lin := { x.lin with bufs := List.replicate 64 {}, sending := none, hdr := none }
          t1s := { x.t1s with queue := [], burst := 0 } })).evtOf s.stampEp (MZ_EVENT m) 5) s
  else if i == SB0 then
    (List.range 140).foldl (fun s p => let (n, s) := s.flushPort p; s.onFr (fun f => { f with isoFlush := f.isoFlush + n })) s
  else s

/-- The machine with the generation purge of the tables named begun (R118); a purge of the other table runs on. -/
def State.beginPurge (s : State) (p : Purge) (t g : Bool) : State :=
  (s.onFr (fun f => { f with purgeT := if t then p else f.purgeT, purgeG := if g then p else f.purgeG })).setBit FR_STATUS 6 true

/-- A swap whose epoch has begun on the wire is taken back: the mortises under way load their own descriptors again at their resume epochs, and the bents
that came back are isolated again. DESIGN CHOICE (log 22): a disarm stamped before G and processed after G began. -/
def State.unswap (s : State) : State :=
  if !s.fr.switched then s else
  let back := s.fr.back
  { s with
    fr := { s.fr with switched := false, back := [], bents := (List.range 13).map (fun i => if back.contains i then .isolated else s.bent i) }
    mz := s.mz.map (fun x => if x.newDesc.isSome then { x with newDesc := some x.desc } else x) }

/-- A delta armed before is given up: its staging is discarded and the reverse purge of what it wrote begins (R105, R118). -/
def State.dropDelta (s : State) : State :=
  let s := s.unswap
  ((s.onFr (fun f => { f with swapAt := none, delta := none, checking := false, wroteT := false, wroteG := false })).setBit FR_STATUS 5 false).beginPurge
    .reverse s.fr.wroteT s.fr.wroteG

/-- A swap scheduled for an epoch that has not begun is cancelled by an F3 or F4: staging discarded, CANCEL set (R107). -/
def State.cancelSwap (s : State) : State :=
  if s.fr.swapAt.isSome && !s.fr.switched then s.dropDelta.evt FR_EVENT 9 else s

/-- A Shadow leaves step, and a catch-up under way ends (R36, R69, R461). -/
def State.leaveStep (s : State) : State :=
  if s.mode == .shadow then s.onTw (fun w => { w with inStep := false, catchUp := 0 }) else s

/-- The twin without the lease leaves step, and its results carry no guarantee from epoch `e` on (R69, R85). -/
def State.leaveGuar (s : State) (e : Nat) : State := if s.mode == .shadow then s.leaveStep.loseGuar e else s

/-- The Lead gives the lease up by itself (R446, R451): it stops renewing, forces its pins to PIDLE, stops Ethernet egress and becomes a
Shadow out of step at the next epoch boundary (R29). -/
def State.selfFence (s : State) : State :=
  let s : State := { s with mz := s.mz.map Mortise.idlePins }
  let s := s.onTw (fun w => { w with
    lease := false, nopeer := false, expiry := 0, fenceAt := none, inStep := false, peerInStep := false, driving := false,
    catchUp := 0, admitted := false, joinAt := none, egressOff := true, exLead := true, demote := true })
  (s.tecZero.evt TW_EVENT 4).inc (TW_CNT 3)

/-- What an F2, F3 or F4 does beside its record (R35); DESIGN CHOICE (log 26): an F3 in Bench, whose table of R30 leads to no Hold, is recorded and its
handler stays active, and the unit stays in Bench. An F2 isolates the bent its SRC names and takes a paired unit out of step; an F3
asks for Hold at the next epoch and ends the guarantee; a Lead with a Shadow in step fences itself under either (R451); an F4 asks for the reset of the frame die. F3 and F4 cancel a swap (R107). -/
def State.faultResult (s : State) (cls src : Nat) : State :=
  let lead := s.mode == .lead && s.tw.peerInStep
  if cls == 2 then
    let s := { s with flt := { s.flt with f2At := s.now, f2Iso := [] } }
    let s := match bentIdx src with
      | some i => s.isolateBent i
      | none => s
    if lead then s.selfFence else s.leaveStep
  else if cls == 3 then
    let s := s.cancelSwap
    let s := s.loseGuar s.stampEp
    match s.mode with
    | .solo | .lead | .shadow =>
      let s := { s with flt := { s.flt with holdAt := some (s.stampEp + 1) } }
      if lead then s.selfFence.onTw (fun w => { w with demote := false }) else s
    | .raise => { s with flt := { s.flt with holdAt := some 0 } }
    | _ => s
  else if cls == 4 then { (s.cancelSwap.loseGuar s.stampEp) with flt := { s.flt with f4 := true } }
  else s

/-- Record one fault raised while epoch `ep` was stamped, at instant `ts` (R464): the second-fault record while a handler of its class or above is active,
else the first-fault record, the handler, the interrupt pending bit and the result of the class. -/
def State.recordAt (s : State) (cls cause src unit ep ts : Nat) : State :=
  let s := s.inc (FLT_CNT cls)
  let (w0, w1, w2, w3) := faultWords cls cause src unit ep ts
  if s.fld FLT_STATUS 0 5 >>> cls ≠ 0 then
    let n := s.fld FLT_STATUS 16 16
    let s := s.setFld FLT_STATUS 16 16 (min 0xFFFF (n + 1))
    if s.bit FLT_SF_W0 24 then s
    else (((s.wrN FLT_SF_W0 w0).wrN FLT_SF_W1 w1).wrN FLT_SF_W2 w2).wrN FLT_SF_W3 w3
  else
    let s := (((s.wrN (FLT_FF_W0 cls) w0).wrN (FLT_FF_W1 cls) w1).wrN (FLT_FF_W2 cls) w2).wrN (FLT_FF_W3 cls) w3
    ((s.setBit FLT_STATUS cls true).setBit FLT_STATUS (6 + cls) true).faultResult cls src

/-- Record one fault raised now. -/
def State.recordFault (s : State) (cls cause src unit : Nat) : State := s.recordAt cls cause src unit s.stampEp s.now

/-- Raise a fault with the escalations of R465: an F2 during F2 handling brings an F3 with cause 0x38, an F3 during F3 handling an F4
with cause 0x41; each is recorded on its own, with the source of the fault it came from. -/
def State.raiseFault (s : State) (cls cause src unit : Nat) : State :=
  let act := s.fld FLT_STATUS 0 5
  let s' := s.recordFault cls cause src unit
  if cls == 2 && act.testBit 2 && !act.testBit 3 && !act.testBit 4 then s'.recordFault 3 0x38 src unit
  else if cls == 3 && act.testBit 3 then s'.recordFault 4 0x41 src unit
  else s'

/-- An F0 notice. -/
def State.notice (s : State) (cause : Nat) (src : Nat := 0xFF) (unit : Nat := 0xFF) : State := s.raiseFault 0 cause src unit

/-- An F0 notice of the processing of an epoch: its record is covered, so it waits for completion (R76), with the epoch being stamped now (R463). -/
def State.cNotice (s : State) (cause : Nat) (src : Nat := 0xFF) (unit : Nat := 0xFF) : State := s.hold (.note cause src unit s.stampEp s.now)

/-- Apply one covered update. -/
def State.applyUpd (s : State) : Upd → State
  | .add a n => s.inc a n
  | .or a m => s.wrN a (s.rdN a ||| m)
  | .put a lo w v => s.setFld a lo w v
  | .note cause src unit ep ts => s.recordAt 0 cause src unit ep ts

/-- Apply every held update in order. -/
def State.applyHeld (s : State) : State := { s.held.foldl State.applyUpd s with held := [] }

/-- Apply the covered updates that the epochs up to `n` caused (R149). -/
def State.applyDue (s : State) (n : Nat) : State :=
  ((s.ep.due.filter (fun d => decide (d.1 ≤ n))).map (·.2)).foldl State.applyUpd
    (s.onEp (fun e => { e with due := e.due.filter (fun d => decide (n < d.1)) }))

/-! ### Stamping (R50 to R56) -/

/-- The arrival position next on a (class, port), with the machine that has used it. -/
def State.takePos (s : State) (cls port : Nat) : Nat × State :=
  let k := cls * 256 + port
  let p := (assoc s.ep.pos k).getD 0
  (p, { s with ep := { s.ep with pos := assocPut s.ep.pos k (p + 1) } })

/-- Stamp an input at the present instant (R50, R54, R55): it waits for its hand-over; with no epoch being stamped it is discarded and
counted in EP_CNT1. ORIGIN of a host input is the pair identity, 0 in Solo. -/
def State.stampIn (s : State) (i : Input) : State :=
  match s.epochNow with
  | none => s.inc (EP_CNT 1)
  | some e =>
    let (p, s) := s.takePos i.cls i.port
    let org := if (i.cls == 0 || i.cls == 3) && s.mode != .solo then s.pid else 0
    { s with ep := { s.ep with handing := s.ep.handing ++ [{ i with stamp := e, inst := s.now, pos := p, origin := org, inEp := e }] } }

/-- Stamp a port event of a mortise: a 16-octet record (R53, R139). -/
def State.stampEvent (s : State) (m : Nat) (rec : Octets) : State :=
  s.stampIn { cls := 2, port := m, kind := .event, octets := padTo 16 rec }

/-- Stamp a port event of a bay: a 24-octet record (R260). -/
def State.stampBayEvent (s : State) (b : Nat) (rec : Octets) : State :=
  s.stampIn { cls := 1, port := b, kind := .event, octets := padTo 24 rec }

/-! ### Host records (R146, R253, R518) -/

/-- A receive ring of an enabled port has room when it is in use, HEAD differs from TAIL and the record fits the next descriptor's BUFLEN; a descriptor whose
BUFLEN no RING_TAIL_WRITE gave holds the greatest, 16,384 octets. -/
def State.ringRoom (s : State) (r len : Nat) : Bool :=
  s.bit HB_PORTCFG (2 * (r / 4)) && s.bit (HB_RXR_CTL r) 0 && decide (16 ≤ s.fld (HB_RXR_SIZE r) 0 13) &&
  s.fld (HB_RXR_HEAD r) 0 12 != s.fld (HB_RXR_TAIL r) 0 12 &&
  decide (len ≤ (nth s.hb.bufs r).headD 16384)

/-- Write a record to a receive ring (R518): LEN and DONE go to the host with it, HEAD advances; the answer says whether there was room. -/
def State.ringPut (s : State) (r : Nat) (rec : Octets) : Bool × State :=
  if s.ringRoom r rec.length then
    let size := max 1 (s.fld (HB_RXR_SIZE r) 0 13)
    let head := (s.fld (HB_RXR_HEAD r) 0 12 + 1) % size
    let s := s.onHb (fun h => { h with
      rxOut := h.rxOut ++ [(r, rec)]
      rxDue := if h.rxDue.contains r then h.rxDue else h.rxDue ++ [r]
      bufs := updAt h.bufs r (fun l => l.drop 1) })
    (true, (s.setFld (HB_RXR_HEAD r) 0 12 head).inc (HB_CNT 3))
  else (false, s)

end Sys2Proof.Machine
end

