-- ==== Sys2Proof/Machine/Bays.lean ====
section
/-! DEFINITION. Machine/Bays.lean: the Ethernet bays (R240 to R264): receive stages, link, flow control, receive filters, host records,
wake patterns, the MAC's side of egress, and the MDIO master. -/
namespace Sys2Proof.Machine
open Sys2Proof

/-! ### Reading an Ethernet frame -/

/-- Is the 16-bit word at `off` a VLAN TPID (R244)? -/
def isTpid (f : Octets) (off : Nat) : Bool := beAt f off 2 == 0x8100 || beAt f off 2 == 0x88A8

/-- VLAN tags that lead the frame, at most two counted (R244). -/
def ethTags (f : Octets) : Nat := if isTpid f 12 then (if isTpid f 16 then 2 else 1) else 0

/-- Does an R-tag follow them (R244)? -/
def ethRtag (f : Octets) : Bool := beAt f (12 + 4 * ethTags f) 2 == 0xF1C1

/-- Offset of the EtherType after the tags (R250). -/
def ethTypeOff (f : Octets) : Nat := 12 + 4 * ethTags f + (if ethRtag f then 6 else 0)

/-- The frame's EtherType (R250). -/
def ethType (f : Octets) : Nat := beAt f (ethTypeOff f) 2

/-- The frame of a bay record: the octets after its 4-octet head (R246). -/
def recFrame (r : Octets) : Octets := slice r 4 (leAt r 0 2)

/-- The bay record of a frame with its FLAGS (R246). -/
def bayRecord (f : Octets) (flags : Nat) : Octets := natLE 2 f.length ++ [BitVec.ofNat 8 flags, 0] ++ f

/-- The length limit of a frame at bay `b`: MAXU + 4 v + 6 r, capped at 9,216 (R244). -/
def State.ethLimit (s : State) (b : Nat) (f : Octets) : Nat :=
  min 9216 (s.fld (EB_RXCFG b) 0 14 + 4 * ethTags f + (if ethRtag f then 6 else 0))

/-- VID, PCP and drop eligibility of the outer tag; an untagged frame takes PVID and PPCP (R250). -/
def State.ethVlan (s : State) (b : Nat) (f : Octets) : Nat × Nat × Bool :=
  if isTpid f 12 then
    let t := beAt f 14 2
    (bitsN t 0 12, bitsN t 13 3, t.testBit 12)
  else (s.fld (EB_RXDEF b) 0 12, s.fld (EB_RXDEF b) 12 3, false)

/-! ### Host records -/

/-- The header and padding of a host-copy record (R146). -/
def hostRecord (epoch mort kind rank ts : Nat) (payload : Octets) : Octets :=
  natLE 6 epoch ++ [BitVec.ofNat 8 mort, BitVec.ofNat 8 kind] ++ natLE 2 rank ++ natLE 2 payload.length ++ natLE 4 ts ++ payload ++
    List.replicate ((8 - payload.length % 8) % 8) 0

/-- Write a host record of a bay: a full ring drops it, counted in EB_CNT12 (R253). -/
def State.bayHost (s : State) (b ring epoch rank ts : Nat) (guar : Bool) (payload : Octets) : State :=
  let (ok, s') := s.ringPut ring (hostRecord epoch (0x80 + b) (8 + 64 * b2n guar) rank ts payload)
  if ok then s' else (s'.inc (EB_CNT b 12)).evt (EB_EVENT b) 8

/-! ### Speeds and the wire pause -/

/-- A bit time in ps at a speed code of R260. -/
def bitPs (speed : Nat) : Nat :=
  match speed with
  | 0 => 100000 | 1 => 10000 | 2 => 1000 | 3 => 400 | 4 => 200 | _ => 100

/-- Is a class of a bay paused on the wire at `ps`? -/
def Bay.paused (x : Bay) (c ps : Nat) : Bool := decide (ps < x.pauseAll) || decide (ps < x.pfc.getD c 0)

/-- The wire pause as EB_STATUS shows it. -/
def State.showPause (s : State) (b : Nat) : State :=
  let x := s.bay b
  let ps := s.now * 1000
  let s := s.setBit (EB_STATUS b) 7 (ps < x.pauseAll)
  (List.range 8).foldl (fun s c => s.setBit (EB_STATUS b) (8 + c) (ps < (s.bay b).pfc.getD c 0)) s

/-- One pause count: from the later of receipt and the end of the frame in transmission, or from receipt when a pause is in force (R257). -/
def pauseEnd (now wireEnd old quanta bit : Nat) : Nat :=
  if quanta = 0 then now else (if now < old then now else max now wireEnd) + quanta * 512 * bit

/-- The wire effects of a PAUSE (code 3) or priority flow control frame (code 4) (R257). A PAUSE with TIME 0 ends every pause. -/
def State.wirePause (s : State) (b code classes : Nat) (times : List Nat) : State :=
  let x := s.bay b
  let ps := s.now * 1000
  let bit := bitPs x.speed
  let s :=
    if code == 3 then
      if times.getD 0 0 = 0 then s.onBay b (fun x => { x with pauseAll := ps, pfc := List.replicate 8 ps })
      else s.onBay b (fun x => { x with pauseAll := pauseEnd ps x.wireEnd x.pauseAll (times.getD 0 0) bit })
    else s.onBay b (fun x => { x with pfc := (List.range 8).map (fun c =>
      if classes.testBit c then pauseEnd ps x.wireEnd (x.pfc.getD c 0) (times.getD c 0) bit else x.pfc.getD c 0) })
  s.showPause b

/-! ### Receive path -/

/-- The record of a bay port event (R260). -/
def State.bayEvent (s : State) (b code classes : Nat) (times : List Nat) : Octets :=
  let x := s.bay b
  let pid := if s.mode == .solo then 0 else s.pid
  [BitVec.ofNat 8 code, BitVec.ofNat 8 pid, BitVec.ofNat 8 (b2n x.up + 2 * x.speed), BitVec.ofNat 8 classes, 0, 0, 0, 0] ++
    times.flatMap (natLE 2)

/-- Is a frame a valid MAC Control frame (R256)? -/
def State.isMacControl (s : State) (b : Nat) (f : Octets) : Bool :=
  let own := natLE 4 (s.rdN (EB_MACADDR_L b)) ++ natLE 2 (s.fld (EB_MACADDR_H b) 0 16)
  beAt f 12 2 == 0x8808 && (beAt f 0 6 == 0x0180C2000001 || f.take 6 == own)

/-- Stage 2: PAUSE and priority flow control act and are stamped; any other MAC Control frame is counted (R256 to R258). -/
def State.macControl (s : State) (b : Nat) (f : Octets) : State :=
  let op := beAt f 14 2
  let act := fun (code classes : Nat) (times : List Nat) =>
    (s.stampBayEvent b (s.bayEvent b code classes times)).wirePause b code classes times
  if op == 0x0001 && s.bit (EB_FCCFG b) 0 then act 3 0xFF (List.replicate 8 (beAt f 16 2))
  else if op == 0x0101 && s.bit (EB_FCCFG b) 1 then act 4 (oct f 17) ((List.range 8).map (fun c => beAt f (18 + 2 * c) 2))
  else s.inc (EB_CNT b 7)

/-- The selected octets of wake pattern `k`, when the frame is long enough and the mask is not zero (R261). -/
def State.wakeOctets (s : State) (b k : Nat) (f : Octets) : Option Octets :=
  let mask := (List.range 4).foldl (fun a j => a + s.rdN (EB_WP_M b k j) * 2 ^ (32 * j)) 0
  let sel := (List.range 128).filter (fun i => mask.testBit i)
  match sel.getLast? with
  | none => none
  | some top => if f.length < top + 1 then none else some (sel.map (fun i => f.getD i 0))

/-- The lowest-numbered enabled pattern a frame matches (R261, R262). -/
def State.wakeMatch (s : State) (b : Nat) (f : Octets) : Option Nat :=
  (List.range 8).find? (fun k => s.bit (EB_WP_CTL b k) 16 &&
    match s.wakeOctets b k f with
    | some l => crc16 l == s.fld (EB_WP_CTL b k) 0 16
    | none => false)

/-- Stage 5: the frame is stamped and handed over (R243). -/
def State.bayStamp (s : State) (b : Nat) (f : Octets) (flags : Nat) : State :=
  s.stampIn { cls := 1, port := b, kind := .frame, octets := bayRecord f flags, bad := flags != 0 }

/-- Stage 4 in Raise, Bench and Hold (R262): no pattern discards; HOST delivers; HOLDIN in Hold lets the frame on. -/
def State.wakeFilter (s : State) (b : Nat) (f : Octets) : State :=
  match s.wakeMatch b f with
  | none => s.inc (EB_CNT b 6)
  | some k =>
    let s := (s.setFld (EB_STATUS b) 16 3 k).evt (EB_EVENT b) 5
    let hold := s.mode == .hold
    let ctl := EB_WP_CTL b k
    let s :=
      if s.bit ctl 18 then
        s.bayHost b (s.fld ctl 20 4) (if hold then s.ep.cur.getD 0 else 0) 0 s.now (hold && s.guarOf s.procEp) (bayRecord f 0)
      else s
    if hold && s.bit ctl 17 then s.bayStamp b f 0 else s

/-- R243 to R262. A bay receives a frame: bad frames are counted and dropped, or delivered flagged where BADDEL asks; MAC Control frames and
epoch-domain gPTP messages are consumed; Raise, Bench and Hold filter by wake pattern; the rest is stamped. -/
def bayFrameReceived (t b : Nat) (f : Octets) (fcsErr codeErr : Bool) (s : State) : State :=
  let s := s.tick t
  if !s.dieOn || 12 ≤ b || s.fld (EB_MACCFG b) 0 3 == 7 then s else
  let lim := s.ethLimit b f
  let runt := f.length < 64
  let ovr := lim < f.length
  if fcsErr || codeErr || runt || ovr then
    let s := (s.inc (EB_CNT b (if fcsErr || codeErr then 3 else if runt then 4 else 5))).evt (EB_EVENT b) 6
    if (s.mode == .solo || s.paired) && s.bit (EB_RXCFG b) 14 && 18 ≤ f.length then
      s.bayStamp b (f.take lim) (b2n fcsErr + 2 * b2n runt + 4 * b2n ovr + 8 * b2n codeErr)
    else s
  else
    let s := s.inc (EB_CNT b 2)
    if s.isMacControl b f then s.macControl b f
    else if s.bit (EB_PTPCFG b) 0 && ethType f == 0x88F7 then s
    else if s.mode == .raise || s.mode == .bench || s.mode == .hold then s.wakeFilter b f
    else s.bayStamp b f 0

/-- R257. The time of a pause has passed: the status shows the classes that may start again. -/
def pauseExpiry (t b : Nat) (s : State) : State :=
  let s := s.tick t
  if s.dieOn && b < 12 then s.showPause b else s

/-- The speed code at which the link of a bay can come up (R240): that of its mode; else the one announced in band or FSPEED, where the mode has it. None
with the SerDes off, with no word yet, and after a half-duplex word (R241). -/
def State.bayRate (s : State) (b : Nat) : Option Nat :=
  let said := if s.bit (EB_MACCFG b) 4 then (s.bay b).an else some (s.fld (EB_MACCFG b) 5 3)
  let rate := match s.fld (EB_MACCFG b) 0 3 with
    | 0 => said.filter (fun v => decide (v ≤ 2))
    | 1 => some 3
    | 2 => said.filter (fun v => decide (v ≤ 5))
    | 3 => some 5
    | _ => none
  if s.bit (EB_STATUS b) 4 then none else rate

/-- The link of a bay goes down or comes up at this instant: what is on the wire and what waits in the MAC of a link that goes down is lost, counted in
EB_CNT11 (R242). -/
def State.bayLink (s : State) (b : Nat) (up : Bool) : State :=
  let x := s.bay b
  if up == x.phy then s
  else if up then s.onBay b (fun x => { x with phy := true, since := s.now, speed := (s.bayRate b).getD 0 })
  else
    let lost := x.wire.isSome && decide (s.now * 1000 < x.wireEnd)
    let s := if lost then (s.inc (EB_CNT b 11)).wrN (EB_CNT b 10) (s.rdN (EB_CNT b 10) + (2 ^ 32 - 1)) else s
    (s.inc (EB_CNT b 11) x.fifo.length).onBay b (fun x => { x with phy := false, since := s.now, fifo := [], wire := if lost then none else x.wire })

/-- R242. The link of a bay goes down or, where its mode has a speed for it (R240, R241), comes up; `held`: the state has held for 1 ms without a break,
and a change is reported as event 0x01 or 0x02. -/
def linkChange (t b : Nat) (up held : Bool) (s : State) : State :=
  let s := s.tick t
  if !s.dieOn || 12 ≤ b then s
  else if !held then s.bayLink b (up && (s.bayRate b).isSome)
  else
    let x := s.bay b
    if up != x.phy || x.phy == x.up || t < x.since + 1000000 then s else
    let s := ((s.onBay b (fun x => { x with up := x.phy })).setBit (EB_STATUS b) 0 x.phy).setFld (EB_STATUS b) 1 3 x.speed
    s.stampBayEvent b (s.bayEvent b (if x.phy then 1 else 2) 0 (List.replicate 8 0))

/-- R241. An in-band auto-negotiation word: half duplex keeps the link down and is flagged; full duplex gives the speed. -/
def autonegWordReceived (b : Nat) (half : Bool) (speed : Nat) (s : State) : State :=
  if !s.dieOn || 12 ≤ b || !s.bit (EB_MACCFG b) 4 || (s.fld (EB_MACCFG b) 0 3 != 0 && s.fld (EB_MACCFG b) 0 3 != 2) then s
  else if half then ((s.onBay b (fun x => { x with an := none })).setBit (EB_STATUS b) 4 true).evt (EB_EVENT b) 4
  else (s.onBay b (fun x => { x with an := some (speed % 8) })).setBit (EB_STATUS b) 4 false

/-! ### The MDIO master -/

/-- R264. A write of EB_MDIO_CMD starts one frame; while BUSY, or with a clause 22 operation that does not exist, it is rejected. -/
def State.mdioStart (s : State) (val : Word) : State :=
  let v := val.toNat
  let op := bitsN v 26 2
  let c45 := v.testBit 28
  if s.bit EB_MDIO_STAT 16 || (!c45 && (op == 0 || op == 3)) then s.setBit EB_MDIO_STAT 18 true
  else (s.wrN EB_MDIO_CMD (bitsN v 0 29)).setBit EB_MDIO_STAT 16 true

/-- R264. The frame in progress ends: BUSY clears; a read leaves the bits as sampled and the acknowledge; MDIODONE is set in the page of
E0. -/
def mdioDone (rdata : Nat) (ack : Bool) (s : State) : State :=
  if !s.bit EB_MDIO_STAT 16 then s else
  let v := s.rdN EB_MDIO_CMD
  let op := bitsN v 26 2
  let isRead := if v.testBit 28 then op == 2 || op == 3 else op == 2
  let s := s.setBit EB_MDIO_STAT 16 false
  let s := if isRead then (s.setFld EB_MDIO_STAT 0 16 rdata).setBit EB_MDIO_STAT 17 (!ack) else s
  s.evt (EB_EVENT 0) 9

/-! ### Egress at the MAC -/

/-- May this unit send Ethernet egress? Both twins in step do (R26); a stale or self-fenced unit (R438, R446), and a Shadow that has left
step (R69, R84), does not. -/
def State.mayEth (s : State) : Bool :=
  (s.mode == .solo || s.mode == .lead || (s.mode == .shadow && s.tw.inStep) || s.mode == .hold) && !s.tw.egressOff

/-- The check of an egress frame at enqueue (R255). -/
def State.bayEgressOk (s : State) (b : Nat) (r : Octets) : Bool := (recFrame r).length ≤ s.ethLimit b (recFrame r)

/-- The record padded to 64 octets at enqueue (R255): the zero octets stand before the FCS, which the MAC replaces (log 28). -/
def bayPad (r : Octets) : Octets :=
  let f := recFrame r
  let body := f.length - 4
  if 64 ≤ f.length then bayRecord f 0 else bayRecord (f.take body ++ List.replicate (60 - body) 0 ++ padTo 4 (f.drop body)) 0

/-- The octets the MAC sends: its own FCS, or the deliberately invalid one (R255, R421). -/
def macOctets (e : Egress) : Octets :=
  let f := recFrame e.octets
  let body := f.take (f.length - 4)
  body ++ (if e.bad then badFcs body else fcsOf body)

/-- Octets of the transmit store in use (R350). -/
def Bay.store (x : Bay) : Nat := (x.fifo.map (fun e => (recFrame e.octets).length)).sum

/-- A selected frame is handed to the MAC: lost while the link is down (R242) or when the store is full (R350). -/
def State.bayHand (s : State) (b : Nat) (e : Egress) : State :=
  if !s.mayEth then s
  else if !(s.bay b).phy then s.inc (EB_CNT b 11)
  else if 65536 < (s.bay b).store + (recFrame e.octets).length then (s.inc (SC_CNT 8)).evt SC_EVENT 8
  else s.onBay b (fun x => { x with fifo := x.fifo ++ [e] })

/-- The first frame of each class in the MAC, unpaused at `ps`. -/
def Bay.heads (x : Bay) (ps : Nat) : List Egress :=
  (List.range 8).filterMap (fun c => if x.paused c ps then none else x.fifo.find? (fun e => e.cls == c))

/-- The head with the earliest planned start. -/
def earliest (l : List Egress) : Option Egress :=
  l.foldl (fun a e => match a with
    | none => some e
    | some x => if e.start < x.start then some e else some x) none

/-- R349, R350. The MAC starts the earliest planned frame among the heads of the unpaused classes, at its planned instant or later and with
the wire free, and sends it; a frame that would end after its gate closes is lost instead. Preamble and frame keep the wire. -/
def bayFrameTransmit (t b : Nat) (s : State) : State :=
  let s := s.tick t
  let x := s.bay b
  let ps := s.now * 1000
  if !s.dieOn || 12 ≤ b || !s.mayEth || !x.phy || ps < x.wireEnd then s else
  match earliest (x.heads ps) with
  | none => s
  | some e =>
    if s.now < e.start then s else
    let len := (recFrame e.octets).length
    let fin := ps + 8 * (len + 8) * bitPs x.speed
    let s := s.onBay b (fun x => { x with fifo := x.fifo.erase e })
    if e.close.any (fun g => g * 1000 < fin) then (s.inc (SC_CNT 9)).evt SC_EVENT 9
    else (s.onBay b (fun x => { x with wire := some { e with octets := bayRecord (macOctets e) 0 }, wireEnd := fin })).inc (EB_CNT b 10)

/-! ### Receive filters and queues, in the pipeline -/

/-- Does rule `k` of bay `b` match a frame (R251)? -/
def State.ruleMatch (s : State) (b k : Nat) (f : Octets) : Bool :=
  let w0 := s.rdN (EB_RULE_W0 b k)
  let w1 := s.rdN (EB_RULE_W1 b k)
  let w2 := s.rdN (EB_RULE_W2 b k)
  let (vid, pcp, _) := s.ethVlan b f
  let tagm := match bitsN w0 1 2 with
    | 0 => true
    | 1 => !isTpid f 12
    | 2 => beAt f 12 2 == 0x8100
    | _ => beAt f 12 2 == 0x88A8
  let rtm := match bitsN w0 3 2 with
    | 0 => true
    | 1 => !ethRtag f
    | 2 => ethRtag f
    | _ => false
  w0.testBit 0 && tagm && rtm && ((vid &&& bitsN w1 16 12) == (bitsN w1 0 12 &&& bitsN w1 16 12)) && w0.testBit (8 + pcp) &&
    ((ethType f &&& bitsN w2 16 16) == (bitsN w2 0 16 &&& bitsN w2 16 16))

/-- The receive queue of a frame: the lowest-numbered matching rule, DEFQ, or BADQ for a flagged frame (R251). -/
def State.rxQueue (s : State) (b : Nat) (i : Input) : Nat :=
  if i.bad then s.fld (EB_RXCFG b) 20 3 else
  match (List.range 64).find? (fun k => s.ruleMatch b k (recFrame i.octets)) with
  | some k => s.fld (EB_RULE_W0 b k) 5 3
  | none => s.fld (EB_RXCFG b) 16 3

/-- Disposition of a frame's queue (R252): (enters the pipeline, delivers a host record, discarded), the ring and PENTRY. -/
def State.rxDisp (s : State) (b : Nat) (i : Input) : Nat × Nat × Nat :=
  let q := s.rxQueue b i
  (s.fld (EB_RQ b q) 0 2, s.fld (EB_RQ b q) 4 4, s.fld (EB_RQ b q) 8 16)

/-- A processed bay event (R242, R258): link state of the stamping unit; holds of the named classes for ⌈T ÷ E⌉ selections. -/
def State.bayEventDone (s : State) (b : Nat) (r : Octets) : State :=
  let speed := bitsN (oct r 2) 1 3
  let holds := fun (s : State) => s.onBay b (fun x => { x with hold := (List.range 8).map (fun c =>
    if (oct r 3).testBit c then cdiv (leAt r (8 + 2 * c) 2 * 512 * bitPs speed) (s.elen * 1000) else x.hold.getD c 0) })
  match oct r 0 with
  | 1 => (s.cPut (EB_STATUS b) (if oct r 1 = 0 then 5 else 6) 1 1).cEvt (EB_EVENT b) 0
  | 2 => (s.cPut (EB_STATUS b) (if oct r 1 = 0 then 5 else 6) 1 0).cEvt (EB_EVENT b) 1
  | 3 => (holds s).cEvt (EB_EVENT b) 2
  | 4 => (holds s).cEvt (EB_EVENT b) 3
  | _ => s

end Sys2Proof.Machine
end

