-- ==== Sys2Proof/Machine/Can.lean ====
section
/-! DEFINITION. Machine/Can.lean: the CAN tenon (R150 to R204): frame records, bit times and worst-case frame times, transmit objects,
error states, priority cells, the schedule matrix, and the meaning of its port events when they are processed. -/
namespace Sys2Proof.Machine
open Sys2Proof

/-! ### Frame records (R163) -/

/-- IDW of a CAN frame record. -/
def recIdw (r : Octets) : Nat := leAt r 0 4
/-- FMT[1:0]: 0 classic, 1 FD, 2 XL. -/
def recFmt (r : Octets) : Nat := oct r 4 % 4
/-- FMT octet without ESI, as R164 compares it. -/
def recFmtNoEsi (r : Octets) : Nat := putN (oct r 4) 3 1 0
/-- DLC as received. -/
def recDlc (r : Octets) : Nat := oct r 5
/-- DLEN, the data octets. -/
def recDlen (r : Octets) : Nat := leAt r 6 2
/-- AF of an XL frame. -/
def recAf (r : Octets) : Nat := leAt r 8 4
/-- SDT of an XL frame. -/
def recSdt (r : Octets) : Nat := oct r 12
/-- VCID of an XL frame. -/
def recVcid (r : Octets) : Nat := oct r 13
/-- The data octets. -/
def recData (r : Octets) : Octets := slice r 16 (recDlen r)
/-- Identifier and IDE of an IDW. -/
def idKey (idw : Nat) : Nat := bitsN idw 0 30

/-- Octets an FD length is padded to: the next length with a DLC code (R151, R153). -/
def fdLen (n : Nat) : Nat :=
  if n ≤ 8 then n else if n ≤ 12 then 12 else if n ≤ 16 then 16 else if n ≤ 20 then 20 else if n ≤ 24 then 24
  else if n ≤ 32 then 32 else if n ≤ 48 then 48 else 64

/-- The DLC code of a coded FD or classic length (R151). -/
def dlcOf (n : Nat) : Nat :=
  if n ≤ 8 then n else if n ≤ 12 then 9 else if n ≤ 16 then 10 else if n ≤ 20 then 11 else if n ≤ 24 then 12
  else if n ≤ 32 then 13 else if n ≤ 48 then 14 else 15

/-- The data octets a DLC stands for, classic or FD (R151). -/
def dlcLen (fd : Bool) (d : Nat) : Nat :=
  if d ≤ 8 then d else if !fd then 8 else
    match d with
    | 9 => 12 | 10 => 16 | 11 => 20 | 12 => 24 | 13 => 32 | 14 => 48 | _ => 64

/-- The 11-bit DLC of an XL frame of `n` octets, and the octets it stands for (R151). -/
def xlDlc (n : Nat) : Nat := (n - 1) % 2048

/-- The data octets an XL DLC stands for (R151). -/
def xlLen (d : Nat) : Nat := d % 2048 + 1

/-- The data octets of a frame whose record is `r` (R151, R152): none of a classic remote frame; else what the length field stands for. -/
def recLen (r : Octets) : Nat :=
  match recFmt r with
  | 0 => if (recIdw r).testBit 30 then 0 else dlcLen false (recDlc r % 16)
  | 1 => dlcLen true (recDlc r % 16)
  | _ => xlLen (xlDlc (recDlen r))

/-- The record of a frame received on the bus (R163): the fields its format has, as received, the data octets its length field stands for
(R151, R152), and zero elsewhere. -/
def canDecode (r : Octets) : Octets :=
  let f := recFmt r
  let idw := recIdw r
  let ide := f != 2 && idw.testBit 29
  let id := if ide then bitsN idw 0 29 + 2 ^ 29 else bitsN idw 0 11
  let idw' := id + (if f == 0 then 2 ^ 30 * b2n (idw.testBit 30) else 0)
  let fmt := if f == 0 then 0 else if f == 1 then oct r 4 % 16 else 2 + 16 * b2n ((oct r 4).testBit 4)
  let n := recLen r
  natLE 4 idw' ++ [BitVec.ofNat 8 fmt, BitVec.ofNat 8 (if f ≤ 1 then recDlc r % 16 else 0)] ++ natLE 2 n ++
    (if f ≤ 1 then List.replicate 6 0 else padTo 6 (slice r 8 6)) ++ [0, 0] ++ padTo n (slice r 16 n)

/-- The length field of a frame that is sent (R151): for XL its DLC; else the DLC of the record where it stands for the frame's length, or for a
remote frame, and else the code of that length. -/
def lenField (r : Octets) : Nat :=
  let d := recDlc r % 16
  match recFmt r with
  | 0 => if (recIdw r).testBit 30 || dlcLen false d == recDlen r then d else dlcOf (recDlen r)
  | 1 => if dlcLen true d == recDlen r then d else dlcOf (recDlen r)
  | _ => xlDlc (recDlen r)

/-- The check of an egress frame at enqueue (R153): `none` discards it; else the record as it is placed, an FD frame padded with PADB and
sent without switching where BRSEN is clear. A reserved FMT 0x3 meets none of the rule's discards, so it is placed. -/
def canEgress (cfg : Nat) (r : Octets) : Option Octets :=
  let f := recFmt r
  let n := recDlen r
  let rtr := (recIdw r).testBit 30
  if f == 1 && !cfg.testBit 0 then none
  else if f == 2 && !cfg.testBit 1 then none
  else if f == 0 && n > 8 then none
  else if f == 1 && n > 64 then none
  else if f == 2 && (n == 0 || n > 2048) then none
  else if f != 0 && rtr then none
  else if f == 1 then
    let m := fdLen n
    let pad := List.replicate (m - n) (BitVec.ofNat 8 (bitsN cfg 16 8))
    let fmt := if cfg.testBit 2 then oct r 4 else putN (oct r 4) 2 1 0
    some (slice r 0 4 ++ [BitVec.ofNat 8 fmt, BitVec.ofNat 8 (dlcOf m)] ++ natLE 2 m ++ slice r 8 8 ++ recData r ++ pad)
  else some r

/-! ### Bit times and Tw (R155, R161) -/

/-- Kernel clock period in ps: 12,500 at 80 MHz, 6,250 at 160 MHz (R127). -/
def State.kclkPs (s : State) (m : Nat) : Nat := if (oct (s.mort m).desc 1).testBit 0 then 6250 else 12500

/-- A nominal bit in ps, from CN_BTIM_N. -/
def State.tnPs (s : State) (m : Nat) : Nat :=
  let b := s.rdN (CN_BTIM_N m)
  (bitsN b 0 5 + 1) * (1 + (bitsN b 5 8 + 1) + (bitsN b 13 7 + 1)) * s.kclkPs m

/-- A data-phase bit in ps, from a CN_BTIM_D or CN_BTIM_X word. -/
def dataPs (b k : Nat) : Nat := (bitsN b 0 5 + 1) * (1 + (bitsN b 5 6 + 1) + (bitsN b 11 4 + 1)) * k

/-- The worst-case frame time Tw in ps (R161). -/
def twPs (tn td tx : Nat) (r : Octets) : Nat :=
  let idw := recIdw r
  let ide := idw.testBit 29
  let s := if idw.testBit 30 then 0 else recDlen r
  match recFmt r with
  | 0 =>
    let g := if ide then 54 else 34
    (g + 8 * s + 13 + (g + 8 * s - 1) / 4) * tn
  | 1 =>
    let td := if (oct r 4).testBit 2 then td else tn
    let a := if ide then 36 else 17
    let c := if s ≤ 16 then 17 else 21
    let f := if s ≤ 16 then 6 else 7
    (a + 12 + (a - 1) / 4) * tn + (5 + 8 * s + (4 + 8 * s) / 4 + 4 + c + f + 1) * td
  | _ => 34 * tn + (cdiv (11 * (112 + 8 * s)) 10 + 4) * tx

/-- Tw in ns, rounded up, of a frame on mortise `m`. -/
def State.twNs (s : State) (m : Nat) (r : Octets) : Nat :=
  cdiv (twPs (s.tnPs m) (dataPs (s.rdN (CN_BTIM_D m)) (s.kclkPs m)) (dataPs (s.rdN (CN_BTIM_X m)) (s.kclkPs m)) r) 1000

/-- The arbitration field as a number that is smaller the earlier it wins: identifier, RTR or SRR, IDE, the low 18 identifier bits, RTR
(R177, ISO 11898-1). -/
def arbKey (r : Octets) : Nat :=
  let idw := recIdw r
  let rtr := b2n (idw.testBit 30)
  if idw.testBit 29 then (bitsN idw 18 11) * 2 ^ 21 + 2 ^ 20 + 2 ^ 19 * 1 + (bitsN idw 0 18) * 2 + rtr
  else (bitsN idw 0 11) * 2 ^ 21 + rtr * 2 ^ 20

/-! ### The tenon's state -/

/-- Is mortise `m` running the CAN tenon? -/
def State.isCan (s : State) (m : Nat) : Bool := (s.mort m).tenon == .can && ((s.mort m).st == .inService || (s.mort m).st == .draining)

/-- The machine with the CAN tenon of a mortise changed. -/
def State.onCan (s : State) (m : Nat) (f : CanSt → CanSt) : State := s.onMort m (fun x => { x with can := f x.can })

/-- The machine with one transmit object changed. -/
def State.onObj (s : State) (m k : Nat) (f : CanObj → CanObj) : State := s.onCan m (fun c => { c with objs := updAt c.objs k f })

/-- Object `k` of mortise `m`. -/
def State.canObj (s : State) (m k : Nat) : CanObj := nth (s.mort m).can.objs k

/-- The STATE octet of a CAN event (R165). -/
def State.canState (s : State) (m : Nat) : Nat :=
  s.fld (CN_STATUS m) 8 2 + 4 * b2n (s.bit (CN_STATUS m) 10) + 8 * b2n (s.mort m).can.lone

/-- Stamp a CAN port event: CODE, OBJ, STATE, REASON, IDW, ROWCOL (R165). Every one is drive-side: only the driving unit stamps (R64). -/
def State.canReport (s : State) (m code obj reason idw rowcol : Nat) : State :=
  if s.drives m then
    s.stampEvent m ([BitVec.ofNat 8 code, BitVec.ofNat 8 obj, BitVec.ofNat 8 (s.canState m), BitVec.ofNat 8 reason] ++ natLE 4 idw ++ natLE 2 rowcol)
  else s

/-- The operating mode a tenon acts in (R181): monitor on a unit that does not drive. -/
def State.canMode (s : State) (m : Nat) : Nat := if s.drives m then (s.mort m).can.opmode else 2

/-- The tenon waits for 11 consecutive recessive bits from `t` on before it receives or offers again (R154, R179, R182): no frame that starts
before their end is received, and no arbitration that starts before it is joined. -/
def State.canWait (s : State) (m t : Nat) : State :=
  (s.onCan m (fun c => { c with waitTil := some (t + cdiv (11 * s.tnPs m) 1000) })).setBit (CN_STATUS m) 11 false

/-- Has the wait of a tenon not ended by the instant `t`? -/
def State.canWaits (s : State) (m t : Nat) : Bool := (s.mort m).can.waitTil.any (fun e => decide (t < e))

/-- The wait for 11 recessive bits is over: the tenon is integrated. -/
def State.canIntegrated (s : State) (m : Nat) : State :=
  (s.onCan m (fun c => { c with waitTil := none })).setBit (CN_STATUS m) 11 true

/-- Error state of counters: 0 active, 1 passive, 2 bus-off (ISO 11898-1). -/
def errState (tec rec : Nat) : Nat := if tec ≥ 256 then 2 else if tec ≥ 128 ∨ rec ≥ 128 then 1 else 0

/-- Set TEC and REC, follow the state and warning they give, and report a change as event 0x04 (R185, R189). -/
def State.setErr (s : State) (m tec rec : Nat) : State :=
  let est := s.fld (CN_STATUS m) 8 2
  let warn := s.bit (CN_STATUS m) 10
  let est' := if est == 2 then 2 else errState tec rec
  let warn' := tec ≥ 96 || rec ≥ 96
  let s := ((s.setFld (CN_ERRC m) 0 9 (min 256 tec)).setFld (CN_ERRC m) 16 8 (min 255 rec)).setBit (CN_ERRC m) 24 (rec ≥ 128)
  let s := (s.setFld (CN_STATUS m) 8 2 est').setBit (CN_STATUS m) 10 warn'
  if est ≠ est' ∨ warn ≠ warn' then s.canReport m 4 0xFF 0 0 0 else s

/-- A frame sent well or received well lowers its counter (ISO 11898-1). -/
def recLower (rec : Nat) : Nat := if rec = 0 then 0 else if rec < 128 then rec - 1 else 119 + Config.canRecReturn % 9

/-- The lone-node state ends (R193) and the run of acknowledge errors restarts (R192). -/
def State.loneEnd (s : State) (m : Nat) : State :=
  let s := s.setFld (CN_LONE m) 8 8 0
  if (s.mort m).can.lone then (s.onCan m (fun c => { c with lone := false })).canReport m 6 0xFF 0 0 0 else s

/-- CN_TXWIRE follows the sent marks. -/
def State.txWire (s : State) (m : Nat) : State :=
  s.wrN (CN_TXWIRE m) (((List.range 32).map (fun k => if (s.canObj m k).sent then 2 ^ k else 0)).sum)

/-- The occupancy of the objects (CN_TXOCC). -/
def State.txOcc (s : State) (m : Nat) : Nat :=
  ((List.range 32).map (fun k => if (s.canObj m k).active.isSome || (s.canObj m k).nxt.isSome then 2 ^ k else 0)).sum

/-! ### Reception -/

/-- Does a held frame equal a received one (R164): IDW, FMT without ESI, DLEN and DATA? -/
def echoOf (held r : Octets) : Bool :=
  recIdw held == recIdw r && recFmtNoEsi held == recFmtNoEsi r && recDlen held == recDlen r && recData held == recData r

/-- Is a received frame the driving twin's transmission (R164)? -/
def State.canEcho (s : State) (m : Nat) (r : Octets) : Bool :=
  !s.drives m && (s.mort m).can.objs.any (fun o =>
    (match o.active with | some e => echoOf e.octets r | none => false) || (match o.nxt with | some e => echoOf e.octets r | none => false))

/-- Does priority cell `k` match a frame (R169)? -/
def State.cellHit (s : State) (m k : Nat) (r : Octets) : Bool :=
  let c := s.rdN (CN_PC_ID m k)
  let mask := bitsN (s.rdN (CN_PC_MASK m k)) 0 29
  let idw := recIdw r
  c.testBit 31 && (bitsN idw 0 29 &&& mask) == (bitsN c 0 29 &&& mask) && idw.testBit 29 == c.testBit 29 && (recFmt r == 2) == c.testBit 30

/-- Capture a frame into the lowest matching cell (R169, R170, R173). -/
def State.cellCapture (s : State) (m : Nat) (r : Octets) : State :=
  match (List.range 4).find? (fun k => s.cellHit m k r) with
  | none => s
  | some k =>
    let s := if s.bit (CN_PCSTAT m) k then (s.setBit (CN_PCSTAT m) (4 + k) true).evt (MZ_EVENT m) 20 else s
    ((s.onCan m (fun c => { c with cells := c.cells.set k (r, s.now % 2 ^ 32) })).setBit (CN_PCSTAT m) k true).evt (MZ_EVENT m) (16 + k)

/-- The words a cell buffer shows for a record (R171). -/
def cellWords (r : Octets) (ts : Nat) : List Nat :=
  if r.isEmpty then List.replicate 21 0 else
  [recIdw r, oct r 4 + 256 * recDlc r + 2 ^ 16 * recDlen r + 2 ^ 28 * b2n (recDlen r > 64), recAf r, recSdt r + 256 * recVcid r]
    ++ (List.range 16).map (fun j => leAt (padTo 64 (recData r)) (4 * j) 4) ++ [ts]

/-- A matrix timing register (R194); where the matrix in force has MODE 0x0, so that it has no row 0, a waiting one's (R200). -/
def State.ttWord (s : State) (m a : Nat) : Nat :=
  if s.fld (CN_TTCFG m) 0 2 == 0 then ((assoc ((s.mort m).can.newMx.getD []) a).getD (s.rdN a)) else s.rdN a

/-- A basic cycle of row `row` begins at `at_` (R195, R196); a waiting matrix comes into force at the first row 0 (R200), and the cycle is then the one
its own timing places there. -/
def State.cycleStart (s : State) (m row at_ : Nat) : State :=
  let begin_ := fun (s : State) (row c0 : Nat) =>
    let s := s.onCan m (fun c => { c with cycleAt := some c0, tried := false, missed := false })
    ((s.setFld (CN_TTSTAT m) 0 6 row).setFld (CN_TTSTAT m) 8 4 0).setBit (CN_TTSTAT m) 13 true
  match (if row = 0 then (s.mort m).can.newMx else none) with
  | none => begin_ s row at_
  | some l =>
    let was := s.fld (CN_TTCFG m) 0 2
    let s := (l.foldl (fun s p => s.wrN p.1 p.2) s).onCan m (fun c => { c with newMx := none })
    let mode := s.fld (CN_TTCFG m) 0 2
    let bc := 1000 * s.fld (CN_TTBC m) 0 16
    if mode == 0 then (s.onCan m (fun c => { c with cycleAt := none })).setBit (CN_TTSTAT m) 13 false
    else if mode == 3 then
      let s := if was == 3 then s else s.onCan m (fun c => { c with lastRef := at_ })
      begin_ s 0 at_
    else begin_ s ((at_ / bc) % (s.fld (CN_TTCFG m) 2 6 + 1)) (at_ - at_ % bc)

/-- Is a received frame a reference message of the matrix (R195, R196): classic, base format, a data frame with REFID? -/
def State.isReference (s : State) (m : Nat) (r : Octets) : Bool :=
  let tt := s.ttWord m (CN_TTCFG m)
  bitsN tt 0 2 == 3 && recFmt r == 0 && bitsN (recIdw r) 0 11 == bitsN tt 12 11 && !(recIdw r).testBit 29 && !(recIdw r).testBit 30

/-- R163. A CAN tenon receives a valid frame that started at `sof`, `x` its fields: none while it waits for 11 recessive bits (R154, R179, R182), and
none of a format of the bus that does not exist. A format the tenon lacks goes the way of R154; else the frame is counted, the error and lone-node states
follow, a twin echo is dropped (R164), a priority cell may capture it, a reference message starts a cycle at its start of frame (R196), and the frame
record is stamped. A frame it sends itself is never handed over. -/
def canFrameReceived (t m sof : Nat) (x : Octets) (s : State) : State :=
  let s := s.tick t
  if !s.isCan m || recFmt x == 3 || s.canWaits m sof then s else
  let s := s.canIntegrated m
  let r := canDecode x
  let cfg := s.rdN (CN_CFG m)
  if (recFmt r == 1 && !cfg.testBit 0) || (recFmt r == 2 && !cfg.testBit 1) then
    if cfg.testBit 3 then (s.canWait m t).evt (MZ_EVENT m) 29
    else
      let s := s.inc (MZ_CNT m 2)
      if s.canMode m == 1 then s.canWait m t
      else s.setErr m (s.fld (CN_ERRC m) 0 9) (s.fld (CN_ERRC m) 16 8 + 1)
  else
    let s := s.inc (MZ_CNT m 1)
    let s := if s.canMode m == 1 then s else s.setErr m (s.fld (CN_ERRC m) 0 9) (recLower (s.fld (CN_ERRC m) 16 8))
    let s := s.loneEnd m
    if s.canEcho m r then s else
    let s := s.cellCapture m r
    let s := if s.isReference m r then
        ((s.onCan m (fun c => { c with lastRef := s.now })).setBit (CN_TTSTAT m) 12 false).cycleStart m (bitsN (oct r 16) 0 6) sof
      else s
    if (s.mort m).st == .inService then s.stampIn { cls := 2, port := m, kind := .frame, octets := r } else s

/-! ### Transmission -/

/-- The matrix cell of a row and column: (object, type) (R197). -/
def State.mxCell (s : State) (m row col : Nat) : Nat × Nat :=
  let w := s.rdN (CN_TTMX m (4 * row + col / 4))
  (bitsN w (8 * (col % 4)) 5, bitsN w (8 * (col % 4) + 6) 2)

/-- COLOFF(c) in µs. -/
def State.colOff (s : State) (m c : Nat) : Nat := s.fld (CN_TTCOL m (c / 2)) (16 * (c % 2)) 16

/-- The column running `us` µs into a basic cycle: the last one that has started (R194). -/
def State.colAt (s : State) (m us : Nat) : Nat :=
  ((List.range (s.fld (CN_TTCFG m) 8 4 + 1)).filter (fun c => s.colOff m c ≤ us)).getLastD 0

/-- The column of the matrix follows the time (R194, R201): where another column than the one shown runs at `t`, its window is a new one. -/
def State.colSync (s : State) (m t : Nat) : State :=
  match (s.mort m).can.cycleAt with
  | none => s
  | some c0 =>
    let col := s.colAt m ((t - c0) / 1000)
    if col == s.fld (CN_TTSTAT m) 8 4 then s
    else (s.setFld (CN_TTSTAT m) 8 4 col).onCan m (fun c => { c with tried := false, missed := false })

/-- The type and object of the window running as CN_TTSTAT shows it. -/
def State.window (s : State) (m : Nat) : Nat × Nat := s.mxCell m (s.fld (CN_TTSTAT m) 0 6) (s.fld (CN_TTSTAT m) 8 4)

/-- The end of column `c` in ns after the start of its cycle. -/
def State.colEnd (s : State) (m c : Nat) : Nat :=
  1000 * (if c < s.fld (CN_TTCFG m) 8 4 then s.colOff m (c + 1) else s.fld (CN_TTBC m) 0 16)

/-- Objects whose frame may be offered: active, not sent, its attempt not spent, and of the given kind for TT. -/
def State.offerable (s : State) (m : Nat) (p : Nat → Bool) : List Nat :=
  (List.range 32).filter (fun k => let o := s.canObj m k; o.active.isSome && !o.sent && !o.spent && !o.freeing && p k)

/-- The object that wins among offered ones (R177): arbitration field, then order of placement, then object number. -/
def State.winner (s : State) (m : Nat) (l : List Nat) : Option Nat :=
  l.foldl (fun best k =>
    let key := fun j => (arbKey ((s.canObj m j).active.map (·.octets) |>.getD []), (s.canObj m j).ord)
    match best with
    | none => some k
    | some b => if (key k).1 < (key b).1 ∨ ((key k).1 = (key b).1 ∧ (key k).2 < (key b).2) then some k else some b) none

/-- May the tenon start a frame at all: driving (R178), normal mode (R181), not waiting for 11 recessive bits (R179), not bus-off, nothing on the wire, in
service and not past the start of a swap that changes it (R111)? -/
def State.canReady (s : State) (m : Nat) : Bool :=
  s.isCan m && s.drives m && (s.mort m).can.opmode == 0 && !s.canWaits m s.now && (s.mort m).can.wire.isNone &&
  s.fld (CN_STATUS m) 8 2 != 2 && (s.mort m).st == .inService && !s.wk.quiesce

/-- The reference message of the running row (R195): a classic base-format frame with REFID, DLC 1, and the row number as its data. -/
def State.refRec (s : State) (m : Nat) : Octets :=
  natLE 4 (s.fld (CN_TTCFG m) 12 11) ++ [0, 1] ++ natLE 2 1 ++ List.replicate 8 0 ++ [BitVec.ofNat 8 (s.fld (CN_TTSTAT m) 0 6)]

/-- The frame an object has active; for 32, the reference message. -/
def State.objRec (s : State) (m k : Nat) : Octets := if k == 32 then s.refRec m else ((s.canObj m k).active.map (·.octets)).getD []

/-- The frame of object `k` (32: the reference message) starts on the wire, with the length field that codes its data (R151). -/
def State.canStart (s : State) (m k : Nat) : State :=
  let r := s.objRec m k
  s.onCan m (fun c => { c with wire := some k, wireRec := r, wireLen := lenField r })

/-- R177. At a start of arbitration at `t` the driving tenon offers one frame, allowed in the window that runs then (R197): in an arbitrating window, or
where no matrix governs, the winner among objects without TT; in a reference window of a reference master the reference message, once in the window
(R195); in a silent or exclusive window none (an exclusive window's frame starts under R198). A tenon that waits for 11 recessive bits offers nothing
before their end (R179). -/
def canArbitrationStart (t m : Nat) (s : State) : State :=
  let s := s.tick t
  if !s.isCan m || s.canWaits m t then s else
  let s := (s.canIntegrated m).colSync m t
  if !s.canReady m then s else
  let ty := if s.bit (CN_CFG m) 6 then (if s.bit (CN_TTSTAT m) 13 then (s.window m).2 else 2) else 0
  if ty == 0 then
    match s.winner m (s.offerable m (fun k => !(s.bit (CN_OBJ m k) 31))) with
    | some k => s.canStart m k
    | none => s
  else if ty == 3 && s.fld (CN_TTCFG m) 0 2 == 2 && !(s.mort m).can.tried then (s.canStart m 32).onCan m (fun c => { c with tried := true })
  else s

/-- The delay TDCV measured in a frame on the wire that transmitter delay compensation applies to (R158): an edge earlier than TDCF is no measurement;
saturation above 127 is shown (R159). -/
def State.tdcMeasured (s : State) (m : Nat) (v : Option Nat) : State :=
  let r := (s.mort m).can.wireRec
  let put := fun (s : State) (a : Nat) =>
    match v with
    | none => s
    | some v =>
      if v < s.fld a 8 7 then s else
      let sat := v + s.fld a 0 7 > 127
      let s := (s.setFld a 16 7 v).setBit a 23 sat
      if sat then s.evt (MZ_EVENT m) 28 else s
  if recFmt r == 1 && (oct r 4).testBit 2 && s.bit (CN_TDC_D m) 7 then put s (CN_TDC_D m)
  else if recFmt r == 2 && s.bit (CN_TDC_X m) 7 && !s.bit (CN_XLPWM m) 7 then put s (CN_TDC_X m)
  else s

/-- OBJ of an event about object `k`: none for the reference message. -/
def objCode (k : Nat) : Nat := if k < 32 then k else 0xFF

/-- R165. The frame on the wire becomes valid: it is marked as sent, counted, TEC falls, the lone-node state ends, a measured TDCV is
shown (R158), and confirmation 0x01 is stamped. The reference message leaves no object and no event. -/
def canTransmitEnd (t m tdcv : Nat) (s : State) : State :=
  let s := s.tick t
  if !s.isCan m then s else
  match (s.mort m).can.wire with
  | none => s
  | some k =>
    let r := (s.mort m).can.wireRec
    let s := (s.tdcMeasured m (some tdcv)).onCan m (fun c => { c with wire := none })
    let s := (s.setErr m (s.fld (CN_ERRC m) 0 9 - 1) (s.fld (CN_ERRC m) 16 8)).loneEnd m
    if k == 32 then s else
    ((s.onObj m k (fun o => { o with sent := true })).txWire m |>.inc (CN_CNT m 2)).canReport m 1 k 0 (recIdw r) 0

/-- The attempt of object `k` has ended without success: with ONESHOT (R184), or where an abort was processed while the frame was on the wire (R180), it
is not tried again and is reported as 0x02. -/
def State.canNotSent (s : State) (m k reason : Nat) : State :=
  if k < 32 && (s.bit (CN_CFG m) 4 || (s.canObj m k).abort) then
    (s.onObj m k (fun o => { o with spent := true })).canReport m 2 k reason (recIdw (s.objRec m k)) 0
  else s

/-- R184, R199. An attempt loses arbitration or ends in an error, after the delay of the frame was measured or before: the frame leaves the wire. A
reference message may be tried again in its window where frames are retried. -/
def canTransmitFailed (t m : Nat) (arbLost : Bool) (tdcv : Option Nat) (s : State) : State :=
  let s := s.tick t
  if !s.isCan m then s else
  match (s.mort m).can.wire with
  | none => s
  | some k =>
    let again := k == 32 && !s.bit (CN_CFG m) 4
    let s := (s.tdcMeasured m tdcv).onCan m (fun c => { c with wire := none, tried := c.tried && !again })
    let s := if arbLost then s.inc (CN_CNT m 3) else s
    s.canNotSent m k (if arbLost then 1 else 2)

/-- The counters after an error (ISO 11898-1): (TEC, REC). An acknowledge error of an error-passive node without a dominant bit during its
flag leaves TEC; a unit that does not drive keeps TEC at zero (R189). -/
def errCount (passive drives : Bool) (e : CanErr) (tec rec : Nat) : Nat × Nat :=
  let p := match e with
    | .receive => (tec, rec + 1)
    | .receivePrimary => (tec, rec + 8)
    | .transmit => (tec + 8, rec)
    | .ack dominant => if passive && !dominant then (tec, rec) else (tec + 8, rec)
    | .stuffArb => (tec, rec)
    | .flagTx => (tec + 8, rec)
    | .flagRx => (tec, rec + 8)
  (if drives then p.1 else 0, p.2)

/-- The error counters after a bus error (R185, R189): they stand in restricted operation, where the tenon waits for 11 recessive bits (R182). On entry
to bus-off the frame in transmission is lost (R186): it leaves the wire and is not tried again. DESIGN CHOICE (log 35): without ONESHOT no event ends
it, so its object stays occupied until the unit begins to drive anew. BOAUTO starts the recovery (R187). -/
def State.canCount (s : State) (m t : Nat) (e : CanErr) : State :=
  if s.canMode m == 1 then s.canWait m t else
  let was := s.fld (CN_STATUS m) 8 2
  let (tec, rec) := errCount (was == 1) (s.drives m) e (s.fld (CN_ERRC m) 0 9) (s.fld (CN_ERRC m) 16 8)
  let s := if was == 2 then s else s.setErr m tec rec
  if was != 2 && s.fld (CN_STATUS m) 8 2 == 2 then
    let k := (s.mort m).can.wire
    let s := s.onCan m (fun c => { c with wire := none, recov := s.bit (CN_CFG m) 5 })
    match k with
    | some k => (s.canNotSent m k 3).onObj m k (fun o => { o with spent := true })
    | none => s
  else s

/-- One more acknowledge error on a frame this unit drives (R192): the run that reaches LONERUN withdraws the frame as 0x05 and starts the lone-node
state; CONS stays at 255 where no limit ends the run. -/
def State.canAckError (s : State) (m : Nat) : State :=
  let run := min 255 (s.fld (CN_LONE m) 8 8 + 1)
  let lim := s.fld (CN_LONE m) 0 8
  match (s.mort m).can.wire with
  | some k =>
    if lim ≠ 0 ∧ run ≥ lim then
      let idw := recIdw (s.mort m).can.wireRec
      let s := (s.setFld (CN_LONE m) 8 8 0).onCan m (fun c => { c with lone := true, wire := none })
      (s.onObj m k (fun o => { o with spent := true })).canReport m 5 (objCode k) 0 idw 0
    else s.setFld (CN_LONE m) 8 8 run
  | none => s.setFld (CN_LONE m) 8 8 run

/-- R185, R186, R189, R190, R192. A tenon detects a bus error, in a frame of its own perhaps after its delay was measured. A suspect of the driving
tenon is reported as 0x07; then the error is counted; then a run of acknowledge errors may end. -/
def canBusError (t m : Nat) (e : CanErr) (suspect : Bool) (tdcv : Option Nat) (s : State) : State :=
  let s := s.tick t
  if !s.isCan m then s else
  let s := if e == .receive || e == .receivePrimary then s.inc (MZ_CNT m 2) else s
  let own := s.drives m && (s.mort m).can.wire.isSome
  let s := if own then s.tdcMeasured m tdcv else s
  let s := match (s.mort m).can.wire with
    | some k => if suspect then s.canReport m 7 (objCode k) 0 (recIdw (s.mort m).can.wireRec) 0 else s
    | none => s
  let s := s.canCount m t e
  match e with
  | .ack _ => if own then s.canAckError m else s
  | _ => s

/-- R187. 128 occurrences of 11 recessive bits end a running recovery: error-active with cleared counters. -/
def busOffRecovered (t m : Nat) (s : State) : State :=
  let s := s.tick t
  if s.isCan m && s.fld (CN_STATUS m) 8 2 == 2 && (s.mort m).can.recov then
    let s := (s.onCan m (fun c => { c with recov := false })).setFld (CN_STATUS m) 8 2 0
    let s := ((s.setFld (CN_ERRC m) 0 9 0).setFld (CN_ERRC m) 16 8 0).setBit (CN_ERRC m) 24 false
    (s.setBit (CN_STATUS m) 10 false).canReport m 4 0xFF 0 0 0
  else s

/-- R187. A processed BORECOV starts recovery in bus-off; elsewhere it has no effect. -/
def busOffRecoveryRequest (m : Nat) (s : State) : State :=
  if s.isCan m && s.fld (CN_STATUS m) 8 2 == 2 then s.onCan m (fun c => { c with recov := true }) else s

/-- R183. A processed OPMODE write takes effect when the processing of its epoch completes; 0x3 is ignored. -/
def canOpmodeWrite (m mode : Nat) (s : State) : State :=
  if s.isCan m && mode < 3 then (s.setFld (CN_CTRL m) 0 2 mode).onCan m (fun c => { c with pendOp := some mode }) else s

/-- R180. A processed CN_TXABORT: next slots of the named dedicated objects are cleared and counted, and the driving tenon withdraws an
active frame that has not started, reporting 0x03; one on the wire completes, and is not tried again where it fails. -/
def canTxAbort (m mask : Nat) (s : State) : State :=
  if !s.isCan m then s else
  (List.range 32).foldl (fun s k =>
    if mask.testBit k then
      let s := if (s.canObj m k).nxt.isSome then (s.onObj m k (fun o => { o with nxt := none })).cInc (CN_CNT m 7) else s
      let o := s.canObj m k
      if !(s.drives m && o.active.isSome && !o.sent && !o.spent) then s
      else if (s.mort m).can.wire == some k then s.onObj m k (fun o => { o with abort := true })
      else
        (s.onObj m k (fun o => { o with spent := true })).canReport m 3 k 0 (recIdw (s.objRec m k)) 0
    else s) s

/-! ### The schedule matrix (R194 to R201) -/

/-- R195, R200, R201. A basic cycle begins in local and reference-master mode: its row is ⌊t ÷ BCLEN⌋ mod ROWS. -/
def basicCycleStart (t m : Nat) (s : State) : State :=
  let s := s.tick t
  let cfg := s.ttWord m (CN_TTCFG m)
  let bc := bitsN (s.ttWord m (CN_TTBC m)) 0 16
  if s.isCan m && (cfg % 4 == 1 || cfg % 4 == 2) && bc ≠ 0 && t % (1000 * bc) = 0 then
    s.cycleStart m ((t / (1000 * bc)) % (bitsN cfg 2 6 + 1)) t
  else s

/-- A swap replaces SB0: the new matrix of a CAN mortise, as its unit of 1,064 octets, waits for its row 0 (R200). -/
def State.matrixSwap (s : State) (m : Nat) (x : Octets) : State :=
  let regs := (List.range 10).map (fun i => (CN_TTCFG m + 4 * i, leAt x (4 * i) 4)) ++
    (List.range 256).map (fun i => (CN_TTMX m i, leAt x (40 + 4 * i) 4))
  s.onCan m (fun c => { c with newMx := some regs })

/-- Report a window miss once for the running window (R198). -/
def State.missReport (s : State) (m k : Nat) : State :=
  if (s.mort m).can.missed then s else
  (s.onCan m (fun c => { c with missed := true })).canReport m 8 k 0 (recIdw (s.objRec m k))
    (s.fld (CN_TTSTAT m) 0 6 + 256 * s.fld (CN_TTSTAT m) 8 4)

/-- Does an exclusive window that runs wait for the frame of its object `k` (R197, R198, R199): TTEN, no lost reference message, and a frame of a TT
object that was not started in the window? -/
def State.exclusiveDue (s : State) (m k : Nat) : Bool :=
  (s.window m).2 == 1 && !s.bit (CN_TTSTAT m) 12 && !(s.mort m).can.tried && s.bit (CN_CFG m) 6 &&
    (s.offerable m (fun j => j == k && s.bit (CN_OBJ m j) 31)) == [k]

/-- R198. A window opens, or the bus falls idle in it: in an exclusive window the named object's frame starts when its Tw fits the time left, else the
miss is reported. -/
def exclusiveWindowOpen (t m : Nat) (busy : Bool) (s : State) : State :=
  let s := s.tick t
  if !s.isCan m then s else
  let s := s.colSync m t
  let k := (s.window m).1
  match (s.mort m).can.cycleAt with
  | none => s
  | some c0 =>
    if !busy && s.canReady m && s.exclusiveDue m k then
      if s.twNs m (s.objRec m k) ≤ c0 + s.colEnd m (s.fld (CN_TTSTAT m) 8 4) - t then
        (s.canStart m k).onCan m (fun c => { c with tried := true })
      else s.missReport m k
    else s

/-- R198. The exclusive window that ran up to `t` ends: the miss of a frame that was not started is reported, once for the window. None is reported in
restricted or monitor mode, in bus-off and on a unit that does not drive (R201). DESIGN CHOICE (log 35): with ONESHOT the window was the one attempt of
the frame, which is reported as 0x02 with REASON 0x4. -/
def windowEnd (t m : Nat) (s : State) : State :=
  let s := s.tick t
  match (s.mort m).can.cycleAt with
  | none => s
  | some c0 =>
    if !s.isCan m || t ≤ c0 then s else
    let s := s.colSync m (t - 1)
    let k := (s.window m).1
    if t == c0 + s.colEnd m (s.fld (CN_TTSTAT m) 8 4) && s.canMode m == 0 && s.fld (CN_STATUS m) 8 2 != 2 && s.exclusiveDue m k then
      let s := s.missReport m k
      if s.bit (CN_CFG m) 4 then s.canNotSent m k 4 else s
    else s

/-- R196. No reference message within 2 × BCLEN of the last: REFLOST is set and no exclusive window opens; the matrix keeps its time (R201). DESIGN
CHOICE (log 35): before the first reference message the time counts from the entry of the tenon into service, or of the matrix into force. -/
def referenceLost (t m : Nat) (s : State) : State :=
  let s := s.tick t
  if s.isCan m && s.fld (CN_TTCFG m) 0 2 == 3 && t ≥ (s.mort m).can.lastRef + 2000 * s.fld (CN_TTBC m) 0 16 then
    (s.setBit (CN_TTSTAT m) 12 true).evt (MZ_EVENT m) 30
  else s

/-! ### Begin driving (R179, R188) -/

/-- A CAN tenon begins to drive: held frames count as unsent, 11 recessive bits are awaited, the counters restart at error-active, and a
differing last processed state is reported. The lone-node state is the one last processed (R193). -/
def State.canBeginDriving (s : State) (m : Nat) : State :=
  let lone := s.bit (CN_STATUS m) 3
  let fresh := fun (o : CanObj) => { o with sent := false, spent := false, abort := false }
  let s := (s.onCan m (fun c => { c with objs := c.objs.map fresh, wire := none, recov := false, lone := lone })).canWait m s.now
  let s := ((s.setFld (CN_ERRC m) 0 9 0).setFld (CN_ERRC m) 16 8 0).setBit (CN_ERRC m) 24 false
  let s := ((s.setFld (CN_STATUS m) 8 2 0).setBit (CN_STATUS m) 10 false).txWire m
  if s.fld (CN_STATUS m) 0 2 ≠ 0 ∨ s.bit (CN_STATUS m) 2 then s.canReport m 4 0xFF 0 0 0 else s

/-! ### Processed events (R176, R185, R191 to R193, R198) -/

/-- A processed CAN port event of epoch `n` (R176, R204): it frees its object at the epoch's placement, and the covered status, counters
and event bits follow. -/
def State.canEvent (s : State) (m n : Nat) (r : Octets) : State :=
  let code := oct r 0
  let k := oct r 1
  let st := oct r 2
  let free := fun (s : State) => if k < 32 then s.onObj m k (fun o => { o with freeing := true }) else s
  match code with
  | 1 => (free s).cInc (MZ_CNT m 5)
  | 2 => (free s).cEvt (MZ_EVENT m) 27
  | 3 => (free s).cEvt (MZ_EVENT m) 27
  | 4 =>
    let old := s.fld (CN_STATUS m) 0 2
    let new := st % 4
    let s := ((s.cPut (CN_STATUS m) 0 2 new).cPut (CN_STATUS m) 2 1 (bitsN st 2 1)).cEvt (MZ_EVENT m) 21
    let s := if new == 2 then s.cEvt (MZ_EVENT m) 22 else s
    if old == 2 && new != 2 then s.cEvt (MZ_EVENT m) 23 else s
  | 5 => ((((free s).cInc (CN_CNT m 6)).cEvt (MZ_EVENT m) 24).cPut (CN_STATUS m) 3 1 1).cNotice 0x02 (m / 16) m
  | 6 => s.cPut (CN_STATUS m) 3 1 0
  | 7 =>
    let idw := leAt r 4 4
    let win := 1000000000 / s.elen
    let sus := ((s.mort m).can.suspects.filter (fun e => n ≤ e + win)) ++ [n]
    let s := ((s.cInc (CN_CNT m 4)).cPut (CN_COLLID m) 0 29 idw).cPut (CN_COLLID m) 29 1 (bitsN idw 29 1)
    if sus.length ≥ 3 then
      let s := s.onCan m (fun c => { c with suspects := [] })
      (((s.cInc (CN_COLL m)).cPut (CN_COLL m) 16 16 0).cEvt (MZ_EVENT m) 25).cNotice 0x04 (m / 16) m
    else s.onCan m (fun c => { c with suspects := sus })
  | 8 => ((s.cInc (CN_CNT m 5)).cEvt (MZ_EVENT m) 26).cNotice 0x03 (m / 16) m
  | _ => s

/-! ### Placement (R175, R176) -/

/-- Free the objects whose ending event was processed: a next slot moves up in the same step (R176). -/
def State.canFree (s : State) (m : Nat) : State :=
  (s.onCan m (fun c => { c with objs := c.objs.map (fun o =>
    if o.freeing then
      { active := o.nxt, ord := o.ord }
    else o) })).txWire m

/-- The dedicated object of an identifier, if one is configured (R174). -/
def State.dedicated (s : State) (m idw : Nat) : Option Nat :=
  (List.range 32).find? (fun k => let o := s.rdN (CN_OBJ m k); o.testBit 30 && bitsN o 0 30 == idKey idw)

/-- Place one frame (R175): the answer says whether it found room. -/
def State.canPlace (s : State) (m : Nat) (e : Egress) : Bool × State :=
  let n := (s.mort m).can.ordN
  let s := s.onCan m (fun c => { c with ordN := n + 1 })
  match s.dedicated m (recIdw e.octets) with
  | some k =>
    if (s.canObj m k).active.isNone then (true, s.onObj m k (fun o => { nxt := o.nxt, active := some e, ord := n }))
    else
      let s := if (s.canObj m k).nxt.isSome then s.cInc (CN_CNT m 7) else s
      (true, s.onObj m k (fun o => { o with nxt := some e }))
  | none =>
    match (List.range 32).find? (fun k => !(s.bit (CN_OBJ m k) 30) && (s.canObj m k).active.isNone) with
    | some k => (true, s.onObj m k (fun o => { nxt := o.nxt, active := some e, ord := n }))
    | none => (false, s)

/-- The occupancy and a pending operating mode come into force as the epoch completes (R176, R183). -/
def State.canComplete (s : State) (m : Nat) : State :=
  let s := match (s.mort m).can.pendOp with
    | some o => (s.onCan m (fun c => { c with opmode := o, pendOp := none })).setFld (CN_STATUS m) 4 2 o
    | none => s
  s.wrN (CN_TXOCC m) (s.txOcc m)

end Sys2Proof.Machine
end

