-- ==== Sys2Proof/Machine/Crypto.lean ====
section
/-! DEFINITION. Machine/Crypto.lean: the algorithms the spec takes from public standards: AES (FIPS 197), SHA-256 (FIPS 180-4), HMAC,
CMAC (NIST SP 800-38B), the key wrap of RFC 3394, GCM (NIST SP 800-38D), ECDSA over P-256 (FIPS 186) and the per-signature value of RFC 6979.
PRESUMED (log 14): the constants and steps of these standards, which the spec names and does not print. -/
namespace Sys2Proof.Machine
open Sys2Proof

/-- Octet-wise exclusive or, as long as the shorter list. -/
def xorO (a b : Octets) : Octets := List.zipWith (fun x y => x ^^^ y) a b

/-- `n` zero octets. -/
def zeros (n : Nat) : Octets := List.replicate n 0

/-! ### SHA-256 -/

/-- The round constants of SHA-256, constant t in bits [32t+31:32t]. -/
def shaK : Nat :=
  0xc67178f2bef9a3f7a4506ceb90befffa8cc7020884c8781478a5636f748f82ee * 2 ^ 1792 +
  0x682e6ff35b9cca4f4ed8aa4a391c0cb334b0bcb52748774c1e376c0819a4c116106aa070f40e3585d6990624d192e819c76c51a3c24b8b70 * 2 ^ 1344 +
  0xa81a664ba2bfe8a192722c8581c2c92e766a0abb650a735453380d134d2c6dfc2e1b213827b70a851429296706ca6351d5a79147c6e00bf3 * 2 ^ 896 +
  0xbf597fc7b00327c8a831c66d983e515276f988da5cb0a9dc4a7484aa2de92c6f240ca1cc0fc19dc6efbe4786e49b69c1c19bf1749bdc06a7 * 2 ^ 448 +
  0x80deb1fe72be5d74550c7dc3243185be12835b01d807aa98ab1c5ed5923f82a459f111f13956c25be9b5dba5b5c0fbcf71374491428a2f98
/-- The initial hash value of SHA-256. -/
def shaInit : List Word := [0x6a09e667, 0xbb67ae85, 0x3c6ef372, 0xa54ff53a, 0x510e527f, 0x9b05688c, 0x1f83d9ab, 0x5be0cd19]

/-- The schedule of one block: sixteen words extended to `n` more, the newest first. -/
def shaSched : Nat → List Word → List Word
  | 0, w => w
  | n + 1, w =>
    let a := w.getD 1 0
    let b := w.getD 14 0
    let s1 := a.rotateRight 17 ^^^ a.rotateRight 19 ^^^ (a >>> 10)
    let s0 := b.rotateRight 7 ^^^ b.rotateRight 18 ^^^ (b >>> 3)
    shaSched n ((s1 + w.getD 6 0 + s0 + w.getD 15 0) :: w)

/-- One round of SHA-256 on (a, b, c, d, e, f, g, h). -/
def shaRound (v : List Word) (wk : Word) : List Word :=
  match v with
  | [a, b, c, d, e, f, g, h] =>
    let t1 := h + (e.rotateRight 6 ^^^ e.rotateRight 11 ^^^ e.rotateRight 25) + ((e &&& f) ^^^ (~~~e &&& g)) + wk
    let t2 := (a.rotateRight 2 ^^^ a.rotateRight 13 ^^^ a.rotateRight 22) + ((a &&& b) ^^^ (a &&& c) ^^^ (b &&& c))
    [t1 + t2, a, b, c, d + t1, e, f, g]
  | _ => v

/-- The compression of one 64-octet block. -/
def shaBlock (h : List Word) (blk : Octets) : List Word :=
  let w0 := (List.range 16).map (fun i => BitVec.ofNat 32 (beAt blk (4 * i) 4))
  let ws := (shaSched 48 w0.reverse).reverse
  let k := (List.range 64).map (fun t => BitVec.ofNat 32 (bitsN shaK (32 * t) 32))
  List.zipWith (· + ·) h ((List.zipWith (· + ·) ws k).foldl shaRound h)

/-- The compression of the first `n` blocks of a message. -/
def shaBlocks : Nat → List Word → Octets → List Word
  | 0, h, _ => h
  | n + 1, h, m => shaBlocks n (shaBlock h (m.take 64)) (m.drop 64)

/-- SHA-256: 32 octets. -/
def sha256 (m : Octets) : Octets :=
  let padLen := (119 - m.length % 64) % 64
  let p := m ++ (0x80 : Byte) :: zeros padLen ++ natBE 8 (8 * m.length)
  (shaBlocks (p.length / 64) shaInit p).flatMap (fun w => natBE 4 w.toNat)

/-- HMAC with SHA-256 (RFC 2104). -/
def hmac256 (key m : Octets) : Octets :=
  let k := padTo 64 (if key.length > 64 then sha256 key else key)
  sha256 (k.map (· ^^^ 0x5c) ++ sha256 (k.map (· ^^^ 0x36) ++ m))

/-! ### AES -/

/-- The S-box of FIPS 197, octet x in bits [8x+7:8x]. -/
def aesSbox : Nat :=
  0x16bb54b00f2d99416842e6bf0d89a18cdf2855cee9871e9b948ed9691198f8e1 * 2 ^ 1792 +
  0x9e1dc186b95735610ef6034866b53e708a8bbd4b1f74dde8c6b4a61c2e2578ba08ae7a65eaf4566ca94ed58d6d37c8e779e4959162acd3c2 * 2 ^ 1344 +
  0x5c2406490a3a32e0db0b5ede14b8ee4688902a22dc4f816073195d643d7ea7c41744975fec130ccdd2f3ff1021dab6bcf5389d928f40a351 * 2 ^ 896 +
  0xa89f3c507f02f94585334d43fbaaefd0cf584c4a39becb6a5bb1fc20ed00d153842fe329b3d63b52a05a6e1b1a2c830975b227ebe2801207 * 2 ^ 448 +
  0x9a059618c323c7041531d871f1e5a534ccf73f362693fdb7c072a49cafa2d4adf04759fa7dc982ca76abd7fe2b670130c56f6bf27b777c63

/-- The inverse S-box of FIPS 197, packed as the S-box. -/
def aesInvSbox : Nat :=
  0x7d0c2155631469e126d677ba7e042b17619953833cbbebc8b0f52aae4d3be0a0 * 2 ^ 1792 +
  0xef9cc9939f7ae52d0d4ab519a97f51605fec8027591012b131c7078833a8dd1ff45acd78fec0db9a2079d2c64b3e56fc1bbe18aa0e62b76f * 2 ^ 1344 +
  0x89c5291d711af1476edf751ce837f9e28535ade72274ac9673e6b4f0cecff297eadc674f4111913a6b8a130103bdafc1020f3fca8f1e2cd0 * 2 ^ 896 +
  0x645b3b80558e4f70ad3bc8c00abd890849d8da75746155edab9edfd5048706c92b6655dcc5ca4d41698688664f6f87225d18b6d49a25b76 * 2 ^ 448 +
  0xb224d92866a12e084ec3fa420b954cee3d23c2a632947b54cbe9dec444438e3487ff2f9b8239e37cfbd7f3819ea340bf38a53630d56a0952

/-- SubBytes of one octet. -/
def aesSub (b : Byte) : Byte := BitVec.ofNat 8 (bitsN aesSbox (8 * b.toNat) 8)

/-- InvSubBytes of one octet. -/
def aesInvSub (b : Byte) : Byte := BitVec.ofNat 8 (bitsN aesInvSbox (8 * b.toNat) 8)

/-- Multiplication by x in the field of AES. -/
def xtime (b : Byte) : Byte := (b <<< 1) ^^^ (if b.getLsbD 7 then 0x1b else 0)

/-- The round constants of the key expansion, from word Nk on. -/
def aesRcon : Nat → Byte
  | 0 => 1
  | n + 1 => xtime (aesRcon n)

/-- The key schedule's words, newest first, `n` more of them; `i` is the index of the next word. -/
def aesExpand (nk : Nat) : Nat → Nat → List Octets → List Octets
  | 0, _, ws => ws
  | n + 1, i, ws =>
    let t := ws.getD 0 []
    let t := if i % nk = 0 then xorO ((t.drop 1 ++ t.take 1).map aesSub) (aesRcon (i / nk - 1) :: zeros 3)
      else if nk > 6 ∧ i % nk = 4 then t.map aesSub else t
    aesExpand nk n (i + 1) (xorO (ws.getD (nk - 1) []) t :: ws)

/-- The round keys of a 16- or 32-octet key, 16 octets each. -/
def aesKeys (key : Octets) : List Octets :=
  let nk := key.length / 4
  let w0 := (List.range nk).map (fun i => slice key (4 * i) 4)
  let flat := (aesExpand nk (4 * (nk + 7) - nk) nk w0.reverse).reverse.flatten
  (List.range (nk + 7)).map (fun r => slice flat (16 * r) 16)

/-- ShiftRows; `inv` turns the rows back. -/
def aesShift (inv : Bool) (s : Octets) : Octets :=
  (List.range 16).map (fun i => s.getD (i % 4 + 4 * ((i / 4 + (if inv then 4 - i % 4 else i % 4)) % 4)) 0)

/-- MixColumns on one column. -/
def aesMixCol (c : Octets) : Octets :=
  let a := c.getD 0 0
  let b := c.getD 1 0
  let d := c.getD 2 0
  let e := c.getD 3 0
  let f (x y z w : Byte) : Byte := xtime x ^^^ xtime y ^^^ y ^^^ z ^^^ w
  [f a b d e, f b d e a, f d e a b, f e a b d]

/-- MixColumns. -/
def aesMix (s : Octets) : Octets := (List.range 4).flatMap (fun i => aesMixCol (slice s (4 * i) 4))

/-- InvMixColumns: MixColumns three times over, since its matrix has order four. -/
def aesInvMix (s : Octets) : Octets := aesMix (aesMix (aesMix s))

/-- The rounds of the cipher but the first key addition. -/
def aesRounds : List Octets → Octets → Octets
  | [], s => s
  | [k], s => xorO (aesShift false (s.map aesSub)) k
  | k :: ks, s => aesRounds ks (xorO (aesMix (aesShift false (s.map aesSub))) k)

/-- AES encryption of one block (R403). -/
def aesEnc (key blk : Octets) : Octets :=
  match aesKeys key with
  | [] => blk
  | k :: ks => aesRounds ks (xorO (padTo 16 blk) k)

/-- The rounds of the inverse cipher, with the keys from the last. -/
def aesInvRounds : List Octets → Octets → Octets
  | [], s => s
  | [k], s => xorO ((aesShift true s).map aesInvSub) k
  | k :: ks, s => aesInvRounds ks (aesInvMix (xorO ((aesShift true s).map aesInvSub) k))

/-- AES decryption of one block (R403). -/
def aesDec (key blk : Octets) : Octets :=
  match (aesKeys key).reverse with
  | [] => blk
  | k :: ks => aesInvRounds ks (xorO (padTo 16 blk) k)

/-! ### CMAC, key derivation and key wrap -/

/-- Multiplication by x in GF(2^128) with reduction 0x87 (R407 DBL). -/
def dbl128 (b : Octets) : Octets :=
  let n := beNat b
  natBE 16 ((2 * n) % 2 ^ 128 ^^^ (if n.testBit 127 then 0x87 else 0))

/-- CBC-MAC chaining over the first `n` blocks. -/
def cbcMac (key : Octets) : Nat → Octets → Octets → Octets
  | 0, c, _ => c
  | n + 1, c, m => cbcMac key n (aesEnc key (xorO c (m.take 16))) (m.drop 16)

/-- CMAC (NIST SP 800-38B): 16 octets. -/
def cmac (key m : Octets) : Octets :=
  let k1 := dbl128 (aesEnc key (zeros 16))
  let n := max 1 (cdiv m.length 16)
  let last := m.drop (16 * (n - 1))
  let fin := if last.length = 16 then xorO last k1 else xorO (padTo 16 (last ++ [0x80])) (dbl128 k1)
  aesEnc key (xorO (cbcMac key (n - 1) (zeros 16) m) fin)

/-- The derivation of R379 from a root: `idctx` is the identity for label classes from 0xE0, else 16 zero octets. -/
def kdf (root : Octets) (k : Nat) (lbl idctx : Octets) (bits : Nat) : Octets :=
  let ctx := idctx ++ [BitVec.ofNat 8 k, 0, 0, 0]
  (List.range (bits / 128)).flatMap (fun i => cmac root (natBE 4 (i + 1) ++ lbl ++ (0 : Byte) :: ctx ++ natBE 4 bits))

/-- The unwrapping steps of RFC 3394 from step `t` down, on the integrity register and the semiblocks. -/
def unwrapSteps (kek : Octets) (n : Nat) : Nat → Octets → List Octets → Octets × List Octets
  | 0, a, r => (a, r)
  | t + 1, a, r =>
    let i := t % n
    let b := aesDec kek (natBE 8 (beNat a ^^^ (t + 1)) ++ nth r i)
    unwrapSteps kek n t (b.take 8) (updAt r i (fun _ => b.drop 8))

/-- RFC 3394 key unwrap with the default initial value: none when the integrity check fails. -/
def keyUnwrap (kek c : Octets) : Option Octets :=
  let n := c.length / 8 - 1
  let (a, r) := unwrapSteps kek n (6 * n) (c.take 8) ((List.range n).map (fun i => slice c (8 * (i + 1)) 8))
  if a = List.replicate 8 0xA6 then some r.flatten else none

/-! ### GCM -/

/-- The product in the GHASH field, bit by bit from the first: `v` runs through y, y·x, …. -/
def gmulGo : Nat → Nat → Nat → Nat → Nat
  | 0, _, _, z => z
  | n + 1, x, v, z =>
    gmulGo n x (if v.testBit 0 then (v / 2) ^^^ (0xE1 * 2 ^ 120) else v / 2) (if x.testBit n then z ^^^ v else z)

/-- GMUL of R407: the product of two blocks in the GHASH field. -/
def gmul (x y : Octets) : Octets := natBE 16 (gmulGo 128 (beNat x) (beNat y) 0)

/-- GHASH over the first `n` blocks. -/
def ghash (h : Octets) : Nat → Octets → Octets → Octets
  | 0, y, _ => y
  | n + 1, y, m => ghash h n (gmul (xorO y (m.take 16)) h) (m.drop 16)

/-- A list padded with zeros to a whole number of blocks. -/
def padBlock (m : Octets) : Octets := padTo (16 * cdiv m.length 16) m

/-- Counter mode over a message, from counter block `iv` ‖ `c`. -/
def gcmCtr (key iv : Octets) (c : Nat) : Nat → Octets → Octets
  | 0, _ => []
  | n + 1, m => xorO (m.take 16) (aesEnc key (iv ++ natBE 4 c)) ++ gcmCtr key iv (c + 1) n (m.drop 16)

/-- The encryption or decryption of GCM with a 96-bit IV. -/
def gcmCrypt (key iv m : Octets) : Octets := gcmCtr key iv 2 (cdiv m.length 16) m

/-- The tag of GCM over additional data and ciphertext. -/
def gcmTag (key iv aad ct : Octets) : Octets :=
  let h := aesEnc key (zeros 16)
  let m := padBlock aad ++ padBlock ct ++ natBE 8 (8 * aad.length) ++ natBE 8 (8 * ct.length)
  xorO (ghash h (m.length / 16) (zeros 16) m) (aesEnc key (iv ++ natBE 4 1))

/-! ### ECDSA over P-256 -/

/-- The field prime of P-256. -/
def p256p : Nat := 0xffffffff00000001000000000000000000000000ffffffffffffffffffffffff

/-- The group order of P-256. -/
def p256n : Nat := 0xffffffff00000000ffffffffffffffffbce6faada7179e84f3b9cac2fc632551

/-- The coefficient b of P-256. -/
def p256b : Nat := 0x5ac635d8aa3a93e7b3ebbd55769886bc651d06b0cc53b0f63bce3c3e27d2604b

/-- The base point of P-256. -/
def p256g : Nat × Nat :=
  (0x6b17d1f2e12c4247f8bce6e563a440f277037d812deb33a0f4a13945d898c296,
   0x4fe342e2fe1a7f9b8ee7eb4a7c0f9e162bce33576b315ececbb6406837bf51f5)

/-- `b ^ e` modulo `m`, over the low `k` bits of `e`. -/
def powMod (m b e : Nat) : Nat → Nat
  | 0 => 1 % m
  | k + 1 => let r := powMod m (b * b % m) (e / 2) k
             if e % 2 = 1 then b * r % m else r

/-- The inverse modulo a prime below 2^256. -/
def invMod (m a : Nat) : Nat := powMod m (a % m) (m - 2) 256

/-- A point of the curve; none is the point at infinity. -/
abbrev P256 : Type := Option (Nat × Nat)

/-- The sum of two points. -/
def p256Add : P256 → P256 → P256
  | none, q => q
  | p, none => p
  | some (x1, y1), some (x2, y2) =>
    let p := p256p
    if x1 = x2 ∧ (y1 + y2) % p = 0 then none
    else
      let l := if x1 = x2 then (3 * x1 * x1 + p - 3) * invMod p (2 * y1) % p
        else (y2 + p - y1) * invMod p (x2 + p - x1) % p
      let x3 := (l * l + 2 * p - x1 - x2) % p
      some (x3, (l * (x1 + p - x3) + p - y1) % p)

/-- The multiple of a point by the low `k` bits of `e`. -/
def p256Mul (e : Nat) : Nat → P256 → P256
  | 0, _ => none
  | k + 1, q => let r := p256Mul (e / 2) k (p256Add q q)
                if e % 2 = 1 then p256Add q r else r

/-- Is (x, y) a point of the curve? -/
def p256On (x y : Nat) : Bool :=
  decide (x < p256p) && decide (y < p256p) && (y * y % p256p == (x * x * x + (p256p - 3) * x + p256b) % p256p)

/-- The public key of a private key, x then y, big-endian. -/
def p256Pub (d : Nat) : Octets :=
  match p256Mul d 256 (some p256g) with
  | some (x, y) => natBE 32 x ++ natBE 32 y
  | none => zeros 64

/-- ECDSA verification: public key x ‖ y, digest, signature r ‖ s. -/
def ecdsaVerify (pub digest sig : Octets) : Bool :=
  let x := beAt pub 0 32
  let y := beAt pub 32 32
  let r := beAt sig 0 32
  let s := beAt sig 32 32
  if p256On x y && decide (0 < r) && decide (r < p256n) && decide (0 < s) && decide (s < p256n) && sig.length == 64 then
    let w := invMod p256n s
    let z := beNat (digest.take 32)
    match p256Add (p256Mul (z * w % p256n) 256 (some p256g)) (p256Mul (r * w % p256n) 256 (some (x, y))) with
    | some (x3, _) => x3 % p256n == r
    | none => false
  else false

/-- The candidates of RFC 6979 from (K, V) on: the first in range within `fuel` tries. -/
def rfc6979Go : Nat → Octets → Octets → Nat
  | 0, _, _ => 1
  | f + 1, k, v =>
    let v := hmac256 k v
    let c := beNat v
    if 0 < c ∧ c < p256n then c
    else
      let k := hmac256 k (v ++ [0])
      rfc6979Go f k (hmac256 k v)

/-- The per-signature value of RFC 6979 for private key `d` and a SHA-256 digest. -/
def rfc6979 (d : Nat) (digest : Octets) : Nat :=
  let x := natBE 32 d
  let h := natBE 32 (beNat digest % p256n)
  let v := List.replicate 32 (1 : Byte)
  let k := hmac256 (zeros 32) (v ++ (0 : Byte) :: x ++ h)
  let v := hmac256 k v
  let k := hmac256 k (v ++ (1 : Byte) :: x ++ h)
  rfc6979Go 64 k (hmac256 k v)

/-- The ECDSA signature of a digest: r then s, each 32 octets, big-endian (R402). -/
def ecdsaSign (d : Nat) (digest : Octets) : Octets :=
  let k := rfc6979 d digest
  let r := match p256Mul k 256 (some p256g) with
    | some (x, _) => x % p256n
    | none => 0
  natBE 32 r ++ natBE 32 (invMod p256n k * ((beNat digest + r * d) % p256n) % p256n)

end Sys2Proof.Machine
end

