-- ==== Sys2Proof/Machine/Keys.lean ====
section
/-! DEFINITION. Machine/Keys.lean: the key store (R368 to R402): NVKM and its commits, the root registers, derivation and the shelf, key
update packets, tamper erasure, and the Yalaemal statement. No register, window or ring reads a key (R368): keys leave only through
`derive` into a cipher run and through the statement's signature. -/
namespace Sys2Proof.Machine
open Sys2Proof

/-! ### Derivation -/

/-- The identity octets (R371). -/
def identity : Octets := natBE 16 Config.identity.toNat

/-- The test root of a slot (R381). -/
def testRoot (k : Nat) : Octets :=
  sha256 (([0x52, 0x51, 0x2D, 0x47, 0x31, 0x32, 0x38, 0x20, 0x54, 0x45, 0x53, 0x54, 0x20, 0x52, 0x4F, 0x4F, 0x54] : Octets) ++ identity ++ [BitVec.ofNat 8 k])

/-- derive(k, lbl, l) of R379 from a given root. -/
def deriveFrom (root : Octets) (k : Nat) (lbl : Octets) (bits : Nat) : Octets :=
  kdf root k lbl (if 0xE0 ≤ oct lbl 0 then identity else zeros 16) bits

/-- A slot of the contents in force (R370). -/
def State.slot (s : State) (k : Nat) : RootSlot := nth s.ks.slots k

/-- The root a derivation uses (R379, R381). -/
def State.rootOf (s : State) (k : Nat) : Octets := if s.ks.lc == 3 then testRoot k else (s.slot k).key

/-- The bit of an attribute word for a master (R376); JTAG has none. -/
def masterBit : Master → Option Nat
  | .seq => some 8
  | .pcie0 => some 9
  | .pcie1 => some 9
  | .spi => some 10
  | .scarf => some 11
  | .jtag => none

/-- Do the master and the world pass the attributes of a slot (R378)? -/
def mayAsk (attr : Nat) (ms : Master) (w : World) : Bool :=
  (match masterBit ms with
    | some b => attr.testBit b
    | none => false) && (!attr.testBit 12 || ms == .seq || w == .secure)

/-- Is the slot usable in a lifecycle state (R373, R378)? -/
def lcMay (attr lc : Nat) : Bool := decide (1 ≤ lc) && decide (lc ≤ 3) && attr.testBit (12 + lc)

/-- Is a request to derive honoured (R378)? After a tamper response none is (R397). -/
def State.mayDerive (s : State) (k : Nat) (lbl : Octets) (ms : Master) (w : World) : Bool :=
  let x := s.slot k
  let c := bitsN x.attr 16 8
  decide (k < 32) && !s.ks.cleared && x.state == 1 && x.attr.testBit 0 && mayAsk x.attr ms w && lcMay x.attr s.ks.lc &&
    (oct lbl 0 == c || (c == 0xFF && decide (oct lbl 0 ≤ 0xDE)))

/-- A request to derive (R378 to R383): the key, or none with its counts. A derivation whose tag is on the shelf takes no AES work; when
the shelf is full its oldest entry makes room (DESIGN CHOICE, log 15: the spec gives no order; only KS_CNT5 shows it). -/
def State.derive (s : State) (k : Nat) (lbl : Octets) (bits : Nat) (ms : Master) (w : World) (inEpoch : Bool) : Option Octets × State :=
  if s.mayDerive k lbl ms w then
    let g := (s.slot k).gen
    match s.ks.shelf.find? (fun e => e.slot == k && e.gen == g && e.lbl == lbl && e.bits == bits) with
    | some e => (some e.key, s)
    | none =>
      let key := deriveFrom (s.rootOf k) k lbl bits
      let shelf := if 4096 ≤ s.ks.shelf.length then s.ks.shelf.drop 1 else s.ks.shelf
      let ks := { s.ks with shelf := shelf ++ [{ slot := k, gen := g, lbl := lbl, bits := bits, key := key }] }
      (some key, { s with ks := ks }.inc (KS_CNT 5))
  else
    let s := if inEpoch then s.cInc (KS_CNT 3) else s.inc (KS_CNT 4)
    let s := s.evt KS_EVENT 10
    let a := (s.slot k).attr
    let viol := ms != .seq && (!mayAsk a ms w || !lcMay a s.ks.lc || decide (0xDF ≤ oct lbl 0))
    (none, if viol then s.violation else s)

/-- The key check value of a key in slot `k` (R391). -/
def kcvOf (root : Octets) (k : Nat) : Octets := (aesEnc (deriveFrom root k ((0xDF : Byte) :: zeros 15) 256) (zeros 16)).take 8

/-- The pair key vector of the contents in force (R391). -/
def State.keyVector (s : State) : Octets :=
  (List.range 32).flatMap (fun k =>
    let x := s.slot k
    if x.state == 1 && x.attr.testBit 0 && !s.ks.cleared then kcvOf (s.rootOf k) k ++ natLE 4 x.attr else zeros 12)

/-! ### Outcome records (R554) -/

/-- The machine with the outcome of a swap or key update command of epoch `c` in its outcome record. -/
def State.recordCmd (s : State) (c : Nat) (o : CmdOutcome) : State :=
  let l := s.ep.outcomes
  let l := if l.any (fun r => r.epoch == c) then l.map (fun r => if r.epoch == c then { r with cmds := r.cmds ++ [o] } else r)
    else l ++ [{ epoch := c, cmds := [o] }]
  { s with ep := { s.ep with outcomes := l } }

/-- The machine with its pair key vector in the outcome record of epoch `c`. -/
def State.recordVector (s : State) (c : Nat) : State :=
  let v := some s.keyVector
  let l := s.ep.outcomes
  let l := if l.any (fun r => r.epoch == c) then l.map (fun r => if r.epoch == c then { r with pairKeys := v } else r)
    else l ++ [{ epoch := c, pairKeys := v }]
  { s with ep := { s.ep with outcomes := l } }

/-! ### NVKM commits -/

/-- The bank not in force. -/
def State.nvOther (s : State) : NvBank := nth s.ks.banks (1 - s.ks.bank)

/-- The machine with KS_LASTUP and KS_LASTCNT showing an update (R393). -/
def State.showLast (s : State) (slot op outc cnt : Nat) : State :=
  (s.wrN KS_LASTUP (slot % 32 + 256 * (op % 8) + 4096 * (outc % 4))).wrN KS_LASTCNT cnt

/-- The machine with the outcome of its last update recorded. -/
def State.setLast (s : State) (u : KeyUpd) (outc : Nat) : State :=
  let s := { s with ks := { s.ks with last := some (u.slot, u.op, outc, u.counter) } }
  if s.dieOn then s.showLast u.slot u.op outc u.counter else s

/-- A slot after a change of its key or state, with its generation (R382). -/
def RootSlot.changeTo (x : RootSlot) (key : Octets) (state attr counter : Nat) : RootSlot :=
  { key := key, state := state, attr := attr, counter := counter,
    gen := if key = x.key ∧ state = x.state then x.gen else (x.gen + 1) % 2 ^ 32 }

/-- The image with a slot's counter changed. -/
def NvImage.withCounter (m : NvImage) (k c : Nat) : NvImage := { m with slots := updAt m.slots k (fun x => { x with counter := c }) }

/-- The image with an update applied (R388). -/
def NvImage.update (m : NvImage) (u : KeyUpd) : NvImage :=
  match u.op with
  | 1 => { m with slots := updAt m.slots u.slot (fun x => x.changeTo u.data 1 u.attr u.counter) }
  | 2 => { m with slots := updAt m.slots u.slot (fun x => x.changeTo (zeros 32) 0 0 u.counter) }
  | 3 => let m := m.withCounter 0 u.counter
         { m with auth := updAt m.auth u.slot (fun _ => u.data) }
  | _ => let m := m.withCounter 0 u.counter
         { m with lcNext := oct u.data 0 }

/-- The image with a commit's change applied; a tamper response changed it when it began. -/
def NvImage.apply (m : NvImage) : Commit → NvImage
  | .update u _ => m.update u
  | .floor n => { m with floor := max m.floor n }
  | .tampCfg src v => { m with tamp := updAt m.tamp src (fun _ => v) }
  | .response => m

/-- The header a commit writes first (R392): sequence plus one, slot, OP and counter of the change; zero where it has none. -/
def commitHdr (seq : Nat) : Commit → Nat × Nat × Nat × Nat
  | .update u _ => (seq + 1, u.slot, u.op, u.counter)
  | _ => (seq + 1, 0, 0, 0)

/-- Is a commit refused for wear (R395)? Tamper responses are exempt. -/
def wornFor (wear : Nat) : Commit → Bool
  | .response => false
  | _ => decide (100000 ≤ wear)

/-- The end of a staged update that never comes into force: STATE returns to 0x0. -/
def State.endUpdate (s : State) : State :=
  { s with ks := { s.ks with upd := none, effect := none } }.setFld KS_UPST 0 3 0

/-- What follows when a commit is refused for wear (R395): an F1 for a floor advance, code 0x08 for an update. -/
def State.wornCommit (s : State) : Commit → State
  | .floor _ => s.raiseFault 1 0x12 0x23 0xFF
  | .update _ true => s.endUpdate.setFld KS_UPST 8 4 8
  | _ => s

/-- Begin the first commit waiting that wear allows: its header goes into the bank not in force (R392). -/
def State.beginCommits : List Commit → State → State
  | [], s => { s with ks := { s.ks with commits := [] } }
  | c :: cs, s =>
    if wornFor s.nvOther.wear c then State.beginCommits cs (s.wornCommit c)
    else
      let h := commitHdr (nth s.ks.banks s.ks.bank).seq c
      let b := updAt s.ks.banks (1 - s.ks.bank) (fun b => { b with ok := false, hdr := some h })
      { s with ks := { s.ks with commits := c :: cs, banks := b } }

/-- Ask for a commit (R394): it takes its turn. -/
def State.commit (s : State) (c : Commit) : State :=
  match s.ks.commits with
  | [] => State.beginCommits [c] s
  | l => { s with ks := { s.ks with commits := l ++ [c] } }

/-- The bank not in force takes the image with its marker and comes into force (R392, R393, R395). -/
def State.flipBank (s : State) : State :=
  let o := 1 - s.ks.bank
  let seq := (nth s.ks.banks s.ks.bank).seq + 1
  let was := s.nvOther.wear
  let img := s.ks.cur
  let b := updAt s.ks.banks o (fun b => { b with seq := seq, ok := true, img := img, wear := was + 1 })
  let s := { s with ks := { s.ks with banks := b, bank := o } }
  if was + 1 == 95000 && s.dieOn then s.evt KS_EVENT 8 else s

/-- The contents of an update come into force in the root registers (R370, R388); keys stay zeroised after a tamper response (R397). -/
def KeyStore.take (k : KeyStore) (u : KeyUpd) : KeyStore :=
  match u.op with
  | 3 => { k with auth := updAt k.auth u.slot (fun _ => nth k.cur.auth u.slot), slots := updAt k.slots 0 (fun x => { x with counter := u.counter }) }
  | 4 => { k with lcNext := k.cur.lcNext, slots := updAt k.slots 0 (fun x => { x with counter := u.counter }) }
  | _ =>
    let y := nth k.cur.slots u.slot
    let y := if k.cleared then { y with key := zeros 32 } else y
    { k with slots := updAt k.slots u.slot (fun _ => y) }

/-- An update comes into force (R388); `cov` when an epoch is processed, so that its count and event are covered. -/
def State.takeUpdate (s : State) (u : KeyUpd) (cov : Bool) : State :=
  let s := { s with ks := s.ks.take u }.endUpdate
  if cov then (s.cInc (KS_CNT 0)).cEvt KS_EVENT 5 else (s.inc (KS_CNT 0)).evt KS_EVENT 5

/-- An update is abandoned (R389): F3 and KS_EVENT.ABANDON; a commit under way goes on, but no longer for this update. -/
def State.abandon (s : State) : State :=
  let dead : Commit → Commit := fun c => match c with
    | .update u _ => .update u false
    | c => c
  let s := { s with ks := { s.ks with commits := s.ks.commits.map dead } }.endUpdate
  (s.evt KS_EVENT 6).raiseFault 3 0x35 0x23 0xFF

/-- What a completed update commit does (R388): STATE 0x4, or in force at once when no effect epoch was named. -/
def State.updateCommitted (s : State) (u : KeyUpd) (live : Bool) : State :=
  let s := s.setLast u 1
  if live then
    match s.ks.effect with
    | some _ => s.setFld KS_UPST 0 3 4
    | none => s.takeUpdate u false
  else s

/-- NVKM_COMMIT_COMPLETE: the sill die finishes the commit in progress (R392, R394), or NVKM reports a failure (R389). -/
def State.nvkmCommitComplete (t : Nat) (ok : Bool) (s : State) : State :=
  match s.ks.commits with
  | [] => s
  | c :: rest =>
    let s := s.tick t
    let s :=
      if ok then
        let s := { s with ks := { s.ks with cur := s.ks.cur.apply c } }.flipBank
        match c with
        | .update u live => s.updateCommitted u live
        | _ => s
      else
        match c with
        | .update _ true => s.abandon
        | _ => s
    State.beginCommits rest s

/-- The floor advances (R95): it never decreases. -/
def State.advanceFloor (s : State) (n : Nat) : State := if s.ks.cur.floor < n then s.commit (.floor n) else s

/-! ### Key update packets -/

/-- Is an attribute word valid for a slot (R377)? -/
def attrOk (slot a : Nat) : Bool :=
  let lc := bitsN a 16 8
  bitsN a 3 5 == 0 && bitsN a 24 8 == 0 &&
  (if slot = 0 then a.testBit 1 && bitsN a 8 16 == 0 && !a.testBit 0
   else !a.testBit 1 && (decide (lc ≤ 0xDE) || lc == 0xFF))

/-- The OPs a lifecycle state accepts, and the targets of OP 0x04 (R373). -/
def lcOps : Nat → List Nat × List Nat
  | 0 => ([1, 2, 3, 4], [1, 4])
  | 1 => ([1, 2, 3, 4], [2, 4])
  | 2 => ([1, 2, 3, 4], [3, 4])
  | 3 => ([4], [2, 4])
  | _ => ([], [])

/-- Check 1 of R386: format. -/
def packetFormat (p : Octets) : Bool :=
  let op := oct p 5
  let slot := oct p 6
  slice p 0 4 == [0x52, 0x51, 0x4B, 0x55] && oct p 4 == 1 && oct p 7 == 0 &&
  (match op with
    | 1 => decide (slot < 32)
    | 2 => decide (slot < 32) && (slice p 0x20 40).all (· == 0)
    | 3 => decide (slot < 2) && (slice p 0x40 8).all (· == 0)
    | 4 => slot == 0 && (slice p 0x21 39).all (· == 0)
    | _ => false) && (op == 1 || leAt p 0x1C 4 == 0)

/-- The label of the tag key (`c` = 0xE1) or of the wrapping key (0xE2) of a packet (R385). -/
def packetLabel (c : Byte) (p : Octets) : Octets :=
  [c, BitVec.ofNat 8 (oct p 6), BitVec.ofNat 8 (oct p 5), 0] ++ natBE 4 (leAt p 0x18 4) ++ zeros 8

/-- The checks of R386 in order: the code of the first that fails (0 for none), with the update the packet spells. -/
def State.packetChecks (s : State) (p : Octets) : Nat × KeyUpd :=
  let op := oct p 5
  let slot := oct p 6
  let cnt := leAt p 0x18 4
  let attr := leAt p 0x1C 4
  let tgt := oct p 0x20
  let u : KeyUpd := { op := op, slot := slot, counter := cnt, attr := attr, data := slice p 0x20 32 }
  let s0 := nth s.ks.cur.slots 0
  let stored := (nth s.ks.cur.slots (if op ≤ 2 then slot else 0)).counter
  let (ops, tgts) := lcOps s.ks.lc
  let noKey := s.ks.cleared || !(s0.state == 1 || s0.state == 3)
  if !packetFormat p then (1, u)
  else if slice p 8 16 != identity then (2, u)
  else if !ops.contains op || (op == 4 && (!tgts.contains tgt || (tgt == 1 && s0.state == 3))) then (3, u)
  else if cnt ≤ stored then (4, u)
  else if noKey || cmac (deriveFrom s0.key 0 (packetLabel 0xE1 p) 256) (p.take 0x48) != slice p 0x48 16 then (5, u)
  else
    let key := if op == 1 then keyUnwrap (deriveFrom s0.key 0 (packetLabel 0xE2 p) 256) (slice p 0x20 40) else some u.data
    match key with
    | none => (6, u)
    | some k =>
      let u := { u with data := k }
      if op == 1 && !attrOk slot attr then (7, u)
      else if decide (100000 ≤ s.nvOther.wear) then (8, u)
      else (0, u)

/-- The packet in KS_UPBUF. -/
def State.packet (s : State) : Octets := (List.range 22).flatMap (fun k => natLE 4 (s.rdN (KS_UPBUF k)))

/-- KEY_PACKET_CHECK: the check starts; ignored while STATE is not 0x0 (R387). -/
def State.keyPacketCheck (t : Nat) (s : State) : State :=
  if s.dieOn && s.fld KS_UPST 0 3 == 0 then (s.tick t).setFld KS_UPST 0 3 1 else s

/-- KEY_CHECK_COMPLETE: the check ends (R386, R387). -/
def State.keyCheckComplete (t : Nat) (s : State) : State :=
  if s.dieOn && s.fld KS_UPST 0 3 == 1 then
    let s := s.tick t
    let (code, u) := s.packetChecks s.packet
    let s := ((s.setFld KS_UPST 8 4 code).setFld KS_UPST 16 5 u.slot).setFld KS_UPST 24 3 u.op
    if code == 0 then
      let s := ({ s with ks := { s.ks with upd := some u, effect := none } }.setFld KS_UPST 0 3 2).evt KS_EVENT 0
      if u.op == 1 then
        let v := kcvOf u.data u.slot
        (s.wrN KS_UPKCV_L (leAt v 0 4)).wrN KS_UPKCV_H (leAt v 4 4)
      else s
    else ((s.setFld KS_UPST 0 3 0).evt KS_EVENT 1).inc (KS_CNT 2)
  else s

/-- KEY_PACKET_DISCARD: a staged packet is discarded; ignored from STATE 0x3 (R387). -/
def State.keyPacketDiscard (s : State) : State :=
  if s.dieOn && s.fld KS_UPST 0 3 == 2 then s.endUpdate else s

/-- D of R388: 50 ms in epochs. -/
def State.keyLead (s : State) : Nat := cdiv 50000000 s.elen

/-- The commit of the staged packet begins (R388), for effect epoch `eff` (none: in force as soon as it completes). -/
def State.startUpdate (s : State) (u : KeyUpd) (eff : Option Nat) : State :=
  ({ s with ks := { s.ks with effect := eff } }.setFld KS_UPST 0 3 3).commit (.update u true)

/-- KEY_UPDATE_APPLY: a write of KS_UPEP_H with OP 0x1 for effect epoch `a`, in the processing of epoch `c`, or at once in Raise and Bench
(R388). The outcome of a command of an epoch goes into the outcome record (R554). -/
def State.keyUpdateApply (c a : Nat) (s : State) : State :=
  let staged := if s.fld KS_UPST 0 3 == 2 then s.ks.upd else none
  if s.atOnce then
    match staged with
    | some u => (s.startUpdate u none).evt KS_EVENT 2
    | none => (s.evt KS_EVENT 4).inc (KS_CNT 1)
  else if s.serving then
    match staged with
    | none => ((s.cEvt KS_EVENT 4).cInc (KS_CNT 1)).recordCmd c { swap := false, accepted := false, event := 4 }
    | some u =>
      if a < c + s.keyLead then ((s.cEvt KS_EVENT 3).cInc (KS_CNT 1)).recordCmd c { swap := false, accepted := false, event := 3 }
      else ((s.startUpdate u (some a)).cEvt KS_EVENT 2).recordCmd c { swap := false, accepted := true }
  else s

/-- KEY_UPDATE_IN_FORCE: the start of epoch `n`, before its first input (R388): the committed contents come into force, or the update is
abandoned (R389). At the effect epoch the pair key vector goes into the outcome record (R391). -/
def State.keyUpdateInForce (n : Nat) (s : State) : State :=
  match s.ks.upd with
  | some u =>
    if s.ks.effect == some n then
      if s.fld KS_UPST 0 3 == 4 then (s.takeUpdate u true).recordVector n
      else if s.fld KS_UPST 0 3 == 3 then s.abandon.recordVector n else s
    else s
  | none => s

/-- SHELF_ENTRY_ZEROISE: entry `k` of the shelf, when its generation is no longer in force (R383). -/
def State.shelfEntryZeroise (k : Nat) (s : State) : State :=
  match s.ks.shelf[k]? with
  | some e => if e.gen != (s.slot e.slot).gen then { s with ks := { s.ks with shelf := s.ks.shelf.eraseIdx k } } else s
  | none => s

/-! ### The start of the frame die -/

/-- The bank in force at a start (R393): the higher sequence among those whose marker and image are valid. -/
def pickBank (banks : List NvBank) : Nat :=
  let a := nth banks 0
  let b := nth banks 1
  if b.ok && (!a.ok || decide (a.seq < b.seq)) then 1 else 0

/-- VSILL is lost: the sill die will take the image of the bank in force, and a commit the loss interrupts is gone (R389, R393). -/
def KeyStore.power (k : KeyStore) : KeyStore :=
  let b := pickBank k.banks
  { k with bank := b, cur := (nth k.banks b).img, commits := [] }

/-- The erasure when Retired takes force (R374): every slot and both digests. -/
def NvImage.retire (m : NvImage) : NvImage :=
  { m with slots := m.slots.map (fun x => x.changeTo (zeros 32) 0 0 x.counter), auth := List.replicate 2 (zeros 32) }

/-- The lifecycle takes force at a start (R374); Retired erases in one commit, exempt from wear. -/
def State.lifecycleStart (s : State) : State :=
  let m := s.ks.cur
  if m.lcNext == m.lc then s
  else if m.lcNext == 4 then { s with ks := { s.ks with cur := { m with lc := 4 }.retire } }.flipBank
  else { s with ks := { s.ks with cur := { m with lc := m.lcNext } } }

/-- Was an update interrupted (R393): the other bank has a valid header with a higher sequence and no valid marker? -/
def State.interrupted (s : State) : Bool :=
  match s.nvOther.hdr with
  | some (q, _, op, _) => decide ((nth s.ks.banks s.ks.bank).seq < q) && !s.nvOther.ok && op != 0 && s.ks.commits.isEmpty
  | none => false

/-- What the start of the frame die does to the key store (R370, R374, R383, R393, R398): lifecycle, root registers, an empty shelf, the record
of the last update, and tamper events that came while the frame die was off. -/
def State.ksStart (s : State) : State :=
  let s := s.lifecycleStart
  let m := s.ks.cur
  let ks := { s.ks with lc := m.lc, lcNext := m.lcNext, slots := m.slots, auth := m.auth, cleared := false, upd := none, effect := none }
  let s := { s with ks := { ks with shelf := [], att := none } }
  let s := match s.nvOther.hdr.filter (fun _ => s.interrupted), s.ks.last with
    | some (_, sl, op, cnt), _ => s.showLast sl op 2 cnt
    | none, some (sl, op, r, cnt) => s.showLast sl op r cnt
    | none, none => s.showLast 0 0 0 0
  let n := s.ks.tamperPend
  let s := { s with ks := { s.ks with last := none, tamperPend := 0 } }
  if n == 0 then s else (s.evt KS_EVENT 7).inc (KS_CNT 6) n

/-! ### Tamper -/

/-- Slots a tamper response erases: ETAMP set and holding a key (R396, R397). -/
def RootSlot.tampered (x : RootSlot) : Bool := x.attr.testBit 2 && (x.state == 1 || x.state == 3)

/-- A slot after a tamper response (R375, R382): erased, with zero attributes; its counter stays. -/
def RootSlot.erase (x : RootSlot) : RootSlot := if x.tampered then x.changeTo (zeros 32) 2 0 x.counter else x

/-- The image after a tamper response (R397, R398): ETAMP slots erased, the log entry written over the oldest, the count advanced. -/
def NvImage.tamper (m : NvImage) (t src mode : Nat) : NvImage :=
  let n := (m.slots.filter RootSlot.tampered).length
  let e := (t, src % 8 + 8 + 16 * mode + 256 * n)
  { m with slots := m.slots.map RootSlot.erase, tlog := updAt m.tlog m.tnext (fun _ => e), tnext := (m.tnext + 1) % 8, tcount := min 0xFFFFFFFF (m.tcount + 1) }

/-- The commits after a tamper response (R394): an update in progress is preempted and never carried out again, any other preempted commit
takes its turn again, and the response goes first. -/
def tamperQueue : List Commit → List Commit
  | .update _ _ :: cs => .response :: cs
  | cs => .response :: cs

/-- The update whose commit a tamper response preempts. -/
def State.preempted (s : State) : Option (KeyUpd × Bool) :=
  match s.ks.commits with
  | .update u live :: _ => some (u, live)
  | _ => none

/-- What a tamper response does to NVKM in every mode (R394, R397, R398). -/
def State.tamperErase (t src : Nat) (s : State) : State :=
  let s := match s.preempted with
    | some (u, live) =>
      let s := s.setLast u 3
      if live then s.endUpdate.evt KS_EVENT 6 else s
    | none => s
  let q := tamperQueue s.ks.commits
  let s := { s with ks := { s.ks with cur := s.ks.cur.tamper t src (modeCode s.mode) } }
  State.beginCommits q s

/-- What a tamper response does to the root registers, the shelf, a check and a host job (R397, R427): zeroised and aborted. -/
def State.tamperClear (s : State) : State :=
  let slots := s.ks.slots.map (fun x => { x.erase with key := zeros 32 })
  let s := { s with ks := { s.ks with cleared := true, shelf := [], slots := slots } }
  let s := if s.fld KS_UPST 0 3 == 1 then s.endUpdate else s
  let s := (s.evt KS_EVENT 7).inc (KS_CNT 6)
  if s.bit CP_HJCTL 2 then
    let s := { s with cp := { s.cp with job := none } }.setBit CP_HJCTL 2 false
    (((s.wrN (CP_HJOUT 0) 0).wrN (CP_HJOUT 1) 0).wrN (CP_HJOUT 2) 0).wrN (CP_HJOUT 3) 0
  else (((s.wrN (CP_HJOUT 0) 0).wrN (CP_HJOUT 1) 0).wrN (CP_HJOUT 2) 0).wrN (CP_HJOUT 3) 0

/-- TAMPER_CONFIG_WRITE: a write of KS_TAMPCFG in Blank or Provisioned is a commit (R396). -/
def State.tamperConfigWrite (src : Nat) (val : Word) (s : State) : State :=
  if s.dieOn && decide (src < 6) && decide (s.ks.lc ≤ 1) then s.commit (.tampCfg src (val.toNat &&& 0xFF07)) else s

/-! ### The Yalaemal statement -/

/-- The key manifest (R401). -/
def State.manifest (s : State) : Octets :=
  ((List.range 32).flatMap (fun k =>
    let x := s.slot k
    [BitVec.ofNat 8 k, BitVec.ofNat 8 x.state, 0, 0] ++ natLE 4 x.attr ++ natLE 4 x.counter)) ++ nth s.ks.auth 0 ++ nth s.ks.auth 1

/-- The fields of a statement before SIG (R400). -/
def State.statement (s : State) : Octets :=
  let words (f : Nat → Nat) := (List.range 8).flatMap (fun i => natLE 4 (s.rdN (f i)))
  let debug := b2n (s.ks.lc == 3) + 2 * b2n (s.ks.lcNext != s.ks.lc) + 4 * b2n (s.bit FR_STATUS 4)
  ([0x59, 0x4C, 0x4D, 0x4C] : Octets) ++ natLE 2 1 ++ natLE 2 0xD8 ++ identity ++
  [BitVec.ofNat 8 s.ks.lc, BitVec.ofNat 8 debug, 0xB0, (if s.grade == .q2 then 1 else 2), BitVec.ofNat 8 (modeCode s.mode), 0, 0, 0] ++
  words FR_DIG ++ sha256 s.manifest ++ natLE 4 (s.rdN FR_COUNTER) ++ natLE 4 s.ks.cur.floor ++
  natLE 4 (nth s.ks.banks s.ks.bank).seq ++ natLE 4 s.ks.cur.tcount ++ natLE 6 (s.ep.cur.getD 0) ++ zeros 2 ++ words KS_NONCE

/-- The machine with the octets of a statement in KS_STMT. -/
def State.putStatement (s : State) (d : Octets) : State :=
  (List.range 54).foldl (fun s k => s.wrN (KS_STMT k) (leAt d (4 * k) 4)) s

/-- ATTESTATION_REQUEST: the nonce and the other fields are captured, and the buffer reads zero while VALID is clear; ignored while BUSY is
set (R399). -/
def State.attestationRequest (t : Nat) (s : State) : State :=
  if s.dieOn && !s.bit KS_ATTCTL 1 then
    let s := s.tick t
    (({ s with ks := { s.ks with att := some s.statement } }.putStatement (zeros 216)).setBit KS_ATTCTL 2 false).setBit KS_ATTCTL 1 true
  else s

/-- STATEMENT_READY: the signed statement is written (R399, R402). -/
def State.statementReady (t : Nat) (s : State) : State :=
  match s.ks.att with
  | some d =>
    let s := (s.tick t).putStatement (d ++ ecdsaSign Config.attestKey.toNat (sha256 d))
    let s := { s with ks := { s.ks with att := none } }
    (((s.setBit KS_ATTCTL 1 false).setBit KS_ATTCTL 2 true).evt KS_EVENT 9).inc (KS_CNT 7)
  | none => s

/-! ### Registers the key store computes -/

/-- KS_STATUS. -/
def State.ksStatus (s : State) : Nat :=
  let w0 := (nth s.ks.banks 0).wear
  let w1 := (nth s.ks.banks 1).wear
  s.ks.lc + 8 * b2n (s.ks.lc == 3) + 16 * s.ks.lcNext + 128 * s.ks.bank + 256 * b2n (decide (95000 ≤ max w0 w1)) +
  512 * b2n (decide (100000 ≤ s.nvOther.wear)) + 1024 * b2n (s.bit KS_STATUS 10) + 2048 * b2n s.ks.cleared

/-- A KS register whose value the key store computes, by offset; none for a register that holds its own. -/
def State.ksView (s : State) (a : Nat) : Option Nat :=
  if a < KS_ID 0 then none
  else if a ≤ KS_ID 3 then some (leAt identity (a - KS_ID 0) 4)
  else if a = KS_STATUS then some s.ksStatus
  else if a = KS_NVSEQ then some (nth s.ks.banks s.ks.bank).seq
  else if a = KS_NVWEAR 0 then some (nth s.ks.banks 0).wear
  else if a = KS_NVWEAR 1 then some (nth s.ks.banks 1).wear
  else if KS_ATTPUB 0 ≤ a ∧ a ≤ KS_ATTPUB 15 then some (leAt (p256Pub Config.attestKey.toNat) (a - KS_ATTPUB 0) 4)
  else if KS_SLOTA 0 ≤ a ∧ a ≤ KS_SLOTA 31 then some (s.slot ((a - KS_SLOTA 0) / 4)).attr
  else if KS_SLOTC 0 ≤ a ∧ a ≤ KS_SLOTC 31 then some (s.slot ((a - KS_SLOTC 0) / 4)).counter
  else if KS_SLOTS 0 ≤ a ∧ a ≤ KS_SLOTS 31 then
    let x := s.slot ((a - KS_SLOTS 0) / 4)
    some (x.state + 256 * (x.gen % 2 ^ 24))
  else if KS_AUTH 0 0 ≤ a ∧ a ≤ KS_AUTH 1 7 then some (leAt (nth s.ks.auth 0 ++ nth s.ks.auth 1) (a - KS_AUTH 0 0) 4)
  else if KS_MANIF 0 ≤ a ∧ a ≤ KS_MANIF 7 then some (leAt (sha256 s.manifest) (a - KS_MANIF 0) 4)
  else if KS_TAMPCFG 0 ≤ a ∧ a ≤ KS_TAMPCFG 5 then some (nth s.ks.cur.tamp ((a - KS_TAMPCFG 0) / 4))
  else if a = KS_TCOUNT then some s.ks.cur.tcount
  else if KS_TLOG_T0 0 ≤ a ∧ a ≤ KS_TLOG_INFO 7 then
    let e := nth s.ks.cur.tlog ((a - KS_TLOG_T0 0) / 16)
    match (a - KS_TLOG_T0 0) % 16 with
    | 0 => some (e.1 % 2 ^ 32)
    | 4 => some (e.1 / 2 ^ 32 % 2 ^ 32)
    | 8 => some e.2
    | _ => none
  else none

end Sys2Proof.Machine
end

