-- ==== Sys2Proof/Machine/Sect.lean ====
section
/-! DEFINITION. Machine/Sect.lean: run records of bent sections (R301): each copies COUNT units of one region from the section's data. -/
namespace Sys2Proof.Machine
open Sys2Proof

/-- A run record: region, first index, count and offset of its data. -/
structure RunRec where
  region : Nat
  first : Nat
  count : Nat
  off : Nat
  deriving DecidableEq, Repr

/-- Run record `k` of a section (16 octets each from offset 0x200). -/
def runRec (sect : Octets) (k : Nat) : RunRec :=
  let o := 0x200 + 16 * k
  { region := oct sect o, first := leAt sect (o + 4) 4, count := leAt sect (o + 8) 4, off := leAt sect (o + 12) 4 }

/-- The run records of a section whose head holds their number at `at_`. -/
def runRecs (sect : Octets) (at_ : Nat) : List RunRec := (List.range (leAt sect at_ 4)).map (runRec sect)

/-- Is every run inside the section, with the unit sizes `size` of its region (0: no such region)? -/
def runsOk (sect : Octets) (at_ : Nat) (size : Nat → Nat) : Bool :=
  decide (0x200 + 16 * leAt sect at_ 4 ≤ sect.length) &&
  (runRecs sect at_).all (fun r => size r.region != 0 && decide (r.off + r.count * size r.region ≤ sect.length))

/-- Every unit written in a region, as (index, octets), in the order of the runs: of two writes of one unit the later stands. -/
def runUnits (sect : Octets) (at_ region size : Nat) : List (Nat × Octets) :=
  ((runRecs sect at_).filter (fun r => r.region == region)).flatMap (fun r =>
    (List.range r.count).map (fun i => (r.first + i, slice sect (r.off + i * size) size)))

/-- One unit of a region, if any run writes it. -/
def runUnit (sect : Octets) (at_ region size i : Nat) : Option Octets :=
  (((runRecs sect at_).filter (fun r => r.region == region && decide (r.first ≤ i) && decide (i < r.first + r.count))).getLast?).map
    (fun r => slice sect (r.off + (i - r.first) * size) size)

end Sys2Proof.Machine
end

