-- ==== Sys2Proof/Machine/Cipher.lean ====
section
/-! DEFINITION. Machine/Cipher.lean: the cipher engine (R403 to R429): recipes and the sequencer, profiles and freshness counters,
verification and protection of secured PDUs, MACsec with its cut-through release, commands, the KB0 section, and the host job. -/
namespace Sys2Proof.Machine
open Sys2Proof

/-- Freshness region (R415, R506). -/
abbrev cpFresh : Nat := 0x981 * 2 ^ 20
/-- Profile banks (R412, R506): 1,024 profiles of 32 octets each, bank 0 first. -/
abbrev cpProfs : Nat := 0x982 * 2 ^ 20

/-! ### Recipes (R406 to R408) -/

/-- Recipe `r` in force; an absent one has CLASS 0x0. -/
def State.recipe (s : State) (r : Nat) : Recipe := (assoc s.cp.recipes r).getD {}

/-- The octets of step `i` as a number; a step no run writes is END. -/
def stepAt (steps : List (Nat × Nat)) (i : Nat) : Nat := (assoc steps i).getD 0

/-- OP of a step. -/
def stepOp (st : Nat) : Nat := st % 256

/-- The steps of a recipe from `i` up to and without its END: none when the store ends first. -/
def recipeWalk (steps : List (Nat × Nat)) : Nat → Nat → Option (List (Nat × Nat))
  | 0, _ => none
  | f + 1, i =>
    if 8192 ≤ i then none
    else
      let st := stepAt steps i
      if stepOp st = 0 then some [] else (recipeWalk steps f (i + 1)).map (fun l => (i, st) :: l)

/-- ENC and DEC steps. -/
def isBlockStep (st : Nat) : Bool := stepOp st == 2 || stepOp st == 3

/-- Does a recipe pass R408? -/
def recipeOk (steps : List (Nat × Nat)) (r : Recipe) : Bool :=
  match recipeWalk steps 8193 r.first with
  | none => false
  | some l =>
    let loops := (l.filter (fun p => stepOp p.2 == 0x0D)).map (fun p => (bitsN p.2 16 16, p.1))
    let inLoop (i : Nat) := loops.any (fun b => decide (b.1 ≤ i) && decide (i < b.2))
    let body (b : Nat × Nat) := (List.range (b.2 - b.1)).map (fun k => stepAt steps (b.1 + k))
    l.all (fun p => decide (stepOp p.2 ≤ 0x0D)) &&
    loops.all (fun b => decide (b.1 < b.2) && ((body b).filter (fun st => stepOp st == 5)).length == 1 &&
      ((body b).filter isBlockStep).length == r.bper) &&
    ((l.filter (fun p => !inLoop p.1 && isBlockStep p.2)).length == r.bfix) &&
    (r.bper == 0 || !loops.isEmpty)

/-! ### The sequencer (R407) -/

/-- What a run gives the sequencer: the message, the working key, the IV and length blocks, the MAC length in bits, and the received tag
that a checking run compares with. -/
structure RunIn where
  msg : Octets
  key : Octets
  iv : Octets
  len : Octets
  mac : Nat
  got : Option Nat

/-- The effect of one step other than END and LOOP. -/
def seqStep (x : RunIn) (q : Sequencer) (st : Nat) : Sequencer :=
  let d := bitsN st 8 4 % 8
  let r := nth q.regs d
  let src := nth q.regs (bitsN st 12 4 % 8)
  let put (v : Octets) : Sequencer := { q with regs := updAt q.regs d (fun _ => v) }
  match stepOp st with
  | 2 => put (aesEnc x.key src)
  | 3 => put (aesDec x.key src)
  | 4 => put (xorO r src)
  | 5 => { put (padTo 16 (slice x.msg q.msg 16)) with msg := q.msg + 16, last := decide (x.msg.length ≤ q.msg + 16) }
  | 6 => if x.msg.length < q.msg then put (putOcts r (16 - (q.msg - x.msg.length)) [0x80]) else q
  | 7 => put (dbl128 src)
  | 8 => put (gmul r src)
  | 9 => put (match bitsN st 16 8 with
      | 1 => x.iv
      | 2 => x.len
      | _ => zeros 16)
  | 0x0A => put (r.take 12 ++ natBE 4 ((beAt r 12 4 + 1) % 2 ^ 32))
  | 0x0B => { q with out := q.out + 16, emit := q.emit ++ xorO src (padTo 16 (slice x.msg q.msg 16)) }
  | 0x0C =>
    let tag := beNat src >>> (128 - x.mac)
    match x.got with
    | none => { q with tag := some tag }
    | some g => { q with good := some (tag == g) }
  | _ => q

/-- Run the steps from `i`, at most `fuel` of them: the registers, pointers and LAST flag a run leaves. -/
def seqRun (steps : List (Nat × Nat)) (x : RunIn) : Nat → Nat → Sequencer → Sequencer
  | 0, _, q => q
  | f + 1, i, q =>
    let st := stepAt steps i
    match stepOp st with
    | 0 => q
    | 0x0D => seqRun steps x f (if q.last then i + 1 else bitsN st 16 16) q
    | _ => seqRun steps x f (i + 1) (seqStep x q st)

/-- The machine after the sequencer ran a recipe: the registers, the output octets, the tag and the result the run leaves. What a run gives
a record or a frame is what R414 and R419 lay down. -/
def State.sequence (s : State) (r : Recipe) (x : RunIn) : State :=
  let q := seqRun s.cp.steps x (8192 * (cdiv x.msg.length 16 + 2)) r.first { regs := s.cp.seq.regs, last := decide (x.msg.length = 0) }
  { s with cp := { s.cp with seq := q } }

/-! ### Profiles (R412, R413) -/

/-- The profile bank in force. -/
def State.pbank (s : State) : Nat := b2n (s.bit CP_STATUS 1)

/-- Address of a profile in a bank. -/
def profAddr (bank i : Nat) : Nat := cpProfs + 32768 * bank + 32 * i

/-- Profile `i` in force. -/
def State.profile (s : State) (i : Nat) : Octets := s.memO (profAddr s.pbank i) 32

/-- VALID. -/
def pValid (p : Octets) : Bool := (oct p 0).testBit 0
/-- KIND: 0x0 secured PDU, 0x1 MACsec with confidentiality, 0x2 integrity only. -/
def pKind (p : Octets) : Nat := bitsN (oct p 0) 2 2
/-- RAV. -/
def pRav (p : Octets) : Bool := (oct p 0).testBit 1
/-- Length of the working key in bits. -/
def pBits (p : Octets) : Nat := if (oct p 2).testBit 7 then 256 else 128
/-- MACLEN. -/
def pMac (p : Octets) : Nat := oct p 3
/-- FVLEN. -/
def pFv (p : Octets) : Nat := oct p 4
/-- FVFULL. -/
def pFull (p : Octets) : Nat := oct p 5
/-- FVIDX. -/
def pIdx (p : Octets) : Nat := leAt p 8 2
/-- ACCW. -/
def pAccw (p : Octets) : Nat := leAt p 0x0A 2
/-- AUTHLEN. -/
def pAuth (p : Octets) : Nat := leAt p 0x0E 2
/-- LABEL. -/
def pLabel (p : Octets) : Octets := slice p 0x10 16
/-- Octets of a secured PDU's trailer (R414). -/
def pTrail (p : Octets) : Nat := cdiv (pFv p + pMac p) 8

/-- Recipe classes that suit a KIND (R413). -/
def kindSuits (kind cls : Nat) : Bool :=
  match kind with
  | 0 => cls == 1 || cls == 2
  | 1 => cls == 3 || cls == 4 || cls == 5
  | 2 => cls == 1 || cls == 2
  | _ => false

/-- Does a profile pass R413 over the recipes `cls`? One with VALID clear is not checked. -/
def profOk (cls : Nat → Nat) (p : Octets) : Bool :=
  !pValid p ||
  (bitsN (oct p 0) 4 4 == 0 && bitsN (oct p 0x0C) 2 6 == 0 && bitsN (oct p 2) 5 2 == 0 && oct p 0x0D == 0 &&
   kindSuits (pKind p) (cls (oct p 1)) && decide (pFv p ≤ pFull p) && decide (oct p 0x10 ≤ 0xDE) &&
   (if pKind p = 0 then decide (8 ≤ pMac p) && decide (pMac p ≤ 128) && decide (8 ≤ pFull p) && decide (pFull p ≤ 56) && decide (pFv p ≤ 56)
    else pMac p == 128 && pFv p == 32 && pFull p == 32 && pAuth p == 0))

/-! ### Freshness counters (R415) -/

/-- The value of a counter. -/
def State.fresh7 (s : State) (i : Nat) : Nat := s.memN (cpFresh + 8 * i) 7

/-- SYNC of a counter. -/
def State.synced (s : State) (i : Nat) : Bool := (s.memB (cpFresh + 8 * i + 7)).getLsbD 0

/-- The machine with a counter's value stored. -/
def State.putFresh (s : State) (i v : Nat) : State := s.memWN (cpFresh + 8 * i) 7 v

/-! ### Cost (R405, R407, R410, R411) -/

/-- BLKB: recipe blocks per epoch. -/
def State.blkb (s : State) : Nat := (8 - s.fld CP_CFG 4 3) * s.fld EP_BUDGET 0 16 / (1 + s.fld CP_CFG 0 3)

/-- The declared cipher cost of an input's CLASS and PORT, in the order of R301. -/
def State.cipherCost (s : State) (cls port : Nat) : Nat :=
  let i := match cls with
    | 0 => 144
    | 1 => 128 + port
    | 2 => port
    | _ => 140 + port
  s.fld (CP_PCOST (i / 2)) (16 * (i % 2)) 16

/-- Blocks of a run over `n` octets, its derivation included (R407, R380). -/
def State.runBlocks (s : State) (p : Octets) (n : Nat) : Nat :=
  let r := s.recipe (oct p 1)
  r.bfix + r.bper * cdiv n 16 + (if pBits p = 256 then 7 else 4)

/-- Octets of the message of a secured PDU (R414). -/
def pduMsgLen (p : Octets) : Nat := 2 + pAuth p + cdiv (pFull p) 8

/-- Is profile `i` usable for a secured PDU with a recipe of CLASS `cls` (the first steps of R416 and R417)? -/
def State.pduProf (s : State) (i cls : Nat) : Bool :=
  let p := s.profile i
  pValid p && (s.recipe (oct p 1)).cls == cls

/-- Signal operations of a verification (CLASS 0x2) or protection (0x1) under profile `i` (R293); 0 where the run fails for its profile. -/
def State.profOps (s : State) (i cls : Nat) : Nat :=
  if s.pduProf i cls then cdiv (s.runBlocks (s.profile i) (pduMsgLen (s.profile i))) 8 else 0

/-- The machine with blocks of the input's declared cost used. -/
def State.useBlocks (s : State) (b : Nat) : State := { s with cp := { s.cp with left := s.cp.left - b } }

/-! ### Failed runs (R425) -/

/-- The counter of a reason. -/
def reasonCnt (r : Nat) : Nat := if r ≤ 5 then r else if r = 6 then 6 else 5

/-- Write an event record while CP_CTRL.EVEN is set (R425). -/
def State.cpRecord (s : State) (code reason prof bay ts : Nat) : State :=
  if !s.bit CP_CTRL 0 then s else
  let pay := [BitVec.ofNat 8 code, BitVec.ofNat 8 reason] ++ natLE 2 prof ++ [BitVec.ofNat 8 s.cp.inp, BitVec.ofNat 8 bay] ++ zeros 10
  let (ok, s') := s.ringPut (s.fld CP_CTRL 4 4) (hostRecord s.procEp 0xF1 (0xA + 64 * b2n (s.guarOf s.procEp)) 0 ts pay)
  if ok then s' else (s'.inc (CP_CNT 10)).evt CP_EVENT 7

/-- A failed run: its counter, its event bit, the F0 notice of R411, its record. -/
def State.runFails (s : State) (code reason prof bay : Nat) : State :=
  let s := (s.cInc (CP_CNT (reasonCnt reason))).cEvt CP_EVENT (if code = 1 then 0 else 1)
  let s := if reason = 6 then (s.cEvt CP_EVENT 2).cNotice 0x07 0x12 (if s.cp.inp < 0x8C then s.cp.inp else 0xFF) else s
  s.cpRecord code reason prof bay 0

/-- The working key of a profile: the recipe sequencer asks, in the secure world (R378, R426). -/
def State.profKey (s : State) (p : Octets) : Option Octets × State :=
  s.derive (bitsN (oct p 2) 0 5) (pLabel p) (pBits p) .seq .secure s.ep.running.isSome

/-! ### Secured PDUs (R414 to R418) -/

/-- The octets under the MAC of a secured PDU (R414). -/
def pduMessage (p a : Octets) (fv : Nat) : Octets := natBE 2 (leAt p 6 2) ++ a ++ natBE (cdiv (pFull p) 8) fv

/-- The MAC, its first MACLEN bits (R414). -/
def pduMac (p key a : Octets) (fv : Nat) : Nat := beNat (cmac key (pduMessage p a fv)) >>> (128 - pMac p)

/-- What a run of a secured PDU's recipe gets; `got` is the received tag of a verification. -/
def pduRun (p key a : Octets) (fv : Nat) (got : Option Nat) : RunIn :=
  { msg := pduMessage p a fv, key := key, iv := natBE 16 fv, len := zeros 16, mac := pMac p, got := got }

/-- The candidate freshness value of R416 from the stored value and the received bits. -/
def candidate (stored fvlen got : Nat) : Nat :=
  let c := stored / 2 ^ fvlen * 2 ^ fvlen + got
  if c ≤ stored then c + 2 ^ fvlen else c

/-- verify(p, rec) of R416: the reason it fails with, 0 for a pass. -/
def State.verifyGo (s : State) (prof : Nat) (src : Octets) : Nat × State :=
  let p := s.profile prof
  if !s.pduProf prof 2 then (7, s)
  else
    let b := s.runBlocks p (pduMsgLen p)
    if s.cp.left < b then (6, s)
    else if src.length < pAuth p + pTrail p then (5, s)
    else if !s.synced (pIdx p) then (4, s)
    else
      let st := s.fresh7 (pIdx p)
      let tr := beAt src (pAuth p) (pTrail p)
      let bits := 8 * pTrail p
      let c := candidate st (pFv p) (tr >>> (bits - pFv p))
      if 2 ^ pFull p ≤ c ∨ pAccw p < c - st then (2, s)
      else
        match s.profKey p with
        | (none, s) => (3, s)
        | (some key, s) =>
          let a := src.take (pAuth p)
          let got := bitsN tr (bits - pFv p - pMac p) (pMac p)
          let s := (s.useBlocks b).sequence (s.recipe (oct p 1)) (pduRun p key a c (some got))
          if pduMac p key a c != got then (1, s)
          else (0, s.putFresh (pIdx p) c)

/-- A verification under R290 of source data: whether it passes. -/
def State.verifyPdu (s : State) (prof : Nat) (src : Octets) : Bool × State :=
  match s.verifyGo prof src with
  | (0, s) => (true, s.cInc (CP_CNT 0))
  | (r, s) => (false, s.runFails 1 r prof 0xFF)

/-- The record form of a port's copies: CAN record, LIN frame, or bay and T1S record. -/
inductive CopyForm
  | can | lin | eth
  deriving DecidableEq, Repr

/-- The lengths of a protected copy whose data length becomes `k` (R417). -/
def relength (form : CopyForm) (doff k : Nat) (out : Octets) : Octets :=
  match form with
  | .can =>
    let fmt := oct out 4 % 4
    let dlc := if fmt == 0 then (if k ≤ 8 then k else 15) else if fmt == 1 then dlcOf k else 0
    putOcts (putOcts out 6 (natLE 2 k)) 5 [BitVec.ofNat 8 dlc]
  | .lin => out
  | .eth => putOcts (out ++ zeros 4) 0 (natLE 2 ((doff - 4) + k + 4))

/-- A protection under R417 of an image of IMGLEN octets with its data at DOFF: the reason it fails with, and the protected copy. -/
def State.protectGo (s : State) (prof : Nat) (img : Octets) (doff : Nat) (form : CopyForm) : Nat × Option Octets × State :=
  let p := s.profile prof
  if !s.pduProf prof 1 then (7, none, s)
  else
    let b := s.runBlocks p (pduMsgLen p)
    if s.cp.left < b then (6, none, s)
    else if img.length < doff + pAuth p then (5, none, s)
    else if !s.synced (pIdx p) then (4, none, s)
    else
      let v := s.fresh7 (pIdx p)
      if 2 ^ pFull p - 1 ≤ v then (4, none, s.cEvt CP_EVENT 4)
      else
        match s.profKey p with
        | (none, s) => (3, none, s)
        | (some key, s) =>
          let a := slice img doff (pAuth p)
          let c := v + 1
          let s := ((s.useBlocks b).sequence (s.recipe (oct p 1)) (pduRun p key a c none)).putFresh (pIdx p) c
          let tr := ((c % 2 ^ pFv p) * 2 ^ pMac p + pduMac p key a c) * 2 ^ (8 * pTrail p - pFv p - pMac p)
          (0, some (relength form doff (pAuth p + pTrail p) (img.take doff ++ a ++ natBE (pTrail p) tr)), s)

/-- A protection under R291 of a copy for egress port `port`: the copy, or none when it is discarded. -/
def State.protectPdu (s : State) (prof : Nat) (img : Octets) (doff : Nat) (form : CopyForm) (port : Nat) : Option Octets × State :=
  match s.protectGo prof img doff form with
  | (0, out, s) => (out, s.cInc (CP_CNT 7))
  | (r, _, s) => (none, s.runFails 2 r prof (if 0x80 ≤ port ∧ port < 0x8C then port - 0x80 else 0xFF))

/-! ### MACsec (R419 to R423) -/

/-- A MACsec frame taken apart (IEEE 802.1AE; the octets of the frame without FCS): octets of the SecTAG, PN, IV, secure data, ICV. Without
an SCI in the SecTAG the SCI is the source address with port identifier 0x0001 (PRESUMED, log 14: 802.1AE's end-station form). -/
structure SecFrame where
  head : Octets
  pn : Nat
  iv : Octets
  data : Octets
  icv : Octets

/-- The parts of a MACsec frame, none when it is too short or has another EtherType. -/
def secParse (f : Octets) : Option SecFrame :=
  let tl := if (oct f 14).testBit 5 then 16 else 8
  if beAt f 12 2 != 0x88E5 || f.length < 12 + tl + 16 then none else
  let sl := bitsN (oct f 15) 0 6
  let body := f.drop (12 + tl)
  let n := if sl = 0 then body.length - 16 else sl
  if body.length < n + 16 then none else
  let sci := if tl = 16 then slice f 20 8 else slice f 6 6 ++ natBE 2 1
  some { head := f.take (12 + tl), pn := beAt f 16 4, iv := sci ++ slice f 16 4, data := body.take n, icv := slice body n 16 }

/-- Does the MACsec run of a profile go to a cut-through release (R422), when every copy goes to the bays `bays`? -/
def State.cutThrough (s : State) (prof : Nat) (bays : List Nat) : Bool :=
  let p := s.profile prof
  pValid p && pKind p == 1 && !pRav p && (s.recipe (oct p 1)).cls == 5 && s.fld CP_CFG 4 3 != 0 && bays.all (fun b => s.bit CP_CFG (16 + b))

/-- Is profile `i` usable for MACsec ingress? -/
def State.secInProf (s : State) (i : Nat) : Bool :=
  let p := s.profile i
  let c := (s.recipe (oct p 1)).cls
  pValid p && ((pKind p == 1 && (c == 4 || c == 5)) || (pKind p == 2 && c == 2))

/-- An ingress MACsec frame under a profile: the reason it fails with (0 for a pass), the frame without SecTAG and ICV, and whether its tag
is right. With `stream` the BFIX blocks, the replay check and the PN come now and the tag is judged at the copies' ends (R422, R423). -/
def State.macsecGo (s : State) (prof : Nat) (f : Octets) (stream : Bool) : Nat × Octets × Bool × State :=
  let p := s.profile prof
  if !s.secInProf prof then (7, [], false, s) else
  match secParse f with
  | none => (5, [], false, s)
  | some q =>
    let b := s.runBlocks p (if stream then 0 else q.data.length)
    if s.cp.left < b then (6, [], false, s)
    else if !s.synced (pIdx p) then (4, [], false, s)
    else
      let v := s.fresh7 (pIdx p)
      if q.pn + pAccw p < v then (2, [], false, s)
      else
        match s.profKey p with
        | (none, s) => (3, [], false, s)
        | (some key, s) =>
          let conf := pKind p == 1
          let aad := if conf then q.head else q.head ++ q.data
          let ct := if conf then q.data else []
          let good := gcmTag key q.iv aad ct == q.icv
          let len := natBE 8 (8 * aad.length) ++ natBE 8 (8 * ct.length)
          let s := (s.useBlocks b).sequence (s.recipe (oct p 1)) { msg := q.data, key := key, iv := q.iv ++ natBE 4 1, len := len, mac := 128, got := some (beNat q.icv) }
          let plain := q.head.take 12 ++ (if conf then gcmCrypt key q.iv ct else q.data)
          if stream || good then (0, plain, good, s.putFresh (pIdx p) (max v q.pn))
          else (1, [], false, s)

/-- An ingress MACsec frame under R419: the plain frame and its tag verdict, or none when it is not forwarded. -/
def State.macsecVerify (s : State) (prof : Nat) (f : Octets) (stream : Bool) : Option (Octets × Bool) × State :=
  match s.macsecGo prof f stream with
  | (0, out, good, s) => (some (out, good), s.cInc (CP_CNT 0))
  | (r, _, _, s) => (none, s.runFails 1 r prof 0xFF)

/-- An egress frame under a MACsec profile at bay `b` (R419, R420): the frame with SecTAG and ICV, or none when it is discarded. -/
def State.macsecProtect (s : State) (prof b : Nat) (f : Octets) : Option Octets × State :=
  let p := s.profile prof
  let c := (s.recipe (oct p 1)).cls
  let conf := pKind p == 1
  let data := f.drop 12
  let bl := s.runBlocks p data.length
  let v := s.fresh7 (pIdx p)
  if !(pValid p && ((pKind p == 1 && c == 3) || (pKind p == 2 && c == 1))) then (none, s.runFails 2 7 prof b)
  else if s.cp.left < bl then (none, s.runFails 2 6 prof b)
  else if f.length < 14 then (none, s.runFails 2 5 prof b)
  else if !s.synced (pIdx p) then (none, s.runFails 2 4 prof b)
  else if 0xFFFFFFFF ≤ v then (none, (s.cEvt CP_EVENT 4).runFails 2 4 prof b)
  else
    match s.profKey p with
    | (none, s) => (none, s.runFails 2 3 prof b)
    | (some key, s) =>
      let pn := v + 1
      let sci := natLE 4 (s.rdN (EB_MACADDR_L b)) ++ natLE 2 (s.fld (EB_MACADDR_H b) 0 16) ++ natBE 2 1
      let tci := 0x20 + (if conf then 0x0C else 0) + bitsN (oct p 0x0C) 0 2
      let sl := if data.length < 48 then data.length else 0
      let head := f.take 12 ++ natBE 2 0x88E5 ++ [BitVec.ofNat 8 tci, BitVec.ofNat 8 sl] ++ natBE 4 pn ++ sci
      let iv := sci ++ natBE 4 pn
      let ct := if conf then gcmCrypt key iv data else data
      let tag := if conf then gcmTag key iv head ct else gcmTag key iv (head ++ data) []
      let len := natBE 8 (8 * (if conf then head else head ++ data).length) ++ natBE 8 (8 * (if conf then ct else []).length)
      let s := (s.useBlocks bl).sequence (s.recipe (oct p 1)) { msg := data, key := key, iv := iv ++ natBE 4 1, len := len, mac := 128, got := none }
      (some (head ++ ct ++ tag), (s.putFresh (pIdx p) pn).cInc (CP_CNT 7))

/-- A cut-through copy went onto the wire at bay `b`: a wrong tag is counted, flagged and logged (R423, R425). -/
def State.streamSent (s : State) (b : Nat) (e : Egress) : State :=
  match e.stream with
  | some k =>
    if e.bad then
      let inp := s.cp.inp
      let s := { s with cp := { s.cp with inp := k / 1024 } }
      let s := ((s.inc (CP_CNT 8)).evt CP_EVENT 5).cpRecord 3 1 (k % 1024) b ((s.bay b).wireEnd / 1000 % 2 ^ 32)
      { s with cp := { s.cp with inp := inp } }
    else s
  | none => s

/-! ### Commands (R428) -/

/-- A refused cipher command. -/
def State.cpReject (s : State) : State := (s.cInc (CP_CNT 9)).cEvt CP_EVENT 3

/-- The octets of captured words. -/
def wordsOctets (d : List Nat) : Octets := d.flatMap (fun w => natLE 4 w)

/-- FRESHNESS_WRITE: command OP 0x1. -/
def State.freshnessWrite (idx : Nat) (d : List Nat) (s : State) : State :=
  let o := padTo 8 (wordsOctets d)
  if !s.serving then s
  else if 65536 ≤ idx ∨ bitsN (oct o 7) 1 7 ≠ 0 then s.cpReject
  else s.memW (cpFresh + 8 * idx) o

/-- PROFILE_WRITE: command OP 0x2. -/
def State.profileWrite (idx : Nat) (d : List Nat) (s : State) : State :=
  let o := padTo 32 (wordsOctets d)
  if !s.serving then s
  else if 1024 ≤ idx || s.bit FR_STATUS 5 || s.bit FR_STATUS 6 || !profOk (fun r => (s.recipe r).cls) o then s.cpReject
  else s.memW (profAddr s.pbank idx) o

/-! ### The KB0 section (R429) -/

/-- Unit sizes of the KB0 run regions. -/
def kbUnit (r : Nat) : Nat :=
  match r with
  | 1 => 8 | 2 => 8 | 3 => 32 | 4 => 8 | _ => 0

/-- Units of the KB0 run regions. -/
def kbLimit (r : Nat) : Nat :=
  match r with
  | 1 => 256 | 2 => 8192 | 3 => 1024 | 4 => 65536 | _ => 0

/-- A recipe header read from its octets. -/
def recipeOf (o : Octets) : Recipe := { cls := oct o 0, first := leAt o 2 2, bfix := leAt o 4 2, bper := oct o 6 }

/-- The recipes of a KB0 section, of two runs for one recipe the later. -/
def kbRecipes (sect : Octets) : List (Nat × Recipe) :=
  (runUnits sect 4 1 8).foldl (fun l u => assocPut l u.1 (recipeOf u.2)) []

/-- The steps of a KB0 section. -/
def kbSteps (sect : Octets) : List (Nat × Nat) :=
  (runUnits sect 4 2 8).foldl (fun l u => assocPut l u.1 (leNat u.2)) []

/-- Do the contents of a KB0 section pass R406, R408, R413, R415, R429 and R553? -/
def kbOk (sect : Octets) : Bool :=
  let cfg := leAt sect 0 4
  let rs := kbRecipes sect
  let steps := kbSteps sect
  decide (0x200 ≤ sect.length) && runsOk sect 4 kbUnit &&
  (runRecs sect 4).all (fun r => decide (r.first + r.count ≤ kbLimit r.region)) &&
  (slice sect 0x12C 0xD4).all (· == 0) && decide (bitsN cfg 0 3 ≤ 4) && decide (bitsN cfg 4 3 ≤ 4) && bitsN cfg 7 9 == 0 && bitsN cfg 28 4 == 0 &&
  (runUnits sect 4 1 8).all (fun u => oct u.2 1 == 0 && oct u.2 7 == 0 && decide (oct u.2 0 ≤ 5)) &&
  steps.all (fun st => decide (stepOp st.2 ≤ 0x0D)) &&
  rs.all (fun r => r.2.cls == 0 || recipeOk steps r.2) &&
  (runUnits sect 4 3 32).all (fun u => profOk (fun r => ((assoc rs r).getD {}).cls) u.2) &&
  (runUnits sect 4 4 8).all (fun u => bitsN (oct u.2 7) 1 7 == 0)

/-- Do the profiles and rates of the frame that results pass R413 and R424? `s` holds KB0 and SB0 as they will stand. -/
def State.kbFits (s : State) : Bool :=
  let bays := (List.range 12).filter (fun b => s.bit CP_CFG (16 + b))
  (s.memIdx (profAddr s.pbank 0) (profAddr s.pbank 1024) 32).all (fun i => profOk (fun r => (s.recipe r).cls) (s.profile i)) &&
  decide ((1 + s.fld CP_CFG 0 3) * ((bays.map (fun b => s.fld (SC_PRATE (128 + b)) 0 16)).sum) ≤ s.fld CP_CFG 4 3 * 128000)

/-- The head, the recipes and the steps of KB0. -/
def State.kbHead (s : State) (sect : Octets) : State :=
  let s := { s with cp := { s.cp with recipes := kbRecipes sect, steps := kbSteps sect } }
  let s := s.wrN CP_CFG (leAt sect 0 4)
  (List.range 73).foldl (fun s j => s.wrN (CP_PCOST j) (leAt sect (8 + 4 * j) 4)) s

/-- Load KB0 as part of a raise: profiles into bank 0, freshness counters from their runs (R412, R415). -/
def State.kbLoad (s : State) (sect : Octets) : State :=
  let s := ((s.memClear cpFresh (cpFresh + 524288)).memClear cpProfs (cpProfs + 65536)).kbHead sect
  let s := (runUnits sect 4 3 32).foldl (fun s u => s.memW (profAddr 0 u.1) u.2) s
  let s := (runUnits sect 4 4 8).foldl (fun s u => s.memW (cpFresh + 8 * u.1) u.2) s
  s.wrN CP_STATUS 1

/-- The swap of KB0 at G (R412, R415): the other bank takes every profile in force, then the delta's runs; freshness runs are ignored. -/
def State.kbSwap (s : State) (sect : Octets) : State :=
  let o := s.pbank
  let n := 1 - o
  let s := s.kbHead sect
  let s := s.memClear (profAddr n 0) (profAddr n 1024)
  let s := (s.memIdx (profAddr o 0) (profAddr o 1024) 32).foldl (fun s i => s.memW (profAddr n i) (s.memO (profAddr o i) 32)) s
  let s := (runUnits sect 4 3 32).foldl (fun s u => s.memW (profAddr n u.1) u.2) s
  s.setBit CP_STATUS 1 (n == 1)

/-! ### The host job (R427) -/

/-- HOST_JOB: a write of CP_HJCTL.GO by a master in a world; ignored while BUSY is set. The key is derived as the job starts (R382). -/
def State.hostJob (t : Nat) (ms : Master) (w : World) (s : State) : State :=
  if s.dieOn && !s.bit CP_HJCTL 2 then
    let s := s.tick t
    let lbl := (List.range 4).flatMap (fun k => natLE 4 (s.rdN (CP_HJLBL k)))
    let inp := (List.range 4).flatMap (fun k => natLE 4 (s.rdN (CP_HJIN k)))
    let bits := if s.bit CP_HJKEY 8 then 256 else 128
    let (key, s) := s.derive (s.fld CP_HJKEY 0 5) lbl bits ms w false
    let s := { s with cp := { s.cp with job := some (key, s.bit CP_HJCTL 1, inp) } }
    ((s.setBit CP_HJCTL 2 true).setBit CP_HJCTL 3 false).setBit CP_HJCTL 4 false
  else s

/-- HOST_JOB_DONE: the result, or NOKEY. -/
def State.hostJobDone (t : Nat) (s : State) : State :=
  match s.cp.job with
  | none => s
  | some (key, dec, inp) =>
    let s := ({ s.tick t with cp := { s.cp with job := none } }.setBit CP_HJCTL 2 false).evt CP_EVENT 6
    match key with
    | none => s.setBit CP_HJCTL 4 true
    | some k =>
      let out := if dec then aesDec k inp else aesEnc k inp
      ((List.range 4).foldl (fun s i => s.wrN (CP_HJOUT i) (leAt out (4 * i) 4)) s).setBit CP_HJCTL 3 true

end Sys2Proof.Machine
end

