-- ==== Sys2Proof/Machine/Lin.lean ====
section
/-! DEFINITION. Machine/Lin.lean: the LIN tenon (R205 to R223): identifiers and checksums, response buffers, the commander's schedule,
events, sleep and wake. -/
namespace Sys2Proof.Machine
open Sys2Proof

/-- The protected identifier of a FID (R206). -/
def linPid (fid : Nat) : Nat :=
  let b := fun k => fid.testBit k
  let p0 := xor (xor (b 0) (b 1)) (xor (b 2) (b 4))
  let p1 := !(xor (xor (b 1) (b 3)) (xor (b 4) (b 5)))
  fid % 64 + 64 * b2n p0 + 128 * b2n p1

/-- Sum of octets with each carry added back (R206). -/
def carrySum (l : List Nat) : Nat := l.foldl (fun a x => let y := a + x; if y ≥ 256 then y - 255 else y) 0

/-- The checksum of a response: enhanced over PID and data, classic over the data (R206). -/
def linChecksum (enh : Bool) (pid : Nat) (data : Octets) : Nat :=
  255 - carrySum ((if enh then [pid] else []) ++ data.map BitVec.toNat)

/-- Is mortise `m` running the LIN tenon? -/
def State.isLin (s : State) (m : Nat) : Bool := (s.mort m).tenon == .lin && ((s.mort m).st == .inService || (s.mort m).st == .draining)

/-- The machine with the LIN tenon of a mortise changed. -/
def State.onLin (s : State) (m : Nat) (f : LinSt → LinSt) : State := s.onMort m (fun x => { x with lin := f x.lin })

/-- Is a FID published by mortise `m` (R207)? -/
def State.linPub (s : State) (m f : Nat) : Bool := if f < 32 then s.bit (LN_PUB_L m) f else s.bit (LN_PUB_H m) (f - 32)

/-- Does a FID use the enhanced checksum? 0x3C and 0x3D never do (R206). -/
def State.linEnh (s : State) (m f : Nat) : Bool :=
  f != 0x3C && f != 0x3D && (if f < 32 then s.bit (LN_ENH_L m) f else s.bit (LN_ENH_H m) (f - 32))

/-- Data octets of a FID (R207). -/
def State.linLen (s : State) (m f : Nat) : Nat := s.fld (LN_DLEN m (f / 8)) (4 * (f % 8)) 3 + 1

/-- A bit time in ns: BRDIV fabric clocks of 240 MHz. -/
def State.linBitNs (s : State) (m : Nat) : Nat := cdiv (s.fld (LN_BAUD m) 0 18 * 25) 6

/-- TFrame_Max in ns of a frame with `n` data octets: 1.4 × (34 + 10 × (n + 1)) bit times (R209). -/
def State.linFrameMax (s : State) (m n : Nat) : Nat := cdiv (14 * (34 + 10 * (n + 1)) * s.fld (LN_BAUD m) 0 18 * 25) 60

/-- Stamp a LIN event record: CODE, REASON, FID (R221). `drive` events come from the driving unit only (R64). -/
def State.linReport (s : State) (m code reason fid : Nat) (drive : Bool) : State :=
  if (drive && !s.drives m) || (s.mort m).st != .inService && !drive then s
  else s.stampEvent m [BitVec.ofNat 8 code, BitVec.ofNat 8 reason, BitVec.ofNat 8 fid]

/-- The bus is active now: its idle time starts again (R221). -/
def State.linActive (s : State) (m : Nat) : State := s.onLin m (fun l => { l with act := s.now })

/-- The response buffer of a FID. -/
def State.linBuf (s : State) (m f : Nat) : LinBuf := nth (s.mort m).lin.bufs f

/-- The frame sent at a decision instant in epoch `e`: the last one placed whose release epoch is at most e − 1 (R214). -/
def linChoose (b : LinBuf) (e : Nat) : Option Egress := (b.frames.filter (fun x => x.rel + 1 ≤ e)).getLast?

/-- The octets on the wire of a response: data and the checksum the tenon computes (R211). -/
def State.linResponse (s : State) (m f : Nat) (r : Octets) : Octets :=
  let d := slice r 4 (oct r 2)
  d ++ [BitVec.ofNat 8 (linChecksum (s.linEnh m f) (linPid f) d)]

/-- The response decision of R214 for a published FID, whose response starts at `at_` (R209). Every unit decides, so that each knows which frame a
confirmation is for (R215); the driving tenon starts its response. A slot or header without a frame is counted in LN_CNT5. -/
def State.linDecide (s : State) (m f at_ : Nat) : State :=
  if !s.linPub m f then s else
  match linChoose (s.linBuf m f) s.stampEp with
  | some e =>
    let s := s.onLin m (fun l => { l with bufs := updAt l.bufs f (fun b => { b with sent := some e }) })
    if s.drives m && !s.wk.quiesce then s.onLin m (fun l => { l with sending := some (f, s.linResponse m f e.octets, at_) }) else s
  | none => (s.inc (LN_CNT m 5)).evt (MZ_EVENT m) 21

/-! ### The commander's schedule -/

/-- An entry of a schedule table: (FID, TYPE, RTAB, SLOT) (R216). An empty table has no slot; DESIGN CHOICE (log 33): it keeps time in silent slots
of 0.1 ms. -/
def State.linEntry (s : State) (m tab i : Nat) : Nat × Nat × Nat × Nat :=
  let w := s.rdN (LN_SCH m (64 * tab + i))
  if bitsN w 8 3 = 0 then (bitsN w 0 6, 0, 0, 1) else (bitsN w 0 6, bitsN w 8 3, bitsN w 12 2, bitsN w 16 16)

/-- Does table `tab` end before entry `i` (R216)? -/
def State.linTabEnd (s : State) (m tab i : Nat) : Bool := decide (64 ≤ i) || (s.linEntry m tab i).2.1 == 0

/-- The next slot and where the table in effect goes on after a resolving run: a resolving run starts at entry 0 of its table and returns to the
table it interrupted (R219); a table restarts at entry 0 after its last entry (R218). -/
def State.linNext (s : State) (m : Nat) : (Nat × Nat) × Option Nat :=
  let l := (s.mort m).lin
  let (tab, i) := l.slot
  let at_ := fun (j : Nat) => if s.linTabEnd m l.table j then (l.table, 0) else (l.table, j)
  match l.resolve with
  | some rt => ((rt, 0), some (i + 1))
  | none =>
    if 64 ≤ i then ((l.table, 0), none)
    else match l.resume with
      | some j => if s.linTabEnd m tab (i + 1) then (at_ j, none) else ((tab, i + 1), some j)
      | none => (at_ (i + 1), none)

/-- Control writes whose slot boundary has come act: TABLE and RUN first, SLEEP last (R220). A new TABLE starts at its entry 0, whatever a resolving
run had to resume. -/
def State.linControls (s : State) (m : Nat) : State :=
  let l := (s.mort m).lin
  let due := l.ctl.filter (fun c => c.1 ≤ s.now)
  let s := s.onLin m (fun l => { l with ctl := l.ctl.filter (fun c => s.now < c.1) })
  let s := due.foldl (fun s c =>
    let s := match c.2.1 with
      | some tb => if tb == (s.mort m).lin.table then s
        else (s.onLin m (fun l => { l with table := tb, slot := (tb, 64), resume := none, resolve := none })).setFld (LN_STATUS m) 0 2 tb
      | none => s
    match c.2.2.1 with
    | some r => ((s.onLin m (fun l => { l with run := r, rest := l.rest && !r })).setBit (LN_STATUS m) 2 r).setBit (LN_CTRL m) 2 r
    | none => s) s
  if due.any (fun c => c.2.2.2) && s.bit (LN_CFG m) 0 then s.onLin m (fun l => { l with sleepReq := true }) else s

/-- The first slot of a tenon that enters service in epoch `n` begins at the first whole millisecond at or after the start of that epoch (R218). -/
def State.linStart (s : State) (m n : Nat) : State :=
  s.onLin m (fun l => { l with slotEnd := some (cdiv (s.epochStart n) 1000000 * 1000000), act := s.now })

/-- The length of a header in bits: break, delimiter, sync octet and protected identifier (R208). -/
def LinHdr.bits (h : LinHdr) : Nat := h.brk + h.delim + 20

/-- The header of a commander's slot for `f` that starts at `e`: a break of 13 + BRKX and a delimiter of 1 + BDEL bits (R208). -/
def State.linHdrOf (s : State) (m f e : Nat) : LinHdr :=
  { fid := f, pid := linPid f, start := e, brk := 13 + s.fld (LN_CFG m) 1 4, delim := 1 + s.fld (LN_CFG m) 5 2, own := s.drives m }

/-- When a published response to header `h` starts: one bit time after the stop bit of the protected identifier (R209). -/
def State.linRespAt (s : State) (m : Nat) (h : LinHdr) : Nat := h.start + (h.bits + 1) * s.linBitNs m

/-- Do the headers of a commander's schedule go out: RUN is in effect, and no bus sleep holds them (R218, R222, R474)? -/
def State.linRuns (s : State) (m : Nat) : Bool :=
  (s.mort m).lin.run && !(s.mort m).lin.rest && !s.bit (LN_STATUS m) 3 && !s.wk.quiesce

/-- A collision in the event-triggered slot that ends: event 0x03, and the driving commander's next slot starts table RTAB (R219). -/
def State.linCollide (s : State) (m : Nat) : State :=
  let l := (s.mort m).lin
  let (f, _, rtab, _) := s.linEntry m l.slot.1 l.slot.2
  let s := (s.onLin m (fun l => { l with coll := false })).linReport m 3 0 f false
  if s.drives m then s.onLin m (fun l => { l with resolve := some rtab }) else s

/-- The go-to-sleep slot at `e`: FID 0x3C with data 0x00 and seven 0xFF, in TFrame_Max for 8 octets, rounded up to 0.1 ms (R220). -/
def State.linSleepSlot (s : State) (m e : Nat) : State :=
  let d : Octets := 0 :: List.replicate 7 (BitVec.ofNat 8 0xFF)
  let h := s.linHdrOf m 0x3C e
  let runs := s.linRuns m
  let out := if runs && h.own then some (0x3C, d ++ [BitVec.ofNat 8 (linChecksum false (linPid 0x3C) d)], s.linRespAt m h) else none
  s.onLin m (fun l => { l with
    sleepReq := false, sleepSlot := true, slotEnd := some (e + cdiv (s.linFrameMax m 8) 100000 * 100000)
    hdr := if runs then some h else none, sending := out })

/-- The slot of the next entry at `e` (R216): the header by slot type, and the response decision for a FID this tenon publishes. -/
def State.linRunSlot (s : State) (m e : Nat) : State :=
  let ((tab, i), res) := s.linNext m
  let (f, ty, _, slot) := s.linEntry m tab i
  let pend := (s.linBuf m f).pending
  let hdr := s.linRuns m && (ty == 1 || ty == 2 || ty == 5 || ((ty == 3 || ty == 4) && pend))
  let h := s.linHdrOf m f e
  let s := s.onLin m (fun l => { l with
    slot := (tab, i), resume := res, resolve := none, sleepSlot := false, sending := none, slotEnd := some (e + slot * 100000)
    hdr := if hdr then some h else none })
  let s := s.setFld (LN_STATUS m) 8 6 i
  if hdr && (ty == 1 || ty == 3 || ty == 4 || (ty == 2 && pend)) then s.linDecide m f (s.linRespAt m h) else s

/-- R218, R214, R216, R219, R220, R222. A commander's slot begins where the one before ends: a collision in it is reported, a go-to-sleep slot clears
RUN, pending writes act, and the next slot runs. The schedule keeps its time on every unit. -/
def linSlotStart (t m : Nat) (s : State) : State :=
  let s := s.tick t
  match (s.mort m).lin.slotEnd with
  | none => s
  | some e =>
    if !s.isLin m || !s.bit (LN_CFG m) 0 || (s.mort m).st != .inService || decide (t < e) then s else
    let l := (s.mort m).lin
    let s := if l.coll then s.linCollide m else s
    let s := if l.sleepSlot then
        ((s.onLin m (fun l => { l with run := false, sleepSlot := false })).setBit (LN_STATUS m) 2 false).setBit (LN_CTRL m) 2 false
      else s
    let s := s.linControls m
    let s := if (s.mort m).lin.sleepReq then s.linSleepSlot m e else s.linRunSlot m e
    if (s.mort m).lin.hdr.isSome then s.linActive m else s

/-- Is an event-triggered slot of the schedule running (R219)? -/
def State.linEvtSlot (s : State) (m : Nat) : Bool :=
  let l := (s.mort m).lin
  s.isLin m && s.bit (LN_CFG m) 0 && !l.sleepSlot && decide (l.slot.2 < 64) && (s.linEntry m l.slot.1 l.slot.2).2.1 == 2

/-! ### Frames and events -/

/-- R208, R214. A responder reads a header whose break, of `brk` dominant bits, started at `start`: fewer than 11 bits are no break; with the measured
bit time beyond ±15 % the frame is ignored and counted; else the response is decided at the stop bit of the protected identifier, `t`. `bitDev` is
the deviation in tenths of a percent. A header with wrong parity is reported under R221. -/
def linHeaderReceived (t m start brk pid : Nat) (bitDev : Int) (s : State) : State :=
  let s := s.tick t
  if !s.isLin m || s.bit (LN_CFG m) 0 || brk < 11 then s else
  let s := s.linActive m
  if bitDev > 150 ∨ bitDev < -150 then (s.inc (LN_CNT m 7)).evt (MZ_EVENT m) 22 else
  let f := pid % 64
  if linPid f ≠ pid then s.linReport m 2 4 f false
  else
    let s := s.onLin m (fun l => { l with hdr := some { fid := f, pid := pid, start := start, brk := brk }, sending := none })
    if (s.mort m).st != .inService then s else s.linDecide m f (t + (s.linBitNs m * (1000 + bitDev).toNat) / 1000)

/-- The record of a received frame: identifier, enhanced checksum flag, length, checksum and data, zero beyond DLEN (R211). -/
def State.linRecord (s : State) (m : Nat) (r : Octets) : Octets :=
  let f := oct r 0 % 64
  [r.getD 0 0, BitVec.ofNat 8 (b2n (s.linEnh m f)), r.getD 2 0, r.getD 3 0] ++ padTo 8 (slice r 4 (oct r 2))

/-- R211, R207. A whole frame of its FID's length with valid parity and checksum is handed over unless its FID is published by this tenon; the
go-to-sleep frame is also bus sleep event 0x04. -/
def linFrameReceived (t m : Nat) (r : Octets) (s : State) : State :=
  let s := s.tick t
  if !s.isLin m then s else
  let f := oct r 0 % 64
  let d := slice r 4 (oct r 2)
  let good := linPid f == oct r 0 && oct r 2 == s.linLen m f && d.length == oct r 2 && oct r 3 == linChecksum (s.linEnh m f) (oct r 0) d
  if !good then s else
  let s := (s.inc (MZ_CNT m 1)).linActive m
  let s := s.onLin m (fun l => { l with hdr := none })
  let s := if !s.linPub m f && (s.mort m).st == .inService then s.stampIn { cls := 2, port := m, kind := .frame, octets := s.linRecord m r } else s
  if f == 0x3C && oct d 0 == 0 then s.linReport m 4 1 0xFF false else s

/-- R221, R209. A response is in error: event 0x02 with its REASON. No response and an incomplete one are known when TFrame_Max from the start of the
break has passed. In an event-triggered slot a checksum or framing error is a collision instead (R219). -/
def linResponseError (t m fid reason : Nat) (s : State) : State :=
  let s := s.tick t
  let late := (s.mort m).lin.hdr.any (fun h => h.fid == fid && decide (h.start + s.linFrameMax m (s.linLen m fid) ≤ t))
  if !s.isLin m || reason < 1 || 5 < reason || (reason < 3 && !late) then s else
  let s := ((s.inc (MZ_CNT m 2)).linActive m).onLin m (fun l => { l with hdr := none })
  if s.linEvtSlot m && (reason == 3 || reason == 5) then s.onLin m (fun l => { l with coll := true })
  else s.linReport m 2 reason fid false

/-- R219. A corrupted event-triggered response is a collision, reported at the end of the slot. -/
def linEventCollision (t m : Nat) (s : State) : State :=
  let s := s.tick t
  if !s.linEvtSlot m then s
  else if (s.mort m).lin.slotEnd.any (fun e => e ≤ t) then s.linCollide m
  else s.onLin m (fun l => { l with coll := true })

/-- R221. A published response completes: the driving unit stamps confirmation 0x01; an own go-to-sleep frame is bus sleep. -/
def linTransmitConfirm (t m : Nat) (s : State) : State :=
  let s := s.tick t
  match (s.mort m).lin.sending with
  | none => s
  | some (f, d, _) =>
    if !s.isLin m || !s.drives m then s else
    let s := ((s.linActive m).onLin m (fun l => { l with sending := none, hdr := none })).linReport m 1 0 f true
    if f == 0x3C && oct d 0 == 0 then s.linReport m 4 1 0xFF false else s

/-- R221. An own transmission fails: event 0x06 with REASON 0x1 bit error or 0x2 bus dominant at the header start. A bit error in a commander's
event-triggered slot is a collision instead (R219). -/
def linTxFailed (t m reason : Nat) (s : State) : State :=
  let s := s.tick t
  if s.isLin m && s.drives m && (reason == 1 || reason == 2) then
    let f := match (s.mort m).lin.sending, (s.mort m).lin.hdr with
      | some x, _ => x.1
      | none, some h => h.fid
      | none, none => 0xFF
    let s := (s.linActive m).onLin m (fun l => { l with sending := none, hdr := none })
    if s.linEvtSlot m && reason == 1 then s.onLin m (fun l => { l with coll := true }) else s.linReport m 6 reason f true
  else s

/-- R221. The bus is idle for LN_TIMEO.IDLE ms: event 0x04, REASON 0x2. -/
def linBusIdleTimeout (t m : Nat) (s : State) : State :=
  let s := s.tick t
  if s.isLin m && !s.bit (LN_STATUS m) 3 && (s.mort m).lin.act + s.fld (LN_TIMEO m) 0 14 * 1000000 ≤ t then
    (s.linActive m).linReport m 4 2 0xFF false
  else s

/-- R222. In bus sleep a dominant level of 150 µs or more is a wake pulse: event 0x05. -/
def linWakePulseReceived (t m us : Nat) (s : State) : State :=
  let s := s.tick t
  if s.isLin m && s.bit (LN_STATUS m) 3 && us ≥ 150 then (s.linActive m).linReport m 5 0 0xFF false else s

/-! ### Host commands -/

/-- A write stamped in epoch `c` waits for the first slot boundary at or after the start of epoch c + L + 2 (R220). -/
def State.linCtl (s : State) (c m : Nat) (table : Option Nat) (run : Option Bool) (sleep : Bool) : State :=
  s.onLin m (fun l => { l with ctl := l.ctl ++ [(s.epochStart (c + s.ep.lag + 2), table, run, sleep)] })

/-- R220. A processed TABLE write waits for its slot boundary. -/
def linTableWrite (c m table : Nat) (s : State) : State :=
  if s.isLin m then (s.setFld (LN_CTRL m) 0 2 table).linCtl c m (some (table % 4)) none false else s

/-- R220. A processed RUN write waits for its slot boundary. -/
def linRunWrite (c m : Nat) (run : Bool) (s : State) : State :=
  if s.isLin m then (s.setBit (LN_CTRL m) 2 run).linCtl c m none (some run) false else s

/-- R220. A processed SLEEP makes the commander send a go-to-sleep frame; a responder ignores it. -/
def linSleepCommand (c m : Nat) (s : State) : State :=
  if s.isLin m && s.bit (LN_CFG m) 0 then s.linCtl c m none none true else s

/-- R222. A processed WAKEREQ: the driving tenon sends one wake pulse of WKLEN × 10 µs, and BUSSLEEP is cleared. -/
def linWakeRequest (m : Nat) (s : State) : State :=
  if s.isLin m then
    (if s.drives m then (s.linActive m).onLin m (fun l => { l with pulse := some (s.now + s.fld (LN_TIMEO m) 16 9 * 10000) }) else s).cPut
      (LN_STATUS m) 3 1 0
  else s

/-- A LIN tenon begins to drive: headers from its next slot boundary (R220); a response under way on the wire is the former driver's. -/
def State.linBeginDriving (s : State) (m : Nat) : State := s.onLin m (fun l => { l with sending := none })

/-- The check of an egress frame at enqueue (R213): published FID and matching length. -/
def State.linEgress (s : State) (m : Nat) (r : Octets) : Bool :=
  let f := oct r 0 % 64
  s.linPub m f && oct r 2 == s.linLen m f

/-- Placement in the buffer of the FID (R213): a frame there is replaced and counted; earlier ones stay only as long as R214 may still
choose them. -/
def State.linPlace (s : State) (m : Nat) (e : Egress) : State :=
  let f := oct e.octets 0 % 64
  let s := if (s.linBuf m f).frames.isEmpty then s else s.cInc (LN_CNT m 2)
  s.onLin m (fun l => { l with bufs := updAt l.bufs f (fun b =>
    { b with frames := (b.frames.filter (fun x => x.rel < e.rel)).getLast?.toList ++ [e], pending := true }) })

/-- A processed received frame ends the error of the last response (LN_STATUS.RESPERR). -/
def State.linFrameDone (s : State) (m : Nat) : State := s.cPut (LN_STATUS m) 4 1 0

/-- A processed LIN event (R215, R222, R239): a confirmation clears the pending mark when the frame it is for is the last one placed. -/
def State.linEvent (s : State) (m : Nat) (r : Octets) : State :=
  let f := oct r 2
  match oct r 0 with
  | 1 => ((s.onLin m (fun l => { l with bufs := updAt l.bufs f (fun b => { b with pending := b.waiting }) })).cInc (MZ_CNT m 5)).cPut (LN_STATUS m) 4 1 0
  | 2 => ((s.cInc (LN_CNT m 3)).cEvt (MZ_EVENT m) 16).cPut (LN_STATUS m) 4 1 1
  | 3 => (s.cInc (LN_CNT m 6)).cEvt (MZ_EVENT m) 18
  | 4 => ((s.onLin m (fun l => { l with rest := true })).cPut (LN_STATUS m) 3 1 1).cEvt (MZ_EVENT m) 19
  | 5 => (s.cPut (LN_STATUS m) 3 1 0).cEvt (MZ_EVENT m) 20
  | 6 => (s.cInc (LN_CNT m 4)).cEvt (MZ_EVENT m) 17
  | _ => s

end Sys2Proof.Machine
end

