-- ==== Sys2Proof/Machine/T1s.lean ====
section
/-! DEFINITION. Machine/T1s.lean: the 10BASE-T1S tenon and the integrated PHY (R224 to R239). -/
namespace Sys2Proof.Machine
open Sys2Proof

/-- Is mortise `m` running a T1S tenon (0x3 or 0x4)? -/
def State.isT1s (s : State) (m : Nat) : Bool :=
  ((s.mort m).tenon == .t1sExt || (s.mort m).tenon == .t1sInt) && ((s.mort m).st == .inService || (s.mort m).st == .draining)

/-- The machine with the T1S tenon of a mortise changed. -/
def State.onT1s (s : State) (m : Nat) (f : T1sSt → T1sSt) : State := s.onMort m (fun x => { x with t1s := f x.t1s })

/-- Stamp a T1S event record: CODE, REASON, STATE (R230); drive-side events come from the driving unit only (R64). -/
def State.t1sReport (s : State) (m code reason : Nat) (drive : Bool) : State :=
  let t := (s.mort m).t1s
  if (drive && !s.drives m) || (!drive && (s.mort m).st != .inService) then s
  else s.stampEvent m [BitVec.ofNat 8 code, BitVec.ofNat 8 reason, BitVec.ofNat 8 (b2n t.plca + 2 * b2n t.disc)]

/-- The record of a T1S frame: LEN, two zero octets, the frame (R227). -/
def t1sRecord (frame : Octets) : Octets := natLE 2 frame.length ++ [0, 0] ++ frame

/-- R227, R228. A received frame with a bad FCS or a length outside 64 to MAXLEN is dropped and counted; one equal to a frame of the
transmit queue is the driving twin's transmission; any other is handed over. -/
def t1sFrameReceived (t m : Nat) (frame : Octets) (fcsErr : Bool) (s : State) : State :=
  let s := s.tick t
  if !s.isT1s m || (s.mort m).t1s.disc then s else
  let rcd := t1sRecord frame
  if fcsErr || frame.length < 64 || s.fld (T1_CFG m) 16 14 < frame.length then
    ((s.inc (T1_CNT m 0)).inc (MZ_CNT m 2)).evt (MZ_EVENT m) 21
  else
    let s := s.inc (MZ_CNT m 1)
    let echo := !s.drives m && (s.mort m).t1s.queue.any (fun q => q.1.octets == rcd)
    if echo || (s.mort m).st != .inService then s
    else s.stampIn { cls := 2, port := m, kind := .frame, octets := rcd }

/-- R226. A BEACON is received, or sent by a driving coordinator (R225): PLCA becomes active from the first one, which is event 0x03. -/
def plcaBeacon (t m : Nat) (sent : Bool) (s : State) : State :=
  let s := s.tick t
  let ok := s.isT1s m && s.bit (T1_CFG m) 0 && !(s.mort m).t1s.disc && (!sent || (s.drives m && s.fld (T1_PLCA m) 0 8 == 0 && !s.wk.quiesce))
  if !ok then s else
  let was := (s.mort m).t1s.plca
  let s := s.onT1s m (fun x => { x with plca := true, beaconAt := t })
  if was then s else s.t1sReport m 3 0 false

/-- R226. 400 µs pass without a BEACON: PLCA becomes inactive, which is event 0x03. -/
def plcaInactive (t m : Nat) (s : State) : State :=
  let s := s.tick t
  if s.isT1s m && (s.mort m).t1s.plca && (s.mort m).t1s.beaconAt + 400000 ≤ t then
    (s.onT1s m (fun x => { x with plca := false })).t1sReport m 3 0 false
  else s

/-- Send one queued frame: the confirmation is stamped and the frame counted (R230). -/
def State.t1sSendOne (s : State) (m i : Nat) : State :=
  ((s.onT1s m (fun x => { x with queue := updAt x.queue i (fun q => (q.1, true, q.2.2)) })).inc (T1_CNT m 2)).t1sReport m 1 0 true

/-- Positions of the queued frames not sent yet. -/
def T1sSt.waiting (x : T1sSt) : List Nat :=
  (List.range x.queue.length).filter (fun i => match x.queue[i]? with | some q => !q.2.1 | none => false)

/-- R229, R226, R231. `start`: a transmit opportunity of up to MAXBC + 1 queued frames, or a CSMA/CD attempt of one, puts the first frame on the wire.
`sent`: the last FCS octet of the frame on the wire; the next of the opportunity follows unless a swap or quiesce stops it (R111). `collided`: the
attempt on the wire collided and is counted; under CSMA/CD the sixteenth ends the frame with event 0x02, REASON 0x1. -/
def t1sTransmitOpportunity (t m : Nat) (ph : T1sTx) (s : State) : State :=
  let s := s.tick t
  let x := (s.mort m).t1s
  let i := x.waiting.headD 0
  let may := (s.mort m).st == .inService && !s.wk.quiesce && !x.waking.any (fun e => t < e)
  if !s.isT1s m || !s.drives m || x.disc || x.waiting.isEmpty then s else
  let plca := s.bit (T1_CFG m) 0 && x.plca
  match ph with
  | .start =>
    if !may || x.burst != 0 then s
    else s.onT1s m (fun x => { x with burst := if plca then min x.waiting.length (s.fld (T1_PLCA m) 24 8 + 1) else 1 })
  | .sent =>
    if x.burst == 0 then s
    else (s.t1sSendOne m i).onT1s m (fun x => { x with attempts := 0, burst := if may then x.burst - 1 else 0 })
  | .collided =>
    if x.burst == 0 then s else
    let s := ((s.inc (T1_CNT m 3)).evt (MZ_EVENT m) 22).onT1s m (fun x => { x with burst := 0 })
    if plca then s
    else if x.attempts + 1 < 16 then s.onT1s m (fun x => { x with attempts := x.attempts + 1 })
    else (s.onT1s m (fun x => { x with attempts := 0, queue := updAt x.queue i (fun q => (q.1, true, q.2.2)) })).t1sReport m 2 1 true

/-- A disconnected PHY: the driving tenon withdraws every queued frame and reports each (R235). -/
def State.t1sWithdraw (s : State) (m : Nat) : State :=
  if !s.drives m || !(s.mort m).t1s.disc then s else
  let k := (s.mort m).t1s.waiting.length
  let s := (List.range k).foldl (fun s _ => s.t1sReport m 2 2 true) s
  s.onT1s m (fun x => { x with burst := 0, queue := x.queue.map (fun q => (q.1, true, q.2.2)) })

/-- R234, R235. `limit`: the current reaches ILIM and the PHY limits it. Else the pair is disconnected, within TDISC µs of that: event 0x04 is reported,
REASON 0x1, or 0x2 when RETRYN reconnections in a row are spent; then it stays disconnected. -/
def phyDisconnect (t m : Nat) (limit : Bool) (s : State) : State :=
  let s := s.tick t
  if !s.isT1s m || (s.mort m).tenon != .t1sInt || (s.mort m).t1s.disc then s
  else if limit then s.setBit (T1_STATUS m) 8 true
  else
  let last := s.fld (T1_PHY m) 4 4 ≤ (s.mort m).t1s.retries
  let at' := if last then none else some (t + s.fld (T1_PHY m) 8 10 * 1000000)
  let s := s.onT1s m (fun x => { x with disc := true, off := last, reconAt := at', holdAt := none, burst := 0, waking := none })
  let s := (s.setBit (T1_STATUS m) 8 false).setBit (T1_STATUS m) 9 true
  (s.t1sReport m 4 (if last then 2 else 1) false).t1sWithdraw m

/-- R235. RETRYMS after a disconnection the PHY reconnects; a reconnection that held for RETRYMS is event 0x04, REASON 0x3, and resets
the count. `held` tells the end of the holding time from the reconnection itself. -/
def phyReconnect (t m : Nat) (held : Bool) (s : State) : State :=
  let s := s.tick t
  let x := (s.mort m).t1s
  let rms := s.fld (T1_PHY m) 8 10 * 1000000
  if !s.isT1s m || (s.mort m).tenon != .t1sInt then s
  else if held then
    if !x.disc && x.holdAt.any (fun h => h ≤ t) then
      (s.onT1s m (fun x => { x with holdAt := none, retries := 0 })).t1sReport m 4 3 false
    else s
  else if x.disc && !x.off && x.reconAt.any (fun r => r ≤ t) then
    (s.onT1s m (fun x => { x with disc := false, reconAt := none, retries := x.retries + 1, holdAt := some (t + rms) })).setBit (T1_STATUS m) 9 false
  else s

/-- R235. A processed PHYRST reconnects a PHY that stays off. -/
def phyResetCommand (m : Nat) (s : State) : State :=
  if s.isT1s m && (s.mort m).tenon == .t1sInt && (s.mort m).t1s.off then
    let rms := s.fld (T1_PHY m) 8 10 * 1000000
    (s.onT1s m (fun x => { x with disc := false, off := false, retries := 0, reconAt := none, holdAt := some (s.now + rms) })).setBit (T1_STATUS m) 9 false
  else s

/-- R237. A processed WAKEREQ: the driving tenon of an integrated PHY sends 1 ms of continuous transmission. -/
def t1sWakeRequest (m : Nat) (s : State) : State :=
  if s.isT1s m && (s.mort m).tenon == .t1sInt && s.drives m && !(s.mort m).t1s.disc then s.onT1s m (fun x => { x with waking := some (s.now + 1000000) }) else s

/-- R238 in service. A differential above 150 mV for longer than WFILT µs is event 0x05. -/
def t1sWakeInService (t m us : Nat) (s : State) : State :=
  let s := s.tick t
  if s.isT1s m && (s.mort m).tenon == .t1sInt && !(s.mort m).t1s.disc && s.fld (T1_PHY m) 18 8 < us then s.t1sReport m 5 0 false else s

/-- A T1S tenon begins to drive: every queued frame counts as unsent (R229), and is withdrawn where the PHY is disconnected (R235). -/
def State.t1sBeginDriving (s : State) (m : Nat) : State :=
  (s.onT1s m (fun x => { x with attempts := 0, burst := 0, queue := x.queue.map (fun q => (q.1, false, q.2.2)) })).t1sWithdraw m

/-- Entries whose event was processed free at the start of an epoch's placement (R229). -/
def State.t1sFree (s : State) (m : Nat) : State := s.onT1s m (fun x => { x with queue := x.queue.filter (fun q => !q.2.2) })

/-- The egress record as the queue holds it: the frame padded to 60 octets before its own FCS (R229). -/
def t1sQueued (rec : Octets) : Octets :=
  let f := rec.drop 4
  let body := f.take (f.length - 4)
  let body := body ++ List.replicate (60 - body.length) 0
  t1sRecord (body ++ fcsOf body)

/-- The check at enqueue (R229): a frame longer than MAXLEN is discarded and counted. -/
def State.t1sEgress (s : State) (m : Nat) (rec : Octets) : Bool := leAt rec 0 2 ≤ s.fld (T1_CFG m) 16 14

/-- The frames that find room in the queue of 16 enter it in order; the rest stay in the scheduler (R229). A disconnected PHY withdraws them (R235). -/
def State.t1sPlaceAll (s : State) (m : Nat) (l : List Egress) : List Egress × State :=
  let room := 16 - (s.mort m).t1s.queue.length
  let put := (l.take room).map (fun e => ({ e with octets := t1sQueued e.octets }, false, false))
  let s := s.onT1s m (fun x => { x with queue := x.queue ++ put })
  let s := s.t1sWithdraw m
  (l.drop room, s.setFld (T1_STATUS m) 16 5 (s.mort m).t1s.queue.length)

/-- Mark the first queue entry not yet freeing: its event is in the ledger being processed. -/
def markFreeing : List (Egress × Bool × Bool) → List (Egress × Bool × Bool)
  | [] => []
  | q :: qs => if q.2.2 then q :: markFreeing qs else (q.1, true, true) :: qs

/-- A processed T1S event (R229, R236, R239). -/
def State.t1sEvent (s : State) (m : Nat) (r : Octets) : State :=
  let mark := fun (s : State) => s.onT1s m (fun x => { x with queue := markFreeing x.queue })
  match oct r 0 with
  | 1 => (mark s).cInc (MZ_CNT m 5)
  | 2 => ((mark s).cInc (T1_CNT m 5)).cEvt (MZ_EVENT m) 19
  | 3 => ((s.cPut (T1_STATUS m) 0 1 (b2n ((r.getD 2 0).getLsbD 0))).cInc (T1_CNT m 6)).cEvt (MZ_EVENT m) 16
  | 4 =>
    let s := ((s.cPut (T1_STATUS m) 1 1 (if oct r 1 = 3 then 0 else 1)).cPut (T1_STATUS m) 2 1 (if oct r 1 = 2 then 1 else 0)).cInc (T1_CNT m 4)
    let s := s.cEvt (MZ_EVENT m) 17
    if oct r 1 = 2 then s.cEvt (MZ_EVENT m) 18 else s
  | 5 => (s.cInc (T1_CNT m 7)).cEvt (MZ_EVENT m) 20
  | _ => s

end Sys2Proof.Machine
end

