-- ==== Sys2Proof/Machine/Mortise.lean ====
section
/-! DEFINITION. Machine/Mortise.lean: what the mortises share (R122 to R149): loading a tenon, entering service, pins and banks, inhibits,
re-tenoning (R110 to R115), and beginning to drive. -/
namespace Sys2Proof.Machine
open Sys2Proof

/-- The tenon of a TENON code (R127); a code that does not exist is idle. -/
def tenonOf (code : Nat) : Tenon :=
  match code with
  | 1 => .can | 2 => .lin | 3 => .t1sExt | 4 => .t1sInt | _ => .idle

/-- The TENON code of a tenon. -/
def tenonCode (t : Tenon) : Nat :=
  match t with
  | .idle => 0 | .can => 1 | .lin => 2 | .t1sExt => 3 | .t1sInt => 4

/-- The section of bent `i` in service, empty when it has none. -/
def State.sectOf (s : State) (i : Nat) : Octets := (assoc s.fr.sects i).getD []

/-- Descriptor `j` of a mortise bent section (R92); an absent section leaves idle descriptors. -/
def mbDesc (sect : Octets) (j : Nat) : Octets := padTo 256 (slice sect (64 + 256 * j) 256)

/-- BANKV of a mortise bent section; an empty bent declares its bank unpowered. -/
def mbBankv (sect : Octets) : Nat := if sect.isEmpty then 2 else oct sect 0

/-- Forget the stored registers with offsets in `[lo, hi)`: they hold their reset values again. -/
def State.clearRegs (s : State) (lo hi : Nat) : State := { s with regs := s.regs.filter (fun r => r.1 < lo || hi ≤ r.1) }

/-- Load `n` little-endian registers from octets, four octets each, from offset `a` on. -/
def State.loadRegs (s : State) (a n : Nat) (l : Octets) : State :=
  (List.range n).foldl (fun s i => s.wrN (a + 4 * i) (leAt l (4 * i) 4)) s

/-- The registers a CAN descriptor and SB0 give (R202, R365). -/
def State.loadCan (s : State) (m : Nat) (d : Octets) : State :=
  let s := s.wrN (CN_CFG m) (leAt d 0x40 2 + oct d 0x57 * 2 ^ 16)
  let s := ((s.wrN (CN_BTIM_N m) (leAt d 0x44 4)).wrN (CN_BTIM_D m) (leAt d 0x48 4)).wrN (CN_BTIM_X m) (leAt d 0x4C 4)
  let s := ((s.wrN (CN_TDC_D m) (leAt d 0x50 2)).wrN (CN_TDC_X m) (leAt d 0x52 2)).wrN (CN_XLPWM m) (leAt d 0x54 2)
  let s := (s.wrN (CN_LONE m) (oct d 0x56)).loadRegs (CN_OBJ m 0) 32 (d.drop 0x60)
  let s := (List.range 4).foldl (fun s k => (s.wrN (CN_PC_ID m k) (leAt d (0xE0 + 8 * k) 4)).wrN (CN_PC_MASK m k) (leAt d (0xE4 + 8 * k) 4)) s
  let op := bitsN (leAt d 0x40 2) 8 2
  let s := (s.setFld (CN_CTRL m) 0 2 op).setFld (CN_STATUS m) 4 2 op
  let s := s.onCan m (fun c => { c with opmode := op })
  match runUnit (s.sectOf SB0) 0 4 1064 m with
  | some x => (s.loadRegs (CN_TTCFG m) 10 x).loadRegs (CN_TTMX m 0) 256 (x.drop 40)
  | none => s

/-- The registers a LIN descriptor and SB0 give. -/
def State.loadLin (s : State) (m : Nat) (d : Octets) : State :=
  let s := ((s.wrN (LN_CFG m) (leAt d 0x40 4)).wrN (LN_BAUD m) (leAt d 0x44 4)).wrN (LN_TIMEO m) (leAt d 0x48 4)
  let s := s.loadRegs (LN_PUB_L m) 12 (d.drop 0x50)
  let run := (leAt d 0x40 4).testBit 7
  let s := (s.setBit (LN_CTRL m) 2 run).setBit (LN_STATUS m) 2 run
  let s := s.onLin m (fun l => { l with run := run })
  match runUnit (s.sectOf SB0) 0 5 1024 m with
  | some x => s.loadRegs (LN_SCH m 0) 256 x
  | none => s

/-- The registers a T1S descriptor gives. -/
def State.loadT1s (s : State) (m : Nat) (d : Octets) : State := s.loadRegs (T1_CFG m) 3 (d.drop 0x40)

/-- The counters of a tenon area, as a register and a number of words; none for the idle tenon. -/
def tenonCnts (t : Tenon) (m : Nat) : Nat × Nat :=
  match t with
  | .can => (CN_CNT m 0, 8)
  | .lin => (LN_CNT m 0, 8)
  | .idle => (0, 0)
  | _ => (T1_CNT m 0, 8)

/-- Load a tenon: its area starts from reset values overwritten by its descriptor (R144), its state from the beginning. -/
def State.loadTenon (s : State) (m : Nat) (d : Octets) : State :=
  let s := s.clearRegs (MZ_ID m + 0x100) (MZ_ID m + 0x1000)
  let s := s.onMort m (fun x => { x with tenon := tenonOf (oct d 0), desc := d, can := {}, lin := {}, t1s := {} })
  match tenonOf (oct d 0) with
  | .can => s.loadCan m d
  | .lin => s.loadLin m d
  | .t1sExt => s.loadT1s m d
  | .t1sInt => s.loadT1s m d
  | .idle => s

/-- MZ_HCOPY from HCRING where the descriptor sets HCOPY (R143). -/
def State.loadHcopy (s : State) (m : Nat) (d : Octets) : State :=
  if (d.getD 1 0).getLsbD 2 then s.wrN (MZ_HCOPY m) ((oct d 0x12 &&& 0xF6) ||| 1) else s

/-- Configure one mortise of a bent: its pins take PIDLE (R131) and its tenon is loaded. A bent replaced or brought back at a swap keeps the counters of a
tenon of the same kind (R561); before service they are zero. -/
def State.configMort (s : State) (m : Nat) (d : Octets) : State :=
  let old := (s.mort m).tenon
  let (a, n) := if tenonOf (oct d 0) == old then tenonCnts old m else (0, 0)
  let was := (List.range n).map (fun k => (a + 4 * k, s.rd (a + 4 * k)))
  let s := (s.loadTenon m d).onMort m (fun x => { x with st := .idle, pins := .pidle, newDesc := none, loaded := false, resume := none, window := none })
  was.foldl (fun s x => s.wr x.1 x.2) s

/-- Configure mortise bent `k` from its section: the bank's declared class and sixteen descriptors. -/
def State.configMB (s : State) (k : Nat) (sect : Octets) : State :=
  let s := { s with banks := updAt s.banks k (fun b => { b with decl := mbBankv sect }), fr := { s.fr with cfg := k :: s.fr.cfg } }
  (List.range 16).foldl (fun s j => s.configMort (16 * k + j) (mbDesc sect j)) s

/-- A tenon takes its pins where its unit drives (R131, R137); the idle tenon and an isolated bent leave them idle (R132). -/
def State.takePins (s : State) (m : Nat) : State :=
  s.onMort m (fun x => { x with pins := if s.bentUp (m / 16) && s.mayDrive && s.tw.driving && (!s.tw.fenced || x.tenon == .t1sExt || x.tenon == .t1sInt) && x.tenon != .idle && x.st == .inService then .tenon else x.pins })

/-- The tenon of a mortise enters service at the start of epoch `n` (R131): MZ_EVENT.UP, which is covered (R149). A LIN tenon's first slot begins from here
(R218), and so does the time a CAN tenon waits for a first reference message (R196). -/
def State.enterMort (s : State) (n m : Nat) : State :=
  if (s.mort m).tenon == .idle then s.onMort m (fun x => { x with st := .idle })
  else
    let s := (s.onMort m (fun x => { x with st := .inService })).takePins m
    let s := if (s.mort m).tenon == .lin then s.linStart m n else s
    let s := if (s.mort m).tenon == .can then s.onCan m (fun c => { c with lastRef := s.epochStart n }) else s
    s.evtOf n (MZ_EVENT m) 0

/-- The tenons of mortise bent `k` enter service at the start of epoch `n`. -/
def State.enterMB (s : State) (n k : Nat) : State :=
  (List.range 16).foldl (fun s j => (s.loadHcopy (16 * k + j) (s.mort (16 * k + j)).desc).enterMort n (16 * k + j)) s

/-! ### Pins and banks -/

/-- Is pin `p` an output of the tenon in use (R128)? -/
def tenonOutput (t : Tenon) (d : Octets) (cmdr : Bool) (p : Nat) : Bool :=
  match t with
  | .can => p == 0 || p == 2
  | .lin => p == 0 || p == 2 || (p == 3 && cmdr)
  | .t1sExt => p == 0 || p == 3
  | _ => let _ := d; false

/-- The code of pin `p` in a PIDLE or PSLEEP field. -/
def pinCode (d : Octets) (off p : Nat) : Nat := bitsN (leAt d off 2) (4 * p) 4

/-- PINV of a pin. -/
def pinInv (d : Octets) (p : Nat) : Bool := (oct d 0x10).testBit p

/-- What a pin state code of `d` at `off` puts on the ball: PINV inverts the driven levels (R129, R135). -/
def heldPin (d : Octets) (off p : Nat) : PinOut :=
  match pinCode d off p with
  | 3 => if pinInv d p then .high else .low
  | 4 => if pinInv d p then .low else .high
  | _ => .off

/-- The descriptor that stands once a re-tenoning under way is over. -/
def Mortise.nextDesc (x : Mortise) : Octets := x.newDesc.getD x.desc

/-- The descriptor whose idle states the pins of a mortise take: the new one once its pins are configured (R113). -/
def Mortise.pinDesc (x : Mortise) : Octets := if x.loaded then x.nextDesc else x.desc

/-- What the device puts on the ball of pin `p` of mortise `m` (R128, R129, R132, R133): nothing on an unpowered bank, the sleep state that the retention
latches hold but for P1 of an armed wake listener, the idle state, or an output of the tenon, which PINV inverts. -/
def State.pinOut (s : State) (m p : Nat) : PinOut :=
  let x := s.mort m
  if (nth s.banks (m / 16)).sensed == 2 then .off
  else match x.pins with
    | .highZ => .off
    | .pidle => heldPin x.pinDesc 0x0A p
    | .psleep =>
      let listens := p == 1 && (List.range 16).any (fun k => s.sill.listeners.testBit k && bitsN (nth s.sill.lstCfg (5 * k)) 0 7 == m)
      if listens then .off else heldPin x.latch 0x0C p
    | .tenon => if tenonOutput x.tenon x.desc (s.bit (LN_CFG m) 0) p then .tenon (pinInv x.desc p) else heldPin x.desc 0x0A p

/-- Is pin `p` of mortise `m` driven now? -/
def State.pinDriven (s : State) (m p : Nat) : Bool := s.pinOut m p != .off

/-- R134. An output pin's sensed level differs from its driven level for 1 µs: PINFAULT and an F0 notice; the tenon keeps running. -/
def pinFault (t m pin : Nat) (s : State) : State :=
  let s := s.tick t
  if s.dieOn && m < 128 && pin < 4 && s.pinDriven m pin then (s.evt (MZ_EVENT m) 2).notice 0x05 (m / 16) m else s

/-- The sensed class of a bank changes (R125). -/
def State.senseBank (s : State) (k cls : Nat) : State := { s with banks := updAt s.banks k (fun b => { b with sensed := cls % 4 }) }

/-- R126. The sensed class of a bank in service differs from BANKV for 10 µs: BANKFAULT in all sixteen pages and an F2 for the bent. -/
def bankFault (t k cls : Nat) (s : State) : State :=
  let s := s.tick t
  if 8 ≤ k then s else
  let s := s.senseBank k cls
  if !s.dieOn || !s.bentUp k || cls % 4 == (nth s.banks k).decl then s else
  let s := (List.range 16).foldl (fun s j => s.evtOf s.stampEp (MZ_EVENT (16 * k + j)) 3) s
  s.raiseFault 2 0x21 k 0xFF

/-- R130. The supply of a bank rises after the bank was unpowered: its pins are high-impedance until the bent is configured. -/
def bankPowerUp (t k cls : Nat) (s : State) : State :=
  let s := s.tick t
  if 8 ≤ k || (nth s.banks k).sensed != 2 || cls % 4 == 2 then s else
  (List.range 16).foldl (fun s j => s.onMort (16 * k + j) (fun x => { x with pins := .highZ })) (s.senseBank k cls)

/-! ### Host commands to a mortise -/

/-- R142. A processed TXINH write acts from its epoch on. -/
def mortiseTxInhibit (m : Nat) (on : Bool) (s : State) : State :=
  if m < 128 then (s.onMort m (fun x => { x with txinh := on })).setBit (MZ_CTRL m) 0 on else s

/-- R142. A processed RXINH write acts from its epoch on. -/
def mortiseRxInhibit (m : Nat) (on : Bool) (s : State) : State :=
  if m < 128 then (s.onMort m (fun x => { x with rxinh := on })).setBit (MZ_CTRL m) 1 on else s

/-- R145. A processed MZ_HCOPY write sets enable, mode and ring. -/
def hostCopyControl (m val : Nat) (s : State) : State :=
  if m < 128 then s.wrN (MZ_HCOPY m) (val &&& 0xF7) else s

/-! ### Re-tenoning (R110 to R115, R143, R144) -/

/-- Frames of mortise `m` that have not started on the wire are flushed and counted in MZ_CNT6 (R114). -/
def State.flushMort (s : State) (m : Nat) : State :=
  let x := s.mort m
  let (n, s) := s.flushPort m
  let onWire := fun (k : Nat) => x.can.wire == some k
  let cans := ((List.range 32).filter (fun k => (nth x.can.objs k).active.isSome && !onWire k && !(nth x.can.objs k).sent && !(nth x.can.objs k).spent)).length +
    (x.can.objs.filter (fun o => o.nxt.isSome)).length
  let lins := (x.lin.bufs.filter LinBuf.waiting).length
  let wireT := if s.drives m then (x.t1s.waiting.take (min 1 x.t1s.burst)) else []
  let t1s := x.t1s.waiting.length - wireT.length
  let objs := (List.range 32).map (fun k => let o := nth x.can.objs k; if onWire k || o.sent then { o with nxt := none } else {})
  let s := s.onMort m (fun x => { x with
    can := { x.can with objs := objs },
    lin := { x.lin with bufs := List.replicate 64 {} },
    t1s := { x.t1s with
      burst := wireT.length
      queue := ((List.range x.t1s.queue.length).filterMap (fun i =>
        (x.t1s.queue[i]?).bind (fun q => if q.2.1 || wireT.contains i then some q else none))) } })
  s.inc (MZ_CNT m 6) (n + cans + lins + t1s)

/-- The old tenon's pins are released: state 0x3, and its area reads as zero (R111, R112, R144). -/
def State.releasePins (s : State) (m : Nat) : State := s.onMort m (fun x => { x with st := .loading, pins := .pidle })

/-- What the old tenon has on the wire is aborted: its pins are released, DRAINLATE in the mortise, for epoch `n`, and in the loader (R112). -/
def State.abortTenon (s : State) (n m : Nat) : State :=
  let s := s.onMort m (fun x => { x with
    can := { x.can with wire := none }, lin := { x.lin with sending := none, hdr := none }, t1s := { x.t1s with burst := 0, waking := none } })
  ((s.releasePins m).evtOf n (MZ_EVENT m) 1).evt FR_EVENT 11

/-- Is a transmission of a mortise under way, whoever may drive now: a CAN frame, a LIN header or response, a T1S frame or wake? -/
def State.txBusy (s : State) (m : Nat) : Bool :=
  let x := s.mort m
  match x.tenon with
  | .can => x.can.wire.isSome
  | .lin => x.lin.sending.isSome || x.lin.hdr.any (fun h => h.own && decide (s.now < h.start + h.bits * s.linBitNs m))
  | .idle => false
  | _ => x.t1s.burst != 0 || x.t1s.waking.any (fun e => s.now < e)

/-- Does the old tenon of mortise `m` still need its pins (R111): a transmission in progress, or the frame slot of a LIN commander? -/
def State.onWire (s : State) (m : Nat) : Bool :=
  let x := s.mort m
  s.drives m && (s.txBusy m ||
    (x.tenon == .lin && s.bit (LN_CFG m) 0 && (x.lin.slot.2 < 64 || x.lin.sleepSlot) && x.lin.slotEnd.any (fun e => s.now < e)))

/-- The resume epoch A = G + ⌈(DRAIN + 3,000) ÷ E⌉, DRAIN the old tenon's (R113). -/
def State.resumeEpoch (s : State) (m g : Nat) : Nat := g + cdiv ((leAt (s.mort m).desc 2 2 + 3000) * 1000) s.elen

/-- The start of epoch G for a changed mortise: no new transmission, frames not started flushed, pins released at once when nothing is on
the wire (R111, R113, R114). DESIGN CHOICE (log 25): where one swap changes several mortises with different resume epochs, FR_RESUME shows that of the
last mortise in order; a mortise that a second swap changes before its resume epoch stays without inputs from the first G on. -/
def State.retenon (s : State) (m g : Nat) (d : Octets) : State :=
  let a := s.resumeEpoch m g
  let x := s.mort m
  let from_ := if x.resume.isSome then (x.window.map (·.1)).getD g else g
  let drain := leAt x.desc 2 2 * 1000
  let busy := s.onWire m
  let s := s.onMort m (fun x => { x with newDesc := some d, loaded := false, swapG := g, resume := some a, window := some (from_, a) })
  let s := ((s.wrN (MZ_RES_L m) a).wrN FR_RESUME_L a).onFr (fun f => { f with resumeEp := a })
  if x.resume.isSome then s else
  let s := (s.flushMort m).onMort m (fun x => { x with st := .draining, drainBy := s.epochStart g + drain })
  if busy then s else s.releasePins m

/-- The covered part of a re-tenoning at G: MZ_EVENT and the covered counters are cleared, MZ_HCOPY loaded (R143). DESIGN CHOICE (log 25): the clearing
stands at the processing of G, so it takes with it the bits of MZ_EVENT outside the guarantee that were set since G began. -/
def State.retenonCovered (s : State) (m : Nat) (d : Octets) : State :=
  let s := (s.wrN (MZ_EVENT m) 0).loadHcopy m d
  let s := [0, 3, 4, 5].foldl (fun s k => s.wrN (MZ_CNT m k) 0) s
  match (s.mort m).tenon with
  | .can => [0, 1, 4, 5, 6, 7].foldl (fun s k => s.wrN (CN_CNT m k) 0) s
  | .lin => [0, 1, 2, 3, 4, 6].foldl (fun s k => s.wrN (LN_CNT m k) 0) s
  | .t1sExt => [1, 4, 5, 6, 7].foldl (fun s k => s.wrN (T1_CNT m k) 0) s
  | .t1sInt => [1, 4, 5, 6, 7].foldl (fun s k => s.wrN (T1_CNT m k) 0) s
  | .idle => s

/-- R111. The old tenon's transmission, or a LIN commander's slot, has ended: the pins are released. -/
def oldTenonRelease (t m : Nat) (s : State) : State :=
  let s := s.tick t
  if m < 128 && (s.mort m).st == .draining && !s.onWire m then s.releasePins m else s

/-- The old tenon is done at or after its DRAIN time: what is still on the wire is aborted, else the pins are released (R111, R112). -/
def State.endDrain (s : State) (m : Nat) : State :=
  if s.onWire m then s.abortTenon s.stampEp m else s.releasePins m

/-- R112. A transmission still in progress DRAIN µs after the start of G is aborted. -/
def drainAbort (t m : Nat) (s : State) : State :=
  let s := s.tick t
  if m < 128 && (s.mort m).st == .draining && (s.mort m).drainBy ≤ t then s.endDrain m else s

/-- R113. The new tenon is loaded and its pins are configured; counters outside the guarantee are cleared (R143). The tenon area reads as zero until
the resume epoch, and commands of epochs before it act on the old tenon or on none (R144). -/
def tenonLoaded (t m : Nat) (s : State) : State :=
  let s := s.tick t
  if m < 128 && (s.mort m).st == .loading && (s.mort m).newDesc.isSome && !(s.mort m).loaded then
    ([1, 2, 6, 7].foldl (fun s k => s.wrN (MZ_CNT m k) 0) s).onMort m (fun x => { x with loaded := true, pins := .pidle })
  else s

/-- R113. From its resume epoch the mortise runs the new tenon, whose area holds reset values overwritten by its descriptor (R144), and hands inputs to
the epoch engine again; a drain or a load not finished by then ends first. -/
def tenonResume (a m : Nat) (s : State) : State :=
  if m < 128 && (s.mort m).resume == some a && a ≤ s.ep.cur.getD 0 then
    let s := if (s.mort m).st == .draining then s.endDrain m else s
    let s := tenonLoaded s.now m s
    let s := match (s.mort m).newDesc with
      | some d => s.loadTenon m d
      | none => s
    (s.onMort m (fun x => { x with newDesc := none, loaded := false, resume := none })).enterMort a m
  else s

/-- A swap replaces SB0 under a mortise: a CAN matrix waits for its row 0 (R200); DESIGN CHOICE (log 33): a LIN schedule is the new one at once, and the
slot that runs keeps its end. -/
def State.planSwap (s : State) (m : Nat) (sect : Octets) : State :=
  match (s.mort m).tenon with
  | .can => s.matrixSwap m ((runUnit sect 0 4 1064 m).getD (List.replicate 1064 0))
  | .lin => s.loadRegs (LN_SCH m 0) 256 ((runUnit sect 0 5 1024 m).getD (List.replicate 1024 0))
  | _ => s

/-! ### Beginning to drive (R137, R179, R188, R220, R225) -/

/-- One mortise begins to drive. -/
def State.beginDrivingMort (s : State) (m : Nat) : State :=
  if (s.mort m).st != .inService || (s.mort m).tenon == .idle || !s.bentUp (m / 16) then s else
  let s := s.onMort m (fun x => { x with pins := .tenon })
  match (s.mort m).tenon with
  | .can => s.canBeginDriving m
  | .lin => s.linBeginDriving m
  | _ => s.t1sBeginDriving m

/-- R179. A unit that may drive and does not yet begins to: every tenon takes its pins, counts its frames as unsent and starts afresh. -/
def beginDriving (t : Nat) (s : State) : State :=
  let s := s.tick t
  if !s.dieOn || !s.mayDrive || s.tw.driving then s else
  (List.range 128).foldl (fun s m => s.beginDrivingMort m) (s.onTw (fun w => { w with driving := true }))

/-- A unit stops driving: every tenon's pins take their idle states (R132, R137). -/
def State.stopDriving (s : State) : State :=
  { (s.onTw (fun w => { w with driving := false })) with mz := s.mz.map Mortise.idlePins }.tecZero

end Sys2Proof.Machine
end

