-- ==== Sys2Proof/Machine/Scheduler.lean ====
section
/-! DEFINITION. Machine/Scheduler.lean: flow meters, egress admission, selection and planning, gate lists, CAN limiters, histograms, and the
SB0 section (R336 to R367, R556). -/
namespace Sys2Proof.Machine
open Sys2Proof

/-! ### Flow meters (R336 to R341) -/

/-- First octet of the meter region (R506). -/
abbrev meterBase : Nat := 0x980 * 2 ^ 20

/-- Address of a meter's entry. -/
abbrev meterAt (m : Nat) : Nat := meterBase + 64 * m

/-- A meter entry. -/
def State.meter (s : State) (m : Nat) : Octets := s.memO (meterAt m) 64

/-- Colours of policing. -/
inductive Colour
  | green | yellow | red | dropped
  deriving DecidableEq, Repr

/-- Police one input (R338). -/
def State.police (s : State) (m len n : Nat) (elig : Bool) : Colour × State :=
  let e := s.meter m
  let ctl := oct e 0
  let maxsdu := leAt e 2 2
  if ctl.testBit 7 || (maxsdu != 0 && maxsdu < len) then
    let s := if ctl.testBit 6 && !ctl.testBit 7 then (s.memWN (meterAt m) 1 (putBit ctl 7 true)).cEvt SC_EVENT 3 else s
    (.dropped, s.memWN (meterAt m + 0x3C) 4 (leAt e 0x3C 4 + 1))
  else
    let us := s.elen / 1000
    let dt := min (n - leAt e 0x28 6) (2 ^ 24)
    let c := leAt e 0x18 8 + leAt e 4 4 * us * dt
    let ccap := leAt e 0x0C 4 * 8000
    let ctok := min c ccap
    let x := leAt e 0x20 8 + leAt e 8 4 * us * dt + (if ctl.testBit 1 then c - ccap else 0)
    let etok := min x (leAt e 0x10 4 * 8000)
    let b := len * 8000
    let (col, ctok, etok) : Colour × Nat × Nat :=
      if ctl.testBit 5 then (.red, ctok, etok)
      else if (!ctl.testBit 2 || !elig) && b ≤ ctok then (.green, ctok - b, etok)
      else if b ≤ etok then (.yellow, ctok, etok - b)
      else (.red, ctok, etok)
    let red := col == .red
    let set := red && ctl.testBit 4 && !ctl.testBit 5
    let s := if set then (s.memWN (meterAt m) 1 (putBit ctl 5 true)).cEvt SC_EVENT 3 else s
    let s := ((s.memWN (meterAt m + 0x18) 8 ctok).memWN (meterAt m + 0x20) 8 etok).memWN (meterAt m + 0x28) 6 n
    let off := match col with
      | .green => 0x30
      | .yellow => 0x34
      | _ => 0x38
    (col, s.memWN (meterAt m + off) 4 (leAt e off 4 + 1))

/-- Full tokens, clear states, LASTEP (R340, R341). -/
def State.meterFill (s : State) (m n : Nat) : State :=
  let e := s.meter m
  (((s.memWN (meterAt m) 1 (oct e 0 % 128 - (bitsN (oct e 0) 5 1) * 32)).memWN (meterAt m + 0x18) 8 (leAt e 0x0C 4 * 8000)).memWN
    (meterAt m + 0x20) 8 (leAt e 0x10 4 * 8000)).memWN (meterAt m + 0x28) 6 n

/-- Are the octets 0x00 to 0x17 of a meter legal (R341)? -/
def meterOk (e : Octets) : Bool :=
  let c := oct e 0
  !c.testBit 5 && !c.testBit 7 && oct e 1 == 0 && leAt e 0x14 4 == 0 && decide (leAt e 0x0C 4 ≤ 16777215) && decide (leAt e 0x10 4 ≤ 16777215)

/-- A refused meter command or activation is counted in SC_CNT10. -/
def State.scRefuse (s : State) (ev : Nat) : State := (s.cInc (SC_CNT 10)).cEvt SC_EVENT ev

/-- R341 OP 0x1. A meter is written with full tokens; counters are kept. -/
def meterWrite (c idx : Nat) (d : List Nat) (s : State) : State :=
  let e := padTo 24 (d.flatMap (natLE 4))
  if idx < 16384 && meterOk e then (s.memW (meterAt idx) e).meterFill idx c else s.scRefuse 0

/-- R341 OP 0x2. REDNOW and BLOCKED are cleared. -/
def meterUnblock (idx : Nat) (s : State) : State :=
  if idx < 16384 then
    let c := oct (s.meter idx) 0
    s.memWN (meterAt idx) 1 (putBit (putBit c 5 false) 7 false)
  else s.scRefuse 0

/-- R341 OP 0x3. The counters of a meter are cleared. -/
def meterClearCounters (idx : Nat) (s : State) : State :=
  if idx < 16384 then s.memW (meterAt idx + 0x30) (List.replicate 16 0) else s.scRefuse 0

/-! ### Admission (R342, R343, R556) -/

/-- A queue of the scheduler. -/
def State.queue (s : State) (q : Nat) : Queue := (assoc s.sch.queues q).getD {}

/-- The machine with a queue replaced; an empty queue is not listed. -/
def State.setQueue (s : State) (q : Nat) (x : Queue) : State :=
  s.onSch (fun c => { c with queues := if x.frames.isEmpty then assocDel c.queues q else assocPut c.queues q x })

/-- The planner of a bay. -/
def State.planner (s : State) (b : Nat) : Planner := nth s.sch.plan b

/-- The machine with a bay's planner changed. -/
def State.onPlan (s : State) (b : Nat) (f : Planner → Planner) : State := s.onSch (fun c => { c with plan := updAt c.plan b f })

/-- The size of an egress frame at its port (R343): a bay's frame length, a mortise's record octets. -/
def Egress.size (e : Egress) : Nat := if e.port < 128 then e.octets.length else (recFrame e.octets).length

/-- Strict classes of a port; the weighted group is the classes below. -/
def State.groupN (s : State) (p : Nat) : Nat := 8 - s.fld (SC_PCFG p) 1 4

/-- A frame becomes head of a class under fair queueing: its finish time (R352). -/
def State.wfqHead (s : State) (b c size : Nat) : State :=
  if s.bit (SC_PCFG (128 + b)) 0 && c < s.groupN (128 + b) then
    let x := s.planner b
    let f := max x.vt (x.fl.getD c 0) + size * 65536 / max 1 (s.fld (SC_CL_W0 (128 + b) c) 0 16)
    s.onPlan b (fun x => { x with fin := x.fin.set c f, fl := x.fl.set c f })
  else s

/-- A tail drop is counted (R343). -/
def State.tailDrop (s : State) (p cnt : Nat) : State := ((s.cInc (SC_PDROP p)).cInc (SC_CNT cnt)).cEvt SC_EVENT 1

/-- Admission to a class (R343). -/
def State.enqueueOk (s : State) (e : Egress) : State :=
  let q := 8 * e.port + e.cls
  let x := s.queue q
  let qmax := s.fld (SC_CL_W3 e.port e.cls) 0 24
  let yth := s.fld (SC_CL_W3 e.port e.cls) 24 4
  if !s.bit (SC_CL_W0 e.port e.cls) 17 then s.tailDrop e.port 1
  else if qmax < x.depth + e.size then s.tailDrop e.port 1
  else if e.elig && decide (qmax * (yth + 1) / 16 < x.depth + e.size) then s.tailDrop e.port 2
  else
    let s := s.setQueue q { frames := x.frames ++ [e], depth := x.depth + e.size }
    let s := if x.frames.isEmpty && 128 ≤ e.port then s.wfqHead (e.port - 128) e.cls (e.size + s.fld (SC_PCFG e.port) 8 8) else s
    s.cInc (SC_CNT 0)

/-- The discards for a mortise as a whole (R556 stage 2): the machine, and whether the frame goes on. -/
def State.mortDiscard (s : State) (n : Nat) (e : Egress) : Option State :=
  let m := e.port
  let x := s.mort m
  if s.bent (m / 16) == .isolated then some s.isoLoss
  else if s.wk.qEp.any (fun q => q ≤ n) then some (s.cInc (WK_CNT 2))
  else match x.window with
    | some (g, a) =>
      if g ≤ e.rel && e.rel < a then some (s.cInc FR_DROP)
      else if e.rel < g then some (s.inc (MZ_CNT m 6))
      else if x.tenon == .idle || x.txinh then some ((s.cInc (MZ_CNT m 4)).cEvt (MZ_EVENT m) 6) else none
    | none => if x.tenon == .idle || x.txinh then some ((s.cInc (MZ_CNT m 4)).cEvt (MZ_EVENT m) 6) else none

/-- The port check of a mortise (R153, R213, R229): the record as it goes on, or the machine with the discard counted. -/
def State.mortCheck (s : State) (e : Egress) : Except State Octets :=
  let m := e.port
  match (s.mort m).tenon with
  | .can => match canEgress (s.rdN (CN_CFG m)) e.octets with
    | some r => .ok r
    | none => .error (s.cInc (CN_CNT m 1))
  | .lin => if s.linEgress m e.octets then .ok e.octets else .error (s.cInc (LN_CNT m 1))
  | _ => if s.t1sEgress m e.octets then .ok e.octets else .error (s.cInc (T1_CNT m 1))

/-- Enqueue one egress frame produced while epoch `n` is processed (R556). -/
def State.enqueue (s : State) (n : Nat) (e : Egress) : State :=
  if s.gone SB0 n then s.isoLoss
  else if e.port < 128 then
    match s.mortDiscard n e with
    | some s => s
    | none => match s.mortCheck e with
      | .error s => s
      | .ok r => (s.cInc (MZ_CNT e.port 3)).enqueueOk { e with octets := r }
  else if e.port < 140 then
    let b := e.port - 128
    if s.wk.qEp.any (fun q => q ≤ n) then s.cInc (WK_CNT 2)
    else if !s.bayEgressOk b e.octets then s.cInc (EB_CNT b 9)
    else (s.cInc (EB_CNT b 8)).enqueueOk { e with octets := bayPad e.octets }
  else s

/-! ### Gate lists (R355 to R360) -/

/-- A gate list as segments (gates, start, end) of one cycle: cut at its end, or its last entry held until it (R356). -/
def gateSegs (ent : List (Nat × Nat)) (cyc : Nat) : List (Nat × Nat × Nat) :=
  let l := ent.foldl (fun (a : List (Nat × Nat × Nat) × Nat) x =>
    if a.2 ≥ cyc then a else (a.1 ++ [(x.1, a.2, min cyc (a.2 + x.2))], a.2 + x.2)) ([], 0)
  match l.1.getLast? with
  | some (g, st, _) => if l.2 < cyc then l.1.dropLast ++ [(g, st, cyc)] else l.1
  | none => []

/-- The entries of list A or B of a bay: (GATES, INTERVAL). -/
def State.gateEnts (s : State) (b : Nat) (isB : Bool) (len : Nat) : List (Nat × Nat) :=
  (List.range (min len 512)).map (fun i =>
    let w := s.rdN (if isB then SC_GLB b i else SC_GLA b i)
    (bitsN w 0 8, bitsN w 8 24))

/-- The segments of a list in force. -/
def State.curSegs (s : State) (b : Nat) (g : GateCur) : List (Nat × Nat × Nat) := gateSegs (s.gateEnts b g.b g.len) g.cyc

/-- Gate `c` at position `pos` of a cycle: open or not, and the time until it changes, if it ever does. -/
def gateRun (segs : List (Nat × Nat × Nat)) (cyc pos c : Nat) : Bool × Option Nat :=
  match segs.find? (fun x => decide (x.2.1 ≤ pos) && decide (pos < x.2.2)) with
  | none => (true, none)
  | some (g, st, _) =>
    let now := g.testBit c
    let later := ((segs.filter (fun x => decide (st < x.2.1))).map (fun x => (x.1, x.2.1 - pos))) ++
      (segs.map (fun x => (x.1, x.2.1 + cyc - pos)))
    (now, (later.find? (fun x => x.1.testBit c != now)).map (·.2))

/-- The position of instant `x` in a list's cycle; cycles run for every integer N (R356). -/
def gatePos (g : GateCur) (x : Nat) : Nat := (((x : Int) - (g.bt : Int)) % (max 1 g.cyc : Int)).toNat

/-- The admin list of a bay as it would come into force. -/
def State.adminList (s : State) (b : Nat) : GateCur :=
  { b := match (s.planner b).cur with | some g => !g.b | none => false,
    len := s.fld (SC_GCTL b) 8 10, bt := s.rd2 (SC_GBASE_L b) (SC_GBASE_H b), cyc := s.fld (SC_GCYC b) 0 30 }

/-- Gate `c` of a bay at instant `x` with the instant of its next change: a change of list at CT counts where it changes the gate. -/
def State.gateAt (s : State) (b c x : Nat) : Bool × Option Nat :=
  if !s.bit (SC_GCTL b) 0 then (true, none) else
  let pl := s.planner b
  let at_ := fun (g : Option GateCur) (x : Nat) => match g with
    | none => (true, none)
    | some g => let (o, d) := gateRun (s.curSegs b g) g.cyc (gatePos g x) c; (o, d.map (fun d => x + d))
  if pl.pend then
    let adm := some (s.adminList b)
    if pl.ct ≤ x then at_ adm x
    else
      let (o, ch) := at_ pl.cur x
      if ch.any (fun y => decide (y < pl.ct)) then (o, ch)
      else
        let (o', ch') := at_ adm pl.ct
        (o, if o' != o then some pl.ct else ch')
  else at_ pl.cur x

/-- Time within [t0, t1) in which gate `c` is open; `fuel` bounds the changes. -/
def State.openTime (s : State) (b c : Nat) : Nat → Nat → Nat → Nat
  | 0, _, _ => 0
  | fuel + 1, t0, t1 =>
    if t1 ≤ t0 then 0 else
    let (o, ch) := s.gateAt b c t0
    let e := match ch with
      | some y => min t1 (max y (t0 + 1))
      | none => t1
    (if o then e - t0 else 0) + s.openTime b c fuel e t1

/-- The longest unbroken open interval of class `c` in the list in force at `t`; none when the class is open throughout (R359). -/
def State.longestOpen (s : State) (b c t : Nat) : Option Nat :=
  if !s.bit (SC_GCTL b) 0 then none else
  let pl := s.planner b
  match (if pl.pend && pl.ct ≤ t then some (s.adminList b) else pl.cur) with
  | none => none
  | some g =>
    let segs := s.curSegs b g
    if segs.all (fun x => x.1.testBit c) then none
    else some ((segs ++ segs).foldl (fun (a : Nat × Nat) x =>
      if x.1.testBit c then let r := a.2 + (x.2.2 - x.2.1); (max a.1 r, r) else (a.1, 0)) (0, 0)).1

/-- The change of list at CT (R358): the admin list comes into force, the old list and its parameters become the admin list. -/
def State.gateSwitch (s : State) (b : Nat) : State :=
  let pl := s.planner b
  let p := 128 + b
  let new := s.adminList b
  let old := pl.cur.getD {}
  let s := s.onPlan b (fun x => { x with cur := some new, pend := false })
  let s := ((s.setFld (SC_GCTL b) 8 10 old.len).wr2 (SC_GBASE_L b) (SC_GBASE_H b) old.bt).setFld (SC_GCYC b) 0 30 old.cyc
  let s := ((s.cPut (SC_PSTAT p) 8 1 (b2n new.b)).cPut (SC_PSTAT p) 9 1 1).cPut (SC_PSTAT p) 10 1 0
  (s.cEvt SC_EVENT 5).cInc (SC_CNT 7)

/-- May the admin list of a bay be activated (R358)? -/
def State.gateOk (s : State) (b : Nat) : Bool :=
  let a := s.adminList b
  decide (1 ≤ a.len) && decide (a.len ≤ 512) && decide (1000 ≤ a.cyc) && decide (a.cyc ≤ 1000000000) &&
    (s.gateEnts b a.b a.len).all (fun e => e.2 != 0)

/-- Activate the admin list for a command stamped in epoch `c` (R358). -/
def State.gateArm (s : State) (b c : Nat) : State :=
  let p := 128 + b
  if (s.planner b).pend || !s.gateOk b then s.scRefuse 6 else
  let a := s.adminList b
  let w := s.epochStart (c + 2 + s.ep.lag) + 2 * s.elen
  let ct := if w ≤ a.bt then a.bt else a.bt + cdiv (w - a.bt) a.cyc * a.cyc
  let s := s.onPlan b (fun x => { x with pend := true, ct := ct })
  s.cPut (SC_PSTAT p) 10 1 1

/-- R358. A processed ACT schedules the admin list at its change time, or is refused. -/
def gateActivate (c bay : Nat) (s : State) : State := if bay < 12 then s.gateArm bay c else s

/-- R358. At CT the admin list comes into force. -/
def gateListChange (t bay : Nat) (s : State) : State :=
  let s := s.tick t
  if bay < 12 && (s.planner bay).pend && (s.planner bay).ct ≤ t then s.gateSwitch bay else s

/-! ### Planning a bay (R347, R348, R351 to R354) -/

/-- The head frame of a class of a bay. -/
def State.headOf (s : State) (b c : Nat) : Option Egress := (s.queue (8 * (128 + b) + c)).frames.head?

/-- The time a frame takes at the planned rate, in ns: ⌈8000 × (len + OVH) ÷ RATE⌉. -/
def State.planNs (s : State) (b : Nat) (e : Egress) : Nat :=
  cdiv (8000 * (e.size + s.fld (SC_PCFG (128 + b)) 8 8)) (s.fld (SC_PRATE (128 + b)) 0 16)

/-- Is a class shaped? -/
def State.shaped (s : State) (b c : Nat) : Bool := s.bit (SC_CL_W0 (128 + b) c) 16

/-- Count credits over planned time [credAt, t): a class rises while its gate is open, it is not held and it does not send (R353). -/
def State.accrue (s : State) (b held t : Nat) (sending : Option Nat) : State :=
  let t0 := (s.planner b).credAt
  if t ≤ t0 then s else
  let cr := (List.range 8).map (fun c =>
    let x := (s.planner b).credit.getD c 0
    if !s.shaped b c || held.testBit c || sending == some c then x else
    let cap : Int := s.rdN (SC_CL_W2 (128 + b) c) * 1000000
    let up := x + (s.rdN (SC_CL_W1 (128 + b) c) * s.openTime b c (t - t0 + 1) t0 t : Nat)
    if cap < x then x else if cap < up then cap else up)
  s.onPlan b (fun p => { p with credit := cr, credAt := t })

/-- Is class `c` eligible at `t` (R348)? -/
def State.eligible (s : State) (b held t c : Nat) : Bool :=
  match s.headOf b c with
  | none => false
  | some e =>
    let (o, ch) := s.gateAt b c t
    !held.testBit c && (!s.shaped b c || decide (0 ≤ (s.planner b).credit.getD c 0)) && o &&
      !ch.any (fun y => decide (y < t + s.planNs b e))

/-- The next class of the group after `c`. -/
def nextGroup (ng c : Nat) : Nat := if c + 1 < ng then c + 1 else 0

/-- Deficit round robin (R351): `fuel` visits at most. -/
def State.pickDrr (s : State) (b held t ng : Nat) : Nat → Option Nat × State
  | 0 => (none, s)
  | fuel + 1 =>
    let p := s.planner b
    let c := p.rr
    if !s.eligible b held t c then
      let s := s.onPlan b (fun p => { p with
        deficit := if (s.headOf b c).isNone then p.deficit.set c 0 else p.deficit, rr := nextGroup ng c, fresh := true })
      s.pickDrr b held t ng fuel
    else
      let d := p.deficit.getD c 0 + (if p.fresh then s.fld (SC_CL_W0 (128 + b) c) 0 16 else 0)
      let size := match s.headOf b c with
        | some e => e.size + s.fld (SC_PCFG (128 + b)) 8 8
        | none => 0
      if size ≤ d then (some c, s.onPlan b (fun p => { p with deficit := p.deficit.set c (d - size), fresh := false }))
      else (s.onPlan b (fun p => { p with deficit := p.deficit.set c d, rr := nextGroup ng c, fresh := true })).pickDrr b held t ng fuel

/-- Weighted fair queueing (R352): the eligible group class with the smallest finish time, the higher class among equals. -/
def State.pickWfq (s : State) (b held t ng : Nat) : Option Nat :=
  (List.range ng).foldl (fun a c =>
    if !s.eligible b held t c then a else
    match a with
    | none => some c
    | some d => if (s.planner b).fin.getD c 0 ≤ (s.planner b).fin.getD d 0 then some c else some d) none

/-- pick(t) of R348. -/
def State.pick (s : State) (b held t : Nat) : Option Nat × State :=
  let ng := s.groupN (128 + b)
  match ((List.range 8).filter (fun c => decide (ng ≤ c) && s.eligible b held t c)).getLast? with
  | some c => (some c, s)
  | none =>
    if ng = 0 then (none, s)
    else if s.bit (SC_PCFG (128 + b)) 0 then (s.pickWfq b held t ng, s)
    else s.pickDrr b held t ng (ng + 1)

/-- Head frames longer than the longest open interval of their class are removed (R359). -/
def State.dropOversize (s : State) (b t c : Nat) : Nat → State
  | 0 => s
  | fuel + 1 =>
    match s.headOf b c, s.longestOpen b c t with
    | some e, some w =>
      if w < s.planNs b e then
        let q := 8 * (128 + b) + c
        let x := s.queue q
        let s := ((s.setQueue q { frames := x.frames.tail, depth := x.depth - e.size }).cInc (SC_CNT 5)).cEvt SC_EVENT 4
        let s := match s.headOf b c with
          | some h => s.wfqHead b c (h.size + s.fld (SC_PCFG (128 + b)) 8 8)
          | none => s
        s.dropOversize b t c fuel
      else s
    | _, _ => s

/-- The frame with DEI set in its outer tag when it carries the drop-eligible mark (R339). -/
def markDei (e : Egress) : Egress :=
  if e.elig && isTpid (recFrame e.octets) 12 then
    { e with octets := e.octets.set 18 (BitVec.ofNat 8 (putBit (oct e.octets 18) 4 true)) } else e

/-- Select the head of class `c` at planned instant `t` (R347): handed to the MAC; finish times and credit follow. -/
def State.takeHead (s : State) (b held t c : Nat) : State :=
  match s.headOf b c with
  | none => s
  | some e =>
    let q := 8 * (128 + b) + c
    let x := s.queue q
    let d := s.planNs b e
    let size := e.size + s.fld (SC_PCFG (128 + b)) 8 8
    let close := (s.gateAt b c t).2
    let s := s.setQueue q { frames := x.frames.tail, depth := x.depth - e.size }
    let s := s.bayHand b { markDei e with start := t, close := if s.bit (SC_GCTL b) 0 then close else none }
    let ng := s.groupN (128 + b)
    let wfq := s.bit (SC_PCFG (128 + b)) 0
    let s := if wfq && c < ng then s.onPlan b (fun p => { p with vt := p.fin.getD c 0 }) else s
    let s := match s.headOf b c with
      | some h => s.wfqHead b c (h.size + s.fld (SC_PCFG (128 + b)) 8 8)
      | none => s
    let s := if wfq && (List.range ng).all (fun k => (s.headOf b k).isNone) then
      s.onPlan b (fun p => { p with vt := 0, fl := List.replicate 8 0 }) else s
    let s := s.accrue b held (t + d) (some c)
    let cr : Int := (s.planner b).credit.getD c 0 + (s.rdN (SC_CL_W1 (128 + b) c) * d : Nat) - (8 * size * 1000000 : Nat)
    let s := if s.shaped b c then s.onPlan b (fun p => { p with credit := p.credit.set c cr }) else s
    s.onPlan b (fun p => { p with v := t + d })

/-- next_event(t) of R347: the next gate change or change time, the instant a shaped waiting class reaches zero credit, or the window's end. -/
def State.nextEvent (s : State) (b t stop : Nat) : Nat :=
  let gates := (List.range 8).filterMap (fun c => (s.gateAt b c t).2)
  let ct := if (s.planner b).pend && t < (s.planner b).ct then [(s.planner b).ct] else []
  let cred := (List.range 8).filterMap (fun c =>
    let x := (s.planner b).credit.getD c 0
    let idle := s.rdN (SC_CL_W1 (128 + b) c)
    if s.shaped b c && (s.headOf b c).isSome && decide (x < 0) && idle != 0 then some (t + cdiv (-x).toNat idle) else none)
  ((gates ++ ct ++ cred).filter (fun y => decide (t < y))).foldl min stop

/-- The planner's loop over the window up to `stop` (R347). -/
def State.planLoop (s : State) (b held stop : Nat) : Nat → Nat → State
  | 0, _ => s
  | fuel + 1, t =>
    let s := s.accrue b held t none
    let s := if (s.planner b).pend && (s.planner b).ct ≤ t then s.gateSwitch b else s
    if stop ≤ t then s else
    let s := (List.range 8).foldl (fun s c => s.dropOversize b t c ((s.queue (8 * (128 + b) + c)).frames.length)) s
    match s.pick b held t with
    | (none, s) => s.planLoop b held stop fuel (s.nextEvent b t stop)
    | (some c, s) =>
      let s := s.takeHead b held t c
      s.planLoop b held stop fuel (s.planner b).v

/-- The selection of processed epoch `k` on a bay (R345, R347, R354, R258). Planned time, over which credits accrue, begins with the first window. -/
def State.selectBay (s : State) (k b : Nat) : State :=
  let p := 128 + b
  let hold := (s.bay b).hold
  let held := (List.range 8).foldl (fun a c => if hold.getD c 0 = 0 then a else a + 2 ^ c) 0
  let s := s.cPut (SC_PSTAT p) 0 8 held
  let s := s.onBay b (fun x => { x with hold := x.hold.map (· - 1) })
  if s.fld (SC_PRATE p) 0 16 = 0 then s else
  let w := s.epochStart (k + 2 + s.ep.lag)
  let s := if (s.planner b).credAt = 0 then s.onPlan b (fun x => { x with credAt := w }) else s
  let s := s.planLoop b held (w + s.elen) (2 * s.elen) (max (s.planner b).v w)
  (List.range 8).foldl (fun s c =>
    let x := (s.planner b).credit.getD c 0 / 1000000
    let x := if x < -(2 ^ 31) then -(2 ^ 31) else if 2 ^ 31 - 1 < x then 2 ^ 31 - 1 else x
    s.wrN (SC_CRED p c) (wrapI 32 x)) s

/-! ### Placement on mortises (R346, R361, R362) -/

/-- The limiter that governs a CAN frame: the lowest-numbered that matches (R361). -/
def State.limiter (s : State) (m idw : Nat) : Option Nat :=
  (List.range 16).find? (fun j =>
    let id := s.rdN (SC_LIM_ID m j)
    id.testBit 31 && id.testBit 29 == idw.testBit 29 &&
      (((id ^^^ idw) &&& s.rdN (SC_LIM_MASK m j)) % 2 ^ 29 == 0))

/-- A limiter's credit in ns. -/
def State.limCredit (s : State) (m j : Nat) : Int := signedN 32 (s.rdN (SC_LIM_CRED m j))

/-- The machine with a limiter's credit replaced. -/
def State.setLim (s : State) (m j : Nat) (x : Int) : State := s.wrN (SC_LIM_CRED m j) (wrapI 32 x)

/-- The credits at the start of a placement step (R362). -/
def State.limAccrue (s : State) (m : Nat) : State :=
  (List.range 16).foldl (fun s j =>
    if !s.bit (SC_LIM_ID m j) 31 then s else
    let cap : Int := s.fld (SC_LIM_CFG m j) 16 16 * 1000
    let x := s.limCredit m j + (s.elen * s.fld (SC_LIM_CFG m j) 0 10 / 1000 : Nat)
    s.setLim m j (if cap < x then cap else x)) s

/-- Offer CAN frames in order (R362, R175); the frames that stay come with the machine. -/
def State.offerCan (s : State) (m : Nat) : List Egress → List Egress × State
  | [] => ([], s)
  | e :: es =>
    let lim := s.limiter m (recIdw e.octets)
    if lim.any (fun j => decide (s.limCredit m j < 0)) then
      let (r, s) := (s.cInc (SC_CNT 4)).offerCan m es
      (e :: r, s)
    else
      let (ok, s) := s.canPlace m e
      let s := match ok, lim with
        | true, some j => s.setLim m j (s.limCredit m j - (s.twNs m e.octets : Nat))
        | _, _ => s
      let (r, s) := s.offerCan m es
      (if ok then r else e :: r, s)

/-- Put the frames that stay back into their class queues. -/
def State.putBack (s : State) (m : Nat) (l : List Egress) : State :=
  (List.range 8).foldl (fun s c =>
    let fs := l.filter (fun e => e.cls == c)
    s.setQueue (8 * m + c) { frames := fs, depth := (fs.map Egress.size).sum }) s

/-- The frames of a port in the order they are offered: class 7 first, in order within a class (R346). -/
def State.offered (s : State) (p : Nat) : List Egress := (List.range 8).reverse.flatMap (fun c => (s.queue (8 * p + c)).frames)

/-- The selection of an epoch on a mortise (R346). -/
def State.selectMort (s : State) (m : Nat) : State :=
  if (s.mort m).st != .inService then s else
  match (s.mort m).tenon with
  | .idle => s
  | .can =>
    let s := (s.canFree m).limAccrue m
    let (r, s) := s.offerCan m (s.offered m)
    (s.putBack m r).canComplete m
  | .lin =>
    let l := s.offered m
    (l.foldl (fun s e => s.linPlace m e) s).putBack m []
  | _ =>
    let s := s.t1sFree m
    let (r, s) := s.t1sPlaceAll m (s.offered m)
    s.putBack m r

/-! ### Sampling (R363) -/

/-- The bin of a sample. -/
def histBin (x : Nat) : Nat := if x = 0 then 0 else min 15 (Nat.log2 x + 1)

/-- A histogram word advances; it saturates. -/
def State.histInc (s : State) (a : Nat) : State := s.wrN a (min 0xFFFFFFFF (s.rdN a + 1))

/-- One sample of every queue of every port, before the selection takes its frames. -/
def State.sample (s : State) (k : Nat) : State :=
  (List.range (140 * 8)).foldl (fun s q =>
    let x := s.queue q
    let depth := cdiv x.depth 64
    let delay := match x.frames.head? with
      | some e => k + 1 + s.ep.lag - e.rel
      | none => 0
    let s := (s.histInc (SC_HIST q (histBin depth))).histInc (SC_HIST q (16 + histBin delay))
    s.wrN (SC_QLAST (q / 8) (q % 8)) (min 0xFFFF depth + 2 ^ 16 * min 0xFFFF delay)) s

/-- Does the span of epoch `k` contain a whole multiple of 1 ms? -/
def State.sampleDue (s : State) (k : Nat) : Bool :=
  s.bit SC_CTRL 0 && cdiv (s.epochStart k) 1000000 * 1000000 < s.epochStart (k + 1)

/-- R363. A processed HCLR zeroes every histogram bin. -/
def histogramClear (s : State) : State := s.clearRegs 0x340000 0x363000

/-- The selection of processed epoch `k` for every port (R345). -/
def State.select (s : State) (k : Nat) : State :=
  if !s.bentUp SB0 then s else
  let s := if s.sampleDue k then s.sample k else s
  let s := (List.range 128).foldl (fun s m => s.selectMort m) s
  (List.range 12).foldl (fun s b => s.selectBay k b) s

/-! ### The SB0 section (R364 to R366) -/

/-- Unit sizes of the SB0 regions. -/
def sbUnit (region : Nat) : Nat :=
  match region with
  | 1 => 1024 | 2 => 2048 | 3 => 64 | 4 => 1064 | 5 => 1024 | _ => 0

/-- Offsets of a port page that an image loads (R366): of a bay or mortise. -/
def pageWords (bay : Bool) : List Nat :=
  [0x000, 0x004] ++ (if bay then [0x010, 0x014, 0x018, 0x01C] else []) ++ (List.range 32).map (fun i => 0x40 + 4 * i) ++
    (if bay then [] else (List.range 16).flatMap (fun j => [0x100 + 16 * j, 0x104 + 16 * j, 0x108 + 16 * j]))

/-- The bits of a page word that an image may set. -/
def pageMask (o : Nat) : Nat :=
  if o = 0x000 then 0xFF1F else if o = 0x004 then 0xFFFF else if o = 0x010 then 0x3FF01 else if o = 0x01C then 0x3FFFFFFF
  else if 0x40 ≤ o ∧ o < 0xC0 then (match (o - 0x40) % 16 with | 0 => 0x3FFFF | 12 => 0x0FFFFFFF | _ => 0xFFFFFFFF)
  else if 0x100 ≤ o then (match (o - 0x100) % 16 with | 0 => 0xBFFFFFFF | 4 => 0x1FFFFFFF | _ => 0xFFFF03FF)
  else 0xFFFFFFFF

/-- The page image of a port, zeros when no run writes it. -/
def sbPage (sect : Octets) (p : Nat) : Octets := (runUnit sect 0 1 1024 p).getD (List.replicate 1024 0)

/-- Load the words of one port page. -/
def State.loadPage (s : State) (sect : Octets) (p : Nat) : State :=
  let img := sbPage sect p
  (pageWords (decide (128 ≤ p))).foldl (fun s o => s.wrN (0x301000 + 0x400 * p + o) (leAt img o 4)) s

/-- Load a gate list image into list A or B of a bay. -/
def State.loadGates (s : State) (b : Nat) (isB : Bool) (sect : Octets) : State :=
  let img := (runUnit sect 0 2 2048 b).getD (List.replicate 2048 0)
  s.loadRegs (if isB then SC_GLB b 0 else SC_GLA b 0) 512 img

/-- Load SB0 as part of a raise (R340, R360, R365). -/
def State.sbLoad (s : State) (sect : Octets) : State :=
  let s := (List.range 140).foldl (fun s p => s.loadPage sect p) s
  let s := (List.range 12).foldl (fun s b => s.loadGates b false sect) s
  let s := s.memClear meterBase (meterBase + 2 ^ 20)
  let s := (runUnits sect 0 3 64).foldl (fun s u => (s.memW (meterAt u.1) (u.2.take 24 ++ List.replicate 40 0)).meterFill u.1 0) s
  let s := s.onSch (fun _ => {})
  let s := (List.range 12).foldl (fun s b =>
    if s.bit (SC_GCTL b) 0 then
      let a := s.adminList b
      let s := s.onPlan b (fun x => { x with cur := some a })
      let s := (((s.setFld (SC_GCTL b) 8 10 0).wr2 (SC_GBASE_L b) (SC_GBASE_H b) 0).setFld (SC_GCYC b) 0 30 0)
      s.setBit (SC_PSTAT (128 + b)) 9 true
    else s) s
  s.wrN SC_STATUS 1

/-- What a swap does to one class of a port (R364). -/
def State.swapClass (s : State) (p c : Nat) (was : Bool) : State :=
  let now := s.bit (SC_CL_W0 p c) 17
  let q := 8 * p + c
  let zero := fun (s : State) => if p < 128 then s else s.onPlan (p - 128) (fun x => { x with deficit := x.deficit.set c 0, credit := x.credit.set c 0, fl := x.fl.set c 0 })
  if was && now then s
  else if was then
    let n := (s.queue q).frames.length
    let s := s.setQueue q {}
    if n = 0 then s else (s.cInc (SC_CNT 6) n).cEvt SC_EVENT 7
  else if now then zero s else s

/-- Reset the group state of a bay (R364). -/
def State.resetGroup (s : State) (b : Nat) : State :=
  s.onPlan b (fun x => { x with deficit := List.replicate 8 0, fin := List.replicate 8 0, fl := List.replicate 8 0, vt := 0, rr := 0, fresh := true })

/-- The swap of SB0 at G (R109, R360, R364). -/
def State.sbSwap (s : State) (g : Nat) (sect : Octets) : State :=
  let old := s
  let s := (List.range 140).foldl (fun s p => s.loadPage sect p) s
  let s := (List.range 140).foldl (fun s p =>
    let s := (List.range 8).foldl (fun s c => s.swapClass p c (old.bit (SC_CL_W0 p c) 17)) s
    if 128 ≤ p && bitsN (old.rdN (SC_PCFG p)) 0 5 != bitsN (s.rdN (SC_PCFG p)) 0 5 then s.resetGroup (p - 128) else s) s
  let s := (List.range 128).foldl (fun s m => (List.range 16).foldl (fun s j =>
    let same := old.fld (SC_LIM_ID m j) 0 30 == s.fld (SC_LIM_ID m j) 0 30 && old.rdN (SC_LIM_MASK m j) == s.rdN (SC_LIM_MASK m j)
    if same then s else s.wrN (SC_LIM_CRED m j) 0) s) s
  let ms := (((s.memIdx meterBase (meterBase + 2 ^ 20) 64) ++ (runUnits sect 0 3 64).map (·.1)).dedup)
  let s := ms.foldl (fun s m =>
    let new := ((runUnit sect 0 3 64 m).getD (List.replicate 64 0)).take 24
    let cur := (s.meter m).take 24
    let cfg := fun (l : Octets) => l.set 0 (BitVec.ofNat 8 (oct l 0 &&& 0x5F))
    if cfg cur == cfg new then s
    else (s.memW (meterAt m) (new ++ List.replicate 40 0)).meterFill m g) s
  (List.range 12).foldl (fun s b =>
    let p := 128 + b
    let s := (s.onPlan b (fun x => { x with pend := false })).cPut (SC_PSTAT p) 10 1 0
    let s := s.loadGates b (s.adminList b).b sect
    if s.bit (SC_GCTL b) 0 then s.gateArm b g else s) s

/-- The limiters of a mortise from the SB0 image in force, with credits 0: a re-tenoned mortise starts so at its resume epoch. -/
def State.loadLimiters (s : State) (m : Nat) : State :=
  (List.range 16).foldl (fun s j =>
    let img := sbPage (s.sectOf SB0) m
    (((s.wrN (SC_LIM_ID m j) (leAt img (0x100 + 16 * j) 4)).wrN (SC_LIM_MASK m j) (leAt img (0x104 + 16 * j) 4)).wrN
      (SC_LIM_CFG m j) (leAt img (0x108 + 16 * j) 4)).wrN (SC_LIM_CRED m j) 0) s

/-- R113. The resume epoch of a re-tenoned mortise, with its limiters. -/
def tenonResumed (a m : Nat) (s : State) : State :=
  if (s.mort m).resume == some a then
    let s' := tenonResume a m s
    if (s'.mort m).resume.isNone then s'.loadLimiters m else s'
  else s

/-- Does one port page image hold only what it may (R366)? `can` says whether the mortise runs the CAN tenon. -/
def pageOk (img : Octets) (bay can : Bool) : Bool :=
  (List.range 256).all (fun i =>
    let o := 4 * i
    let w := leAt img o 4
    if (pageWords bay).contains o && (o < 0x100 || can) then (w &&& (0xFFFFFFFF - pageMask o)) == 0 else w == 0)

/-- Does the SB0 in force, as loaded, pass R366, R344 and R351? `can` names the mortises that run CAN in the frame that results. -/
def State.sbOk (s : State) (sect : Octets) (can : Nat → Bool) : Bool :=
  runsOk sect 0 sbUnit &&
  (runUnits sect 0 1 1024).all (fun u => decide (u.1 < 140) && pageOk u.2 (decide (128 ≤ u.1)) (decide (128 ≤ u.1) || can u.1)) &&
  (runUnits sect 0 2 2048).all (fun u => decide (u.1 < 12)) && (runUnits sect 0 4 1064).all (fun u => decide (u.1 < 128)) &&
  (runUnits sect 0 5 1024).all (fun u => decide (u.1 < 128)) &&
  (runUnits sect 0 3 64).all (fun u => decide (u.1 < 16384) && meterOk u.2 && (u.2.drop 24).all (· == 0)) &&
  decide ((((List.range 140).flatMap (fun p => (List.range 8).map (fun c =>
    let img := sbPage sect p
    if (leAt img (0x40 + 16 * c) 4).testBit 17 then bitsN (leAt img (0x4C + 16 * c) 4) 0 24 else 0))).sum) ≤ 9437184) &&
  (List.range 140).all (fun p =>
    let img := sbPage sect p
    let cfg := leAt img 0 4
    let ns := bitsN cfg 1 4
    let rate := leAt img 4 2
    let off := if 128 ≤ p then s.fld (EB_MACCFG (p - 128)) 0 3 == 7 else true
    let maxu := if 128 ≤ p then s.fld (EB_RXCFG (p - 128)) 0 14 else 0
    decide (ns ≤ 8) &&
    (off || (rate != 0 && decide (rate ≤ (if p < 136 then 2500 else 10000)))) &&
    (List.range 8).all (fun c =>
      let w0 := leAt img (0x40 + 16 * c) 4
      let idle := leAt img (0x44 + 16 * c) 4
      let grp := decide (c < 8 - ns) && w0.testBit 17 && decide (128 ≤ p)
      (!w0.testBit 16 || (decide (128 ≤ p) && idle != 0 && decide (idle ≤ rate * 1000))) &&
      (!grp || (if cfg.testBit 0 then bitsN w0 0 16 != 0 else decide (min (maxu + 14) 9216 + bitsN cfg 8 8 ≤ bitsN w0 0 16)))) &&
    (128 ≤ p || (List.range 16).all (fun j =>
      let sh := bitsN (leAt img (0x108 + 16 * j) 4) 0 10
      !(leAt img (0x100 + 16 * j) 4).testBit 31 || (can p && decide (1 ≤ sh) && decide (sh ≤ 1000)))) &&
    (p < 128 || !(leAt img 0x10 4).testBit 0 ||
      (let len := bitsN (leAt img 0x10 4) 8 10
       let cyc := leAt img 0x1C 4
       let gl := (runUnit sect 0 2 2048 (p - 128)).getD []
       decide (1 ≤ len) && decide (len ≤ 512) && decide (1000 ≤ cyc) && decide (cyc ≤ 1000000000) &&
       (List.range len).all (fun i => bitsN (leAt gl (4 * i) 4) 8 24 != 0))))

end Sys2Proof.Machine
end

