-- ==== Sys2Proof/Machine/Gateway.lean ====
section
/-! DEFINITION. Machine/Gateway.lean: the signal and PDU gateway (R265 to R301, R555, R559, R560): routes, cells, images, transmission,
timeouts, host commands, and the GB0 section. -/
namespace Sys2Proof.Machine
open Sys2Proof

/-! ### Regions (R267, R506) -/

/-- First octet of the route region. -/
abbrev gwRoutes : Nat := 688 * 2 ^ 20
/-- First octet of the route state region. -/
abbrev gwRState : Nat := 1200 * 2 ^ 20
/-- First octet of the cell region. -/
abbrev gwCells : Nat := 1328 * 2 ^ 20
/-- First octet of the PDU descriptor region; slot 1 of a descriptor follows slot 0. -/
abbrev gwDescs : Nat := 1840 * 2 ^ 20
/-- First octet of the PDU state region. -/
abbrev gwPState : Nat := 1904 * 2 ^ 20
/-- First octet of the PDU data region. -/
abbrev gwData : Nat := 1920 * 2 ^ 20

/-- A route entry (R269). -/
def State.route (s : State) (r : Nat) : Octets := s.memO (gwRoutes + 64 * r) 64

/-- A cell (R271). -/
def State.cell (s : State) (k : Nat) : Octets := s.memO (gwCells + 32 * k) 32

/-- Octet 0x06 of a PDU's state: pending marks, NOTX and the slot in force (R560). -/
def State.pduFlags (s : State) (p : Nat) : Nat := (s.memB (gwPState + 16 * p + 6)).toNat

/-- The machine with PDU flag `k` set or cleared. -/
def State.setPduFlag (s : State) (p k : Nat) (b : Bool) : State := s.memWN (gwPState + 16 * p + 6) 1 (putBit (s.pduFlags p) k b)

/-- The descriptor of a PDU in the slot in force (R279, R283). -/
def State.pduDesc (s : State) (p : Nat) : Octets := s.memO (gwDescs + 64 * p + 32 * bitsN (s.pduFlags p) 3 1) 32

/-- The descriptor in the slot not in force. -/
def State.pduOther (s : State) (p : Nat) : Octets := s.memO (gwDescs + 64 * p + 32 * (1 - bitsN (s.pduFlags p) 3 1)) 32

/-- Is an entry's VALID bit (bit 2 of octet 0) set? -/
def entryValid (e : Octets) : Bool := (oct e 0).testBit 2

/-- The generation of GB0's entries looked up: new from the start of G until its purge completes (R116). -/
def State.genBit (s : State) : Nat := if s.fr.purgeG == .forward then 1 else 0

/-- Does a two-bit generation tag match the generation looked up (R116)? -/
def State.tagOk (s : State) (tag : Nat) : Bool := tag.testBit s.genBit

/-- IMGLEN of a descriptor. -/
def dImg (d : Octets) : Nat := leAt d 4 2
/-- DOFF of a descriptor. -/
def dOff (d : Octets) : Nat := leAt d 6 2
/-- TXMODE of a descriptor. -/
def dMode (d : Octets) : Nat := oct d 1 % 8
/-- PORT of a descriptor. -/
def dPort (d : Octets) : Nat := oct d 2
/-- CLASS of a descriptor. -/
def dClass (d : Octets) : Nat := oct d 3 % 8

/-- The address of a PDU's image in the data region. -/
def bodyAddr (d : Octets) : Nat := gwData + 64 * bitsN (leAt d 8 4) 0 26

/-- The initial image of a PDU: its INIT units, or zeros (R279). -/
def State.initImage (s : State) (d : Octets) : Octets :=
  let u := bitsN (leAt d 0x18 4) 0 26
  if u = 0 then List.replicate (dImg d) 0 else s.memO (gwData + 64 * u) (dImg d)

/-- The image of a PDU. -/
def State.image (s : State) (d : Octets) : Octets := s.memO (bodyAddr d) (dImg d)

/-- A PDU copied from its INIT image: marks clear and NOTX set (R280). -/
def State.freshPdu (s : State) (p : Nat) : State :=
  let d := s.pduDesc p
  let s := s.memW (bodyAddr d) (s.initImage d)
  ((s.setPduFlag p 0 false).setPduFlag p 1 false).setPduFlag p 2 true

/-- The tenon of mortise `m` in the frame of epoch `n`: of a re-tenoned one the new tenon from its epoch G on (R106). -/
def State.tenonAt (s : State) (m n : Nat) : Tenon :=
  match (s.mort m).newDesc, (s.mort m).window with
  | some d, some _ => if (s.mort m).swapG ≤ n then tenonOf (oct d 0) else (s.mort m).tenon
  | _, _ => (s.mort m).tenon

/-- Is the port of a descriptor a CAN tenon now? -/
def State.isCanPort (s : State) (p n : Nat) : Bool := p < 128 && s.tenonAt p n == .can

/-! ### Bit fields of cells (R272) -/

/-- Positions from `p` down through the octets: `k` of them, most significant first. -/
def downPos : Nat → Nat → List Nat
  | _, 0 => []
  | p, k + 1 => p :: downPos (if p % 8 = 0 then p + 15 else p - 1) k

/-- pos(0), pos(1), … of a field (R272). -/
def fieldPos (be : Bool) (start len : Nat) : List Nat :=
  if be then (downPos start len).reverse else (List.range len).map (fun i => start + i)

/-- Bit `p` of a data field. -/
def bitOf (l : Octets) (p : Nat) : Bool := (oct l (p / 8)).testBit (p % 8)

/-- The number a list of positions holds, least significant first. -/
def getField (l : Octets) (ps : List Nat) : Nat := ps.foldr (fun p a => b2n (bitOf l p) + 2 * a) 0

/-- Octets with one bit written. -/
def setBitOf (l : Octets) (p : Nat) (b : Bool) : Octets := l.set (p / 8) (BitVec.ofNat 8 (putBit (oct l (p / 8)) (p % 8) b))

/-- Octets with a number written to a list of positions, least significant first. -/
def setField (l : Octets) : List Nat → Nat → Octets
  | [], _ => l
  | p :: ps, v => setField (setBitOf l p (v.testBit 0)) ps (v / 2)

/-- A signed 32-bit field of a cell. -/
def cellInt (c : Octets) (off : Nat) : Int := signedN 32 (leAt c off 4)

/-- The value a cell computes from its source bits, and whether it saturated (R274). -/
def cellValue (c : Octets) (x : Nat) : Nat × Bool :=
  let len := oct c 6 + 1
  let dlen := oct c 7 + 1
  let fl := oct c 8
  if !fl.testBit 4 && !fl.testBit 5 then (x, false) else
  let x : Int := if fl.testBit 2 then signedN len x else x
  let y := if fl.testBit 4 then (x * cellInt c 0x0C) / (2 ^ bitsN (oct c 0x0A) 0 5 : Int) + cellInt c 0x10 else x
  let bnd := fun off => if fl.testBit 3 then cellInt c off else (leAt c off 4 : Int)
  let y := if fl.testBit 5 then (let y := if y < bnd 0x14 then bnd 0x14 else y; if y > bnd 0x18 then bnd 0x18 else y) else y
  let lo : Int := if fl.testBit 3 then -(2 ^ (dlen - 1) : Int) else 0
  let hi : Int := if fl.testBit 3 then (2 ^ (dlen - 1) : Int) - 1 else (2 ^ dlen : Int) - 1
  if y < lo then (wrapI dlen lo, true) else if y > hi then (wrapI dlen hi, true) else (wrapI dlen y, false)

/-- Destination index `k` of a route. -/
def routeDest (r : Octets) (k : Nat) : Nat := bitsN (leAt r (0x10 + 3 * k) 3) 0 20

/-- Number of destinations of a route. -/
def routeNdest (r : Octets) : Nat := oct r 1 % 16 + 1

/-- Number of cells of a route. -/
def routeNcell (r : Octets) : Nat := bitsN (leAt r 2 2) 0 10

/-- The cell indices of a route. -/
def routeCells (r : Octets) : List Nat := (List.range (routeNcell r)).map (fun i => bitsN (leAt r 4 4) 0 24 + i)

/-- Is a PDU's descriptor VALID in the slot in force? -/
def State.pduValid (s : State) (p : Nat) : Bool := entryValid (s.pduDesc p)

/-- Does the own demand of partial network `k` hold (R493)? -/
def State.pnOwn (s : State) (k : Nat) : Bool := s.bit WK_PVOTE k && !s.wk.expired

/-- TXMODE of a PDU as the gateway treats it: an own keep-alive without own demand has mode 0x0 (R494). -/
def State.pduMode (s : State) (p : Nat) : Nat :=
  if (List.range 32).any (fun k => s.bit (WK_PN_PDU k) 31 && s.fld (WK_PN_PDU k) 0 20 == p && !s.pnOwn k) then 0 else dMode (s.pduDesc p)

/-- Write a value to a cell's destination field in a PDU's image: an update bit and the pending mark follow (R275, R284). -/
def State.writeCell (s : State) (p : Nat) (c : Octets) (v : Nat) (update : Bool) : State :=
  let d := s.pduDesc p
  let img := s.image d
  let data := img.drop (dOff d)
  let ps := fieldPos ((oct c 8).testBit 1) (bitsN (leAt c 2 2) 0 14) (oct c 7 + 1)
  let old := getField data ps
  let data := setField data ps v
  let ub := leAt c 4 2
  let data := if update && ub.testBit 14 then setBitOf data (bitsN ub 0 14) true else data
  let s := s.memW (bodyAddr d) (img.take (dOff d) ++ data)
  if (oct c 8).testBit 6 && (old != getField data ps || s.pduMode p == 4) then s.setPduFlag p 0 true else s

/-! ### Event records (R300) -/

/-- Write a gateway event record while SG_CTRL.EVEN is set. -/
def State.gwRecord (s : State) (n code r : Nat) : State :=
  if !s.bit SG_CTRL 0 then s else
  let e := s.route r
  let dest := if entryValid e then routeDest e 0 else 0xFFFFFFFF
  let pay := [BitVec.ofNat 8 code, 0, 0, 0] ++ natLE 4 r ++ natLE 4 dest ++ [0, 0, 0, 0]
  let (ok, s') := s.ringPut (s.fld SG_CTRL 4 4) (hostRecord n 0xF0 (9 + 64 * b2n (s.guarOf n)) 0 0 pay)
  if ok then s' else (s'.inc (SG_CNT 10)).evt SG_EVENT 9

/-! ### Costs (R293) -/

/-- The declared signal cost of an input's CLASS and PORT (R295). -/
def State.sigCost (s : State) (cls port : Nat) : Nat :=
  let i := match cls with
    | 0 => 144
    | 1 => 128 + port
    | 2 => port
    | _ => 140 + port
  s.fld (SG_PCOST (i / 2)) (16 * (i % 2)) 16

/-- The octets of an image that an enqueue copies (R287). -/
def State.copyLen (s : State) (n : Nat) (d img : Octets) : Nat :=
  if s.isCanPort (dPort d) n then min (dImg d) (0x10 + leAt img 6 2) else dImg d

/-- Operations of one enqueue: 1 and the protection (R293). -/
def State.sendCost (s : State) (p : Nat) : Nat :=
  let d := s.pduDesc p
  1 + if (oct d 0).testBit 4 then s.profOps (bitsN (leAt d 0x16 2) 0 10) 1 else 0

/-! ### Transmission (R284 to R287) -/

/-- The valid routes of the generation looked up that name a PDU, with their entry. -/
def State.routesTo (s : State) (p : Nat) : List Octets :=
  ((s.memIdx gwRoutes gwRState 64).map s.route).filter (fun r =>
    entryValid r && s.tagOk (oct r 0 % 4) && (List.range (routeNdest r)).any (fun k => routeDest r k == p))

/-- Every position named by an UBEN cell that writes a PDU (R287). -/
def State.updateBits (s : State) (p : Nat) : List Nat :=
  (s.routesTo p).flatMap (fun r => (routeCells r).filterMap (fun k =>
    let c := s.cell k
    if (oct c 5).testBit 6 && routeDest r (oct c 9 % 16) == p && oct c 9 % 16 < routeNdest r then some (bitsN (leAt c 4 2) 0 14) else none))

/-- Enqueue a PDU in epoch `n` (R286, R287, R291). -/
def State.sendPdu (s : State) (n p : Nat) : State :=
  let d := s.pduDesc p
  let img := s.image d
  let copy := img.take (s.copyLen n d img)
  let form : CopyForm := if s.isCanPort (dPort d) n then .can else if dPort d < 128 && s.tenonAt (dPort d) n == .lin then .lin else .eth
  let (out, s) := if (oct d 0).testBit 4 then s.protectPdu (bitsN (leAt d 0x16 2) 0 10) img (dOff d) form (dPort d) else (some copy, s)
  let s := match out with
    | some o => (s.cInc (SG_CNT 6)).enqueue n { port := dPort d, cls := dClass d, octets := o, rel := n + 1 + s.ep.lag, pdu := some p }
    | none => s
  let s :=
    if (oct d 0).testBit 3 then
      s.memW (bodyAddr d) (img.take (dOff d) ++ (s.updateBits p).foldl (fun l b => setBitOf l b false) (img.drop (dOff d)))
    else s
  ((s.memWN (gwPState + 16 * p) 6 n).setPduFlag p 0 false).setPduFlag p 1 false |>.setPduFlag p 2 false

/-- Is a cyclic or mixed PDU due in epoch `n` (R285)? -/
def State.cycleDue (s : State) (n p : Nat) : Bool :=
  let d := s.pduDesc p
  let per := leAt d 0x0C 3
  entryValid d && (s.pduMode p == 2 || s.pduMode p == 3) && per != 0 && n % per == leAt d 0x10 3

/-- Is a PDU to be enqueued in the timer step of epoch `n` (R286)? -/
def State.sendDue (s : State) (n p : Nat) : Bool :=
  let d := s.pduDesc p
  let fl := s.pduFlags p
  let gap := fl.testBit 2 || leAt d 0x14 2 ≤ n - s.memN (gwPState + 16 * p) 6
  entryValid d && (s.cycleDue n p || (fl.testBit 1 && s.pduMode p ≤ 4) || ((s.pduMode p == 1 || s.pduMode p == 3 || s.pduMode p == 4) && fl.testBit 0 && gap))

/-! ### Applying a route (R270 to R278) -/

/-- The source bits of a cell, when all lie within the source data (R273). -/
def cellSource (c src : Octets) : Option Nat :=
  let ps := fieldPos ((oct c 8).testBit 0) (bitsN (leAt c 0 2) 0 14) (oct c 6 + 1)
  if ps.all (fun p => decide (p < 8 * src.length)) then some (getField src ps) else none

/-- Apply one cell of a signal route; the destinations written come with the machine. -/
def State.applyCell (s : State) (r src : Octets) (k : Nat) : Option Nat × State :=
  let c := s.cell k
  let p := routeDest r (oct c 9 % 16)
  if !s.tagOk (oct c 0x0B % 4) || !s.pduValid p then (none, s) else
  match cellSource c src with
  | none => (none, (s.cInc (SG_CNT 2)).cEvt SG_EVENT 3)
  | some x =>
    let (v, sat) := cellValue c x
    let s := if sat then (s.cInc (SG_CNT 3)).cEvt SG_EVENT 4 else s
    (some p, s.writeCell p c v true)

/-- Write a frame copy to a PDU (R278). -/
def State.copyFrame (s : State) (n p : Nat) (src : Octets) : State :=
  let d := s.pduDesc p
  let img := s.image d
  let m := min src.length (dImg d - dOff d)
  let new := putOcts img (dOff d) (src.take m)
  let new :=
    if s.isCanPort (dPort d) n then
      let fmt := oct img 4 % 4
      let dlc := if fmt == 0 then (if m ≤ 8 then m else 15) else if fmt == 1 then (if m ≤ 64 then dlcOf m else 15) else 0
      putOcts (putOcts new 6 (natLE 2 m)) 5 [BitVec.ofNat 8 dlc]
    else new
  let changed := slice new (dOff d) m != slice img (dOff d) m
  let s := s.memW (bodyAddr d) new
  if changed || s.pduMode p == 4 then s.setPduFlag p 0 true else s

/-- Cost of a route for a source (R293, R296). -/
def State.routeCost (s : State) (r src : Octets) : Nat :=
  let dests := (List.range (routeNdest r)).map (routeDest r)
  let copy := (oct r 0).testBit 3
  let writes : List Nat :=
    if copy then dests.filter s.pduValid
    else (routeCells r).filterMap (fun k => let c := s.cell k
      if s.tagOk (oct c 0x0B % 4) && s.pduValid (routeDest r (oct c 9 % 16)) && (cellSource c src).isSome then some (routeDest r (oct c 9 % 16)) else none)
  let body :=
    if copy then (writes.map (fun p => cdiv (min src.length (dImg (s.pduDesc p) - dOff (s.pduDesc p))) 64)).sum else writes.length
  let ver := if (oct r 0).testBit 4 then s.profOps (bitsN (leAt r 0x0C 2) 0 10) 2 else 0
  let sends := (((writes.dedup).filter (fun p => s.pduMode p == 5)).map s.sendCost).sum
  1 + body + ver + sends

/-- Apply a dispatched route in epoch `n` (R270): `full` is the source record, `soff` and `len` its source data, `cls` and `port` those of
the input. -/
def State.applyRoute (s : State) (n r : Nat) (full : Octets) (soff len cls port : Nat) : State :=
  let e := s.route r
  let src := slice full soff len
  if 8388608 ≤ r || !entryValid e || !s.tagOk (oct e 0 % 4) then (s.cInc (SG_CNT 1)).cEvt SG_EVENT 8
  else if s.mode == .hold && !(oct e 0).testBit 5 then s.cInc (SG_CNT 1)
  else if s.sigCost cls port < s.routeCost e src then
    (((s.cInc (SG_CNT 7)).cEvt SG_EVENT 5).cNotice 0x07 0x13 (if cls == 1 then 0x80 + port else if cls == 2 then port else 0xFF)).gwRecord n 4 r
  else
    let (ok, s) := if (oct e 0).testBit 4 then s.verifyPdu (bitsN (leAt e 0x0C 2) 0 10) src else (true, s)
    if !ok then ((s.cInc (SG_CNT 5)).cEvt SG_EVENT 2).gwRecord n 3 r
    else
      let dests := (List.range (routeNdest e)).map (routeDest e)
      let s := dests.foldl (fun s p => if s.pduValid p then s else (s.cInc (SG_CNT 1)).cEvt SG_EVENT 8) s
      let (ws, s) : List Nat × State :=
        if (oct e 0).testBit 3 then
          dests.foldl (fun a p => if a.2.pduValid p then (a.1 ++ [p], a.2.copyFrame n p src) else a) ([], s)
        else
          (routeCells e).foldl (fun a k => let (w, s) := a.2.applyCell e src k; (a.1 ++ w.toList, s)) ([], s)
      let s := (ws.dedup).foldl (fun s p => if s.pduMode p == 5 then s.sendPdu n p else s) s
      let tmo := (s.memB (gwRState + 16 * r + 6)).getLsbD 0
      let s := s.memW (gwRState + 16 * r) (natLE 6 n ++ [0])
      let s := if tmo then (s.cEvt SG_EVENT 1).gwRecord n 2 r else s
      s.cInc (SG_CNT 0)

/-! ### Reception timeouts (R288) -/

/-- Does a route fall due for its timeout in the timer step of epoch `n` (R288)? -/
def State.timeoutDue (s : State) (n r : Nat) : Bool :=
  let e := s.route r
  entryValid e && s.tagOk (oct e 0 % 4) && leAt e 8 3 != 0 && !(s.memB (gwRState + 16 * r + 6)).getLsbD 0 &&
    s.memN (gwRState + 16 * r) 6 + leAt e 8 3 == n

/-- Operations of a route's timeout: one for each cell substituted (R293). -/
def State.timeoutCost (s : State) (r : Nat) : Nat :=
  let e := s.route r
  if (oct e 0).testBit 3 then 0
  else ((routeCells e).filter (fun k => let t := bitsN (oct (s.cell k) 9) 4 2; (t == 1 || t == 2) && s.pduValid (routeDest e (oct (s.cell k) 9 % 16)))).length

/-- A route enters timeout (R288, R275). -/
def State.enterTimeout (s : State) (n r : Nat) : State :=
  let e := s.route r
  let s := s.memWN (gwRState + 16 * r + 6) 1 1
  let s := if (oct e 0).testBit 3 then s else (routeCells e).foldl (fun s k =>
    let c := s.cell k
    let p := routeDest e (oct c 9 % 16)
    if !s.pduValid p then s else
    match bitsN (oct c 9) 4 2 with
    | 1 => s.writeCell p c (leAt c 0x1C 4) false
    | 2 =>
      let d := s.pduDesc p
      let ps := fieldPos ((oct c 8).testBit 1) (bitsN (leAt c 2 2) 0 14) (oct c 7 + 1)
      s.writeCell p c (getField ((s.initImage d).drop (dOff d)) ps) false
    | _ => s) s
  ((s.cInc (SG_CNT 4)).cEvt SG_EVENT 0).gwRecord n 1 r

/-! ### The timer step (R286, R292, R297) -/

/-- In Hold only SAFE routes and the PDUs they name take part (R292). -/
def State.holdAllows (s : State) : TimerAct → Bool
  | .timeout r => s.mode != .hold || (oct (s.route r) 0).testBit 5
  | .send p => s.mode != .hold || (s.routesTo p).any (fun r => (oct r 0).testBit 5)

/-- Operations of a timer action. -/
def State.actCost (s : State) : TimerAct → Nat
  | .timeout r => s.timeoutCost r
  | .send p => s.sendCost p

/-- Carry out one timer action of epoch `n`, or carry it into the next epoch when the budget is spent (R297). An action carried from before Hold that
Hold does not allow is dropped (R292). -/
def State.doAct (n : Nat) (s : State) (act : TimerAct) : State :=
  let c := s.actCost act
  if !s.holdAllows act then s
  else if s.gw.full || s.gw.left < c then
    (s.cInc (SG_CNT 8)).onGw (fun g => { g with carry := g.carry ++ [act], full := true })
  else
    let s := s.onGw (fun g => { g with left := g.left - c })
    match act with
    | .timeout r => s.enterTimeout n r
    | .send p => s.sendPdu n p

/-- The first input of an epoch is yet to come: the timer step has its operations and the actions carried over (R286). -/
def State.gwTimerBegin (s : State) : State :=
  if !s.serves GB0 (s.ep.running.getD 0) then s.onGw (fun g => { g with part := 0 }) else
  s.onGw (fun g => { g with part := 1, todo := g.carry, carry := [], left := s.fld SG_BUDGET 16 16, full := false })

/-- The timeouts due in epoch `n`, in ascending route index. -/
def State.timeoutsDue (s : State) (n : Nat) : List TimerAct :=
  (((s.memIdx gwRoutes gwRState 64).filter (fun r => s.timeoutDue n r)).map TimerAct.timeout).filter s.holdAllows

/-- The transmissions due in epoch `n`, in ascending PDU index. DESIGN CHOICE (log 27): the pending marks of a PDU whose carried transmission is carried
once more are that transmission's; they bring no second one. A cycle due in `n` does. -/
def State.sendsDue (s : State) (n : Nat) : List TimerAct :=
  (((s.memIdx gwDescs gwPState 64).filter (fun p => s.sendDue n p && (s.cycleDue n p || !s.gw.carry.contains (.send p)))).map TimerAct.send).filter
    s.holdAllows

/-- Do the actions of the part in hand from the front of a list, through `stop` when it is given and there. -/
def State.runActs (n : Nat) (stop : Option TimerAct) : List TimerAct → State → State
  | [], s => s.onGw (fun g => { g with todo := [] })
  | a :: rest, s =>
    let s := s.doAct n a
    if stop == some a then s.onGw (fun g => { g with todo := rest }) else State.runActs n stop rest s

/-- Bring the timer step to part 2, the carried actions done. -/
def State.toTimeouts (n : Nat) (s : State) : State :=
  if s.gw.part == 1 then
    let s := State.runActs n none s.gw.todo s
    let due := s.timeoutsDue n
    s.onGw (fun g => { g with part := 2, todo := due })
  else s

/-- Bring the timer step to part 3, the timeouts done. -/
def State.toSends (n : Nat) (s : State) : State :=
  let s := s.toTimeouts n
  if s.gw.part == 2 then
    let s := State.runActs n none s.gw.todo s
    let due := s.sendsDue n
    s.onGw (fun g => { g with part := 3, todo := due })
  else s

/-- The gateway's timer step of epoch `n`, or what is left of it (R286). -/
def State.gwTimer (s : State) (n : Nat) : State :=
  let s := s.toSends n
  if s.gw.part == 3 then
    let s := (State.runActs n none s.gw.todo s).onGw (fun g => { g with part := 0 })
    let carried := !s.gw.carry.isEmpty
    let s := s.cPut SG_STATUS 2 1 (b2n carried)
    if carried then s.cEvt SG_EVENT 6 else s
  else s

/-- RX_TIMEOUT: a route due in the epoch being processed enters timeout in the timer step, after the actions before it (R286, R288). -/
def State.rxTimeout (n r : Nat) (s : State) : State :=
  if s.ep.running == some n && decide (1 ≤ s.gw.part) && decide (s.gw.part ≤ 2) then
    let s' := s.toTimeouts n
    if s'.gw.todo.contains (.timeout r) then State.runActs n (some (.timeout r)) s'.gw.todo s' else s
  else s

/-- PDU_CYCLE_DUE: a PDU due in the epoch being processed is enqueued in the timer step, after the actions before it (R285, R286). -/
def State.pduCycleDue (n p : Nat) (s : State) : State :=
  if s.ep.running == some n && decide (1 ≤ s.gw.part) then
    let s' := s.toSends n
    if s'.gw.todo.contains (.send p) && s'.cycleDue n p then State.runActs n (some (.send p)) s'.gw.todo s' else s
  else s

/-- Entry into Hold: every PDU a SAFE route names is copied from its INIT image (R292). -/
def State.gwHold (s : State) : State :=
  let ps := ((s.memIdx gwDescs gwPState 64).filter (fun p => s.pduValid p && (s.routesTo p).any (fun r => (oct r 0).testBit 5)))
  (ps.foldl (fun s p => s.freshPdu p) s).setBit SG_STATUS 1 true

/-! ### Checks of entries (R277, R278, R281, R294, R553, R555) -/

/-- Does a cell suit a VALID route that names it (R277, R553)? -/
def State.cellOk (s : State) (r c : Octets) : Bool :=
  let fl := oct c 8
  let xf := fl.testBit 4 || fl.testBit 5
  let dsel := oct c 9 % 16
  let p := routeDest r dsel
  let d := s.pduDesc p
  let lim := 8 * (dImg d - dOff d)
  let bnd := fun off => if fl.testBit 3 then cellInt c off else (leAt c off 4 : Int)
  let ub := leAt c 4 2
  decide (dsel < routeNdest r) &&
  (!entryValid d ||
    ((fieldPos (fl.testBit 1) (bitsN (leAt c 2 2) 0 14) (oct c 7 + 1)).all (fun q => decide (q < lim)) &&
     (!ub.testBit 14 || decide (bitsN ub 0 14 < lim)))) &&
  (if xf then decide (oct c 6 ≤ 31) && decide (oct c 7 ≤ 31) else oct c 6 == oct c 7) &&
  (!fl.testBit 5 || decide (bnd 0x14 ≤ bnd 0x18)) &&
  bitsN (oct c 9) 4 2 != 3 &&
  bitsN (leAt c 0 2) 14 2 == 0 && bitsN (leAt c 2 2) 14 2 == 0 && !ub.testBit 15 && !fl.testBit 7 &&
  decide (oct c 9 < 64) && decide (oct c 0x0A < 32) && decide (oct c 0x0B < 4)

/-- Does a route entry hold a legal value (R269, R278, R294, R553)? An entry that is not VALID is not checked (R555). -/
def State.routeOk (s : State) (r : Octets) : Bool :=
  !entryValid r ||
  (decide (oct r 0 < 64) && decide (oct r 1 < 16) && decide (leAt r 2 2 < 1024) && decide (leAt r 4 4 < 2 ^ 24) &&
   oct r 0x0B == 0 && leAt r 0x0E 2 == 0 && decide (leAt r 0x0C 2 < 1024) &&
   (List.range 16).all (fun k => if k < routeNdest r then decide (leAt r (0x10 + 3 * k) 3 < 2 ^ 20) else leAt r (0x10 + 3 * k) 3 == 0) &&
   (!(oct r 0).testBit 3 || routeNcell r == 0) &&
   (routeCells r).all (fun k => s.cellOk r (s.cell k)) &&
   (leAt r 8 3 == 0 || decide (((routeCells r).filter (fun k => let t := bitsN (oct (s.cell k) 9) 4 2; t == 1 || t == 2)).length ≤ s.fld SG_BUDGET 16 16)))

/-- Does a VALID descriptor fit (R281, R294, R553)? `ten` gives the tenon of a mortise in the frame that results, where it is known. -/
def State.descOk (s : State) (ten : Nat → Option Tenon) (d : Octets) : Bool :=
  !entryValid d ||
  (let m := dMode d
   let port := dPort d
   let len := dImg d
   decide (oct d 0 < 32) && decide (oct d 1 ≤ 5) && decide (oct d 3 < 8) && decide (4 ≤ len) && decide (len ≤ 9220) &&
   decide (leAt d 8 4 < 2 ^ 26) && decide (leAt d 0x18 4 < 2 ^ 26) && oct d 0x0F == 0 && oct d 0x13 == 0 && leAt d 0x1C 4 == 0 &&
   decide (leAt d 0x16 2 < 1024) &&
   !((m == 2 || m == 3) && leAt d 0x0C 3 == 0) && (leAt d 0x0C 3 == 0 || decide (leAt d 0x10 3 < leAt d 0x0C 3)) &&
   (decide (port < 128) || (decide (0x80 ≤ port) && decide (port ≤ 0x8B))) && decide (dOff d < len) &&
   (if port < 128 then
      match ten port with
      | some .can => decide (16 ≤ len) && decide (len ≤ 2064) && oct (s.initImage d) 4 % 4 != 3
      | some .lin => len == 12
      | _ => true
    else true) &&
   decide (1 + (if (oct d 0).testBit 4 then s.profOps (bitsN (leAt d 0x16 2) 0 10) 1 else 0) ≤ s.fld SG_BUDGET 16 16))

/-- Does everything GB0 holds in force pass its checks? -/
def State.gwOk (s : State) (ten : Nat → Option Tenon) (laneb : Nat) : Bool :=
  decide (s.fld SG_BUDGET 0 16 + s.fld SG_BUDGET 16 16 ≤ laneb) &&
  (s.memIdx gwRoutes gwRState 64).all (fun r => !s.tagOk (oct (s.route r) 0 % 4) || s.routeOk (s.route r)) &&
  (s.memIdx gwDescs gwPState 64).all (fun p => s.descOk ten (s.pduDesc p))

/-! ### The GB0 section (R301, R282, R283, R116, R118) -/

/-- Unit sizes of the GB0 regions. -/
def gwUnit (region : Nat) : Nat :=
  match region with
  | 1 => 64 | 2 => 32 | 3 => 32 | 4 => 64 | _ => 0

/-- The head of GB0: budgets and declared costs. -/
def State.gwHead (s : State) (sect : Octets) : State :=
  (s.wrN SG_BUDGET (leAt sect 0 4)).loadRegs (SG_PCOST 0) 73 (sect.drop 8)

/-- An entry with its two-bit tag (at octet `o`) replaced. -/
def withTag (o tag : Nat) (e : Octets) : Octets := e.set o (BitVec.ofNat 8 (putN (oct e o) 0 2 tag))

/-- Write an entry, keeping an all-zero entry untagged. -/
def State.putEntry (s : State) (addr o tag : Nat) (e : Octets) : State :=
  s.memW addr (if e.all (· == 0) then e else withTag o tag e)

/-- Write a descriptor to both slots. -/
def State.putDesc (s : State) (p : Nat) (d : Octets) : State :=
  let d := if d.all (· == 0) then d else withTag 0 3 d
  s.memW (gwDescs + 64 * p) (d ++ d)

/-- Load GB0 as part of a raise: the regions start from zero, every image from its INIT image (R280, R289, R301). -/
def State.gwLoad (s : State) (sect : Octets) : State :=
  let s := (s.memClear gwRoutes (gwData + 512 * 2 ^ 20)).gwHead sect
  let s := (runUnits sect 4 1 64).foldl (fun s u => s.putEntry (gwRoutes + 64 * u.1) 0 3 u.2) s
  let s := (runUnits sect 4 2 32).foldl (fun s u => s.putEntry (gwCells + 32 * u.1) 0x0B 3 u.2) s
  let s := (runUnits sect 4 3 32).foldl (fun s u => s.putDesc u.1 u.2) s
  let s := (runUnits sect 4 4 64).foldl (fun s u => s.memW (gwData + 64 * u.1) u.2) s
  let s := ((s.memIdx gwDescs gwPState 64).filter (fun p => s.pduValid p)).foldl (fun s p => s.freshPdu p) s
  (s.onGw (fun g => { g with carry := [] })).wrN SG_STATUS 1

/-- Stage the entries of one tagged region (R116): an unchanged entry stays, a new one is written with tag 0b10, an old one that the section does not
hold again is retagged 0b01. None when both generations use a changed entry at its index (R282); `was` and `is` tell which entries the old and the new
generation use (R555). -/
def State.stageRegion (s : State) (base stop size o at_ region : Nat) (was is_ : Nat → Octets → Bool) (sect : Octets) : Option State :=
  let idx := ((s.memIdx base stop size) ++ (runUnits sect at_ region size).map (·.1)).dedup
  idx.foldl (fun a i => a.bind (fun s =>
    let old := s.memO (base + size * i) size
    let new := (runUnit sect at_ region size i).getD (List.replicate size 0)
    let oldZ := old.all (· == 0)
    let newZ := new.all (· == 0)
    if oldZ && newZ then some s
    else if oldZ then some (s.memW (base + size * i) (withTag o 2 new))
    else if newZ then some (s.memW (base + size * i) (withTag o 1 old))
    else if withTag o 0 old == withTag o 0 new then some s
    else if !was i old then some (s.memW (base + size * i) (withTag o 2 new))
    else if !is_ i new then some (s.memW (base + size * i) (withTag o 1 old))
    else none)) (some s)

/-- Stage a delta's GB0: routes and cells with their tags, descriptors in the slot not in force (R282, R283). -/
def State.gwStage (s : State) (sect : Octets) : Option State :=
  let named (l : List Octets) := (l.filter entryValid).flatMap routeCells
  let old := named ((s.memIdx gwRoutes gwRState 64).map s.route)
  let new := named (((runUnits sect 4 1 64).map (·.1)).dedup.filterMap (runUnit sect 4 1 64))
  (s.stageRegion gwRoutes gwRState 64 0 4 1 (fun _ e => entryValid e) (fun _ e => entryValid e) sect).bind (fun s =>
    (s.stageRegion gwCells gwDescs 32 0x0B 4 2 (fun i _ => old.contains i) (fun i _ => new.contains i) sect).map (fun s =>
      (runUnits sect 4 3 32).foldl (fun s u =>
        s.memW (gwDescs + 64 * u.1 + 32 * (1 - bitsN (s.pduFlags u.1) 3 1)) (if u.2.all (· == 0) then u.2 else withTag 0 3 u.2)) s))

/-- The PDUs that a GB0 section names. -/
def gwNamed (sect : Octets) : List Nat := ((runUnits sect 4 3 32).map (·.1)).dedup

/-- Does a delta's GB0 keep BODY wherever it keeps index and IMGLEN (R283)? Of several runs over one descriptor the last counts (R301). -/
def State.gwBodyOk (s : State) (sect : Octets) : Bool :=
  (gwNamed sect).all (fun p =>
    let o := s.pduDesc p
    let d := (runUnit sect 4 3 32 p).getD []
    !(entryValid o && entryValid d && dImg o == dImg d && leAt o 8 4 != leAt d 8 4))

/-- Does the image of PDU `p`, described by `o` until now and by `d` from G on, keep its value and marks (R283)? -/
def pduKept (o d : Octets) : Bool := entryValid o && entryValid d && dImg o == dImg d

/-- A PDU without an image: its marks are clear. -/
def State.clearPdu (s : State) (p : Nat) : State := ((s.setPduFlag p 0 false).setPduFlag p 1 false).setPduFlag p 2 true

/-- The switch of GB0 at G: new PDU data, but for the images that are kept; the slot select of the PDUs named, images fresh where not kept; changed
routes restarted (R282, R283). -/
def State.gwSwitch (s : State) (g : Nat) (sect : Octets) : State :=
  let s := s.gwHead sect
  let named := gwNamed sect
  let kept := (s.memIdx gwDescs gwPState 64).filter (fun p => s.pduValid p && (!named.contains p || pduKept (s.pduDesc p) (s.pduOther p)))
  let images := kept.map (fun p => (bodyAddr (s.pduDesc p), s.image (s.pduDesc p)))
  let s := (runUnits sect 4 4 64).foldl (fun s u => s.memW (gwData + 64 * u.1) u.2) s
  let s := images.foldl (fun s x => s.memW x.1 x.2) s
  let s := named.foldl (fun s p =>
    let s := s.setPduFlag p 3 (!(s.pduFlags p).testBit 3)
    let d := s.pduDesc p
    let s := if kept.contains p then s else if entryValid d then s.freshPdu p else s.clearPdu p
    s.memW (gwDescs + 64 * p) (d ++ d)) s
  (s.memIdx gwRoutes gwRState 64).foldl (fun s r =>
    if oct (s.route r) 0 % 4 == 2 then s.memW (gwRState + 16 * r) (natLE 6 g ++ [0]) else s) s

/-- The purge of one tagged region: entries of the tag that goes are removed, those of the tag that stays become 0b11 (R118). -/
def State.purgeRegion (s : State) (base stop size o gone : Nat) : State :=
  (s.memIdx base stop size).foldl (fun s i =>
    let e := s.memO (base + size * i) size
    let tag := oct e o % 4
    if tag == gone then s.memW (base + size * i) (List.replicate size 0)
    else if tag == 3 - gone then s.memW (base + size * i) (withTag o 3 e)
    else s) s

/-- The purge of the gateway regions; the other way the slots not in force become copies again (R118, R283). -/
def State.gwPurge (s : State) (forward : Bool) : State :=
  let gone := if forward then 1 else 2
  let s := (s.purgeRegion gwRoutes gwRState 64 0 gone).purgeRegion gwCells gwDescs 32 0x0B gone
  if forward then s else (s.memIdx gwDescs gwPState 64).foldl (fun s p => let d := s.pduDesc p; s.memW (gwDescs + 64 * p) (d ++ d)) s

/-! ### Host commands (R298, R299) -/

/-- A refused gateway command is counted and flagged. -/
def State.gwRefuse (s : State) : State := (s.cInc (SG_CNT 9)).cEvt SG_EVENT 7

/-- May OP 0x1 to 0x3 act: no delta armed and no purge running? -/
def State.gwFree (s : State) : Bool := !s.bit FR_STATUS 5 && !s.bit FR_STATUS 6

/-- Octets of command data words. -/
def cmdOcts (d : List Nat) (n : Nat) : Octets := padTo n (d.flatMap (natLE 4))

/-- The route state of a written or restarted route: LASTRX := c, and a timeout in force ends, with its event record (R298, R300). -/
def State.restartRoute (s : State) (c idx : Nat) : State :=
  let tmo := (s.memB (gwRState + 16 * idx + 6)).getLsbD 0
  let s := s.memW (gwRState + 16 * idx) (natLE 6 c ++ [0])
  if tmo then (s.cEvt SG_EVENT 1).gwRecord c 2 idx else s

/-- Close the pending records of a place of the plumb scan, which a command has written (R332). -/
def State.closeRec (s : State) (region idx : Nat) : State :=
  { s with tab := { s.tab with recs := s.tab.recs.filter (fun r => !(r.region == region && r.idx == idx)) } }

/-- R298 OP 0x1. A route entry is written and its route state restarts. -/
def routeWrite (c idx : Nat) (d : List Nat) (s : State) : State :=
  let e := cmdOcts d 64
  if idx < 8388608 && s.gwFree && s.routeOk e then
    ((s.putEntry (gwRoutes + 64 * idx) 0 3 e).closeRec 4 idx).restartRoute c idx
  else s.gwRefuse

/-- R298 OP 0x2. A cell is written, unless a VALID route that names it would not allow it. -/
def cellWrite (idx : Nat) (d : List Nat) (s : State) : State :=
  let e := cmdOcts d 32
  let rs := ((s.memIdx gwRoutes gwRState 64).map s.route).filter (fun r => entryValid r && (routeCells r).contains idx)
  let s' := s.putEntry (gwCells + 32 * idx) 0x0B 3 e
  if idx < 16777216 && s.gwFree && rs.all s'.routeOk then s'.closeRec 5 idx else s.gwRefuse

/-- R298 OP 0x3. The descriptor in the slot in force is written; image and state are kept with IMGLEN and BODY, else start from INIT. -/
def pduDescriptorWrite (n idx : Nat) (d : List Nat) (s : State) : State :=
  let e := cmdOcts d 32
  let o := s.pduDesc idx
  let same := entryValid o && entryValid e && dImg o == dImg e
  let s' := (s.putDesc idx e).closeRec 6 (1048576 * bitsN (s.pduFlags idx) 3 1 + idx)
  let rs := ((s.memIdx gwRoutes gwRState 64).map s.route).filter (fun r => entryValid r && (List.range (routeNdest r)).any (fun k => routeDest r k == idx))
  if idx < 1048576 && s.gwFree && s.descOk (fun m => some (s.tenonAt m n)) e && !(same && leAt o 8 4 != leAt e 8 4) && rs.all s'.routeOk then
    if same then s' else if entryValid e then s'.freshPdu idx else s'
  else s.gwRefuse

/-- R298 OP 0x4. Image octets are written; with TRIG a change marks the PDU pending, and in mode 0x4 every write does. -/
def imageWrite (idx off len : Nat) (trig : Bool) (d : List Nat) (s : State) : State :=
  let ds := s.pduDesc idx
  if idx < 1048576 && entryValid ds && 1 ≤ len && len ≤ 64 && off + len ≤ dImg ds then
    let img := s.image ds
    let new := putOcts img off (cmdOcts d len)
    let s := s.memW (bodyAddr ds) new
    if trig && (new != img || s.pduMode idx == 4) then s.setPduFlag idx 0 true else s
  else s.gwRefuse

/-- R298 OP 0x5. A PDU is pending for a host send. -/
def hostSend (idx : Nat) (s : State) : State := if idx < 1048576 then s.setPduFlag idx 1 true else s.gwRefuse

/-- R298 OP 0x6. A route's timeout monitor restarts. -/
def restartTimeout (c idx : Nat) (s : State) : State :=
  if idx < 8388608 then s.restartRoute c idx else s.gwRefuse

end Sys2Proof.Machine
end

