-- ==== Sys2Proof/Machine/Tables.lean ====
section
/-! DEFINITION. Machine/Tables.lean: the lookup tables (R302 to R335): direct tables, hash tables with their stash, longest-prefix match,
host commands, learning, aging and flushing, the TB0 section with its generations, the shadow area and the plumb scan. -/
namespace Sys2Proof.Machine
open Sys2Proof

/-! ### Where the tables lie

R506 gives the region of the images of on-die tables; their order inside it follows the rule, their offsets are a DESIGN CHOICE (log 16). -/

/-- Direct tables: 1 MiB a bank. -/
abbrev tbDirect : Nat := 0
/-- The slots of the stream/MAC table. -/
abbrev tbSm : Nat := 2 * 2 ^ 20
/-- The stash of the stream/MAC table. -/
abbrev tbSmStash : Nat := 10 * 2 ^ 20
/-- The stash of the extended-identifier table. -/
abbrev tbExStash : Nat := 10 * 2 ^ 20 + 1024
/-- The slots of the extended-identifier table. -/
abbrev tbEx : Nat := 16 * 2 ^ 20
/-- The prefix list. -/
abbrev tbPfx : Nat := 144 * 2 ^ 20

/-! ### Direct tables (R303) -/

/-- Address of a direct entry in a bank. -/
def directAddr (bank : Bool) (i : Nat) : Nat := tbDirect + 2 ^ 20 * b2n bank + 4 * i

/-- The direct entry of identifier `i` of mortise `m`, in the bank in force (R303, R117). -/
def State.direct (s : State) (m i : Nat) : Nat := s.memN (directAddr (s.tab.bank.testBit m) (2048 * m + i)) 4

/-- Are the zero bits of a direct entry zero? -/
def directOk (w : Nat) : Bool := !w.testBit 7 && !w.testBit 31

/-! ### Hash tables (R305 to R311)

Table 0 is the stream/MAC table, table 1 the extended-identifier table. Positions 4 × NB on are the stash. -/

/-- NB of a table. -/
def hashNb (t : Nat) : Nat := if t = 0 then 65536 else 1048576

/-- Slots of a table without its stash. -/
def hashSlots (t : Nat) : Nat := 4 * hashNb t

/-- Address of a position. -/
def hashAddr (t i : Nat) : Nat :=
  if t = 0 then (if i < hashSlots 0 then tbSm + 32 * i else tbSmStash + 32 * (i - hashSlots 0))
  else (if i < hashSlots 1 then tbEx + 32 * i else tbExStash + 32 * (i - hashSlots 1))

/-- The entry at a position. -/
def State.hent (s : State) (t i : Nat) : Octets := s.memO (hashAddr t i) 32

/-- The machine with an entry at a position. -/
def State.putHent (s : State) (t i : Nat) (e : Octets) : State := s.memW (hashAddr t i) e

/-- VALID of an entry. -/
def hValid (e : Octets) : Bool := (oct e 0).testBit 2
/-- LEARNED of an entry. -/
def hLearned (e : Octets) : Bool := (oct e 0).testBit 3
/-- GEN of an entry. -/
def hGen (e : Octets) : Nat := oct e 0 % 4
/-- HANDLE of an entry. -/
def hHandle (e : Octets) : Nat := bitsN (leAt e 4 4) 0 22
/-- RES of an entry. -/
def hRes (e : Octets) : Nat := leAt e 8 4
/-- AUX of an entry. -/
def hAux (e : Octets) : Nat := leAt e 0x0C 4
/-- KEY of an entry. -/
def hKey (e : Octets) : Octets := slice e 0x10 12

/-- H0 of R307: CRC-32C. -/
def hash0 (k : Octets) : Nat := crc32r 0x82F63B78 k

/-- H1 of R307: CRC-32, not reflected. -/
def hash1 (k : Octets) : Nat := crcMsb 32 0x04C11DB7 0xFFFFFFFF k ^^^ 0xFFFFFFFF

/-- The candidate buckets of a key (R307). -/
def buckets (t : Nat) (k : Octets) : Nat × Nat :=
  let b0 := hash0 k % hashNb t
  let b1 := hash1 k % hashNb t
  (b0, if b1 = b0 then b0 ^^^ 1 else b1)

/-- Positions holding a valid entry, in index order. -/
def State.hused (s : State) (t : Nat) : List Nat :=
  let slots := s.memIdx (hashAddr t 0) (hashAddr t 0 + 32 * hashSlots t) 32
  (slots ++ (List.range 32).map (· + hashSlots t)).filter (fun i => hValid (s.hent t i))

/-- Is an entry hidden by a flush filter (R327)? -/
def State.hidden (s : State) (e : Octets) : Bool :=
  hLearned e && s.tab.filters.any (fun f =>
    (match f.port with
      | none => true
      | some p => hRes e % 256 == p) &&
    (let d := (f.epoch + 2 ^ 32 - leAt e 0x1C 4) % 2 ^ 32
     decide (0 < d) && decide (d < 2 ^ 31)))

/-- The places a lookup examines: the slots of b0 and b1 and the stash (R308). The move register is clear between operations, since every
move of an operation completes within it (R310). -/
def hashPlaces (t : Nat) (k : Octets) : List Nat :=
  let (b0, b1) := buckets t k
  (List.range 4).map (· + 4 * b0) ++ (List.range 4).map (· + 4 * b1) ++ (List.range 32).map (· + hashSlots t)

/-- The place of the entry that matches a key in the generations of `mask` (R308). -/
def State.hfind (s : State) (t : Nat) (k : Octets) (mask : Nat) : Option Nat :=
  (hashPlaces t k).find? (fun i => let e := s.hent t i; hValid e && hKey e == k && (hGen e &&& mask) != 0 && !s.hidden e)

/-- The generations a lookup matches (R116). -/
def State.genMask (s : State) : Nat := if s.fr.purgeT == .forward then 2 else 1

/-- Does a lookup of TB0 match a tag (R116)? -/
def State.tagOkT (s : State) (tag : Nat) : Bool := tag &&& s.genMask != 0

/-- A lookup (R308). -/
def State.hlookup (s : State) (t : Nat) (k : Octets) : Option Octets := (s.hfind t k s.genMask).map (fun i => s.hent t i)

/-- The lowest free slot of a bucket. -/
def State.freeSlot (s : State) (t b : Nat) : Option Nat := ((List.range 4).map (· + 4 * b)).find? (fun i => !hValid (s.hent t i))

/-- The lowest free stash place. -/
def State.freeStash (s : State) (t : Nat) : Option Nat := ((List.range 32).map (· + hashSlots t)).find? (fun i => !hValid (s.hent t i))

/-- carry_out of R310: the entries on the path move on, from the last to the first, and `e` takes the first slot. -/
def State.carryOut (s : State) (t : Nat) (path : List Nat) (dest : Nat) (e : Octets) : State :=
  let (d, s) := path.reverse.foldl (fun a p => (p, (a.2.putHent t a.1 (a.2.hent t p)).putHent t p (zeros 32))) (dest, s)
  s.putHent t d e

/-- The relocation loop of R310 from bucket `b` with `k` steps taken, `f` left. -/
def State.kick (s : State) (t : Nat) (e : Octets) : Nat → Nat → List Nat → Nat → State
  | 0, _, path, _ => match s.freeStash t with
    | some d => s.carryOut t path d e
    | none => s
  | f + 1, k, path, b =>
    match ((List.range 4).map (fun j => 4 * b + (k + j) % 4)).find? (fun i => !path.contains i) with
    | none => match s.freeStash t with
      | some d => s.carryOut t path d e
      | none => s
    | some i =>
      let (c0, c1) := buckets t (hKey (s.hent t i))
      let nb := if b = c0 then c1 else c0
      let path := path ++ [i]
      match s.freeSlot t nb with
      | some d => s.carryOut t path d e
      | none => State.kick s t e f (k + 1) path nb

/-- Insertion (R310): none when it is refused. -/
def State.hinsert (s : State) (t : Nat) (e : Octets) : Option State :=
  match s.hfind t (hKey e) (hGen e) with
  | some i => some (s.putHent t i e)
  | none =>
    match s.freeStash t with
    | none => none
    | some _ =>
      let (b0, b1) := buckets t (hKey e)
      let s' := match s.freeSlot t b0, s.freeSlot t b1 with
        | some d, _ => s.putHent t d e
        | none, some d => s.putHent t d e
        | none, none => State.kick s t e (s.fld TB_CFG 0 6) 0 [] b0
      some (if (s'.freeStash t).isNone then s'.cEvt TB_EVENT 3 else s')

/-- Deletion of the entry at a position (R311): a stash entry for which the slot is a candidate moves in. -/
def State.hdelete (s : State) (t i : Nat) : State :=
  let s := s.putHent t i (zeros 32)
  if hashSlots t ≤ i then s
  else
    match ((List.range 32).map (· + hashSlots t)).find? (fun j => let e := s.hent t j; hValid e &&
        (let (b0, b1) := buckets t (hKey e); b0 == i / 4 || b1 == i / 4)) with
    | some j => (s.putHent t i (s.hent t j)).putHent t j (zeros 32)
    | none => s

/-- Is a host entry legal in a table (R305, R306, R320)? -/
def hashOk (t : Nat) (e : Octets) : Bool :=
  let k := hKey e
  hValid e && !hLearned e && oct e 0 / 16 == 0 && oct e 1 == 0 && oct e 2 == 0 && oct e 3 == 0 && leAt e 0x1C 4 == 0 &&
  bitsN (leAt e 4 4) 22 10 == 0 &&
  (match oct k 0 with
    | 1 => t == 0 && decide (oct k 2 < 16) && (k.drop 9).all (· == 0)
    | 2 => t == 0 && decide (oct k 2 < 16) && (k.drop 9).all (· == 0)
    | 3 => t == 1 && decide (oct k 5 < 32) && (k.drop 6).all (· == 0) && (hRes e &&& 0x80000091) == 0
    | 4 => t == 1 && (k.drop 10).all (· == 0) && (hRes e &&& 0x80000091) == 0
    | n => decide (5 ≤ n) && decide (n ≤ 15))

/-- An entry with its tag replaced. -/
def hTag (g : Nat) (e : Octets) : Octets := withTag 0 g e

/-! ### Longest-prefix match (R312 to R318) -/

/-- The prefix list entry of a handle. -/
def State.pfx (s : State) (h : Nat) : Octets := s.memO (tbPfx + 32 * h) 32

/-- VALID of a prefix entry. -/
def pfValid (e : Octets) : Bool := (oct e 0).testBit 2
/-- Is it an IPv6 prefix? -/
def pfSix (e : Octets) : Bool := oct e 1 == 6
/-- VRF. -/
def pfVrf (e : Octets) : Nat := bitsN (leAt e 4 2) 0 12
/-- LEN. -/
def pfLen (e : Octets) : Nat := oct e 2
/-- The 64 address bits; an IPv4 address lies in the upper half. -/
def pfBits (e : Octets) : Nat := beAt e 8 8

/-- Is a prefix entry legal (R312)? -/
def prefixOk (e : Octets) : Bool :=
  pfValid e && oct e 0 / 8 == 0 && oct e 3 == 0 && leAt e 6 2 == 0 && leAt e 0x18 8 == 0 && bitsN (leAt e 4 2) 12 4 == 0 &&
  (oct e 1 == 4 || oct e 1 == 6) && decide (pfLen e ≤ if pfSix e then 64 else 32) && decide (pfBits e % 2 ^ (64 - pfLen e) = 0)

/-- Handles of valid prefixes, in ascending order. -/
def State.handles (s : State) : List Nat := (s.memIdx tbPfx (tbPfx + 32 * 2 ^ 20) 32).filter (fun h => pfValid (s.pfx h))

/-- The root of a pair: the number of the enabled TB_ROOT that names it (R313). -/
def State.rootIdx (s : State) (vrf : Nat) (six : Bool) : Option Nat :=
  (List.range 64).find? (fun k => s.bit (TB_ROOT k) 14 && s.fld (TB_ROOT k) 0 12 == vrf && s.bit (TB_ROOT k) 12 == six)

/-- Is the pair of root `k` placed in the TCAM (R315, R316)? A pair dropped in the epoch being processed still shows TCMA until it completes (R76). -/
def State.tcmOn (s : State) (k : Nat) : Bool := s.bit (TB_ROOT k) 15 && !s.held.contains (.put (TB_ROOT k) 15 1 0)

/-- The pair of a prefix entry has an enabled root. -/
def State.pairOf (s : State) (e : Octets) : Option Nat := s.rootIdx (pfVrf e) (pfSix e)

/-- Does a prefix cover an address of 64 bits? -/
def pfCovers (e : Octets) (a : Nat) : Bool := pfBits e / 2 ^ (64 - pfLen e) == a / 2 ^ (64 - pfLen e)

/-- The prefix entries of a pair in force for a lookup, with their handles (R313, R116). -/
def State.pairPfx (s : State) (vrf : Nat) (six : Bool) : List (Nat × Octets) :=
  (s.handles.map (fun h => (h, s.pfx h))).filter (fun x => s.tagOkT (hGen x.2) && pfVrf x.2 == vrf && pfSix x.2 == six)

/-- The handle of the longest of some prefixes. -/
def longestOf (l : List (Nat × Octets)) : Option Nat :=
  (l.foldl (fun (b : Option (Nat × Octets)) x => match b with
    | none => some x
    | some y => if pfLen y.2 < pfLen x.2 then some x else b) none).map (·.1)

/-! The trie (R317) -/

/-- The strides of a walk (R317). -/
def strides (six : Bool) : List Nat := if six then [16, 16, 16, 16] else [16, 8, 8]

/-- The slot that address `a` selects in the node reached after `d` bits, with stride `k`, in the trie of the prefixes `l` (R317): its PH when PV
is set, the longest prefix covering the slot whose length ends at this stage; and CV, set where a longer prefix goes on below the slot. -/
def trieSlot (l : List (Nat × Octets)) (a d k : Nat) : Option Nat × Bool :=
  (longestOf (l.filter (fun x => (d == 0 || decide (d < pfLen x.2)) && decide (pfLen x.2 ≤ d + k) && pfCovers x.2 a)),
    l.any (fun x => decide (d + k < pfLen x.2) && pfBits x.2 / 2 ^ (64 - (d + k)) == a / 2 ^ (64 - (d + k))))

/-- The walk of R317: it follows CHILD while CV is set; the answer is the last PH seen with PV set. -/
def trieWalk (l : List (Nat × Octets)) (a : Nat) : List Nat → Nat → Option Nat → Option Nat
  | [], _, best => best
  | k :: ks, d, best =>
    let (ph, cv) := trieSlot l a d k
    let best := ph.orElse (fun _ => best)
    if cv then trieWalk l a ks (d + k) best else best

/-! The TCAM (R314 to R316) -/

/-- Rows of the TCAM. -/
def tcamRows : Nat := 16384

/-- Has a pair a prefix command that awaits its effect epoch (R318)? -/
def State.pairPending (s : State) (vrf : Nat) (six : Bool) : Bool :=
  s.tab.lpm.any (fun c => let e := c.entry.getD (s.pfx c.handle)
    pfVrf e == vrf && pfSix e == six)

/-- Does the TCAM answer lookups in the pair of root `k` (R315)? Otherwise the trie does. -/
def State.tcamAnswers (s : State) (k vrf : Nat) (six : Bool) : Bool := s.tcmOn k && !s.bit TB_STATUS 0 && !s.pairPending vrf six

/-- Does a row match an address in a pair (R314): AF, VRF and the first LEN address bits agree, and the tag is that of the lookup (R116)? -/
def State.rowMatches (s : State) (vrf : Nat) (six : Bool) (a : Nat) (r : TcamRow) : Bool :=
  r.af6 == six && r.vrf == vrf && r.pfx / 2 ^ (64 - r.len) == a / 2 ^ (64 - r.len) && s.tagOkT r.gen

/-- The handle that answers a lookup of an address in the pair of root `k`: that of the lowest-numbered matching row of the TCAM (R314), or the
end of the trie's walk (R317). -/
def State.lpmHandle (s : State) (k vrf : Nat) (six : Bool) (a : Nat) : Option Nat :=
  if s.tcamAnswers k vrf six then (s.tab.tcam.find? (s.rowMatches vrf six a)).map (·.handle)
  else trieWalk (s.pairPfx vrf six) a (strides six) 0 none

/-- A lookup of an address (IPv4 in the upper half of the 64 bits) in a pair: RES and AUX of the prefix that answers; a miss for a pair without an
enabled root (R313). -/
def State.lpm (s : State) (vrf : Nat) (six : Bool) (a : Nat) : Option (Nat × Nat) :=
  (s.rootIdx vrf six).bind (fun k => (s.lpmHandle k vrf six a).map (fun h => (leAt (s.pfx h) 0x10 4, leAt (s.pfx h) 0x14 4)))

/-- The row of a prefix entry. -/
def tcamRow (e : Octets) (h idx : Nat) : TcamRow :=
  { idx := idx, af6 := pfSix e, vrf := pfVrf e, len := pfLen e, pfx := pfBits e, handle := h, gen := hGen e }

/-- The rows in index order with one more. -/
def tcamPut (r : TcamRow) (l : List TcamRow) : List TcamRow := insertBy (·.idx) r l

/-- The first index above `i` with no row. -/
def tcamFree (l : List TcamRow) (i : Nat) : Nat → Nat
  | 0 => i
  | f + 1 => if l.any (fun r => r.idx == i) then tcamFree l (i + 1) f else i

/-- Move the first row of each band in turn to the first free row below it; the answer carries the row the last one freed. -/
def tcamShift : List Nat → Option Nat → List TcamRow → Option Nat × List TcamRow
  | [], fr, l => (fr, l)
  | p :: ps, fr, l =>
    match l.find? (fun r => r.len == p) with
    | some r => tcamShift ps (some r.idx) (tcamPut { r with idx := tcamFree l r.idx tcamRows } (l.erase r))
    | none => tcamShift ps fr l

/-- Insert a row under R316: the rows, and whether any other row moved; none when the TCAM has no free row. -/
def tcamInsert (e : Octets) (h : Nat) (l : List TcamRow) : Option (List TcamRow × Bool) :=
  if tcamRows ≤ l.length then none
  else
    let p := pfLen e
    let band := (l.filter (fun r => r.len == p)).map (·.idx)
    let hole := match band with
      | [] => none
      | i :: _ => (fun j => if j < band.getLast! then some j else none) (tcamFree l i tcamRows)
    match hole with
    | some j => some (tcamPut (tcamRow e h j) l, false)
    | none =>
      let last := (l.getLast?.map (·.idx)).getD 0
      let packed := last + 1 < tcamRows || l.isEmpty
      let l := if packed then l else (List.range l.length).zipWith (fun i r => { r with idx := i }) l
      let bands := (((l.map (·.len)).filter (· < p)).dedup).mergeSort
      let (fr, l') := tcamShift bands none l
      let at_ := match fr with
        | some i => i
        | none => match l'.getLast? with
          | some r => r.idx + 1
          | none => 0
      some (tcamPut (tcamRow e h at_) l', !packed || fr.isSome)

/-- The node pool's units (R317): 512 MiB in units of 2 KiB. -/
def poolUnits : Nat := 262144

/-- Units of the nodes below the root on the path of a prefix. -/
def pathUnits (e : Octets) : Nat :=
  let n := pfLen e
  if pfSix e then 256 * (b2n (decide (16 < n)) + b2n (decide (32 < n)) + b2n (decide (48 < n)))
  else b2n (decide (16 < n)) + b2n (decide (24 < n))

/-- The nodes below the roots that a list of prefixes needs, as (IPv6, VRF, bits consumed, path), each with its units (R317). -/
def trieNodes (l : List Octets) : List ((Bool × Nat × Nat × Nat) × Nat) :=
  (l.flatMap (fun e =>
    let node (d u : Nat) := if d < pfLen e then [((pfSix e, pfVrf e, d, pfBits e / 2 ^ (64 - d)), u)] else []
    if pfSix e then node 16 256 ++ node 32 256 ++ node 48 256 else node 16 1 ++ node 24 1)).dedup

/-- Units in use by the tries of a list of prefixes under the enabled roots. -/
def State.trieUnits (s : State) (l : List Octets) : Nat :=
  256 * ((List.range 64).filter (fun k => s.bit (TB_ROOT k) 14)).length +
    ((trieNodes (l.filter (fun e => (s.pairOf e).isSome))).map (·.2)).sum

/-- TCROWS, BUILD and RESORT of TB_STATUS, which lie outside the guarantee. -/
def State.tcamShow (s : State) : State :=
  let s := s.setFld TB_STATUS 17 15 s.tab.tcam.length
  s.setBit TB_STATUS 1 (s.tab.lpm.any (fun c => !c.built))

/-- The build of a pending command begins (R318): the node pool is asked for the new root and path. -/
def State.lpmUnits (s : State) (c : LpmCmd) : LpmCmd :=
  let e := match c.entry with
    | some e => e
    | none => s.pfx c.handle
  let u := 256 + pathUnits e
  let used := s.trieUnits (s.handles.map s.pfx) + (s.tab.lpm.map (·.units)).sum
  { c with units := u, fits := decide (used + u ≤ poolUnits) }

/-- D of R318 in epochs. -/
def State.lpmLead (s : State) : Nat := cdiv 1000000 s.elen

/-- Does a build have to move TCAM rows? -/
def State.lpmMoves (s : State) (c : LpmCmd) : Bool :=
  match c.entry with
  | none => false
  | some e => match s.pairOf e with
    | some k => s.tcmOn k && ((tcamInsert e c.handle s.tab.tcam).map (·.2)).getD false
    | none => false

/-- A prefix command joins the pending ones for its effect epoch (R318). -/
def State.lpmPend (s : State) (n h : Nat) (entry : Option Octets) : State :=
  let base := match s.tab.lpm.getLast? with
    | some c => max n c.at_
    | none => n
  let c := s.lpmUnits { at_ := base + s.lpmLead, handle := h, entry := entry }
  let moves := s.lpmMoves c
  let s := { s with tab := { s.tab with lpm := s.tab.lpm ++ [c] } }
  (if moves then s.setBit TB_STATUS 0 true else s).tcamShow

/-- PREFIX_BUILD_DONE: the first open build completes (R318): its rows stand in the TCAM beside the old ones. -/
def State.prefixBuildDone (t : Nat) (s : State) : State :=
  match s.tab.lpm.find? (fun c => !c.built) with
  | none => s
  | some c =>
    let s := s.tick t
    let (rows, ovf) : List TcamRow × Bool :=
      match c.entry with
      | none => (s.tab.tcam, false)
      | some e => match s.pairOf e with
        | some k => if s.tcmOn k && c.fits then
            match tcamInsert e c.handle s.tab.tcam with
            | some (l, _) => (l, false)
            | none => (s.tab.tcam, true)
          else (s.tab.tcam, false)
        | none => (s.tab.tcam, false)
    let upd (x : LpmCmd) := if x == c then { x with built := true, overflow := ovf } else x
    let s := { s with tab := { s.tab with tcam := rows, lpm := s.tab.lpm.map upd } }
    (s.setBit TB_STATUS 0 false).tcamShow

/-- The pair of root `k` leaves the TCAM (R316). -/
def State.tcamDrop (s : State) (k : Nat) : State :=
  let vrf := s.fld (TB_ROOT k) 0 12
  let six := s.bit (TB_ROOT k) 12
  let s := { s with tab := { s.tab with tcam := s.tab.tcam.filter (fun r => !(r.vrf == vrf && r.af6 == six)) } }
  ((s.cPut (TB_ROOT k) 15 1 0).cEvt TB_EVENT 4).cInc (TB_CNT 8)

/-- A built prefix command takes effect (R318): the list changes, the row of the prefix that goes is freed. -/
def State.lpmEffect (s : State) (c : LpmCmd) : State :=
  if !c.fits then (s.cEvt TB_EVENT 5).cInc (TB_CNT 9)
  else
    let old := s.pfx c.handle
    let gone (r : TcamRow) := pfValid old && r.handle == c.handle && r.vrf == pfVrf old && r.af6 == pfSix old && r.len == pfLen old && r.pfx == pfBits old
    let same := match c.entry with
      | some e => pfBits e == pfBits old && pfLen e == pfLen old && pfVrf e == pfVrf old && pfSix e == pfSix old
      | none => false
    let rows := match s.tab.tcam.find? gone with
      | some r => if same && ((s.tab.tcam.filter gone).length ≤ 1) then s.tab.tcam else s.tab.tcam.erase r
      | none => s.tab.tcam
    let s := { s with tab := { s.tab with tcam := rows } }
    let s := s.memW (tbPfx + 32 * c.handle) (match c.entry with
      | some e => hTag 3 e
      | none => zeros 32)
    let s := s.closeRec 3 c.handle
    let s := match c.entry.bind s.pairOf with
      | some k => if c.overflow then s.tcamDrop k else s
      | none => s
    s.cEvt TB_EVENT 6

/-- PREFIX_EFFECT: the start of epoch `n` (R318). A build still open raises an F3, and its command has no effect (DESIGN CHOICE, log 17: the
rule gives no more). -/
def State.prefixEffect (n : Nat) (s : State) : State :=
  match s.tab.lpm.find? (fun c => c.at_ == n) with
  | none => s
  | some c =>
    let s := { s with tab := { s.tab with lpm := s.tab.lpm.erase c } }
    let s := if c.built then s.lpmEffect c else (s.setBit TB_STATUS 0 false).raiseFault 3 0x36 0x10 0xFF
    s.tcamShow.cPut TB_STATUS 2 5 s.tab.lpm.length

/-! ### Occupancy -/

/-- The occupancy registers, as `put` writes them (R149: they follow when the epoch's processing completes). -/
def State.tabShow (put : State → Nat → Nat → Nat → Nat → State) (s : State) : State :=
  let sm := s.hused 0
  let ex := s.hused 1
  let lrn := (sm.filter (fun i => hLearned (s.hent 0 i))).length
  let s1 := put s TB_OCC0 0 19 sm.length
  let s2 := put s1 TB_OCC1 0 23 ex.length
  let s3 := put s2 TB_OCC2 0 19 lrn
  let s4 := put s3 TB_OCC2 20 6 (sm.filter (fun i => hashSlots 0 ≤ i)).length
  let s5 := put s4 TB_OCC2 26 6 (ex.filter (fun i => hashSlots 1 ≤ i)).length
  let s6 := put s5 TB_OCC3 0 21 ((s.handles.filter (fun h => s.tagOkT (hGen (s.pfx h)))).length)
  let s7 := put s6 TB_STATUS 2 5 s.tab.lpm.length
  put s7 TB_STATUS 8 3 s.tab.filters.length

/-! ### Pending scan records close when a command writes their place (R332) -/

/-- Close the records about a key of hash table `t`. -/
def State.closeKey (s : State) (t : Nat) (k : Octets) : State :=
  { s with tab := { s.tab with recs := s.tab.recs.filter (fun r => !(r.region == t + 1 && (hKey r.ent == k || hKey r.shadow == k))) } }

/-! ### Host commands (R319 to R321) -/

/-- The octets of a command's data words. -/
def tabData (d : List Nat) : Octets := padTo 32 (d.flatMap (natLE 4))

/-- A refused table command (R320). -/
def State.tabReject (s : State) : State := (s.cInc (TB_CNT 1)).cEvt TB_EVENT 0

/-- A table command carried out takes its slots (R321). -/
def State.tabDone (s : State) (cost : Nat) : State := { s with tab := { s.tab with slots := s.tab.slots - cost } }.cInc (TB_CNT 0)

/-- May a table command of `cost` slots act at all (R320, R321)? -/
def State.tabFree (s : State) (cost : Nat) : Bool := !s.bit FR_STATUS 5 && !s.bit FR_STATUS 6 && decide (cost ≤ s.tab.slots)

/-- Slots of an insertion or a learning action. -/
def State.insCost (s : State) : Nat := s.fld TB_CFG 0 6 + 3

/-- DIRECT_ENTRY_WRITE: command OP 0x1. -/
def State.directEntryWrite (idx : Nat) (d : List Nat) (s : State) : State :=
  let w := d.getD 0 0 % 2 ^ 32
  if !s.serving then s
  else if decide (idx < 262144) && directOk w && s.tabFree 1 then
    let b := s.tab.bank.testBit (idx / 2048)
    ((s.memWN (directAddr b idx) 4 w).closeRec 0 (262144 * b2n b + idx)).tabDone 1
  else s.tabReject

/-- Is a handle in use by another key of a table (R320)? -/
def State.handleTaken (s : State) (t : Nat) (e : Octets) : Bool :=
  (s.hused t).any (fun i => let x := s.hent t i; !hLearned x && hHandle x == hHandle e && hKey x != hKey e)

/-- HASH_INSERT: command OP 0x2 (R310, R319). -/
def State.hashInsert (idx : Nat) (d : List Nat) (s : State) : State :=
  let e := hTag 3 (tabData d)
  if !s.serving then s
  else if decide (idx < 2) && hashOk idx e && !s.handleTaken idx e && s.tabFree s.insCost then
    match s.hinsert idx e with
    | some s' => (s'.closeKey idx (hKey e)).tabDone s.insCost
    | none => s.tabReject
  else s.tabReject

/-- HASH_DELETE: command OP 0x3 (R311). -/
def State.hashDelete (idx : Nat) (d : List Nat) (s : State) : State :=
  let k := hKey (tabData d)
  if !s.serving then s
  else if decide (idx < 2) && s.tabFree 3 then
    match s.hfind idx k s.genMask with
    | some i => ((s.hdelete idx i).closeKey idx k).tabDone 3
    | none => s.tabReject
  else s.tabReject

/-- Does a prefix stand, in force or pending, under another handle (R320)? -/
def State.prefixElsewhere (s : State) (h : Nat) (e : Octets) : Bool :=
  let same (x : Octets) := pfSix x == pfSix e && pfVrf x == pfVrf e && pfLen x == pfLen e && pfBits x == pfBits e
  s.handles.any (fun k => k != h && same (s.pfx k)) ||
    s.tab.lpm.any (fun c => c.handle != h && (match c.entry with
      | some x => same x
      | none => false))

/-- PREFIX_ADD: command OP 0x4 of epoch `c` (R318). -/
def State.prefixAdd (c idx : Nat) (d : List Nat) (s : State) : State :=
  let e := tabData d
  if !s.serving then s
  else if decide (idx < 1048576) && prefixOk e && (s.pairOf e).isSome && decide (s.tab.lpm.length < 16) && !s.prefixElsewhere idx e && s.tabFree 1 then
    ((s.lpmPend c idx (some (hTag 3 e))).closeRec 3 idx).tabDone 1
  else s.tabReject

/-- Will a handle hold a prefix when every pending command has taken effect? -/
def State.handleHeld (s : State) (h : Nat) : Option Octets :=
  match (s.tab.lpm.filter (fun c => c.handle == h)).getLast? with
  | some c => c.entry
  | none => if pfValid (s.pfx h) then some (s.pfx h) else none

/-- PREFIX_DELETE: command OP 0x5 of epoch `c` (R318). -/
def State.prefixDelete (c idx : Nat) (s : State) : State :=
  if !s.serving then s
  else match s.handleHeld idx with
    | some e =>
      if decide (idx < 1048576) && (s.pairOf e).isSome && decide (s.tab.lpm.length < 16) && s.tabFree 1 then
        ((s.lpmPend c idx none).closeRec 3 idx).tabDone 1
      else s.tabReject
    | none => s.tabReject

/-- Positions of one sweep (R326). -/
def sweepLen : Nat := 262176

/-- LEARNED_FLUSH: command OP 0x6 of epoch `c` (R327). -/
def State.learnedFlush (c idx : Nat) (d : List Nat) (s : State) : State :=
  let w := d.getD 0 0
  if !s.serving then s
  else if decide (idx = 0) && decide (s.tab.filters.length < 4) && s.tabFree 1 then
    let f : FlushFilter := { port := if w.testBit 8 then none else some (w % 256), epoch := c % 2 ^ 32, left := sweepLen }
    { s with tab := { s.tab with filters := s.tab.filters ++ [f] } }.tabDone 1
  else s.tabReject

/-! ### Learning and aging (R323 to R327) -/

/-- A source lookup with learning (R323): HIT is set on a learned entry with the same PORT, and the lookup is a candidate. -/
def State.learnLookup (s : State) (key : Octets) (port pos : Nat) : State :=
  let s := { s with tab := { s.tab with learn := s.tab.learn ++ [(key, port, pos)] } }
  match s.hfind 0 key s.genMask with
  | some i =>
    let e := s.hent 0 i
    if hLearned e && hRes e % 256 == port then s.putHent 0 i (putOcts e 0 [BitVec.ofNat 8 (oct e 0 ||| 16)]) else s
  | none => s

/-- The candidates of an epoch (R324): for each key its lowest port and the position of the first lookup from it, in the order of those
positions. -/
def candidates (l : List (Octets × Nat × Nat)) : List (Octets × Nat × Nat) :=
  let keys := (l.map (·.1)).dedup
  let best (k : Octets) : Octets × Nat × Nat :=
    let m := l.filter (fun x => x.1 == k)
    let p := (m.map (fun x => x.2.1)).foldl min 255
    (k, p, ((m.filter (fun x => x.2.1 == p)).map (fun x => x.2.2)).foldl min (2 ^ 32))
  sortBy (fun x => x.2.2) (keys.map best)

/-- A learned entry as created (R324). -/
def learnedNew (key : Octets) (port n : Nat) : Octets :=
  [0x0F, 0, 0, 0] ++ zeros 4 ++ natLE 4 port ++ zeros 4 ++ key ++ natLE 4 (n % 2 ^ 32)

/-- Learned entries. -/
def State.learnedCount (s : State) : Nat := ((s.hused 0).filter (fun i => hLearned (s.hent 0 i))).length

/-- A learning action dropped (R324). -/
def State.learnDrop (s : State) : State := (s.cInc (TB_CNT 5)).cEvt TB_EVENT 2

/-- Does a creation or move still find room in the epoch? `acts` creations and moves came before. -/
def State.learnRoom (s : State) (acts : Nat) : Bool := decide (s.insCost ≤ s.tab.slots) && decide (acts < s.fld TB_LRNCFG 27 5)

/-- The machine with the slots of a learning action used. -/
def State.learnCost (s : State) : State := { s with tab := { s.tab with slots := s.tab.slots - s.insCost } }

/-- A move of a learned entry at position `i` to `port` (R324, R325). -/
def State.learnMove (s : State) (i port n : Nat) : State :=
  let e := s.hent 0 i
  let moves := oct e 2 % 16 + 1
  let frz := decide (s.fld TB_LRNCFG 19 4 ≤ moves)
  let e := putOcts e 0 [BitVec.ofNat 8 (oct e 0 ||| 16), 0, BitVec.ofNat 8 (if frz then 16 else moves)]
  let e := putOcts (putOcts e 8 (natLE 4 port)) 0x1C (natLE 4 (n % 2 ^ 32))
  let s := (s.putHent 0 i e).cInc (TB_CNT 3)
  if frz then (s.cEvt TB_EVENT 1).cNotice 0x08 0x10 else s

/-- One candidate acts (R324): (creations and moves so far, machine). -/
def State.learnAct (n : Nat) (a : Nat × State) (x : Octets × Nat × Nat) : Nat × State :=
  let (acts, s) := a
  let (key, port, _) := x
  match s.hfind 0 key s.genMask with
  | none =>
    if s.learnRoom acts && decide (s.learnedCount < s.fld TB_LRNCFG 0 19) then
      match s.hinsert 0 (learnedNew key port n) with
      | some s' => (acts + 1, s'.learnCost.cInc (TB_CNT 2))
      | none => (acts + 1, s.learnDrop)
    else (acts + 1, s.learnDrop)
  | some i =>
    let e := s.hent 0 i
    if !hLearned e then (acts, if hRes e % 256 != port then s.cInc (TB_CNT 6) else s)
    else if hRes e % 256 == port then (acts, s.putHent 0 i (putOcts e 0 [BitVec.ofNat 8 (oct e 0 ||| 16)]))
    else if (oct e 2).testBit 4 then (acts, s.cInc (TB_CNT 4))
    else if s.learnRoom acts then (acts + 1, (s.learnMove i port n).learnCost)
    else (acts + 1, s.learnDrop)

/-- The learning actions of epoch `n`, once (R323, R324); dropped without count while LRNEN is clear. -/
def State.learnStep (s : State) (n : Nat) : State :=
  if s.tab.learnDue then
    let l := if s.bit TB_CTRL 0 then candidates s.tab.learn else []
    let s := { s with tab := { s.tab with learn := [], learnDue := false } }
    (l.foldl (State.learnAct n) (0, s)).2
  else s

/-- What a visit of the sweep did: nothing to report, an entry removed, or an entry unfrozen. -/
inductive Visit
  | none | removed (key : Octets) | unfrozen (key : Octets)
  deriving DecidableEq, Repr

/-- One visit of the aging sweep (R326, R327). -/
def State.ageVisit (s : State) : Visit × State :=
  let i := s.tab.age
  let s := { s with tab := { s.tab with age := (i + 1) % sweepLen, visits := s.tab.visits - 1 } }
  let e := s.hent 0 i
  if !(hValid e && hLearned e) then (.none, s)
  else if s.hidden e then (.removed (hKey e), (s.hdelete 0 i).cInc (TB_CNT 7))
  else
    let frozen := (oct e 2).testBit 4
    let m := oct e 2 % 16 + 1
    let thaw := frozen && decide (s.fld TB_LRNCFG 23 4 ≤ m)
    let flap := if frozen && !thaw then 16 + m else 0
    let hit := (oct e 0).testBit 4
    let age := if hit then 0 else oct e 1 + 1
    if !hit && decide (s.fld TB_CFG 16 8 ≤ age) then (.removed (hKey e), (s.hdelete 0 i).cInc (TB_CNT 7))
    else
      let e' := putOcts e 0 [BitVec.ofNat 8 (oct e 0 - (if hit then 16 else 0)), BitVec.ofNat 8 age, BitVec.ofNat 8 flap]
      (if thaw then .unfrozen (hKey e) else .none, s.putHent 0 i e')

/-- The visits left in the epoch, through the one that gives `stop` when it comes; the answer says whether it came. -/
def State.ageVisits (stop : Option Visit) : Nat → State → Bool × State
  | 0, s => (false, s)
  | f + 1, s =>
    if s.tab.visits = 0 then (false, s)
    else
      let (v, s) := s.ageVisit
      if stop == some v then (true, s) else State.ageVisits stop f s

/-- The slots and the timer step of an epoch begin (R321, R326). -/
def State.tabBegin (s : State) : State :=
  let step := s.fld TB_CFG 8 7
  { s with tab := { s.tab with slots := s.fld EP_BUDGET 0 16 - step, learn := [], learnDue := true, visits := step } }

/-- Retire the filters whose sweep is over (R327). -/
def State.retireFilters (s : State) : State := { s with tab := { s.tab with filters := s.tab.filters.filter (fun f => f.left != 0) } }

/-- The table timer step of epoch `n`, or what is left of it: learning, then the visits, then filters (R323, R326, R327). -/
def State.tabTimer (s : State) (n : Nat) : State :=
  let k := s.tab.visits
  let s := (State.ageVisits none k (s.learnStep n)).2
  let s := { s with tab := { s.tab with filters := s.tab.filters.map (fun (f : FlushFilter) => { f with left := f.left - s.fld TB_CFG 8 7 }) } }
  s.retireFilters

/-- The key a row names by its number, octet 0 in the least significant place. -/
def keyOfNat (k : Nat) : Octets := natLE 12 k

/-- The steps before an aging visit of epoch `n`: the gateway's timer step and learning (R286, R323). -/
def State.beforeVisits (s : State) (n : Nat) : State := (s.gwTimer n).learnStep n

/-- A visit named by a row: the timer steps of the epoch being processed run through it, when it comes. -/
def State.visitRow (stop : Visit) (s : State) : State :=
  match s.ep.running with
  | some n =>
    let s' := s.beforeVisits n
    let (hit, s') := State.ageVisits (some stop) s'.tab.visits s'
    if hit then s' else s
  | none => s

/-- AGE_OUT: the sweep visits the learned entry of a key and removes it (R326, R327). -/
def State.ageOut (key : Nat) (s : State) : State := s.visitRow (.removed (keyOfNat key))

/-- ENTRY_UNFREEZE: the sweep visits the frozen entry of a key and unfreezes it (R326). -/
def State.entryUnfreeze (key : Nat) (s : State) : State := s.visitRow (.unfrozen (keyOfNat key))

/-- FLUSH_FILTER_RETIRE: filter `k` retires at the end of the timer step after one full sweep (R327). -/
def State.flushFilterRetire (k : Nat) (s : State) : State :=
  match s.ep.running, s.tab.filters[k]? with
  | some n, some f =>
    let step := s.fld TB_CFG 8 7
    if f.left ≤ step then
      let s := s.beforeVisits n
      let s := (State.ageVisits none s.tab.visits s).2
      { s with tab := { s.tab with filters := s.tab.filters.eraseIdx k } }
    else s
  | _, _ => s

/-! ### The TB0 section (R322) -/

/-- Unit sizes of the TB0 run regions. -/
def tbUnit (r : Nat) : Nat :=
  match r with
  | 1 => 4 | 2 => 32 | 3 => 32 | 4 => 32 | _ => 0

/-- Does a TB0 section pass R303, R305, R306, R312, R321, R322 and R553, for a budget LANEB? -/
def tbOk (sect : Octets) (laneb : Nat) : Bool :=
  let cfg := leAt sect 0 4
  let lc := leAt sect 4 4
  let roots := (List.range 64).map (fun k => leAt sect (0x10 + 4 * k) 4)
  let en := roots.filter (fun w => w.testBit 14)
  decide (0x200 ≤ sect.length) && runsOk sect 8 tbUnit &&
  (slice sect 0x0C 4).all (· == 0) && (slice sect 0x110 240).all (· == 0) &&
  (cfg &&& 0xFF0080C0) == 0 && decide (1 ≤ bitsN cfg 0 6) && decide (bitsN cfg 0 6 ≤ 32) && decide (1 ≤ bitsN cfg 8 7) && decide (bitsN cfg 8 7 ≤ 64) &&
  decide (1 ≤ bitsN cfg 16 8) && decide (bitsN lc 0 19 ≤ 262176) && decide (2 ≤ bitsN lc 19 4) && decide (1 ≤ bitsN lc 23 4) &&
  roots.all (fun w => w / 32768 == 0) && decide ((en.map (fun w => w % 8192)).dedup.length = en.length) &&
  decide (bitsN cfg 8 7 + bitsN lc 27 5 * (bitsN cfg 0 6 + 3) ≤ laneb) &&
  (runUnits sect 8 1 4).all (fun u => decide (u.1 < 262144) && directOk (leNat u.2)) &&
  (runUnits sect 8 2 32).all (fun u => hashOk 0 u.2) && (runUnits sect 8 3 32).all (fun u => hashOk 1 u.2) &&
  (runUnits sect 8 4 32).all (fun u => decide (u.1 < 1048576) && (u.2.all (· == 0) || prefixOk u.2))

/-- The head of TB0: parameters and roots; a pair with TCM is placed in the TCAM (R315, R316). -/
def State.tbHead (s : State) (sect : Octets) : State :=
  let s := (s.wrN TB_CFG (leAt sect 0 4)).wrN TB_LRNCFG (leAt sect 4 4)
  (List.range 64).foldl (fun s k =>
    let w := leAt sect (0x10 + 4 * k) 4
    s.wrN (TB_ROOT k) (w % 32768 + (if w.testBit 13 && w.testBit 14 then 32768 else 0))) s

/-- Put the row of a prefix into the TCAM when its pair is placed there; a full TCAM drops the pair (R316). -/
def State.tcamAdd (s : State) (h : Nat) : State :=
  let e := s.pfx h
  match s.pairOf e with
  | some k =>
    if s.tcmOn k then
      match tcamInsert e h s.tab.tcam with
      | some (l, _) => { s with tab := { s.tab with tcam := l } }
      | none => s.tcamDrop k
    else s
  | none => s

/-- The rows of pairs that are not placed in the TCAM leave it (R315). -/
def State.tcamPairs (s : State) : State :=
  let on (r : TcamRow) := (s.rootIdx r.vrf r.af6).any s.tcmOn
  { s with tab := { s.tab with tcam := s.tab.tcam.filter on } }

/-- The TCAM rows of a handle follow the prefix list (R332, R333): rows that are not its prefix go, and a missing one is placed. -/
def State.tcamRebuild (s : State) (h : Nat) : State :=
  let e := s.pfx h
  let right (r : TcamRow) := pfValid e && pfBits e == r.pfx && pfLen e == r.len && pfVrf e == r.vrf && pfSix e == r.af6
  let s := { s with tab := { s.tab with tcam := s.tab.tcam.filter (fun r => r.handle != h || right r) } }
  if !pfValid e || s.tab.tcam.any (fun r => r.handle == h) then s else s.tcamAdd h

/-- Insert the entries of a run region in run order, with a tag; none when one is refused. -/
def State.insertAll (s : State) (t tag : Nat) (l : List Octets) : Option State :=
  l.foldl (fun a e => a.bind (fun s => s.hinsert t (hTag tag e))) (some s)

/-- Load TB0 as part of a raise: none when an insertion is refused or the node pool lacks units (R322; code 0x0E). -/
def State.tbLoad (s : State) (sect : Octets) : Option State :=
  let s := (s.memClear 0 tbPfx).memClear tbPfx (tbPfx + 32 * 2 ^ 20)
  let s := { s with tab := { s.tab with bank := 0, tcam := [], lpm := [], learn := [], age := 0, filters := [], learnDue := false, visits := 0, recs := [], repairs := [] } }
  let s := s.tbHead sect
  let s := (runUnits sect 8 1 4).foldl (fun s u => s.memW (directAddr false u.1) u.2) s
  ((s.insertAll 0 3 ((runUnits sect 8 2 32).map (·.2))).bind (fun s => s.insertAll 1 3 ((runUnits sect 8 3 32).map (·.2)))).bind (fun s =>
    let s := (runUnits sect 8 4 32).foldl (fun s u => s.memW (tbPfx + 32 * u.1) (if pfValid u.2 then hTag 3 u.2 else zeros 32)) s
    if poolUnits < s.trieUnits (s.handles.map s.pfx) then none
    else
      let s := (s.handles.foldl (fun s h => s.tcamAdd h) s).tcamShow
      some ((s.applyHeld).tabShow State.setFld))

/-- Stage the entries of one hash table (R116): an unchanged host entry stays, a replaced or deleted one becomes 0b01. -/
def State.stageHash (s : State) (t : Nat) (l : List Octets) : Option State :=
  let kept (e : Octets) := !hLearned e && l.any (fun x => hTag 0 x == hTag 0 e)
  let named (e : Octets) := l.any (fun x => hKey x == hKey e)
  let keep := ((s.hused t).map (s.hent t)).filter (fun e => hGen e == 3 && kept e)
  let s := (s.hused t).foldl (fun s i =>
    let e := s.hent t i
    if hGen e == 3 && !kept e && (!hLearned e || named e) then s.putHent t i (hTag 1 e) else s) s
  s.insertAll t 2 (l.filter (fun x => !keep.any (fun e => hKey e == hKey x)))

/-- The mortises whose direct tables a TB0 section names: those a run of region 1 writes into. -/
def tbNamed (sect : Octets) : List Nat :=
  (List.range 128).filter (fun m => (runRecs sect 8).any (fun r => r.region == 1 && decide (r.first < 2048 * (m + 1)) && decide (2048 * m < r.first + r.count)))

/-- The standby direct bank of one mortise starts from zero (R117). -/
def State.clearStandby (s : State) (m : Nat) : State :=
  let b := !s.tab.bank.testBit m
  s.memClear (directAddr b (2048 * m)) (directAddr b (2048 * (m + 1)))

/-- The tag of each TCAM row follows that of its prefix entry (R314, R116). -/
def State.tagRows (s : State) : State :=
  { s with tab := { s.tab with tcam := s.tab.tcam.map (fun (r : TcamRow) => { r with gen := hGen (s.pfx r.handle) }) } }

/-- Stage a delta's TB0 (R116 to R118, R322): the standby direct bank of each mortise it names, tagged hash and prefix entries; none for code 0x0E.
DESIGN CHOICE (log 25): a changed prefix at a handle in use is refused so too, as R282 has it for routes and cells. -/
def State.tbStage (s : State) (sect : Octets) : Option State :=
  let s := (tbNamed sect).foldl State.clearStandby s
  let s := (runUnits sect 8 1 4).foldl (fun s u => s.memW (directAddr (!s.tab.bank.testBit (u.1 / 2048)) u.1) u.2) s
  ((s.stageHash 0 ((runUnits sect 8 2 32).map (·.2))).bind (fun s => s.stageHash 1 ((runUnits sect 8 3 32).map (·.2)))).bind (fun s =>
    (s.stageRegion tbPfx (tbPfx + 32 * 2 ^ 20) 32 0 8 4 (fun _ _ => true) (fun _ _ => true) sect).bind (fun s =>
      let all := s.handles.map s.pfx
      if poolUnits < s.trieUnits (all.filter (fun e => (hGen e).testBit 0)) + s.trieUnits (all.filter (fun e => hGen e == 2)) then none
      else
        let roots := (List.range 64).map (fun k => leAt sect (0x10 + 4 * k) 4)
        let tcm (e : Octets) := roots.any (fun w => w.testBit 13 && w.testBit 14 && w % 4096 == pfVrf e && w.testBit 12 == pfSix e)
        let fresh := s.handles.filter (fun h => hGen (s.pfx h) == 2 && tcm (s.pfx h))
        some ((fresh.foldl (fun s h => match tcamInsert (s.pfx h) h s.tab.tcam with
          | some (l, _) => { s with tab := { s.tab with tcam := l } }
          | none => s) s).tagRows.tcamShow)))

/-- The switch of TB0 at G (R109, R116, R117): direct banks, parameters and roots; the TCAM holds the pairs the new roots place there. -/
def State.tbSwitch (s : State) (sect : Octets) : State :=
  let s := ({ s with tab := { s.tab with bank := (tbNamed sect).foldl (fun b m => putBit b m (!b.testBit m)) s.tab.bank } }.tbHead sect)
  let s := s.tcamPairs
  let live := s.handles.filter (fun h => (hGen (s.pfx h)).testBit 1)
  let inRows (s : State) (h : Nat) := s.tab.tcam.any (fun r => r.handle == h && r.pfx == pfBits (s.pfx h) && r.len == pfLen (s.pfx h))
  (live.foldl (fun s h => if inRows s h then s else s.tcamAdd h) s).tcamShow

/-- The purge of one hash table (R118). -/
def State.purgeHash (s : State) (t gone : Nat) : State :=
  let retag (s : State) (i : Nat) := let e := s.hent t i
    if hGen e == 3 - gone then s.putHent t i (hTag 3 e) else s
  let s := (s.hused t).foldl retag s
  (s.hused t).foldr (fun i s => let e := s.hent t i
    if hValid e && hGen e == gone then s.hdelete t i else s) s

/-- The purge of the tables (R118); the other way the standby banks are dropped. -/
def State.tbPurge (s : State) (forward : Bool) : State :=
  let gone := if forward then 1 else 2
  let s := ((s.purgeHash 0 gone).purgeHash 1 gone).purgeRegion tbPfx (tbPfx + 32 * 2 ^ 20) 32 0 gone
  let keep (r : TcamRow) := (s.rootIdx r.vrf r.af6).any s.tcmOn && (let e := s.pfx r.handle
      pfValid e && pfBits e == r.pfx && pfLen e == r.len && pfVrf e == r.vrf && pfSix e == r.af6)
  let s := { s with tab := { s.tab with tcam := (s.tab.tcam.filter keep).map (fun (r : TcamRow) => { r with gen := 3 }) } }
  let s := if forward then s else (List.range 128).foldl State.clearStandby s
  s.tcamShow.tabShow State.setFld

/-! ### The shadow area (R329) -/

/-- The start of the shadow area. -/
def State.shBase (s : State) : Nat := s.fld TB_PSBASE 0 12 * 2 ^ 20

/-- SHADOW_WRITE: four octets at ADDR, and ADDR moves on; ignored at or beyond 0x4EA0_0000. -/
def State.shadowWrite (val : Word) (s : State) : State :=
  let a := s.fld TB_SHWADDR 0 31 / 4 * 4
  if s.dieOn && decide (a < 0x4EA00000) then (s.memWN (s.shBase + a) 4 val.toNat).setFld TB_SHWADDR 0 31 (a + 4) else s

/-! ### The plumb scan (R330 to R334) -/

/-- Steps of a region per pass (R330). -/
def scanSteps (r : Nat) : Nat :=
  match r with
  | 0 => 524288 | 1 => 524320 | 2 => 8388640 | 3 => 1048576 | 4 => 8388608 | 5 => 16777216 | _ => 2097152

/-- Entry size of a region (R329). -/
def scanUnit (r : Nat) : Nat :=
  match r with
  | 0 => 4 | 4 => 64 | _ => 32

/-- Offset of a region in the shadow area (R329). -/
def shadowOff (r : Nat) : Nat :=
  match r with
  | 0 => 0 | 1 => 0x200000 | 2 => 0xA00000 | 3 => 0x8A00000 | 4 => 0xAA00000 | 5 => 0x2AA00000 | _ => 0x4AA00000

/-- The shadow entry of a region at an index. -/
def State.shadow (s : State) (r i : Nat) : Octets := s.memO (s.shBase + shadowOff r + scanUnit r * i) (scanUnit r)

/-- Octet of an entry that holds its generation tag. -/
def tagOct (r : Nat) : Nat := if r = 5 then 0x0B else 0

/-- Is an entry of a region valid? A direct entry and a cell always count. -/
def entPresent (r : Nat) (e : Octets) : Bool :=
  match r with
  | 0 => true
  | 5 => true
  | _ => (oct e 0).testBit 2

/-- Does a shadow entry count as present (R331)? One tagged 0b10 not until the delta that carries it is armed; one tagged 0b01 not from the
completion of the purge after a swap until the next delta is armed. -/
def State.shadowPresent (s : State) (r : Nat) (e : Octets) : Bool :=
  let g := oct e (tagOct r) % 4
  entPresent r e && (r == 0 || ((g != 2 || s.bit FR_STATUS 5 || s.bit FR_STATUS 6 || s.fr.kept10) && (g != 1 || !s.fr.gone01)))

/-- What a comparison looks at: not the tag, nor HIT, AGE, FLAP and LRNEP (R331). -/
def scanMask (r : Nat) (e : Octets) : Octets :=
  match r with
  | 0 => e
  | 1 => putOcts (putOcts e 0 [BitVec.ofNat 8 (oct e 0 &&& 0x0C), 0, 0]) 0x1C (zeros 4)
  | 2 => putOcts (putOcts e 0 [BitVec.ofNat 8 (oct e 0 &&& 0x0C), 0, 0]) 0x1C (zeros 4)
  | _ => withTag (tagOct r) 0 e

/-- A step of a hash region: a slot (true) or a handle (false), with its number (R330). -/
def hashStep (t i : Nat) : Bool × Nat := let n := hashSlots t + 32
  if i < n then (true, i) else (false, i - n)

/-- Does the TCAM lack the row of a prefix that it should hold (R315, R331)? -/
def State.rowMissing (s : State) (h : Nat) : Bool :=
  let e := s.pfx h
  pfValid e && s.tagOkT (hGen e) && (s.pairOf e).any s.tcmOn && !s.tab.tcam.any (fun r => r.handle == h && r.pfx == pfBits e && r.len == pfLen e)

/-- The valid host entry a table holds for a shadow entry, by its key. -/
def State.hashMate (s : State) (t : Nat) (sh : Octets) : Option Nat :=
  (hashPlaces t (hKey sh)).find? (fun p => let e := s.hent t p; hValid e && !hLearned e && hKey e == hKey sh && hHandle e == hHandle sh)

/-- The table entry and the shadow entry of a scan step, and whether they differ (R331). -/
def State.scanLook (s : State) (r i : Nat) : Octets × Octets × Bool :=
  let diff (e sh : Octets) : Bool :=
    if entPresent r e && s.shadowPresent r sh then scanMask r e != scanMask r sh else entPresent r e != s.shadowPresent r sh
  if r = 1 ∨ r = 2 then
    let t := r - 1
    match hashStep t i with
    | (true, p) =>
      let e := s.hent t p
      if !hValid e || hLearned e then (e, [], false)
      else
        let sh := s.shadow r (hHandle e)
        (e, sh, diff e sh)
    | (false, h) =>
      let sh := s.shadow r h
      match s.hashMate t sh with
      | some p => (s.hent t p, sh, false)
      | none => ([], sh, s.shadowPresent r sh && hHandle sh == h)
  else
    let e := match r with
      | 0 => s.memO (tbDirect + 4 * i) 4
      | 3 => s.pfx i
      | 4 => s.route i
      | 5 => s.cell i
      | _ => s.memO (gwDescs + 64 * (i % 1048576) + 32 * (i / 1048576)) 32
    let sh := s.shadow r i
    (e, sh, diff e sh || (r == 3 && s.rowMissing i))

/-- A scan repair is recorded (R332, R334): PSLAST and its F1, or the F2 of a repair that cannot be carried out. -/
def State.scanDone (s : State) (r i : Nat) (ok : Bool) : State :=
  let s := s.wrN TB_PSLAST (i % 2 ^ 24 + 2 ^ 24 * r + 2 ^ 27 * b2n (!ok))
  let src := if r ≤ 3 then 0x10 else 0x13
  if ok then ((s.inc (TB_CNT 10)).evt TB_EVENT 7).raiseFault 1 0x11 src 0xFF
  else (s.evt TB_EVENT 10).raiseFault 2 0x26 src 0xFF

/-- Write the shadow entry `sh` into the place of a scan step (R332): a missing hash entry is inserted, an extra one deleted; the row of a prefix is rebuilt, and the trie, which needs units of the node pool (R334). -/
def State.scanRepair (s : State) (r i : Nat) (sh : Octets) : State :=
  let present := s.shadowPresent r sh
  if r = 1 ∨ r = 2 then
    let t := r - 1
    match hashStep t i with
    | (true, p) =>
      let e := s.hent t p
      if present && hKey e == hKey sh then (s.putHent t p (hTag (hGen e) sh)).scanDone r i true
      else (s.hdelete t p).scanDone r i true
    | (false, _) =>
      if !present then s else
      match s.hinsert t (if hGen sh == 0 then hTag 3 sh else sh) with
      | some s' => s'.scanDone r i true
      | none => s.scanDone r i false
  else if r = 3 then
    let s' := (s.memW (tbPfx + 32 * i) (if present then hTag (max 1 (hGen sh)) sh else zeros 32)).tcamRebuild i
    if poolUnits < s'.trieUnits (s'.handles.map s'.pfx) then s.scanDone r i false else s'.scanDone r i true
  else
    let s' := match r with
      | 0 => s.memW (tbDirect + 4 * i) sh
      | 4 => s.memW (gwRoutes + 64 * i) (if present then sh else zeros 64)
      | 5 => s.memW (gwCells + 32 * i) sh
      | _ => s.memW (gwDescs + 64 * (i % 1048576) + 32 * (i / 1048576)) (if present then sh else zeros 32)
    s'.scanDone r i true

/-- The next enabled region at or after `r`, in ascending order, none above. -/
def State.scanRegion (s : State) (r : Nat) : Option Nat := ((List.range 7).filter (fun k => decide (r ≤ k))).find? (fun k => s.bit TB_PSCTRL (1 + k))

/-- Does the scan pause (R330, R332)? -/
def State.scanPaused (s : State) : Bool := s.bit FR_STATUS 6 || decide (16 ≤ s.tab.recs.length)

/-- Places the scan skips from START of a delta until it is armed or disarmed (R330): the standby banks of the mortises it names, the descriptor slots not in force. -/
def State.scanSkips (s : State) (r i : Nat) : Bool :=
  (s.fr.checking || s.fr.delta.isSome) && !s.bit FR_STATUS 5 &&
  (if r = 0 then
      let m := i % 262144 / 2048
      b2n (s.tab.bank.testBit m) != i / 262144 && s.fr.delta.any (fun d => (assoc d.sects 8).any (fun x => (tbNamed x).contains m))
   else if r = 6 then i / 1048576 != bitsN (s.pduFlags (i % 1048576)) 3 1 else false)

/-- The scan moves to its next place; the end of a pass is counted (R330). -/
def State.scanNext (s : State) (r i : Nat) : State :=
  if i + 1 < scanSteps r then s.wrN TB_PSPOS (i + 1)
  else
    let s := s.wrN TB_PSPOS 0
    match s.scanRegion (r + 1) with
    | some k => s.setFld TB_PSSTAT 0 3 k
    | none => ((s.setFld TB_PSSTAT 0 3 ((s.scanRegion 0).getD 0)).evt TB_EVENT 8).inc (TB_CNT 12)

/-- PEND of TB_PSSTAT. -/
def State.scanShow (s : State) : State := s.setFld TB_PSSTAT 4 5 s.tab.recs.length

/-- PLUMB_SCAN_STEP: one step of the scan (R330 to R333); `uncorr` when the place holds an uncorrectable error, which is repaired at once. -/
def State.plumbScanStep (t : Nat) (uncorr : Bool) (s : State) : State :=
  if !(s.dieOn && s.bit TB_PSCTRL 0) || s.scanPaused then s
  else match s.scanRegion (s.fld TB_PSSTAT 0 3), s.scanRegion 0 with
    | none, none => s
    | cur, first =>
      let s := s.tick t
      let r := (cur.orElse (fun _ => first)).getD 0
      let i := if r == s.fld TB_PSSTAT 0 3 then s.fld TB_PSPOS 0 24 else 0
      let s := s.setFld TB_PSSTAT 0 3 r
      let (e, sh, diff) := s.scanLook r i
      let s :=
        if s.scanSkips r i then s
        else if uncorr then
          if (r == 1 || r == 2) && hLearned e && hValid e then ((s.hdelete (r - 1) (hashStep (r - 1) i).2).inc (TB_CNT 7)).scanDone r i true
          else s.scanRepair r i sh
        else if diff && !s.tab.recs.any (fun x => x.region == r && x.idx == i) then
          { s with tab := { s.tab with recs := s.tab.recs ++ [{ region := r, idx := i, ent := e, shadow := sh, opened := s.now }] } }
        else s
      (s.scanNext r i).scanShow

/-- CONFIRM in ns: 10 to 10,000 ms, other values acting as the nearer limit. -/
def State.confirmNs (s : State) : Nat := 1000000 * max 10 (min 10000 (s.fld TB_PSCFG 0 14))

/-- PLUMB_CONFIRM: CONFIRM ms after pending record `k` opened, it closes; an unchanged difference is to be repaired (R332). -/
def State.plumbConfirm (t k : Nat) (s : State) : State :=
  match s.tab.recs[k]? with
  | none => s
  | some x =>
    let s := s.tick t
    if s.now < x.opened + s.confirmNs then s
    else
      let (e, sh, diff) := s.scanLook x.region x.idx
      let keep := diff && e == x.ent && sh == x.shadow
      let s := { s with tab := { s.tab with recs := s.tab.recs.eraseIdx k, repairs := if keep then s.tab.repairs ++ [x] else s.tab.repairs } }
      s.scanShow

/-- The repairs decided act before the first input of the epoch whose processing starts (R332). -/
def State.scanRepairs (s : State) : State :=
  let l := s.tab.repairs
  let s := { s with tab := { s.tab with repairs := [] } }
  l.foldl (fun s x => s.scanRepair x.region x.idx x.shadow) s

end Sys2Proof.Machine
end

