-- ==== Sys2Proof/Machine/Checks.lean ====
section
/-! DEFINITION. Machine/Checks.lean: what the loader checks inside the sections of mortise bents, of SB0's matrices and schedules, and of the bay
images of PB0 (R92, R136, R156, R160, R203, R205, R217, R224, R233, R240, R249, R254, R553), and the loading of the bay images. -/
namespace Sys2Proof.Machine
open Sys2Proof

/-- Are the octets `[off, off + n)` zero? -/
def zeroAt (l : Octets) (off n : Nat) : Bool := (slice l off n).all (· == 0)

/-! ### Mortise descriptors -/

/-- Kernel clocks per bit of a phase word whose TSEG1, TSEG2 fields are `w1`, `w2` bits wide. -/
def bitClocks (w w1 w2 : Nat) : Nat := (bitsN w 0 5 + 1) * (1 + (bitsN w 5 w1 + 1) + (bitsN w (5 + w1) w2 + 1))

/-- R156. The nominal phase within its limits, `kc` being the kernel clock in MHz. -/
def nominalOk (w kc : Nat) : Bool :=
  let c := bitClocks w 8 7
  decide (1 ≤ bitsN w 5 8) && decide (1 ≤ bitsN w 13 7) && decide (bitsN w 20 7 ≤ bitsN w 13 7) &&
  decide (80 ≤ c) && decide (kc ≤ c) && decide (c ≤ 100 * kc)

/-- R156. A data phase in use within its limits, `top` being its highest rate in Mb/s. -/
def dataOk (w nc kc tdc top : Nat) : Bool :=
  let c := bitClocks w 6 4
  decide (bitsN w 15 4 ≤ bitsN w 11 4) && decide (8 ≤ c) && decide (c ≤ nc) && decide (kc ≤ c * top) &&
  (!tdc.testBit 7 || decide (bitsN w 0 5 ≤ 1))

/-- The object words of a CAN descriptor. -/
def descObjs (d : Octets) : List Nat := (List.range 32).map (fun k => leAt d (0x60 + 4 * k) 4)

/-- R156, R160, R202, R203, R553. A CAN descriptor by itself. -/
def canDescOk (d : Octets) : Bool :=
  let cfg := leAt d 0x40 4
  let kc := if (oct d 1).testBit 0 then 160 else 80
  let bn := leAt d 0x44 4
  let bd := leAt d 0x48 4
  let bx := leAt d 0x4C 4
  let nc := bitClocks bn 8 7
  let pwm := leAt d 0x54 2
  let ded := (descObjs d).filter (fun o => o.testBit 30)
  cfg / 1024 == 0 && bitsN cfg 8 2 != 3 && zeroAt d 0x58 8 &&
  bn / 2 ^ 27 == 0 && bd / 2 ^ 19 == 0 && bx / 2 ^ 19 == 0 && !(oct d 0x51).testBit 7 && !(oct d 0x53).testBit 7 && (pwm &&& 0xC040) == 0 &&
  (List.range 4).all (fun k => leAt d (0xE4 + 8 * k) 4 / 2 ^ 29 == 0) &&
  nominalOk bn kc &&
  (!cfg.testBit 0 || dataOk bd nc kc (leAt d 0x50 2) 8) && (!cfg.testBit 1 || dataOk bx nc kc (leAt d 0x52 2) 20) &&
  (!pwm.testBit 7 || (bitsN pwm 0 6 + bitsN pwm 8 6 == bitClocks bx 6 4 && !cfg.testBit 7)) &&
  (descObjs d).all (fun o => o.testBit 30 || o == 0) &&
  decide ((ded.map (fun o => o % 2 ^ 30)).dedup.length = ded.length)

/-- R205, R553. A LIN descriptor by itself. -/
def linDescOk (d : Octets) : Bool :=
  let cfg := leAt d 0x40 4
  let div := leAt d 0x44 4
  let tmo := leAt d 0x48 4
  cfg / 256 == 0 && decide (bitsN cfg 1 4 ≤ 13) && decide (12000 ≤ div) && decide (div ≤ 240000) &&
  decide (4000 ≤ bitsN tmo 0 16) && decide (bitsN tmo 0 16 ≤ 10000) && decide (25 ≤ tmo / 65536) && decide (tmo / 65536 ≤ 500) &&
  zeroAt d 0x4C 4 && zeroAt d 0x80 128 && (slice d 0x60 32).all (fun b => b.toNat &&& 0x88 == 0)

/-- R224, R227, R233, R553. A T1S descriptor by itself; `int` for the integrated PHY. -/
def t1sDescOk (d : Octets) (int : Bool) : Bool :=
  let cfg := leAt d 0x40 4
  let plca := leAt d 0x44 4
  let phy := leAt d 0x48 4
  let ncnt := bitsN plca 8 8
  (cfg &&& 0xC00000FE) == 0 && decide (64 ≤ bitsN cfg 16 14) && decide (bitsN cfg 16 14 ≤ 1522) &&
  decide (1 ≤ ncnt) && decide (ncnt ≤ 32) && decide (bitsN plca 0 8 < ncnt) && decide (20 ≤ bitsN plca 16 8) && zeroAt d 0x4C 180 &&
  (if int then bitsN phy 0 4 < 3 && decide (10 ≤ bitsN phy 8 10) && decide (bitsN phy 8 10 ≤ 1000) && decide (1 ≤ bitsN phy 18 8) && phy / 2 ^ 26 == 0
   else phy == 0)

/-- The input pins of a tenon (R128). -/
def inputPins (t : Tenon) (errUse : Bool) : List Nat :=
  match t with
  | .can => if errUse then [1, 3] else [1]
  | .lin => [1]
  | .t1sExt => [1, 2]
  | _ => []

/-- R92, R135, R136, R553. One descriptor of a mortise bent section. -/
def mzDescOk (d : Octets) : Bool :=
  let t := tenonOf (oct d 0)
  let fl := oct d 1
  decide (oct d 0 ≤ 4) && decide (fl < 8) && decide (oct d 0x0F < 16) && decide (oct d 0x10 < 16) && decide (oct d 0x11 < 16) &&
  (oct d 0x12 &&& 0x09) == 0 && zeroAt d 0x13 45 &&
  (List.range 4).all (fun p => decide (pinCode d 0x0A p ≤ 4) && decide (pinCode d 0x0C p ≤ 4)) &&
  (t == .can || fl % 4 == 0) && (t == .t1sInt || zeroAt d 4 6) &&
  (inputPins t (fl.testBit 1)).all (fun p => decide (pinCode d 0x0A p ≤ 2)) &&
  (match t with
   | .idle => zeroAt d 0x40 192
   | .can => canDescOk d
   | .lin => linDescOk d
   | .t1sExt => t1sDescOk d false
   | .t1sInt => t1sDescOk d true)

/-- R92, R136. A mortise bent section: its bank head and its sixteen descriptors. DESIGN CHOICE (log 36): octets 0x01 to 0x3F of the bank head, of which
R92 says nothing, count as reserved, so they have to be zero. -/
def mbOk (sect : Octets) : Bool :=
  sect.length == 4160 && decide (oct sect 0 ≤ 2) && zeroAt sect 1 63 && (List.range 16).all (fun j => mzDescOk (mbDesc sect j))

/-! ### Matrices and schedules of SB0 -/

/-- The CAN matrix of a mortise, as its SB0 unit. -/
def sbMatrix (sb : Octets) (m : Nat) : Option Octets := runUnit sb 0 4 1064 m

/-- R194, R553. A matrix by itself. -/
def matrixOk (x : Octets) : Bool :=
  let cfg := leAt x 0 4
  let n := bitsN cfg 8 4 + 1
  let offs := (List.range n).map (fun c => leAt x (8 + 2 * c) 2)
  cfg / 2 ^ 23 == 0 && leAt x 4 4 / 65536 == 0 && (x.drop 40).all (fun b => !b.getLsbD 5) &&
  (cfg % 4 == 0 ||
    (decide (50 ≤ leAt x 4 2) && offs.head? == some 0 && (offs.zip offs.tail).all (fun p => decide (p.1 < p.2)) &&
     offs.all (fun o => decide (o < leAt x 4 2))))

/-- R203. What ties a CAN descriptor to its matrix: a matrix in use has a mode, and its exclusive cells name objects with TT. -/
def canFits (d : Octets) (mx : Option Octets) : Bool :=
  let x := mx.getD (List.replicate 1064 0)
  let cfg := leAt x 0 4
  let rows := bitsN cfg 2 6 + 1
  let cols := bitsN cfg 8 4 + 1
  (!(oct d 0x40).testBit 6 || cfg % 4 != 0) &&
  (cfg % 4 == 0 || (List.range rows).all (fun r => (List.range cols).all (fun c =>
    let b := oct x (40 + 16 * r + c)
    b / 64 != 1 || (leAt d (0x60 + 4 * (b % 32)) 4).testBit 31)))

/-- The entries of schedule table `t` up to its end (R216). -/
def schedTable (x : Octets) (t : Nat) : List Nat :=
  ((List.range 64).map (fun i => leAt x (4 * (64 * t + i)) 4)).takeWhile (fun w => bitsN w 8 3 != 0)

/-- R217, R553. The schedule of a LIN mortise against its descriptor. -/
def schedOk (d x : Octets) : Bool :=
  let len (f : Nat) := bitsN (leAt d (0x60 + 4 * (f / 8)) 4) (4 * (f % 8)) 3 + 1
  let frameMax (f : Nat) := cdiv (14 * (34 + 10 * (len f + 1)) * bitsN (leAt d 0x44 4) 0 18 * 25) 60
  (List.range 256).all (fun i => (leAt x (4 * i) 4 &&& 0xC8C0) == 0) &&
  (List.range 4).all (fun t => (schedTable x t).all (fun w =>
    let ty := bitsN w 8 3
    let f := bitsN w 0 6
    ty != 7 && decide (frameMax f ≤ w / 65536 * 100000) && (ty != 4 || f == 0x3C) && (ty != 5 || f == 0x3D) &&
    (ty != 2 || (let r := schedTable x (bitsN w 12 2)
                 !r.isEmpty && r.all (fun v => bitsN v 8 3 != 2)))))

/-- Do the matrices and schedules of SB0 suit the descriptors of the frame that results? `desc` gives a mortise's descriptor, if known. -/
def sbTenonsOk (sb : Octets) (desc : Nat → Option Octets) : Bool :=
  zeroAt sb 4 508 && (runUnits sb 0 4 1064).all (fun u => matrixOk u.2) &&
  (List.range 128).all (fun m =>
    match desc m with
    | none => true
    | some d =>
      match tenonOf (oct d 0) with
      | .can => canFits d (sbMatrix sb m)
      | .lin => schedOk d ((runUnit sb 0 5 1024 m).getD (List.replicate 1024 0))
      | _ => true)

/-! ### The bay images of PB0 (R254) -/

/-- The row of a bay register at a page offset. -/
def bayRow (o : Nat) : Option RegRow := rowsEB.find? (fun r => decide (r.base ≤ 0x180000 + o) && repHit (r.reps.drop 1) (0x180000 + o - r.base))

/-- The bits of a page word that an image may set: those of the fields that are written, but not of events. -/
def bayMask (o : Nat) : Nat :=
  match bayRow o with
  | some r => (r.fields.filter (fun f => f.acc == .rw || f.acc == .lk || f.acc == .w1s)).foldl (fun a f => putN a f.lo f.width (2 ^ f.width - 1)) 0
  | none => 0

/-- The image of bay `b`. -/
def bayImage (sect : Octets) (b : Nat) : Octets := slice sect (0x700 * b) 0x700

/-- R240. The interface modes a bay may run. -/
def ifmodeOk (b mode : Nat) : Bool := mode == 7 || (if b < 8 then mode == 0 || mode == 1 else mode == 2 || mode == 3)

/-- R240, R249, R254, R553. The bay images of a PB0 section, `role` being EP_TBCFG.ROLE; the parse graph behind them has no stated format. -/
def pbOk (sect : Octets) (role : Nat) : Bool :=
  decide (12 * 0x700 ≤ sect.length) &&
  (List.range 12).all (fun b =>
    let img := bayImage sect b
    (List.range 448).all (fun i => (leAt img (4 * i) 4 &&& (0xFFFFFFFF - bayMask (4 * i))) == 0) &&
    ifmodeOk b (oct img 4 % 8) && decide (bitsN (leAt img 4 4) 5 3 ≤ 5) && decide (1518 ≤ bitsN (leAt img 0x0C 4) 0 14) && decide (bitsN (leAt img 0x0C 4) 0 14 ≤ 9208) &&
    decide (bitsN (leAt img 0x20 4) 4 3 ≤ 3)) &&
  (role != 3 || decide (((List.range 12).filter (fun b =>
    let p := leAt (bayImage sect b) 0x20 4
    p.testBit 0 && bitsN p 1 2 == 2)).length ≤ 1))

/-- Load the image of one bay, whatever the page's lock bit (R254), which a 0 in the image does not clear (R14). -/
def State.loadBay (s : State) (sect : Octets) (b : Nat) : State :=
  let img := bayImage sect b
  ((List.range 448).filter (fun i => bayMask (4 * i) != 0)).foldl (fun s i =>
    s.wrN (0x180000 + 0x4000 * b + 4 * i) (if i == 1 then leAt img 4 4 ||| (s.rdN (EB_MACCFG b) &&& 0x80000000) else leAt img (4 * i) 4)) s

/-- Load PB0: the twelve bay images; the parse graph stands in the section itself. -/
def State.pbLoad (s : State) (sect : Octets) : State := (List.range 12).foldl (fun s b => s.loadBay sect b) s

end Sys2Proof.Machine
end

