-- ==== Sys2Proof/Machine/Frame.lean ====
section
/-! DEFINITION. Machine/Frame.lean: the frame image (R87 to R93, R98, R431, R470, R516, R553): header fields, bent records, the frame digest,
load checks 1 to 14, and what is checked while a section is read. -/
namespace Sys2Proof.Machine
open Sys2Proof

/-! ### Header and records (R88, R89) -/

/-- Flag `k` of FLAGS: 0 PAIRED, 1 ADVANCE, 2 DEBUGONLY. -/
def hFlag (h : Octets) (k : Nat) : Bool := (oct h 9).testBit k
/-- NREC. -/
def hNrec (h : Octets) : Nat := oct h 0x0B
/-- COUNTER. -/
def hCounter (h : Octets) : Nat := leAt h 0x0C 4
/-- IMGLEN. -/
def hImgLen (h : Octets) : Nat := leAt h 0x10 4
/-- FULLEP. -/
def hFullEp (h : Octets) : Nat := leAt h 0x14 4
/-- ELEN. -/
def hElen (h : Octets) : Nat := oct h 0xA0
/-- LANEB. -/
def hLaneb (h : Octets) : Nat := leAt h 0xA2 2
/-- EP_TBCFG.ROLE as the header gives it. -/
def hRole (h : Octets) : Nat := oct h 0xA5 % 4
/-- BASECOST. -/
def hBase (h : Octets) : Nat := leAt h 0xAE 2
/-- PKGBUDGET. -/
def hPkg (h : Octets) : Nat := leAt h 0xAC 2
/-- Is the image raised in stages (R97)? -/
def hStaged (h : Octets) : Bool := !hFlag h 0 && hFullEp h != 0
/-- The service block. -/
def serviceBlock (h : Octets) : Octets := slice h 0xA0 0x160

/-- BENT of a record. -/
def rCode (r : Octets) : Nat := oct r 0
/-- RFLAGS.EARLY. -/
def rEarly (r : Octets) : Bool := (oct r 1).testBit 0
/-- RFLAGS.EMPTY. -/
def rEmpty (r : Octets) : Bool := (oct r 1).testBit 1
/-- SECOFF. -/
def rOff (r : Octets) : Nat := leAt r 4 4
/-- SECLEN. -/
def rLen (r : Octets) : Nat := leAt r 8 4
/-- PEAKCOST; an empty bent has none. -/
def rPeak (r : Octets) : Nat := if rEmpty r then 0 else leAt r 0x0C 2
/-- ISTEP. -/
def rIstep (r : Octets) : Nat := leAt r 0x0E 2

/-- The record table of an image. -/
def imageRecs (img : Octets) : List Octets := (List.range (hNrec img)).map (fun k => slice img (0x200 + 64 * k) 64)

/-- The record of a bent, by its index. -/
def recOf (recs : List Octets) (i : Nat) : Option Octets := recs.find? (fun r => bentIdx (rCode r) == some i)

/-- The records in service once an image is, in bent code order: those of the image, else those in service. -/
def recsAfter (old new : List Octets) : List Octets := (List.range 13).filterMap (fun i => (recOf new i).or (recOf old i))

/-- The frame digest (R91). -/
def frameDigest (h : Octets) (recs : List Octets) : Octets := sha256 (serviceBlock h ++ recs.flatten)

/-- The section of a record within an image that is held whole. -/
def imageSect (img r : Octets) : Octets := slice img (rOff r) (rLen r)

/-! ### Check 1 (R93, R87, R553) -/

/-- Is a bent record well formed, inside an image of `len` octets? -/
def recOk (len : Nat) (r : Octets) : Bool :=
  (bentIdx (rCode r)).isSome && decide (oct r 1 < 4) && zeroAt r 2 2 && zeroAt r 0x10 16 &&
  (if rEmpty r then rOff r == 0 && rLen r == 0 else decide (rOff r + rLen r ≤ len))

/-- Are the records of a full image the thirteen bents in ascending order, and those of a delta distinct? -/
def recOrderOk (full : Bool) (recs : List Octets) : Bool :=
  if full then recs.map rCode == (List.range 13).map bentCode
  else decide (1 ≤ recs.length) && decide (recs.length ≤ 13) && decide ((recs.map rCode).dedup.length = recs.length)

/-- The service block of a full image: epoch length and budget, time base, twin, host and fault fields. -/
def serviceOk (h : Octets) : Bool :=
  decide (hElen h < 3) && oct h 0xA1 == 0 && decide (1 ≤ hLaneb h) && decide (hLaneb h ≤ 4000 * 2 ^ hElen h - 650) &&
  (leAt h 0xA4 4 &&& 0xFF008C00) == 0 && zeroAt h 0xB6 2 &&
  decide (oct h 0xB8 < 4) && zeroAt h 0xBC 4 &&
  (!hFlag h 0 || (oct h 0xB9 != 0 && decide (1 ≤ leAt h 0xBA 2) && decide (leAt h 0xBA 2 ≤ 110))) &&
  (List.range 4).all (fun k => decide (oct h (0xC0 + k) < 4) && (!(oct h (0xC0 + k)).testBit 0 || leAt h (0xC8 + 2 * k) 2 != 0)) &&
  decide (oct h 0xC4 < 4) && zeroAt h 0xC5 3 && zeroAt h 0xD0 16 &&
  decide (((List.range 4).map (fun k => leAt h (0xC8 + 2 * k) 2)).sum ≤ 625) &&
  leAt h 0xE0 2 != 0 && decide (oct h 0xE4 < 32) && zeroAt h 0xE6 26 && zeroAt h 0x100 256

/-- Check 1 for the header; `full` is the type the loader expects. -/
def headerOk (full : Bool) (h : Octets) : Bool :=
  decide (0x200 + 64 * hNrec h ≤ h.length) && slice h 0 4 == [0x52, 0x51, 0x46, 0x4D] && leAt h 4 2 == 1 && leAt h 6 2 == 0x200 &&
  oct h 8 == (if full then 1 else 2) && decide (oct h 9 < 8) && decide (oct h 0x0A < 4) && zeroAt h 0x18 8 &&
  (!full || (serviceOk h && zeroAt h 0x20 32)) && recOrderOk full (imageRecs h) &&
  (!full || !hStaged h || ((recOf (imageRecs h) PB0).any rEarly && (recOf (imageRecs h) SB0).any rEarly))

/-- A failed check: code, bent (0xFF: header) and mortise. -/
structure LoadErr where
  code : Nat
  bent : Nat := 0xFF
  mort : Nat := 0
  deriving DecidableEq, Repr

/-- Check 1. -/
def check1 (full : Bool) (h : Octets) : Option LoadErr :=
  if !headerOk full h then some { code := 1 }
  else ((imageRecs h).find? (fun r => !recOk (hImgLen h) r)).map (fun r => { code := 1, bent := rCode r })

/-! ### Checks 7 to 11 -/

/-- The grade's ceiling in power credits (R1, R93). -/
def gradeCeil (g : Grade) : Nat := if g == .q2 then 2100 else 1600

/-- Check 7, for the header in force and the records in service after the image. -/
def check7 (g : Grade) (h : Octets) (recs : List Octets) : Option LoadErr :=
  if gradeCeil g < hPkg h || hPkg h < hBase h + (recs.map rPeak).sum then some { code := 7 } else none

/-- Check 8 for one mortise on the integrated PHY; energies in nJ. -/
def phyOk (m : Nat) (d : Octets) : Bool :=
  let cst := leAt d 4 2
  let ilim := leAt d 6 2
  let td := leAt d 8 2
  let cmin := if oct d 0x48 % 4 == 0 then 4 else if oct d 0x48 % 4 == 1 then 16 else 26
  decide (112 ≤ m) && decide (cmin ≤ cst) && decide (cst ≤ 30) && decide (ilim ≤ 60) && decide (td ≤ 15) && decide (cst * 100 + ilim * 40 * td ≤ 40000)

/-- Check 8 for a mortise bent section. A TERM of 0x3 never reaches it: that is a format error (R233). -/
def check8 (k : Nat) (sect : Octets) : Option LoadErr :=
  let int (j : Nat) := tenonOf (oct (mbDesc sect j) 0) == .t1sInt
  (((List.range 16).find? (fun j => int j && oct (mbDesc sect j) 0x48 % 4 == 3)).map (fun j => { code := 1, bent := k, mort := 16 * k + j })) <|>
  ((List.range 16).find? (fun j => int j && !phyOk (16 * k + j) (mbDesc sect j))).map (fun j => { code := 8, bent := k, mort := 16 * k + j })

/-- Check 9: WAKE_OUT limits, energy in units of 0.1 V · 1 mA · 1 µs = 0.1 nJ. -/
def check9 (h : Octets) : Option LoadErr :=
  if 50 < leAt h 0xB0 2 || 2000000 < leAt h 0xB2 2 * leAt h 0xB0 2 * leAt h 0xB4 2 then some { code := 9 } else none

/-- Check 10: no ISTEP above 1,500 mA. -/
def check10 (recs : List Octets) : Option LoadErr :=
  (recs.find? (fun r => decide (1500 < rIstep r))).map (fun r => { code := 10, bent := rCode r })

/-- Check 11 for a mortise bent section: BANKV is the sensed class; an unpowered bank has idle tenons only. -/
def State.check11 (s : State) (k : Nat) (sect : Octets) : Option LoadErr :=
  if mbBankv sect != (nth s.banks k).sensed then some { code := 11, bent := k, mort := 16 * k }
  else if mbBankv sect == 2 then
    ((List.range 16).find? (fun j => tenonOf (oct (mbDesc sect j) 0) != .idle)).map (fun j => { code := 11, bent := k, mort := 16 * k + j })
  else none

/-- R110. A delta keeps BANKV while any mortise of the bank keeps a tenon. -/
def State.bankKept (s : State) (k : Nat) (sect : Octets) : Option LoadErr :=
  if s.bentUp k && mbBankv sect != (nth s.banks k).decl then
    ((List.range 16).find? (fun j => tenonOf (oct (s.mort (16 * k + j)).nextDesc 0) != .idle && tenonOf (oct (mbDesc sect j) 0) != .idle)).map
      (fun j => { code := 11, bent := k, mort := 16 * k + j })
  else none

/-- The mortise bent section of bent `k` in an image, where its record brings one. -/
def mortSect (img : Octets) (k : Nat) : Option Octets := ((recOf (imageRecs img) k).filter (fun r => !rEmpty r)).map (imageSect img)

/-- Checks 8 and 11 over the mortise bent sections of an image, in bent order. -/
def overMorts (img : Octets) (f : Nat → Octets → Option LoadErr) : Option LoadErr :=
  (List.range 8).findSome? (fun k => (mortSect img k).bind (f k))

/-! ### Checks 1 to 14 in order -/

/-- The image under check, as far as it is read: its header and records and the mortise bent sections that checks 8 and 11 look at; its signature; and
whether it is a delta. -/
structure Candidate where
  img : Octets
  sig : Octets
  delta : Bool := false

/-- Checks 2 to 6: authority (skipped in Blank, R94), signature (R90), rollback, lifecycle, grade. -/
def State.checkTrust (s : State) (x : Candidate) : Option LoadErr :=
  let h := x.img
  let pub := slice h 0x60 64
  let lc := s.ks.lc
  if lc != 0 && !s.ks.auth.contains (sha256 pub) then some { code := 2 }
  else if !ecdsaVerify pub (sha256 (h.take (0x200 + 64 * hNrec h))) x.sig then some { code := 3 }
  else if hCounter h < s.ks.cur.floor then some { code := 4 }
  else if lc == 4 || (hFlag h 2 && lc != 3) then some { code := 5 }
  else if !(oct h 0x0A).testBit (if s.grade == .q2 then 0 else 1) then some { code := 6 }
  else none

/-- Checks 1 to 13 in order; check 14 is the staging of a delta. A delta keeps the service block in force (R88). -/
def State.loadChecks (s : State) (x : Candidate) : Option LoadErr :=
  let h := if x.delta then s.fr.header else x.img
  let recs := if x.delta then recsAfter s.fr.recs (imageRecs x.img) else imageRecs x.img
  check1 (!x.delta) x.img <|> s.checkTrust x <|> check7 s.grade h recs <|> overMorts x.img check8 <|> check9 h <|>
  check10 (imageRecs x.img) <|> overMorts x.img (if x.delta then fun k sect => s.check11 k sect <|> s.bankKept k sect else s.check11) <|>
  (if x.delta && slice x.img 0x20 32 != frameDigest s.fr.header s.fr.recs then some { code := 12 } else none) <|>
  (if slice x.img 0x40 32 != frameDigest h recs then some { code := 13 } else none)

/-! ### Sections as they are read -/

/-- The descriptor of a mortise in the frame that results from `recs` and `sects`: idle where its bent is empty, none where its section is
not yet at hand. -/
def descOf (recs : List Octets) (sects : List (Nat × Octets)) (m : Nat) : Option Octets :=
  match recOf recs (m / 16) with
  | some r => if rEmpty r then some (List.replicate 256 0) else (assoc sects (m / 16)).map (fun x => mbDesc x (m % 16))
  | none => some (List.replicate 256 0)

/-- The tenon of a mortise in that frame; none where it is not yet known, which the later section settles. -/
def tenonIn (recs : List Octets) (sects : List (Nat × Octets)) (m : Nat) : Option Tenon := (descOf recs sects m).map (fun d => tenonOf (oct d 0))

/-- Does the gateway of a full image suit the mortises and profiles at hand (R281, R294)? -/
def State.gwFits (s : State) (h : Octets) (recs : List Octets) (sects : List (Nat × Octets)) (gb : Octets) : Bool :=
  ((s.kbLoad ((assoc sects KB0).getD [])).gwLoad gb).gwOk (tenonIn recs sects) (hLaneb h)

/-- A scratch machine with the bay images of the frame that results, over which SB0 is checked: bays whose images are not at hand count as off, until PB0
is read. -/
def State.scratch (s : State) (sects : List (Nat × Octets)) : State :=
  match assoc sects PB0 with
  | some p => s.pbLoad p
  | none => (List.range 12).foldl (fun s b => (s.setFld (EB_MACCFG b) 0 3 7).setFld (EB_RXCFG b) 0 14 0) s

/-- Does the section of bent `i` hold only what R553 and the chapters allow, with the sections at hand? `s` is the machine before the
image; `h` the header of the frame that results and `full` whether the image is a full one. -/
def State.sectOk (s : State) (h : Octets) (recs : List Octets) (sects : List (Nat × Octets)) (full : Bool) (i : Nat) (sect : Octets) : Bool :=
  if i < 8 then mbOk sect && (match assoc sects SB0 with
    | some sb => (List.range 16).all (fun j => match tenonOf (oct (mbDesc sect j) 0) with
        | .can => canFits (mbDesc sect j) (sbMatrix sb (16 * i + j))
        | .lin => schedOk (mbDesc sect j) ((runUnit sb 0 5 1024 (16 * i + j)).getD (List.replicate 1024 0))
        | _ => true)
    | none => true)
  else if i == TB0 then tbOk sect (hLaneb h)
  else if i == SB0 then (s.scratch sects).sbOk sect (fun m => (tenonIn recs sects m).getD .can == .can) && sbTenonsOk sect (descOf recs sects)
  else if i == KB0 then kbOk sect && (match assoc sects SB0 with
    | some sb => ((s.sbLoad sb).kbLoad sect).kbFits
    | none => true)
  else if i == GB0 then
    decide (0x200 ≤ sect.length) && runsOk sect 4 gwUnit && (if full then s.gwFits h recs sects sect else s.gwBodyOk sect)
  else pbOk sect (hRole h)

/-- Does a rule about the section of bent `j` look at that of bent `i`: SB0 at mortises and bays (R203, R217, R351, R366), KB0 at rates (R424), GB0 at
tenons and profiles (R281, R294)? -/
def looksAt (j i : Nat) : Bool :=
  (j == SB0 && (decide (i < 8) || i == PB0)) || (j == KB0 && i == SB0) || (j == GB0 && (decide (i < 8) || i == KB0))

/-- The first section whose fit with a frame's other sections fails, of those that `look` names. -/
def State.misfit (s : State) (h : Octets) (recs : List Octets) (sects : List (Nat × Octets)) (full : Bool) (look : Nat → Bool) : Option LoadErr :=
  ([SB0, KB0, GB0].find? (fun j => look j && (assoc sects j).any (fun x => !s.sectOk h recs sects full j x))).map
    (fun j => { code := 1, bent := bentCode j })

/-- Check 15 and R553 on one section as it is read (R93). Sections read before whose rules look at it are judged again; a full table section that its
table cannot hold is refused with code 0x0E. -/
def State.sectErr (s : State) (h : Octets) (recs : List Octets) (sects : List (Nat × Octets)) (i : Nat) (sect : Octets) (readErr : Bool) : Option LoadErr :=
  let code := bentCode i
  match recOf recs i with
  | none => some { code := 1, bent := code }
  | some r =>
    if readErr || sect.length != rLen r || sha256 sect != slice r 0x20 32 then some { code := 15, bent := code }
    else if !s.sectOk h recs sects true i sect then some { code := 1, bent := code }
    else (s.misfit h recs (assocPut sects i sect) true (fun j => looksAt j i)) <|>
      (if i == TB0 && (s.tbLoad sect).isNone then some { code := 14, bent := code } else none)

/-- FR_ERR for a failed check. -/
def LoadErr.word (e : LoadErr) : Nat := e.code + 256 * e.bent + 65536 * e.mort

end Sys2Proof.Machine
end

