-- ==== Sys2Proof/Machine/Service.lean ====
section
/-! DEFINITION. Machine/Service.lean: the frame die in and out of reset, the entry into Raise, Bench, service and Hold, and how bents enter
service (R27 to R34, R49, R82, R91, R97, R131, R467, R468, R557, R561). -/
namespace Sys2Proof.Machine
open Sys2Proof

/-! ### Registers over a reset (R14, R468, R561) -/

/-- Is the register a counter of a block that R561 lets only PORESET_N and the start of epoch 0 clear? Tenon areas are cleared with their
tenon (R144). -/
def epochCounter (a : Nat) : Bool :=
  let mz := (a - 0x100000) % 0x1000
  let eb := (a - 0x180000) % 0x4000
  (0x40050 ≤ a && decide (a < 0x40070)) || a == FR_DROP ||
  (0x100000 ≤ a && decide (a < 0x180000) && 0x20 ≤ mz && decide (mz < 0x40)) ||
  (0x180000 ≤ a && decide (a < 0x1B0000) && 0x40 ≤ eb && decide (eb < 0x74)) ||
  (0x200080 ≤ a && decide (a < 0x2000AC)) || (0x280080 ≤ a && decide (a < 0x2800B4)) || (0x300040 ≤ a && decide (a < 0x30006C)) ||
  (0x301000 ≤ a && decide (a < 0x324000) && (a - 0x301000) % 0x400 == 0xC) ||
  (0x380380 ≤ a && decide (a < 0x3803A0)) || (0x390040 ≤ a && decide (a < 0x39006C)) || (0x440030 ≤ a && decide (a < 0x440040)) ||
  (0x480080 ≤ a && decide (a < 0x480090))

/-- Registers a reset of the frame die keeps (R468, R561): the handlers and fault records, their counters, the twin counters, the block
counters, and the wake source the sill die holds. -/
def keptReg (a : Nat) : Bool :=
  a == FLT_STATUS || (0x30010 ≤ a && decide (a ≤ FLT_VIOL)) || a == SL_WKSRC || (0x400040 ≤ a && decide (a < 0x400060)) || epochCounter a

/-- Registers that hold a block's or a page's lock bit, at bit 31 (R14). -/
def lockRegs : List Nat :=
  [PW_CTRL, FLT_INTEN, EP_CTRL, FR_CTRL] ++ (List.range 128).map MZ_CTRL ++ (List.range 12).map EB_MACCFG ++
  [SG_CTRL, TB_CTRL, SC_CTRL, CP_CTRL, TW_CTRL, WK_CTRL, HB_CTRL]

/-- The registers after a reset of the frame die: the kept ones, and the lock bits, which only PORESET_N clears. -/
def State.dieRegs (s : State) : State :=
  let locks := lockRegs.filter (fun a => s.bit a 31)
  locks.foldl (fun s a => s.setBit a 31 true) { s with regs := s.regs.filter (fun r => keptReg r.1) }

/-- The start of epoch 0 clears the counters of every block (R561) and the declared energy. -/
def State.clearCounters (s : State) : State :=
  { s with regs := s.regs.filter (fun r => !epochCounter r.1), pw := { s.pw with energy := 0 } }

/-- Q1 parts differ in four reset values (R1): GL_ID, PW_BASE, PW_TRIP and PW_STATUS.Q1. -/
def State.gradeRegs (s : State) : State :=
  match s.grade with
  | .q2 => s
  | .q1 => (((s.wrN GL_ID 0x012802B0).wrN PW_BASE 0x06400000).wrN PW_TRIP 0x008C00B4).wrN PW_STATUS 4

/-! ### The frame die off and on -/

/-- FLT_STATUS.ACT bit `k` falls: the handler ends (R466). -/
def State.endHandler (s : State) (k : Nat) : State := s.setBit FLT_STATUS k false

/-- The F3 handler ends when the unit leaves Hold (R466). -/
def State.leaveHold (s : State) : State := if s.mode == .hold then s.endHandler 3 else s

/-- The twin unit after a reset of the frame die: what the sill die keeps (identity, generation, fence timer, forced states) and the
tell state stay. -/
def Twin.dieReset (w : Twin) : Twin := { pairId := w.pairId, gen := w.gen, fenced := w.fenced, fenceAt := w.fenceAt, tellSt := w.tellSt }

/-- The frame die enters reset or loses its supply: everything on it starts over; banks keep their supplies, pins go to `pins`. -/
def State.dieReset (s : State) (pins : PinCond) : State :=
  let s := s.leaveHold.dieRegs.gradeRegs
  { s with
    held := []
    tb := {}
    ep := {}
    fr := {}
    flt := { f2At := s.flt.f2At, f4 := s.flt.f4 }
    mz := s.mz.map (fun x => { ({} : Mortise) with desc := x.desc, latch := if pins == .psleep then x.desc else [], pins := pins })
    banks := s.banks.map (fun b => { b with decl := 2 })
    bays := List.replicate 12 {}
    gw := {}
    tab := {}
    sch := {}
    cp := {}
    tw := s.tw.dieReset
    wk := {}
    pw := {}
    hb := {}
    bus := {}
    sill := { s.sill with dieOn := false, egressClk := false } }

/-- The fault manager acts by R557 until an image has passed its checks. -/
def State.fltDefaults (s : State) : State :=
  { (s.setFld FLT_INTEN 8 5 0) with flt := { s.flt with f2hold := 1000, f1rate := 0, holdMB := 0, holdAt := none } }

/-! ### Leaving service -/


/-- The twin unit out of service: no lease, no step, no driving. -/
def Twin.endService (w : Twin) : Twin :=
  { w with
    lease := false, nopeer := false, holdDrive := false, driving := false, inStep := false,
    peerInStep := false, catchUp := 0, handAt := none, takeAt := none, coldHold := false, unagreed := [], joinAt := none,
    admitted := false, peerIn := false, exLead := false, found := false, demote := false, egressOff := false }

/-- Epochs end: events of epochs stamped and not processed show now, the lag is 0, no block is busy, and the F3 handler ends with Hold (R466). -/
def State.endEpochs (s : State) : State :=
  let s := (s.applyDue s.stampEp).setFld EP_CTRL 2 2 0
  let s := ((((s.wrN SG_STATUS 0).setBit TB_STATUS 0 false).setBit SC_STATUS 0 false).setBit CP_STATUS 0 false).setFld WK_STATUS 0 4 0
  s.leaveHold

/-- Service ends without a reset of the frame die: the ledgers go without count (R558), queues and blocks stop, tenons leave their pins idle,
a sleep in progress ends, the lease is given up. -/
def State.endService (s : State) : State :=
  let s := s.endEpochs
  { s with
    held := []
    ep := { lossEp := s.ep.lossEp }
    fr := { s.fr with
      bents := List.replicate 13 .absent, delta := none, checking := false, swapAt := none, switched := false, back := [], cfg := [],
      wroteT := false, wroteG := false, purgeT := .none, purgeG := .none, kept10 := false, gone01 := false }
    flt := { s.flt with holdAt := none, f2Iso := [] }
    mz := s.mz.map (fun x => { ({} : Mortise) with
      desc := x.desc, latch := x.latch, pins := if x.pins == .tenon then .pidle else x.pins, txinh := x.txinh, rxinh := x.rxinh })
    bays := s.bays.map Bay.restart
    gw := {}
    tab := {}
    sch := {}
    cp := {}
    wk := {}
    tw := s.tw.endService
    pw := { s.pw with divided := false } }

/-- The digest `d` in FR_DIG0 to FR_DIG7. -/
def State.putFrDig (s : State) (d : Octets) : State :=
  (List.range 8).foldl (fun s k => s.wrN (FR_DIG k) (leAt d (4 * k) 4)) s

/-- The unit enters Raise: no frame is in service, so FR_DIG and FR_COUNTER read zero (R91, R400), the time base is Unsynchronised (R41), and no peer is reached yet. -/
def State.enterRaise (s : State) (t : Nat) : State :=
  let s := s.endService.fltDefaults
  let s := ((s.setFld FR_STATUS 0 8 0).setBit EP_STATUS 5 false).wrN FR_ERR 0
  let s := (s.putFrDig (zeros 32)).wrN FR_COUNTER 0
  { s with
    mode := .raise
    tb := {}
    fr := { s.fr with header := [], recs := [], sects := [], hand := none, staged := false, full := false }
    tw := { s.tw with reached := false, matched := false, raiseAt := t, preason := 0, stale := false, found := false, demote := false, peerRole := 3, high := 0, low := 0, region := 0 } }

/-- Hold to Bench at the host's request (R30): epochs end and nothing drives, while the frame stays configured (R478, R557). -/
def State.holdToBench (s : State) : State :=
  let s := s.endEpochs
  { s with
    mode := .bench
    held := []
    ep := { lossEp := s.ep.lossEp }
    fr := { s.fr with delta := none, checking := false, swapAt := none, switched := false, wroteT := false, wroteG := false, hand := none }
    flt := { s.flt with holdAt := none }
    mz := s.mz.map (fun x => if x.pins == .tenon then { x with pins := .pidle } else x)
    wk := {}
    tw := s.tw.endService
    pw := { s.pw with divided := false } }

/-- The unit enters Bench from Raise: no frame is in service. -/
def State.enterBench (s : State) : State :=
  let s := s.endService
  { s with mode := .bench, fr := { s.fr with hand := none } }

/-- R529. The frame die leaves reset: the key store starts (R370), a reset by F4 is shown and its handler ends (R466, R468), an F3 handler
ends with Hold, and the device is in Raise. The blocks without a bent start along a ramp of 2 µs (R499). -/
def State.dieStart (s : State) (t : Nat) : State :=
  let f4 := s.flt.f4
  let s := if f4 then (s.setBit FLT_STATUS 5 true).endHandler 4 else s
  let s := { s with flt := { s.flt with f4 := false }, sill := { s.sill with dieOn := true, fails := 0, egressClk := !s.tw.fenced } }
  (s.enterRaise t).ksStart.onPw (fun p => { p with ramp := some (13, true, t + 2000) })

/-! ### Bents into service -/

/-- The blocks a full image configures start over: tables, gateway, meters, profiles and 802.1CB state (R82, R457). -/
def State.freshBlocks (s : State) : State :=
  let s := s.memClear 0 (0x990 * 2 ^ 20)
  { s with
    mz := s.mz.map (fun x => { ({} : Mortise) with desc := x.desc, latch := x.latch, pins := x.pins, txinh := x.txinh, rxinh := x.rxinh })
    fr := { s.fr with cfg := [] }
    bays := s.bays.map Bay.restart
    gw := {}
    tab := {}
    sch := {}
    cp := {} }

/-- Configure bent `i` from its section, before service or at FULLEP (R82, R93, R131); from here on its clocks may run. -/
def State.configBent (s : State) (x : Nat × Octets) : State :=
  let s := { s with fr := { s.fr with sects := assocPut s.fr.sects x.1 x.2, cfg := x.1 :: s.fr.cfg } }
  if x.1 < 8 then s.configMB x.1 x.2
  else if x.1 == TB0 then (s.tbLoad x.2).getD s
  else if x.1 == SB0 then s.sbLoad x.2
  else if x.1 == KB0 then s.kbLoad x.2
  else if x.1 == GB0 then s.gwLoad x.2
  else s.pbLoad x.2

/-- Configure the bents whose sections are given: PB0 first, then in bent code order. What one bent takes from another's section (the matrices and
schedules of SB0, R204) is there from the first. -/
def State.configBents (s : State) (l : List (Nat × Octets)) : State :=
  let s := { s with fr := { s.fr with sects := l.foldl (fun a x => assocPut a x.1 x.2) s.fr.sects } }
  let at_ (i : Nat) := (assoc l i).toList.map (fun x => (i, x))
  (at_ PB0 ++ (List.range 12).flatMap at_).foldl State.configBent s

/-- An empty mortise bent leaves its sixteen mortises running the idle tenon (R89). -/
def State.configEmpty (s : State) : State :=
  (s.fr.recs.filter (fun r => rEmpty r && decide (rCode r < 8))).foldl (fun s r =>
    (List.range 16).foldl (fun s j => s.configMort (16 * rCode r + j) (List.replicate 256 0)) s) s

/-- A configured bent enters service before the first input of its epoch `n` (R74, R131). -/
def State.bentIn (s : State) (n i : Nat) : State :=
  let s := s.setBent i .inService
  let s := s.onPw (fun p => { p with clk := p.clk.set i 2 })
  if i < 8 then s.enterMB n i else s

/-- Show the frame in service: its digest (R91) and, for a full image, its counter. -/
def State.showFrame (s : State) : State := s.putFrDig (frameDigest s.fr.header s.fr.recs)

/-- The units of R490 and R495 start with service: every enabled ring owes an ALIVE frame, the awake time counts from epoch 0. -/
def State.wakeStart (s : State) : State :=
  { s with wk := { rings := (List.range 32).map (fun r => { owe := s.bit (WK_RNG_CFG r) 7 }) } }

/-- The time of the raise up to `t` in units of 0.1 ms, sixteen bits (FR_TIME). -/
def raiseTime (t0 t : Nat) : Nat := min 0xFFFF ((t - t0) / 100000)

/-- Bents configured by now enter service (R49, R82): those not empty whose section is loaded; of a staged image the others await FULLEP. -/
def State.bentsIn (s : State) : State :=
  s.fr.recs.foldl (fun s r =>
    match bentIdx (rCode r) with
    | some i =>
      if rEmpty r then s
      else if (assoc s.fr.sects i).isSome then s.bentIn 0 i
      else if s.fr.staged then s.setBent i .awaiting
      else s
    | none => s) s

/-- Is every bent of the frame that has a section configured? -/
def State.allLoaded (s : State) : Bool :=
  s.fr.recs.all (fun r => rEmpty r || (bentIdx (rCode r)).any (fun i => (assoc s.fr.sects i).isSome))

/-- Full service is reached (R95, FR_EVENT.FULL): the floor advances where the image asks for it. -/
def State.fullService (s : State) : State :=
  let s := ((s.setFld FR_STATUS 0 4 4).evt FR_EVENT 0).onFr (fun f => { f with full := true })
  if hFlag s.fr.header 1 then s.advanceFloor (hCounter s.fr.header) else s

/-- Epoch 0 begins at `t` (R49, R54, R82, R561): the mode and the ledger lag are in force, counters are cleared, the configured bents enter
service from the frame defaults, and stamping starts. -/
def State.beginService (s : State) (md : Mode) (lag t : Nat) : State :=
  let s := s.clearCounters
  let whole := s.fld FLT_STATUS 3 2 == 0
  let stop := (t / s.elen + 1) * s.elen
  let loss := if whole then s.ep.lossEp else 0
  let s := { s with mode := md, ep := { cur := some 0, start := t, stop := stop, lag := lag, starts := [(0, t)], guar := whole, lossEp := loss } }
  let s := (s.setFld EP_CTRL 2 2 lag).showFrame.wrN FR_COUNTER (hCounter s.fr.header)
  let s := (s.memClear (0x983 * 2 ^ 20) (0x983 * 2 ^ 20 + 131072)).wakeStart
  let s := s.bentsIn
  let t0 := match s.fr.hand with
    | some h => h.startT
    | none => s.tw.raiseAt
  let s := s.setFld FR_TIME 0 16 (raiseTime t0 t)
  if s.fr.staged || !s.allLoaded then (s.setFld FR_STATUS 0 4 3).evt FR_EVENT 1 else s.fullService

/-- R97, R99. The late bents enter service at FULLEP: each whose section passed its check is loaded and enters; any other raises an F2
with cause 0x22 and LATEBENT, and stays isolated (R100). `i` is the bent and `x` its checked section. -/
def State.lateBent (s : State) (i : Nat) (x : Option Octets) : State :=
  match x with
  | some sect => ((if i < 8 then { s with fr := { s.fr with sects := assocPut s.fr.sects i sect } } else s.configBent (i, sect))).bentIn (hFullEp s.fr.header) i
  | none =>
    let s := (s.evt FR_EVENT 8).raiseFault 2 0x22 (bentCode i) 0xFF
    if s.bent i == .awaiting then s.isolateBent i else s

/-! ### Hold (R30, R34, R49, R467, R501) -/

/-- Inputs stamped before the present epoch and not yet released are dropped and counted in FLT_HDROP (R467); their ledgers close
empty. -/
def State.holdDrop (s : State) (n : Nat) : State :=
  let old := (s.ep.inputs ++ s.ep.handing).filter (fun i => decide (i.stamp < n))
  let s := s.inc FLT_HDROP old.length
  s.onEp (fun e => { e with
    inputs := e.inputs.filter (fun i => decide (n ≤ i.stamp))
    handing := e.handing.filter (fun i => decide (n ≤ i.stamp))
    fillsIn := []
    fillsOut := []
    peer := []
    peerGot := []
    closed := if n == 0 then e.closed else some (n - 1) })

/-- The unit enters Hold from service at the start of epoch `n`: the lag stays, only safety routes run, and only a unit that held the lease on
entry drives on (R34). -/
def State.holdFromService (s : State) (n : Nat) : State :=
  let drive := (s.mode == .lead || s.tw.coldHold) && s.tw.lease
  let s := s.holdDrop n
  let s := { s with
    mode := .hold
    flt := { s.flt with holdAt := none }
    tw := { s.tw with holdDrive := drive, inStep := false, peerInStep := false, catchUp := 0, handAt := none, joinAt := none, admitted := false, unagreed := [] }
    pw := { s.pw with divided := false } }
  let s := s.gwHold
  if drive then beginDriving s.now s else s.stopDriving

/-- The unit enters Hold from Raise, or from a catch-up that had no epoch yet: epoch 0 begins with Hold on what is configured (R49). -/
def State.holdFromRaise (s : State) (lag t : Nat) : State :=
  let s := { s with flt := { s.flt with holdAt := none }, pw := { s.pw with divided := false } }
  let s := (s.beginService .hold lag t).onFr (fun f => { f with hand := none, staged := false })
  s.gwHold

/-- May epoch 0 of a unit entering service begin at `t` (R49): a multiple of E while the time base is Locked, any instant while it is Unsynchronised?
DESIGN CHOICE (log 23): a unit in Holdover, which R49 leaves out, begins at any instant as well. -/
def State.mayBegin (s : State) (t : Nat) : Bool := s.tb.st != .locked || t % s.elen == 0

/-- R467. An F3 puts the unit in Hold from the start of the epoch after it; an F3 in Raise does at once (R30). -/
def State.holdEntry (t : Nat) (s : State) : State :=
  let s := s.tick t
  match s.flt.holdAt, s.mode, s.ep.cur with
  | some n, .solo, some c => if n ≤ c then s.holdFromService c else s
  | some n, .lead, some c => if n ≤ c then s.holdFromService c else s
  | some n, .shadow, some c => if n ≤ c then s.holdFromService c else s
  | some _, .shadow, none => if s.mayBegin t then s.holdFromRaise 3 t else s
  | some _, .raise, _ => if s.mayBegin t then s.holdFromRaise 1 t else s
  | _, _, _ => s

/-! ### Leases (R434, R435) -/

/-- The smallest generation above both whose bit 0 is the pair identity. -/
def newGen (own peer pid : Nat) : Nat :=
  let g := max own peer + 1
  (if g % 2 == pid % 2 then g else g + 1) % 2 ^ 32

/-- The unit takes the lease with a new generation, stored before it drives; forced states are lifted (R435, R447). `free`: without expiry. -/
def State.takeLease (s : State) (t : Nat) (free : Bool) : State :=
  let g := newGen s.tw.gen s.tw.pgen s.pid
  { s with
    tw := { s.tw with
      gen := g, lease := true, nopeer := free, expiry := if free then 0 else t + 200000, fenced := false, egressOff := false,
      exLead := false, stale := false, found := false, demote := false, fenceAt := none, peerIn := s.tw.peerIn && !free }
    sill := { s.sill with egressClk := true } }

end Sys2Proof.Machine
end

