-- ==== Sys2Proof/Machine/TimeBase.lean ====
section
/-! DEFINITION. Machine/TimeBase.lean: the vehicle time base and the gPTP messages that act on it (R38 to R46, R249, R551). -/
namespace Sys2Proof.Machine
open Sys2Proof

/-- EP_TBCFG.ROLE. -/
def State.tbRole (s : State) : Nat := s.fld EP_TBCFG 8 2

/-- R45. The first lock in service lengthens the epoch in progress to the first boundary at least E after the lock. -/
def State.realign (s : State) : State :=
  if s.ep.cur.isSome && !s.tb.firstLock then
    (s.onEp (fun e => { e with stop := cdiv (s.now + s.elen) s.elen * s.elen })).evt EP_EVENT 10
  else s

/-- The sync interval of the epoch domain in ns: logSyncInterval −7 to 0 (R40, EP_TBCFG.LOGSYNC). -/
def State.syncNs (s : State) : Nat := 7812500 * 2 ^ s.fld EP_TBCFG 12 3

/-- The part of the re-lock offset still to be slewed out: the full 200 ppm absorb 1 ns in 5,000 (R42, R43). -/
def State.slewLeft (s : State) : Int :=
  let d : Int := ((s.now - s.tb.slewAt) / 5000 : Nat)
  if 0 ≤ s.tb.slew then max 0 (s.tb.slew - d) else min 0 (s.tb.slew + d)

/-- Epoch-domain time as the time base has it: an offset being slewed out lies between the two (R42, R48). -/
def State.domainTime (s : State) : Int := s.now - s.slewLeft

/-- The slew up to the present instant is taken off the offset, whole nanoseconds at a time. -/
def State.slewOut (s : State) : State :=
  s.onTb (fun b => { b with slew := s.slewLeft, slewAt := s.now - (s.now - b.slewAt) % 5000 })

/-- The role of a bay's gPTP port (R249): 0 passive, 1 master, 2 slave, 3 disabled or no gPTP port. -/
def State.ptpRole (s : State) (b : Nat) : Nat :=
  if 12 ≤ b || !s.bit (EB_PTPCFG b) 0 then 3
  else match s.tbRole with
    | 2 => 1
    | 3 => s.fld (EB_PTPCFG b) 1 2
    | _ => if !s.tb.gm && s.tb.slvPort == b then 2 else 1

/-- A gPTP message of a type goes out on every master port that is asCapable, but for the bay it came from (R40, R249). -/
def State.ptpSend (s : State) (kind domain not_ : Nat) : State :=
  s.onTb (fun x => { x with
    out := x.out ++ ((List.range 12).filter (fun b => b != not_ && s.ptpRole b == 1 && x.asCapable.contains b)).map (fun b => (kind, b, domain)) })

/-- The grandmaster sends its Sync and Announce messages when their interval begins within `[a, b)` (R40). -/
def State.gmSend (s : State) (a b : Nat) : State :=
  if !s.tb.gm then s else
  let due := fun (n : Nat) => a / n != b / n
  let s := if due s.syncNs then s.ptpSend 0x0 (s.fld EP_TBCFG 0 8) 0xFF else s
  if due 1000000000 then s.ptpSend 0xB (s.fld EP_TBCFG 0 8) 0xFF else s

/-- The time base becomes Locked: for the first time since Raise, again after Holdover, or as grandmaster (R41, R45). -/
def State.lockTb (s : State) (gm : Bool) : State :=
  s.realign.onTb (fun b => { b with st := .locked, gm := gm, firstLock := true, good := 0, relock := false, lastSync := s.now })

/-- R551. EP_TBCFG has a new ROLE, `was` before: with static roles and this unit grandmaster it is Locked at once; a unit that was grandmaster for its
static role, or that may be none now, is none any more: out of service it is Unsynchronised, in service it counts its sync intervals from here. -/
def State.roleLoaded (s : State) (was : Nat) : State :=
  if s.tbRole == 2 then s.lockTb true
  else if !s.tb.gm || (s.tbRole == 1 && was == 1) then s
  else s.onTb (fun b => { b with
    gm := false, lastSync := s.now, good := 0, slvPort := 0xFF
    st := if s.ep.cur.isSome then b.st else .unsync
    firstLock := s.ep.cur.isSome && b.firstLock })

/-- R44. Entry into Lost is an F3. -/
def State.loseTb (s : State) : State :=
  ((s.onTb (fun b => { b with st := .lost, gm := false, relock := false })).evt EP_EVENT 1).raiseFault 3 0x32 0x20 0xFF

/-- May a Sync message on this bay steer the time base (R249): the slave port of static roles, else the port of the best master known, or any
gPTP port while none is known? -/
def State.slaveBay (s : State) (b : Nat) : Bool :=
  decide (b < 12) && s.bit (EB_PTPCFG b) 0 && match s.tbRole with
    | 2 => false
    | 3 => s.fld (EB_PTPCFG b) 1 2 == 2
    | _ => match s.tb.best with
      | some x => x.1 == b
      | none => true

/-- R42. While Locked the servo corrects at a rate of its own, at most 200 ppm: a free value. -/
def State.servoRate (s : State) : State :=
  let (x, s) := s.fresh 32
  s.onTb (fun b => { b with rate := (x % 400001 : Nat) - 200000 })

/-- A valid Sync message of the epoch domain on the slave port moves the servo, by `offset` ns (R41, R43). DESIGN CHOICE (log 23): the first valid Sync in
Holdover is the re-lock at which R43 judges the offset; the unit is Locked again with the fourth Sync in a row whose offset, but for the part being slewed
out, is below 100 ns. -/
def State.servo (s : State) (offset : Int) : State :=
  let n := if (offset - s.slewLeft).natAbs < 100 then s.tb.good + 1 else 0
  match s.tb.st with
  | .unsync => if 4 ≤ n then s.lockTb false else s.onTb (fun x => { x with good := n })
  | .locked => s.servoRate
  | .holdover =>
    if s.tb.relock then (if 4 ≤ n then s.lockTb false else s.onTb (fun x => { x with good := n }))
    else if offset.natAbs ≤ max 1 (s.fld EP_HOLD 16 16) * 1000 then
      (s.onTb (fun x => { x with relock := true, good := 1, slew := offset, slewAt := s.now })).evt EP_EVENT 2
    else s.loseTb
  | .lost => s

/-- R40, R41, R43. A Sync message on a gPTP port, with its offset in ns by the bay's own timestamps, which RXLAT corrects (R249). The relay passes it on in
both domains; that of the epoch domain moves the servo. DESIGN CHOICE (log 23): the second domain is the first other one heard. -/
def State.gptpSyncReceived (t b domain : Nat) (offset : Int) (s : State) : State :=
  let s := s.tick t
  if !s.dieOn || s.tbRole == 2 || s.ptpRole b == 3 then s
  else if domain != s.fld EP_TBCFG 0 8 then
    if s.tb.dom2.all (fun d => d == domain) then (s.onTb (fun x => { x with dom2 := some domain })).ptpSend 0x0 domain b else s
  else if s.tb.gm || !s.slaveBay b then s
  else
    let s := (s.onTb (fun x => { x with lastSync := s.now, slvPort := b })).ptpSend 0x0 domain b
    s.servo (offset - s.fld (EB_PTPLAT b) 0 16)

/-- R41. Three sync intervals on the slave port without a valid Sync: Holdover, which is no fault (R44); a re-lock under way is off. -/
def State.tbHoldover (t : Nat) (s : State) : State :=
  let s := s.tick t
  if !s.dieOn || s.tb.gm || t < s.tb.lastSync + 3 * s.syncNs then s
  else match s.tb.st with
    | .locked => (s.onTb (fun x => { x with st := .holdover, good := 0, relock := false, holdAt := t })).evt EP_EVENT 0
    | .holdover => s.onTb (fun x => { x with good := 0, relock := false })
    | _ => s.onTb (fun x => { x with good := 0 })

/-- R41, R44. Holdover longer than HOLDLIM: Lost. -/
def State.tbLost (t : Nat) (s : State) : State :=
  let s := s.tick t
  if s.dieOn && s.tb.st == .holdover && decide (s.tb.holdAt + max 10 (s.fld EP_HOLD 0 16) * 1000000 < t) then s.loseTb else s

/-- Does one best-master vector win over another: is it lower in its first differing element (IEEE 802.1AS)? -/
def betterClock : List Nat → List Nat → Bool
  | [], [] => false
  | [], _ :: _ => true
  | _ :: _, [] => false
  | x :: xs, y :: ys => decide (x < y) || (x == y && betterClock xs ys)

/-- This unit's own vector: priority1, then the elements the spec leaves to IEEE 802.1AS. -/
def State.ownVec (s : State) : List Nat := s.fld EP_TBCFG 16 8 :: Config.ownClock

/-- R551. announceReceiptTimeout expires without a better Announce: a grandmaster-capable unit is selected and Locked, and announces itself. The timer
runs from the first asCapable port. -/
def State.announceTimeout (t : Nat) (s : State) : State :=
  let s := s.tick t
  match s.tb.annBy with
  | none => s
  | some x =>
    if !s.dieOn || t < x then s else
    let s := s.onTb (fun x => { x with best := none, annBy := none })
    if s.tbRole == 1 && !s.tb.gm && s.tb.st != .lost then
      ((s.lockTb true).onTb (fun x => { x with slvPort := 0xFF })).ptpSend 0xB (s.fld EP_TBCFG 0 8) 0xFF
    else s

/-- R551. An Announce message of the epoch domain: the best master clock algorithm follows a clock better than its own and than the best
known, or a new vector of the port followed so far; the relay announces it on its master ports. -/
def State.announceReceived (t b domain : Nat) (vec : List Nat) (s : State) : State :=
  let s := s.tick t
  if !s.dieOn || 12 ≤ b || !s.bit (EB_PTPCFG b) 0 || domain != s.fld EP_TBCFG 0 8 || 2 ≤ s.tbRole then s else
  let wins := (s.tbRole == 0 || betterClock vec s.ownVec) && s.tb.best.all (fun x => x.1 == b || betterClock vec x.2)
  if wins then
    (s.onTb (fun x => { x with
      best := some (b, vec), annBy := some (t + 3000000000), gm := false, slvPort := b, lastSync := if x.gm then s.now else x.lastSync })).ptpSend 0xB domain b
  else if s.tb.best.any (fun x => x.1 == b) then s.onTb (fun x => { x with best := none, slvPort := 0xFF })
  else s

/-- The mean link delay by the bay's timestamps once RXLAT and TXLAT have corrected them (R249): half of either path is the bay's own. -/
def State.linkDelay (s : State) (b delay : Nat) : Nat := delay - (s.fld (EB_PTPLAT b) 0 16 + s.fld (EB_PTPLAT b) 16 16) / 2

/-- R249. A peer delay measurement on a gPTP port, `delay` ns by the bay's own timestamps: the mean link delay and asCapable; the announce receipt timer
runs from the first asCapable port. A port whose static role is disabled measures nothing. -/
def State.pdelayExchange (t b delay : Nat) (s : State) : State :=
  let s := s.tick t
  if !s.dieOn || s.ptpRole b == 3 then s else
  let d := s.linkDelay b delay
  let ok := decide (d ≤ s.fld (EB_PTPCFG b) 16 16)
  let s := (s.wrN (EB_PTPDLY b) d).setBit (EB_STATUS b) 19 ok
  s.onTb (fun x => { x with
    asCapable := if ok then (if x.asCapable.contains b then x.asCapable else x.asCapable ++ [b]) else x.asCapable.filter (· != b)
    annBy := if ok && x.annBy.isNone && x.best.isNone && !x.gm then some (t + 3000000000) else x.annBy
    out := x.out ++ [(0x2, b, 0)] })

end Sys2Proof.Machine
end

