-- ==== Sys2Proof/Machine/Faults.lean ====
section
/-! DEFINITION. Machine/Faults.lean: the ends of fault handlers and the faults that arise outside processing (R463 to R471, R501, R531, R536,
R397). -/
namespace Sys2Proof.Machine
open Sys2Proof

/-- R463, R466. FLT_ACK clears the pending bits of the classes named and ends their handlers, F3 and F4 apart. -/
def State.faultAck (ack : Nat) (s : State) : State :=
  let s := (List.range 5).foldl (fun s k =>
    if ack.testBit k then
      let s := s.setBit FLT_STATUS (6 + k) false
      if k ≤ 2 then s.endHandler k else s
    else s) s
  if ack.testBit 2 then { s with flt := { s.flt with f2Iso := [] } } else s

/-- R464. SFCLR clears the second-fault record and SFCNT. -/
def State.secondFaultClear (s : State) : State :=
  (((((s.wrN FLT_SF_W0 0).wrN FLT_SF_W1 0).wrN FLT_SF_W2 0).wrN FLT_SF_W3 0)).setFld FLT_STATUS 16 16 0

/-- R466. An F2 handler ends F2HOLD ms after its fault. -/
def State.f2HandlerTimeout (t : Nat) (s : State) : State :=
  let s := s.tick t
  if s.bit FLT_STATUS 2 && s.flt.f2At + s.flt.f2hold * 1000000 ≤ t then { (s.endHandler 2) with flt := { s.flt with f2Iso := [] } } else s

/-- R469. One more correctable error of bent `i`: above F1RATE within a second it is an F2, and the count starts again. -/
def State.countError (s : State) (i : Nat) : State :=
  if s.flt.f1rate == 0 || s.bent i == .isolated then s else
  let errs := (s.flt.errs.filter (fun e => decide (s.now < e.2 + 1000000000))) ++ [(i, s.now)]
  if s.flt.f1rate < (errs.filter (fun e => e.1 == i)).length then
    { s with flt := { s.flt with errs := errs.filter (fun e => e.1 != i) } }.raiseFault 2 0x27 (bentCode i) 0xFF
  else { s with flt := { s.flt with errs := errs } }

/-- R469, R471. A memory error outside a table lookup, in a bent named by its code or outside any bent. -/
def State.memoryErrorDetected (t bent : Nat) (uncorr : Bool) (s : State) : State :=
  let s := s.tick t
  if !s.dieOn then s else
  match bentIdx bent, uncorr with
  | some _, true => s.raiseFault 2 0x20 bent 0xFF
  | none, true => s.raiseFault 3 0x31 0xFF 0xFF
  | some i, false => (s.raiseFault 1 0x10 bent 0xFF).countError i
  | none, false => s.raiseFault 1 0x10 0xFF 0xFF

/-- R471. A fault in the epoch engine or the fault manager. -/
def State.epochEngineFault (t : Nat) (s : State) : State :=
  let s := s.tick t
  if s.dieOn then s.raiseFault 4 0x40 0x20 0xFF else s

/-- R536. The SYSCLK reference has stopped for 5 µs. -/
def State.refclkFailure (t : Nat) (s : State) : State :=
  let s := s.tick t
  if s.dieOn then s.raiseFault 4 0x42 0xFF 0xFF else s

/-- R468. An F4 resets the frame die; its fault records stay, pins are high-impedance, and raising follows. -/
def State.frameDieReset (t : Nat) (s : State) : State :=
  let s := s.tick t
  if s.dieOn && s.flt.f4 then { (s.dieReset .highZ) with mode := .raise } else s

/-- The trip current in force, in units of 0.1 A: a value above the grade's acts as the grade's (PW_TRIP). -/
def State.tripCurrent (s : State) : Nat := min (s.fld PW_TRIP 0 9) (if s.grade == .q2 then 0xF0 else 0xB4)

/-- The trip temperature in force, in °C: 100 up to the grade's (PW_TRIP). -/
def State.tripTemp (s : State) : Nat := max 100 (min (s.fld PW_TRIP 16 8) (if s.grade == .q2 then 0x87 else 0x8C))

/-- The king post's measurements at `t` (R501): PW_SENSE shows them, and one at 90 % of its threshold or more is remembered. -/
def State.sense (s : State) (t current temp : Nat) : State :=
  let s := s.wrN PW_SENSE (min 511 current + 65536 * min 255 (temp + 64))
  if decide (10 * current < 9 * s.tripCurrent) && decide (10 * temp < 9 * s.tripTemp) then s else s.onPw (fun p => { p with highAt := t })

/-- R501. A measurement that exceeded a threshold for its time: TRIP, an F3, and the bent clocks divided until Hold. -/
def State.powerTrip (t current temp : Nat) (s : State) : State :=
  let s := s.tick t
  if !s.dieOn then s else
  let s := s.sense t current temp
  if s.bit PW_STATUS 0 || !(s.tripCurrent < current || s.tripTemp < temp) then s else
  let s := ((s.setBit PW_STATUS 0 true).evt PW_EVENT 0).onPw (fun p => { p with divided := true })
  s.raiseFault 3 0x30 0x22 0xFF

/-- R501. Both measurements below 90 % of their thresholds for 10 ms without a break clear the trip. -/
def State.tripClear (t current temp : Nat) (s : State) : State :=
  let s := s.tick t
  if !s.dieOn then s else
  let s := s.sense t current temp
  if s.bit PW_STATUS 0 && decide (s.pw.highAt + 10000000 ≤ t) then (s.setBit PW_STATUS 0 false).evt PW_EVENT 1 else s

/-- R397. A tamper source held for its filter: the sill die erases; the frame die, when it runs, zeroises and answers by its mode; when it does
not, the event is counted at the next start and may wake the device. -/
def State.tamperDetected (t src : Nat) (s : State) : State :=
  let s := s.tick t
  if 6 ≤ src || !s.sill.vsill || !(nth s.ks.cur.tamp src).testBit 0 then s else
  let wake := (nth s.ks.cur.tamp src).testBit 2
  let s := s.tamperErase t src
  if !s.dieOn then
    let s := s.onKs (fun k => { k with tamperPend := k.tamperPend + 1 })
    if wake && (s.mode == .sill || s.mode == .watch) then s.onSill (fun x => { x with latched := x.latched ++ [{ src := 5, idx := src, at_ := t }] }) else s
  else
    let s := s.tamperClear
    match s.mode with
    | .bench => s.notice 0x09 0x23
    | .raise => (s.onFr (fun f => { f with hand := none })).raiseFault 3 0x34 0x23 0xFF
    | _ => s.raiseFault 3 0x34 0x23 0xFF

end Sys2Proof.Machine
end

