-- ==== Sys2Proof/Machine/Twin.lean ====
section
/-! DEFINITION. Machine/Twin.lean: pairing, leases, heartbeats on two paths, takeover, fence, resync and the 802.1CB state (R430 to R462). -/

namespace Sys2Proof

/-- The state of the Lead as a resync copies it, in the order in which regions commit: the commands of this unit do not carry the octets a
peer sends, so what they hold is left open. -/
opaque Config.leadState : Nat → Machine.State

namespace Machine

/-- The twin parameters of the header in hand or in service (R431). -/
def State.twinCfg (s : State) : Octets := slice s.fr.header 0xB8 8
/-- TELLEN. -/
def State.tellEn (s : State) : Bool := (oct s.twinCfg 0).testBit 0
/-- COLDTAKE. -/
def State.coldTake (s : State) : Bool := (oct s.twinCfg 0).testBit 1
/-- Is the frame in hand or in service one with PAIRED set? -/
def State.pairedFrame (s : State) : Bool := !s.fr.header.isEmpty && hFlag s.fr.header 0

/-- Are all sections of the frame in hand configured, so that raising can end (R101)? -/
def State.imageReady (s : State) : Bool :=
  !s.fr.recs.isEmpty && s.allLoaded

/-- TW_EVENT bit `k`. -/
def State.twEvt (s : State) (k : Nat) : State := s.evt TW_EVENT k

/-! ### Pairing (R430 to R433, R439) -/

/-- The first pairing check that fails, as PREASON; 0 when all pass (R432). -/
def State.pairCheck (s : State) (r : PairRec) : Nat :=
  if r.pid == s.pid then 1
  else if r.elen != s.fld EP_CTRL 0 2 then 2
  else if r.digest != frameDigest s.fr.header s.fr.recs then 3
  else if r.keys != s.keyVector then 4
  else 0

/-- A unit that pairs as Shadow leaves Raise for Shadow, out of step, its bents in service and no epoch numbered yet (R49, R30). -/
def State.enterShadow (s : State) (t : Nat) : State :=
  let s := s.beginService .shadow 3 t
  ({ s with ep := {}, fr := { s.fr with hand := none } }).setFld EP_CTRL 2 2 0

/-- R432. Pairing records are exchanged; every check has to pass. A unit that becomes Shadow enters it once its bents are configured; one found stale
in a Hold it entered for want of the peer pairs as well, and is Shadow from the next epoch boundary (R29, R30). Exchanges lie 10 ms apart. -/
def State.pairingExchange (t : Nat) (r : PairRec) (s : State) : State :=
  let s := s.tick t
  let late := s.mode == .hold && s.tw.coldHold && s.tw.found
  let soon := s.tw.pairAt.any (fun a => decide (s.tw.raiseAt ≤ a) && decide (t < a + 10000000))
  if !(s.mode == .raise || late) || !s.dieOn || !s.pairedFrame || s.tb.st != .locked || soon then s else
  let s := s.onTw (fun w => { w with pairAt := some t, reached := true, pgen := r.gen, peerRole := if r.inService then 0 else 3 })
  let k := s.pairCheck r
  let s := s.onTw (fun w => { w with preason := k, matched := k == 0 })
  if k != 0 then
    let s := s.twEvt 7
    if k == 4 then (s.setBit KS_STATUS 10 true).evt KS_EVENT 11 else s
  else
    let s := s.setBit KS_STATUS 10 false
    if late then s.onTw (fun w => { w with demote := true })
    else if (r.inService || s.pid == 1) && s.imageReady && !s.tw.lease then s.enterShadow t else s

/-- R433. The peer is not reached in time: PREASON 0x5, the generation counts as stale, and the unit enters Hold, at the next multiple of E
when its time base is Locked. -/
def State.pairwaitExpiry (t : Nat) (s : State) : State :=
  let s := s.tick t
  if s.mode != .raise || !s.dieOn || !s.pairedFrame || s.tw.reached || s.tw.lease || t < s.tw.raiseAt + oct s.twinCfg 1 * 10000000 then s else
  let s := s.onTw (fun w => { w with preason := 5, stale := true })
  let s := if s.mayBegin t then s.holdFromRaise 1 t else { s with flt := { s.flt with holdAt := some 0 } }
  s.onTw (fun w => { w with coldHold := true, egressOff := true })

/-- R439. A lease override: only in Raise with PAIRED set and the peer not reached; the unit takes the lease without a peer. -/
def State.leaseOverride (t key : Nat) (s : State) : State :=
  let s := s.tick t
  if key % 256 == 0xA5 && s.mode == .raise && s.dieOn && s.pairedFrame && !s.tw.reached && !s.tw.lease then s.takeLease t true else s

/-! ### Hand-over (R440) -/

/-- R440. A hand-over command processed in epoch `c` on a Lead with a Shadow in step, or on that Shadow: hand-over at c + 16. -/
def State.handoverCommand (c : Nat) (s : State) : State :=
  if (s.mode == .lead && s.tw.peerInStep && s.tw.lease) || (s.mode == .shadow && s.tw.inStep) then s.onTw (fun w => { w with handAt := some (c + 16) }) else s

/-- A unit without the right to drive releases the pins of a mortise whose transmission has ended (R440). -/
def State.letGo (s : State) (m : Nat) : State :=
  if (!(s.mayDrive && s.tw.driving) || s.wk.quiesce) && !s.txBusy m then s.onMort m Mortise.idlePins else s

/-- R440. At epoch X the Shadow in step becomes Lead with a new generation and takes its pins; the old Lead becomes Shadow in step and
releases each pin group when the transmission in progress on it ends. -/
def State.handoverEffect (n : Nat) (s : State) : State :=
  if s.tw.handAt != some n || !s.ep.cur.any (fun c => n ≤ c) then s else
  let s := s.onTw (fun w => { w with handAt := none })
  if s.mode == .lead then
    let s := ({ s with mode := .shadow }.onTw (fun w => { w with
      lease := false, nopeer := false, fenceAt := none, driving := false, inStep := true, peerInStep := false, expiry := s.ep.start + 200000 })).twEvt 11
    (List.range 128).foldl (fun s m => s.letGo m) (s.inc (TW_CNT 5))
  else if s.mode == .shadow && s.tw.inStep then
    let s := ({ s with mode := .lead }.takeLease s.ep.start false).onTw (fun w => { w with inStep := false, peerInStep := true, peerIn := true, unagreed := [] })
    beginDriving s.now ((s.twEvt 11).inc (TW_CNT 5))
  else s

/-! ### Heartbeats (R436 to R438, R441 to R444, R449) -/

/-- The role code of a heartbeat. -/
def State.roleCode (s : State) : Nat :=
  match s.mode with
  | .lead => 0
  | .shadow => if s.tw.inStep then 1 else 2
  | .hold => 4
  | .bench => 5
  | _ => 3

/-- Does the unit renew its lease at this heartbeat instant (R436, R437, R451)? -/
def State.renews (s : State) : Bool := s.mode == .lead && s.tw.lease && (!s.tw.nopeer || s.tw.peerIn)

/-- A renewal by a Lead without a peer that now has one: the lease has an expiry from here on (R437). -/
def State.renewFrom (s : State) (t : Nat) : State :=
  if s.renews then s.onTw (fun w => { w with renew := t, expiry := if w.nopeer then t + 200000 else w.expiry, nopeer := false }) else s

/-- R441. The scarf heartbeat of a heartbeat instant, a multiple of 25 µs. -/
def State.heartbeatSend (t : Nat) (s : State) : State :=
  let s := s.tick t
  if !s.dieOn || !s.pairedFrame || t % 25000 != 0 then s else
  let renew := s.renews
  let s := s.renewFrom t
  s.onTw (fun w => { w with hbOut := some {
    pid := s.pid, role := s.roleCode, renew := renew, ackv := w.ackDue.isSome, fenced := w.fenced, gen := w.gen, txt := t,
    ack := w.ackDue.getD 0, rxt := w.hbGot, epoch := (s.epochNow.map (· % 2 ^ 48)).getD (Config.noEpoch t).toNat } })

/-- A renewal stamped `stamp` reaches the Shadow: its view of the expiry moves on, and an unagreed epoch matched before it is decided for the
Lead, so the Shadow leaves step from the first unagreed epoch (R436, R449). -/
def State.renewalGot (s : State) (stamp : Nat) : State :=
  if s.mode != .shadow then s else
  let s := s.onTw (fun w => { w with expiry := max w.expiry (stamp + 200000) })
  match s.tw.unagreed.find? (fun u => decide (u.2 < stamp)) with
  | some u => (s.leaveGuar u.1).onTw (fun w => { w with unagreed := [] })
  | none => s

/-- An acknowledgement of the renewal stamped `stamp` reaches the Lead: the lease runs on and the fence timer is armed (R436, R447). -/
def State.ackGot (s : State) (stamp : Nat) : State :=
  if s.mode != .lead || !s.tw.lease || s.tw.nopeer || s.tw.renew < stamp then s else
  s.onTw (fun w => { w with expiry := max w.expiry (stamp + 200000), fenceAt := some (max w.expiry (stamp + 200000)) })

/-- R438. A heartbeat with a higher generation reaches a unit that took a lease or waited for the peer: it is stale and stops all egress at once; a Lead
is Shadow out of step from the next epoch boundary (R29), a unit in Hold once its pairing checks pass (R30). -/
def State.staleGot (s : State) (gen : Nat) : State :=
  if gen ≤ s.tw.gen || s.tw.found || !(s.tw.lease || s.tw.exLead || (s.mode == .hold && s.tw.coldHold)) then s else
  let lead := s.mode == .lead || s.mode == .shadow
  let s := s.onTw (fun w => { w with
    stale := true, found := true, lease := false, nopeer := false, expiry := if lead then 0 else w.expiry, fenceAt := none, holdDrive := false,
    inStep := false, peerInStep := false, catchUp := 0, admitted := false, joinAt := none, egressOff := true, exLead := false, takeAt := none,
    demote := s.mode == .lead })
  (s.stopDriving.twEvt 6).inc (TW_CNT 4)

/-- The send instant of the heartbeat that a receipt instant `rxt` on the peer's time base belongs to: the heartbeat instant nearest to it,
and no later than the last one sent, `last`. Both twins send at the same instants, so a heartbeat sent at an instant reports the receipt of
the one before (R441). -/
def sentInstant (rxt last : Nat) : Nat := min ((rxt + 12500) / 25000 * 25000) last

/-- The inter-twin offset from one exchange (R84, R441): half the sum of the two one-way differences, peer minus local, rounded down. -/
def offsetOf (hb : Heartbeat) (sent t : Nat) : Int := (((hb.rxt : Int) - sent) + ((hb.txt : Int) - t)) / 2

/-- An offset measurement in a paired mode: EP_TWOFS, the largest magnitude, and the counts of R84. -/
def State.measure (s : State) (ofs : Int) : State :=
  let m := ofs.natAbs
  let e := s.elen
  let s := (s.wrN EP_TWOFS (wrapI 32 ofs)).wrN EP_TWOFSMAX (max (s.rdN EP_TWOFSMAX) (min m 0xFFFFFFFF))
  s.onTw (fun w => { w with high := if e / 16 < m then w.high + 1 else 0, low := if m ≤ e / 32 then w.low + 1 else 0 })

/-- R436. A scarf heartbeat of the peer arrives. -/
def State.heartbeatReceived (t : Nat) (hb : Heartbeat) (s : State) : State :=
  let s := s.tick t
  if !s.dieOn || !s.pairedFrame then s else
  let sent := s.tw.hbOut.map (fun h => h.txt)
  let s := s.onTw (fun w => { w with
    reached := true, pgen := hb.gen, peerRole := hb.role, hbGot := t, hbSeen := some (hb.txt, t),
    hbRun := if w.hbSeen.any (fun x => x.1 + 25000 == hb.txt) then w.hbRun + 1 else 1,
    peerIn := hb.role == 1 || hb.role == 2, peerInStep := w.peerInStep && hb.role == 1 })
  let s := if hb.renew && s.mode == .shadow then (s.renewalGot hb.txt).onTw (fun w => { w with ackDue := some hb.txt }) else s
  let s := if hb.ackv then s.ackGot hb.ack else s
  let s := match sent with
    | some x => if s.paired && hb.rxt != 0 then s.measure (offsetOf hb (sentInstant hb.rxt x) t) else s
    | none => s
  s.staleGot hb.gen

/-- The parity bit of a tell word: odd parity over bits [23:0]. -/
def tellPar (w : TellWord) : Bool :=
  popcount 24 (w.sync % 32 + 32 * (w.pid % 2) + 64 * b2n w.renew + 128 * b2n w.ack + 256 * (w.seq % 256) + 65536 * (w.genl % 256)) % 2 == 0

/-- R442. The tell word that begins at a heartbeat instant: the sender's renewal, or the acknowledgement of the peer's. -/
def State.tellWordSend (t : Nat) (s : State) : State :=
  let s := s.tick t
  if !s.dieOn || !s.pairedFrame || !s.tellEn || t % 25000 != 0 then s else
  let renew := s.renews
  let s := s.renewFrom t
  let w : TellWord := {
    sync := 0b01101, pid := s.pid, renew := renew, ack := s.tw.tellAck.isSome, seq := s.tw.tellAck.getD ((t / 25000) % 256)
    genl := s.tw.gen % 256 }
  s.onTw (fun x => { x with tellOut := some { w with par := tellPar w }, tellAck := none })

/-- What TELL_OUT carries (R442, R443): the last word sent, or the static level while the frame die is off, in reset, or about to be reset by an F4. -/
def State.tellLine (s : State) : Option TellWord := if s.dieOn && !s.flt.f4 then s.tw.tellOut else none

/-- The latest heartbeat instant up to `t` with number `seq` modulo 256. -/
def seqInstant (t seq : Nat) : Nat :=
  let k := t / 25000
  25000 * (k - (k + 256 - seq % 256) % 256)

/-- R442, R443. The tell input changes its state or a word arrives; a valid word carries a renewal or an acknowledgement. -/
def State.tellWordReceived (t : Nat) (w : TellWord) (s : State) : State :=
  let s := s.tick t
  if !s.dieOn then s else
  let good := w.state % 4 == 0 && w.sync == 0b01101 && w.par == tellPar w
  let s := s.onTw (fun x => { x with tellSt := if w.state % 4 == 0 && !good then 3 else w.state % 4 })
  if !good || !s.pairedFrame || !s.tellEn || w.pid % 2 == s.pid then s.onTw (fun x => { x with tellRun := 0 }) else
  let s := s.onTw (fun x => { x with tellGot := t, tellRun := if t / 25000 == x.tellGot / 25000 + 1 then x.tellRun + 1 else 1 })
  let at_ := seqInstant t w.seq
  let s := if w.renew && s.mode == .shadow then (s.renewalGot at_).onTw (fun x => { x with tellAck := some (w.seq % 256) }) else s
  if w.ack then s.ackGot at_ else s

/-- Have the heartbeats of two consecutive heartbeat instants not arrived on a path 2 µs after the later (R444)? A heartbeat sent at an instant arrives on the
scarf link right after it, and a tell word that begins at an instant at the next (DEDUCED, log 29). -/
def State.pathQuiet (s : State) (t : Nat) (tell : Bool) : Bool :=
  let k := (t - 2000) / 25000 * 25000
  if tell then decide (s.tw.tellGot < k) else decide (s.tw.hbGot + 25000 < k)

/-- R444. Two consecutive heartbeats are missing on a path: it is down, with an F0 notice. -/
def State.pathDown (t : Nat) (tell : Bool) (s : State) : State :=
  let s := s.tick t
  if !s.dieOn || !(if tell then s.tw.tellUp else s.tw.scfUp) || !s.pathQuiet t tell then s else
  let s := s.onTw (fun w => { w with hbRun := if tell then w.hbRun else 0, tellRun := if tell then 0 else w.tellRun, tellUp := w.tellUp && !tell, scfUp := w.scfUp && tell, peerIn := w.peerIn && tell })
  ((s.twEvt (b2n tell)).inc (TW_CNT (b2n tell))).notice 0x0A 0x21

/-- R444. Four consecutive valid heartbeats bring a path up. -/
def State.pathUp (t : Nat) (tell : Bool) (s : State) : State :=
  let s := s.tick t
  if !s.dieOn || !s.pairedFrame || (if tell then s.tw.tellUp || !s.tellEn || decide (s.tw.tellRun < 4) else s.tw.scfUp || decide (s.tw.hbRun < 4)) then s else
  (s.onTw (fun w => { w with tellUp := w.tellUp || tell, scfUp := w.scfUp || !tell, reached := w.reached || !tell })).twEvt 2

/-- R84. Four consecutive measurements above E/16 degrade the pair: the Lead runs on without a peer in step, the other unit leaves step from
the next epoch stamped and sends no egress. -/
def State.pairDegrade (t : Nat) (s : State) : State :=
  let s := s.tick t
  if !s.paired || s.tw.high < 4 || s.bit EP_STATUS 5 then s else
  let s := (((s.setBit EP_STATUS 5 true).evt EP_EVENT 3).inc (EP_CNT 7)).onTw (fun w => { w with low := 0, catchUp := 0, admitted := false, joinAt := none, peerInStep := false })
  if s.mode == .shadow then (s.leaveGuar (s.stampEp + 1)).onTw (fun w => { w with egressOff := true }) else s

/-! ### Takeover and the fence (R445 to R448, R451, R462) -/

/-- R446. The lease expires without renewal: kept without a peer when both paths are down and the tell input is static, else self-fence. In
Hold the unit stops driving. -/
def State.leaseExpiry (t : Nat) (s : State) : State :=
  let s := s.tick t
  if !s.tw.lease || s.tw.nopeer || t < s.tw.expiry then s else
  if s.mode == .lead then
    if s.tellEn && !s.tw.scfUp && !s.tw.tellUp && s.tw.tellSt == 1 then s.onTw (fun w => { w with nopeer := true, fenceAt := none, peerIn := false })
    else s.selfFence
  else if s.mode == .hold then
    ((s.onTw (fun w => { w with lease := false, holdDrive := false, fenceAt := none, egressOff := true, exLead := true })).stopDriving.twEvt 4).inc (TW_CNT 3)
  else s

/-- Regions not committed yet are restored from the frame store, which holds the sections in service (R462). -/
def State.restoreRegions (s : State) : State :=
  let todo (r : Nat) := !s.bit TW_RSDONE (r - 1)
  let get (i : Nat) (f : State → Octets → State) (s : State) := match assoc s.fr.sects i with
    | some x => f s x
    | none => s
  let s := if todo 1 then get TB0 (fun s x => (s.tbLoad x).getD s) s else s
  let s := if todo 2 then get GB0 State.gwLoad s else s
  let s := if todo 3 then get SB0 State.sbLoad s else s
  let s := if todo 4 then get KB0 State.kbLoad s else s
  let s := if todo 5 then s.memClear (0x983 * 2 ^ 20) (0x983 * 2 ^ 20 + 131072) else s
  let tenons (k : Nat) (s : State) (x : Octets) := (List.range 16).foldl (fun s j => s.loadTenon (16 * k + j) (mbDesc x j)) s
  if todo 6 then get PB0 State.pbLoad ((List.range 8).foldl (fun s k => get k (tenons k) s) s) else s

/-- R462. The Lead is dead before this Shadow is in step: an F3, Hold at the next boundary, and every region not committed restored from the
frame. Where COLDTAKE allows the cold takeover, the unit takes the lease and sets COLD. -/
def State.coldTakeover (s : State) (t : Nat) : State :=
  let take := s.coldTake
  let s := if take then s.takeLease t true else s
  let s := (s.restoreRegions.onTw (fun w => { w with coldHold := true, catchUp := 0, joinAt := none })).raiseFault 3 0x37 0x21 0xFF
  if take then (s.twEvt 10).inc (TW_CNT 7) else s

/-- R445. 25 µs after its view of the lease expires with both paths down, or with a peer that no longer leads (R451), the Shadow takes the
lease; it becomes Lead at the first epoch boundary from then on. -/
def State.takeover (t : Nat) (s : State) : State :=
  let s := s.tick t
  let dead := (!s.tw.scfUp && !s.tw.tellUp) || s.tw.peerRole != 0
  if s.mode != .shadow || s.tw.lease || !dead || s.tw.expiry == 0 || t < s.tw.expiry + 25000 then s else
  if s.tw.inStep then
    let s := (s.takeLease t true).onTw (fun w => { w with takeAt := some t, unagreed := [], peerInStep := false })
    (s.twEvt 3).inc (TW_CNT 2)
  else s.coldTakeover t

/-- The mode change of a takeover at an epoch boundary (R29, R445): Lead without a peer in step, its tenons take their pins. -/
def State.takeLead (s : State) : State :=
  match s.tw.takeAt with
  | some _ =>
    if s.mode == .shadow && s.tw.lease then
      beginDriving s.now ({ s with mode := .lead }.onTw (fun w => { w with takeAt := none, inStep := false }))
    else s.onTw (fun w => { w with takeAt := none })
  | none => s

/-- A change to Shadow that is due takes effect at an epoch boundary (R29, R30, R438, R446): the F3 handler ends with Hold (R466). -/
def State.demoteNow (s : State) : State :=
  if !s.tw.demote || s.flt.holdAt.isSome then s
  else ({ s.leaveHold with mode := .shadow }).onTw (fun w => { w with demote := false, coldHold := false, holdDrive := false })

/-- R447. The fence timer fires, whether or not the frame die runs: CAN and LIN pins are forced to PIDLE and their egress clocks lose their enables. -/
def State.fenceTimerFire (t : Nat) (s : State) : State :=
  let s := s.tick t
  match s.tw.fenceAt with
  | some e =>
    if t < e then s else
    let force (x : Mortise) : Mortise := if x.tenon == .can || x.tenon == .lin then x.idlePins else x
    let s := { s with mz := s.mz.map force, sill := { s.sill with egressClk := false } }
    let s := s.onTw (fun w => { w with fenced := true, fenceAt := none })
    if s.dieOn then (s.twEvt 5).inc (TW_CNT 3) else s
  | none => s

/-! ### Resync (R458 to R461) -/

/-- R458. The Lead admits a paired peer into catch-up; on the Shadow the catch-up begins with region 1. -/
def State.resyncStart (t : Nat) (s : State) : State :=
  let s := s.tick t
  let begin (s : State) := (s.wrN TW_RSDONE 0).onTw (fun w => { w with catchUp := 1, region := 1, rsAt := t, ackAt := t, joinAt := none })
  let ks := s.fld KS_UPST 0 3
  if s.mode == .lead && s.tw.lease && s.tw.peerIn && !s.tw.peerInStep && s.tw.catchUp == 0 && !s.bit TW_CTRL 2 && !s.bit FR_STATUS 5 && ks != 3 && ks != 4 then
    (begin s).onTw (fun w => { w with admitted := true })
  else if s.mode == .shadow && !s.tw.inStep && s.tw.catchUp == 0 && (!s.bit EP_STATUS 5 || 40 ≤ s.tw.low) then begin s
  else s

/-- Registers a region holds beside its memory (R459). The fault records and FLT_STATUS stay this unit's own: only PORESET_N clears them (R468). -/
def regionReg (r a : Nat) : Bool :=
  let mz := (a - 0x100000) % 0x1000
  match r with
  | 1 => (TB_OCC0 ≤ a && a ≤ TB_OCC3) || (0x280100 ≤ a && decide (a < 0x290000))
  | 3 => 0x301000 ≤ a && decide (a < 0x350000) && !epochCounter a
  | 6 => 0x100000 ≤ a && decide (a < 0x1B0000) && !epochCounter a && !(decide (a < 0x180000) && (mz == 4 || mz == 0x14))
  | 7 => [FR_STATUS, FR_ERR, FR_SWAP_L, FR_SWAP_H, FR_RESUME_L, FR_DROP, SG_STATUS, TB_STATUS, SC_STATUS, CP_STATUS, WK_STATUS, KS_UPST, KS_UPEP_L,
      KS_UPEP_H, KS_UPKCV_L, KS_UPKCV_H].contains a || (0x440100 ≤ a && decide (a < 0x440500))
  | _ => false

/-- Registers of which a control region holds the bits covered by the guarantee: counters, and event bits as a mask (R149, R459). -/
def coveredBits : List (Nat × Nat) :=
  let all := 0xFFFFFFFF
  [0, 1, 2, 5].map (fun k => (EP_CNT k, all)) ++
  (List.range 128).flatMap (fun m => [0, 3, 4, 5].map (fun k => (MZ_CNT m k, all))) ++
  (List.range 12).flatMap (fun b => [0, 1, 8, 9].map (fun k => (EB_CNT b k, all))) ++
  (List.range 10).map (fun k => (SG_CNT k, all)) ++ (List.range 10).map (fun k => (TB_CNT k, all)) ++
  ((List.range 8).map (fun k => (SC_CNT k, all)) ++ [(SC_CNT 10, all)] ++ (List.range 140).map (fun p => (SC_PDROP p, all))) ++
  [(KS_CNT 0, all), (KS_CNT 1, all), (KS_CNT 3, all)] ++ ((List.range 8).map (fun k => (CP_CNT k, all)) ++ [(CP_CNT 9, all)]) ++
  (List.range 4).map (fun k => (WK_CNT k, all)) ++
  [(SG_EVENT, 0x1FF), (TB_EVENT, 0x7F), (SC_EVENT, 0xFF), (KS_EVENT, 0x3C), (CP_EVENT, 0x1F), (WK_EVENT, 0x3FF)]

/-- The addresses of the DRAM table space a region holds. -/
def regionMem (r : Nat) : Nat × Nat :=
  match r with
  | 1 => (0, 688 * 2 ^ 20)
  | 2 => (688 * 2 ^ 20, 2432 * 2 ^ 20)
  | 3 => (0x980 * 2 ^ 20, 0x981 * 2 ^ 20)
  | 4 => (0x981 * 2 ^ 20, 0x983 * 2 ^ 20)
  | 5 => (0x983 * 2 ^ 20, 0x984 * 2 ^ 20)
  | _ => (0, 0)

/-- The tenon state of the Lead's mortise, on this unit's own pins (R459, R137). -/
def Mortise.copyFrom (own lead : Mortise) : Mortise := { lead with pins := own.pins }

/-- The part of the table space and of the registers that a region holds, as the Lead `l` has it. -/
def State.copyStore (s l : State) (r : Nat) : State :=
  let lo := (regionMem r).1
  let hi := (regionMem r).2
  let s := (l.mem.filter (fun c => decide (lo ≤ c.1) && decide (c.1 < hi))).foldl (fun s c => s.memW c.1 [c.2]) (s.memClear lo hi)
  (l.regs.filter (fun x => regionReg r x.1)).foldl (fun s x => s.wr x.1 x.2) { s with regs := s.regs.filter (fun x => !regionReg r x.1) }

/-- Region 6: the tenons' and bays' state, with this unit's own page locks (R14): `lock` names the bays that have theirs set. -/
def State.copyTenons (s l : State) (lock : List Nat) : State :=
  let s := (List.range 12).foldl (fun s b => s.setBit (EB_MACCFG b) 31 (lock.contains b)) s
  { s with mz := s.mz.mapIdx (fun m x => x.copyFrom (l.mort m)), bays := s.bays.mapIdx (fun b x => { x with hold := (l.bay b).hold }) }

/-- Region 7: the covered bits of the registers, and the state of the loader, the faults, the key updates and the wake cells. -/
def State.copyUnit (s l : State) : State :=
  let s := coveredBits.foldl (fun s x => s.wrN x.1 ((s.rdN x.1 &&& (0xFFFFFFFF ^^^ x.2)) ||| (l.rdN x.1 &&& x.2))) s
  { s with
    wk := l.wk
    flt := { l.flt with f2Iso := s.flt.f2Iso }
    fr := { l.fr with
      hand := s.fr.hand, peerStage := s.fr.peerStage, isoFlush := s.fr.isoFlush, isoEp := s.fr.isoEp ++ l.fr.isoEp
      bents := (List.range 13).map (fun i => if s.bent i == .isolated then .isolated else l.bent i) }
    ks := { s.ks with upd := l.ks.upd, effect := l.ks.effect }
    pw := { s.pw with energy := l.pw.energy } }

/-- A committed region's contents equal the Lead's as at the end of its marked epoch (R459). What is this unit's own stays: its pins, the page locks,
which only PORESET_N clears (R14), and its isolated bents, which only a replacement or a raise brings back (R37). -/
def State.copyRegion (own l : State) (r : Nat) : State :=
  let s := own.copyStore l r
  match r with
  | 1 => { s with tab := l.tab }
  | 2 => { s with gw := l.gw }
  | 3 => { s with sch := l.sch }
  | 6 => s.copyTenons l ((List.range 12).filter (fun b => own.bit (EB_MACCFG b) 31))
  | 7 => s.copyUnit l
  | _ => s

/-- R459. A region is committed: TW_RSDONE and TW_RSMARK show it, and the next is copied. The Lead has mirrored its changes to the regions committed before, so
they equal its own at the same epoch. -/
def State.resyncRegionCommit (t region : Nat) (s : State) : State :=
  let s := s.tick t
  if s.tw.catchUp != 1 || region != s.tw.region || region < 1 || 7 < region then s else
  let l := Config.leadState s.free
  let shadow := s.mode == .shadow
  let mark := (if shadow then l.ep.done else s.ep.done).getD 0 % 2 ^ 48
  let s := if shadow then (List.range region).foldl (fun s r => s.copyRegion l (r + 1)) { s with free := s.free + 1 } else s
  let s := s.setBit TW_RSDONE (region - 1) true
  let s := s.onTw (fun w => { w with rsMark := mark, ackAt := t, region := if region == 7 then 0 else region + 1, catchUp := if region == 7 then 2 else 1 })
  if shadow && region == 7 then s.onEp (fun e => { e with done := some mark, rel := some mark, running := none }) else s

/-- R460. The Lead names the join epoch J, its current stamped epoch plus 8; the Shadow adopts the numbering and builds its own ledgers from
J on. -/
def State.resyncJoin (t j : Nat) (s : State) : State :=
  let s := s.tick t
  if s.tw.catchUp != 2 || j < 8 then s else
  if s.mode == .lead then
    if s.ep.cur == some (j - 8) then s.onTw (fun w => { w with joinAt := some j, ackAt := t }) else s
  else if s.mode == .shadow then
    let st := t - t % s.elen
    let s := if s.ep.cur == some (j - 8) then s else s.onEp (fun e => { e with cur := some (j - 8), start := st, stop := st + s.elen, starts := [(j - 8, st)], handing := [] })
    (s.onEp (fun e => { e with lag := 3 })).setFld EP_CTRL 2 2 3 |>.onTw (fun w => { w with joinAt := some j, ackAt := t })
  else s

/-- The catch-up is complete (R460, R85): in step on both units, the guarantee holds again, the time taken is shown. -/
def State.enterStep (s : State) : State :=
  let s := (s.twEvt 8).setBit EP_STATUS 5 false
  let s := s.setFld TW_RSTIME 0 16 (min 0xFFFF ((s.now - s.tw.rsAt) / 1000000))
  let lead := s.mode == .lead
  let s := s.onTw (fun w => { w with
    inStep := !lead, peerInStep := lead, catchUp := 0, joinAt := none, admitted := false, region := 0, egressOff := if lead then w.egressOff else false,
    stale := w.stale && lead, found := w.found && lead, exLead := w.exLead && lead, unagreed := [] })
  if lead then s else s.onEp (fun e => { e with guar := s.fld FLT_STATUS 3 2 == 0, guarFrom := s.procEp })

/-- R461. The catch-up is abandoned; it starts again from region 1 when the peer is next admitted. -/
def State.resyncAbandon (t : Nat) (s : State) : State :=
  let s := s.tick t
  if s.tw.catchUp == 0 then s else
  ((s.onTw (fun w => { w with catchUp := 0, region := 0, joinAt := none, admitted := false })).twEvt 9).inc (TW_CNT 6)

/-! ### IEEE 802.1CB (R453 to R457) -/

/-- The region of a handle. -/
def cbAddr (h : Nat) : Nat := 0x983 * 2 ^ 20 + 32 * (h % 4096)

/-- The next sequence number of handle `h` (R455). -/
def State.cbGenerate (s : State) (h : Nat) : Nat × State :=
  let g := s.memN (cbAddr h) 2
  (g, s.memWN (cbAddr h) 2 ((g + 1) % 65536))

/-- Recovery state of a handle as after a reset: number and history zero, so that the next frame is taken whatever its number. -/
def State.cbReset (s : State) (h : Nat) : State := (s.memWN (cbAddr h + 2) 2 0).memWN (cbAddr h + 4) 16 0

/-- Has recovery of handle `h` run out for a stream entry (R305, R454): an entry of key type 0x02 in force with RECEN for `h` whose RSTEP epochs have
passed without a passed frame? -/
def State.cbOut (s : State) (h : Nat) : Bool :=
  (s.hused 0).any (fun i => let e := s.hent 0 i
    oct (hKey e) 0 == 2 && s.tagOkT (hGen e) && (hRes e).testBit 13 && bitsN (hRes e) 0 12 == h && decide (bitsN (hAux e) 0 24 ≤ s.memN (cbAddr h + 0x1C) 4))

/-- R456. Recovery state resets when RSTEP epochs pass without a passed frame; a handle that has passed none has nothing to reset. -/
def State.cbRecoveryReset (h : Nat) (s : State) : State :=
  if h < 4096 && s.memN (cbAddr h + 0x14) 4 != 0 && s.cbOut h then s.cbReset h else s

/-- A passed frame with number `seq` and the history that results. -/
def State.cbPass (s : State) (h seq hist : Nat) : State :=
  let a := cbAddr h
  (((s.memWN (a + 2) 2 seq).memWN (a + 4) 16 (hist % 2 ^ 128)).memWN (a + 0x14) 4 (s.memN (a + 0x14) 4 + 1)).memWN (a + 0x1C) 4 0

/-- Sequence recovery of IEEE 802.1CB-2017 over `len` numbers, with the vector or the match algorithm; true when the frame passes. -/
def State.cbRecover (s : State) (h seq len rstep : Nat) (isMatch : Bool) : Bool × State :=
  let a := cbAddr h
  let s := if rstep ≤ s.memN (a + 0x1C) 4 && s.memN (a + 0x14) 4 != 0 then s.cbReset h else s
  let hist := s.memN (a + 4) 16
  let last := s.memN (a + 2) 2
  let delta := signedN 16 ((seq + 65536 - last) % 65536)
  let drop := (false, s.memWN (a + 0x18) 4 (s.memN (a + 0x18) 4 + 1))
  if hist == 0 then (true, s.cbPass h seq 1)
  else if isMatch then (if delta == 0 then drop else (true, s.cbPass h seq 1))
  else if (len : Int) ≤ delta || delta ≤ -(len : Int) then drop
  else if delta ≤ 0 then
    (if hist.testBit delta.natAbs then drop else (true, s.cbPass h last (hist + 2 ^ delta.natAbs)))
  else (true, s.cbPass h seq ((hist * 2 ^ delta.natAbs + 1) % 2 ^ len))

/-- A processed epoch has passed for every handle that has passed a frame (R457). -/
def State.cbEpoch (s : State) : State :=
  (s.memIdx (cbAddr 0) (cbAddr 0 + 131072) 32).foldl (fun s h =>
    if s.memN (cbAddr h + 0x14) 4 == 0 then s else s.memWN (cbAddr h + 0x1C) 4 (s.memN (cbAddr h + 0x1C) 4 + 1)) s

end Machine
end Sys2Proof
end

