-- ==== Sys2Proof/Machine/Ledger.lean ====
section
/-! DEFINITION. Machine/Ledger.lean: epochs and the ledger: boundaries, hand-over, closing alone and in pairs, matching, fill, order keys, the
ledger digest and the comparison (R47 to R71, R77, R554, R558). -/
namespace Sys2Proof.Machine
open Sys2Proof

/-- The end of epoch `n` on the unit's time base. -/
def State.epochEnd (s : State) (n : Nat) : Nat := s.epochStart (n + 1)

/-- A list of epochs without those more than eight before `n`. -/
def recentEps (n : Nat) (l : List Nat) : List Nat := l.filter (fun k => decide (n < k + 9))

/-! ### Boundaries (R29, R48) -/

/-- R475. Tenons take their pins again at the first boundary that lies 1 ms after a cancellation. -/
def State.resumePins (s : State) : State :=
  match s.wk.pinsAt with
  | some a =>
    if s.now < a then s else
    let s := s.onWk (fun w => { w with pinsAt := none, quiesce := false })
    if s.mayDrive && s.tw.driving then (List.range 128).foldl (fun s m => s.takePins m) s else s
  | none => s

/-- R48. The epoch being stamped ends and the next begins; changes to Shadow and to Lead that are due change the mode here (R29, R445, R446). The time
base slews on (R42), and a grandmaster sends what falls due (R40). -/
def State.epochBoundary (t : Nat) (s : State) : State :=
  let s := s.tick t
  match s.ep.cur with
  | some n =>
    if !s.dieOn || t < s.ep.stop then s else
    let was := s.ep.start
    let s := s.onEp (fun e => { e with
      cur := some (n + 1), start := e.stop, stop := e.stop + s.elen
      starts := (if e.starts.length ≤ 8 then e.starts else e.starts.drop 1) ++ [(n + 1, e.stop)] })
    ((s.slewOut.gmSend was s.ep.start).demoteNow.takeLead).resumePins
  | none => s

/-! ### Hand-over and closing alone (R51, R58, R558) -/

/-- Has the ledger of epoch `n` closed on this unit (R558): alone it was closed, in any mode it was released? DESIGN CHOICE (log 37): a pair's ledger takes no
input once its records are sealed at 1.5 µs, since an input handed over later could be matched and filled by neither twin (R60, R66); R558 speaks of the
close at 3 × E only. -/
def State.ledgerShut (s : State) (n : Nat) : Bool :=
  s.ep.closed.any (fun c => n ≤ c) || s.ep.sealed.any (fun c => n ≤ c) || s.ep.rel.any (fun c => n ≤ c)

/-- R51. A source hands its next input of a (class, port) to the epoch engine; one whose ledger has closed is dropped (R558). -/
def State.inputHandover (t cls port : Nat) (s : State) : State :=
  let s := s.tick t
  match s.ep.handing.find? (fun i => i.cls == cls && i.port == port) with
  | some i =>
    let s := s.onEp (fun e => { e with handing := e.handing.erase i })
    if s.ledgerShut i.stamp then (s.evt EP_EVENT 11).notice 0x0B 0x20 else s.onEp (fun e => { e with inputs := e.inputs ++ [i] })
  | none => s

/-- R58. Alone, the ledger of epoch `n` closes 1.5 µs after its end. -/
def State.ledgerClose (t n : Nat) (s : State) : State :=
  let s := s.tick t
  if s.serving && !s.paired && s.ep.cur.any (fun c => n < c) && !s.ep.closed.any (fun c => n ≤ c) && s.epochEnd n + 1500 ≤ t then
    s.onEp (fun e => { e with closed := some n })
  else s

/-! ### Records, matching and fill (R60 to R67, R69, R70, R449) -/

/-- The octets over which the match digest is computed: the frame or event itself, or the command (R60). -/
def inOctets (i : Input) : Octets := if i.kind == .command then Config.commandOctets i.addr i.data i.cap else i.octets

/-- The match digest: CRC-64 over the length and the octets (R60). -/
def inDigest (i : Input) : Nat := crc64 (natBE 2 (inOctets i).length ++ (inOctets i))

/-- The record of an own input (R60). -/
def inRec (i : Input) : PeerRec := { stamp := i.stamp, cls := i.cls, port := i.port, origin := i.origin, pos := i.pos, digest := inDigest i }

/-- The records this unit sends for epoch `n` when it seals it. -/
def State.recordsOf (s : State) (n : Nat) : List PeerRec := (s.ep.inputs.filter (fun i => i.stamp == n)).map inRec

/-- Do the twins build epoch `n` together: in step, or from the join epoch on (R460)? -/
def State.exchanging (s : State) (n : Nat) : Bool :=
  (if s.mode == .lead then s.tw.peerInStep else s.tw.inStep) || s.tw.joinAt.any (fun j => j ≤ n)

/-- R60, R66. In paired modes the records of an epoch are sealed and sent 1.5 µs after its end. -/
def State.recordsSealSend (t n : Nat) (s : State) : State :=
  let s := s.tick t
  if s.serving && s.paired && s.ep.cur.any (fun c => n < c) && !s.ep.sealed.any (fun c => n ≤ c) && s.epochEnd n + 1500 ≤ t then
    let both := s.exchanging n
    s.onEp (fun e => { e with sealed := some n, sent := if both then recentEps n e.sent ++ [n] else e.sent })
  else s

/-- R60. The peer's sealed records of an epoch arrive. -/
def State.peerRecordsReceived (t n : Nat) (recs : List PeerRec) (s : State) : State :=
  let s := s.tick t
  if !s.paired || s.ep.peerGot.contains n then s else
  s.onEp (fun e => { e with peerGot := recentEps n e.peerGot ++ [n], peer := e.peer ++ recs.map (fun r => { r with stamp := n, matched := false, inEp := n }) })

/-- May two records match, apart from their stamps (R61)? -/
def sameInput (a b : PeerRec) : Bool := a.cls == b.cls && a.port == b.port && a.digest == b.digest && (a.cls == 1 || a.cls == 2)

/-- The matching of R61: the records of identity 0 in arrival order, each with the earliest eligible record of identity 1; at the decision of
epoch `n` one of the two lies in it. Answers the pairs. -/
def matchRecs (n : Nat) : List PeerRec → List PeerRec → List (PeerRec × PeerRec)
  | [], _ => []
  | a :: as, bs =>
    match bs.find? (fun b => sameInput a b && (a.stamp == n || b.stamp == n)) with
    | some b => (a, b) :: matchRecs n as (bs.erase b)
    | none => matchRecs n as bs

/-- Mark the inputs and records of the pairs found (R62): each pair enters the earlier of its two epochs. -/
def markPair (inputs : List Input) (peer : List PeerRec) (own mate : PeerRec) : List Input × List PeerRec :=
  let e := min own.stamp mate.stamp
  (inputs.map (fun i => if i.cls == own.cls && i.port == own.port && i.pos == own.pos then { i with matched := true, inEp := e, mate := mate.pos } else i),
   peer.map (fun r => if r.cls == mate.cls && r.port == mate.port && r.pos == mate.pos then { r with matched := true, inEp := e, mate := own.pos } else r))

/-- R70. One-sided records of both twins that agree in all but stamps two to four epochs apart are counted once. -/
def State.skewMisses (s : State) (n : Nat) (own peer : List PeerRec) : State :=
  let mine := own.map (fun r => { r with origin := s.pid })
  let theirs := peer.map (fun r => { r with origin := 1 - s.pid })
  (mine ++ theirs).foldl (fun s r =>
    match s.ep.seen.find? (fun x => x.origin != r.origin && sameInput x r && decide (x.stamp + 2 ≤ r.stamp) && decide (r.stamp ≤ x.stamp + 4)) with
    | some x => ((s.onEp (fun e => { e with seen := e.seen.erase x })).cInc (EP_CNT 5)).cEvt EP_EVENT 6
    | none => s.onEp (fun e => { e with seen := e.seen.filter (fun x => decide (n < x.stamp + 5)) ++ [r] })) s

/-- Both twins flag an epoch that diverged or stayed unagreed (R69): the event, an F0 notice and the count. -/
def State.flagEpoch (s : State) (k : Nat) : State := ((s.evt EP_EVENT k).notice 0x06 0x20).inc (EP_CNT 6)

/-- R69, R449. An epoch is unagreed: the Lead runs on alone; the Shadow keeps its own ledger until a renewal or a takeover decides it. -/
def State.unagreedEpoch (s : State) (n : Nat) : State :=
  let s := s.flagEpoch 5
  let s := s.onEp (fun e => { e with inputs := e.inputs.map (fun i => if i.inEp == n then { i with acked := true } else i), sent := e.sent.erase n })
  if s.mode == .lead then s.onTw (fun w => { w with peerInStep := false, joinAt := none, catchUp := 0, admitted := false })
  else if s.tw.inStep then s.onTw (fun w => { w with unagreed := w.unagreed ++ [(n, s.now)] })
  else (s.onTw (fun w => { w with joinAt := none })).leaveGuar n

/-- R61 to R63. The matching of epoch `n`: pairs are found, and the one-sided inputs this unit holds go to the peer. -/
def State.matchingDecided (t n : Nat) (s : State) : State :=
  let s := s.tick t
  if !s.serving || !s.paired || !s.ep.sent.contains n || s.ep.decided.contains n || !s.ep.cur.any (fun c => n + 1 < c) ||
      t < s.epochEnd n + s.elen + 2000 + s.elen / 16 then s else
  let s := s.onEp (fun e => { e with decided := recentEps n e.decided ++ [n] })
  let first := s.tw.joinAt.getD 0
  let need := [n - 1, n, n + 1].filter (fun k => decide (first ≤ k))
  if !need.all (fun k => s.ep.peerGot.contains k) then s.unagreedEpoch n else
  let open_ (l : List PeerRec) := l.filter (fun r => !r.matched && (r.stamp == n || r.stamp == n + 1))
  let own := open_ ((s.ep.inputs.filter (fun i => !i.matched)).map inRec)
  let peer := open_ s.ep.peer
  let pairs := if s.pid == 0 then matchRecs n own peer else (matchRecs n peer own).map (fun p => (p.2, p.1))
  let (inputs, recs) := pairs.foldl (fun x p => markPair x.1 x.2 p.1 p.2) (s.ep.inputs, s.ep.peer)
  let s := s.onEp (fun e => { e with inputs := inputs, peer := recs })
  let alone := s.ep.inputs.filter (fun i => !i.matched && i.stamp == n)
  let s := (s.onEp (fun e => { e with fillsOut := e.fillsOut ++ alone })).inc (EP_CNT 3) alone.length
  s.skewMisses n ((alone.map inRec).filter (fun r => r.cls == 1 || r.cls == 2)) (s.ep.peer.filter (fun r => !r.matched && r.stamp == n && (r.cls == 1 || r.cls == 2)))

/-- Is the Shadow replaying the Lead's closed ledgers up to the join epoch (R460)? -/
def State.replaying (s : State) (n : Nat) : Bool := s.mode == .shadow && !s.tw.inStep && s.tw.catchUp == 2 && s.tw.joinAt.all (fun j => n < j)

/-- R67. A one-sided input of the peer arrives, by the fill deadline of its epoch, and is acknowledged; in replay it is a closed input of the
Lead. -/
def State.fillReceived (t : Nat) (i : Input) (s : State) : State :=
  let s := s.tick t
  let n := i.inEp
  let known := s.ep.fillsIn.any (fun x => x.cls == i.cls && x.port == i.port && x.pos == i.pos && x.inEp == n)
  let ok := s.replaying n || (s.ep.sent.contains n && !s.ep.deadline.contains n && decide (t ≤ s.epochEnd n + 5 * s.elen / 2))
  if !s.paired || known || !ok then s else
  (s.onEp (fun e => { e with fillsIn := e.fillsIn ++ [{ i with acked := true }] })).inc (EP_CNT 4)

/-- R67. The acknowledgement of a one-sided fill arrives by the deadline. -/
def State.fillAckReceived (t cls port pos : Nat) (s : State) : State :=
  let s := s.tick t
  let hit (i : Input) := i.cls == cls && i.port == port && i.pos == pos
  match s.ep.fillsOut.find? hit with
  | some f =>
    if s.epochEnd f.stamp + 5 * s.elen / 2 < t then s else
    s.onEp (fun e => { e with
      fillsOut := e.fillsOut.filter (fun i => !hit i)
      inputs := e.inputs.map (fun i => if hit i && i.stamp == f.stamp then { i with acked := true } else i) })
  | none => s

/-- R67. At 2.5 × E an own one-sided input that was not acknowledged is left out of the ledger. -/
def State.fillDeadline (t n : Nat) (s : State) : State :=
  let s := s.tick t
  if !s.paired || !s.ep.decided.contains n || s.ep.deadline.contains n || t < s.epochEnd n + 5 * s.elen / 2 then s else
  s.onEp (fun e => { e with
    deadline := recentEps n e.deadline ++ [n]
    fillsOut := e.fillsOut.filter (fun i => i.stamp != n)
    inputs := e.inputs.filter (fun i => i.inEp != n || i.matched || i.acked) })

/-! ### The ledger of an epoch (R55, R65, R68) -/

/-- Where an input of a bay or mortise stands in the merged arrival order of both twins (R65): the pairs in the order of identity 0, and
after each the one-sided inputs of identity 0, then those of identity 1. `pid` is this unit's identity. -/
def mergeKey (pid : Nat) (l : List Input) (i : Input) (own : Bool) : Nat :=
  let pairs := l.filter (fun x => x.matched)
  let p0 (x : Input) := if pid == 0 then x.pos else x.mate
  let p1 (x : Input) := if pid == 0 then x.mate else x.pos
  let side := if own then pid else 1 - pid
  let big := 2 ^ 34
  if i.matched then ((pairs.filter (fun x => decide (p0 x ≤ p0 i))).length * 3) * big + p0 i
  else if side == 0 then ((pairs.filter (fun x => decide (p0 x < i.pos))).length * 3 + 1) * big + i.pos
  else ((pairs.filter (fun x => decide (p1 x < i.pos))).length * 3 + 2) * big + i.pos

/-- The inputs of one class and port with their RANK (R55, R65). -/
def rankPort (pid : Nat) (own fills : List Input) : List Input :=
  let all := own.map (fun i => (mergeKey pid own i true, i)) ++ fills.map (fun i => (mergeKey pid own i false, i))
  let sorted := (sortBy (fun x => x.1) all).map (·.2)
  (List.range sorted.length).map (fun k => { nth sorted k with rank := k })

/-- The host inputs of one class, port and origin with their RANK: their stamping order (R55). -/
def rankHost (l : List Input) : List Input :=
  let sorted := sortBy (fun i => i.pos) l
  (List.range sorted.length).map (fun k => { nth sorted k with rank := k })

/-- The order key of R55. -/
def inKey (i : Input) : Nat := i.cls % 16 * 2 ^ 60 + i.port % 256 * 2 ^ 52 + i.rank % 65536 * 2 ^ 36 + i.origin % 2 * 2 ^ 35

/-- The inputs that enter the ledger of epoch `n`: this unit's own and those filled in by the peer; in replay the Lead's alone. -/
def State.ledgerParts (s : State) (n : Nat) : List Input × List Input :=
  let own := if s.replaying n then [] else s.ep.inputs.filter (fun i => i.inEp == n && (i.matched || i.acked || !s.ep.decided.contains n))
  (own, s.ep.fillsIn.filter (fun i => i.inEp == n))

/-- The ledger of epoch `n` in canonical order (R55). -/
def State.ledgerOf (s : State) (n : Nat) : List Input :=
  let (own, fills) := s.ledgerParts n
  let ports := ((own ++ fills).map (fun i => (i.cls, i.port))).dedup
  let ranked := ports.flatMap (fun cp =>
    let o := own.filter (fun i => (i.cls, i.port) == cp)
    let f := fills.filter (fun i => (i.cls, i.port) == cp)
    if cp.1 == 0 || cp.1 == 3 then rankHost (o.filter (fun i => i.origin == 0) ++ f.filter (fun i => i.origin == 0)) ++
      rankHost (o.filter (fun i => i.origin != 0) ++ f.filter (fun i => i.origin != 0))
    else rankPort s.pid o f)
  sortBy inKey ranked

/-- The ledger digest (R68). -/
def ledgerDigest (l : List Input) : Nat := crc64 (l.flatMap (fun i => natBE 8 (inKey i) ++ natBE 8 (inDigest i)))

/-- Pairs of the ledger whose two stamps lay in different epochs (EP_CNT2). -/
def State.stampMerges (s : State) (l : List Input) : Nat :=
  (l.filter (fun i => i.matched && s.ep.peer.any (fun r => r.matched && r.cls == i.cls && r.port == i.port && r.pos == i.mate && r.stamp != i.stamp))).length

/-- The inputs and records of the epochs up to `n` are no longer needed once its ledger is released. -/
def State.dropLedger (s : State) (n : Nat) : State :=
  s.onEp (fun e => { e with
    inputs := e.inputs.filter (fun i => decide (n < i.inEp) || decide (n < i.stamp))
    fillsIn := e.fillsIn.filter (fun i => decide (n < i.inEp))
    peer := e.peer.filter (fun r => decide (n < r.stamp + 3)) })

/-! ### Comparison (R69, R554) -/

/-- One command of two outcome records, as this unit and its peer recorded it: the twin that was not armed raises the F2 of R121, the one that refused
a key update that of R390. -/
def State.compareCmd (s : State) (x : CmdOutcome × CmdOutcome) : State :=
  if x.1.swap then (if !x.1.armed && x.2.armed then (s.raiseFault 2 0x24 0x21 0xFF).leaveStep else s)
  else if !x.1.accepted && x.2.accepted then (s.raiseFault 2 0x25 (bentCode KB0) 0xFF).leaveStep else s

/-- R554. What differing outcome records of epoch `n` bring: an F2 for each command on which this unit was not armed or refused, and for differing pair key
vectors the twin without the lease leaves step (R391). -/
def State.compareOutcomes (s : State) (n : Nat) (own peer : OutcomeRec) : State :=
  let s := (own.cmds.zip peer.cmds).foldl State.compareCmd s
  if own.pairKeys != peer.pairKeys then
    let s := (s.setBit KS_STATUS 10 true).evt KS_EVENT 11
    if s.mode == .lead then s.onTw (fun w => { w with peerInStep := false, joinAt := none }) else s.leaveGuar n
  else s

/-- What is kept of the epochs compared by now. -/
def State.pruneEpochs (s : State) (n : Nat) : State :=
  s.onEp (fun e => { e with
    digests := e.digests.filter (fun d => decide (n < d.1))
    outcomes := e.outcomes.filter (fun o => decide (n < o.epoch))
    decided := recentEps n e.decided
    peerGot := recentEps n e.peerGot
    deadline := recentEps n e.deadline })

/-- R69, R554. At 4 × E the ledger digests and outcome records of epoch `n` are compared. -/
def State.ledgerCompare (t n : Nat) (dig : Option Nat) (out : Option OutcomeRec) (s : State) : State :=
  let s := s.tick t
  if !s.paired || !s.ep.sent.contains n || t < s.epochEnd n + 4 * s.elen then s else
  match assoc s.ep.digests n with
  | none => s
  | some own =>
    let mine := (s.ep.outcomes.find? (fun o => o.epoch == n)).getD { epoch := n }
    let s : State := match dig, out with
      | some d, some o =>
        let s :=
          if d != own then
            let s := s.flagEpoch 4
            if s.mode == .lead then s.onTw (fun w => { w with peerInStep := false, joinAt := none }) else s.leaveGuar n
          else if s.tw.joinAt == some n then s.enterStep else s
        s.compareOutcomes n mine o
      | _, _ => if s.tw.unagreed.any (fun u => u.1 == n) then s else s.unagreedEpoch n
    s.pruneEpochs n

/-- R77. The processing of an epoch has not completed by the end of the epoch in which it runs. -/
def State.epochOverrun (t : Nat) (s : State) : State :=
  let s := s.tick t
  match s.ep.running with
  | some n =>
    if t < s.epochEnd s.ep.runIn then s else
    ((s.evt EP_EVENT 8).loseGuar n).raiseFault 3 0x33 0x20 0xFF
  | none => s

end Sys2Proof.Machine
end

