-- ==== Sys2Proof/Machine/Loader.lean ====
section
/-! DEFINITION. Machine/Loader.lean: raising an image from flash or staging, the start of service, the late bents, and deltas: check, arming,
swap and purge (R87 to R121, R49, R96 to R101, R496, R516, R553, R557). -/
namespace Sys2Proof.Machine
open Sys2Proof

/-! ### The image in hand -/

/-- First octet of the staging region (R506). -/
abbrev stageBase : Nat := 0x990 * 2 ^ 20

/-- The image in the staging region, FR_STAGE.LEN octets. -/
def State.stageImg (s : State) : Octets := s.memO stageBase (min (s.fld FR_STAGE 0 28) (256 * 2 ^ 20))

/-- The sections an image held whole brings, by bent. -/
def imageSects (img : Octets) : List (Nat × Octets) :=
  (imageRecs img).filterMap (fun r =>
    if rEmpty r || img.length < rOff r + rLen r then none else (bentIdx (rCode r)).map (fun i => (i, imageSect img r)))

/-- A raise begins with the header of an image (R96). -/
def State.startRaise (s : State) (src t : Nat) : State :=
  (s.setFld FR_STATUS 0 8 1).onFr (fun f => { f with hand := some { src := src, startT := t } })

/-- RAISE_FROM_FLASH: in Raise with no image in hand the loader reads slot A (R96); the time of the raise runs from the wake event. -/
def raiseFromFlash (t : Nat) (s : State) : State :=
  let s := s.tick t
  if s.mode != .raise || !s.dieOn || s.fr.hand.isSome then s else
  (s.startRaise 0 (s.sill.powerT.getD t)).onSill (fun d => { d with powerT := none })

/-- HOST_RAISE: FR_CTRL.START in Hold or Bench; the unit enters Raise and reads the image that SRC selects, with no fallback (R96). A code
SRC does not have selects nothing. -/
def hostRaise (t : Nat) (s : State) : State :=
  let s := s.tick t
  if (s.mode != .hold && s.mode != .bench) || !s.dieOn || s.bit FR_STATUS 5 then s else
  match s.fld FR_CTRL 1 2 with
  | 0 => (s.enterRaise t).startRaise 4 t
  | 1 => (s.enterRaise t).startRaise 2 t
  | 2 => (s.enterRaise t).startRaise 3 t
  | _ => s

/-- The image in hand is refused (R93, R96, R557): FR_ERR and REJECT; slot A of a flash raise falls back to slot B, any other image leaves the
unit in Bench. -/
def State.rejectImage (s : State) (e : LoadErr) : State :=
  let hold := s.flt.holdAt
  let s := ((s.wrN FR_ERR e.word).evt FR_EVENT 2).fltDefaults
  let s := { s with flt := { s.flt with holdAt := hold } }
  let s := s.onFr (fun f => { f with header := [], recs := [], sects := [], staged := false, cfg := [], bents := List.replicate 13 .absent })
  match s.fr.hand with
  | some h =>
    if h.src == 0 then (s.setFld FR_STATUS 0 8 1).onFr (fun f => { f with hand := some { src := 1, startT := h.startT } })
    else (s.setFld FR_STATUS 0 8 5).enterBench
  | none => s

/-- The service block takes effect once its image passed checks 1 to 14 (R88, R496, R516, R557). -/
def State.loadService (s : State) (h : Octets) : State :=
  let role := s.tbRole
  let e := 4000 * 2 ^ hElen h
  let s := ((s.setFld EP_CTRL 0 2 (hElen h)).wrN EP_BUDGET (hLaneb h + 65536 * (e - 650))).wrN EP_TBCFG (leAt h 0xA4 4)
  let s := (s.wrN EP_HOLD (leAt h 0xA8 4)).setFld PW_BASE 0 16 (hBase h)
  let ports := ((List.range 4).map (fun k => (oct h (0xC0 + k) % 4) * 4 ^ k)).sum
  let s := s.wrN HB_PORTCFG (ports + 256 * (oct h 0xC4 % 4))
  let s := s.setFld FLT_INTEN 8 5 (oct h 0xE4)
  let s := { s with flt := { s.flt with f2hold := leAt h 0xE0 2, f1rate := leAt h 0xE2 2, holdMB := oct h 0xE5 } }
  (s.onSill (fun d => { d with wkIlim := leAt h 0xB0 2, wkVolt := leAt h 0xB2 2, wkPulse := leAt h 0xB4 2, raised := true })).roleLoaded role

/-- HEADER_CHECKED: the image in hand has been read as far as checks 1 to 14 need it: header, record table, signature, and the mortise bent sections
that checks 8 and 11 look at (R93). Flash gives them with the command, `header` as the octets of the image; a staged image is read from the staging
region. -/
def headerChecked (t : Nat) (header sig : Octets) (s : State) : State :=
  let s := s.tick t
  match s.fr.hand with
  | none => s
  | some h =>
    if s.mode != .raise || !s.dieOn || h.headerOk then s else
    let img := if h.src == 2 then s.stageImg else header
    let front := 0x200 + 64 * hNrec img
    let sig := if h.src == 2 then slice img front 64 else sig
    let err : Option LoadErr :=
      if h.src == 2 && img.length < hImgLen img then some { code := 1 }
      else s.loadChecks { img := img, sig := sig }
    match err with
    | some e => s.rejectImage e
    | none =>
      let hd := img.take 0x200
      let rs := imageRecs img
      let s := s.freshBlocks.onFr (fun f => { f with
        header := hd, recs := rs, sects := [], staged := hStaged hd && s.ks.lc != 0, full := false
        hand := some { h with header := hd, recs := rs, headerOk := true } })
      let s := (s.loadService hd).configEmpty
      let s := ((s.setFld FR_STATUS 0 4 2).setBit FR_STATUS 4 (s.ks.lc == 0)).setBit FR_STATUS 7 (h.src == 1 || (h.src == 3 && s.rdN FR_FLASHA == 0x4000000))
      if h.src == 1 then s.evt FR_EVENT 3 else s

/-- Bents whose sections a raise needs before service: all that are not empty, or the EARLY ones of a staged raise (R97, R101). -/
def State.needed (s : State) : List Nat :=
  s.fr.recs.filterMap (fun r => if rEmpty r || (s.fr.staged && !rEarly r) then none else bentIdx (rCode r))

/-- Are the bents a raise needs configured? -/
def State.raiseReady (s : State) : Bool := !s.fr.recs.isEmpty && s.needed.all (fun i => (assoc s.fr.sects i).isSome)

/-- The machine with the image in hand changed. -/
def State.onHand (s : State) (f : Raising → Raising) : State := s.onFr (fun x => { x with hand := x.hand.map f })

/-- Bents of the frame with a section. -/
def State.sectioned (s : State) : List Nat := s.fr.recs.filterMap (fun r => if rEmpty r then none else bentIdx (rCode r))

/-- A checked section is kept; the bents needed are configured when the last of them is there, a late mortise bent when its own is. -/
def State.takeSection (s : State) (t i : Nat) (sect : Octets) : State :=
  let ready := s.raiseReady
  let s := s.onHand (fun h => { h with sects := assocPut h.sects i sect })
  match s.fr.hand with
  | none => s
  | some h =>
    let have_ := h.sects
    let s := if !ready && s.needed.all (fun k => (assoc have_ k).isSome) then s.configBents (have_.filter (fun x => s.needed.contains x.1)) else s
    let s := if s.fr.staged && !s.needed.contains i && i < 8 && s.raiseReady then s.configMB i sect else s
    if s.sectioned.all (fun k => (assoc have_ k).isSome || h.bad.contains k) then s.setFld FR_TIME 16 16 (raiseTime h.startT t) else s

/-- Late mortise bents whose sections came before the EARLY set was complete are configured with it. -/
def State.lateConfig (s : State) (wasReady : Bool) : State :=
  if wasReady || !s.raiseReady then s else
  match s.fr.hand with
  | some h => (h.sects.filter (fun x => decide (x.1 < 8) && !s.needed.contains x.1)).foldl (fun s x => s.configMB x.1 x.2) s
  | none => s

/-- SECTION_CHECKED: the section of bent `idx` of the image in hand has been read; check 15 and R553 decide it. A late section that fails
leaves its bent out (R100). -/
def sectionChecked (t idx : Nat) (sect : Octets) (readErr : Bool) (s : State) : State :=
  let s := s.tick t
  match s.fr.hand with
  | none => s
  | some h =>
    if !s.dieOn || !h.headerOk || !s.sectioned.contains idx || (assoc h.sects idx).isSome || h.bad.contains idx then s else
    let sect := if h.src == 2 then
        (match recOf h.recs idx with
          | some r => s.memO (stageBase + rOff r) (rLen r)
          | none => [])
      else sect
    match s.sectErr h.header h.recs h.sects idx sect readErr with
    | none => (s.takeSection t idx sect).lateConfig s.raiseReady
    | some e =>
      if s.needed.contains idx then (if s.mode == .raise then s.rejectImage e else s)
      else
        let s := if h.bad.isEmpty then s.wrN FR_ERR e.word else s
        s.onHand (fun h => { h with bad := h.bad ++ [idx] })

/-- SERVICE_START: raising has ended and epoch 0 begins (R49, R97, R101): Solo without pairing; Lead for identity 0 when both twins raise, or
under a lease override, with its time base Locked (R46); in Blank the frame runs in Bench (R94), where there are no epochs. -/
def serviceStart (t : Nat) (s : State) : State :=
  let s := s.tick t
  if s.mode != .raise || !s.dieOn || s.fr.hand.isNone || !s.raiseReady then s else
  if s.ks.lc == 0 then ((({ s with mode := .bench }).showFrame.wrN FR_COUNTER (hCounter s.fr.header)).bentsIn.setFld FR_STATUS 0 4 4).onFr (fun f => { f with hand := none })
  else if !s.mayBegin t then s
  else if !hFlag s.fr.header 0 then
    let s := s.beginService .solo 1 t
    beginDriving t (if s.fr.staged then s else s.onFr (fun f => { f with hand := none }))
  else if s.tb.st == .locked && (s.tw.lease || (s.tw.matched && s.pid == 0 && s.tw.peerRole != 0)) then
    let s := if s.tw.lease then s else s.takeLease t false
    beginDriving t ((s.beginService .lead 3 t).onFr (fun f => { f with hand := none }))
  else s

/-! ### Late bents (R97 to R100) -/

/-- At the start of FULLEP the late mortise bents enter service, and every bent whose section is not ready is isolated (R100). -/
def State.lateNow (s : State) : State :=
  match s.fr.hand with
  | none => s
  | some h => (List.range 13).foldl (fun s i =>
      if s.bent i != .awaiting then s else
      match assoc h.sects i with
      | some x => if i < 8 then s.lateBent i (some x) else s
      | none => s.lateBent i none) s

/-- Before the first input of FULLEP the other late bents enter service and full service is reached. -/
def State.lateProcess (s : State) : State :=
  match s.fr.hand with
  | none => s
  | some h =>
    let s := (List.range 13).foldl (fun s i => if s.bent i == .awaiting then s.lateBent i (assoc h.sects i) else s) s
    (s.fullService).onFr (fun f => { f with hand := none })

/-- LATE_BENTS_IN_SERVICE: the start of epoch FULLEP. -/
def lateBentsInService (n : Nat) (s : State) : State :=
  if s.fr.staged && !s.fr.full && n == hFullEp s.fr.header && s.ep.cur.any (fun c => n ≤ c) then s.lateNow else s

/-! ### Deltas (R104 to R121) -/

/-- The sections of the frame in service after a delta. -/
def State.sectsAfter (s : State) (d : Raising) : List (Nat × Octets) :=
  (List.range 13).filterMap (fun i =>
    match recOf d.recs i with
    | some r => if rEmpty r then none else (assoc d.sects i).map (fun x => (i, x))
    | none => (assoc s.fr.sects i).map (fun x => (i, x)))

/-- Does a delta bring a section for bent `i`? -/
def deltaSect (d : Raising) (i : Nat) : Option Octets :=
  match recOf d.recs i with
  | some r => if rEmpty r then none else assoc d.sects i
  | none => none

/-- The gateway as it will stand from G on: the profiles of the resulting frame, then its GB0; none where the delta's GB0 cannot be staged, which check 14
finds. -/
def State.gwAfter (s : State) (d : Raising) : Option State :=
  let s := match deltaSect d KB0 with
    | some x => if s.bentUp KB0 then s.kbSwap x else s.kbLoad x
    | none => s
  match deltaSect d GB0 with
  | none => some s
  | some x => if s.bentUp GB0 then (s.gwStage x).map (fun s => (s.onFr (fun f => { f with purgeG := .forward })).gwSwitch 0 x) else some (s.gwLoad x)

/-- Does the gateway of the frame that results suit its mortises, profiles and budget, with a delta that changes any of them (R281, R294)? -/
def State.deltaFits (s : State) (d : Raising) : Bool :=
  let recs := recsAfter s.fr.recs d.recs
  let after := s.sectsAfter d
  (assoc after GB0).isNone || (s.gwAfter d).all (fun s => s.gwOk (tenonIn recs after) (hLaneb s.fr.header))

/-- Check 15 and R553 over the sections of a delta, in bent code order, and the fit of the gateway that results. -/
def State.deltaSects (s : State) (d : Raising) : Option LoadErr :=
  let after := s.sectsAfter d
  let recs := recsAfter s.fr.recs d.recs
  ((List.range 13).findSome? (fun i =>
    match recOf d.recs i with
    | none => none
    | some r =>
      if rEmpty r then none else
      match assoc d.sects i with
      | none => some { code := 15, bent := bentCode i }
      | some x =>
        if sha256 x != slice r 0x20 32 then some { code := 15, bent := bentCode i }
        else if !s.sectOk s.fr.header recs after false i x then some { code := 1, bent := bentCode i }
        else none)) <|>
  s.misfit s.fr.header recs after false (fun j => j != GB0 && (deltaSect d j).isNone && (List.range 13).any (fun i => looksAt j i && (deltaSect d i).isSome)) <|>
  (if s.deltaFits d then none else some { code := 1, bent := bentCode GB0 })

/-- Check 14: stage the new entries of the tables (R116); refused while that table's purge runs, or where both generations do not fit (R118). -/
def State.stageDelta (s : State) (d : Raising) : Option LoadErr × State :=
  let tb := deltaSect d TB0
  let gb := deltaSect d GB0
  if tb.isSome && s.fr.purgeT != .none then (some { code := 14, bent := bentCode TB0 }, s) else
  if gb.isSome && s.fr.purgeG != .none then (some { code := 14, bent := bentCode GB0 }, s) else
  let a : Option State := match tb with
    | some x => if s.bentUp TB0 then s.tbStage x else some s
    | none => some s
  match a with
  | none => (some { code := 14, bent := bentCode TB0 }, s)
  | some s1 =>
    let s1 := if tb.isSome && s.bentUp TB0 then s1.onFr (fun f => { f with wroteT := true }) else s1
    match gb with
    | none => (none, s1)
    | some x =>
      if !s.bentUp GB0 then (none, s1) else
      match s1.gwStage x with
      | some s2 => (none, s2.onFr (fun f => { f with wroteG := true }))
      | none => (some { code := 14, bent := bentCode GB0 }, s1)

/-- DELTA_CHECK: FR_CTRL.START in service checks the delta in staging and writes its entries (R93, R104, R116, R458). The verdict is shown
when the check completes. -/
def deltaCheck (t : Nat) (s : State) : State :=
  let s := s.tick t
  if !(s.mode == .solo || s.mode == .lead || s.mode == .shadow) || s.bit FR_STATUS 5 || s.fr.checking || s.tw.admitted || s.fr.recs.isEmpty then s else
  let img := s.stageImg
  let d : Raising := { src := 2, header := img.take 0x200, recs := imageRecs img, sects := imageSects img, headerOk := true, startT := t }
  let front := 0x200 + 64 * hNrec img
  let e1 : Option LoadErr := if img.length < hImgLen img then some { code := 1 }
    else s.loadChecks { img := img, sig := slice img front 64, delta := true }
  let s := (s.setFld FR_STATUS 0 4 6).onFr (fun f => { f with checking := true, wroteT := false, wroteG := false, kept10 := false })
  match e1 with
  | some e => s.onFr (fun f => { f with delta := some { d with bad := [e.word] } })
  | none =>
    let e3 := s.deltaSects d
    let (e2, s) := s.stageDelta d
    s.onFr (fun f => { f with delta := some { d with bad := ((e2.or e3).map LoadErr.word).toList } })

/-- STAGE as it stands outside a check: staged or full service. -/
def State.stageBack (s : State) : State := s.setFld FR_STATUS 0 4 (if s.fr.full then 4 else 3)

/-- A check that ends without arming: what it wrote is purged (R118). -/
def State.endCheck (s : State) : State :=
  let t := s.fr.wroteT
  let g := s.fr.wroteG
  let s := (s.stageBack).onFr (fun f => { f with checking := false, delta := none, wroteT := false, wroteG := false })
  if t || g then s.beginPurge .reverse t g else s

/-- DELTA_ARMED: the check completes; the delta is armed, or refused with its code. -/
def deltaArmed (t : Nat) (s : State) : State :=
  let s := s.tick t
  if !s.fr.checking then s else
  match s.fr.delta with
  | none => s
  | some d =>
    match d.bad with
    | e :: _ => ((s.endCheck).wrN FR_ERR e).evt FR_EVENT 2
    | [] => (((s.stageBack).setBit FR_STATUS 5 true).evt FR_EVENT 4).onFr (fun f => { f with checking := false, gone01 := false })

/-- DELTA_ABORT: FR_CTRL.ABORT abandons a check in progress; ignored once armed. -/
def State.deltaAbort (s : State) : State := if s.fr.checking then s.endCheck else s

/-- STAGING_FORWARD: FR_CTRL.FWD copies the staging to the peer, in paired modes (R120). -/
def State.stagingForward (s : State) : State :=
  if (s.mode == .lead || s.mode == .shadow) && s.pairedFrame then let img := s.stageImg; s.onFr (fun f => { f with peerStage := img }) else s

/-- STAGING_ERROR: an uncorrectable error in armed staging (R104, R118, R552). -/
def stagingError (t : Nat) (s : State) : State :=
  let s := s.tick t
  if s.bit FR_STATUS 5 && !s.fr.switched then s.dropDelta.raiseFault 2 0x23 0xFF 0xFF else s

/-- SWAP_SCHEDULE: a swap command with OP 0x1 processed in epoch `c` (R105); its outcome is recorded (R554). A command stamped before G′ and processed
after G′ began finds the swap scheduled still, and is late. -/
def swapSchedule (c g : Nat) (s : State) : State :=
  let armed := s.bit FR_STATUS 5
  let refuse (s : State) (k : Nat) : State := (s.recordCmd c { accepted := false, event := k, armed := armed }).evt FR_EVENT k
  let early := match s.fr.swapAt with
    | some g' => armed && (decide (g' < c + 16) || s.fr.switched)
    | none => false
  if g < c + 16 || early then refuse s 6
  else if !armed then refuse s 7
  else (s.recordCmd c { armed := true }).onFr (fun f => { f with swapAt := some g })

/-- DELTA_DISARM: a swap command with OP 0x2 (R105, R118). -/
def deltaDisarm (c : Nat) (s : State) : State :=
  let armed := s.bit FR_STATUS 5
  let s := s.recordCmd c { armed := armed }
  if armed then s.dropDelta else s

/-- The new descriptor of mortise `j` of bent `k` in a delta: none where the delta leaves the bent alone; an empty bent is idle. -/
def deltaDesc (d : Raising) (k j : Nat) : Option Octets :=
  match recOf d.recs k with
  | none => none
  | some r => if rEmpty r then some (List.replicate 256 0) else (assoc d.sects k).map (fun x => mbDesc x j)

/-- Mortises a delta changes: of bents in service, those whose descriptor differs (R109). -/
def State.changedMorts (s : State) (d : Raising) : List (Nat × Octets) :=
  (List.range 128).filterMap (fun m =>
    if !s.bentUp (m / 16) then none
    else match deltaDesc d (m / 16) (m % 16) with
      | some x => if x == padTo 256 (s.mort m).nextDesc then none else some (m, x)
      | none => none)

/-- The start of epoch G (R106, R108, R111): changed mortises stop and are re-tenoned; mortise bents not in service enter with their new
sections. -/
def State.swapNow (s : State) (g : Nat) : State :=
  if s.fr.switched then s else
  match s.fr.delta with
  | none => s
  | some d =>
    let ch := s.changedMorts d
    let sects := s.fr.sects
    let new := match deltaSect d SB0 with
      | some x => assocPut sects SB0 x
      | none => sects
    let back := (List.range 8).filter (fun k => (deltaSect d k).isSome && !s.bentUp k)
    let s := s.onFr (fun f => { f with switched := true, back := back, sects := new })
    let s := ch.foldl (fun s x => s.retenon x.1 g x.2) s
    let s := (List.range 8).foldl (fun s k =>
      match deltaSect d k with
      | some x =>
        if back.contains k then (s.configMB k x).bentIn g k
        else { s with banks := updAt s.banks k (fun b => { b with decl := mbBankv x }) }
      | none => s) s
    let s := match deltaSect d SB0 with
      | some x => ((List.range 128).filter (fun m => !back.contains (m / 16))).foldl (fun (s : State) m => s.planSwap m x) s
      | none => s
    s.onFr (fun f => { f with sects := sects })

/-- SWAP: the start of epoch G on the time base. -/
def swap (g : Nat) (s : State) : State :=
  if s.fr.swapAt == some g && s.ep.cur.any (fun c => g ≤ c) then s.swapNow g else s

/-- One bent without mortises takes its new section (R108, R109): a bent in service follows its own rule; one out of service starts from the
defaults of the section. -/
def State.swapBent (s : State) (g i : Nat) (x : Octets) : State :=
  if !s.bentUp i then (s.configBent (i, x)).bentIn g i
  else if i == TB0 then s.tbSwitch x
  else if i == SB0 then s.sbSwap g x
  else if i == KB0 then s.kbSwap x
  else if i == GB0 then s.gwSwitch g x
  else s.pbLoad x

/-- The F2 handler ends when every bent isolated by an F2 is back in service (R466). -/
def State.f2Back (s : State) : State :=
  if !s.flt.f2Iso.isEmpty && s.flt.f2Iso.all (fun i => s.bent i != .isolated) then
    (s.endHandler 2).onFlt (fun f => { f with f2Iso := [] })
  else s

/-- The changes of the swap before the first input of epoch G (R106, R109, R116, R143): every bent of the delta at once. -/
def State.swapProcess (s : State) (g : Nat) : State :=
  match s.fr.delta with
  | none => s
  | some d =>
    let s := s.swapNow g
    let t := (deltaSect d TB0).isSome && s.bentUp TB0
    let gw := (deltaSect d GB0).isSome && s.bentUp GB0
    let s := s.beginPurge .forward t gw
    let s := ((List.range 128).filter (fun m => (s.mort m).newDesc.isSome && (s.mort m).swapG == g)).foldl (fun s m =>
      match deltaDesc d (m / 16) (m % 16) with
      | some x => s.retenonCovered m x
      | none => s) s
    let s := [PB0, TB0, SB0, KB0, GB0].foldl (fun s i =>
      match deltaSect d i with
      | some x => s.swapBent g i x
      | none => s) s
    let s := (d.recs.filter rEmpty).foldl (fun s r =>
      match bentIdx (rCode r) with
      | some i => s.setBent i .absent
      | none => s) s
    let after := s.sectsAfter d
    let s := s.onFr (fun f => { f with
      recs := recsAfter f.recs d.recs, sects := after, delta := none, swapAt := none, switched := false, back := [], wroteT := false, wroteG := false, kept10 := t })
    let s := s.showFrame.setBit FR_STATUS 5 false
    (s.evt FR_EVENT 5).f2Back

/-- PURGE_COMPLETE: the purge has gone through the tables (R118). -/
def purgeComplete (t : Nat) (s : State) : State :=
  let s := s.tick t
  if !s.bit FR_STATUS 6 then s else
  let fwd := s.fr.purgeT == .forward
  let s := if s.fr.purgeT == .none then s else s.tbPurge fwd
  let s := if s.fr.purgeG == .none then s else s.gwPurge (s.fr.purgeG == .forward)
  ((s.onFr (fun f => { f with purgeT := .none, purgeG := .none, gone01 := f.gone01 || fwd })).setBit FR_STATUS 6 false).evt FR_EVENT 10

end Sys2Proof.Machine
end

