-- ==== Sys2Proof/Machine/Sleep.lean ====
section
/-! DEFINITION. Machine/Sleep.lean: the sleep sequence, consent rings, partial networks and the awake time (R472 to R475, R478, R481, R486 to
R495). -/
namespace Sys2Proof.Machine
open Sys2Proof

/-! ### The sleep sequence in service -/

/-- DRMAX in µs: the largest DRAIN among the mortises that run a tenon (R474). -/
def State.drMax (s : State) : Nat := (s.mz.map (fun x => if x.tenon == .idle then 0 else leAt x.desc 2 2)).foldl max 0

/-- A sleep is decided in the processing of epoch `d` (R472, R473); while one is in progress the decision has no effect. -/
def State.decideSleep (s : State) (d : Nat) (forced : Bool) : State :=
  if s.wk.st != 0 then s else
  let prep := max 1 (s.fld WK_SLPCFG 4 10)
  let q := d + cdiv (prep * 1000000) s.elen
  let q := if s.wk.go == some d then min q (d + 1) else q
  let s := s.onWk (fun w => { w with
    st := 1, forced := forced, sill := s.bit WK_SLPCFG 1, qEp := some q, cEp := none, cancel := w.cancel.filter (fun x => x == d) })
  (((s.cPut WK_STATUS 0 2 1).cPut WK_STATUS 2 1 (b2n forced)).cInc (WK_CNT 0)).cEvt WK_EVENT 0

/-- A sleep is cancelled in the processing of epoch `x`, which is C at the latest (R475): its discards last to the end of that processing, latched wakes are
cleared. -/
def State.cancelSleep (s : State) (x : Nat) : State :=
  if s.wk.st == 0 || s.wk.benchAt.isSome || s.wk.cEp.any (fun c => decide (c < x)) then s else
  let s := s.onWk (fun w => { w with st := 0, forced := false, cEp := none, cancel := some x })
  let s := s.onSill (fun d => { d with latched := [] })
  (((s.cPut WK_STATUS 0 2 0).cPut WK_STATUS 2 1 0).cInc (WK_CNT 1)).cEvt WK_EVENT 1

/-- The processing of epoch `x` has completed: the discards of a sleep cancelled in it end, and the tenons take their pins again at the first
boundary 1 ms later (R475). -/
def State.sleepDone (s : State) (x : Nat) : State :=
  if s.wk.cancel != some x then s else
  s.onWk (fun w => { w with cancel := none, qEp := if w.st == 0 then none else w.qEp, pinsAt := if w.quiesce then some (s.now + 1000000) else w.pinsAt })

/-- Listeners the configuration enables. -/
def State.lstEnabled (s : State) : List Nat := (List.range 16).filter (fun k => s.bit (WK_LST_CFG k) 7)

/-- May a listener be armed (R481): its mortise runs the CAN tenon and its bank is not declared unpowered? -/
def State.lstMay (s : State) (k : Nat) : Bool :=
  let m := s.fld (WK_LST_CFG k) 0 7
  (s.mort m).tenon == .can && (nth s.banks (m / 16)).decl != 2

/-- The integrated PHYs that are not powered down: those whose mortise runs tenon 0x4 (R124), as bits. -/
def State.physUp (s : State) : Nat := (((List.range 16).filter (fun j => (s.mort (112 + j)).tenon == .t1sInt)).map (2 ^ ·)).sum

/-- The sill die takes the wake configuration and arms the sources of the target mode (R474, R476, R479, R481). -/
def State.armSill (s : State) : State :=
  let watch := !s.wk.sill
  let lst := if watch then ((s.lstEnabled.filter s.lstMay).map (2 ^ ·)).sum else 0
  let cfg := (List.range 16).flatMap (fun k =>
    [s.rdN (WK_LST_CFG k), s.rdN (WK_LST_ID k), s.rdN (WK_LST_MASK k), s.rdN (WK_LST_DATA_L k), s.rdN (WK_LST_DATA_H k)])
  let filt := (List.range 16).map (fun j => s.fld (T1_PHY (112 + j)) 18 8)
  s.onSill (fun d => { d with
    inEn := s.fld WK_WKCFG 0 8, inPol := s.fld WK_WKCFG 8 8, inFilt := max 1 (s.fld WK_WKCFG 16 8), timer := s.fld WK_TIMER 0 24
    phys := if watch then s.fld WK_T1SARM 0 16 &&& s.physUp else 0
    listeners := lst, lstCfg := cfg ++ filt, wkoAuto := s.bit WK_SLPCFG 2, dwell := s.fld WK_SLPCFG 16 8 })

/-- The start of quiesce: no new transmission, pins idle where nothing is on the wire, wake sources armed (R474, R481). -/
def State.beginQuiesce (s : State) : State :=
  let off := ((s.lstEnabled.filter (fun k => !s.lstMay k)).map (2 ^ ·)).sum
  let s := (s.onWk (fun w => { w with st := 2, quiesce := true, pinsAt := none, lstOff := off })).armSill
  let s := s.onSill (fun d => { d with latched := [], lstErr := List.replicate 16 0 })
  (List.range 128).foldl (fun s m => s.letGo m) s

/-- QUIESCE_START: the start of epoch Q on the time base; C follows from DRMAX (R474). WK_STATUS and WK_EVENT follow when the processing of Q
completes (R76, R149; `State.quiesceShow`). -/
def State.quiesceStart (t q : Nat) (s : State) : State :=
  let s := s.tick t
  if s.wk.st == 1 && s.wk.qEp == some q && s.ep.cur.any (fun c => q ≤ c) then
    let c := q + cdiv ((s.drMax + 1000) * 1000) s.elen
    (s.onWk (fun w => { w with cEp := some c })).beginQuiesce
  else s

/-- SLEEP_REQUEST: a processed write of WK_CTRL.SLEEP decides a forced sleep (R472); in Bench quiesce starts at once (R478); in Raise it is
ignored. -/
def State.sleepRequest (t c : Nat) (s : State) : State :=
  let s := s.tick t
  if s.mode == .bench then
    if s.wk.st != 0 then s else
    let until_ := s.now + (s.drMax + 1000) * 1000
    let s := s.onWk (fun w => { w with forced := true, sill := s.bit WK_SLPCFG 1, benchAt := some until_ })
    let s := s.beginQuiesce
    let s := (s.setFld WK_STATUS 0 2 2).setFld WK_STATUS 16 16 s.wk.lstOff
    ((s.setBit WK_STATUS 2 true).inc (WK_CNT 0)).evt WK_EVENT 0 |>.evt WK_EVENT 2
  else if s.mode == .raise then s
  else s.decideSleep c true

/-- SLEEP_GO: a processed write of WK_CTRL.SLPGO ends prepare with its epoch (R473), also where the sleep is decided later in that epoch. -/
def State.sleepGo (c : Nat) (s : State) : State :=
  let s := s.onWk (fun w => { w with go := some c })
  if s.wk.st == 1 then s.onWk (fun w => { w with qEp := w.qEp.map (fun q => min q (c + 1)) }) else s

/-- SLEEP_CANCEL: a cancel source is processed: in the epoch being processed, or in the one processed last, up to the commit point. -/
def State.sleepCancel (t : Nat) (s : State) : State :=
  let s := s.tick t
  match s.ep.running with
  | some x => s.cancelSleep x
  | none =>
    let x := s.ep.done.getD 0
    if s.wk.cEp.any (fun c => decide (c ≤ x)) then s else (s.cancelSleep x).applyHeld.sleepDone x

/-! ### Wake listener filters (R480) -/

/-- Does a filter (CFG, ID, MASK, DATA_L, DATA_H) match a classic data frame? -/
def lstMatch (cfg id mask dl dh : Nat) (r : Octets) : Bool :=
  let idw := recIdw r
  let dm := dl + 2 ^ 32 * dh
  recFmt r == 0 && !idw.testBit 30 && idw.testBit 29 == cfg.testBit 10 && (idw &&& mask) % 2 ^ 29 == (id &&& mask) % 2 ^ 29 &&
  (!cfg.testBit 12 || recDlc r == bitsN cfg 13 4) && (dm == 0 || (leNat (recData r) &&& dm) != 0)

/-- The filter of listener `k` from its registers. -/
def State.lstHit (s : State) (k : Nat) (r : Octets) : Bool :=
  lstMatch (s.rdN (WK_LST_CFG k)) (s.rdN (WK_LST_ID k)) (s.rdN (WK_LST_MASK k)) (s.rdN (WK_LST_DATA_L k)) (s.rdN (WK_LST_DATA_H k)) r

/-- From Q on a frame that an armed listener's filter matches cancels the sleep (R475). -/
def State.frameCancels (s : State) (n m : Nat) (r : Octets) : State :=
  if s.wk.st != 0 && s.wk.qEp.any (fun q => q ≤ n) &&
      (List.range 16).any (fun k => s.sill.listeners.testBit k && s.fld (WK_LST_CFG k) 0 7 == m && s.lstHit k r) then s.cancelSleep n else s

/-- From Q on a wake event of an armed PHY, or of any LIN mortise, cancels the sleep (R475). -/
def State.eventCancels (s : State) (n m code : Nat) : State :=
  let ten := (s.mort m).tenon
  let hit := code == 5 && (ten == .lin || (ten == .t1sInt && 112 ≤ m && s.bit WK_T1SARM (m - 112)))
  if s.wk.st != 0 && s.wk.qEp.any (fun q => q ≤ n) && hit then s.cancelSleep n else s

/-! ### Consent rings (R487 to R491) -/

/-- ready(r) (R488). -/
def State.ringReady (s : State) (r : Nat) : Bool := !s.bit WK_RVOTE r || s.wk.expired

/-- A ring's time in epochs. -/
def State.ringEps (s : State) (ms : Nat) : Nat := cdiv (ms * 1000000) s.elen

/-- DTYP of a ring. -/
def State.ringTyp (s : State) (r : Nat) : Nat := s.ringEps (s.fld (WK_RNG_TIM r) 0 12)

/-- DMAXEP of a ring. -/
def State.ringMax (s : State) (r : Nat) : Nat := s.ringEps (s.fld (WK_RNG_TIM r) 16 12)

/-- The ring's record. -/
def State.ring (s : State) (r : Nat) : Ring := nth s.wk.rings r

/-- The machine with a ring changed. -/
def State.onRing (s : State) (r : Nat) (f : Ring → Ring) : State := s.onWk (fun w => { w with rings := updAt w.rings r f })

/-- Own node of a ring. -/
def State.ringNode (s : State) (r : Nat) : Nat := s.fld (WK_RNG_CFG r) 8 6

/-- The members in epoch `n` (R488), the own node among them. -/
def State.ringMembers (s : State) (n r : Nat) : List Nat :=
  (List.range 64).filter (fun k => k == s.ringNode r || ((s.ring r).members.any (fun p => p.1 == k && decide (n < p.2 + s.ringMax r))))

/-- The successor of the own node. -/
def State.ringNext (s : State) (n r : Nat) : Nat :=
  let l := s.ringMembers n r
  ((l.find? (fun k => decide (s.ringNode r < k))).or l.head?).getD (s.ringNode r)

/-- Enqueue a ring frame in class 7 of the ring's mortise (R487). -/
def State.ringSend (s : State) (n r dest flags consent : Nat) : State :=
  let id := s.fld (WK_RNG_CFG r) 16 11 + s.ringNode r
  let rec_ := natLE 4 id ++ [0, 3] ++ natLE 2 3 ++ zeros 8 ++ [BitVec.ofNat 8 dest, BitVec.ofNat 8 flags, BitVec.ofNat 8 consent]
  s.enqueue n { port := s.fld (WK_RNG_CFG r) 0 7, cls := 7, octets := rec_, rel := n + 1 + s.ep.lag }

/-- The ring becomes asleep. -/
def State.ringSleep (s : State) (r : Nat) : State :=
  if (s.ring r).asleep then s else (s.onRing r (fun x => { x with asleep := true, pass := none })).cEvt WK_EVENT 3

/-- The ring leaves the asleep state: an ALIVE frame follows in the next timer step, and an automatic sleep is cancelled (R475, R490). -/
def State.ringWake (s : State) (n r : Nat) : State :=
  if !(s.ring r).asleep then s else
  let s := (s.onRing r (fun x => { x with asleep := false, owe := true, tokenAt := n })).cEvt WK_EVENT 4
  if s.wk.forced then s else s.cancelSleep n

/-- One processed ring frame of node `node` (R487 to R491). -/
def State.ringFrame (s : State) (n r node : Nat) (d : Octets) : State :=
  let own := s.ringNode r
  let fl := oct d 1
  let s := if node == own then s else s.onRing r (fun x => { x with members := assocPut x.members node n })
  let s := if fl.testBit 0 && oct d 0 == own then
      s.onRing r (fun x => { x with pass := some (n + s.ringTyp r, oct d 2), tokenAt := n, lost := false })
    else s
  let s := if fl.testBit 3 then s.onRing r (fun x => { x with aliveAt := some n }) else s
  if fl.testBit 2 then (if s.ringReady r then s.ringSleep r else s) else s.ringWake n r

/-- The rings that read a frame of mortise `m` (R487). -/
def State.ringInput (s : State) (n m : Nat) (r : Octets) : State :=
  let idw := recIdw r
  (List.range 32).foldl (fun s k =>
    let cfg := s.rdN (WK_RNG_CFG k)
    let base := bitsN cfg 16 11
    if cfg.testBit 7 && bitsN cfg 0 7 == m && recFmt r == 0 && !idw.testBit 29 && !idw.testBit 30 && recDlc r == 3 &&
        decide (base ≤ idw % 2048) && decide (idw % 2048 < base + 64) then s.ringFrame n k (idw % 2048 - base) (recData r)
    else s) s

/-- Pass the ring frame on (R489). -/
def State.ringDoPass (s : State) (n r c : Nat) : State :=
  let rdy := s.ringReady r
  let new := if rdy then min (c + 1) 255 else 0
  let ack := rdy && decide ((s.ringMembers n r).length ≤ new)
  let s := s.ringSend n r (s.ringNext n r) (1 + 2 * b2n rdy + 4 * b2n ack) new
  let s := s.onRing r (fun x => { x with pass := none, consent := new })
  if ack then s.ringSleep r else s

/-- Send an ALIVE frame (R490). -/
def State.ringAlive (s : State) (n r : Nat) : State :=
  (s.ringSend n r (s.ringNode r) 8 0).onRing r (fun x => { x with owe := false, aliveAt := some n, consent := 0 })

/-- Is a pass of ring `r` due in epoch `n` (R489)? -/
def State.passDue (s : State) (n r : Nat) : Bool := !(s.ring r).asleep && (s.ring r).pass.any (fun p => p.1 ≤ n)

/-- Does this device start ring `r` in epoch `n` (R491)? -/
def State.startDue (s : State) (n r : Nat) : Bool :=
  !(s.ring r).asleep && (s.ring r).aliveAt.any (fun a => a + s.ringTyp r == n) && (s.ringMembers n r).head? == some (s.ringNode r)

/-- Is ring `r` lost in epoch `n` (R491)? -/
def State.lossDue (s : State) (n r : Nat) : Bool := !(s.ring r).asleep && decide ((s.ring r).tokenAt + s.ringMax r ≤ n)

/-- WK_RNGr_STAT as the epoch leaves it. -/
def State.ringShow (s : State) (n r : Nat) : State :=
  let x := s.ring r
  s.cPut (WK_RNG_STAT r) 0 32 (b2n x.asleep + 2 * b2n x.lost + 4 * b2n x.pass.isSome + 256 * (s.ringMembers n r).length + 65536 * x.consent)

/-- The timer step of ring `r` (R486 to R491). -/
def State.ringStep (s : State) (n r : Nat) : State :=
  if !s.bit (WK_RNG_CFG r) 7 then s else
  let s := if (s.ring r).asleep && !s.ringReady r then s.ringWake n r else s
  let s := if (s.ring r).owe && !(s.ring r).asleep then s.ringAlive n r else s
  let s := match (s.ring r).pass with
    | some (e, c) => if !(s.ring r).asleep && e ≤ n then s.ringDoPass n r c else s
    | none => s
  let s := if s.startDue n r then (s.onRing r (fun x => { x with aliveAt := none })).ringDoPass n r 0 else s
  let s := if s.lossDue n r then
      ((s.onRing r (fun x => { x with lost := true, members := [], tokenAt := n })).cEvt WK_EVENT 5).ringAlive n r
    else s
  let alone := (s.ringMembers n r).length == 1
  let s := s.onRing r (fun x => { x with aloneAt := if alone then x.aloneAt else n + 1 })
  let s := if alone && decide ((s.ring r).aloneAt + s.ringMax r ≤ n + 1) && s.ringReady r then s.ringSleep r else s
  s.ringShow n r

/-! ### Partial networks (R492 to R495) -/

/-- The partial network's record. -/
def State.net (s : State) (p : Nat) : PartNet := nth s.wk.nets p

/-- The machine with a partial network changed. -/
def State.onNet (s : State) (p : Nat) (f : PartNet → PartNet) : State := s.onWk (fun w => { w with nets := updAt w.nets p f })

/-- A keep-alive input with its vector, from port code `port`, in epoch `n` (R492, R495): true when every enabled network in the vector is
blocked for the port, so that the input goes no further. -/
def State.keepAlive (s : State) (n vec port : Nat) : Bool × State :=
  let l := (List.range 32).filter (fun p => vec.testBit p && s.bit (WK_PN_CFG p) 16)
  let free := l.filter (fun p => !(s.net p).blocked.contains port)
  if !l.isEmpty && free.isEmpty then (true, (s.cInc (WK_CNT 3)).cEvt WK_EVENT 9)
  else (false, free.foldl (fun s p =>
    s.onNet p (fun x => { x with until_ := some (n + s.ringEps (s.fld (WK_PN_CFG p) 0 16)), lastport := port })) s)

/-- The timer step of partial network `p` (R493). -/
def State.netStep (s : State) (n p : Nat) : State :=
  if !s.bit (WK_PN_CFG p) 16 then s else
  let s := s.onNet p (fun x => { x with until_ := x.until_.filter (fun e => decide (n < e)) })
  let now_ := (s.net p).until_.isSome || s.pnOwn p
  let was := (s.net p).awake
  let s := s.onNet p (fun x => { x with awake := now_ })
  let s := if now_ && !was then
      let s := s.cEvt WK_EVENT 6
      if s.wk.forced then s else s.cancelSleep n
    else if was && !now_ then s.cEvt WK_EVENT 7 else s
  let x := s.net p
  s.cPut (WK_PN_STAT p) 0 32 (b2n now_ + 2 * b2n (s.pnOwn p) + 4 * b2n (x.blocked.contains x.lastport) + 256 * x.lastport)

/-- The maximum awake time expires (R495). -/
def State.awakeExpire (s : State) : State :=
  let s := s.onWk (fun w => { w with expired := true })
  let s := (List.range 32).foldl (fun s p =>
    if s.bit (WK_PN_CFG p) 16 && s.bit (WK_PN_CFG p) 17 && (s.net p).until_.isSome then
      s.onNet p (fun x => { x with blocked := if x.blocked.contains x.lastport then x.blocked else x.blocked ++ [x.lastport] })
    else s) s
  (s.cPut WK_STATUS 3 1 1).cEvt WK_EVENT 8

/-- Does the awake time of the epoch being processed reach its maximum (R495)? -/
def State.awakeDue (s : State) : Bool :=
  !s.wk.expired && s.fld WK_MAXAW 0 16 != 0 && decide (cdiv (s.fld WK_MAXAW 0 16 * 1000000000) s.elen ≤ s.wk.awake + 1)

/-- AWAKE_RESTART: a processed write of WK_CTRL.AWRST (R495). -/
def State.awakeRestart (s : State) : State :=
  (s.onWk (fun w => { w with awake := 0, expired := false, nets := w.nets.map (fun x => { x with blocked := [] }) })).cPut WK_STATUS 3 1 0

/-- The processing of epoch `n` shows that quiesce began, in Q or, where its start was found later, in the first epoch after it: SLPST, LSTOFF and
WK_EVENT.QUIESCE are covered by the guarantee (R76, R149, R474, R481). A sleep cancelled before Q shows no quiesce. -/
def State.quiesceShow (s : State) (n : Nat) : State :=
  if !s.wk.quiesce || s.fld WK_STATUS 0 2 != 1 || !s.wk.qEp.any (fun q => q ≤ n) || (s.wk.st != 2 && s.wk.cancel != some n) then s else
  let s := if s.wk.st == 2 then s.cPut WK_STATUS 0 2 2 else s
  (s.cPut WK_STATUS 16 16 s.wk.lstOff).cEvt WK_EVENT 2

/-! ### The timer step (R486) -/

/-- Nothing of the WK timer step of the epoch is done yet. -/
def State.wkBegin (s : State) : State := s.onWk (fun w => { w with ringsDone := 0, netsDone := 0, woke := false })

/-- The awake time counts the epoch, after the gateway's timer step. -/
def State.wkStart (s : State) (n : Nat) : State :=
  if s.wk.woke then s else
  let s := s.gwTimer n
  let s := if s.awakeDue then s.awakeExpire else s
  s.onWk (fun w => { w with awake := w.awake + 1, woke := true })

/-- The rings up to the first `k` of them. -/
def State.wkRings (s : State) (n k : Nat) : State :=
  let s := s.wkStart n
  let from_ := s.wk.ringsDone
  let s := ((List.range k).filter (fun r => decide (from_ ≤ r))).foldl (fun s r => s.ringStep n r) s
  s.onWk (fun w => { w with ringsDone := max from_ k })

/-- The partial networks up to the first `k` of them, after all the rings. -/
def State.wkNets (s : State) (n k : Nat) : State :=
  let s := s.wkRings n 32
  let from_ := s.wk.netsDone
  let s := ((List.range k).filter (fun p => decide (from_ ≤ p))).foldl (fun s p => s.netStep n p) s
  s.onWk (fun w => { w with netsDone := max from_ k })

/-- The WK timer step of epoch `n`, or what is left of it, with the automatic sleep decision (R472). -/
def State.wkTimer (s : State) (n : Nat) : State :=
  let s := s.wkNets n 32
  let quiet := s.bit WK_SLPCFG 0 && !s.bit WK_VOTE 0 &&
    (List.range 32).all (fun r => !s.bit (WK_RNG_CFG r) 7 || (s.ring r).asleep) &&
    (List.range 32).all (fun p => !s.bit (WK_PN_CFG p) 16 || !(s.net p).awake)
  if quiet then s.decideSleep n false else s

/-- Is epoch `n` being processed, with ring `r` still to do? -/
def State.ringTurn (s : State) (n r : Nat) : Bool := s.ep.running == some n && decide (r < 32) && decide (s.wk.ringsDone ≤ r) && s.bit (WK_RNG_CFG r) 7

/-- RING_PASS: the pass of a token, in the timer step of its epoch, after the rings before it. -/
def State.ringPass (n r : Nat) (s : State) : State :=
  if s.ringTurn n r && (s.wkRings n r).passDue n r then s.wkRings n (r + 1) else s

/-- RING_START: the lowest member starts the ring. -/
def State.ringStart (n r : Nat) (s : State) : State :=
  if s.ringTurn n r && (s.wkRings n r).startDue n r then s.wkRings n (r + 1) else s

/-- RING_LOST: no token for DMAXEP epochs. -/
def State.ringLost (n r : Nat) (s : State) : State :=
  if s.ringTurn n r && (s.wkRings n r).lossDue n r then s.wkRings n (r + 1) else s

/-- PN_TIMEOUT: the timer of a partial network ends in the timer step of the epoch being processed. -/
def State.pnTimeout (n p : Nat) (s : State) : State :=
  if s.ep.running == some n && decide (p < 32) && decide (s.wk.netsDone ≤ p) && (s.net p).until_.any (fun e => e ≤ n) then s.wkNets n (p + 1) else s

/-- MAX_AWAKE_EXPIRY: the maximum awake time expires in the timer step of the epoch being processed. -/
def State.maxAwakeExpiry (n : Nat) (s : State) : State :=
  if s.ep.running == some n && !s.wk.woke && s.awakeDue then s.wkStart n else s

end Sys2Proof.Machine
end

