-- ==== Sys2Proof/Machine/Sill.lean ====
section
/-! DEFINITION. Machine/Sill.lean: the sill die: power supplies and resets, the way into Watch and Sill, wake sources, the start of the frame die,
WAKE_OUT, and mode requests (R17, R30, R434, R476 to R485, R528 to R536, R543). -/
namespace Sys2Proof.Machine
open Sys2Proof

/-- One period of the 32.768 kHz clock in ns, rounded up. -/
def sillPeriod : Nat := 30518

/-- Does the sill die keep time on its RC fallback: until the crystal has started, 500 ms after VSILL (R536), and after a failure of the crystal (R17)?
DEDUCED (log 30): the crystal runs from the end of the 500 ms. -/
def State.onRc (s : State) : Bool := s.sill.oscFail || decide (s.now < s.sill.vsillAt + 500000000)

/-- SYSRESET_N is low whenever the frame die is not out of reset (R532). -/
def State.sysresetLow (s : State) : Bool := !s.dieOn

/-- PWR_EN0 to PWR_EN3 (R528, R530): asserted 0.5 ms apart from the wake acted on, and released at sleep from PWR_EN3 on, 0.2 ms apart from the commit
point; a power-up that failed starts them again after its pause. -/
def State.pwrEn (s : State) (k : Nat) : Bool :=
  if s.sill.enables then s.sill.powerT.all (fun p => decide (p + 500000 * k ≤ s.now))
  else (s.mode == .sill || s.mode == .watch) && !s.sill.poreset && s.sill.commitAt != 0 && decide (s.now < s.sill.commitAt + 800000 - 200000 * k)

/-- Are the wake sources watched with the frame die off: Sill or Watch, VSILL present, PORESET_N high, no wake being acted on? -/
def State.asleep (s : State) : Bool := (s.mode == .sill || s.mode == .watch) && s.sill.vsill && !s.sill.poreset && !s.dieOn

/-- Has the sill die armed its sources in quiesce (R474)? -/
def State.armedInQuiesce (s : State) : Bool := s.dieOn && s.wk.st == 2

/-- Latch a wake (R477): one that comes before the commit point is marked. -/
def State.latch (s : State) (t src idx : Nat) : State :=
  if s.asleep then s.onSill (fun d => { d with latched := d.latched ++ [{ src := src, idx := idx, at_ := t }] })
  else if s.armedInQuiesce then s.onSill (fun d => { d with latched := d.latched ++ [{ src := src, idx := idx, post := true, at_ := t }] })
  else s

/-! ### Going to sleep -/

/-- Is the commit point reached (R475, R478)? -/
def State.atCommit (s : State) (t : Nat) : Bool :=
  s.wk.st == 2 &&
  match s.wk.benchAt with
  | some b => decide (b ≤ t)
  | none => s.wk.cancel.isNone && s.wk.cEp.any (fun c => s.ep.done.any (fun d => decide (c ≤ d)))

/-- SLEEP_COMMIT: the frame die hands over the sleep order with the wake configuration and is powered down (R476); its DRAM goes with its
supply, pins take PSLEEP (R133). A listener stays armed when it was armed at Q and is enabled still. -/
def sleepCommit (t : Nat) (s : State) : State :=
  let s := s.tick t
  if !s.dieOn || !s.atCommit t then s else
  let md : Mode := if s.wk.sill then .sill else .watch
  let was := s.sill.listeners
  let s := s.armSill
  let s := s.dieReset .psleep
  let s := s.onSill (fun d => { d with
    listeners := d.listeners &&& was, enables := false, inh := md == .watch, commitAt := t, powerT := none, fails := 0 })
  { s with mode := md, mem := [] }

/-- WATCH_DWELL_EXPIRY: DWELL hours in Watch without a wake; listeners and PHYs are disarmed, INH falls, the mode is Sill (R483). -/
def watchDwellExpiry (t : Nat) (s : State) : State :=
  let s := s.tick t
  let d := s.sill
  if s.mode == .watch && s.asleep && d.dwell != 0 && d.latched.isEmpty && !d.enables && d.commitAt + d.dwell * 3600000000000 ≤ t then
    { s.onSill (fun d => { d with listeners := 0, phys := 0, inh := false }) with mode := .sill }
  else s

/-! ### Wake sources (R479, R480) -/

/-- WAKE_IN_DETECT: a WAKE_IN pin has held its active level for INFILT periods. -/
def wakeInDetect (t pin : Nat) (s : State) : State :=
  let s := s.tick t
  if decide (pin < 8) && s.sill.inEn.testBit pin then s.latch t 1 pin else s

/-- The words the sill die holds of listener `k`: CFG, ID, MASK, DATA_L, DATA_H. -/
def State.lstWord (s : State) (k i : Nat) : Nat := s.sill.lstCfg.getD (5 * k + i) 0

/-- WAKE_LISTENER_MATCH: an armed listener has decoded a frame, or one that ended in an error (R480). An FD frame counts as an error unless
FDTOL is set. With ERRWAKE the count of errors wakes at 32, and a valid frame takes one off. -/
def wakeListenerMatch (t k : Nat) (byError : Bool) (rec_ : Octets) (s : State) : State :=
  let s := s.tick t
  if !(decide (k < 16) && s.sill.listeners.testBit k && (s.asleep && s.mode == .watch || s.armedInQuiesce)) then s else
  let cfg := s.lstWord k 0
  let fd := recFmt rec_ != 0
  let err := byError || (fd && !cfg.testBit 11)
  let cnt := nth s.sill.lstErr k
  let new := if !cfg.testBit 17 then cnt else if err then cnt + 1 else if fd then cnt else cnt - 1
  let s := s.onSill (fun d => { d with lstErr := updAt d.lstErr k (fun _ => new) })
  let full := cfg.testBit 17 && err && decide (32 ≤ new)
  let hit := !err && !fd && lstMatch cfg (s.lstWord k 1) (s.lstWord k 2) (s.lstWord k 3) (s.lstWord k 4) rec_
  if full || hit then s.latch t 2 k else s

/-- PHY_WAKE_DETECT: a wake on an integrated PHY (R238): in service event 0x05, in Watch, or once armed in quiesce, a wake. -/
def phyWakeDetect (t m us : Nat) (s : State) : State :=
  let s := t1sWakeInService t m us s
  let j := m - 112
  let armed := decide (112 ≤ m) && decide (m < 128) && s.sill.phys.testBit j && decide (s.sill.lstCfg.getD (80 + j) 0 < us)
  if armed && (s.mode == .watch || s.armedInQuiesce) then s.latch t 3 j else s

/-- SILL_TIMER_WAKE: WK_TIMER.SEC seconds after the commit point. -/
def sillTimerWake (t : Nat) (s : State) : State :=
  let s := s.tick t
  if s.sill.timer != 0 && s.asleep && s.sill.commitAt + s.sill.timer * 1000000000 ≤ t then
    (s.latch t 4 0).onSill (fun d => { d with timer := 0 })
  else s

/-- Tamper with WAKE set is a wake source once armed in quiesce, too (R474, R479). -/
def State.tamperWake (s : State) (t src : Nat) : State :=
  if s.armedInQuiesce && (nth s.ks.cur.tamp src).testBit 2 && (nth s.ks.cur.tamp src).testBit 0 then s.latch t 5 src else s

/-! ### WAKE_OUT (R485, R543) -/

/-- Start a pulse on WAKE_OUT, unless it is off or the last one started within 100 ms. -/
def State.startPulse (s : State) (t : Nat) : State :=
  let d := s.sill
  let soon := d.pulseAt.any (fun p => decide (t < p + 100000000))
  if d.wkIlim == 0 || !d.raised || soon then s else s.onSill (fun d => { d with pulseAt := some t, pulseOn := true })

/-- WAKE_OUT_REQUEST: a processed write of WK_CTRL.WKOUT. -/
def wakeOutRequest (t : Nat) (s : State) : State :=
  let s := s.tick t
  if s.dieOn then s.startPulse t else s

/-- WAKE_OUT_PULSE_END: the pulse ends after WKPULSE µs, at the least 95 % of it. -/
def wakeOutPulseEnd (t : Nat) (s : State) : State :=
  let s := s.tick t
  if s.sill.pulseOn && s.sill.pulseAt.any (fun p => decide (100 * p + 95 * 1000 * s.sill.wkPulse ≤ 100 * t)) then
    s.onSill (fun d => { d with pulseOn := false })
  else s

/-- DRIVER_OVER_TEMPERATURE: the pulse in progress ends at once. -/
def driverOverTemperature (t : Nat) (s : State) : State := (s.tick t).onSill (fun d => { d with pulseOn := false })

/-! ### Acting on a wake, and the start of the frame die -/

/-- The instant at which a latched wake is acted on (R477): its own, or 3.0 ms after the commit point. -/
def State.wakeTime (s : State) (w : WakeRec) : Nat := max w.at_ (s.sill.commitAt + (if w.src == 0 then 0 else 3000000))

/-- The wake recorded (R484): the lowest source, then index, within one period of the first. -/
def State.wakePick (s : State) : Option WakeRec :=
  match (sortBy WakeRec.at_ s.sill.latched).head? with
  | none => none
  | some f => (sortBy (fun w => w.src * 256 + w.idx) (s.sill.latched.filter (fun w => decide (w.at_ < f.at_ + sillPeriod)))).head?

/-- WAKE_ACTED: raising begins: SL_WKSRC is written, the enables and INH are asserted (R528), and the automatic pulse is given (R485). -/
def wakeActed (t : Nat) (s : State) : State :=
  let s := s.tick t
  if !s.asleep || s.sill.enables then s else
  match s.wakePick with
  | none => s
  | some w =>
    if t < s.wakeTime w then s else
    let s := s.onSill (fun d => { d with
      wkSrc := w.src + w.idx * 2 ^ 8 + b2n w.post * 2 ^ 12 + b2n (s.mode == .watch) * 2 ^ 13
      enables := true, inh := true, powerT := some t, fails := 0, latched := [] })
    if w.src != 0 && s.sill.wkoAuto then s.startPulse t else s

/-- FRAME_DIE_START: every rail in range, the oscillator stable and the PLLs locked: the frame die leaves reset and is in Raise (R529); so
does one whose reset by an F4 has ended (R468). -/
def frameDieStart (t : Nat) (s : State) : State :=
  let s := s.tick t
  let d := s.sill
  if d.vsill && !d.poreset && d.enables && !d.dieOn && !d.under && d.powerT.all (fun p => decide (p ≤ t)) then s.dieStart t else s

/-- POWERUP_TIMEOUT: the frame die is not out of reset 20 ms after the wake: the enables fall for 100 ms, and after the third failure they
stay released until the next wake (R530). -/
def powerupTimeout (t : Nat) (s : State) : State :=
  let s := s.tick t
  let d := s.sill
  match d.powerT with
  | none => s
  | some p =>
    if d.dieOn || !d.enables || t < p + 20000000 then s
    else if d.fails + 1 < 3 then s.onSill (fun d => { d with fails := d.fails + 1, powerT := some (t + 100000000) })
    else s.onSill (fun d => { d with fails := 0, enables := false, powerT := none, inh := s.mode == .watch })

/-- RAIL_UNDERVOLTAGE: one of the six core-domain rails below 90 % for 2 µs resets the frame die; the enables stay (R531). -/
def railUndervoltage (t rail : Nat) (s : State) : State :=
  let s := s.tick t
  if s.dieOn && decide (rail < 6) then
    let s := s.dieReset .highZ
    { s.onSill (fun d => { d with under := true, powerT := none }) with mode := .raise }
  else s

/-- RAIL_RECOVERY: every rail is back in range; the frame die starts again under R529. -/
def railRecovery (t : Nat) (s : State) : State := (s.tick t).onSill (fun d => { d with under := false })

/-! ### Supplies and resets -/

/-- OSC32_FAILURE: the sill die goes on on its RC fallback and records the switch (R17). -/
def osc32Failure (t : Nat) (s : State) : State :=
  let s := s.tick t
  if s.sill.vsill then s.onSill (fun d => { d with oscFail := true }) else s

/-- What a reset through PORESET_N leaves (R534): registers, records and lock bits clear; NVKM, the pair generation, the sill die's time, what
the sill die keeps of the frame raised last, and the levels outside (bank supplies) stay. Pins are high-impedance (R130). -/
def State.powerReset (s : State) : State :=
  let d := s.sill
  { s with
    mode := .sill
    regs := []
    mem := []
    held := []
    bus := {}
    tb := {}
    ep := {}
    fr := {}
    flt := {}
    mz := List.replicate 128 {}
    banks := s.banks.map (fun b => { b with decl := 2 })
    bays := List.replicate 12 {}
    gw := {}
    tab := {}
    sch := {}
    ks := { banks := s.ks.banks, bank := s.ks.bank, cur := s.ks.cur, commits := s.ks.commits, last := s.ks.last, tamperPend := s.ks.tamperPend }
    cp := {}
    tw := { pairId := s.tw.pairId, gen := s.tw.gen }
    wk := {}
    pw := {}
    hb := {}
    sill := { vsill := d.vsill, poreset := true, vsillAt := d.vsillAt, oscFail := d.oscFail, wkPulse := d.wkPulse, wkIlim := d.wkIlim, wkVolt := d.wkVolt, raised := d.raised, pulseAt := d.pulseAt, egressClk := false } }

/-- PORESET_ASSERT: PORESET_N low for 10 µs (R534). -/
def poresetAssert (s : State) : State := if s.sill.vsill then s.powerReset.gradeRegs else s

/-- PORESET_RELEASE: TWIN_ID is sampled (R430), and the release is a wake (R479). -/
def poresetRelease (t : Nat) (twinId : Bool) (s : State) : State :=
  let s := s.tick t
  if !s.sill.vsill || !s.sill.poreset then s else
  let s := s.onTw (fun w => { w with pairId := twinId })
  (s.onSill (fun d => { d with poreset := false, commitAt := 0 })).latch t 0 0

/-- VSILL_APPLIED: the sill die starts on its RC fallback, and the device is in Sill with PORESET_N low still (R17, R534). -/
def vsillApplied (t : Nat) (s : State) : State :=
  let s := s.tick t
  if s.sill.vsill then s else
  let s := s.powerReset.gradeRegs
  s.onSill (fun d => { d with vsill := true, vsillAt := t, oscFail := false, raised := false, pulseAt := none })

/-- VSILL_LOSS: the sill die stops; NVKM alone is kept, and the pair generation reads 0 (R434). -/
def vsillLoss (s : State) : State :=
  if !s.sill.vsill then s else
  let s := s.powerReset
  { s with mode := .off, tw := {}, ks := s.ks.power, sill := { egressClk := false } }

/-! ### Mode requests -/

/-- MODE_REQUEST: a host in the secure world asks for a mode (R30): Raise from Hold or Bench, which reads the image FR_CTRL.SRC selects (R96),
or Bench from Raise or Hold. Any other request is ignored and recorded as an F0 notice with cause 0x01. -/
def modeRequest (ms : Master) (w : World) (target : Mode) (s : State) : State :=
  if !s.dieOn then s else
  let host := (ms == .pcie0 || ms == .spi) && w == .secure
  match host, s.mode, target with
  | true, .hold, .raise => hostRaise s.now s
  | true, .bench, .raise => hostRaise s.now s
  | true, .raise, .bench => s.enterBench
  | true, .hold, .bench => s.holdToBench
  | _, _, _ => s.notice 0x01

end Sys2Proof.Machine
end

