-- ==== Sys2Proof/Machine/Commands.lean ====
section
/-! DEFINITION. Machine/Commands.lean: what a write of a ledger-input field does when its epoch is processed, or at once in Raise and Bench (R52,
R57, R105, R142 to R145, R180 to R187, R220 to R222, R235, R237, R254, R298, R319, R341, R357, R358, R362, R363, R367, R388, R428, R440,
R472 to R475, R485, R487 to R495). -/
namespace Sys2Proof.Machine
open Sys2Proof

/-- A register with the bits of `mask` taken from `v`. -/
def State.putMask (s : State) (a v mask : Nat) : State := s.wrN a (v % 2 ^ 32 &&& mask ||| (s.rdN a &&& (0xFFFFFFFF ^^^ mask)))

/-! ### Command registers with captured operands (R298) -/

/-- A write of SG_CMDOP stamped in epoch `c`: `v` is OP and TRIG, `cap` the index, SG_CMDOFF and the data words (R298, R299). -/
def State.sgCommand (c v : Nat) (cap : List Nat) (s : State) : State :=
  let idx := cap.getD 0 0
  let off := cap.getD 1 0
  let d := cap.drop 2
  match v % 16 with
  | 1 => routeWrite c idx d s
  | 2 => cellWrite idx d s
  | 3 => pduDescriptorWrite c idx d s
  | 4 => imageWrite idx (bitsN off 0 14) (bitsN off 16 7) (v.testBit 4) d s
  | 5 => hostSend idx s
  | 6 => restartTimeout c idx s
  | _ => s.gwRefuse

/-- A write of TB_CMDOP (R319, R320). -/
def State.tbCommand (c v : Nat) (cap : List Nat) (s : State) : State :=
  let idx := cap.getD 0 0
  let d := cap.drop 2
  match v % 16 with
  | 1 => s.directEntryWrite idx d
  | 2 => s.hashInsert idx d
  | 3 => s.hashDelete idx d
  | 4 => s.prefixAdd c idx d
  | 5 => s.prefixDelete c idx
  | 6 => s.learnedFlush c idx d
  | _ => s.tabReject

/-- A write of SC_CMDOP (R341). -/
def State.scCommand (c v : Nat) (cap : List Nat) (s : State) : State :=
  let idx := cap.getD 0 0
  let d := cap.drop 2
  match v % 16 with
  | 1 => meterWrite c idx d s
  | 2 => meterUnblock idx s
  | 3 => meterClearCounters idx s
  | _ => s.scRefuse 0

/-- A write of CP_CMDOP (R428). -/
def State.cpCommand (v : Nat) (cap : List Nat) (s : State) : State :=
  let idx := cap.getD 0 0
  let d := cap.drop 2
  match v % 16 with
  | 1 => s.freshnessWrite idx d
  | 2 => s.profileWrite idx d
  | _ => s.cpReject

/-! ### Scheduler registers (R357, R361, R367) -/

/-- Would the scheduler page of port `p` break R366 in the fields a host may write? -/
def State.pageRefused (s : State) (p : Nat) : Bool :=
  let cfg := s.rdN (SC_PCFG p)
  let ns := bitsN cfg 1 4
  let rate := s.fld (SC_PRATE p) 0 16
  let isBay := decide (128 ≤ p)
  let live := isBay && s.fld (EB_MACCFG (p - 128)) 0 3 != 7
  decide (8 < ns) ||
  (live && (rate == 0 || decide ((if p < 136 then 2500 else 10000) < rate))) ||
  (List.range 8).any (fun c =>
    let w0 := s.rdN (SC_CL_W0 p c)
    let idle := s.rdN (SC_CL_W1 p c)
    (isBay && cfg.testBit 0 && decide (c < 8 - ns) && w0.testBit 17 && bitsN w0 0 16 == 0) ||
    (w0.testBit 16 && (!isBay || idle == 0 || decide (rate * 1000 < idle))))

/-- A processed write of a field of port `p`'s page at `a`: ignored when R366 would refuse the value (R367). A page that R366 refuses already
takes the write, since no value of the one field is at fault. A change of WFQ or NSTRICT resets the group of a bay (R364). -/
def State.pageWrite (s : State) (p a v mask : Nat) : State :=
  let s' := s.putMask a v mask
  if s'.pageRefused p && !s.pageRefused p then s
  else if 128 ≤ p && s'.fld (SC_PCFG p) 0 5 != s.fld (SC_PCFG p) 0 5 then s'.resetGroup (p - 128)
  else s'

/-- A processed write of a limiter word (R361, R362, R367): ID, MASK, IDE and EN restart its credit. -/
def State.limWrite (s : State) (m j k v mask : Nat) : State :=
  let a := SC_LIM_ID m j + 4 * k
  let s' := s.putMask a v mask
  let bad := s'.bit (SC_LIM_ID m j) 31 && (s'.fld (SC_LIM_CFG m j) 0 10 == 0 || decide (1000 < s'.fld (SC_LIM_CFG m j) 0 10))
  if bad then s
  else if decide (k < 2) && s'.rdN a != s.rdN a then s'.setLim m j 0 else s'

/-- A processed write of SC_GCTL (R355, R357, R358, R367): GEN, LEN of the admin list unless a change is pending, and ACT. -/
def State.gctlWrite (s : State) (c b v mask : Nat) : State :=
  let pend := (s.planner b).pend
  let m := if pend then mask &&& 1 else mask &&& 0x3FF01
  let s' := s.putMask (SC_GCTL b) v m
  let s := if s'.bit (SC_GCTL b) 0 && !s.bit (SC_GCTL b) 0 && !s'.gateOk b then s else s'
  if v.testBit 1 && !s.atOnce then gateActivate c b s else s

/-- A processed write into the SC block. -/
def State.scWrite (s : State) (c a v mask : Nat) : State :=
  if a == SC_CTRL then
    let s := s.putMask a v (mask &&& 1)
    if v.testBit 1 then histogramClear s else s
  else if 0x330000 ≤ a && decide (a < 0x33C000) then
    let b := (a - 0x330000) / 0x1000
    let isB := decide (0x800 ≤ (a - 0x330000) % 0x1000)
    if (s.planner b).pend || isB != (s.adminList b).b then s else s.putMask a v mask
  else
    let p := (a - 0x301000) / 0x400
    let o := (a - 0x301000) % 0x400
    if 0x100 ≤ o && decide (o < 0x200) then s.limWrite p ((o - 0x100) / 16) (o % 16 / 4) v mask
    else if o == 0x10 then s.gctlWrite c (p - 128) v mask
    else if 0x14 ≤ o && decide (o < 0x20) then (if (s.planner (p - 128)).pend then s else s.putMask a v mask)
    else s.pageWrite p a v mask

/-! ### Sleep and network management registers -/

/-- A processed write of WK_CTRL: each bit its command (R472 to R475, R485, R495). -/
def State.wkCommand (s : State) (c v : Nat) : State :=
  let s := if v.testBit 0 then s.sleepRequest s.now c else s
  let s := if v.testBit 1 && !s.atOnce then s.sleepGo c else s
  let s := if v.testBit 2 && !s.atOnce then s.sleepCancel s.now else s
  let s := if v.testBit 3 then s.awakeRestart else s
  if v.testBit 4 then wakeOutRequest s.now s else s

/-- A processed write of WK_VOTE: setting HOST cancels an automatic sleep (R475). -/
def State.voteWrite (s : State) (c v : Nat) : State :=
  let s := s.setBit WK_VOTE 0 (v.testBit 0)
  if v.testBit 0 && !s.wk.forced then s.cancelSleep c else s

/-- A processed write of a ring's CFG or TIM: ignored where TMAX would not lie above TTYP, or RBASE + 63 above 0x7FF; EN set owes an ALIVE
frame (R490). -/
def State.ringWrite (s : State) (c r : Nat) (tim : Bool) (v mask : Nat) : State :=
  let s' := s.putMask (if tim then WK_RNG_TIM r else WK_RNG_CFG r) v mask
  if tim then (if s'.fld (WK_RNG_TIM r) 16 12 ≤ s'.fld (WK_RNG_TIM r) 0 12 then s else s')
  else if 0x7FF < s'.fld (WK_RNG_CFG r) 16 11 + 63 then s
  else if s'.bit (WK_RNG_CFG r) 7 && !s.bit (WK_RNG_CFG r) 7 then
    s'.onRing r (fun _ => { owe := true, tokenAt := c, aloneAt := c })
  else s'

/-- A processed write into the WK block. -/
def State.wkWrite (s : State) (c a v mask : Nat) : State :=
  if a == WK_CTRL then s.wkCommand c v
  else if a == WK_VOTE then s.voteWrite c v
  else if 0x440100 ≤ a && decide (a < 0x440300) then s.ringWrite c ((a - 0x440100) / 16) (decide (a % 16 = 4)) v mask
  else s.putMask a v mask

/-! ### Mortise registers -/

/-- A processed write to a tenon area: the tenon that runs the field's epoch takes it; while the area is being changed it has no effect
(R106, R144). -/
def State.tenonWrite (s : State) (c m o v : Nat) : State :=
  let x := s.mort m
  if x.shut c || x.st == .idle then s else
  match x.tenon with
  | .can =>
    if o == 0x104 then
      let s := canOpmodeWrite m (v % 4) s
      if v.testBit 2 then busOffRecoveryRequest m s else s
    else if o == 0x138 then canTxAbort m v s
    else s
  | .lin =>
    if o == 0x10C then
      let s := (linTableWrite c m (v % 4) s).setFld (LN_CTRL m) 0 2 v
      let s := (linRunWrite c m (v.testBit 2) s).setBit (LN_CTRL m) 2 (v.testBit 2)
      let s := if v.testBit 3 then linSleepCommand c m s else s
      if v.testBit 4 then linWakeRequest m s else s
    else s
  | .idle => s
  | _ =>
    if o == 0x10C then
      let s := if v.testBit 0 then phyResetCommand m s else s
      if v.testBit 1 then t1sWakeRequest m s else s
    else s

/-- A processed write into the pages of the mortises. -/
def State.mzWrite (s : State) (c a v mask : Nat) : State :=
  let m := (a - 0x100000) / 0x1000
  let o := (a - 0x100000) % 0x1000
  if o == 4 then mortiseRxInhibit m (v.testBit 1) (mortiseTxInhibit m (v.testBit 0) s)
  else if o == 0x18 then hostCopyControl m ((v &&& mask) ||| (s.rdN a &&& (0xFFFFFFFF ^^^ mask))) s
  else s.tenonWrite c m o v

/-! ### Any ledger-input field -/

/-- A processed write of FR_SWAP_H with the captured FR_SWAP_L (R105). -/
def State.swapCommand (s : State) (c v : Nat) (cap : List Nat) : State :=
  let s := s.wrN FR_SWAP_H (v &&& 0xFFFFF)
  let g := cap.getD 0 0 + 2 ^ 32 * bitsN v 0 16
  match bitsN v 16 4 with
  | 1 => swapSchedule c g s
  | 2 => deltaDisarm c s
  | _ => s

/-- A processed write of KS_UPEP_H with the captured KS_UPEP_L (R388). -/
def State.updateCommand (s : State) (c v : Nat) (cap : List Nat) : State :=
  let s := s.wrN KS_UPEP_H (v &&& 0xFFFFF)
  if bitsN v 16 4 == 1 then s.keyUpdateApply c (cap.getD 0 0 + 2 ^ 32 * bitsN v 0 16) else s

/-- The effect in epoch `c` of a write of `v` to the ledger-input fields of the register at `a`: `cap` is the mask of those fields that take
the write, or what the command captured. In Raise and Bench the same at once, but for the commands that need an epoch (R549). -/
def State.ledgerWrite (c a v : Nat) (cap : List Nat) (s : State) : State :=
  let mask := cap.getD 0 0xFFFFFFFF
  if a == FR_SWAP_H then (if s.atOnce then s else s.swapCommand c v cap)
  else if a == KS_UPEP_H then s.updateCommand c v cap
  else if a == SG_CMDOP then (if s.atOnce then s else s.sgCommand c v cap)
  else if a == TB_CMDOP then (if s.atOnce then s else s.tbCommand c v cap)
  else if a == SC_CMDOP then (if s.atOnce then s else s.scCommand c v cap)
  else if a == CP_CMDOP then (if s.atOnce then s else s.cpCommand v cap)
  else if a == TW_CTRL then (if v.testBit 0 && !s.atOnce then s.handoverCommand c else s)
  else if 0x100000 ≤ a && decide (a < 0x180000) then s.mzWrite c a v mask
  else if 0x300000 ≤ a && decide (a < 0x380000) then s.scWrite c a v mask
  else if 0x440000 ≤ a && decide (a < 0x480000) then s.wkWrite c a v mask
  else s.putMask a v mask

end Sys2Proof.Machine
end

