-- ==== Sys2Proof/Machine/Pipeline.lean ====
section
/-! DEFINITION. Machine/Pipeline.lean: the processing of an epoch (R22, R25, R72 to R76, R80): the release of a ledger, admission, the inputs of each
class, the parse graph's path with policing, MACsec, 802.1CB, dispatch and replication, and the completion of the epoch. -/
namespace Sys2Proof.Machine
open Sys2Proof

/-! ### Admission (R22, R25, R72, R295, R410) -/

/-- What is left of the budgets of the epoch being processed: lookup slots of the two lanes, signal operations and recipe blocks. -/
structure Budgets where
  lane0 : Nat
  lane1 : Nat
  sig : Nat
  blocks : Nat
  deriving DecidableEq, Repr

/-- The section of PB0 in force; empty where PB0 has none. -/
def State.pbSect (s : State) : Octets := (assoc s.fr.sects PB0).getD []

/-- The budgets at the start of an epoch (R73, R294, R411). -/
def State.budgets (s : State) : Budgets :=
  let laneb := s.fld EP_BUDGET 0 16
  { lane0 := laneb, lane1 := laneb, sig := s.fld SG_BUDGET 0 16, blocks := s.blkb }

/-- Is a frame dropped at release under RXINH (R142)? -/
def State.rxDropped (s : State) (i : Input) : Bool := i.cls == 2 && i.kind == .frame && (s.mort i.port).rxinh

/-- Is an input charged nothing: a frame dropped under RXINH, or a bay frame discarded or delivered to the host alone (R142, R252)? -/
def State.uncharged (s : State) (i : Input) : Bool :=
  s.rxDropped i || (i.cls == 1 && i.kind == .frame && decide (2 ≤ (s.rxDisp i.port i).1))

/-- Admission of the input at position `pos`: whether it is admitted, and what is left. The three declared costs are tested before any is
charged. -/
def State.admitInput (s : State) (b : Budgets) (pos : Nat) (i : Input) : Bool × Budgets :=
  if s.uncharged i then (true, b) else
  let look := Config.lookupCost s.pbSect i.cls i.port
  let sig := s.sigCost i.cls i.port
  let blk := s.cipherCost i.cls i.port
  let lane := if pos % 2 = 0 then b.lane0 else b.lane1
  if lane < look || b.sig < sig || b.blocks < blk then (false, b)
  else
    let b := { b with sig := b.sig - sig, blocks := b.blocks - blk }
    (true, if pos % 2 = 0 then { b with lane0 := b.lane0 - look } else { b with lane1 := b.lane1 - look })

/-- An input dropped whole by admission (R25, R72). -/
def State.admitDrop (s : State) : State := (s.cInc (EP_CNT 1)).cEvt EP_EVENT 7

/-! ### Errors of table reads (R328) -/

/-- A table read finds an error: corrected in place and counted, or an F2 of TB0. -/
def State.tableError (s : State) (uncorr : Bool) : State :=
  if uncorr then s.raiseFault 2 0x20 0x10 0xFF
  else ((((s.inc (TB_CNT 11)).evt TB_EVENT 9).raiseFault 1 0x10 0x10 0xFF).countError TB0)

/-- What an uncorrectable read answers is open: a free value, as (found, RES, AUX). -/
def State.freeResult (s : State) : (Bool × Nat × Nat) × State :=
  let (v, s) := s.fresh 65
  ((v.testBit 64, bitsN v 0 32, bitsN v 32 32), s)

/-- The table errors that the input at position `pos` meets: they are recorded, and an uncorrectable one leaves a free result. -/
def State.readErrors (s : State) (ecc : List (Nat × Bool)) (pos : Nat) : Option (Bool × Nat × Nat) × State :=
  let mine := ecc.filter (fun e => e.1 == pos)
  let s := mine.foldl (fun s e => s.tableError e.2) s
  if mine.any (·.2) then
    let (v, s) := s.freeResult
    (some v, s)
  else (none, s)

/-! ### The path of an input through the parse graph -/

/-- One step of a path with its result (found, RES, AUX). -/
structure PathStep where
  act : ParseAct
  res : Bool × Nat × Nat := (true, 0, 0)

/-- The port code of an input (R279, R323); 0xFF for a host command, which has no port in that coding. -/
def portCode (i : Input) : Nat :=
  match i.cls with
  | 0 => 0xFF
  | 1 => 0x80 + i.port
  | 2 => i.port
  | _ => 0x8C + i.port

/-- The record of a bay or T1S input with its frame replaced by the plain frame of a MACsec run; the MAC will fill in the FCS. -/
def plainRecord (plain : Octets) : Octets := bayRecord (plain ++ zeros 4) 0

/-- The frame of a record without its FCS. -/
def sansFcs (r : Octets) : Octets := let f := recFrame r; f.take (f.length - 4)

/-- The results of the lookups of a path so far, in order. -/
def resultsOf (l : List PathStep) : List (Bool × Nat × Nat) := l.map (·.res)

/-- Longest path the model follows; a graph that asks for more steps is cut off there (DESIGN CHOICE, log 10). -/
def pathFuel : Nat := 256

/-- The path an input takes: the steps the graph names, with the result of each lookup. `err` is the result of a first lookup whose read failed.
A MACsec run that fails for anything but its tag ends the path (R420). -/
def State.walk (s : State) (i : Input) : Nat → Option (Bool × Nat × Nat) → Octets → List PathStep → List PathStep
  | 0, _, _, l => l
  | f + 1, err, r, l =>
    let look := fun (a : ParseAct) (v : Option (Nat × Nat)) =>
      let v := match err with
        | some e => e
        | none => match v with
          | some x => (true, x.1, x.2)
          | none => (false, 0, 0)
      State.walk s i f none r (l ++ [{ act := a, res := v }])
    let go := fun (a : ParseAct) => State.walk s i f err r (l ++ [{ act := a }])
    match Config.parseStep s.pbSect i.cls i.port i.entry r (resultsOf l) with
    | .done => l
    | .hash t k => look (.hash t k) ((s.hlookup (t % 2) (padTo 12 k)).map (fun e => (hRes e, hAux e)))
    | .source k => look (.source k) ((s.hlookup 0 (padTo 12 k)).map (fun e => (hRes e, hAux e)))
    | .longest v six a => look (.longest v six a) (s.lpm v six a)
    | .meter m => go (.meter m)
    | .dispatch n o => go (.dispatch n o)
    | .forward p c pr => go (.forward p c pr)
    | .stream x y => go (.stream x y)
    | .keepAlive v => go (.keepAlive v)
    | .secure p =>
      match s.macsecGo p (sansFcs r) true with
      | (0, plain, _, _) => State.walk s i f err (plainRecord plain) (l ++ [{ act := .secure p }])
      | _ => l ++ [{ act := .secure p }]

/-- Is a step a lookup in TB0's tables? -/
def parseLooks : ParseAct → Bool
  | .hash _ _ => true
  | .source _ => true
  | .longest _ _ _ => true
  | _ => false

/-- The bents a step reaches, as indices (R99). -/
def parseBents : ParseAct → List Nat
  | .hash _ _ => [TB0]
  | .source _ => [TB0]
  | .longest _ _ _ => [TB0]
  | .meter _ => [SB0]
  | .dispatch _ _ => [GB0]
  | .forward p _ pr => [SB0] ++ (if p < 128 then [p / 16] else []) ++ (if pr.isSome then [KB0] else [])
  | .secure _ => [KB0]
  | _ => []

/-- An input still on its way: whether it takes part in the gateway and in replication, its drop-eligible mark, its record, the stream handle whose
numbers its copies carry, and the cut-through stream with the verdict of its tag. -/
structure Walker where
  live : Bool := true
  mark : Bool := false
  rec_ : Octets := []
  gen : Option Nat := none
  stream : Option Nat := none
  bad : Bool := false

/-- The length policed (R337): the frame of a bay or T1S input, the octets of any other record. -/
def State.policedLen (s : State) (n : Nat) (i : Input) : Nat :=
  let eth := i.cls == 1 || (i.cls == 2 && !((s.mort i.port).tenon == .can || (s.mort i.port).tenon == .lin))
  if eth then leAt i.octets 0 2 else i.octets.length

/-- Policing by meter `m`, when it is VALID (R337 to R339). -/
def State.policeInput (s : State) (n m : Nat) (i : Input) (w : Walker) : Walker × State :=
  if 16384 ≤ m || !(oct (s.meter m) 0).testBit 0 then (w, s) else
  let elig := i.cls == 1 && (s.ethVlan i.port (recFrame i.octets)).2.2
  let (col, s) := s.police m (s.policedLen n i) n elig
  let stop := match col with
    | .green => false
    | .yellow => (oct (s.meter m) 0).testBit 3
    | _ => true
  if stop then ({ w with live := false }, (s.cInc (SC_CNT 3)).cEvt SC_EVENT 2)
  else ({ w with mark := col == .yellow }, s)

/-- The bays that an input's copies go to, when every copy goes to a bay (R421, R422): none when a step dispatches it or copies it elsewhere. -/
def copyBays (l : List PathStep) : Option (List Nat) :=
  l.foldl (fun a x => match a, x.act with
    | some b, .forward p _ _ => if 128 ≤ p && decide (p < 140) then some (b ++ [p - 128]) else none
    | _, .dispatch _ _ => none
    | a, _ => a) (some [])

/-- The sequence number of an R-tagged frame (IEEE 802.1CB). -/
def rtagSeq (f : Octets) : Nat := beAt f (12 + 4 * ethTags f + 4) 2

/-- A frame with its R-tag carrying `seq`, added behind the VLAN tags where it has none. -/
def withRtag (f : Octets) (seq : Nat) : Octets :=
  let o := 12 + 4 * ethTags f
  let tag := [0xF1, 0xC1, 0, 0] ++ natBE 2 seq
  if ethRtag f then f.take o ++ tag ++ f.drop (o + 6) else f.take o ++ tag ++ f.drop o

/-- One step of the path that acts before dispatch and replication. `path` is the whole path, `host` whether the host gets a record too. -/
def State.pathStep (n pos : Nat) (i : Input) (path : List PathStep) (host : Bool) (a : Walker × State) (x : PathStep) : Walker × State :=
  let (w, s) := a
  match x.act with
  | .source k => (w, s.learnLookup (padTo 12 k) (portCode i) pos)
  | .meter m => if w.live then s.policeInput n m i w else a
  | .keepAlive v =>
    if w.live then
      let (blocked, s) := s.keepAlive n v (portCode i)
      ({ w with live := !blocked }, s)
    else a
  | .stream res aux =>
    if !w.live then a else
    let h := bitsN res 0 12
    let f := recFrame w.rec_
    let (pass, s) := if res.testBit 13 && ethRtag f then s.cbRecover h (rtagSeq f) (bitsN res 15 7 + 1) (bitsN aux 0 24) (res.testBit 14) else (true, s)
    ({ w with live := pass, gen := if res.testBit 12 then some h else w.gen }, s)
  | .secure p =>
    if !w.live then a
    else if s.gone KB0 n then ({ w with live := false }, s.isoLoss)
    else
      let cut := !host && (match copyBays path with
        | some b => !b.isEmpty && s.cutThrough p b
        | none => false)
      match s.macsecVerify p (sansFcs w.rec_) cut with
      | (some (plain, good), s) =>
        ({ w with rec_ := plainRecord plain, stream := if cut then some (portCode i * 1024 + p) else w.stream, bad := w.bad || (cut && !good) }, s)
      | (none, s) => ({ w with live := false }, s)
  | _ => a

/-- The source data length of a dispatch (R265). -/
def State.sourceLen (s : State) (n : Nat) (i : Input) (r : Octets) (soff : Nat) : Nat :=
  match i.cls with
  | 3 => r.length - soff
  | 1 => leAt r 0 2 + 4 - soff - 4
  | _ => match (s.mort i.port).tenon with
    | .can => recDlen r
    | .lin => oct r 2
    | _ => leAt r 0 2 + 4 - soff - 4

/-- Dispatch an input to the gateway (R265, R266); an isolated GB0 drops it (R37). -/
def State.dispatchInput (s : State) (n : Nat) (i : Input) (r : Octets) (route soff : Nat) : State :=
  if s.gone GB0 n then s.isoLoss else s.applyRoute n route r soff (s.sourceLen n i r soff) i.cls i.port

/-- Does an egress port carry Ethernet frames: a bay, or a mortise running a T1S tenon? -/
def State.ethPort (s : State) (n p : Nat) : Bool :=
  128 ≤ p || ((s.mort p).tenon != .can && (s.mort p).tenon != .lin)

/-- One copy of an input for port `p` and class `c` (R75, R339, R420, R422, R455). -/
def State.copyTo (s : State) (n : Nat) (w : Walker) (seq : Option Nat) (p c : Nat) (prof : Option Nat) : State :=
  let r := match seq with
    | some q => if s.ethPort n p then bayRecord (withRtag (recFrame w.rec_) q) 0 else w.rec_
    | none => w.rec_
  let e : Egress := { port := p, cls := c % 8, octets := r, rel := n + 1 + s.ep.lag, elig := w.mark, stream := w.stream, bad := w.bad }
  match prof with
  | none => s.enqueue n e
  | some k =>
    if s.gone KB0 n then s.isoLoss
    else if p < 128 || 140 ≤ p then s.enqueue n e
    else match s.macsecProtect k (p - 128) (sansFcs r) with
      | (some f, s) => s.enqueue n { e with octets := plainRecord f }
      | (none, s) => s

/-- Does the input's record hold an Ethernet frame? -/
def State.ethInput (s : State) (n : Nat) (i : Input) : Bool :=
  i.cls == 1 || i.cls == 3 || (i.cls == 2 && s.ethPort n i.port)

/-- Dispatch and replication in the order of the path (R266, R455); in Hold nothing is replicated (R34). -/
def State.pathSends (s : State) (n : Nat) (i : Input) (w : Walker) (path : List PathStep) : State :=
  let fwd := fun (x : PathStep) => match x.act with
    | .forward _ _ _ => true
    | _ => false
  let numbered := w.gen.isSome && s.mode != .hold && s.ethInput n i && path.any fwd
  let (seq, s) : Option Nat × State := match w.gen with
    | some h => if numbered then (let (q, s) := s.cbGenerate h; (some q, s)) else (none, s)
    | none => (none, s)
  path.foldl (fun s x => match x.act with
    | .dispatch r o => s.dispatchInput n i w.rec_ r o
    | .forward p c pr => if s.mode == .hold then s else s.copyTo n w seq p c pr
    | _ => s) s

/-- The bents a path reaches, `first` being the route an identifier lookup gave. -/
def pathBents (path : List PathStep) (first : Option (Nat × Nat)) : List Nat :=
  PB0 :: path.flatMap (fun x => parseBents x.act) ++ (if first.isSome then [GB0] else [])

/-- Does a path reach a bent that is not yet in service, so that the input is dropped whole (R99)? -/
def State.pathAwaits (s : State) (path : List PathStep) (first : Option (Nat × Nat)) : Bool :=
  (pathBents path first).any (fun b => s.bent b == .awaiting)

/-- An input runs its path: the steps that decide over it, then dispatch and replication. Without PB0, without TB0 for a path with lookups, and
without SB0 for a path that polices or sends, nothing comes of it (R37). `host`: the host gets its record too. -/
def State.runPath (s : State) (n pos : Nat) (i : Input) (path : List PathStep) (first : Option (Nat × Nat)) (host : Bool) : State :=
  if s.gone PB0 n || (path.any (fun x => parseLooks x.act) && s.gone TB0 n) || ((pathBents path none).contains SB0 && s.gone SB0 n) then s.isoLoss
  else if !s.serves PB0 n then s
  else
    let w : Walker := { rec_ := i.octets, mark := i.cls == 1 && (s.ethVlan i.port (recFrame i.octets)).2.2 }
    let (w, s) := path.foldl (State.pathStep n pos i path (host || first.isSome)) (w, s)
    if !w.live then s else
    let s := match first with
      | some (r, o) => s.dispatchInput n i w.rec_ r o
      | none => s
    s.pathSends n i w path

/-! ### Inputs of mortises (R139 to R147, R165 to R168, R211, R212, R304) -/

/-- Write the host-copy record of a mortise input (R145 to R147). -/
def State.hostCopy (s : State) (n : Nat) (i : Input) (mark dropped : Bool) : State :=
  let hc := s.rdN (MZ_HCOPY i.port)
  let event := i.kind == .event
  let sel := match bitsN hc 1 2 with
    | 0 => true
    | 1 => mark
    | 2 => event
    | _ => false
  if !hc.testBit 0 || !sel then s else
  let kind := tenonCode ((s.mort i.port).tenon) + 16 * b2n event + 32 * b2n dropped + 64 * b2n (s.guarOf n)
  let (ok, s') := s.ringPut (bitsN hc 4 4) (hostRecord n i.port kind i.rank (i.inst % 2 ^ 32) i.octets)
  if ok then s' else (s'.inc (MZ_CNT i.port 7)).evt (MZ_EVENT i.port) 4

/-- Key type 0x03 (R306). -/
def extKey (m idw : Nat) : Octets := [3, BitVec.ofNat 8 m] ++ natLE 4 (idw % 2 ^ 29) ++ zeros 6

/-- Key type 0x04 (R306). -/
def xlKey (m : Nat) (r : Octets) : Octets :=
  [4, BitVec.ofNat 8 m] ++ natLE 2 (recIdw r % 2048) ++ [BitVec.ofNat 8 (recSdt r), BitVec.ofNat 8 (recVcid r)] ++ natLE 4 (recAf r) ++ zeros 2

/-- The valid identifier table entry a CAN or LIN frame finds, by its result word (R166, R167, R212, R303, R304). `err` is the free result of a
failed read. -/
def State.idEntry (s : State) (n m : Nat) (r : Octets) (err : Option (Bool × Nat × Nat)) : Option Nat :=
  let direct := fun (i : Nat) =>
    let w := match err with
      | some e => e.2.1
      | none => s.direct m i
    if w.testBit 0 then some w else none
  let ext := fun (k : Octets) => match err with
    | some e => if e.1 then some e.2.1 else none
    | none => (s.hlookup 1 k).map hRes
  if (s.mort m).tenon == .lin then direct (oct r 0 % 64)
  else
    let idw := recIdw r
    if recFmt r == 2 then (direct (idw % 2048)).bind (fun w => if w.testBit 4 then ext (xlKey m r) else some w)
    else if idw.testBit 29 then ext (extKey m idw)
    else direct (idw % 2048)

/-- Does an entry accept the frame's format (R168, R303)? -/
def State.idAccepts (s : State) (n m : Nat) (r : Octets) (w : Nat) : Bool :=
  if (s.mort m).tenon == .lin then w.testBit 1
  else match recFmt r with
    | 2 => w.testBit 3
    | 1 => w.testBit 2
    | _ => w.testBit 1

/-- The entry a frame finds where TB0 serves it, with the mark its host copy is selected by (R145). -/
def State.idFound (s : State) (n : Nat) (i : Input) (err : Option (Bool × Nat × Nat)) : Option Nat × Bool :=
  let e := if s.serves TB0 n && i.kind != .event && ((s.mort i.port).tenon == .can || (s.mort i.port).tenon == .lin) then s.idEntry n i.port i.octets err else none
  (e, e.any (·.testBit 5))

/-- A CAN or LIN frame in the pipeline: acceptance, host copy, the consent rings, and its path (R99, R166 to R168, R487). DESIGN CHOICE (log 34): an input
dropped because TB0 is isolated or awaits FULLEP gets no host copy. -/
def State.idFrame (s : State) (n pos : Nat) (i : Input) (err : Option (Bool × Nat × Nat)) : State :=
  let m := i.port
  let r := i.octets
  let can := (s.mort m).tenon == .can
  if s.bent TB0 == .awaiting then s.cInc FR_DROP
  else if s.gone TB0 n then s.isoLoss
  else
    let (found, marked) := s.idFound n i err
    let hit := found.filter (s.idAccepts n m r)
    let first := hit.bind (fun w => if w.testBit 6 then some (bitsN w 8 23, if can then 0x10 else 4) else none)
    let path := match hit with
      | some w => s.walk i pathFuel none r [{ act := .hash 1 [], res := (true, w, 0) }]
      | none => []
    if hit.isSome && s.pathAwaits path first then s.cInc FR_DROP else
    let s := s.hostCopy n i marked false
    let s := if can then (s.ringInput n m r).frameCancels n m r else s
    if hit.isSome then s.runPath n pos i path first false
    else s.cInc (if can then CN_CNT m 0 else LN_CNT m 0)

/-- A mortise's port event in the pipeline (R149, R176, R221, R230, R475). -/
def State.mortEvent (s : State) (n : Nat) (i : Input) : State :=
  let m := i.port
  let s := s.hostCopy n i false false
  let s := match (s.mort m).tenon with
    | .can => s.canEvent m n i.octets
    | .lin => s.linEvent m i.octets
    | .idle => s
    | _ => s.t1sEvent m i.octets
  s.eventCancels n m (oct i.octets 0)

/-- An input of a mortise, admitted or not. -/
def State.mortInput (s : State) (n pos : Nat) (adm : Bool) (i : Input) (err : Option (Bool × Nat × Nat)) : State :=
  let m := i.port
  let s := s.cInc (MZ_CNT m 0)
  let s := if i.kind != .event && (s.mort m).tenon == .lin then s.linFrameDone m else s
  if !adm then s.admitDrop
  else if s.gone (m / 16) n then s.isoLoss
  else if s.rxDropped i then ((s.cInc (MZ_CNT m 4)).cEvt (MZ_EVENT m) 6).hostCopy n i (s.idFound n i none).2 true
  else if i.kind == .event then s.mortEvent n i
  else match (s.mort m).tenon with
    | .can => s.idFrame n pos i err
    | .lin => s.idFrame n pos i err
    | .idle => s
    | _ =>
      let path := s.walk i pathFuel err i.octets []
      if s.pathAwaits path none then s.cInc FR_DROP
      else (s.hostCopy n i false false).runPath n pos i path none false

/-! ### Inputs of bays and host rings (R251 to R253, R519) -/

/-- An admitted frame of a bay (R99, R252). -/
def State.bayInput (s : State) (n pos : Nat) (i : Input) (err : Option (Bool × Nat × Nat)) : State :=
  let b := i.port
  let (disp, ring, entry) := s.rxDisp b i
  let i := { i with entry := entry }
  let host := fun (s : State) => s.bayHost b ring n i.rank (i.inst % 2 ^ 32) (s.guarOf n) i.octets
  match disp with
  | 3 => (s.cInc (EB_CNT b 1)).cEvt (EB_EVENT b) 7
  | 2 => host s
  | _ =>
    let path := s.walk i pathFuel err i.octets []
    if s.pathAwaits path none then s.cInc FR_DROP
    else (if disp == 1 then host s else s).runPath n pos i path none (disp == 1)

/-- An admitted frame of a host ring (R99, R519). -/
def State.ringFrameInput (s : State) (n pos : Nat) (i : Input) (err : Option (Bool × Nat × Nat)) : State :=
  let path := s.walk i pathFuel err i.octets []
  if s.pathAwaits path none then s.cInc FR_DROP else s.runPath n pos i path none false

/-- A TW_CTRL write that was not made on the Lead: it hands nothing over (R440). -/
def State.strayHandover (s : State) (i : Input) : Bool := i.addr == TW_CTRL && i.origin != (if s.mode == .lead then s.pid else 1 - s.pid)

/-- One input of the ledger, in canonical order. -/
def State.runInput (n : Nat) (ecc : List (Nat × Bool)) (a : Budgets × State) (x : Nat × Input) : Budgets × State :=
  let (b, s) := a
  let (pos, i) := x
  let (adm, b) := s.admitInput b pos i
  let s := s.onCp (fun c => { c with left := s.cipherCost i.cls i.port, inp := portCode i })
  let (err, s) := if adm then s.readErrors ecc pos else (none, s)
  let s :=
    match i.cls with
    | 2 => s.mortInput n pos adm i err
    | 0 => if !adm then s.admitDrop else if s.strayHandover i then s else s.ledgerWrite i.stamp i.addr i.data i.cap
    | 1 =>
      let s := s.cInc (EB_CNT i.port 0)
      if !adm then s.admitDrop else if i.kind == .event then s.bayEventDone i.port i.octets else s.bayInput n pos i err
    | _ => if adm then s.ringFrameInput n pos i err else s.admitDrop
  (b, s)

/-! ### The release of a ledger (R22, R58, R66 to R68, R74) -/

/-- Is the ledger of epoch `n` closed: alone by LEDGER_CLOSE, paired by the steps of R66, or replayed from the Lead? Its records are sealed; those exchanged
with a peer are matched and past the fill deadline, unless both twins flagged the epoch at the matching. -/
def State.ledgerReady (s : State) (n : Nat) : Bool :=
  if s.paired then
    s.replaying n || (s.ep.sealed.any (fun c => n ≤ c) &&
      (if s.ep.sent.contains n then s.ep.decided.contains n && s.ep.deadline.contains n else !s.exchanging n || s.ep.decided.contains n))
  else s.ep.closed.any (fun c => n ≤ c)

/-- The changes that take effect at epoch `n`, before its first input (R74, R97, R106, R318, R332, R388). -/
def State.namedChanges (s : State) (n : Nat) : State :=
  let s := if s.fr.staged && !s.fr.full && n == hFullEp s.fr.header then s.lateNow.lateProcess else s
  let s := if s.fr.swapAt == some n then s.swapProcess n else s
  ((s.keyUpdateInForce n).prefixEffect n).scanRepairs

/-- LEDGER_RELEASE: the ledger of epoch `n`, the next after the last released, is sorted, its digest shown, and its inputs are processed (R22, R68). A Shadow
in catch-up processes the closed ledgers of its Lead one after another (R460). Nothing is processed past the epoch C of a sleep's commit point (R476). -/
def State.ledgerRelease (t n : Nat) (ecc : List (Nat × Bool)) (s : State) : State :=
  let s := s.tick t
  let next := match s.ep.rel with
    | some r => r + 1
    | none => 0
  let replay := s.replaying n
  if !(s.serving || replay) || s.ep.running.isSome || n != next || (!replay && t < s.epochEnd (n + s.ep.lag)) || !s.ledgerReady n || s.wk.cEp.any (fun c => decide (c < n)) then s else
  let l := s.ledgerOf n
  let dig := ledgerDigest l
  let merges := s.stampMerges l
  let s := s.onEp (fun e => { e with rel := some n, running := some n, runIn := s.stampEp, digest := dig, digests := e.digests ++ [(n, dig)] })
  let s := (((s.cInc (EP_CNT 0) l.length).cInc (EP_CNT 2) merges).dropLedger n).namedChanges n
  let s := (if s.serves TB0 n then s.tabBegin else s).wkBegin
  let (_, s) := ((List.range l.length).zip l).foldl (State.runInput n ecc) (s.budgets, s)
  let s := s.onCp (fun c => { c with left := 2 ^ 32, inp := 0xFF })
  s.gwTimerBegin

/-! ### Demand and grant (R496, R497) -/

/-- The SAFE routes in force. -/
def State.safeRoutes (s : State) : List Octets :=
  ((s.memIdx gwRoutes gwRState 64).map s.route).filter (fun r => entryValid r && s.tagOk (oct r 0 % 4) && (oct r 0).testBit 5)

/-- Indices of the SAFE routes in force. -/
def State.safeIdx (s : State) : List Nat :=
  (s.memIdx gwRoutes gwRState 64).filter (fun k => let r := s.route k; entryValid r && s.tagOk (oct r 0 % 4) && (oct r 0).testBit 5)

/-- Does a mortise of bent `k` reach a SAFE route by a direct entry or an identifier key in force, or is it the port of a PDU such a route names? -/
def State.safeBent (s : State) (k : Nat) : Bool :=
  let safe := s.safeIdx
  let direct := (List.range 16).any (fun i => let b := s.tab.bank.testBit (16 * k + i)
    (s.memIdx (directAddr b (2048 * (16 * k + i))) (directAddr b (2048 * (16 * k + i + 1))) 4).any (fun j =>
    let w := s.memN (directAddr b (2048 * (16 * k + i) + j)) 4
    w.testBit 0 && w.testBit 6 && safe.contains (bitsN w 8 23)))
  let hash := (s.hused 1).any (fun j =>
    let e := s.hent 1 j
    let key := hKey e
    s.tagOkT (hGen e) && (oct key 0 == 3 || oct key 0 == 4) && oct key 1 / 16 == k && (hRes e).testBit 6 && safe.contains (bitsN (hRes e) 8 23))
  let dest := (s.safeRoutes).any (fun r => (List.range (routeNdest r)).any (fun j => dPort (s.pduDesc (routeDest r j)) / 16 == k))
  direct || hash || dest

/-- Does a SAFE route verify, or name a PDU with PROTECT? -/
def State.safeSecured (s : State) : Bool :=
  s.safeRoutes.any (fun r => (oct r 0).testBit 4 || (List.range (routeNdest r)).any (fun j => (oct (s.pduDesc (routeDest r j)) 0).testBit 4))

/-- Is bent `b` demanded in the epoch processed (R497)? -/
def State.demanded (s : State) (b : Nat) : Bool :=
  s.bentUp b && (
    if b < 8 then
      if s.mode == .hold then s.flt.holdMB.testBit b || s.safeBent b
      else (List.range 16).any (fun j => (s.mort (16 * b + j)).tenon != .idle)
    else if b == KB0 && s.mode == .hold then s.safeSecured
    else true)

/-- The grant of the epoch processed (R496). -/
def State.grant (s : State) : Nat :=
  hBase s.fr.header + (((List.range 13).filter s.demanded).map (fun b => ((recOf s.fr.recs b).map rPeak).getD 0)).sum

/-- R496. PW_GRANT shows the grant and PW_ENERGY accumulates it. -/
def State.grantEpoch (s : State) : State :=
  let g := s.grant
  (s.cPut PW_GRANT 0 16 g).onPw (fun p => { p with energy := p.energy + g })

/-! ### The end of the processing of an epoch (R75, R76, R149, R345) -/

/-- EPOCH_PROCESSING_COMPLETE: the timer steps that remain, the freed objects and buffers, the selection, the grant, and the covered counters and
status as they stand now (R74 to R76, R176, R229, R286, R345, R486). -/
def State.processingComplete (t n : Nat) (s : State) : State :=
  let s := s.tick t
  if s.ep.running != some n then s else
  let s := (s.wkTimer n).quiesceShow n
  let s := if s.serves TB0 n then (s.tabTimer n).tabShow State.cPut else s
  let s := (List.range 128).foldl (fun s m => (s.canFree m).t1sFree m) s
  let s := (s.cbEpoch).select n
  let s := (List.range 128).foldl (fun s m => if (s.mort m).tenon == .can then s.canComplete m else s) s
  let s := s.grantEpoch.sleepDone n
  ((s.applyHeld).onEp (fun e => { e with done := some n, running := none })).applyDue n

end Sys2Proof.Machine
end

