-- ==== Sys2Proof/Machine/Power.lean ====
section
/-! DEFINITION. Machine/Power.lean: the ramps of the bent clocks and what the king post shows (R21, R496 to R501). -/
namespace Sys2Proof.Machine
open Sys2Proof

/-- Is a ramp running now (PW_STATUS.RAMP)? -/
def State.ramping (s : State) : Bool := s.pw.ramp.any (fun r => decide (s.now < r.2.2))

/-- PW_CLKST of one bent: stopped, ramping, running or divided. -/
def State.clkShow (s : State) (i : Nat) : Nat :=
  if s.pw.ramp.any (fun r => r.1 == i && decide (s.now < r.2.2)) then 1
  else if nth s.pw.clk i == 2 && s.pw.divided then 3
  else nth s.pw.clk i

/-- The record of a bent in the frame, the image being raised, or the delta; none where it is absent or empty. -/
def State.anyRec (s : State) (i : Nat) : Option Octets :=
  let look := fun (l : List Octets) => (recOf l i).filter (fun r => !rEmpty r)
  ((look s.fr.recs).or ((s.fr.hand.bind (fun x => look x.recs)))).or (s.fr.delta.bind (fun x => look x.recs))

/-- May the fast clocks of bent `i` start (they are stopped, the bent is in the frame, raised or staged and not isolated) or stop (they run and the bent is
not demanded, R498, R500)? -/
def State.mayRamp (s : State) (i : Nat) (start : Bool) : Bool :=
  (s.anyRec i).isSome &&
    (if start then nth s.pw.clk i == 0 && s.bent i != .isolated && s.fr.cfg.contains i
     else nth s.pw.clk i == 2 && !s.demanded i && s.bent i != .awaiting)

/-- Does a ramp of bent `i` wait, up or down? A start waits from the configuration of a bent not in service yet, and of one in service while it is demanded. -/
def State.rampWaits (s : State) (i : Nat) : Bool :=
  s.mayRamp i false || (s.mayRamp i true && (!s.bentUp i || s.demanded i))

/-- CLOCK_RAMP: the fast clocks of the bent with code `code` begin to start or stop along a ramp of ⌈ISTEP ÷ 1.5⌉ ns (R499). No other ramp
runs then, and none of a bent with a lower code waits; a start needs a bent that is in the frame, raised or staged and not isolated, a stop one that is not demanded (R498, R500). -/
def clockRamp (t code : Nat) (start : Bool) (s : State) : State :=
  let s := s.tick t
  match bentIdx code with
  | none => s
  | some i =>
    match s.anyRec i with
    | none => s
    | some r =>
      if !s.dieOn || s.ramping || !s.mayRamp i start || (List.range i).any s.rampWaits then s
      else s.onPw (fun p => { p with clk := p.clk.set i (if start then 2 else 0), ramp := some (i, start, s.now + cdiv (2 * rIstep r) 3) })

end Sys2Proof.Machine
end

