-- ==== Sys2Proof/Machine/Bridge.lean ====
section
/-! DEFINITION. Machine/Bridge.lean: the host bridge beside the register accesses: which row of the register map an address falls on, the access
policies (R9, R508, R517), the registers a block computes, interrupts and MSI-X (R148, R520, R521), the posted-write error log (R511, R512),
the rings (R517 to R519) and BAR2 (R506). -/
namespace Sys2Proof.Machine
open Sys2Proof

/-! ### Rows of the register map -/

/-- The rows of the block an offset lies in (R505). -/
def blockRows (a : Nat) : List RegRow :=
  if a < 0x10000 then rowsGL
  else if a < 0x20000 then rowsPW
  else if a < 0x30000 then rowsSL
  else if a < 0x40000 then rowsFLT
  else if a < 0x80000 then rowsEP
  else if a < 0x100000 then rowsFR
  else if a < 0x180000 then rowsMZ ++ rowsCN ++ rowsLN ++ rowsT1
  else if a < 0x200000 then rowsEB
  else if a < 0x280000 then rowsSG
  else if a < 0x300000 then rowsTB
  else if a < 0x380000 then rowsSC
  else if a < 0x390000 then rowsKS
  else if a < 0x400000 then rowsCP
  else if a < 0x440000 then rowsTW
  else if a < 0x480000 then rowsWK
  else if a < 0x800000 then rowsHB
  else []

/-- Is the tenon kind one of those that map the row? -/
def tenonMaps (k : TenMap) (t : Tenon) : Bool :=
  match k with
  | .any => true
  | .can => t == .can
  | .lin => t == .lin
  | .t1s => t == .t1sExt || t == .t1sInt
  | .lim => t == .can

/-- The tenon whose register layout a mortise's tenon area has: the new one while it is being loaded (R144). -/
def Mortise.layout (x : Mortise) : Tenon :=
  if x.st == .idle then .idle
  else match x.st, x.newDesc with
    | .loading, some d => tenonOf (oct d 0 % 16)
    | _, _ => x.tenon

/-- Is a row of a tenon area mapped at this offset? -/
def State.rowMapped (s : State) (r : RegRow) (a : Nat) : Bool :=
  match r.ten with
  | .any => true
  | .lim => let x := s.mort ((a - 0x301000) / 0x400); x.tenon == .can && (x.st == .inService || x.st == .draining)
  | k => tenonMaps k (s.mort ((a - 0x100000) / 0x1000)).layout

/-- The row mapped at an offset; none for unmapped space (R7). -/
def State.rowAt (s : State) (a : Nat) : Option RegRow :=
  (blockRows a).find? (fun r => decide (r.base ≤ a) && repHit r.reps (a - r.base) && s.rowMapped r a)

/-- Does the row belong to a tenon area? -/
def inTenonArea (r : RegRow) : Bool := r.ten == .can || r.ten == .lin || r.ten == .t1s

/-- The bits of the row's fields that satisfy `p`. -/
def rowMask (r : RegRow) (p : Field → Bool) : Nat :=
  (r.fields.filter p).foldl (fun m f => m ||| (2 ^ f.width - 1) * 2 ^ f.lo) 0

/-! ### Policies -/

/-- The world of an access: function 0 is the secure world, function 1 the normal one (R502). -/
def worldOf (ms : Master) (w : World) : World :=
  match ms with
  | .pcie0 => .secure
  | .pcie1 => .normal
  | _ => w

/-- Is the master a host: a PCIe function or the SPI host? -/
def isHost (ms : Master) : Bool := ms == .pcie0 || ms == .pcie1 || ms == .spi

/-- May the master read a row of this policy (R9)? `lc` is the lifecycle state in force. -/
def mayRead (p : Pol) (lc : Nat) (ms : Master) (w : World) : Bool :=
  match p with
  | .hostRo => isHost ms
  | .allRo | .allHostW => true
  | .att | .attRo => isHost ms || ms == .scarf || (ms == .jtag && lc == 3)
  | .hj => isHost ms || ms == .scarf
  | .viol => isHost ms && w == .secure
  | .msix => ms == .pcie0 || ms == .pcie1
  | _ => isHost ms || ms == .scarf || (ms == .jtag && (lc == 0 || lc == 3))

/-- Is a frame in service (R517)? -/
def State.frameUp (s : State) : Bool :=
  (s.mode == .solo || s.mode == .lead || s.mode == .shadow || s.mode == .hold) && decide (3 ≤ s.fld FR_STATUS 0 4)

/-- Is port Hp enabled by the HOSTCFG of the frame in service? -/
def State.portOn (s : State) (p : Nat) : Bool := s.frameUp && s.bit HB_PORTCFG (2 * p)

/-- The PCIe function that owns port Hp. -/
def State.portFn (s : State) (p : Nat) : Nat := b2n (s.bit HB_PORTCFG (2 * p + 1))

/-- Is the master the function that owns the ring's port (R517)? -/
def State.ownsRing (s : State) (r : Nat) (ms : Master) : Bool :=
  s.portOn (r / 4) && ((s.portFn (r / 4) == 0 && ms == .pcie0) || (s.portFn (r / 4) == 1 && ms == .pcie1))

/-- The ring an offset of the ring registers belongs to. -/
def ringAt (a : Nat) : Nat := (a - 0x481000) % 0x200 / 0x20

/-- May the master write a row of this policy at `a` (R9, R508, R517)? -/
def State.mayWrite (s : State) (p : Pol) (a : Nat) (ms : Master) (w : World) : Bool :=
  match p with
  | .std | .allHostW => isHost ms && w == .secure
  | .stdAnyW => isHost ms
  | .ksUp => (isHost ms || ms == .scarf) && w == .secure
  | .att => isHost ms || ms == .scarf || (ms == .jtag && s.ks.lc == 3)
  | .hj => isHost ms || ms == .scarf
  | .tamp => isHost ms && w == .secure && decide (s.ks.lc ≤ 1)
  | .ring => s.ownsRing (ringAt a) ms
  | .msix => ms == .pcie0 || ms == .pcie1
  | .ro | .hostRo | .allRo | .attRo | .viol => false

/-- The register that holds the lock bit of the block or page an offset lies in (R14); none for blocks without one. -/
def lockReg (a : Nat) : Option Nat :=
  if a < 0x10000 then none
  else if a < 0x20000 then some PW_CTRL
  else if a < 0x30000 then none
  else if a < 0x40000 then some FLT_INTEN
  else if a < 0x80000 then some EP_CTRL
  else if a < 0x100000 then some FR_CTRL
  else if a < 0x180000 then some (MZ_CTRL ((a - 0x100000) / 0x1000))
  else if a < 0x200000 then some (EB_MACCFG ((a - 0x180000) / 0x4000))
  else if a < 0x280000 then some SG_CTRL
  else if a < 0x300000 then some TB_CTRL
  else if a < 0x380000 then some SC_CTRL
  else if a < 0x390000 then none
  else if a < 0x400000 then some CP_CTRL
  else if a < 0x440000 then some TW_CTRL
  else if a < 0x480000 then some WK_CTRL
  else some HB_CTRL

/-- Do LK fields at `a` take a write (R10, R14, R254)? -/
def State.lkOpen (s : State) (a : Nat) : Bool :=
  (lockReg a).all (fun l => !s.bit l 31) && (a < 0x180000 || 0x200000 ≤ a || s.mode == .bench)

/-! ### Interrupts (R148, R520, R521) -/

/-- Does a mortise assert its interrupt (R148)? -/
def State.mortIrq (s : State) (m : Nat) : Bool := s.rdN (MZ_EVENT m) &&& s.rdN (MZ_INTEN m) != 0

/-- Does a mortise bent assert its interrupt? MZ_EVENT is zero where no value is stored, so only stored values are looked at. -/
def State.bentIrq (s : State) (k : Nat) : Bool :=
  s.regs.any (fun r => decide (0x100000 + 0x10000 * k ≤ r.1) && decide (r.1 < 0x110000 + 0x10000 * k) && r.1 % 0x1000 == 0x10 &&
    r.2.toNat &&& s.rdN (r.1 + 4) != 0)

/-- Does an event register assert its block's interrupt? -/
def State.evIrq (s : State) (ev en : Nat) : Bool := s.rdN ev &&& s.rdN en != 0

/-- Does source `k` of R520 assert its interrupt, for vectors 0 to 31? -/
def State.irqSource (s : State) (k : Nat) : Bool :=
  if k = 0 then s.evIrq HB_EVENT HB_INTEN
  else if k = 1 then s.fld FLT_STATUS 6 5 &&& s.fld FLT_INTEN 0 5 != 0
  else if k = 2 then s.evIrq EP_EVENT EP_INTEN
  else if k = 3 then s.evIrq FR_EVENT FR_INTEN
  else if k < 12 then s.bentIrq (k - 4)
  else if k < 24 then s.evIrq (EB_EVENT (k - 12)) (EB_INTEN (k - 12))
  else match k with
    | 24 => s.evIrq SG_EVENT SG_INTEN
    | 25 => s.evIrq TB_EVENT TB_INTEN
    | 26 => s.evIrq SC_EVENT SC_INTEN
    | 27 => s.evIrq KS_EVENT KS_INTEN
    | 28 => s.evIrq CP_EVENT CP_INTEN
    | 29 => s.evIrq TW_EVENT TW_INTEN
    | 30 => s.evIrq WK_EVENT WK_INTEN
    | 31 => s.evIrq PW_EVENT PW_INTEN
    | _ => false

/-- The sources that assert, as GL_IRQPEND shows them; none while the frame die is off. -/
def State.irqPend (s : State) : Nat :=
  if s.dieOn then (List.range 32).foldl (fun n k => if s.irqSource k then n + 2 ^ k else n) 0 else 0

/-- Is INT_N driven low (R521)? -/
def State.intN (s : State) : Bool :=
  s.dieOn && (s.irqPend &&& s.rdN GL_IRQPIN != 0 || s.hb.ringIrq &&& s.rdN GL_IRQPIN_H != 0 ||
    s.fld FLT_STATUS 6 5 &&& s.fld FLT_INTEN 8 5 != 0)

/-- A function's MSI-X table. -/
def State.msix (s : State) (fn : Nat) : List Word := if fn = 0 then s.hb.msix0 else s.hb.msix1

/-- Send a vector through a function: a masked one is marked in the PBA (R520). -/
def State.sendVec (s : State) (fn vec : Nat) : State :=
  if (nth (s.msix fn) (4 * vec + 3)).getLsbD 0 then
    s.onHb (fun h => if fn = 0 then { h with pba0 := h.pba0 ||| 2 ^ vec } else { h with pba1 := h.pba1 ||| 2 ^ vec })
  else s.onHb (fun h => { h with sent := h.sent ++ [(fn, vec)] })

/-- A ring's source asserts and its vector goes through the owning function, when CTL.INTEN is set (R518, R519). `k` is r for a receive ring,
16 + r for a transmit ring. -/
def State.ringVec (s : State) (k : Nat) : State :=
  let ctl := if k < 16 then HB_RXR_CTL k else HB_TXR_CTL (k - 16)
  if s.bit ctl 1 then (s.onHb (fun h => { h with ringIrq := h.ringIrq ||| 2 ^ k })).sendVec (s.portFn (k % 16 / 4)) (32 + k) else s

/-- The vectors of the receive rings that records were written to (R518). -/
def State.ringVecs (s : State) : State :=
  s.hb.rxDue.foldl State.ringVec (s.onHb (fun h => { h with rxDue := [] }))

/-- What follows every command: the vectors of receive rings in Raise and Bench, and a vector for each source newly asserted since `s0`. -/
def State.settle (s0 s : State) : State :=
  let s := if s.atOnce then s.ringVecs else s
  let was := s0.irqPend
  let now := s.irqPend
  (List.range 32).foldl (fun s k => if now.testBit k && !was.testBit k then s.sendVec 0 k else s) s

/-- A word of a function's MSI-X table is written; a vector unmasked while pending is sent (R520). -/
def State.msixWrite (s : State) (fn i : Nat) (v : Word) : State :=
  let s := s.onHb (fun h => if fn = 0 then { h with msix0 := h.msix0.set i v } else { h with msix1 := h.msix1.set i v })
  let pba := if fn = 0 then s.hb.pba0 else s.hb.pba1
  let vec := i / 4
  if i % 4 == 3 && !v.getLsbD 0 && pba.testBit vec then
    (s.onHb (fun h => if fn = 0 then { h with pba0 := putBit h.pba0 vec false } else { h with pba1 := putBit h.pba1 vec false })).sendVec fn vec
  else s

/-- MSIX_UNMASK: a function clears the mask bit of a vector (R520). -/
def msixUnmask (ms : Master) (vec : Nat) (s : State) : State :=
  let fn := if ms == .pcie0 then 0 else 1
  if !s.dieOn || 64 ≤ vec || !(ms == .pcie0 || ms == .pcie1) then s
  else s.msixWrite fn (4 * vec + 3) (nth (s.msix fn) (4 * vec + 3) &&& ~~~1)

/-! ### Registers that show a block's own state -/

/-- A value split over a low word, whose read latches the high word, and its companion register (R10). -/
def State.wide (s : State) (a : Nat) : Option (Nat × Nat) :=
  if a == EP_NOW_L then some (s.ep.cur.getD 0, EP_NOW_H)
  else if a == EP_REL_L then some (s.ep.rel.getD 0, EP_REL_H)
  else if a == EP_LOSSEP_L then some (s.ep.lossEp, EP_LOSSEP_H)
  else if a == EP_DIGEST_L then some (s.ep.digest, EP_DIGEST_H)
  else if a == FR_RESUME_L then some (s.fr.resumeEp, FR_RESUME_H)
  else if a == PW_ENERGY_L then some (s.pw.energy, PW_ENERGY_H)
  else if a == TW_LEXP_L then some (s.tw.expiry, TW_LEXP_H)
  else if a == TW_RSMARK_L then some (s.tw.rsMark, TW_RSMARK_H)
  else if 0x100000 ≤ a && decide (a < 0x180000) && a % 0x1000 == 0x40 then
    let m := (a - 0x100000) / 0x1000
    some ((((s.mort m).window.map (·.2)).getD 0), MZ_RES_H m)
  else if 0x321020 ≤ a && decide (a < 0x324000) && a % 0x400 == 0x20 then
    let b := (a - 0x321000) / 0x400
    some ((nth s.sch.plan b).ct, SC_GCT_H b)
  else none

/-- The code of a bent's state in FR_BENTST. -/
def bentStCode : BentSt → Nat
  | .absent => 0
  | .inService => 1
  | .isolated => 2
  | .awaiting => 3

/-- The code of a mortise's state in MZ_STATUS. -/
def mzStCode : MzState → Nat
  | .idle => 0
  | .inService => 1
  | .draining => 2
  | .loading => 3

/-- Two bits per bent, as FR_BENTST and PW_CLKST lay them out. -/
def perBent (f : Nat → Nat) : Nat := (List.range 13).foldl (fun n i => n + f i % 4 * 2 ^ (2 * i)) 0

/-- TW_STATUS.PHASE. -/
def State.twinPhase (s : State) : Nat :=
  if !s.pairedFrame then 0
  else if s.mode == .raise then 1
  else if s.mode == .hold then 5
  else if !s.paired then 0
  else if s.tw.inStep || s.tw.peerInStep then 4
  else if s.tw.catchUp == 1 then 2
  else if s.tw.catchUp == 2 then 3
  else 5

/-- TW_STATUS. -/
def State.twStatus (s : State) : Nat :=
  b2n s.tw.pairId + 2 * b2n (s.frameUp && s.pairedFrame) + 4 * b2n s.tw.lease + 8 * b2n s.tw.nopeer + 16 * b2n s.tw.scfUp +
  32 * b2n s.tw.tellUp + 64 * (s.tw.tellSt % 4) + 256 * s.twinPhase + 2048 * b2n s.tw.fenced + 4096 * (s.tw.preason % 16) +
  65536 * (s.tw.region % 8)

/-- TBSTATE. -/
def tbCode : TbState → Nat
  | .unsync => 0
  | .locked => 1
  | .holdover => 2
  | .lost => 3

/-- EP_STATUS. -/
def State.epStatus (s : State) : Nat :=
  tbCode s.tb.st + 4 * b2n s.tb.gm + 8 * b2n (s.guarOf s.procEp) + 16 * b2n (s.paired && (s.tw.inStep || s.tw.peerInStep)) +
  32 * b2n (s.bit EP_STATUS 5) + 256 * (s.tb.slvPort % 256)

/-- A register of a mortise's page that shows the mortise's own state. -/
def State.mzView (s : State) (a : Nat) : Option Nat :=
  let m := (a - 0x100000) / 0x1000
  let x := s.mort m
  match a % 0x1000 with
  | 0 => some (m + 256 * (m / 16) + 2048 * b2n (decide (112 ≤ m)) + 4096 * tenonCode x.tenon + 65536 * b2n ((oct x.desc 1).testBit 0))
  | 8 => some (mzStCode x.st + 4 * b2n (s.bent (m / 16) == .isolated) + 8 * b2n (s.drives m) + 16 * b2n x.txinh + 32 * b2n x.rxinh)
  | 0xC =>
    let b := nth s.banks (m / 16)
    some (b.decl % 4 + 4 * (b.sensed % 4) + (List.range 16).foldl (fun n j => if s.mortIrq (m / 16 * 16 + j) then n + 2 ^ (16 + j) else n) 0)
  | 0x188 => if s.isCan m then some ((s.colSync m s.now).rdN a) else none
  | _ => none

/-- A register of the HB block that shows the bridge's own state, as the master `ms` of world `w` reads it. -/
def State.hbView (s : State) (ms : Master) (w : World) (a : Nat) : Option Nat :=
  let writes := (s.hb.far.filter (fun x => x.data.isSome)).length
  if a == HB_STATUS then
    some (b2n s.tw.scfUp + s.fld HB_STATUS 1 4 * 2 + 32 * b2n s.hb.lockL.isSome + 64 * b2n s.hb.lockF.isSome + 256 * min 64 writes)
  else if a == HB_LOCKCTL then
    let tgt := s.bit HB_LOCKCTL 2
    let own := (if tgt then s.hb.lockF else s.hb.lockL).any (fun l => l.ms == ms && l.w == w)
    some (4 * b2n tgt + 8 * b2n own)
  else if 0x4C0000 ≤ a && decide (a < 0x4C0400) then some (nth (s.msix (if ms == .pcie0 then 0 else 1)) ((a - 0x4C0000) / 4)).toNat
  else if a == HB_PBA 0 then some ((if ms == .pcie0 then s.hb.pba0 else s.hb.pba1) % 2 ^ 32)
  else if a == HB_PBA 1 then some ((if ms == .pcie0 then s.hb.pba0 else s.hb.pba1) / 2 ^ 32)
  else none

/-- The value of a register that a block computes; none for a register that holds its own. -/
def State.view (s : State) (ms : Master) (w : World) (a : Nat) : Option Nat :=
  match s.wide a with
  | some (v, _) => some (v % 2 ^ 32)
  | none =>
    if a == GL_MODE then some (modeCode s.mode)
    else if a == GL_IRQPEND then some s.irqPend
    else if a == GL_IRQPEND_H then some s.hb.ringIrq
    else if a == SL_WKSRC then some s.sill.wkSrc
    else if a == PW_STATUS then some (putBit (s.rdN PW_STATUS) 1 s.ramping)
    else if a == PW_GRANT then some (s.fld PW_GRANT 0 16 + 65536 * hPkg s.fr.header)
    else if a == PW_CLKST then some (perBent s.clkShow)
    else if a == EP_STATUS then some s.epStatus
    else if a == FR_FLOOR then some s.ks.cur.floor
    else if a == FR_BENTST then some (perBent (fun i => bentStCode (s.bent i)))
    else if 0x100000 ≤ a && decide (a < 0x180000) then s.mzView a
    else if 0x180000 ≤ a && decide (a < 0x1B0000) && (a - 0x180000) % 0x4000 == 0 then
      let b := (a - 0x180000) / 0x4000
      some (b + 16 * b2n (decide (8 ≤ b)))
    else if a == TB_PSSTAT then
      let en := s.bit TB_PSCTRL 0
      let held := (s.fr.checking || s.fr.delta.isSome) && !s.bit FR_STATUS 5
      some (s.fld TB_PSSTAT 0 3 + 8 * b2n (en && !s.scanPaused) + 16 * s.fld TB_PSSTAT 4 5 + 512 * b2n (en && (s.scanPaused || held)))
    else if 0x380000 ≤ a && decide (a < 0x390000) then s.ksView a
    else if a == CP_BUDGET then some s.blkb
    else if a == TW_STATUS then some s.twStatus
    else if a == TW_GEN then some s.tw.gen
    else if a == TW_PGEN then some s.tw.pgen
    else if 0x480000 ≤ a then s.hbView ms w a
    else none

/-! ### The posted-write error log and pending errors (R511, R512) -/

/-- The number of a master in the log and in HB_STATUS.PERR; none for the scarf peer and the sequencer. -/
def masterNo : Master → Option Nat
  | .pcie0 => some 0
  | .pcie1 => some 1
  | .spi => some 2
  | .jtag => some 3
  | _ => none

/-- Enter a failure in the log: four sticky entries, then OVF alone; an entry sets PWERR and the master's flag (R511, R512). -/
def State.logFailure (s : State) (ms : Master) (w : World) (off data code : Nat) : State :=
  match masterNo ms with
  | none => s
  | some k =>
    let n := s.fld HB_PWSTAT 0 3
    if 4 ≤ n then s.setFld HB_PWSTAT 8 8 (min 255 (s.fld HB_PWSTAT 8 8 + 1))
    else
      let e := s.stampEp
      let s := (s.wrN (HB_PWLOG_W0 n) (off % 2 ^ 24 + 2 ^ 24 * k + 2 ^ 27 * b2n (w == .secure) + 2 ^ 28 * code)).wrN (HB_PWLOG_W1 n) data
      let s := ((s.wrN (HB_PWLOG_W2 n) (e % 2 ^ 32)).wrN (HB_PWLOG_W3 n) (e / 2 ^ 32)).setFld HB_PWSTAT 0 3 (n + 1)
      (s.evt HB_EVENT 0).setBit HB_STATUS (1 + k) true

/-- HB_PWSTAT.CLR clears the log and OVF (R511). -/
def State.logClear (s : State) : State :=
  (List.range 4).foldl (fun s j => (((s.wrN (HB_PWLOG_W0 j) 0).wrN (HB_PWLOG_W1 j) 0).wrN (HB_PWLOG_W2 j) 0).wrN (HB_PWLOG_W3 j) 0) (s.wrN HB_PWSTAT 0)

/-- Is the master's pending-error flag set? -/
def State.perr (s : State) (ms : Master) : Bool := (masterNo ms).any (fun k => s.bit HB_STATUS (1 + k))

/-- A read that completes with error: zero, and the flag cleared (R512). -/
def State.readError (s : State) (ms : Master) : State :=
  let s : State := match masterNo ms with
    | some k => s.setBit HB_STATUS (1 + k) false
    | none => s
  s.onBus (fun b => { b with data := 0, err := true })

/-! ### Rings (R517 to R519) -/

/-- A write of a ring register by the owning function. -/
def State.ringWriteReg (s : State) (a : Nat) (v : Nat) : State :=
  let tx := decide (0x481200 ≤ a)
  let r := ringAt a
  let base := if tx then 0x481200 + 0x20 * r else 0x481000 + 0x20 * r
  let quiet := fun (s : State) => s.onHb (fun h => { h with ringIrq := putBit h.ringIrq (if tx then 16 + r else r) false })
  match a - base with
  | 0 => if s.bit (base + 0x14) 0 then s else s.wrN a (v / 4096 * 4096)
  | 4 => if s.bit (base + 0x14) 0 then s else s.wrN a v
  | 8 => if (List.range 9).any (fun k => v % 8192 == 16 * 2 ^ k) then s.wrN a (v % 8192) else s
  | 0x10 => quiet (s.wrN a (v % 4096))
  | 0x14 =>
    let s := s.wrN a (v % 4)
    let s := if v.testBit 0 then s else
      ((s.wrN (base + 0xC) 0).wrN (base + 0x10) 0).onHb (fun h => if tx then h else { h with bufs := h.bufs.set r [] })
    if v.testBit 1 then s else quiet s
  | _ => s

/-- The transmit ring of port `p` that is served next: in ascending order after the last one served, with a descriptor waiting (R519). -/
def State.nextTxRing (s : State) (p : Nat) : Option Nat :=
  let last := nth s.hb.served p
  ((List.range 4).map (fun k => 4 * p + (last + 1 + k) % 4)).find? (fun r =>
    s.bit (HB_TXR_CTL r) 0 && decide (16 ≤ s.fld (HB_TXR_SIZE r) 0 13) && s.fld (HB_TXR_HEAD r) 0 12 != s.fld (HB_TXR_TAIL r) 0 12)

/-- HOST_RING_FRAME_READ: the bridge completes the read of the next frame of a port's rings; it is stamped as a host ring input, or its
descriptor is completed with ERR (R519). -/
def hostRingFrameRead (t r len entry : Nat) (intr : Bool) (frame : Octets) (err : Bool) (s : State) : State :=
  let s := s.tick t
  let p := r / 4
  let serves := s.mode == .solo || s.mode == .lead || s.mode == .shadow || s.mode == .hold
  if !s.dieOn || !serves || !s.portOn p || s.nextTxRing p != some r || t < nth s.hb.txAt p then s else
  let rate := leAt s.fr.header (0xC8 + 2 * p) 2
  let bad := err || len == 0 || decide (9220 < len)
  let s := s.onHb (fun h => { h with
    served := h.served.set p r
    txAt := h.txAt.set p (t + cdiv 100000 rate)
    txDone := h.txDone ++ [(r, bad, if bad then 0 else s.stampEp % 2 ^ 24)] })
  let s := s.setFld (HB_TXR_HEAD r) 0 12 ((s.fld (HB_TXR_HEAD r) 0 12 + 1) % s.fld (HB_TXR_SIZE r) 0 13)
  let s : State :=
    if bad then s.evt HB_EVENT 2
    else (s.stampIn { cls := 3, port := p, kind := .frame, octets := padTo len frame, entry := entry, ring := r }).inc (HB_CNT 2)
  if intr then s.ringVec (16 + r) else s

/-! ### BAR2 (R506, R507) -/

/-- Does a BAR2 write store the octet at `a` of the table space: the staging region unless a delta is armed or being checked, and the shadow
area? -/
def State.bar2Stores (s : State) (a : Nat) : Bool :=
  (0x990 * 2 ^ 20 ≤ a && decide (a < 0xA90 * 2 ^ 20) && !s.bit FR_STATUS 5 && !s.fr.checking) || (0xB14 * 2 ^ 20 ≤ a && decide (a < 0xFFE * 2 ^ 20))

/-- BAR2_WRITE: function 0 writes octets of the page HB_B2PAGE selects; the normal world has no BAR2 (R502). -/
def bar2Write (w : World) (off : Nat) (data : Octets) (s : State) : State :=
  if !s.dieOn || w != .secure || 2 ^ 30 < off + data.length then s else
  let base := s.fld HB_B2PAGE 0 2 * 2 ^ 30 + off
  { s with mem := (List.range data.length).foldl (fun m i => if s.bar2Stores (base + i) then memPut m (base + i) (data.getD i 0) else m) s.mem }

end Sys2Proof.Machine
end

