-- ==== Sys2Proof/Machine/HostAccess.lean ====
section
/-! DEFINITION. Machine/HostAccess.lean: what an access to register space does (R6 to R14, R52, R55, R298, R502 to R515, R549): stalls at a locked
bus, the far window with its prefetch windows, policies, the fields by their access codes, commands that act at once, stamped commands, latched
reads, and the SPI target. -/
namespace Sys2Proof.Machine
open Sys2Proof

/-! ### Reads of this unit's registers -/

/-- A read whose word is `n`. -/
def State.answer (s : State) (n : Nat) : State := s.onBus (fun b => { b with data := BitVec.ofNat 32 n, err := false })

/-- CN_PCk_W0 of mortise `m`: the offset's mortise and cell, where it is one (R172). -/
def cellAt (a : Nat) : Option (Nat × Nat) :=
  let o := a % 0x1000
  if 0x100000 ≤ a && decide (a < 0x180000) && (o == 0x200 || o == 0x280 || o == 0x300 || o == 0x380) then
    some ((a - 0x100000) / 0x1000, (o - 0x200) / 0x80)
  else none

/-- A read of CN_PCk_W0 copies the live buffer into the shadow words and clears NEW (R172). -/
def State.cellLatch (s : State) (m k : Nat) : State :=
  let cell := (s.mort m).can.cells.getD k ([], 0)
  let ws := cellWords cell.1 cell.2
  let s := (List.range 21).foldl (fun s i => s.wrN (CN_PC_W0 m k + 4 * i) (ws.getD i 0)) s
  s.setBit (CN_PCSTAT m) k false

/-- The effects a permitted read has before its value is taken: the high word is latched (R10), a priority cell copied (R172), a free value
taken for the pin levels of MZ_STATUS, which nothing in the model drives. -/
def State.readLatch (s : State) (r : RegRow) (a : Nat) : State :=
  let s : State := match s.wide a with
    | some (v, hi) => s.wrN hi (v / 2 ^ 32)
    | none => s
  match r.ten, cellAt a with
  | .can, some (m, k) => s.cellLatch m k
  | _, _ => s

/-- The value a permitted read returns: write-only and reserved fields read as zero (R8, R10); the buffer of the key packet reads as zero in the
normal world; a tenon area reads as zero while its tenon is loaded (R144). -/
def State.readValue (s : State) (r : RegRow) (ms : Master) (w : World) (a : Nat) : Nat :=
  if r.base == KS_UPBUF 0 && w == .normal then 0
  else if inTenonArea r && (s.mort ((a - 0x100000) / 0x1000)).st == .loading then 0
  else (s.view ms w a).getD (s.rdN a) &&& rowMask r (fun f => f.acc != .wo)

/-- Is an access one the device accepts: 32 bits, aligned (R6)? -/
def wordAccess (a size : Nat) : Bool := size == 4 && a % 4 == 0

/-- A read of this unit's register space by a master that no lock keeps out and whose flag is clear; `upd` is the value an RC field takes in the
same clock (R12). -/
def State.localRead (s : State) (ms : Master) (w : World) (a size upd : Nat) : State :=
  if !wordAccess a size then s.violation.answer 0 else
  match s.rowAt a with
  | none => s.answer 0
  | some r =>
    if !mayRead r.pol s.ks.lc ms w then s.violation.answer 0
    else
      let s := s.readLatch r a
      let v := s.readValue r ms w a
      let rc := rowMask r (fun f => f.acc == .rc)
      let s := if rc == 0 then s else s.wrN a ((s.rdN a &&& (0xFFFFFFFF ^^^ rc)) ||| (upd % 2 ^ 32 &&& rc))
      if r.base == MZ_STATUS 0 then
        let (x, s) := s.fresh 4
        s.answer (v + 256 * x)
      else s.answer v

/-! ### Locks of the register buses (R514) -/

/-- A write of HB_LOCKCTL: REL by the holder releases, ACQ requests the bus TGT names. A request for the far bus is granted when no master of
this unit holds it and the twin does, which the model leaves free. -/
def State.lockCtl (s : State) (ms : Master) (w : World) (far acq rel : Bool) : State :=
  let mine := fun (l : Option BusLock) => l.any (fun l => l.ms == ms && l.w == w)
  let s := if rel && !far && mine s.hb.lockL then s.onHb (fun h => { h with lockL := none }) else s
  let s := if rel && far && mine s.hb.lockF then s.onHb (fun h => { h with lockF := none }) else s
  if !acq then s
  else if !far then
    (if s.hb.lockL.isNone then s.onHb (fun h => { h with lockL := some { ms := ms, w := w, at_ := s.now } }) else s)
  else if s.hb.lockF.isSome || !s.tw.scfUp || (masterNo ms).isNone then s
  else
    let (x, s) := s.fresh 1
    if x == 1 then s.onHb (fun h => { h with lockF := some { ms := ms, w := w, at_ := s.now } }) else s

/-! ### Writes of this unit's registers -/

/-- The captured operands of a ledger-input write at `a` (R105, R298, R388); elsewhere the bits that take it. -/
def State.capture (s : State) (a mask : Nat) : List Nat :=
  let words := fun (f : Nat → Nat) (n : Nat) => (List.range n).map (fun i => s.rdN (f i))
  if a == SG_CMDOP then s.rdN SG_CMDIDX :: s.rdN SG_CMDOFF :: words SG_CMDD 16
  else if a == TB_CMDOP then s.rdN TB_CMDIDX :: 0 :: words TB_CMDD 8
  else if a == SC_CMDOP then s.rdN SC_CMDIDX :: 0 :: words SC_CMDD 6
  else if a == CP_CMDOP then s.rdN CP_CMDIDX :: 0 :: words CP_CMDD 8
  else if a == FR_SWAP_H then [s.rdN FR_SWAP_L]
  else if a == KS_UPEP_H then [s.rdN KS_UPEP_L]
  else [mask]

/-- PORT of a host command by its master (R55). -/
def commandPort : Master → Nat
  | .spi => 1
  | .scarf => 2
  | _ => 0

/-- A write to ledger-input fields: stamped in Solo, Lead, Shadow and Hold (R52, R55), at once in Raise and Bench (R549). -/
def State.ledgerInput (s : State) (ms : Master) (a v mask : Nat) : State :=
  let cap := s.capture a mask
  if s.atOnce then (s.ledgerWrite 0 a v cap).applyHeld
  else s.stampIn { cls := 0, port := commandPort ms, kind := .command, addr := a, data := v, cap := cap }

/-- A write of FR_CTRL: START raises in Hold and Bench and checks a delta in Solo, Lead and Shadow; FWD and ABORT (R87, R96, R104). -/
def State.frCtrl (s : State) (v : Nat) : State :=
  let s : State :=
    if v.testBit 0 then
      match s.mode with
      | .hold | .bench => hostRaise s.now s
      | .solo | .lead | .shadow => deltaCheck s.now s
      | _ => s
    else s
  let s := if v.testBit 3 then s.stagingForward else s
  if v.testBit 4 then s.deltaAbort else s

/-- Fields outside the ledger take a write by their access codes (R8, R10); `mask` are the bits the command writes, and a bit of `upd` that the write
clears in the clock in which the device sets it stays set (R11). -/
def State.storeFields (s : State) (r : RegRow) (a v mask upd : Nat) : State :=
  let bits := fun (p : Field → Bool) => rowMask r (fun f => !f.ledger && p f) &&& mask
  let st := bits (fun f => f.acc == .rw || (f.acc == .lk && s.lkOpen a))
  let set := bits (fun f => f.acc == .w1s)
  let clr := bits (fun f => f.acc == .w1c)
  if st ||| set ||| clr == 0 then s
  else s.wrN a ((((s.rdN a &&& (0xFFFFFFFF ^^^ st)) ||| (v &&& st) ||| (v &&& set)) &&& (0xFFFFFFFF ^^^ (v &&& clr))) ||| (v &&& clr &&& upd))

/-- What a write to a field that acts does, beside the fields it stores: the commands of FLT_ACK, FR_CTRL, EB_MDIO_CMD, TB_SHWDATA, KS_UPCTL,
KS_TAMPCFG, KS_ATTCTL, CP_HJCTL, TW_CTRL, HB_LOCKCTL and HB_PWSTAT. `v` holds the written bits. -/
def State.actWrite (s : State) (ms : Master) (w : World) (a v : Nat) : State :=
  if a == FLT_ACK then
    let s := s.faultAck (v % 32)
    if v.testBit 5 then s.secondFaultClear else s
  else if a == FR_CTRL then s.frCtrl v
  else if a == EB_MDIO_CMD then s.mdioStart (BitVec.ofNat 32 v)
  else if a == TB_SHWDATA then s.shadowWrite (BitVec.ofNat 32 v)
  else if a == KS_UPCTL then
    let s := if v.testBit 0 then s.keyPacketCheck s.now else s
    if v.testBit 1 then s.keyPacketDiscard else s
  else if a == KS_ATTCTL then (if v.testBit 0 then s.attestationRequest s.now else s)
  else if a == CP_HJCTL then (if v.testBit 0 then s.hostJob s.now ms w else s)
  else if a == TW_CTRL then (if v.testBit 1 then s.leaseOverride s.now (bitsN v 8 8) else s)
  else if a == HB_LOCKCTL then s.lockCtl ms w (v.testBit 2) (v.testBit 0) (v.testBit 1)
  else if a == HB_PWSTAT then (if v.testBit 3 then s.logClear else s)
  else s

/-- A tenon area takes no write to fields outside the ledger from the start of epoch G to the start of epoch A (R144). -/
def State.tenonShut (s : State) (r : RegRow) (a : Nat) : Bool :=
  inTenonArea r && s.ep.cur.any (s.mort ((a - 0x100000) / 0x1000)).shut

/-- Writes that are ignored for their value or for the state, of the bits `mask`: an interface mode not permitted for the bay (R240), EB_RXCFG.MAXU outside its
range, FR_STAGE while a delta is armed. -/
def State.writeIgnored (s : State) (r : RegRow) (a v mask : Nat) : Bool :=
  (r.base == EB_MACCFG 0 && s.lkOpen a && mask.testBit 0 && !ifmodeOk ((a - EB_MACCFG 0) / 0x4000) (v % 8)) ||
  (r.base == EB_RXCFG 0 && s.lkOpen a && mask.testBit 0 && !(decide (1518 ≤ bitsN v 0 14) && decide (bitsN v 0 14 ≤ 9208))) ||
  (a == FR_STAGE && s.bit FR_STATUS 5)

/-- The bits a write may change: EP_CTRL.DIGCHK is cleared in Bench only. -/
def State.openBits (s : State) (a v mask : Nat) : Nat :=
  if a == EP_CTRL && s.mode != .bench && !v.testBit 8 then mask &&& 0xFFFFFEFF else mask

/-- A permitted write to fields outside the ledger: registers with rules of their own, then the fields by their codes and the action. -/
def State.plainWrite (s : State) (r : RegRow) (ms : Master) (w : World) (a v mask upd : Nat) : State :=
  if s.tenonShut r a then s
  else if r.pol == .ring then s.ringWriteReg a v
  else if r.pol == .msix then s.msixWrite (if ms == .pcie0 then 0 else 1) ((a - 0x4C0000) / 4) (BitVec.ofNat 32 v)
  else if r.pol == .tamp then s.tamperConfigWrite ((a - KS_TAMPCFG 0) / 4) (BitVec.ofNat 32 v)
  else if r.base == KS_UPBUF 0 && s.fld KS_UPST 0 3 != 0 then s
  else if (r.base == EB_WP_M 0 0 0 || r.base == EB_WP_CTL 0 0) && (s.mode == .solo || s.mode == .lead || s.mode == .shadow) then s
  else if s.writeIgnored r a v mask then s
  else
    let s' := (s.storeFields r a v (s.openBits a v mask) upd).actWrite ms w a (v &&& mask)
    if s'.tbRole != s.tbRole then s'.roleLoaded s.tbRole else s'

/-- A write of this unit's register space by a master that no lock keeps out; `mask` are the bits the command writes, `upd` the W1C bits the device
sets in the same clock. -/
def State.localWrite (s : State) (ms : Master) (w : World) (a size v mask upd : Nat) : State :=
  if !wordAccess a size then s.violation else
  match s.rowAt a with
  | none => s
  | some r =>
    if !s.mayWrite r.pol a ms w then s.violation
    else
      let led := rowMask r (fun f => f.ledger && f.acc != .ro && (f.acc != .lk || s.lkOpen a)) &&& mask
      let s := s.plainWrite r ms w a v mask upd
      if led == 0 then s else s.ledgerInput ms a (v &&& led) led

/-! ### The far window (R509 to R513, R515) -/

/-- Is the offset in the far window of BAR0 (R505)? -/
def isFar (a : Nat) : Bool := decide (0x800000 ≤ a) && decide (a < 0x1000000)

/-- The failure code while the window is not live: the twin's frame die in reset or unpowered, which its tell pair shows as static, or the link
down (R443, R511). -/
def State.downCode (s : State) : Nat := if s.tw.tellSt == 1 then 4 else 1

/-- A far access fails: a write is logged, a read completes with error (R511, R512). -/
def State.farFail (s : State) (x : FarReq) (code : Nat) : State :=
  match x.data with
  | some d => s.logFailure x.ms x.w x.off d.toNat code
  | none => s.onBus (fun b => { b with data := 0, err := true })

/-- The enabled prefetch window a far offset lies in (R515). -/
def State.pfWindow (s : State) (off : Nat) : Option Nat :=
  (List.range 4).find? (fun k => s.bit (HB_PF_CFG k) 16 &&
    decide (s.fld (HB_PF_BASE k) 8 16 ≤ off / 256) && decide (off / 256 ≤ s.fld (HB_PF_BASE k) 8 16 + s.fld (HB_PF_CFG k) 0 8))

/-- The held block a far offset lies in. -/
def State.heldBlock (s : State) (off : Nat) : Option PfBlock :=
  s.hb.blocks.find? (fun b => b.off / 256 == off / 256 && decide (s.now < b.at_ + 1000 * b.life))

/-- A far access of a master of this unit that no lock keeps out: it fails at once while the window is not live; a read in an enabled prefetch
window is served from a held block; a write discards a held block it falls into. A read that R6 does not accept is served from no block: the twin
answers it, and counts it (R508). -/
def State.farIssue (s : State) (x : FarReq) : State :=
  let s := if x.data.isSome then s.onHb (fun h => { h with blocks := h.blocks.filter (fun b => b.off / 256 != x.off / 256) }) else s
  let held := if x.data.isNone && wordAccess x.off x.size && (s.pfWindow x.off).isSome then s.heldBlock x.off else none
  match held with
  | some b => s.answer ((b.words.getD (x.off % 256 / 4) 0).toNat)
  | none =>
    if !s.tw.scfUp then s.farFail x s.downCode
    else
      let s := s.onHb (fun h => { h with far := h.far ++ [{ x with at_ := s.now }] })
      if x.data.isNone then s.onBus (fun b => { b with data := 0, err := false }) else s

/-! ### Any access -/

/-- Is a bus held by another master than the one of the access (R514), or the far queue full for a write (R510)? -/
def State.blocked (s : State) (x : Access) : Bool :=
  let other := fun (l : Option BusLock) => l.any (fun l => l.ms != x.ms || l.w != x.w)
  if isFar x.addr then
    other s.hb.lockF || (x.data.isSome && s.tw.scfUp && decide (64 ≤ (s.hb.far.filter (fun f => f.data.isSome)).length))
  else other s.hb.lockL

/-- An access that nothing blocks: to the far window, or to this unit's registers. -/
def State.perform (s : State) (x : Access) : State :=
  if isFar x.addr && (masterNo x.ms).isSome then s.farIssue { ms := x.ms, w := x.w, off := x.addr - 0x800000, size := x.size, data := x.data }
  else match x.data with
    | some d => s.localWrite x.ms x.w x.addr x.size d.toNat x.mask x.upd
    | none => s.localRead x.ms x.w x.addr x.size x.upd

/-- The first stalled access that nothing blocks and that no earlier one of its master precedes, with the others. -/
def State.pickReady (s : State) : List Access → List Access → Option (Access × List Access)
  | _, [] => none
  | pre, x :: xs => if pre.any (fun y => y.ms == x.ms) || s.blocked x then s.pickReady (pre ++ [x]) xs else some (x, pre ++ xs)

/-- Stalled accesses proceed once nothing blocks them, at most `n` of them (R514). -/
def State.drain : Nat → State → State
  | 0, s => s
  | n + 1, s =>
    match s.pickReady [] s.hb.stalled with
    | none => s
    | some (x, rest) => State.drain n ((s.onHb (fun h => { h with stalled := rest })).perform x)

/-- Every stalled access that may proceed does. -/
def State.unstall (s : State) : State := s.drain s.hb.stalled.length

/-- The SPI target takes commands while SPIEN is set, secure ones while SPISEC is set as well (R504, R516). -/
def State.spiOpen (s : State) (w : World) : Bool := s.bit HB_PORTCFG 8 && (w == .normal || s.bit HB_PORTCFG 9)

/-- An access by a master. Nothing reaches a frame die that is off; with both units' far accesses crossing, unit 0 answers the twin's with retry
(R513); a read with the master's flag set completes with error (R512); an access to a bus another master holds stalls (R514). -/
def State.access (s : State) (y : Access) : State :=
  let x := { y with w := worldOf y.ms y.w }
  if !s.dieOn || (x.ms == .spi && !s.spiOpen x.w) then s
  else if x.ms == .scarf && !s.tw.pairId && !s.hb.far.isEmpty then s.inc (HB_CNT 0)
  else if x.data.isNone && s.perr x.ms then s.readError x.ms
  else if s.hb.stalled.any (fun z => z.ms == x.ms) || s.blocked x then s.onHb (fun h => { h with stalled := h.stalled ++ [x] })
  else (s.perform x).unstall

/-- A write of the bits `mask` of a register as one word. -/
def State.busWrite (s : State) (ms : Master) (w : World) (a v : Nat) (mask : Nat := 0xFFFFFFFF) : State :=
  s.access { ms := ms, w := w, addr := a, data := some (BitVec.ofNat 32 v), mask := mask }

/-- A read of a word. -/
def State.busRead (s : State) (ms : Master) (w : World) (a : Nat) : State := s.access { ms := ms, w := w, addr := a }

/-! ### Rows -/

/-- REGISTER_WRITE: a write of `size` octets; the device sets the W1C bits `upd` of the register in the same clock (R6, R10, R11). -/
def registerWrite (ms : Master) (w : World) (a size : Nat) (v : Word) (upd : Nat) (s : State) : State :=
  s.access { ms := ms, w := w, addr := a, size := size, data := some v, mask := 0xFFFFFFFF, upd := upd }

/-- READ_CLEAR: a read; an RC field returns its value and is cleared but for an update in the same clock (R10, R12). The one register with an
RC field is EP_TWOFSMAX; a read of another offset is a plain read. -/
def readClear (ms : Master) (w : World) (a size upd : Nat) (s : State) : State := s.access { ms := ms, w := w, addr := a, size := size, upd := upd }

/-- LATCHED_READ: a read; that of a low word latches its high word (R10), and that of another offset is a plain read. -/
def latchedRead (ms : Master) (w : World) (a size : Nat) (s : State) : State := s.access { ms := ms, w := w, addr := a, size := size }

/-- PRIORITY_CELL_READ: a read of CN_PCk_W0 (R172). -/
def priorityCellRead (ms : Master) (w : World) (m k : Nat) (s : State) : State :=
  if m < 128 && decide (k < 4) then s.busRead ms w (CN_PC_W0 m k) else s

/-- BLOCK_LOCK_SET: a write of 1 to the LOCK bit of a block or page (R14). -/
def blockLockSet (ms : Master) (w : World) (a : Nat) (s : State) : State :=
  if lockRegs.contains a then s.busWrite ms w a (2 ^ 31) (2 ^ 31) else s

/-- FAR_ACCESS: an access at offset `off` of the far window. -/
def farAccess (t : Nat) (ms : Master) (w : World) (off size : Nat) (write : Option Word) (s : State) : State :=
  if off < 0x800000 then (s.tick t).access { ms := ms, w := w, addr := 0x800000 + off, size := size, data := write, mask := 0xFFFFFFFF } else s

/-- FAR_COMPLETION: the twin completes the oldest outstanding far access; a read returns its word (R510). -/
def farCompletion (t : Nat) (data : Option Word) (s : State) : State :=
  let s := s.tick t
  match s.hb.far with
  | [] => s
  | x :: rest =>
    let s := s.onHb (fun h => { h with far := rest })
    let s := if x.data.isNone then s.answer (data.getD 0).toNat else s
    s.unstall

/-- FAR_ACCESS_TIMEOUT: the oldest far access has not completed within 10 µs (R510, R511). -/
def farAccessTimeout (t : Nat) (s : State) : State :=
  let s := s.tick t
  match s.hb.far with
  | [] => s
  | x :: rest => if s.now < x.at_ + 10000 then s else ((s.onHb (fun h => { h with far := rest })).farFail x 2).unstall

/-- SCARF_LINK_LOSS: every far access on the link is lost and fails (R550). -/
def scarfLinkLoss (t : Nat) (s : State) : State :=
  let s := s.tick t
  let lost := s.hb.far
  (lost.foldl (fun s x => s.farFail x s.downCode) (s.onHb (fun h => { h with far := [] }))).unstall

/-- LOCK_ACQUIRE: ACQ for the local or the far bus. The twin's masters reach this unit's bus through a far lock of theirs. -/
def lockAcquire (t : Nat) (ms : Master) (w : World) (far : Bool) (s : State) : State :=
  let s := s.tick t
  if ms == .scarf then (if s.dieOn && !far then s.lockCtl ms w false true false else s)
  else s.busWrite ms w HB_LOCKCTL (1 + 4 * b2n far) 7

/-- LOCK_RELEASE: REL for the local or the far bus. -/
def lockRelease (ms : Master) (w : World) (far : Bool) (s : State) : State :=
  if ms == .scarf then (if s.dieOn && !far then (s.lockCtl ms w false false true).unstall else s)
  else s.busWrite ms w HB_LOCKCTL (2 + 4 * b2n far) 7

/-- LOCK_ABORT: a lock held for 4 µs ends; the abort is logged and the stalled accesses proceed (R514). -/
def lockAbort (t : Nat) (far : Bool) (s : State) : State :=
  let s := s.tick t
  match (if far then s.hb.lockF else s.hb.lockL) with
  | none => s
  | some l =>
    if s.now < l.at_ + 4000 then s
    else
      let s := s.onHb (fun h => if far then { h with lockF := none } else { h with lockL := none })
      let s := (s.logFailure l.ms l.w 0 0 3).evt HB_EVENT 1
      (s.inc (HB_CNT 1)).unstall

/-- The word at `a` as a block fetch of the twin finds it, without side effects: none where the policy keeps the scarf peer out (R515). -/
def State.blockWord (s : State) (w : World) (a : Nat) : Option Nat :=
  match s.rowAt a with
  | none => some 0
  | some r => if mayRead r.pol s.ks.lc .scarf w then some (s.readValue r .scarf w a) else none

/-- The twin fetches the block of 64 registers at `off`: registers outside the policy read as zero, and one violation is counted for them (R509, R515). -/
def State.blockFetch (s : State) (w : World) (off : Nat) : State :=
  let ws := (List.range 64).map (fun i => s.blockWord w (off / 256 * 256 + 4 * i))
  let s := if ws.all Option.isSome then s else s.violation
  s.onBus (fun b => { b with words := ws.map (fun x => BitVec.ofNat 32 (x.getD 0)), err := false })

/-- PREFETCH_READ: a read in an enabled prefetch window; `block` is what the twin's block holds when none is held here (R515). The scarf peer's own
fetch of a block of this unit answers all its words. -/
def prefetchRead (t : Nat) (ms : Master) (w : World) (off : Nat) (block : List Word) (s : State) : State :=
  let s := s.tick t
  if ms == .scarf then (if s.dieOn && decide (off < 0x800000) then s.blockFetch w off else s) else
  match s.pfWindow off with
  | none => s
  | some k =>
    let x : Access := { ms := ms, w := worldOf ms w, addr := 0x800000 + off }
    if !s.dieOn || (masterNo ms).isNone || 0x800000 ≤ off || (ms == .spi && !s.spiOpen w) then s
    else if off % 4 != 0 || s.perr ms || s.blocked x || s.hb.stalled.any (fun z => z.ms == ms) || (s.heldBlock off).isSome || !s.tw.scfUp then s.access x
    else
      let b : PfBlock := { off := off / 256 * 256, words := block, at_ := s.now, life := max 1 (s.fld (HB_PF_CFG k) 8 8) }
      let s := s.onHb (fun h => { h with blocks := h.blocks.filter (fun y => y.off != b.off) ++ [b] })
      s.answer ((block.getD (off % 256 / 4) 0).toNat)

/-- PREFETCH_EXPIRE: a held block is discarded after PFLIFE µs (R515). -/
def prefetchExpire (t k : Nat) (s : State) : State :=
  let s := s.tick t
  match s.hb.blocks[k]? with
  | none => s
  | some b => if s.now < b.at_ + 1000 * b.life then s else s.onHb (fun h => { h with blocks := h.blocks.eraseIdx k })

/-- READ_COMPLETES_WITH_ERROR: a PCIe or JTAG read by a master whose flag is set (R512). -/
def readCompletesWithError (ms : Master) (s : State) : State :=
  if s.dieOn && ms != .spi && s.perr ms then s.readError ms else s

/-- RING_TAIL_WRITE: a write of TAIL; the descriptors given to a receive ring have the BUFLENs listed (R517). -/
def ringTailWrite (ms : Master) (w : World) (tx : Bool) (r tail : Nat) (bufLens : List Nat) (s : State) : State :=
  if 16 ≤ r then s else
  let s' := s.busWrite ms w (if tx then HB_TXR_TAIL r else HB_RXR_TAIL r) tail
  if s.dieOn && s.ownsRing r ms && !tx then s'.onHb (fun h => { h with bufs := updAt h.bufs r (fun l => l ++ bufLens) }) else s'

/-- RING_DISABLE: a write of CTL with EN = 0 (R517). -/
def ringDisable (ms : Master) (w : World) (tx : Bool) (r : Nat) (inten : Bool) (s : State) : State :=
  if 16 ≤ r then s else s.busWrite ms w (if tx then HB_TXR_CTL r else HB_RXR_CTL r) (2 * b2n inten)

/-! ### SPI (R504) -/

/-- SPI_TRANSACTION: the command octet gives direction and world; a read returns as many words as `vals` holds. -/
def spiTransaction (cmd addr : Nat) (vals : List Word) (s : State) : State :=
  let w : World := if cmd == 0x12 || cmd == 0x13 then .secure else .normal
  if !s.dieOn || !(cmd == 2 || cmd == 3 || cmd == 0x12 || cmd == 0x13) || !s.spiOpen w then s
  else if cmd % 2 == 0 then
    (List.range vals.length).foldl (fun s i => s.busWrite .spi w (addr + 4 * i) ((vals.getD i 0).toNat)) s
  else if s.perr .spi then
    (s.readError .spi).onBus (fun b => { b with status := 0xE1, words := List.replicate vals.length 0 })
  else
    let s := s.onBus (fun b => { b with words := [], err := false })
    let s := (List.range vals.length).foldl (fun s i =>
      let bad := s.bus.err
      let s := s.busRead .spi w (addr + 4 * i)
      s.onBus (fun b => { b with words := b.words ++ [b.data], err := b.err || bad })) s
    let waits := s.hb.far.any (fun x => x.ms == .spi && x.data.isNone) || s.hb.stalled.any (fun x => x.ms == .spi && x.data.isNone)
    s.onBus (fun b => { b with
      status := if b.err then 0xE1 else if waits then 0 else 0x5A
      words := if b.err then List.replicate vals.length 0 else b.words })

end Sys2Proof.Machine
end

