-- ==== Sys2Proof/Machine/Rows.lean ====
section
/-! DEFINITION. Machine/Rows.lean: what rows of one kind share: a ledger-input command as a command of its own, a write into a tenon area, and
the start of a bay frame with what the cipher engine does to it. -/
namespace Sys2Proof.Machine
open Sys2Proof

/-- A processed ledger-input command as a command of its own: in Raise and Bench it is ignored where R549 says so, else it acts at once; in
service its covered updates wait for the end of the epoch being processed, and apply at once when none is. -/
def State.processed (s : State) (needsEpoch : Bool) (f : State → State) : State :=
  if !s.dieOn then s
  else if s.atOnce then (if needsEpoch then s else (f s).applyHeld)
  else if (f s).ep.running.isNone then (f s).applyHeld
  else f s

/-- The epoch being processed, or being stamped when none is. -/
def State.nowProcessed (s : State) : Nat := s.ep.running.getD (s.ep.cur.getD 0)

/-- A command stamped in epoch `c` for the tenon area of a mortise that runs a tenon of kind `k` (`.t1sInt` stands for both T1S kinds): none
while the mortise is re-tenoned (R106, R144). -/
def tenonCommand (c m : Nat) (k : Tenon) (f : State → State) (s : State) : State :=
  let x := s.mort m
  let kind := x.tenon == k || (k == .t1sInt && x.tenon == .t1sExt)
  if x.shut c || x.st == .idle || !kind || 128 ≤ m then s else f s

/-- BAY_FRAME_TRANSMIT: the next frame starts on the wire; where it is a cut-through stream, its end is known only now (R349, R421). -/
def bayTransmit (t b : Nat) (s : State) : State :=
  let s' := bayFrameTransmit t b s
  match (s'.bay b).wire with
  | some e => if (s'.bay b).wireEnd != (s.bay b).wireEnd then s'.streamSent b e else s'
  | none => s'

end Sys2Proof.Machine
end

