-- ==== Sys2Proof/Machine/RunBays.lean ====
section
/-! DEFINITION. Machine/RunBays.lean: the meanings of the commands of the time base, the bays and the egress of the scheduler to them, one definition per row of the table. -/
namespace Sys2Proof.Machine
open Sys2Proof

/-- GPTP_SYNC_RECEIVED (R41). -/
def execGptpSyncReceived (t : Nat) (bay : Nat) (domain : Nat) (offset : Int) (s : State) : Host.Outcome State Fault Refusal :=
  .next (s.settle (s.gptpSyncReceived t bay domain offset))

/-- TB_HOLDOVER (R41). -/
def execTbHoldover (t : Nat) (s : State) : Host.Outcome State Fault Refusal :=
  .next (s.settle (s.tbHoldover t))

/-- TB_LOST (R44). -/
def execTbLost (t : Nat) (s : State) : Host.Outcome State Fault Refusal :=
  .next (s.settle (s.tbLost t))

/-- ANNOUNCE_TIMEOUT (R551). -/
def execAnnounceTimeout (t : Nat) (s : State) : Host.Outcome State Fault Refusal :=
  .next (s.settle (s.announceTimeout t))

/-- ANNOUNCE_RECEIVED (R551). -/
def execAnnounceReceived (t : Nat) (bay : Nat) (domain : Nat) (vec : List Nat) (s : State) : Host.Outcome State Fault Refusal :=
  .next (s.settle (s.announceReceived t bay domain vec))

/-- PDELAY_EXCHANGE (R249). -/
def execPdelayExchange (t : Nat) (bay : Nat) (delay : Nat) (s : State) : Host.Outcome State Fault Refusal :=
  .next (s.settle (s.pdelayExchange t bay delay))

/-- BAY_FRAME_RECEIVED (R243). -/
def execBayFrameReceived (t : Nat) (bay : Nat) (frame : Octets) (fcsErr : Bool) (codeErr : Bool) (s : State) : Host.Outcome State Fault Refusal :=
  .next (s.settle (bayFrameReceived t bay frame fcsErr codeErr s))

/-- PAUSE_EXPIRY (R257). -/
def execPauseExpiry (t : Nat) (bay : Nat) (s : State) : Host.Outcome State Fault Refusal :=
  .next (s.settle (pauseExpiry t bay s))

/-- LINK_CHANGE (R242). -/
def execLinkChange (t : Nat) (bay : Nat) (link : LinkView) (s : State) : Host.Outcome State Fault Refusal :=
  .next (s.settle (linkChange t bay link.up link.held s))

/-- AUTONEG_WORD_RECEIVED (R241). -/
def execAutonegWordReceived (bay : Nat) (halfDuplex : Bool) (speed : Nat) (s : State) : Host.Outcome State Fault Refusal :=
  .next (s.settle (autonegWordReceived bay halfDuplex speed s))

/-- MDIO_DONE (R264). -/
def execMdioDone (rdata : Nat) (ack : Bool) (s : State) : Host.Outcome State Fault Refusal :=
  .next (s.settle (mdioDone rdata ack s))

/-- BAY_FRAME_TRANSMIT (R349). -/
def execBayFrameTransmit (t : Nat) (bay : Nat) (s : State) : Host.Outcome State Fault Refusal :=
  .next (s.settle (bayTransmit t bay s))

end Sys2Proof.Machine
end

