-- ==== Sys2Proof/Machine/RunCan.lean ====
section
/-! DEFINITION. Machine/RunCan.lean: the meanings of the commands of the CAN tenon, one definition per row of the table. -/
namespace Sys2Proof.Machine
open Sys2Proof

/-- CAN_FRAME_RECEIVED (R163). -/
def execCanFrameReceived (t : Nat) (m : Nat) (rx : CanRx) (s : State) : Host.Outcome State Fault Refusal :=
  .next (s.settle (canFrameReceived t m rx.sof rx.octets s))

/-- CAN_ARBITRATION_START (R177). -/
def execCanArbitrationStart (t : Nat) (m : Nat) (s : State) : Host.Outcome State Fault Refusal :=
  .next (s.settle (canArbitrationStart t m s))

/-- CAN_TRANSMIT_END (R165). -/
def execCanTransmitEnd (t : Nat) (m : Nat) (tdcv : Nat) (s : State) : Host.Outcome State Fault Refusal :=
  .next (s.settle ((canTransmitEnd t m tdcv s).letGo m))

/-- CAN_TRANSMIT_FAILED (R184). -/
def execCanTransmitFailed (t : Nat) (m : Nat) (lost : CanLost) (s : State) : Host.Outcome State Fault Refusal :=
  .next (s.settle ((canTransmitFailed t m lost.arb lost.tdcv s).letGo m))

/-- CAN_BUS_ERROR (R185). -/
def execCanBusError (t : Nat) (m : Nat) (err : CanErr) (fault : CanFault) (s : State) : Host.Outcome State Fault Refusal :=
  .next (s.settle ((canBusError t m err fault.suspect fault.tdcv s).letGo m))

/-- BUS_OFF_RECOVERED (R187). -/
def execBusOffRecovered (t : Nat) (m : Nat) (s : State) : Host.Outcome State Fault Refusal :=
  .next (s.settle (busOffRecovered t m s))

/-- BUS_OFF_RECOVERY_REQUEST (R187). -/
def execBusOffRecoveryRequest (c : Nat) (m : Nat) (s : State) : Host.Outcome State Fault Refusal :=
  .next (s.settle (s.processed false (tenonCommand c m .can (busOffRecoveryRequest m))))

/-- CAN_OPMODE_WRITE (R183). -/
def execCanOpmodeWrite (c : Nat) (m : Nat) (mode : Nat) (s : State) : Host.Outcome State Fault Refusal :=
  .next (s.settle (s.processed false (tenonCommand c m .can (canOpmodeWrite m (mode % 4)))))

/-- CAN_TX_ABORT (R180). -/
def execCanTxAbort (t : Nat) (m : Nat) (mask : Nat) (s : State) : Host.Outcome State Fault Refusal :=
  .next (s.settle ((s.tick t).processed false (tenonCommand (s.nowProcessed) m .can (canTxAbort m mask))))

/-- BEGIN_DRIVING (R179). -/
def execBeginDriving (t : Nat) (s : State) : Host.Outcome State Fault Refusal :=
  .next (s.settle (beginDriving t s))

/-- BASIC_CYCLE_START (R195). -/
def execBasicCycleStart (t : Nat) (m : Nat) (s : State) : Host.Outcome State Fault Refusal :=
  .next (s.settle (basicCycleStart t m s))

/-- EXCLUSIVE_WINDOW_OPEN (R198). -/
def execExclusiveWindowOpen (t : Nat) (m : Nat) (busy : Bool) (s : State) : Host.Outcome State Fault Refusal :=
  .next (s.settle (exclusiveWindowOpen t m busy s))

/-- WINDOW_END (R198). -/
def execWindowEnd (t : Nat) (m : Nat) (s : State) : Host.Outcome State Fault Refusal :=
  .next (s.settle (windowEnd t m s))

/-- REFERENCE_LOST (R196). -/
def execReferenceLost (t : Nat) (m : Nat) (s : State) : Host.Outcome State Fault Refusal :=
  .next (s.settle (referenceLost t m s))

end Sys2Proof.Machine
end

