-- ==== Sys2Proof/Machine/RunFrame.lean ====
section
/-! DEFINITION. Machine/RunFrame.lean: the meanings of the commands of modes, resets, power rails, the frame loader and re-tenoning, one definition per row of the table. -/
namespace Sys2Proof.Machine
open Sys2Proof

/-- MODE_REQUEST (R30). -/
def execModeRequest (ms : Master) (w : World) (target : Mode) (s : State) : Host.Outcome State Fault Refusal :=
  .next (s.settle (modeRequest ms (worldOf ms w) target s))

/-- PORESET_ASSERT (R534). -/
def execPoresetAssert (s : State) : Host.Outcome State Fault Refusal :=
  .next (s.settle (poresetAssert s))

/-- PORESET_RELEASE (R534). -/
def execPoresetRelease (t : Nat) (twinId : Bool) (s : State) : Host.Outcome State Fault Refusal :=
  .next (s.settle (poresetRelease t twinId s))

/-- FRAME_DIE_START (R529). -/
def execFrameDieStart (t : Nat) (s : State) : Host.Outcome State Fault Refusal :=
  .next (s.settle (frameDieStart t s))

/-- POWERUP_TIMEOUT (R530). -/
def execPowerupTimeout (t : Nat) (s : State) : Host.Outcome State Fault Refusal :=
  .next (s.settle (powerupTimeout t s))

/-- RAIL_UNDERVOLTAGE (R531). -/
def execRailUndervoltage (t : Nat) (rail : Nat) (s : State) : Host.Outcome State Fault Refusal :=
  .next (s.settle (railUndervoltage t rail s))

/-- RAIL_RECOVERY (R531). -/
def execRailRecovery (t : Nat) (s : State) : Host.Outcome State Fault Refusal :=
  .next (s.settle (railRecovery t s))

/-- VSILL_LOSS (R434). -/
def execVsillLoss (s : State) : Host.Outcome State Fault Refusal :=
  .next (s.settle (vsillLoss s))

/-- VSILL_APPLIED (R17). -/
def execVsillApplied (t : Nat) (s : State) : Host.Outcome State Fault Refusal :=
  .next (s.settle (vsillApplied t s))

/-- REFCLK_FAILURE (R536). -/
def execRefclkFailure (t : Nat) (s : State) : Host.Outcome State Fault Refusal :=
  .next (s.settle (s.refclkFailure t))

/-- OSC32_FAILURE (R17). -/
def execOsc32Failure (t : Nat) (s : State) : Host.Outcome State Fault Refusal :=
  .next (s.settle (osc32Failure t s))

/-- RAISE_FROM_FLASH (R96). -/
def execRaiseFromFlash (t : Nat) (s : State) : Host.Outcome State Fault Refusal :=
  .next (s.settle (raiseFromFlash t s))

/-- HOST_RAISE (R96). -/
def execHostRaise (t : Nat) (ms : Master) (w : World) (s : State) : Host.Outcome State Fault Refusal :=
  .next (s.settle (if s.mode == .hold || s.mode == .bench then (s.tick t).busWrite ms w FR_CTRL 1 1 else s.tick t))

/-- HEADER_CHECKED (R93). -/
def execHeaderChecked (t : Nat) (header : Octets) (sig : Octets) (s : State) : Host.Outcome State Fault Refusal :=
  .next (s.settle (headerChecked t header sig s))

/-- SECTION_CHECKED (R93). -/
def execSectionChecked (t : Nat) (idx : Nat) (sect : Octets) (readErr : Bool) (s : State) : Host.Outcome State Fault Refusal :=
  .next (s.settle (sectionChecked t idx sect readErr s))

/-- SERVICE_START (R49). -/
def execServiceStart (t : Nat) (s : State) : Host.Outcome State Fault Refusal :=
  .next (s.settle (serviceStart t s))

/-- LATE_BENTS_IN_SERVICE (R97). -/
def execLateBentsInService (n : Nat) (s : State) : Host.Outcome State Fault Refusal :=
  .next (s.settle (lateBentsInService n s))

/-- DELTA_CHECK (R93). -/
def execDeltaCheck (t : Nat) (ms : Master) (w : World) (s : State) : Host.Outcome State Fault Refusal :=
  .next (s.settle (if s.mode == .solo || s.paired then (s.tick t).busWrite ms w FR_CTRL 1 1 else s.tick t))

/-- DELTA_ARMED (R104). -/
def execDeltaArmed (t : Nat) (s : State) : Host.Outcome State Fault Refusal :=
  .next (s.settle (deltaArmed t s))

/-- DELTA_ABORT (R118). -/
def execDeltaAbort (ms : Master) (w : World) (s : State) : Host.Outcome State Fault Refusal :=
  .next (s.settle (s.busWrite ms w FR_CTRL 0x10 0x10))

/-- STAGING_FORWARD (R120). -/
def execStagingForward (ms : Master) (w : World) (s : State) : Host.Outcome State Fault Refusal :=
  .next (s.settle (s.busWrite ms w FR_CTRL 8 8))

/-- STAGING_ERROR (R104). -/
def execStagingError (t : Nat) (s : State) : Host.Outcome State Fault Refusal :=
  .next (s.settle (stagingError t s))

/-- SWAP_SCHEDULE (R105). -/
def execSwapSchedule (c : Nat) (g : Nat) (s : State) : Host.Outcome State Fault Refusal :=
  .next (s.settle (s.processed true (swapSchedule c g)))

/-- DELTA_DISARM (R105). -/
def execDeltaDisarm (c : Nat) (s : State) : Host.Outcome State Fault Refusal :=
  .next (s.settle (s.processed true (deltaDisarm c)))

/-- SWAP (R106). -/
def execSwap (g : Nat) (s : State) : Host.Outcome State Fault Refusal :=
  .next (s.settle (swap g s))

/-- PURGE_COMPLETE (R118). -/
def execPurgeComplete (t : Nat) (s : State) : Host.Outcome State Fault Refusal :=
  .next (s.settle (purgeComplete t s))

/-- DRAIN_ABORT (R112). -/
def execDrainAbort (t : Nat) (m : Nat) (s : State) : Host.Outcome State Fault Refusal :=
  .next (s.settle (drainAbort t m s))

/-- OLD_TENON_RELEASE (R111). -/
def execOldTenonRelease (t : Nat) (m : Nat) (s : State) : Host.Outcome State Fault Refusal :=
  .next (s.settle (oldTenonRelease t m s))

/-- TENON_LOADED (R113). -/
def execTenonLoaded (t : Nat) (m : Nat) (s : State) : Host.Outcome State Fault Refusal :=
  .next (s.settle (tenonLoaded t m s))

/-- TENON_RESUME (R113). -/
def execTenonResume (a : Nat) (m : Nat) (s : State) : Host.Outcome State Fault Refusal :=
  .next (s.settle (tenonResumed a m s))

end Sys2Proof.Machine
end

