-- ==== Sys2Proof/Machine/RunHost.lean ====
section
/-! DEFINITION. Machine/RunHost.lean: the meanings of the commands of the host: register accesses, the bridge, rings, SPI and interrupts, one definition per row of the table. -/
namespace Sys2Proof.Machine
open Sys2Proof

/-- REGISTER_WRITE (R10). -/
def execRegisterWrite (ms : Master) (w : World) (addr : RegAddr) (val : WriteIn) (s : State) : Host.Outcome State Fault Refusal :=
  .next (s.settle (registerWrite ms w addr.off addr.size val.word val.upd s))

/-- READ_CLEAR (R12). -/
def execReadClear (ms : Master) (w : World) (addr : RegAddr) (upd : Nat) (s : State) : Host.Outcome State Fault Refusal :=
  .next (s.settle (readClear ms w addr.off addr.size upd s))

/-- LATCHED_READ (R10). -/
def execLatchedRead (ms : Master) (w : World) (addr : RegAddr) (s : State) : Host.Outcome State Fault Refusal :=
  .next (s.settle (latchedRead ms w addr.off addr.size s))

/-- BLOCK_LOCK_SET (R14). -/
def execBlockLockSet (ms : Master) (w : World) (addr : Nat) (s : State) : Host.Outcome State Fault Refusal :=
  .next (s.settle (blockLockSet ms w addr s))

/-- PRIORITY_CELL_READ (R172). -/
def execPriorityCellRead (ms : Master) (w : World) (m : Nat) (k : Nat) (s : State) : Host.Outcome State Fault Refusal :=
  .next (s.settle (priorityCellRead ms w m k s))

/-- READ_COMPLETES_WITH_ERROR (R512). -/
def execReadCompletesWithError (ms : Master) (s : State) : Host.Outcome State Fault Refusal :=
  .next (s.settle (readCompletesWithError ms s))

/-- SPI_TRANSACTION (R504). -/
def execSpiTransaction (cmd : Nat) (addr : Nat) (vals : List Word) (s : State) : Host.Outcome State Fault Refusal :=
  .next (s.settle (spiTransaction cmd addr vals s))

/-- FAR_ACCESS (R510). -/
def execFarAccess (t : Nat) (ms : Master) (w : World) (addr : RegAddr) (write : Option Word) (s : State) : Host.Outcome State Fault Refusal :=
  .next (s.settle (farAccess t ms w addr.off addr.size write s))

/-- FAR_COMPLETION (R510). -/
def execFarCompletion (t : Nat) (data : Option Word) (s : State) : Host.Outcome State Fault Refusal :=
  .next (s.settle (farCompletion t data s))

/-- FAR_ACCESS_TIMEOUT (R511). -/
def execFarAccessTimeout (t : Nat) (s : State) : Host.Outcome State Fault Refusal :=
  .next (s.settle (farAccessTimeout t s))

/-- POSTED_LOG_CLEAR (R511). -/
def execPostedLogClear (ms : Master) (w : World) (s : State) : Host.Outcome State Fault Refusal :=
  .next (s.settle (s.busWrite ms w HB_PWSTAT 8 8))

/-- LOCK_ACQUIRE (R514). -/
def execLockAcquire (t : Nat) (ms : Master) (w : World) (far : Bool) (s : State) : Host.Outcome State Fault Refusal :=
  .next (s.settle (lockAcquire t ms w far s))

/-- LOCK_RELEASE (R514). -/
def execLockRelease (ms : Master) (w : World) (far : Bool) (s : State) : Host.Outcome State Fault Refusal :=
  .next (s.settle (lockRelease ms w far s))

/-- LOCK_ABORT (R514). -/
def execLockAbort (t : Nat) (far : Bool) (s : State) : Host.Outcome State Fault Refusal :=
  .next (s.settle (lockAbort t far s))

/-- PREFETCH_READ (R515). -/
def execPrefetchRead (t : Nat) (ms : Master) (w : World) (off : Nat) (block : List Word) (s : State) : Host.Outcome State Fault Refusal :=
  .next (s.settle (prefetchRead t ms w off block s))

/-- PREFETCH_EXPIRE (R515). -/
def execPrefetchExpire (t : Nat) (k : Nat) (s : State) : Host.Outcome State Fault Refusal :=
  .next (s.settle (prefetchExpire t k s))

/-- MSIX_UNMASK (R520). -/
def execMsixUnmask (ms : Master) (vec : Nat) (s : State) : Host.Outcome State Fault Refusal :=
  .next (s.settle (msixUnmask ms vec s))

/-- SCARF_LINK_LOSS (R550). -/
def execScarfLinkLoss (t : Nat) (s : State) : Host.Outcome State Fault Refusal :=
  .next (s.settle (scarfLinkLoss t s))

/-- BAR2_WRITE (R506). -/
def execBar2Write (w : World) (off : Nat) (data : Octets) (s : State) : Host.Outcome State Fault Refusal :=
  .next (s.settle (bar2Write w off data s))

/-- HOST_RING_FRAME_READ (R519). -/
def execHostRingFrameRead (t : Nat) (ring : Nat) (len : Nat) (entry : Nat) (intr : Bool) (frame : Octets) (err : Bool) (s : State) : Host.Outcome State Fault Refusal :=
  .next (s.settle (hostRingFrameRead t ring len entry intr frame err s))

/-- RING_TAIL_WRITE (R517). -/
def execRingTailWrite (ms : Master) (w : World) (tx : Bool) (ring : Nat) (tail : Nat) (bufLens : List Nat) (s : State) : Host.Outcome State Fault Refusal :=
  .next (s.settle (ringTailWrite ms w tx ring tail bufLens s))

/-- RING_DISABLE (R517). -/
def execRingDisable (ms : Master) (w : World) (tx : Bool) (ring : Nat) (inten : Bool) (s : State) : Host.Outcome State Fault Refusal :=
  .next (s.settle (ringDisable ms w tx ring inten s))

/-- MDIO_COMMAND (R264). -/
def execMdioCommand (ms : Master) (w : World) (val : Word) (s : State) : Host.Outcome State Fault Refusal :=
  .next (s.settle (s.busWrite ms w EB_MDIO_CMD val.toNat))

/-- SHADOW_WRITE (R329). -/
def execShadowWrite (ms : Master) (w : World) (val : Word) (s : State) : Host.Outcome State Fault Refusal :=
  .next (s.settle (s.busWrite ms w TB_SHWDATA val.toNat))

end Sys2Proof.Machine
end

