-- ==== Sys2Proof/Machine/RunKeys.lean ====
section
/-! DEFINITION. Machine/RunKeys.lean: the meanings of the commands of the key store and the cipher engine, one definition per row of the table. -/
namespace Sys2Proof.Machine
open Sys2Proof

/-- KEY_PACKET_CHECK (R387). -/
def execKeyPacketCheck (t : Nat) (ms : Master) (w : World) (s : State) : Host.Outcome State Fault Refusal :=
  .next (s.settle ((s.tick t).busWrite ms w KS_UPCTL 1 1))

/-- KEY_CHECK_COMPLETE (R386). -/
def execKeyCheckComplete (t : Nat) (s : State) : Host.Outcome State Fault Refusal :=
  .next (s.settle (s.keyCheckComplete t))

/-- KEY_PACKET_DISCARD (R387). -/
def execKeyPacketDiscard (ms : Master) (w : World) (s : State) : Host.Outcome State Fault Refusal :=
  .next (s.settle (s.busWrite ms w KS_UPCTL 2 2))

/-- KEY_UPDATE_APPLY (R388). -/
def execKeyUpdateApply (c : Nat) (a : Nat) (s : State) : Host.Outcome State Fault Refusal :=
  .next (s.settle (s.processed false (State.keyUpdateApply c a)))

/-- NVKM_COMMIT_COMPLETE (R392). -/
def execNvkmCommitComplete (t : Nat) (ok : Bool) (s : State) : Host.Outcome State Fault Refusal :=
  .next (s.settle (s.nvkmCommitComplete t ok))

/-- KEY_UPDATE_IN_FORCE (R388). -/
def execKeyUpdateInForce (n : Nat) (s : State) : Host.Outcome State Fault Refusal :=
  .next (s.settle (s.keyUpdateInForce n))

/-- SHELF_ENTRY_ZEROISE (R383). -/
def execShelfEntryZeroise (k : Nat) (s : State) : Host.Outcome State Fault Refusal :=
  .next (s.settle (s.shelfEntryZeroise k))

/-- TAMPER_DETECTED (R397). -/
def execTamperDetected (t : Nat) (src : Nat) (s : State) : Host.Outcome State Fault Refusal :=
  .next (s.settle ((s.tamperDetected t src).tamperWake t src))

/-- TAMPER_CONFIG_WRITE (R396). -/
def execTamperConfigWrite (ms : Master) (w : World) (src : Nat) (val : Word) (s : State) : Host.Outcome State Fault Refusal :=
  .next (s.settle (if src < 6 then s.busWrite ms w (KS_TAMPCFG src) val.toNat else s))

/-- ATTESTATION_REQUEST (R399). -/
def execAttestationRequest (t : Nat) (ms : Master) (w : World) (s : State) : Host.Outcome State Fault Refusal :=
  .next (s.settle ((s.tick t).busWrite ms w KS_ATTCTL 1 1))

/-- STATEMENT_READY (R399). -/
def execStatementReady (t : Nat) (s : State) : Host.Outcome State Fault Refusal :=
  .next (s.settle (s.statementReady t))

/-- FRESHNESS_WRITE (R428). -/
def execFreshnessWrite (_c : Nat) (idx : Nat) (d : List Nat) (s : State) : Host.Outcome State Fault Refusal :=
  .next (s.settle (s.processed true (State.freshnessWrite idx d)))

/-- PROFILE_WRITE (R428). -/
def execProfileWrite (_c : Nat) (idx : Nat) (d : List Nat) (s : State) : Host.Outcome State Fault Refusal :=
  .next (s.settle (s.processed true (State.profileWrite idx d)))

/-- HOST_JOB (R427). -/
def execHostJob (t : Nat) (ms : Master) (w : World) (s : State) : Host.Outcome State Fault Refusal :=
  .next (s.settle ((s.tick t).busWrite ms w CP_HJCTL 1 1))

/-- HOST_JOB_DONE (R427). -/
def execHostJobDone (t : Nat) (s : State) : Host.Outcome State Fault Refusal :=
  .next (s.settle (s.hostJobDone t))

end Sys2Proof.Machine
end

