-- ==== Sys2Proof/Machine/RunLedger.lean ====
section
/-! DEFINITION. Machine/RunLedger.lean: the meanings of the commands of the ledgers, the release of an epoch and its processing, one definition per row of the table. -/
namespace Sys2Proof.Machine
open Sys2Proof

/-- EPOCH_BOUNDARY (R48). -/
def execEpochBoundary (t : Nat) (s : State) : Host.Outcome State Fault Refusal :=
  .next (s.settle (s.epochBoundary t))

/-- INPUT_HANDOVER (R51). -/
def execInputHandover (t : Nat) (cls : Nat) (port : Nat) (s : State) : Host.Outcome State Fault Refusal :=
  .next (s.settle (s.inputHandover t cls port))

/-- LEDGER_CLOSE (R58). -/
def execLedgerClose (t : Nat) (n : Nat) (s : State) : Host.Outcome State Fault Refusal :=
  .next (s.settle (s.ledgerClose t n))

/-- RECORDS_SEAL_SEND (R60). -/
def execRecordsSealSend (t : Nat) (n : Nat) (s : State) : Host.Outcome State Fault Refusal :=
  .next (s.settle (s.recordsSealSend t n))

/-- PEER_RECORDS_RECEIVED (R60). -/
def execPeerRecordsReceived (t : Nat) (n : Nat) (recs : List PeerRec) (s : State) : Host.Outcome State Fault Refusal :=
  .next (s.settle (s.peerRecordsReceived t n recs))

/-- MATCHING_DECIDED (R61). -/
def execMatchingDecided (t : Nat) (n : Nat) (s : State) : Host.Outcome State Fault Refusal :=
  .next (s.settle (s.matchingDecided t n))

/-- FILL_RECEIVED (R67). -/
def execFillReceived (t : Nat) (inp : Input) (s : State) : Host.Outcome State Fault Refusal :=
  .next (s.settle (s.fillReceived t inp))

/-- FILL_ACK_RECEIVED (R67). -/
def execFillAckReceived (t : Nat) (cls : Nat) (port : Nat) (pos : Nat) (s : State) : Host.Outcome State Fault Refusal :=
  .next (s.settle (s.fillAckReceived t cls port pos))

/-- FILL_DEADLINE (R67). -/
def execFillDeadline (t : Nat) (n : Nat) (s : State) : Host.Outcome State Fault Refusal :=
  .next (s.settle (s.fillDeadline t n))

/-- LEDGER_RELEASE (R22). -/
def execLedgerRelease (t : Nat) (n : Nat) (ecc : List (Nat×Bool)) (s : State) : Host.Outcome State Fault Refusal :=
  .next (s.settle (s.ledgerRelease t n ecc))

/-- EPOCH_PROCESSING_COMPLETE (R75). -/
def execEpochProcessingComplete (t : Nat) (n : Nat) (s : State) : Host.Outcome State Fault Refusal :=
  .next (s.settle ((s.processingComplete t n).ringVecs))

/-- EPOCH_OVERRUN (R77). -/
def execEpochOverrun (t : Nat) (s : State) : Host.Outcome State Fault Refusal :=
  .next (s.settle (s.epochOverrun t))

/-- LEDGER_COMPARE (R69). -/
def execLedgerCompare (t : Nat) (n : Nat) (dig : Option Nat) (out : Option OutcomeRec) (s : State) : Host.Outcome State Fault Refusal :=
  .next (s.settle (s.ledgerCompare t n dig out))

end Sys2Proof.Machine
end

