-- ==== Sys2Proof/Machine/RunLinT1s.lean ====
section
/-! DEFINITION. Machine/RunLinT1s.lean: the meanings of the commands of the LIN and T1S tenons, pins and the mortise controls, one definition per row of the table. -/
namespace Sys2Proof.Machine
open Sys2Proof

/-- LIN_SLOT_START (R218). -/
def execLinSlotStart (t : Nat) (m : Nat) (s : State) : Host.Outcome State Fault Refusal :=
  .next (s.settle (linSlotStart t m s))

/-- LIN_HEADER_RECEIVED (R208). -/
def execLinHeaderReceived (t : Nat) (m : Nat) (rx : LinRx) (bitDev : Int) (s : State) : Host.Outcome State Fault Refusal :=
  .next (s.settle (linHeaderReceived t m rx.start rx.brk rx.pid bitDev s))

/-- LIN_FRAME_RECEIVED (R211). -/
def execLinFrameReceived (t : Nat) (m : Nat) (rec : Octets) (s : State) : Host.Outcome State Fault Refusal :=
  .next (s.settle (linFrameReceived t m rec s))

/-- LIN_RESPONSE_ERROR (R221). -/
def execLinResponseError (t : Nat) (m : Nat) (fid : Nat) (reason : Nat) (s : State) : Host.Outcome State Fault Refusal :=
  .next (s.settle (linResponseError t m fid reason s))

/-- LIN_EVENT_COLLISION (R219). -/
def execLinEventCollision (t : Nat) (m : Nat) (s : State) : Host.Outcome State Fault Refusal :=
  .next (s.settle (linEventCollision t m s))

/-- LIN_TRANSMIT_CONFIRM (R221). -/
def execLinTransmitConfirm (t : Nat) (m : Nat) (s : State) : Host.Outcome State Fault Refusal :=
  .next (s.settle ((linTransmitConfirm t m s).letGo m))

/-- LIN_TX_FAILED (R221). -/
def execLinTxFailed (t : Nat) (m : Nat) (reason : Nat) (s : State) : Host.Outcome State Fault Refusal :=
  .next (s.settle ((linTxFailed t m reason s).letGo m))

/-- LIN_BUS_IDLE_TIMEOUT (R221). -/
def execLinBusIdleTimeout (t : Nat) (m : Nat) (s : State) : Host.Outcome State Fault Refusal :=
  .next (s.settle (linBusIdleTimeout t m s))

/-- LIN_WAKE_PULSE_RECEIVED (R222). -/
def execLinWakePulseReceived (t : Nat) (m : Nat) (us : Nat) (s : State) : Host.Outcome State Fault Refusal :=
  .next (s.settle (linWakePulseReceived t m us s))

/-- LIN_TABLE_WRITE (R220). -/
def execLinTableWrite (c : Nat) (m : Nat) (table : Nat) (s : State) : Host.Outcome State Fault Refusal :=
  .next (s.settle (s.processed false (tenonCommand c m .lin (fun s => (linTableWrite c m (table % 4) s).setFld (LN_CTRL m) 0 2 table))))

/-- LIN_RUN_WRITE (R220). -/
def execLinRunWrite (c : Nat) (m : Nat) (run : Bool) (s : State) : Host.Outcome State Fault Refusal :=
  .next (s.settle (s.processed false (tenonCommand c m .lin (fun s => (linRunWrite c m run s).setBit (LN_CTRL m) 2 run))))

/-- LIN_SLEEP_COMMAND (R220). -/
def execLinSleepCommand (c : Nat) (m : Nat) (s : State) : Host.Outcome State Fault Refusal :=
  .next (s.settle (s.processed false (tenonCommand c m .lin (linSleepCommand c m))))

/-- LIN_WAKE_REQUEST (R222). -/
def execLinWakeRequest (c : Nat) (m : Nat) (s : State) : Host.Outcome State Fault Refusal :=
  .next (s.settle (s.processed false (tenonCommand c m .lin (linWakeRequest m))))

/-- T1S_FRAME_RECEIVED (R227). -/
def execT1sFrameReceived (t : Nat) (m : Nat) (frame : Octets) (fcsErr : Bool) (s : State) : Host.Outcome State Fault Refusal :=
  .next (s.settle (t1sFrameReceived t m frame fcsErr s))

/-- PLCA_BEACON (R226). -/
def execPlcaBeacon (t : Nat) (m : Nat) (sent : Bool) (s : State) : Host.Outcome State Fault Refusal :=
  .next (s.settle (plcaBeacon t m sent s))

/-- PLCA_INACTIVE (R226). -/
def execPlcaInactive (t : Nat) (m : Nat) (s : State) : Host.Outcome State Fault Refusal :=
  .next (s.settle (plcaInactive t m s))

/-- T1S_TRANSMIT_OPPORTUNITY (R229). -/
def execT1sTransmitOpportunity (t : Nat) (m : Nat) (ph : T1sTx) (s : State) : Host.Outcome State Fault Refusal :=
  .next (s.settle ((t1sTransmitOpportunity t m ph s).letGo m))

/-- PHY_DISCONNECT (R234). -/
def execPhyDisconnect (t : Nat) (trip : PhyTrip) (s : State) : Host.Outcome State Fault Refusal :=
  .next (s.settle ((phyDisconnect t trip.mort trip.limit s).letGo trip.mort))

/-- PHY_RECONNECT (R235). -/
def execPhyReconnect (t : Nat) (m : Nat) (held : Bool) (s : State) : Host.Outcome State Fault Refusal :=
  .next (s.settle (phyReconnect t m held s))

/-- PHY_RESET_COMMAND (R235). -/
def execPhyResetCommand (c : Nat) (m : Nat) (s : State) : Host.Outcome State Fault Refusal :=
  .next (s.settle (s.processed false (tenonCommand c m .t1sInt (phyResetCommand m))))

/-- T1S_WAKE_REQUEST (R237). -/
def execT1sWakeRequest (c : Nat) (m : Nat) (s : State) : Host.Outcome State Fault Refusal :=
  .next (s.settle (s.processed false (tenonCommand c m .t1sInt (t1sWakeRequest m))))

/-- PHY_WAKE_DETECT (R238). -/
def execPhyWakeDetect (t : Nat) (m : Nat) (us : Nat) (s : State) : Host.Outcome State Fault Refusal :=
  .next (s.settle (phyWakeDetect t m us s))

/-- BANK_FAULT (R126). -/
def execBankFault (t : Nat) (bank : Nat) (cls : Nat) (s : State) : Host.Outcome State Fault Refusal :=
  .next (s.settle (bankFault t bank cls s))

/-- BANK_POWER_UP (R130). -/
def execBankPowerUp (t : Nat) (bank : Nat) (cls : Nat) (s : State) : Host.Outcome State Fault Refusal :=
  .next (s.settle (bankPowerUp t bank cls s))

/-- PIN_FAULT (R134). -/
def execPinFault (t : Nat) (m : Nat) (pin : Nat) (s : State) : Host.Outcome State Fault Refusal :=
  .next (s.settle (pinFault t m pin s))

/-- MORTISE_TX_INHIBIT (R142). -/
def execMortiseTxInhibit (_c : Nat) (m : Nat) (on : Bool) (s : State) : Host.Outcome State Fault Refusal :=
  .next (s.settle (s.processed false (mortiseTxInhibit m on)))

/-- MORTISE_RX_INHIBIT (R142). -/
def execMortiseRxInhibit (_c : Nat) (m : Nat) (on : Bool) (s : State) : Host.Outcome State Fault Refusal :=
  .next (s.settle (s.processed false (mortiseRxInhibit m on)))

/-- HOST_COPY_CONTROL (R145). -/
def execHostCopyControl (_c : Nat) (m : Nat) (val : Nat) (s : State) : Host.Outcome State Fault Refusal :=
  .next (s.settle (s.processed false (hostCopyControl m val)))

end Sys2Proof.Machine
end

