-- ==== Sys2Proof/Machine/RunSleep.lean ====
section
/-! DEFINITION. Machine/RunSleep.lean: the meanings of the commands of sleep, wake, network management and the king post, one definition per row of the table. -/
namespace Sys2Proof.Machine
open Sys2Proof

/-- SLEEP_REQUEST (R472). -/
def execSleepRequest (t : Nat) (c : Nat) (s : State) : Host.Outcome State Fault Refusal :=
  .next (s.settle ((s.tick t).processed false (fun s => s.sleepRequest t c)))

/-- SLEEP_GO (R473). -/
def execSleepGo (c : Nat) (s : State) : Host.Outcome State Fault Refusal :=
  .next (s.settle (s.processed true (fun s => s.sleepGo c)))

/-- SLEEP_CANCEL (R475). -/
def execSleepCancel (t : Nat) (s : State) : Host.Outcome State Fault Refusal :=
  .next (s.settle ((s.tick t).processed true (fun s => s.sleepCancel t)))

/-- QUIESCE_START (R474). -/
def execQuiesceStart (t : Nat) (q : Nat) (s : State) : Host.Outcome State Fault Refusal :=
  .next (s.settle (s.quiesceStart t q))

/-- SLEEP_COMMIT (R476). -/
def execSleepCommit (t : Nat) (s : State) : Host.Outcome State Fault Refusal :=
  .next (s.settle (sleepCommit t s))

/-- WAKE_ACTED (R477). -/
def execWakeActed (t : Nat) (s : State) : Host.Outcome State Fault Refusal :=
  .next (s.settle (wakeActed t s))

/-- WAKE_IN_DETECT (R479). -/
def execWakeInDetect (t : Nat) (pin : Nat) (s : State) : Host.Outcome State Fault Refusal :=
  .next (s.settle (wakeInDetect t pin s))

/-- WAKE_LISTENER_MATCH (R480). -/
def execWakeListenerMatch (t : Nat) (k : Nat) (byError : Bool) (rec : Octets) (s : State) : Host.Outcome State Fault Refusal :=
  .next (s.settle (wakeListenerMatch t k byError rec s))

/-- SILL_TIMER_WAKE (R479). -/
def execSillTimerWake (t : Nat) (s : State) : Host.Outcome State Fault Refusal :=
  .next (s.settle (sillTimerWake t s))

/-- WATCH_DWELL_EXPIRY (R483). -/
def execWatchDwellExpiry (t : Nat) (s : State) : Host.Outcome State Fault Refusal :=
  .next (s.settle (watchDwellExpiry t s))

/-- WAKE_OUT_REQUEST (R485). -/
def execWakeOutRequest (t : Nat) (s : State) : Host.Outcome State Fault Refusal :=
  .next (s.settle ((s.tick t).processed false (wakeOutRequest t)))

/-- WAKE_OUT_PULSE_END (R485). -/
def execWakeOutPulseEnd (t : Nat) (s : State) : Host.Outcome State Fault Refusal :=
  .next (s.settle (wakeOutPulseEnd t s))

/-- DRIVER_OVER_TEMPERATURE (R543). -/
def execDriverOverTemperature (t : Nat) (s : State) : Host.Outcome State Fault Refusal :=
  .next (s.settle (driverOverTemperature t s))

/-- AWAKE_RESTART (R495). -/
def execAwakeRestart (_c : Nat) (s : State) : Host.Outcome State Fault Refusal :=
  .next (s.settle (s.processed false State.awakeRestart))

/-- MAX_AWAKE_EXPIRY (R495). -/
def execMaxAwakeExpiry (n : Nat) (s : State) : Host.Outcome State Fault Refusal :=
  .next (s.settle (s.maxAwakeExpiry n))

/-- RING_PASS (R489). -/
def execRingPass (n : Nat) (r : Nat) (s : State) : Host.Outcome State Fault Refusal :=
  .next (s.settle (s.ringPass n r))

/-- RING_START (R491). -/
def execRingStart (n : Nat) (r : Nat) (s : State) : Host.Outcome State Fault Refusal :=
  .next (s.settle (s.ringStart n r))

/-- RING_LOST (R491). -/
def execRingLost (n : Nat) (r : Nat) (s : State) : Host.Outcome State Fault Refusal :=
  .next (s.settle (s.ringLost n r))

/-- PN_TIMEOUT (R493). -/
def execPnTimeout (n : Nat) (p : Nat) (s : State) : Host.Outcome State Fault Refusal :=
  .next (s.settle (s.pnTimeout n p))

/-- POWER_TRIP (R501). -/
def execPowerTrip (t : Nat) (current : Nat) (temp : Nat) (s : State) : Host.Outcome State Fault Refusal :=
  .next (s.settle (s.powerTrip t current temp))

/-- TRIP_CLEAR (R501). -/
def execTripClear (sense : PowerSense) (s : State) : Host.Outcome State Fault Refusal :=
  .next (s.settle (s.tripClear sense.t sense.current sense.temp))

/-- CLOCK_RAMP (R499). -/
def execClockRamp (t : Nat) (bent : Nat) (start : Bool) (s : State) : Host.Outcome State Fault Refusal :=
  .next (s.settle (clockRamp t bent start s))

end Sys2Proof.Machine
end

