-- ==== Sys2Proof/Machine/RunTables.lean ====
section
/-! DEFINITION. Machine/RunTables.lean: the meanings of the commands of the gateway, the tables and the scheduler, one definition per row of the table. -/
namespace Sys2Proof.Machine
open Sys2Proof

/-- RX_TIMEOUT (R288). -/
def execRxTimeout (n : Nat) (r : Nat) (s : State) : Host.Outcome State Fault Refusal :=
  .next (s.settle (s.rxTimeout n r))

/-- PDU_CYCLE_DUE (R285). -/
def execPduCycleDue (n : Nat) (p : Nat) (s : State) : Host.Outcome State Fault Refusal :=
  .next (s.settle (s.pduCycleDue n p))

/-- ROUTE_WRITE (R298). -/
def execRouteWrite (c : Nat) (idx : Nat) (d : List Nat) (s : State) : Host.Outcome State Fault Refusal :=
  .next (s.settle (s.processed true (routeWrite c idx d)))

/-- CELL_WRITE (R298). -/
def execCellWrite (_c : Nat) (idx : Nat) (d : List Nat) (s : State) : Host.Outcome State Fault Refusal :=
  .next (s.settle (s.processed true (cellWrite idx d)))

/-- PDU_DESCRIPTOR_WRITE (R298). -/
def execPduDescriptorWrite (c : Nat) (idx : Nat) (d : List Nat) (s : State) : Host.Outcome State Fault Refusal :=
  .next (s.settle (s.processed true (pduDescriptorWrite c idx d)))

/-- IMAGE_WRITE (R298). -/
def execImageWrite (_c : Nat) (idx : Nat) (off : Nat) (len : Nat) (trig : Bool) (d : List Nat) (s : State) : Host.Outcome State Fault Refusal :=
  .next (s.settle (s.processed true (imageWrite idx off len trig d)))

/-- HOST_SEND (R298). -/
def execHostSend (_c : Nat) (idx : Nat) (s : State) : Host.Outcome State Fault Refusal :=
  .next (s.settle (s.processed true (hostSend idx)))

/-- RESTART_TIMEOUT (R298). -/
def execRestartTimeout (c : Nat) (idx : Nat) (s : State) : Host.Outcome State Fault Refusal :=
  .next (s.settle (s.processed true (restartTimeout c idx)))

/-- DIRECT_ENTRY_WRITE (R319). -/
def execDirectEntryWrite (_c : Nat) (idx : Nat) (d : List Nat) (s : State) : Host.Outcome State Fault Refusal :=
  .next (s.settle (s.processed true (State.directEntryWrite idx d)))

/-- HASH_INSERT (R310). -/
def execHashInsert (_c : Nat) (idx : Nat) (d : List Nat) (s : State) : Host.Outcome State Fault Refusal :=
  .next (s.settle (s.processed true (State.hashInsert idx d)))

/-- HASH_DELETE (R311). -/
def execHashDelete (_c : Nat) (idx : Nat) (d : List Nat) (s : State) : Host.Outcome State Fault Refusal :=
  .next (s.settle (s.processed true (State.hashDelete idx d)))

/-- PREFIX_ADD (R318). -/
def execPrefixAdd (c : Nat) (idx : Nat) (d : List Nat) (s : State) : Host.Outcome State Fault Refusal :=
  .next (s.settle (s.processed true (State.prefixAdd c idx d)))

/-- PREFIX_DELETE (R318). -/
def execPrefixDelete (c : Nat) (idx : Nat) (_d : List Nat) (s : State) : Host.Outcome State Fault Refusal :=
  .next (s.settle (s.processed true (State.prefixDelete c idx)))

/-- LEARNED_FLUSH (R327). -/
def execLearnedFlush (c : Nat) (idx : Nat) (d : List Nat) (s : State) : Host.Outcome State Fault Refusal :=
  .next (s.settle (s.processed true (State.learnedFlush c idx d)))

/-- PREFIX_EFFECT (R318). -/
def execPrefixEffect (n : Nat) (s : State) : Host.Outcome State Fault Refusal :=
  .next (s.settle (s.prefixEffect n))

/-- PREFIX_BUILD_DONE (R318). -/
def execPrefixBuildDone (t : Nat) (s : State) : Host.Outcome State Fault Refusal :=
  .next (s.settle (s.prefixBuildDone t))

/-- PLUMB_SCAN_STEP (R331). -/
def execPlumbScanStep (t : Nat) (uncorr : Bool) (s : State) : Host.Outcome State Fault Refusal :=
  .next (s.settle (s.plumbScanStep t uncorr))

/-- PLUMB_CONFIRM (R332). -/
def execPlumbConfirm (t : Nat) (k : Nat) (s : State) : Host.Outcome State Fault Refusal :=
  .next (s.settle (s.plumbConfirm t k))

/-- AGE_OUT (R326). -/
def execAgeOut (key : Nat) (s : State) : Host.Outcome State Fault Refusal :=
  .next (s.settle (s.ageOut key))

/-- ENTRY_UNFREEZE (R326). -/
def execEntryUnfreeze (key : Nat) (s : State) : Host.Outcome State Fault Refusal :=
  .next (s.settle (s.entryUnfreeze key))

/-- FLUSH_FILTER_RETIRE (R327). -/
def execFlushFilterRetire (k : Nat) (s : State) : Host.Outcome State Fault Refusal :=
  .next (s.settle (s.flushFilterRetire k))

/-- METER_WRITE (R341). -/
def execMeterWrite (c : Nat) (idx : Nat) (d : List Nat) (s : State) : Host.Outcome State Fault Refusal :=
  .next (s.settle (s.processed true (meterWrite c idx d)))

/-- METER_UNBLOCK (R341). -/
def execMeterUnblock (_c : Nat) (idx : Nat) (s : State) : Host.Outcome State Fault Refusal :=
  .next (s.settle (s.processed true (meterUnblock idx)))

/-- METER_CLEAR_COUNTERS (R341). -/
def execMeterClearCounters (_c : Nat) (idx : Nat) (s : State) : Host.Outcome State Fault Refusal :=
  .next (s.settle (s.processed true (meterClearCounters idx)))

/-- GATE_ACTIVATE (R358). -/
def execGateActivate (c : Nat) (bay : Nat) (s : State) : Host.Outcome State Fault Refusal :=
  .next (s.settle (s.processed true (gateActivate c bay)))

/-- GATE_LIST_CHANGE (R358). -/
def execGateListChange (t : Nat) (bay : Nat) (s : State) : Host.Outcome State Fault Refusal :=
  .next (s.settle (gateListChange t bay s))

/-- HISTOGRAM_CLEAR (R363). -/
def execHistogramClear (_c : Nat) (s : State) : Host.Outcome State Fault Refusal :=
  .next (s.settle (s.processed false histogramClear))

end Sys2Proof.Machine
end

