-- ==== Sys2Proof/Machine/RunTwin.lean ====
section
/-! DEFINITION. Machine/RunTwin.lean: the meanings of the commands of the twin unit and the fault manager, one definition per row of the table. -/
namespace Sys2Proof.Machine
open Sys2Proof

/-- PAIRING_EXCHANGE (R432). -/
def execPairingExchange (t : Nat) (rec : PairRec) (s : State) : Host.Outcome State Fault Refusal :=
  .next (s.settle (s.pairingExchange t rec))

/-- PAIRWAIT_EXPIRY (R433). -/
def execPairwaitExpiry (t : Nat) (s : State) : Host.Outcome State Fault Refusal :=
  .next (s.settle (s.pairwaitExpiry t))

/-- LEASE_OVERRIDE (R439). -/
def execLeaseOverride (t : Nat) (ms : Master) (w : World) (key : Nat) (s : State) : Host.Outcome State Fault Refusal :=
  .next (s.settle ((s.tick t).busWrite ms w TW_CTRL (2 + 256 * (key % 256)) 0xFF02))

/-- HANDOVER_COMMAND (R440). -/
def execHandoverCommand (c : Nat) (s : State) : Host.Outcome State Fault Refusal :=
  .next (s.settle (s.processed true (State.handoverCommand c)))

/-- HANDOVER_EFFECT (R440). -/
def execHandoverEffect (n : Nat) (s : State) : Host.Outcome State Fault Refusal :=
  .next (s.settle (s.handoverEffect n))

/-- HEARTBEAT_SEND (R441). -/
def execHeartbeatSend (t : Nat) (s : State) : Host.Outcome State Fault Refusal :=
  .next (s.settle (s.heartbeatSend t))

/-- HEARTBEAT_RECEIVED (R436). -/
def execHeartbeatReceived (t : Nat) (hb : Heartbeat) (s : State) : Host.Outcome State Fault Refusal :=
  .next (s.settle (s.heartbeatReceived t hb))

/-- TELL_WORD_SEND (R442). -/
def execTellWordSend (t : Nat) (s : State) : Host.Outcome State Fault Refusal :=
  .next (s.settle (s.tellWordSend t))

/-- TELL_WORD_RECEIVED (R442). -/
def execTellWordReceived (t : Nat) (tw : TellWord) (s : State) : Host.Outcome State Fault Refusal :=
  .next (s.settle (s.tellWordReceived t tw))

/-- PATH_DOWN (R444). -/
def execPathDown (t : Nat) (tell : Bool) (s : State) : Host.Outcome State Fault Refusal :=
  .next (s.settle (s.pathDown t tell))

/-- PATH_UP (R444). -/
def execPathUp (t : Nat) (tell : Bool) (s : State) : Host.Outcome State Fault Refusal :=
  .next (s.settle (s.pathUp t tell))

/-- PAIR_DEGRADE (R84). -/
def execPairDegrade (t : Nat) (s : State) : Host.Outcome State Fault Refusal :=
  .next (s.settle (s.pairDegrade t))

/-- LEASE_EXPIRY (R446). -/
def execLeaseExpiry (t : Nat) (s : State) : Host.Outcome State Fault Refusal :=
  .next (s.settle (s.leaseExpiry t))

/-- TAKEOVER (R445). -/
def execTakeover (t : Nat) (s : State) : Host.Outcome State Fault Refusal :=
  .next (s.settle (s.takeover t))

/-- FENCE_TIMER_FIRE (R447). -/
def execFenceTimerFire (t : Nat) (s : State) : Host.Outcome State Fault Refusal :=
  .next (s.settle (s.fenceTimerFire t))

/-- RESYNC_START (R458). -/
def execResyncStart (t : Nat) (s : State) : Host.Outcome State Fault Refusal :=
  .next (s.settle (s.resyncStart t))

/-- RESYNC_REGION_COMMIT (R459). -/
def execResyncRegionCommit (t : Nat) (region : Nat) (s : State) : Host.Outcome State Fault Refusal :=
  .next (s.settle (s.resyncRegionCommit t region))

/-- RESYNC_JOIN (R460). -/
def execResyncJoin (t : Nat) (j : Nat) (s : State) : Host.Outcome State Fault Refusal :=
  .next (s.settle (s.resyncJoin t j))

/-- RESYNC_ABANDON (R461). -/
def execResyncAbandon (t : Nat) (s : State) : Host.Outcome State Fault Refusal :=
  .next (s.settle (s.resyncAbandon t))

/-- CB_RECOVERY_RESET (R456). -/
def execCbRecoveryReset (n : Nat) (h : Nat) (s : State) : Host.Outcome State Fault Refusal :=
  .next (s.settle (if s.ep.running == some n then s.cbRecoveryReset h else s))

/-- HOLD_ENTRY (R467). -/
def execHoldEntry (t : Nat) (s : State) : Host.Outcome State Fault Refusal :=
  .next (s.settle (s.holdEntry t))

/-- FRAME_DIE_RESET (R468). -/
def execFrameDieReset (t : Nat) (s : State) : Host.Outcome State Fault Refusal :=
  .next (s.settle (s.frameDieReset t))

/-- FAULT_ACK (R466). -/
def execFaultAck (ms : Master) (w : World) (ack : Nat) (s : State) : Host.Outcome State Fault Refusal :=
  .next (s.settle (s.busWrite ms w FLT_ACK (ack % 32) 0x1F))

/-- SECOND_FAULT_CLEAR (R464). -/
def execSecondFaultClear (ms : Master) (w : World) (s : State) : Host.Outcome State Fault Refusal :=
  .next (s.settle (s.busWrite ms w FLT_ACK 0x20 0x20))

/-- F2_HANDLER_TIMEOUT (R466). -/
def execF2HandlerTimeout (t : Nat) (s : State) : Host.Outcome State Fault Refusal :=
  .next (s.settle (s.f2HandlerTimeout t))

/-- MEMORY_ERROR_DETECTED (R471). -/
def execMemoryErrorDetected (t : Nat) (bent : Nat) (uncorr : Bool) (s : State) : Host.Outcome State Fault Refusal :=
  .next (s.settle (s.memoryErrorDetected t bent uncorr))

/-- EPOCH_ENGINE_FAULT (R471). -/
def execEpochEngineFault (t : Nat) (s : State) : Host.Outcome State Fault Refusal :=
  .next (s.settle (s.epochEngineFault t))

end Sys2Proof.Machine
end

