-- ==== Sys2Proof/Machine/Dispatch.lean ====
section
/-! DEFINITION. Machine/Dispatch.lean: one arm per command, each one call of its meaning. -/
namespace Sys2Proof.Machine
open Sys2Proof

/-- The effect of a command on everything but the queue. -/
def exec (i : Instr) (s : State) : Host.Outcome State Fault Refusal :=
  match i with
  | .registerWrite ms w addr val => Sys2Proof.Machine.execRegisterWrite ms w addr val s
  | .readClear ms w addr upd => Sys2Proof.Machine.execReadClear ms w addr upd s
  | .latchedRead ms w addr => Sys2Proof.Machine.execLatchedRead ms w addr s
  | .blockLockSet ms w addr => Sys2Proof.Machine.execBlockLockSet ms w addr s
  | .modeRequest ms w target => Sys2Proof.Machine.execModeRequest ms w target s
  | .poresetAssert => Sys2Proof.Machine.execPoresetAssert s
  | .poresetRelease t twinId => Sys2Proof.Machine.execPoresetRelease t twinId s
  | .frameDieStart t => Sys2Proof.Machine.execFrameDieStart t s
  | .powerupTimeout t => Sys2Proof.Machine.execPowerupTimeout t s
  | .railUndervoltage t rail => Sys2Proof.Machine.execRailUndervoltage t rail s
  | .railRecovery t => Sys2Proof.Machine.execRailRecovery t s
  | .vsillLoss => Sys2Proof.Machine.execVsillLoss s
  | .refclkFailure t => Sys2Proof.Machine.execRefclkFailure t s
  | .osc32Failure t => Sys2Proof.Machine.execOsc32Failure t s
  | .raiseFromFlash t => Sys2Proof.Machine.execRaiseFromFlash t s
  | .hostRaise t ms w => Sys2Proof.Machine.execHostRaise t ms w s
  | .sectionChecked t idx sect readErr => Sys2Proof.Machine.execSectionChecked t idx sect readErr s
  | .serviceStart t => Sys2Proof.Machine.execServiceStart t s
  | .lateBentsInService n => Sys2Proof.Machine.execLateBentsInService n s
  | .deltaCheck t ms w => Sys2Proof.Machine.execDeltaCheck t ms w s
  | .deltaArmed t => Sys2Proof.Machine.execDeltaArmed t s
  | .deltaAbort ms w => Sys2Proof.Machine.execDeltaAbort ms w s
  | .stagingForward ms w => Sys2Proof.Machine.execStagingForward ms w s
  | .stagingError t => Sys2Proof.Machine.execStagingError t s
  | .swapSchedule c g => Sys2Proof.Machine.execSwapSchedule c g s
  | .deltaDisarm c => Sys2Proof.Machine.execDeltaDisarm c s
  | .swap g => Sys2Proof.Machine.execSwap g s
  | .purgeComplete t => Sys2Proof.Machine.execPurgeComplete t s
  | .drainAbort t m => Sys2Proof.Machine.execDrainAbort t m s
  | .oldTenonRelease t m => Sys2Proof.Machine.execOldTenonRelease t m s
  | .tenonLoaded t m => Sys2Proof.Machine.execTenonLoaded t m s
  | .tenonResume a m => Sys2Proof.Machine.execTenonResume a m s
  | .gptpSyncReceived t bay domain offset => Sys2Proof.Machine.execGptpSyncReceived t bay domain offset s
  | .tbHoldover t => Sys2Proof.Machine.execTbHoldover t s
  | .tbLost t => Sys2Proof.Machine.execTbLost t s
  | .announceTimeout t => Sys2Proof.Machine.execAnnounceTimeout t s
  | .pdelayExchange t bay delay => Sys2Proof.Machine.execPdelayExchange t bay delay s
  | .epochBoundary t => Sys2Proof.Machine.execEpochBoundary t s
  | .bayFrameReceived t bay frame fcsErr codeErr => Sys2Proof.Machine.execBayFrameReceived t bay frame fcsErr codeErr s
  | .pauseExpiry t bay => Sys2Proof.Machine.execPauseExpiry t bay s
  | .linkChange t bay link => Sys2Proof.Machine.execLinkChange t bay link s
  | .autonegWordReceived bay halfDuplex speed => Sys2Proof.Machine.execAutonegWordReceived bay halfDuplex speed s
  | .mdioCommand ms w val => Sys2Proof.Machine.execMdioCommand ms w val s
  | .mdioDone rdata ack => Sys2Proof.Machine.execMdioDone rdata ack s
  | .bayFrameTransmit t bay => Sys2Proof.Machine.execBayFrameTransmit t bay s
  | .canFrameReceived t m rx => Sys2Proof.Machine.execCanFrameReceived t m rx s
  | .priorityCellRead ms w m k => Sys2Proof.Machine.execPriorityCellRead ms w m k s
  | .canArbitrationStart t m => Sys2Proof.Machine.execCanArbitrationStart t m s
  | .canTransmitEnd t m tdcv => Sys2Proof.Machine.execCanTransmitEnd t m tdcv s
  | .canTransmitFailed t m lost => Sys2Proof.Machine.execCanTransmitFailed t m lost s
  | .canBusError t m err fault => Sys2Proof.Machine.execCanBusError t m err fault s
  | .busOffRecovered t m => Sys2Proof.Machine.execBusOffRecovered t m s
  | .busOffRecoveryRequest c m => Sys2Proof.Machine.execBusOffRecoveryRequest c m s
  | .canOpmodeWrite c m mode => Sys2Proof.Machine.execCanOpmodeWrite c m mode s
  | .canTxAbort t m mask => Sys2Proof.Machine.execCanTxAbort t m mask s
  | .beginDriving t => Sys2Proof.Machine.execBeginDriving t s
  | .basicCycleStart t m => Sys2Proof.Machine.execBasicCycleStart t m s
  | .exclusiveWindowOpen t m busy => Sys2Proof.Machine.execExclusiveWindowOpen t m busy s
  | .windowEnd t m => Sys2Proof.Machine.execWindowEnd t m s
  | .referenceLost t m => Sys2Proof.Machine.execReferenceLost t m s
  | .linSlotStart t m => Sys2Proof.Machine.execLinSlotStart t m s
  | .linHeaderReceived t m rx bitDev => Sys2Proof.Machine.execLinHeaderReceived t m rx bitDev s
  | .linFrameReceived t m rec => Sys2Proof.Machine.execLinFrameReceived t m rec s
  | .linResponseError t m fid reason => Sys2Proof.Machine.execLinResponseError t m fid reason s
  | .linEventCollision t m => Sys2Proof.Machine.execLinEventCollision t m s
  | .linTransmitConfirm t m => Sys2Proof.Machine.execLinTransmitConfirm t m s
  | .linTxFailed t m reason => Sys2Proof.Machine.execLinTxFailed t m reason s
  | .linBusIdleTimeout t m => Sys2Proof.Machine.execLinBusIdleTimeout t m s
  | .linWakePulseReceived t m us => Sys2Proof.Machine.execLinWakePulseReceived t m us s
  | .linTableWrite c m table => Sys2Proof.Machine.execLinTableWrite c m table s
  | .linRunWrite c m run => Sys2Proof.Machine.execLinRunWrite c m run s
  | .linSleepCommand c m => Sys2Proof.Machine.execLinSleepCommand c m s
  | .linWakeRequest c m => Sys2Proof.Machine.execLinWakeRequest c m s
  | .t1sFrameReceived t m frame fcsErr => Sys2Proof.Machine.execT1sFrameReceived t m frame fcsErr s
  | .plcaBeacon t m sent => Sys2Proof.Machine.execPlcaBeacon t m sent s
  | .plcaInactive t m => Sys2Proof.Machine.execPlcaInactive t m s
  | .t1sTransmitOpportunity t m ph => Sys2Proof.Machine.execT1sTransmitOpportunity t m ph s
  | .phyDisconnect t trip => Sys2Proof.Machine.execPhyDisconnect t trip s
  | .phyReconnect t m held => Sys2Proof.Machine.execPhyReconnect t m held s
  | .phyResetCommand c m => Sys2Proof.Machine.execPhyResetCommand c m s
  | .t1sWakeRequest c m => Sys2Proof.Machine.execT1sWakeRequest c m s
  | .phyWakeDetect t m us => Sys2Proof.Machine.execPhyWakeDetect t m us s
  | .bankFault t bank cls => Sys2Proof.Machine.execBankFault t bank cls s
  | .pinFault t m pin => Sys2Proof.Machine.execPinFault t m pin s
  | .mortiseTxInhibit c m on => Sys2Proof.Machine.execMortiseTxInhibit c m on s
  | .mortiseRxInhibit c m on => Sys2Proof.Machine.execMortiseRxInhibit c m on s
  | .hostCopyControl c m val => Sys2Proof.Machine.execHostCopyControl c m val s
  | .hostRingFrameRead t ring len entry intr frame err => Sys2Proof.Machine.execHostRingFrameRead t ring len entry intr frame err s
  | .ringTailWrite ms w tx ring tail bufLens => Sys2Proof.Machine.execRingTailWrite ms w tx ring tail bufLens s
  | .ringDisable ms w tx ring inten => Sys2Proof.Machine.execRingDisable ms w tx ring inten s
  | .inputHandover t cls port => Sys2Proof.Machine.execInputHandover t cls port s
  | .ledgerClose t n => Sys2Proof.Machine.execLedgerClose t n s
  | .recordsSealSend t n => Sys2Proof.Machine.execRecordsSealSend t n s
  | .peerRecordsReceived t n recs => Sys2Proof.Machine.execPeerRecordsReceived t n recs s
  | .matchingDecided t n => Sys2Proof.Machine.execMatchingDecided t n s
  | .fillReceived t inp => Sys2Proof.Machine.execFillReceived t inp s
  | .fillAckReceived t cls port pos => Sys2Proof.Machine.execFillAckReceived t cls port pos s
  | .fillDeadline t n => Sys2Proof.Machine.execFillDeadline t n s
  | .ledgerRelease t n ecc => Sys2Proof.Machine.execLedgerRelease t n ecc s
  | .ageOut key => Sys2Proof.Machine.execAgeOut key s
  | .entryUnfreeze key => Sys2Proof.Machine.execEntryUnfreeze key s
  | .flushFilterRetire k => Sys2Proof.Machine.execFlushFilterRetire k s
  | .epochProcessingComplete t n => Sys2Proof.Machine.execEpochProcessingComplete t n s
  | .epochOverrun t => Sys2Proof.Machine.execEpochOverrun t s
  | .ledgerCompare t n dig out => Sys2Proof.Machine.execLedgerCompare t n dig out s
  | .rxTimeout n r => Sys2Proof.Machine.execRxTimeout n r s
  | .pduCycleDue n p => Sys2Proof.Machine.execPduCycleDue n p s
  | .routeWrite c idx d => Sys2Proof.Machine.execRouteWrite c idx d s
  | .cellWrite c idx d => Sys2Proof.Machine.execCellWrite c idx d s
  | .pduDescriptorWrite c idx d => Sys2Proof.Machine.execPduDescriptorWrite c idx d s
  | .imageWrite c idx off len trig d => Sys2Proof.Machine.execImageWrite c idx off len trig d s
  | .hostSend c idx => Sys2Proof.Machine.execHostSend c idx s
  | .restartTimeout c idx => Sys2Proof.Machine.execRestartTimeout c idx s
  | .directEntryWrite c idx d => Sys2Proof.Machine.execDirectEntryWrite c idx d s
  | .hashInsert c idx d => Sys2Proof.Machine.execHashInsert c idx d s
  | .hashDelete c idx d => Sys2Proof.Machine.execHashDelete c idx d s
  | .prefixAdd c idx d => Sys2Proof.Machine.execPrefixAdd c idx d s
  | .prefixDelete c idx d => Sys2Proof.Machine.execPrefixDelete c idx d s
  | .learnedFlush c idx d => Sys2Proof.Machine.execLearnedFlush c idx d s
  | .prefixEffect n => Sys2Proof.Machine.execPrefixEffect n s
  | .plumbScanStep t uncorr => Sys2Proof.Machine.execPlumbScanStep t uncorr s
  | .plumbConfirm t k => Sys2Proof.Machine.execPlumbConfirm t k s
  | .shadowWrite ms w val => Sys2Proof.Machine.execShadowWrite ms w val s
  | .meterWrite c idx d => Sys2Proof.Machine.execMeterWrite c idx d s
  | .meterUnblock c idx => Sys2Proof.Machine.execMeterUnblock c idx s
  | .meterClearCounters c idx => Sys2Proof.Machine.execMeterClearCounters c idx s
  | .gateActivate c bay => Sys2Proof.Machine.execGateActivate c bay s
  | .gateListChange t bay => Sys2Proof.Machine.execGateListChange t bay s
  | .histogramClear c => Sys2Proof.Machine.execHistogramClear c s
  | .keyPacketCheck t ms w => Sys2Proof.Machine.execKeyPacketCheck t ms w s
  | .keyCheckComplete t => Sys2Proof.Machine.execKeyCheckComplete t s
  | .keyPacketDiscard ms w => Sys2Proof.Machine.execKeyPacketDiscard ms w s
  | .keyUpdateApply c a => Sys2Proof.Machine.execKeyUpdateApply c a s
  | .nvkmCommitComplete t ok => Sys2Proof.Machine.execNvkmCommitComplete t ok s
  | .keyUpdateInForce n => Sys2Proof.Machine.execKeyUpdateInForce n s
  | .shelfEntryZeroise k => Sys2Proof.Machine.execShelfEntryZeroise k s
  | .tamperDetected t src => Sys2Proof.Machine.execTamperDetected t src s
  | .tamperConfigWrite ms w src val => Sys2Proof.Machine.execTamperConfigWrite ms w src val s
  | .attestationRequest t ms w => Sys2Proof.Machine.execAttestationRequest t ms w s
  | .statementReady t => Sys2Proof.Machine.execStatementReady t s
  | .freshnessWrite c idx d => Sys2Proof.Machine.execFreshnessWrite c idx d s
  | .profileWrite c idx d => Sys2Proof.Machine.execProfileWrite c idx d s
  | .hostJob t ms w => Sys2Proof.Machine.execHostJob t ms w s
  | .hostJobDone t => Sys2Proof.Machine.execHostJobDone t s
  | .pairingExchange t rec => Sys2Proof.Machine.execPairingExchange t rec s
  | .pairwaitExpiry t => Sys2Proof.Machine.execPairwaitExpiry t s
  | .leaseOverride t ms w key => Sys2Proof.Machine.execLeaseOverride t ms w key s
  | .handoverCommand c => Sys2Proof.Machine.execHandoverCommand c s
  | .handoverEffect n => Sys2Proof.Machine.execHandoverEffect n s
  | .heartbeatSend t => Sys2Proof.Machine.execHeartbeatSend t s
  | .heartbeatReceived t hb => Sys2Proof.Machine.execHeartbeatReceived t hb s
  | .tellWordSend t => Sys2Proof.Machine.execTellWordSend t s
  | .tellWordReceived t tw => Sys2Proof.Machine.execTellWordReceived t tw s
  | .pathDown t tell => Sys2Proof.Machine.execPathDown t tell s
  | .pathUp t tell => Sys2Proof.Machine.execPathUp t tell s
  | .pairDegrade t => Sys2Proof.Machine.execPairDegrade t s
  | .leaseExpiry t => Sys2Proof.Machine.execLeaseExpiry t s
  | .takeover t => Sys2Proof.Machine.execTakeover t s
  | .fenceTimerFire t => Sys2Proof.Machine.execFenceTimerFire t s
  | .resyncStart t => Sys2Proof.Machine.execResyncStart t s
  | .resyncRegionCommit t region => Sys2Proof.Machine.execResyncRegionCommit t region s
  | .resyncJoin t j => Sys2Proof.Machine.execResyncJoin t j s
  | .resyncAbandon t => Sys2Proof.Machine.execResyncAbandon t s
  | .cbRecoveryReset n h => Sys2Proof.Machine.execCbRecoveryReset n h s
  | .holdEntry t => Sys2Proof.Machine.execHoldEntry t s
  | .frameDieReset t => Sys2Proof.Machine.execFrameDieReset t s
  | .faultAck ms w ack => Sys2Proof.Machine.execFaultAck ms w ack s
  | .secondFaultClear ms w => Sys2Proof.Machine.execSecondFaultClear ms w s
  | .f2HandlerTimeout t => Sys2Proof.Machine.execF2HandlerTimeout t s
  | .sleepRequest t c => Sys2Proof.Machine.execSleepRequest t c s
  | .sleepGo c => Sys2Proof.Machine.execSleepGo c s
  | .sleepCancel t => Sys2Proof.Machine.execSleepCancel t s
  | .quiesceStart t q => Sys2Proof.Machine.execQuiesceStart t q s
  | .sleepCommit t => Sys2Proof.Machine.execSleepCommit t s
  | .wakeActed t => Sys2Proof.Machine.execWakeActed t s
  | .wakeInDetect t pin => Sys2Proof.Machine.execWakeInDetect t pin s
  | .wakeListenerMatch t k byError rec => Sys2Proof.Machine.execWakeListenerMatch t k byError rec s
  | .sillTimerWake t => Sys2Proof.Machine.execSillTimerWake t s
  | .watchDwellExpiry t => Sys2Proof.Machine.execWatchDwellExpiry t s
  | .wakeOutRequest t => Sys2Proof.Machine.execWakeOutRequest t s
  | .wakeOutPulseEnd t => Sys2Proof.Machine.execWakeOutPulseEnd t s
  | .awakeRestart c => Sys2Proof.Machine.execAwakeRestart c s
  | .maxAwakeExpiry n => Sys2Proof.Machine.execMaxAwakeExpiry n s
  | .ringPass n r => Sys2Proof.Machine.execRingPass n r s
  | .ringStart n r => Sys2Proof.Machine.execRingStart n r s
  | .ringLost n r => Sys2Proof.Machine.execRingLost n r s
  | .pnTimeout n p => Sys2Proof.Machine.execPnTimeout n p s
  | .powerTrip t current temp => Sys2Proof.Machine.execPowerTrip t current temp s
  | .tripClear sense => Sys2Proof.Machine.execTripClear sense s
  | .clockRamp t bent start => Sys2Proof.Machine.execClockRamp t bent start s
  | .spiTransaction cmd addr vals => Sys2Proof.Machine.execSpiTransaction cmd addr vals s
  | .farAccess t ms w addr write => Sys2Proof.Machine.execFarAccess t ms w addr write s
  | .farCompletion t data => Sys2Proof.Machine.execFarCompletion t data s
  | .farAccessTimeout t => Sys2Proof.Machine.execFarAccessTimeout t s
  | .postedLogClear ms w => Sys2Proof.Machine.execPostedLogClear ms w s
  | .lockAcquire t ms w far => Sys2Proof.Machine.execLockAcquire t ms w far s
  | .lockRelease ms w far => Sys2Proof.Machine.execLockRelease ms w far s
  | .lockAbort t far => Sys2Proof.Machine.execLockAbort t far s
  | .prefetchRead t ms w off block => Sys2Proof.Machine.execPrefetchRead t ms w off block s
  | .prefetchExpire t k => Sys2Proof.Machine.execPrefetchExpire t k s
  | .msixUnmask ms vec => Sys2Proof.Machine.execMsixUnmask ms vec s
  | .vsillApplied t => Sys2Proof.Machine.execVsillApplied t s
  | .bankPowerUp t bank cls => Sys2Proof.Machine.execBankPowerUp t bank cls s
  | .headerChecked t header sig => Sys2Proof.Machine.execHeaderChecked t header sig s
  | .prefixBuildDone t => Sys2Proof.Machine.execPrefixBuildDone t s
  | .memoryErrorDetected t bent uncorr => Sys2Proof.Machine.execMemoryErrorDetected t bent uncorr s
  | .epochEngineFault t => Sys2Proof.Machine.execEpochEngineFault t s
  | .announceReceived t bay domain vec => Sys2Proof.Machine.execAnnounceReceived t bay domain vec s
  | .readCompletesWithError ms => Sys2Proof.Machine.execReadCompletesWithError ms s
  | .driverOverTemperature t => Sys2Proof.Machine.execDriverOverTemperature t s
  | .scarfLinkLoss t => Sys2Proof.Machine.execScarfLinkLoss t s
  | .bar2Write w off data => Sys2Proof.Machine.execBar2Write w off data s

end Sys2Proof.Machine
end

