-- ==== Sys2Proof/Safety.lean ====
section
/-! DEFINITION. Safety.lean: what claims about the block are stated in: the well-formed state, and the conditions on state and operands under which a
command has its own effect. -/
namespace Sys2Proof.Machine
open Sys2Proof

/-- The well-formed state: the registers listed once each with their offsets rising, the table space in its canonical form, and 128 mortises, 8 banks and 12 bays. -/
def State.ok (s : State) : Prop :=
  s.regs.Pairwise (fun x y => x.1 < y.1) ∧ Memory.wf s.mem = true ∧ s.mz.length = 128 ∧ s.banks.length = 8 ∧ s.bays.length = 12

/-- Nothing keeps an access of this master to the unit's own register space from being performed at once: the frame die runs, the SPI target is
open to the world of an SPI access (R504), no other master holds the local register bus, and no access is stalled at it (R514). -/
def State.reaches (s : State) (ms : Master) (w : World) : Prop :=
  s.dieOn = true ∧ (∀ l, s.hb.lockL = some l → l.ms = ms ∧ l.w = w) ∧ s.hb.stalled = [] ∧ ms ≠ .scarf ∧ (ms = .spi → s.spiOpen w = true)

/-- A host in the secure world whose accesses nothing holds up. -/
def State.secureHost (s : State) (ms : Master) (w : World) : Prop := s.reaches ms (worldOf ms w) ∧ isHost ms = true ∧ worldOf ms w = .secure

/-- A processed host command finds the frame die in a mode with epochs, and no covered update is being held (R52, R76, R549). -/
def State.takesCommands (s : State) : Prop := s.dieOn = true ∧ s.atOnce = false ∧ s.held = []

/-- A processed host command of an epoch that is being processed: its covered updates are held until the processing completes (R76). -/
def State.inProcessing (s : State) : Prop := s.dieOn = true ∧ s.atOnce = false ∧ s.ep.running.isSome = true

/-- An offset of this unit's own register space, in whole words (R505, R508). -/
def ownWord (a : Nat) : Prop := a < 0x800000 ∧ a % 4 = 0

/-- A register without rules of its own for a write: its policy is that of the host registers, it is none of the registers whose write acts or is ignored for its
value, and none of a tenon area. -/
def quietReg (r : RegRow) (a : Nat) : Bool :=
  r.pol == .std && !inTenonArea r &&
  !([KS_UPBUF 0, EB_WP_M 0 0 0, EB_WP_CTL 0 0, EB_MACCFG 0, EB_RXCFG 0].contains r.base) &&
  !([FR_STAGE, EP_CTRL, EP_TBCFG, FLT_ACK, FR_CTRL, EB_MDIO_CMD, TB_SHWDATA, KS_UPCTL, KS_ATTCTL, CP_HJCTL, TW_CTRL, HB_LOCKCTL, HB_PWSTAT].contains a)

/-- Does a field with an access code of the list hold bit `k` of the register? -/
def holdsBit (r : RegRow) (codes : List Acc) (k : Nat) : Bool :=
  r.fields.any (fun f => codes.contains f.acc && decide (f.lo ≤ k) && decide (k < f.lo + f.width))

/-- Bit `k` of a register after a write of bit value `v` over the stored bit `b`, by the access codes of the fields that hold it (R8, R10): a bit no field holds is
reserved and keeps its value; a W1C bit that the device sets in the same clock (`upd`) stays set (R11). -/
def bitAfterWrite (r : RegRow) (lkOpen : Bool) (k : Nat) (b v upd : Bool) : Bool :=
  (((if holdsBit r (if lkOpen then [.rw, .lk] else [.rw]) k then v else b) || (holdsBit r [.w1s] k && v)) && !(holdsBit r [.w1c] k && v)) ||
    (holdsBit r [.w1c] k && v && upd)

/-- The command answers a next state, and that state satisfies `P`. -/
def After (i : Instr) (s : State) (P : State → Prop) : Prop := ∃ u, exec i s = .next u ∧ P u

/-- Every register but those of the list reads as before. -/
def sameRegs (l : List Nat) (s u : State) : Prop := ∀ a, a ∉ l → u.rd a = s.rd a

/-- The bridge is as before but for the vectors that follow every command (R148, R518, R520): those sent grow, those pending or owed may change. -/
def sameBridge (s u : State) : Prop :=
  u.hb = { s.hb with rxDue := u.hb.rxDue, ringIrq := u.hb.ringIrq, pba0 := u.hb.pba0, pba1 := u.hb.pba1, sent := u.hb.sent } ∧ s.hb.sent <+: u.hb.sent

/-- A gPTP message of a type and domain has gone out on every asCapable master port but for bay `b`, after the messages sent before (R40). -/
def relayed (kind b domain : Nat) (s u : State) : Prop :=
  u.tb.out = s.tb.out ++ ((List.range 12).filter (fun k => k != b && u.ptpRole k == 1 && s.tb.asCapable.contains k)).map fun k => (kind, k, domain)

/-- Every octet of the table space outside `[a, a + n)` reads as before. -/
def sameMem (a n : Nat) (s u : State) : Prop := ∀ x, (x < a ∨ a + n ≤ x) → u.memB x = s.memB x

/-- The registers that the record of a first fault of a class touches (R464). -/
def faultRegs (cls : Nat) : List Nat := [FLT_STATUS, FLT_CNT cls, FLT_FF_W0 cls, FLT_FF_W1 cls, FLT_FF_W2 cls, FLT_FF_W3 cls]

/-- The registers of the CAN tenons that a unit which stops driving brings up to date: TEC and the error state (R189). -/
def tecRegs : List Nat := (List.range 128).flatMap fun m => [CN_ERRC m, CN_STATUS m]

/-- A fault found its class free and is on record (R463, R464): the first-fault record of its class holds its cause, source, unit and class, the epoch being stamped and
the time, its counter has advanced, its handler is active and its interrupt pending. -/
def faultNoted (cls cause src unit : Nat) (s u : State) : Prop :=
  u.rdN (FLT_FF_W0 cls) = cause + src * 2 ^ 8 + unit * 2 ^ 16 + 2 ^ 24 + cls * 2 ^ 25 ∧ u.rdN (FLT_FF_W1 cls) = u.stampEp % 2 ^ 32 ∧
  u.rdN (FLT_FF_W2 cls) = u.stampEp / 2 ^ 32 % 2 ^ 32 ∧ u.rdN (FLT_FF_W3 cls) = u.now % 2 ^ 32 ∧
  u.rdN (FLT_CNT cls) = (s.rdN (FLT_CNT cls) + 1) % 2 ^ 32 ∧ u.bit FLT_STATUS cls = true ∧ u.bit FLT_STATUS (6 + cls) = true

/-- Exactly one input of this class, port, kind and record has been stamped, at the present instant and in the epoch that contains it, and it waits for its hand-over
(R50, R54); the epoch engine is otherwise as before. -/
def stampedOne (s u : State) (cls port : Nat) (kind : InKind) (o : Octets) : Prop :=
  ∃ x : Input, u.ep.handing = s.ep.handing ++ [x] ∧ x.cls = cls ∧ x.port = port ∧ x.kind = kind ∧ x.octets = o ∧ some x.stamp = u.epochNow ∧ x.inst = u.now ∧
    u.ep = { s.ep with handing := u.ep.handing, pos := u.ep.pos }

/-- A mortise that runs a CAN tenon in service and drives its pins in an epoch, in normal mode, outside quiesce. -/
def State.canDriving (s : State) (m : Nat) : Prop :=
  m < 128 ∧ s.mz.length = 128 ∧ (s.mort m).tenon = .can ∧ (s.mort m).st = .inService ∧ s.drives m = true ∧ (s.mort m).can.opmode = 0 ∧ s.wk.quiesce = false ∧
  s.ep.cur.isSome = true

/-- A mortise that runs a LIN tenon in service and drives its pins in an epoch, outside quiesce. -/
def State.linDriving (s : State) (m : Nat) : Prop :=
  m < 128 ∧ s.mz.length = 128 ∧ (s.mort m).tenon = .lin ∧ (s.mort m).st = .inService ∧ s.drives m = true ∧ s.wk.quiesce = false ∧ s.ep.cur.isSome = true

/-- A mortise that runs the integrated T1S PHY in service and drives its pins in an epoch, outside quiesce. -/
def State.t1sDriving (s : State) (m : Nat) : Prop :=
  m < 128 ∧ s.mz.length = 128 ∧ (s.mort m).tenon = .t1sInt ∧ (s.mort m).st = .inService ∧ s.drives m = true ∧ s.wk.quiesce = false ∧ s.ep.cur.isSome = true

/-- An epoch is being processed in service, with the table space in its canonical form. -/
def State.inService (s : State) : Prop := s.inProcessing ∧ s.serving = true ∧ Memory.wf s.mem = true

/-- The timer step of the epoch `n` being processed has come to the aging visits: what goes before them is done (R286, R323). -/
def State.atVisits (s : State) (n : Nat) : Prop :=
  s.ep.running = some n ∧ s.gw.part = 0 ∧ s.tab.learnDue = false ∧ Memory.wf s.mem = true

/-- The stash of hash table `t` holds no entry. -/
def State.stashEmpty (s : State) (t : Nat) : Prop := ∀ j < 32, hValid (s.hent t (hashSlots t + j)) = false

/-- Every mortise but one is as before. -/
def sameMorts (m : Nat) (s u : State) : Prop := ∀ k < 128, k ≠ m → u.mort k = s.mort k

end Sys2Proof.Machine
end

