-- ==== Sys2Proof/Certificates/Slice0/Obligations.lean ====
section
/-! DEFINITION. Certificates/Slice0/Obligations.lean: the statements for the provers. `After i s P` says that the command `i` answers a next state and that P holds of
it; where it also says `u = { s with … := u.…, … }`, every field of the state not named there is as before. -/
set_option Elab.async false
open Sys2Proof
open Sys2Proof.Machine

/-! ### The queue -/

/-- A step takes the command at the front of the queue and runs it on the machine with the queue's rest; with no command waiting the block idles, which is the model's
choice (log entry 1). -/
def Obligations.StepRunsFrontCommand : Prop :=
  (∀ (s : State) (c : Instr) (rest : List Instr), s.pending = c :: rest → step s = exec c { s with pending := rest }) ∧
  (∀ s : State, s.pending = [] → step s = .next s)

/-! ### Register accesses and the bridge (R6 to R14, R52, R502 to R521) -/

/-- R8, R10, R11. A permitted write of a register outside the ledger that has no rules of its own, by a master that nothing holds up, leaves every bit as the access
code of its field says, a W1C bit that the device sets in the same clock staying set, and changes nothing else. -/
def Obligations.RegisterWriteByAccessCode : Prop :=
  ∀ (s : State) (ms : Master) (w : World) (a : Nat) (v : Word) (upd : Nat) (r : RegRow),
    s.reaches ms (worldOf ms w) → ownWord a → s.rowAt a = some r → s.mayWrite r.pol a ms (worldOf ms w) = true →
    quietReg r a = true → (r.fields.all fun f => !f.ledger) = true →
    After (.registerWrite ms w ⟨a, 4⟩ ⟨v, upd⟩) s fun u =>
      (∀ k < 32, u.bit a k = bitAfterWrite r (s.lkOpen a) k (s.bit a k) (v.getLsbD k) (upd.testBit k)) ∧
      sameRegs [a] s u ∧ u = { s with regs := u.regs, hb := u.hb } ∧ sameBridge s u

/-- R6, R7, R508. A write of a size other than 32 bits, a misaligned one, and one that the policy does not permit are ignored and count one violation in FLT_VIOL, which
saturates; a read of another size or misaligned returns zero and counts one likewise. An aligned access of 32 bits to unmapped register space reads as zero, its write is
ignored, and neither counts a violation; none of these changes anything else. That an access which is not a whole word counts even where nothing is mapped is the model's
reading (log entry 21). -/
def Obligations.ViolationsAreCountedUnmappedAreNot : Prop :=
  ∀ (s : State) (ms : Master) (w : World) (a size upd : Nat) (v : Word), s.reaches ms (worldOf ms w) → a < 0x800000 →
    (¬(size = 4 ∧ a % 4 = 0) ∨ (∃ r, s.rowAt a = some r ∧ s.mayWrite r.pol a ms (worldOf ms w) = false) →
      After (.registerWrite ms w ⟨a, size⟩ ⟨v, upd⟩) s fun u =>
        u.rdN FLT_VIOL = min 0xFFFFFFFF (s.rdN FLT_VIOL + 1) ∧ sameRegs [FLT_VIOL] s u ∧
        u = { s with regs := u.regs, hb := u.hb } ∧ sameBridge s u) ∧
    (¬(size = 4 ∧ a % 4 = 0) → s.perr ms = false → After (.latchedRead ms w ⟨a, size⟩) s fun u =>
      u.bus.data = 0 ∧ u.bus.err = false ∧ u.rdN FLT_VIOL = min 0xFFFFFFFF (s.rdN FLT_VIOL + 1) ∧ sameRegs [FLT_VIOL] s u ∧
      u = { s with regs := u.regs, bus := u.bus, hb := u.hb } ∧ sameBridge s u) ∧
    (a % 4 = 0 → s.rowAt a = none →
      After (.registerWrite ms w ⟨a, 4⟩ ⟨v, upd⟩) s fun u => u = { s with hb := u.hb } ∧ sameBridge s u) ∧
    (a % 4 = 0 → s.rowAt a = none → s.perr ms = false →
      (After (.latchedRead ms w ⟨a, 4⟩) s fun u => u.bus.data = 0 ∧ u.bus.err = false ∧ u = { s with bus := u.bus, hb := u.hb } ∧ sameBridge s u) ∧
      (After (.readClear ms w ⟨a, 4⟩ upd) s fun u => u.bus.data = 0 ∧ u.bus.err = false ∧ u = { s with bus := u.bus, hb := u.hb } ∧ sameBridge s u))

/-- R50, R52, R55. In the modes that stamp, a permitted write of a register whose fields are all ledger inputs is stamped as a host command in the epoch that holds the
present instant, with the port of its master and the pair identity of the unit (0 in Solo), and no register changes. -/
def Obligations.LedgerWriteIsStamped : Prop :=
  ∀ (s : State) (ms : Master) (w : World) (a : Nat) (v : Word) (upd : Nat) (r : RegRow) (e : Nat),
    s.reaches ms (worldOf ms w) → ownWord a → s.rowAt a = some r → s.mayWrite r.pol a ms (worldOf ms w) = true →
    quietReg r a = true → (r.fields.all fun f => f.ledger && (f.acc == .rw || f.acc == .w1s || f.acc == .wo)) = true →
    rowMask r (fun _ => true) &&& 0xFFFFFFFF ≠ 0 → s.atOnce = false → s.epochNow = some e →
    After (.registerWrite ms w ⟨a, 4⟩ ⟨v, upd⟩) s fun u =>
      (∃ x : Input, u.ep.handing = s.ep.handing ++ [x] ∧ x.cls = 0 ∧ x.kind = .command ∧ x.addr = a ∧
        x.data = v.toNat &&& rowMask r (fun _ => true) ∧ x.stamp = e ∧ x.inst = s.now ∧
        x.port = (if ms = .spi then 1 else 0) ∧ x.origin = (if s.mode = .solo then 0 else s.pid)) ∧
      u = { s with ep := { s.ep with pos := u.ep.pos, handing := u.ep.handing }, hb := u.hb } ∧ sameBridge s u

/-- R10, R12, R172, R512. Reads that change what they read: the read-clear field of EP_TWOFSMAX returns its value and keeps the update made in the same clock; the low
word of a wide value latches its high word; the first word of a priority cell returns the live buffer and clears NEW; a read by a master whose pending-error flag is
set completes with error, returns zero and clears the flag. Each changes nothing else. -/
def Obligations.ReadsClearLatchAndFail : Prop :=
  (∀ (s : State) (ms : Master) (w : World) (upd : Nat), s.reaches ms (worldOf ms w) → s.perr ms = false → isHost ms = true →
    After (.readClear ms w ⟨EP_TWOFSMAX, 4⟩ upd) s fun u =>
      u.bus.data = s.rd EP_TWOFSMAX ∧ u.bus.err = false ∧ u.rdN EP_TWOFSMAX = upd % 2 ^ 32 ∧ sameRegs [EP_TWOFSMAX] s u ∧
      u = { s with regs := u.regs, bus := u.bus, hb := u.hb } ∧ sameBridge s u) ∧
  (∀ (s : State) (ms : Master) (w : World) (lo hi v : Nat), s.reaches ms (worldOf ms w) → s.perr ms = false → isHost ms = true →
    (lo, hi, v) ∈ [(EP_NOW_L, EP_NOW_H, s.ep.cur.getD 0), (EP_REL_L, EP_REL_H, s.ep.rel.getD 0), (EP_LOSSEP_L, EP_LOSSEP_H, s.ep.lossEp),
      (EP_DIGEST_L, EP_DIGEST_H, s.ep.digest), (TW_LEXP_L, TW_LEXP_H, s.tw.expiry)] →
    After (.latchedRead ms w ⟨lo, 4⟩) s fun u =>
      u.bus.data = BitVec.ofNat 32 v ∧ u.bus.err = false ∧ u.rd hi = BitVec.ofNat 32 (v / 2 ^ 32) ∧ sameRegs [hi] s u ∧
      u = { s with regs := u.regs, bus := u.bus, hb := u.hb } ∧ sameBridge s u) ∧
  (∀ (s : State) (ms : Master) (w : World) (m k : Nat), s.reaches ms (worldOf ms w) → s.perr ms = false → isHost ms = true →
    m < 128 → k < 4 → (s.mort m).tenon = .can → (s.mort m).st = .inService →
    After (.priorityCellRead ms w m k) s fun u =>
      u.bus.data = BitVec.ofNat 32 (if ((s.mort m).can.cells.getD k ([], 0)).1 = [] then 0 else recIdw ((s.mort m).can.cells.getD k ([], 0)).1) ∧
      u.bit (CN_PCSTAT m) k = false ∧ (∀ j < 32, j ≠ k → u.bit (CN_PCSTAT m) j = s.bit (CN_PCSTAT m) j) ∧
      sameRegs (CN_PCSTAT m :: (List.range 21).map fun i => CN_PC_W0 m k + 4 * i) s u ∧
      u = { s with regs := u.regs, bus := u.bus, hb := u.hb } ∧ sameBridge s u) ∧
  (∀ (s : State) (ms : Master) (k : Nat), s.dieOn = true → (ms, k) ∈ [(.pcie0, 0), (.pcie1, 1), (.jtag, 3)] → s.bit HB_STATUS (1 + k) = true →
    After (.readCompletesWithError ms) s fun u =>
      u.bus.data = 0 ∧ u.bus.err = true ∧ u.bit HB_STATUS (1 + k) = false ∧ (∀ j < 32, j ≠ 1 + k → u.bit HB_STATUS j = s.bit HB_STATUS j) ∧
      sameRegs [HB_STATUS] s u ∧ u = { s with regs := u.regs, bus := u.bus, hb := u.hb } ∧ sameBridge s u)

/-- R14. A permitted write of 1 to a block's or page's LOCK bit sets it, whatever it was, and changes no other register and nothing else; FR_CTRL and MZ_CTRL, whose
registers act, are among the blocks. -/
def Obligations.LockBitIsSet : Prop :=
  ∀ (s : State) (ms : Master) (w : World) (a : Nat), s.reaches ms (worldOf ms w) → isHost ms = true → worldOf ms w = .secure →
    a ∈ [PW_CTRL, FLT_INTEN, EP_CTRL, FR_CTRL, MZ_CTRL 0, MZ_CTRL 127, EB_MACCFG 0, EB_MACCFG 11, SG_CTRL, TB_CTRL, SC_CTRL, CP_CTRL, TW_CTRL, WK_CTRL, HB_CTRL] →
    After (.blockLockSet ms w a) s fun u =>
      u.bit a 31 = true ∧ (∀ k < 31, u.bit a k = s.bit a k) ∧ sameRegs [a] s u ∧ u = { s with regs := u.regs, hb := u.hb } ∧ sameBridge s u

/-- R514. ACQ on a bus that no master holds gives it to the master and world that wrote it; REL by the holder frees it; a lock held for 4 µs is aborted: it is free,
LOCKAB is set, HB_CNT1 counts, and with room in the log the abort is entered with code 0x3 and address zero and the holder's flag set. R515. A read in an enabled
prefetch window over a live link with nothing held fetches the aligned block, holds it for PFLIFE µs (0 acts as 1) and returns its word; a held block is discarded once
its time has passed. Neither changes a register. -/
def Obligations.LocksAndPrefetch : Prop :=
  (∀ (s : State) (t : Nat) (ms : Master) (w : World), s.reaches ms (worldOf ms w) → isHost ms = true → s.hb.lockL = none →
    After (.lockAcquire t ms w false) s fun u =>
      u.hb.lockL = some { ms := ms, w := worldOf ms w, at_ := max s.now t } ∧ u.hb.lockF = s.hb.lockF ∧ sameRegs [HB_LOCKCTL] s u ∧
      u = { s with now := max s.now t, regs := u.regs, hb := u.hb }) ∧
  (∀ (s : State) (ms : Master) (w : World) (n : Nat), s.dieOn = true → s.hb.stalled = [] → isHost ms = true → (ms = .spi → s.spiOpen w = true) →
    s.hb.lockL = some { ms := ms, w := worldOf ms w, at_ := n } →
    After (.lockRelease ms w false) s fun u =>
      u.hb.lockL = none ∧ u.hb.lockF = s.hb.lockF ∧ sameRegs [HB_LOCKCTL] s u ∧ u = { s with regs := u.regs, hb := u.hb }) ∧
  (∀ (s : State) (t : Nat) (far : Bool) (l : BusLock) (k : Nat), (if far then s.hb.lockF else s.hb.lockL) = some l → l.at_ + 4000 ≤ max s.now t →
    s.hb.stalled = [] → masterNo l.ms = some k → s.fld HB_PWSTAT 0 3 = 0 →
    After (.lockAbort t far) s fun u =>
      (if far then u.hb.lockF else u.hb.lockL) = none ∧ u.bit HB_EVENT 1 = true ∧ u.rdN (HB_CNT 1) = (s.rdN (HB_CNT 1) + 1) % 2 ^ 32 ∧
      u.fld HB_PWSTAT 0 3 = 1 ∧ u.fld (HB_PWLOG_W0 0) 0 24 = 0 ∧ u.fld (HB_PWLOG_W0 0) 24 3 = k ∧ u.fld (HB_PWLOG_W0 0) 28 4 = 3 ∧
      u.bit HB_STATUS (1 + k) = true ∧
      sameRegs [HB_EVENT, HB_CNT 1, HB_PWSTAT, HB_PWLOG_W0 0, HB_PWLOG_W1 0, HB_PWLOG_W2 0, HB_PWLOG_W3 0, HB_STATUS] s u ∧
      u = { s with now := max s.now t, regs := u.regs, hb := u.hb }) ∧
  (∀ (s : State) (t : Nat) (ms : Master) (w : World) (off k n : Nat) (block : List Word), s.dieOn = true → masterNo ms = some n → (ms = .spi → s.spiOpen w = true) → s.perr ms = false →
    s.hb.stalled = [] → s.hb.lockF = none → s.hb.blocks = [] → s.tw.scfUp = true → off < 0x800000 → off % 4 = 0 → s.pfWindow off = some k →
    After (.prefetchRead t ms w off block) s fun u =>
      u.hb.blocks = [{ off := off - off % 256, words := block, at_ := max s.now t, life := max 1 (s.fld (HB_PF_CFG k) 8 8) }] ∧
      u.bus.data = block.getD (off % 256 / 4) 0 ∧ u.bus.err = false ∧ u = { s with now := max s.now t, bus := u.bus, hb := u.hb }) ∧
  (∀ (s : State) (t k : Nat) (b : PfBlock), s.hb.blocks[k]? = some b → b.at_ + 1000 * b.life ≤ max s.now t →
    After (.prefetchExpire t k) s fun u =>
      u.hb.blocks = s.hb.blocks.eraseIdx k ∧ u = { s with now := max s.now t, hb := u.hb } ∧
      sameBridge { s with hb := { s.hb with blocks := s.hb.blocks.eraseIdx k } } u)

/-- R510, R511, R512, R550. With no earlier far access outstanding, a far access over a live window is queued and changes no register; over a window that is not live a
write fails at once and is entered in the empty log with its address, its data and its master, setting PWERR and the master's flag, while a read completes with error
and is not logged. A completed access leaves the queue and a read returns the twin's word; a write not completed within 10 µs fails with code 0x2; when the link is lost
nothing stays outstanding; CLR empties the log. Codes 0x1 and 0x4 of a lost access are the model's reading (log entry 20). -/
def Obligations.FarAccesses : Prop :=
  (∀ (s : State) (t : Nat) (ms : Master) (w : World) (off size k : Nat) (v : Option Word), s.dieOn = true → masterNo ms = some k → s.hb.stalled = [] →
    s.hb.lockF = none → s.hb.blocks = [] → s.hb.far = [] → s.perr ms = false → (ms = .spi → s.spiOpen w = true) → off < 0x800000 →
    (s.tw.scfUp = true → After (.farAccess t ms w ⟨off, size⟩ v) s fun u =>
      u.hb.far = [{ ms := ms, w := worldOf ms w, off := off, size := size, data := v, at_ := max s.now t }] ∧
      u = { s with now := max s.now t, bus := u.bus, hb := u.hb } ∧ (v ≠ none → u.bus = s.bus)) ∧
    (s.tw.scfUp = false → v = none → After (.farAccess t ms w ⟨off, size⟩ v) s fun u =>
      u.bus.data = 0 ∧ u.bus.err = true ∧ u.hb.far = [] ∧ u = { s with now := max s.now t, bus := u.bus, hb := u.hb }) ∧
    (∀ d : Word, s.tw.scfUp = false → v = some d → s.fld HB_PWSTAT 0 3 = 0 → After (.farAccess t ms w ⟨off, size⟩ v) s fun u =>
      u.hb.far = [] ∧ u.fld HB_PWSTAT 0 3 = 1 ∧ u.fld (HB_PWLOG_W0 0) 0 24 = off ∧ u.fld (HB_PWLOG_W0 0) 24 3 = k ∧
      u.fld (HB_PWLOG_W0 0) 28 4 = (if s.tw.tellSt = 1 then 4 else 1) ∧ u.rd (HB_PWLOG_W1 0) = d ∧ u.bit HB_EVENT 0 = true ∧
      u.bit HB_STATUS (1 + k) = true ∧
      sameRegs [HB_EVENT, HB_PWSTAT, HB_PWLOG_W0 0, HB_PWLOG_W1 0, HB_PWLOG_W2 0, HB_PWLOG_W3 0, HB_STATUS] s u ∧
      u = { s with now := max s.now t, regs := u.regs, hb := u.hb })) ∧
  (∀ (s : State) (t : Nat) (x : FarReq) (rest : List FarReq) (d : Option Word), s.hb.far = x :: rest → s.hb.stalled = [] →
    (After (.farCompletion t d) s fun u =>
      u.hb.far = rest ∧ (x.data = none → u.bus.data = d.getD 0 ∧ u.bus.err = false) ∧ (x.data ≠ none → u.bus = s.bus) ∧
      u = { s with now := max s.now t, bus := u.bus, hb := u.hb }) ∧
    (∀ k v, masterNo x.ms = some k → x.data = some v → x.at_ + 10000 ≤ max s.now t → s.fld HB_PWSTAT 0 3 = 0 →
      After (.farAccessTimeout t) s fun u =>
        u.hb.far = rest ∧ u.fld HB_PWSTAT 0 3 = 1 ∧ u.fld (HB_PWLOG_W0 0) 28 4 = 2 ∧ u.rd (HB_PWLOG_W1 0) = v ∧ u.bit HB_EVENT 0 = true ∧
        u.bit HB_STATUS (1 + k) = true ∧ u = { s with now := max s.now t, regs := u.regs, hb := u.hb })) ∧
  (∀ (s : State) (t : Nat), s.hb.stalled = [] → After (.scarfLinkLoss t) s fun u =>
    u.hb.far = [] ∧ u.mem = s.mem ∧ u.mz = s.mz ∧ u = { s with now := max s.now t, regs := u.regs, bus := u.bus, hb := u.hb }) ∧
  (∀ (s : State) (ms : Master) (w : World), s.reaches ms (worldOf ms w) → isHost ms = true → worldOf ms w = .secure →
    After (.postedLogClear ms w) s fun u =>
      u.rdN HB_PWSTAT = 0 ∧ (∀ j < 4, u.rdN (HB_PWLOG_W0 j) = 0) ∧
      sameRegs (HB_PWSTAT :: (List.range 4).flatMap fun j => [HB_PWLOG_W0 j, HB_PWLOG_W1 j, HB_PWLOG_W2 j, HB_PWLOG_W3 j]) s u ∧
      u = { s with regs := u.regs, hb := u.hb } ∧ sameBridge s u)

/-- R517, R519, R520. A frame read from the ring whose turn it is is stamped as a host ring input of its port and counted; one of impossible length, or whose read
fails, is completed with ERR, is no input and sets DMAERR. The owner's TAIL write gives the descriptors; a write of CTL with EN clear takes the ring out of use with
HEAD and TAIL zero; unmasking a pending vector sends it. -/
def Obligations.RingsAndVectors : Prop :=
  (∀ (s : State) (t r len entry e : Nat) (frame : Octets) (err : Bool), s.dieOn = true → (s.mode = .solo ∨ s.mode = .lead ∨ s.mode = .shadow ∨ s.mode = .hold) →
    s.portOn (r / 4) = true → s.nextTxRing (r / 4) = some r → nth s.hb.txAt (r / 4) ≤ t → r / 4 < s.hb.served.length → (s.tick t).epochNow = some e →
    (err = false ∧ 1 ≤ len ∧ len ≤ 9220 → After (.hostRingFrameRead t r len entry false frame err) s fun u =>
      (∃ x : Input, u.ep.handing = s.ep.handing ++ [x] ∧ x.cls = 3 ∧ x.port = r / 4 ∧ x.kind = .frame ∧ x.octets = padTo len frame ∧ x.entry = entry ∧
        x.stamp = e ∧ x.inst = max s.now t) ∧
      u.rdN (HB_CNT 2) = (s.rdN (HB_CNT 2) + 1) % 2 ^ 32 ∧ u.hb.txDone = s.hb.txDone ++ [(r, false, e % 2 ^ 24)] ∧ u.hb.served.getD (r / 4) 0 = r ∧
      sameRegs [HB_CNT 2, HB_TXR_HEAD r] s u ∧
      u = { s with now := max s.now t, regs := u.regs, ep := { s.ep with pos := u.ep.pos, handing := u.ep.handing }, hb := u.hb }) ∧
    (err = true ∨ len = 0 ∨ 9220 < len → After (.hostRingFrameRead t r len entry false frame err) s fun u =>
      u.ep = s.ep ∧ u.bit HB_EVENT 2 = true ∧ u.hb.txDone = s.hb.txDone ++ [(r, true, 0)] ∧ sameRegs [HB_EVENT, HB_TXR_HEAD r] s u ∧
      u = { s with now := max s.now t, regs := u.regs, hb := u.hb })) ∧
  (∀ (s : State) (ms : Master) (w : World) (r tail : Nat) (lens : List Nat), r < 16 → s.reaches ms (worldOf ms w) → s.ownsRing r ms = true → r < s.hb.bufs.length →
    (After (.ringTailWrite ms w false r tail lens) s fun u =>
      u.rdN (HB_RXR_TAIL r) = tail % 4096 ∧ u.hb.bufs = s.hb.bufs.set r (nth s.hb.bufs r ++ lens) ∧ sameRegs [HB_RXR_TAIL r] s u ∧
      u = { s with regs := u.regs, hb := u.hb }) ∧
    (∀ inten : Bool, After (.ringDisable ms w false r inten) s fun u =>
      u.rdN (HB_RXR_CTL r) = (if inten then 2 else 0) ∧ u.rdN (HB_RXR_HEAD r) = 0 ∧ u.rdN (HB_RXR_TAIL r) = 0 ∧ u.hb.bufs = s.hb.bufs.set r [] ∧
      sameRegs [HB_RXR_CTL r, HB_RXR_HEAD r, HB_RXR_TAIL r] s u ∧ u = { s with regs := u.regs, hb := u.hb })) ∧
  (∀ (s : State) (vec : Nat), s.dieOn = true → vec < 64 → s.hb.msix0.length = 256 → s.hb.pba0.testBit vec = true →
    After (.msixUnmask .pcie0 vec) s fun u =>
      (0, vec) ∈ u.hb.sent ∧ u.hb.pba0.testBit vec = false ∧ (nth u.hb.msix0 (4 * vec + 3)).getLsbD 0 = false ∧ u = { s with hb := u.hb })

/-- R506, R329. A BAR2 write stores its octets in the staging region while no delta is armed or being checked, and in the shadow area; it stores nothing in a region
the device keeps. A write of TB_SHWDATA stores four octets of the shadow area at ADDR and adds 4 to ADDR. No other octet of the table space changes. R504. An SPI write
of one word is the register write of the SPI host in the command's world; a read of one word whose value a host may have returns it with status 0x5A; a command while
the target is not open to its world, or of another code, is ignored. -/
def Obligations.TableSpaceAndSpi : Prop :=
  (∀ (s : State) (off : Nat) (data : Octets), s.dieOn = true → Memory.wf s.mem = true → off + data.length ≤ 2 ^ 30 →
    After (.bar2Write .secure off data) s fun u =>
      (∀ x, s.fld HB_B2PAGE 0 2 * 2 ^ 30 + off ≤ x → x < s.fld HB_B2PAGE 0 2 * 2 ^ 30 + off + data.length →
        u.memB x = if (0x990 * 2 ^ 20 ≤ x ∧ x < 0xA90 * 2 ^ 20 ∧ s.bit FR_STATUS 5 = false ∧ s.fr.checking = false) ∨ (0xB14 * 2 ^ 20 ≤ x ∧ x < 0xFFE * 2 ^ 20)
          then data.getD (x - (s.fld HB_B2PAGE 0 2 * 2 ^ 30 + off)) 0 else s.memB x) ∧
      sameMem (s.fld HB_B2PAGE 0 2 * 2 ^ 30 + off) data.length s u ∧
      u = { s with mem := u.mem, hb := u.hb } ∧ sameBridge s u) ∧
  (∀ (s : State) (ms : Master) (w : World) (val : Word) (a : Nat), s.reaches ms (worldOf ms w) → isHost ms = true → worldOf ms w = .secure → Memory.wf s.mem = true →
    s.fld TB_SHWADDR 0 31 = a → a % 4 = 0 → a < 0x4EA00000 →
    After (.shadowWrite ms w val) s fun u =>
      u.memN (s.shBase + a) 4 = val.toNat ∧ sameMem (s.shBase + a) 4 s u ∧ u.fld TB_SHWADDR 0 31 = a + 4 ∧ sameRegs [TB_SHWADDR] s u ∧
      u = { s with regs := u.regs, mem := u.mem, hb := u.hb } ∧ sameBridge s u) ∧
  (∀ (s : State) (cmd a : Nat) (w : World) (v : Word), (cmd, w) ∈ [(2, World.normal), (0x12, World.secure)] → s.dieOn = true → s.spiOpen w = true →
    exec (.spiTransaction cmd a [v]) s = exec (.registerWrite .spi w ⟨a, 4⟩ ⟨v, 0⟩) s) ∧
  (∀ (s : State) (cmd a : Nat) (w : World) (v : Word) (r : RegRow), (cmd, w) ∈ [(3, World.normal), (0x13, World.secure)] → s.reaches .spi w → s.perr .spi = false →
    ownWord a → s.rowAt a = some r → mayRead r.pol s.ks.lc .spi w = true → s.wide a = none → r.ten = .any → r.base ≠ MZ_STATUS 0 → r.base ≠ KS_UPBUF 0 →
    (r.fields.all fun f => f.acc != .rc) = true → s.hb.far = [] →
    After (.spiTransaction cmd a [v]) s fun u =>
      u.bus.status = 0x5A ∧ u.bus.words = [BitVec.ofNat 32 ((s.view .spi w a).getD (s.rdN a) &&& rowMask r (fun f => f.acc != .wo))] ∧
      u = { s with bus := u.bus, hb := u.hb } ∧ sameBridge s u) ∧
  (∀ (s : State) (cmd a : Nat) (vals : List Word), (cmd ∉ [2, 3, 0x12, 0x13] ∨ s.spiOpen (if cmd = 0x12 ∨ cmd = 0x13 then .secure else .normal) = false) →
    After (.spiTransaction cmd a vals) s fun u => u = { s with hb := u.hb } ∧ sameBridge s u)

/-! ### The sill die: supplies, resets, wake and sleep (R17, R30, R430, R434, R476 to R485, R528 to R534) -/

/-- R534, R434. PORESET_N low clears every register of a Q2 unit to its reset value, the table space and the frame die's state, takes the device to Sill and its pins
to high impedance; the pair generation, NVKM and the time base's instant stay. The release samples TWIN_ID and is latched as a wake of source 0. R17. When the 32.768
kHz oscillator fails, the sill die goes on on its RC fallback and records the switch; nothing else changes. R17, R434, R534, R536. VSILL applied to a unit without supply
starts the sill die on its RC fallback, in Sill with PORESET_N low; a loss of VSILL stops the unit: the pair generation reads 0, NVKM is kept, and the time base keeps
its instant; what stays beside what these rules name is the model's reading (log entry 19). -/
def Obligations.SillDieResets : Prop :=
  (∀ s : State, s.sill.vsill = true → s.grade = .q2 → After .poresetAssert s fun u =>
    (∀ a, u.rdN a = resetOf a) ∧ u.mode = .sill ∧ u.mem = [] ∧ u.held = [] ∧ u.dieOn = false ∧ u.sill.poreset = true ∧ u.sill.enables = false ∧
    (∀ m < 128, (u.mort m).pins = .highZ ∧ (u.mort m).tenon = .idle) ∧ u.ep.cur = none ∧ u.fr.header = [] ∧ u.tw.gen = s.tw.gen ∧ u.tw.lease = false ∧
    u.ks.banks = s.ks.banks ∧ u.ks.cur = s.ks.cur ∧ u.ks.shelf = [] ∧ u.now = s.now ∧ u.pending = s.pending) ∧
  (∀ (s : State) (t : Nat) (id : Bool), s.sill.vsill = true → s.sill.poreset = true → s.mode = .sill → s.dieOn = false →
    After (.poresetRelease t id) s fun u =>
      u.tw = { s.tw with pairId := id } ∧
      u.sill = { s.sill with poreset := false, commitAt := 0, latched := s.sill.latched ++ [{ src := 0, idx := 0, at_ := t }] } ∧
      u = { s with now := max s.now t, tw := u.tw, sill := u.sill, hb := u.hb } ∧ sameBridge s u) ∧
  (∀ (s : State) (t : Nat), s.sill.vsill = true → After (.osc32Failure t) s fun u =>
    u.sill = { s.sill with oscFail := true } ∧ u.onRc = true ∧ u = { s with now := max s.now t, sill := u.sill, hb := u.hb } ∧ sameBridge s u) ∧
  (∀ (s : State) (t : Nat), s.sill.vsill = false → After (.vsillApplied t) s fun u =>
    u.mode = .sill ∧ u.sill.vsill = true ∧ u.sill.poreset = true ∧ (s.now ≤ t → u.onRc = true) ∧ u.sill.oscFail = false ∧ u.dieOn = false ∧ u.sill.enables = false ∧
    u.tw.gen = s.tw.gen ∧ u.ks.banks = s.ks.banks ∧ u.mem = [] ∧ u.now = max s.now t ∧ u.pending = s.pending) ∧
  (∀ s : State, s.sill.vsill = true → After .vsillLoss s fun u =>
    u.mode = .off ∧ u.sill.vsill = false ∧ u.dieOn = false ∧ u.tw.gen = 0 ∧ u.ks.banks = s.ks.banks ∧ u.mem = [] ∧ (∀ m < 128, (u.mort m).pins = .highZ) ∧
    u.now = s.now ∧ u.pending = s.pending)

/-- R529. With VSILL present, PORESET_N high, the enables asserted and no rail under its range, the frame die leaves reset into Raise: the time base is unsynchronised,
no epoch is stamped, no frame is at hand and no bent in service, the twin holds no lease, and the key store has the lifecycle, the slots and no more that NVKM holds; the
start after an F4 shows in FLT_STATUS; the clocks outside the bents ramp for 2 µs. R530. A frame die not out of reset 20 ms after the wake was acted on has its enables
released and sequenced again 100 ms later, and after the third failure kept released. R531. Recovery of the rails ends the undervoltage and changes nothing else. -/
def Obligations.FrameDiePowerUp : Prop :=
  (∀ (s : State) (t : Nat), s.sill.vsill = true → s.sill.poreset = false → s.sill.enables = true → s.dieOn = false → s.sill.under = false →
    (∀ p, s.sill.powerT = some p → p ≤ t) → After (.frameDieStart t) s fun u =>
      u.mode = .raise ∧ u.dieOn = true ∧ u.tb = {} ∧ u.ep = { lossEp := s.ep.lossEp } ∧ u.fr.header = [] ∧ u.fr.hand = none ∧ u.fr.bents = List.replicate 13 .absent ∧
      u.tw.raiseAt = t ∧ u.tw.gen = s.tw.gen ∧ u.tw.lease = false ∧ u.tw.matched = false ∧ u.ks.lc = u.ks.cur.lc ∧ u.ks.slots = u.ks.cur.slots ∧ u.ks.shelf = [] ∧
      u.ks.upd = none ∧ u.sill = { s.sill with dieOn := true, fails := 0, egressClk := !s.tw.fenced } ∧ (s.flt.f4 = true → s.ep.due = [] → u.bit FLT_STATUS 5 = true ∧ u.bit FLT_STATUS 4 = false) ∧
      u.pw.ramp = some (13, true, t + 2000) ∧ u.banks = s.banks ∧ u.mem = s.mem ∧ u.now = max s.now t ∧ u.pending = s.pending) ∧
  (∀ (s : State) (t p : Nat), s.sill.powerT = some p → s.dieOn = false → s.sill.enables = true → p + 20000000 ≤ t →
    After (.powerupTimeout t) s fun u =>
      u.sill = (if s.sill.fails + 1 < 3 then { s.sill with fails := s.sill.fails + 1, powerT := some (t + 100000000) }
        else { s.sill with fails := 0, enables := false, powerT := none, inh := s.mode == .watch }) ∧
      u = { s with now := max s.now t, sill := u.sill, hb := u.hb } ∧ sameBridge s u) ∧
  (∀ (s : State) (t : Nat), After (.railRecovery t) s fun u =>
    u.sill = { s.sill with under := false } ∧ u = { s with now := max s.now t, sill := u.sill, hb := u.hb } ∧ sameBridge s u)

/-- R14, R466, R468, R531, R561. A reset of the frame die, by a core rail under 90 % or by an F4, leaves the device on its way into Raise with every output pin at high
impedance: the fault records, their counters, the counters of R561 and SL_WKSRC keep their values (FLT_STATUS.ACT for F3 ends with Hold), a lock bit stays as it is, every
other register of a Q2 unit is at its reset value, and the sill die keeps the pair identity and generation. An undervoltage leaves the enables asserted. -/
def Obligations.FrameDieResetKeepsRecords : Prop :=
  (∀ (s : State) (t rail : Nat), s.dieOn = true → rail < 6 → s.grade = .q2 → s.ok → After (.railUndervoltage t rail) s fun u =>
    u.mode = .raise ∧ u.sill = { s.sill with dieOn := false, egressClk := false, under := true, powerT := none } ∧
    (∀ a, keptReg a = true → a ≠ FLT_STATUS → u.rd a = s.rd a) ∧ (∀ k < 32, k ≠ 3 → u.bit FLT_STATUS k = s.bit FLT_STATUS k) ∧ (∀ a ∈ lockRegs, u.bit a 31 = s.bit a 31) ∧
    (∀ a, keptReg a = false → a ∉ lockRegs → u.rdN a = resetOf a) ∧
    (∀ m < 128, (u.mort m).pins = .highZ ∧ (u.mort m).tenon = .idle) ∧ u.ep = {} ∧ u.tb = {} ∧ u.hb.far = [] ∧ u.tw.pairId = s.tw.pairId ∧ u.tw.gen = s.tw.gen ∧
    u.tw.lease = false ∧ u.ks = s.ks ∧ u.now = max s.now t ∧ u.pending = s.pending) ∧
  (∀ (s : State) (t : Nat), s.dieOn = true → s.flt.f4 = true → s.grade = .q2 → s.ok → After (.frameDieReset t) s fun u =>
    u.mode = .raise ∧ u.sill = { s.sill with dieOn := false, egressClk := false } ∧ u.flt.f4 = true ∧
    (∀ a, keptReg a = true → a ≠ FLT_STATUS → u.rd a = s.rd a) ∧ (∀ k < 32, k ≠ 3 → u.bit FLT_STATUS k = s.bit FLT_STATUS k) ∧ (∀ a ∈ lockRegs, u.bit a 31 = s.bit a 31) ∧
    (∀ a, keptReg a = false → a ∉ lockRegs → u.rdN a = resetOf a) ∧
    (∀ m < 128, (u.mort m).pins = .highZ ∧ (u.mort m).tenon = .idle) ∧ u.ep = {} ∧ u.tb = {} ∧ u.hb.far = [] ∧ u.tw.pairId = s.tw.pairId ∧ u.tw.gen = s.tw.gen ∧
    u.tw.lease = false ∧ u.ks = s.ks ∧ u.now = max s.now t ∧ u.pending = s.pending)

/-- R477, R479, R480, R484. With the frame die off a wake source latches: an enabled WAKE_IN pin as source 1, a listener's match as source 2 in Watch, the sill timer
as source 4 after its seconds. A latched wake whose time has come is acted on: SL_WKSRC holds the source and index that `wakePick` finds, whether it came before the
commit point and whether the mode was Watch, and the enables and INH are asserted. R485, R543. A WAKE_OUT pulse that a write of WKOUT asks for starts when the output
has a current limit, a frame has been raised and no pulse started within 100 ms; it ends after its time, and at once on over-temperature. -/
def Obligations.WakesAndWakeOut : Prop :=
  (∀ (s : State) (t pin : Nat), s.asleep = true → pin < 8 → s.sill.inEn.testBit pin = true → After (.wakeInDetect t pin) s fun u =>
    u.sill = { s.sill with latched := s.sill.latched ++ [{ src := 1, idx := pin, at_ := t }] } ∧
    u = { s with now := max s.now t, sill := u.sill, hb := u.hb } ∧ sameBridge s u) ∧
  (∀ (s : State) (t k : Nat) (r : Octets), s.asleep = true → s.mode = .watch → k < 16 → s.sill.listeners.testBit k = true → recFmt r = 0 →
    (s.lstWord k 0).testBit 17 = false → lstMatch (s.lstWord k 0) (s.lstWord k 1) (s.lstWord k 2) (s.lstWord k 3) (s.lstWord k 4) r = true →
    After (.wakeListenerMatch t k false r) s fun u =>
      u.sill.latched = s.sill.latched ++ [{ src := 2, idx := k, at_ := t }] ∧ u.sill = { s.sill with latched := u.sill.latched, lstErr := u.sill.lstErr } ∧
      u = { s with now := max s.now t, sill := u.sill, hb := u.hb } ∧ sameBridge s u) ∧
  (∀ (s : State) (t : Nat), s.asleep = true → s.sill.timer ≠ 0 → s.sill.commitAt + s.sill.timer * 1000000000 ≤ t → After (.sillTimerWake t) s fun u =>
    u.sill = { s.sill with timer := 0, latched := s.sill.latched ++ [{ src := 4, idx := 0, at_ := t }] } ∧
    u = { s with now := max s.now t, sill := u.sill, hb := u.hb } ∧ sameBridge s u) ∧
  (∀ (s : State) (t : Nat) (w : WakeRec), s.asleep = true → s.sill.enables = false → s.wakePick = some w → s.wakeTime w ≤ t →
    After (.wakeActed t) s fun u =>
      u.sill.wkSrc = w.src + w.idx * 2 ^ 8 + (if w.post then 2 ^ 12 else 0) + (if s.mode = .watch then 2 ^ 13 else 0) ∧
      u.sill.enables = true ∧ u.sill.inh = true ∧ u.sill.powerT = some t ∧ u.sill.fails = 0 ∧ u.sill.latched = [] ∧
      ((w.src = 0 ∨ s.sill.wkoAuto = false) → u.sill.pulseOn = s.sill.pulseOn) ∧
      u = { s with now := max s.now t, sill := u.sill, hb := u.hb } ∧ sameBridge s u) ∧
  (∀ (s : State) (t : Nat), s.dieOn = true → s.held = [] → s.sill.wkIlim ≠ 0 → s.sill.raised = true → (∀ p, s.sill.pulseAt = some p → p + 100000000 ≤ t) →
    After (.wakeOutRequest t) s fun u =>
      u.sill = { s.sill with pulseAt := some t, pulseOn := true } ∧ u = { s with now := max s.now t, sill := u.sill, hb := u.hb }) ∧
  (∀ (s : State) (t p : Nat), s.sill.pulseOn = true → s.sill.pulseAt = some p → p + 1000 * s.sill.wkPulse ≤ t → After (.wakeOutPulseEnd t) s fun u =>
    u.sill = { s.sill with pulseOn := false } ∧ u = { s with now := max s.now t, sill := u.sill, hb := u.hb } ∧ sameBridge s u) ∧
  (∀ (s : State) (t : Nat), After (.driverOverTemperature t) s fun u =>
    u.sill = { s.sill with pulseOn := false } ∧ u = { s with now := max s.now t, sill := u.sill, hb := u.hb } ∧ sameBridge s u)

/-- R483. When DWELL is not zero and the device has stayed DWELL hours in Watch without a wake, the sill die disarms the listeners and T1S PHYs, releases INH and
enters Sill; nothing else of the machine changes. -/
def Obligations.WatchDwellEnds : Prop :=
  ∀ (s : State) (t : Nat), s.asleep = true → s.mode = .watch → s.sill.dwell ≠ 0 → s.sill.latched = [] → s.sill.enables = false →
    s.sill.commitAt + s.sill.dwell * 3600000000000 ≤ t → After (.watchDwellExpiry t) s fun u =>
      u.mode = .sill ∧ u.sill = { s.sill with listeners := 0, phys := 0, inh := false } ∧
      u = { s with now := max s.now t, mode := .sill, sill := u.sill, hb := u.hb } ∧ sameBridge s u

/-- R30. A host in the secure world moves the device from Raise and from Hold to Bench, and from Hold and from Bench to Raise with the image SRC selects in hand; a
mode request of another master, of the normal world, or for a transition a host cannot ask for leaves the mode and is on record as an F0 notice with cause 0x01. -/
def Obligations.ModeRequests : Prop :=
  (∀ (s : State) (ms : Master), s.dieOn = true → (ms = .pcie0 ∨ ms = .spi) →
    (s.mode = .raise ∨ s.mode = .hold → After (.modeRequest ms .secure .bench) s fun u =>
      u.mode = .bench ∧ u.ep = { lossEp := s.ep.lossEp } ∧ u.fr.hand = none ∧ u.tw.lease = false ∧ u.held = [] ∧ u.ks = s.ks ∧ u.sill = s.sill ∧ u.mem = s.mem ∧ u.now = s.now) ∧
    (s.mode = .hold ∨ s.mode = .bench → s.bit FR_STATUS 5 = false → s.fld FR_CTRL 1 2 < 3 → After (.modeRequest ms .secure .raise) s fun u =>
      u.mode = .raise ∧ u.ep = { lossEp := s.ep.lossEp } ∧ u.fr.hand = some { src := [4, 2, 3].getD (s.fld FR_CTRL 1 2) 0, startT := s.now } ∧ u.tw.lease = false ∧ u.tw.raiseAt = s.now ∧
      u.fr.header = [] ∧ u.ks = s.ks ∧ u.sill = s.sill ∧ u.mem = s.mem ∧ u.now = s.now)) ∧
  (∀ (s : State) (ms : Master) (w : World) (target : Mode), s.dieOn = true → s.fld FLT_STATUS 0 5 = 0 →
    (((ms ≠ .pcie0 ∧ ms ≠ .spi) ∨ worldOf ms w = .normal) ∨ (s.mode, target) ∉ [(Mode.raise, Mode.bench), (.hold, .bench), (.hold, .raise), (.bench, .raise)]) →
    After (.modeRequest ms w target) s fun u =>
      u.mode = s.mode ∧ faultNoted 0 0x01 0xFF 0xFF s u ∧ sameRegs (faultRegs 0) s u ∧ u = { s with regs := u.regs, hb := u.hb } ∧ sameBridge s u)

/-! ### The frame loader (R87 to R121, R49) -/

/-- R96. In Raise with no image in hand the loader begins with slot A of the flash, the time of the raise counted from the power-up; a START by a host in the secure
world in Hold or Bench enters Raise and begins with the image SRC selects. Both show stage 1 in FR_STATUS. R93, R96, R557. With the header of a flash image in hand
checks 1 to 14 decide it: an image that passes is in hand with its header and records and shows stage 2; one that fails leaves its code in FR_ERR and sets REJECT, and
slot A falls back to slot B while any other image leaves the unit in Bench. R93, R97, R100, R557. A section of the image in hand is kept once it passes check 15 and
R553; the failure of one the raise needs rejects the image, that of a late one leaves its bent out. -/
def Obligations.RaisingAndChecks : Prop :=
  (∀ (s : State) (t : Nat), s.mode = .raise → s.dieOn = true → s.fr.hand = none → After (.raiseFromFlash t) s fun u =>
    u.fr = { s.fr with hand := some { src := 0, startT := s.sill.powerT.getD t } } ∧ u.sill = { s.sill with powerT := none } ∧ u.fld FR_STATUS 0 8 = 1 ∧
    sameRegs [FR_STATUS] s u ∧ u = { s with now := max s.now t, regs := u.regs, fr := u.fr, sill := u.sill, hb := u.hb }) ∧
  (∀ (s : State) (t : Nat) (ms : Master) (w : World), s.secureHost ms w → (s.mode = .hold ∨ s.mode = .bench) → s.bit FR_STATUS 5 = false → s.fld FR_CTRL 1 2 < 3 →
    After (.hostRaise t ms w) s fun u =>
      u.mode = .raise ∧ u.fr.hand = some { src := [4, 2, 3].getD (s.fld FR_CTRL 1 2) 0, startT := max s.now t } ∧ u.fr.header = [] ∧ u.ep = { lossEp := s.ep.lossEp } ∧ u.tw.lease = false ∧
      u.tw.raiseAt = max s.now t ∧ u.ks = s.ks ∧ u.sill = s.sill ∧ u.mem = s.mem ∧ u.now = max s.now t) ∧
  (∀ (s : State) (t : Nat) (h : Raising) (header sig : Octets), s.fr.hand = some h → s.mode = .raise → s.dieOn = true → h.headerOk = false → h.src ≠ 2 →
    s.ep.due = [] → After (.headerChecked t header sig) s fun u =>
      u.now = max s.now t ∧ u.ks = s.ks ∧
      ((s.tick t).loadChecks { img := header, sig := sig } = none →
        u.mode = .raise ∧ u.fr.header = header.take 0x200 ∧ u.fr.recs = imageRecs header ∧ u.fld FR_STATUS 0 4 = 2 ∧
        u.fr.hand = some { h with header := header.take 0x200, recs := imageRecs header, headerOk := true } ∧ u.bit FR_STATUS 4 = (s.ks.lc == 0)) ∧
      (∀ e, (s.tick t).loadChecks { img := header, sig := sig } = some e →
        u.rdN FR_ERR = e.word % 2 ^ 32 ∧ u.bit FR_EVENT 2 = true ∧ u.fr.header = [] ∧
        (h.src = 0 → u.mode = .raise ∧ u.fld FR_STATUS 0 8 = 1 ∧ u.fr.hand = some { src := 1, startT := h.startT }) ∧
        (h.src ≠ 0 → u.mode = .bench ∧ u.fr.hand = none))) ∧
  (∀ (s : State) (t i : Nat) (h : Raising) (sect : Octets) (readErr : Bool), s.fr.hand = some h → s.mode = .raise → s.dieOn = true → h.headerOk = true → h.src ≠ 2 →
    s.sectioned.contains i = true → assoc h.sects i = none → h.bad.contains i = false → s.ep.due = [] →
    After (.sectionChecked t i sect readErr) s fun u =>
      u.now = max s.now t ∧
      ((s.tick t).sectErr h.header h.recs h.sects i sect readErr = none →
        u.mode = .raise ∧ u.fr.hand = some { h with sects := assocPut h.sects i sect } ∧ u.fr.recs = s.fr.recs) ∧
      (∀ e, (s.tick t).sectErr h.header h.recs h.sects i sect readErr = some e →
        (s.needed.contains i = true → u.rdN FR_ERR = e.word % 2 ^ 32 ∧ u.bit FR_EVENT 2 = true ∧ u.mode = (if h.src = 0 then .raise else .bench)) ∧
        (s.needed.contains i = false → u.mode = .raise ∧ u.fr.hand = some { h with bad := h.bad ++ [i] } ∧ (h.bad = [] → u.rdN FR_ERR = e.word % 2 ^ 32) ∧
          (h.bad ≠ [] → u.rdN FR_ERR = s.rdN FR_ERR))))

/-- R46, R49, R94, R97, R101, R137. When raising has ended, epoch 0 begins: in Solo with ledger lag 1 for an image without pairing; in Lead with lag 3 for one with
pairing, the time base locked, when this unit holds the lease, or when both twins raise and it has pair identity 0, which takes the lease with a new generation for
200 µs; each drives its pins. In lifecycle state Blank the frame runs in Bench without epochs. At FULLEP the late mortise bents enter service, and a late bent whose
section did not pass is isolated by an F2 with cause 0x22. -/
def Obligations.ServiceBegins : Prop :=
  (∀ (s : State) (t : Nat), s.mode = .raise → s.dieOn = true → s.fr.hand ≠ none → s.raiseReady = true →
    (s.ks.lc ≠ 0 → s.mayBegin t = true → hFlag s.fr.header 0 = false → After (.serviceStart t) s fun u =>
      u.mode = .solo ∧ u.ep.cur = some 0 ∧ u.ep.start = t ∧ u.ep.stop = (t / s.elen + 1) * s.elen ∧ u.ep.lag = 1 ∧ u.ep.rel = none ∧ u.tw.driving = true ∧
      u.rdN FR_COUNTER = hCounter s.fr.header % 2 ^ 32 ∧ u.fld EP_CTRL 2 2 = 1 ∧ u.fld FR_STATUS 0 4 = (if s.fr.staged = true ∨ s.allLoaded = false then 3 else 4) ∧
      u.tw.lease = s.tw.lease ∧ u.now = max s.now t) ∧
    (s.ks.lc ≠ 0 → s.mayBegin t = true → hFlag s.fr.header 0 = true → s.tb.st = .locked →
      (s.tw.lease = true → After (.serviceStart t) s fun u =>
        u.mode = .lead ∧ u.ep.cur = some 0 ∧ u.ep.start = t ∧ u.ep.lag = 3 ∧ u.fld EP_CTRL 2 2 = 3 ∧ u.tw.lease = true ∧ u.tw.gen = s.tw.gen ∧ u.tw.driving = true ∧
        u.now = max s.now t) ∧
      (s.tw.lease = false → s.tw.matched = true → s.tw.pairId = false → s.tw.peerRole ≠ 0 → After (.serviceStart t) s fun u =>
        u.mode = .lead ∧ u.ep.cur = some 0 ∧ u.ep.start = t ∧ u.ep.lag = 3 ∧ u.tw.lease = true ∧ u.tw.gen = newGen s.tw.gen s.tw.pgen 0 ∧ u.tw.expiry = t + 200000 ∧
        u.tw.nopeer = false ∧ u.tw.driving = true ∧ u.now = max s.now t)) ∧
    (s.ks.lc = 0 → s.ep.cur = none → After (.serviceStart t) s fun u =>
      u.mode = .bench ∧ u.ep = s.ep ∧ u.fr.hand = none ∧ u.fld FR_STATUS 0 4 = 4 ∧ u.tw = s.tw ∧ u.now = max s.now t)) ∧
  (∀ (s : State) (n c : Nat) (h : Raising), s.fr.staged = true → s.fr.full = false → n = hFullEp s.fr.header → s.ep.cur = some c → n ≤ c → s.fr.hand = some h →
    s.fr.bents.length = 13 →
    ((∀ i < 13, s.bent i = .awaiting → (assoc h.sects i).isSome = true) → After (.lateBentsInService n) s fun u =>
      (∀ i < 8, s.bent i = .awaiting → u.bent i = .inService) ∧ (∀ i < 13, (8 ≤ i ∨ s.bent i ≠ .awaiting) → u.bent i = s.bent i) ∧
      u.mode = s.mode ∧ u.ep = { s.ep with due := u.ep.due } ∧ u.now = s.now) ∧
    (∀ k < 13, s.bent k = .awaiting → (∀ i < 13, i ≠ k → s.bent i ≠ .awaiting) → assoc h.sects k = none → s.fld FLT_STATUS 0 5 = 0 →
      After (.lateBentsInService n) s fun u =>
        u.bent k = .isolated ∧ u.bit FR_EVENT 8 = true ∧ faultNoted 2 0x22 (bentCode k) 0xFF s u ∧ (∀ i < 13, i ≠ k → u.bent i = s.bent i)))

/-- R87, R93, R104, R118. START in service begins the check of the delta in staging and shows stage 6. When the check completes, a delta without a failed check is
armed, and one with a failed check is refused with its code in FR_ERR and REJECT set. ABORT ends a check. What a check that ends without arming wrote into a table is
removed by that table's reverse purge. Staging goes to the peer with FWD. An uncorrectable error in armed staging disarms the delta, begins the reverse purge and is on
record as an F2 with cause 0x23. -/
def Obligations.DeltaCheckAndArming : Prop :=
  (∀ (s : State) (t : Nat) (ms : Master) (w : World), s.secureHost ms w → (s.mode = .solo ∨ s.mode = .lead ∨ s.mode = .shadow) → s.bit FR_STATUS 5 = false →
    s.fr.checking = false → s.tw.admitted = false → s.fr.recs ≠ [] → After (.deltaCheck t ms w) s fun u =>
      u.fr.checking = true ∧ u.fld FR_STATUS 0 4 = 6 ∧ u.bit FR_STATUS 5 = false ∧ u.mode = s.mode ∧ u.ep = s.ep ∧ u.fr.swapAt = s.fr.swapAt ∧ u.mz = s.mz ∧
      (∃ d, u.fr.delta = some d ∧ d.recs = imageRecs s.stageImg ∧ d.sects = imageSects s.stageImg)) ∧
  (∀ (s : State) (t : Nat) (d : Raising), s.fr.checking = true → s.fr.delta = some d →
    (d.bad = [] → After (.deltaArmed t) s fun u =>
      u.bit FR_STATUS 5 = true ∧ u.bit FR_EVENT 4 = true ∧ u.fld FR_STATUS 0 4 = (if s.fr.full then 4 else 3) ∧ u.fr = { s.fr with checking := false, gone01 := false } ∧
      sameRegs [FR_STATUS, FR_EVENT] s u ∧ u = { s with now := max s.now t, regs := u.regs, fr := u.fr, hb := u.hb }) ∧
    (∀ e rest, d.bad = e :: rest → After (.deltaArmed t) s fun u =>
      u.rdN FR_ERR = e % 2 ^ 32 ∧ u.bit FR_EVENT 2 = true ∧ u.bit FR_STATUS 5 = s.bit FR_STATUS 5 ∧ (s.fr.wroteT || s.fr.wroteG → u.bit FR_STATUS 6 = true) ∧
      u.fr = { s.fr with
        checking := false, delta := none, wroteT := false, wroteG := false, purgeT := if s.fr.wroteT then .reverse else s.fr.purgeT,
        purgeG := if s.fr.wroteG then .reverse else s.fr.purgeG } ∧
      sameRegs [FR_STATUS, FR_EVENT, FR_ERR] s u ∧ u = { s with now := max s.now t, regs := u.regs, fr := u.fr, hb := u.hb })) ∧
  (∀ (s : State) (ms : Master) (w : World), s.secureHost ms w → s.fr.checking = true → After (.deltaAbort ms w) s fun u =>
    u.fr = { s.fr with
      checking := false, delta := none, wroteT := false, wroteG := false, purgeT := if s.fr.wroteT then .reverse else s.fr.purgeT,
      purgeG := if s.fr.wroteG then .reverse else s.fr.purgeG } ∧
    (s.fr.wroteT || s.fr.wroteG → u.bit FR_STATUS 6 = true) ∧ sameRegs [FR_STATUS] s u ∧ u = { s with regs := u.regs, fr := u.fr, hb := u.hb }) ∧
  (∀ (s : State) (ms : Master) (w : World), s.secureHost ms w → (s.mode = .lead ∨ s.mode = .shadow) → s.pairedFrame = true →
    After (.stagingForward ms w) s fun u =>
      u.fr = { s.fr with peerStage := s.stageImg } ∧ u = { s with fr := u.fr, hb := u.hb } ∧ sameBridge s u) ∧
  (∀ (s : State) (t : Nat), s.bit FR_STATUS 5 = true → s.fr.switched = false → s.mode = .solo → s.fld FLT_STATUS 0 5 = 0 → After (.stagingError t) s fun u =>
    u.bit FR_STATUS 5 = false ∧ u.bit FR_STATUS 6 = true ∧
    u.fr = { s.fr with
      swapAt := none, delta := none, checking := false, wroteT := false, wroteG := false, purgeT := if s.fr.wroteT then .reverse else s.fr.purgeT,
      purgeG := if s.fr.wroteG then .reverse else s.fr.purgeG } ∧ faultNoted 2 0x23 0xFF 0xFF s u ∧
    sameRegs (FR_STATUS :: faultRegs 2) s u ∧ u = { s with now := max s.now t, regs := u.regs, fr := u.fr, flt := u.flt, hb := u.hb })

/-- R105, R554. A processed swap command of epoch c: with a delta armed and G at least c + 16 the swap is scheduled at G, in place of a scheduled one that is itself at
least c + 16 away; a G that is too early, or a scheduled swap too near or begun, leaves the schedule and sets LATE; with no delta armed NOTARMED is set; for
both at once the order is the model's reading (log entry 22). Disarming before G begins cancels the delta and its swap and begins the reverse purge of what was written;
a disarm processed after G has begun takes the swap back as well (the model's choice, log entry 22). R106, R109, R111, R113. The start of epoch G with a swap scheduled
there re-tenons every mortise in service whose descriptor the delta changes, with the resume epoch of R113: one with a transmission in progress drains, any other releases
its pins; the other mortises stay as they are. -/
def Obligations.Swaps : Prop :=
  (∀ (s : State) (c g : Nat), s.takesCommands →
    (s.bit FR_STATUS 5 = true → c + 16 ≤ g → (∀ g', s.fr.swapAt = some g' → c + 16 ≤ g' ∧ s.fr.switched = false) → After (.swapSchedule c g) s fun u =>
      u.fr = { s.fr with swapAt := some g } ∧ u = { s with fr := u.fr, ep := { s.ep with outcomes := u.ep.outcomes }, hb := u.hb } ∧ sameBridge s u) ∧
    (g < c + 16 ∨ (∃ g', s.fr.swapAt = some g' ∧ s.bit FR_STATUS 5 = true ∧ (g' < c + 16 ∨ s.fr.switched = true)) → After (.swapSchedule c g) s fun u =>
      u.bit FR_EVENT 6 = true ∧ sameRegs [FR_EVENT] s u ∧ u = { s with regs := u.regs, ep := { s.ep with outcomes := u.ep.outcomes }, hb := u.hb } ∧ sameBridge s u) ∧
    (c + 16 ≤ g → s.bit FR_STATUS 5 = false → After (.swapSchedule c g) s fun u =>
      u.bit FR_EVENT 7 = true ∧ sameRegs [FR_EVENT] s u ∧ u = { s with regs := u.regs, ep := { s.ep with outcomes := u.ep.outcomes }, hb := u.hb } ∧ sameBridge s u)) ∧
  (∀ (s : State) (c : Nat), s.takesCommands →
    (s.bit FR_STATUS 5 = true → s.fr.switched = false → After (.deltaDisarm c) s fun u =>
      u.bit FR_STATUS 5 = false ∧ u.bit FR_STATUS 6 = true ∧
      u.fr = { s.fr with
        swapAt := none, delta := none, checking := false, wroteT := false, wroteG := false, purgeT := if s.fr.wroteT then .reverse else s.fr.purgeT,
        purgeG := if s.fr.wroteG then .reverse else s.fr.purgeG } ∧ sameRegs [FR_STATUS] s u ∧
      u = { s with regs := u.regs, fr := u.fr, ep := { s.ep with outcomes := u.ep.outcomes }, hb := u.hb } ∧ sameBridge s u) ∧
    (s.bit FR_STATUS 5 = true → s.fr.switched = true → s.mz.length = 128 → After (.deltaDisarm c) s fun u =>
      u.bit FR_STATUS 5 = false ∧ u.fr.swapAt = none ∧ u.fr.delta = none ∧ u.fr.switched = false ∧ (∀ k < 13, s.fr.back.contains k = true → u.bent k = .isolated) ∧
      (∀ m < 128, u.mort m = { s.mort m with newDesc := (s.mort m).newDesc.map fun _ => (s.mort m).desc }) ∧ sameRegs [FR_STATUS] s u ∧
      u = { s with regs := u.regs, mz := u.mz, fr := u.fr, ep := { s.ep with outcomes := u.ep.outcomes }, hb := u.hb } ∧ sameBridge s u) ∧
    (s.bit FR_STATUS 5 = false → After (.deltaDisarm c) s fun u =>
      u = { s with ep := { s.ep with outcomes := u.ep.outcomes }, hb := u.hb } ∧ sameBridge s u)) ∧
  (∀ (s : State) (g c : Nat) (d : Raising), s.ok → s.fr.swapAt = some g → s.ep.cur = some c → g ≤ c → s.fr.switched = false → s.fr.delta = some d →
    After (.swap g) s fun u =>
      u.fr.switched = true ∧ u.fr.swapAt = some g ∧ u.fr.delta = some d ∧ u.ep = { s.ep with due := u.ep.due } ∧ u.mode = s.mode ∧ u.now = s.now ∧
      (∀ y ∈ s.changedMorts d, (u.mort y.1).newDesc = some y.2 ∧ (u.mort y.1).tenon = (s.mort y.1).tenon ∧
        (u.mort y.1).resume = some (g + ((leAt (s.mort y.1).desc 2 2 + 3000) * 1000 + s.elen - 1) / s.elen) ∧
        ((s.mort y.1).resume = none → s.onWire y.1 = true → (u.mort y.1).st = .draining) ∧
        ((s.mort y.1).resume = none → s.onWire y.1 = false → (u.mort y.1).st = .loading ∧ (u.mort y.1).pins = .pidle)) ∧
      (deltaSect d SB0 = none → ∀ m < 128, s.bentUp (m / 16) = true → ((s.changedMorts d).all fun y => y.1 != m) = true → u.mort m = s.mort m))

/-- R112, R149. A transmission in progress at the start of G on a mortise the swap changes, and that is not already being re-tenoned, has DRAIN µs from there. One still in
progress then is aborted: the pins are released, FR_EVENT.DRAINLATE is set, and the mortise's own DRAINLATE waits for the epoch's processing to complete. Where none is in
progress any more, the pins are released and no bit is set. No other mortise and no other register changes. -/
def Obligations.DrainIsAborted : Prop :=
  (∀ (s : State) (g c : Nat) (d : Raising), s.ok → s.fr.swapAt = some g → s.ep.cur = some c → g ≤ c → s.fr.switched = false → s.fr.delta = some d →
    After (.swap g) s fun u => ∀ y ∈ s.changedMorts d, (s.mort y.1).resume = none → s.onWire y.1 = true →
      (u.mort y.1).st = .draining ∧ (u.mort y.1).drainBy = s.epochStart g + leAt (s.mort y.1).desc 2 2 * 1000) ∧
  (∀ (s : State) (t m : Nat), m < 128 → s.mz.length = 128 → (s.mort m).st = .draining → (s.mort m).drainBy ≤ t → (s.tick t).onWire m = true →
    After (.drainAbort t m) s fun u =>
      (u.mort m).st = .loading ∧ (u.mort m).pins = .pidle ∧ (u.mort m).can.wire = none ∧ (u.mort m).lin.sending = none ∧ (u.mort m).lin.hdr = none ∧
      (u.mort m).t1s.burst = 0 ∧ (u.mort m).t1s.waking = none ∧ u.bit FR_EVENT 11 = true ∧ (∀ k < 128, k ≠ m → u.mort k = s.mort k) ∧
      (∀ n, (s.tick t).epochNow = some n → (∀ x, s.ep.done = some x → x < n) →
        u.ep = { s.ep with due := s.ep.due ++ [(n, .or (MZ_EVENT m) 2)] } ∧ sameRegs [FR_EVENT] s u) ∧
      u = { s with now := max s.now t, regs := u.regs, ep := u.ep, mz := u.mz, hb := u.hb }) ∧
  (∀ (s : State) (t m : Nat), m < 128 → s.mz.length = 128 → (s.mort m).st = .draining → (s.mort m).drainBy ≤ t → (s.tick t).onWire m = false →
    After (.drainAbort t m) s fun u =>
      u.mort m = { s.mort m with st := .loading, pins := .pidle } ∧ (∀ k < 128, k ≠ m → u.mort k = s.mort k) ∧
      u = { s with now := max s.now t, mz := u.mz, hb := u.hb })

/-- R111, R143. With nothing on the wire the old tenon's pins are released; when the new tenon's pins are configured they take PIDLE, and the mortise's counters outside
the guarantee are cleared. R113, R144, R149. From its resume epoch the mortise runs the new tenon, whose area holds reset values overwritten by its descriptor; UP waits
for the epoch's processing to complete. R118. The purge ends with PURGED set, entries of the removed generation counting as absent after a forward purge. -/
def Obligations.RetenoningCompletes : Prop :=
  (∀ (s : State) (t m : Nat), m < 128 → s.mz.length = 128 → (s.mort m).st = .draining → (s.tick t).onWire m = false → After (.oldTenonRelease t m) s fun u =>
    u.mort m = { s.mort m with st := .loading, pins := .pidle } ∧ (∀ k < 128, k ≠ m → u.mort k = s.mort k) ∧
    u = { s with now := max s.now t, mz := u.mz, hb := u.hb } ∧ sameBridge s u) ∧
  (∀ (s : State) (t m : Nat) (d : Octets), m < 128 → s.mz.length = 128 → (s.mort m).newDesc = some d → (s.mort m).loaded = false → (s.mort m).st = .loading →
    After (.tenonLoaded t m) s fun u =>
      u.mort m = { s.mort m with loaded := true, pins := .pidle } ∧ (∀ k < 128, k ≠ m → u.mort k = s.mort k) ∧ (∀ k ∈ [1, 2, 6, 7], u.rdN (MZ_CNT m k) = 0) ∧
      sameRegs [MZ_CNT m 1, MZ_CNT m 2, MZ_CNT m 6, MZ_CNT m 7] s u ∧ u = { s with now := max s.now t, regs := u.regs, mz := u.mz, hb := u.hb }) ∧
  (∀ (s : State) (a m c : Nat) (d : Octets), m < 128 → s.mz.length = 128 → (s.mort m).resume = some a → (s.mort m).st = .loading → (s.mort m).newDesc = some d →
    (s.mort m).loaded = true → tenonOf (oct d 0) ≠ .idle → s.ep.cur = some c → a ≤ c → (∀ x, s.ep.done = some x → x < a) → After (.tenonResume a m) s fun u =>
      (u.mort m).tenon = tenonOf (oct d 0) ∧ (u.mort m).desc = d ∧ (u.mort m).newDesc = none ∧ (u.mort m).loaded = false ∧ (u.mort m).resume = none ∧
      (u.mort m).st = .inService ∧ (∀ k < 128, k ≠ m → u.mort k = s.mort k) ∧ u.ep = { s.ep with due := s.ep.due ++ [(a, .or (MZ_EVENT m) 1)] } ∧
      (tenonOf (oct d 0) = .can → u.rdN (CN_BTIM_N m) = leAt d 0x44 4 ∧ u.rdN (CN_ERRC m) = 0) ∧
      (tenonOf (oct d 0) = .lin → u.rdN (LN_CFG m) = leAt d 0x40 4 ∧ u.rdN (LN_BAUD m) = leAt d 0x44 4) ∧
      (tenonOf (oct d 0) = .t1sExt ∨ tenonOf (oct d 0) = .t1sInt → u.rdN (T1_CFG m) = leAt d 0x40 4) ∧
      (∀ r, (r < MZ_ID m + 0x100 ∨ MZ_ID m + 0x1000 ≤ r) → (r < SC_LIM_ID m 0 ∨ SC_LIM_ID m 16 ≤ r) → u.rd r = s.rd r) ∧
      u = { s with regs := u.regs, ep := u.ep, mz := u.mz, hb := u.hb }) ∧
  (∀ (s : State) (t : Nat), s.bit FR_STATUS 6 = true → After (.purgeComplete t) s fun u =>
    u.fr = { s.fr with purgeT := .none, purgeG := .none, gone01 := s.fr.gone01 || s.fr.purgeT == .forward } ∧ u.bit FR_STATUS 6 = false ∧ u.bit FR_EVENT 10 = true ∧
    u.mode = s.mode ∧ u.ep = s.ep ∧ u.mz = s.mz ∧ u.now = max s.now t)

/-! ### Mortises (R125 to R145) -/

/-- R125, R126, R130, R134, R149. A bank in service whose sensed class differs from the declared one isolates its bent by an F2 with cause 0x21, and BANKFAULT and ISOL in
its sixteen pages wait for the epoch's processing to complete; the supply of an unpowered bank leaves its pins at high impedance; an output pin that does not follow its level sets PINFAULT and brings an F0 notice with
cause 0x05. R137, R142, R145, R179. A processed inhibit acts on its mortise alone and shows in MZ_CTRL; a processed MZ_HCOPY write sets enable, mode and ring; a unit
that may drive and does not yet begins to, every tenon in service taking its pins. -/
def Obligations.MortiseFaultsAndControls : Prop :=
  (∀ (s : State) (t k cls n : Nat), k < 8 → s.dieOn = true → s.mode = .solo → s.bentUp k = true → s.banks.length = 8 → s.fr.bents.length = 13 → cls % 4 ≠ (nth s.banks k).decl →
    s.fld FLT_STATUS 0 5 = 0 → (s.tick t).epochNow = some n → (∀ x, s.ep.done = some x → x < n) → After (.bankFault t k cls) s fun u =>
      (nth u.banks k).sensed = cls % 4 ∧ (∀ j < 16, (n, Upd.or (MZ_EVENT (16 * k + j)) 8) ∈ u.ep.due ∧ (n, Upd.or (MZ_EVENT (16 * k + j)) 32) ∈ u.ep.due) ∧
      u.bent k = .isolated ∧ (∀ i < 13, i ≠ k → u.bent i = s.bent i) ∧ faultNoted 2 0x21 k 0xFF s u ∧ (∀ j < 16, (u.mort (16 * k + j)).pins ≠ .tenon) ∧
      u.mode = .solo ∧ u.ep = { s.ep with due := u.ep.due } ∧ u.now = max s.now t) ∧
  (∀ (s : State) (t k cls : Nat), k < 8 → s.banks.length = 8 → s.mz.length = 128 → (nth s.banks k).sensed = 2 → cls % 4 ≠ 2 → After (.bankPowerUp t k cls) s fun u =>
    (nth u.banks k).sensed = cls % 4 ∧ (∀ j < 16, (u.mort (16 * k + j)).pins = .highZ) ∧ (∀ m < 128, m / 16 ≠ k → u.mort m = s.mort m) ∧
    u = { s with now := max s.now t, mz := u.mz, banks := u.banks, hb := u.hb } ∧ sameBridge s u) ∧
  (∀ (s : State) (t m pin : Nat), s.dieOn = true → m < 128 → pin < 4 → s.pinDriven m pin = true → s.fld FLT_STATUS 0 5 = 0 → After (.pinFault t m pin) s fun u =>
    u.bit (MZ_EVENT m) 2 = true ∧ faultNoted 0 0x05 (m / 16) m s u ∧ sameRegs (MZ_EVENT m :: faultRegs 0) s u ∧
    u = { s with now := max s.now t, regs := u.regs, hb := u.hb }) ∧
  (∀ (s : State) (c m : Nat) (on : Bool), s.takesCommands → m < 128 → s.mz.length = 128 →
    (After (.mortiseTxInhibit c m on) s fun u =>
      u.mort m = { s.mort m with txinh := on } ∧ (∀ k < 128, k ≠ m → u.mort k = s.mort k) ∧ u.bit (MZ_CTRL m) 0 = on ∧
      (∀ j < 32, j ≠ 0 → u.bit (MZ_CTRL m) j = s.bit (MZ_CTRL m) j) ∧ sameRegs [MZ_CTRL m] s u ∧ u = { s with regs := u.regs, mz := u.mz, hb := u.hb } ∧ sameBridge s u) ∧
    (After (.mortiseRxInhibit c m on) s fun u =>
      u.mort m = { s.mort m with rxinh := on } ∧ (∀ k < 128, k ≠ m → u.mort k = s.mort k) ∧ u.bit (MZ_CTRL m) 1 = on ∧
      (∀ j < 32, j ≠ 1 → u.bit (MZ_CTRL m) j = s.bit (MZ_CTRL m) j) ∧ sameRegs [MZ_CTRL m] s u ∧ u = { s with regs := u.regs, mz := u.mz, hb := u.hb } ∧ sameBridge s u) ∧
    (∀ v : Nat, After (.hostCopyControl c m v) s fun u =>
      u.rdN (MZ_HCOPY m) = v &&& 0xF7 ∧ sameRegs [MZ_HCOPY m] s u ∧ u = { s with regs := u.regs, hb := u.hb } ∧ sameBridge s u)) ∧
  (∀ (s : State) (t : Nat), s.dieOn = true → s.mayDrive = true → s.tw.driving = false → s.mz.length = 128 → After (.beginDriving t) s fun u =>
    u.tw = { s.tw with driving := true } ∧
    (∀ m < 128, (s.mort m).st = .inService → (s.mort m).tenon ≠ .idle → s.bentUp (m / 16) = true → (u.mort m).pins = .tenon) ∧
    (∀ m < 128, ((s.mort m).st ≠ .inService ∨ (s.mort m).tenon = .idle ∨ s.bentUp (m / 16) = false) → u.mort m = s.mort m) ∧
    u.mode = s.mode ∧ u.now = max s.now t)

/-! ### The vehicle time base (R38 to R46, R249, R551) -/

/-- R40, R41, R42, R43, R44, R249. A valid Sync message of the slave port, whose offset RXLAT corrects, is relayed. Unsynchronised, four in a row under 100 ns but for the part
still being slewed out lock the time base, and a greater one starts the count again; while Locked the servo takes a rate of at most 200 ppm, a free value. In Holdover the
first one is the re-lock (the model's choice, log entry 23): within STEPLIM its offset is slewed out from there, with RELOCK set, and the count of four runs; a greater one
is Lost, with TBLOST set and an F3 of cause 0x32. R45. The first lock in service lengthens the epoch in progress to the first multiple of E at least E after the lock and
sets REALIGN; epoch numbers and everything else of the epoch engine stay. -/
def Obligations.TimeBaseSync : Prop :=
  (∀ (s : State) (t b domain : Nat) (o : Int), s.dieOn = true → domain = s.fld EP_TBCFG 0 8 → s.tb.gm = false → s.slaveBay b = true →
    (s.tb.st = .unsync ∨ (s.tb.st = .holdover ∧ s.tb.relock = true) →
      ((o - (s.tick t).slewLeft).natAbs < 100 → s.tb.good < 3 → After (.gptpSyncReceived t b domain (o + s.fld (EB_PTPLAT b) 0 16)) s fun u =>
        u.tb = { s.tb with lastSync := max s.now t, slvPort := b, out := u.tb.out, good := s.tb.good + 1 } ∧ relayed 0 b domain s u ∧
        u = { s with now := max s.now t, tb := u.tb, hb := u.hb } ∧ sameBridge s u) ∧
      (100 ≤ (o - (s.tick t).slewLeft).natAbs → After (.gptpSyncReceived t b domain (o + s.fld (EB_PTPLAT b) 0 16)) s fun u =>
        u.tb = { s.tb with lastSync := max s.now t, slvPort := b, out := u.tb.out, good := 0 } ∧ relayed 0 b domain s u ∧
        u = { s with now := max s.now t, tb := u.tb, hb := u.hb } ∧ sameBridge s u) ∧
      ((o - (s.tick t).slewLeft).natAbs < 100 → 3 ≤ s.tb.good → s.ep.cur = none ∨ s.tb.firstLock = true →
        After (.gptpSyncReceived t b domain (o + s.fld (EB_PTPLAT b) 0 16)) s fun u =>
          u.tb = { s.tb with lastSync := max s.now t, slvPort := b, out := u.tb.out, good := 0, relock := false, st := .locked, gm := false, firstLock := true } ∧
          relayed 0 b domain s u ∧ u = { s with now := max s.now t, tb := u.tb, hb := u.hb } ∧ sameBridge s u)) ∧
    (s.tb.st = .locked → After (.gptpSyncReceived t b domain (o + s.fld (EB_PTPLAT b) 0 16)) s fun u =>
      u.tb = { s.tb with lastSync := max s.now t, slvPort := b, out := u.tb.out, rate := u.tb.rate } ∧ -200000 ≤ u.tb.rate ∧ u.tb.rate ≤ 200000 ∧
      relayed 0 b domain s u ∧ u = { s with now := max s.now t, free := s.free + 1, tb := u.tb, hb := u.hb } ∧ sameBridge s u) ∧
    (s.tb.st = .holdover → s.tb.relock = false → o.natAbs ≤ max 1 (s.fld EP_HOLD 16 16) * 1000 →
      After (.gptpSyncReceived t b domain (o + s.fld (EB_PTPLAT b) 0 16)) s fun u =>
        u.tb = { s.tb with lastSync := max s.now t, slvPort := b, out := u.tb.out, relock := true, good := 1, slew := o, slewAt := max s.now t } ∧
        relayed 0 b domain s u ∧ u.bit EP_EVENT 2 = true ∧ sameRegs [EP_EVENT] s u ∧ u = { s with now := max s.now t, regs := u.regs, tb := u.tb, hb := u.hb }) ∧
    (s.tb.st = .holdover → s.tb.relock = false → max 1 (s.fld EP_HOLD 16 16) * 1000 < o.natAbs → s.fld FLT_STATUS 0 5 = 0 →
      After (.gptpSyncReceived t b domain (o + s.fld (EB_PTPLAT b) 0 16)) s fun u =>
        u.tb.st = .lost ∧ u.bit EP_EVENT 1 = true ∧ faultNoted 3 0x32 0x20 0xFF s u ∧ u.now = max s.now t)) ∧
  (∀ (s : State) (t b domain e : Nat) (o : Int), s.dieOn = true → domain = s.fld EP_TBCFG 0 8 → s.tb.gm = false → s.slaveBay b = true → s.tb.st = .unsync →
    (o - (s.tick t).slewLeft).natAbs < 100 → 3 ≤ s.tb.good → s.ep.cur = some e → s.tb.firstLock = false →
    After (.gptpSyncReceived t b domain (o + s.fld (EB_PTPLAT b) 0 16)) s fun u =>
      u.ep = { s.ep with stop := u.ep.stop } ∧ u.ep.stop % s.elen = 0 ∧ max s.now t + s.elen ≤ u.ep.stop ∧ u.ep.stop < max s.now t + 2 * s.elen ∧
      u.tb.st = .locked ∧ u.tb.firstLock = true ∧ u.bit EP_EVENT 10 = true ∧ sameRegs [EP_EVENT] s u ∧
      u = { s with now := max s.now t, regs := u.regs, ep := u.ep, tb := u.tb, hb := u.hb })

/-- R41, R44. A Locked unit that is not grandmaster is in Holdover once three sync intervals have passed since the last valid Sync; that sets HOLDOVER and is no fault.
Holdover longer than HOLDLIM is Lost, with TBLOST set and an F3 of cause 0x32. R551. When the announce receipt time has ended, a grandmaster-capable unit that is not Lost
is Locked as grandmaster and announces itself. R551, R40. An Announce message of a clock that wins over the unit's own and over the best known makes it the one followed
for 3 s and is relayed. R249. A peer delay measurement shows the mean link delay that the path latencies leave, and whether the port is asCapable. -/
def Obligations.HoldoverLossAndMasters : Prop :=
  (∀ (s : State) (t : Nat), s.dieOn = true → s.tb.st = .locked → s.tb.gm = false → s.tb.lastSync + 3 * s.syncNs ≤ t → After (.tbHoldover t) s fun u =>
    u.tb = { s.tb with st := .holdover, good := 0, relock := false, holdAt := t } ∧ u.bit EP_EVENT 0 = true ∧ sameRegs [EP_EVENT] s u ∧
    u = { s with now := max s.now t, regs := u.regs, tb := u.tb, hb := u.hb }) ∧
  (∀ (s : State) (t : Nat), s.dieOn = true → s.tb.st = .holdover → s.tb.holdAt + max 10 (s.fld EP_HOLD 0 16) * 1000000 < t → s.fld FLT_STATUS 0 5 = 0 →
    After (.tbLost t) s fun u =>
      u.tb = { s.tb with st := .lost, gm := false, relock := false } ∧ u.bit EP_EVENT 1 = true ∧ faultNoted 3 0x32 0x20 0xFF s u ∧ u.now = max s.now t) ∧
  (∀ (s : State) (t x : Nat), s.dieOn = true → s.tb.annBy = some x → x ≤ t → s.tbRole = 1 → s.tb.gm = false → s.tb.st ≠ .lost →
    s.ep.cur = none ∨ s.tb.firstLock = true → After (.announceTimeout t) s fun u =>
      u.tb = { s.tb with
        best := none, annBy := none, st := .locked, gm := true, firstLock := true, good := 0, relock := false, lastSync := max s.now t, slvPort := 0xFF,
        out := u.tb.out } ∧ relayed 0xB 0xFF (s.fld EP_TBCFG 0 8) s u ∧ u = { s with now := max s.now t, tb := u.tb, hb := u.hb } ∧ sameBridge s u) ∧
  (∀ (s : State) (t b domain : Nat) (vec : List Nat), s.dieOn = true → b < 12 → s.bit (EB_PTPCFG b) 0 = true → domain = s.fld EP_TBCFG 0 8 →
    s.tbRole = 0 ∨ (s.tbRole = 1 ∧ betterClock vec s.ownVec = true) → (∀ x, s.tb.best = some x → x.1 = b ∨ betterClock vec x.2 = true) →
    After (.announceReceived t b domain vec) s fun u =>
      u.tb = { s.tb with
        best := some (b, vec), annBy := some (t + 3000000000), gm := false, slvPort := b,
        lastSync := if s.tb.gm then max s.now t else s.tb.lastSync, out := u.tb.out } ∧
      relayed 0xB b domain s u ∧ u = { s with now := max s.now t, tb := u.tb, hb := u.hb } ∧ sameBridge s u) ∧
  (∀ (s : State) (t b delay d : Nat), s.dieOn = true → s.ptpRole b ≠ 3 → d = delay - (s.fld (EB_PTPLAT b) 0 16 + s.fld (EB_PTPLAT b) 16 16) / 2 →
    After (.pdelayExchange t b delay) s fun u =>
      u.rdN (EB_PTPDLY b) = d % 2 ^ 32 ∧ u.bit (EB_STATUS b) 19 = decide (d ≤ s.fld (EB_PTPCFG b) 16 16) ∧
      u.tb.asCapable.contains b = decide (d ≤ s.fld (EB_PTPCFG b) 16 16) ∧
      u.tb.annBy = (if d ≤ s.fld (EB_PTPCFG b) 16 16 ∧ s.tb.annBy = none ∧ s.tb.best = none ∧ s.tb.gm = false then some (t + 3000000000) else s.tb.annBy) ∧
      u.tb = { s.tb with asCapable := u.tb.asCapable, annBy := u.tb.annBy, out := s.tb.out ++ [(0x2, b, 0)] } ∧
      sameRegs [EB_PTPDLY b, EB_STATUS b] s u ∧ u = { s with now := max s.now t, regs := u.regs, tb := u.tb, hb := u.hb })

/-! ### Epochs and the ledger (R47 to R77) -/

/-- R42, R48, R29. At its end the epoch being stamped is followed by the next, which begins there and lasts E, and the slew up to then is taken off the re-lock offset;
nothing else changes on a unit that is no grandmaster while no change of mode and no end of a sleep wait for the boundary. R51, R58, R558. A source's oldest waiting input is handed over while the ledger of its epoch is open; one that comes after is dropped with
EP_EVENT bit 11 and an F0 notice of cause 0x0B. Alone, a ledger closes 1.5 µs after the end of its epoch. -/
def Obligations.EpochsAndClosing : Prop :=
  (∀ (s : State) (t n : Nat), s.dieOn = true → s.ep.cur = some n → s.ep.stop ≤ t → s.tb.gm = false → s.tw.demote = false → s.tw.takeAt = none → s.wk.pinsAt = none →
    After (.epochBoundary t) s fun u =>
      u.ep = { s.ep with cur := some (n + 1), start := s.ep.stop, stop := s.ep.stop + s.elen, starts := u.ep.starts } ∧ u.ep.starts.getLast? = some (n + 1, s.ep.stop) ∧
      u.tb = { s.tb with slew := (s.tick t).slewLeft, slewAt := u.tb.slewAt } ∧ u = { s with now := max s.now t, tb := u.tb, ep := u.ep, hb := u.hb } ∧ sameBridge s u) ∧
  (∀ (s : State) (t cls port : Nat) (i : Input), s.ep.handing.find? (fun x => x.cls == cls && x.port == port) = some i →
    (s.ledgerShut i.stamp = false → After (.inputHandover t cls port) s fun u =>
      u.ep = { s.ep with handing := s.ep.handing.erase i, inputs := s.ep.inputs ++ [i] } ∧ u = { s with now := max s.now t, ep := u.ep, hb := u.hb } ∧ sameBridge s u) ∧
    (s.ledgerShut i.stamp = true → s.fld FLT_STATUS 0 5 = 0 → After (.inputHandover t cls port) s fun u =>
      u.ep = { s.ep with handing := s.ep.handing.erase i } ∧ u.bit EP_EVENT 11 = true ∧ faultNoted 0 0x0B 0x20 0xFF s u ∧ sameRegs (EP_EVENT :: faultRegs 0) s u ∧
      u = { s with now := max s.now t, regs := u.regs, ep := u.ep, hb := u.hb })) ∧
  (∀ (s : State) (t n c : Nat), s.serving = true → s.paired = false → s.ep.cur = some c → n < c → (∀ k, s.ep.closed = some k → k < n) → s.epochEnd n + 1500 ≤ t →
    After (.ledgerClose t n) s fun u =>
      u.ep = { s.ep with closed := some n } ∧ u = { s with now := max s.now t, ep := u.ep, hb := u.hb } ∧ sameBridge s u)

/-- R60 to R67. In paired modes the records of an epoch are sealed 1.5 µs after its end; the peer's arrive once per epoch. In the matching of an epoch an own input and
a peer's record of it are paired and enter the earlier of their two epochs, and an own input without a record goes to the peer as a fill. A fill is taken and
acknowledged by the deadline; an acknowledged one leaves the fills outstanding; at the deadline an own one-sided input without acknowledgement is left out. -/
def Obligations.PairedExchange : Prop :=
  (∀ (s : State) (t n c : Nat), s.serving = true → s.paired = true → s.ep.cur = some c → n < c → (∀ k, s.ep.sealed = some k → k < n) → s.epochEnd n + 1500 ≤ t →
    After (.recordsSealSend t n) s fun u =>
      u.ep.sealed = some n ∧ (s.exchanging n = true → n ∈ u.ep.sent) ∧ (s.exchanging n = false → u.ep.sent = s.ep.sent) ∧
      u.ep = { s.ep with sealed := u.ep.sealed, sent := u.ep.sent } ∧ u = { s with now := max s.now t, ep := u.ep, hb := u.hb } ∧ sameBridge s u) ∧
  (∀ (s : State) (t n : Nat) (recs : List PeerRec), s.paired = true → s.ep.peerGot.contains n = false → After (.peerRecordsReceived t n recs) s fun u =>
    u.ep.peer = s.ep.peer ++ recs.map (fun r => { r with stamp := n, matched := false, inEp := n }) ∧ n ∈ u.ep.peerGot ∧
    u.ep = { s.ep with peer := u.ep.peer, peerGot := u.ep.peerGot } ∧ u = { s with now := max s.now t, ep := u.ep, hb := u.hb } ∧ sameBridge s u) ∧
  (∀ (s : State) (t n c : Nat) (i : Input), s.serving = true → s.paired = true → s.ep.sent.contains n = true → s.ep.decided.contains n = false → s.ep.cur = some c → n + 1 < c →
    s.epochEnd n + s.elen + 2000 + s.elen / 16 ≤ t → s.tw.joinAt = none → 1 ≤ n → (∀ k ∈ [n - 1, n, n + 1], s.ep.peerGot.contains k = true) →
    s.ep.inputs = [i] → i.matched = false → i.stamp = n → (i.cls = 1 ∨ i.cls = 2) →
    (∀ r : PeerRec, s.ep.peer = [r] → r.matched = false → (r.stamp = n ∨ r.stamp = n + 1) → sameInput (inRec i) r = true → After (.matchingDecided t n) s fun u =>
      u.ep.inputs = [{ i with matched := true, inEp := n, mate := r.pos }] ∧ u.ep.peer = [{ r with matched := true, inEp := n, mate := i.pos }] ∧
      u.ep.fillsOut = s.ep.fillsOut ∧ n ∈ u.ep.decided ∧ u.rdN (EP_CNT 3) = s.rdN (EP_CNT 3) ∧ u.mode = s.mode) ∧
    (s.ep.peer = [] → After (.matchingDecided t n) s fun u =>
      u.ep.inputs = [i] ∧ u.ep.fillsOut = s.ep.fillsOut ++ [i] ∧ n ∈ u.ep.decided ∧ u.rdN (EP_CNT 3) = (s.rdN (EP_CNT 3) + 1) % 2 ^ 32 ∧ u.mode = s.mode)) ∧
  (∀ (s : State) (t : Nat) (i : Input), s.paired = true → s.ep.fillsIn = [] → s.ep.sent.contains i.inEp = true → s.ep.deadline.contains i.inEp = false →
    t ≤ s.epochEnd i.inEp + 5 * s.elen / 2 → After (.fillReceived t i) s fun u =>
      u.ep = { s.ep with fillsIn := [{ i with acked := true }] } ∧ u.rdN (EP_CNT 4) = (s.rdN (EP_CNT 4) + 1) % 2 ^ 32 ∧ sameRegs [EP_CNT 4] s u ∧
      u = { s with now := max s.now t, regs := u.regs, ep := u.ep, hb := u.hb } ∧ sameBridge s u) ∧
  (∀ (s : State) (t : Nat) (f : Input), s.ep.fillsOut = [f] → s.ep.inputs = [f] → t ≤ s.epochEnd f.stamp + 5 * s.elen / 2 →
    After (.fillAckReceived t f.cls f.port f.pos) s fun u =>
      u.ep = { s.ep with fillsOut := [], inputs := [{ f with acked := true }] } ∧ u = { s with now := max s.now t, ep := u.ep, hb := u.hb } ∧ sameBridge s u) ∧
  (∀ (s : State) (t n : Nat), s.paired = true → s.ep.decided.contains n = true → s.ep.deadline.contains n = false → s.epochEnd n + 5 * s.elen / 2 ≤ t →
    After (.fillDeadline t n) s fun u =>
      n ∈ u.ep.deadline ∧ u.ep.fillsOut = s.ep.fillsOut.filter (fun i => i.stamp != n) ∧
      u.ep.inputs = s.ep.inputs.filter (fun i => i.inEp != n || i.matched || i.acked) ∧
      u.ep = { s.ep with deadline := u.ep.deadline, fillsOut := u.ep.fillsOut, inputs := u.ep.inputs } ∧ u = { s with now := max s.now t, ep := u.ep, hb := u.hb } ∧ sameBridge s u)

/-- R22, R68, R74, R76, R77. The ledger of the next epoch is released at its time with its digest, and its processing runs; when the processing completes the epoch is
done, no covered update is held any more, and the epoch being stamped, the ledger released last and its digest stay. A processing not complete at the end of the epoch
in which it runs sets EP_EVENT bit 8, ends the guarantee from its epoch and is an F3 of cause 0x33, which asks for Hold at the next epoch. R69, R554. At 4 × E equal digests
and outcome records leave the machine as it is but for what is kept of compared epochs; differing digests are flagged by EP_EVENT bit 4, an F0 notice of cause 0x06 and
EP_CNT6, and a Shadow leaves step; a Shadow that was not armed for a swap command when its peer was raises an F2 of cause 0x24 and leaves step. -/
def Obligations.ReleaseCompletionDigests : Prop :=
  (∀ (s : State) (t n : Nat) (ecc : List (Nat × Bool)), s.serving = true → s.replaying n = false → s.ep.running = none → (s.ep.rel = none → n = 0) →
    (∀ r, s.ep.rel = some r → n = r + 1) → s.epochEnd (n + s.ep.lag) ≤ t → s.ledgerReady n = true → (∀ c, s.wk.cEp = some c → n ≤ c) →
    After (.ledgerRelease t n ecc) s fun u =>
      u.ep.rel = some n ∧ u.ep.running = some n ∧ u.ep.digest = ledgerDigest (s.ledgerOf n) ∧ u.ep.cur = s.ep.cur ∧ u.ep.done = s.ep.done ∧ u.now = max s.now t) ∧
  (∀ (s : State) (t n : Nat), s.ep.running = some n → After (.epochProcessingComplete t n) s fun u =>
    u.ep.done = some n ∧ u.ep.running = none ∧ u.held = [] ∧ u.ep.cur = s.ep.cur ∧ u.ep.rel = s.ep.rel ∧ u.ep.digest = s.ep.digest ∧ u.hb.rxDue = [] ∧ u.now = max s.now t) ∧
  (∀ (s : State) (t n : Nat), s.ep.running = some n → s.mode = .solo → s.epochEnd s.ep.runIn ≤ t → s.fld FLT_STATUS 0 5 = 0 → s.fr.swapAt = none →
    After (.epochOverrun t) s fun u =>
      u.bit EP_EVENT 8 = true ∧ faultNoted 3 0x33 0x20 0xFF s u ∧ u.flt.holdAt = some ((s.tick t).stampEp + 1) ∧ u.ep.guar = false ∧ (s.ep.guar = true → u.ep.lossEp = n) ∧ u.mode = .solo ∧
      sameRegs (EP_EVENT :: faultRegs 3) s u ∧ u = { s with now := max s.now t, regs := u.regs, ep := { s.ep with guar := false, lossEp := u.ep.lossEp }, flt := u.flt, hb := u.hb }) ∧
  (∀ (s : State) (t n own : Nat), s.paired = true → s.ep.sent.contains n = true → s.epochEnd n + 4 * s.elen ≤ t → assoc s.ep.digests n = some own →
    (s.tw.joinAt = none → After (.ledgerCompare t n (some own) (some ((s.ep.outcomes.find? (fun o => o.epoch == n)).getD { epoch := n }))) s fun u =>
      u.ep = (s.pruneEpochs n).ep ∧ u = { s with now := max s.now t, ep := u.ep, hb := u.hb } ∧ sameBridge s u) ∧
    (∀ d : Nat, d ≠ own → s.mode = .shadow → s.fld FLT_STATUS 0 5 = 0 →
      After (.ledgerCompare t n (some d) (some ((s.ep.outcomes.find? (fun o => o.epoch == n)).getD { epoch := n }))) s fun u =>
        u.bit EP_EVENT 4 = true ∧ faultNoted 0 0x06 0x20 0xFF s u ∧ u.rdN (EP_CNT 6) = (s.rdN (EP_CNT 6) + 1) % 2 ^ 32 ∧ u.tw.inStep = false ∧ u.mode = .shadow ∧
        sameRegs (EP_EVENT :: EP_CNT 6 :: faultRegs 0) s u) ∧
    (∀ a b : CmdOutcome, s.tw.joinAt = none → s.ep.outcomes = [{ epoch := n, cmds := [a] }] → a.swap = true → a.armed = false → b.armed = true → s.mode = .shadow →
      s.fld FLT_STATUS 0 5 = 0 → After (.ledgerCompare t n (some own) (some { epoch := n, cmds := [b] })) s fun u =>
        faultNoted 2 0x24 0x21 0xFF s u ∧ u.tw.inStep = false ∧ u.mode = .shadow ∧ sameRegs (faultRegs 2) s u))

/-! ### The twin (R430 to R462) -/

/-- R432, R433, R439. Pairing records are exchanged, 10 ms apart: a failed check shows its reason, sets TW_EVENT bit 7 and leaves the unit unmatched in Raise; with every check
passed the unit is matched, and one that the peer's service or its identity makes the Shadow enters it when its image is ready. A peer not reached in time puts the
unit in Hold; a lease override in Raise without a peer takes a lease that does not expire. -/
def Obligations.Pairing : Prop :=
  (∀ (s : State) (t : Nat) (r : PairRec), s.mode = .raise → s.dieOn = true → s.pairedFrame = true → s.tb.st = .locked →
    (∀ a, s.tw.pairAt = some a → s.tw.raiseAt ≤ a → a + 10000000 ≤ t) → After (.pairingExchange t r) s fun u =>
    u.tw.preason = s.pairCheck r ∧ u.tw.matched = decide (s.pairCheck r = 0) ∧ u.tw.reached = true ∧ u.tw.pgen = r.gen ∧ u.tw.gen = s.tw.gen ∧ u.now = max s.now t ∧
    (s.pairCheck r ≠ 0 → u.mode = .raise ∧ u.bit TW_EVENT 7 = true ∧ (s.pairCheck r = 4 → u.bit KS_STATUS 10 = true ∧ u.bit KS_EVENT 11 = true) ∧
      sameRegs [TW_EVENT, KS_STATUS, KS_EVENT] s u) ∧
    (s.pairCheck r = 0 → u.mode = (if (r.inService ∨ s.pid = 1) ∧ s.imageReady = true ∧ s.tw.lease = false then .shadow else .raise)) ∧
    (u.mode = .shadow → u.ep = {} ∧ u.tw.inStep = s.tw.inStep)) ∧
  (∀ (s : State) (t : Nat), s.mode = .raise → s.dieOn = true → s.pairedFrame = true → s.tw.reached = false → s.tw.lease = false →
    s.tw.raiseAt + oct s.twinCfg 1 * 10000000 ≤ t → s.mayBegin t = true → After (.pairwaitExpiry t) s fun u =>
      u.mode = .hold ∧ u.ep.cur = some 0 ∧ u.ep.start = t ∧ u.ep.lag = 1 ∧ u.tw.preason = 5 ∧ u.tw.stale = true ∧ u.tw.coldHold = true ∧ u.tw.egressOff = true ∧
      u.tw.lease = false ∧ u.now = max s.now t) ∧
  (∀ (s : State) (t key : Nat) (ms : Master) (w : World), s.secureHost ms w → key % 256 = 0xA5 → s.mode = .raise → s.pairedFrame = true → s.tw.reached = false → s.tw.lease = false →
    After (.leaseOverride t ms w key) s fun u =>
      u.tw.lease = true ∧ u.tw.nopeer = true ∧ u.tw.gen = newGen s.tw.gen s.tw.pgen s.pid ∧ u.tw.fenced = false ∧ u.tw.fenceAt = none ∧ u.sill = { s.sill with egressClk := true } ∧
      sameRegs [TW_CTRL] s u ∧ u = { s with now := max s.now t, regs := u.regs, tw := u.tw, sill := u.sill, hb := u.hb })

/-- R435. A new pair generation is above both that it replaces, unless they stand at the end of the 32 bits, and its bit 0 is the pair identity. R440. A hand-over
command processed in epoch c on the Lead with a Shadow in step, or on that Shadow, takes effect at c + 16. There the Lead becomes Shadow in step without the lease and
lets go of the pins of every mortise with no transmission in progress, and the Shadow becomes Lead with the lease and a new generation and drives. -/
def Obligations.HandOver : Prop :=
  (∀ own peer pid : Nat, own + 2 < 2 ^ 32 → peer + 2 < 2 ^ 32 → pid < 2 →
    own < newGen own peer pid ∧ peer < newGen own peer pid ∧ newGen own peer pid % 2 = pid ∧ newGen own peer pid ≤ max own peer + 2) ∧
  (∀ (s : State) (c : Nat), s.takesCommands → ((s.mode = .lead ∧ s.tw.peerInStep = true ∧ s.tw.lease = true) ∨ (s.mode = .shadow ∧ s.tw.inStep = true)) →
    After (.handoverCommand c) s fun u => u.tw = { s.tw with handAt := some (c + 16) } ∧ u = { s with tw := u.tw, hb := u.hb } ∧ sameBridge s u) ∧
  (∀ (s : State) (n c : Nat), s.tw.handAt = some n → s.ep.cur = some c → n ≤ c →
    (s.mode = .lead → After (.handoverEffect n) s fun u =>
      u.mode = .shadow ∧ u.tw.lease = false ∧ u.tw.driving = false ∧ u.tw.inStep = true ∧ u.tw.handAt = none ∧ u.tw.gen = s.tw.gen ∧ u.bit TW_EVENT 11 = true ∧
      u.rdN (TW_CNT 5) = (s.rdN (TW_CNT 5) + 1) % 2 ^ 32 ∧ (∀ m < 128, s.txBusy m = false → (u.mort m).pins ≠ .tenon) ∧
      (∀ m < 128, s.txBusy m = true → u.mort m = s.mort m) ∧
      sameRegs [TW_EVENT, TW_CNT 5] s u ∧ u = { s with mode := .shadow, regs := u.regs, mz := u.mz, tw := u.tw, hb := u.hb }) ∧
    (s.mode = .shadow → s.tw.inStep = true → s.dieOn = true → s.tw.driving = false → After (.handoverEffect n) s fun u =>
      u.mode = .lead ∧ u.tw.lease = true ∧ u.tw.driving = true ∧ u.tw.inStep = false ∧ u.tw.peerInStep = true ∧ u.tw.handAt = none ∧
      u.tw.gen = newGen s.tw.gen s.tw.pgen s.pid ∧ u.tw.expiry = s.ep.start + 200000 ∧ u.bit TW_EVENT 11 = true ∧ u.sill.egressClk = true ∧ u.ep.cur = s.ep.cur))

/-- R436, R437, R438, R441. At a heartbeat instant the unit sends its heartbeat, which renews the lease only on a Lead that renews. A heartbeat of no higher generation
shows the peer; a renewal moves the Shadow's view of the expiry on, an acknowledgement moves the Lead's and arms the fence timer. One of a higher generation makes a
Lead stale: it has no lease and sends no egress at once, and is Shadow from the next epoch boundary. -/
def Obligations.Heartbeats : Prop :=
  (∀ (s : State) (t : Nat), s.dieOn = true → s.pairedFrame = true → t % 25000 = 0 → After (.heartbeatSend t) s fun u =>
    (∃ h : Heartbeat, u.tw.hbOut = some h ∧ h.pid = s.pid ∧ h.role = s.roleCode ∧ h.renew = s.renews ∧ h.fenced = s.tw.fenced ∧ h.gen = s.tw.gen ∧ h.txt = t ∧
      h.ackv = s.tw.ackDue.isSome ∧ h.rxt = s.tw.hbGot ∧ ∀ e, (s.tick t).epochNow = some e → h.epoch = e % 2 ^ 48) ∧
    (s.renews = true → u.tw.renew = t ∧ u.tw.nopeer = false) ∧ (s.renews = false → u.tw = { s.tw with hbOut := u.tw.hbOut }) ∧
    u = { s with now := max s.now t, tw := u.tw, hb := u.hb } ∧ sameBridge s u) ∧
  (∀ (s : State) (t : Nat) (h : Heartbeat), s.dieOn = true → s.pairedFrame = true → s.tw.hbOut = none →
    (h.gen ≤ s.tw.gen → h.renew = false → h.ackv = false → After (.heartbeatReceived t h) s fun u =>
      u.tw = { s.tw with
        reached := true, pgen := h.gen, peerRole := h.role, hbGot := t, hbSeen := some (h.txt, t),
        hbRun := if s.tw.hbSeen.any (fun x => x.1 + 25000 == h.txt) then s.tw.hbRun + 1 else 1
        peerIn := (h.role == 1 || h.role == 2), peerInStep := (s.tw.peerInStep && h.role == 1) } ∧ u = { s with now := max s.now t, tw := u.tw, hb := u.hb } ∧ sameBridge s u) ∧
    (h.gen ≤ s.tw.gen → h.renew = true → h.ackv = false → s.mode = .shadow → s.tw.unagreed = [] → After (.heartbeatReceived t h) s fun u =>
      u.tw.expiry = max s.tw.expiry (h.txt + 200000) ∧ u.tw.ackDue = some h.txt ∧ u.mode = .shadow ∧ u = { s with now := max s.now t, tw := u.tw, hb := u.hb } ∧ sameBridge s u) ∧
    (h.gen ≤ s.tw.gen → h.renew = false → h.ackv = true → s.mode = .lead → s.tw.lease = true → s.tw.nopeer = false → h.ack ≤ s.tw.renew →
      After (.heartbeatReceived t h) s fun u =>
        u.tw.expiry = max s.tw.expiry (h.ack + 200000) ∧ u.tw.fenceAt = some u.tw.expiry ∧ u.mode = .lead ∧ u = { s with now := max s.now t, tw := u.tw, hb := u.hb } ∧ sameBridge s u) ∧
    (s.tw.gen < h.gen → h.renew = false → h.ackv = false → s.mode = .lead → s.tw.lease = true → s.tw.found = false → After (.heartbeatReceived t h) s fun u =>
      u.mode = .lead ∧ u.tw.demote = true ∧ u.tw.stale = true ∧ u.tw.lease = false ∧ u.tw.driving = false ∧ u.tw.egressOff = true ∧ u.tw.inStep = false ∧
      u.tw.gen = s.tw.gen ∧ u.bit TW_EVENT 6 = true ∧ u.rdN (TW_CNT 4) = (s.rdN (TW_CNT 4) + 1) % 2 ^ 32 ∧ (∀ m < 128, (u.mort m).pins ≠ .tenon) ∧
      sameRegs (TW_EVENT :: TW_CNT 4 :: tecRegs) s u) ∧
    (∀ n : Nat, s.ep.cur = some n → s.ep.stop ≤ t → s.tw.demote = true → s.flt.holdAt = none → s.tw.takeAt = none → After (.epochBoundary t) s fun u =>
      u.mode = .shadow ∧ u.tw.demote = false ∧ u.ep.cur = some (n + 1)))

/-- R442, R443, R444. At a heartbeat instant with TELLEN a tell word with odd parity goes out; a valid word of the peer that renews moves the Shadow's view of the
expiry on and is acknowledged with its number. Two consecutive heartbeats missing (the model's reading of the instant: log entry 29) take a path down with an F0 notice
of cause 0x0A; four consecutive valid ones bring it up. -/
def Obligations.TellPairAndPaths : Prop :=
  (∀ (s : State) (t : Nat), s.dieOn = true → s.pairedFrame = true → s.tellEn = true → t % 25000 = 0 → After (.tellWordSend t) s fun u =>
    (∃ w : TellWord, u.tw.tellOut = some w ∧ w.sync = 0x0D ∧ w.pid = s.pid ∧ w.renew = s.renews ∧ w.ack = s.tw.tellAck.isSome ∧ w.seq = s.tw.tellAck.getD (t / 25000 % 256) ∧
      w.genl = s.tw.gen % 256 ∧ w.par = tellPar w) ∧ u.tw.tellAck = none ∧ u = { s with now := max s.now t, tw := u.tw, hb := u.hb } ∧ sameBridge s u) ∧
  (∀ (s : State) (t : Nat) (w : TellWord), s.dieOn = true → s.pairedFrame = true → s.tellEn = true → w.state = 0 → w.sync = 0x0D → w.par = tellPar w → w.pid % 2 ≠ s.pid →
    w.renew = true → w.ack = false → s.mode = .shadow → s.tw.unagreed = [] → After (.tellWordReceived t w) s fun u =>
      u.tw = { s.tw with
        tellSt := 0, expiry := max s.tw.expiry (seqInstant t w.seq + 200000), tellAck := some (w.seq % 256), tellGot := t
        tellRun := if t / 25000 = s.tw.tellGot / 25000 + 1 then s.tw.tellRun + 1 else 1 } ∧
      u = { s with now := max s.now t, tw := u.tw, hb := u.hb } ∧ sameBridge s u) ∧
  (∀ (s : State) (t : Nat) (tell : Bool), s.dieOn = true → (if tell then s.tw.tellUp else s.tw.scfUp) = true → s.pathQuiet t tell = true → s.fld FLT_STATUS 0 5 = 0 →
    After (.pathDown t tell) s fun u =>
      (if tell then u.tw.tellUp else u.tw.scfUp) = false ∧ (if tell then u.tw.scfUp else u.tw.tellUp) = (if tell then s.tw.scfUp else s.tw.tellUp) ∧
      u.bit TW_EVENT (if tell then 1 else 0) = true ∧ u.rdN (TW_CNT (if tell then 1 else 0)) = (s.rdN (TW_CNT (if tell then 1 else 0)) + 1) % 2 ^ 32 ∧
      faultNoted 0 0x0A 0x21 0xFF s u ∧ sameRegs (TW_EVENT :: TW_CNT (if tell then 1 else 0) :: faultRegs 0) s u ∧
      u = { s with now := max s.now t, regs := u.regs, tw := u.tw, hb := u.hb }) ∧
  (∀ (s : State) (t : Nat) (tell : Bool), s.dieOn = true → s.pairedFrame = true → (if tell then s.tw.tellUp else s.tw.scfUp) = false → (tell = true → s.tellEn = true) →
    4 ≤ (if tell then s.tw.tellRun else s.tw.hbRun) →
    After (.pathUp t tell) s fun u =>
      (if tell then u.tw.tellUp else u.tw.scfUp) = true ∧ (if tell then u.tw.scfUp else u.tw.tellUp) = (if tell then s.tw.scfUp else s.tw.tellUp) ∧
      u.bit TW_EVENT 2 = true ∧ sameRegs [TW_EVENT] s u ∧ u = { s with now := max s.now t, regs := u.regs, tw := u.tw, hb := u.hb })

/-- R84, R29, R445 to R447. Four measurements above E/16 degrade the pair. A Lead whose lease expires keeps it without a peer when both paths are down and the tell input is
static, and otherwise fences itself: it gives the lease up and stops egress at once, and is to be Shadow from the next epoch boundary. 25 µs after its view of the expiry, with both paths down, a Shadow in step takes the lease and leads from the next epoch boundary
on. The fence timer forces the pins of CAN and LIN tenons to idle whether or not the frame die runs. -/
def Obligations.LeaseTakeoverAndFence : Prop :=
  (∀ (s : State) (t : Nat), s.paired = true → 4 ≤ s.tw.high → s.bit EP_STATUS 5 = false → After (.pairDegrade t) s fun u =>
    u.bit EP_STATUS 5 = true ∧ u.bit EP_EVENT 3 = true ∧ u.rdN (EP_CNT 7) = (s.rdN (EP_CNT 7) + 1) % 2 ^ 32 ∧ u.tw.peerInStep = false ∧ u.tw.catchUp = 0 ∧
    (s.mode = .shadow → u.tw.inStep = false ∧ u.tw.egressOff = true) ∧ (s.mode = .lead → u.tw.lease = s.tw.lease ∧ u.ep = s.ep) ∧ u.mode = s.mode ∧ u.now = max s.now t) ∧
  (∀ (s : State) (t : Nat), s.tw.lease = true → s.tw.nopeer = false → s.tw.expiry ≤ t → s.mode = .lead →
    (s.tellEn = true → s.tw.scfUp = false → s.tw.tellUp = false → s.tw.tellSt = 1 → After (.leaseExpiry t) s fun u =>
      u.tw = { s.tw with nopeer := true, fenceAt := none, peerIn := false } ∧ u = { s with now := max s.now t, tw := u.tw, hb := u.hb } ∧ sameBridge s u) ∧
    ((s.tellEn = false ∨ s.tw.scfUp = true ∨ s.tw.tellUp = true ∨ s.tw.tellSt ≠ 1) → After (.leaseExpiry t) s fun u =>
      u.mode = .lead ∧ u.tw.demote = true ∧ u.tw.lease = false ∧ u.tw.driving = false ∧ u.tw.inStep = false ∧ u.tw.egressOff = true ∧ u.bit TW_EVENT 4 = true ∧
      u.rdN (TW_CNT 3) = (s.rdN (TW_CNT 3) + 1) % 2 ^ 32 ∧ (∀ m < 128, (u.mort m).pins ≠ .tenon) ∧ sameRegs (TW_EVENT :: TW_CNT 3 :: tecRegs) s u ∧
      u = { s with now := max s.now t, regs := u.regs, mz := u.mz, tw := u.tw, hb := u.hb })) ∧
  (∀ (s : State) (t : Nat), s.mode = .shadow → s.tw.lease = false → s.tw.scfUp = false → s.tw.tellUp = false → s.tw.expiry ≠ 0 → s.tw.expiry + 25000 ≤ t → s.tw.inStep = true →
    After (.takeover t) s fun u =>
      u.mode = .shadow ∧ u.tw.lease = true ∧ u.tw.nopeer = true ∧ u.tw.gen = newGen s.tw.gen s.tw.pgen s.pid ∧ u.tw.takeAt = some t ∧ u.tw.fenced = false ∧
      u.bit TW_EVENT 3 = true ∧ u.rdN (TW_CNT 2) = (s.rdN (TW_CNT 2) + 1) % 2 ^ 32 ∧ sameRegs [TW_EVENT, TW_CNT 2] s u ∧
      u = { s with now := max s.now t, regs := u.regs, tw := u.tw, sill := { s.sill with egressClk := true }, hb := u.hb }) ∧
  (∀ (s : State) (t n : Nat), s.dieOn = true → s.ep.cur = some n → s.ep.stop ≤ t → s.tw.takeAt ≠ none → s.mode = .shadow → s.tw.lease = true → s.wk.pinsAt = none →
    After (.epochBoundary t) s fun u => u.mode = .lead ∧ u.tw.lease = true ∧ u.tw.takeAt = none ∧ u.tw.driving = true ∧ u.ep.cur = some (n + 1)) ∧
  (∀ (s : State) (t e : Nat), s.tw.fenceAt = some e → e ≤ t → After (.fenceTimerFire t) s fun u =>
    u.tw = { s.tw with fenced := true, fenceAt := none } ∧ u.sill = { s.sill with egressClk := false } ∧
    (∀ m < 128, ((s.mort m).tenon = .can ∨ (s.mort m).tenon = .lin) → (u.mort m).pins ≠ .tenon) ∧
    (∀ m < 128, (s.mort m).tenon ≠ .can → (s.mort m).tenon ≠ .lin → u.mort m = s.mort m) ∧ sameRegs [TW_EVENT, TW_CNT 3] s u ∧
    (s.dieOn = true → u.bit TW_EVENT 5 = true) ∧ u = { s with now := max s.now t, regs := u.regs, mz := u.mz, tw := u.tw, sill := u.sill, hb := u.hb })

/-- R456 to R461. A Lead admits a peer out of step into catch-up, a Shadow out of step begins one; a committed region shows in TW_RSDONE and the next follows, the last
opening the replay, while the Shadow keeps its own pins, its page locks and its isolated bents; the join epoch is the Lead's stamped epoch plus 8; an abandoned catch-up
ends with TW_EVENT bit 9. Recovery state of a handle that has passed a frame resets when the RSTEP epochs of an entry in force with RECEN have passed without a
passed frame, and not before (R456). What the Lead transfers is free in the model (log entry 11). -/
def Obligations.Resync : Prop :=
  (∀ (s : State) (t : Nat), s.tw.catchUp = 0 →
    (s.mode = .lead → s.tw.lease = true → s.tw.peerIn = true → s.tw.peerInStep = false → s.bit TW_CTRL 2 = false → s.bit FR_STATUS 5 = false → s.fld KS_UPST 0 3 ∉ [3, 4] →
      After (.resyncStart t) s fun u =>
      u.tw = { s.tw with catchUp := 1, region := 1, rsAt := t, ackAt := t, joinAt := none, admitted := true } ∧ u.rdN TW_RSDONE = 0 ∧ sameRegs [TW_RSDONE] s u ∧
      u = { s with now := max s.now t, regs := u.regs, tw := u.tw, hb := u.hb } ∧ sameBridge s u) ∧
    (s.mode = .shadow → s.tw.inStep = false → s.bit EP_STATUS 5 = false → After (.resyncStart t) s fun u =>
      u.tw = { s.tw with catchUp := 1, region := 1, rsAt := t, ackAt := t, joinAt := none } ∧ u.rdN TW_RSDONE = 0 ∧ sameRegs [TW_RSDONE] s u ∧
      u = { s with now := max s.now t, regs := u.regs, tw := u.tw, hb := u.hb } ∧ sameBridge s u)) ∧
  (∀ (s : State) (t r : Nat), s.mode = .lead → s.tw.catchUp = 1 → s.tw.region = r → 1 ≤ r → r ≤ 7 → After (.resyncRegionCommit t r) s fun u =>
    u.bit TW_RSDONE (r - 1) = true ∧ u.tw.catchUp = (if r = 7 then 2 else 1) ∧ u.tw.region = (if r = 7 then 0 else r + 1) ∧ u.tw.rsMark = s.ep.done.getD 0 % 2 ^ 48 ∧
    sameRegs [TW_RSDONE] s u ∧ u = { s with now := max s.now t, regs := u.regs, tw := u.tw, hb := u.hb } ∧ sameBridge s u) ∧
  (∀ (s : State) (t r : Nat), s.mode = .shadow → s.tw.catchUp = 1 → s.tw.region = r → 1 ≤ r → r ≤ 7 → After (.resyncRegionCommit t r) s fun u =>
    u.bit TW_RSDONE (r - 1) = true ∧ u.tw.catchUp = (if r = 7 then 2 else 1) ∧ u.tw.region = (if r = 7 then 0 else r + 1) ∧ u.free = s.free + 1 ∧ u.mode = .shadow ∧
    u.now = max s.now t ∧ (∀ m < 128, (u.mort m).pins = (s.mort m).pins) ∧ (∀ b < 12, u.bit (EB_MACCFG b) 31 = s.bit (EB_MACCFG b) 31) ∧
    (∀ i < 13, s.bent i = .isolated → u.bent i = .isolated)) ∧
  (∀ (s : State) (t j : Nat), s.mode = .lead → s.tw.catchUp = 2 → 8 ≤ j → s.ep.cur = some (j - 8) → After (.resyncJoin t j) s fun u =>
    u.tw = { s.tw with joinAt := some j, ackAt := t } ∧ u = { s with now := max s.now t, tw := u.tw, hb := u.hb } ∧ sameBridge s u) ∧
  (∀ (s : State) (t j : Nat), s.mode = .shadow → s.tw.catchUp = 2 → 8 ≤ j → s.ep.cur ≠ some (j - 8) → After (.resyncJoin t j) s fun u =>
    u.tw = { s.tw with joinAt := some j, ackAt := t } ∧ u.ep.cur = some (j - 8) ∧ u.ep.lag = 3 ∧ u.ep.start = t - t % s.elen ∧ u.ep.stop = u.ep.start + s.elen ∧
    u.fld EP_CTRL 2 2 = 3 ∧ sameRegs [EP_CTRL] s u ∧ u = { s with now := max s.now t, regs := u.regs, ep := u.ep, tw := u.tw, hb := u.hb } ∧ sameBridge s u) ∧
  (∀ (s : State) (t : Nat), s.tw.catchUp ≠ 0 → After (.resyncAbandon t) s fun u =>
    u.tw = { s.tw with catchUp := 0, region := 0, joinAt := none, admitted := false } ∧ u.bit TW_EVENT 9 = true ∧ u.rdN (TW_CNT 6) = (s.rdN (TW_CNT 6) + 1) % 2 ^ 32 ∧
    sameRegs [TW_EVENT, TW_CNT 6] s u ∧ u = { s with now := max s.now t, regs := u.regs, tw := u.tw, hb := u.hb }) ∧
  (∀ (s : State) (n h : Nat), s.ep.running = some n → h < 4096 → Memory.wf s.mem = true →
    (s.memN (cbAddr h + 0x14) 4 ≠ 0 → s.cbOut h = true → After (.cbRecoveryReset n h) s fun u =>
      u.memN (cbAddr h + 2) 2 = 0 ∧ u.memN (cbAddr h + 4) 16 = 0 ∧ sameMem (cbAddr h + 2) 18 s u ∧ u = { s with mem := u.mem, hb := u.hb } ∧ sameBridge s u) ∧
    (s.cbOut h = false → After (.cbRecoveryReset n h) s fun u => u = { s with hb := u.hb } ∧ sameBridge s u))

/-! ### The fault manager (R463 to R471, R501, R536) -/

/-- R30, R34, R49, R467. An F3 puts a unit in service in Hold once its epoch has begun, with the inputs stamped before it dropped and counted in FLT_HDROP; a unit that
did not lead stops driving. In Raise the unit enters Hold with epoch 0. R463, R464, R466. FLT_ACK by a host in the secure world clears the interrupt bits of the
classes it names and ends the handlers of F0, F1 and F2 among them, not those of F3 and F4; SFCLR clears the second-fault record and its count; an F2 handler ends
F2HOLD ms after its fault. -/
def Obligations.HoldAndHandlers : Prop :=
  (∀ (s : State) (t n c : Nat), s.mode = .solo → s.flt.holdAt = some n → s.ep.cur = some c → n ≤ c → s.tw.coldHold = false → After (.holdEntry t) s fun u =>
    u.mode = .hold ∧ u.flt.holdAt = none ∧ u.ep.cur = some c ∧ u.ep.inputs = s.ep.inputs.filter (fun i => decide (c ≤ i.stamp)) ∧
    u.ep.handing = s.ep.handing.filter (fun i => decide (c ≤ i.stamp)) ∧
    u.rdN FLT_HDROP = (s.rdN FLT_HDROP + ((s.ep.inputs ++ s.ep.handing).filter (fun i => decide (i.stamp < c))).length) % 2 ^ 32 ∧
    u.tw.driving = false ∧ u.tw.holdDrive = false ∧ (∀ m < 128, (u.mort m).pins ≠ .tenon) ∧ u.now = max s.now t) ∧
  (∀ (s : State) (t n : Nat), s.mode = .raise → s.flt.holdAt = some n → s.mayBegin t = true → After (.holdEntry t) s fun u =>
    u.mode = .hold ∧ u.flt.holdAt = none ∧ u.ep.cur = some 0 ∧ u.ep.start = t ∧ u.ep.lag = 1 ∧ u.fr.hand = none ∧ u.now = max s.now t) ∧
  (∀ (s : State) (ms : Master) (w : World) (ack : Nat), s.secureHost ms w → After (.faultAck ms w ack) s fun u =>
    (∀ k < 5, u.bit FLT_STATUS (6 + k) = (s.bit FLT_STATUS (6 + k) && !ack.testBit k)) ∧ (∀ k < 3, u.bit FLT_STATUS k = (s.bit FLT_STATUS k && !ack.testBit k)) ∧
    u.bit FLT_STATUS 3 = s.bit FLT_STATUS 3 ∧ u.bit FLT_STATUS 4 = s.bit FLT_STATUS 4 ∧ u.bit FLT_STATUS 5 = s.bit FLT_STATUS 5 ∧
    u.fld FLT_STATUS 16 16 = s.fld FLT_STATUS 16 16 ∧ sameRegs [FLT_STATUS] s u ∧
    u.flt = { s.flt with f2Iso := if ack.testBit 2 then [] else s.flt.f2Iso } ∧ u = { s with regs := u.regs, flt := u.flt, hb := u.hb }) ∧
  (∀ (s : State) (ms : Master) (w : World), s.secureHost ms w → After (.secondFaultClear ms w) s fun u =>
    u.rdN FLT_SF_W0 = 0 ∧ u.rdN FLT_SF_W1 = 0 ∧ u.rdN FLT_SF_W2 = 0 ∧ u.rdN FLT_SF_W3 = 0 ∧ u.fld FLT_STATUS 16 16 = 0 ∧ u.fld FLT_STATUS 0 16 = s.fld FLT_STATUS 0 16 ∧
    sameRegs [FLT_STATUS, FLT_SF_W0, FLT_SF_W1, FLT_SF_W2, FLT_SF_W3] s u ∧ u = { s with regs := u.regs, hb := u.hb }) ∧
  (∀ (s : State) (t : Nat), s.bit FLT_STATUS 2 = true → s.flt.f2At + s.flt.f2hold * 1000000 ≤ t → After (.f2HandlerTimeout t) s fun u =>
    u.bit FLT_STATUS 2 = false ∧ (∀ k < 32, k ≠ 2 → u.bit FLT_STATUS k = s.bit FLT_STATUS k) ∧ sameRegs [FLT_STATUS] s u ∧
    u = { s with now := max s.now t, regs := u.regs, flt := { s.flt with f2Iso := [] }, hb := u.hb })

/-- R36, R463 to R465, R469, R471, R536. An uncorrectable memory error is an F2 of its bent with cause 0x20, or an F3 with cause 0x31 outside any bent; a correctable
one is an F1 with cause 0x10; a fault of the epoch engine is an F4 with cause 0x40 and the loss of the reference clock one with cause 0x42. While a handler of its
class or above is active a fault goes to the second-fault record and is counted, and the first-fault record stays. -/
def Obligations.FaultsAreRecorded : Prop :=
  (∀ (s : State) (t bent i : Nat), s.dieOn = true → s.fld FLT_STATUS 0 5 = 0 → bentIdx bent = some i → s.fr.bents.length = 13 →
    (After (.memoryErrorDetected t bent true) s fun u => faultNoted 2 0x20 bent 0xFF s u ∧ u.bent i = .isolated ∧ (∀ k < 13, k ≠ i → u.bent k = s.bent k) ∧ u.now = max s.now t) ∧
    (s.flt.f1rate = 0 → After (.memoryErrorDetected t bent false) s fun u =>
      faultNoted 1 0x10 bent 0xFF s u ∧ sameRegs (faultRegs 1) s u ∧ u = { s with now := max s.now t, regs := u.regs, hb := u.hb })) ∧
  (∀ (s : State) (t bent : Nat), s.dieOn = true → s.mode = .solo → s.fld FLT_STATUS 0 5 = 0 → bentIdx bent = none → s.fr.swapAt = none → s.ep.guar = false →
    After (.memoryErrorDetected t bent true) s fun u =>
      faultNoted 3 0x31 0xFF 0xFF s u ∧ u.flt = { s.flt with holdAt := some ((s.tick t).stampEp + 1) } ∧ sameRegs (faultRegs 3) s u ∧
      u = { s with now := max s.now t, regs := u.regs, flt := u.flt, hb := u.hb }) ∧
  (∀ (s : State) (t : Nat), s.dieOn = true → s.fld FLT_STATUS 0 5 = 0 → s.fr.swapAt = none → s.ep.guar = false →
    (After (.epochEngineFault t) s fun u => faultNoted 4 0x40 0x20 0xFF s u ∧ u.flt = { s.flt with f4 := true } ∧ sameRegs (faultRegs 4) s u ∧
      u = { s with now := max s.now t, regs := u.regs, flt := u.flt, hb := u.hb }) ∧
    (After (.refclkFailure t) s fun u => faultNoted 4 0x42 0xFF 0xFF s u ∧ u.flt = { s.flt with f4 := true } ∧ sameRegs (faultRegs 4) s u ∧
      u = { s with now := max s.now t, regs := u.regs, flt := u.flt, hb := u.hb })) ∧
  (∀ (s : State) (t bent i : Nat), s.dieOn = true → s.bit FLT_STATUS 2 = true → bentIdx bent = some i → s.flt.f1rate = 0 → s.bit FLT_SF_W0 24 = false →
    s.fld FLT_STATUS 16 16 < 0xFFFF → After (.memoryErrorDetected t bent false) s fun u =>
      u.rdN FLT_SF_W0 = 0x10 + bent * 2 ^ 8 + 0xFF * 2 ^ 16 + 2 ^ 24 + 2 ^ 25 ∧ u.fld FLT_STATUS 16 16 = s.fld FLT_STATUS 16 16 + 1 ∧ u.rd (FLT_FF_W0 1) = s.rd (FLT_FF_W0 1) ∧
      u.rdN (FLT_CNT 1) = (s.rdN (FLT_CNT 1) + 1) % 2 ^ 32 ∧ sameRegs [FLT_STATUS, FLT_CNT 1, FLT_SF_W0, FLT_SF_W1, FLT_SF_W2, FLT_SF_W3] s u ∧
      u = { s with now := max s.now t, regs := u.regs, hb := u.hb })

/-! ### The CAN tenon (R150 to R204) -/

/-- R154, R163, R164, R169, R170, R182. A valid frame received by a CAN tenon in service, of a format it has and not within a wait for 11 recessive bits, is counted, ends such
a wait and is stamped as a frame input of its port with the record of R163; on a unit that does not drive, one equal to a held frame is the twin's transmission and is not
stamped; the lowest priority cell it matches captures it. A frame of a format the tenon lacks is no input: with PEXC the tenon waits for 11 recessive bits and flags it,
without it counts a form error. Within such a wait nothing is received. -/
def Obligations.CanReception : Prop :=
  ∀ (s : State) (t m sof : Nat) (r : Octets), m < 128 → s.mz.length = 128 → (s.mort m).tenon = .can → (s.mort m).st = .inService → s.ep.cur.isSome = true →
    (s.canWaits m sof = true ∨ recFmt r = 3 → After (.canFrameReceived t m ⟨sof, r⟩) s fun u =>
      u = { s with now := max s.now t, hb := u.hb } ∧ sameBridge s u) ∧
    ((s.drives m = true → (s.mort m).can.opmode = 1 ∨
        (s.fld (CN_ERRC m) 0 9 < 96 ∧ s.fld (CN_ERRC m) 16 8 = 0 ∧ s.fld (CN_STATUS m) 8 2 = 0 ∧ s.bit (CN_STATUS m) 10 = false)) →
      s.canWaits m sof = false → recFmt r ≠ 3 →
      ((recFmt r = 1 → s.bit (CN_CFG m) 0 = true) → (recFmt r = 2 → s.bit (CN_CFG m) 1 = true) → (s.mort m).can.lone = false → s.isReference m (canDecode r) = false →
        (s.canEcho m (canDecode r) = false → (∀ k < 4, s.cellHit m k (canDecode r) = false) → After (.canFrameReceived t m ⟨sof, r⟩) s fun u =>
          stampedOne s u 2 m .frame (canDecode r) ∧ u.rdN (MZ_CNT m 1) = (s.rdN (MZ_CNT m 1) + 1) % 2 ^ 32 ∧ u.bit (CN_STATUS m) 11 = true ∧
          u.mort m = { s.mort m with can := { (s.mort m).can with waitTil := none } } ∧ sameMorts m s u ∧
          sameRegs [MZ_CNT m 1, CN_LONE m, CN_STATUS m, CN_ERRC m] s u ∧
          u = { s with now := max s.now t, regs := u.regs, ep := u.ep, mz := u.mz, hb := u.hb } ∧ sameBridge s u) ∧
        (s.canEcho m (canDecode r) = true → After (.canFrameReceived t m ⟨sof, r⟩) s fun u =>
          u.ep = s.ep ∧ u.rdN (MZ_CNT m 1) = (s.rdN (MZ_CNT m 1) + 1) % 2 ^ 32 ∧ (u.mort m).can.cells = (s.mort m).can.cells ∧
          sameRegs [MZ_CNT m 1, CN_LONE m, CN_STATUS m, CN_ERRC m] s u) ∧
        (∀ k < 4, s.canEcho m (canDecode r) = false → s.cellHit m k (canDecode r) = true → (∀ j < k, s.cellHit m j (canDecode r) = false) → s.bit (CN_PCSTAT m) k = false →
          (s.mort m).can.cells.length = 4 → After (.canFrameReceived t m ⟨sof, r⟩) s fun u =>
            stampedOne s u 2 m .frame (canDecode r) ∧ (u.mort m).can.cells = (s.mort m).can.cells.set k (canDecode r, u.now % 2 ^ 32) ∧ u.bit (CN_PCSTAT m) k = true ∧
            u.bit (MZ_EVENT m) (16 + k) = true ∧ sameRegs [MZ_CNT m 1, CN_LONE m, CN_STATUS m, CN_ERRC m, CN_PCSTAT m, MZ_EVENT m] s u)) ∧
      ((recFmt r = 1 ∧ s.bit (CN_CFG m) 0 = false) ∨ (recFmt r = 2 ∧ s.bit (CN_CFG m) 1 = false) →
        (s.bit (CN_CFG m) 3 = true → After (.canFrameReceived t m ⟨sof, r⟩) s fun u =>
          u.ep = s.ep ∧ (u.mort m).can.waitTil = some (t + cdiv (11 * s.tnPs m) 1000) ∧ u.bit (CN_STATUS m) 11 = false ∧ u.bit (MZ_EVENT m) 29 = true ∧
          sameMorts m s u ∧ sameRegs [MZ_EVENT m, CN_STATUS m] s u ∧ u = { s with now := max s.now t, regs := u.regs, mz := u.mz, hb := u.hb }) ∧
        (s.bit (CN_CFG m) 3 = false → After (.canFrameReceived t m ⟨sof, r⟩) s fun u =>
          u.ep = s.ep ∧ u.rdN (MZ_CNT m 2) = (s.rdN (MZ_CNT m 2) + 1) % 2 ^ 32 ∧ sameMorts m s u ∧ sameRegs [MZ_CNT m 2, CN_STATUS m, CN_ERRC m] s u ∧
          u = { s with now := max s.now t, regs := u.regs, mz := u.mz, hb := u.hb })))

/-- R151, R158, R159, R165, R177, R179, R184. At a start of arbitration, no wait for 11 recessive bits being left, a driving tenon that no schedule matrix governs starts the
frame that wins among those it may offer, with the length field that codes it; within such a wait it starts none. When the frame ends it is marked as sent, counted and
confirmed by event 0x01 of its object, and the delay measured in it is shown; an attempt that failed under ONESHOT is spent and reported by event 0x02, and without it the
frame stays to be tried again. -/
def Obligations.CanTransmission : Prop :=
  ∀ (s : State) (t m k : Nat), s.canDriving m →
    (s.canWaits m t = false → (s.mort m).can.wire = none → s.fld (CN_STATUS m) 8 2 ≠ 2 → s.bit (CN_CFG m) 6 = false →
      s.winner m (s.offerable m fun j => !(s.bit (CN_OBJ m j) 31)) = some k → After (.canArbitrationStart t m) s fun u =>
        (u.mort m).can = { (s.mort m).can with
          waitTil := none, wire := some k, wireRec := s.objRec m k, wireLen := lenField (s.objRec m k), tried := (u.mort m).can.tried, missed := (u.mort m).can.missed } ∧
        u.mort m = { s.mort m with can := (u.mort m).can } ∧ sameMorts m s u ∧ u.bit (CN_STATUS m) 11 = true ∧
        sameRegs [CN_STATUS m, CN_TTSTAT m] s u ∧ u = { s with now := max s.now t, regs := u.regs, mz := u.mz, hb := u.hb } ∧ sameBridge s u) ∧
    (s.canWaits m t = true → After (.canArbitrationStart t m) s fun u => u = { s with now := max s.now t, hb := u.hb } ∧ sameBridge s u) ∧
    (∀ tdcv : Nat, k < 32 → (s.mort m).can.wire = some k → (s.mort m).can.objs.length = 32 → s.fld (CN_STATUS m) 8 2 = 0 → s.bit (CN_STATUS m) 10 = false →
      s.fld (CN_ERRC m) 0 9 < 96 → s.fld (CN_ERRC m) 16 8 < 96 → (s.mort m).can.lone = false →
      (recFmt (s.mort m).can.wireRec = 0 → After (.canTransmitEnd t m tdcv) s fun u =>
        (u.mort m).can.wire = none ∧ (u.canObj m k) = { s.canObj m k with sent := true } ∧ (∀ j < 32, j ≠ k → u.canObj m j = s.canObj m j) ∧ sameMorts m s u ∧
        u.bit (CN_TXWIRE m) k = true ∧ u.rdN (CN_CNT m 2) = (s.rdN (CN_CNT m 2) + 1) % 2 ^ 32 ∧ u.fld (CN_ERRC m) 0 9 = s.fld (CN_ERRC m) 0 9 - 1 ∧
        (∃ o : Octets, stampedOne s u 2 m .event o ∧ o.take 2 = [1, BitVec.ofNat 8 k] ∧ leAt o 4 4 = recIdw (s.mort m).can.wireRec) ∧
        sameRegs [CN_TXWIRE m, CN_CNT m 2, CN_ERRC m, CN_STATUS m, CN_LONE m] s u) ∧
      (recFmt (s.mort m).can.wireRec = 1 → (oct (s.mort m).can.wireRec 4).testBit 2 = true → s.bit (CN_TDC_D m) 7 = true → s.fld (CN_TDC_D m) 8 7 ≤ tdcv → tdcv < 128 →
        After (.canTransmitEnd t m tdcv) s fun u =>
          u.fld (CN_TDC_D m) 16 7 = tdcv ∧ u.bit (CN_TDC_D m) 23 = decide (127 < tdcv + s.fld (CN_TDC_D m) 0 7) ∧
          (127 < tdcv + s.fld (CN_TDC_D m) 0 7 → u.bit (MZ_EVENT m) 28 = true) ∧ (u.mort m).can.wire = none ∧ u.canObj m k = { s.canObj m k with sent := true } ∧
          sameRegs [CN_TDC_D m, MZ_EVENT m, CN_TXWIRE m, CN_CNT m 2, CN_ERRC m, CN_STATUS m, CN_LONE m] s u)) ∧
    (∀ (lost : Bool) (tdcv : Option Nat), k < 32 → (s.mort m).can.wire = some k → (s.mort m).can.objs.length = 32 → recFmt (s.mort m).can.wireRec = 0 →
      (s.bit (CN_CFG m) 4 = true → After (.canTransmitFailed t m ⟨lost, tdcv⟩) s fun u =>
        (u.mort m).can.wire = none ∧ u.canObj m k = { s.canObj m k with spent := true } ∧ (∀ j < 32, j ≠ k → u.canObj m j = s.canObj m j) ∧ sameMorts m s u ∧
        (∃ o : Octets, stampedOne s u 2 m .event o ∧ o.take 2 = [2, BitVec.ofNat 8 k] ∧ oct o 3 = (if lost then 1 else 2)) ∧
        u.rdN (CN_CNT m 3) = (s.rdN (CN_CNT m 3) + (if lost then 1 else 0)) % 2 ^ 32 ∧ sameRegs [CN_CNT m 3] s u) ∧
      (s.bit (CN_CFG m) 4 = false → (s.canObj m k).abort = false → After (.canTransmitFailed t m ⟨lost, tdcv⟩) s fun u =>
        u.mort m = { s.mort m with can := { (s.mort m).can with wire := none } } ∧ sameMorts m s u ∧ sameRegs [CN_CNT m 3] s u ∧
        u = { s with now := max s.now t, regs := u.regs, mz := u.mz, hb := u.hb }))

/-- R180, R183, R185, R186, R187. A transmitter's error adds 8 to TEC; one that takes TEC past 255 is bus-off: the frame leaves the wire and is not tried again, the change is
reported by event 0x04, and recovery runs where BOAUTO asks for it. A recovery that has run its time is error-active with cleared counters; BORECOV starts one; OPMODE
waits for the end of the processing; an abort withdraws a frame not on the wire and reports it as 0x03, and marks one on the wire. -/
def Obligations.CanErrorsAndCommands : Prop :=
  (∀ (s : State) (t m : Nat) (tdcv : Option Nat), s.canDriving m → s.bit (CN_STATUS m) 10 = decide (96 ≤ s.fld (CN_ERRC m) 0 9) → s.fld (CN_ERRC m) 16 8 < 96 →
    recFmt (s.mort m).can.wireRec = 0 →
    (s.fld (CN_STATUS m) 8 2 = 0 → s.fld (CN_ERRC m) 0 9 + 8 < 96 → After (.canBusError t m .transmit ⟨false, tdcv⟩) s fun u =>
      u.fld (CN_ERRC m) 0 9 = s.fld (CN_ERRC m) 0 9 + 8 ∧ u.fld (CN_ERRC m) 16 8 = s.fld (CN_ERRC m) 16 8 ∧ u.fld (CN_STATUS m) 8 2 = 0 ∧ u.mz = s.mz ∧ u.ep = s.ep ∧
      sameRegs [CN_ERRC m, CN_STATUS m] s u ∧ u = { s with now := max s.now t, regs := u.regs, hb := u.hb }) ∧
    (∀ k < 32, s.fld (CN_STATUS m) 8 2 = 1 → 248 ≤ s.fld (CN_ERRC m) 0 9 → s.bit (CN_CFG m) 4 = false → (s.mort m).can.wire = some k → (s.mort m).can.objs.length = 32 →
      (s.canObj m k).abort = false → After (.canBusError t m .transmit ⟨false, tdcv⟩) s fun u =>
        u.fld (CN_STATUS m) 8 2 = 2 ∧ (u.mort m).can.wire = none ∧ (u.mort m).can.recov = s.bit (CN_CFG m) 5 ∧ sameMorts m s u ∧
        u.canObj m k = { s.canObj m k with spent := true } ∧ (∀ j < 32, j ≠ k → u.canObj m j = s.canObj m j) ∧
        (∃ o : Octets, stampedOne s u 2 m .event o ∧ o.take 2 = [4, 0xFF]) ∧ sameRegs [CN_ERRC m, CN_STATUS m] s u)) ∧
  (∀ (s : State) (t m : Nat), s.canDriving m → s.fld (CN_STATUS m) 8 2 = 2 → (s.mort m).can.recov = true → After (.busOffRecovered t m) s fun u =>
    (u.mort m).can.recov = false ∧ u.fld (CN_STATUS m) 8 2 = 0 ∧ u.bit (CN_STATUS m) 10 = false ∧ u.fld (CN_ERRC m) 0 9 = 0 ∧ u.fld (CN_ERRC m) 16 8 = 0 ∧
    (∃ o : Octets, stampedOne s u 2 m .event o ∧ o.take 2 = [4, 0xFF]) ∧ sameMorts m s u ∧ sameRegs [CN_ERRC m, CN_STATUS m] s u) ∧
  (∀ (s : State) (c m : Nat), s.canDriving m → s.takesCommands → (s.mort m).window = none →
    (s.fld (CN_STATUS m) 8 2 = 2 → After (.busOffRecoveryRequest c m) s fun u =>
      u.mort m = { s.mort m with can := { (s.mort m).can with recov := true } } ∧ sameMorts m s u ∧ u = { s with mz := u.mz, hb := u.hb } ∧ sameBridge s u) ∧
    (∀ mode < 3, After (.canOpmodeWrite c m mode) s fun u =>
      u.mort m = { s.mort m with can := { (s.mort m).can with pendOp := some mode } } ∧ sameMorts m s u ∧ u.fld (CN_CTRL m) 0 2 = mode ∧ sameRegs [CN_CTRL m] s u ∧
      u = { s with regs := u.regs, mz := u.mz, hb := u.hb } ∧ sameBridge s u) ∧
    (∀ t k : Nat, k < 32 → (s.mort m).can.objs.length = 32 → (s.canObj m k).active.isSome = true → (s.canObj m k).nxt = none → (s.canObj m k).sent = false → (s.canObj m k).spent = false →
      ((s.mort m).can.wire ≠ some k → After (.canTxAbort t m (2 ^ k)) s fun u =>
        u.canObj m k = { s.canObj m k with spent := true } ∧ (∀ j < 32, j ≠ k → u.canObj m j = s.canObj m j) ∧ sameMorts m s u ∧
        (∃ o : Octets, stampedOne s u 2 m .event o ∧ o.take 2 = [3, BitVec.ofNat 8 k]) ∧ u = { s with now := max s.now t, ep := u.ep, mz := u.mz, hb := u.hb }) ∧
      ((s.mort m).can.wire = some k → After (.canTxAbort t m (2 ^ k)) s fun u =>
        u.canObj m k = { s.canObj m k with abort := true } ∧ (∀ j < 32, j ≠ k → u.canObj m j = s.canObj m j) ∧ sameMorts m s u ∧
        u = { s with now := max s.now t, mz := u.mz, hb := u.hb })))

/-- R194 to R198. In local and reference-master mode a basic cycle starts at each multiple of BCLEN with the row that the time gives, and in reference-follower mode at the
start of frame of a reference message, with the row it carries. In a reference window the reference master starts its reference message. In an exclusive window the named
object's frame starts when its worst-case time fits what is left, and otherwise its miss is reported as event 0x08, as it is when the window ends with the frame not
started; with ONESHOT the frame then counts as attempted (the model's choice, log entry 35). A follower without a reference message for twice BCLEN shows REFLOST. -/
def Obligations.CanScheduleMatrix : Prop :=
  (∀ (s : State) (t m : Nat), m < 128 → s.mz.length = 128 → (s.mort m).tenon = .can → (s.mort m).st = .inService → (s.fld (CN_TTCFG m) 0 2 = 1 ∨ s.fld (CN_TTCFG m) 0 2 = 2) →
    s.fld (CN_TTBC m) 0 16 ≠ 0 → t % (1000 * s.fld (CN_TTBC m) 0 16) = 0 → (s.mort m).can.newMx = none → After (.basicCycleStart t m) s fun u =>
      u.fld (CN_TTSTAT m) 0 6 = t / (1000 * s.fld (CN_TTBC m) 0 16) % (s.fld (CN_TTCFG m) 2 6 + 1) ∧ u.fld (CN_TTSTAT m) 8 4 = 0 ∧ u.bit (CN_TTSTAT m) 13 = true ∧
      u.mort m = { s.mort m with can := { (s.mort m).can with cycleAt := some t, tried := false, missed := false } } ∧ sameMorts m s u ∧
      sameRegs [CN_TTSTAT m] s u ∧ u = { s with now := max s.now t, regs := u.regs, mz := u.mz, hb := u.hb } ∧ sameBridge s u) ∧
  (∀ (s : State) (t m sof : Nat) (r : Octets), m < 128 → s.mz.length = 128 → (s.mort m).tenon = .can → (s.mort m).st = .inService → s.drives m = false → s.ep.cur.isSome = true →
    s.canWaits m sof = false → recFmt r = 0 → s.isReference m (canDecode r) = true → s.canEcho m (canDecode r) = false → (s.mort m).can.newMx = none →
    After (.canFrameReceived t m ⟨sof, r⟩) s fun u =>
      (u.mort m).can.cycleAt = some sof ∧ (u.mort m).can.lastRef = max s.now t ∧ u.fld (CN_TTSTAT m) 0 6 = bitsN (oct (canDecode r) 16) 0 6 ∧
      u.fld (CN_TTSTAT m) 8 4 = 0 ∧ u.bit (CN_TTSTAT m) 12 = false ∧ u.bit (CN_TTSTAT m) 13 = true ∧ stampedOne s u 2 m .frame (canDecode r) ∧ sameMorts m s u ∧
      sameRegs [MZ_CNT m 1, CN_LONE m, CN_STATUS m, CN_ERRC m, CN_PCSTAT m, MZ_EVENT m, CN_TTSTAT m] s u) ∧
  (∀ (s : State) (t m c0 k : Nat), s.canDriving m → s.fld (CN_STATUS m) 8 2 ≠ 2 → (s.mort m).can.cycleAt = some c0 → s.bit (CN_CFG m) 6 = true →
    (s.mort m).can.tried = false →
    (s.canWaits m t = false → (s.mort m).can.wire = none → s.colAt m ((t - c0) / 1000) = s.fld (CN_TTSTAT m) 8 4 → (s.window m).2 = 3 → s.bit (CN_TTSTAT m) 13 = true →
      s.fld (CN_TTCFG m) 0 2 = 2 → After (.canArbitrationStart t m) s fun u =>
        u.mort m = { s.mort m with can := { (s.mort m).can with
          waitTil := none, wire := some 32, wireRec := s.refRec m, wireLen := lenField (s.refRec m), tried := true } } ∧ sameMorts m s u ∧
        sameRegs [CN_STATUS m] s u ∧ u = { s with now := max s.now t, regs := u.regs, mz := u.mz, hb := u.hb } ∧ sameBridge s u) ∧
    (s.window m = (k, 1) → s.bit (CN_TTSTAT m) 12 = false → s.bit (CN_OBJ m k) 31 = true → s.offerable m (fun j => j == k) = [k] →
      (s.canWaits m (max s.now t) = false → (s.mort m).can.wire = none → s.colAt m ((t - c0) / 1000) = s.fld (CN_TTSTAT m) 8 4 →
        (s.twNs m (s.objRec m k) ≤ c0 + s.colEnd m (s.fld (CN_TTSTAT m) 8 4) - t → After (.exclusiveWindowOpen t m false) s fun u =>
          u.mort m = { s.mort m with can := { (s.mort m).can with
            wire := some k, wireRec := s.objRec m k, wireLen := lenField (s.objRec m k), tried := true } } ∧
          sameMorts m s u ∧ u = { s with now := max s.now t, mz := u.mz, hb := u.hb } ∧ sameBridge s u) ∧
        (c0 + s.colEnd m (s.fld (CN_TTSTAT m) 8 4) - t < s.twNs m (s.objRec m k) → (s.mort m).can.missed = false → After (.exclusiveWindowOpen t m false) s fun u =>
          u.mort m = { s.mort m with can := { (s.mort m).can with missed := true } } ∧ (∃ o : Octets, stampedOne s u 2 m .event o ∧ o.take 2 = [8, BitVec.ofNat 8 k]) ∧
          sameMorts m s u ∧ u = { s with now := max s.now t, ep := u.ep, mz := u.mz, hb := u.hb })) ∧
      (c0 < t → s.colAt m ((t - 1 - c0) / 1000) = s.fld (CN_TTSTAT m) 8 4 → t = c0 + s.colEnd m (s.fld (CN_TTSTAT m) 8 4) →
        ((s.mort m).can.missed = false → s.bit (CN_CFG m) 4 = false → After (.windowEnd t m) s fun u =>
          u.mort m = { s.mort m with can := { (s.mort m).can with missed := true } } ∧ (∃ o : Octets, stampedOne s u 2 m .event o ∧ o.take 2 = [8, BitVec.ofNat 8 k]) ∧
          sameMorts m s u ∧ u = { s with now := max s.now t, ep := u.ep, mz := u.mz, hb := u.hb }) ∧
        ((s.mort m).can.missed = true → s.bit (CN_CFG m) 4 = true → (s.mort m).can.objs.length = 32 → After (.windowEnd t m) s fun u =>
          u.canObj m k = { s.canObj m k with spent := true } ∧ (∃ o : Octets, stampedOne s u 2 m .event o ∧ o.take 2 = [2, BitVec.ofNat 8 k] ∧ oct o 3 = 4) ∧
          sameMorts m s u ∧ u = { s with now := max s.now t, ep := u.ep, mz := u.mz, hb := u.hb })))) ∧
  (∀ (s : State) (t m : Nat), m < 128 → (s.mort m).tenon = .can → (s.mort m).st = .inService → s.fld (CN_TTCFG m) 0 2 = 3 →
    (s.mort m).can.lastRef + 2000 * s.fld (CN_TTBC m) 0 16 ≤ t → After (.referenceLost t m) s fun u =>
      u.bit (CN_TTSTAT m) 12 = true ∧ u.bit (CN_TTSTAT m) 13 = s.bit (CN_TTSTAT m) 13 ∧ u.bit (MZ_EVENT m) 30 = true ∧ sameRegs [CN_TTSTAT m, MZ_EVENT m] s u ∧
      u = { s with now := max s.now t, regs := u.regs, hb := u.hb })

/-! ### The LIN tenon (R205 to R222) -/

/-- R208, R209, R211, R214, R216, R218. A commander's slot begins where the one before ends, the first with entry 0 of its table: an unconditional one has its header sent and its
length from the entry. A responder takes a header whose break has 11 bits or more, of its bit time and with right parity, and decides the response of a published FID; it
counts one whose bit time is off by more than 15 %. A whole frame of its FID's length with right parity and checksum is counted, and stamped unless the tenon publishes it. -/
def Obligations.LinSlotsAndFrames : Prop :=
  (∀ (s : State) (t m e f rtab slot : Nat), s.linDriving m → s.bit (LN_CFG m) 0 = true → (s.mort m).lin.slotEnd = some e → e ≤ t → (s.mort m).lin.ctl = [] →
    (s.mort m).lin.coll = false → (s.mort m).lin.sleepSlot = false → (s.mort m).lin.sleepReq = false → (s.mort m).lin.resolve = none → (s.mort m).lin.slot.2 = 64 →
    (s.mort m).lin.run = true → (s.mort m).lin.rest = false → s.bit (LN_STATUS m) 3 = false → s.linEntry m (s.mort m).lin.table 0 = (f, 1, rtab, slot) → s.linPub m f = false →
    After (.linSlotStart t m) s fun u =>
      u.mort m = { s.mort m with lin := { (s.mort m).lin with
        slot := ((s.mort m).lin.table, 0), resume := none, sending := none, slotEnd := some (e + slot * 100000), hdr := some (s.linHdrOf m f e), act := max s.now t } } ∧
      sameMorts m s u ∧ u.fld (LN_STATUS m) 8 6 = 0 ∧ sameRegs [LN_STATUS m] s u ∧
      u = { s with now := max s.now t, regs := u.regs, mz := u.mz, hb := u.hb } ∧ sameBridge s u) ∧
  (∀ (s : State) (t m start brk f : Nat) (dev : Int), s.linDriving m → s.bit (LN_CFG m) 0 = false →
    (brk < 11 → After (.linHeaderReceived t m ⟨start, brk, linPid f⟩ dev) s fun u => u = { s with now := max s.now t, hb := u.hb } ∧ sameBridge s u) ∧
    (11 ≤ brk → (150 < dev ∨ dev < -150) → After (.linHeaderReceived t m ⟨start, brk, linPid f⟩ dev) s fun u =>
      u.rdN (LN_CNT m 7) = (s.rdN (LN_CNT m 7) + 1) % 2 ^ 32 ∧ u.bit (MZ_EVENT m) 22 = true ∧ sameRegs [LN_CNT m 7, MZ_EVENT m] s u ∧
      u.mort m = { s.mort m with lin := { (s.mort m).lin with act := max s.now t } } ∧ sameMorts m s u ∧
      u = { s with now := max s.now t, regs := u.regs, mz := u.mz, hb := u.hb }) ∧
    (11 ≤ brk → -150 ≤ dev → dev ≤ 150 → f < 64 → s.linPub m f = true →
      (∀ e, linChoose (s.linBuf m f) (s.tick t).stampEp = some e → After (.linHeaderReceived t m ⟨start, brk, linPid f⟩ dev) s fun u =>
        u.mort m = { s.mort m with lin := { (s.mort m).lin with
          bufs := updAt (s.mort m).lin.bufs f (fun b => { b with sent := some e }), hdr := some { fid := f, pid := linPid f, start := start, brk := brk }
          sending := some (f, s.linResponse m f e.octets, t + s.linBitNs m * (1000 + dev).toNat / 1000), act := max s.now t } } ∧ sameMorts m s u ∧
        u = { s with now := max s.now t, mz := u.mz, hb := u.hb } ∧ sameBridge s u) ∧
      (linChoose (s.linBuf m f) (s.tick t).stampEp = none → After (.linHeaderReceived t m ⟨start, brk, linPid f⟩ dev) s fun u =>
        (u.mort m).lin.sending = none ∧ u.rdN (LN_CNT m 5) = (s.rdN (LN_CNT m 5) + 1) % 2 ^ 32 ∧ u.bit (MZ_EVENT m) 21 = true ∧ sameMorts m s u ∧
        sameRegs [LN_CNT m 5, MZ_EVENT m] s u))) ∧
  (∀ (s : State) (t m f : Nat) (r : Octets), s.linDriving m → f < 64 → oct r 0 = linPid f → oct r 2 = s.linLen m f → (slice r 4 (oct r 2)).length = oct r 2 →
    oct r 3 = linChecksum (s.linEnh m f) (linPid f) (slice r 4 (oct r 2)) → (f ≠ 0x3C ∨ oct (slice r 4 (oct r 2)) 0 ≠ 0) →
    (s.linPub m f = false → After (.linFrameReceived t m r) s fun u =>
      stampedOne s u 2 m .frame (s.linRecord m r) ∧ u.rdN (MZ_CNT m 1) = (s.rdN (MZ_CNT m 1) + 1) % 2 ^ 32 ∧
      u.mort m = { s.mort m with lin := { (s.mort m).lin with hdr := none, act := max s.now t } } ∧ sameMorts m s u ∧ sameRegs [MZ_CNT m 1] s u ∧
      u = { s with now := max s.now t, regs := u.regs, ep := u.ep, mz := u.mz, hb := u.hb } ∧ sameBridge s u) ∧
    (s.linPub m f = true → After (.linFrameReceived t m r) s fun u =>
      u.ep = s.ep ∧ u.rdN (MZ_CNT m 1) = (s.rdN (MZ_CNT m 1) + 1) % 2 ^ 32 ∧ sameMorts m s u ∧ sameRegs [MZ_CNT m 1] s u))

/-- R209, R219, R221, R222. A response in error is counted and reported as event 0x02, REASON 0x1 and 0x2 only once TFrame_Max has passed; a checksum or framing error of an
event-triggered slot is a collision, reported as 0x03 at the end of the slot with the resolving table to run next; a completed own response is event 0x01, a failed one 0x06,
a bus idle for LN_TIMEO.IDLE 0x04 and a wake pulse in bus sleep 0x05, each with its REASON and FID. R220, R222. Processed writes of TABLE, RUN and SLEEP wait for the first
slot boundary at or after the start of epoch c + L + 2, and TABLE and RUN show in LN_CTRL; a processed WAKEREQ sends a wake pulse of WKLEN × 10 µs and ends bus sleep. -/
def Obligations.LinEventsAndCommands : Prop :=
  (∀ (s : State) (t m f : Nat), s.linDriving m → f < 64 →
    (∀ reason, 1 ≤ reason → reason ≤ 5 →
      (3 ≤ reason ∨ (∃ h, (s.mort m).lin.hdr = some h ∧ h.fid = f ∧ h.start + s.linFrameMax m (s.linLen m f) ≤ t)) →
      (s.linEvtSlot m = false ∨ (reason ≠ 3 ∧ reason ≠ 5) → After (.linResponseError t m f reason) s fun u =>
        stampedOne s u 2 m .event (padTo 16 [2, BitVec.ofNat 8 reason, BitVec.ofNat 8 f]) ∧ u.rdN (MZ_CNT m 2) = (s.rdN (MZ_CNT m 2) + 1) % 2 ^ 32 ∧
        u.mort m = { s.mort m with lin := { (s.mort m).lin with hdr := none, act := max s.now t } } ∧ sameMorts m s u ∧ sameRegs [MZ_CNT m 2] s u) ∧
      (s.linEvtSlot m = true → (reason = 3 ∨ reason = 5) → After (.linResponseError t m f reason) s fun u =>
        u.ep = s.ep ∧ u.mort m = { s.mort m with lin := { (s.mort m).lin with hdr := none, act := max s.now t, coll := true } } ∧ sameMorts m s u ∧ sameRegs [MZ_CNT m 2] s u)) ∧
    (∀ rtab slot e : Nat, s.linEvtSlot m = true → s.linEntry m (s.mort m).lin.slot.1 (s.mort m).lin.slot.2 = (f, 2, rtab, slot) → (s.mort m).lin.slotEnd = some e →
      (e ≤ t → After (.linEventCollision t m) s fun u =>
        stampedOne s u 2 m .event (padTo 16 [3, 0, BitVec.ofNat 8 f]) ∧
        u.mort m = { s.mort m with lin := { (s.mort m).lin with resolve := some rtab, coll := false } } ∧ sameMorts m s u ∧ sameRegs [] s u) ∧
      (t < e → After (.linEventCollision t m) s fun u =>
        u.mort m = { s.mort m with lin := { (s.mort m).lin with coll := true } } ∧ sameMorts m s u ∧ u = { s with now := max s.now t, mz := u.mz, hb := u.hb })) ∧
    (∀ (d : Octets) (a : Nat), (s.mort m).lin.sending = some (f, d, a) →
      (f ≠ 0x3C ∨ oct d 0 ≠ 0 → After (.linTransmitConfirm t m) s fun u =>
        stampedOne s u 2 m .event (padTo 16 [1, 0, BitVec.ofNat 8 f]) ∧
        u.mort m = { s.mort m with lin := { (s.mort m).lin with sending := none, hdr := none, act := max s.now t } } ∧ sameMorts m s u ∧ sameRegs [] s u) ∧
      (∀ reason, (reason = 1 ∨ reason = 2) → (reason = 2 ∨ s.linEvtSlot m = false) → After (.linTxFailed t m reason) s fun u =>
        stampedOne s u 2 m .event (padTo 16 [6, BitVec.ofNat 8 reason, BitVec.ofNat 8 f]) ∧
        u.mort m = { s.mort m with lin := { (s.mort m).lin with sending := none, hdr := none, act := max s.now t } } ∧ sameMorts m s u ∧ sameRegs [] s u)) ∧
    (s.bit (LN_STATUS m) 3 = false → (s.mort m).lin.act + s.fld (LN_TIMEO m) 0 14 * 1000000 ≤ t → After (.linBusIdleTimeout t m) s fun u =>
      stampedOne s u 2 m .event (padTo 16 [4, 2, 0xFF]) ∧ u.mort m = { s.mort m with lin := { (s.mort m).lin with act := max s.now t } } ∧ sameMorts m s u ∧ sameRegs [] s u) ∧
    (∀ us, s.bit (LN_STATUS m) 3 = true → 150 ≤ us → After (.linWakePulseReceived t m us) s fun u =>
      stampedOne s u 2 m .event (padTo 16 [5, 0, 0xFF]) ∧ u.mort m = { s.mort m with lin := { (s.mort m).lin with act := max s.now t } } ∧ sameMorts m s u ∧ sameRegs [] s u)) ∧
  (∀ (s : State) (c m : Nat), s.linDriving m → s.takesCommands → (s.mort m).window = none →
    (∀ table < 4, After (.linTableWrite c m table) s fun u =>
      u.mort m = { s.mort m with lin := { (s.mort m).lin with ctl := (s.mort m).lin.ctl ++ [(s.epochStart (c + s.ep.lag + 2), some table, none, false)] } } ∧ sameMorts m s u ∧
      u.fld (LN_CTRL m) 0 2 = table ∧ sameRegs [LN_CTRL m] s u ∧ u = { s with regs := u.regs, mz := u.mz, hb := u.hb } ∧ sameBridge s u) ∧
    (∀ run : Bool, After (.linRunWrite c m run) s fun u =>
      u.mort m = { s.mort m with lin := { (s.mort m).lin with ctl := (s.mort m).lin.ctl ++ [(s.epochStart (c + s.ep.lag + 2), none, some run, false)] } } ∧ sameMorts m s u ∧
      u.bit (LN_CTRL m) 2 = run ∧ sameRegs [LN_CTRL m] s u ∧ u = { s with regs := u.regs, mz := u.mz, hb := u.hb } ∧ sameBridge s u) ∧
    (s.bit (LN_CFG m) 0 = true → After (.linSleepCommand c m) s fun u =>
      u.mort m = { s.mort m with lin := { (s.mort m).lin with ctl := (s.mort m).lin.ctl ++ [(s.epochStart (c + s.ep.lag + 2), none, none, true)] } } ∧ sameMorts m s u ∧
      u = { s with mz := u.mz, hb := u.hb } ∧ sameBridge s u) ∧
    (s.bit (LN_CFG m) 0 = false → After (.linSleepCommand c m) s fun u => u = { s with hb := u.hb } ∧ sameBridge s u) ∧
    (s.ep.running = none → After (.linWakeRequest c m) s fun u =>
      u.mort m = { s.mort m with lin := { (s.mort m).lin with act := s.now, pulse := some (s.now + s.fld (LN_TIMEO m) 16 9 * 10000) } } ∧ sameMorts m s u ∧
      u.bit (LN_STATUS m) 3 = false ∧ sameRegs [LN_STATUS m] s u ∧ u = { s with regs := u.regs, mz := u.mz, hb := u.hb } ∧ sameBridge s u))

/-! ### The T1S tenons (R223 to R239) -/

/-- R226 to R231. A frame of right length and FCS is counted and stamped, a bad one counted and flagged. The first BEACON makes PLCA active and 400 µs without one
inactive, each event 0x03. A transmit opportunity of a driving tenon puts up to MAXBC + 1 queued frames on the wire, one without PLCA; a frame whose last octet is sent is
event 0x01; a collided attempt is counted and the frame stays, until the sixteenth without PLCA ends it with event 0x02. R234, R235, R237, R238. At ILIM the integrated
PHY limits its current and is then disconnected: event 0x04, REASON 0x2 where its retries are spent, and every frame of the queue is withdrawn as event 0x02; RETRYMS later
it reconnects; a processed PHYRST reconnects one that stays off; a processed WAKEREQ sends 1 ms of continuous transmission; a differential longer than WFILT in service is
event 0x05. -/
def Obligations.T1sTenons : Prop :=
  (∀ (s : State) (t m : Nat), s.t1sDriving m → (s.mort m).t1s.disc = false →
    (∀ frame : Octets, 64 ≤ frame.length → frame.length ≤ s.fld (T1_CFG m) 16 14 → After (.t1sFrameReceived t m frame false) s fun u =>
      stampedOne s u 2 m .frame (t1sRecord frame) ∧ u.rdN (MZ_CNT m 1) = (s.rdN (MZ_CNT m 1) + 1) % 2 ^ 32 ∧ u.mz = s.mz ∧ sameRegs [MZ_CNT m 1] s u) ∧
    (∀ (frame : Octets) (fcsErr : Bool), (fcsErr = true ∨ frame.length < 64 ∨ s.fld (T1_CFG m) 16 14 < frame.length) → After (.t1sFrameReceived t m frame fcsErr) s fun u =>
      u.ep = s.ep ∧ u.mz = s.mz ∧ u.rdN (T1_CNT m 0) = (s.rdN (T1_CNT m 0) + 1) % 2 ^ 32 ∧ u.rdN (MZ_CNT m 2) = (s.rdN (MZ_CNT m 2) + 1) % 2 ^ 32 ∧
      u.bit (MZ_EVENT m) 21 = true ∧ sameRegs [T1_CNT m 0, MZ_CNT m 2, MZ_EVENT m] s u) ∧
    (s.bit (T1_CFG m) 0 = true → (s.mort m).t1s.plca = false → After (.plcaBeacon t m false) s fun u =>
      stampedOne s u 2 m .event (padTo 16 [3, 0, 1]) ∧ u.mort m = { s.mort m with t1s := { (s.mort m).t1s with plca := true, beaconAt := t } } ∧ sameMorts m s u ∧ sameRegs [] s u) ∧
    ((s.mort m).t1s.plca = true → (s.mort m).t1s.beaconAt + 400000 ≤ t → After (.plcaInactive t m) s fun u =>
      stampedOne s u 2 m .event (padTo 16 [3, 0, 0]) ∧ u.mort m = { s.mort m with t1s := { (s.mort m).t1s with plca := false } } ∧ sameMorts m s u ∧ sameRegs [] s u) ∧
    (∀ (e : Egress) (rest : List (Egress × Bool × Bool)), (s.mort m).t1s.queue = (e, false, false) :: rest →
      ((s.mort m).t1s.burst = 0 → (∀ w, (s.mort m).t1s.waking = some w → w ≤ t) → After (.t1sTransmitOpportunity t m .start) s fun u =>
        u.mort m = { s.mort m with t1s := { (s.mort m).t1s with
          burst := if s.bit (T1_CFG m) 0 && (s.mort m).t1s.plca then min (s.mort m).t1s.waiting.length (s.fld (T1_PLCA m) 24 8 + 1) else 1 } } ∧
        sameMorts m s u ∧ u = { s with now := max s.now t, mz := u.mz, hb := u.hb } ∧ sameBridge s u) ∧
      ((s.mort m).t1s.burst ≠ 0 → (s.mort m).t1s.waking = none → After (.t1sTransmitOpportunity t m .sent) s fun u =>
        (u.mort m).t1s = { (s.mort m).t1s with queue := (e, true, false) :: rest, attempts := 0, burst := (s.mort m).t1s.burst - 1 } ∧
        (∃ o : Octets, stampedOne s u 2 m .event o ∧ o.take 2 = [1, 0]) ∧
        u.rdN (T1_CNT m 2) = (s.rdN (T1_CNT m 2) + 1) % 2 ^ 32 ∧ sameMorts m s u ∧ sameRegs [T1_CNT m 2] s u) ∧
      ((s.mort m).t1s.burst ≠ 0 → (s.bit (T1_CFG m) 0 = false ∨ (s.mort m).t1s.plca = false) →
        ((s.mort m).t1s.attempts < 15 → After (.t1sTransmitOpportunity t m .collided) s fun u =>
          (u.mort m).t1s = { (s.mort m).t1s with burst := 0, attempts := (s.mort m).t1s.attempts + 1 } ∧ u.ep = s.ep ∧
          u.rdN (T1_CNT m 3) = (s.rdN (T1_CNT m 3) + 1) % 2 ^ 32 ∧ u.bit (MZ_EVENT m) 22 = true ∧ sameMorts m s u ∧ sameRegs [T1_CNT m 3, MZ_EVENT m] s u) ∧
        (15 ≤ (s.mort m).t1s.attempts → After (.t1sTransmitOpportunity t m .collided) s fun u =>
          (u.mort m).t1s = { (s.mort m).t1s with burst := 0, attempts := 0, queue := (e, true, false) :: rest } ∧
          (∃ o : Octets, stampedOne s u 2 m .event o ∧ o.take 2 = [2, 1]) ∧ sameMorts m s u ∧ sameRegs [T1_CNT m 3, MZ_EVENT m] s u)))) ∧
  (∀ (s : State) (t m : Nat), s.t1sDriving m →
    ((s.mort m).t1s.disc = false → After (.phyDisconnect t ⟨m, true⟩) s fun u =>
      u.bit (T1_STATUS m) 8 = true ∧ sameRegs [T1_STATUS m] s u ∧ u = { s with now := max s.now t, regs := u.regs, hb := u.hb } ∧ sameBridge s u) ∧
    ((s.mort m).t1s.disc = false → After (.phyDisconnect t ⟨m, false⟩) s fun u =>
      u.mort m = { s.mort m with t1s := { (s.mort m).t1s with
        disc := true, off := decide (s.fld (T1_PHY m) 4 4 ≤ (s.mort m).t1s.retries), holdAt := none, burst := 0, waking := none
        reconAt := if s.fld (T1_PHY m) 4 4 ≤ (s.mort m).t1s.retries then none else some (t + s.fld (T1_PHY m) 8 10 * 1000000)
        queue := (s.mort m).t1s.queue.map fun q => (q.1, true, q.2.2) } } ∧
      u.ep.handing.take s.ep.handing.length = s.ep.handing ∧
      (u.ep.handing.drop s.ep.handing.length).map (fun x => (x.port, x.octets.take 2)) =
        (m, [4, if s.fld (T1_PHY m) 4 4 ≤ (s.mort m).t1s.retries then 2 else 1]) :: List.replicate (s.mort m).t1s.waiting.length (m, [2, 2]) ∧
      u.bit (T1_STATUS m) 9 = true ∧ u.bit (T1_STATUS m) 8 = false ∧ sameMorts m s u ∧ sameRegs [T1_STATUS m] s u) ∧
    (∀ r, (s.mort m).t1s.disc = true → (s.mort m).t1s.off = false → (s.mort m).t1s.reconAt = some r → r ≤ t → After (.phyReconnect t m false) s fun u =>
      u.mort m = { s.mort m with t1s := { (s.mort m).t1s with
        disc := false, reconAt := none, retries := (s.mort m).t1s.retries + 1, holdAt := some (t + s.fld (T1_PHY m) 8 10 * 1000000) } } ∧
      u.bit (T1_STATUS m) 9 = false ∧ sameMorts m s u ∧ sameRegs [T1_STATUS m] s u ∧
      u = { s with now := max s.now t, regs := u.regs, mz := u.mz, hb := u.hb } ∧ sameBridge s u) ∧
    (∀ h, (s.mort m).t1s.disc = false → (s.mort m).t1s.holdAt = some h → h ≤ t → After (.phyReconnect t m true) s fun u =>
      u.mort m = { s.mort m with t1s := { (s.mort m).t1s with holdAt := none, retries := 0 } } ∧ sameMorts m s u ∧
      (∃ o : Octets, stampedOne s u 2 m .event o ∧ o.take 2 = [4, 3]) ∧ sameRegs [] s u) ∧
    (∀ c, s.takesCommands → (s.mort m).window = none →
      ((s.mort m).t1s.off = true → After (.phyResetCommand c m) s fun u =>
        (u.mort m).t1s.disc = false ∧ (u.mort m).t1s.off = false ∧ (u.mort m).t1s.retries = 0 ∧ u.bit (T1_STATUS m) 9 = false ∧ sameMorts m s u ∧ sameRegs [T1_STATUS m] s u ∧
        u = { s with regs := u.regs, mz := u.mz, hb := u.hb } ∧ sameBridge s u) ∧
      ((s.mort m).t1s.disc = false → After (.t1sWakeRequest c m) s fun u =>
        u.mort m = { s.mort m with t1s := { (s.mort m).t1s with waking := some (s.now + 1000000) } } ∧ sameMorts m s u ∧ u = { s with mz := u.mz, hb := u.hb } ∧ sameBridge s u)) ∧
    (∀ us, (s.mort m).t1s.disc = false → s.fld (T1_PHY m) 18 8 < us → s.mode ≠ .watch → s.wk.st ≠ 2 → After (.phyWakeDetect t m us) s fun u =>
      (∃ o : Octets, stampedOne s u 2 m .event o ∧ o.take 2 = [5, 0]) ∧ u.mz = s.mz ∧ u.sill = s.sill ∧ sameRegs [] s u))

/-! ### The Ethernet bays (R240 to R264) -/

/-- R243 to R262. A good frame that is no MAC Control and no gPTP frame is counted and stamped as a bay input while the unit serves; a frame with a bad FCS, a runt or
one over the limit is counted by its cause and is no input where BADDEL is clear; in Raise a frame that matches no wake pattern is counted and discarded. R241, R242,
R257, R264, R349. A link comes up with the speed its mode has for it; one that goes down loses the frames that wait in the MAC, which are counted; a state that has held for
1 ms is shown with the speed and stamped as event 0x01 or 0x02; half duplex in an auto-negotiation word is flagged; the end of
a pause clears its status; an MDIO command sets BUSY and its end clears it, a read leaving the bits sampled; the MAC starts the earliest planned frame when the wire is
free and the frame's start has come. -/
def Obligations.Bays : Prop :=
  (∀ (s : State) (t b : Nat) (f : Octets), s.dieOn = true → b < 12 → s.fld (EB_MACCFG b) 0 3 ≠ 7 →
    (64 ≤ f.length → f.length ≤ s.ethLimit b f → s.isMacControl b f = false → s.bit (EB_PTPCFG b) 0 = false →
      ((s.mode = .solo ∨ s.mode = .lead ∨ s.mode = .shadow) → s.ep.cur.isSome = true → After (.bayFrameReceived t b f false false) s fun u =>
        stampedOne s u 1 b .frame (bayRecord f 0) ∧ u.rdN (EB_CNT b 2) = (s.rdN (EB_CNT b 2) + 1) % 2 ^ 32 ∧ sameRegs [EB_CNT b 2] s u ∧
        u = { s with now := max s.now t, regs := u.regs, ep := u.ep, hb := u.hb } ∧ sameBridge s u) ∧
      (s.mode = .raise → s.wakeMatch b f = none → After (.bayFrameReceived t b f false false) s fun u =>
        u.rdN (EB_CNT b 6) = (s.rdN (EB_CNT b 6) + 1) % 2 ^ 32 ∧ u.rdN (EB_CNT b 2) = (s.rdN (EB_CNT b 2) + 1) % 2 ^ 32 ∧ sameRegs [EB_CNT b 2, EB_CNT b 6] s u ∧ u.ep = s.ep)) ∧
    (∀ fcsErr codeErr : Bool, (fcsErr = true ∨ codeErr = true ∨ f.length < 64 ∨ s.ethLimit b f < f.length) → s.bit (EB_RXCFG b) 14 = false →
      After (.bayFrameReceived t b f fcsErr codeErr) s fun u =>
        u.ep = s.ep ∧ u.bit (EB_EVENT b) 6 = true ∧
        u.rdN (EB_CNT b (if fcsErr || codeErr then 3 else if f.length < 64 then 4 else 5)) =
          (s.rdN (EB_CNT b (if fcsErr || codeErr then 3 else if f.length < 64 then 4 else 5)) + 1) % 2 ^ 32 ∧
        sameRegs [EB_EVENT b, EB_CNT b (if fcsErr || codeErr then 3 else if f.length < 64 then 4 else 5)] s u ∧ u = { s with now := max s.now t, regs := u.regs, hb := u.hb })) ∧
  (∀ (s : State) (t b : Nat), s.dieOn = true → b < 12 → s.bays.length = 12 →
    (∀ rate, s.bayRate b = some rate → (s.bay b).phy = false → After (.linkChange t b ⟨true, false⟩) s fun u =>
      u.bay b = { s.bay b with phy := true, since := max s.now t, speed := rate } ∧ (∀ k < 12, k ≠ b → u.bay k = s.bay k) ∧
      u = { s with now := max s.now t, bays := u.bays, hb := u.hb } ∧ sameBridge s u) ∧
    ((s.bay b).phy = true → (s.bay b).wireEnd ≤ max s.now t * 1000 → After (.linkChange t b ⟨false, false⟩) s fun u =>
      u.bay b = { s.bay b with phy := false, since := max s.now t, fifo := [] } ∧ (∀ k < 12, k ≠ b → u.bay k = s.bay k) ∧
      u.rdN (EB_CNT b 11) = (s.rdN (EB_CNT b 11) + (s.bay b).fifo.length) % 2 ^ 32 ∧ sameRegs [EB_CNT b 11] s u ∧
      u = { s with now := max s.now t, regs := u.regs, bays := u.bays, hb := u.hb } ∧ sameBridge s u) ∧
    (∀ up : Bool, s.ep.cur.isSome = true → (s.bay b).phy = up → (s.bay b).up = !up → (s.bay b).since + 1000000 ≤ t → After (.linkChange t b ⟨up, true⟩) s fun u =>
      u.bay b = { s.bay b with up := up } ∧ (∀ k < 12, k ≠ b → u.bay k = s.bay k) ∧ u.bit (EB_STATUS b) 0 = up ∧ u.fld (EB_STATUS b) 1 3 = (s.bay b).speed % 8 ∧
      (∃ o : Octets, stampedOne s u 1 b .event o ∧ oct o 0 = (if up then 1 else 2)) ∧ sameRegs [EB_STATUS b] s u ∧
      u = { s with now := max s.now t, regs := u.regs, ep := u.ep, bays := u.bays, hb := u.hb })) ∧
  (∀ (s : State) (b speed : Nat), s.dieOn = true → b < 12 → s.bays.length = 12 → s.bit (EB_MACCFG b) 4 = true → s.fld (EB_MACCFG b) 0 3 = 0 →
    (After (.autonegWordReceived b true speed) s fun u =>
      (u.bay b).an = none ∧ u.bit (EB_STATUS b) 4 = true ∧ u.bit (EB_EVENT b) 4 = true ∧ sameRegs [EB_STATUS b, EB_EVENT b] s u ∧ (∀ k < 12, k ≠ b → u.bay k = s.bay k) ∧
      u = { s with regs := u.regs, bays := u.bays, hb := u.hb }) ∧
    (After (.autonegWordReceived b false speed) s fun u =>
      u.bay b = { s.bay b with an := some (speed % 8) } ∧ u.bit (EB_STATUS b) 4 = false ∧ sameRegs [EB_STATUS b] s u ∧ (∀ k < 12, k ≠ b → u.bay k = s.bay k) ∧
      u = { s with regs := u.regs, bays := u.bays, hb := u.hb })) ∧
  (∀ (s : State) (t b : Nat), s.dieOn = true → b < 12 → (s.bay b).pauseAll ≤ t * 1000 → (∀ c < 8, (s.bay b).pfc.getD c 0 ≤ t * 1000) → After (.pauseExpiry t b) s fun u =>
    u.bit (EB_STATUS b) 7 = false ∧ (∀ c < 8, u.bit (EB_STATUS b) (8 + c) = false) ∧ sameRegs [EB_STATUS b] s u ∧ u = { s with now := max s.now t, regs := u.regs, hb := u.hb }) ∧
  (∀ (s : State) (ms : Master) (w : World) (v : Word), s.secureHost ms w → s.bit EB_MDIO_STAT 16 = false → v.getLsbD 28 = true → After (.mdioCommand ms w v) s fun u =>
    u.bit EB_MDIO_STAT 16 = true ∧ u.rdN EB_MDIO_CMD = v.toNat % 2 ^ 29 ∧ sameRegs [EB_MDIO_STAT, EB_MDIO_CMD] s u ∧ u = { s with regs := u.regs, hb := u.hb } ∧ sameBridge s u) ∧
  (∀ (s : State) (rdata : Nat) (ack : Bool), s.bit EB_MDIO_STAT 16 = true → s.bit EB_MDIO_CMD 28 = true → s.fld EB_MDIO_CMD 26 2 = 2 → After (.mdioDone rdata ack) s fun u =>
    u.bit EB_MDIO_STAT 16 = false ∧ u.fld EB_MDIO_STAT 0 16 = rdata % 2 ^ 16 ∧ u.bit EB_MDIO_STAT 17 = !ack ∧ u.bit (EB_EVENT 0) 9 = true ∧
    sameRegs [EB_MDIO_STAT, EB_EVENT 0] s u ∧ u = { s with regs := u.regs, hb := u.hb }) ∧
  (∀ (s : State) (t b : Nat) (e : Egress), s.dieOn = true → b < 12 → s.bays.length = 12 → s.mode = .solo → s.tw.egressOff = false → (s.bay b).phy = true → (s.bay b).wireEnd ≤ max s.now t * 1000 →
    earliest ((s.bay b).heads (max s.now t * 1000)) = some e → e.start ≤ max s.now t → e.close = none → e.stream = none → After (.bayFrameTransmit t b) s fun u =>
      (u.bay b).fifo = (s.bay b).fifo.erase e ∧ (u.bay b).wire = some { e with octets := bayRecord (macOctets e) 0 } ∧ max s.now t * 1000 < (u.bay b).wireEnd ∧
      (∀ k < 12, k ≠ b → u.bay k = s.bay k) ∧ u.rdN (EB_CNT b 10) = (s.rdN (EB_CNT b 10) + 1) % 2 ^ 32 ∧ sameRegs [EB_CNT b 10] s u ∧
      u = { s with now := max s.now t, regs := u.regs, bays := u.bays, hb := u.hb } ∧ sameBridge s u)

/-! ### The gateway (R265 to R301) -/

/-- R298. In the processing of an epoch, with no delta armed and no purge running, a legal route, cell or descriptor command writes its entry with both generations and
nothing else but the pending scan records of that place, which close, for a route its state that restarts in the epoch of the command, and for a descriptor of another PDU the image and marks that start from INIT. A
command with an index beyond its region, or while a delta is armed, is refused: counted in SG_CNT9 and flagged. R298. In the processing of an epoch an image command
writes its octets into the image of a valid PDU, and with TRIG marks the PDU pending when they change it; a host send marks the PDU for sending; a restart command sets
the route's last reception to its epoch and ends a timeout in force, which is flagged. -/
def Obligations.GatewayCommands : Prop :=
  (∀ (s : State) (c idx : Nat) (d : List Nat), s.inService →
    (s.gwFree = true → idx < 8388608 → s.routeOk (cmdOcts d 64) = true → (s.memB (gwRState + 16 * idx + 6)).getLsbD 0 = false → After (.routeWrite c idx d) s fun u =>
      u.route idx = (if (cmdOcts d 64).all (· == 0) then cmdOcts d 64 else withTag 0 3 (cmdOcts d 64)) ∧ u.memN (gwRState + 16 * idx) 6 = c % 2 ^ 48 ∧
      u.memB (gwRState + 16 * idx + 6) = 0 ∧
      (∀ x, (x < gwRoutes + 64 * idx ∨ gwRoutes + 64 * idx + 64 ≤ x) → (x < gwRState + 16 * idx ∨ gwRState + 16 * idx + 7 ≤ x) → u.memB x = s.memB x) ∧
      u = { s with mem := u.mem, tab := (s.closeRec 4 idx).tab, hb := u.hb } ∧ sameBridge s u) ∧
    (s.gwFree = true → idx < 16777216 → (∀ r ∈ (s.memIdx gwRoutes gwRState 64).map s.route, (routeCells r).contains idx = false) → After (.cellWrite c idx d) s fun u =>
      u.cell idx = (if (cmdOcts d 32).all (· == 0) then cmdOcts d 32 else withTag 0x0B 3 (cmdOcts d 32)) ∧ sameMem (gwCells + 32 * idx) 32 s u ∧
      u = { s with mem := u.mem, tab := (s.closeRec 5 idx).tab, hb := u.hb } ∧ sameBridge s u) ∧
    (s.gwFree = true → idx < 1048576 → s.descOk (fun m => some (s.tenonAt m c)) (cmdOcts d 32) = true → entryValid (cmdOcts d 32) = true → s.pduValid idx = false →
      s.memIdx gwRoutes gwRState 64 = [] → After (.pduDescriptorWrite c idx d) s fun u =>
        u.pduDesc idx = withTag 0 3 (cmdOcts d 32) ∧ u.pduOther idx = withTag 0 3 (cmdOcts d 32) ∧ u.image (u.pduDesc idx) = s.initImage (cmdOcts d 32) ∧
        (u.pduFlags idx).testBit 0 = false ∧ (u.pduFlags idx).testBit 1 = false ∧ (u.pduFlags idx).testBit 2 = true ∧
        (u.pduFlags idx).testBit 3 = (s.pduFlags idx).testBit 3 ∧
        (∀ x, (x < gwDescs + 64 * idx ∨ gwDescs + 64 * idx + 64 ≤ x) → x ≠ gwPState + 16 * idx + 6 →
          (x < bodyAddr (cmdOcts d 32) ∨ bodyAddr (cmdOcts d 32) + dImg (cmdOcts d 32) ≤ x) → u.memB x = s.memB x) ∧
        u = { s with mem := u.mem, tab := (s.closeRec 6 (1048576 * bitsN (s.pduFlags idx) 3 1 + idx)).tab, hb := u.hb } ∧ sameBridge s u) ∧
    ((8388608 ≤ idx ∨ s.gwFree = false) → After (.routeWrite c idx d) s fun u =>
      u.held = s.held ++ [.add (SG_CNT 9) 1, .or SG_EVENT (2 ^ 7)] ∧ u = { s with held := u.held, hb := u.hb } ∧ sameBridge s u)) ∧
  (∀ (s : State) (c idx : Nat), s.inService →
    (∀ (off len : Nat) (d : List Nat), idx < 1048576 → s.pduValid idx = true → 1 ≤ len → len ≤ 64 → off + len ≤ dImg (s.pduDesc idx) →
      (After (.imageWrite c idx off len false d) s fun u =>
        u.image (s.pduDesc idx) = putOcts (s.image (s.pduDesc idx)) off (cmdOcts d len) ∧ u.pduDesc idx = s.pduDesc idx ∧
        sameMem (bodyAddr (s.pduDesc idx) + off) len s u ∧ u = { s with mem := u.mem, hb := u.hb } ∧ sameBridge s u) ∧
      (putOcts (s.image (s.pduDesc idx)) off (cmdOcts d len) ≠ s.image (s.pduDesc idx) → After (.imageWrite c idx off len true d) s fun u =>
        u.image (s.pduDesc idx) = putOcts (s.image (s.pduDesc idx)) off (cmdOcts d len) ∧ (u.pduFlags idx).testBit 0 = true ∧
        (∀ x, (x < bodyAddr (s.pduDesc idx) + off ∨ bodyAddr (s.pduDesc idx) + off + len ≤ x) → x ≠ gwPState + 16 * idx + 6 → u.memB x = s.memB x) ∧
        u = { s with mem := u.mem, hb := u.hb } ∧ sameBridge s u)) ∧
    (idx < 1048576 → After (.hostSend c idx) s fun u =>
      (u.pduFlags idx).testBit 1 = true ∧ (∀ k, k ≠ 1 → (u.pduFlags idx).testBit k = (s.pduFlags idx).testBit k) ∧ sameMem (gwPState + 16 * idx + 6) 1 s u ∧
      u = { s with mem := u.mem, hb := u.hb } ∧ sameBridge s u) ∧
    (idx < 8388608 → s.bit SG_CTRL 0 = false → After (.restartTimeout c idx) s fun u =>
      u.memN (gwRState + 16 * idx) 6 = c % 2 ^ 48 ∧ u.memB (gwRState + 16 * idx + 6) = 0 ∧ sameMem (gwRState + 16 * idx) 7 s u ∧
      u.held = s.held ++ (if (s.memB (gwRState + 16 * idx + 6)).getLsbD 0 then [.or SG_EVENT (2 ^ 1)] else []) ∧
      u = { s with mem := u.mem, held := u.held, hb := u.hb } ∧ sameBridge s u))

/-- R285 to R288, R297. In the timer step of the epoch being processed a frame-copy route next in turn enters timeout, which is counted and flagged; with the budget
spent the action is counted and carried into the next epoch; a PDU next in turn whose cycle is due is enqueued at its bay, its last transmission is this epoch and its
marks are clear. -/
def Obligations.GatewayTimerStep : Prop :=
  ∀ (s : State) (n : Nat), s.ep.running = some n → Memory.wf s.mem = true →
    (∀ (r : Nat) (rest : List TimerAct), r < 8388608 → s.gw.part = 2 → s.gw.todo = .timeout r :: rest → s.holdAllows (.timeout r) = true →
      (s.gw.full = false → (oct (s.route r) 0).testBit 3 = true → s.bit SG_CTRL 0 = false → After (.rxTimeout n r) s fun u =>
        u.memB (gwRState + 16 * r + 6) = 1 ∧ sameMem (gwRState + 16 * r + 6) 1 s u ∧ u.gw = { s.gw with todo := rest } ∧
        u.held = s.held ++ [.add (SG_CNT 4) 1, .or SG_EVENT 1] ∧ u = { s with mem := u.mem, held := u.held, gw := u.gw, hb := u.hb } ∧ sameBridge s u) ∧
      (s.gw.full = true → After (.rxTimeout n r) s fun u =>
        u.gw = { s.gw with todo := rest, carry := s.gw.carry ++ [.timeout r] } ∧ u.held = s.held ++ [.add (SG_CNT 8) 1] ∧
        u = { s with held := u.held, gw := u.gw, hb := u.hb } ∧ sameBridge s u)) ∧
    (∀ (p : Nat) (rest : List TimerAct) (d : Octets), p < 1048576 → n < 2 ^ 48 → s.gw.part = 3 → s.gw.todo = .send p :: rest → s.holdAllows (.send p) = true → s.gw.full = false → 1 ≤ s.gw.left →
      s.pduDesc p = d → s.cycleDue n p = true → (oct d 0).testBit 4 = false → (oct d 0).testBit 3 = false → 128 ≤ dPort d → dPort d < 140 → s.gone SB0 n = false →
      s.wk.qEp = none → s.bayEgressOk (dPort d - 128) (s.image d) = true → s.bit (SC_CL_W0 (dPort d) (dClass d)) 17 = true → s.bit (SC_PCFG (dPort d)) 0 = false →
      (s.queue (8 * dPort d + dClass d)).depth + (recFrame (bayPad (s.image d))).length ≤ s.fld (SC_CL_W3 (dPort d) (dClass d)) 0 24 → After (.pduCycleDue n p) s fun u =>
        u.queue (8 * dPort d + dClass d) =
          { frames := (s.queue (8 * dPort d + dClass d)).frames ++
              [{ port := dPort d, cls := dClass d, octets := bayPad (s.image d), rel := n + 1 + s.ep.lag, pdu := some p }]
            depth := (s.queue (8 * dPort d + dClass d)).depth + (recFrame (bayPad (s.image d))).length } ∧
        (∀ q, q ≠ 8 * dPort d + dClass d → u.queue q = s.queue q) ∧
        u.memN (gwPState + 16 * p) 6 = n ∧ (∀ k < 3, (u.pduFlags p).testBit k = false) ∧ sameMem (gwPState + 16 * p) 7 s u ∧
        u.gw = { s.gw with todo := rest, left := s.gw.left - 1 } ∧ u.held = s.held ++ [.add (SG_CNT 6) 1, .add (EB_CNT (dPort d - 128) 8) 1, .add (SC_CNT 0) 1] ∧
        u = { s with mem := u.mem, held := u.held, gw := u.gw, sch := { s.sch with queues := u.sch.queues }, hb := u.hb } ∧ sameBridge s u)

/-! ### The lookup tables (R302 to R335) -/

/-- R303, R310, R311, R319 to R321, R327. In the processing of an epoch a legal table command within its slots acts and is counted: a direct entry is written in the
bank in force; a hash entry is replaced where its key stands and takes a free slot of its first bucket where it does not, unless the stash is full, which refuses it; a
deletion clears the entry of the key; a flush installs a filter for one full sweep. A command without slots, or while a delta is armed, is refused and counted. -/
def Obligations.TableCommands : Prop :=
  ∀ (s : State) (c idx : Nat) (d : List Nat), s.inService →
    (idx < 262144 → directOk (d.getD 0 0 % 2 ^ 32) = true →
      (s.tabFree 1 = true → After (.directEntryWrite c idx d) s fun u =>
        u.memN (directAddr (s.tab.bank.testBit (idx / 2048)) idx) 4 = d.getD 0 0 % 2 ^ 32 ∧ sameMem (directAddr (s.tab.bank.testBit (idx / 2048)) idx) 4 s u ∧
        u.tab = { s.tab with slots := s.tab.slots - 1, recs := u.tab.recs } ∧
        u.tab.recs = s.tab.recs.filter (fun r => !(r.region == 0 && r.idx == 262144 * b2n (s.tab.bank.testBit (idx / 2048)) + idx)) ∧
        u.held = s.held ++ [.add (TB_CNT 0) 1] ∧ u = { s with mem := u.mem, held := u.held, tab := u.tab, hb := u.hb } ∧ sameBridge s u) ∧
      (s.tabFree 1 = false → After (.directEntryWrite c idx d) s fun u =>
        u.held = s.held ++ [.add (TB_CNT 1) 1, .or TB_EVENT 1] ∧ u = { s with held := u.held, hb := u.hb } ∧ sameBridge s u)) ∧
    (∀ e : Octets, idx < 2 → hTag 3 (tabData d) = e → hashOk idx e = true → s.handleTaken idx e = false → s.tabFree s.insCost = true →
      (∀ i, (s.hfind idx (hKey e) 3 = some i ∨ (s.hfind idx (hKey e) 3 = none ∧ s.freeStash idx ≠ none ∧ s.freeSlot idx (buckets idx (hKey e)).1 = some i)) →
        After (.hashInsert c idx d) s fun u =>
          u.hent idx i = e ∧ sameMem (hashAddr idx i) 32 s u ∧ u.tab = { s.tab with slots := s.tab.slots - s.insCost, recs := u.tab.recs } ∧
          u.held = s.held ++ [.add (TB_CNT 0) 1] ∧ u = { s with mem := u.mem, held := u.held, tab := u.tab, hb := u.hb } ∧ sameBridge s u) ∧
      (s.hfind idx (hKey e) 3 = none → s.freeStash idx = none → After (.hashInsert c idx d) s fun u =>
        u.held = s.held ++ [.add (TB_CNT 1) 1, .or TB_EVENT 1] ∧ u = { s with held := u.held, hb := u.hb } ∧ sameBridge s u)) ∧
    (∀ i, idx < 2 → s.tabFree 3 = true → s.hfind idx (hKey (tabData d)) s.genMask = some i → (s.stashEmpty idx ∨ hashSlots idx ≤ i) → After (.hashDelete c idx d) s fun u =>
      u.hent idx i = zeros 32 ∧ sameMem (hashAddr idx i) 32 s u ∧ u.tab = { s.tab with slots := s.tab.slots - 3, recs := u.tab.recs } ∧
      u.held = s.held ++ [.add (TB_CNT 0) 1] ∧ u = { s with mem := u.mem, held := u.held, tab := u.tab, hb := u.hb } ∧ sameBridge s u) ∧
    (idx = 0 → s.tab.filters.length < 4 → s.tabFree 1 = true → After (.learnedFlush c idx d) s fun u =>
      u.tab = { s.tab with
        slots := s.tab.slots - 1
        filters := s.tab.filters ++ [{ port := if (d.getD 0 0).testBit 8 then none else some (d.getD 0 0 % 256), epoch := c % 2 ^ 32, left := 262176 }] } ∧
      u.held = s.held ++ [.add (TB_CNT 0) 1] ∧ u = { s with held := u.held, tab := u.tab, hb := u.hb } ∧ sameBridge s u)

/-- R312 to R318. In the processing of an epoch a legal prefix command waits for its effect epoch D epochs after its own epoch and after those waiting before it. A
completed build is marked; at the effect epoch a built command changes the list, one that the node pool did not hold has no effect and is flagged, and one still open
is an F3 with cause 0x36; that such a command has no effect is the model's choice (log entry 17). -/
def Obligations.PrefixCommands : Prop :=
  (∀ (s : State) (c idx : Nat) (d : List Nat), s.inService → idx < 1048576 → s.tab.lpm.length < 16 → s.tabFree 1 = true →
    (prefixOk (tabData d) = true → (s.pairOf (tabData d)).isSome = true → s.prefixElsewhere idx (tabData d) = false → After (.prefixAdd c idx d) s fun u =>
      (∃ x : LpmCmd, u.tab.lpm = s.tab.lpm ++ [x] ∧ x.at_ = max c ((s.tab.lpm.getLast?.map (·.at_)).getD 0) + cdiv 1000000 s.elen ∧ x.handle = idx ∧
        x.entry = some (hTag 3 (tabData d)) ∧ x.built = false) ∧
      u.tab = { s.tab with lpm := u.tab.lpm, slots := s.tab.slots - 1, recs := u.tab.recs } ∧ u.bit TB_STATUS 1 = true ∧ sameRegs [TB_STATUS] s u ∧
      u.held = s.held ++ [.add (TB_CNT 0) 1] ∧ u = { s with regs := u.regs, held := u.held, tab := u.tab, hb := u.hb } ∧ sameBridge s u) ∧
    (∀ e : Octets, s.handleHeld idx = some e → (s.pairOf e).isSome = true → After (.prefixDelete c idx d) s fun u =>
      (∃ x : LpmCmd, u.tab.lpm = s.tab.lpm ++ [x] ∧ x.at_ = max c ((s.tab.lpm.getLast?.map (·.at_)).getD 0) + cdiv 1000000 s.elen ∧ x.handle = idx ∧ x.entry = none ∧
        x.built = false) ∧
      u.tab = { s.tab with lpm := u.tab.lpm, slots := s.tab.slots - 1, recs := u.tab.recs } ∧ u.bit TB_STATUS 1 = true ∧ sameRegs [TB_STATUS] s u ∧
      u.held = s.held ++ [.add (TB_CNT 0) 1] ∧ u = { s with regs := u.regs, held := u.held, tab := u.tab, hb := u.hb } ∧ sameBridge s u)) ∧
  (∀ (s : State) (t : Nat) (c : LpmCmd) (rest : List LpmCmd), s.tab.lpm = c :: rest → c.built = false → c ∉ rest →
    (∀ k, c.entry.bind s.pairOf = some k → s.tcmOn k = false) → After (.prefixBuildDone t) s fun u =>
      u.tab = { s.tab with lpm := { c with built := true, overflow := false } :: rest } ∧ u.bit TB_STATUS 0 = false ∧
      u.bit TB_STATUS 1 = rest.any (fun x => !x.built) ∧ sameRegs [TB_STATUS] s u ∧ u = { s with now := max s.now t, regs := u.regs, tab := u.tab, hb := u.hb } ∧ sameBridge s u) ∧
  (∀ (s : State) (n : Nat) (c : LpmCmd) (rest : List LpmCmd), s.tab.lpm = c :: rest → c.at_ = n → c.handle < 1048576 → Memory.wf s.mem = true →
    (c.built = true → c.fits = true → c.overflow = false → s.tab.tcam = [] → (∀ e, c.entry = some e → e.length = 32) → After (.prefixEffect n) s fun u =>
      u.pfx c.handle = (match c.entry with | some e => hTag 3 e | none => zeros 32) ∧ sameMem (tbPfx + 32 * c.handle) 32 s u ∧ u.tab = { (s.closeRec 3 c.handle).tab with lpm := rest } ∧
      u.held = s.held ++ [.or TB_EVENT (2 ^ 6), .put TB_STATUS 2 5 rest.length] ∧
      sameRegs [TB_STATUS] s u ∧ u = { s with regs := u.regs, mem := u.mem, held := u.held, tab := u.tab, hb := u.hb } ∧ sameBridge s u) ∧
    (c.built = true → c.fits = false → After (.prefixEffect n) s fun u =>
      u.tab = { s.tab with lpm := rest } ∧ u.held = s.held ++ [.or TB_EVENT (2 ^ 5), .add (TB_CNT 9) 1, .put TB_STATUS 2 5 rest.length] ∧ sameRegs [TB_STATUS] s u ∧
      u = { s with regs := u.regs, held := u.held, tab := u.tab, hb := u.hb } ∧ sameBridge s u) ∧
    (c.built = false → s.mode = .solo → s.fld FLT_STATUS 0 5 = 0 → s.fr.swapAt = none → s.ep.guar = false → After (.prefixEffect n) s fun u =>
      u.mem = s.mem ∧ u.tab = { s.tab with lpm := rest } ∧ faultNoted 3 0x36 0x10 0xFF s u ∧ u.flt.holdAt = some (u.stampEp + 1) ∧ sameRegs (TB_STATUS :: faultRegs 3) s u))

/-- R326, R327. In the timer step of the epoch being processed the sweep visits its position: a learned entry without a hit that has reached its age is removed and
counted, and a frozen one that has been seen for its time loses its freeze with its hit and age noted; a filter whose sweep is over is taken away. R330 to R334. A step
of the plumb scan in the enabled region in hand looks at its place and goes on to the next: a difference from the shadow not yet on record opens a pending record, and
a place of the direct tables with an uncorrectable error is written from its shadow, counted, and reported as an F1 with cause 0x11. CONFIRM ms later a record closes,
and a difference that stands unchanged is to be repaired. -/
def Obligations.SweepAndScan : Prop :=
  (∀ (s : State) (n : Nat), s.atVisits n →
    (∀ (e : Octets), s.tab.visits ≠ 0 → s.tab.age < 262176 → s.hent 0 s.tab.age = e → hValid e = true → hLearned e = true → s.hidden e = false →
      ((oct e 0).testBit 4 = false → s.fld TB_CFG 16 8 ≤ oct e 1 + 1 → (s.stashEmpty 0 ∨ hashSlots 0 ≤ s.tab.age) → After (.ageOut (leNat (hKey e))) s fun u =>
        u.hent 0 s.tab.age = zeros 32 ∧ sameMem (hashAddr 0 s.tab.age) 32 s u ∧ u.tab = { s.tab with age := (s.tab.age + 1) % 262176, visits := s.tab.visits - 1 } ∧
        u.held = s.held ++ [.add (TB_CNT 7) 1] ∧ u = { s with mem := u.mem, held := u.held, tab := u.tab, hb := u.hb } ∧ sameBridge s u) ∧
      ((oct e 0).testBit 4 = true → (oct e 2).testBit 4 = true → s.fld TB_LRNCFG 23 4 ≤ oct e 2 % 16 + 1 → After (.entryUnfreeze (leNat (hKey e))) s fun u =>
        u.hent 0 s.tab.age = putOcts e 0 [BitVec.ofNat 8 (oct e 0 - 16), 0, 0] ∧ sameMem (hashAddr 0 s.tab.age) 32 s u ∧
        u.tab = { s.tab with age := (s.tab.age + 1) % 262176, visits := s.tab.visits - 1 } ∧ u = { s with mem := u.mem, tab := u.tab, hb := u.hb } ∧ sameBridge s u)) ∧
    (∀ (k : Nat) (f : FlushFilter), s.tab.visits = 0 → s.tab.filters[k]? = some f → f.left ≤ s.fld TB_CFG 8 7 → After (.flushFilterRetire k) s fun u =>
      u.tab = { s.tab with filters := s.tab.filters.eraseIdx k } ∧ u = { s with tab := u.tab, hb := u.hb } ∧ sameBridge s u)) ∧
  (∀ (s : State) (t r i : Nat), s.dieOn = true → s.bit TB_PSCTRL 0 = true → s.scanPaused = false → r < 7 → s.bit TB_PSCTRL (1 + r) = true → s.fld TB_PSSTAT 0 3 = r →
    s.fld TB_PSPOS 0 24 = i → i + 1 < scanSteps r → s.scanSkips r i = false →
    (∀ e sh : Octets, s.scanLook r i = (e, sh, true) → (∀ x ∈ s.tab.recs, x.region = r → x.idx ≠ i) → After (.plumbScanStep t false) s fun u =>
      u.tab = { s.tab with recs := s.tab.recs ++ [{ region := r, idx := i, ent := e, shadow := sh, opened := max s.now t }] } ∧ u.rdN TB_PSPOS = i + 1 ∧
      u.fld TB_PSSTAT 4 5 = s.tab.recs.length + 1 ∧ u.fld TB_PSSTAT 0 3 = r ∧ sameRegs [TB_PSPOS, TB_PSSTAT] s u ∧
      u = { s with now := max s.now t, regs := u.regs, tab := u.tab, hb := u.hb } ∧ sameBridge s u) ∧
    (∀ e sh : Octets, s.scanLook r i = (e, sh, false) → After (.plumbScanStep t false) s fun u =>
      u.rdN TB_PSPOS = i + 1 ∧ u.fld TB_PSSTAT 0 3 = r ∧ sameRegs [TB_PSPOS, TB_PSSTAT] s u ∧ u = { s with now := max s.now t, regs := u.regs, hb := u.hb } ∧ sameBridge s u) ∧
    (r = 0 → s.fld FLT_STATUS 0 5 = 0 → Memory.wf s.mem = true → s.shBase ≥ 0xB14 * 2 ^ 20 → After (.plumbScanStep t true) s fun u =>
      u.memO (tbDirect + 4 * i) 4 = s.shadow 0 i ∧ sameMem (tbDirect + 4 * i) 4 s u ∧ u.rdN TB_PSPOS = i + 1 ∧ u.rdN TB_PSLAST = i ∧
      u.rdN (TB_CNT 10) = (s.rdN (TB_CNT 10) + 1) % 2 ^ 32 ∧ u.bit TB_EVENT 7 = true ∧ faultNoted 1 0x11 0x10 0xFF s u ∧
      sameRegs (TB_PSPOS :: TB_PSSTAT :: TB_PSLAST :: TB_CNT 10 :: TB_EVENT :: faultRegs 1) s u ∧ u.tab = s.tab ∧ u.now = max s.now t)) ∧
  (∀ (s : State) (t k : Nat) (x : ScanRec), s.tab.recs[k]? = some x → s.tab.recs.length < 32 → x.opened + s.confirmNs ≤ max s.now t →
    (s.scanLook x.region x.idx = (x.ent, x.shadow, true) → After (.plumbConfirm t k) s fun u =>
      u.tab = { s.tab with recs := s.tab.recs.eraseIdx k, repairs := s.tab.repairs ++ [x] } ∧ u.fld TB_PSSTAT 4 5 = s.tab.recs.length - 1 ∧ sameRegs [TB_PSSTAT] s u ∧
      u = { s with now := max s.now t, regs := u.regs, tab := u.tab, hb := u.hb } ∧ sameBridge s u) ∧
    ((s.scanLook x.region x.idx).2.2 = false → After (.plumbConfirm t k) s fun u =>
      u.tab = { s.tab with recs := s.tab.recs.eraseIdx k } ∧ sameRegs [TB_PSSTAT] s u ∧ u = { s with now := max s.now t, regs := u.regs, tab := u.tab, hb := u.hb } ∧ sameBridge s u))

/-! ### The scheduler (R336 to R367) -/

/-- R340, R341, R357, R358, R363. In the processing of an epoch a legal meter command writes the meter with full tokens and LASTEP its epoch and keeps its counters;
UNBLOCK clears the states, CLEAR the counters; an index beyond the meters is refused. ACT schedules the admin list at the first of its cycle starts 2 × E after the
start of epoch c + L + 2, and is refused while a change is pending; at its change time the list comes into force and the old one becomes the admin list. HCLR zeroes
every histogram bin. -/
def Obligations.MetersGatesHistograms : Prop :=
  (∀ (s : State) (c idx : Nat) (d : List Nat), s.inService →
    (∀ e : Octets, padTo 24 (d.flatMap (natLE 4)) = e → idx < 16384 → meterOk e = true → After (.meterWrite c idx d) s fun u =>
      u.memO (meterAt idx) 24 = e ∧ u.memN (meterAt idx + 0x18) 8 = leAt e 0x0C 4 * 8000 ∧ u.memN (meterAt idx + 0x20) 8 = leAt e 0x10 4 * 8000 ∧
      u.memN (meterAt idx + 0x28) 6 = c % 2 ^ 48 ∧ sameMem (meterAt idx) 0x2E s u ∧ u = { s with mem := u.mem, hb := u.hb } ∧ sameBridge s u) ∧
    (idx < 16384 → After (.meterUnblock c idx) s fun u =>
      (oct (u.meter idx) 0).testBit 5 = false ∧ (oct (u.meter idx) 0).testBit 7 = false ∧ (∀ k, k ≠ 5 → k ≠ 7 → (oct (u.meter idx) 0).testBit k = (oct (s.meter idx) 0).testBit k) ∧
      sameMem (meterAt idx) 1 s u ∧ u = { s with mem := u.mem, hb := u.hb } ∧ sameBridge s u) ∧
    (idx < 16384 → After (.meterClearCounters c idx) s fun u =>
      u.memO (meterAt idx + 0x30) 16 = zeros 16 ∧ sameMem (meterAt idx + 0x30) 16 s u ∧ u = { s with mem := u.mem, hb := u.hb } ∧ sameBridge s u) ∧
    (16384 ≤ idx → After (.meterUnblock c idx) s fun u =>
      u.held = s.held ++ [.add (SC_CNT 10) 1, .or SC_EVENT 1] ∧ u = { s with held := u.held, hb := u.hb } ∧ sameBridge s u) ∧
    (∀ bay, bay < 12 → s.sch.plan.length = 12 →
      ((s.planner bay).pend = false → s.gateOk bay = true → After (.gateActivate c bay) s fun u =>
        u.planner bay = { s.planner bay with pend := true, ct := (u.planner bay).ct } ∧ (∀ k, k ≠ bay → u.planner k = s.planner k) ∧
        (s.adminList bay).bt ≤ (u.planner bay).ct ∧ ((u.planner bay).ct - (s.adminList bay).bt) % (s.adminList bay).cyc = 0 ∧
        s.epochStart (c + 2 + s.ep.lag) + 2 * s.elen ≤ (u.planner bay).ct ∧
        ((u.planner bay).ct = (s.adminList bay).bt ∨ (u.planner bay).ct < s.epochStart (c + 2 + s.ep.lag) + 2 * s.elen + (s.adminList bay).cyc) ∧
        u.held = s.held ++ [.put (SC_PSTAT (128 + bay)) 10 1 1] ∧
        u = { s with held := u.held, sch := { s.sch with plan := u.sch.plan }, hb := u.hb } ∧ sameBridge s u) ∧
      ((s.planner bay).pend = true → After (.gateActivate c bay) s fun u =>
        u.held = s.held ++ [.add (SC_CNT 10) 1, .or SC_EVENT (2 ^ 6)] ∧ u = { s with held := u.held, hb := u.hb } ∧ sameBridge s u))) ∧
  (∀ (s : State) (t bay : Nat) (old : GateCur), bay < 12 → s.sch.plan.length = 12 → (s.planner bay).pend = true → (s.planner bay).ct ≤ t → (s.planner bay).cur.getD {} = old →
    After (.gateListChange t bay) s fun u =>
      u.planner bay = { s.planner bay with cur := some (s.adminList bay), pend := false } ∧ (∀ k, k ≠ bay → u.planner k = s.planner k) ∧
      u.fld (SC_GCTL bay) 8 10 = old.len % 2 ^ 10 ∧ u.fld (SC_GCYC bay) 0 30 = old.cyc % 2 ^ 30 ∧ u.rdN (SC_GBASE_L bay) = old.bt % 2 ^ 32 ∧
      u.held = s.held ++ [.put (SC_PSTAT (128 + bay)) 8 1 (b2n (s.adminList bay).b), .put (SC_PSTAT (128 + bay)) 9 1 1, .put (SC_PSTAT (128 + bay)) 10 1 0,
        .or SC_EVENT (2 ^ 5), .add (SC_CNT 7) 1] ∧
      sameRegs [SC_GCTL bay, SC_GCYC bay, SC_GBASE_L bay, SC_GBASE_H bay] s u ∧
      u = { s with now := max s.now t, regs := u.regs, held := u.held, sch := { s.sch with plan := u.sch.plan }, hb := u.hb } ∧ sameBridge s u) ∧
  (∀ (s : State) (c : Nat), s.inService → s.ok → After (.histogramClear c) s fun u =>
    (∀ a, 0x340000 ≤ a → a < 0x363000 → u.rdN a = 0) ∧ (∀ a, (a < 0x340000 ∨ 0x363000 ≤ a) → u.rd a = s.rd a) ∧
    u = { s with regs := u.regs, hb := u.hb } ∧ sameBridge s u)

/-! ### The key store (R368 to R402) -/

/-- R383, R386 to R388. GO by a secure host starts the check of the packet, whose end shows the code of the first failed check and, with none, stages the update; a
discard clears a staged one and nothing from STATE 0x3 on. In the processing of epoch c an apply command without a staged update, or with an effect epoch before c + D,
is refused, counted and flagged; otherwise the commit begins with its header in the bank not in force. A shelf entry of a generation no longer in force is zeroised. -/
def Obligations.KeyUpdates : Prop :=
  (∀ (s : State) (t : Nat) (ms : Master) (w : World), s.secureHost ms w → s.fld KS_UPST 0 3 = 0 → After (.keyPacketCheck t ms w) s fun u =>
    u.fld KS_UPST 0 3 = 1 ∧ (∀ k < 32, 3 ≤ k → u.bit KS_UPST k = s.bit KS_UPST k) ∧ sameRegs [KS_UPST] s u ∧ u = { s with now := max s.now t, regs := u.regs, hb := u.hb } ∧ sameBridge s u) ∧
  (∀ (s : State) (t : Nat), s.dieOn = true → s.fld KS_UPST 0 3 = 1 → After (.keyCheckComplete t) s fun u =>
    u.fld KS_UPST 8 4 = (s.packetChecks s.packet).1 % 16 ∧ sameRegs [KS_UPST, KS_EVENT, KS_CNT 2, KS_UPKCV_L, KS_UPKCV_H] s u ∧
    u = { s with now := max s.now t, regs := u.regs, ks := u.ks, hb := u.hb } ∧
    ((s.packetChecks s.packet).1 = 0 → u.fld KS_UPST 0 3 = 2 ∧ u.bit KS_EVENT 0 = true ∧ u.ks = { s.ks with upd := some (s.packetChecks s.packet).2, effect := none } ∧
      u.rd (KS_CNT 2) = s.rd (KS_CNT 2)) ∧
    ((s.packetChecks s.packet).1 ≠ 0 → u.fld KS_UPST 0 3 = 0 ∧ u.bit KS_EVENT 1 = true ∧ u.ks = s.ks ∧ u.rdN (KS_CNT 2) = (s.rdN (KS_CNT 2) + 1) % 2 ^ 32)) ∧
  (∀ (s : State) (ms : Master) (w : World), s.secureHost ms w →
    (s.fld KS_UPST 0 3 = 2 → After (.keyPacketDiscard ms w) s fun u =>
      u.fld KS_UPST 0 3 = 0 ∧ u.ks = { s.ks with upd := none, effect := none } ∧ sameRegs [KS_UPST] s u ∧ u = { s with regs := u.regs, ks := u.ks, hb := u.hb } ∧ sameBridge s u) ∧
    (3 ≤ s.fld KS_UPST 0 3 → After (.keyPacketDiscard ms w) s fun u => u = { s with hb := u.hb } ∧ sameBridge s u)) ∧
  (∀ (s : State) (c a : Nat), s.inService →
    (s.fld KS_UPST 0 3 ≠ 2 → After (.keyUpdateApply c a) s fun u =>
      u.held = s.held ++ [.or KS_EVENT (2 ^ 4), .add (KS_CNT 1) 1] ∧ u = { s with held := u.held, ep := { s.ep with outcomes := u.ep.outcomes }, hb := u.hb } ∧ sameBridge s u) ∧
    (∀ x : KeyUpd, s.fld KS_UPST 0 3 = 2 → s.ks.upd = some x →
      (a < c + cdiv 50000000 s.elen → After (.keyUpdateApply c a) s fun u =>
        u.held = s.held ++ [.or KS_EVENT (2 ^ 3), .add (KS_CNT 1) 1] ∧ u = { s with held := u.held, ep := { s.ep with outcomes := u.ep.outcomes }, hb := u.hb } ∧ sameBridge s u) ∧
      (c + cdiv 50000000 s.elen ≤ a → s.ks.commits = [] → s.nvOther.wear < 100000 → s.ks.banks.length = 2 → s.ks.bank < 2 → After (.keyUpdateApply c a) s fun u =>
        u.fld KS_UPST 0 3 = 3 ∧ u.ks = { s.ks with effect := some a, commits := [.update x true], banks := u.ks.banks } ∧
        nth u.ks.banks s.ks.bank = nth s.ks.banks s.ks.bank ∧
        nth u.ks.banks (1 - s.ks.bank) = { nth s.ks.banks (1 - s.ks.bank) with ok := false, hdr := some ((nth s.ks.banks s.ks.bank).seq + 1, x.slot, x.op, x.counter) } ∧
        u.held = s.held ++ [.or KS_EVENT (2 ^ 2)] ∧ sameRegs [KS_UPST] s u ∧
        u = { s with regs := u.regs, held := u.held, ep := { s.ep with outcomes := u.ep.outcomes }, ks := u.ks, hb := u.hb } ∧ sameBridge s u))) ∧
  (∀ (s : State) (k : Nat) (e : ShelfKey), s.ks.shelf[k]? = some e → e.gen ≠ (s.slot e.slot).gen → After (.shelfEntryZeroise k) s fun u =>
    u.ks = { s.ks with shelf := s.ks.shelf.eraseIdx k } ∧ u = { s with ks := u.ks, hb := u.hb } ∧ sameBridge s u)

/-- R388, R389, R392, R393. A commit that completes puts its change into the image, and the bank not in force takes the image with the next sequence and comes into
force: an update with an effect epoch waits in STATE 0x4, one without comes into force at once. A commit of an update that fails abandons it: an F3 with cause 0x35,
the image as before. At the effect epoch a committed update comes into force, and one not committed is abandoned. -/
def Obligations.KeyCommits : Prop :=
  (∀ (s : State) (t : Nat) (c : Commit), s.dieOn = true → s.ks.commits = [c] → s.ks.banks.length = 2 → s.ks.bank < 2 → s.nvOther.wear < 94999 →
    (After (.nvkmCommitComplete t true) s fun u =>
      u.ks.cur = s.ks.cur.apply c ∧ u.ks.bank = 1 - s.ks.bank ∧ u.ks.commits = [] ∧ nth u.ks.banks s.ks.bank = nth s.ks.banks s.ks.bank ∧
      (nth u.ks.banks u.ks.bank).seq = (nth s.ks.banks s.ks.bank).seq + 1 ∧ (nth u.ks.banks u.ks.bank).ok = true ∧ (nth u.ks.banks u.ks.bank).img = u.ks.cur ∧
      (nth u.ks.banks u.ks.bank).wear = s.nvOther.wear + 1 ∧ sameRegs [KS_LASTUP, KS_LASTCNT, KS_UPST, KS_CNT 0, KS_EVENT] s u ∧
      u = { s with now := max s.now t, regs := u.regs, ks := u.ks, hb := u.hb }) ∧
    (∀ (x : KeyUpd) (a : Nat), c = .update x true → s.ks.effect = some a → After (.nvkmCommitComplete t true) s fun u =>
      u.fld KS_UPST 0 3 = 4 ∧ u.ks.slots = s.ks.slots ∧ u.ks.upd = s.ks.upd ∧ u.ks.effect = some a ∧ u.rdN KS_LASTCNT = x.counter % 2 ^ 32) ∧
    (∀ x : KeyUpd, c = .update x true → s.ks.effect = none → After (.nvkmCommitComplete t true) s fun u =>
      u.fld KS_UPST 0 3 = 0 ∧ u.ks.upd = none ∧ u.bit KS_EVENT 5 = true ∧ u.rdN (KS_CNT 0) = (s.rdN (KS_CNT 0) + 1) % 2 ^ 32) ∧
    (∀ x : KeyUpd, c = .update x true → s.mode = .solo → s.fld FLT_STATUS 0 5 = 0 → s.fr.swapAt = none → s.ep.guar = false → After (.nvkmCommitComplete t false) s fun u =>
      u.ks = { s.ks with commits := [], upd := none, effect := none } ∧ u.fld KS_UPST 0 3 = 0 ∧ u.bit KS_EVENT 6 = true ∧ faultNoted 3 0x35 0x23 0xFF s u ∧
      u.flt.holdAt = some (u.stampEp + 1) ∧ sameRegs (KS_UPST :: KS_EVENT :: faultRegs 3) s u)) ∧
  (∀ (s : State) (n : Nat) (x : KeyUpd), s.ks.upd = some x → s.ks.effect = some n →
    (s.fld KS_UPST 0 3 = 4 → (x.op = 1 ∨ x.op = 2) → s.ks.cleared = false → x.slot < s.ks.slots.length → After (.keyUpdateInForce n) s fun u =>
      u.slot x.slot = nth s.ks.cur.slots x.slot ∧ (∀ k, k ≠ x.slot → u.slot k = s.slot k) ∧ u.ks = { s.ks with slots := u.ks.slots, upd := none, effect := none } ∧
      u.fld KS_UPST 0 3 = 0 ∧ u.held = s.held ++ [.add (KS_CNT 0) 1, .or KS_EVENT (2 ^ 5)] ∧ sameRegs [KS_UPST] s u ∧
      u = { s with regs := u.regs, held := u.held, ep := { s.ep with outcomes := u.ep.outcomes }, ks := u.ks, hb := u.hb } ∧ sameBridge s u) ∧
    (s.fld KS_UPST 0 3 = 3 → s.mode = .solo → s.fld FLT_STATUS 0 5 = 0 → s.fr.swapAt = none → s.ep.guar = false → After (.keyUpdateInForce n) s fun u =>
      u.ks.upd = none ∧ u.ks.effect = none ∧ u.ks.slots = s.ks.slots ∧ u.ks.cur = s.ks.cur ∧ u.bit KS_EVENT 6 = true ∧ faultNoted 3 0x35 0x23 0xFF s u ∧
      sameRegs (KS_UPST :: KS_EVENT :: faultRegs 3) s u))

/-- R394, R396 to R402. A configured tamper source makes the sill die erase every slot with ETAMP that holds a key, with zero attributes and its counter kept, and log
the event, with the frame die on or off; with it on the root keys and the shelf are zeroised and an F3 with cause 0x34 follows, with it off the event waits for the
next start. A write of KS_TAMPCFG in Blank or Provisioned is a commit, later a violation. A request captures a statement; once signed it stands in KS_STMT. -/
def Obligations.TamperAndStatements : Prop :=
  (∀ (s : State) (t src : Nat), src < 6 → s.sill.vsill = true → (nth s.ks.cur.tamp src).testBit 0 = true → s.ks.commits = [] →
    (After (.tamperDetected t src) s fun u =>
      (∀ k, (nth s.ks.cur.slots k).tampered = true → (nth u.ks.cur.slots k).key = zeros 32 ∧ (nth u.ks.cur.slots k).state = 2 ∧ (nth u.ks.cur.slots k).attr = 0 ∧
        (nth u.ks.cur.slots k).counter = (nth s.ks.cur.slots k).counter) ∧
      (∀ k, (nth s.ks.cur.slots k).tampered = false → nth u.ks.cur.slots k = nth s.ks.cur.slots k) ∧ u.ks.cur.tcount = min 0xFFFFFFFF (s.ks.cur.tcount + 1) ∧
      u.ks.cur.lc = s.ks.cur.lc ∧ u.ks.cur.auth = s.ks.cur.auth ∧ u.ks.commits = [.response] ∧ u.now = max s.now t) ∧
    (s.dieOn = false → After (.tamperDetected t src) s fun u =>
      u.ks = { s.ks with cur := u.ks.cur, commits := [.response], banks := u.ks.banks, tamperPend := s.ks.tamperPend + 1 } ∧
      u = { s with now := max s.now t, ks := u.ks, sill := { s.sill with latched := u.sill.latched }, hb := u.hb } ∧
      ((nth s.ks.cur.tamp src).testBit 2 = true → s.mode = .watch → u.sill.latched = s.sill.latched ++ [{ src := 5, idx := src, at_ := t }])) ∧
    (s.dieOn = true → s.mode = .solo → s.wk.st = 0 → s.fld FLT_STATUS 0 5 = 0 → s.fr.swapAt = none → s.ep.guar = false → After (.tamperDetected t src) s fun u =>
      u.ks.cleared = true ∧ u.ks.shelf = [] ∧ (∀ k, k < s.ks.slots.length → (u.slot k).key = zeros 32) ∧ u.bit KS_EVENT 7 = true ∧ u.rdN (KS_CNT 6) = (s.rdN (KS_CNT 6) + 1) % 2 ^ 32 ∧
      (∀ i < 4, u.rdN (CP_HJOUT i) = 0) ∧ faultNoted 3 0x34 0x23 0xFF s u ∧ u.mode = .solo)) ∧
  (∀ (s : State) (ms : Master) (w : World) (src : Nat) (val : Word), s.secureHost ms w → src < 6 →
    (s.ks.lc ≤ 1 → s.ks.commits = [] → s.nvOther.wear < 100000 → After (.tamperConfigWrite ms w src val) s fun u =>
      u.ks = { s.ks with commits := [.tampCfg src (val.toNat &&& 0xFF07)], banks := u.ks.banks } ∧ u = { s with ks := u.ks, hb := u.hb } ∧ sameBridge s u) ∧
    (2 ≤ s.ks.lc → After (.tamperConfigWrite ms w src val) s fun u =>
      u.rdN FLT_VIOL = min 0xFFFFFFFF (s.rdN FLT_VIOL + 1) ∧ sameRegs [FLT_VIOL] s u ∧ u = { s with regs := u.regs, hb := u.hb } ∧ sameBridge s u)) ∧
  (∀ (s : State) (t : Nat) (ms : Master) (w : World), s.reaches ms (worldOf ms w) → isHost ms = true → s.bit KS_ATTCTL 1 = false → After (.attestationRequest t ms w) s fun u =>
    u.ks = { s.ks with att := some s.statement } ∧ u.bit KS_ATTCTL 1 = true ∧ u.bit KS_ATTCTL 2 = false ∧ (∀ k < 54, u.rdN (KS_STMT k) = 0) ∧
    sameRegs (KS_ATTCTL :: (List.range 54).map KS_STMT) s u ∧
    u = { s with now := max s.now t, regs := u.regs, ks := u.ks, hb := u.hb } ∧ sameBridge s u) ∧
  (∀ (s : State) (t : Nat) (d : Octets), s.ks.att = some d → After (.statementReady t) s fun u =>
    (∀ k < 54, u.rdN (KS_STMT k) = leAt (d ++ ecdsaSign Config.attestKey.toNat (sha256 d)) (4 * k) 4) ∧ u.ks = { s.ks with att := none } ∧ u.bit KS_ATTCTL 1 = false ∧
    u.bit KS_ATTCTL 2 = true ∧ u.bit KS_EVENT 9 = true ∧ u.rdN (KS_CNT 7) = (s.rdN (KS_CNT 7) + 1) % 2 ^ 32 ∧
    sameRegs (KS_ATTCTL :: KS_EVENT :: KS_CNT 7 :: (List.range 54).map KS_STMT) s u ∧ u = { s with now := max s.now t, regs := u.regs, ks := u.ks, hb := u.hb })

/-! ### The cipher engine (R403 to R429) -/

/-- R378, R413, R415, R427, R428. In the processing of an epoch a freshness or profile command writes its octets, and one with an index beyond the store, or a profile
while a delta is armed, is refused and counted. A host job takes the key on the shelf for its label where its master may derive it, and none with the refusal counted
where it may not; its end gives the block enciphered or deciphered under the key, or NOKEY. -/
def Obligations.CipherCommandsAndJobs : Prop :=
  (∀ (s : State) (c idx : Nat) (d : List Nat), s.inService →
    (idx < 65536 → bitsN (oct (padTo 8 (wordsOctets d)) 7) 1 7 = 0 → After (.freshnessWrite c idx d) s fun u =>
      u.memO (cpFresh + 8 * idx) 8 = padTo 8 (wordsOctets d) ∧ sameMem (cpFresh + 8 * idx) 8 s u ∧ u = { s with mem := u.mem, hb := u.hb } ∧ sameBridge s u) ∧
    (65536 ≤ idx → After (.freshnessWrite c idx d) s fun u =>
      u.held = s.held ++ [.add (CP_CNT 9) 1, .or CP_EVENT (2 ^ 3)] ∧ u = { s with held := u.held, hb := u.hb } ∧ sameBridge s u) ∧
    (idx < 1024 → s.bit FR_STATUS 5 = false → s.bit FR_STATUS 6 = false → profOk (fun r => (s.recipe r).cls) (padTo 32 (wordsOctets d)) = true → After (.profileWrite c idx d) s fun u =>
      u.memO (profAddr s.pbank idx) 32 = padTo 32 (wordsOctets d) ∧ sameMem (profAddr s.pbank idx) 32 s u ∧ u = { s with mem := u.mem, hb := u.hb } ∧ sameBridge s u) ∧
    ((1024 ≤ idx ∨ s.bit FR_STATUS 5 = true) → After (.profileWrite c idx d) s fun u =>
      u.held = s.held ++ [.add (CP_CNT 9) 1, .or CP_EVENT (2 ^ 3)] ∧ u = { s with held := u.held, hb := u.hb } ∧ sameBridge s u)) ∧
  (∀ (s : State) (t : Nat) (ms : Master) (w : World) (lbl inp : Octets), s.reaches ms (worldOf ms w) → isHost ms = true → s.bit CP_HJCTL 2 = false →
    lbl = (List.range 4).flatMap (fun k => natLE 4 (s.rdN (CP_HJLBL k))) → inp = (List.range 4).flatMap (fun k => natLE 4 (s.rdN (CP_HJIN k))) →
    (∀ e : ShelfKey, s.mayDerive (s.fld CP_HJKEY 0 5) lbl ms (worldOf ms w) = true →
      s.ks.shelf.find? (fun e => e.slot == s.fld CP_HJKEY 0 5 && e.gen == (s.slot (s.fld CP_HJKEY 0 5)).gen && e.lbl == lbl && e.bits == if s.bit CP_HJKEY 8 then 256 else 128) = some e →
      After (.hostJob t ms w) s fun u =>
        u.cp = { s.cp with job := some (some e.key, s.bit CP_HJCTL 1, inp) } ∧ u.bit CP_HJCTL 2 = true ∧ u.bit CP_HJCTL 3 = false ∧ u.bit CP_HJCTL 4 = false ∧
        sameRegs [CP_HJCTL] s u ∧ u = { s with now := max s.now t, regs := u.regs, cp := u.cp, hb := u.hb } ∧ sameBridge s u) ∧
    (s.mayDerive (s.fld CP_HJKEY 0 5) lbl ms (worldOf ms w) = false → After (.hostJob t ms w) s fun u =>
      u.cp = { s.cp with job := some (none, s.bit CP_HJCTL 1, inp) } ∧ u.bit CP_HJCTL 2 = true ∧ u.rdN (KS_CNT 4) = (s.rdN (KS_CNT 4) + 1) % 2 ^ 32 ∧ u.bit KS_EVENT 10 = true ∧
      sameRegs [CP_HJCTL, KS_CNT 4, KS_EVENT, FLT_VIOL] s u ∧ u = { s with now := max s.now t, regs := u.regs, cp := u.cp, hb := u.hb })) ∧
  (∀ (s : State) (t : Nat) (key : Option Octets) (dec : Bool) (inp : Octets), s.cp.job = some (key, dec, inp) → After (.hostJobDone t) s fun u =>
    u.cp = { s.cp with job := none } ∧ u.bit CP_HJCTL 2 = false ∧ u.bit CP_EVENT 6 = true ∧ u.bit CP_HJCTL 4 = (key.isNone || s.bit CP_HJCTL 4) ∧
    (∀ k, key = some k → u.bit CP_HJCTL 3 = true ∧ ∀ i < 4, u.rdN (CP_HJOUT i) = leAt (if dec then aesDec k inp else aesEnc k inp) (4 * i) 4) ∧
    sameRegs (CP_HJCTL :: CP_EVENT :: (List.range 4).map CP_HJOUT) s u ∧ (key = none → sameRegs [CP_HJCTL, CP_EVENT] s u) ∧
    u = { s with now := max s.now t, regs := u.regs, cp := u.cp, hb := u.hb })

/-! ### Sleep and network management (R472 to R495) -/

/-- R472 to R476, R478, R495. A processed SLEEP decides a forced sleep, whose quiesce begins PREPMS later or, after SLPGO, with the next epoch; in Bench quiesce begins
at once. At Q quiesce begins: the wake sources are armed, the listeners that are not are on record, C follows from the largest DRAIN, and the pins of tenons with nothing on the wire go to idle. A processed
cancellation ends the sleep with the wakes latched. At the commit point the device is in Watch or Sill with the frame die and its memory without power. AWRST restarts
the awake time. -/
def Obligations.SleepSequence : Prop :=
  (∀ (s : State) (t c : Nat), s.inService →
    (s.wk.st = 0 → s.wk.go ≠ some c → After (.sleepRequest t c) s fun u =>
      u.wk = { s.wk with
        st := 1, forced := true, sill := s.bit WK_SLPCFG 1, qEp := some (c + cdiv (max 1 (s.fld WK_SLPCFG 4 10) * 1000000) s.elen), cEp := none
        cancel := s.wk.cancel.filter (fun x => x == c) } ∧
      u.held = s.held ++ [.put WK_STATUS 0 2 1, .put WK_STATUS 2 1 1, .add (WK_CNT 0) 1, .or WK_EVENT 1] ∧
      u = { s with now := max s.now t, held := u.held, wk := u.wk, hb := u.hb } ∧ sameBridge s u) ∧
    (∀ q, s.wk.st = 1 → s.wk.qEp = some q → After (.sleepGo c) s fun u =>
      u.wk = { s.wk with go := some c, qEp := some (min q (c + 1)) } ∧ u = { s with wk := u.wk, hb := u.hb } ∧ sameBridge s u) ∧
    (∀ x, s.ep.running = some x → s.wk.st ≠ 0 → s.wk.benchAt = none → (∀ k, s.wk.cEp = some k → x ≤ k) → After (.sleepCancel t) s fun u =>
      u.wk = { s.wk with st := 0, forced := false, cEp := none, cancel := some x } ∧ u.sill = { s.sill with latched := [] } ∧
      u.held = s.held ++ [.put WK_STATUS 0 2 0, .put WK_STATUS 2 1 0, .add (WK_CNT 1) 1, .or WK_EVENT (2 ^ 1)] ∧
      u = { s with now := max s.now t, held := u.held, wk := u.wk, sill := u.sill, hb := u.hb } ∧ sameBridge s u) ∧
    (After (.awakeRestart c) s fun u =>
      u.wk = { s.wk with awake := 0, expired := false, nets := s.wk.nets.map (fun x => { x with blocked := [] }) } ∧ u.held = s.held ++ [.put WK_STATUS 3 1 0] ∧
      u = { s with held := u.held, wk := u.wk, hb := u.hb } ∧ sameBridge s u)) ∧
  (∀ (s : State) (t c : Nat), s.dieOn = true → s.mode = .bench → s.held = [] → s.wk.st = 0 → After (.sleepRequest t c) s fun u =>
    u.wk = { s.wk with
      st := 2, forced := true, sill := s.bit WK_SLPCFG 1, benchAt := some (max s.now t + (s.drMax + 1000) * 1000), quiesce := true, pinsAt := none, lstOff := u.wk.lstOff } ∧
    u.fld WK_STATUS 0 2 = 2 ∧ u.bit WK_STATUS 2 = true ∧ u.bit WK_EVENT 2 = true ∧ u.rdN (WK_CNT 0) = (s.rdN (WK_CNT 0) + 1) % 2 ^ 32 ∧
    sameRegs [WK_STATUS, WK_EVENT, WK_CNT 0] s u ∧ u.mode = .bench ∧ u.now = max s.now t) ∧
  (∀ (s : State) (t q c : Nat), s.wk.st = 1 → s.wk.qEp = some q → s.ep.cur = some c → q ≤ c → s.mz.length = 128 → After (.quiesceStart t q) s fun u =>
    u.wk = { s.wk with st := 2, quiesce := true, pinsAt := none, lstOff := u.wk.lstOff, cEp := some (q + cdiv ((s.drMax + 1000) * 1000) s.elen) } ∧
    (∀ k < 16, u.wk.lstOff.testBit k = (s.bit (WK_LST_CFG k) 7 && !s.lstMay k)) ∧
    u.sill.inEn = s.fld WK_WKCFG 0 8 ∧ u.sill.timer = s.fld WK_TIMER 0 24 ∧ u.sill.latched = [] ∧ u.sill.phys = (if s.wk.sill then 0 else s.fld WK_T1SARM 0 16 &&& s.physUp) ∧
    (∀ m < 128, (s.tick t).txBusy m = false → (u.mort m).pins ≠ .tenon) ∧
    u = { s with now := max s.now t, mz := u.mz, wk := u.wk, sill := u.sill, hb := u.hb }) ∧
  (∀ (s : State) (t : Nat), s.dieOn = true → (s.tick t).atCommit t = true → After (.sleepCommit t) s fun u =>
    u.mode = (if s.wk.sill then .sill else .watch) ∧ u.dieOn = false ∧ u.mem = [] ∧ u.sill.enables = false ∧ u.sill.inh = !s.wk.sill ∧ u.sill.commitAt = t ∧
    u.sill.latched = s.sill.latched ∧ u.sill.inEn = s.fld WK_WKCFG 0 8 ∧ u.sill.timer = s.fld WK_TIMER 0 24 ∧ u.sill.dwell = s.fld WK_SLPCFG 16 8 ∧
    (s.wk.sill = true → u.sill.listeners = 0 ∧ u.sill.phys = 0) ∧ (∀ m < 128, (u.mort m).pins ≠ .tenon) ∧ u.tw.pairId = s.tw.pairId ∧ u.tw.gen = s.tw.gen ∧ u.ks = s.ks ∧
    u.now = max s.now t ∧ u.pending = s.pending)

/-- R486 to R495. In the timer step of the epoch being processed: a ring whose pass is due passes its frame on with CONSENT plus one, or zero while it is not ready;
the lowest member starts a ring; a ring without token is lost and sends ALIVE; a partial network whose timer ends without own demand is no longer awake; the maximum
awake time expires, and networks that only others keep awake are blocked for the port that kept them. -/
def Obligations.NetworkManagement : Prop :=
  (∀ (s : State) (n r : Nat), s.ep.running = some n → r < 32 → s.wk.rings.length = 32 → s.wk.woke = true → s.wk.ringsDone = r → s.bit (WK_RNG_CFG r) 7 = true →
    (s.ring r).asleep = false → (s.ring r).owe = false →
    (∀ e k : Nat, (s.ring r).pass = some (e, k) → e ≤ n → s.startDue n r = false → s.lossDue n r = false → After (.ringPass n r) s fun u =>
      (u.ring r).pass = none ∧ (u.ring r).consent = (if s.ringReady r then min (k + 1) 255 else 0) ∧ (s.ringReady r = false → (u.ring r).asleep = false) ∧
      u.wk.ringsDone = r + 1 ∧ (∀ j, j ≠ r → u.ring j = s.ring j) ∧ sameRegs [MZ_CNT (s.fld (WK_RNG_CFG r) 0 7) 6] s u ∧
      u = { s with regs := u.regs, held := u.held, fr := { s.fr with isoDrop := u.fr.isoDrop }, sch := u.sch, wk := { s.wk with rings := u.wk.rings, ringsDone := r + 1 }, hb := u.hb }) ∧
    ((s.ring r).pass = none → s.startDue n r = true → s.lossDue n r = false → After (.ringStart n r) s fun u =>
      (u.ring r).aliveAt = none ∧ (u.ring r).consent = (if s.ringReady r then 1 else 0) ∧ (s.ringReady r = false → (u.ring r).asleep = false) ∧ u.wk.ringsDone = r + 1 ∧
      (∀ j, j ≠ r → u.ring j = s.ring j) ∧
      u = { s with regs := u.regs, held := u.held, fr := { s.fr with isoDrop := u.fr.isoDrop }, sch := u.sch, wk := { s.wk with rings := u.wk.rings, ringsDone := r + 1 }, hb := u.hb }) ∧
    ((s.ring r).pass = none → s.startDue n r = false → s.lossDue n r = true → After (.ringLost n r) s fun u =>
      (u.ring r).lost = true ∧ (u.ring r).members = [] ∧ (u.ring r).tokenAt = n ∧ (u.ring r).aliveAt = some n ∧ (u.ring r).consent = 0 ∧ u.wk.ringsDone = r + 1 ∧
      (∀ j, j ≠ r → u.ring j = s.ring j) ∧
      u = { s with regs := u.regs, held := u.held, fr := { s.fr with isoDrop := u.fr.isoDrop }, sch := u.sch, wk := { s.wk with rings := u.wk.rings, ringsDone := r + 1 }, hb := u.hb })) ∧
  (∀ (s : State) (n p e : Nat), s.ep.running = some n → p < 32 → s.wk.nets.length = 32 → s.wk.woke = true → s.wk.ringsDone = 32 → s.wk.netsDone = p → s.bit (WK_PN_CFG p) 16 = true →
    (s.net p).until_ = some e → e ≤ n → s.pnOwn p = false → (s.net p).awake = true → After (.pnTimeout n p) s fun u =>
      u.net p = { s.net p with until_ := none, awake := false } ∧ (∀ j, j ≠ p → u.net j = s.net j) ∧ u.wk = { s.wk with nets := u.wk.nets, netsDone := p + 1 } ∧
      (∃ v, u.held = s.held ++ [.or WK_EVENT (2 ^ 7), .put (WK_PN_STAT p) 0 32 v]) ∧ u = { s with held := u.held, wk := u.wk, hb := u.hb } ∧ sameBridge s u) ∧
  (∀ (s : State) (n : Nat), s.ep.running = some n → s.wk.woke = false → s.gw.part = 0 → s.awakeDue = true → s.wk.nets.length = 32 → After (.maxAwakeExpiry n) s fun u =>
    u.wk = { s.wk with expired := true, awake := s.wk.awake + 1, woke := true, nets := u.wk.nets } ∧ u.held = s.held ++ [.put WK_STATUS 3 1 1, .or WK_EVENT (2 ^ 8)] ∧
    (∀ p < 32, s.bit (WK_PN_CFG p) 16 = true → s.bit (WK_PN_CFG p) 17 = true → (s.net p).until_.isSome = true → (s.net p).lastport ∈ (u.net p).blocked) ∧
    (∀ p < 32, (s.bit (WK_PN_CFG p) 16 = false ∨ s.bit (WK_PN_CFG p) 17 = false ∨ (s.net p).until_ = none) → u.net p = s.net p) ∧
    u = { s with held := u.held, wk := u.wk, hb := u.hb } ∧ sameBridge s u)

/-! ### The king post (R496 to R501) -/

/-- R499 to R501. A measurement above a threshold in force sets TRIP, divides the bent clocks and is an F3 with cause 0x30; one below shows in PW_SENSE alone; the trip
clears once both have stayed below 90 % of their thresholds for 10 ms. The stopped clocks of a bent that is configured and not isolated start, and those of a bent no
longer demanded stop, along a ramp of ⌈ISTEP ÷ 1.5⌉ ns while no other ramp runs and none of a bent with a lower code waits. -/
def Obligations.PowerTripsAndRamps : Prop :=
  (∀ (s : State) (t current temp : Nat), s.dieOn = true →
    (s.bit PW_STATUS 0 = false → (s.tripCurrent < current ∨ s.tripTemp < temp) → s.mode = .solo → s.fld FLT_STATUS 0 5 = 0 → s.fr.swapAt = none → s.ep.guar = false →
      After (.powerTrip t current temp) s fun u =>
        u.bit PW_STATUS 0 = true ∧ u.bit PW_EVENT 0 = true ∧ u.pw = { s.pw with divided := true, highAt := t } ∧ faultNoted 3 0x30 0x22 0xFF s u ∧
        u.flt.holdAt = some (u.stampEp + 1) ∧ u.rdN PW_SENSE = min 511 current + 65536 * min 255 (temp + 64) ∧
        sameRegs (PW_SENSE :: PW_STATUS :: PW_EVENT :: faultRegs 3) s u ∧ u.mode = .solo) ∧
    (current ≤ s.tripCurrent → temp ≤ s.tripTemp → After (.powerTrip t current temp) s fun u =>
      u.rdN PW_SENSE = min 511 current + 65536 * min 255 (temp + 64) ∧ sameRegs [PW_SENSE] s u ∧
      u.pw = { s.pw with highAt := if 10 * current < 9 * s.tripCurrent ∧ 10 * temp < 9 * s.tripTemp then s.pw.highAt else t } ∧
      u = { s with now := max s.now t, regs := u.regs, pw := u.pw, hb := u.hb } ∧ sameBridge s u) ∧
    (s.bit PW_STATUS 0 = true → 10 * current < 9 * s.tripCurrent → 10 * temp < 9 * s.tripTemp →
      (s.pw.highAt + 10000000 ≤ t → After (.tripClear ⟨t, current, temp⟩) s fun u =>
        u.bit PW_STATUS 0 = false ∧ u.bit PW_EVENT 1 = true ∧ u.rdN PW_SENSE = min 511 current + 65536 * min 255 (temp + 64) ∧ sameRegs [PW_SENSE, PW_STATUS, PW_EVENT] s u ∧
        u = { s with now := max s.now t, regs := u.regs, hb := u.hb }) ∧
      (t < s.pw.highAt + 10000000 → After (.tripClear ⟨t, current, temp⟩) s fun u =>
        u.bit PW_STATUS 0 = true ∧ sameRegs [PW_SENSE] s u ∧ u = { s with now := max s.now t, regs := u.regs, hb := u.hb }))) ∧
  (∀ (s : State) (t code i : Nat) (r : Octets), s.dieOn = true → bentIdx code = some i → s.anyRec i = some r → (s.tick t).ramping = false →
    (∀ j < i, (s.tick t).rampWaits j = false) →
    (nth s.pw.clk i = 0 → s.bent i ≠ .isolated → s.fr.cfg.contains i = true → After (.clockRamp t code true) s fun u =>
      u.pw = { s.pw with clk := s.pw.clk.set i 2, ramp := some (i, true, max s.now t + cdiv (2 * rIstep r) 3) } ∧ u = { s with now := max s.now t, pw := u.pw, hb := u.hb } ∧ sameBridge s u) ∧
    (nth s.pw.clk i = 2 → s.demanded i = false → s.bent i ≠ .awaiting → After (.clockRamp t code false) s fun u =>
      u.pw = { s.pw with clk := s.pw.clk.set i 0, ramp := some (i, false, max s.now t + cdiv (2 * rIstep r) 3) } ∧ u = { s with now := max s.now t, pw := u.pw, hb := u.hb } ∧ sameBridge s u))

/-! ### The whole block -/

/-- R5, R38, R506. Every step keeps the state well-formed: the registers listed once each by rising offset, the table space in its canonical form, 128 mortises, 8
banks and 12 bays. -/
def Obligations.StepKeepsWellFormed : Prop := ∀ s u : State, s.ok → step s = .next u → u.ok

/-- R38. No command changes the commands waiting or the grade, and none turns the time base or the count of free values back. -/
def Obligations.QueueGradeAndTimeAreKept : Prop :=
  ∀ (s u : State) (c : Instr), exec c s = .next u → u.pending = s.pending ∧ u.grade = s.grade ∧ s.now ≤ u.now ∧ s.free ≤ u.free

/-- R9, R430, R529. The state after reset is well-formed: the frame die runs in Raise with no epoch, no frame in hand, no lease and every pin at high impedance; every
register holds its reset value and no command waits. Which unit this is, and its key store, are the model's choices (log entries 2, 3, 4 and 6). -/
def Obligations.ResetState : Prop :=
  State.reset.ok ∧ State.reset.mode = .raise ∧ State.reset.dieOn = true ∧ State.reset.ep.cur = none ∧ State.reset.tb.st = .unsync ∧ State.reset.fr.hand = none ∧
  State.reset.tw.lease = false ∧ (∀ m < 128, (State.reset.mort m).pins = .highZ) ∧ (∀ a, State.reset.rdN a = resetOf a % 2 ^ 32) ∧ State.reset.pending = []
end

