-- ==== Sys2Proof/Laws/State.lean ====
section
/-! SUPPORT. Laws/State.lean: what each named update of the state leaves in each of its fields, one lemma a field and update. -/
set_option Elab.async false
namespace Sys2Proof.Machine
open Sys2Proof

@[simp] theorem State.onTb_pending (s : State) (f : TimeBase → TimeBase) : (s.onTb f).pending = s.pending := rfl
@[simp] theorem State.onTb_now (s : State) (f : TimeBase → TimeBase) : (s.onTb f).now = s.now := rfl
@[simp] theorem State.onTb_free (s : State) (f : TimeBase → TimeBase) : (s.onTb f).free = s.free := rfl
@[simp] theorem State.onTb_grade (s : State) (f : TimeBase → TimeBase) : (s.onTb f).grade = s.grade := rfl
@[simp] theorem State.onTb_mode (s : State) (f : TimeBase → TimeBase) : (s.onTb f).mode = s.mode := rfl
@[simp] theorem State.onTb_regs (s : State) (f : TimeBase → TimeBase) : (s.onTb f).regs = s.regs := rfl
@[simp] theorem State.onTb_mem (s : State) (f : TimeBase → TimeBase) : (s.onTb f).mem = s.mem := rfl
@[simp] theorem State.onTb_held (s : State) (f : TimeBase → TimeBase) : (s.onTb f).held = s.held := rfl
@[simp] theorem State.onTb_bus (s : State) (f : TimeBase → TimeBase) : (s.onTb f).bus = s.bus := rfl
@[simp] theorem State.onTb_tb (s : State) (f : TimeBase → TimeBase) : (s.onTb f).tb = f s.tb := rfl
@[simp] theorem State.onTb_ep (s : State) (f : TimeBase → TimeBase) : (s.onTb f).ep = s.ep := rfl
@[simp] theorem State.onTb_fr (s : State) (f : TimeBase → TimeBase) : (s.onTb f).fr = s.fr := rfl
@[simp] theorem State.onTb_flt (s : State) (f : TimeBase → TimeBase) : (s.onTb f).flt = s.flt := rfl
@[simp] theorem State.onTb_mz (s : State) (f : TimeBase → TimeBase) : (s.onTb f).mz = s.mz := rfl
@[simp] theorem State.onTb_banks (s : State) (f : TimeBase → TimeBase) : (s.onTb f).banks = s.banks := rfl
@[simp] theorem State.onTb_bays (s : State) (f : TimeBase → TimeBase) : (s.onTb f).bays = s.bays := rfl
@[simp] theorem State.onTb_gw (s : State) (f : TimeBase → TimeBase) : (s.onTb f).gw = s.gw := rfl
@[simp] theorem State.onTb_tab (s : State) (f : TimeBase → TimeBase) : (s.onTb f).tab = s.tab := rfl
@[simp] theorem State.onTb_sch (s : State) (f : TimeBase → TimeBase) : (s.onTb f).sch = s.sch := rfl
@[simp] theorem State.onTb_ks (s : State) (f : TimeBase → TimeBase) : (s.onTb f).ks = s.ks := rfl
@[simp] theorem State.onTb_cp (s : State) (f : TimeBase → TimeBase) : (s.onTb f).cp = s.cp := rfl
@[simp] theorem State.onTb_tw (s : State) (f : TimeBase → TimeBase) : (s.onTb f).tw = s.tw := rfl
@[simp] theorem State.onTb_wk (s : State) (f : TimeBase → TimeBase) : (s.onTb f).wk = s.wk := rfl
@[simp] theorem State.onTb_pw (s : State) (f : TimeBase → TimeBase) : (s.onTb f).pw = s.pw := rfl
@[simp] theorem State.onTb_sill (s : State) (f : TimeBase → TimeBase) : (s.onTb f).sill = s.sill := rfl
@[simp] theorem State.onTb_hb (s : State) (f : TimeBase → TimeBase) : (s.onTb f).hb = s.hb := rfl
@[simp] theorem State.onTb_rd (s : State) (f : TimeBase → TimeBase) (a_ : Nat) : (s.onTb f).rd a_ = s.rd a_ := rfl
@[simp] theorem State.onTb_rdN (s : State) (f : TimeBase → TimeBase) (a_ : Nat) : (s.onTb f).rdN a_ = s.rdN a_ := rfl
@[simp] theorem State.onTb_fld (s : State) (f : TimeBase → TimeBase) (a_ lo_ w_ : Nat) : (s.onTb f).fld a_ lo_ w_ = s.fld a_ lo_ w_ := rfl
@[simp] theorem State.onTb_bit (s : State) (f : TimeBase → TimeBase) (a_ k_ : Nat) : (s.onTb f).bit a_ k_ = s.bit a_ k_ := rfl
@[simp] theorem State.onTb_mort (s : State) (f : TimeBase → TimeBase) (m_ : Nat) : (s.onTb f).mort m_ = s.mort m_ := rfl
@[simp] theorem State.onTb_bay (s : State) (f : TimeBase → TimeBase) (b_ : Nat) : (s.onTb f).bay b_ = s.bay b_ := rfl
@[simp] theorem State.onTb_memB (s : State) (f : TimeBase → TimeBase) (a_ : Nat) : (s.onTb f).memB a_ = s.memB a_ := rfl
@[simp] theorem State.onTb_dieOn (s : State) (f : TimeBase → TimeBase)  : (s.onTb f).dieOn = s.dieOn := rfl
@[simp] theorem State.onTb_atOnce (s : State) (f : TimeBase → TimeBase)  : (s.onTb f).atOnce = s.atOnce := rfl

@[simp] theorem State.onEp_pending (s : State) (f : EpochEng → EpochEng) : (s.onEp f).pending = s.pending := rfl
@[simp] theorem State.onEp_now (s : State) (f : EpochEng → EpochEng) : (s.onEp f).now = s.now := rfl
@[simp] theorem State.onEp_free (s : State) (f : EpochEng → EpochEng) : (s.onEp f).free = s.free := rfl
@[simp] theorem State.onEp_grade (s : State) (f : EpochEng → EpochEng) : (s.onEp f).grade = s.grade := rfl
@[simp] theorem State.onEp_mode (s : State) (f : EpochEng → EpochEng) : (s.onEp f).mode = s.mode := rfl
@[simp] theorem State.onEp_regs (s : State) (f : EpochEng → EpochEng) : (s.onEp f).regs = s.regs := rfl
@[simp] theorem State.onEp_mem (s : State) (f : EpochEng → EpochEng) : (s.onEp f).mem = s.mem := rfl
@[simp] theorem State.onEp_held (s : State) (f : EpochEng → EpochEng) : (s.onEp f).held = s.held := rfl
@[simp] theorem State.onEp_bus (s : State) (f : EpochEng → EpochEng) : (s.onEp f).bus = s.bus := rfl
@[simp] theorem State.onEp_tb (s : State) (f : EpochEng → EpochEng) : (s.onEp f).tb = s.tb := rfl
@[simp] theorem State.onEp_ep (s : State) (f : EpochEng → EpochEng) : (s.onEp f).ep = f s.ep := rfl
@[simp] theorem State.onEp_fr (s : State) (f : EpochEng → EpochEng) : (s.onEp f).fr = s.fr := rfl
@[simp] theorem State.onEp_flt (s : State) (f : EpochEng → EpochEng) : (s.onEp f).flt = s.flt := rfl
@[simp] theorem State.onEp_mz (s : State) (f : EpochEng → EpochEng) : (s.onEp f).mz = s.mz := rfl
@[simp] theorem State.onEp_banks (s : State) (f : EpochEng → EpochEng) : (s.onEp f).banks = s.banks := rfl
@[simp] theorem State.onEp_bays (s : State) (f : EpochEng → EpochEng) : (s.onEp f).bays = s.bays := rfl
@[simp] theorem State.onEp_gw (s : State) (f : EpochEng → EpochEng) : (s.onEp f).gw = s.gw := rfl
@[simp] theorem State.onEp_tab (s : State) (f : EpochEng → EpochEng) : (s.onEp f).tab = s.tab := rfl
@[simp] theorem State.onEp_sch (s : State) (f : EpochEng → EpochEng) : (s.onEp f).sch = s.sch := rfl
@[simp] theorem State.onEp_ks (s : State) (f : EpochEng → EpochEng) : (s.onEp f).ks = s.ks := rfl
@[simp] theorem State.onEp_cp (s : State) (f : EpochEng → EpochEng) : (s.onEp f).cp = s.cp := rfl
@[simp] theorem State.onEp_tw (s : State) (f : EpochEng → EpochEng) : (s.onEp f).tw = s.tw := rfl
@[simp] theorem State.onEp_wk (s : State) (f : EpochEng → EpochEng) : (s.onEp f).wk = s.wk := rfl
@[simp] theorem State.onEp_pw (s : State) (f : EpochEng → EpochEng) : (s.onEp f).pw = s.pw := rfl
@[simp] theorem State.onEp_sill (s : State) (f : EpochEng → EpochEng) : (s.onEp f).sill = s.sill := rfl
@[simp] theorem State.onEp_hb (s : State) (f : EpochEng → EpochEng) : (s.onEp f).hb = s.hb := rfl
@[simp] theorem State.onEp_rd (s : State) (f : EpochEng → EpochEng) (a_ : Nat) : (s.onEp f).rd a_ = s.rd a_ := rfl
@[simp] theorem State.onEp_rdN (s : State) (f : EpochEng → EpochEng) (a_ : Nat) : (s.onEp f).rdN a_ = s.rdN a_ := rfl
@[simp] theorem State.onEp_fld (s : State) (f : EpochEng → EpochEng) (a_ lo_ w_ : Nat) : (s.onEp f).fld a_ lo_ w_ = s.fld a_ lo_ w_ := rfl
@[simp] theorem State.onEp_bit (s : State) (f : EpochEng → EpochEng) (a_ k_ : Nat) : (s.onEp f).bit a_ k_ = s.bit a_ k_ := rfl
@[simp] theorem State.onEp_mort (s : State) (f : EpochEng → EpochEng) (m_ : Nat) : (s.onEp f).mort m_ = s.mort m_ := rfl
@[simp] theorem State.onEp_bay (s : State) (f : EpochEng → EpochEng) (b_ : Nat) : (s.onEp f).bay b_ = s.bay b_ := rfl
@[simp] theorem State.onEp_memB (s : State) (f : EpochEng → EpochEng) (a_ : Nat) : (s.onEp f).memB a_ = s.memB a_ := rfl
@[simp] theorem State.onEp_dieOn (s : State) (f : EpochEng → EpochEng)  : (s.onEp f).dieOn = s.dieOn := rfl
@[simp] theorem State.onEp_atOnce (s : State) (f : EpochEng → EpochEng)  : (s.onEp f).atOnce = s.atOnce := rfl

@[simp] theorem State.onFr_pending (s : State) (f : Loader → Loader) : (s.onFr f).pending = s.pending := rfl
@[simp] theorem State.onFr_now (s : State) (f : Loader → Loader) : (s.onFr f).now = s.now := rfl
@[simp] theorem State.onFr_free (s : State) (f : Loader → Loader) : (s.onFr f).free = s.free := rfl
@[simp] theorem State.onFr_grade (s : State) (f : Loader → Loader) : (s.onFr f).grade = s.grade := rfl
@[simp] theorem State.onFr_mode (s : State) (f : Loader → Loader) : (s.onFr f).mode = s.mode := rfl
@[simp] theorem State.onFr_regs (s : State) (f : Loader → Loader) : (s.onFr f).regs = s.regs := rfl
@[simp] theorem State.onFr_mem (s : State) (f : Loader → Loader) : (s.onFr f).mem = s.mem := rfl
@[simp] theorem State.onFr_held (s : State) (f : Loader → Loader) : (s.onFr f).held = s.held := rfl
@[simp] theorem State.onFr_bus (s : State) (f : Loader → Loader) : (s.onFr f).bus = s.bus := rfl
@[simp] theorem State.onFr_tb (s : State) (f : Loader → Loader) : (s.onFr f).tb = s.tb := rfl
@[simp] theorem State.onFr_ep (s : State) (f : Loader → Loader) : (s.onFr f).ep = s.ep := rfl
@[simp] theorem State.onFr_fr (s : State) (f : Loader → Loader) : (s.onFr f).fr = f s.fr := rfl
@[simp] theorem State.onFr_flt (s : State) (f : Loader → Loader) : (s.onFr f).flt = s.flt := rfl
@[simp] theorem State.onFr_mz (s : State) (f : Loader → Loader) : (s.onFr f).mz = s.mz := rfl
@[simp] theorem State.onFr_banks (s : State) (f : Loader → Loader) : (s.onFr f).banks = s.banks := rfl
@[simp] theorem State.onFr_bays (s : State) (f : Loader → Loader) : (s.onFr f).bays = s.bays := rfl
@[simp] theorem State.onFr_gw (s : State) (f : Loader → Loader) : (s.onFr f).gw = s.gw := rfl
@[simp] theorem State.onFr_tab (s : State) (f : Loader → Loader) : (s.onFr f).tab = s.tab := rfl
@[simp] theorem State.onFr_sch (s : State) (f : Loader → Loader) : (s.onFr f).sch = s.sch := rfl
@[simp] theorem State.onFr_ks (s : State) (f : Loader → Loader) : (s.onFr f).ks = s.ks := rfl
@[simp] theorem State.onFr_cp (s : State) (f : Loader → Loader) : (s.onFr f).cp = s.cp := rfl
@[simp] theorem State.onFr_tw (s : State) (f : Loader → Loader) : (s.onFr f).tw = s.tw := rfl
@[simp] theorem State.onFr_wk (s : State) (f : Loader → Loader) : (s.onFr f).wk = s.wk := rfl
@[simp] theorem State.onFr_pw (s : State) (f : Loader → Loader) : (s.onFr f).pw = s.pw := rfl
@[simp] theorem State.onFr_sill (s : State) (f : Loader → Loader) : (s.onFr f).sill = s.sill := rfl
@[simp] theorem State.onFr_hb (s : State) (f : Loader → Loader) : (s.onFr f).hb = s.hb := rfl
@[simp] theorem State.onFr_rd (s : State) (f : Loader → Loader) (a_ : Nat) : (s.onFr f).rd a_ = s.rd a_ := rfl
@[simp] theorem State.onFr_rdN (s : State) (f : Loader → Loader) (a_ : Nat) : (s.onFr f).rdN a_ = s.rdN a_ := rfl
@[simp] theorem State.onFr_fld (s : State) (f : Loader → Loader) (a_ lo_ w_ : Nat) : (s.onFr f).fld a_ lo_ w_ = s.fld a_ lo_ w_ := rfl
@[simp] theorem State.onFr_bit (s : State) (f : Loader → Loader) (a_ k_ : Nat) : (s.onFr f).bit a_ k_ = s.bit a_ k_ := rfl
@[simp] theorem State.onFr_mort (s : State) (f : Loader → Loader) (m_ : Nat) : (s.onFr f).mort m_ = s.mort m_ := rfl
@[simp] theorem State.onFr_bay (s : State) (f : Loader → Loader) (b_ : Nat) : (s.onFr f).bay b_ = s.bay b_ := rfl
@[simp] theorem State.onFr_memB (s : State) (f : Loader → Loader) (a_ : Nat) : (s.onFr f).memB a_ = s.memB a_ := rfl
@[simp] theorem State.onFr_dieOn (s : State) (f : Loader → Loader)  : (s.onFr f).dieOn = s.dieOn := rfl
@[simp] theorem State.onFr_atOnce (s : State) (f : Loader → Loader)  : (s.onFr f).atOnce = s.atOnce := rfl

@[simp] theorem State.onFlt_pending (s : State) (f : FaultMgr → FaultMgr) : (s.onFlt f).pending = s.pending := rfl
@[simp] theorem State.onFlt_now (s : State) (f : FaultMgr → FaultMgr) : (s.onFlt f).now = s.now := rfl
@[simp] theorem State.onFlt_free (s : State) (f : FaultMgr → FaultMgr) : (s.onFlt f).free = s.free := rfl
@[simp] theorem State.onFlt_grade (s : State) (f : FaultMgr → FaultMgr) : (s.onFlt f).grade = s.grade := rfl
@[simp] theorem State.onFlt_mode (s : State) (f : FaultMgr → FaultMgr) : (s.onFlt f).mode = s.mode := rfl
@[simp] theorem State.onFlt_regs (s : State) (f : FaultMgr → FaultMgr) : (s.onFlt f).regs = s.regs := rfl
@[simp] theorem State.onFlt_mem (s : State) (f : FaultMgr → FaultMgr) : (s.onFlt f).mem = s.mem := rfl
@[simp] theorem State.onFlt_held (s : State) (f : FaultMgr → FaultMgr) : (s.onFlt f).held = s.held := rfl
@[simp] theorem State.onFlt_bus (s : State) (f : FaultMgr → FaultMgr) : (s.onFlt f).bus = s.bus := rfl
@[simp] theorem State.onFlt_tb (s : State) (f : FaultMgr → FaultMgr) : (s.onFlt f).tb = s.tb := rfl
@[simp] theorem State.onFlt_ep (s : State) (f : FaultMgr → FaultMgr) : (s.onFlt f).ep = s.ep := rfl
@[simp] theorem State.onFlt_fr (s : State) (f : FaultMgr → FaultMgr) : (s.onFlt f).fr = s.fr := rfl
@[simp] theorem State.onFlt_flt (s : State) (f : FaultMgr → FaultMgr) : (s.onFlt f).flt = f s.flt := rfl
@[simp] theorem State.onFlt_mz (s : State) (f : FaultMgr → FaultMgr) : (s.onFlt f).mz = s.mz := rfl
@[simp] theorem State.onFlt_banks (s : State) (f : FaultMgr → FaultMgr) : (s.onFlt f).banks = s.banks := rfl
@[simp] theorem State.onFlt_bays (s : State) (f : FaultMgr → FaultMgr) : (s.onFlt f).bays = s.bays := rfl
@[simp] theorem State.onFlt_gw (s : State) (f : FaultMgr → FaultMgr) : (s.onFlt f).gw = s.gw := rfl
@[simp] theorem State.onFlt_tab (s : State) (f : FaultMgr → FaultMgr) : (s.onFlt f).tab = s.tab := rfl
@[simp] theorem State.onFlt_sch (s : State) (f : FaultMgr → FaultMgr) : (s.onFlt f).sch = s.sch := rfl
@[simp] theorem State.onFlt_ks (s : State) (f : FaultMgr → FaultMgr) : (s.onFlt f).ks = s.ks := rfl
@[simp] theorem State.onFlt_cp (s : State) (f : FaultMgr → FaultMgr) : (s.onFlt f).cp = s.cp := rfl
@[simp] theorem State.onFlt_tw (s : State) (f : FaultMgr → FaultMgr) : (s.onFlt f).tw = s.tw := rfl
@[simp] theorem State.onFlt_wk (s : State) (f : FaultMgr → FaultMgr) : (s.onFlt f).wk = s.wk := rfl
@[simp] theorem State.onFlt_pw (s : State) (f : FaultMgr → FaultMgr) : (s.onFlt f).pw = s.pw := rfl
@[simp] theorem State.onFlt_sill (s : State) (f : FaultMgr → FaultMgr) : (s.onFlt f).sill = s.sill := rfl
@[simp] theorem State.onFlt_hb (s : State) (f : FaultMgr → FaultMgr) : (s.onFlt f).hb = s.hb := rfl
@[simp] theorem State.onFlt_rd (s : State) (f : FaultMgr → FaultMgr) (a_ : Nat) : (s.onFlt f).rd a_ = s.rd a_ := rfl
@[simp] theorem State.onFlt_rdN (s : State) (f : FaultMgr → FaultMgr) (a_ : Nat) : (s.onFlt f).rdN a_ = s.rdN a_ := rfl
@[simp] theorem State.onFlt_fld (s : State) (f : FaultMgr → FaultMgr) (a_ lo_ w_ : Nat) : (s.onFlt f).fld a_ lo_ w_ = s.fld a_ lo_ w_ := rfl
@[simp] theorem State.onFlt_bit (s : State) (f : FaultMgr → FaultMgr) (a_ k_ : Nat) : (s.onFlt f).bit a_ k_ = s.bit a_ k_ := rfl
@[simp] theorem State.onFlt_mort (s : State) (f : FaultMgr → FaultMgr) (m_ : Nat) : (s.onFlt f).mort m_ = s.mort m_ := rfl
@[simp] theorem State.onFlt_bay (s : State) (f : FaultMgr → FaultMgr) (b_ : Nat) : (s.onFlt f).bay b_ = s.bay b_ := rfl
@[simp] theorem State.onFlt_memB (s : State) (f : FaultMgr → FaultMgr) (a_ : Nat) : (s.onFlt f).memB a_ = s.memB a_ := rfl
@[simp] theorem State.onFlt_dieOn (s : State) (f : FaultMgr → FaultMgr)  : (s.onFlt f).dieOn = s.dieOn := rfl
@[simp] theorem State.onFlt_atOnce (s : State) (f : FaultMgr → FaultMgr)  : (s.onFlt f).atOnce = s.atOnce := rfl

@[simp] theorem State.onGw_pending (s : State) (f : Gateway → Gateway) : (s.onGw f).pending = s.pending := rfl
@[simp] theorem State.onGw_now (s : State) (f : Gateway → Gateway) : (s.onGw f).now = s.now := rfl
@[simp] theorem State.onGw_free (s : State) (f : Gateway → Gateway) : (s.onGw f).free = s.free := rfl
@[simp] theorem State.onGw_grade (s : State) (f : Gateway → Gateway) : (s.onGw f).grade = s.grade := rfl
@[simp] theorem State.onGw_mode (s : State) (f : Gateway → Gateway) : (s.onGw f).mode = s.mode := rfl
@[simp] theorem State.onGw_regs (s : State) (f : Gateway → Gateway) : (s.onGw f).regs = s.regs := rfl
@[simp] theorem State.onGw_mem (s : State) (f : Gateway → Gateway) : (s.onGw f).mem = s.mem := rfl
@[simp] theorem State.onGw_held (s : State) (f : Gateway → Gateway) : (s.onGw f).held = s.held := rfl
@[simp] theorem State.onGw_bus (s : State) (f : Gateway → Gateway) : (s.onGw f).bus = s.bus := rfl
@[simp] theorem State.onGw_tb (s : State) (f : Gateway → Gateway) : (s.onGw f).tb = s.tb := rfl
@[simp] theorem State.onGw_ep (s : State) (f : Gateway → Gateway) : (s.onGw f).ep = s.ep := rfl
@[simp] theorem State.onGw_fr (s : State) (f : Gateway → Gateway) : (s.onGw f).fr = s.fr := rfl
@[simp] theorem State.onGw_flt (s : State) (f : Gateway → Gateway) : (s.onGw f).flt = s.flt := rfl
@[simp] theorem State.onGw_mz (s : State) (f : Gateway → Gateway) : (s.onGw f).mz = s.mz := rfl
@[simp] theorem State.onGw_banks (s : State) (f : Gateway → Gateway) : (s.onGw f).banks = s.banks := rfl
@[simp] theorem State.onGw_bays (s : State) (f : Gateway → Gateway) : (s.onGw f).bays = s.bays := rfl
@[simp] theorem State.onGw_gw (s : State) (f : Gateway → Gateway) : (s.onGw f).gw = f s.gw := rfl
@[simp] theorem State.onGw_tab (s : State) (f : Gateway → Gateway) : (s.onGw f).tab = s.tab := rfl
@[simp] theorem State.onGw_sch (s : State) (f : Gateway → Gateway) : (s.onGw f).sch = s.sch := rfl
@[simp] theorem State.onGw_ks (s : State) (f : Gateway → Gateway) : (s.onGw f).ks = s.ks := rfl
@[simp] theorem State.onGw_cp (s : State) (f : Gateway → Gateway) : (s.onGw f).cp = s.cp := rfl
@[simp] theorem State.onGw_tw (s : State) (f : Gateway → Gateway) : (s.onGw f).tw = s.tw := rfl
@[simp] theorem State.onGw_wk (s : State) (f : Gateway → Gateway) : (s.onGw f).wk = s.wk := rfl
@[simp] theorem State.onGw_pw (s : State) (f : Gateway → Gateway) : (s.onGw f).pw = s.pw := rfl
@[simp] theorem State.onGw_sill (s : State) (f : Gateway → Gateway) : (s.onGw f).sill = s.sill := rfl
@[simp] theorem State.onGw_hb (s : State) (f : Gateway → Gateway) : (s.onGw f).hb = s.hb := rfl
@[simp] theorem State.onGw_rd (s : State) (f : Gateway → Gateway) (a_ : Nat) : (s.onGw f).rd a_ = s.rd a_ := rfl
@[simp] theorem State.onGw_rdN (s : State) (f : Gateway → Gateway) (a_ : Nat) : (s.onGw f).rdN a_ = s.rdN a_ := rfl
@[simp] theorem State.onGw_fld (s : State) (f : Gateway → Gateway) (a_ lo_ w_ : Nat) : (s.onGw f).fld a_ lo_ w_ = s.fld a_ lo_ w_ := rfl
@[simp] theorem State.onGw_bit (s : State) (f : Gateway → Gateway) (a_ k_ : Nat) : (s.onGw f).bit a_ k_ = s.bit a_ k_ := rfl
@[simp] theorem State.onGw_mort (s : State) (f : Gateway → Gateway) (m_ : Nat) : (s.onGw f).mort m_ = s.mort m_ := rfl
@[simp] theorem State.onGw_bay (s : State) (f : Gateway → Gateway) (b_ : Nat) : (s.onGw f).bay b_ = s.bay b_ := rfl
@[simp] theorem State.onGw_memB (s : State) (f : Gateway → Gateway) (a_ : Nat) : (s.onGw f).memB a_ = s.memB a_ := rfl
@[simp] theorem State.onGw_dieOn (s : State) (f : Gateway → Gateway)  : (s.onGw f).dieOn = s.dieOn := rfl
@[simp] theorem State.onGw_atOnce (s : State) (f : Gateway → Gateway)  : (s.onGw f).atOnce = s.atOnce := rfl

@[simp] theorem State.onTab_pending (s : State) (f : Tables → Tables) : (s.onTab f).pending = s.pending := rfl
@[simp] theorem State.onTab_now (s : State) (f : Tables → Tables) : (s.onTab f).now = s.now := rfl
@[simp] theorem State.onTab_free (s : State) (f : Tables → Tables) : (s.onTab f).free = s.free := rfl
@[simp] theorem State.onTab_grade (s : State) (f : Tables → Tables) : (s.onTab f).grade = s.grade := rfl
@[simp] theorem State.onTab_mode (s : State) (f : Tables → Tables) : (s.onTab f).mode = s.mode := rfl
@[simp] theorem State.onTab_regs (s : State) (f : Tables → Tables) : (s.onTab f).regs = s.regs := rfl
@[simp] theorem State.onTab_mem (s : State) (f : Tables → Tables) : (s.onTab f).mem = s.mem := rfl
@[simp] theorem State.onTab_held (s : State) (f : Tables → Tables) : (s.onTab f).held = s.held := rfl
@[simp] theorem State.onTab_bus (s : State) (f : Tables → Tables) : (s.onTab f).bus = s.bus := rfl
@[simp] theorem State.onTab_tb (s : State) (f : Tables → Tables) : (s.onTab f).tb = s.tb := rfl
@[simp] theorem State.onTab_ep (s : State) (f : Tables → Tables) : (s.onTab f).ep = s.ep := rfl
@[simp] theorem State.onTab_fr (s : State) (f : Tables → Tables) : (s.onTab f).fr = s.fr := rfl
@[simp] theorem State.onTab_flt (s : State) (f : Tables → Tables) : (s.onTab f).flt = s.flt := rfl
@[simp] theorem State.onTab_mz (s : State) (f : Tables → Tables) : (s.onTab f).mz = s.mz := rfl
@[simp] theorem State.onTab_banks (s : State) (f : Tables → Tables) : (s.onTab f).banks = s.banks := rfl
@[simp] theorem State.onTab_bays (s : State) (f : Tables → Tables) : (s.onTab f).bays = s.bays := rfl
@[simp] theorem State.onTab_gw (s : State) (f : Tables → Tables) : (s.onTab f).gw = s.gw := rfl
@[simp] theorem State.onTab_tab (s : State) (f : Tables → Tables) : (s.onTab f).tab = f s.tab := rfl
@[simp] theorem State.onTab_sch (s : State) (f : Tables → Tables) : (s.onTab f).sch = s.sch := rfl
@[simp] theorem State.onTab_ks (s : State) (f : Tables → Tables) : (s.onTab f).ks = s.ks := rfl
@[simp] theorem State.onTab_cp (s : State) (f : Tables → Tables) : (s.onTab f).cp = s.cp := rfl
@[simp] theorem State.onTab_tw (s : State) (f : Tables → Tables) : (s.onTab f).tw = s.tw := rfl
@[simp] theorem State.onTab_wk (s : State) (f : Tables → Tables) : (s.onTab f).wk = s.wk := rfl
@[simp] theorem State.onTab_pw (s : State) (f : Tables → Tables) : (s.onTab f).pw = s.pw := rfl
@[simp] theorem State.onTab_sill (s : State) (f : Tables → Tables) : (s.onTab f).sill = s.sill := rfl
@[simp] theorem State.onTab_hb (s : State) (f : Tables → Tables) : (s.onTab f).hb = s.hb := rfl
@[simp] theorem State.onTab_rd (s : State) (f : Tables → Tables) (a_ : Nat) : (s.onTab f).rd a_ = s.rd a_ := rfl
@[simp] theorem State.onTab_rdN (s : State) (f : Tables → Tables) (a_ : Nat) : (s.onTab f).rdN a_ = s.rdN a_ := rfl
@[simp] theorem State.onTab_fld (s : State) (f : Tables → Tables) (a_ lo_ w_ : Nat) : (s.onTab f).fld a_ lo_ w_ = s.fld a_ lo_ w_ := rfl
@[simp] theorem State.onTab_bit (s : State) (f : Tables → Tables) (a_ k_ : Nat) : (s.onTab f).bit a_ k_ = s.bit a_ k_ := rfl
@[simp] theorem State.onTab_mort (s : State) (f : Tables → Tables) (m_ : Nat) : (s.onTab f).mort m_ = s.mort m_ := rfl
@[simp] theorem State.onTab_bay (s : State) (f : Tables → Tables) (b_ : Nat) : (s.onTab f).bay b_ = s.bay b_ := rfl
@[simp] theorem State.onTab_memB (s : State) (f : Tables → Tables) (a_ : Nat) : (s.onTab f).memB a_ = s.memB a_ := rfl
@[simp] theorem State.onTab_dieOn (s : State) (f : Tables → Tables)  : (s.onTab f).dieOn = s.dieOn := rfl
@[simp] theorem State.onTab_atOnce (s : State) (f : Tables → Tables)  : (s.onTab f).atOnce = s.atOnce := rfl

@[simp] theorem State.onSch_pending (s : State) (f : Sched → Sched) : (s.onSch f).pending = s.pending := rfl
@[simp] theorem State.onSch_now (s : State) (f : Sched → Sched) : (s.onSch f).now = s.now := rfl
@[simp] theorem State.onSch_free (s : State) (f : Sched → Sched) : (s.onSch f).free = s.free := rfl
@[simp] theorem State.onSch_grade (s : State) (f : Sched → Sched) : (s.onSch f).grade = s.grade := rfl
@[simp] theorem State.onSch_mode (s : State) (f : Sched → Sched) : (s.onSch f).mode = s.mode := rfl
@[simp] theorem State.onSch_regs (s : State) (f : Sched → Sched) : (s.onSch f).regs = s.regs := rfl
@[simp] theorem State.onSch_mem (s : State) (f : Sched → Sched) : (s.onSch f).mem = s.mem := rfl
@[simp] theorem State.onSch_held (s : State) (f : Sched → Sched) : (s.onSch f).held = s.held := rfl
@[simp] theorem State.onSch_bus (s : State) (f : Sched → Sched) : (s.onSch f).bus = s.bus := rfl
@[simp] theorem State.onSch_tb (s : State) (f : Sched → Sched) : (s.onSch f).tb = s.tb := rfl
@[simp] theorem State.onSch_ep (s : State) (f : Sched → Sched) : (s.onSch f).ep = s.ep := rfl
@[simp] theorem State.onSch_fr (s : State) (f : Sched → Sched) : (s.onSch f).fr = s.fr := rfl
@[simp] theorem State.onSch_flt (s : State) (f : Sched → Sched) : (s.onSch f).flt = s.flt := rfl
@[simp] theorem State.onSch_mz (s : State) (f : Sched → Sched) : (s.onSch f).mz = s.mz := rfl
@[simp] theorem State.onSch_banks (s : State) (f : Sched → Sched) : (s.onSch f).banks = s.banks := rfl
@[simp] theorem State.onSch_bays (s : State) (f : Sched → Sched) : (s.onSch f).bays = s.bays := rfl
@[simp] theorem State.onSch_gw (s : State) (f : Sched → Sched) : (s.onSch f).gw = s.gw := rfl
@[simp] theorem State.onSch_tab (s : State) (f : Sched → Sched) : (s.onSch f).tab = s.tab := rfl
@[simp] theorem State.onSch_sch (s : State) (f : Sched → Sched) : (s.onSch f).sch = f s.sch := rfl
@[simp] theorem State.onSch_ks (s : State) (f : Sched → Sched) : (s.onSch f).ks = s.ks := rfl
@[simp] theorem State.onSch_cp (s : State) (f : Sched → Sched) : (s.onSch f).cp = s.cp := rfl
@[simp] theorem State.onSch_tw (s : State) (f : Sched → Sched) : (s.onSch f).tw = s.tw := rfl
@[simp] theorem State.onSch_wk (s : State) (f : Sched → Sched) : (s.onSch f).wk = s.wk := rfl
@[simp] theorem State.onSch_pw (s : State) (f : Sched → Sched) : (s.onSch f).pw = s.pw := rfl
@[simp] theorem State.onSch_sill (s : State) (f : Sched → Sched) : (s.onSch f).sill = s.sill := rfl
@[simp] theorem State.onSch_hb (s : State) (f : Sched → Sched) : (s.onSch f).hb = s.hb := rfl
@[simp] theorem State.onSch_rd (s : State) (f : Sched → Sched) (a_ : Nat) : (s.onSch f).rd a_ = s.rd a_ := rfl
@[simp] theorem State.onSch_rdN (s : State) (f : Sched → Sched) (a_ : Nat) : (s.onSch f).rdN a_ = s.rdN a_ := rfl
@[simp] theorem State.onSch_fld (s : State) (f : Sched → Sched) (a_ lo_ w_ : Nat) : (s.onSch f).fld a_ lo_ w_ = s.fld a_ lo_ w_ := rfl
@[simp] theorem State.onSch_bit (s : State) (f : Sched → Sched) (a_ k_ : Nat) : (s.onSch f).bit a_ k_ = s.bit a_ k_ := rfl
@[simp] theorem State.onSch_mort (s : State) (f : Sched → Sched) (m_ : Nat) : (s.onSch f).mort m_ = s.mort m_ := rfl
@[simp] theorem State.onSch_bay (s : State) (f : Sched → Sched) (b_ : Nat) : (s.onSch f).bay b_ = s.bay b_ := rfl
@[simp] theorem State.onSch_memB (s : State) (f : Sched → Sched) (a_ : Nat) : (s.onSch f).memB a_ = s.memB a_ := rfl
@[simp] theorem State.onSch_dieOn (s : State) (f : Sched → Sched)  : (s.onSch f).dieOn = s.dieOn := rfl
@[simp] theorem State.onSch_atOnce (s : State) (f : Sched → Sched)  : (s.onSch f).atOnce = s.atOnce := rfl

@[simp] theorem State.onKs_pending (s : State) (f : KeyStore → KeyStore) : (s.onKs f).pending = s.pending := rfl
@[simp] theorem State.onKs_now (s : State) (f : KeyStore → KeyStore) : (s.onKs f).now = s.now := rfl
@[simp] theorem State.onKs_free (s : State) (f : KeyStore → KeyStore) : (s.onKs f).free = s.free := rfl
@[simp] theorem State.onKs_grade (s : State) (f : KeyStore → KeyStore) : (s.onKs f).grade = s.grade := rfl
@[simp] theorem State.onKs_mode (s : State) (f : KeyStore → KeyStore) : (s.onKs f).mode = s.mode := rfl
@[simp] theorem State.onKs_regs (s : State) (f : KeyStore → KeyStore) : (s.onKs f).regs = s.regs := rfl
@[simp] theorem State.onKs_mem (s : State) (f : KeyStore → KeyStore) : (s.onKs f).mem = s.mem := rfl
@[simp] theorem State.onKs_held (s : State) (f : KeyStore → KeyStore) : (s.onKs f).held = s.held := rfl
@[simp] theorem State.onKs_bus (s : State) (f : KeyStore → KeyStore) : (s.onKs f).bus = s.bus := rfl
@[simp] theorem State.onKs_tb (s : State) (f : KeyStore → KeyStore) : (s.onKs f).tb = s.tb := rfl
@[simp] theorem State.onKs_ep (s : State) (f : KeyStore → KeyStore) : (s.onKs f).ep = s.ep := rfl
@[simp] theorem State.onKs_fr (s : State) (f : KeyStore → KeyStore) : (s.onKs f).fr = s.fr := rfl
@[simp] theorem State.onKs_flt (s : State) (f : KeyStore → KeyStore) : (s.onKs f).flt = s.flt := rfl
@[simp] theorem State.onKs_mz (s : State) (f : KeyStore → KeyStore) : (s.onKs f).mz = s.mz := rfl
@[simp] theorem State.onKs_banks (s : State) (f : KeyStore → KeyStore) : (s.onKs f).banks = s.banks := rfl
@[simp] theorem State.onKs_bays (s : State) (f : KeyStore → KeyStore) : (s.onKs f).bays = s.bays := rfl
@[simp] theorem State.onKs_gw (s : State) (f : KeyStore → KeyStore) : (s.onKs f).gw = s.gw := rfl
@[simp] theorem State.onKs_tab (s : State) (f : KeyStore → KeyStore) : (s.onKs f).tab = s.tab := rfl
@[simp] theorem State.onKs_sch (s : State) (f : KeyStore → KeyStore) : (s.onKs f).sch = s.sch := rfl
@[simp] theorem State.onKs_ks (s : State) (f : KeyStore → KeyStore) : (s.onKs f).ks = f s.ks := rfl
@[simp] theorem State.onKs_cp (s : State) (f : KeyStore → KeyStore) : (s.onKs f).cp = s.cp := rfl
@[simp] theorem State.onKs_tw (s : State) (f : KeyStore → KeyStore) : (s.onKs f).tw = s.tw := rfl
@[simp] theorem State.onKs_wk (s : State) (f : KeyStore → KeyStore) : (s.onKs f).wk = s.wk := rfl
@[simp] theorem State.onKs_pw (s : State) (f : KeyStore → KeyStore) : (s.onKs f).pw = s.pw := rfl
@[simp] theorem State.onKs_sill (s : State) (f : KeyStore → KeyStore) : (s.onKs f).sill = s.sill := rfl
@[simp] theorem State.onKs_hb (s : State) (f : KeyStore → KeyStore) : (s.onKs f).hb = s.hb := rfl
@[simp] theorem State.onKs_rd (s : State) (f : KeyStore → KeyStore) (a_ : Nat) : (s.onKs f).rd a_ = s.rd a_ := rfl
@[simp] theorem State.onKs_rdN (s : State) (f : KeyStore → KeyStore) (a_ : Nat) : (s.onKs f).rdN a_ = s.rdN a_ := rfl
@[simp] theorem State.onKs_fld (s : State) (f : KeyStore → KeyStore) (a_ lo_ w_ : Nat) : (s.onKs f).fld a_ lo_ w_ = s.fld a_ lo_ w_ := rfl
@[simp] theorem State.onKs_bit (s : State) (f : KeyStore → KeyStore) (a_ k_ : Nat) : (s.onKs f).bit a_ k_ = s.bit a_ k_ := rfl
@[simp] theorem State.onKs_mort (s : State) (f : KeyStore → KeyStore) (m_ : Nat) : (s.onKs f).mort m_ = s.mort m_ := rfl
@[simp] theorem State.onKs_bay (s : State) (f : KeyStore → KeyStore) (b_ : Nat) : (s.onKs f).bay b_ = s.bay b_ := rfl
@[simp] theorem State.onKs_memB (s : State) (f : KeyStore → KeyStore) (a_ : Nat) : (s.onKs f).memB a_ = s.memB a_ := rfl
@[simp] theorem State.onKs_dieOn (s : State) (f : KeyStore → KeyStore)  : (s.onKs f).dieOn = s.dieOn := rfl
@[simp] theorem State.onKs_atOnce (s : State) (f : KeyStore → KeyStore)  : (s.onKs f).atOnce = s.atOnce := rfl

@[simp] theorem State.onCp_pending (s : State) (f : Cipher → Cipher) : (s.onCp f).pending = s.pending := rfl
@[simp] theorem State.onCp_now (s : State) (f : Cipher → Cipher) : (s.onCp f).now = s.now := rfl
@[simp] theorem State.onCp_free (s : State) (f : Cipher → Cipher) : (s.onCp f).free = s.free := rfl
@[simp] theorem State.onCp_grade (s : State) (f : Cipher → Cipher) : (s.onCp f).grade = s.grade := rfl
@[simp] theorem State.onCp_mode (s : State) (f : Cipher → Cipher) : (s.onCp f).mode = s.mode := rfl
@[simp] theorem State.onCp_regs (s : State) (f : Cipher → Cipher) : (s.onCp f).regs = s.regs := rfl
@[simp] theorem State.onCp_mem (s : State) (f : Cipher → Cipher) : (s.onCp f).mem = s.mem := rfl
@[simp] theorem State.onCp_held (s : State) (f : Cipher → Cipher) : (s.onCp f).held = s.held := rfl
@[simp] theorem State.onCp_bus (s : State) (f : Cipher → Cipher) : (s.onCp f).bus = s.bus := rfl
@[simp] theorem State.onCp_tb (s : State) (f : Cipher → Cipher) : (s.onCp f).tb = s.tb := rfl
@[simp] theorem State.onCp_ep (s : State) (f : Cipher → Cipher) : (s.onCp f).ep = s.ep := rfl
@[simp] theorem State.onCp_fr (s : State) (f : Cipher → Cipher) : (s.onCp f).fr = s.fr := rfl
@[simp] theorem State.onCp_flt (s : State) (f : Cipher → Cipher) : (s.onCp f).flt = s.flt := rfl
@[simp] theorem State.onCp_mz (s : State) (f : Cipher → Cipher) : (s.onCp f).mz = s.mz := rfl
@[simp] theorem State.onCp_banks (s : State) (f : Cipher → Cipher) : (s.onCp f).banks = s.banks := rfl
@[simp] theorem State.onCp_bays (s : State) (f : Cipher → Cipher) : (s.onCp f).bays = s.bays := rfl
@[simp] theorem State.onCp_gw (s : State) (f : Cipher → Cipher) : (s.onCp f).gw = s.gw := rfl
@[simp] theorem State.onCp_tab (s : State) (f : Cipher → Cipher) : (s.onCp f).tab = s.tab := rfl
@[simp] theorem State.onCp_sch (s : State) (f : Cipher → Cipher) : (s.onCp f).sch = s.sch := rfl
@[simp] theorem State.onCp_ks (s : State) (f : Cipher → Cipher) : (s.onCp f).ks = s.ks := rfl
@[simp] theorem State.onCp_cp (s : State) (f : Cipher → Cipher) : (s.onCp f).cp = f s.cp := rfl
@[simp] theorem State.onCp_tw (s : State) (f : Cipher → Cipher) : (s.onCp f).tw = s.tw := rfl
@[simp] theorem State.onCp_wk (s : State) (f : Cipher → Cipher) : (s.onCp f).wk = s.wk := rfl
@[simp] theorem State.onCp_pw (s : State) (f : Cipher → Cipher) : (s.onCp f).pw = s.pw := rfl
@[simp] theorem State.onCp_sill (s : State) (f : Cipher → Cipher) : (s.onCp f).sill = s.sill := rfl
@[simp] theorem State.onCp_hb (s : State) (f : Cipher → Cipher) : (s.onCp f).hb = s.hb := rfl
@[simp] theorem State.onCp_rd (s : State) (f : Cipher → Cipher) (a_ : Nat) : (s.onCp f).rd a_ = s.rd a_ := rfl
@[simp] theorem State.onCp_rdN (s : State) (f : Cipher → Cipher) (a_ : Nat) : (s.onCp f).rdN a_ = s.rdN a_ := rfl
@[simp] theorem State.onCp_fld (s : State) (f : Cipher → Cipher) (a_ lo_ w_ : Nat) : (s.onCp f).fld a_ lo_ w_ = s.fld a_ lo_ w_ := rfl
@[simp] theorem State.onCp_bit (s : State) (f : Cipher → Cipher) (a_ k_ : Nat) : (s.onCp f).bit a_ k_ = s.bit a_ k_ := rfl
@[simp] theorem State.onCp_mort (s : State) (f : Cipher → Cipher) (m_ : Nat) : (s.onCp f).mort m_ = s.mort m_ := rfl
@[simp] theorem State.onCp_bay (s : State) (f : Cipher → Cipher) (b_ : Nat) : (s.onCp f).bay b_ = s.bay b_ := rfl
@[simp] theorem State.onCp_memB (s : State) (f : Cipher → Cipher) (a_ : Nat) : (s.onCp f).memB a_ = s.memB a_ := rfl
@[simp] theorem State.onCp_dieOn (s : State) (f : Cipher → Cipher)  : (s.onCp f).dieOn = s.dieOn := rfl
@[simp] theorem State.onCp_atOnce (s : State) (f : Cipher → Cipher)  : (s.onCp f).atOnce = s.atOnce := rfl

@[simp] theorem State.onTw_pending (s : State) (f : Twin → Twin) : (s.onTw f).pending = s.pending := rfl
@[simp] theorem State.onTw_now (s : State) (f : Twin → Twin) : (s.onTw f).now = s.now := rfl
@[simp] theorem State.onTw_free (s : State) (f : Twin → Twin) : (s.onTw f).free = s.free := rfl
@[simp] theorem State.onTw_grade (s : State) (f : Twin → Twin) : (s.onTw f).grade = s.grade := rfl
@[simp] theorem State.onTw_mode (s : State) (f : Twin → Twin) : (s.onTw f).mode = s.mode := rfl
@[simp] theorem State.onTw_regs (s : State) (f : Twin → Twin) : (s.onTw f).regs = s.regs := rfl
@[simp] theorem State.onTw_mem (s : State) (f : Twin → Twin) : (s.onTw f).mem = s.mem := rfl
@[simp] theorem State.onTw_held (s : State) (f : Twin → Twin) : (s.onTw f).held = s.held := rfl
@[simp] theorem State.onTw_bus (s : State) (f : Twin → Twin) : (s.onTw f).bus = s.bus := rfl
@[simp] theorem State.onTw_tb (s : State) (f : Twin → Twin) : (s.onTw f).tb = s.tb := rfl
@[simp] theorem State.onTw_ep (s : State) (f : Twin → Twin) : (s.onTw f).ep = s.ep := rfl
@[simp] theorem State.onTw_fr (s : State) (f : Twin → Twin) : (s.onTw f).fr = s.fr := rfl
@[simp] theorem State.onTw_flt (s : State) (f : Twin → Twin) : (s.onTw f).flt = s.flt := rfl
@[simp] theorem State.onTw_mz (s : State) (f : Twin → Twin) : (s.onTw f).mz = s.mz := rfl
@[simp] theorem State.onTw_banks (s : State) (f : Twin → Twin) : (s.onTw f).banks = s.banks := rfl
@[simp] theorem State.onTw_bays (s : State) (f : Twin → Twin) : (s.onTw f).bays = s.bays := rfl
@[simp] theorem State.onTw_gw (s : State) (f : Twin → Twin) : (s.onTw f).gw = s.gw := rfl
@[simp] theorem State.onTw_tab (s : State) (f : Twin → Twin) : (s.onTw f).tab = s.tab := rfl
@[simp] theorem State.onTw_sch (s : State) (f : Twin → Twin) : (s.onTw f).sch = s.sch := rfl
@[simp] theorem State.onTw_ks (s : State) (f : Twin → Twin) : (s.onTw f).ks = s.ks := rfl
@[simp] theorem State.onTw_cp (s : State) (f : Twin → Twin) : (s.onTw f).cp = s.cp := rfl
@[simp] theorem State.onTw_tw (s : State) (f : Twin → Twin) : (s.onTw f).tw = f s.tw := rfl
@[simp] theorem State.onTw_wk (s : State) (f : Twin → Twin) : (s.onTw f).wk = s.wk := rfl
@[simp] theorem State.onTw_pw (s : State) (f : Twin → Twin) : (s.onTw f).pw = s.pw := rfl
@[simp] theorem State.onTw_sill (s : State) (f : Twin → Twin) : (s.onTw f).sill = s.sill := rfl
@[simp] theorem State.onTw_hb (s : State) (f : Twin → Twin) : (s.onTw f).hb = s.hb := rfl
@[simp] theorem State.onTw_rd (s : State) (f : Twin → Twin) (a_ : Nat) : (s.onTw f).rd a_ = s.rd a_ := rfl
@[simp] theorem State.onTw_rdN (s : State) (f : Twin → Twin) (a_ : Nat) : (s.onTw f).rdN a_ = s.rdN a_ := rfl
@[simp] theorem State.onTw_fld (s : State) (f : Twin → Twin) (a_ lo_ w_ : Nat) : (s.onTw f).fld a_ lo_ w_ = s.fld a_ lo_ w_ := rfl
@[simp] theorem State.onTw_bit (s : State) (f : Twin → Twin) (a_ k_ : Nat) : (s.onTw f).bit a_ k_ = s.bit a_ k_ := rfl
@[simp] theorem State.onTw_mort (s : State) (f : Twin → Twin) (m_ : Nat) : (s.onTw f).mort m_ = s.mort m_ := rfl
@[simp] theorem State.onTw_bay (s : State) (f : Twin → Twin) (b_ : Nat) : (s.onTw f).bay b_ = s.bay b_ := rfl
@[simp] theorem State.onTw_memB (s : State) (f : Twin → Twin) (a_ : Nat) : (s.onTw f).memB a_ = s.memB a_ := rfl
@[simp] theorem State.onTw_dieOn (s : State) (f : Twin → Twin)  : (s.onTw f).dieOn = s.dieOn := rfl
@[simp] theorem State.onTw_atOnce (s : State) (f : Twin → Twin)  : (s.onTw f).atOnce = s.atOnce := rfl

@[simp] theorem State.onWk_pending (s : State) (f : Wake → Wake) : (s.onWk f).pending = s.pending := rfl
@[simp] theorem State.onWk_now (s : State) (f : Wake → Wake) : (s.onWk f).now = s.now := rfl
@[simp] theorem State.onWk_free (s : State) (f : Wake → Wake) : (s.onWk f).free = s.free := rfl
@[simp] theorem State.onWk_grade (s : State) (f : Wake → Wake) : (s.onWk f).grade = s.grade := rfl
@[simp] theorem State.onWk_mode (s : State) (f : Wake → Wake) : (s.onWk f).mode = s.mode := rfl
@[simp] theorem State.onWk_regs (s : State) (f : Wake → Wake) : (s.onWk f).regs = s.regs := rfl
@[simp] theorem State.onWk_mem (s : State) (f : Wake → Wake) : (s.onWk f).mem = s.mem := rfl
@[simp] theorem State.onWk_held (s : State) (f : Wake → Wake) : (s.onWk f).held = s.held := rfl
@[simp] theorem State.onWk_bus (s : State) (f : Wake → Wake) : (s.onWk f).bus = s.bus := rfl
@[simp] theorem State.onWk_tb (s : State) (f : Wake → Wake) : (s.onWk f).tb = s.tb := rfl
@[simp] theorem State.onWk_ep (s : State) (f : Wake → Wake) : (s.onWk f).ep = s.ep := rfl
@[simp] theorem State.onWk_fr (s : State) (f : Wake → Wake) : (s.onWk f).fr = s.fr := rfl
@[simp] theorem State.onWk_flt (s : State) (f : Wake → Wake) : (s.onWk f).flt = s.flt := rfl
@[simp] theorem State.onWk_mz (s : State) (f : Wake → Wake) : (s.onWk f).mz = s.mz := rfl
@[simp] theorem State.onWk_banks (s : State) (f : Wake → Wake) : (s.onWk f).banks = s.banks := rfl
@[simp] theorem State.onWk_bays (s : State) (f : Wake → Wake) : (s.onWk f).bays = s.bays := rfl
@[simp] theorem State.onWk_gw (s : State) (f : Wake → Wake) : (s.onWk f).gw = s.gw := rfl
@[simp] theorem State.onWk_tab (s : State) (f : Wake → Wake) : (s.onWk f).tab = s.tab := rfl
@[simp] theorem State.onWk_sch (s : State) (f : Wake → Wake) : (s.onWk f).sch = s.sch := rfl
@[simp] theorem State.onWk_ks (s : State) (f : Wake → Wake) : (s.onWk f).ks = s.ks := rfl
@[simp] theorem State.onWk_cp (s : State) (f : Wake → Wake) : (s.onWk f).cp = s.cp := rfl
@[simp] theorem State.onWk_tw (s : State) (f : Wake → Wake) : (s.onWk f).tw = s.tw := rfl
@[simp] theorem State.onWk_wk (s : State) (f : Wake → Wake) : (s.onWk f).wk = f s.wk := rfl
@[simp] theorem State.onWk_pw (s : State) (f : Wake → Wake) : (s.onWk f).pw = s.pw := rfl
@[simp] theorem State.onWk_sill (s : State) (f : Wake → Wake) : (s.onWk f).sill = s.sill := rfl
@[simp] theorem State.onWk_hb (s : State) (f : Wake → Wake) : (s.onWk f).hb = s.hb := rfl
@[simp] theorem State.onWk_rd (s : State) (f : Wake → Wake) (a_ : Nat) : (s.onWk f).rd a_ = s.rd a_ := rfl
@[simp] theorem State.onWk_rdN (s : State) (f : Wake → Wake) (a_ : Nat) : (s.onWk f).rdN a_ = s.rdN a_ := rfl
@[simp] theorem State.onWk_fld (s : State) (f : Wake → Wake) (a_ lo_ w_ : Nat) : (s.onWk f).fld a_ lo_ w_ = s.fld a_ lo_ w_ := rfl
@[simp] theorem State.onWk_bit (s : State) (f : Wake → Wake) (a_ k_ : Nat) : (s.onWk f).bit a_ k_ = s.bit a_ k_ := rfl
@[simp] theorem State.onWk_mort (s : State) (f : Wake → Wake) (m_ : Nat) : (s.onWk f).mort m_ = s.mort m_ := rfl
@[simp] theorem State.onWk_bay (s : State) (f : Wake → Wake) (b_ : Nat) : (s.onWk f).bay b_ = s.bay b_ := rfl
@[simp] theorem State.onWk_memB (s : State) (f : Wake → Wake) (a_ : Nat) : (s.onWk f).memB a_ = s.memB a_ := rfl
@[simp] theorem State.onWk_dieOn (s : State) (f : Wake → Wake)  : (s.onWk f).dieOn = s.dieOn := rfl
@[simp] theorem State.onWk_atOnce (s : State) (f : Wake → Wake)  : (s.onWk f).atOnce = s.atOnce := rfl

@[simp] theorem State.onPw_pending (s : State) (f : KingPost → KingPost) : (s.onPw f).pending = s.pending := rfl
@[simp] theorem State.onPw_now (s : State) (f : KingPost → KingPost) : (s.onPw f).now = s.now := rfl
@[simp] theorem State.onPw_free (s : State) (f : KingPost → KingPost) : (s.onPw f).free = s.free := rfl
@[simp] theorem State.onPw_grade (s : State) (f : KingPost → KingPost) : (s.onPw f).grade = s.grade := rfl
@[simp] theorem State.onPw_mode (s : State) (f : KingPost → KingPost) : (s.onPw f).mode = s.mode := rfl
@[simp] theorem State.onPw_regs (s : State) (f : KingPost → KingPost) : (s.onPw f).regs = s.regs := rfl
@[simp] theorem State.onPw_mem (s : State) (f : KingPost → KingPost) : (s.onPw f).mem = s.mem := rfl
@[simp] theorem State.onPw_held (s : State) (f : KingPost → KingPost) : (s.onPw f).held = s.held := rfl
@[simp] theorem State.onPw_bus (s : State) (f : KingPost → KingPost) : (s.onPw f).bus = s.bus := rfl
@[simp] theorem State.onPw_tb (s : State) (f : KingPost → KingPost) : (s.onPw f).tb = s.tb := rfl
@[simp] theorem State.onPw_ep (s : State) (f : KingPost → KingPost) : (s.onPw f).ep = s.ep := rfl
@[simp] theorem State.onPw_fr (s : State) (f : KingPost → KingPost) : (s.onPw f).fr = s.fr := rfl
@[simp] theorem State.onPw_flt (s : State) (f : KingPost → KingPost) : (s.onPw f).flt = s.flt := rfl
@[simp] theorem State.onPw_mz (s : State) (f : KingPost → KingPost) : (s.onPw f).mz = s.mz := rfl
@[simp] theorem State.onPw_banks (s : State) (f : KingPost → KingPost) : (s.onPw f).banks = s.banks := rfl
@[simp] theorem State.onPw_bays (s : State) (f : KingPost → KingPost) : (s.onPw f).bays = s.bays := rfl
@[simp] theorem State.onPw_gw (s : State) (f : KingPost → KingPost) : (s.onPw f).gw = s.gw := rfl
@[simp] theorem State.onPw_tab (s : State) (f : KingPost → KingPost) : (s.onPw f).tab = s.tab := rfl
@[simp] theorem State.onPw_sch (s : State) (f : KingPost → KingPost) : (s.onPw f).sch = s.sch := rfl
@[simp] theorem State.onPw_ks (s : State) (f : KingPost → KingPost) : (s.onPw f).ks = s.ks := rfl
@[simp] theorem State.onPw_cp (s : State) (f : KingPost → KingPost) : (s.onPw f).cp = s.cp := rfl
@[simp] theorem State.onPw_tw (s : State) (f : KingPost → KingPost) : (s.onPw f).tw = s.tw := rfl
@[simp] theorem State.onPw_wk (s : State) (f : KingPost → KingPost) : (s.onPw f).wk = s.wk := rfl
@[simp] theorem State.onPw_pw (s : State) (f : KingPost → KingPost) : (s.onPw f).pw = f s.pw := rfl
@[simp] theorem State.onPw_sill (s : State) (f : KingPost → KingPost) : (s.onPw f).sill = s.sill := rfl
@[simp] theorem State.onPw_hb (s : State) (f : KingPost → KingPost) : (s.onPw f).hb = s.hb := rfl
@[simp] theorem State.onPw_rd (s : State) (f : KingPost → KingPost) (a_ : Nat) : (s.onPw f).rd a_ = s.rd a_ := rfl
@[simp] theorem State.onPw_rdN (s : State) (f : KingPost → KingPost) (a_ : Nat) : (s.onPw f).rdN a_ = s.rdN a_ := rfl
@[simp] theorem State.onPw_fld (s : State) (f : KingPost → KingPost) (a_ lo_ w_ : Nat) : (s.onPw f).fld a_ lo_ w_ = s.fld a_ lo_ w_ := rfl
@[simp] theorem State.onPw_bit (s : State) (f : KingPost → KingPost) (a_ k_ : Nat) : (s.onPw f).bit a_ k_ = s.bit a_ k_ := rfl
@[simp] theorem State.onPw_mort (s : State) (f : KingPost → KingPost) (m_ : Nat) : (s.onPw f).mort m_ = s.mort m_ := rfl
@[simp] theorem State.onPw_bay (s : State) (f : KingPost → KingPost) (b_ : Nat) : (s.onPw f).bay b_ = s.bay b_ := rfl
@[simp] theorem State.onPw_memB (s : State) (f : KingPost → KingPost) (a_ : Nat) : (s.onPw f).memB a_ = s.memB a_ := rfl
@[simp] theorem State.onPw_dieOn (s : State) (f : KingPost → KingPost)  : (s.onPw f).dieOn = s.dieOn := rfl
@[simp] theorem State.onPw_atOnce (s : State) (f : KingPost → KingPost)  : (s.onPw f).atOnce = s.atOnce := rfl

@[simp] theorem State.onSill_pending (s : State) (f : SillDie → SillDie) : (s.onSill f).pending = s.pending := rfl
@[simp] theorem State.onSill_now (s : State) (f : SillDie → SillDie) : (s.onSill f).now = s.now := rfl
@[simp] theorem State.onSill_free (s : State) (f : SillDie → SillDie) : (s.onSill f).free = s.free := rfl
@[simp] theorem State.onSill_grade (s : State) (f : SillDie → SillDie) : (s.onSill f).grade = s.grade := rfl
@[simp] theorem State.onSill_mode (s : State) (f : SillDie → SillDie) : (s.onSill f).mode = s.mode := rfl
@[simp] theorem State.onSill_regs (s : State) (f : SillDie → SillDie) : (s.onSill f).regs = s.regs := rfl
@[simp] theorem State.onSill_mem (s : State) (f : SillDie → SillDie) : (s.onSill f).mem = s.mem := rfl
@[simp] theorem State.onSill_held (s : State) (f : SillDie → SillDie) : (s.onSill f).held = s.held := rfl
@[simp] theorem State.onSill_bus (s : State) (f : SillDie → SillDie) : (s.onSill f).bus = s.bus := rfl
@[simp] theorem State.onSill_tb (s : State) (f : SillDie → SillDie) : (s.onSill f).tb = s.tb := rfl
@[simp] theorem State.onSill_ep (s : State) (f : SillDie → SillDie) : (s.onSill f).ep = s.ep := rfl
@[simp] theorem State.onSill_fr (s : State) (f : SillDie → SillDie) : (s.onSill f).fr = s.fr := rfl
@[simp] theorem State.onSill_flt (s : State) (f : SillDie → SillDie) : (s.onSill f).flt = s.flt := rfl
@[simp] theorem State.onSill_mz (s : State) (f : SillDie → SillDie) : (s.onSill f).mz = s.mz := rfl
@[simp] theorem State.onSill_banks (s : State) (f : SillDie → SillDie) : (s.onSill f).banks = s.banks := rfl
@[simp] theorem State.onSill_bays (s : State) (f : SillDie → SillDie) : (s.onSill f).bays = s.bays := rfl
@[simp] theorem State.onSill_gw (s : State) (f : SillDie → SillDie) : (s.onSill f).gw = s.gw := rfl
@[simp] theorem State.onSill_tab (s : State) (f : SillDie → SillDie) : (s.onSill f).tab = s.tab := rfl
@[simp] theorem State.onSill_sch (s : State) (f : SillDie → SillDie) : (s.onSill f).sch = s.sch := rfl
@[simp] theorem State.onSill_ks (s : State) (f : SillDie → SillDie) : (s.onSill f).ks = s.ks := rfl
@[simp] theorem State.onSill_cp (s : State) (f : SillDie → SillDie) : (s.onSill f).cp = s.cp := rfl
@[simp] theorem State.onSill_tw (s : State) (f : SillDie → SillDie) : (s.onSill f).tw = s.tw := rfl
@[simp] theorem State.onSill_wk (s : State) (f : SillDie → SillDie) : (s.onSill f).wk = s.wk := rfl
@[simp] theorem State.onSill_pw (s : State) (f : SillDie → SillDie) : (s.onSill f).pw = s.pw := rfl
@[simp] theorem State.onSill_sill (s : State) (f : SillDie → SillDie) : (s.onSill f).sill = f s.sill := rfl
@[simp] theorem State.onSill_hb (s : State) (f : SillDie → SillDie) : (s.onSill f).hb = s.hb := rfl
@[simp] theorem State.onSill_rd (s : State) (f : SillDie → SillDie) (a_ : Nat) : (s.onSill f).rd a_ = s.rd a_ := rfl
@[simp] theorem State.onSill_rdN (s : State) (f : SillDie → SillDie) (a_ : Nat) : (s.onSill f).rdN a_ = s.rdN a_ := rfl
@[simp] theorem State.onSill_fld (s : State) (f : SillDie → SillDie) (a_ lo_ w_ : Nat) : (s.onSill f).fld a_ lo_ w_ = s.fld a_ lo_ w_ := rfl
@[simp] theorem State.onSill_bit (s : State) (f : SillDie → SillDie) (a_ k_ : Nat) : (s.onSill f).bit a_ k_ = s.bit a_ k_ := rfl
@[simp] theorem State.onSill_mort (s : State) (f : SillDie → SillDie) (m_ : Nat) : (s.onSill f).mort m_ = s.mort m_ := rfl
@[simp] theorem State.onSill_bay (s : State) (f : SillDie → SillDie) (b_ : Nat) : (s.onSill f).bay b_ = s.bay b_ := rfl
@[simp] theorem State.onSill_memB (s : State) (f : SillDie → SillDie) (a_ : Nat) : (s.onSill f).memB a_ = s.memB a_ := rfl
@[simp] theorem State.onSill_atOnce (s : State) (f : SillDie → SillDie)  : (s.onSill f).atOnce = s.atOnce := rfl

@[simp] theorem State.onHb_pending (s : State) (f : Bridge → Bridge) : (s.onHb f).pending = s.pending := rfl
@[simp] theorem State.onHb_now (s : State) (f : Bridge → Bridge) : (s.onHb f).now = s.now := rfl
@[simp] theorem State.onHb_free (s : State) (f : Bridge → Bridge) : (s.onHb f).free = s.free := rfl
@[simp] theorem State.onHb_grade (s : State) (f : Bridge → Bridge) : (s.onHb f).grade = s.grade := rfl
@[simp] theorem State.onHb_mode (s : State) (f : Bridge → Bridge) : (s.onHb f).mode = s.mode := rfl
@[simp] theorem State.onHb_regs (s : State) (f : Bridge → Bridge) : (s.onHb f).regs = s.regs := rfl
@[simp] theorem State.onHb_mem (s : State) (f : Bridge → Bridge) : (s.onHb f).mem = s.mem := rfl
@[simp] theorem State.onHb_held (s : State) (f : Bridge → Bridge) : (s.onHb f).held = s.held := rfl
@[simp] theorem State.onHb_bus (s : State) (f : Bridge → Bridge) : (s.onHb f).bus = s.bus := rfl
@[simp] theorem State.onHb_tb (s : State) (f : Bridge → Bridge) : (s.onHb f).tb = s.tb := rfl
@[simp] theorem State.onHb_ep (s : State) (f : Bridge → Bridge) : (s.onHb f).ep = s.ep := rfl
@[simp] theorem State.onHb_fr (s : State) (f : Bridge → Bridge) : (s.onHb f).fr = s.fr := rfl
@[simp] theorem State.onHb_flt (s : State) (f : Bridge → Bridge) : (s.onHb f).flt = s.flt := rfl
@[simp] theorem State.onHb_mz (s : State) (f : Bridge → Bridge) : (s.onHb f).mz = s.mz := rfl
@[simp] theorem State.onHb_banks (s : State) (f : Bridge → Bridge) : (s.onHb f).banks = s.banks := rfl
@[simp] theorem State.onHb_bays (s : State) (f : Bridge → Bridge) : (s.onHb f).bays = s.bays := rfl
@[simp] theorem State.onHb_gw (s : State) (f : Bridge → Bridge) : (s.onHb f).gw = s.gw := rfl
@[simp] theorem State.onHb_tab (s : State) (f : Bridge → Bridge) : (s.onHb f).tab = s.tab := rfl
@[simp] theorem State.onHb_sch (s : State) (f : Bridge → Bridge) : (s.onHb f).sch = s.sch := rfl
@[simp] theorem State.onHb_ks (s : State) (f : Bridge → Bridge) : (s.onHb f).ks = s.ks := rfl
@[simp] theorem State.onHb_cp (s : State) (f : Bridge → Bridge) : (s.onHb f).cp = s.cp := rfl
@[simp] theorem State.onHb_tw (s : State) (f : Bridge → Bridge) : (s.onHb f).tw = s.tw := rfl
@[simp] theorem State.onHb_wk (s : State) (f : Bridge → Bridge) : (s.onHb f).wk = s.wk := rfl
@[simp] theorem State.onHb_pw (s : State) (f : Bridge → Bridge) : (s.onHb f).pw = s.pw := rfl
@[simp] theorem State.onHb_sill (s : State) (f : Bridge → Bridge) : (s.onHb f).sill = s.sill := rfl
@[simp] theorem State.onHb_hb (s : State) (f : Bridge → Bridge) : (s.onHb f).hb = f s.hb := rfl
@[simp] theorem State.onHb_rd (s : State) (f : Bridge → Bridge) (a_ : Nat) : (s.onHb f).rd a_ = s.rd a_ := rfl
@[simp] theorem State.onHb_rdN (s : State) (f : Bridge → Bridge) (a_ : Nat) : (s.onHb f).rdN a_ = s.rdN a_ := rfl
@[simp] theorem State.onHb_fld (s : State) (f : Bridge → Bridge) (a_ lo_ w_ : Nat) : (s.onHb f).fld a_ lo_ w_ = s.fld a_ lo_ w_ := rfl
@[simp] theorem State.onHb_bit (s : State) (f : Bridge → Bridge) (a_ k_ : Nat) : (s.onHb f).bit a_ k_ = s.bit a_ k_ := rfl
@[simp] theorem State.onHb_mort (s : State) (f : Bridge → Bridge) (m_ : Nat) : (s.onHb f).mort m_ = s.mort m_ := rfl
@[simp] theorem State.onHb_bay (s : State) (f : Bridge → Bridge) (b_ : Nat) : (s.onHb f).bay b_ = s.bay b_ := rfl
@[simp] theorem State.onHb_memB (s : State) (f : Bridge → Bridge) (a_ : Nat) : (s.onHb f).memB a_ = s.memB a_ := rfl
@[simp] theorem State.onHb_dieOn (s : State) (f : Bridge → Bridge)  : (s.onHb f).dieOn = s.dieOn := rfl
@[simp] theorem State.onHb_atOnce (s : State) (f : Bridge → Bridge)  : (s.onHb f).atOnce = s.atOnce := rfl

@[simp] theorem State.onBus_pending (s : State) (f : Bus → Bus) : (s.onBus f).pending = s.pending := rfl
@[simp] theorem State.onBus_now (s : State) (f : Bus → Bus) : (s.onBus f).now = s.now := rfl
@[simp] theorem State.onBus_free (s : State) (f : Bus → Bus) : (s.onBus f).free = s.free := rfl
@[simp] theorem State.onBus_grade (s : State) (f : Bus → Bus) : (s.onBus f).grade = s.grade := rfl
@[simp] theorem State.onBus_mode (s : State) (f : Bus → Bus) : (s.onBus f).mode = s.mode := rfl
@[simp] theorem State.onBus_regs (s : State) (f : Bus → Bus) : (s.onBus f).regs = s.regs := rfl
@[simp] theorem State.onBus_mem (s : State) (f : Bus → Bus) : (s.onBus f).mem = s.mem := rfl
@[simp] theorem State.onBus_held (s : State) (f : Bus → Bus) : (s.onBus f).held = s.held := rfl
@[simp] theorem State.onBus_bus (s : State) (f : Bus → Bus) : (s.onBus f).bus = f s.bus := rfl
@[simp] theorem State.onBus_tb (s : State) (f : Bus → Bus) : (s.onBus f).tb = s.tb := rfl
@[simp] theorem State.onBus_ep (s : State) (f : Bus → Bus) : (s.onBus f).ep = s.ep := rfl
@[simp] theorem State.onBus_fr (s : State) (f : Bus → Bus) : (s.onBus f).fr = s.fr := rfl
@[simp] theorem State.onBus_flt (s : State) (f : Bus → Bus) : (s.onBus f).flt = s.flt := rfl
@[simp] theorem State.onBus_mz (s : State) (f : Bus → Bus) : (s.onBus f).mz = s.mz := rfl
@[simp] theorem State.onBus_banks (s : State) (f : Bus → Bus) : (s.onBus f).banks = s.banks := rfl
@[simp] theorem State.onBus_bays (s : State) (f : Bus → Bus) : (s.onBus f).bays = s.bays := rfl
@[simp] theorem State.onBus_gw (s : State) (f : Bus → Bus) : (s.onBus f).gw = s.gw := rfl
@[simp] theorem State.onBus_tab (s : State) (f : Bus → Bus) : (s.onBus f).tab = s.tab := rfl
@[simp] theorem State.onBus_sch (s : State) (f : Bus → Bus) : (s.onBus f).sch = s.sch := rfl
@[simp] theorem State.onBus_ks (s : State) (f : Bus → Bus) : (s.onBus f).ks = s.ks := rfl
@[simp] theorem State.onBus_cp (s : State) (f : Bus → Bus) : (s.onBus f).cp = s.cp := rfl
@[simp] theorem State.onBus_tw (s : State) (f : Bus → Bus) : (s.onBus f).tw = s.tw := rfl
@[simp] theorem State.onBus_wk (s : State) (f : Bus → Bus) : (s.onBus f).wk = s.wk := rfl
@[simp] theorem State.onBus_pw (s : State) (f : Bus → Bus) : (s.onBus f).pw = s.pw := rfl
@[simp] theorem State.onBus_sill (s : State) (f : Bus → Bus) : (s.onBus f).sill = s.sill := rfl
@[simp] theorem State.onBus_hb (s : State) (f : Bus → Bus) : (s.onBus f).hb = s.hb := rfl
@[simp] theorem State.onBus_rd (s : State) (f : Bus → Bus) (a_ : Nat) : (s.onBus f).rd a_ = s.rd a_ := rfl
@[simp] theorem State.onBus_rdN (s : State) (f : Bus → Bus) (a_ : Nat) : (s.onBus f).rdN a_ = s.rdN a_ := rfl
@[simp] theorem State.onBus_fld (s : State) (f : Bus → Bus) (a_ lo_ w_ : Nat) : (s.onBus f).fld a_ lo_ w_ = s.fld a_ lo_ w_ := rfl
@[simp] theorem State.onBus_bit (s : State) (f : Bus → Bus) (a_ k_ : Nat) : (s.onBus f).bit a_ k_ = s.bit a_ k_ := rfl
@[simp] theorem State.onBus_mort (s : State) (f : Bus → Bus) (m_ : Nat) : (s.onBus f).mort m_ = s.mort m_ := rfl
@[simp] theorem State.onBus_bay (s : State) (f : Bus → Bus) (b_ : Nat) : (s.onBus f).bay b_ = s.bay b_ := rfl
@[simp] theorem State.onBus_memB (s : State) (f : Bus → Bus) (a_ : Nat) : (s.onBus f).memB a_ = s.memB a_ := rfl
@[simp] theorem State.onBus_dieOn (s : State) (f : Bus → Bus)  : (s.onBus f).dieOn = s.dieOn := rfl
@[simp] theorem State.onBus_atOnce (s : State) (f : Bus → Bus)  : (s.onBus f).atOnce = s.atOnce := rfl

@[simp] theorem State.onMort_pending (s : State) (m : Nat) (f : Mortise → Mortise) : (s.onMort m f).pending = s.pending := rfl
@[simp] theorem State.onMort_now (s : State) (m : Nat) (f : Mortise → Mortise) : (s.onMort m f).now = s.now := rfl
@[simp] theorem State.onMort_free (s : State) (m : Nat) (f : Mortise → Mortise) : (s.onMort m f).free = s.free := rfl
@[simp] theorem State.onMort_grade (s : State) (m : Nat) (f : Mortise → Mortise) : (s.onMort m f).grade = s.grade := rfl
@[simp] theorem State.onMort_mode (s : State) (m : Nat) (f : Mortise → Mortise) : (s.onMort m f).mode = s.mode := rfl
@[simp] theorem State.onMort_regs (s : State) (m : Nat) (f : Mortise → Mortise) : (s.onMort m f).regs = s.regs := rfl
@[simp] theorem State.onMort_mem (s : State) (m : Nat) (f : Mortise → Mortise) : (s.onMort m f).mem = s.mem := rfl
@[simp] theorem State.onMort_held (s : State) (m : Nat) (f : Mortise → Mortise) : (s.onMort m f).held = s.held := rfl
@[simp] theorem State.onMort_bus (s : State) (m : Nat) (f : Mortise → Mortise) : (s.onMort m f).bus = s.bus := rfl
@[simp] theorem State.onMort_tb (s : State) (m : Nat) (f : Mortise → Mortise) : (s.onMort m f).tb = s.tb := rfl
@[simp] theorem State.onMort_ep (s : State) (m : Nat) (f : Mortise → Mortise) : (s.onMort m f).ep = s.ep := rfl
@[simp] theorem State.onMort_fr (s : State) (m : Nat) (f : Mortise → Mortise) : (s.onMort m f).fr = s.fr := rfl
@[simp] theorem State.onMort_flt (s : State) (m : Nat) (f : Mortise → Mortise) : (s.onMort m f).flt = s.flt := rfl
@[simp] theorem State.onMort_mz (s : State) (m : Nat) (f : Mortise → Mortise) : (s.onMort m f).mz = updAt s.mz m f := rfl
@[simp] theorem State.onMort_banks (s : State) (m : Nat) (f : Mortise → Mortise) : (s.onMort m f).banks = s.banks := rfl
@[simp] theorem State.onMort_bays (s : State) (m : Nat) (f : Mortise → Mortise) : (s.onMort m f).bays = s.bays := rfl
@[simp] theorem State.onMort_gw (s : State) (m : Nat) (f : Mortise → Mortise) : (s.onMort m f).gw = s.gw := rfl
@[simp] theorem State.onMort_tab (s : State) (m : Nat) (f : Mortise → Mortise) : (s.onMort m f).tab = s.tab := rfl
@[simp] theorem State.onMort_sch (s : State) (m : Nat) (f : Mortise → Mortise) : (s.onMort m f).sch = s.sch := rfl
@[simp] theorem State.onMort_ks (s : State) (m : Nat) (f : Mortise → Mortise) : (s.onMort m f).ks = s.ks := rfl
@[simp] theorem State.onMort_cp (s : State) (m : Nat) (f : Mortise → Mortise) : (s.onMort m f).cp = s.cp := rfl
@[simp] theorem State.onMort_tw (s : State) (m : Nat) (f : Mortise → Mortise) : (s.onMort m f).tw = s.tw := rfl
@[simp] theorem State.onMort_wk (s : State) (m : Nat) (f : Mortise → Mortise) : (s.onMort m f).wk = s.wk := rfl
@[simp] theorem State.onMort_pw (s : State) (m : Nat) (f : Mortise → Mortise) : (s.onMort m f).pw = s.pw := rfl
@[simp] theorem State.onMort_sill (s : State) (m : Nat) (f : Mortise → Mortise) : (s.onMort m f).sill = s.sill := rfl
@[simp] theorem State.onMort_hb (s : State) (m : Nat) (f : Mortise → Mortise) : (s.onMort m f).hb = s.hb := rfl
@[simp] theorem State.onMort_rd (s : State) (m : Nat) (f : Mortise → Mortise) (a_ : Nat) : (s.onMort m f).rd a_ = s.rd a_ := rfl
@[simp] theorem State.onMort_rdN (s : State) (m : Nat) (f : Mortise → Mortise) (a_ : Nat) : (s.onMort m f).rdN a_ = s.rdN a_ := rfl
@[simp] theorem State.onMort_fld (s : State) (m : Nat) (f : Mortise → Mortise) (a_ lo_ w_ : Nat) : (s.onMort m f).fld a_ lo_ w_ = s.fld a_ lo_ w_ := rfl
@[simp] theorem State.onMort_bit (s : State) (m : Nat) (f : Mortise → Mortise) (a_ k_ : Nat) : (s.onMort m f).bit a_ k_ = s.bit a_ k_ := rfl
@[simp] theorem State.onMort_bay (s : State) (m : Nat) (f : Mortise → Mortise) (b_ : Nat) : (s.onMort m f).bay b_ = s.bay b_ := rfl
@[simp] theorem State.onMort_memB (s : State) (m : Nat) (f : Mortise → Mortise) (a_ : Nat) : (s.onMort m f).memB a_ = s.memB a_ := rfl
@[simp] theorem State.onMort_dieOn (s : State) (m : Nat) (f : Mortise → Mortise)  : (s.onMort m f).dieOn = s.dieOn := rfl
@[simp] theorem State.onMort_atOnce (s : State) (m : Nat) (f : Mortise → Mortise)  : (s.onMort m f).atOnce = s.atOnce := rfl

@[simp] theorem State.onBay_pending (s : State) (b : Nat) (f : Bay → Bay) : (s.onBay b f).pending = s.pending := rfl
@[simp] theorem State.onBay_now (s : State) (b : Nat) (f : Bay → Bay) : (s.onBay b f).now = s.now := rfl
@[simp] theorem State.onBay_free (s : State) (b : Nat) (f : Bay → Bay) : (s.onBay b f).free = s.free := rfl
@[simp] theorem State.onBay_grade (s : State) (b : Nat) (f : Bay → Bay) : (s.onBay b f).grade = s.grade := rfl
@[simp] theorem State.onBay_mode (s : State) (b : Nat) (f : Bay → Bay) : (s.onBay b f).mode = s.mode := rfl
@[simp] theorem State.onBay_regs (s : State) (b : Nat) (f : Bay → Bay) : (s.onBay b f).regs = s.regs := rfl
@[simp] theorem State.onBay_mem (s : State) (b : Nat) (f : Bay → Bay) : (s.onBay b f).mem = s.mem := rfl
@[simp] theorem State.onBay_held (s : State) (b : Nat) (f : Bay → Bay) : (s.onBay b f).held = s.held := rfl
@[simp] theorem State.onBay_bus (s : State) (b : Nat) (f : Bay → Bay) : (s.onBay b f).bus = s.bus := rfl
@[simp] theorem State.onBay_tb (s : State) (b : Nat) (f : Bay → Bay) : (s.onBay b f).tb = s.tb := rfl
@[simp] theorem State.onBay_ep (s : State) (b : Nat) (f : Bay → Bay) : (s.onBay b f).ep = s.ep := rfl
@[simp] theorem State.onBay_fr (s : State) (b : Nat) (f : Bay → Bay) : (s.onBay b f).fr = s.fr := rfl
@[simp] theorem State.onBay_flt (s : State) (b : Nat) (f : Bay → Bay) : (s.onBay b f).flt = s.flt := rfl
@[simp] theorem State.onBay_mz (s : State) (b : Nat) (f : Bay → Bay) : (s.onBay b f).mz = s.mz := rfl
@[simp] theorem State.onBay_banks (s : State) (b : Nat) (f : Bay → Bay) : (s.onBay b f).banks = s.banks := rfl
@[simp] theorem State.onBay_bays (s : State) (b : Nat) (f : Bay → Bay) : (s.onBay b f).bays = updAt s.bays b f := rfl
@[simp] theorem State.onBay_gw (s : State) (b : Nat) (f : Bay → Bay) : (s.onBay b f).gw = s.gw := rfl
@[simp] theorem State.onBay_tab (s : State) (b : Nat) (f : Bay → Bay) : (s.onBay b f).tab = s.tab := rfl
@[simp] theorem State.onBay_sch (s : State) (b : Nat) (f : Bay → Bay) : (s.onBay b f).sch = s.sch := rfl
@[simp] theorem State.onBay_ks (s : State) (b : Nat) (f : Bay → Bay) : (s.onBay b f).ks = s.ks := rfl
@[simp] theorem State.onBay_cp (s : State) (b : Nat) (f : Bay → Bay) : (s.onBay b f).cp = s.cp := rfl
@[simp] theorem State.onBay_tw (s : State) (b : Nat) (f : Bay → Bay) : (s.onBay b f).tw = s.tw := rfl
@[simp] theorem State.onBay_wk (s : State) (b : Nat) (f : Bay → Bay) : (s.onBay b f).wk = s.wk := rfl
@[simp] theorem State.onBay_pw (s : State) (b : Nat) (f : Bay → Bay) : (s.onBay b f).pw = s.pw := rfl
@[simp] theorem State.onBay_sill (s : State) (b : Nat) (f : Bay → Bay) : (s.onBay b f).sill = s.sill := rfl
@[simp] theorem State.onBay_hb (s : State) (b : Nat) (f : Bay → Bay) : (s.onBay b f).hb = s.hb := rfl
@[simp] theorem State.onBay_rd (s : State) (b : Nat) (f : Bay → Bay) (a_ : Nat) : (s.onBay b f).rd a_ = s.rd a_ := rfl
@[simp] theorem State.onBay_rdN (s : State) (b : Nat) (f : Bay → Bay) (a_ : Nat) : (s.onBay b f).rdN a_ = s.rdN a_ := rfl
@[simp] theorem State.onBay_fld (s : State) (b : Nat) (f : Bay → Bay) (a_ lo_ w_ : Nat) : (s.onBay b f).fld a_ lo_ w_ = s.fld a_ lo_ w_ := rfl
@[simp] theorem State.onBay_bit (s : State) (b : Nat) (f : Bay → Bay) (a_ k_ : Nat) : (s.onBay b f).bit a_ k_ = s.bit a_ k_ := rfl
@[simp] theorem State.onBay_mort (s : State) (b : Nat) (f : Bay → Bay) (m_ : Nat) : (s.onBay b f).mort m_ = s.mort m_ := rfl
@[simp] theorem State.onBay_memB (s : State) (b : Nat) (f : Bay → Bay) (a_ : Nat) : (s.onBay b f).memB a_ = s.memB a_ := rfl
@[simp] theorem State.onBay_dieOn (s : State) (b : Nat) (f : Bay → Bay)  : (s.onBay b f).dieOn = s.dieOn := rfl
@[simp] theorem State.onBay_atOnce (s : State) (b : Nat) (f : Bay → Bay)  : (s.onBay b f).atOnce = s.atOnce := rfl

@[simp] theorem State.wr_pending (s : State) (a : Nat) (w : Word) : (s.wr a w).pending = s.pending := rfl
@[simp] theorem State.wr_now (s : State) (a : Nat) (w : Word) : (s.wr a w).now = s.now := rfl
@[simp] theorem State.wr_free (s : State) (a : Nat) (w : Word) : (s.wr a w).free = s.free := rfl
@[simp] theorem State.wr_grade (s : State) (a : Nat) (w : Word) : (s.wr a w).grade = s.grade := rfl
@[simp] theorem State.wr_mode (s : State) (a : Nat) (w : Word) : (s.wr a w).mode = s.mode := rfl
@[simp] theorem State.wr_regs (s : State) (a : Nat) (w : Word) : (s.wr a w).regs = regPut s.regs a w := rfl
@[simp] theorem State.wr_mem (s : State) (a : Nat) (w : Word) : (s.wr a w).mem = s.mem := rfl
@[simp] theorem State.wr_held (s : State) (a : Nat) (w : Word) : (s.wr a w).held = s.held := rfl
@[simp] theorem State.wr_bus (s : State) (a : Nat) (w : Word) : (s.wr a w).bus = s.bus := rfl
@[simp] theorem State.wr_tb (s : State) (a : Nat) (w : Word) : (s.wr a w).tb = s.tb := rfl
@[simp] theorem State.wr_ep (s : State) (a : Nat) (w : Word) : (s.wr a w).ep = s.ep := rfl
@[simp] theorem State.wr_fr (s : State) (a : Nat) (w : Word) : (s.wr a w).fr = s.fr := rfl
@[simp] theorem State.wr_flt (s : State) (a : Nat) (w : Word) : (s.wr a w).flt = s.flt := rfl
@[simp] theorem State.wr_mz (s : State) (a : Nat) (w : Word) : (s.wr a w).mz = s.mz := rfl
@[simp] theorem State.wr_banks (s : State) (a : Nat) (w : Word) : (s.wr a w).banks = s.banks := rfl
@[simp] theorem State.wr_bays (s : State) (a : Nat) (w : Word) : (s.wr a w).bays = s.bays := rfl
@[simp] theorem State.wr_gw (s : State) (a : Nat) (w : Word) : (s.wr a w).gw = s.gw := rfl
@[simp] theorem State.wr_tab (s : State) (a : Nat) (w : Word) : (s.wr a w).tab = s.tab := rfl
@[simp] theorem State.wr_sch (s : State) (a : Nat) (w : Word) : (s.wr a w).sch = s.sch := rfl
@[simp] theorem State.wr_ks (s : State) (a : Nat) (w : Word) : (s.wr a w).ks = s.ks := rfl
@[simp] theorem State.wr_cp (s : State) (a : Nat) (w : Word) : (s.wr a w).cp = s.cp := rfl
@[simp] theorem State.wr_tw (s : State) (a : Nat) (w : Word) : (s.wr a w).tw = s.tw := rfl
@[simp] theorem State.wr_wk (s : State) (a : Nat) (w : Word) : (s.wr a w).wk = s.wk := rfl
@[simp] theorem State.wr_pw (s : State) (a : Nat) (w : Word) : (s.wr a w).pw = s.pw := rfl
@[simp] theorem State.wr_sill (s : State) (a : Nat) (w : Word) : (s.wr a w).sill = s.sill := rfl
@[simp] theorem State.wr_hb (s : State) (a : Nat) (w : Word) : (s.wr a w).hb = s.hb := rfl
@[simp] theorem State.wr_mort (s : State) (a : Nat) (w : Word) (m_ : Nat) : (s.wr a w).mort m_ = s.mort m_ := rfl
@[simp] theorem State.wr_bay (s : State) (a : Nat) (w : Word) (b_ : Nat) : (s.wr a w).bay b_ = s.bay b_ := rfl
@[simp] theorem State.wr_memB (s : State) (a : Nat) (w : Word) (a_ : Nat) : (s.wr a w).memB a_ = s.memB a_ := rfl
@[simp] theorem State.wr_dieOn (s : State) (a : Nat) (w : Word)  : (s.wr a w).dieOn = s.dieOn := rfl
@[simp] theorem State.wr_atOnce (s : State) (a : Nat) (w : Word)  : (s.wr a w).atOnce = s.atOnce := rfl

@[simp] theorem State.wrN_pending (s : State) (a n : Nat) : (s.wrN a n).pending = s.pending := rfl
@[simp] theorem State.wrN_now (s : State) (a n : Nat) : (s.wrN a n).now = s.now := rfl
@[simp] theorem State.wrN_free (s : State) (a n : Nat) : (s.wrN a n).free = s.free := rfl
@[simp] theorem State.wrN_grade (s : State) (a n : Nat) : (s.wrN a n).grade = s.grade := rfl
@[simp] theorem State.wrN_mode (s : State) (a n : Nat) : (s.wrN a n).mode = s.mode := rfl
@[simp] theorem State.wrN_regs (s : State) (a n : Nat) : (s.wrN a n).regs = regPut s.regs a (BitVec.ofNat 32 n) := rfl
@[simp] theorem State.wrN_mem (s : State) (a n : Nat) : (s.wrN a n).mem = s.mem := rfl
@[simp] theorem State.wrN_held (s : State) (a n : Nat) : (s.wrN a n).held = s.held := rfl
@[simp] theorem State.wrN_bus (s : State) (a n : Nat) : (s.wrN a n).bus = s.bus := rfl
@[simp] theorem State.wrN_tb (s : State) (a n : Nat) : (s.wrN a n).tb = s.tb := rfl
@[simp] theorem State.wrN_ep (s : State) (a n : Nat) : (s.wrN a n).ep = s.ep := rfl
@[simp] theorem State.wrN_fr (s : State) (a n : Nat) : (s.wrN a n).fr = s.fr := rfl
@[simp] theorem State.wrN_flt (s : State) (a n : Nat) : (s.wrN a n).flt = s.flt := rfl
@[simp] theorem State.wrN_mz (s : State) (a n : Nat) : (s.wrN a n).mz = s.mz := rfl
@[simp] theorem State.wrN_banks (s : State) (a n : Nat) : (s.wrN a n).banks = s.banks := rfl
@[simp] theorem State.wrN_bays (s : State) (a n : Nat) : (s.wrN a n).bays = s.bays := rfl
@[simp] theorem State.wrN_gw (s : State) (a n : Nat) : (s.wrN a n).gw = s.gw := rfl
@[simp] theorem State.wrN_tab (s : State) (a n : Nat) : (s.wrN a n).tab = s.tab := rfl
@[simp] theorem State.wrN_sch (s : State) (a n : Nat) : (s.wrN a n).sch = s.sch := rfl
@[simp] theorem State.wrN_ks (s : State) (a n : Nat) : (s.wrN a n).ks = s.ks := rfl
@[simp] theorem State.wrN_cp (s : State) (a n : Nat) : (s.wrN a n).cp = s.cp := rfl
@[simp] theorem State.wrN_tw (s : State) (a n : Nat) : (s.wrN a n).tw = s.tw := rfl
@[simp] theorem State.wrN_wk (s : State) (a n : Nat) : (s.wrN a n).wk = s.wk := rfl
@[simp] theorem State.wrN_pw (s : State) (a n : Nat) : (s.wrN a n).pw = s.pw := rfl
@[simp] theorem State.wrN_sill (s : State) (a n : Nat) : (s.wrN a n).sill = s.sill := rfl
@[simp] theorem State.wrN_hb (s : State) (a n : Nat) : (s.wrN a n).hb = s.hb := rfl
@[simp] theorem State.wrN_mort (s : State) (a n : Nat) (m_ : Nat) : (s.wrN a n).mort m_ = s.mort m_ := rfl
@[simp] theorem State.wrN_bay (s : State) (a n : Nat) (b_ : Nat) : (s.wrN a n).bay b_ = s.bay b_ := rfl
@[simp] theorem State.wrN_memB (s : State) (a n : Nat) (a_ : Nat) : (s.wrN a n).memB a_ = s.memB a_ := rfl
@[simp] theorem State.wrN_dieOn (s : State) (a n : Nat)  : (s.wrN a n).dieOn = s.dieOn := rfl
@[simp] theorem State.wrN_atOnce (s : State) (a n : Nat)  : (s.wrN a n).atOnce = s.atOnce := rfl

@[simp] theorem State.setFld_pending (s : State) (a lo w v : Nat) : (s.setFld a lo w v).pending = s.pending := rfl
@[simp] theorem State.setFld_now (s : State) (a lo w v : Nat) : (s.setFld a lo w v).now = s.now := rfl
@[simp] theorem State.setFld_free (s : State) (a lo w v : Nat) : (s.setFld a lo w v).free = s.free := rfl
@[simp] theorem State.setFld_grade (s : State) (a lo w v : Nat) : (s.setFld a lo w v).grade = s.grade := rfl
@[simp] theorem State.setFld_mode (s : State) (a lo w v : Nat) : (s.setFld a lo w v).mode = s.mode := rfl
@[simp] theorem State.setFld_mem (s : State) (a lo w v : Nat) : (s.setFld a lo w v).mem = s.mem := rfl
@[simp] theorem State.setFld_held (s : State) (a lo w v : Nat) : (s.setFld a lo w v).held = s.held := rfl
@[simp] theorem State.setFld_bus (s : State) (a lo w v : Nat) : (s.setFld a lo w v).bus = s.bus := rfl
@[simp] theorem State.setFld_tb (s : State) (a lo w v : Nat) : (s.setFld a lo w v).tb = s.tb := rfl
@[simp] theorem State.setFld_ep (s : State) (a lo w v : Nat) : (s.setFld a lo w v).ep = s.ep := rfl
@[simp] theorem State.setFld_fr (s : State) (a lo w v : Nat) : (s.setFld a lo w v).fr = s.fr := rfl
@[simp] theorem State.setFld_flt (s : State) (a lo w v : Nat) : (s.setFld a lo w v).flt = s.flt := rfl
@[simp] theorem State.setFld_mz (s : State) (a lo w v : Nat) : (s.setFld a lo w v).mz = s.mz := rfl
@[simp] theorem State.setFld_banks (s : State) (a lo w v : Nat) : (s.setFld a lo w v).banks = s.banks := rfl
@[simp] theorem State.setFld_bays (s : State) (a lo w v : Nat) : (s.setFld a lo w v).bays = s.bays := rfl
@[simp] theorem State.setFld_gw (s : State) (a lo w v : Nat) : (s.setFld a lo w v).gw = s.gw := rfl
@[simp] theorem State.setFld_tab (s : State) (a lo w v : Nat) : (s.setFld a lo w v).tab = s.tab := rfl
@[simp] theorem State.setFld_sch (s : State) (a lo w v : Nat) : (s.setFld a lo w v).sch = s.sch := rfl
@[simp] theorem State.setFld_ks (s : State) (a lo w v : Nat) : (s.setFld a lo w v).ks = s.ks := rfl
@[simp] theorem State.setFld_cp (s : State) (a lo w v : Nat) : (s.setFld a lo w v).cp = s.cp := rfl
@[simp] theorem State.setFld_tw (s : State) (a lo w v : Nat) : (s.setFld a lo w v).tw = s.tw := rfl
@[simp] theorem State.setFld_wk (s : State) (a lo w v : Nat) : (s.setFld a lo w v).wk = s.wk := rfl
@[simp] theorem State.setFld_pw (s : State) (a lo w v : Nat) : (s.setFld a lo w v).pw = s.pw := rfl
@[simp] theorem State.setFld_sill (s : State) (a lo w v : Nat) : (s.setFld a lo w v).sill = s.sill := rfl
@[simp] theorem State.setFld_hb (s : State) (a lo w v : Nat) : (s.setFld a lo w v).hb = s.hb := rfl
@[simp] theorem State.setFld_mort (s : State) (a lo w v : Nat) (m_ : Nat) : (s.setFld a lo w v).mort m_ = s.mort m_ := rfl
@[simp] theorem State.setFld_bay (s : State) (a lo w v : Nat) (b_ : Nat) : (s.setFld a lo w v).bay b_ = s.bay b_ := rfl
@[simp] theorem State.setFld_memB (s : State) (a lo w v : Nat) (a_ : Nat) : (s.setFld a lo w v).memB a_ = s.memB a_ := rfl
@[simp] theorem State.setFld_dieOn (s : State) (a lo w v : Nat)  : (s.setFld a lo w v).dieOn = s.dieOn := rfl
@[simp] theorem State.setFld_atOnce (s : State) (a lo w v : Nat)  : (s.setFld a lo w v).atOnce = s.atOnce := rfl

@[simp] theorem State.setBit_pending (s : State) (a k : Nat) (b : Bool) : (s.setBit a k b).pending = s.pending := rfl
@[simp] theorem State.setBit_now (s : State) (a k : Nat) (b : Bool) : (s.setBit a k b).now = s.now := rfl
@[simp] theorem State.setBit_free (s : State) (a k : Nat) (b : Bool) : (s.setBit a k b).free = s.free := rfl
@[simp] theorem State.setBit_grade (s : State) (a k : Nat) (b : Bool) : (s.setBit a k b).grade = s.grade := rfl
@[simp] theorem State.setBit_mode (s : State) (a k : Nat) (b : Bool) : (s.setBit a k b).mode = s.mode := rfl
@[simp] theorem State.setBit_mem (s : State) (a k : Nat) (b : Bool) : (s.setBit a k b).mem = s.mem := rfl
@[simp] theorem State.setBit_held (s : State) (a k : Nat) (b : Bool) : (s.setBit a k b).held = s.held := rfl
@[simp] theorem State.setBit_bus (s : State) (a k : Nat) (b : Bool) : (s.setBit a k b).bus = s.bus := rfl
@[simp] theorem State.setBit_tb (s : State) (a k : Nat) (b : Bool) : (s.setBit a k b).tb = s.tb := rfl
@[simp] theorem State.setBit_ep (s : State) (a k : Nat) (b : Bool) : (s.setBit a k b).ep = s.ep := rfl
@[simp] theorem State.setBit_fr (s : State) (a k : Nat) (b : Bool) : (s.setBit a k b).fr = s.fr := rfl
@[simp] theorem State.setBit_flt (s : State) (a k : Nat) (b : Bool) : (s.setBit a k b).flt = s.flt := rfl
@[simp] theorem State.setBit_mz (s : State) (a k : Nat) (b : Bool) : (s.setBit a k b).mz = s.mz := rfl
@[simp] theorem State.setBit_banks (s : State) (a k : Nat) (b : Bool) : (s.setBit a k b).banks = s.banks := rfl
@[simp] theorem State.setBit_bays (s : State) (a k : Nat) (b : Bool) : (s.setBit a k b).bays = s.bays := rfl
@[simp] theorem State.setBit_gw (s : State) (a k : Nat) (b : Bool) : (s.setBit a k b).gw = s.gw := rfl
@[simp] theorem State.setBit_tab (s : State) (a k : Nat) (b : Bool) : (s.setBit a k b).tab = s.tab := rfl
@[simp] theorem State.setBit_sch (s : State) (a k : Nat) (b : Bool) : (s.setBit a k b).sch = s.sch := rfl
@[simp] theorem State.setBit_ks (s : State) (a k : Nat) (b : Bool) : (s.setBit a k b).ks = s.ks := rfl
@[simp] theorem State.setBit_cp (s : State) (a k : Nat) (b : Bool) : (s.setBit a k b).cp = s.cp := rfl
@[simp] theorem State.setBit_tw (s : State) (a k : Nat) (b : Bool) : (s.setBit a k b).tw = s.tw := rfl
@[simp] theorem State.setBit_wk (s : State) (a k : Nat) (b : Bool) : (s.setBit a k b).wk = s.wk := rfl
@[simp] theorem State.setBit_pw (s : State) (a k : Nat) (b : Bool) : (s.setBit a k b).pw = s.pw := rfl
@[simp] theorem State.setBit_sill (s : State) (a k : Nat) (b : Bool) : (s.setBit a k b).sill = s.sill := rfl
@[simp] theorem State.setBit_hb (s : State) (a k : Nat) (b : Bool) : (s.setBit a k b).hb = s.hb := rfl
@[simp] theorem State.setBit_mort (s : State) (a k : Nat) (b : Bool) (m_ : Nat) : (s.setBit a k b).mort m_ = s.mort m_ := rfl
@[simp] theorem State.setBit_bay (s : State) (a k : Nat) (b : Bool) (b_ : Nat) : (s.setBit a k b).bay b_ = s.bay b_ := rfl
@[simp] theorem State.setBit_memB (s : State) (a k : Nat) (b : Bool) (a_ : Nat) : (s.setBit a k b).memB a_ = s.memB a_ := rfl
@[simp] theorem State.setBit_dieOn (s : State) (a k : Nat) (b : Bool)  : (s.setBit a k b).dieOn = s.dieOn := rfl
@[simp] theorem State.setBit_atOnce (s : State) (a k : Nat) (b : Bool)  : (s.setBit a k b).atOnce = s.atOnce := rfl

@[simp] theorem State.evt_pending (s : State) (a k : Nat) : (s.evt a k).pending = s.pending := rfl
@[simp] theorem State.evt_now (s : State) (a k : Nat) : (s.evt a k).now = s.now := rfl
@[simp] theorem State.evt_free (s : State) (a k : Nat) : (s.evt a k).free = s.free := rfl
@[simp] theorem State.evt_grade (s : State) (a k : Nat) : (s.evt a k).grade = s.grade := rfl
@[simp] theorem State.evt_mode (s : State) (a k : Nat) : (s.evt a k).mode = s.mode := rfl
@[simp] theorem State.evt_mem (s : State) (a k : Nat) : (s.evt a k).mem = s.mem := rfl
@[simp] theorem State.evt_held (s : State) (a k : Nat) : (s.evt a k).held = s.held := rfl
@[simp] theorem State.evt_bus (s : State) (a k : Nat) : (s.evt a k).bus = s.bus := rfl
@[simp] theorem State.evt_tb (s : State) (a k : Nat) : (s.evt a k).tb = s.tb := rfl
@[simp] theorem State.evt_ep (s : State) (a k : Nat) : (s.evt a k).ep = s.ep := rfl
@[simp] theorem State.evt_fr (s : State) (a k : Nat) : (s.evt a k).fr = s.fr := rfl
@[simp] theorem State.evt_flt (s : State) (a k : Nat) : (s.evt a k).flt = s.flt := rfl
@[simp] theorem State.evt_mz (s : State) (a k : Nat) : (s.evt a k).mz = s.mz := rfl
@[simp] theorem State.evt_banks (s : State) (a k : Nat) : (s.evt a k).banks = s.banks := rfl
@[simp] theorem State.evt_bays (s : State) (a k : Nat) : (s.evt a k).bays = s.bays := rfl
@[simp] theorem State.evt_gw (s : State) (a k : Nat) : (s.evt a k).gw = s.gw := rfl
@[simp] theorem State.evt_tab (s : State) (a k : Nat) : (s.evt a k).tab = s.tab := rfl
@[simp] theorem State.evt_sch (s : State) (a k : Nat) : (s.evt a k).sch = s.sch := rfl
@[simp] theorem State.evt_ks (s : State) (a k : Nat) : (s.evt a k).ks = s.ks := rfl
@[simp] theorem State.evt_cp (s : State) (a k : Nat) : (s.evt a k).cp = s.cp := rfl
@[simp] theorem State.evt_tw (s : State) (a k : Nat) : (s.evt a k).tw = s.tw := rfl
@[simp] theorem State.evt_wk (s : State) (a k : Nat) : (s.evt a k).wk = s.wk := rfl
@[simp] theorem State.evt_pw (s : State) (a k : Nat) : (s.evt a k).pw = s.pw := rfl
@[simp] theorem State.evt_sill (s : State) (a k : Nat) : (s.evt a k).sill = s.sill := rfl
@[simp] theorem State.evt_hb (s : State) (a k : Nat) : (s.evt a k).hb = s.hb := rfl
@[simp] theorem State.evt_mort (s : State) (a k : Nat) (m_ : Nat) : (s.evt a k).mort m_ = s.mort m_ := rfl
@[simp] theorem State.evt_bay (s : State) (a k : Nat) (b_ : Nat) : (s.evt a k).bay b_ = s.bay b_ := rfl
@[simp] theorem State.evt_memB (s : State) (a k : Nat) (a_ : Nat) : (s.evt a k).memB a_ = s.memB a_ := rfl
@[simp] theorem State.evt_dieOn (s : State) (a k : Nat)  : (s.evt a k).dieOn = s.dieOn := rfl
@[simp] theorem State.evt_atOnce (s : State) (a k : Nat)  : (s.evt a k).atOnce = s.atOnce := rfl

@[simp] theorem State.inc_pending (s : State) (a n : Nat) : (s.inc a n).pending = s.pending := rfl
@[simp] theorem State.inc_now (s : State) (a n : Nat) : (s.inc a n).now = s.now := rfl
@[simp] theorem State.inc_free (s : State) (a n : Nat) : (s.inc a n).free = s.free := rfl
@[simp] theorem State.inc_grade (s : State) (a n : Nat) : (s.inc a n).grade = s.grade := rfl
@[simp] theorem State.inc_mode (s : State) (a n : Nat) : (s.inc a n).mode = s.mode := rfl
@[simp] theorem State.inc_mem (s : State) (a n : Nat) : (s.inc a n).mem = s.mem := rfl
@[simp] theorem State.inc_held (s : State) (a n : Nat) : (s.inc a n).held = s.held := rfl
@[simp] theorem State.inc_bus (s : State) (a n : Nat) : (s.inc a n).bus = s.bus := rfl
@[simp] theorem State.inc_tb (s : State) (a n : Nat) : (s.inc a n).tb = s.tb := rfl
@[simp] theorem State.inc_ep (s : State) (a n : Nat) : (s.inc a n).ep = s.ep := rfl
@[simp] theorem State.inc_fr (s : State) (a n : Nat) : (s.inc a n).fr = s.fr := rfl
@[simp] theorem State.inc_flt (s : State) (a n : Nat) : (s.inc a n).flt = s.flt := rfl
@[simp] theorem State.inc_mz (s : State) (a n : Nat) : (s.inc a n).mz = s.mz := rfl
@[simp] theorem State.inc_banks (s : State) (a n : Nat) : (s.inc a n).banks = s.banks := rfl
@[simp] theorem State.inc_bays (s : State) (a n : Nat) : (s.inc a n).bays = s.bays := rfl
@[simp] theorem State.inc_gw (s : State) (a n : Nat) : (s.inc a n).gw = s.gw := rfl
@[simp] theorem State.inc_tab (s : State) (a n : Nat) : (s.inc a n).tab = s.tab := rfl
@[simp] theorem State.inc_sch (s : State) (a n : Nat) : (s.inc a n).sch = s.sch := rfl
@[simp] theorem State.inc_ks (s : State) (a n : Nat) : (s.inc a n).ks = s.ks := rfl
@[simp] theorem State.inc_cp (s : State) (a n : Nat) : (s.inc a n).cp = s.cp := rfl
@[simp] theorem State.inc_tw (s : State) (a n : Nat) : (s.inc a n).tw = s.tw := rfl
@[simp] theorem State.inc_wk (s : State) (a n : Nat) : (s.inc a n).wk = s.wk := rfl
@[simp] theorem State.inc_pw (s : State) (a n : Nat) : (s.inc a n).pw = s.pw := rfl
@[simp] theorem State.inc_sill (s : State) (a n : Nat) : (s.inc a n).sill = s.sill := rfl
@[simp] theorem State.inc_hb (s : State) (a n : Nat) : (s.inc a n).hb = s.hb := rfl
@[simp] theorem State.inc_mort (s : State) (a n : Nat) (m_ : Nat) : (s.inc a n).mort m_ = s.mort m_ := rfl
@[simp] theorem State.inc_bay (s : State) (a n : Nat) (b_ : Nat) : (s.inc a n).bay b_ = s.bay b_ := rfl
@[simp] theorem State.inc_memB (s : State) (a n : Nat) (a_ : Nat) : (s.inc a n).memB a_ = s.memB a_ := rfl
@[simp] theorem State.inc_dieOn (s : State) (a n : Nat)  : (s.inc a n).dieOn = s.dieOn := rfl
@[simp] theorem State.inc_atOnce (s : State) (a n : Nat)  : (s.inc a n).atOnce = s.atOnce := rfl

@[simp] theorem State.wr2_pending (s : State) (lo hi n : Nat) : (s.wr2 lo hi n).pending = s.pending := rfl
@[simp] theorem State.wr2_now (s : State) (lo hi n : Nat) : (s.wr2 lo hi n).now = s.now := rfl
@[simp] theorem State.wr2_free (s : State) (lo hi n : Nat) : (s.wr2 lo hi n).free = s.free := rfl
@[simp] theorem State.wr2_grade (s : State) (lo hi n : Nat) : (s.wr2 lo hi n).grade = s.grade := rfl
@[simp] theorem State.wr2_mode (s : State) (lo hi n : Nat) : (s.wr2 lo hi n).mode = s.mode := rfl
@[simp] theorem State.wr2_mem (s : State) (lo hi n : Nat) : (s.wr2 lo hi n).mem = s.mem := rfl
@[simp] theorem State.wr2_held (s : State) (lo hi n : Nat) : (s.wr2 lo hi n).held = s.held := rfl
@[simp] theorem State.wr2_bus (s : State) (lo hi n : Nat) : (s.wr2 lo hi n).bus = s.bus := rfl
@[simp] theorem State.wr2_tb (s : State) (lo hi n : Nat) : (s.wr2 lo hi n).tb = s.tb := rfl
@[simp] theorem State.wr2_ep (s : State) (lo hi n : Nat) : (s.wr2 lo hi n).ep = s.ep := rfl
@[simp] theorem State.wr2_fr (s : State) (lo hi n : Nat) : (s.wr2 lo hi n).fr = s.fr := rfl
@[simp] theorem State.wr2_flt (s : State) (lo hi n : Nat) : (s.wr2 lo hi n).flt = s.flt := rfl
@[simp] theorem State.wr2_mz (s : State) (lo hi n : Nat) : (s.wr2 lo hi n).mz = s.mz := rfl
@[simp] theorem State.wr2_banks (s : State) (lo hi n : Nat) : (s.wr2 lo hi n).banks = s.banks := rfl
@[simp] theorem State.wr2_bays (s : State) (lo hi n : Nat) : (s.wr2 lo hi n).bays = s.bays := rfl
@[simp] theorem State.wr2_gw (s : State) (lo hi n : Nat) : (s.wr2 lo hi n).gw = s.gw := rfl
@[simp] theorem State.wr2_tab (s : State) (lo hi n : Nat) : (s.wr2 lo hi n).tab = s.tab := rfl
@[simp] theorem State.wr2_sch (s : State) (lo hi n : Nat) : (s.wr2 lo hi n).sch = s.sch := rfl
@[simp] theorem State.wr2_ks (s : State) (lo hi n : Nat) : (s.wr2 lo hi n).ks = s.ks := rfl
@[simp] theorem State.wr2_cp (s : State) (lo hi n : Nat) : (s.wr2 lo hi n).cp = s.cp := rfl
@[simp] theorem State.wr2_tw (s : State) (lo hi n : Nat) : (s.wr2 lo hi n).tw = s.tw := rfl
@[simp] theorem State.wr2_wk (s : State) (lo hi n : Nat) : (s.wr2 lo hi n).wk = s.wk := rfl
@[simp] theorem State.wr2_pw (s : State) (lo hi n : Nat) : (s.wr2 lo hi n).pw = s.pw := rfl
@[simp] theorem State.wr2_sill (s : State) (lo hi n : Nat) : (s.wr2 lo hi n).sill = s.sill := rfl
@[simp] theorem State.wr2_hb (s : State) (lo hi n : Nat) : (s.wr2 lo hi n).hb = s.hb := rfl
@[simp] theorem State.wr2_mort (s : State) (lo hi n : Nat) (m_ : Nat) : (s.wr2 lo hi n).mort m_ = s.mort m_ := rfl
@[simp] theorem State.wr2_bay (s : State) (lo hi n : Nat) (b_ : Nat) : (s.wr2 lo hi n).bay b_ = s.bay b_ := rfl
@[simp] theorem State.wr2_memB (s : State) (lo hi n : Nat) (a_ : Nat) : (s.wr2 lo hi n).memB a_ = s.memB a_ := rfl
@[simp] theorem State.wr2_dieOn (s : State) (lo hi n : Nat)  : (s.wr2 lo hi n).dieOn = s.dieOn := rfl
@[simp] theorem State.wr2_atOnce (s : State) (lo hi n : Nat)  : (s.wr2 lo hi n).atOnce = s.atOnce := rfl

@[simp] theorem State.hold_pending (s : State) (u : Upd) : (s.hold u).pending = s.pending := rfl
@[simp] theorem State.hold_now (s : State) (u : Upd) : (s.hold u).now = s.now := rfl
@[simp] theorem State.hold_free (s : State) (u : Upd) : (s.hold u).free = s.free := rfl
@[simp] theorem State.hold_grade (s : State) (u : Upd) : (s.hold u).grade = s.grade := rfl
@[simp] theorem State.hold_mode (s : State) (u : Upd) : (s.hold u).mode = s.mode := rfl
@[simp] theorem State.hold_regs (s : State) (u : Upd) : (s.hold u).regs = s.regs := rfl
@[simp] theorem State.hold_mem (s : State) (u : Upd) : (s.hold u).mem = s.mem := rfl
@[simp] theorem State.hold_held (s : State) (u : Upd) : (s.hold u).held = s.held ++ [u] := rfl
@[simp] theorem State.hold_bus (s : State) (u : Upd) : (s.hold u).bus = s.bus := rfl
@[simp] theorem State.hold_tb (s : State) (u : Upd) : (s.hold u).tb = s.tb := rfl
@[simp] theorem State.hold_ep (s : State) (u : Upd) : (s.hold u).ep = s.ep := rfl
@[simp] theorem State.hold_fr (s : State) (u : Upd) : (s.hold u).fr = s.fr := rfl
@[simp] theorem State.hold_flt (s : State) (u : Upd) : (s.hold u).flt = s.flt := rfl
@[simp] theorem State.hold_mz (s : State) (u : Upd) : (s.hold u).mz = s.mz := rfl
@[simp] theorem State.hold_banks (s : State) (u : Upd) : (s.hold u).banks = s.banks := rfl
@[simp] theorem State.hold_bays (s : State) (u : Upd) : (s.hold u).bays = s.bays := rfl
@[simp] theorem State.hold_gw (s : State) (u : Upd) : (s.hold u).gw = s.gw := rfl
@[simp] theorem State.hold_tab (s : State) (u : Upd) : (s.hold u).tab = s.tab := rfl
@[simp] theorem State.hold_sch (s : State) (u : Upd) : (s.hold u).sch = s.sch := rfl
@[simp] theorem State.hold_ks (s : State) (u : Upd) : (s.hold u).ks = s.ks := rfl
@[simp] theorem State.hold_cp (s : State) (u : Upd) : (s.hold u).cp = s.cp := rfl
@[simp] theorem State.hold_tw (s : State) (u : Upd) : (s.hold u).tw = s.tw := rfl
@[simp] theorem State.hold_wk (s : State) (u : Upd) : (s.hold u).wk = s.wk := rfl
@[simp] theorem State.hold_pw (s : State) (u : Upd) : (s.hold u).pw = s.pw := rfl
@[simp] theorem State.hold_sill (s : State) (u : Upd) : (s.hold u).sill = s.sill := rfl
@[simp] theorem State.hold_hb (s : State) (u : Upd) : (s.hold u).hb = s.hb := rfl
@[simp] theorem State.hold_rd (s : State) (u : Upd) (a_ : Nat) : (s.hold u).rd a_ = s.rd a_ := rfl
@[simp] theorem State.hold_rdN (s : State) (u : Upd) (a_ : Nat) : (s.hold u).rdN a_ = s.rdN a_ := rfl
@[simp] theorem State.hold_fld (s : State) (u : Upd) (a_ lo_ w_ : Nat) : (s.hold u).fld a_ lo_ w_ = s.fld a_ lo_ w_ := rfl
@[simp] theorem State.hold_bit (s : State) (u : Upd) (a_ k_ : Nat) : (s.hold u).bit a_ k_ = s.bit a_ k_ := rfl
@[simp] theorem State.hold_mort (s : State) (u : Upd) (m_ : Nat) : (s.hold u).mort m_ = s.mort m_ := rfl
@[simp] theorem State.hold_bay (s : State) (u : Upd) (b_ : Nat) : (s.hold u).bay b_ = s.bay b_ := rfl
@[simp] theorem State.hold_memB (s : State) (u : Upd) (a_ : Nat) : (s.hold u).memB a_ = s.memB a_ := rfl
@[simp] theorem State.hold_dieOn (s : State) (u : Upd)  : (s.hold u).dieOn = s.dieOn := rfl
@[simp] theorem State.hold_atOnce (s : State) (u : Upd)  : (s.hold u).atOnce = s.atOnce := rfl

@[simp] theorem State.cInc_pending (s : State) (a n : Nat) : (s.cInc a n).pending = s.pending := rfl
@[simp] theorem State.cInc_now (s : State) (a n : Nat) : (s.cInc a n).now = s.now := rfl
@[simp] theorem State.cInc_free (s : State) (a n : Nat) : (s.cInc a n).free = s.free := rfl
@[simp] theorem State.cInc_grade (s : State) (a n : Nat) : (s.cInc a n).grade = s.grade := rfl
@[simp] theorem State.cInc_mode (s : State) (a n : Nat) : (s.cInc a n).mode = s.mode := rfl
@[simp] theorem State.cInc_regs (s : State) (a n : Nat) : (s.cInc a n).regs = s.regs := rfl
@[simp] theorem State.cInc_mem (s : State) (a n : Nat) : (s.cInc a n).mem = s.mem := rfl
@[simp] theorem State.cInc_held (s : State) (a n : Nat) : (s.cInc a n).held = s.held ++ [.add a n] := rfl
@[simp] theorem State.cInc_bus (s : State) (a n : Nat) : (s.cInc a n).bus = s.bus := rfl
@[simp] theorem State.cInc_tb (s : State) (a n : Nat) : (s.cInc a n).tb = s.tb := rfl
@[simp] theorem State.cInc_ep (s : State) (a n : Nat) : (s.cInc a n).ep = s.ep := rfl
@[simp] theorem State.cInc_fr (s : State) (a n : Nat) : (s.cInc a n).fr = s.fr := rfl
@[simp] theorem State.cInc_flt (s : State) (a n : Nat) : (s.cInc a n).flt = s.flt := rfl
@[simp] theorem State.cInc_mz (s : State) (a n : Nat) : (s.cInc a n).mz = s.mz := rfl
@[simp] theorem State.cInc_banks (s : State) (a n : Nat) : (s.cInc a n).banks = s.banks := rfl
@[simp] theorem State.cInc_bays (s : State) (a n : Nat) : (s.cInc a n).bays = s.bays := rfl
@[simp] theorem State.cInc_gw (s : State) (a n : Nat) : (s.cInc a n).gw = s.gw := rfl
@[simp] theorem State.cInc_tab (s : State) (a n : Nat) : (s.cInc a n).tab = s.tab := rfl
@[simp] theorem State.cInc_sch (s : State) (a n : Nat) : (s.cInc a n).sch = s.sch := rfl
@[simp] theorem State.cInc_ks (s : State) (a n : Nat) : (s.cInc a n).ks = s.ks := rfl
@[simp] theorem State.cInc_cp (s : State) (a n : Nat) : (s.cInc a n).cp = s.cp := rfl
@[simp] theorem State.cInc_tw (s : State) (a n : Nat) : (s.cInc a n).tw = s.tw := rfl
@[simp] theorem State.cInc_wk (s : State) (a n : Nat) : (s.cInc a n).wk = s.wk := rfl
@[simp] theorem State.cInc_pw (s : State) (a n : Nat) : (s.cInc a n).pw = s.pw := rfl
@[simp] theorem State.cInc_sill (s : State) (a n : Nat) : (s.cInc a n).sill = s.sill := rfl
@[simp] theorem State.cInc_hb (s : State) (a n : Nat) : (s.cInc a n).hb = s.hb := rfl
@[simp] theorem State.cInc_rd (s : State) (a n : Nat) (a_ : Nat) : (s.cInc a n).rd a_ = s.rd a_ := rfl
@[simp] theorem State.cInc_rdN (s : State) (a n : Nat) (a_ : Nat) : (s.cInc a n).rdN a_ = s.rdN a_ := rfl
@[simp] theorem State.cInc_fld (s : State) (a n : Nat) (a_ lo_ w_ : Nat) : (s.cInc a n).fld a_ lo_ w_ = s.fld a_ lo_ w_ := rfl
@[simp] theorem State.cInc_bit (s : State) (a n : Nat) (a_ k_ : Nat) : (s.cInc a n).bit a_ k_ = s.bit a_ k_ := rfl
@[simp] theorem State.cInc_mort (s : State) (a n : Nat) (m_ : Nat) : (s.cInc a n).mort m_ = s.mort m_ := rfl
@[simp] theorem State.cInc_bay (s : State) (a n : Nat) (b_ : Nat) : (s.cInc a n).bay b_ = s.bay b_ := rfl
@[simp] theorem State.cInc_memB (s : State) (a n : Nat) (a_ : Nat) : (s.cInc a n).memB a_ = s.memB a_ := rfl
@[simp] theorem State.cInc_dieOn (s : State) (a n : Nat)  : (s.cInc a n).dieOn = s.dieOn := rfl
@[simp] theorem State.cInc_atOnce (s : State) (a n : Nat)  : (s.cInc a n).atOnce = s.atOnce := rfl

@[simp] theorem State.cEvt_pending (s : State) (a k : Nat) : (s.cEvt a k).pending = s.pending := rfl
@[simp] theorem State.cEvt_now (s : State) (a k : Nat) : (s.cEvt a k).now = s.now := rfl
@[simp] theorem State.cEvt_free (s : State) (a k : Nat) : (s.cEvt a k).free = s.free := rfl
@[simp] theorem State.cEvt_grade (s : State) (a k : Nat) : (s.cEvt a k).grade = s.grade := rfl
@[simp] theorem State.cEvt_mode (s : State) (a k : Nat) : (s.cEvt a k).mode = s.mode := rfl
@[simp] theorem State.cEvt_regs (s : State) (a k : Nat) : (s.cEvt a k).regs = s.regs := rfl
@[simp] theorem State.cEvt_mem (s : State) (a k : Nat) : (s.cEvt a k).mem = s.mem := rfl
@[simp] theorem State.cEvt_held (s : State) (a k : Nat) : (s.cEvt a k).held = s.held ++ [.or a (2 ^ k)] := rfl
@[simp] theorem State.cEvt_bus (s : State) (a k : Nat) : (s.cEvt a k).bus = s.bus := rfl
@[simp] theorem State.cEvt_tb (s : State) (a k : Nat) : (s.cEvt a k).tb = s.tb := rfl
@[simp] theorem State.cEvt_ep (s : State) (a k : Nat) : (s.cEvt a k).ep = s.ep := rfl
@[simp] theorem State.cEvt_fr (s : State) (a k : Nat) : (s.cEvt a k).fr = s.fr := rfl
@[simp] theorem State.cEvt_flt (s : State) (a k : Nat) : (s.cEvt a k).flt = s.flt := rfl
@[simp] theorem State.cEvt_mz (s : State) (a k : Nat) : (s.cEvt a k).mz = s.mz := rfl
@[simp] theorem State.cEvt_banks (s : State) (a k : Nat) : (s.cEvt a k).banks = s.banks := rfl
@[simp] theorem State.cEvt_bays (s : State) (a k : Nat) : (s.cEvt a k).bays = s.bays := rfl
@[simp] theorem State.cEvt_gw (s : State) (a k : Nat) : (s.cEvt a k).gw = s.gw := rfl
@[simp] theorem State.cEvt_tab (s : State) (a k : Nat) : (s.cEvt a k).tab = s.tab := rfl
@[simp] theorem State.cEvt_sch (s : State) (a k : Nat) : (s.cEvt a k).sch = s.sch := rfl
@[simp] theorem State.cEvt_ks (s : State) (a k : Nat) : (s.cEvt a k).ks = s.ks := rfl
@[simp] theorem State.cEvt_cp (s : State) (a k : Nat) : (s.cEvt a k).cp = s.cp := rfl
@[simp] theorem State.cEvt_tw (s : State) (a k : Nat) : (s.cEvt a k).tw = s.tw := rfl
@[simp] theorem State.cEvt_wk (s : State) (a k : Nat) : (s.cEvt a k).wk = s.wk := rfl
@[simp] theorem State.cEvt_pw (s : State) (a k : Nat) : (s.cEvt a k).pw = s.pw := rfl
@[simp] theorem State.cEvt_sill (s : State) (a k : Nat) : (s.cEvt a k).sill = s.sill := rfl
@[simp] theorem State.cEvt_hb (s : State) (a k : Nat) : (s.cEvt a k).hb = s.hb := rfl
@[simp] theorem State.cEvt_rd (s : State) (a k : Nat) (a_ : Nat) : (s.cEvt a k).rd a_ = s.rd a_ := rfl
@[simp] theorem State.cEvt_rdN (s : State) (a k : Nat) (a_ : Nat) : (s.cEvt a k).rdN a_ = s.rdN a_ := rfl
@[simp] theorem State.cEvt_fld (s : State) (a k : Nat) (a_ lo_ w_ : Nat) : (s.cEvt a k).fld a_ lo_ w_ = s.fld a_ lo_ w_ := rfl
@[simp] theorem State.cEvt_bit (s : State) (a k : Nat) (a_ k_ : Nat) : (s.cEvt a k).bit a_ k_ = s.bit a_ k_ := rfl
@[simp] theorem State.cEvt_mort (s : State) (a k : Nat) (m_ : Nat) : (s.cEvt a k).mort m_ = s.mort m_ := rfl
@[simp] theorem State.cEvt_bay (s : State) (a k : Nat) (b_ : Nat) : (s.cEvt a k).bay b_ = s.bay b_ := rfl
@[simp] theorem State.cEvt_memB (s : State) (a k : Nat) (a_ : Nat) : (s.cEvt a k).memB a_ = s.memB a_ := rfl
@[simp] theorem State.cEvt_dieOn (s : State) (a k : Nat)  : (s.cEvt a k).dieOn = s.dieOn := rfl
@[simp] theorem State.cEvt_atOnce (s : State) (a k : Nat)  : (s.cEvt a k).atOnce = s.atOnce := rfl

@[simp] theorem State.cPut_pending (s : State) (a lo w v : Nat) : (s.cPut a lo w v).pending = s.pending := rfl
@[simp] theorem State.cPut_now (s : State) (a lo w v : Nat) : (s.cPut a lo w v).now = s.now := rfl
@[simp] theorem State.cPut_free (s : State) (a lo w v : Nat) : (s.cPut a lo w v).free = s.free := rfl
@[simp] theorem State.cPut_grade (s : State) (a lo w v : Nat) : (s.cPut a lo w v).grade = s.grade := rfl
@[simp] theorem State.cPut_mode (s : State) (a lo w v : Nat) : (s.cPut a lo w v).mode = s.mode := rfl
@[simp] theorem State.cPut_regs (s : State) (a lo w v : Nat) : (s.cPut a lo w v).regs = s.regs := rfl
@[simp] theorem State.cPut_mem (s : State) (a lo w v : Nat) : (s.cPut a lo w v).mem = s.mem := rfl
@[simp] theorem State.cPut_held (s : State) (a lo w v : Nat) : (s.cPut a lo w v).held = s.held ++ [.put a lo w v] := rfl
@[simp] theorem State.cPut_bus (s : State) (a lo w v : Nat) : (s.cPut a lo w v).bus = s.bus := rfl
@[simp] theorem State.cPut_tb (s : State) (a lo w v : Nat) : (s.cPut a lo w v).tb = s.tb := rfl
@[simp] theorem State.cPut_ep (s : State) (a lo w v : Nat) : (s.cPut a lo w v).ep = s.ep := rfl
@[simp] theorem State.cPut_fr (s : State) (a lo w v : Nat) : (s.cPut a lo w v).fr = s.fr := rfl
@[simp] theorem State.cPut_flt (s : State) (a lo w v : Nat) : (s.cPut a lo w v).flt = s.flt := rfl
@[simp] theorem State.cPut_mz (s : State) (a lo w v : Nat) : (s.cPut a lo w v).mz = s.mz := rfl
@[simp] theorem State.cPut_banks (s : State) (a lo w v : Nat) : (s.cPut a lo w v).banks = s.banks := rfl
@[simp] theorem State.cPut_bays (s : State) (a lo w v : Nat) : (s.cPut a lo w v).bays = s.bays := rfl
@[simp] theorem State.cPut_gw (s : State) (a lo w v : Nat) : (s.cPut a lo w v).gw = s.gw := rfl
@[simp] theorem State.cPut_tab (s : State) (a lo w v : Nat) : (s.cPut a lo w v).tab = s.tab := rfl
@[simp] theorem State.cPut_sch (s : State) (a lo w v : Nat) : (s.cPut a lo w v).sch = s.sch := rfl
@[simp] theorem State.cPut_ks (s : State) (a lo w v : Nat) : (s.cPut a lo w v).ks = s.ks := rfl
@[simp] theorem State.cPut_cp (s : State) (a lo w v : Nat) : (s.cPut a lo w v).cp = s.cp := rfl
@[simp] theorem State.cPut_tw (s : State) (a lo w v : Nat) : (s.cPut a lo w v).tw = s.tw := rfl
@[simp] theorem State.cPut_wk (s : State) (a lo w v : Nat) : (s.cPut a lo w v).wk = s.wk := rfl
@[simp] theorem State.cPut_pw (s : State) (a lo w v : Nat) : (s.cPut a lo w v).pw = s.pw := rfl
@[simp] theorem State.cPut_sill (s : State) (a lo w v : Nat) : (s.cPut a lo w v).sill = s.sill := rfl
@[simp] theorem State.cPut_hb (s : State) (a lo w v : Nat) : (s.cPut a lo w v).hb = s.hb := rfl
@[simp] theorem State.cPut_rd (s : State) (a lo w v : Nat) (a_ : Nat) : (s.cPut a lo w v).rd a_ = s.rd a_ := rfl
@[simp] theorem State.cPut_rdN (s : State) (a lo w v : Nat) (a_ : Nat) : (s.cPut a lo w v).rdN a_ = s.rdN a_ := rfl
@[simp] theorem State.cPut_fld (s : State) (a lo w v : Nat) (a_ lo_ w_ : Nat) : (s.cPut a lo w v).fld a_ lo_ w_ = s.fld a_ lo_ w_ := rfl
@[simp] theorem State.cPut_bit (s : State) (a lo w v : Nat) (a_ k_ : Nat) : (s.cPut a lo w v).bit a_ k_ = s.bit a_ k_ := rfl
@[simp] theorem State.cPut_mort (s : State) (a lo w v : Nat) (m_ : Nat) : (s.cPut a lo w v).mort m_ = s.mort m_ := rfl
@[simp] theorem State.cPut_bay (s : State) (a lo w v : Nat) (b_ : Nat) : (s.cPut a lo w v).bay b_ = s.bay b_ := rfl
@[simp] theorem State.cPut_memB (s : State) (a lo w v : Nat) (a_ : Nat) : (s.cPut a lo w v).memB a_ = s.memB a_ := rfl
@[simp] theorem State.cPut_dieOn (s : State) (a lo w v : Nat)  : (s.cPut a lo w v).dieOn = s.dieOn := rfl
@[simp] theorem State.cPut_atOnce (s : State) (a lo w v : Nat)  : (s.cPut a lo w v).atOnce = s.atOnce := rfl

@[simp] theorem State.memW_pending (s : State) (a : Nat) (v : Octets) : (s.memW a v).pending = s.pending := rfl
@[simp] theorem State.memW_now (s : State) (a : Nat) (v : Octets) : (s.memW a v).now = s.now := rfl
@[simp] theorem State.memW_free (s : State) (a : Nat) (v : Octets) : (s.memW a v).free = s.free := rfl
@[simp] theorem State.memW_grade (s : State) (a : Nat) (v : Octets) : (s.memW a v).grade = s.grade := rfl
@[simp] theorem State.memW_mode (s : State) (a : Nat) (v : Octets) : (s.memW a v).mode = s.mode := rfl
@[simp] theorem State.memW_regs (s : State) (a : Nat) (v : Octets) : (s.memW a v).regs = s.regs := rfl
@[simp] theorem State.memW_mem (s : State) (a : Nat) (v : Octets) : (s.memW a v).mem = memPutAll s.mem a v := rfl
@[simp] theorem State.memW_held (s : State) (a : Nat) (v : Octets) : (s.memW a v).held = s.held := rfl
@[simp] theorem State.memW_bus (s : State) (a : Nat) (v : Octets) : (s.memW a v).bus = s.bus := rfl
@[simp] theorem State.memW_tb (s : State) (a : Nat) (v : Octets) : (s.memW a v).tb = s.tb := rfl
@[simp] theorem State.memW_ep (s : State) (a : Nat) (v : Octets) : (s.memW a v).ep = s.ep := rfl
@[simp] theorem State.memW_fr (s : State) (a : Nat) (v : Octets) : (s.memW a v).fr = s.fr := rfl
@[simp] theorem State.memW_flt (s : State) (a : Nat) (v : Octets) : (s.memW a v).flt = s.flt := rfl
@[simp] theorem State.memW_mz (s : State) (a : Nat) (v : Octets) : (s.memW a v).mz = s.mz := rfl
@[simp] theorem State.memW_banks (s : State) (a : Nat) (v : Octets) : (s.memW a v).banks = s.banks := rfl
@[simp] theorem State.memW_bays (s : State) (a : Nat) (v : Octets) : (s.memW a v).bays = s.bays := rfl
@[simp] theorem State.memW_gw (s : State) (a : Nat) (v : Octets) : (s.memW a v).gw = s.gw := rfl
@[simp] theorem State.memW_tab (s : State) (a : Nat) (v : Octets) : (s.memW a v).tab = s.tab := rfl
@[simp] theorem State.memW_sch (s : State) (a : Nat) (v : Octets) : (s.memW a v).sch = s.sch := rfl
@[simp] theorem State.memW_ks (s : State) (a : Nat) (v : Octets) : (s.memW a v).ks = s.ks := rfl
@[simp] theorem State.memW_cp (s : State) (a : Nat) (v : Octets) : (s.memW a v).cp = s.cp := rfl
@[simp] theorem State.memW_tw (s : State) (a : Nat) (v : Octets) : (s.memW a v).tw = s.tw := rfl
@[simp] theorem State.memW_wk (s : State) (a : Nat) (v : Octets) : (s.memW a v).wk = s.wk := rfl
@[simp] theorem State.memW_pw (s : State) (a : Nat) (v : Octets) : (s.memW a v).pw = s.pw := rfl
@[simp] theorem State.memW_sill (s : State) (a : Nat) (v : Octets) : (s.memW a v).sill = s.sill := rfl
@[simp] theorem State.memW_hb (s : State) (a : Nat) (v : Octets) : (s.memW a v).hb = s.hb := rfl
@[simp] theorem State.memW_rd (s : State) (a : Nat) (v : Octets) (a_ : Nat) : (s.memW a v).rd a_ = s.rd a_ := rfl
@[simp] theorem State.memW_rdN (s : State) (a : Nat) (v : Octets) (a_ : Nat) : (s.memW a v).rdN a_ = s.rdN a_ := rfl
@[simp] theorem State.memW_fld (s : State) (a : Nat) (v : Octets) (a_ lo_ w_ : Nat) : (s.memW a v).fld a_ lo_ w_ = s.fld a_ lo_ w_ := rfl
@[simp] theorem State.memW_bit (s : State) (a : Nat) (v : Octets) (a_ k_ : Nat) : (s.memW a v).bit a_ k_ = s.bit a_ k_ := rfl
@[simp] theorem State.memW_mort (s : State) (a : Nat) (v : Octets) (m_ : Nat) : (s.memW a v).mort m_ = s.mort m_ := rfl
@[simp] theorem State.memW_bay (s : State) (a : Nat) (v : Octets) (b_ : Nat) : (s.memW a v).bay b_ = s.bay b_ := rfl
@[simp] theorem State.memW_dieOn (s : State) (a : Nat) (v : Octets)  : (s.memW a v).dieOn = s.dieOn := rfl
@[simp] theorem State.memW_atOnce (s : State) (a : Nat) (v : Octets)  : (s.memW a v).atOnce = s.atOnce := rfl

@[simp] theorem State.memClear_pending (s : State) (lo hi : Nat) : (s.memClear lo hi).pending = s.pending := rfl
@[simp] theorem State.memClear_now (s : State) (lo hi : Nat) : (s.memClear lo hi).now = s.now := rfl
@[simp] theorem State.memClear_free (s : State) (lo hi : Nat) : (s.memClear lo hi).free = s.free := rfl
@[simp] theorem State.memClear_grade (s : State) (lo hi : Nat) : (s.memClear lo hi).grade = s.grade := rfl
@[simp] theorem State.memClear_mode (s : State) (lo hi : Nat) : (s.memClear lo hi).mode = s.mode := rfl
@[simp] theorem State.memClear_regs (s : State) (lo hi : Nat) : (s.memClear lo hi).regs = s.regs := rfl
@[simp] theorem State.memClear_held (s : State) (lo hi : Nat) : (s.memClear lo hi).held = s.held := rfl
@[simp] theorem State.memClear_bus (s : State) (lo hi : Nat) : (s.memClear lo hi).bus = s.bus := rfl
@[simp] theorem State.memClear_tb (s : State) (lo hi : Nat) : (s.memClear lo hi).tb = s.tb := rfl
@[simp] theorem State.memClear_ep (s : State) (lo hi : Nat) : (s.memClear lo hi).ep = s.ep := rfl
@[simp] theorem State.memClear_fr (s : State) (lo hi : Nat) : (s.memClear lo hi).fr = s.fr := rfl
@[simp] theorem State.memClear_flt (s : State) (lo hi : Nat) : (s.memClear lo hi).flt = s.flt := rfl
@[simp] theorem State.memClear_mz (s : State) (lo hi : Nat) : (s.memClear lo hi).mz = s.mz := rfl
@[simp] theorem State.memClear_banks (s : State) (lo hi : Nat) : (s.memClear lo hi).banks = s.banks := rfl
@[simp] theorem State.memClear_bays (s : State) (lo hi : Nat) : (s.memClear lo hi).bays = s.bays := rfl
@[simp] theorem State.memClear_gw (s : State) (lo hi : Nat) : (s.memClear lo hi).gw = s.gw := rfl
@[simp] theorem State.memClear_tab (s : State) (lo hi : Nat) : (s.memClear lo hi).tab = s.tab := rfl
@[simp] theorem State.memClear_sch (s : State) (lo hi : Nat) : (s.memClear lo hi).sch = s.sch := rfl
@[simp] theorem State.memClear_ks (s : State) (lo hi : Nat) : (s.memClear lo hi).ks = s.ks := rfl
@[simp] theorem State.memClear_cp (s : State) (lo hi : Nat) : (s.memClear lo hi).cp = s.cp := rfl
@[simp] theorem State.memClear_tw (s : State) (lo hi : Nat) : (s.memClear lo hi).tw = s.tw := rfl
@[simp] theorem State.memClear_wk (s : State) (lo hi : Nat) : (s.memClear lo hi).wk = s.wk := rfl
@[simp] theorem State.memClear_pw (s : State) (lo hi : Nat) : (s.memClear lo hi).pw = s.pw := rfl
@[simp] theorem State.memClear_sill (s : State) (lo hi : Nat) : (s.memClear lo hi).sill = s.sill := rfl
@[simp] theorem State.memClear_hb (s : State) (lo hi : Nat) : (s.memClear lo hi).hb = s.hb := rfl
@[simp] theorem State.memClear_rd (s : State) (lo hi : Nat) (a_ : Nat) : (s.memClear lo hi).rd a_ = s.rd a_ := rfl
@[simp] theorem State.memClear_rdN (s : State) (lo hi : Nat) (a_ : Nat) : (s.memClear lo hi).rdN a_ = s.rdN a_ := rfl
@[simp] theorem State.memClear_fld (s : State) (lo hi : Nat) (a_ lo_ w_ : Nat) : (s.memClear lo hi).fld a_ lo_ w_ = s.fld a_ lo_ w_ := rfl
@[simp] theorem State.memClear_bit (s : State) (lo hi : Nat) (a_ k_ : Nat) : (s.memClear lo hi).bit a_ k_ = s.bit a_ k_ := rfl
@[simp] theorem State.memClear_mort (s : State) (lo hi : Nat) (m_ : Nat) : (s.memClear lo hi).mort m_ = s.mort m_ := rfl
@[simp] theorem State.memClear_bay (s : State) (lo hi : Nat) (b_ : Nat) : (s.memClear lo hi).bay b_ = s.bay b_ := rfl
@[simp] theorem State.memClear_dieOn (s : State) (lo hi : Nat)  : (s.memClear lo hi).dieOn = s.dieOn := rfl
@[simp] theorem State.memClear_atOnce (s : State) (lo hi : Nat)  : (s.memClear lo hi).atOnce = s.atOnce := rfl

@[simp] theorem State.tick_pending (s : State) (t : Nat) : (s.tick t).pending = s.pending := rfl
@[simp] theorem State.tick_now (s : State) (t : Nat) : (s.tick t).now = max s.now t := rfl
@[simp] theorem State.tick_free (s : State) (t : Nat) : (s.tick t).free = s.free := rfl
@[simp] theorem State.tick_grade (s : State) (t : Nat) : (s.tick t).grade = s.grade := rfl
@[simp] theorem State.tick_mode (s : State) (t : Nat) : (s.tick t).mode = s.mode := rfl
@[simp] theorem State.tick_regs (s : State) (t : Nat) : (s.tick t).regs = s.regs := rfl
@[simp] theorem State.tick_mem (s : State) (t : Nat) : (s.tick t).mem = s.mem := rfl
@[simp] theorem State.tick_held (s : State) (t : Nat) : (s.tick t).held = s.held := rfl
@[simp] theorem State.tick_bus (s : State) (t : Nat) : (s.tick t).bus = s.bus := rfl
@[simp] theorem State.tick_tb (s : State) (t : Nat) : (s.tick t).tb = s.tb := rfl
@[simp] theorem State.tick_ep (s : State) (t : Nat) : (s.tick t).ep = s.ep := rfl
@[simp] theorem State.tick_fr (s : State) (t : Nat) : (s.tick t).fr = s.fr := rfl
@[simp] theorem State.tick_flt (s : State) (t : Nat) : (s.tick t).flt = s.flt := rfl
@[simp] theorem State.tick_mz (s : State) (t : Nat) : (s.tick t).mz = s.mz := rfl
@[simp] theorem State.tick_banks (s : State) (t : Nat) : (s.tick t).banks = s.banks := rfl
@[simp] theorem State.tick_bays (s : State) (t : Nat) : (s.tick t).bays = s.bays := rfl
@[simp] theorem State.tick_gw (s : State) (t : Nat) : (s.tick t).gw = s.gw := rfl
@[simp] theorem State.tick_tab (s : State) (t : Nat) : (s.tick t).tab = s.tab := rfl
@[simp] theorem State.tick_sch (s : State) (t : Nat) : (s.tick t).sch = s.sch := rfl
@[simp] theorem State.tick_ks (s : State) (t : Nat) : (s.tick t).ks = s.ks := rfl
@[simp] theorem State.tick_cp (s : State) (t : Nat) : (s.tick t).cp = s.cp := rfl
@[simp] theorem State.tick_tw (s : State) (t : Nat) : (s.tick t).tw = s.tw := rfl
@[simp] theorem State.tick_wk (s : State) (t : Nat) : (s.tick t).wk = s.wk := rfl
@[simp] theorem State.tick_pw (s : State) (t : Nat) : (s.tick t).pw = s.pw := rfl
@[simp] theorem State.tick_sill (s : State) (t : Nat) : (s.tick t).sill = s.sill := rfl
@[simp] theorem State.tick_hb (s : State) (t : Nat) : (s.tick t).hb = s.hb := rfl
@[simp] theorem State.tick_rd (s : State) (t : Nat) (a_ : Nat) : (s.tick t).rd a_ = s.rd a_ := rfl
@[simp] theorem State.tick_rdN (s : State) (t : Nat) (a_ : Nat) : (s.tick t).rdN a_ = s.rdN a_ := rfl
@[simp] theorem State.tick_fld (s : State) (t : Nat) (a_ lo_ w_ : Nat) : (s.tick t).fld a_ lo_ w_ = s.fld a_ lo_ w_ := rfl
@[simp] theorem State.tick_bit (s : State) (t : Nat) (a_ k_ : Nat) : (s.tick t).bit a_ k_ = s.bit a_ k_ := rfl
@[simp] theorem State.tick_mort (s : State) (t : Nat) (m_ : Nat) : (s.tick t).mort m_ = s.mort m_ := rfl
@[simp] theorem State.tick_bay (s : State) (t : Nat) (b_ : Nat) : (s.tick t).bay b_ = s.bay b_ := rfl
@[simp] theorem State.tick_memB (s : State) (t : Nat) (a_ : Nat) : (s.tick t).memB a_ = s.memB a_ := rfl
@[simp] theorem State.tick_dieOn (s : State) (t : Nat)  : (s.tick t).dieOn = s.dieOn := rfl
@[simp] theorem State.tick_atOnce (s : State) (t : Nat)  : (s.tick t).atOnce = s.atOnce := rfl

@[simp] theorem State.setBent_pending (s : State) (i : Nat) (b : BentSt) : (s.setBent i b).pending = s.pending := rfl
@[simp] theorem State.setBent_now (s : State) (i : Nat) (b : BentSt) : (s.setBent i b).now = s.now := rfl
@[simp] theorem State.setBent_free (s : State) (i : Nat) (b : BentSt) : (s.setBent i b).free = s.free := rfl
@[simp] theorem State.setBent_grade (s : State) (i : Nat) (b : BentSt) : (s.setBent i b).grade = s.grade := rfl
@[simp] theorem State.setBent_mode (s : State) (i : Nat) (b : BentSt) : (s.setBent i b).mode = s.mode := rfl
@[simp] theorem State.setBent_regs (s : State) (i : Nat) (b : BentSt) : (s.setBent i b).regs = s.regs := rfl
@[simp] theorem State.setBent_mem (s : State) (i : Nat) (b : BentSt) : (s.setBent i b).mem = s.mem := rfl
@[simp] theorem State.setBent_held (s : State) (i : Nat) (b : BentSt) : (s.setBent i b).held = s.held := rfl
@[simp] theorem State.setBent_bus (s : State) (i : Nat) (b : BentSt) : (s.setBent i b).bus = s.bus := rfl
@[simp] theorem State.setBent_tb (s : State) (i : Nat) (b : BentSt) : (s.setBent i b).tb = s.tb := rfl
@[simp] theorem State.setBent_ep (s : State) (i : Nat) (b : BentSt) : (s.setBent i b).ep = s.ep := rfl
@[simp] theorem State.setBent_flt (s : State) (i : Nat) (b : BentSt) : (s.setBent i b).flt = s.flt := rfl
@[simp] theorem State.setBent_mz (s : State) (i : Nat) (b : BentSt) : (s.setBent i b).mz = s.mz := rfl
@[simp] theorem State.setBent_banks (s : State) (i : Nat) (b : BentSt) : (s.setBent i b).banks = s.banks := rfl
@[simp] theorem State.setBent_bays (s : State) (i : Nat) (b : BentSt) : (s.setBent i b).bays = s.bays := rfl
@[simp] theorem State.setBent_gw (s : State) (i : Nat) (b : BentSt) : (s.setBent i b).gw = s.gw := rfl
@[simp] theorem State.setBent_tab (s : State) (i : Nat) (b : BentSt) : (s.setBent i b).tab = s.tab := rfl
@[simp] theorem State.setBent_sch (s : State) (i : Nat) (b : BentSt) : (s.setBent i b).sch = s.sch := rfl
@[simp] theorem State.setBent_ks (s : State) (i : Nat) (b : BentSt) : (s.setBent i b).ks = s.ks := rfl
@[simp] theorem State.setBent_cp (s : State) (i : Nat) (b : BentSt) : (s.setBent i b).cp = s.cp := rfl
@[simp] theorem State.setBent_tw (s : State) (i : Nat) (b : BentSt) : (s.setBent i b).tw = s.tw := rfl
@[simp] theorem State.setBent_wk (s : State) (i : Nat) (b : BentSt) : (s.setBent i b).wk = s.wk := rfl
@[simp] theorem State.setBent_pw (s : State) (i : Nat) (b : BentSt) : (s.setBent i b).pw = s.pw := rfl
@[simp] theorem State.setBent_sill (s : State) (i : Nat) (b : BentSt) : (s.setBent i b).sill = s.sill := rfl
@[simp] theorem State.setBent_hb (s : State) (i : Nat) (b : BentSt) : (s.setBent i b).hb = s.hb := rfl
@[simp] theorem State.setBent_rd (s : State) (i : Nat) (b : BentSt) (a_ : Nat) : (s.setBent i b).rd a_ = s.rd a_ := rfl
@[simp] theorem State.setBent_rdN (s : State) (i : Nat) (b : BentSt) (a_ : Nat) : (s.setBent i b).rdN a_ = s.rdN a_ := rfl
@[simp] theorem State.setBent_fld (s : State) (i : Nat) (b : BentSt) (a_ lo_ w_ : Nat) : (s.setBent i b).fld a_ lo_ w_ = s.fld a_ lo_ w_ := rfl
@[simp] theorem State.setBent_bit (s : State) (i : Nat) (b : BentSt) (a_ k_ : Nat) : (s.setBent i b).bit a_ k_ = s.bit a_ k_ := rfl
@[simp] theorem State.setBent_mort (s : State) (i : Nat) (b : BentSt) (m_ : Nat) : (s.setBent i b).mort m_ = s.mort m_ := rfl
@[simp] theorem State.setBent_bay (s : State) (i : Nat) (b : BentSt) (b_ : Nat) : (s.setBent i b).bay b_ = s.bay b_ := rfl
@[simp] theorem State.setBent_memB (s : State) (i : Nat) (b : BentSt) (a_ : Nat) : (s.setBent i b).memB a_ = s.memB a_ := rfl
@[simp] theorem State.setBent_dieOn (s : State) (i : Nat) (b : BentSt)  : (s.setBent i b).dieOn = s.dieOn := rfl
@[simp] theorem State.setBent_atOnce (s : State) (i : Nat) (b : BentSt)  : (s.setBent i b).atOnce = s.atOnce := rfl

end Sys2Proof.Machine
end

