-- ==== Sys2Proof/Laws/Ops.lean ====
section
/-! SUPPORT. Laws/Ops.lean: what the named operations do: reads after writes of registers and of the table space, bit fields, mortises, bays and
inputs, and the one thing `settle` changes. -/
set_option Elab.async false
namespace Sys2Proof.Machine
open Sys2Proof

/-! ### Numbers and bit fields -/

theorem bitsN_lt (n lo w : Nat) : bitsN n lo w < 2 ^ w := Nat.mod_lt _ (Nat.two_pow_pos w)

theorem putN_eq (n lo w v : Nat) : putN n lo w v = n % 2 ^ lo + 2 ^ lo * (v % 2 ^ w) + 2 ^ (lo + w) * (n / 2 ^ (lo + w)) := by
  have h1 : n = n % 2 ^ lo + 2 ^ lo * (n / 2 ^ lo) := (Nat.mod_add_div n (2 ^ lo)).symm
  have h2 : n / 2 ^ lo = n / 2 ^ lo % 2 ^ w + 2 ^ w * (n / 2 ^ lo / 2 ^ w) := (Nat.mod_add_div _ _).symm
  have h3 : n / 2 ^ lo / 2 ^ w = n / 2 ^ (lo + w) := by rw [Nat.div_div_eq_div_mul, Nat.pow_add]
  have h4 : 2 ^ lo * (2 ^ w * (n / 2 ^ (lo + w))) = 2 ^ (lo + w) * (n / 2 ^ (lo + w)) := by rw [Nat.pow_add, Nat.mul_assoc]
  have h5 : 2 ^ lo * (n / 2 ^ lo) = 2 ^ lo * (n / 2 ^ lo % 2 ^ w) + 2 ^ (lo + w) * (n / 2 ^ (lo + w)) := by
    rw [← h4, ← Nat.mul_add, ← h3, ← h2]
  simp only [putN, bitsN, Nat.shiftRight_eq_div_pow]
  rw [Nat.mul_comm _ (2 ^ lo), Nat.mul_comm (v % 2 ^ w)]
  omega

theorem testBit_putN (n lo w v k : Nat) :
    (putN n lo w v).testBit k = if lo ≤ k ∧ k < lo + w then v.testBit (k - lo) else n.testBit k := by
  have hv : v % 2 ^ w < 2 ^ w := Nat.mod_lt _ (Nat.two_pow_pos w)
  have hn : n % 2 ^ lo < 2 ^ lo := Nat.mod_lt _ (Nat.two_pow_pos lo)
  have e : putN n lo w v = 2 ^ lo * (2 ^ w * (n / 2 ^ (lo + w)) + v % 2 ^ w) + n % 2 ^ lo := by
    rw [putN_eq, Nat.mul_add, ← Nat.mul_assoc, ← Nat.pow_add]; omega
  rw [e, Nat.testBit_two_pow_mul_add _ hn]
  split
  · rw [if_neg (by omega), Nat.testBit_mod_two_pow]; simp_all
  · rw [Nat.testBit_two_pow_mul_add _ hv]
    split
    · rw [if_pos (by omega), Nat.testBit_mod_two_pow]; simp_all
    · rw [if_neg (by omega), Nat.testBit_div_two_pow]
      congr 1; omega

theorem bitsN_testBit (n lo w k : Nat) : (bitsN n lo w).testBit k = (decide (k < w) && n.testBit (lo + k)) := by
  simp [bitsN, Nat.testBit_mod_two_pow, Nat.testBit_shiftRight]

/-- A field just written reads as what was written. -/
theorem bitsN_putN_same (n lo w v : Nat) : bitsN (putN n lo w v) lo w = v % 2 ^ w := by
  apply Nat.eq_of_testBit_eq
  intro k
  rw [bitsN_testBit, testBit_putN, Nat.testBit_mod_two_pow]
  by_cases h : k < w
  · rw [if_pos (by omega)]; simp [h]
  · simp [h]

/-- A field outside the one written is unchanged. -/
theorem bitsN_putN_ne (n lo w v lo' w' : Nat) (h : lo' + w' ≤ lo ∨ lo + w ≤ lo') : bitsN (putN n lo w v) lo' w' = bitsN n lo' w' := by
  apply Nat.eq_of_testBit_eq
  intro k
  rw [bitsN_testBit, bitsN_testBit, testBit_putN]
  by_cases hk : k < w'
  · rw [if_neg (by omega)]
  · simp [hk]

theorem testBit_putBit (n k : Nat) (b : Bool) (j : Nat) : (putBit n k b).testBit j = if j = k then b else n.testBit j := by
  rw [putBit, testBit_putN]
  by_cases h : j = k
  · subst h; cases b <;> simp
  · rw [if_neg (by omega), if_neg h]

/-- A field within the word is unchanged by the cut to the word. -/
theorem bitsN_mod (n lo w m : Nat) (h : lo + w ≤ m) : bitsN (n % 2 ^ m) lo w = bitsN n lo w := by
  apply Nat.eq_of_testBit_eq
  intro k
  rw [bitsN_testBit, bitsN_testBit, Nat.testBit_mod_two_pow]
  by_cases hk : k < w
  · simp [hk, show lo + k < m by omega]
  · simp [hk]

/-! ### Registers -/

theorem regFind_regPut (l : List (Nat × Word)) (a b : Nat) (w : Word) :
    regFind (regPut l a w) b = if b = a then some w else regFind l b := by
  induction l with
  | nil =>
    simp only [regPut, regFind]
    by_cases h : b = a
    · simp [h]
    · simp [h, Ne.symm h]
  | cons y l ih =>
    obtain ⟨c, v⟩ := y
    simp only [regPut]
    split
    · subst_vars
      simp only [regFind]
      by_cases h : b = c
      · simp [h]
      · simp [h, Ne.symm h]
    · split
      · simp only [regFind]
        by_cases h : b = a
        · simp [h]
        · simp only [h, Ne.symm h, if_false]
          by_cases h' : b < a
          · simp [h', show ¬ c = b by omega, show b < c by omega]
          · simp [h']
      · simp only [regFind, ih]
        by_cases h : c = b
        · simp [h, show ¬ b = a by omega]
        · simp only [h, if_false]
          by_cases h' : b < c
          · simp [h', show ¬ b = a by omega]
          · simp [h']

/-- A register reads as it was last written; every other register as before. -/
theorem rd_wr (s : State) (a b : Nat) (w : Word) : (s.wr a w).rd b = if b = a then w else s.rd b := by
  simp only [State.rd, State.wr, regFind_regPut]
  split <;> rfl

@[simp] theorem rd_wr_same (s : State) (a : Nat) (w : Word) : (s.wr a w).rd a = w := by simp [rd_wr]

theorem rdN_wrN (s : State) (a b n : Nat) : (s.wrN a n).rdN b = if b = a then n % 2 ^ 32 else s.rdN b := by
  simp only [State.rdN, State.wrN, rd_wr]
  split
  · exact BitVec.toNat_ofNat ..
  · rfl

@[simp] theorem rdN_wrN_same (s : State) (a n : Nat) : (s.wrN a n).rdN a = n % 2 ^ 32 := by simp [rdN_wrN]

theorem rdN_wrN_ne (s : State) (a b n : Nat) (h : b ≠ a) : (s.wrN a n).rdN b = s.rdN b := by simp [rdN_wrN, h]

theorem rdN_lt (s : State) (a : Nat) : s.rdN a < 2 ^ 32 := (s.rd a).isLt

theorem rdN_setFld_ne (s : State) (a b lo w v : Nat) (h : b ≠ a) : (s.setFld a lo w v).rdN b = s.rdN b := rdN_wrN_ne _ _ _ _ h

theorem rdN_setBit_ne (s : State) (a b k : Nat) (v : Bool) (h : b ≠ a) : (s.setBit a k v).rdN b = s.rdN b := rdN_wrN_ne _ _ _ _ h

theorem rdN_evt_ne (s : State) (a b k : Nat) (h : b ≠ a) : (s.evt a k).rdN b = s.rdN b := rdN_wrN_ne _ _ _ _ h

theorem rdN_inc_ne (s : State) (a b n : Nat) (h : b ≠ a) : (s.inc a n).rdN b = s.rdN b := rdN_wrN_ne _ _ _ _ h

@[simp] theorem rdN_inc_same (s : State) (a n : Nat) : (s.inc a n).rdN a = (s.rdN a + n) % 2 ^ 32 := by simp [State.inc]

/-- A field just written reads as what was written. -/
theorem fld_setFld_same (s : State) (a lo w v : Nat) (h : lo + w ≤ 32) : (s.setFld a lo w v).fld a lo w = v % 2 ^ w := by
  simp only [State.fld, State.setFld, rdN_wrN_same]
  rw [bitsN_mod _ _ _ _ h, bitsN_putN_same]

theorem fld_setFld_ne (s : State) (a lo w v lo' w' : Nat) (h : lo' + w' ≤ 32) (k : lo' + w' ≤ lo ∨ lo + w ≤ lo') :
    (s.setFld a lo w v).fld a lo' w' = s.fld a lo' w' := by
  simp only [State.fld, State.setFld, rdN_wrN_same]
  rw [bitsN_mod _ _ _ _ h, bitsN_putN_ne _ _ _ _ _ _ k]

theorem fld_wrN_ne (s : State) (a b n lo w : Nat) (h : b ≠ a) : (s.wrN a n).fld b lo w = s.fld b lo w := by
  simp only [State.fld, rdN_wrN_ne _ _ _ _ h]

theorem bit_wrN_ne (s : State) (a b n k : Nat) (h : b ≠ a) : (s.wrN a n).bit b k = s.bit b k := by
  simp only [State.bit, rdN_wrN_ne _ _ _ _ h]

/-- A bit just written reads as what was written. -/
theorem bit_setBit (s : State) (a k j : Nat) (b : Bool) (h : j < 32) : (s.setBit a k b).bit a j = if j = k then b else s.bit a j := by
  simp only [State.bit, State.setBit, rdN_wrN_same, Nat.testBit_mod_two_pow, h, decide_true, Bool.true_and, testBit_putBit]

/-- An event bit just set reads as 1, and no other bit of the register changes. -/
theorem bit_evt (s : State) (a k j : Nat) (h : j < 32) : (s.evt a k).bit a j = (s.bit a j || decide (j = k)) := by
  simp only [State.bit, State.evt, rdN_wrN_same, Nat.testBit_mod_two_pow, h, decide_true, Bool.true_and, Nat.testBit_or, Nat.testBit_two_pow]
  congr 1
  exact decide_eq_decide.mpr eq_comm

@[simp] theorem bit_evt_same (s : State) (a k : Nat) (h : k < 32) : (s.evt a k).bit a k = true := by simp [bit_evt _ _ _ _ h]

/-! ### Lists of units -/

theorem nth_updAt {α : Type} [Inhabited α] (l : List α) (i j : Nat) (f : α → α) :
    nth (updAt l i f) j = if j = i ∧ i < l.length then f (nth l i) else nth l j := by
  simp only [nth, updAt, List.getD_eq_getElem?_getD, List.getElem?_modify]
  by_cases h : i = j
  · subst h
    by_cases h' : i < l.length
    · simp [h']
    · simp [h']
  · simp [h, Ne.symm h]

theorem mort_onMort (s : State) (m k : Nat) (f : Mortise → Mortise) :
    (s.onMort m f).mort k = if k = m ∧ m < s.mz.length then f (s.mort m) else s.mort k := nth_updAt ..

theorem bay_onBay (s : State) (b k : Nat) (f : Bay → Bay) :
    (s.onBay b f).bay k = if k = b ∧ b < s.bays.length then f (s.bay b) else s.bay k := nth_updAt ..

/-! ### What follows every command -/

/-- `t` is `s` but for the vectors the bridge has sent, marked pending or owes. -/
def VecOnly (s t : State) : Prop :=
  ∃ d i p q l, t = { s with hb := { s.hb with rxDue := d, ringIrq := i, pba0 := p, pba1 := q, sent := s.hb.sent ++ l } }

theorem VecOnly.refl (s : State) : VecOnly s s := ⟨s.hb.rxDue, s.hb.ringIrq, s.hb.pba0, s.hb.pba1, [], by rw [List.append_nil]⟩

theorem VecOnly.trans {s t u : State} (h : VecOnly s t) (k : VecOnly t u) : VecOnly s u := by
  obtain ⟨d, i, p, q, l, rfl⟩ := h
  obtain ⟨d', i', p', q', l', rfl⟩ := k
  exact ⟨d', i', p', q', l ++ l', by rw [← List.append_assoc]⟩

theorem VecOnly.foldl {α : Type} {f : State → α → State} (hf : ∀ s x, VecOnly s (f s x)) (l : List α) (s : State) : VecOnly s (l.foldl f s) := by
  induction l generalizing s with
  | nil => exact .refl s
  | cons a l ih => exact (hf s a).trans (ih _)

theorem sendVec_frame (s : State) (fn vec : Nat) : VecOnly s (s.sendVec fn vec) := by
  unfold State.sendVec
  split
  · by_cases h : fn = 0
    · simp only [h, if_true]
      exact ⟨s.hb.rxDue, s.hb.ringIrq, s.hb.pba0 ||| 2 ^ vec, s.hb.pba1, [], by rw [List.append_nil]; rfl⟩
    · simp only [h, if_false]
      exact ⟨s.hb.rxDue, s.hb.ringIrq, s.hb.pba0, s.hb.pba1 ||| 2 ^ vec, [], by rw [List.append_nil]; rfl⟩
  · exact ⟨s.hb.rxDue, s.hb.ringIrq, s.hb.pba0, s.hb.pba1, [(fn, vec)], rfl⟩

theorem ringVec_frame (s : State) (k : Nat) : VecOnly s (s.ringVec k) := by
  unfold State.ringVec
  extract_lets ctl
  split
  · refine VecOnly.trans ?_ (sendVec_frame _ _ _)
    exact ⟨s.hb.rxDue, s.hb.ringIrq ||| 2 ^ k, s.hb.pba0, s.hb.pba1, [], by rw [List.append_nil]; rfl⟩
  · exact .refl s

theorem ringVecs_frame (s : State) : VecOnly s s.ringVecs :=
  VecOnly.trans ⟨[], s.hb.ringIrq, s.hb.pba0, s.hb.pba1, [], by rw [List.append_nil]; rfl⟩ (VecOnly.foldl ringVec_frame s.hb.rxDue (s.onHb fun h => { h with rxDue := [] }))

/-- What follows a command changes nothing but the bridge's vectors. -/
theorem settle_frame (s0 s : State) : VecOnly s (s0.settle s) := by
  unfold State.settle
  extract_lets s1 was now
  have h1 : VecOnly s s1 := by
    show VecOnly s (if s.atOnce then s.ringVecs else s)
    split
    · exact ringVecs_frame s
    · exact .refl s
  refine h1.trans (VecOnly.foldl (fun s x => ?_) _ _)
  split
  · exact sendVec_frame ..
  · exact .refl s

/-- A vector sent before the command ends stays sent. -/
theorem settle_sent (s0 s : State) {x : Nat × Nat} (h : x ∈ s.hb.sent) : x ∈ (s0.settle s).hb.sent := by
  obtain ⟨d, i, p, q, l, e⟩ := settle_frame s0 s
  rw [e]
  exact List.mem_append_left _ h

@[simp] theorem settle_pending (s0 s : State) : (s0.settle s).pending = s.pending := by
  obtain ⟨_, _, _, _, _, e⟩ := settle_frame s0 s; rw [e]
@[simp] theorem settle_now (s0 s : State) : (s0.settle s).now = s.now := by
  obtain ⟨_, _, _, _, _, e⟩ := settle_frame s0 s; rw [e]
@[simp] theorem settle_free (s0 s : State) : (s0.settle s).free = s.free := by
  obtain ⟨_, _, _, _, _, e⟩ := settle_frame s0 s; rw [e]
@[simp] theorem settle_grade (s0 s : State) : (s0.settle s).grade = s.grade := by
  obtain ⟨_, _, _, _, _, e⟩ := settle_frame s0 s; rw [e]
@[simp] theorem settle_mode (s0 s : State) : (s0.settle s).mode = s.mode := by
  obtain ⟨_, _, _, _, _, e⟩ := settle_frame s0 s; rw [e]
@[simp] theorem settle_regs (s0 s : State) : (s0.settle s).regs = s.regs := by
  obtain ⟨_, _, _, _, _, e⟩ := settle_frame s0 s; rw [e]
@[simp] theorem settle_mem (s0 s : State) : (s0.settle s).mem = s.mem := by
  obtain ⟨_, _, _, _, _, e⟩ := settle_frame s0 s; rw [e]
@[simp] theorem settle_held (s0 s : State) : (s0.settle s).held = s.held := by
  obtain ⟨_, _, _, _, _, e⟩ := settle_frame s0 s; rw [e]
@[simp] theorem settle_bus (s0 s : State) : (s0.settle s).bus = s.bus := by
  obtain ⟨_, _, _, _, _, e⟩ := settle_frame s0 s; rw [e]
@[simp] theorem settle_tb (s0 s : State) : (s0.settle s).tb = s.tb := by
  obtain ⟨_, _, _, _, _, e⟩ := settle_frame s0 s; rw [e]
@[simp] theorem settle_ep (s0 s : State) : (s0.settle s).ep = s.ep := by
  obtain ⟨_, _, _, _, _, e⟩ := settle_frame s0 s; rw [e]
@[simp] theorem settle_fr (s0 s : State) : (s0.settle s).fr = s.fr := by
  obtain ⟨_, _, _, _, _, e⟩ := settle_frame s0 s; rw [e]
@[simp] theorem settle_flt (s0 s : State) : (s0.settle s).flt = s.flt := by
  obtain ⟨_, _, _, _, _, e⟩ := settle_frame s0 s; rw [e]
@[simp] theorem settle_mz (s0 s : State) : (s0.settle s).mz = s.mz := by
  obtain ⟨_, _, _, _, _, e⟩ := settle_frame s0 s; rw [e]
@[simp] theorem settle_banks (s0 s : State) : (s0.settle s).banks = s.banks := by
  obtain ⟨_, _, _, _, _, e⟩ := settle_frame s0 s; rw [e]
@[simp] theorem settle_bays (s0 s : State) : (s0.settle s).bays = s.bays := by
  obtain ⟨_, _, _, _, _, e⟩ := settle_frame s0 s; rw [e]
@[simp] theorem settle_gw (s0 s : State) : (s0.settle s).gw = s.gw := by
  obtain ⟨_, _, _, _, _, e⟩ := settle_frame s0 s; rw [e]
@[simp] theorem settle_tab (s0 s : State) : (s0.settle s).tab = s.tab := by
  obtain ⟨_, _, _, _, _, e⟩ := settle_frame s0 s; rw [e]
@[simp] theorem settle_sch (s0 s : State) : (s0.settle s).sch = s.sch := by
  obtain ⟨_, _, _, _, _, e⟩ := settle_frame s0 s; rw [e]
@[simp] theorem settle_ks (s0 s : State) : (s0.settle s).ks = s.ks := by
  obtain ⟨_, _, _, _, _, e⟩ := settle_frame s0 s; rw [e]
@[simp] theorem settle_cp (s0 s : State) : (s0.settle s).cp = s.cp := by
  obtain ⟨_, _, _, _, _, e⟩ := settle_frame s0 s; rw [e]
@[simp] theorem settle_tw (s0 s : State) : (s0.settle s).tw = s.tw := by
  obtain ⟨_, _, _, _, _, e⟩ := settle_frame s0 s; rw [e]
@[simp] theorem settle_wk (s0 s : State) : (s0.settle s).wk = s.wk := by
  obtain ⟨_, _, _, _, _, e⟩ := settle_frame s0 s; rw [e]
@[simp] theorem settle_pw (s0 s : State) : (s0.settle s).pw = s.pw := by
  obtain ⟨_, _, _, _, _, e⟩ := settle_frame s0 s; rw [e]
@[simp] theorem settle_sill (s0 s : State) : (s0.settle s).sill = s.sill := by
  obtain ⟨_, _, _, _, _, e⟩ := settle_frame s0 s; rw [e]
@[simp] theorem settle_hb_bufs (s0 s : State) : (s0.settle s).hb.bufs = s.hb.bufs := by
  obtain ⟨_, _, _, _, _, e⟩ := settle_frame s0 s; rw [e]
@[simp] theorem settle_hb_rxOut (s0 s : State) : (s0.settle s).hb.rxOut = s.hb.rxOut := by
  obtain ⟨_, _, _, _, _, e⟩ := settle_frame s0 s; rw [e]
@[simp] theorem settle_hb_far (s0 s : State) : (s0.settle s).hb.far = s.hb.far := by
  obtain ⟨_, _, _, _, _, e⟩ := settle_frame s0 s; rw [e]
@[simp] theorem settle_hb_lockL (s0 s : State) : (s0.settle s).hb.lockL = s.hb.lockL := by
  obtain ⟨_, _, _, _, _, e⟩ := settle_frame s0 s; rw [e]
@[simp] theorem settle_hb_lockF (s0 s : State) : (s0.settle s).hb.lockF = s.hb.lockF := by
  obtain ⟨_, _, _, _, _, e⟩ := settle_frame s0 s; rw [e]
@[simp] theorem settle_hb_blocks (s0 s : State) : (s0.settle s).hb.blocks = s.hb.blocks := by
  obtain ⟨_, _, _, _, _, e⟩ := settle_frame s0 s; rw [e]
@[simp] theorem settle_hb_served (s0 s : State) : (s0.settle s).hb.served = s.hb.served := by
  obtain ⟨_, _, _, _, _, e⟩ := settle_frame s0 s; rw [e]
@[simp] theorem settle_hb_txDone (s0 s : State) : (s0.settle s).hb.txDone = s.hb.txDone := by
  obtain ⟨_, _, _, _, _, e⟩ := settle_frame s0 s; rw [e]
@[simp] theorem settle_hb_txAt (s0 s : State) : (s0.settle s).hb.txAt = s.hb.txAt := by
  obtain ⟨_, _, _, _, _, e⟩ := settle_frame s0 s; rw [e]
@[simp] theorem settle_hb_msix0 (s0 s : State) : (s0.settle s).hb.msix0 = s.hb.msix0 := by
  obtain ⟨_, _, _, _, _, e⟩ := settle_frame s0 s; rw [e]
@[simp] theorem settle_hb_msix1 (s0 s : State) : (s0.settle s).hb.msix1 = s.hb.msix1 := by
  obtain ⟨_, _, _, _, _, e⟩ := settle_frame s0 s; rw [e]
@[simp] theorem settle_hb_stalled (s0 s : State) : (s0.settle s).hb.stalled = s.hb.stalled := by
  obtain ⟨_, _, _, _, _, e⟩ := settle_frame s0 s; rw [e]
@[simp] theorem settle_rd (s0 s : State) (a : Nat) : (s0.settle s).rd a = s.rd a := by simp [State.rd]
@[simp] theorem settle_rdN (s0 s : State) (a : Nat) : (s0.settle s).rdN a = s.rdN a := by simp [State.rdN, State.rdN]
@[simp] theorem settle_fld (s0 s : State) (a lo w : Nat) : (s0.settle s).fld a lo w = s.fld a lo w := by simp [State.fld, State.rdN]
@[simp] theorem settle_bit (s0 s : State) (a k : Nat) : (s0.settle s).bit a k = s.bit a k := by simp [State.bit, State.rdN]
@[simp] theorem settle_mort (s0 s : State) (m : Nat) : (s0.settle s).mort m = s.mort m := by simp [State.mort]
@[simp] theorem settle_bay (s0 s : State) (b : Nat) : (s0.settle s).bay b = s.bay b := by simp [State.bay]

end Sys2Proof.Machine
end

