-- ==== Sys2Proof/Laws/Host.lean ====
section
/-! SUPPORT. Laws/Host.lean: what an access does that nothing holds up, and the octets of the table space after a write. -/
set_option Elab.async false
namespace Sys2Proof.Machine
open Sys2Proof

theorem unstall_empty (s : State) (h : s.hb.stalled = []) : s.unstall = s := by
  unfold State.unstall
  rw [h]
  rfl

/-- An access that nothing holds up is performed at once; a read also needs the master's error flag clear (R512). -/
theorem access_reaches (s : State) (x : Access) (h : s.reaches x.ms (worldOf x.ms x.w)) (hp : x.data = none → s.perr x.ms = false)
    (ha : x.addr < 0x800000) : s.access x = (s.perform { x with w := worldOf x.ms x.w }).unstall := by
  obtain ⟨h1, h2, h3, h4, h5⟩ := h
  have hf : isFar x.addr = false := by simp [isFar]; omega
  have hl : (s.hb.lockL.any fun l => l.ms != x.ms || l.w != worldOf x.ms x.w) = false := by
    cases hh : s.hb.lockL with
    | none => rfl
    | some l => have := h2 l hh; simp [this]
  have hsp : (x.ms == Master.spi && !s.spiOpen (worldOf x.ms x.w)) = false := by
    by_cases e : x.ms = .spi
    · simp [h5 e]
    · simp [e]
  have he : (x.data.isNone && s.perr x.ms) = false := by
    cases hd : x.data with
    | none => simp [hp hd]
    | some d => rfl
  simp [State.access, h1, hsp, h4, h3, he, State.blocked, hf, hl]

/-- A write that nothing holds up reaches the unit's own register space. -/
theorem registerWrite_reaches (s : State) (ms : Master) (w : World) (a size u : Nat) (v : Word) (h : s.reaches ms (worldOf ms w)) (ha : a < 0x800000) :
    registerWrite ms w a size v u s = (s.localWrite ms (worldOf ms w) a size v.toNat 0xFFFFFFFF u).unstall := by
  unfold registerWrite
  rw [access_reaches s _ h (fun e => by cases e) ha]
  simp [State.perform, show isFar a = false by simp [isFar]; omega]

/-- The same for a write of the bits `m` as one word. -/
theorem busWrite_reaches (s : State) (ms : Master) (w : World) (a v m : Nat) (h : s.reaches ms (worldOf ms w)) (ha : a < 0x800000) :
    s.busWrite ms w a v m = (s.localWrite ms (worldOf ms w) a 4 (v % 2 ^ 32) m 0).unstall := by
  unfold State.busWrite
  rw [access_reaches s _ h (fun e => by cases e) ha]
  simp [State.perform, show isFar a = false by simp [isFar]; omega]

/-- A read that nothing holds up reaches the unit's own register space. -/
theorem readClear_reaches (s : State) (ms : Master) (w : World) (a size u : Nat) (h : s.reaches ms (worldOf ms w)) (hp : s.perr ms = false)
    (ha : a < 0x800000) : readClear ms w a size u s = (s.localRead ms (worldOf ms w) a size u).unstall := by
  unfold readClear
  rw [access_reaches s _ h (fun _ => hp) ha]
  simp [State.perform, show isFar a = false by simp [isFar]; omega]

/-- The same for a read of a word. -/
theorem busRead_reaches (s : State) (ms : Master) (w : World) (a : Nat) (h : s.reaches ms (worldOf ms w)) (hp : s.perr ms = false)
    (ha : a < 0x800000) : s.busRead ms w a = (s.localRead ms (worldOf ms w) a 4 0).unstall := readClear_reaches s ms w a 4 0 h hp ha

/-- A permitted write of a register without fields of the ledger stores and acts, and does nothing else. -/
theorem localWrite_row (s : State) (ms : Master) (w : World) (a v m u : Nat) (r : RegRow) (ha : a % 4 = 0) (hr : s.rowAt a = some r)
    (hw : s.mayWrite r.pol a ms w = true) (hl : ∀ f ∈ r.fields, f.ledger = false) : s.localWrite ms w a 4 v m u = s.plainWrite r ms w a v m u := by
  have : (rowMask r fun f => f.ledger && f.acc != .ro && (f.acc != .lk || s.lkOpen a)) = 0 := by
    unfold rowMask
    rw [List.filter_eq_nil_iff.mpr fun f h => by simp [hl f h]]
    rfl
  simp [State.localWrite, wordAccess, ha, hr, hw, this]

/-- Storing fields changes the register and nothing else. -/
theorem storeFields_frame (s : State) (r : RegRow) (a v m u : Nat) :
    s.storeFields r a v m u = s ∨ ∃ n, s.storeFields r a v m u = s.wrN a n := by
  unfold State.storeFields
  extract_lets
  split
  · exact .inl rfl
  · exact .inr ⟨_, rfl⟩

end Sys2Proof.Machine
end

