-- ==== Sys2Proof/Laws/After.lean ====
section
/-! SUPPORT. Laws/After.lean: from what a meaning leaves before the vectors follow it to what the command answers. -/
set_option Elab.async false
namespace Sys2Proof.Machine
open Sys2Proof

/-- What settles a state changes nothing but the bridge's vectors. -/
theorem settle_eq (s x : State) : s.settle x = { x with hb := (s.settle x).hb } := by
  obtain ⟨_, _, _, _, _, e⟩ := settle_frame s x
  rw [e]

/-- The vectors of a settled state follow those before it. -/
theorem settle_bridge (s x : State) : sameBridge x (s.settle x) := by
  obtain ⟨_, _, _, _, _, e⟩ := settle_frame s x
  rw [e]
  exact ⟨rfl, List.prefix_append _ _⟩

/-- The same over another state with the same bridge. -/
theorem settle_bridge_of (s x : State) {y : State} (h : x.hb = y.hb) : sameBridge y (s.settle x) := by
  have k := settle_bridge s x
  unfold sameBridge at *
  rw [← h]
  exact k

/-- A command that settles `x` completes with whatever holds of every state that is `x` but for the bridge's vectors. -/
theorem after_settle {i : Instr} {s x : State} {P : State → Prop} (h : exec i s = .next (s.settle x))
    (k : ∀ u : State, u = { x with hb := u.hb } → sameBridge x u → P u) : After i s P :=
  ⟨_, h, k _ (settle_eq s x) (settle_bridge s x)⟩

/-- The same, with what the meaning leaves written out: the bridge of the answer is that of `x` but for its vectors. -/
theorem after_of {i : Instr} {s x y : State} {P : State → Prop} (h : exec i s = .next (s.settle y)) (e : y = x)
    (k : ∀ b : Bridge, b = { x.hb with rxDue := b.rxDue, ringIrq := b.ringIrq, pba0 := b.pba0, pba1 := b.pba1, sent := b.sent } ∧ x.hb.sent <+: b.sent →
      P { x with hb := b }) : After i s P := by
  subst e
  exact after_settle h fun u hu hb => by rw [hu]; exact k _ hb

/-- What stamping adds while an epoch is stamped: one input to those being handed over, with the epoch, the instant, the arrival position and the origin of the unit. -/
theorem stampIn_cur (s : State) (i : Input) (e : Nat) (h : s.epochNow = some e) :
    s.stampIn i = { s with ep := { s.ep with
      pos := (s.takePos i.cls i.port).2.ep.pos
      handing := s.ep.handing ++ [{ i with
        stamp := e, inst := s.now, pos := (s.takePos i.cls i.port).1, origin := if (i.cls == 0 || i.cls == 3) && s.mode != .solo then s.pid else 0, inEp := e }] } } := by
  unfold State.stampIn
  split
  · rename_i h'
    rw [h] at h'
    cases h'
  · rename_i e' h'
    rw [h] at h'
    cases h'
    rfl

theorem foldl_or_testBit {α : Type} (g : α → Nat) (l : List α) (n k : Nat) :
    (l.foldl (fun m f => m ||| g f) n).testBit k = (n.testBit k || l.any (fun f => (g f).testBit k)) := by
  induction l generalizing n with
  | nil => simp
  | cons x l ih => simp [ih, Nat.testBit_or, Bool.or_assoc]

/-- A bit of the mask of a row's fields. -/
theorem rowMask_testBit (r : RegRow) (p : Field → Bool) (k : Nat) :
    (rowMask r p).testBit k = r.fields.any (fun f => p f && decide (f.lo ≤ k) && decide (k < f.lo + f.width)) := by
  unfold rowMask
  rw [foldl_or_testBit, Nat.zero_testBit, Bool.false_or, List.any_filter]
  congr 1
  funext f
  by_cases hp : p f <;> simp only [hp, Bool.true_and, Bool.false_and]
  rw [Nat.mul_comm, Nat.testBit_two_pow_mul, Nat.testBit_two_pow_sub_one]
  by_cases h : f.lo ≤ k
  · simp only [h, decide_true, Bool.true_and]
    exact decide_eq_decide.mpr (by omega)
  · simp [h]

end Sys2Proof.Machine
end

