-- ==== Sys2Proof/Laws/Mem.lean ====
section
/-! SUPPORT. Laws/Mem.lean: the table space: its canonical form is kept, and what a write leaves at every address. -/
set_option Elab.async false
namespace Sys2Proof.Machine
open Sys2Proof

theorem memWfFrom_mono {l : List Host.Cell} {a b : Nat} (h : memWfFrom b l = true) (k : a ≤ b) : memWfFrom a l = true := by
  cases l with
  | nil => rfl
  | cons c l =>
    simp only [memWfFrom, Bool.and_eq_true, decide_eq_true_eq] at h ⊢
    exact ⟨⟨by omega, h.1.2⟩, h.2⟩

theorem memPut_wfFrom {l : List Host.Cell} {b a : Nat} (v : Byte) (h : memWfFrom b l = true) (k : b ≤ a) : memWfFrom b (memPut l a v) = true := by
  induction l generalizing b with
  | nil =>
    simp only [memPut]
    split
    · rfl
    · simp [memWfFrom, *]
  | cons c l ih =>
    obtain ⟨x, w⟩ := c
    have h' := h
    simp only [memWfFrom, Bool.and_eq_true, decide_eq_true_eq] at h'
    simp only [memPut]
    split
    · subst_vars
      split
      · exact memWfFrom_mono h'.2 (by omega)
      · simp only [memWfFrom, Bool.and_eq_true, decide_eq_true_eq]
        exact ⟨⟨k, by simpa using ‹¬ v = memDefault›⟩, h'.2⟩
    · split
      · split
        · exact h
        · simp only [memWfFrom, Bool.and_eq_true, decide_eq_true_eq]
          exact ⟨⟨k, by simpa using ‹¬ v = memDefault›⟩, ⟨by omega, h'.1.2⟩, h'.2⟩
      · simp only [memWfFrom, Bool.and_eq_true, decide_eq_true_eq]
        exact ⟨h'.1, ih h'.2 (by omega)⟩

theorem memPut_wf {l : List Host.Cell} (a : Nat) (v : Byte) (h : Memory.wf l = true) : Memory.wf (memPut l a v) = true :=
  memPut_wfFrom v h (Nat.zero_le a)

theorem memPutAll_wf {l : List Host.Cell} {a : Nat} (v : Octets) (h : Memory.wf l = true) : Memory.wf (memPutAll l a v) = true := by
  induction v generalizing l a with
  | nil => exact h
  | cons x v ih => exact ih (memPut_wf _ _ h)

theorem memFilter_wfFrom {l : List Host.Cell} {b : Nat} (p : Host.Cell → Bool) (h : memWfFrom b l = true) : memWfFrom b (l.filter p) = true := by
  induction l generalizing b with
  | nil => rfl
  | cons c l ih =>
    have h' := h
    simp only [memWfFrom, Bool.and_eq_true, decide_eq_true_eq] at h'
    rw [List.filter_cons]
    split
    · simp only [memWfFrom, Bool.and_eq_true, decide_eq_true_eq]
      exact ⟨h'.1, ih h'.2⟩
    · exact memWfFrom_mono (ih h'.2) (by omega)

theorem memFilter_wf {l : List Host.Cell} (p : Host.Cell → Bool) (h : Memory.wf l = true) : Memory.wf (l.filter p) = true := memFilter_wfFrom p h

theorem memFold_wf {α : Type} {f : List Host.Cell → α → List Host.Cell} (l : List α) (hf : ∀ m x, Memory.wf m = true → Memory.wf (f m x) = true) (m : List Host.Cell)
    (h : Memory.wf m = true) : Memory.wf (l.foldl f m) = true := by
  induction l generalizing m with
  | nil => exact h
  | cons a l ih => exact ih _ (hf m a h)


/-- Below the first listed address nothing is listed. -/
theorem memFind_below {l : List Host.Cell} {b x : Nat} (h : memWfFrom b l = true) (k : x < b) : memFind l x = memDefault := by
  cases l with
  | nil => rfl
  | cons c l =>
    obtain ⟨a, v⟩ := c
    simp only [memWfFrom, Bool.and_eq_true, decide_eq_true_eq] at h
    simp only [memFind]
    rw [if_neg (by omega), if_pos (by omega)]

theorem memFind_memPut_from {l : List Host.Cell} {b : Nat} (h : memWfFrom b l = true) (a x : Nat) (v : Byte) :
    memFind (memPut l a v) x = if x = a then v else memFind l x := by
  induction l generalizing b with
  | nil =>
    by_cases hv : v = memDefault
    · simp [memPut, hv, memFind]
    · rw [memPut, if_neg hv]
      by_cases e1 : x = a
      · subst e1; simp [memFind]
      · have e2 : ¬ a = x := fun e => e1 e.symm
        simp [memFind, e1, e2]
  | cons c l ih =>
    obtain ⟨y, w⟩ := c
    simp only [memWfFrom, Bool.and_eq_true, decide_eq_true_eq] at h
    have hl := @memFind_below l (y + 1)
    simp only [memPut]
    split
    · rename_i e
      subst e
      split
      · rename_i hv
        by_cases hx : x = a
        · subst hx; rw [if_pos rfl, hv]; exact hl h.2 (by omega)
        · rw [if_neg hx, memFind, if_neg (fun e => hx e.symm)]
          split
          · exact hl h.2 (by omega)
          · rfl
      · rw [memFind, memFind]
        by_cases hx : x = a
        · simp [hx]
        · have hx' : ¬ a = x := fun e => hx e.symm
          simp [hx, hx']
    · split
      · rename_i hne hlt
        split
        · rename_i hv
          by_cases hx : x = a
          · subst hx; rw [if_pos rfl, hv, memFind, if_neg (by omega), if_pos hlt]
          · rw [if_neg hx]
        · by_cases hx : x = a
          · subst hx; rw [if_pos rfl, memFind, if_pos rfl]
          · rw [if_neg hx, memFind, if_neg (fun e => hx e.symm)]
            split
            · rw [memFind, if_neg (by omega), if_pos (by omega)]
            · rfl
      · rw [memFind, memFind, ih h.2]
        by_cases hx : x = a
        · subst hx
          rw [if_neg (by omega), if_neg (by omega), if_pos rfl, if_pos rfl]
        · simp [hx]

/-- An octet after one octet is written. -/
theorem memFind_memPut {l : List Host.Cell} (h : Memory.wf l = true) (a x : Nat) (v : Byte) :
    memFind (memPut l a v) x = if x = a then v else memFind l x := memFind_memPut_from h a x v

/-- An octet after a run of octets is written. -/
theorem memFind_memPutAll {l : List Host.Cell} (h : Memory.wf l = true) (a x : Nat) (vs : Octets) :
    memFind (memPutAll l a vs) x = if a ≤ x ∧ x < a + vs.length then vs.getD (x - a) 0 else memFind l x := by
  induction vs generalizing l a with
  | nil =>
    rw [memPutAll, if_neg (by simp only [List.length_nil]; omega)]
  | cons v vs ih =>
    rw [memPutAll, ih (memPut_wf a v h), memFind_memPut h]
    by_cases hx : x = a
    · subst hx
      rw [if_neg (by omega), if_pos rfl, if_pos (by simp only [List.length_cons]; omega), Nat.sub_self, List.getD_cons_zero]
    · by_cases h2 : a + 1 ≤ x ∧ x < a + 1 + vs.length
      · rw [if_pos h2, if_pos (by simp only [List.length_cons]; omega), show x - a = (x - (a + 1)) + 1 by omega, List.getD_cons_succ]
      · rw [if_neg h2, if_neg hx, if_neg (by simp only [List.length_cons]; omega)]

/-- An octet of the table space after a write of octets (R500). -/
theorem memB_memW (s : State) (h : Memory.wf s.mem = true) (a x : Nat) (vs : Octets) :
    (s.memW a vs).memB x = if a ≤ x ∧ x < a + vs.length then vs.getD (x - a) 0 else s.memB x := memFind_memPutAll h a x vs

end Sys2Proof.Machine
end

