-- ==== Sys2Proof/Laws/Keeps.lean ====
section
/-! SUPPORT. Laws/Keeps.lean: what every operation on the state keeps: the queue, the grade, time that never runs back, the canonical forms and the
numbers of units; and which fields of the state it may change at all. One lemma an operation stands in the files Laws/Keeps….lean. -/
set_option Elab.async false
namespace Sys2Proof.Machine
open Sys2Proof

/-- Offsets rise strictly: the canonical form of the register list. -/
def regWf (l : List (Nat × Word)) : Prop := l.Pairwise (fun x y => x.1 < y.1)

/-- Which epoch is stamped, and which was released last, runs and was completed, with the digest of the released ledger. -/
def epRun (e : EpochEng) : Option Nat × Option Nat × Option Nat × Option Nat × Nat := (e.cur, e.rel, e.running, e.done, e.digest)

/-- Two states agree in the field numbered `k`, in the order of State from 0 at `pending`; 26 stands for the epoch numbers within `ep`. -/
def sameField (s t : State) : Nat → Prop
  | 1 => t.now = s.now
  | 2 => t.free = s.free
  | 4 => t.mode = s.mode
  | 5 => t.regs = s.regs
  | 6 => t.mem = s.mem
  | 7 => t.held = s.held
  | 8 => t.bus = s.bus
  | 9 => t.tb = s.tb
  | 10 => t.ep = s.ep
  | 11 => t.fr = s.fr
  | 12 => t.flt = s.flt
  | 13 => t.mz = s.mz
  | 14 => t.banks = s.banks
  | 15 => t.bays = s.bays
  | 16 => t.gw = s.gw
  | 17 => t.tab = s.tab
  | 18 => t.sch = s.sch
  | 19 => t.ks = s.ks
  | 20 => t.cp = s.cp
  | 21 => t.tw = s.tw
  | 22 => t.wk = s.wk
  | 23 => t.pw = s.pw
  | 24 => t.sill = s.sill
  | 25 => t.hb = s.hb
  | 26 => epRun t.ep = epRun s.ep
  | _ => True

theorem sameField.refl (s : State) (k : Nat) : sameField s s k := by
  unfold sameField
  split <;> trivial

theorem sameField.trans {a b d : State} {k : Nat} (h : sameField a b k) (g : sameField b d k) : sameField a d k := by
  revert h g
  unfold sameField
  split <;> intro h g
  all_goals first | trivial | exact Eq.trans g h

/-- What every command keeps, and what it may change: the fields of the state whose bits are set in `c`, numbered as `sameField` numbers them. -/
structure Keeps (c : Nat) (s t : State) : Prop where
  pending : t.pending = s.pending
  grade : t.grade = s.grade
  le_now : s.now ≤ t.now
  le_free : s.free ≤ t.free
  wf_regs : regWf s.regs → regWf t.regs
  wf_mem : Memory.wf s.mem = true → Memory.wf t.mem = true
  len_mz : s.mz.length = 128 → t.mz.length = 128
  len_banks : s.banks.length = 8 → t.banks.length = 8
  len_bays : s.bays.length = 12 → t.bays.length = 12
  same : ∀ k, c.testBit k = true ∨ sameField s t k

theorem Keeps.refl (c : Nat) (s : State) : Keeps c s s where
  pending := rfl
  grade := rfl
  le_now := le_rfl
  le_free := le_rfl
  wf_regs := id
  wf_mem := id
  len_mz := id
  len_banks := id
  len_bays := id
  same k := .inr (sameField.refl s k)

theorem Keeps.trans {c : Nat} {a b d : State} (h : Keeps c a b) (k : Keeps c b d) : Keeps c a d where
  pending := k.pending.trans h.pending
  grade := k.grade.trans h.grade
  le_now := h.le_now.trans k.le_now
  le_free := h.le_free.trans k.le_free
  wf_regs := k.wf_regs ∘ h.wf_regs
  wf_mem := k.wf_mem ∘ h.wf_mem
  len_mz := k.len_mz ∘ h.len_mz
  len_banks := k.len_banks ∘ h.len_banks
  len_bays := k.len_bays ∘ h.len_bays
  same i := (h.same i).elim .inl fun x => (k.same i).imp_right x.trans

/-- A field whose bit is clear reads as before: `h.at_ 13 rfl : t.mz = s.mz`. -/
theorem Keeps.at_ {c : Nat} {s t : State} (h : Keeps c s t) (k : Nat) (e : c.testBit k = false) : sameField s t k :=
  (h.same k).resolve_left (by rw [e]; exact Bool.noConfusion)

theorem kS {c m k : Nat} (h : c &&& m = m) (e : m &&& k = k) : c &&& k = k := by
  rw [← e, ← Nat.and_assoc, h]

theorem kT {c m i : Nat} (h : c &&& m = m) (e : m.testBit i = true) : c.testBit i = true := by
  rw [← h, Nat.testBit_and, Bool.and_eq_true] at e
  exact e.1

/-! ### One field replaced -/

theorem Keeps.set_now {c : Nat} (hc : c.testBit 1 = true) {s0 s : State} (h : Keeps c s0 s) (v : Nat) (e : s.now ≤ v) : Keeps c s0 { s with now := v } :=
  h.trans { Keeps.refl c s with same := fun k => by unfold sameField; split <;> first | exact .inl hc | exact .inr rfl | exact .inr trivial, le_now := e }

theorem Keeps.set_free {c : Nat} (hc : c.testBit 2 = true) {s0 s : State} (h : Keeps c s0 s) (v : Nat) (e : s.free ≤ v) : Keeps c s0 { s with free := v } :=
  h.trans { Keeps.refl c s with same := fun k => by unfold sameField; split <;> first | exact .inl hc | exact .inr rfl | exact .inr trivial, le_free := e }

theorem Keeps.set_mode {c : Nat} (hc : c.testBit 4 = true) {s0 s : State} (h : Keeps c s0 s) (v : Mode) : Keeps c s0 { s with mode := v } :=
  h.trans { Keeps.refl c s with same := fun k => by unfold sameField; split <;> first | exact .inl hc | exact .inr rfl | exact .inr trivial }

theorem Keeps.set_regs {c : Nat} (hc : c.testBit 5 = true) {s0 s : State} (h : Keeps c s0 s) (v : List (Nat × Word)) (e : regWf s.regs → regWf v) : Keeps c s0 { s with regs := v } :=
  h.trans { Keeps.refl c s with same := fun k => by unfold sameField; split <;> first | exact .inl hc | exact .inr rfl | exact .inr trivial, wf_regs := e }

theorem Keeps.set_mem {c : Nat} (hc : c.testBit 6 = true) {s0 s : State} (h : Keeps c s0 s) (v : List Host.Cell) (e : Memory.wf s.mem = true → Memory.wf v = true) : Keeps c s0 { s with mem := v } :=
  h.trans { Keeps.refl c s with same := fun k => by unfold sameField; split <;> first | exact .inl hc | exact .inr rfl | exact .inr trivial, wf_mem := e }

theorem Keeps.set_held {c : Nat} (hc : c.testBit 7 = true) {s0 s : State} (h : Keeps c s0 s) (v : List Upd) : Keeps c s0 { s with held := v } :=
  h.trans { Keeps.refl c s with same := fun k => by unfold sameField; split <;> first | exact .inl hc | exact .inr rfl | exact .inr trivial }

theorem Keeps.set_bus {c : Nat} (hc : c.testBit 8 = true) {s0 s : State} (h : Keeps c s0 s) (v : Bus) : Keeps c s0 { s with bus := v } :=
  h.trans { Keeps.refl c s with same := fun k => by unfold sameField; split <;> first | exact .inl hc | exact .inr rfl | exact .inr trivial }

theorem Keeps.set_tb {c : Nat} (hc : c.testBit 9 = true) {s0 s : State} (h : Keeps c s0 s) (v : TimeBase) : Keeps c s0 { s with tb := v } :=
  h.trans { Keeps.refl c s with same := fun k => by unfold sameField; split <;> first | exact .inl hc | exact .inr rfl | exact .inr trivial }

theorem Keeps.set_ep {c : Nat} (hc : c.testBit 10 = true) (hr : c.testBit 26 = true) {s0 s : State} (h : Keeps c s0 s) (v : EpochEng) : Keeps c s0 { s with ep := v } :=
  h.trans { Keeps.refl c s with same := fun k => by unfold sameField; split <;> first | exact .inl hc | exact .inl hr | exact .inr rfl | exact .inr trivial }

theorem Keeps.set_epR {c : Nat} (hc : c.testBit 10 = true) {s0 s : State} (h : Keeps c s0 s) (v : EpochEng) (e : epRun v = epRun s.ep) : Keeps c s0 { s with ep := v } :=
  h.trans { Keeps.refl c s with same := fun k => by unfold sameField; split <;> first | exact .inl hc | exact .inr e | exact .inr rfl | exact .inr trivial }

theorem Keeps.set_fr {c : Nat} (hc : c.testBit 11 = true) {s0 s : State} (h : Keeps c s0 s) (v : Loader) : Keeps c s0 { s with fr := v } :=
  h.trans { Keeps.refl c s with same := fun k => by unfold sameField; split <;> first | exact .inl hc | exact .inr rfl | exact .inr trivial }

theorem Keeps.set_flt {c : Nat} (hc : c.testBit 12 = true) {s0 s : State} (h : Keeps c s0 s) (v : FaultMgr) : Keeps c s0 { s with flt := v } :=
  h.trans { Keeps.refl c s with same := fun k => by unfold sameField; split <;> first | exact .inl hc | exact .inr rfl | exact .inr trivial }

theorem Keeps.set_mz {c : Nat} (hc : c.testBit 13 = true) {s0 s : State} (h : Keeps c s0 s) (v : List Mortise) (e : s.mz.length = 128 → v.length = 128) : Keeps c s0 { s with mz := v } :=
  h.trans { Keeps.refl c s with same := fun k => by unfold sameField; split <;> first | exact .inl hc | exact .inr rfl | exact .inr trivial, len_mz := e }

theorem Keeps.set_banks {c : Nat} (hc : c.testBit 14 = true) {s0 s : State} (h : Keeps c s0 s) (v : List Bank) (e : s.banks.length = 8 → v.length = 8) : Keeps c s0 { s with banks := v } :=
  h.trans { Keeps.refl c s with same := fun k => by unfold sameField; split <;> first | exact .inl hc | exact .inr rfl | exact .inr trivial, len_banks := e }

theorem Keeps.set_bays {c : Nat} (hc : c.testBit 15 = true) {s0 s : State} (h : Keeps c s0 s) (v : List Bay) (e : s.bays.length = 12 → v.length = 12) : Keeps c s0 { s with bays := v } :=
  h.trans { Keeps.refl c s with same := fun k => by unfold sameField; split <;> first | exact .inl hc | exact .inr rfl | exact .inr trivial, len_bays := e }

theorem Keeps.set_gw {c : Nat} (hc : c.testBit 16 = true) {s0 s : State} (h : Keeps c s0 s) (v : Gateway) : Keeps c s0 { s with gw := v } :=
  h.trans { Keeps.refl c s with same := fun k => by unfold sameField; split <;> first | exact .inl hc | exact .inr rfl | exact .inr trivial }

theorem Keeps.set_tab {c : Nat} (hc : c.testBit 17 = true) {s0 s : State} (h : Keeps c s0 s) (v : Tables) : Keeps c s0 { s with tab := v } :=
  h.trans { Keeps.refl c s with same := fun k => by unfold sameField; split <;> first | exact .inl hc | exact .inr rfl | exact .inr trivial }

theorem Keeps.set_sch {c : Nat} (hc : c.testBit 18 = true) {s0 s : State} (h : Keeps c s0 s) (v : Sched) : Keeps c s0 { s with sch := v } :=
  h.trans { Keeps.refl c s with same := fun k => by unfold sameField; split <;> first | exact .inl hc | exact .inr rfl | exact .inr trivial }

theorem Keeps.set_ks {c : Nat} (hc : c.testBit 19 = true) {s0 s : State} (h : Keeps c s0 s) (v : KeyStore) : Keeps c s0 { s with ks := v } :=
  h.trans { Keeps.refl c s with same := fun k => by unfold sameField; split <;> first | exact .inl hc | exact .inr rfl | exact .inr trivial }

theorem Keeps.set_cp {c : Nat} (hc : c.testBit 20 = true) {s0 s : State} (h : Keeps c s0 s) (v : Cipher) : Keeps c s0 { s with cp := v } :=
  h.trans { Keeps.refl c s with same := fun k => by unfold sameField; split <;> first | exact .inl hc | exact .inr rfl | exact .inr trivial }

theorem Keeps.set_tw {c : Nat} (hc : c.testBit 21 = true) {s0 s : State} (h : Keeps c s0 s) (v : Twin) : Keeps c s0 { s with tw := v } :=
  h.trans { Keeps.refl c s with same := fun k => by unfold sameField; split <;> first | exact .inl hc | exact .inr rfl | exact .inr trivial }

theorem Keeps.set_wk {c : Nat} (hc : c.testBit 22 = true) {s0 s : State} (h : Keeps c s0 s) (v : Wake) : Keeps c s0 { s with wk := v } :=
  h.trans { Keeps.refl c s with same := fun k => by unfold sameField; split <;> first | exact .inl hc | exact .inr rfl | exact .inr trivial }

theorem Keeps.set_pw {c : Nat} (hc : c.testBit 23 = true) {s0 s : State} (h : Keeps c s0 s) (v : KingPost) : Keeps c s0 { s with pw := v } :=
  h.trans { Keeps.refl c s with same := fun k => by unfold sameField; split <;> first | exact .inl hc | exact .inr rfl | exact .inr trivial }

theorem Keeps.set_sill {c : Nat} (hc : c.testBit 24 = true) {s0 s : State} (h : Keeps c s0 s) (v : SillDie) : Keeps c s0 { s with sill := v } :=
  h.trans { Keeps.refl c s with same := fun k => by unfold sameField; split <;> first | exact .inl hc | exact .inr rfl | exact .inr trivial }

theorem Keeps.set_hb {c : Nat} (hc : c.testBit 25 = true) {s0 s : State} (h : Keeps c s0 s) (v : Bridge) : Keeps c s0 { s with hb := v } :=
  h.trans { Keeps.refl c s with same := fun k => by unfold sameField; split <;> first | exact .inl hc | exact .inr rfl | exact .inr trivial }

theorem kO {p : Prop} {α : Type} {a : α} : p ∨ a = a := .inr rfl
theorem kL {c m i : Nat} {q : Prop} (h : c &&& m = m) (e : m.testBit i = true := by rfl) : c.testBit i = true ∨ q := .inl (kT h e)

/-- Several fields replaced at once. -/
theorem Keeps.mk' {c : Nat} {s0 s : State} (h : Keeps c s0 s) {now free mode regs mem held bus tb ep fr flt mz banks bays gw tab sch ks cp tw wk pw sill hb}
    (hn : s.now ≤ now) (hf : s.free ≤ free) (hr : regWf s.regs → regWf regs) (hm : Memory.wf s.mem = true → Memory.wf mem = true)
    (hz : s.mz.length = 128 → mz.length = 128) (hb' : s.banks.length = 8 → banks.length = 8) (hy : s.bays.length = 12 → bays.length = 12)
    (k_now : c.testBit 1 = true ∨ now = s.now) (k_free : c.testBit 2 = true ∨ free = s.free) (k_mode : c.testBit 4 = true ∨ mode = s.mode) (k_regs :
    c.testBit 5 = true ∨ regs = s.regs) (k_mem : c.testBit 6 = true ∨ mem = s.mem) (k_held : c.testBit 7 = true ∨ held = s.held) (k_bus : c.testBit 8 =
    true ∨ bus = s.bus) (k_tb : c.testBit 9 = true ∨ tb = s.tb) (k_ep : c.testBit 10 = true ∨ ep = s.ep) (k_fr : c.testBit 11 = true ∨ fr = s.fr) (k_flt :
    c.testBit 12 = true ∨ flt = s.flt) (k_mz : c.testBit 13 = true ∨ mz = s.mz) (k_banks : c.testBit 14 = true ∨ banks = s.banks) (k_bays : c.testBit 15 =
    true ∨ bays = s.bays) (k_gw : c.testBit 16 = true ∨ gw = s.gw) (k_tab : c.testBit 17 = true ∨ tab = s.tab) (k_sch : c.testBit 18 = true ∨ sch = s.sch)
    (k_ks : c.testBit 19 = true ∨ ks = s.ks) (k_cp : c.testBit 20 = true ∨ cp = s.cp) (k_tw : c.testBit 21 = true ∨ tw = s.tw) (k_wk : c.testBit 22 = true
    ∨ wk = s.wk) (k_pw : c.testBit 23 = true ∨ pw = s.pw) (k_sill : c.testBit 24 = true ∨ sill = s.sill) (k_hb : c.testBit 25 = true ∨ hb = s.hb) (k_run :
    c.testBit 26 = true ∨ epRun ep = epRun s.ep) :
    Keeps c s0 ⟨s.pending, now, free, s.grade, mode, regs, mem, held, bus, tb, ep, fr, flt, mz, banks, bays, gw, tab, sch, ks, cp, tw, wk, pw, sill, hb⟩ :=
  h.trans {
    pending := rfl, grade := rfl, le_now := hn, le_free := hf, wf_regs := hr, wf_mem := hm, len_mz := hz, len_banks := hb', len_bays := hy
    same := fun k => by unfold sameField; split <;> first | assumption | exact .inr trivial }

/-! ### Composition -/

/-- The same for a state that comes second in a pair, second or third from the front, or as an option. -/
def KeepsP {α : Type} (c : Nat) (s0 : State) (p : α × State) : Prop := Keeps c s0 p.2
def KeepsPP {α β : Type} (c : Nat) (s0 : State) (p : α × β × State) : Prop := Keeps c s0 p.2.2
def KeepsPPP {α β γ : Type} (c : Nat) (s0 : State) (p : α × β × γ × State) : Prop := Keeps c s0 p.2.2.2
def KeepsO (c : Nat) (s0 : State) (o : Option State) : Prop := ∀ t, o = some t → Keeps c s0 t
/-- The same for a state that stands for a failure. -/
def KeepsE {α : Type} (c : Nat) (s0 : State) (o : Except State α) : Prop := ∀ t, o = .error t → Keeps c s0 t

/-- A property of both branches holds of the whole. -/
theorem keepIte {α : Type} {Q : α → Prop} {d : Prop} [Decidable d] {x y : α} (hx : d → Q x) (hy : ¬d → Q y) : Q (if d then x else y) := by
  split
  · exact hx ‹_›
  · exact hy ‹_›

/-- A property that every element of the list keeps holds after the fold. -/
theorem keepFold {σ α : Type} {Q : σ → Prop} {f : σ → α → σ} (hf : ∀ s x, Q s → Q (f s x)) (l : List α) {s : σ} (h : Q s) : Q (l.foldl f s) := by
  induction l generalizing s with
  | nil => exact h
  | cons a l ih => exact ih (hf s a h)

theorem Keeps.ite {c : Nat} {s0 : State} {d : Prop} [Decidable d] {x y : State} (hx : d → Keeps c s0 x) (hy : ¬d → Keeps c s0 y) :
    Keeps c s0 (if d then x else y) := keepIte hx hy
theorem Keeps.iteP {c : Nat} {α : Type} {s0 : State} {d : Prop} [Decidable d] {x y : α × State} (hx : d → KeepsP c s0 x) (hy : ¬d → KeepsP c s0 y) :
    KeepsP c s0 (if d then x else y) := keepIte hx hy
theorem Keeps.itePP {c : Nat} {α β : Type} {s0 : State} {d : Prop} [Decidable d] {x y : α × β × State} (hx : d → KeepsPP c s0 x) (hy : ¬d → KeepsPP c s0 y) :
    KeepsPP c s0 (if d then x else y) := keepIte hx hy
theorem Keeps.itePPP {c : Nat} {α β γ : Type} {s0 : State} {d : Prop} [Decidable d] {x y : α × β × γ × State} (hx : d → KeepsPPP c s0 x) (hy : ¬d → KeepsPPP c s0 y) :
    KeepsPPP c s0 (if d then x else y) := keepIte hx hy
theorem Keeps.iteO {c : Nat} {s0 : State} {d : Prop} [Decidable d] {x y : Option State} (hx : d → KeepsO c s0 x) (hy : ¬d → KeepsO c s0 y) :
    KeepsO c s0 (if d then x else y) := keepIte hx hy
theorem Keeps.iteE {c : Nat} {α : Type} {s0 : State} {d : Prop} [Decidable d] {x y : Except State α} (hx : d → KeepsE c s0 x) (hy : ¬d → KeepsE c s0 y) :
    KeepsE c s0 (if d then x else y) := keepIte hx hy
theorem Keeps.foldl {c : Nat} {δ : Type} {s0 : State} {f : State → δ → State} (hf : ∀ s x, Keeps c s0 s → Keeps c s0 (f s x)) (l : List δ) {s : State}
    (h : Keeps c s0 s) : Keeps c s0 (l.foldl f s) := keepFold hf l h
theorem Keeps.foldlP {c : Nat} {α : Type} {δ : Type} {s0 : State} {f : α × State → δ → α × State} (hf : ∀ s x, KeepsP c s0 s → KeepsP c s0 (f s x)) (l : List δ) {s : α × State}
    (h : KeepsP c s0 s) : KeepsP c s0 (l.foldl f s) := keepFold hf l h
theorem Keeps.foldlO {c : Nat} {δ : Type} {s0 : State} {f : Option State → δ → Option State} (hf : ∀ s x, KeepsO c s0 s → KeepsO c s0 (f s x)) (l : List δ) {s : Option State}
    (h : KeepsO c s0 s) : KeepsO c s0 (l.foldl f s) := keepFold hf l h
theorem Keeps.foldr {c : Nat} {δ : Type} {s0 : State} {f : δ → State → State} (hf : ∀ x s, Keeps c s0 s → Keeps c s0 (f x s)) (l : List δ) {s : State}
    (h : Keeps c s0 s) : Keeps c s0 (l.foldr f s) := by
  induction l with
  | nil => exact h
  | cons a l ih => exact hf a _ ih
theorem Keeps.getD {c : Nat} {s0 s : State} {o : Option State} (h : KeepsO c s0 o) (k : Keeps c s0 s) : Keeps c s0 (o.getD s) := by
  cases o
  · exact k
  · exact h _ rfl
theorem Keeps.bindO {c : Nat} {s0 : State} {o : Option State} {f : State → Option State} (h : KeepsO c s0 o) (k : ∀ s, Keeps c s0 s → KeepsO c s0 (f s)) : KeepsO c s0 (o.bind f) := by
  cases o
  · exact fun _ e => nomatch e
  · exact k _ (h _ rfl)
theorem Keeps.mapO {c : Nat} {s0 : State} {o : Option State} {f : State → State} (h : KeepsO c s0 o) (k : ∀ s, Keeps c s0 s → Keeps c s0 (f s)) : KeepsO c s0 (o.map f) := by
  cases o
  · exact fun _ e => nomatch e
  · exact fun _ e => Option.some.inj e ▸ k _ (h _ rfl)
theorem Keeps.ofNext {c : Nat} {s u t : State} (e : (Host.Outcome.next u : Host.Outcome State Fault Refusal) = .next t) (h : Keeps c s u) : Keeps c s t := by
  cases e
  exact h
theorem Keeps.mkP {c : Nat} {α : Type} {a : α} {s0 s : State} (h : Keeps c s0 s) : KeepsP c s0 (a, s) := h
theorem Keeps.mkPP {c : Nat} {α β : Type} {a : α} {s0 : State} {s : β × State} (h : KeepsP c s0 s) : KeepsPP c s0 (a, s) := h
theorem Keeps.mkPPP {c : Nat} {α β γ : Type} {a : α} {s0 : State} {s : β × γ × State} (h : KeepsPP c s0 s) : KeepsPPP c s0 (a, s) := h
theorem Keeps.snd {c : Nat} {α : Type} {s0 : State} {p : α × State} (h : KeepsP c s0 p) : Keeps c s0 p.2 := h
theorem Keeps.someO {c : Nat} {s0 s : State} (h : Keeps c s0 s) : KeepsO c s0 (some s) := fun _ e => Option.some.inj e ▸ h
theorem Keeps.ofP {c : Nat} {α : Type} {a : α} {s0 s : State} {p : α × State} (e : p = (a, s)) (h : KeepsP c s0 p) : Keeps c s0 s := by subst e; exact h
theorem Keeps.ofPP {c : Nat} {α β : Type} {a : α} {b : β} {s0 s : State} {p : α × β × State} (e : p = (a, b, s)) (h : KeepsPP c s0 p) : Keeps c s0 s := by subst e; exact h
theorem Keeps.ofPPP {c : Nat} {α β γ : Type} {a : α} {b : β} {d : γ} {s0 s : State} {p : α × β × γ × State} (e : p = (a, b, d, s)) (h : KeepsPPP c s0 p) : Keeps c s0 s := by subst e; exact h
theorem Keeps.ofO {c : Nat} {s0 s : State} {p : Option State} (e : p = some s) (h : KeepsO c s0 p) : Keeps c s0 s := h _ e
theorem Keeps.okE {c : Nat} {α : Type} {a : α} {s0 : State} : KeepsE c s0 (.ok a) := fun _ e => nomatch e
theorem Keeps.errE {c : Nat} {α : Type} {s0 s : State} (h : Keeps c s0 s) : KeepsE (α := α) c s0 (.error s) := fun _ e => Except.error.inj e ▸ h
theorem Keeps.ofE {c : Nat} {α : Type} {s0 s : State} {p : Except State α} (e : p = .error s) (h : KeepsE c s0 p) : Keeps c s0 s := h _ e
theorem Keeps.noneO {c : Nat} {s0 : State} : KeepsO c s0 none := fun _ e => nomatch e

theorem updAt_length {α : Type} (l : List α) (i : Nat) (f : α → α) : (updAt l i f).length = l.length := List.length_modify ..

theorem regPut_mem {l : List (Nat × Word)} {a : Nat} {w : Word} {x : Nat × Word} (h : x ∈ regPut l a w) : x = (a, w) ∨ x ∈ l := by
  induction l with
  | nil => exact Or.inl (List.mem_singleton.mp h)
  | cons y l ih =>
    simp only [regPut] at h
    split at h
    · rcases List.mem_cons.mp h with h | h
      · exact Or.inl h
      · exact Or.inr (List.mem_cons_of_mem _ h)
    · split at h
      · rcases List.mem_cons.mp h with h | h
        · exact Or.inl h
        · exact Or.inr h
      · rcases List.mem_cons.mp h with h | h
        · exact Or.inr (h ▸ List.mem_cons_self)
        · exact (ih h).imp_right (List.mem_cons_of_mem _)

theorem regPut_wf {l : List (Nat × Word)} {a : Nat} {w : Word} (h : regWf l) : regWf (regPut l a w) := by
  induction l with
  | nil => exact List.pairwise_singleton _ _
  | cons y l ih =>
    obtain ⟨b, v⟩ := y
    have ⟨h1, h2⟩ := List.pairwise_cons.mp h
    simp only [regPut]
    split
    · subst_vars
      exact List.pairwise_cons.mpr ⟨h1, h2⟩
    · split
      · refine List.pairwise_cons.mpr ⟨fun z hz => ?_, h⟩
        rcases List.mem_cons.mp hz with rfl | hz
        · assumption
        · exact Nat.lt_trans (by assumption) (h1 z hz)
      · refine List.pairwise_cons.mpr ⟨fun z hz => ?_, ih h2⟩
        rcases regPut_mem hz with rfl | hz
        · show b < a
          omega
        · exact h1 z hz

end Sys2Proof.Machine
end

