-- ==== Sys2Proof/Laws/KeepsUnits.lean ====
section
/-! SUPPORT. Laws/KeepsUnits.lean: what is kept, and which fields may change (Laws/Keeps.lean), for the operations on registers, mortises, tenons and bays, and the scheduler. The number in a lemma is the set of those fields. -/
set_option Elab.async false
namespace Sys2Proof.Machine
open Sys2Proof

theorem State.wr_keeps {c : Nat} (hc : c &&& 0x20 = 0x20) {s0 : State} {s : State} (h : Keeps c s0 s) (a1 : ℕ) (a2 : Word) : Keeps c s0 (State.wr s a1 a2) := by
  unfold State.wr
  exact (Keeps.set_regs (kT hc rfl) h _ (fun h => regPut_wf h))

theorem State.wrN_keeps {c : Nat} (hc : c &&& 0x20 = 0x20) {s0 : State} {s : State} (h : Keeps c s0 s) (a1 : ℕ) (a2 : ℕ) : Keeps c s0 (State.wrN s a1 a2) := by
  unfold State.wrN
  exact (State.wr_keeps (kS hc rfl) h _ _)

theorem State.inc_keeps {c : Nat} (hc : c &&& 0x20 = 0x20) {s0 : State} {s : State} (h : Keeps c s0 s) (a1 : ℕ) (a2 : optParam ℕ 1) : Keeps c s0 (State.inc s a1 a2) := by
  unfold State.inc
  exact (State.wrN_keeps (kS hc rfl) h _ _)

theorem State.setFld_keeps {c : Nat} (hc : c &&& 0x20 = 0x20) {s0 : State} {s : State} (h : Keeps c s0 s) (a1 : ℕ) (a2 : ℕ) (a3 : ℕ) (a4 : ℕ) : Keeps c s0 (State.setFld s a1 a2 a3 a4) := by
  unfold State.setFld
  exact (State.wrN_keeps (kS hc rfl) h _ _)

theorem State.onFr_keeps {c : Nat} (hc : c &&& 0x800 = 0x800) {s0 : State} {s : State} (h : Keeps c s0 s) (a1 : Loader → Loader) : Keeps c s0 (State.onFr s a1) := by
  unfold State.onFr
  exact (Keeps.set_fr (kT hc rfl) h _)

theorem State.setBent_keeps {c : Nat} (hc : c &&& 0x800 = 0x800) {s0 : State} {s : State} (h : Keeps c s0 s) (a1 : ℕ) (a2 : BentSt) : Keeps c s0 (State.setBent s a1 a2) := by
  unfold State.setBent
  exact (Keeps.set_fr (kT hc rfl) h _)

theorem State.onSch_keeps {c : Nat} (hc : c &&& 0x40000 = 0x40000) {s0 : State} {s : State} (h : Keeps c s0 s) (a1 : Sched → Sched) : Keeps c s0 (State.onSch s a1) := by
  unfold State.onSch
  exact (Keeps.set_sch (kT hc rfl) h _)

theorem State.flushPort_keeps {c : Nat} (hc : c &&& 0x40000 = 0x40000) {s0 : State} {s : State} (h : Keeps c s0 s) (a1 : ℕ) : KeepsP c s0 (State.flushPort s a1) := by
  unfold State.flushPort
  exact (by extract_lets x0_0; exact (Keeps.mkP (State.onSch_keeps (kS hc rfl) h _)))

theorem State.evt_keeps {c : Nat} (hc : c &&& 0x20 = 0x20) {s0 : State} {s : State} (h : Keeps c s0 s) (a1 : ℕ) (a2 : ℕ) : Keeps c s0 (State.evt s a1 a2) := by
  unfold State.evt
  exact (State.wrN_keeps (kS hc rfl) h _ _)

theorem State.onEp_keeps {c : Nat} (hc : c &&& 0x4000400 = 0x4000400) {s0 : State} {s : State} (h : Keeps c s0 s) (a1 : EpochEng → EpochEng) : Keeps c s0 (State.onEp s a1) := by
  unfold State.onEp
  exact (Keeps.set_ep (kT hc rfl) (kT hc rfl) h _)

theorem State.evtOf_keeps {c : Nat} (hc : c &&& 0x4000420 = 0x4000420) {s0 : State} {s : State} (h : Keeps c s0 s) (a1 : ℕ) (a2 : ℕ) (a3 : ℕ) : Keeps c s0 (State.evtOf s a1 a2 a3) := by
  unfold State.evtOf
  exact (Keeps.ite (fun _ => (State.evt_keeps (kS hc rfl) h _ _)) (fun _ => (State.onEp_keeps (kS hc rfl) h _)))

theorem State.onMort_keeps {c : Nat} (hc : c &&& 0x2000 = 0x2000) {s0 : State} {s : State} (h : Keeps c s0 s) (a1 : ℕ) (a2 : Mortise → Mortise) : Keeps c s0 (State.onMort s a1 a2) := by
  unfold State.onMort
  exact (Keeps.set_mz (kT hc rfl) h _ (fun h => (updAt_length _ _ _).trans h))

theorem State.isolateBent_keeps {c : Nat} (hc : c &&& 0x4043c20 = 0x4043c20) {s0 : State} {s : State} (h : Keeps c s0 s) (a1 : ℕ) : Keeps c s0 (State.isolateBent s a1) := by
  unfold State.isolateBent
  exact (by extract_lets x0_0 x0_1 x0_2; have h1 : Keeps c s0 x0_0 := (State.onFr_keeps (kS hc rfl) (State.setBent_keeps (kS hc rfl) h _ _) _); have h2 : Keeps c s0 x0_2 := (Keeps.set_flt (kT hc rfl) h1 _); exact (Keeps.ite (fun _ => (Keeps.foldl (fun _ _ h3 => (by extract_lets x4_0; exact (by split; exacts [(by have h5 := Keeps.ofP (by assumption) (State.flushPort_keeps (kS hc rfl) h3 _); exact (by extract_lets x6_0 x6_1; have h7 : Keeps c s0 x6_1 := (Keeps.set_fr (kT hc rfl) h5 _); exact (State.evtOf_keeps (kS hc rfl) (State.onMort_keeps (kS hc rfl) h7 _ _) _ _ _)))]))) _ h2)) (fun _ => (Keeps.ite (fun _ => (Keeps.foldl (fun _ _ h8 => (by split; exacts [(by have h9 := Keeps.ofP (by assumption) (State.flushPort_keeps (kS hc rfl) h8 _); exact (State.onFr_keeps (kS hc rfl) h9 _))])) _ h2)) (fun _ => h2)))))

theorem State.onTw_keeps {c : Nat} (hc : c &&& 0x200000 = 0x200000) {s0 : State} {s : State} (h : Keeps c s0 s) (a1 : Twin → Twin) : Keeps c s0 (State.onTw s a1) := by
  unfold State.onTw
  exact (Keeps.set_tw (kT hc rfl) h _)

theorem State.setBit_keeps {c : Nat} (hc : c &&& 0x20 = 0x20) {s0 : State} {s : State} (h : Keeps c s0 s) (a1 : ℕ) (a2 : ℕ) (a3 : Bool) : Keeps c s0 (State.setBit s a1 a2 a3) := by
  unfold State.setBit
  exact (State.wrN_keeps (kS hc rfl) h _ _)

theorem State.tecZero_keeps {c : Nat} (hc : c &&& 0x20 = 0x20) {s0 : State} {s : State} (h : Keeps c s0 s) : Keeps c s0 (State.tecZero s) := by
  unfold State.tecZero
  exact (Keeps.foldl (fun _ _ h0 => (Keeps.ite (fun _ => (by extract_lets x1_0; exact (State.setBit_keeps (kS hc rfl) (State.setFld_keeps (kS hc rfl) (State.setFld_keeps (kS hc rfl) h0 _ _ _ _) _ _ _ _) _ _ _))) (fun _ => h0))) _ h)

theorem State.selfFence_keeps {c : Nat} (hc : c &&& 0x202020 = 0x202020) {s0 : State} {s : State} (h : Keeps c s0 s) : Keeps c s0 (State.selfFence s) := by
  unfold State.selfFence
  exact (by extract_lets x0_0 x0_1; have h1 : Keeps c s0 x0_0 := (Keeps.set_mz (kT hc rfl) h _ (fun h => by first | simpa using h | exact (List.length_map _).trans h)); have h2 : Keeps c s0 x0_1 := (State.onTw_keeps (kS hc rfl) h1 _); exact (State.inc_keeps (kS hc rfl) (State.evt_keeps (kS hc rfl) (State.tecZero_keeps (kS hc rfl) h2) _ _) _ _))

theorem State.leaveStep_keeps {c : Nat} (hc : c &&& 0x200000 = 0x200000) {s0 : State} {s : State} (h : Keeps c s0 s) : Keeps c s0 (State.leaveStep s) := by
  unfold State.leaveStep
  exact (Keeps.ite (fun _ => (State.onTw_keeps (kS hc rfl) h _)) (fun _ => h))

theorem State.unswap_keeps {c : Nat} (hc : c &&& 0x2800 = 0x2800) {s0 : State} {s : State} (h : Keeps c s0 s) : Keeps c s0 (State.unswap s) := by
  unfold State.unswap
  exact (Keeps.ite (fun _ => h) (fun _ => (by extract_lets x0_0 x0_1; exact (Keeps.mk' h (Nat.le_refl _) (Nat.le_refl _) id id (fun h => by first | simpa using h | exact (List.length_map _).trans h) id id kO kO kO kO kO kO kO kO kO (kL hc) kO (kL hc) kO kO kO kO kO kO kO kO kO kO kO kO kO))))

theorem State.beginPurge_keeps {c : Nat} (hc : c &&& 0x820 = 0x820) {s0 : State} {s : State} (h : Keeps c s0 s) (a1 : Purge) (a2 : Bool) (a3 : Bool) : Keeps c s0 (State.beginPurge s a1 a2 a3) := by
  unfold State.beginPurge
  exact (State.setBit_keeps (kS hc rfl) (State.onFr_keeps (kS hc rfl) h _) _ _ _)

theorem State.dropDelta_keeps {c : Nat} (hc : c &&& 0x2820 = 0x2820) {s0 : State} {s : State} (h : Keeps c s0 s) : Keeps c s0 (State.dropDelta s) := by
  unfold State.dropDelta
  exact (by extract_lets x0_0; have h1 : Keeps c s0 x0_0 := (State.unswap_keeps (kS hc rfl) h); exact (State.beginPurge_keeps (kS hc rfl) (State.setBit_keeps (kS hc rfl) (State.onFr_keeps (kS hc rfl) h1 _) _ _ _) _ _ _))

theorem State.cancelSwap_keeps {c : Nat} (hc : c &&& 0x2820 = 0x2820) {s0 : State} {s : State} (h : Keeps c s0 s) : Keeps c s0 (State.cancelSwap s) := by
  unfold State.cancelSwap
  exact (Keeps.ite (fun _ => (State.evt_keeps (kS hc rfl) (State.dropDelta_keeps (kS hc rfl) h) _ _)) (fun _ => h))

theorem State.loseGuar_keeps {c : Nat} (hc : c &&& 0x420 = 0x420) {s0 : State} {s : State} (h : Keeps c s0 s) (a1 : ℕ) : Keeps c s0 (State.loseGuar s a1) := by
  unfold State.loseGuar
  exact (Keeps.ite (fun _ => (State.evt_keeps (kS hc rfl) (Keeps.set_epR (kT hc rfl) h _ (by rfl)) _ _)) (fun _ => h))

theorem State.faultResult_keeps {c : Nat} (hc : c &&& 0x4243c20 = 0x4243c20) {s0 : State} {s : State} (h : Keeps c s0 s) (a1 : ℕ) (a2 : ℕ) : Keeps c s0 (State.faultResult s a1 a2) := by
  unfold State.faultResult
  exact (by extract_lets x0_0 x0_1 x0_2 x0_3 x0_4 x0_5 x0_6 x0_7 x0_8; have h1 : Keeps c s0 x0_2 := (Keeps.set_flt (kT hc rfl) h _); have h2 : Keeps c s0 x0_3 := (by unfold x0_3; split; exacts [(State.isolateBent_keeps (kS hc rfl) h1 _), h1]); have h3 : Keeps c s0 x0_4 := (State.cancelSwap_keeps (kS hc rfl) h); have h4 : Keeps c s0 x0_5 := (State.loseGuar_keeps (kS hc rfl) h3 _); have h5 : Keeps c s0 x0_7 := (Keeps.set_flt (kT hc rfl) h4 _); have h6 : Keeps c s0 x0_8 := (State.loseGuar_keeps (kS hc rfl) (State.cancelSwap_keeps (kS hc rfl) h) _); exact (Keeps.ite (fun _ => (Keeps.ite (fun _ => (State.selfFence_keeps (kS hc rfl) h2)) (fun _ => (State.leaveStep_keeps (kS hc rfl) h2)))) (fun _ => (Keeps.ite (fun _ => (by split; exacts [(Keeps.ite (fun _ => (State.onTw_keeps (kS hc rfl) (State.selfFence_keeps (kS hc rfl) h5) _)) (fun _ => h5)), (Keeps.ite (fun _ => (State.onTw_keeps (kS hc rfl) (State.selfFence_keeps (kS hc rfl) h5) _)) (fun _ => h5)), (Keeps.ite (fun _ => (State.onTw_keeps (kS hc rfl) (State.selfFence_keeps (kS hc rfl) h5) _)) (fun _ => h5)), (Keeps.set_flt (kT hc rfl) h4 _), h4])) (fun _ => (Keeps.ite (fun _ => (Keeps.set_flt (kT hc rfl) h6 _)) (fun _ => h)))))))

theorem State.recordAt_keeps {c : Nat} (hc : c &&& 0x4243c20 = 0x4243c20) {s0 : State} {s : State} (h : Keeps c s0 s) (a1 : ℕ) (a2 : ℕ) (a3 : ℕ) (a4 : ℕ) (a5 : ℕ) (a6 : ℕ) : Keeps c s0 (State.recordAt s a1 a2 a3 a4 a5 a6) := by
  unfold State.recordAt
  exact (by extract_lets x0_0 x0_1 x0_2; have h1 : Keeps c s0 x0_0 := (State.inc_keeps (kS hc rfl) h _ _); have h2 : Keeps c s0 x0_2 := (State.setFld_keeps (kS hc rfl) h1 _ _ _ _); exact (by split; exacts [(Keeps.ite (fun _ => (Keeps.ite (fun _ => h2) (fun _ => (State.wrN_keeps (kS hc rfl) (State.wrN_keeps (kS hc rfl) (State.wrN_keeps (kS hc rfl) (State.wrN_keeps (kS hc rfl) h2 _ _) _ _) _ _) _ _)))) (fun _ => (by extract_lets x3_0; have h4 : Keeps c s0 x3_0 := (State.wrN_keeps (kS hc rfl) (State.wrN_keeps (kS hc rfl) (State.wrN_keeps (kS hc rfl) (State.wrN_keeps (kS hc rfl) h1 _ _) _ _) _ _) _ _); exact (State.faultResult_keeps (kS hc rfl) (State.setBit_keeps (kS hc rfl) (State.setBit_keeps (kS hc rfl) h4 _ _ _) _ _ _) _ _))))]))

theorem State.applyUpd_keeps {c : Nat} (hc : c &&& 0x4243c20 = 0x4243c20) {s0 : State} {s : State} (h : Keeps c s0 s) (a1 : Upd) : Keeps c s0 (State.applyUpd s a1) := by
  unfold State.applyUpd
  exact (by split; exacts [(State.inc_keeps (kS hc rfl) h _ _), (State.wrN_keeps (kS hc rfl) h _ _), (State.setFld_keeps (kS hc rfl) h _ _ _ _), (State.recordAt_keeps (kS hc rfl) h _ _ _ _ _ _)])

theorem State.applyDue_keeps {c : Nat} (hc : c &&& 0x4243c20 = 0x4243c20) {s0 : State} {s : State} (h : Keeps c s0 s) (a1 : ℕ) : Keeps c s0 (State.applyDue s a1) := by
  unfold State.applyDue
  exact (Keeps.foldl (fun _ _ h0 => (State.applyUpd_keeps (kS hc rfl) h0 _)) _ (State.onEp_keeps (kS hc rfl) h _))

theorem State.applyHeld_keeps {c : Nat} (hc : c &&& 0x4243ca0 = 0x4243ca0) {s0 : State} {s : State} (h : Keeps c s0 s) : Keeps c s0 (State.applyHeld s) := by
  unfold State.applyHeld
  exact (by extract_lets x0_0; have h2 : Keeps c s0 x0_0 := (Keeps.foldl (fun _ _ h1 => (State.applyUpd_keeps (kS hc rfl) h1 _)) _ h); exact (Keeps.set_held (kT hc rfl) h2 _))

theorem State.hold_keeps {c : Nat} (hc : c &&& 0x80 = 0x80) {s0 : State} {s : State} (h : Keeps c s0 s) (a1 : Upd) : Keeps c s0 (State.hold s a1) := by
  unfold State.hold
  exact (Keeps.set_held (kT hc rfl) h _)

theorem State.cEvt_keeps {c : Nat} (hc : c &&& 0x80 = 0x80) {s0 : State} {s : State} (h : Keeps c s0 s) (a1 : ℕ) (a2 : ℕ) : Keeps c s0 (State.cEvt s a1 a2) := by
  unfold State.cEvt
  exact (State.hold_keeps (kS hc rfl) h _)

theorem State.cInc_keeps {c : Nat} (hc : c &&& 0x80 = 0x80) {s0 : State} {s : State} (h : Keeps c s0 s) (a1 : ℕ) (a2 : optParam ℕ 1) : Keeps c s0 (State.cInc s a1 a2) := by
  unfold State.cInc
  exact (State.hold_keeps (kS hc rfl) h _)

theorem State.cNotice_keeps {c : Nat} (hc : c &&& 0x80 = 0x80) {s0 : State} {s : State} (h : Keeps c s0 s) (a1 : ℕ) (a2 : optParam ℕ 255) (a3 : optParam ℕ 255) : Keeps c s0 (State.cNotice s a1 a2 a3) := by
  unfold State.cNotice
  exact (State.hold_keeps (kS hc rfl) h _)

theorem State.cPut_keeps {c : Nat} (hc : c &&& 0x80 = 0x80) {s0 : State} {s : State} (h : Keeps c s0 s) (a1 : ℕ) (a2 : ℕ) (a3 : ℕ) (a4 : ℕ) : Keeps c s0 (State.cPut s a1 a2 a3 a4) := by
  unfold State.cPut
  exact (State.hold_keeps (kS hc rfl) h _)

theorem State.fresh_keeps {c : Nat} (hc : c &&& 0x4 = 0x4) {s0 : State} {s : State} (h : Keeps c s0 s) (a1 : ℕ) : KeepsP c s0 (State.fresh s a1) := by
  unfold State.fresh
  exact (Keeps.mkP (Keeps.set_free (kT hc rfl) h _ (Nat.le_add_right _ _)))

theorem State.isoLoss_keeps {c : Nat} (hc : c &&& 0x800 = 0x800) {s0 : State} {s : State} (h : Keeps c s0 s) : Keeps c s0 (State.isoLoss s) := by
  unfold State.isoLoss
  exact (State.onFr_keeps (kS hc rfl) h _)

theorem State.leaveGuar_keeps {c : Nat} (hc : c &&& 0x200420 = 0x200420) {s0 : State} {s : State} (h : Keeps c s0 s) (a1 : ℕ) : Keeps c s0 (State.leaveGuar s a1) := by
  unfold State.leaveGuar
  exact (Keeps.ite (fun _ => (State.loseGuar_keeps (kS hc rfl) (State.leaveStep_keeps (kS hc rfl) h) _)) (fun _ => h))

theorem State.memClear_keeps {c : Nat} (hc : c &&& 0x40 = 0x40) {s0 : State} {s : State} (h : Keeps c s0 s) (a1 : ℕ) (a2 : ℕ) : Keeps c s0 (State.memClear s a1 a2) := by
  unfold State.memClear
  exact (Keeps.set_mem (kT hc rfl) h _ (fun h => memFilter_wf _ h))

theorem State.memW_keeps {c : Nat} (hc : c &&& 0x40 = 0x40) {s0 : State} {s : State} (h : Keeps c s0 s) (a1 : ℕ) (a2 : Octets) : Keeps c s0 (State.memW s a1 a2) := by
  unfold State.memW
  exact (Keeps.set_mem (kT hc rfl) h _ (fun h => memPutAll_wf _ h))

theorem State.memWN_keeps {c : Nat} (hc : c &&& 0x40 = 0x40) {s0 : State} {s : State} (h : Keeps c s0 s) (a1 : ℕ) (a2 : ℕ) (a3 : ℕ) : Keeps c s0 (State.memWN s a1 a2 a3) := by
  unfold State.memWN
  exact (State.memW_keeps (kS hc rfl) h _ _)

theorem State.recordFault_keeps {c : Nat} (hc : c &&& 0x4243c20 = 0x4243c20) {s0 : State} {s : State} (h : Keeps c s0 s) (a1 : ℕ) (a2 : ℕ) (a3 : ℕ) (a4 : ℕ) : Keeps c s0 (State.recordFault s a1 a2 a3 a4) := by
  unfold State.recordFault
  exact (State.recordAt_keeps (kS hc rfl) h _ _ _ _ _ _)

theorem State.raiseFault_keeps {c : Nat} (hc : c &&& 0x4243c20 = 0x4243c20) {s0 : State} {s : State} (h : Keeps c s0 s) (a1 : ℕ) (a2 : ℕ) (a3 : ℕ) (a4 : ℕ) : Keeps c s0 (State.raiseFault s a1 a2 a3 a4) := by
  unfold State.raiseFault
  exact (by extract_lets x0_0 x0_1; have h1 : Keeps c s0 x0_1 := (State.recordFault_keeps (kS hc rfl) h _ _ _ _); exact (Keeps.ite (fun _ => (State.recordFault_keeps (kS hc rfl) h1 _ _ _ _)) (fun _ => (Keeps.ite (fun _ => (State.recordFault_keeps (kS hc rfl) h1 _ _ _ _)) (fun _ => h1)))))

theorem State.notice_keeps {c : Nat} (hc : c &&& 0x4243c20 = 0x4243c20) {s0 : State} {s : State} (h : Keeps c s0 s) (a1 : ℕ) (a2 : optParam ℕ 255) (a3 : optParam ℕ 255) : Keeps c s0 (State.notice s a1 a2 a3) := by
  unfold State.notice
  exact (State.raiseFault_keeps (kS hc rfl) h _ _ _ _)

theorem State.onBay_keeps {c : Nat} (hc : c &&& 0x8000 = 0x8000) {s0 : State} {s : State} (h : Keeps c s0 s) (a1 : ℕ) (a2 : Bay → Bay) : Keeps c s0 (State.onBay s a1 a2) := by
  unfold State.onBay
  exact (Keeps.set_bays (kT hc rfl) h _ (fun h => (updAt_length _ _ _).trans h))

theorem State.onBus_keeps {c : Nat} (hc : c &&& 0x100 = 0x100) {s0 : State} {s : State} (h : Keeps c s0 s) (a1 : Bus → Bus) : Keeps c s0 (State.onBus s a1) := by
  unfold State.onBus
  exact (Keeps.set_bus (kT hc rfl) h _)

theorem State.onCp_keeps {c : Nat} (hc : c &&& 0x100000 = 0x100000) {s0 : State} {s : State} (h : Keeps c s0 s) (a1 : Cipher → Cipher) : Keeps c s0 (State.onCp s a1) := by
  unfold State.onCp
  exact (Keeps.set_cp (kT hc rfl) h _)

theorem State.onFlt_keeps {c : Nat} (hc : c &&& 0x1000 = 0x1000) {s0 : State} {s : State} (h : Keeps c s0 s) (a1 : FaultMgr → FaultMgr) : Keeps c s0 (State.onFlt s a1) := by
  unfold State.onFlt
  exact (Keeps.set_flt (kT hc rfl) h _)

theorem State.onGw_keeps {c : Nat} (hc : c &&& 0x10000 = 0x10000) {s0 : State} {s : State} (h : Keeps c s0 s) (a1 : Gateway → Gateway) : Keeps c s0 (State.onGw s a1) := by
  unfold State.onGw
  exact (Keeps.set_gw (kT hc rfl) h _)

theorem State.onHb_keeps {c : Nat} (hc : c &&& 0x2000000 = 0x2000000) {s0 : State} {s : State} (h : Keeps c s0 s) (a1 : Bridge → Bridge) : Keeps c s0 (State.onHb s a1) := by
  unfold State.onHb
  exact (Keeps.set_hb (kT hc rfl) h _)

theorem State.onKs_keeps {c : Nat} (hc : c &&& 0x80000 = 0x80000) {s0 : State} {s : State} (h : Keeps c s0 s) (a1 : KeyStore → KeyStore) : Keeps c s0 (State.onKs s a1) := by
  unfold State.onKs
  exact (Keeps.set_ks (kT hc rfl) h _)

theorem State.onPw_keeps {c : Nat} (hc : c &&& 0x800000 = 0x800000) {s0 : State} {s : State} (h : Keeps c s0 s) (a1 : KingPost → KingPost) : Keeps c s0 (State.onPw s a1) := by
  unfold State.onPw
  exact (Keeps.set_pw (kT hc rfl) h _)

theorem State.onSill_keeps {c : Nat} (hc : c &&& 0x1000000 = 0x1000000) {s0 : State} {s : State} (h : Keeps c s0 s) (a1 : SillDie → SillDie) : Keeps c s0 (State.onSill s a1) := by
  unfold State.onSill
  exact (Keeps.set_sill (kT hc rfl) h _)

theorem State.onTab_keeps {c : Nat} (hc : c &&& 0x20000 = 0x20000) {s0 : State} {s : State} (h : Keeps c s0 s) (a1 : Tables → Tables) : Keeps c s0 (State.onTab s a1) := by
  unfold State.onTab
  exact (Keeps.set_tab (kT hc rfl) h _)

theorem State.onTb_keeps {c : Nat} (hc : c &&& 0x200 = 0x200) {s0 : State} {s : State} (h : Keeps c s0 s) (a1 : TimeBase → TimeBase) : Keeps c s0 (State.onTb s a1) := by
  unfold State.onTb
  exact (Keeps.set_tb (kT hc rfl) h _)

theorem State.onWk_keeps {c : Nat} (hc : c &&& 0x400000 = 0x400000) {s0 : State} {s : State} (h : Keeps c s0 s) (a1 : Wake → Wake) : Keeps c s0 (State.onWk s a1) := by
  unfold State.onWk
  exact (Keeps.set_wk (kT hc rfl) h _)

theorem State.ringPut_keeps {c : Nat} (hc : c &&& 0x2000020 = 0x2000020) {s0 : State} {s : State} (h : Keeps c s0 s) (a1 : ℕ) (a2 : Octets) : KeepsP c s0 (State.ringPut s a1 a2) := by
  unfold State.ringPut
  exact (Keeps.iteP (fun _ => (by extract_lets x0_0 x0_1 x0_2; have h1 : Keeps c s0 x0_2 := (State.onHb_keeps (kS hc rfl) h _); exact (Keeps.mkP (State.inc_keeps (kS hc rfl) (State.setFld_keeps (kS hc rfl) h1 _ _ _ _) _ _)))) (fun _ => (Keeps.mkP h)))

theorem State.takePos_keeps {c : Nat} (hc : c &&& 0x400 = 0x400) {s0 : State} {s : State} (h : Keeps c s0 s) (a1 : ℕ) (a2 : ℕ) : KeepsP c s0 (State.takePos s a1 a2) := by
  unfold State.takePos
  exact (by extract_lets x0_0 x0_1 x0_2; exact (Keeps.mkP (Keeps.set_epR (kT hc rfl) h _ (by rfl))))

theorem State.stampIn_keeps {c : Nat} (hc : c &&& 0x420 = 0x420) {s0 : State} {s : State} (h : Keeps c s0 s) (a1 : Input) : Keeps c s0 (State.stampIn s a1) := by
  unfold State.stampIn
  exact (by split; exacts [(State.inc_keeps (kS hc rfl) h _ _), (by split; exacts [(by have h0 := Keeps.ofP (by assumption) (State.takePos_keeps (kS hc rfl) h _ _); exact (by extract_lets x1_0 x1_1; exact (Keeps.set_epR (kT hc rfl) h0 _ (by rfl))))])])

theorem State.stampBayEvent_keeps {c : Nat} (hc : c &&& 0x420 = 0x420) {s0 : State} {s : State} (h : Keeps c s0 s) (a1 : ℕ) (a2 : Octets) : Keeps c s0 (State.stampBayEvent s a1 a2) := by
  unfold State.stampBayEvent
  exact (State.stampIn_keeps (kS hc rfl) h _)

theorem State.stampEvent_keeps {c : Nat} (hc : c &&& 0x420 = 0x420) {s0 : State} {s : State} (h : Keeps c s0 s) (a1 : ℕ) (a2 : Octets) : Keeps c s0 (State.stampEvent s a1 a2) := by
  unfold State.stampEvent
  exact (State.stampIn_keeps (kS hc rfl) h _)

theorem State.tick_keeps {c : Nat} (hc : c &&& 0x2 = 0x2) {s0 : State} {s : State} (h : Keeps c s0 s) (a1 : ℕ) : Keeps c s0 (State.tick s a1) := by
  unfold State.tick
  exact (Keeps.set_now (kT hc rfl) h _ (Nat.le_max_left _ _))

theorem State.violation_keeps {c : Nat} (hc : c &&& 0x20 = 0x20) {s0 : State} {s : State} (h : Keeps c s0 s) : Keeps c s0 (State.violation s) := by
  unfold State.violation
  exact (State.wrN_keeps (kS hc rfl) h _ _)

theorem State.wr2_keeps {c : Nat} (hc : c &&& 0x20 = 0x20) {s0 : State} {s : State} (h : Keeps c s0 s) (a1 : ℕ) (a2 : ℕ) (a3 : ℕ) : Keeps c s0 (State.wr2 s a1 a2 a3) := by
  unfold State.wr2
  exact (State.wrN_keeps (kS hc rfl) (State.wrN_keeps (kS hc rfl) h _ _) _ _)

theorem State.onCan_keeps {c : Nat} (hc : c &&& 0x2000 = 0x2000) {s0 : State} {s : State} (h : Keeps c s0 s) (a1 : ℕ) (a2 : CanSt → CanSt) : Keeps c s0 (State.onCan s a1 a2) := by
  unfold State.onCan
  exact (State.onMort_keeps (kS hc rfl) h _ _)

theorem State.canReport_keeps {c : Nat} (hc : c &&& 0x420 = 0x420) {s0 : State} {s : State} (h : Keeps c s0 s) (a1 : ℕ) (a2 : ℕ) (a3 : ℕ) (a4 : ℕ) (a5 : ℕ) (a6 : ℕ) : Keeps c s0 (State.canReport s a1 a2 a3 a4 a5 a6) := by
  unfold State.canReport
  exact (Keeps.ite (fun _ => (State.stampEvent_keeps (kS hc rfl) h _ _)) (fun _ => h))

theorem State.onObj_keeps {c : Nat} (hc : c &&& 0x2000 = 0x2000) {s0 : State} {s : State} (h : Keeps c s0 s) (a1 : ℕ) (a2 : ℕ) (a3 : CanObj → CanObj) : Keeps c s0 (State.onObj s a1 a2 a3) := by
  unfold State.onObj
  exact (State.onCan_keeps (kS hc rfl) h _ _)

theorem State.canAckError_keeps {c : Nat} (hc : c &&& 0x2420 = 0x2420) {s0 : State} {s : State} (h : Keeps c s0 s) (a1 : ℕ) : Keeps c s0 (State.canAckError s a1) := by
  unfold State.canAckError
  exact (by extract_lets x0_0 x0_1 x0_2 x0_3; have h1 : Keeps c s0 x0_3 := (State.onCan_keeps (kS hc rfl) (State.setFld_keeps (kS hc rfl) h _ _ _ _) _ _); exact (by split; exacts [(Keeps.ite (fun _ => (State.canReport_keeps (kS hc rfl) (State.onObj_keeps (kS hc rfl) h1 _ _ _) _ _ _ _ _ _)) (fun _ => (State.setFld_keeps (kS hc rfl) h _ _ _ _))), (State.setFld_keeps (kS hc rfl) h _ _ _ _)]))

theorem State.canWait_keeps {c : Nat} (hc : c &&& 0x2020 = 0x2020) {s0 : State} {s : State} (h : Keeps c s0 s) (a1 : ℕ) (a2 : ℕ) : Keeps c s0 (State.canWait s a1 a2) := by
  unfold State.canWait
  exact (State.setBit_keeps (kS hc rfl) (State.onCan_keeps (kS hc rfl) h _ _) _ _ _)

theorem State.txWire_keeps {c : Nat} (hc : c &&& 0x20 = 0x20) {s0 : State} {s : State} (h : Keeps c s0 s) (a1 : ℕ) : Keeps c s0 (State.txWire s a1) := by
  unfold State.txWire
  exact (State.wrN_keeps (kS hc rfl) h _ _)

theorem State.canBeginDriving_keeps {c : Nat} (hc : c &&& 0x2420 = 0x2420) {s0 : State} {s : State} (h : Keeps c s0 s) (a1 : ℕ) : Keeps c s0 (State.canBeginDriving s a1) := by
  unfold State.canBeginDriving
  exact (by extract_lets x0_0 x0_1 x0_2 x0_3 x0_4; have h1 : Keeps c s0 x0_2 := (State.canWait_keeps (kS hc rfl) (State.onCan_keeps (kS hc rfl) h _ _) _ _); have h2 : Keeps c s0 x0_3 := (State.setBit_keeps (kS hc rfl) (State.setFld_keeps (kS hc rfl) (State.setFld_keeps (kS hc rfl) h1 _ _ _ _) _ _ _ _) _ _ _); have h3 : Keeps c s0 x0_4 := (State.txWire_keeps (kS hc rfl) (State.setBit_keeps (kS hc rfl) (State.setFld_keeps (kS hc rfl) h2 _ _ _ _) _ _ _) _); exact (Keeps.ite (fun _ => (State.canReport_keeps (kS hc rfl) h3 _ _ _ _ _ _)) (fun _ => h3)))

theorem State.canComplete_keeps {c : Nat} (hc : c &&& 0x2020 = 0x2020) {s0 : State} {s : State} (h : Keeps c s0 s) (a1 : ℕ) : Keeps c s0 (State.canComplete s a1) := by
  unfold State.canComplete
  exact (by extract_lets x0_0; have h1 : Keeps c s0 x0_0 := (by unfold x0_0; split; exacts [(State.setFld_keeps (kS hc rfl) (State.onCan_keeps (kS hc rfl) h _ _) _ _ _ _), h]); exact (State.wrN_keeps (kS hc rfl) h1 _ _))

theorem State.setErr_keeps {c : Nat} (hc : c &&& 0x420 = 0x420) {s0 : State} {s : State} (h : Keeps c s0 s) (a1 : ℕ) (a2 : ℕ) (a3 : ℕ) : Keeps c s0 (State.setErr s a1 a2 a3) := by
  unfold State.setErr
  exact (by extract_lets x0_0 x0_1 x0_2 x0_3 x0_4 x0_5; have h1 : Keeps c s0 x0_4 := (State.setBit_keeps (kS hc rfl) (State.setFld_keeps (kS hc rfl) (State.setFld_keeps (kS hc rfl) h _ _ _ _) _ _ _ _) _ _ _); have h2 : Keeps c s0 x0_5 := (State.setBit_keeps (kS hc rfl) (State.setFld_keeps (kS hc rfl) h1 _ _ _ _) _ _ _); exact (Keeps.ite (fun _ => (State.canReport_keeps (kS hc rfl) h2 _ _ _ _ _ _)) (fun _ => h2)))

theorem State.canNotSent_keeps {c : Nat} (hc : c &&& 0x2420 = 0x2420) {s0 : State} {s : State} (h : Keeps c s0 s) (a1 : ℕ) (a2 : ℕ) (a3 : ℕ) : Keeps c s0 (State.canNotSent s a1 a2 a3) := by
  unfold State.canNotSent
  exact (Keeps.ite (fun _ => (State.canReport_keeps (kS hc rfl) (State.onObj_keeps (kS hc rfl) h _ _ _) _ _ _ _ _ _)) (fun _ => h))

theorem State.canCount_keeps {c : Nat} (hc : c &&& 0x2420 = 0x2420) {s0 : State} {s : State} (h : Keeps c s0 s) (a1 : ℕ) (a2 : ℕ) (a3 : CanErr) : Keeps c s0 (State.canCount s a1 a2 a3) := by
  unfold State.canCount
  exact (Keeps.ite (fun _ => (State.canWait_keeps (kS hc rfl) h _ _)) (fun _ => (by extract_lets x0_0; exact (by split; exacts [(by extract_lets x1_0 x1_1 x1_2; have h2 : Keeps c s0 x1_0 := (Keeps.ite (fun _ => h) (fun _ => (State.setErr_keeps (kS hc rfl) h _ _ _))); have h3 : Keeps c s0 x1_2 := (State.onCan_keeps (kS hc rfl) h2 _ _); exact (Keeps.ite (fun _ => (by clear_value x1_1; split; exacts [(State.onObj_keeps (kS hc rfl) (State.canNotSent_keeps (kS hc rfl) h3 _ _ _) _ _ _), h3])) (fun _ => h2)))]))))

theorem State.canEvent_keeps {c : Nat} (hc : c &&& 0x2080 = 0x2080) {s0 : State} {s : State} (h : Keeps c s0 s) (a1 : ℕ) (a2 : ℕ) (a3 : Octets) : Keeps c s0 (State.canEvent s a1 a2 a3) := by
  unfold State.canEvent
  exact (by extract_lets x0_0 x0_1 x0_2 x0_3 x0_4 x0_5 x0_6 x0_7 x0_8 x0_9 x0_10 x0_11 x0_12; have h1 : Keeps c s0 x0_6 := (State.cEvt_keeps (kS hc rfl) (State.cPut_keeps (kS hc rfl) (State.cPut_keeps (kS hc rfl) h _ _ _ _) _ _ _ _) _ _); have h2 : Keeps c s0 x0_7 := (Keeps.ite (fun _ => (State.cEvt_keeps (kS hc rfl) h1 _ _)) (fun _ => h1)); have h3 : Keeps c s0 x0_11 := (State.cPut_keeps (kS hc rfl) (State.cPut_keeps (kS hc rfl) (State.cInc_keeps (kS hc rfl) h _ _) _ _ _ _) _ _ _ _); have h4 : Keeps c s0 x0_12 := (State.onCan_keeps (kS hc rfl) h3 _ _); exact (by clear_value x0_0; split; exacts [(State.cInc_keeps (kS hc rfl) (Keeps.ite (fun _ => (State.onObj_keeps (kS hc rfl) h _ _ _)) (fun _ => h)) _ _), (State.cEvt_keeps (kS hc rfl) (Keeps.ite (fun _ => (State.onObj_keeps (kS hc rfl) h _ _ _)) (fun _ => h)) _ _), (State.cEvt_keeps (kS hc rfl) (Keeps.ite (fun _ => (State.onObj_keeps (kS hc rfl) h _ _ _)) (fun _ => h)) _ _), (Keeps.ite (fun _ => (State.cEvt_keeps (kS hc rfl) h2 _ _)) (fun _ => h2)), (State.cNotice_keeps (kS hc rfl) (State.cPut_keeps (kS hc rfl) (State.cEvt_keeps (kS hc rfl) (State.cInc_keeps (kS hc rfl) (Keeps.ite (fun _ => (State.onObj_keeps (kS hc rfl) h _ _ _)) (fun _ => h)) _ _) _ _) _ _ _ _) _ _ _), (State.cPut_keeps (kS hc rfl) h _ _ _ _), (Keeps.ite (fun _ => (State.cNotice_keeps (kS hc rfl) (State.cEvt_keeps (kS hc rfl) (State.cPut_keeps (kS hc rfl) (State.cInc_keeps (kS hc rfl) h4 _ _) _ _ _ _) _ _) _ _ _)) (fun _ => (State.onCan_keeps (kS hc rfl) h3 _ _))), (State.cNotice_keeps (kS hc rfl) (State.cEvt_keeps (kS hc rfl) (State.cInc_keeps (kS hc rfl) h _ _) _ _) _ _ _), h]))

theorem State.canFree_keeps {c : Nat} (hc : c &&& 0x2020 = 0x2020) {s0 : State} {s : State} (h : Keeps c s0 s) (a1 : ℕ) : Keeps c s0 (State.canFree s a1) := by
  unfold State.canFree
  exact (State.txWire_keeps (kS hc rfl) (State.onCan_keeps (kS hc rfl) h _ _) _)

theorem State.canIntegrated_keeps {c : Nat} (hc : c &&& 0x2020 = 0x2020) {s0 : State} {s : State} (h : Keeps c s0 s) (a1 : ℕ) : Keeps c s0 (State.canIntegrated s a1) := by
  unfold State.canIntegrated
  exact (State.setBit_keeps (kS hc rfl) (State.onCan_keeps (kS hc rfl) h _ _) _ _ _)

theorem State.canPlace_keeps {c : Nat} (hc : c &&& 0x2080 = 0x2080) {s0 : State} {s : State} (h : Keeps c s0 s) (a1 : ℕ) (a2 : Egress) : KeepsP c s0 (State.canPlace s a1 a2) := by
  unfold State.canPlace
  exact (by extract_lets x0_0 x0_1; have h1 : Keeps c s0 x0_1 := (State.onCan_keeps (kS hc rfl) h _ _); exact (by split; exacts [(Keeps.iteP (fun _ => (Keeps.mkP (State.onObj_keeps (kS hc rfl) h1 _ _ _))) (fun _ => (by extract_lets x2_0; have h3 : Keeps c s0 x2_0 := (Keeps.ite (fun _ => (State.cInc_keeps (kS hc rfl) h1 _ _)) (fun _ => h1)); exact (Keeps.mkP (State.onObj_keeps (kS hc rfl) h3 _ _ _))))), (by split; exacts [(Keeps.mkP (State.onObj_keeps (kS hc rfl) h1 _ _ _)), (Keeps.mkP h1)])]))

theorem State.canStart_keeps {c : Nat} (hc : c &&& 0x2000 = 0x2000) {s0 : State} {s : State} (h : Keeps c s0 s) (a1 : ℕ) (a2 : ℕ) : Keeps c s0 (State.canStart s a1 a2) := by
  unfold State.canStart
  exact (by extract_lets x0_0; exact (State.onCan_keeps (kS hc rfl) h _ _))

theorem State.cellCapture_keeps {c : Nat} (hc : c &&& 0x2020 = 0x2020) {s0 : State} {s : State} (h : Keeps c s0 s) (a1 : ℕ) (a2 : Octets) : Keeps c s0 (State.cellCapture s a1 a2) := by
  unfold State.cellCapture
  exact (by split; exacts [h, (by extract_lets x0_0; have h1 : Keeps c s0 x0_0 := (Keeps.ite (fun _ => (State.evt_keeps (kS hc rfl) (State.setBit_keeps (kS hc rfl) h _ _ _) _ _)) (fun _ => h)); exact (State.evt_keeps (kS hc rfl) (State.setBit_keeps (kS hc rfl) (State.onCan_keeps (kS hc rfl) h1 _ _) _ _ _) _ _))])

theorem State.colSync_keeps {c : Nat} (hc : c &&& 0x2020 = 0x2020) {s0 : State} {s : State} (h : Keeps c s0 s) (a1 : ℕ) (a2 : ℕ) : Keeps c s0 (State.colSync s a1 a2) := by
  unfold State.colSync
  exact (by split; exacts [h, (by extract_lets x0_0; exact (Keeps.ite (fun _ => h) (fun _ => (State.onCan_keeps (kS hc rfl) (State.setFld_keeps (kS hc rfl) h _ _ _ _) _ _))))])

theorem State.cycleStart_keeps {c : Nat} (hc : c &&& 0x2020 = 0x2020) {s0 : State} {s : State} (h : Keeps c s0 s) (a1 : ℕ) (a2 : ℕ) (a3 : ℕ) : Keeps c s0 (State.cycleStart s a1 a2 a3) := by
  unfold State.cycleStart
  exact (by extract_lets x0_0 x0_1; exact (by split; exacts [(by unfold x0_0; extract_lets x1_0; have h2 : Keeps c s0 x1_0 := (State.onCan_keeps (kS hc rfl) h _ _); exact (State.setBit_keeps (kS hc rfl) (State.setFld_keeps (kS hc rfl) (State.setFld_keeps (kS hc rfl) h2 _ _ _ _) _ _ _ _) _ _ _)), (by extract_lets x3_0 x3_1 x3_2 x3_3; have h5 : Keeps c s0 x3_0 := (State.onCan_keeps (kS hc rfl) (Keeps.foldl (fun _ _ h4 => (State.wrN_keeps (kS hc rfl) h4 _ _)) _ h) _ _); have h6 : Keeps c s0 x3_3 := (Keeps.ite (fun _ => h5) (fun _ => (State.onCan_keeps (kS hc rfl) h5 _ _))); exact (Keeps.ite (fun _ => (State.setBit_keeps (kS hc rfl) (State.onCan_keeps (kS hc rfl) h5 _ _) _ _ _)) (fun _ => (Keeps.ite (fun _ => (by unfold x0_0; extract_lets x7_0; have h8 : Keeps c s0 x7_0 := (State.onCan_keeps (kS hc rfl) h6 _ _); exact (State.setBit_keeps (kS hc rfl) (State.setFld_keeps (kS hc rfl) (State.setFld_keeps (kS hc rfl) h8 _ _ _ _) _ _ _ _) _ _ _))) (fun _ => (by unfold x0_0; extract_lets x9_0; have h10 : Keeps c s0 x9_0 := (State.onCan_keeps (kS hc rfl) h5 _ _); exact (State.setBit_keeps (kS hc rfl) (State.setFld_keeps (kS hc rfl) (State.setFld_keeps (kS hc rfl) h10 _ _ _ _) _ _ _ _) _ _ _)))))))]))

theorem State.loneEnd_keeps {c : Nat} (hc : c &&& 0x2420 = 0x2420) {s0 : State} {s : State} (h : Keeps c s0 s) (a1 : ℕ) : Keeps c s0 (State.loneEnd s a1) := by
  unfold State.loneEnd
  exact (by extract_lets x0_0; have h1 : Keeps c s0 x0_0 := (State.setFld_keeps (kS hc rfl) h _ _ _ _); exact (Keeps.ite (fun _ => (State.canReport_keeps (kS hc rfl) (State.onCan_keeps (kS hc rfl) h1 _ _) _ _ _ _ _ _)) (fun _ => h1)))

theorem State.matrixSwap_keeps {c : Nat} (hc : c &&& 0x2000 = 0x2000) {s0 : State} {s : State} (h : Keeps c s0 s) (a1 : ℕ) (a2 : Octets) : Keeps c s0 (State.matrixSwap s a1 a2) := by
  unfold State.matrixSwap
  exact (by extract_lets x0_0; exact (State.onCan_keeps (kS hc rfl) h _ _))

theorem State.missReport_keeps {c : Nat} (hc : c &&& 0x2420 = 0x2420) {s0 : State} {s : State} (h : Keeps c s0 s) (a1 : ℕ) (a2 : ℕ) : Keeps c s0 (State.missReport s a1 a2) := by
  unfold State.missReport
  exact (Keeps.ite (fun _ => h) (fun _ => (State.canReport_keeps (kS hc rfl) (State.onCan_keeps (kS hc rfl) h _ _) _ _ _ _ _ _)))

theorem State.tdcMeasured_keeps {c : Nat} (hc : c &&& 0x20 = 0x20) {s0 : State} {s : State} (h : Keeps c s0 s) (a1 : ℕ) (a2 : Option ℕ) : Keeps c s0 (State.tdcMeasured s a1 a2) := by
  unfold State.tdcMeasured
  exact (by extract_lets x0_0 x0_1; exact (Keeps.ite (fun _ => (by unfold x0_1; split; exacts [h, (Keeps.ite (fun _ => h) (fun _ => (by extract_lets x1_0 x1_1; have h2 : Keeps c s0 x1_1 := (State.setBit_keeps (kS hc rfl) (State.setFld_keeps (kS hc rfl) h _ _ _ _) _ _ _); exact (Keeps.ite (fun _ => (State.evt_keeps (kS hc rfl) h2 _ _)) (fun _ => h2)))))])) (fun _ => (Keeps.ite (fun _ => (by unfold x0_1; split; exacts [h, (Keeps.ite (fun _ => h) (fun _ => (by extract_lets x3_0 x3_1; have h4 : Keeps c s0 x3_1 := (State.setBit_keeps (kS hc rfl) (State.setFld_keeps (kS hc rfl) h _ _ _ _) _ _ _); exact (Keeps.ite (fun _ => (State.evt_keeps (kS hc rfl) h4 _ _)) (fun _ => h4)))))])) (fun _ => h)))))

theorem basicCycleStart_keeps {c : Nat} (hc : c &&& 0x2022 = 0x2022) {s0 : State} {s : State} (h : Keeps c s0 s) (a0 : ℕ) (a1 : ℕ) : Keeps c s0 (basicCycleStart a0 a1 s) := by
  unfold basicCycleStart
  exact (by extract_lets x0_0 x0_1 x0_2; have h1 : Keeps c s0 x0_0 := (State.tick_keeps (kS hc rfl) h _); exact (Keeps.ite (fun _ => (State.cycleStart_keeps (kS hc rfl) h1 _ _ _)) (fun _ => h1)))

theorem busOffRecovered_keeps {c : Nat} (hc : c &&& 0x2422 = 0x2422) {s0 : State} {s : State} (h : Keeps c s0 s) (a0 : ℕ) (a1 : ℕ) : Keeps c s0 (busOffRecovered a0 a1 s) := by
  unfold busOffRecovered
  exact (by extract_lets x0_0 x0_1 x0_2; have h1 : Keeps c s0 x0_0 := (State.tick_keeps (kS hc rfl) h _); have h2 : Keeps c s0 x0_1 := (State.setFld_keeps (kS hc rfl) (State.onCan_keeps (kS hc rfl) h1 _ _) _ _ _ _); have h3 : Keeps c s0 x0_2 := (State.setBit_keeps (kS hc rfl) (State.setFld_keeps (kS hc rfl) (State.setFld_keeps (kS hc rfl) h2 _ _ _ _) _ _ _ _) _ _ _); exact (Keeps.ite (fun _ => (State.canReport_keeps (kS hc rfl) (State.setBit_keeps (kS hc rfl) h3 _ _ _) _ _ _ _ _ _)) (fun _ => h1)))

theorem busOffRecoveryRequest_keeps {c : Nat} (hc : c &&& 0x2000 = 0x2000) {s0 : State} {s : State} (h : Keeps c s0 s) (a0 : ℕ) : Keeps c s0 (busOffRecoveryRequest a0 s) := by
  unfold busOffRecoveryRequest
  exact (Keeps.ite (fun _ => (State.onCan_keeps (kS hc rfl) h _ _)) (fun _ => h))

theorem canArbitrationStart_keeps {c : Nat} (hc : c &&& 0x2022 = 0x2022) {s0 : State} {s : State} (h : Keeps c s0 s) (a0 : ℕ) (a1 : ℕ) : Keeps c s0 (canArbitrationStart a0 a1 s) := by
  unfold canArbitrationStart
  exact (by extract_lets x0_0 x0_1 x0_2; have h1 : Keeps c s0 x0_0 := (State.tick_keeps (kS hc rfl) h _); have h2 : Keeps c s0 x0_1 := (State.colSync_keeps (kS hc rfl) (State.canIntegrated_keeps (kS hc rfl) h1 _) _ _); exact (Keeps.ite (fun _ => h1) (fun _ => (Keeps.ite (fun _ => h2) (fun _ => (Keeps.ite (fun _ => (by split; exacts [(State.canStart_keeps (kS hc rfl) h2 _ _), h2])) (fun _ => (Keeps.ite (fun _ => (State.onCan_keeps (kS hc rfl) (State.canStart_keeps (kS hc rfl) h2 _ _) _ _)) (fun _ => h2)))))))))

theorem canBusError_keeps {c : Nat} (hc : c &&& 0x2422 = 0x2422) {s0 : State} {s : State} (h : Keeps c s0 s) (a0 : ℕ) (a1 : ℕ) (a2 : CanErr) (a3 : Bool) (a4 : Option ℕ) : Keeps c s0 (canBusError a0 a1 a2 a3 a4 s) := by
  unfold canBusError
  exact (by extract_lets x0_0 x0_1 x0_2 x0_3 x0_4 x0_5; have h1 : Keeps c s0 x0_0 := (State.tick_keeps (kS hc rfl) h _); have h2 : Keeps c s0 x0_1 := (Keeps.ite (fun _ => (State.inc_keeps (kS hc rfl) h1 _ _)) (fun _ => h1)); have h3 : Keeps c s0 x0_3 := (Keeps.ite (fun _ => (State.tdcMeasured_keeps (kS hc rfl) h2 _ _)) (fun _ => h2)); have h4 : Keeps c s0 x0_4 := (by unfold x0_4; split; exacts [(Keeps.ite (fun _ => (State.canReport_keeps (kS hc rfl) h3 _ _ _ _ _ _)) (fun _ => h3)), h3]); have h5 : Keeps c s0 x0_5 := (State.canCount_keeps (kS hc rfl) h4 _ _ _); exact (Keeps.ite (fun _ => h1) (fun _ => (by split; exacts [(Keeps.ite (fun _ => (State.canAckError_keeps (kS hc rfl) h5 _)) (fun _ => h5)), h5]))))

theorem canFrameReceived_keeps {c : Nat} (hc : c &&& 0x2422 = 0x2422) {s0 : State} {s : State} (h : Keeps c s0 s) (a0 : ℕ) (a1 : ℕ) (a2 : ℕ) (a3 : Octets) : Keeps c s0 (canFrameReceived a0 a1 a2 a3 s) := by
  unfold canFrameReceived
  exact (by extract_lets x0_0 x0_1 x0_2 x0_3 x0_4 x0_5 x0_6 x0_7 x0_8 x0_9; have h1 : Keeps c s0 x0_0 := (State.tick_keeps (kS hc rfl) h _); have h2 : Keeps c s0 x0_1 := (State.canIntegrated_keeps (kS hc rfl) h1 _); have h3 : Keeps c s0 x0_4 := (State.inc_keeps (kS hc rfl) h2 _ _); have h4 : Keeps c s0 x0_5 := (State.inc_keeps (kS hc rfl) h2 _ _); have h5 : Keeps c s0 x0_6 := (Keeps.ite (fun _ => h4) (fun _ => (State.setErr_keeps (kS hc rfl) h4 _ _ _))); have h6 : Keeps c s0 x0_7 := (State.loneEnd_keeps (kS hc rfl) h5 _); have h7 : Keeps c s0 x0_8 := (State.cellCapture_keeps (kS hc rfl) h6 _ _); have h8 : Keeps c s0 x0_9 := (Keeps.ite (fun _ => (State.cycleStart_keeps (kS hc rfl) (State.setBit_keeps (kS hc rfl) (State.onCan_keeps (kS hc rfl) h7 _ _) _ _ _) _ _ _)) (fun _ => h7)); exact (Keeps.ite (fun _ => h1) (fun _ => (Keeps.ite (fun _ => (Keeps.ite (fun _ => (State.evt_keeps (kS hc rfl) (State.canWait_keeps (kS hc rfl) h2 _ _) _ _)) (fun _ => (Keeps.ite (fun _ => (State.canWait_keeps (kS hc rfl) h3 _ _)) (fun _ => (State.setErr_keeps (kS hc rfl) h3 _ _ _)))))) (fun _ => (Keeps.ite (fun _ => h6) (fun _ => (Keeps.ite (fun _ => (State.stampIn_keeps (kS hc rfl) h8 _)) (fun _ => h8)))))))))

theorem canOpmodeWrite_keeps {c : Nat} (hc : c &&& 0x2020 = 0x2020) {s0 : State} {s : State} (h : Keeps c s0 s) (a0 : ℕ) (a1 : ℕ) : Keeps c s0 (canOpmodeWrite a0 a1 s) := by
  unfold canOpmodeWrite
  exact (Keeps.ite (fun _ => (State.onCan_keeps (kS hc rfl) (State.setFld_keeps (kS hc rfl) h _ _ _ _) _ _)) (fun _ => h))

theorem canTransmitEnd_keeps {c : Nat} (hc : c &&& 0x2422 = 0x2422) {s0 : State} {s : State} (h : Keeps c s0 s) (a0 : ℕ) (a1 : ℕ) (a2 : ℕ) : Keeps c s0 (canTransmitEnd a0 a1 a2 s) := by
  unfold canTransmitEnd
  exact (by extract_lets x0_0 x0_1 x0_2 x0_3; have h1 : Keeps c s0 x0_0 := (State.tick_keeps (kS hc rfl) h _); have h2 : Keeps c s0 x0_2 := (State.onCan_keeps (kS hc rfl) (State.tdcMeasured_keeps (kS hc rfl) h1 _ _) _ _); have h3 : Keeps c s0 x0_3 := (State.loneEnd_keeps (kS hc rfl) (State.setErr_keeps (kS hc rfl) h2 _ _ _) _); exact (Keeps.ite (fun _ => h1) (fun _ => (by split; exacts [h1, (Keeps.ite (fun _ => h3) (fun _ => (State.canReport_keeps (kS hc rfl) (State.inc_keeps (kS hc rfl) (State.txWire_keeps (kS hc rfl) (State.onObj_keeps (kS hc rfl) h3 _ _ _) _) _ _) _ _ _ _ _ _)))]))))

theorem canTransmitFailed_keeps {c : Nat} (hc : c &&& 0x2422 = 0x2422) {s0 : State} {s : State} (h : Keeps c s0 s) (a0 : ℕ) (a1 : ℕ) (a2 : Bool) (a3 : Option ℕ) : Keeps c s0 (canTransmitFailed a0 a1 a2 a3 s) := by
  unfold canTransmitFailed
  exact (by extract_lets x0_0; have h1 : Keeps c s0 x0_0 := (State.tick_keeps (kS hc rfl) h _); exact (Keeps.ite (fun _ => h1) (fun _ => (by split; exacts [h1, (by extract_lets x2_0 x2_1 x2_2; have h3 : Keeps c s0 x2_1 := (State.onCan_keeps (kS hc rfl) (State.tdcMeasured_keeps (kS hc rfl) h1 _ _) _ _); have h4 : Keeps c s0 x2_2 := (Keeps.ite (fun _ => (State.inc_keeps (kS hc rfl) h3 _ _)) (fun _ => h3)); exact (State.canNotSent_keeps (kS hc rfl) h4 _ _ _))]))))

theorem canTxAbort_keeps {c : Nat} (hc : c &&& 0x24a0 = 0x24a0) {s0 : State} {s : State} (h : Keeps c s0 s) (a0 : ℕ) (a1 : ℕ) : Keeps c s0 (canTxAbort a0 a1 s) := by
  unfold canTxAbort
  exact (Keeps.ite (fun _ => h) (fun _ => (Keeps.foldl (fun _ _ h0 => (Keeps.ite (fun _ => (by extract_lets x1_0 x1_1; have h2 : Keeps c s0 x1_0 := (Keeps.ite (fun _ => (State.cInc_keeps (kS hc rfl) (State.onObj_keeps (kS hc rfl) h0 _ _ _) _ _)) (fun _ => h0)); exact (Keeps.ite (fun _ => h2) (fun _ => (Keeps.ite (fun _ => (State.onObj_keeps (kS hc rfl) h2 _ _ _)) (fun _ => (State.canReport_keeps (kS hc rfl) (State.onObj_keeps (kS hc rfl) h2 _ _ _) _ _ _ _ _ _))))))) (fun _ => h0))) _ h)))

theorem exclusiveWindowOpen_keeps {c : Nat} (hc : c &&& 0x2422 = 0x2422) {s0 : State} {s : State} (h : Keeps c s0 s) (a0 : ℕ) (a1 : ℕ) (a2 : Bool) : Keeps c s0 (exclusiveWindowOpen a0 a1 a2 s) := by
  unfold exclusiveWindowOpen
  exact (by extract_lets x0_0 x0_1 x0_2; have h1 : Keeps c s0 x0_0 := (State.tick_keeps (kS hc rfl) h _); have h2 : Keeps c s0 x0_1 := (State.colSync_keeps (kS hc rfl) h1 _ _); exact (Keeps.ite (fun _ => h1) (fun _ => (by split; exacts [h2, (Keeps.ite (fun _ => (Keeps.ite (fun _ => (State.onCan_keeps (kS hc rfl) (State.canStart_keeps (kS hc rfl) h2 _ _) _ _)) (fun _ => (State.missReport_keeps (kS hc rfl) h2 _ _)))) (fun _ => h2))]))))

theorem referenceLost_keeps {c : Nat} (hc : c &&& 0x22 = 0x22) {s0 : State} {s : State} (h : Keeps c s0 s) (a0 : ℕ) (a1 : ℕ) : Keeps c s0 (referenceLost a0 a1 s) := by
  unfold referenceLost
  exact (by extract_lets x0_0; have h1 : Keeps c s0 x0_0 := (State.tick_keeps (kS hc rfl) h _); exact (Keeps.ite (fun _ => (State.evt_keeps (kS hc rfl) (State.setBit_keeps (kS hc rfl) h1 _ _ _) _ _)) (fun _ => h1)))

theorem windowEnd_keeps {c : Nat} (hc : c &&& 0x2422 = 0x2422) {s0 : State} {s : State} (h : Keeps c s0 s) (a0 : ℕ) (a1 : ℕ) : Keeps c s0 (windowEnd a0 a1 s) := by
  unfold windowEnd
  exact (by extract_lets x0_0 x0_1 x0_2 x0_3; have h1 : Keeps c s0 x0_0 := (State.tick_keeps (kS hc rfl) h _); have h2 : Keeps c s0 x0_1 := (State.colSync_keeps (kS hc rfl) h1 _ _); have h3 : Keeps c s0 x0_3 := (State.missReport_keeps (kS hc rfl) h2 _ _); exact (by split; exacts [h1, (Keeps.ite (fun _ => h1) (fun _ => (Keeps.ite (fun _ => (Keeps.ite (fun _ => (State.canNotSent_keeps (kS hc rfl) h3 _ _ _)) (fun _ => h3))) (fun _ => h2))))]))

theorem State.onLin_keeps {c : Nat} (hc : c &&& 0x2000 = 0x2000) {s0 : State} {s : State} (h : Keeps c s0 s) (a1 : ℕ) (a2 : LinSt → LinSt) : Keeps c s0 (State.onLin s a1 a2) := by
  unfold State.onLin
  exact (State.onMort_keeps (kS hc rfl) h _ _)

theorem State.linActive_keeps {c : Nat} (hc : c &&& 0x2000 = 0x2000) {s0 : State} {s : State} (h : Keeps c s0 s) (a1 : ℕ) : Keeps c s0 (State.linActive s a1) := by
  unfold State.linActive
  exact (State.onLin_keeps (kS hc rfl) h _ _)

theorem State.linBeginDriving_keeps {c : Nat} (hc : c &&& 0x2000 = 0x2000) {s0 : State} {s : State} (h : Keeps c s0 s) (a1 : ℕ) : Keeps c s0 (State.linBeginDriving s a1) := by
  unfold State.linBeginDriving
  exact (State.onLin_keeps (kS hc rfl) h _ _)

theorem State.linReport_keeps {c : Nat} (hc : c &&& 0x420 = 0x420) {s0 : State} {s : State} (h : Keeps c s0 s) (a1 : ℕ) (a2 : ℕ) (a3 : ℕ) (a4 : ℕ) (a5 : Bool) : Keeps c s0 (State.linReport s a1 a2 a3 a4 a5) := by
  unfold State.linReport
  exact (Keeps.ite (fun _ => h) (fun _ => (State.stampEvent_keeps (kS hc rfl) h _ _)))

theorem State.linCollide_keeps {c : Nat} (hc : c &&& 0x2420 = 0x2420) {s0 : State} {s : State} (h : Keeps c s0 s) (a1 : ℕ) : Keeps c s0 (State.linCollide s a1) := by
  unfold State.linCollide
  exact (by extract_lets x0_0; exact (by split; exacts [(by extract_lets x1_0; have h2 : Keeps c s0 x1_0 := (State.linReport_keeps (kS hc rfl) (State.onLin_keeps (kS hc rfl) h _ _) _ _ _ _ _); exact (Keeps.ite (fun _ => (State.onLin_keeps (kS hc rfl) h2 _ _)) (fun _ => h2)))]))

theorem State.linControls_keeps {c : Nat} (hc : c &&& 0x2020 = 0x2020) {s0 : State} {s : State} (h : Keeps c s0 s) (a1 : ℕ) : Keeps c s0 (State.linControls s a1) := by
  unfold State.linControls
  exact (by extract_lets x0_0 x0_1 x0_2 x0_3; have h1 : Keeps c s0 x0_2 := (State.onLin_keeps (kS hc rfl) h _ _); have h5 : Keeps c s0 x0_3 := (Keeps.foldl (fun _ _ h2 => (by extract_lets x3_0; have h4 : Keeps c s0 x3_0 := (by unfold x3_0; split; exacts [(Keeps.ite (fun _ => h2) (fun _ => (State.setFld_keeps (kS hc rfl) (State.onLin_keeps (kS hc rfl) h2 _ _) _ _ _ _))), h2]); exact (by split; exacts [(State.setBit_keeps (kS hc rfl) (State.setBit_keeps (kS hc rfl) (State.onLin_keeps (kS hc rfl) h4 _ _) _ _ _) _ _ _), h4]))) _ h1); exact (Keeps.ite (fun _ => (State.onLin_keeps (kS hc rfl) h5 _ _)) (fun _ => h5)))

theorem State.linCtl_keeps {c : Nat} (hc : c &&& 0x2000 = 0x2000) {s0 : State} {s : State} (h : Keeps c s0 s) (a1 : ℕ) (a2 : ℕ) (a3 : Option ℕ) (a4 : Option Bool) (a5 : Bool) : Keeps c s0 (State.linCtl s a1 a2 a3 a4 a5) := by
  unfold State.linCtl
  exact (State.onLin_keeps (kS hc rfl) h _ _)

theorem State.linDecide_keeps {c : Nat} (hc : c &&& 0x2020 = 0x2020) {s0 : State} {s : State} (h : Keeps c s0 s) (a1 : ℕ) (a2 : ℕ) (a3 : ℕ) : Keeps c s0 (State.linDecide s a1 a2 a3) := by
  unfold State.linDecide
  exact (Keeps.ite (fun _ => h) (fun _ => (by split; exacts [(by extract_lets x0_0; have h1 : Keeps c s0 x0_0 := (State.onLin_keeps (kS hc rfl) h _ _); exact (Keeps.ite (fun _ => (State.onLin_keeps (kS hc rfl) h1 _ _)) (fun _ => h1))), (State.evt_keeps (kS hc rfl) (State.inc_keeps (kS hc rfl) h _ _) _ _)])))

theorem State.linEvent_keeps {c : Nat} (hc : c &&& 0x2080 = 0x2080) {s0 : State} {s : State} (h : Keeps c s0 s) (a1 : ℕ) (a2 : Octets) : Keeps c s0 (State.linEvent s a1 a2) := by
  unfold State.linEvent
  exact (by extract_lets x0_0; exact (by split; exacts [(State.cPut_keeps (kS hc rfl) (State.cInc_keeps (kS hc rfl) (State.onLin_keeps (kS hc rfl) h _ _) _ _) _ _ _ _), (State.cPut_keeps (kS hc rfl) (State.cEvt_keeps (kS hc rfl) (State.cInc_keeps (kS hc rfl) h _ _) _ _) _ _ _ _), (State.cEvt_keeps (kS hc rfl) (State.cInc_keeps (kS hc rfl) h _ _) _ _), (State.cEvt_keeps (kS hc rfl) (State.cPut_keeps (kS hc rfl) (State.onLin_keeps (kS hc rfl) h _ _) _ _ _ _) _ _), (State.cEvt_keeps (kS hc rfl) (State.cPut_keeps (kS hc rfl) h _ _ _ _) _ _), (State.cEvt_keeps (kS hc rfl) (State.cInc_keeps (kS hc rfl) h _ _) _ _), h]))

theorem State.linFrameDone_keeps {c : Nat} (hc : c &&& 0x80 = 0x80) {s0 : State} {s : State} (h : Keeps c s0 s) (a1 : ℕ) : Keeps c s0 (State.linFrameDone s a1) := by
  unfold State.linFrameDone
  exact (State.cPut_keeps (kS hc rfl) h _ _ _ _)

theorem State.linPlace_keeps {c : Nat} (hc : c &&& 0x2080 = 0x2080) {s0 : State} {s : State} (h : Keeps c s0 s) (a1 : ℕ) (a2 : Egress) : Keeps c s0 (State.linPlace s a1 a2) := by
  unfold State.linPlace
  exact (by extract_lets x0_0 x0_1; have h1 : Keeps c s0 x0_1 := (Keeps.ite (fun _ => h) (fun _ => (State.cInc_keeps (kS hc rfl) h _ _))); exact (State.onLin_keeps (kS hc rfl) h1 _ _))

theorem State.linRunSlot_keeps {c : Nat} (hc : c &&& 0x2020 = 0x2020) {s0 : State} {s : State} (h : Keeps c s0 s) (a1 : ℕ) (a2 : ℕ) : Keeps c s0 (State.linRunSlot s a1 a2) := by
  unfold State.linRunSlot
  exact (by split; exacts [(by split; exacts [(by extract_lets x0_0 x0_1 x0_2 x0_3 x0_4; have h1 : Keeps c s0 x0_3 := (State.onLin_keeps (kS hc rfl) h _ _); have h2 : Keeps c s0 x0_4 := (State.setFld_keeps (kS hc rfl) h1 _ _ _ _); exact (Keeps.ite (fun _ => (State.linDecide_keeps (kS hc rfl) h2 _ _ _)) (fun _ => h2)))])])

theorem State.linSleepSlot_keeps {c : Nat} (hc : c &&& 0x2000 = 0x2000) {s0 : State} {s : State} (h : Keeps c s0 s) (a1 : ℕ) (a2 : ℕ) : Keeps c s0 (State.linSleepSlot s a1 a2) := by
  unfold State.linSleepSlot
  exact (by extract_lets x0_0 x0_1 x0_2 x0_3; exact (State.onLin_keeps (kS hc rfl) h _ _))

theorem State.linStart_keeps {c : Nat} (hc : c &&& 0x2000 = 0x2000) {s0 : State} {s : State} (h : Keeps c s0 s) (a1 : ℕ) (a2 : ℕ) : Keeps c s0 (State.linStart s a1 a2) := by
  unfold State.linStart
  exact (State.onLin_keeps (kS hc rfl) h _ _)

theorem linBusIdleTimeout_keeps {c : Nat} (hc : c &&& 0x2422 = 0x2422) {s0 : State} {s : State} (h : Keeps c s0 s) (a0 : ℕ) (a1 : ℕ) : Keeps c s0 (linBusIdleTimeout a0 a1 s) := by
  unfold linBusIdleTimeout
  exact (by extract_lets x0_0; have h1 : Keeps c s0 x0_0 := (State.tick_keeps (kS hc rfl) h _); exact (Keeps.ite (fun _ => (State.linReport_keeps (kS hc rfl) (State.linActive_keeps (kS hc rfl) h1 _) _ _ _ _ _)) (fun _ => h1)))

theorem linEventCollision_keeps {c : Nat} (hc : c &&& 0x2422 = 0x2422) {s0 : State} {s : State} (h : Keeps c s0 s) (a0 : ℕ) (a1 : ℕ) : Keeps c s0 (linEventCollision a0 a1 s) := by
  unfold linEventCollision
  exact (by extract_lets x0_0; have h1 : Keeps c s0 x0_0 := (State.tick_keeps (kS hc rfl) h _); exact (Keeps.ite (fun _ => h1) (fun _ => (Keeps.ite (fun _ => (State.linCollide_keeps (kS hc rfl) h1 _)) (fun _ => (State.onLin_keeps (kS hc rfl) h1 _ _))))))

theorem linFrameReceived_keeps {c : Nat} (hc : c &&& 0x2422 = 0x2422) {s0 : State} {s : State} (h : Keeps c s0 s) (a0 : ℕ) (a1 : ℕ) (a2 : Octets) : Keeps c s0 (linFrameReceived a0 a1 a2 s) := by
  unfold linFrameReceived
  exact (by extract_lets x0_0 x0_1 x0_2 x0_3 x0_4 x0_5 x0_6; have h1 : Keeps c s0 x0_0 := (State.tick_keeps (kS hc rfl) h _); have h2 : Keeps c s0 x0_4 := (State.linActive_keeps (kS hc rfl) (State.inc_keeps (kS hc rfl) h1 _ _) _); have h3 : Keeps c s0 x0_5 := (State.onLin_keeps (kS hc rfl) h2 _ _); have h4 : Keeps c s0 x0_6 := (Keeps.ite (fun _ => (State.stampIn_keeps (kS hc rfl) h3 _)) (fun _ => h3)); exact (Keeps.ite (fun _ => h1) (fun _ => (Keeps.ite (fun _ => h1) (fun _ => (Keeps.ite (fun _ => (State.linReport_keeps (kS hc rfl) h4 _ _ _ _ _)) (fun _ => h4)))))))

theorem linHeaderReceived_keeps {c : Nat} (hc : c &&& 0x2422 = 0x2422) {s0 : State} {s : State} (h : Keeps c s0 s) (a0 : ℕ) (a1 : ℕ) (a2 : ℕ) (a3 : ℕ) (a4 : ℕ) (a5 : ℤ) : Keeps c s0 (linHeaderReceived a0 a1 a2 a3 a4 a5 s) := by
  unfold linHeaderReceived
  exact (by extract_lets x0_0 x0_1 x0_2 x0_3; have h1 : Keeps c s0 x0_0 := (State.tick_keeps (kS hc rfl) h _); have h2 : Keeps c s0 x0_1 := (State.linActive_keeps (kS hc rfl) h1 _); have h3 : Keeps c s0 x0_3 := (State.onLin_keeps (kS hc rfl) h2 _ _); exact (Keeps.ite (fun _ => h1) (fun _ => (Keeps.ite (fun _ => (State.evt_keeps (kS hc rfl) (State.inc_keeps (kS hc rfl) h2 _ _) _ _)) (fun _ => (Keeps.ite (fun _ => (State.linReport_keeps (kS hc rfl) h2 _ _ _ _ _)) (fun _ => (Keeps.ite (fun _ => h3) (fun _ => (State.linDecide_keeps (kS hc rfl) h3 _ _ _))))))))))

theorem linResponseError_keeps {c : Nat} (hc : c &&& 0x2422 = 0x2422) {s0 : State} {s : State} (h : Keeps c s0 s) (a0 : ℕ) (a1 : ℕ) (a2 : ℕ) (a3 : ℕ) : Keeps c s0 (linResponseError a0 a1 a2 a3 s) := by
  unfold linResponseError
  exact (by extract_lets x0_0 x0_1 x0_2; have h1 : Keeps c s0 x0_0 := (State.tick_keeps (kS hc rfl) h _); have h2 : Keeps c s0 x0_2 := (State.onLin_keeps (kS hc rfl) (State.linActive_keeps (kS hc rfl) (State.inc_keeps (kS hc rfl) h1 _ _) _) _ _); exact (Keeps.ite (fun _ => h1) (fun _ => (Keeps.ite (fun _ => (State.onLin_keeps (kS hc rfl) h2 _ _)) (fun _ => (State.linReport_keeps (kS hc rfl) h2 _ _ _ _ _))))))

theorem linRunWrite_keeps {c : Nat} (hc : c &&& 0x2020 = 0x2020) {s0 : State} {s : State} (h : Keeps c s0 s) (a0 : ℕ) (a1 : ℕ) (a2 : Bool) : Keeps c s0 (linRunWrite a0 a1 a2 s) := by
  unfold linRunWrite
  exact (Keeps.ite (fun _ => (State.linCtl_keeps (kS hc rfl) (State.setBit_keeps (kS hc rfl) h _ _ _) _ _ _ _ _)) (fun _ => h))

theorem linSleepCommand_keeps {c : Nat} (hc : c &&& 0x2000 = 0x2000) {s0 : State} {s : State} (h : Keeps c s0 s) (a0 : ℕ) (a1 : ℕ) : Keeps c s0 (linSleepCommand a0 a1 s) := by
  unfold linSleepCommand
  exact (Keeps.ite (fun _ => (State.linCtl_keeps (kS hc rfl) h _ _ _ _ _)) (fun _ => h))

theorem linSlotStart_keeps {c : Nat} (hc : c &&& 0x2422 = 0x2422) {s0 : State} {s : State} (h : Keeps c s0 s) (a0 : ℕ) (a1 : ℕ) : Keeps c s0 (linSlotStart a0 a1 s) := by
  unfold linSlotStart
  exact (by extract_lets x0_0 x0_1 x0_2 x0_3 x0_4; have h1 : Keeps c s0 x0_0 := (State.tick_keeps (kS hc rfl) h _); have h2 : Keeps c s0 x0_2 := (Keeps.ite (fun _ => (State.linCollide_keeps (kS hc rfl) h1 _)) (fun _ => h1)); have h3 : Keeps c s0 x0_3 := (Keeps.ite (fun _ => (State.setBit_keeps (kS hc rfl) (State.setBit_keeps (kS hc rfl) (State.onLin_keeps (kS hc rfl) h2 _ _) _ _ _) _ _ _)) (fun _ => h2)); have h4 : Keeps c s0 x0_4 := (State.linControls_keeps (kS hc rfl) h3 _); exact (by split; exacts [h1, (Keeps.ite (fun _ => h1) (fun _ => (by extract_lets x5_0; have h6 : Keeps c s0 x5_0 := (Keeps.ite (fun _ => (State.linSleepSlot_keeps (kS hc rfl) h4 _ _)) (fun _ => (State.linRunSlot_keeps (kS hc rfl) h4 _ _))); exact (Keeps.ite (fun _ => (State.linActive_keeps (kS hc rfl) h6 _)) (fun _ => h6)))))]))

theorem linTableWrite_keeps {c : Nat} (hc : c &&& 0x2020 = 0x2020) {s0 : State} {s : State} (h : Keeps c s0 s) (a0 : ℕ) (a1 : ℕ) (a2 : ℕ) : Keeps c s0 (linTableWrite a0 a1 a2 s) := by
  unfold linTableWrite
  exact (Keeps.ite (fun _ => (State.linCtl_keeps (kS hc rfl) (State.setFld_keeps (kS hc rfl) h _ _ _ _) _ _ _ _ _)) (fun _ => h))

theorem linTransmitConfirm_keeps {c : Nat} (hc : c &&& 0x2422 = 0x2422) {s0 : State} {s : State} (h : Keeps c s0 s) (a0 : ℕ) (a1 : ℕ) : Keeps c s0 (linTransmitConfirm a0 a1 s) := by
  unfold linTransmitConfirm
  exact (by extract_lets x0_0; have h1 : Keeps c s0 x0_0 := (State.tick_keeps (kS hc rfl) h _); exact (by split; exacts [h1, (Keeps.ite (fun _ => h1) (fun _ => (by extract_lets x2_0; have h3 : Keeps c s0 x2_0 := (State.linReport_keeps (kS hc rfl) (State.onLin_keeps (kS hc rfl) (State.linActive_keeps (kS hc rfl) h1 _) _ _) _ _ _ _ _); exact (Keeps.ite (fun _ => (State.linReport_keeps (kS hc rfl) h3 _ _ _ _ _)) (fun _ => h3)))))]))

theorem linTxFailed_keeps {c : Nat} (hc : c &&& 0x2422 = 0x2422) {s0 : State} {s : State} (h : Keeps c s0 s) (a0 : ℕ) (a1 : ℕ) (a2 : ℕ) : Keeps c s0 (linTxFailed a0 a1 a2 s) := by
  unfold linTxFailed
  exact (by extract_lets x0_0 x0_1 x0_2; have h1 : Keeps c s0 x0_0 := (State.tick_keeps (kS hc rfl) h _); have h2 : Keeps c s0 x0_2 := (State.onLin_keeps (kS hc rfl) (State.linActive_keeps (kS hc rfl) h1 _) _ _); exact (Keeps.ite (fun _ => (Keeps.ite (fun _ => (State.onLin_keeps (kS hc rfl) h2 _ _)) (fun _ => (State.linReport_keeps (kS hc rfl) h2 _ _ _ _ _)))) (fun _ => h1)))

theorem linWakePulseReceived_keeps {c : Nat} (hc : c &&& 0x2422 = 0x2422) {s0 : State} {s : State} (h : Keeps c s0 s) (a0 : ℕ) (a1 : ℕ) (a2 : ℕ) : Keeps c s0 (linWakePulseReceived a0 a1 a2 s) := by
  unfold linWakePulseReceived
  exact (by extract_lets x0_0; have h1 : Keeps c s0 x0_0 := (State.tick_keeps (kS hc rfl) h _); exact (Keeps.ite (fun _ => (State.linReport_keeps (kS hc rfl) (State.linActive_keeps (kS hc rfl) h1 _) _ _ _ _ _)) (fun _ => h1)))

theorem linWakeRequest_keeps {c : Nat} (hc : c &&& 0x2080 = 0x2080) {s0 : State} {s : State} (h : Keeps c s0 s) (a0 : ℕ) : Keeps c s0 (linWakeRequest a0 s) := by
  unfold linWakeRequest
  exact (Keeps.ite (fun _ => (State.cPut_keeps (kS hc rfl) (Keeps.ite (fun _ => (State.onLin_keeps (kS hc rfl) (State.linActive_keeps (kS hc rfl) h _) _ _)) (fun _ => h)) _ _ _ _)) (fun _ => h))

theorem State.onT1s_keeps {c : Nat} (hc : c &&& 0x2000 = 0x2000) {s0 : State} {s : State} (h : Keeps c s0 s) (a1 : ℕ) (a2 : T1sSt → T1sSt) : Keeps c s0 (State.onT1s s a1 a2) := by
  unfold State.onT1s
  exact (State.onMort_keeps (kS hc rfl) h _ _)

theorem State.t1sReport_keeps {c : Nat} (hc : c &&& 0x420 = 0x420) {s0 : State} {s : State} (h : Keeps c s0 s) (a1 : ℕ) (a2 : ℕ) (a3 : ℕ) (a4 : Bool) : Keeps c s0 (State.t1sReport s a1 a2 a3 a4) := by
  unfold State.t1sReport
  exact (by extract_lets x0_0; exact (Keeps.ite (fun _ => h) (fun _ => (State.stampEvent_keeps (kS hc rfl) h _ _))))

theorem State.t1sWithdraw_keeps {c : Nat} (hc : c &&& 0x2420 = 0x2420) {s0 : State} {s : State} (h : Keeps c s0 s) (a1 : ℕ) : Keeps c s0 (State.t1sWithdraw s a1) := by
  unfold State.t1sWithdraw
  exact (Keeps.ite (fun _ => h) (fun _ => (by extract_lets x0_0 x0_1; have h2 : Keeps c s0 x0_1 := (Keeps.foldl (fun _ _ h1 => (State.t1sReport_keeps (kS hc rfl) h1 _ _ _ _)) _ h); exact (State.onT1s_keeps (kS hc rfl) h2 _ _))))

theorem State.t1sBeginDriving_keeps {c : Nat} (hc : c &&& 0x2420 = 0x2420) {s0 : State} {s : State} (h : Keeps c s0 s) (a1 : ℕ) : Keeps c s0 (State.t1sBeginDriving s a1) := by
  unfold State.t1sBeginDriving
  exact (State.t1sWithdraw_keeps (kS hc rfl) (State.onT1s_keeps (kS hc rfl) h _ _) _)

theorem State.t1sEvent_keeps {c : Nat} (hc : c &&& 0x2080 = 0x2080) {s0 : State} {s : State} (h : Keeps c s0 s) (a1 : ℕ) (a2 : Octets) : Keeps c s0 (State.t1sEvent s a1 a2) := by
  unfold State.t1sEvent
  exact (by extract_lets x0_0 x0_1 x0_2; have h1 : Keeps c s0 x0_1 := (State.cInc_keeps (kS hc rfl) (State.cPut_keeps (kS hc rfl) (State.cPut_keeps (kS hc rfl) h _ _ _ _) _ _ _ _) _ _); have h2 : Keeps c s0 x0_2 := (State.cEvt_keeps (kS hc rfl) h1 _ _); exact (by split; exacts [(State.cInc_keeps (kS hc rfl) (State.onT1s_keeps (kS hc rfl) h _ _) _ _), (State.cEvt_keeps (kS hc rfl) (State.cInc_keeps (kS hc rfl) (State.onT1s_keeps (kS hc rfl) h _ _) _ _) _ _), (State.cEvt_keeps (kS hc rfl) (State.cInc_keeps (kS hc rfl) (State.cPut_keeps (kS hc rfl) h _ _ _ _) _ _) _ _), (Keeps.ite (fun _ => (State.cEvt_keeps (kS hc rfl) h2 _ _)) (fun _ => h2)), (State.cEvt_keeps (kS hc rfl) (State.cInc_keeps (kS hc rfl) h _ _) _ _), h]))

theorem State.t1sFree_keeps {c : Nat} (hc : c &&& 0x2000 = 0x2000) {s0 : State} {s : State} (h : Keeps c s0 s) (a1 : ℕ) : Keeps c s0 (State.t1sFree s a1) := by
  unfold State.t1sFree
  exact (State.onT1s_keeps (kS hc rfl) h _ _)

theorem State.t1sPlaceAll_keeps {c : Nat} (hc : c &&& 0x2420 = 0x2420) {s0 : State} {s : State} (h : Keeps c s0 s) (a1 : ℕ) (a2 : List Egress) : KeepsP c s0 (State.t1sPlaceAll s a1 a2) := by
  unfold State.t1sPlaceAll
  exact (by extract_lets x0_0 x0_1 x0_2 x0_3; have h1 : Keeps c s0 x0_2 := (State.onT1s_keeps (kS hc rfl) h _ _); have h2 : Keeps c s0 x0_3 := (State.t1sWithdraw_keeps (kS hc rfl) h1 _); exact (Keeps.mkP (State.setFld_keeps (kS hc rfl) h2 _ _ _ _)))

theorem State.t1sSendOne_keeps {c : Nat} (hc : c &&& 0x2420 = 0x2420) {s0 : State} {s : State} (h : Keeps c s0 s) (a1 : ℕ) (a2 : ℕ) : Keeps c s0 (State.t1sSendOne s a1 a2) := by
  unfold State.t1sSendOne
  exact (State.t1sReport_keeps (kS hc rfl) (State.inc_keeps (kS hc rfl) (State.onT1s_keeps (kS hc rfl) h _ _) _ _) _ _ _ _)

theorem phyDisconnect_keeps {c : Nat} (hc : c &&& 0x2422 = 0x2422) {s0 : State} {s : State} (h : Keeps c s0 s) (a0 : ℕ) (a1 : ℕ) (a2 : Bool) : Keeps c s0 (phyDisconnect a0 a1 a2 s) := by
  unfold phyDisconnect
  exact (by extract_lets x0_0 x0_1 x0_2 x0_3 x0_4; have h1 : Keeps c s0 x0_0 := (State.tick_keeps (kS hc rfl) h _); have h2 : Keeps c s0 x0_3 := (State.onT1s_keeps (kS hc rfl) h1 _ _); have h3 : Keeps c s0 x0_4 := (State.setBit_keeps (kS hc rfl) (State.setBit_keeps (kS hc rfl) h2 _ _ _) _ _ _); exact (Keeps.ite (fun _ => h1) (fun _ => (Keeps.ite (fun _ => (State.setBit_keeps (kS hc rfl) h1 _ _ _)) (fun _ => (State.t1sWithdraw_keeps (kS hc rfl) (State.t1sReport_keeps (kS hc rfl) h3 _ _ _ _) _))))))

theorem phyReconnect_keeps {c : Nat} (hc : c &&& 0x2422 = 0x2422) {s0 : State} {s : State} (h : Keeps c s0 s) (a0 : ℕ) (a1 : ℕ) (a2 : Bool) : Keeps c s0 (phyReconnect a0 a1 a2 s) := by
  unfold phyReconnect
  exact (by extract_lets x0_0 x0_1 x0_2; have h1 : Keeps c s0 x0_0 := (State.tick_keeps (kS hc rfl) h _); exact (Keeps.ite (fun _ => h1) (fun _ => (Keeps.ite (fun _ => (Keeps.ite (fun _ => (State.t1sReport_keeps (kS hc rfl) (State.onT1s_keeps (kS hc rfl) h1 _ _) _ _ _ _)) (fun _ => h1))) (fun _ => (Keeps.ite (fun _ => (State.setBit_keeps (kS hc rfl) (State.onT1s_keeps (kS hc rfl) h1 _ _) _ _ _)) (fun _ => h1)))))))

theorem phyResetCommand_keeps {c : Nat} (hc : c &&& 0x2020 = 0x2020) {s0 : State} {s : State} (h : Keeps c s0 s) (a0 : ℕ) : Keeps c s0 (phyResetCommand a0 s) := by
  unfold phyResetCommand
  exact (Keeps.ite (fun _ => (by extract_lets x0_0; exact (State.setBit_keeps (kS hc rfl) (State.onT1s_keeps (kS hc rfl) h _ _) _ _ _))) (fun _ => h))

theorem plcaBeacon_keeps {c : Nat} (hc : c &&& 0x2422 = 0x2422) {s0 : State} {s : State} (h : Keeps c s0 s) (a0 : ℕ) (a1 : ℕ) (a2 : Bool) : Keeps c s0 (plcaBeacon a0 a1 a2 s) := by
  unfold plcaBeacon
  exact (by extract_lets x0_0 x0_1 x0_2 x0_3; have h1 : Keeps c s0 x0_0 := (State.tick_keeps (kS hc rfl) h _); have h2 : Keeps c s0 x0_3 := (State.onT1s_keeps (kS hc rfl) h1 _ _); exact (Keeps.ite (fun _ => h1) (fun _ => (Keeps.ite (fun _ => h2) (fun _ => (State.t1sReport_keeps (kS hc rfl) h2 _ _ _ _))))))

theorem plcaInactive_keeps {c : Nat} (hc : c &&& 0x2422 = 0x2422) {s0 : State} {s : State} (h : Keeps c s0 s) (a0 : ℕ) (a1 : ℕ) : Keeps c s0 (plcaInactive a0 a1 s) := by
  unfold plcaInactive
  exact (by extract_lets x0_0; have h1 : Keeps c s0 x0_0 := (State.tick_keeps (kS hc rfl) h _); exact (Keeps.ite (fun _ => (State.t1sReport_keeps (kS hc rfl) (State.onT1s_keeps (kS hc rfl) h1 _ _) _ _ _ _)) (fun _ => h1)))

theorem t1sFrameReceived_keeps {c : Nat} (hc : c &&& 0x422 = 0x422) {s0 : State} {s : State} (h : Keeps c s0 s) (a0 : ℕ) (a1 : ℕ) (a2 : Octets) (a3 : Bool) : Keeps c s0 (t1sFrameReceived a0 a1 a2 a3 s) := by
  unfold t1sFrameReceived
  exact (by extract_lets x0_0 x0_1 x0_2 x0_3; have h1 : Keeps c s0 x0_0 := (State.tick_keeps (kS hc rfl) h _); have h2 : Keeps c s0 x0_2 := (State.inc_keeps (kS hc rfl) h1 _ _); exact (Keeps.ite (fun _ => h1) (fun _ => (Keeps.ite (fun _ => (State.evt_keeps (kS hc rfl) (State.inc_keeps (kS hc rfl) (State.inc_keeps (kS hc rfl) h1 _ _) _ _) _ _)) (fun _ => (Keeps.ite (fun _ => h2) (fun _ => (State.stampIn_keeps (kS hc rfl) h2 _))))))))

theorem t1sTransmitOpportunity_keeps {c : Nat} (hc : c &&& 0x2422 = 0x2422) {s0 : State} {s : State} (h : Keeps c s0 s) (a0 : ℕ) (a1 : ℕ) (a2 : T1sTx) : Keeps c s0 (t1sTransmitOpportunity a0 a1 a2 s) := by
  unfold t1sTransmitOpportunity
  exact (by extract_lets x0_0 x0_1 x0_2 x0_3 x0_4 x0_5; have h1 : Keeps c s0 x0_0 := (State.tick_keeps (kS hc rfl) h _); have h2 : Keeps c s0 x0_5 := (State.onT1s_keeps (kS hc rfl) (State.evt_keeps (kS hc rfl) (State.inc_keeps (kS hc rfl) h1 _ _) _ _) _ _); exact (Keeps.ite (fun _ => h1) (fun _ => (by split; exacts [(Keeps.ite (fun _ => h1) (fun _ => (State.onT1s_keeps (kS hc rfl) h1 _ _))), (Keeps.ite (fun _ => h1) (fun _ => (State.onT1s_keeps (kS hc rfl) (State.t1sSendOne_keeps (kS hc rfl) h1 _ _) _ _))), (Keeps.ite (fun _ => h1) (fun _ => (Keeps.ite (fun _ => h2) (fun _ => (Keeps.ite (fun _ => (State.onT1s_keeps (kS hc rfl) h2 _ _)) (fun _ => (State.t1sReport_keeps (kS hc rfl) (State.onT1s_keeps (kS hc rfl) h2 _ _) _ _ _ _)))))))]))))

theorem t1sWakeInService_keeps {c : Nat} (hc : c &&& 0x422 = 0x422) {s0 : State} {s : State} (h : Keeps c s0 s) (a0 : ℕ) (a1 : ℕ) (a2 : ℕ) : Keeps c s0 (t1sWakeInService a0 a1 a2 s) := by
  unfold t1sWakeInService
  exact (by extract_lets x0_0; have h1 : Keeps c s0 x0_0 := (State.tick_keeps (kS hc rfl) h _); exact (Keeps.ite (fun _ => (State.t1sReport_keeps (kS hc rfl) h1 _ _ _ _)) (fun _ => h1)))

theorem t1sWakeRequest_keeps {c : Nat} (hc : c &&& 0x2000 = 0x2000) {s0 : State} {s : State} (h : Keeps c s0 s) (a0 : ℕ) : Keeps c s0 (t1sWakeRequest a0 s) := by
  unfold t1sWakeRequest
  exact (Keeps.ite (fun _ => (State.onT1s_keeps (kS hc rfl) h _ _)) (fun _ => h))

theorem State.releasePins_keeps {c : Nat} (hc : c &&& 0x2000 = 0x2000) {s0 : State} {s : State} (h : Keeps c s0 s) (a1 : ℕ) : Keeps c s0 (State.releasePins s a1) := by
  unfold State.releasePins
  exact (State.onMort_keeps (kS hc rfl) h _ _)

theorem State.abortTenon_keeps {c : Nat} (hc : c &&& 0x4002420 = 0x4002420) {s0 : State} {s : State} (h : Keeps c s0 s) (a1 : ℕ) (a2 : ℕ) : Keeps c s0 (State.abortTenon s a1 a2) := by
  unfold State.abortTenon
  exact (by extract_lets x0_0; have h1 : Keeps c s0 x0_0 := (State.onMort_keeps (kS hc rfl) h _ _); exact (State.evt_keeps (kS hc rfl) (State.evtOf_keeps (kS hc rfl) (State.releasePins_keeps (kS hc rfl) h1 _) _ _ _) _ _))

theorem State.beginDrivingMort_keeps {c : Nat} (hc : c &&& 0x2420 = 0x2420) {s0 : State} {s : State} (h : Keeps c s0 s) (a1 : ℕ) : Keeps c s0 (State.beginDrivingMort s a1) := by
  unfold State.beginDrivingMort
  exact (Keeps.ite (fun _ => h) (fun _ => (by extract_lets x0_0; have h1 : Keeps c s0 x0_0 := (State.onMort_keeps (kS hc rfl) h _ _); exact (by split; exacts [(State.canBeginDriving_keeps (kS hc rfl) h1 _), (State.linBeginDriving_keeps (kS hc rfl) h1 _), (State.t1sBeginDriving_keeps (kS hc rfl) h1 _)]))))

theorem State.clearRegs_keeps {c : Nat} (hc : c &&& 0x20 = 0x20) {s0 : State} {s : State} (h : Keeps c s0 s) (a1 : ℕ) (a2 : ℕ) : Keeps c s0 (State.clearRegs s a1 a2) := by
  unfold State.clearRegs
  exact (Keeps.set_regs (kT hc rfl) h _ (fun h => List.Pairwise.filter _ h))

theorem State.loadRegs_keeps {c : Nat} (hc : c &&& 0x20 = 0x20) {s0 : State} {s : State} (h : Keeps c s0 s) (a1 : ℕ) (a2 : ℕ) (a3 : Octets) : Keeps c s0 (State.loadRegs s a1 a2 a3) := by
  unfold State.loadRegs
  exact (Keeps.foldl (fun _ _ h0 => (State.wrN_keeps (kS hc rfl) h0 _ _)) _ h)

theorem State.loadCan_keeps {c : Nat} (hc : c &&& 0x2020 = 0x2020) {s0 : State} {s : State} (h : Keeps c s0 s) (a1 : ℕ) (a2 : Octets) : Keeps c s0 (State.loadCan s a1 a2) := by
  unfold State.loadCan
  exact (by extract_lets x0_0 x0_1 x0_2 x0_3 x0_4 x0_5 x0_6 x0_7; have h1 : Keeps c s0 x0_0 := (State.wrN_keeps (kS hc rfl) h _ _); have h2 : Keeps c s0 x0_1 := (State.wrN_keeps (kS hc rfl) (State.wrN_keeps (kS hc rfl) (State.wrN_keeps (kS hc rfl) h1 _ _) _ _) _ _); have h3 : Keeps c s0 x0_2 := (State.wrN_keeps (kS hc rfl) (State.wrN_keeps (kS hc rfl) (State.wrN_keeps (kS hc rfl) h2 _ _) _ _) _ _); have h4 : Keeps c s0 x0_3 := (State.loadRegs_keeps (kS hc rfl) (State.wrN_keeps (kS hc rfl) h3 _ _) _ _ _); have h6 : Keeps c s0 x0_4 := (Keeps.foldl (fun _ _ h5 => (State.wrN_keeps (kS hc rfl) (State.wrN_keeps (kS hc rfl) h5 _ _) _ _)) _ h4); have h7 : Keeps c s0 x0_6 := (State.setFld_keeps (kS hc rfl) (State.setFld_keeps (kS hc rfl) h6 _ _ _ _) _ _ _ _); have h8 : Keeps c s0 x0_7 := (State.onCan_keeps (kS hc rfl) h7 _ _); exact (by split; exacts [(State.loadRegs_keeps (kS hc rfl) (State.loadRegs_keeps (kS hc rfl) h8 _ _ _) _ _ _), h8]))

theorem State.loadLin_keeps {c : Nat} (hc : c &&& 0x2020 = 0x2020) {s0 : State} {s : State} (h : Keeps c s0 s) (a1 : ℕ) (a2 : Octets) : Keeps c s0 (State.loadLin s a1 a2) := by
  unfold State.loadLin
  exact (by extract_lets x0_0 x0_1 x0_2 x0_3 x0_4; have h1 : Keeps c s0 x0_0 := (State.wrN_keeps (kS hc rfl) (State.wrN_keeps (kS hc rfl) (State.wrN_keeps (kS hc rfl) h _ _) _ _) _ _); have h2 : Keeps c s0 x0_1 := (State.loadRegs_keeps (kS hc rfl) h1 _ _ _); have h3 : Keeps c s0 x0_3 := (State.setBit_keeps (kS hc rfl) (State.setBit_keeps (kS hc rfl) h2 _ _ _) _ _ _); have h4 : Keeps c s0 x0_4 := (State.onLin_keeps (kS hc rfl) h3 _ _); exact (by split; exacts [(State.loadRegs_keeps (kS hc rfl) h4 _ _ _), h4]))

theorem State.loadT1s_keeps {c : Nat} (hc : c &&& 0x20 = 0x20) {s0 : State} {s : State} (h : Keeps c s0 s) (a1 : ℕ) (a2 : Octets) : Keeps c s0 (State.loadT1s s a1 a2) := by
  unfold State.loadT1s
  exact (State.loadRegs_keeps (kS hc rfl) h _ _ _)

theorem State.loadTenon_keeps {c : Nat} (hc : c &&& 0x2020 = 0x2020) {s0 : State} {s : State} (h : Keeps c s0 s) (a1 : ℕ) (a2 : Octets) : Keeps c s0 (State.loadTenon s a1 a2) := by
  unfold State.loadTenon
  exact (by extract_lets x0_0 x0_1; have h1 : Keeps c s0 x0_0 := (State.clearRegs_keeps (kS hc rfl) h _ _); have h2 : Keeps c s0 x0_1 := (State.onMort_keeps (kS hc rfl) h1 _ _); exact (by split; exacts [(State.loadCan_keeps (kS hc rfl) h2 _ _), (State.loadLin_keeps (kS hc rfl) h2 _ _), (State.loadT1s_keeps (kS hc rfl) h2 _ _), (State.loadT1s_keeps (kS hc rfl) h2 _ _), h2]))

theorem State.configMort_keeps {c : Nat} (hc : c &&& 0x2020 = 0x2020) {s0 : State} {s : State} (h : Keeps c s0 s) (a1 : ℕ) (a2 : Octets) : Keeps c s0 (State.configMort s a1 a2) := by
  unfold State.configMort
  exact (by extract_lets x0_0 x0_1; have h1 : Keeps c s0 x0_1 := (State.onMort_keeps (kS hc rfl) (State.loadTenon_keeps (kS hc rfl) h _ _) _ _); exact (by split; exacts [(by extract_lets x2_0; exact (Keeps.foldl (fun _ _ h3 => (State.wr_keeps (kS hc rfl) h3 _ _)) _ h1))]))

theorem State.configMB_keeps {c : Nat} (hc : c &&& 0x6820 = 0x6820) {s0 : State} {s : State} (h : Keeps c s0 s) (a1 : ℕ) (a2 : Octets) : Keeps c s0 (State.configMB s a1 a2) := by
  unfold State.configMB
  exact (by extract_lets x0_0 x0_1; have h1 : Keeps c s0 x0_1 := (Keeps.mk' h (Nat.le_refl _) (Nat.le_refl _) id id id (fun h => (updAt_length _ _ _).trans h) id kO kO kO kO kO kO kO kO kO (kL hc) kO kO (kL hc) kO kO kO kO kO kO kO kO kO kO kO kO); exact (Keeps.foldl (fun _ _ h2 => (State.configMort_keeps (kS hc rfl) h2 _ _)) _ h1))

theorem State.endDrain_keeps {c : Nat} (hc : c &&& 0x4002420 = 0x4002420) {s0 : State} {s : State} (h : Keeps c s0 s) (a1 : ℕ) : Keeps c s0 (State.endDrain s a1) := by
  unfold State.endDrain
  exact (Keeps.ite (fun _ => (State.abortTenon_keeps (kS hc rfl) h _ _)) (fun _ => (State.releasePins_keeps (kS hc rfl) h _)))

theorem State.takePins_keeps {c : Nat} (hc : c &&& 0x2000 = 0x2000) {s0 : State} {s : State} (h : Keeps c s0 s) (a1 : ℕ) : Keeps c s0 (State.takePins s a1) := by
  unfold State.takePins
  exact (State.onMort_keeps (kS hc rfl) h _ _)

theorem State.enterMort_keeps {c : Nat} (hc : c &&& 0x4002420 = 0x4002420) {s0 : State} {s : State} (h : Keeps c s0 s) (a1 : ℕ) (a2 : ℕ) : Keeps c s0 (State.enterMort s a1 a2) := by
  unfold State.enterMort
  exact (Keeps.ite (fun _ => (State.onMort_keeps (kS hc rfl) h _ _)) (fun _ => (by extract_lets x0_0 x0_1 x0_2; have h1 : Keeps c s0 x0_0 := (State.takePins_keeps (kS hc rfl) (State.onMort_keeps (kS hc rfl) h _ _) _); have h2 : Keeps c s0 x0_1 := (Keeps.ite (fun _ => (State.linStart_keeps (kS hc rfl) h1 _ _)) (fun _ => h1)); have h3 : Keeps c s0 x0_2 := (Keeps.ite (fun _ => (State.onCan_keeps (kS hc rfl) h2 _ _)) (fun _ => h2)); exact (State.evtOf_keeps (kS hc rfl) h3 _ _ _))))

theorem State.loadHcopy_keeps {c : Nat} (hc : c &&& 0x20 = 0x20) {s0 : State} {s : State} (h : Keeps c s0 s) (a1 : ℕ) (a2 : Octets) : Keeps c s0 (State.loadHcopy s a1 a2) := by
  unfold State.loadHcopy
  exact (Keeps.ite (fun _ => (State.wrN_keeps (kS hc rfl) h _ _)) (fun _ => h))

theorem State.enterMB_keeps {c : Nat} (hc : c &&& 0x4002420 = 0x4002420) {s0 : State} {s : State} (h : Keeps c s0 s) (a1 : ℕ) (a2 : ℕ) : Keeps c s0 (State.enterMB s a1 a2) := by
  unfold State.enterMB
  exact (Keeps.foldl (fun _ _ h0 => (State.enterMort_keeps (kS hc rfl) (State.loadHcopy_keeps (kS hc rfl) h0 _ _) _ _)) _ h)

theorem State.flushMort_keeps {c : Nat} (hc : c &&& 0x42020 = 0x42020) {s0 : State} {s : State} (h : Keeps c s0 s) (a1 : ℕ) : Keeps c s0 (State.flushMort s a1) := by
  unfold State.flushMort
  exact (by extract_lets x0_0 x0_1 x0_2 x0_3 x0_4; exact (by split; exacts [(by have h1 := Keeps.ofP (by assumption) (State.flushPort_keeps (kS hc rfl) h _); exact (by extract_lets x2_0 x2_1 x2_2; have h3 : Keeps c s0 x2_2 := (State.onMort_keeps (kS hc rfl) h1 _ _); exact (State.inc_keeps (kS hc rfl) h3 _ _)))]))

theorem State.planSwap_keeps {c : Nat} (hc : c &&& 0x2020 = 0x2020) {s0 : State} {s : State} (h : Keeps c s0 s) (a1 : ℕ) (a2 : Octets) : Keeps c s0 (State.planSwap s a1 a2) := by
  unfold State.planSwap
  exact (by split; exacts [(State.matrixSwap_keeps (kS hc rfl) h _ _), (State.loadRegs_keeps (kS hc rfl) h _ _ _), h])

theorem State.retenon_keeps {c : Nat} (hc : c &&& 0x42820 = 0x42820) {s0 : State} {s : State} (h : Keeps c s0 s) (a1 : ℕ) (a2 : ℕ) (a3 : Octets) : Keeps c s0 (State.retenon s a1 a2 a3) := by
  unfold State.retenon
  exact (by extract_lets x0_0 x0_1 x0_2 x0_3 x0_4 x0_5 x0_6 x0_7; have h1 : Keeps c s0 x0_5 := (State.onMort_keeps (kS hc rfl) h _ _); have h2 : Keeps c s0 x0_6 := (State.onFr_keeps (kS hc rfl) (State.wrN_keeps (kS hc rfl) (State.wrN_keeps (kS hc rfl) h1 _ _) _ _) _); have h3 : Keeps c s0 x0_7 := (State.onMort_keeps (kS hc rfl) (State.flushMort_keeps (kS hc rfl) h2 _) _ _); exact (Keeps.ite (fun _ => h2) (fun _ => (Keeps.ite (fun _ => h3) (fun _ => (State.releasePins_keeps (kS hc rfl) h3 _))))))

theorem State.retenonCovered_keeps {c : Nat} (hc : c &&& 0x20 = 0x20) {s0 : State} {s : State} (h : Keeps c s0 s) (a1 : ℕ) (a2 : Octets) : Keeps c s0 (State.retenonCovered s a1 a2) := by
  unfold State.retenonCovered
  exact (by extract_lets x0_0 x0_1; have h1 : Keeps c s0 x0_0 := (State.loadHcopy_keeps (kS hc rfl) (State.wrN_keeps (kS hc rfl) h _ _) _ _); have h3 : Keeps c s0 x0_1 := (Keeps.foldl (fun _ _ h2 => (State.wrN_keeps (kS hc rfl) h2 _ _)) _ h1); exact (by split; exacts [(Keeps.foldl (fun _ _ h4 => (State.wrN_keeps (kS hc rfl) h4 _ _)) _ h3), (Keeps.foldl (fun _ _ h5 => (State.wrN_keeps (kS hc rfl) h5 _ _)) _ h3), (Keeps.foldl (fun _ _ h6 => (State.wrN_keeps (kS hc rfl) h6 _ _)) _ h3), (Keeps.foldl (fun _ _ h7 => (State.wrN_keeps (kS hc rfl) h7 _ _)) _ h3), h3]))

theorem State.senseBank_keeps {c : Nat} (hc : c &&& 0x4000 = 0x4000) {s0 : State} {s : State} (h : Keeps c s0 s) (a1 : ℕ) (a2 : ℕ) : Keeps c s0 (State.senseBank s a1 a2) := by
  unfold State.senseBank
  exact (Keeps.set_banks (kT hc rfl) h _ (fun h => (updAt_length _ _ _).trans h))

theorem State.stopDriving_keeps {c : Nat} (hc : c &&& 0x202020 = 0x202020) {s0 : State} {s : State} (h : Keeps c s0 s) : Keeps c s0 (State.stopDriving s) := by
  unfold State.stopDriving
  exact (State.tecZero_keeps (kS hc rfl) (by extract_lets x0_0; have h1 : Keeps c s0 x0_0 := (State.onTw_keeps (kS hc rfl) h _); exact (Keeps.set_mz (kT hc rfl) h1 _ (fun h => by first | simpa using h | exact (List.length_map _).trans h))))

theorem bankFault_keeps {c : Nat} (hc : c &&& 0x4247c22 = 0x4247c22) {s0 : State} {s : State} (h : Keeps c s0 s) (a0 : ℕ) (a1 : ℕ) (a2 : ℕ) : Keeps c s0 (bankFault a0 a1 a2 s) := by
  unfold bankFault
  exact (by extract_lets x0_0 x0_1 x0_2; have h1 : Keeps c s0 x0_0 := (State.tick_keeps (kS hc rfl) h _); have h2 : Keeps c s0 x0_1 := (State.senseBank_keeps (kS hc rfl) h1 _ _); have h4 : Keeps c s0 x0_2 := (Keeps.foldl (fun _ _ h3 => (State.evtOf_keeps (kS hc rfl) h3 _ _ _)) _ h2); exact (Keeps.ite (fun _ => h1) (fun _ => (Keeps.ite (fun _ => h2) (fun _ => (State.raiseFault_keeps (kS hc rfl) h4 _ _ _ _))))))

theorem bankPowerUp_keeps {c : Nat} (hc : c &&& 0x6002 = 0x6002) {s0 : State} {s : State} (h : Keeps c s0 s) (a0 : ℕ) (a1 : ℕ) (a2 : ℕ) : Keeps c s0 (bankPowerUp a0 a1 a2 s) := by
  unfold bankPowerUp
  exact (by extract_lets x0_0; have h1 : Keeps c s0 x0_0 := (State.tick_keeps (kS hc rfl) h _); exact (Keeps.ite (fun _ => h1) (fun _ => (Keeps.foldl (fun _ _ h2 => (State.onMort_keeps (kS hc rfl) h2 _ _)) _ (State.senseBank_keeps (kS hc rfl) h1 _ _)))))

theorem beginDriving_keeps {c : Nat} (hc : c &&& 0x202422 = 0x202422) {s0 : State} {s : State} (h : Keeps c s0 s) (a0 : ℕ) : Keeps c s0 (beginDriving a0 s) := by
  unfold beginDriving
  exact (by extract_lets x0_0; have h1 : Keeps c s0 x0_0 := (State.tick_keeps (kS hc rfl) h _); exact (Keeps.ite (fun _ => h1) (fun _ => (Keeps.foldl (fun _ _ h2 => (State.beginDrivingMort_keeps (kS hc rfl) h2 _)) _ (State.onTw_keeps (kS hc rfl) h1 _)))))

theorem drainAbort_keeps {c : Nat} (hc : c &&& 0x4002422 = 0x4002422) {s0 : State} {s : State} (h : Keeps c s0 s) (a0 : ℕ) (a1 : ℕ) : Keeps c s0 (drainAbort a0 a1 s) := by
  unfold drainAbort
  exact (by extract_lets x0_0; have h1 : Keeps c s0 x0_0 := (State.tick_keeps (kS hc rfl) h _); exact (Keeps.ite (fun _ => (State.endDrain_keeps (kS hc rfl) h1 _)) (fun _ => h1)))

theorem hostCopyControl_keeps {c : Nat} (hc : c &&& 0x20 = 0x20) {s0 : State} {s : State} (h : Keeps c s0 s) (a0 : ℕ) (a1 : ℕ) : Keeps c s0 (hostCopyControl a0 a1 s) := by
  unfold hostCopyControl
  exact (Keeps.ite (fun _ => (State.wrN_keeps (kS hc rfl) h _ _)) (fun _ => h))

theorem mortiseRxInhibit_keeps {c : Nat} (hc : c &&& 0x2020 = 0x2020) {s0 : State} {s : State} (h : Keeps c s0 s) (a0 : ℕ) (a1 : Bool) : Keeps c s0 (mortiseRxInhibit a0 a1 s) := by
  unfold mortiseRxInhibit
  exact (Keeps.ite (fun _ => (State.setBit_keeps (kS hc rfl) (State.onMort_keeps (kS hc rfl) h _ _) _ _ _)) (fun _ => h))

theorem mortiseTxInhibit_keeps {c : Nat} (hc : c &&& 0x2020 = 0x2020) {s0 : State} {s : State} (h : Keeps c s0 s) (a0 : ℕ) (a1 : Bool) : Keeps c s0 (mortiseTxInhibit a0 a1 s) := by
  unfold mortiseTxInhibit
  exact (Keeps.ite (fun _ => (State.setBit_keeps (kS hc rfl) (State.onMort_keeps (kS hc rfl) h _ _) _ _ _)) (fun _ => h))

theorem oldTenonRelease_keeps {c : Nat} (hc : c &&& 0x2002 = 0x2002) {s0 : State} {s : State} (h : Keeps c s0 s) (a0 : ℕ) (a1 : ℕ) : Keeps c s0 (oldTenonRelease a0 a1 s) := by
  unfold oldTenonRelease
  exact (by extract_lets x0_0; have h1 : Keeps c s0 x0_0 := (State.tick_keeps (kS hc rfl) h _); exact (Keeps.ite (fun _ => (State.releasePins_keeps (kS hc rfl) h1 _)) (fun _ => h1)))

theorem pinFault_keeps {c : Nat} (hc : c &&& 0x4243c22 = 0x4243c22) {s0 : State} {s : State} (h : Keeps c s0 s) (a0 : ℕ) (a1 : ℕ) (a2 : ℕ) : Keeps c s0 (pinFault a0 a1 a2 s) := by
  unfold pinFault
  exact (by extract_lets x0_0; have h1 : Keeps c s0 x0_0 := (State.tick_keeps (kS hc rfl) h _); exact (Keeps.ite (fun _ => (State.notice_keeps (kS hc rfl) (State.evt_keeps (kS hc rfl) h1 _ _) _ _ _)) (fun _ => h1)))

theorem tenonLoaded_keeps {c : Nat} (hc : c &&& 0x2022 = 0x2022) {s0 : State} {s : State} (h : Keeps c s0 s) (a0 : ℕ) (a1 : ℕ) : Keeps c s0 (tenonLoaded a0 a1 s) := by
  unfold tenonLoaded
  exact (by extract_lets x0_0; have h1 : Keeps c s0 x0_0 := (State.tick_keeps (kS hc rfl) h _); exact (Keeps.ite (fun _ => (State.onMort_keeps (kS hc rfl) (Keeps.foldl (fun _ _ h2 => (State.wrN_keeps (kS hc rfl) h2 _ _)) _ h1) _ _)) (fun _ => h1)))

theorem tenonResume_keeps {c : Nat} (hc : c &&& 0x4002422 = 0x4002422) {s0 : State} {s : State} (h : Keeps c s0 s) (a0 : ℕ) (a1 : ℕ) : Keeps c s0 (tenonResume a0 a1 s) := by
  unfold tenonResume
  exact (Keeps.ite (fun _ => (by extract_lets x0_0 x0_1 x0_2; have h1 : Keeps c s0 x0_0 := (Keeps.ite (fun _ => (State.endDrain_keeps (kS hc rfl) h _)) (fun _ => h)); have h2 : Keeps c s0 x0_1 := (tenonLoaded_keeps (kS hc rfl) h1 _ _); have h3 : Keeps c s0 x0_2 := (by unfold x0_2; split; exacts [(State.loadTenon_keeps (kS hc rfl) h2 _ _), h2]); exact (State.enterMort_keeps (kS hc rfl) (State.onMort_keeps (kS hc rfl) h3 _ _) _ _))) (fun _ => h))

theorem State.bayEventDone_keeps {c : Nat} (hc : c &&& 0x8080 = 0x8080) {s0 : State} {s : State} (h : Keeps c s0 s) (a1 : ℕ) (a2 : Octets) : Keeps c s0 (State.bayEventDone s a1 a2) := by
  unfold State.bayEventDone
  exact (by extract_lets x0_0 x0_1; exact (by split; exacts [(State.cEvt_keeps (kS hc rfl) (State.cPut_keeps (kS hc rfl) h _ _ _ _) _ _), (State.cEvt_keeps (kS hc rfl) (State.cPut_keeps (kS hc rfl) h _ _ _ _) _ _), (State.cEvt_keeps (kS hc rfl) (State.onBay_keeps (kS hc rfl) h _ _) _ _), (State.cEvt_keeps (kS hc rfl) (State.onBay_keeps (kS hc rfl) h _ _) _ _), h]))

theorem State.bayHand_keeps {c : Nat} (hc : c &&& 0x8020 = 0x8020) {s0 : State} {s : State} (h : Keeps c s0 s) (a1 : ℕ) (a2 : Egress) : Keeps c s0 (State.bayHand s a1 a2) := by
  unfold State.bayHand
  exact (Keeps.ite (fun _ => h) (fun _ => (Keeps.ite (fun _ => (State.inc_keeps (kS hc rfl) h _ _)) (fun _ => (Keeps.ite (fun _ => (State.evt_keeps (kS hc rfl) (State.inc_keeps (kS hc rfl) h _ _) _ _)) (fun _ => (State.onBay_keeps (kS hc rfl) h _ _)))))))

theorem State.bayHost_keeps {c : Nat} (hc : c &&& 0x2000020 = 0x2000020) {s0 : State} {s : State} (h : Keeps c s0 s) (a1 : ℕ) (a2 : ℕ) (a3 : ℕ) (a4 : ℕ) (a5 : ℕ) (a6 : Bool) (a7 : Octets) : Keeps c s0 (State.bayHost s a1 a2 a3 a4 a5 a6 a7) := by
  unfold State.bayHost
  exact (by split; exacts [(by have h0 := Keeps.ofP (by assumption) (State.ringPut_keeps (kS hc rfl) h _ _); exact (Keeps.ite (fun _ => h0) (fun _ => (State.evt_keeps (kS hc rfl) (State.inc_keeps (kS hc rfl) h0 _ _) _ _))))])

theorem State.bayLink_keeps {c : Nat} (hc : c &&& 0x8020 = 0x8020) {s0 : State} {s : State} (h : Keeps c s0 s) (a1 : ℕ) (a2 : Bool) : Keeps c s0 (State.bayLink s a1 a2) := by
  unfold State.bayLink
  exact (by extract_lets x0_0 x0_1 x0_2; have h1 : Keeps c s0 x0_2 := (Keeps.ite (fun _ => (State.wrN_keeps (kS hc rfl) (State.inc_keeps (kS hc rfl) h _ _) _ _)) (fun _ => h)); exact (Keeps.ite (fun _ => h) (fun _ => (Keeps.ite (fun _ => (State.onBay_keeps (kS hc rfl) h _ _)) (fun _ => (State.onBay_keeps (kS hc rfl) (State.inc_keeps (kS hc rfl) h1 _ _) _ _))))))

theorem State.bayStamp_keeps {c : Nat} (hc : c &&& 0x420 = 0x420) {s0 : State} {s : State} (h : Keeps c s0 s) (a1 : ℕ) (a2 : Octets) (a3 : ℕ) : Keeps c s0 (State.bayStamp s a1 a2 a3) := by
  unfold State.bayStamp
  exact (State.stampIn_keeps (kS hc rfl) h _)

theorem State.showPause_keeps {c : Nat} (hc : c &&& 0x20 = 0x20) {s0 : State} {s : State} (h : Keeps c s0 s) (a1 : ℕ) : Keeps c s0 (State.showPause s a1) := by
  unfold State.showPause
  exact (by extract_lets x0_0 x0_1 x0_2; have h1 : Keeps c s0 x0_2 := (State.setBit_keeps (kS hc rfl) h _ _ _); exact (Keeps.foldl (fun _ _ h2 => (State.setBit_keeps (kS hc rfl) h2 _ _ _)) _ h1))

theorem State.wirePause_keeps {c : Nat} (hc : c &&& 0x8020 = 0x8020) {s0 : State} {s : State} (h : Keeps c s0 s) (a1 : ℕ) (a2 : ℕ) (a3 : ℕ) (a4 : List ℕ) : Keeps c s0 (State.wirePause s a1 a2 a3 a4) := by
  unfold State.wirePause
  exact (by extract_lets x0_0 x0_1 x0_2 x0_3; have h1 : Keeps c s0 x0_3 := (Keeps.ite (fun _ => (Keeps.ite (fun _ => (State.onBay_keeps (kS hc rfl) h _ _)) (fun _ => (State.onBay_keeps (kS hc rfl) h _ _)))) (fun _ => (State.onBay_keeps (kS hc rfl) h _ _))); exact (State.showPause_keeps (kS hc rfl) h1 _))

theorem State.macControl_keeps {c : Nat} (hc : c &&& 0x8420 = 0x8420) {s0 : State} {s : State} (h : Keeps c s0 s) (a1 : ℕ) (a2 : Octets) : Keeps c s0 (State.macControl s a1 a2) := by
  unfold State.macControl
  exact (by extract_lets x0_0 x0_1; exact (Keeps.ite (fun _ => (State.wirePause_keeps (kS hc rfl) (State.stampBayEvent_keeps (kS hc rfl) h _ _) _ _ _ _)) (fun _ => (Keeps.ite (fun _ => (State.wirePause_keeps (kS hc rfl) (State.stampBayEvent_keeps (kS hc rfl) h _ _) _ _ _ _)) (fun _ => (State.inc_keeps (kS hc rfl) h _ _))))))

theorem State.mdioStart_keeps {c : Nat} (hc : c &&& 0x20 = 0x20) {s0 : State} {s : State} (h : Keeps c s0 s) (a1 : Word) : Keeps c s0 (State.mdioStart s a1) := by
  unfold State.mdioStart
  exact (by extract_lets x0_0 x0_1 x0_2; exact (Keeps.ite (fun _ => (State.setBit_keeps (kS hc rfl) h _ _ _)) (fun _ => (State.setBit_keeps (kS hc rfl) (State.wrN_keeps (kS hc rfl) h _ _) _ _ _))))

theorem State.wakeFilter_keeps {c : Nat} (hc : c &&& 0x2000420 = 0x2000420) {s0 : State} {s : State} (h : Keeps c s0 s) (a1 : ℕ) (a2 : Octets) : Keeps c s0 (State.wakeFilter s a1 a2) := by
  unfold State.wakeFilter
  exact (by split; exacts [(State.inc_keeps (kS hc rfl) h _ _), (by extract_lets x0_0 x0_1 x0_2 x0_3; have h1 : Keeps c s0 x0_0 := (State.evt_keeps (kS hc rfl) (State.setFld_keeps (kS hc rfl) h _ _ _ _) _ _); have h2 : Keeps c s0 x0_3 := (Keeps.ite (fun _ => (State.bayHost_keeps (kS hc rfl) h1 _ _ _ _ _ _ _)) (fun _ => h1)); exact (Keeps.ite (fun _ => (State.bayStamp_keeps (kS hc rfl) h2 _ _ _)) (fun _ => h2)))])

theorem autonegWordReceived_keeps {c : Nat} (hc : c &&& 0x8020 = 0x8020) {s0 : State} {s : State} (h : Keeps c s0 s) (a0 : ℕ) (a1 : Bool) (a2 : ℕ) : Keeps c s0 (autonegWordReceived a0 a1 a2 s) := by
  unfold autonegWordReceived
  exact (Keeps.ite (fun _ => h) (fun _ => (Keeps.ite (fun _ => (State.evt_keeps (kS hc rfl) (State.setBit_keeps (kS hc rfl) (State.onBay_keeps (kS hc rfl) h _ _) _ _ _) _ _)) (fun _ => (State.setBit_keeps (kS hc rfl) (State.onBay_keeps (kS hc rfl) h _ _) _ _ _)))))

theorem bayFrameReceived_keeps {c : Nat} (hc : c &&& 0x2008422 = 0x2008422) {s0 : State} {s : State} (h : Keeps c s0 s) (a0 : ℕ) (a1 : ℕ) (a2 : Octets) (a3 : Bool) (a4 : Bool) : Keeps c s0 (bayFrameReceived a0 a1 a2 a3 a4 s) := by
  unfold bayFrameReceived
  exact (by extract_lets x0_0 x0_1 x0_2 x0_3 x0_4 x0_5; have h1 : Keeps c s0 x0_0 := (State.tick_keeps (kS hc rfl) h _); have h2 : Keeps c s0 x0_4 := (State.evt_keeps (kS hc rfl) (State.inc_keeps (kS hc rfl) h1 _ _) _ _); have h3 : Keeps c s0 x0_5 := (State.inc_keeps (kS hc rfl) h1 _ _); exact (Keeps.ite (fun _ => h1) (fun _ => (Keeps.ite (fun _ => (Keeps.ite (fun _ => (State.bayStamp_keeps (kS hc rfl) h2 _ _ _)) (fun _ => h2))) (fun _ => (Keeps.ite (fun _ => (State.macControl_keeps (kS hc rfl) h3 _ _)) (fun _ => (Keeps.ite (fun _ => h3) (fun _ => (Keeps.ite (fun _ => (State.wakeFilter_keeps (kS hc rfl) h3 _ _)) (fun _ => (State.bayStamp_keeps (kS hc rfl) h3 _ _ _))))))))))))

theorem bayFrameTransmit_keeps {c : Nat} (hc : c &&& 0x8022 = 0x8022) {s0 : State} {s : State} (h : Keeps c s0 s) (a0 : ℕ) (a1 : ℕ) : Keeps c s0 (bayFrameTransmit a0 a1 s) := by
  unfold bayFrameTransmit
  exact (by extract_lets x0_0 x0_1 x0_2; have h1 : Keeps c s0 x0_0 := (State.tick_keeps (kS hc rfl) h _); exact (Keeps.ite (fun _ => h1) (fun _ => (by split; exacts [h1, (Keeps.ite (fun _ => h1) (fun _ => (by extract_lets x2_0 x2_1 x2_2; have h3 : Keeps c s0 x2_2 := (State.onBay_keeps (kS hc rfl) h1 _ _); exact (Keeps.ite (fun _ => (State.evt_keeps (kS hc rfl) (State.inc_keeps (kS hc rfl) h3 _ _) _ _)) (fun _ => (State.inc_keeps (kS hc rfl) (State.onBay_keeps (kS hc rfl) h3 _ _) _ _))))))]))))

theorem linkChange_keeps {c : Nat} (hc : c &&& 0x8422 = 0x8422) {s0 : State} {s : State} (h : Keeps c s0 s) (a0 : ℕ) (a1 : ℕ) (a2 : Bool) (a3 : Bool) : Keeps c s0 (linkChange a0 a1 a2 a3 s) := by
  unfold linkChange
  exact (by extract_lets x0_0 x0_1 x0_2; have h1 : Keeps c s0 x0_0 := (State.tick_keeps (kS hc rfl) h _); have h2 : Keeps c s0 x0_2 := (State.setFld_keeps (kS hc rfl) (State.setBit_keeps (kS hc rfl) (State.onBay_keeps (kS hc rfl) h1 _ _) _ _ _) _ _ _ _); exact (Keeps.ite (fun _ => h1) (fun _ => (Keeps.ite (fun _ => (State.bayLink_keeps (kS hc rfl) h1 _ _)) (fun _ => (Keeps.ite (fun _ => h1) (fun _ => (State.stampBayEvent_keeps (kS hc rfl) h2 _ _))))))))

theorem mdioDone_keeps {c : Nat} (hc : c &&& 0x20 = 0x20) {s0 : State} {s : State} (h : Keeps c s0 s) (a0 : ℕ) (a1 : Bool) : Keeps c s0 (mdioDone a0 a1 s) := by
  unfold mdioDone
  exact (Keeps.ite (fun _ => h) (fun _ => (by extract_lets x0_0 x0_1 x0_2 x0_3 x0_4; have h1 : Keeps c s0 x0_3 := (State.setBit_keeps (kS hc rfl) h _ _ _); have h2 : Keeps c s0 x0_4 := (Keeps.ite (fun _ => (State.setBit_keeps (kS hc rfl) (State.setFld_keeps (kS hc rfl) h1 _ _ _ _) _ _ _)) (fun _ => h1)); exact (State.evt_keeps (kS hc rfl) h2 _ _))))

theorem pauseExpiry_keeps {c : Nat} (hc : c &&& 0x22 = 0x22) {s0 : State} {s : State} (h : Keeps c s0 s) (a0 : ℕ) (a1 : ℕ) : Keeps c s0 (pauseExpiry a0 a1 s) := by
  unfold pauseExpiry
  exact (by extract_lets x0_0; have h1 : Keeps c s0 x0_0 := (State.tick_keeps (kS hc rfl) h _); exact (Keeps.ite (fun _ => (State.showPause_keeps (kS hc rfl) h1 _)) (fun _ => h1)))

theorem State.onPlan_keeps {c : Nat} (hc : c &&& 0x40000 = 0x40000) {s0 : State} {s : State} (h : Keeps c s0 s) (a1 : ℕ) (a2 : Planner → Planner) : Keeps c s0 (State.onPlan s a1 a2) := by
  unfold State.onPlan
  exact (State.onSch_keeps (kS hc rfl) h _)

theorem State.accrue_keeps {c : Nat} (hc : c &&& 0x40000 = 0x40000) {s0 : State} {s : State} (h : Keeps c s0 s) (a1 : ℕ) (a2 : ℕ) (a3 : ℕ) (a4 : Option ℕ) : Keeps c s0 (State.accrue s a1 a2 a3 a4) := by
  unfold State.accrue
  exact (by extract_lets x0_0 x0_1; exact (Keeps.ite (fun _ => h) (fun _ => (State.onPlan_keeps (kS hc rfl) h _ _))))

theorem State.setQueue_keeps {c : Nat} (hc : c &&& 0x40000 = 0x40000) {s0 : State} {s : State} (h : Keeps c s0 s) (a1 : ℕ) (a2 : Queue) : Keeps c s0 (State.setQueue s a1 a2) := by
  unfold State.setQueue
  exact (State.onSch_keeps (kS hc rfl) h _)

theorem State.wfqHead_keeps {c : Nat} (hc : c &&& 0x40000 = 0x40000) {s0 : State} {s : State} (h : Keeps c s0 s) (a1 : ℕ) (a2 : ℕ) (a3 : ℕ) : Keeps c s0 (State.wfqHead s a1 a2 a3) := by
  unfold State.wfqHead
  exact (Keeps.ite (fun _ => (by extract_lets x0_0 x0_1; exact (State.onPlan_keeps (kS hc rfl) h _ _))) (fun _ => h))

theorem State.dropOversize_keeps {c : Nat} (hc : c &&& 0x40080 = 0x40080) {s0 : State} {s : State} (h : Keeps c s0 s) (a1 : ℕ) (a2 : ℕ) (a3 : ℕ) (a4 : ℕ) : Keeps c s0 (State.dropOversize s a1 a2 a3 a4) := by
  unfold State.dropOversize
  exact (by split; exacts [h, (by split; exacts [(Keeps.ite (fun _ => (by extract_lets x0_0 x0_1 x0_2 x0_3; have h1 : Keeps c s0 x0_2 := (State.cEvt_keeps (kS hc rfl) (State.cInc_keeps (kS hc rfl) (State.setQueue_keeps (kS hc rfl) h _ _) _ _) _ _); have h2 : Keeps c s0 x0_3 := (by unfold x0_3; split; exacts [(State.wfqHead_keeps (kS hc rfl) h1 _ _ _), h1]); exact (State.dropOversize_keeps (kS hc rfl) h2 _ _ _ _))) (fun _ => h)), h])])

theorem State.mortDiscard_keeps {c : Nat} (hc : c &&& 0x8a0 = 0x8a0) {s0 : State} {s : State} (h : Keeps c s0 s) (a1 : ℕ) (a2 : Egress) : KeepsO c s0 (State.mortDiscard s a1 a2) := by
  unfold State.mortDiscard
  exact (by extract_lets x0_0 x0_1; exact (Keeps.iteO (fun _ => (Keeps.someO (State.isoLoss_keeps (kS hc rfl) h))) (fun _ => (Keeps.iteO (fun _ => (Keeps.someO (State.cInc_keeps (kS hc rfl) h _ _))) (fun _ => (by split; exacts [(Keeps.iteO (fun _ => (Keeps.someO (State.cInc_keeps (kS hc rfl) h _ _))) (fun _ => (Keeps.iteO (fun _ => (Keeps.someO (State.inc_keeps (kS hc rfl) h _ _))) (fun _ => (Keeps.iteO (fun _ => (Keeps.someO (State.cEvt_keeps (kS hc rfl) (State.cInc_keeps (kS hc rfl) h _ _) _ _))) (fun _ => Keeps.noneO)))))), (Keeps.iteO (fun _ => (Keeps.someO (State.cEvt_keeps (kS hc rfl) (State.cInc_keeps (kS hc rfl) h _ _) _ _))) (fun _ => Keeps.noneO))]))))))

theorem State.mortCheck_keeps {c : Nat} (hc : c &&& 0x80 = 0x80) {s0 : State} {s : State} (h : Keeps c s0 s) (a1 : Egress) : KeepsE c s0 (State.mortCheck s a1) := by
  unfold State.mortCheck
  exact (by extract_lets x0_0; exact (by split; exacts [(by split; exacts [Keeps.okE, (Keeps.errE (State.cInc_keeps (kS hc rfl) h _ _))]), (Keeps.iteE (fun _ => Keeps.okE) (fun _ => (Keeps.errE (State.cInc_keeps (kS hc rfl) h _ _)))), (Keeps.iteE (fun _ => Keeps.okE) (fun _ => (Keeps.errE (State.cInc_keeps (kS hc rfl) h _ _))))]))

theorem State.tailDrop_keeps {c : Nat} (hc : c &&& 0x80 = 0x80) {s0 : State} {s : State} (h : Keeps c s0 s) (a1 : ℕ) (a2 : ℕ) : Keeps c s0 (State.tailDrop s a1 a2) := by
  unfold State.tailDrop
  exact (State.cEvt_keeps (kS hc rfl) (State.cInc_keeps (kS hc rfl) (State.cInc_keeps (kS hc rfl) h _ _) _ _) _ _)

theorem State.enqueueOk_keeps {c : Nat} (hc : c &&& 0x40080 = 0x40080) {s0 : State} {s : State} (h : Keeps c s0 s) (a1 : Egress) : Keeps c s0 (State.enqueueOk s a1) := by
  unfold State.enqueueOk
  exact (by extract_lets x0_0 x0_1 x0_2 x0_3 x0_4 x0_5; have h1 : Keeps c s0 x0_4 := (State.setQueue_keeps (kS hc rfl) h _ _); have h2 : Keeps c s0 x0_5 := (Keeps.ite (fun _ => (State.wfqHead_keeps (kS hc rfl) h1 _ _ _)) (fun _ => h1)); exact (Keeps.ite (fun _ => (State.tailDrop_keeps (kS hc rfl) h _ _)) (fun _ => (Keeps.ite (fun _ => (State.tailDrop_keeps (kS hc rfl) h _ _)) (fun _ => (Keeps.ite (fun _ => (State.tailDrop_keeps (kS hc rfl) h _ _)) (fun _ => (State.cInc_keeps (kS hc rfl) h2 _ _))))))))

theorem State.enqueue_keeps {c : Nat} (hc : c &&& 0x408a0 = 0x408a0) {s0 : State} {s : State} (h : Keeps c s0 s) (a1 : ℕ) (a2 : Egress) : Keeps c s0 (State.enqueue s a1 a2) := by
  unfold State.enqueue
  exact (Keeps.ite (fun _ => (State.isoLoss_keeps (kS hc rfl) h)) (fun _ => (Keeps.ite (fun _ => (by split; exacts [(by have h0 := Keeps.ofO (by assumption) (State.mortDiscard_keeps (kS hc rfl) h _ _); exact h0), (by split; exacts [(by have h1 := Keeps.ofE (by assumption) (State.mortCheck_keeps (kS hc rfl) h _); exact h1), (State.enqueueOk_keeps (kS hc rfl) (State.cInc_keeps (kS hc rfl) h _ _) _)])])) (fun _ => (Keeps.ite (fun _ => (by extract_lets x2_0; exact (Keeps.ite (fun _ => (State.cInc_keeps (kS hc rfl) h _ _)) (fun _ => (Keeps.ite (fun _ => (State.cInc_keeps (kS hc rfl) h _ _)) (fun _ => (State.enqueueOk_keeps (kS hc rfl) (State.cInc_keeps (kS hc rfl) h _ _) _))))))) (fun _ => h))))))

theorem State.scRefuse_keeps {c : Nat} (hc : c &&& 0x80 = 0x80) {s0 : State} {s : State} (h : Keeps c s0 s) (a1 : ℕ) : Keeps c s0 (State.scRefuse s a1) := by
  unfold State.scRefuse
  exact (State.cEvt_keeps (kS hc rfl) (State.cInc_keeps (kS hc rfl) h _ _) _ _)

theorem State.gateArm_keeps {c : Nat} (hc : c &&& 0x40080 = 0x40080) {s0 : State} {s : State} (h : Keeps c s0 s) (a1 : ℕ) (a2 : ℕ) : Keeps c s0 (State.gateArm s a1 a2) := by
  unfold State.gateArm
  exact (by extract_lets x0_0 x0_1 x0_2 x0_3 x0_4; have h1 : Keeps c s0 x0_4 := (State.onPlan_keeps (kS hc rfl) h _ _); exact (Keeps.ite (fun _ => (State.scRefuse_keeps (kS hc rfl) h _)) (fun _ => (State.cPut_keeps (kS hc rfl) h1 _ _ _ _))))

theorem State.gateSwitch_keeps {c : Nat} (hc : c &&& 0x400a0 = 0x400a0) {s0 : State} {s : State} (h : Keeps c s0 s) (a1 : ℕ) : Keeps c s0 (State.gateSwitch s a1) := by
  unfold State.gateSwitch
  exact (by extract_lets x0_0 x0_1 x0_2 x0_3 x0_4 x0_5 x0_6; have h1 : Keeps c s0 x0_4 := (State.onPlan_keeps (kS hc rfl) h _ _); have h2 : Keeps c s0 x0_5 := (State.setFld_keeps (kS hc rfl) (State.wr2_keeps (kS hc rfl) (State.setFld_keeps (kS hc rfl) h1 _ _ _ _) _ _ _) _ _ _ _); have h3 : Keeps c s0 x0_6 := (State.cPut_keeps (kS hc rfl) (State.cPut_keeps (kS hc rfl) (State.cPut_keeps (kS hc rfl) h2 _ _ _ _) _ _ _ _) _ _ _ _); exact (State.cInc_keeps (kS hc rfl) (State.cEvt_keeps (kS hc rfl) h3 _ _) _ _))

theorem State.histInc_keeps {c : Nat} (hc : c &&& 0x20 = 0x20) {s0 : State} {s : State} (h : Keeps c s0 s) (a1 : ℕ) : Keeps c s0 (State.histInc s a1) := by
  unfold State.histInc
  exact (State.wrN_keeps (kS hc rfl) h _ _)

theorem State.setLim_keeps {c : Nat} (hc : c &&& 0x20 = 0x20) {s0 : State} {s : State} (h : Keeps c s0 s) (a1 : ℕ) (a2 : ℕ) (a3 : ℤ) : Keeps c s0 (State.setLim s a1 a2 a3) := by
  unfold State.setLim
  exact (State.wrN_keeps (kS hc rfl) h _ _)

theorem State.limAccrue_keeps {c : Nat} (hc : c &&& 0x20 = 0x20) {s0 : State} {s : State} (h : Keeps c s0 s) (a1 : ℕ) : Keeps c s0 (State.limAccrue s a1) := by
  unfold State.limAccrue
  exact (Keeps.foldl (fun _ _ h0 => (Keeps.ite (fun _ => h0) (fun _ => (by extract_lets x1_0 x1_1; exact (State.setLim_keeps (kS hc rfl) h0 _ _ _))))) _ h)

theorem State.loadGates_keeps {c : Nat} (hc : c &&& 0x20 = 0x20) {s0 : State} {s : State} (h : Keeps c s0 s) (a1 : ℕ) (a2 : Bool) (a3 : Octets) : Keeps c s0 (State.loadGates s a1 a2 a3) := by
  unfold State.loadGates
  exact (by extract_lets x0_0; exact (State.loadRegs_keeps (kS hc rfl) h _ _ _))

theorem State.loadLimiters_keeps {c : Nat} (hc : c &&& 0x20 = 0x20) {s0 : State} {s : State} (h : Keeps c s0 s) (a1 : ℕ) : Keeps c s0 (State.loadLimiters s a1) := by
  unfold State.loadLimiters
  exact (Keeps.foldl (fun _ _ h0 => (by extract_lets x1_0; exact (State.wrN_keeps (kS hc rfl) (State.wrN_keeps (kS hc rfl) (State.wrN_keeps (kS hc rfl) (State.wrN_keeps (kS hc rfl) h0 _ _) _ _) _ _) _ _))) _ h)

theorem State.loadPage_keeps {c : Nat} (hc : c &&& 0x20 = 0x20) {s0 : State} {s : State} (h : Keeps c s0 s) (a1 : Octets) (a2 : ℕ) : Keeps c s0 (State.loadPage s a1 a2) := by
  unfold State.loadPage
  exact (by extract_lets x0_0; exact (Keeps.foldl (fun _ _ h1 => (State.wrN_keeps (kS hc rfl) h1 _ _)) _ h))

theorem State.meterFill_keeps {c : Nat} (hc : c &&& 0x40 = 0x40) {s0 : State} {s : State} (h : Keeps c s0 s) (a1 : ℕ) (a2 : ℕ) : Keeps c s0 (State.meterFill s a1 a2) := by
  unfold State.meterFill
  exact (by extract_lets x0_0; exact (State.memWN_keeps (kS hc rfl) (State.memWN_keeps (kS hc rfl) (State.memWN_keeps (kS hc rfl) (State.memWN_keeps (kS hc rfl) h _ _ _) _ _ _) _ _ _) _ _ _))

theorem State.offerCan_keeps {c : Nat} (hc : c &&& 0x20a0 = 0x20a0) {s0 : State} {s : State} (h : Keeps c s0 s) (a1 : ℕ) (a2 : List Egress) : KeepsP c s0 (State.offerCan s a1 a2) := by
  unfold State.offerCan
  exact (by split; exacts [(Keeps.mkP h), (by extract_lets x0_0; exact (Keeps.iteP (fun _ => (by split; exacts [(by have h1 := Keeps.ofP (by assumption) (State.offerCan_keeps (kS hc rfl) (State.cInc_keeps (kS hc rfl) h _ _) _ _); exact (Keeps.mkP h1))])) (fun _ => (by split; exacts [(by have h2 := Keeps.ofP (by assumption) (State.canPlace_keeps (kS hc rfl) h _ _); exact (by extract_lets x3_0; have h5 : Keeps c s0 x3_0 := (by unfold x3_0; clear_value x0_0; split; exacts [(by have h4 := Keeps.ofP (by assumption) (State.canPlace_keeps (kS hc rfl) h _ _); exact (State.setLim_keeps (kS hc rfl) h4 _ _ _)), h2]); exact (by split; exacts [(by have h6 := Keeps.ofP (by assumption) (State.offerCan_keeps (kS hc rfl) h5 _ _); exact (Keeps.mkP h6))])))]))))])

theorem State.pickDrr_keeps {c : Nat} (hc : c &&& 0x40000 = 0x40000) {s0 : State} {s : State} (h : Keeps c s0 s) (a1 : ℕ) (a2 : ℕ) (a3 : ℕ) (a4 : ℕ) (a5 : ℕ) : KeepsP c s0 (State.pickDrr s a1 a2 a3 a4 a5) := by
  unfold State.pickDrr
  exact (by split; exacts [(Keeps.mkP h), (by extract_lets x0_0 x0_1 x0_2 x0_3 x0_4; have h1 : Keeps c s0 x0_2 := (State.onPlan_keeps (kS hc rfl) h _ _); exact (Keeps.iteP (fun _ => (State.pickDrr_keeps (kS hc rfl) h1 _ _ _ _ _)) (fun _ => (Keeps.iteP (fun _ => (Keeps.mkP (State.onPlan_keeps (kS hc rfl) h _ _))) (fun _ => (State.pickDrr_keeps (kS hc rfl) (State.onPlan_keeps (kS hc rfl) h _ _) _ _ _ _ _))))))])

theorem State.pick_keeps {c : Nat} (hc : c &&& 0x40000 = 0x40000) {s0 : State} {s : State} (h : Keeps c s0 s) (a1 : ℕ) (a2 : ℕ) (a3 : ℕ) : KeepsP c s0 (State.pick s a1 a2 a3) := by
  unfold State.pick
  exact (by extract_lets x0_0; exact (by split; exacts [(Keeps.mkP h), (Keeps.iteP (fun _ => (Keeps.mkP h)) (fun _ => (Keeps.iteP (fun _ => (Keeps.mkP h)) (fun _ => (State.pickDrr_keeps (kS hc rfl) h _ _ _ _ _)))))]))

theorem State.takeHead_keeps {c : Nat} (hc : c &&& 0x48020 = 0x48020) {s0 : State} {s : State} (h : Keeps c s0 s) (a1 : ℕ) (a2 : ℕ) (a3 : ℕ) (a4 : ℕ) : Keeps c s0 (State.takeHead s a1 a2 a3 a4) := by
  unfold State.takeHead
  exact (by split; exacts [h, (by extract_lets x0_0 x0_1 x0_2 x0_3 x0_4 x0_5 x0_6 x0_7 x0_8 x0_9 x0_10 x0_11 x0_12 x0_13 x0_14 x0_15; have h1 : Keeps c s0 x0_5 := (State.setQueue_keeps (kS hc rfl) h _ _); have h2 : Keeps c s0 x0_7 := (State.bayHand_keeps (kS hc rfl) h1 _ _); have h3 : Keeps c s0 x0_10 := (Keeps.ite (fun _ => (State.onPlan_keeps (kS hc rfl) h2 _ _)) (fun _ => h2)); have h4 : Keeps c s0 x0_11 := (by unfold x0_11; split; exacts [(State.wfqHead_keeps (kS hc rfl) h3 _ _ _), h3]); have h5 : Keeps c s0 x0_12 := (Keeps.ite (fun _ => (State.onPlan_keeps (kS hc rfl) h4 _ _)) (fun _ => h4)); have h6 : Keeps c s0 x0_13 := (State.accrue_keeps (kS hc rfl) h5 _ _ _ _); have h7 : Keeps c s0 x0_15 := (Keeps.ite (fun _ => (State.onPlan_keeps (kS hc rfl) h6 _ _)) (fun _ => h6)); exact (State.onPlan_keeps (kS hc rfl) h7 _ _))])

theorem State.planLoop_keeps {c : Nat} (hc : c &&& 0x480a0 = 0x480a0) {s0 : State} {s : State} (h : Keeps c s0 s) (a1 : ℕ) (a2 : ℕ) (a3 : ℕ) (a4 : ℕ) (a5 : ℕ) : Keeps c s0 (State.planLoop s a1 a2 a3 a4 a5) := by
  unfold State.planLoop
  exact (by split; exacts [h, (by extract_lets x0_0 x0_1 x0_2; have h1 : Keeps c s0 x0_0 := (State.accrue_keeps (kS hc rfl) h _ _ _ _); have h2 : Keeps c s0 x0_1 := (Keeps.ite (fun _ => (State.gateSwitch_keeps (kS hc rfl) h1 _)) (fun _ => h1)); have h4 : Keeps c s0 x0_2 := (Keeps.foldl (fun _ _ h3 => (State.dropOversize_keeps (kS hc rfl) h3 _ _ _ _)) _ h2); exact (Keeps.ite (fun _ => h2) (fun _ => (by split; exacts [(by have h5 := Keeps.ofP (by assumption) (State.pick_keeps (kS hc rfl) h4 _ _ _); exact (State.planLoop_keeps (kS hc rfl) h5 _ _ _ _ _)), (by have h6 := Keeps.ofP (by assumption) (State.pick_keeps (kS hc rfl) h4 _ _ _); exact (by extract_lets x7_0; have h8 : Keeps c s0 x7_0 := (State.takeHead_keeps (kS hc rfl) h6 _ _ _ _); exact (State.planLoop_keeps (kS hc rfl) h8 _ _ _ _ _)))]))))])

theorem State.police_keeps {c : Nat} (hc : c &&& 0xc0 = 0xc0) {s0 : State} {s : State} (h : Keeps c s0 s) (a1 : ℕ) (a2 : ℕ) (a3 : ℕ) (a4 : Bool) : KeepsP c s0 (State.police s a1 a2 a3 a4) := by
  unfold State.police
  exact (by extract_lets x0_0 x0_1 x0_2 x0_3 x0_4 x0_5 x0_6 x0_7 x0_8 x0_9 x0_10 x0_11; have h1 : Keeps c s0 x0_3 := (Keeps.ite (fun _ => (State.cEvt_keeps (kS hc rfl) (State.memWN_keeps (kS hc rfl) h _ _ _) _ _)) (fun _ => h)); exact (Keeps.iteP (fun _ => (Keeps.mkP (State.memWN_keeps (kS hc rfl) h1 _ _ _))) (fun _ => (by split; exacts [(by extract_lets x2_0 x2_1 x2_2 x2_3 x2_4; have h3 : Keeps c s0 x2_2 := (Keeps.ite (fun _ => (State.cEvt_keeps (kS hc rfl) (State.memWN_keeps (kS hc rfl) h _ _ _) _ _)) (fun _ => h)); have h4 : Keeps c s0 x2_3 := (State.memWN_keeps (kS hc rfl) (State.memWN_keeps (kS hc rfl) (State.memWN_keeps (kS hc rfl) h3 _ _ _) _ _ _) _ _ _); exact (Keeps.mkP (State.memWN_keeps (kS hc rfl) h4 _ _ _)))]))))

theorem State.putBack_keeps {c : Nat} (hc : c &&& 0x40000 = 0x40000) {s0 : State} {s : State} (h : Keeps c s0 s) (a1 : ℕ) (a2 : List Egress) : Keeps c s0 (State.putBack s a1 a2) := by
  unfold State.putBack
  exact (Keeps.foldl (fun _ _ h0 => (by extract_lets x1_0; exact (State.setQueue_keeps (kS hc rfl) h0 _ _))) _ h)

theorem State.resetGroup_keeps {c : Nat} (hc : c &&& 0x40000 = 0x40000) {s0 : State} {s : State} (h : Keeps c s0 s) (a1 : ℕ) : Keeps c s0 (State.resetGroup s a1) := by
  unfold State.resetGroup
  exact (State.onPlan_keeps (kS hc rfl) h _ _)

theorem State.sample_keeps {c : Nat} (hc : c &&& 0x20 = 0x20) {s0 : State} {s : State} (h : Keeps c s0 s) (a1 : ℕ) : Keeps c s0 (State.sample s a1) := by
  unfold State.sample
  exact (Keeps.foldl (fun _ _ h0 => (by extract_lets x1_0 x1_1 x1_2 x1_3; have h2 : Keeps c s0 x1_3 := (State.histInc_keeps (kS hc rfl) (State.histInc_keeps (kS hc rfl) h0 _) _); exact (State.wrN_keeps (kS hc rfl) h2 _ _))) _ h)

theorem State.sbLoad_keeps {c : Nat} (hc : c &&& 0x40060 = 0x40060) {s0 : State} {s : State} (h : Keeps c s0 s) (a1 : Octets) : Keeps c s0 (State.sbLoad s a1) := by
  unfold State.sbLoad
  exact (by extract_lets x0_0 x0_1 x0_2 x0_3 x0_4 x0_5; have h2 : Keeps c s0 x0_0 := (Keeps.foldl (fun _ _ h1 => (State.loadPage_keeps (kS hc rfl) h1 _ _)) _ h); have h4 : Keeps c s0 x0_1 := (Keeps.foldl (fun _ _ h3 => (State.loadGates_keeps (kS hc rfl) h3 _ _ _)) _ h2); have h5 : Keeps c s0 x0_2 := (State.memClear_keeps (kS hc rfl) h4 _ _); have h7 : Keeps c s0 x0_3 := (Keeps.foldl (fun _ _ h6 => (State.meterFill_keeps (kS hc rfl) (State.memW_keeps (kS hc rfl) h6 _ _) _ _)) _ h5); have h8 : Keeps c s0 x0_4 := (State.onSch_keeps (kS hc rfl) h7 _); have h13 : Keeps c s0 x0_5 := (Keeps.foldl (fun _ _ h9 => (Keeps.ite (fun _ => (by extract_lets x10_0 x10_1 x10_2; have h11 : Keeps c s0 x10_1 := (State.onPlan_keeps (kS hc rfl) h9 _ _); have h12 : Keeps c s0 x10_2 := (State.setFld_keeps (kS hc rfl) (State.wr2_keeps (kS hc rfl) (State.setFld_keeps (kS hc rfl) h11 _ _ _ _) _ _ _) _ _ _ _); exact (State.setBit_keeps (kS hc rfl) h12 _ _ _))) (fun _ => h9))) _ h8); exact (State.wrN_keeps (kS hc rfl) h13 _ _))

theorem State.swapClass_keeps {c : Nat} (hc : c &&& 0x40080 = 0x40080) {s0 : State} {s : State} (h : Keeps c s0 s) (a1 : ℕ) (a2 : ℕ) (a3 : Bool) : Keeps c s0 (State.swapClass s a1 a2 a3) := by
  unfold State.swapClass
  exact (by extract_lets x0_0 x0_1 x0_2 x0_3 x0_4; have h1 : Keeps c s0 x0_4 := (State.setQueue_keeps (kS hc rfl) h _ _); exact (Keeps.ite (fun _ => h) (fun _ => (Keeps.ite (fun _ => (Keeps.ite (fun _ => h1) (fun _ => (State.cEvt_keeps (kS hc rfl) (State.cInc_keeps (kS hc rfl) h1 _ _) _ _)))) (fun _ => (Keeps.ite (fun _ => (Keeps.ite (fun _ => h) (fun _ => (State.onPlan_keeps (kS hc rfl) h _ _)))) (fun _ => h)))))))

theorem State.sbSwap_keeps {c : Nat} (hc : c &&& 0x400e0 = 0x400e0) {s0 : State} {s : State} (h : Keeps c s0 s) (a1 : ℕ) (a2 : Octets) : Keeps c s0 (State.sbSwap s a1 a2) := by
  unfold State.sbSwap
  exact (by extract_lets x0_0 x0_1 x0_2 x0_3 x0_4 x0_5 x0_6; have h1 : Keeps c s0 x0_0 := h; have h3 : Keeps c s0 x0_1 := (Keeps.foldl (fun _ _ h2 => (State.loadPage_keeps (kS hc rfl) h2 _ _)) _ h); have h8 : Keeps c s0 x0_2 := (Keeps.foldl (fun _ _ h4 => (by extract_lets x5_0; have h7 : Keeps c s0 x5_0 := (Keeps.foldl (fun _ _ h6 => (State.swapClass_keeps (kS hc rfl) h6 _ _ _)) _ h4); exact (Keeps.ite (fun _ => (State.resetGroup_keeps (kS hc rfl) h7 _)) (fun _ => h7)))) _ h3); have h12 : Keeps c s0 x0_3 := (Keeps.foldl (fun _ _ h9 => (Keeps.foldl (fun _ _ h10 => (by extract_lets x11_0; exact (Keeps.ite (fun _ => h10) (fun _ => (State.wrN_keeps (kS hc rfl) h10 _ _))))) _ h9)) _ h8); have h15 : Keeps c s0 x0_6 := (Keeps.foldl (fun _ _ h13 => (by extract_lets x14_0 x14_1; exact (Keeps.ite (fun _ => h13) (fun _ => (State.meterFill_keeps (kS hc rfl) (State.memW_keeps (kS hc rfl) h13 _ _) _ _))))) _ h12); exact (Keeps.foldl (fun _ _ h16 => (by extract_lets x17_0 x17_1 x17_2; have h18 : Keeps c s0 x17_1 := (State.cPut_keeps (kS hc rfl) (State.onPlan_keeps (kS hc rfl) h16 _ _) _ _ _ _); have h19 : Keeps c s0 x17_2 := (State.loadGates_keeps (kS hc rfl) h18 _ _ _); exact (Keeps.ite (fun _ => (State.gateArm_keeps (kS hc rfl) h19 _ _)) (fun _ => h19)))) _ h15))

theorem State.selectMort_keeps {c : Nat} (hc : c &&& 0x424a0 = 0x424a0) {s0 : State} {s : State} (h : Keeps c s0 s) (a1 : ℕ) : Keeps c s0 (State.selectMort s a1) := by
  unfold State.selectMort
  exact (Keeps.ite (fun _ => h) (fun _ => (by split; exacts [h, (by extract_lets x0_0; have h1 : Keeps c s0 x0_0 := (State.limAccrue_keeps (kS hc rfl) (State.canFree_keeps (kS hc rfl) h _) _); exact (by split; exacts [(by have h2 := Keeps.ofP (by assumption) (State.offerCan_keeps (kS hc rfl) h1 _ _); exact (State.canComplete_keeps (kS hc rfl) (State.putBack_keeps (kS hc rfl) h2 _ _) _))])), (by extract_lets x3_0; exact (State.putBack_keeps (kS hc rfl) (Keeps.foldl (fun _ _ h4 => (State.linPlace_keeps (kS hc rfl) h4 _ _)) _ h) _ _)), (by extract_lets x5_0; have h6 : Keeps c s0 x5_0 := (State.t1sFree_keeps (kS hc rfl) h _); exact (by split; exacts [(by have h7 := Keeps.ofP (by assumption) (State.t1sPlaceAll_keeps (kS hc rfl) h6 _ _); exact (State.putBack_keeps (kS hc rfl) h7 _ _))]))])))

theorem State.selectBay_keeps {c : Nat} (hc : c &&& 0x480a0 = 0x480a0) {s0 : State} {s : State} (h : Keeps c s0 s) (a1 : ℕ) (a2 : ℕ) : Keeps c s0 (State.selectBay s a1 a2) := by
  unfold State.selectBay
  exact (by extract_lets x0_0 x0_1 x0_2 x0_3 x0_4 x0_5 x0_6 x0_7; have h1 : Keeps c s0 x0_3 := (State.cPut_keeps (kS hc rfl) h _ _ _ _); have h2 : Keeps c s0 x0_4 := (State.onBay_keeps (kS hc rfl) h1 _ _); have h3 : Keeps c s0 x0_6 := (Keeps.ite (fun _ => (State.onPlan_keeps (kS hc rfl) h2 _ _)) (fun _ => h2)); have h4 : Keeps c s0 x0_7 := (State.planLoop_keeps (kS hc rfl) h3 _ _ _ _ _); exact (Keeps.ite (fun _ => h2) (fun _ => (Keeps.foldl (fun _ _ h5 => (by extract_lets x6_0 x6_1; exact (State.wrN_keeps (kS hc rfl) h5 _ _))) _ h4))))

theorem State.select_keeps {c : Nat} (hc : c &&& 0x4a4a0 = 0x4a4a0) {s0 : State} {s : State} (h : Keeps c s0 s) (a1 : ℕ) : Keeps c s0 (State.select s a1) := by
  unfold State.select
  exact (Keeps.ite (fun _ => h) (fun _ => (by extract_lets x0_0 x0_1; have h1 : Keeps c s0 x0_0 := (Keeps.ite (fun _ => (State.sample_keeps (kS hc rfl) h _)) (fun _ => h)); have h3 : Keeps c s0 x0_1 := (Keeps.foldl (fun _ _ h2 => (State.selectMort_keeps (kS hc rfl) h2 _)) _ h1); exact (Keeps.foldl (fun _ _ h4 => (State.selectBay_keeps (kS hc rfl) h4 _ _)) _ h3))))

theorem gateActivate_keeps {c : Nat} (hc : c &&& 0x40080 = 0x40080) {s0 : State} {s : State} (h : Keeps c s0 s) (a0 : ℕ) (a1 : ℕ) : Keeps c s0 (gateActivate a0 a1 s) := by
  unfold gateActivate
  exact (Keeps.ite (fun _ => (State.gateArm_keeps (kS hc rfl) h _ _)) (fun _ => h))

theorem gateListChange_keeps {c : Nat} (hc : c &&& 0x400a2 = 0x400a2) {s0 : State} {s : State} (h : Keeps c s0 s) (a0 : ℕ) (a1 : ℕ) : Keeps c s0 (gateListChange a0 a1 s) := by
  unfold gateListChange
  exact (by extract_lets x0_0; have h1 : Keeps c s0 x0_0 := (State.tick_keeps (kS hc rfl) h _); exact (Keeps.ite (fun _ => (State.gateSwitch_keeps (kS hc rfl) h1 _)) (fun _ => h1)))

theorem histogramClear_keeps {c : Nat} (hc : c &&& 0x20 = 0x20) {s0 : State} {s : State} (h : Keeps c s0 s) : Keeps c s0 (histogramClear s) := by
  unfold histogramClear
  exact (State.clearRegs_keeps (kS hc rfl) h _ _)

theorem meterClearCounters_keeps {c : Nat} (hc : c &&& 0xc0 = 0xc0) {s0 : State} {s : State} (h : Keeps c s0 s) (a0 : ℕ) : Keeps c s0 (meterClearCounters a0 s) := by
  unfold meterClearCounters
  exact (Keeps.ite (fun _ => (State.memW_keeps (kS hc rfl) h _ _)) (fun _ => (State.scRefuse_keeps (kS hc rfl) h _)))

theorem meterUnblock_keeps {c : Nat} (hc : c &&& 0xc0 = 0xc0) {s0 : State} {s : State} (h : Keeps c s0 s) (a0 : ℕ) : Keeps c s0 (meterUnblock a0 s) := by
  unfold meterUnblock
  exact (Keeps.ite (fun _ => (by extract_lets x0_0; exact (State.memWN_keeps (kS hc rfl) h _ _ _))) (fun _ => (State.scRefuse_keeps (kS hc rfl) h _)))

theorem meterWrite_keeps {c : Nat} (hc : c &&& 0xc0 = 0xc0) {s0 : State} {s : State} (h : Keeps c s0 s) (a0 : ℕ) (a1 : ℕ) (a2 : List ℕ) : Keeps c s0 (meterWrite a0 a1 a2 s) := by
  unfold meterWrite
  exact (by extract_lets x0_0; exact (Keeps.ite (fun _ => (State.meterFill_keeps (kS hc rfl) (State.memW_keeps (kS hc rfl) h _ _) _ _)) (fun _ => (State.scRefuse_keeps (kS hc rfl) h _))))

theorem tenonResumed_keeps {c : Nat} (hc : c &&& 0x4002422 = 0x4002422) {s0 : State} {s : State} (h : Keeps c s0 s) (a0 : ℕ) (a1 : ℕ) : Keeps c s0 (tenonResumed a0 a1 s) := by
  unfold tenonResumed
  exact (Keeps.ite (fun _ => (by extract_lets x0_0; have h1 : Keeps c s0 x0_0 := (tenonResume_keeps (kS hc rfl) h _ _); exact (Keeps.ite (fun _ => (State.loadLimiters_keeps (kS hc rfl) h1 _)) (fun _ => h1)))) (fun _ => h))

end Sys2Proof.Machine
end

