-- ==== Sys2Proof/Laws/KeepsFlow.lean ====
section
/-! SUPPORT. Laws/KeepsFlow.lean: what is kept, and which fields may change (Laws/Keeps.lean), for keys, ciphers, the gateway and the lookup tables. The number in a lemma is the set of those fields. -/
set_option Elab.async false
namespace Sys2Proof.Machine
open Sys2Proof

theorem State.endUpdate_keeps {c : Nat} (hc : c &&& 0x80020 = 0x80020) {s0 : State} {s : State} (h : Keeps c s0 s) : Keeps c s0 (State.endUpdate s) := by
  unfold State.endUpdate
  exact (State.setFld_keeps (kS hc rfl) (Keeps.set_ks (kT hc rfl) h _) _ _ _ _)

theorem State.abandon_keeps {c : Nat} (hc : c &&& 0x42c3c20 = 0x42c3c20) {s0 : State} {s : State} (h : Keeps c s0 s) : Keeps c s0 (State.abandon s) := by
  unfold State.abandon
  exact (by extract_lets x0_0 x0_1 x0_2; have h1 : Keeps c s0 x0_2 := (State.endUpdate_keeps (kS hc rfl) (Keeps.set_ks (kT hc rfl) h _)); exact (State.raiseFault_keeps (kS hc rfl) (State.evt_keeps (kS hc rfl) h1 _ _) _ _ _ _))

theorem State.wornCommit_keeps {c : Nat} (hc : c &&& 0x42c3c20 = 0x42c3c20) {s0 : State} {s : State} (h : Keeps c s0 s) (a1 : Commit) : Keeps c s0 (State.wornCommit s a1) := by
  unfold State.wornCommit
  exact (by split; exacts [(State.raiseFault_keeps (kS hc rfl) h _ _ _ _), (State.setFld_keeps (kS hc rfl) (State.endUpdate_keeps (kS hc rfl) h) _ _ _ _), h])

theorem State.beginCommits_keeps {c : Nat} (hc : c &&& 0x42c3c20 = 0x42c3c20) {s0 : State} {s : State} (h : Keeps c s0 s) (a0 : List Commit) : Keeps c s0 (State.beginCommits a0 s) := by
  unfold State.beginCommits
  exact (by split; exacts [(Keeps.set_ks (kT hc rfl) h _), (Keeps.ite (fun _ => (State.beginCommits_keeps (kS hc rfl) (State.wornCommit_keeps (kS hc rfl) h _) _)) (fun _ => (by extract_lets x0_0 x0_1 x0_2; exact (Keeps.set_ks (kT hc rfl) h _))))])

theorem State.commit_keeps {c : Nat} (hc : c &&& 0x42c3c20 = 0x42c3c20) {s0 : State} {s : State} (h : Keeps c s0 s) (a1 : Commit) : Keeps c s0 (State.commit s a1) := by
  unfold State.commit
  exact (by split; exacts [(State.beginCommits_keeps (kS hc rfl) h _), (Keeps.set_ks (kT hc rfl) h _)])

theorem State.advanceFloor_keeps {c : Nat} (hc : c &&& 0x42c3c20 = 0x42c3c20) {s0 : State} {s : State} (h : Keeps c s0 s) (a1 : ℕ) : Keeps c s0 (State.advanceFloor s a1) := by
  unfold State.advanceFloor
  exact (Keeps.ite (fun _ => (State.commit_keeps (kS hc rfl) h _)) (fun _ => h))

theorem State.putStatement_keeps {c : Nat} (hc : c &&& 0x20 = 0x20) {s0 : State} {s : State} (h : Keeps c s0 s) (a1 : Octets) : Keeps c s0 (State.putStatement s a1) := by
  unfold State.putStatement
  exact (Keeps.foldl (fun _ _ h0 => (State.wrN_keeps (kS hc rfl) h0 _ _)) _ h)

theorem State.attestationRequest_keeps {c : Nat} (hc : c &&& 0x80022 = 0x80022) {s0 : State} {s : State} (h : Keeps c s0 s) (a0 : ℕ) : Keeps c s0 (State.attestationRequest a0 s) := by
  unfold State.attestationRequest
  exact (Keeps.ite (fun _ => (by extract_lets x0_0 x0_1; have h1 : Keeps c s0 x0_0 := (State.tick_keeps (kS hc rfl) h _); exact (State.setBit_keeps (kS hc rfl) (State.setBit_keeps (kS hc rfl) (State.putStatement_keeps (kS hc rfl) (Keeps.set_ks (kT hc rfl) h1 _) _) _ _ _) _ _ _))) (fun _ => h))

theorem State.derive_keeps {c : Nat} (hc : c &&& 0x800a0 = 0x800a0) {s0 : State} {s : State} (h : Keeps c s0 s) (a1 : ℕ) (a2 : Octets) (a3 : ℕ) (a4 : Master) (a5 : World) (a6 : Bool) : KeepsP c s0 (State.derive s a1 a2 a3 a4 a5 a6) := by
  unfold State.derive
  exact (Keeps.iteP (fun _ => (by extract_lets x0_0 x0_1 x0_2 x0_3 x0_4; exact (by split; exacts [(Keeps.mkP h), (Keeps.mkP (State.inc_keeps (kS hc rfl) (Keeps.set_ks (kT hc rfl) h _) _ _))]))) (fun _ => (by extract_lets x1_0 x1_1 x1_2 x1_3; have h2 : Keeps c s0 x1_0 := (Keeps.ite (fun _ => (State.cInc_keeps (kS hc rfl) h _ _)) (fun _ => (State.inc_keeps (kS hc rfl) h _ _))); have h3 : Keeps c s0 x1_1 := (State.evt_keeps (kS hc rfl) h2 _ _); exact (Keeps.mkP (Keeps.ite (fun _ => (State.violation_keeps (kS hc rfl) h3)) (fun _ => h3))))))

theorem State.flipBank_keeps {c : Nat} (hc : c &&& 0x80020 = 0x80020) {s0 : State} {s : State} (h : Keeps c s0 s) : Keeps c s0 (State.flipBank s) := by
  unfold State.flipBank
  exact (by extract_lets x0_0 x0_1 x0_2 x0_3 x0_4 x0_5 x0_6; have h1 : Keeps c s0 x0_6 := (Keeps.set_ks (kT hc rfl) h _); exact (Keeps.ite (fun _ => (State.evt_keeps (kS hc rfl) h1 _ _)) (fun _ => h1)))

theorem State.keyCheckComplete_keeps {c : Nat} (hc : c &&& 0x80022 = 0x80022) {s0 : State} {s : State} (h : Keeps c s0 s) (a0 : ℕ) : Keeps c s0 (State.keyCheckComplete a0 s) := by
  unfold State.keyCheckComplete
  exact (Keeps.ite (fun _ => (by extract_lets x0_0; have h1 : Keeps c s0 x0_0 := (State.tick_keeps (kS hc rfl) h _); exact (by split; exacts [(by extract_lets x2_0 x2_1 x2_2 x2_3; have h3 : Keeps c s0 x2_0 := (State.setFld_keeps (kS hc rfl) (State.setFld_keeps (kS hc rfl) (State.setFld_keeps (kS hc rfl) h1 _ _ _ _) _ _ _ _) _ _ _ _); have h4 : Keeps c s0 x2_2 := (State.evt_keeps (kS hc rfl) (State.setFld_keeps (kS hc rfl) (Keeps.set_ks (kT hc rfl) h3 _) _ _ _ _) _ _); exact (Keeps.ite (fun _ => (Keeps.ite (fun _ => (State.wrN_keeps (kS hc rfl) (State.wrN_keeps (kS hc rfl) h4 _ _) _ _)) (fun _ => h4))) (fun _ => (State.inc_keeps (kS hc rfl) (State.evt_keeps (kS hc rfl) (State.setFld_keeps (kS hc rfl) h3 _ _ _ _) _ _) _ _))))]))) (fun _ => h))

theorem State.keyPacketCheck_keeps {c : Nat} (hc : c &&& 0x22 = 0x22) {s0 : State} {s : State} (h : Keeps c s0 s) (a0 : ℕ) : Keeps c s0 (State.keyPacketCheck a0 s) := by
  unfold State.keyPacketCheck
  exact (Keeps.ite (fun _ => (State.setFld_keeps (kS hc rfl) (State.tick_keeps (kS hc rfl) h _) _ _ _ _)) (fun _ => h))

theorem State.keyPacketDiscard_keeps {c : Nat} (hc : c &&& 0x80020 = 0x80020) {s0 : State} {s : State} (h : Keeps c s0 s) : Keeps c s0 (State.keyPacketDiscard s) := by
  unfold State.keyPacketDiscard
  exact (Keeps.ite (fun _ => (State.endUpdate_keeps (kS hc rfl) h)) (fun _ => h))

theorem State.startUpdate_keeps {c : Nat} (hc : c &&& 0x42c3c20 = 0x42c3c20) {s0 : State} {s : State} (h : Keeps c s0 s) (a1 : KeyUpd) (a2 : Option ℕ) : Keeps c s0 (State.startUpdate s a1 a2) := by
  unfold State.startUpdate
  exact (State.commit_keeps (kS hc rfl) (State.setFld_keeps (kS hc rfl) (Keeps.set_ks (kT hc rfl) h _) _ _ _ _) _)

theorem State.recordCmd_keeps {c : Nat} (hc : c &&& 0x400 = 0x400) {s0 : State} {s : State} (h : Keeps c s0 s) (a1 : ℕ) (a2 : CmdOutcome) : Keeps c s0 (State.recordCmd s a1 a2) := by
  unfold State.recordCmd
  exact (by extract_lets x0_0 x0_1 x0_2; exact (Keeps.set_epR (kT hc rfl) h _ (by rfl)))

theorem State.keyUpdateApply_keeps {c : Nat} (hc : c &&& 0x42c3ca0 = 0x42c3ca0) {s0 : State} {s : State} (h : Keeps c s0 s) (a0 : ℕ) (a1 : ℕ) : Keeps c s0 (State.keyUpdateApply a0 a1 s) := by
  unfold State.keyUpdateApply
  exact (by extract_lets x0_0; exact (Keeps.ite (fun _ => (by clear_value x0_0; split; exacts [(State.evt_keeps (kS hc rfl) (State.startUpdate_keeps (kS hc rfl) h _ _) _ _), (State.inc_keeps (kS hc rfl) (State.evt_keeps (kS hc rfl) h _ _) _ _)])) (fun _ => (Keeps.ite (fun _ => (by clear_value x0_0; split; exacts [(State.recordCmd_keeps (kS hc rfl) (State.cInc_keeps (kS hc rfl) (State.cEvt_keeps (kS hc rfl) h _ _) _ _) _ _), (Keeps.ite (fun _ => (State.recordCmd_keeps (kS hc rfl) (State.cInc_keeps (kS hc rfl) (State.cEvt_keeps (kS hc rfl) h _ _) _ _) _ _)) (fun _ => (State.recordCmd_keeps (kS hc rfl) (State.cEvt_keeps (kS hc rfl) (State.startUpdate_keeps (kS hc rfl) h _ _) _ _) _ _)))])) (fun _ => h)))))

theorem State.recordVector_keeps {c : Nat} (hc : c &&& 0x400 = 0x400) {s0 : State} {s : State} (h : Keeps c s0 s) (a1 : ℕ) : Keeps c s0 (State.recordVector s a1) := by
  unfold State.recordVector
  exact (by extract_lets x0_0 x0_1 x0_2 x0_3; exact (Keeps.set_epR (kT hc rfl) h _ (by rfl)))

theorem State.takeUpdate_keeps {c : Nat} (hc : c &&& 0x800a0 = 0x800a0) {s0 : State} {s : State} (h : Keeps c s0 s) (a1 : KeyUpd) (a2 : Bool) : Keeps c s0 (State.takeUpdate s a1 a2) := by
  unfold State.takeUpdate
  exact (by extract_lets x0_0; have h1 : Keeps c s0 x0_0 := (State.endUpdate_keeps (kS hc rfl) (Keeps.set_ks (kT hc rfl) h _)); exact (Keeps.ite (fun _ => (State.cEvt_keeps (kS hc rfl) (State.cInc_keeps (kS hc rfl) h1 _ _) _ _)) (fun _ => (State.evt_keeps (kS hc rfl) (State.inc_keeps (kS hc rfl) h1 _ _) _ _))))

theorem State.keyUpdateInForce_keeps {c : Nat} (hc : c &&& 0x42c3ca0 = 0x42c3ca0) {s0 : State} {s : State} (h : Keeps c s0 s) (a0 : ℕ) : Keeps c s0 (State.keyUpdateInForce a0 s) := by
  unfold State.keyUpdateInForce
  exact (by split; exacts [(Keeps.ite (fun _ => (Keeps.ite (fun _ => (State.recordVector_keeps (kS hc rfl) (State.takeUpdate_keeps (kS hc rfl) h _ _) _)) (fun _ => (Keeps.ite (fun _ => (State.recordVector_keeps (kS hc rfl) (State.abandon_keeps (kS hc rfl) h) _)) (fun _ => h))))) (fun _ => h)), h])

theorem State.lifecycleStart_keeps {c : Nat} (hc : c &&& 0x80020 = 0x80020) {s0 : State} {s : State} (h : Keeps c s0 s) : Keeps c s0 (State.lifecycleStart s) := by
  unfold State.lifecycleStart
  exact (by extract_lets x0_0 x0_1; exact (Keeps.ite (fun _ => h) (fun _ => (Keeps.ite (fun _ => (State.flipBank_keeps (kS hc rfl) (Keeps.set_ks (kT hc rfl) h _))) (fun _ => (Keeps.set_ks (kT hc rfl) h _))))))

theorem State.showLast_keeps {c : Nat} (hc : c &&& 0x20 = 0x20) {s0 : State} {s : State} (h : Keeps c s0 s) (a1 : ℕ) (a2 : ℕ) (a3 : ℕ) (a4 : ℕ) : Keeps c s0 (State.showLast s a1 a2 a3 a4) := by
  unfold State.showLast
  exact (State.wrN_keeps (kS hc rfl) (State.wrN_keeps (kS hc rfl) h _ _) _ _)

theorem State.ksStart_keeps {c : Nat} (hc : c &&& 0x80020 = 0x80020) {s0 : State} {s : State} (h : Keeps c s0 s) : Keeps c s0 (State.ksStart s) := by
  unfold State.ksStart
  exact (by extract_lets x0_0 x0_1 x0_2 x0_3 x0_4 x0_5 x0_6 x0_7 x0_8; have h1 : Keeps c s0 x0_0 := (State.lifecycleStart_keeps (kS hc rfl) h); have h2 : Keeps c s0 x0_4 := (Keeps.set_ks (kT hc rfl) h1 _); have h3 : Keeps c s0 x0_5 := (by unfold x0_5; split; exacts [(State.showLast_keeps (kS hc rfl) h2 _ _ _ _), (State.showLast_keeps (kS hc rfl) h2 _ _ _ _), (State.showLast_keeps (kS hc rfl) h2 _ _ _ _)]); have h4 : Keeps c s0 x0_8 := (Keeps.set_ks (kT hc rfl) h3 _); exact (Keeps.ite (fun _ => h4) (fun _ => (State.inc_keeps (kS hc rfl) (State.evt_keeps (kS hc rfl) h4 _ _) _ _))))

theorem State.setLast_keeps {c : Nat} (hc : c &&& 0x80020 = 0x80020) {s0 : State} {s : State} (h : Keeps c s0 s) (a1 : KeyUpd) (a2 : ℕ) : Keeps c s0 (State.setLast s a1 a2) := by
  unfold State.setLast
  exact (by extract_lets x0_0 x0_1; have h1 : Keeps c s0 x0_1 := (Keeps.set_ks (kT hc rfl) h _); exact (Keeps.ite (fun _ => (State.showLast_keeps (kS hc rfl) h1 _ _ _ _)) (fun _ => h1)))

theorem State.updateCommitted_keeps {c : Nat} (hc : c &&& 0x800a0 = 0x800a0) {s0 : State} {s : State} (h : Keeps c s0 s) (a1 : KeyUpd) (a2 : Bool) : Keeps c s0 (State.updateCommitted s a1 a2) := by
  unfold State.updateCommitted
  exact (by extract_lets x0_0; have h1 : Keeps c s0 x0_0 := (State.setLast_keeps (kS hc rfl) h _ _); exact (Keeps.ite (fun _ => (by split; exacts [(State.setFld_keeps (kS hc rfl) h1 _ _ _ _), (State.takeUpdate_keeps (kS hc rfl) h1 _ _)])) (fun _ => h1)))

theorem State.nvkmCommitComplete_keeps {c : Nat} (hc : c &&& 0x42c3ca2 = 0x42c3ca2) {s0 : State} {s : State} (h : Keeps c s0 s) (a0 : ℕ) (a1 : Bool) : Keeps c s0 (State.nvkmCommitComplete a0 a1 s) := by
  unfold State.nvkmCommitComplete
  exact (by split; exacts [h, (by extract_lets x0_0 x0_1 x0_2 x0_3; have h1 : Keeps c s0 x0_0 := (State.tick_keeps (kS hc rfl) h _); have h2 : Keeps c s0 x0_2 := (State.flipBank_keeps (kS hc rfl) (Keeps.set_ks (kT hc rfl) h1 _)); have h3 : Keeps c s0 x0_3 := (Keeps.ite (fun _ => (by split; exacts [(State.updateCommitted_keeps (kS hc rfl) h2 _ _), h2])) (fun _ => (by split; exacts [(State.abandon_keeps (kS hc rfl) h1), h1]))); exact (State.beginCommits_keeps (kS hc rfl) h3 _))])

theorem State.shelfEntryZeroise_keeps {c : Nat} (hc : c &&& 0x80000 = 0x80000) {s0 : State} {s : State} (h : Keeps c s0 s) (a0 : ℕ) : Keeps c s0 (State.shelfEntryZeroise a0 s) := by
  unfold State.shelfEntryZeroise
  exact (by split; exacts [(Keeps.ite (fun _ => (Keeps.set_ks (kT hc rfl) h _)) (fun _ => h)), h])

theorem State.statementReady_keeps {c : Nat} (hc : c &&& 0x80022 = 0x80022) {s0 : State} {s : State} (h : Keeps c s0 s) (a0 : ℕ) : Keeps c s0 (State.statementReady a0 s) := by
  unfold State.statementReady
  exact (by split; exacts [(by extract_lets x0_0 x0_1 x0_2; have h1 : Keeps c s0 x0_0 := (State.putStatement_keeps (kS hc rfl) (State.tick_keeps (kS hc rfl) h _) _); have h2 : Keeps c s0 x0_2 := (Keeps.set_ks (kT hc rfl) h1 _); exact (State.inc_keeps (kS hc rfl) (State.evt_keeps (kS hc rfl) (State.setBit_keeps (kS hc rfl) (State.setBit_keeps (kS hc rfl) h2 _ _ _) _ _ _) _ _) _ _)), h])

theorem State.tamperClear_keeps {c : Nat} (hc : c &&& 0x180020 = 0x180020) {s0 : State} {s : State} (h : Keeps c s0 s) : Keeps c s0 (State.tamperClear s) := by
  unfold State.tamperClear
  exact (by extract_lets x0_0 x0_1 x0_2 x0_3 x0_4 x0_5 x0_6; have h1 : Keeps c s0 x0_2 := (Keeps.set_ks (kT hc rfl) h _); have h2 : Keeps c s0 x0_3 := (Keeps.ite (fun _ => (State.endUpdate_keeps (kS hc rfl) h1)) (fun _ => h1)); have h3 : Keeps c s0 x0_4 := (State.inc_keeps (kS hc rfl) (State.evt_keeps (kS hc rfl) h2 _ _) _ _); have h4 : Keeps c s0 x0_6 := (State.setBit_keeps (kS hc rfl) (Keeps.set_cp (kT hc rfl) h3 _) _ _ _); exact (Keeps.ite (fun _ => (State.wrN_keeps (kS hc rfl) (State.wrN_keeps (kS hc rfl) (State.wrN_keeps (kS hc rfl) (State.wrN_keeps (kS hc rfl) h4 _ _) _ _) _ _) _ _)) (fun _ => (State.wrN_keeps (kS hc rfl) (State.wrN_keeps (kS hc rfl) (State.wrN_keeps (kS hc rfl) (State.wrN_keeps (kS hc rfl) h3 _ _) _ _) _ _) _ _))))

theorem State.tamperConfigWrite_keeps {c : Nat} (hc : c &&& 0x42c3c20 = 0x42c3c20) {s0 : State} {s : State} (h : Keeps c s0 s) (a0 : ℕ) (a1 : Word) : Keeps c s0 (State.tamperConfigWrite a0 a1 s) := by
  unfold State.tamperConfigWrite
  exact (Keeps.ite (fun _ => (State.commit_keeps (kS hc rfl) h _)) (fun _ => h))

theorem State.tamperErase_keeps {c : Nat} (hc : c &&& 0x42c3c20 = 0x42c3c20) {s0 : State} {s : State} (h : Keeps c s0 s) (a0 : ℕ) (a1 : ℕ) : Keeps c s0 (State.tamperErase a0 a1 s) := by
  unfold State.tamperErase
  exact (by extract_lets x0_0 x0_1 x0_2 x0_3; have h3 : Keeps c s0 x0_0 := (by unfold x0_0; split; exacts [(by extract_lets x1_0; have h2 : Keeps c s0 x1_0 := (State.setLast_keeps (kS hc rfl) h _ _); exact (Keeps.ite (fun _ => (State.evt_keeps (kS hc rfl) (State.endUpdate_keeps (kS hc rfl) h2) _ _)) (fun _ => h2))), h]); have h4 : Keeps c s0 x0_3 := (Keeps.set_ks (kT hc rfl) h3 _); exact (State.beginCommits_keeps (kS hc rfl) h4 _))

theorem State.cpRecord_keeps {c : Nat} (hc : c &&& 0x2000020 = 0x2000020) {s0 : State} {s : State} (h : Keeps c s0 s) (a1 : ℕ) (a2 : ℕ) (a3 : ℕ) (a4 : ℕ) (a5 : ℕ) : Keeps c s0 (State.cpRecord s a1 a2 a3 a4 a5) := by
  unfold State.cpRecord
  exact (Keeps.ite (fun _ => h) (fun _ => (by extract_lets x0_0; exact (by split; exacts [(by have h1 := Keeps.ofP (by assumption) (State.ringPut_keeps (kS hc rfl) h _ _); exact (Keeps.ite (fun _ => h1) (fun _ => (State.evt_keeps (kS hc rfl) (State.inc_keeps (kS hc rfl) h1 _ _) _ _))))]))))

theorem State.cpReject_keeps {c : Nat} (hc : c &&& 0x80 = 0x80) {s0 : State} {s : State} (h : Keeps c s0 s) : Keeps c s0 (State.cpReject s) := by
  unfold State.cpReject
  exact (State.cEvt_keeps (kS hc rfl) (State.cInc_keeps (kS hc rfl) h _ _) _ _)

theorem State.freshnessWrite_keeps {c : Nat} (hc : c &&& 0xc0 = 0xc0) {s0 : State} {s : State} (h : Keeps c s0 s) (a0 : ℕ) (a1 : List ℕ) : Keeps c s0 (State.freshnessWrite a0 a1 s) := by
  unfold State.freshnessWrite
  exact (by extract_lets x0_0; exact (Keeps.ite (fun _ => h) (fun _ => (Keeps.ite (fun _ => (State.cpReject_keeps (kS hc rfl) h)) (fun _ => (State.memW_keeps (kS hc rfl) h _ _))))))

theorem State.hostJob_keeps {c : Nat} (hc : c &&& 0x1800a2 = 0x1800a2) {s0 : State} {s : State} (h : Keeps c s0 s) (a0 : ℕ) (a1 : Master) (a2 : World) : Keeps c s0 (State.hostJob a0 a1 a2 s) := by
  unfold State.hostJob
  exact (Keeps.ite (fun _ => (by extract_lets x0_0 x0_1 x0_2 x0_3; have h1 : Keeps c s0 x0_0 := (State.tick_keeps (kS hc rfl) h _); exact (by split; exacts [(by have h2 := Keeps.ofP (by assumption) (State.derive_keeps (kS hc rfl) h1 _ _ _ _ _ _); exact (by extract_lets x3_0 x3_1; have h4 : Keeps c s0 x3_1 := (Keeps.set_cp (kT hc rfl) h2 _); exact (State.setBit_keeps (kS hc rfl) (State.setBit_keeps (kS hc rfl) (State.setBit_keeps (kS hc rfl) h4 _ _ _) _ _ _) _ _ _)))]))) (fun _ => h))

theorem State.hostJobDone_keeps {c : Nat} (hc : c &&& 0x100022 = 0x100022) {s0 : State} {s : State} (h : Keeps c s0 s) (a0 : ℕ) : Keeps c s0 (State.hostJobDone a0 s) := by
  unfold State.hostJobDone
  exact (by split; exacts [h, (by extract_lets x0_0 x0_1 x0_2; have h1 : Keeps c s0 x0_0 := (State.tick_keeps (kS hc rfl) h _); have h2 : Keeps c s0 x0_2 := (State.evt_keeps (kS hc rfl) (State.setBit_keeps (kS hc rfl) (Keeps.set_cp (kT hc rfl) h1 _) _ _ _) _ _); exact (by split; exacts [(State.setBit_keeps (kS hc rfl) h2 _ _ _), (by extract_lets x3_0; exact (State.setBit_keeps (kS hc rfl) (Keeps.foldl (fun _ _ h4 => (State.wrN_keeps (kS hc rfl) h4 _ _)) _ h2) _ _ _))]))])

theorem State.kbHead_keeps {c : Nat} (hc : c &&& 0x100020 = 0x100020) {s0 : State} {s : State} (h : Keeps c s0 s) (a1 : Octets) : Keeps c s0 (State.kbHead s a1) := by
  unfold State.kbHead
  exact (by extract_lets x0_0 x0_1 x0_2; have h1 : Keeps c s0 x0_1 := (Keeps.set_cp (kT hc rfl) h _); have h2 : Keeps c s0 x0_2 := (State.wrN_keeps (kS hc rfl) h1 _ _); exact (Keeps.foldl (fun _ _ h3 => (State.wrN_keeps (kS hc rfl) h3 _ _)) _ h2))

theorem State.kbLoad_keeps {c : Nat} (hc : c &&& 0x100060 = 0x100060) {s0 : State} {s : State} (h : Keeps c s0 s) (a1 : Octets) : Keeps c s0 (State.kbLoad s a1) := by
  unfold State.kbLoad
  exact (by extract_lets x0_0 x0_1 x0_2; have h1 : Keeps c s0 x0_0 := (State.kbHead_keeps (kS hc rfl) (State.memClear_keeps (kS hc rfl) (State.memClear_keeps (kS hc rfl) h _ _) _ _) _); have h3 : Keeps c s0 x0_1 := (Keeps.foldl (fun _ _ h2 => (State.memW_keeps (kS hc rfl) h2 _ _)) _ h1); have h5 : Keeps c s0 x0_2 := (Keeps.foldl (fun _ _ h4 => (State.memW_keeps (kS hc rfl) h4 _ _)) _ h3); exact (State.wrN_keeps (kS hc rfl) h5 _ _))

theorem State.kbSwap_keeps {c : Nat} (hc : c &&& 0x100060 = 0x100060) {s0 : State} {s : State} (h : Keeps c s0 s) (a1 : Octets) : Keeps c s0 (State.kbSwap s a1) := by
  unfold State.kbSwap
  exact (by extract_lets x0_0 x0_1 x0_2 x0_3 x0_4 x0_5; have h1 : Keeps c s0 x0_2 := (State.kbHead_keeps (kS hc rfl) h _); have h2 : Keeps c s0 x0_3 := (State.memClear_keeps (kS hc rfl) h1 _ _); have h4 : Keeps c s0 x0_4 := (Keeps.foldl (fun _ _ h3 => (State.memW_keeps (kS hc rfl) h3 _ _)) _ h2); have h6 : Keeps c s0 x0_5 := (Keeps.foldl (fun _ _ h5 => (State.memW_keeps (kS hc rfl) h5 _ _)) _ h4); exact (State.setBit_keeps (kS hc rfl) h6 _ _ _))

theorem State.profKey_keeps {c : Nat} (hc : c &&& 0x800a0 = 0x800a0) {s0 : State} {s : State} (h : Keeps c s0 s) (a1 : Octets) : KeepsP c s0 (State.profKey s a1) := by
  unfold State.profKey
  exact (State.derive_keeps (kS hc rfl) h _ _ _ _ _ _)

theorem State.sequence_keeps {c : Nat} (hc : c &&& 0x100000 = 0x100000) {s0 : State} {s : State} (h : Keeps c s0 s) (a1 : Recipe) (a2 : RunIn) : Keeps c s0 (State.sequence s a1 a2) := by
  unfold State.sequence
  exact (by extract_lets x0_0 x0_1; exact (Keeps.set_cp (kT hc rfl) h _))

theorem State.useBlocks_keeps {c : Nat} (hc : c &&& 0x100000 = 0x100000) {s0 : State} {s : State} (h : Keeps c s0 s) (a1 : ℕ) : Keeps c s0 (State.useBlocks s a1) := by
  unfold State.useBlocks
  exact (Keeps.set_cp (kT hc rfl) h _)

theorem State.putFresh_keeps {c : Nat} (hc : c &&& 0x40 = 0x40) {s0 : State} {s : State} (h : Keeps c s0 s) (a1 : ℕ) (a2 : ℕ) : Keeps c s0 (State.putFresh s a1 a2) := by
  unfold State.putFresh
  exact (State.memWN_keeps (kS hc rfl) h _ _ _)

theorem State.macsecGo_keeps {c : Nat} (hc : c &&& 0x1800e0 = 0x1800e0) {s0 : State} {s : State} (h : Keeps c s0 s) (a1 : ℕ) (a2 : Octets) (a3 : Bool) : KeepsPPP c s0 (State.macsecGo s a1 a2 a3) := by
  unfold State.macsecGo
  exact (by extract_lets x0_0 x0_1 x0_2; exact (Keeps.itePPP (fun _ => (Keeps.mkPPP (Keeps.mkPP (Keeps.mkP h)))) (fun _ => (by split; exacts [(Keeps.mkPPP (Keeps.mkPP (Keeps.mkP h))), (by extract_lets x1_0 x1_1 x1_2 x1_3; exact (Keeps.itePPP (fun _ => (Keeps.mkPPP (Keeps.mkPP (Keeps.mkP h)))) (fun _ => (Keeps.itePPP (fun _ => (Keeps.mkPPP (Keeps.mkPP (Keeps.mkP h)))) (fun _ => (Keeps.itePPP (fun _ => (Keeps.mkPPP (Keeps.mkPP (Keeps.mkP h)))) (fun _ => (by split; exacts [(by have h2 := Keeps.ofP (by assumption) (State.profKey_keeps (kS hc rfl) h _); exact (Keeps.mkPPP (Keeps.mkPP (Keeps.mkP h2)))), (by have h3 := Keeps.ofP (by assumption) (State.profKey_keeps (kS hc rfl) h _); exact (by extract_lets x4_0 x4_1 x4_2; have h5 : Keeps c s0 x4_1 := (State.sequence_keeps (kS hc rfl) (State.useBlocks_keeps (kS hc rfl) h3 _) _ _); exact (Keeps.itePPP (fun _ => (Keeps.mkPPP (Keeps.mkPP (Keeps.mkP (State.putFresh_keeps (kS hc rfl) h5 _ _))))) (fun _ => (Keeps.mkPPP (Keeps.mkPP (Keeps.mkP h5)))))))]))))))))]))))

theorem State.runFails_keeps {c : Nat} (hc : c &&& 0x20000a0 = 0x20000a0) {s0 : State} {s : State} (h : Keeps c s0 s) (a1 : ℕ) (a2 : ℕ) (a3 : ℕ) (a4 : ℕ) : Keeps c s0 (State.runFails s a1 a2 a3 a4) := by
  unfold State.runFails
  exact (by extract_lets x0_0 x0_1; have h1 : Keeps c s0 x0_0 := (State.cEvt_keeps (kS hc rfl) (State.cInc_keeps (kS hc rfl) h _ _) _ _); have h2 : Keeps c s0 x0_1 := (Keeps.ite (fun _ => (State.cNotice_keeps (kS hc rfl) (State.cEvt_keeps (kS hc rfl) h1 _ _) _ _ _)) (fun _ => h1)); exact (State.cpRecord_keeps (kS hc rfl) h2 _ _ _ _ _))

theorem State.macsecProtect_keeps {c : Nat} (hc : c &&& 0x21800e0 = 0x21800e0) {s0 : State} {s : State} (h : Keeps c s0 s) (a1 : ℕ) (a2 : ℕ) (a3 : Octets) : KeepsP c s0 (State.macsecProtect s a1 a2 a3) := by
  unfold State.macsecProtect
  exact (by extract_lets x0_0 x0_1 x0_2 x0_3 x0_4 x0_5 x0_6 x0_7 x0_8; exact (Keeps.iteP (fun _ => (Keeps.mkP (State.runFails_keeps (kS hc rfl) h _ _ _ _))) (fun _ => (Keeps.iteP (fun _ => (Keeps.mkP (State.runFails_keeps (kS hc rfl) h _ _ _ _))) (fun _ => (Keeps.iteP (fun _ => (Keeps.mkP (State.runFails_keeps (kS hc rfl) h _ _ _ _))) (fun _ => (Keeps.iteP (fun _ => (Keeps.mkP (State.runFails_keeps (kS hc rfl) h _ _ _ _))) (fun _ => (Keeps.iteP (fun _ => (Keeps.mkP (State.runFails_keeps (kS hc rfl) (State.cEvt_keeps (kS hc rfl) h _ _) _ _ _ _))) (fun _ => (by split; exacts [(by have h1 := Keeps.ofP (by assumption) (State.profKey_keeps (kS hc rfl) h _); exact (Keeps.mkP (State.runFails_keeps (kS hc rfl) h1 _ _ _ _))), (by have h2 := Keeps.ofP (by assumption) (State.profKey_keeps (kS hc rfl) h _); exact (by extract_lets x3_0 x3_1 x3_2 x3_3 x3_4 x3_5 x3_6; have h4 : Keeps c s0 x3_6 := (State.sequence_keeps (kS hc rfl) (State.useBlocks_keeps (kS hc rfl) h2 _) _ _); exact (Keeps.mkP (State.cInc_keeps (kS hc rfl) (State.putFresh_keeps (kS hc rfl) h4 _ _) _ _))))]))))))))))))

theorem State.macsecVerify_keeps {c : Nat} (hc : c &&& 0x21800e0 = 0x21800e0) {s0 : State} {s : State} (h : Keeps c s0 s) (a1 : ℕ) (a2 : Octets) (a3 : Bool) : KeepsP c s0 (State.macsecVerify s a1 a2 a3) := by
  unfold State.macsecVerify
  exact (by split; exacts [(by have h0 := Keeps.ofPPP (by assumption) (State.macsecGo_keeps (kS hc rfl) h _ _ _); exact (Keeps.mkP (State.cInc_keeps (kS hc rfl) h0 _ _))), (by have h1 := Keeps.ofPPP (by assumption) (State.macsecGo_keeps (kS hc rfl) h _ _ _); exact (Keeps.mkP (State.runFails_keeps (kS hc rfl) h1 _ _ _ _)))])

theorem State.profileWrite_keeps {c : Nat} (hc : c &&& 0xc0 = 0xc0) {s0 : State} {s : State} (h : Keeps c s0 s) (a0 : ℕ) (a1 : List ℕ) : Keeps c s0 (State.profileWrite a0 a1 s) := by
  unfold State.profileWrite
  exact (by extract_lets x0_0; exact (Keeps.ite (fun _ => h) (fun _ => (Keeps.ite (fun _ => (State.cpReject_keeps (kS hc rfl) h)) (fun _ => (State.memW_keeps (kS hc rfl) h _ _))))))

theorem State.protectGo_keeps {c : Nat} (hc : c &&& 0x1800e0 = 0x1800e0) {s0 : State} {s : State} (h : Keeps c s0 s) (a1 : ℕ) (a2 : Octets) (a3 : ℕ) (a4 : CopyForm) : KeepsPP c s0 (State.protectGo s a1 a2 a3 a4) := by
  unfold State.protectGo
  exact (by extract_lets x0_0 x0_1 x0_2 x0_3 x0_4; exact (Keeps.itePP (fun _ => (Keeps.mkPP (Keeps.mkP h))) (fun _ => (Keeps.itePP (fun _ => (Keeps.mkPP (Keeps.mkP h))) (fun _ => (Keeps.itePP (fun _ => (Keeps.mkPP (Keeps.mkP h))) (fun _ => (Keeps.itePP (fun _ => (Keeps.mkPP (Keeps.mkP h))) (fun _ => (Keeps.itePP (fun _ => (Keeps.mkPP (Keeps.mkP (State.cEvt_keeps (kS hc rfl) h _ _)))) (fun _ => (by split; exacts [(by have h1 := Keeps.ofP (by assumption) (State.profKey_keeps (kS hc rfl) h _); exact (Keeps.mkPP (Keeps.mkP h1))), (by have h2 := Keeps.ofP (by assumption) (State.profKey_keeps (kS hc rfl) h _); exact (by extract_lets x3_0 x3_1; have h4 : Keeps c s0 x3_0 := (State.putFresh_keeps (kS hc rfl) (State.sequence_keeps (kS hc rfl) (State.useBlocks_keeps (kS hc rfl) h2 _) _ _) _ _); exact (Keeps.mkPP (Keeps.mkP h4))))]))))))))))))

theorem State.protectPdu_keeps {c : Nat} (hc : c &&& 0x21800e0 = 0x21800e0) {s0 : State} {s : State} (h : Keeps c s0 s) (a1 : ℕ) (a2 : Octets) (a3 : ℕ) (a4 : CopyForm) (a5 : ℕ) : KeepsP c s0 (State.protectPdu s a1 a2 a3 a4 a5) := by
  unfold State.protectPdu
  exact (by split; exacts [(by have h0 := Keeps.ofPP (by assumption) (State.protectGo_keeps (kS hc rfl) h _ _ _ _); exact (Keeps.mkP (State.cInc_keeps (kS hc rfl) h0 _ _))), (by have h1 := Keeps.ofPP (by assumption) (State.protectGo_keeps (kS hc rfl) h _ _ _ _); exact (Keeps.mkP (State.runFails_keeps (kS hc rfl) h1 _ _ _ _)))])

theorem State.streamSent_keeps {c : Nat} (hc : c &&& 0x2100020 = 0x2100020) {s0 : State} {s : State} (h : Keeps c s0 s) (a1 : ℕ) (a2 : Egress) : Keeps c s0 (State.streamSent s a1 a2) := by
  unfold State.streamSent
  exact (by split; exacts [(Keeps.ite (fun _ => (by extract_lets x0_0 x0_1 x0_2 x0_3 x0_4; have h1 : Keeps c s0 x0_2 := (Keeps.set_cp (kT hc rfl) h _); have h2 : Keeps c s0 x0_3 := (State.cpRecord_keeps (kS hc rfl) (State.evt_keeps (kS hc rfl) (State.inc_keeps (kS hc rfl) h1 _ _) _ _) _ _ _ _ _); exact (Keeps.set_cp (kT hc rfl) h2 _))) (fun _ => h)), h])

theorem State.verifyGo_keeps {c : Nat} (hc : c &&& 0x1800e0 = 0x1800e0) {s0 : State} {s : State} (h : Keeps c s0 s) (a1 : ℕ) (a2 : Octets) : KeepsP c s0 (State.verifyGo s a1 a2) := by
  unfold State.verifyGo
  exact (by extract_lets x0_0 x0_1 x0_2 x0_3 x0_4 x0_5 x0_6 x0_7; exact (Keeps.iteP (fun _ => (Keeps.mkP h)) (fun _ => (Keeps.iteP (fun _ => (Keeps.mkP h)) (fun _ => (Keeps.iteP (fun _ => (Keeps.mkP h)) (fun _ => (Keeps.iteP (fun _ => (Keeps.mkP h)) (fun _ => (Keeps.iteP (fun _ => (Keeps.mkP h)) (fun _ => (by split; exacts [(by have h1 := Keeps.ofP (by assumption) (State.profKey_keeps (kS hc rfl) h _); exact (Keeps.mkP h1)), (by have h2 := Keeps.ofP (by assumption) (State.profKey_keeps (kS hc rfl) h _); exact (by extract_lets x3_0; have h4 : Keeps c s0 x3_0 := (State.sequence_keeps (kS hc rfl) (State.useBlocks_keeps (kS hc rfl) h2 _) _ _); exact (Keeps.iteP (fun _ => (Keeps.mkP h4)) (fun _ => (Keeps.mkP (State.putFresh_keeps (kS hc rfl) h4 _ _))))))]))))))))))))

theorem State.verifyPdu_keeps {c : Nat} (hc : c &&& 0x21800e0 = 0x21800e0) {s0 : State} {s : State} (h : Keeps c s0 s) (a1 : ℕ) (a2 : Octets) : KeepsP c s0 (State.verifyPdu s a1 a2) := by
  unfold State.verifyPdu
  exact (by split; exacts [(by have h0 := Keeps.ofP (by assumption) (State.verifyGo_keeps (kS hc rfl) h _ _); exact (Keeps.mkP (State.cInc_keeps (kS hc rfl) h0 _ _))), (by have h1 := Keeps.ofP (by assumption) (State.verifyGo_keeps (kS hc rfl) h _ _); exact (Keeps.mkP (State.runFails_keeps (kS hc rfl) h1 _ _ _ _)))])

theorem State.setPduFlag_keeps {c : Nat} (hc : c &&& 0x40 = 0x40) {s0 : State} {s : State} (h : Keeps c s0 s) (a1 : ℕ) (a2 : ℕ) (a3 : Bool) : Keeps c s0 (State.setPduFlag s a1 a2 a3) := by
  unfold State.setPduFlag
  exact (State.memWN_keeps (kS hc rfl) h _ _ _)

theorem State.writeCell_keeps {c : Nat} (hc : c &&& 0x40 = 0x40) {s0 : State} {s : State} (h : Keeps c s0 s) (a1 : ℕ) (a2 : Octets) (a3 : ℕ) (a4 : Bool) : Keeps c s0 (State.writeCell s a1 a2 a3 a4) := by
  unfold State.writeCell
  exact (by extract_lets x0_0 x0_1 x0_2 x0_3 x0_4 x0_5 x0_6 x0_7 x0_8; have h1 : Keeps c s0 x0_8 := (State.memW_keeps (kS hc rfl) h _ _); exact (Keeps.ite (fun _ => (State.setPduFlag_keeps (kS hc rfl) h1 _ _ _)) (fun _ => h1)))

theorem State.applyCell_keeps {c : Nat} (hc : c &&& 0xc0 = 0xc0) {s0 : State} {s : State} (h : Keeps c s0 s) (a1 : Octets) (a2 : Octets) (a3 : ℕ) : KeepsP c s0 (State.applyCell s a1 a2 a3) := by
  unfold State.applyCell
  exact (by extract_lets x0_0 x0_1; exact (Keeps.iteP (fun _ => (Keeps.mkP h)) (fun _ => (by split; exacts [(Keeps.mkP (State.cEvt_keeps (kS hc rfl) (State.cInc_keeps (kS hc rfl) h _ _) _ _)), (by split; exacts [(by extract_lets x1_0; have h2 : Keeps c s0 x1_0 := (Keeps.ite (fun _ => (State.cEvt_keeps (kS hc rfl) (State.cInc_keeps (kS hc rfl) h _ _) _ _)) (fun _ => h)); exact (Keeps.mkP (State.writeCell_keeps (kS hc rfl) h2 _ _ _ _)))])]))))

theorem State.gwRecord_keeps {c : Nat} (hc : c &&& 0x2000020 = 0x2000020) {s0 : State} {s : State} (h : Keeps c s0 s) (a1 : ℕ) (a2 : ℕ) (a3 : ℕ) : Keeps c s0 (State.gwRecord s a1 a2 a3) := by
  unfold State.gwRecord
  exact (Keeps.ite (fun _ => h) (fun _ => (by extract_lets x0_0 x0_1 x0_2; exact (by split; exacts [(by have h1 := Keeps.ofP (by assumption) (State.ringPut_keeps (kS hc rfl) h _ _); exact (Keeps.ite (fun _ => h1) (fun _ => (State.evt_keeps (kS hc rfl) (State.inc_keeps (kS hc rfl) h1 _ _) _ _))))]))))

theorem State.copyFrame_keeps {c : Nat} (hc : c &&& 0x40 = 0x40) {s0 : State} {s : State} (h : Keeps c s0 s) (a1 : ℕ) (a2 : ℕ) (a3 : Octets) : Keeps c s0 (State.copyFrame s a1 a2 a3) := by
  unfold State.copyFrame
  exact (by extract_lets x0_0 x0_1 x0_2 x0_3 x0_4 x0_5 x0_6 x0_7 x0_8; have h1 : Keeps c s0 x0_8 := (State.memW_keeps (kS hc rfl) h _ _); exact (Keeps.ite (fun _ => (State.setPduFlag_keeps (kS hc rfl) h1 _ _ _)) (fun _ => h1)))

theorem State.sendPdu_keeps {c : Nat} (hc : c &&& 0x21c08e0 = 0x21c08e0) {s0 : State} {s : State} (h : Keeps c s0 s) (a1 : ℕ) (a2 : ℕ) : Keeps c s0 (State.sendPdu s a1 a2) := by
  unfold State.sendPdu
  exact (by extract_lets x0_0 x0_1 x0_2 x0_3; exact (by split; exacts [(by have h1 := Keeps.ofP (by assumption) (Keeps.iteP (fun _ => (State.protectPdu_keeps (kS hc rfl) h _ _ _ _ _)) (fun _ => (Keeps.mkP h))); exact (by extract_lets x2_0 x2_1; have h5 : Keeps c s0 x2_0 := (by unfold x2_0; split; exacts [(by have h3 := Keeps.ofP (by assumption) (Keeps.iteP (fun _ => (State.protectPdu_keeps (kS hc rfl) h _ _ _ _ _)) (fun _ => (Keeps.mkP h))); exact (State.enqueue_keeps (kS hc rfl) (State.cInc_keeps (kS hc rfl) h3 _ _) _ _)), (by have h4 := Keeps.ofP (by assumption) (Keeps.iteP (fun _ => (State.protectPdu_keeps (kS hc rfl) h _ _ _ _ _)) (fun _ => (Keeps.mkP h))); exact h4)]); have h6 : Keeps c s0 x2_1 := (Keeps.ite (fun _ => (State.memW_keeps (kS hc rfl) h5 _ _)) (fun _ => h5)); exact (State.setPduFlag_keeps (kS hc rfl) (State.setPduFlag_keeps (kS hc rfl) (State.setPduFlag_keeps (kS hc rfl) (State.memWN_keeps (kS hc rfl) h6 _ _ _) _ _ _) _ _ _) _ _ _)))]))

theorem State.applyRoute_keeps {c : Nat} (hc : c &&& 0x21c08e0 = 0x21c08e0) {s0 : State} {s : State} (h : Keeps c s0 s) (a1 : ℕ) (a2 : ℕ) (a3 : Octets) (a4 : ℕ) (a5 : ℕ) (a6 : ℕ) (a7 : ℕ) : Keeps c s0 (State.applyRoute s a1 a2 a3 a4 a5 a6 a7) := by
  unfold State.applyRoute
  exact (by extract_lets x0_0 x0_1 x0_2; exact (Keeps.ite (fun _ => (State.cEvt_keeps (kS hc rfl) (State.cInc_keeps (kS hc rfl) h _ _) _ _)) (fun _ => (Keeps.ite (fun _ => (State.cInc_keeps (kS hc rfl) h _ _)) (fun _ => (Keeps.ite (fun _ => (State.gwRecord_keeps (kS hc rfl) (State.cNotice_keeps (kS hc rfl) (State.cEvt_keeps (kS hc rfl) (State.cInc_keeps (kS hc rfl) h _ _) _ _) _ _ _) _ _ _)) (fun _ => (by split; exacts [(by have h1 := Keeps.ofP (by assumption) (Keeps.iteP (fun _ => (State.verifyPdu_keeps (kS hc rfl) h _ _)) (fun _ => (Keeps.mkP h))); exact (Keeps.ite (fun _ => (State.gwRecord_keeps (kS hc rfl) (State.cEvt_keeps (kS hc rfl) (State.cInc_keeps (kS hc rfl) h1 _ _) _ _) _ _ _)) (fun _ => (by extract_lets x2_0; have h4 : Keeps c s0 x2_0 := (Keeps.foldl (fun _ _ h3 => (Keeps.ite (fun _ => h3) (fun _ => (State.cEvt_keeps (kS hc rfl) (State.cInc_keeps (kS hc rfl) h3 _ _) _ _)))) _ h1); exact (by split; exacts [(by have h5 := Keeps.ofP (by assumption) (Keeps.iteP (fun _ => (Keeps.foldlP (fun _ _ h6 => (Keeps.iteP (fun _ => (Keeps.mkP (State.copyFrame_keeps (kS hc rfl) (Keeps.snd h6) _ _ _))) (fun _ => h6))) _ (Keeps.mkP h4))) (fun _ => (Keeps.foldlP (fun _ _ h7 => (by split; exacts [(by have h8 := Keeps.ofP (by assumption) (State.applyCell_keeps (kS hc rfl) (Keeps.snd h7) _ _ _); exact (Keeps.mkP h8))])) _ (Keeps.mkP h4)))); exact (by extract_lets x9_0 x9_1 x9_2 x9_3; have h11 : Keeps c s0 x9_0 := (Keeps.foldl (fun _ _ h10 => (Keeps.ite (fun _ => (State.sendPdu_keeps (kS hc rfl) h10 _ _)) (fun _ => h10))) _ h5); have h12 : Keeps c s0 x9_2 := (State.memW_keeps (kS hc rfl) h11 _ _); have h13 : Keeps c s0 x9_3 := (Keeps.ite (fun _ => (State.gwRecord_keeps (kS hc rfl) (State.cEvt_keeps (kS hc rfl) h12 _ _) _ _ _)) (fun _ => h12)); exact (State.cInc_keeps (kS hc rfl) h13 _ _)))])))))]))))))))

theorem State.clearPdu_keeps {c : Nat} (hc : c &&& 0x40 = 0x40) {s0 : State} {s : State} (h : Keeps c s0 s) (a1 : ℕ) : Keeps c s0 (State.clearPdu s a1) := by
  unfold State.clearPdu
  exact (State.setPduFlag_keeps (kS hc rfl) (State.setPduFlag_keeps (kS hc rfl) (State.setPduFlag_keeps (kS hc rfl) h _ _ _) _ _ _) _ _ _)

theorem State.closeRec_keeps {c : Nat} (hc : c &&& 0x20000 = 0x20000) {s0 : State} {s : State} (h : Keeps c s0 s) (a1 : ℕ) (a2 : ℕ) : Keeps c s0 (State.closeRec s a1 a2) := by
  unfold State.closeRec
  exact (Keeps.set_tab (kT hc rfl) h _)

theorem State.enterTimeout_keeps {c : Nat} (hc : c &&& 0x20000e0 = 0x20000e0) {s0 : State} {s : State} (h : Keeps c s0 s) (a1 : ℕ) (a2 : ℕ) : Keeps c s0 (State.enterTimeout s a1 a2) := by
  unfold State.enterTimeout
  exact (by extract_lets x0_0 x0_1 x0_2; have h1 : Keeps c s0 x0_1 := (State.memWN_keeps (kS hc rfl) h _ _ _); have h4 : Keeps c s0 x0_2 := (Keeps.ite (fun _ => h1) (fun _ => (Keeps.foldl (fun _ _ h2 => (by extract_lets x3_0 x3_1 x3_2 x3_3; exact (Keeps.ite (fun _ => h2) (fun _ => (by split; exacts [(State.writeCell_keeps (kS hc rfl) h2 _ _ _ _), (State.writeCell_keeps (kS hc rfl) h2 _ _ _ _), h2]))))) _ h1))); exact (State.gwRecord_keeps (kS hc rfl) (State.cEvt_keeps (kS hc rfl) (State.cInc_keeps (kS hc rfl) h4 _ _) _ _) _ _ _))

theorem State.doAct_keeps {c : Nat} (hc : c &&& 0x21d08e0 = 0x21d08e0) {s0 : State} {s : State} (h : Keeps c s0 s) (a0 : ℕ) (a2 : TimerAct) : Keeps c s0 (State.doAct a0 s a2) := by
  unfold State.doAct
  exact (by extract_lets x0_0 x0_1; have h1 : Keeps c s0 x0_1 := (State.onGw_keeps (kS hc rfl) h _); exact (Keeps.ite (fun _ => h) (fun _ => (Keeps.ite (fun _ => (State.onGw_keeps (kS hc rfl) (State.cInc_keeps (kS hc rfl) h _ _) _)) (fun _ => (by split; exacts [(State.enterTimeout_keeps (kS hc rfl) h1 _ _), (State.sendPdu_keeps (kS hc rfl) h1 _ _)]))))))

theorem State.freshPdu_keeps {c : Nat} (hc : c &&& 0x40 = 0x40) {s0 : State} {s : State} (h : Keeps c s0 s) (a1 : ℕ) : Keeps c s0 (State.freshPdu s a1) := by
  unfold State.freshPdu
  exact (by extract_lets x0_0 x0_1; have h1 : Keeps c s0 x0_1 := (State.memW_keeps (kS hc rfl) h _ _); exact (State.setPduFlag_keeps (kS hc rfl) (State.setPduFlag_keeps (kS hc rfl) (State.setPduFlag_keeps (kS hc rfl) h1 _ _ _) _ _ _) _ _ _))

theorem State.gwHead_keeps {c : Nat} (hc : c &&& 0x20 = 0x20) {s0 : State} {s : State} (h : Keeps c s0 s) (a1 : Octets) : Keeps c s0 (State.gwHead s a1) := by
  unfold State.gwHead
  exact (State.loadRegs_keeps (kS hc rfl) (State.wrN_keeps (kS hc rfl) h _ _) _ _ _)

theorem State.gwHold_keeps {c : Nat} (hc : c &&& 0x60 = 0x60) {s0 : State} {s : State} (h : Keeps c s0 s) : Keeps c s0 (State.gwHold s) := by
  unfold State.gwHold
  exact (by extract_lets x0_0; exact (State.setBit_keeps (kS hc rfl) (Keeps.foldl (fun _ _ h1 => (State.freshPdu_keeps (kS hc rfl) h1 _)) _ h) _ _ _))

theorem State.putEntry_keeps {c : Nat} (hc : c &&& 0x40 = 0x40) {s0 : State} {s : State} (h : Keeps c s0 s) (a1 : ℕ) (a2 : ℕ) (a3 : ℕ) (a4 : Octets) : Keeps c s0 (State.putEntry s a1 a2 a3 a4) := by
  unfold State.putEntry
  exact (State.memW_keeps (kS hc rfl) h _ _)

theorem State.putDesc_keeps {c : Nat} (hc : c &&& 0x40 = 0x40) {s0 : State} {s : State} (h : Keeps c s0 s) (a1 : ℕ) (a2 : Octets) : Keeps c s0 (State.putDesc s a1 a2) := by
  unfold State.putDesc
  exact (by extract_lets x0_0; exact (State.memW_keeps (kS hc rfl) h _ _))

theorem State.gwLoad_keeps {c : Nat} (hc : c &&& 0x10060 = 0x10060) {s0 : State} {s : State} (h : Keeps c s0 s) (a1 : Octets) : Keeps c s0 (State.gwLoad s a1) := by
  unfold State.gwLoad
  exact (by extract_lets x0_0 x0_1 x0_2 x0_3 x0_4 x0_5; have h1 : Keeps c s0 x0_0 := (State.gwHead_keeps (kS hc rfl) (State.memClear_keeps (kS hc rfl) h _ _) _); have h3 : Keeps c s0 x0_1 := (Keeps.foldl (fun _ _ h2 => (State.putEntry_keeps (kS hc rfl) h2 _ _ _ _)) _ h1); have h5 : Keeps c s0 x0_2 := (Keeps.foldl (fun _ _ h4 => (State.putEntry_keeps (kS hc rfl) h4 _ _ _ _)) _ h3); have h7 : Keeps c s0 x0_3 := (Keeps.foldl (fun _ _ h6 => (State.putDesc_keeps (kS hc rfl) h6 _ _)) _ h5); have h9 : Keeps c s0 x0_4 := (Keeps.foldl (fun _ _ h8 => (State.memW_keeps (kS hc rfl) h8 _ _)) _ h7); have h11 : Keeps c s0 x0_5 := (Keeps.foldl (fun _ _ h10 => (State.freshPdu_keeps (kS hc rfl) h10 _)) _ h9); exact (State.wrN_keeps (kS hc rfl) (State.onGw_keeps (kS hc rfl) h11 _) _ _))

theorem State.purgeRegion_keeps {c : Nat} (hc : c &&& 0x40 = 0x40) {s0 : State} {s : State} (h : Keeps c s0 s) (a1 : ℕ) (a2 : ℕ) (a3 : ℕ) (a4 : ℕ) (a5 : ℕ) : Keeps c s0 (State.purgeRegion s a1 a2 a3 a4 a5) := by
  unfold State.purgeRegion
  exact (Keeps.foldl (fun _ _ h0 => (by extract_lets x1_0 x1_1; exact (Keeps.ite (fun _ => (State.memW_keeps (kS hc rfl) h0 _ _)) (fun _ => (Keeps.ite (fun _ => (State.memW_keeps (kS hc rfl) h0 _ _)) (fun _ => h0)))))) _ h)

theorem State.gwPurge_keeps {c : Nat} (hc : c &&& 0x40 = 0x40) {s0 : State} {s : State} (h : Keeps c s0 s) (a1 : Bool) : Keeps c s0 (State.gwPurge s a1) := by
  unfold State.gwPurge
  exact (by extract_lets x0_0 x0_1; have h1 : Keeps c s0 x0_1 := (State.purgeRegion_keeps (kS hc rfl) (State.purgeRegion_keeps (kS hc rfl) h _ _ _ _ _) _ _ _ _ _); exact (Keeps.ite (fun _ => h1) (fun _ => (Keeps.foldl (fun _ _ h2 => (by extract_lets x3_0; exact (State.memW_keeps (kS hc rfl) h2 _ _))) _ h1))))

theorem State.gwRefuse_keeps {c : Nat} (hc : c &&& 0x80 = 0x80) {s0 : State} {s : State} (h : Keeps c s0 s) : Keeps c s0 (State.gwRefuse s) := by
  unfold State.gwRefuse
  exact (State.cEvt_keeps (kS hc rfl) (State.cInc_keeps (kS hc rfl) h _ _) _ _)

theorem State.stageRegion_keeps {c : Nat} (hc : c &&& 0x40 = 0x40) {s0 : State} {s : State} (h : Keeps c s0 s) (a1 : ℕ) (a2 : ℕ) (a3 : ℕ) (a4 : ℕ) (a5 : ℕ) (a6 : ℕ) (a7 : ℕ → Octets → Bool) (a8 : ℕ → Octets → Bool) (a9 : Octets) : KeepsO c s0 (State.stageRegion s a1 a2 a3 a4 a5 a6 a7 a8 a9) := by
  unfold State.stageRegion
  exact (by extract_lets x0_0; exact (Keeps.foldlO (fun _ _ h1 => (Keeps.bindO h1 (fun _ h2 => (by extract_lets x3_0 x3_1 x3_2 x3_3; exact (Keeps.iteO (fun _ => (Keeps.someO h2)) (fun _ => (Keeps.iteO (fun _ => (Keeps.someO (State.memW_keeps (kS hc rfl) h2 _ _))) (fun _ => (Keeps.iteO (fun _ => (Keeps.someO (State.memW_keeps (kS hc rfl) h2 _ _))) (fun _ => (Keeps.iteO (fun _ => (Keeps.someO h2)) (fun _ => (Keeps.iteO (fun _ => (Keeps.someO (State.memW_keeps (kS hc rfl) h2 _ _))) (fun _ => (Keeps.iteO (fun _ => (Keeps.someO (State.memW_keeps (kS hc rfl) h2 _ _))) (fun _ => Keeps.noneO)))))))))))))))) _ (Keeps.someO h)))

theorem State.gwStage_keeps {c : Nat} (hc : c &&& 0x40 = 0x40) {s0 : State} {s : State} (h : Keeps c s0 s) (a1 : Octets) : KeepsO c s0 (State.gwStage s a1) := by
  unfold State.gwStage
  exact (by extract_lets x0_0 x0_1 x0_2; exact (Keeps.bindO (State.stageRegion_keeps (kS hc rfl) h _ _ _ _ _ _ _ _ _) (fun _ h1 => (Keeps.mapO (State.stageRegion_keeps (kS hc rfl) h1 _ _ _ _ _ _ _ _ _) (fun _ h2 => (Keeps.foldl (fun _ _ h3 => (State.memW_keeps (kS hc rfl) h3 _ _)) _ h2))))))

theorem State.gwSwitch_keeps {c : Nat} (hc : c &&& 0x60 = 0x60) {s0 : State} {s : State} (h : Keeps c s0 s) (a1 : ℕ) (a2 : Octets) : Keeps c s0 (State.gwSwitch s a1 a2) := by
  unfold State.gwSwitch
  exact (by extract_lets x0_0 x0_1 x0_2 x0_3 x0_4 x0_5 x0_6; have h1 : Keeps c s0 x0_0 := (State.gwHead_keeps (kS hc rfl) h _); have h3 : Keeps c s0 x0_4 := (Keeps.foldl (fun _ _ h2 => (State.memW_keeps (kS hc rfl) h2 _ _)) _ h1); have h5 : Keeps c s0 x0_5 := (Keeps.foldl (fun _ _ h4 => (State.memW_keeps (kS hc rfl) h4 _ _)) _ h3); have h10 : Keeps c s0 x0_6 := (Keeps.foldl (fun _ _ h6 => (by extract_lets x7_0 x7_1 x7_2; have h8 : Keeps c s0 x7_0 := (State.setPduFlag_keeps (kS hc rfl) h6 _ _ _); have h9 : Keeps c s0 x7_2 := (Keeps.ite (fun _ => h8) (fun _ => (Keeps.ite (fun _ => (State.freshPdu_keeps (kS hc rfl) h8 _)) (fun _ => (State.clearPdu_keeps (kS hc rfl) h8 _))))); exact (State.memW_keeps (kS hc rfl) h9 _ _))) _ h5); exact (Keeps.foldl (fun _ _ h11 => (Keeps.ite (fun _ => (State.memW_keeps (kS hc rfl) h11 _ _)) (fun _ => h11))) _ h10))

theorem State.runActs_keeps {c : Nat} (hc : c &&& 0x21d08e0 = 0x21d08e0) {s0 : State} {s : State} (h : Keeps c s0 s) (a0 : ℕ) (a1 : Option TimerAct) (a2 : List TimerAct) : Keeps c s0 (State.runActs a0 a1 a2 s) := by
  unfold State.runActs
  exact (by split; exacts [(State.onGw_keeps (kS hc rfl) h _), (by extract_lets x0_0; have h1 : Keeps c s0 x0_0 := (State.doAct_keeps (kS hc rfl) h _ _); exact (Keeps.ite (fun _ => (State.onGw_keeps (kS hc rfl) h1 _)) (fun _ => (State.runActs_keeps (kS hc rfl) h1 _ _ _))))])

theorem State.toTimeouts_keeps {c : Nat} (hc : c &&& 0x21d08e0 = 0x21d08e0) {s0 : State} {s : State} (h : Keeps c s0 s) (a0 : ℕ) : Keeps c s0 (State.toTimeouts a0 s) := by
  unfold State.toTimeouts
  exact (Keeps.ite (fun _ => (by extract_lets x0_0 x0_1; have h1 : Keeps c s0 x0_0 := (State.runActs_keeps (kS hc rfl) h _ _ _); exact (State.onGw_keeps (kS hc rfl) h1 _))) (fun _ => h))

theorem State.toSends_keeps {c : Nat} (hc : c &&& 0x21d08e0 = 0x21d08e0) {s0 : State} {s : State} (h : Keeps c s0 s) (a0 : ℕ) : Keeps c s0 (State.toSends a0 s) := by
  unfold State.toSends
  exact (by extract_lets x0_0 x0_1 x0_2; have h1 : Keeps c s0 x0_0 := (State.toTimeouts_keeps (kS hc rfl) h _); have h2 : Keeps c s0 x0_1 := (State.runActs_keeps (kS hc rfl) h1 _ _ _); exact (Keeps.ite (fun _ => (State.onGw_keeps (kS hc rfl) h2 _)) (fun _ => h1)))

theorem State.gwTimer_keeps {c : Nat} (hc : c &&& 0x21d08e0 = 0x21d08e0) {s0 : State} {s : State} (h : Keeps c s0 s) (a1 : ℕ) : Keeps c s0 (State.gwTimer s a1) := by
  unfold State.gwTimer
  exact (by extract_lets x0_0 x0_1 x0_2 x0_3; have h1 : Keeps c s0 x0_0 := (State.toSends_keeps (kS hc rfl) h _); have h2 : Keeps c s0 x0_1 := (State.onGw_keeps (kS hc rfl) (State.runActs_keeps (kS hc rfl) h1 _ _ _) _); have h3 : Keeps c s0 x0_3 := (State.cPut_keeps (kS hc rfl) h2 _ _ _ _); exact (Keeps.ite (fun _ => (Keeps.ite (fun _ => (State.cEvt_keeps (kS hc rfl) h3 _ _)) (fun _ => h3))) (fun _ => h1)))

theorem State.gwTimerBegin_keeps {c : Nat} (hc : c &&& 0x10000 = 0x10000) {s0 : State} {s : State} (h : Keeps c s0 s) : Keeps c s0 (State.gwTimerBegin s) := by
  unfold State.gwTimerBegin
  exact (Keeps.ite (fun _ => (State.onGw_keeps (kS hc rfl) h _)) (fun _ => (State.onGw_keeps (kS hc rfl) h _)))

theorem State.pduCycleDue_keeps {c : Nat} (hc : c &&& 0x21d08e0 = 0x21d08e0) {s0 : State} {s : State} (h : Keeps c s0 s) (a0 : ℕ) (a1 : ℕ) : Keeps c s0 (State.pduCycleDue a0 a1 s) := by
  unfold State.pduCycleDue
  exact (Keeps.ite (fun _ => (by extract_lets x0_0; have h1 : Keeps c s0 x0_0 := (State.toSends_keeps (kS hc rfl) h _); exact (Keeps.ite (fun _ => (State.runActs_keeps (kS hc rfl) h1 _ _ _)) (fun _ => h)))) (fun _ => h))

theorem State.restartRoute_keeps {c : Nat} (hc : c &&& 0x20000e0 = 0x20000e0) {s0 : State} {s : State} (h : Keeps c s0 s) (a1 : ℕ) (a2 : ℕ) : Keeps c s0 (State.restartRoute s a1 a2) := by
  unfold State.restartRoute
  exact (by extract_lets x0_0 x0_1; have h1 : Keeps c s0 x0_1 := (State.memW_keeps (kS hc rfl) h _ _); exact (Keeps.ite (fun _ => (State.gwRecord_keeps (kS hc rfl) (State.cEvt_keeps (kS hc rfl) h1 _ _) _ _ _)) (fun _ => h1)))

theorem State.rxTimeout_keeps {c : Nat} (hc : c &&& 0x21d08e0 = 0x21d08e0) {s0 : State} {s : State} (h : Keeps c s0 s) (a0 : ℕ) (a1 : ℕ) : Keeps c s0 (State.rxTimeout a0 a1 s) := by
  unfold State.rxTimeout
  exact (Keeps.ite (fun _ => (by extract_lets x0_0; have h1 : Keeps c s0 x0_0 := (State.toTimeouts_keeps (kS hc rfl) h _); exact (Keeps.ite (fun _ => (State.runActs_keeps (kS hc rfl) h1 _ _ _)) (fun _ => h)))) (fun _ => h))

theorem cellWrite_keeps {c : Nat} (hc : c &&& 0x200c0 = 0x200c0) {s0 : State} {s : State} (h : Keeps c s0 s) (a0 : ℕ) (a1 : List ℕ) : Keeps c s0 (cellWrite a0 a1 s) := by
  unfold cellWrite
  exact (by extract_lets x0_0 x0_1 x0_2; have h1 : Keeps c s0 x0_2 := (State.putEntry_keeps (kS hc rfl) h _ _ _ _); exact (Keeps.ite (fun _ => (State.closeRec_keeps (kS hc rfl) h1 _ _)) (fun _ => (State.gwRefuse_keeps (kS hc rfl) h))))

theorem hostSend_keeps {c : Nat} (hc : c &&& 0xc0 = 0xc0) {s0 : State} {s : State} (h : Keeps c s0 s) (a0 : ℕ) : Keeps c s0 (hostSend a0 s) := by
  unfold hostSend
  exact (Keeps.ite (fun _ => (State.setPduFlag_keeps (kS hc rfl) h _ _ _)) (fun _ => (State.gwRefuse_keeps (kS hc rfl) h)))

theorem imageWrite_keeps {c : Nat} (hc : c &&& 0xc0 = 0xc0) {s0 : State} {s : State} (h : Keeps c s0 s) (a0 : ℕ) (a1 : ℕ) (a2 : ℕ) (a3 : Bool) (a4 : List ℕ) : Keeps c s0 (imageWrite a0 a1 a2 a3 a4 s) := by
  unfold imageWrite
  exact (by extract_lets x0_0 x0_1 x0_2 x0_3; have h1 : Keeps c s0 x0_3 := (State.memW_keeps (kS hc rfl) h _ _); exact (Keeps.ite (fun _ => (Keeps.ite (fun _ => (State.setPduFlag_keeps (kS hc rfl) h1 _ _ _)) (fun _ => h1))) (fun _ => (State.gwRefuse_keeps (kS hc rfl) h))))

theorem pduDescriptorWrite_keeps {c : Nat} (hc : c &&& 0x200c0 = 0x200c0) {s0 : State} {s : State} (h : Keeps c s0 s) (a0 : ℕ) (a1 : ℕ) (a2 : List ℕ) : Keeps c s0 (pduDescriptorWrite a0 a1 a2 s) := by
  unfold pduDescriptorWrite
  exact (by extract_lets x0_0 x0_1 x0_2 x0_3 x0_4; have h1 : Keeps c s0 x0_3 := (State.closeRec_keeps (kS hc rfl) (State.putDesc_keeps (kS hc rfl) h _ _) _ _); exact (Keeps.ite (fun _ => (Keeps.ite (fun _ => h1) (fun _ => (Keeps.ite (fun _ => (State.freshPdu_keeps (kS hc rfl) h1 _)) (fun _ => h1))))) (fun _ => (State.gwRefuse_keeps (kS hc rfl) h))))

theorem restartTimeout_keeps {c : Nat} (hc : c &&& 0x20000e0 = 0x20000e0) {s0 : State} {s : State} (h : Keeps c s0 s) (a0 : ℕ) (a1 : ℕ) : Keeps c s0 (restartTimeout a0 a1 s) := by
  unfold restartTimeout
  exact (Keeps.ite (fun _ => (State.restartRoute_keeps (kS hc rfl) h _ _)) (fun _ => (State.gwRefuse_keeps (kS hc rfl) h)))

theorem routeWrite_keeps {c : Nat} (hc : c &&& 0x20200e0 = 0x20200e0) {s0 : State} {s : State} (h : Keeps c s0 s) (a0 : ℕ) (a1 : ℕ) (a2 : List ℕ) : Keeps c s0 (routeWrite a0 a1 a2 s) := by
  unfold routeWrite
  exact (by extract_lets x0_0; exact (Keeps.ite (fun _ => (State.restartRoute_keeps (kS hc rfl) (State.closeRec_keeps (kS hc rfl) (State.putEntry_keeps (kS hc rfl) h _ _ _ _) _ _) _ _)) (fun _ => (State.gwRefuse_keeps (kS hc rfl) h))))

theorem State.putHent_keeps {c : Nat} (hc : c &&& 0x40 = 0x40) {s0 : State} {s : State} (h : Keeps c s0 s) (a1 : ℕ) (a2 : ℕ) (a3 : Octets) : Keeps c s0 (State.putHent s a1 a2 a3) := by
  unfold State.putHent
  exact (State.memW_keeps (kS hc rfl) h _ _)

theorem State.carryOut_keeps {c : Nat} (hc : c &&& 0x40 = 0x40) {s0 : State} {s : State} (h : Keeps c s0 s) (a1 : ℕ) (a2 : List ℕ) (a3 : ℕ) (a4 : Octets) : Keeps c s0 (State.carryOut s a1 a2 a3 a4) := by
  unfold State.carryOut
  exact (by split; exacts [(by have h0 := Keeps.ofP (by assumption) (Keeps.foldlP (fun _ _ h1 => (Keeps.mkP (State.putHent_keeps (kS hc rfl) (State.putHent_keeps (kS hc rfl) (Keeps.snd h1) _ _ _) _ _ _))) _ (Keeps.mkP h)); exact (State.putHent_keeps (kS hc rfl) h0 _ _ _))])

theorem State.kick_keeps {c : Nat} (hc : c &&& 0x40 = 0x40) {s0 : State} {s : State} (h : Keeps c s0 s) (a1 : ℕ) (a2 : Octets) (a3 : ℕ) (a4 : ℕ) (a5 : List ℕ) (a6 : ℕ) : Keeps c s0 (State.kick s a1 a2 a3 a4 a5 a6) := by
  unfold State.kick
  exact (by split; exacts [(by split; exacts [(State.carryOut_keeps (kS hc rfl) h _ _ _ _), h]), (by split; exacts [(by split; exacts [(State.carryOut_keeps (kS hc rfl) h _ _ _ _), h]), (by split; exacts [(by extract_lets x0_0 x0_1; exact (by split; exacts [(State.carryOut_keeps (kS hc rfl) h _ _ _ _), (State.kick_keeps (kS hc rfl) h _ _ _ _ _ _)]))])])])

theorem State.hinsert_keeps {c : Nat} (hc : c &&& 0xc0 = 0xc0) {s0 : State} {s : State} (h : Keeps c s0 s) (a1 : ℕ) (a2 : Octets) : KeepsO c s0 (State.hinsert s a1 a2) := by
  unfold State.hinsert
  exact (by split; exacts [(Keeps.someO (State.putHent_keeps (kS hc rfl) h _ _ _)), (by split; exacts [Keeps.noneO, (by split; exacts [(by extract_lets x0_0; have h1 : Keeps c s0 x0_0 := (by unfold x0_0; split; exacts [(State.putHent_keeps (kS hc rfl) h _ _ _), (State.putHent_keeps (kS hc rfl) h _ _ _), (State.kick_keeps (kS hc rfl) h _ _ _ _ _ _)]); exact (Keeps.someO (Keeps.ite (fun _ => (State.cEvt_keeps (kS hc rfl) h1 _ _)) (fun _ => h1))))])])])

theorem State.learnCost_keeps {c : Nat} (hc : c &&& 0x20000 = 0x20000) {s0 : State} {s : State} (h : Keeps c s0 s) : Keeps c s0 (State.learnCost s) := by
  unfold State.learnCost
  exact (Keeps.set_tab (kT hc rfl) h _)

theorem State.learnDrop_keeps {c : Nat} (hc : c &&& 0x80 = 0x80) {s0 : State} {s : State} (h : Keeps c s0 s) : Keeps c s0 (State.learnDrop s) := by
  unfold State.learnDrop
  exact (State.cEvt_keeps (kS hc rfl) (State.cInc_keeps (kS hc rfl) h _ _) _ _)

theorem State.learnMove_keeps {c : Nat} (hc : c &&& 0xc0 = 0xc0) {s0 : State} {s : State} (h : Keeps c s0 s) (a1 : ℕ) (a2 : ℕ) (a3 : ℕ) : Keeps c s0 (State.learnMove s a1 a2 a3) := by
  unfold State.learnMove
  exact (by extract_lets x0_0 x0_1 x0_2 x0_3 x0_4 x0_5; have h1 : Keeps c s0 x0_5 := (State.cInc_keeps (kS hc rfl) (State.putHent_keeps (kS hc rfl) h _ _ _) _ _); exact (Keeps.ite (fun _ => (State.cNotice_keeps (kS hc rfl) (State.cEvt_keeps (kS hc rfl) h1 _ _) _ _ _)) (fun _ => h1)))

theorem State.learnAct_keeps {c : Nat} (hc : c &&& 0x200c0 = 0x200c0) {s0 : State} {s : ℕ × State} (h : KeepsP c s0 s) (a0 : ℕ) (a2 : Octets × ℕ × ℕ) : KeepsP c s0 (State.learnAct a0 s a2) := by
  unfold State.learnAct
  exact (by split; exacts [(by split; exacts [(by split; exacts [(Keeps.iteP (fun _ => (by split; exacts [(by have h0 := Keeps.ofO (by assumption) (State.hinsert_keeps (kS hc rfl) h _ _); exact (Keeps.mkP (State.cInc_keeps (kS hc rfl) (State.learnCost_keeps (kS hc rfl) h0) _ _))), (Keeps.mkP (State.learnDrop_keeps (kS hc rfl) h))])) (fun _ => (Keeps.mkP (State.learnDrop_keeps (kS hc rfl) h)))), (by extract_lets x1_0; exact (Keeps.iteP (fun _ => (Keeps.mkP (Keeps.ite (fun _ => (State.cInc_keeps (kS hc rfl) h _ _)) (fun _ => h)))) (fun _ => (Keeps.iteP (fun _ => (Keeps.mkP (State.putHent_keeps (kS hc rfl) h _ _ _))) (fun _ => (Keeps.iteP (fun _ => (Keeps.mkP (State.cInc_keeps (kS hc rfl) h _ _))) (fun _ => (Keeps.iteP (fun _ => (Keeps.mkP (State.learnCost_keeps (kS hc rfl) (State.learnMove_keeps (kS hc rfl) h _ _ _)))) (fun _ => (Keeps.mkP (State.learnDrop_keeps (kS hc rfl) h)))))))))))])])])

theorem State.learnStep_keeps {c : Nat} (hc : c &&& 0x200c0 = 0x200c0) {s0 : State} {s : State} (h : Keeps c s0 s) (a1 : ℕ) : Keeps c s0 (State.learnStep s a1) := by
  unfold State.learnStep
  exact (Keeps.ite (fun _ => (by extract_lets x0_0 x0_1 x0_2; have h1 : Keeps c s0 x0_2 := (Keeps.set_tab (kT hc rfl) h _); exact (Keeps.snd (Keeps.foldlP (fun _ _ h2 => (State.learnAct_keeps (kS hc rfl) h2 _ _)) _ (Keeps.mkP h1))))) (fun _ => h))

theorem State.beforeVisits_keeps {c : Nat} (hc : c &&& 0x21f08e0 = 0x21f08e0) {s0 : State} {s : State} (h : Keeps c s0 s) (a1 : ℕ) : Keeps c s0 (State.beforeVisits s a1) := by
  unfold State.beforeVisits
  exact (State.learnStep_keeps (kS hc rfl) (State.gwTimer_keeps (kS hc rfl) h _) _)

theorem State.hdelete_keeps {c : Nat} (hc : c &&& 0x40 = 0x40) {s0 : State} {s : State} (h : Keeps c s0 s) (a1 : ℕ) (a2 : ℕ) : Keeps c s0 (State.hdelete s a1 a2) := by
  unfold State.hdelete
  exact (by extract_lets x0_0; have h1 : Keeps c s0 x0_0 := (State.putHent_keeps (kS hc rfl) h _ _ _); exact (Keeps.ite (fun _ => h1) (fun _ => (by split; exacts [(State.putHent_keeps (kS hc rfl) (State.putHent_keeps (kS hc rfl) h1 _ _ _) _ _ _), h1]))))

theorem State.ageVisit_keeps {c : Nat} (hc : c &&& 0x200c0 = 0x200c0) {s0 : State} {s : State} (h : Keeps c s0 s) : KeepsP c s0 (State.ageVisit s) := by
  unfold State.ageVisit
  exact (by extract_lets x0_0 x0_1 x0_2 x0_3 x0_4 x0_5 x0_6 x0_7 x0_8 x0_9 x0_10; have h1 : Keeps c s0 x0_2 := (Keeps.set_tab (kT hc rfl) h _); exact (Keeps.iteP (fun _ => (Keeps.mkP h1)) (fun _ => (Keeps.iteP (fun _ => (Keeps.mkP (State.cInc_keeps (kS hc rfl) (State.hdelete_keeps (kS hc rfl) h1 _ _) _ _))) (fun _ => (Keeps.iteP (fun _ => (Keeps.mkP (State.cInc_keeps (kS hc rfl) (State.hdelete_keeps (kS hc rfl) h1 _ _) _ _))) (fun _ => (Keeps.mkP (State.putHent_keeps (kS hc rfl) h1 _ _ _)))))))))

theorem State.ageVisits_keeps {c : Nat} (hc : c &&& 0x200c0 = 0x200c0) {s0 : State} {s : State} (h : Keeps c s0 s) (a0 : Option Visit) (a1 : ℕ) : KeepsP c s0 (State.ageVisits a0 a1 s) := by
  unfold State.ageVisits
  exact (by split; exacts [(Keeps.mkP h), (Keeps.iteP (fun _ => (Keeps.mkP h)) (fun _ => (by split; exacts [(by have h0 := Keeps.ofP (by assumption) (State.ageVisit_keeps (kS hc rfl) h); exact (Keeps.iteP (fun _ => (Keeps.mkP h0)) (fun _ => (State.ageVisits_keeps (kS hc rfl) h0 _ _))))])))])

theorem State.visitRow_keeps {c : Nat} (hc : c &&& 0x21f08e0 = 0x21f08e0) {s0 : State} {s : State} (h : Keeps c s0 s) (a0 : Visit) : Keeps c s0 (State.visitRow a0 s) := by
  unfold State.visitRow
  exact (by split; exacts [(by extract_lets x0_0; have h1 : Keeps c s0 x0_0 := (State.beforeVisits_keeps (kS hc rfl) h _); exact (by split; exacts [(by have h2 := Keeps.ofP (by assumption) (State.ageVisits_keeps (kS hc rfl) h1 _ _); exact (Keeps.ite (fun _ => h2) (fun _ => h)))])), h])

theorem State.ageOut_keeps {c : Nat} (hc : c &&& 0x21f08e0 = 0x21f08e0) {s0 : State} {s : State} (h : Keeps c s0 s) (a0 : ℕ) : Keeps c s0 (State.ageOut a0 s) := by
  unfold State.ageOut
  exact (State.visitRow_keeps (kS hc rfl) h _)

theorem State.clearStandby_keeps {c : Nat} (hc : c &&& 0x40 = 0x40) {s0 : State} {s : State} (h : Keeps c s0 s) (a1 : ℕ) : Keeps c s0 (State.clearStandby s a1) := by
  unfold State.clearStandby
  exact (by extract_lets x0_0; exact (State.memClear_keeps (kS hc rfl) h _ _))

theorem State.closeKey_keeps {c : Nat} (hc : c &&& 0x20000 = 0x20000) {s0 : State} {s : State} (h : Keeps c s0 s) (a1 : ℕ) (a2 : Octets) : Keeps c s0 (State.closeKey s a1 a2) := by
  unfold State.closeKey
  exact (Keeps.set_tab (kT hc rfl) h _)

theorem State.tabDone_keeps {c : Nat} (hc : c &&& 0x20080 = 0x20080) {s0 : State} {s : State} (h : Keeps c s0 s) (a1 : ℕ) : Keeps c s0 (State.tabDone s a1) := by
  unfold State.tabDone
  exact (State.cInc_keeps (kS hc rfl) (Keeps.set_tab (kT hc rfl) h _) _ _)

theorem State.tabReject_keeps {c : Nat} (hc : c &&& 0x80 = 0x80) {s0 : State} {s : State} (h : Keeps c s0 s) : Keeps c s0 (State.tabReject s) := by
  unfold State.tabReject
  exact (State.cEvt_keeps (kS hc rfl) (State.cInc_keeps (kS hc rfl) h _ _) _ _)

theorem State.directEntryWrite_keeps {c : Nat} (hc : c &&& 0x200c0 = 0x200c0) {s0 : State} {s : State} (h : Keeps c s0 s) (a0 : ℕ) (a1 : List ℕ) : Keeps c s0 (State.directEntryWrite a0 a1 s) := by
  unfold State.directEntryWrite
  exact (by extract_lets x0_0 x0_1; exact (Keeps.ite (fun _ => h) (fun _ => (Keeps.ite (fun _ => (State.tabDone_keeps (kS hc rfl) (State.closeRec_keeps (kS hc rfl) (State.memWN_keeps (kS hc rfl) h _ _ _) _ _) _)) (fun _ => (State.tabReject_keeps (kS hc rfl) h))))))

theorem State.entryUnfreeze_keeps {c : Nat} (hc : c &&& 0x21f08e0 = 0x21f08e0) {s0 : State} {s : State} (h : Keeps c s0 s) (a0 : ℕ) : Keeps c s0 (State.entryUnfreeze a0 s) := by
  unfold State.entryUnfreeze
  exact (State.visitRow_keeps (kS hc rfl) h _)

theorem State.flushFilterRetire_keeps {c : Nat} (hc : c &&& 0x21f08e0 = 0x21f08e0) {s0 : State} {s : State} (h : Keeps c s0 s) (a0 : ℕ) : Keeps c s0 (State.flushFilterRetire a0 s) := by
  unfold State.flushFilterRetire
  exact (by split; exacts [(by extract_lets x0_0 x0_1 x0_2 x0_3; have h1 : Keeps c s0 x0_1 := (State.beforeVisits_keeps (kS hc rfl) h _); have h2 : Keeps c s0 x0_2 := (Keeps.snd (State.ageVisits_keeps (kS hc rfl) h1 _ _)); exact (Keeps.ite (fun _ => (Keeps.set_tab (kT hc rfl) h2 _)) (fun _ => h))), h])

theorem State.hashDelete_keeps {c : Nat} (hc : c &&& 0x200c0 = 0x200c0) {s0 : State} {s : State} (h : Keeps c s0 s) (a0 : ℕ) (a1 : List ℕ) : Keeps c s0 (State.hashDelete a0 a1 s) := by
  unfold State.hashDelete
  exact (by extract_lets x0_0; exact (Keeps.ite (fun _ => h) (fun _ => (Keeps.ite (fun _ => (by split; exacts [(State.tabDone_keeps (kS hc rfl) (State.closeKey_keeps (kS hc rfl) (State.hdelete_keeps (kS hc rfl) h _ _) _ _) _), (State.tabReject_keeps (kS hc rfl) h)])) (fun _ => (State.tabReject_keeps (kS hc rfl) h))))))

theorem State.hashInsert_keeps {c : Nat} (hc : c &&& 0x200c0 = 0x200c0) {s0 : State} {s : State} (h : Keeps c s0 s) (a0 : ℕ) (a1 : List ℕ) : Keeps c s0 (State.hashInsert a0 a1 s) := by
  unfold State.hashInsert
  exact (by extract_lets x0_0; exact (Keeps.ite (fun _ => h) (fun _ => (Keeps.ite (fun _ => (by split; exacts [(by have h1 := Keeps.ofO (by assumption) (State.hinsert_keeps (kS hc rfl) h _ _); exact (State.tabDone_keeps (kS hc rfl) (State.closeKey_keeps (kS hc rfl) h1 _ _) _)), (State.tabReject_keeps (kS hc rfl) h)])) (fun _ => (State.tabReject_keeps (kS hc rfl) h))))))

theorem State.insertAll_keeps {c : Nat} (hc : c &&& 0xc0 = 0xc0) {s0 : State} {s : State} (h : Keeps c s0 s) (a1 : ℕ) (a2 : ℕ) (a3 : List Octets) : KeepsO c s0 (State.insertAll s a1 a2 a3) := by
  unfold State.insertAll
  exact (Keeps.foldlO (fun _ _ h0 => (Keeps.bindO h0 (fun _ h1 => (State.hinsert_keeps (kS hc rfl) h1 _ _)))) _ (Keeps.someO h))

theorem State.learnLookup_keeps {c : Nat} (hc : c &&& 0x20040 = 0x20040) {s0 : State} {s : State} (h : Keeps c s0 s) (a1 : Octets) (a2 : ℕ) (a3 : ℕ) : Keeps c s0 (State.learnLookup s a1 a2 a3) := by
  unfold State.learnLookup
  exact (by extract_lets x0_0 x0_1; have h1 : Keeps c s0 x0_1 := (Keeps.set_tab (kT hc rfl) h _); exact (by split; exacts [(by extract_lets x2_0; exact (Keeps.ite (fun _ => (State.putHent_keeps (kS hc rfl) h1 _ _ _)) (fun _ => h1))), h1]))

theorem State.learnedFlush_keeps {c : Nat} (hc : c &&& 0x20080 = 0x20080) {s0 : State} {s : State} (h : Keeps c s0 s) (a0 : ℕ) (a1 : ℕ) (a2 : List ℕ) : Keeps c s0 (State.learnedFlush a0 a1 a2 s) := by
  unfold State.learnedFlush
  exact (by extract_lets x0_0 x0_1 x0_2; exact (Keeps.ite (fun _ => h) (fun _ => (Keeps.ite (fun _ => (State.tabDone_keeps (kS hc rfl) (Keeps.set_tab (kT hc rfl) h _) _)) (fun _ => (State.tabReject_keeps (kS hc rfl) h))))))

theorem State.tcamDrop_keeps {c : Nat} (hc : c &&& 0x20080 = 0x20080) {s0 : State} {s : State} (h : Keeps c s0 s) (a1 : ℕ) : Keeps c s0 (State.tcamDrop s a1) := by
  unfold State.tcamDrop
  exact (by extract_lets x0_0 x0_1 x0_2 x0_3; have h1 : Keeps c s0 x0_3 := (Keeps.set_tab (kT hc rfl) h _); exact (State.cInc_keeps (kS hc rfl) (State.cEvt_keeps (kS hc rfl) (State.cPut_keeps (kS hc rfl) h1 _ _ _ _) _ _) _ _))

theorem State.lpmEffect_keeps {c : Nat} (hc : c &&& 0x200c0 = 0x200c0) {s0 : State} {s : State} (h : Keeps c s0 s) (a1 : LpmCmd) : Keeps c s0 (State.lpmEffect s a1) := by
  unfold State.lpmEffect
  exact (Keeps.ite (fun _ => (State.cInc_keeps (kS hc rfl) (State.cEvt_keeps (kS hc rfl) h _ _) _ _)) (fun _ => (by extract_lets x0_0 x0_1 x0_2 x0_3 x0_4 x0_5 x0_6 x0_7 x0_8; have h1 : Keeps c s0 x0_5 := (Keeps.set_tab (kT hc rfl) h _); have h2 : Keeps c s0 x0_6 := (State.memW_keeps (kS hc rfl) h1 _ _); have h3 : Keeps c s0 x0_7 := (State.closeRec_keeps (kS hc rfl) h2 _ _); have h4 : Keeps c s0 x0_8 := (by unfold x0_8; split; exacts [(Keeps.ite (fun _ => (State.tcamDrop_keeps (kS hc rfl) h3 _)) (fun _ => h3)), h3]); exact (State.cEvt_keeps (kS hc rfl) h4 _ _))))

theorem State.tcamShow_keeps {c : Nat} (hc : c &&& 0x20 = 0x20) {s0 : State} {s : State} (h : Keeps c s0 s) : Keeps c s0 (State.tcamShow s) := by
  unfold State.tcamShow
  exact (by extract_lets x0_0; have h1 : Keeps c s0 x0_0 := (State.setFld_keeps (kS hc rfl) h _ _ _ _); exact (State.setBit_keeps (kS hc rfl) h1 _ _ _))

theorem State.lpmPend_keeps {c : Nat} (hc : c &&& 0x20020 = 0x20020) {s0 : State} {s : State} (h : Keeps c s0 s) (a1 : ℕ) (a2 : ℕ) (a3 : Option Octets) : Keeps c s0 (State.lpmPend s a1 a2 a3) := by
  unfold State.lpmPend
  exact (by extract_lets x0_0 x0_1 x0_2 x0_3 x0_4; have h1 : Keeps c s0 x0_4 := (Keeps.set_tab (kT hc rfl) h _); exact (State.tcamShow_keeps (kS hc rfl) (Keeps.ite (fun _ => (State.setBit_keeps (kS hc rfl) h1 _ _ _)) (fun _ => h1))))

theorem State.scanShow_keeps {c : Nat} (hc : c &&& 0x20 = 0x20) {s0 : State} {s : State} (h : Keeps c s0 s) : Keeps c s0 (State.scanShow s) := by
  unfold State.scanShow
  exact (State.setFld_keeps (kS hc rfl) h _ _ _ _)

theorem State.plumbConfirm_keeps {c : Nat} (hc : c &&& 0x20022 = 0x20022) {s0 : State} {s : State} (h : Keeps c s0 s) (a0 : ℕ) (a1 : ℕ) : Keeps c s0 (State.plumbConfirm a0 a1 s) := by
  unfold State.plumbConfirm
  exact (by split; exacts [h, (by extract_lets x0_0 x0_1; have h1 : Keeps c s0 x0_0 := (State.tick_keeps (kS hc rfl) h _); exact (Keeps.ite (fun _ => h1) (fun _ => (by split; exacts [(by extract_lets x2_0 x2_1; have h3 : Keeps c s0 x2_1 := (Keeps.set_tab (kT hc rfl) h1 _); exact (State.scanShow_keeps (kS hc rfl) h3))]))))])

theorem State.scanDone_keeps {c : Nat} (hc : c &&& 0x4243c20 = 0x4243c20) {s0 : State} {s : State} (h : Keeps c s0 s) (a1 : ℕ) (a2 : ℕ) (a3 : Bool) : Keeps c s0 (State.scanDone s a1 a2 a3) := by
  unfold State.scanDone
  exact (by extract_lets x0_0 x0_1; have h1 : Keeps c s0 x0_0 := (State.wrN_keeps (kS hc rfl) h _ _); exact (Keeps.ite (fun _ => (State.raiseFault_keeps (kS hc rfl) (State.evt_keeps (kS hc rfl) (State.inc_keeps (kS hc rfl) h1 _ _) _ _) _ _ _ _)) (fun _ => (State.raiseFault_keeps (kS hc rfl) (State.evt_keeps (kS hc rfl) h1 _ _) _ _ _ _))))

theorem State.tcamAdd_keeps {c : Nat} (hc : c &&& 0x20080 = 0x20080) {s0 : State} {s : State} (h : Keeps c s0 s) (a1 : ℕ) : Keeps c s0 (State.tcamAdd s a1) := by
  unfold State.tcamAdd
  exact (by extract_lets x0_0 x0_1; exact (by split; exacts [(Keeps.ite (fun _ => (by split; exacts [(Keeps.set_tab (kT hc rfl) h _), (State.tcamDrop_keeps (kS hc rfl) h _)])) (fun _ => h)), h]))

theorem State.tcamRebuild_keeps {c : Nat} (hc : c &&& 0x20080 = 0x20080) {s0 : State} {s : State} (h : Keeps c s0 s) (a1 : ℕ) : Keeps c s0 (State.tcamRebuild s a1) := by
  unfold State.tcamRebuild
  exact (by extract_lets x0_0 x0_1 x0_2 x0_3; have h1 : Keeps c s0 x0_3 := (Keeps.set_tab (kT hc rfl) h _); exact (Keeps.ite (fun _ => h1) (fun _ => (State.tcamAdd_keeps (kS hc rfl) h1 _))))

theorem State.scanRepair_keeps {c : Nat} (hc : c &&& 0x4263ce0 = 0x4263ce0) {s0 : State} {s : State} (h : Keeps c s0 s) (a1 : ℕ) (a2 : ℕ) (a3 : Octets) : Keeps c s0 (State.scanRepair s a1 a2 a3) := by
  unfold State.scanRepair
  exact (by extract_lets x0_0 x0_1 x0_2 x0_3; have h1 : Keeps c s0 x0_2 := (State.tcamRebuild_keeps (kS hc rfl) (State.memW_keeps (kS hc rfl) h _ _) _); have h2 : Keeps c s0 x0_3 := (by unfold x0_3; split; exacts [(State.memW_keeps (kS hc rfl) h _ _), (State.memW_keeps (kS hc rfl) h _ _), (State.memW_keeps (kS hc rfl) h _ _), (State.memW_keeps (kS hc rfl) h _ _)]); exact (Keeps.ite (fun _ => (by split; exacts [(by extract_lets x3_0; exact (Keeps.ite (fun _ => (State.scanDone_keeps (kS hc rfl) (State.putHent_keeps (kS hc rfl) h _ _ _) _ _ _)) (fun _ => (State.scanDone_keeps (kS hc rfl) (State.hdelete_keeps (kS hc rfl) h _ _) _ _ _)))), (Keeps.ite (fun _ => h) (fun _ => (by split; exacts [(by have h4 := Keeps.ofO (by assumption) (State.hinsert_keeps (kS hc rfl) h _ _); exact (State.scanDone_keeps (kS hc rfl) h4 _ _ _)), (State.scanDone_keeps (kS hc rfl) h _ _ _)])))])) (fun _ => (Keeps.ite (fun _ => (Keeps.ite (fun _ => (State.scanDone_keeps (kS hc rfl) h _ _ _)) (fun _ => (State.scanDone_keeps (kS hc rfl) h1 _ _ _)))) (fun _ => (State.scanDone_keeps (kS hc rfl) h2 _ _ _))))))

theorem State.scanNext_keeps {c : Nat} (hc : c &&& 0x20 = 0x20) {s0 : State} {s : State} (h : Keeps c s0 s) (a1 : ℕ) (a2 : ℕ) : Keeps c s0 (State.scanNext s a1 a2) := by
  unfold State.scanNext
  exact (Keeps.ite (fun _ => (State.wrN_keeps (kS hc rfl) h _ _)) (fun _ => (by extract_lets x0_0; have h1 : Keeps c s0 x0_0 := (State.wrN_keeps (kS hc rfl) h _ _); exact (by split; exacts [(State.setFld_keeps (kS hc rfl) h1 _ _ _ _), (State.inc_keeps (kS hc rfl) (State.evt_keeps (kS hc rfl) (State.setFld_keeps (kS hc rfl) h1 _ _ _ _) _ _) _ _)]))))

theorem State.plumbScanStep_keeps {c : Nat} (hc : c &&& 0x4263ce2 = 0x4263ce2) {s0 : State} {s : State} (h : Keeps c s0 s) (a0 : ℕ) (a1 : Bool) : Keeps c s0 (State.plumbScanStep a0 a1 s) := by
  unfold State.plumbScanStep
  exact (Keeps.ite (fun _ => h) (fun _ => (by split; exacts [h, (by extract_lets x0_0 x0_1 x0_2 x0_3 x0_4; have h1 : Keeps c s0 x0_0 := (State.tick_keeps (kS hc rfl) h _); have h2 : Keeps c s0 x0_3 := (State.setFld_keeps (kS hc rfl) h1 _ _ _ _); exact (by split; exacts [(by extract_lets x3_0; have h4 : Keeps c s0 x3_0 := (Keeps.ite (fun _ => h2) (fun _ => (Keeps.ite (fun _ => (Keeps.ite (fun _ => (State.scanDone_keeps (kS hc rfl) (State.inc_keeps (kS hc rfl) (State.hdelete_keeps (kS hc rfl) h2 _ _) _ _) _ _ _)) (fun _ => (State.scanRepair_keeps (kS hc rfl) h2 _ _ _)))) (fun _ => (Keeps.ite (fun _ => (Keeps.set_tab (kT hc rfl) h2 _)) (fun _ => h2)))))); exact (State.scanShow_keeps (kS hc rfl) (State.scanNext_keeps (kS hc rfl) h4 _ _)))]))])))

theorem State.prefixAdd_keeps {c : Nat} (hc : c &&& 0x200a0 = 0x200a0) {s0 : State} {s : State} (h : Keeps c s0 s) (a0 : ℕ) (a1 : ℕ) (a2 : List ℕ) : Keeps c s0 (State.prefixAdd a0 a1 a2 s) := by
  unfold State.prefixAdd
  exact (by extract_lets x0_0; exact (Keeps.ite (fun _ => h) (fun _ => (Keeps.ite (fun _ => (State.tabDone_keeps (kS hc rfl) (State.closeRec_keeps (kS hc rfl) (State.lpmPend_keeps (kS hc rfl) h _ _ _) _ _) _)) (fun _ => (State.tabReject_keeps (kS hc rfl) h))))))

theorem State.prefixBuildDone_keeps {c : Nat} (hc : c &&& 0x20022 = 0x20022) {s0 : State} {s : State} (h : Keeps c s0 s) (a0 : ℕ) : Keeps c s0 (State.prefixBuildDone a0 s) := by
  unfold State.prefixBuildDone
  exact (by split; exacts [h, (by extract_lets x0_0 x0_1; have h1 : Keeps c s0 x0_0 := (State.tick_keeps (kS hc rfl) h _); exact (by split; exacts [(by extract_lets x2_0 x2_1; have h3 : Keeps c s0 x2_1 := (Keeps.set_tab (kT hc rfl) h1 _); exact (State.tcamShow_keeps (kS hc rfl) (State.setBit_keeps (kS hc rfl) h3 _ _ _)))]))])

theorem State.prefixDelete_keeps {c : Nat} (hc : c &&& 0x200a0 = 0x200a0) {s0 : State} {s : State} (h : Keeps c s0 s) (a0 : ℕ) (a1 : ℕ) : Keeps c s0 (State.prefixDelete a0 a1 s) := by
  unfold State.prefixDelete
  exact (Keeps.ite (fun _ => h) (fun _ => (by split; exacts [(Keeps.ite (fun _ => (State.tabDone_keeps (kS hc rfl) (State.closeRec_keeps (kS hc rfl) (State.lpmPend_keeps (kS hc rfl) h _ _ _) _ _) _)) (fun _ => (State.tabReject_keeps (kS hc rfl) h))), (State.tabReject_keeps (kS hc rfl) h)])))

theorem State.prefixEffect_keeps {c : Nat} (hc : c &&& 0x4263ce0 = 0x4263ce0) {s0 : State} {s : State} (h : Keeps c s0 s) (a0 : ℕ) : Keeps c s0 (State.prefixEffect a0 s) := by
  unfold State.prefixEffect
  exact (by split; exacts [h, (by extract_lets x0_0 x0_1 x0_2; have h1 : Keeps c s0 x0_1 := (Keeps.set_tab (kT hc rfl) h _); have h2 : Keeps c s0 x0_2 := (Keeps.ite (fun _ => (State.lpmEffect_keeps (kS hc rfl) h1 _)) (fun _ => (State.raiseFault_keeps (kS hc rfl) (State.setBit_keeps (kS hc rfl) h1 _ _ _) _ _ _ _))); exact (State.cPut_keeps (kS hc rfl) (State.tcamShow_keeps (kS hc rfl) h2) _ _ _ _))])

theorem State.purgeHash_keeps {c : Nat} (hc : c &&& 0x40 = 0x40) {s0 : State} {s : State} (h : Keeps c s0 s) (a1 : ℕ) (a2 : ℕ) : Keeps c s0 (State.purgeHash s a1 a2) := by
  unfold State.purgeHash
  exact (by extract_lets x0_0 x0_1; have h3 : Keeps c s0 x0_1 := (Keeps.foldl (fun _ _ h1 => (by unfold x0_0; extract_lets x2_0; exact (Keeps.ite (fun _ => (State.putHent_keeps (kS hc rfl) h1 _ _ _)) (fun _ => h1)))) _ h); exact (Keeps.foldr (fun _ _ h4 => (by extract_lets x5_0; exact (Keeps.ite (fun _ => (State.hdelete_keeps (kS hc rfl) h4 _ _)) (fun _ => h4)))) _ h3))

theorem State.retireFilters_keeps {c : Nat} (hc : c &&& 0x20000 = 0x20000) {s0 : State} {s : State} (h : Keeps c s0 s) : Keeps c s0 (State.retireFilters s) := by
  unfold State.retireFilters
  exact (Keeps.set_tab (kT hc rfl) h _)

theorem State.scanRepairs_keeps {c : Nat} (hc : c &&& 0x4263ce0 = 0x4263ce0) {s0 : State} {s : State} (h : Keeps c s0 s) : Keeps c s0 (State.scanRepairs s) := by
  unfold State.scanRepairs
  exact (by extract_lets x0_0 x0_1 x0_2; have h1 : Keeps c s0 x0_2 := (Keeps.set_tab (kT hc rfl) h _); exact (Keeps.foldl (fun _ _ h2 => (State.scanRepair_keeps (kS hc rfl) h2 _ _ _)) _ h1))

theorem State.shadowWrite_keeps {c : Nat} (hc : c &&& 0x60 = 0x60) {s0 : State} {s : State} (h : Keeps c s0 s) (a0 : Word) : Keeps c s0 (State.shadowWrite a0 s) := by
  unfold State.shadowWrite
  exact (by extract_lets x0_0; exact (Keeps.ite (fun _ => (State.setFld_keeps (kS hc rfl) (State.memWN_keeps (kS hc rfl) h _ _ _) _ _ _ _)) (fun _ => h)))

theorem State.stageHash_keeps {c : Nat} (hc : c &&& 0xc0 = 0xc0) {s0 : State} {s : State} (h : Keeps c s0 s) (a1 : ℕ) (a2 : List Octets) : KeepsO c s0 (State.stageHash s a1 a2) := by
  unfold State.stageHash
  exact (by extract_lets x0_0 x0_1 x0_2 x0_3; have h3 : Keeps c s0 x0_3 := (Keeps.foldl (fun _ _ h1 => (by extract_lets x2_0; exact (Keeps.ite (fun _ => (State.putHent_keeps (kS hc rfl) h1 _ _ _)) (fun _ => h1)))) _ h); exact (State.insertAll_keeps (kS hc rfl) h3 _ _ _))

theorem State.tabBegin_keeps {c : Nat} (hc : c &&& 0x20000 = 0x20000) {s0 : State} {s : State} (h : Keeps c s0 s) : Keeps c s0 (State.tabBegin s) := by
  unfold State.tabBegin
  exact (by extract_lets x0_0 x0_1; exact (Keeps.set_tab (kT hc rfl) h _))

theorem State.tabShow_keeps {c : Nat} (hc : c &&& 0x0 = 0x0) {s0 : State} {s : State} (h : Keeps c s0 s) (a0 : State → ℕ → ℕ → ℕ → ℕ → State) (f_put : ∀ u0 (_ : Keeps c s0 u0) u1 u2 u3 u4, Keeps c s0 (a0 u0 u1 u2 u3 u4)) : Keeps c s0 (State.tabShow a0 s) := by
  unfold State.tabShow
  exact (by extract_lets x0_0 x0_1 x0_2 x0_3 x0_4 x0_5 x0_6 x0_7 x0_8 x0_9; have h1 : Keeps c s0 x0_3 := (f_put _ h _ _ _ _); have h2 : Keeps c s0 x0_4 := (f_put _ h1 _ _ _ _); have h3 : Keeps c s0 x0_5 := (f_put _ h2 _ _ _ _); have h4 : Keeps c s0 x0_6 := (f_put _ h3 _ _ _ _); have h5 : Keeps c s0 x0_7 := (f_put _ h4 _ _ _ _); have h6 : Keeps c s0 x0_8 := (f_put _ h5 _ _ _ _); have h7 : Keeps c s0 x0_9 := (f_put _ h6 _ _ _ _); exact (f_put _ h7 _ _ _ _))

theorem State.tabTimer_keeps {c : Nat} (hc : c &&& 0x200c0 = 0x200c0) {s0 : State} {s : State} (h : Keeps c s0 s) (a1 : ℕ) : Keeps c s0 (State.tabTimer s a1) := by
  unfold State.tabTimer
  exact (by extract_lets x0_0 x0_1 x0_2 x0_3; have h1 : Keeps c s0 x0_1 := (Keeps.snd (State.ageVisits_keeps (kS hc rfl) (State.learnStep_keeps (kS hc rfl) h _) _ _)); have h2 : Keeps c s0 x0_3 := (Keeps.set_tab (kT hc rfl) h1 _); exact (State.retireFilters_keeps (kS hc rfl) h2))

theorem State.tagRows_keeps {c : Nat} (hc : c &&& 0x20000 = 0x20000) {s0 : State} {s : State} (h : Keeps c s0 s) : Keeps c s0 (State.tagRows s) := by
  unfold State.tagRows
  exact (Keeps.set_tab (kT hc rfl) h _)

theorem State.tbHead_keeps {c : Nat} (hc : c &&& 0x20 = 0x20) {s0 : State} {s : State} (h : Keeps c s0 s) (a1 : Octets) : Keeps c s0 (State.tbHead s a1) := by
  unfold State.tbHead
  exact (by extract_lets x0_0; have h1 : Keeps c s0 x0_0 := (State.wrN_keeps (kS hc rfl) (State.wrN_keeps (kS hc rfl) h _ _) _ _); exact (Keeps.foldl (fun _ _ h2 => (by extract_lets x3_0; exact (State.wrN_keeps (kS hc rfl) h2 _ _))) _ h1))

theorem State.tbLoad_keeps {c : Nat} (hc : c &&& 0x4263ce0 = 0x4263ce0) {s0 : State} {s : State} (h : Keeps c s0 s) (a1 : Octets) : KeepsO c s0 (State.tbLoad s a1) := by
  unfold State.tbLoad
  exact (by extract_lets x0_0 x0_1 x0_2 x0_3 x0_4; have h1 : Keeps c s0 x0_0 := (State.memClear_keeps (kS hc rfl) (State.memClear_keeps (kS hc rfl) h _ _) _ _); have h2 : Keeps c s0 x0_2 := (Keeps.set_tab (kT hc rfl) h1 _); have h3 : Keeps c s0 x0_3 := (State.tbHead_keeps (kS hc rfl) h2 _); have h5 : Keeps c s0 x0_4 := (Keeps.foldl (fun _ _ h4 => (State.memW_keeps (kS hc rfl) h4 _ _)) _ h3); exact (Keeps.bindO (Keeps.bindO (State.insertAll_keeps (kS hc rfl) h5 _ _ _) (fun _ h6 => (State.insertAll_keeps (kS hc rfl) h6 _ _ _))) (fun _ h7 => (by extract_lets x8_0 x8_1; have h10 : Keeps c s0 x8_0 := (Keeps.foldl (fun _ _ h9 => (State.memW_keeps (kS hc rfl) h9 _ _)) _ h7); have h12 : Keeps c s0 x8_1 := (State.tcamShow_keeps (kS hc rfl) (Keeps.foldl (fun _ _ h11 => (State.tcamAdd_keeps (kS hc rfl) h11 _)) _ h10)); exact (Keeps.iteO (fun _ => Keeps.noneO) (fun _ => (Keeps.someO (State.tabShow_keeps (kS hc rfl) (State.applyHeld_keeps (kS hc rfl) h12) _ (fun _ h13 _ _ _ _ => (State.setFld_keeps (kS hc rfl) h13 _ _ _ _))))))))))

theorem State.tbPurge_keeps {c : Nat} (hc : c &&& 0x20060 = 0x20060) {s0 : State} {s : State} (h : Keeps c s0 s) (a1 : Bool) : Keeps c s0 (State.tbPurge s a1) := by
  unfold State.tbPurge
  exact (by extract_lets x0_0 x0_1 x0_2 x0_3 x0_4 x0_5; have h1 : Keeps c s0 x0_1 := (State.purgeRegion_keeps (kS hc rfl) (State.purgeHash_keeps (kS hc rfl) (State.purgeHash_keeps (kS hc rfl) h _ _) _ _) _ _ _ _ _); have h2 : Keeps c s0 x0_4 := (Keeps.set_tab (kT hc rfl) h1 _); have h4 : Keeps c s0 x0_5 := (Keeps.ite (fun _ => h2) (fun _ => (Keeps.foldl (fun _ _ h3 => (State.clearStandby_keeps (kS hc rfl) h3 _)) _ h2))); exact (State.tabShow_keeps (kS hc rfl) (State.tcamShow_keeps (kS hc rfl) h4) _ (fun _ h5 _ _ _ _ => (State.setFld_keeps (kS hc rfl) h5 _ _ _ _))))

theorem State.tbStage_keeps {c : Nat} (hc : c &&& 0x200e0 = 0x200e0) {s0 : State} {s : State} (h : Keeps c s0 s) (a1 : Octets) : KeepsO c s0 (State.tbStage s a1) := by
  unfold State.tbStage
  exact (by extract_lets x0_0 x0_1 x0_2 x0_3; have h2 : Keeps c s0 x0_0 := (Keeps.foldl (fun _ _ h1 => (State.clearStandby_keeps (kS hc rfl) h1 _)) _ h); have h4 : Keeps c s0 x0_1 := (Keeps.foldl (fun _ _ h3 => (State.memW_keeps (kS hc rfl) h3 _ _)) _ h2); exact (Keeps.bindO (Keeps.bindO (State.stageHash_keeps (kS hc rfl) h4 _ _) (fun _ h5 => (State.stageHash_keeps (kS hc rfl) h5 _ _))) (fun _ h6 => (Keeps.bindO (State.stageRegion_keeps (kS hc rfl) h6 _ _ _ _ _ _ _ _ _) (fun _ h7 => (by extract_lets x8_0 x8_1; exact (Keeps.iteO (fun _ => Keeps.noneO) (fun _ => (Keeps.someO (State.tcamShow_keeps (kS hc rfl) (State.tagRows_keeps (kS hc rfl) (Keeps.foldl (fun _ _ h9 => (by split; exacts [(Keeps.set_tab (kT hc rfl) h9 _), h9])) _ h7))))))))))))

theorem State.tcamPairs_keeps {c : Nat} (hc : c &&& 0x20000 = 0x20000) {s0 : State} {s : State} (h : Keeps c s0 s) : Keeps c s0 (State.tcamPairs s) := by
  unfold State.tcamPairs
  exact (by extract_lets x0_0 x0_1; exact (Keeps.set_tab (kT hc rfl) h _))

theorem State.tbSwitch_keeps {c : Nat} (hc : c &&& 0x200a0 = 0x200a0) {s0 : State} {s : State} (h : Keeps c s0 s) (a1 : Octets) : Keeps c s0 (State.tbSwitch s a1) := by
  unfold State.tbSwitch
  exact (by extract_lets x0_0 x0_1 x0_2 x0_3 x0_4; have h1 : Keeps c s0 x0_1 := (State.tbHead_keeps (kS hc rfl) (Keeps.set_tab (kT hc rfl) h _) _); have h2 : Keeps c s0 x0_2 := (State.tcamPairs_keeps (kS hc rfl) h1); exact (State.tcamShow_keeps (kS hc rfl) (Keeps.foldl (fun _ _ h3 => (Keeps.ite (fun _ => h3) (fun _ => (State.tcamAdd_keeps (kS hc rfl) h3 _)))) _ h2)))

theorem State.loadBay_keeps {c : Nat} (hc : c &&& 0x20 = 0x20) {s0 : State} {s : State} (h : Keeps c s0 s) (a1 : Octets) (a2 : ℕ) : Keeps c s0 (State.loadBay s a1 a2) := by
  unfold State.loadBay
  exact (by extract_lets x0_0; exact (Keeps.foldl (fun _ _ h1 => (State.wrN_keeps (kS hc rfl) h1 _ _)) _ h))

theorem State.pbLoad_keeps {c : Nat} (hc : c &&& 0x20 = 0x20) {s0 : State} {s : State} (h : Keeps c s0 s) (a1 : Octets) : Keeps c s0 (State.pbLoad s a1) := by
  unfold State.pbLoad
  exact (Keeps.foldl (fun _ _ h0 => (State.loadBay_keeps (kS hc rfl) h0 _ _)) _ h)

theorem State.scratch_keeps {c : Nat} (hc : c &&& 0x20 = 0x20) {s0 : State} {s : State} (h : Keeps c s0 s) (a1 : List (ℕ × Octets)) : Keeps c s0 (State.scratch s a1) := by
  unfold State.scratch
  exact (by split; exacts [(State.pbLoad_keeps (kS hc rfl) h _), (Keeps.foldl (fun _ _ h0 => (State.setFld_keeps (kS hc rfl) (State.setFld_keeps (kS hc rfl) h0 _ _ _ _) _ _ _ _)) _ h)])

end Sys2Proof.Machine
end

