-- ==== Sys2Proof/Laws/KeepsService.lean ====
section
/-! SUPPORT. Laws/KeepsService.lean: what is kept, and which fields may change (Laws/Keeps.lean), for service, the time base, faults, the twin and the ledger. The number in a lemma is the set of those fields. -/
set_option Elab.async false
namespace Sys2Proof.Machine
open Sys2Proof

theorem State.clearCounters_keeps {c : Nat} (hc : c &&& 0x800020 = 0x800020) {s0 : State} {s : State} (h : Keeps c s0 s) : Keeps c s0 (State.clearCounters s) := by
  unfold State.clearCounters
  exact (Keeps.mk' h (Nat.le_refl _) (Nat.le_refl _) (fun h => List.Pairwise.filter _ h) id id id id kO kO kO (kL hc) kO kO kO kO kO kO kO kO kO kO kO kO kO kO kO kO kO (kL hc) kO kO kO)

theorem State.putFrDig_keeps {c : Nat} (hc : c &&& 0x20 = 0x20) {s0 : State} {s : State} (h : Keeps c s0 s) (a1 : Octets) : Keeps c s0 (State.putFrDig s a1) := by
  unfold State.putFrDig
  exact (Keeps.foldl (fun _ _ h0 => (State.wrN_keeps (kS hc rfl) h0 _ _)) _ h)

theorem State.showFrame_keeps {c : Nat} (hc : c &&& 0x20 = 0x20) {s0 : State} {s : State} (h : Keeps c s0 s) : Keeps c s0 (State.showFrame s) := by
  unfold State.showFrame
  exact (State.putFrDig_keeps (kS hc rfl) h _)

theorem State.wakeStart_keeps {c : Nat} (hc : c &&& 0x400000 = 0x400000) {s0 : State} {s : State} (h : Keeps c s0 s) : Keeps c s0 (State.wakeStart s) := by
  unfold State.wakeStart
  exact (Keeps.set_wk (kT hc rfl) h _)

theorem State.bentIn_keeps {c : Nat} (hc : c &&& 0x4802c20 = 0x4802c20) {s0 : State} {s : State} (h : Keeps c s0 s) (a1 : ℕ) (a2 : ℕ) : Keeps c s0 (State.bentIn s a1 a2) := by
  unfold State.bentIn
  exact (by extract_lets x0_0 x0_1; have h1 : Keeps c s0 x0_0 := (State.setBent_keeps (kS hc rfl) h _ _); have h2 : Keeps c s0 x0_1 := (State.onPw_keeps (kS hc rfl) h1 _); exact (Keeps.ite (fun _ => (State.enterMB_keeps (kS hc rfl) h2 _ _)) (fun _ => h2)))

theorem State.bentsIn_keeps {c : Nat} (hc : c &&& 0x4802c20 = 0x4802c20) {s0 : State} {s : State} (h : Keeps c s0 s) : Keeps c s0 (State.bentsIn s) := by
  unfold State.bentsIn
  exact (Keeps.foldl (fun _ _ h0 => (by split; exacts [(Keeps.ite (fun _ => h0) (fun _ => (Keeps.ite (fun _ => (State.bentIn_keeps (kS hc rfl) h0 _ _)) (fun _ => (Keeps.ite (fun _ => (State.setBent_keeps (kS hc rfl) h0 _ _)) (fun _ => h0)))))), h0])) _ h)

theorem State.fullService_keeps {c : Nat} (hc : c &&& 0x42c3c20 = 0x42c3c20) {s0 : State} {s : State} (h : Keeps c s0 s) : Keeps c s0 (State.fullService s) := by
  unfold State.fullService
  exact (by extract_lets x0_0; have h1 : Keeps c s0 x0_0 := (State.onFr_keeps (kS hc rfl) (State.evt_keeps (kS hc rfl) (State.setFld_keeps (kS hc rfl) h _ _ _ _) _ _) _); exact (Keeps.ite (fun _ => (State.advanceFloor_keeps (kS hc rfl) h1 _)) (fun _ => h1)))

theorem State.beginService_keeps {c : Nat} (hc : c &&& 0x4ec3c70 = 0x4ec3c70) {s0 : State} {s : State} (h : Keeps c s0 s) (a1 : Mode) (a2 : ℕ) (a3 : ℕ) : Keeps c s0 (State.beginService s a1 a2 a3) := by
  unfold State.beginService
  exact (by extract_lets x0_0 x0_1 x0_2 x0_3 x0_4 x0_5 x0_6 x0_7 x0_8 x0_9; have h1 : Keeps c s0 x0_0 := (State.clearCounters_keeps (kS hc rfl) h); have h2 : Keeps c s0 x0_4 := (Keeps.mk' h1 (Nat.le_refl _) (Nat.le_refl _) id id id id id kO kO (kL hc) kO kO kO kO kO (kL hc) kO kO kO kO kO kO kO kO kO kO kO kO kO kO kO (kL hc)); have h3 : Keeps c s0 x0_5 := (State.wrN_keeps (kS hc rfl) (State.showFrame_keeps (kS hc rfl) (State.setFld_keeps (kS hc rfl) h2 _ _ _ _)) _ _); have h4 : Keeps c s0 x0_6 := (State.wakeStart_keeps (kS hc rfl) (State.memClear_keeps (kS hc rfl) h3 _ _)); have h5 : Keeps c s0 x0_7 := (State.bentsIn_keeps (kS hc rfl) h4); have h6 : Keeps c s0 x0_9 := (State.setFld_keeps (kS hc rfl) h5 _ _ _ _); exact (Keeps.ite (fun _ => (State.evt_keeps (kS hc rfl) (State.setFld_keeps (kS hc rfl) h6 _ _ _ _) _ _)) (fun _ => (State.fullService_keeps (kS hc rfl) h6))))

theorem State.configBent_keeps {c : Nat} (hc : c &&& 0x4377ce0 = 0x4377ce0) {s0 : State} {s : State} (h : Keeps c s0 s) (a1 : ℕ × Octets) : Keeps c s0 (State.configBent s a1) := by
  unfold State.configBent
  exact (by extract_lets x0_0 x0_1; have h1 : Keeps c s0 x0_1 := (Keeps.set_fr (kT hc rfl) h _); exact (Keeps.ite (fun _ => (State.configMB_keeps (kS hc rfl) h1 _ _)) (fun _ => (Keeps.ite (fun _ => (Keeps.getD (State.tbLoad_keeps (kS hc rfl) h1 _) h1)) (fun _ => (Keeps.ite (fun _ => (State.sbLoad_keeps (kS hc rfl) h1 _)) (fun _ => (Keeps.ite (fun _ => (State.kbLoad_keeps (kS hc rfl) h1 _)) (fun _ => (Keeps.ite (fun _ => (State.gwLoad_keeps (kS hc rfl) h1 _)) (fun _ => (State.pbLoad_keeps (kS hc rfl) h1 _))))))))))))

theorem State.configBents_keeps {c : Nat} (hc : c &&& 0x4377ce0 = 0x4377ce0) {s0 : State} {s : State} (h : Keeps c s0 s) (a1 : List (ℕ × Octets)) : Keeps c s0 (State.configBents s a1) := by
  unfold State.configBents
  exact (by extract_lets x0_0 x0_1 x0_2; have h1 : Keeps c s0 x0_1 := (Keeps.set_fr (kT hc rfl) h _); exact (Keeps.foldl (fun _ _ h2 => (State.configBent_keeps (kS hc rfl) h2 _)) _ h1))

theorem State.configEmpty_keeps {c : Nat} (hc : c &&& 0x2020 = 0x2020) {s0 : State} {s : State} (h : Keeps c s0 s) : Keeps c s0 (State.configEmpty s) := by
  unfold State.configEmpty
  exact (Keeps.foldl (fun _ _ h0 => (Keeps.foldl (fun _ _ h1 => (State.configMort_keeps (kS hc rfl) h1 _ _)) _ h0)) _ h)

theorem State.dieRegs_keeps {c : Nat} (hc : c &&& 0x20 = 0x20) {s0 : State} {s : State} (h : Keeps c s0 s) : Keeps c s0 (State.dieRegs s) := by
  unfold State.dieRegs
  exact (by extract_lets x0_0; exact (Keeps.foldl (fun _ _ h1 => (State.setBit_keeps (kS hc rfl) h1 _ _ _)) _ (Keeps.set_regs (kT hc rfl) h _ (fun h => List.Pairwise.filter _ h))))

theorem State.gradeRegs_keeps {c : Nat} (hc : c &&& 0x20 = 0x20) {s0 : State} {s : State} (h : Keeps c s0 s) : Keeps c s0 (State.gradeRegs s) := by
  unfold State.gradeRegs
  exact (by split; exacts [h, (State.wrN_keeps (kS hc rfl) (State.wrN_keeps (kS hc rfl) (State.wrN_keeps (kS hc rfl) (State.wrN_keeps (kS hc rfl) h _ _) _ _) _ _) _ _)])

theorem State.endHandler_keeps {c : Nat} (hc : c &&& 0x20 = 0x20) {s0 : State} {s : State} (h : Keeps c s0 s) (a1 : ℕ) : Keeps c s0 (State.endHandler s a1) := by
  unfold State.endHandler
  exact (State.setBit_keeps (kS hc rfl) h _ _ _)

theorem State.leaveHold_keeps {c : Nat} (hc : c &&& 0x20 = 0x20) {s0 : State} {s : State} (h : Keeps c s0 s) : Keeps c s0 (State.leaveHold s) := by
  unfold State.leaveHold
  exact (Keeps.ite (fun _ => (State.endHandler_keeps (kS hc rfl) h _)) (fun _ => h))

theorem State.dieReset_keeps {c : Nat} (hc : c &&& 0x7f7ffa0 = 0x7f7ffa0) {s0 : State} {s : State} (h : Keeps c s0 s) (a1 : PinCond) : Keeps c s0 (State.dieReset s a1) := by
  unfold State.dieReset
  exact (by extract_lets x0_0 x0_1 x0_2; have h1 : Keeps c s0 x0_0 := (State.gradeRegs_keeps (kS hc rfl) (State.dieRegs_keeps (kS hc rfl) (State.leaveHold_keeps (kS hc rfl) h))); exact (Keeps.mk' h1 (Nat.le_refl _) (Nat.le_refl _) id id (fun h => by first | simpa using h | exact (List.length_map _).trans h) (fun h => by first | simpa using h | exact (List.length_map _).trans h) (fun _ => by simp) kO kO kO kO kO (kL hc) (kL hc) (kL hc) (kL hc) (kL hc) (kL hc) (kL hc) (kL hc) (kL hc) (kL hc) (kL hc) (kL hc) kO (kL hc) (kL hc) (kL hc) (kL hc) (kL hc) (kL hc) (kL hc)))

theorem State.fltDefaults_keeps {c : Nat} (hc : c &&& 0x1020 = 0x1020) {s0 : State} {s : State} (h : Keeps c s0 s) : Keeps c s0 (State.fltDefaults s) := by
  unfold State.fltDefaults
  exact (by extract_lets x0_0 x0_1; have h1 : Keeps c s0 x0_0 := (State.setFld_keeps (kS hc rfl) h _ _ _ _); exact (Keeps.set_flt (kT hc rfl) h1 _))

theorem State.endEpochs_keeps {c : Nat} (hc : c &&& 0x4243c20 = 0x4243c20) {s0 : State} {s : State} (h : Keeps c s0 s) : Keeps c s0 (State.endEpochs s) := by
  unfold State.endEpochs
  exact (by extract_lets x0_0 x0_1; have h1 : Keeps c s0 x0_0 := (State.setFld_keeps (kS hc rfl) (State.applyDue_keeps (kS hc rfl) h _) _ _ _ _); have h2 : Keeps c s0 x0_1 := (State.setFld_keeps (kS hc rfl) (State.setBit_keeps (kS hc rfl) (State.setBit_keeps (kS hc rfl) (State.setBit_keeps (kS hc rfl) (State.wrN_keeps (kS hc rfl) h1 _ _) _ _ _) _ _ _) _ _ _) _ _ _ _); exact (State.leaveHold_keeps (kS hc rfl) h2))

theorem State.endService_keeps {c : Nat} (hc : c &&& 0x4f7bca0 = 0x4f7bca0) {s0 : State} {s : State} (h : Keeps c s0 s) : Keeps c s0 (State.endService s) := by
  unfold State.endService
  exact (by extract_lets x0_0 x0_1 x0_2 x0_3 x0_4; have h1 : Keeps c s0 x0_0 := (State.endEpochs_keeps (kS hc rfl) h); exact (Keeps.mk' h1 (Nat.le_refl _) (Nat.le_refl _) id id (fun h => by first | simpa using h | exact (List.length_map _).trans h) id (fun h => by first | simpa using h | exact (List.length_map _).trans h) kO kO kO kO kO (kL hc) kO kO (kL hc) (kL hc) (kL hc) (kL hc) kO (kL hc) (kL hc) (kL hc) (kL hc) kO (kL hc) (kL hc) (kL hc) (kL hc) kO kO (kL hc)))

theorem State.enterRaise_keeps {c : Nat} (hc : c &&& 0x4f7beb0 = 0x4f7beb0) {s0 : State} {s : State} (h : Keeps c s0 s) (a1 : ℕ) : Keeps c s0 (State.enterRaise s a1) := by
  unfold State.enterRaise
  exact (by extract_lets x0_0 x0_1 x0_2 x0_3 x0_4; have h1 : Keeps c s0 x0_0 := (State.fltDefaults_keeps (kS hc rfl) (State.endService_keeps (kS hc rfl) h)); have h2 : Keeps c s0 x0_1 := (State.wrN_keeps (kS hc rfl) (State.setBit_keeps (kS hc rfl) (State.setFld_keeps (kS hc rfl) h1 _ _ _ _) _ _ _) _ _); have h3 : Keeps c s0 x0_2 := (State.wrN_keeps (kS hc rfl) (State.putFrDig_keeps (kS hc rfl) h2 _) _ _); exact (Keeps.mk' h3 (Nat.le_refl _) (Nat.le_refl _) id id id id id kO kO (kL hc) kO kO kO kO (kL hc) kO (kL hc) kO kO kO kO kO kO kO kO kO (kL hc) kO kO kO kO kO))

theorem State.dieStart_keeps {c : Nat} (hc : c &&& 0x5ffbeb0 = 0x5ffbeb0) {s0 : State} {s : State} (h : Keeps c s0 s) (a1 : ℕ) : Keeps c s0 (State.dieStart s a1) := by
  unfold State.dieStart
  exact (by extract_lets x0_0 x0_1 x0_2 x0_3 x0_4; have h1 : Keeps c s0 x0_1 := (Keeps.ite (fun _ => (State.endHandler_keeps (kS hc rfl) (State.setBit_keeps (kS hc rfl) h _ _ _) _)) (fun _ => h)); have h2 : Keeps c s0 x0_4 := (Keeps.mk' h1 (Nat.le_refl _) (Nat.le_refl _) id id id id id kO kO kO kO kO kO kO kO kO kO (kL hc) kO kO kO kO kO kO kO kO kO kO kO (kL hc) kO kO); exact (State.onPw_keeps (kS hc rfl) (State.ksStart_keeps (kS hc rfl) (State.enterRaise_keeps (kS hc rfl) h2 _)) _))

theorem State.enterBench_keeps {c : Nat} (hc : c &&& 0x4f7bcb0 = 0x4f7bcb0) {s0 : State} {s : State} (h : Keeps c s0 s) : Keeps c s0 (State.enterBench s) := by
  unfold State.enterBench
  exact (by extract_lets x0_0 x0_1; have h1 : Keeps c s0 x0_0 := (State.endService_keeps (kS hc rfl) h); exact (Keeps.mk' h1 (Nat.le_refl _) (Nat.le_refl _) id id id id id kO kO (kL hc) kO kO kO kO kO kO (kL hc) kO kO kO kO kO kO kO kO kO kO kO kO kO kO kO))

theorem State.freshBlocks_keeps {c : Nat} (hc : c &&& 0x17a840 = 0x17a840) {s0 : State} {s : State} (h : Keeps c s0 s) : Keeps c s0 (State.freshBlocks s) := by
  unfold State.freshBlocks
  exact (by extract_lets x0_0 x0_1 x0_2; have h1 : Keeps c s0 x0_0 := (State.memClear_keeps (kS hc rfl) h _ _); exact (Keeps.mk' h1 (Nat.le_refl _) (Nat.le_refl _) id id (fun h => by first | simpa using h | exact (List.length_map _).trans h) id (fun h => by first | simpa using h | exact (List.length_map _).trans h) kO kO kO kO kO kO kO kO kO (kL hc) kO (kL hc) kO (kL hc) (kL hc) (kL hc) (kL hc) kO (kL hc) kO kO kO kO kO kO))

theorem State.holdDrop_keeps {c : Nat} (hc : c &&& 0x4000420 = 0x4000420) {s0 : State} {s : State} (h : Keeps c s0 s) (a1 : ℕ) : Keeps c s0 (State.holdDrop s a1) := by
  unfold State.holdDrop
  exact (by extract_lets x0_0 x0_1; have h1 : Keeps c s0 x0_1 := (State.inc_keeps (kS hc rfl) h _ _); exact (State.onEp_keeps (kS hc rfl) h1 _))

theorem State.holdFromService_keeps {c : Nat} (hc : c &&& 0x4a03472 = 0x4a03472) {s0 : State} {s : State} (h : Keeps c s0 s) (a1 : ℕ) : Keeps c s0 (State.holdFromService s a1) := by
  unfold State.holdFromService
  exact (by extract_lets x0_0 x0_1 x0_2 x0_3 x0_4 x0_5 x0_6; have h1 : Keeps c s0 x0_1 := (State.holdDrop_keeps (kS hc rfl) h _); have h2 : Keeps c s0 x0_5 := (Keeps.mk' h1 (Nat.le_refl _) (Nat.le_refl _) id id id id id kO kO (kL hc) kO kO kO kO kO kO kO (kL hc) kO kO kO kO kO kO kO kO (kL hc) kO (kL hc) kO kO kO); have h3 : Keeps c s0 x0_6 := (State.gwHold_keeps (kS hc rfl) h2); exact (Keeps.ite (fun _ => (beginDriving_keeps (kS hc rfl) h3 _)) (fun _ => (State.stopDriving_keeps (kS hc rfl) h3))))

theorem State.holdFromRaise_keeps {c : Nat} (hc : c &&& 0x4ec3c70 = 0x4ec3c70) {s0 : State} {s : State} (h : Keeps c s0 s) (a1 : ℕ) (a2 : ℕ) : Keeps c s0 (State.holdFromRaise s a1 a2) := by
  unfold State.holdFromRaise
  exact (by extract_lets x0_0 x0_1 x0_2 x0_3; have h1 : Keeps c s0 x0_2 := (Keeps.mk' h (Nat.le_refl _) (Nat.le_refl _) id id id id id kO kO kO kO kO kO kO kO kO kO (kL hc) kO kO kO kO kO kO kO kO kO kO (kL hc) kO kO kO); have h2 : Keeps c s0 x0_3 := (State.onFr_keeps (kS hc rfl) (State.beginService_keeps (kS hc rfl) h1 _ _ _) _); exact (State.gwHold_keeps (kS hc rfl) h2))

theorem State.holdEntry_keeps {c : Nat} (hc : c &&& 0x4ec3c72 = 0x4ec3c72) {s0 : State} {s : State} (h : Keeps c s0 s) (a0 : ℕ) : Keeps c s0 (State.holdEntry a0 s) := by
  unfold State.holdEntry
  exact (by extract_lets x0_0; have h1 : Keeps c s0 x0_0 := (State.tick_keeps (kS hc rfl) h _); exact (by split; exacts [(Keeps.ite (fun _ => (State.holdFromService_keeps (kS hc rfl) h1 _)) (fun _ => h1)), (Keeps.ite (fun _ => (State.holdFromService_keeps (kS hc rfl) h1 _)) (fun _ => h1)), (Keeps.ite (fun _ => (State.holdFromService_keeps (kS hc rfl) h1 _)) (fun _ => h1)), (Keeps.ite (fun _ => (State.holdFromRaise_keeps (kS hc rfl) h1 _ _)) (fun _ => h1)), (Keeps.ite (fun _ => (State.holdFromRaise_keeps (kS hc rfl) h1 _ _)) (fun _ => h1)), h1]))

theorem State.holdToBench_keeps {c : Nat} (hc : c &&& 0x4e43cb0 = 0x4e43cb0) {s0 : State} {s : State} (h : Keeps c s0 s) : Keeps c s0 (State.holdToBench s) := by
  unfold State.holdToBench
  exact (by extract_lets x0_0 x0_1 x0_2 x0_3; have h1 : Keeps c s0 x0_0 := (State.endEpochs_keeps (kS hc rfl) h); exact (Keeps.mk' h1 (Nat.le_refl _) (Nat.le_refl _) id id (fun h => by first | simpa using h | exact (List.length_map _).trans h) id id kO kO (kL hc) kO kO (kL hc) kO kO (kL hc) (kL hc) (kL hc) (kL hc) kO kO kO kO kO kO kO (kL hc) (kL hc) (kL hc) kO kO (kL hc)))

theorem State.lateBent_keeps {c : Nat} (hc : c &&& 0x4b77ce0 = 0x4b77ce0) {s0 : State} {s : State} (h : Keeps c s0 s) (a1 : ℕ) (a2 : Option Octets) : Keeps c s0 (State.lateBent s a1 a2) := by
  unfold State.lateBent
  exact (by split; exacts [(State.bentIn_keeps (kS hc rfl) (Keeps.ite (fun _ => (Keeps.set_fr (kT hc rfl) h _)) (fun _ => (State.configBent_keeps (kS hc rfl) h _))) _ _), (by extract_lets x0_0; have h1 : Keeps c s0 x0_0 := (State.raiseFault_keeps (kS hc rfl) (State.evt_keeps (kS hc rfl) h _ _) _ _ _ _); exact (Keeps.ite (fun _ => (State.isolateBent_keeps (kS hc rfl) h1 _)) (fun _ => h1)))])

theorem State.takeLease_keeps {c : Nat} (hc : c &&& 0x1200000 = 0x1200000) {s0 : State} {s : State} (h : Keeps c s0 s) (a1 : ℕ) (a2 : Bool) : Keeps c s0 (State.takeLease s a1 a2) := by
  unfold State.takeLease
  exact (by extract_lets x0_0 x0_1 x0_2; exact (Keeps.mk' h (Nat.le_refl _) (Nat.le_refl _) id id id id id kO kO kO kO kO kO kO kO kO kO kO kO kO kO kO kO kO kO kO (kL hc) kO kO (kL hc) kO kO))

theorem State.ptpSend_keeps {c : Nat} (hc : c &&& 0x200 = 0x200) {s0 : State} {s : State} (h : Keeps c s0 s) (a1 : ℕ) (a2 : ℕ) (a3 : ℕ) : Keeps c s0 (State.ptpSend s a1 a2 a3) := by
  unfold State.ptpSend
  exact (State.onTb_keeps (kS hc rfl) h _)

theorem State.announceReceived_keeps {c : Nat} (hc : c &&& 0x202 = 0x202) {s0 : State} {s : State} (h : Keeps c s0 s) (a0 : ℕ) (a1 : ℕ) (a2 : ℕ) (a3 : List ℕ) : Keeps c s0 (State.announceReceived a0 a1 a2 a3 s) := by
  unfold State.announceReceived
  exact (by extract_lets x0_0 x0_1; have h1 : Keeps c s0 x0_0 := (State.tick_keeps (kS hc rfl) h _); exact (Keeps.ite (fun _ => h1) (fun _ => (Keeps.ite (fun _ => (State.ptpSend_keeps (kS hc rfl) (State.onTb_keeps (kS hc rfl) h1 _) _ _ _)) (fun _ => (Keeps.ite (fun _ => (State.onTb_keeps (kS hc rfl) h1 _)) (fun _ => h1)))))))

theorem State.realign_keeps {c : Nat} (hc : c &&& 0x4000420 = 0x4000420) {s0 : State} {s : State} (h : Keeps c s0 s) : Keeps c s0 (State.realign s) := by
  unfold State.realign
  exact (Keeps.ite (fun _ => (State.evt_keeps (kS hc rfl) (State.onEp_keeps (kS hc rfl) h _) _ _)) (fun _ => h))

theorem State.lockTb_keeps {c : Nat} (hc : c &&& 0x4000620 = 0x4000620) {s0 : State} {s : State} (h : Keeps c s0 s) (a1 : Bool) : Keeps c s0 (State.lockTb s a1) := by
  unfold State.lockTb
  exact (State.onTb_keeps (kS hc rfl) (State.realign_keeps (kS hc rfl) h) _)

theorem State.announceTimeout_keeps {c : Nat} (hc : c &&& 0x4000622 = 0x4000622) {s0 : State} {s : State} (h : Keeps c s0 s) (a0 : ℕ) : Keeps c s0 (State.announceTimeout a0 s) := by
  unfold State.announceTimeout
  exact (by extract_lets x0_0 x0_1; have h1 : Keeps c s0 x0_0 := (State.tick_keeps (kS hc rfl) h _); have h2 : Keeps c s0 x0_1 := (State.onTb_keeps (kS hc rfl) h1 _); exact (by split; exacts [h1, (Keeps.ite (fun _ => h1) (fun _ => (Keeps.ite (fun _ => (State.ptpSend_keeps (kS hc rfl) (State.onTb_keeps (kS hc rfl) (State.lockTb_keeps (kS hc rfl) h2 _) _) _ _ _)) (fun _ => h2))))]))

theorem State.gmSend_keeps {c : Nat} (hc : c &&& 0x200 = 0x200) {s0 : State} {s : State} (h : Keeps c s0 s) (a1 : ℕ) (a2 : ℕ) : Keeps c s0 (State.gmSend s a1 a2) := by
  unfold State.gmSend
  exact (Keeps.ite (fun _ => h) (fun _ => (by extract_lets x0_0 x0_1; have h1 : Keeps c s0 x0_1 := (Keeps.ite (fun _ => (State.ptpSend_keeps (kS hc rfl) h _ _ _)) (fun _ => h)); exact (Keeps.ite (fun _ => (State.ptpSend_keeps (kS hc rfl) h1 _ _ _)) (fun _ => h1)))))

theorem State.servoRate_keeps {c : Nat} (hc : c &&& 0x204 = 0x204) {s0 : State} {s : State} (h : Keeps c s0 s) : Keeps c s0 (State.servoRate s) := by
  unfold State.servoRate
  exact (by split; exacts [(by have h0 := Keeps.ofP (by assumption) (State.fresh_keeps (kS hc rfl) h _); exact (State.onTb_keeps (kS hc rfl) h0 _))])

theorem State.loseTb_keeps {c : Nat} (hc : c &&& 0x4243e20 = 0x4243e20) {s0 : State} {s : State} (h : Keeps c s0 s) : Keeps c s0 (State.loseTb s) := by
  unfold State.loseTb
  exact (State.raiseFault_keeps (kS hc rfl) (State.evt_keeps (kS hc rfl) (State.onTb_keeps (kS hc rfl) h _) _ _) _ _ _ _)

theorem State.servo_keeps {c : Nat} (hc : c &&& 0x4243e24 = 0x4243e24) {s0 : State} {s : State} (h : Keeps c s0 s) (a1 : ℤ) : Keeps c s0 (State.servo s a1) := by
  unfold State.servo
  exact (by extract_lets x0_0; exact (by split; exacts [(Keeps.ite (fun _ => (State.lockTb_keeps (kS hc rfl) h _)) (fun _ => (State.onTb_keeps (kS hc rfl) h _))), (State.servoRate_keeps (kS hc rfl) h), (Keeps.ite (fun _ => (Keeps.ite (fun _ => (State.lockTb_keeps (kS hc rfl) h _)) (fun _ => (State.onTb_keeps (kS hc rfl) h _)))) (fun _ => (Keeps.ite (fun _ => (State.evt_keeps (kS hc rfl) (State.onTb_keeps (kS hc rfl) h _) _ _)) (fun _ => (State.loseTb_keeps (kS hc rfl) h))))), h]))

theorem State.gptpSyncReceived_keeps {c : Nat} (hc : c &&& 0x4243e26 = 0x4243e26) {s0 : State} {s : State} (h : Keeps c s0 s) (a0 : ℕ) (a1 : ℕ) (a2 : ℕ) (a3 : ℤ) : Keeps c s0 (State.gptpSyncReceived a0 a1 a2 a3 s) := by
  unfold State.gptpSyncReceived
  exact (by extract_lets x0_0 x0_1; have h1 : Keeps c s0 x0_0 := (State.tick_keeps (kS hc rfl) h _); have h2 : Keeps c s0 x0_1 := (State.ptpSend_keeps (kS hc rfl) (State.onTb_keeps (kS hc rfl) h1 _) _ _ _); exact (Keeps.ite (fun _ => h1) (fun _ => (Keeps.ite (fun _ => (Keeps.ite (fun _ => (State.ptpSend_keeps (kS hc rfl) (State.onTb_keeps (kS hc rfl) h1 _) _ _ _)) (fun _ => h1))) (fun _ => (Keeps.ite (fun _ => h1) (fun _ => (State.servo_keeps (kS hc rfl) h2 _))))))))

theorem State.pdelayExchange_keeps {c : Nat} (hc : c &&& 0x222 = 0x222) {s0 : State} {s : State} (h : Keeps c s0 s) (a0 : ℕ) (a1 : ℕ) (a2 : ℕ) : Keeps c s0 (State.pdelayExchange a0 a1 a2 s) := by
  unfold State.pdelayExchange
  exact (by extract_lets x0_0 x0_1 x0_2 x0_3; have h1 : Keeps c s0 x0_0 := (State.tick_keeps (kS hc rfl) h _); have h2 : Keeps c s0 x0_3 := (State.setBit_keeps (kS hc rfl) (State.wrN_keeps (kS hc rfl) h1 _ _) _ _ _); exact (Keeps.ite (fun _ => h1) (fun _ => (State.onTb_keeps (kS hc rfl) h2 _))))

theorem State.roleLoaded_keeps {c : Nat} (hc : c &&& 0x4000620 = 0x4000620) {s0 : State} {s : State} (h : Keeps c s0 s) (a1 : ℕ) : Keeps c s0 (State.roleLoaded s a1) := by
  unfold State.roleLoaded
  exact (Keeps.ite (fun _ => (State.lockTb_keeps (kS hc rfl) h _)) (fun _ => (Keeps.ite (fun _ => h) (fun _ => (State.onTb_keeps (kS hc rfl) h _)))))

theorem State.slewOut_keeps {c : Nat} (hc : c &&& 0x200 = 0x200) {s0 : State} {s : State} (h : Keeps c s0 s) : Keeps c s0 (State.slewOut s) := by
  unfold State.slewOut
  exact (State.onTb_keeps (kS hc rfl) h _)

theorem State.tbHoldover_keeps {c : Nat} (hc : c &&& 0x222 = 0x222) {s0 : State} {s : State} (h : Keeps c s0 s) (a0 : ℕ) : Keeps c s0 (State.tbHoldover a0 s) := by
  unfold State.tbHoldover
  exact (by extract_lets x0_0; have h1 : Keeps c s0 x0_0 := (State.tick_keeps (kS hc rfl) h _); exact (Keeps.ite (fun _ => h1) (fun _ => (by split; exacts [(State.evt_keeps (kS hc rfl) (State.onTb_keeps (kS hc rfl) h1 _) _ _), (State.onTb_keeps (kS hc rfl) h1 _), (State.onTb_keeps (kS hc rfl) h1 _)]))))

theorem State.tbLost_keeps {c : Nat} (hc : c &&& 0x4243e22 = 0x4243e22) {s0 : State} {s : State} (h : Keeps c s0 s) (a0 : ℕ) : Keeps c s0 (State.tbLost a0 s) := by
  unfold State.tbLost
  exact (by extract_lets x0_0; have h1 : Keeps c s0 x0_0 := (State.tick_keeps (kS hc rfl) h _); exact (Keeps.ite (fun _ => (State.loseTb_keeps (kS hc rfl) h1)) (fun _ => h1)))

theorem State.countError_keeps {c : Nat} (hc : c &&& 0x4243c20 = 0x4243c20) {s0 : State} {s : State} (h : Keeps c s0 s) (a1 : ℕ) : Keeps c s0 (State.countError s a1) := by
  unfold State.countError
  exact (Keeps.ite (fun _ => h) (fun _ => (by extract_lets x0_0 x0_1; exact (Keeps.ite (fun _ => (State.raiseFault_keeps (kS hc rfl) (Keeps.set_flt (kT hc rfl) h _) _ _ _ _)) (fun _ => (Keeps.set_flt (kT hc rfl) h _))))))

theorem State.epochEngineFault_keeps {c : Nat} (hc : c &&& 0x4243c22 = 0x4243c22) {s0 : State} {s : State} (h : Keeps c s0 s) (a0 : ℕ) : Keeps c s0 (State.epochEngineFault a0 s) := by
  unfold State.epochEngineFault
  exact (by extract_lets x0_0; have h1 : Keeps c s0 x0_0 := (State.tick_keeps (kS hc rfl) h _); exact (Keeps.ite (fun _ => (State.raiseFault_keeps (kS hc rfl) h1 _ _ _ _)) (fun _ => h1)))

theorem State.f2HandlerTimeout_keeps {c : Nat} (hc : c &&& 0x1022 = 0x1022) {s0 : State} {s : State} (h : Keeps c s0 s) (a0 : ℕ) : Keeps c s0 (State.f2HandlerTimeout a0 s) := by
  unfold State.f2HandlerTimeout
  exact (by extract_lets x0_0 x0_1 x0_2; have h1 : Keeps c s0 x0_0 := (State.tick_keeps (kS hc rfl) h _); have h2 : Keeps c s0 x0_1 := (State.endHandler_keeps (kS hc rfl) h1 _); exact (Keeps.ite (fun _ => (Keeps.set_flt (kT hc rfl) h2 _)) (fun _ => h1)))

theorem State.faultAck_keeps {c : Nat} (hc : c &&& 0x1020 = 0x1020) {s0 : State} {s : State} (h : Keeps c s0 s) (a0 : ℕ) : Keeps c s0 (State.faultAck a0 s) := by
  unfold State.faultAck
  exact (by extract_lets x0_0 x0_1; have h4 : Keeps c s0 x0_0 := (Keeps.foldl (fun _ _ h1 => (Keeps.ite (fun _ => (by extract_lets x2_0; have h3 : Keeps c s0 x2_0 := (State.setBit_keeps (kS hc rfl) h1 _ _ _); exact (Keeps.ite (fun _ => (State.endHandler_keeps (kS hc rfl) h3 _)) (fun _ => h3)))) (fun _ => h1))) _ h); exact (Keeps.ite (fun _ => (Keeps.set_flt (kT hc rfl) h4 _)) (fun _ => h4)))

theorem State.frameDieReset_keeps {c : Nat} (hc : c &&& 0x7f7ffb2 = 0x7f7ffb2) {s0 : State} {s : State} (h : Keeps c s0 s) (a0 : ℕ) : Keeps c s0 (State.frameDieReset a0 s) := by
  unfold State.frameDieReset
  exact (by extract_lets x0_0 x0_1; have h1 : Keeps c s0 x0_0 := (State.tick_keeps (kS hc rfl) h _); have h2 : Keeps c s0 x0_1 := (State.dieReset_keeps (kS hc rfl) h1 _); exact (Keeps.ite (fun _ => (Keeps.set_mode (kT hc rfl) h2 _)) (fun _ => h1)))

theorem State.memoryErrorDetected_keeps {c : Nat} (hc : c &&& 0x4243c22 = 0x4243c22) {s0 : State} {s : State} (h : Keeps c s0 s) (a0 : ℕ) (a1 : ℕ) (a2 : Bool) : Keeps c s0 (State.memoryErrorDetected a0 a1 a2 s) := by
  unfold State.memoryErrorDetected
  exact (by extract_lets x0_0; have h1 : Keeps c s0 x0_0 := (State.tick_keeps (kS hc rfl) h _); exact (Keeps.ite (fun _ => h1) (fun _ => (by split; exacts [(State.raiseFault_keeps (kS hc rfl) h1 _ _ _ _), (State.raiseFault_keeps (kS hc rfl) h1 _ _ _ _), (State.countError_keeps (kS hc rfl) (State.raiseFault_keeps (kS hc rfl) h1 _ _ _ _) _), (State.raiseFault_keeps (kS hc rfl) h1 _ _ _ _)]))))

theorem State.sense_keeps {c : Nat} (hc : c &&& 0x800020 = 0x800020) {s0 : State} {s : State} (h : Keeps c s0 s) (a1 : ℕ) (a2 : ℕ) (a3 : ℕ) : Keeps c s0 (State.sense s a1 a2 a3) := by
  unfold State.sense
  exact (by extract_lets x0_0; have h1 : Keeps c s0 x0_0 := (State.wrN_keeps (kS hc rfl) h _ _); exact (Keeps.ite (fun _ => h1) (fun _ => (State.onPw_keeps (kS hc rfl) h1 _))))

theorem State.powerTrip_keeps {c : Nat} (hc : c &&& 0x4a43c22 = 0x4a43c22) {s0 : State} {s : State} (h : Keeps c s0 s) (a0 : ℕ) (a1 : ℕ) (a2 : ℕ) : Keeps c s0 (State.powerTrip a0 a1 a2 s) := by
  unfold State.powerTrip
  exact (by extract_lets x0_0 x0_1 x0_2; have h1 : Keeps c s0 x0_0 := (State.tick_keeps (kS hc rfl) h _); have h2 : Keeps c s0 x0_1 := (State.sense_keeps (kS hc rfl) h1 _ _ _); have h3 : Keeps c s0 x0_2 := (State.onPw_keeps (kS hc rfl) (State.evt_keeps (kS hc rfl) (State.setBit_keeps (kS hc rfl) h2 _ _ _) _ _) _); exact (Keeps.ite (fun _ => h1) (fun _ => (Keeps.ite (fun _ => h2) (fun _ => (State.raiseFault_keeps (kS hc rfl) h3 _ _ _ _))))))

theorem State.refclkFailure_keeps {c : Nat} (hc : c &&& 0x4243c22 = 0x4243c22) {s0 : State} {s : State} (h : Keeps c s0 s) (a0 : ℕ) : Keeps c s0 (State.refclkFailure a0 s) := by
  unfold State.refclkFailure
  exact (by extract_lets x0_0; have h1 : Keeps c s0 x0_0 := (State.tick_keeps (kS hc rfl) h _); exact (Keeps.ite (fun _ => (State.raiseFault_keeps (kS hc rfl) h1 _ _ _ _)) (fun _ => h1)))

theorem State.secondFaultClear_keeps {c : Nat} (hc : c &&& 0x20 = 0x20) {s0 : State} {s : State} (h : Keeps c s0 s) : Keeps c s0 (State.secondFaultClear s) := by
  unfold State.secondFaultClear
  exact (State.setFld_keeps (kS hc rfl) (State.wrN_keeps (kS hc rfl) (State.wrN_keeps (kS hc rfl) (State.wrN_keeps (kS hc rfl) (State.wrN_keeps (kS hc rfl) h _ _) _ _) _ _) _ _) _ _ _ _)

theorem State.tamperDetected_keeps {c : Nat} (hc : c &&& 0x53c3c22 = 0x53c3c22) {s0 : State} {s : State} (h : Keeps c s0 s) (a0 : ℕ) (a1 : ℕ) : Keeps c s0 (State.tamperDetected a0 a1 s) := by
  unfold State.tamperDetected
  exact (by extract_lets x0_0 x0_1 x0_2 x0_3 x0_4; have h1 : Keeps c s0 x0_0 := (State.tick_keeps (kS hc rfl) h _); have h2 : Keeps c s0 x0_2 := (State.tamperErase_keeps (kS hc rfl) h1 _ _); have h3 : Keeps c s0 x0_3 := (State.onKs_keeps (kS hc rfl) h2 _); have h4 : Keeps c s0 x0_4 := (State.tamperClear_keeps (kS hc rfl) h2); exact (Keeps.ite (fun _ => h1) (fun _ => (Keeps.ite (fun _ => (Keeps.ite (fun _ => (State.onSill_keeps (kS hc rfl) h3 _)) (fun _ => h3))) (fun _ => (by split; exacts [(State.notice_keeps (kS hc rfl) h4 _ _ _), (State.raiseFault_keeps (kS hc rfl) (State.onFr_keeps (kS hc rfl) h4 _) _ _ _ _), (State.raiseFault_keeps (kS hc rfl) h4 _ _ _ _)]))))))

theorem State.tripClear_keeps {c : Nat} (hc : c &&& 0x800022 = 0x800022) {s0 : State} {s : State} (h : Keeps c s0 s) (a0 : ℕ) (a1 : ℕ) (a2 : ℕ) : Keeps c s0 (State.tripClear a0 a1 a2 s) := by
  unfold State.tripClear
  exact (by extract_lets x0_0 x0_1; have h1 : Keeps c s0 x0_0 := (State.tick_keeps (kS hc rfl) h _); have h2 : Keeps c s0 x0_1 := (State.sense_keeps (kS hc rfl) h1 _ _ _); exact (Keeps.ite (fun _ => h1) (fun _ => (Keeps.ite (fun _ => (State.evt_keeps (kS hc rfl) (State.setBit_keeps (kS hc rfl) h2 _ _ _) _ _)) (fun _ => h2)))))

theorem State.ackGot_keeps {c : Nat} (hc : c &&& 0x200000 = 0x200000) {s0 : State} {s : State} (h : Keeps c s0 s) (a1 : ℕ) : Keeps c s0 (State.ackGot s a1) := by
  unfold State.ackGot
  exact (Keeps.ite (fun _ => h) (fun _ => (State.onTw_keeps (kS hc rfl) h _)))

theorem State.cbEpoch_keeps {c : Nat} (hc : c &&& 0x40 = 0x40) {s0 : State} {s : State} (h : Keeps c s0 s) : Keeps c s0 (State.cbEpoch s) := by
  unfold State.cbEpoch
  exact (Keeps.foldl (fun _ _ h0 => (Keeps.ite (fun _ => h0) (fun _ => (State.memWN_keeps (kS hc rfl) h0 _ _ _)))) _ h)

theorem State.cbGenerate_keeps {c : Nat} (hc : c &&& 0x40 = 0x40) {s0 : State} {s : State} (h : Keeps c s0 s) (a1 : ℕ) : KeepsP c s0 (State.cbGenerate s a1) := by
  unfold State.cbGenerate
  exact (by extract_lets x0_0; exact (Keeps.mkP (State.memWN_keeps (kS hc rfl) h _ _ _)))

theorem State.cbPass_keeps {c : Nat} (hc : c &&& 0x40 = 0x40) {s0 : State} {s : State} (h : Keeps c s0 s) (a1 : ℕ) (a2 : ℕ) (a3 : ℕ) : Keeps c s0 (State.cbPass s a1 a2 a3) := by
  unfold State.cbPass
  exact (by extract_lets x0_0; exact (State.memWN_keeps (kS hc rfl) (State.memWN_keeps (kS hc rfl) (State.memWN_keeps (kS hc rfl) (State.memWN_keeps (kS hc rfl) h _ _ _) _ _ _) _ _ _) _ _ _))

theorem State.cbReset_keeps {c : Nat} (hc : c &&& 0x40 = 0x40) {s0 : State} {s : State} (h : Keeps c s0 s) (a1 : ℕ) : Keeps c s0 (State.cbReset s a1) := by
  unfold State.cbReset
  exact (State.memWN_keeps (kS hc rfl) (State.memWN_keeps (kS hc rfl) h _ _ _) _ _ _)

theorem State.cbRecover_keeps {c : Nat} (hc : c &&& 0x40 = 0x40) {s0 : State} {s : State} (h : Keeps c s0 s) (a1 : ℕ) (a2 : ℕ) (a3 : ℕ) (a4 : ℕ) (a5 : Bool) : KeepsP c s0 (State.cbRecover s a1 a2 a3 a4 a5) := by
  unfold State.cbRecover
  exact (by extract_lets x0_0 x0_1 x0_2 x0_3 x0_4 x0_5; have h1 : Keeps c s0 x0_1 := (Keeps.ite (fun _ => (State.cbReset_keeps (kS hc rfl) h _)) (fun _ => h)); have h2 : KeepsP c s0 x0_5 := (Keeps.mkP (State.memWN_keeps (kS hc rfl) h1 _ _ _)); exact (Keeps.iteP (fun _ => (Keeps.mkP (State.cbPass_keeps (kS hc rfl) h1 _ _ _))) (fun _ => (Keeps.iteP (fun _ => (Keeps.iteP (fun _ => h2) (fun _ => (Keeps.mkP (State.cbPass_keeps (kS hc rfl) h1 _ _ _))))) (fun _ => (Keeps.iteP (fun _ => h2) (fun _ => (Keeps.iteP (fun _ => (Keeps.iteP (fun _ => h2) (fun _ => (Keeps.mkP (State.cbPass_keeps (kS hc rfl) h1 _ _ _))))) (fun _ => (Keeps.mkP (State.cbPass_keeps (kS hc rfl) h1 _ _ _)))))))))))

theorem State.cbRecoveryReset_keeps {c : Nat} (hc : c &&& 0x40 = 0x40) {s0 : State} {s : State} (h : Keeps c s0 s) (a0 : ℕ) : Keeps c s0 (State.cbRecoveryReset a0 s) := by
  unfold State.cbRecoveryReset
  exact (Keeps.ite (fun _ => (State.cbReset_keeps (kS hc rfl) h _)) (fun _ => h))

theorem State.restoreRegions_keeps {c : Nat} (hc : c &&& 0x4373ce0 = 0x4373ce0) {s0 : State} {s : State} (h : Keeps c s0 s) : Keeps c s0 (State.restoreRegions s) := by
  unfold State.restoreRegions
  extract_lets todo g s1 s2 s3 s4 s5 tn
  have hg (i : Nat) (f : State → Octets → State) (t : State) (hf : ∀ s x, Keeps c s0 s → Keeps c s0 (f s x)) (k : Keeps c s0 t) : Keeps c s0 (g i f t) := by
    show Keeps c s0 (match assoc t.fr.sects i with | some x => f t x | none => t)
    split
    · exact hf _ _ k
    · exact k
  clear_value g
  have h1 : Keeps c s0 s1 := Keeps.ite (fun _ => hg TB0 (fun s x => (s.tbLoad x).getD s) _ (fun _ _ h => Keeps.getD (State.tbLoad_keeps (kS hc rfl) h _) h) h) (fun _ => h)
  have h2 : Keeps c s0 s2 := Keeps.ite (fun _ => hg GB0 State.gwLoad _ (fun _ _ h => State.gwLoad_keeps (kS hc rfl) h _) h1) (fun _ => h1)
  have h3 : Keeps c s0 s3 := Keeps.ite (fun _ => hg SB0 State.sbLoad _ (fun _ _ h => State.sbLoad_keeps (kS hc rfl) h _) h2) (fun _ => h2)
  have h4 : Keeps c s0 s4 := Keeps.ite (fun _ => hg KB0 State.kbLoad _ (fun _ _ h => State.kbLoad_keeps (kS hc rfl) h _) h3) (fun _ => h3)
  have h5 : Keeps c s0 s5 := Keeps.ite (fun _ => State.memClear_keeps (kS hc rfl) h4 _ _) (fun _ => h4)
  have ht (k : Nat) (t : State) (x : Octets) (h : Keeps c s0 t) : Keeps c s0 (tn k t x) := Keeps.foldl (fun _ _ h => State.loadTenon_keeps (kS hc rfl) h _ _) _ h
  clear_value tn
  refine Keeps.ite (fun _ => hg PB0 State.pbLoad _ (fun _ _ h => State.pbLoad_keeps (kS hc rfl) h _) ?_) (fun _ => h5)
  exact Keeps.foldl (fun s k h => hg k (tn k) s (ht k) h) _ h5

theorem State.twEvt_keeps {c : Nat} (hc : c &&& 0x20 = 0x20) {s0 : State} {s : State} (h : Keeps c s0 s) (a1 : ℕ) : Keeps c s0 (State.twEvt s a1) := by
  unfold State.twEvt
  exact (State.evt_keeps (kS hc rfl) h _ _)

theorem State.coldTakeover_keeps {c : Nat} (hc : c &&& 0x5373ce0 = 0x5373ce0) {s0 : State} {s : State} (h : Keeps c s0 s) (a1 : ℕ) : Keeps c s0 (State.coldTakeover s a1) := by
  unfold State.coldTakeover
  exact (by extract_lets x0_0 x0_1 x0_2; have h1 : Keeps c s0 x0_1 := (Keeps.ite (fun _ => (State.takeLease_keeps (kS hc rfl) h _ _)) (fun _ => h)); have h2 : Keeps c s0 x0_2 := (State.raiseFault_keeps (kS hc rfl) (State.onTw_keeps (kS hc rfl) (State.restoreRegions_keeps (kS hc rfl) h1) _) _ _ _ _); exact (Keeps.ite (fun _ => (State.inc_keeps (kS hc rfl) (State.twEvt_keeps (kS hc rfl) h2 _) _ _)) (fun _ => h2)))

theorem State.copyStore_keeps {c : Nat} (hc : c &&& 0x60 = 0x60) {s0 : State} {s : State} (h : Keeps c s0 s) (a1 : State) (a2 : ℕ) : Keeps c s0 (State.copyStore s a1 a2) := by
  unfold State.copyStore
  exact (by extract_lets x0_0 x0_1 x0_2; have h2 : Keeps c s0 x0_2 := (Keeps.foldl (fun _ _ h1 => (State.memW_keeps (kS hc rfl) h1 _ _)) _ (State.memClear_keeps (kS hc rfl) h _ _)); exact (Keeps.foldl (fun _ _ h3 => (State.wr_keeps (kS hc rfl) h3 _ _)) _ (Keeps.set_regs (kT hc rfl) h2 _ (fun h => List.Pairwise.filter _ h))))

theorem State.copyTenons_keeps {c : Nat} (hc : c &&& 0xa020 = 0xa020) {s0 : State} {s : State} (h : Keeps c s0 s) (a1 : State) (a2 : List ℕ) : Keeps c s0 (State.copyTenons s a1 a2) := by
  unfold State.copyTenons
  exact (by extract_lets x0_0; have h2 : Keeps c s0 x0_0 := (Keeps.foldl (fun _ _ h1 => (State.setBit_keeps (kS hc rfl) h1 _ _ _)) _ h); exact (Keeps.mk' h2 (Nat.le_refl _) (Nat.le_refl _) id id (fun h => by first | simpa using h | exact (List.length_map _).trans h) id (fun h => by first | simpa using h | exact (List.length_map _).trans h) kO kO kO kO kO kO kO kO kO kO kO (kL hc) kO (kL hc) kO kO kO kO kO kO kO kO kO kO kO))

theorem State.copyUnit_keeps {c : Nat} (hc : c &&& 0xc81820 = 0xc81820) {s0 : State} {s : State} (h : Keeps c s0 s) (a1 : State) : Keeps c s0 (State.copyUnit s a1) := by
  unfold State.copyUnit
  exact (by extract_lets x0_0 x0_1 x0_2 x0_3 x0_4; have h2 : Keeps c s0 x0_0 := (Keeps.foldl (fun _ _ h1 => (State.wrN_keeps (kS hc rfl) h1 _ _)) _ h); exact (Keeps.mk' h2 (Nat.le_refl _) (Nat.le_refl _) id id id id id kO kO kO kO kO kO kO kO kO (kL hc) (kL hc) kO kO kO kO kO kO (kL hc) kO kO (kL hc) (kL hc) kO kO kO))

theorem State.copyRegion_keeps {c : Nat} (hc : c &&& 0xcfb860 = 0xcfb860) {s0 : State} {s : State} (h : Keeps c s0 s) (a1 : State) (a2 : ℕ) : Keeps c s0 (State.copyRegion s a1 a2) := by
  unfold State.copyRegion
  exact (by extract_lets x0_0; have h1 : Keeps c s0 x0_0 := (State.copyStore_keeps (kS hc rfl) h _ _); exact (by split; exacts [(Keeps.set_tab (kT hc rfl) h1 _), (Keeps.set_gw (kT hc rfl) h1 _), (Keeps.set_sch (kT hc rfl) h1 _), (State.copyTenons_keeps (kS hc rfl) h1 _ _), (State.copyUnit_keeps (kS hc rfl) h1 _), h1]))

theorem State.demoteNow_keeps {c : Nat} (hc : c &&& 0x200030 = 0x200030) {s0 : State} {s : State} (h : Keeps c s0 s) : Keeps c s0 (State.demoteNow s) := by
  unfold State.demoteNow
  exact (Keeps.ite (fun _ => h) (fun _ => (State.onTw_keeps (kS hc rfl) (by extract_lets x0_0; have h1 : Keeps c s0 x0_0 := (State.leaveHold_keeps (kS hc rfl) h); exact (Keeps.set_mode (kT hc rfl) h1 _)) _)))

theorem State.enterShadow_keeps {c : Nat} (hc : c &&& 0x4ec3c70 = 0x4ec3c70) {s0 : State} {s : State} (h : Keeps c s0 s) (a1 : ℕ) : Keeps c s0 (State.enterShadow s a1) := by
  unfold State.enterShadow
  exact (by extract_lets x0_0 x0_1; have h1 : Keeps c s0 x0_0 := (State.beginService_keeps (kS hc rfl) h _ _ _); exact (State.setFld_keeps (kS hc rfl) (Keeps.mk' h1 (Nat.le_refl _) (Nat.le_refl _) id id id id id kO kO kO kO kO kO kO kO (kL hc) (kL hc) kO kO kO kO kO kO kO kO kO kO kO kO kO kO (kL hc)) _ _ _ _))

theorem State.enterStep_keeps {c : Nat} (hc : c &&& 0x4200420 = 0x4200420) {s0 : State} {s : State} (h : Keeps c s0 s) : Keeps c s0 (State.enterStep s) := by
  unfold State.enterStep
  exact (by extract_lets x0_0 x0_1 x0_2 x0_3; have h1 : Keeps c s0 x0_0 := (State.setBit_keeps (kS hc rfl) (State.twEvt_keeps (kS hc rfl) h _) _ _ _); have h2 : Keeps c s0 x0_1 := (State.setFld_keeps (kS hc rfl) h1 _ _ _ _); have h3 : Keeps c s0 x0_3 := (State.onTw_keeps (kS hc rfl) h2 _); exact (Keeps.ite (fun _ => h3) (fun _ => (State.onEp_keeps (kS hc rfl) h3 _))))

theorem State.fenceTimerFire_keeps {c : Nat} (hc : c &&& 0x1202022 = 0x1202022) {s0 : State} {s : State} (h : Keeps c s0 s) (a0 : ℕ) : Keeps c s0 (State.fenceTimerFire a0 s) := by
  unfold State.fenceTimerFire
  exact (by extract_lets x0_0 x0_1 x0_2 x0_3 x0_4; have h1 : Keeps c s0 x0_0 := (State.tick_keeps (kS hc rfl) h _); have h2 : Keeps c s0 x0_3 := (Keeps.mk' h1 (Nat.le_refl _) (Nat.le_refl _) id id (fun h => by first | simpa using h | exact (List.length_map _).trans h) id id kO kO kO kO kO kO kO kO kO kO kO (kL hc) kO kO kO kO kO kO kO kO kO kO (kL hc) kO kO); have h3 : Keeps c s0 x0_4 := (State.onTw_keeps (kS hc rfl) h2 _); exact (by split; exacts [(Keeps.ite (fun _ => h1) (fun _ => (Keeps.ite (fun _ => (State.inc_keeps (kS hc rfl) (State.twEvt_keeps (kS hc rfl) h3 _) _ _)) (fun _ => h3)))), h1]))

theorem State.handoverCommand_keeps {c : Nat} (hc : c &&& 0x200000 = 0x200000) {s0 : State} {s : State} (h : Keeps c s0 s) (a0 : ℕ) : Keeps c s0 (State.handoverCommand a0 s) := by
  unfold State.handoverCommand
  exact (Keeps.ite (fun _ => (State.onTw_keeps (kS hc rfl) h _)) (fun _ => h))

theorem State.letGo_keeps {c : Nat} (hc : c &&& 0x2000 = 0x2000) {s0 : State} {s : State} (h : Keeps c s0 s) (a1 : ℕ) : Keeps c s0 (State.letGo s a1) := by
  unfold State.letGo
  exact (Keeps.ite (fun _ => (State.onMort_keeps (kS hc rfl) h _ _)) (fun _ => h))

theorem State.handoverEffect_keeps {c : Nat} (hc : c &&& 0x1202432 = 0x1202432) {s0 : State} {s : State} (h : Keeps c s0 s) (a0 : ℕ) : Keeps c s0 (State.handoverEffect a0 s) := by
  unfold State.handoverEffect
  exact (Keeps.ite (fun _ => h) (fun _ => (by extract_lets x0_0 x0_1 x0_2; have h1 : Keeps c s0 x0_0 := (State.onTw_keeps (kS hc rfl) h _); have h2 : Keeps c s0 x0_1 := (State.twEvt_keeps (kS hc rfl) (State.onTw_keeps (kS hc rfl) (Keeps.set_mode (kT hc rfl) h1 _) _) _); have h3 : Keeps c s0 x0_2 := (State.onTw_keeps (kS hc rfl) (State.takeLease_keeps (kS hc rfl) (Keeps.set_mode (kT hc rfl) h1 _) _ _) _); exact (Keeps.ite (fun _ => (Keeps.foldl (fun _ _ h4 => (State.letGo_keeps (kS hc rfl) h4 _)) _ (State.inc_keeps (kS hc rfl) h2 _ _))) (fun _ => (Keeps.ite (fun _ => (beginDriving_keeps (kS hc rfl) (State.inc_keeps (kS hc rfl) (State.twEvt_keeps (kS hc rfl) h3 _) _ _) _)) (fun _ => h1)))))))

theorem State.renewalGot_keeps {c : Nat} (hc : c &&& 0x200420 = 0x200420) {s0 : State} {s : State} (h : Keeps c s0 s) (a1 : ℕ) : Keeps c s0 (State.renewalGot s a1) := by
  unfold State.renewalGot
  exact (Keeps.ite (fun _ => h) (fun _ => (by extract_lets x0_0; have h1 : Keeps c s0 x0_0 := (State.onTw_keeps (kS hc rfl) h _); exact (by split; exacts [(State.onTw_keeps (kS hc rfl) (State.leaveGuar_keeps (kS hc rfl) h1 _) _), h1]))))

theorem State.measure_keeps {c : Nat} (hc : c &&& 0x200020 = 0x200020) {s0 : State} {s : State} (h : Keeps c s0 s) (a1 : ℤ) : Keeps c s0 (State.measure s a1) := by
  unfold State.measure
  exact (by extract_lets x0_0 x0_1 x0_2; have h1 : Keeps c s0 x0_2 := (State.wrN_keeps (kS hc rfl) (State.wrN_keeps (kS hc rfl) h _ _) _ _); exact (State.onTw_keeps (kS hc rfl) h1 _))

theorem State.staleGot_keeps {c : Nat} (hc : c &&& 0x202020 = 0x202020) {s0 : State} {s : State} (h : Keeps c s0 s) (a1 : ℕ) : Keeps c s0 (State.staleGot s a1) := by
  unfold State.staleGot
  exact (Keeps.ite (fun _ => h) (fun _ => (by extract_lets x0_0 x0_1; have h1 : Keeps c s0 x0_1 := (State.onTw_keeps (kS hc rfl) h _); exact (State.inc_keeps (kS hc rfl) (State.twEvt_keeps (kS hc rfl) (State.stopDriving_keeps (kS hc rfl) h1) _) _ _))))

theorem State.heartbeatReceived_keeps {c : Nat} (hc : c &&& 0x202422 = 0x202422) {s0 : State} {s : State} (h : Keeps c s0 s) (a0 : ℕ) (a1 : Heartbeat) : Keeps c s0 (State.heartbeatReceived a0 a1 s) := by
  unfold State.heartbeatReceived
  exact (by extract_lets x0_0 x0_1 x0_2 x0_3 x0_4 x0_5; have h1 : Keeps c s0 x0_0 := (State.tick_keeps (kS hc rfl) h _); have h2 : Keeps c s0 x0_2 := (State.onTw_keeps (kS hc rfl) h1 _); have h3 : Keeps c s0 x0_3 := (Keeps.ite (fun _ => (State.onTw_keeps (kS hc rfl) (State.renewalGot_keeps (kS hc rfl) h2 _) _)) (fun _ => h2)); have h4 : Keeps c s0 x0_4 := (Keeps.ite (fun _ => (State.ackGot_keeps (kS hc rfl) h3 _)) (fun _ => h3)); have h5 : Keeps c s0 x0_5 := (by unfold x0_5; clear_value x0_1; split; exacts [(Keeps.ite (fun _ => (State.measure_keeps (kS hc rfl) h4 _)) (fun _ => h4)), h4]); exact (Keeps.ite (fun _ => h1) (fun _ => (State.staleGot_keeps (kS hc rfl) h5 _))))

theorem State.renewFrom_keeps {c : Nat} (hc : c &&& 0x200000 = 0x200000) {s0 : State} {s : State} (h : Keeps c s0 s) (a1 : ℕ) : Keeps c s0 (State.renewFrom s a1) := by
  unfold State.renewFrom
  exact (Keeps.ite (fun _ => (State.onTw_keeps (kS hc rfl) h _)) (fun _ => h))

theorem State.heartbeatSend_keeps {c : Nat} (hc : c &&& 0x200002 = 0x200002) {s0 : State} {s : State} (h : Keeps c s0 s) (a0 : ℕ) : Keeps c s0 (State.heartbeatSend a0 s) := by
  unfold State.heartbeatSend
  exact (by extract_lets x0_0 x0_1 x0_2; have h1 : Keeps c s0 x0_0 := (State.tick_keeps (kS hc rfl) h _); have h2 : Keeps c s0 x0_2 := (State.renewFrom_keeps (kS hc rfl) h1 _); exact (Keeps.ite (fun _ => h1) (fun _ => (State.onTw_keeps (kS hc rfl) h2 _))))

theorem State.leaseExpiry_keeps {c : Nat} (hc : c &&& 0x202022 = 0x202022) {s0 : State} {s : State} (h : Keeps c s0 s) (a0 : ℕ) : Keeps c s0 (State.leaseExpiry a0 s) := by
  unfold State.leaseExpiry
  exact (by extract_lets x0_0; have h1 : Keeps c s0 x0_0 := (State.tick_keeps (kS hc rfl) h _); exact (Keeps.ite (fun _ => h1) (fun _ => (Keeps.ite (fun _ => (Keeps.ite (fun _ => (State.onTw_keeps (kS hc rfl) h1 _)) (fun _ => (State.selfFence_keeps (kS hc rfl) h1)))) (fun _ => (Keeps.ite (fun _ => (State.inc_keeps (kS hc rfl) (State.twEvt_keeps (kS hc rfl) (State.stopDriving_keeps (kS hc rfl) (State.onTw_keeps (kS hc rfl) h1 _)) _) _ _)) (fun _ => h1)))))))

theorem State.leaseOverride_keeps {c : Nat} (hc : c &&& 0x1200002 = 0x1200002) {s0 : State} {s : State} (h : Keeps c s0 s) (a0 : ℕ) (a1 : ℕ) : Keeps c s0 (State.leaseOverride a0 a1 s) := by
  unfold State.leaseOverride
  exact (by extract_lets x0_0; have h1 : Keeps c s0 x0_0 := (State.tick_keeps (kS hc rfl) h _); exact (Keeps.ite (fun _ => (State.takeLease_keeps (kS hc rfl) h1 _ _)) (fun _ => h1)))

theorem State.pairDegrade_keeps {c : Nat} (hc : c &&& 0x200422 = 0x200422) {s0 : State} {s : State} (h : Keeps c s0 s) (a0 : ℕ) : Keeps c s0 (State.pairDegrade a0 s) := by
  unfold State.pairDegrade
  exact (by extract_lets x0_0 x0_1; have h1 : Keeps c s0 x0_0 := (State.tick_keeps (kS hc rfl) h _); have h2 : Keeps c s0 x0_1 := (State.onTw_keeps (kS hc rfl) (State.inc_keeps (kS hc rfl) (State.evt_keeps (kS hc rfl) (State.setBit_keeps (kS hc rfl) h1 _ _ _) _ _) _ _) _); exact (Keeps.ite (fun _ => h1) (fun _ => (Keeps.ite (fun _ => (State.onTw_keeps (kS hc rfl) (State.leaveGuar_keeps (kS hc rfl) h2 _) _)) (fun _ => h2)))))

theorem State.pairingExchange_keeps {c : Nat} (hc : c &&& 0x4ec3c72 = 0x4ec3c72) {s0 : State} {s : State} (h : Keeps c s0 s) (a0 : ℕ) (a1 : PairRec) : Keeps c s0 (State.pairingExchange a0 a1 s) := by
  unfold State.pairingExchange
  exact (by extract_lets x0_0 x0_1 x0_2 x0_3 x0_4 x0_5 x0_6 x0_7; have h1 : Keeps c s0 x0_0 := (State.tick_keeps (kS hc rfl) h _); have h2 : Keeps c s0 x0_3 := (State.onTw_keeps (kS hc rfl) h1 _); have h3 : Keeps c s0 x0_5 := (State.onTw_keeps (kS hc rfl) h2 _); have h4 : Keeps c s0 x0_6 := (State.twEvt_keeps (kS hc rfl) h3 _); have h5 : Keeps c s0 x0_7 := (State.setBit_keeps (kS hc rfl) h3 _ _ _); exact (Keeps.ite (fun _ => h1) (fun _ => (Keeps.ite (fun _ => (Keeps.ite (fun _ => (State.evt_keeps (kS hc rfl) (State.setBit_keeps (kS hc rfl) h4 _ _ _) _ _)) (fun _ => h4))) (fun _ => (Keeps.ite (fun _ => (State.onTw_keeps (kS hc rfl) h5 _)) (fun _ => (Keeps.ite (fun _ => (State.enterShadow_keeps (kS hc rfl) h5 _)) (fun _ => h5)))))))))

theorem State.pairwaitExpiry_keeps {c : Nat} (hc : c &&& 0x4ec3c72 = 0x4ec3c72) {s0 : State} {s : State} (h : Keeps c s0 s) (a0 : ℕ) : Keeps c s0 (State.pairwaitExpiry a0 s) := by
  unfold State.pairwaitExpiry
  exact (by extract_lets x0_0 x0_1 x0_2 x0_3; have h1 : Keeps c s0 x0_0 := (State.tick_keeps (kS hc rfl) h _); have h2 : Keeps c s0 x0_1 := (State.onTw_keeps (kS hc rfl) h1 _); have h3 : Keeps c s0 x0_3 := (Keeps.ite (fun _ => (State.holdFromRaise_keeps (kS hc rfl) h2 _ _)) (fun _ => (Keeps.set_flt (kT hc rfl) h2 _))); exact (Keeps.ite (fun _ => h1) (fun _ => (State.onTw_keeps (kS hc rfl) h3 _))))

theorem State.pathDown_keeps {c : Nat} (hc : c &&& 0x4243c22 = 0x4243c22) {s0 : State} {s : State} (h : Keeps c s0 s) (a0 : ℕ) (a1 : Bool) : Keeps c s0 (State.pathDown a0 a1 s) := by
  unfold State.pathDown
  exact (by extract_lets x0_0 x0_1; have h1 : Keeps c s0 x0_0 := (State.tick_keeps (kS hc rfl) h _); have h2 : Keeps c s0 x0_1 := (State.onTw_keeps (kS hc rfl) h1 _); exact (Keeps.ite (fun _ => h1) (fun _ => (State.notice_keeps (kS hc rfl) (State.inc_keeps (kS hc rfl) (State.twEvt_keeps (kS hc rfl) h2 _) _ _) _ _ _))))

theorem State.pathUp_keeps {c : Nat} (hc : c &&& 0x200022 = 0x200022) {s0 : State} {s : State} (h : Keeps c s0 s) (a0 : ℕ) (a1 : Bool) : Keeps c s0 (State.pathUp a0 a1 s) := by
  unfold State.pathUp
  exact (by extract_lets x0_0; have h1 : Keeps c s0 x0_0 := (State.tick_keeps (kS hc rfl) h _); exact (Keeps.ite (fun _ => h1) (fun _ => (State.twEvt_keeps (kS hc rfl) (State.onTw_keeps (kS hc rfl) h1 _) _))))

theorem State.resyncAbandon_keeps {c : Nat} (hc : c &&& 0x200022 = 0x200022) {s0 : State} {s : State} (h : Keeps c s0 s) (a0 : ℕ) : Keeps c s0 (State.resyncAbandon a0 s) := by
  unfold State.resyncAbandon
  exact (by extract_lets x0_0; have h1 : Keeps c s0 x0_0 := (State.tick_keeps (kS hc rfl) h _); exact (Keeps.ite (fun _ => h1) (fun _ => (State.inc_keeps (kS hc rfl) (State.twEvt_keeps (kS hc rfl) (State.onTw_keeps (kS hc rfl) h1 _) _) _ _))))

theorem State.resyncJoin_keeps {c : Nat} (hc : c &&& 0x4200422 = 0x4200422) {s0 : State} {s : State} (h : Keeps c s0 s) (a0 : ℕ) (a1 : ℕ) : Keeps c s0 (State.resyncJoin a0 a1 s) := by
  unfold State.resyncJoin
  exact (by extract_lets x0_0 x0_1 x0_2; have h1 : Keeps c s0 x0_0 := (State.tick_keeps (kS hc rfl) h _); have h2 : Keeps c s0 x0_2 := (Keeps.ite (fun _ => h1) (fun _ => (State.onEp_keeps (kS hc rfl) h1 _))); exact (Keeps.ite (fun _ => h1) (fun _ => (Keeps.ite (fun _ => (Keeps.ite (fun _ => (State.onTw_keeps (kS hc rfl) h1 _)) (fun _ => h1))) (fun _ => (Keeps.ite (fun _ => (State.onTw_keeps (kS hc rfl) (State.setFld_keeps (kS hc rfl) (State.onEp_keeps (kS hc rfl) h2 _) _ _ _ _) _)) (fun _ => h1)))))))

theorem State.resyncRegionCommit_keeps {c : Nat} (hc : c &&& 0x4efbc66 = 0x4efbc66) {s0 : State} {s : State} (h : Keeps c s0 s) (a0 : ℕ) (a1 : ℕ) : Keeps c s0 (State.resyncRegionCommit a0 a1 s) := by
  unfold State.resyncRegionCommit
  exact (by extract_lets x0_0 x0_1 x0_2 x0_3 x0_4 x0_5 x0_6; have h1 : Keeps c s0 x0_0 := (State.tick_keeps (kS hc rfl) h _); have h3 : Keeps c s0 x0_4 := (Keeps.ite (fun _ => (Keeps.foldl (fun _ _ h2 => (State.copyRegion_keeps (kS hc rfl) h2 _ _)) _ (Keeps.set_free (kT hc rfl) h1 _ (Nat.le_add_right _ _)))) (fun _ => h1)); have h4 : Keeps c s0 x0_5 := (State.setBit_keeps (kS hc rfl) h3 _ _ _); have h5 : Keeps c s0 x0_6 := (State.onTw_keeps (kS hc rfl) h4 _); exact (Keeps.ite (fun _ => h1) (fun _ => (Keeps.ite (fun _ => (State.onEp_keeps (kS hc rfl) h5 _)) (fun _ => h5)))))

theorem State.resyncStart_keeps {c : Nat} (hc : c &&& 0x200022 = 0x200022) {s0 : State} {s : State} (h : Keeps c s0 s) (a0 : ℕ) : Keeps c s0 (State.resyncStart a0 s) := by
  unfold State.resyncStart
  exact (by extract_lets x0_0 x0_1 x0_2; have h1 : Keeps c s0 x0_0 := (State.tick_keeps (kS hc rfl) h _); exact (Keeps.ite (fun _ => (State.onTw_keeps (kS hc rfl) (State.onTw_keeps (kS hc rfl) (State.wrN_keeps (kS hc rfl) h1 _ _) _) _)) (fun _ => (Keeps.ite (fun _ => (State.onTw_keeps (kS hc rfl) (State.wrN_keeps (kS hc rfl) h1 _ _) _)) (fun _ => h1)))))

theorem State.takeLead_keeps {c : Nat} (hc : c &&& 0x202432 = 0x202432) {s0 : State} {s : State} (h : Keeps c s0 s) : Keeps c s0 (State.takeLead s) := by
  unfold State.takeLead
  exact (by split; exacts [(Keeps.ite (fun _ => (beginDriving_keeps (kS hc rfl) (State.onTw_keeps (kS hc rfl) (Keeps.set_mode (kT hc rfl) h _) _) _)) (fun _ => (State.onTw_keeps (kS hc rfl) h _))), h])

theorem State.takeover_keeps {c : Nat} (hc : c &&& 0x5373ce2 = 0x5373ce2) {s0 : State} {s : State} (h : Keeps c s0 s) (a0 : ℕ) : Keeps c s0 (State.takeover a0 s) := by
  unfold State.takeover
  exact (by extract_lets x0_0 x0_1 x0_2; have h1 : Keeps c s0 x0_0 := (State.tick_keeps (kS hc rfl) h _); have h2 : Keeps c s0 x0_2 := (State.onTw_keeps (kS hc rfl) (State.takeLease_keeps (kS hc rfl) h1 _ _) _); exact (Keeps.ite (fun _ => h1) (fun _ => (Keeps.ite (fun _ => (State.inc_keeps (kS hc rfl) (State.twEvt_keeps (kS hc rfl) h2 _) _ _)) (fun _ => (State.coldTakeover_keeps (kS hc rfl) h1 _))))))

theorem State.tellWordReceived_keeps {c : Nat} (hc : c &&& 0x200422 = 0x200422) {s0 : State} {s : State} (h : Keeps c s0 s) (a0 : ℕ) (a1 : TellWord) : Keeps c s0 (State.tellWordReceived a0 a1 s) := by
  unfold State.tellWordReceived
  exact (by extract_lets x0_0 x0_1 x0_2 x0_3 x0_4 x0_5; have h1 : Keeps c s0 x0_0 := (State.tick_keeps (kS hc rfl) h _); have h2 : Keeps c s0 x0_2 := (State.onTw_keeps (kS hc rfl) h1 _); have h3 : Keeps c s0 x0_3 := (State.onTw_keeps (kS hc rfl) h2 _); have h4 : Keeps c s0 x0_5 := (Keeps.ite (fun _ => (State.onTw_keeps (kS hc rfl) (State.renewalGot_keeps (kS hc rfl) h3 _) _)) (fun _ => h3)); exact (Keeps.ite (fun _ => h1) (fun _ => (Keeps.ite (fun _ => (State.onTw_keeps (kS hc rfl) h2 _)) (fun _ => (Keeps.ite (fun _ => (State.ackGot_keeps (kS hc rfl) h4 _)) (fun _ => h4)))))))

theorem State.tellWordSend_keeps {c : Nat} (hc : c &&& 0x200002 = 0x200002) {s0 : State} {s : State} (h : Keeps c s0 s) (a0 : ℕ) : Keeps c s0 (State.tellWordSend a0 s) := by
  unfold State.tellWordSend
  exact (by extract_lets x0_0 x0_1 x0_2 x0_3; have h1 : Keeps c s0 x0_0 := (State.tick_keeps (kS hc rfl) h _); have h2 : Keeps c s0 x0_2 := (State.renewFrom_keeps (kS hc rfl) h1 _); exact (Keeps.ite (fun _ => h1) (fun _ => (State.onTw_keeps (kS hc rfl) h2 _))))

theorem State.compareCmd_keeps {c : Nat} (hc : c &&& 0x4243c20 = 0x4243c20) {s0 : State} {s : State} (h : Keeps c s0 s) (a1 : CmdOutcome × CmdOutcome) : Keeps c s0 (State.compareCmd s a1) := by
  unfold State.compareCmd
  exact (Keeps.ite (fun _ => (Keeps.ite (fun _ => (State.leaveStep_keeps (kS hc rfl) (State.raiseFault_keeps (kS hc rfl) h _ _ _ _))) (fun _ => h))) (fun _ => (Keeps.ite (fun _ => (State.leaveStep_keeps (kS hc rfl) (State.raiseFault_keeps (kS hc rfl) h _ _ _ _))) (fun _ => h))))

theorem State.compareOutcomes_keeps {c : Nat} (hc : c &&& 0x4243c20 = 0x4243c20) {s0 : State} {s : State} (h : Keeps c s0 s) (a1 : ℕ) (a2 : OutcomeRec) (a3 : OutcomeRec) : Keeps c s0 (State.compareOutcomes s a1 a2 a3) := by
  unfold State.compareOutcomes
  exact (by extract_lets x0_0 x0_1; have h2 : Keeps c s0 x0_0 := (Keeps.foldl (fun _ _ h1 => (State.compareCmd_keeps (kS hc rfl) h1 _)) _ h); have h3 : Keeps c s0 x0_1 := (State.evt_keeps (kS hc rfl) (State.setBit_keeps (kS hc rfl) h2 _ _ _) _ _); exact (Keeps.ite (fun _ => (Keeps.ite (fun _ => (State.onTw_keeps (kS hc rfl) h3 _)) (fun _ => (State.leaveGuar_keeps (kS hc rfl) h3 _)))) (fun _ => h2)))

theorem State.dropLedger_keeps {c : Nat} (hc : c &&& 0x4000400 = 0x4000400) {s0 : State} {s : State} (h : Keeps c s0 s) (a1 : ℕ) : Keeps c s0 (State.dropLedger s a1) := by
  unfold State.dropLedger
  exact (State.onEp_keeps (kS hc rfl) h _)

theorem State.resumePins_keeps {c : Nat} (hc : c &&& 0x402000 = 0x402000) {s0 : State} {s : State} (h : Keeps c s0 s) : Keeps c s0 (State.resumePins s) := by
  unfold State.resumePins
  exact (by split; exacts [(Keeps.ite (fun _ => h) (fun _ => (by extract_lets x0_0; have h1 : Keeps c s0 x0_0 := (State.onWk_keeps (kS hc rfl) h _); exact (Keeps.ite (fun _ => (Keeps.foldl (fun _ _ h2 => (State.takePins_keeps (kS hc rfl) h2 _)) _ h1)) (fun _ => h1))))), h])

theorem State.epochBoundary_keeps {c : Nat} (hc : c &&& 0x4602632 = 0x4602632) {s0 : State} {s : State} (h : Keeps c s0 s) (a0 : ℕ) : Keeps c s0 (State.epochBoundary a0 s) := by
  unfold State.epochBoundary
  exact (by extract_lets x0_0 x0_1; have h1 : Keeps c s0 x0_0 := (State.tick_keeps (kS hc rfl) h _); exact (by split; exacts [(Keeps.ite (fun _ => h1) (fun _ => (by extract_lets x2_0; have h3 : Keeps c s0 x2_0 := (State.onEp_keeps (kS hc rfl) h1 _); exact (State.resumePins_keeps (kS hc rfl) (State.takeLead_keeps (kS hc rfl) (State.demoteNow_keeps (kS hc rfl) (State.gmSend_keeps (kS hc rfl) (State.slewOut_keeps (kS hc rfl) h3) _ _))))))), h1]))

theorem State.epochOverrun_keeps {c : Nat} (hc : c &&& 0x4243c22 = 0x4243c22) {s0 : State} {s : State} (h : Keeps c s0 s) (a0 : ℕ) : Keeps c s0 (State.epochOverrun a0 s) := by
  unfold State.epochOverrun
  exact (by extract_lets x0_0; have h1 : Keeps c s0 x0_0 := (State.tick_keeps (kS hc rfl) h _); exact (by split; exacts [(Keeps.ite (fun _ => h1) (fun _ => (State.raiseFault_keeps (kS hc rfl) (State.loseGuar_keeps (kS hc rfl) (State.evt_keeps (kS hc rfl) h1 _ _) _) _ _ _ _))), h1]))

theorem State.fillAckReceived_keeps {c : Nat} (hc : c &&& 0x4000402 = 0x4000402) {s0 : State} {s : State} (h : Keeps c s0 s) (a0 : ℕ) (a1 : ℕ) (a2 : ℕ) (a3 : ℕ) : Keeps c s0 (State.fillAckReceived a0 a1 a2 a3 s) := by
  unfold State.fillAckReceived
  exact (by extract_lets x0_0 x0_1; have h1 : Keeps c s0 x0_0 := (State.tick_keeps (kS hc rfl) h _); exact (by split; exacts [(Keeps.ite (fun _ => h1) (fun _ => (State.onEp_keeps (kS hc rfl) h1 _))), h1]))

theorem State.fillDeadline_keeps {c : Nat} (hc : c &&& 0x4000402 = 0x4000402) {s0 : State} {s : State} (h : Keeps c s0 s) (a0 : ℕ) (a1 : ℕ) : Keeps c s0 (State.fillDeadline a0 a1 s) := by
  unfold State.fillDeadline
  exact (by extract_lets x0_0; have h1 : Keeps c s0 x0_0 := (State.tick_keeps (kS hc rfl) h _); exact (Keeps.ite (fun _ => h1) (fun _ => (State.onEp_keeps (kS hc rfl) h1 _))))

theorem State.fillReceived_keeps {c : Nat} (hc : c &&& 0x4000422 = 0x4000422) {s0 : State} {s : State} (h : Keeps c s0 s) (a0 : ℕ) (a1 : Input) : Keeps c s0 (State.fillReceived a0 a1 s) := by
  unfold State.fillReceived
  exact (by extract_lets x0_0 x0_1 x0_2 x0_3; have h1 : Keeps c s0 x0_0 := (State.tick_keeps (kS hc rfl) h _); exact (Keeps.ite (fun _ => h1) (fun _ => (State.inc_keeps (kS hc rfl) (State.onEp_keeps (kS hc rfl) h1 _) _ _))))

theorem State.flagEpoch_keeps {c : Nat} (hc : c &&& 0x4243c20 = 0x4243c20) {s0 : State} {s : State} (h : Keeps c s0 s) (a1 : ℕ) : Keeps c s0 (State.flagEpoch s a1) := by
  unfold State.flagEpoch
  exact (State.inc_keeps (kS hc rfl) (State.notice_keeps (kS hc rfl) (State.evt_keeps (kS hc rfl) h _ _) _ _ _) _ _)

theorem State.inputHandover_keeps {c : Nat} (hc : c &&& 0x4243c22 = 0x4243c22) {s0 : State} {s : State} (h : Keeps c s0 s) (a0 : ℕ) (a1 : ℕ) (a2 : ℕ) : Keeps c s0 (State.inputHandover a0 a1 a2 s) := by
  unfold State.inputHandover
  exact (by extract_lets x0_0; have h1 : Keeps c s0 x0_0 := (State.tick_keeps (kS hc rfl) h _); exact (by split; exacts [(by extract_lets x2_0; have h3 : Keeps c s0 x2_0 := (State.onEp_keeps (kS hc rfl) h1 _); exact (Keeps.ite (fun _ => (State.notice_keeps (kS hc rfl) (State.evt_keeps (kS hc rfl) h3 _ _) _ _ _)) (fun _ => (State.onEp_keeps (kS hc rfl) h3 _)))), h1]))

theorem State.ledgerClose_keeps {c : Nat} (hc : c &&& 0x4000402 = 0x4000402) {s0 : State} {s : State} (h : Keeps c s0 s) (a0 : ℕ) (a1 : ℕ) : Keeps c s0 (State.ledgerClose a0 a1 s) := by
  unfold State.ledgerClose
  exact (by extract_lets x0_0; have h1 : Keeps c s0 x0_0 := (State.tick_keeps (kS hc rfl) h _); exact (Keeps.ite (fun _ => (State.onEp_keeps (kS hc rfl) h1 _)) (fun _ => h1)))

theorem State.unagreedEpoch_keeps {c : Nat} (hc : c &&& 0x4243c20 = 0x4243c20) {s0 : State} {s : State} (h : Keeps c s0 s) (a1 : ℕ) : Keeps c s0 (State.unagreedEpoch s a1) := by
  unfold State.unagreedEpoch
  exact (by extract_lets x0_0 x0_1; have h1 : Keeps c s0 x0_0 := (State.flagEpoch_keeps (kS hc rfl) h _); have h2 : Keeps c s0 x0_1 := (State.onEp_keeps (kS hc rfl) h1 _); exact (Keeps.ite (fun _ => (State.onTw_keeps (kS hc rfl) h2 _)) (fun _ => (Keeps.ite (fun _ => (State.onTw_keeps (kS hc rfl) h2 _)) (fun _ => (State.leaveGuar_keeps (kS hc rfl) (State.onTw_keeps (kS hc rfl) h2 _) _))))))

theorem State.pruneEpochs_keeps {c : Nat} (hc : c &&& 0x4000400 = 0x4000400) {s0 : State} {s : State} (h : Keeps c s0 s) (a1 : ℕ) : Keeps c s0 (State.pruneEpochs s a1) := by
  unfold State.pruneEpochs
  exact (State.onEp_keeps (kS hc rfl) h _)

theorem State.ledgerCompare_keeps {c : Nat} (hc : c &&& 0x4243c22 = 0x4243c22) {s0 : State} {s : State} (h : Keeps c s0 s) (a0 : ℕ) (a1 : ℕ) (a2 : Option ℕ) (a3 : Option OutcomeRec) : Keeps c s0 (State.ledgerCompare a0 a1 a2 a3 s) := by
  unfold State.ledgerCompare
  exact (by extract_lets x0_0 x0_1 x0_2; have h1 : Keeps c s0 x0_0 := (State.tick_keeps (kS hc rfl) h _); have h2 : Keeps c s0 x0_2 := (State.flagEpoch_keeps (kS hc rfl) h1 _); exact (Keeps.ite (fun _ => h1) (fun _ => (by split; exacts [h1, (by extract_lets x3_0; have h6 : Keeps c s0 x3_0 := (by unfold x3_0; split; exacts [(by extract_lets x4_0; have h5 : Keeps c s0 x4_0 := (Keeps.ite (fun _ => (Keeps.ite (fun _ => (State.onTw_keeps (kS hc rfl) h2 _)) (fun _ => (State.leaveGuar_keeps (kS hc rfl) h2 _)))) (fun _ => (Keeps.ite (fun _ => (State.enterStep_keeps (kS hc rfl) h1)) (fun _ => h1)))); exact (State.compareOutcomes_keeps (kS hc rfl) h5 _ _ _)), (Keeps.ite (fun _ => h1) (fun _ => (State.unagreedEpoch_keeps (kS hc rfl) h1 _)))]); exact (State.pruneEpochs_keeps (kS hc rfl) h6 _))]))))

theorem State.skewMisses_keeps {c : Nat} (hc : c &&& 0x4000480 = 0x4000480) {s0 : State} {s : State} (h : Keeps c s0 s) (a1 : ℕ) (a2 : List PeerRec) (a3 : List PeerRec) : Keeps c s0 (State.skewMisses s a1 a2 a3) := by
  unfold State.skewMisses
  exact (by extract_lets x0_0 x0_1; exact (Keeps.foldl (fun _ _ h1 => (by split; exacts [(State.cEvt_keeps (kS hc rfl) (State.cInc_keeps (kS hc rfl) (State.onEp_keeps (kS hc rfl) h1 _) _ _) _ _), (State.onEp_keeps (kS hc rfl) h1 _)])) _ h))

theorem State.matchingDecided_keeps {c : Nat} (hc : c &&& 0x4243ca2 = 0x4243ca2) {s0 : State} {s : State} (h : Keeps c s0 s) (a0 : ℕ) (a1 : ℕ) : Keeps c s0 (State.matchingDecided a0 a1 s) := by
  unfold State.matchingDecided
  exact (by extract_lets x0_0 x0_1 x0_2 x0_3 x0_4 x0_5 x0_6 x0_7; have h1 : Keeps c s0 x0_0 := (State.tick_keeps (kS hc rfl) h _); have h2 : Keeps c s0 x0_1 := (State.onEp_keeps (kS hc rfl) h1 _); exact (Keeps.ite (fun _ => h1) (fun _ => (Keeps.ite (fun _ => (State.unagreedEpoch_keeps (kS hc rfl) h2 _)) (fun _ => (by split; exacts [(by extract_lets x3_0 x3_1 x3_2; have h4 : Keeps c s0 x3_0 := (State.onEp_keeps (kS hc rfl) h2 _); have h5 : Keeps c s0 x3_2 := (State.inc_keeps (kS hc rfl) (State.onEp_keeps (kS hc rfl) h4 _) _ _); exact (State.skewMisses_keeps (kS hc rfl) h5 _ _ _))]))))))

theorem State.peerRecordsReceived_keeps {c : Nat} (hc : c &&& 0x4000402 = 0x4000402) {s0 : State} {s : State} (h : Keeps c s0 s) (a0 : ℕ) (a1 : ℕ) (a2 : List PeerRec) : Keeps c s0 (State.peerRecordsReceived a0 a1 a2 s) := by
  unfold State.peerRecordsReceived
  exact (by extract_lets x0_0; have h1 : Keeps c s0 x0_0 := (State.tick_keeps (kS hc rfl) h _); exact (Keeps.ite (fun _ => h1) (fun _ => (State.onEp_keeps (kS hc rfl) h1 _))))

theorem State.recordsSealSend_keeps {c : Nat} (hc : c &&& 0x4000402 = 0x4000402) {s0 : State} {s : State} (h : Keeps c s0 s) (a0 : ℕ) (a1 : ℕ) : Keeps c s0 (State.recordsSealSend a0 a1 s) := by
  unfold State.recordsSealSend
  exact (by extract_lets x0_0 x0_1; have h1 : Keeps c s0 x0_0 := (State.tick_keeps (kS hc rfl) h _); exact (Keeps.ite (fun _ => (State.onEp_keeps (kS hc rfl) h1 _)) (fun _ => h1)))

end Sys2Proof.Machine
end

