-- ==== Sys2Proof/Laws/KeepsHost.lean ====
section
/-! SUPPORT. Laws/KeepsHost.lean: what is kept, and which fields may change (Laws/Keeps.lean), for the loader, sleep, the sill die, commands, the pipeline, the bridge and register accesses. The number in a lemma is the set of those fields. -/
set_option Elab.async false
namespace Sys2Proof.Machine
open Sys2Proof

theorem State.stageBack_keeps {c : Nat} (hc : c &&& 0x20 = 0x20) {s0 : State} {s : State} (h : Keeps c s0 s) : Keeps c s0 (State.stageBack s) := by
  unfold State.stageBack
  exact (State.setFld_keeps (kS hc rfl) h _ _ _ _)

theorem State.endCheck_keeps {c : Nat} (hc : c &&& 0x820 = 0x820) {s0 : State} {s : State} (h : Keeps c s0 s) : Keeps c s0 (State.endCheck s) := by
  unfold State.endCheck
  exact (by extract_lets x0_0 x0_1 x0_2; have h1 : Keeps c s0 x0_2 := (State.onFr_keeps (kS hc rfl) (State.stageBack_keeps (kS hc rfl) h) _); exact (Keeps.ite (fun _ => (State.beginPurge_keeps (kS hc rfl) h1 _ _ _)) (fun _ => h1)))

theorem State.deltaAbort_keeps {c : Nat} (hc : c &&& 0x820 = 0x820) {s0 : State} {s : State} (h : Keeps c s0 s) : Keeps c s0 (State.deltaAbort s) := by
  unfold State.deltaAbort
  exact (Keeps.ite (fun _ => (State.endCheck_keeps (kS hc rfl) h)) (fun _ => h))

theorem State.gwAfter_keeps {c : Nat} (hc : c &&& 0x110860 = 0x110860) {s0 : State} {s : State} (h : Keeps c s0 s) (a1 : Raising) : KeepsO c s0 (State.gwAfter s a1) := by
  unfold State.gwAfter
  exact (by extract_lets x0_0; have h1 : Keeps c s0 x0_0 := (by unfold x0_0; split; exacts [(Keeps.ite (fun _ => (State.kbSwap_keeps (kS hc rfl) h _)) (fun _ => (State.kbLoad_keeps (kS hc rfl) h _))), h]); exact (by split; exacts [(Keeps.someO h1), (Keeps.iteO (fun _ => (Keeps.mapO (State.gwStage_keeps (kS hc rfl) h1 _) (fun _ h2 => (State.gwSwitch_keeps (kS hc rfl) (State.onFr_keeps (kS hc rfl) h2 _) _ _)))) (fun _ => (Keeps.someO (State.gwLoad_keeps (kS hc rfl) h1 _))))]))

theorem State.f2Back_keeps {c : Nat} (hc : c &&& 0x1020 = 0x1020) {s0 : State} {s : State} (h : Keeps c s0 s) : Keeps c s0 (State.f2Back s) := by
  unfold State.f2Back
  exact (Keeps.ite (fun _ => (State.onFlt_keeps (kS hc rfl) (State.endHandler_keeps (kS hc rfl) h _) _)) (fun _ => h))

theorem State.lateConfig_keeps {c : Nat} (hc : c &&& 0x6820 = 0x6820) {s0 : State} {s : State} (h : Keeps c s0 s) (a1 : Bool) : Keeps c s0 (State.lateConfig s a1) := by
  unfold State.lateConfig
  exact (Keeps.ite (fun _ => h) (fun _ => (by split; exacts [(Keeps.foldl (fun _ _ h0 => (State.configMB_keeps (kS hc rfl) h0 _ _)) _ h), h])))

theorem State.lateNow_keeps {c : Nat} (hc : c &&& 0x4b77ce0 = 0x4b77ce0) {s0 : State} {s : State} (h : Keeps c s0 s) : Keeps c s0 (State.lateNow s) := by
  unfold State.lateNow
  exact (by split; exacts [h, (Keeps.foldl (fun _ _ h0 => (Keeps.ite (fun _ => h0) (fun _ => (by split; exacts [(Keeps.ite (fun _ => (State.lateBent_keeps (kS hc rfl) h0 _ _)) (fun _ => h0)), (State.lateBent_keeps (kS hc rfl) h0 _ _)])))) _ h)])

theorem State.lateProcess_keeps {c : Nat} (hc : c &&& 0x4bf7ce0 = 0x4bf7ce0) {s0 : State} {s : State} (h : Keeps c s0 s) : Keeps c s0 (State.lateProcess s) := by
  unfold State.lateProcess
  exact (by split; exacts [h, (by extract_lets x0_0; have h2 : Keeps c s0 x0_0 := (Keeps.foldl (fun _ _ h1 => (Keeps.ite (fun _ => (State.lateBent_keeps (kS hc rfl) h1 _ _)) (fun _ => h1))) _ h); exact (State.onFr_keeps (kS hc rfl) (State.fullService_keeps (kS hc rfl) h2) _))])

theorem State.loadService_keeps {c : Nat} (hc : c &&& 0x5001620 = 0x5001620) {s0 : State} {s : State} (h : Keeps c s0 s) (a1 : Octets) : Keeps c s0 (State.loadService s a1) := by
  unfold State.loadService
  exact (by extract_lets x0_0 x0_1 x0_2 x0_3 x0_4 x0_5 x0_6 x0_7 x0_8; have h1 : Keeps c s0 x0_2 := (State.wrN_keeps (kS hc rfl) (State.wrN_keeps (kS hc rfl) (State.setFld_keeps (kS hc rfl) h _ _ _ _) _ _) _ _); have h2 : Keeps c s0 x0_3 := (State.setFld_keeps (kS hc rfl) (State.wrN_keeps (kS hc rfl) h1 _ _) _ _ _ _); have h3 : Keeps c s0 x0_5 := (State.wrN_keeps (kS hc rfl) h2 _ _); have h4 : Keeps c s0 x0_6 := (State.setFld_keeps (kS hc rfl) h3 _ _ _ _); have h5 : Keeps c s0 x0_8 := (Keeps.set_flt (kT hc rfl) h4 _); exact (State.roleLoaded_keeps (kS hc rfl) (State.onSill_keeps (kS hc rfl) h5 _) _))

theorem State.onHand_keeps {c : Nat} (hc : c &&& 0x800 = 0x800) {s0 : State} {s : State} (h : Keeps c s0 s) (a1 : Raising → Raising) : Keeps c s0 (State.onHand s a1) := by
  unfold State.onHand
  exact (State.onFr_keeps (kS hc rfl) h _)

theorem State.rejectImage_keeps {c : Nat} (hc : c &&& 0x4f7bcb0 = 0x4f7bcb0) {s0 : State} {s : State} (h : Keeps c s0 s) (a1 : LoadErr) : Keeps c s0 (State.rejectImage s a1) := by
  unfold State.rejectImage
  exact (by extract_lets x0_0 x0_1 x0_2 x0_3 x0_4; have h1 : Keeps c s0 x0_1 := (State.fltDefaults_keeps (kS hc rfl) (State.evt_keeps (kS hc rfl) (State.wrN_keeps (kS hc rfl) h _ _) _ _)); have h2 : Keeps c s0 x0_3 := (Keeps.set_flt (kT hc rfl) h1 _); have h3 : Keeps c s0 x0_4 := (State.onFr_keeps (kS hc rfl) h2 _); exact (by split; exacts [(Keeps.ite (fun _ => (State.onFr_keeps (kS hc rfl) (State.setFld_keeps (kS hc rfl) h3 _ _ _ _) _)) (fun _ => (State.enterBench_keeps (kS hc rfl) (State.setFld_keeps (kS hc rfl) h3 _ _ _ _)))), h3]))

theorem State.stageDelta_keeps {c : Nat} (hc : c &&& 0x208e0 = 0x208e0) {s0 : State} {s : State} (h : Keeps c s0 s) (a1 : Raising) : KeepsP c s0 (State.stageDelta s a1) := by
  unfold State.stageDelta
  exact (by extract_lets x0_0 x0_1 x0_2; have h1 : KeepsO c s0 x0_2 := (by unfold x0_2; clear_value x0_0; split; exacts [(Keeps.iteO (fun _ => (State.tbStage_keeps (kS hc rfl) h _)) (fun _ => (Keeps.someO h))), (Keeps.someO h)]); exact (Keeps.iteP (fun _ => (Keeps.mkP h)) (fun _ => (Keeps.iteP (fun _ => (Keeps.mkP h)) (fun _ => (by clear_value x0_2; split; exacts [(Keeps.mkP h), (by extract_lets x2_0; have h3 : Keeps c s0 x2_0 := (Keeps.ite (fun _ => (State.onFr_keeps (kS hc rfl) (h1 _ rfl) _)) (fun _ => (h1 _ rfl))); exact (by clear_value x0_1; split; exacts [(Keeps.mkP h3), (Keeps.iteP (fun _ => (Keeps.mkP h3)) (fun _ => (by split; exacts [(by have h4 := Keeps.ofO (by assumption) (State.gwStage_keeps (kS hc rfl) h3 _); exact (Keeps.mkP (State.onFr_keeps (kS hc rfl) h4 _))), (Keeps.mkP h3)])))]))]))))))

theorem State.stagingForward_keeps {c : Nat} (hc : c &&& 0x800 = 0x800) {s0 : State} {s : State} (h : Keeps c s0 s) : Keeps c s0 (State.stagingForward s) := by
  unfold State.stagingForward
  exact (Keeps.ite (fun _ => (by extract_lets x0_0; exact (State.onFr_keeps (kS hc rfl) h _))) (fun _ => h))

theorem State.startRaise_keeps {c : Nat} (hc : c &&& 0x820 = 0x820) {s0 : State} {s : State} (h : Keeps c s0 s) (a1 : ℕ) (a2 : ℕ) : Keeps c s0 (State.startRaise s a1 a2) := by
  unfold State.startRaise
  exact (State.onFr_keeps (kS hc rfl) (State.setFld_keeps (kS hc rfl) h _ _ _ _) _)

theorem State.swapBent_keeps {c : Nat} (hc : c &&& 0x4b77ce0 = 0x4b77ce0) {s0 : State} {s : State} (h : Keeps c s0 s) (a1 : ℕ) (a2 : ℕ) (a3 : Octets) : Keeps c s0 (State.swapBent s a1 a2 a3) := by
  unfold State.swapBent
  exact (Keeps.ite (fun _ => (State.bentIn_keeps (kS hc rfl) (State.configBent_keeps (kS hc rfl) h _) _ _)) (fun _ => (Keeps.ite (fun _ => (State.tbSwitch_keeps (kS hc rfl) h _)) (fun _ => (Keeps.ite (fun _ => (State.sbSwap_keeps (kS hc rfl) h _ _)) (fun _ => (Keeps.ite (fun _ => (State.kbSwap_keeps (kS hc rfl) h _)) (fun _ => (Keeps.ite (fun _ => (State.gwSwitch_keeps (kS hc rfl) h _ _)) (fun _ => (State.pbLoad_keeps (kS hc rfl) h _)))))))))))

theorem State.swapNow_keeps {c : Nat} (hc : c &&& 0x4846c20 = 0x4846c20) {s0 : State} {s : State} (h : Keeps c s0 s) (a1 : ℕ) : Keeps c s0 (State.swapNow s a1) := by
  unfold State.swapNow
  exact (Keeps.ite (fun _ => h) (fun _ => (by split; exacts [h, (by extract_lets x0_0 x0_1 x0_2 x0_3 x0_4 x0_5 x0_6 x0_7; have h1 : Keeps c s0 x0_4 := (State.onFr_keeps (kS hc rfl) h _); have h3 : Keeps c s0 x0_5 := (Keeps.foldl (fun _ _ h2 => (State.retenon_keeps (kS hc rfl) h2 _ _ _)) _ h1); have h5 : Keeps c s0 x0_6 := (Keeps.foldl (fun _ _ h4 => (by split; exacts [(Keeps.ite (fun _ => (State.bentIn_keeps (kS hc rfl) (State.configMB_keeps (kS hc rfl) h4 _ _) _ _)) (fun _ => (Keeps.set_banks (kT hc rfl) h4 _ (fun h => (updAt_length _ _ _).trans h)))), h4])) _ h3); have h7 : Keeps c s0 x0_7 := (by unfold x0_7; split; exacts [(Keeps.foldl (fun _ _ h6 => (State.planSwap_keeps (kS hc rfl) h6 _ _)) _ h5), h5]); exact (State.onFr_keeps (kS hc rfl) h7 _))])))

theorem State.swapProcess_keeps {c : Nat} (hc : c &&& 0x4b77ce0 = 0x4b77ce0) {s0 : State} {s : State} (h : Keeps c s0 s) (a1 : ℕ) : Keeps c s0 (State.swapProcess s a1) := by
  unfold State.swapProcess
  exact (by split; exacts [h, (by extract_lets x0_0 x0_1 x0_2 x0_3 x0_4 x0_5 x0_6 x0_7 x0_8 x0_9; have h1 : Keeps c s0 x0_0 := (State.swapNow_keeps (kS hc rfl) h _); have h2 : Keeps c s0 x0_3 := (State.beginPurge_keeps (kS hc rfl) h1 _ _ _); have h4 : Keeps c s0 x0_4 := (Keeps.foldl (fun _ _ h3 => (by split; exacts [(State.retenonCovered_keeps (kS hc rfl) h3 _ _), h3])) _ h2); have h6 : Keeps c s0 x0_5 := (Keeps.foldl (fun _ _ h5 => (by split; exacts [(State.swapBent_keeps (kS hc rfl) h5 _ _ _), h5])) _ h4); have h8 : Keeps c s0 x0_6 := (Keeps.foldl (fun _ _ h7 => (by split; exacts [(State.setBent_keeps (kS hc rfl) h7 _ _), h7])) _ h6); have h9 : Keeps c s0 x0_8 := (State.onFr_keeps (kS hc rfl) h8 _); have h10 : Keeps c s0 x0_9 := (State.setBit_keeps (kS hc rfl) (State.showFrame_keeps (kS hc rfl) h9) _ _ _); exact (State.f2Back_keeps (kS hc rfl) (State.evt_keeps (kS hc rfl) h10 _ _)))])

theorem State.takeSection_keeps {c : Nat} (hc : c &&& 0x4377ce0 = 0x4377ce0) {s0 : State} {s : State} (h : Keeps c s0 s) (a1 : ℕ) (a2 : ℕ) (a3 : Octets) : Keeps c s0 (State.takeSection s a1 a2 a3) := by
  unfold State.takeSection
  exact (by extract_lets x0_0 x0_1; have h1 : Keeps c s0 x0_1 := (State.onHand_keeps (kS hc rfl) h _); exact (by split; exacts [h1, (by extract_lets x2_0 x2_1 x2_2; have h3 : Keeps c s0 x2_1 := (Keeps.ite (fun _ => (State.configBents_keeps (kS hc rfl) h1 _)) (fun _ => h1)); have h4 : Keeps c s0 x2_2 := (Keeps.ite (fun _ => (State.configMB_keeps (kS hc rfl) h3 _ _)) (fun _ => h3)); exact (Keeps.ite (fun _ => (State.setFld_keeps (kS hc rfl) h4 _ _ _ _)) (fun _ => h4)))]))

theorem deltaArmed_keeps {c : Nat} (hc : c &&& 0x822 = 0x822) {s0 : State} {s : State} (h : Keeps c s0 s) (a0 : ℕ) : Keeps c s0 (deltaArmed a0 s) := by
  unfold deltaArmed
  exact (by extract_lets x0_0; have h1 : Keeps c s0 x0_0 := (State.tick_keeps (kS hc rfl) h _); exact (Keeps.ite (fun _ => h1) (fun _ => (by split; exacts [h1, (by split; exacts [(State.evt_keeps (kS hc rfl) (State.wrN_keeps (kS hc rfl) (State.endCheck_keeps (kS hc rfl) h1) _ _) _ _), (State.onFr_keeps (kS hc rfl) (State.evt_keeps (kS hc rfl) (State.setBit_keeps (kS hc rfl) (State.stageBack_keeps (kS hc rfl) h1) _ _ _) _ _) _)])]))))

theorem deltaCheck_keeps {c : Nat} (hc : c &&& 0x208e2 = 0x208e2) {s0 : State} {s : State} (h : Keeps c s0 s) (a0 : ℕ) : Keeps c s0 (deltaCheck a0 s) := by
  unfold deltaCheck
  exact (by extract_lets x0_0 x0_1 x0_2 x0_3 x0_4 x0_5 x0_6; have h1 : Keeps c s0 x0_0 := (State.tick_keeps (kS hc rfl) h _); have h2 : Keeps c s0 x0_5 := (State.onFr_keeps (kS hc rfl) (State.setFld_keeps (kS hc rfl) h1 _ _ _ _) _); exact (Keeps.ite (fun _ => h1) (fun _ => (by clear_value x0_4; split; exacts [(State.onFr_keeps (kS hc rfl) h2 _), (by split; exacts [(by have h3 := Keeps.ofP (by assumption) (State.stageDelta_keeps (kS hc rfl) h2 _); exact (State.onFr_keeps (kS hc rfl) h3 _))])]))))

theorem deltaDisarm_keeps {c : Nat} (hc : c &&& 0x2c20 = 0x2c20) {s0 : State} {s : State} (h : Keeps c s0 s) (a0 : ℕ) : Keeps c s0 (deltaDisarm a0 s) := by
  unfold deltaDisarm
  exact (by extract_lets x0_0 x0_1; have h1 : Keeps c s0 x0_1 := (State.recordCmd_keeps (kS hc rfl) h _ _); exact (Keeps.ite (fun _ => (State.dropDelta_keeps (kS hc rfl) h1)) (fun _ => h1)))

theorem headerChecked_keeps {c : Nat} (hc : c &&& 0x5f7bef2 = 0x5f7bef2) {s0 : State} {s : State} (h : Keeps c s0 s) (a0 : ℕ) (a1 : Octets) (a2 : Octets) : Keeps c s0 (headerChecked a0 a1 a2 s) := by
  unfold headerChecked
  exact (by extract_lets x0_0; have h1 : Keeps c s0 x0_0 := (State.tick_keeps (kS hc rfl) h _); exact (by split; exacts [h1, (Keeps.ite (fun _ => h1) (fun _ => (by extract_lets x2_0 x2_1 x2_2 x2_3 x2_4 x2_5 x2_6 x2_7 x2_8; have h3 : Keeps c s0 x2_6 := (State.onFr_keeps (kS hc rfl) (State.freshBlocks_keeps (kS hc rfl) h1) _); have h4 : Keeps c s0 x2_7 := (State.configEmpty_keeps (kS hc rfl) (State.loadService_keeps (kS hc rfl) h3 _)); have h5 : Keeps c s0 x2_8 := (State.setBit_keeps (kS hc rfl) (State.setBit_keeps (kS hc rfl) (State.setFld_keeps (kS hc rfl) h4 _ _ _ _) _ _ _) _ _ _); exact (by clear_value x2_3; split; exacts [(State.rejectImage_keeps (kS hc rfl) h1 _), (Keeps.ite (fun _ => (State.evt_keeps (kS hc rfl) h5 _ _)) (fun _ => h5))]))))]))

theorem hostRaise_keeps {c : Nat} (hc : c &&& 0x4f7beb2 = 0x4f7beb2) {s0 : State} {s : State} (h : Keeps c s0 s) (a0 : ℕ) : Keeps c s0 (hostRaise a0 s) := by
  unfold hostRaise
  exact (by extract_lets x0_0; have h1 : Keeps c s0 x0_0 := (State.tick_keeps (kS hc rfl) h _); exact (Keeps.ite (fun _ => h1) (fun _ => (by split; exacts [(State.startRaise_keeps (kS hc rfl) (State.enterRaise_keeps (kS hc rfl) h1 _) _ _), (State.startRaise_keeps (kS hc rfl) (State.enterRaise_keeps (kS hc rfl) h1 _) _ _), (State.startRaise_keeps (kS hc rfl) (State.enterRaise_keeps (kS hc rfl) h1 _) _ _), h1]))))

theorem lateBentsInService_keeps {c : Nat} (hc : c &&& 0x4b77ce0 = 0x4b77ce0) {s0 : State} {s : State} (h : Keeps c s0 s) (a0 : ℕ) : Keeps c s0 (lateBentsInService a0 s) := by
  unfold lateBentsInService
  exact (Keeps.ite (fun _ => (State.lateNow_keeps (kS hc rfl) h)) (fun _ => h))

theorem purgeComplete_keeps {c : Nat} (hc : c &&& 0x20862 = 0x20862) {s0 : State} {s : State} (h : Keeps c s0 s) (a0 : ℕ) : Keeps c s0 (purgeComplete a0 s) := by
  unfold purgeComplete
  exact (by extract_lets x0_0 x0_1 x0_2 x0_3; have h1 : Keeps c s0 x0_0 := (State.tick_keeps (kS hc rfl) h _); have h2 : Keeps c s0 x0_2 := (Keeps.ite (fun _ => h1) (fun _ => (State.tbPurge_keeps (kS hc rfl) h1 _))); have h3 : Keeps c s0 x0_3 := (Keeps.ite (fun _ => h2) (fun _ => (State.gwPurge_keeps (kS hc rfl) h2 _))); exact (Keeps.ite (fun _ => h1) (fun _ => (State.evt_keeps (kS hc rfl) (State.setBit_keeps (kS hc rfl) (State.onFr_keeps (kS hc rfl) h3 _) _ _ _) _ _))))

theorem raiseFromFlash_keeps {c : Nat} (hc : c &&& 0x1000822 = 0x1000822) {s0 : State} {s : State} (h : Keeps c s0 s) (a0 : ℕ) : Keeps c s0 (raiseFromFlash a0 s) := by
  unfold raiseFromFlash
  exact (by extract_lets x0_0; have h1 : Keeps c s0 x0_0 := (State.tick_keeps (kS hc rfl) h _); exact (Keeps.ite (fun _ => h1) (fun _ => (State.onSill_keeps (kS hc rfl) (State.startRaise_keeps (kS hc rfl) h1 _ _) _))))

theorem sectionChecked_keeps {c : Nat} (hc : c &&& 0x4f7fcf2 = 0x4f7fcf2) {s0 : State} {s : State} (h : Keeps c s0 s) (a0 : ℕ) (a1 : ℕ) (a2 : Octets) (a3 : Bool) : Keeps c s0 (sectionChecked a0 a1 a2 a3 s) := by
  unfold sectionChecked
  exact (by extract_lets x0_0; have h1 : Keeps c s0 x0_0 := (State.tick_keeps (kS hc rfl) h _); exact (by split; exacts [h1, (Keeps.ite (fun _ => h1) (fun _ => (by extract_lets x2_0; exact (by split; exacts [(State.lateConfig_keeps (kS hc rfl) (State.takeSection_keeps (kS hc rfl) h1 _ _ _) _), (Keeps.ite (fun _ => (Keeps.ite (fun _ => (State.rejectImage_keeps (kS hc rfl) h1 _)) (fun _ => h1))) (fun _ => (by extract_lets x3_0; have h4 : Keeps c s0 x3_0 := (Keeps.ite (fun _ => (State.wrN_keeps (kS hc rfl) h1 _ _)) (fun _ => h1)); exact (State.onHand_keeps (kS hc rfl) h4 _))))]))))]))

theorem serviceStart_keeps {c : Nat} (hc : c &&& 0x5ec3c72 = 0x5ec3c72) {s0 : State} {s : State} (h : Keeps c s0 s) (a0 : ℕ) : Keeps c s0 (serviceStart a0 s) := by
  unfold serviceStart
  exact (by extract_lets x0_0 x0_1 x0_2; have h1 : Keeps c s0 x0_0 := (State.tick_keeps (kS hc rfl) h _); have h2 : Keeps c s0 x0_1 := (State.beginService_keeps (kS hc rfl) h1 _ _ _); have h3 : Keeps c s0 x0_2 := (Keeps.ite (fun _ => h1) (fun _ => (State.takeLease_keeps (kS hc rfl) h1 _ _))); exact (Keeps.ite (fun _ => h1) (fun _ => (Keeps.ite (fun _ => (State.onFr_keeps (kS hc rfl) (State.setFld_keeps (kS hc rfl) (State.bentsIn_keeps (kS hc rfl) (State.wrN_keeps (kS hc rfl) (State.showFrame_keeps (kS hc rfl) (Keeps.set_mode (kT hc rfl) h1 _)) _ _)) _ _ _ _) _)) (fun _ => (Keeps.ite (fun _ => h1) (fun _ => (Keeps.ite (fun _ => (beginDriving_keeps (kS hc rfl) (Keeps.ite (fun _ => h2) (fun _ => (State.onFr_keeps (kS hc rfl) h2 _))) _)) (fun _ => (Keeps.ite (fun _ => (beginDriving_keeps (kS hc rfl) (State.onFr_keeps (kS hc rfl) (State.beginService_keeps (kS hc rfl) h3 _ _ _) _) _)) (fun _ => h1)))))))))))

theorem stagingError_keeps {c : Nat} (hc : c &&& 0x4243c22 = 0x4243c22) {s0 : State} {s : State} (h : Keeps c s0 s) (a0 : ℕ) : Keeps c s0 (stagingError a0 s) := by
  unfold stagingError
  exact (by extract_lets x0_0; have h1 : Keeps c s0 x0_0 := (State.tick_keeps (kS hc rfl) h _); exact (Keeps.ite (fun _ => (State.raiseFault_keeps (kS hc rfl) (State.dropDelta_keeps (kS hc rfl) h1) _ _ _ _)) (fun _ => h1)))

theorem swap_keeps {c : Nat} (hc : c &&& 0x4846c20 = 0x4846c20) {s0 : State} {s : State} (h : Keeps c s0 s) (a0 : ℕ) : Keeps c s0 (swap a0 s) := by
  unfold swap
  exact (Keeps.ite (fun _ => (State.swapNow_keeps (kS hc rfl) h _)) (fun _ => h))

theorem swapSchedule_keeps {c : Nat} (hc : c &&& 0xc20 = 0xc20) {s0 : State} {s : State} (h : Keeps c s0 s) (a0 : ℕ) (a1 : ℕ) : Keeps c s0 (swapSchedule a0 a1 s) := by
  unfold swapSchedule
  exact (by extract_lets x0_0 x0_1 x0_2; exact (Keeps.ite (fun _ => (State.evt_keeps (kS hc rfl) (State.recordCmd_keeps (kS hc rfl) h _ _) _ _)) (fun _ => (Keeps.ite (fun _ => (State.evt_keeps (kS hc rfl) (State.recordCmd_keeps (kS hc rfl) h _ _) _ _)) (fun _ => (State.onFr_keeps (kS hc rfl) (State.recordCmd_keeps (kS hc rfl) h _ _) _))))))

theorem State.armSill_keeps {c : Nat} (hc : c &&& 0x1000000 = 0x1000000) {s0 : State} {s : State} (h : Keeps c s0 s) : Keeps c s0 (State.armSill s) := by
  unfold State.armSill
  exact (by extract_lets x0_0 x0_1 x0_2 x0_3; exact (State.onSill_keeps (kS hc rfl) h _))

theorem State.onNet_keeps {c : Nat} (hc : c &&& 0x400000 = 0x400000) {s0 : State} {s : State} (h : Keeps c s0 s) (a1 : ℕ) (a2 : PartNet → PartNet) : Keeps c s0 (State.onNet s a1 a2) := by
  unfold State.onNet
  exact (State.onWk_keeps (kS hc rfl) h _)

theorem State.awakeExpire_keeps {c : Nat} (hc : c &&& 0x400080 = 0x400080) {s0 : State} {s : State} (h : Keeps c s0 s) : Keeps c s0 (State.awakeExpire s) := by
  unfold State.awakeExpire
  exact (by extract_lets x0_0 x0_1; have h1 : Keeps c s0 x0_0 := (State.onWk_keeps (kS hc rfl) h _); have h3 : Keeps c s0 x0_1 := (Keeps.foldl (fun _ _ h2 => (Keeps.ite (fun _ => (State.onNet_keeps (kS hc rfl) h2 _ _)) (fun _ => h2))) _ h1); exact (State.cEvt_keeps (kS hc rfl) (State.cPut_keeps (kS hc rfl) h3 _ _ _ _) _ _))

theorem State.awakeRestart_keeps {c : Nat} (hc : c &&& 0x400080 = 0x400080) {s0 : State} {s : State} (h : Keeps c s0 s) : Keeps c s0 (State.awakeRestart s) := by
  unfold State.awakeRestart
  exact (State.cPut_keeps (kS hc rfl) (State.onWk_keeps (kS hc rfl) h _) _ _ _ _)

theorem State.beginQuiesce_keeps {c : Nat} (hc : c &&& 0x1402000 = 0x1402000) {s0 : State} {s : State} (h : Keeps c s0 s) : Keeps c s0 (State.beginQuiesce s) := by
  unfold State.beginQuiesce
  exact (by extract_lets x0_0 x0_1 x0_2; have h1 : Keeps c s0 x0_1 := (State.armSill_keeps (kS hc rfl) (State.onWk_keeps (kS hc rfl) h _)); have h2 : Keeps c s0 x0_2 := (State.onSill_keeps (kS hc rfl) h1 _); exact (Keeps.foldl (fun _ _ h3 => (State.letGo_keeps (kS hc rfl) h3 _)) _ h2))

theorem State.cancelSleep_keeps {c : Nat} (hc : c &&& 0x1400080 = 0x1400080) {s0 : State} {s : State} (h : Keeps c s0 s) (a1 : ℕ) : Keeps c s0 (State.cancelSleep s a1) := by
  unfold State.cancelSleep
  exact (Keeps.ite (fun _ => h) (fun _ => (by extract_lets x0_0 x0_1; have h1 : Keeps c s0 x0_0 := (State.onWk_keeps (kS hc rfl) h _); have h2 : Keeps c s0 x0_1 := (State.onSill_keeps (kS hc rfl) h1 _); exact (State.cEvt_keeps (kS hc rfl) (State.cInc_keeps (kS hc rfl) (State.cPut_keeps (kS hc rfl) (State.cPut_keeps (kS hc rfl) h2 _ _ _ _) _ _ _ _) _ _) _ _))))

theorem State.decideSleep_keeps {c : Nat} (hc : c &&& 0x400080 = 0x400080) {s0 : State} {s : State} (h : Keeps c s0 s) (a1 : ℕ) (a2 : Bool) : Keeps c s0 (State.decideSleep s a1 a2) := by
  unfold State.decideSleep
  exact (Keeps.ite (fun _ => h) (fun _ => (by extract_lets x0_0 x0_1 x0_2 x0_3; have h1 : Keeps c s0 x0_3 := (State.onWk_keeps (kS hc rfl) h _); exact (State.cEvt_keeps (kS hc rfl) (State.cInc_keeps (kS hc rfl) (State.cPut_keeps (kS hc rfl) (State.cPut_keeps (kS hc rfl) h1 _ _ _ _) _ _ _ _) _ _) _ _))))

theorem State.eventCancels_keeps {c : Nat} (hc : c &&& 0x1400080 = 0x1400080) {s0 : State} {s : State} (h : Keeps c s0 s) (a1 : ℕ) (a2 : ℕ) (a3 : ℕ) : Keeps c s0 (State.eventCancels s a1 a2 a3) := by
  unfold State.eventCancels
  exact (by extract_lets x0_0 x0_1; exact (Keeps.ite (fun _ => (State.cancelSleep_keeps (kS hc rfl) h _)) (fun _ => h)))

theorem State.frameCancels_keeps {c : Nat} (hc : c &&& 0x1400080 = 0x1400080) {s0 : State} {s : State} (h : Keeps c s0 s) (a1 : ℕ) (a2 : ℕ) (a3 : Octets) : Keeps c s0 (State.frameCancels s a1 a2 a3) := by
  unfold State.frameCancels
  exact (Keeps.ite (fun _ => (State.cancelSleep_keeps (kS hc rfl) h _)) (fun _ => h))

theorem State.keepAlive_keeps {c : Nat} (hc : c &&& 0x400080 = 0x400080) {s0 : State} {s : State} (h : Keeps c s0 s) (a1 : ℕ) (a2 : ℕ) (a3 : ℕ) : KeepsP c s0 (State.keepAlive s a1 a2 a3) := by
  unfold State.keepAlive
  exact (by extract_lets x0_0 x0_1; exact (Keeps.iteP (fun _ => (Keeps.mkP (State.cEvt_keeps (kS hc rfl) (State.cInc_keeps (kS hc rfl) h _ _) _ _))) (fun _ => (Keeps.mkP (Keeps.foldl (fun _ _ h1 => (State.onNet_keeps (kS hc rfl) h1 _ _)) _ h)))))

theorem State.wkStart_keeps {c : Nat} (hc : c &&& 0x25d08e0 = 0x25d08e0) {s0 : State} {s : State} (h : Keeps c s0 s) (a1 : ℕ) : Keeps c s0 (State.wkStart s a1) := by
  unfold State.wkStart
  exact (Keeps.ite (fun _ => h) (fun _ => (by extract_lets x0_0 x0_1; have h1 : Keeps c s0 x0_0 := (State.gwTimer_keeps (kS hc rfl) h _); have h2 : Keeps c s0 x0_1 := (Keeps.ite (fun _ => (State.awakeExpire_keeps (kS hc rfl) h1)) (fun _ => h1)); exact (State.onWk_keeps (kS hc rfl) h2 _))))

theorem State.maxAwakeExpiry_keeps {c : Nat} (hc : c &&& 0x25d08e0 = 0x25d08e0) {s0 : State} {s : State} (h : Keeps c s0 s) (a0 : ℕ) : Keeps c s0 (State.maxAwakeExpiry a0 s) := by
  unfold State.maxAwakeExpiry
  exact (Keeps.ite (fun _ => (State.wkStart_keeps (kS hc rfl) h _)) (fun _ => h))

theorem State.netStep_keeps {c : Nat} (hc : c &&& 0x1400080 = 0x1400080) {s0 : State} {s : State} (h : Keeps c s0 s) (a1 : ℕ) (a2 : ℕ) : Keeps c s0 (State.netStep s a1 a2) := by
  unfold State.netStep
  exact (Keeps.ite (fun _ => h) (fun _ => (by extract_lets x0_0 x0_1 x0_2 x0_3 x0_4 x0_5 x0_6; have h1 : Keeps c s0 x0_0 := (State.onNet_keeps (kS hc rfl) h _ _); have h2 : Keeps c s0 x0_3 := (State.onNet_keeps (kS hc rfl) h1 _ _); have h3 : Keeps c s0 x0_4 := (State.cEvt_keeps (kS hc rfl) h2 _ _); have h4 : Keeps c s0 x0_5 := (Keeps.ite (fun _ => (Keeps.ite (fun _ => h3) (fun _ => (State.cancelSleep_keeps (kS hc rfl) h3 _)))) (fun _ => (Keeps.ite (fun _ => (State.cEvt_keeps (kS hc rfl) h2 _ _)) (fun _ => h2)))); exact (State.cPut_keeps (kS hc rfl) h4 _ _ _ _))))

theorem State.onRing_keeps {c : Nat} (hc : c &&& 0x400000 = 0x400000) {s0 : State} {s : State} (h : Keeps c s0 s) (a1 : ℕ) (a2 : Machine.Ring → Machine.Ring) : Keeps c s0 (State.onRing s a1 a2) := by
  unfold State.onRing
  exact (State.onWk_keeps (kS hc rfl) h _)

theorem State.ringWake_keeps {c : Nat} (hc : c &&& 0x1400080 = 0x1400080) {s0 : State} {s : State} (h : Keeps c s0 s) (a1 : ℕ) (a2 : ℕ) : Keeps c s0 (State.ringWake s a1 a2) := by
  unfold State.ringWake
  exact (Keeps.ite (fun _ => h) (fun _ => (by extract_lets x0_0; have h1 : Keeps c s0 x0_0 := (State.cEvt_keeps (kS hc rfl) (State.onRing_keeps (kS hc rfl) h _ _) _ _); exact (Keeps.ite (fun _ => h1) (fun _ => (State.cancelSleep_keeps (kS hc rfl) h1 _))))))

theorem State.ringSend_keeps {c : Nat} (hc : c &&& 0x408a0 = 0x408a0) {s0 : State} {s : State} (h : Keeps c s0 s) (a1 : ℕ) (a2 : ℕ) (a3 : ℕ) (a4 : ℕ) (a5 : ℕ) : Keeps c s0 (State.ringSend s a1 a2 a3 a4 a5) := by
  unfold State.ringSend
  exact (by extract_lets x0_0 x0_1; exact (State.enqueue_keeps (kS hc rfl) h _ _))

theorem State.ringAlive_keeps {c : Nat} (hc : c &&& 0x4408a0 = 0x4408a0) {s0 : State} {s : State} (h : Keeps c s0 s) (a1 : ℕ) (a2 : ℕ) : Keeps c s0 (State.ringAlive s a1 a2) := by
  unfold State.ringAlive
  exact (State.onRing_keeps (kS hc rfl) (State.ringSend_keeps (kS hc rfl) h _ _ _ _ _) _ _)

theorem State.ringSleep_keeps {c : Nat} (hc : c &&& 0x400080 = 0x400080) {s0 : State} {s : State} (h : Keeps c s0 s) (a1 : ℕ) : Keeps c s0 (State.ringSleep s a1) := by
  unfold State.ringSleep
  exact (Keeps.ite (fun _ => h) (fun _ => (State.cEvt_keeps (kS hc rfl) (State.onRing_keeps (kS hc rfl) h _ _) _ _)))

theorem State.ringDoPass_keeps {c : Nat} (hc : c &&& 0x4408a0 = 0x4408a0) {s0 : State} {s : State} (h : Keeps c s0 s) (a1 : ℕ) (a2 : ℕ) (a3 : ℕ) : Keeps c s0 (State.ringDoPass s a1 a2 a3) := by
  unfold State.ringDoPass
  exact (by extract_lets x0_0 x0_1 x0_2 x0_3 x0_4; have h1 : Keeps c s0 x0_3 := (State.ringSend_keeps (kS hc rfl) h _ _ _ _ _); have h2 : Keeps c s0 x0_4 := (State.onRing_keeps (kS hc rfl) h1 _ _); exact (Keeps.ite (fun _ => (State.ringSleep_keeps (kS hc rfl) h2 _)) (fun _ => h2)))

theorem State.ringShow_keeps {c : Nat} (hc : c &&& 0x80 = 0x80) {s0 : State} {s : State} (h : Keeps c s0 s) (a1 : ℕ) (a2 : ℕ) : Keeps c s0 (State.ringShow s a1 a2) := by
  unfold State.ringShow
  exact (by extract_lets x0_0; exact (State.cPut_keeps (kS hc rfl) h _ _ _ _))

theorem State.ringStep_keeps {c : Nat} (hc : c &&& 0x14408a0 = 0x14408a0) {s0 : State} {s : State} (h : Keeps c s0 s) (a1 : ℕ) (a2 : ℕ) : Keeps c s0 (State.ringStep s a1 a2) := by
  unfold State.ringStep
  exact (Keeps.ite (fun _ => h) (fun _ => (by extract_lets x0_0 x0_1 x0_2 x0_3 x0_4 x0_5 x0_6 x0_7; have h1 : Keeps c s0 x0_0 := (Keeps.ite (fun _ => (State.ringWake_keeps (kS hc rfl) h _ _)) (fun _ => h)); have h2 : Keeps c s0 x0_1 := (Keeps.ite (fun _ => (State.ringAlive_keeps (kS hc rfl) h1 _ _)) (fun _ => h1)); have h3 : Keeps c s0 x0_2 := (by unfold x0_2; split; exacts [(Keeps.ite (fun _ => (State.ringDoPass_keeps (kS hc rfl) h2 _ _ _)) (fun _ => h2)), h2]); have h4 : Keeps c s0 x0_3 := (Keeps.ite (fun _ => (State.ringDoPass_keeps (kS hc rfl) (State.onRing_keeps (kS hc rfl) h3 _ _) _ _ _)) (fun _ => h3)); have h5 : Keeps c s0 x0_4 := (Keeps.ite (fun _ => (State.ringAlive_keeps (kS hc rfl) (State.cEvt_keeps (kS hc rfl) (State.onRing_keeps (kS hc rfl) h4 _ _) _ _) _ _)) (fun _ => h4)); have h6 : Keeps c s0 x0_6 := (State.onRing_keeps (kS hc rfl) h5 _ _); have h7 : Keeps c s0 x0_7 := (Keeps.ite (fun _ => (State.ringSleep_keeps (kS hc rfl) h6 _)) (fun _ => h6)); exact (State.ringShow_keeps (kS hc rfl) h7 _ _))))

theorem State.wkRings_keeps {c : Nat} (hc : c &&& 0x35d08e0 = 0x35d08e0) {s0 : State} {s : State} (h : Keeps c s0 s) (a1 : ℕ) (a2 : ℕ) : Keeps c s0 (State.wkRings s a1 a2) := by
  unfold State.wkRings
  exact (by extract_lets x0_0 x0_1 x0_2; have h1 : Keeps c s0 x0_0 := (State.wkStart_keeps (kS hc rfl) h _); have h3 : Keeps c s0 x0_2 := (Keeps.foldl (fun _ _ h2 => (State.ringStep_keeps (kS hc rfl) h2 _ _)) _ h1); exact (State.onWk_keeps (kS hc rfl) h3 _))

theorem State.wkNets_keeps {c : Nat} (hc : c &&& 0x35d08e0 = 0x35d08e0) {s0 : State} {s : State} (h : Keeps c s0 s) (a1 : ℕ) (a2 : ℕ) : Keeps c s0 (State.wkNets s a1 a2) := by
  unfold State.wkNets
  exact (by extract_lets x0_0 x0_1 x0_2; have h1 : Keeps c s0 x0_0 := (State.wkRings_keeps (kS hc rfl) h _ _); have h3 : Keeps c s0 x0_2 := (Keeps.foldl (fun _ _ h2 => (State.netStep_keeps (kS hc rfl) h2 _ _)) _ h1); exact (State.onWk_keeps (kS hc rfl) h3 _))

theorem State.pnTimeout_keeps {c : Nat} (hc : c &&& 0x35d08e0 = 0x35d08e0) {s0 : State} {s : State} (h : Keeps c s0 s) (a0 : ℕ) (a1 : ℕ) : Keeps c s0 (State.pnTimeout a0 a1 s) := by
  unfold State.pnTimeout
  exact (Keeps.ite (fun _ => (State.wkNets_keeps (kS hc rfl) h _ _)) (fun _ => h))

theorem State.quiesceShow_keeps {c : Nat} (hc : c &&& 0x80 = 0x80) {s0 : State} {s : State} (h : Keeps c s0 s) (a1 : ℕ) : Keeps c s0 (State.quiesceShow s a1) := by
  unfold State.quiesceShow
  exact (Keeps.ite (fun _ => h) (fun _ => (by extract_lets x0_0; have h1 : Keeps c s0 x0_0 := (Keeps.ite (fun _ => (State.cPut_keeps (kS hc rfl) h _ _ _ _)) (fun _ => h)); exact (State.cEvt_keeps (kS hc rfl) (State.cPut_keeps (kS hc rfl) h1 _ _ _ _) _ _))))

theorem State.quiesceStart_keeps {c : Nat} (hc : c &&& 0x1402002 = 0x1402002) {s0 : State} {s : State} (h : Keeps c s0 s) (a0 : ℕ) (a1 : ℕ) : Keeps c s0 (State.quiesceStart a0 a1 s) := by
  unfold State.quiesceStart
  exact (by extract_lets x0_0 x0_1; have h1 : Keeps c s0 x0_0 := (State.tick_keeps (kS hc rfl) h _); exact (Keeps.ite (fun _ => (State.beginQuiesce_keeps (kS hc rfl) (State.onWk_keeps (kS hc rfl) h1 _))) (fun _ => h1)))

theorem State.ringFrame_keeps {c : Nat} (hc : c &&& 0x1400080 = 0x1400080) {s0 : State} {s : State} (h : Keeps c s0 s) (a1 : ℕ) (a2 : ℕ) (a3 : ℕ) (a4 : Octets) : Keeps c s0 (State.ringFrame s a1 a2 a3 a4) := by
  unfold State.ringFrame
  exact (by extract_lets x0_0 x0_1 x0_2 x0_3 x0_4; have h1 : Keeps c s0 x0_2 := (Keeps.ite (fun _ => h) (fun _ => (State.onRing_keeps (kS hc rfl) h _ _))); have h2 : Keeps c s0 x0_3 := (Keeps.ite (fun _ => (State.onRing_keeps (kS hc rfl) h1 _ _)) (fun _ => h1)); have h3 : Keeps c s0 x0_4 := (Keeps.ite (fun _ => (State.onRing_keeps (kS hc rfl) h2 _ _)) (fun _ => h2)); exact (Keeps.ite (fun _ => (Keeps.ite (fun _ => (State.ringSleep_keeps (kS hc rfl) h3 _)) (fun _ => h3))) (fun _ => (State.ringWake_keeps (kS hc rfl) h3 _ _))))

theorem State.ringInput_keeps {c : Nat} (hc : c &&& 0x1400080 = 0x1400080) {s0 : State} {s : State} (h : Keeps c s0 s) (a1 : ℕ) (a2 : ℕ) (a3 : Octets) : Keeps c s0 (State.ringInput s a1 a2 a3) := by
  unfold State.ringInput
  exact (by extract_lets x0_0; exact (Keeps.foldl (fun _ _ h1 => (by extract_lets x2_0 x2_1; exact (Keeps.ite (fun _ => (State.ringFrame_keeps (kS hc rfl) h1 _ _ _ _)) (fun _ => h1)))) _ h))

theorem State.ringLost_keeps {c : Nat} (hc : c &&& 0x35d08e0 = 0x35d08e0) {s0 : State} {s : State} (h : Keeps c s0 s) (a0 : ℕ) (a1 : ℕ) : Keeps c s0 (State.ringLost a0 a1 s) := by
  unfold State.ringLost
  exact (Keeps.ite (fun _ => (State.wkRings_keeps (kS hc rfl) h _ _)) (fun _ => h))

theorem State.ringPass_keeps {c : Nat} (hc : c &&& 0x35d08e0 = 0x35d08e0) {s0 : State} {s : State} (h : Keeps c s0 s) (a0 : ℕ) (a1 : ℕ) : Keeps c s0 (State.ringPass a0 a1 s) := by
  unfold State.ringPass
  exact (Keeps.ite (fun _ => (State.wkRings_keeps (kS hc rfl) h _ _)) (fun _ => h))

theorem State.ringStart_keeps {c : Nat} (hc : c &&& 0x35d08e0 = 0x35d08e0) {s0 : State} {s : State} (h : Keeps c s0 s) (a0 : ℕ) (a1 : ℕ) : Keeps c s0 (State.ringStart a0 a1 s) := by
  unfold State.ringStart
  exact (Keeps.ite (fun _ => (State.wkRings_keeps (kS hc rfl) h _ _)) (fun _ => h))

theorem State.sleepDone_keeps {c : Nat} (hc : c &&& 0x400000 = 0x400000) {s0 : State} {s : State} (h : Keeps c s0 s) (a1 : ℕ) : Keeps c s0 (State.sleepDone s a1) := by
  unfold State.sleepDone
  exact (Keeps.ite (fun _ => h) (fun _ => (State.onWk_keeps (kS hc rfl) h _)))

theorem State.sleepCancel_keeps {c : Nat} (hc : c &&& 0x5643ca2 = 0x5643ca2) {s0 : State} {s : State} (h : Keeps c s0 s) (a0 : ℕ) : Keeps c s0 (State.sleepCancel a0 s) := by
  unfold State.sleepCancel
  exact (by extract_lets x0_0 x0_1; have h1 : Keeps c s0 x0_0 := (State.tick_keeps (kS hc rfl) h _); exact (by split; exacts [(State.cancelSleep_keeps (kS hc rfl) h1 _), (Keeps.ite (fun _ => h1) (fun _ => (State.sleepDone_keeps (kS hc rfl) (State.applyHeld_keeps (kS hc rfl) (State.cancelSleep_keeps (kS hc rfl) h1 _)) _)))]))

theorem State.sleepGo_keeps {c : Nat} (hc : c &&& 0x400000 = 0x400000) {s0 : State} {s : State} (h : Keeps c s0 s) (a0 : ℕ) : Keeps c s0 (State.sleepGo a0 s) := by
  unfold State.sleepGo
  exact (by extract_lets x0_0; have h1 : Keeps c s0 x0_0 := (State.onWk_keeps (kS hc rfl) h _); exact (Keeps.ite (fun _ => (State.onWk_keeps (kS hc rfl) h1 _)) (fun _ => h1)))

theorem State.sleepRequest_keeps {c : Nat} (hc : c &&& 0x14020a2 = 0x14020a2) {s0 : State} {s : State} (h : Keeps c s0 s) (a0 : ℕ) (a1 : ℕ) : Keeps c s0 (State.sleepRequest a0 a1 s) := by
  unfold State.sleepRequest
  exact (by extract_lets x0_0 x0_1 x0_2 x0_3 x0_4; have h1 : Keeps c s0 x0_0 := (State.tick_keeps (kS hc rfl) h _); have h2 : Keeps c s0 x0_2 := (State.onWk_keeps (kS hc rfl) h1 _); have h3 : Keeps c s0 x0_3 := (State.beginQuiesce_keeps (kS hc rfl) h2); have h4 : Keeps c s0 x0_4 := (State.setFld_keeps (kS hc rfl) (State.setFld_keeps (kS hc rfl) h3 _ _ _ _) _ _ _ _); exact (Keeps.ite (fun _ => (Keeps.ite (fun _ => h1) (fun _ => (State.evt_keeps (kS hc rfl) (State.evt_keeps (kS hc rfl) (State.inc_keeps (kS hc rfl) (State.setBit_keeps (kS hc rfl) h4 _ _ _) _ _) _ _) _ _)))) (fun _ => (Keeps.ite (fun _ => h1) (fun _ => (State.decideSleep_keeps (kS hc rfl) h1 _ _))))))

theorem State.wkBegin_keeps {c : Nat} (hc : c &&& 0x400000 = 0x400000) {s0 : State} {s : State} (h : Keeps c s0 s) : Keeps c s0 (State.wkBegin s) := by
  unfold State.wkBegin
  exact (State.onWk_keeps (kS hc rfl) h _)

theorem State.wkTimer_keeps {c : Nat} (hc : c &&& 0x35d08e0 = 0x35d08e0) {s0 : State} {s : State} (h : Keeps c s0 s) (a1 : ℕ) : Keeps c s0 (State.wkTimer s a1) := by
  unfold State.wkTimer
  exact (by extract_lets x0_0 x0_1; have h1 : Keeps c s0 x0_0 := (State.wkNets_keeps (kS hc rfl) h _ _); exact (Keeps.ite (fun _ => (State.decideSleep_keeps (kS hc rfl) h1 _ _)) (fun _ => h1)))

theorem State.latch_keeps {c : Nat} (hc : c &&& 0x1000000 = 0x1000000) {s0 : State} {s : State} (h : Keeps c s0 s) (a1 : ℕ) (a2 : ℕ) (a3 : ℕ) : Keeps c s0 (State.latch s a1 a2 a3) := by
  unfold State.latch
  exact (Keeps.ite (fun _ => (State.onSill_keeps (kS hc rfl) h _)) (fun _ => (Keeps.ite (fun _ => (State.onSill_keeps (kS hc rfl) h _)) (fun _ => h))))

theorem State.powerReset_keeps {c : Nat} (hc : c &&& 0x7fffff0 = 0x7fffff0) {s0 : State} {s : State} (h : Keeps c s0 s) : Keeps c s0 (State.powerReset s) := by
  unfold State.powerReset
  exact (by extract_lets x0_0; exact (Keeps.mk' h (Nat.le_refl _) (Nat.le_refl _) (fun _ => List.Pairwise.nil) (fun _ => rfl) (fun _ => by simp) (fun h => by first | simpa using h | exact (List.length_map _).trans h) (fun _ => by simp) kO kO (kL hc) (kL hc) (kL hc) (kL hc) (kL hc) (kL hc) (kL hc) (kL hc) (kL hc) (kL hc) (kL hc) (kL hc) (kL hc) (kL hc) (kL hc) (kL hc) (kL hc) (kL hc) (kL hc) (kL hc) (kL hc) (kL hc) (kL hc)))

theorem State.startPulse_keeps {c : Nat} (hc : c &&& 0x1000000 = 0x1000000) {s0 : State} {s : State} (h : Keeps c s0 s) (a1 : ℕ) : Keeps c s0 (State.startPulse s a1) := by
  unfold State.startPulse
  exact (by extract_lets x0_0 x0_1; exact (Keeps.ite (fun _ => h) (fun _ => (State.onSill_keeps (kS hc rfl) h _))))

theorem State.tamperWake_keeps {c : Nat} (hc : c &&& 0x1000000 = 0x1000000) {s0 : State} {s : State} (h : Keeps c s0 s) (a1 : ℕ) (a2 : ℕ) : Keeps c s0 (State.tamperWake s a1 a2) := by
  unfold State.tamperWake
  exact (Keeps.ite (fun _ => (State.latch_keeps (kS hc rfl) h _ _ _)) (fun _ => h))

theorem driverOverTemperature_keeps {c : Nat} (hc : c &&& 0x1000002 = 0x1000002) {s0 : State} {s : State} (h : Keeps c s0 s) (a0 : ℕ) : Keeps c s0 (driverOverTemperature a0 s) := by
  unfold driverOverTemperature
  exact (State.onSill_keeps (kS hc rfl) (State.tick_keeps (kS hc rfl) h _) _)

theorem frameDieStart_keeps {c : Nat} (hc : c &&& 0x5ffbeb2 = 0x5ffbeb2) {s0 : State} {s : State} (h : Keeps c s0 s) (a0 : ℕ) : Keeps c s0 (frameDieStart a0 s) := by
  unfold frameDieStart
  exact (by extract_lets x0_0 x0_1; have h1 : Keeps c s0 x0_0 := (State.tick_keeps (kS hc rfl) h _); exact (Keeps.ite (fun _ => (State.dieStart_keeps (kS hc rfl) h1 _)) (fun _ => h1)))

theorem modeRequest_keeps {c : Nat} (hc : c &&& 0x4f7beb2 = 0x4f7beb2) {s0 : State} {s : State} (h : Keeps c s0 s) (a0 : Master) (a1 : World) (a2 : Mode) : Keeps c s0 (modeRequest a0 a1 a2 s) := by
  unfold modeRequest
  exact (Keeps.ite (fun _ => h) (fun _ => (by extract_lets x0_0; exact (by clear_value x0_0; split; exacts [(hostRaise_keeps (kS hc rfl) h _), (hostRaise_keeps (kS hc rfl) h _), (State.enterBench_keeps (kS hc rfl) h), (State.holdToBench_keeps (kS hc rfl) h), (State.notice_keeps (kS hc rfl) h _ _ _)]))))

theorem osc32Failure_keeps {c : Nat} (hc : c &&& 0x1000002 = 0x1000002) {s0 : State} {s : State} (h : Keeps c s0 s) (a0 : ℕ) : Keeps c s0 (osc32Failure a0 s) := by
  unfold osc32Failure
  exact (by extract_lets x0_0; have h1 : Keeps c s0 x0_0 := (State.tick_keeps (kS hc rfl) h _); exact (Keeps.ite (fun _ => (State.onSill_keeps (kS hc rfl) h1 _)) (fun _ => h1)))

theorem phyWakeDetect_keeps {c : Nat} (hc : c &&& 0x1000422 = 0x1000422) {s0 : State} {s : State} (h : Keeps c s0 s) (a0 : ℕ) (a1 : ℕ) (a2 : ℕ) : Keeps c s0 (phyWakeDetect a0 a1 a2 s) := by
  unfold phyWakeDetect
  exact (by extract_lets x0_0 x0_1 x0_2; have h1 : Keeps c s0 x0_0 := (t1sWakeInService_keeps (kS hc rfl) h _ _ _); exact (Keeps.ite (fun _ => (State.latch_keeps (kS hc rfl) h1 _ _ _)) (fun _ => h1)))

theorem poresetAssert_keeps {c : Nat} (hc : c &&& 0x7fffff0 = 0x7fffff0) {s0 : State} {s : State} (h : Keeps c s0 s) : Keeps c s0 (poresetAssert s) := by
  unfold poresetAssert
  exact (Keeps.ite (fun _ => (State.gradeRegs_keeps (kS hc rfl) (State.powerReset_keeps (kS hc rfl) h))) (fun _ => h))

theorem poresetRelease_keeps {c : Nat} (hc : c &&& 0x1200002 = 0x1200002) {s0 : State} {s : State} (h : Keeps c s0 s) (a0 : ℕ) (a1 : Bool) : Keeps c s0 (poresetRelease a0 a1 s) := by
  unfold poresetRelease
  exact (by extract_lets x0_0 x0_1; have h1 : Keeps c s0 x0_0 := (State.tick_keeps (kS hc rfl) h _); have h2 : Keeps c s0 x0_1 := (State.onTw_keeps (kS hc rfl) h1 _); exact (Keeps.ite (fun _ => h1) (fun _ => (State.latch_keeps (kS hc rfl) (State.onSill_keeps (kS hc rfl) h2 _) _ _ _))))

theorem powerupTimeout_keeps {c : Nat} (hc : c &&& 0x1000002 = 0x1000002) {s0 : State} {s : State} (h : Keeps c s0 s) (a0 : ℕ) : Keeps c s0 (powerupTimeout a0 s) := by
  unfold powerupTimeout
  exact (by extract_lets x0_0 x0_1; have h1 : Keeps c s0 x0_0 := (State.tick_keeps (kS hc rfl) h _); exact (by split; exacts [h1, (Keeps.ite (fun _ => h1) (fun _ => (Keeps.ite (fun _ => (State.onSill_keeps (kS hc rfl) h1 _)) (fun _ => (State.onSill_keeps (kS hc rfl) h1 _)))))]))

theorem railRecovery_keeps {c : Nat} (hc : c &&& 0x1000002 = 0x1000002) {s0 : State} {s : State} (h : Keeps c s0 s) (a0 : ℕ) : Keeps c s0 (railRecovery a0 s) := by
  unfold railRecovery
  exact (State.onSill_keeps (kS hc rfl) (State.tick_keeps (kS hc rfl) h _) _)

theorem railUndervoltage_keeps {c : Nat} (hc : c &&& 0x7f7ffb2 = 0x7f7ffb2) {s0 : State} {s : State} (h : Keeps c s0 s) (a0 : ℕ) (a1 : ℕ) : Keeps c s0 (railUndervoltage a0 a1 s) := by
  unfold railUndervoltage
  exact (by extract_lets x0_0 x0_1 x0_2; have h1 : Keeps c s0 x0_0 := (State.tick_keeps (kS hc rfl) h _); have h2 : Keeps c s0 x0_1 := (State.dieReset_keeps (kS hc rfl) h1 _); have h3 : Keeps c s0 x0_2 := (State.onSill_keeps (kS hc rfl) h2 _); exact (Keeps.ite (fun _ => (Keeps.set_mode (kT hc rfl) h3 _)) (fun _ => h1)))

theorem sillTimerWake_keeps {c : Nat} (hc : c &&& 0x1000002 = 0x1000002) {s0 : State} {s : State} (h : Keeps c s0 s) (a0 : ℕ) : Keeps c s0 (sillTimerWake a0 s) := by
  unfold sillTimerWake
  exact (by extract_lets x0_0; have h1 : Keeps c s0 x0_0 := (State.tick_keeps (kS hc rfl) h _); exact (Keeps.ite (fun _ => (State.onSill_keeps (kS hc rfl) (State.latch_keeps (kS hc rfl) h1 _ _ _) _)) (fun _ => h1)))

theorem sleepCommit_keeps {c : Nat} (hc : c &&& 0x7f7fff2 = 0x7f7fff2) {s0 : State} {s : State} (h : Keeps c s0 s) (a0 : ℕ) : Keeps c s0 (sleepCommit a0 s) := by
  unfold sleepCommit
  exact (by extract_lets x0_0 x0_1 x0_2 x0_3 x0_4 x0_5; have h1 : Keeps c s0 x0_0 := (State.tick_keeps (kS hc rfl) h _); have h2 : Keeps c s0 x0_3 := (State.armSill_keeps (kS hc rfl) h1); have h3 : Keeps c s0 x0_4 := (State.dieReset_keeps (kS hc rfl) h2 _); have h4 : Keeps c s0 x0_5 := (State.onSill_keeps (kS hc rfl) h3 _); exact (Keeps.ite (fun _ => h1) (fun _ => (Keeps.mk' h4 (Nat.le_refl _) (Nat.le_refl _) id (fun _ => rfl) id id id kO kO (kL hc) kO (kL hc) kO kO kO kO kO kO kO kO kO kO kO kO kO kO kO kO kO kO kO kO))))

theorem vsillApplied_keeps {c : Nat} (hc : c &&& 0x7fffff2 = 0x7fffff2) {s0 : State} {s : State} (h : Keeps c s0 s) (a0 : ℕ) : Keeps c s0 (vsillApplied a0 s) := by
  unfold vsillApplied
  exact (by extract_lets x0_0 x0_1; have h1 : Keeps c s0 x0_0 := (State.tick_keeps (kS hc rfl) h _); have h2 : Keeps c s0 x0_1 := (State.gradeRegs_keeps (kS hc rfl) (State.powerReset_keeps (kS hc rfl) h1)); exact (Keeps.ite (fun _ => h1) (fun _ => (State.onSill_keeps (kS hc rfl) h2 _))))

theorem vsillLoss_keeps {c : Nat} (hc : c &&& 0x7fffff0 = 0x7fffff0) {s0 : State} {s : State} (h : Keeps c s0 s) : Keeps c s0 (vsillLoss s) := by
  unfold vsillLoss
  exact (Keeps.ite (fun _ => h) (fun _ => (by extract_lets x0_0; have h1 : Keeps c s0 x0_0 := (State.powerReset_keeps (kS hc rfl) h); exact (Keeps.mk' h1 (Nat.le_refl _) (Nat.le_refl _) id id id id id kO kO (kL hc) kO kO kO kO kO kO kO kO kO kO kO kO kO kO (kL hc) kO (kL hc) kO kO (kL hc) kO kO))))

theorem wakeActed_keeps {c : Nat} (hc : c &&& 0x1000002 = 0x1000002) {s0 : State} {s : State} (h : Keeps c s0 s) (a0 : ℕ) : Keeps c s0 (wakeActed a0 s) := by
  unfold wakeActed
  exact (by extract_lets x0_0; have h1 : Keeps c s0 x0_0 := (State.tick_keeps (kS hc rfl) h _); exact (Keeps.ite (fun _ => h1) (fun _ => (by split; exacts [h1, (Keeps.ite (fun _ => h1) (fun _ => (by extract_lets x2_0; have h3 : Keeps c s0 x2_0 := (State.onSill_keeps (kS hc rfl) h1 _); exact (Keeps.ite (fun _ => (State.startPulse_keeps (kS hc rfl) h3 _)) (fun _ => h3)))))]))))

theorem wakeInDetect_keeps {c : Nat} (hc : c &&& 0x1000002 = 0x1000002) {s0 : State} {s : State} (h : Keeps c s0 s) (a0 : ℕ) (a1 : ℕ) : Keeps c s0 (wakeInDetect a0 a1 s) := by
  unfold wakeInDetect
  exact (by extract_lets x0_0; have h1 : Keeps c s0 x0_0 := (State.tick_keeps (kS hc rfl) h _); exact (Keeps.ite (fun _ => (State.latch_keeps (kS hc rfl) h1 _ _ _)) (fun _ => h1)))

theorem wakeListenerMatch_keeps {c : Nat} (hc : c &&& 0x1000002 = 0x1000002) {s0 : State} {s : State} (h : Keeps c s0 s) (a0 : ℕ) (a1 : ℕ) (a2 : Bool) (a3 : Octets) : Keeps c s0 (wakeListenerMatch a0 a1 a2 a3 s) := by
  unfold wakeListenerMatch
  exact (by extract_lets x0_0 x0_1 x0_2 x0_3 x0_4 x0_5 x0_6 x0_7 x0_8; have h1 : Keeps c s0 x0_0 := (State.tick_keeps (kS hc rfl) h _); have h2 : Keeps c s0 x0_6 := (State.onSill_keeps (kS hc rfl) h1 _); exact (Keeps.ite (fun _ => h1) (fun _ => (Keeps.ite (fun _ => (State.latch_keeps (kS hc rfl) h2 _ _ _)) (fun _ => h2)))))

theorem wakeOutPulseEnd_keeps {c : Nat} (hc : c &&& 0x1000002 = 0x1000002) {s0 : State} {s : State} (h : Keeps c s0 s) (a0 : ℕ) : Keeps c s0 (wakeOutPulseEnd a0 s) := by
  unfold wakeOutPulseEnd
  exact (by extract_lets x0_0; have h1 : Keeps c s0 x0_0 := (State.tick_keeps (kS hc rfl) h _); exact (Keeps.ite (fun _ => (State.onSill_keeps (kS hc rfl) h1 _)) (fun _ => h1)))

theorem wakeOutRequest_keeps {c : Nat} (hc : c &&& 0x1000002 = 0x1000002) {s0 : State} {s : State} (h : Keeps c s0 s) (a0 : ℕ) : Keeps c s0 (wakeOutRequest a0 s) := by
  unfold wakeOutRequest
  exact (by extract_lets x0_0; have h1 : Keeps c s0 x0_0 := (State.tick_keeps (kS hc rfl) h _); exact (Keeps.ite (fun _ => (State.startPulse_keeps (kS hc rfl) h1 _)) (fun _ => h1)))

theorem watchDwellExpiry_keeps {c : Nat} (hc : c &&& 0x1000012 = 0x1000012) {s0 : State} {s : State} (h : Keeps c s0 s) (a0 : ℕ) : Keeps c s0 (watchDwellExpiry a0 s) := by
  unfold watchDwellExpiry
  exact (by extract_lets x0_0 x0_1 x0_2; have h1 : Keeps c s0 x0_0 := (State.tick_keeps (kS hc rfl) h _); have h2 : Keeps c s0 x0_2 := (State.onSill_keeps (kS hc rfl) h1 _); exact (Keeps.ite (fun _ => (Keeps.set_mode (kT hc rfl) h2 _)) (fun _ => h1)))

theorem State.cpCommand_keeps {c : Nat} (hc : c &&& 0xc0 = 0xc0) {s0 : State} {s : State} (h : Keeps c s0 s) (a0 : ℕ) (a1 : List ℕ) : Keeps c s0 (State.cpCommand a0 a1 s) := by
  unfold State.cpCommand
  exact (by extract_lets x0_0 x0_1; exact (by split; exacts [(State.freshnessWrite_keeps (kS hc rfl) h _ _), (State.profileWrite_keeps (kS hc rfl) h _ _), (State.cpReject_keeps (kS hc rfl) h)]))

theorem State.putMask_keeps {c : Nat} (hc : c &&& 0x20 = 0x20) {s0 : State} {s : State} (h : Keeps c s0 s) (a1 : ℕ) (a2 : ℕ) (a3 : ℕ) : Keeps c s0 (State.putMask s a1 a2 a3) := by
  unfold State.putMask
  exact (State.wrN_keeps (kS hc rfl) h _ _)

theorem State.gctlWrite_keeps {c : Nat} (hc : c &&& 0x400a0 = 0x400a0) {s0 : State} {s : State} (h : Keeps c s0 s) (a1 : ℕ) (a2 : ℕ) (a3 : ℕ) (a4 : ℕ) : Keeps c s0 (State.gctlWrite s a1 a2 a3 a4) := by
  unfold State.gctlWrite
  exact (by extract_lets x0_0 x0_1 x0_2 x0_3; have h1 : Keeps c s0 x0_2 := (State.putMask_keeps (kS hc rfl) h _ _ _); have h2 : Keeps c s0 x0_3 := (Keeps.ite (fun _ => h) (fun _ => h1)); exact (Keeps.ite (fun _ => (gateActivate_keeps (kS hc rfl) h2 _ _)) (fun _ => h2)))

theorem State.swapCommand_keeps {c : Nat} (hc : c &&& 0x2c20 = 0x2c20) {s0 : State} {s : State} (h : Keeps c s0 s) (a1 : ℕ) (a2 : ℕ) (a3 : List ℕ) : Keeps c s0 (State.swapCommand s a1 a2 a3) := by
  unfold State.swapCommand
  exact (by extract_lets x0_0 x0_1; have h1 : Keeps c s0 x0_0 := (State.wrN_keeps (kS hc rfl) h _ _); exact (by split; exacts [(swapSchedule_keeps (kS hc rfl) h1 _ _), (deltaDisarm_keeps (kS hc rfl) h1 _), h1]))

theorem State.updateCommand_keeps {c : Nat} (hc : c &&& 0x42c3ca0 = 0x42c3ca0) {s0 : State} {s : State} (h : Keeps c s0 s) (a1 : ℕ) (a2 : ℕ) (a3 : List ℕ) : Keeps c s0 (State.updateCommand s a1 a2 a3) := by
  unfold State.updateCommand
  exact (by extract_lets x0_0; have h1 : Keeps c s0 x0_0 := (State.wrN_keeps (kS hc rfl) h _ _); exact (Keeps.ite (fun _ => (State.keyUpdateApply_keeps (kS hc rfl) h1 _ _)) (fun _ => h1)))

theorem State.sgCommand_keeps {c : Nat} (hc : c &&& 0x20200e0 = 0x20200e0) {s0 : State} {s : State} (h : Keeps c s0 s) (a0 : ℕ) (a1 : ℕ) (a2 : List ℕ) : Keeps c s0 (State.sgCommand a0 a1 a2 s) := by
  unfold State.sgCommand
  exact (by extract_lets x0_0 x0_1 x0_2; exact (by split; exacts [(routeWrite_keeps (kS hc rfl) h _ _ _), (cellWrite_keeps (kS hc rfl) h _ _), (pduDescriptorWrite_keeps (kS hc rfl) h _ _ _), (imageWrite_keeps (kS hc rfl) h _ _ _ _ _), (hostSend_keeps (kS hc rfl) h _), (restartTimeout_keeps (kS hc rfl) h _ _), (State.gwRefuse_keeps (kS hc rfl) h)]))

theorem State.tbCommand_keeps {c : Nat} (hc : c &&& 0x200e0 = 0x200e0) {s0 : State} {s : State} (h : Keeps c s0 s) (a0 : ℕ) (a1 : ℕ) (a2 : List ℕ) : Keeps c s0 (State.tbCommand a0 a1 a2 s) := by
  unfold State.tbCommand
  exact (by extract_lets x0_0 x0_1; exact (by split; exacts [(State.directEntryWrite_keeps (kS hc rfl) h _ _), (State.hashInsert_keeps (kS hc rfl) h _ _), (State.hashDelete_keeps (kS hc rfl) h _ _), (State.prefixAdd_keeps (kS hc rfl) h _ _ _), (State.prefixDelete_keeps (kS hc rfl) h _ _), (State.learnedFlush_keeps (kS hc rfl) h _ _ _), (State.tabReject_keeps (kS hc rfl) h)]))

theorem State.scCommand_keeps {c : Nat} (hc : c &&& 0xc0 = 0xc0) {s0 : State} {s : State} (h : Keeps c s0 s) (a0 : ℕ) (a1 : ℕ) (a2 : List ℕ) : Keeps c s0 (State.scCommand a0 a1 a2 s) := by
  unfold State.scCommand
  exact (by extract_lets x0_0 x0_1; exact (by split; exacts [(meterWrite_keeps (kS hc rfl) h _ _ _), (meterUnblock_keeps (kS hc rfl) h _), (meterClearCounters_keeps (kS hc rfl) h _), (State.scRefuse_keeps (kS hc rfl) h _)]))

theorem State.tenonWrite_keeps {c : Nat} (hc : c &&& 0x24a0 = 0x24a0) {s0 : State} {s : State} (h : Keeps c s0 s) (a1 : ℕ) (a2 : ℕ) (a3 : ℕ) (a4 : ℕ) : Keeps c s0 (State.tenonWrite s a1 a2 a3 a4) := by
  unfold State.tenonWrite
  exact (by extract_lets x0_0 x0_1 x0_2 x0_3 x0_4 x0_5; have h1 : Keeps c s0 x0_1 := (canOpmodeWrite_keeps (kS hc rfl) h _ _); have h2 : Keeps c s0 x0_2 := (State.setFld_keeps (kS hc rfl) (linTableWrite_keeps (kS hc rfl) h _ _ _) _ _ _ _); have h3 : Keeps c s0 x0_3 := (State.setBit_keeps (kS hc rfl) (linRunWrite_keeps (kS hc rfl) h2 _ _ _) _ _ _); have h4 : Keeps c s0 x0_4 := (Keeps.ite (fun _ => (linSleepCommand_keeps (kS hc rfl) h3 _ _)) (fun _ => h3)); have h5 : Keeps c s0 x0_5 := (Keeps.ite (fun _ => (phyResetCommand_keeps (kS hc rfl) h _)) (fun _ => h)); exact (Keeps.ite (fun _ => h) (fun _ => (by split; exacts [(Keeps.ite (fun _ => (Keeps.ite (fun _ => (busOffRecoveryRequest_keeps (kS hc rfl) h1 _)) (fun _ => h1))) (fun _ => (Keeps.ite (fun _ => (canTxAbort_keeps (kS hc rfl) h _ _)) (fun _ => h)))), (Keeps.ite (fun _ => (Keeps.ite (fun _ => (linWakeRequest_keeps (kS hc rfl) h4 _)) (fun _ => h4))) (fun _ => h)), h, (Keeps.ite (fun _ => (Keeps.ite (fun _ => (t1sWakeRequest_keeps (kS hc rfl) h5 _)) (fun _ => h5))) (fun _ => h))]))))

theorem State.mzWrite_keeps {c : Nat} (hc : c &&& 0x24a0 = 0x24a0) {s0 : State} {s : State} (h : Keeps c s0 s) (a1 : ℕ) (a2 : ℕ) (a3 : ℕ) (a4 : ℕ) : Keeps c s0 (State.mzWrite s a1 a2 a3 a4) := by
  unfold State.mzWrite
  exact (by extract_lets x0_0 x0_1; exact (Keeps.ite (fun _ => (mortiseRxInhibit_keeps (kS hc rfl) (mortiseTxInhibit_keeps (kS hc rfl) h _ _) _ _)) (fun _ => (Keeps.ite (fun _ => (hostCopyControl_keeps (kS hc rfl) h _ _)) (fun _ => (State.tenonWrite_keeps (kS hc rfl) h _ _ _ _))))))

theorem State.limWrite_keeps {c : Nat} (hc : c &&& 0x20 = 0x20) {s0 : State} {s : State} (h : Keeps c s0 s) (a1 : ℕ) (a2 : ℕ) (a3 : ℕ) (a4 : ℕ) (a5 : ℕ) : Keeps c s0 (State.limWrite s a1 a2 a3 a4 a5) := by
  unfold State.limWrite
  exact (by extract_lets x0_0 x0_1 x0_2; have h1 : Keeps c s0 x0_1 := (State.putMask_keeps (kS hc rfl) h _ _ _); exact (Keeps.ite (fun _ => h) (fun _ => (Keeps.ite (fun _ => (State.setLim_keeps (kS hc rfl) h1 _ _ _)) (fun _ => h1)))))

theorem State.pageWrite_keeps {c : Nat} (hc : c &&& 0x40020 = 0x40020) {s0 : State} {s : State} (h : Keeps c s0 s) (a1 : ℕ) (a2 : ℕ) (a3 : ℕ) (a4 : ℕ) : Keeps c s0 (State.pageWrite s a1 a2 a3 a4) := by
  unfold State.pageWrite
  exact (by extract_lets x0_0; have h1 : Keeps c s0 x0_0 := (State.putMask_keeps (kS hc rfl) h _ _ _); exact (Keeps.ite (fun _ => h) (fun _ => (Keeps.ite (fun _ => (State.resetGroup_keeps (kS hc rfl) h1 _)) (fun _ => h1)))))

theorem State.scWrite_keeps {c : Nat} (hc : c &&& 0x400a0 = 0x400a0) {s0 : State} {s : State} (h : Keeps c s0 s) (a1 : ℕ) (a2 : ℕ) (a3 : ℕ) (a4 : ℕ) : Keeps c s0 (State.scWrite s a1 a2 a3 a4) := by
  unfold State.scWrite
  exact (Keeps.ite (fun _ => (by extract_lets x0_0; have h1 : Keeps c s0 x0_0 := (State.putMask_keeps (kS hc rfl) h _ _ _); exact (Keeps.ite (fun _ => (histogramClear_keeps (kS hc rfl) h1)) (fun _ => h1)))) (fun _ => (Keeps.ite (fun _ => (by extract_lets x2_0 x2_1; exact (Keeps.ite (fun _ => h) (fun _ => (State.putMask_keeps (kS hc rfl) h _ _ _))))) (fun _ => (by extract_lets x3_0 x3_1; exact (Keeps.ite (fun _ => (State.limWrite_keeps (kS hc rfl) h _ _ _ _ _)) (fun _ => (Keeps.ite (fun _ => (State.gctlWrite_keeps (kS hc rfl) h _ _ _ _)) (fun _ => (Keeps.ite (fun _ => (Keeps.ite (fun _ => h) (fun _ => (State.putMask_keeps (kS hc rfl) h _ _ _)))) (fun _ => (State.pageWrite_keeps (kS hc rfl) h _ _ _ _))))))))))))

theorem State.wkCommand_keeps {c : Nat} (hc : c &&& 0x5643ca2 = 0x5643ca2) {s0 : State} {s : State} (h : Keeps c s0 s) (a1 : ℕ) (a2 : ℕ) : Keeps c s0 (State.wkCommand s a1 a2) := by
  unfold State.wkCommand
  exact (by extract_lets x0_0 x0_1 x0_2 x0_3; have h1 : Keeps c s0 x0_0 := (Keeps.ite (fun _ => (State.sleepRequest_keeps (kS hc rfl) h _ _)) (fun _ => h)); have h2 : Keeps c s0 x0_1 := (Keeps.ite (fun _ => (State.sleepGo_keeps (kS hc rfl) h1 _)) (fun _ => h1)); have h3 : Keeps c s0 x0_2 := (Keeps.ite (fun _ => (State.sleepCancel_keeps (kS hc rfl) h2 _)) (fun _ => h2)); have h4 : Keeps c s0 x0_3 := (Keeps.ite (fun _ => (State.awakeRestart_keeps (kS hc rfl) h3)) (fun _ => h3)); exact (Keeps.ite (fun _ => (wakeOutRequest_keeps (kS hc rfl) h4 _)) (fun _ => h4)))

theorem State.voteWrite_keeps {c : Nat} (hc : c &&& 0x14000a0 = 0x14000a0) {s0 : State} {s : State} (h : Keeps c s0 s) (a1 : ℕ) (a2 : ℕ) : Keeps c s0 (State.voteWrite s a1 a2) := by
  unfold State.voteWrite
  exact (by extract_lets x0_0; have h1 : Keeps c s0 x0_0 := (State.setBit_keeps (kS hc rfl) h _ _ _); exact (Keeps.ite (fun _ => (State.cancelSleep_keeps (kS hc rfl) h1 _)) (fun _ => h1)))

theorem State.ringWrite_keeps {c : Nat} (hc : c &&& 0x400020 = 0x400020) {s0 : State} {s : State} (h : Keeps c s0 s) (a1 : ℕ) (a2 : ℕ) (a3 : Bool) (a4 : ℕ) (a5 : ℕ) : Keeps c s0 (State.ringWrite s a1 a2 a3 a4 a5) := by
  unfold State.ringWrite
  exact (by extract_lets x0_0; have h1 : Keeps c s0 x0_0 := (State.putMask_keeps (kS hc rfl) h _ _ _); exact (Keeps.ite (fun _ => (Keeps.ite (fun _ => h) (fun _ => h1))) (fun _ => (Keeps.ite (fun _ => h) (fun _ => (Keeps.ite (fun _ => (State.onRing_keeps (kS hc rfl) h1 _ _)) (fun _ => h1)))))))

theorem State.wkWrite_keeps {c : Nat} (hc : c &&& 0x5643ca2 = 0x5643ca2) {s0 : State} {s : State} (h : Keeps c s0 s) (a1 : ℕ) (a2 : ℕ) (a3 : ℕ) (a4 : ℕ) : Keeps c s0 (State.wkWrite s a1 a2 a3 a4) := by
  unfold State.wkWrite
  exact (Keeps.ite (fun _ => (State.wkCommand_keeps (kS hc rfl) h _ _)) (fun _ => (Keeps.ite (fun _ => (State.voteWrite_keeps (kS hc rfl) h _ _)) (fun _ => (Keeps.ite (fun _ => (State.ringWrite_keeps (kS hc rfl) h _ _ _ _ _)) (fun _ => (State.putMask_keeps (kS hc rfl) h _ _ _)))))))

theorem State.ledgerWrite_keeps {c : Nat} (hc : c &&& 0x76e3ce2 = 0x76e3ce2) {s0 : State} {s : State} (h : Keeps c s0 s) (a0 : ℕ) (a1 : ℕ) (a2 : ℕ) (a3 : List ℕ) : Keeps c s0 (State.ledgerWrite a0 a1 a2 a3 s) := by
  unfold State.ledgerWrite
  exact (by extract_lets x0_0; exact (Keeps.ite (fun _ => (Keeps.ite (fun _ => h) (fun _ => (State.swapCommand_keeps (kS hc rfl) h _ _ _)))) (fun _ => (Keeps.ite (fun _ => (State.updateCommand_keeps (kS hc rfl) h _ _ _)) (fun _ => (Keeps.ite (fun _ => (Keeps.ite (fun _ => h) (fun _ => (State.sgCommand_keeps (kS hc rfl) h _ _ _)))) (fun _ => (Keeps.ite (fun _ => (Keeps.ite (fun _ => h) (fun _ => (State.tbCommand_keeps (kS hc rfl) h _ _ _)))) (fun _ => (Keeps.ite (fun _ => (Keeps.ite (fun _ => h) (fun _ => (State.scCommand_keeps (kS hc rfl) h _ _ _)))) (fun _ => (Keeps.ite (fun _ => (Keeps.ite (fun _ => h) (fun _ => (State.cpCommand_keeps (kS hc rfl) h _ _)))) (fun _ => (Keeps.ite (fun _ => (Keeps.ite (fun _ => (State.handoverCommand_keeps (kS hc rfl) h _)) (fun _ => h))) (fun _ => (Keeps.ite (fun _ => (State.mzWrite_keeps (kS hc rfl) h _ _ _ _)) (fun _ => (Keeps.ite (fun _ => (State.scWrite_keeps (kS hc rfl) h _ _ _ _)) (fun _ => (Keeps.ite (fun _ => (State.wkWrite_keeps (kS hc rfl) h _ _ _ _)) (fun _ => (State.putMask_keeps (kS hc rfl) h _ _ _))))))))))))))))))))))

theorem State.admitDrop_keeps {c : Nat} (hc : c &&& 0x80 = 0x80) {s0 : State} {s : State} (h : Keeps c s0 s) : Keeps c s0 (State.admitDrop s) := by
  unfold State.admitDrop
  exact (State.cEvt_keeps (kS hc rfl) (State.cInc_keeps (kS hc rfl) h _ _) _ _)

theorem State.policeInput_keeps {c : Nat} (hc : c &&& 0xc0 = 0xc0) {s0 : State} {s : State} (h : Keeps c s0 s) (a1 : ℕ) (a2 : ℕ) (a3 : Input) (a4 : Walker) : KeepsP c s0 (State.policeInput s a1 a2 a3 a4) := by
  unfold State.policeInput
  exact (Keeps.iteP (fun _ => (Keeps.mkP h)) (fun _ => (by extract_lets x0_0; exact (by split; exacts [(by have h1 := Keeps.ofP (by assumption) (State.police_keeps (kS hc rfl) h _ _ _ _); exact (by extract_lets x2_0; exact (Keeps.iteP (fun _ => (Keeps.mkP (State.cEvt_keeps (kS hc rfl) (State.cInc_keeps (kS hc rfl) h1 _ _) _ _))) (fun _ => (Keeps.mkP h1)))))]))))

theorem State.pathStep_keeps {c : Nat} (hc : c &&& 0x25a08e0 = 0x25a08e0) {s0 : State} {s : Walker × State} (h : KeepsP c s0 s) (a0 : ℕ) (a1 : ℕ) (a2 : Input) (a3 : List PathStep) (a4 : Bool) (a6 : PathStep) : KeepsP c s0 (State.pathStep a0 a1 a2 a3 a4 s a6) := by
  unfold State.pathStep
  exact (by split; exacts [(by split; exacts [(Keeps.mkP (State.learnLookup_keeps (kS hc rfl) h _ _ _)), (Keeps.iteP (fun _ => (State.policeInput_keeps (kS hc rfl) h _ _ _ _)) (fun _ => h)), (Keeps.iteP (fun _ => (by split; exacts [(by have h0 := Keeps.ofP (by assumption) (State.keepAlive_keeps (kS hc rfl) h _ _ _); exact (Keeps.mkP h0))])) (fun _ => h)), (Keeps.iteP (fun _ => h) (fun _ => (by extract_lets x1_0 x1_1; exact (by split; exacts [(by have h2 := Keeps.ofP (by assumption) (Keeps.iteP (fun _ => (State.cbRecover_keeps (kS hc rfl) h _ _ _ _ _)) (fun _ => (Keeps.mkP h))); exact (Keeps.mkP h2))])))), (Keeps.iteP (fun _ => h) (fun _ => (Keeps.iteP (fun _ => (Keeps.mkP (State.isoLoss_keeps (kS hc rfl) h))) (fun _ => (by extract_lets x3_0; exact (by split; exacts [(by have h4 := Keeps.ofP (by assumption) (State.macsecVerify_keeps (kS hc rfl) h _ _ _); exact (Keeps.mkP h4)), (by have h5 := Keeps.ofP (by assumption) (State.macsecVerify_keeps (kS hc rfl) h _ _ _); exact (Keeps.mkP h5))])))))), h])])

theorem State.dispatchInput_keeps {c : Nat} (hc : c &&& 0x21c08e0 = 0x21c08e0) {s0 : State} {s : State} (h : Keeps c s0 s) (a1 : ℕ) (a2 : Input) (a3 : Octets) (a4 : ℕ) (a5 : ℕ) : Keeps c s0 (State.dispatchInput s a1 a2 a3 a4 a5) := by
  unfold State.dispatchInput
  exact (Keeps.ite (fun _ => (State.isoLoss_keeps (kS hc rfl) h)) (fun _ => (State.applyRoute_keeps (kS hc rfl) h _ _ _ _ _ _ _)))

theorem State.copyTo_keeps {c : Nat} (hc : c &&& 0x21c08e0 = 0x21c08e0) {s0 : State} {s : State} (h : Keeps c s0 s) (a1 : ℕ) (a2 : Walker) (a3 : Option ℕ) (a4 : ℕ) (a5 : ℕ) (a6 : Option ℕ) : Keeps c s0 (State.copyTo s a1 a2 a3 a4 a5 a6) := by
  unfold State.copyTo
  exact (by extract_lets x0_0 x0_1; exact (by split; exacts [(State.enqueue_keeps (kS hc rfl) h _ _), (Keeps.ite (fun _ => (State.isoLoss_keeps (kS hc rfl) h)) (fun _ => (Keeps.ite (fun _ => (State.enqueue_keeps (kS hc rfl) h _ _)) (fun _ => (by split; exacts [(by have h1 := Keeps.ofP (by assumption) (State.macsecProtect_keeps (kS hc rfl) h _ _ _); exact (State.enqueue_keeps (kS hc rfl) h1 _ _)), (by have h2 := Keeps.ofP (by assumption) (State.macsecProtect_keeps (kS hc rfl) h _ _ _); exact h2)])))))]))

theorem State.pathSends_keeps {c : Nat} (hc : c &&& 0x21c08e0 = 0x21c08e0) {s0 : State} {s : State} (h : Keeps c s0 s) (a1 : ℕ) (a2 : Input) (a3 : Walker) (a4 : List PathStep) : Keeps c s0 (State.pathSends s a1 a2 a3 a4) := by
  unfold State.pathSends
  exact (by extract_lets x0_0 x0_1; exact (by split; exacts [(by have h1 := Keeps.ofP (by assumption) (by split; exacts [(Keeps.iteP (fun _ => (by split; exacts [(by have h2 := Keeps.ofP (by assumption) (State.cbGenerate_keeps (kS hc rfl) h _); exact (Keeps.mkP h2))])) (fun _ => (Keeps.mkP h))), (Keeps.mkP h)]); exact (Keeps.foldl (fun _ _ h3 => (by split; exacts [(State.dispatchInput_keeps (kS hc rfl) h3 _ _ _ _ _), (Keeps.ite (fun _ => h3) (fun _ => (State.copyTo_keeps (kS hc rfl) h3 _ _ _ _ _ _))), h3])) _ h1))]))

theorem State.runPath_keeps {c : Nat} (hc : c &&& 0x25e08e0 = 0x25e08e0) {s0 : State} {s : State} (h : Keeps c s0 s) (a1 : ℕ) (a2 : ℕ) (a3 : Input) (a4 : List PathStep) (a5 : Option (ℕ × ℕ)) (a6 : Bool) : Keeps c s0 (State.runPath s a1 a2 a3 a4 a5 a6) := by
  unfold State.runPath
  exact (Keeps.ite (fun _ => (State.isoLoss_keeps (kS hc rfl) h)) (fun _ => (Keeps.ite (fun _ => h) (fun _ => (by extract_lets x0_0; exact (by split; exacts [(by have h1 := Keeps.ofP (by assumption) (Keeps.foldlP (fun _ _ h2 => (State.pathStep_keeps (kS hc rfl) h2 _ _ _ _ _ _)) _ (Keeps.mkP h)); exact (Keeps.ite (fun _ => h1) (fun _ => (by extract_lets x3_0; have h8 : Keeps c s0 x3_0 := (by unfold x3_0; split; exacts [(by have h4 := Keeps.ofP (by assumption) (Keeps.foldlP (fun _ _ h5 => (State.pathStep_keeps (kS hc rfl) h5 _ _ _ _ _ _)) _ (Keeps.mkP h)); exact (State.dispatchInput_keeps (kS hc rfl) h4 _ _ _ _ _)), (by have h6 := Keeps.ofP (by assumption) (Keeps.foldlP (fun _ _ h7 => (State.pathStep_keeps (kS hc rfl) h7 _ _ _ _ _ _)) _ (Keeps.mkP h)); exact h6)]); exact (State.pathSends_keeps (kS hc rfl) h8 _ _ _ _)))))]))))))

theorem State.bayInput_keeps {c : Nat} (hc : c &&& 0x25e08e0 = 0x25e08e0) {s0 : State} {s : State} (h : Keeps c s0 s) (a1 : ℕ) (a2 : ℕ) (a3 : Input) (a4 : Option (Bool × ℕ × ℕ)) : Keeps c s0 (State.bayInput s a1 a2 a3 a4) := by
  unfold State.bayInput
  exact (by extract_lets x0_0; exact (by split; exacts [(by extract_lets x1_0 x1_1 x1_2; exact (by split; exacts [(State.cEvt_keeps (kS hc rfl) (State.cInc_keeps (kS hc rfl) h _ _) _ _), (State.bayHost_keeps (kS hc rfl) h _ _ _ _ _ _ _), (Keeps.ite (fun _ => (State.cInc_keeps (kS hc rfl) h _ _)) (fun _ => (State.runPath_keeps (kS hc rfl) (Keeps.ite (fun _ => (State.bayHost_keeps (kS hc rfl) h _ _ _ _ _ _ _)) (fun _ => h)) _ _ _ _ _ _)))]))]))

theorem State.freeResult_keeps {c : Nat} (hc : c &&& 0x4 = 0x4) {s0 : State} {s : State} (h : Keeps c s0 s) : KeepsP c s0 (State.freeResult s) := by
  unfold State.freeResult
  exact (by split; exacts [(by have h0 := Keeps.ofP (by assumption) (State.fresh_keeps (kS hc rfl) h _); exact (Keeps.mkP h0))])

theorem State.grantEpoch_keeps {c : Nat} (hc : c &&& 0x800080 = 0x800080) {s0 : State} {s : State} (h : Keeps c s0 s) : Keeps c s0 (State.grantEpoch s) := by
  unfold State.grantEpoch
  exact (by extract_lets x0_0; exact (State.onPw_keeps (kS hc rfl) (State.cPut_keeps (kS hc rfl) h _ _ _ _) _))

theorem State.hostCopy_keeps {c : Nat} (hc : c &&& 0x2000020 = 0x2000020) {s0 : State} {s : State} (h : Keeps c s0 s) (a1 : ℕ) (a2 : Input) (a3 : Bool) (a4 : Bool) : Keeps c s0 (State.hostCopy s a1 a2 a3 a4) := by
  unfold State.hostCopy
  exact (by extract_lets x0_0 x0_1 x0_2 x0_3; exact (Keeps.ite (fun _ => h) (fun _ => (by split; exacts [(by have h1 := Keeps.ofP (by assumption) (State.ringPut_keeps (kS hc rfl) h _ _); exact (Keeps.ite (fun _ => h1) (fun _ => (State.evt_keeps (kS hc rfl) (State.inc_keeps (kS hc rfl) h1 _ _) _ _))))]))))

theorem State.idFrame_keeps {c : Nat} (hc : c &&& 0x35e08e0 = 0x35e08e0) {s0 : State} {s : State} (h : Keeps c s0 s) (a1 : ℕ) (a2 : ℕ) (a3 : Input) (a4 : Option (Bool × ℕ × ℕ)) : Keeps c s0 (State.idFrame s a1 a2 a3 a4) := by
  unfold State.idFrame
  exact (by extract_lets x0_0 x0_1 x0_2; exact (Keeps.ite (fun _ => (State.cInc_keeps (kS hc rfl) h _ _)) (fun _ => (Keeps.ite (fun _ => (State.isoLoss_keeps (kS hc rfl) h)) (fun _ => (by split; exacts [(by extract_lets x1_0 x1_1 x1_2 x1_3 x1_4; have h2 : Keeps c s0 x1_3 := (State.hostCopy_keeps (kS hc rfl) h _ _ _ _); have h3 : Keeps c s0 x1_4 := (Keeps.ite (fun _ => (State.frameCancels_keeps (kS hc rfl) (State.ringInput_keeps (kS hc rfl) h2 _ _ _) _ _ _)) (fun _ => h2)); exact (Keeps.ite (fun _ => (State.cInc_keeps (kS hc rfl) h _ _)) (fun _ => (Keeps.ite (fun _ => (State.runPath_keeps (kS hc rfl) h3 _ _ _ _ _ _)) (fun _ => (State.cInc_keeps (kS hc rfl) h3 _ _))))))]))))))

theorem State.namedChanges_keeps {c : Nat} (hc : c &&& 0x4bf7ce0 = 0x4bf7ce0) {s0 : State} {s : State} (h : Keeps c s0 s) (a1 : ℕ) : Keeps c s0 (State.namedChanges s a1) := by
  unfold State.namedChanges
  exact (by extract_lets x0_0 x0_1; have h1 : Keeps c s0 x0_0 := (Keeps.ite (fun _ => (State.lateProcess_keeps (kS hc rfl) (State.lateNow_keeps (kS hc rfl) h))) (fun _ => h)); have h2 : Keeps c s0 x0_1 := (Keeps.ite (fun _ => (State.swapProcess_keeps (kS hc rfl) h1 _)) (fun _ => h1)); exact (State.scanRepairs_keeps (kS hc rfl) (State.prefixEffect_keeps (kS hc rfl) (State.keyUpdateInForce_keeps (kS hc rfl) h2 _) _)))

theorem State.tableError_keeps {c : Nat} (hc : c &&& 0x4243c20 = 0x4243c20) {s0 : State} {s : State} (h : Keeps c s0 s) (a1 : Bool) : Keeps c s0 (State.tableError s a1) := by
  unfold State.tableError
  exact (Keeps.ite (fun _ => (State.raiseFault_keeps (kS hc rfl) h _ _ _ _)) (fun _ => (State.countError_keeps (kS hc rfl) (State.raiseFault_keeps (kS hc rfl) (State.evt_keeps (kS hc rfl) (State.inc_keeps (kS hc rfl) h _ _) _ _) _ _ _ _) _)))

theorem State.readErrors_keeps {c : Nat} (hc : c &&& 0x4243c24 = 0x4243c24) {s0 : State} {s : State} (h : Keeps c s0 s) (a1 : List (ℕ × Bool)) (a2 : ℕ) : KeepsP c s0 (State.readErrors s a1 a2) := by
  unfold State.readErrors
  exact (by extract_lets x0_0 x0_1; have h2 : Keeps c s0 x0_1 := (Keeps.foldl (fun _ _ h1 => (State.tableError_keeps (kS hc rfl) h1 _)) _ h); exact (Keeps.iteP (fun _ => (by split; exacts [(by have h3 := Keeps.ofP (by assumption) (State.freeResult_keeps (kS hc rfl) h2); exact (Keeps.mkP h3))])) (fun _ => (Keeps.mkP h2))))

theorem State.mortEvent_keeps {c : Nat} (hc : c &&& 0x34020a0 = 0x34020a0) {s0 : State} {s : State} (h : Keeps c s0 s) (a1 : ℕ) (a2 : Input) : Keeps c s0 (State.mortEvent s a1 a2) := by
  unfold State.mortEvent
  exact (by extract_lets x0_0 x0_1 x0_2; have h1 : Keeps c s0 x0_1 := (State.hostCopy_keeps (kS hc rfl) h _ _ _ _); have h2 : Keeps c s0 x0_2 := (by unfold x0_2; split; exacts [(State.canEvent_keeps (kS hc rfl) h1 _ _ _), (State.linEvent_keeps (kS hc rfl) h1 _ _), h1, (State.t1sEvent_keeps (kS hc rfl) h1 _ _)]); exact (State.eventCancels_keeps (kS hc rfl) h2 _ _ _))

theorem State.mortInput_keeps {c : Nat} (hc : c &&& 0x35e28e0 = 0x35e28e0) {s0 : State} {s : State} (h : Keeps c s0 s) (a1 : ℕ) (a2 : ℕ) (a3 : Bool) (a4 : Input) (a5 : Option (Bool × ℕ × ℕ)) : Keeps c s0 (State.mortInput s a1 a2 a3 a4 a5) := by
  unfold State.mortInput
  exact (by extract_lets x0_0 x0_1 x0_2 x0_3; have h1 : Keeps c s0 x0_1 := (State.cInc_keeps (kS hc rfl) h _ _); have h2 : Keeps c s0 x0_2 := (Keeps.ite (fun _ => (State.linFrameDone_keeps (kS hc rfl) h1 _)) (fun _ => h1)); exact (Keeps.ite (fun _ => (State.admitDrop_keeps (kS hc rfl) h2)) (fun _ => (Keeps.ite (fun _ => (State.isoLoss_keeps (kS hc rfl) h2)) (fun _ => (Keeps.ite (fun _ => (State.hostCopy_keeps (kS hc rfl) (State.cEvt_keeps (kS hc rfl) (State.cInc_keeps (kS hc rfl) h2 _ _) _ _) _ _ _ _)) (fun _ => (Keeps.ite (fun _ => (State.mortEvent_keeps (kS hc rfl) h2 _ _)) (fun _ => (by split; exacts [(State.idFrame_keeps (kS hc rfl) h2 _ _ _ _), (State.idFrame_keeps (kS hc rfl) h2 _ _ _ _), h2, (Keeps.ite (fun _ => (State.cInc_keeps (kS hc rfl) h2 _ _)) (fun _ => (State.runPath_keeps (kS hc rfl) (State.hostCopy_keeps (kS hc rfl) h2 _ _ _ _) _ _ _ _ _ _)))]))))))))))

theorem State.ringFrameInput_keeps {c : Nat} (hc : c &&& 0x25e08e0 = 0x25e08e0) {s0 : State} {s : State} (h : Keeps c s0 s) (a1 : ℕ) (a2 : ℕ) (a3 : Input) (a4 : Option (Bool × ℕ × ℕ)) : Keeps c s0 (State.ringFrameInput s a1 a2 a3 a4) := by
  unfold State.ringFrameInput
  exact (by extract_lets x0_0; exact (Keeps.ite (fun _ => (State.cInc_keeps (kS hc rfl) h _ _)) (fun _ => (State.runPath_keeps (kS hc rfl) h _ _ _ _ _ _))))

theorem State.runInput_keeps {c : Nat} (hc : c &&& 0x77ebce6 = 0x77ebce6) {s0 : State} {s : Budgets × State} (h : KeepsP c s0 s) (a0 : ℕ) (a1 : List (ℕ × Bool)) (a3 : ℕ × Input) : KeepsP c s0 (State.runInput a0 a1 s a3) := by
  unfold State.runInput
  exact (by split; exacts [(by split; exacts [(by split; exacts [(by extract_lets x0_0; have h1 : Keeps c s0 x0_0 := (State.onCp_keeps (kS hc rfl) h _); exact (by split; exacts [(by have h2 := Keeps.ofP (by assumption) (Keeps.iteP (fun _ => (State.readErrors_keeps (kS hc rfl) h1 _ _)) (fun _ => (Keeps.mkP h1))); exact (by extract_lets x3_0 x3_1; have h4 : Keeps c s0 x3_0 := (State.cInc_keeps (kS hc rfl) h2 _ _); have h5 : Keeps c s0 x3_1 := (by unfold x3_1; split; exacts [(State.mortInput_keeps (kS hc rfl) h2 _ _ _ _ _), (Keeps.ite (fun _ => (State.admitDrop_keeps (kS hc rfl) h2)) (fun _ => (Keeps.ite (fun _ => h2) (fun _ => (State.ledgerWrite_keeps (kS hc rfl) h2 _ _ _ _))))), (Keeps.ite (fun _ => (State.admitDrop_keeps (kS hc rfl) h4)) (fun _ => (Keeps.ite (fun _ => (State.bayEventDone_keeps (kS hc rfl) h4 _ _)) (fun _ => (State.bayInput_keeps (kS hc rfl) h4 _ _ _ _))))), (Keeps.ite (fun _ => (State.ringFrameInput_keeps (kS hc rfl) h2 _ _ _ _)) (fun _ => (State.admitDrop_keeps (kS hc rfl) h2)))]); exact (Keeps.mkP h5)))]))])])])

theorem State.ledgerRelease_keeps {c : Nat} (hc : c &&& 0x7fffce6 = 0x7fffce6) {s0 : State} {s : State} (h : Keeps c s0 s) (a0 : ℕ) (a1 : ℕ) (a2 : List (ℕ × Bool)) : Keeps c s0 (State.ledgerRelease a0 a1 a2 s) := by
  unfold State.ledgerRelease
  exact (by extract_lets x0_0 x0_1 x0_2 x0_3 x0_4 x0_5 x0_6 x0_7 x0_8; have h1 : Keeps c s0 x0_0 := (State.tick_keeps (kS hc rfl) h _); have h2 : Keeps c s0 x0_6 := (State.onEp_keeps (kS hc rfl) h1 _); have h3 : Keeps c s0 x0_7 := (State.namedChanges_keeps (kS hc rfl) (State.dropLedger_keeps (kS hc rfl) (State.cInc_keeps (kS hc rfl) (State.cInc_keeps (kS hc rfl) h2 _ _) _ _) _) _); have h4 : Keeps c s0 x0_8 := (State.wkBegin_keeps (kS hc rfl) (Keeps.ite (fun _ => (State.tabBegin_keeps (kS hc rfl) h3)) (fun _ => h3))); exact (Keeps.ite (fun _ => h1) (fun _ => (by split; exacts [(by have h5 := Keeps.ofP (by assumption) (Keeps.foldlP (fun _ _ h6 => (State.runInput_keeps (kS hc rfl) h6 _ _ _)) _ (Keeps.mkP h4)); exact (by extract_lets x7_0; have h8 : Keeps c s0 x7_0 := (State.onCp_keeps (kS hc rfl) h5 _); exact (State.gwTimerBegin_keeps (kS hc rfl) h8)))]))))

theorem State.processingComplete_keeps {c : Nat} (hc : c &&& 0x7ffbce2 = 0x7ffbce2) {s0 : State} {s : State} (h : Keeps c s0 s) (a0 : ℕ) (a1 : ℕ) : Keeps c s0 (State.processingComplete a0 a1 s) := by
  unfold State.processingComplete
  exact (by extract_lets x0_0 x0_1 x0_2 x0_3 x0_4 x0_5 x0_6; have h1 : Keeps c s0 x0_0 := (State.tick_keeps (kS hc rfl) h _); have h2 : Keeps c s0 x0_1 := (State.quiesceShow_keeps (kS hc rfl) (State.wkTimer_keeps (kS hc rfl) h1 _) _); have h4 : Keeps c s0 x0_2 := (Keeps.ite (fun _ => (State.tabShow_keeps (kS hc rfl) (State.tabTimer_keeps (kS hc rfl) h2 _) _ (fun _ h3 _ _ _ _ => (State.cPut_keeps (kS hc rfl) h3 _ _ _ _)))) (fun _ => h2)); have h6 : Keeps c s0 x0_3 := (Keeps.foldl (fun _ _ h5 => (State.t1sFree_keeps (kS hc rfl) (State.canFree_keeps (kS hc rfl) h5 _) _)) _ h4); have h7 : Keeps c s0 x0_4 := (State.select_keeps (kS hc rfl) (State.cbEpoch_keeps (kS hc rfl) h6) _); have h9 : Keeps c s0 x0_5 := (Keeps.foldl (fun _ _ h8 => (Keeps.ite (fun _ => (State.canComplete_keeps (kS hc rfl) h8 _)) (fun _ => h8))) _ h7); have h10 : Keeps c s0 x0_6 := (State.sleepDone_keeps (kS hc rfl) (State.grantEpoch_keeps (kS hc rfl) h9) _); exact (Keeps.ite (fun _ => h1) (fun _ => (State.applyDue_keeps (kS hc rfl) (State.onEp_keeps (kS hc rfl) (State.applyHeld_keeps (kS hc rfl) h10) _) _))))

theorem clockRamp_keeps {c : Nat} (hc : c &&& 0x800002 = 0x800002) {s0 : State} {s : State} (h : Keeps c s0 s) (a0 : ℕ) (a1 : ℕ) (a2 : Bool) : Keeps c s0 (clockRamp a0 a1 a2 s) := by
  unfold clockRamp
  exact (by extract_lets x0_0; have h1 : Keeps c s0 x0_0 := (State.tick_keeps (kS hc rfl) h _); exact (by split; exacts [h1, (by split; exacts [h1, (Keeps.ite (fun _ => h1) (fun _ => (State.onPw_keeps (kS hc rfl) h1 _)))])]))

theorem State.logClear_keeps {c : Nat} (hc : c &&& 0x20 = 0x20) {s0 : State} {s : State} (h : Keeps c s0 s) : Keeps c s0 (State.logClear s) := by
  unfold State.logClear
  exact (Keeps.foldl (fun _ _ h0 => (State.wrN_keeps (kS hc rfl) (State.wrN_keeps (kS hc rfl) (State.wrN_keeps (kS hc rfl) (State.wrN_keeps (kS hc rfl) h0 _ _) _ _) _ _) _ _)) _ (State.wrN_keeps (kS hc rfl) h _ _))

theorem State.logFailure_keeps {c : Nat} (hc : c &&& 0x20 = 0x20) {s0 : State} {s : State} (h : Keeps c s0 s) (a1 : Master) (a2 : World) (a3 : ℕ) (a4 : ℕ) (a5 : ℕ) : Keeps c s0 (State.logFailure s a1 a2 a3 a4 a5) := by
  unfold State.logFailure
  exact (by split; exacts [h, (by extract_lets x0_0 x0_1 x0_2 x0_3; have h1 : Keeps c s0 x0_2 := (State.wrN_keeps (kS hc rfl) (State.wrN_keeps (kS hc rfl) h _ _) _ _); have h2 : Keeps c s0 x0_3 := (State.setFld_keeps (kS hc rfl) (State.wrN_keeps (kS hc rfl) (State.wrN_keeps (kS hc rfl) h1 _ _) _ _) _ _ _ _); exact (Keeps.ite (fun _ => (State.setFld_keeps (kS hc rfl) h _ _ _ _)) (fun _ => (State.setBit_keeps (kS hc rfl) (State.evt_keeps (kS hc rfl) h2 _ _) _ _ _))))])

theorem State.sendVec_keeps {c : Nat} (hc : c &&& 0x2000000 = 0x2000000) {s0 : State} {s : State} (h : Keeps c s0 s) (a1 : ℕ) (a2 : ℕ) : Keeps c s0 (State.sendVec s a1 a2) := by
  unfold State.sendVec
  exact (Keeps.ite (fun _ => (State.onHb_keeps (kS hc rfl) h _)) (fun _ => (State.onHb_keeps (kS hc rfl) h _)))

theorem State.msixWrite_keeps {c : Nat} (hc : c &&& 0x2000000 = 0x2000000) {s0 : State} {s : State} (h : Keeps c s0 s) (a1 : ℕ) (a2 : ℕ) (a3 : Word) : Keeps c s0 (State.msixWrite s a1 a2 a3) := by
  unfold State.msixWrite
  exact (by extract_lets x0_0 x0_1 x0_2; have h1 : Keeps c s0 x0_0 := (State.onHb_keeps (kS hc rfl) h _); exact (Keeps.ite (fun _ => (State.sendVec_keeps (kS hc rfl) (State.onHb_keeps (kS hc rfl) h1 _) _ _)) (fun _ => h1)))

theorem State.readError_keeps {c : Nat} (hc : c &&& 0x120 = 0x120) {s0 : State} {s : State} (h : Keeps c s0 s) (a1 : Master) : Keeps c s0 (State.readError s a1) := by
  unfold State.readError
  exact (by extract_lets x0_0; have h1 : Keeps c s0 x0_0 := (by unfold x0_0; split; exacts [(State.setBit_keeps (kS hc rfl) h _ _ _), h]); exact (State.onBus_keeps (kS hc rfl) h1 _))

theorem State.ringVec_keeps {c : Nat} (hc : c &&& 0x2000000 = 0x2000000) {s0 : State} {s : State} (h : Keeps c s0 s) (a1 : ℕ) : Keeps c s0 (State.ringVec s a1) := by
  unfold State.ringVec
  exact (by extract_lets x0_0; exact (Keeps.ite (fun _ => (State.sendVec_keeps (kS hc rfl) (State.onHb_keeps (kS hc rfl) h _) _ _)) (fun _ => h)))

theorem State.ringVecs_keeps {c : Nat} (hc : c &&& 0x2000000 = 0x2000000) {s0 : State} {s : State} (h : Keeps c s0 s) : Keeps c s0 (State.ringVecs s) := by
  unfold State.ringVecs
  exact (Keeps.foldl (fun _ _ h0 => (State.ringVec_keeps (kS hc rfl) h0 _)) _ (State.onHb_keeps (kS hc rfl) h _))

theorem State.ringWriteReg_keeps {c : Nat} (hc : c &&& 0x2000020 = 0x2000020) {s0 : State} {s : State} (h : Keeps c s0 s) (a1 : ℕ) (a2 : ℕ) : Keeps c s0 (State.ringWriteReg s a1 a2) := by
  unfold State.ringWriteReg
  exact (by extract_lets x0_0 x0_1 x0_2 x0_3 x0_4 x0_5; have h1 : Keeps c s0 x0_4 := (State.wrN_keeps (kS hc rfl) h _ _); have h2 : Keeps c s0 x0_5 := (Keeps.ite (fun _ => h1) (fun _ => (State.onHb_keeps (kS hc rfl) (State.wrN_keeps (kS hc rfl) (State.wrN_keeps (kS hc rfl) h1 _ _) _ _) _))); exact (by split; exacts [(Keeps.ite (fun _ => h) (fun _ => (State.wrN_keeps (kS hc rfl) h _ _))), (Keeps.ite (fun _ => h) (fun _ => (State.wrN_keeps (kS hc rfl) h _ _))), (Keeps.ite (fun _ => (State.wrN_keeps (kS hc rfl) h _ _)) (fun _ => h)), (State.onHb_keeps (kS hc rfl) (State.wrN_keeps (kS hc rfl) h _ _) _), (Keeps.ite (fun _ => h2) (fun _ => (State.onHb_keeps (kS hc rfl) h2 _))), h]))

theorem State.settle_keeps {c : Nat} (hc : c &&& 0x2000000 = 0x2000000) {s0 : State} {s : State} (h : Keeps c s0 s) (a0 : State) : Keeps c s0 (State.settle a0 s) := by
  unfold State.settle
  exact (by extract_lets x0_0 x0_1 x0_2; have h1 : Keeps c s0 x0_0 := (Keeps.ite (fun _ => (State.ringVecs_keeps (kS hc rfl) h)) (fun _ => h)); exact (Keeps.foldl (fun _ _ h2 => (Keeps.ite (fun _ => (State.sendVec_keeps (kS hc rfl) h2 _ _)) (fun _ => h2))) _ h1))

theorem bar2Write_keeps {c : Nat} (hc : c &&& 0x40 = 0x40) {s0 : State} {s : State} (h : Keeps c s0 s) (a0 : World) (a1 : ℕ) (a2 : Octets) : Keeps c s0 (bar2Write a0 a1 a2 s) := by
  unfold bar2Write
  exact (Keeps.ite (fun _ => h) (fun _ => (by extract_lets x0_0; exact (Keeps.set_mem (kT hc rfl) h _ (memFold_wf _ (fun _ _ k => by split; exacts [memPut_wf _ _ k, k]) _)))))

theorem hostRingFrameRead_keeps {c : Nat} (hc : c &&& 0x2000422 = 0x2000422) {s0 : State} {s : State} (h : Keeps c s0 s) (a0 : ℕ) (a1 : ℕ) (a2 : ℕ) (a3 : ℕ) (a4 : Bool) (a5 : Octets) (a6 : Bool) : Keeps c s0 (hostRingFrameRead a0 a1 a2 a3 a4 a5 a6 s) := by
  unfold hostRingFrameRead
  exact (by extract_lets x0_0 x0_1 x0_2 x0_3 x0_4 x0_5 x0_6 x0_7; have h1 : Keeps c s0 x0_0 := (State.tick_keeps (kS hc rfl) h _); have h2 : Keeps c s0 x0_5 := (State.onHb_keeps (kS hc rfl) h1 _); have h3 : Keeps c s0 x0_6 := (State.setFld_keeps (kS hc rfl) h2 _ _ _ _); have h4 : Keeps c s0 x0_7 := (Keeps.ite (fun _ => (State.evt_keeps (kS hc rfl) h3 _ _)) (fun _ => (State.inc_keeps (kS hc rfl) (State.stampIn_keeps (kS hc rfl) h3 _) _ _))); exact (Keeps.ite (fun _ => h1) (fun _ => (Keeps.ite (fun _ => (State.ringVec_keeps (kS hc rfl) h4 _)) (fun _ => h4)))))

theorem msixUnmask_keeps {c : Nat} (hc : c &&& 0x2000000 = 0x2000000) {s0 : State} {s : State} (h : Keeps c s0 s) (a0 : Master) (a1 : ℕ) : Keeps c s0 (msixUnmask a0 a1 s) := by
  unfold msixUnmask
  exact (by extract_lets x0_0; exact (Keeps.ite (fun _ => h) (fun _ => (State.msixWrite_keeps (kS hc rfl) h _ _ _))))

theorem State.answer_keeps {c : Nat} (hc : c &&& 0x100 = 0x100) {s0 : State} {s : State} (h : Keeps c s0 s) (a1 : ℕ) : Keeps c s0 (State.answer s a1) := by
  unfold State.answer
  exact (State.onBus_keeps (kS hc rfl) h _)

theorem State.farFail_keeps {c : Nat} (hc : c &&& 0x120 = 0x120) {s0 : State} {s : State} (h : Keeps c s0 s) (a1 : FarReq) (a2 : ℕ) : Keeps c s0 (State.farFail s a1 a2) := by
  unfold State.farFail
  exact (by split; exacts [(State.logFailure_keeps (kS hc rfl) h _ _ _ _ _), (State.onBus_keeps (kS hc rfl) h _)])

theorem State.farIssue_keeps {c : Nat} (hc : c &&& 0x2000120 = 0x2000120) {s0 : State} {s : State} (h : Keeps c s0 s) (a1 : FarReq) : Keeps c s0 (State.farIssue s a1) := by
  unfold State.farIssue
  exact (by extract_lets x0_0 x0_1 x0_2; have h1 : Keeps c s0 x0_0 := (Keeps.ite (fun _ => (State.onHb_keeps (kS hc rfl) h _)) (fun _ => h)); have h2 : Keeps c s0 x0_2 := (State.onHb_keeps (kS hc rfl) h1 _); exact (by clear_value x0_1; split; exacts [(State.answer_keeps (kS hc rfl) h1 _), (Keeps.ite (fun _ => (State.farFail_keeps (kS hc rfl) h1 _ _)) (fun _ => (Keeps.ite (fun _ => (State.onBus_keeps (kS hc rfl) h2 _)) (fun _ => h2))))]))

theorem State.frCtrl_keeps {c : Nat} (hc : c &&& 0x4f7bef2 = 0x4f7bef2) {s0 : State} {s : State} (h : Keeps c s0 s) (a1 : ℕ) : Keeps c s0 (State.frCtrl s a1) := by
  unfold State.frCtrl
  exact (by extract_lets x0_0 x0_1; have h1 : Keeps c s0 x0_0 := (Keeps.ite (fun _ => (by split; exacts [(hostRaise_keeps (kS hc rfl) h _), (hostRaise_keeps (kS hc rfl) h _), (deltaCheck_keeps (kS hc rfl) h _), (deltaCheck_keeps (kS hc rfl) h _), (deltaCheck_keeps (kS hc rfl) h _), h])) (fun _ => h)); have h2 : Keeps c s0 x0_1 := (Keeps.ite (fun _ => (State.stagingForward_keeps (kS hc rfl) h1)) (fun _ => h1)); exact (Keeps.ite (fun _ => (State.deltaAbort_keeps (kS hc rfl) h2)) (fun _ => h2)))

theorem State.lockCtl_keeps {c : Nat} (hc : c &&& 0x2000004 = 0x2000004) {s0 : State} {s : State} (h : Keeps c s0 s) (a1 : Master) (a2 : World) (a3 : Bool) (a4 : Bool) (a5 : Bool) : Keeps c s0 (State.lockCtl s a1 a2 a3 a4 a5) := by
  unfold State.lockCtl
  exact (by extract_lets x0_0 x0_1 x0_2; have h1 : Keeps c s0 x0_1 := (Keeps.ite (fun _ => (State.onHb_keeps (kS hc rfl) h _)) (fun _ => h)); have h2 : Keeps c s0 x0_2 := (Keeps.ite (fun _ => (State.onHb_keeps (kS hc rfl) h1 _)) (fun _ => h1)); exact (Keeps.ite (fun _ => h2) (fun _ => (Keeps.ite (fun _ => (Keeps.ite (fun _ => (State.onHb_keeps (kS hc rfl) h2 _)) (fun _ => h2))) (fun _ => (Keeps.ite (fun _ => h2) (fun _ => (by split; exacts [(by have h3 := Keeps.ofP (by assumption) (State.fresh_keeps (kS hc rfl) h2 _); exact (Keeps.ite (fun _ => (State.onHb_keeps (kS hc rfl) h3 _)) (fun _ => h3)))]))))))))

theorem State.actWrite_keeps {c : Nat} (hc : c &&& 0x7ffbef6 = 0x7ffbef6) {s0 : State} {s : State} (h : Keeps c s0 s) (a1 : Master) (a2 : World) (a3 : ℕ) (a4 : ℕ) : Keeps c s0 (State.actWrite s a1 a2 a3 a4) := by
  unfold State.actWrite
  exact (Keeps.ite (fun _ => (by extract_lets x0_0; have h1 : Keeps c s0 x0_0 := (State.faultAck_keeps (kS hc rfl) h _); exact (Keeps.ite (fun _ => (State.secondFaultClear_keeps (kS hc rfl) h1)) (fun _ => h1)))) (fun _ => (Keeps.ite (fun _ => (State.frCtrl_keeps (kS hc rfl) h _)) (fun _ => (Keeps.ite (fun _ => (State.mdioStart_keeps (kS hc rfl) h _)) (fun _ => (Keeps.ite (fun _ => (State.shadowWrite_keeps (kS hc rfl) h _)) (fun _ => (Keeps.ite (fun _ => (by extract_lets x2_0; have h3 : Keeps c s0 x2_0 := (Keeps.ite (fun _ => (State.keyPacketCheck_keeps (kS hc rfl) h _)) (fun _ => h)); exact (Keeps.ite (fun _ => (State.keyPacketDiscard_keeps (kS hc rfl) h3)) (fun _ => h3)))) (fun _ => (Keeps.ite (fun _ => (Keeps.ite (fun _ => (State.attestationRequest_keeps (kS hc rfl) h _)) (fun _ => h))) (fun _ => (Keeps.ite (fun _ => (Keeps.ite (fun _ => (State.hostJob_keeps (kS hc rfl) h _ _ _)) (fun _ => h))) (fun _ => (Keeps.ite (fun _ => (Keeps.ite (fun _ => (State.leaseOverride_keeps (kS hc rfl) h _ _)) (fun _ => h))) (fun _ => (Keeps.ite (fun _ => (State.lockCtl_keeps (kS hc rfl) h _ _ _ _ _)) (fun _ => (Keeps.ite (fun _ => (Keeps.ite (fun _ => (State.logClear_keeps (kS hc rfl) h)) (fun _ => h))) (fun _ => h))))))))))))))))))))

theorem State.storeFields_keeps {c : Nat} (hc : c &&& 0x20 = 0x20) {s0 : State} {s : State} (h : Keeps c s0 s) (a1 : RegRow) (a2 : ℕ) (a3 : ℕ) (a4 : ℕ) (a5 : ℕ) : Keeps c s0 (State.storeFields s a1 a2 a3 a4 a5) := by
  unfold State.storeFields
  exact (by extract_lets x0_0 x0_1 x0_2 x0_3; exact (Keeps.ite (fun _ => h) (fun _ => (State.wrN_keeps (kS hc rfl) h _ _))))

theorem State.plainWrite_keeps {c : Nat} (hc : c &&& 0x7ffbef6 = 0x7ffbef6) {s0 : State} {s : State} (h : Keeps c s0 s) (a1 : RegRow) (a2 : Master) (a3 : World) (a4 : ℕ) (a5 : ℕ) (a6 : ℕ) (a7 : ℕ) : Keeps c s0 (State.plainWrite s a1 a2 a3 a4 a5 a6 a7) := by
  unfold State.plainWrite
  exact (Keeps.ite (fun _ => h) (fun _ => (Keeps.ite (fun _ => (State.ringWriteReg_keeps (kS hc rfl) h _ _)) (fun _ => (Keeps.ite (fun _ => (State.msixWrite_keeps (kS hc rfl) h _ _ _)) (fun _ => (Keeps.ite (fun _ => (State.tamperConfigWrite_keeps (kS hc rfl) h _ _)) (fun _ => (Keeps.ite (fun _ => h) (fun _ => (Keeps.ite (fun _ => h) (fun _ => (Keeps.ite (fun _ => h) (fun _ => (by extract_lets x0_0; have h1 : Keeps c s0 x0_0 := (State.actWrite_keeps (kS hc rfl) (State.storeFields_keeps (kS hc rfl) h _ _ _ _ _) _ _ _ _); exact (Keeps.ite (fun _ => (State.roleLoaded_keeps (kS hc rfl) h1 _)) (fun _ => h1)))))))))))))))))

theorem State.ledgerInput_keeps {c : Nat} (hc : c &&& 0x76e3ce2 = 0x76e3ce2) {s0 : State} {s : State} (h : Keeps c s0 s) (a1 : Master) (a2 : ℕ) (a3 : ℕ) (a4 : ℕ) : Keeps c s0 (State.ledgerInput s a1 a2 a3 a4) := by
  unfold State.ledgerInput
  exact (by extract_lets x0_0; exact (Keeps.ite (fun _ => (State.applyHeld_keeps (kS hc rfl) (State.ledgerWrite_keeps (kS hc rfl) h _ _ _ _))) (fun _ => (State.stampIn_keeps (kS hc rfl) h _))))

theorem State.localWrite_keeps {c : Nat} (hc : c &&& 0x7ffbef6 = 0x7ffbef6) {s0 : State} {s : State} (h : Keeps c s0 s) (a1 : Master) (a2 : World) (a3 : ℕ) (a4 : ℕ) (a5 : ℕ) (a6 : ℕ) (a7 : ℕ) : Keeps c s0 (State.localWrite s a1 a2 a3 a4 a5 a6 a7) := by
  unfold State.localWrite
  exact (Keeps.ite (fun _ => (State.violation_keeps (kS hc rfl) h)) (fun _ => (by split; exacts [h, (Keeps.ite (fun _ => (State.violation_keeps (kS hc rfl) h)) (fun _ => (by extract_lets x0_0 x0_1; have h1 : Keeps c s0 x0_1 := (State.plainWrite_keeps (kS hc rfl) h _ _ _ _ _ _ _); exact (Keeps.ite (fun _ => h1) (fun _ => (State.ledgerInput_keeps (kS hc rfl) h1 _ _ _ _))))))])))

theorem State.cellLatch_keeps {c : Nat} (hc : c &&& 0x20 = 0x20) {s0 : State} {s : State} (h : Keeps c s0 s) (a1 : ℕ) (a2 : ℕ) : Keeps c s0 (State.cellLatch s a1 a2) := by
  unfold State.cellLatch
  exact (by extract_lets x0_0 x0_1 x0_2; have h2 : Keeps c s0 x0_2 := (Keeps.foldl (fun _ _ h1 => (State.wrN_keeps (kS hc rfl) h1 _ _)) _ h); exact (State.setBit_keeps (kS hc rfl) h2 _ _ _))

theorem State.readLatch_keeps {c : Nat} (hc : c &&& 0x20 = 0x20) {s0 : State} {s : State} (h : Keeps c s0 s) (a1 : RegRow) (a2 : ℕ) : Keeps c s0 (State.readLatch s a1 a2) := by
  unfold State.readLatch
  exact (by extract_lets x0_0; have h1 : Keeps c s0 x0_0 := (by unfold x0_0; split; exacts [(State.wrN_keeps (kS hc rfl) h _ _), h]); exact (by split; exacts [(State.cellLatch_keeps (kS hc rfl) h1 _ _), h1]))

theorem State.localRead_keeps {c : Nat} (hc : c &&& 0x124 = 0x124) {s0 : State} {s : State} (h : Keeps c s0 s) (a1 : Master) (a2 : World) (a3 : ℕ) (a4 : ℕ) (a5 : ℕ) : Keeps c s0 (State.localRead s a1 a2 a3 a4 a5) := by
  unfold State.localRead
  exact (Keeps.ite (fun _ => (State.answer_keeps (kS hc rfl) (State.violation_keeps (kS hc rfl) h) _)) (fun _ => (by split; exacts [(State.answer_keeps (kS hc rfl) h _), (Keeps.ite (fun _ => (State.answer_keeps (kS hc rfl) (State.violation_keeps (kS hc rfl) h) _)) (fun _ => (by extract_lets x0_0 x0_1 x0_2 x0_3; have h1 : Keeps c s0 x0_0 := (State.readLatch_keeps (kS hc rfl) h _ _); have h2 : Keeps c s0 x0_3 := (Keeps.ite (fun _ => h1) (fun _ => (State.wrN_keeps (kS hc rfl) h1 _ _))); exact (Keeps.ite (fun _ => (by split; exacts [(by have h3 := Keeps.ofP (by assumption) (State.fresh_keeps (kS hc rfl) h2 _); exact (State.answer_keeps (kS hc rfl) h3 _))])) (fun _ => (State.answer_keeps (kS hc rfl) h2 _))))))])))

theorem State.perform_keeps {c : Nat} (hc : c &&& 0x7ffbff6 = 0x7ffbff6) {s0 : State} {s : State} (h : Keeps c s0 s) (a1 : Access) : Keeps c s0 (State.perform s a1) := by
  unfold State.perform
  exact (Keeps.ite (fun _ => (State.farIssue_keeps (kS hc rfl) h _)) (fun _ => (by split; exacts [(State.localWrite_keeps (kS hc rfl) h _ _ _ _ _ _ _), (State.localRead_keeps (kS hc rfl) h _ _ _ _ _)])))

theorem State.drain_keeps {c : Nat} (hc : c &&& 0x7ffbff6 = 0x7ffbff6) {s0 : State} {s : State} (h : Keeps c s0 s) (a0 : ℕ) : Keeps c s0 (State.drain a0 s) := by
  unfold State.drain
  exact (by split; exacts [h, (by split; exacts [h, (State.drain_keeps (kS hc rfl) (State.perform_keeps (kS hc rfl) (State.onHb_keeps (kS hc rfl) h _) _) _)])])

theorem State.unstall_keeps {c : Nat} (hc : c &&& 0x7ffbff6 = 0x7ffbff6) {s0 : State} {s : State} (h : Keeps c s0 s) : Keeps c s0 (State.unstall s) := by
  unfold State.unstall
  exact (State.drain_keeps (kS hc rfl) h _)

theorem State.access_keeps {c : Nat} (hc : c &&& 0x7ffbff6 = 0x7ffbff6) {s0 : State} {s : State} (h : Keeps c s0 s) (a1 : Access) : Keeps c s0 (State.access s a1) := by
  unfold State.access
  exact (by extract_lets x0_0; exact (Keeps.ite (fun _ => h) (fun _ => (Keeps.ite (fun _ => (State.inc_keeps (kS hc rfl) h _ _)) (fun _ => (Keeps.ite (fun _ => (State.readError_keeps (kS hc rfl) h _)) (fun _ => (Keeps.ite (fun _ => (State.onHb_keeps (kS hc rfl) h _)) (fun _ => (State.unstall_keeps (kS hc rfl) (State.perform_keeps (kS hc rfl) h _)))))))))))

theorem State.blockFetch_keeps {c : Nat} (hc : c &&& 0x120 = 0x120) {s0 : State} {s : State} (h : Keeps c s0 s) (a1 : World) (a2 : ℕ) : Keeps c s0 (State.blockFetch s a1 a2) := by
  unfold State.blockFetch
  exact (by extract_lets x0_0 x0_1; have h1 : Keeps c s0 x0_1 := (Keeps.ite (fun _ => h) (fun _ => (State.violation_keeps (kS hc rfl) h))); exact (State.onBus_keeps (kS hc rfl) h1 _))

theorem State.busRead_keeps {c : Nat} (hc : c &&& 0x7ffbff6 = 0x7ffbff6) {s0 : State} {s : State} (h : Keeps c s0 s) (a1 : Master) (a2 : World) (a3 : ℕ) : Keeps c s0 (State.busRead s a1 a2 a3) := by
  unfold State.busRead
  exact (State.access_keeps (kS hc rfl) h _)

theorem State.busWrite_keeps {c : Nat} (hc : c &&& 0x7ffbff6 = 0x7ffbff6) {s0 : State} {s : State} (h : Keeps c s0 s) (a1 : Master) (a2 : World) (a3 : ℕ) (a4 : ℕ) (a5 : optParam ℕ 4294967295) : Keeps c s0 (State.busWrite s a1 a2 a3 a4 a5) := by
  unfold State.busWrite
  exact (State.access_keeps (kS hc rfl) h _)

theorem blockLockSet_keeps {c : Nat} (hc : c &&& 0x7ffbff6 = 0x7ffbff6) {s0 : State} {s : State} (h : Keeps c s0 s) (a0 : Master) (a1 : World) (a2 : ℕ) : Keeps c s0 (blockLockSet a0 a1 a2 s) := by
  unfold blockLockSet
  exact (Keeps.ite (fun _ => (State.busWrite_keeps (kS hc rfl) h _ _ _ _ _)) (fun _ => h))

theorem farAccess_keeps {c : Nat} (hc : c &&& 0x7ffbff6 = 0x7ffbff6) {s0 : State} {s : State} (h : Keeps c s0 s) (a0 : ℕ) (a1 : Master) (a2 : World) (a3 : ℕ) (a4 : ℕ) (a5 : Option Word) : Keeps c s0 (farAccess a0 a1 a2 a3 a4 a5 s) := by
  unfold farAccess
  exact (Keeps.ite (fun _ => (State.access_keeps (kS hc rfl) (State.tick_keeps (kS hc rfl) h _) _)) (fun _ => h))

theorem farAccessTimeout_keeps {c : Nat} (hc : c &&& 0x7ffbff6 = 0x7ffbff6) {s0 : State} {s : State} (h : Keeps c s0 s) (a0 : ℕ) : Keeps c s0 (farAccessTimeout a0 s) := by
  unfold farAccessTimeout
  exact (by extract_lets x0_0; have h1 : Keeps c s0 x0_0 := (State.tick_keeps (kS hc rfl) h _); exact (by split; exacts [h1, (Keeps.ite (fun _ => h1) (fun _ => (State.unstall_keeps (kS hc rfl) (State.farFail_keeps (kS hc rfl) (State.onHb_keeps (kS hc rfl) h1 _) _ _))))]))

theorem farCompletion_keeps {c : Nat} (hc : c &&& 0x7ffbff6 = 0x7ffbff6) {s0 : State} {s : State} (h : Keeps c s0 s) (a0 : ℕ) (a1 : Option Word) : Keeps c s0 (farCompletion a0 a1 s) := by
  unfold farCompletion
  exact (by extract_lets x0_0; have h1 : Keeps c s0 x0_0 := (State.tick_keeps (kS hc rfl) h _); exact (by split; exacts [h1, (by extract_lets x2_0 x2_1; have h3 : Keeps c s0 x2_0 := (State.onHb_keeps (kS hc rfl) h1 _); have h4 : Keeps c s0 x2_1 := (Keeps.ite (fun _ => (State.answer_keeps (kS hc rfl) h3 _)) (fun _ => h3)); exact (State.unstall_keeps (kS hc rfl) h4))]))

theorem latchedRead_keeps {c : Nat} (hc : c &&& 0x7ffbff6 = 0x7ffbff6) {s0 : State} {s : State} (h : Keeps c s0 s) (a0 : Master) (a1 : World) (a2 : ℕ) (a3 : ℕ) : Keeps c s0 (latchedRead a0 a1 a2 a3 s) := by
  unfold latchedRead
  exact (State.access_keeps (kS hc rfl) h _)

theorem lockAbort_keeps {c : Nat} (hc : c &&& 0x7ffbff6 = 0x7ffbff6) {s0 : State} {s : State} (h : Keeps c s0 s) (a0 : ℕ) (a1 : Bool) : Keeps c s0 (lockAbort a0 a1 s) := by
  unfold lockAbort
  exact (by extract_lets x0_0 x0_1; have h1 : Keeps c s0 x0_0 := (State.tick_keeps (kS hc rfl) h _); have h2 : Keeps c s0 x0_1 := (State.onHb_keeps (kS hc rfl) h1 _); exact (by split; exacts [h1, (Keeps.ite (fun _ => h1) (fun _ => (by extract_lets x3_0; have h4 : Keeps c s0 x3_0 := (State.evt_keeps (kS hc rfl) (State.logFailure_keeps (kS hc rfl) h2 _ _ _ _ _) _ _); exact (State.unstall_keeps (kS hc rfl) (State.inc_keeps (kS hc rfl) h4 _ _)))))]))

theorem lockAcquire_keeps {c : Nat} (hc : c &&& 0x7ffbff6 = 0x7ffbff6) {s0 : State} {s : State} (h : Keeps c s0 s) (a0 : ℕ) (a1 : Master) (a2 : World) (a3 : Bool) : Keeps c s0 (lockAcquire a0 a1 a2 a3 s) := by
  unfold lockAcquire
  exact (by extract_lets x0_0; have h1 : Keeps c s0 x0_0 := (State.tick_keeps (kS hc rfl) h _); exact (Keeps.ite (fun _ => (Keeps.ite (fun _ => (State.lockCtl_keeps (kS hc rfl) h1 _ _ _ _ _)) (fun _ => h1))) (fun _ => (State.busWrite_keeps (kS hc rfl) h1 _ _ _ _ _))))

theorem lockRelease_keeps {c : Nat} (hc : c &&& 0x7ffbff6 = 0x7ffbff6) {s0 : State} {s : State} (h : Keeps c s0 s) (a0 : Master) (a1 : World) (a2 : Bool) : Keeps c s0 (lockRelease a0 a1 a2 s) := by
  unfold lockRelease
  exact (Keeps.ite (fun _ => (Keeps.ite (fun _ => (State.unstall_keeps (kS hc rfl) (State.lockCtl_keeps (kS hc rfl) h _ _ _ _ _))) (fun _ => h))) (fun _ => (State.busWrite_keeps (kS hc rfl) h _ _ _ _ _)))

theorem prefetchExpire_keeps {c : Nat} (hc : c &&& 0x2000002 = 0x2000002) {s0 : State} {s : State} (h : Keeps c s0 s) (a0 : ℕ) (a1 : ℕ) : Keeps c s0 (prefetchExpire a0 a1 s) := by
  unfold prefetchExpire
  exact (by extract_lets x0_0; have h1 : Keeps c s0 x0_0 := (State.tick_keeps (kS hc rfl) h _); exact (by split; exacts [h1, (Keeps.ite (fun _ => h1) (fun _ => (State.onHb_keeps (kS hc rfl) h1 _)))]))

theorem prefetchRead_keeps {c : Nat} (hc : c &&& 0x7ffbff6 = 0x7ffbff6) {s0 : State} {s : State} (h : Keeps c s0 s) (a0 : ℕ) (a1 : Master) (a2 : World) (a3 : ℕ) (a4 : List Word) : Keeps c s0 (prefetchRead a0 a1 a2 a3 a4 s) := by
  unfold prefetchRead
  exact (by extract_lets x0_0 x0_1; have h1 : Keeps c s0 x0_0 := (State.tick_keeps (kS hc rfl) h _); exact (Keeps.ite (fun _ => (Keeps.ite (fun _ => (State.blockFetch_keeps (kS hc rfl) h1 _ _)) (fun _ => h1))) (fun _ => (by split; exacts [h1, (Keeps.ite (fun _ => h1) (fun _ => (Keeps.ite (fun _ => (State.access_keeps (kS hc rfl) h1 _)) (fun _ => (by extract_lets x2_0 x2_1; have h3 : Keeps c s0 x2_1 := (State.onHb_keeps (kS hc rfl) h1 _); exact (State.answer_keeps (kS hc rfl) h3 _))))))]))))

theorem priorityCellRead_keeps {c : Nat} (hc : c &&& 0x7ffbff6 = 0x7ffbff6) {s0 : State} {s : State} (h : Keeps c s0 s) (a0 : Master) (a1 : World) (a2 : ℕ) (a3 : ℕ) : Keeps c s0 (priorityCellRead a0 a1 a2 a3 s) := by
  unfold priorityCellRead
  exact (Keeps.ite (fun _ => (State.busRead_keeps (kS hc rfl) h _ _ _)) (fun _ => h))

theorem readClear_keeps {c : Nat} (hc : c &&& 0x7ffbff6 = 0x7ffbff6) {s0 : State} {s : State} (h : Keeps c s0 s) (a0 : Master) (a1 : World) (a2 : ℕ) (a3 : ℕ) (a4 : ℕ) : Keeps c s0 (readClear a0 a1 a2 a3 a4 s) := by
  unfold readClear
  exact (State.access_keeps (kS hc rfl) h _)

theorem readCompletesWithError_keeps {c : Nat} (hc : c &&& 0x120 = 0x120) {s0 : State} {s : State} (h : Keeps c s0 s) (a0 : Master) : Keeps c s0 (readCompletesWithError a0 s) := by
  unfold readCompletesWithError
  exact (Keeps.ite (fun _ => (State.readError_keeps (kS hc rfl) h _)) (fun _ => h))

theorem registerWrite_keeps {c : Nat} (hc : c &&& 0x7ffbff6 = 0x7ffbff6) {s0 : State} {s : State} (h : Keeps c s0 s) (a0 : Master) (a1 : World) (a2 : ℕ) (a3 : ℕ) (a4 : Word) (a5 : ℕ) : Keeps c s0 (registerWrite a0 a1 a2 a3 a4 a5 s) := by
  unfold registerWrite
  exact (State.access_keeps (kS hc rfl) h _)

theorem ringDisable_keeps {c : Nat} (hc : c &&& 0x7ffbff6 = 0x7ffbff6) {s0 : State} {s : State} (h : Keeps c s0 s) (a0 : Master) (a1 : World) (a2 : Bool) (a3 : ℕ) (a4 : Bool) : Keeps c s0 (ringDisable a0 a1 a2 a3 a4 s) := by
  unfold ringDisable
  exact (Keeps.ite (fun _ => h) (fun _ => (State.busWrite_keeps (kS hc rfl) h _ _ _ _ _)))

theorem ringTailWrite_keeps {c : Nat} (hc : c &&& 0x7ffbff6 = 0x7ffbff6) {s0 : State} {s : State} (h : Keeps c s0 s) (a0 : Master) (a1 : World) (a2 : Bool) (a3 : ℕ) (a4 : ℕ) (a5 : List ℕ) : Keeps c s0 (ringTailWrite a0 a1 a2 a3 a4 a5 s) := by
  unfold ringTailWrite
  exact (Keeps.ite (fun _ => h) (fun _ => (by extract_lets x0_0; have h1 : Keeps c s0 x0_0 := (State.busWrite_keeps (kS hc rfl) h _ _ _ _ _); exact (Keeps.ite (fun _ => (State.onHb_keeps (kS hc rfl) h1 _)) (fun _ => h1)))))

theorem scarfLinkLoss_keeps {c : Nat} (hc : c &&& 0x7ffbff6 = 0x7ffbff6) {s0 : State} {s : State} (h : Keeps c s0 s) (a0 : ℕ) : Keeps c s0 (scarfLinkLoss a0 s) := by
  unfold scarfLinkLoss
  exact (by extract_lets x0_0 x0_1; have h1 : Keeps c s0 x0_0 := (State.tick_keeps (kS hc rfl) h _); exact (State.unstall_keeps (kS hc rfl) (Keeps.foldl (fun _ _ h2 => (State.farFail_keeps (kS hc rfl) h2 _ _)) _ (State.onHb_keeps (kS hc rfl) h1 _))))

theorem spiTransaction_keeps {c : Nat} (hc : c &&& 0x7ffbff6 = 0x7ffbff6) {s0 : State} {s : State} (h : Keeps c s0 s) (a0 : ℕ) (a1 : ℕ) (a2 : List Word) : Keeps c s0 (spiTransaction a0 a1 a2 s) := by
  unfold spiTransaction
  exact (by extract_lets x0_0 x0_1 x0_2 x0_3; have h1 : Keeps c s0 x0_1 := (State.onBus_keeps (kS hc rfl) h _); have h5 : Keeps c s0 x0_2 := (Keeps.foldl (fun _ _ h2 => (by extract_lets x3_0 x3_1; have h4 : Keeps c s0 x3_1 := (State.busRead_keeps (kS hc rfl) h2 _ _ _); exact (State.onBus_keeps (kS hc rfl) h4 _))) _ h1); exact (Keeps.ite (fun _ => h) (fun _ => (Keeps.ite (fun _ => (Keeps.foldl (fun _ _ h6 => (State.busWrite_keeps (kS hc rfl) h6 _ _ _ _ _)) _ h)) (fun _ => (Keeps.ite (fun _ => (State.onBus_keeps (kS hc rfl) (State.readError_keeps (kS hc rfl) h _) _)) (fun _ => (State.onBus_keeps (kS hc rfl) h5 _))))))))

theorem State.processed_keeps {c : Nat} (hc : c &&& 0x4243ca0 = 0x4243ca0) {s0 : State} {s : State} (h : Keeps c s0 s) (a1 : Bool) (a2 : State → State) (f_f : ∀ u0 (_ : Keeps c s0 u0), Keeps c s0 (a2 u0)) : Keeps c s0 (State.processed s a1 a2) := by
  unfold State.processed
  exact (Keeps.ite (fun _ => h) (fun _ => (Keeps.ite (fun _ => (Keeps.ite (fun _ => h) (fun _ => (State.applyHeld_keeps (kS hc rfl) (f_f _ h))))) (fun _ => (Keeps.ite (fun _ => (State.applyHeld_keeps (kS hc rfl) (f_f _ h))) (fun _ => (f_f _ h)))))))

theorem bayTransmit_keeps {c : Nat} (hc : c &&& 0x2108022 = 0x2108022) {s0 : State} {s : State} (h : Keeps c s0 s) (a0 : ℕ) (a1 : ℕ) : Keeps c s0 (bayTransmit a0 a1 s) := by
  unfold bayTransmit
  exact (by extract_lets x0_0; have h1 : Keeps c s0 x0_0 := (bayFrameTransmit_keeps (kS hc rfl) h _ _); exact (by split; exacts [(Keeps.ite (fun _ => (State.streamSent_keeps (kS hc rfl) h1 _ _)) (fun _ => h1)), h1]))

theorem tenonCommand_keeps {c : Nat} (hc : c &&& 0x0 = 0x0) {s0 : State} {s : State} (h : Keeps c s0 s) (a0 : ℕ) (a1 : ℕ) (a2 : Tenon) (a3 : State → State) (f_f : ∀ u0 (_ : Keeps c s0 u0), Keeps c s0 (a3 u0)) : Keeps c s0 (tenonCommand a0 a1 a2 a3 s) := by
  unfold tenonCommand
  exact (by extract_lets x0_0 x0_1; exact (Keeps.ite (fun _ => h) (fun _ => (f_f _ h))))

end Sys2Proof.Machine
end

