-- ==== Sys2Proof/Laws/KeepsRun.lean ====
section
/-! SUPPORT. Laws/KeepsRun.lean: what every command keeps, and which fields of the state it may change (Laws/Keeps.lean). -/
set_option Elab.async false
namespace Sys2Proof.Machine
open Sys2Proof

theorem execAnnounceReceived_keeps (t : ℕ) (bay : ℕ) (domain : ℕ) (vec : List ℕ) {s u : State} (e : execAnnounceReceived t bay domain vec s = .next u) : Keeps 0x2000202 s u :=
  have hc : 0x2000202 &&& 0x2000202 = 0x2000202 := rfl
  Keeps.ofNext e (State.settle_keeps (kS hc rfl) (State.announceReceived_keeps (kS hc rfl) (Keeps.refl _ s) _ _ _ _) _)

theorem execAnnounceTimeout_keeps (t : ℕ) {s u : State} (e : execAnnounceTimeout t s = .next u) : Keeps 0x6000622 s u :=
  have hc : 0x6000622 &&& 0x6000622 = 0x6000622 := rfl
  Keeps.ofNext e (State.settle_keeps (kS hc rfl) (State.announceTimeout_keeps (kS hc rfl) (Keeps.refl _ s) _) _)

theorem execAutonegWordReceived_keeps (bay : ℕ) (halfDuplex : Bool) (speed : ℕ) {s u : State} (e : execAutonegWordReceived bay halfDuplex speed s = .next u) : Keeps 0x2008020 s u :=
  have hc : 0x2008020 &&& 0x2008020 = 0x2008020 := rfl
  Keeps.ofNext e (State.settle_keeps (kS hc rfl) (autonegWordReceived_keeps (kS hc rfl) (Keeps.refl _ s) _ _ _) _)

theorem execBayFrameReceived_keeps (t : ℕ) (bay : ℕ) (frame : Octets) (fcsErr : Bool) (codeErr : Bool) {s u : State} (e : execBayFrameReceived t bay frame fcsErr codeErr s = .next u) : Keeps 0x2008422 s u :=
  have hc : 0x2008422 &&& 0x2008422 = 0x2008422 := rfl
  Keeps.ofNext e (State.settle_keeps (kS hc rfl) (bayFrameReceived_keeps (kS hc rfl) (Keeps.refl _ s) _ _ _ _ _) _)

theorem execBayFrameTransmit_keeps (t : ℕ) (bay : ℕ) {s u : State} (e : execBayFrameTransmit t bay s = .next u) : Keeps 0x2108022 s u :=
  have hc : 0x2108022 &&& 0x2108022 = 0x2108022 := rfl
  Keeps.ofNext e (State.settle_keeps (kS hc rfl) (bayTransmit_keeps (kS hc rfl) (Keeps.refl _ s) _ _) _)

theorem execGptpSyncReceived_keeps (t : ℕ) (bay : ℕ) (domain : ℕ) (offset : ℤ) {s u : State} (e : execGptpSyncReceived t bay domain offset s = .next u) : Keeps 0x6243e26 s u :=
  have hc : 0x6243e26 &&& 0x6243e26 = 0x6243e26 := rfl
  Keeps.ofNext e (State.settle_keeps (kS hc rfl) (State.gptpSyncReceived_keeps (kS hc rfl) (Keeps.refl _ s) _ _ _ _) _)

theorem execLinkChange_keeps (t : ℕ) (bay : ℕ) (link : LinkView) {s u : State} (e : execLinkChange t bay link s = .next u) : Keeps 0x2008422 s u :=
  have hc : 0x2008422 &&& 0x2008422 = 0x2008422 := rfl
  Keeps.ofNext e (State.settle_keeps (kS hc rfl) (linkChange_keeps (kS hc rfl) (Keeps.refl _ s) _ _ _ _) _)

theorem execMdioDone_keeps (rdata : ℕ) (ack : Bool) {s u : State} (e : execMdioDone rdata ack s = .next u) : Keeps 0x2000020 s u :=
  have hc : 0x2000020 &&& 0x2000020 = 0x2000020 := rfl
  Keeps.ofNext e (State.settle_keeps (kS hc rfl) (mdioDone_keeps (kS hc rfl) (Keeps.refl _ s) _ _) _)

theorem execPauseExpiry_keeps (t : ℕ) (bay : ℕ) {s u : State} (e : execPauseExpiry t bay s = .next u) : Keeps 0x2000022 s u :=
  have hc : 0x2000022 &&& 0x2000022 = 0x2000022 := rfl
  Keeps.ofNext e (State.settle_keeps (kS hc rfl) (pauseExpiry_keeps (kS hc rfl) (Keeps.refl _ s) _ _) _)

theorem execPdelayExchange_keeps (t : ℕ) (bay : ℕ) (delay : ℕ) {s u : State} (e : execPdelayExchange t bay delay s = .next u) : Keeps 0x2000222 s u :=
  have hc : 0x2000222 &&& 0x2000222 = 0x2000222 := rfl
  Keeps.ofNext e (State.settle_keeps (kS hc rfl) (State.pdelayExchange_keeps (kS hc rfl) (Keeps.refl _ s) _ _ _) _)

theorem execTbHoldover_keeps (t : ℕ) {s u : State} (e : execTbHoldover t s = .next u) : Keeps 0x2000222 s u :=
  have hc : 0x2000222 &&& 0x2000222 = 0x2000222 := rfl
  Keeps.ofNext e (State.settle_keeps (kS hc rfl) (State.tbHoldover_keeps (kS hc rfl) (Keeps.refl _ s) _) _)

theorem execTbLost_keeps (t : ℕ) {s u : State} (e : execTbLost t s = .next u) : Keeps 0x6243e22 s u :=
  have hc : 0x6243e22 &&& 0x6243e22 = 0x6243e22 := rfl
  Keeps.ofNext e (State.settle_keeps (kS hc rfl) (State.tbLost_keeps (kS hc rfl) (Keeps.refl _ s) _) _)

theorem execBasicCycleStart_keeps (t : ℕ) (m : ℕ) {s u : State} (e : execBasicCycleStart t m s = .next u) : Keeps 0x2002022 s u :=
  have hc : 0x2002022 &&& 0x2002022 = 0x2002022 := rfl
  Keeps.ofNext e (State.settle_keeps (kS hc rfl) (basicCycleStart_keeps (kS hc rfl) (Keeps.refl _ s) _ _) _)

theorem execBeginDriving_keeps (t : ℕ) {s u : State} (e : execBeginDriving t s = .next u) : Keeps 0x2202422 s u :=
  have hc : 0x2202422 &&& 0x2202422 = 0x2202422 := rfl
  Keeps.ofNext e (State.settle_keeps (kS hc rfl) (beginDriving_keeps (kS hc rfl) (Keeps.refl _ s) _) _)

theorem execBusOffRecovered_keeps (t : ℕ) (m : ℕ) {s u : State} (e : execBusOffRecovered t m s = .next u) : Keeps 0x2002422 s u :=
  have hc : 0x2002422 &&& 0x2002422 = 0x2002422 := rfl
  Keeps.ofNext e (State.settle_keeps (kS hc rfl) (busOffRecovered_keeps (kS hc rfl) (Keeps.refl _ s) _ _) _)

theorem execBusOffRecoveryRequest_keeps (c : ℕ) (m : ℕ) {s u : State} (e : execBusOffRecoveryRequest c m s = .next u) : Keeps 0x6243ca0 s u :=
  have hc : 0x6243ca0 &&& 0x6243ca0 = 0x6243ca0 := rfl
  Keeps.ofNext e (State.settle_keeps (kS hc rfl) (State.processed_keeps (kS hc rfl) (Keeps.refl _ s) _ _ (fun _ h0 => (tenonCommand_keeps (kS hc rfl) h0 _ _ _ _ (fun _ h1 => (busOffRecoveryRequest_keeps (kS hc rfl) h1 _))))) _)

theorem execCanArbitrationStart_keeps (t : ℕ) (m : ℕ) {s u : State} (e : execCanArbitrationStart t m s = .next u) : Keeps 0x2002022 s u :=
  have hc : 0x2002022 &&& 0x2002022 = 0x2002022 := rfl
  Keeps.ofNext e (State.settle_keeps (kS hc rfl) (canArbitrationStart_keeps (kS hc rfl) (Keeps.refl _ s) _ _) _)

theorem execCanBusError_keeps (t : ℕ) (m : ℕ) (err : CanErr) (fault : CanFault) {s u : State} (e : execCanBusError t m err fault s = .next u) : Keeps 0x2002422 s u :=
  have hc : 0x2002422 &&& 0x2002422 = 0x2002422 := rfl
  Keeps.ofNext e (State.settle_keeps (kS hc rfl) (State.letGo_keeps (kS hc rfl) (canBusError_keeps (kS hc rfl) (Keeps.refl _ s) _ _ _ _ _) _) _)

theorem execCanFrameReceived_keeps (t : ℕ) (m : ℕ) (rx : CanRx) {s u : State} (e : execCanFrameReceived t m rx s = .next u) : Keeps 0x2002422 s u :=
  have hc : 0x2002422 &&& 0x2002422 = 0x2002422 := rfl
  Keeps.ofNext e (State.settle_keeps (kS hc rfl) (canFrameReceived_keeps (kS hc rfl) (Keeps.refl _ s) _ _ _ _) _)

theorem execCanOpmodeWrite_keeps (c : ℕ) (m : ℕ) (mode : ℕ) {s u : State} (e : execCanOpmodeWrite c m mode s = .next u) : Keeps 0x6243ca0 s u :=
  have hc : 0x6243ca0 &&& 0x6243ca0 = 0x6243ca0 := rfl
  Keeps.ofNext e (State.settle_keeps (kS hc rfl) (State.processed_keeps (kS hc rfl) (Keeps.refl _ s) _ _ (fun _ h0 => (tenonCommand_keeps (kS hc rfl) h0 _ _ _ _ (fun _ h1 => (canOpmodeWrite_keeps (kS hc rfl) h1 _ _))))) _)

theorem execCanTransmitEnd_keeps (t : ℕ) (m : ℕ) (tdcv : ℕ) {s u : State} (e : execCanTransmitEnd t m tdcv s = .next u) : Keeps 0x2002422 s u :=
  have hc : 0x2002422 &&& 0x2002422 = 0x2002422 := rfl
  Keeps.ofNext e (State.settle_keeps (kS hc rfl) (State.letGo_keeps (kS hc rfl) (canTransmitEnd_keeps (kS hc rfl) (Keeps.refl _ s) _ _ _) _) _)

theorem execCanTransmitFailed_keeps (t : ℕ) (m : ℕ) (lost : CanLost) {s u : State} (e : execCanTransmitFailed t m lost s = .next u) : Keeps 0x2002422 s u :=
  have hc : 0x2002422 &&& 0x2002422 = 0x2002422 := rfl
  Keeps.ofNext e (State.settle_keeps (kS hc rfl) (State.letGo_keeps (kS hc rfl) (canTransmitFailed_keeps (kS hc rfl) (Keeps.refl _ s) _ _ _ _) _) _)

theorem execCanTxAbort_keeps (t : ℕ) (m : ℕ) (mask : ℕ) {s u : State} (e : execCanTxAbort t m mask s = .next u) : Keeps 0x6243ca2 s u :=
  have hc : 0x6243ca2 &&& 0x6243ca2 = 0x6243ca2 := rfl
  Keeps.ofNext e (State.settle_keeps (kS hc rfl) (State.processed_keeps (kS hc rfl) (State.tick_keeps (kS hc rfl) (Keeps.refl _ s) _) _ _ (fun _ h0 => (tenonCommand_keeps (kS hc rfl) h0 _ _ _ _ (fun _ h1 => (canTxAbort_keeps (kS hc rfl) h1 _ _))))) _)

theorem execExclusiveWindowOpen_keeps (t : ℕ) (m : ℕ) (busy : Bool) {s u : State} (e : execExclusiveWindowOpen t m busy s = .next u) : Keeps 0x2002422 s u :=
  have hc : 0x2002422 &&& 0x2002422 = 0x2002422 := rfl
  Keeps.ofNext e (State.settle_keeps (kS hc rfl) (exclusiveWindowOpen_keeps (kS hc rfl) (Keeps.refl _ s) _ _ _) _)

theorem execReferenceLost_keeps (t : ℕ) (m : ℕ) {s u : State} (e : execReferenceLost t m s = .next u) : Keeps 0x2000022 s u :=
  have hc : 0x2000022 &&& 0x2000022 = 0x2000022 := rfl
  Keeps.ofNext e (State.settle_keeps (kS hc rfl) (referenceLost_keeps (kS hc rfl) (Keeps.refl _ s) _ _) _)

theorem execWindowEnd_keeps (t : ℕ) (m : ℕ) {s u : State} (e : execWindowEnd t m s = .next u) : Keeps 0x2002422 s u :=
  have hc : 0x2002422 &&& 0x2002422 = 0x2002422 := rfl
  Keeps.ofNext e (State.settle_keeps (kS hc rfl) (windowEnd_keeps (kS hc rfl) (Keeps.refl _ s) _ _) _)

theorem execDeltaAbort_keeps (ms : Master) (w : World) {s u : State} (e : execDeltaAbort ms w s = .next u) : Keeps 0x7ffbff6 s u :=
  have hc : 0x7ffbff6 &&& 0x7ffbff6 = 0x7ffbff6 := rfl
  Keeps.ofNext e (State.settle_keeps (kS hc rfl) (State.busWrite_keeps (kS hc rfl) (Keeps.refl _ s) _ _ _ _ _) _)

theorem execDeltaArmed_keeps (t : ℕ) {s u : State} (e : execDeltaArmed t s = .next u) : Keeps 0x2000822 s u :=
  have hc : 0x2000822 &&& 0x2000822 = 0x2000822 := rfl
  Keeps.ofNext e (State.settle_keeps (kS hc rfl) (deltaArmed_keeps (kS hc rfl) (Keeps.refl _ s) _) _)

theorem execDeltaCheck_keeps (t : ℕ) (ms : Master) (w : World) {s u : State} (e : execDeltaCheck t ms w s = .next u) : Keeps 0x7ffbff6 s u :=
  have hc : 0x7ffbff6 &&& 0x7ffbff6 = 0x7ffbff6 := rfl
  Keeps.ofNext e (State.settle_keeps (kS hc rfl) (Keeps.ite (fun _ => (State.busWrite_keeps (kS hc rfl) (State.tick_keeps (kS hc rfl) (Keeps.refl _ s) _) _ _ _ _ _)) (fun _ => (State.tick_keeps (kS hc rfl) (Keeps.refl _ s) _))) _)

theorem execDeltaDisarm_keeps (c : ℕ) {s u : State} (e : execDeltaDisarm c s = .next u) : Keeps 0x6243ca0 s u :=
  have hc : 0x6243ca0 &&& 0x6243ca0 = 0x6243ca0 := rfl
  Keeps.ofNext e (State.settle_keeps (kS hc rfl) (State.processed_keeps (kS hc rfl) (Keeps.refl _ s) _ _ (fun _ h0 => (deltaDisarm_keeps (kS hc rfl) h0 _))) _)

theorem execDrainAbort_keeps (t : ℕ) (m : ℕ) {s u : State} (e : execDrainAbort t m s = .next u) : Keeps 0x6002422 s u :=
  have hc : 0x6002422 &&& 0x6002422 = 0x6002422 := rfl
  Keeps.ofNext e (State.settle_keeps (kS hc rfl) (drainAbort_keeps (kS hc rfl) (Keeps.refl _ s) _ _) _)

theorem execFrameDieStart_keeps (t : ℕ) {s u : State} (e : execFrameDieStart t s = .next u) : Keeps 0x7ffbeb2 s u :=
  have hc : 0x7ffbeb2 &&& 0x7ffbeb2 = 0x7ffbeb2 := rfl
  Keeps.ofNext e (State.settle_keeps (kS hc rfl) (frameDieStart_keeps (kS hc rfl) (Keeps.refl _ s) _) _)

theorem execHeaderChecked_keeps (t : ℕ) (header : Octets) (sig : Octets) {s u : State} (e : execHeaderChecked t header sig s = .next u) : Keeps 0x7f7bef2 s u :=
  have hc : 0x7f7bef2 &&& 0x7f7bef2 = 0x7f7bef2 := rfl
  Keeps.ofNext e (State.settle_keeps (kS hc rfl) (headerChecked_keeps (kS hc rfl) (Keeps.refl _ s) _ _ _) _)

theorem execHostRaise_keeps (t : ℕ) (ms : Master) (w : World) {s u : State} (e : execHostRaise t ms w s = .next u) : Keeps 0x7ffbff6 s u :=
  have hc : 0x7ffbff6 &&& 0x7ffbff6 = 0x7ffbff6 := rfl
  Keeps.ofNext e (State.settle_keeps (kS hc rfl) (Keeps.ite (fun _ => (State.busWrite_keeps (kS hc rfl) (State.tick_keeps (kS hc rfl) (Keeps.refl _ s) _) _ _ _ _ _)) (fun _ => (State.tick_keeps (kS hc rfl) (Keeps.refl _ s) _))) _)

theorem execLateBentsInService_keeps (n : ℕ) {s u : State} (e : execLateBentsInService n s = .next u) : Keeps 0x6b77ce0 s u :=
  have hc : 0x6b77ce0 &&& 0x6b77ce0 = 0x6b77ce0 := rfl
  Keeps.ofNext e (State.settle_keeps (kS hc rfl) (lateBentsInService_keeps (kS hc rfl) (Keeps.refl _ s) _) _)

theorem execModeRequest_keeps (ms : Master) (w : World) (target : Mode) {s u : State} (e : execModeRequest ms w target s = .next u) : Keeps 0x6f7beb2 s u :=
  have hc : 0x6f7beb2 &&& 0x6f7beb2 = 0x6f7beb2 := rfl
  Keeps.ofNext e (State.settle_keeps (kS hc rfl) (modeRequest_keeps (kS hc rfl) (Keeps.refl _ s) _ _ _) _)

theorem execOldTenonRelease_keeps (t : ℕ) (m : ℕ) {s u : State} (e : execOldTenonRelease t m s = .next u) : Keeps 0x2002002 s u :=
  have hc : 0x2002002 &&& 0x2002002 = 0x2002002 := rfl
  Keeps.ofNext e (State.settle_keeps (kS hc rfl) (oldTenonRelease_keeps (kS hc rfl) (Keeps.refl _ s) _ _) _)

theorem execOsc32Failure_keeps (t : ℕ) {s u : State} (e : execOsc32Failure t s = .next u) : Keeps 0x3000002 s u :=
  have hc : 0x3000002 &&& 0x3000002 = 0x3000002 := rfl
  Keeps.ofNext e (State.settle_keeps (kS hc rfl) (osc32Failure_keeps (kS hc rfl) (Keeps.refl _ s) _) _)

theorem execPoresetAssert_keeps {s u : State} (e : execPoresetAssert s = .next u) : Keeps 0x7fffff0 s u :=
  have hc : 0x7fffff0 &&& 0x7fffff0 = 0x7fffff0 := rfl
  Keeps.ofNext e (State.settle_keeps (kS hc rfl) (poresetAssert_keeps (kS hc rfl) (Keeps.refl _ s)) _)

theorem execPoresetRelease_keeps (t : ℕ) (twinId : Bool) {s u : State} (e : execPoresetRelease t twinId s = .next u) : Keeps 0x3200002 s u :=
  have hc : 0x3200002 &&& 0x3200002 = 0x3200002 := rfl
  Keeps.ofNext e (State.settle_keeps (kS hc rfl) (poresetRelease_keeps (kS hc rfl) (Keeps.refl _ s) _ _) _)

theorem execPowerupTimeout_keeps (t : ℕ) {s u : State} (e : execPowerupTimeout t s = .next u) : Keeps 0x3000002 s u :=
  have hc : 0x3000002 &&& 0x3000002 = 0x3000002 := rfl
  Keeps.ofNext e (State.settle_keeps (kS hc rfl) (powerupTimeout_keeps (kS hc rfl) (Keeps.refl _ s) _) _)

theorem execPurgeComplete_keeps (t : ℕ) {s u : State} (e : execPurgeComplete t s = .next u) : Keeps 0x2020862 s u :=
  have hc : 0x2020862 &&& 0x2020862 = 0x2020862 := rfl
  Keeps.ofNext e (State.settle_keeps (kS hc rfl) (purgeComplete_keeps (kS hc rfl) (Keeps.refl _ s) _) _)

theorem execRailRecovery_keeps (t : ℕ) {s u : State} (e : execRailRecovery t s = .next u) : Keeps 0x3000002 s u :=
  have hc : 0x3000002 &&& 0x3000002 = 0x3000002 := rfl
  Keeps.ofNext e (State.settle_keeps (kS hc rfl) (railRecovery_keeps (kS hc rfl) (Keeps.refl _ s) _) _)

theorem execRailUndervoltage_keeps (t : ℕ) (rail : ℕ) {s u : State} (e : execRailUndervoltage t rail s = .next u) : Keeps 0x7f7ffb2 s u :=
  have hc : 0x7f7ffb2 &&& 0x7f7ffb2 = 0x7f7ffb2 := rfl
  Keeps.ofNext e (State.settle_keeps (kS hc rfl) (railUndervoltage_keeps (kS hc rfl) (Keeps.refl _ s) _ _) _)

theorem execRaiseFromFlash_keeps (t : ℕ) {s u : State} (e : execRaiseFromFlash t s = .next u) : Keeps 0x3000822 s u :=
  have hc : 0x3000822 &&& 0x3000822 = 0x3000822 := rfl
  Keeps.ofNext e (State.settle_keeps (kS hc rfl) (raiseFromFlash_keeps (kS hc rfl) (Keeps.refl _ s) _) _)

theorem execRefclkFailure_keeps (t : ℕ) {s u : State} (e : execRefclkFailure t s = .next u) : Keeps 0x6243c22 s u :=
  have hc : 0x6243c22 &&& 0x6243c22 = 0x6243c22 := rfl
  Keeps.ofNext e (State.settle_keeps (kS hc rfl) (State.refclkFailure_keeps (kS hc rfl) (Keeps.refl _ s) _) _)

theorem execSectionChecked_keeps (t : ℕ) (idx : ℕ) (sect : Octets) (readErr : Bool) {s u : State} (e : execSectionChecked t idx sect readErr s = .next u) : Keeps 0x6f7fcf2 s u :=
  have hc : 0x6f7fcf2 &&& 0x6f7fcf2 = 0x6f7fcf2 := rfl
  Keeps.ofNext e (State.settle_keeps (kS hc rfl) (sectionChecked_keeps (kS hc rfl) (Keeps.refl _ s) _ _ _ _) _)

theorem execServiceStart_keeps (t : ℕ) {s u : State} (e : execServiceStart t s = .next u) : Keeps 0x7ec3c72 s u :=
  have hc : 0x7ec3c72 &&& 0x7ec3c72 = 0x7ec3c72 := rfl
  Keeps.ofNext e (State.settle_keeps (kS hc rfl) (serviceStart_keeps (kS hc rfl) (Keeps.refl _ s) _) _)

theorem execStagingError_keeps (t : ℕ) {s u : State} (e : execStagingError t s = .next u) : Keeps 0x6243c22 s u :=
  have hc : 0x6243c22 &&& 0x6243c22 = 0x6243c22 := rfl
  Keeps.ofNext e (State.settle_keeps (kS hc rfl) (stagingError_keeps (kS hc rfl) (Keeps.refl _ s) _) _)

theorem execStagingForward_keeps (ms : Master) (w : World) {s u : State} (e : execStagingForward ms w s = .next u) : Keeps 0x7ffbff6 s u :=
  have hc : 0x7ffbff6 &&& 0x7ffbff6 = 0x7ffbff6 := rfl
  Keeps.ofNext e (State.settle_keeps (kS hc rfl) (State.busWrite_keeps (kS hc rfl) (Keeps.refl _ s) _ _ _ _ _) _)

theorem execSwap_keeps (g : ℕ) {s u : State} (e : execSwap g s = .next u) : Keeps 0x6846c20 s u :=
  have hc : 0x6846c20 &&& 0x6846c20 = 0x6846c20 := rfl
  Keeps.ofNext e (State.settle_keeps (kS hc rfl) (swap_keeps (kS hc rfl) (Keeps.refl _ s) _) _)

theorem execSwapSchedule_keeps (c : ℕ) (g : ℕ) {s u : State} (e : execSwapSchedule c g s = .next u) : Keeps 0x6243ca0 s u :=
  have hc : 0x6243ca0 &&& 0x6243ca0 = 0x6243ca0 := rfl
  Keeps.ofNext e (State.settle_keeps (kS hc rfl) (State.processed_keeps (kS hc rfl) (Keeps.refl _ s) _ _ (fun _ h0 => (swapSchedule_keeps (kS hc rfl) h0 _ _))) _)

theorem execTenonLoaded_keeps (t : ℕ) (m : ℕ) {s u : State} (e : execTenonLoaded t m s = .next u) : Keeps 0x2002022 s u :=
  have hc : 0x2002022 &&& 0x2002022 = 0x2002022 := rfl
  Keeps.ofNext e (State.settle_keeps (kS hc rfl) (tenonLoaded_keeps (kS hc rfl) (Keeps.refl _ s) _ _) _)

theorem execTenonResume_keeps (a : ℕ) (m : ℕ) {s u : State} (e : execTenonResume a m s = .next u) : Keeps 0x6002422 s u :=
  have hc : 0x6002422 &&& 0x6002422 = 0x6002422 := rfl
  Keeps.ofNext e (State.settle_keeps (kS hc rfl) (tenonResumed_keeps (kS hc rfl) (Keeps.refl _ s) _ _) _)

theorem execVsillApplied_keeps (t : ℕ) {s u : State} (e : execVsillApplied t s = .next u) : Keeps 0x7fffff2 s u :=
  have hc : 0x7fffff2 &&& 0x7fffff2 = 0x7fffff2 := rfl
  Keeps.ofNext e (State.settle_keeps (kS hc rfl) (vsillApplied_keeps (kS hc rfl) (Keeps.refl _ s) _) _)

theorem execVsillLoss_keeps {s u : State} (e : execVsillLoss s = .next u) : Keeps 0x7fffff0 s u :=
  have hc : 0x7fffff0 &&& 0x7fffff0 = 0x7fffff0 := rfl
  Keeps.ofNext e (State.settle_keeps (kS hc rfl) (vsillLoss_keeps (kS hc rfl) (Keeps.refl _ s)) _)

theorem execBar2Write_keeps (w : World) (off : ℕ) (data : Octets) {s u : State} (e : execBar2Write w off data s = .next u) : Keeps 0x2000040 s u :=
  have hc : 0x2000040 &&& 0x2000040 = 0x2000040 := rfl
  Keeps.ofNext e (State.settle_keeps (kS hc rfl) (bar2Write_keeps (kS hc rfl) (Keeps.refl _ s) _ _ _) _)

theorem execBlockLockSet_keeps (ms : Master) (w : World) (addr : ℕ) {s u : State} (e : execBlockLockSet ms w addr s = .next u) : Keeps 0x7ffbff6 s u :=
  have hc : 0x7ffbff6 &&& 0x7ffbff6 = 0x7ffbff6 := rfl
  Keeps.ofNext e (State.settle_keeps (kS hc rfl) (blockLockSet_keeps (kS hc rfl) (Keeps.refl _ s) _ _ _) _)

theorem execFarAccess_keeps (t : ℕ) (ms : Master) (w : World) (addr : RegAddr) (write : Option Word) {s u : State} (e : execFarAccess t ms w addr write s = .next u) : Keeps 0x7ffbff6 s u :=
  have hc : 0x7ffbff6 &&& 0x7ffbff6 = 0x7ffbff6 := rfl
  Keeps.ofNext e (State.settle_keeps (kS hc rfl) (farAccess_keeps (kS hc rfl) (Keeps.refl _ s) _ _ _ _ _ _) _)

theorem execFarAccessTimeout_keeps (t : ℕ) {s u : State} (e : execFarAccessTimeout t s = .next u) : Keeps 0x7ffbff6 s u :=
  have hc : 0x7ffbff6 &&& 0x7ffbff6 = 0x7ffbff6 := rfl
  Keeps.ofNext e (State.settle_keeps (kS hc rfl) (farAccessTimeout_keeps (kS hc rfl) (Keeps.refl _ s) _) _)

theorem execFarCompletion_keeps (t : ℕ) (data : Option Word) {s u : State} (e : execFarCompletion t data s = .next u) : Keeps 0x7ffbff6 s u :=
  have hc : 0x7ffbff6 &&& 0x7ffbff6 = 0x7ffbff6 := rfl
  Keeps.ofNext e (State.settle_keeps (kS hc rfl) (farCompletion_keeps (kS hc rfl) (Keeps.refl _ s) _ _) _)

theorem execHostRingFrameRead_keeps (t : ℕ) (ring : ℕ) (len : ℕ) (entry : ℕ) (intr : Bool) (frame : Octets) (err : Bool) {s u : State} (e : execHostRingFrameRead t ring len entry intr frame err s = .next u) : Keeps 0x2000422 s u :=
  have hc : 0x2000422 &&& 0x2000422 = 0x2000422 := rfl
  Keeps.ofNext e (State.settle_keeps (kS hc rfl) (hostRingFrameRead_keeps (kS hc rfl) (Keeps.refl _ s) _ _ _ _ _ _ _) _)

theorem execLatchedRead_keeps (ms : Master) (w : World) (addr : RegAddr) {s u : State} (e : execLatchedRead ms w addr s = .next u) : Keeps 0x7ffbff6 s u :=
  have hc : 0x7ffbff6 &&& 0x7ffbff6 = 0x7ffbff6 := rfl
  Keeps.ofNext e (State.settle_keeps (kS hc rfl) (latchedRead_keeps (kS hc rfl) (Keeps.refl _ s) _ _ _ _) _)

theorem execLockAbort_keeps (t : ℕ) (far : Bool) {s u : State} (e : execLockAbort t far s = .next u) : Keeps 0x7ffbff6 s u :=
  have hc : 0x7ffbff6 &&& 0x7ffbff6 = 0x7ffbff6 := rfl
  Keeps.ofNext e (State.settle_keeps (kS hc rfl) (lockAbort_keeps (kS hc rfl) (Keeps.refl _ s) _ _) _)

theorem execLockAcquire_keeps (t : ℕ) (ms : Master) (w : World) (far : Bool) {s u : State} (e : execLockAcquire t ms w far s = .next u) : Keeps 0x7ffbff6 s u :=
  have hc : 0x7ffbff6 &&& 0x7ffbff6 = 0x7ffbff6 := rfl
  Keeps.ofNext e (State.settle_keeps (kS hc rfl) (lockAcquire_keeps (kS hc rfl) (Keeps.refl _ s) _ _ _ _) _)

theorem execLockRelease_keeps (ms : Master) (w : World) (far : Bool) {s u : State} (e : execLockRelease ms w far s = .next u) : Keeps 0x7ffbff6 s u :=
  have hc : 0x7ffbff6 &&& 0x7ffbff6 = 0x7ffbff6 := rfl
  Keeps.ofNext e (State.settle_keeps (kS hc rfl) (lockRelease_keeps (kS hc rfl) (Keeps.refl _ s) _ _ _) _)

theorem execMdioCommand_keeps (ms : Master) (w : World) (val : Word) {s u : State} (e : execMdioCommand ms w val s = .next u) : Keeps 0x7ffbff6 s u :=
  have hc : 0x7ffbff6 &&& 0x7ffbff6 = 0x7ffbff6 := rfl
  Keeps.ofNext e (State.settle_keeps (kS hc rfl) (State.busWrite_keeps (kS hc rfl) (Keeps.refl _ s) _ _ _ _ _) _)

theorem execMsixUnmask_keeps (ms : Master) (vec : ℕ) {s u : State} (e : execMsixUnmask ms vec s = .next u) : Keeps 0x2000000 s u :=
  have hc : 0x2000000 &&& 0x2000000 = 0x2000000 := rfl
  Keeps.ofNext e (State.settle_keeps (kS hc rfl) (msixUnmask_keeps (kS hc rfl) (Keeps.refl _ s) _ _) _)

theorem execPostedLogClear_keeps (ms : Master) (w : World) {s u : State} (e : execPostedLogClear ms w s = .next u) : Keeps 0x7ffbff6 s u :=
  have hc : 0x7ffbff6 &&& 0x7ffbff6 = 0x7ffbff6 := rfl
  Keeps.ofNext e (State.settle_keeps (kS hc rfl) (State.busWrite_keeps (kS hc rfl) (Keeps.refl _ s) _ _ _ _ _) _)

theorem execPrefetchExpire_keeps (t : ℕ) (k : ℕ) {s u : State} (e : execPrefetchExpire t k s = .next u) : Keeps 0x2000002 s u :=
  have hc : 0x2000002 &&& 0x2000002 = 0x2000002 := rfl
  Keeps.ofNext e (State.settle_keeps (kS hc rfl) (prefetchExpire_keeps (kS hc rfl) (Keeps.refl _ s) _ _) _)

theorem execPrefetchRead_keeps (t : ℕ) (ms : Master) (w : World) (off : ℕ) (block : List Word) {s u : State} (e : execPrefetchRead t ms w off block s = .next u) : Keeps 0x7ffbff6 s u :=
  have hc : 0x7ffbff6 &&& 0x7ffbff6 = 0x7ffbff6 := rfl
  Keeps.ofNext e (State.settle_keeps (kS hc rfl) (prefetchRead_keeps (kS hc rfl) (Keeps.refl _ s) _ _ _ _ _) _)

theorem execPriorityCellRead_keeps (ms : Master) (w : World) (m : ℕ) (k : ℕ) {s u : State} (e : execPriorityCellRead ms w m k s = .next u) : Keeps 0x7ffbff6 s u :=
  have hc : 0x7ffbff6 &&& 0x7ffbff6 = 0x7ffbff6 := rfl
  Keeps.ofNext e (State.settle_keeps (kS hc rfl) (priorityCellRead_keeps (kS hc rfl) (Keeps.refl _ s) _ _ _ _) _)

theorem execReadClear_keeps (ms : Master) (w : World) (addr : RegAddr) (upd : ℕ) {s u : State} (e : execReadClear ms w addr upd s = .next u) : Keeps 0x7ffbff6 s u :=
  have hc : 0x7ffbff6 &&& 0x7ffbff6 = 0x7ffbff6 := rfl
  Keeps.ofNext e (State.settle_keeps (kS hc rfl) (readClear_keeps (kS hc rfl) (Keeps.refl _ s) _ _ _ _ _) _)

theorem execReadCompletesWithError_keeps (ms : Master) {s u : State} (e : execReadCompletesWithError ms s = .next u) : Keeps 0x2000120 s u :=
  have hc : 0x2000120 &&& 0x2000120 = 0x2000120 := rfl
  Keeps.ofNext e (State.settle_keeps (kS hc rfl) (readCompletesWithError_keeps (kS hc rfl) (Keeps.refl _ s) _) _)

theorem execRegisterWrite_keeps (ms : Master) (w : World) (addr : RegAddr) (val : WriteIn) {s u : State} (e : execRegisterWrite ms w addr val s = .next u) : Keeps 0x7ffbff6 s u :=
  have hc : 0x7ffbff6 &&& 0x7ffbff6 = 0x7ffbff6 := rfl
  Keeps.ofNext e (State.settle_keeps (kS hc rfl) (registerWrite_keeps (kS hc rfl) (Keeps.refl _ s) _ _ _ _ _ _) _)

theorem execRingDisable_keeps (ms : Master) (w : World) (tx : Bool) (ring : ℕ) (inten : Bool) {s u : State} (e : execRingDisable ms w tx ring inten s = .next u) : Keeps 0x7ffbff6 s u :=
  have hc : 0x7ffbff6 &&& 0x7ffbff6 = 0x7ffbff6 := rfl
  Keeps.ofNext e (State.settle_keeps (kS hc rfl) (ringDisable_keeps (kS hc rfl) (Keeps.refl _ s) _ _ _ _ _) _)

theorem execRingTailWrite_keeps (ms : Master) (w : World) (tx : Bool) (ring : ℕ) (tail : ℕ) (bufLens : List ℕ) {s u : State} (e : execRingTailWrite ms w tx ring tail bufLens s = .next u) : Keeps 0x7ffbff6 s u :=
  have hc : 0x7ffbff6 &&& 0x7ffbff6 = 0x7ffbff6 := rfl
  Keeps.ofNext e (State.settle_keeps (kS hc rfl) (ringTailWrite_keeps (kS hc rfl) (Keeps.refl _ s) _ _ _ _ _ _) _)

theorem execScarfLinkLoss_keeps (t : ℕ) {s u : State} (e : execScarfLinkLoss t s = .next u) : Keeps 0x7ffbff6 s u :=
  have hc : 0x7ffbff6 &&& 0x7ffbff6 = 0x7ffbff6 := rfl
  Keeps.ofNext e (State.settle_keeps (kS hc rfl) (scarfLinkLoss_keeps (kS hc rfl) (Keeps.refl _ s) _) _)

theorem execShadowWrite_keeps (ms : Master) (w : World) (val : Word) {s u : State} (e : execShadowWrite ms w val s = .next u) : Keeps 0x7ffbff6 s u :=
  have hc : 0x7ffbff6 &&& 0x7ffbff6 = 0x7ffbff6 := rfl
  Keeps.ofNext e (State.settle_keeps (kS hc rfl) (State.busWrite_keeps (kS hc rfl) (Keeps.refl _ s) _ _ _ _ _) _)

theorem execSpiTransaction_keeps (cmd : ℕ) (addr : ℕ) (vals : List Word) {s u : State} (e : execSpiTransaction cmd addr vals s = .next u) : Keeps 0x7ffbff6 s u :=
  have hc : 0x7ffbff6 &&& 0x7ffbff6 = 0x7ffbff6 := rfl
  Keeps.ofNext e (State.settle_keeps (kS hc rfl) (spiTransaction_keeps (kS hc rfl) (Keeps.refl _ s) _ _ _) _)

theorem execAttestationRequest_keeps (t : ℕ) (ms : Master) (w : World) {s u : State} (e : execAttestationRequest t ms w s = .next u) : Keeps 0x7ffbff6 s u :=
  have hc : 0x7ffbff6 &&& 0x7ffbff6 = 0x7ffbff6 := rfl
  Keeps.ofNext e (State.settle_keeps (kS hc rfl) (State.busWrite_keeps (kS hc rfl) (State.tick_keeps (kS hc rfl) (Keeps.refl _ s) _) _ _ _ _ _) _)

theorem execFreshnessWrite_keeps (_c : ℕ) (idx : ℕ) (d : List ℕ) {s u : State} (e : execFreshnessWrite _c idx d s = .next u) : Keeps 0x6243ce0 s u :=
  have hc : 0x6243ce0 &&& 0x6243ce0 = 0x6243ce0 := rfl
  Keeps.ofNext e (State.settle_keeps (kS hc rfl) (State.processed_keeps (kS hc rfl) (Keeps.refl _ s) _ _ (fun _ h0 => (State.freshnessWrite_keeps (kS hc rfl) h0 _ _))) _)

theorem execHostJob_keeps (t : ℕ) (ms : Master) (w : World) {s u : State} (e : execHostJob t ms w s = .next u) : Keeps 0x7ffbff6 s u :=
  have hc : 0x7ffbff6 &&& 0x7ffbff6 = 0x7ffbff6 := rfl
  Keeps.ofNext e (State.settle_keeps (kS hc rfl) (State.busWrite_keeps (kS hc rfl) (State.tick_keeps (kS hc rfl) (Keeps.refl _ s) _) _ _ _ _ _) _)

theorem execHostJobDone_keeps (t : ℕ) {s u : State} (e : execHostJobDone t s = .next u) : Keeps 0x2100022 s u :=
  have hc : 0x2100022 &&& 0x2100022 = 0x2100022 := rfl
  Keeps.ofNext e (State.settle_keeps (kS hc rfl) (State.hostJobDone_keeps (kS hc rfl) (Keeps.refl _ s) _) _)

theorem execKeyCheckComplete_keeps (t : ℕ) {s u : State} (e : execKeyCheckComplete t s = .next u) : Keeps 0x2080022 s u :=
  have hc : 0x2080022 &&& 0x2080022 = 0x2080022 := rfl
  Keeps.ofNext e (State.settle_keeps (kS hc rfl) (State.keyCheckComplete_keeps (kS hc rfl) (Keeps.refl _ s) _) _)

theorem execKeyPacketCheck_keeps (t : ℕ) (ms : Master) (w : World) {s u : State} (e : execKeyPacketCheck t ms w s = .next u) : Keeps 0x7ffbff6 s u :=
  have hc : 0x7ffbff6 &&& 0x7ffbff6 = 0x7ffbff6 := rfl
  Keeps.ofNext e (State.settle_keeps (kS hc rfl) (State.busWrite_keeps (kS hc rfl) (State.tick_keeps (kS hc rfl) (Keeps.refl _ s) _) _ _ _ _ _) _)

theorem execKeyPacketDiscard_keeps (ms : Master) (w : World) {s u : State} (e : execKeyPacketDiscard ms w s = .next u) : Keeps 0x7ffbff6 s u :=
  have hc : 0x7ffbff6 &&& 0x7ffbff6 = 0x7ffbff6 := rfl
  Keeps.ofNext e (State.settle_keeps (kS hc rfl) (State.busWrite_keeps (kS hc rfl) (Keeps.refl _ s) _ _ _ _ _) _)

theorem execKeyUpdateApply_keeps (c : ℕ) (a : ℕ) {s u : State} (e : execKeyUpdateApply c a s = .next u) : Keeps 0x62c3ca0 s u :=
  have hc : 0x62c3ca0 &&& 0x62c3ca0 = 0x62c3ca0 := rfl
  Keeps.ofNext e (State.settle_keeps (kS hc rfl) (State.processed_keeps (kS hc rfl) (Keeps.refl _ s) _ _ (fun _ h0 => (State.keyUpdateApply_keeps (kS hc rfl) h0 _ _))) _)

theorem execKeyUpdateInForce_keeps (n : ℕ) {s u : State} (e : execKeyUpdateInForce n s = .next u) : Keeps 0x62c3ca0 s u :=
  have hc : 0x62c3ca0 &&& 0x62c3ca0 = 0x62c3ca0 := rfl
  Keeps.ofNext e (State.settle_keeps (kS hc rfl) (State.keyUpdateInForce_keeps (kS hc rfl) (Keeps.refl _ s) _) _)

theorem execNvkmCommitComplete_keeps (t : ℕ) (ok : Bool) {s u : State} (e : execNvkmCommitComplete t ok s = .next u) : Keeps 0x62c3ca2 s u :=
  have hc : 0x62c3ca2 &&& 0x62c3ca2 = 0x62c3ca2 := rfl
  Keeps.ofNext e (State.settle_keeps (kS hc rfl) (State.nvkmCommitComplete_keeps (kS hc rfl) (Keeps.refl _ s) _ _) _)

theorem execProfileWrite_keeps (_c : ℕ) (idx : ℕ) (d : List ℕ) {s u : State} (e : execProfileWrite _c idx d s = .next u) : Keeps 0x6243ce0 s u :=
  have hc : 0x6243ce0 &&& 0x6243ce0 = 0x6243ce0 := rfl
  Keeps.ofNext e (State.settle_keeps (kS hc rfl) (State.processed_keeps (kS hc rfl) (Keeps.refl _ s) _ _ (fun _ h0 => (State.profileWrite_keeps (kS hc rfl) h0 _ _))) _)

theorem execShelfEntryZeroise_keeps (k : ℕ) {s u : State} (e : execShelfEntryZeroise k s = .next u) : Keeps 0x2080000 s u :=
  have hc : 0x2080000 &&& 0x2080000 = 0x2080000 := rfl
  Keeps.ofNext e (State.settle_keeps (kS hc rfl) (State.shelfEntryZeroise_keeps (kS hc rfl) (Keeps.refl _ s) _) _)

theorem execStatementReady_keeps (t : ℕ) {s u : State} (e : execStatementReady t s = .next u) : Keeps 0x2080022 s u :=
  have hc : 0x2080022 &&& 0x2080022 = 0x2080022 := rfl
  Keeps.ofNext e (State.settle_keeps (kS hc rfl) (State.statementReady_keeps (kS hc rfl) (Keeps.refl _ s) _) _)

theorem execTamperConfigWrite_keeps (ms : Master) (w : World) (src : ℕ) (val : Word) {s u : State} (e : execTamperConfigWrite ms w src val s = .next u) : Keeps 0x7ffbff6 s u :=
  have hc : 0x7ffbff6 &&& 0x7ffbff6 = 0x7ffbff6 := rfl
  Keeps.ofNext e (State.settle_keeps (kS hc rfl) (Keeps.ite (fun _ => (State.busWrite_keeps (kS hc rfl) (Keeps.refl _ s) _ _ _ _ _)) (fun _ => (Keeps.refl _ s))) _)

theorem execTamperDetected_keeps (t : ℕ) (src : ℕ) {s u : State} (e : execTamperDetected t src s = .next u) : Keeps 0x73c3c22 s u :=
  have hc : 0x73c3c22 &&& 0x73c3c22 = 0x73c3c22 := rfl
  Keeps.ofNext e (State.settle_keeps (kS hc rfl) (State.tamperWake_keeps (kS hc rfl) (State.tamperDetected_keeps (kS hc rfl) (Keeps.refl _ s) _ _) _ _) _)

theorem execEpochBoundary_keeps (t : ℕ) {s u : State} (e : execEpochBoundary t s = .next u) : Keeps 0x6602632 s u :=
  have hc : 0x6602632 &&& 0x6602632 = 0x6602632 := rfl
  Keeps.ofNext e (State.settle_keeps (kS hc rfl) (State.epochBoundary_keeps (kS hc rfl) (Keeps.refl _ s) _) _)

theorem execEpochOverrun_keeps (t : ℕ) {s u : State} (e : execEpochOverrun t s = .next u) : Keeps 0x6243c22 s u :=
  have hc : 0x6243c22 &&& 0x6243c22 = 0x6243c22 := rfl
  Keeps.ofNext e (State.settle_keeps (kS hc rfl) (State.epochOverrun_keeps (kS hc rfl) (Keeps.refl _ s) _) _)

theorem execEpochProcessingComplete_keeps (t : ℕ) (n : ℕ) {s u : State} (e : execEpochProcessingComplete t n s = .next u) : Keeps 0x7ffbce2 s u :=
  have hc : 0x7ffbce2 &&& 0x7ffbce2 = 0x7ffbce2 := rfl
  Keeps.ofNext e (State.settle_keeps (kS hc rfl) (State.ringVecs_keeps (kS hc rfl) (State.processingComplete_keeps (kS hc rfl) (Keeps.refl _ s) _ _)) _)

theorem execFillAckReceived_keeps (t : ℕ) (cls : ℕ) (port : ℕ) (pos : ℕ) {s u : State} (e : execFillAckReceived t cls port pos s = .next u) : Keeps 0x6000402 s u :=
  have hc : 0x6000402 &&& 0x6000402 = 0x6000402 := rfl
  Keeps.ofNext e (State.settle_keeps (kS hc rfl) (State.fillAckReceived_keeps (kS hc rfl) (Keeps.refl _ s) _ _ _ _) _)

theorem execFillDeadline_keeps (t : ℕ) (n : ℕ) {s u : State} (e : execFillDeadline t n s = .next u) : Keeps 0x6000402 s u :=
  have hc : 0x6000402 &&& 0x6000402 = 0x6000402 := rfl
  Keeps.ofNext e (State.settle_keeps (kS hc rfl) (State.fillDeadline_keeps (kS hc rfl) (Keeps.refl _ s) _ _) _)

theorem execFillReceived_keeps (t : ℕ) (inp : Input) {s u : State} (e : execFillReceived t inp s = .next u) : Keeps 0x6000422 s u :=
  have hc : 0x6000422 &&& 0x6000422 = 0x6000422 := rfl
  Keeps.ofNext e (State.settle_keeps (kS hc rfl) (State.fillReceived_keeps (kS hc rfl) (Keeps.refl _ s) _ _) _)

theorem execInputHandover_keeps (t : ℕ) (cls : ℕ) (port : ℕ) {s u : State} (e : execInputHandover t cls port s = .next u) : Keeps 0x6243c22 s u :=
  have hc : 0x6243c22 &&& 0x6243c22 = 0x6243c22 := rfl
  Keeps.ofNext e (State.settle_keeps (kS hc rfl) (State.inputHandover_keeps (kS hc rfl) (Keeps.refl _ s) _ _ _) _)

theorem execLedgerClose_keeps (t : ℕ) (n : ℕ) {s u : State} (e : execLedgerClose t n s = .next u) : Keeps 0x6000402 s u :=
  have hc : 0x6000402 &&& 0x6000402 = 0x6000402 := rfl
  Keeps.ofNext e (State.settle_keeps (kS hc rfl) (State.ledgerClose_keeps (kS hc rfl) (Keeps.refl _ s) _ _) _)

theorem execLedgerCompare_keeps (t : ℕ) (n : ℕ) (dig : Option ℕ) (out : Option OutcomeRec) {s u : State} (e : execLedgerCompare t n dig out s = .next u) : Keeps 0x6243c22 s u :=
  have hc : 0x6243c22 &&& 0x6243c22 = 0x6243c22 := rfl
  Keeps.ofNext e (State.settle_keeps (kS hc rfl) (State.ledgerCompare_keeps (kS hc rfl) (Keeps.refl _ s) _ _ _ _) _)

theorem execLedgerRelease_keeps (t : ℕ) (n : ℕ) (ecc : List (ℕ × Bool)) {s u : State} (e : execLedgerRelease t n ecc s = .next u) : Keeps 0x7fffce6 s u :=
  have hc : 0x7fffce6 &&& 0x7fffce6 = 0x7fffce6 := rfl
  Keeps.ofNext e (State.settle_keeps (kS hc rfl) (State.ledgerRelease_keeps (kS hc rfl) (Keeps.refl _ s) _ _ _) _)

theorem execMatchingDecided_keeps (t : ℕ) (n : ℕ) {s u : State} (e : execMatchingDecided t n s = .next u) : Keeps 0x6243ca2 s u :=
  have hc : 0x6243ca2 &&& 0x6243ca2 = 0x6243ca2 := rfl
  Keeps.ofNext e (State.settle_keeps (kS hc rfl) (State.matchingDecided_keeps (kS hc rfl) (Keeps.refl _ s) _ _) _)

theorem execPeerRecordsReceived_keeps (t : ℕ) (n : ℕ) (recs : List PeerRec) {s u : State} (e : execPeerRecordsReceived t n recs s = .next u) : Keeps 0x6000402 s u :=
  have hc : 0x6000402 &&& 0x6000402 = 0x6000402 := rfl
  Keeps.ofNext e (State.settle_keeps (kS hc rfl) (State.peerRecordsReceived_keeps (kS hc rfl) (Keeps.refl _ s) _ _ _) _)

theorem execRecordsSealSend_keeps (t : ℕ) (n : ℕ) {s u : State} (e : execRecordsSealSend t n s = .next u) : Keeps 0x6000402 s u :=
  have hc : 0x6000402 &&& 0x6000402 = 0x6000402 := rfl
  Keeps.ofNext e (State.settle_keeps (kS hc rfl) (State.recordsSealSend_keeps (kS hc rfl) (Keeps.refl _ s) _ _) _)

theorem execBankFault_keeps (t : ℕ) (bank : ℕ) (cls : ℕ) {s u : State} (e : execBankFault t bank cls s = .next u) : Keeps 0x6247c22 s u :=
  have hc : 0x6247c22 &&& 0x6247c22 = 0x6247c22 := rfl
  Keeps.ofNext e (State.settle_keeps (kS hc rfl) (bankFault_keeps (kS hc rfl) (Keeps.refl _ s) _ _ _) _)

theorem execBankPowerUp_keeps (t : ℕ) (bank : ℕ) (cls : ℕ) {s u : State} (e : execBankPowerUp t bank cls s = .next u) : Keeps 0x2006002 s u :=
  have hc : 0x2006002 &&& 0x2006002 = 0x2006002 := rfl
  Keeps.ofNext e (State.settle_keeps (kS hc rfl) (bankPowerUp_keeps (kS hc rfl) (Keeps.refl _ s) _ _ _) _)

theorem execHostCopyControl_keeps (_c : ℕ) (m : ℕ) (val : ℕ) {s u : State} (e : execHostCopyControl _c m val s = .next u) : Keeps 0x6243ca0 s u :=
  have hc : 0x6243ca0 &&& 0x6243ca0 = 0x6243ca0 := rfl
  Keeps.ofNext e (State.settle_keeps (kS hc rfl) (State.processed_keeps (kS hc rfl) (Keeps.refl _ s) _ _ (fun _ h0 => (hostCopyControl_keeps (kS hc rfl) h0 _ _))) _)

theorem execLinBusIdleTimeout_keeps (t : ℕ) (m : ℕ) {s u : State} (e : execLinBusIdleTimeout t m s = .next u) : Keeps 0x2002422 s u :=
  have hc : 0x2002422 &&& 0x2002422 = 0x2002422 := rfl
  Keeps.ofNext e (State.settle_keeps (kS hc rfl) (linBusIdleTimeout_keeps (kS hc rfl) (Keeps.refl _ s) _ _) _)

theorem execLinEventCollision_keeps (t : ℕ) (m : ℕ) {s u : State} (e : execLinEventCollision t m s = .next u) : Keeps 0x2002422 s u :=
  have hc : 0x2002422 &&& 0x2002422 = 0x2002422 := rfl
  Keeps.ofNext e (State.settle_keeps (kS hc rfl) (linEventCollision_keeps (kS hc rfl) (Keeps.refl _ s) _ _) _)

theorem execLinFrameReceived_keeps (t : ℕ) (m : ℕ) (rec : Octets) {s u : State} (e : execLinFrameReceived t m rec s = .next u) : Keeps 0x2002422 s u :=
  have hc : 0x2002422 &&& 0x2002422 = 0x2002422 := rfl
  Keeps.ofNext e (State.settle_keeps (kS hc rfl) (linFrameReceived_keeps (kS hc rfl) (Keeps.refl _ s) _ _ _) _)

theorem execLinHeaderReceived_keeps (t : ℕ) (m : ℕ) (rx : LinRx) (bitDev : ℤ) {s u : State} (e : execLinHeaderReceived t m rx bitDev s = .next u) : Keeps 0x2002422 s u :=
  have hc : 0x2002422 &&& 0x2002422 = 0x2002422 := rfl
  Keeps.ofNext e (State.settle_keeps (kS hc rfl) (linHeaderReceived_keeps (kS hc rfl) (Keeps.refl _ s) _ _ _ _ _ _) _)

theorem execLinResponseError_keeps (t : ℕ) (m : ℕ) (fid : ℕ) (reason : ℕ) {s u : State} (e : execLinResponseError t m fid reason s = .next u) : Keeps 0x2002422 s u :=
  have hc : 0x2002422 &&& 0x2002422 = 0x2002422 := rfl
  Keeps.ofNext e (State.settle_keeps (kS hc rfl) (linResponseError_keeps (kS hc rfl) (Keeps.refl _ s) _ _ _ _) _)

theorem execLinRunWrite_keeps (c : ℕ) (m : ℕ) (run : Bool) {s u : State} (e : execLinRunWrite c m run s = .next u) : Keeps 0x6243ca0 s u :=
  have hc : 0x6243ca0 &&& 0x6243ca0 = 0x6243ca0 := rfl
  Keeps.ofNext e (State.settle_keeps (kS hc rfl) (State.processed_keeps (kS hc rfl) (Keeps.refl _ s) _ _ (fun _ h0 => (tenonCommand_keeps (kS hc rfl) h0 _ _ _ _ (fun _ h1 => (State.setBit_keeps (kS hc rfl) (linRunWrite_keeps (kS hc rfl) h1 _ _ _) _ _ _))))) _)

theorem execLinSleepCommand_keeps (c : ℕ) (m : ℕ) {s u : State} (e : execLinSleepCommand c m s = .next u) : Keeps 0x6243ca0 s u :=
  have hc : 0x6243ca0 &&& 0x6243ca0 = 0x6243ca0 := rfl
  Keeps.ofNext e (State.settle_keeps (kS hc rfl) (State.processed_keeps (kS hc rfl) (Keeps.refl _ s) _ _ (fun _ h0 => (tenonCommand_keeps (kS hc rfl) h0 _ _ _ _ (fun _ h1 => (linSleepCommand_keeps (kS hc rfl) h1 _ _))))) _)

theorem execLinSlotStart_keeps (t : ℕ) (m : ℕ) {s u : State} (e : execLinSlotStart t m s = .next u) : Keeps 0x2002422 s u :=
  have hc : 0x2002422 &&& 0x2002422 = 0x2002422 := rfl
  Keeps.ofNext e (State.settle_keeps (kS hc rfl) (linSlotStart_keeps (kS hc rfl) (Keeps.refl _ s) _ _) _)

theorem execLinTableWrite_keeps (c : ℕ) (m : ℕ) (table : ℕ) {s u : State} (e : execLinTableWrite c m table s = .next u) : Keeps 0x6243ca0 s u :=
  have hc : 0x6243ca0 &&& 0x6243ca0 = 0x6243ca0 := rfl
  Keeps.ofNext e (State.settle_keeps (kS hc rfl) (State.processed_keeps (kS hc rfl) (Keeps.refl _ s) _ _ (fun _ h0 => (tenonCommand_keeps (kS hc rfl) h0 _ _ _ _ (fun _ h1 => (State.setFld_keeps (kS hc rfl) (linTableWrite_keeps (kS hc rfl) h1 _ _ _) _ _ _ _))))) _)

theorem execLinTransmitConfirm_keeps (t : ℕ) (m : ℕ) {s u : State} (e : execLinTransmitConfirm t m s = .next u) : Keeps 0x2002422 s u :=
  have hc : 0x2002422 &&& 0x2002422 = 0x2002422 := rfl
  Keeps.ofNext e (State.settle_keeps (kS hc rfl) (State.letGo_keeps (kS hc rfl) (linTransmitConfirm_keeps (kS hc rfl) (Keeps.refl _ s) _ _) _) _)

theorem execLinTxFailed_keeps (t : ℕ) (m : ℕ) (reason : ℕ) {s u : State} (e : execLinTxFailed t m reason s = .next u) : Keeps 0x2002422 s u :=
  have hc : 0x2002422 &&& 0x2002422 = 0x2002422 := rfl
  Keeps.ofNext e (State.settle_keeps (kS hc rfl) (State.letGo_keeps (kS hc rfl) (linTxFailed_keeps (kS hc rfl) (Keeps.refl _ s) _ _ _) _) _)

theorem execLinWakePulseReceived_keeps (t : ℕ) (m : ℕ) (us : ℕ) {s u : State} (e : execLinWakePulseReceived t m us s = .next u) : Keeps 0x2002422 s u :=
  have hc : 0x2002422 &&& 0x2002422 = 0x2002422 := rfl
  Keeps.ofNext e (State.settle_keeps (kS hc rfl) (linWakePulseReceived_keeps (kS hc rfl) (Keeps.refl _ s) _ _ _) _)

theorem execLinWakeRequest_keeps (c : ℕ) (m : ℕ) {s u : State} (e : execLinWakeRequest c m s = .next u) : Keeps 0x6243ca0 s u :=
  have hc : 0x6243ca0 &&& 0x6243ca0 = 0x6243ca0 := rfl
  Keeps.ofNext e (State.settle_keeps (kS hc rfl) (State.processed_keeps (kS hc rfl) (Keeps.refl _ s) _ _ (fun _ h0 => (tenonCommand_keeps (kS hc rfl) h0 _ _ _ _ (fun _ h1 => (linWakeRequest_keeps (kS hc rfl) h1 _))))) _)

theorem execMortiseRxInhibit_keeps (_c : ℕ) (m : ℕ) (on : Bool) {s u : State} (e : execMortiseRxInhibit _c m on s = .next u) : Keeps 0x6243ca0 s u :=
  have hc : 0x6243ca0 &&& 0x6243ca0 = 0x6243ca0 := rfl
  Keeps.ofNext e (State.settle_keeps (kS hc rfl) (State.processed_keeps (kS hc rfl) (Keeps.refl _ s) _ _ (fun _ h0 => (mortiseRxInhibit_keeps (kS hc rfl) h0 _ _))) _)

theorem execMortiseTxInhibit_keeps (_c : ℕ) (m : ℕ) (on : Bool) {s u : State} (e : execMortiseTxInhibit _c m on s = .next u) : Keeps 0x6243ca0 s u :=
  have hc : 0x6243ca0 &&& 0x6243ca0 = 0x6243ca0 := rfl
  Keeps.ofNext e (State.settle_keeps (kS hc rfl) (State.processed_keeps (kS hc rfl) (Keeps.refl _ s) _ _ (fun _ h0 => (mortiseTxInhibit_keeps (kS hc rfl) h0 _ _))) _)

theorem execPhyDisconnect_keeps (t : ℕ) (trip : PhyTrip) {s u : State} (e : execPhyDisconnect t trip s = .next u) : Keeps 0x2002422 s u :=
  have hc : 0x2002422 &&& 0x2002422 = 0x2002422 := rfl
  Keeps.ofNext e (State.settle_keeps (kS hc rfl) (State.letGo_keeps (kS hc rfl) (phyDisconnect_keeps (kS hc rfl) (Keeps.refl _ s) _ _ _) _) _)

theorem execPhyReconnect_keeps (t : ℕ) (m : ℕ) (held : Bool) {s u : State} (e : execPhyReconnect t m held s = .next u) : Keeps 0x2002422 s u :=
  have hc : 0x2002422 &&& 0x2002422 = 0x2002422 := rfl
  Keeps.ofNext e (State.settle_keeps (kS hc rfl) (phyReconnect_keeps (kS hc rfl) (Keeps.refl _ s) _ _ _) _)

theorem execPhyResetCommand_keeps (c : ℕ) (m : ℕ) {s u : State} (e : execPhyResetCommand c m s = .next u) : Keeps 0x6243ca0 s u :=
  have hc : 0x6243ca0 &&& 0x6243ca0 = 0x6243ca0 := rfl
  Keeps.ofNext e (State.settle_keeps (kS hc rfl) (State.processed_keeps (kS hc rfl) (Keeps.refl _ s) _ _ (fun _ h0 => (tenonCommand_keeps (kS hc rfl) h0 _ _ _ _ (fun _ h1 => (phyResetCommand_keeps (kS hc rfl) h1 _))))) _)

theorem execPhyWakeDetect_keeps (t : ℕ) (m : ℕ) (us : ℕ) {s u : State} (e : execPhyWakeDetect t m us s = .next u) : Keeps 0x3000422 s u :=
  have hc : 0x3000422 &&& 0x3000422 = 0x3000422 := rfl
  Keeps.ofNext e (State.settle_keeps (kS hc rfl) (phyWakeDetect_keeps (kS hc rfl) (Keeps.refl _ s) _ _ _) _)

theorem execPinFault_keeps (t : ℕ) (m : ℕ) (pin : ℕ) {s u : State} (e : execPinFault t m pin s = .next u) : Keeps 0x6243c22 s u :=
  have hc : 0x6243c22 &&& 0x6243c22 = 0x6243c22 := rfl
  Keeps.ofNext e (State.settle_keeps (kS hc rfl) (pinFault_keeps (kS hc rfl) (Keeps.refl _ s) _ _ _) _)

theorem execPlcaBeacon_keeps (t : ℕ) (m : ℕ) (sent : Bool) {s u : State} (e : execPlcaBeacon t m sent s = .next u) : Keeps 0x2002422 s u :=
  have hc : 0x2002422 &&& 0x2002422 = 0x2002422 := rfl
  Keeps.ofNext e (State.settle_keeps (kS hc rfl) (plcaBeacon_keeps (kS hc rfl) (Keeps.refl _ s) _ _ _) _)

theorem execPlcaInactive_keeps (t : ℕ) (m : ℕ) {s u : State} (e : execPlcaInactive t m s = .next u) : Keeps 0x2002422 s u :=
  have hc : 0x2002422 &&& 0x2002422 = 0x2002422 := rfl
  Keeps.ofNext e (State.settle_keeps (kS hc rfl) (plcaInactive_keeps (kS hc rfl) (Keeps.refl _ s) _ _) _)

theorem execT1sFrameReceived_keeps (t : ℕ) (m : ℕ) (frame : Octets) (fcsErr : Bool) {s u : State} (e : execT1sFrameReceived t m frame fcsErr s = .next u) : Keeps 0x2000422 s u :=
  have hc : 0x2000422 &&& 0x2000422 = 0x2000422 := rfl
  Keeps.ofNext e (State.settle_keeps (kS hc rfl) (t1sFrameReceived_keeps (kS hc rfl) (Keeps.refl _ s) _ _ _ _) _)

theorem execT1sTransmitOpportunity_keeps (t : ℕ) (m : ℕ) (ph : T1sTx) {s u : State} (e : execT1sTransmitOpportunity t m ph s = .next u) : Keeps 0x2002422 s u :=
  have hc : 0x2002422 &&& 0x2002422 = 0x2002422 := rfl
  Keeps.ofNext e (State.settle_keeps (kS hc rfl) (State.letGo_keeps (kS hc rfl) (t1sTransmitOpportunity_keeps (kS hc rfl) (Keeps.refl _ s) _ _ _) _) _)

theorem execT1sWakeRequest_keeps (c : ℕ) (m : ℕ) {s u : State} (e : execT1sWakeRequest c m s = .next u) : Keeps 0x6243ca0 s u :=
  have hc : 0x6243ca0 &&& 0x6243ca0 = 0x6243ca0 := rfl
  Keeps.ofNext e (State.settle_keeps (kS hc rfl) (State.processed_keeps (kS hc rfl) (Keeps.refl _ s) _ _ (fun _ h0 => (tenonCommand_keeps (kS hc rfl) h0 _ _ _ _ (fun _ h1 => (t1sWakeRequest_keeps (kS hc rfl) h1 _))))) _)

theorem execAwakeRestart_keeps (_c : ℕ) {s u : State} (e : execAwakeRestart _c s = .next u) : Keeps 0x6643ca0 s u :=
  have hc : 0x6643ca0 &&& 0x6643ca0 = 0x6643ca0 := rfl
  Keeps.ofNext e (State.settle_keeps (kS hc rfl) (State.processed_keeps (kS hc rfl) (Keeps.refl _ s) _ _ (fun _ h0 => (State.awakeRestart_keeps (kS hc rfl) h0))) _)

theorem execClockRamp_keeps (t : ℕ) (bent : ℕ) (start : Bool) {s u : State} (e : execClockRamp t bent start s = .next u) : Keeps 0x2800002 s u :=
  have hc : 0x2800002 &&& 0x2800002 = 0x2800002 := rfl
  Keeps.ofNext e (State.settle_keeps (kS hc rfl) (clockRamp_keeps (kS hc rfl) (Keeps.refl _ s) _ _ _) _)

theorem execDriverOverTemperature_keeps (t : ℕ) {s u : State} (e : execDriverOverTemperature t s = .next u) : Keeps 0x3000002 s u :=
  have hc : 0x3000002 &&& 0x3000002 = 0x3000002 := rfl
  Keeps.ofNext e (State.settle_keeps (kS hc rfl) (driverOverTemperature_keeps (kS hc rfl) (Keeps.refl _ s) _) _)

theorem execMaxAwakeExpiry_keeps (n : ℕ) {s u : State} (e : execMaxAwakeExpiry n s = .next u) : Keeps 0x25d08e0 s u :=
  have hc : 0x25d08e0 &&& 0x25d08e0 = 0x25d08e0 := rfl
  Keeps.ofNext e (State.settle_keeps (kS hc rfl) (State.maxAwakeExpiry_keeps (kS hc rfl) (Keeps.refl _ s) _) _)

theorem execPnTimeout_keeps (n : ℕ) (p : ℕ) {s u : State} (e : execPnTimeout n p s = .next u) : Keeps 0x35d08e0 s u :=
  have hc : 0x35d08e0 &&& 0x35d08e0 = 0x35d08e0 := rfl
  Keeps.ofNext e (State.settle_keeps (kS hc rfl) (State.pnTimeout_keeps (kS hc rfl) (Keeps.refl _ s) _ _) _)

theorem execPowerTrip_keeps (t : ℕ) (current : ℕ) (temp : ℕ) {s u : State} (e : execPowerTrip t current temp s = .next u) : Keeps 0x6a43c22 s u :=
  have hc : 0x6a43c22 &&& 0x6a43c22 = 0x6a43c22 := rfl
  Keeps.ofNext e (State.settle_keeps (kS hc rfl) (State.powerTrip_keeps (kS hc rfl) (Keeps.refl _ s) _ _ _) _)

theorem execQuiesceStart_keeps (t : ℕ) (q : ℕ) {s u : State} (e : execQuiesceStart t q s = .next u) : Keeps 0x3402002 s u :=
  have hc : 0x3402002 &&& 0x3402002 = 0x3402002 := rfl
  Keeps.ofNext e (State.settle_keeps (kS hc rfl) (State.quiesceStart_keeps (kS hc rfl) (Keeps.refl _ s) _ _) _)

theorem execRingLost_keeps (n : ℕ) (r : ℕ) {s u : State} (e : execRingLost n r s = .next u) : Keeps 0x35d08e0 s u :=
  have hc : 0x35d08e0 &&& 0x35d08e0 = 0x35d08e0 := rfl
  Keeps.ofNext e (State.settle_keeps (kS hc rfl) (State.ringLost_keeps (kS hc rfl) (Keeps.refl _ s) _ _) _)

theorem execRingPass_keeps (n : ℕ) (r : ℕ) {s u : State} (e : execRingPass n r s = .next u) : Keeps 0x35d08e0 s u :=
  have hc : 0x35d08e0 &&& 0x35d08e0 = 0x35d08e0 := rfl
  Keeps.ofNext e (State.settle_keeps (kS hc rfl) (State.ringPass_keeps (kS hc rfl) (Keeps.refl _ s) _ _) _)

theorem execRingStart_keeps (n : ℕ) (r : ℕ) {s u : State} (e : execRingStart n r s = .next u) : Keeps 0x35d08e0 s u :=
  have hc : 0x35d08e0 &&& 0x35d08e0 = 0x35d08e0 := rfl
  Keeps.ofNext e (State.settle_keeps (kS hc rfl) (State.ringStart_keeps (kS hc rfl) (Keeps.refl _ s) _ _) _)

theorem execSillTimerWake_keeps (t : ℕ) {s u : State} (e : execSillTimerWake t s = .next u) : Keeps 0x3000002 s u :=
  have hc : 0x3000002 &&& 0x3000002 = 0x3000002 := rfl
  Keeps.ofNext e (State.settle_keeps (kS hc rfl) (sillTimerWake_keeps (kS hc rfl) (Keeps.refl _ s) _) _)

theorem execSleepCancel_keeps (t : ℕ) {s u : State} (e : execSleepCancel t s = .next u) : Keeps 0x7643ca2 s u :=
  have hc : 0x7643ca2 &&& 0x7643ca2 = 0x7643ca2 := rfl
  Keeps.ofNext e (State.settle_keeps (kS hc rfl) (State.processed_keeps (kS hc rfl) (State.tick_keeps (kS hc rfl) (Keeps.refl _ s) _) _ _ (fun _ h0 => (State.sleepCancel_keeps (kS hc rfl) h0 _))) _)

theorem execSleepCommit_keeps (t : ℕ) {s u : State} (e : execSleepCommit t s = .next u) : Keeps 0x7f7fff2 s u :=
  have hc : 0x7f7fff2 &&& 0x7f7fff2 = 0x7f7fff2 := rfl
  Keeps.ofNext e (State.settle_keeps (kS hc rfl) (sleepCommit_keeps (kS hc rfl) (Keeps.refl _ s) _) _)

theorem execSleepGo_keeps (c : ℕ) {s u : State} (e : execSleepGo c s = .next u) : Keeps 0x6643ca0 s u :=
  have hc : 0x6643ca0 &&& 0x6643ca0 = 0x6643ca0 := rfl
  Keeps.ofNext e (State.settle_keeps (kS hc rfl) (State.processed_keeps (kS hc rfl) (Keeps.refl _ s) _ _ (fun _ h0 => (State.sleepGo_keeps (kS hc rfl) h0 _))) _)

theorem execSleepRequest_keeps (t : ℕ) (c : ℕ) {s u : State} (e : execSleepRequest t c s = .next u) : Keeps 0x7643ca2 s u :=
  have hc : 0x7643ca2 &&& 0x7643ca2 = 0x7643ca2 := rfl
  Keeps.ofNext e (State.settle_keeps (kS hc rfl) (State.processed_keeps (kS hc rfl) (State.tick_keeps (kS hc rfl) (Keeps.refl _ s) _) _ _ (fun _ h0 => (State.sleepRequest_keeps (kS hc rfl) h0 _ _))) _)

theorem execTripClear_keeps (sense : PowerSense) {s u : State} (e : execTripClear sense s = .next u) : Keeps 0x2800022 s u :=
  have hc : 0x2800022 &&& 0x2800022 = 0x2800022 := rfl
  Keeps.ofNext e (State.settle_keeps (kS hc rfl) (State.tripClear_keeps (kS hc rfl) (Keeps.refl _ s) _ _ _) _)

theorem execWakeActed_keeps (t : ℕ) {s u : State} (e : execWakeActed t s = .next u) : Keeps 0x3000002 s u :=
  have hc : 0x3000002 &&& 0x3000002 = 0x3000002 := rfl
  Keeps.ofNext e (State.settle_keeps (kS hc rfl) (wakeActed_keeps (kS hc rfl) (Keeps.refl _ s) _) _)

theorem execWakeInDetect_keeps (t : ℕ) (pin : ℕ) {s u : State} (e : execWakeInDetect t pin s = .next u) : Keeps 0x3000002 s u :=
  have hc : 0x3000002 &&& 0x3000002 = 0x3000002 := rfl
  Keeps.ofNext e (State.settle_keeps (kS hc rfl) (wakeInDetect_keeps (kS hc rfl) (Keeps.refl _ s) _ _) _)

theorem execWakeListenerMatch_keeps (t : ℕ) (k : ℕ) (byError : Bool) (rec : Octets) {s u : State} (e : execWakeListenerMatch t k byError rec s = .next u) : Keeps 0x3000002 s u :=
  have hc : 0x3000002 &&& 0x3000002 = 0x3000002 := rfl
  Keeps.ofNext e (State.settle_keeps (kS hc rfl) (wakeListenerMatch_keeps (kS hc rfl) (Keeps.refl _ s) _ _ _ _) _)

theorem execWakeOutPulseEnd_keeps (t : ℕ) {s u : State} (e : execWakeOutPulseEnd t s = .next u) : Keeps 0x3000002 s u :=
  have hc : 0x3000002 &&& 0x3000002 = 0x3000002 := rfl
  Keeps.ofNext e (State.settle_keeps (kS hc rfl) (wakeOutPulseEnd_keeps (kS hc rfl) (Keeps.refl _ s) _) _)

theorem execWakeOutRequest_keeps (t : ℕ) {s u : State} (e : execWakeOutRequest t s = .next u) : Keeps 0x7243ca2 s u :=
  have hc : 0x7243ca2 &&& 0x7243ca2 = 0x7243ca2 := rfl
  Keeps.ofNext e (State.settle_keeps (kS hc rfl) (State.processed_keeps (kS hc rfl) (State.tick_keeps (kS hc rfl) (Keeps.refl _ s) _) _ _ (fun _ h0 => (wakeOutRequest_keeps (kS hc rfl) h0 _))) _)

theorem execWatchDwellExpiry_keeps (t : ℕ) {s u : State} (e : execWatchDwellExpiry t s = .next u) : Keeps 0x3000012 s u :=
  have hc : 0x3000012 &&& 0x3000012 = 0x3000012 := rfl
  Keeps.ofNext e (State.settle_keeps (kS hc rfl) (watchDwellExpiry_keeps (kS hc rfl) (Keeps.refl _ s) _) _)

theorem execAgeOut_keeps (key : ℕ) {s u : State} (e : execAgeOut key s = .next u) : Keeps 0x21f08e0 s u :=
  have hc : 0x21f08e0 &&& 0x21f08e0 = 0x21f08e0 := rfl
  Keeps.ofNext e (State.settle_keeps (kS hc rfl) (State.ageOut_keeps (kS hc rfl) (Keeps.refl _ s) _) _)

theorem execCellWrite_keeps (_c : ℕ) (idx : ℕ) (d : List ℕ) {s u : State} (e : execCellWrite _c idx d s = .next u) : Keeps 0x6263ce0 s u :=
  have hc : 0x6263ce0 &&& 0x6263ce0 = 0x6263ce0 := rfl
  Keeps.ofNext e (State.settle_keeps (kS hc rfl) (State.processed_keeps (kS hc rfl) (Keeps.refl _ s) _ _ (fun _ h0 => (cellWrite_keeps (kS hc rfl) h0 _ _))) _)

theorem execDirectEntryWrite_keeps (_c : ℕ) (idx : ℕ) (d : List ℕ) {s u : State} (e : execDirectEntryWrite _c idx d s = .next u) : Keeps 0x6263ce0 s u :=
  have hc : 0x6263ce0 &&& 0x6263ce0 = 0x6263ce0 := rfl
  Keeps.ofNext e (State.settle_keeps (kS hc rfl) (State.processed_keeps (kS hc rfl) (Keeps.refl _ s) _ _ (fun _ h0 => (State.directEntryWrite_keeps (kS hc rfl) h0 _ _))) _)

theorem execEntryUnfreeze_keeps (key : ℕ) {s u : State} (e : execEntryUnfreeze key s = .next u) : Keeps 0x21f08e0 s u :=
  have hc : 0x21f08e0 &&& 0x21f08e0 = 0x21f08e0 := rfl
  Keeps.ofNext e (State.settle_keeps (kS hc rfl) (State.entryUnfreeze_keeps (kS hc rfl) (Keeps.refl _ s) _) _)

theorem execFlushFilterRetire_keeps (k : ℕ) {s u : State} (e : execFlushFilterRetire k s = .next u) : Keeps 0x21f08e0 s u :=
  have hc : 0x21f08e0 &&& 0x21f08e0 = 0x21f08e0 := rfl
  Keeps.ofNext e (State.settle_keeps (kS hc rfl) (State.flushFilterRetire_keeps (kS hc rfl) (Keeps.refl _ s) _) _)

theorem execGateActivate_keeps (c : ℕ) (bay : ℕ) {s u : State} (e : execGateActivate c bay s = .next u) : Keeps 0x6243ca0 s u :=
  have hc : 0x6243ca0 &&& 0x6243ca0 = 0x6243ca0 := rfl
  Keeps.ofNext e (State.settle_keeps (kS hc rfl) (State.processed_keeps (kS hc rfl) (Keeps.refl _ s) _ _ (fun _ h0 => (gateActivate_keeps (kS hc rfl) h0 _ _))) _)

theorem execGateListChange_keeps (t : ℕ) (bay : ℕ) {s u : State} (e : execGateListChange t bay s = .next u) : Keeps 0x20400a2 s u :=
  have hc : 0x20400a2 &&& 0x20400a2 = 0x20400a2 := rfl
  Keeps.ofNext e (State.settle_keeps (kS hc rfl) (gateListChange_keeps (kS hc rfl) (Keeps.refl _ s) _ _) _)

theorem execHashDelete_keeps (_c : ℕ) (idx : ℕ) (d : List ℕ) {s u : State} (e : execHashDelete _c idx d s = .next u) : Keeps 0x6263ce0 s u :=
  have hc : 0x6263ce0 &&& 0x6263ce0 = 0x6263ce0 := rfl
  Keeps.ofNext e (State.settle_keeps (kS hc rfl) (State.processed_keeps (kS hc rfl) (Keeps.refl _ s) _ _ (fun _ h0 => (State.hashDelete_keeps (kS hc rfl) h0 _ _))) _)

theorem execHashInsert_keeps (_c : ℕ) (idx : ℕ) (d : List ℕ) {s u : State} (e : execHashInsert _c idx d s = .next u) : Keeps 0x6263ce0 s u :=
  have hc : 0x6263ce0 &&& 0x6263ce0 = 0x6263ce0 := rfl
  Keeps.ofNext e (State.settle_keeps (kS hc rfl) (State.processed_keeps (kS hc rfl) (Keeps.refl _ s) _ _ (fun _ h0 => (State.hashInsert_keeps (kS hc rfl) h0 _ _))) _)

theorem execHistogramClear_keeps (_c : ℕ) {s u : State} (e : execHistogramClear _c s = .next u) : Keeps 0x6243ca0 s u :=
  have hc : 0x6243ca0 &&& 0x6243ca0 = 0x6243ca0 := rfl
  Keeps.ofNext e (State.settle_keeps (kS hc rfl) (State.processed_keeps (kS hc rfl) (Keeps.refl _ s) _ _ (fun _ h0 => (histogramClear_keeps (kS hc rfl) h0))) _)

theorem execHostSend_keeps (_c : ℕ) (idx : ℕ) {s u : State} (e : execHostSend _c idx s = .next u) : Keeps 0x6243ce0 s u :=
  have hc : 0x6243ce0 &&& 0x6243ce0 = 0x6243ce0 := rfl
  Keeps.ofNext e (State.settle_keeps (kS hc rfl) (State.processed_keeps (kS hc rfl) (Keeps.refl _ s) _ _ (fun _ h0 => (hostSend_keeps (kS hc rfl) h0 _))) _)

theorem execImageWrite_keeps (_c : ℕ) (idx : ℕ) (off : ℕ) (len : ℕ) (trig : Bool) (d : List ℕ) {s u : State} (e : execImageWrite _c idx off len trig d s = .next u) : Keeps 0x6243ce0 s u :=
  have hc : 0x6243ce0 &&& 0x6243ce0 = 0x6243ce0 := rfl
  Keeps.ofNext e (State.settle_keeps (kS hc rfl) (State.processed_keeps (kS hc rfl) (Keeps.refl _ s) _ _ (fun _ h0 => (imageWrite_keeps (kS hc rfl) h0 _ _ _ _ _))) _)

theorem execLearnedFlush_keeps (c : ℕ) (idx : ℕ) (d : List ℕ) {s u : State} (e : execLearnedFlush c idx d s = .next u) : Keeps 0x6263ca0 s u :=
  have hc : 0x6263ca0 &&& 0x6263ca0 = 0x6263ca0 := rfl
  Keeps.ofNext e (State.settle_keeps (kS hc rfl) (State.processed_keeps (kS hc rfl) (Keeps.refl _ s) _ _ (fun _ h0 => (State.learnedFlush_keeps (kS hc rfl) h0 _ _ _))) _)

theorem execMeterClearCounters_keeps (_c : ℕ) (idx : ℕ) {s u : State} (e : execMeterClearCounters _c idx s = .next u) : Keeps 0x6243ce0 s u :=
  have hc : 0x6243ce0 &&& 0x6243ce0 = 0x6243ce0 := rfl
  Keeps.ofNext e (State.settle_keeps (kS hc rfl) (State.processed_keeps (kS hc rfl) (Keeps.refl _ s) _ _ (fun _ h0 => (meterClearCounters_keeps (kS hc rfl) h0 _))) _)

theorem execMeterUnblock_keeps (_c : ℕ) (idx : ℕ) {s u : State} (e : execMeterUnblock _c idx s = .next u) : Keeps 0x6243ce0 s u :=
  have hc : 0x6243ce0 &&& 0x6243ce0 = 0x6243ce0 := rfl
  Keeps.ofNext e (State.settle_keeps (kS hc rfl) (State.processed_keeps (kS hc rfl) (Keeps.refl _ s) _ _ (fun _ h0 => (meterUnblock_keeps (kS hc rfl) h0 _))) _)

theorem execMeterWrite_keeps (c : ℕ) (idx : ℕ) (d : List ℕ) {s u : State} (e : execMeterWrite c idx d s = .next u) : Keeps 0x6243ce0 s u :=
  have hc : 0x6243ce0 &&& 0x6243ce0 = 0x6243ce0 := rfl
  Keeps.ofNext e (State.settle_keeps (kS hc rfl) (State.processed_keeps (kS hc rfl) (Keeps.refl _ s) _ _ (fun _ h0 => (meterWrite_keeps (kS hc rfl) h0 _ _ _))) _)

theorem execPduCycleDue_keeps (n : ℕ) (p : ℕ) {s u : State} (e : execPduCycleDue n p s = .next u) : Keeps 0x21d08e0 s u :=
  have hc : 0x21d08e0 &&& 0x21d08e0 = 0x21d08e0 := rfl
  Keeps.ofNext e (State.settle_keeps (kS hc rfl) (State.pduCycleDue_keeps (kS hc rfl) (Keeps.refl _ s) _ _) _)

theorem execPduDescriptorWrite_keeps (c : ℕ) (idx : ℕ) (d : List ℕ) {s u : State} (e : execPduDescriptorWrite c idx d s = .next u) : Keeps 0x6263ce0 s u :=
  have hc : 0x6263ce0 &&& 0x6263ce0 = 0x6263ce0 := rfl
  Keeps.ofNext e (State.settle_keeps (kS hc rfl) (State.processed_keeps (kS hc rfl) (Keeps.refl _ s) _ _ (fun _ h0 => (pduDescriptorWrite_keeps (kS hc rfl) h0 _ _ _))) _)

theorem execPlumbConfirm_keeps (t : ℕ) (k : ℕ) {s u : State} (e : execPlumbConfirm t k s = .next u) : Keeps 0x2020022 s u :=
  have hc : 0x2020022 &&& 0x2020022 = 0x2020022 := rfl
  Keeps.ofNext e (State.settle_keeps (kS hc rfl) (State.plumbConfirm_keeps (kS hc rfl) (Keeps.refl _ s) _ _) _)

theorem execPlumbScanStep_keeps (t : ℕ) (uncorr : Bool) {s u : State} (e : execPlumbScanStep t uncorr s = .next u) : Keeps 0x6263ce2 s u :=
  have hc : 0x6263ce2 &&& 0x6263ce2 = 0x6263ce2 := rfl
  Keeps.ofNext e (State.settle_keeps (kS hc rfl) (State.plumbScanStep_keeps (kS hc rfl) (Keeps.refl _ s) _ _) _)

theorem execPrefixAdd_keeps (c : ℕ) (idx : ℕ) (d : List ℕ) {s u : State} (e : execPrefixAdd c idx d s = .next u) : Keeps 0x6263ca0 s u :=
  have hc : 0x6263ca0 &&& 0x6263ca0 = 0x6263ca0 := rfl
  Keeps.ofNext e (State.settle_keeps (kS hc rfl) (State.processed_keeps (kS hc rfl) (Keeps.refl _ s) _ _ (fun _ h0 => (State.prefixAdd_keeps (kS hc rfl) h0 _ _ _))) _)

theorem execPrefixBuildDone_keeps (t : ℕ) {s u : State} (e : execPrefixBuildDone t s = .next u) : Keeps 0x2020022 s u :=
  have hc : 0x2020022 &&& 0x2020022 = 0x2020022 := rfl
  Keeps.ofNext e (State.settle_keeps (kS hc rfl) (State.prefixBuildDone_keeps (kS hc rfl) (Keeps.refl _ s) _) _)

theorem execPrefixDelete_keeps (c : ℕ) (idx : ℕ) (_d : List ℕ) {s u : State} (e : execPrefixDelete c idx _d s = .next u) : Keeps 0x6263ca0 s u :=
  have hc : 0x6263ca0 &&& 0x6263ca0 = 0x6263ca0 := rfl
  Keeps.ofNext e (State.settle_keeps (kS hc rfl) (State.processed_keeps (kS hc rfl) (Keeps.refl _ s) _ _ (fun _ h0 => (State.prefixDelete_keeps (kS hc rfl) h0 _ _))) _)

theorem execPrefixEffect_keeps (n : ℕ) {s u : State} (e : execPrefixEffect n s = .next u) : Keeps 0x6263ce0 s u :=
  have hc : 0x6263ce0 &&& 0x6263ce0 = 0x6263ce0 := rfl
  Keeps.ofNext e (State.settle_keeps (kS hc rfl) (State.prefixEffect_keeps (kS hc rfl) (Keeps.refl _ s) _) _)

theorem execRestartTimeout_keeps (c : ℕ) (idx : ℕ) {s u : State} (e : execRestartTimeout c idx s = .next u) : Keeps 0x6243ce0 s u :=
  have hc : 0x6243ce0 &&& 0x6243ce0 = 0x6243ce0 := rfl
  Keeps.ofNext e (State.settle_keeps (kS hc rfl) (State.processed_keeps (kS hc rfl) (Keeps.refl _ s) _ _ (fun _ h0 => (restartTimeout_keeps (kS hc rfl) h0 _ _))) _)

theorem execRouteWrite_keeps (c : ℕ) (idx : ℕ) (d : List ℕ) {s u : State} (e : execRouteWrite c idx d s = .next u) : Keeps 0x6263ce0 s u :=
  have hc : 0x6263ce0 &&& 0x6263ce0 = 0x6263ce0 := rfl
  Keeps.ofNext e (State.settle_keeps (kS hc rfl) (State.processed_keeps (kS hc rfl) (Keeps.refl _ s) _ _ (fun _ h0 => (routeWrite_keeps (kS hc rfl) h0 _ _ _))) _)

theorem execRxTimeout_keeps (n : ℕ) (r : ℕ) {s u : State} (e : execRxTimeout n r s = .next u) : Keeps 0x21d08e0 s u :=
  have hc : 0x21d08e0 &&& 0x21d08e0 = 0x21d08e0 := rfl
  Keeps.ofNext e (State.settle_keeps (kS hc rfl) (State.rxTimeout_keeps (kS hc rfl) (Keeps.refl _ s) _ _) _)

theorem execCbRecoveryReset_keeps (n : ℕ) (h : ℕ) {s u : State} (e : execCbRecoveryReset n h s = .next u) : Keeps 0x2000040 s u :=
  have hc : 0x2000040 &&& 0x2000040 = 0x2000040 := rfl
  Keeps.ofNext e (State.settle_keeps (kS hc rfl) (Keeps.ite (fun _ => (State.cbRecoveryReset_keeps (kS hc rfl) (Keeps.refl _ s) _)) (fun _ => (Keeps.refl _ s))) _)

theorem execEpochEngineFault_keeps (t : ℕ) {s u : State} (e : execEpochEngineFault t s = .next u) : Keeps 0x6243c22 s u :=
  have hc : 0x6243c22 &&& 0x6243c22 = 0x6243c22 := rfl
  Keeps.ofNext e (State.settle_keeps (kS hc rfl) (State.epochEngineFault_keeps (kS hc rfl) (Keeps.refl _ s) _) _)

theorem execF2HandlerTimeout_keeps (t : ℕ) {s u : State} (e : execF2HandlerTimeout t s = .next u) : Keeps 0x2001022 s u :=
  have hc : 0x2001022 &&& 0x2001022 = 0x2001022 := rfl
  Keeps.ofNext e (State.settle_keeps (kS hc rfl) (State.f2HandlerTimeout_keeps (kS hc rfl) (Keeps.refl _ s) _) _)

theorem execFaultAck_keeps (ms : Master) (w : World) (ack : ℕ) {s u : State} (e : execFaultAck ms w ack s = .next u) : Keeps 0x7ffbff6 s u :=
  have hc : 0x7ffbff6 &&& 0x7ffbff6 = 0x7ffbff6 := rfl
  Keeps.ofNext e (State.settle_keeps (kS hc rfl) (State.busWrite_keeps (kS hc rfl) (Keeps.refl _ s) _ _ _ _ _) _)

theorem execFenceTimerFire_keeps (t : ℕ) {s u : State} (e : execFenceTimerFire t s = .next u) : Keeps 0x3202022 s u :=
  have hc : 0x3202022 &&& 0x3202022 = 0x3202022 := rfl
  Keeps.ofNext e (State.settle_keeps (kS hc rfl) (State.fenceTimerFire_keeps (kS hc rfl) (Keeps.refl _ s) _) _)

theorem execFrameDieReset_keeps (t : ℕ) {s u : State} (e : execFrameDieReset t s = .next u) : Keeps 0x7f7ffb2 s u :=
  have hc : 0x7f7ffb2 &&& 0x7f7ffb2 = 0x7f7ffb2 := rfl
  Keeps.ofNext e (State.settle_keeps (kS hc rfl) (State.frameDieReset_keeps (kS hc rfl) (Keeps.refl _ s) _) _)

theorem execHandoverCommand_keeps (c : ℕ) {s u : State} (e : execHandoverCommand c s = .next u) : Keeps 0x6243ca0 s u :=
  have hc : 0x6243ca0 &&& 0x6243ca0 = 0x6243ca0 := rfl
  Keeps.ofNext e (State.settle_keeps (kS hc rfl) (State.processed_keeps (kS hc rfl) (Keeps.refl _ s) _ _ (fun _ h0 => (State.handoverCommand_keeps (kS hc rfl) h0 _))) _)

theorem execHandoverEffect_keeps (n : ℕ) {s u : State} (e : execHandoverEffect n s = .next u) : Keeps 0x3202432 s u :=
  have hc : 0x3202432 &&& 0x3202432 = 0x3202432 := rfl
  Keeps.ofNext e (State.settle_keeps (kS hc rfl) (State.handoverEffect_keeps (kS hc rfl) (Keeps.refl _ s) _) _)

theorem execHeartbeatReceived_keeps (t : ℕ) (hb : Heartbeat) {s u : State} (e : execHeartbeatReceived t hb s = .next u) : Keeps 0x2202422 s u :=
  have hc : 0x2202422 &&& 0x2202422 = 0x2202422 := rfl
  Keeps.ofNext e (State.settle_keeps (kS hc rfl) (State.heartbeatReceived_keeps (kS hc rfl) (Keeps.refl _ s) _ _) _)

theorem execHeartbeatSend_keeps (t : ℕ) {s u : State} (e : execHeartbeatSend t s = .next u) : Keeps 0x2200002 s u :=
  have hc : 0x2200002 &&& 0x2200002 = 0x2200002 := rfl
  Keeps.ofNext e (State.settle_keeps (kS hc rfl) (State.heartbeatSend_keeps (kS hc rfl) (Keeps.refl _ s) _) _)

theorem execHoldEntry_keeps (t : ℕ) {s u : State} (e : execHoldEntry t s = .next u) : Keeps 0x6ec3c72 s u :=
  have hc : 0x6ec3c72 &&& 0x6ec3c72 = 0x6ec3c72 := rfl
  Keeps.ofNext e (State.settle_keeps (kS hc rfl) (State.holdEntry_keeps (kS hc rfl) (Keeps.refl _ s) _) _)

theorem execLeaseExpiry_keeps (t : ℕ) {s u : State} (e : execLeaseExpiry t s = .next u) : Keeps 0x2202022 s u :=
  have hc : 0x2202022 &&& 0x2202022 = 0x2202022 := rfl
  Keeps.ofNext e (State.settle_keeps (kS hc rfl) (State.leaseExpiry_keeps (kS hc rfl) (Keeps.refl _ s) _) _)

theorem execLeaseOverride_keeps (t : ℕ) (ms : Master) (w : World) (key : ℕ) {s u : State} (e : execLeaseOverride t ms w key s = .next u) : Keeps 0x7ffbff6 s u :=
  have hc : 0x7ffbff6 &&& 0x7ffbff6 = 0x7ffbff6 := rfl
  Keeps.ofNext e (State.settle_keeps (kS hc rfl) (State.busWrite_keeps (kS hc rfl) (State.tick_keeps (kS hc rfl) (Keeps.refl _ s) _) _ _ _ _ _) _)

theorem execMemoryErrorDetected_keeps (t : ℕ) (bent : ℕ) (uncorr : Bool) {s u : State} (e : execMemoryErrorDetected t bent uncorr s = .next u) : Keeps 0x6243c22 s u :=
  have hc : 0x6243c22 &&& 0x6243c22 = 0x6243c22 := rfl
  Keeps.ofNext e (State.settle_keeps (kS hc rfl) (State.memoryErrorDetected_keeps (kS hc rfl) (Keeps.refl _ s) _ _ _) _)

theorem execPairDegrade_keeps (t : ℕ) {s u : State} (e : execPairDegrade t s = .next u) : Keeps 0x2200422 s u :=
  have hc : 0x2200422 &&& 0x2200422 = 0x2200422 := rfl
  Keeps.ofNext e (State.settle_keeps (kS hc rfl) (State.pairDegrade_keeps (kS hc rfl) (Keeps.refl _ s) _) _)

theorem execPairingExchange_keeps (t : ℕ) (rec : PairRec) {s u : State} (e : execPairingExchange t rec s = .next u) : Keeps 0x6ec3c72 s u :=
  have hc : 0x6ec3c72 &&& 0x6ec3c72 = 0x6ec3c72 := rfl
  Keeps.ofNext e (State.settle_keeps (kS hc rfl) (State.pairingExchange_keeps (kS hc rfl) (Keeps.refl _ s) _ _) _)

theorem execPairwaitExpiry_keeps (t : ℕ) {s u : State} (e : execPairwaitExpiry t s = .next u) : Keeps 0x6ec3c72 s u :=
  have hc : 0x6ec3c72 &&& 0x6ec3c72 = 0x6ec3c72 := rfl
  Keeps.ofNext e (State.settle_keeps (kS hc rfl) (State.pairwaitExpiry_keeps (kS hc rfl) (Keeps.refl _ s) _) _)

theorem execPathDown_keeps (t : ℕ) (tell : Bool) {s u : State} (e : execPathDown t tell s = .next u) : Keeps 0x6243c22 s u :=
  have hc : 0x6243c22 &&& 0x6243c22 = 0x6243c22 := rfl
  Keeps.ofNext e (State.settle_keeps (kS hc rfl) (State.pathDown_keeps (kS hc rfl) (Keeps.refl _ s) _ _) _)

theorem execPathUp_keeps (t : ℕ) (tell : Bool) {s u : State} (e : execPathUp t tell s = .next u) : Keeps 0x2200022 s u :=
  have hc : 0x2200022 &&& 0x2200022 = 0x2200022 := rfl
  Keeps.ofNext e (State.settle_keeps (kS hc rfl) (State.pathUp_keeps (kS hc rfl) (Keeps.refl _ s) _ _) _)

theorem execResyncAbandon_keeps (t : ℕ) {s u : State} (e : execResyncAbandon t s = .next u) : Keeps 0x2200022 s u :=
  have hc : 0x2200022 &&& 0x2200022 = 0x2200022 := rfl
  Keeps.ofNext e (State.settle_keeps (kS hc rfl) (State.resyncAbandon_keeps (kS hc rfl) (Keeps.refl _ s) _) _)

theorem execResyncJoin_keeps (t : ℕ) (j : ℕ) {s u : State} (e : execResyncJoin t j s = .next u) : Keeps 0x6200422 s u :=
  have hc : 0x6200422 &&& 0x6200422 = 0x6200422 := rfl
  Keeps.ofNext e (State.settle_keeps (kS hc rfl) (State.resyncJoin_keeps (kS hc rfl) (Keeps.refl _ s) _ _) _)

theorem execResyncRegionCommit_keeps (t : ℕ) (region : ℕ) {s u : State} (e : execResyncRegionCommit t region s = .next u) : Keeps 0x6efbc66 s u :=
  have hc : 0x6efbc66 &&& 0x6efbc66 = 0x6efbc66 := rfl
  Keeps.ofNext e (State.settle_keeps (kS hc rfl) (State.resyncRegionCommit_keeps (kS hc rfl) (Keeps.refl _ s) _ _) _)

theorem execResyncStart_keeps (t : ℕ) {s u : State} (e : execResyncStart t s = .next u) : Keeps 0x2200022 s u :=
  have hc : 0x2200022 &&& 0x2200022 = 0x2200022 := rfl
  Keeps.ofNext e (State.settle_keeps (kS hc rfl) (State.resyncStart_keeps (kS hc rfl) (Keeps.refl _ s) _) _)

theorem execSecondFaultClear_keeps (ms : Master) (w : World) {s u : State} (e : execSecondFaultClear ms w s = .next u) : Keeps 0x7ffbff6 s u :=
  have hc : 0x7ffbff6 &&& 0x7ffbff6 = 0x7ffbff6 := rfl
  Keeps.ofNext e (State.settle_keeps (kS hc rfl) (State.busWrite_keeps (kS hc rfl) (Keeps.refl _ s) _ _ _ _ _) _)

theorem execTakeover_keeps (t : ℕ) {s u : State} (e : execTakeover t s = .next u) : Keeps 0x7373ce2 s u :=
  have hc : 0x7373ce2 &&& 0x7373ce2 = 0x7373ce2 := rfl
  Keeps.ofNext e (State.settle_keeps (kS hc rfl) (State.takeover_keeps (kS hc rfl) (Keeps.refl _ s) _) _)

theorem execTellWordReceived_keeps (t : ℕ) (tw : TellWord) {s u : State} (e : execTellWordReceived t tw s = .next u) : Keeps 0x2200422 s u :=
  have hc : 0x2200422 &&& 0x2200422 = 0x2200422 := rfl
  Keeps.ofNext e (State.settle_keeps (kS hc rfl) (State.tellWordReceived_keeps (kS hc rfl) (Keeps.refl _ s) _ _) _)

theorem execTellWordSend_keeps (t : ℕ) {s u : State} (e : execTellWordSend t s = .next u) : Keeps 0x2200002 s u :=
  have hc : 0x2200002 &&& 0x2200002 = 0x2200002 := rfl
  Keeps.ofNext e (State.settle_keeps (kS hc rfl) (State.tellWordSend_keeps (kS hc rfl) (Keeps.refl _ s) _) _)

end Sys2Proof.Machine
end

