-- ==== Sys2Proof/WellFormed.lean ====
section
/-! DEFINITION. WellFormed.lean: which commands a sender can form: operands within the widths and counts the spec gives the things they name.
The meanings are total and do not rest on it. -/

namespace Sys2Proof

/-- An instant in ns, within the 64 bits of the time base (R40). -/
def okTime (t : Nat) : Bool := decide (t < 2 ^ 64)
/-- An epoch number, a 48-bit value (R49). -/
def okEpoch (n : Nat) : Bool := decide (n < 2 ^ 48)
/-- One of the 128 mortises. -/
def okMort (m : Nat) : Bool := decide (m < 128)
/-- One of the twelve bays. -/
def okBay (b : Nat) : Bool := decide (b < 12)
/-- One of the eight mortise banks. -/
def okBank (k : Nat) : Bool := decide (k < 8)
/-- An offset in BAR0, 64 MiB: the register space, the far window above it, and unmapped space (R502, R505). -/
def okAddr (a : Nat) : Bool := decide (a < 2 ^ 26)
/-- The octets of one access: 1, 2, 4 or 8. -/
def okSize (n : Nat) : Bool := n == 1 || n == 2 || n == 4 || n == 8
/-- A number below the count of the things it names. -/
def okIndex (bound x : Nat) : Bool := decide (x < bound)
/-- A list of numbers below `bound`. -/
def okNats (bound : Nat) (l : List Nat) : Bool := l.all (fun x => decide (x < bound))
/-- The data words of a command: at most sixteen of 32 bits. -/
def okWords (d : List Nat) : Bool := decide (d.length ≤ 16) && okNats (2 ^ 32) d
/-- A region of a resync, 1 to 7 (R459). -/
def okRegion (r : Nat) : Bool := decide (1 ≤ r) && decide (r ≤ 7)
/-- Octets of a frame, record, image part or section: at most 16 MiB. -/
def okOctets (l : Octets) : Bool := decide (l.length ≤ 2 ^ 24)

/-- Can a sender form this command? -/
def Instr.wellFormed : Instr → Bool
  | .registerWrite _ _ addr val => okAddr addr.off && okSize addr.size && okIndex 4294967296 val.upd
  | .readClear _ _ addr upd => okAddr addr.off && okSize addr.size && okIndex 4294967296 upd
  | .latchedRead _ _ addr => okAddr addr.off && okSize addr.size
  | .blockLockSet _ _ addr => okAddr addr
  | .modeRequest _ _ _ => true
  | .poresetAssert => true
  | .poresetRelease t _ => okTime t
  | .frameDieStart t => okTime t
  | .powerupTimeout t => okTime t
  | .railUndervoltage t rail => okTime t && okIndex 256 rail
  | .railRecovery t => okTime t
  | .vsillLoss => true
  | .refclkFailure t => okTime t
  | .osc32Failure t => okTime t
  | .raiseFromFlash t => okTime t
  | .hostRaise t _ _ => okTime t
  | .sectionChecked t idx sect _ => okTime t && okIndex 13 idx && okOctets sect
  | .serviceStart t => okTime t
  | .lateBentsInService n => okEpoch n
  | .deltaCheck t _ _ => okTime t
  | .deltaArmed t => okTime t
  | .deltaAbort _ _ => true
  | .stagingForward _ _ => true
  | .stagingError t => okTime t
  | .swapSchedule c g => okEpoch c && okEpoch g
  | .deltaDisarm c => okEpoch c
  | .swap g => okEpoch g
  | .purgeComplete t => okTime t
  | .drainAbort t m => okTime t && okMort m
  | .oldTenonRelease t m => okTime t && okMort m
  | .tenonLoaded t m => okTime t && okMort m
  | .tenonResume a m => okEpoch a && okMort m
  | .gptpSyncReceived t bay domain _ => okTime t && okBay bay && okIndex 256 domain
  | .tbHoldover t => okTime t
  | .tbLost t => okTime t
  | .announceTimeout t => okTime t
  | .pdelayExchange t bay _ => okTime t && okBay bay
  | .epochBoundary t => okTime t
  | .bayFrameReceived t bay frame _ _ => okTime t && okBay bay && okOctets frame
  | .pauseExpiry t bay => okTime t && okBay bay
  | .linkChange t bay _ => okTime t && okBay bay
  | .autonegWordReceived bay _ speed => okBay bay && okIndex 6 speed
  | .mdioCommand _ _ _ => true
  | .mdioDone rdata _ => okIndex 65536 rdata
  | .bayFrameTransmit t bay => okTime t && okBay bay
  | .canFrameReceived t m rx => okTime t && decide (rx.sof ≤ t) && okMort m && okOctets rx.octets
  | .priorityCellRead _ _ m k => okMort m && okIndex 16 k
  | .canArbitrationStart t m => okTime t && okMort m
  | .canTransmitEnd t m tdcv => okTime t && okMort m && okIndex 256 tdcv
  | .canTransmitFailed t m lost => okTime t && okMort m && lost.tdcv.all (okIndex 256)
  | .canBusError t m _ fault => okTime t && okMort m && fault.tdcv.all (okIndex 256)
  | .busOffRecovered t m => okTime t && okMort m
  | .busOffRecoveryRequest c m => okEpoch c && okMort m
  | .canOpmodeWrite c m mode => okEpoch c && okMort m && okIndex 4 mode
  | .canTxAbort t m mask => okTime t && okMort m && okIndex 4294967296 mask
  | .beginDriving t => okTime t
  | .basicCycleStart t m => okTime t && okMort m
  | .exclusiveWindowOpen t m _ => okTime t && okMort m
  | .windowEnd t m => okTime t && okMort m
  | .referenceLost t m => okTime t && okMort m
  | .linSlotStart t m => okTime t && okMort m
  | .linHeaderReceived t m rx _ => okTime t && okTime rx.start && okMort m && okIndex 256 rx.pid
  | .linFrameReceived t m rec => okTime t && okMort m && okOctets rec
  | .linResponseError t m fid reason => okTime t && okMort m && okIndex 64 fid && okIndex 256 reason
  | .linEventCollision t m => okTime t && okMort m
  | .linTransmitConfirm t m => okTime t && okMort m
  | .linTxFailed t m reason => okTime t && okMort m && okIndex 256 reason
  | .linBusIdleTimeout t m => okTime t && okMort m
  | .linWakePulseReceived t m _ => okTime t && okMort m
  | .linTableWrite c m table => okEpoch c && okMort m && okIndex 8 table
  | .linRunWrite c m _ => okEpoch c && okMort m
  | .linSleepCommand c m => okEpoch c && okMort m
  | .linWakeRequest c m => okEpoch c && okMort m
  | .t1sFrameReceived t m frame _ => okTime t && okMort m && okOctets frame
  | .plcaBeacon t m _ => okTime t && okMort m
  | .plcaInactive t m => okTime t && okMort m
  | .t1sTransmitOpportunity t m _ => okTime t && okMort m
  | .phyDisconnect t trip => okTime t && okMort trip.mort
  | .phyReconnect t m _ => okTime t && okMort m
  | .phyResetCommand c m => okEpoch c && okMort m
  | .t1sWakeRequest c m => okEpoch c && okMort m
  | .phyWakeDetect t m _ => okTime t && okMort m
  | .bankFault t bank cls => okTime t && okBank bank && okIndex 4 cls
  | .pinFault t m pin => okTime t && okMort m && okIndex 8 pin
  | .mortiseTxInhibit c m _ => okEpoch c && okMort m
  | .mortiseRxInhibit c m _ => okEpoch c && okMort m
  | .hostCopyControl c m val => okEpoch c && okMort m && okIndex 4294967296 val
  | .hostRingFrameRead t ring len _ _ frame _ => okTime t && okIndex 16 ring && okIndex 65536 len && okOctets frame
  | .ringTailWrite _ _ _ ring tail bufLens => okIndex 16 ring && okIndex 8192 tail && okNats 65536 bufLens
  | .ringDisable _ _ _ ring _ => okIndex 16 ring
  | .inputHandover t cls port => okTime t && okIndex 4 cls && okIndex 256 port
  | .ledgerClose t n => okTime t && okEpoch n
  | .recordsSealSend t n => okTime t && okEpoch n
  | .peerRecordsReceived t n _ => okTime t && okEpoch n
  | .matchingDecided t n => okTime t && okEpoch n
  | .fillReceived t _ => okTime t
  | .fillAckReceived t cls port _ => okTime t && okIndex 4 cls && okIndex 256 port
  | .fillDeadline t n => okTime t && okEpoch n
  | .ledgerRelease t n _ => okTime t && okEpoch n
  | .ageOut _ => true
  | .entryUnfreeze _ => true
  | .flushFilterRetire _ => true
  | .epochProcessingComplete t n => okTime t && okEpoch n
  | .epochOverrun t => okTime t
  | .ledgerCompare t n _ _ => okTime t && okEpoch n
  | .rxTimeout n r => okEpoch n && okIndex 8388608 r
  | .pduCycleDue n p => okEpoch n && okIndex 1048576 p
  | .routeWrite c idx d => okEpoch c && okIndex 4294967296 idx && okWords d
  | .cellWrite c idx d => okEpoch c && okIndex 4294967296 idx && okWords d
  | .pduDescriptorWrite c idx d => okEpoch c && okIndex 4294967296 idx && okWords d
  | .imageWrite c idx off len _ d => okEpoch c && okIndex 4294967296 idx && okIndex 16384 off && okIndex 128 len && okWords d
  | .hostSend c idx => okEpoch c && okIndex 4294967296 idx
  | .restartTimeout c idx => okEpoch c && okIndex 4294967296 idx
  | .directEntryWrite c idx d => okEpoch c && okIndex 4294967296 idx && okWords d
  | .hashInsert c idx d => okEpoch c && okIndex 4294967296 idx && okWords d
  | .hashDelete c idx d => okEpoch c && okIndex 4294967296 idx && okWords d
  | .prefixAdd c idx d => okEpoch c && okIndex 4294967296 idx && okWords d
  | .prefixDelete c idx d => okEpoch c && okIndex 4294967296 idx && okWords d
  | .learnedFlush c idx d => okEpoch c && okIndex 4294967296 idx && okWords d
  | .prefixEffect n => okEpoch n
  | .plumbScanStep t _ => okTime t
  | .plumbConfirm t k => okTime t && okIndex 4096 k
  | .shadowWrite _ _ _ => true
  | .meterWrite c idx d => okEpoch c && okIndex 4294967296 idx && okWords d
  | .meterUnblock c idx => okEpoch c && okIndex 4294967296 idx
  | .meterClearCounters c idx => okEpoch c && okIndex 4294967296 idx
  | .gateActivate c bay => okEpoch c && okBay bay
  | .gateListChange t bay => okTime t && okBay bay
  | .histogramClear c => okEpoch c
  | .keyPacketCheck t _ _ => okTime t
  | .keyCheckComplete t => okTime t
  | .keyPacketDiscard _ _ => true
  | .keyUpdateApply c a => okEpoch c && okEpoch a
  | .nvkmCommitComplete t _ => okTime t
  | .keyUpdateInForce n => okEpoch n
  | .shelfEntryZeroise _ => true
  | .tamperDetected t src => okTime t && okIndex 6 src
  | .tamperConfigWrite _ _ src _ => okIndex 6 src
  | .attestationRequest t _ _ => okTime t
  | .statementReady t => okTime t
  | .freshnessWrite c idx d => okEpoch c && okIndex 4294967296 idx && okWords d
  | .profileWrite c idx d => okEpoch c && okIndex 4294967296 idx && okWords d
  | .hostJob t _ _ => okTime t
  | .hostJobDone t => okTime t
  | .pairingExchange t _ => okTime t
  | .pairwaitExpiry t => okTime t
  | .leaseOverride t _ _ key => okTime t && okIndex 256 key
  | .handoverCommand c => okEpoch c
  | .handoverEffect n => okEpoch n
  | .heartbeatSend t => okTime t
  | .heartbeatReceived t _ => okTime t
  | .tellWordSend t => okTime t
  | .tellWordReceived t _ => okTime t
  | .pathDown t _ => okTime t
  | .pathUp t _ => okTime t
  | .pairDegrade t => okTime t
  | .leaseExpiry t => okTime t
  | .takeover t => okTime t
  | .fenceTimerFire t => okTime t
  | .resyncStart t => okTime t
  | .resyncRegionCommit t region => okTime t && okRegion region
  | .resyncJoin t j => okTime t && okEpoch j
  | .resyncAbandon t => okTime t
  | .cbRecoveryReset n h => okEpoch n && okIndex 4096 h
  | .holdEntry t => okTime t
  | .frameDieReset t => okTime t
  | .faultAck _ _ ack => okIndex 32 ack
  | .secondFaultClear _ _ => true
  | .f2HandlerTimeout t => okTime t
  | .sleepRequest t c => okTime t && okEpoch c
  | .sleepGo c => okEpoch c
  | .sleepCancel t => okTime t
  | .quiesceStart t q => okTime t && okEpoch q
  | .sleepCommit t => okTime t
  | .wakeActed t => okTime t
  | .wakeInDetect t pin => okTime t && okIndex 8 pin
  | .wakeListenerMatch t k _ rec => okTime t && okIndex 16 k && okOctets rec
  | .sillTimerWake t => okTime t
  | .watchDwellExpiry t => okTime t
  | .wakeOutRequest t => okTime t
  | .wakeOutPulseEnd t => okTime t
  | .awakeRestart c => okEpoch c
  | .maxAwakeExpiry n => okEpoch n
  | .ringPass n r => okEpoch n && okIndex 32 r
  | .ringStart n r => okEpoch n && okIndex 32 r
  | .ringLost n r => okEpoch n && okIndex 32 r
  | .pnTimeout n p => okEpoch n && okIndex 32 p
  | .powerTrip t _ _ => okTime t
  | .tripClear sense => okTime sense.t
  | .clockRamp t bent _ => okTime t && okIndex 256 bent
  | .spiTransaction cmd addr _ => okIndex 256 cmd && okAddr addr
  | .farAccess t _ _ addr _ => okTime t && okIndex 8388608 addr.off && okSize addr.size
  | .farCompletion t _ => okTime t
  | .farAccessTimeout t => okTime t
  | .postedLogClear _ _ => true
  | .lockAcquire t _ _ _ => okTime t
  | .lockRelease _ _ _ => true
  | .lockAbort t _ => okTime t
  | .prefetchRead t _ _ off _ => okTime t && okIndex 8388608 off
  | .prefetchExpire t k => okTime t && okIndex 1024 k
  | .msixUnmask _ vec => okIndex 64 vec
  | .vsillApplied t => okTime t
  | .bankPowerUp t bank cls => okTime t && okBank bank && okIndex 4 cls
  | .headerChecked t header sig => okTime t && okOctets header && okOctets sig
  | .prefixBuildDone t => okTime t
  | .memoryErrorDetected t bent _ => okTime t && okIndex 256 bent
  | .epochEngineFault t => okTime t
  | .announceReceived t bay domain _ => okTime t && okBay bay && okIndex 256 domain
  | .readCompletesWithError _ => true
  | .driverOverTemperature t => okTime t
  | .scarfLinkLoss t => okTime t
  | .bar2Write _ off _ => okIndex 4294967296 off

end Sys2Proof
end

