-- ==== Sys2Proof/Tests/Slice0.lean ====
section
/-! SUPPORT. Tests/Slice0.lean: the model's own tests. First ill-formed commands that the well-formedness check refuses, and single steps whose outcome the spec gives;
then, for every statement of Certificates/Slice0/Obligations.lean with hypotheses, states and operands that meet the hypotheses of each of its clauses together, at
boundary values of their ranges where they have one. -/
set_option Elab.async false
open Sys2Proof Sys2Proof.Machine

namespace Sys2Proof.Tests

/-- A master that the lock of its bus does not keep out reaches the register space. -/
theorem reaches_of {s : State} {ms : Master} {w : World}
    (h : s.dieOn = true ∧ (s.hb.lockL.all fun l => decide (l.ms = ms ∧ l.w = w)) = true ∧ s.hb.stalled = [] ∧ ms ≠ .scarf ∧ (ms = .spi → s.spiOpen w = true)) : s.reaches ms w := by
  obtain ⟨h1, h2, h3⟩ := h
  refine ⟨h1, fun l e => ?_, h3⟩
  rw [e] at h2
  simpa using h2

/-- A host in the secure world that nothing holds up. -/
theorem secureHost_of {s : State} {ms : Master} {w : World}
    (h : (s.dieOn = true ∧ (s.hb.lockL.all fun l => decide (l.ms = ms ∧ l.w = worldOf ms w)) = true ∧ s.hb.stalled = [] ∧ ms ≠ .scarf ∧ (ms = .spi → s.spiOpen (worldOf ms w) = true)) ∧
      isHost ms = true ∧ worldOf ms w = .secure) : s.secureHost ms w := ⟨reaches_of h.1, h.2⟩

/-- What holds of the value of an option holds of every value it may have. -/
theorem opt_all {α : Type} {P : α → Prop} [DecidablePred P] {o : Option α} (h : (o.all fun k => decide (P k)) = true) : ∀ k, o = some k → P k := by
  intro k e
  rw [e] at h
  simpa using h

/-! ### Ill-formed commands, one for each check of WellFormed.lean -/

theorem test_illformed_time : (Instr.serviceStart (2 ^ 64)).wellFormed = false := by decide +kernel
theorem test_illformed_epoch : (Instr.swapSchedule 5 (2 ^ 48)).wellFormed = false := by decide +kernel
theorem test_illformed_mortise : (Instr.tenonLoaded 5 128).wellFormed = false := by decide +kernel
theorem test_illformed_bay : (Instr.pauseExpiry 5 12).wellFormed = false := by decide +kernel
theorem test_illformed_bank : (Instr.bankPowerUp 5 8 1).wellFormed = false := by decide +kernel
theorem test_illformed_address : (Instr.registerWrite .pcie0 .secure ⟨2 ^ 26, 4⟩ ⟨0, 0⟩).wellFormed = false := by decide +kernel
theorem test_illformed_size : (Instr.latchedRead .pcie0 .secure ⟨0, 3⟩).wellFormed = false ∧ (Instr.latchedRead .pcie0 .secure ⟨0, 8⟩).wellFormed = true := by decide +kernel
theorem test_illformed_index : (Instr.ringPass 5 32).wellFormed = false := by decide +kernel
theorem test_illformed_buffer_length : (Instr.ringTailWrite .pcie0 .secure false 3 9 [64, 65536]).wellFormed = false := by decide +kernel
theorem test_illformed_word : (Instr.cellWrite 5 6 [2 ^ 32]).wellFormed = false := by decide +kernel
theorem test_illformed_word_count : (Instr.cellWrite 5 6 (List.replicate 17 0)).wellFormed = false := by decide +kernel
theorem test_illformed_region : (Instr.resyncRegionCommit 5 0).wellFormed = false ∧ (Instr.resyncRegionCommit 5 8).wellFormed = false := by decide +kernel
theorem test_illformed_start_of_frame : (Instr.canFrameReceived 5 6 ⟨7, []⟩).wellFormed = false := by decide +kernel
theorem test_illformed_octets {n : Nat} (h : 2 ^ 24 < n) : (Instr.canFrameReceived 5 6 ⟨4, List.replicate n 0⟩).wellFormed = false := by
  have h1 : okOctets (List.replicate n 0) = false := by
    rw [okOctets, List.length_replicate]
    exact decide_eq_false (by omega)
  rw [Instr.wellFormed, h1, Bool.and_false]
theorem test_wellformed_boundary : (Instr.tenonLoaded (2 ^ 64 - 1) 127).wellFormed = true ∧ (Instr.resyncRegionCommit 5 7).wellFormed = true := by decide +kernel

/-! ### The queue, reset and single steps -/

theorem test_no_row_has_bits : decodeTableWord 32 0 = none := rfl
theorem test_empty_queue_idles : step State.reset = .next State.reset := rfl
/-- R1, R27: GL_ID and GL_MODE after reset. -/
theorem test_reset_registers : State.reset.rdN GL_ID = 0x12801B0 ∧ State.reset.view .pcie0 .secure GL_MODE = some 2 := by decide +kernel

/-- The state a command leaves, and the state before it where the command stopped. -/
def after (i : Instr) (s : State) : State :=
  match exec i s with
  | .next u => u
  | _ => s

/-- The machine after reset without its keys. -/
def reset0 : State := { State.reset with ks := {} }

/-- R30: a host in the secure world moves the device from Raise to Bench; JTAG does not, and the attempt is counted as an F0 notice. -/
theorem test_mode_request :
    (after (.modeRequest .pcie0 .secure .bench) reset0).mode = .bench ∧ (after (.modeRequest .jtag .secure .bench) reset0).mode = .raise ∧
      (after (.modeRequest .jtag .secure .bench) reset0).rdN (FLT_CNT 0) = 1 := by decide +kernel

/-- The worked example of a wake racing the commit point: PREPMS 20 and E = 8 µs give Q = d + 2,500, and a largest DRAIN of 406 µs gives C = Q + 176. -/
theorem test_sleep_example :
    let s := { (reset0.setFld WK_SLPCFG 4 10 20).setFld EP_CTRL 0 2 1 with mode := .solo, ep := { cur := some 9, lag := 1, running := some 7 } }
    (after (.sleepRequest 5 7) s).wk.qEp = some 2507 ∧ cdiv ((406 + 1000) * 1000) s.elen = 176 := by decide +kernel

/-- R435: the smallest generation above both whose bit 0 is the pair identity. -/
theorem test_new_generation : newGen 5 8 0 = 10 ∧ newGen 5 8 1 = 9 ∧ newGen 0 0 0 = 2 := by decide +kernel

/-- R208: the protected identifiers of the LIN diagnostic frames 0x3C and 0x3D. -/
theorem test_lin_pid : linPid 0x3C = 0x3C ∧ linPid 0x3D = 0x7D := by decide +kernel

/-- R151, R152: a classic frame with DLC 12 carries eight octets; R151: twelve FD octets are coded by DLC 9 and 2048 XL octets by 2047. -/
theorem test_can_lengths :
    recDlen (canDecode (padTo 28 [5, 0, 0, 0, 0, 12, 12, 0])) = 8 ∧ lenField (padTo 28 [5, 0, 0, 0, 1, 9, 12, 0]) = 9 ∧ xlDlc 2048 = 2047 := by decide +kernel

/-- FIPS 180-4: the SHA-256 digest of "abc" begins 0xBA7816BF. -/
theorem test_sha256 : (sha256 [0x61, 0x62, 0x63]).take 4 = [0xBA, 0x78, 0x16, 0xBF] := by decide +kernel

/-- FIPS 197: the AES-128 example of its appendix C begins 0x69C4E0D8. -/
theorem test_aes128 : (aesEnc ((List.range 16).map (BitVec.ofNat 8)) ((List.range 16).map fun i => BitVec.ofNat 8 (17 * i))).take 4 = [0x69, 0xC4, 0xE0, 0xD8] := by
  decide +kernel

/-! ### Hypotheses that can be met -/

end Sys2Proof.Tests


namespace Sys2Proof.Tests.Access

def s0 : State := State.reset
def anyRow : RegRow := ⟨"", 0, [], .std, .any, 0, []⟩
def row (s : State) (a : Nat) : RegRow := (s.rowAt a).getD anyRow
def sS : State := { s0 with mode := .solo, now := 1000, ep := { cur := some 30, start := 120000, stop := 128000 }, hb := {s0.hb with lockL := some {ms := .pcie0, w := .secure}} }

theorem wit_StepRunsFrontCommand :
  (∃ (s : State) (c : Instr) (rest : List Instr), s.pending = c :: rest) :=
  ⟨({s0 with pending := [.vsillLoss]}), Instr.vsillLoss, [], by decide +kernel⟩

theorem wit_RegisterWriteByAccessCode :
  (∃ (s : State) (ms : Master) (w : World) (a : ℕ) (v : Word) (upd : ℕ) (r : RegRow),
     s.reaches ms (worldOf ms w) ∧
       ownWord a ∧ s.rowAt a = some r ∧ s.mayWrite r.pol a ms (worldOf ms w) = true ∧ quietReg r a = true ∧ (r.fields.all fun (f : Sys2Proof.Field) => !f.ledger) = true) :=
  ⟨sS, .pcie0, .secure, PW_TRIP, 5, 3, (row sS PW_TRIP), by unfold ownWord; and_intros <;> first | decide +kernel | exact reaches_of (by decide +kernel)⟩

theorem wit_ViolationsAreCountedUnmappedAreNot :
  (∃ (s : State) (ms : Master) (w : World) (a : ℕ) (size : ℕ) (upd : ℕ) (v : Word),
     s.reaches ms (worldOf ms w) ∧ a < 8388608 ∧ (¬(size = 4 ∧ a % 4 = 0) ∨ ∃ (r : RegRow), s.rowAt a = some r ∧ s.mayWrite r.pol a ms (worldOf ms w) = false)) ∧
  (∃ (s : State) (ms : Master) (w : World) (a : ℕ) (size : ℕ) (upd : ℕ) (v : Word), s.reaches ms (worldOf ms w) ∧ a < 8388608 ∧ ¬(size = 4 ∧ a % 4 = 0) ∧ s.perr ms = false) ∧
  (∃ (s : State) (ms : Master) (w : World) (a : ℕ) (size : ℕ) (upd : ℕ) (v : Word), s.reaches ms (worldOf ms w) ∧ a < 8388608 ∧ a % 4 = 0 ∧ s.rowAt a = none) ∧
  (∃ (s : State) (ms : Master) (w : World) (a : ℕ) (size : ℕ) (upd : ℕ) (v : Word),
     s.reaches ms (worldOf ms w) ∧ a < 8388608 ∧ a % 4 = 0 ∧ s.rowAt a = none ∧ s.perr ms = false) :=
  ⟨⟨sS, .pcie0, .normal, 0x7FFFFF, 4, 7, 5, by and_intros <;> first | decide +kernel | exact reaches_of (by decide +kernel) | exact Or.inr (by decide +kernel)⟩,
   ⟨sS, .pcie0, .normal, 0x7FFFFC, 8, 7, 5, by and_intros <;> first | decide +kernel | exact reaches_of (by decide +kernel)⟩,
   ⟨sS, .pcie0, .normal, 0x7FFFFC, 4, 7, 5, by and_intros <;> first | decide +kernel | exact reaches_of (by decide +kernel)⟩,
   ⟨sS, .pcie0, .normal, 0x7FFFFC, 4, 7, 5, by and_intros <;> first | decide +kernel | exact reaches_of (by decide +kernel)⟩⟩

theorem wit_LedgerWriteIsStamped :
  (∃ (s : State) (ms : Master) (w : World) (a : ℕ) (v : Word) (upd : ℕ) (r : RegRow) (e : ℕ),
     s.reaches ms (worldOf ms w) ∧
       ownWord a ∧
         s.rowAt a = some r ∧
           s.mayWrite r.pol a ms (worldOf ms w) = true ∧
             quietReg r a = true ∧
               (r.fields.all fun (f : Sys2Proof.Field) => f.ledger && (f.acc == Acc.rw || f.acc == Acc.w1s || f.acc == Acc.wo)) = true ∧
                 (rowMask r fun (x : Sys2Proof.Field) => true) &&& 4294967295 ≠ 0 ∧ s.atOnce = false ∧ s.epochNow = some e) :=
  ⟨sS, .pcie0, .secure, (SC_GCYC 11), 5, 9, (row sS (SC_GCYC 11)), 30, by unfold ownWord; and_intros <;> first | decide +kernel | exact reaches_of (by decide +kernel)⟩

theorem wit_ReadsClearLatchAndFail :
  (∃ (s : State) (ms : Master) (w : World) (upd : ℕ), s.reaches ms (worldOf ms w) ∧ s.perr ms = false ∧ isHost ms = true) ∧
  (∃ (s : State) (ms : Master) (w : World) (lo : ℕ) (hi : ℕ) (v : ℕ),
     s.reaches ms (worldOf ms w) ∧
       s.perr ms = false ∧
         isHost ms = true ∧
           (lo, hi, v) ∈
             [(EP_NOW_L, EP_NOW_H, s.ep.cur.getD 0), (EP_REL_L, EP_REL_H, s.ep.rel.getD 0), (EP_LOSSEP_L, EP_LOSSEP_H, s.ep.lossEp), (EP_DIGEST_L, EP_DIGEST_H, s.ep.digest),
               (TW_LEXP_L, TW_LEXP_H, s.tw.expiry)]) ∧
  (∃ (s : State) (ms : Master) (w : World) (m : ℕ) (k : ℕ),
     s.reaches ms (worldOf ms w) ∧ s.perr ms = false ∧ isHost ms = true ∧ m < 128 ∧ k < 4 ∧ (s.mort m).tenon = Tenon.can ∧ (s.mort m).st = MzState.inService) ∧
  (∃ (s : State) (ms : Master) (k : ℕ), s.dieOn = true ∧ (ms, k) ∈ [(Master.pcie0, 0), (Master.pcie1, 1), (Master.jtag, 3)] ∧ s.bit HB_STATUS (1 + k) = true) :=
  ⟨⟨sS, .pcie0, .secure, 0xFFFFFFFF, by and_intros <;> first | decide +kernel | exact reaches_of (by decide +kernel)⟩,
   ⟨sS, .pcie0, .secure, TW_LEXP_L, TW_LEXP_H, 0, by and_intros <;> first | decide +kernel | exact reaches_of (by decide +kernel)⟩,
   ⟨{sS with mz := (List.replicate 128 {}).set 127 {tenon := .can, st := .inService}}, .pcie0, .secure, 127, 3, by and_intros <;> first | decide +kernel | exact reaches_of (by decide +kernel)⟩,
   ⟨(sS.setBit HB_STATUS 4 true), .jtag, 3, by decide +kernel⟩⟩

theorem wit_LockBitIsSet :
  (∃ (s : State) (ms : Master) (w : World) (a : ℕ),
     s.reaches ms (worldOf ms w) ∧
       isHost ms = true ∧
         worldOf ms w = World.secure ∧
           a ∈ [PW_CTRL, FLT_INTEN, EP_CTRL, FR_CTRL, MZ_CTRL 0, MZ_CTRL 127, EB_MACCFG 0, EB_MACCFG 11, SG_CTRL, TB_CTRL, SC_CTRL, CP_CTRL, TW_CTRL, WK_CTRL, HB_CTRL]) :=
  ⟨({s0 with mode := .solo}), Master.pcie0, World.secure, PW_CTRL, by and_intros <;> first | decide +kernel | exact reaches_of (by decide +kernel)⟩

theorem wit_TableSpaceAndSpi :
  (∃ (s : State) (cmd : ℕ) (a : ℕ) (w : World) (v : Word) (r : RegRow),
     (cmd, w) ∈ [(3, World.normal), (19, World.secure)] ∧
       s.reaches Master.spi w ∧
         s.perr Master.spi = false ∧
           ownWord a ∧
             s.rowAt a = some r ∧
               mayRead r.pol s.ks.lc Master.spi w = true ∧
                 s.wide a = none ∧
                   r.ten = TenMap.any ∧ r.base ≠ MZ_STATUS 0 ∧ r.base ≠ KS_UPBUF 0 ∧ (r.fields.all fun (f : Sys2Proof.Field) => f.acc != Acc.rc) = true ∧ s.hb.far = []) ∧
  (∃ (s : State) (cmd : ℕ) (a : ℕ) (vals : List Word), cmd ∉ [2, 3, 18, 19] ∨ s.spiOpen (if cmd = 18 ∨ cmd = 19 then World.secure else World.normal) = false) :=
  ⟨⟨(({sS with hb := {}}).wrN HB_PORTCFG 0x300), 0x13, SC_CTRL, .secure, 5, (row sS SC_CTRL), by unfold ownWord; and_intros <;> first | decide +kernel | exact reaches_of (by decide +kernel)⟩,
   ⟨s0, 5, 0, [], by and_intros <;> first | decide +kernel | exact Or.inr (by decide +kernel)⟩⟩

end Sys2Proof.Tests.Access

namespace Sys2Proof.Tests.Bridge

def s0 : State := {State.reset with ks := {}}
def sP : State := { s0 with mode := .solo, now := 1000, ep := { cur := some 30, start := 120000, stop := 128000, lag := 1 }, tw := {driving := true}, fr := {header := List.replicate 512 1} }
def spi (s : State) : State := s.wrN HB_PORTCFG 0x300
def lk (ms : Master) (w : World) : BusLock := {ms := ms, w := w, at_ := 500}
def two : State := {(spi sP) with hb := {sP.hb with lockF := some (lk .spi .normal), lockL := some (lk .jtag .secure)}}
def fr : FarReq := {ms := .spi, off := 16, size := 4, data := some 5, at_ := 40}
def pf : State := {((sP.wrN (HB_PF_CFG 3) 0x10000 |>.setFld (HB_PF_CFG 3) 0 8 1).setFld (HB_PF_CFG 3) 8 8 7).setFld (HB_PF_BASE 3) 8 16 9 with tw := {scfUp := true}}
def rr (r : Nat) : State := (((sP.setFld FR_STATUS 0 4 5).wrN HB_PORTCFG 0xFF).wrN (HB_TXR_CTL r) 3 |>.wrN (HB_TXR_SIZE r) 16).wrN (HB_TXR_TAIL r) 1

theorem wit_LocksAndPrefetch :
  (∃ (s : State) (t : ℕ) (ms : Master) (w : World), s.reaches ms (worldOf ms w) ∧ isHost ms = true ∧ s.hb.lockL = none) ∧
  (∃ (s : State) (ms : Master) (w : World) (n : ℕ),
     s.dieOn = true ∧ s.hb.stalled = [] ∧ isHost ms = true ∧ (ms = Master.spi → s.spiOpen w = true) ∧ s.hb.lockL = some { ms := ms, w := worldOf ms w, at_ := n }) ∧
  (∃ (s : State) (t : ℕ) (far : Bool) (l : BusLock) (k : ℕ),
     (if far = true then s.hb.lockF else s.hb.lockL) = some l ∧ l.at_ + 4000 ≤ max s.now t ∧ s.hb.stalled = [] ∧ masterNo l.ms = some k ∧ s.fld HB_PWSTAT 0 3 = 0) ∧
  (∃ (s : State) (t : ℕ) (ms : Master) (w : World) (off : ℕ) (k : ℕ) (n : ℕ) (block : List Word),
     s.dieOn = true ∧
       masterNo ms = some n ∧
         (ms = Master.spi → s.spiOpen w = true) ∧
           s.perr ms = false ∧ s.hb.stalled = [] ∧ s.hb.lockF = none ∧ s.hb.blocks = [] ∧ s.tw.scfUp = true ∧ off < 8388608 ∧ off % 4 = 0 ∧ s.pfWindow off = some k) ∧
  (∃ (s : State) (t : ℕ) (k : ℕ) (b : PfBlock), s.hb.blocks[k]? = some b ∧ b.at_ + 1000 * b.life ≤ max s.now t) :=
  ⟨⟨sP, 2000, .pcie1, .secure, by and_intros <;> first | decide +kernel | exact reaches_of (by decide +kernel)⟩,
   ⟨{sP with hb := {sP.hb with lockL := some (lk .pcie1 .normal)}}, .pcie1, .secure, 500, by and_intros <;> first | decide +kernel | exact opt_all (by decide +kernel)⟩,
   ⟨two, 4500, true, (lk .spi .normal), 2, by decide +kernel⟩,
   ⟨pf, 4000, .pcie1, .secure, (9*256+8), 3, 1, [1,2,3,4], by and_intros <;> first | decide +kernel | exact opt_all (by decide +kernel)⟩,
   ⟨{pf with hb := {pf.hb with blocks := [{off := 0}, {off := 256, at_ := 5, life := 2}], far := [fr], stalled := []}}, 2005, 1, {off := 256, at_ := 5, life := 2}, by decide +kernel⟩⟩

theorem wit_FarAccesses :
  (∃ (s : State) (t : ℕ) (ms : Master) (w : World) (off : ℕ) (size : ℕ) (k : ℕ) (v : Option Word),
     s.dieOn = true ∧
       masterNo ms = some k ∧
         s.hb.stalled = [] ∧
           s.hb.lockF = none ∧ s.hb.blocks = [] ∧ s.hb.far = [] ∧ s.perr ms = false ∧ (ms = Master.spi → s.spiOpen w = true) ∧ off < 8388608 ∧ s.tw.scfUp = true) ∧
  (∃ (s : State) (t : ℕ) (ms : Master) (w : World) (off : ℕ) (size : ℕ) (k : ℕ) (v : Option Word),
     s.dieOn = true ∧
       masterNo ms = some k ∧
         s.hb.stalled = [] ∧
           s.hb.lockF = none ∧ s.hb.blocks = [] ∧ s.hb.far = [] ∧ s.perr ms = false ∧ (ms = Master.spi → s.spiOpen w = true) ∧ off < 8388608 ∧ s.tw.scfUp = false ∧ v = none) ∧
  (∃ (s : State) (t : ℕ) (ms : Master) (w : World) (off : ℕ) (size : ℕ) (k : ℕ) (v : Option Word) (d : Word),
     s.dieOn = true ∧
       masterNo ms = some k ∧
         s.hb.stalled = [] ∧
           s.hb.lockF = none ∧
             s.hb.blocks = [] ∧
               s.hb.far = [] ∧ s.perr ms = false ∧ (ms = Master.spi → s.spiOpen w = true) ∧ off < 8388608 ∧ s.tw.scfUp = false ∧ v = some d ∧ s.fld HB_PWSTAT 0 3 = 0) ∧
  (∃ (s : State) (t : ℕ) (x : FarReq) (rest : List FarReq) (d : Option Word), s.hb.far = x :: rest ∧ s.hb.stalled = []) ∧
  (∃ (s : State) (t : ℕ) (x : FarReq) (rest : List FarReq) (d : Option Word) (k : ℕ) (v : Word),
     s.hb.far = x :: rest ∧ s.hb.stalled = [] ∧ masterNo x.ms = some k ∧ x.data = some v ∧ x.at_ + 10000 ≤ max s.now t ∧ s.fld HB_PWSTAT 0 3 = 0) ∧
  (∃ (s : State) (t : ℕ), s.hb.stalled = []) ∧
  (∃ (s : State) (ms : Master) (w : World), s.reaches ms (worldOf ms w) ∧ isHost ms = true ∧ worldOf ms w = World.secure) :=
  ⟨⟨pf, 4000, .pcie1, .secure, (9*256+8), 4, 1, none, by and_intros <;> first | decide +kernel | exact opt_all (by decide +kernel)⟩,
   ⟨sP, 4000, .jtag, .secure, 0x7FFFFC, 4, 3, none, by and_intros <;> first | decide +kernel | exact opt_all (by decide +kernel)⟩,
   ⟨sP, 4000, .jtag, .secure, 0x7FFFFC, 4, 3, (some 9), 9, by and_intros <;> first | decide +kernel | exact opt_all (by decide +kernel)⟩,
   ⟨{pf with hb := {pf.hb with far := [fr, {fr with data := none}]}}, 5000, fr, [{fr with data := none}], (some 3), by decide +kernel⟩,
   ⟨{pf with hb := {pf.hb with far := [fr, fr]}}, 10040, fr, [fr], (some 3), 2, 5, by decide +kernel⟩,
   ⟨{pf with hb := {pf.hb with far := [fr, {fr with data := none, ms := .pcie0}], lockF := some (lk .spi .normal), blocks := [{}]}}, 5000, by decide +kernel⟩,
   ⟨((sP.wrN HB_PWSTAT 0xFFFF).wrN (HB_PWLOG_W2 3) 7), .pcie0, .normal, by and_intros <;> first | decide +kernel | exact reaches_of (by decide +kernel)⟩⟩

theorem wit_RingsAndVectors :
  (∃ (s : State) (t : ℕ) (r : ℕ) (len : ℕ) (entry : ℕ) (e : ℕ) (frame : Octets) (err : Bool),
     s.dieOn = true ∧
       (s.mode = Mode.solo ∨ s.mode = Mode.lead ∨ s.mode = Mode.shadow ∨ s.mode = Mode.hold) ∧
         s.portOn (r / 4) = true ∧
           s.nextTxRing (r / 4) = some r ∧ nth s.hb.txAt (r / 4) ≤ t ∧ r / 4 < s.hb.served.length ∧ (s.tick t).epochNow = some e ∧ err = false ∧ 1 ≤ len ∧ len ≤ 9220) ∧
  (∃ (s : State) (t : ℕ) (r : ℕ) (len : ℕ) (entry : ℕ) (e : ℕ) (frame : Octets) (err : Bool),
     s.dieOn = true ∧
       (s.mode = Mode.solo ∨ s.mode = Mode.lead ∨ s.mode = Mode.shadow ∨ s.mode = Mode.hold) ∧
         s.portOn (r / 4) = true ∧
           s.nextTxRing (r / 4) = some r ∧ nth s.hb.txAt (r / 4) ≤ t ∧ r / 4 < s.hb.served.length ∧ (s.tick t).epochNow = some e ∧ (err = true ∨ len = 0 ∨ 9220 < len)) ∧
  (∃ (s : State) (ms : Master) (w : World) (r : ℕ) (tail : ℕ) (lens : List ℕ), r < 16 ∧ s.reaches ms (worldOf ms w) ∧ s.ownsRing r ms = true ∧ r < s.hb.bufs.length) ∧
  (∃ (s : State) (ms : Master) (w : World) (r : ℕ) (tail : ℕ) (lens : List ℕ) (inten : Bool),
     r < 16 ∧ s.reaches ms (worldOf ms w) ∧ s.ownsRing r ms = true ∧ r < s.hb.bufs.length) ∧
  (∃ (s : State) (vec : ℕ), s.dieOn = true ∧ vec < 64 ∧ s.hb.msix0.length = 256 ∧ s.hb.pba0.testBit vec = true) :=
  ⟨⟨(rr 15), 3000, 15, 9220, 4, 30, (List.replicate 60 5), false, by and_intros <;> first | decide +kernel | exact Or.inr (by decide +kernel)⟩,
   ⟨(rr 15), 3000, 15, 9221, 4, 30, (List.replicate 60 5), false, by and_intros <;> first | decide +kernel | exact Or.inr (by decide +kernel)⟩,
   ⟨(rr 15), .pcie1, .secure, 15, 4097, [64, 128], by and_intros <;> first | decide +kernel | exact reaches_of (by decide +kernel)⟩,
   ⟨(rr 15), .pcie1, .secure, 15, 4097, [64, 128], true, by and_intros <;> first | decide +kernel | exact reaches_of (by decide +kernel)⟩,
   ⟨{sP with hb := {sP.hb with pba0 := 2^63+1}}, 63, by decide +kernel⟩⟩

theorem wit_TableSpaceAndSpi :
  (∃ (s : State) (off : ℕ) (data : Octets), s.dieOn = true ∧ Memory.wf s.mem = true ∧ off + List.length data ≤ 2 ^ 30) ∧
  (∃ (s : State) (ms : Master) (w : World) (val : Word) (a : ℕ),
     s.reaches ms (worldOf ms w) ∧ isHost ms = true ∧ worldOf ms w = World.secure ∧ Memory.wf s.mem = true ∧ s.fld TB_SHWADDR 0 31 = a ∧ a % 4 = 0 ∧ a < 1319108608) ∧
  (∃ (s : State) (cmd : ℕ) (a : ℕ) (w : World) (v : Word), (cmd, w) ∈ [(2, World.normal), (18, World.secure)] ∧ s.dieOn = true ∧ s.spiOpen w = true) :=
  ⟨⟨(sP.wrN HB_B2PAGE 2), (0x190 * 2^20 - 2), [1,2,3,4], by decide +kernel⟩,
   ⟨(sP.wrN TB_SHWADDR 0x4E9FFFFC), .pcie0, .secure, 0x01020304, 0x4E9FFFFC, by and_intros <;> first | decide +kernel | exact reaches_of (by decide +kernel)⟩,
   ⟨(spi sP), 0x12, SC_CTRL, .secure, 5, by decide +kernel⟩⟩

end Sys2Proof.Tests.Bridge

namespace Sys2Proof.Tests.SillDie

def s0 : State := State.reset
def sS : State := { s0 with mode := .solo, now := 1000, ep := { cur := some 3, start := 0, stop := 4000 } }
def off1 : State := { mode := .sill, sill := { vsill := true, poreset := true }, now := 7, tw := {gen := 5} }
def slp : State := { mode := .watch, sill := { vsill := true, inEn := 0xff, inh := true, timer := 3, listeners := 0xFFFF, lstCfg := List.replicate 80 0, dwell := 1 }, now := 7, tw := {gen := 5} }
def pre : State := { mode := .sill, sill := { vsill := true, enables := true, inh := true , powerT := some 3}, now := 7, tw := {gen := 5}, flt := {f4 := true} }
def sL : State := ((sS.setBit SC_CTRL 31 true).setBit (MZ_CTRL 127) 31 true).wrN (EP_CNT 1) 77
def wkd : State := {slp with sill := {slp.sill with latched := [{src := 2, idx := 3, at_ := 4, post := true}, {src := 1, idx := 6, at_ := 5}]}}
def hld : State := {sS with mode := .hold, tw := {lease := true}}

theorem wit_SillDieResets :
  (∃ (s : State), s.sill.vsill = true ∧ s.grade = Grade.q2) ∧
  (∃ (s : State) (t : ℕ) (id : Bool), s.sill.vsill = true ∧ s.sill.poreset = true ∧ s.mode = Mode.sill ∧ s.dieOn = false) ∧
  (∃ (s : State) (t : ℕ), s.sill.vsill = true) ∧
  (∃ (s : State) (t : ℕ), s.sill.vsill = false) ∧
  (∃ (s : State), s.sill.vsill = true) :=
  ⟨⟨sS, by decide +kernel⟩,
   ⟨off1, 9, true, by decide +kernel⟩,
   ⟨sS, 5000, by decide +kernel⟩,
   ⟨({} : State), 5, by decide +kernel⟩,
   ⟨sS, by decide +kernel⟩⟩

theorem wit_FrameDiePowerUp :
  (∃ (s : State) (t : ℕ),
     s.sill.vsill = true ∧ s.sill.poreset = false ∧ s.sill.enables = true ∧ s.dieOn = false ∧ s.sill.under = false ∧ ∀ (p : ℕ), s.sill.powerT = some p → p ≤ t) ∧
  (∃ (s : State) (t : ℕ) (p : ℕ), s.sill.powerT = some p ∧ s.dieOn = false ∧ s.sill.enables = true ∧ p + 20000000 ≤ t) :=
  ⟨⟨pre, 9, by and_intros <;> first | decide +kernel | exact opt_all (by decide +kernel)⟩,
   ⟨pre, 20000003, 3, by decide +kernel⟩⟩

theorem wit_FrameDieResetKeepsRecords :
  (∃ (s : State) (t : ℕ) (rail : ℕ), s.dieOn = true ∧ rail < 6 ∧ s.grade = Grade.q2 ∧ s.ok) ∧
  (∃ (s : State) (t : ℕ), s.dieOn = true ∧ s.flt.f4 = true ∧ s.grade = Grade.q2 ∧ s.ok) :=
  ⟨⟨sL, 20000003, 5, by unfold State.ok; decide +kernel⟩,
   ⟨{sL with flt := {f4 := true}}, 20000003, by unfold State.ok; decide +kernel⟩⟩

theorem wit_WakesAndWakeOut :
  (∃ (s : State) (t : ℕ) (pin : ℕ), s.asleep = true ∧ pin < 8 ∧ s.sill.inEn.testBit pin = true) ∧
  (∃ (s : State) (t : ℕ) (k : ℕ) (r : Octets),
     s.asleep = true ∧
       s.mode = Mode.watch ∧
         k < 16 ∧
           s.sill.listeners.testBit k = true ∧
             recFmt r = 0 ∧ (s.lstWord k 0).testBit 17 = false ∧ lstMatch (s.lstWord k 0) (s.lstWord k 1) (s.lstWord k 2) (s.lstWord k 3) (s.lstWord k 4) r = true) ∧
  (∃ (s : State) (t : ℕ), s.asleep = true ∧ s.sill.timer ≠ 0 ∧ s.sill.commitAt + s.sill.timer * 1000000000 ≤ t) ∧
  (∃ (s : State) (t : ℕ) (w : WakeRec), s.asleep = true ∧ s.sill.enables = false ∧ s.wakePick = some w ∧ s.wakeTime w ≤ t) ∧
  (∃ (s : State) (t : ℕ), s.dieOn = true ∧ s.held = [] ∧ s.sill.wkIlim ≠ 0 ∧ s.sill.raised = true ∧ ∀ (p : ℕ), s.sill.pulseAt = some p → p + 100000000 ≤ t) ∧
  (∃ (s : State) (t : ℕ) (p : ℕ), s.sill.pulseOn = true ∧ s.sill.pulseAt = some p ∧ p + 1000 * s.sill.wkPulse ≤ t) :=
  ⟨⟨slp, 100, 7, by decide +kernel⟩,
   ⟨slp, 100, 15, [], by decide +kernel⟩,
   ⟨slp, 3000000000, by decide +kernel⟩,
   ⟨wkd, 3000000, ({src := 1, idx := 6, at_ := 5}), by decide +kernel⟩,
   ⟨{sS with sill := {sS.sill with wkIlim := 3, raised := true, pulseAt := some 3}}, 100000003, by and_intros <;> first | decide +kernel | exact opt_all (by decide +kernel)⟩,
   ⟨{sS with sill := {sS.sill with wkPulse := 3, pulseOn := true, pulseAt := some 3}}, 3003, 3, by decide +kernel⟩⟩

theorem wit_WatchDwellEnds :
  (∃ (s : State) (t : ℕ),
     s.asleep = true ∧ s.mode = Mode.watch ∧ s.sill.dwell ≠ 0 ∧ s.sill.latched = [] ∧ s.sill.enables = false ∧ s.sill.commitAt + s.sill.dwell * 3600000000000 ≤ t) :=
  ⟨slp, 3600000000000, by decide +kernel⟩

theorem wit_ModeRequests :
  (∃ (s : State) (ms : Master), s.dieOn = true ∧ (ms = Master.pcie0 ∨ ms = Master.spi) ∧ (s.mode = Mode.raise ∨ s.mode = Mode.hold)) ∧
  (∃ (s : State) (ms : Master),
     s.dieOn = true ∧ (ms = Master.pcie0 ∨ ms = Master.spi) ∧ (s.mode = Mode.hold ∨ s.mode = Mode.bench) ∧ s.bit FR_STATUS 5 = false ∧ s.fld FR_CTRL 1 2 < 3) ∧
  (∃ (s : State) (ms : Master) (w : World) (target : Mode),
     s.dieOn = true ∧
       s.fld FLT_STATUS 0 5 = 0 ∧
         ((ms ≠ Master.pcie0 ∧ ms ≠ Master.spi ∨ worldOf ms w = World.normal) ∨
           (s.mode, target) ∉ [(Mode.raise, Mode.bench), (Mode.hold, Mode.bench), (Mode.hold, Mode.raise), (Mode.bench, Mode.raise)])) :=
  ⟨⟨hld, .spi, by and_intros <;> first | decide +kernel | exact Or.inr (by decide +kernel)⟩,
   ⟨hld, .spi, by and_intros <;> first | decide +kernel | exact Or.inr (by decide +kernel)⟩,
   ⟨{s0 with mode := .bench}, .pcie0, .secure, .lead, by and_intros <;> first | decide +kernel | exact Or.inr (by decide +kernel)⟩⟩

end Sys2Proof.Tests.SillDie

namespace Sys2Proof.Tests.Frames

def s0 : State := State.reset
def sS : State := { s0 with mode := .solo, now := 1000, ep := { cur := some 30, start := 0, stop := 4000 } }
def hld : State := {sS with mode := .hold, tw := {lease := true}}
def rs : State := {s0 with fr := {hand := some {src := 0, startT := 5}}}
def recE (c : Nat) : Octets := padTo 64 [BitVec.ofNat 8 c, 2]
def recF (c : Nat) : Octets := padTo 64 [BitVec.ofNat 8 c, 0]
def hd : Octets := padTo 512 [0x52]
def raisd (recs : List Octets) (h : Raising) : State := {s0 with fr := {hand := some h, recs := recs, header := hd}, ks := {s0.ks with lc := 2}}
def h1 : Raising := {src := 1, recs := [recF 0], headerOk := true}
def hdP : Octets := padTo 512 (List.replicate 9 0 ++ [1])
def rp : State := raisd [recE 0] h1
def lateB (k : Nat) (secs : List (Nat × Octets)) : State := {sS with fr := {hand := some {sects := secs}, recs := [recF 0], header := padTo 512 (List.replicate 0x14 0 ++ [20]), staged := true, bents := (List.replicate 13 .absent).set k .awaiting}}
def dl : State := {sS with fr := {recs := [recE 0], delta := some {}, checking := true, wroteT := true}}
def arm : State := {sS with fr := {recs := [recE 0], delta := some {}}}.setBit FR_STATUS 5 true
def mzUp : State := {sS with fr := {bents := List.replicate 13 .inService}, tw := {driving := true}, banks := List.replicate 8 {sensed := 1, decl := 0}, mz := List.replicate 128 {tenon := .can, st := .inService, pins := .tenon, desc := [1, 0, 10, 0]}}
def dd : Raising := {recs := [recE 1]}
def drn : State := {mzUp with mz := mzUp.mz.set 127 {tenon := .can, st := .draining, pins := .tenon, newDesc := some [2], resume := some 7}}
def drnW : State := {drn with mz := drn.mz.set 127 {(drn.mort 127) with can := {(drn.mort 127).can with wire := some 3}}}
def ldg (d : Octets) : State := {mzUp with mz := mzUp.mz.set 127 {tenon := .can, st := .loading, pins := .tenon, newDesc := some d, resume := some 7}}

theorem wit_RaisingAndChecks :
  (∃ (s : State) (t : ℕ), s.mode = Mode.raise ∧ s.dieOn = true ∧ s.fr.hand = none) ∧
  (∃ (s : State) (t : ℕ) (ms : Master) (w : World), s.secureHost ms w ∧ (s.mode = Mode.hold ∨ s.mode = Mode.bench) ∧ s.bit FR_STATUS 5 = false ∧ s.fld FR_CTRL 1 2 < 3) ∧
  (∃ (s : State) (t : ℕ) (h : Raising) (header : Octets) (sig : Octets),
     s.fr.hand = some h ∧ s.mode = Mode.raise ∧ s.dieOn = true ∧ h.headerOk = false ∧ h.src ≠ 2 ∧ s.ep.due = []) ∧
  (∃ (s : State) (t : ℕ) (i : ℕ) (h : Raising) (sect : Octets) (readErr : Bool),
     s.fr.hand = some h ∧
       s.mode = Mode.raise ∧
         s.dieOn = true ∧ h.headerOk = true ∧ h.src ≠ 2 ∧ s.sectioned.contains i = true ∧ assoc h.sects i = none ∧ h.bad.contains i = false ∧ s.ep.due = []) :=
  ⟨⟨s0, 5, by decide +kernel⟩,
   ⟨(hld.setFld FR_CTRL 1 2 2), 5555, .pcie0, .secure, by and_intros <;> first | decide +kernel | exact secureHost_of (by decide +kernel) | exact Or.inr (by decide +kernel)⟩,
   ⟨rs, 88, ({src := 0, startT := 5}), [], [], by decide +kernel⟩,
   ⟨(raisd [recF 0] h1), 99, 0, h1, [], false, by decide +kernel⟩⟩

theorem wit_ServiceBegins :
  (∃ (s : State) (t : ℕ), s.mode = Mode.raise ∧ s.dieOn = true ∧ s.fr.hand ≠ none ∧ s.raiseReady = true ∧ s.ks.lc ≠ 0 ∧ s.mayBegin t = true ∧ hFlag s.fr.header 0 = false) ∧
  (∃ (s : State) (t : ℕ),
     s.mode = Mode.raise ∧
       s.dieOn = true ∧
         s.fr.hand ≠ none ∧ s.raiseReady = true ∧ s.ks.lc ≠ 0 ∧ s.mayBegin t = true ∧ hFlag s.fr.header 0 = true ∧ s.tb.st = TbState.locked ∧ s.tw.lease = true) ∧
  (∃ (s : State) (t : ℕ),
     s.mode = Mode.raise ∧
       s.dieOn = true ∧
         s.fr.hand ≠ none ∧
           s.raiseReady = true ∧
             s.ks.lc ≠ 0 ∧
               s.mayBegin t = true ∧
                 hFlag s.fr.header 0 = true ∧ s.tb.st = TbState.locked ∧ s.tw.lease = false ∧ s.tw.matched = true ∧ s.tw.pairId = false ∧ s.tw.peerRole ≠ 0) ∧
  (∃ (s : State) (t : ℕ), s.mode = Mode.raise ∧ s.dieOn = true ∧ s.fr.hand ≠ none ∧ s.raiseReady = true ∧ s.ks.lc = 0 ∧ s.ep.cur = none) ∧
  (∃ (s : State) (n : ℕ) (c : ℕ) (h : Raising),
     s.fr.staged = true ∧
       s.fr.full = false ∧
         n = hFullEp s.fr.header ∧
           s.ep.cur = some c ∧ n ≤ c ∧ s.fr.hand = some h ∧ s.fr.bents.length = 13 ∧ ∀ i < 13, s.bent i = BentSt.awaiting → (assoc h.sects i).isSome = true) ∧
  (∃ (s : State) (n : ℕ) (c : ℕ) (h : Raising) (k : ℕ),
     s.fr.staged = true ∧
       s.fr.full = false ∧
         n = hFullEp s.fr.header ∧
           s.ep.cur = some c ∧
             n ≤ c ∧
               s.fr.hand = some h ∧
                 s.fr.bents.length = 13 ∧
                   k < 13 ∧ s.bent k = BentSt.awaiting ∧ (∀ i < 13, i ≠ k → s.bent i ≠ BentSt.awaiting) ∧ assoc h.sects k = none ∧ s.fld FLT_STATUS 0 5 = 0) :=
  ⟨⟨(raisd [recE 0] h1), 99, by decide +kernel⟩,
   ⟨({rp with tw.lease := true, tb.st := .locked, fr.header := hdP}), 8000, by decide +kernel⟩,
   ⟨({rp with tw.matched := true, tw.peerRole := 3, tb.st := .locked, fr.header := hdP}), 8000, by decide +kernel⟩,
   ⟨({rp with ks.lc := 0}), 99, by decide +kernel⟩,
   ⟨(lateB 3 [(3, [])]), 20, 30, ({sects := [(3,[])]}), by and_intros <;> first | decide +kernel | exact opt_all (by decide +kernel)⟩,
   ⟨(lateB 3 []), 20, 30, {}, 3, by and_intros <;> first | decide +kernel | exact opt_all (by decide +kernel)⟩⟩

theorem wit_DeltaCheckAndArming :
  (∃ (s : State) (t : ℕ) (ms : Master) (w : World),
     s.secureHost ms w ∧
       (s.mode = Mode.solo ∨ s.mode = Mode.lead ∨ s.mode = Mode.shadow) ∧ s.bit FR_STATUS 5 = false ∧ s.fr.checking = false ∧ s.tw.admitted = false ∧ s.fr.recs ≠ []) ∧
  (∃ (s : State) (t : ℕ) (d : Raising), s.fr.checking = true ∧ s.fr.delta = some d ∧ d.bad = []) ∧
  (∃ (s : State) (t : ℕ) (d : Raising) (e : ℕ) (rest : List ℕ), s.fr.checking = true ∧ s.fr.delta = some d ∧ d.bad = e :: rest) ∧
  (∃ (s : State) (ms : Master) (w : World), s.secureHost ms w ∧ s.fr.checking = true) ∧
  (∃ (s : State) (ms : Master) (w : World), s.secureHost ms w ∧ (s.mode = Mode.lead ∨ s.mode = Mode.shadow) ∧ s.pairedFrame = true) ∧
  (∃ (s : State) (t : ℕ), s.bit FR_STATUS 5 = true ∧ s.fr.switched = false ∧ s.mode = Mode.solo ∧ s.fld FLT_STATUS 0 5 = 0) :=
  ⟨⟨({sS with fr := {recs := [recE 0]}}), 2000, .pcie0, .secure, by and_intros <;> first | decide +kernel | exact secureHost_of (by decide +kernel) | exact Or.inr (by decide +kernel)⟩,
   ⟨dl, 2000, {}, by decide +kernel⟩,
   ⟨({dl with fr := {dl.fr with delta := some {bad := [7]}, wroteT := false}}), 2000, ({bad := [7]}), 7, [], by decide +kernel⟩,
   ⟨dl, .pcie0, .secure, by and_intros <;> first | decide +kernel | exact secureHost_of (by decide +kernel)⟩,
   ⟨({dl with mode := .shadow, fr := {dl.fr with header := hdP}}), .pcie0, .secure, by and_intros <;> first | decide +kernel | exact secureHost_of (by decide +kernel) | exact Or.inr (by decide +kernel)⟩,
   ⟨arm, 77, by decide +kernel⟩⟩

theorem wit_Swaps :
  (∃ (s : State) (c : ℕ) (g : ℕ), s.takesCommands ∧ s.bit FR_STATUS 5 = true ∧ c + 16 ≤ g ∧ ∀ (g' : ℕ), s.fr.swapAt = some g' → c + 16 ≤ g' ∧ s.fr.switched = false) ∧
  (∃ (s : State) (c : ℕ) (g : ℕ), s.takesCommands ∧ (g < c + 16 ∨ ∃ (g' : ℕ), s.fr.swapAt = some g' ∧ s.bit FR_STATUS 5 = true ∧ (g' < c + 16 ∨ s.fr.switched = true))) ∧
  (∃ (s : State) (c : ℕ) (g : ℕ), s.takesCommands ∧ c + 16 ≤ g ∧ s.bit FR_STATUS 5 = false) ∧
  (∃ (s : State) (c : ℕ), s.takesCommands ∧ s.bit FR_STATUS 5 = true ∧ s.fr.switched = false) ∧
  (∃ (s : State) (c : ℕ), s.takesCommands ∧ s.bit FR_STATUS 5 = true ∧ s.fr.switched = true ∧ s.mz.length = 128) ∧
  (∃ (s : State) (c : ℕ), s.takesCommands ∧ s.bit FR_STATUS 5 = false) ∧
  (∃ (s : State) (g : ℕ) (c : ℕ) (d : Raising), s.ok ∧ s.fr.swapAt = some g ∧ s.ep.cur = some c ∧ g ≤ c ∧ s.fr.switched = false ∧ s.fr.delta = some d) :=
  ⟨⟨arm, 14, 30, by unfold State.takesCommands; and_intros <;> first | decide +kernel | exact opt_all (by decide +kernel)⟩,
   ⟨arm, 14, 29, by unfold State.takesCommands; and_intros <;> first | decide +kernel | exact Or.inr (by decide +kernel)⟩,
   ⟨sS, 14, 30, by unfold State.takesCommands; decide +kernel⟩,
   ⟨arm, 14, by unfold State.takesCommands; decide +kernel⟩,
   ⟨({arm with fr := {arm.fr with switched := true, swapAt := some 29, back := [3]}}), 14, by unfold State.takesCommands; decide +kernel⟩,
   ⟨sS, 14, by unfold State.takesCommands; decide +kernel⟩,
   ⟨({mzUp with fr := {mzUp.fr with swapAt := some 30, delta := some dd}}), 30, 30, dd, by unfold State.ok; decide +kernel⟩⟩

theorem wit_DrainIsAborted :
  (∃ (s : State) (g : ℕ) (c : ℕ) (d : Raising), s.ok ∧ s.fr.swapAt = some g ∧ s.ep.cur = some c ∧ g ≤ c ∧ s.fr.switched = false ∧ s.fr.delta = some d) ∧
  (∃ (s : State) (t : ℕ), ∃ m < 128, s.mz.length = 128 ∧ (s.mort m).st = MzState.draining ∧ (s.mort m).drainBy ≤ t ∧ (s.tick t).onWire m = true) ∧
  (∃ (s : State) (t : ℕ), ∃ m < 128, s.mz.length = 128 ∧ (s.mort m).st = MzState.draining ∧ (s.mort m).drainBy ≤ t ∧ (s.tick t).onWire m = false) :=
  ⟨⟨({mzUp with fr := {mzUp.fr with swapAt := some 30, delta := some dd}}), 30, 30, dd, by unfold State.ok; decide +kernel⟩,
   ⟨drnW, 77, 127, by decide +kernel⟩,
   ⟨drn, 77, 127, by decide +kernel⟩⟩

theorem wit_RetenoningCompletes :
  (∃ (s : State) (t : ℕ), ∃ m < 128, s.mz.length = 128 ∧ (s.mort m).st = MzState.draining ∧ (s.tick t).onWire m = false) ∧
  (∃ (s : State) (t : ℕ) (m : ℕ) (d : Octets), m < 128 ∧ s.mz.length = 128 ∧ (s.mort m).newDesc = some d ∧ (s.mort m).loaded = false ∧ (s.mort m).st = MzState.loading) ∧
  (∃ (s : State) (a : ℕ) (m : ℕ) (c : ℕ) (d : Octets),
     m < 128 ∧
       s.mz.length = 128 ∧
         (s.mort m).resume = some a ∧
           (s.mort m).st = MzState.loading ∧
             (s.mort m).newDesc = some d ∧ (s.mort m).loaded = true ∧ tenonOf (oct d 0) ≠ Tenon.idle ∧ s.ep.cur = some c ∧ a ≤ c ∧ ∀ (x : ℕ), s.ep.done = some x → x < a) ∧
  (∃ (s : State) (t : ℕ), s.bit FR_STATUS 6 = true) :=
  ⟨⟨drn, 77, 127, by decide +kernel⟩,
   ⟨(ldg [1]), 77, 127, [1], by decide +kernel⟩,
   ⟨({mzUp with mz := mzUp.mz.set 127 {tenon := .can, st := .loading, pins := .tenon, resume := some 7, newDesc := some [1,2,3], loaded := true}}), 7, 127, 30, [1,2,3], by and_intros <;> first | decide +kernel | exact opt_all (by decide +kernel)⟩,
   ⟨({mzUp with fr := {mzUp.fr with purgeT := .forward}}.setBit FR_STATUS 6 true), 7, by decide +kernel⟩⟩

theorem wit_MortiseFaultsAndControls :
  (∃ (s : State) (t : ℕ) (k : ℕ) (cls : ℕ) (n : ℕ),
     k < 8 ∧
       s.dieOn = true ∧
         s.mode = Mode.solo ∧
           s.bentUp k = true ∧
             s.banks.length = 8 ∧
               s.fr.bents.length = 13 ∧ cls % 4 ≠ (nth s.banks k).decl ∧ s.fld FLT_STATUS 0 5 = 0 ∧ (s.tick t).epochNow = some n ∧ ∀ (x : ℕ), s.ep.done = some x → x < n) ∧
  (∃ (s : State) (t : ℕ) (k : ℕ) (cls : ℕ), k < 8 ∧ s.banks.length = 8 ∧ s.mz.length = 128 ∧ (nth s.banks k).sensed = 2 ∧ cls % 4 ≠ 2) ∧
  (∃ (s : State) (t : ℕ) (m : ℕ) (pin : ℕ), s.dieOn = true ∧ m < 128 ∧ pin < 4 ∧ s.pinDriven m pin = true ∧ s.fld FLT_STATUS 0 5 = 0) ∧
  (∃ (s : State) (c : ℕ) (m : ℕ) (on : Bool), s.takesCommands ∧ m < 128 ∧ s.mz.length = 128) ∧
  (∃ (s : State) (c : ℕ) (m : ℕ) (on : Bool) (v : ℕ), s.takesCommands ∧ m < 128 ∧ s.mz.length = 128) ∧
  (∃ (s : State) (t : ℕ), s.dieOn = true ∧ s.mayDrive = true ∧ s.tw.driving = false ∧ s.mz.length = 128) :=
  ⟨⟨mzUp, 5, 7, 1, 30, by and_intros <;> first | decide +kernel | exact opt_all (by decide +kernel)⟩,
   ⟨({mzUp with banks := List.replicate 8 {sensed := 2, decl := 0}}), 5, 7, 1, by decide +kernel⟩,
   ⟨mzUp, 5, 127, 0, by decide +kernel⟩,
   ⟨mzUp, 5, 127, true, by unfold State.takesCommands; decide +kernel⟩,
   ⟨mzUp, 5, 127, true, 0xff, by unfold State.takesCommands; decide +kernel⟩,
   ⟨({mzUp with tw := {}}), 5, by decide +kernel⟩⟩

end Sys2Proof.Tests.Frames

namespace Sys2Proof.Tests.Epochs

def s0 : State := State.reset
def sS : State := { s0 with mode := .solo, now := 1000, ep := { cur := some 30, start := 120000, stop := 128000, lag := 1 } }
def sg : State := sS.setBit (EB_PTPCFG 3) 0 true
def tb (x : TimeBase) (s := sg) : State := {s with tb := x}
def inp : Input := {cls := 1, port := 3, stamp := 29, pos := 4, octets := [1,2,3], inEp := 29}
def ld : State := {sS with mode := .lead, tw := {peerInStep := true, lease := true}}
def mtch (r : List PeerRec) : State := {ld with ep := {ld.ep with cur := some 31, sent := [29], peerGot := [28,29,30], inputs := [inp], peer := r}}
def rr : PeerRec := {inRec inp with pos := 9, stamp := 30}
def cmp (m : Mode) : State := {mtch [] with mode := m, ep := {(mtch []).ep with digests := [(29, 5)]}}
def hdP : Octets := padTo 512 (List.replicate 9 0 ++ [1])
def hdT : Octets := putOcts hdP 0xB8 [1, 1]
def prs : State := {s0 with tb := {st := .locked}, fr := {header := hdT, recs := [padTo 64 [0, 2]]}}
def shd : State := {ld with mode := .shadow, tw := {inStep := true, expiry := 5}, fr := {header := hdT}}
def ldF : State := {ld with fr := {header := hdT}}
def wd : TellWord := {sync := 13, pid := 1, renew := true, seq := 255, par := tellPar {sync := 13, pid := 1, renew := true, seq := 255}}
def mzUp : State := {ldF with tw := {fenceAt := some 9}, mz := List.replicate 64 {tenon := .can, st := .inService, pins := .tenon, desc := [1, 0, 10, 0]} ++ List.replicate 64 {tenon := .t1sInt, pins := .tenon}}
def sCb (r : Nat) : State := {((sS.memW (hashAddr 0 0) ([7,0,0,0]++natLE 4 0++natLE 4 (8192+5)++natLE 4 3++[2])).memWN (cbAddr 5 + 0x14) 4 1).memWN (cbAddr 5 + 3) 1 1 |>.memWN (cbAddr 5 + 0x1C) 4 r with ep := {sS.ep with running := some 6}}
def flts : State := sS.wrN FLT_STATUS 0x0005FFFF

theorem wit_TimeBaseSync :
  (∃ (s : State) (t : ℕ) (b : ℕ) (domain : ℕ) (o : ℤ),
     s.dieOn = true ∧
       domain = s.fld EP_TBCFG 0 8 ∧
         s.tb.gm = false ∧
           s.slaveBay b = true ∧ (s.tb.st = TbState.unsync ∨ s.tb.st = TbState.holdover ∧ s.tb.relock = true) ∧ (o - (s.tick t).slewLeft).natAbs < 100 ∧ s.tb.good < 3) ∧
  (∃ (s : State) (t : ℕ) (b : ℕ) (domain : ℕ) (o : ℤ),
     s.dieOn = true ∧
       domain = s.fld EP_TBCFG 0 8 ∧
         s.tb.gm = false ∧ s.slaveBay b = true ∧ (s.tb.st = TbState.unsync ∨ s.tb.st = TbState.holdover ∧ s.tb.relock = true) ∧ 100 ≤ (o - (s.tick t).slewLeft).natAbs) ∧
  (∃ (s : State) (t : ℕ) (b : ℕ) (domain : ℕ) (o : ℤ),
     s.dieOn = true ∧
       domain = s.fld EP_TBCFG 0 8 ∧
         s.tb.gm = false ∧
           s.slaveBay b = true ∧
             (s.tb.st = TbState.unsync ∨ s.tb.st = TbState.holdover ∧ s.tb.relock = true) ∧
               (o - (s.tick t).slewLeft).natAbs < 100 ∧ 3 ≤ s.tb.good ∧ (s.ep.cur = none ∨ s.tb.firstLock = true)) ∧
  (∃ (s : State) (t : ℕ) (b : ℕ) (domain : ℕ) (o : ℤ), s.dieOn = true ∧ domain = s.fld EP_TBCFG 0 8 ∧ s.tb.gm = false ∧ s.slaveBay b = true ∧ s.tb.st = TbState.locked) ∧
  (∃ (s : State) (t : ℕ) (b : ℕ) (domain : ℕ) (o : ℤ),
     s.dieOn = true ∧
       domain = s.fld EP_TBCFG 0 8 ∧ s.tb.gm = false ∧ s.slaveBay b = true ∧ s.tb.st = TbState.holdover ∧ s.tb.relock = false ∧ o.natAbs ≤ max 1 (s.fld EP_HOLD 16 16) * 1000) ∧
  (∃ (s : State) (t : ℕ) (b : ℕ) (domain : ℕ) (o : ℤ),
     s.dieOn = true ∧
       domain = s.fld EP_TBCFG 0 8 ∧
         s.tb.gm = false ∧ s.slaveBay b = true ∧ s.tb.st = TbState.holdover ∧ s.tb.relock = false ∧ max 1 (s.fld EP_HOLD 16 16) * 1000 < o.natAbs ∧ s.fld FLT_STATUS 0 5 = 0) ∧
  (∃ (s : State) (t : ℕ) (b : ℕ) (domain : ℕ) (e : ℕ) (o : ℤ),
     s.dieOn = true ∧
       domain = s.fld EP_TBCFG 0 8 ∧
         s.tb.gm = false ∧
           s.slaveBay b = true ∧ s.tb.st = TbState.unsync ∧ (o - (s.tick t).slewLeft).natAbs < 100 ∧ 3 ≤ s.tb.good ∧ s.ep.cur = some e ∧ s.tb.firstLock = false) :=
  ⟨⟨(tb {good := 2}), 2000, 3, 0, (-99), by and_intros <;> first | decide +kernel | exact Or.inr (by decide +kernel)⟩,
   ⟨(tb {good := 2}), 2000, 3, 0, (-100), by and_intros <;> first | decide +kernel | exact Or.inr (by decide +kernel)⟩,
   ⟨({tb {good := 3} with ep := {}}), 2000, 3, 0, (-99), by and_intros <;> first | decide +kernel | exact Or.inr (by decide +kernel)⟩,
   ⟨(tb {st := .locked}), 2000, 3, 0, (-99), by decide +kernel⟩,
   ⟨(tb {st := .holdover}), 2000, 3, 0, (-99), by decide +kernel⟩,
   ⟨(tb {st := .holdover}), 2000, 3, 0, (-999999999), by decide +kernel⟩,
   ⟨(tb {good := 3}), 124001, 3, 0, 30, (-99), by decide +kernel⟩⟩

theorem wit_HoldoverLossAndMasters :
  (∃ (s : State) (t : ℕ), s.dieOn = true ∧ s.tb.st = TbState.locked ∧ s.tb.gm = false ∧ s.tb.lastSync + 3 * s.syncNs ≤ t) ∧
  (∃ (s : State) (t : ℕ), s.dieOn = true ∧ s.tb.st = TbState.holdover ∧ s.tb.holdAt + max 10 (s.fld EP_HOLD 0 16) * 1000000 < t ∧ s.fld FLT_STATUS 0 5 = 0) ∧
  (∃ (s : State) (t : ℕ) (x : ℕ),
     s.dieOn = true ∧ s.tb.annBy = some x ∧ x ≤ t ∧ s.tbRole = 1 ∧ s.tb.gm = false ∧ s.tb.st ≠ TbState.lost ∧ (s.ep.cur = none ∨ s.tb.firstLock = true)) ∧
  (∃ (s : State) (t : ℕ) (b : ℕ) (domain : ℕ) (vec : List ℕ),
     s.dieOn = true ∧
       b < 12 ∧
         s.bit (EB_PTPCFG b) 0 = true ∧
           domain = s.fld EP_TBCFG 0 8 ∧
             (s.tbRole = 0 ∨ s.tbRole = 1 ∧ betterClock vec s.ownVec = true) ∧ ∀ (x : ℕ × List ℕ), s.tb.best = some x → x.1 = b ∨ betterClock vec x.2 = true) ∧
  (∃ (s : State) (t : ℕ) (b : ℕ) (delay : ℕ) (d : ℕ), s.dieOn = true ∧ s.ptpRole b ≠ 3 ∧ d = delay - (s.fld (EB_PTPLAT b) 0 16 + s.fld (EB_PTPLAT b) 16 16) / 2) :=
  ⟨⟨(tb {st := .locked}), 1000000000, by decide +kernel⟩,
   ⟨(tb {st := .holdover}), 1000000001, by decide +kernel⟩,
   ⟨((tb {annBy := some 7}  {sg with ep := {}}).setFld EP_TBCFG 8 2 1), 1000000000, 7, by and_intros <;> first | decide +kernel | exact Or.inr (by decide +kernel)⟩,
   ⟨((tb {}).setFld EP_TBCFG 8 2 0), 1000000000, 3, 0, [1,2], by and_intros <;> first | decide +kernel | exact Or.inr (by decide +kernel) | exact opt_all (by decide +kernel)⟩,
   ⟨(tb {asCapable := [3]}), 1000000000, 3, 9000000000, 9000000000, by decide +kernel⟩⟩

theorem wit_EpochsAndClosing :
  (∃ (s : State) (t : ℕ) (n : ℕ), s.dieOn = true ∧ s.ep.cur = some n ∧ s.ep.stop ≤ t ∧ s.tb.gm = false ∧ s.tw.demote = false ∧ s.tw.takeAt = none ∧ s.wk.pinsAt = none) ∧
  (∃ (s : State) (t : ℕ) (cls : ℕ) (port : ℕ) (i : Input),
     List.find? (fun (x : Input) => x.cls == cls && x.port == port) s.ep.handing = some i ∧ s.ledgerShut i.stamp = false) ∧
  (∃ (s : State) (t : ℕ) (cls : ℕ) (port : ℕ) (i : Input),
     List.find? (fun (x : Input) => x.cls == cls && x.port == port) s.ep.handing = some i ∧ s.ledgerShut i.stamp = true ∧ s.fld FLT_STATUS 0 5 = 0) ∧
  (∃ (s : State) (t : ℕ) (n : ℕ) (c : ℕ),
     s.serving = true ∧ s.paired = false ∧ s.ep.cur = some c ∧ n < c ∧ (∀ (k : ℕ), s.ep.closed = some k → k < n) ∧ s.epochEnd n + 1500 ≤ t) :=
  ⟨⟨sS, 128000, 30, by decide +kernel⟩,
   ⟨({sS with ep := {sS.ep with handing := [{cls := 2}, inp]}}), 128000, 1, 3, inp, by decide +kernel⟩,
   ⟨({sS with ep := {sS.ep with handing := [{cls := 2}, inp], closed := some 29}}), 128000, 1, 3, inp, by decide +kernel⟩,
   ⟨sS, 121500, 29, 30, by and_intros <;> first | decide +kernel | exact opt_all (by decide +kernel)⟩⟩

theorem wit_PairedExchange :
  (∃ (s : State) (t : ℕ) (n : ℕ) (c : ℕ),
     s.serving = true ∧ s.paired = true ∧ s.ep.cur = some c ∧ n < c ∧ (∀ (k : ℕ), s.ep.sealed = some k → k < n) ∧ s.epochEnd n + 1500 ≤ t) ∧
  (∃ (s : State) (t : ℕ) (n : ℕ) (recs : List PeerRec), s.paired = true ∧ s.ep.peerGot.contains n = false) ∧
  (∃ (s : State) (t : ℕ) (n : ℕ) (c : ℕ) (i : Input) (r : PeerRec),
     s.serving = true ∧
       s.paired = true ∧
         s.ep.sent.contains n = true ∧
           s.ep.decided.contains n = false ∧
             s.ep.cur = some c ∧
               n + 1 < c ∧
                 s.epochEnd n + s.elen + 2000 + s.elen / 16 ≤ t ∧
                   s.tw.joinAt = none ∧
                     1 ≤ n ∧
                       (∀ k ∈ [n - 1, n, n + 1], s.ep.peerGot.contains k = true) ∧
                         s.ep.inputs = [i] ∧
                           i.matched = false ∧
                             i.stamp = n ∧ (i.cls = 1 ∨ i.cls = 2) ∧ s.ep.peer = [r] ∧ r.matched = false ∧ (r.stamp = n ∨ r.stamp = n + 1) ∧ sameInput (inRec i) r = true) ∧
  (∃ (s : State) (t : ℕ) (n : ℕ) (c : ℕ) (i : Input),
     s.serving = true ∧
       s.paired = true ∧
         s.ep.sent.contains n = true ∧
           s.ep.decided.contains n = false ∧
             s.ep.cur = some c ∧
               n + 1 < c ∧
                 s.epochEnd n + s.elen + 2000 + s.elen / 16 ≤ t ∧
                   s.tw.joinAt = none ∧
                     1 ≤ n ∧
                       (∀ k ∈ [n - 1, n, n + 1], s.ep.peerGot.contains k = true) ∧
                         s.ep.inputs = [i] ∧ i.matched = false ∧ i.stamp = n ∧ (i.cls = 1 ∨ i.cls = 2) ∧ s.ep.peer = []) ∧
  (∃ (s : State) (t : ℕ) (i : Input),
     s.paired = true ∧ s.ep.fillsIn = [] ∧ s.ep.sent.contains i.inEp = true ∧ s.ep.deadline.contains i.inEp = false ∧ t ≤ s.epochEnd i.inEp + 5 * s.elen / 2) ∧
  (∃ (s : State) (t : ℕ) (f : Input), s.ep.fillsOut = [f] ∧ s.ep.inputs = [f] ∧ t ≤ s.epochEnd f.stamp + 5 * s.elen / 2) ∧
  (∃ (s : State) (t : ℕ) (n : ℕ), s.paired = true ∧ s.ep.decided.contains n = true ∧ s.ep.deadline.contains n = false ∧ s.epochEnd n + 5 * s.elen / 2 ≤ t) :=
  ⟨⟨ld, 121500, 29, 30, by and_intros <;> first | decide +kernel | exact opt_all (by decide +kernel)⟩,
   ⟨ld, 121500, 29, [{pos := 4}], by decide +kernel⟩,
   ⟨(mtch [rr]), 200000, 29, 31, inp, rr, by and_intros <;> first | decide +kernel | exact opt_all (by decide +kernel) | exact Or.inr (by decide +kernel)⟩,
   ⟨(mtch []), 200000, 29, 31, inp, by and_intros <;> first | decide +kernel | exact opt_all (by decide +kernel) | exact Or.inr (by decide +kernel)⟩,
   ⟨(mtch []), 1300, inp, by decide +kernel⟩,
   ⟨({mtch [] with ep := {(mtch []).ep with fillsOut := [inp]}}), 1300, inp, by decide +kernel⟩,
   ⟨({mtch [] with ep := {(mtch []).ep with fillsOut := [inp], decided := [29]}}), 2000000, 29, by decide +kernel⟩⟩

theorem wit_ReleaseCompletionDigests :
  (∃ (s : State) (t : ℕ) (n : ℕ) (ecc : List (ℕ × Bool)),
     s.serving = true ∧
       s.replaying n = false ∧
         s.ep.running = none ∧
           (s.ep.rel = none → n = 0) ∧
             (∀ (r : ℕ), s.ep.rel = some r → n = r + 1) ∧ s.epochEnd (n + s.ep.lag) ≤ t ∧ s.ledgerReady n = true ∧ ∀ (c : ℕ), s.wk.cEp = some c → n ≤ c) ∧
  (∃ (s : State) (t : ℕ) (n : ℕ), s.ep.running = some n) ∧
  (∃ (s : State) (t : ℕ) (n : ℕ), s.ep.running = some n ∧ s.mode = Mode.solo ∧ s.epochEnd s.ep.runIn ≤ t ∧ s.fld FLT_STATUS 0 5 = 0 ∧ s.fr.swapAt = none) ∧
  (∃ (s : State) (t : ℕ) (n : ℕ) (own : ℕ),
     s.paired = true ∧ s.ep.sent.contains n = true ∧ s.epochEnd n + 4 * s.elen ≤ t ∧ assoc s.ep.digests n = some own ∧ s.tw.joinAt = none) ∧
  (∃ (s : State) (t : ℕ) (n : ℕ) (own : ℕ) (d : ℕ),
     s.paired = true ∧
       s.ep.sent.contains n = true ∧ s.epochEnd n + 4 * s.elen ≤ t ∧ assoc s.ep.digests n = some own ∧ d ≠ own ∧ s.mode = Mode.shadow ∧ s.fld FLT_STATUS 0 5 = 0) ∧
  (∃ (s : State) (t : ℕ) (n : ℕ) (own : ℕ) (a : CmdOutcome) (b : CmdOutcome),
     s.paired = true ∧
       s.ep.sent.contains n = true ∧
         s.epochEnd n + 4 * s.elen ≤ t ∧
           assoc s.ep.digests n = some own ∧
             s.tw.joinAt = none ∧
               s.ep.outcomes = [{ epoch := n, cmds := [a] }] ∧ a.swap = true ∧ a.armed = false ∧ b.armed = true ∧ s.mode = Mode.shadow ∧ s.fld FLT_STATUS 0 5 = 0) :=
  ⟨⟨{sS with ep := {sS.ep with closed := some 0, inputs := [{inp with stamp := 0, inEp := 0}]}}, 200000, 0, [(0,true)], by and_intros <;> first | decide +kernel | exact opt_all (by decide +kernel)⟩,
   ⟨{sS with ep := {sS.ep with running := some 7}, held := [.add (EP_CNT 0) 3]}, 200000, 7, by decide +kernel⟩,
   ⟨{sS with ep := {sS.ep with running := some 7, guar := true}}, 200000, 7, by decide +kernel⟩,
   ⟨(cmp .lead), 2000000, 29, 5, by decide +kernel⟩,
   ⟨(cmp .shadow), 2000000, 29, 5, 6, by decide +kernel⟩,
   ⟨({cmp .shadow with ep := {(cmp .shadow).ep with outcomes := [{epoch := 29, cmds := [{swap := true, armed := false}]}]}}), 2000000, 29, 5, {swap := true, armed := false}, {swap := true, armed := true}, by decide +kernel⟩⟩

theorem wit_Pairing :
  (∃ (s : State) (t : ℕ) (r : PairRec),
     s.mode = Mode.raise ∧ s.dieOn = true ∧ s.pairedFrame = true ∧ s.tb.st = TbState.locked ∧ ∀ (a : ℕ), s.tw.pairAt = some a → s.tw.raiseAt ≤ a → a + 10000000 ≤ t) ∧
  (∃ (s : State) (t : ℕ),
     s.mode = Mode.raise ∧
       s.dieOn = true ∧ s.pairedFrame = true ∧ s.tw.reached = false ∧ s.tw.lease = false ∧ s.tw.raiseAt + oct s.twinCfg 1 * 10000000 ≤ t ∧ s.mayBegin t = true) ∧
  (∃ (s : State) (t : ℕ) (key : ℕ) (ms : Master) (w : World),
     s.secureHost ms w ∧ key % 256 = 165 ∧ s.mode = Mode.raise ∧ s.pairedFrame = true ∧ s.tw.reached = false ∧ s.tw.lease = false) :=
  ⟨⟨prs, 8000, {pid := 0}, by and_intros <;> first | decide +kernel | exact opt_all (by decide +kernel)⟩,
   ⟨prs, 80000000, by decide +kernel⟩,
   ⟨prs, 80000000, 0x1A5, .pcie0, .secure, by and_intros <;> first | decide +kernel | exact secureHost_of (by decide +kernel)⟩⟩

theorem wit_HandOver :
  (∃ (own : ℕ) (peer : ℕ) (pid : ℕ), own + 2 < 2 ^ 32 ∧ peer + 2 < 2 ^ 32 ∧ pid < 2) ∧
  (∃ (s : State) (c : ℕ), s.takesCommands ∧ (s.mode = Mode.lead ∧ s.tw.peerInStep = true ∧ s.tw.lease = true ∨ s.mode = Mode.shadow ∧ s.tw.inStep = true)) ∧
  (∃ (s : State) (n : ℕ) (c : ℕ), s.tw.handAt = some n ∧ s.ep.cur = some c ∧ n ≤ c ∧ s.mode = Mode.lead) ∧
  (∃ (s : State) (n : ℕ) (c : ℕ), s.tw.handAt = some n ∧ s.ep.cur = some c ∧ n ≤ c ∧ s.mode = Mode.shadow ∧ s.tw.inStep = true ∧ s.dieOn = true ∧ s.tw.driving = false) :=
  ⟨⟨5, 9, 1, by decide +kernel⟩,
   ⟨ld, 5, by unfold State.takesCommands; and_intros <;> first | decide +kernel | exact Or.inr (by decide +kernel)⟩,
   ⟨({ld with tw := {ld.tw with handAt := some 30}}), 30, 30, by decide +kernel⟩,
   ⟨({shd with tw := {shd.tw with handAt := some 30}}), 30, 30, by decide +kernel⟩⟩

theorem wit_Heartbeats :
  (∃ (s : State) (t : ℕ), s.dieOn = true ∧ s.pairedFrame = true ∧ t % 25000 = 0) ∧
  (∃ (s : State) (t : ℕ) (h : Heartbeat), s.dieOn = true ∧ s.pairedFrame = true ∧ s.tw.hbOut = none ∧ h.gen ≤ s.tw.gen ∧ h.renew = false ∧ h.ackv = false) ∧
  (∃ (s : State) (t : ℕ) (h : Heartbeat),
     s.dieOn = true ∧ s.pairedFrame = true ∧ s.tw.hbOut = none ∧ h.gen ≤ s.tw.gen ∧ h.renew = true ∧ h.ackv = false ∧ s.mode = Mode.shadow ∧ s.tw.unagreed = []) ∧
  (∃ (s : State) (t : ℕ) (h : Heartbeat),
     s.dieOn = true ∧
       s.pairedFrame = true ∧
         s.tw.hbOut = none ∧ h.gen ≤ s.tw.gen ∧ h.renew = false ∧ h.ackv = true ∧ s.mode = Mode.lead ∧ s.tw.lease = true ∧ s.tw.nopeer = false ∧ h.ack ≤ s.tw.renew) ∧
  (∃ (s : State) (t : ℕ) (h : Heartbeat),
     s.dieOn = true ∧
       s.pairedFrame = true ∧ s.tw.hbOut = none ∧ s.tw.gen < h.gen ∧ h.renew = false ∧ h.ackv = false ∧ s.mode = Mode.lead ∧ s.tw.lease = true ∧ s.tw.found = false) ∧
  (∃ (s : State) (t : ℕ) (h : Heartbeat) (n : ℕ),
     s.dieOn = true ∧ s.pairedFrame = true ∧ s.tw.hbOut = none ∧ s.ep.cur = some n ∧ s.ep.stop ≤ t ∧ s.tw.demote = true ∧ s.flt.holdAt = none ∧ s.tw.takeAt = none) :=
  ⟨⟨ldF, 25000, by decide +kernel⟩,
   ⟨shd, 25000, {}, by decide +kernel⟩,
   ⟨shd, 25000, {renew := true, txt := 8}, by decide +kernel⟩,
   ⟨ldF, 25000, {ackv := true, ack := 0}, by decide +kernel⟩,
   ⟨ldF, 25000, {gen := 1}, by decide +kernel⟩,
   ⟨{ldF with tw := {ldF.tw with demote := true}}, 128000, {gen := 1}, 30, by decide +kernel⟩⟩

theorem wit_TellPairAndPaths :
  (∃ (s : State) (t : ℕ), s.dieOn = true ∧ s.pairedFrame = true ∧ s.tellEn = true ∧ t % 25000 = 0) ∧
  (∃ (s : State) (t : ℕ) (w : TellWord),
     s.dieOn = true ∧
       s.pairedFrame = true ∧
         s.tellEn = true ∧ w.state = 0 ∧ w.sync = 13 ∧ w.par = tellPar w ∧ w.pid % 2 ≠ s.pid ∧ w.renew = true ∧ w.ack = false ∧ s.mode = Mode.shadow ∧ s.tw.unagreed = []) ∧
  (∃ (s : State) (t : ℕ) (tell : Bool), s.dieOn = true ∧ (if tell = true then s.tw.tellUp else s.tw.scfUp) = true ∧ s.pathQuiet t tell = true ∧ s.fld FLT_STATUS 0 5 = 0) ∧
  (∃ (s : State) (t : ℕ) (tell : Bool),
     s.dieOn = true ∧
       s.pairedFrame = true ∧
         (if tell = true then s.tw.tellUp else s.tw.scfUp) = false ∧ (tell = true → s.tellEn = true) ∧ 4 ≤ if tell = true then s.tw.tellRun else s.tw.hbRun) :=
  ⟨⟨ldF, 25000, by decide +kernel⟩,
   ⟨shd, 25000000, wd, by decide +kernel⟩,
   ⟨({shd with tw := {shd.tw with scfUp := true}}), 2500000, false, by decide +kernel⟩,
   ⟨{shd with tw := {shd.tw with tellRun := 4}}, 25000, true, by and_intros <;> first | decide +kernel | exact opt_all (by decide +kernel)⟩⟩

theorem wit_LeaseTakeoverAndFence :
  (∃ (s : State) (t : ℕ), s.paired = true ∧ 4 ≤ s.tw.high ∧ s.bit EP_STATUS 5 = false) ∧
  (∃ (s : State) (t : ℕ),
     s.tw.lease = true ∧ s.tw.nopeer = false ∧ s.tw.expiry ≤ t ∧ s.mode = Mode.lead ∧ s.tellEn = true ∧ s.tw.scfUp = false ∧ s.tw.tellUp = false ∧ s.tw.tellSt = 1) ∧
  (∃ (s : State) (t : ℕ),
     s.tw.lease = true ∧ s.tw.nopeer = false ∧ s.tw.expiry ≤ t ∧ s.mode = Mode.lead ∧ (s.tellEn = false ∨ s.tw.scfUp = true ∨ s.tw.tellUp = true ∨ s.tw.tellSt ≠ 1)) ∧
  (∃ (s : State) (t : ℕ),
     s.mode = Mode.shadow ∧ s.tw.lease = false ∧ s.tw.scfUp = false ∧ s.tw.tellUp = false ∧ s.tw.expiry ≠ 0 ∧ s.tw.expiry + 25000 ≤ t ∧ s.tw.inStep = true) ∧
  (∃ (s : State) (t : ℕ) (n : ℕ), s.dieOn = true ∧ s.ep.cur = some n ∧ s.ep.stop ≤ t ∧ s.tw.takeAt ≠ none ∧ s.mode = Mode.shadow ∧ s.tw.lease = true ∧ s.wk.pinsAt = none) ∧
  (∃ (s : State) (t : ℕ) (e : ℕ), s.tw.fenceAt = some e ∧ e ≤ t) :=
  ⟨⟨({shd with tw := {shd.tw with high := 4}}), 7, by decide +kernel⟩,
   ⟨({ldF with tw := {ldF.tw with tellSt := 1}}), 7, by decide +kernel⟩,
   ⟨ldF, 7, by and_intros <;> first | decide +kernel | exact Or.inr (by decide +kernel)⟩,
   ⟨shd, 25005, by decide +kernel⟩,
   ⟨({shd with tw := {shd.tw with lease := true, takeAt := some 4}}), 128000, 30, by decide +kernel⟩,
   ⟨mzUp, 9, 9, by decide +kernel⟩⟩

theorem wit_Resync :
  (∃ (s : State) (t : ℕ),
     s.tw.catchUp = 0 ∧
       s.mode = Mode.lead ∧
         s.tw.lease = true ∧ s.tw.peerIn = true ∧ s.tw.peerInStep = false ∧ s.bit TW_CTRL 2 = false ∧ s.bit FR_STATUS 5 = false ∧ s.fld KS_UPST 0 3 ∉ [3, 4]) ∧
  (∃ (s : State) (t : ℕ), s.tw.catchUp = 0 ∧ s.mode = Mode.shadow ∧ s.tw.inStep = false ∧ s.bit EP_STATUS 5 = false) ∧
  (∃ (s : State) (t : ℕ) (r : ℕ), s.mode = Mode.lead ∧ s.tw.catchUp = 1 ∧ s.tw.region = r ∧ 1 ≤ r ∧ r ≤ 7) ∧
  (∃ (s : State) (t : ℕ) (r : ℕ), s.mode = Mode.shadow ∧ s.tw.catchUp = 1 ∧ s.tw.region = r ∧ 1 ≤ r ∧ r ≤ 7) ∧
  (∃ (s : State) (t : ℕ) (j : ℕ), s.mode = Mode.lead ∧ s.tw.catchUp = 2 ∧ 8 ≤ j ∧ s.ep.cur = some (j - 8)) ∧
  (∃ (s : State) (t : ℕ) (j : ℕ), s.mode = Mode.shadow ∧ s.tw.catchUp = 2 ∧ 8 ≤ j ∧ s.ep.cur ≠ some (j - 8)) ∧
  (∃ (s : State) (t : ℕ), s.tw.catchUp ≠ 0) ∧
  (∃ (s : State) (n : ℕ) (h : ℕ), s.ep.running = some n ∧ h < 4096 ∧ Memory.wf s.mem = true ∧ s.memN (cbAddr h + 20) 4 ≠ 0 ∧ s.cbOut h = true) ∧
  (∃ (s : State) (n : ℕ) (h : ℕ), s.ep.running = some n ∧ h < 4096 ∧ Memory.wf s.mem = true ∧ s.cbOut h = false) :=
  ⟨⟨{ldF with tw := {ldF.tw with peerIn := true, peerInStep := false}}, 9, by decide +kernel⟩,
   ⟨{shd with tw := {}}, 9, by decide +kernel⟩,
   ⟨{ldF with tw := {catchUp := 1, region := 7}}, 9, 7, by decide +kernel⟩,
   ⟨{shd with tw := {catchUp := 1, region := 7}}, 9, 7, by decide +kernel⟩,
   ⟨{ldF with tw := {catchUp := 2, region := 7}}, 9, 38, by decide +kernel⟩,
   ⟨{shd with tw := {catchUp := 2, region := 7}}, 9, 39, by decide +kernel⟩,
   ⟨{shd with tw := {catchUp := 2, region := 7}}, 9, by decide +kernel⟩,
   ⟨(sCb 3), 6, 5, by decide +kernel⟩,
   ⟨(sCb 2), 6, 5, by decide +kernel⟩⟩

theorem wit_HoldAndHandlers :
  (∃ (s : State) (t : ℕ) (n : ℕ) (c : ℕ), s.mode = Mode.solo ∧ s.flt.holdAt = some n ∧ s.ep.cur = some c ∧ n ≤ c ∧ s.tw.coldHold = false) ∧
  (∃ (s : State) (t : ℕ) (n : ℕ), s.mode = Mode.raise ∧ s.flt.holdAt = some n ∧ s.mayBegin t = true) ∧
  (∃ (s : State) (ms : Master) (w : World) (ack : ℕ), s.secureHost ms w) ∧
  (∃ (s : State) (ms : Master) (w : World), s.secureHost ms w) ∧
  (∃ (s : State) (t : ℕ), s.bit FLT_STATUS 2 = true ∧ s.flt.f2At + s.flt.f2hold * 1000000 ≤ t) :=
  ⟨⟨{sS with flt := {holdAt := some 30}, ep := {sS.ep with inputs := [inp], handing := [inp]}}, 130000, 30, 30, by decide +kernel⟩,
   ⟨{prs with flt := {holdAt := some 0}}, 136000, 0, by decide +kernel⟩,
   ⟨flts, .pcie0, .secure, 5, by and_intros <;> first | decide +kernel | exact secureHost_of (by decide +kernel)⟩,
   ⟨flts, .pcie0, .secure, by and_intros <;> first | decide +kernel | exact secureHost_of (by decide +kernel)⟩,
   ⟨flts, 1000000000, by decide +kernel⟩⟩

theorem wit_FaultsAreRecorded :
  (∃ (s : State) (t : ℕ) (bent : ℕ) (i : ℕ), s.dieOn = true ∧ s.fld FLT_STATUS 0 5 = 0 ∧ bentIdx bent = some i ∧ s.fr.bents.length = 13) ∧
  (∃ (s : State) (t : ℕ) (bent : ℕ) (i : ℕ), s.dieOn = true ∧ s.fld FLT_STATUS 0 5 = 0 ∧ bentIdx bent = some i ∧ s.fr.bents.length = 13 ∧ s.flt.f1rate = 0) ∧
  (∃ (s : State) (t : ℕ) (bent : ℕ), s.dieOn = true ∧ s.mode = Mode.solo ∧ s.fld FLT_STATUS 0 5 = 0 ∧ bentIdx bent = none ∧ s.fr.swapAt = none ∧ s.ep.guar = false) ∧
  (∃ (s : State) (t : ℕ), s.dieOn = true ∧ s.fld FLT_STATUS 0 5 = 0 ∧ s.fr.swapAt = none ∧ s.ep.guar = false) ∧
  (∃ (s : State) (t : ℕ) (bent : ℕ) (i : ℕ),
     s.dieOn = true ∧ s.bit FLT_STATUS 2 = true ∧ bentIdx bent = some i ∧ s.flt.f1rate = 0 ∧ s.bit FLT_SF_W0 24 = false ∧ s.fld FLT_STATUS 16 16 < 65535) :=
  ⟨⟨sS, 8000, 0x14, 12, by decide +kernel⟩,
   ⟨sS, 8000, 0x14, 12, by decide +kernel⟩,
   ⟨sS, 8000, 8, by decide +kernel⟩,
   ⟨sS, 8000, by decide +kernel⟩,
   ⟨(flts.wrN FLT_STATUS 4), 8000, 7, 7, by decide +kernel⟩⟩

end Sys2Proof.Tests.Epochs

namespace Sys2Proof.Tests.Ports

def s0 : State := State.reset
def sS : State := { s0 with mode := .solo, now := 1000, ep := { cur := some 30, start := 120000, stop := 128000, lag := 1 }, tw := {driving := true} }
def mk (m : Nat) (x : Mortise) (s := sS) : State := s.onMort m fun _ => {x with st := .inService, pins := .tenon}
def can (m : Nat) (c : CanSt := {}) : State := mk m {tenon := .can, can := c}
def lin (m : Nat) (c : LinSt := {}) : State := mk m {tenon := .lin, lin := c}
def t1s (m : Nat) (c : T1sSt := {}) : State := mk m {tenon := .t1sInt, t1s := c}
def rec0 : Octets := padTo 24 [5,0,0,0,0,0x4,4,0]
def ob (k : Nat) (o : CanObj) : List CanObj := (List.replicate 32 ({} : CanObj)).set k o
def eg : Egress := {octets := rec0}
def cE (k : Nat) (w : Option Nat := none) (o : CanObj := {}): State := can 9 {objs := ob k {o with active := some eg}, wire := w, wireRec := if w.isSome then rec0 else []}
def cF : State := ((can 9 {objs := ob 3 {active := some eg}, wire := some 3, wireRec := padTo 24 [5,0,0,0,5,4,4,0]}).setBit (CN_TDC_D 9) 7 true).setFld (CN_TDC_D 9) 8 7 5
def mx (st : CanSt) : State := (can 9 st).setFld (CN_TTCFG 9) 0 2 2 |>.setFld (CN_TTBC 9) 0 16 10 |>.setFld (CN_TTCFG 9) 2 6 3
def flw : State := {can 9 with tw := {}}.setFld (CN_TTCFG 9) 0 2 3 |>.setFld (CN_TTCFG 9) 12 11 5
def mxE (st : CanSt) (cell := 4 + 64) (len := 1000): State := ((((mx st).setFld (CN_TTMX 9 0) 0 8 cell).setBit (CN_CFG 9) 6 true).setBit (CN_OBJ 9 4) 31 true).setFld (CN_TTBC 9) 0 16 len
def cmd (m : Nat) (l : LinSt := {}) : State := (lin m l).setBit (LN_CFG m) 0 true
def lsl : State := ((cmd 9 {run := true, slotEnd := some 8000}).wrN (LN_SCH 9 0) (5 + 256 + 0x30000))
def buf (f : Nat) (e : Egress) : List LinBuf := (List.replicate 64 ({} : LinBuf)).set f {frames := [e], pending := true}
def le : Egress := {octets := padTo 12 [5,0,2,0,9,8], rel := 29}
def linRec (s : State) (m f : Nat) (d : Octets) : Octets := [BitVec.ofNat 8 (linPid f), BitVec.ofNat 8 (b2n (s.linEnh m f)), BitVec.ofNat 8 d.length, BitVec.ofNat 8 (linChecksum (s.linEnh m f) (linPid f) d)] ++ d
def evs (e : Nat) : State := ((cmd 9 {slotEnd := some e, slot := (0,0)}).wrN (LN_SCH 9 0) (5 + 512 + 0x32000))
def tq (st : T1sSt) : State := (t1s 9 st).setFld (T1_CFG 9) 16 14 1518
def tqq (a b : Nat) : State := tq {queue := [(eg, false, false), (eg, false, false)], burst := a, attempts := b}
def bay (b : Nat) (x : Bay := {}) : State := (({sS with bays := sS.bays.set b x}).wrN (EB_MACCFG b) 1)
def fr64 : Octets := List.replicate 64 3
def be : Egress := {octets := bayRecord fr64 0, start := 8000, cls := 3}

theorem wit_CanReception :
  (∃ (s : State) (t : ℕ) (m : ℕ) (sof : ℕ) (r : Octets),
     m < 128 ∧ s.mz.length = 128 ∧ (s.mort m).tenon = Tenon.can ∧ (s.mort m).st = MzState.inService ∧ s.ep.cur.isSome = true ∧ (s.canWaits m sof = true ∨ recFmt r = 3)) ∧
  (∃ (s : State) (t : ℕ) (m : ℕ) (sof : ℕ) (r : Octets),
     m < 128 ∧
       s.mz.length = 128 ∧
         (s.mort m).tenon = Tenon.can ∧
           (s.mort m).st = MzState.inService ∧
             s.ep.cur.isSome = true ∧
               (s.drives m = true →
                   (s.mort m).can.opmode = 1 ∨ s.fld (CN_ERRC m) 0 9 < 96 ∧ s.fld (CN_ERRC m) 16 8 = 0 ∧ s.fld (CN_STATUS m) 8 2 = 0 ∧ s.bit (CN_STATUS m) 10 = false) ∧
                 s.canWaits m sof = false ∧
                   recFmt r ≠ 3 ∧
                     (recFmt r = 1 → s.bit (CN_CFG m) 0 = true) ∧
                       (recFmt r = 2 → s.bit (CN_CFG m) 1 = true) ∧
                         (s.mort m).can.lone = false ∧
                           s.isReference m (canDecode r) = false ∧ s.canEcho m (canDecode r) = false ∧ ∀ k < 4, s.cellHit m k (canDecode r) = false) ∧
  (∃ (s : State) (t : ℕ) (m : ℕ) (sof : ℕ) (r : Octets),
     m < 128 ∧
       s.mz.length = 128 ∧
         (s.mort m).tenon = Tenon.can ∧
           (s.mort m).st = MzState.inService ∧
             s.ep.cur.isSome = true ∧
               (s.drives m = true →
                   (s.mort m).can.opmode = 1 ∨ s.fld (CN_ERRC m) 0 9 < 96 ∧ s.fld (CN_ERRC m) 16 8 = 0 ∧ s.fld (CN_STATUS m) 8 2 = 0 ∧ s.bit (CN_STATUS m) 10 = false) ∧
                 s.canWaits m sof = false ∧
                   recFmt r ≠ 3 ∧
                     (recFmt r = 1 → s.bit (CN_CFG m) 0 = true) ∧
                       (recFmt r = 2 → s.bit (CN_CFG m) 1 = true) ∧ (s.mort m).can.lone = false ∧ s.isReference m (canDecode r) = false ∧ s.canEcho m (canDecode r) = true) ∧
  (∃ (s : State) (t : ℕ) (m : ℕ) (sof : ℕ) (r : Octets) (k : ℕ),
     m < 128 ∧
       s.mz.length = 128 ∧
         (s.mort m).tenon = Tenon.can ∧
           (s.mort m).st = MzState.inService ∧
             s.ep.cur.isSome = true ∧
               (s.drives m = true →
                   (s.mort m).can.opmode = 1 ∨ s.fld (CN_ERRC m) 0 9 < 96 ∧ s.fld (CN_ERRC m) 16 8 = 0 ∧ s.fld (CN_STATUS m) 8 2 = 0 ∧ s.bit (CN_STATUS m) 10 = false) ∧
                 s.canWaits m sof = false ∧
                   recFmt r ≠ 3 ∧
                     (recFmt r = 1 → s.bit (CN_CFG m) 0 = true) ∧
                       (recFmt r = 2 → s.bit (CN_CFG m) 1 = true) ∧
                         (s.mort m).can.lone = false ∧
                           s.isReference m (canDecode r) = false ∧
                             k < 4 ∧
                               s.canEcho m (canDecode r) = false ∧
                                 s.cellHit m k (canDecode r) = true ∧
                                   (∀ j < k, s.cellHit m j (canDecode r) = false) ∧ s.bit (CN_PCSTAT m) k = false ∧ (s.mort m).can.cells.length = 4) ∧
  (∃ (s : State) (t : ℕ) (m : ℕ) (sof : ℕ) (r : Octets),
     m < 128 ∧
       s.mz.length = 128 ∧
         (s.mort m).tenon = Tenon.can ∧
           (s.mort m).st = MzState.inService ∧
             s.ep.cur.isSome = true ∧
               (s.drives m = true →
                   (s.mort m).can.opmode = 1 ∨ s.fld (CN_ERRC m) 0 9 < 96 ∧ s.fld (CN_ERRC m) 16 8 = 0 ∧ s.fld (CN_STATUS m) 8 2 = 0 ∧ s.bit (CN_STATUS m) 10 = false) ∧
                 s.canWaits m sof = false ∧
                   recFmt r ≠ 3 ∧ (recFmt r = 1 ∧ s.bit (CN_CFG m) 0 = false ∨ recFmt r = 2 ∧ s.bit (CN_CFG m) 1 = false) ∧ s.bit (CN_CFG m) 3 = true) ∧
  (∃ (s : State) (t : ℕ) (m : ℕ) (sof : ℕ) (r : Octets),
     m < 128 ∧
       s.mz.length = 128 ∧
         (s.mort m).tenon = Tenon.can ∧
           (s.mort m).st = MzState.inService ∧
             s.ep.cur.isSome = true ∧
               (s.drives m = true →
                   (s.mort m).can.opmode = 1 ∨ s.fld (CN_ERRC m) 0 9 < 96 ∧ s.fld (CN_ERRC m) 16 8 = 0 ∧ s.fld (CN_STATUS m) 8 2 = 0 ∧ s.bit (CN_STATUS m) 10 = false) ∧
                 s.canWaits m sof = false ∧
                   recFmt r ≠ 3 ∧ (recFmt r = 1 ∧ s.bit (CN_CFG m) 0 = false ∨ recFmt r = 2 ∧ s.bit (CN_CFG m) 1 = false) ∧ s.bit (CN_CFG m) 3 = false) :=
  ⟨⟨(can 127 {waitTil := some 4001}), 5000, 127, 4000, rec0, by and_intros <;> first | decide +kernel | exact Or.inr (by decide +kernel)⟩,
   ⟨(can 127 {opmode := 1}), 5000, 127, 4000, rec0, by and_intros <;> first | decide +kernel | exact opt_all (by decide +kernel)⟩,
   ⟨({can 0 {opmode := 1, objs := ob 4 {active := some eg}} with tw := {}}), 5000, 0, 4000, rec0, by and_intros <;> first | decide +kernel | exact opt_all (by decide +kernel)⟩,
   ⟨((can 5 {opmode := 1}).wrN (CN_PC_ID 5 3) 0x80000005), 5000, 5, 4000, rec0, 3, by and_intros <;> first | decide +kernel | exact opt_all (by decide +kernel)⟩,
   ⟨((can 5 {opmode := 1}).wrN (CN_CFG 5) 8), 5000, 5, 4000, (padTo 24 [5,0,0,0,1,0x4,4,0]), by and_intros <;> first | decide +kernel | exact opt_all (by decide +kernel) | exact Or.inr (by decide +kernel)⟩,
   ⟨((can 5 {opmode := 1}).wrN (CN_CFG 5) 0), 5000, 5, 4000, (padTo 24 [5,0,0,0,2,0x4,4,0]), by and_intros <;> first | decide +kernel | exact opt_all (by decide +kernel) | exact Or.inr (by decide +kernel)⟩⟩

theorem wit_CanTransmission :
  (∃ (s : State) (t : ℕ) (m : ℕ) (k : ℕ),
     s.canDriving m ∧
       s.canWaits m t = false ∧
         (s.mort m).can.wire = none ∧ s.fld (CN_STATUS m) 8 2 ≠ 2 ∧ s.bit (CN_CFG m) 6 = false ∧ s.winner m (s.offerable m fun (j : ℕ) => !s.bit (CN_OBJ m j) 31) = some k) ∧
  (∃ (s : State) (t : ℕ) (m : ℕ) (k : ℕ), s.canDriving m ∧ s.canWaits m t = true) ∧
  (∃ (s : State) (t : ℕ) (m : ℕ) (k : ℕ) (tdcv : ℕ),
     s.canDriving m ∧
       k < 32 ∧
         (s.mort m).can.wire = some k ∧
           (s.mort m).can.objs.length = 32 ∧
             s.fld (CN_STATUS m) 8 2 = 0 ∧
               s.bit (CN_STATUS m) 10 = false ∧ s.fld (CN_ERRC m) 0 9 < 96 ∧ s.fld (CN_ERRC m) 16 8 < 96 ∧ (s.mort m).can.lone = false ∧ recFmt (s.mort m).can.wireRec = 0) ∧
  (∃ (s : State) (t : ℕ) (m : ℕ) (k : ℕ) (tdcv : ℕ),
     s.canDriving m ∧
       k < 32 ∧
         (s.mort m).can.wire = some k ∧
           (s.mort m).can.objs.length = 32 ∧
             s.fld (CN_STATUS m) 8 2 = 0 ∧
               s.bit (CN_STATUS m) 10 = false ∧
                 s.fld (CN_ERRC m) 0 9 < 96 ∧
                   s.fld (CN_ERRC m) 16 8 < 96 ∧
                     (s.mort m).can.lone = false ∧
                       recFmt (s.mort m).can.wireRec = 1 ∧
                         (oct (s.mort m).can.wireRec 4).testBit 2 = true ∧ s.bit (CN_TDC_D m) 7 = true ∧ s.fld (CN_TDC_D m) 8 7 ≤ tdcv ∧ tdcv < 128) ∧
  (∃ (s : State) (t : ℕ) (m : ℕ) (k : ℕ) (lost : Bool) (tdcv : Option ℕ),
     s.canDriving m ∧ k < 32 ∧ (s.mort m).can.wire = some k ∧ (s.mort m).can.objs.length = 32 ∧ recFmt (s.mort m).can.wireRec = 0 ∧ s.bit (CN_CFG m) 4 = true) ∧
  (∃ (s : State) (t : ℕ) (m : ℕ) (k : ℕ) (lost : Bool) (tdcv : Option ℕ),
     s.canDriving m ∧
       k < 32 ∧
         (s.mort m).can.wire = some k ∧ (s.mort m).can.objs.length = 32 ∧ recFmt (s.mort m).can.wireRec = 0 ∧ s.bit (CN_CFG m) 4 = false ∧ (s.canObj m k).abort = false) :=
  ⟨⟨(cE 31), 4000, 9, 31, by unfold State.canDriving; decide +kernel⟩,
   ⟨(can 9 {waitTil := some 5555}), 4000, 9, 31, by unfold State.canDriving; decide +kernel⟩,
   ⟨(cE 31 (some 31)), 4000, 9, 31, 7, by unfold State.canDriving; decide +kernel⟩,
   ⟨cF, 4000, 9, 3, 7, by unfold State.canDriving; decide +kernel⟩,
   ⟨((cE 0 (some 0)).setBit (CN_CFG 9) 4 true), 4000, 9, 0, true, none, by unfold State.canDriving; decide +kernel⟩,
   ⟨(cE 0 (some 0)), 4000, 9, 0, false, (some 9), by unfold State.canDriving; decide +kernel⟩⟩

theorem wit_CanErrorsAndCommands :
  (∃ (s : State) (t : ℕ) (m : ℕ) (tdcv : Option ℕ),
     s.canDriving m ∧
       s.bit (CN_STATUS m) 10 = decide (96 ≤ s.fld (CN_ERRC m) 0 9) ∧
         s.fld (CN_ERRC m) 16 8 < 96 ∧ recFmt (s.mort m).can.wireRec = 0 ∧ s.fld (CN_STATUS m) 8 2 = 0 ∧ s.fld (CN_ERRC m) 0 9 + 8 < 96) ∧
  (∃ (s : State) (t : ℕ) (m : ℕ) (tdcv : Option ℕ) (k : ℕ),
     s.canDriving m ∧
       s.bit (CN_STATUS m) 10 = decide (96 ≤ s.fld (CN_ERRC m) 0 9) ∧
         s.fld (CN_ERRC m) 16 8 < 96 ∧
           recFmt (s.mort m).can.wireRec = 0 ∧
             k < 32 ∧
               s.fld (CN_STATUS m) 8 2 = 1 ∧
                 248 ≤ s.fld (CN_ERRC m) 0 9 ∧ s.bit (CN_CFG m) 4 = false ∧ (s.mort m).can.wire = some k ∧ (s.mort m).can.objs.length = 32 ∧ (s.canObj m k).abort = false) ∧
  (∃ (s : State) (t : ℕ) (m : ℕ), s.canDriving m ∧ s.fld (CN_STATUS m) 8 2 = 2 ∧ (s.mort m).can.recov = true) ∧
  (∃ (s : State) (c : ℕ) (m : ℕ), s.canDriving m ∧ s.takesCommands ∧ (s.mort m).window = none ∧ s.fld (CN_STATUS m) 8 2 = 2) ∧
  (∃ (s : State) (c : ℕ) (m : ℕ) (mode : ℕ), s.canDriving m ∧ s.takesCommands ∧ (s.mort m).window = none ∧ mode < 3) ∧
  (∃ (s : State) (c : ℕ) (m : ℕ) (t : ℕ) (k : ℕ),
     s.canDriving m ∧
       s.takesCommands ∧
         (s.mort m).window = none ∧
           k < 32 ∧
             (s.mort m).can.objs.length = 32 ∧
               (s.canObj m k).active.isSome = true ∧ (s.canObj m k).nxt = none ∧ (s.canObj m k).sent = false ∧ (s.canObj m k).spent = false ∧ (s.mort m).can.wire ≠ some k) ∧
  (∃ (s : State) (c : ℕ) (m : ℕ) (t : ℕ) (k : ℕ),
     s.canDriving m ∧
       s.takesCommands ∧
         (s.mort m).window = none ∧
           k < 32 ∧
             (s.mort m).can.objs.length = 32 ∧
               (s.canObj m k).active.isSome = true ∧ (s.canObj m k).nxt = none ∧ (s.canObj m k).sent = false ∧ (s.canObj m k).spent = false ∧ (s.mort m).can.wire = some k) :=
  ⟨⟨(cE 0 (some 0)), 4000, 9, none, by unfold State.canDriving; decide +kernel⟩,
   ⟨((((cE 0 (some 0)).setFld (CN_ERRC 9) 0 9 248).setFld (CN_STATUS 9) 8 2 1).setBit (CN_STATUS 9) 10 true), 4000, 9, none, 0, by unfold State.canDriving; decide +kernel⟩,
   ⟨((can 9 {recov := true}).setFld (CN_STATUS 9) 8 2 2), 4000, 9, by unfold State.canDriving; decide +kernel⟩,
   ⟨((can 9 {}).setFld (CN_STATUS 9) 8 2 2), 30, 9, by unfold State.canDriving State.takesCommands; decide +kernel⟩,
   ⟨(can 9 {}), 30, 9, 2, by unfold State.canDriving State.takesCommands; decide +kernel⟩,
   ⟨(cE 31), 30, 9, 7777, 31, by unfold State.canDriving State.takesCommands; decide +kernel⟩,
   ⟨(cE 31 (some 31)), 30, 9, 7777, 31, by unfold State.canDriving State.takesCommands; decide +kernel⟩⟩

theorem wit_CanScheduleMatrix :
  (∃ (s : State) (t : ℕ),
     ∃ m < 128,
       s.mz.length = 128 ∧
         (s.mort m).tenon = Tenon.can ∧
           (s.mort m).st = MzState.inService ∧
             (s.fld (CN_TTCFG m) 0 2 = 1 ∨ s.fld (CN_TTCFG m) 0 2 = 2) ∧ s.fld (CN_TTBC m) 0 16 ≠ 0 ∧ t % (1000 * s.fld (CN_TTBC m) 0 16) = 0 ∧ (s.mort m).can.newMx = none) ∧
  (∃ (s : State) (t : ℕ) (m : ℕ) (sof : ℕ) (r : Octets),
     m < 128 ∧
       s.mz.length = 128 ∧
         (s.mort m).tenon = Tenon.can ∧
           (s.mort m).st = MzState.inService ∧
             s.drives m = false ∧
               s.ep.cur.isSome = true ∧
                 s.canWaits m sof = false ∧ recFmt r = 0 ∧ s.isReference m (canDecode r) = true ∧ s.canEcho m (canDecode r) = false ∧ (s.mort m).can.newMx = none) ∧
  (∃ (s : State) (t : ℕ) (m : ℕ) (c0 : ℕ) (k : ℕ),
     s.canDriving m ∧
       s.fld (CN_STATUS m) 8 2 ≠ 2 ∧
         (s.mort m).can.cycleAt = some c0 ∧
           s.bit (CN_CFG m) 6 = true ∧
             (s.mort m).can.tried = false ∧
               s.canWaits m t = false ∧
                 (s.mort m).can.wire = none ∧
                   s.colAt m ((t - c0) / 1000) = s.fld (CN_TTSTAT m) 8 4 ∧ (s.window m).2 = 3 ∧ s.bit (CN_TTSTAT m) 13 = true ∧ s.fld (CN_TTCFG m) 0 2 = 2) ∧
  (∃ (s : State) (t : ℕ) (m : ℕ) (c0 : ℕ) (k : ℕ),
     s.canDriving m ∧
       s.fld (CN_STATUS m) 8 2 ≠ 2 ∧
         (s.mort m).can.cycleAt = some c0 ∧
           s.bit (CN_CFG m) 6 = true ∧
             (s.mort m).can.tried = false ∧
               s.window m = (k, 1) ∧
                 s.bit (CN_TTSTAT m) 12 = false ∧
                   s.bit (CN_OBJ m k) 31 = true ∧
                     (s.offerable m fun (j : ℕ) => j == k) = [k] ∧
                       s.canWaits m (max s.now t) = false ∧
                         (s.mort m).can.wire = none ∧
                           s.colAt m ((t - c0) / 1000) = s.fld (CN_TTSTAT m) 8 4 ∧ s.twNs m (s.objRec m k) ≤ c0 + s.colEnd m (s.fld (CN_TTSTAT m) 8 4) - t) ∧
  (∃ (s : State) (t : ℕ) (m : ℕ) (c0 : ℕ) (k : ℕ),
     s.canDriving m ∧
       s.fld (CN_STATUS m) 8 2 ≠ 2 ∧
         (s.mort m).can.cycleAt = some c0 ∧
           s.bit (CN_CFG m) 6 = true ∧
             (s.mort m).can.tried = false ∧
               s.window m = (k, 1) ∧
                 s.bit (CN_TTSTAT m) 12 = false ∧
                   s.bit (CN_OBJ m k) 31 = true ∧
                     (s.offerable m fun (j : ℕ) => j == k) = [k] ∧
                       s.canWaits m (max s.now t) = false ∧
                         (s.mort m).can.wire = none ∧
                           s.colAt m ((t - c0) / 1000) = s.fld (CN_TTSTAT m) 8 4 ∧
                             c0 + s.colEnd m (s.fld (CN_TTSTAT m) 8 4) - t < s.twNs m (s.objRec m k) ∧ (s.mort m).can.missed = false) ∧
  (∃ (s : State) (t : ℕ) (m : ℕ) (c0 : ℕ) (k : ℕ),
     s.canDriving m ∧
       s.fld (CN_STATUS m) 8 2 ≠ 2 ∧
         (s.mort m).can.cycleAt = some c0 ∧
           s.bit (CN_CFG m) 6 = true ∧
             (s.mort m).can.tried = false ∧
               s.window m = (k, 1) ∧
                 s.bit (CN_TTSTAT m) 12 = false ∧
                   s.bit (CN_OBJ m k) 31 = true ∧
                     (s.offerable m fun (j : ℕ) => j == k) = [k] ∧
                       c0 < t ∧
                         s.colAt m ((t - 1 - c0) / 1000) = s.fld (CN_TTSTAT m) 8 4 ∧
                           t = c0 + s.colEnd m (s.fld (CN_TTSTAT m) 8 4) ∧ (s.mort m).can.missed = false ∧ s.bit (CN_CFG m) 4 = false) ∧
  (∃ (s : State) (t : ℕ) (m : ℕ) (c0 : ℕ) (k : ℕ),
     s.canDriving m ∧
       s.fld (CN_STATUS m) 8 2 ≠ 2 ∧
         (s.mort m).can.cycleAt = some c0 ∧
           s.bit (CN_CFG m) 6 = true ∧
             (s.mort m).can.tried = false ∧
               s.window m = (k, 1) ∧
                 s.bit (CN_TTSTAT m) 12 = false ∧
                   s.bit (CN_OBJ m k) 31 = true ∧
                     (s.offerable m fun (j : ℕ) => j == k) = [k] ∧
                       c0 < t ∧
                         s.colAt m ((t - 1 - c0) / 1000) = s.fld (CN_TTSTAT m) 8 4 ∧
                           t = c0 + s.colEnd m (s.fld (CN_TTSTAT m) 8 4) ∧ (s.mort m).can.missed = true ∧ s.bit (CN_CFG m) 4 = true ∧ (s.mort m).can.objs.length = 32) ∧
  (∃ (s : State) (t : ℕ),
     ∃ m < 128, (s.mort m).tenon = Tenon.can ∧ (s.mort m).st = MzState.inService ∧ s.fld (CN_TTCFG m) 0 2 = 3 ∧ (s.mort m).can.lastRef + 2000 * s.fld (CN_TTBC m) 0 16 ≤ t) :=
  ⟨⟨(mx {}), 70000, 9, by and_intros <;> first | decide +kernel | exact Or.inr (by decide +kernel)⟩,
   ⟨flw, 70000, 9, 69000, (padTo 24 ([5,0,0,0,0,1,1,0,0,0,0,0,0,0,0,0,0x47])), by decide +kernel⟩,
   ⟨((mxE {objs := ob 4 {active := some eg}, cycleAt := some 70000} (4+192)).setBit (CN_TTSTAT 9) 13 true), 70500, 9, 70000, 4, by unfold State.canDriving; decide +kernel⟩,
   ⟨(mxE {objs := ob 4 {active := some eg}, cycleAt := some 70000}), 70500, 9, 70000, 4, by unfold State.canDriving; decide +kernel⟩,
   ⟨(mxE {objs := ob 4 {active := some eg}, cycleAt := some 70000} 68 1), 70500, 9, 70000, 4, by unfold State.canDriving; decide +kernel⟩,
   ⟨(mxE {objs := ob 4 {active := some eg}, cycleAt := some 70000} 68 1), 71000, 9, 70000, 4, by unfold State.canDriving; decide +kernel⟩,
   ⟨((mxE {objs := ob 4 {active := some eg}, cycleAt := some 70000, missed := true} 68 1).setBit (CN_CFG 9) 4 true), 71000, 9, 70000, 4, by unfold State.canDriving; decide +kernel⟩,
   ⟨((mx {}).setFld (CN_TTCFG 9) 0 2 3), 20000, 9, by decide +kernel⟩⟩

theorem wit_LinSlotsAndFrames :
  (∃ (s : State) (t : ℕ) (m : ℕ) (e : ℕ) (f : ℕ) (rtab : ℕ) (slot : ℕ),
     s.linDriving m ∧
       s.bit (LN_CFG m) 0 = true ∧
         (s.mort m).lin.slotEnd = some e ∧
           e ≤ t ∧
             (s.mort m).lin.ctl = [] ∧
               (s.mort m).lin.coll = false ∧
                 (s.mort m).lin.sleepSlot = false ∧
                   (s.mort m).lin.sleepReq = false ∧
                     (s.mort m).lin.resolve = none ∧
                       (s.mort m).lin.slot.2 = 64 ∧
                         (s.mort m).lin.run = true ∧
                           (s.mort m).lin.rest = false ∧ s.bit (LN_STATUS m) 3 = false ∧ s.linEntry m (s.mort m).lin.table 0 = (f, 1, rtab, slot) ∧ s.linPub m f = false) ∧
  (∃ (s : State) (t : ℕ) (m : ℕ) (start : ℕ) (brk : ℕ) (f : ℕ) (dev : ℤ), s.linDriving m ∧ s.bit (LN_CFG m) 0 = false ∧ brk < 11) ∧
  (∃ (s : State) (t : ℕ) (m : ℕ) (start : ℕ) (brk : ℕ) (f : ℕ) (dev : ℤ), s.linDriving m ∧ s.bit (LN_CFG m) 0 = false ∧ 11 ≤ brk ∧ (150 < dev ∨ dev < -150)) ∧
  (∃ (s : State) (t : ℕ) (m : ℕ) (start : ℕ) (brk : ℕ) (f : ℕ) (dev : ℤ) (e : Egress),
     s.linDriving m ∧ s.bit (LN_CFG m) 0 = false ∧ 11 ≤ brk ∧ -150 ≤ dev ∧ dev ≤ 150 ∧ f < 64 ∧ s.linPub m f = true ∧ linChoose (s.linBuf m f) (s.tick t).stampEp = some e) ∧
  (∃ (s : State) (t : ℕ) (m : ℕ) (start : ℕ) (brk : ℕ) (f : ℕ) (dev : ℤ),
     s.linDriving m ∧ s.bit (LN_CFG m) 0 = false ∧ 11 ≤ brk ∧ -150 ≤ dev ∧ dev ≤ 150 ∧ f < 64 ∧ s.linPub m f = true ∧ linChoose (s.linBuf m f) (s.tick t).stampEp = none) ∧
  (∃ (s : State) (t : ℕ) (m : ℕ) (f : ℕ) (r : Octets),
     s.linDriving m ∧
       f < 64 ∧
         oct r 0 = linPid f ∧
           oct r 2 = s.linLen m f ∧
             List.length (slice r 4 (oct r 2)) = oct r 2 ∧
               oct r 3 = linChecksum (s.linEnh m f) (linPid f) (slice r 4 (oct r 2)) ∧ (f ≠ 60 ∨ oct (slice r 4 (oct r 2)) 0 ≠ 0) ∧ s.linPub m f = false) ∧
  (∃ (s : State) (t : ℕ) (m : ℕ) (f : ℕ) (r : Octets),
     s.linDriving m ∧
       f < 64 ∧
         oct r 0 = linPid f ∧
           oct r 2 = s.linLen m f ∧
             List.length (slice r 4 (oct r 2)) = oct r 2 ∧
               oct r 3 = linChecksum (s.linEnh m f) (linPid f) (slice r 4 (oct r 2)) ∧ (f ≠ 60 ∨ oct (slice r 4 (oct r 2)) 0 ≠ 0) ∧ s.linPub m f = true) :=
  ⟨⟨lsl, 9000, 9, 8000, 5, 0, 3, by unfold State.linDriving; decide +kernel⟩,
   ⟨(lin 9), 9000, 9, 8000, 10, 5, 151, by unfold State.linDriving; decide +kernel⟩,
   ⟨(lin 9), 9000, 9, 8000, 11, 5, 151, by unfold State.linDriving; and_intros <;> first | decide +kernel | exact Or.inr (by decide +kernel)⟩,
   ⟨((lin 9 {bufs := buf 5 le}).wrN (LN_PUB_L 9) 32), 9000, 9, 8000, 13, 5, (-150), le, by unfold State.linDriving; decide +kernel⟩,
   ⟨((lin 9 {}).wrN (LN_PUB_L 9) 32), 9000, 9, 8000, 13, 5, 150, by unfold State.linDriving; decide +kernel⟩,
   ⟨(lin 9), 9000, 9, 63, (linRec (lin 9) 9 63 (List.replicate ((lin 9).linLen 9 63) 3)), by unfold State.linDriving; and_intros <;> first | decide +kernel | exact Or.inr (by decide +kernel)⟩,
   ⟨((lin 9).wrN (LN_PUB_L 9) 1), 9000, 9, 0, (linRec ((lin 9)) 9 0 (List.replicate ((lin 9).linLen 9 0) 0)), by unfold State.linDriving; and_intros <;> first | decide +kernel | exact Or.inr (by decide +kernel)⟩⟩

theorem wit_LinEventsAndCommands :
  (∃ (s : State) (t : ℕ) (m : ℕ) (f : ℕ) (reason : ℕ),
     s.linDriving m ∧
       f < 64 ∧
         1 ≤ reason ∧
           reason ≤ 5 ∧
             (3 ≤ reason ∨ ∃ (h : LinHdr), (s.mort m).lin.hdr = some h ∧ h.fid = f ∧ h.start + s.linFrameMax m (s.linLen m f) ≤ t) ∧
               (s.linEvtSlot m = false ∨ reason ≠ 3 ∧ reason ≠ 5)) ∧
  (∃ (s : State) (t : ℕ) (m : ℕ) (f : ℕ) (reason : ℕ),
     s.linDriving m ∧
       f < 64 ∧
         1 ≤ reason ∧
           reason ≤ 5 ∧
             (3 ≤ reason ∨ ∃ (h : LinHdr), (s.mort m).lin.hdr = some h ∧ h.fid = f ∧ h.start + s.linFrameMax m (s.linLen m f) ≤ t) ∧
               s.linEvtSlot m = true ∧ (reason = 3 ∨ reason = 5)) ∧
  (∃ (s : State) (t : ℕ) (m : ℕ) (f : ℕ) (rtab : ℕ) (slot : ℕ) (e : ℕ),
     s.linDriving m ∧
       f < 64 ∧ s.linEvtSlot m = true ∧ s.linEntry m (s.mort m).lin.slot.1 (s.mort m).lin.slot.2 = (f, 2, rtab, slot) ∧ (s.mort m).lin.slotEnd = some e ∧ e ≤ t) ∧
  (∃ (s : State) (t : ℕ) (m : ℕ) (f : ℕ) (rtab : ℕ) (slot : ℕ) (e : ℕ),
     s.linDriving m ∧
       f < 64 ∧ s.linEvtSlot m = true ∧ s.linEntry m (s.mort m).lin.slot.1 (s.mort m).lin.slot.2 = (f, 2, rtab, slot) ∧ (s.mort m).lin.slotEnd = some e ∧ t < e) ∧
  (∃ (s : State) (t : ℕ) (m : ℕ) (f : ℕ) (d : Octets) (a : ℕ), s.linDriving m ∧ f < 64 ∧ (s.mort m).lin.sending = some (f, d, a) ∧ (f ≠ 60 ∨ oct d 0 ≠ 0)) ∧
  (∃ (s : State) (t : ℕ) (m : ℕ) (f : ℕ) (d : Octets) (a : ℕ) (reason : ℕ),
     s.linDriving m ∧ f < 64 ∧ (s.mort m).lin.sending = some (f, d, a) ∧ (reason = 1 ∨ reason = 2) ∧ (reason = 2 ∨ s.linEvtSlot m = false)) ∧
  (∃ (s : State) (t : ℕ) (m : ℕ) (f : ℕ), s.linDriving m ∧ f < 64 ∧ s.bit (LN_STATUS m) 3 = false ∧ (s.mort m).lin.act + s.fld (LN_TIMEO m) 0 14 * 1000000 ≤ t) ∧
  (∃ (s : State) (t : ℕ) (m : ℕ) (f : ℕ) (us : ℕ), s.linDriving m ∧ f < 64 ∧ s.bit (LN_STATUS m) 3 = true ∧ 150 ≤ us) ∧
  (∃ (s : State) (c : ℕ) (m : ℕ) (table : ℕ), s.linDriving m ∧ s.takesCommands ∧ (s.mort m).window = none ∧ table < 4) ∧
  (∃ (s : State) (c : ℕ) (m : ℕ) (run : Bool), s.linDriving m ∧ s.takesCommands ∧ (s.mort m).window = none) ∧
  (∃ (s : State) (c : ℕ) (m : ℕ), s.linDriving m ∧ s.takesCommands ∧ (s.mort m).window = none ∧ s.bit (LN_CFG m) 0 = true) ∧
  (∃ (s : State) (c : ℕ) (m : ℕ), s.linDriving m ∧ s.takesCommands ∧ (s.mort m).window = none ∧ s.bit (LN_CFG m) 0 = false) ∧
  (∃ (s : State) (c : ℕ) (m : ℕ), s.linDriving m ∧ s.takesCommands ∧ (s.mort m).window = none ∧ s.ep.running = none) :=
  ⟨⟨(cmd 9), 9000, 9, 5, 3, by unfold State.linDriving; and_intros <;> first | decide +kernel | exact Or.inr (by decide +kernel)⟩,
   ⟨(evs 8000), 9000, 9, 5, 3, by unfold State.linDriving; and_intros <;> first | decide +kernel | exact Or.inr (by decide +kernel)⟩,
   ⟨(evs 8000), 9000, 9, 5, 2, 3, 8000, by unfold State.linDriving; decide +kernel⟩,
   ⟨(evs 9001), 9000, 9, 5, 2, 3, 9001, by unfold State.linDriving; decide +kernel⟩,
   ⟨(lin 9 {sending := some (5, [1,2], 0)}), 9000, 9, 5, [1,2], 0, by unfold State.linDriving; and_intros <;> first | decide +kernel | exact Or.inr (by decide +kernel)⟩,
   ⟨(lin 9 {hdr := some {fid := 5}, sending := some (5, [1,2], 0)}), 9000, 9, 5, [1,2], 0, 2, by unfold State.linDriving; and_intros <;> first | decide +kernel | exact Or.inr (by decide +kernel)⟩,
   ⟨((lin 9).setFld (LN_TIMEO 9) 0 14 100), 200000000, 9, 5, by unfold State.linDriving; decide +kernel⟩,
   ⟨((lin 9).setBit (LN_STATUS 9) 3 true), 9000, 9, 5, 150, by unfold State.linDriving; decide +kernel⟩,
   ⟨(cmd 9), 31, 9, 3, by unfold State.linDriving State.takesCommands; decide +kernel⟩,
   ⟨(cmd 9), 31, 9, true, by unfold State.linDriving State.takesCommands; decide +kernel⟩,
   ⟨(cmd 9), 31, 9, by unfold State.linDriving State.takesCommands; decide +kernel⟩,
   ⟨(lin 9), 31, 9, by unfold State.linDriving State.takesCommands; decide +kernel⟩,
   ⟨((cmd 9).setBit (LN_STATUS 9) 3 true), 31, 9, by unfold State.linDriving State.takesCommands; decide +kernel⟩⟩

theorem wit_T1sTenons :
  (∃ (s : State) (t : ℕ) (m : ℕ) (frame : Octets), s.t1sDriving m ∧ (s.mort m).t1s.disc = false ∧ 64 ≤ List.length frame ∧ List.length frame ≤ s.fld (T1_CFG m) 16 14) ∧
  (∃ (s : State) (t : ℕ) (m : ℕ) (frame : Octets) (fcsErr : Bool),
     s.t1sDriving m ∧ (s.mort m).t1s.disc = false ∧ (fcsErr = true ∨ List.length frame < 64 ∨ s.fld (T1_CFG m) 16 14 < List.length frame)) ∧
  (∃ (s : State) (t : ℕ) (m : ℕ), s.t1sDriving m ∧ (s.mort m).t1s.disc = false ∧ s.bit (T1_CFG m) 0 = true ∧ (s.mort m).t1s.plca = false) ∧
  (∃ (s : State) (t : ℕ) (m : ℕ), s.t1sDriving m ∧ (s.mort m).t1s.disc = false ∧ (s.mort m).t1s.plca = true ∧ (s.mort m).t1s.beaconAt + 400000 ≤ t) ∧
  (∃ (s : State) (t : ℕ) (m : ℕ) (e : Egress) (rest : List (Egress × Bool × Bool)),
     s.t1sDriving m ∧
       (s.mort m).t1s.disc = false ∧ (s.mort m).t1s.queue = (e, false, false) :: rest ∧ (s.mort m).t1s.burst = 0 ∧ ∀ (w : ℕ), (s.mort m).t1s.waking = some w → w ≤ t) ∧
  (∃ (s : State) (t : ℕ) (m : ℕ) (e : Egress) (rest : List (Egress × Bool × Bool)),
     s.t1sDriving m ∧ (s.mort m).t1s.disc = false ∧ (s.mort m).t1s.queue = (e, false, false) :: rest ∧ (s.mort m).t1s.burst ≠ 0 ∧ (s.mort m).t1s.waking = none) ∧
  (∃ (s : State) (t : ℕ) (m : ℕ) (e : Egress) (rest : List (Egress × Bool × Bool)),
     s.t1sDriving m ∧
       (s.mort m).t1s.disc = false ∧
         (s.mort m).t1s.queue = (e, false, false) :: rest ∧
           (s.mort m).t1s.burst ≠ 0 ∧ (s.bit (T1_CFG m) 0 = false ∨ (s.mort m).t1s.plca = false) ∧ (s.mort m).t1s.attempts < 15) ∧
  (∃ (s : State) (t : ℕ) (m : ℕ) (e : Egress) (rest : List (Egress × Bool × Bool)),
     s.t1sDriving m ∧
       (s.mort m).t1s.disc = false ∧
         (s.mort m).t1s.queue = (e, false, false) :: rest ∧
           (s.mort m).t1s.burst ≠ 0 ∧ (s.bit (T1_CFG m) 0 = false ∨ (s.mort m).t1s.plca = false) ∧ 15 ≤ (s.mort m).t1s.attempts) ∧
  (∃ (s : State) (t : ℕ) (m : ℕ), s.t1sDriving m ∧ (s.mort m).t1s.disc = false) ∧
  (∃ (s : State) (t : ℕ) (m : ℕ) (r : ℕ), s.t1sDriving m ∧ (s.mort m).t1s.disc = true ∧ (s.mort m).t1s.off = false ∧ (s.mort m).t1s.reconAt = some r ∧ r ≤ t) ∧
  (∃ (s : State) (t : ℕ) (m : ℕ) (h : ℕ), s.t1sDriving m ∧ (s.mort m).t1s.disc = false ∧ (s.mort m).t1s.holdAt = some h ∧ h ≤ t) ∧
  (∃ (s : State) (t : ℕ) (m : ℕ) (c : ℕ), s.t1sDriving m ∧ s.takesCommands ∧ (s.mort m).window = none ∧ (s.mort m).t1s.off = true) ∧
  (∃ (s : State) (t : ℕ) (m : ℕ) (c : ℕ), s.t1sDriving m ∧ s.takesCommands ∧ (s.mort m).window = none ∧ (s.mort m).t1s.disc = false) ∧
  (∃ (s : State) (t : ℕ) (m : ℕ) (us : ℕ), s.t1sDriving m ∧ (s.mort m).t1s.disc = false ∧ s.fld (T1_PHY m) 18 8 < us ∧ s.mode ≠ Mode.watch ∧ s.wk.st ≠ 2) :=
  ⟨⟨(tq {}), 900000, 9, (List.replicate 1518 3), by unfold State.t1sDriving; decide +kernel⟩,
   ⟨(tq {}), 900000, 9, (List.replicate 1519 3), false, by unfold State.t1sDriving; and_intros <;> first | decide +kernel | exact Or.inr (by decide +kernel)⟩,
   ⟨((tq {}).setBit (T1_CFG 9) 0 true), 900000, 9, by unfold State.t1sDriving; decide +kernel⟩,
   ⟨((tq {plca := true}).setBit (T1_CFG 9) 0 true), 900000, 9, by unfold State.t1sDriving; decide +kernel⟩,
   ⟨(tqq 0 0), 900000, 9, eg, [(eg, false, false)], by unfold State.t1sDriving; and_intros <;> first | decide +kernel | exact opt_all (by decide +kernel)⟩,
   ⟨(tqq 1 0), 900000, 9, eg, [(eg, false, false)], by unfold State.t1sDriving; decide +kernel⟩,
   ⟨(tqq 1 14), 900000, 9, eg, [(eg, false, false)], by unfold State.t1sDriving; and_intros <;> first | decide +kernel | exact Or.inr (by decide +kernel)⟩,
   ⟨(tqq 1 15), 900000, 9, eg, [(eg, false, false)], by unfold State.t1sDriving; and_intros <;> first | decide +kernel | exact Or.inr (by decide +kernel)⟩,
   ⟨((tq {}).setFld (T1_PHY 9) 4 4 2), 900000, 9, by unfold State.t1sDriving; decide +kernel⟩,
   ⟨((tq {disc := true, reconAt := some 5}).setFld (T1_PHY 9) 4 4 2), 900000, 9, 5, by unfold State.t1sDriving; decide +kernel⟩,
   ⟨((tq {holdAt := some 5}).setFld (T1_PHY 9) 4 4 2), 900000, 9, 5, by unfold State.t1sDriving; decide +kernel⟩,
   ⟨((tq {disc := true, off := true}).setFld (T1_PHY 9) 4 4 2), 900000, 9, 30, by unfold State.t1sDriving State.takesCommands; decide +kernel⟩,
   ⟨((tq {}).setFld (T1_PHY 9) 4 4 2), 900000, 9, 30, by unfold State.t1sDriving State.takesCommands; decide +kernel⟩,
   ⟨((tq {}).setFld (T1_PHY 9) 4 4 2), 900000, 9, 1, by unfold State.t1sDriving; decide +kernel⟩⟩

theorem wit_Bays :
  (∃ (s : State) (t : ℕ) (b : ℕ) (f : Octets),
     s.dieOn = true ∧
       b < 12 ∧
         s.fld (EB_MACCFG b) 0 3 ≠ 7 ∧
           64 ≤ List.length f ∧
             List.length f ≤ s.ethLimit b f ∧
               s.isMacControl b f = false ∧ s.bit (EB_PTPCFG b) 0 = false ∧ (s.mode = Mode.solo ∨ s.mode = Mode.lead ∨ s.mode = Mode.shadow) ∧ s.ep.cur.isSome = true) ∧
  (∃ (s : State) (t : ℕ) (b : ℕ) (f : Octets),
     s.dieOn = true ∧
       b < 12 ∧
         s.fld (EB_MACCFG b) 0 3 ≠ 7 ∧
           64 ≤ List.length f ∧ List.length f ≤ s.ethLimit b f ∧ s.isMacControl b f = false ∧ s.bit (EB_PTPCFG b) 0 = false ∧ s.mode = Mode.raise ∧ s.wakeMatch b f = none) ∧
  (∃ (s : State) (t : ℕ) (b : ℕ) (f : Octets) (fcsErr : Bool) (codeErr : Bool),
     s.dieOn = true ∧
       b < 12 ∧ s.fld (EB_MACCFG b) 0 3 ≠ 7 ∧ (fcsErr = true ∨ codeErr = true ∨ List.length f < 64 ∨ s.ethLimit b f < List.length f) ∧ s.bit (EB_RXCFG b) 14 = false) ∧
  (∃ (s : State) (t : ℕ) (b : ℕ) (rate : ℕ), s.dieOn = true ∧ b < 12 ∧ s.bays.length = 12 ∧ s.bayRate b = some rate ∧ (s.bay b).phy = false) ∧
  (∃ (s : State) (t : ℕ) (b : ℕ), s.dieOn = true ∧ b < 12 ∧ s.bays.length = 12 ∧ (s.bay b).phy = true ∧ (s.bay b).wireEnd ≤ max s.now t * 1000) ∧
  (∃ (s : State) (t : ℕ) (b : ℕ) (up : Bool),
     s.dieOn = true ∧ b < 12 ∧ s.bays.length = 12 ∧ s.ep.cur.isSome = true ∧ (s.bay b).phy = up ∧ (s.bay b).up = !up ∧ (s.bay b).since + 1000000 ≤ t) ∧
  (∃ (s : State) (b : ℕ) (speed : ℕ), s.dieOn = true ∧ b < 12 ∧ s.bays.length = 12 ∧ s.bit (EB_MACCFG b) 4 = true ∧ s.fld (EB_MACCFG b) 0 3 = 0) ∧
  (∃ (s : State) (t : ℕ) (b : ℕ), s.dieOn = true ∧ b < 12 ∧ (s.bay b).pauseAll ≤ t * 1000 ∧ ∀ c < 8, (s.bay b).pfc.getD c 0 ≤ t * 1000) ∧
  (∃ (s : State) (ms : Master) (w : World) (v : Word), s.secureHost ms w ∧ s.bit EB_MDIO_STAT 16 = false ∧ BitVec.getLsbD v 28 = true) ∧
  (∃ (s : State) (rdata : ℕ) (ack : Bool), s.bit EB_MDIO_STAT 16 = true ∧ s.bit EB_MDIO_CMD 28 = true ∧ s.fld EB_MDIO_CMD 26 2 = 2) ∧
  (∃ (s : State) (t : ℕ) (b : ℕ) (e : Egress),
     s.dieOn = true ∧
       b < 12 ∧
         s.bays.length = 12 ∧
           s.mode = Mode.solo ∧
             s.tw.egressOff = false ∧
               (s.bay b).phy = true ∧
                 (s.bay b).wireEnd ≤ max s.now t * 1000 ∧ earliest ((s.bay b).heads (max s.now t * 1000)) = some e ∧ e.start ≤ max s.now t ∧ e.close = none ∧ e.stream = none) :=
  ⟨⟨(bay 11), 9000, 11, fr64, by and_intros <;> first | decide +kernel | exact Or.inr (by decide +kernel)⟩,
   ⟨({bay 11 with mode := .raise}), 9000, 11, fr64, by decide +kernel⟩,
   ⟨(bay 11), 9000, 11, fr64, true, false, by and_intros <;> first | decide +kernel | exact Or.inr (by decide +kernel)⟩,
   ⟨(bay 11), 9000, 11, (((bay 11).bayRate 11).getD 9), by decide +kernel⟩,
   ⟨(bay 11 {phy := true, fifo := [{}, {}]}), 9000, 11, by decide +kernel⟩,
   ⟨(bay 11 {phy := true, since := 5, speed := 3}), 9000000, 11, true, by decide +kernel⟩,
   ⟨((bay 11).wrN (EB_MACCFG 11) 16), 11, 3, by decide +kernel⟩,
   ⟨((bay 11 {pauseAll := 500}).wrN (EB_STATUS 11) 0xff80), 9000, 11, by and_intros <;> first | decide +kernel | exact opt_all (by decide +kernel)⟩,
   ⟨(bay 11), .pcie0, .secure, 0x1fffffff, by and_intros <;> first | decide +kernel | exact secureHost_of (by decide +kernel)⟩,
   ⟨(((bay 11).wrN EB_MDIO_STAT 0x10000).wrN EB_MDIO_CMD 0x18000000), 0x12345, true, by decide +kernel⟩,
   ⟨(bay 11 {phy := true, up := true, fifo := [be], wireEnd := 9000000}), 9000, 11, be, by decide +kernel⟩⟩

end Sys2Proof.Tests.Ports

namespace Sys2Proof.Tests.Tables

def s0 : State := State.reset
def sP : State := { s0 with mode := .solo, now := 1000, ep := { cur := some 30, start := 120000, stop := 128000, lag := 1, running := some 28 }, tw := {driving := true} }
def poke (s : State) (a : Nat) (o : Octets) : State := s.memW a o
def desc (img unit ini : Nat) (port := 128) (extra : Nat := 0): List Nat := [4 + 256*0 + 65536*port + 3*16777216, img + 65536*4, unit, 0, 0, 0, ini, 0]
def dO (img unit : Nat) (fl := 4) (mode := 0): Octets := padTo 32 ([BitVec.ofNat 8 fl, BitVec.ofNat 8 mode, 128, 3] ++ natLE 2 img ++ natLE 2 4 ++ natLE 4 unit)
def sD : State := poke sP (gwDescs+64*5) (dO 64 3)
def sT (g : Gateway) : State := {(poke sP (gwRoutes+64*5) ([0xF] ++ List.replicate 10 1)) with gw := g}
def sQ : State := ((({ (poke (poke sP (gwDescs+64*5) (putOcts (dO 64 3 4 2) 0xC [28])) (gwData+64*3) (List.replicate 64 7)) with gw := {part := 3, todo := [.send 5], left := 1} }).setBit (SC_CL_W0 128 3) 17 true).setFld (SC_CL_W3 128 3) 0 24 80).setFld (SC_PCFG 128) 1 14 2000
def sA : State := {sP with tab := {slots := 100}}
def hd (h : Nat) (x : Nat := 9): List Nat := [4, h, x, 0, 0x00000501, 3, 0, 0]
def e0 := hTag 3 (tabData (hd 5))
def sE := poke sA (hashAddr 0 (4*(buckets 0 (hKey e0)).1 + 2)) e0
def stash0 (s : State) : State := (List.range 32).foldl (fun s j => poke s (hashAddr 0 (hashSlots 0 + j)) (putOcts e0 0x12 [BitVec.ofNat 8 j] )) s
def pd : List Nat := [4 + 256*4 + 65536*24, 5, 0x0001A8C0, 0, 1, 0, 0, 0]
def sX : State := (sA.setBit (TB_ROOT 7) 14 true).setFld (TB_ROOT 7) 0 12 5
def sY : State := poke sX (tbPfx + 32*10) (hTag 3 (tabData pd))
def cA : LpmCmd := {at_ := 28, handle := 10, entry := some (tabData pd)}
def cB : LpmCmd := {cA with built := true}
def eL (fr : Nat) (o1 o2: Nat) := putOcts e0 0 [BitVec.ofNat 8 (15 + fr), BitVec.ofNat 8 o1, BitVec.ofNat 8 o2]
def sV (age : Nat) (e : Octets): State := poke {sP with tab := {slots := 9, age := age, visits := 4}} (hashAddr 0 age) e
def sS (r i : Nat) (s := sP): State := (((s.setBit TB_PSCTRL 0 true).setBit TB_PSCTRL (1+r) true).setFld TB_PSSTAT 0 3 r).setFld TB_PSPOS 0 24 i
def sD0 : State := poke (sS 0 5) (tbDirect + 20) [4,0,0,1]
def rc : ScanRec := ⟨0,5,[4,0,0,1],[0,0,0,0],0⟩
def sG (bt : Nat) : State := (((sP.setFld (SC_GCTL 11) 8 10 1).setFld (SC_GCYC 11) 0 30 5000).wrN (SC_GBASE_L 11) bt).wrN (SC_GLA 11 0) 0x1000FF
def old : GateCur := {b := true, len := 1023, bt := 2^33+5, cyc := 77777}

theorem wit_GatewayCommands :
  (∃ (s : State) (c : ℕ) (idx : ℕ) (d : List ℕ),
     s.inService ∧ s.gwFree = true ∧ idx < 8388608 ∧ s.routeOk (cmdOcts d 64) = true ∧ BitVec.getLsbD (s.memB (gwRState + 16 * idx + 6)) 0 = false) ∧
  (∃ (s : State) (c : ℕ) (idx : ℕ) (d : List ℕ),
     s.inService ∧ s.gwFree = true ∧ idx < 16777216 ∧ ∀ r ∈ List.map s.route (s.memIdx gwRoutes gwRState 64), (routeCells r).contains idx = false) ∧
  (∃ (s : State) (c : ℕ) (idx : ℕ) (d : List ℕ),
     s.inService ∧
       s.gwFree = true ∧
         idx < 1048576 ∧
           s.descOk (fun (m : ℕ) => some (s.tenonAt m c)) (cmdOcts d 32) = true ∧
             entryValid (cmdOcts d 32) = true ∧ s.pduValid idx = false ∧ s.memIdx gwRoutes gwRState 64 = []) ∧
  (∃ (s : State) (c : ℕ) (idx : ℕ) (d : List ℕ), s.inService ∧ (8388608 ≤ idx ∨ s.gwFree = false)) ∧
  (∃ (s : State) (c : ℕ) (idx : ℕ) (off : ℕ) (len : ℕ) (d : List ℕ),
     s.inService ∧ idx < 1048576 ∧ s.pduValid idx = true ∧ 1 ≤ len ∧ len ≤ 64 ∧ off + len ≤ dImg (s.pduDesc idx)) ∧
  (∃ (s : State) (c : ℕ) (idx : ℕ) (off : ℕ) (len : ℕ) (d : List ℕ),
     s.inService ∧
       idx < 1048576 ∧
         s.pduValid idx = true ∧ 1 ≤ len ∧ len ≤ 64 ∧ off + len ≤ dImg (s.pduDesc idx) ∧ putOcts (s.image (s.pduDesc idx)) off (cmdOcts d len) ≠ s.image (s.pduDesc idx)) ∧
  (∃ (s : State) (c : ℕ) (idx : ℕ), s.inService ∧ idx < 1048576) ∧
  (∃ (s : State) (c : ℕ) (idx : ℕ), s.inService ∧ idx < 8388608 ∧ s.bit SG_CTRL 0 = false) :=
  ⟨⟨sP, 28, 5, [7], by unfold State.inService State.inProcessing; decide +kernel⟩,
   ⟨sP, 28, 16777215, [7, 9,9,9,9,9,9,9,9], by unfold State.inService State.inProcessing; and_intros <;> first | decide +kernel | exact opt_all (by decide +kernel)⟩,
   ⟨(poke (poke (sP.setFld SG_BUDGET 16 16 4) (gwData+64*7) (List.replicate 80 5)) (gwPState+16*5) (List.replicate 16 (0x8B))), 28, 5, (desc 64 3 7), by unfold State.inService State.inProcessing; decide +kernel⟩,
   ⟨sP, 28, 8388608, [7], by unfold State.inService State.inProcessing; and_intros <;> first | decide +kernel | exact Or.inr (by decide +kernel)⟩,
   ⟨sD, 28, 5, 0, 4, [0x11223344], by unfold State.inService State.inProcessing; decide +kernel⟩,
   ⟨sD, 28, 5, 10, 54, [0x11223344], by unfold State.inService State.inProcessing; decide +kernel⟩,
   ⟨sD, 28, 1048575, by unfold State.inService State.inProcessing; decide +kernel⟩,
   ⟨(poke sD (gwRState+16*5) (List.replicate 16 0xFF)), 28, 5, by unfold State.inService State.inProcessing; decide +kernel⟩⟩

theorem wit_GatewayTimerStep :
  (∃ (s : State) (n : ℕ) (r : ℕ) (rest : List TimerAct),
     s.ep.running = some n ∧
       Memory.wf s.mem = true ∧
         r < 8388608 ∧
           s.gw.part = 2 ∧
             s.gw.todo = TimerAct.timeout r :: rest ∧
               s.holdAllows (TimerAct.timeout r) = true ∧ s.gw.full = false ∧ (oct (s.route r) 0).testBit 3 = true ∧ s.bit SG_CTRL 0 = false) ∧
  (∃ (s : State) (n : ℕ) (r : ℕ) (rest : List TimerAct),
     s.ep.running = some n ∧
       Memory.wf s.mem = true ∧ r < 8388608 ∧ s.gw.part = 2 ∧ s.gw.todo = TimerAct.timeout r :: rest ∧ s.holdAllows (TimerAct.timeout r) = true ∧ s.gw.full = true) ∧
  (∃ (s : State) (n : ℕ) (p : ℕ) (rest : List TimerAct) (d : Octets),
     s.ep.running = some n ∧
       Memory.wf s.mem = true ∧
         p < 1048576 ∧
           n < 2 ^ 48 ∧
             s.gw.part = 3 ∧
               s.gw.todo = TimerAct.send p :: rest ∧
                 s.holdAllows (TimerAct.send p) = true ∧
                   s.gw.full = false ∧
                     1 ≤ s.gw.left ∧
                       s.pduDesc p = d ∧
                         s.cycleDue n p = true ∧
                           (oct d 0).testBit 4 = false ∧
                             (oct d 0).testBit 3 = false ∧
                               128 ≤ dPort d ∧
                                 dPort d < 140 ∧
                                   s.gone SB0 n = false ∧
                                     s.wk.qEp = none ∧
                                       s.bayEgressOk (dPort d - 128) (s.image d) = true ∧
                                         s.bit (SC_CL_W0 (dPort d) (dClass d)) 17 = true ∧
                                           s.bit (SC_PCFG (dPort d)) 0 = false ∧
                                             (s.queue (8 * dPort d + dClass d)).depth + List.length (recFrame (bayPad (s.image d))) ≤
                                               s.fld (SC_CL_W3 (dPort d) (dClass d)) 0 24) :=
  ⟨⟨(sT {part := 2, todo := [.timeout 5, .timeout 6]}), 28, 5, [.timeout 6], by decide +kernel⟩,
   ⟨(sT {part := 2, todo := [.timeout 5, .timeout 6], full := true}), 28, 5, [.timeout 6], by decide +kernel⟩,
   ⟨sQ, 28, 5, [], (sQ.pduDesc 5), by decide +kernel⟩⟩

theorem wit_TableCommands :
  (∃ (s : State) (c : ℕ) (idx : ℕ) (d : List ℕ), s.inService ∧ idx < 262144 ∧ directOk (d.getD 0 0 % 2 ^ 32) = true ∧ s.tabFree 1 = true) ∧
  (∃ (s : State) (c : ℕ) (idx : ℕ) (d : List ℕ), s.inService ∧ idx < 262144 ∧ directOk (d.getD 0 0 % 2 ^ 32) = true ∧ s.tabFree 1 = false) ∧
  (∃ (s : State) (c : ℕ) (idx : ℕ) (d : List ℕ) (e : Octets) (i : ℕ),
     s.inService ∧
       idx < 2 ∧
         hTag 3 (tabData d) = e ∧
           hashOk idx e = true ∧
             s.handleTaken idx e = false ∧
               s.tabFree s.insCost = true ∧
                 (s.hfind idx (hKey e) 3 = some i ∨ s.hfind idx (hKey e) 3 = none ∧ s.freeStash idx ≠ none ∧ s.freeSlot idx (buckets idx (hKey e)).1 = some i)) ∧
  (∃ (s : State) (c : ℕ) (idx : ℕ) (d : List ℕ) (e : Octets),
     s.inService ∧
       idx < 2 ∧
         hTag 3 (tabData d) = e ∧ hashOk idx e = true ∧ s.handleTaken idx e = false ∧ s.tabFree s.insCost = true ∧ s.hfind idx (hKey e) 3 = none ∧ s.freeStash idx = none) ∧
  (∃ (s : State) (c : ℕ) (idx : ℕ) (d : List ℕ) (i : ℕ),
     s.inService ∧ idx < 2 ∧ s.tabFree 3 = true ∧ s.hfind idx (hKey (tabData d)) s.genMask = some i ∧ (s.stashEmpty idx ∨ hashSlots idx ≤ i)) ∧
  (∃ (s : State) (c : ℕ) (idx : ℕ) (d : List ℕ), s.inService ∧ idx = 0 ∧ s.tab.filters.length < 4 ∧ s.tabFree 1 = true) :=
  ⟨⟨sA, 28, 262143, [0x12345604], by unfold State.inService State.inProcessing; decide +kernel⟩,
   ⟨sP, 28, 5, [0x12345604], by unfold State.inService State.inProcessing; decide +kernel⟩,
   ⟨sA, 28, 0, (hd 5), e0, (4*(buckets 0 (hKey e0)).1), by unfold State.inService State.inProcessing; and_intros <;> first | decide +kernel | exact Or.inr (by decide +kernel)⟩,
   ⟨(stash0 sA), 28, 0, [4, 99, 9, 0, 0x00000601, 3, 0, 0], (hTag 3 (tabData [4, 99, 9, 0, 0x00000601, 3, 0, 0])), by unfold State.inService State.inProcessing; decide +kernel⟩,
   ⟨sE, 28, 0, (hd 5), (4*(buckets 0 (hKey e0)).1 + 2), by unfold State.inService State.inProcessing; and_intros <;> first | decide +kernel | exact Or.inl (by unfold State.stashEmpty; decide +kernel) | exact Or.inr (by decide +kernel)⟩,
   ⟨sA, 28, 0, [0x1FF], by unfold State.inService State.inProcessing; decide +kernel⟩⟩

theorem wit_PrefixCommands :
  (∃ (s : State) (c : ℕ) (idx : ℕ) (d : List ℕ),
     s.inService ∧
       idx < 1048576 ∧
         s.tab.lpm.length < 16 ∧ s.tabFree 1 = true ∧ prefixOk (tabData d) = true ∧ (s.pairOf (tabData d)).isSome = true ∧ s.prefixElsewhere idx (tabData d) = false) ∧
  (∃ (s : State) (c : ℕ) (idx : ℕ) (d : List ℕ) (e : Octets),
     s.inService ∧ idx < 1048576 ∧ s.tab.lpm.length < 16 ∧ s.tabFree 1 = true ∧ s.handleHeld idx = some e ∧ (s.pairOf e).isSome = true) ∧
  (∃ (s : State) (t : ℕ) (c : LpmCmd) (rest : List LpmCmd),
     s.tab.lpm = c :: rest ∧ c.built = false ∧ c ∉ rest ∧ ∀ (k : ℕ), c.entry.bind s.pairOf = some k → s.tcmOn k = false) ∧
  (∃ (s : State) (n : ℕ) (c : LpmCmd) (rest : List LpmCmd),
     s.tab.lpm = c :: rest ∧
       c.at_ = n ∧
         c.handle < 1048576 ∧
           Memory.wf s.mem = true ∧ c.built = true ∧ c.fits = true ∧ c.overflow = false ∧ s.tab.tcam = [] ∧ ∀ (e : Octets), c.entry = some e → List.length e = 32) ∧
  (∃ (s : State) (n : ℕ) (c : LpmCmd) (rest : List LpmCmd), s.tab.lpm = c :: rest ∧ c.at_ = n ∧ c.handle < 1048576 ∧ Memory.wf s.mem = true ∧ c.built = true ∧ c.fits = false) ∧
  (∃ (s : State) (n : ℕ) (c : LpmCmd) (rest : List LpmCmd),
     s.tab.lpm = c :: rest ∧
       c.at_ = n ∧ c.handle < 1048576 ∧ Memory.wf s.mem = true ∧ c.built = false ∧ s.mode = Mode.solo ∧ s.fld FLT_STATUS 0 5 = 0 ∧ s.fr.swapAt = none ∧ s.ep.guar = false) :=
  ⟨⟨sX, 28, 1048575, pd, by unfold State.inService State.inProcessing; decide +kernel⟩,
   ⟨sY, 28, 10, [], (hTag 3 (tabData pd)), by unfold State.inService State.inProcessing; decide +kernel⟩,
   ⟨{sX with tab := {slots := 9, lpm := [cA, {at_ := 5000, handle := 6, entry := none}]}}, 9000, cA, [{at_ := 5000, handle := 6, entry := none}], by and_intros <;> first | decide +kernel | exact opt_all (by decide +kernel)⟩,
   ⟨{sX with tab := {slots := 9, lpm := [cB]}}, 28, cB, [], by and_intros <;> first | decide +kernel | exact opt_all (by decide +kernel)⟩,
   ⟨{sX with tab := {slots := 9, lpm := [{cB with fits := false}]}}, 28, {cB with fits := false}, [], by decide +kernel⟩,
   ⟨{sX with tab := {slots := 9, lpm := [cA, cB]}}, 28, cA, [cB], by decide +kernel⟩⟩

theorem wit_SweepAndScan :
  (∃ (s : State) (n : ℕ) (e : Octets),
     s.atVisits n ∧
       s.tab.visits ≠ 0 ∧
         s.tab.age < 262176 ∧
           s.hent 0 s.tab.age = e ∧
             hValid e = true ∧
               hLearned e = true ∧ s.hidden e = false ∧ (oct e 0).testBit 4 = false ∧ s.fld TB_CFG 16 8 ≤ oct e 1 + 1 ∧ (s.stashEmpty 0 ∨ hashSlots 0 ≤ s.tab.age)) ∧
  (∃ (s : State) (n : ℕ) (e : Octets),
     s.atVisits n ∧
       s.tab.visits ≠ 0 ∧
         s.tab.age < 262176 ∧
           s.hent 0 s.tab.age = e ∧
             hValid e = true ∧ hLearned e = true ∧ s.hidden e = false ∧ (oct e 0).testBit 4 = true ∧ (oct e 2).testBit 4 = true ∧ s.fld TB_LRNCFG 23 4 ≤ oct e 2 % 16 + 1) ∧
  (∃ (s : State) (n : ℕ) (k : ℕ) (f : FlushFilter), s.atVisits n ∧ s.tab.visits = 0 ∧ s.tab.filters[k]? = some f ∧ f.left ≤ s.fld TB_CFG 8 7) ∧
  (∃ (s : State) (t : ℕ) (r : ℕ) (i : ℕ) (e : Octets) (sh : Octets),
     s.dieOn = true ∧
       s.bit TB_PSCTRL 0 = true ∧
         s.scanPaused = false ∧
           r < 7 ∧
             s.bit TB_PSCTRL (1 + r) = true ∧
               s.fld TB_PSSTAT 0 3 = r ∧
                 s.fld TB_PSPOS 0 24 = i ∧ i + 1 < scanSteps r ∧ s.scanSkips r i = false ∧ s.scanLook r i = (e, sh, true) ∧ ∀ x ∈ s.tab.recs, x.region = r → x.idx ≠ i) ∧
  (∃ (s : State) (t : ℕ) (r : ℕ) (i : ℕ) (e : Octets) (sh : Octets),
     s.dieOn = true ∧
       s.bit TB_PSCTRL 0 = true ∧
         s.scanPaused = false ∧
           r < 7 ∧
             s.bit TB_PSCTRL (1 + r) = true ∧
               s.fld TB_PSSTAT 0 3 = r ∧ s.fld TB_PSPOS 0 24 = i ∧ i + 1 < scanSteps r ∧ s.scanSkips r i = false ∧ s.scanLook r i = (e, sh, false)) ∧
  (∃ (s : State) (t : ℕ) (r : ℕ) (i : ℕ),
     s.dieOn = true ∧
       s.bit TB_PSCTRL 0 = true ∧
         s.scanPaused = false ∧
           r < 7 ∧
             s.bit TB_PSCTRL (1 + r) = true ∧
               s.fld TB_PSSTAT 0 3 = r ∧
                 s.fld TB_PSPOS 0 24 = i ∧
                   i + 1 < scanSteps r ∧ s.scanSkips r i = false ∧ r = 0 ∧ s.fld FLT_STATUS 0 5 = 0 ∧ Memory.wf s.mem = true ∧ s.shBase ≥ 2836 * 2 ^ 20) ∧
  (∃ (s : State) (t : ℕ) (k : ℕ) (x : ScanRec),
     s.tab.recs[k]? = some x ∧ s.tab.recs.length < 32 ∧ x.opened + s.confirmNs ≤ max s.now t ∧ s.scanLook x.region x.idx = (x.ent, x.shadow, true)) ∧
  (∃ (s : State) (t : ℕ) (k : ℕ) (x : ScanRec),
     s.tab.recs[k]? = some x ∧ s.tab.recs.length < 32 ∧ x.opened + s.confirmNs ≤ max s.now t ∧ (s.scanLook x.region x.idx).2.2 = false) :=
  ⟨⟨(sV 262175 (eL 0 255 0)), 28, (eL 0 255 0), by unfold State.atVisits; and_intros <;> first | decide +kernel | exact Or.inl (by unfold State.stashEmpty; decide +kernel) | exact Or.inr (by decide +kernel)⟩,
   ⟨((sV 5 (eL 16 255 0x1F)).setFld TB_LRNCFG 23 4 3), 28, (eL 16 255 0x1F), by unfold State.atVisits; decide +kernel⟩,
   ⟨({sP with tab := {filters := [⟨some 3, 4, 77⟩, ⟨none, 4, 7⟩]}}.setFld TB_CFG 8 7 8), 28, 1, ⟨none, 4, 7⟩, by unfold State.atVisits; decide +kernel⟩,
   ⟨sD0, 9000, 0, 5, [4,0,0,1], [0,0,0,0], by and_intros <;> first | decide +kernel | exact opt_all (by decide +kernel)⟩,
   ⟨(sS 0 5), 9000, 0, 5, [0,0,0,0], [0,0,0,0], by decide +kernel⟩,
   ⟨(sD0.setFld TB_PSBASE 0 12 0xB15), 9000, 0, 5, by decide +kernel⟩,
   ⟨{sD0 with tab := {recs := [⟨1,2,[],[],0⟩, rc]}}, 900000000000, 1, rc, by decide +kernel⟩,
   ⟨{(sS 0 5) with tab := {recs := [⟨1,2,[],[],0⟩, rc]}}, 900000000000, 1, rc, by decide +kernel⟩⟩

theorem wit_MetersGatesHistograms :
  (∃ (s : State) (c : ℕ) (idx : ℕ) (d : List ℕ) (e : Octets), s.inService ∧ padTo 24 (List.flatMap (natLE 4) d) = e ∧ idx < 16384 ∧ meterOk e = true) ∧
  (∃ (s : State) (c : ℕ) (idx : ℕ) (d : List ℕ), s.inService ∧ idx < 16384) ∧
  (∃ (s : State) (c : ℕ) (idx : ℕ) (d : List ℕ), s.inService ∧ 16384 ≤ idx) ∧
  (∃ (s : State) (c : ℕ) (idx : ℕ) (d : List ℕ) (bay : ℕ), s.inService ∧ bay < 12 ∧ s.sch.plan.length = 12 ∧ (s.planner bay).pend = false ∧ s.gateOk bay = true) ∧
  (∃ (s : State) (c : ℕ) (idx : ℕ) (d : List ℕ) (bay : ℕ), s.inService ∧ bay < 12 ∧ s.sch.plan.length = 12 ∧ (s.planner bay).pend = true) ∧
  (∃ (s : State) (t : ℕ) (bay : ℕ) (old : GateCur),
     bay < 12 ∧ s.sch.plan.length = 12 ∧ (s.planner bay).pend = true ∧ (s.planner bay).ct ≤ t ∧ (s.planner bay).cur.getD { } = old) ∧
  (∃ (s : State) (c : ℕ), s.inService ∧ s.ok) :=
  ⟨⟨sP, 28, 16383, [0x04, 1, 2, 100, 0xFFFFFF, 0], (padTo 24 ([0x04, 1, 2, 100, 0xFFFFFF, 0].flatMap (natLE 4))), by unfold State.inService State.inProcessing; decide +kernel⟩,
   ⟨(poke sP (meterAt 5) (List.replicate 64 0xFF)), 28, 5, [], by unfold State.inService State.inProcessing; decide +kernel⟩,
   ⟨sP, 28, 16384, [], by unfold State.inService State.inProcessing; decide +kernel⟩,
   ⟨(sG 7), 28, 16384, [], 11, by unfold State.inService State.inProcessing; decide +kernel⟩,
   ⟨{(sG 7) with sch := {plan := (List.replicate 12 {}).set 11 {pend := true}}}, 28, 16384, [], 11, by unfold State.inService State.inProcessing; decide +kernel⟩,
   ⟨{(sG 7) with sch := {plan := (List.replicate 12 {}).set 11 {pend := true, ct := 500, cur := some old}}}, 600, 11, old, by decide +kernel⟩,
   ⟨(((sP.wrN 0x340000 5).wrN 0x362FFC 7).wrN 0x363000 3), 28, by unfold State.inService State.inProcessing State.ok; decide +kernel⟩⟩

end Sys2Proof.Tests.Tables

namespace Sys2Proof.Tests.Keys

def s0 : State := {State.reset with ks := {}}
def img1 : NvImage := {slots := ({state := 1, attr := 0x00FFE703} : RootSlot) :: List.replicate 31 {}}
def sP : State := { s0 with mode := .solo, now := 1000, ep := { cur := some 30, start := 120000, stop := 128000, lag := 1, running := some 28 }, tw := {driving := true} }
def spi (s : State) : State := s.wrN HB_PORTCFG 0x300
def upd : KeyUpd := {op := 1, slot := 5, counter := 77, attr := 3, data := List.replicate 32 9}
def sB (st : Nat) (c : List Commit := []) (e : Option Nat := none): State := {sP.setFld KS_UPST 0 3 st with ks := {upd := some upd, commits := c, effect := e, cur := img1, slots := img1.slots, banks := [{ok := true, seq := 4}, {seq := 3}]}}
def sh : ShelfKey := ⟨3, 9, [1], 256, [2]⟩
def imgT : NvImage := {slots := ({state := 1, attr := 0x00FFE707, counter := 8, key := List.replicate 32 1} : RootSlot) :: ({state := 1, attr := 0x00FFE703, counter := 8, key := List.replicate 32 1} : RootSlot) :: List.replicate 30 {}, tamp := List.replicate 6 0x105}
def sTm : State := {sP with ks := {cur := imgT, slots := imgT.slots, shelf := [sh]}}
def attrJ := 1 + 256*0xFF * 256 + (2 ^ 12+2^13+2^9)
def sJ : State := {(sP.wrN CP_HJKEY 3) with ks := {lc := 1, slots := (List.replicate 32 {}).set 3 {state := 1, attr := attrJ, gen := 4}, shelf := [⟨3, 4, zeros 16, 128, List.replicate 16 7⟩]}}
def sBn : State := {s0 with mode := .bench, now := 1000}
def mzs : List Mortise := (List.replicate 128 {tenon := .can, st := .inService, pins := .tenon} : List Mortise).set 5 {tenon := .can, st := .inService, pins := .tenon, can := {wire := some 3}}
def sM : State := (List.range 32).foldl (fun s r => s.wrN (WK_RNG_TIM r) 0x0FFF0000) sP
def rg (r : Nat) (x : Ring) (s := sP) : State := {(s.setBit (WK_RNG_CFG r) 7 true) with wk := {woke := true, ringsDone := r, rings := (List.replicate 32 {}).set r x}}
def rg2 (r : Nat) (x : Ring) (s := sP) : State := {((s.setBit (WK_RNG_CFG r) 7 true).setFld (WK_RNG_CFG r) 0 7 3) with wk := {woke := true, st := 1, ringsDone := r, rings := (List.replicate 32 {}).set r x}, mz := (List.replicate 128 {}).set 3 {tenon := .can, st := .inService, pins := .tenon}}
def pn (p : Nat) (x : PartNet) : State := {(sP.setBit (WK_PN_CFG p) 16 true) with wk := {woke := true, ringsDone := 32, netsDone := p, nets := (List.replicate 32 {}).set p x}}
def aw : State := {((sP.setBit (WK_PN_CFG 3) 16 true).setBit (WK_PN_CFG 3) 17 true).setFld WK_MAXAW 0 16 1 with wk := {awake := 3000000, nets := List.replicate 32 {until_ := some 40, lastport := 7, blocked := [1]}}}
def rec : Octets := padTo 64 ([BitVec.ofNat 8 3] ++ List.replicate 60 5)
def recs (i : Nat) : List Octets := (List.range 13).map fun k => if k = i then rec else zeros 64
def sC (c i : Nat) (v : Nat) : State := {sP with fr := {cfg := List.range 13, recs := [padTo 64 (BitVec.ofNat 8 c :: List.replicate 60 5)], bents := (List.replicate 13 .absent).set i .inService}, pw := {clk := (List.replicate 13 0).set i v}}

theorem wit_KeyUpdates :
  (∃ (s : State) (t : ℕ) (ms : Master) (w : World), s.secureHost ms w ∧ s.fld KS_UPST 0 3 = 0) ∧
  (∃ (s : State) (t : ℕ), s.dieOn = true ∧ s.fld KS_UPST 0 3 = 1) ∧
  (∃ (s : State) (ms : Master) (w : World), s.secureHost ms w ∧ s.fld KS_UPST 0 3 = 2) ∧
  (∃ (s : State) (ms : Master) (w : World), s.secureHost ms w ∧ 3 ≤ s.fld KS_UPST 0 3) ∧
  (∃ (s : State) (c : ℕ) (a : ℕ), s.inService ∧ s.fld KS_UPST 0 3 ≠ 2) ∧
  (∃ (s : State) (c : ℕ) (a : ℕ) (x : KeyUpd), s.inService ∧ s.fld KS_UPST 0 3 = 2 ∧ s.ks.upd = some x ∧ a < c + cdiv 50000000 s.elen) ∧
  (∃ (s : State) (c : ℕ) (a : ℕ) (x : KeyUpd),
     s.inService ∧
       s.fld KS_UPST 0 3 = 2 ∧ s.ks.upd = some x ∧ c + cdiv 50000000 s.elen ≤ a ∧ s.ks.commits = [] ∧ s.nvOther.wear < 100000 ∧ s.ks.banks.length = 2 ∧ s.ks.bank < 2) ∧
  (∃ (s : State) (k : ℕ) (e : ShelfKey), s.ks.shelf[k]? = some e ∧ e.gen ≠ (s.slot e.slot).gen) :=
  ⟨⟨sP, 2000, .pcie0, .secure, by and_intros <;> first | decide +kernel | exact secureHost_of (by decide +kernel)⟩,
   ⟨(sP.setFld KS_UPST 0 3 1), 2000, by decide +kernel⟩,
   ⟨({sP.setFld KS_UPST 0 3 2 with ks := {upd := some upd}}), .pcie0, .secure, by and_intros <;> first | decide +kernel | exact secureHost_of (by decide +kernel)⟩,
   ⟨({(spi sP).setFld KS_UPST 0 3 3 with ks := {upd := some upd}}), .spi, .secure, by and_intros <;> first | decide +kernel | exact secureHost_of (by decide +kernel)⟩,
   ⟨sP, 28, 7000, by unfold State.inService State.inProcessing; decide +kernel⟩,
   ⟨(sB 2), 28, (27 + cdiv 50000000 (sB 2).elen), upd, by unfold State.inService State.inProcessing; decide +kernel⟩,
   ⟨(sB 2), 28, 20000, upd, by unfold State.inService State.inProcessing; decide +kernel⟩,
   ⟨{sP with ks := {shelf := [⟨1,0,[],1,[]⟩, sh]}}, 1, sh, by decide +kernel⟩⟩

theorem wit_KeyCommits :
  (∃ (s : State) (t : ℕ) (c : Commit), s.dieOn = true ∧ s.ks.commits = [c] ∧ s.ks.banks.length = 2 ∧ s.ks.bank < 2 ∧ s.nvOther.wear < 94999) ∧
  (∃ (s : State) (t : ℕ) (c : Commit) (x : KeyUpd) (a : ℕ),
     s.dieOn = true ∧ s.ks.commits = [c] ∧ s.ks.banks.length = 2 ∧ s.ks.bank < 2 ∧ s.nvOther.wear < 94999 ∧ c = Commit.update x true ∧ s.ks.effect = some a) ∧
  (∃ (s : State) (t : ℕ) (c : Commit) (x : KeyUpd),
     s.dieOn = true ∧ s.ks.commits = [c] ∧ s.ks.banks.length = 2 ∧ s.ks.bank < 2 ∧ s.nvOther.wear < 94999 ∧ c = Commit.update x true ∧ s.ks.effect = none) ∧
  (∃ (s : State) (t : ℕ) (c : Commit) (x : KeyUpd),
     s.dieOn = true ∧
       s.ks.commits = [c] ∧
         s.ks.banks.length = 2 ∧
           s.ks.bank < 2 ∧ s.nvOther.wear < 94999 ∧ c = Commit.update x true ∧ s.mode = Mode.solo ∧ s.fld FLT_STATUS 0 5 = 0 ∧ s.fr.swapAt = none ∧ s.ep.guar = false) ∧
  (∃ (s : State) (n : ℕ) (x : KeyUpd),
     s.ks.upd = some x ∧ s.ks.effect = some n ∧ s.fld KS_UPST 0 3 = 4 ∧ (x.op = 1 ∨ x.op = 2) ∧ s.ks.cleared = false ∧ x.slot < s.ks.slots.length) ∧
  (∃ (s : State) (n : ℕ) (x : KeyUpd),
     s.ks.upd = some x ∧ s.ks.effect = some n ∧ s.fld KS_UPST 0 3 = 3 ∧ s.mode = Mode.solo ∧ s.fld FLT_STATUS 0 5 = 0 ∧ s.fr.swapAt = none ∧ s.ep.guar = false) :=
  ⟨⟨(sB 3 [.update upd true]), 5000, (.update upd true), by decide +kernel⟩,
   ⟨(sB 3 [.update upd true] (some 28)), 5000, (.update upd true), upd, 28, by decide +kernel⟩,
   ⟨(sB 3 [.update upd true]), 5000, (.update upd true), upd, by decide +kernel⟩,
   ⟨(sB 3 [.update upd true] (some 28)), 5000, (.update upd true), upd, by decide +kernel⟩,
   ⟨(sB 4 [] (some 28)), 28, upd, by and_intros <;> first | decide +kernel | exact Or.inr (by decide +kernel)⟩,
   ⟨(sB 3 [] (some 28)), 28, upd, by decide +kernel⟩⟩

theorem wit_TamperAndStatements :
  (∃ (s : State) (t : ℕ), ∃ src < 6, s.sill.vsill = true ∧ (nth s.ks.cur.tamp src).testBit 0 = true ∧ s.ks.commits = []) ∧
  (∃ (s : State) (t : ℕ), ∃ src < 6, s.sill.vsill = true ∧ (nth s.ks.cur.tamp src).testBit 0 = true ∧ s.ks.commits = [] ∧ s.dieOn = false) ∧
  (∃ (s : State) (t : ℕ),
     ∃ src < 6,
       s.sill.vsill = true ∧
         (nth s.ks.cur.tamp src).testBit 0 = true ∧
           s.ks.commits = [] ∧ s.dieOn = true ∧ s.mode = Mode.solo ∧ s.wk.st = 0 ∧ s.fld FLT_STATUS 0 5 = 0 ∧ s.fr.swapAt = none ∧ s.ep.guar = false) ∧
  (∃ (s : State) (ms : Master) (w : World) (src : ℕ) (val : Word), s.secureHost ms w ∧ src < 6 ∧ s.ks.lc ≤ 1 ∧ s.ks.commits = [] ∧ s.nvOther.wear < 100000) ∧
  (∃ (s : State) (ms : Master) (w : World) (src : ℕ) (val : Word), s.secureHost ms w ∧ src < 6 ∧ 2 ≤ s.ks.lc) ∧
  (∃ (s : State) (t : ℕ) (ms : Master) (w : World), s.reaches ms (worldOf ms w) ∧ isHost ms = true ∧ s.bit KS_ATTCTL 1 = false) ∧
  (∃ (s : State) (t : ℕ) (d : Octets), s.ks.att = some d) :=
  ⟨⟨sTm, 5000, 5, by decide +kernel⟩,
   ⟨{sTm with mode := .watch, sill := {vsill := true, latched := [{src := 1}]}}, 5000, 5, by decide +kernel⟩,
   ⟨sTm, 5000, 0, by decide +kernel⟩,
   ⟨(sB 0), .pcie0, .secure, 5, 0xFFFFFFFF, by and_intros <;> first | decide +kernel | exact secureHost_of (by decide +kernel)⟩,
   ⟨{sP with ks := {lc := 2}}, .pcie0, .secure, 0, 0xFFFFFFFF, by and_intros <;> first | decide +kernel | exact secureHost_of (by decide +kernel)⟩,
   ⟨((spi sP).setBit KS_ATTCTL 2 true), 5000, .spi, .normal, by and_intros <;> first | decide +kernel | exact reaches_of (by decide +kernel)⟩,
   ⟨{(sP.setBit KS_ATTCTL 1 true) with ks := {att := some (List.replicate 152 3)}}, 5000, (List.replicate 152 3), by decide +kernel⟩⟩

theorem wit_CipherCommandsAndJobs :
  (∃ (s : State) (c : ℕ) (idx : ℕ) (d : List ℕ), s.inService ∧ idx < 65536 ∧ bitsN (oct (padTo 8 (wordsOctets d)) 7) 1 7 = 0) ∧
  (∃ (s : State) (c : ℕ) (idx : ℕ) (d : List ℕ), s.inService ∧ 65536 ≤ idx) ∧
  (∃ (s : State) (c : ℕ) (idx : ℕ) (d : List ℕ),
     s.inService ∧ idx < 1024 ∧ s.bit FR_STATUS 5 = false ∧ s.bit FR_STATUS 6 = false ∧ profOk (fun (r : ℕ) => (s.recipe r).cls) (padTo 32 (wordsOctets d)) = true) ∧
  (∃ (s : State) (c : ℕ) (idx : ℕ) (d : List ℕ), s.inService ∧ (1024 ≤ idx ∨ s.bit FR_STATUS 5 = true)) ∧
  (∃ (s : State) (t : ℕ) (ms : Master) (w : World) (lbl : Octets) (inp : Octets) (e : ShelfKey),
     s.reaches ms (worldOf ms w) ∧
       isHost ms = true ∧
         s.bit CP_HJCTL 2 = false ∧
           lbl = List.flatMap (fun (k : ℕ) => natLE 4 (s.rdN (CP_HJLBL k))) (List.range 4) ∧
             inp = List.flatMap (fun (k : ℕ) => natLE 4 (s.rdN (CP_HJIN k))) (List.range 4) ∧
               s.mayDerive (s.fld CP_HJKEY 0 5) lbl ms (worldOf ms w) = true ∧
                 List.find?
                     (fun (e : ShelfKey) =>
                       e.slot == s.fld CP_HJKEY 0 5 && e.gen == (s.slot (s.fld CP_HJKEY 0 5)).gen && e.lbl == lbl && e.bits == if s.bit CP_HJKEY 8 = true then 256 else 128)
                     s.ks.shelf =
                   some e) ∧
  (∃ (s : State) (t : ℕ) (ms : Master) (w : World) (lbl : Octets) (inp : Octets),
     s.reaches ms (worldOf ms w) ∧
       isHost ms = true ∧
         s.bit CP_HJCTL 2 = false ∧
           lbl = List.flatMap (fun (k : ℕ) => natLE 4 (s.rdN (CP_HJLBL k))) (List.range 4) ∧
             inp = List.flatMap (fun (k : ℕ) => natLE 4 (s.rdN (CP_HJIN k))) (List.range 4) ∧ s.mayDerive (s.fld CP_HJKEY 0 5) lbl ms (worldOf ms w) = false) ∧
  (∃ (s : State) (t : ℕ) (key : Option Octets) (dec : Bool) (inp : Octets), s.cp.job = some (key, dec, inp)) :=
  ⟨⟨sP, 28, 65535, [1, 0x00FFFFFF], by unfold State.inService State.inProcessing; decide +kernel⟩,
   ⟨sP, 28, 65536, [1, 0x00FFFFFF], by unfold State.inService State.inProcessing; decide +kernel⟩,
   ⟨sP, 28, 1023, [], by unfold State.inService State.inProcessing; decide +kernel⟩,
   ⟨sP, 28, 1024, [], by unfold State.inService State.inProcessing; and_intros <;> first | decide +kernel | exact Or.inr (by decide +kernel)⟩,
   ⟨sJ, 5000, .pcie0, .secure, (zeros 16), (zeros 16), ⟨3, 4, zeros 16, 128, List.replicate 16 7⟩, by and_intros <;> first | decide +kernel | exact reaches_of (by decide +kernel)⟩,
   ⟨(spi sJ), 5000, .spi, .secure, (zeros 16), (zeros 16), by and_intros <;> first | decide +kernel | exact reaches_of (by decide +kernel)⟩,
   ⟨{sJ.setBit CP_HJCTL 2 true with cp := {job := some (some (zeros 32), true, zeros 16)}}, 5000, (some (zeros 32)), true, (zeros 16), by decide +kernel⟩⟩

theorem wit_SleepSequence :
  (∃ (s : State) (t : ℕ) (c : ℕ), s.inService ∧ s.wk.st = 0 ∧ s.wk.go ≠ some c) ∧
  (∃ (s : State) (t : ℕ) (c : ℕ) (q : ℕ), s.inService ∧ s.wk.st = 1 ∧ s.wk.qEp = some q) ∧
  (∃ (s : State) (t : ℕ) (c : ℕ) (x : ℕ), s.inService ∧ s.ep.running = some x ∧ s.wk.st ≠ 0 ∧ s.wk.benchAt = none ∧ ∀ (k : ℕ), s.wk.cEp = some k → x ≤ k) ∧
  (∃ (s : State) (t : ℕ) (c : ℕ), s.inService) ∧
  (∃ (s : State) (t : ℕ) (c : ℕ), s.dieOn = true ∧ s.mode = Mode.bench ∧ s.held = [] ∧ s.wk.st = 0) ∧
  (∃ (s : State) (t : ℕ) (q : ℕ) (c : ℕ), s.wk.st = 1 ∧ s.wk.qEp = some q ∧ s.ep.cur = some c ∧ q ≤ c ∧ s.mz.length = 128) ∧
  (∃ (s : State) (t : ℕ), s.dieOn = true ∧ (s.tick t).atCommit t = true) :=
  ⟨⟨(sP.setFld WK_SLPCFG 0 14 0x3FFF), 5000, 28, by unfold State.inService State.inProcessing; decide +kernel⟩,
   ⟨{sP with wk := {st := 1, qEp := some 7000}}, 5000, 28, 7000, by unfold State.inService State.inProcessing; decide +kernel⟩,
   ⟨{sP with wk := {st := 2, quiesce := true, cEp := some 40}}, 5000, 28, 28, by unfold State.inService State.inProcessing; and_intros <;> first | decide +kernel | exact opt_all (by decide +kernel)⟩,
   ⟨{sP with wk := {st := 1, qEp := some 28, awake := 4, expired := true, nets := List.replicate 32 {blocked := [3]}}}, 5000, 28, by unfold State.inService State.inProcessing; decide +kernel⟩,
   ⟨(sBn.setBit WK_SLPCFG 1 true), 5000, 3, by decide +kernel⟩,
   ⟨{((sP.wrN WK_WKCFG 0xFFFF).wrN WK_TIMER 0x7654321).wrN WK_T1SARM 0xFFFF with mz := mzs, wk := {st := 1, qEp := some 29}}, 5000, 29, 30, by decide +kernel⟩,
   ⟨{((sP.wrN WK_WKCFG 0xFFFF).wrN WK_TIMER 0x7654321).wrN WK_T1SARM 0xFFFF with ep := {sP.ep with done := some 30}, mz := mzs, wk := {st := 2, sill := true, cEp := some 30}}, 125000, by decide +kernel⟩⟩

theorem wit_NetworkManagement :
  (∃ (s : State) (n : ℕ) (r : ℕ) (e : ℕ) (k : ℕ),
     s.ep.running = some n ∧
       r < 32 ∧
         s.wk.rings.length = 32 ∧
           s.wk.woke = true ∧
             s.wk.ringsDone = r ∧
               s.bit (WK_RNG_CFG r) 7 = true ∧
                 (s.ring r).asleep = false ∧ (s.ring r).owe = false ∧ (s.ring r).pass = some (e, k) ∧ e ≤ n ∧ s.startDue n r = false ∧ s.lossDue n r = false) ∧
  (∃ (s : State) (n : ℕ) (r : ℕ),
     s.ep.running = some n ∧
       r < 32 ∧
         s.wk.rings.length = 32 ∧
           s.wk.woke = true ∧
             s.wk.ringsDone = r ∧
               s.bit (WK_RNG_CFG r) 7 = true ∧ (s.ring r).asleep = false ∧ (s.ring r).owe = false ∧ (s.ring r).pass = none ∧ s.startDue n r = true ∧ s.lossDue n r = false) ∧
  (∃ (s : State) (n : ℕ) (r : ℕ),
     s.ep.running = some n ∧
       r < 32 ∧
         s.wk.rings.length = 32 ∧
           s.wk.woke = true ∧
             s.wk.ringsDone = r ∧
               s.bit (WK_RNG_CFG r) 7 = true ∧ (s.ring r).asleep = false ∧ (s.ring r).owe = false ∧ (s.ring r).pass = none ∧ s.startDue n r = false ∧ s.lossDue n r = true) ∧
  (∃ (s : State) (n : ℕ) (p : ℕ) (e : ℕ),
     s.ep.running = some n ∧
       p < 32 ∧
         s.wk.nets.length = 32 ∧
           s.wk.woke = true ∧
             s.wk.ringsDone = 32 ∧ s.wk.netsDone = p ∧ s.bit (WK_PN_CFG p) 16 = true ∧ (s.net p).until_ = some e ∧ e ≤ n ∧ s.pnOwn p = false ∧ (s.net p).awake = true) ∧
  (∃ (s : State) (n : ℕ), s.ep.running = some n ∧ s.wk.woke = false ∧ s.gw.part = 0 ∧ s.awakeDue = true ∧ s.wk.nets.length = 32) :=
  ⟨⟨(rg 31 {pass := some (28, 7), members := [(3,27)], tokenAt := 27} sM), 28, 31, 28, 7, by decide +kernel⟩,
   ⟨(rg2 0 {members := [], tokenAt := 27, aliveAt := some (28 - (rg2 0 {} sM).ringTyp 0)} sM), 28, 0, by decide +kernel⟩,
   ⟨(rg2 31 {members := [(3,27)], tokenAt := 0} sP), 28, 31, by decide +kernel⟩,
   ⟨(pn 31 {until_ := some 28, awake := true, blocked := [3]}), 28, 31, 28, by decide +kernel⟩,
   ⟨aw, 28, by decide +kernel⟩⟩

theorem wit_PowerTripsAndRamps :
  (∃ (s : State) (t : ℕ) (current : ℕ) (temp : ℕ),
     s.dieOn = true ∧
       s.bit PW_STATUS 0 = false ∧ (s.tripCurrent < current ∨ s.tripTemp < temp) ∧ s.mode = Mode.solo ∧ s.fld FLT_STATUS 0 5 = 0 ∧ s.fr.swapAt = none ∧ s.ep.guar = false) ∧
  (∃ (s : State) (t : ℕ) (current : ℕ) (temp : ℕ), s.dieOn = true ∧ current ≤ s.tripCurrent ∧ temp ≤ s.tripTemp) ∧
  (∃ (s : State) (t : ℕ) (current : ℕ) (temp : ℕ),
     s.dieOn = true ∧ s.bit PW_STATUS 0 = true ∧ 10 * current < 9 * s.tripCurrent ∧ 10 * temp < 9 * s.tripTemp ∧ s.pw.highAt + 10000000 ≤ t) ∧
  (∃ (s : State) (t : ℕ) (current : ℕ) (temp : ℕ),
     s.dieOn = true ∧ s.bit PW_STATUS 0 = true ∧ 10 * current < 9 * s.tripCurrent ∧ 10 * temp < 9 * s.tripTemp ∧ t < s.pw.highAt + 10000000) ∧
  (∃ (s : State) (t : ℕ) (code : ℕ) (i : ℕ) (r : Octets),
     s.dieOn = true ∧
       bentIdx code = some i ∧
         s.anyRec i = some r ∧
           (s.tick t).ramping = false ∧ (∀ j < i, (s.tick t).rampWaits j = false) ∧ nth s.pw.clk i = 0 ∧ s.bent i ≠ BentSt.isolated ∧ s.fr.cfg.contains i = true) ∧
  (∃ (s : State) (t : ℕ) (code : ℕ) (i : ℕ) (r : Octets),
     s.dieOn = true ∧
       bentIdx code = some i ∧
         s.anyRec i = some r ∧
           (s.tick t).ramping = false ∧ (∀ j < i, (s.tick t).rampWaits j = false) ∧ nth s.pw.clk i = 2 ∧ s.demanded i = false ∧ s.bent i ≠ BentSt.awaiting) :=
  ⟨⟨sP, 5000, 511, 191, by and_intros <;> first | decide +kernel | exact Or.inr (by decide +kernel)⟩,
   ⟨sP, 5000, sP.tripCurrent, sP.tripTemp, by decide +kernel⟩,
   ⟨{sP.setBit PW_STATUS 0 true with pw := {divided := true, highAt := 5}}, 10000005, 10, 20, by decide +kernel⟩,
   ⟨{sP.setBit PW_STATUS 0 true with pw := {divided := true, highAt := 5}}, 10000004, 10, 20, by decide +kernel⟩,
   ⟨(sC 0 0 0), 5000, 0, 0, ((((sC 0 0 0)).anyRec 0).getD []), by and_intros <;> first | decide +kernel | exact opt_all (by decide +kernel)⟩,
   ⟨(sC 7 7 2), 5000, 7, 7, ((((sC 7 7 2)).anyRec 7).getD []), by and_intros <;> first | decide +kernel | exact opt_all (by decide +kernel)⟩⟩

end Sys2Proof.Tests.Keys

namespace Sys2Proof.Tests

theorem wit_StepKeepsWellFormed : ∃ s u : State, s.ok ∧ s.pending ≠ [] ∧ step s = .next u :=
  ⟨{ reset0 with pending := [.modeRequest .pcie0 .secure .bench] }, _, by unfold State.ok; decide +kernel, by decide +kernel, rfl⟩

theorem wit_QueueGradeAndTimeAreKept : ∃ (s u : State) (c : Instr), exec c s = .next u :=
  ⟨reset0, _, .tbLost 5, rfl⟩

end Sys2Proof.Tests
end

section
/-! PROOFS. How a re-tenoning drains what is on the wire at the start of G, and how the drain ends (R106, R111, R112, R149). -/
set_option Elab.async false
namespace Sys2Proof.Machine
open Sys2Proof

/-! ### What a fold of updates and the updates of one mortise leave unchanged -/

/-- A view of the state that no step of a fold changes is the same after the fold. -/
theorem foldl_view {α β : Type} (v : State → β) (f : State → α → State) (l : List α) (s : State) (h : ∀ s, ∀ x ∈ l, v (f s x) = v s) :
    v (l.foldl f s) = v s := by
  induction l generalizing s with
  | nil => rfl
  | cons x l ih =>
    rw [List.foldl_cons, ih _ fun s y hy => h s y (List.mem_cons_of_mem _ hy)]
    exact h s x List.mem_cons_self

/-- An operation that may not change the mortises leaves each of them as it was. -/
theorem Keeps.mort_eq {c : Nat} {s t : State} (h : Keeps c s t) (e : c.testBit 13 = false) (m : Nat) : t.mort m = s.mort m :=
  congrArg (fun l : List Mortise => nth l m) (show t.mz = s.mz from h.at_ 13 e)

theorem mort_onMort_ne (s : State) {m k : Nat} (f : Mortise → Mortise) (h : k ≠ m) : (s.onMort m f).mort k = s.mort k := by
  rw [mort_onMort, if_neg fun e => h e.1]

theorem mort_onMort_same (s : State) {m : Nat} (f : Mortise → Mortise) (h : m < s.mz.length) : (s.onMort m f).mort m = f (s.mort m) := by
  rw [mort_onMort, if_pos ⟨rfl, h⟩]

@[simp] theorem mort_loadRegs (s : State) (a n k : Nat) (l : Octets) : (s.loadRegs a n l).mort k = s.mort k :=
  (State.loadRegs_keeps (c := 0x20) rfl (.refl _ s) a n l).mort_eq rfl k

@[simp] theorem mort_loadHcopy (s : State) (m k : Nat) (d : Octets) : (s.loadHcopy m d).mort k = s.mort k :=
  (State.loadHcopy_keeps (c := 0x20) rfl (.refl _ s) m d).mort_eq rfl k

@[simp] theorem mort_evtOf (s : State) (n a j k : Nat) : (s.evtOf n a j).mort k = s.mort k :=
  (State.evtOf_keeps (c := 0x4000420) rfl (.refl _ s) n a j).mort_eq rfl k

/-! ### A bent entering at a swap touches its own sixteen mortises only -/

theorem mort_loadCan_ne (s : State) {m k : Nat} (d : Octets) (h : k ≠ m) : (s.loadCan m d).mort k = s.mort k := by
  unfold State.loadCan
  extract_lets s1 s2 s3 s4 s5 op s6 s7
  have h4 : s4.mort k = s.mort k := by simp [s4, s3, s2, s1]
  have h5 : s5.mort k = s4.mort k := foldl_view (State.mort · k) _ _ s4 fun s i _ => by simp
  have h7 : s7.mort k = s.mort k := by
    rw [← h4, ← h5, show s7.mort k = s6.mort k from mort_onMort_ne s6 _ h]
    simp [s6]
  split
  · rw [mort_loadRegs, mort_loadRegs, h7]
  · exact h7

theorem mort_loadLin_ne (s : State) {m k : Nat} (d : Octets) (h : k ≠ m) : (s.loadLin m d).mort k = s.mort k := by
  unfold State.loadLin
  extract_lets s1 s2 run s3 s4
  have h4 : s4.mort k = s.mort k := by
    rw [show s4.mort k = s3.mort k from mort_onMort_ne _ _ h]
    simp [s3, s2, s1]
  split
  · rw [mort_loadRegs, h4]
  · exact h4

theorem mort_loadTenon_ne (s : State) {m k : Nat} (d : Octets) (h : k ≠ m) : (s.loadTenon m d).mort k = s.mort k := by
  unfold State.loadTenon
  extract_lets s1 s2
  have h2 : s2.mort k = s.mort k := mort_onMort_ne _ _ h
  split
  · rw [mort_loadCan_ne _ _ h, h2]
  · rw [mort_loadLin_ne _ _ h, h2]
  · rw [State.loadT1s, mort_loadRegs, h2]
  · rw [State.loadT1s, mort_loadRegs, h2]
  · exact h2

theorem mort_configMort_ne (s : State) {m k : Nat} (d : Octets) (h : k ≠ m) : (s.configMort m d).mort k = s.mort k := by
  unfold State.configMort
  extract_lets old s1
  have h1 : s1.mort k = s.mort k := (mort_onMort_ne _ _ h).trans (mort_loadTenon_ne _ _ h)
  split
  rw [← h1]
  exact foldl_view (State.mort · k) _ _ _ fun _ _ _ => rfl

theorem mort_configMB_ne (s : State) {i k : Nat} (x : Octets) (h : k / 16 ≠ i) : (s.configMB i x).mort k = s.mort k := by
  unfold State.configMB
  refine foldl_view (State.mort · k) _ _ _ fun s j hj => mort_configMort_ne _ _ ?_
  have := List.mem_range.mp hj
  omega

theorem mort_enterMort_ne (s : State) {m k : Nat} (n : Nat) (h : k ≠ m) : (s.enterMort n m).mort k = s.mort k := by
  unfold State.enterMort
  split
  · exact mort_onMort_ne _ _ h
  · extract_lets s1 s2 s3
    have h1 : s1.mort k = s.mort k := (mort_onMort_ne _ _ h).trans (mort_onMort_ne _ _ h)
    have h2 : s2.mort k = s.mort k := by
      rw [← h1]; unfold s2; split
      · exact mort_onMort_ne _ _ h
      · rfl
    rw [mort_evtOf, ← h2]; unfold s3; split
    · exact mort_onMort_ne _ _ h
    · rfl

theorem mort_bentIn_ne (s : State) {i k : Nat} (n : Nat) (h : k / 16 ≠ i) : (s.bentIn n i).mort k = s.mort k := by
  unfold State.bentIn State.enterMB
  extract_lets s1 s2
  split
  · refine (foldl_view (State.mort · k) _ _ _ fun s j hj => ?_).trans (rfl : s2.mort k = s.mort k)
    have := List.mem_range.mp hj
    rw [mort_enterMort_ne _ _ (by omega), mort_loadHcopy]
  · rfl

/-- Where a swap replaces SB0 under a mortise, at most its CAN tenon changes: a matrix waits there (R200). -/
theorem mort_planSwap (s : State) (m k : Nat) (x : Octets) :
    ∃ c, (s.planSwap m x).mort k = { s.mort k with can := c } := by
  unfold State.planSwap
  split
  · unfold State.matrixSwap State.onCan
    rw [mort_onMort]
    split
    · rename_i h; rw [h.1]; exact ⟨_, rfl⟩
    · exact ⟨_, rfl⟩
  · rw [mort_loadRegs]; exact ⟨_, rfl⟩
  · exact ⟨_, rfl⟩

/-! ### Re-tenoning one mortise -/

/-- The start of an epoch follows from the epoch engine and EP_CTRL (R45, R47). -/
theorem epochStart_congr {s t : State} (he : t.ep = s.ep) (hr : t.rdN EP_CTRL = s.rdN EP_CTRL) (n : Nat) : t.epochStart n = s.epochStart n := by
  unfold State.epochStart State.elen State.fld
  rw [he, hr]

/-- Whether a mortise still needs its pins follows from the time, the right to drive, the mortise and its LIN configuration (R111). -/
theorem onWire_congr {s t : State} {m : Nat} (hn : t.now = s.now) (hm : t.mode = s.mode) (ht : t.tw = s.tw) (hx : t.mort m = s.mort m)
    (hc : t.rdN (LN_CFG m) = s.rdN (LN_CFG m)) (hb : t.rdN (LN_BAUD m) = s.rdN (LN_BAUD m)) : t.onWire m = s.onWire m := by
  unfold State.onWire State.txBusy State.drives State.mayDrive State.linBitNs State.bit State.fld
  rw [hn, hm, ht, hx, hc, hb]

theorem mort_flushMort_ne (s : State) {m k : Nat} (h : k ≠ m) : (s.flushMort m).mort k = s.mort k :=
  mort_onMort_ne (s.flushPort m).2 _ h

theorem rdN_flushMort_ne (s : State) {m a : Nat} (h : a ≠ MZ_CNT m 6) : (s.flushMort m).rdN a = s.rdN a :=
  rdN_inc_ne _ _ _ _ h

/-- A re-tenoning writes MZ_RES_L and MZ_CNT6 of its mortise and FR_RESUME_L: no register below the loader's, and none of a tenon area. -/
theorem rdN_retenon (s : State) {a : Nat} (m g : Nat) (d : Octets) (h : a < 0x80000 ∨ 0x100000 ≤ a ∧ 0x100 ≤ a % 0x1000) :
    (s.retenon m g d).rdN a = s.rdN a := by
  have hr : a ≠ MZ_RES_L m := by unfold MZ_RES_L; omega
  have hf : a ≠ FR_RESUME_L := by unfold FR_RESUME_L; omega
  have hc : a ≠ MZ_CNT m 6 := by unfold MZ_CNT; omega
  unfold State.retenon
  extract_lets A x from_ drain busy s1 s2 s3
  have h2 : s2.rdN a = s.rdN a := by simp [s2, s1, rdN_wrN_ne, hr, hf]
  have h3 : s3.rdN a = s.rdN a := by simp [s3, rdN_flushMort_ne, hc, h2]
  split
  · exact h2
  · split <;> exact h3

theorem mort_retenon_ne (s : State) {m k : Nat} (g : Nat) (d : Octets) (h : k ≠ m) : (s.retenon m g d).mort k = s.mort k := by
  unfold State.retenon
  extract_lets A x from_ drain busy s1 s2 s3
  have h2 : s2.mort k = s.mort k := mort_onMort_ne _ _ h
  have h3 : s3.mort k = s.mort k := by rw [show s3.mort k = _ from mort_onMort_ne _ _ h, mort_flushMort_ne _ h, h2]
  split
  · exact h2
  split
  · exact h3
  · rw [State.releasePins, mort_onMort_ne _ _ h, h3]

theorem retenon_keeps_refl (s : State) (m g : Nat) (d : Octets) : Keeps 0x42820 s (s.retenon m g d) :=
  State.retenon_keeps rfl (.refl _ s) m g d

theorem epochStart_retenon (s : State) (m g n : Nat) (d : Octets) : (s.retenon m g d).epochStart n = s.epochStart n :=
  epochStart_congr ((retenon_keeps_refl s m g d).at_ 10 rfl) (rdN_retenon s m g d (.inl (by decide))) n

theorem onWire_retenon_ne (s : State) {m k : Nat} (g : Nat) (d : Octets) (h : k ≠ m) : (s.retenon m g d).onWire k = s.onWire k :=
  have K := retenon_keeps_refl s m g d
  onWire_congr (K.at_ 1 rfl) (K.at_ 4 rfl) (K.at_ 21 rfl) (mort_retenon_ne s g d h)
    (rdN_retenon s m g d (.inr (by unfold LN_CFG; omega))) (rdN_retenon s m g d (.inr (by unfold LN_BAUD; omega)))

/-- A mortise with a transmission in progress, and not being re-tenoned already, drains for DRAIN µs from the start of G (R112). -/
theorem retenon_drains (s : State) {m : Nat} (g : Nat) (d : Octets) (hl : s.mz.length = 128) (hm : m < 128) (hr : (s.mort m).resume = none)
    (hw : s.onWire m = true) :
    ((s.retenon m g d).mort m).st = .draining ∧ ((s.retenon m g d).mort m).drainBy = s.epochStart g + leAt (s.mort m).desc 2 2 * 1000 := by
  unfold State.retenon
  extract_lets A x from_ drain busy s1 s2 s3
  have hx : x.resume.isSome = false := by simp [x, hr]
  have hb : busy = true := hw
  have K : Keeps 0x42820 s (s2.flushMort m) :=
    State.flushMort_keeps rfl (State.onFr_keeps rfl (State.wrN_keeps rfl (State.wrN_keeps rfl (State.onMort_keeps rfl (.refl _ s) _ _) _ _) _ _) _) _
  have ha : EP_CTRL ≠ MZ_RES_L m := by unfold EP_CTRL MZ_RES_L; omega
  have he : s2.epochStart g = s.epochStart g := epochStart_congr (by simp [s2, s1]) (by simp [s2, s1, rdN_wrN_ne, ha]) g
  rw [if_neg (by simp [hx]), if_pos hb, show s3.mort m = _ from mort_onMort_same _ _ (by rw [K.len_mz hl]; exact hm)]
  exact ⟨rfl, by rw [← he]⟩

/-! ### The start of G -/

/-- What a mortise contributes to the changed ones names that mortise, and only where its bent is in service (R109). -/
theorem changed_entry {m : Nat} {down : Bool} {o : Option Octets} {z : Octets} {y : Nat × Octets}
    (h : (if down then none else match o with | some x => if x == z then none else some (m, x) | none => none) = some y) : down = false ∧ y.1 = m := by
  cases down with
  | true => cases h
  | false =>
    cases o with
    | none => cases h
    | some x =>
      have e : (if x == z then none else some (m, x)) = some y := h
      split at e <;> cases e
      exact ⟨rfl, rfl⟩

/-- A changed mortise is one of the 128, and its bent is in service. -/
theorem mem_changedMorts {s : State} {d : Raising} {y : Nat × Octets} (h : y ∈ s.changedMorts d) : y.1 < 128 ∧ s.bentUp (y.1 / 16) = true := by
  obtain ⟨m, hm, e⟩ := List.mem_filterMap.mp h
  obtain ⟨hb, rfl⟩ := changed_entry e
  exact ⟨List.mem_range.mp hm, by simpa using hb⟩

/-- No mortise is changed twice by one swap. -/
theorem changedMorts_pairwise (s : State) (d : Raising) : (s.changedMorts d).Pairwise fun x y => x.1 ≠ y.1 := by
  refine List.Pairwise.filterMap _ (fun a b hab x hx y hy => ?_) List.pairwise_lt_range
  rw [(changed_entry hx).2, (changed_entry hy).2]
  exact Nat.ne_of_lt hab

/-- Of several re-tenonings at G, those of the other mortises neither shorten nor lengthen the drain of one (R112). -/
theorem foldl_retenon_drains (s : State) (g : Nat) (l : List (Nat × Octets)) (hp : l.Pairwise fun x y => x.1 ≠ y.1) {y : Nat × Octets} (hy : y ∈ l)
    (hl : s.mz.length = 128) (hm : y.1 < 128) (hr : (s.mort y.1).resume = none) (hw : s.onWire y.1 = true) :
    ((l.foldl (fun s x => s.retenon x.1 g x.2) s).mort y.1).st = .draining ∧
      ((l.foldl (fun s x => s.retenon x.1 g x.2) s).mort y.1).drainBy = s.epochStart g + leAt (s.mort y.1).desc 2 2 * 1000 := by
  induction l generalizing s with
  | nil => cases hy
  | cons x l ih =>
    obtain ⟨hx, hp⟩ := List.pairwise_cons.mp hp
    rw [List.foldl_cons]
    cases hy with
    | head =>
      have hk : (l.foldl (fun s x => s.retenon x.1 g x.2) (s.retenon y.1 g y.2)).mort y.1 = (s.retenon y.1 g y.2).mort y.1 :=
        foldl_view (State.mort · y.1) _ _ _ fun s z hz => mort_retenon_ne s g z.2 (hx z hz)
      rw [hk]
      exact retenon_drains s g y.2 hl hm hr hw
    | tail _ hy =>
      have hne : y.1 ≠ x.1 := (hx y hy).symm
      have hk := mort_retenon_ne s g x.2 hne
      have := ih (s.retenon x.1 g x.2) hp hy ((retenon_keeps_refl s x.1 g x.2).len_mz hl) (by rw [hk]; exact hr)
        ((onWire_retenon_ne s g x.2 hne).trans hw)
      rwa [epochStart_retenon, hk] at this

/-- At the start of G a transmission in progress on a changed mortise that is not being re-tenoned already has DRAIN µs (R106, R112): the bents that
enter with the swap and the new SB0 leave that as it is. -/
theorem swapNow_drains (s : State) (g : Nat) (d : Raising) (hl : s.mz.length = 128) (hs : s.fr.switched = false) (hd : s.fr.delta = some d)
    {y : Nat × Octets} (hy : y ∈ s.changedMorts d) (hr : (s.mort y.1).resume = none) (hw : s.onWire y.1 = true) :
    ((s.swapNow g).mort y.1).st = .draining ∧ ((s.swapNow g).mort y.1).drainBy = s.epochStart g + leAt (s.mort y.1).desc 2 2 * 1000 := by
  obtain ⟨hm, hup⟩ := mem_changedMorts hy
  unfold State.swapNow
  rw [if_neg (by simp [hs])]
  split
  · rename_i h
    rw [hd] at h
    cases h
  rename_i d' h
  obtain rfl : d = d' := Option.some.inj (hd.symm.trans h)
  extract_lets ch sects new back s1 s2 s3 s4
  have h2 := foldl_retenon_drains s1 g ch (changedMorts_pairwise s d) hy hl hm hr hw
  have h3 : s3.mort y.1 = s2.mort y.1 := by
    refine foldl_view (State.mort · y.1) _ _ _ fun s' k _ => ?_
    split
    · split
      · rename_i hk
        have hne : y.1 / 16 ≠ k := by
          rintro rfl
          simp [back, hup] at hk
        rw [mort_bentIn_ne _ _ hne, mort_configMB_ne _ _ hne]
      · rfl
    · rfl
  have h4 : ((s4.mort y.1).st, (s4.mort y.1).drainBy) = ((s3.mort y.1).st, (s3.mort y.1).drainBy) := by
    unfold s4
    split
    · rename_i x _
      refine foldl_view (fun s => ((s.mort y.1).st, (s.mort y.1).drainBy)) _ _ _ fun s' m _ => ?_
      obtain ⟨c, e⟩ := mort_planSwap s' m y.1 x
      rw [e]
    · rfl
  obtain ⟨h4s, h4d⟩ := Prod.mk.inj h4
  rw [State.onFr_mort, h4s, h4d, h3]
  exact h2

/-! ### The end of the drain -/

theorem mort_releasePins_same (s : State) {m : Nat} (h : m < s.mz.length) :
    (s.releasePins m).mort m = { s.mort m with st := .loading, pins := .pidle } := mort_onMort_same _ _ h

theorem mort_releasePins_ne (s : State) {m k : Nat} (h : k ≠ m) : (s.releasePins m).mort k = s.mort k := mort_onMort_ne _ _ h

/-- The drain of a mortise ends where its DRAIN time has come (R112). -/
theorem drainAbort_due {s : State} {t m : Nat} (hm : m < 128) (hs : (s.mort m).st = .draining) (hd : (s.mort m).drainBy ≤ t) :
    drainAbort t m s = (s.tick t).endDrain m := by
  unfold drainAbort
  simp [hm, hs, hd]

/-- What an abort takes off the wire (R112): the CAN frame, the LIN header and response, the T1S burst and wake; and the pins are released. -/
def Mortise.aborted (x : Mortise) : Mortise :=
  { x with
    st := .loading, pins := .pidle, can := { x.can with wire := none }, lin := { x.lin with sending := none, hdr := none }
    t1s := { x.t1s with burst := 0, waking := none } }

theorem mort_abortTenon_same (s : State) {m : Nat} (n : Nat) (h : m < s.mz.length) : (s.abortTenon n m).mort m = (s.mort m).aborted := by
  unfold State.abortTenon
  extract_lets s1
  have hl : m < s1.mz.length := by simpa [s1, updAt] using h
  rw [State.evt_mort, mort_evtOf, mort_releasePins_same _ hl, mort_onMort_same _ _ h]
  rfl

theorem mort_abortTenon_ne (s : State) {m k : Nat} (n : Nat) (h : k ≠ m) : (s.abortTenon n m).mort k = s.mort k := by
  unfold State.abortTenon
  rw [State.evt_mort, mort_evtOf, mort_releasePins_ne _ h, mort_onMort_ne _ _ h]

/-- An abort shows in FR_EVENT.DRAINLATE. -/
theorem bit_abortTenon (s : State) (n m : Nat) : (s.abortTenon n m).bit FR_EVENT 11 = true := bit_evt_same _ _ _ (by decide)

/-- An event bit of an epoch changes registers or waits in the epoch engine, and nothing else. -/
theorem evtOf_frame (s : State) (n a k : Nat) : s.evtOf n a k = { s with regs := (s.evtOf n a k).regs, ep := (s.evtOf n a k).ep } := by
  unfold State.evtOf
  split <;> rfl

/-- While an epoch `n` that has not been processed is stamped, its event bit waits for the processing to complete (R149). -/
theorem evtOf_waits {s : State} {n : Nat} (a k : Nat) (hc : s.ep.cur.isSome = true) (hn : ∀ x, s.ep.done = some x → x < n) :
    s.evtOf n a k = s.onEp fun e => { e with due := e.due ++ [(n, .or a (2 ^ k))] } := by
  have hd : (s.ep.done.any fun d => n ≤ d) = false := by
    cases h : s.ep.done with
    | none => rfl
    | some x => simpa using hn x h
  have hi : s.ep.cur.isNone = false := by simpa [Option.isSome_iff_ne_none, Option.isNone_iff_eq_none] using hc
  unfold State.evtOf
  rw [if_neg (by simp [hd, hi])]

/-- An epoch contains the present instant: epochs are stamped, and it is the one being stamped (R50). -/
theorem stamping_of_epochNow {s : State} {n : Nat} (h : s.epochNow = some n) : s.ep.cur.isSome = true ∧ s.stampEp = n := by
  refine ⟨?_, by rw [State.stampEp, h]; rfl⟩
  obtain ⟨c, hc, -⟩ := Option.map_eq_some_iff.mp h
  rw [hc]
  rfl

theorem abortTenon_frame (s : State) (n m : Nat) :
    s.abortTenon n m = { s with regs := (s.abortTenon n m).regs, ep := (s.abortTenon n m).ep, mz := (s.abortTenon n m).mz } := by
  unfold State.abortTenon
  extract_lets s1
  rw [evtOf_frame]
  rfl

/-- The mortise's own DRAINLATE waits for the processing of the epoch; of the registers FR_EVENT alone changes at once (R112, R149). -/
theorem abortTenon_waits {s : State} {n : Nat} (m : Nat) (hc : s.ep.cur.isSome = true) (hn : ∀ x, s.ep.done = some x → x < n) :
    (s.abortTenon n m).ep = { s.ep with due := s.ep.due ++ [(n, .or (MZ_EVENT m) 2)] } ∧ sameRegs [FR_EVENT] s (s.abortTenon n m) := by
  unfold State.abortTenon
  extract_lets s1
  rw [evtOf_waits (s := s1.releasePins m) (MZ_EVENT m) 1 hc hn]
  refine ⟨rfl, fun a ha => ?_⟩
  rw [State.evt, State.wrN, rd_wr, if_neg (by simpa using ha)]
  rfl

end Sys2Proof.Machine

namespace Sys2Proof.Proofs
open Sys2Proof Sys2Proof.Machine

/-- At the start of G a transmission in progress on a changed mortise gets its DRAIN time. -/
theorem after_swap_drains (s : State) (g c : Nat) (d : Raising) (hok : s.ok) (hg : s.fr.swapAt = some g) (hc : s.ep.cur = some c) (hgc : g ≤ c)
    (hs : s.fr.switched = false) (hd : s.fr.delta = some d) :
    After (.swap g) s fun u => ∀ y ∈ s.changedMorts d, (s.mort y.1).resume = none → s.onWire y.1 = true →
      (u.mort y.1).st = .draining ∧ (u.mort y.1).drainBy = s.epochStart g + leAt (s.mort y.1).desc 2 2 * 1000 := by
  obtain ⟨-, -, hl, -, -⟩ := hok
  have e : swap g s = s.swapNow g := if_pos (by simp [hg, hc, hgc])
  refine ⟨_, rfl, fun y hy hr hw => ?_⟩
  rw [settle_mort, e]
  exact swapNow_drains s g d hl hs hd hy hr hw

/-- Settles O21: DRAIN counts from the start of G (`swapNow_drains`); when it is over, what is on the wire is aborted (`State.abortTenon`), and where nothing
is the pins are released. -/
theorem drainIsAborted : Obligations.DrainIsAborted := by
  refine ⟨after_swap_drains, fun s t m hm hl hs hd hw => ?_, fun s t m hm hl hs hd hw => ?_⟩
  · have hlt : m < (s.tick t).mz.length := by rw [State.tick_mz, hl]; exact hm
    have e : drainAbort t m s = (s.tick t).abortTenon (s.tick t).stampEp m := by rw [drainAbort_due hm hs hd, State.endDrain, if_pos hw]
    have hx : ((s.tick t).abortTenon (s.tick t).stampEp m).mort m = (s.mort m).aborted := mort_abortTenon_same _ _ hlt
    refine after_of rfl e fun b _ => ⟨congrArg Mortise.st hx, congrArg Mortise.pins hx, congrArg (·.can.wire) hx, congrArg (·.lin.sending) hx,
      congrArg (·.lin.hdr) hx, congrArg (·.t1s.burst) hx, congrArg (·.t1s.waking) hx, bit_abortTenon _ _ _, fun k _ hk => mort_abortTenon_ne _ _ hk,
      fun n hn hdone => ?_, congrArg (fun x : State => { x with hb := b }) (abortTenon_frame _ _ m)⟩
    obtain ⟨hc, hst⟩ := stamping_of_epochNow hn
    rw [hst]
    exact abortTenon_waits m hc hdone
  · have hlt : m < (s.tick t).mz.length := by rw [State.tick_mz, hl]; exact hm
    have e : drainAbort t m s = (s.tick t).releasePins m := by rw [drainAbort_due hm hs hd, State.endDrain, if_neg (by simp [hw])]
    exact after_of rfl e fun b _ =>
      ⟨mort_releasePins_same _ hlt, fun k _ hk => mort_releasePins_ne _ hk, rfl⟩

end Sys2Proof.Proofs
end

section
/-! PROOFS. The dwell limit of Watch (R483). -/
set_option Elab.async false
namespace Sys2Proof.Machine
open Sys2Proof

@[simp] theorem State.tick_asleep (s : State) (t : Nat) : (s.tick t).asleep = s.asleep := rfl

/-- The machine in Sill once the dwell in Watch has ended: the sill die has disarmed the listeners and T1S PHYs and released INH (R483). -/
def State.dwellEnded (s : State) : State :=
  { s with mode := .sill, sill := { s.sill with listeners := 0, phys := 0, inh := false } }

/-- DWELL hours in Watch with no wake latched or acted on end the dwell. -/
theorem watchDwellExpiry_due {s : State} {t : Nat} (ha : s.asleep = true) (hm : s.mode = .watch) (hd : s.sill.dwell ≠ 0) (hl : s.sill.latched = [])
    (he : s.sill.enables = false) (ht : s.sill.commitAt + s.sill.dwell * 3600000000000 ≤ t) : watchDwellExpiry t s = (s.tick t).dwellEnded := by
  unfold watchDwellExpiry
  exact if_pos (by simp [ha, hm, hd, hl, he, ht])

end Sys2Proof.Machine

namespace Sys2Proof.Proofs
open Sys2Proof Sys2Proof.Machine

/-- Settles O15: the dwell is due (`watchDwellExpiry_due`), and the vectors that follow the command change the bridge alone (`after_of`). -/
theorem watchDwellEnds : Obligations.WatchDwellEnds :=
  fun _ _ ha hm hd hl he ht => after_of rfl (watchDwellExpiry_due ha hm hd hl he ht) fun _ hb => ⟨rfl, rfl, rfl, hb⟩

end Sys2Proof.Proofs
end

section
/-! PROOFS. The whole block: what every step keeps (R5, R38, R506), the queue (log entry 1), and the state after reset (R9). -/
set_option Elab.async false
namespace Sys2Proof.Machine
open Sys2Proof

/-- What is kept does not depend on which fields may change. -/
theorem Keeps.weaken {c : Nat} {s t : State} (h : Keeps c s t) : Keeps 0x7ffffff s t :=
  { h with
    same := fun k => by
      by_cases hk : k < 27
      · exact .inl (by rw [show 0x7ffffff = 2 ^ 27 - 1 from rfl, Nat.testBit_two_pow_sub_one, decide_eq_true hk])
      · exact .inr (by unfold sameField; split <;> trivial) }

/-- Every command keeps the canonical forms, the numbers of units, the queue and the grade, and turns no count back. -/
theorem exec_keeps {s u : State} : ∀ {c : Instr}, exec c s = .next u → Keeps 0x7ffffff s u
  | .registerWrite ms w addr val, e => (execRegisterWrite_keeps ms w addr val e).weaken
  | .readClear ms w addr upd, e => (execReadClear_keeps ms w addr upd e).weaken
  | .latchedRead ms w addr, e => (execLatchedRead_keeps ms w addr e).weaken
  | .blockLockSet ms w addr, e => (execBlockLockSet_keeps ms w addr e).weaken
  | .modeRequest ms w target, e => (execModeRequest_keeps ms w target e).weaken
  | .poresetAssert, e => (execPoresetAssert_keeps e).weaken
  | .poresetRelease t twinId, e => (execPoresetRelease_keeps t twinId e).weaken
  | .frameDieStart t, e => (execFrameDieStart_keeps t e).weaken
  | .powerupTimeout t, e => (execPowerupTimeout_keeps t e).weaken
  | .railUndervoltage t rail, e => (execRailUndervoltage_keeps t rail e).weaken
  | .railRecovery t, e => (execRailRecovery_keeps t e).weaken
  | .vsillLoss, e => (execVsillLoss_keeps e).weaken
  | .refclkFailure t, e => (execRefclkFailure_keeps t e).weaken
  | .osc32Failure t, e => (execOsc32Failure_keeps t e).weaken
  | .raiseFromFlash t, e => (execRaiseFromFlash_keeps t e).weaken
  | .hostRaise t ms w, e => (execHostRaise_keeps t ms w e).weaken
  | .sectionChecked t idx sect readErr, e => (execSectionChecked_keeps t idx sect readErr e).weaken
  | .serviceStart t, e => (execServiceStart_keeps t e).weaken
  | .lateBentsInService n, e => (execLateBentsInService_keeps n e).weaken
  | .deltaCheck t ms w, e => (execDeltaCheck_keeps t ms w e).weaken
  | .deltaArmed t, e => (execDeltaArmed_keeps t e).weaken
  | .deltaAbort ms w, e => (execDeltaAbort_keeps ms w e).weaken
  | .stagingForward ms w, e => (execStagingForward_keeps ms w e).weaken
  | .stagingError t, e => (execStagingError_keeps t e).weaken
  | .swapSchedule c g, e => (execSwapSchedule_keeps c g e).weaken
  | .deltaDisarm c, e => (execDeltaDisarm_keeps c e).weaken
  | .swap g, e => (execSwap_keeps g e).weaken
  | .purgeComplete t, e => (execPurgeComplete_keeps t e).weaken
  | .drainAbort t m, e => (execDrainAbort_keeps t m e).weaken
  | .oldTenonRelease t m, e => (execOldTenonRelease_keeps t m e).weaken
  | .tenonLoaded t m, e => (execTenonLoaded_keeps t m e).weaken
  | .tenonResume a m, e => (execTenonResume_keeps a m e).weaken
  | .gptpSyncReceived t bay domain offset, e => (execGptpSyncReceived_keeps t bay domain offset e).weaken
  | .tbHoldover t, e => (execTbHoldover_keeps t e).weaken
  | .tbLost t, e => (execTbLost_keeps t e).weaken
  | .announceTimeout t, e => (execAnnounceTimeout_keeps t e).weaken
  | .pdelayExchange t bay delay, e => (execPdelayExchange_keeps t bay delay e).weaken
  | .epochBoundary t, e => (execEpochBoundary_keeps t e).weaken
  | .bayFrameReceived t bay frame fcsErr codeErr, e => (execBayFrameReceived_keeps t bay frame fcsErr codeErr e).weaken
  | .pauseExpiry t bay, e => (execPauseExpiry_keeps t bay e).weaken
  | .linkChange t bay link, e => (execLinkChange_keeps t bay link e).weaken
  | .autonegWordReceived bay halfDuplex speed, e => (execAutonegWordReceived_keeps bay halfDuplex speed e).weaken
  | .mdioCommand ms w val, e => (execMdioCommand_keeps ms w val e).weaken
  | .mdioDone rdata ack, e => (execMdioDone_keeps rdata ack e).weaken
  | .bayFrameTransmit t bay, e => (execBayFrameTransmit_keeps t bay e).weaken
  | .canFrameReceived t m rx, e => (execCanFrameReceived_keeps t m rx e).weaken
  | .priorityCellRead ms w m k, e => (execPriorityCellRead_keeps ms w m k e).weaken
  | .canArbitrationStart t m, e => (execCanArbitrationStart_keeps t m e).weaken
  | .canTransmitEnd t m tdcv, e => (execCanTransmitEnd_keeps t m tdcv e).weaken
  | .canTransmitFailed t m lost, e => (execCanTransmitFailed_keeps t m lost e).weaken
  | .canBusError t m err fault, e => (execCanBusError_keeps t m err fault e).weaken
  | .busOffRecovered t m, e => (execBusOffRecovered_keeps t m e).weaken
  | .busOffRecoveryRequest c m, e => (execBusOffRecoveryRequest_keeps c m e).weaken
  | .canOpmodeWrite c m mode, e => (execCanOpmodeWrite_keeps c m mode e).weaken
  | .canTxAbort t m mask, e => (execCanTxAbort_keeps t m mask e).weaken
  | .beginDriving t, e => (execBeginDriving_keeps t e).weaken
  | .basicCycleStart t m, e => (execBasicCycleStart_keeps t m e).weaken
  | .exclusiveWindowOpen t m busy, e => (execExclusiveWindowOpen_keeps t m busy e).weaken
  | .windowEnd t m, e => (execWindowEnd_keeps t m e).weaken
  | .referenceLost t m, e => (execReferenceLost_keeps t m e).weaken
  | .linSlotStart t m, e => (execLinSlotStart_keeps t m e).weaken
  | .linHeaderReceived t m rx bitDev, e => (execLinHeaderReceived_keeps t m rx bitDev e).weaken
  | .linFrameReceived t m rec, e => (execLinFrameReceived_keeps t m rec e).weaken
  | .linResponseError t m fid reason, e => (execLinResponseError_keeps t m fid reason e).weaken
  | .linEventCollision t m, e => (execLinEventCollision_keeps t m e).weaken
  | .linTransmitConfirm t m, e => (execLinTransmitConfirm_keeps t m e).weaken
  | .linTxFailed t m reason, e => (execLinTxFailed_keeps t m reason e).weaken
  | .linBusIdleTimeout t m, e => (execLinBusIdleTimeout_keeps t m e).weaken
  | .linWakePulseReceived t m us, e => (execLinWakePulseReceived_keeps t m us e).weaken
  | .linTableWrite c m table, e => (execLinTableWrite_keeps c m table e).weaken
  | .linRunWrite c m run, e => (execLinRunWrite_keeps c m run e).weaken
  | .linSleepCommand c m, e => (execLinSleepCommand_keeps c m e).weaken
  | .linWakeRequest c m, e => (execLinWakeRequest_keeps c m e).weaken
  | .t1sFrameReceived t m frame fcsErr, e => (execT1sFrameReceived_keeps t m frame fcsErr e).weaken
  | .plcaBeacon t m sent, e => (execPlcaBeacon_keeps t m sent e).weaken
  | .plcaInactive t m, e => (execPlcaInactive_keeps t m e).weaken
  | .t1sTransmitOpportunity t m ph, e => (execT1sTransmitOpportunity_keeps t m ph e).weaken
  | .phyDisconnect t trip, e => (execPhyDisconnect_keeps t trip e).weaken
  | .phyReconnect t m held, e => (execPhyReconnect_keeps t m held e).weaken
  | .phyResetCommand c m, e => (execPhyResetCommand_keeps c m e).weaken
  | .t1sWakeRequest c m, e => (execT1sWakeRequest_keeps c m e).weaken
  | .phyWakeDetect t m us, e => (execPhyWakeDetect_keeps t m us e).weaken
  | .bankFault t bank cls, e => (execBankFault_keeps t bank cls e).weaken
  | .pinFault t m pin, e => (execPinFault_keeps t m pin e).weaken
  | .mortiseTxInhibit c m on, e => (execMortiseTxInhibit_keeps c m on e).weaken
  | .mortiseRxInhibit c m on, e => (execMortiseRxInhibit_keeps c m on e).weaken
  | .hostCopyControl c m val, e => (execHostCopyControl_keeps c m val e).weaken
  | .hostRingFrameRead t ring len entry intr frame err, e => (execHostRingFrameRead_keeps t ring len entry intr frame err e).weaken
  | .ringTailWrite ms w tx ring tail bufLens, e => (execRingTailWrite_keeps ms w tx ring tail bufLens e).weaken
  | .ringDisable ms w tx ring inten, e => (execRingDisable_keeps ms w tx ring inten e).weaken
  | .inputHandover t cls port, e => (execInputHandover_keeps t cls port e).weaken
  | .ledgerClose t n, e => (execLedgerClose_keeps t n e).weaken
  | .recordsSealSend t n, e => (execRecordsSealSend_keeps t n e).weaken
  | .peerRecordsReceived t n recs, e => (execPeerRecordsReceived_keeps t n recs e).weaken
  | .matchingDecided t n, e => (execMatchingDecided_keeps t n e).weaken
  | .fillReceived t inp, e => (execFillReceived_keeps t inp e).weaken
  | .fillAckReceived t cls port pos, e => (execFillAckReceived_keeps t cls port pos e).weaken
  | .fillDeadline t n, e => (execFillDeadline_keeps t n e).weaken
  | .ledgerRelease t n ecc, e => (execLedgerRelease_keeps t n ecc e).weaken
  | .ageOut key, e => (execAgeOut_keeps key e).weaken
  | .entryUnfreeze key, e => (execEntryUnfreeze_keeps key e).weaken
  | .flushFilterRetire k, e => (execFlushFilterRetire_keeps k e).weaken
  | .epochProcessingComplete t n, e => (execEpochProcessingComplete_keeps t n e).weaken
  | .epochOverrun t, e => (execEpochOverrun_keeps t e).weaken
  | .ledgerCompare t n dig out, e => (execLedgerCompare_keeps t n dig out e).weaken
  | .rxTimeout n r, e => (execRxTimeout_keeps n r e).weaken
  | .pduCycleDue n p, e => (execPduCycleDue_keeps n p e).weaken
  | .routeWrite c idx d, e => (execRouteWrite_keeps c idx d e).weaken
  | .cellWrite c idx d, e => (execCellWrite_keeps c idx d e).weaken
  | .pduDescriptorWrite c idx d, e => (execPduDescriptorWrite_keeps c idx d e).weaken
  | .imageWrite c idx off len trig d, e => (execImageWrite_keeps c idx off len trig d e).weaken
  | .hostSend c idx, e => (execHostSend_keeps c idx e).weaken
  | .restartTimeout c idx, e => (execRestartTimeout_keeps c idx e).weaken
  | .directEntryWrite c idx d, e => (execDirectEntryWrite_keeps c idx d e).weaken
  | .hashInsert c idx d, e => (execHashInsert_keeps c idx d e).weaken
  | .hashDelete c idx d, e => (execHashDelete_keeps c idx d e).weaken
  | .prefixAdd c idx d, e => (execPrefixAdd_keeps c idx d e).weaken
  | .prefixDelete c idx d, e => (execPrefixDelete_keeps c idx d e).weaken
  | .learnedFlush c idx d, e => (execLearnedFlush_keeps c idx d e).weaken
  | .prefixEffect n, e => (execPrefixEffect_keeps n e).weaken
  | .plumbScanStep t uncorr, e => (execPlumbScanStep_keeps t uncorr e).weaken
  | .plumbConfirm t k, e => (execPlumbConfirm_keeps t k e).weaken
  | .shadowWrite ms w val, e => (execShadowWrite_keeps ms w val e).weaken
  | .meterWrite c idx d, e => (execMeterWrite_keeps c idx d e).weaken
  | .meterUnblock c idx, e => (execMeterUnblock_keeps c idx e).weaken
  | .meterClearCounters c idx, e => (execMeterClearCounters_keeps c idx e).weaken
  | .gateActivate c bay, e => (execGateActivate_keeps c bay e).weaken
  | .gateListChange t bay, e => (execGateListChange_keeps t bay e).weaken
  | .histogramClear c, e => (execHistogramClear_keeps c e).weaken
  | .keyPacketCheck t ms w, e => (execKeyPacketCheck_keeps t ms w e).weaken
  | .keyCheckComplete t, e => (execKeyCheckComplete_keeps t e).weaken
  | .keyPacketDiscard ms w, e => (execKeyPacketDiscard_keeps ms w e).weaken
  | .keyUpdateApply c a, e => (execKeyUpdateApply_keeps c a e).weaken
  | .nvkmCommitComplete t ok, e => (execNvkmCommitComplete_keeps t ok e).weaken
  | .keyUpdateInForce n, e => (execKeyUpdateInForce_keeps n e).weaken
  | .shelfEntryZeroise k, e => (execShelfEntryZeroise_keeps k e).weaken
  | .tamperDetected t src, e => (execTamperDetected_keeps t src e).weaken
  | .tamperConfigWrite ms w src val, e => (execTamperConfigWrite_keeps ms w src val e).weaken
  | .attestationRequest t ms w, e => (execAttestationRequest_keeps t ms w e).weaken
  | .statementReady t, e => (execStatementReady_keeps t e).weaken
  | .freshnessWrite c idx d, e => (execFreshnessWrite_keeps c idx d e).weaken
  | .profileWrite c idx d, e => (execProfileWrite_keeps c idx d e).weaken
  | .hostJob t ms w, e => (execHostJob_keeps t ms w e).weaken
  | .hostJobDone t, e => (execHostJobDone_keeps t e).weaken
  | .pairingExchange t rec, e => (execPairingExchange_keeps t rec e).weaken
  | .pairwaitExpiry t, e => (execPairwaitExpiry_keeps t e).weaken
  | .leaseOverride t ms w key, e => (execLeaseOverride_keeps t ms w key e).weaken
  | .handoverCommand c, e => (execHandoverCommand_keeps c e).weaken
  | .handoverEffect n, e => (execHandoverEffect_keeps n e).weaken
  | .heartbeatSend t, e => (execHeartbeatSend_keeps t e).weaken
  | .heartbeatReceived t hb, e => (execHeartbeatReceived_keeps t hb e).weaken
  | .tellWordSend t, e => (execTellWordSend_keeps t e).weaken
  | .tellWordReceived t tw, e => (execTellWordReceived_keeps t tw e).weaken
  | .pathDown t tell, e => (execPathDown_keeps t tell e).weaken
  | .pathUp t tell, e => (execPathUp_keeps t tell e).weaken
  | .pairDegrade t, e => (execPairDegrade_keeps t e).weaken
  | .leaseExpiry t, e => (execLeaseExpiry_keeps t e).weaken
  | .takeover t, e => (execTakeover_keeps t e).weaken
  | .fenceTimerFire t, e => (execFenceTimerFire_keeps t e).weaken
  | .resyncStart t, e => (execResyncStart_keeps t e).weaken
  | .resyncRegionCommit t region, e => (execResyncRegionCommit_keeps t region e).weaken
  | .resyncJoin t j, e => (execResyncJoin_keeps t j e).weaken
  | .resyncAbandon t, e => (execResyncAbandon_keeps t e).weaken
  | .cbRecoveryReset n h, e => (execCbRecoveryReset_keeps n h e).weaken
  | .holdEntry t, e => (execHoldEntry_keeps t e).weaken
  | .frameDieReset t, e => (execFrameDieReset_keeps t e).weaken
  | .faultAck ms w ack, e => (execFaultAck_keeps ms w ack e).weaken
  | .secondFaultClear ms w, e => (execSecondFaultClear_keeps ms w e).weaken
  | .f2HandlerTimeout t, e => (execF2HandlerTimeout_keeps t e).weaken
  | .sleepRequest t c, e => (execSleepRequest_keeps t c e).weaken
  | .sleepGo c, e => (execSleepGo_keeps c e).weaken
  | .sleepCancel t, e => (execSleepCancel_keeps t e).weaken
  | .quiesceStart t q, e => (execQuiesceStart_keeps t q e).weaken
  | .sleepCommit t, e => (execSleepCommit_keeps t e).weaken
  | .wakeActed t, e => (execWakeActed_keeps t e).weaken
  | .wakeInDetect t pin, e => (execWakeInDetect_keeps t pin e).weaken
  | .wakeListenerMatch t k byError rec, e => (execWakeListenerMatch_keeps t k byError rec e).weaken
  | .sillTimerWake t, e => (execSillTimerWake_keeps t e).weaken
  | .watchDwellExpiry t, e => (execWatchDwellExpiry_keeps t e).weaken
  | .wakeOutRequest t, e => (execWakeOutRequest_keeps t e).weaken
  | .wakeOutPulseEnd t, e => (execWakeOutPulseEnd_keeps t e).weaken
  | .awakeRestart c, e => (execAwakeRestart_keeps c e).weaken
  | .maxAwakeExpiry n, e => (execMaxAwakeExpiry_keeps n e).weaken
  | .ringPass n r, e => (execRingPass_keeps n r e).weaken
  | .ringStart n r, e => (execRingStart_keeps n r e).weaken
  | .ringLost n r, e => (execRingLost_keeps n r e).weaken
  | .pnTimeout n p, e => (execPnTimeout_keeps n p e).weaken
  | .powerTrip t current temp, e => (execPowerTrip_keeps t current temp e).weaken
  | .tripClear sense, e => (execTripClear_keeps sense e).weaken
  | .clockRamp t bent start, e => (execClockRamp_keeps t bent start e).weaken
  | .spiTransaction cmd addr vals, e => (execSpiTransaction_keeps cmd addr vals e).weaken
  | .farAccess t ms w addr write, e => (execFarAccess_keeps t ms w addr write e).weaken
  | .farCompletion t data, e => (execFarCompletion_keeps t data e).weaken
  | .farAccessTimeout t, e => (execFarAccessTimeout_keeps t e).weaken
  | .postedLogClear ms w, e => (execPostedLogClear_keeps ms w e).weaken
  | .lockAcquire t ms w far, e => (execLockAcquire_keeps t ms w far e).weaken
  | .lockRelease ms w far, e => (execLockRelease_keeps ms w far e).weaken
  | .lockAbort t far, e => (execLockAbort_keeps t far e).weaken
  | .prefetchRead t ms w off block, e => (execPrefetchRead_keeps t ms w off block e).weaken
  | .prefetchExpire t k, e => (execPrefetchExpire_keeps t k e).weaken
  | .msixUnmask ms vec, e => (execMsixUnmask_keeps ms vec e).weaken
  | .vsillApplied t, e => (execVsillApplied_keeps t e).weaken
  | .bankPowerUp t bank cls, e => (execBankPowerUp_keeps t bank cls e).weaken
  | .headerChecked t header sig, e => (execHeaderChecked_keeps t header sig e).weaken
  | .prefixBuildDone t, e => (execPrefixBuildDone_keeps t e).weaken
  | .memoryErrorDetected t bent uncorr, e => (execMemoryErrorDetected_keeps t bent uncorr e).weaken
  | .epochEngineFault t, e => (execEpochEngineFault_keeps t e).weaken
  | .announceReceived t bay domain vec, e => (execAnnounceReceived_keeps t bay domain vec e).weaken
  | .readCompletesWithError ms, e => (execReadCompletesWithError_keeps ms e).weaken
  | .driverOverTemperature t, e => (execDriverOverTemperature_keeps t e).weaken
  | .scarfLinkLoss t, e => (execScarfLinkLoss_keeps t e).weaken
  | .bar2Write w off data, e => (execBar2Write_keeps w off data e).weaken
theorem Keeps.ok {c : Nat} {s t : State} (h : Keeps c s t) : s.ok → t.ok := fun ⟨hr, hm, hz, hb, hy⟩ =>
  ⟨h.wf_regs hr, h.wf_mem hm, h.len_mz hz, h.len_banks hb, h.len_bays hy⟩

theorem step_of_empty {s : State} (h : s.pending = []) : step s = .next s := by rw [step, h]

theorem step_of_front {s : State} {c : Instr} {rest : List Instr} (h : s.pending = c :: rest) : step s = exec c { s with pending := rest } := by rw [step, h]

/-- The registers of the reset state are those no write has touched. -/
theorem rdN_reset (a : Nat) : State.reset.rdN a = resetOf a % 2 ^ 32 := BitVec.toNat_ofNat (resetOf a) 32

theorem mort_reset {m : Nat} (h : m < 128) : State.reset.mort m = {} := List.getD_replicate _ h

end Sys2Proof.Machine

namespace Sys2Proof.Proofs
open Sys2Proof Sys2Proof.Machine

/-- Settles O1: the two branches of `step`. -/
theorem stepRunsFrontCommand : Obligations.StepRunsFrontCommand := ⟨fun _ _ _ => step_of_front, fun _ => step_of_empty⟩

/-- Settles O58: a step idles or runs one command, and every command keeps the canonical forms (`exec_keeps`). -/
theorem stepKeepsWellFormed : Obligations.StepKeepsWellFormed := by
  intro s u hok e
  cases hp : s.pending with
  | nil =>
    rw [step_of_empty hp] at e
    cases e
    exact hok
  | cons c rest =>
    rw [step_of_front hp] at e
    exact (exec_keeps e).ok hok

/-- Settles O59, by the same law of the commands. -/
theorem queueGradeAndTimeAreKept : Obligations.QueueGradeAndTimeAreKept := fun _ _ _ e =>
  have k := exec_keeps e
  ⟨k.pending, k.grade, k.le_now, k.le_free⟩

/-- Settles O60: the reset state lists no register and no octet, so every register reads its reset value. -/
theorem resetState : Obligations.ResetState :=
  ⟨⟨.nil, rfl, List.length_replicate, List.length_replicate, List.length_replicate⟩, rfl, rfl, rfl, rfl, rfl, rfl,
    fun _ hm => by rw [mort_reset hm], rdN_reset, rfl⟩

end Sys2Proof.Proofs
end

section
/-! PROOFS. Updates of registers alone: what they leave of the machine, and from such an update to what a command answers. -/
set_option Elab.async false
namespace Sys2Proof.Machine
open Sys2Proof

/-! ### Registers that read as before -/

theorem sameRegs.refl (l : List Nat) (s : State) : sameRegs l s s := fun _ _ => rfl

theorem sameRegs.trans {l : List Nat} {s t u : State} (h : sameRegs l s t) (k : sameRegs l t u) : sameRegs l s u := fun a ha => (k a ha).trans (h a ha)

theorem sameRegs.mono {l l' : List Nat} {s u : State} (h : sameRegs l s u) (k : l ⊆ l') : sameRegs l' s u := fun a ha => h a fun m => ha (k m)

theorem sameRegs.rdN {l : List Nat} {s u : State} (h : sameRegs l s u) {a : Nat} (ha : a ∉ l) : u.rdN a = s.rdN a := congrArg BitVec.toNat (h a ha)

theorem sameRegs.bit {l : List Nat} {s u : State} (h : sameRegs l s u) {a : Nat} (ha : a ∉ l) (k : Nat) : u.bit a k = s.bit a k :=
  congrArg (·.testBit k) (h.rdN ha)

theorem sameRegs.fld {l : List Nat} {s u : State} (h : sameRegs l s u) {a : Nat} (ha : a ∉ l) (lo w : Nat) : u.fld a lo w = s.fld a lo w :=
  congrArg (bitsN · lo w) (h.rdN ha)

/-- The bits of a whole word. -/
theorem testBit_ones {k : Nat} (hk : k < 32) : (0xFFFFFFFF : Nat).testBit k = true := by
  rw [show (0xFFFFFFFF : Nat) = 2 ^ 32 - 1 from rfl, Nat.testBit_two_pow_sub_one, decide_eq_true hk]

/-! ### States that differ in registers of a list alone -/

/-- `t` is `s` but for registers of the list. -/
structure RegsOnly (l : List Nat) (s t : State) : Prop where
  frame : t = { s with regs := t.regs }
  same : sameRegs l s t

namespace RegsOnly
variable {l : List Nat} {s t u : State}

theorem refl (l : List Nat) (s : State) : RegsOnly l s s := ⟨rfl, .refl l s⟩

theorem trans (h : RegsOnly l s t) (k : RegsOnly l t u) : RegsOnly l s u :=
  ⟨k.frame.trans (by rw [h.frame]), h.same.trans k.same⟩

theorem mono {l' : List Nat} (h : RegsOnly l s t) (k : l ⊆ l') : RegsOnly l' s t := ⟨h.frame, h.same.mono k⟩

theorem wrN (h : RegsOnly l s t) {a : Nat} (ha : a ∈ l) (n : Nat) : RegsOnly l s (t.wrN a n) :=
  h.trans ⟨rfl, fun b hb => by rw [State.wrN, rd_wr, if_neg (by rintro rfl; exact hb ha)]⟩

theorem setFld (h : RegsOnly l s t) {a : Nat} (ha : a ∈ l) (lo w v : Nat) : RegsOnly l s (t.setFld a lo w v) := h.wrN ha _

theorem setBit (h : RegsOnly l s t) {a : Nat} (ha : a ∈ l) (k : Nat) (b : Bool) : RegsOnly l s (t.setBit a k b) := h.wrN ha _

theorem evt (h : RegsOnly l s t) {a : Nat} (ha : a ∈ l) (k : Nat) : RegsOnly l s (t.evt a k) := h.wrN ha _

theorem inc (h : RegsOnly l s t) {a : Nat} (ha : a ∈ l) (n : Nat) : RegsOnly l s (t.inc a n) := h.wrN ha _

theorem ite {c : Prop} [Decidable c] (h : c → RegsOnly l s t) (k : ¬c → RegsOnly l s u) : RegsOnly l s (if c then t else u) := by
  split
  · exact h ‹_›
  · exact k ‹_›

theorem foldl {α : Type} {f : State → α → State} (xs : List α) (hf : ∀ u, ∀ x ∈ xs, RegsOnly l u (f u x)) (h : RegsOnly l s t) :
    RegsOnly l s (xs.foldl f t) := by
  induction xs generalizing t with
  | nil => exact h
  | cons x xs ih => exact ih (fun u y hy => hf u y (List.mem_cons_of_mem _ hy)) (h.trans (hf t x List.mem_cons_self))

theorem hb (h : RegsOnly l s t) : t.hb = s.hb := by rw [h.frame]

theorem rdN (h : RegsOnly l s t) {a : Nat} (ha : a ∉ l) : t.rdN a = s.rdN a := h.same.rdN ha

/-- The same with another bridge. -/
theorem frame_hb (h : RegsOnly l s t) (b : Bridge) : ({ t with hb := b } : State) = { s with regs := t.regs, hb := b } :=
  congrArg (fun x : State => { x with hb := b }) h.frame

end RegsOnly

/-! ### From the meaning to the command -/

/-- What a command answers is what its meaning leaves but for the bridge's vectors, where the meaning itself leaves the bridge as it was. -/
theorem after_hb {i : Instr} {s x y : State} {P : State → Prop} (h : exec i s = .next (s.settle y)) (e : y = x) (hx : x.hb = s.hb)
    (k : ∀ b : Bridge, sameBridge s { x with hb := b } → P { x with hb := b }) : After i s P := by
  refine after_of h e fun b hb => k b ?_
  rw [hx] at hb
  exact hb

end Sys2Proof.Machine
end

section
/-! PROOFS. Accesses to this unit's registers: which row an offset hits, writes by access code, violations, stamped writes, lock bits and reads
(R6 to R14, R50 to R55, R172, R508, R512). -/
set_option Elab.async false
namespace Sys2Proof.Machine
open Sys2Proof

/-! ### The row an offset hits -/

/-- Does an offset fall on one of a row's registers, mapped or not? -/
def rowHit (a : Nat) (r : RegRow) : Bool := decide (r.base ≤ a) && repHit r.reps (a - r.base)

/-- The first row of the map an offset falls on. -/
def hitRow (a : Nat) : Option RegRow := (blockRows a).find? (rowHit a)

/-- Where the first row hit is mapped, it is the row at the offset. -/
theorem rowAt_of_hitRow {s : State} {a : Nat} {r : RegRow} (h : hitRow a = some r) (hm : s.rowMapped r a = true) : s.rowAt a = some r := by
  obtain ⟨hr, l1, l2, he, hn⟩ := List.find?_eq_some_iff_append.mp h
  refine List.find?_eq_some_iff_append.mpr ⟨?_, l1, l2, he, fun x hx => ?_⟩
  · rw [show (decide (r.base ≤ a) && repHit r.reps (a - r.base)) = true from hr, hm]; rfl
  · rw [show (decide (x.base ≤ a) && repHit x.reps (a - x.base)) = false from Bool.not_eq_true' _ ▸ hn x hx]; rfl

/-- A row that every unit maps and that passes a check of its own, where the check of the first row hit is decided. -/
theorem rowAt_of_any {a : Nat} {p : RegRow → Bool} (h : ((hitRow a).any fun r => r.ten == .any && p r) = true) (s : State) :
    ∃ r, s.rowAt a = some r ∧ r.ten = .any ∧ p r = true := by
  obtain ⟨r, hr, h⟩ := (Option.any_eq_true ..).mp h
  obtain ⟨ht, hp⟩ := Bool.and_eq_true_iff.mp h
  have ht := eq_of_beq ht
  exact ⟨r, rowAt_of_hitRow hr (by rw [State.rowMapped, ht]), ht, hp⟩

/-! ### Writes -/

/-- A bit of a register after a write: fields that are stored take the value, write-one-to-set and write-one-to-clear fields take effect, and a
cleared bit that the device sets in the same clock stays set (R10, R11). -/
theorem bit_storeFields (s : State) (r : RegRow) (a v m u : Nat) {k : Nat} (hk : k < 32) :
    (s.storeFields r a v m u).bit a k =
      let st := (rowMask r (fun f => !f.ledger && (f.acc == .rw || (f.acc == .lk && s.lkOpen a)))).testBit k && m.testBit k
      let set := (rowMask r (fun f => !f.ledger && f.acc == .w1s)).testBit k && m.testBit k
      let clr := (rowMask r (fun f => !f.ledger && f.acc == .w1c)).testBit k && m.testBit k
      ((s.bit a k && !st || v.testBit k && st || v.testBit k && set) && !(v.testBit k && clr)) || (v.testBit k && clr && u.testBit k) := by
  unfold State.storeFields
  extract_lets bits st set clr st' set' clr'
  have hst : st.testBit k = st' := Nat.testBit_and ..
  have hset : set.testBit k = set' := Nat.testBit_and ..
  have hclr : clr.testBit k = clr' := Nat.testBit_and ..
  split
  · rename_i h
    obtain ⟨⟨h1, h2⟩, h3⟩ : (st = 0 ∧ set = 0) ∧ clr = 0 := by simpa [Nat.or_eq_zero_iff] using h
    rw [← hst, ← hset, ← hclr, h1, h2, h3]
    simp
  · rw [← hst, ← hset, ← hclr, State.bit, rdN_wrN_same, Nat.testBit_mod_two_pow]
    have hones := testBit_ones hk
    simp [ hk, Nat.testBit_or, Nat.testBit_and, Nat.testBit_xor, hones, State.bit]

/-- Storing fields changes the register and nothing else. -/
theorem storeFields_only (s : State) (r : RegRow) (a v m u : Nat) : RegsOnly [a] s (s.storeFields r a v m u) := by
  obtain h | ⟨n, h⟩ := storeFields_frame s r a v m u
  · rw [h]
    exact .refl _ s
  · rw [h]
    exact (RegsOnly.refl _ s).wrN List.mem_cons_self n

/-- A register whose writes do nothing beside storing: EP_TBCFG and FLT_ACK to HB_PWSTAT act. -/
theorem actWrite_quiet {a : Nat} (h : a ∉ [FLT_ACK, FR_CTRL, EB_MDIO_CMD, TB_SHWDATA, KS_UPCTL, KS_ATTCTL, CP_HJCTL, TW_CTRL, HB_LOCKCTL, HB_PWSTAT])
    (s : State) (ms : Master) (w : World) (v : Nat) : s.actWrite ms w a v = s := by
  simp only [List.mem_cons, List.not_mem_nil, or_false, not_or] at h
  simp [State.actWrite, h]

theorem tbRole_storeFields (s : State) (r : RegRow) {a : Nat} (v m u : Nat) (h : a ≠ EP_TBCFG) : (s.storeFields r a v m u).tbRole = s.tbRole := by
  rw [State.tbRole, State.fld, (storeFields_only s r a v m u).rdN (by simpa using Ne.symm h)]
  rfl

/-- A write that stores its fields, keeps the role of the time base and acts in no other way does nothing else. -/
theorem plainWrite_stores {s : State} {r : RegRow} {a v m : Nat} {ms : Master} {w : World} (u : Nat) (hp : r.pol = .std) (ht : inTenonArea r = false)
    (hb : r.base ∉ [KS_UPBUF 0, EB_WP_M 0 0 0, EB_WP_CTL 0 0]) (hi : s.writeIgnored r a v m = false) (ho : s.openBits a v m = m) (hr : a ≠ EP_TBCFG)
    (hact : (s.storeFields r a v m u).actWrite ms w a (v &&& m) = s.storeFields r a v m u) :
    s.plainWrite r ms w a v m u = s.storeFields r a v m u := by
  simp only [List.mem_cons, List.not_mem_nil, or_false, not_or] at hb
  obtain ⟨hb1, hb2, hb3⟩ := hb
  simp [State.plainWrite, State.tenonShut, ht, hp, hb1, hb2, hb3, hi, ho, hact, tbRole_storeFields s r v m u hr]

/-- A register without rules of its own takes a write by the codes of its fields, and that is all the write does. -/
theorem plainWrite_quiet {r : RegRow} {a : Nat} (h : quietReg r a = true) (s : State) (ms : Master) (w : World) (v m u : Nat) :
    s.plainWrite r ms w a v m u = s.storeFields r a v m u := by
  simp only [quietReg, Bool.and_eq_true, beq_iff_eq, Bool.not_eq_true', List.contains_eq_mem, decide_eq_false_iff_not] at h
  obtain ⟨⟨⟨hp, ht⟩, hb⟩, ha⟩ := h
  have hb' := hb
  have ha' := ha
  simp only [List.mem_cons, List.not_mem_nil, or_false, not_or] at hb' ha'
  obtain ⟨-, -, -, hm, hx⟩ := hb'
  obtain ⟨hs, he, ht', -⟩ := ha'
  refine plainWrite_stores u hp ht (fun hm => hb ?_) ?_ ?_ ht' (actWrite_quiet (fun hm => ha ?_) ..)
  · simp only [List.mem_cons, List.not_mem_nil, or_false] at hm ⊢; tauto
  · simp [State.writeIgnored, hm, hx, hs]
  · simp [State.openBits, he]
  · simp only [List.mem_cons, List.not_mem_nil, or_false] at hm ⊢; tauto

theorem holdsBit_eq (r : RegRow) (codes : List Acc) (k : Nat) (hl : ∀ f ∈ r.fields, f.ledger = false) (p : Field → Bool)
    (hp : ∀ f, p f = true ↔ f.ledger = false ∧ f.acc ∈ codes) : (rowMask r p).testBit k = holdsBit r codes k := by
  rw [rowMask_testBit, holdsBit]
  rw [Bool.eq_iff_iff, List.any_eq_true, List.any_eq_true]
  exact exists_congr fun f => and_congr_right fun hf => by simp [hp, hl f hf]

/-- A register of ledger inputs stores nothing at the write. -/
theorem storeFields_ledger (s : State) {r : RegRow} (a v m u : Nat) (hl : ∀ f ∈ r.fields, f.ledger = true) : s.storeFields r a v m u = s := by
  have h0 : ∀ p : Field → Bool, rowMask r (fun f => !f.ledger && p f) = 0 := fun p => by
    rw [rowMask, List.filter_eq_nil_iff.mpr fun f hf => by simp [hl f hf]]
    rfl
  simp [State.storeFields, h0]

theorem rowMask_congr {r : RegRow} {p q : Field → Bool} (h : ∀ f ∈ r.fields, p f = q f) : rowMask r p = rowMask r q := by
  rw [rowMask, rowMask, List.filter_congr h]

/-- Of a register whose fields all take writes of the ledger, a write takes every bit. -/
theorem rowMask_writable (s : State) {r : RegRow} (a : Nat) (h : ∀ f ∈ r.fields, f.ledger = true ∧ (f.acc = .rw ∨ f.acc = .w1s ∨ f.acc = .wo)) :
    rowMask r (fun f => f.ledger && f.acc != .ro && (f.acc != .lk || s.lkOpen a)) = rowMask r fun _ => true :=
  rowMask_congr fun f hf => by obtain ⟨hl, ha | ha | ha⟩ := h f hf <;> simp [hl, ha]

/-- A row that holds a lock bit: the fields that hold bit 31 are write-one-to-set and outside the ledger; a register of the hosts' policy whose writes
are not ignored as a whole. -/
def lockRow (r : RegRow) : Bool :=
  r.pol == .std && !inTenonArea r && !([KS_UPBUF 0, EB_WP_M 0 0 0, EB_WP_CTL 0 0].contains r.base) &&
    r.fields.any (fun f => decide (f.lo ≤ 31) && decide (31 < f.lo + f.width)) &&
    r.fields.all (fun f => !(decide (f.lo ≤ 31) && decide (31 < f.lo + f.width)) || f.acc == .w1s && !f.ledger)

/-- Of a row with a lock bit, a mask holds bit 31 where it takes the lock bit's field, and nowhere else. -/
theorem lockRow_testBit {r : RegRow} (h : lockRow r = true) {p : Field → Bool} {b : Bool} (hp : ∀ f, f.acc = .w1s → f.ledger = false → p f = b) :
    (rowMask r p).testBit 31 = b := by
  simp only [lockRow, Bool.and_eq_true, List.any_eq_true, List.all_eq_true, Bool.or_eq_true, Bool.not_eq_true'] at h
  obtain ⟨⟨-, f, hf, hlo, hhi⟩, hall⟩ := h
  have key : ∀ g ∈ r.fields, (decide (g.lo ≤ 31) && decide (31 < g.lo + g.width)) = true → p g = b := fun g hg hb => by
    obtain ⟨ha, hl⟩ := (hall g hg).resolve_left (by rw [hb]; exact Bool.noConfusion)
    exact hp g (eq_of_beq ha) hl
  rw [rowMask_testBit]
  cases b with
  | true => exact List.any_eq_true.mpr ⟨f, hf, by rw [Bool.and_assoc, key f hf (by rw [hlo, hhi]; rfl), hlo, hhi]; rfl⟩
  | false =>
    refine List.any_eq_false.mpr fun g hg hb => ?_
    rw [Bool.and_assoc, Bool.and_eq_true] at hb
    rw [key g hg hb.2] at hb
    exact Bool.noConfusion hb.1

/-- A write of the lock bit alone stores that bit. -/
theorem bit_storeFields_lock (s : State) {r : RegRow} (h : lockRow r = true) (a : Nat) {k : Nat} (hk : k < 32) :
    (s.storeFields r a (2 ^ 31) (2 ^ 31) 0).bit a k = if k = 31 then true else s.bit a k := by
  rw [bit_storeFields _ _ _ _ _ _ hk]
  by_cases e : k = 31
  · subst e
    have hset := lockRow_testBit h (p := fun f => !f.ledger && f.acc == .w1s) (b := true) fun f ha hl => by simp [ha, hl]
    have hclr := lockRow_testBit h (p := fun f => !f.ledger && f.acc == .w1c) (b := false) fun f ha hl => by simp [ha]
    simp [hset, hclr, show Nat.testBit 2147483648 31 = true from rfl]
  · have h31 : (2147483648 : Nat).testBit k = false := by
      rw [show 2147483648 = 2 ^ 31 from rfl, Nat.testBit_two_pow, decide_eq_false (Ne.symm e)]
    simp [h31, e]

/-- The lock bit of a row is set by a permitted write of 1 to it alone, whatever else a write of the register does. -/
theorem localWrite_lock {s : State} {ms : Master} {w : World} {a : Nat} {r : RegRow} (hl : lockRow r = true) (hal : a % 4 = 0) (hr : s.rowAt a = some r)
    (hw : s.mayWrite r.pol a ms w = true) (ha : a ∉ [FR_STAGE, EP_TBCFG, FLT_ACK, EB_MDIO_CMD, TB_SHWDATA, KS_UPCTL, KS_ATTCTL, CP_HJCTL, HB_LOCKCTL, HB_PWSTAT]) :
    s.localWrite ms w a 4 (2 ^ 31) (2 ^ 31) 0 = s.storeFields r a (2 ^ 31) (2 ^ 31) 0 := by
  have hled : (rowMask r fun f => f.ledger && f.acc != .ro && (f.acc != .lk || s.lkOpen a)) &&& 2 ^ 31 = 0 := by
    rw [Nat.and_two_pow, lockRow_testBit hl (b := false) fun f _ hf => by rw [hf]; rfl]
    rfl
  simp only [List.mem_cons, List.not_mem_nil, or_false, not_or] at ha
  have hx := hl
  simp only [lockRow, Bool.and_eq_true, beq_iff_eq, Bool.not_eq_true', List.contains_eq_mem, decide_eq_false_iff_not] at hx
  obtain ⟨⟨⟨⟨hp, ht⟩, hb⟩, -⟩, -⟩ := hx
  have hplain : s.plainWrite r ms w a (2 ^ 31) (2 ^ 31) 0 = s.storeFields r a (2 ^ 31) (2 ^ 31) 0 := by
    refine plainWrite_stores 0 hp ht hb ?_ ?_ ha.2.1 ?_
    · simp [State.writeIgnored, ha, show Nat.testBit 2147483648 0 = false from rfl]
    · unfold State.openBits
      split <;> rfl
    · simp [State.actWrite, ha, State.frCtrl, show ∀ k < 31, Nat.testBit 2147483648 k = false by decide]
  simp only [State.localWrite, wordAccess, hal, hr, hw, hled, hplain]
  rfl

/-! ### Violations and unmapped space -/

theorem rdN_violation (s : State) : s.violation.rdN FLT_VIOL = min 0xFFFFFFFF (s.rdN FLT_VIOL + 1) := by
  rw [State.violation, rdN_wrN_same]
  exact Nat.mod_eq_of_lt (by omega)

theorem violation_only (s : State) : RegsOnly [FLT_VIOL] s s.violation := (RegsOnly.refl _ s).wrN List.mem_cons_self _

theorem localWrite_refused {s : State} {ms : Master} {w : World} {a size : Nat} (v m u : Nat)
    (h : ¬(size = 4 ∧ a % 4 = 0) ∨ ∃ r, s.rowAt a = some r ∧ s.mayWrite r.pol a ms w = false) : s.localWrite ms w a size v m u = s.violation := by
  unfold State.localWrite
  by_cases hw : wordAccess a size = true
  · obtain ⟨r, hr, hm⟩ := h.resolve_left (by simpa [wordAccess] using hw)
    simp [hw, hr, hm]
  · simp [hw]

theorem localWrite_unmapped {s : State} {a : Nat} (ms : Master) (w : World) (v m u : Nat) (ha : a % 4 = 0) (h : s.rowAt a = none) :
    s.localWrite ms w a 4 v m u = s := by
  simp [State.localWrite, wordAccess, ha, h]

theorem localRead_misshapen {a size : Nat} (s : State) (ms : Master) (w : World) (u : Nat) (h : ¬(size = 4 ∧ a % 4 = 0)) :
    s.localRead ms w a size u = s.violation.answer 0 := by
  have : wordAccess a size = false := by simpa [wordAccess] using h
  simp [State.localRead, this]

theorem localRead_unmapped {s : State} {a : Nat} (ms : Master) (w : World) (u : Nat) (ha : a % 4 = 0) (h : s.rowAt a = none) :
    s.localRead ms w a 4 u = s.answer 0 := by
  simp [State.localRead, wordAccess, ha, h]

end Sys2Proof.Machine

namespace Sys2Proof.Proofs
open Sys2Proof Sys2Proof.Machine

/-- Settles O2: the write stores the fields and nothing more (`plainWrite_quiet`), each bit by its access code (`bit_storeFields`). -/
theorem registerWriteByAccessCode : Obligations.RegisterWriteByAccessCode := by
  intro s ms w a v upd r hre ⟨ha, hal⟩ hr hw hq hl
  have hl : ∀ f ∈ r.fields, f.ledger = false := by simpa using hl
  have e : registerWrite ms w a 4 v upd s = s.storeFields r a v.toNat 0xFFFFFFFF upd := by
    rw [registerWrite_reaches s ms w a 4 upd v hre ha, localWrite_row s ms _ a _ _ _ r hal hr hw hl, plainWrite_quiet hq]
    exact unstall_empty _ (by rw [(storeFields_only ..).hb]; exact hre.2.2.1)
  refine after_hb rfl e (storeFields_only ..).hb fun b hb => ⟨fun k hk => ?_, (storeFields_only s r a v.toNat 0xFFFFFFFF upd).same,
    (storeFields_only ..).frame_hb b, hb⟩
  refine (bit_storeFields s r a v.toNat 0xFFFFFFFF upd hk).trans ?_
  have hst := holdsBit_eq r (if s.lkOpen a then [.rw, .lk] else [.rw]) k hl (fun f => !f.ledger && (f.acc == .rw || (f.acc == .lk && s.lkOpen a)))
    fun f => by cases s.lkOpen a <;> simp
  have hset := holdsBit_eq r [.w1s] k hl (fun f => !f.ledger && f.acc == .w1s) fun f => by simp
  have hclr := holdsBit_eq r [.w1c] k hl (fun f => !f.ledger && f.acc == .w1c) fun f => by simp
  simp only [hst, hset, hclr, testBit_ones hk, Bool.and_true, bitAfterWrite]
  generalize holdsBit r (if s.lkOpen a then [.rw, .lk] else [.rw]) k = st
  rw [BitVec.testBit_toNat]
  cases st <;> simp [Bool.and_comm]

/-- Settles O3: what is refused counts one violation (`localWrite_refused`, `localRead_misshapen`); unmapped space does nothing. -/
theorem violationsAreCountedUnmappedAreNot : Obligations.ViolationsAreCountedUnmappedAreNot := by
  intro s ms w a size upd v hre ha
  have hst := hre.2.2.1
  refine ⟨fun h => ?_, fun h hp => ?_, fun hal hr => ?_, fun hal hr hp => ⟨?_, ?_⟩⟩
  · have e : registerWrite ms w a size v upd s = s.violation := by
      rw [registerWrite_reaches s ms w a size upd v hre ha, localWrite_refused _ _ _ h]
      exact unstall_empty _ hst
    exact after_of rfl e fun b hb => ⟨rdN_violation s, (violation_only s).same, rfl, hb⟩
  · have e : latchedRead ms w a size s = s.violation.answer 0 := by
      rw [show latchedRead ms w a size s = readClear ms w a size 0 s from rfl, readClear_reaches s ms w a size 0 hre hp ha, localRead_misshapen _ _ _ _ h]
      exact unstall_empty _ hst
    exact after_of rfl e fun b hb => ⟨rfl, rfl, rdN_violation s, (violation_only s).same, rfl, hb⟩
  · have e : registerWrite ms w a 4 v upd s = s := by
      rw [registerWrite_reaches s ms w a 4 upd v hre ha, localWrite_unmapped ms _ _ _ _ hal hr, unstall_empty s hst]
    exact after_of rfl e fun b hb => ⟨rfl, hb⟩
  all_goals
    have e : ∀ upd, readClear ms w a 4 upd s = s.answer 0 := fun upd => by
      rw [readClear_reaches s ms w a 4 upd hre hp ha, localRead_unmapped ms _ _ hal hr]
      exact unstall_empty _ hst
    exact after_of rfl (e _) fun b hb => ⟨rfl, rfl, rfl, hb⟩

/-- Settles O4: none of the register's fields is stored (`storeFields_ledger`), and the write is stamped as one input (`stampIn_cur`). -/
theorem ledgerWriteIsStamped : Obligations.LedgerWriteIsStamped := by
  intro s ms w a v upd r e hre ⟨ha, hal⟩ hr hw hq hl hne hao he
  have hled : ∀ f ∈ r.fields, f.ledger = true ∧ (f.acc = .rw ∨ f.acc = .w1s ∨ f.acc = .wo) := by simpa [or_assoc] using hl
  have hmask := rowMask_writable s a hled
  have hlt : v.toNat &&& 0xFFFFFFFF = v.toNat := Nat.and_two_pow_sub_one_of_lt_two_pow (n := 32) v.isLt
  have hwr : registerWrite ms w a 4 v upd s = s.stampIn
      { cls := 0, port := commandPort ms, kind := .command, addr := a, data := v.toNat &&& rowMask r fun _ => true,
        cap := s.capture a ((rowMask r fun _ => true) &&& 0xFFFFFFFF) } := by
    rw [registerWrite_reaches s ms w a 4 upd v hre ha]
    simp only [State.localWrite, wordAccess, hal, hr, hw, hmask, plainWrite_quiet hq, storeFields_ledger s a _ _ _ (fun f hf => (hled f hf).1),
      beq_false_of_ne hne, State.ledgerInput, hao]
    rw [← Nat.and_assoc, Nat.and_right_comm, hlt]
    exact unstall_empty _ (by rw [stampIn_cur _ _ e he]; exact hre.2.2.1)
  rw [stampIn_cur _ _ e he] at hwr
  refine after_of rfl hwr fun b hb => ⟨⟨_, rfl, rfl, rfl, rfl, rfl, rfl, rfl, ?_, ?_⟩, rfl, hb⟩
  · have hsc := hre.2.2.2.1
    cases ms <;> first | rfl | exact absurd rfl hsc
  · cases s.mode <;> rfl

/-- Settles O6: every one of the registers hits a row with a lock bit, and a write of that bit alone stores it and does nothing else (`localWrite_lock`). -/
theorem lockBitIsSet : Obligations.LockBitIsSet := by
  intro s ms w a hre hhost hsec ha
  have hrow : ((hitRow a).any fun r => r.ten == .any && lockRow r) = true ∧ lockRegs.contains a = true ∧ a < 0x800000 ∧ a % 4 = 0 ∧
      a ∉ [FR_STAGE, EP_TBCFG, FLT_ACK, EB_MDIO_CMD, TB_SHWDATA, KS_UPCTL, KS_ATTCTL, CP_HJCTL, HB_LOCKCTL, HB_PWSTAT] := by
    revert a
    decide +kernel
  obtain ⟨hrow, hlr, hlt, hal, hq⟩ := hrow
  obtain ⟨r, hr, -, hl⟩ := rowAt_of_any hrow s
  have hw : s.mayWrite r.pol a ms (worldOf ms w) = true := by
    have : r.pol = .std := by simp only [lockRow, Bool.and_eq_true, beq_iff_eq] at hl; exact hl.1.1.1.1
    simp [State.mayWrite, this, hhost, hsec]
  have e : blockLockSet ms w a s = s.storeFields r a (2 ^ 31) (2 ^ 31) 0 := by
    rw [blockLockSet, if_pos hlr, busWrite_reaches s ms w a _ _ hre hlt, show 2 ^ 31 % 2 ^ 32 = 2 ^ 31 from rfl, localWrite_lock hl hal hr hw hq]
    exact unstall_empty _ (by rw [(storeFields_only ..).hb]; exact hre.2.2.1)
  refine after_hb rfl e (storeFields_only ..).hb fun b hb => ⟨bit_storeFields_lock s hl a (by decide), fun k hk => ?_, (storeFields_only s r a _ _ _).same,
    (storeFields_only ..).frame_hb b, hb⟩
  exact (bit_storeFields_lock s hl a (by omega)).trans (if_neg (by omega))

end Sys2Proof.Proofs
end

section
/-! PROOFS. Reads of this unit's registers that change what they read: the read-clear field, latched high words, priority cells, and reads that
complete with error (R10, R12, R172, R512). -/
set_option Elab.async false
namespace Sys2Proof.Machine
open Sys2Proof

/-- The policies of registers that every host reads and that take no write. -/
def hostReads (p : Pol) : Bool := p == .ro || p == .hostRo

/-- A row of a register whose whole word a host reads, `rc` being the bits of its read-clear fields. -/
def wordRow (rc : Nat) (r : RegRow) : Bool :=
  hostReads r.pol && rowMask r (fun f => f.acc == .rc) == rc && rowMask r (fun f => f.acc != .wo) == 0xFFFFFFFF &&
    !([MZ_STATUS 0, KS_UPBUF 0].contains r.base)

theorem mayRead_host {p : Pol} (h : hostReads p = true) {ms : Master} (hm : isHost ms = true) (lc : Nat) (w : World) : mayRead p lc ms w = true := by
  cases p with
  | ro => simp [mayRead, hm]
  | hostRo => exact hm
  | _ => cases h

/-- A read of a whole word by a host answers what the register shows after what the read latches, and leaves the update in a read-clear field. -/
theorem localRead_word {s : State} {r : RegRow} {a rc : Nat} {ms : Master} (w : World) (u : Nat) (ha : a % 4 = 0) (hr : s.rowAt a = some r)
    (hw : wordRow rc r = true) (hm : isHost ms = true) (hl : inTenonArea r = true → (s.mort ((a - 0x100000) / 0x1000)).st ≠ .loading) :
    s.localRead ms w a 4 u =
      let t := s.readLatch r a
      (if rc = 0 then t else t.wrN a ((t.rdN a &&& (0xFFFFFFFF ^^^ rc)) ||| (u % 2 ^ 32 &&& rc))).answer ((t.view ms w a).getD (t.rdN a) &&& 0xFFFFFFFF) := by
  simp only [wordRow, Bool.and_eq_true, beq_iff_eq, Bool.not_eq_true', List.contains_eq_mem, decide_eq_false_iff_not, List.mem_cons, List.not_mem_nil,
    or_false, not_or] at hw
  obtain ⟨⟨⟨hp, hrc⟩, hall⟩, hst, hup⟩ := hw
  have hmort : ∀ k, (s.readLatch r a).mort k = s.mort k := fun k => (State.readLatch_keeps (c := 0x20) rfl (.refl _ s) r a).mort_eq rfl k
  have hv : (s.readLatch r a).readValue r ms w a = ((s.readLatch r a).view ms w a).getD ((s.readLatch r a).rdN a) &&& 0xFFFFFFFF := by
    have : (inTenonArea r && (s.mort ((a - 0x100000) / 0x1000)).st == .loading) = false := by
      cases h : inTenonArea r
      · rfl
      · simp [hl h]
    simp only [State.readValue, hmort, beq_false_of_ne hup, this, hall]
    rfl
  simp only [State.localRead, wordAccess, ha, hr, mayRead_host hp hm, hrc, hv, beq_false_of_ne hst]
  by_cases h0 : rc = 0
  · subst h0; rfl
  · simp [h0]

theorem and_ones {n : Nat} (h : n < 2 ^ 32) : n &&& 0xFFFFFFFF = n := Nat.and_two_pow_sub_one_of_lt_two_pow h

/-- A read of a register that latches nothing. -/
theorem readLatch_plain {s : State} {r : RegRow} {a : Nat} (ht : r.ten = .any) (hw : s.wide a = none) : s.readLatch r a = s := by
  simp [State.readLatch, ht, hw]

/-- A read of the low word of a wide value latches the high word (R10). -/
theorem readLatch_wide {s : State} {r : RegRow} {a v hi : Nat} (ht : r.ten = .any) (hw : s.wide a = some (v, hi)) :
    s.readLatch r a = s.wrN hi (v / 2 ^ 32) := by
  simp [State.readLatch, ht, hw]

/-- The low words that show the epoch engine and the lease, with the register that latches the high word and the value. -/
theorem wide_lows {s : State} {lo hi v : Nat} (h : (lo, hi, v) ∈ [(EP_NOW_L, EP_NOW_H, s.ep.cur.getD 0), (EP_REL_L, EP_REL_H, s.ep.rel.getD 0),
      (EP_LOSSEP_L, EP_LOSSEP_H, s.ep.lossEp), (EP_DIGEST_L, EP_DIGEST_H, s.ep.digest), (TW_LEXP_L, TW_LEXP_H, s.tw.expiry)]) :
    (∀ n, (s.wrN hi n).wide lo = some (v, hi)) ∧ s.wide lo = some (v, hi) ∧ lo < 0x800000 ∧ lo % 4 = 0 ∧
      ((hitRow lo).any fun r => r.ten == .any && wordRow 0 r) = true := by
  simp only [List.mem_cons, List.not_mem_nil, or_false, Prod.mk.injEq] at h
  obtain ⟨rfl, rfl, rfl⟩ | ⟨rfl, rfl, rfl⟩ | ⟨rfl, rfl, rfl⟩ | ⟨rfl, rfl, rfl⟩ | ⟨rfl, rfl, rfl⟩ := h <;>
    exact ⟨fun _ => rfl, rfl, by decide, by decide, by decide +kernel⟩

/-- An update of registers with another bus and another bridge. -/
theorem RegsOnly.frame_bus {l : List Nat} {s t : State} (h : RegsOnly l s t) (c : Bus) (b : Bridge) :
    ({ t with bus := c, hb := b } : State) = { s with regs := t.regs, bus := c, hb := b } :=
  congrArg (fun x : State => { x with bus := c, hb := b }) h.frame

/-! ### Priority cells -/

/-- The registers that a read of the first word of a priority cell writes (R172). -/
def cellRegs (m k : Nat) : List Nat := CN_PCSTAT m :: (List.range 21).map fun i => CN_PC_W0 m k + 4 * i

theorem cellLatch_only (s : State) (m k : Nat) : RegsOnly (cellRegs m k) s (s.cellLatch m k) := by
  unfold State.cellLatch
  exact (RegsOnly.foldl _ (fun u i hi => (RegsOnly.refl _ u).wrN (List.mem_cons_of_mem _ (List.mem_map_of_mem hi)) _) (.refl _ s)).setBit
    List.mem_cons_self _ _

/-- The first shadow word of a cell after it is copied: the identifier word of its buffer, zero for an empty one. -/
theorem rdN_cellLatch (s : State) (m k : Nat) :
    (s.cellLatch m k).rdN (CN_PC_W0 m k) =
      (if ((s.mort m).can.cells.getD k ([], 0)).1 = [] then 0 else recIdw ((s.mort m).can.cells.getD k ([], 0)).1) % 2 ^ 32 := by
  unfold State.cellLatch
  extract_lets cell ws s1
  have h1 : s1.rdN (CN_PC_W0 m k) = ws.getD 0 0 % 2 ^ 32 := by
    unfold s1
    rw [List.range_succ_eq_map, List.foldl_cons, List.foldl_map]
    have hrest : ∀ t : State, RegsOnly ((List.range 20).map fun i => CN_PC_W0 m k + 4 * (i + 1)) t
        ((List.range 20).foldl (fun s i => s.wrN (CN_PC_W0 m k + 4 * (i + 1)) (ws.getD (i + 1) 0)) t) := fun t =>
      RegsOnly.foldl _ (fun u i hi => (RegsOnly.refl _ u).wrN (List.mem_map_of_mem hi) _) (.refl _ t)
    rw [(hrest _).rdN (by simp only [List.mem_map, not_exists, not_and]; omega)]
    exact rdN_wrN_same ..
  rw [rdN_setBit_ne _ _ _ _ _ (by unfold CN_PC_W0 CN_PCSTAT; omega), h1]
  unfold ws cellWords
  cases cell.1 <;> rfl

/-- A row of the CAN tenon's area is mapped where the mortise has the layout of that tenon. -/
theorem rowAt_of_can {s : State} {a : Nat} {p : RegRow → Bool} (h : ((hitRow a).any fun r => r.ten == .can && p r) = true)
    (hl : (s.mort ((a - 0x100000) / 0x1000)).layout = .can) : ∃ r, s.rowAt a = some r ∧ r.ten = .can ∧ p r = true := by
  obtain ⟨r, hr, h⟩ := (Option.any_eq_true ..).mp h
  obtain ⟨ht, hp⟩ := Bool.and_eq_true_iff.mp h
  have ht := eq_of_beq ht
  exact ⟨r, rowAt_of_hitRow hr (by simp only [State.rowMapped, ht, hl]; rfl), ht, hp⟩

theorem hitRow_cell : ∀ m < 128, ∀ k < 4, ((hitRow (CN_PC_W0 m k)).any fun r => r.ten == .can && wordRow 0 r) = true := by decide +kernel

theorem cellAt_cell {m k : Nat} (hm : m < 128) (hk : k < 4) : cellAt (CN_PC_W0 m k) = some (m, k) := by
  have h1 : CN_PC_W0 m k % 0x1000 = 0x200 + 0x80 * k := by unfold CN_PC_W0; omega
  have h2 : (CN_PC_W0 m k - 0x100000) / 0x1000 = m := by unfold CN_PC_W0; omega
  have h3 : (0x200 + 0x80 * k - 0x200) / 0x80 = k := by rw [Nat.add_sub_cancel_left, Nat.mul_div_cancel_left _ (by decide)]
  unfold cellAt
  simp only [h1, h2, h3, Bool.and_eq_true, Bool.or_eq_true, decide_eq_true_eq, beq_iff_eq]
  exact if_pos (by unfold CN_PC_W0; omega)

/-- The shadow words of a priority cell show what they hold: no block computes them. -/
theorem view_cell (s : State) (ms : Master) (w : World) {m k : Nat} (hm : m < 128) (hk : k < 4) :
    s.wide (CN_PC_W0 m k) = none ∧ s.view ms w (CN_PC_W0 m k) = none := by
  generalize ha : CN_PC_W0 m k = a
  have hlo : 0x100000 ≤ a ∧ a < 0x180000 := by unfold CN_PC_W0 at ha; omega
  have hmod : a % 0x1000 = 0x200 + 0x80 * k := by unfold CN_PC_W0 at ha; omega
  have hne : ∀ c, c < 0x100000 ∨ 0x180000 ≤ c → a ≠ c := by omega
  have hw : s.wide a = none := by
    unfold State.wide
    simp only [beq_iff_eq, Bool.and_eq_true, decide_eq_true_eq]
    repeat rw [if_neg (hne _ (by decide))]
    rw [if_neg (by omega), if_neg (by omega)]
  refine ⟨hw, ?_⟩
  unfold State.view
  simp only [hw, beq_iff_eq, Bool.and_eq_true, decide_eq_true_eq]
  repeat rw [if_neg (hne _ (by decide))]
  rw [if_pos hlo]
  unfold State.mzView
  simp only [hmod]
  split <;> first | rfl | omega

end Sys2Proof.Machine

namespace Sys2Proof.Proofs
open Sys2Proof Sys2Proof.Machine

theorem after_readClear {s : State} {ms : Master} {w : World} {upd : Nat} (hre : s.reaches ms (worldOf ms w)) (hp : s.perr ms = false)
    (hm : isHost ms = true) : After (.readClear ms w ⟨EP_TWOFSMAX, 4⟩ upd) s fun u =>
      u.bus.data = s.rd EP_TWOFSMAX ∧ u.bus.err = false ∧ u.rdN EP_TWOFSMAX = upd % 2 ^ 32 ∧ sameRegs [EP_TWOFSMAX] s u ∧
      u = { s with regs := u.regs, bus := u.bus, hb := u.hb } ∧ sameBridge s u := by
  obtain ⟨r, hr, ht, hw⟩ := rowAt_of_any (p := wordRow 0xFFFFFFFF) (a := EP_TWOFSMAX) (by decide +kernel) s
  have e : readClear ms w EP_TWOFSMAX 4 upd s = (s.wrN EP_TWOFSMAX (upd % 2 ^ 32)).answer (s.rdN EP_TWOFSMAX) := by
    rw [readClear_reaches s ms w _ 4 upd hre hp (by decide), localRead_word (worldOf ms w) upd rfl hr hw hm (by rw [inTenonArea, ht]; exact nofun),
      readLatch_plain ht rfl]
    simp only [if_neg (show ¬(0xFFFFFFFF = 0) by decide), Nat.xor_self, Nat.and_zero, Nat.zero_or, and_ones (Nat.mod_lt _ (Nat.two_pow_pos 32))]
    rw [show s.view ms (worldOf ms w) EP_TWOFSMAX = none from rfl, Option.getD_none, and_ones (rdN_lt ..)]
    exact unstall_empty _ hre.2.2.1
  refine after_hb rfl e rfl fun b hb => ⟨BitVec.ofNat_toNat .., rfl, ?_, ((RegsOnly.refl _ s).wrN List.mem_cons_self _).same, rfl, hb⟩
  exact (rdN_wrN_same ..).trans (Nat.mod_mod ..)

theorem after_latchedRead {s : State} {ms : Master} {w : World} {lo hi v : Nat} (hre : s.reaches ms (worldOf ms w)) (hp : s.perr ms = false)
    (hm : isHost ms = true) (h : (lo, hi, v) ∈ [(EP_NOW_L, EP_NOW_H, s.ep.cur.getD 0), (EP_REL_L, EP_REL_H, s.ep.rel.getD 0),
      (EP_LOSSEP_L, EP_LOSSEP_H, s.ep.lossEp), (EP_DIGEST_L, EP_DIGEST_H, s.ep.digest), (TW_LEXP_L, TW_LEXP_H, s.tw.expiry)]) :
    After (.latchedRead ms w ⟨lo, 4⟩) s fun u =>
      u.bus.data = BitVec.ofNat 32 v ∧ u.bus.err = false ∧ u.rd hi = BitVec.ofNat 32 (v / 2 ^ 32) ∧ sameRegs [hi] s u ∧
      u = { s with regs := u.regs, bus := u.bus, hb := u.hb } ∧ sameBridge s u := by
  obtain ⟨hwide', hwide, hlt, hal, hrow⟩ := wide_lows h
  obtain ⟨r, hr, ht, hw⟩ := rowAt_of_any hrow s
  have e : latchedRead ms w lo 4 s = (s.wrN hi (v / 2 ^ 32)).answer (v % 2 ^ 32) := by
    rw [show latchedRead ms w lo 4 s = readClear ms w lo 4 0 s from rfl, readClear_reaches s ms w lo 4 0 hre hp hlt,
      localRead_word (worldOf ms w) 0 hal hr hw hm (by rw [inTenonArea, ht]; exact nofun), readLatch_wide ht hwide]
    simp only [State.view, hwide', Option.getD_some, and_ones (Nat.mod_lt _ (Nat.two_pow_pos 32)), if_true]
    exact unstall_empty _ hre.2.2.1
  refine after_hb rfl e rfl fun b hb => ⟨?_, rfl, rd_wr_same .., ((RegsOnly.refl _ s).wrN List.mem_cons_self _).same, rfl, hb⟩
  exact BitVec.eq_of_toNat_eq (by simp [State.answer])

theorem after_priorityCellRead {s : State} {ms : Master} {w : World} {m k : Nat} (hre : s.reaches ms (worldOf ms w)) (hp : s.perr ms = false)
    (hh : isHost ms = true) (hm : m < 128) (hk : k < 4) (hten : (s.mort m).tenon = .can) (hst : (s.mort m).st = .inService) :
    After (.priorityCellRead ms w m k) s fun u =>
      u.bus.data = BitVec.ofNat 32 (if ((s.mort m).can.cells.getD k ([], 0)).1 = [] then 0 else recIdw ((s.mort m).can.cells.getD k ([], 0)).1) ∧
      u.bit (CN_PCSTAT m) k = false ∧ (∀ j < 32, j ≠ k → u.bit (CN_PCSTAT m) j = s.bit (CN_PCSTAT m) j) ∧
      sameRegs (cellRegs m k) s u ∧ u = { s with regs := u.regs, bus := u.bus, hb := u.hb } ∧ sameBridge s u := by
  have hpage : (CN_PC_W0 m k - 0x100000) / 0x1000 = m := by unfold CN_PC_W0; omega
  have hlt : CN_PC_W0 m k < 0x800000 := by unfold CN_PC_W0; omega
  obtain ⟨r, hr, ht, hw⟩ := rowAt_of_can (hitRow_cell m hm k hk) (s := s) (by rw [hpage, Mortise.layout, hst, hten]; rfl)
  have hl : s.readLatch r (CN_PC_W0 m k) = s.cellLatch m k := by
    simp only [State.readLatch, (view_cell s ms w hm hk).1, ht, cellAt_cell hm hk]
  have e : priorityCellRead ms w m k s = (s.cellLatch m k).answer ((s.cellLatch m k).rdN (CN_PC_W0 m k)) := by
    rw [priorityCellRead, if_pos (by simp [hm, hk]), busRead_reaches s ms w _ hre hp hlt,
      localRead_word (worldOf ms w) 0 (by unfold CN_PC_W0; omega) hr hw hh (by rw [hpage, hst]; exact fun _ => nofun), hl]
    simp only [(view_cell _ _ _ hm hk).2, Option.getD_none, and_ones (rdN_lt ..), if_true]
    exact unstall_empty _ ((congrArg Bridge.stalled (cellLatch_only s m k).hb).trans hre.2.2.1)
  have hbit : ∀ j < 32, (s.cellLatch m k).bit (CN_PCSTAT m) j = if j = k then false else s.bit (CN_PCSTAT m) j := fun j hj => by
    unfold State.cellLatch
    rw [bit_setBit _ _ _ _ _ hj]
    refine if_congr Iff.rfl rfl ?_
    refine (RegsOnly.foldl (l := (List.range 21).map fun i => CN_PC_W0 m k + 4 * i) _
      (fun u i hi => (RegsOnly.refl _ u).wrN (List.mem_map_of_mem hi) _) (.refl _ s)).same.bit ?_ j
    simp only [List.mem_map, not_exists, not_and]
    unfold CN_PC_W0 CN_PCSTAT
    omega
  rw [rdN_cellLatch] at e
  have honly := cellLatch_only s m k
  generalize s.cellLatch m k = x at e hbit honly
  refine after_hb rfl e honly.hb fun b hb => ⟨BitVec.eq_of_toNat_eq (by simp [State.answer]), (hbit k (by omega)).trans (if_pos rfl),
    fun j hj hjk => (hbit j hj).trans (if_neg hjk), honly.same, ?_, hb⟩
  exact honly.frame_bus _ b

/-- Settles O5: what each read latches, answers and clears. -/
theorem readsClearLatchAndFail : Obligations.ReadsClearLatchAndFail := by
  refine ⟨fun s ms w upd => after_readClear, fun s ms w lo hi v => after_latchedRead, fun s ms w m k => after_priorityCellRead, ?_⟩
  intro s ms k hd hk hp
  have hn : masterNo ms = some k ∧ ms ≠ .spi ∧ 1 + k < 32 := by
    simp only [List.mem_cons, List.not_mem_nil, or_false, Prod.mk.injEq] at hk
    obtain ⟨rfl, rfl⟩ | ⟨rfl, rfl⟩ | ⟨rfl, rfl⟩ := hk <;> decide
  obtain ⟨hno, hspi, hlt⟩ := hn
  have e : readCompletesWithError ms s = (s.setBit HB_STATUS (1 + k) false).onBus fun b => { b with data := 0, err := true } := by
    simp [readCompletesWithError, hd, hspi, State.perr, hno, hp, State.readError]
  exact after_hb rfl e rfl fun b hb => ⟨rfl, rfl, (bit_setBit s _ _ _ _ hlt).trans (if_pos rfl), fun j hj hjk => (bit_setBit s _ _ _ _ hj).trans (if_neg hjk),
    ((RegsOnly.refl _ s).setBit List.mem_cons_self _ _).same, rfl, hb⟩

end Sys2Proof.Proofs
end

section
/-! PROOFS. Which fields an operation may change, as one equation of states. -/
set_option Elab.async false
namespace Sys2Proof.Machine
open Sys2Proof

/-- What is kept, as one equation: the fields whose bits are clear in `c` are as before. With `c` written out the choices reduce away, so that
`h.frame` says `t = { s with … := t.…, … }` for the fields whose bits are set. -/
theorem Keeps.frame {c : Nat} {s t : State} (h : Keeps c s t) : t =
    { pending := s.pending, grade := s.grade
      now := bif c.testBit 1 then t.now else s.now
      free := bif c.testBit 2 then t.free else s.free
      mode := bif c.testBit 4 then t.mode else s.mode
      regs := bif c.testBit 5 then t.regs else s.regs
      mem := bif c.testBit 6 then t.mem else s.mem
      held := bif c.testBit 7 then t.held else s.held
      bus := bif c.testBit 8 then t.bus else s.bus
      tb := bif c.testBit 9 then t.tb else s.tb
      ep := bif c.testBit 10 then t.ep else s.ep
      fr := bif c.testBit 11 then t.fr else s.fr
      flt := bif c.testBit 12 then t.flt else s.flt
      mz := bif c.testBit 13 then t.mz else s.mz
      banks := bif c.testBit 14 then t.banks else s.banks
      bays := bif c.testBit 15 then t.bays else s.bays
      gw := bif c.testBit 16 then t.gw else s.gw
      tab := bif c.testBit 17 then t.tab else s.tab
      sch := bif c.testBit 18 then t.sch else s.sch
      ks := bif c.testBit 19 then t.ks else s.ks
      cp := bif c.testBit 20 then t.cp else s.cp
      tw := bif c.testBit 21 then t.tw else s.tw
      wk := bif c.testBit 22 then t.wk else s.wk
      pw := bif c.testBit 23 then t.pw else s.pw
      sill := bif c.testBit 24 then t.sill else s.sill
      hb := bif c.testBit 25 then t.hb else s.hb } := by
  have e : ∀ {α : Type} (k : Nat) {x y : α}, (sameField s t k → x = y) → x = bif c.testBit k then x else y := by
    intro α k x y hk
    cases hc : c.testBit k with
    | true => rfl
    | false => exact hk (h.at_ k hc)
  have hp := h.pending
  have hg := h.grade
  cases t
  cases hp
  cases hg
  rw [← e 1 id, ← e 2 id, ← e 4 id, ← e 5 id, ← e 6 id, ← e 7 id, ← e 8 id, ← e 9 id, ← e 10 id, ← e 11 id, ← e 12 id, ← e 13 id, ← e 14 id, ← e 15 id,
    ← e 16 id, ← e 17 id, ← e 18 id, ← e 19 id, ← e 20 id, ← e 21 id, ← e 22 id, ← e 23 id, ← e 24 id, ← e 25 id]

end Sys2Proof.Machine
end

section
/-! PROOFS. The register buses and the far window: locks, prefetch blocks, far accesses and the posted-write error log (R509 to R515, R550). -/
set_option Elab.async false
namespace Sys2Proof.Machine
open Sys2Proof

/-! ### Registers whose writes act -/

theorem reaches_tick {s : State} {ms : Master} {w : World} (t : Nat) (h : s.reaches ms w) : (s.tick t).reaches ms w := h

/-- A row of a register outside the ledger whose writes are held up by nothing: no tenon area, no ring, table or tamper policy, no key packet or
wake pattern. -/
def actRow (r : RegRow) : Bool :=
  !inTenonArea r && !([.ring, .msix, .tamp].contains r.pol) && !([KS_UPBUF 0, EB_WP_M 0 0 0, EB_WP_CTL 0 0, EB_MACCFG 0, EB_RXCFG 0].contains r.base) &&
    r.fields.all (fun f => !f.ledger)

/-- A permitted write of a register that acts stores its fields and acts. -/
theorem localWrite_acts {s : State} {r : RegRow} {ms : Master} {w : World} {a : Nat} (v m u : Nat) (ha : a % 4 = 0) (hr : s.rowAt a = some r)
    (hw : s.mayWrite r.pol a ms w = true) (hrow : actRow r = true) (hst : a ≠ FR_STAGE) (hep : a ≠ EP_CTRL) {t : State}
    (hact : (s.storeFields r a v m u).actWrite ms w a (v &&& m) = t) (hrole : t.tbRole = s.tbRole) :
    s.localWrite ms w a 4 v m u = t := by
  simp only [actRow, Bool.and_eq_true, Bool.not_eq_true', List.contains_eq_mem, decide_eq_false_iff_not, List.mem_cons, List.not_mem_nil, or_false, not_or,
    List.all_eq_true] at hrow
  obtain ⟨⟨⟨ht, hp1, hp2, hp3⟩, hb1, hb2, hb3, hb4, hb5⟩, hl⟩ := hrow
  rw [localWrite_row s ms w a v m u r ha hr hw hl]
  simp [State.plainWrite, State.tenonShut, ht, hp1, hp2, hp3, hb1, hb2, hb3, State.writeIgnored, hb4, hb5, hst, State.openBits, hep, hact, hrole]

theorem rd_congr {s t : State} (h : t.regs = s.regs) (a : Nat) : t.rd a = s.rd a := by rw [State.rd, h]; rfl

theorem tbRole_congr {s t : State} (h : t.rd EP_TBCFG = s.rd EP_TBCFG) : t.tbRole = s.tbRole := by
  rw [State.tbRole, State.fld, State.rdN, h]; rfl

/-! ### Locks (R514) -/

/-- A write of HB_LOCKCTL by a host, with TGT clear, stores TGT and acts on the lock of this unit's bus. -/
theorem localWrite_lockCtl (s : State) {ms : Master} (w : World) (acq rel : Bool) (hm : isHost ms = true) :
    ∃ x, RegsOnly [HB_LOCKCTL] s x ∧ s.localWrite ms w HB_LOCKCTL 4 (b2n acq + 2 * b2n rel) 7 0 = x.lockCtl ms w false acq rel := by
  obtain ⟨r, hr, -, hrow⟩ := rowAt_of_any (a := HB_LOCKCTL) (p := fun r => r.pol == .stdAnyW && actRow r) (by decide +kernel) s
  obtain ⟨hp, hrow⟩ := Bool.and_eq_true_iff.mp hrow
  have hp := eq_of_beq hp
  have honly := storeFields_only s r HB_LOCKCTL (b2n acq + 2 * b2n rel) 7 0
  refine ⟨_, honly, localWrite_acts _ 7 0 rfl hr (by simp [hp, State.mayWrite, hm]) hrow (by decide) (by decide) ?_ (tbRole_congr ?_)⟩
  · show State.lockCtl _ ms w _ _ _ = _
    cases acq <;> cases rel <;> rfl
  rw [← honly.same EP_TBCFG (by decide)]
  exact rd_congr ((State.lockCtl_keeps (c := 0x2000004) rfl (.refl _ _) ms w _ _ _).at_ 5 rfl) _

theorem lockCtl_acquire {s : State} {ms : Master} {w : World} (h : s.hb.lockL = none) :
    s.lockCtl ms w false true false = s.onHb fun h => { h with lockL := some { ms := ms, w := w, at_ := s.now } } := by
  simp [State.lockCtl, h]

theorem lockCtl_release {s : State} {ms : Master} {w : World} {n : Nat} (h : s.hb.lockL = some { ms := ms, w := w, at_ := n }) :
    s.lockCtl ms w false false true = s.onHb fun h => { h with lockL := none } := by
  simp [State.lockCtl, h]

theorem isFar_window {off : Nat} (h : off < 0x800000) : isFar (0x800000 + off) = true := by
  simp [isFar]; omega

/-! ### The posted-write error log (R511, R512) -/

/-- The registers that the first entry of the log touches. -/
def logRegs : List Nat := [HB_EVENT, HB_PWSTAT, HB_PWLOG_W0 0, HB_PWLOG_W1 0, HB_PWLOG_W2 0, HB_PWLOG_W3 0, HB_STATUS]

/-- The first entry of the log: one entry, with the offset, the master and the code of the failure and the data, PWERR and the master's flag set. -/
structure LoggedFirst (u : State) (off k code d : Nat) : Prop where
  count : u.fld HB_PWSTAT 0 3 = 1
  addr : u.fld (HB_PWLOG_W0 0) 0 24 = off
  master : u.fld (HB_PWLOG_W0 0) 24 3 = k
  code : u.fld (HB_PWLOG_W0 0) 28 4 = code
  data : u.rdN (HB_PWLOG_W1 0) = d % 2 ^ 32
  pwerr : u.bit HB_EVENT 0 = true
  perr : u.bit HB_STATUS (1 + k) = true

theorem masterNo_lt {ms : Master} {k : Nat} (h : masterNo ms = some k) : k < 4 := by
  cases ms <;> cases h <;> decide

theorem logFailure_first {s : State} {ms : Master} {k off code : Nat} (w : World) (d : Nat) (hk : masterNo ms = some k) (h0 : s.fld HB_PWSTAT 0 3 = 0)
    (ho : off < 2 ^ 24) (hc : code < 16) :
    RegsOnly logRegs s (s.logFailure ms w off d code) ∧ LoggedFirst (s.logFailure ms w off d code) off k code d := by
  have hk4 := masterNo_lt hk
  have e : s.logFailure ms w off d code = ((((((s.wrN (HB_PWLOG_W0 0) (off + 2 ^ 24 * k + 2 ^ 27 * b2n (w == .secure) + 2 ^ 28 * code)).wrN
      (HB_PWLOG_W1 0) d).wrN (HB_PWLOG_W2 0) (s.stampEp % 2 ^ 32)).wrN (HB_PWLOG_W3 0) (s.stampEp / 2 ^ 32)).setFld HB_PWSTAT 0 3 1).evt
      HB_EVENT 0).setBit HB_STATUS (1 + k) true := by
    simp only [State.logFailure, hk, h0, Nat.mod_eq_of_lt ho]
    rfl
  have hb : b2n (w == .secure) ≤ 1 := by cases w <;> decide
  rw [e]
  generalize b2n (w == .secure) = b at hb
  refine ⟨?_, ?_⟩
  · exact ((((((RegsOnly.refl _ s).wrN (by decide) _).wrN (by decide) _).wrN (by decide) _ |>.wrN (by decide) _).setFld (by decide) _ _ _).evt
      (by decide) _).setBit (by decide) _ _
  · have hrd : ∀ (x : State) (a : Nat), a ≠ HB_PWSTAT → a ≠ HB_EVENT → a ≠ HB_STATUS →
        (((x.setFld HB_PWSTAT 0 3 1).evt HB_EVENT 0).setBit HB_STATUS (1 + k) true).rdN a = x.rdN a := fun x a h1 h2 h3 => by
      rw [rdN_setBit_ne _ _ _ _ _ h3, rdN_evt_ne _ _ _ _ h2, rdN_setFld_ne _ _ _ _ _ _ h1]
    have hw0 := hrd ((((s.wrN (HB_PWLOG_W0 0) (off + 2 ^ 24 * k + 2 ^ 27 * b + 2 ^ 28 * code)).wrN (HB_PWLOG_W1 0) d).wrN (HB_PWLOG_W2 0)
      (s.stampEp % 2 ^ 32)).wrN (HB_PWLOG_W3 0) (s.stampEp / 2 ^ 32)) (HB_PWLOG_W0 0) (by decide) (by decide) (by decide)
    rw [rdN_wrN_ne _ _ _ _ (by decide), rdN_wrN_ne _ _ _ _ (by decide), rdN_wrN_ne _ _ _ _ (by decide), rdN_wrN_same] at hw0
    constructor
    · rw [State.fld, rdN_setBit_ne _ _ _ _ _ (by decide), rdN_evt_ne _ _ _ _ (by decide)]
      exact fld_setFld_same _ _ _ _ _ (by decide)
    iterate 3
      rw [State.fld, hw0, bitsN, Nat.shiftRight_eq_div_pow]
      omega
    · rw [hrd _ _ (by decide) (by decide) (by decide), rdN_wrN_ne _ _ _ _ (by decide), rdN_wrN_ne _ _ _ _ (by decide), rdN_wrN_same]
    · rw [State.bit, rdN_setBit_ne _ _ _ _ _ (by decide)]
      exact bit_evt_same _ _ _ (by decide)
    · exact (bit_setBit _ _ _ _ _ (by omega)).trans (if_pos rfl)

end Sys2Proof.Machine

namespace Sys2Proof.Proofs
open Sys2Proof Sys2Proof.Machine

theorem after_lockAcquire {s : State} (t : Nat) {ms : Master} {w : World} (hre : s.reaches ms (worldOf ms w)) (hm : isHost ms = true)
    (hl : s.hb.lockL = none) : After (.lockAcquire t ms w false) s fun u =>
      u.hb.lockL = some { ms := ms, w := worldOf ms w, at_ := max s.now t } ∧ u.hb.lockF = s.hb.lockF ∧ sameRegs [HB_LOCKCTL] s u ∧
      u = { s with now := max s.now t, regs := u.regs, hb := u.hb } := by
  obtain ⟨x, hx, ex⟩ := localWrite_lockCtl (s.tick t) (worldOf ms w) true false hm
  have hxl : x.hb.lockL = none := by rw [hx.hb]; exact hl
  have hnow : x.now = max s.now t := by rw [hx.frame]; rfl
  have hsc : ms ≠ .scarf := hre.2.2.2.1
  have e : lockAcquire t ms w false s = x.onHb fun h => { h with lockL := some { ms := ms, w := worldOf ms w, at_ := max s.now t } } := by
    rw [lockAcquire, if_neg (by simpa using hsc), busWrite_reaches _ ms w _ _ _ (reaches_tick t hre) (by decide)]
    refine (congrArg State.unstall ex).trans ?_
    rw [lockCtl_acquire hxl, hnow]
    exact unstall_empty _ (by rw [State.onHb_hb, hx.hb]; exact hre.2.2.1)
  refine after_of rfl e fun b hb => ⟨by rw [hb.1]; rfl, ?_, hx.same, congrArg (fun y : State => { y with hb := b }) hx.frame⟩
  rw [hb.1]
  show x.hb.lockF = _
  rw [hx.hb]
  rfl

theorem after_lockRelease {s : State} {ms : Master} {w : World} {n : Nat} (hd : s.dieOn = true) (hst : s.hb.stalled = []) (hm : isHost ms = true)
    (hspi : ms = .spi → s.spiOpen w = true) (hl : s.hb.lockL = some { ms := ms, w := worldOf ms w, at_ := n }) :
    After (.lockRelease ms w false) s fun u =>
      u.hb.lockL = none ∧ u.hb.lockF = s.hb.lockF ∧ sameRegs [HB_LOCKCTL] s u ∧ u = { s with regs := u.regs, hb := u.hb } := by
  have hsc : ms ≠ .scarf := by rintro rfl; cases hm
  have hre : s.reaches ms (worldOf ms w) :=
    ⟨hd, fun l h => by rw [hl] at h; cases h; exact ⟨rfl, rfl⟩, hst, hsc, fun h => by subst h; exact hspi rfl⟩
  obtain ⟨x, hx, ex⟩ := localWrite_lockCtl s (worldOf ms w) false true hm
  have e : lockRelease ms w false s = x.onHb fun h => { h with lockL := none } := by
    rw [lockRelease, if_neg (by simpa using hsc), busWrite_reaches _ ms w _ _ _ hre (by decide)]
    refine (congrArg State.unstall ex).trans ?_
    rw [lockCtl_release (by rw [hx.hb]; exact hl)]
    exact unstall_empty _ (by rw [State.onHb_hb, hx.hb]; exact hst)
  refine after_of rfl e fun b hb => ⟨by rw [hb.1]; rfl, ?_, hx.same, congrArg (fun y : State => { y with hb := b }) hx.frame⟩
  rw [hb.1]
  show x.hb.lockF = _
  rw [hx.hb]

theorem after_lockAbort {s : State} (t : Nat) {far : Bool} {l : BusLock} {k : Nat} (hl : (if far then s.hb.lockF else s.hb.lockL) = some l)
    (ht : l.at_ + 4000 ≤ max s.now t) (hst : s.hb.stalled = []) (hk : masterNo l.ms = some k) (h0 : s.fld HB_PWSTAT 0 3 = 0) :
    After (.lockAbort t far) s fun u =>
      (if far then u.hb.lockF else u.hb.lockL) = none ∧ u.bit HB_EVENT 1 = true ∧ u.rdN (HB_CNT 1) = (s.rdN (HB_CNT 1) + 1) % 2 ^ 32 ∧
      u.fld HB_PWSTAT 0 3 = 1 ∧ u.fld (HB_PWLOG_W0 0) 0 24 = 0 ∧ u.fld (HB_PWLOG_W0 0) 24 3 = k ∧ u.fld (HB_PWLOG_W0 0) 28 4 = 3 ∧
      u.bit HB_STATUS (1 + k) = true ∧
      sameRegs [HB_EVENT, HB_CNT 1, HB_PWSTAT, HB_PWLOG_W0 0, HB_PWLOG_W1 0, HB_PWLOG_W2 0, HB_PWLOG_W3 0, HB_STATUS] s u ∧
      u = { s with now := max s.now t, regs := u.regs, hb := u.hb } := by
  have hk4 := masterNo_lt hk
  obtain ⟨y, hy⟩ : ∃ y, y = (s.tick t).onHb fun h => if far then { h with lockF := none } else { h with lockL := none } := ⟨_, rfl⟩
  obtain ⟨hlog, hrec⟩ := logFailure_first (s := y) l.w 0 hk (by rw [hy]; exact h0) (off := 0) (code := 3) (by decide) (by decide)
  obtain ⟨x, hxe⟩ : ∃ x, x = y.logFailure l.ms l.w 0 0 3 := ⟨_, rfl⟩
  rw [← hxe] at hlog hrec
  obtain ⟨hcount, haddr, hmaster, hcode, -, -, hperr⟩ := hrec
  have hxst : x.hb.stalled = [] := by rw [hlog.hb, hy]; cases far <;> exact hst
  have e : lockAbort t far s = (x.evt HB_EVENT 1).inc (HB_CNT 1) := by
    have : (if far = true then (s.tick t).hb.lockF else (s.tick t).hb.lockL) = some l := hl
    simp only [lockAbort, this, if_neg (Nat.not_lt.mpr (show l.at_ + 4000 ≤ (s.tick t).now from ht))]
    rw [← hy, ← hxe]
    exact unstall_empty _ hxst
  have hsub : RegsOnly [HB_EVENT, HB_CNT 1, HB_PWSTAT, HB_PWLOG_W0 0, HB_PWLOG_W1 0, HB_PWLOG_W2 0, HB_PWLOG_W3 0, HB_STATUS] y
      ((x.evt HB_EVENT 1).inc (HB_CNT 1)) := ((hlog.mono (by decide)).evt (by decide) _).inc (by decide) _
  have hrd : ∀ a, a ≠ HB_EVENT → a ≠ HB_CNT 1 → ((x.evt HB_EVENT 1).inc (HB_CNT 1)).rdN a = x.rdN a := fun a h1 h2 => by
    rw [rdN_inc_ne _ _ _ _ h2, rdN_evt_ne _ _ _ _ h1]
  have hcnt : ((x.evt HB_EVENT 1).inc (HB_CNT 1)).rdN (HB_CNT 1) = (s.rdN (HB_CNT 1) + 1) % 2 ^ 32 := by
    rw [rdN_inc_same, rdN_evt_ne _ _ _ _ (by decide), hlog.rdN (by decide), hy]
    rfl
  have hev : ((x.evt HB_EVENT 1).inc (HB_CNT 1)).bit HB_EVENT 1 = true := by
    rw [State.bit, rdN_inc_ne _ _ _ _ (by decide)]
    exact bit_evt_same _ _ _ (by decide)
  have hbit : ((x.evt HB_EVENT 1).inc (HB_CNT 1)).bit HB_STATUS (1 + k) = true := by
    rw [State.bit, hrd _ (by decide) (by decide)]
    exact hperr
  have hfld : ∀ a lo w, a ≠ HB_EVENT → a ≠ HB_CNT 1 → ((x.evt HB_EVENT 1).inc (HB_CNT 1)).fld a lo w = x.fld a lo w := fun a lo w h1 h2 => by
    rw [State.fld, hrd _ h1 h2]; rfl
  have hyhb : y.hb = if far then { s.hb with lockF := none } else { s.hb with lockL := none } := by rw [hy]; rfl
  have hframe := hsub.frame
  have hxhb := hsub.hb
  have hsame := hsub.same
  rw [← hfld _ _ _ (by decide) (by decide)] at hcount haddr hmaster hcode
  generalize (x.evt HB_EVENT 1).inc (HB_CNT 1) = z at *
  refine after_of rfl e fun b hb => ⟨?_, hev, hcnt, hcount, haddr, hmaster, hcode, hbit, ?_, ?_⟩
  · rw [hb.1, hxhb, hyhb]
    cases far <;> rfl
  · intro a ha
    refine (hsame a ha).trans ?_
    rw [hy]
    rfl
  · refine (congrArg (fun y : State => { y with hb := b }) hframe).trans ?_
    rw [hy]
    rfl

theorem after_prefetchRead {s : State} (t : Nat) {ms : Master} {w : World} {off k n : Nat} (block : List Word) (hd : s.dieOn = true)
    (hn : masterNo ms = some n) (hspi : ms = .spi → s.spiOpen w = true) (hp : s.perr ms = false) (hst : s.hb.stalled = []) (hlf : s.hb.lockF = none)
    (hbl : s.hb.blocks = []) (hup : s.tw.scfUp = true) (ho : off < 0x800000) (hal : off % 4 = 0) (hk : s.pfWindow off = some k) :
    After (.prefetchRead t ms w off block) s fun u =>
      u.hb.blocks = [{ off := off - off % 256, words := block, at_ := max s.now t, life := max 1 (s.fld (HB_PF_CFG k) 8 8) }] ∧
      u.bus.data = block.getD (off % 256 / 4) 0 ∧ u.bus.err = false ∧ u = { s with now := max s.now t, bus := u.bus, hb := u.hb } := by
  have hsc : ms ≠ .scarf := by rintro rfl; cases hn
  obtain ⟨x, hx⟩ : ∃ x : PfBlock, x = ⟨off - off % 256, block, max s.now t, max 1 (s.fld (HB_PF_CFG k) 8 8)⟩ := ⟨_, rfl⟩
  have e : prefetchRead t ms w off block s =
      ((s.tick t).onHb fun h => { h with blocks := [x] }).answer ((block.getD (off % 256 / 4) 0).toNat) := by
    have hwin : (s.tick t).pfWindow off = some k := hk
    have hperr : (s.tick t).perr ms = false := hp
    have hopen : (ms == .spi && !(s.tick t).spiOpen w) = false := by
      by_cases h : ms = .spi
      · simp [show (s.tick t).spiOpen w = true from hspi h]
      · simp [h]
    have hfree : (s.tick t).blocked { ms := ms, w := worldOf ms w, addr := 0x800000 + off } = false := by
      simp [State.blocked, hlf, isFar_window ho]
    have hheld : (s.tick t).heldBlock off = none := by simp [State.heldBlock, hbl]
    have hoff : off / 256 * 256 = off - off % 256 := by omega
    simp [prefetchRead, hsc, hwin, hd, hn, Nat.not_le.mpr ho, hopen, hal, hperr, hfree, hst, hheld, hup, hbl, hx, hoff, State.onHb]
  refine after_of rfl e fun b hb => ⟨by rw [hb.1, ← hx]; rfl, ?_, rfl, rfl⟩
  exact BitVec.ofNat_toNat ..

theorem after_prefetchExpire {s : State} (t : Nat) {k : Nat} {x : PfBlock} (hk : s.hb.blocks[k]? = some x) (ht : x.at_ + 1000 * x.life ≤ max s.now t) :
    After (.prefetchExpire t k) s fun u =>
      u.hb.blocks = s.hb.blocks.eraseIdx k ∧ u = { s with now := max s.now t, hb := u.hb } ∧
      sameBridge { s with hb := { s.hb with blocks := s.hb.blocks.eraseIdx k } } u := by
  have e : prefetchExpire t k s = (s.tick t).onHb fun h => { h with blocks := h.blocks.eraseIdx k } := by
    simp only [prefetchExpire, State.tick_hb, hk]
    exact if_neg (Nat.not_lt.mpr ht)
  exact after_of rfl e fun b hb => ⟨by rw [hb.1]; rfl, rfl, hb⟩

/-- Settles O7: the three lock commands and the two of the prefetch windows, each by what it leaves of the bridge. -/
theorem locksAndPrefetch : Obligations.LocksAndPrefetch :=
  ⟨fun _ t _ _ => after_lockAcquire t, fun _ _ _ _ => after_lockRelease, fun _ t _ _ _ => after_lockAbort t,
    fun _ t _ _ _ _ _ block => after_prefetchRead t block, fun _ t _ _ => after_prefetchExpire t⟩

/-! ### Far accesses -/

/-- A far access that nothing holds up is issued, and what it leaves waits for nothing. -/
theorem farAccess_issued {s : State} (t : Nat) {ms : Master} {w : World} {off size k : Nat} {v : Option Word} (hd : s.dieOn = true)
    (hk : masterNo ms = some k) (hst : s.hb.stalled = []) (hlf : s.hb.lockF = none) (hfar : s.hb.far = []) (hp : s.perr ms = false)
    (hspi : ms = .spi → s.spiOpen w = true) (ho : off < 0x800000) :
    farAccess t ms w off size v s = ((s.tick t).farIssue ⟨ms, worldOf ms w, off, size, v, 0⟩).unstall := by
  have hsc : ms ≠ .scarf := by rintro rfl; cases hk
  have hperr : (s.tick t).perr ms = false := hp
  have hopen : (ms == .spi && !(s.tick t).spiOpen (worldOf ms w)) = false := by
    by_cases h : ms = .spi
    · subst h; simp [worldOf, show (s.tick t).spiOpen w = true from hspi rfl]
    · simp [h]
  have hfree : (s.tick t).blocked ⟨ms, worldOf ms w, 0x800000 + off, size, v, 0xFFFFFFFF, 0⟩ = false := by
    simp [State.blocked, isFar_window ho, hlf, hfar]
  simp [farAccess, ho, State.access, hd, hsc, hopen, hperr, hst, hfree, State.perform, isFar_window ho, hk]

/-- A far access over a window with no block held: it is queued while the window is live, and fails where it is not. -/
theorem farIssue_noBlocks {s : State} {x : FarReq} (hb : s.hb.blocks = []) :
    s.farIssue x =
      if s.tw.scfUp then
        let u := s.onHb fun h => { h with far := h.far ++ [{ x with at_ := s.now }] }
        if x.data.isNone then u.onBus fun b => { b with data := 0, err := false } else u
      else s.farFail x s.downCode := by
  have hf : (s.onHb fun h => { h with blocks := h.blocks.filter (fun b => b.off / 256 != x.off / 256) }) = s := by
    simp only [State.onHb, hb, List.filter_nil]
    rw [← hb]
  have hh : s.heldBlock x.off = none := by simp [State.heldBlock, hb]
  unfold State.farIssue
  simp only [hf, ite_self, hh]
  cases s.tw.scfUp <;> rfl

theorem downCode_lt (s : State) : s.downCode < 16 := by
  unfold State.downCode
  split <;> decide

section
variable {s : State} (t : Nat) {ms : Master} {w : World} {off size k : Nat} {v : Option Word} (hd : s.dieOn = true) (hk : masterNo ms = some k)
  (hst : s.hb.stalled = []) (hlf : s.hb.lockF = none) (hbl : s.hb.blocks = []) (hfar : s.hb.far = []) (hp : s.perr ms = false)
  (hspi : ms = .spi → s.spiOpen w = true) (ho : off < 0x800000)
include hd hk hst hlf hbl hfar hp hspi ho

theorem after_farAccess_live (hup : s.tw.scfUp = true) : After (.farAccess t ms w ⟨off, size⟩ v) s fun u =>
    u.hb.far = [{ ms := ms, w := worldOf ms w, off := off, size := size, data := v, at_ := max s.now t }] ∧
    u = { s with now := max s.now t, bus := u.bus, hb := u.hb } ∧ (v ≠ none → u.bus = s.bus) := by
  obtain ⟨q, hq⟩ : ∃ q : FarReq, q = ⟨ms, worldOf ms w, off, size, v, max s.now t⟩ := ⟨_, rfl⟩
  have e : farAccess t ms w off size v s =
      let u := (s.tick t).onHb fun h => { h with far := [q] }
      if v.isNone then u.onBus fun b => { b with data := 0, err := false } else u := by
    rw [farAccess_issued t hd hk hst hlf hfar hp hspi ho, farIssue_noBlocks (s := s.tick t) hbl]
    simp only [State.tick_tw, hup, if_true, State.onHb, State.tick_hb, hfar, List.nil_append, State.tick_now, hq]
    exact unstall_empty _ (by cases v <;> exact hst)
  rw [← hq]
  cases v with
  | none => exact after_of rfl e fun b hb => ⟨by rw [hb.1]; rfl, rfl, fun h => absurd rfl h⟩
  | some d => exact after_of rfl e fun b hb => ⟨by rw [hb.1]; rfl, rfl, fun _ => rfl⟩

theorem after_farAccess_read (hup : s.tw.scfUp = false) (hv : v = none) : After (.farAccess t ms w ⟨off, size⟩ v) s fun u =>
    u.bus.data = 0 ∧ u.bus.err = true ∧ u.hb.far = [] ∧ u = { s with now := max s.now t, bus := u.bus, hb := u.hb } := by
  subst hv
  have e : farAccess t ms w off size none s = (s.tick t).onBus fun b => { b with data := 0, err := true } := by
    rw [farAccess_issued t hd hk hst hlf hfar hp hspi ho, farIssue_noBlocks (s := s.tick t) hbl]
    simp only [State.tick_tw, hup]
    exact unstall_empty _ hst
  exact after_of rfl e fun b hb => ⟨rfl, rfl, by rw [hb.1]; exact hfar, rfl⟩

theorem after_farAccess_write {d : Word} (hup : s.tw.scfUp = false) (hv : v = some d) (h0 : s.fld HB_PWSTAT 0 3 = 0) :
    After (.farAccess t ms w ⟨off, size⟩ v) s fun u =>
      u.hb.far = [] ∧ u.fld HB_PWSTAT 0 3 = 1 ∧ u.fld (HB_PWLOG_W0 0) 0 24 = off ∧ u.fld (HB_PWLOG_W0 0) 24 3 = k ∧
      u.fld (HB_PWLOG_W0 0) 28 4 = (if s.tw.tellSt = 1 then 4 else 1) ∧ u.rd (HB_PWLOG_W1 0) = d ∧ u.bit HB_EVENT 0 = true ∧
      u.bit HB_STATUS (1 + k) = true ∧ sameRegs logRegs s u ∧ u = { s with now := max s.now t, regs := u.regs, hb := u.hb } := by
  subst hv
  obtain ⟨hlog, hrec⟩ := logFailure_first (s := s.tick t) (worldOf ms w) d.toNat hk h0 (off := off) (by omega) (downCode_lt (s.tick t))
  have e : farAccess t ms w off size (some d) s = (s.tick t).logFailure ms (worldOf ms w) off d.toNat (s.tick t).downCode := by
    rw [farAccess_issued t hd hk hst hlf hfar hp hspi ho, farIssue_noBlocks (s := s.tick t) hbl]
    simp only [State.tick_tw, hup]
    exact unstall_empty _ ((congrArg Bridge.stalled hlog.hb).trans hst)
  have hcode : (s.tick t).downCode = if s.tw.tellSt = 1 then 4 else 1 := if_congr beq_iff_eq rfl rfl
  generalize (s.tick t).logFailure ms (worldOf ms w) off d.toNat (s.tick t).downCode = x at *
  have hfar' : x.hb.far = [] := (congrArg Bridge.far hlog.hb).trans hfar
  refine after_of rfl e fun b hb => ⟨by rw [hb.1]; exact hfar', hrec.count, hrec.addr, hrec.master, hrec.code.trans hcode, BitVec.eq_of_toNat_eq ?_,
    hrec.pwerr, hrec.perr, hlog.same, congrArg (fun y : State => { y with hb := b }) hlog.frame⟩
  exact hrec.data.trans (Nat.mod_eq_of_lt d.isLt)

end

theorem after_farCompletion {s : State} (t : Nat) {x : FarReq} {rest : List FarReq} (d : Option Word) (hfar : s.hb.far = x :: rest)
    (hst : s.hb.stalled = []) : After (.farCompletion t d) s fun u =>
      u.hb.far = rest ∧ (x.data = none → u.bus.data = d.getD 0 ∧ u.bus.err = false) ∧ (x.data ≠ none → u.bus = s.bus) ∧
      u = { s with now := max s.now t, bus := u.bus, hb := u.hb } := by
  have e : farCompletion t d s =
      let y := (s.tick t).onHb fun h => { h with far := rest }
      if x.data.isNone then y.answer (d.getD 0).toNat else y := by
    simp only [farCompletion, State.tick_hb, hfar]
    exact unstall_empty _ (by cases x.data <;> exact hst)
  cases hx : x.data with
  | none =>
    rw [hx] at e
    exact after_of rfl e fun b hb => ⟨by rw [hb.1]; rfl, fun _ => ⟨BitVec.ofNat_toNat .., rfl⟩, fun h => absurd rfl h, rfl⟩
  | some v =>
    rw [hx] at e
    exact after_of rfl e fun b hb => ⟨by rw [hb.1]; rfl, fun h => (nomatch h), fun _ => rfl, rfl⟩

theorem after_farAccessTimeout {s : State} (t : Nat) {x : FarReq} {rest : List FarReq} {k : Nat} {v : Word} (hfar : s.hb.far = x :: rest)
    (hst : s.hb.stalled = []) (hk : masterNo x.ms = some k) (hv : x.data = some v) (ht : x.at_ + 10000 ≤ max s.now t) (h0 : s.fld HB_PWSTAT 0 3 = 0) :
    After (.farAccessTimeout t) s fun u =>
      u.hb.far = rest ∧ u.fld HB_PWSTAT 0 3 = 1 ∧ u.fld (HB_PWLOG_W0 0) 28 4 = 2 ∧ u.rd (HB_PWLOG_W1 0) = v ∧ u.bit HB_EVENT 0 = true ∧
      u.bit HB_STATUS (1 + k) = true ∧ u = { s with now := max s.now t, regs := u.regs, hb := u.hb } := by
  obtain ⟨y, hy⟩ : ∃ y, y = (s.tick t).onHb fun h => { h with far := rest } := ⟨_, rfl⟩
  have hmod : y.logFailure x.ms x.w x.off v.toNat 2 = y.logFailure x.ms x.w (x.off % 2 ^ 24) v.toNat 2 := by
    simp only [State.logFailure, Nat.mod_mod]
  obtain ⟨hlog, hrec⟩ := logFailure_first (s := y) x.w v.toNat hk (by rw [hy]; exact h0) (off := x.off % 2 ^ 24) (code := 2)
    (Nat.mod_lt _ (Nat.two_pow_pos 24)) (by decide)
  have e : farAccessTimeout t s = y.logFailure x.ms x.w (x.off % 2 ^ 24) v.toNat 2 := by
    simp only [farAccessTimeout, State.tick_hb, hfar, if_neg (Nat.not_lt.mpr (show x.at_ + 10000 ≤ (s.tick t).now from ht)), State.farFail, hv]
    rw [← hy, hmod]
    exact unstall_empty _ (by rw [hlog.hb, hy]; exact hst)
  generalize y.logFailure x.ms x.w (x.off % 2 ^ 24) v.toNat 2 = z at *
  have hzf : z.hb.far = rest := by rw [hlog.hb, hy]; rfl
  have hz : z = { s with now := max s.now t, regs := z.regs, hb := z.hb } := by
    refine hlog.frame.trans ?_
    rw [hlog.hb, hy]
    rfl
  exact after_of rfl e fun b hb => ⟨by rw [hb.1]; exact hzf, hrec.count, hrec.code, BitVec.eq_of_toNat_eq (hrec.data.trans (Nat.mod_eq_of_lt v.isLt)),
    hrec.pwerr, hrec.perr, congrArg (fun y : State => { y with hb := b }) hz⟩

theorem after_scarfLinkLoss {s : State} (t : Nat) (hst : s.hb.stalled = []) : After (.scarfLinkLoss t) s fun u =>
    u.hb.far = [] ∧ u.mem = s.mem ∧ u.mz = s.mz ∧ u = { s with now := max s.now t, regs := u.regs, bus := u.bus, hb := u.hb } := by
  obtain ⟨y, hy⟩ : ∃ y, y = (s.tick t).onHb fun h => { h with far := [] } := ⟨_, rfl⟩
  obtain ⟨z, hz⟩ : ∃ z, z = s.hb.far.foldl (fun s x => s.farFail x s.downCode) y := ⟨_, rfl⟩
  have hk : Keeps 0x120 y z := by
    rw [hz]
    exact Keeps.foldl (fun _ x h => State.farFail_keeps rfl h x _) _ (.refl _ y)
  have hhb : z.hb = y.hb := hk.at_ 25 rfl
  have e : scarfLinkLoss t s = z := by
    rw [hz, hy]
    refine unstall_empty _ ?_
    rw [← hy]
    exact (congrArg Bridge.stalled (hz ▸ hhb)).trans (by rw [hy]; exact hst)
  have hframe : z = { s with now := max s.now t, regs := z.regs, bus := z.bus, hb := z.hb } := by
    refine hk.frame.trans ?_
    rw [hhb, hy]
    rfl
  have hzf : z.hb.far = [] := by rw [hhb, hy]; rfl
  have hmem : z.mem = s.mem := by rw [hframe]
  have hmz : z.mz = s.mz := by rw [hframe]
  exact after_of rfl e fun b hb => ⟨by rw [hb.1]; exact hzf, hmem, hmz, congrArg (fun y : State => { y with hb := b }) hframe⟩

/-- The registers of the posted-write error log. -/
def allLogRegs : List Nat := HB_PWSTAT :: (List.range 4).flatMap fun j => [HB_PWLOG_W0 j, HB_PWLOG_W1 j, HB_PWLOG_W2 j, HB_PWLOG_W3 j]

theorem logClear_only (s : State) : RegsOnly allLogRegs s s.logClear := by
  refine RegsOnly.foldl _ (fun u j hj => ?_) ((RegsOnly.refl _ s).wrN (by decide) 0)
  have hm : ∀ a ∈ [HB_PWLOG_W0 j, HB_PWLOG_W1 j, HB_PWLOG_W2 j, HB_PWLOG_W3 j], a ∈ allLogRegs := fun a ha =>
    List.mem_cons_of_mem _ (List.mem_flatMap.mpr ⟨j, hj, ha⟩)
  exact ((((RegsOnly.refl _ u).wrN (hm _ (by simp)) 0).wrN (hm _ (by simp)) 0).wrN (hm _ (by simp)) 0).wrN (hm _ (by simp)) 0

theorem rdN_logClear (s : State) : ∀ a ∈ [HB_PWSTAT, HB_PWLOG_W0 0, HB_PWLOG_W0 1, HB_PWLOG_W0 2, HB_PWLOG_W0 3], s.logClear.rdN a = 0 := by
  intro a ha
  simp only [State.logClear, List.range, List.range.loop, List.foldl, rdN_wrN]
  simp only [List.mem_cons, List.not_mem_nil, or_false] at ha
  rcases ha with rfl | rfl | rfl | rfl | rfl <;> rfl

theorem after_postedLogClear {s : State} {ms : Master} {w : World} (hre : s.reaches ms (worldOf ms w)) (hm : isHost ms = true)
    (hsec : worldOf ms w = .secure) : After (.postedLogClear ms w) s fun u =>
      u.rdN HB_PWSTAT = 0 ∧ (∀ j < 4, u.rdN (HB_PWLOG_W0 j) = 0) ∧ sameRegs allLogRegs s u ∧ u = { s with regs := u.regs, hb := u.hb } ∧ sameBridge s u := by
  obtain ⟨r, hr, -, hrow⟩ := rowAt_of_any (a := HB_PWSTAT) (p := fun r => r.pol == .std && actRow r) (by decide +kernel) s
  obtain ⟨hp, hrow⟩ := Bool.and_eq_true_iff.mp hrow
  have hp := eq_of_beq hp
  obtain ⟨x, hx⟩ : ∃ x, x = s.storeFields r HB_PWSTAT 8 8 0 := ⟨_, rfl⟩
  have honly : RegsOnly allLogRegs s x.logClear := by
    rw [hx]
    exact ((storeFields_only ..).mono (by decide)).trans (logClear_only _)
  have e : s.busWrite ms w HB_PWSTAT 8 8 = x.logClear := by
    rw [busWrite_reaches s ms w _ _ _ hre (by decide)]
    refine (congrArg State.unstall (localWrite_acts 8 8 0 rfl hr (by simp [hp, State.mayWrite, hm, hsec]) hrow (by decide) (by decide) ?_
      (tbRole_congr (honly.same _ (by decide))))).trans (unstall_empty _ ((congrArg Bridge.stalled honly.hb).trans hre.2.2.1))
    rw [hx]
    rfl
  have hz := rdN_logClear x
  generalize x.logClear = z at *
  refine after_hb rfl e honly.hb fun b hb => ⟨hz _ (by decide), fun j hj => ?_, honly.same, honly.frame_hb b, hb⟩
  exact hz (HB_PWLOG_W0 j) (by interval_cases j <;> decide)

/-- Settles O8: what is issued waits or fails (`farIssue_noBlocks`), and a failed write is the first entry of the log (`logFailure_first`). -/
theorem farAccesses : Obligations.FarAccesses :=
  ⟨fun _ t _ _ _ _ _ _ hd hk hst hlf hbl hfar hp hspi ho => ⟨after_farAccess_live t hd hk hst hlf hbl hfar hp hspi ho,
      after_farAccess_read t hd hk hst hlf hbl hfar hp hspi ho, fun _ => after_farAccess_write t hd hk hst hlf hbl hfar hp hspi ho⟩,
    fun _ t _ _ d hfar hst => ⟨after_farCompletion t d hfar hst, fun _ _ => after_farAccessTimeout t hfar hst⟩,
    fun _ t => after_scarfLinkLoss t, fun _ _ _ => after_postedLogClear⟩

end Sys2Proof.Proofs
end

section
/-! PROOFS. Stamped inputs, and the host rings and vectors (R50 to R55, R517 to R520). -/
set_option Elab.async false
namespace Sys2Proof.Machine
open Sys2Proof

/-! ### Stamping -/

/-- The epoch that contains the present instant follows from the epoch engine, the time and EP_CTRL. -/
theorem epochNow_congr {s t : State} (he : t.ep = s.ep) (hn : t.now = s.now) (hr : t.rdN EP_CTRL = s.rdN EP_CTRL) : t.epochNow = s.epochNow := by
  unfold State.epochNow State.elen State.fld
  rw [he, hn, hr]

/-- The same where the epoch engine differs in no more than the inputs that wait and their positions. -/
theorem epochNow_waits {s t : State} {h : List Input} {p : List (Nat × Nat)} (he : t.ep = { s.ep with pos := p, handing := h }) (hn : t.now = s.now)
    (hr : t.rdN EP_CTRL = s.rdN EP_CTRL) : t.epochNow = s.epochNow := by
  unfold State.epochNow State.elen State.fld
  rw [he, hn, hr]

/-- While an epoch is stamped, stamping adds one input and nothing else. -/
theorem stampIn_one {s : State} (i : Input) (h : s.ep.cur.isSome = true) : stampedOne s (s.stampIn i) i.cls i.port i.kind i.octets ∧
    s.stampIn i = { s with ep := { s.ep with pos := (s.stampIn i).ep.pos, handing := (s.stampIn i).ep.handing } } := by
  obtain ⟨c, hc⟩ := Option.isSome_iff_exists.mp h
  obtain ⟨e, he⟩ : ∃ e, s.epochNow = some e := by rw [State.epochNow, hc]; exact ⟨_, rfl⟩
  rw [stampIn_cur s i e he]
  refine ⟨⟨_, rfl, rfl, rfl, rfl, rfl, ?_, rfl, rfl⟩, rfl⟩
  exact he.symm.trans (epochNow_waits (s := s) rfl rfl rfl).symm

/-! ### Host rings -/

/-- A read of the ring whose turn it is serves the ring; what is good is stamped and counted, and what is not sets DMAERR. -/
theorem hostRingFrameRead_turn {s : State} {t r : Nat} (len entry : Nat) (frame : Octets) (err : Bool) (hd : s.dieOn = true)
    (hm : s.mode = .solo ∨ s.mode = .lead ∨ s.mode = .shadow ∨ s.mode = .hold) (hp : s.portOn (r / 4) = true) (hr : s.nextTxRing (r / 4) = some r)
    (ht : nth s.hb.txAt (r / 4) ≤ t) :
    ∃ (x : State) (b : Bridge), RegsOnly [HB_TXR_HEAD r] { s.tick t with hb := b } x ∧ b.served = s.hb.served.set (r / 4) r ∧
      (let bad := err || len == 0 || decide (9220 < len)
       b.txDone = s.hb.txDone ++ [(r, bad, if bad then 0 else (s.tick t).stampEp % 2 ^ 24)] ∧
       hostRingFrameRead t r len entry false frame err s = if bad then x.evt HB_EVENT 2
         else (x.stampIn { cls := 3, port := r / 4, kind := .frame, octets := padTo len frame, entry := entry, ring := r }).inc (HB_CNT 2)) := by
  obtain ⟨b, hb⟩ : ∃ b : Bridge, b = { (s.tick t).hb with
      served := s.hb.served.set (r / 4) r, txAt := s.hb.txAt.set (r / 4) (t + cdiv 100000 (leAt s.fr.header (0xC8 + 2 * (r / 4)) 2))
      txDone := s.hb.txDone ++ [(r, err || len == 0 || decide (9220 < len),
        if err || len == 0 || decide (9220 < len) then 0 else (s.tick t).stampEp % 2 ^ 24)] } := ⟨_, rfl⟩
  refine ⟨_, b, (RegsOnly.refl _ _).setFld (List.mem_singleton.mpr rfl) 0 12
    (((s.tick t).fld (HB_TXR_HEAD r) 0 12 + 1) % (s.tick t).fld (HB_TXR_SIZE r) 0 13), by rw [hb], by rw [hb], ?_⟩
  have hserve : (s.mode == .solo || s.mode == .lead || s.mode == .shadow || s.mode == .hold) = true := by
    rcases hm with h | h | h | h <;> rw [h] <;> rfl
  have hskip : (!(s.tick t).dieOn || !((s.tick t).mode == .solo || (s.tick t).mode == .lead || (s.tick t).mode == .shadow || (s.tick t).mode == .hold) ||
      !(s.tick t).portOn (r / 4) || (s.tick t).nextTxRing (r / 4) != some r || decide (t < nth (s.tick t).hb.txAt (r / 4))) = false := by
    show (!s.dieOn || !(s.mode == .solo || s.mode == .lead || s.mode == .shadow || s.mode == .hold) || !s.portOn (r / 4) || s.nextTxRing (r / 4) != some r ||
      decide (t < nth s.hb.txAt (r / 4))) = false
    simp [hd, hserve, hp, hr, ht]
  unfold hostRingFrameRead
  extract_lets s1 p serves rate bad s2 s3 s4
  rw [if_neg (by rw [hskip]; decide), if_neg Bool.false_ne_true, hb]
  rfl

/-! ### Vectors -/

/-- Vector `vec` of function 0 is unmasked and not pending. -/
def sentAtOnce (vec : Nat) (s : State) : Prop := (nth s.hb.msix0 (4 * vec + 3)).getLsbD 0 = false ∧ s.hb.pba0.testBit vec = false

theorem sendVec_sentAtOnce {vec : Nat} {s : State} (fn k : Nat) (h : sentAtOnce vec s) : sentAtOnce vec (s.sendVec fn k) := by
  obtain ⟨hm, hp⟩ := h
  unfold State.sendVec
  split
  · rename_i hmask
    by_cases hf : fn = 0
    · subst hf
      refine ⟨hm, ?_⟩
      show (s.hb.pba0 ||| 2 ^ k).testBit vec = false
      have hk : k ≠ vec := by
        rintro rfl
        rw [show s.msix 0 = s.hb.msix0 from rfl, hm] at hmask
        exact absurd hmask (by decide)
      rw [Nat.testBit_or, hp, Nat.testBit_two_pow_of_ne hk, Bool.or_false]
    · simp only [hf, if_false]
      exact ⟨hm, hp⟩
  · exact ⟨hm, hp⟩

theorem ringVec_sentAtOnce {vec : Nat} {s : State} (k : Nat) (h : sentAtOnce vec s) : sentAtOnce vec (s.ringVec k) := by
  unfold State.ringVec
  extract_lets ctl
  split
  · exact sendVec_sentAtOnce _ _ h
  · exact h

theorem foldl_sentAtOnce {α : Type} {vec : Nat} {f : State → α → State} (hf : ∀ s x, sentAtOnce vec s → sentAtOnce vec (f s x)) (l : List α) {s : State}
    (h : sentAtOnce vec s) : sentAtOnce vec (l.foldl f s) := by
  induction l generalizing s with
  | nil => exact h
  | cons x l ih => exact ih (hf s x h)

/-- The vectors that follow a command leave an unmasked vector that is not pending so. -/
theorem settle_sentAtOnce {vec : Nat} (s0 : State) {s : State} (h : sentAtOnce vec s) : sentAtOnce vec (s0.settle s) := by
  unfold State.settle
  extract_lets s1 was now
  have h1 : sentAtOnce vec s1 := by
    show sentAtOnce vec (if s.atOnce then s.ringVecs else s)
    split
    · exact foldl_sentAtOnce (fun s k hs => ringVec_sentAtOnce k hs) s.hb.rxDue (s := s.onHb fun h => { h with rxDue := [] }) h
    · exact h
  refine foldl_sentAtOnce (fun s x hs => ?_) _ h1
  split
  · exact sendVec_sentAtOnce _ _ hs
  · exact hs

/-- A pending vector that is unmasked is sent. -/
theorem msixUnmask_pending {s : State} {vec : Nat} (hd : s.dieOn = true) (hv : vec < 64) (hl : s.hb.msix0.length = 256) (hp : s.hb.pba0.testBit vec = true) :
    ∃ b : Bridge, msixUnmask .pcie0 vec s = { s with hb := b } ∧ (0, vec) ∈ b.sent ∧ sentAtOnce vec { s with hb := b } := by
  obtain ⟨v, hv0⟩ : ∃ v : Word, v = nth s.hb.msix0 (4 * vec + 3) &&& ~~~1 := ⟨_, rfl⟩
  have hclear : v.getLsbD 0 = false := by rw [hv0]; simp
  have hword : nth (s.hb.msix0.set (4 * vec + 3) v) (4 * vec + 3) = v := by
    rw [nth, List.getD_eq_getElem?_getD, List.getElem?_set_self (by omega)]
    rfl
  obtain ⟨y, hy⟩ : ∃ y : State, y = s.onHb fun h => { h with msix0 := h.msix0.set (4 * vec + 3) v, pba0 := putBit h.pba0 vec false } := ⟨_, rfl⟩
  have hmask : (nth (y.msix 0) (4 * vec + 3)).getLsbD 0 = false := by rw [hy]; exact (congrArg (·.getLsbD 0) hword).trans hclear
  have he : msixUnmask .pcie0 vec s = y.sendVec 0 vec := by
    have : msixUnmask .pcie0 vec s = s.msixWrite 0 (4 * vec + 3) v := by simp [msixUnmask, hd, hv, hv0, State.msix]
    rw [this, State.msixWrite, show (4 * vec + 3) / 4 = vec by omega, show (4 * vec + 3) % 4 = 3 by omega, hclear, hy]
    simp [State.onHb, hp]
  rw [he, State.sendVec, if_neg (by rw [hmask]; decide), hy]
  refine ⟨_, rfl, List.mem_append_right _ (List.mem_singleton.mpr rfl), (congrArg (·.getLsbD 0) hword).trans hclear, ?_⟩
  show (putBit s.hb.pba0 vec false).testBit vec = false
  rw [testBit_putBit]
  simp

/-! ### Ring registers -/

/-- A register of a ring, which its owner alone may write. -/
theorem localWrite_ring {s : State} {ms : Master} (w : World) {a : Nat} (v m : Nat)
    (hrow : ((hitRow a).any fun r => r.ten == .any && (r.pol == .ring && !inTenonArea r && r.fields.all (fun f => !f.ledger))) = true) (ha : a % 4 = 0)
    (ho : s.ownsRing (ringAt a) ms = true) : s.localWrite ms w a 4 v m 0 = s.ringWriteReg a v := by
  obtain ⟨r, hr, -, hp⟩ := rowAt_of_any hrow s
  simp only [Bool.and_eq_true, beq_iff_eq, Bool.not_eq_true', List.all_eq_true] at hp
  obtain ⟨⟨hpol, ht⟩, hl⟩ := hp
  rw [localWrite_row s ms w a v m 0 r ha hr (by rw [hpol]; exact ho) hl]
  simp [State.plainWrite, State.tenonShut, ht, hpol]

/-- TAIL and CTL of a receive ring are such registers. -/
theorem rxr_rows : ∀ r < 16, ∀ a ∈ [HB_RXR_TAIL r, HB_RXR_CTL r],
    ((hitRow a).any fun r => r.ten == .any && (r.pol == .ring && !inTenonArea r && r.fields.all (fun f => !f.ledger))) = true ∧ a % 4 = 0 ∧ ringAt a = r ∧
      a < 0x800000 := by
  decide +kernel

theorem ringWriteReg_tail (s : State) {r : Nat} (v : Nat) (hr : r < 16) : ∃ i, s.ringWriteReg (HB_RXR_TAIL r) v =
    (s.wrN (HB_RXR_TAIL r) (v % 4096)).onHb fun h => { h with ringIrq := i } := by
  have h1 : ringAt (0x481010 + 0x20 * r) = r := by unfold ringAt; omega
  have h2 : decide (0x481200 ≤ 0x481010 + 0x20 * r) = false := decide_eq_false (by omega)
  have h3 : 0x481010 + 0x20 * r - (0x481000 + 0x20 * r) = 0x10 := by omega
  refine ⟨putBit s.hb.ringIrq r false, ?_⟩
  simp [State.ringWriteReg, h1, h2, h3]
  rfl

theorem ringWriteReg_off (s : State) {r : Nat} (inten : Bool) (hr : r < 16) : ∃ i, s.ringWriteReg (HB_RXR_CTL r) (2 * b2n inten) =
    (((s.wrN (HB_RXR_CTL r) (2 * b2n inten)).wrN (HB_RXR_HEAD r) 0).wrN (HB_RXR_TAIL r) 0).onHb fun h => { h with ringIrq := i, bufs := h.bufs.set r [] } := by
  have h1 : ringAt (0x481014 + 0x20 * r) = r := by unfold ringAt; omega
  have h2 : decide (0x481200 ≤ 0x481014 + 0x20 * r) = false := decide_eq_false (by omega)
  have h3 : 0x481014 + 0x20 * r - (0x481000 + 0x20 * r) = 0x14 := by omega
  have h4 : 0x481000 + 0x20 * r + 0xC = HB_RXR_HEAD r := by unfold HB_RXR_HEAD; omega
  have h5 : 0x481000 + 0x20 * r + 0x10 = HB_RXR_TAIL r := by unfold HB_RXR_TAIL; omega
  cases inten
  · exact ⟨putBit s.hb.ringIrq r false, by simp [State.ringWriteReg, h1, h2, h3, h4, h5, b2n]; rfl⟩
  · exact ⟨s.hb.ringIrq, by simp [State.ringWriteReg, h1, h2, h3, h4, h5, b2n, Nat.testBit]; rfl⟩

end Sys2Proof.Machine
end

section
namespace Sys2Proof.Proofs
open Sys2Proof Sys2Proof.Machine

/-- A frame read from the ring whose turn it is. -/
theorem hostRingFrameRead_good (s : State) (t r len entry e : Nat) (frame : Octets) (hd : s.dieOn = true)
    (hm : s.mode = .solo ∨ s.mode = .lead ∨ s.mode = .shadow ∨ s.mode = .hold) (hp : s.portOn (r / 4) = true) (hr : s.nextTxRing (r / 4) = some r)
    (ht : nth s.hb.txAt (r / 4) ≤ t) (hs : r / 4 < s.hb.served.length) (he : (s.tick t).epochNow = some e) (h1 : 1 ≤ len) (h2 : len ≤ 9220) :
    After (.hostRingFrameRead t r len entry false frame false) s fun u =>
      (∃ x : Input, u.ep.handing = s.ep.handing ++ [x] ∧ x.cls = 3 ∧ x.port = r / 4 ∧ x.kind = .frame ∧ x.octets = padTo len frame ∧ x.entry = entry ∧
        x.stamp = e ∧ x.inst = max s.now t) ∧
      u.rdN (HB_CNT 2) = (s.rdN (HB_CNT 2) + 1) % 2 ^ 32 ∧ u.hb.txDone = s.hb.txDone ++ [(r, false, e % 2 ^ 24)] ∧ u.hb.served.getD (r / 4) 0 = r ∧
      sameRegs [HB_CNT 2, HB_TXR_HEAD r] s u ∧
      u = { s with now := max s.now t, regs := u.regs, ep := { s.ep with pos := u.ep.pos, handing := u.ep.handing }, hb := u.hb } := by
  obtain ⟨x, b, hx, hsv, hdone, heq⟩ := hostRingFrameRead_turn len entry frame false hd hm hp hr ht
  have hbad : (false || len == 0 || decide (9220 < len)) = false := by simp; omega
  rw [hbad] at hdone heq
  have hne : EP_CTRL ∉ [HB_TXR_HEAD r] ∧ HB_CNT 2 ∉ [HB_TXR_HEAD r] := by
    simp only [List.mem_singleton]
    unfold HB_TXR_HEAD HB_CNT EP_CTRL
    omega
  have hxe : x.epochNow = some e := by
    rw [← he]
    exact epochNow_congr (by rw [hx.frame]) (by rw [hx.frame]) (hx.rdN hne.1)
  obtain ⟨hserved, hdone⟩ : b.served.getD (r / 4) 0 = r ∧ b.txDone = s.hb.txDone ++ [(r, false, e % 2 ^ 24)] := by
    refine ⟨by rw [hsv, List.getD_eq_getElem?_getD, List.getElem?_set_self hs]; rfl, hdone.trans ?_⟩
    rw [State.stampEp, he]
    rfl
  have hcnt := hx.rdN hne.2
  rw [stampIn_cur x _ e hxe] at heq
  refine after_of rfl heq fun b' hb' => ⟨?_, ?_, ?_, ?_, fun a ha => ?_, ?_⟩
  · rw [hx.frame]
    exact ⟨_, rfl, rfl, rfl, rfl, rfl, rfl, rfl, rfl⟩
  · exact (rdN_inc_same _ _ _).trans (by rw [← show x.rdN (HB_CNT 2) = s.rdN (HB_CNT 2) from hcnt]; rfl)
  · rw [hb'.1]
    exact (congrArg Bridge.txDone hx.hb).trans hdone
  · rw [hb'.1]
    exact (congrArg (·.served.getD (r / 4) 0) hx.hb).trans hserved
  · obtain ⟨ha1, ha2⟩ : a ≠ HB_CNT 2 ∧ a ≠ HB_TXR_HEAD r := by simpa using ha
    refine Eq.trans ?_ (hx.same a (by simpa using ha2))
    exact (RegsOnly.inc (l := [HB_CNT 2]) (.refl _ _) (List.mem_singleton.mpr rfl) 1).same a (by simpa using ha1)
  · rw [hx.frame]
    rfl

/-- A frame of the ring whose turn it is that is of impossible length or whose read fails. -/
theorem hostRingFrameRead_bad (s : State) (t r len entry : Nat) (frame : Octets) (err : Bool) (hd : s.dieOn = true)
    (hm : s.mode = .solo ∨ s.mode = .lead ∨ s.mode = .shadow ∨ s.mode = .hold) (hp : s.portOn (r / 4) = true) (hr : s.nextTxRing (r / 4) = some r)
    (ht : nth s.hb.txAt (r / 4) ≤ t) (hbad : err = true ∨ len = 0 ∨ 9220 < len) :
    After (.hostRingFrameRead t r len entry false frame err) s fun u =>
      u.ep = s.ep ∧ u.bit HB_EVENT 2 = true ∧ u.hb.txDone = s.hb.txDone ++ [(r, true, 0)] ∧ sameRegs [HB_EVENT, HB_TXR_HEAD r] s u ∧
      u = { s with now := max s.now t, regs := u.regs, hb := u.hb } := by
  obtain ⟨x, b, hx, -, hdone, heq⟩ := hostRingFrameRead_turn len entry frame err hd hm hp hr ht
  rw [show (err || len == 0 || decide (9220 < len)) = true by simpa [or_assoc] using hbad] at hdone heq
  have hx' := (hx.mono (l' := [HB_EVENT, HB_TXR_HEAD r]) (by simp)).evt (a := HB_EVENT) (by simp) 2
  rw [if_pos rfl] at heq hdone
  refine after_of rfl heq fun b' hb' => ⟨?_, bit_evt_same x HB_EVENT 2 (by decide), ?_, fun a ha => hx'.same a ha, ?_⟩
  · exact (congrArg State.ep hx.frame :)
  · rw [hb'.1]
    exact (congrArg Bridge.txDone hx.hb).trans hdone
  · exact congrArg (fun y : State => { y with hb := b' }) hx'.frame

/-- The owner's TAIL write gives the descriptors. -/
theorem ringTailWrite_owner (s : State) (ms : Master) (w : World) (r tail : Nat) (lens : List Nat) (hr : r < 16) (h : s.reaches ms (worldOf ms w))
    (ho : s.ownsRing r ms = true) : After (.ringTailWrite ms w false r tail lens) s fun u =>
      u.rdN (HB_RXR_TAIL r) = tail % 4096 ∧ u.hb.bufs = s.hb.bufs.set r (nth s.hb.bufs r ++ lens) ∧ sameRegs [HB_RXR_TAIL r] s u ∧
      u = { s with regs := u.regs, hb := u.hb } := by
  obtain ⟨hrow, ha, hat, hlt⟩ := rxr_rows r hr (HB_RXR_TAIL r) (by simp)
  obtain ⟨i, hi⟩ := ringWriteReg_tail s (tail % 2 ^ 32) hr
  rw [show tail % 2 ^ 32 % 4096 = tail % 4096 by omega] at hi
  have heq : ringTailWrite ms w false r tail lens s =
      (s.wrN (HB_RXR_TAIL r) (tail % 4096)).onHb fun h => { h with ringIrq := i, bufs := updAt h.bufs r (fun l => l ++ lens) } := by
    have hw : s.busWrite ms w (HB_RXR_TAIL r) tail = (s.wrN (HB_RXR_TAIL r) (tail % 4096)).onHb fun h => { h with ringIrq := i } := by
      rw [busWrite_reaches s ms w _ _ _ h hlt, localWrite_ring _ _ _ hrow ha (by rw [hat]; exact ho), hi, unstall_empty]
      exact h.2.2.1
    rw [ringTailWrite, if_neg (by omega), if_neg Bool.false_ne_true, hw]
    simp [show s.dieOn = true from h.1, ho]
    rfl
  refine after_of rfl heq fun b hb => ⟨?_, ?_, fun a hn => ?_, rfl⟩
  · refine (rdN_wrN_same s _ _).trans ?_
    omega
  · rw [hb.1]
    show List.modify s.hb.bufs r _ = _
    rw [List.modify_eq_set]
    rfl
  · exact ((RegsOnly.refl [HB_RXR_TAIL r] s).wrN (List.mem_singleton.mpr rfl) _).same a hn

/-- A write of CTL with EN clear takes the ring out of use. -/
theorem ringDisable_owner (s : State) (ms : Master) (w : World) (r : Nat) (inten : Bool) (hr : r < 16) (h : s.reaches ms (worldOf ms w))
    (ho : s.ownsRing r ms = true) : After (.ringDisable ms w false r inten) s fun u =>
      u.rdN (HB_RXR_CTL r) = (if inten then 2 else 0) ∧ u.rdN (HB_RXR_HEAD r) = 0 ∧ u.rdN (HB_RXR_TAIL r) = 0 ∧ u.hb.bufs = s.hb.bufs.set r [] ∧
      sameRegs [HB_RXR_CTL r, HB_RXR_HEAD r, HB_RXR_TAIL r] s u ∧ u = { s with regs := u.regs, hb := u.hb } := by
  obtain ⟨hrow, ha, hat, hlt⟩ := rxr_rows r hr (HB_RXR_CTL r) (by simp)
  obtain ⟨i, hi⟩ := ringWriteReg_off s inten hr
  have hsmall : 2 * b2n inten < 2 ^ 32 := by cases inten <;> decide
  have heq : ringDisable ms w false r inten s =
      (((s.wrN (HB_RXR_CTL r) (2 * b2n inten)).wrN (HB_RXR_HEAD r) 0).wrN (HB_RXR_TAIL r) 0).onHb fun h => { h with ringIrq := i, bufs := h.bufs.set r [] } := by
    rw [ringDisable, if_neg (by omega), if_neg Bool.false_ne_true, busWrite_reaches s ms w _ _ _ h hlt,
      localWrite_ring _ _ _ hrow ha (by rw [hat]; exact ho), Nat.mod_eq_of_lt hsmall, hi, unstall_empty]
    exact h.2.2.1
  have hne : HB_RXR_CTL r ≠ HB_RXR_HEAD r ∧ HB_RXR_CTL r ≠ HB_RXR_TAIL r ∧ HB_RXR_HEAD r ≠ HB_RXR_TAIL r := by
    unfold HB_RXR_CTL HB_RXR_HEAD HB_RXR_TAIL; omega
  have hregs := (((RegsOnly.refl [HB_RXR_CTL r, HB_RXR_HEAD r, HB_RXR_TAIL r] s).wrN (by simp) (a := HB_RXR_CTL r) (2 * b2n inten)).wrN (by simp)
    (a := HB_RXR_HEAD r) 0).wrN (by simp) (a := HB_RXR_TAIL r) 0
  refine after_of rfl heq fun b hb => ⟨?_, ?_, rdN_wrN_same _ _ _, by rw [hb.1]; rfl, fun a hn => hregs.same a hn, rfl⟩
  · refine (rdN_wrN_ne _ _ _ _ hne.2.1).trans ((rdN_wrN_ne _ _ _ _ hne.1).trans ((rdN_wrN_same _ _ _).trans ?_))
    cases inten <;> rfl
  · exact (rdN_wrN_ne _ _ _ _ hne.2.2).trans (rdN_wrN_same _ _ _)

/-- Settles O9: a ring serves in its turn and stamps what is good, its owner's register writes give and take descriptors, and an unmasked vector is sent at once. -/
theorem ringsAndVectors : Obligations.RingsAndVectors := by
  unfold Obligations.RingsAndVectors
  refine ⟨fun s t r len entry e frame err hd hm hp hr ht hs he => ⟨?_, hostRingFrameRead_bad s t r len entry frame err hd hm hp hr ht⟩,
    fun s ms w r tail lens hr h ho _ => ⟨ringTailWrite_owner s ms w r tail lens hr h ho, fun inten => ringDisable_owner s ms w r inten hr h ho⟩,
    fun s vec hd hv hl hp => ?_⟩
  · rintro ⟨rfl, h1, h2⟩
    exact hostRingFrameRead_good s t r len entry e frame hd hm hp hr ht hs he h1 h2
  · obtain ⟨b, hb, hsent, hclear⟩ := msixUnmask_pending hd hv hl hp
    have hset := settle_sentAtOnce s hclear
    refine ⟨_, congrArg (fun y => Host.Outcome.next (s.settle y)) hb, settle_sent _ _ hsent, hset.2, hset.1, ?_⟩
    exact (settle_eq s { s with hb := b }).trans rfl

end Sys2Proof.Proofs
end

section
/-! PROOFS. The table space as octets and numbers, BAR2, the shadow area and the SPI target (R329, R504, R506). -/
set_option Elab.async false
namespace Sys2Proof.Machine
open Sys2Proof

/-! ### Octets and numbers -/

@[simp] theorem length_natLE (k n : Nat) : (natLE k n).length = k := by
  induction k generalizing n with
  | zero => rfl
  | succ k ih => simp [natLE, ih]

theorem leNat_natLE (k n : Nat) : leNat (natLE k n) = n % 256 ^ k := by
  induction k generalizing n with
  | zero => simp [natLE, leNat, Nat.mod_one]
  | succ k ih =>
    rw [natLE, leNat, ih, BitVec.toNat_ofNat, show 256 ^ (k + 1) = 256 * 256 ^ k from Nat.pow_succ', Nat.mod_mul]

@[simp] theorem length_memO (s : State) (a n : Nat) : (s.memO a n).length = n := by simp [State.memO]

theorem getD_memO (s : State) {a n i : Nat} (h : i < n) : (s.memO a n).getD i 0 = s.memB (a + i) := by
  simp [State.memO, h]

/-- Octets that read as before. -/
theorem memO_congr {s u : State} {a n : Nat} (h : ∀ x, a ≤ x → x < a + n → u.memB x = s.memB x) : u.memO a n = s.memO a n := by
  refine List.map_congr_left fun i hi => h _ (by omega) ?_
  have := List.mem_range.mp hi
  omega

theorem memN_congr {s u : State} {a n : Nat} (h : ∀ x, a ≤ x → x < a + n → u.memB x = s.memB x) : u.memN a n = s.memN a n :=
  congrArg leNat (memO_congr h)

/-- What a write of octets leaves where it wrote them. -/
theorem memO_memW (s : State) (h : Memory.wf s.mem = true) (a : Nat) (vs : Octets) : (s.memW a vs).memO a vs.length = vs := by
  refine List.ext_getElem (by simp) fun i h1 h2 => ?_
  have hi := getD_memO (s.memW a vs) (a := a) h2
  rw [memB_memW s h, if_pos ⟨by omega, by omega⟩, Nat.add_sub_cancel_left] at hi
  simpa [List.getD_eq_getElem?_getD, h1, h2] using hi

theorem memN_memWN (s : State) (h : Memory.wf s.mem = true) (a n v : Nat) : (s.memWN a n v).memN a n = v % 256 ^ n := by
  have := memO_memW s h a (natLE n v)
  rw [length_natLE] at this
  rw [State.memN, State.memWN, this, leNat_natLE]

/-- A write of octets leaves the octets outside it. -/
theorem sameMem_memW (s : State) (h : Memory.wf s.mem = true) (a : Nat) (vs : Octets) : sameMem a vs.length s (s.memW a vs) := fun x hx => by
  rw [memB_memW s h, if_neg (by omega)]

theorem sameMem_memWN (s : State) (h : Memory.wf s.mem = true) (a n v : Nat) : sameMem a n s (s.memWN a n v) := by
  have := sameMem_memW s h a (natLE n v)
  rwa [length_natLE] at this

/-! ### BAR2 -/

/-- Octets written one by one where a region takes them. -/
theorem memFind_writes {m : List Host.Cell} (hm : Memory.wf m = true) (p : Nat → Bool) (b : Nat) (d : Octets) (n x : Nat) :
    memFind ((List.range n).foldl (fun m i => if p (b + i) then memPut m (b + i) (d.getD i 0) else m) m) x =
      if b ≤ x ∧ x < b + n ∧ p x = true then d.getD (x - b) 0 else memFind m x := by
  induction n with
  | zero => rw [if_neg (by omega)]; rfl
  | succ n ih =>
    have hwf := memFold_wf (f := fun m i => if p (b + i) then memPut m (b + i) (d.getD i 0) else m) (List.range n)
      (fun m x h => by split; exacts [memPut_wf _ _ h, h]) m hm
    rw [List.range_succ, List.foldl_append, List.foldl_cons, List.foldl_nil]
    by_cases hp : p (b + n) = true
    · rw [if_pos hp, memFind_memPut hwf, ih]
      by_cases hx : x = b + n
      · subst hx
        rw [if_pos rfl, if_pos ⟨by omega, by omega, hp⟩, Nat.add_sub_cancel_left]
      · rw [if_neg hx]
        exact if_congr (by constructor <;> rintro ⟨h1, h2, h3⟩ <;> exact ⟨h1, by omega, h3⟩) rfl rfl
    · rw [if_neg hp, ih]
      refine if_congr ⟨fun ⟨h1, h2, h3⟩ => ⟨h1, by omega, h3⟩, fun ⟨h1, h2, h3⟩ => ⟨h1, ?_, h3⟩⟩ rfl rfl
      have : x ≠ b + n := by rintro rfl; exact hp h3
      omega

theorem bar2Stores_iff (s : State) (x : Nat) : s.bar2Stores x = true ↔
    (0x990 * 2 ^ 20 ≤ x ∧ x < 0xA90 * 2 ^ 20 ∧ s.bit FR_STATUS 5 = false ∧ s.fr.checking = false) ∨ (0xB14 * 2 ^ 20 ≤ x ∧ x < 0xFFE * 2 ^ 20) := by
  simp [State.bar2Stores, and_assoc]

/-! ### The shadow area -/

/-- A register all of whose fields are write-only stores nothing. -/
theorem storeFields_wo (s : State) {r : RegRow} (a v m u : Nat) (h : (r.fields.all fun f => f.acc == .wo) = true) : s.storeFields r a v m u = s := by
  have hnone : ∀ p : Field → Bool, (∀ f, f.acc = .wo → p f = false) → (rowMask r fun f => !f.ledger && p f) = 0 := fun p hp => by
    unfold rowMask
    rw [List.filter_eq_nil_iff.mpr fun f hf => ?_]
    · rfl
    · simp [hp f (eq_of_beq (List.all_eq_true.mp h f hf))]
  unfold State.storeFields
  extract_lets bits st set clr
  have h1 : st = 0 := by unfold st bits; rw [hnone _ fun f hf => by simp [hf], Nat.zero_and]
  have h2 : set = 0 := by unfold set bits; rw [hnone _ fun f hf => by simp [hf], Nat.zero_and]
  have h3 : clr = 0 := by unfold clr bits; rw [hnone _ fun f hf => by simp [hf], Nat.zero_and]
  rw [h1, h2, h3]
  rfl

/-- A write of TB_SHWDATA by a host in the secure world is a write at ADDR. -/
theorem localWrite_shadow (s : State) {ms : Master} {w : World} (val : Word) (hm : isHost ms = true) (hw : w = .secure) :
    s.localWrite ms w TB_SHWDATA 4 val.toNat 0xFFFFFFFF 0 = s.shadowWrite val := by
  obtain ⟨r, hr, -, hrow⟩ := rowAt_of_any (a := TB_SHWDATA) (p := fun r => (r.pol == .std && r.fields.all fun f => f.acc == .wo) && actRow r) (by decide +kernel) s
  obtain ⟨hrow, hact⟩ := Bool.and_eq_true_iff.mp hrow
  obtain ⟨hpol, hwo⟩ := Bool.and_eq_true_iff.mp hrow
  refine localWrite_acts _ _ 0 rfl hr (by simp [eq_of_beq hpol, State.mayWrite, hm, hw]) hact (by decide) (by decide) ?_ (tbRole_congr ?_)
  · rw [storeFields_wo s _ _ _ _ hwo, and_ones val.isLt]
    show s.shadowWrite (BitVec.ofNat 32 val.toNat) = _
    rw [BitVec.ofNat_toNat, BitVec.setWidth_eq]
  · unfold State.shadowWrite
    extract_lets a
    split
    · rw [State.setFld, State.wrN, rd_wr, if_neg (by decide)]
      rfl
    · rfl

/-! ### The SPI target -/

theorem colSync_onBus (s : State) (f : Bus → Bus) (m t : Nat) : (s.onBus f).colSync m t = (s.colSync m t).onBus f := by
  unfold State.colSync
  have h : (s.onBus f).mort m = s.mort m := rfl
  rw [h]
  split
  · rfl
  · extract_lets c c'
    have hc : c = c' := rfl
    rw [hc, show (s.onBus f).fld (CN_TTSTAT m) 8 4 = s.fld (CN_TTSTAT m) 8 4 from rfl]
    split <;> rfl

theorem mzView_onBus (s : State) (f : Bus → Bus) (a : Nat) : (s.onBus f).mzView a = s.mzView a := by
  unfold State.mzView
  extract_lets m x m' x' b
  split
  · rfl
  · rfl
  · rfl
  · rw [colSync_onBus]
    rfl
  · rfl

theorem ksView_onBus (s : State) (f : Bus → Bus)  (a : Nat) : (s.onBus f).ksView a = s.ksView a := by
  have e1 : (s.onBus f).ks = s.ks := rfl
  have e2 : (s.onBus f).ksStatus = s.ksStatus := rfl
  have e3 : (s.onBus f).slot = s.slot := rfl
  have e4 : (s.onBus f).manifest = s.manifest := rfl
  simp only [State.ksView, e1, e2, e3, e4]

/-- What a register shows does not depend on the bus. -/
theorem view_onBus (s : State) (f : Bus → Bus) (ms : Master) (w : World) (a : Nat) : (s.onBus f).view ms w a = s.view ms w a := by
  unfold State.view
  rw [mzView_onBus, ksView_onBus]
  rfl
/-- A read of a register that latches nothing and has no read-clear field answers its value. -/
theorem localRead_plain {s : State} {r : RegRow} {ms : Master} {w : World} {a : Nat} (ha : a % 4 = 0) (hr : s.rowAt a = some r)
    (hm : mayRead r.pol s.ks.lc ms w = true) (hw : s.wide a = none) (ht : r.ten = .any) (hst : r.base ≠ MZ_STATUS 0) (hup : r.base ≠ KS_UPBUF 0)
    (hrc : (r.fields.all fun f => f.acc != .rc) = true) :
    s.localRead ms w a 4 0 = s.answer ((s.view ms w a).getD (s.rdN a) &&& rowMask r (fun f => f.acc != .wo)) := by
  have h0 : (rowMask r fun f => f.acc == .rc) = 0 := by
    unfold rowMask
    rw [List.filter_eq_nil_iff.mpr fun f hf => by simpa using List.all_eq_true.mp hrc f hf]
    rfl
  have ht' : inTenonArea r = false := by rw [inTenonArea, ht]; rfl
  simp [State.localRead, wordAccess, ha, hr, hm, readLatch_plain ht hw, h0, beq_false_of_ne hst, State.readValue, beq_false_of_ne hup, ht']

end Sys2Proof.Machine
end

section
namespace Sys2Proof.Proofs
open Sys2Proof Sys2Proof.Machine

/-- A BAR2 write. -/
theorem bar2Write_stores (s : State) (off : Nat) (data : Octets) (hd : s.dieOn = true) (hwf : Memory.wf s.mem = true) (hl : off + data.length ≤ 2 ^ 30) :
    After (.bar2Write .secure off data) s fun u =>
      (∀ x, s.fld HB_B2PAGE 0 2 * 2 ^ 30 + off ≤ x → x < s.fld HB_B2PAGE 0 2 * 2 ^ 30 + off + data.length →
        u.memB x = if (0x990 * 2 ^ 20 ≤ x ∧ x < 0xA90 * 2 ^ 20 ∧ s.bit FR_STATUS 5 = false ∧ s.fr.checking = false) ∨ (0xB14 * 2 ^ 20 ≤ x ∧ x < 0xFFE * 2 ^ 20)
          then data.getD (x - (s.fld HB_B2PAGE 0 2 * 2 ^ 30 + off)) 0 else s.memB x) ∧
      sameMem (s.fld HB_B2PAGE 0 2 * 2 ^ 30 + off) data.length s u ∧ u = { s with mem := u.mem, hb := u.hb } ∧ sameBridge s u := by
  obtain ⟨b, hb⟩ : ∃ b, s.fld HB_B2PAGE 0 2 * 2 ^ 30 + off = b := ⟨_, rfl⟩
  have heq : bar2Write .secure off data s = { s with mem := (List.range data.length).foldl (fun m i =>
      if s.bar2Stores (b + i) then memPut m (b + i) (data.getD i 0) else m) s.mem } := by
    rw [bar2Write, if_neg (by simp [hd]; omega), hb]
  have hfind := memFind_writes hwf s.bar2Stores b data data.length
  rw [hb]
  refine after_hb rfl heq rfl fun c hc => ⟨fun x h1 h2 => (hfind x).trans ?_, fun x hx => (hfind x).trans (if_neg (by omega)), rfl, hc⟩
  exact if_congr ⟨fun h => (bar2Stores_iff s x).mp h.2.2, fun h => ⟨h1, h2, (bar2Stores_iff s x).mpr h⟩⟩ rfl rfl

/-- A write of TB_SHWDATA. -/
theorem shadowWrite_stores (s : State) (ms : Master) (w : World) (val : Word) (a : Nat) (h : s.reaches ms (worldOf ms w)) (hm : isHost ms = true)
    (hw : worldOf ms w = .secure) (hwf : Memory.wf s.mem = true) (ha : s.fld TB_SHWADDR 0 31 = a) (h4 : a % 4 = 0) (hlt : a < 0x4EA00000) :
    After (.shadowWrite ms w val) s fun u =>
      u.memN (s.shBase + a) 4 = val.toNat ∧ sameMem (s.shBase + a) 4 s u ∧ u.fld TB_SHWADDR 0 31 = a + 4 ∧ sameRegs [TB_SHWADDR] s u ∧
      u = { s with regs := u.regs, mem := u.mem, hb := u.hb } ∧ sameBridge s u := by
  have heq : s.busWrite ms w TB_SHWDATA val.toNat = (s.memWN (s.shBase + a) 4 val.toNat).setFld TB_SHWADDR 0 31 (a + 4) := by
    have hst : s.hb.stalled = [] := h.2.2.1
    rw [busWrite_reaches s ms w _ _ _ h (by decide), Nat.mod_eq_of_lt val.isLt, localWrite_shadow s val hm hw, State.shadowWrite]
    simp only [ha, show a / 4 * 4 = a by omega, show s.dieOn = true from h.1, hlt, decide_true, Bool.and_self, if_true]
    exact unstall_empty _ hst
  refine after_hb rfl heq rfl fun b hb => ⟨?_, sameMem_memWN s hwf _ _ _, ?_, fun c hc => ?_, rfl, hb⟩
  · exact (memN_memWN s hwf _ 4 _).trans (Nat.mod_eq_of_lt val.isLt)
  · exact (fld_setFld_same _ _ _ _ _ (by decide)).trans (Nat.mod_eq_of_lt (by omega))
  · exact ((RegsOnly.refl [TB_SHWADDR] (s.memWN (s.shBase + a) 4 val.toNat)).setFld (List.mem_singleton.mpr rfl) _ _ _).same c hc

/-- An SPI write of one word. -/
theorem spiTransaction_write (s : State) (cmd a : Nat) (w : World) (v : Word) (hc : (cmd, w) ∈ [(2, World.normal), (0x12, World.secure)]) (hd : s.dieOn = true)
    (ho : s.spiOpen w = true) : exec (.spiTransaction cmd a [v]) s = exec (.registerWrite .spi w ⟨a, 4⟩ ⟨v, 0⟩) s := by
  have heq : spiTransaction cmd a [v] s = registerWrite .spi w a 4 v 0 s := by
    simp only [List.mem_cons, Prod.mk.injEq, List.not_mem_nil, or_false] at hc
    obtain ⟨rfl, rfl⟩ | ⟨rfl, rfl⟩ := hc <;>
      simp [spiTransaction, hd, ho, State.busWrite, registerWrite]
  exact congrArg (fun y => Host.Outcome.next (s.settle y)) heq

/-- An SPI read of one word. -/
theorem spiTransaction_read (s : State) (cmd a : Nat) (w : World) (v : Word) (r : RegRow) (hc : (cmd, w) ∈ [(3, World.normal), (0x13, World.secure)])
    (h : s.reaches .spi w) (hp : s.perr .spi = false) (ha : ownWord a) (hr : s.rowAt a = some r) (hm : mayRead r.pol s.ks.lc .spi w = true)
    (hw : s.wide a = none) (ht : r.ten = .any) (hst : r.base ≠ MZ_STATUS 0) (hup : r.base ≠ KS_UPBUF 0) (hrc : (r.fields.all fun f => f.acc != .rc) = true)
    (hf : s.hb.far = []) : After (.spiTransaction cmd a [v]) s fun u =>
      u.bus.status = 0x5A ∧ u.bus.words = [BitVec.ofNat 32 ((s.view .spi w a).getD (s.rdN a) &&& rowMask r (fun f => f.acc != .wo))] ∧
      u = { s with bus := u.bus, hb := u.hb } ∧ sameBridge s u := by
  obtain ⟨n, hn⟩ : ∃ n, (s.view .spi w a).getD (s.rdN a) &&& rowMask r (fun f => f.acc != .wo) = n := ⟨_, rfl⟩
  obtain ⟨t, ht0⟩ : ∃ t : State, t = s.onBus fun b => { b with words := [], err := false } := ⟨_, rfl⟩
  have hread : t.busRead .spi w a = t.answer n := by
    rw [busRead_reaches t .spi w a (by rw [ht0]; exact h) (by rw [ht0]; exact hp) ha.1, ← hn]
    have : t.localRead .spi w a 4 0 = t.answer n := by
      have e1 : t.rowAt a = s.rowAt a := by rw [ht0]; rfl
      have e2 : t.wide a = s.wide a := by rw [ht0]; rfl
      have e3 : t.view .spi w a = s.view .spi w a := by rw [ht0, view_onBus]
      rw [localRead_plain ha.2 (e1.trans hr) (by rw [ht0]; exact hm) (e2.trans hw) ht hst hup hrc, ← hn, e3, ht0]
      rfl
    rw [show worldOf .spi w = w from rfl, this, hn]
    exact unstall_empty _ (by rw [ht0]; exact h.2.2.1)
  have heq : spiTransaction cmd a [v] s = { s with bus := { s.bus with status := 0x5A, data := BitVec.ofNat 32 n, err := false, words := [BitVec.ofNat 32 n] } } := by
    have hd : s.dieOn = true := h.1
    have ho : s.spiOpen w = true := h.2.2.2.2 rfl
    have hstall : s.hb.stalled = [] := h.2.2.1
    simp only [List.mem_cons, Prod.mk.injEq, List.not_mem_nil, or_false] at hc
    obtain ⟨rfl, rfl⟩ | ⟨rfl, rfl⟩ := hc <;>
      simp only [spiTransaction, ← ht0] <;>
      simp [hd, ho, hp, hread] <;>
      simp [ht0, State.onBus, State.answer, hf, hstall]
  rw [hn]
  refine after_hb rfl heq rfl fun b hb => ⟨rfl, rfl, rfl, hb⟩

/-- Settles O10: what a region keeps out is not stored, ADDR moves on with each word, and an SPI command is the access it codes or nothing. -/
theorem tableSpaceAndSpi : Obligations.TableSpaceAndSpi := by
  unfold Obligations.TableSpaceAndSpi
  refine ⟨bar2Write_stores, shadowWrite_stores, spiTransaction_write, spiTransaction_read, fun s cmd a vals h => ?_⟩
  have heq : spiTransaction cmd a vals s = s := by
    refine if_pos ?_
    obtain h | h := h
    · simp only [List.mem_cons, List.not_mem_nil, or_false, not_or] at h
      simp [h]
    · simp only [Bool.or_eq_true, beq_iff_eq]
      simp [h]
  exact after_hb rfl heq rfl fun b hb => ⟨rfl, hb⟩

end Sys2Proof.Proofs
end

section
/-! PROOFS. Fault records: what a fault whose class is free leaves on record, and what its result leaves of the registers (R463 to R466). -/
set_option Elab.async false
namespace Sys2Proof.Machine
open Sys2Proof

/-! ### More about registers -/

theorem sameRegs.of_regs {l : List Nat} {s u : State} (h : u.regs = s.regs) : sameRegs l s u := fun a _ => rd_congr h a

/-- What two states read alike carries over to a state with either's registers. -/
theorem sameRegs.left {l : List Nat} {s t u : State} (h : sameRegs l s u) (k : t.regs = s.regs) : sameRegs l t u := fun a ha => (h a ha).trans (rd_congr k a).symm

theorem sameRegs.right {l : List Nat} {s t u : State} (h : sameRegs l s u) (k : t.regs = u.regs) : sameRegs l s t := fun a ha => (rd_congr k a).trans (h a ha)

theorem sameRegs.foldl {α : Type} {l : List Nat} {f : State → α → State} (xs : List α) (hf : ∀ s, ∀ x ∈ xs, sameRegs l s (f s x)) (s : State) :
    sameRegs l s (xs.foldl f s) := by
  induction xs generalizing s with
  | nil => exact .refl l s
  | cons x xs ih => exact (hf s x List.mem_cons_self).trans (ih (fun s y hy => hf s y (List.mem_cons_of_mem _ hy)) _)

/-- The epoch being stamped follows from where the stamping stands, the time and EP_CTRL. -/
theorem stampEp_congr {s t : State} (hc : t.ep.cur = s.ep.cur) (hs : t.ep.stop = s.ep.stop) (hn : t.now = s.now) (hr : t.rd EP_CTRL = s.rd EP_CTRL) :
    t.stampEp = s.stampEp := by
  unfold State.stampEp State.epochNow State.elen State.fld State.rdN
  rw [hc, hs, hn, hr]

theorem RegsOnly.stampEp {l : List Nat} {s t : State} (h : RegsOnly l s t) (hl : EP_CTRL ∉ l) : t.stampEp = s.stampEp :=
  stampEp_congr (by rw [h.frame]) (by rw [h.frame]) (by rw [h.frame]) (h.same _ hl)

/-! ### The record of a fault whose class is free -/

/-- A fault found its class free and is on record with this epoch and time (R464). -/
structure NotedAt (cls cause src unit ep ts : Nat) (s u : State) : Prop where
  w0 : u.rdN (FLT_FF_W0 cls) = cause + src * 2 ^ 8 + unit * 2 ^ 16 + 2 ^ 24 + cls * 2 ^ 25
  w1 : u.rdN (FLT_FF_W1 cls) = ep % 2 ^ 32
  w2 : u.rdN (FLT_FF_W2 cls) = ep / 2 ^ 32 % 2 ^ 32
  w3 : u.rdN (FLT_FF_W3 cls) = ts % 2 ^ 32
  cnt : u.rdN (FLT_CNT cls) = (s.rdN (FLT_CNT cls) + 1) % 2 ^ 32
  active : u.bit FLT_STATUS cls = true
  pending : u.bit FLT_STATUS (6 + cls) = true

/-- The state in which a fault of a free class stands recorded, before its result: its counter, its record and its two bits. -/
def State.noted (s : State) (cls cause src unit ep ts : Nat) : State :=
  ((((((s.inc (FLT_CNT cls)).wrN (FLT_FF_W0 cls) (faultWords cls cause src unit ep ts).1).wrN (FLT_FF_W1 cls) (ep % 2 ^ 32)).wrN (FLT_FF_W2 cls) (ep / 2 ^ 32)).wrN
    (FLT_FF_W3 cls) (ts % 2 ^ 32)).setBit FLT_STATUS cls true).setBit FLT_STATUS (6 + cls) true

theorem fld_inc_cnt (s : State) {cls : Nat} (lo w : Nat) : (s.inc (FLT_CNT cls)).fld FLT_STATUS lo w = s.fld FLT_STATUS lo w :=
  fld_wrN_ne _ _ _ _ _ _ (by unfold FLT_STATUS FLT_CNT; omega)

/-- A fault whose class is free is recorded and has its result. -/
theorem recordAt_free {s : State} {cls : Nat} (cause src unit ep ts : Nat) (h : s.fld FLT_STATUS 0 5 >>> cls = 0) :
    s.recordAt cls cause src unit ep ts = (s.noted cls cause src unit ep ts).faultResult cls src := by
  simp only [State.recordAt, fld_inc_cnt, h, ne_eq, not_true_eq_false, if_false]
  rfl

theorem noted_only (s : State) (cls cause src unit ep ts : Nat) : RegsOnly (faultRegs cls) s (s.noted cls cause src unit ep ts) := by
  unfold State.noted
  exact (((((((RegsOnly.refl _ s).inc (by simp [faultRegs]) _).wrN (by simp [faultRegs]) _).wrN (by simp [faultRegs]) _).wrN (by simp [faultRegs]) _).wrN
    (by simp [faultRegs]) _).setBit (by simp [faultRegs]) _ _).setBit (by simp [faultRegs]) _ _

theorem noted_at (s : State) {cls cause src unit : Nat} (ep ts : Nat) (hc : cls ≤ 4) (h1 : cause < 256) (h2 : src < 256) (h3 : unit < 256) :
    NotedAt cls cause src unit ep ts s (s.noted cls cause src unit ep ts) := by
  have hw : cause + src * 2 ^ 8 + unit * 2 ^ 16 + 2 ^ 24 + cls * 2 ^ 25 < 2 ^ 32 := by omega
  constructor
  case active =>
    rw [State.noted, bit_setBit _ _ _ _ _ (by omega), if_neg (by omega), bit_setBit _ _ _ _ _ (by omega), if_pos rfl]
  case pending =>
    rw [State.noted, bit_setBit _ _ _ _ _ (by omega), if_pos rfl]
  all_goals
    simp only [State.noted, State.setBit, State.inc, rdN_wrN]
    simp (disch := omega) only [FLT_STATUS, FLT_CNT, FLT_FF_W0, FLT_FF_W1, FLT_FF_W2, FLT_FF_W3, if_neg, if_true]
  · exact Nat.mod_eq_of_lt hw
  · exact Nat.mod_mod _ _
  · exact Nat.mod_mod _ _

/-- What is on record stays so where the record, the counter and the handler's bits read as before. -/
theorem NotedAt.mono {cls cause src unit ep ts : Nat} {s x u : State} (h : NotedAt cls cause src unit ep ts s x) (k : ∀ a ∈ faultRegs cls, u.rd a = x.rd a) :
    NotedAt cls cause src unit ep ts s u := by
  have kn : ∀ a ∈ faultRegs cls, u.rdN a = x.rdN a := fun a ha => congrArg BitVec.toNat (k a ha)
  have kb : ∀ j, u.bit FLT_STATUS j = x.bit FLT_STATUS j := fun j => congrArg (·.testBit j) (kn _ (by simp [faultRegs]))
  exact ⟨(kn _ (by simp [faultRegs])).trans h.w0, (kn _ (by simp [faultRegs])).trans h.w1, (kn _ (by simp [faultRegs])).trans h.w2,
    (kn _ (by simp [faultRegs])).trans h.w3, (kn _ (by simp [faultRegs])).trans h.cnt, (kb _).trans h.active, (kb _).trans h.pending⟩

/-- The state before may be any with the same counter. -/
theorem NotedAt.left {cls cause src unit ep ts : Nat} {s t u : State} (h : NotedAt cls cause src unit ep ts s u) (k : t.rdN (FLT_CNT cls) = s.rdN (FLT_CNT cls)) :
    NotedAt cls cause src unit ep ts t u := { h with cnt := by rw [k]; exact h.cnt }

/-- A record of the epoch being stamped and of the present instant. -/
theorem NotedAt.now {cls cause src unit ep ts : Nat} {s u : State} (h : NotedAt cls cause src unit ep ts s u) (he : u.stampEp = ep) (hn : u.now = ts) :
    faultNoted cls cause src unit s u := by
  subst he hn
  exact ⟨h.w0, h.w1, h.w2, h.w3, h.cnt, h.active, h.pending⟩

theorem faultNoted.left {cls cause src unit : Nat} {s t u : State} (h : faultNoted cls cause src unit s u) (k : t.rdN (FLT_CNT cls) = s.rdN (FLT_CNT cls)) :
    faultNoted cls cause src unit t u := by
  unfold faultNoted at *
  rw [k]
  exact h

/-- A fault with no handler active. -/
theorem raiseFault_free {s : State} (cls cause src unit : Nat) (h : s.fld FLT_STATUS 0 5 = 0) :
    s.raiseFault cls cause src unit = (s.noted cls cause src unit s.stampEp s.now).faultResult cls src := by
  simp [State.raiseFault, h, State.recordFault, recordAt_free cause src unit s.stampEp s.now (show s.fld FLT_STATUS 0 5 >>> cls = 0 by rw [h, Nat.zero_shiftRight])]

theorem EP_CTRL_not_faultReg {cls : Nat} (h : cls ≤ 4) : EP_CTRL ∉ faultRegs cls := by
  simp only [faultRegs, List.mem_cons, List.not_mem_nil, or_false]
  unfold EP_CTRL FLT_STATUS FLT_CNT FLT_FF_W0 FLT_FF_W1 FLT_FF_W2 FLT_FF_W3
  omega

/-- The record of a fault, before its result, with no handler active. -/
theorem noted_now (s : State) {cls cause src unit : Nat} (hc : cls ≤ 4) (h1 : cause < 256) (h2 : src < 256) (h3 : unit < 256) :
    faultNoted cls cause src unit s (s.noted cls cause src unit s.stampEp s.now) :=
  (noted_at s _ _ hc h1 h2 h3).now ((noted_only ..).stampEp (EP_CTRL_not_faultReg hc)) (by rw [(noted_only ..).frame])

/-- A fault of class 0 or 1 has no result beside its record. -/
theorem raiseFault_light {s : State} {cls : Nat} (cause src unit : Nat) (hc : cls ≤ 1) (h : s.fld FLT_STATUS 0 5 = 0) :
    s.raiseFault cls cause src unit = s.noted cls cause src unit s.stampEp s.now := by
  rw [raiseFault_free _ _ _ _ h]
  obtain rfl | rfl : cls = 0 ∨ cls = 1 := by omega
  all_goals rfl

/-- A notice with no handler active. -/
theorem notice_free {s : State} (cause src unit : Nat) (h : s.fld FLT_STATUS 0 5 = 0) :
    s.notice cause src unit = s.noted 0 cause src unit s.stampEp s.now := raiseFault_light _ _ _ (by omega) h

/-! ### The results of F3 and F4 -/

/-- No swap is scheduled and no guarantee runs: a fault ends neither. -/
def State.nothingToLose (s : State) : Prop := s.fr.swapAt = none ∧ s.ep.guar = false

theorem cancelSwap_none {s : State} (h : s.fr.swapAt = none) : s.cancelSwap = s := by simp [State.cancelSwap, h]

theorem loseGuar_none {s : State} (h : s.ep.guar = false) (e : Nat) : s.loseGuar e = s := by simp [State.loseGuar, h]

/-- An F3 in Solo asks for Hold at the next epoch. -/
theorem faultResult_f3 {s : State} (src : Nat) (hm : s.mode = .solo) (hs : s.fr.swapAt = none) (hg : s.ep.guar = false) :
    s.faultResult 3 src = { s with flt := { s.flt with holdAt := some (s.stampEp + 1) } } := by
  simp [State.faultResult, cancelSwap_none hs, loseGuar_none hg, hm]

/-- An F4 asks for the reset of the frame die. -/
theorem faultResult_f4 {s : State} (src : Nat) (hs : s.fr.swapAt = none) (hg : s.ep.guar = false) :
    s.faultResult 4 src = { s with flt := { s.flt with f4 := true } } := by
  simp [State.faultResult, cancelSwap_none hs, loseGuar_none hg]

/-! ### What a fault's result leaves -/

/-- `t` reads as `s` but for registers of the list, and stands at the same instant and in the same epoch. -/
structure SameStamp (l : List Nat) (s t : State) : Prop where
  same : sameRegs l s t
  cur : t.ep.cur = s.ep.cur
  stop : t.ep.stop = s.ep.stop
  now : t.now = s.now

namespace SameStamp
variable {l l' : List Nat} {s t u : State}

theorem refl (l : List Nat) (s : State) : SameStamp l s s := ⟨.refl l s, rfl, rfl, rfl⟩

theorem trans (h : SameStamp l s t) (k : SameStamp l t u) : SameStamp l s u :=
  ⟨h.same.trans k.same, k.cur.trans h.cur, k.stop.trans h.stop, k.now.trans h.now⟩

theorem mono (h : SameStamp l s t) (k : l ⊆ l') : SameStamp l' s t := { h with same := h.same.mono k }

/-- An operation that may change neither registers, the epoch engine nor the time. -/
theorem keeps {c : Nat} (h : Keeps c t u) (e : c &&& 0x422 = 0) (k : SameStamp l s t) : SameStamp l s u := by
  have hbit : ∀ j, Nat.testBit 0x422 j = true → c.testBit j = false := fun j hj => by
    have := congrArg (·.testBit j) e
    simpa [Nat.testBit_and, hj] using this
  have hep : u.ep = t.ep := h.at_ 10 (hbit 10 rfl)
  exact k.trans ⟨.of_regs (h.at_ 5 (hbit 5 rfl)), by rw [hep], by rw [hep], h.at_ 1 (hbit 1 rfl)⟩

theorem flt (h : SameStamp l s t) (x : FaultMgr) : SameStamp l s { t with flt := x } := ⟨h.same, h.cur, h.stop, h.now⟩

theorem fr (h : SameStamp l s t) (x : Loader) : SameStamp l s { t with fr := x } := ⟨h.same, h.cur, h.stop, h.now⟩

theorem onFr (h : SameStamp l s t) (f : Loader → Loader) : SameStamp l s (t.onFr f) := ⟨h.same, h.cur, h.stop, h.now⟩

theorem onTw (h : SameStamp l s t) (f : Twin → Twin) : SameStamp l s (t.onTw f) := ⟨h.same, h.cur, h.stop, h.now⟩

theorem onMort (h : SameStamp l s t) (m : Nat) (f : Mortise → Mortise) : SameStamp l s (t.onMort m f) := ⟨h.same, h.cur, h.stop, h.now⟩

theorem flushPort (h : SameStamp l s t) (p : Nat) : SameStamp l s (t.flushPort p).2 := ⟨h.same, h.cur, h.stop, h.now⟩

theorem setBit (h : SameStamp l s t) {a : Nat} (ha : a ∈ l) (k : Nat) (b : Bool) : SameStamp l s (t.setBit a k b) :=
  h.trans ⟨((RegsOnly.refl l t).setBit ha k b).same, rfl, rfl, rfl⟩

theorem beginPurge (h : SameStamp l s t) (ha : FR_STATUS ∈ l) (p : Purge) (a b : Bool) : SameStamp l s (t.beginPurge p a b) := (h.onFr _).setBit ha _ _

theorem wrN (h : SameStamp l s t) {a : Nat} (ha : a ∈ l) (n : Nat) : SameStamp l s (t.wrN a n) :=
  h.trans ⟨((RegsOnly.refl l t).wrN ha n).same, rfl, rfl, rfl⟩

theorem evt (h : SameStamp l s t) {a : Nat} (ha : a ∈ l) (k : Nat) : SameStamp l s (t.evt a k) := h.wrN ha _

theorem evtOf (h : SameStamp l s t) {a : Nat} (ha : a ∈ l) (n k : Nat) : SameStamp l s (t.evtOf n a k) := by
  unfold State.evtOf
  split
  · exact h.evt ha k
  · exact ⟨h.same, h.cur, h.stop, h.now⟩

theorem ite {c : Prop} [Decidable c] (h : SameStamp l s t) (k : SameStamp l s u) : SameStamp l s (if c then t else u) := by
  split
  · exact h
  · exact k

theorem foldl {α : Type} {f : State → α → State} (xs : List α) (hf : ∀ u, ∀ x ∈ xs, SameStamp l u (f u x)) (h : SameStamp l s t) :
    SameStamp l s (xs.foldl f t) := by
  induction xs generalizing t with
  | nil => exact h
  | cons x xs ih => exact ih (fun u y hy => hf u y (List.mem_cons_of_mem _ hy)) (h.trans (hf t x List.mem_cons_self))

theorem stampEp (h : SameStamp l s t) (hl : EP_CTRL ∉ l) : t.stampEp = s.stampEp := stampEp_congr h.cur h.stop h.now (h.same _ hl)

end SameStamp

/-- The registers that a fault's result may change beside its record. -/
def resultRegs : List Nat := [FR_STATUS, FR_EVENT, EP_EVENT, TW_EVENT, TW_CNT 3] ++ (List.range 128).map MZ_EVENT ++ tecRegs

theorem tecRegs_above {a : Nat} (h : a ∈ tecRegs) : 0x100000 ≤ a := by
  simp only [tecRegs, List.mem_flatMap, List.mem_cons, List.not_mem_nil, or_false] at h
  obtain ⟨m, -, rfl | rfl⟩ := h
  · unfold CN_ERRC; omega
  · unfold CN_STATUS; omega

theorem resultRegs_above {a : Nat} (h : a ∈ resultRegs) : 0x40000 < a := by
  simp only [resultRegs, List.mem_append, List.mem_map, List.mem_cons, List.not_mem_nil, or_false] at h
  obtain (h | ⟨m, -, rfl⟩) | h := h
  · have : ∀ b ∈ [FR_STATUS, FR_EVENT, EP_EVENT, TW_EVENT, TW_CNT 3], 0x40000 < b := by decide
    exact this a (by simpa using h)
  · unfold MZ_EVENT; omega
  · have := tecRegs_above h
    omega

theorem EP_CTRL_not_resultReg : EP_CTRL ∉ resultRegs := fun h => absurd (resultRegs_above h) (by decide)

theorem tecZero_only (s : State) : RegsOnly tecRegs s s.tecZero := by
  unfold State.tecZero
  refine RegsOnly.foldl _ (fun u m hm => ?_) (.refl _ s)
  have h1 : CN_ERRC m ∈ tecRegs := List.mem_flatMap.mpr ⟨m, hm, by simp⟩
  have h2 : CN_STATUS m ∈ tecRegs := List.mem_flatMap.mpr ⟨m, hm, by simp⟩
  exact .ite (fun _ => (((RegsOnly.refl _ u).setFld h1 _ _ _).setFld h2 _ _ _).setBit h2 _ _) fun _ => .refl _ u

/-- What giving the lease up by itself changes: the pins, the twin, TEC and what TW_EVENT and TW_CNT3 show (R446). -/
theorem selfFence_only (s : State) : ∃ w : Twin, RegsOnly (TW_EVENT :: TW_CNT 3 :: tecRegs)
    { s with mz := s.mz.map Mortise.idlePins, tw := w } s.selfFence ∧ w = { s.tw with
      lease := false, nopeer := false, expiry := 0, fenceAt := none, inStep := false, peerInStep := false, driving := false,
      catchUp := 0, admitted := false, joinAt := none, egressOff := true, exLead := true, demote := true } :=
  ⟨_, (((tecZero_only _).mono (by simp)).evt (by simp) 4).inc (by simp) 1, rfl⟩

theorem selfFence_sameStamp (s : State) : SameStamp resultRegs s s.selfFence := by
  obtain ⟨w, h, -⟩ := selfFence_only s
  have h' := h.mono (l' := resultRegs) fun a ha => by
    simp only [List.mem_cons] at ha
    simp only [resultRegs, List.mem_append, List.mem_cons]
    tauto
  exact ⟨h'.same.left rfl, by rw [h.frame], by rw [h.frame], by rw [h.frame]⟩

theorem loseGuar_sameStamp (s : State) (e : Nat) : SameStamp [EP_EVENT] s (s.loseGuar e) := by
  unfold State.loseGuar
  split
  · have h : SameStamp [EP_EVENT] s { s with ep := { s.ep with guar := false, lossEp := e } } := ⟨.of_regs rfl, rfl, rfl, rfl⟩
    exact h.evt (List.mem_singleton.mpr rfl) 9
  · exact .refl _ s

theorem isolateBent_sameStamp (s : State) (i : Nat) (hi : i < 13) : SameStamp ((List.range 128).map MZ_EVENT) s (s.isolateBent i) := by
  unfold State.isolateBent
  extract_lets s1 f s2
  have h2 : SameStamp ((List.range 128).map MZ_EVENT) s s2 := ((SameStamp.refl _ s).onFr (fun f => { f with bents := f.bents.set i .isolated })).onFr _ |>.flt _
  split
  · refine SameStamp.foldl _ (fun u j hj => ?_) h2
    have hj := List.mem_range.mp hj
    have hm : MZ_EVENT (16 * i + j) ∈ (List.range 128).map MZ_EVENT := List.mem_map_of_mem (List.mem_range.mpr (by omega))
    exact ((((SameStamp.refl _ u).flushPort (16 * i + j)).fr _).onMort _ _).evtOf hm _ _
  · split
    · exact SameStamp.foldl _ (fun u p _ => ((SameStamp.refl _ u).flushPort p).onFr _) h2
    · exact h2

theorem dropDelta_sameStamp (s : State) : SameStamp [FR_STATUS] s s.dropDelta := by
  have hu : SameStamp [FR_STATUS] s s.unswap := .keeps (State.unswap_keeps (c := 0x2800) rfl (.refl _ s)) rfl (.refl _ s)
  exact ((hu.onFr _).setBit (List.mem_singleton.mpr rfl) _ _).beginPurge (List.mem_singleton.mpr rfl) _ _ _

theorem cancelSwap_sameStamp (s : State) : SameStamp [FR_STATUS, FR_EVENT] s s.cancelSwap := by
  unfold State.cancelSwap
  split
  · exact ((dropDelta_sameStamp s).mono (by simp)).evt (by simp) 9
  · exact .refl _ s

theorem bentIdx_lt {code i : Nat} (h : bentIdx code = some i) : i < 13 := by
  unfold bentIdx at h
  split at h
  · cases h; omega
  · split at h
    · cases h; omega
    · cases h

/-- What an F2 does to its bent, before it takes the unit out of step (R35). -/
def State.f2Hit (s : State) (src : Nat) : State :=
  match bentIdx src with
  | some i => { s with flt := { s.flt with f2At := s.now, f2Iso := [] } }.isolateBent i
  | none => { s with flt := { s.flt with f2At := s.now, f2Iso := [] } }

theorem faultResult_f2 (s : State) (src : Nat) :
    s.faultResult 2 src = if s.mode == .lead && s.tw.peerInStep then (s.f2Hit src).selfFence else (s.f2Hit src).leaveStep := rfl

theorem f2Hit_sameStamp (s : State) (src : Nat) : SameStamp ((List.range 128).map MZ_EVENT) s (s.f2Hit src) := by
  unfold State.f2Hit
  split
  · rename_i i hi
    exact ((SameStamp.refl _ s).flt _).trans (isolateBent_sameStamp _ i (bentIdx_lt hi))
  · exact (SameStamp.refl _ s).flt _

theorem leaveStep_sameStamp (l : List Nat) (s : State) : SameStamp l s s.leaveStep :=
  .keeps (State.leaveStep_keeps (c := 0x200000) rfl (.refl _ s)) rfl (.refl _ s)

/-- What a service ending F3 does, for the state in which the swap and the guarantee have ended (R35, R451). -/
def State.f3Ask (s : State) (lead : Bool) : State :=
  match s.mode with
  | .solo | .lead | .shadow =>
    let s : State := { s with flt := { s.flt with holdAt := some (s.stampEp + 1) } }
    if lead then s.selfFence.onTw (fun w => { w with demote := false }) else s
  | .raise => { s with flt := { s.flt with holdAt := some 0 } }
  | _ => s

theorem faultResult_f3_eq (s : State) (src : Nat) :
    s.faultResult 3 src = (s.cancelSwap.loseGuar s.cancelSwap.stampEp).f3Ask (s.mode == .lead && s.tw.peerInStep) := rfl

theorem faultResult_f4_eq (s : State) (src : Nat) : s.faultResult 4 src =
    { (s.cancelSwap.loseGuar s.stampEp) with flt := { s.flt with f4 := true } } := rfl

theorem f3Ask_sameStamp (s : State) (lead : Bool) : SameStamp resultRegs s (s.f3Ask lead) := by
  have hask : ∀ t : State, SameStamp resultRegs s t → SameStamp resultRegs s (if lead then t.selfFence.onTw (fun w => { w with demote := false }) else t) :=
    fun t ht => .ite ((ht.trans (selfFence_sameStamp t)).onTw _) ht
  unfold State.f3Ask
  split
  · exact hask _ ((SameStamp.refl _ s).flt _)
  · exact hask _ ((SameStamp.refl _ s).flt _)
  · exact hask _ ((SameStamp.refl _ s).flt _)
  · exact (SameStamp.refl _ s).flt _
  · exact .refl _ s

/-- The result of a fault changes no register of a fault record, and neither the time nor the epoch being stamped. -/
theorem faultResult_sameStamp (s : State) {cls : Nat} (src : Nat) (hc : cls ≤ 4) : SameStamp resultRegs s (s.faultResult cls src) := by
  have hlost : ∀ e, SameStamp resultRegs s (s.cancelSwap.loseGuar e) := fun e =>
    ((cancelSwap_sameStamp s).mono (by simp [resultRegs])).trans ((loseGuar_sameStamp _ _).mono (by simp [resultRegs]))
  obtain rfl | rfl | rfl | rfl | rfl : cls = 0 ∨ cls = 1 ∨ cls = 2 ∨ cls = 3 ∨ cls = 4 := by omega
  · exact .refl _ s
  · exact .refl _ s
  · rw [faultResult_f2]
    have h := (f2Hit_sameStamp s src).mono (l' := resultRegs) fun a ha => List.mem_append_left _ (List.mem_append_right _ ha)
    exact .ite (h.trans (selfFence_sameStamp _)) (h.trans (leaveStep_sameStamp _ _))
  · rw [faultResult_f3_eq]
    exact (hlost _).trans (f3Ask_sameStamp _ _)
  · rw [faultResult_f4_eq]
    exact (hlost _).flt _

theorem faultReg_not_resultReg {cls a : Nat} (hc : cls ≤ 4) (ha : a ∈ faultRegs cls) : a ∉ resultRegs := fun h => by
  have := resultRegs_above h
  simp only [faultRegs, List.mem_cons, List.not_mem_nil, or_false] at ha
  unfold FLT_STATUS FLT_CNT FLT_FF_W0 FLT_FF_W1 FLT_FF_W2 FLT_FF_W3 at ha
  omega

/-- A fault raised with no handler active is on record, whatever its result (R464). -/
theorem raiseFault_noted {s : State} {cls cause src unit : Nat} (h : s.fld FLT_STATUS 0 5 = 0) (hc : cls ≤ 4) (h1 : cause < 256) (h2 : src < 256)
    (h3 : unit < 256) : faultNoted cls cause src unit s (s.raiseFault cls cause src unit) := by
  rw [raiseFault_free _ _ _ _ h]
  have hr := faultResult_sameStamp (s.noted cls cause src unit s.stampEp s.now) src hc
  have hx := noted_only s cls cause src unit s.stampEp s.now
  refine ((noted_at s s.stampEp s.now hc h1 h2 h3).mono fun a ha => hr.same a (faultReg_not_resultReg hc ha)).now ?_ (hr.now.trans (by rw [hx.frame]))
  exact (hr.stampEp EP_CTRL_not_resultReg).trans (hx.stampEp (EP_CTRL_not_faultReg hc))

/-- Such a fault changes the registers of its record and of its result alone, and neither the time nor the epoch being stamped. -/
theorem raiseFault_sameStamp {s : State} {cls : Nat} (cause src unit : Nat) (h : s.fld FLT_STATUS 0 5 = 0) (hc : cls ≤ 4) :
    SameStamp (faultRegs cls ++ resultRegs) s (s.raiseFault cls cause src unit) := by
  rw [raiseFault_free _ _ _ _ h]
  have hx := noted_only s cls cause src unit s.stampEp s.now
  exact .trans ⟨hx.same.mono (by simp), by rw [hx.frame], by rw [hx.frame], by rw [hx.frame]⟩ ((faultResult_sameStamp _ src hc).mono (by simp))

/-! ### Isolation -/

theorem bents_isolateBent (s : State) (i : Nat) : (s.isolateBent i).fr.bents = s.fr.bents.set i .isolated := by
  have hevt : ∀ (t : State) n a k, (t.evtOf n a k).fr.bents = t.fr.bents := fun t n a k => by rw [evtOf_frame]
  unfold State.isolateBent
  extract_lets s1 f s2
  have h2 : s2.fr.bents = s.fr.bents.set i .isolated := rfl
  split
  · rw [← h2]
    refine foldl_view (fun t : State => t.fr.bents) _ _ s2 fun t j _ => ?_
    exact hevt _ _ _ _
  · split
    · rw [← h2]
      exact foldl_view (fun t : State => t.fr.bents) _ _ s2 fun t p _ => rfl
    · exact h2

end Sys2Proof.Machine
end

section
/-! PROOFS. Memory, engine and clock faults (R463 to R471, R536). -/
set_option Elab.async false
namespace Sys2Proof.Machine
open Sys2Proof

theorem code_lt_of_bentIdx {code i : Nat} (h : bentIdx code = some i) : code < 256 := by
  unfold bentIdx at h
  split at h
  · omega
  · split at h
    · omega
    · cases h

/-- The bents after a fault: an F2 isolates the bent that its source names. -/
theorem bents_faultResult_f2 (s : State) {src i : Nat} (h : bentIdx src = some i) : (s.faultResult 2 src).fr.bents = s.fr.bents.set i .isolated := by
  have hhit : (s.f2Hit src).fr.bents = s.fr.bents.set i .isolated := by
    unfold State.f2Hit
    rw [h]
    exact bents_isolateBent _ i
  rw [faultResult_f2]
  split
  · rw [show (s.f2Hit src).selfFence.fr = (s.f2Hit src).fr from (State.selfFence_keeps (c := 0x202020) rfl (.refl _ _)).at_ 11 rfl, hhit]
  · rw [show (s.f2Hit src).leaveStep.fr = (s.f2Hit src).fr from (State.leaveStep_keeps (c := 0x200000) rfl (.refl _ _)).at_ 11 rfl, hhit]

theorem bents_raiseFault_f2 {s : State} {src i : Nat} (cause unit : Nat) (hf : s.fld FLT_STATUS 0 5 = 0) (h : bentIdx src = some i) :
    (s.raiseFault 2 cause src unit).fr.bents = s.fr.bents.set i .isolated := by
  rw [raiseFault_free _ _ _ _ hf, bents_faultResult_f2 _ h, (noted_only ..).frame]

theorem bent_of_set {s u : State} {i : Nat} (h : u.fr.bents = s.fr.bents.set i .isolated) (hl : i < s.fr.bents.length) :
    u.bent i = .isolated ∧ ∀ k, k ≠ i → u.bent k = s.bent k := by
  unfold State.bent
  rw [h]
  refine ⟨by simp [hl], fun k hk => ?_⟩
  rw [List.getD_eq_getElem?_getD, List.getElem?_set_ne (fun e => hk e.symm), ← List.getD_eq_getElem?_getD]

/-- An F3 in Solo where there is no swap and no guarantee to lose. -/
theorem raiseFault_f3 {s : State} (cause src unit : Nat) (hf : s.fld FLT_STATUS 0 5 = 0) (hm : s.mode = .solo) (hs : s.fr.swapAt = none)
    (hg : s.ep.guar = false) : s.raiseFault 3 cause src unit =
      { (s.noted 3 cause src unit s.stampEp s.now) with flt := { s.flt with holdAt := some (s.stampEp + 1) } } := by
  have hx := noted_only s 3 cause src unit s.stampEp s.now
  have hep := hx.stampEp (EP_CTRL_not_faultReg (by omega))
  rw [raiseFault_free _ _ _ _ hf, faultResult_f3 _ (by rw [hx.frame]; exact hm) (by rw [hx.frame]; exact hs) (by rw [hx.frame]; exact hg), hep,
    show (s.noted 3 cause src unit s.stampEp s.now).flt = s.flt by rw [hx.frame]]

/-- An F4 where there is no swap and no guarantee to lose. -/
theorem raiseFault_f4 {s : State} (cause src unit : Nat) (hf : s.fld FLT_STATUS 0 5 = 0) (hs : s.fr.swapAt = none) (hg : s.ep.guar = false) :
    s.raiseFault 4 cause src unit = { (s.noted 4 cause src unit s.stampEp s.now) with flt := { s.flt with f4 := true } } := by
  have hx := noted_only s 4 cause src unit s.stampEp s.now
  rw [raiseFault_free _ _ _ _ hf, faultResult_f4 _ (by rw [hx.frame]; exact hs) (by rw [hx.frame]; exact hg),
    show (s.noted 4 cause src unit s.stampEp s.now).flt = s.flt by rw [hx.frame]]

/-- A fault that leaves its record and an order of the fault manager. -/
theorem after_recorded {i : Instr} {s : State} {t cls cause src unit : Nat} {y : State} {f : FaultMgr} (h : exec i s = .next (s.settle y))
    (he : y = { (s.tick t).noted cls cause src unit (s.tick t).stampEp (max s.now t) with flt := f }) (hc : cls ≤ 4) (h1 : cause < 256) (h2 : src < 256)
    (h3 : unit < 256) : After i s fun u => faultNoted cls cause src unit s u ∧ u.flt = f ∧ sameRegs (faultRegs cls) s u ∧
      u = { s with now := max s.now t, regs := u.regs, flt := u.flt, hb := u.hb } := by
  have hn : faultNoted cls cause src unit s ((s.tick t).noted cls cause src unit (s.tick t).stampEp (max s.now t)) := noted_now (s.tick t) hc h1 h2 h3
  have hx := noted_only (s.tick t) cls cause src unit (s.tick t).stampEp (max s.now t)
  generalize (s.tick t).noted cls cause src unit (s.tick t).stampEp (max s.now t) = x at he hn hx
  refine after_of h he fun b _ => ⟨hn, rfl, hx.same, ?_⟩
  exact congrArg (fun z : State => { z with flt := f, hb := b }) hx.frame

/-! ### A fault under an active handler -/

/-- A fault whose class or a higher one is being handled goes to the second-fault record, where that is free. -/
theorem recordAt_second {s : State} {cls : Nat} (cause src unit ep ts : Nat) (h : s.fld FLT_STATUS 0 5 >>> cls ≠ 0) (hsf : s.bit FLT_SF_W0 24 = false)
    (hc : cls ≤ 4) (h1 : cause < 256) (h2 : src < 256) (h3 : unit < 256) :
    RegsOnly [FLT_STATUS, FLT_CNT cls, FLT_SF_W0, FLT_SF_W1, FLT_SF_W2, FLT_SF_W3] s (s.recordAt cls cause src unit ep ts) ∧
      (s.recordAt cls cause src unit ep ts).rdN FLT_SF_W0 = cause + src * 2 ^ 8 + unit * 2 ^ 16 + 2 ^ 24 + cls * 2 ^ 25 ∧
      (s.recordAt cls cause src unit ep ts).fld FLT_STATUS 16 16 = min 0xFFFF (s.fld FLT_STATUS 16 16 + 1) ∧
      (s.recordAt cls cause src unit ep ts).rdN (FLT_CNT cls) = (s.rdN (FLT_CNT cls) + 1) % 2 ^ 32 := by
  have hne : FLT_CNT cls ∉ [FLT_STATUS, FLT_SF_W0, FLT_SF_W1, FLT_SF_W2, FLT_SF_W3] ∧ FLT_STATUS ∉ [FLT_SF_W0, FLT_SF_W1, FLT_SF_W2, FLT_SF_W3] := by
    simp only [List.mem_cons, List.not_mem_nil, or_false]
    unfold FLT_STATUS FLT_CNT FLT_SF_W0 FLT_SF_W1 FLT_SF_W2 FLT_SF_W3
    omega
  obtain ⟨y, hy⟩ : ∃ y, y = (s.inc (FLT_CNT cls)).setFld FLT_STATUS 16 16 (min 0xFFFF (s.fld FLT_STATUS 16 16 + 1)) := ⟨_, rfl⟩
  have hyo : RegsOnly [FLT_STATUS, FLT_CNT cls] s y := by rw [hy]; exact ((RegsOnly.refl _ s).inc (by simp) _).setFld (by simp) _ _ _
  have hyf : y.fld FLT_STATUS 16 16 = min 0xFFFF (s.fld FLT_STATUS 16 16 + 1) := by
    rw [hy]
    exact (fld_setFld_same _ _ _ _ _ (by decide)).trans (Nat.mod_eq_of_lt (by omega))
  have hyc : y.rdN (FLT_CNT cls) = (s.rdN (FLT_CNT cls) + 1) % 2 ^ 32 := by
    rw [hy]
    refine (rdN_setFld_ne _ _ _ _ _ _ ?_).trans (rdN_inc_same _ _ _)
    simp only [List.mem_cons, not_or] at hne
    exact hne.1.1
  have hysf : y.bit FLT_SF_W0 24 = false := (hyo.same.bit (by
    simp only [List.mem_cons, List.not_mem_nil, or_false]
    unfold FLT_STATUS FLT_CNT FLT_SF_W0
    omega) 24).trans hsf
  obtain ⟨n, hn⟩ : ∃ n, n = ep / 2 ^ 32 := ⟨_, rfl⟩
  have he : s.recordAt cls cause src unit ep ts =
      (((y.wrN FLT_SF_W0 (faultWords cls cause src unit ep ts).1).wrN FLT_SF_W1 (ep % 2 ^ 32)).wrN FLT_SF_W2 n).wrN FLT_SF_W3 (ts % 2 ^ 32) := by
    simp only [State.recordAt, fld_inc_cnt, if_pos h, ← hy, hysf, hn]
    rfl
  rw [he]
  have hw := (((RegsOnly.refl [FLT_SF_W0, FLT_SF_W1, FLT_SF_W2, FLT_SF_W3] y).wrN (a := FLT_SF_W0) (by simp) (faultWords cls cause src unit ep ts).1).wrN
    (a := FLT_SF_W1) (by simp) (ep % 2 ^ 32)).wrN (a := FLT_SF_W2) (by simp) n |>.wrN (a := FLT_SF_W3) (by simp) (ts % 2 ^ 32)
  refine ⟨(hyo.mono (by simp)).trans (hw.mono (by simp)), ?_, (hw.same.fld hne.2 _ _).trans hyf, (hw.rdN fun hm => hne.1 (List.mem_cons_of_mem _ hm)).trans hyc⟩
  rw [rdN_wrN_ne _ _ _ _ (by decide), rdN_wrN_ne _ _ _ _ (by decide), rdN_wrN_ne _ _ _ _ (by decide), rdN_wrN_same]
  exact Nat.mod_eq_of_lt (show cause + src * 2 ^ 8 + unit * 2 ^ 16 + 2 ^ 24 + cls * 2 ^ 25 < 2 ^ 32 by omega)

/-- A handler of class 2 is a handler of class 1 or above. -/
theorem f1_handled {s : State} (h : s.bit FLT_STATUS 2 = true) : s.fld FLT_STATUS 0 5 >>> 1 ≠ 0 := fun h0 => by
  have := congrArg (·.testBit 1) h0
  simp only [Nat.testBit_shiftRight, Nat.zero_testBit, State.fld, bitsN] at this
  rw [Nat.testBit_mod_two_pow, Nat.shiftRight_zero, show (s.rdN FLT_STATUS).testBit (1 + 1) = true from h] at this
  exact absurd this (by decide)

end Sys2Proof.Machine
end

section
namespace Sys2Proof.Proofs
open Sys2Proof Sys2Proof.Machine

/-- Settles O36: a free class takes its record whatever the result of the fault, and under a handler the second record takes it. -/
theorem faultsAreRecorded : Obligations.FaultsAreRecorded := by
  unfold Obligations.FaultsAreRecorded
  refine ⟨fun s t bent i hd hf hb hl => ⟨?_, fun hrate => ?_⟩, fun s t bent hd hm hf hb hs hg => ?_, fun s t hd hf hs hg => ⟨?_, ?_⟩,
    fun s t bent i hd hact hb hrate hsf hlt => ?_⟩
  · have hlt : bent < 256 := code_lt_of_bentIdx hb
    have heq : (s.memoryErrorDetected t bent true) = (s.tick t).raiseFault 2 0x20 bent 0xFF := by
      simp [State.memoryErrorDetected, hd, hb]
    have hn : faultNoted 2 0x20 bent 0xFF s ((s.tick t).raiseFault 2 0x20 bent 0xFF) := raiseFault_noted (s := s.tick t) hf (by omega) (by omega) hlt (by omega)
    have hbents := bent_of_set (bents_raiseFault_f2 (s := s.tick t) 0x20 0xFF hf hb) (i := i) (by rw [show (s.tick t).fr = s.fr from rfl, hl]; exact bentIdx_lt hb)
    have hnow := (raiseFault_sameStamp (s := s.tick t) 0x20 bent 0xFF hf (cls := 2) (by omega)).now
    generalize (s.tick t).raiseFault 2 0x20 bent 0xFF = x at heq hn hbents hnow
    exact after_of rfl heq fun b _ => ⟨hn, hbents.1, fun k _ hk => hbents.2 k hk, hnow⟩
  · have hlt : bent < 256 := code_lt_of_bentIdx hb
    have heq : (s.memoryErrorDetected t bent false) = (s.tick t).noted 1 0x10 bent 0xFF (s.tick t).stampEp (max s.now t) := by
      have hc : ∀ x : State, x.flt.f1rate = 0 → x.countError i = x := fun x hx => by simp [State.countError, hx]
      simp only [State.memoryErrorDetected, show (s.tick t).dieOn = true from hd, hb, raiseFault_light (s := s.tick t) 0x10 bent 0xFF (cls := 1) (by omega) hf]
      exact hc _ (by rw [(noted_only ..).frame]; exact hrate)
    obtain ⟨u, hu, h1, h2, h3, h4⟩ := after_recorded (i := .memoryErrorDetected t bent false) (t := t) (f := s.flt) rfl
      (heq.trans (by rw [(noted_only ..).frame]; rfl)) (by omega) (by omega) hlt (by omega)
    exact ⟨u, hu, h1, h3, h4.trans (by rw [h2])⟩
  · refine after_recorded rfl ?_ (by omega) (by omega) (by omega) (by omega)
    refine Eq.trans ?_ (raiseFault_f3 (s := s.tick t) 0x31 0xFF 0xFF hf hm hs hg)
    simp [State.memoryErrorDetected, hd, hb]
  · refine after_recorded rfl ?_ (by omega) (by omega) (by omega) (by omega)
    refine Eq.trans ?_ (raiseFault_f4 (s := s.tick t) 0x40 0x20 0xFF hf hs hg)
    simp [State.epochEngineFault, hd]
  · refine after_recorded rfl ?_ (by omega) (by omega) (by omega) (by omega)
    refine Eq.trans ?_ (raiseFault_f4 (s := s.tick t) 0x42 0xFF 0xFF hf hs hg)
    simp [State.refclkFailure, hd]
  · have hlt' : bent < 256 := code_lt_of_bentIdx hb
    obtain ⟨ho, hw, hcnt, hc⟩ := recordAt_second (s := s.tick t) 0x10 bent 0xFF (s.tick t).stampEp (s.tick t).now (f1_handled hact) hsf (cls := 1) (by omega) (by omega)
      hlt' (by omega)
    have heq : s.memoryErrorDetected t bent false = (s.tick t).recordAt 1 0x10 bent 0xFF (s.tick t).stampEp (s.tick t).now := by
      have hce : ∀ x : State, x.flt.f1rate = 0 → x.countError i = x := fun x hx => by simp [State.countError, hx]
      simp only [State.memoryErrorDetected, show (s.tick t).dieOn = true from hd, hb]
      refine hce _ ?_
      show ((s.tick t).recordAt 1 0x10 bent 0xFF (s.tick t).stampEp (s.tick t).now).flt.f1rate = 0
      rw [ho.frame]
      exact hrate
    generalize (s.tick t).recordAt 1 0x10 bent 0xFF (s.tick t).stampEp (s.tick t).now = x at ho hw hcnt hc heq
    refine after_of rfl heq fun b _ => ⟨hw.trans (by omega), hcnt.trans ?_, ho.same _ (by decide), hc, ho.same, ho.frame_hb b⟩
    exact Nat.min_eq_right (show s.fld FLT_STATUS 16 16 + 1 ≤ 0xFFFF by omega)

end Sys2Proof.Proofs
end

section
/-! PROOFS. The sill die: supplies, resets and the start of the frame die (R17, R430, R434, R466, R468, R528 to R536, R561). -/
set_option Elab.async false
namespace Sys2Proof.Machine
open Sys2Proof

/-! ### Reset values and lists of registers -/

/-- Reset values have bit 31 clear (R9). -/
theorem resetOf_lt (a : Nat) : resetOf a < 2 ^ 31 := by
  unfold resetOf
  split
  · rename_i r hr
    have hall : ∀ r ∈ resetTab, r.2.2 < 2 ^ 31 := by decide
    exact hall r (List.mem_of_find?_eq_some hr)
  · decide

theorem rdN_of_regFind_none {s : State} {a : Nat} (h : regFind s.regs a = none) : s.rdN a = resetOf a := by
  rw [State.rdN, State.rd, h]
  exact (BitVec.toNat_ofNat ..).trans (Nat.mod_eq_of_lt ((resetOf_lt a).trans (by decide)))

theorem regFind_of_forall_lt {l : List (Nat × Word)} {a : Nat} (h : ∀ x ∈ l, a < x.1) : regFind l a = none := by
  cases l with
  | nil => rfl
  | cons x l =>
    have := h x List.mem_cons_self
    obtain ⟨b, w⟩ := x
    simp only [regFind]
    rw [if_neg (by simp at this; omega), if_pos this]

/-- A register list cut down to the offsets of a predicate. -/
theorem regFind_filter {l : List (Nat × Word)} (hl : regWf l) (p : Nat → Bool) (a : Nat) :
    regFind (l.filter fun x => p x.1) a = if p a then regFind l a else none := by
  induction l with
  | nil => simp [regFind]
  | cons x l ih =>
    obtain ⟨b, w⟩ := x
    obtain ⟨hb, hl⟩ := List.pairwise_cons.mp hl
    rw [List.filter_cons]
    by_cases hpb : p b = true
    · rw [if_pos hpb]
      simp only [regFind]
      by_cases hba : b = a
      · subst hba; simp [hpb]
      · rw [if_neg hba, if_neg hba]
        by_cases hlt : a < b
        · simp [hlt]
        · rw [if_neg hlt, if_neg hlt, ih hl]
    · rw [if_neg hpb, ih hl]
      by_cases hpa : p a = true
      · have hba : b ≠ a := by rintro rfl; exact hpb hpa
        rw [if_pos hpa, if_pos hpa]
        simp only [regFind]
        rw [if_neg hba]
        by_cases hlt : a < b
        · rw [if_pos hlt, regFind_of_forall_lt fun y hy => hlt.trans (hb y hy)]
        · rw [if_neg hlt]
      · rw [if_neg hpa, if_neg hpa]

/-! ### The registers that a reset of the frame die leaves (R468, R561) -/

theorem lockRegs_bit_fold (l : List Nat) (s : State) {a : Nat} :
    ((l.foldl (fun s a => s.setBit a 31 true) s).bit a 31 = (s.bit a 31 || l.contains a)) ∧ (a ∉ l → (l.foldl (fun s a => s.setBit a 31 true) s).rd a = s.rd a) := by
  induction l generalizing s with
  | nil => simp
  | cons b l ih =>
    obtain ⟨h1, h2⟩ := ih (s.setBit b 31 true)
    rw [List.foldl_cons]
    refine ⟨h1.trans ?_, fun ha => ?_⟩
    · by_cases hab : a = b
      · subst hab; simp [bit_setBit]
      · rw [State.setBit, bit_wrN_ne _ _ _ _ _ hab]
        simp [hab]
    · obtain ⟨hab, hal⟩ := not_or.mp (mt List.mem_cons.mpr ha)
      rw [h2 hal, State.setBit, State.wrN, rd_wr, if_neg hab]

theorem dieRegs_frame (s : State) : s.dieRegs = { s with regs := s.dieRegs.regs } := by
  have h : ∀ (l : List Nat) (t : State), (l.foldl (fun s a => s.setBit a 31 true) t) = { t with regs := (l.foldl (fun s a => s.setBit a 31 true) t).regs } := by
    intro l t
    exact (RegsOnly.foldl (l := l) l (fun u x hx => (RegsOnly.refl _ u).setBit hx _ _) (.refl _ t)).frame
  exact h _ _

/-- What the registers of a frame die that was reset hold: the kept ones are as before, lock bits stay, and every other register is at reset. -/
structure DieRegsLeft (s u : State) : Prop where
  kept : ∀ a, keptReg a = true → u.rd a = s.rd a
  locks : ∀ a ∈ lockRegs, u.bit a 31 = s.bit a 31
  rest : ∀ a, keptReg a = false → a ∉ lockRegs → u.rdN a = resetOf a

theorem lockRegs_not_kept : ∀ a ∈ lockRegs, keptReg a = false := by decide +kernel

theorem dieRegs_left {s : State} (h : regWf s.regs) : DieRegsLeft s s.dieRegs := by
  obtain ⟨t, ht⟩ : ∃ t : State, t = { s with regs := s.regs.filter fun r => keptReg r.1 } := ⟨_, rfl⟩
  obtain ⟨l, hl⟩ : ∃ l, l = lockRegs.filter fun a => s.bit a 31 := ⟨_, rfl⟩
  have hu : s.dieRegs = l.foldl (fun s a => s.setBit a 31 true) t := by rw [ht, hl]; rfl
  have hfind : ∀ a, regFind t.regs a = if keptReg a then regFind s.regs a else none := fun a => by rw [ht]; exact regFind_filter h keptReg a
  have hreset : ∀ a, keptReg a = false → t.rdN a = resetOf a := fun a ha => rdN_of_regFind_none (by rw [hfind, ha]; rfl)
  have hnot : ∀ a, a ∉ lockRegs → a ∉ l := fun a ha hm => ha (by rw [hl] at hm; exact List.mem_of_mem_filter hm)
  rw [hu]
  refine ⟨fun a ha => ?_, fun a ha => ?_, fun a ha hn => ?_⟩
  · have hal : a ∉ lockRegs := fun hm => by
      have := lockRegs_not_kept a hm
      rw [ha] at this
      cases this
    rw [(lockRegs_bit_fold l t).2 (hnot a hal), State.rd, hfind, ha]
    rfl
  · rw [(lockRegs_bit_fold l t).1, State.bit, hreset a (lockRegs_not_kept a ha), Nat.testBit_lt_two_pow (resetOf_lt a), Bool.false_or, hl]
    simp [List.contains_eq_mem, ha]
  · rw [State.rdN, (lockRegs_bit_fold l t).2 (hnot a hn)]
    exact hreset a ha

theorem gradeRegs_q2 {s : State} (h : s.grade = .q2) : s.gradeRegs = s := by rw [State.gradeRegs, h]

theorem leaveHold_only (s : State) : RegsOnly [FLT_STATUS] s s.leaveHold := by
  unfold State.leaveHold
  exact .ite (fun _ => (RegsOnly.refl _ s).setBit (List.mem_singleton.mpr rfl) 3 false) fun _ => .refl _ s

theorem bit_leaveHold (s : State) {k : Nat} (hk : k < 32) (h3 : k ≠ 3) : s.leaveHold.bit FLT_STATUS k = s.bit FLT_STATUS k := by
  unfold State.leaveHold State.endHandler
  split
  · rw [bit_setBit _ _ _ _ _ hk, if_neg h3]
  · rfl

/-- What a reset of the frame die of a Q2 unit leaves. -/
structure DieResetLeft (pins : PinCond) (s u : State) : Prop where
  kept : ∀ a, keptReg a = true → a ≠ FLT_STATUS → u.rd a = s.rd a
  flt : ∀ k < 32, k ≠ 3 → u.bit FLT_STATUS k = s.bit FLT_STATUS k
  locks : ∀ a ∈ lockRegs, u.bit a 31 = s.bit a 31
  rest : ∀ a, keptReg a = false → a ∉ lockRegs → u.rdN a = resetOf a
  mort : ∀ m < 128, (u.mort m).pins = pins ∧ (u.mort m).tenon = .idle

theorem dieReset_left {s : State} (pins : PinCond) (hg : s.grade = .q2) (hok : s.ok) : DieResetLeft pins s (s.dieReset pins) := by
  obtain ⟨hreg, -, hmz, -, -⟩ := hok
  have hlh := leaveHold_only s
  have hfr := dieRegs_frame s.leaveHold
  have hwf : regWf s.leaveHold.regs := (State.leaveHold_keeps (c := 0x20) rfl (.refl _ s)).wf_regs hreg
  obtain ⟨hk, hlk, hr⟩ := dieRegs_left hwf
  have hgr : s.leaveHold.dieRegs.gradeRegs = s.leaveHold.dieRegs := gradeRegs_q2 (by rw [hfr, hlh.frame]; exact hg)
  have hregs : (s.dieReset pins).regs = s.leaveHold.dieRegs.regs := by
    rw [← hgr]
    rfl
  have hmorts : (s.dieReset pins).mz = s.mz.map fun x => { ({} : Mortise) with desc := x.desc, latch := if pins == .psleep then x.desc else [], pins := pins } := by
    have : s.leaveHold.dieRegs.gradeRegs.mz = s.mz := by rw [hgr, hfr, hlh.frame]
    rw [← this]
    rfl
  have hrd : ∀ a, (s.dieReset pins).rd a = s.leaveHold.dieRegs.rd a := fun a => rd_congr hregs a
  have hrdN : ∀ a, (s.dieReset pins).rdN a = s.leaveHold.dieRegs.rdN a := fun a => congrArg BitVec.toNat (hrd a)
  have hbit : ∀ a k, (s.dieReset pins).bit a k = s.leaveHold.dieRegs.bit a k := fun a k => congrArg (·.testBit k) (hrdN a)
  refine ⟨fun a ha hn => ?_, fun k hk32 h3 => ?_, fun a ha => ?_, fun a ha hn => (hrdN a).trans (hr a ha hn), fun m hm => ?_⟩
  · rw [hrd, hk a ha, hlh.same a (by simpa using hn)]
  · rw [hbit]
    have : s.leaveHold.dieRegs.bit FLT_STATUS k = s.leaveHold.bit FLT_STATUS k := congrArg (fun w : Word => w.toNat.testBit k) (hk FLT_STATUS (by decide))
    rw [this, bit_leaveHold s hk32 h3]
  · rw [hbit, hlk a ha, hlh.same.bit (by rintro h; rw [List.mem_singleton.mp h] at ha; revert ha; decide)]
  · unfold State.mort
    rw [hmorts, nth, List.getD_eq_getElem?_getD, List.getElem?_map, List.getElem?_eq_getElem (by rw [hmz]; exact hm)]
    exact ⟨rfl, rfl⟩

/-- The fields that a reset of the frame die leaves, or starts over. -/
theorem dieReset_fields (s : State) (pins : PinCond) :
    (s.dieReset pins).sill = { s.sill with dieOn := false, egressClk := false } ∧ (s.dieReset pins).tw = s.tw.dieReset ∧ (s.dieReset pins).ks = s.ks ∧
    (s.dieReset pins).now = s.now ∧ (s.dieReset pins).pending = s.pending ∧ (s.dieReset pins).flt = { f2At := s.flt.f2At, f4 := s.flt.f4 } := by
  have hlh := leaveHold_only s
  have hfr := dieRegs_frame s.leaveHold
  have hgr : ∀ t : State, t.gradeRegs = { t with regs := t.gradeRegs.regs } := fun t => by unfold State.gradeRegs; split <;> rfl
  have h : s.leaveHold.dieRegs.gradeRegs = { s with regs := s.leaveHold.dieRegs.gradeRegs.regs } := by rw [hgr, hfr, hlh.frame]
  unfold State.dieReset
  rw [h]
  exact ⟨rfl, rfl, rfl, rfl, rfl, rfl⟩

/-! ### Covered updates (R76, R149) -/

/-- An F0 notice changes registers alone. -/
theorem recordAt_f0_frame (s : State) (cause src unit ep ts : Nat) :
    s.recordAt 0 cause src unit ep ts = { s with regs := (s.recordAt 0 cause src unit ep ts).regs } := by
  by_cases h : s.fld FLT_STATUS 0 5 >>> 0 = 0
  · rw [recordAt_free cause src unit ep ts h]
    exact (noted_only s 0 cause src unit ep ts).frame
  · simp only [State.recordAt, fld_inc_cnt, ne_eq, h, not_false_eq_true, if_true]
    split <;> rfl

theorem applyUpd_frame (s : State) (u : Upd) : s.applyUpd u = { s with regs := (s.applyUpd u).regs } := by
  cases u with
  | note cause src unit ep ts => exact recordAt_f0_frame ..
  | _ => rfl

theorem foldl_regs_frame {α : Type} {f : State → α → State} (hf : ∀ s x, f s x = { s with regs := (f s x).regs }) (l : List α) (s : State) :
    l.foldl f s = { s with regs := (l.foldl f s).regs } := by
  induction l generalizing s with
  | nil => rfl
  | cons x l ih =>
    rw [List.foldl_cons]
    exact (ih (f s x)).trans (by rw [hf s x])

/-- The covered updates of epochs change registers, and leave those held. -/
theorem applyDue_frame (s : State) (n : Nat) :
    s.applyDue n = { s with regs := (s.applyDue n).regs, ep := { s.ep with due := s.ep.due.filter (fun d => decide (n < d.1)) } } :=
  foldl_regs_frame applyUpd_frame _ _

theorem applyHeld_frame (s : State) : s.applyHeld = { s with regs := s.applyHeld.regs, held := [] } := by
  have h := foldl_regs_frame applyUpd_frame s.held s
  unfold State.applyHeld
  rw [h]

/-- With no update held by an epoch there is none to apply. -/
theorem applyDue_none {s : State} (h : s.ep.due = []) (n : Nat) : s.applyDue n = s := by
  have hs : { s with ep := { s.ep with due := [] } } = s := by rw [← h]
  have hd : (s.onEp fun e => { e with due := e.due.filter (fun d => decide (n < d.1)) }) = s := by
    refine Eq.trans ?_ hs
    rw [State.onEp, h]
    rfl
  unfold State.applyDue
  rw [hd, h]
  rfl

theorem applyHeld_none {s : State} (h : s.held = []) : s.applyHeld = s := by
  have hs : { s with held := [] } = s := by rw [← h]
  unfold State.applyHeld
  rw [h]
  exact hs

/-! ### Leaving service and entering Raise -/

/-- The registers that show that epochs have ended. -/
def endRegs : List Nat := [EP_CTRL, SG_STATUS, TB_STATUS, SC_STATUS, CP_STATUS, WK_STATUS]

/-- What the end of epochs writes once the events of epochs stamped and not processed show. -/
theorem endEpochs_only (s : State) : ∃ x, RegsOnly endRegs (s.applyDue s.stampEp) x ∧ s.endEpochs = x.leaveHold := by
  refine ⟨_, ?_, rfl⟩
  exact ((((((RegsOnly.refl _ _).setFld (by simp [endRegs]) _ _ _).wrN (by simp [endRegs]) _).setBit (by simp [endRegs]) _ _).setBit (by simp [endRegs]) _ _).setBit
    (by simp [endRegs]) _ _).setFld (by simp [endRegs]) _ _ _

theorem endEpochs_frame (s : State) : s.endEpochs = { s with
    regs := s.endEpochs.regs, ep := { s.ep with due := s.ep.due.filter (fun d => decide (s.stampEp < d.1)) } } := by
  obtain ⟨x, hx, he⟩ := endEpochs_only s
  rw [he, (leaveHold_only x).frame, hx.frame, applyDue_frame]

/-- The state that the end of service leaves, but for the registers. -/
def State.outOfService (s : State) : State :=
  { s with
    held := []
    ep := { lossEp := s.ep.lossEp }
    fr := { s.fr with
      bents := List.replicate 13 .absent, delta := none, checking := false, swapAt := none, switched := false, back := [], cfg := [],
      wroteT := false, wroteG := false, purgeT := .none, purgeG := .none, kept10 := false, gone01 := false }
    flt := { s.flt with holdAt := none, f2Iso := [] }
    mz := s.mz.map (fun x => { ({} : Mortise) with
      desc := x.desc, latch := x.latch, pins := if x.pins == .tenon then .pidle else x.pins, txinh := x.txinh, rxinh := x.rxinh })
    bays := s.bays.map Bay.restart
    gw := {}
    tab := {}
    sch := {}
    cp := {}
    wk := {}
    tw := s.tw.endService
    pw := { s.pw with divided := false } }

theorem endService_frame (s : State) : s.endService = { s.outOfService with regs := s.endEpochs.regs } := by
  unfold State.endService
  rw [endEpochs_frame]
  rfl

/-- The state that entering Raise leaves, but for the registers. -/
def State.inRaise (s : State) (t : Nat) : State :=
  { s.outOfService with
    mode := .raise
    tb := {}
    fr := { s.outOfService.fr with header := [], recs := [], sects := [], hand := none, staged := false, full := false }
    flt := { s.outOfService.flt with f2hold := 1000, f1rate := 0, holdMB := 0, holdAt := none }
    tw := { s.outOfService.tw with
      reached := false, matched := false, raiseAt := t, preason := 0, stale := false, found := false, demote := false, peerRole := 3, high := 0, low := 0, region := 0 } }

/-- The registers that entering Raise writes beside those of the end of epochs. -/
def raiseRegs : List Nat := [FLT_INTEN, FR_STATUS, EP_STATUS, FR_ERR, FR_COUNTER] ++ (List.range 8).map FR_DIG

theorem putFrDig_only (s : State) (d : Octets) : RegsOnly ((List.range 8).map FR_DIG) s (s.putFrDig d) := by
  unfold State.putFrDig
  exact RegsOnly.foldl _ (fun u k hk => (RegsOnly.refl _ u).wrN (List.mem_map_of_mem hk) _) (.refl _ s)

/-- Entering Raise: the fields it sets, and the registers it writes over those the end of epochs leaves. -/
theorem enterRaise_frame (s : State) (t : Nat) :
    s.enterRaise t = { s.inRaise t with regs := (s.enterRaise t).regs } ∧ sameRegs raiseRegs s.endEpochs (s.enterRaise t) := by
  obtain ⟨y, hy⟩ : ∃ y : State, y = { s.endService with flt := { s.endService.flt with f2hold := 1000, f1rate := 0, holdMB := 0, holdAt := none } } := ⟨_, rfl⟩
  obtain ⟨x, hx⟩ : ∃ x : State, x = (((((s.endService.fltDefaults.setFld FR_STATUS 0 8 0).setBit EP_STATUS 5 false).wrN FR_ERR 0).putFrDig (zeros 32)).wrN FR_COUNTER 0) := ⟨_, rfl⟩
  have hyx : RegsOnly raiseRegs y x := by
    have h0 : RegsOnly raiseRegs y s.endService.fltDefaults := by
      rw [hy]
      exact ((RegsOnly.refl raiseRegs s.endService).setFld (a := FLT_INTEN) (by simp [raiseRegs]) 8 5 0).same |> fun h => ⟨rfl, h.left rfl⟩
    rw [hx]
    refine RegsOnly.wrN (.trans ?_ ((putFrDig_only _ _).mono fun a ha => List.mem_append_right _ ha)) (by simp [raiseRegs]) _
    exact ((h0.setFld (by simp [raiseRegs]) _ _ _).setBit (by simp [raiseRegs]) _ _).wrN (by simp [raiseRegs]) _
  have he : s.enterRaise t = { x with
      mode := .raise, tb := {}, fr := { x.fr with header := [], recs := [], sects := [], hand := none, staged := false, full := false }
      tw := { x.tw with reached := false, matched := false, raiseAt := t, preason := 0, stale := false, found := false, demote := false, peerRole := 3, high := 0, low := 0, region := 0 } } := by
    rw [hx]
    rfl
  refine ⟨?_, ?_⟩
  · rw [he, hyx.frame, hy, endService_frame]
    rfl
  · rw [he]
    refine hyx.same.right rfl |>.left ?_
    rw [hy, endService_frame]

/-- An event register bit of the fault manager that no ended Hold clears stays when service ends with no event owed. -/
theorem bit_endEpochs {s : State} (h : s.ep.due = []) {k : Nat} (hk : k < 32) (h3 : k ≠ 3) : s.endEpochs.bit FLT_STATUS k = s.bit FLT_STATUS k := by
  obtain ⟨x, hx, he⟩ := endEpochs_only s
  rw [he, bit_leaveHold x hk h3, hx.same.bit (by decide), applyDue_none h]

/-! ### The key store at a start -/

/-- The registers that the start of the key store writes. -/
def ksStartRegs : List Nat := [KS_LASTUP, KS_LASTCNT, KS_EVENT, KS_CNT 6]

theorem lifecycleStart_only (s : State) : ∃ k : KeyStore, RegsOnly ksStartRegs { s with ks := k } s.lifecycleStart := by
  unfold State.lifecycleStart
  extract_lets m
  split
  · exact ⟨s.ks, .refl _ s⟩
  · split
    · unfold State.flipBank
      extract_lets
      refine ⟨_, .ite (fun _ => ?_) fun _ => .refl _ _⟩
      exact (RegsOnly.refl _ _).evt (by simp [ksStartRegs]) 8
    · exact ⟨_, .refl _ _⟩

/-- The key store starts with what NVKM holds: lifecycle and slots, an empty shelf and no update (R370). -/
theorem ksStart_only (s : State) : ∃ k : KeyStore, RegsOnly ksStartRegs { s with ks := k } s.ksStart ∧
    k.lc = k.cur.lc ∧ k.slots = k.cur.slots ∧ k.shelf = [] ∧ k.upd = none := by
  obtain ⟨k, hk⟩ := lifecycleStart_only s
  have hshow : ∀ (x : State) a b c d, RegsOnly ksStartRegs x (x.showLast a b c d) := fun x a b c d =>
    ((RegsOnly.refl _ x).wrN (by simp [ksStartRegs]) _).wrN (by simp [ksStartRegs]) _
  unfold State.ksStart
  generalize s.lifecycleStart = y at hk
  extract_lets y0 m f0 ks y1 y2 n f1 y3
  have h1 : RegsOnly ksStartRegs { s with ks := y1.ks } y1 := ⟨congrArg (fun z : State => { z with ks := y1.ks }) hk.frame, hk.same⟩
  have h2 : RegsOnly ksStartRegs y1 y2 := by
    unfold y2
    split
    · exact hshow _ _ _ _ _
    · exact hshow _ _ _ _ _
    · exact hshow _ _ _ _ _
  have hks : y2.ks = y1.ks := by rw [h2.frame]
  have h3 : RegsOnly ksStartRegs { s with ks := y3.ks } y3 := ⟨congrArg (fun z : State => { z with ks := y3.ks }) (h1.trans h2).frame, (h1.trans h2).same⟩
  refine ⟨y3.ks, .ite (fun _ => h3) fun _ => (h3.evt (by simp [ksStartRegs]) 7).inc (by simp [ksStartRegs]) n, ?_⟩
  show y2.ks.lc = y2.ks.cur.lc ∧ y2.ks.slots = y2.ks.cur.slots ∧ y2.ks.shelf = [] ∧ y2.ks.upd = none
  rw [hks]
  exact ⟨rfl, rfl, rfl, rfl⟩

/-- A register below the loader and the key store that neither Raise nor the key store's start writes. -/
theorem FLT_STATUS_not_started : FLT_STATUS ∉ raiseRegs ∧ FLT_STATUS ∉ ksStartRegs := by decide

end Sys2Proof.Machine
end

section
/-! PROOFS. Power-up, resets and supplies of the two dies, assembled. -/
set_option Elab.async false
namespace Sys2Proof.Proofs
open Sys2Proof Sys2Proof.Machine

theorem nth_replicate {α : Type} [Inhabited α] {n m : Nat} (x : α) (h : m < n) : nth (List.replicate n x) m = x := by
  rw [nth, List.getD_eq_getElem?_getD, List.getElem?_replicate, if_pos h]
  rfl

/-- Settles O11: a reset through PORESET_N leaves what `State.powerReset` writes out, and a Q2 unit's reset values. -/
theorem sillDieResets : Obligations.SillDieResets := by
  unfold Obligations.SillDieResets
  refine ⟨fun s hv hg => ?_, fun s t id hv hp hm hd => ?_, fun s t hv => ?_, fun s t hv => ?_, fun s hv => ?_⟩
  · have heq : poresetAssert s = s.powerReset := by
      rw [poresetAssert, if_pos hv]
      exact gradeRegs_q2 hg
    refine after_of rfl heq fun b _ => ⟨fun a => rdN_of_regFind_none rfl, rfl, rfl, rfl, rfl, rfl, rfl, fun m hm => ?_, rfl, rfl, rfl, rfl, rfl, rfl, rfl, rfl, rfl⟩
    have : nth (List.replicate 128 ({} : Mortise)) m = {} := nth_replicate _ hm
    exact ⟨congrArg Mortise.pins this, congrArg Mortise.tenon this⟩
  · have heq : poresetRelease t id s = { s with
        now := max s.now t, tw := { s.tw with pairId := id }
        sill := { s.sill with poreset := false, commitAt := 0, latched := s.sill.latched ++ [{ src := 0, idx := 0, at_ := t }] } } := by
      have hs : ((s.mode == .sill || s.mode == .watch) && s.sill.vsill && !false && !s.dieOn) = true := by rw [hm, hv, hd]; rfl
      rw [poresetRelease, if_neg (by show ¬(!s.sill.vsill || !s.sill.poreset) = true; rw [hv, hp]; decide)]
      exact if_pos hs
    exact after_hb rfl heq rfl fun b hb => ⟨rfl, rfl, rfl, hb⟩
  · have heq : osc32Failure t s = { s with now := max s.now t, sill := { s.sill with oscFail := true } } := if_pos hv
    exact after_hb rfl heq rfl fun b hb => ⟨rfl, rfl, rfl, hb⟩
  · have hgr : ∀ x : State, x.gradeRegs = { x with regs := x.gradeRegs.regs } := fun x => by unfold State.gradeRegs; split <;> rfl
    have heq : vsillApplied t s = { (s.tick t).powerReset with
        regs := (s.tick t).powerReset.gradeRegs.regs
        sill := { (s.tick t).powerReset.sill with vsill := true, vsillAt := t, oscFail := false, raised := false, pulseAt := none } } := by
      rw [vsillApplied, if_neg (by show ¬s.sill.vsill = true; rw [hv]; decide), State.onSill, hgr]
    refine after_of rfl heq fun b _ => ⟨rfl, rfl, rfl, fun ht => ?_, rfl, rfl, rfl, rfl, rfl, rfl, rfl, rfl⟩
    show (false || decide (max s.now t < t + 500000000)) = true
    simp only [Bool.false_or, decide_eq_true_eq]
    omega
  · have heq : vsillLoss s = { s.powerReset with mode := .off, tw := {}, ks := s.powerReset.ks.power, sill := { egressClk := false } } := by
      rw [vsillLoss, if_neg (by rw [hv]; decide)]
    refine after_of rfl heq fun b _ => ⟨rfl, rfl, rfl, rfl, rfl, rfl, fun m hm => ?_, rfl, rfl⟩
    exact congrArg Mortise.pins (nth_replicate ({} : Mortise) hm)

/-- The frame die leaves reset into Raise. -/
theorem frameDieStart_raises (s : State) (t : Nat) (hv : s.sill.vsill = true) (hp : s.sill.poreset = false) (he : s.sill.enables = true) (hd : s.dieOn = false)
    (hu : s.sill.under = false) (ht : ∀ p, s.sill.powerT = some p → p ≤ t) : After (.frameDieStart t) s fun u =>
      u.mode = .raise ∧ u.dieOn = true ∧ u.tb = {} ∧ u.ep = { lossEp := s.ep.lossEp } ∧ u.fr.header = [] ∧ u.fr.hand = none ∧ u.fr.bents = List.replicate 13 .absent ∧
      u.tw.raiseAt = t ∧ u.tw.gen = s.tw.gen ∧ u.tw.lease = false ∧ u.tw.matched = false ∧ u.ks.lc = u.ks.cur.lc ∧ u.ks.slots = u.ks.cur.slots ∧ u.ks.shelf = [] ∧
      u.ks.upd = none ∧ u.sill = { s.sill with dieOn := true, fails := 0, egressClk := !s.tw.fenced } ∧ (s.flt.f4 = true → s.ep.due = [] → u.bit FLT_STATUS 5 = true ∧ u.bit FLT_STATUS 4 = false) ∧
      u.pw.ramp = some (13, true, t + 2000) ∧ u.banks = s.banks ∧ u.mem = s.mem ∧ u.now = max s.now t ∧ u.pending = s.pending := by
  obtain ⟨a, ha⟩ : ∃ a : State, a = if s.flt.f4 then ((s.tick t).setBit FLT_STATUS 5 true).endHandler 4 else s.tick t := ⟨_, rfl⟩
  have hao : RegsOnly [FLT_STATUS] (s.tick t) a := by
    rw [ha]
    exact .ite (fun _ => ((RegsOnly.refl _ _).setBit (by simp) _ _).setBit (by simp) _ _) fun _ => .refl _ _
  obtain ⟨x, hx⟩ : ∃ x : State, x = { a with flt := { a.flt with f4 := false }, sill := { a.sill with dieOn := true, fails := 0, egressClk := !a.tw.fenced } } := ⟨_, rfl⟩
  have heq : frameDieStart t s = (x.enterRaise t).ksStart.onPw fun p => { p with ramp := some (13, true, t + 2000) } := by
    have hall : (s.sill.powerT.all fun p => decide (p ≤ t)) = true := by
      cases h : s.sill.powerT with
      | none => rfl
      | some p => simpa using ht p h
    have hd' : s.sill.dieOn = false := hd
    have hc : (s.sill.vsill && !s.sill.poreset && s.sill.enables && !s.sill.dieOn && !s.sill.under && s.sill.powerT.all (fun p => decide (p ≤ t))) = true := by
      simp [hv, hp, he, hd', hu, hall]
    rw [hx, ha]
    exact if_pos hc
  obtain ⟨hrf, hrs⟩ := enterRaise_frame x t
  generalize x.enterRaise t = e at heq hrf hrs
  obtain ⟨k, hk, hlc, hsl, hsh, hup⟩ := ksStart_only e
  have hbit : s.flt.f4 = true → s.ep.due = [] → e.ksStart.bit FLT_STATUS 5 = true ∧ e.ksStart.bit FLT_STATUS 4 = false := fun h4 hdue => by
    have hxd : x.ep.due = [] := by rw [hx, hao.frame]; exact hdue
    have hb : ∀ j < 32, j ≠ 3 → e.ksStart.bit FLT_STATUS j = a.bit FLT_STATUS j := fun j hj h3 => by
      have h1 : e.ksStart.bit FLT_STATUS j = e.bit FLT_STATUS j := hk.same.bit FLT_STATUS_not_started.2 j
      rw [h1, hrs.bit FLT_STATUS_not_started.1, bit_endEpochs hxd hj h3, hx]
      rfl
    have ha5 : a.bit FLT_STATUS 5 = true := by
      rw [ha, if_pos h4, State.endHandler, bit_setBit _ _ _ _ _ (by decide), bit_setBit _ _ _ _ _ (by decide)]
      rfl
    have ha4 : a.bit FLT_STATUS 4 = false := by
      rw [ha, if_pos h4, State.endHandler, bit_setBit _ _ _ _ _ (by decide)]
      rfl
    exact ⟨(hb 5 (by decide) (by decide)).trans ha5, (hb 4 (by decide) (by decide)).trans ha4⟩
  have hfin : e.ksStart = { x.inRaise t with regs := e.ksStart.regs, ks := k } := by
    rw [hk.frame, hrf]
  have hxf : x = { s with now := max s.now t, regs := x.regs, flt := x.flt, sill := { s.sill with dieOn := true, fails := 0, egressClk := !s.tw.fenced } } := by
    rw [hx, hao.frame]
    rfl
  refine after_of rfl heq fun b _ => ?_
  generalize e.ksStart = y at heq hfin hbit
  rw [hfin] at hbit ⊢
  refine ⟨rfl, ?_, rfl, ?_, rfl, rfl, rfl, rfl, ?_, rfl, rfl, hlc, hsl, hsh, hup, ?_, hbit, rfl, ?_, ?_, ?_, ?_⟩
  all_goals
    rw [hxf]
    rfl

/-- Settles O12: what the start of the frame die leaves, the retries of a power-up, and the recovery of the rails. -/
theorem frameDiePowerUp : Obligations.FrameDiePowerUp := by
  unfold Obligations.FrameDiePowerUp
  refine ⟨frameDieStart_raises, fun s t p hp hd he ht => ?_, fun s t => ?_⟩
  · have heq : powerupTimeout t s = { s with
        now := max s.now t
        sill := if s.sill.fails + 1 < 3 then { s.sill with fails := s.sill.fails + 1, powerT := some (t + 100000000) }
          else { s.sill with fails := 0, enables := false, powerT := none, inh := s.mode == .watch } } := by
      have hd' : s.sill.dieOn = false := hd
      have hskip : ¬((s.tick t).sill.dieOn || !(s.tick t).sill.enables || decide (t < p + 20000000)) = true := by
        show ¬(s.sill.dieOn || !s.sill.enables || decide (t < p + 20000000)) = true
        simp [hd', he]
        omega
      simp only [powerupTimeout, show (s.tick t).sill.powerT = some p from hp]
      rw [if_neg hskip, show (s.tick t).sill.fails = s.sill.fails from rfl]
      by_cases h3 : s.sill.fails + 1 < 3
      · rw [if_pos h3, if_pos h3]
        rfl
      · rw [if_neg h3, if_neg h3]
        rfl
    exact after_hb rfl heq rfl fun b hb => ⟨rfl, rfl, hb⟩
  · exact after_hb rfl (x := { s with now := max s.now t, sill := { s.sill with under := false } }) rfl rfl fun b hb => ⟨rfl, rfl, hb⟩

/-- Settles O13: both resets are the reset of the frame die, on the way into Raise. -/
theorem frameDieResetKeepsRecords : Obligations.FrameDieResetKeepsRecords := by
  unfold Obligations.FrameDieResetKeepsRecords
  refine ⟨fun s t rail hd hr hg hok => ?_, fun s t hd h4 hg hok => ?_⟩
  · have hleft := dieReset_left (s := s.tick t) .highZ hg hok
    obtain ⟨hsill, htw, hks, hnow, hpend, -⟩ := dieReset_fields (s.tick t) .highZ
    have hnull : ((s.tick t).dieReset .highZ).ep = {} ∧ ((s.tick t).dieReset .highZ).tb = {} ∧ ((s.tick t).dieReset .highZ).hb = {} := ⟨rfl, rfl, rfl⟩
    have heq : railUndervoltage t rail s =
        { ((s.tick t).dieReset .highZ) with mode := .raise, sill := { ((s.tick t).dieReset .highZ).sill with under := true, powerT := none } } := by
      rw [railUndervoltage, if_pos (by rw [show (s.tick t).dieOn = true from hd]; simp [hr])]
      rfl
    generalize (s.tick t).dieReset .highZ = x at hleft hsill htw hks hnow hpend hnull heq
    refine after_of rfl heq fun b hb => ⟨rfl, ?_, hleft.kept, hleft.flt, hleft.locks, hleft.rest, hleft.mort, hnull.1, hnull.2.1, ?_, ?_, ?_, ?_, hks, hnow, hpend⟩
    · exact congrArg (fun d : SillDie => { d with under := true, powerT := none }) hsill
    · rw [hb.1]
      exact congrArg Bridge.far hnull.2.2
    · show x.tw.pairId = _
      rw [htw]
      rfl
    · show x.tw.gen = _
      rw [htw]
      rfl
    · show x.tw.lease = _
      rw [htw]
      rfl
  · have hleft := dieReset_left (s := s.tick t) .highZ hg hok
    obtain ⟨hsill, htw, hks, hnow, hpend, hflt⟩ := dieReset_fields (s.tick t) .highZ
    have hnull : ((s.tick t).dieReset .highZ).ep = {} ∧ ((s.tick t).dieReset .highZ).tb = {} ∧ ((s.tick t).dieReset .highZ).hb = {} := ⟨rfl, rfl, rfl⟩
    have heq : s.frameDieReset t = { ((s.tick t).dieReset .highZ) with mode := .raise } := by
      rw [State.frameDieReset, if_pos (by rw [show (s.tick t).dieOn = true from hd, show (s.tick t).flt.f4 = true from h4]; rfl)]
    generalize (s.tick t).dieReset .highZ = x at hleft hsill htw hks hnow hpend hnull heq hflt
    refine after_of rfl heq fun b hb => ⟨rfl, hsill, (congrArg FaultMgr.f4 hflt).trans h4, hleft.kept, hleft.flt, hleft.locks, hleft.rest, hleft.mort, hnull.1, hnull.2.1,
      ?_, ?_, ?_, ?_, hks, hnow, hpend⟩
    · rw [hb.1]
      exact congrArg Bridge.far hnull.2.2
    · show x.tw.pairId = _
      rw [htw]
      rfl
    · show x.tw.gen = _
      rw [htw]
      rfl
    · show x.tw.lease = _
      rw [htw]
      rfl

end Sys2Proof.Proofs
end

section
/-! PROOFS. Wake sources and WAKE_OUT (R477 to R485, R543), and processed commands that hold nothing back. -/
set_option Elab.async false
namespace Sys2Proof.Machine
open Sys2Proof

/-- A processed command that leaves no covered update waiting acts at once (R76, R549). -/
theorem processed_unheld {s : State} {needsEpoch : Bool} {f : State → State} (hd : s.dieOn = true) (hn : needsEpoch = true → s.atOnce = false)
    (hh : (f s).held = []) : s.processed needsEpoch f = f s := by
  unfold State.processed
  rw [if_neg (by rw [hd]; decide)]
  split
  · rename_i ha
    rw [if_neg fun h => by rw [hn h] at ha; cases ha]
    exact applyHeld_none hh
  · split
    · exact applyHeld_none hh
    · rfl

/-- A command of an epoch whose processing runs holds its covered updates (R76). -/
theorem processed_running {s : State} {needsEpoch : Bool} {f : State → State} (hd : s.dieOn = true) (ha : s.atOnce = false)
    (hr : (f s).ep.running.isSome = true) : s.processed needsEpoch f = f s := by
  unfold State.processed
  rw [if_neg (by rw [hd]; decide), if_neg (by rw [ha]; decide), if_neg (by rw [Option.isNone_eq_false_iff.mpr hr]; decide)]

theorem latch_asleep {s : State} (t src idx : Nat) (h : s.asleep = true) :
    s.latch t src idx = s.onSill fun d => { d with latched := d.latched ++ [{ src := src, idx := idx, at_ := t }] } := if_pos h

theorem any_soon_false {o : Option Nat} {t n : Nat} (h : ∀ p, o = some p → p + n ≤ t) : (o.any fun p => decide (t < p + n)) = false := by
  cases ho : o with
  | none => rfl
  | some p => exact decide_eq_false (Nat.not_lt.mpr (h p ho))

/-- A pulse starts where the output has a current limit, a frame has been raised and no pulse started within 100 ms. -/
theorem startPulse_free {s : State} {t : Nat} (hi : s.sill.wkIlim ≠ 0) (hr : s.sill.raised = true) (hp : ∀ p, s.sill.pulseAt = some p → p + 100000000 ≤ t) :
    s.startPulse t = s.onSill fun d => { d with pulseAt := some t, pulseOn := true } := by
  unfold State.startPulse
  extract_lets d soon
  have hsoon : soon = false := any_soon_false hp
  rw [if_neg (by rw [hsoon, show d.raised = true from hr]; simpa using hi)]

end Sys2Proof.Machine
end

section
namespace Sys2Proof.Proofs
open Sys2Proof Sys2Proof.Machine

/-- A listener's match in Watch. -/
theorem wakeListenerMatch_latches (s : State) (t k : Nat) (r : Octets) (ha : s.asleep = true) (hw : s.mode = .watch) (hk : k < 16)
    (hl : s.sill.listeners.testBit k = true) (hr : recFmt r = 0) (h17 : (s.lstWord k 0).testBit 17 = false)
    (hm : lstMatch (s.lstWord k 0) (s.lstWord k 1) (s.lstWord k 2) (s.lstWord k 3) (s.lstWord k 4) r = true) :
    After (.wakeListenerMatch t k false r) s fun u =>
      u.sill.latched = s.sill.latched ++ [{ src := 2, idx := k, at_ := t }] ∧ u.sill = { s.sill with latched := u.sill.latched, lstErr := u.sill.lstErr } ∧
      u = { s with now := max s.now t, sill := u.sill, hb := u.hb } ∧ sameBridge s u := by
  obtain ⟨x, hx⟩ : ∃ x : State, x = (s.tick t).onSill fun d => { d with lstErr := updAt d.lstErr k (fun _ => nth s.sill.lstErr k) } := ⟨_, rfl⟩
  have heq : wakeListenerMatch t k false r s = x.onSill fun d => { d with latched := d.latched ++ [{ src := 2, idx := k, at_ := t }] } := by
    have hlatch : x.latch t 2 k = _ := latch_asleep t 2 k (by rw [hx]; exact ha)
    have hlisten : (!(decide (k < 16) && (s.tick t).sill.listeners.testBit k && ((s.tick t).asleep && (s.tick t).mode == .watch || (s.tick t).armedInQuiesce))) = false := by
      show (!(decide (k < 16) && s.sill.listeners.testBit k && (s.asleep && s.mode == .watch || s.armedInQuiesce))) = false
      simp [hk, hl, ha, hw]
    rw [← hlatch, hx]
    simp only [wakeListenerMatch, hlisten]
    simp [hr, show (s.tick t).lstWord = s.lstWord from rfl, h17, show ∀ i, ((s.tick t).onSill fun d =>
      { d with lstErr := updAt d.lstErr k (fun _ => nth s.sill.lstErr k) }).lstWord k i = s.lstWord k i from fun _ => rfl, hm,
      show (s.tick t).sill = s.sill from rfl]
  refine after_hb rfl heq (by rw [hx]; rfl) fun b hb => ?_
  rw [hx] at hb ⊢
  exact ⟨rfl, rfl, rfl, hb⟩

/-- A latched wake whose time has come is acted on. -/
theorem wakeActed_wakes (s : State) (t : Nat) (w : WakeRec) (ha : s.asleep = true) (he : s.sill.enables = false) (hp : s.wakePick = some w)
    (ht : s.wakeTime w ≤ t) : After (.wakeActed t) s fun u =>
      u.sill.wkSrc = w.src + w.idx * 2 ^ 8 + (if w.post then 2 ^ 12 else 0) + (if s.mode = .watch then 2 ^ 13 else 0) ∧
      u.sill.enables = true ∧ u.sill.inh = true ∧ u.sill.powerT = some t ∧ u.sill.fails = 0 ∧ u.sill.latched = [] ∧
      ((w.src = 0 ∨ s.sill.wkoAuto = false) → u.sill.pulseOn = s.sill.pulseOn) ∧
      u = { s with now := max s.now t, sill := u.sill, hb := u.hb } ∧ sameBridge s u := by
  obtain ⟨d, hd⟩ : ∃ d : SillDie, d = { s.sill with
      wkSrc := w.src + w.idx * 2 ^ 8 + b2n w.post * 2 ^ 12 + b2n (s.mode == .watch) * 2 ^ 13
      enables := true, inh := true, powerT := some t, fails := 0, latched := [] } := ⟨_, rfl⟩
  obtain ⟨x, hx⟩ : ∃ x : State, x = { s with now := max s.now t, sill := d } := ⟨_, rfl⟩
  have heq : wakeActed t s = if w.src != 0 && x.sill.wkoAuto then x.startPulse t else x := by
    rw [hx, hd, wakeActed, if_neg (by show ¬(!s.asleep || s.sill.enables) = true; rw [ha, he]; decide)]
    simp only [show (s.tick t).wakePick = s.wakePick from rfl, hp]
    exact if_neg (by show ¬t < s.wakeTime w; omega)
  have hsrc : d.wkSrc = w.src + w.idx * 2 ^ 8 + (if w.post then 2 ^ 12 else 0) + (if s.mode = .watch then 2 ^ 13 else 0) := by
    rw [hd]
    show w.src + w.idx * 2 ^ 8 + b2n w.post * 2 ^ 12 + b2n (s.mode == .watch) * 2 ^ 13 = _
    cases w.post <;> cases s.mode <;> simp [b2n]
  have hpulse : ∃ p q, x.startPulse t = { x with sill := { x.sill with pulseAt := p, pulseOn := q } } := by
    unfold State.startPulse
    extract_lets d' soon
    split
    · exact ⟨x.sill.pulseAt, x.sill.pulseOn, rfl⟩
    · exact ⟨some t, true, rfl⟩
  obtain ⟨p, q, hpq⟩ := hpulse
  by_cases hauto : (w.src != 0 && x.sill.wkoAuto) = true
  · rw [if_pos hauto, hpq, hx] at heq
    refine after_hb rfl heq rfl fun b hb => ⟨hsrc, ?_, ?_, ?_, ?_, ?_, fun h => ?_, rfl, hb⟩
    case refine_6 =>
      rw [hx, hd] at hauto
      obtain h | h := h
      · simp [h] at hauto
      · rw [Bool.and_eq_true] at hauto
        exact absurd hauto.2 (by show ¬s.sill.wkoAuto = true; rw [h]; decide)
    all_goals
      rw [hd]
  · rw [if_neg hauto, hx] at heq
    refine after_hb rfl heq rfl fun b hb => ⟨hsrc, ?_, ?_, ?_, ?_, ?_, fun _ => ?_, rfl, hb⟩
    all_goals
      rw [hd]

/-- The sill timer after its seconds. -/
theorem sillTimerWake_latches (s : State) (t : Nat) (ha : s.asleep = true) (ht0 : s.sill.timer ≠ 0) (ht : s.sill.commitAt + s.sill.timer * 1000000000 ≤ t) :
    After (.sillTimerWake t) s fun u =>
      u.sill = { s.sill with timer := 0, latched := s.sill.latched ++ [{ src := 4, idx := 0, at_ := t }] } ∧
      u = { s with now := max s.now t, sill := u.sill, hb := u.hb } ∧ sameBridge s u := by
  have heq : sillTimerWake t s = { s with
      now := max s.now t, sill := { s.sill with timer := 0, latched := s.sill.latched ++ [{ src := 4, idx := 0, at_ := t }] } } := by
    have hs : (s.tick t).sill = s.sill := rfl
    have hdue : ((s.tick t).sill.timer != 0 && (s.tick t).asleep && decide ((s.tick t).sill.commitAt + (s.tick t).sill.timer * 1000000000 ≤ t)) = true := by
      rw [hs, show (s.tick t).asleep = true from ha]
      simp [ht0, ht]
    rw [sillTimerWake, if_pos hdue, latch_asleep t 4 0 (show (s.tick t).asleep = true from ha)]
    rfl
  exact after_hb rfl heq rfl fun b hb => ⟨rfl, rfl, hb⟩

/-- A request for a pulse that nothing stands against. -/
theorem wakeOutRequest_starts (s : State) (t : Nat) (hd : s.dieOn = true) (hh : s.held = []) (hi : s.sill.wkIlim ≠ 0) (hr : s.sill.raised = true)
    (hp : ∀ p, s.sill.pulseAt = some p → p + 100000000 ≤ t) : After (.wakeOutRequest t) s fun u =>
      u.sill = { s.sill with pulseAt := some t, pulseOn := true } ∧ u = { s with now := max s.now t, sill := u.sill, hb := u.hb } := by
  have hpulse : wakeOutRequest t (s.tick t) = { s with now := max s.now t, sill := { s.sill with pulseAt := some t, pulseOn := true } } := by
    have htick : (s.tick t).tick t = s.tick t := congrArg (fun n => { s with now := n }) (show max (max s.now t) t = max s.now t by omega)
    rw [wakeOutRequest, htick, if_pos (show (s.tick t).dieOn = true from hd)]
    exact startPulse_free (s := s.tick t) hi hr hp
  have heq : (s.tick t).processed false (wakeOutRequest t) = _ :=
    (processed_unheld (s := s.tick t) hd (fun h => Bool.noConfusion h) (by rw [hpulse]; exact hh)).trans hpulse
  exact after_of rfl heq fun b _ => ⟨rfl, rfl⟩

/-- The end of a pulse. -/
theorem wakeOutPulseEnd_ends (s : State) (t p : Nat) (ho : s.sill.pulseOn = true) (hp : s.sill.pulseAt = some p) (ht : p + 1000 * s.sill.wkPulse ≤ t) :
    After (.wakeOutPulseEnd t) s fun u =>
      u.sill = { s.sill with pulseOn := false } ∧ u = { s with now := max s.now t, sill := u.sill, hb := u.hb } ∧ sameBridge s u := by
  have heq : wakeOutPulseEnd t s = (s.tick t).onSill fun d => { d with pulseOn := false } := by
    refine if_pos ?_
    rw [show (s.tick t).sill = s.sill from rfl, ho, hp]
    simp only [Bool.true_and, Option.any_some, decide_eq_true_eq]
    omega
  exact after_hb rfl heq rfl fun b hb => ⟨rfl, rfl, hb⟩

/-- Settles O14: sources latch while the die is off, the wake picked is acted on, and a pulse starts within its limits and ends. -/
theorem wakesAndWakeOut : Obligations.WakesAndWakeOut := by
  unfold Obligations.WakesAndWakeOut
  refine ⟨fun s t pin ha hp he => ?_, wakeListenerMatch_latches, sillTimerWake_latches, wakeActed_wakes, wakeOutRequest_starts, wakeOutPulseEnd_ends, fun s t => ?_⟩
  · have heq : wakeInDetect t pin s = (s.tick t).onSill fun d => { d with latched := d.latched ++ [{ src := 1, idx := pin, at_ := t }] } := by
      rw [wakeInDetect, if_pos (by show (decide (pin < 8) && s.sill.inEn.testBit pin) = true; simp [hp, he])]
      exact latch_asleep t 1 pin ha
    exact after_hb rfl heq rfl fun b hb => ⟨rfl, rfl, hb⟩
  · exact after_hb rfl (x := (s.tick t).onSill fun d => { d with pulseOn := false }) rfl rfl fun b hb => ⟨rfl, rfl, hb⟩

end Sys2Proof.Proofs
end

section
/-! PROOFS. Trips and clock ramps of the king post (R499 to R501). -/
set_option Elab.async false
namespace Sys2Proof.Machine
open Sys2Proof

/-- What the king post remembers after a measurement at `t` (R501). -/
def State.sensedPw (s : State) (t current temp : Nat) : KingPost :=
  if 10 * current < 9 * s.tripCurrent ∧ 10 * temp < 9 * s.tripTemp then s.pw else { s.pw with highAt := t }

theorem trip_congr {s x : State} (h : RegsOnly [PW_SENSE] s x) : x.tripCurrent = s.tripCurrent ∧ x.tripTemp = s.tripTemp := by
  have hg : x.grade = s.grade := by rw [h.frame]
  have hf : ∀ lo w, x.fld PW_TRIP lo w = s.fld PW_TRIP lo w := h.same.fld (by decide)
  simp only [State.tripCurrent, State.tripTemp, hg, hf, and_self]

/-- A measurement shows in PW_SENSE, and one near its threshold is remembered. -/
theorem sense_eq (s : State) (t current temp : Nat) : ∃ x, RegsOnly [PW_SENSE] s x ∧ x.rdN PW_SENSE = min 511 current + 65536 * min 255 (temp + 64) ∧
    s.sense t current temp = { x with pw := s.sensedPw t current temp } := by
  have ho : RegsOnly [PW_SENSE] s (s.wrN PW_SENSE (min 511 current + 65536 * min 255 (temp + 64))) := (RegsOnly.refl _ s).wrN (by simp) _
  refine ⟨_, ho, (rdN_wrN_same ..).trans (Nat.mod_eq_of_lt (by omega)), ?_⟩
  obtain ⟨hc, ht⟩ := trip_congr ho
  simp only [State.sense, State.sensedPw, hc, ht, Bool.and_eq_true, decide_eq_true_eq]
  split <;> rfl

/-- The trip bit, once set, and its event. -/
def State.tripped (s : State) (b : Bool) : State := (s.setBit PW_STATUS 0 b).evt PW_EVENT (if b then 0 else 1)

theorem tripped_only (s : State) (b : Bool) : RegsOnly [PW_STATUS, PW_EVENT] s (s.tripped b) := ((RegsOnly.refl _ s).setBit (by simp) _ _).evt (by simp) _

theorem bit_tripped (s : State) (b : Bool) : (s.tripped b).bit PW_STATUS 0 = b ∧ (s.tripped b).bit PW_EVENT (if b then 0 else 1) = true :=
  ⟨(bit_wrN_ne _ _ _ _ _ (by decide)).trans ((bit_setBit _ _ _ _ _ (by decide)).trans (if_pos rfl)), bit_evt_same _ _ _ (by cases b <;> decide)⟩

end Sys2Proof.Machine
end

section
namespace Sys2Proof.Proofs
open Sys2Proof Sys2Proof.Machine

/-- An emergency trip. -/
theorem powerTrip_trips (s : State) (t current temp : Nat) (hd : s.dieOn = true) (hst : s.bit PW_STATUS 0 = false)
    (hov : s.tripCurrent < current ∨ s.tripTemp < temp) (hm : s.mode = .solo) (hf : s.fld FLT_STATUS 0 5 = 0) (hs : s.fr.swapAt = none)
    (hg : s.ep.guar = false) : After (.powerTrip t current temp) s fun u =>
        u.bit PW_STATUS 0 = true ∧ u.bit PW_EVENT 0 = true ∧ u.pw = { s.pw with divided := true, highAt := t } ∧ faultNoted 3 0x30 0x22 0xFF s u ∧
        u.flt.holdAt = some (u.stampEp + 1) ∧ u.rdN PW_SENSE = min 511 current + 65536 * min 255 (temp + 64) ∧
        sameRegs (PW_SENSE :: PW_STATUS :: PW_EVENT :: faultRegs 3) s u ∧ u.mode = .solo := by
  obtain ⟨x, hx, hxs, heq⟩ := sense_eq (s.tick t) t current temp
  obtain ⟨htc, htt⟩ := trip_congr hx
  have hpw : (s.tick t).sensedPw t current temp = { s.pw with highAt := t } := by
    unfold State.sensedPw
    refine if_neg ?_
    show ¬(10 * current < 9 * s.tripCurrent ∧ 10 * temp < 9 * s.tripTemp)
    omega
  have hxb : x.bit PW_STATUS 0 = false := (hx.same.bit (by decide) _).trans hst
  obtain ⟨y, hy⟩ : ∃ y, y = x.tripped true := ⟨_, rfl⟩
  have hyo : RegsOnly [PW_STATUS, PW_EVENT] x y := hy ▸ tripped_only x true
  have hyb := bit_tripped x true
  rw [← hy] at hyb
  have hxy : RegsOnly [PW_SENSE, PW_STATUS, PW_EVENT] (s.tick t) y := (hx.mono (by simp)).trans (hyo.mono (by simp))
  obtain ⟨z, hz⟩ : ∃ z : State, z = { y with pw := { s.pw with divided := true, highAt := t } } := ⟨_, rfl⟩
  have hq : s.powerTrip t current temp = z.raiseFault 3 0x30 0x22 0xFF := by
    rw [State.powerTrip, if_neg (by show ¬(!s.dieOn) = true; rw [hd]; decide), heq, hpw]
    have hov' : (decide (x.tripCurrent < current) || decide (x.tripTemp < temp)) = true := by
      rw [htc, htt, Bool.or_eq_true, decide_eq_true_eq, decide_eq_true_eq]
      exact hov
    rw [if_neg]
    · rw [hz, hy]
      rfl
    · show ¬(x.bit PW_STATUS 0 || !(decide (x.tripCurrent < current) || decide (x.tripTemp < temp))) = true
      rw [hxb, hov']
      decide
  have hzf : z.fld FLT_STATUS 0 5 = 0 := by
    rw [hz]
    exact (hxy.same.fld (by decide) _ _).trans hf
  have hzn : z.mode = .solo ∧ z.fr.swapAt = none ∧ z.ep.guar = false ∧ z.pw = { s.pw with divided := true, highAt := t } := by
    rw [hz, hxy.frame]
    exact ⟨hm, hs, hg, rfl⟩
  have hzs : sameRegs [PW_SENSE, PW_STATUS, PW_EVENT] s z := by
    rw [hz]
    exact hxy.same
  have hze : z.bit PW_STATUS 0 = true ∧ z.bit PW_EVENT 0 = true ∧ z.rdN PW_SENSE = min 511 current + 65536 * min 255 (temp + 64) := by
    rw [hz]
    exact ⟨hyb.1, hyb.2, (hyo.rdN (by decide)).trans hxs⟩
  obtain ⟨hzm, hzw, hzg, hzp⟩ := hzn
  obtain ⟨e1, e2, e3⟩ := hze
  rw [raiseFault_f3 _ _ _ hzf hzm hzw hzg] at hq
  have hn := noted_now z (cls := 3) (cause := 0x30) (src := 0x22) (unit := 0xFF) (by decide) (by decide) (by decide) (by decide)
  have hno := noted_only z 3 0x30 0x22 0xFF z.stampEp z.now
  have hst' := hno.stampEp (EP_CTRL_not_faultReg (by decide))
  generalize z.noted 3 0x30 0x22 0xFF z.stampEp z.now = w at hq hn hno hst'
  have hwm : w.mode = .solo ∧ w.pw = z.pw := by
    rw [hno.frame]
    exact ⟨hzm, rfl⟩
  refine after_of rfl hq fun b _ => ⟨(hno.same.bit (by decide) _).trans e1, (hno.same.bit (by decide) _).trans e2, hwm.2.trans hzp, ?_, ?_,
    (hno.rdN (by decide)).trans e3, ?_, hwm.1⟩
  · exact faultNoted.left hn (hzs.rdN (by decide)).symm
  · exact congrArg (fun n => some (n + 1)) hst'.symm
  · exact (hzs.mono (by simp)).trans (hno.same.mono fun a ha => List.mem_cons_of_mem _ (List.mem_cons_of_mem _ (List.mem_cons_of_mem _ ha)))

/-- A measurement within both thresholds. -/
theorem powerTrip_shows (s : State) (t current temp : Nat) (hd : s.dieOn = true) (hc : current ≤ s.tripCurrent) (ht : temp ≤ s.tripTemp) :
    After (.powerTrip t current temp) s fun u =>
      u.rdN PW_SENSE = min 511 current + 65536 * min 255 (temp + 64) ∧ sameRegs [PW_SENSE] s u ∧
      u.pw = { s.pw with highAt := if 10 * current < 9 * s.tripCurrent ∧ 10 * temp < 9 * s.tripTemp then s.pw.highAt else t } ∧
      u = { s with now := max s.now t, regs := u.regs, pw := u.pw, hb := u.hb } ∧ sameBridge s u := by
  obtain ⟨x, hx, hxs, heq⟩ := sense_eq (s.tick t) t current temp
  obtain ⟨htc, htt⟩ := trip_congr hx
  have hpw : (s.tick t).sensedPw t current temp =
      { s.pw with highAt := if 10 * current < 9 * s.tripCurrent ∧ 10 * temp < 9 * s.tripTemp then s.pw.highAt else t } := by
    show (if 10 * current < 9 * s.tripCurrent ∧ 10 * temp < 9 * s.tripTemp then s.pw else { s.pw with highAt := t }) = _
    split <;> rfl
  have hq : s.powerTrip t current temp = { x with pw := (s.tick t).sensedPw t current temp } := by
    rw [State.powerTrip, if_neg (by show ¬(!s.dieOn) = true; rw [hd]; decide), heq]
    refine if_pos ?_
    have hin : (decide (x.tripCurrent < current) || decide (x.tripTemp < temp)) = false := by
      rw [htc, htt]
      show (decide (s.tripCurrent < current) || decide (s.tripTemp < temp)) = false
      rw [decide_eq_false (Nat.not_lt.mpr hc), decide_eq_false (Nat.not_lt.mpr ht)]
      rfl
    show (x.bit PW_STATUS 0 || !(decide (x.tripCurrent < current) || decide (x.tripTemp < temp))) = true
    rw [hin]
    exact Bool.or_true _
  rw [hpw] at hq
  generalize ({ s.pw with highAt := if 10 * current < 9 * s.tripCurrent ∧ 10 * temp < 9 * s.tripTemp then s.pw.highAt else t } : KingPost) = p at hq ⊢
  refine after_hb rfl hq hx.hb fun b hb => ⟨hxs, hx.same, rfl, ?_, hb⟩
  exact congrArg (fun z : State => { z with pw := p, hb := b }) hx.frame

/-- The trip clears after 10 ms below 90 % of the thresholds, and not before. -/
theorem tripClear_clears (s : State) (t current temp : Nat) (hd : s.dieOn = true) (hst : s.bit PW_STATUS 0 = true)
    (hc : 10 * current < 9 * s.tripCurrent) (ht : 10 * temp < 9 * s.tripTemp) :
    (s.pw.highAt + 10000000 ≤ t → After (.tripClear ⟨t, current, temp⟩) s fun u =>
        u.bit PW_STATUS 0 = false ∧ u.bit PW_EVENT 1 = true ∧ u.rdN PW_SENSE = min 511 current + 65536 * min 255 (temp + 64) ∧ sameRegs [PW_SENSE, PW_STATUS, PW_EVENT] s u ∧
        u = { s with now := max s.now t, regs := u.regs, hb := u.hb }) ∧
      (t < s.pw.highAt + 10000000 → After (.tripClear ⟨t, current, temp⟩) s fun u =>
        u.bit PW_STATUS 0 = true ∧ sameRegs [PW_SENSE] s u ∧ u = { s with now := max s.now t, regs := u.regs, hb := u.hb }) := by
  obtain ⟨x, hx, hxs, heq⟩ := sense_eq (s.tick t) t current temp
  have hpw : (s.tick t).sensedPw t current temp = x.pw := by
    rw [show x.pw = s.pw by rw [hx.frame]; rfl]
    unfold State.sensedPw
    exact if_pos ⟨hc, ht⟩
  replace heq : (s.tick t).sense t current temp = x := by rw [heq, hpw]
  have hxb : x.bit PW_STATUS 0 = true := (hx.same.bit (by decide) _).trans hst
  have hq : s.tripClear t current temp = if s.pw.highAt + 10000000 ≤ t then x.tripped false else x := by
    rw [State.tripClear, if_neg (by show ¬(!s.dieOn) = true; rw [hd]; decide), heq]
    show (if (x.bit PW_STATUS 0 && decide (x.pw.highAt + 10000000 ≤ t)) = true then _ else _) = _
    rw [hxb, show x.pw = s.pw by rw [hx.frame]; rfl, Bool.true_and]
    simp only [decide_eq_true_eq]
    split <;> rfl
  refine ⟨fun h => ?_, fun h => ?_⟩
  · rw [if_pos h] at hq
    have hyo := tripped_only x false
    have hyb := bit_tripped x false
    have hxy : RegsOnly [PW_SENSE, PW_STATUS, PW_EVENT] (s.tick t) (x.tripped false) := (hx.mono (by simp)).trans (hyo.mono (by simp))
    generalize x.tripped false = y at hq hyo hyb hxy
    exact after_of rfl hq fun b _ => ⟨hyb.1, hyb.2, (hyo.rdN (by decide)).trans hxs, hxy.same, hxy.frame_hb b⟩
  · rw [if_neg (by omega)] at hq
    exact after_of rfl hq fun b _ => ⟨hxb, hx.same, hx.frame_hb b⟩

/-- A ramp of a bent's clocks that may begin. -/
theorem clockRamp_ramps (s : State) (t code i : Nat) (r : Octets) (start : Bool) (hd : s.dieOn = true) (hb : bentIdx code = some i) (hr : s.anyRec i = some r)
    (hn : (s.tick t).ramping = false) (hw : ∀ j < i, (s.tick t).rampWaits j = false) (hm : s.mayRamp i start = true) : After (.clockRamp t code start) s fun u =>
      u.pw = { s.pw with clk := s.pw.clk.set i (if start then 2 else 0), ramp := some (i, start, max s.now t + cdiv (2 * rIstep r) 3) } ∧
      u = { s with now := max s.now t, pw := u.pw, hb := u.hb } ∧ sameBridge s u := by
  have hwait : ((List.range i).any (s.tick t).rampWaits) = false := by
    rw [List.any_eq_false]
    intro j hj
    rw [hw j (List.mem_range.mp hj)]
    decide
  have heq : Machine.clockRamp t code start s =
      (s.tick t).onPw (fun p => { p with clk := p.clk.set i (if start then 2 else 0), ramp := some (i, start, (s.tick t).now + cdiv (2 * rIstep r) 3) }) := by
    simp only [Machine.clockRamp, hb, show (s.tick t).anyRec i = s.anyRec i from rfl, hr, hn, show (s.tick t).mayRamp i start = s.mayRamp i start from rfl, hm, hwait,
      show (s.tick t).dieOn = s.dieOn from rfl, hd]
    rfl
  exact after_hb rfl heq rfl fun b hb => ⟨rfl, rfl, hb⟩

/-- Settles O57: a measurement by its side of the thresholds, the trip's end by its time, and a ramp that may begin. -/
theorem powerTripsAndRamps : Obligations.PowerTripsAndRamps := by
  unfold Obligations.PowerTripsAndRamps
  refine ⟨fun s t current temp hd => ⟨fun hst hov hm hf hs hg => powerTrip_trips s t current temp hd hst hov hm hf hs hg,
    fun hc ht => powerTrip_shows s t current temp hd hc ht, fun hst hc ht => tripClear_clears s t current temp hd hst hc ht⟩,
    fun s t code i r hd hb hr hn hw => ⟨fun hclk hiso hcfg => ?_, fun hclk hdem haw => ?_⟩⟩
  · refine clockRamp_ramps s t code i r true hd hb hr hn hw ?_
    have hne : (s.bent i != .isolated) = true := bne_iff_ne.mpr hiso
    rw [State.mayRamp, hr, hclk, hne, hcfg]
    rfl
  · refine clockRamp_ramps s t code i r false hd hb hr hn hw ?_
    have hne : (s.bent i != .awaiting) = true := bne_iff_ne.mpr haw
    rw [State.mayRamp, hr, hclk, hdem, hne]
    rfl

end Sys2Proof.Proofs
end

section
/-! PROOFS. Writes that only start something, commands of an epoch being processed, and the cipher engine's commands and jobs (R378, R413, R415, R427, R428). -/
set_option Elab.async false
namespace Sys2Proof.Machine
open Sys2Proof

/-! ### Writes that only start something -/

/-- No field under the mask `m` takes a written value. -/
def startsOnly (r : RegRow) (m : Nat) : Bool := r.fields.all fun f => f.acc == .wo || f.acc == .ro || (m >>> f.lo) % 2 ^ f.width == 0

theorem rowMask_startsOnly {r : RegRow} {m : Nat} (h : startsOnly r m = true) (p : Field → Bool) (hp : ∀ f, f.acc = .wo ∨ f.acc = .ro → p f = false) :
    rowMask r p &&& m = 0 := by
  refine Nat.eq_of_testBit_eq fun k => ?_
  rw [Nat.testBit_and, rowMask_testBit, Nat.zero_testBit]
  cases hm : m.testBit k
  · exact Bool.and_false _
  rw [Bool.and_true, List.any_eq_false]
  intro f hf hk
  have hs := List.all_eq_true.mp h f hf
  simp only [Bool.and_eq_true, decide_eq_true_eq] at hk
  obtain ⟨⟨hpf, hlo⟩, hhi⟩ := hk
  simp only [Bool.or_eq_true, beq_iff_eq] at hs
  obtain hs | hs := hs
  · rw [hp f hs] at hpf
    cases hpf
  · have hb := congrArg (·.testBit (k - f.lo)) hs
    simp only [Nat.testBit_mod_two_pow, Nat.testBit_shiftRight, Nat.zero_testBit, show f.lo + (k - f.lo) = k by omega, hm] at hb
    simp only [Bool.and_true, decide_eq_false_iff_not] at hb
    omega

theorem storeFields_startsOnly (s : State) {r : RegRow} {m : Nat} (a v u : Nat) (h : startsOnly r m = true) : s.storeFields r a v m u = s := by
  unfold State.storeFields
  extract_lets bits st set clr
  have h1 : st = 0 := rowMask_startsOnly h _ fun f hf => by obtain hf | hf := hf <;> simp [hf]
  have h2 : set = 0 := rowMask_startsOnly h _ fun f hf => by obtain hf | hf := hf <;> simp [hf]
  have h3 : clr = 0 := rowMask_startsOnly h _ fun f hf => by obtain hf | hf := hf <;> simp [hf]
  rw [h1, h2, h3]
  rfl

/-- A permitted access to a register whose written bits store nothing is what the register's action is. -/
theorem busWrite_starts {s t : State} {ms : Master} {w : World} {a v m : Nat} (pol : Pol) (hre : s.reaches ms (worldOf ms w)) (ha : a % 4 = 0 ∧ a < 0x800000)
    (hrow : ((hitRow a).any fun r => r.ten == .any && (r.pol == pol && (actRow r && startsOnly r m))) = true) (hmay : s.mayWrite pol a ms (worldOf ms w) = true)
    (hst : a ≠ FR_STAGE) (hep : a ≠ EP_CTRL) (hv : v < 2 ^ 32) (hact : s.actWrite ms (worldOf ms w) a (v &&& m) = t) (hrole : t.tbRole = s.tbRole)
    (hhb : t.hb.stalled = s.hb.stalled) : s.busWrite ms w a v m = t := by
  obtain ⟨r, hr, -, hp⟩ := rowAt_of_any hrow s
  simp only [Bool.and_eq_true, beq_iff_eq] at hp
  obtain ⟨hpol, hacts, hstart⟩ := hp
  have hstl : s.hb.stalled = [] := hre.2.2.1
  rw [busWrite_reaches _ _ _ _ _ _ hre ha.2, Nat.mod_eq_of_lt hv, localWrite_acts v m 0 ha.1 hr (by rw [hpol]; exact hmay) hacts hst hep
    (by rw [storeFields_startsOnly _ _ _ _ hstart]; exact hact) hrole]
  exact unstall_empty _ (hhb.trans hstl)

theorem tick_tick (s : State) (t : Nat) : (s.tick t).tick (s.tick t).now = s.tick t := congrArg (fun n => { s with now := n }) (Nat.max_self _)

/-! ### Commands of an epoch being processed -/

/-- What a command of the epoch being processed leaves is what its meaning leaves (R76). -/
theorem after_processing {i : Instr} {s x : State} {f : State → State} {P : State → Prop} (h : exec i s = .next (s.settle (s.processed true f)))
    (hp : s.inProcessing) (e : f s = x) (hr : x.ep.running = s.ep.running) (hx : x.hb = s.hb)
    (k : ∀ b : Bridge, sameBridge s { x with hb := b } → P { x with hb := b }) : After i s P := by
  obtain ⟨hd, ha, hrun⟩ := hp
  exact after_hb h ((processed_running hd ha (by rw [e, hr]; exact hrun)).trans e) hx k

theorem RegsOnly.frame_cp {l : List Nat} {s t : State} (h : RegsOnly l s t) (c : Cipher) (b : Bridge) :
    ({ t with cp := c, hb := b } : State) = { s with regs := t.regs, cp := c, hb := b } := congrArg (fun z : State => { z with cp := c, hb := b }) h.frame

/-! ### Octets -/

theorem length_padTo (n : Nat) (l : Octets) : (padTo n l).length = n := by
  simp only [padTo, List.length_append, List.length_take, List.length_replicate]
  omega

theorem leNat_lt (l : Octets) : leNat l < 2 ^ (8 * l.length) := by
  induction l with
  | nil => decide
  | cons b bs ih =>
    rw [leNat, List.length_cons, Nat.mul_add, Nat.mul_one, Nat.pow_add, show (2 : Nat) ^ 8 = 256 from rfl]
    have := b.isLt
    omega

theorem leAt_lt (l : Octets) (off n : Nat) : leAt l off n < 2 ^ (8 * n) := by
  refine Nat.lt_of_lt_of_le (leNat_lt _) (Nat.pow_le_pow_right (by decide) ?_)
  have : (slice l off n).length ≤ n := by simp only [slice, List.length_take]; omega
  omega

/-- A store in the table space reads back, and nothing else of the table space changes. -/
theorem memW_stores {s : State} (h : Memory.wf s.mem = true) (a : Nat) {n : Nat} {o : Octets} (hn : o.length = n) :
    (s.memW a o).memO a n = o ∧ sameMem a n s (s.memW a o) := by
  subst hn
  exact ⟨memO_memW s h a o, sameMem_memW s h a o⟩

/-! ### The cipher engine (R378, R415, R427, R428) -/

theorem freshnessWrite_stores {s : State} {idx : Nat} {d : List Nat} (hs : s.serving = true) (hi : idx < 65536)
    (hz : bitsN (oct (padTo 8 (wordsOctets d)) 7) 1 7 = 0) : s.freshnessWrite idx d = s.memW (cpFresh + 8 * idx) (padTo 8 (wordsOctets d)) := by
  rw [State.freshnessWrite, if_neg (by rw [hs]; decide), if_neg (by rw [hz]; omega)]

theorem freshnessWrite_refused {s : State} {idx : Nat} {d : List Nat} (hs : s.serving = true) (hi : 65536 ≤ idx) : s.freshnessWrite idx d = s.cpReject := by
  rw [State.freshnessWrite, if_neg (by rw [hs]; decide), if_pos (Or.inl hi)]

theorem profileWrite_stores {s : State} {idx : Nat} {d : List Nat} (hs : s.serving = true) (hi : idx < 1024) (h5 : s.bit FR_STATUS 5 = false)
    (h6 : s.bit FR_STATUS 6 = false) (ho : profOk (fun r => (s.recipe r).cls) (padTo 32 (wordsOctets d)) = true) :
    s.profileWrite idx d = s.memW (profAddr s.pbank idx) (padTo 32 (wordsOctets d)) := by
  rw [State.profileWrite, if_neg (by rw [hs]; decide), if_neg (by rw [h5, h6, ho]; simp [hi])]

theorem profileWrite_refused {s : State} {idx : Nat} {d : List Nat} (hs : s.serving = true) (h : 1024 ≤ idx ∨ s.bit FR_STATUS 5 = true) :
    s.profileWrite idx d = s.cpReject := by
  rw [State.profileWrite, if_neg (by rw [hs]; decide), if_pos (by obtain h | h := h <;> simp [h])]

/-- A host's write of GO starts the job with the key that the derivation gives. -/
theorem hostJob_starts {s : State} (t : Nat) {ms : Master} {w : World} (hre : s.reaches ms (worldOf ms w)) (hh : isHost ms = true) (hb : s.bit CP_HJCTL 2 = false)
    {x : State} {key : Option Octets} {lbl inp : Octets} (hl : lbl = (List.range 4).flatMap (fun k => natLE 4 (s.rdN (CP_HJLBL k))))
    (hi : inp = (List.range 4).flatMap (fun k => natLE 4 (s.rdN (CP_HJIN k)))) {l : List Nat} (hx : RegsOnly l (s.tick t) x) (hl1 : CP_HJCTL ∉ l) (hl2 : EP_TBCFG ∉ l)
    (hd : (s.tick t).derive (s.fld CP_HJKEY 0 5) lbl (if s.bit CP_HJKEY 8 then 256 else 128) ms (worldOf ms w) false = (key, x)) :
    ∃ y, RegsOnly [CP_HJCTL] x y ∧ (y.bit CP_HJCTL 2 = true ∧ y.bit CP_HJCTL 3 = false ∧ y.bit CP_HJCTL 4 = false) ∧
      (s.tick t).busWrite ms w CP_HJCTL 1 1 = { y with cp := { s.cp with job := some (key, s.bit CP_HJCTL 1, inp) } } := by
  obtain ⟨y, hy⟩ : ∃ y, y = ((x.setBit CP_HJCTL 2 true).setBit CP_HJCTL 3 false).setBit CP_HJCTL 4 false := ⟨_, rfl⟩
  have hyo : RegsOnly [CP_HJCTL] x y := by
    rw [hy]
    exact (((RegsOnly.refl _ x).setBit (by simp) _ _).setBit (by simp) _ _).setBit (by simp) _ _
  have hact : (s.tick t).actWrite ms (worldOf ms w) CP_HJCTL (1 &&& 1) = { y with cp := { s.cp with job := some (key, s.bit CP_HJCTL 1, inp) } } := by
    show (s.tick t).hostJob (s.tick t).now ms (worldOf ms w) = _
    have hgo : ((s.tick t).dieOn && !(s.tick t).bit CP_HJCTL 2) = true := by
      show (s.dieOn && !s.bit CP_HJCTL 2) = true
      rw [hre.1, hb]
      rfl
    have hcp : x.cp = s.cp := by rw [hx.frame]; rfl
    have hdec : x.bit CP_HJCTL 1 = s.bit CP_HJCTL 1 := hx.same.bit hl1 1
    have hder : (s.tick t).derive ((s.tick t).fld CP_HJKEY 0 5) ((List.range 4).flatMap (fun k => natLE 4 ((s.tick t).rdN (CP_HJLBL k))))
        (if (s.tick t).bit CP_HJKEY 8 then 256 else 128) ms (worldOf ms w) false = (key, x) := by
      rw [← hd, hl]
      rfl
    simp only [State.hostJob, tick_tick, if_pos hgo, hder, hcp, hdec]
    rw [hy, hi]
    rfl
  refine ⟨y, hyo, ?_, busWrite_starts .hj (reaches_tick t hre) (by decide) (by decide +kernel) (Bool.or_eq_true_iff.mpr (.inl hh)) (by decide) (by decide) (by decide) hact ?_ ?_⟩
  · rw [hy]
    simp [bit_setBit]
  · exact tbRole_congr ((hyo.same _ (by decide)).trans (hx.same _ hl2))
  · show y.hb.stalled = s.hb.stalled
    rw [hyo.hb, hx.hb]
    rfl

theorem derive_held {s : State} {k bits : Nat} {lbl : Octets} {ms : Master} {w : World} (b : Bool) (h : s.mayDerive k lbl ms w = true) {e : ShelfKey}
    (he : s.ks.shelf.find? (fun e => e.slot == k && e.gen == (s.slot k).gen && e.lbl == lbl && e.bits == bits) = some e) :
    s.derive k lbl bits ms w b = (some e.key, s) := by
  simp only [State.derive, h, if_true, he]

/-- A derivation that a master may not ask for is counted and flagged. -/
theorem derive_refused {s : State} {k : Nat} (bits : Nat) {lbl : Octets} {ms : Master} {w : World} (h : s.mayDerive k lbl ms w = false) :
    ∃ x, RegsOnly [KS_CNT 4, KS_EVENT, FLT_VIOL] s x ∧ x.rdN (KS_CNT 4) = (s.rdN (KS_CNT 4) + 1) % 2 ^ 32 ∧ x.bit KS_EVENT 10 = true ∧
      s.derive k lbl bits ms w false = (none, x) := by
  obtain ⟨y, hy⟩ : ∃ y, y = (s.inc (KS_CNT 4)).evt KS_EVENT 10 := ⟨_, rfl⟩
  have hyo : RegsOnly [KS_CNT 4, KS_EVENT, FLT_VIOL] s y := by
    rw [hy]
    exact ((RegsOnly.refl _ s).inc (by simp) _).evt (by simp) _
  have hcnt : y.rdN (KS_CNT 4) = (s.rdN (KS_CNT 4) + 1) % 2 ^ 32 := by
    rw [hy, rdN_evt_ne _ _ _ _ (by decide), rdN_inc_same]
  have hev : y.bit KS_EVENT 10 = true := by
    rw [hy]
    exact bit_evt_same _ _ _ (by decide)
  have hd : s.derive k lbl bits ms w false =
      (none, if ms != .seq && (!mayAsk (y.slot k).attr ms w || !lcMay (y.slot k).attr y.ks.lc || decide (0xDF ≤ oct lbl 0)) then y.violation else y) := by
    rw [State.derive, if_neg (by rw [h]; decide), hy]
    rfl
  rw [hd]
  split
  · have hv := violation_only y
    exact ⟨_, hyo.trans (hv.mono (by simp)), (hv.rdN (by decide)).trans hcnt, (hv.same.bit (by decide) _).trans hev, rfl⟩
  · exact ⟨_, hyo, hcnt, hev, rfl⟩

/-- The result of a job as it stands in CP_HJOUT. -/
def State.putResult (s : State) (out : Octets) : State := (List.range 4).foldl (fun s i => s.wrN (CP_HJOUT i) (leAt out (4 * i) 4)) s

theorem putResult_only (s : State) (out : Octets) : RegsOnly ((List.range 4).map CP_HJOUT) s (s.putResult out) :=
  (RegsOnly.refl _ s).foldl _ fun u _ hi => (RegsOnly.refl _ u).wrN (List.mem_map_of_mem hi) _

theorem rdN_putResult (s : State) (out : Octets) {i : Nat} (hi : i < 4) : (s.putResult out).rdN (CP_HJOUT i) = leAt out (4 * i) 4 := by
  have hlt := leAt_lt out (4 * i) 4
  have hr : List.range 4 = [0, 1, 2, 3] := rfl
  rw [State.putResult, hr]
  simp only [List.foldl_cons, List.foldl_nil, rdN_wrN]
  obtain rfl | rfl | rfl | rfl : i = 0 ∨ i = 1 ∨ i = 2 ∨ i = 3 := by omega
  all_goals
    simpa [CP_HJOUT] using Nat.mod_eq_of_lt hlt

theorem putResult_cp (s : State) (c : Cipher) (out : Octets) : ({ s with cp := c } : State).putResult out = { s.putResult out with cp := c } := by
  have hr : List.range 4 = [0, 1, 2, 3] := rfl
  simp only [State.putResult, hr, List.foldl_cons, List.foldl_nil]
  rfl

/-- The end of a job: GO may be given again, and the result or its absence shows (R427). -/
theorem hostJobDone_ends {s : State} (t : Nat) {key : Option Octets} {dec : Bool} {inp : Octets} (h : s.cp.job = some (key, dec, inp)) :
    ∃ y, s.hostJobDone t = { y with cp := { s.cp with job := none } } ∧ RegsOnly (CP_HJCTL :: CP_EVENT :: (List.range 4).map CP_HJOUT) (s.tick t) y ∧
      (key = none → RegsOnly [CP_HJCTL, CP_EVENT] (s.tick t) y) ∧ y.bit CP_HJCTL 2 = false ∧ y.bit CP_EVENT 6 = true ∧
      y.bit CP_HJCTL 4 = (key.isNone || s.bit CP_HJCTL 4) ∧
      ∀ k, key = some k → y.bit CP_HJCTL 3 = true ∧ ∀ i < 4, y.rdN (CP_HJOUT i) = leAt (if dec then aesDec k inp else aesEnc k inp) (4 * i) 4 := by
  obtain ⟨x, hx⟩ : ∃ x, x = ((s.tick t).setBit CP_HJCTL 2 false).evt CP_EVENT 6 := ⟨_, rfl⟩
  have hxo : RegsOnly [CP_HJCTL, CP_EVENT] (s.tick t) x := by
    rw [hx]
    exact ((RegsOnly.refl _ (s.tick t)).setBit (by simp) _ _).evt (by simp) _
  have hxc : ∀ j < 32, x.bit CP_HJCTL j = if j = 2 then false else s.bit CP_HJCTL j := fun j hj => by
    rw [hx, State.evt, bit_wrN_ne _ _ _ _ _ (by decide)]
    exact bit_setBit _ _ _ _ _ hj
  have hxe : x.bit CP_EVENT 6 = true := by
    rw [hx]
    exact bit_evt_same _ _ _ (by decide)
  cases key with
  | none =>
    have hyo : RegsOnly [CP_HJCTL, CP_EVENT] (s.tick t) (x.setBit CP_HJCTL 4 true) := hxo.setBit (by simp) _ _
    refine ⟨x.setBit CP_HJCTL 4 true, ?_, hyo.mono (by simp), fun _ => hyo, ?_, ?_, ?_, fun _ => nofun⟩
    · rw [hx, State.hostJobDone, h]
      rfl
    · rw [bit_setBit _ _ _ _ _ (by decide), if_neg (by decide), hxc 2 (by decide), if_pos rfl]
    · exact (bit_wrN_ne _ _ _ _ _ (by decide)).trans hxe
    · rw [bit_setBit _ _ _ _ _ (by decide), if_pos rfl]
      rfl
  | some k =>
    obtain ⟨out, ho⟩ : ∃ out, out = if dec then aesDec k inp else aesEnc k inp := ⟨_, rfl⟩
    have hro := putResult_only x out
    have hrn : ∀ i < 4, (x.putResult out).rdN (CP_HJOUT i) = leAt out (4 * i) 4 := fun i => rdN_putResult x out
    have heq : s.hostJobDone t = { (x.putResult out).setBit CP_HJCTL 3 true with cp := { s.cp with job := none } } := by
      have hj : s.hostJobDone t = (({ x with cp := { s.cp with job := none } } : State).putResult out).setBit CP_HJCTL 3 true := by
        rw [hx, ho]
        unfold State.hostJobDone
        rw [h]
        rfl
      rw [hj, putResult_cp]
      rfl
    generalize x.putResult out = z at hro hrn heq
    have hyb : ∀ j < 32, (z.setBit CP_HJCTL 3 true).bit CP_HJCTL j = if j = 3 then true else x.bit CP_HJCTL j := fun j hj => by
      rw [bit_setBit _ _ _ _ _ hj, hro.same.bit (by decide)]
    refine ⟨z.setBit CP_HJCTL 3 true, heq, ((hxo.mono ?_).trans (hro.mono ?_)).setBit (by simp) _ _, nofun, ?_, ?_, ?_, fun k' hk => ?_⟩
    · exact fun a ha => by simp only [List.mem_cons, List.not_mem_nil, or_false] at ha ⊢; tauto
    · exact fun a ha => List.mem_cons_of_mem _ (List.mem_cons_of_mem _ ha)
    · rw [hyb 2 (by decide), if_neg (by decide), hxc 2 (by decide), if_pos rfl]
    · exact (bit_wrN_ne _ _ _ _ _ (by decide)).trans ((hro.same.bit (by decide) _).trans hxe)
    · rw [hyb 4 (by decide), if_neg (by decide), hxc 4 (by decide), if_neg (by decide)]
      rfl
    · cases hk
      rw [hyb 3 (by decide), if_pos rfl, ← ho]
      exact ⟨rfl, fun i hi => (rdN_setBit_ne _ _ _ _ _ (by unfold CP_HJOUT CP_HJCTL; omega)).trans (hrn i hi)⟩

end Sys2Proof.Machine
end

section
namespace Sys2Proof.Proofs
open Sys2Proof Sys2Proof.Machine

/-- A freshness or profile command of the epoch being processed. -/
theorem after_cipherCommand (s : State) (c idx : Nat) (d : List Nat) (hs : s.inService) :
    (idx < 65536 → bitsN (oct (padTo 8 (wordsOctets d)) 7) 1 7 = 0 → After (.freshnessWrite c idx d) s fun u =>
      u.memO (cpFresh + 8 * idx) 8 = padTo 8 (wordsOctets d) ∧ sameMem (cpFresh + 8 * idx) 8 s u ∧ u = { s with mem := u.mem, hb := u.hb } ∧ sameBridge s u) ∧
    (65536 ≤ idx → After (.freshnessWrite c idx d) s fun u =>
      u.held = s.held ++ [.add (CP_CNT 9) 1, .or CP_EVENT (2 ^ 3)] ∧ u = { s with held := u.held, hb := u.hb } ∧ sameBridge s u) ∧
    (idx < 1024 → s.bit FR_STATUS 5 = false → s.bit FR_STATUS 6 = false → profOk (fun r => (s.recipe r).cls) (padTo 32 (wordsOctets d)) = true → After (.profileWrite c idx d) s fun u =>
      u.memO (profAddr s.pbank idx) 32 = padTo 32 (wordsOctets d) ∧ sameMem (profAddr s.pbank idx) 32 s u ∧ u = { s with mem := u.mem, hb := u.hb } ∧ sameBridge s u) ∧
    ((1024 ≤ idx ∨ s.bit FR_STATUS 5 = true) → After (.profileWrite c idx d) s fun u =>
      u.held = s.held ++ [.add (CP_CNT 9) 1, .or CP_EVENT (2 ^ 3)] ∧ u = { s with held := u.held, hb := u.hb } ∧ sameBridge s u) := by
  obtain ⟨hp, hsv, hwf⟩ := hs
  have hrej : s.cpReject = { s with held := s.held ++ [.add (CP_CNT 9) 1, .or CP_EVENT (2 ^ 3)] } :=
    congrArg (fun l => { s with held := l }) (List.append_assoc ..)
  refine ⟨fun hi hz => ?_, fun hi => ?_, fun hi h5 h6 ho => ?_, fun h => ?_⟩
  · exact after_processing rfl hp (freshnessWrite_stores hsv hi hz) rfl rfl fun b hb =>
      ⟨(memW_stores hwf _ (length_padTo ..)).1, (memW_stores hwf _ (length_padTo ..)).2, rfl, hb⟩
  · exact after_processing rfl hp ((freshnessWrite_refused hsv hi).trans hrej) rfl rfl fun b hb => ⟨rfl, rfl, hb⟩
  · exact after_processing rfl hp (profileWrite_stores hsv hi h5 h6 ho) rfl rfl fun b hb =>
      ⟨(memW_stores hwf _ (length_padTo ..)).1, (memW_stores hwf _ (length_padTo ..)).2, rfl, hb⟩
  · exact after_processing rfl hp ((profileWrite_refused hsv h).trans hrej) rfl rfl fun b hb => ⟨rfl, rfl, hb⟩

/-- Settles O54: the commands store or are refused, a job starts with the key its master may have, and ends with its result. -/
theorem cipherCommandsAndJobs : Obligations.CipherCommandsAndJobs := by
  unfold Obligations.CipherCommandsAndJobs
  refine ⟨after_cipherCommand, fun s t ms w lbl inp hre hh hb hl hi => ⟨fun e hm he => ?_, fun hm => ?_⟩, fun s t key dec inp h => ?_⟩
  · obtain ⟨y, hy, ⟨h2, h3, h4⟩, heq⟩ := hostJob_starts t hre hh hb hl hi (RegsOnly.refl [] (s.tick t)) (by simp) (by simp) (derive_held (s := s.tick t) false hm he)
    exact after_hb rfl heq hy.hb fun b hb => ⟨rfl, h2, h3, h4, hy.same,
      hy.frame_cp _ b, hb⟩
  · obtain ⟨x, hx, hcnt, hev, hd⟩ := derive_refused (s := s.tick t) (if s.bit CP_HJKEY 8 then 256 else 128) hm
    obtain ⟨y, hy, ⟨h2, -, -⟩, heq⟩ := hostJob_starts t hre hh hb hl hi hx (by decide) (by decide) hd
    have hxy : RegsOnly [CP_HJCTL, KS_CNT 4, KS_EVENT, FLT_VIOL] (s.tick t) y := (hx.mono (by simp)).trans (hy.mono (by simp))
    exact after_of rfl heq fun b _ => ⟨rfl, h2, (hy.rdN (by decide)).trans hcnt, (hy.same.bit (by decide) _).trans hev, hxy.same,
      hxy.frame_cp _ b⟩
  · obtain ⟨y, heq, hy, hn, h2, h6, h4, hk⟩ := hostJobDone_ends t h
    exact after_of rfl heq fun b _ => ⟨rfl, h2, h6, h4, hk, hy.same, fun e => (hn e).same, hy.frame_cp _ b⟩

end Sys2Proof.Proofs
end

section
/-! PROOFS. Host commands of the lookup tables: direct entries, hash insertion and deletion, flushes (R303 to R311, R319 to R321, R327). -/
set_option Elab.async false
namespace Sys2Proof.Machine
open Sys2Proof

theorem hTag_length (g : Nat) (e : Octets) : (hTag g e).length = e.length := List.length_set ..

theorem hGen_hTag (e : Octets) (h : 0 < e.length) : hGen (hTag 3 e) = 3 := by
  have ho : oct (hTag 3 e) 0 = putN (oct e 0) 0 2 3 % 256 := by
    simp [oct, hTag, withTag, h]
  rw [hGen, ho, Nat.mod_mod_of_dvd _ (by decide)]
  exact bitsN_putN_same (oct e 0) 0 2 3

/-! ### Where the entries of a hash table lie -/

/-- A slot of a table lies below or above its stash. -/
theorem slot_stash_apart {t i j : Nat} (ht : t < 2) (hi : i < hashSlots t) (hj : j < 32) :
    hashAddr t (hashSlots t + j) + 32 ≤ hashAddr t i ∨ hashAddr t i + 32 ≤ hashAddr t (hashSlots t + j) := by
  obtain rfl | rfl : t = 0 ∨ t = 1 := by omega
  all_goals
    rw [hashAddr, hashAddr]
    simp only [hi, if_true, Nat.not_lt.mpr (Nat.le_add_right _ j), if_false, Nat.one_ne_zero, Nat.add_sub_cancel_left]
    have h0 : hashSlots 0 = 262144 := rfl
    have h1 : hashSlots 1 = 4194304 := rfl
    have h2 : tbSm = 2097152 ∧ tbSmStash = 10485760 ∧ tbEx = 16777216 ∧ tbExStash = 10486784 := by decide
    omega

/-- A write of one entry leaves an entry that lies apart. -/
theorem hent_putHent_apart {s : State} (h : Memory.wf s.mem = true) {t i k : Nat} {e : Octets} (he : e.length = 32)
    (ha : hashAddr t k + 32 ≤ hashAddr t i ∨ hashAddr t i + 32 ≤ hashAddr t k) : (s.putHent t i e).hent t k = s.hent t k := by
  refine memO_congr fun x h1 h2 => sameMem_memW s h _ _ x ?_
  rw [he]
  omega

/-- A write of a slot leaves the stash as it is. -/
theorem hent_stash {s : State} (h : Memory.wf s.mem = true) {t i : Nat} {e : Octets} (he : e.length = 32) (ht : t < 2) (hi : i < hashSlots t) {j : Nat} (hj : j < 32) :
    (s.putHent t i e).hent t (hashSlots t + j) = s.hent t (hashSlots t + j) := hent_putHent_apart h he (slot_stash_apart ht hi hj)

theorem freeStash_slot {s : State} (h : Memory.wf s.mem = true) {t i : Nat} {e : Octets} (he : e.length = 32) (ht : t < 2) (hi : i < hashSlots t) :
    (s.putHent t i e).freeStash t = s.freeStash t := by
  refine List.find?_congr fun x hx => ?_
  obtain ⟨j, hj, rfl⟩ := List.mem_map.mp hx
  rw [Nat.add_comm, hent_stash h he ht hi (List.mem_range.mp hj)]

theorem freeSlot_lt {s : State} {t i : Nat} {k : Octets} (h : s.freeSlot t (buckets t k).1 = some i) : i < hashSlots t := by
  obtain ⟨j, hj, rfl⟩ := List.mem_map.mp (List.mem_of_find?_eq_some h)
  have hj := List.mem_range.mp hj
  have hb : (buckets t k).1 < hashNb t := Nat.mod_lt _ (by unfold hashNb; split <;> decide)
  unfold hashSlots
  omega

/-! ### What the operations of a hash table do (R310, R311) -/

/-- An insertion over the key's own entry or into a free slot of its first bucket writes that place. -/
theorem hinsert_writes {s : State} (hw : Memory.wf s.mem = true) {t i : Nat} {e : Octets} (he : e.length = 32) (ht : t < 2)
    (hi : s.hfind t (hKey e) (hGen e) = some i ∨
      (s.hfind t (hKey e) (hGen e) = none ∧ s.freeStash t ≠ none ∧ s.freeSlot t (buckets t (hKey e)).1 = some i)) : s.hinsert t e = some (s.putHent t i e) := by
  obtain hi | ⟨hn, hst, hsl⟩ := hi
  · simp only [State.hinsert, hi]
  · obtain ⟨j, hj⟩ := Option.ne_none_iff_exists'.mp hst
    have hfree := (freeStash_slot hw he ht (freeSlot_lt hsl)).trans hj
    simp only [State.hinsert, hn, hj, hsl, hfree]
    rfl

theorem hinsert_refused {s : State} {t : Nat} {e : Octets} (hn : s.hfind t (hKey e) (hGen e) = none) (hf : s.freeStash t = none) : s.hinsert t e = none := by
  simp only [State.hinsert, hn, hf]

/-- A deletion with nothing in the stash to move, or of an entry of the stash, clears the place. -/
theorem hdelete_clears {s : State} (hw : Memory.wf s.mem = true) {t i : Nat} (ht : t < 2) (h : s.stashEmpty t ∨ hashSlots t ≤ i) :
    s.hdelete t i = s.putHent t i (zeros 32) := by
  unfold State.hdelete
  extract_lets x
  split
  · rfl
  · rename_i hlt
    have hempty : s.stashEmpty t := h.resolve_right hlt
    have hnone : ((List.range 32).map (· + hashSlots t)).find? (fun j => let e := x.hent t j; hValid e &&
        (let (b0, b1) := buckets t (hKey e); b0 == i / 4 || b1 == i / 4)) = none := by
      refine List.find?_eq_none.mpr fun y hy => ?_
      obtain ⟨j, hj, rfl⟩ := List.mem_map.mp hy
      have hj := List.mem_range.mp hj
      have hx : x.hent t (hashSlots t + j) = s.hent t (hashSlots t + j) := hent_stash hw rfl ht (by omega) hj
      simp only [Nat.add_comm j, hx, hempty j hj, Bool.false_and]
      decide
    rw [hnone]

/-! ### The commands (R319 to R321, R327) -/

theorem directEntryWrite_writes {s : State} {idx : Nat} {d : List Nat} (hs : s.serving = true) (hi : idx < 262144) (ho : directOk (d.getD 0 0 % 2 ^ 32) = true)
    (hf : s.tabFree 1 = true) : s.directEntryWrite idx d =
      ((s.memWN (directAddr (s.tab.bank.testBit (idx / 2048)) idx) 4 (d.getD 0 0 % 2 ^ 32)).closeRec 0 (262144 * b2n (s.tab.bank.testBit (idx / 2048)) + idx)).tabDone 1 := by
  rw [State.directEntryWrite, if_neg (by rw [hs]; decide), if_pos (by rw [ho, hf]; simp [hi])]

theorem directEntryWrite_refused {s : State} {idx : Nat} {d : List Nat} (hs : s.serving = true) (hf : s.tabFree 1 = false) :
    s.directEntryWrite idx d = s.tabReject := by
  rw [State.directEntryWrite, if_neg (by rw [hs]; decide), if_neg (by rw [hf]; simp)]

theorem hashInsert_result {s : State} {idx : Nat} {d : List Nat} (hs : s.serving = true) (hi : idx < 2) (ho : hashOk idx (hTag 3 (tabData d)) = true)
    (ht : s.handleTaken idx (hTag 3 (tabData d)) = false) (hf : s.tabFree s.insCost = true) : s.hashInsert idx d =
      match s.hinsert idx (hTag 3 (tabData d)) with
      | some s' => (s'.closeKey idx (hKey (hTag 3 (tabData d)))).tabDone s.insCost
      | none => s.tabReject := by
  rw [State.hashInsert, if_neg (by rw [hs]; decide), if_pos (by rw [ho, ht, hf]; simp [hi])] <;> rfl

theorem hashDelete_clears {s : State} {idx i : Nat} {d : List Nat} (hs : s.serving = true) (hi : idx < 2) (hf : s.tabFree 3 = true)
    (hfi : s.hfind idx (hKey (tabData d)) s.genMask = some i) : s.hashDelete idx d = ((s.hdelete idx i).closeKey idx (hKey (tabData d))).tabDone 3 := by
  rw [State.hashDelete, if_neg (by rw [hs]; decide), if_pos (by rw [hf]; simp [hi]), hfi]

theorem learnedFlush_installs {s : State} {c idx : Nat} {d : List Nat} (hs : s.serving = true) (hi : idx = 0) (hl : s.tab.filters.length < 4) (hf : s.tabFree 1 = true) :
    s.learnedFlush c idx d = ({ s with tab := { s.tab with
        filters := s.tab.filters ++ [{ port := if (d.getD 0 0).testBit 8 then none else some (d.getD 0 0 % 256), epoch := c % 2 ^ 32, left := sweepLen }] } } : State).tabDone 1 := by
  rw [State.learnedFlush, if_neg (by rw [hs]; decide), if_pos (by rw [hf]; simp [hi, hl])]

theorem tabReject_eq (s : State) : s.tabReject = { s with held := s.held ++ [.add (TB_CNT 1) 1, .or TB_EVENT 1] } :=
  congrArg (fun l => { s with held := l }) (List.append_assoc ..)

end Sys2Proof.Machine
end

section
namespace Sys2Proof.Proofs
open Sys2Proof Sys2Proof.Machine

/-- Settles O47: each command acts where it is legal and has its slots, and is refused where it has not. -/
theorem tableCommands : Obligations.TableCommands := by
  unfold Obligations.TableCommands
  rintro s c idx d ⟨hp, hsv, hwf⟩
  refine ⟨fun hi ho => ⟨fun hf => ?_, fun hf => ?_⟩, fun e hi hde ho ht hf => ⟨fun i hfi => ?_, fun hn hst => ?_⟩, fun i hi hf hfi hst => ?_, fun hi hl hf => ?_⟩
  · obtain ⟨bk, hbk⟩ : ∃ bk, bk = s.tab.bank.testBit (idx / 2048) := ⟨_, rfl⟩
    have heq := directEntryWrite_writes hsv hi ho hf
    have hm := memN_memWN s hwf (directAddr bk idx) 4 (d.getD 0 0 % 2 ^ 32)
    have hsm := sameMem_memWN s hwf (directAddr bk idx) 4 (d.getD 0 0 % 2 ^ 32)
    rw [← hbk] at heq ⊢
    exact after_processing rfl hp heq rfl rfl fun b hb => ⟨hm.trans (Nat.mod_mod ..), hsm, rfl, rfl, rfl, rfl, hb⟩
  · exact after_processing rfl hp ((directEntryWrite_refused hsv hf).trans (tabReject_eq s)) rfl rfl fun b hb => ⟨rfl, rfl, hb⟩
  · have hlen : e.length = 32 := by rw [← hde, hTag_length]; exact length_padTo ..
    have hgen : hGen e = 3 := by rw [← hde]; exact hGen_hTag _ (by rw [tabData, length_padTo]; decide)
    have heq := hashInsert_result (d := d) hsv hi (by rw [hde]; exact ho) (by rw [hde]; exact ht) hf
    rw [hde, hinsert_writes hwf hlen hi (by rw [hgen]; exact hfi)] at heq
    obtain ⟨hm, hsm⟩ := memW_stores hwf (hashAddr idx i) hlen
    exact after_processing rfl hp heq rfl rfl fun b hb => ⟨hm, hsm, rfl, rfl, rfl, hb⟩
  · have hgen : hGen e = 3 := by rw [← hde]; exact hGen_hTag _ (by rw [tabData, length_padTo]; decide)
    have heq := hashInsert_result (d := d) hsv hi (by rw [hde]; exact ho) (by rw [hde]; exact ht) hf
    rw [hde, hinsert_refused (by rw [hgen]; exact hn) hst] at heq
    exact after_processing rfl hp (heq.trans (tabReject_eq s)) rfl rfl fun b hb => ⟨rfl, rfl, hb⟩
  · have heq := hashDelete_clears hsv hi hf hfi
    rw [hdelete_clears hwf hi hst] at heq
    have hlen : (zeros 32).length = 32 := rfl
    generalize zeros 32 = z at heq hlen ⊢
    obtain ⟨hm, hsm⟩ := memW_stores hwf (hashAddr idx i) hlen
    exact after_processing rfl hp heq rfl rfl fun b hb => ⟨hm, hsm, rfl, rfl, rfl, hb⟩
  · exact after_processing rfl hp (learnedFlush_installs hsv hi hl hf) rfl rfl fun b hb => ⟨rfl, rfl, rfl, hb⟩

end Sys2Proof.Proofs
end

section
/-! PROOFS. Commands of the longest-match list: pending, built, in force (R312 to R318). -/
set_option Elab.async false
namespace Sys2Proof.Machine
open Sys2Proof

/-- Such a state is the one before with other registers. -/
theorem RegsOnly.regs_eq {l : List Nat} {s t : State} (h : RegsOnly l s t) : ∃ R, t = { s with regs := R } := ⟨t.regs, h.frame⟩

theorem bit_setFld_ne (s : State) (a lo w v j : Nat) (hj : j < 32) (h : j < lo ∨ lo + w ≤ j) : (s.setFld a lo w v).bit a j = s.bit a j := by
  simp only [State.bit, State.setFld, rdN_wrN_same, Nat.testBit_mod_two_pow, hj, decide_true, Bool.true_and, testBit_putN]
  rw [if_neg (by omega)]

/-- TB_STATUS shows the rows of the TCAM and whether a build is open. -/
theorem tcamShow_only (s : State) : RegsOnly [TB_STATUS] s s.tcamShow := ((RegsOnly.refl _ s).setFld (by simp) _ _ _).setBit (by simp) _ _

theorem bit_tcamShow (s : State) {j : Nat} (hj : j < 17) :
    s.tcamShow.bit TB_STATUS j = if j = 1 then s.tab.lpm.any (fun c => !c.built) else s.bit TB_STATUS j := by
  unfold State.tcamShow
  extract_lets x
  rw [bit_setBit _ _ _ _ _ (by omega), bit_setFld_ne _ _ _ _ _ _ (by omega) (Or.inl hj)]
  rfl

/-- The command that joins the pending ones of epoch `n` (R318). -/
def State.pended (s : State) (n h : Nat) (entry : Option Octets) : LpmCmd :=
  s.lpmUnits { at_ := (match s.tab.lpm.getLast? with | some c => max n c.at_ | none => n) + s.lpmLead, handle := h, entry := entry }

theorem pended_fields (s : State) (n h : Nat) (entry : Option Octets) :
    (s.pended n h entry).at_ = max n ((s.tab.lpm.getLast?.map (·.at_)).getD 0) + cdiv 1000000 s.elen ∧ (s.pended n h entry).handle = h ∧
      (s.pended n h entry).entry = entry ∧ (s.pended n h entry).built = false := by
  refine ⟨?_, rfl, rfl, rfl⟩
  unfold State.pended
  show (match s.tab.lpm.getLast? with | some c => max n c.at_ | none => n) + s.lpmLead = _
  cases s.tab.lpm.getLast? with
  | none => exact congrArg (· + s.lpmLead) (Nat.max_zero n).symm
  | some c => rfl

/-- A list command pends: its build is open, and TB_STATUS shows it. -/
theorem lpmPend_pends (s : State) (n h : Nat) (entry : Option Octets) : ∃ y, RegsOnly [TB_STATUS] s y ∧ y.bit TB_STATUS 1 = true ∧
    s.lpmPend n h entry = { y with tab := { s.tab with lpm := s.tab.lpm ++ [s.pended n h entry] } } := by
  obtain ⟨x, hx⟩ : ∃ x, x = if s.lpmMoves (s.pended n h entry) then s.setBit TB_STATUS 0 true else s := ⟨_, rfl⟩
  have hxo : RegsOnly [TB_STATUS] s x := by
    rw [hx]
    exact .ite (fun _ => (RegsOnly.refl _ s).setBit (by simp) _ _) fun _ => .refl _ s
  obtain ⟨T, hT⟩ : ∃ T, T = { s.tab with lpm := s.tab.lpm ++ [s.pended n h entry] } := ⟨_, rfl⟩
  obtain ⟨z, hz⟩ : ∃ z : State, z = { x with tab := T } := ⟨_, rfl⟩
  have heq : s.lpmPend n h entry = z.tcamShow := by
    rw [hz, hT, hx]
    show State.tcamShow (if s.lpmMoves (s.pended n h entry) then _ else _) = _
    split <;> rfl
  have hshow := tcamShow_only z
  have hbit := bit_tcamShow z (j := 1) (by decide)
  rw [if_pos rfl, hz] at hbit
  refine ⟨{ z.tcamShow with tab := s.tab }, ⟨?_, ?_⟩, ?_, ?_⟩
  · rw [hshow.frame, hz, hxo.frame]
  · refine hxo.same.trans fun a ha => (hshow.same a ha).trans ?_
    rw [hz]
    rfl
  · rw [hz]
    refine Eq.trans hbit ?_
    show T.lpm.any (fun c => !c.built) = true
    rw [hT, List.any_append, List.any_cons, (pended_fields s n h entry).2.2.2]
    simp
  · rw [heq, hshow.frame, ← hT, hz]

/-- The rows of the TCAM as a completed build leaves them, and whether they found no room (R316, R318). -/
def State.builtRows (s : State) (c : LpmCmd) : List TcamRow × Bool :=
  match c.entry with
  | none => (s.tab.tcam, false)
  | some e => match s.pairOf e with
    | some k => if s.tcmOn k && c.fits then
        match tcamInsert e c.handle s.tab.tcam with
        | some (l, _) => (l, false)
        | none => (s.tab.tcam, true)
      else (s.tab.tcam, false)
    | none => (s.tab.tcam, false)

theorem builtRows_trie {s : State} {c : LpmCmd} (h : ∀ k, c.entry.bind s.pairOf = some k → s.tcmOn k = false) : s.builtRows c = (s.tab.tcam, false) := by
  unfold State.builtRows
  cases hce : c.entry with
  | none => rfl
  | some e =>
    cases hp : s.pairOf e with
    | none => simp only [hp]
    | some k => simp only [hp, h k (by rw [hce]; exact hp), Bool.false_and, Bool.false_eq_true, if_false]

/-- The first open command, built. -/
def LpmCmd.mark (c : LpmCmd) (ovf : Bool) (x : LpmCmd) : LpmCmd := if x == c then { x with built := true, overflow := ovf } else x

theorem prefixBuildDone_eq {s : State} {t : Nat} {c : LpmCmd} (h : s.tab.lpm.find? (fun c => !c.built) = some c) : s.prefixBuildDone t =
    (({ s.tick t with tab := { s.tab with tcam := ((s.tick t).builtRows c).1, lpm := s.tab.lpm.map (c.mark ((s.tick t).builtRows c).2) } } : State).setBit
      TB_STATUS 0 false).tcamShow := by
  unfold State.prefixBuildDone
  rw [h]
  rfl

/-- The entry of the longest-match list that a command leaves. -/
def LpmCmd.written (c : LpmCmd) : Octets := match c.entry with
  | some e => hTag 3 e
  | none => zeros 32

theorem lpmEffect_writes {s : State} {c : LpmCmd} (hf : c.fits = true) (ho : c.overflow = false) (ht : s.tab.tcam = []) :
    s.lpmEffect c = ((s.memW (tbPfx + 32 * c.handle) c.written).closeRec 3 c.handle).cEvt TB_EVENT 6 := by
  have hs : s = { s with tab := { s.tab with tcam := [] } } := by rw [← ht]
  unfold State.lpmEffect
  rw [if_neg (by rw [hf]; decide)]
  simp only [ht, List.find?_nil, ho, Bool.false_eq_true, if_false]
  rw [← hs]
  split <;> rfl

theorem lpmEffect_full {s : State} {c : LpmCmd} (hf : c.fits = false) : s.lpmEffect c = (s.cEvt TB_EVENT 5).cInc (TB_CNT 9) := by
  unfold State.lpmEffect
  rw [if_pos (by rw [hf]; decide)]

/-- The command of an epoch at the head of the pending ones takes effect or fails. -/
theorem prefixEffect_head {s : State} {n : Nat} {c : LpmCmd} {rest : List LpmCmd} (hl : s.tab.lpm = c :: rest) (hn : c.at_ = n) {x : State}
    (h : (if c.built then ({ s with tab := { s.tab with lpm := rest } } : State).lpmEffect c
      else (({ s with tab := { s.tab with lpm := rest } } : State).setBit TB_STATUS 0 false).raiseFault 3 0x36 0x10 0xFF) = x) :
    s.prefixEffect n = x.tcamShow.cPut TB_STATUS 2 5 x.tab.lpm.length := by
  have hf : s.tab.lpm.find? (fun c => c.at_ == n) = some c := by
    rw [hl, List.find?_cons, hn, beq_self_eq_true]
  have he : s.tab.lpm.erase c = rest := by rw [hl, List.erase_cons_head]
  unfold State.prefixEffect
  rw [hf]
  dsimp only
  rw [he, h]

theorem prefixAdd_pends {s : State} {c idx : Nat} {d : List Nat} (hs : s.serving = true) (hi : idx < 1048576) (hl : s.tab.lpm.length < 16) (hf : s.tabFree 1 = true)
    (ho : prefixOk (tabData d) = true) (hp : (s.pairOf (tabData d)).isSome = true) (he : s.prefixElsewhere idx (tabData d) = false) :
    s.prefixAdd c idx d = ((s.lpmPend c idx (some (hTag 3 (tabData d)))).closeRec 3 idx).tabDone 1 := by
  rw [State.prefixAdd, if_neg (by rw [hs]; decide), if_pos (by rw [ho, hp, he, hf]; simp [hi, hl])]

theorem prefixDelete_pends {s : State} {c idx : Nat} {e : Octets} (hs : s.serving = true) (hi : idx < 1048576) (hl : s.tab.lpm.length < 16) (hf : s.tabFree 1 = true)
    (he : s.handleHeld idx = some e) (hp : (s.pairOf e).isSome = true) : s.prefixDelete c idx = ((s.lpmPend c idx none).closeRec 3 idx).tabDone 1 := by
  rw [State.prefixDelete, if_neg (by rw [hs]; decide), he]
  exact if_pos (by rw [hp, hf]; simp [hi, hl])

end Sys2Proof.Machine
end

section
namespace Sys2Proof.Proofs
open Sys2Proof Sys2Proof.Machine

/-- A command of the longest-match list that is accepted. -/
theorem after_prefixPends {i : Instr} {s : State} {f : State → State} {c idx : Nat} {entry : Option Octets} (h : exec i s = .next (s.settle (s.processed true f)))
    (hp : s.inProcessing) (e : f s = ((s.lpmPend c idx entry).closeRec 3 idx).tabDone 1) : After i s fun u =>
      (∃ x : LpmCmd, u.tab.lpm = s.tab.lpm ++ [x] ∧ x.at_ = max c ((s.tab.lpm.getLast?.map (·.at_)).getD 0) + cdiv 1000000 s.elen ∧ x.handle = idx ∧
        x.entry = entry ∧ x.built = false) ∧
      u.tab = { s.tab with lpm := u.tab.lpm, slots := s.tab.slots - 1, recs := u.tab.recs } ∧ u.bit TB_STATUS 1 = true ∧ sameRegs [TB_STATUS] s u ∧
      u.held = s.held ++ [.add (TB_CNT 0) 1] ∧ u = { s with regs := u.regs, held := u.held, tab := u.tab, hb := u.hb } ∧ sameBridge s u := by
  obtain ⟨y, hy, hbit, heq⟩ := lpmPend_pends s c idx entry
  have hx := pended_fields s c idx entry
  rw [heq] at e
  generalize s.pended c idx entry = x at hx e
  have hsame := hy.same
  obtain ⟨R, rfl⟩ := hy.regs_eq
  exact after_processing h hp e rfl rfl fun b hb => ⟨⟨x, rfl, hx⟩, rfl, hbit, hsame, rfl, rfl, hb⟩

/-- The first open build completes. -/
theorem prefixBuildDone_marks (s : State) (t : Nat) (c : LpmCmd) (rest : List LpmCmd) (hl : s.tab.lpm = c :: rest) (hb : c.built = false) (hc : c ∉ rest)
    (hk : ∀ k, c.entry.bind s.pairOf = some k → s.tcmOn k = false) : After (.prefixBuildDone t) s fun u =>
      u.tab = { s.tab with lpm := { c with built := true, overflow := false } :: rest } ∧ u.bit TB_STATUS 0 = false ∧
      u.bit TB_STATUS 1 = rest.any (fun x => !x.built) ∧ sameRegs [TB_STATUS] s u ∧ u = { s with now := max s.now t, regs := u.regs, tab := u.tab, hb := u.hb } ∧
      sameBridge s u := by
  obtain ⟨T, hT⟩ : ∃ T : Tables, T = { s.tab with lpm := { c with built := true, overflow := false } :: rest } := ⟨_, rfl⟩
  obtain ⟨z, hz⟩ : ∃ z : State, z = ({ s.tick t with tab := T } : State).setBit TB_STATUS 0 false := ⟨_, rfl⟩
  have heq : s.prefixBuildDone t = z.tcamShow := by
    have hf : s.tab.lpm.find? (fun c => !c.built) = some c := by
      rw [hl, List.find?_cons, hb]
      rfl
    have hmap : s.tab.lpm.map (c.mark false) = { c with built := true, overflow := false } :: rest := by
      have hhead : c.mark false c = { c with built := true, overflow := false } := if_pos (beq_self_eq_true c)
      have htail : rest.map (c.mark false) = rest :=
        (List.map_congr_left fun x hx => if_neg fun h : (x == c) = true => hc (eq_of_beq h ▸ hx)).trans (List.map_id rest)
      rw [hl, List.map_cons, hhead, htail]
    rw [prefixBuildDone_eq hf, builtRows_trie (s := s.tick t) hk, hmap, hz, hT]
    rfl
  have hzo : RegsOnly [TB_STATUS] { s.tick t with tab := T } z := by
    rw [hz]
    exact (RegsOnly.refl _ _).setBit (by simp) _ _
  have hzb : z.bit TB_STATUS 0 = false := by
    rw [hz, bit_setBit _ _ _ _ _ (by decide), if_pos rfl]
  have hzt : z.tab = T := by rw [hzo.frame]
  have hb0 := bit_tcamShow z (j := 0) (by decide)
  have hb1 := bit_tcamShow z (j := 1) (by decide)
  have hzs := hzo.trans (tcamShow_only z)
  rw [if_neg (by decide)] at hb0
  rw [if_pos rfl, hzt, hT] at hb1
  have hsame := hzs.same
  rw [← hT]
  obtain ⟨R, hR⟩ := hzs.regs_eq
  rw [hR] at heq hb0 hb1 hsame
  exact after_hb rfl heq rfl fun b hb => ⟨rfl, hb0.trans hzb, hb1, hsame, rfl, hb⟩

/-- A built command that fits changes the list at its effect epoch. -/
theorem prefixEffect_changes (s : State) (n : Nat) (c : LpmCmd) (rest : List LpmCmd) (hl : s.tab.lpm = c :: rest) (hn : c.at_ = n) (hw : Memory.wf s.mem = true)
    (hb : c.built = true) (hfit : c.fits = true) (hov : c.overflow = false) (htc : s.tab.tcam = []) (he : ∀ e, c.entry = some e → e.length = 32) :
    After (.prefixEffect n) s fun u =>
      u.pfx c.handle = (match c.entry with | some e => hTag 3 e | none => zeros 32) ∧ sameMem (tbPfx + 32 * c.handle) 32 s u ∧ u.tab = { (s.closeRec 3 c.handle).tab with lpm := rest } ∧
      u.held = s.held ++ [.or TB_EVENT (2 ^ 6), .put TB_STATUS 2 5 rest.length] ∧
      sameRegs [TB_STATUS] s u ∧ u = { s with regs := u.regs, mem := u.mem, held := u.held, tab := u.tab, hb := u.hb } ∧ sameBridge s u := by
  have hol : c.written.length = 32 := by
    unfold LpmCmd.written
    cases hce : c.entry with
    | none => rfl
    | some e => exact (hTag_length 3 e).trans (he e hce)
  have hwr : c.written = match c.entry with | some e => hTag 3 e | none => zeros 32 := rfl
  rw [← hwr]
  obtain ⟨hm, hsm⟩ := memW_stores hw (tbPfx + 32 * c.handle) hol
  have heq := prefixEffect_head hl hn (if_pos hb)
  rw [lpmEffect_writes hfit hov (by exact htc)] at heq
  generalize c.written = o at *
  have hshow := tcamShow_only (((({ s with tab := { s.tab with lpm := rest } } : State).memW (tbPfx + 32 * c.handle) o).closeRec 3 c.handle).cEvt TB_EVENT 6)
  have hsame := hshow.same
  obtain ⟨R, hR⟩ := hshow.regs_eq
  rw [hR] at heq hsame
  exact after_hb rfl heq rfl fun b hb => ⟨hm, hsm, rfl, List.append_assoc .., hsame, rfl, hb⟩

/-- A built command that the node pool did not hold. -/
theorem prefixEffect_overflows (s : State) (n : Nat) (c : LpmCmd) (rest : List LpmCmd) (hl : s.tab.lpm = c :: rest) (hn : c.at_ = n)
    (hb : c.built = true) (hfit : c.fits = false) : After (.prefixEffect n) s fun u =>
      u.tab = { s.tab with lpm := rest } ∧ u.held = s.held ++ [.or TB_EVENT (2 ^ 5), .add (TB_CNT 9) 1, .put TB_STATUS 2 5 rest.length] ∧ sameRegs [TB_STATUS] s u ∧
      u = { s with regs := u.regs, held := u.held, tab := u.tab, hb := u.hb } ∧ sameBridge s u := by
  have heq := prefixEffect_head hl hn (if_pos hb)
  rw [lpmEffect_full hfit] at heq
  have hshow := tcamShow_only ((({ s with tab := { s.tab with lpm := rest } } : State).cEvt TB_EVENT 5).cInc (TB_CNT 9))
  have hsame := hshow.same
  obtain ⟨R, hR⟩ := hshow.regs_eq
  rw [hR] at heq hsame
  exact after_hb rfl heq rfl fun b hb => ⟨rfl, by simp [State.hold, State.cPut, State.cInc, State.cEvt], hsame, rfl, hb⟩

/-- A build that is still open at its command's effect epoch. -/
theorem prefixEffect_late (s : State) (n : Nat) (c : LpmCmd) (rest : List LpmCmd) (hl : s.tab.lpm = c :: rest) (hn : c.at_ = n)
    (hb : c.built = false) (hm : s.mode = .solo) (hf : s.fld FLT_STATUS 0 5 = 0) (hs : s.fr.swapAt = none) (hg : s.ep.guar = false) :
    After (.prefixEffect n) s fun u =>
      u.mem = s.mem ∧ u.tab = { s.tab with lpm := rest } ∧ faultNoted 3 0x36 0x10 0xFF s u ∧ u.flt.holdAt = some (u.stampEp + 1) ∧ sameRegs (TB_STATUS :: faultRegs 3) s u := by
  have heq := prefixEffect_head hl hn (if_neg (by rw [hb]; decide))
  obtain ⟨z, hz⟩ : ∃ z, z = ({ s with tab := { s.tab with lpm := rest } } : State).setBit TB_STATUS 0 false := ⟨_, rfl⟩
  have hzo : RegsOnly [TB_STATUS] { s with tab := { s.tab with lpm := rest } } z := hz ▸ (RegsOnly.refl _ _).setBit (by simp) _ _
  have hzn : z.mode = .solo ∧ z.fr.swapAt = none ∧ z.ep.guar = false := by
    rw [hzo.frame]
    exact ⟨hm, hs, hg⟩
  obtain ⟨hzm, hzw, hzg⟩ := hzn
  rw [← hz, raiseFault_f3 _ _ _ ((hzo.same.fld (by decide) _ _).trans hf) hzm hzw hzg] at heq
  have hn := noted_at z (cls := 3) (cause := 0x36) (src := 0x10) (unit := 0xFF) z.stampEp z.now (by decide) (by decide) (by decide) (by decide)
  have hno := noted_only z 3 0x36 0x10 0xFF z.stampEp z.now
  have hzs := hzo.stampEp (by decide)
  have hwt : (z.noted 3 0x36 0x10 0xFF z.stampEp z.now).tab = { s.tab with lpm := rest } ∧ (z.noted 3 0x36 0x10 0xFF z.stampEp z.now).mem = s.mem ∧
      (z.noted 3 0x36 0x10 0xFF z.stampEp z.now).now = z.now := by
    rw [hno.frame, hzo.frame]
    exact ⟨rfl, rfl, rfl⟩
  have hne := hno.stampEp (EP_CTRL_not_faultReg (by decide))
  generalize z.noted 3 0x36 0x10 0xFF z.stampEp z.now = v at hn hno hne hwt heq
  obtain ⟨w, hw⟩ : ∃ w : State, w = { v with flt := { z.flt with holdAt := some (z.stampEp + 1) } } := ⟨_, rfl⟩
  have hshow := tcamShow_only w
  have hvw : sameRegs [TB_STATUS] v w.tcamShow := fun a ha => (hshow.same a ha).trans (by rw [hw]; rfl)
  have hwf : w.tcamShow.tab = v.tab ∧ w.tcamShow.mem = v.mem ∧ w.tcamShow.now = v.now ∧ w.tcamShow.flt.holdAt = some (z.stampEp + 1) := by
    rw [hshow.frame, hw]
    exact ⟨rfl, rfl, rfl, rfl⟩
  have hws : w.tcamShow.stampEp = z.stampEp := by
    rw [hshow.stampEp (by decide), hw]
    exact hne
  rw [← hw] at heq
  generalize w.tcamShow = q at heq hvw hwf hws
  obtain ⟨ht, hmem, hnow, hhold⟩ := hwf
  refine after_of rfl heq fun b _ => ⟨hmem.trans hwt.2.1, ht.trans hwt.1, ?_, hhold.trans (congrArg (fun e => some (e + 1)) hws.symm), ?_⟩
  · exact ((hn.mono (u := q) fun a ha => hvw a fun h => by revert ha; rw [List.mem_singleton.mp h]; decide).now hws (hnow.trans hwt.2.2)).left
      (hzo.rdN (by decide)).symm
  · intro a ha
    rw [List.mem_cons, not_or] at ha
    exact ((hvw a (by simpa using ha.1)).trans (hno.same a ha.2)).trans (hzo.same a (by simpa using ha.1))

/-- Settles O48: a legal command pends, its build completes, and at its effect epoch it changes the list, fails or comes too late. -/
theorem prefixCommands : Obligations.PrefixCommands := by
  unfold Obligations.PrefixCommands
  refine ⟨fun s c idx d hs hi hl hf => ?_, prefixBuildDone_marks, fun s n c rest hl hn _ hw => ⟨fun hb hfit hov htc he => prefixEffect_changes s n c rest hl hn hw hb hfit hov htc he,
    fun hb hfit => prefixEffect_overflows s n c rest hl hn hb hfit, fun hb hm hf hs hg => prefixEffect_late s n c rest hl hn hb hm hf hs hg⟩⟩
  obtain ⟨hp, hsv, -⟩ := hs
  exact ⟨fun ho hpo he => after_prefixPends rfl hp (prefixAdd_pends hsv hi hl hf ho hpo he), fun e he hpo => after_prefixPends rfl hp (prefixDelete_pends hsv hi hl hf he hpo)⟩

end Sys2Proof.Proofs
end

section
/-! PROOFS. Meter commands, gate lists and the histograms (R336 to R341, R355 to R358, R363). -/
set_option Elab.async false
namespace Sys2Proof.Machine
open Sys2Proof

/-! ### Parts of what the table space holds -/

theorem sameMem.trans {a n : Nat} {s t u : State} (h : sameMem a n s t) (k : sameMem a n t u) : sameMem a n s u := fun x hx => (k x hx).trans (h x hx)

theorem sameMem.mono {a n a' n' : Nat} {s u : State} (h : sameMem a n s u) (h1 : a' ≤ a) (h2 : a + n ≤ a' + n') : sameMem a' n' s u :=
  fun x hx => h x (by omega)

/-- A read beside what changed. -/
theorem sameMem.memO {a n b k : Nat} {s u : State} (h : sameMem a n s u) (hb : b + k ≤ a ∨ a + n ≤ b) : u.memO b k = s.memO b k :=
  memO_congr fun x h1 h2 => h x (by omega)

theorem sameMem.memN {a n b k : Nat} {s u : State} (h : sameMem a n s u) (hb : b + k ≤ a ∨ a + n ≤ b) : u.memN b k = s.memN b k := congrArg leNat (h.memO hb)

theorem oct_memO (s : State) {a n i : Nat} (h : i < n) : oct (s.memO a n) i = (s.memB (a + i)).toNat := congrArg BitVec.toNat (getD_memO s h)

theorem slice_memO (s : State) {a n off len : Nat} (h : off + len ≤ n) : slice (s.memO a n) off len = s.memO (a + off) len := by
  refine List.ext_getElem (by simp [slice]; omega) fun i h1 h2 => ?_
  simp [slice, State.memO, Nat.add_assoc]

theorem leAt_memO (s : State) {a n off len : Nat} (h : off + len ≤ n) : leAt (s.memO a n) off len = s.memN (a + off) len := congrArg leNat (slice_memO s h)

theorem memN_one (s : State) (a : Nat) : s.memN a 1 = (s.memB a).toNat := Nat.add_zero _

theorem wf_memW {s : State} (h : Memory.wf s.mem = true) (a : Nat) (v : Octets) : Memory.wf (s.memW a v).mem = true := memPutAll_wf v h

theorem wf_memWN {s : State} (h : Memory.wf s.mem = true) (a n v : Nat) : Memory.wf (s.memWN a n v).mem = true := memPutAll_wf _ h

/-- Writing the octet that stands there changes nothing. -/
theorem memB_memWN_self {s : State} (h : Memory.wf s.mem = true) {a v : Nat} (hv : v = (s.memB a).toNat) (x : Nat) : (s.memWN a 1 v).memB x = s.memB x := by
  subst hv
  have hl : natLE 1 (s.memB a).toNat = [s.memB a] := by simp [natLE]
  rw [State.memWN, hl, memB_memW s h]
  split
  · rename_i hx
    rw [show x = a from Nat.le_antisymm (Nat.lt_succ_iff.mp hx.2) hx.1]
    simp
  · rfl

theorem memWN_frame {s t : State} (h : t = { s with mem := t.mem }) (a n v : Nat) : t.memWN a n v = { s with mem := (t.memWN a n v).mem } :=
  congrArg (fun z : State => { z with mem := (t.memWN a n v).mem }) h

/-! ### Meters (R336, R340, R341) -/

/-- The meter's octets as a command gives them: with REDNOW and BLOCKED clear, full tokens and LASTEP. -/
structure MeterFilled (s u : State) (m c : Nat) (e : Octets) : Prop where
  frame : u = { s with mem := u.mem }
  given : u.memO (meterAt m) 24 = e
  ctok : u.memN (meterAt m + 0x18) 8 = leAt e 0x0C 4 * 8000
  etok : u.memN (meterAt m + 0x20) 8 = leAt e 0x10 4 * 8000
  last : u.memN (meterAt m + 0x28) 6 = c % 2 ^ 48
  same : sameMem (meterAt m) 0x2E s u

theorem meterOk_facts {e : Octets} (h : meterOk e = true) :
    oct e 0 % 128 - bitsN (oct e 0) 5 1 * 32 = oct e 0 ∧ leAt e 0x0C 4 ≤ 16777215 ∧ leAt e 0x10 4 ≤ 16777215 := by
  simp only [meterOk, Bool.and_eq_true, Bool.not_eq_true', decide_eq_true_eq] at h
  obtain ⟨⟨⟨⟨⟨h5, h7⟩, -⟩, -⟩, hc⟩, he⟩ := h
  refine ⟨?_, hc, he⟩
  have hlt : oct e 0 < 256 := BitVec.isLt _
  rw [Nat.testBit_eq_decide_div_mod_eq] at h5 h7
  simp only [decide_eq_false_iff_not] at h5 h7
  rw [bitsN, Nat.shiftRight_eq_div_pow]
  omega

theorem meterWrite_fills {s : State} (hw : Memory.wf s.mem = true) {c idx : Nat} {d : List Nat} {e : Octets} (he : padTo 24 (d.flatMap (natLE 4)) = e) (hi : idx < 16384)
    (ho : meterOk e = true) : MeterFilled s (meterWrite c idx d s) idx c e := by
  obtain ⟨hctl, hc, hx⟩ := meterOk_facts ho
  have hlen : e.length = 24 := he ▸ length_padTo ..
  obtain ⟨A, hA⟩ : ∃ A, A = meterAt idx := ⟨_, rfl⟩
  obtain ⟨x, hxe⟩ : ∃ x, x = s.memW A e := ⟨_, rfl⟩
  have heq : meterWrite c idx d s = x.meterFill idx c := by
    rw [hxe, hA, meterWrite, he, if_pos (by simp [ho, hi])]
  have hxw : Memory.wf x.mem = true := hxe ▸ wf_memW hw A e
  obtain ⟨hxm, hxs⟩ := memW_stores hw A hlen
  rw [← hxe] at hxm hxs
  have hmet : ∀ off len, off + len ≤ 24 → leAt (x.meter idx) off len = leAt e off len := fun off len h => by
    rw [State.meter, ← hA, leAt_memO x (by omega), ← leAt_memO x h, hxm]
  have hoct : oct (x.meter idx) 0 = oct e 0 := by
    rw [State.meter, ← hA, oct_memO x (by decide), ← oct_memO x (n := 24) (by decide), hxm]
  have hb0 : oct e 0 = (x.memB A).toNat := by rw [← hxm, oct_memO x (by decide), Nat.add_zero]
  have hfill : x.meterFill idx c = (((x.memWN A 1 (oct e 0)).memWN (A + 0x18) 8 (leAt e 0x0C 4 * 8000)).memWN (A + 0x20) 8 (leAt e 0x10 4 * 8000)).memWN (A + 0x28) 6 c := by
    unfold State.meterFill
    dsimp only
    rw [hoct, hctl, hmet _ _ (by decide), hmet _ _ (by decide), ← hA]
  obtain ⟨y1, h1⟩ : ∃ y, y = x.memWN A 1 (oct e 0) := ⟨_, rfl⟩
  obtain ⟨y2, h2⟩ : ∃ y, y = y1.memWN (A + 0x18) 8 (leAt e 0x0C 4 * 8000) := ⟨_, rfl⟩
  obtain ⟨y3, h3⟩ : ∃ y, y = y2.memWN (A + 0x20) 8 (leAt e 0x10 4 * 8000) := ⟨_, rfl⟩
  obtain ⟨y4, h4⟩ : ∃ y, y = y3.memWN (A + 0x28) 6 c := ⟨_, rfl⟩
  rw [← h1, ← h2, ← h3, ← h4] at hfill
  have w1 : Memory.wf y1.mem = true := h1 ▸ wf_memWN hxw ..
  have w2 : Memory.wf y2.mem = true := h2 ▸ wf_memWN w1 ..
  have w3 : Memory.wf y3.mem = true := h3 ▸ wf_memWN w2 ..
  have s1 : ∀ b, y1.memB b = x.memB b := h1 ▸ memB_memWN_self hxw hb0
  have s2 : sameMem (A + 0x18) 8 y1 y2 := h2 ▸ sameMem_memWN y1 w1 _ _ _
  have s3 : sameMem (A + 0x20) 8 y2 y3 := h3 ▸ sameMem_memWN y2 w2 _ _ _
  have s4 : sameMem (A + 0x28) 6 y3 y4 := h4 ▸ sameMem_memWN y3 w3 _ _ _
  rw [heq, hfill]
  constructor
  · exact h4 ▸ memWN_frame (h3 ▸ memWN_frame (h2 ▸ memWN_frame (h1 ▸ memWN_frame (hxe ▸ rfl) ..) ..) ..) ..
  · rw [← hA, s4.memO (by omega), s3.memO (by omega), s2.memO (by omega), memO_congr fun b _ _ => s1 b, hxm]
  · rw [← hA, s4.memN (by omega), s3.memN (by omega), h2, memN_memWN y1 w1, Nat.mod_eq_of_lt (by omega)]
  · rw [← hA, s4.memN (by omega), h3, memN_memWN y2 w2, Nat.mod_eq_of_lt (by omega)]
  · rw [← hA, h4, memN_memWN y3 w3, show 256 ^ 6 = 2 ^ 48 by decide]
  · rw [← hA]
    refine sameMem.trans (hxs.mono (Nat.le_refl _) (by omega)) (sameMem.trans (fun b _ => s1 b) ?_)
    exact (s2.mono (by omega) (by omega)).trans ((s3.mono (by omega) (by omega)).trans (s4.mono (by omega) (by omega)))

/-- REDNOW and BLOCKED cleared. -/
theorem testBit_unblocked (v k : Nat) : (putBit (putBit v 5 false) 7 false).testBit k = if k = 7 then false else if k = 5 then false else v.testBit k := by
  rw [testBit_putBit, testBit_putBit]

theorem meterUnblock_clears {s : State} (hw : Memory.wf s.mem = true) {idx : Nat} (hi : idx < 16384) :
    (∀ k, (oct ((meterUnblock idx s).meter idx) 0).testBit k = if k = 7 then false else if k = 5 then false else (oct (s.meter idx) 0).testBit k) ∧
      sameMem (meterAt idx) 1 s (meterUnblock idx s) ∧ meterUnblock idx s = { s with mem := (meterUnblock idx s).mem } := by
  obtain ⟨v, hv⟩ : ∃ v, v = putBit (putBit (oct (s.meter idx) 0) 5 false) 7 false := ⟨_, rfl⟩
  have heq : meterUnblock idx s = s.memWN (meterAt idx) 1 v := by
    rw [meterUnblock, if_pos hi, hv]
  have hread : oct ((s.memWN (meterAt idx) 1 v).meter idx) 0 = v % 2 ^ 8 := by
    rw [State.meter, oct_memO _ (by decide), Nat.add_zero, ← memN_one, memN_memWN s hw, show 256 ^ 1 = 2 ^ 8 by decide]
  rw [heq]
  refine ⟨fun k => ?_, sameMem_memWN s hw _ _ _, rfl⟩
  rw [hread, Nat.testBit_mod_two_pow, hv, testBit_unblocked]
  by_cases hk : k < 8
  · simp [hk]
  · have hlt : oct (s.meter idx) 0 < 2 ^ k := Nat.lt_of_lt_of_le (BitVec.isLt _) (Nat.pow_le_pow_right (by decide) (Nat.not_lt.mp hk))
    rw [decide_eq_false hk, Nat.testBit_lt_two_pow hlt]
    simp

theorem scRefuse_eq (s : State) (ev : Nat) : s.scRefuse ev = { s with held := s.held ++ [.add (SC_CNT 10) 1, .or SC_EVENT (2 ^ ev)] } :=
  congrArg (fun l => { s with held := l }) (List.append_assoc ..)

/-! ### Gate lists (R356, R358) -/

theorem planner_onPlan (s : State) (b k : Nat) (f : Planner → Planner) :
    (s.onPlan b f).planner k = if k = b ∧ b < s.sch.plan.length then f (s.planner b) else s.planner k := nth_updAt ..

/-- The first cycle start of a list at an instant or after it. -/
def cycleFrom (bt cyc w : Nat) : Nat := if w ≤ bt then bt else bt + cdiv (w - bt) cyc * cyc

/-- It lies on a whole number of cycles from the base time, not before the instant, and less than a cycle after it where the base time is over. -/
theorem cycleFrom_facts (bt w : Nat) {cyc : Nat} (h : 0 < cyc) :
    bt ≤ cycleFrom bt cyc w ∧ (cycleFrom bt cyc w - bt) % cyc = 0 ∧ w ≤ cycleFrom bt cyc w ∧ (cycleFrom bt cyc w = bt ∨ cycleFrom bt cyc w < w + cyc) := by
  unfold cycleFrom
  split
  · exact ⟨Nat.le_refl _, by simp, by assumption, Or.inl rfl⟩
  · rename_i hw
    have hd := Nat.div_add_mod (w - bt + cyc - 1) cyc
    have hm := Nat.mod_lt (w - bt + cyc - 1) h
    rw [cdiv, if_neg (by omega), Nat.add_sub_cancel_left, Nat.mul_comm _ cyc, Nat.mul_mod_right]
    refine ⟨by omega, rfl, by omega, Or.inr (by omega)⟩

theorem gateOk_cyc {s : State} {b : Nat} (h : s.gateOk b = true) : 0 < (s.adminList b).cyc := by
  simp only [State.gateOk, Bool.and_eq_true, decide_eq_true_eq] at h
  exact Nat.lt_of_lt_of_le (by decide) h.1.1.2

theorem gateActivate_schedules {s : State} {c bay : Nat} (hb : bay < 12) (hp : (s.planner bay).pend = false) (ho : s.gateOk bay = true) :
    gateActivate c bay s = (s.onPlan bay fun x => { x with
      pend := true, ct := cycleFrom (s.adminList bay).bt (s.adminList bay).cyc (s.epochStart (c + 2 + s.ep.lag) + 2 * s.elen) }).cPut (SC_PSTAT (128 + bay)) 10 1 1 := by
  rw [gateActivate, if_pos hb, State.gateArm, if_neg (by rw [hp, ho]; decide)]
  rfl

theorem gateActivate_refused {s : State} {c bay : Nat} (hb : bay < 12) (hp : (s.planner bay).pend = true) : gateActivate c bay s = s.scRefuse 6 := by
  rw [gateActivate, if_pos hb, State.gateArm, if_pos (by rw [hp]; rfl)]

/-- The registers of the admin list with a list's values. -/
def State.putAdmin (s : State) (b : Nat) (g : GateCur) : State :=
  ((s.setFld (SC_GCTL b) 8 10 g.len).wr2 (SC_GBASE_L b) (SC_GBASE_H b) g.bt).setFld (SC_GCYC b) 0 30 g.cyc

theorem putAdmin_only (s : State) (b : Nat) (g : GateCur) : RegsOnly [SC_GCTL b, SC_GCYC b, SC_GBASE_L b, SC_GBASE_H b] s (s.putAdmin b g) :=
  ((((RegsOnly.refl _ s).setFld (by simp) _ _ _).wrN (by simp) _).wrN (by simp) _).setFld (by simp) _ _ _

theorem putAdmin_reads (s : State) (b : Nat) (g : GateCur) : (s.putAdmin b g).fld (SC_GCTL b) 8 10 = g.len % 2 ^ 10 ∧ (s.putAdmin b g).fld (SC_GCYC b) 0 30 = g.cyc % 2 ^ 30 ∧
    (s.putAdmin b g).rdN (SC_GBASE_L b) = g.bt % 2 ^ 32 := by
  have hne : SC_GCTL b ≠ SC_GCYC b ∧ SC_GCTL b ≠ SC_GBASE_L b ∧ SC_GCTL b ≠ SC_GBASE_H b ∧ SC_GBASE_L b ≠ SC_GCYC b ∧ SC_GBASE_L b ≠ SC_GBASE_H b := by
    unfold SC_GCTL SC_GCYC SC_GBASE_L SC_GBASE_H
    omega
  obtain ⟨h1, h2, h3, h4, h5⟩ := hne
  unfold State.putAdmin
  refine ⟨?_, fld_setFld_same _ _ _ _ _ (by decide), ?_⟩
  · rw [State.setFld, fld_wrN_ne _ _ _ _ _ _ h1, State.wr2, fld_wrN_ne _ _ _ _ _ _ h3, fld_wrN_ne _ _ _ _ _ _ h2]
    exact fld_setFld_same _ _ _ _ _ (by decide)
  · rw [rdN_setFld_ne _ _ _ _ _ _ h4, State.wr2, rdN_wrN_ne _ _ _ _ h5, rdN_wrN_same, Nat.mod_mod]

theorem gateListChange_switches {s : State} {t bay : Nat} (hb : bay < 12) (hp : (s.planner bay).pend = true) (ht : (s.planner bay).ct ≤ t) :
    gateListChange t bay s = ((((((((s.tick t).onPlan bay fun x => { x with cur := some (s.adminList bay), pend := false }).putAdmin bay ((s.planner bay).cur.getD {})).cPut
      (SC_PSTAT (128 + bay)) 8 1 (b2n (s.adminList bay).b)).cPut (SC_PSTAT (128 + bay)) 9 1 1).cPut (SC_PSTAT (128 + bay)) 10 1 0).cEvt SC_EVENT 5).cInc (SC_CNT 7)) := by
  have hdue : (decide (bay < 12) && ((s.tick t).planner bay).pend && decide (((s.tick t).planner bay).ct ≤ t)) = true := by
    show (decide (bay < 12) && (s.planner bay).pend && decide ((s.planner bay).ct ≤ t)) = true
    simp [hb, hp, ht]
  exact if_pos hdue

/-! ### The histograms (R363) -/

/-- Does a row of the reset values lie outside the offsets from `lo` to `hi`? -/
def apartFrom (lo hi : Nat) (r : Nat × List (Nat × Nat) × Nat) : Bool :=
  match r.2.1 with
  | [] => decide (r.1 < lo) || decide (hi ≤ r.1)
  | (n, st) :: _ => decide (0 < st) && (decide (r.1 + n * st ≤ lo) || decide (hi ≤ r.1))

theorem resetOf_apart {lo hi a : Nat} (h : resetTab.all (apartFrom lo hi) = true) (h1 : lo ≤ a) (h2 : a < hi) : resetOf a = 0 := by
  have hnone : resetTab.find? (fun r => r.1 ≤ a && repHit r.2.1 (a - r.1)) = none := by
    refine List.find?_eq_none.mpr fun r hr hit => ?_
    obtain ⟨base, reps, v⟩ := r
    have hap := List.all_eq_true.mp h _ hr
    simp only [Bool.and_eq_true, decide_eq_true_eq] at hit
    cases reps with
    | nil =>
      simp only [apartFrom, Bool.or_eq_true, decide_eq_true_eq] at hap
      simp only [repHit, beq_iff_eq] at hit
      omega
    | cons x rest =>
      obtain ⟨n, st⟩ := x
      simp only [apartFrom, Bool.and_eq_true, Bool.or_eq_true, decide_eq_true_eq] at hap
      simp only [repHit, Bool.and_eq_true, decide_eq_true_eq] at hit
      have := (Nat.div_lt_iff_lt_mul hap.1).mp hit.2.1
      omega
  rw [resetOf, hnone]

/-- Registers cleared over a range read as zero where their reset value is zero, and no other register changes. -/
theorem clearRegs_reads {s : State} (hr : regWf s.regs) (lo hi a : Nat) :
    (s.clearRegs lo hi).rd a = if a < lo ∨ hi ≤ a then s.rd a else BitVec.ofNat 32 (resetOf a) := by
  have hf := regFind_filter hr (fun x => decide (x < lo) || decide (hi ≤ x)) a
  have hc : regFind (s.clearRegs lo hi).regs a = if a < lo ∨ hi ≤ a then regFind s.regs a else none := by
    refine Eq.trans hf ?_
    simp only [Bool.or_eq_true, decide_eq_true_eq]
  rw [State.rd, hc]
  split <;> rfl

end Sys2Proof.Machine
end

section
namespace Sys2Proof.Proofs
open Sys2Proof Sys2Proof.Machine

/-- A meter command of the epoch being processed. -/
theorem after_meterCommand (s : State) (c idx : Nat) (d : List Nat) (hs : s.inService) :
    (∀ e : Octets, padTo 24 (d.flatMap (natLE 4)) = e → idx < 16384 → meterOk e = true → After (.meterWrite c idx d) s fun u =>
      u.memO (meterAt idx) 24 = e ∧ u.memN (meterAt idx + 0x18) 8 = leAt e 0x0C 4 * 8000 ∧ u.memN (meterAt idx + 0x20) 8 = leAt e 0x10 4 * 8000 ∧
      u.memN (meterAt idx + 0x28) 6 = c % 2 ^ 48 ∧ sameMem (meterAt idx) 0x2E s u ∧ u = { s with mem := u.mem, hb := u.hb } ∧ sameBridge s u) ∧
    (idx < 16384 → After (.meterUnblock c idx) s fun u =>
      (oct (u.meter idx) 0).testBit 5 = false ∧ (oct (u.meter idx) 0).testBit 7 = false ∧ (∀ k, k ≠ 5 → k ≠ 7 → (oct (u.meter idx) 0).testBit k = (oct (s.meter idx) 0).testBit k) ∧
      sameMem (meterAt idx) 1 s u ∧ u = { s with mem := u.mem, hb := u.hb } ∧ sameBridge s u) ∧
    (idx < 16384 → After (.meterClearCounters c idx) s fun u =>
      u.memO (meterAt idx + 0x30) 16 = zeros 16 ∧ sameMem (meterAt idx + 0x30) 16 s u ∧ u = { s with mem := u.mem, hb := u.hb } ∧ sameBridge s u) ∧
    (16384 ≤ idx → After (.meterUnblock c idx) s fun u =>
      u.held = s.held ++ [.add (SC_CNT 10) 1, .or SC_EVENT 1] ∧ u = { s with held := u.held, hb := u.hb } ∧ sameBridge s u) := by
  obtain ⟨hp, -, hwf⟩ := hs
  refine ⟨fun e he hi ho => ?_, fun hi => ?_, fun hi => ?_, fun hi => ?_⟩
  · have hm := meterWrite_fills hwf (c := c) he hi ho
    obtain ⟨M, hM⟩ : ∃ M, meterWrite c idx d s = { s with mem := M } := ⟨_, hm.frame⟩
    rw [hM] at hm
    exact after_processing rfl hp hM rfl rfl fun b hb => ⟨hm.given, hm.ctok, hm.etok, hm.last, hm.same, rfl, hb⟩
  · obtain ⟨hbits, hsame, hf⟩ := meterUnblock_clears hwf hi
    obtain ⟨M, hM⟩ : ∃ M, meterUnblock idx s = { s with mem := M } := ⟨_, hf⟩
    rw [hM] at hbits hsame
    exact after_processing rfl hp hM rfl rfl fun b hb =>
      ⟨(hbits 5).trans rfl, (hbits 7).trans rfl, fun k h5 h7 => (hbits k).trans (by rw [if_neg h7, if_neg h5]), hsame, rfl, hb⟩
  · have heq : meterClearCounters idx s = s.memW (meterAt idx + 0x30) (zeros 16) := if_pos hi
    have hlen : (zeros 16).length = 16 := rfl
    generalize zeros 16 = z at heq hlen ⊢
    exact after_processing rfl hp heq rfl rfl fun b hb => ⟨(memW_stores hwf _ hlen).1, (memW_stores hwf _ hlen).2, rfl, hb⟩
  · have heq : meterUnblock idx s = s.scRefuse 0 := if_neg (by omega)
    exact after_processing rfl hp (heq.trans (scRefuse_eq s 0)) rfl rfl fun b hb => ⟨rfl, rfl, hb⟩

/-- An activation of a bay's admin list. -/
theorem after_gateActivate (s : State) (c bay : Nat) (hs : s.inService) (hb : bay < 12) (hl : s.sch.plan.length = 12) :
    ((s.planner bay).pend = false → s.gateOk bay = true → After (.gateActivate c bay) s fun u =>
        u.planner bay = { s.planner bay with pend := true, ct := (u.planner bay).ct } ∧ (∀ k, k ≠ bay → u.planner k = s.planner k) ∧
        (s.adminList bay).bt ≤ (u.planner bay).ct ∧ ((u.planner bay).ct - (s.adminList bay).bt) % (s.adminList bay).cyc = 0 ∧
        s.epochStart (c + 2 + s.ep.lag) + 2 * s.elen ≤ (u.planner bay).ct ∧
        ((u.planner bay).ct = (s.adminList bay).bt ∨ (u.planner bay).ct < s.epochStart (c + 2 + s.ep.lag) + 2 * s.elen + (s.adminList bay).cyc) ∧
        u.held = s.held ++ [.put (SC_PSTAT (128 + bay)) 10 1 1] ∧
        u = { s with held := u.held, sch := { s.sch with plan := u.sch.plan }, hb := u.hb } ∧ sameBridge s u) ∧
    ((s.planner bay).pend = true → After (.gateActivate c bay) s fun u =>
        u.held = s.held ++ [.add (SC_CNT 10) 1, .or SC_EVENT (2 ^ 6)] ∧ u = { s with held := u.held, hb := u.hb } ∧ sameBridge s u) := by
  obtain ⟨hp, -, -⟩ := hs
  refine ⟨fun hpend ho => ?_, fun hpend => ?_⟩
  · have heq := gateActivate_schedules (c := c) hb hpend ho
    have hct := cycleFrom_facts (s.adminList bay).bt (s.epochStart (c + 2 + s.ep.lag) + 2 * s.elen) (gateOk_cyc ho)
    generalize cycleFrom (s.adminList bay).bt (s.adminList bay).cyc (s.epochStart (c + 2 + s.ep.lag) + 2 * s.elen) = ct at heq hct
    have hpl : ∀ k, (s.onPlan bay fun x => { x with pend := true, ct := ct }).planner k = if k = bay then { s.planner bay with pend := true, ct := ct } else s.planner k :=
      fun k => (planner_onPlan ..).trans (by simp [hl, hb])
    have hself := (hpl bay).trans (if_pos rfl)
    obtain ⟨h1, h2, h3, h4⟩ := hct
    refine after_processing rfl hp heq rfl rfl fun b hb => ⟨?_, fun k hk => (hpl k).trans (if_neg hk), ?_, ?_, ?_, ?_, rfl, rfl, hb⟩
    · exact hself.trans (congrArg (fun n => { s.planner bay with pend := true, ct := n }) (congrArg Planner.ct hself).symm)
    · exact h1.trans_eq (congrArg Planner.ct hself).symm
    · exact (congrArg (fun p => (Planner.ct p - (s.adminList bay).bt) % (s.adminList bay).cyc) hself).trans h2
    · exact h3.trans_eq (congrArg Planner.ct hself).symm
    · exact Eq.mpr (congrArg (fun p => Planner.ct p = (s.adminList bay).bt ∨
        Planner.ct p < s.epochStart (c + 2 + s.ep.lag) + 2 * s.elen + (s.adminList bay).cyc) hself) h4
  · exact after_processing rfl hp ((gateActivate_refused hb hpend).trans (scRefuse_eq s 6)) rfl rfl fun b hb => ⟨rfl, rfl, hb⟩

/-- The change of list at its time. -/
theorem after_gateListChange (s : State) (t bay : Nat) (old : GateCur) (hb : bay < 12) (hl : s.sch.plan.length = 12) (hp : (s.planner bay).pend = true)
    (ht : (s.planner bay).ct ≤ t) (ho : (s.planner bay).cur.getD {} = old) : After (.gateListChange t bay) s fun u =>
      u.planner bay = { s.planner bay with cur := some (s.adminList bay), pend := false } ∧ (∀ k, k ≠ bay → u.planner k = s.planner k) ∧
      u.fld (SC_GCTL bay) 8 10 = old.len % 2 ^ 10 ∧ u.fld (SC_GCYC bay) 0 30 = old.cyc % 2 ^ 30 ∧ u.rdN (SC_GBASE_L bay) = old.bt % 2 ^ 32 ∧
      u.held = s.held ++ [.put (SC_PSTAT (128 + bay)) 8 1 (b2n (s.adminList bay).b), .put (SC_PSTAT (128 + bay)) 9 1 1, .put (SC_PSTAT (128 + bay)) 10 1 0,
        .or SC_EVENT (2 ^ 5), .add (SC_CNT 7) 1] ∧
      sameRegs [SC_GCTL bay, SC_GCYC bay, SC_GBASE_L bay, SC_GBASE_H bay] s u ∧
      u = { s with now := max s.now t, regs := u.regs, held := u.held, sch := { s.sch with plan := u.sch.plan }, hb := u.hb } ∧ sameBridge s u := by
  have heq := gateListChange_switches hb hp ht
  rw [ho] at heq
  obtain ⟨x, hx⟩ : ∃ x, x = (s.tick t).onPlan bay fun x => { x with cur := some (s.adminList bay), pend := false } := ⟨_, rfl⟩
  have hpl : ∀ k, x.planner k = if k = bay then { s.planner bay with cur := some (s.adminList bay), pend := false } else s.planner k := fun k => by
    rw [hx]
    exact (planner_onPlan ..).trans (by simp [hl, hb, State.planner])
  have honly := putAdmin_only x bay old
  obtain ⟨hlen, hcyc, hbt⟩ := putAdmin_reads x bay old
  have hsame := honly.same
  rw [← hx] at heq
  obtain ⟨R, hR⟩ := honly.regs_eq
  rw [hR] at heq hlen hcyc hbt hsame
  subst hx
  exact after_hb rfl heq rfl fun b hb => ⟨(hpl bay).trans (if_pos rfl), fun k hk => (hpl k).trans (if_neg hk), hlen, hcyc, hbt,
    by simp [State.hold, State.cPut, State.cInc, State.cEvt, State.onPlan, State.onSch, State.tick], hsame, rfl, hb⟩

/-- Settles O50: meter commands by what they write, gate lists by the time their change takes, and the histograms cleared. -/
theorem metersGatesHistograms : Obligations.MetersGatesHistograms := by
  unfold Obligations.MetersGatesHistograms
  refine ⟨fun s c idx d hs => ?_, after_gateListChange, fun s c hs hok => ?_⟩
  · obtain ⟨h1, h2, h3, h4⟩ := after_meterCommand s c idx d hs
    exact ⟨h1, h2, h3, h4, fun bay hb hl => after_gateActivate s c bay hs hb hl⟩
  · obtain ⟨⟨hd, hn, hr⟩, -, -⟩ := hs
    have heq : s.processed false histogramClear = s.clearRegs 0x340000 0x363000 := processed_running hd hn hr
    have hreads := clearRegs_reads hok.1 0x340000 0x363000
    refine after_hb rfl heq rfl fun b hb => ⟨fun a h1 h2 => ?_, fun a ha => (hreads a).trans (if_pos ha), rfl, hb⟩
    have hz : resetOf a = 0 := resetOf_apart (by decide +kernel) h1 h2
    exact congrArg BitVec.toNat ((hreads a).trans ((if_neg (by omega)).trans (by rw [hz])))

end Sys2Proof.Proofs
end

section
/-! PROOFS. The aging sweep and the plumb scan (R326, R327, R330 to R334). -/
set_option Elab.async false
namespace Sys2Proof.Machine
open Sys2Proof

/-- A fault on record stays so where its registers read as before, in the same epoch and at the same instant. -/
theorem faultNoted.right {cls cause src unit : Nat} {s w u : State} (h : faultNoted cls cause src unit s w) (k : ∀ a ∈ faultRegs cls, u.rd a = w.rd a)
    (he : u.stampEp = w.stampEp) (hn : u.now = w.now) : faultNoted cls cause src unit s u := by
  obtain ⟨h0, h1, h2, h3, hc, ha, hp⟩ := h
  have hw : NotedAt cls cause src unit w.stampEp w.now s w := ⟨h0, h1, h2, h3, hc, ha, hp⟩
  exact (hw.mono k).now he hn

theorem memB_congr {s u : State} (h : u.mem = s.mem) (a : Nat) : u.memB a = s.memB a := congrArg (fun m => memFind m a) h

/-! ### The aging sweep -/

theorem natLE_leNat (l : Octets) : natLE l.length (leNat l) = l := by
  induction l with
  | nil => rfl
  | cons b l ih =>
    have hb := b.isLt
    have h1 : BitVec.ofNat 8 (b.toNat + 256 * leNat l) = b := by
      refine BitVec.eq_of_toNat_eq ?_
      rw [BitVec.toNat_ofNat]
      omega
    have h2 : (b.toNat + 256 * leNat l) / 256 = leNat l := by omega
    rw [List.length_cons, leNat, natLE, h1, h2, ih]

theorem keyOfNat_key {s : State} {t i : Nat} {e : Octets} (h : s.hent t i = e) : keyOfNat (leNat (hKey e)) = hKey e := by
  subst h
  have := natLE_leNat (hKey (s.hent t i))
  rwa [show (hKey (s.hent t i)).length = 12 by rw [hKey, State.hent, slice_memO _ (by decide), length_memO]] at this

theorem beforeVisits_done {s : State} {n : Nat} (hp : s.gw.part = 0) (hl : s.tab.learnDue = false) : s.beforeVisits n = s := by
  have h1 : s.toTimeouts n = s := if_neg (by rw [hp]; decide)
  have h2 : s.toSends n = s := by
    rw [State.toSends, h1]
    exact if_neg (by rw [hp]; decide)
  have h3 : s.gwTimer n = s := by
    rw [State.gwTimer, h2]
    exact if_neg (by rw [hp]; decide)
  rw [State.beforeVisits, h3]
  exact if_neg (by rw [hl]; decide)

/-- The state in which the sweep looks at its position. -/
def State.atPlace (s : State) : State := { s with tab := { s.tab with age := (s.tab.age + 1) % sweepLen, visits := s.tab.visits - 1 } }

theorem ageVisit_removes {s : State} {e : Octets} (he : s.hent 0 s.tab.age = e) (hv : hValid e = true) (hl : hLearned e = true) (hh : s.hidden e = false)
    (h4 : (oct e 0).testBit 4 = false) (ha : s.fld TB_CFG 16 8 ≤ oct e 1 + 1) :
    s.ageVisit = (.removed (hKey e), (s.atPlace.hdelete 0 s.tab.age).cInc (TB_CNT 7)) := by
  unfold State.ageVisit
  extract_lets i x0 x e' frozen m thaw flap hit age e2
  obtain rfl : e' = e := he
  rw [if_neg (by rw [hv, hl]; decide), if_neg (by rw [show x.hidden e' = false from hh]; decide)]
  have hage : age = oct e' 1 + 1 := if_neg (by rw [show hit = false from h4]; decide)
  rw [if_pos]
  · rfl
  · rw [show hit = false from h4, hage, show x.fld TB_CFG 16 8 = s.fld TB_CFG 16 8 from rfl, decide_eq_true ha]
    rfl

theorem ageVisit_thaws {s : State} {e : Octets} (he : s.hent 0 s.tab.age = e) (hv : hValid e = true) (hl : hLearned e = true) (hh : s.hidden e = false)
    (h4 : (oct e 0).testBit 4 = true) (hf : (oct e 2).testBit 4 = true) (hm : s.fld TB_LRNCFG 23 4 ≤ oct e 2 % 16 + 1) :
    s.ageVisit = (.unfrozen (hKey e), s.atPlace.putHent 0 s.tab.age (putOcts e 0 [BitVec.ofNat 8 (oct e 0 - 16), 0, 0])) := by
  unfold State.ageVisit
  extract_lets i x0 x e' frozen m thaw flap hit age e2
  obtain rfl : e' = e := he
  rw [if_neg (by rw [hv, hl]; decide), if_neg (by rw [show x.hidden e' = false from hh]; decide)]
  have hhit : hit = true := h4
  have hthaw : thaw = true := by
    show ((oct e' 2).testBit 4 && decide (s.fld TB_LRNCFG 23 4 ≤ oct e' 2 % 16 + 1)) = true
    rw [hf, decide_eq_true hm]
    rfl
  have he2 : e2 = putOcts e' 0 [BitVec.ofNat 8 (oct e' 0 - 16), 0, 0] := by
    have hflap : flap = 0 := if_neg (by rw [hthaw]; simp)
    have hage : age = 0 := if_pos hhit
    show putOcts e' 0 [BitVec.ofNat 8 (oct e' 0 - (if hit then 16 else 0)), BitVec.ofNat 8 age, BitVec.ofNat 8 flap] = _
    rw [hflap, hage, if_pos hhit]
    rfl
  rw [if_neg (by rw [hhit]; simp), he2, if_pos hthaw]
  rfl

/-- A visit that a command names and that comes at once. -/
theorem visitRow_first {s x : State} {n : Nat} {v : Visit} (hr : s.ep.running = some n) (hp : s.gw.part = 0) (hl : s.tab.learnDue = false) (hk : s.tab.visits ≠ 0)
    (h : s.ageVisit = (v, x)) : s.visitRow v = x := by
  obtain ⟨k, hk'⟩ := Nat.exists_eq_succ_of_ne_zero hk
  have hv : State.ageVisits (some v) s.tab.visits s = (true, x) := by
    rw [hk', State.ageVisits, if_neg hk, h]
    exact if_pos (beq_self_eq_true _)
  rw [State.visitRow, hr]
  simp only [beforeVisits_done hp hl, hv, if_true]

theorem flushFilterRetire_retires {s : State} {n k : Nat} {f : FlushFilter} (hr : s.ep.running = some n) (hp : s.gw.part = 0) (hl : s.tab.learnDue = false)
    (hk : s.tab.visits = 0) (hf : s.tab.filters[k]? = some f) (hle : f.left ≤ s.fld TB_CFG 8 7) :
    s.flushFilterRetire k = { s with tab := { s.tab with filters := s.tab.filters.eraseIdx k } } := by
  have hv : State.ageVisits none s.tab.visits s = (false, s) := by rw [hk, State.ageVisits]
  rw [State.flushFilterRetire, hr, hf]
  simp only [beforeVisits_done hp hl, hv, hle, if_true]

/-! ### The plumb scan -/

section congr
variable {s t : State} {R : List (Nat × Word)} {n : Nat} (ht : t = { s with now := n, regs := R }) (h : sameRegs [TB_PSSTAT] s t)
include ht h

theorem shadow_congr (r i : Nat) : t.shadow r i = s.shadow r i := by
  have hb : t.shBase = s.shBase := congrArg (· * 2 ^ 20) (h.fld (by decide) 0 12)
  unfold State.shadow
  rw [hb, ht]
  rfl

theorem shadowPresent_congr (r : Nat) (e : Octets) : t.shadowPresent r e = s.shadowPresent r e := by
  have h5 : t.bit FR_STATUS 5 = s.bit FR_STATUS 5 := h.bit (by decide) _
  have h6 : t.bit FR_STATUS 6 = s.bit FR_STATUS 6 := h.bit (by decide) _
  unfold State.shadowPresent
  rw [h5, h6, ht]

theorem rowMissing_congr (k : Nat) : t.rowMissing k = s.rowMissing k := by
  have hne : ∀ k, TB_ROOT k ∉ [TB_PSSTAT] := fun k => by
    rw [List.mem_singleton]
    unfold TB_ROOT TB_PSSTAT
    omega
  have htcm : t.tcmOn = s.tcmOn := funext fun k => by
    rw [State.tcmOn, h.bit (hne k), ht]
    rfl
  have hroot : t.rootIdx = s.rootIdx := funext fun v => funext fun b => by
    unfold State.rootIdx
    simp only [h.bit (hne _), h.fld (hne _)]
  unfold State.rowMissing State.pairOf
  rw [htcm, hroot, ht]
  rfl

/-- What the scan looks at depends on the registers by what they read alone. -/
theorem scanLook_congr (r i : Nat) : t.scanLook r i = s.scanLook r i := by
  have hs := shadow_congr ht h
  have hp := shadowPresent_congr ht h
  have hm := rowMissing_congr ht h
  unfold State.scanLook
  simp only [hs, hp, hm]
  rw [ht]
  rfl

theorem scanSkips_congr (r i : Nat) : t.scanSkips r i = s.scanSkips r i := by
  have h5 : t.bit FR_STATUS 5 = s.bit FR_STATUS 5 := h.bit (by decide) _
  unfold State.scanSkips
  rw [h5, ht]
  rfl

end congr

theorem scanRegion_self {s : State} {r : Nat} (hr : r < 7) (hb : s.bit TB_PSCTRL (1 + r) = true) : s.scanRegion r = some r := by
  have hl : (List.range 7).filter (fun k => decide (r ≤ k)) = r :: (List.range 7).filter (fun k => decide (r < k)) := by
    have hall : ∀ r < 7, (List.range 7).filter (fun k => decide (r ≤ k)) = r :: (List.range 7).filter (fun k => decide (r < k)) := by decide
    exact hall r hr
  rw [State.scanRegion, hl, List.find?_cons, hb]

/-- What a step of the scan does at its place (R331, R332). -/
def State.scanAct (s : State) (uncorr : Bool) (r i : Nat) : State :=
  if s.scanSkips r i then s
  else if uncorr then
    if (r == 1 || r == 2) && hLearned (s.scanLook r i).1 && hValid (s.scanLook r i).1 then ((s.hdelete (r - 1) (hashStep (r - 1) i).2).inc (TB_CNT 7)).scanDone r i true
    else s.scanRepair r i (s.scanLook r i).2.1
  else if (s.scanLook r i).2.2 && !s.tab.recs.any (fun x => x.region == r && x.idx == i) then
    { s with tab := { s.tab with
        recs := s.tab.recs ++ [{ region := r, idx := i, ent := (s.scanLook r i).1, shadow := (s.scanLook r i).2.1, opened := s.now }] } }
  else s

/-- A step in the enabled region in hand. -/
theorem plumbScanStep_eq {s : State} {t r : Nat} {uncorr : Bool} (hd : s.dieOn = true) (he : s.bit TB_PSCTRL 0 = true) (hp : s.scanPaused = false) (hr : r < 7)
    (hb : s.bit TB_PSCTRL (1 + r) = true) (hf : s.fld TB_PSSTAT 0 3 = r) :
    s.plumbScanStep t uncorr = ((((s.tick t).setFld TB_PSSTAT 0 3 r).scanAct uncorr r (s.fld TB_PSPOS 0 24)).scanNext r (s.fld TB_PSPOS 0 24)).scanShow := by
  have hcur := scanRegion_self hr hb
  have hi : (if (r == (s.tick t).fld TB_PSSTAT 0 3) = true then (s.tick t).fld TB_PSPOS 0 24 else 0) = s.fld TB_PSPOS 0 24 :=
    if_pos (beq_iff_eq.mpr hf.symm)
  rw [← hi, State.plumbScanStep, if_neg (by rw [hd, he, hp]; decide), hf, hcur]
  cases s.scanRegion 0 <;> rfl

/-- The scan's registers after a step that is not the last of its region. -/
theorem scanNext_shows {y : State} {r i : Nat} (h : i + 1 < scanSteps r) (hr : r < 7) :
    RegsOnly [TB_PSPOS, TB_PSSTAT] y (y.scanNext r i).scanShow ∧ (y.scanNext r i).scanShow.rdN TB_PSPOS = i + 1 ∧
      (y.scanNext r i).scanShow.fld TB_PSSTAT 4 5 = y.tab.recs.length % 2 ^ 5 ∧ (y.scanNext r i).scanShow.fld TB_PSSTAT 0 3 = y.fld TB_PSSTAT 0 3 := by
  have hle : scanSteps r ≤ 2 ^ 24 := by
    have hall : ∀ r < 7, scanSteps r ≤ 2 ^ 24 := by decide
    exact hall r hr
  have hn : y.scanNext r i = y.wrN TB_PSPOS (i + 1) := if_pos h
  have ho : RegsOnly [TB_PSPOS, TB_PSSTAT] y (y.wrN TB_PSPOS (i + 1)) := (RegsOnly.refl _ y).wrN (by simp) _
  rw [hn, State.scanShow]
  refine ⟨ho.setFld (by simp) _ _ _, ?_, fld_setFld_same _ _ _ _ _ (by decide), ?_⟩
  · rw [rdN_setFld_ne _ _ _ _ _ _ (by decide), rdN_wrN_same]
    exact Nat.mod_eq_of_lt (by omega)
  · rw [fld_setFld_ne _ _ _ _ _ _ _ (by decide) (by decide)]
    exact fld_wrN_ne _ _ _ _ _ _ (by decide)

/-- A place whose entry is to be looked at, seen from the state of the step. -/
theorem scanAct_look {s x : State} {r i n : Nat} {R : List (Nat × Word)} (hx : x = { s with now := n, regs := R }) (h : sameRegs [TB_PSSTAT] s x)
    (hsk : s.scanSkips r i = false) {e sh : Octets} {d : Bool} (hl : s.scanLook r i = (e, sh, d)) : x.scanAct false r i =
      if d && !s.tab.recs.any (fun x => x.region == r && x.idx == i) then
        { x with tab := { s.tab with recs := s.tab.recs ++ [{ region := r, idx := i, ent := e, shadow := sh, opened := n }] } }
      else x := by
  have htab : x.tab = s.tab ∧ x.now = n := by
    rw [hx]
    exact ⟨rfl, rfl⟩
  unfold State.scanAct
  rw [scanSkips_congr hx h, hsk, scanLook_congr hx h, hl, htab.1, htab.2]
  rfl

/-- An uncorrectable place of the direct tables is written from its shadow. -/
theorem scanAct_direct {s x : State} {i n : Nat} {R : List (Nat × Word)} (hx : x = { s with now := n, regs := R }) (h : sameRegs [TB_PSSTAT] s x)
    (hsk : s.scanSkips 0 i = false) : x.scanAct true 0 i = (x.memW (tbDirect + 4 * i) (s.shadow 0 i)).scanDone 0 i true := by
  have hsh : (s.scanLook 0 i).2.1 = s.shadow 0 i := rfl
  unfold State.scanAct
  rw [scanSkips_congr hx h, hsk, scanLook_congr hx h, ← hsh]
  rfl

/-- A repair that was carried out, at a place of the tables, with no handler active. -/
theorem scanDone_notes {y : State} {i : Nat} (hi : i < 2 ^ 24) (hf : y.fld FLT_STATUS 0 5 = 0) :
    RegsOnly (TB_PSLAST :: TB_CNT 10 :: TB_EVENT :: faultRegs 1) y (y.scanDone 0 i true) ∧ (y.scanDone 0 i true).rdN TB_PSLAST = i ∧
      (y.scanDone 0 i true).rdN (TB_CNT 10) = (y.rdN (TB_CNT 10) + 1) % 2 ^ 32 ∧ (y.scanDone 0 i true).bit TB_EVENT 7 = true ∧
      faultNoted 1 0x11 0x10 0xFF y (y.scanDone 0 i true) := by
  obtain ⟨z, hz⟩ : ∃ z, z = ((y.wrN TB_PSLAST (i % 2 ^ 24 + 2 ^ 24 * 0 + 2 ^ 27 * b2n (!true))).inc (TB_CNT 10)).evt TB_EVENT 7 := ⟨_, rfl⟩
  have hzo : RegsOnly [TB_PSLAST, TB_CNT 10, TB_EVENT] y z := by
    rw [hz]
    exact (((RegsOnly.refl _ y).wrN (by simp) _).inc (by simp) _).evt (by simp) _
  have hzf := (hzo.same.fld (a := FLT_STATUS) (by decide) 0 5).trans hf
  have heq : y.scanDone 0 i true = z.noted 1 0x11 0x10 0xFF z.stampEp z.now := by
    rw [← raiseFault_light _ _ _ (by decide) hzf, hz]
    rfl
  have hno := noted_only z 1 0x11 0x10 0xFF z.stampEp z.now
  have hn := noted_now z (cls := 1) (cause := 0x11) (src := 0x10) (unit := 0xFF) (by decide) (by decide) (by decide) (by decide)
  have hlast : z.rdN TB_PSLAST = i := by
    rw [hz, rdN_evt_ne _ _ _ _ (by decide), rdN_inc_ne _ _ _ _ (by decide), rdN_wrN_same]
    show (i % 2 ^ 24 + 2 ^ 24 * 0 + 2 ^ 27 * 0) % 2 ^ 32 = i
    omega
  have hcnt : z.rdN (TB_CNT 10) = (y.rdN (TB_CNT 10) + 1) % 2 ^ 32 := by
    rw [hz, rdN_evt_ne _ _ _ _ (by decide), rdN_inc_same, rdN_wrN_ne _ _ _ _ (by decide)]
  have hev : z.bit TB_EVENT 7 = true := by
    rw [hz]
    exact bit_evt_same _ _ _ (by decide)
  rw [heq]
  refine ⟨(hzo.mono ?_).trans (hno.mono ?_), (hno.rdN (by decide)).trans hlast, (hno.rdN (by decide)).trans hcnt, (hno.same.bit (by decide) _).trans hev,
    hn.left (hzo.rdN (by decide)).symm⟩
  · exact fun a ha => by simp only [List.mem_cons, List.not_mem_nil, or_false] at ha ⊢; tauto
  · exact fun a ha => List.mem_cons_of_mem _ (List.mem_cons_of_mem _ (List.mem_cons_of_mem _ ha))

theorem plumbConfirm_closes {s : State} {t k : Nat} {x : ScanRec} (hk : s.tab.recs[k]? = some x) (ht : x.opened + s.confirmNs ≤ max s.now t) : s.plumbConfirm t k =
    ({ s.tick t with tab := { s.tab with
        recs := s.tab.recs.eraseIdx k
        repairs := if (s.scanLook x.region x.idx).2.2 && (s.scanLook x.region x.idx).1 == x.ent && (s.scanLook x.region x.idx).2.1 == x.shadow then s.tab.repairs ++ [x]
          else s.tab.repairs } } : State).scanShow := by
  rw [State.plumbConfirm, hk]
  exact if_neg (Nat.not_lt.mpr ht)

end Sys2Proof.Machine
end

section
namespace Sys2Proof.Proofs
open Sys2Proof Sys2Proof.Machine

/-- A command of the sweep or of the filters in the timer step of the epoch being processed. -/
theorem after_sweep (s : State) (n : Nat) (h : s.atVisits n) :
    (∀ (e : Octets), s.tab.visits ≠ 0 → s.tab.age < 262176 → s.hent 0 s.tab.age = e → hValid e = true → hLearned e = true → s.hidden e = false →
      ((oct e 0).testBit 4 = false → s.fld TB_CFG 16 8 ≤ oct e 1 + 1 → (s.stashEmpty 0 ∨ hashSlots 0 ≤ s.tab.age) → After (.ageOut (leNat (hKey e))) s fun u =>
        u.hent 0 s.tab.age = zeros 32 ∧ sameMem (hashAddr 0 s.tab.age) 32 s u ∧ u.tab = { s.tab with age := (s.tab.age + 1) % 262176, visits := s.tab.visits - 1 } ∧
        u.held = s.held ++ [.add (TB_CNT 7) 1] ∧ u = { s with mem := u.mem, held := u.held, tab := u.tab, hb := u.hb } ∧ sameBridge s u) ∧
      ((oct e 0).testBit 4 = true → (oct e 2).testBit 4 = true → s.fld TB_LRNCFG 23 4 ≤ oct e 2 % 16 + 1 → After (.entryUnfreeze (leNat (hKey e))) s fun u =>
        u.hent 0 s.tab.age = putOcts e 0 [BitVec.ofNat 8 (oct e 0 - 16), 0, 0] ∧ sameMem (hashAddr 0 s.tab.age) 32 s u ∧
        u.tab = { s.tab with age := (s.tab.age + 1) % 262176, visits := s.tab.visits - 1 } ∧ u = { s with mem := u.mem, tab := u.tab, hb := u.hb } ∧ sameBridge s u)) ∧
    (∀ (k : Nat) (f : FlushFilter), s.tab.visits = 0 → s.tab.filters[k]? = some f → f.left ≤ s.fld TB_CFG 8 7 → After (.flushFilterRetire k) s fun u =>
      u.tab = { s.tab with filters := s.tab.filters.eraseIdx k } ∧ u = { s with tab := u.tab, hb := u.hb } ∧ sameBridge s u) := by
  obtain ⟨hr, hp, hl, hwf⟩ := h
  refine ⟨fun e hv _ he hval hlrn hhid => ⟨fun h4 hage hst => ?_, fun h4 hf hm => ?_⟩, fun k f hv hf hle => ?_⟩
  · have heq : s.ageOut (leNat (hKey e)) = (s.atPlace.putHent 0 s.tab.age (zeros 32)).cInc (TB_CNT 7) := by
      rw [State.ageOut, keyOfNat_key he, visitRow_first hr hp hl hv (ageVisit_removes he hval hlrn hhid h4 hage), hdelete_clears (s := s.atPlace) hwf (by decide) hst]
    have hlen : (zeros 32).length = 32 := rfl
    generalize zeros 32 = z at heq hlen ⊢
    obtain ⟨hm, hsm⟩ := memW_stores (s := s.atPlace) hwf (hashAddr 0 s.tab.age) hlen
    exact after_hb rfl heq rfl fun b hb => ⟨hm, hsm, rfl, rfl, rfl, hb⟩
  · obtain ⟨z, hz⟩ : ∃ z, z = putOcts e 0 [BitVec.ofNat 8 (oct e 0 - 16), 0, 0] := ⟨_, rfl⟩
    have hlen : z.length = 32 := by
      have he32 : e.length = 32 := he ▸ length_memO ..
      rw [hz]
      simp [putOcts, he32]
    have heq : s.entryUnfreeze (leNat (hKey e)) = s.atPlace.putHent 0 s.tab.age z := by
      rw [State.entryUnfreeze, keyOfNat_key he, visitRow_first hr hp hl hv (ageVisit_thaws he hval hlrn hhid h4 hf hm), hz]
    obtain ⟨hm, hsm⟩ := memW_stores (s := s.atPlace) hwf (hashAddr 0 s.tab.age) hlen
    rw [← hz]
    exact after_hb rfl heq rfl fun b hb => ⟨hm, hsm, rfl, rfl, hb⟩
  · exact after_hb rfl (flushFilterRetire_retires hr hp hl hv hf hle) rfl fun b hb => ⟨rfl, rfl, hb⟩

/-- A step of the scan in the enabled region in hand. -/
theorem after_scanStep (s : State) (t r i : Nat) (hd : s.dieOn = true) (he : s.bit TB_PSCTRL 0 = true) (hp : s.scanPaused = false) (hr : r < 7)
    (hb : s.bit TB_PSCTRL (1 + r) = true) (hf : s.fld TB_PSSTAT 0 3 = r) (hpos : s.fld TB_PSPOS 0 24 = i) (hi : i + 1 < scanSteps r) (hsk : s.scanSkips r i = false) :
    (∀ e sh : Octets, s.scanLook r i = (e, sh, true) → (∀ x ∈ s.tab.recs, x.region = r → x.idx ≠ i) → After (.plumbScanStep t false) s fun u =>
      u.tab = { s.tab with recs := s.tab.recs ++ [{ region := r, idx := i, ent := e, shadow := sh, opened := max s.now t }] } ∧ u.rdN TB_PSPOS = i + 1 ∧
      u.fld TB_PSSTAT 4 5 = s.tab.recs.length + 1 ∧ u.fld TB_PSSTAT 0 3 = r ∧ sameRegs [TB_PSPOS, TB_PSSTAT] s u ∧
      u = { s with now := max s.now t, regs := u.regs, tab := u.tab, hb := u.hb } ∧ sameBridge s u) ∧
    (∀ e sh : Octets, s.scanLook r i = (e, sh, false) → After (.plumbScanStep t false) s fun u =>
      u.rdN TB_PSPOS = i + 1 ∧ u.fld TB_PSSTAT 0 3 = r ∧ sameRegs [TB_PSPOS, TB_PSSTAT] s u ∧ u = { s with now := max s.now t, regs := u.regs, hb := u.hb } ∧ sameBridge s u) ∧
    (r = 0 → s.fld FLT_STATUS 0 5 = 0 → Memory.wf s.mem = true → s.shBase ≥ 0xB14 * 2 ^ 20 → After (.plumbScanStep t true) s fun u =>
      u.memO (tbDirect + 4 * i) 4 = s.shadow 0 i ∧ sameMem (tbDirect + 4 * i) 4 s u ∧ u.rdN TB_PSPOS = i + 1 ∧ u.rdN TB_PSLAST = i ∧
      u.rdN (TB_CNT 10) = (s.rdN (TB_CNT 10) + 1) % 2 ^ 32 ∧ u.bit TB_EVENT 7 = true ∧ faultNoted 1 0x11 0x10 0xFF s u ∧
      sameRegs (TB_PSPOS :: TB_PSSTAT :: TB_PSLAST :: TB_CNT 10 :: TB_EVENT :: faultRegs 1) s u ∧ u.tab = s.tab ∧ u.now = max s.now t) := by
  obtain ⟨x, hx⟩ : ∃ x, x = (s.tick t).setFld TB_PSSTAT 0 3 r := ⟨_, rfl⟩
  have hxo : RegsOnly [TB_PSSTAT] (s.tick t) x := hx ▸ (RegsOnly.refl _ _).setFld (by simp) _ _ _
  have hxr : x.fld TB_PSSTAT 0 3 = r := by
    rw [hx, fld_setFld_same _ _ _ _ _ (by decide)]
    exact Nat.mod_eq_of_lt (by omega)
  have hxs : sameRegs [TB_PSSTAT] s x := hxo.same
  have hstep := fun uncorr => plumbScanStep_eq (t := t) (uncorr := uncorr) hd he hp hr hb hf
  rw [hpos, ← hx] at hstep
  have hlen : s.tab.recs.length < 16 := by
    simp only [State.scanPaused, Bool.or_eq_false_iff, decide_eq_false_iff_not] at hp
    omega
  obtain ⟨R, hR⟩ : ∃ R, x = { s with now := max s.now t, regs := R } := hxo.regs_eq
  refine ⟨fun e sh hl hfree => ?_, fun e sh hl => ?_, fun h0 hflt hwf _ => ?_⟩
  · have hany : s.tab.recs.any (fun x => x.region == r && x.idx == i) = false := by
      rw [List.any_eq_false]
      intro y hy
      simp only [Bool.and_eq_true, beq_iff_eq, not_and]
      exact hfree y hy
    have heq := hstep false
    rw [scanAct_look hR hxs hsk hl, hany, if_pos (by decide)] at heq
    obtain ⟨y, hy⟩ : ∃ y : State, y = { x with tab := { s.tab with recs := s.tab.recs ++ [{ region := r, idx := i, ent := e, shadow := sh, opened := max s.now t }] } } := ⟨_, rfl⟩
    obtain ⟨hzo, hzp, hz4, hz0⟩ := scanNext_shows (y := y) hi hr
    have hyt : y.tab.recs.length = s.tab.recs.length + 1 := by
      rw [hy]
      exact List.length_append
    have hyf : y.fld TB_PSSTAT 0 3 = r := by
      rw [hy]
      exact hxr
    have hys : sameRegs [TB_PSPOS, TB_PSSTAT] s y := by
      rw [hy]
      exact hxs.mono (by simp)
    have hzs := hys.trans hzo.same
    rw [hyt, Nat.mod_eq_of_lt (show _ < 2 ^ 5 by omega)] at hz4
    replace hz0 := hz0.trans hyf
    rw [← hy] at heq
    obtain ⟨R2, hR2⟩ := hzo.regs_eq
    rw [hR2] at heq hzp hz4 hz0 hzs
    subst hy hR
    exact after_hb rfl heq rfl fun b hb => ⟨rfl, hzp, hz4, hz0, hzs, rfl, hb⟩
  · have heq := hstep false
    rw [scanAct_look hR hxs hsk hl, Bool.false_and, if_neg (by decide)] at heq
    obtain ⟨hzo, hzp, -, hz0⟩ := scanNext_shows (y := x) hi hr
    have hzs := (hxs.mono (by simp)).trans hzo.same
    replace hz0 := hz0.trans hxr
    obtain ⟨R2, hR2⟩ := hzo.regs_eq
    rw [hR2] at heq hzp hz0 hzs
    subst hR
    exact after_hb rfl heq rfl fun b hb => ⟨hzp, hz0, hzs, rfl, hb⟩
  · subst h0
    have heq := hstep true
    rw [scanAct_direct hR hxs hsk] at heq
    obtain ⟨y, hy⟩ : ∃ y, y = x.memW (tbDirect + 4 * i) (s.shadow 0 i) := ⟨_, rfl⟩
    have hym : y.memO (tbDirect + 4 * i) 4 = s.shadow 0 i ∧ sameMem (tbDirect + 4 * i) 4 s y := by
      rw [hy, hR]
      exact memW_stores (s := ({ s with now := max s.now t, regs := R } : State)) hwf _ (length_memO ..)
    have hyr : sameRegs [TB_PSSTAT] s y := by
      rw [hy]
      exact hxs
    have hyf : y.tab = s.tab ∧ y.now = max s.now t := by
      rw [hy, hR]
      exact ⟨rfl, rfl⟩
    obtain ⟨hdo, hlast, hcnt, hev, hn⟩ := scanDone_notes (y := y) (i := i) (by have : scanSteps 0 = 524288 := rfl; omega) ((hyr.fld (by decide) 0 5).trans hflt)
    rw [← hy] at heq
    generalize y.scanDone 0 i true = w at *
    obtain ⟨hzo, hzp, -, -⟩ := scanNext_shows (y := w) hi hr
    generalize (w.scanNext 0 i).scanShow = z at *
    have hzs := hzo.same
    have hmem : z.mem = y.mem ∧ z.tab = y.tab ∧ z.now = y.now ∧ z.stampEp = w.stampEp := by
      refine ⟨?_, ?_, ?_, hzo.stampEp (by decide)⟩ <;> rw [hzo.frame, hdo.frame]
    obtain ⟨hzm, hzt, hzn, hze⟩ := hmem
    have hwn : w.now = y.now := by rw [hdo.frame]
    refine after_of rfl heq fun b _ => ⟨(memO_congr fun a _ _ => memB_congr hzm a).trans hym.1, fun a ha => (memB_congr hzm a).trans (hym.2 a ha), hzp,
      (hzo.rdN (by decide)).trans hlast, (hzo.rdN (by decide)).trans (hcnt.trans ?_), (hzo.same.bit (by decide) _).trans hev, ?_, ?_, hzt.trans hyf.1, hzn.trans hyf.2⟩
    · rw [hyr.rdN (by decide)]
    · refine (hn.left (hyr.rdN (by decide)).symm).right (u := z) (fun a ha => hzs a fun h => ?_) hze (hzn.trans hwn.symm)
      revert ha
      simp only [List.mem_cons, List.not_mem_nil, or_false] at h
      obtain rfl | rfl := h <;> decide
    · refine (hyr.mono ?_).trans ((hdo.same.mono ?_).trans (hzs.mono ?_))
      · simp
      · exact fun a ha => List.mem_cons_of_mem _ (List.mem_cons_of_mem _ ha)
      · simp

/-- Settles O49: the sweep at its position, a step of the scan, and the close of a pending record. -/
theorem sweepAndScan : Obligations.SweepAndScan := by
  unfold Obligations.SweepAndScan
  refine ⟨after_sweep, after_scanStep, fun s t k x hk hlen ht => ⟨fun hl => ?_, fun hl => ?_⟩⟩
  · have heq := plumbConfirm_closes hk ht
    rw [hl, if_pos (by simp)] at heq
    obtain ⟨y, hy⟩ : ∃ y : State, y = { s.tick t with tab := { s.tab with recs := s.tab.recs.eraseIdx k, repairs := s.tab.repairs ++ [x] } } := ⟨_, rfl⟩
    have hzo : RegsOnly [TB_PSSTAT] y y.scanShow := (RegsOnly.refl _ y).setFld (by simp) _ _ _
    have hpend : y.scanShow.fld TB_PSSTAT 4 5 = s.tab.recs.length - 1 := by
      have hkl : k < s.tab.recs.length := (List.getElem?_eq_some_iff.mp hk).1
      have he : y.tab.recs.length = s.tab.recs.length - 1 := by
        rw [hy]
        exact List.length_eraseIdx_of_lt hkl
      rw [State.scanShow, fld_setFld_same _ _ _ _ _ (by decide), he]
      exact Nat.mod_eq_of_lt (by omega)
    have hsame : sameRegs [TB_PSSTAT] s y.scanShow := fun a ha => (hzo.same a ha).trans (by rw [hy]; rfl)
    rw [← hy] at heq
    obtain ⟨R, hR⟩ := hzo.regs_eq
    rw [hR] at heq hpend hsame
    subst hy
    exact after_hb rfl heq rfl fun b hb => ⟨rfl, hpend, hsame, rfl, hb⟩
  · have heq := plumbConfirm_closes hk ht
    rw [hl, Bool.false_and, Bool.false_and, if_neg (by decide)] at heq
    obtain ⟨y, hy⟩ : ∃ y : State, y = { s.tick t with tab := { s.tab with recs := s.tab.recs.eraseIdx k } } := ⟨_, rfl⟩
    have hzo : RegsOnly [TB_PSSTAT] y y.scanShow := (RegsOnly.refl _ y).setFld (by simp) _ _ _
    have hsame : sameRegs [TB_PSSTAT] s y.scanShow := fun a ha => (hzo.same a ha).trans (by rw [hy]; rfl)
    have heq' : s.plumbConfirm t k = y.scanShow := by rw [heq, hy]
    obtain ⟨R, hR⟩ := hzo.regs_eq
    rw [hR] at heq' hsame
    subst hy
    exact after_hb rfl heq' rfl fun b hb => ⟨rfl, hsame, rfl, hb⟩

end Sys2Proof.Proofs
end

section
/-! PROOFS. Host commands of the gateway: routes, cells, descriptors, images, sends and restarts (R298). -/
set_option Elab.async false
namespace Sys2Proof.Machine
open Sys2Proof

/-! ### Entries, tags and regions -/

theorem withTag_length (o g : Nat) (e : Octets) : (withTag o g e).length = e.length := List.length_set ..

theorem cmdOcts_length (d : List Nat) (n : Nat) : (cmdOcts d n).length = n := length_padTo ..

/-- An entry as a command stores it, its tag set unless it is all zero. -/
def tagged (o tag : Nat) (e : Octets) : Octets := if e.all (· == 0) then e else withTag o tag e

theorem tagged_length (o tag : Nat) (e : Octets) : (tagged o tag e).length = e.length := by
  unfold tagged
  split
  · rfl
  · exact withTag_length ..

theorem putEntry_eq (s : State) (a o tag : Nat) (e : Octets) : s.putEntry a o tag e = s.memW a (tagged o tag e) := rfl

theorem oct_withTag_ne (g : Nat) (e : Octets) {i : Nat} (h : i ≠ 0) : oct (withTag 0 g e) i = oct e i := by
  simp [oct, withTag, Ne.symm h]

theorem slice_withTag (g : Nat) (e : Octets) {off n : Nat} (h : 0 < off) : slice (withTag 0 g e) off n = slice e off n := by
  rw [slice, withTag, List.drop_set, if_pos h, slice]

theorem leAt_withTag (g : Nat) (e : Octets) {off n : Nat} (h : 0 < off) : leAt (withTag 0 g e) off n = leAt e off n := congrArg leNat (slice_withTag g e h)

theorem dImg_withTag (g : Nat) (e : Octets) : dImg (withTag 0 g e) = dImg e := leAt_withTag g e (by decide)

theorem bodyAddr_withTag (g : Nat) (e : Octets) : bodyAddr (withTag 0 g e) = bodyAddr e := by
  rw [bodyAddr, leAt_withTag g e (by decide), bodyAddr]

theorem initImage_withTag (s : State) (g : Nat) (e : Octets) : s.initImage (withTag 0 g e) = s.initImage e := by
  unfold State.initImage
  rw [leAt_withTag g e (by decide), dImg_withTag]

theorem initImage_length (s : State) (d : Octets) : (s.initImage d).length = dImg d := by
  unfold State.initImage
  extract_lets u
  split
  · exact List.length_replicate
  · exact length_memO ..

theorem entryValid_not_zero {e : Octets} (h : entryValid e = true) : e.all (· == 0) = false := by
  rw [Bool.eq_false_iff]
  intro hz
  have h0 : oct e 0 = 0 := by
    cases e with
    | nil => rfl
    | cons b l =>
      have hb : b = 0 := by simpa using List.all_eq_true.mp hz b List.mem_cons_self
      rw [hb]
      rfl
  rw [entryValid, h0] at h
  cases h

/-! ### The flags of a PDU (R560) -/

theorem pduFlags_lt (s : State) (p : Nat) : s.pduFlags p < 2 ^ 8 := BitVec.isLt _

theorem setPduFlag_same {s : State} (h : Memory.wf s.mem = true) (p k : Nat) (b : Bool) : sameMem (gwPState + 16 * p + 6) 1 s (s.setPduFlag p k b) :=
  sameMem_memWN s h _ _ _

theorem pduFlags_setPduFlag {s : State} (h : Memory.wf s.mem = true) (p : Nat) {k : Nat} (hk : k < 8) (b : Bool) (j : Nat) :
    ((s.setPduFlag p k b).pduFlags p).testBit j = if j = k then b else (s.pduFlags p).testBit j := by
  have hr : (s.setPduFlag p k b).pduFlags p = putBit (s.pduFlags p) k b % 2 ^ 8 := by
    rw [State.pduFlags, ← memN_one, State.setPduFlag, memN_memWN s h]
    rfl
  rw [hr, Nat.testBit_mod_two_pow, testBit_putBit]
  by_cases hj : j < 8
  · rw [decide_eq_true hj, Bool.true_and]
  · rw [decide_eq_false hj, Bool.false_and, if_neg (by omega)]
    exact (Nat.testBit_lt_two_pow (Nat.lt_of_lt_of_le (pduFlags_lt s p) (Nat.pow_le_pow_right (by decide) (Nat.not_lt.mp hj)))).symm

theorem wf_setPduFlag {s : State} (h : Memory.wf s.mem = true) (p k : Nat) (b : Bool) : Memory.wf (s.setPduFlag p k b).mem = true := wf_memWN h ..

/-- Flags that read as before name the same slot. -/
theorem pduFlags_congr {s u : State} {p : Nat} (h : u.memB (gwPState + 16 * p + 6) = s.memB (gwPState + 16 * p + 6)) : u.pduFlags p = s.pduFlags p :=
  congrArg BitVec.toNat h

/-! ### Route states (R298) -/

/-- A route's state as a restart leaves it: the epoch of its last reception, and no timeout. -/
theorem restart_state {s : State} (h : Memory.wf s.mem = true) (c idx : Nat) :
    (s.memW (gwRState + 16 * idx) (natLE 6 c ++ [0])).memN (gwRState + 16 * idx) 6 = c % 2 ^ 48 ∧
      (s.memW (gwRState + 16 * idx) (natLE 6 c ++ [0])).memB (gwRState + 16 * idx + 6) = 0 ∧
      sameMem (gwRState + 16 * idx) 7 s (s.memW (gwRState + 16 * idx) (natLE 6 c ++ [0])) := by
  generalize gwRState + 16 * idx = A
  have hlen : (natLE 6 c ++ [0]).length = 7 := by simp
  obtain ⟨hm, hs⟩ := memW_stores h A hlen
  generalize s.memW A (natLE 6 c ++ [0]) = u at hm hs ⊢
  refine ⟨?_, ?_, hs⟩
  · have h6 : u.memO A 6 = natLE 6 c := by
      have := slice_memO u (a := A) (n := 7) (off := 0) (len := 6) (by decide)
      rw [hm, Nat.add_zero] at this
      rw [← this, slice, List.drop_zero, List.take_append_of_le_length (by simp), List.take_of_length_le (by simp)]
    rw [State.memN, h6, leNat_natLE, show 256 ^ 6 = 2 ^ 48 by decide]
  · rw [← getD_memO u (a := A) (n := 7) (i := 6) (by decide), hm, List.getD_append_right _ _ _ _ (by simp)]
    simp

theorem restartRoute_quiet {s : State} {c idx : Nat} (h : s.bit SG_CTRL 0 = false) : s.restartRoute c idx =
    { s.memW (gwRState + 16 * idx) (natLE 6 c ++ [0]) with
      held := s.held ++ if (s.memB (gwRState + 16 * idx + 6)).getLsbD 0 then [.or SG_EVENT (2 ^ 1)] else [] } := by
  unfold State.restartRoute
  extract_lets tmo x
  by_cases ht : tmo = true
  · have hg : (x.cEvt SG_EVENT 1).gwRecord c 2 idx = x.cEvt SG_EVENT 1 := if_pos (by show (!s.bit SG_CTRL 0) = true; rw [h]; rfl)
    rw [if_pos ht, hg, if_pos ht]
    rfl
  · rw [if_neg ht, if_neg ht, List.append_nil]
    rfl

theorem restartRoute_none {s : State} {c idx : Nat} (h : (s.memB (gwRState + 16 * idx + 6)).getLsbD 0 = false) :
    s.restartRoute c idx = s.memW (gwRState + 16 * idx) (natLE 6 c ++ [0]) := by
  unfold State.restartRoute
  extract_lets tmo x
  exact if_neg (by rw [show tmo = false from h]; decide)

/-! ### The commands -/

theorem gwRefuse_eq (s : State) : s.gwRefuse = { s with held := s.held ++ [.add (SG_CNT 9) 1, .or SG_EVENT (2 ^ 7)] } :=
  congrArg (fun l => { s with held := l }) (List.append_assoc ..)

theorem routeWrite_writes {s : State} {c idx : Nat} {d : List Nat} (hf : s.gwFree = true) (hi : idx < 8388608) (ho : s.routeOk (cmdOcts d 64) = true) :
    routeWrite c idx d s = ((s.memW (gwRoutes + 64 * idx) (tagged 0 3 (cmdOcts d 64))).closeRec 4 idx).restartRoute c idx := by
  rw [routeWrite, if_pos (by simp [hf, hi, ho])]
  rfl

theorem routeWrite_refused {s : State} {c idx : Nat} {d : List Nat} (h : 8388608 ≤ idx ∨ s.gwFree = false) : routeWrite c idx d s = s.gwRefuse := by
  rw [routeWrite, if_neg (by obtain h | h := h <;> simp [h])]

theorem cellWrite_writes {s : State} {idx : Nat} {d : List Nat} (hf : s.gwFree = true) (hi : idx < 16777216)
    (hr : ∀ r ∈ (s.memIdx gwRoutes gwRState 64).map s.route, (routeCells r).contains idx = false) :
    cellWrite idx d s = (s.memW (gwCells + 32 * idx) (tagged 0x0B 3 (cmdOcts d 32))).closeRec 5 idx := by
  have hrs : ((s.memIdx gwRoutes gwRState 64).map s.route).filter (fun r => entryValid r && (routeCells r).contains idx) = [] := by
    refine List.filter_eq_nil_iff.mpr fun r h => ?_
    rw [hr r h, Bool.and_false]
    decide
  simp only [cellWrite, hrs, List.all_nil, hf, decide_eq_true hi, Bool.and_true, if_true]
  rfl

theorem bodyAddr_ge (d : Octets) : gwData ≤ bodyAddr d := Nat.le_add_right _ _

/-- The octet of a PDU's flags lies below the images. -/
theorem flags_below {p : Nat} (hp : p < 1048576) (d : Octets) : gwPState + 16 * p + 6 < bodyAddr d := by
  have := bodyAddr_ge d
  have hs : gwPState = 1904 * 2 ^ 20 := rfl
  have hd : gwData = 1920 * 2 ^ 20 := rfl
  omega

/-- A PDU that starts from its INIT image. -/
structure Freshened (x u : State) (p : Nat) (d : Octets) : Prop where
  frame : u = { x with mem := u.mem }
  image : u.memO (bodyAddr d) (dImg d) = x.initImage d
  flags : ∀ j, (u.pduFlags p).testBit j = if j = 2 then true else if j = 1 then false else if j = 0 then false else (x.pduFlags p).testBit j
  rest : ∀ a, a ≠ gwPState + 16 * p + 6 → (a < bodyAddr d ∨ bodyAddr d + dImg d ≤ a) → u.memB a = x.memB a

theorem freshPdu_freshens {x : State} (hw : Memory.wf x.mem = true) {p : Nat} (hp : p < 1048576) {d : Octets} (hd : x.pduDesc p = d) : Freshened x (x.freshPdu p) p d := by
  have hlow := flags_below hp d
  obtain ⟨y, hy⟩ : ∃ y, y = x.memW (bodyAddr d) (x.initImage d) := ⟨_, rfl⟩
  have hyw : Memory.wf y.mem = true := hy ▸ wf_memW hw _ _
  obtain ⟨hym, hys⟩ := memW_stores hw (bodyAddr d) (initImage_length x d)
  rw [← hy] at hym hys
  have hyf : y.pduFlags p = x.pduFlags p := pduFlags_congr (hys _ (Or.inl hlow))
  obtain ⟨y0, h0⟩ : ∃ z, z = y.setPduFlag p 0 false := ⟨_, rfl⟩
  obtain ⟨y1, h1⟩ : ∃ z, z = y0.setPduFlag p 1 false := ⟨_, rfl⟩
  obtain ⟨y2, h2⟩ : ∃ z, z = y1.setPduFlag p 2 true := ⟨_, rfl⟩
  have heq : x.freshPdu p = y2 := by
    rw [h2, h1, h0, hy, State.freshPdu, hd]
  have w0 : Memory.wf y0.mem = true := h0 ▸ wf_setPduFlag hyw ..
  have w1 : Memory.wf y1.mem = true := h1 ▸ wf_setPduFlag w0 ..
  have f0 := pduFlags_setPduFlag hyw p (k := 0) (by decide) false
  have f1 := pduFlags_setPduFlag w0 p (k := 1) (by decide) false
  have f2 := pduFlags_setPduFlag w1 p (k := 2) (by decide) true
  have s0 : sameMem (gwPState + 16 * p + 6) 1 y y0 := h0 ▸ setPduFlag_same hyw _ _ _
  have s1 : sameMem (gwPState + 16 * p + 6) 1 y0 y1 := h1 ▸ setPduFlag_same w0 _ _ _
  have hflags : sameMem (gwPState + 16 * p + 6) 1 y y2 := s0.trans (s1.trans (h2 ▸ setPduFlag_same w1 _ _ _))
  rw [← h0] at f0
  rw [← h1] at f1
  rw [← h2] at f2
  rw [heq]
  refine ⟨?_, ?_, fun j => ?_, fun a ha hb => ?_⟩
  · exact h2 ▸ memWN_frame (h1 ▸ memWN_frame (h0 ▸ memWN_frame (hy ▸ rfl) ..) ..) ..
  · exact (hflags.memO (Or.inr hlow)).trans hym
  · rw [f2, f1, f0, hyf]
  · exact (hflags a (by omega)).trans (hys a hb)

/-- A descriptor written to both slots reads back from either. -/
theorem putDesc_reads {s : State} (hw : Memory.wf s.mem = true) {p : Nat} (hp : p < 1048576) {e : Octets} (he : e.length = 32) (hz : e.all (· == 0) = false) :
    (s.putDesc p e).pduDesc p = withTag 0 3 e ∧ (s.putDesc p e).pduOther p = withTag 0 3 e ∧ (s.putDesc p e).pduFlags p = s.pduFlags p ∧
      sameMem (gwDescs + 64 * p) 64 s (s.putDesc p e) := by
  obtain ⟨D, hD⟩ : ∃ D, D = withTag 0 3 e := ⟨_, rfl⟩
  have hDl : D.length = 32 := by rw [hD, withTag_length, he]
  have heq : s.putDesc p e = s.memW (gwDescs + 64 * p) (D ++ D) := by
    rw [State.putDesc, hz, hD]
    rfl
  obtain ⟨hm, hs⟩ := memW_stores hw (gwDescs + 64 * p) (n := 64) (o := D ++ D) (by simp [hDl])
  rw [heq, ← hD]
  generalize s.memW (gwDescs + 64 * p) (D ++ D) = u at hm hs ⊢
  have hf : u.pduFlags p = s.pduFlags p := by
    refine pduFlags_congr (hs _ (Or.inr ?_))
    have h1 : gwDescs = 1840 * 2 ^ 20 := rfl
    have h2 : gwPState = 1904 * 2 ^ 20 := rfl
    omega
  have hhalf : ∀ b, b ≤ 1 → u.memO (gwDescs + 64 * p + 32 * b) 32 = D := fun b hb => by
    rw [← slice_memO u (n := 64) (by omega), hm, slice]
    obtain rfl | rfl : b = 0 ∨ b = 1 := by omega
    · rw [Nat.mul_zero, List.drop_zero, List.take_left' hDl]
    · rw [Nat.mul_one, List.drop_left' hDl, List.take_of_length_le (by omega)]
  have hb : bitsN (u.pduFlags p) 3 1 ≤ 1 := Nat.le_of_lt_succ (Nat.mod_lt _ (by decide))
  exact ⟨hhalf _ hb, hhalf _ (Nat.sub_le ..), hf, hs⟩

theorem pduDescriptorWrite_writes {s : State} {c idx : Nat} {d : List Nat} (hf : s.gwFree = true) (hi : idx < 1048576)
    (ho : s.descOk (fun m => some (s.tenonAt m c)) (cmdOcts d 32) = true) (hv : entryValid (cmdOcts d 32) = true) (hn : s.pduValid idx = false)
    (hr : s.memIdx gwRoutes gwRState 64 = []) : pduDescriptorWrite c idx d s =
      ((s.putDesc idx (cmdOcts d 32)).closeRec 6 (1048576 * bitsN (s.pduFlags idx) 3 1 + idx)).freshPdu idx := by
  have hno : entryValid (s.pduDesc idx) = false := hn
  simp only [pduDescriptorWrite, hno, hv, hr, List.map_nil, List.filter_nil, List.all_nil, hf, ho, decide_eq_true hi, Bool.and_true, Bool.false_and, Bool.not_false,
    if_true, Bool.false_eq_true, if_false]

/-! ### Images -/

theorem imageWrite_eq {s : State} {idx off len : Nat} (trig : Bool) {d : List Nat} (hi : idx < 1048576) (hv : s.pduValid idx = true) (h1 : 1 ≤ len) (h2 : len ≤ 64)
    (hb : off + len ≤ dImg (s.pduDesc idx)) : imageWrite idx off len trig d s =
      if trig && (putOcts (s.image (s.pduDesc idx)) off (cmdOcts d len) != s.image (s.pduDesc idx) ||
          (s.memW (bodyAddr (s.pduDesc idx)) (putOcts (s.image (s.pduDesc idx)) off (cmdOcts d len))).pduMode idx == 4) then
        (s.memW (bodyAddr (s.pduDesc idx)) (putOcts (s.image (s.pduDesc idx)) off (cmdOcts d len))).setPduFlag idx 0 true
      else s.memW (bodyAddr (s.pduDesc idx)) (putOcts (s.image (s.pduDesc idx)) off (cmdOcts d len)) := by
  rw [imageWrite, if_pos (by rw [show entryValid (s.pduDesc idx) = true from hv]; simp [hi, h1, h2, hb])]

/-- Octets with a part replaced: the part reads as given and the others as before. -/
theorem putOcts_facts {l v : Octets} {off n : Nat} (hv : v.length = n) (h : off + n ≤ l.length) :
    (putOcts l off v).length = l.length ∧ ∀ i, (i < off ∨ off + n ≤ i) → (putOcts l off v).getD i 0 = l.getD i 0 := by
  subst hv
  have htake : v.take (l.length - off) = v := List.take_of_length_le (by omega)
  refine ⟨by simp only [putOcts, htake, List.length_append, List.length_take, List.length_drop]; omega, fun i hi => ?_⟩
  rw [putOcts, htake, List.append_assoc]
  obtain hi | hi := hi
  · rw [List.getD_append _ _ _ _ (by simp only [List.length_take]; omega)]
    simp [hi]
  · rw [List.getD_append_right _ _ _ _ (by simp only [List.length_take]; omega), List.getD_append_right _ _ _ _ (by simp only [List.length_take]; omega)]
    simp only [List.length_take, List.getD_eq_getElem?_getD, List.getElem?_drop]
    congr 2
    omega

/-- An image with a part written: the body reads as the new image, and nothing outside the part changes. -/
theorem body_stores {s : State} (hw : Memory.wf s.mem = true) {D v : Octets} {off n : Nat} (hv : v.length = n) (h : off + n ≤ dImg D) :
    (s.memW (bodyAddr D) (putOcts (s.image D) off v)).memO (bodyAddr D) (dImg D) = putOcts (s.image D) off v ∧
      sameMem (bodyAddr D + off) n s (s.memW (bodyAddr D) (putOcts (s.image D) off v)) := by
  have hil : (s.image D).length = dImg D := length_memO ..
  obtain ⟨hlen, hget⟩ := putOcts_facts hv (h.trans_eq hil.symm)
  obtain ⟨hm, hs⟩ := memW_stores hw (bodyAddr D) (hlen.trans hil)
  refine ⟨hm, fun a ha => ?_⟩
  rw [memB_memW s hw, hlen, hil]
  split
  · rename_i hin
    rw [hget _ (by omega), State.image, getD_memO s (by omega), Nat.add_sub_cancel' hin.1]
  · rfl

end Sys2Proof.Machine
end

section
namespace Sys2Proof.Proofs
open Sys2Proof Sys2Proof.Machine

/-- A route command. -/
theorem after_routeWrite (s : State) (c idx : Nat) (d : List Nat) (hs : s.inService) (hf : s.gwFree = true) (hi : idx < 8388608) (ho : s.routeOk (cmdOcts d 64) = true)
    (ht : (s.memB (gwRState + 16 * idx + 6)).getLsbD 0 = false) : After (.routeWrite c idx d) s fun u =>
      u.route idx = (if (cmdOcts d 64).all (· == 0) then cmdOcts d 64 else withTag 0 3 (cmdOcts d 64)) ∧ u.memN (gwRState + 16 * idx) 6 = c % 2 ^ 48 ∧
      u.memB (gwRState + 16 * idx + 6) = 0 ∧
      (∀ x, (x < gwRoutes + 64 * idx ∨ gwRoutes + 64 * idx + 64 ≤ x) → (x < gwRState + 16 * idx ∨ gwRState + 16 * idx + 7 ≤ x) → u.memB x = s.memB x) ∧
      u = { s with mem := u.mem, tab := (s.closeRec 4 idx).tab, hb := u.hb } ∧ sameBridge s u := by
  obtain ⟨hp, -, hwf⟩ := hs
  have hA : gwRoutes + 64 * idx + 64 ≤ gwRState := by
    have h1 : gwRoutes = 688 * 2 ^ 20 := rfl
    have h2 : gwRState = 1200 * 2 ^ 20 := rfl
    omega
  have heq := routeWrite_writes (c := c) hf hi ho
  show After (.routeWrite c idx d) s fun u => u.route idx = tagged 0 3 (cmdOcts d 64) ∧ _
  have hlen : (tagged 0 3 (cmdOcts d 64)).length = 64 := (tagged_length ..).trans (cmdOcts_length ..)
  generalize tagged 0 3 (cmdOcts d 64) = e at heq hlen ⊢
  obtain ⟨hm, hsm⟩ := memW_stores hwf (gwRoutes + 64 * idx) hlen
  obtain ⟨x, hx⟩ : ∃ x, x = (s.memW (gwRoutes + 64 * idx) e).closeRec 4 idx := ⟨_, rfl⟩
  have hxw : Memory.wf x.mem = true := hx ▸ wf_memW hwf _ _
  have hxm : ∀ a, x.memB a = (s.memW (gwRoutes + 64 * idx) e).memB a := fun a => by
    rw [hx]
    rfl
  have hxt : (x.memB (gwRState + 16 * idx + 6)).getLsbD 0 = false := by
    rw [hxm, hsm _ (Or.inr (by omega))]
    exact ht
  rw [← hx, restartRoute_none hxt] at heq
  obtain ⟨hn, hz, hst⟩ := restart_state hxw c idx
  have hroute : (x.memW (gwRState + 16 * idx) (natLE 6 c ++ [0])).route idx = e := by
    refine Eq.trans (hst.memO (Or.inl (by omega))) (Eq.trans (memO_congr fun a _ _ => hxm a) hm)
  have hrest : ∀ a, (a < gwRoutes + 64 * idx ∨ gwRoutes + 64 * idx + 64 ≤ a) → (a < gwRState + 16 * idx ∨ gwRState + 16 * idx + 7 ≤ a) →
      (x.memW (gwRState + 16 * idx) (natLE 6 c ++ [0])).memB a = s.memB a := fun a h1 h2 => (hst a h2).trans ((hxm a).trans (hsm a h1))
  have hfr : x.memW (gwRState + 16 * idx) (natLE 6 c ++ [0]) =
      { s with mem := (x.memW (gwRState + 16 * idx) (natLE 6 c ++ [0])).mem, tab := (s.closeRec 4 idx).tab } := by
    rw [hx]
    rfl
  generalize x.memW (gwRState + 16 * idx) (natLE 6 c ++ [0]) = y at *
  obtain ⟨M, hM⟩ : ∃ M, y = { s with mem := M, tab := (s.closeRec 4 idx).tab } := ⟨_, hfr⟩
  rw [hM] at heq hn hz hroute hrest
  exact after_processing rfl hp heq rfl rfl fun b hb => ⟨hroute, hn, hz, hrest, rfl, hb⟩

/-- A descriptor command for a PDU that had none. -/
theorem after_descriptorWrite (s : State) (c idx : Nat) (d : List Nat) (hs : s.inService) (hf : s.gwFree = true) (hi : idx < 1048576)
    (ho : s.descOk (fun m => some (s.tenonAt m c)) (cmdOcts d 32) = true) (hv : entryValid (cmdOcts d 32) = true) (hn : s.pduValid idx = false)
    (hr : s.memIdx gwRoutes gwRState 64 = []) : After (.pduDescriptorWrite c idx d) s fun u =>
        u.pduDesc idx = withTag 0 3 (cmdOcts d 32) ∧ u.pduOther idx = withTag 0 3 (cmdOcts d 32) ∧ u.image (u.pduDesc idx) = s.initImage (cmdOcts d 32) ∧
        (u.pduFlags idx).testBit 0 = false ∧ (u.pduFlags idx).testBit 1 = false ∧ (u.pduFlags idx).testBit 2 = true ∧
        (u.pduFlags idx).testBit 3 = (s.pduFlags idx).testBit 3 ∧
        (∀ x, (x < gwDescs + 64 * idx ∨ gwDescs + 64 * idx + 64 ≤ x) → x ≠ gwPState + 16 * idx + 6 →
          (x < bodyAddr (cmdOcts d 32) ∨ bodyAddr (cmdOcts d 32) + dImg (cmdOcts d 32) ≤ x) → u.memB x = s.memB x) ∧
        u = { s with mem := u.mem, tab := (s.closeRec 6 (1048576 * bitsN (s.pduFlags idx) 3 1 + idx)).tab, hb := u.hb } ∧ sameBridge s u := by
  obtain ⟨hp, -, hwf⟩ := hs
  have heq := pduDescriptorWrite_writes hf hi ho hv hn hr
  obtain ⟨e, he⟩ : ∃ e, e = cmdOcts d 32 := ⟨_, rfl⟩
  rw [← he] at heq hv ⊢
  have hel : e.length = 32 := he ▸ cmdOcts_length ..
  obtain ⟨hd1, hd2, hdf, hds⟩ := putDesc_reads hwf hi hel (entryValid_not_zero hv)
  obtain ⟨x, hx⟩ : ∃ x, x = (s.putDesc idx e).closeRec 6 (1048576 * bitsN (s.pduFlags idx) 3 1 + idx) := ⟨_, rfl⟩
  have hxm : x.mem = (s.putDesc idx e).mem := by rw [hx]; rfl
  have hxb : ∀ a, x.memB a = (s.putDesc idx e).memB a := memB_congr hxm
  have hxw : Memory.wf x.mem = true := hxm ▸ wf_memW hwf _ _
  have hxd : x.pduDesc idx = withTag 0 3 e := by rw [hx]; exact hd1
  have hxo : x.pduOther idx = withTag 0 3 e := by rw [hx]; exact hd2
  have hxf : x.pduFlags idx = s.pduFlags idx := by rw [hx]; exact hdf
  have hfresh := freshPdu_freshens hxw hi hxd
  have hframe : x.freshPdu idx = { s with mem := (x.freshPdu idx).mem, tab := (s.closeRec 6 (1048576 * bitsN (s.pduFlags idx) 3 1 + idx)).tab } := by
    refine hfresh.frame.trans ?_
    rw [hx]
    rfl
  rw [← hx] at heq
  generalize x.freshPdu idx = y at heq hfresh hframe
  have hflags := hfresh.flags
  have hlow : gwDescs + 64 * idx + 64 ≤ gwPState ∧ gwPState ≤ gwData := by
    have h1 : gwDescs = 1840 * 2 ^ 20 := rfl
    have h2 : gwPState = 1904 * 2 ^ 20 := rfl
    have h3 : gwData = 1920 * 2 ^ 20 := rfl
    omega
  have hbody := bodyAddr_ge e
  have hrest : ∀ a, a ≠ gwPState + 16 * idx + 6 → (a < bodyAddr e ∨ bodyAddr e + dImg e ≤ a) → y.memB a = x.memB a := fun a h1 h2 =>
    hfresh.rest a h1 (by rw [bodyAddr_withTag, dImg_withTag]; exact h2)
  have hslot : bitsN (y.pduFlags idx) 3 1 = bitsN (x.pduFlags idx) 3 1 := by
    have h3 := hflags 3
    rw [if_neg (by decide), if_neg (by decide), if_neg (by decide)] at h3
    rw [Nat.testBit_eq_decide_div_mod_eq, Nat.testBit_eq_decide_div_mod_eq, decide_eq_decide] at h3
    rw [bitsN, bitsN, Nat.shiftRight_eq_div_pow, Nat.shiftRight_eq_div_pow]
    omega
  have hsl : bitsN (x.pduFlags idx) 3 1 ≤ 1 := Nat.le_of_lt_succ (Nat.mod_lt _ (by decide))
  have hhalf : ∀ b, b ≤ 1 → y.memO (gwDescs + 64 * idx + 32 * b) 32 = x.memO (gwDescs + 64 * idx + 32 * b) 32 := fun b hb =>
    memO_congr fun a h1 h2 => hrest a (by omega) (Or.inl (by omega))
  have hyd : y.pduDesc idx = withTag 0 3 e := by
    rw [State.pduDesc, hslot, hhalf _ hsl]
    exact hxd
  have hyo : y.pduOther idx = withTag 0 3 e := by
    rw [State.pduOther, hslot, hhalf _ (Nat.sub_le ..)]
    exact hxo
  have hinit : x.initImage (withTag 0 3 e) = s.initImage e := by
    rw [initImage_withTag]
    unfold State.initImage
    dsimp only
    split
    · rfl
    · exact memO_congr fun a h1 _ => (hxb a).trans (hds a (Or.inr (by omega)))
  have himg : y.image (y.pduDesc idx) = s.initImage e := by
    rw [hyd]
    exact hfresh.image.trans hinit
  have hall : ∀ a, (a < gwDescs + 64 * idx ∨ gwDescs + 64 * idx + 64 ≤ a) → a ≠ gwPState + 16 * idx + 6 → (a < bodyAddr e ∨ bodyAddr e + dImg e ≤ a) →
      y.memB a = s.memB a := fun a h1 h2 h3 => (hrest a h2 h3).trans ((hxb a).trans (hds a h1))
  have h0 := hflags 0
  have h1 := hflags 1
  have h2 := hflags 2
  have h3 := (hflags 3).trans (by rw [if_neg (by decide), if_neg (by decide), if_neg (by decide), hxf])
  obtain ⟨M, hM⟩ : ∃ M, y = { s with mem := M, tab := (s.closeRec 6 (1048576 * bitsN (s.pduFlags idx) 3 1 + idx)).tab } := ⟨_, hframe⟩
  rw [hM] at heq hyd hyo himg hall h0 h1 h2 h3
  exact after_processing rfl hp heq rfl rfl fun b hb => ⟨hyd, hyo, himg, h0, h1, h2, h3, hall, rfl, hb⟩

/-- An image command for a valid PDU. -/
theorem after_imageWrite (s : State) (c idx off len : Nat) (d : List Nat) (hs : s.inService) (hi : idx < 1048576) (hv : s.pduValid idx = true) (h1 : 1 ≤ len)
    (h2 : len ≤ 64) (hb : off + len ≤ dImg (s.pduDesc idx)) :
    (After (.imageWrite c idx off len false d) s fun u =>
        u.image (s.pduDesc idx) = putOcts (s.image (s.pduDesc idx)) off (cmdOcts d len) ∧ u.pduDesc idx = s.pduDesc idx ∧
        sameMem (bodyAddr (s.pduDesc idx) + off) len s u ∧ u = { s with mem := u.mem, hb := u.hb } ∧ sameBridge s u) ∧
      (putOcts (s.image (s.pduDesc idx)) off (cmdOcts d len) ≠ s.image (s.pduDesc idx) → After (.imageWrite c idx off len true d) s fun u =>
        u.image (s.pduDesc idx) = putOcts (s.image (s.pduDesc idx)) off (cmdOcts d len) ∧ (u.pduFlags idx).testBit 0 = true ∧
        (∀ x, (x < bodyAddr (s.pduDesc idx) + off ∨ bodyAddr (s.pduDesc idx) + off + len ≤ x) → x ≠ gwPState + 16 * idx + 6 → u.memB x = s.memB x) ∧
        u = { s with mem := u.mem, hb := u.hb } ∧ sameBridge s u) := by
  obtain ⟨hp, -, hwf⟩ := hs
  have heq := fun trig => imageWrite_eq trig (d := d) hi hv h1 h2 hb
  obtain ⟨him, hsm⟩ := body_stores hwf (D := s.pduDesc idx) (v := cmdOcts d len) (cmdOcts_length ..) hb
  have hlow := flags_below hi (s.pduDesc idx)
  obtain ⟨D, hD⟩ : ∃ D, D = s.pduDesc idx := ⟨_, rfl⟩
  rw [← hD] at heq him hsm hlow ⊢
  obtain ⟨x, hx⟩ : ∃ x, x = s.memW (bodyAddr D) (putOcts (s.image D) off (cmdOcts d len)) := ⟨_, rfl⟩
  have hxw : Memory.wf x.mem = true := hx ▸ wf_memW hwf _ _
  rw [← hx] at heq him hsm
  have hxfr : x = { s with mem := x.mem } := hx ▸ rfl
  refine ⟨?_, fun hne => ?_⟩
  · have hq := heq false
    rw [Bool.false_and, if_neg (by decide)] at hq
    have hdesc : x.pduDesc idx = D := by
      have hds : gwDescs + 64 * idx + 64 ≤ gwPState := by
        have h1 : gwDescs = 1840 * 2 ^ 20 := rfl
        have h2 : gwPState = 1904 * 2 ^ 20 := rfl
        omega
      have hsl : bitsN (s.pduFlags idx) 3 1 ≤ 1 := Nat.le_of_lt_succ (Nat.mod_lt _ (by decide))
      have hfl : x.pduFlags idx = s.pduFlags idx := pduFlags_congr (hsm _ (Or.inl (by omega)))
      rw [State.pduDesc, hfl, hsm.memO (Or.inl (by omega)), hD]
      rfl
    obtain ⟨M, hM⟩ : ∃ M, x = { s with mem := M } := ⟨_, hxfr⟩
    rw [hM] at hq him hsm hdesc
    exact after_processing rfl hp hq rfl rfl fun b hb => ⟨him, hdesc, hsm, rfl, hb⟩
  · have hq := heq true
    rw [if_pos (by rw [bne_iff_ne.mpr hne]; rfl)] at hq
    have hfs := setPduFlag_same hxw idx 0 true
    have hf := (pduFlags_setPduFlag hxw idx (k := 0) (by decide) true 0).trans (if_pos rfl)
    have himg : (x.setPduFlag idx 0 true).image D = putOcts (s.image D) off (cmdOcts d len) := (hfs.memO (Or.inr hlow)).trans him
    have hrest : ∀ a, (a < bodyAddr D + off ∨ bodyAddr D + off + len ≤ a) → a ≠ gwPState + 16 * idx + 6 → (x.setPduFlag idx 0 true).memB a = s.memB a :=
      fun a ha hn => (hfs a (by omega)).trans (hsm a ha)
    have hyfr : x.setPduFlag idx 0 true = { s with mem := (x.setPduFlag idx 0 true).mem } := memWN_frame hxfr ..
    generalize x.setPduFlag idx 0 true = y at *
    obtain ⟨M, hM⟩ : ∃ M, y = { s with mem := M } := ⟨_, hyfr⟩
    rw [hM] at hq himg hf hrest
    exact after_processing rfl hp hq rfl rfl fun b hb => ⟨himg, hf, hrest, rfl, hb⟩

/-- Settles O45: each command by what it writes in the table space. -/
theorem gatewayCommands : Obligations.GatewayCommands := by
  unfold Obligations.GatewayCommands
  refine ⟨fun s c idx d hs => ⟨fun hf hi ho ht => after_routeWrite s c idx d hs hf hi ho ht, fun hf hi hr => ?_,
    fun hf hi ho hv hn hr => after_descriptorWrite s c idx d hs hf hi ho hv hn hr, fun h => ?_⟩,
    fun s c idx hs => ⟨fun off len d hi hv h1 h2 hb => after_imageWrite s c idx off len d hs hi hv h1 h2 hb, fun hi => ?_, fun hi hc => ?_⟩⟩
  all_goals
    obtain ⟨hp, -, hwf⟩ := hs
  · have heq := cellWrite_writes (d := d) hf hi hr
    have hlen : (tagged 0x0B 3 (cmdOcts d 32)).length = 32 := (tagged_length ..).trans (cmdOcts_length ..)
    show After (.cellWrite c idx d) s fun u => u.cell idx = tagged 0x0B 3 (cmdOcts d 32) ∧ _
    generalize tagged 0x0B 3 (cmdOcts d 32) = e at heq hlen ⊢
    obtain ⟨hm, hsm⟩ := memW_stores hwf (gwCells + 32 * idx) hlen
    exact after_processing rfl hp heq rfl rfl fun b hb => ⟨hm, hsm, rfl, hb⟩
  · exact after_processing rfl hp ((routeWrite_refused h).trans (gwRefuse_eq s)) rfl rfl fun b hb => ⟨rfl, rfl, hb⟩
  · have heq : hostSend idx s = s.setPduFlag idx 1 true := if_pos hi
    have hf := pduFlags_setPduFlag hwf idx (k := 1) (by decide) true
    exact after_processing rfl hp heq rfl rfl fun b hb => ⟨(hf 1).trans rfl, fun k hk => (hf k).trans (if_neg hk), setPduFlag_same hwf _ _ _, rfl, hb⟩
  · have heq : restartTimeout c idx s = s.restartRoute c idx := if_pos hi
    rw [restartRoute_quiet hc] at heq
    obtain ⟨hn, hz, hst⟩ := restart_state hwf c idx
    exact after_processing rfl hp heq rfl rfl fun b hb => ⟨hn, hz, hst, rfl, rfl, hb⟩

end Sys2Proof.Proofs
end

section
/-! PROOFS. The gateway's timer step (R285 to R288, R297). -/
set_option Elab.async false
namespace Sys2Proof.Machine
open Sys2Proof

/-! ### Association lists and queues -/

theorem assoc_assocPut_same {β : Type} (l : List (Nat × β)) (k : Nat) (v : β) : assoc (assocPut l k v) k = some v := by
  unfold assoc assocPut
  split
  · rename_i h
    induction l with
    | nil => cases h
    | cons x xs ih =>
      by_cases hx : (x.1 == k) = true
      · have hk : x.1 = k := eq_of_beq hx
        simp [hk]
      · rw [List.any_cons, Bool.or_eq_true] at h
        rw [List.map_cons, if_neg hx, List.find?_cons_of_neg (p := fun p : Nat × β => p.1 == k) hx]
        exact ih (h.resolve_left hx)
  · rename_i h
    rw [List.find?_append, List.find?_eq_none.mpr fun x hx hk => h (List.any_eq_true.mpr ⟨x, hx, hk⟩)]
    simp

theorem assoc_assocPut_ne {β : Type} (l : List (Nat × β)) {k j : Nat} (v : β) (h : j ≠ k) : assoc (assocPut l k v) j = assoc l j := by
  unfold assoc assocPut
  split
  · congr 1
    clear * - h
    induction l with
    | nil => rfl
    | cons x xs ih =>
      by_cases hx : (x.1 == k) = true
      · have hk : x.1 = k := eq_of_beq hx
        rw [List.map_cons, if_pos hx, List.find?_cons_of_neg (by simpa using Ne.symm h), List.find?_cons_of_neg (by simpa [hk] using Ne.symm h), ih]
      · rw [List.map_cons, if_neg hx]
        by_cases hj : (x.1 == j) = true
        · rw [List.find?_cons_of_pos (p := fun p : Nat × β => p.1 == j) hj, List.find?_cons_of_pos (p := fun p : Nat × β => p.1 == j) hj]
        · rw [List.find?_cons_of_neg (p := fun p : Nat × β => p.1 == j) hj, List.find?_cons_of_neg (p := fun p : Nat × β => p.1 == j) hj, ih]
  · rw [List.find?_append, List.find?_cons_of_neg (by simpa using Ne.symm h), List.find?_nil, Option.or_none]

theorem setQueue_put (s : State) (q : Nat) {x : Queue} (h : x.frames.isEmpty = false) :
    s.setQueue q x = { s with sch := { s.sch with queues := assocPut s.sch.queues q x } } := by
  rw [State.setQueue, h]
  rfl

theorem queue_setQueue_same (s : State) (q : Nat) {x : Queue} (h : x.frames.isEmpty = false) : (s.setQueue q x).queue q = x := by
  rw [setQueue_put s q h, State.queue]
  exact congrArg (Option.getD · _) (assoc_assocPut_same ..)

theorem queue_setQueue_ne (s : State) {q k : Nat} {x : Queue} (h : x.frames.isEmpty = false) (hk : k ≠ q) : (s.setQueue q x).queue k = s.queue k := by
  rw [setQueue_put s q h, State.queue]
  exact congrArg (Option.getD · _) (assoc_assocPut_ne _ _ hk)

/-- A frame that may be late is admitted to a class in use with room, no fair queueing at its port (R343). -/
theorem enqueueOk_admits {s : State} {e : Egress} (hel : e.elig = false) (hu : s.bit (SC_CL_W0 e.port e.cls) 17 = true) (hw : s.bit (SC_PCFG e.port) 0 = false)
    (hp : 128 ≤ e.port) (hroom : (s.queue (8 * e.port + e.cls)).depth + e.size ≤ s.fld (SC_CL_W3 e.port e.cls) 0 24) :
    s.enqueueOk e = (s.setQueue (8 * e.port + e.cls) { frames := (s.queue (8 * e.port + e.cls)).frames ++ [e]
                                                       depth := (s.queue (8 * e.port + e.cls)).depth + e.size }).cInc (SC_CNT 0) := by
  have hfair : ∀ z : State, z.regs = s.regs → ∀ c n, z.wfqHead (e.port - 128) c n = z := fun z hz c n => by
    have : z.bit (SC_PCFG (128 + (e.port - 128))) 0 = false := by
      rw [Nat.add_sub_cancel' hp]
      exact (congrArg (fun R => ({ s with regs := R } : State).bit (SC_PCFG e.port) 0) hz).trans hw
    rw [State.wfqHead, this]
    rfl
  unfold State.enqueueOk
  extract_lets q x qmax yth y z
  rw [hu, hel, if_neg (by decide), if_neg (Nat.not_lt.mpr hroom), if_neg (by simp)]
  refine congrArg (State.cInc · _) ?_
  show (if _ then _ else _) = _
  split
  · exact hfair y rfl _ _
  · rfl

/-- A bay's frame within its limit reaches its class (R556). -/
theorem enqueue_bay {s : State} {n : Nat} {e : Egress} (hp : 128 ≤ e.port) (hp' : e.port < 140) (hg : s.gone SB0 n = false) (hq : s.wk.qEp = none)
    (hok : s.bayEgressOk (e.port - 128) e.octets = true) :
    s.enqueue n e = (s.cInc (EB_CNT (e.port - 128) 8)).enqueueOk { e with octets := bayPad e.octets } := by
  unfold State.enqueue
  extract_lets b
  rw [hg, hq, if_neg (by decide), if_neg (by omega), if_pos hp', if_neg (by simp), if_neg (by rw [hok]; decide)]

/-- The queue of a bay's class with a frame added at its end. -/
def State.queueWith (s : State) (e : Egress) : Queue :=
  { frames := (s.queue (8 * e.port + e.cls)).frames ++ [e], depth := (s.queue (8 * e.port + e.cls)).depth + (recFrame e.octets).length }

theorem queueWith_frames (s : State) (e : Egress) : (s.queueWith e).frames.isEmpty = false := by
  show List.isEmpty (_ ++ [e]) = false
  simp

/-- A bay's frame joins the queue of its class and is counted (R343, R556). -/
theorem enqueue_bay_admitted {s : State} {n : Nat} {e f : Egress} (hf : f = { e with octets := bayPad e.octets }) (hp : 128 ≤ e.port) (hp' : e.port < 140)
    (hel : e.elig = false) (hg : s.gone SB0 n = false) (hq : s.wk.qEp = none) (hok : s.bayEgressOk (e.port - 128) e.octets = true)
    (hu : s.bit (SC_CL_W0 e.port e.cls) 17 = true) (hw : s.bit (SC_PCFG e.port) 0 = false)
    (hroom : (s.queue (8 * e.port + e.cls)).depth + (recFrame (bayPad e.octets)).length ≤ s.fld (SC_CL_W3 e.port e.cls) 0 24) :
    s.enqueue n e = { s with held := s.held ++ [.add (EB_CNT (e.port - 128) 8) 1, .add (SC_CNT 0) 1]
                             sch := { s.sch with queues := assocPut s.sch.queues (8 * e.port + e.cls) (s.queueWith f) } } := by
  have hport : f.port = e.port := by rw [hf]
  have hcls : f.cls = e.cls := by rw [hf]
  have hsize : f.size = (recFrame f.octets).length := if_neg (by omega)
  have hroom' : (s.queue (8 * f.port + f.cls)).depth + f.size ≤ s.fld (SC_CL_W3 f.port f.cls) 0 24 := by
    rw [hsize, hport, hcls, hf]
    exact hroom
  rw [enqueue_bay hp hp' hg hq hok, ← hf,
    enqueueOk_admits (s := s.cInc _) (by rw [hf]; exact hel) (by rw [hport, hcls]; exact hu) (by rw [hport]; exact hw) (by omega) hroom', hsize]
  refine (congrArg (State.cInc · _) (setQueue_put (s.cInc _) _ (queueWith_frames s f))).trans ?_
  rw [hport, hcls]
  exact congrArg (fun l => { s with held := l, sch := { s.sch with queues := assocPut s.sch.queues (8 * e.port + e.cls) (s.queueWith f) } }) (List.append_assoc s.held [_] [_])

/-! ### Timer actions -/

theorem runActs_stop (n : Nat) (a : TimerAct) (rest : List TimerAct) (s : State) :
    State.runActs n (some a) (a :: rest) s = (s.doAct n a).onGw (fun g => { g with todo := rest }) := by
  rw [State.runActs]
  exact if_pos (by simp)

theorem rxTimeout_front {s : State} {n r : Nat} {rest : List TimerAct} (hr : s.ep.running = some n) (hp : s.gw.part = 2) (ht : s.gw.todo = .timeout r :: rest) :
    s.rxTimeout n r = (s.doAct n (.timeout r)).onGw (fun g => { g with todo := rest }) := by
  have h2 : s.toTimeouts n = s := if_neg (by rw [hp]; decide)
  simp only [State.rxTimeout, h2, ht, hr, hp, runActs_stop]
  simp

theorem pduCycleDue_front {s : State} {n p : Nat} {rest : List TimerAct} (hr : s.ep.running = some n) (hp : s.gw.part = 3) (ht : s.gw.todo = .send p :: rest)
    (hc : s.cycleDue n p = true) : s.pduCycleDue n p = (s.doAct n (.send p)).onGw (fun g => { g with todo := rest }) := by
  have h2 : s.toTimeouts n = s := if_neg (by rw [hp]; decide)
  have h3 : s.toSends n = s := by
    rw [State.toSends, h2]
    exact if_neg (by rw [hp]; decide)
  simp only [State.pduCycleDue, h3, ht, hr, hp, runActs_stop, hc]
  simp

/-- The budget spent: an action is counted and carried (R297). -/
theorem doAct_carried {s : State} {a : TimerAct} (n : Nat) (h : s.holdAllows a = true) (hf : s.gw.full = true) :
    s.doAct n a = (s.cInc (SG_CNT 8)).onGw (fun g => { g with carry := g.carry ++ [a], full := true }) := by
  unfold State.doAct
  extract_lets c x
  rw [h, hf, if_neg (by decide)]
  rfl

theorem doAct_timeout {s : State} {r : Nat} (n : Nat) (h : s.holdAllows (.timeout r) = true) (hf : s.gw.full = false) (hl : s.actCost (.timeout r) ≤ s.gw.left) :
    s.doAct n (.timeout r) = (s.onGw (fun g => { g with left := g.left - s.actCost (.timeout r) })).enterTimeout n r := by
  unfold State.doAct
  extract_lets c x
  rw [h, hf, if_neg (by decide), if_neg (by simpa using hl)]

theorem doAct_send {s : State} {p : Nat} (n : Nat) (h : s.holdAllows (.send p) = true) (hf : s.gw.full = false) (hl : s.actCost (.send p) ≤ s.gw.left) :
    s.doAct n (.send p) = (s.onGw (fun g => { g with left := g.left - s.actCost (.send p) })).sendPdu n p := by
  unfold State.doAct
  extract_lets c x
  rw [h, hf, if_neg (by decide), if_neg (by simpa using hl)]

/-- A frame-copy route's timeout costs nothing and shows in its state (R288, R293). -/
theorem enterTimeout_copy {s : State} (n : Nat) {r : Nat} (hc : (oct (s.route r) 0).testBit 3 = true) (he : s.bit SG_CTRL 0 = false) :
    s.enterTimeout n r = ((s.memWN (gwRState + 16 * r + 6) 1 1).cInc (SG_CNT 4)).cEvt SG_EVENT 0 := by
  unfold State.enterTimeout
  extract_lets e x y
  have hy : y = x := if_pos hc
  rw [hy]
  exact if_pos (by show (!s.bit SG_CTRL 0) = true; rw [he]; rfl)

theorem timeoutCost_copy {s : State} {r : Nat} (hc : (oct (s.route r) 0).testBit 3 = true) : s.actCost (.timeout r) = 0 := if_pos hc

/-- The state of a PDU as a transmission leaves it: the epoch, and the marks clear (R286). -/
theorem sent_state {s : State} (hw : Memory.wf s.mem = true) (p : Nat) {n : Nat} (hn : n < 2 ^ 48) :
    ∃ M, ((((s.memWN (gwPState + 16 * p) 6 n).setPduFlag p 0 false).setPduFlag p 1 false).setPduFlag p 2 false) = { s with mem := M } ∧
      ({ s with mem := M } : State).memN (gwPState + 16 * p) 6 = n ∧ (∀ k < 3, (({ s with mem := M } : State).pduFlags p).testBit k = false) ∧
      sameMem (gwPState + 16 * p) 7 s { s with mem := M } := by
  obtain ⟨y, hy⟩ : ∃ y, y = s.memWN (gwPState + 16 * p) 6 n := ⟨_, rfl⟩
  obtain ⟨y0, h0⟩ : ∃ z, z = y.setPduFlag p 0 false := ⟨_, rfl⟩
  obtain ⟨y1, h1⟩ : ∃ z, z = y0.setPduFlag p 1 false := ⟨_, rfl⟩
  obtain ⟨y2, h2⟩ : ∃ z, z = y1.setPduFlag p 2 false := ⟨_, rfl⟩
  rw [← hy, ← h0, ← h1, ← h2]
  have w : Memory.wf y.mem = true := hy ▸ wf_memWN hw ..
  have w0 : Memory.wf y0.mem = true := h0 ▸ wf_setPduFlag w ..
  have w1 : Memory.wf y1.mem = true := h1 ▸ wf_setPduFlag w0 ..
  have f0 := pduFlags_setPduFlag w p (k := 0) (by decide) false
  have f1 := pduFlags_setPduFlag w0 p (k := 1) (by decide) false
  have f2 := pduFlags_setPduFlag w1 p (k := 2) (by decide) false
  rw [← h0] at f0
  rw [← h1] at f1
  rw [← h2] at f2
  have hflags : sameMem (gwPState + 16 * p + 6) 1 y y2 :=
    (h0 ▸ setPduFlag_same w _ _ _ : sameMem _ 1 y y0).trans ((h1 ▸ setPduFlag_same w0 _ _ _ : sameMem _ 1 y0 y1).trans (h2 ▸ setPduFlag_same w1 _ _ _))
  have hep : sameMem (gwPState + 16 * p) 6 s y := hy ▸ sameMem_memWN s hw _ _ _
  have hn' : y2.memN (gwPState + 16 * p) 6 = n := by
    rw [hflags.memN (Or.inl (by omega)), hy, memN_memWN s hw, show 256 ^ 6 = 2 ^ 48 by decide, Nat.mod_eq_of_lt hn]
  have hfr : y2 = { s with mem := y2.mem } := h2 ▸ memWN_frame (h1 ▸ memWN_frame (h0 ▸ memWN_frame (hy ▸ memWN_frame rfl ..) ..) ..) ..
  have hfl : ∀ k < 3, (y2.pduFlags p).testBit k = false := fun k hk => by
    rw [f2, f1, f0]
    interval_cases k <;> simp
  have hsm : sameMem (gwPState + 16 * p) 7 s y2 := (hep.mono (by omega) (by omega)).trans (hflags.mono (by omega) (by omega))
  refine ⟨y2.mem, hfr, ?_⟩
  rw [← hfr]
  exact ⟨hn', hfl, hsm⟩

/-- The enqueue of an unprotected PDU of a bay without update bits (R286, R287). -/
theorem sendPdu_bay {s : State} {n p : Nat} {d : Octets} (hd : s.pduDesc p = d) (h4 : (oct d 0).testBit 4 = false) (h3 : (oct d 0).testBit 3 = false) (hp : 128 ≤ dPort d) :
    s.sendPdu n p =
      (((((s.cInc (SG_CNT 6)).enqueue n { port := dPort d, cls := dClass d, octets := s.image d, rel := n + 1 + s.ep.lag, pdu := some p }).memWN
        (gwPState + 16 * p) 6 n).setPduFlag p 0 false).setPduFlag p 1 false).setPduFlag p 2 false := by
  have hcan : s.isCanPort (dPort d) n = false := by
    rw [State.isCanPort, decide_eq_false (Nat.not_lt.mpr hp)]
    rfl
  have hcopy : (s.image d).take (s.copyLen n d (s.image d)) = s.image d := by
    rw [State.copyLen, hcan]
    exact List.take_of_length_le (length_memO ..).le
  simp only [State.sendPdu, hd, h4, h3, hcopy, Bool.false_eq_true, if_false]

theorem sendCost_plain {s : State} {p : Nat} {d : Octets} (hd : s.pduDesc p = d) (h4 : (oct d 0).testBit 4 = false) : s.actCost (.send p) = 1 := by
  show s.sendCost p = 1
  simp only [State.sendCost, hd, h4, Bool.false_eq_true, if_false]

end Sys2Proof.Machine
end

section
namespace Sys2Proof.Proofs
open Sys2Proof Sys2Proof.Machine

/-- Settles O46: the front action of the timer step, done or carried. -/
theorem gatewayTimerStep : Obligations.GatewayTimerStep := by
  unfold Obligations.GatewayTimerStep
  intro s n hrun hwf
  refine ⟨fun r rest hr hpart htodo hall => ⟨fun hfull hcopy hev => ?_, fun hfull => ?_⟩, ?_⟩
  · have heq := rxTimeout_front hrun hpart htodo
    rw [doAct_timeout n hall hfull ((timeoutCost_copy hcopy).trans_le (Nat.zero_le _))] at heq
    simp only [timeoutCost_copy hcopy, Nat.sub_zero] at heq
    rw [enterTimeout_copy (s := s.onGw _) n hcopy hev] at heq
    have hm := memN_memWN s hwf (gwRState + 16 * r + 6) 1 1
    have hs := sameMem_memWN s hwf (gwRState + 16 * r + 6) 1 1
    have hq : s.rxTimeout n r = { s with mem := (s.memWN (gwRState + 16 * r + 6) 1 1).mem, held := s.held ++ [.add (SG_CNT 4) 1, .or SG_EVENT 1],
                                         gw := { s.gw with todo := rest } } := by
      rw [heq]
      exact congrArg (fun l => { s with mem := (s.memWN (gwRState + 16 * r + 6) 1 1).mem, held := l, gw := { s.gw with todo := rest } }) (List.append_assoc s.held [_] [_])
    rw [memN_one] at hm
    generalize hM : (s.memWN (gwRState + 16 * r + 6) 1 1).mem = M at hq
    rw [memWN_frame (s := s) (t := s) rfl, hM] at hm hs
    exact after_hb rfl hq rfl fun b hb => ⟨BitVec.eq_of_toNat_eq hm, hs, rfl, rfl, rfl, hb⟩
  · have heq := rxTimeout_front hrun hpart htodo
    rw [doAct_carried n hall hfull] at heq
    have hq : s.rxTimeout n r = { s with held := s.held ++ [.add (SG_CNT 8) 1], gw := { s.gw with todo := rest, carry := s.gw.carry ++ [.timeout r] } } := by
      rw [heq, ← hfull]
      rfl
    exact after_hb rfl hq rfl fun b hb => ⟨rfl, rfl, rfl, hb⟩
  · intro p rest d hp hn hpart htodo hall hfull hleft hd hdue h4 h3 hp1 hp2 hg hqe hok hu hw hroom
    have heq := pduCycleDue_front hrun hpart htodo hdue
    rw [doAct_send n hall hfull ((sendCost_plain hd h4).trans_le hleft)] at heq
    simp only [sendCost_plain hd h4] at heq
    rw [sendPdu_bay (s := s.onGw _) hd h4 h3 hp1, show (s.onGw fun g => { g with left := g.left - 1 }).image d = s.image d from rfl,
      show (s.onGw fun g => { g with left := g.left - 1 }).ep.lag = s.ep.lag from rfl] at heq
    obtain ⟨f, hf⟩ : ∃ f : Egress, f = { port := dPort d, cls := dClass d, octets := bayPad (s.image d), rel := n + 1 + s.ep.lag, pdu := some p } := ⟨_, rfl⟩
    have hport : f.port = dPort d := by rw [hf]
    have hcls : f.cls = dClass d := by rw [hf]
    have hoct : f.octets = bayPad (s.image d) := by rw [hf]
    have hen := enqueue_bay_admitted (s := (s.onGw fun g => { g with left := g.left - 1 }).cInc (SG_CNT 6)) (n := n)
      (e := { port := dPort d, cls := dClass d, octets := s.image d, rel := n + 1 + s.ep.lag, pdu := some p }) hf hp1 hp2 rfl hg hqe hok hu hw hroom
    obtain ⟨x, hx⟩ : ∃ x, x = s.queueWith f := ⟨_, rfl⟩
    have hxe : x = { frames := (s.queue (8 * dPort d + dClass d)).frames ++ [f]
                     depth := (s.queue (8 * dPort d + dClass d)).depth + (recFrame (bayPad (s.image d))).length } := by
      rw [hx, State.queueWith, hport, hcls, hoct]
    have hne : x.frames.isEmpty = false := hx ▸ queueWith_frames s f
    have hsame := queue_setQueue_same s (8 * dPort d + dClass d) hne
    have hother := fun k (hk : k ≠ 8 * dPort d + dClass d) => queue_setQueue_ne s hne hk
    rw [setQueue_put s _ hne] at hsame hother
    have hz : ((s.onGw fun g => { g with left := g.left - 1 }).cInc (SG_CNT 6)).enqueue n
        { port := dPort d, cls := dClass d, octets := s.image d, rel := n + 1 + s.ep.lag, pdu := some p } =
        { s with held := s.held ++ [.add (SG_CNT 6) 1, .add (EB_CNT (dPort d - 128) 8) 1, .add (SC_CNT 0) 1], gw := { s.gw with left := s.gw.left - 1 },
                 sch := { s.sch with queues := assocPut s.sch.queues (8 * dPort d + dClass d) x } } := by
      rw [hen, hx]
      exact congrArg (fun l => { s with held := l, gw := { s.gw with left := s.gw.left - 1 },
                                        sch := { s.sch with queues := assocPut s.sch.queues (8 * dPort d + dClass d) (s.queueWith f) } }) (List.append_assoc s.held [_] [_, _])
    generalize hQ : assocPut s.sch.queues (8 * dPort d + dClass d) x = Q at hsame hother hz
    rw [hxe, hf] at hsame
    generalize ((s.onGw fun g => { g with left := g.left - 1 }).cInc (SG_CNT 6)).enqueue n
        { port := dPort d, cls := dClass d, octets := s.image d, rel := n + 1 + s.ep.lag, pdu := some p } = z at heq hz
    obtain ⟨M, hM, hep, hfl, hsm⟩ := sent_state (s := z) (by rw [hz]; exact hwf) p hn
    have hq : s.pduCycleDue n p = { z with mem := M, gw := { z.gw with todo := rest } } := by
      rw [heq]
      exact congrArg (fun y : State => y.onGw fun g => { g with todo := rest }) hM
    rw [hz] at hep hfl hsm hq
    exact after_hb rfl hq rfl fun b hb => ⟨hsame, hother, hep, hfl, hsm, rfl, rfl, rfl, hb⟩

end Sys2Proof.Proofs
end

section
/-! PROOFS. Heartbeats, tell words and the two paths between the twins (R436 to R444). -/
set_option Elab.async false
namespace Sys2Proof.Machine
open Sys2Proof

/-- An event flagged and a counter advanced. -/
theorem evt_inc_facts (x : State) {a b k : Nat} (h : a ≠ b) (hk : k < 32) :
    ((x.evt a k).inc b).bit a k = true ∧ ((x.evt a k).inc b).rdN b = (x.rdN b + 1) % 2 ^ 32 ∧ RegsOnly [a, b] x ((x.evt a k).inc b) := by
  refine ⟨?_, ?_, ((RegsOnly.refl _ x).evt (by simp) k).inc (by simp) 1⟩
  · rw [State.inc, bit_wrN_ne _ _ _ _ _ h]
    exact bit_evt_same x a k hk
  · rw [rdN_inc_same, rdN_evt_ne _ _ _ _ (Ne.symm h)]

theorem renewFrom_renews {s : State} (t : Nat) (h : s.renews = true) :
    s.renewFrom t = s.onTw (fun w => { w with renew := t, expiry := if w.nopeer then t + 200000 else w.expiry, nopeer := false }) := if_pos h

theorem renewFrom_not {s : State} (t : Nat) (h : s.renews = false) : s.renewFrom t = s := if_neg (by rw [h]; decide)

/-- A renewal at a Shadow without an unagreed epoch moves its view of the expiry on (R436). -/
theorem renewalGot_agreed {s : State} (stamp : Nat) (hm : s.mode = .shadow) (hu : s.tw.unagreed = []) :
    s.renewalGot stamp = s.onTw (fun w => { w with expiry := max w.expiry (stamp + 200000) }) := by
  unfold State.renewalGot
  extract_lets x
  have hx : x.tw.unagreed = [] := hu
  rw [hm, hx]
  rfl

/-- An acknowledgement of a renewal that the Lead has sent (R436, R447). -/
theorem ackGot_lead {s : State} {stamp : Nat} (hm : s.mode = .lead) (hl : s.tw.lease = true) (hn : s.tw.nopeer = false) (hr : stamp ≤ s.tw.renew) :
    s.ackGot stamp = s.onTw (fun w => { w with expiry := max w.expiry (stamp + 200000), fenceAt := some (max w.expiry (stamp + 200000)) }) := by
  unfold State.ackGot
  rw [hm, hl, hn]
  exact if_neg (by simpa using hr)

/-- The tell word that begins at the heartbeat instant `t`, but for its parity (R442). -/
def State.tellWord (s : State) (t : Nat) : TellWord :=
  { sync := 0x0D, pid := s.pid, renew := s.renews, ack := s.tw.tellAck.isSome, seq := s.tw.tellAck.getD (t / 25000 % 256), genl := s.tw.gen % 256 }

/-- The heartbeat of the instant `t` (R441). -/
def State.heartbeat (s : State) (t : Nat) : Heartbeat :=
  { pid := s.pid, role := s.roleCode, renew := s.renews, ackv := s.tw.ackDue.isSome, fenced := s.tw.fenced, gen := s.tw.gen, txt := t,
    ack := s.tw.ackDue.getD 0, rxt := s.tw.hbGot, epoch := ((s.tick t).epochNow.map (· % 2 ^ 48)).getD (Config.noEpoch t).toNat }

/-- What a renewal changes beside the twin's unit: nothing, and of that nothing that a heartbeat or a tell word tells. -/
theorem renewFrom_tells (s : State) (t : Nat) : ∃ w : Twin, s.renewFrom t = { s with tw := w } ∧ w.tellAck = s.tw.tellAck ∧ w.gen = s.tw.gen ∧ w.pairId = s.tw.pairId ∧
    w.inStep = s.tw.inStep ∧ w.ackDue = s.tw.ackDue ∧ w.fenced = s.tw.fenced ∧ w.hbGot = s.tw.hbGot := by
  by_cases h : s.renews = true
  · rw [renewFrom_renews t h]
    exact ⟨_, rfl, rfl, rfl, rfl, rfl, rfl, rfl, rfl⟩
  · rw [renewFrom_not t (by simpa using h)]
    exact ⟨s.tw, rfl, rfl, rfl, rfl, rfl, rfl, rfl, rfl⟩

theorem tellWordSend_sends {s : State} {t : Nat} (hd : s.dieOn = true) (hp : s.pairedFrame = true) (he : s.tellEn = true) (ht : t % 25000 = 0) :
    s.tellWordSend t = ((s.tick t).renewFrom t).onTw (fun x => { x with tellAck := none, tellOut := some { s.tellWord t with par := tellPar (s.tellWord t) } }) := by
  obtain ⟨w, hw, ha, hg, hi, -⟩ := renewFrom_tells (s.tick t) t
  unfold State.tellWordSend
  extract_lets x renew y v
  have hv : v = s.tellWord t := by
    show ({ sync := 0x0D, pid := y.pid, renew := renew, ack := y.tw.tellAck.isSome, seq := y.tw.tellAck.getD (t / 25000 % 256), genl := y.tw.gen % 256 } : TellWord) = _
    rw [show y = { s.tick t with tw := w } from hw, State.pid, hi]
    simp only [ha, hg]
    rfl
  rw [hv]
  exact if_neg (by
    show ¬(!s.dieOn || !s.pairedFrame || !s.tellEn || t % 25000 != 0) = true
    rw [hd, hp, he, ht]
    decide)

theorem heartbeatSend_sends {s : State} {t : Nat} (hd : s.dieOn = true) (hp : s.pairedFrame = true) (ht : t % 25000 = 0) :
    s.heartbeatSend t = ((s.tick t).renewFrom t).onTw (fun x => { x with hbOut := some (s.heartbeat t) }) := by
  obtain ⟨w, hw, -, hg, hi, hst, ha, hf, hgot⟩ := renewFrom_tells (s.tick t) t
  unfold State.heartbeatSend
  extract_lets x renew y
  have hy : y = { s.tick t with tw := w } := hw
  refine (if_neg (by
    show ¬(!s.dieOn || !s.pairedFrame || t % 25000 != 0) = true
    rw [hd, hp, ht]
    decide)).trans ?_
  show y.onTw _ = y.onTw _
  have hrole : y.roleCode = s.roleCode := by
    rw [hy, State.roleCode, hst]
    rfl
  have hpid : y.pid = s.pid := by
    rw [hy, State.pid, hi]
    rfl
  have hnow : y.epochNow = (s.tick t).epochNow := by
    rw [hy]
    rfl
  have hyw : y.tw = w := by rw [hy]
  simp only [State.onTw, hrole, hpid, hnow, hyw, ha, hf, hg, hgot]
  rfl

theorem tellWordReceived_renewal {s : State} {t : Nat} {w : TellWord} (hd : s.dieOn = true) (hp : s.pairedFrame = true) (he : s.tellEn = true) (hst : w.state = 0)
    (hsy : w.sync = 0x0D) (hpar : w.par = tellPar w) (hpid : w.pid % 2 ≠ s.pid) (hr : w.renew = true) (ha : w.ack = false) (hm : s.mode = .shadow) (hu : s.tw.unagreed = []) :
    s.tellWordReceived t w = (s.tick t).onTw (fun x => { x with
        tellSt := 0, expiry := max x.expiry (seqInstant t w.seq + 200000), tellAck := some (w.seq % 256), tellGot := t
        tellRun := if t / 25000 = x.tellGot / 25000 + 1 then x.tellRun + 1 else 1 }) := by
  unfold State.tellWordReceived
  extract_lets x good y z a v
  have hgood : good = true := by
    show (w.state % 4 == 0 && w.sync == 0x0D && w.par == tellPar w) = true
    rw [hst, hsy, ← hpar]
    simp
  have hy : y = (s.tick t).onTw (fun x => { x with tellSt := 0 }) := by
    show x.onTw _ = x.onTw _
    rw [hgood, hst]
    rfl
  have hpid' : (w.pid % 2 == y.pid) = false := by
    rw [hy]
    exact beq_false_of_ne hpid
  have hv : v = (z.renewalGot a).onTw (fun x => { x with tellAck := some (w.seq % 256) }) := if_pos (by
    rw [hr, show z.mode = .shadow by rw [← hm]; rfl]
    rfl)
  rw [if_neg (by show ¬(!s.dieOn) = true; rw [hd]; decide)]
  rw [if_neg (by
    rw [hgood, hpid', show y.pairedFrame = true from hp, show y.tellEn = true from he]
    decide), if_neg (by rw [ha]; decide), hv, renewalGot_agreed (s := z) a hm hu]
  show ((y.onTw _).onTw _).onTw _ = _
  rw [hy]
  simp only [State.onTw, beq_iff_eq]
  rfl

end Sys2Proof.Machine
end

section
namespace Sys2Proof.Proofs
open Sys2Proof Sys2Proof.Machine

/-- A path down. -/
theorem after_pathDown (s : State) (t : Nat) (tell : Bool) (hd : s.dieOn = true) (hup : (if tell then s.tw.tellUp else s.tw.scfUp) = true)
    (hq : s.pathQuiet t tell = true) (hf : s.fld FLT_STATUS 0 5 = 0) : After (.pathDown t tell) s fun u =>
      (if tell then u.tw.tellUp else u.tw.scfUp) = false ∧ (if tell then u.tw.scfUp else u.tw.tellUp) = (if tell then s.tw.scfUp else s.tw.tellUp) ∧
      u.bit TW_EVENT (if tell then 1 else 0) = true ∧ u.rdN (TW_CNT (if tell then 1 else 0)) = (s.rdN (TW_CNT (if tell then 1 else 0)) + 1) % 2 ^ 32 ∧
      faultNoted 0 0x0A 0x21 0xFF s u ∧ sameRegs (TW_EVENT :: TW_CNT (if tell then 1 else 0) :: faultRegs 0) s u ∧
      u = { s with now := max s.now t, regs := u.regs, tw := u.tw, hb := u.hb } := by
  obtain ⟨w, hw⟩ : ∃ w : Twin, w = { s.tw with
    hbRun := if tell then s.tw.hbRun else 0, tellRun := if tell then 0 else s.tw.tellRun, tellUp := s.tw.tellUp && !tell, scfUp := s.tw.scfUp && tell
    peerIn := s.tw.peerIn && tell } := ⟨_, rfl⟩
  obtain ⟨x, hx⟩ : ∃ x : State, x = { s with now := max s.now t, tw := w } := ⟨_, rfl⟩
  obtain ⟨k, hk⟩ : ∃ k, k = b2n tell := ⟨_, rfl⟩
  have hk' : k = if tell = true then 1 else 0 := by rw [hk]; cases tell <;> rfl
  have hk2 : k < 2 := by rw [hk']; split <;> decide
  have heq : s.pathDown t tell = ((x.evt TW_EVENT k).inc (TW_CNT k)).notice 0x0A 0x21 := by
    unfold State.pathDown
    extract_lets y z
    have hz : z = x := by rw [hx, hw]; rfl
    rw [hz, ← hk]
    exact if_neg (by
      show ¬(!s.dieOn || !(if tell = true then s.tw.tellUp else s.tw.scfUp) || !s.pathQuiet t tell) = true
      rw [hd, hup, hq]
      decide)
  rw [← hk']
  have hne : TW_EVENT ≠ TW_CNT k := by unfold TW_EVENT TW_CNT; omega
  obtain ⟨hb, hc, ho⟩ := evt_inc_facts x hne (k := k) (by omega)
  obtain ⟨y, hy⟩ : ∃ y, y = (x.evt TW_EVENT k).inc (TW_CNT k) := ⟨_, rfl⟩
  rw [← hy] at hb hc ho heq
  have hreg : ∀ a ∈ FLT_CNT 0 :: FLT_STATUS :: EP_CTRL :: [], a ∉ [TW_EVENT, TW_CNT k] := fun a ha hm => by
    obtain h | h : a = TW_EVENT ∨ a = TW_CNT k := by simpa using hm
    all_goals
      subst h
      revert ha
      interval_cases k <;> decide
  have htw : ∀ a ∈ TW_EVENT :: TW_CNT k :: [], a ∉ faultRegs 0 := by interval_cases k <;> decide
  have hyf : y.fld FLT_STATUS 0 5 = 0 := by
    rw [ho.same.fld (hreg _ (by simp)), hx]
    exact hf
  rw [notice_free 0x0A 0x21 0xFF hyf] at heq
  have hn : faultNoted 0 0x0A 0x21 0xFF s _ := (noted_now y (cls := 0) (cause := 0x0A) (src := 0x21) (unit := 0xFF) (by decide) (by decide) (by decide) (by decide)).left
    (by rw [ho.rdN (hreg _ (by simp)), hx]; rfl)
  have hno := noted_only y 0 0x0A 0x21 0xFF y.stampEp y.now
  have hall : RegsOnly (TW_EVENT :: TW_CNT k :: faultRegs 0) x (y.noted 0 0x0A 0x21 0xFF y.stampEp y.now) :=
    (ho.mono (by simp)).trans (hno.mono (by simp))
  rw [← hno.same.bit (htw _ (by simp))] at hb
  rw [← hno.rdN (htw _ (by simp)), hx] at hc
  generalize y.noted 0 0x0A 0x21 0xFF y.stampEp y.now = v at *
  obtain ⟨R, hR⟩ := hall.regs_eq
  have hsame : sameRegs (TW_EVENT :: TW_CNT k :: faultRegs 0) s v := hall.same.left (by rw [hx])
  rw [hR, hx] at hn hb hc heq hsame
  rw [hw] at *
  refine after_of rfl heq fun b _ => ⟨?_, ?_, hb, hc, hn, hsame, rfl⟩
  all_goals cases tell <;> simp

/-- Settles O32: the word sent, the renewal received, and the paths down and up. -/
theorem tellPairAndPaths : Obligations.TellPairAndPaths := by
  unfold Obligations.TellPairAndPaths
  refine ⟨fun s t hd hp he ht => ?_, fun s t w hd hp he hst hsy hpar hpid hr ha hm hu => ?_, after_pathDown, fun s t tell hd hp hup hen hrun => ?_⟩
  · have heq := tellWordSend_sends hd hp he ht
    obtain ⟨w, hw, -⟩ := renewFrom_tells (s.tick t) t
    rw [hw] at heq
    exact after_hb rfl heq rfl fun b hb => ⟨⟨_, rfl, rfl, rfl, rfl, rfl, rfl, rfl, rfl⟩, rfl, rfl, hb⟩
  · exact after_hb rfl (tellWordReceived_renewal hd hp he hst hsy hpar hpid hr ha hm hu) rfl fun b hb => ⟨rfl, rfl, hb⟩
  · have heq : s.pathUp t tell =
        ((s.tick t).onTw (fun w => { w with tellUp := w.tellUp || tell, scfUp := w.scfUp || !tell, reached := w.reached || !tell })).evt TW_EVENT 2 := by
      refine if_neg ?_
      show ¬(!s.dieOn || !s.pairedFrame ||
        (if tell = true then s.tw.tellUp || !s.tellEn || decide (s.tw.tellRun < 4) else s.tw.scfUp || decide (s.tw.hbRun < 4))) = true
      rw [hd, hp]
      cases tell with
      | false => simp_all
      | true => simp_all
    obtain ⟨x, hx⟩ : ∃ x : State, x = { s with
        now := max s.now t, tw := { s.tw with tellUp := s.tw.tellUp || tell, scfUp := s.tw.scfUp || !tell, reached := s.tw.reached || !tell } } := ⟨_, rfl⟩
    have hv : s.pathUp t tell = x.evt TW_EVENT 2 := by
      rw [heq, hx]
      rfl
    have hb := bit_evt_same x TW_EVENT 2 (by decide)
    have ho := (RegsOnly.refl [TW_EVENT] x).evt (a := TW_EVENT) (by simp) 2
    generalize x.evt TW_EVENT 2 = v at *
    obtain ⟨R, hR⟩ := ho.regs_eq
    have hsame : sameRegs [TW_EVENT] s v := ho.same.left (by rw [hx])
    rw [hR, hx] at hb hv hsame
    refine after_of rfl hv fun b _ => ⟨?_, ?_, hb, hsame, rfl⟩
    all_goals cases tell <;> simp

end Sys2Proof.Proofs
end

section
/-! PROOFS. Epoch boundaries, and what drives the pins: a unit that stops driving and one that begins to (R29, R48, R137, R446). -/
set_option Elab.async false
namespace Sys2Proof.Machine
open Sys2Proof

/-! ### Pins let go -/

theorem idlePins_not_tenon (x : Mortise) : x.idlePins.pins ≠ .tenon := by
  show (if (x.pins == .tenon) = true then PinCond.pidle else x.pins) ≠ .tenon
  split
  · decide
  · rename_i h
    exact fun e => h (by rw [e]; rfl)

theorem nth_map_idlePins (l : List Mortise) (m : Nat) : nth (l.map Mortise.idlePins) m = (nth l m).idlePins := List.getD_map l default Mortise.idlePins

theorem tecRegs_below {a : Nat} (h : a ∈ tecRegs) : a < 0x180000 := by
  simp only [tecRegs, List.mem_flatMap, List.mem_range, List.mem_cons, List.not_mem_nil, or_false] at h
  obtain ⟨m, hm, rfl | rfl⟩ := h
  · unfold CN_ERRC
    omega
  · unfold CN_STATUS
    omega

theorem TW_not_tec {a : Nat} (h : 0x400000 ≤ a) : a ∉ tecRegs := fun hm => absurd (tecRegs_below hm) (by omega)

theorem stopDriving_only (s : State) :
    RegsOnly tecRegs { s with mz := s.mz.map Mortise.idlePins, tw := { s.tw with driving := false } } s.stopDriving := tecZero_only _

/-- TEC at rest, an event of the twin flagged and a counter of the twin advanced. -/
theorem tec_event_facts {x z : State} (h : RegsOnly tecRegs x z) {k j : Nat} (hk : k < 32) :
    ((z.evt TW_EVENT k).inc (TW_CNT j)).bit TW_EVENT k = true ∧
      ((z.evt TW_EVENT k).inc (TW_CNT j)).rdN (TW_CNT j) = (x.rdN (TW_CNT j) + 1) % 2 ^ 32 ∧
      RegsOnly (TW_EVENT :: TW_CNT j :: tecRegs) x ((z.evt TW_EVENT k).inc (TW_CNT j)) := by
  obtain ⟨hb, hc, ho⟩ := evt_inc_facts z (a := TW_EVENT) (b := TW_CNT j) (k := k) (by unfold TW_EVENT TW_CNT; omega) hk
  refine ⟨hb, ?_, (h.mono (by simp)).trans (ho.mono (by simp))⟩
  rw [hc, h.rdN (TW_not_tec (by unfold TW_CNT; omega))]

/-! ### The epoch being stamped, while inputs are stamped -/

theorem stampIn_epCur (s : State) (i : Input) : (s.stampIn i).ep.cur = s.ep.cur := by
  unfold State.stampIn
  split <;> rfl

theorem canReport_epCur (s : State) (m code obj reason idw rowcol : Nat) : (s.canReport m code obj reason idw rowcol).ep.cur = s.ep.cur := by
  unfold State.canReport
  split
  · exact stampIn_epCur s _
  · rfl

theorem t1sReport_epCur (s : State) (m code reason : Nat) (drive : Bool) : (s.t1sReport m code reason drive).ep.cur = s.ep.cur := by
  unfold State.t1sReport
  split
  · rfl
  · exact stampIn_epCur s _

theorem canBeginDriving_epCur (s : State) (m : Nat) : (s.canBeginDriving m).ep.cur = s.ep.cur := by
  unfold State.canBeginDriving
  extract_lets lone fresh x y z
  have hz : z.ep.cur = s.ep.cur := rfl
  split
  · exact (canReport_epCur ..).trans hz
  · exact hz

theorem t1sWithdraw_epCur (s : State) (m : Nat) : (s.t1sWithdraw m).ep.cur = s.ep.cur := by
  unfold State.t1sWithdraw
  extract_lets k x
  split
  · rfl
  · exact foldl_view (fun z => z.ep.cur) _ _ s fun z _ _ => t1sReport_epCur z _ _ _ _

theorem beginDrivingMort_epCur (s : State) (m : Nat) : (s.beginDrivingMort m).ep.cur = s.ep.cur := by
  unfold State.beginDrivingMort
  split
  · rfl
  · extract_lets x
    split
    · exact canBeginDriving_epCur x m
    · rfl
    · exact t1sWithdraw_epCur _ m

theorem beginDriving_epCur (s : State) (t : Nat) : (beginDriving t s).ep.cur = s.ep.cur := by
  unfold beginDriving
  extract_lets x
  split
  · rfl
  · exact foldl_view (fun z => z.ep.cur) _ _ _ fun z m _ => beginDrivingMort_epCur z m

/-- A unit that may drive drives after it has begun to. -/
theorem beginDriving_drives {s : State} (t : Nat) (hd : s.dieOn = true) (hm : s.mayDrive = true) : (beginDriving t s).tw = { s.tw with driving := true } := by
  unfold beginDriving
  extract_lets x
  by_cases h : s.tw.driving = true
  · rw [if_pos (by rw [show x.tw.driving = true from h]; simp)]
    show s.tw = _
    rw [← h]
  · rw [if_neg (by rw [show x.dieOn = true from hd, show x.mayDrive = true from hm, show x.tw.driving = false from Bool.eq_false_iff.mpr h]; decide)]
    exact foldl_view (fun z => z.tw) _ _ _ fun z m _ => (State.beginDrivingMort_keeps (c := 0x2420) rfl (.refl _ z) m).at_ 21 rfl

theorem beginDriving_mode (s : State) (t : Nat) : (beginDriving t s).mode = s.mode := (beginDriving_keeps (c := 0x202422) rfl (.refl _ s) t).at_ 4 rfl

/-! ### Boundaries -/

/-- The epoch engine after the boundary that ends epoch `n`. -/
def State.nextEpoch (s : State) (n : Nat) : EpochEng :=
  { s.ep with
    cur := some (n + 1), start := s.ep.stop, stop := s.ep.stop + s.elen
    starts := (if s.ep.starts.length ≤ 8 then s.ep.starts else s.ep.starts.drop 1) ++ [(n + 1, s.ep.stop)] }

/-- The state at a boundary before the changes of mode that are due. -/
def State.atBoundary (s : State) (t n : Nat) : State :=
  ({ s with now := max s.now t, ep := s.nextEpoch n } : State).slewOut.gmSend s.ep.start s.ep.stop

theorem epochBoundary_due {s : State} {t n : Nat} (hd : s.dieOn = true) (hc : s.ep.cur = some n) (hs : s.ep.stop ≤ t) :
    s.epochBoundary t = (s.atBoundary t n).demoteNow.takeLead.resumePins := by
  unfold State.epochBoundary
  extract_lets x
  rw [show x.ep.cur = some n from hc]
  show (if (!s.dieOn || decide (t < s.ep.stop)) = true then x else _) = _
  rw [hd, decide_eq_false (by omega)]
  rfl

theorem atBoundary_frame (s : State) (t n : Nat) : s.atBoundary t n = { s with now := max s.now t, ep := s.nextEpoch n, tb := (s.atBoundary t n).tb } :=
  (State.gmSend_keeps (c := 0x200) rfl (State.slewOut_keeps (c := 0x200) rfl (.refl _ { s with now := max s.now t, ep := s.nextEpoch n })) _ _).frame

theorem demoteNow_none {s : State} (h : s.tw.demote = false) : s.demoteNow = s := if_pos (by rw [h]; rfl)

theorem takeLead_none {s : State} (h : s.tw.takeAt = none) : s.takeLead = s := by rw [State.takeLead, h]

theorem resumePins_none {s : State} (h : s.wk.pinsAt = none) : s.resumePins = s := by rw [State.resumePins, h]

theorem demoteNow_due {s : State} (h : s.tw.demote = true) (hh : s.flt.holdAt = none) :
    s.demoteNow = ({ s.leaveHold with mode := .shadow } : State).onTw (fun w => { w with demote := false, coldHold := false, holdDrive := false }) :=
  if_neg (by rw [h, hh]; decide)

end Sys2Proof.Machine
end

section
namespace Sys2Proof.Proofs
open Sys2Proof Sys2Proof.Machine

/-- Settles O26: the boundary, the hand-over before and after the close, and the close alone. -/
theorem epochsAndClosing : Obligations.EpochsAndClosing := by
  unfold Obligations.EpochsAndClosing
  refine ⟨fun s t n hd hc hs hgm hdem htake hpins => ?_, fun s t cls port i hfind => ⟨fun hshut => ?_, fun hshut hf => ?_⟩, fun s t n c hser hpair hc hn hk he => ?_⟩
  · have hgm' : s.atBoundary t n = ({ s with now := max s.now t, ep := s.nextEpoch n } : State).slewOut := if_pos (by
      show (!s.tb.gm) = true
      rw [hgm]
      rfl)
    have heq := epochBoundary_due hd hc hs
    rw [demoteNow_none (by rw [atBoundary_frame]; exact hdem), takeLead_none (by rw [atBoundary_frame]; exact htake), resumePins_none (by rw [atBoundary_frame]; exact hpins), hgm'] at heq
    exact after_hb rfl heq rfl fun b hb => ⟨rfl, List.getLast?_concat, rfl, rfl, hb⟩
  · have heq : s.inputHandover t cls port = { s with now := max s.now t, ep := { s.ep with handing := s.ep.handing.erase i, inputs := s.ep.inputs ++ [i] } } := by
      unfold State.inputHandover
      extract_lets x
      rw [show x.ep = s.ep from rfl, hfind]
      exact if_neg (by rw [show (x.onEp _).ledgerShut i.stamp = s.ledgerShut i.stamp from rfl, hshut]; decide)
    exact after_hb rfl heq rfl fun b hb => ⟨rfl, rfl, hb⟩
  · obtain ⟨x, hx⟩ : ∃ x : State, x = { s with now := max s.now t, ep := { s.ep with handing := s.ep.handing.erase i } } := ⟨_, rfl⟩
    have heq : s.inputHandover t cls port = (x.evt EP_EVENT 11).notice 0x0B 0x20 := by
      unfold State.inputHandover
      extract_lets z
      rw [show z.ep = s.ep from rfl, hfind, hx]
      exact if_pos hshut
    have ho := (RegsOnly.refl [EP_EVENT] x).evt (a := EP_EVENT) (by simp) 11
    have hb := bit_evt_same x EP_EVENT 11 (by decide)
    generalize x.evt EP_EVENT 11 = y at *
    have hyf : y.fld FLT_STATUS 0 5 = 0 := by
      rw [ho.same.fld (by decide), hx]
      exact hf
    rw [notice_free 0x0B 0x20 0xFF hyf] at heq
    have hn : faultNoted 0 0x0B 0x20 0xFF s _ := (noted_now y (cls := 0) (cause := 0x0B) (src := 0x20) (unit := 0xFF) (by decide) (by decide) (by decide) (by decide)).left
      (by rw [ho.rdN (by decide), hx]; rfl)
    have hno := noted_only y 0 0x0B 0x20 0xFF y.stampEp y.now
    rw [← hno.same.bit (by decide)] at hb
    have hall : RegsOnly (EP_EVENT :: faultRegs 0) x (y.noted 0 0x0B 0x20 0xFF y.stampEp y.now) := (ho.mono (by simp)).trans (hno.mono (by simp))
    generalize y.noted 0 0x0B 0x20 0xFF y.stampEp y.now = v at *
    obtain ⟨R, hR⟩ := hall.regs_eq
    have hsame : sameRegs (EP_EVENT :: faultRegs 0) s v := hall.same.left (by rw [hx])
    rw [hR, hx] at hn hb heq hsame
    exact after_of rfl heq fun b _ => ⟨rfl, hb, hn, hsame, rfl⟩
  · have heq : s.ledgerClose t n = (s.tick t).onEp (fun e => { e with closed := some n }) := by
      refine if_pos ?_
      show (s.serving && !s.paired && s.ep.cur.any (fun c => n < c) && !s.ep.closed.any (fun c => n ≤ c) && decide (s.epochEnd n + 1500 ≤ t)) = true
      have hno : s.ep.closed.any (fun c => n ≤ c) = false := by
        cases hcl : s.ep.closed with
        | none => rfl
        | some k => simpa using hk k hcl
      rw [hser, hpair, hc, hno]
      simp [hn, he]
    exact after_hb rfl heq rfl fun b hb => ⟨rfl, rfl, hb⟩

end Sys2Proof.Proofs
end

section
/-! PROOFS. Heartbeats, the lease, takeover and the fence (R84, R436 to R447). -/
set_option Elab.async false
namespace Sys2Proof.Machine
open Sys2Proof

/-! ### Heartbeats -/

/-- The twin's unit once a heartbeat of the peer has been seen (R436, R441, R444). -/
def Twin.seen (w : Twin) (t : Nat) (h : Heartbeat) : Twin :=
  { w with
    reached := true, pgen := h.gen, peerRole := h.role, hbGot := t, hbSeen := some (h.txt, t),
    hbRun := if w.hbSeen.any (fun x => x.1 + 25000 == h.txt) then w.hbRun + 1 else 1
    peerIn := (h.role == 1 || h.role == 2), peerInStep := (w.peerInStep && h.role == 1) }

/-- The state of a unit that has seen a heartbeat, before what it carries acts. -/
def State.seen (s : State) (t : Nat) (h : Heartbeat) : State := { s with now := max s.now t, tw := s.tw.seen t h }

/-- The renewal that a heartbeat carries reaches a Shadow (R436). -/
def State.renewedBy (s : State) (t : Nat) (h : Heartbeat) : State :=
  if h.renew && s.mode == .shadow then ((s.seen t h).renewalGot h.txt).onTw (fun w => { w with ackDue := some h.txt }) else s.seen t h

theorem renewedBy_plain {h : Heartbeat} (s : State) (t : Nat) (hr : h.renew = false) : s.renewedBy t h = s.seen t h := if_neg (by rw [hr]; simp)

/-- A heartbeat that finds none sent: what it carries acts, and its generation (R436, R438). -/
theorem heartbeatReceived_eq {s : State} {t : Nat} {h : Heartbeat} (hd : s.dieOn = true) (hp : s.pairedFrame = true) (ho : s.tw.hbOut = none) :
    s.heartbeatReceived t h = (if h.ackv then (s.renewedBy t h).ackGot h.ack else s.renewedBy t h).staleGot h.gen := by
  unfold State.heartbeatReceived
  extract_lets x sent y z a b
  have hsent : sent = none := congrArg (Option.map _) ho
  have hb : b = a := by simp only [b, hsent]
  rw [if_neg (by show ¬(!s.dieOn || !s.pairedFrame) = true; rw [hd, hp]; decide), hb]
  rfl

/-- A generation that is not higher leaves a unit as it is (R438). -/
theorem staleGot_le {s : State} {g : Nat} (h : g ≤ s.tw.gen) : s.staleGot g = s := if_pos (by simp [h])

/-- The twin's unit of a Lead that a higher generation has made stale (R438). -/
def Twin.superseded (w : Twin) : Twin :=
  { w with
    stale := true, found := true, lease := false, nopeer := false, expiry := 0, fenceAt := none, holdDrive := false,
    inStep := false, peerInStep := false, catchUp := 0, admitted := false, joinAt := none, egressOff := true, exLead := false, takeAt := none, demote := true }

theorem staleGot_lead {s : State} {g : Nat} (h : s.tw.gen < g) (hm : s.mode = .lead) (hl : s.tw.lease = true) (hf : s.tw.found = false) :
    s.staleGot g = (({ s with tw := s.tw.superseded } : State).stopDriving.evt TW_EVENT 6).inc (TW_CNT 4) := by
  unfold State.staleGot
  extract_lets lead x
  rw [if_neg (by rw [decide_eq_false (by omega), hf, hl]; simp)]
  show ((State.stopDriving x).evt TW_EVENT 6).inc (TW_CNT 4) = _
  have hx : x = { s with tw := s.tw.superseded } := by
    show s.onTw _ = _
    simp only [State.onTw, lead, hm]
    rfl
  rw [hx]

/-! ### The lease, takeover and the fence -/

/-- Mortises as the fence timer leaves them: pins of CAN and LIN tenons are forced to idle (R447). -/
def Mortise.fence (x : Mortise) : Mortise := if x.tenon == .can || x.tenon == .lin then x.idlePins else x

theorem nth_map_fence (l : List Mortise) (m : Nat) : nth (l.map Mortise.fence) m = (nth l m).fence := List.getD_map l default Mortise.fence

theorem fence_forced {x : Mortise} (h : x.tenon = .can ∨ x.tenon = .lin) : x.fence.pins ≠ .tenon := by
  rw [Mortise.fence, if_pos (by obtain h | h := h <;> rw [h] <;> rfl)]
  exact idlePins_not_tenon x

theorem fence_other {x : Mortise} (hc : x.tenon ≠ .can) (hl : x.tenon ≠ .lin) : x.fence = x := if_neg (by simp [hc, hl])

/-- The twin's unit after the fence timer. -/
def State.fencedBy (s : State) (t : Nat) : State :=
  { s with now := max s.now t, mz := s.mz.map Mortise.fence, tw := { s.tw with fenced := true, fenceAt := none }, sill := { s.sill with egressClk := false } }

theorem fenceTimerFire_due {s : State} {t e : Nat} (hf : s.tw.fenceAt = some e) (he : e ≤ t) :
    s.fenceTimerFire t = if s.dieOn then ((s.fencedBy t).evt TW_EVENT 5).inc (TW_CNT 3) else s.fencedBy t := by
  unfold State.fenceTimerFire
  extract_lets x
  rw [show x.tw.fenceAt = some e from hf]
  exact if_neg (Nat.not_lt.mpr he)

theorem leaseExpiry_eq {s : State} {t : Nat} (hl : s.tw.lease = true) (hn : s.tw.nopeer = false) (he : s.tw.expiry ≤ t) (hm : s.mode = .lead) :
    s.leaseExpiry t = if s.tellEn && !s.tw.scfUp && !s.tw.tellUp && s.tw.tellSt == 1 then
      (s.tick t).onTw (fun w => { w with nopeer := true, fenceAt := none, peerIn := false }) else (s.tick t).selfFence := by
  unfold State.leaseExpiry
  extract_lets x
  rw [if_neg (by
      show ¬(!s.tw.lease || s.tw.nopeer || decide (t < s.tw.expiry)) = true
      rw [hl, hn, decide_eq_false (by omega)]
      decide), if_pos (by show (s.mode == .lead) = true; rw [hm]; rfl)]
  rfl

theorem takeover_inStep {s : State} {t : Nat} (hm : s.mode = .shadow) (hl : s.tw.lease = false) (hsc : s.tw.scfUp = false) (htl : s.tw.tellUp = false)
    (he0 : s.tw.expiry ≠ 0) (he : s.tw.expiry + 25000 ≤ t) (hi : s.tw.inStep = true) :
    s.takeover t = ((((s.tick t).takeLease t true).onTw (fun w => { w with takeAt := some t, unagreed := [], peerInStep := false })).evt TW_EVENT 3).inc (TW_CNT 2) := by
  unfold State.takeover
  extract_lets x dead
  rw [if_neg (by
      show ¬(s.mode != .shadow || s.tw.lease || !(!s.tw.scfUp && !s.tw.tellUp || _) || s.tw.expiry == 0 || decide (t < s.tw.expiry + 25000)) = true
      rw [hm, hl, hsc, htl, beq_false_of_ne he0, decide_eq_false (by omega)]
      simp), if_pos (show x.tw.inStep = true from hi)]
  rfl

/-- The state of a pair that has degraded, before what a Shadow does (R84). -/
def State.degraded (s : State) (t : Nat) : State :=
  ((({ s with now := max s.now t, tw := { s.tw with low := 0, catchUp := 0, admitted := false, joinAt := none, peerInStep := false } } : State).setBit EP_STATUS 5 true).evt
    EP_EVENT 3).inc (EP_CNT 7)

theorem pairDegrade_due {s : State} {t : Nat} (hp : s.paired = true) (hh : 4 ≤ s.tw.high) (hb : s.bit EP_STATUS 5 = false) :
    s.pairDegrade t = if s.mode = .shadow then ((s.degraded t).leaveGuar ((s.degraded t).stampEp + 1)).onTw (fun w => { w with egressOff := true }) else s.degraded t := by
  unfold State.pairDegrade
  extract_lets x y
  rw [if_neg (by
    show ¬(!s.paired || decide (s.tw.high < 4) || s.bit EP_STATUS 5) = true
    rw [hp, hb, decide_eq_false (by omega)]
    decide)]
  show (if (s.mode == .shadow) = true then _ else _) = _
  by_cases h : s.mode = .shadow
  · rw [if_pos (by rw [h]; rfl), if_pos h]
    rfl
  · rw [if_neg (by simpa using h), if_neg h]
    rfl

theorem degraded_facts (s : State) (t : Nat) :
    (s.degraded t).bit EP_STATUS 5 = true ∧ (s.degraded t).bit EP_EVENT 3 = true ∧ (s.degraded t).rdN (EP_CNT 7) = (s.rdN (EP_CNT 7) + 1) % 2 ^ 32 ∧
      ∃ R, s.degraded t = { s with
        now := max s.now t, tw := { s.tw with low := 0, catchUp := 0, admitted := false, joinAt := none, peerInStep := false }, regs := R } := by
  obtain ⟨x, hx⟩ : ∃ x : State, x = { s with now := max s.now t, tw := { s.tw with low := 0, catchUp := 0, admitted := false, joinAt := none, peerInStep := false } } := ⟨_, rfl⟩
  have hd : s.degraded t = ((x.setBit EP_STATUS 5 true).evt EP_EVENT 3).inc (EP_CNT 7) := by rw [hx]; rfl
  obtain ⟨hb, hc, ho⟩ := evt_inc_facts (x.setBit EP_STATUS 5 true) (a := EP_EVENT) (b := EP_CNT 7) (k := 3) (by decide) (by decide)
  have hset : RegsOnly [EP_STATUS] x (x.setBit EP_STATUS 5 true) := (RegsOnly.refl _ x).setBit (List.mem_singleton.mpr rfl) 5 true
  obtain ⟨R, hR⟩ := ((hset.mono (l' := [EP_STATUS, EP_EVENT, EP_CNT 7]) (by simp)).trans (ho.mono (by simp))).regs_eq
  rw [hd]
  refine ⟨?_, hb, ?_, R, ?_⟩
  · rw [ho.same.bit (by decide), bit_setBit _ _ _ _ _ (by decide), if_pos rfl]
  · rw [hc, hset.rdN (by decide), hx]
    rfl
  · rw [hR, hx]

/-- The state a takeover gives a Lead at a boundary (R445). -/
theorem takeLead_due {s : State} (ht : s.tw.takeAt ≠ none) (hm : s.mode = .shadow) (hl : s.tw.lease = true) :
    s.takeLead = beginDriving s.now (({ s with mode := .lead } : State).onTw (fun w => { w with takeAt := none, inStep := false })) := by
  obtain ⟨a, ha⟩ := Option.ne_none_iff_exists'.mp ht
  rw [State.takeLead, ha]
  exact if_pos (by rw [hm, hl]; rfl)

end Sys2Proof.Machine
end

section
namespace Sys2Proof.Proofs
open Sys2Proof Sys2Proof.Machine

/-- The heartbeat sent. -/
theorem after_heartbeatSend (s : State) (t : Nat) (hd : s.dieOn = true) (hp : s.pairedFrame = true) (ht : t % 25000 = 0) : After (.heartbeatSend t) s fun u =>
    (∃ h : Heartbeat, u.tw.hbOut = some h ∧ h.pid = s.pid ∧ h.role = s.roleCode ∧ h.renew = s.renews ∧ h.fenced = s.tw.fenced ∧ h.gen = s.tw.gen ∧ h.txt = t ∧
      h.ackv = s.tw.ackDue.isSome ∧ h.rxt = s.tw.hbGot ∧ ∀ e, (s.tick t).epochNow = some e → h.epoch = e % 2 ^ 48) ∧
    (s.renews = true → u.tw.renew = t ∧ u.tw.nopeer = false) ∧ (s.renews = false → u.tw = { s.tw with hbOut := u.tw.hbOut }) ∧
    u = { s with now := max s.now t, tw := u.tw, hb := u.hb } ∧ sameBridge s u := by
  have heq := heartbeatSend_sends hd hp ht
  have hep : ∀ e, (s.tick t).epochNow = some e → (s.heartbeat t).epoch = e % 2 ^ 48 := fun e he => by
    show (Option.map _ (s.tick t).epochNow).getD _ = _
    rw [he]
    rfl
  have htold : (s.heartbeat t).pid = s.pid ∧ (s.heartbeat t).role = s.roleCode ∧ (s.heartbeat t).renew = s.renews ∧ (s.heartbeat t).fenced = s.tw.fenced ∧
      (s.heartbeat t).gen = s.tw.gen ∧ (s.heartbeat t).txt = t ∧ (s.heartbeat t).ackv = s.tw.ackDue.isSome ∧ (s.heartbeat t).rxt = s.tw.hbGot := ⟨rfl, rfl, rfl, rfl, rfl, rfl, rfl, rfl⟩
  obtain ⟨h1, h2, h3, h4, h5, h6, h7, h8⟩ := htold
  generalize s.heartbeat t = h at *
  by_cases hr : s.renews = true
  · rw [renewFrom_renews (s := s.tick t) t hr] at heq
    exact after_hb rfl heq rfl fun b hb => ⟨⟨h, rfl, h1, h2, h3, h4, h5, h6, h7, h8, hep⟩, fun _ => ⟨rfl, rfl⟩, fun hn => absurd hr (by rw [hn]; decide), rfl, hb⟩
  · have hr' : s.renews = false := Bool.eq_false_iff.mpr hr
    rw [renewFrom_not (s := s.tick t) t hr'] at heq
    exact after_hb rfl heq rfl fun b hb => ⟨⟨h, rfl, h1, h2, h3, h4, h5, h6, h7, h8, hep⟩, fun hn => absurd hn hr, fun _ => rfl, rfl, hb⟩

/-- Settles O31: the heartbeat sent, and one received by what it carries. -/
theorem heartbeats : Obligations.Heartbeats := by
  unfold Obligations.Heartbeats
  refine ⟨after_heartbeatSend, fun s t h hd hp ho => ⟨fun hg hr ha => ?_, fun hg hr ha hm hu => ?_, fun hg hr ha hm hl hn hack => ?_, fun hg hr ha hm hl hf => ?_,
    fun n hc hs hdem hh htake => ?_⟩⟩
  · have heq := heartbeatReceived_eq (t := t) (h := h) hd hp ho
    rw [ha, if_neg (by decide), renewedBy_plain s t hr, staleGot_le (s := s.seen t h) hg] at heq
    exact after_hb rfl heq rfl fun b hb => ⟨rfl, rfl, hb⟩
  · have heq := heartbeatReceived_eq (t := t) (h := h) hd hp ho
    rw [ha, if_neg (by decide), State.renewedBy, hr, hm, if_pos (by decide), renewalGot_agreed (s := s.seen t h) h.txt hm hu] at heq
    rw [staleGot_le (s := ((s.seen t h).onTw _).onTw _) hg] at heq
    exact after_hb rfl heq rfl fun b hb => ⟨rfl, rfl, hm, rfl, hb⟩
  · have heq := heartbeatReceived_eq (t := t) (h := h) hd hp ho
    rw [ha, if_pos rfl, renewedBy_plain s t hr, ackGot_lead (s := s.seen t h) hm hl hn hack, staleGot_le (s := (s.seen t h).onTw _) hg] at heq
    exact after_hb rfl heq rfl fun b hb => ⟨rfl, rfl, hm, rfl, hb⟩
  · have heq := heartbeatReceived_eq (t := t) (h := h) hd hp ho
    rw [ha, if_neg (by decide), renewedBy_plain s t hr, staleGot_lead (s := s.seen t h) hg hm hl hf] at heq
    obtain ⟨x, hx⟩ : ∃ x : State, x = { s with
      now := max s.now t, mz := s.mz.map Mortise.idlePins, tw := { (s.tw.seen t h).superseded with driving := false } } := ⟨_, rfl⟩
    have hstop : RegsOnly tecRegs x ({ (s.seen t h) with tw := (s.seen t h).tw.superseded } : State).stopDriving := by
      rw [hx]
      exact stopDriving_only { (s.seen t h) with tw := (s.seen t h).tw.superseded }
    obtain ⟨hb, hcn, hall⟩ := tec_event_facts hstop (k := 6) (j := 4) (by decide)
    generalize (({ (s.seen t h) with tw := (s.seen t h).tw.superseded } : State).stopDriving.evt TW_EVENT 6).inc (TW_CNT 4) = v at *
    obtain ⟨R, hR⟩ := hall.regs_eq
    have hsame : sameRegs (TW_EVENT :: TW_CNT 4 :: tecRegs) s v := hall.same.left (by rw [hx])
    rw [hR, hx] at hb heq hsame hcn
    exact after_of rfl heq fun b _ => ⟨hm, rfl, rfl, rfl, rfl, rfl, rfl, rfl, hb, hcn, fun m _ => by
      show (nth (s.mz.map Mortise.idlePins) m).pins ≠ .tenon
      rw [nth_map_idlePins]
      exact idlePins_not_tenon _, hsame⟩
  · have heq := epochBoundary_due hd hc hs
    have hx := atBoundary_frame s t n
    generalize s.atBoundary t n = x at heq hx
    rw [demoteNow_due (by rw [hx]; exact hdem) (by rw [hx]; exact hh)] at heq
    obtain ⟨R, hR⟩ := (leaveHold_only x).regs_eq
    rw [hR, takeLead_none (by rw [hx]; exact htake)] at heq
    have hk := State.resumePins_keeps (c := 0x402000) rfl (.refl _ (({ ({ x with regs := R } : State) with mode := .shadow } : State).onTw
      (fun w => { w with demote := false, coldHold := false, holdDrive := false })))
    rw [← heq] at hk
    have hm := hk.at_ 4 rfl
    have htw := hk.at_ 21 rfl
    have hep := hk.at_ 10 rfl
    exact after_of rfl rfl fun b _ => ⟨hm, (congrArg Twin.demote htw).trans rfl, (congrArg EpochEng.cur hep).trans (by rw [hx]; rfl)⟩

/-- A pair that degrades. -/
theorem after_pairDegrade (s : State) (t : Nat) (hp : s.paired = true) (hh : 4 ≤ s.tw.high) (hb : s.bit EP_STATUS 5 = false) : After (.pairDegrade t) s fun u =>
    u.bit EP_STATUS 5 = true ∧ u.bit EP_EVENT 3 = true ∧ u.rdN (EP_CNT 7) = (s.rdN (EP_CNT 7) + 1) % 2 ^ 32 ∧ u.tw.peerInStep = false ∧ u.tw.catchUp = 0 ∧
    (s.mode = .shadow → u.tw.inStep = false ∧ u.tw.egressOff = true) ∧ (s.mode = .lead → u.tw.lease = s.tw.lease ∧ u.ep = s.ep) ∧ u.mode = s.mode ∧ u.now = max s.now t := by
  have heq := pairDegrade_due hp hh hb (t := t)
  obtain ⟨h1, h2, h3, R, hR⟩ := degraded_facts s t
  generalize s.degraded t = x at *
  by_cases hm : s.mode = .shadow
  · rw [if_pos hm] at heq
    have hleave : x.leaveGuar (x.stampEp + 1) = (x.onTw fun w => { w with inStep := false, catchUp := 0 }).loseGuar (x.stampEp + 1) := by
      have hxm : (x.mode == .shadow) = true := by rw [hR]; exact beq_iff_eq.mpr hm
      rw [State.leaveGuar, if_pos hxm, State.leaveStep, if_pos hxm]
    obtain ⟨y, hy⟩ : ∃ y, y = x.onTw fun w => { w with inStep := false, catchUp := 0 } := ⟨_, rfl⟩
    rw [hleave, ← hy] at heq
    have hs := loseGuar_sameStamp y (x.stampEp + 1)
    have hbit : (y.loseGuar (x.stampEp + 1)).bit EP_EVENT 3 = true := by
      rw [State.loseGuar]
      split
      · rw [bit_evt _ _ _ _ (by decide)]
        show (y.bit EP_EVENT 3 || _) = true
        rw [hy, show (x.onTw _).bit EP_EVENT 3 = x.bit EP_EVENT 3 from rfl, h2]
        rfl
      · rw [hy]
        exact h2
    have h1' : (y.loseGuar (x.stampEp + 1)).bit EP_STATUS 5 = true := by
      rw [hs.same.bit (by decide), hy]
      exact h1
    have h3' : (y.loseGuar (x.stampEp + 1)).rdN (EP_CNT 7) = (s.rdN (EP_CNT 7) + 1) % 2 ^ 32 := by
      rw [hs.same.rdN (by decide), hy]
      exact h3
    have hk := State.loseGuar_keeps (c := 0x420) rfl (.refl _ y) (x.stampEp + 1)
    have htw := hk.at_ 21 rfl
    have hmo := hk.at_ 4 rfl
    have hno := hk.at_ 1 rfl
    generalize y.loseGuar (x.stampEp + 1) = z at *
    rw [hy, hR] at htw hmo hno
    refine after_of rfl heq fun b _ => ⟨h1', hbit, h3', (congrArg Twin.peerInStep htw).trans rfl, (congrArg Twin.catchUp htw).trans rfl,
      fun _ => ⟨(congrArg Twin.inStep htw).trans rfl, rfl⟩, fun hl => absurd (hm.symm.trans hl) (by decide), hmo, hno⟩
  · rw [if_neg hm, hR] at heq
    rw [hR] at h1 h2 h3
    exact after_of rfl heq fun b _ => ⟨h1, h2, h3, rfl, rfl, fun h => absurd h hm, fun _ => ⟨rfl, rfl⟩, rfl, rfl⟩

/-- A Lead that fences itself. -/
theorem after_selfFence (s : State) (t : Nat) (hm : s.mode = .lead) (heq : s.leaseExpiry t = (s.tick t).selfFence) : After (.leaseExpiry t) s fun u =>
    u.mode = .lead ∧ u.tw.demote = true ∧ u.tw.lease = false ∧ u.tw.driving = false ∧ u.tw.inStep = false ∧ u.tw.egressOff = true ∧ u.bit TW_EVENT 4 = true ∧
    u.rdN (TW_CNT 3) = (s.rdN (TW_CNT 3) + 1) % 2 ^ 32 ∧ (∀ m < 128, (u.mort m).pins ≠ .tenon) ∧ sameRegs (TW_EVENT :: TW_CNT 3 :: tecRegs) s u ∧
    u = { s with now := max s.now t, regs := u.regs, mz := u.mz, tw := u.tw, hb := u.hb } := by
  obtain ⟨x, hx⟩ : ∃ x : State, x = { s with now := max s.now t, mz := s.mz.map Mortise.idlePins, tw := { s.tw with
    lease := false, nopeer := false, expiry := 0, fenceAt := none, inStep := false, peerInStep := false, driving := false,
    catchUp := 0, admitted := false, joinAt := none, egressOff := true, exLead := true, demote := true } } := ⟨_, rfl⟩
  have hself : (s.tick t).selfFence = (x.tecZero.evt TW_EVENT 4).inc (TW_CNT 3) := by rw [hx]; rfl
  obtain ⟨hb, hcn, hall⟩ := tec_event_facts (tecZero_only x) (k := 4) (j := 3) (by decide)
  rw [hself] at heq
  generalize (x.tecZero.evt TW_EVENT 4).inc (TW_CNT 3) = v at *
  obtain ⟨R, hR⟩ := hall.regs_eq
  have hsame : sameRegs (TW_EVENT :: TW_CNT 3 :: tecRegs) s v := hall.same.left (by rw [hx])
  rw [hR, hx] at hb heq hsame hcn
  exact after_of rfl heq fun b _ => ⟨hm, rfl, rfl, rfl, rfl, rfl, hb, hcn, fun m _ => by
    show (nth (s.mz.map Mortise.idlePins) m).pins ≠ .tenon
    rw [nth_map_idlePins]
    exact idlePins_not_tenon _, hsame, rfl⟩

/-- A Shadow in step that takes the lease over. -/
theorem after_takeover (s : State) (t : Nat) (hm : s.mode = .shadow) (hl : s.tw.lease = false) (hsc : s.tw.scfUp = false) (htl : s.tw.tellUp = false) (he0 : s.tw.expiry ≠ 0)
    (he : s.tw.expiry + 25000 ≤ t) (hi : s.tw.inStep = true) : After (.takeover t) s fun u =>
      u.mode = .shadow ∧ u.tw.lease = true ∧ u.tw.nopeer = true ∧ u.tw.gen = newGen s.tw.gen s.tw.pgen s.pid ∧ u.tw.takeAt = some t ∧ u.tw.fenced = false ∧
      u.bit TW_EVENT 3 = true ∧ u.rdN (TW_CNT 2) = (s.rdN (TW_CNT 2) + 1) % 2 ^ 32 ∧ sameRegs [TW_EVENT, TW_CNT 2] s u ∧
      u = { s with now := max s.now t, regs := u.regs, tw := u.tw, sill := { s.sill with egressClk := true }, hb := u.hb } := by
  have heq := takeover_inStep hm hl hsc htl he0 he hi
  obtain ⟨hb, hc, ho⟩ := evt_inc_facts (((s.tick t).takeLease t true).onTw (fun w => { w with takeAt := some t, unagreed := [], peerInStep := false }))
    (a := TW_EVENT) (b := TW_CNT 2) (k := 3) (by decide) (by decide)
  generalize hv : ((((s.tick t).takeLease t true).onTw (fun w => { w with takeAt := some t, unagreed := [], peerInStep := false })).evt TW_EVENT 3).inc (TW_CNT 2) = v at *
  obtain ⟨R, hR⟩ := ho.regs_eq
  have hsame : sameRegs [TW_EVENT, TW_CNT 2] s v := ho.same.left rfl
  rw [hR] at hb hc hsame heq
  exact after_of rfl heq fun b _ => ⟨hm, rfl, rfl, rfl, rfl, rfl, hb, hc, hsame, rfl⟩

/-- A boundary at which a takeover leads. -/
theorem after_takeoverBoundary (s : State) (t n : Nat) (hd : s.dieOn = true) (hc : s.ep.cur = some n) (hs : s.ep.stop ≤ t) (ht : s.tw.takeAt ≠ none) (hm : s.mode = .shadow)
    (hl : s.tw.lease = true) (hp : s.wk.pinsAt = none) :
    After (.epochBoundary t) s fun u => u.mode = .lead ∧ u.tw.lease = true ∧ u.tw.takeAt = none ∧ u.tw.driving = true ∧ u.ep.cur = some (n + 1) := by
  have heq := epochBoundary_due hd hc hs
  have hx := atBoundary_frame s t n
  generalize s.atBoundary t n = x at heq hx
  obtain ⟨w, hw, hwt, hwl⟩ : ∃ w : Twin, x.demoteNow = { x with tw := w } ∧ w.takeAt = s.tw.takeAt ∧ w.lease = true := by
    have hxm : x.mode = .shadow := by rw [hx]; exact hm
    unfold State.demoteNow
    split
    · exact ⟨x.tw, rfl, by rw [hx], by rw [hx]; exact hl⟩
    · rw [State.leaveHold, if_neg (by rw [hxm]; decide)]
      refine ⟨_, congrArg (fun m => ({ x with mode := m } : State).onTw (fun w => { w with demote := false, coldHold := false, holdDrive := false })) hxm.symm, ?_, ?_⟩
      · rw [hx]
      · rw [hx]
        exact hl
  obtain ⟨y, hy⟩ : ∃ y, y = (({ ({ x with tw := w } : State) with mode := .lead } : State).onTw (fun w => { w with takeAt := none, inStep := false })) := ⟨_, rfl⟩
  have hlead : ({ x with tw := w } : State).takeLead = beginDriving x.now y := by
    rw [hy]
    exact takeLead_due (s := { x with tw := w }) (by rw [show ({ x with tw := w } : State).tw = w from rfl, hwt]; exact ht) (by show x.mode = _; rw [hx]; exact hm) hwl
  have hmode : (beginDriving x.now y).mode = .lead := by rw [beginDriving_mode, hy]; rfl
  have htw := beginDriving_drives (s := y) x.now (by rw [hy, hx]; exact hd) (by rw [hy]; exact hwl)
  have hep : (beginDriving x.now y).ep.cur = some (n + 1) := by
    rw [beginDriving_epCur, hy, hx]
    rfl
  have hwk : (beginDriving x.now y).wk = s.wk := by
    rw [(beginDriving_keeps (c := 0x202422) rfl (.refl _ y) x.now).at_ 22 rfl, hy, hx]
    rfl
  rw [hw, hlead, resumePins_none (by rw [hwk]; exact hp)] at heq
  generalize beginDriving x.now y = z at *
  rw [hy] at htw
  exact after_of rfl heq fun b _ => ⟨hmode, (congrArg Twin.lease htw).trans hwl, (congrArg Twin.takeAt htw).trans rfl, (congrArg Twin.driving htw).trans rfl, hep⟩

/-- The fence timer. -/
theorem after_fenceTimerFire (s : State) (t e : Nat) (hf : s.tw.fenceAt = some e) (he : e ≤ t) : After (.fenceTimerFire t) s fun u =>
    u.tw = { s.tw with fenced := true, fenceAt := none } ∧ u.sill = { s.sill with egressClk := false } ∧
    (∀ m < 128, ((s.mort m).tenon = .can ∨ (s.mort m).tenon = .lin) → (u.mort m).pins ≠ .tenon) ∧
    (∀ m < 128, (s.mort m).tenon ≠ .can → (s.mort m).tenon ≠ .lin → u.mort m = s.mort m) ∧ sameRegs [TW_EVENT, TW_CNT 3] s u ∧
    (s.dieOn = true → u.bit TW_EVENT 5 = true) ∧ u = { s with now := max s.now t, regs := u.regs, mz := u.mz, tw := u.tw, sill := u.sill, hb := u.hb } := by
  have heq := fenceTimerFire_due hf he
  have hforced : ∀ m < 128, ((s.mort m).tenon = .can ∨ (s.mort m).tenon = .lin) → (nth (s.mz.map Mortise.fence) m).pins ≠ .tenon := fun m _ h => by
    rw [nth_map_fence]
    exact fence_forced h
  have hother : ∀ m < 128, (s.mort m).tenon ≠ .can → (s.mort m).tenon ≠ .lin → nth (s.mz.map Mortise.fence) m = s.mort m := fun m _ hc hl => by
    rw [nth_map_fence]
    exact fence_other hc hl
  by_cases hd : s.dieOn = true
  · obtain ⟨hb, -, ho⟩ := evt_inc_facts (s.fencedBy t) (a := TW_EVENT) (b := TW_CNT 3) (k := 5) (by decide) (by decide)
    rw [if_pos hd] at heq
    generalize ((s.fencedBy t).evt TW_EVENT 5).inc (TW_CNT 3) = v at *
    obtain ⟨R, hR⟩ := ho.regs_eq
    have hsame : sameRegs [TW_EVENT, TW_CNT 3] s v := ho.same.left rfl
    rw [hR] at hb hsame heq
    exact after_of rfl heq fun b _ => ⟨rfl, rfl, hforced, hother, hsame, fun _ => hb, rfl⟩
  · rw [if_neg hd] at heq
    exact after_of rfl heq fun b _ => ⟨rfl, rfl, hforced, hother, fun _ _ => rfl, fun h => absurd h hd, rfl⟩

/-- Settles O33: a pair degrades, a lease expires and is taken over, and the fence falls. -/
theorem leaseTakeoverAndFence : Obligations.LeaseTakeoverAndFence := by
  unfold Obligations.LeaseTakeoverAndFence
  refine ⟨after_pairDegrade, fun s t hl hn he hm => ⟨fun h1 h2 h3 h4 => ?_, fun h => ?_⟩, after_takeover, after_takeoverBoundary, after_fenceTimerFire⟩
  · have heq := leaseExpiry_eq hl hn he hm
    rw [h1, h2, h3, h4, if_pos (by decide)] at heq
    exact after_hb rfl heq rfl fun b hb => ⟨rfl, rfl, hb⟩
  · have heq := leaseExpiry_eq hl hn he hm
    rw [if_neg (by
      intro hk
      simp only [Bool.and_eq_true, Bool.not_eq_true', beq_iff_eq] at hk
      obtain ⟨⟨⟨k1, k2⟩, k3⟩, k4⟩ := hk
      rw [k1, k2, k3, k4] at h
      simp at h)] at heq
    exact after_selfFence s t hm heq

end Sys2Proof.Proofs
end

section
/-! PROOFS. Two statements that a register list out of order refutes: clearing counters or copying a region takes registers out of the list, and what stood behind one
of them is found again. -/
set_option Elab.async false
namespace Sys2Proof.Machine
open Sys2Proof

/-- A unit ready to begin service, whose register list holds EP_CTRL behind a counter of greater offset, where no read finds it. -/
def disorderedRaise : State :=
  { State.reset with
    regs := [(EP_CNT 0, 0), (EP_CTRL, 0)]
    ks := { State.reset.ks with lc := 1 }
    fr := { State.reset.fr with hand := some {}, recs := [[0, 2]] } }

/-- A Shadow that catches up, whose register list holds EB_MACCFG0 behind a register of region 1 of greater offset. -/
def disorderedShadow : State :=
  { State.reset with mode := .shadow, tw := { catchUp := 1, region := 1 }, regs := [(0x280100, 0), (EB_MACCFG 0, 0x80000000)] }

theorem rd_foldl_wr_ne {l : List (Nat × Word)} {a : Nat} (h : ∀ x ∈ l, x.1 ≠ a) (s : State) : (l.foldl (fun s x => s.wr x.1 x.2) s).rd a = s.rd a :=
  foldl_view (fun z => z.rd a) _ l s fun z x hx => by rw [rd_wr, if_neg (Ne.symm (h x hx))]

/-- A region's copy leaves a register that no region of its number holds as it reads once theirs are out of the list. -/
theorem rd_copyStore {s l : State} {r a : Nat} (ha : regionReg r a = false) :
    (s.copyStore l r).rd a = ({ s with regs := s.regs.filter (fun x => !regionReg r x.1) } : State).rd a := by
  unfold State.copyStore
  extract_lets lo hi x
  have hx : x.regs = s.regs := foldl_view (fun z => z.regs) _ _ _ fun z c _ => rfl
  rw [rd_foldl_wr_ne (fun y hy h => by
    have := (List.mem_filter.mp hy).2
    rw [h, ha] at this
    cases this)]
  exact rd_congr (congrArg (List.filter fun y => !regionReg r y.1) hx) a

/-- Where epoch 0 ends is what its meaning leaves. -/
theorem after_serviceStart_stop {s : State} {t n : Nat} (h : (serviceStart t s).ep.stop = n) : After (.serviceStart t) s fun u => u.ep.stop = n :=
  after_settle rfl fun u hu _ => by rw [hu]; exact h

/-- A region committed on a Shadow shows in TW_RSDONE and leaves the other registers as the copies do. -/
theorem after_regionCommit_rd {s : State} {t a : Nat} {w : Word} (hm : s.mode = .shadow) (hc : s.tw.catchUp = 1) (hr : s.tw.region = 1) (ha : a ≠ TW_RSDONE)
    (h : ∀ l, (({ s.tick t with free := s.free + 1 } : State).copyRegion l 1).rd a = w) : After (.resyncRegionCommit t 1) s fun u => u.rd a = w := by
  refine after_settle rfl fun u hu _ => ?_
  rw [hu]
  show (s.resyncRegionCommit t 1).rd a = w
  unfold State.resyncRegionCommit
  extract_lets x l shadow mark y z v
  have hsh : shadow = true := by
    show (s.mode == .shadow) = true
    rw [hm]
    rfl
  have hy : y = ({ s.tick t with free := s.free + 1 } : State).copyRegion l 1 := by
    show (if shadow = true then _ else _) = _
    rw [if_pos hsh]
    rfl
  rw [if_neg (by rw [show x.tw = s.tw from rfl, hc, hr]; decide), if_neg (by simp)]
  show (y.setBit TW_RSDONE (1 - 1) true).rd a = w
  rw [hy]
  exact (by rw [State.setBit, State.wrN, rd_wr, if_neg ha] : _ = _).trans (h l)

end Sys2Proof.Machine
end

section
namespace Sys2Proof.Proofs
open Sys2Proof Sys2Proof.Machine

/-- Refutes O18: the statement does not ask that the registers are listed by rising offset. With EP_CTRL behind a counter, clearing the counters brings it in sight, and
epoch 0 ends by the epoch length it then shows, 4,000 ns, not by the 8,000 ns of the state before. -/
theorem not_serviceBegins : ¬ Obligations.ServiceBegins := by
  unfold Obligations.ServiceBegins
  intro h
  obtain ⟨u, hu, -, -, -, hstop, -⟩ := (h.1 disorderedRaise 0 (by decide +kernel) (by decide +kernel) (by decide +kernel) (by decide +kernel)).1 (by decide +kernel)
    (by decide +kernel) (by decide +kernel)
  obtain ⟨v, hv, hstop'⟩ := after_serviceStart_stop (s := disorderedRaise) (t := 0) (n := 4000) (by decide +kernel)
  obtain rfl : u = v := by simpa using hu.symm.trans hv
  have hlen : disorderedRaise.elen = 8000 := by decide +kernel
  rw [hstop', hlen] at hstop
  exact absurd hstop (by decide)

/-- Refutes O34: the statement does not ask that the registers are listed by rising offset. With EB_MACCFG0 behind a register of region 1, the commit of region 1 takes
that register out of the list and brings the lock bit in sight, which read 0 before. -/
theorem not_resync : ¬ Obligations.Resync := by
  unfold Obligations.Resync
  intro h
  obtain ⟨-, -, h3, -⟩ := h
  obtain ⟨u, hu, -, -, -, -, -, -, -, hlock, -⟩ := h3 disorderedShadow 0 1 (by decide +kernel) (by decide +kernel) (by decide +kernel) (by decide) (by decide)
  have hzero : disorderedShadow.bit (EB_MACCFG 0) 31 = false := by decide +kernel
  obtain ⟨v, hv, hrd⟩ := after_regionCommit_rd (s := disorderedShadow) (t := 0) (a := EB_MACCFG 0) (w := 0x80000000) (by decide +kernel) (by decide +kernel)
    (by decide +kernel) (by decide) fun l => (rd_copyStore (by decide)).trans (by decide +kernel)
  obtain rfl : u = v := by simpa using hu.symm.trans hv
  have hone : u.bit (EB_MACCFG 0) 31 = true := by
    rw [State.bit, State.rdN, hrd]
    decide
  rw [hlock 0 (by decide), hzero] at hone
  cases hone

end Sys2Proof.Proofs
end

section
/-! PROOFS. How service begins, and how a unit that begins to drive leaves the registers of the blocks (R49, R74, R95, R137). -/
set_option Elab.async false
namespace Sys2Proof.Machine
open Sys2Proof

/-! ### Registers of the blocks while tenons begin to drive -/

theorem rd_wrN_ne (s : State) {a b : Nat} (n : Nat) (h : b ≠ a) : (s.wrN a n).rd b = s.rd b := by rw [State.wrN, rd_wr, if_neg h]

theorem stampIn_rd (s : State) (i : Input) {a : Nat} (h : a ≠ EP_CNT 1) : (s.stampIn i).rd a = s.rd a := by
  unfold State.stampIn
  split
  · exact rd_wrN_ne s _ h
  · rfl

theorem canReport_rd (s : State) (m code obj reason idw rowcol : Nat) {a : Nat} (h : a ≠ EP_CNT 1) : (s.canReport m code obj reason idw rowcol).rd a = s.rd a := by
  unfold State.canReport
  split
  · exact stampIn_rd s _ h
  · rfl

theorem t1sReport_rd (s : State) (m code reason : Nat) (drive : Bool) {a : Nat} (h : a ≠ EP_CNT 1) : (s.t1sReport m code reason drive).rd a = s.rd a := by
  unfold State.t1sReport
  split
  · rfl
  · exact stampIn_rd s _ h

theorem canBeginDriving_rd (s : State) {m a : Nat} (hm : m < 128) (ha : 0x400000 ≤ a) : (s.canBeginDriving m).rd a = s.rd a := by
  have he : a ≠ CN_ERRC m := by unfold CN_ERRC; omega
  have hs : a ≠ CN_STATUS m := by unfold CN_STATUS; omega
  have ht : a ≠ CN_TXWIRE m := by unfold CN_TXWIRE; omega
  have hc : a ≠ EP_CNT 1 := by unfold EP_CNT; omega
  unfold State.canBeginDriving
  extract_lets lone fresh x y z
  have hx : x.rd a = s.rd a := by
    show (State.setBit _ (CN_STATUS m) 11 false).rd a = _
    exact rd_wrN_ne _ _ hs
  have hy : y.rd a = x.rd a := ((rd_wrN_ne _ _ he).trans (rd_wrN_ne _ _ he)).trans (rd_wrN_ne _ _ he)
  have hz : z.rd a = y.rd a := ((rd_wrN_ne _ _ ht).trans (rd_wrN_ne _ _ hs)).trans (rd_wrN_ne _ _ hs)
  have hall : z.rd a = s.rd a := hz.trans (hy.trans hx)
  split
  · exact (canReport_rd z _ _ _ _ _ _ hc).trans hall
  · exact hall

theorem t1sWithdraw_rd (s : State) (m : Nat) {a : Nat} (h : a ≠ EP_CNT 1) : (s.t1sWithdraw m).rd a = s.rd a := by
  unfold State.t1sWithdraw
  extract_lets k x
  split
  · rfl
  · exact foldl_view (fun z => z.rd a) _ _ s fun z _ _ => t1sReport_rd z _ _ _ _ h

theorem beginDrivingMort_rd (s : State) {m a : Nat} (hm : m < 128) (ha : 0x400000 ≤ a) : (s.beginDrivingMort m).rd a = s.rd a := by
  have hc : a ≠ EP_CNT 1 := by unfold EP_CNT; omega
  unfold State.beginDrivingMort
  split
  · rfl
  · extract_lets x
    split
    · exact canBeginDriving_rd x hm ha
    · rfl
    · exact t1sWithdraw_rd _ m hc

/-- A unit that begins to drive leaves the registers beyond the tenons and the bays. -/
theorem beginDriving_rd (s : State) (t : Nat) {a : Nat} (ha : 0x400000 ≤ a) : (beginDriving t s).rd a = s.rd a := by
  unfold beginDriving
  extract_lets x
  split
  · rfl
  · exact foldl_view (fun z => z.rd a) _ _ _ fun z m hm => beginDrivingMort_rd z (List.mem_range.mp hm) ha

/-! ### Service begins -/

/-- A fault of class 0 or 1 changes registers alone, whatever handler is active. -/
theorem recordAt_light_frame (s : State) {cls : Nat} (hc : cls ≤ 1) (cause src unit ep ts : Nat) :
    s.recordAt cls cause src unit ep ts = { s with regs := (s.recordAt cls cause src unit ep ts).regs } := by
  by_cases h : s.fld FLT_STATUS 0 5 >>> cls = 0
  · rw [recordAt_free cause src unit ep ts h]
    obtain rfl | rfl : cls = 0 ∨ cls = 1 := by omega
    all_goals exact (noted_only s _ cause src unit ep ts).frame
  · simp only [State.recordAt, fld_inc_cnt, ne_eq, h, not_false_eq_true, if_true]
    split <;> rfl

theorem raiseFault_light_frame (s : State) {cls : Nat} (hc : cls ≤ 1) (cause src unit : Nat) : ∃ R, s.raiseFault cls cause src unit = { s with regs := R } := by
  have h : s.raiseFault cls cause src unit = s.recordAt cls cause src unit s.stampEp s.now := by
    obtain rfl | rfl : cls = 0 ∨ cls = 1 := by omega
    all_goals rfl
  exact ⟨_, h.trans (recordAt_light_frame s hc ..)⟩

/-- The commit of a floor changes registers and the key store. -/
theorem advanceFloor_frame (s : State) (n : Nat) : ∃ R K, s.advanceFloor n = { s with regs := R, ks := K } := by
  unfold State.advanceFloor
  split
  · unfold State.commit
    split
    · unfold State.beginCommits
      split
      · obtain ⟨R, hR⟩ := raiseFault_light_frame s (cls := 1) (by decide) 0x12 0x23 0xFF
        refine ⟨R, { s.ks with commits := [] }, ?_⟩
        show State.beginCommits [] (s.raiseFault 1 0x12 0x23 0xFF) = _
        rw [hR]
        rfl
      · exact ⟨_, _, rfl⟩
    · exact ⟨_, _, rfl⟩
  · exact ⟨_, _, rfl⟩

theorem fullService_frame (s : State) : ∃ R K, s.fullService = { s with regs := R, ks := K, fr := { s.fr with full := true } } := by
  unfold State.fullService
  extract_lets x
  split
  · obtain ⟨R, K, h⟩ := advanceFloor_frame x (hCounter x.fr.header)
    exact ⟨R, K, h.trans rfl⟩
  · exact ⟨_, _, rfl⟩

/-- The epoch engine but for the event bits that wait for the end of an epoch (R149). -/
def State.epSpan (s : State) : EpochEng := { s.ep with due := [] }

theorem epSpan_eq {s u : State} (h : u.epSpan = s.epSpan) : u.ep = { s.ep with due := u.ep.due } := by
  have h' : ({ u.epSpan with due := u.ep.due } : EpochEng) = { s.epSpan with due := u.ep.due } := congrArg (fun e : EpochEng => { e with due := u.ep.due }) h
  exact h'

theorem evtOf_epSpan (s : State) (n a k : Nat) : (s.evtOf n a k).epSpan = s.epSpan := by
  unfold State.evtOf
  split <;> rfl

theorem enterMort_epSpan (s : State) (n m : Nat) : (s.enterMort n m).epSpan = s.epSpan := by
  unfold State.enterMort
  split
  · rfl
  · extract_lets x y z
    have hy : y.epSpan = s.epSpan := by
      show (if _ then _ else _ : State).epSpan = _
      split <;> rfl
    have hz : z.epSpan = y.epSpan := by
      show (if _ then _ else _ : State).epSpan = _
      split <;> rfl
    exact (evtOf_epSpan z _ _ _).trans (hz.trans hy)

theorem enterMB_epSpan (s : State) (n k : Nat) : (s.enterMB n k).epSpan = s.epSpan :=
  foldl_view (fun z => z.epSpan) _ _ s fun z j _ => (enterMort_epSpan _ n _).trans
    (congrArg (fun e : EpochEng => { e with due := [] }) ((State.loadHcopy_keeps (c := 0x20) rfl (.refl _ z) _ _).at_ 10 rfl))

theorem bentIn_epSpan (s : State) (n i : Nat) : (s.bentIn n i).epSpan = s.epSpan := by
  unfold State.bentIn
  extract_lets x y
  split
  · exact enterMB_epSpan y n i
  · rfl

theorem bentsIn_epSpan (s : State) : s.bentsIn.epSpan = s.epSpan :=
  foldl_view (fun z => z.epSpan) _ _ s fun z r _ => by
    show State.epSpan (match bentIdx (rCode r) with | some i => _ | none => z) = _
    split
    · split
      · rfl
      · split
        · exact bentIn_epSpan z 0 _
        · split <;> rfl
    · rfl

/-- The epoch engine as epoch 0 begins (R49). -/
def State.epochZero (s : State) (lag t : Nat) : EpochEng :=
  { cur := some 0, start := t, stop := (t / s.clearCounters.elen + 1) * s.clearCounters.elen, lag := lag, starts := [(0, t)], guar := s.clearCounters.fld FLT_STATUS 3 2 == 0
    lossEp := if s.clearCounters.fld FLT_STATUS 3 2 == 0 then s.ep.lossEp else 0 }

/-- What the beginning of service leaves of the mode, the time, the twin, the fault manager and the epoch engine. -/
structure Began (s u : State) (md : Mode) (lag t : Nat) : Prop where
  mode : u.mode = md
  now : u.now = s.now
  tw : u.tw = s.tw
  flt : u.flt = s.flt
  sill : u.sill = s.sill
  ep : u.epSpan = s.epochZero lag t

theorem beginService_began (s : State) (md : Mode) (lag t : Nat) : Began s (s.beginService md lag t) md lag t := by
  unfold State.beginService
  extract_lets x0 whole stop loss x1 x2 x3 x4 t0 x5
  have hk3 : Keeps 0x400060 x1 x3 := State.wakeStart_keeps rfl (State.memClear_keeps rfl (State.wrN_keeps rfl (State.showFrame_keeps rfl
    (State.setFld_keeps rfl (.refl _ x1) _ _ _ _)) _ _) _ _)
  have hep : x3.epSpan = s.epochZero lag t := congrArg (fun e : EpochEng => { e with due := [] }) (hk3.at_ 10 rfl)
  have hm3 : x3.mode = md := hk3.at_ 4 rfl
  have hn3 : x3.now = s.now := hk3.at_ 1 rfl
  have ht3 : x3.tw = s.tw := hk3.at_ 21 rfl
  have hf3 : x3.flt = s.flt := hk3.at_ 12 rfl
  have hs3 : x3.sill = s.sill := hk3.at_ 24 rfl
  have hk := State.bentsIn_keeps (c := 0x4802c20) rfl (.refl _ x3)
  have hm : x4.mode = md := (show x4.mode = x3.mode from hk.at_ 4 rfl).trans hm3
  have hn : x4.now = s.now := (show x4.now = x3.now from hk.at_ 1 rfl).trans hn3
  have ht : x4.tw = s.tw := (show x4.tw = x3.tw from hk.at_ 21 rfl).trans ht3
  have hf : x4.flt = s.flt := (show x4.flt = x3.flt from hk.at_ 12 rfl).trans hf3
  have hs : x4.sill = s.sill := (show x4.sill = x3.sill from hk.at_ 24 rfl).trans hs3
  have he : x4.epSpan = s.epochZero lag t := (bentsIn_epSpan x3).trans hep
  split
  · exact ⟨hm, hn, ht, hf, hs, he⟩
  · obtain ⟨R, K, h⟩ := fullService_frame x5
    rw [h]
    exact ⟨hm, hn, ht, hf, hs, he⟩

end Sys2Proof.Machine
end

section
/-! PROOFS. Pairing, the lease override and hand-over (R430 to R440). -/
set_option Elab.async false
namespace Sys2Proof.Machine
open Sys2Proof

/-! ### Generations and hand-over -/

theorem newGen_facts {own peer pid : Nat} (ho : own + 2 < 2 ^ 32) (hp : peer + 2 < 2 ^ 32) (hd : pid < 2) :
    own < newGen own peer pid ∧ peer < newGen own peer pid ∧ newGen own peer pid % 2 = pid ∧ newGen own peer pid ≤ max own peer + 2 := by
  have hm := Nat.mod_two_eq_zero_or_one (max own peer + 1)
  unfold newGen
  extract_lets g
  have hg : g = max own peer + 1 := rfl
  split
  · rename_i h
    have hpar : g % 2 = pid % 2 := eq_of_beq h
    rw [Nat.mod_eq_of_lt (by omega)]
    omega
  · rename_i h
    have hpar : g % 2 ≠ pid % 2 := fun e => h (by rw [e]; simp)
    rw [Nat.mod_eq_of_lt (by omega)]
    omega

/-- Whether a transmission is in progress on a mortise follows from the time, the mortise and its bit time (R111). -/
theorem txBusy_congr {s t : State} {m : Nat} (hn : t.now = s.now) (hx : t.mort m = s.mort m) (hb : t.rd (LN_BAUD m) = s.rd (LN_BAUD m)) : t.txBusy m = s.txBusy m := by
  have hbit : t.linBitNs m = s.linBitNs m := by rw [State.linBitNs, State.fld, State.rdN, hb]; rfl
  unfold State.txBusy
  rw [hx, hn, hbit]

/-- The fold by which an old Lead lets go of its pins leaves a mortise idle where nothing is on the wire, and as it was otherwise (R440). -/
theorem letGo_fold {s : State} (hm : s.mayDrive = false) (n : Nat) :
    ∃ z, (List.range n).foldl (fun s m => s.letGo m) s = { s with mz := z } ∧
      ∀ m, nth z m = if m < n ∧ s.txBusy m = false then (s.mort m).idlePins else s.mort m := by
  induction n with
  | zero => exact ⟨s.mz, rfl, fun m => by simp [State.mort]⟩
  | succ n ih =>
    obtain ⟨z, hz, hmort⟩ := ih
    rw [List.range_succ, List.foldl_append, hz]
    obtain ⟨x, hx⟩ : ∃ x : State, x = { s with mz := z } := ⟨_, rfl⟩
    have hn : x.mort n = s.mort n := by
      rw [hx]
      exact (hmort n).trans (if_neg (by simp))
    have hbusy : x.txBusy n = s.txBusy n := txBusy_congr (by rw [hx]) hn (by rw [hx]; rfl)
    have hgo : x.letGo n = if s.txBusy n = false then x.onMort n Mortise.idlePins else x := by
      unfold State.letGo
      rw [show x.mayDrive = false by rw [hx]; exact hm, hbusy]
      simp
    rw [← hx]
    show ∃ w, x.letGo n = _ ∧ _
    by_cases hb : s.txBusy n = false
    · rw [hgo, if_pos hb]
      refine ⟨(x.onMort n Mortise.idlePins).mz, by rw [hx]; rfl, fun m => ?_⟩
      have hmo := mort_onMort x n m Mortise.idlePins
      by_cases hmn : m = n
      · subst hmn
        rw [if_pos ⟨Nat.lt_succ_self m, hb⟩, ← hn]
        refine hmo.trans ?_
        split
        · rfl
        · rename_i hlen
          have : x.mort m = default := by
            unfold State.mort nth
            exact List.getD_eq_default _ _ (by simpa using hlen)
          rw [this]
          rfl
      · refine hmo.trans ?_
        rw [if_neg (fun h => hmn h.1)]
        have : x.mort m = nth z m := by rw [hx]; rfl
        rw [this, hmort m]
        have hiff : (m < n ∧ s.txBusy m = false) ↔ (m < n + 1 ∧ s.txBusy m = false) := and_congr_left fun _ => by omega
        simp only [hiff]
    · rw [hgo, if_neg hb]
      refine ⟨z, hx, fun m => ?_⟩
      rw [hmort m]
      have hiff : (m < n ∧ s.txBusy m = false) ↔ (m < n + 1 ∧ s.txBusy m = false) := by
        constructor
        · exact fun h => ⟨by omega, h.2⟩
        · exact fun h => ⟨lt_of_le_of_ne (by omega) fun e => hb (e ▸ h.2), h.2⟩
      simp only [hiff]

/-- The old Lead at the hand-over, its pins not yet let go (R440). -/
def State.handed (s : State) : State :=
  { s with mode := .shadow, tw := { s.tw with
      handAt := none, lease := false, nopeer := false, fenceAt := none, driving := false, inStep := true, peerInStep := false, expiry := s.ep.start + 200000 } }

theorem handoverEffect_lead {s : State} {n c : Nat} (hh : s.tw.handAt = some n) (hc : s.ep.cur = some c) (hn : n ≤ c) (hm : s.mode = .lead) :
    s.handoverEffect n = (List.range 128).foldl (fun s m => s.letGo m) ((s.handed.evt TW_EVENT 11).inc (TW_CNT 5)) := by
  unfold State.handoverEffect
  extract_lets x y z
  rw [if_neg (by rw [hh, hc]; simp [hn]), if_pos (by show (s.mode == .lead) = true; rw [hm]; rfl)]
  rfl

/-- The new Lead at the hand-over, before it drives (R440). -/
def State.takenOver (s : State) : State :=
  (({ ({ s with mode := .lead, tw := { s.tw with handAt := none } } : State) with } : State).takeLease s.ep.start false).onTw
    (fun w => { w with inStep := false, peerInStep := true, peerIn := true, unagreed := [] })

theorem handoverEffect_shadow {s : State} {n c : Nat} (hh : s.tw.handAt = some n) (hc : s.ep.cur = some c) (hn : n ≤ c) (hm : s.mode = .shadow) (hi : s.tw.inStep = true) :
    s.handoverEffect n = beginDriving s.now ((s.takenOver.evt TW_EVENT 11).inc (TW_CNT 5)) := by
  unfold State.handoverEffect
  extract_lets x y z
  rw [if_neg (by rw [hh, hc]; simp [hn]), if_neg (by show ¬(s.mode == .lead) = true; rw [hm]; decide),
    if_pos (by show (s.mode == .shadow && s.tw.inStep) = true; rw [hm, hi]; rfl)]
  rfl

end Sys2Proof.Machine
end

section
namespace Sys2Proof.Proofs
open Sys2Proof Sys2Proof.Machine

/-- Settles O30: the generation, the command, and its effect on the two twins. -/
theorem handOver : Obligations.HandOver := by
  unfold Obligations.HandOver
  refine ⟨fun own peer pid ho hp hd => newGen_facts ho hp hd, fun s c hs hcase => ?_, fun s n c hh hc hn => ⟨fun hm => ?_, fun hm hi hd hdr => ?_⟩⟩
  · obtain ⟨hd, ha, hheld⟩ := hs
    have hcmd : s.handoverCommand c = s.onTw (fun w => { w with handAt := some (c + 16) }) := if_pos (by
      obtain ⟨h1, h2, h3⟩ | ⟨h1, h2⟩ := hcase
      · rw [h1, h2, h3]
        rfl
      · rw [h1, h2]
        rfl)
    have heq : s.processed true (State.handoverCommand c) = _ := (processed_unheld hd (fun _ => ha) (by rw [hcmd]; exact hheld)).trans hcmd
    exact after_hb rfl heq rfl fun b hb => ⟨rfl, rfl, hb⟩
  · have heq := handoverEffect_lead hh hc hn hm
    obtain ⟨hb, hcn, ho⟩ := evt_inc_facts s.handed (a := TW_EVENT) (b := TW_CNT 5) (k := 11) (by decide) (by decide)
    generalize (s.handed.evt TW_EVENT 11).inc (TW_CNT 5) = x at *
    obtain ⟨R, hR⟩ := ho.regs_eq
    have hsame : sameRegs [TW_EVENT, TW_CNT 5] s x := ho.same.left rfl
    obtain ⟨z, hz, hmort⟩ := letGo_fold (s := x) (by rw [hR]; rfl) 128
    rw [hz] at heq
    have hmo : ∀ m, x.mort m = s.mort m := fun m => by rw [hR]; rfl
    have hbu : ∀ m, x.txBusy m = s.txBusy m := fun m => txBusy_congr (by rw [hR]; rfl) (hmo m) (hsame _ (by
      simp only [List.mem_cons, List.not_mem_nil, or_false]
      unfold LN_BAUD TW_EVENT TW_CNT
      omega))
    rw [hR] at hb hcn hsame heq
    refine after_of rfl heq fun b _ => ⟨rfl, rfl, rfl, rfl, rfl, rfl, hb, hcn, fun m hm' hbusy => ?_, fun m hm' hbusy => ?_, hsame, rfl⟩
    · show (nth z m).pins ≠ _
      rw [hmort m, if_pos ⟨hm', (hbu m).trans hbusy⟩]
      exact idlePins_not_tenon _
    · show nth z m = _
      rw [hmort m, if_neg (by rw [hbu m, hbusy]; simp)]
      exact hmo m
  · have heq := handoverEffect_shadow hh hc hn hm hi
    obtain ⟨hb, -, ho⟩ := evt_inc_facts s.takenOver (a := TW_EVENT) (b := TW_CNT 5) (k := 11) (by decide) (by decide)
    generalize (s.takenOver.evt TW_EVENT 11).inc (TW_CNT 5) = x at *
    obtain ⟨R, hR⟩ := ho.regs_eq
    have htw := beginDriving_drives (s := x) s.now (by rw [hR]; exact hd) (by rw [hR]; rfl)
    have hmode := beginDriving_mode x s.now
    have hcur := beginDriving_epCur x s.now
    have hbit : (beginDriving s.now x).bit TW_EVENT 11 = true := by
      rw [State.bit, State.rdN, beginDriving_rd x s.now (by decide)]
      exact hb
    have hsill : (beginDriving s.now x).sill = x.sill := (beginDriving_keeps (c := 0x202422) rfl (.refl _ x) s.now).at_ 24 rfl
    generalize beginDriving s.now x = y at *
    rw [hR] at htw hmode hcur hsill
    refine after_of rfl heq fun b _ => ⟨hmode, (congrArg Twin.lease htw).trans rfl, (congrArg Twin.driving htw).trans rfl, (congrArg Twin.inStep htw).trans rfl,
      (congrArg Twin.peerInStep htw).trans rfl, (congrArg Twin.handAt htw).trans rfl, (congrArg Twin.gen htw).trans rfl, (congrArg Twin.expiry htw).trans rfl, hbit,
      (congrArg SillDie.egressClk hsill).trans rfl, hcur⟩

end Sys2Proof.Proofs
end

section
/-! PROOFS. Pairing, the end of PAIRWAIT and the lease override (R430 to R433, R439). -/
set_option Elab.async false
namespace Sys2Proof.Machine
open Sys2Proof

/-- A host in the secure world may write by the standard policy. -/
theorem secureHost_mayWrite {s : State} {ms : Master} {w : World} (h : s.secureHost ms w) (a : Nat) : s.mayWrite .std a ms (worldOf ms w) = true := by
  obtain ⟨-, hh, hw⟩ := h
  show (isHost ms && worldOf ms w == .secure) = true
  rw [hh, hw]
  rfl

/-! ### Pairing records -/

/-- The state of a unit that has met its peer, before what the pairing checks bring (R432). -/
def State.met (s : State) (t : Nat) (r : PairRec) : State :=
  { s with now := max s.now t, tw := { s.tw with
      pairAt := some t, reached := true, pgen := r.gen, peerRole := if r.inService then 0 else 3, preason := s.pairCheck r, matched := s.pairCheck r == 0 } }

/-- A failed pairing check shows (R391, R432). -/
def State.pairFailed (s : State) (k : Nat) : State :=
  if k == 4 then ((s.evt TW_EVENT 7).setBit KS_STATUS 10 true).evt KS_EVENT 11 else s.evt TW_EVENT 7

theorem pairingExchange_raise {s : State} {t : Nat} {r : PairRec} (hm : s.mode = .raise) (hd : s.dieOn = true) (hp : s.pairedFrame = true) (ht : s.tb.st = .locked)
    (ha : ∀ a, s.tw.pairAt = some a → s.tw.raiseAt ≤ a → a + 10000000 ≤ t) :
    s.pairingExchange t r = if s.pairCheck r != 0 then (s.met t r).pairFailed (s.pairCheck r)
      else if (r.inService || s.pid == 1) && s.imageReady && !s.tw.lease then ((s.met t r).setBit KS_STATUS 10 false).enterShadow t else (s.met t r).setBit KS_STATUS 10 false := by
  have hsoon : s.tw.pairAt.any (fun a => decide (s.tw.raiseAt ≤ a) && decide (t < a + 10000000)) = false := by
    cases h : s.tw.pairAt with
    | none => rfl
    | some a =>
      show (decide (s.tw.raiseAt ≤ a) && decide (t < a + 10000000)) = false
      by_cases hr : s.tw.raiseAt ≤ a
      · have := ha a h hr
        rw [decide_eq_false (by omega : ¬ t < a + 10000000), Bool.and_false]
      · rw [decide_eq_false hr, Bool.false_and]
  unfold State.pairingExchange
  extract_lets x late soon y k z v
  have hlate : late = false := by
    show (s.mode == .hold && s.tw.coldHold && s.tw.found) = false
    rw [hm]
    rfl
  have hk : k = s.pairCheck r := rfl
  have hz : z = s.met t r := by
    show y.onTw _ = _
    rw [hk]
    rfl
  rw [if_neg (by
    show ¬(!(s.mode == .raise || late) || !s.dieOn || !s.pairedFrame || s.tb.st != .locked ||
      s.tw.pairAt.any (fun a => decide (s.tw.raiseAt ≤ a) && decide (t < a + 10000000))) = true
    rw [hm, hd, hp, ht, hsoon]
    simp)]
  rw [hlate, if_neg (by decide : ¬ false = true)]
  show (if (k != 0) = true then (if (k == 4) = true then ((z.evt TW_EVENT 7).setBit KS_STATUS 10 true).evt KS_EVENT 11 else z.evt TW_EVENT 7) else _) = _
  rw [hk]
  split
  · rw [hz]
    rfl
  · show (if ((r.inService || (z.setBit KS_STATUS 10 false).pid == 1) && (z.setBit KS_STATUS 10 false).imageReady && !(z.setBit KS_STATUS 10 false).tw.lease) = true then _ else _) = _
    rw [hz]
    rfl

/-- What a failed pairing check shows (R391, R432). -/
theorem pairFailed_shows (s : State) (k : Nat) :
    (s.pairFailed k).bit TW_EVENT 7 = true ∧ (k = 4 → (s.pairFailed k).bit KS_STATUS 10 = true ∧ (s.pairFailed k).bit KS_EVENT 11 = true) ∧
      RegsOnly [TW_EVENT, KS_STATUS, KS_EVENT] s (s.pairFailed k) := by
  have h1 : RegsOnly [TW_EVENT, KS_STATUS, KS_EVENT] s (s.evt TW_EVENT 7) := (RegsOnly.refl _ s).evt (by simp) 7
  unfold State.pairFailed
  split
  · refine ⟨?_, fun _ => ⟨?_, bit_evt_same _ _ _ (by decide)⟩, (h1.setBit (by simp) 10 true).evt (by simp) 11⟩
    · rw [State.evt, bit_wrN_ne _ _ _ _ _ (by decide), State.setBit, bit_wrN_ne _ _ _ _ _ (by decide)]
      exact bit_evt_same _ _ _ (by decide)
    · rw [State.evt, bit_wrN_ne _ _ _ _ _ (by decide), bit_setBit _ _ _ _ _ (by decide), if_pos rfl]
  · rename_i h
    exact ⟨bit_evt_same _ _ _ (by decide), fun hk => absurd (beq_iff_eq.mpr hk) h, h1⟩

/-- A unit that becomes the Shadow has no epoch yet (R30, R49). -/
theorem enterShadow_enters (s : State) (t : Nat) : (s.enterShadow t).mode = .shadow ∧ (s.enterShadow t).ep = {} ∧ (s.enterShadow t).tw = s.tw ∧ (s.enterShadow t).now = s.now := by
  obtain ⟨hm, hn, ht, -, -, -⟩ := beginService_began s .shadow 3 t
  unfold State.enterShadow
  generalize s.beginService .shadow 3 t = x at *
  exact ⟨hm, rfl, ht, hn⟩

/-! ### Hold for want of a peer -/

/-- What Hold from Raise leaves of the mode, the time, the twin and the epoch engine (R49). -/
theorem holdFromRaise_enters (s : State) (lag t : Nat) :
    (s.holdFromRaise lag t).mode = .hold ∧ (s.holdFromRaise lag t).now = s.now ∧ (s.holdFromRaise lag t).tw = s.tw ∧ (s.holdFromRaise lag t).flt.holdAt = none ∧
      (s.holdFromRaise lag t).fr.hand = none ∧ (s.holdFromRaise lag t).ep.cur = some 0 ∧ (s.holdFromRaise lag t).ep.start = t ∧ (s.holdFromRaise lag t).ep.lag = lag := by
  unfold State.holdFromRaise
  extract_lets f p x y
  obtain ⟨hm, hn, ht, hf, -, he⟩ := beginService_began x .hold lag t
  have hk := State.gwHold_keeps (c := 0x60) rfl (.refl _ y)
  have hfr : y.gwHold.fr = y.fr := hk.at_ 11 rfl
  have hep : y.gwHold.ep = y.ep := hk.at_ 10 rfl
  have hflt : y.gwHold.flt = y.flt := hk.at_ 12 rfl
  refine ⟨(show y.gwHold.mode = y.mode from hk.at_ 4 rfl).trans hm, (show y.gwHold.now = y.now from hk.at_ 1 rfl).trans hn, (show y.gwHold.tw = y.tw from hk.at_ 21 rfl).trans ht,
    ?_, ?_, ?_, ?_, ?_⟩
  · rw [hflt]
    exact congrArg FaultMgr.holdAt hf
  · rw [hfr]
    rfl
  · rw [hep]
    exact congrArg EpochEng.cur he
  · rw [hep]
    exact congrArg EpochEng.start he
  · rw [hep]
    exact congrArg EpochEng.lag he

theorem pairwaitExpiry_holds {s : State} {t : Nat} (hm : s.mode = .raise) (hd : s.dieOn = true) (hp : s.pairedFrame = true) (hr : s.tw.reached = false) (hl : s.tw.lease = false)
    (ht : s.tw.raiseAt + oct s.twinCfg 1 * 10000000 ≤ t) (hb : s.mayBegin t = true) :
    s.pairwaitExpiry t = (((s.tick t).onTw (fun w => { w with preason := 5, stale := true })).holdFromRaise 1 t).onTw (fun w => { w with coldHold := true, egressOff := true }) := by
  unfold State.pairwaitExpiry
  extract_lets x y f z
  have hz : z = y.holdFromRaise 1 t := if_pos hb
  rw [if_neg (by
    show ¬(s.mode != .raise || !s.dieOn || !s.pairedFrame || s.tw.reached || s.tw.lease || decide (t < s.tw.raiseAt + oct s.twinCfg 1 * 10000000)) = true
    rw [hm, hd, hp, hr, hl, decide_eq_false (by omega)]
    decide), hz]

/-! ### Writes beside the ledger fields of a register -/

/-- A row whose writes are held up by nothing, none of whose ledger fields and no stored field lies under the mask `m`. -/
def besideRow (r : RegRow) (m : Nat) : Bool :=
  !inTenonArea r && !([.ring, .msix, .tamp].contains r.pol) && !([KS_UPBUF 0, EB_WP_M 0 0 0, EB_WP_CTL 0 0, EB_MACCFG 0, EB_RXCFG 0].contains r.base) &&
    startsOnly r m && r.fields.all (fun f => !f.ledger || (m >>> f.lo) % 2 ^ f.width == 0)

theorem rowMask_ledger_beside {r : RegRow} {m : Nat} (h : r.fields.all (fun f => !f.ledger || (m >>> f.lo) % 2 ^ f.width == 0) = true) (p : Field → Bool) :
    rowMask r (fun f => f.ledger && p f) &&& m = 0 := by
  refine Nat.eq_of_testBit_eq fun k => ?_
  rw [Nat.testBit_and, rowMask_testBit, Nat.zero_testBit]
  cases hm : m.testBit k
  · exact Bool.and_false _
  rw [Bool.and_true, List.any_eq_false]
  intro f hf hk
  simp only [Bool.and_eq_true, decide_eq_true_eq] at hk
  obtain ⟨⟨⟨hl, -⟩, hlo⟩, hhi⟩ := hk
  have hb := List.all_eq_true.mp h f hf
  rw [hl, Bool.not_true, Bool.false_or, beq_iff_eq] at hb
  have hb := congrArg (·.testBit (k - f.lo)) hb
  simp only [Nat.testBit_mod_two_pow, Nat.testBit_shiftRight, Nat.zero_testBit, show f.lo + (k - f.lo) = k by omega, hm] at hb
  simp only [Bool.and_true, decide_eq_false_iff_not] at hb
  omega

/-- A permitted access whose written bits store nothing and reach no ledger field is what the register's action is. -/
theorem busWrite_beside {s t : State} {ms : Master} {w : World} {a v m : Nat} (pol : Pol) (hre : s.reaches ms (worldOf ms w)) (ha : a % 4 = 0 ∧ a < 0x800000)
    (hrow : ((hitRow a).any fun r => r.ten == .any && (r.pol == pol && besideRow r m)) = true) (hmay : s.mayWrite pol a ms (worldOf ms w) = true)
    (hst : a ≠ FR_STAGE) (hep : a ≠ EP_CTRL) (hv : v < 2 ^ 32) (hact : s.actWrite ms (worldOf ms w) a (v &&& m) = t) (hrole : t.tbRole = s.tbRole)
    (hhb : t.hb.stalled = s.hb.stalled) : s.busWrite ms w a v m = t := by
  obtain ⟨r, hr, -, hp⟩ := rowAt_of_any hrow s
  simp only [besideRow, Bool.and_eq_true, Bool.not_eq_true', List.contains_eq_mem, decide_eq_false_iff_not, List.mem_cons, List.not_mem_nil, or_false, not_or, beq_iff_eq] at hp
  obtain ⟨hpol, ⟨⟨⟨ht, hp1, hp2, hp3⟩, hb1, hb2, hb3, hb4, hb5⟩, hstart⟩, hled⟩ := hp
  have hstl : s.hb.stalled = [] := hre.2.2.1
  have hplain : s.plainWrite r ms (worldOf ms w) a v m 0 = t := by
    have hstore := storeFields_startsOnly s a v 0 hstart
    simp [State.plainWrite, State.tenonShut, ht, hp1, hp2, hp3, hb1, hb2, hb3, State.writeIgnored, hb4, hb5, hst, State.openBits, hep, hstore, hact, hrole]
  have hlocal : s.localWrite ms (worldOf ms w) a 4 v m 0 = t := by
    have hzero := rowMask_ledger_beside hled (fun f => f.acc != .ro && (f.acc != .lk || s.lkOpen a))
    simp only [← Bool.and_assoc] at hzero
    unfold State.localWrite
    rw [if_neg (by simp [wordAccess, ha.1]), hr]
    show (if (!s.mayWrite r.pol a ms (worldOf ms w)) = true then _ else _) = _
    rw [hpol, hmay, if_neg (by decide)]
    extract_lets led y
    have hl0 : led = 0 := hzero
    rw [hl0]
    exact hplain
  rw [busWrite_reaches _ _ _ _ _ _ hre ha.2, Nat.mod_eq_of_lt hv, hlocal]
  exact unstall_empty _ (hhb.trans hstl)

/-! ### The lease override -/

theorem leaseOverride_takes {s : State} {t : Nat} {ms : Master} {w : World} {key : Nat} (hs : s.secureHost ms w) (hk : key % 256 = 0xA5) (hm : s.mode = .raise)
    (hp : s.pairedFrame = true) (hr : s.tw.reached = false) (hl : s.tw.lease = false) :
    (s.tick t).busWrite ms w TW_CTRL (2 + 256 * (key % 256)) 0xFF02 = (s.tick t).takeLease (s.tick t).now true := by
  have hd : s.dieOn = true := hs.1.1
  rw [hk]
  refine busWrite_beside .std (reaches_tick t hs.1) (by decide) (by decide +kernel) (secureHost_mayWrite (s := s) hs TW_CTRL) (by decide) (by decide) (by decide) ?_ rfl rfl
  have hact : ∀ v, (s.tick t).actWrite ms (worldOf ms w) TW_CTRL v = if v.testBit 1 then (s.tick t).leaseOverride (s.tick t).now (bitsN v 8 8) else s.tick t := fun _ => rfl
  rw [hact, if_pos (by decide), show bitsN ((2 + 256 * 0xA5) &&& 0xFF02) 8 8 = 0xA5 by decide]
  unfold State.leaseOverride
  rw [tick_tick]
  extract_lets x
  exact if_pos (by
    show (165 % 256 == 165 && s.mode == .raise && s.dieOn && s.pairedFrame && !s.tw.reached && !s.tw.lease) = true
    rw [hm, hd, hp, hr, hl]
    decide)

end Sys2Proof.Machine
end

section
namespace Sys2Proof.Proofs
open Sys2Proof Sys2Proof.Machine

/-- The exchange of pairing records. -/
theorem after_pairingExchange (s : State) (t : Nat) (r : PairRec) (hm : s.mode = .raise) (hd : s.dieOn = true) (hp : s.pairedFrame = true) (ht : s.tb.st = .locked)
    (ha : ∀ a, s.tw.pairAt = some a → s.tw.raiseAt ≤ a → a + 10000000 ≤ t) : After (.pairingExchange t r) s fun u =>
    u.tw.preason = s.pairCheck r ∧ u.tw.matched = decide (s.pairCheck r = 0) ∧ u.tw.reached = true ∧ u.tw.pgen = r.gen ∧ u.tw.gen = s.tw.gen ∧ u.now = max s.now t ∧
    (s.pairCheck r ≠ 0 → u.mode = .raise ∧ u.bit TW_EVENT 7 = true ∧ (s.pairCheck r = 4 → u.bit KS_STATUS 10 = true ∧ u.bit KS_EVENT 11 = true) ∧
      sameRegs [TW_EVENT, KS_STATUS, KS_EVENT] s u) ∧
    (s.pairCheck r = 0 → u.mode = (if (r.inService ∨ s.pid = 1) ∧ s.imageReady = true ∧ s.tw.lease = false then .shadow else .raise)) ∧
    (u.mode = .shadow → u.ep = {} ∧ u.tw.inStep = s.tw.inStep) := by
  have heq := pairingExchange_raise (r := r) hm hd hp ht ha
  have hmatch : (s.met t r).tw.matched = decide (s.pairCheck r = 0) := by
    show (s.pairCheck r == 0) = _
    rw [Bool.eq_iff_iff]
    simp
  have hmet : (s.met t r).tw.preason = s.pairCheck r ∧ (s.met t r).tw.reached = true ∧ (s.met t r).tw.pgen = r.gen ∧ (s.met t r).tw.gen = s.tw.gen ∧
      (s.met t r).now = max s.now t ∧ (s.met t r).mode = .raise ∧ (s.met t r).tw.inStep = s.tw.inStep ∧ (s.met t r).hb = s.hb ∧ (s.met t r).regs = s.regs :=
    ⟨rfl, rfl, rfl, rfl, rfl, hm, rfl, rfl, rfl⟩
  generalize s.met t r = x at *
  obtain ⟨h1, h2, h3, h4, h5, h6, h7, -, hregs⟩ := hmet
  generalize s.pairCheck r = k at *
  by_cases hk : k = 0
  · rw [if_neg (by rw [hk]; decide)] at heq
    by_cases hc : (r.inService = true ∨ s.pid = 1) ∧ s.imageReady = true ∧ s.tw.lease = false
    · have hcond : ((r.inService || s.pid == 1) && s.imageReady && !s.tw.lease) = true := by
        obtain ⟨ho, hi, hle⟩ := hc
        rw [hi, hle]
        obtain ho | ho := ho <;> simp [ho]
      rw [if_pos hcond] at heq
      obtain ⟨e1, e2, e3, e4⟩ := enterShadow_enters (x.setBit KS_STATUS 10 false) t
      generalize (x.setBit KS_STATUS 10 false).enterShadow t = y at *
      have htw : y.tw = x.tw := e3
      exact after_of rfl heq fun b _ => ⟨(congrArg Twin.preason htw).trans h1, (congrArg Twin.matched htw).trans hmatch, (congrArg Twin.reached htw).trans h2,
        (congrArg Twin.pgen htw).trans h3, (congrArg Twin.gen htw).trans h4, e4.trans h5, fun hn => absurd hk hn, fun _ => (if_pos hc ▸ e1 : y.mode = _),
        fun _ => ⟨e2, (congrArg Twin.inStep htw).trans h7⟩⟩
    · have hcond : ¬((r.inService || s.pid == 1) && s.imageReady && !s.tw.lease) = true := fun h => hc (by simpa [and_assoc] using h)
      rw [if_neg hcond] at heq
      exact after_of rfl heq fun b _ => ⟨h1, hmatch, h2, h3, h4, h5, fun hn => absurd hk hn, fun _ => by rw [if_neg hc]; exact h6,
        fun hsh => absurd (h6.symm.trans hsh) (by decide)⟩
  · rw [if_pos (by simpa using hk)] at heq
    obtain ⟨hb, hks, ho⟩ := pairFailed_shows x k
    generalize x.pairFailed k = y at *
    obtain ⟨R, hR⟩ := ho.regs_eq
    have hsame : sameRegs [TW_EVENT, KS_STATUS, KS_EVENT] s y := ho.same.left hregs.symm
    rw [hR] at hb hks hsame heq
    exact after_of rfl heq fun b _ => ⟨h1, hmatch, h2, h3, h4, h5, fun _ => ⟨h6, hb, hks, hsame⟩, fun h => absurd h hk, fun hsh => absurd (h6.symm.trans hsh) (by decide)⟩

/-- Settles O29: the exchange, the peer not reached in time, and the override. -/
theorem pairing : Obligations.Pairing := by
  unfold Obligations.Pairing
  refine ⟨after_pairingExchange, fun s t hm hd hp hr hl ht hb => ?_, fun s t key ms w hs hk hm hp hr hl => ?_⟩
  · have heq := pairwaitExpiry_holds hm hd hp hr hl ht hb
    obtain ⟨e1, e2, e3, -, -, e6, e7, e8⟩ := holdFromRaise_enters ((s.tick t).onTw (fun w => { w with preason := 5, stale := true })) 1 t
    generalize ((s.tick t).onTw (fun w => { w with preason := 5, stale := true })).holdFromRaise 1 t = y at *
    exact after_of rfl heq fun b _ => ⟨e1, e6, e7, e8, (congrArg Twin.preason e3).trans rfl, (congrArg Twin.stale e3).trans rfl, rfl, rfl, (congrArg Twin.lease e3).trans hl, e2⟩
  · have heq := leaseOverride_takes (t := t) hs hk hm hp hr hl
    exact after_of rfl heq fun b _ => ⟨rfl, rfl, rfl, rfl, rfl, rfl, fun _ _ => rfl, rfl⟩

end Sys2Proof.Proofs
end

section
/-! PROOFS. Hold and the ends of fault handlers (R30, R34, R463 to R467). -/
set_option Elab.async false
namespace Sys2Proof.Machine
open Sys2Proof

/-! ### Acknowledgement (R463, R466) -/

/-- A field whose bits read as before reads as before. -/
theorem fld_congr_bits {s u : State} {a lo w : Nat} (h : ∀ k < w, u.bit a (lo + k) = s.bit a (lo + k)) : u.fld a lo w = s.fld a lo w := by
  refine Nat.eq_of_testBit_eq fun k => ?_
  simp only [State.fld, bitsN, Nat.testBit_mod_two_pow, Nat.testBit_shiftRight]
  by_cases hk : k < w
  · rw [decide_eq_true hk, Bool.true_and, Bool.true_and]
    exact h k hk
  · rw [decide_eq_false hk, Bool.false_and, Bool.false_and]

/-- What FLT_ACK does for class `k`: its interrupt bit, and the handlers of F0 to F2. -/
def State.ackClass (ack : Nat) (s : State) (k : Nat) : State :=
  if ack.testBit k then
    let s := s.setBit FLT_STATUS (6 + k) false
    if k ≤ 2 then s.endHandler k else s
  else s

theorem ackClass_bit (ack : Nat) (s : State) {k j : Nat} (hj : j < 32) :
    (State.ackClass ack s k).bit FLT_STATUS j = (s.bit FLT_STATUS j && !(ack.testBit k && (decide (j = 6 + k) || (decide (k ≤ 2) && decide (j = k))))) := by
  unfold State.ackClass
  by_cases ha : ack.testBit k = true
  · rw [if_pos ha, ha]
    by_cases hk : k ≤ 2
    · rw [if_pos hk, State.endHandler, bit_setBit _ _ _ _ _ hj, bit_setBit _ _ _ _ _ hj]
      by_cases h1 : j = k
      · simp [h1, hk]
      · by_cases h2 : j = 6 + k <;> simp [h1, h2]
    · rw [if_neg hk, bit_setBit _ _ _ _ _ hj]
      by_cases h2 : j = 6 + k <;> simp [hk, h2]
  · rw [if_neg ha, Bool.eq_false_iff.mpr ha]
    simp

theorem ackClass_only (ack : Nat) (s : State) (k : Nat) : RegsOnly [FLT_STATUS] s (State.ackClass ack s k) := by
  unfold State.ackClass
  have h1 : RegsOnly [FLT_STATUS] s (s.setBit FLT_STATUS (6 + k) false) := (RegsOnly.refl _ s).setBit (List.mem_singleton.mpr rfl) _ _
  exact .ite (fun _ => .ite (fun _ => h1.setBit (List.mem_singleton.mpr rfl) _ _) fun _ => h1) fun _ => .refl _ s

/-- The classes that an acknowledgement names, one after another. -/
def State.acked (s : State) (ack : Nat) : State := (List.range 5).foldl (State.ackClass ack) s

theorem acked_only (s : State) (ack : Nat) : RegsOnly [FLT_STATUS] s (s.acked ack) := RegsOnly.foldl _ (fun u k _ => ackClass_only ack u k) (.refl _ s)

theorem acked_bit (s : State) (ack : Nat) {j : Nat} (hj : j < 32) :
    (s.acked ack).bit FLT_STATUS j = (s.bit FLT_STATUS j && (List.range 5).all fun k => !(ack.testBit k && (decide (j = 6 + k) || (decide (k ≤ 2) && decide (j = k))))) := by
  unfold State.acked
  generalize List.range 5 = l
  induction l generalizing s with
  | nil => simp
  | cons k l ih => rw [List.foldl_cons, ih, ackClass_bit _ _ hj, List.all_cons, Bool.and_assoc]

theorem faultAck_eq (s : State) (ack : Nat) :
    s.faultAck ack = if ack.testBit 2 then { s.acked ack with flt := { (s.acked ack).flt with f2Iso := [] } } else s.acked ack := rfl

/-- The bits of FLT_STATUS after an acknowledgement. -/
theorem acked_facts (s : State) (ack : Nat) :
    (∀ k < 5, (s.acked ack).bit FLT_STATUS (6 + k) = (s.bit FLT_STATUS (6 + k) && !ack.testBit k)) ∧
      (∀ k < 3, (s.acked ack).bit FLT_STATUS k = (s.bit FLT_STATUS k && !ack.testBit k)) ∧
      (∀ k, 3 ≤ k → k < 6 → (s.acked ack).bit FLT_STATUS k = s.bit FLT_STATUS k) ∧ (∀ k, 11 ≤ k → k < 32 → (s.acked ack).bit FLT_STATUS k = s.bit FLT_STATUS k) := by
  refine ⟨fun k hk => ?_, fun k hk => ?_, fun k h1 h2 => ?_, fun k h1 h2 => ?_⟩
  · rw [acked_bit _ _ (by omega)]
    interval_cases k <;> simp [List.range_succ]
  · rw [acked_bit _ _ (by omega)]
    interval_cases k <;> simp [List.range_succ]
  · rw [acked_bit _ _ (by omega)]
    interval_cases k <;> simp [List.range_succ]
  · rw [acked_bit _ _ h2]
    have : (List.range 5).all (fun i => !(ack.testBit i && (decide (k = 6 + i) || (decide (i ≤ 2) && decide (k = i))))) = true := by
      rw [List.all_eq_true]
      intro i hi
      have := List.mem_range.mp hi
      rw [decide_eq_false (by omega), decide_eq_false (show ¬ k = i by omega)]
      simp
    rw [this, Bool.and_true]

theorem busWrite_ack {s : State} {ms : Master} {w : World} (hs : s.secureHost ms w) (ack : Nat) : s.busWrite ms w FLT_ACK (ack % 32) 0x1F = s.faultAck (ack % 32) := by
  have hlt : ack % 32 < 32 := Nat.mod_lt _ (by decide)
  have hand : (ack % 32) &&& 0x1F = ack % 32 := by
    rw [show (0x1F : Nat) = 2 ^ 5 - 1 by decide, Nat.and_two_pow_sub_one_eq_mod]
    exact Nat.mod_eq_of_lt hlt
  have hact : ∀ v, s.actWrite ms (worldOf ms w) FLT_ACK v = if v.testBit 5 then (s.faultAck (v % 32)).secondFaultClear else s.faultAck (v % 32) := fun _ => rfl
  have h5 : (ack % 32).testBit 5 = false := Nat.testBit_lt_two_pow hlt
  have ho : RegsOnly [FLT_STATUS] s (s.acked (ack % 32)) := acked_only s _
  refine busWrite_starts .std hs.1 (by decide) (by decide +kernel) (secureHost_mayWrite hs FLT_ACK) (by decide) (by decide) (by omega) ?_ ?_ ?_
  · rw [hand, hact, h5, if_neg (by decide), Nat.mod_mod]
  · rw [faultAck_eq]
    have hrd := ho.same EP_TBCFG (by decide)
    split
    · exact tbRole_congr hrd
    · exact tbRole_congr hrd
  · rw [faultAck_eq]
    split
    · exact congrArg Bridge.stalled ho.hb
    · exact congrArg Bridge.stalled ho.hb

/-- An acknowledgement that names no class leaves the unit as it is. -/
theorem faultAck_zero (s : State) : s.faultAck 0 = s := by
  rw [faultAck_eq, if_neg (by decide), State.acked]
  simp [State.ackClass, List.range_succ]

theorem busWrite_sfclr {s : State} {ms : Master} {w : World} (hs : s.secureHost ms w) : s.busWrite ms w FLT_ACK 0x20 0x20 = s.secondFaultClear := by
  have hact : ∀ v, s.actWrite ms (worldOf ms w) FLT_ACK v = if v.testBit 5 then (s.faultAck (v % 32)).secondFaultClear else s.faultAck (v % 32) := fun _ => rfl
  refine busWrite_starts .std hs.1 (by decide) (by decide +kernel) (secureHost_mayWrite hs FLT_ACK) (by decide) (by decide) (by decide) ?_ ?_ rfl
  · rw [hact, if_pos (by decide), show ((0x20 : Nat) &&& 0x20) % 32 = 0 by decide, faultAck_zero]
  · refine tbRole_congr ?_
    unfold State.secondFaultClear State.setFld
    simp only [rd_wrN_ne _ _ (show EP_TBCFG ≠ FLT_STATUS by decide), rd_wrN_ne _ _ (show EP_TBCFG ≠ FLT_SF_W0 by decide), rd_wrN_ne _ _ (show EP_TBCFG ≠ FLT_SF_W1 by decide),
      rd_wrN_ne _ _ (show EP_TBCFG ≠ FLT_SF_W2 by decide), rd_wrN_ne _ _ (show EP_TBCFG ≠ FLT_SF_W3 by decide)]

/-- The second-fault record after SFCLR (R464). -/
theorem secondFaultClear_facts (s : State) :
    s.secondFaultClear.rdN FLT_SF_W0 = 0 ∧ s.secondFaultClear.rdN FLT_SF_W1 = 0 ∧ s.secondFaultClear.rdN FLT_SF_W2 = 0 ∧ s.secondFaultClear.rdN FLT_SF_W3 = 0 ∧
      s.secondFaultClear.fld FLT_STATUS 16 16 = 0 ∧ s.secondFaultClear.fld FLT_STATUS 0 16 = s.fld FLT_STATUS 0 16 ∧
      RegsOnly [FLT_STATUS, FLT_SF_W0, FLT_SF_W1, FLT_SF_W2, FLT_SF_W3] s s.secondFaultClear := by
  obtain ⟨x, hx⟩ : ∃ x, x = (((s.wrN FLT_SF_W0 0).wrN FLT_SF_W1 0).wrN FLT_SF_W2 0).wrN FLT_SF_W3 0 := ⟨_, rfl⟩
  have ho : RegsOnly [FLT_SF_W0, FLT_SF_W1, FLT_SF_W2, FLT_SF_W3] s x := by
    rw [hx]
    exact ((((RegsOnly.refl _ s).wrN (by simp) 0).wrN (by simp) 0).wrN (by simp) 0).wrN (by simp) 0
  have hclr : s.secondFaultClear = x.setFld FLT_STATUS 16 16 0 := by rw [hx]; rfl
  have hset : RegsOnly [FLT_STATUS] x (x.setFld FLT_STATUS 16 16 0) := (RegsOnly.refl _ x).setFld (by simp) _ _ _
  have h0 : ∀ a ∈ [FLT_SF_W0, FLT_SF_W1, FLT_SF_W2, FLT_SF_W3], x.rdN a = 0 := by
    intro a ha
    simp only [List.mem_cons, List.not_mem_nil, or_false] at ha
    rw [hx]
    obtain rfl | rfl | rfl | rfl := ha
    · rw [rdN_wrN_ne _ _ _ _ (by decide), rdN_wrN_ne _ _ _ _ (by decide), rdN_wrN_ne _ _ _ _ (by decide), rdN_wrN_same]
      rfl
    · rw [rdN_wrN_ne _ _ _ _ (by decide), rdN_wrN_ne _ _ _ _ (by decide), rdN_wrN_same]
      rfl
    · rw [rdN_wrN_ne _ _ _ _ (by decide), rdN_wrN_same]
      rfl
    · rw [rdN_wrN_same]
      rfl
  rw [hclr]
  refine ⟨?_, ?_, ?_, ?_, ?_, ?_, (ho.mono (by simp)).trans (hset.mono (by simp))⟩
  · rw [hset.rdN (by decide), h0 _ (by simp)]
  · rw [hset.rdN (by decide), h0 _ (by simp)]
  · rw [hset.rdN (by decide), h0 _ (by simp)]
  · rw [hset.rdN (by decide), h0 _ (by simp)]
  · rw [fld_setFld_same _ _ _ _ _ (by decide)]
    rfl
  · rw [fld_setFld_ne _ _ _ _ _ _ _ (by decide) (by decide)]
    exact ho.same.fld (by decide) 0 16

/-! ### Hold (R30, R34, R467) -/

/-- The state of a unit that enters Hold from service without the right to drive on, before the gateway and the pins follow (R34, R467). -/
def State.heldFrom (s : State) (n : Nat) : State :=
  { s.holdDrop n with
    mode := .hold
    flt := { s.flt with holdAt := none }
    tw := { s.tw with holdDrive := false, inStep := false, peerInStep := false, catchUp := 0, handAt := none, joinAt := none, admitted := false, unagreed := [] }
    pw := { s.pw with divided := false } }

theorem holdEntry_solo {s : State} {t n c : Nat} (hm : s.mode = .solo) (hh : s.flt.holdAt = some n) (hc : s.ep.cur = some c) (hn : n ≤ c) (hcold : s.tw.coldHold = false) :
    s.holdEntry t = ((s.tick t).heldFrom c).gwHold.stopDriving := by
  unfold State.holdEntry
  extract_lets x
  rw [show x.flt.holdAt = some n from hh, show x.mode = .solo from hm, show x.ep.cur = some c from hc]
  show (if n ≤ c then _ else _) = _
  rw [if_pos hn]
  have hdrive : ((x.mode == .lead || x.tw.coldHold) && x.tw.lease) = false := by
    rw [show x.mode = .solo from hm, show x.tw.coldHold = false from hcold]
    rfl
  unfold State.holdFromService
  rw [hdrive]
  rfl

theorem holdEntry_raise {s : State} {t n : Nat} (hm : s.mode = .raise) (hh : s.flt.holdAt = some n) (hb : s.mayBegin t = true) :
    s.holdEntry t = (s.tick t).holdFromRaise 1 t := by
  unfold State.holdEntry
  extract_lets x
  rw [show x.flt.holdAt = some n from hh, show x.mode = .raise from hm]
  exact if_pos hb

/-- The gateway in Hold leaves the registers but its own status (R292). -/
theorem gwHold_rd (s : State) {a : Nat} (h : a ≠ SG_STATUS) : s.gwHold.rd a = s.rd a := by
  unfold State.gwHold
  extract_lets ps
  refine (rd_wrN_ne _ _ h).trans (rd_congr ?_ a)
  exact foldl_view (fun z => z.regs) _ _ s fun z p _ => (State.freshPdu_keeps (c := 0x40) rfl (.refl _ z) p).at_ 5 rfl

end Sys2Proof.Machine
end

section
namespace Sys2Proof.Proofs
open Sys2Proof Sys2Proof.Machine

/-- Hold from service in Solo. -/
theorem after_holdEntry_solo (s : State) (t n c : Nat) (hm : s.mode = .solo) (hh : s.flt.holdAt = some n) (hc : s.ep.cur = some c) (hn : n ≤ c) (hcold : s.tw.coldHold = false) :
    After (.holdEntry t) s fun u =>
      u.mode = .hold ∧ u.flt.holdAt = none ∧ u.ep.cur = some c ∧ u.ep.inputs = s.ep.inputs.filter (fun i => decide (c ≤ i.stamp)) ∧
      u.ep.handing = s.ep.handing.filter (fun i => decide (c ≤ i.stamp)) ∧
      u.rdN FLT_HDROP = (s.rdN FLT_HDROP + ((s.ep.inputs ++ s.ep.handing).filter (fun i => decide (i.stamp < c))).length) % 2 ^ 32 ∧
      u.tw.driving = false ∧ u.tw.holdDrive = false ∧ (∀ m < 128, (u.mort m).pins ≠ .tenon) ∧ u.now = max s.now t := by
  have heq := holdEntry_solo (t := t) hm hh hc hn hcold
  have hdrop : ((s.tick t).heldFrom c).rdN FLT_HDROP = (s.rdN FLT_HDROP + ((s.ep.inputs ++ s.ep.handing).filter (fun i => decide (i.stamp < c))).length) % 2 ^ 32 :=
    rdN_inc_same (s.tick t) FLT_HDROP _
  have hx : ((s.tick t).heldFrom c).mode = .hold ∧ ((s.tick t).heldFrom c).flt.holdAt = none ∧ ((s.tick t).heldFrom c).ep.cur = s.ep.cur ∧
      ((s.tick t).heldFrom c).ep.inputs = s.ep.inputs.filter (fun i => decide (c ≤ i.stamp)) ∧
      ((s.tick t).heldFrom c).ep.handing = s.ep.handing.filter (fun i => decide (c ≤ i.stamp)) ∧ ((s.tick t).heldFrom c).tw.holdDrive = false ∧
      ((s.tick t).heldFrom c).now = max s.now t := ⟨rfl, rfl, rfl, rfl, rfl, rfl, rfl⟩
  generalize (s.tick t).heldFrom c = x at *
  obtain ⟨h1, h2, h3, h4, h5, h6, h7⟩ := hx
  have hk := State.gwHold_keeps (c := 0x60) rfl (.refl _ x)
  have hgm : x.gwHold.mode = x.mode := hk.at_ 4 rfl
  have hgf : x.gwHold.flt = x.flt := hk.at_ 12 rfl
  have hge : x.gwHold.ep = x.ep := hk.at_ 10 rfl
  have hgt : x.gwHold.tw = x.tw := hk.at_ 21 rfl
  have hgn : x.gwHold.now = x.now := hk.at_ 1 rfl
  have hgd : x.gwHold.rdN FLT_HDROP = x.rdN FLT_HDROP := congrArg BitVec.toNat (gwHold_rd x (by decide))
  generalize x.gwHold = y at *
  have ho := stopDriving_only y
  have hr : y.stopDriving.rdN FLT_HDROP = y.rdN FLT_HDROP := ho.rdN fun h => absurd (tecRegs_above h) (by decide)
  obtain ⟨R, hR⟩ := ho.regs_eq
  rw [hR] at heq hr
  refine after_of rfl heq fun b _ => ⟨hgm.trans h1, (congrArg FaultMgr.holdAt hgf).trans h2, (congrArg EpochEng.cur hge).trans (h3.trans hc),
    (congrArg EpochEng.inputs hge).trans h4, (congrArg EpochEng.handing hge).trans h5, hr.trans (hgd.trans hdrop), rfl, (congrArg Twin.holdDrive hgt).trans h6, fun m _ => ?_, hgn.trans h7⟩
  show (nth (y.mz.map Mortise.idlePins) m).pins ≠ .tenon
  rw [nth_map_idlePins]
  exact idlePins_not_tenon _

/-- An acknowledgement by a host in the secure world. -/
theorem after_faultAck (s : State) (ms : Master) (w : World) (ack : Nat) (hs : s.secureHost ms w) : After (.faultAck ms w ack) s fun u =>
    (∀ k < 5, u.bit FLT_STATUS (6 + k) = (s.bit FLT_STATUS (6 + k) && !ack.testBit k)) ∧ (∀ k < 3, u.bit FLT_STATUS k = (s.bit FLT_STATUS k && !ack.testBit k)) ∧
    u.bit FLT_STATUS 3 = s.bit FLT_STATUS 3 ∧ u.bit FLT_STATUS 4 = s.bit FLT_STATUS 4 ∧ u.bit FLT_STATUS 5 = s.bit FLT_STATUS 5 ∧
    u.fld FLT_STATUS 16 16 = s.fld FLT_STATUS 16 16 ∧ sameRegs [FLT_STATUS] s u ∧
    u.flt = { s.flt with f2Iso := if ack.testBit 2 then [] else s.flt.f2Iso } ∧ u = { s with regs := u.regs, flt := u.flt, hb := u.hb } := by
  have heq := (busWrite_ack hs ack).trans (faultAck_eq s (ack % 32))
  have hbit : ∀ k < 5, (ack % 32).testBit k = ack.testBit k := fun k hk => by
    rw [show (32 : Nat) = 2 ^ 5 by decide, Nat.testBit_mod_two_pow, decide_eq_true hk, Bool.true_and]
  obtain ⟨h1, h2, h3, h4⟩ := acked_facts s (ack % 32)
  have ho := acked_only s (ack % 32)
  generalize s.acked (ack % 32) = x at *
  have hf : x.fld FLT_STATUS 16 16 = s.fld FLT_STATUS 16 16 := fld_congr_bits fun k hk => h4 _ (by omega) (by omega)
  have h1' : ∀ k < 5, x.bit FLT_STATUS (6 + k) = (s.bit FLT_STATUS (6 + k) && !ack.testBit k) := fun k hk => by rw [h1 k hk, hbit k hk]
  have h2' : ∀ k < 3, x.bit FLT_STATUS k = (s.bit FLT_STATUS k && !ack.testBit k) := fun k hk => by rw [h2 k hk, hbit k (by omega)]
  have hsame := ho.same
  have h33 := h3 3 (by decide) (by decide)
  have h34 := h3 4 (by decide) (by decide)
  have h35 := h3 5 (by decide) (by decide)
  obtain ⟨R, hR⟩ := ho.regs_eq
  rw [hbit 2 (by decide)] at heq
  by_cases ha : ack.testBit 2 = true
  · rw [if_pos ha] at heq
    rw [hR] at heq h1' h2' h33 h34 h35 hf hsame
    exact after_of rfl heq fun b _ => ⟨h1', h2', h33, h34, h35, hf, hsame, by rw [if_pos ha], rfl⟩
  · rw [if_neg ha] at heq
    rw [hR] at heq h1' h2' h33 h34 h35 hf hsame
    exact after_of rfl heq fun b _ => ⟨h1', h2', h33, h34, h35, hf, hsame, by rw [if_neg ha], rfl⟩

/-- Settles O35: Hold from service and from Raise, and the ends of handlers. -/
theorem holdAndHandlers : Obligations.HoldAndHandlers := by
  unfold Obligations.HoldAndHandlers
  refine ⟨after_holdEntry_solo, fun s t n hm hh hb => ?_, after_faultAck, fun s ms w hs => ?_, fun s t hbit ht => ?_⟩
  · have heq := holdEntry_raise hm hh hb
    obtain ⟨e1, e2, -, e4, e5, e6, e7, e8⟩ := holdFromRaise_enters (s.tick t) 1 t
    generalize (s.tick t).holdFromRaise 1 t = y at *
    exact after_of rfl heq fun b _ => ⟨e1, e4, e6, e7, e8, e5, e2⟩
  · have heq := busWrite_sfclr hs
    obtain ⟨h0, h1, h2, h3, hf, hl, ho⟩ := secondFaultClear_facts s
    generalize s.secondFaultClear = x at *
    have hsame := ho.same
    obtain ⟨R, hR⟩ := ho.regs_eq
    rw [hR] at h0 h1 h2 h3 hf hl hsame heq
    exact after_of rfl heq fun b _ => ⟨h0, h1, h2, h3, hf, hl, hsame, rfl⟩
  · have heq : s.f2HandlerTimeout t = { ((s.tick t).setBit FLT_STATUS 2 false) with flt := { s.flt with f2Iso := [] } } := if_pos (by
      show (s.bit FLT_STATUS 2 && decide (s.flt.f2At + s.flt.f2hold * 1000000 ≤ t)) = true
      rw [hbit, decide_eq_true ht]
      rfl)
    have hb := fun k hk => bit_setBit (s.tick t) FLT_STATUS 2 k false hk
    have ho : RegsOnly [FLT_STATUS] (s.tick t) ((s.tick t).setBit FLT_STATUS 2 false) := (RegsOnly.refl _ _).setBit (by simp) 2 false
    generalize (s.tick t).setBit FLT_STATUS 2 false = x at *
    have hsame : sameRegs [FLT_STATUS] s x := ho.same
    obtain ⟨R, hR⟩ := ho.regs_eq
    rw [hR] at heq hb hsame
    exact after_of rfl heq fun b _ => ⟨(hb 2 (by decide)).trans (if_pos rfl), fun k hk hne => (hb k hk).trans (if_neg hne), hsame, rfl⟩

end Sys2Proof.Proofs
end

section
/-! PROOFS. A third statement that a register list out of order refutes: loading a tenon takes the registers of its area out of the list. -/
set_option Elab.async false
namespace Sys2Proof.Machine
open Sys2Proof

/-- A unit whose mortise 0 is ready to resume as a T1S tenon, and whose register list holds EP_CTRL behind a register of the mortise's area, where no read finds it. -/
def disorderedResume : State :=
  { State.reset with
    ep := { State.reset.ep with cur := some 0 }
    mz := { st := .loading, resume := some 0, newDesc := some [3], loaded := true } :: State.reset.mz.tail
    regs := [(MZ_ID 0 + 0x500, 0), (EP_CTRL, 5)] }

/-- What a register reads after a resume is what the resumed state gives. -/
theorem after_tenonResume_rd {s : State} {a m r : Nat} {w : Word} (h : (tenonResumed a m s).rd r = w) : After (.tenonResume a m) s fun u => u.rd r = w :=
  after_settle rfl fun u hu _ => by rw [hu]; exact h

end Sys2Proof.Machine
end

section
namespace Sys2Proof.Proofs
open Sys2Proof Sys2Proof.Machine

/-- Refutes O22: the statement does not ask that the registers are listed by rising offset. With EP_CTRL behind a register of the mortise's area, loading the tenon takes
that register out of the list and brings EP_CTRL in sight, which is outside the area and read its reset value before. -/
theorem not_retenoningCompletes : ¬ Obligations.RetenoningCompletes := by
  unfold Obligations.RetenoningCompletes
  intro h
  obtain ⟨-, -, h3, -⟩ := h
  obtain ⟨u, hu, -, -, -, -, -, -, -, -, -, -, -, hrd, -⟩ := h3 disorderedResume 0 0 0 [3] (by decide) (by decide +kernel) (by decide +kernel) (by decide +kernel)
    (by decide +kernel) (by decide +kernel) (by decide) (by decide +kernel) (by decide) fun x hx => by cases hx
  obtain ⟨v, hv, hrd'⟩ := after_tenonResume_rd (s := disorderedResume) (a := 0) (m := 0) (r := EP_CTRL) (w := 5) (by decide +kernel)
  obtain rfl : u = v := by simpa using hu.symm.trans hv
  have hread := (hrd EP_CTRL (by decide) (by decide)).symm.trans hrd'
  exact absurd hread (by decide +kernel)

end Sys2Proof.Proofs
end

section
/-! PROOFS. Mode requests (R30). -/
set_option Elab.async false
namespace Sys2Proof.Machine
open Sys2Proof

/-- The state a raise that begins with the image of code `src` leaves, but for the registers. -/
def State.raisingFrom (s : State) (t src : Nat) : State :=
  { s.inRaise t with fr := { (s.inRaise t).fr with hand := some { src := src, startT := t } } }

theorem startRaise_frame (s : State) (src t : Nat) :
    s.startRaise src t = { s with regs := (s.startRaise src t).regs, fr := { s.fr with hand := some { src := src, startT := t } } } := by
  have h : RegsOnly [FR_STATUS] s (s.setFld FR_STATUS 0 8 1) := (RegsOnly.refl _ s).setFld (by simp) 0 8 1
  exact congrArg (fun z : State => ({ z with fr := { z.fr with hand := some { src := src, startT := t } } } : State)) h.frame

theorem hostRaise_eq {s : State} (hm : s.mode = .hold ∨ s.mode = .bench) (hd : s.dieOn = true) (hb : s.bit FR_STATUS 5 = false) (hf : s.fld FR_CTRL 1 2 < 3) :
    hostRaise s.now s = (s.enterRaise s.now).startRaise ([4, 2, 3].getD (s.fld FR_CTRL 1 2) 0) s.now := by
  have ht : s.tick s.now = s := congrArg (fun n => { s with now := n }) (Nat.max_self _)
  have hg : ((s.mode != .hold && s.mode != .bench) || !s.dieOn || s.bit FR_STATUS 5) = false := by
    rw [hd, hb]
    obtain hm | hm := hm <;> rw [hm] <;> rfl
  unfold hostRaise
  rw [ht]
  show (if ((s.mode != .hold && s.mode != .bench) || !s.dieOn || s.bit FR_STATUS 5) = true then s else _) = _
  rw [hg, if_neg (by decide)]
  generalize s.fld FR_CTRL 1 2 = n at hf ⊢
  obtain rfl | rfl | rfl : n = 0 ∨ n = 1 ∨ n = 2 := by omega
  · rfl
  · rfl
  · rfl

/-- A host's raise in Hold or Bench, with no delta armed: the unit enters Raise with the image SRC selects. -/
theorem hostRaise_raises {s : State} (hm : s.mode = .hold ∨ s.mode = .bench) (hd : s.dieOn = true) (hb : s.bit FR_STATUS 5 = false) (hf : s.fld FR_CTRL 1 2 < 3) :
    ∃ R, hostRaise s.now s = { s.raisingFrom s.now ([4, 2, 3].getD (s.fld FR_CTRL 1 2) 0) with regs := R } := by
  rw [hostRaise_eq hm hd hb hf, startRaise_frame, (enterRaise_frame s s.now).1]
  exact ⟨_, rfl⟩

theorem holdToBench_frame (s : State) : s.holdToBench = { s with
    mode := .bench, regs := s.endEpochs.regs, held := [], ep := { lossEp := s.ep.lossEp }
    fr := { s.fr with delta := none, checking := false, swapAt := none, switched := false, wroteT := false, wroteG := false, hand := none }
    flt := { s.flt with holdAt := none }, mz := s.mz.map (fun x => if x.pins == .tenon then { x with pins := .pidle } else x), wk := {}, tw := s.tw.endService
    pw := { s.pw with divided := false } } := by
  unfold State.holdToBench
  rw [endEpochs_frame]

theorem enterBench_frame (s : State) :
    s.enterBench = { s.outOfService with regs := s.endEpochs.regs, mode := .bench, fr := { s.outOfService.fr with hand := none } } := by
  unfold State.enterBench
  rw [endService_frame]

/-- A request that is no host's, of the normal world, or for a transition a host cannot ask for is a notice. -/
theorem modeRequest_refused {s : State} {ms : Master} {w : World} {target : Mode} (hd : s.dieOn = true)
    (h : ((ms ≠ .pcie0 ∧ ms ≠ .spi) ∨ w = .normal) ∨ (s.mode, target) ∉ [(Mode.raise, Mode.bench), (.hold, .bench), (.hold, .raise), (.bench, .raise)]) :
    modeRequest ms w target s = s.notice 0x01 := by
  unfold modeRequest
  rw [hd]
  have hh : ((ms ≠ .pcie0 ∧ ms ≠ .spi) ∨ w = .normal) → ((ms == .pcie0 || ms == .spi) && w == .secure) = false := fun h => by
    obtain ⟨h1, h2⟩ | rfl := h
    · rw [beq_false_of_ne h1, beq_false_of_ne h2]; rfl
    · exact Bool.and_false _
  simp only [Bool.not_true, Bool.false_eq_true, if_false]
  obtain h | h := h
  · rw [hh h]
  · generalize s.mode = m at h
    split <;> simp_all

end Sys2Proof.Machine
end

section
namespace Sys2Proof.Proofs
open Sys2Proof Sys2Proof.Machine

/-- Settles O16: the four transitions that a host in the secure world asks for, and the notice that every other request brings. -/
theorem modeRequests : Obligations.ModeRequests := by
  unfold Obligations.ModeRequests
  refine ⟨fun s ms hd hms => ⟨fun hm => ?_, fun hm hb hf => ?_⟩, fun s ms w target hd hf h => ?_⟩
  · have hhost : ((ms == .pcie0 || ms == .spi) && worldOf ms .secure == .secure) = true := by obtain rfl | rfl := hms <;> rfl
    obtain hm | hm := hm
    · have heq : modeRequest ms (worldOf ms .secure) .bench s = s.enterBench := by
        unfold modeRequest
        rw [hd, hm, hhost]
        rfl
      exact after_of rfl (heq.trans (enterBench_frame s)) fun b _ => ⟨rfl, rfl, rfl, rfl, rfl, rfl, rfl, rfl, rfl⟩
    · have heq : modeRequest ms (worldOf ms .secure) .bench s = s.holdToBench := by
        unfold modeRequest
        rw [hd, hm, hhost]
        rfl
      exact after_of rfl (heq.trans (holdToBench_frame s)) fun b _ => ⟨rfl, rfl, rfl, rfl, rfl, rfl, rfl, rfl, rfl⟩
  · have hhost : ((ms == .pcie0 || ms == .spi) && worldOf ms .secure == .secure) = true := by obtain rfl | rfl := hms <;> rfl
    have heq : modeRequest ms (worldOf ms .secure) .raise s = hostRaise s.now s := by
      unfold modeRequest
      rw [hd, hhost]
      obtain hm | hm := hm <;> rw [hm] <;> rfl
    obtain ⟨R, hR⟩ := hostRaise_raises hm hd hb hf
    exact after_of rfl (heq.trans hR) fun b _ => ⟨rfl, rfl, rfl, rfl, rfl, rfl, rfl, rfl, rfl, rfl⟩
  · have heq := (modeRequest_refused hd h).trans (notice_free 0x01 0xFF 0xFF hf)
    have hn := noted_now s (cls := 0) (cause := 0x01) (src := 0xFF) (unit := 0xFF) (by decide) (by decide) (by decide) (by decide)
    have ho := noted_only s 0 0x01 0xFF 0xFF s.stampEp s.now
    generalize s.noted 0 0x01 0xFF 0xFF s.stampEp s.now = y at *
    have hsame := ho.same
    obtain ⟨R, hR⟩ := ho.regs_eq
    rw [hR] at heq hn hsame
    exact after_hb rfl heq rfl fun b hb => ⟨rfl, hn, hsame, rfl, hb⟩

end Sys2Proof.Proofs
end

section
/-! PROOFS. The frame loader: how a raise begins, the header and the sections (R93, R96, R97, R100). -/
set_option Elab.async false
namespace Sys2Proof.Machine
open Sys2Proof

/-! ### START by a host -/

/-- What the register's action leaves, with the role of the time base taken over where the action changed it (R551). -/
def State.roleTaken (t s : State) : State := if t.tbRole != s.tbRole then t.roleLoaded s.tbRole else t

theorem localWrite_acts_role {s : State} {r : RegRow} {ms : Master} {w : World} {a : Nat} (v m u : Nat) (ha : a % 4 = 0) (hr : s.rowAt a = some r)
    (hw : s.mayWrite r.pol a ms w = true) (hrow : actRow r = true) (hst : a ≠ FR_STAGE) (hep : a ≠ EP_CTRL) {t : State}
    (hact : (s.storeFields r a v m u).actWrite ms w a (v &&& m) = t) : s.localWrite ms w a 4 v m u = t.roleTaken s := by
  simp only [actRow, Bool.and_eq_true, Bool.not_eq_true', List.contains_eq_mem, decide_eq_false_iff_not, List.mem_cons, List.not_mem_nil, or_false, not_or,
    List.all_eq_true] at hrow
  obtain ⟨⟨⟨ht, hp1, hp2, hp3⟩, hb1, hb2, hb3, hb4, hb5⟩, hl⟩ := hrow
  rw [localWrite_row s ms w a v m u r ha hr hw hl]
  simp [State.plainWrite, State.tenonShut, ht, hp1, hp2, hp3, hb1, hb2, hb3, State.writeIgnored, hb4, hb5, hst, State.openBits, hep, hact, State.roleTaken]

/-- A permitted access to a register whose written bits store nothing is what the register's action is, the role of the time base taken over. -/
theorem busWrite_starts_role {s t : State} {ms : Master} {w : World} {a v m : Nat} (pol : Pol) (hre : s.reaches ms (worldOf ms w)) (ha : a % 4 = 0 ∧ a < 0x800000)
    (hrow : ((hitRow a).any fun r => r.ten == .any && (r.pol == pol && (actRow r && startsOnly r m))) = true) (hmay : s.mayWrite pol a ms (worldOf ms w) = true)
    (hst : a ≠ FR_STAGE) (hep : a ≠ EP_CTRL) (hv : v < 2 ^ 32) (hact : s.actWrite ms (worldOf ms w) a (v &&& m) = t)
    (hhb : t.hb.stalled = s.hb.stalled) : s.busWrite ms w a v m = t.roleTaken s := by
  obtain ⟨r, hr, -, hp⟩ := rowAt_of_any hrow s
  simp only [Bool.and_eq_true, beq_iff_eq] at hp
  obtain ⟨hpol, hacts, hstart⟩ := hp
  have hstl : s.hb.stalled = [] := hre.2.2.1
  have hkeep : (t.roleTaken s).hb = t.hb := by
    unfold State.roleTaken
    split
    · exact (State.roleLoaded_keeps (c := 0x4000620) rfl (.refl _ t) _).at_ 25 rfl
    · rfl
  rw [busWrite_reaches _ _ _ _ _ _ hre ha.2, Nat.mod_eq_of_lt hv, localWrite_acts_role (t := t) v m 0 ha.1 hr (by rw [hpol]; exact hmay) hacts hst hep
    (by rw [storeFields_startsOnly _ _ _ _ hstart]; exact hact)]
  exact unstall_empty _ ((congrArg Bridge.stalled hkeep).trans (hhb.trans hstl))

/-- Out of service the role of the time base changes the time base alone. -/
theorem roleTaken_ep {t s : State} (h : t.ep.cur = none) : (t.roleTaken s).ep = t.ep := by
  have hr : t.realign = t := by
    unfold State.realign
    rw [h]
    rfl
  unfold State.roleTaken State.roleLoaded State.lockTb
  rw [hr]
  split
  · split
    · rfl
    · split
      · rfl
      · rfl
  · rfl

theorem roleTaken_keeps (t s : State) : Keeps 0x4000620 t (t.roleTaken s) := by
  unfold State.roleTaken
  exact .ite (fun _ => State.roleLoaded_keeps rfl (.refl _ t) _) fun _ => .refl _ t

/-- START in Hold or Bench enters Raise with the image SRC selects. -/
theorem after_hostRaise (s : State) (t : Nat) (ms : Master) (w : World) (hs : s.secureHost ms w) (hm : s.mode = .hold ∨ s.mode = .bench) (hb : s.bit FR_STATUS 5 = false)
    (hf : s.fld FR_CTRL 1 2 < 3) : After (.hostRaise t ms w) s fun u =>
      u.mode = .raise ∧ u.fr.hand = some { src := [4, 2, 3].getD (s.fld FR_CTRL 1 2) 0, startT := max s.now t } ∧ u.fr.header = [] ∧ u.ep = { lossEp := s.ep.lossEp } ∧ u.tw.lease = false ∧
      u.tw.raiseAt = max s.now t ∧ u.ks = s.ks ∧ u.sill = s.sill ∧ u.mem = s.mem ∧ u.now = max s.now t := by
  have hd : s.dieOn = true := hs.1.1
  obtain ⟨R, hR⟩ := hostRaise_raises (s := s.tick t) hm hd hb hf
  have hwrite : (s.tick t).busWrite ms w FR_CTRL 1 1 = (hostRaise (s.tick t).now (s.tick t)).roleTaken (s.tick t) := by
    refine busWrite_starts_role .std (reaches_tick t hs.1) (by decide) (by decide +kernel) (secureHost_mayWrite hs FR_CTRL) (by decide) (by decide) (by decide) ?_ ?_
    · show State.frCtrl (s.tick t) 1 = _
      unfold State.frCtrl
      rw [show (s.tick t).mode = s.mode from rfl]
      obtain hm | hm := hm <;> rw [hm] <;> rfl
    · rw [hR]
      rfl
  have heq : (if s.mode == .hold || s.mode == .bench then (s.tick t).busWrite ms w FR_CTRL 1 1 else s.tick t)
      = ({ (s.tick t).raisingFrom (s.tick t).now ([4, 2, 3].getD (s.fld FR_CTRL 1 2) 0) with regs := R } : State).roleTaken (s.tick t) := by
    rw [if_pos (by obtain hm | hm := hm <;> rw [hm] <;> rfl), hwrite, hR]
    rfl
  obtain ⟨x, hx⟩ : ∃ x : State, x = { (s.tick t).raisingFrom (s.tick t).now ([4, 2, 3].getD (s.fld FR_CTRL 1 2) 0) with regs := R } := ⟨_, rfl⟩
  rw [← hx] at heq
  have hk := roleTaken_keeps x (s.tick t)
  have hep : (x.roleTaken (s.tick t)).ep = x.ep := roleTaken_ep (by rw [hx]; rfl)
  have hmode : (x.roleTaken (s.tick t)).mode = x.mode := hk.at_ 4 rfl
  have hfr : (x.roleTaken (s.tick t)).fr = x.fr := hk.at_ 11 rfl
  have htw : (x.roleTaken (s.tick t)).tw = x.tw := hk.at_ 21 rfl
  have hks : (x.roleTaken (s.tick t)).ks = x.ks := hk.at_ 19 rfl
  have hsill : (x.roleTaken (s.tick t)).sill = x.sill := hk.at_ 24 rfl
  have hmem : (x.roleTaken (s.tick t)).mem = x.mem := hk.at_ 6 rfl
  have hnow : (x.roleTaken (s.tick t)).now = x.now := hk.at_ 1 rfl
  generalize x.roleTaken (s.tick t) = y at *
  subst hx
  refine after_of rfl heq fun b _ => ⟨hmode, ?_, ?_, hep, ?_, ?_, hks, hsill, hmem, hnow⟩
  · exact (congrArg Loader.hand hfr).trans rfl
  · exact (congrArg Loader.header hfr).trans rfl
  · exact (congrArg Twin.lease htw).trans rfl
  · exact (congrArg Twin.raiseAt htw).trans rfl

/-! ### The header -/

/-- The image refused, before a fallback or Bench: FR_ERR and REJECT, the fault manager's defaults, and no frame. -/
def State.refused (s : State) (e : LoadErr) : State :=
  let x := ((s.wrN FR_ERR e.word).evt FR_EVENT 2).setFld FLT_INTEN 8 5 0
  { x with
    flt := { s.flt with f2hold := 1000, f1rate := 0, holdMB := 0 }
    fr := { s.fr with header := [], recs := [], sects := [], staged := false, cfg := [], bents := List.replicate 13 .absent } }

theorem refused_facts (s : State) (e : LoadErr) : (s.refused e).rdN FR_ERR = e.word % 2 ^ 32 ∧ (s.refused e).bit FR_EVENT 2 = true ∧
    s.refused e = { s with regs := (s.refused e).regs, flt := (s.refused e).flt, fr := (s.refused e).fr } := by
  have h1 : RegsOnly [FR_EVENT, FLT_INTEN] (s.wrN FR_ERR e.word) (((s.wrN FR_ERR e.word).evt FR_EVENT 2).setFld FLT_INTEN 8 5 0) :=
    ((RegsOnly.refl _ _).evt (by simp) 2).setFld (by simp) 8 5 0
  have h2 : RegsOnly [FLT_INTEN] ((s.wrN FR_ERR e.word).evt FR_EVENT 2) (((s.wrN FR_ERR e.word).evt FR_EVENT 2).setFld FLT_INTEN 8 5 0) :=
    (RegsOnly.refl _ _).setFld (by simp) 8 5 0
  refine ⟨?_, ?_, rfl⟩
  · exact (h1.same.rdN (by decide)).trans (rdN_wrN_same _ _ _)
  · exact (h2.same.bit (by decide) 2).trans (bit_evt_same _ _ _ (by decide))

theorem rejectImage_eq {s : State} {h : Raising} (hh : s.fr.hand = some h) (e : LoadErr) : s.rejectImage e =
    if h.src == 0 then ((s.refused e).setFld FR_STATUS 0 8 1).onFr (fun f => { f with hand := some { src := 1, startT := h.startT } })
    else ((s.refused e).setFld FR_STATUS 0 8 5).enterBench := by
  have hr : s.rejectImage e = match s.fr.hand with
      | some h =>
        if h.src == 0 then ((s.refused e).setFld FR_STATUS 0 8 1).onFr (fun f => { f with hand := some { src := 1, startT := h.startT } })
        else ((s.refused e).setFld FR_STATUS 0 8 5).enterBench
      | none => s.refused e := rfl
  rw [hr, hh]

/-- The end of epochs outside Hold, with no update of an epoch waiting, writes the registers of the blocks that are no longer busy. -/
theorem endEpochs_idle {s : State} (h : s.ep.due = []) : RegsOnly (FLT_STATUS :: endRegs) s ({ s with regs := s.endEpochs.regs } : State) := by
  obtain ⟨x, hx, he⟩ := endEpochs_only s
  rw [applyDue_none h] at hx
  have := (hx.mono (List.subset_cons_self FLT_STATUS endRegs)).trans ((leaveHold_only x).mono (l' := FLT_STATUS :: endRegs) (by simp))
  rw [← he] at this
  exact ⟨rfl, this.same.right rfl⟩

/-- An image that is refused leaves its code and REJECT; slot A falls back to slot B, any other image leaves the unit in Bench. -/
theorem rejectImage_refuses {s : State} {h : Raising} (hh : s.fr.hand = some h) (hm : s.mode = .raise) (hdue : s.ep.due = []) (e : LoadErr) :
    ((s.rejectImage e).now = s.now ∧ (s.rejectImage e).ks = s.ks) ∧ (s.rejectImage e).rdN FR_ERR = e.word % 2 ^ 32 ∧ (s.rejectImage e).bit FR_EVENT 2 = true ∧
      (s.rejectImage e).fr.header = [] ∧
      (h.src = 0 → (s.rejectImage e).mode = .raise ∧ (s.rejectImage e).fld FR_STATUS 0 8 = 1 ∧ (s.rejectImage e).fr.hand = some { src := 1, startT := h.startT }) ∧
      (h.src ≠ 0 → (s.rejectImage e).mode = .bench ∧ (s.rejectImage e).fr.hand = none) := by
  have hk : Keeps 0x4f7bcb0 s (s.rejectImage e) := State.rejectImage_keeps rfl (.refl _ s) e
  refine ⟨⟨hk.at_ 1 rfl, hk.at_ 19 rfl⟩, ?_⟩
  rw [rejectImage_eq hh]
  obtain ⟨he, hev, hfr⟩ := refused_facts s e
  have hhead : (s.refused e).fr.header = [] := rfl
  have hep : (s.refused e).ep = s.ep := rfl
  have hmode : (s.refused e).mode = s.mode := rfl
  generalize s.refused e = y at *
  by_cases hsrc : h.src = 0
  · rw [hsrc, if_pos (by decide)]
    have ho : RegsOnly [FR_STATUS] y (y.setFld FR_STATUS 0 8 1) := (RegsOnly.refl _ y).setFld (by simp) 0 8 1
    refine ⟨(ho.same.rdN (by decide)).trans he, (ho.same.bit (by decide) 2).trans hev, hhead, fun _ => ⟨hmode.trans hm, ?_, rfl⟩, fun hne => absurd rfl hne⟩
    exact (fld_setFld_same y FR_STATUS 0 8 1 (by decide)).trans rfl
  · rw [if_neg (by simpa using hsrc), enterBench_frame]
    have ho : RegsOnly [FR_STATUS] y (y.setFld FR_STATUS 0 8 5) := (RegsOnly.refl _ y).setFld (by simp) 0 8 5
    have hdue' : (y.setFld FR_STATUS 0 8 5).ep.due = [] := (congrArg EpochEng.due hep).trans hdue
    have hend := (ho.mono (l' := FR_STATUS :: FLT_STATUS :: endRegs) (by simp)).trans ((endEpochs_idle hdue').mono (List.subset_cons_self _ _))
    refine ⟨?_, ?_, hhead, fun h0 => absurd h0 hsrc, fun _ => ⟨rfl, rfl⟩⟩
    · exact (hend.same.rdN (by decide)).trans he
    · exact (hend.same.bit (by decide) 2).trans hev

/-- The image that passed checks 1 to 14 in hand, its service block in force and its empty bents idle. -/
def State.headed (s : State) (h : Raising) (img : Octets) : State :=
  let s := s.freshBlocks.onFr (fun f => { f with
    header := img.take 0x200, recs := imageRecs img, sects := [], staged := hStaged (img.take 0x200) && s.ks.lc != 0, full := false
    hand := some { h with header := img.take 0x200, recs := imageRecs img, headerOk := true } })
  (s.loadService (img.take 0x200)).configEmpty

/-- FR_STATUS shows stage 2, the lifecycle Blank, and whether slot B is in use; a fallback that passed is an event. -/
def State.headShown (s : State) (src : Nat) (blank flashB : Bool) : State :=
  let s := ((s.setFld FR_STATUS 0 4 2).setBit FR_STATUS 4 blank).setBit FR_STATUS 7 flashB
  if src == 1 then s.evt FR_EVENT 3 else s

theorem headShown_facts (s : State) (src : Nat) (blank flashB : Bool) :
    (s.headShown src blank flashB).fld FR_STATUS 0 4 = 2 ∧ (s.headShown src blank flashB).bit FR_STATUS 4 = blank ∧
      RegsOnly [FR_STATUS, FR_EVENT] s (s.headShown src blank flashB) := by
  obtain ⟨x, hx⟩ : ∃ x : State, x = ((s.setFld FR_STATUS 0 4 2).setBit FR_STATUS 4 blank).setBit FR_STATUS 7 flashB := ⟨_, rfl⟩
  have ho : RegsOnly [FR_STATUS] s x := by
    rw [hx]
    exact (((RegsOnly.refl _ s).setFld (by simp) 0 4 2).setBit (by simp) 4 blank).setBit (by simp) 7 flashB
  have hf : x.fld FR_STATUS 0 4 = 2 := by
    refine Eq.trans (fld_congr_bits (s := s.setFld FR_STATUS 0 4 2) fun k hk => ?_) ((fld_setFld_same s FR_STATUS 0 4 2 (by decide)).trans rfl)
    rw [hx, bit_setBit _ _ _ _ _ (by omega), if_neg (by omega), bit_setBit _ _ _ _ _ (by omega), if_neg (by omega)]
  have hb : x.bit FR_STATUS 4 = blank := by
    rw [hx, bit_setBit _ _ _ _ _ (by decide), if_neg (by decide), bit_setBit _ _ _ _ _ (by decide), if_pos rfl]
  have hev : RegsOnly [FR_EVENT] x (if src == 1 then x.evt FR_EVENT 3 else x) := .ite (fun _ => (RegsOnly.refl _ x).evt (by simp) 3) fun _ => .refl _ x
  have hs : s.headShown src blank flashB = if src == 1 then x.evt FR_EVENT 3 else x := by rw [hx]; rfl
  rw [hs]
  exact ⟨(hev.same.fld (by decide) 0 4).trans hf, (hev.same.bit (by decide) 4).trans hb, (ho.mono (by simp)).trans (hev.mono (by simp))⟩

theorem headed_facts (s : State) (h : Raising) (img : Octets) : (s.headed h img).now = s.now ∧ (s.headed h img).ks = s.ks ∧ (s.headed h img).mode = s.mode ∧
    (s.headed h img).fr.header = img.take 0x200 ∧ (s.headed h img).fr.recs = imageRecs img ∧
    (s.headed h img).fr.hand = some { h with header := img.take 0x200, recs := imageRecs img, headerOk := true } := by
  obtain ⟨x, hx⟩ : ∃ x : State, x = s.freshBlocks.onFr (fun f => { f with
    header := img.take 0x200, recs := imageRecs img, sects := [], staged := hStaged (img.take 0x200) && s.ks.lc != 0, full := false
    hand := some { h with header := img.take 0x200, recs := imageRecs img, headerOk := true } }) := ⟨_, rfl⟩
  have h0 : Keeps 0x17a840 s x := by rw [hx]; exact State.onFr_keeps rfl (State.freshBlocks_keeps rfl (.refl _ s)) _
  have h1 : Keeps 0x5003620 x (s.headed h img) := by rw [hx]; exact State.configEmpty_keeps rfl (State.loadService_keeps rfl (.refl _ _) _)
  have hfr : (s.headed h img).fr = x.fr := h1.at_ 11 rfl
  refine ⟨Eq.trans (h1.at_ 1 rfl) (h0.at_ 1 rfl), Eq.trans (h1.at_ 19 rfl) (h0.at_ 19 rfl), Eq.trans (h1.at_ 4 rfl) (h0.at_ 4 rfl), ?_, ?_, ?_⟩
  · rw [hfr, hx]; rfl
  · rw [hfr, hx]; rfl
  · rw [hfr, hx]; rfl

theorem headerChecked_eq {s : State} {t : Nat} {h : Raising} {header sig : Octets} (hh : s.fr.hand = some h) (hm : s.mode = .raise) (hd : s.dieOn = true)
    (ho : h.headerOk = false) (hs : h.src ≠ 2) : headerChecked t header sig s = match (s.tick t).loadChecks { img := header, sig := sig } with
      | some e => (s.tick t).rejectImage e
      | none => ((s.tick t).headed h header).headShown h.src (((s.tick t).headed h header).ks.lc == 0)
          (h.src == 1 || (h.src == 3 && ((s.tick t).headed h header).rdN FR_FLASHA == 0x4000000)) := by
  have hsrc : (h.src == 2) = false := beq_false_of_ne hs
  unfold headerChecked
  extract_lets x
  rw [show x.fr.hand = some h from hh]
  show (if (x.mode != .raise || !x.dieOn || h.headerOk) = true then x else _) = _
  rw [if_neg (by rw [show x.mode = s.mode from rfl, hm, show x.dieOn = s.dieOn from rfl, hd, ho]; decide)]
  simp only [hsrc, Bool.false_and, Bool.false_eq_true, if_false]
  rfl

/-! ### The sections -/

/-- The image in hand and the record table of the frame. -/
def State.inHand (s : State) : Option Raising × List Octets := (s.fr.hand, s.fr.recs)

theorem inHand_of_fr {s u : State} (h : u.fr = s.fr) : u.inHand = s.inHand := congrArg (fun f : Loader => (f.hand, f.recs)) h

theorem configMB_inHand (s : State) (k : Nat) (sect : Octets) : (s.configMB k sect).inHand = s.inHand := by
  unfold State.configMB
  exact foldl_view State.inHand _ _ _ fun z j _ => inHand_of_fr ((State.configMort_keeps (c := 0x2020) rfl (.refl _ z) _ _).at_ 11 rfl)

theorem tbLoad_fr {s u : State} {sect : Octets} (h : s.tbLoad sect = some u) : u.fr = s.fr := by
  unfold State.tbLoad at h
  extract_lets a b c d e at h
  have he : Keeps 0x200e0 s e := Keeps.foldl (fun _ _ hz => State.memW_keeps rfl hz _ _) _
    (State.tbHead_keeps rfl (Keeps.set_tab rfl (State.memClear_keeps rfl (State.memClear_keeps rfl (.refl _ s) _ _) _ _) _) _)
  obtain ⟨v, hv, h⟩ := Option.bind_eq_some_iff.mp h
  obtain ⟨w, hw, hv⟩ := Option.bind_eq_some_iff.mp hv
  have hkv : Keeps 0x200e0 s v := State.insertAll_keeps rfl (State.insertAll_keeps rfl he _ _ _ _ hw) _ _ _ _ hv
  extract_lets f g at h
  have hg : Keeps 0x200e0 s g := State.tcamShow_keeps rfl (Keeps.foldl (fun _ _ hz => State.tcamAdd_keeps rfl hz _) _
    (Keeps.foldl (fun _ _ hz => State.memW_keeps rfl hz _ _) _ hkv))
  have hfr : g.fr = s.fr := hg.at_ 11 rfl
  clear_value g
  split at h
  · cases h
  · obtain rfl := Option.some.inj h
    exact Eq.trans ((State.tabShow_keeps (c := 0x20) rfl (.refl _ g.applyHeld) State.setFld fun _ hz _ _ _ _ => State.setFld_keeps rfl hz _ _ _ _).at_ 11 rfl)
      ((congrArg State.fr (applyHeld_frame g)).trans hfr)

theorem configBent_inHand (s : State) (x : Nat × Octets) : (s.configBent x).inHand = s.inHand := by
  unfold State.configBent
  extract_lets f a
  have ha : a.inHand = s.inHand := rfl
  split
  · exact (configMB_inHand a _ _).trans ha
  · split
    · cases hl : a.tbLoad x.2 with
      | none => exact ha
      | some u => exact (inHand_of_fr (tbLoad_fr hl)).trans ha
    · split
      · exact (inHand_of_fr ((State.sbLoad_keeps (c := 0x40060) rfl (.refl _ a) _).at_ 11 rfl)).trans ha
      · split
        · exact (inHand_of_fr ((State.kbLoad_keeps (c := 0x100060) rfl (.refl _ a) _).at_ 11 rfl)).trans ha
        · split
          · exact (inHand_of_fr ((State.gwLoad_keeps (c := 0x10060) rfl (.refl _ a) _).at_ 11 rfl)).trans ha
          · exact (inHand_of_fr ((State.pbLoad_keeps (c := 0x20) rfl (.refl _ a) _).at_ 11 rfl)).trans ha

theorem configBents_inHand (s : State) (l : List (Nat × Octets)) : (s.configBents l).inHand = s.inHand := by
  unfold State.configBents
  exact foldl_view State.inHand _ _ _ fun z x _ => configBent_inHand z x

/-- A checked section is kept in the image in hand. -/
theorem takeSection_inHand {s : State} {h : Raising} (hh : s.fr.hand = some h) (t i : Nat) (sect : Octets) :
    (s.takeSection t i sect).inHand = (some { h with sects := assocPut h.sects i sect }, s.fr.recs) := by
  unfold State.takeSection
  extract_lets ready a
  have ha : a.inHand = (some { h with sects := assocPut h.sects i sect }, s.fr.recs) := by
    show (s.fr.hand.map _, s.fr.recs) = _
    rw [hh]
    rfl
  rw [show a.fr.hand = some { h with sects := assocPut h.sects i sect } from congrArg Prod.fst ha]
  have hset : ∀ (z : State) v, (z.setFld FR_TIME 16 16 v).inHand = z.inHand := fun _ _ => rfl
  simp only [apply_ite State.inHand, hset, configMB_inHand, configBents_inHand, ite_self, ha]

theorem lateConfig_inHand (s : State) (b : Bool) : (s.lateConfig b).inHand = s.inHand := by
  unfold State.lateConfig
  split
  · rfl
  · split
    · exact foldl_view State.inHand _ _ _ fun z x _ => configMB_inHand z _ _
    · rfl

theorem sectionChecked_eq {s : State} {t i : Nat} {h : Raising} {sect : Octets} {readErr : Bool} (hh : s.fr.hand = some h) (hm : s.mode = .raise)
    (hd : s.dieOn = true) (ho : h.headerOk = true) (hs : h.src ≠ 2) (hi : s.sectioned.contains i = true) (hn : assoc h.sects i = none) (hb : h.bad.contains i = false) :
    sectionChecked t i sect readErr s = match (s.tick t).sectErr h.header h.recs h.sects i sect readErr with
      | none => ((s.tick t).takeSection t i sect).lateConfig (s.tick t).raiseReady
      | some e =>
        if s.needed.contains i then (s.tick t).rejectImage e
        else (if h.bad.isEmpty then (s.tick t).wrN FR_ERR e.word else s.tick t).onHand (fun h => { h with bad := h.bad ++ [i] }) := by
  have hsrc : (h.src == 2) = false := beq_false_of_ne hs
  unfold sectionChecked
  extract_lets x
  rw [show x.fr.hand = some h from hh]
  show (if (!x.dieOn || !h.headerOk || !x.sectioned.contains i || (assoc h.sects i).isSome || h.bad.contains i) = true then x else _) = _
  rw [if_neg (by rw [show x.dieOn = s.dieOn from rfl, hd, ho, show x.sectioned = s.sectioned from rfl, hi, hn, hb]; decide)]
  have hmode : (x.mode == .raise) = true := by rw [show x.mode = s.mode from rfl, hm]; rfl
  simp only [hsrc, Bool.false_eq_true, if_false, hmode, if_true]
  rfl

/-! ### The clauses -/

/-- With no image in hand the loader begins with slot A of the flash. -/
theorem after_raiseFromFlash (s : State) (t : Nat) (hm : s.mode = .raise) (hd : s.dieOn = true) (hh : s.fr.hand = none) : After (.raiseFromFlash t) s fun u =>
    u.fr = { s.fr with hand := some { src := 0, startT := s.sill.powerT.getD t } } ∧ u.sill = { s.sill with powerT := none } ∧ u.fld FR_STATUS 0 8 = 1 ∧
    sameRegs [FR_STATUS] s u ∧ u = { s with now := max s.now t, regs := u.regs, fr := u.fr, sill := u.sill, hb := u.hb } := by
  have heq : raiseFromFlash t s = ((s.tick t).startRaise 0 (s.sill.powerT.getD t)).onSill (fun d => { d with powerT := none }) := by
    unfold raiseFromFlash
    extract_lets x
    rw [if_neg (by rw [show x.mode = s.mode from rfl, hm, show x.dieOn = s.dieOn from rfl, hd, show x.fr.hand = s.fr.hand from rfl, hh]; decide)]
    rfl
  have hx : ((s.tick t).startRaise 0 (s.sill.powerT.getD t)).regs = ((s.tick t).setFld FR_STATUS 0 8 1).regs := rfl
  rw [startRaise_frame, hx] at heq
  have ho : RegsOnly [FR_STATUS] (s.tick t) ((s.tick t).setFld FR_STATUS 0 8 1) := (RegsOnly.refl _ _).setFld (by simp) 0 8 1
  have hf := fld_setFld_same (s.tick t) FR_STATUS 0 8 1 (by decide)
  generalize (s.tick t).setFld FR_STATUS 0 8 1 = y at *
  have hsame := ho.same
  obtain ⟨R, hR⟩ := ho.regs_eq
  rw [hR] at heq hf hsame
  exact after_of rfl heq fun b _ => ⟨rfl, rfl, hf, hsame, rfl⟩

/-- Checks 1 to 14 decide the header of a flash image. -/
theorem after_headerChecked (s : State) (t : Nat) (h : Raising) (header sig : Octets) (hh : s.fr.hand = some h) (hm : s.mode = .raise) (hd : s.dieOn = true)
    (ho : h.headerOk = false) (hs : h.src ≠ 2) (hdue : s.ep.due = []) : After (.headerChecked t header sig) s fun u =>
      u.now = max s.now t ∧ u.ks = s.ks ∧
      ((s.tick t).loadChecks { img := header, sig := sig } = none →
        u.mode = .raise ∧ u.fr.header = header.take 0x200 ∧ u.fr.recs = imageRecs header ∧ u.fld FR_STATUS 0 4 = 2 ∧
        u.fr.hand = some { h with header := header.take 0x200, recs := imageRecs header, headerOk := true } ∧ u.bit FR_STATUS 4 = (s.ks.lc == 0)) ∧
      (∀ e, (s.tick t).loadChecks { img := header, sig := sig } = some e →
        u.rdN FR_ERR = e.word % 2 ^ 32 ∧ u.bit FR_EVENT 2 = true ∧ u.fr.header = [] ∧
        (h.src = 0 → u.mode = .raise ∧ u.fld FR_STATUS 0 8 = 1 ∧ u.fr.hand = some { src := 1, startT := h.startT }) ∧
        (h.src ≠ 0 → u.mode = .bench ∧ u.fr.hand = none)) := by
  have heq := headerChecked_eq (t := t) (header := header) (sig := sig) hh hm hd ho hs
  cases hc : (s.tick t).loadChecks { img := header, sig := sig } with
  | none =>
    obtain ⟨e1, e2, e3, e4, e5, e6⟩ := headed_facts (s.tick t) h header
    simp only [hc] at heq
    generalize (s.tick t).headed h header = x at *
    obtain ⟨f1, f2, f3⟩ := headShown_facts x h.src (x.ks.lc == 0) (h.src == 1 || (h.src == 3 && x.rdN FR_FLASHA == 0x4000000))
    have hlc : (x.ks.lc == 0) = (s.ks.lc == 0) := by rw [e2]; rfl
    rw [hlc] at heq f1 f2 f3
    generalize x.headShown h.src _ _ = y at *
    obtain ⟨R, hR⟩ := f3.regs_eq
    rw [hR] at heq f1 f2
    refine after_of rfl heq fun b _ => ⟨e1, e2, fun _ => ⟨e3.trans hm, e4, e5, f1, e6, f2⟩, fun e he => ?_⟩
    cases he
  | some e =>
    simp only [hc] at heq
    obtain ⟨⟨e1, e2⟩, e3⟩ := rejectImage_refuses (s := s.tick t) (h := h) hh hm hdue e
    generalize (s.tick t).rejectImage e = y at *
    refine after_of rfl heq fun b _ => ⟨e1, e2, fun he => ?_, fun e' he => ?_⟩
    · cases he
    · cases he
      exact e3

/-- Check 15 and R553 decide a section of the image in hand. -/
theorem after_sectionChecked (s : State) (t i : Nat) (h : Raising) (sect : Octets) (readErr : Bool) (hh : s.fr.hand = some h) (hm : s.mode = .raise)
    (hd : s.dieOn = true) (ho : h.headerOk = true) (hs : h.src ≠ 2) (hi : s.sectioned.contains i = true) (hn : assoc h.sects i = none) (hb : h.bad.contains i = false)
    (hdue : s.ep.due = []) : After (.sectionChecked t i sect readErr) s fun u =>
      u.now = max s.now t ∧
      ((s.tick t).sectErr h.header h.recs h.sects i sect readErr = none →
        u.mode = .raise ∧ u.fr.hand = some { h with sects := assocPut h.sects i sect } ∧ u.fr.recs = s.fr.recs) ∧
      (∀ e, (s.tick t).sectErr h.header h.recs h.sects i sect readErr = some e →
        (s.needed.contains i = true → u.rdN FR_ERR = e.word % 2 ^ 32 ∧ u.bit FR_EVENT 2 = true ∧ u.mode = (if h.src = 0 then .raise else .bench)) ∧
        (s.needed.contains i = false → u.mode = .raise ∧ u.fr.hand = some { h with bad := h.bad ++ [i] } ∧ (h.bad = [] → u.rdN FR_ERR = e.word % 2 ^ 32) ∧
          (h.bad ≠ [] → u.rdN FR_ERR = s.rdN FR_ERR))) := by
  have heq := sectionChecked_eq (t := t) (sect := sect) (readErr := readErr) hh hm hd ho hs hi hn hb
  cases hc : (s.tick t).sectErr h.header h.recs h.sects i sect readErr with
  | none =>
    simp only [hc] at heq
    have himg := (lateConfig_inHand ((s.tick t).takeSection t i sect) (s.tick t).raiseReady).trans (takeSection_inHand (s := s.tick t) hh t i sect)
    have hk : Keeps 0x4377ce0 (s.tick t) (((s.tick t).takeSection t i sect).lateConfig (s.tick t).raiseReady) :=
      State.lateConfig_keeps rfl (State.takeSection_keeps rfl (.refl _ _) _ _ _) _
    generalize ((s.tick t).takeSection t i sect).lateConfig (s.tick t).raiseReady = y at *
    have hmode : y.mode = s.mode := hk.at_ 4 rfl
    refine after_of rfl heq fun b _ => ⟨hk.at_ 1 rfl, fun _ => ⟨hmode.trans hm, congrArg Prod.fst himg, congrArg Prod.snd himg⟩, fun e he => ?_⟩
    cases he
  | some e =>
    simp only [hc] at heq
    cases hneed : s.needed.contains i with
    | true =>
      rw [hneed, if_pos rfl] at heq
      obtain ⟨⟨e1, -⟩, e3, e4, -, e5, e6⟩ := rejectImage_refuses (s := s.tick t) (h := h) hh hm hdue e
      generalize (s.tick t).rejectImage e = y at *
      refine after_of rfl heq fun b _ => ⟨e1, fun he => ?_, fun e' he => ?_⟩
      · cases he
      · cases he
        refine ⟨fun _ => ⟨e3, e4, ?_⟩, fun hf => ?_⟩
        · split
          next h0 => exact (e5 h0).1
          next h0 => exact (e6 h0).1
        · cases hf
    | false =>
      rw [hneed, if_neg (by decide)] at heq
      obtain ⟨x, hx⟩ : ∃ x, x = if h.bad.isEmpty then (s.tick t).wrN FR_ERR e.word else s.tick t := ⟨_, rfl⟩
      rw [← hx] at heq
      have hxo : RegsOnly [FR_ERR] (s.tick t) x := by
        rw [hx]
        exact .ite (fun _ => (RegsOnly.refl _ _).wrN (by simp) _) fun _ => .refl _ _
      have hempty : h.bad = [] → x.rdN FR_ERR = e.word % 2 ^ 32 := fun h0 => by rw [hx, h0]; exact rdN_wrN_same _ _ _
      have hsome : h.bad ≠ [] → x.rdN FR_ERR = s.rdN FR_ERR := fun h0 => by rw [hx, if_neg (by simpa using h0)]; rfl
      clear hx
      obtain ⟨R, hR⟩ := hxo.regs_eq
      rw [hR] at heq hempty hsome
      refine after_of rfl heq fun b _ => ⟨rfl, fun he => ?_, fun e' he => ?_⟩
      · cases he
      · cases he
        refine ⟨fun hf => ?_, fun _ => ⟨hm, ?_, hempty, hsome⟩⟩
        · cases hf
        · exact (congrArg (Option.map fun h : Raising => { h with bad := h.bad ++ [i] }) hh).trans rfl

end Sys2Proof.Machine
end

section
namespace Sys2Proof.Proofs
open Sys2Proof Sys2Proof.Machine

/-- Settles O17: a raise begins, and its header and sections are checked. -/
theorem raisingAndChecks : Obligations.RaisingAndChecks := by
  unfold Obligations.RaisingAndChecks
  exact ⟨after_raiseFromFlash, after_hostRaise, after_headerChecked, after_sectionChecked⟩

end Sys2Proof.Proofs
end

section
/-! PROOFS. Deltas: the check, arming, the end without arming, and a staging error (R104, R116, R118, R120). -/
set_option Elab.async false
namespace Sys2Proof.Machine
open Sys2Proof

/-! ### A delta given up -/

/-- The loader with its delta given up: what was written is to be purged. -/
def Loader.abandon (f : Loader) : Loader :=
  { f with
    checking := false, delta := none, wroteT := false, wroteG := false, purgeT := if f.wroteT then .reverse else f.purgeT
    purgeG := if f.wroteG then .reverse else f.purgeG }

/-- A check that ends without arming (R118). -/
theorem endCheck_ends (s : State) : ∃ R, s.endCheck = { s with regs := R, fr := s.fr.abandon } ∧ sameRegs [FR_STATUS] s s.endCheck ∧
    s.endCheck.bit FR_STATUS 5 = s.bit FR_STATUS 5 ∧ (s.fr.wroteT || s.fr.wroteG → s.endCheck.bit FR_STATUS 6 = true) := by
  obtain ⟨x, hx⟩ : ∃ x, x = s.stageBack := ⟨_, rfl⟩
  have hxo : RegsOnly [FR_STATUS] s x := by rw [hx]; exact (RegsOnly.refl _ s).setFld (by simp) 0 4 _
  have hx5 : x.bit FR_STATUS 5 = s.bit FR_STATUS 5 := by rw [hx]; exact bit_setFld_ne s FR_STATUS 0 4 _ 5 (by decide) (by decide)
  have he : s.endCheck = if s.fr.wroteT || s.fr.wroteG then { (x.setBit FR_STATUS 6 true) with fr := { x.fr with
        checking := false, delta := none, wroteT := false, wroteG := false, purgeT := if s.fr.wroteT then .reverse else x.fr.purgeT
        purgeG := if s.fr.wroteG then .reverse else x.fr.purgeG } }
      else { x with fr := { x.fr with checking := false, delta := none, wroteT := false, wroteG := false } } := by rw [hx]; rfl
  clear hx
  have hbo : RegsOnly [FR_STATUS] x (x.setBit FR_STATUS 6 true) := (RegsOnly.refl _ x).setBit (by simp) 6 true
  have hb5 : (x.setBit FR_STATUS 6 true).bit FR_STATUS 5 = x.bit FR_STATUS 5 := (bit_setBit x FR_STATUS 6 5 true (by decide)).trans (if_neg (by decide))
  have hb6 : (x.setBit FR_STATUS 6 true).bit FR_STATUS 6 = true := (bit_setBit x FR_STATUS 6 6 true (by decide)).trans (if_pos rfl)
  have hbs : sameRegs [FR_STATUS] s (x.setBit FR_STATUS 6 true) := hxo.same.trans hbo.same
  have hxs := hxo.same
  obtain ⟨R, hR⟩ := hbo.regs_eq
  rw [hR] at he hb5 hb6 hbs
  obtain ⟨Q, hQ⟩ := hxo.regs_eq
  rw [hQ] at he hx5 hb5 hb6 hbs hxs
  rw [he]
  split
  next hw => exact ⟨R, rfl, hbs, hb5.trans hx5, fun _ => hb6⟩
  next hw =>
    have hf : ({ s.fr with checking := false, delta := none, wroteT := false, wroteG := false } : Loader) = s.fr.abandon := by
      simp only [Bool.or_eq_true, not_or, Bool.not_eq_true] at hw
      unfold Loader.abandon
      rw [hw.1, hw.2]
      rfl
    exact ⟨Q, congrArg (fun f => { s with regs := Q, fr := f }) hf, hxs, hx5, fun h => absurd h hw⟩

/-- A delta armed before is given up, no swap having begun (R105, R118). -/
theorem dropDelta_drops {s : State} (h : s.fr.switched = false) : ∃ R, s.dropDelta = { s with regs := R, fr := { s.fr.abandon with swapAt := none } } ∧
    sameRegs [FR_STATUS] s s.dropDelta ∧ s.dropDelta.bit FR_STATUS 5 = false ∧ s.dropDelta.bit FR_STATUS 6 = true := by
  obtain ⟨x, hx⟩ : ∃ x, x = (s.setBit FR_STATUS 5 false).setBit FR_STATUS 6 true := ⟨_, rfl⟩
  have hu : s.unswap = s := by
    unfold State.unswap
    rw [h]
    rfl
  have he : s.dropDelta = { x with fr := { s.fr.abandon with swapAt := none } } := by
    unfold State.dropDelta
    rw [hu, hx]
    rfl
  have hxo : RegsOnly [FR_STATUS] s x := by rw [hx]; exact ((RegsOnly.refl _ s).setBit (by simp) 5 false).setBit (by simp) 6 true
  have h5 : x.bit FR_STATUS 5 = false := by rw [hx, bit_setBit _ _ _ _ _ (by decide), if_neg (by decide), bit_setBit _ _ _ _ _ (by decide), if_pos rfl]
  have h6 : x.bit FR_STATUS 6 = true := by rw [hx, bit_setBit _ _ _ _ _ (by decide), if_pos rfl]
  clear hx
  have hs := hxo.same
  obtain ⟨R, hR⟩ := hxo.regs_eq
  rw [hR] at he h5 h6 hs
  rw [he]
  exact ⟨R, rfl, hs, h5, h6⟩

/-! ### FR_CTRL -/

/-- A command bit of FR_CTRL written by a host in the secure world does what the bit commands. -/
theorem busWrite_frCtrl {s : State} {ms : Master} {w : World} {v : Nat} (hs : s.secureHost ms w) (hv : v = 1 ∨ v = 8 ∨ v = 16) {t : State} (ht : s.frCtrl v = t)
    (hrole : t.rd EP_TBCFG = s.rd EP_TBCFG) (hhb : t.hb = s.hb) : s.busWrite ms w FR_CTRL v v = t := by
  refine busWrite_starts .std hs.1 (by decide) ?_ (secureHost_mayWrite hs FR_CTRL) (by decide) (by decide) ?_ ?_ (tbRole_congr hrole) (congrArg Bridge.stalled hhb)
  · obtain rfl | rfl | rfl := hv <;> decide +kernel
  · obtain rfl | rfl | rfl := hv <;> decide
  · rw [Nat.and_self]
    exact ht

/-! ### The check -/

/-- What staging a delta's entries leaves of the registers and the loader: the rows shown, and what was written. -/
def Staged (s u : State) : Prop := sameRegs [TB_STATUS] s u ∧ ∃ a b, u.fr = { s.fr with wroteT := a, wroteG := b }

theorem Staged.refl (s : State) : Staged s s := ⟨.refl _ s, _, _, rfl⟩

theorem Staged.step {s t u : State} (h : Staged s t) (hr : sameRegs [TB_STATUS] t u) (hf : u.fr = t.fr) : Staged s u := by
  obtain ⟨h1, a, b, h2⟩ := h
  exact ⟨h1.trans hr, a, b, hf.trans h2⟩

theorem Staged.wroteT {s t : State} (h : Staged s t) (v : Bool) : Staged s (t.onFr fun f => { f with wroteT := v }) := by
  obtain ⟨h1, a, b, h2⟩ := h
  refine ⟨h1, v, b, ?_⟩
  show ({ t.fr with wroteT := v } : Loader) = _
  rw [h2]

theorem Staged.wroteG {s t : State} (h : Staged s t) (v : Bool) : Staged s (t.onFr fun f => { f with wroteG := v }) := by
  obtain ⟨h1, a, b, h2⟩ := h
  refine ⟨h1, a, v, ?_⟩
  show ({ t.fr with wroteG := v } : Loader) = _
  rw [h2]

/-- Staging the tables writes their memory, and TB_STATUS shows the rows. -/
theorem tbStage_regs {s u : State} {sect : Octets} (h : s.tbStage sect = some u) : sameRegs [TB_STATUS] s u := by
  unfold State.tbStage at h
  extract_lets a b at h
  have hb : Keeps 0x200c0 s b := Keeps.foldl (fun _ _ hz => State.memW_keeps rfl hz _ _) _
    (Keeps.foldl (fun _ _ hz => State.clearStandby_keeps rfl hz _) _ (.refl _ s))
  clear_value b
  obtain ⟨c, hc, h⟩ := Option.bind_eq_some_iff.mp h
  obtain ⟨c', hc', hc⟩ := Option.bind_eq_some_iff.mp hc
  have hkc : Keeps 0x200c0 s c := State.stageHash_keeps rfl (State.stageHash_keeps rfl hb _ _ _ hc') _ _ _ hc
  obtain ⟨d, hd, h⟩ := Option.bind_eq_some_iff.mp h
  have hkd : Keeps 0x200c0 s d := State.stageRegion_keeps rfl hkc _ _ _ _ _ _ _ _ _ _ hd
  clear_value a
  extract_lets all at h
  split at h
  · cases h
  · obtain rfl := Option.some.inj h
    refine sameRegs.trans (.of_regs ((State.tagRows_keeps (c := 0x200c0) rfl (Keeps.foldl (fun z h hz => ?_) _ hkd)).at_ 5 rfl)) (tcamShow_only _).same
    split
    · exact Keeps.set_tab rfl hz _
    · exact hz

theorem stageDelta_staged (s : State) (d : Raising) : Staged s (s.stageDelta d).2 := by
  unfold State.stageDelta
  extract_lets tb gb a
  have ha : ∀ x, a = some x → Staged s x := fun x hx => by
    have hx' : (match tb with | some y => if s.bentUp TB0 then s.tbStage y else some s | none => some s) = some x := hx
    clear_value tb
    cases tb with
    | some y =>
      dsimp only at hx'
      split at hx'
      · exact (Staged.refl s).step (tbStage_regs hx') ((State.tbStage_keeps (c := 0x200e0) rfl (.refl _ s) _ _ hx').at_ 11 rfl)
      · obtain rfl := Option.some.inj hx'
        exact .refl s
    | none =>
      obtain rfl := Option.some.inj hx'
      exact .refl s
  clear_value a
  split
  · exact .refl s
  split
  · exact .refl s
  cases a with
  | none => exact .refl s
  | some x =>
    have hx := ha x rfl
    obtain ⟨y, hy⟩ : ∃ y, y = if tb.isSome && s.bentUp TB0 then x.onFr (fun f => { f with wroteT := true }) else x := ⟨_, rfl⟩
    have hys : Staged s y := by
      rw [hy]
      split
      · exact hx.wroteT true
      · exact hx
    show Staged s (match gb with
      | none => (none, if tb.isSome && s.bentUp TB0 then x.onFr (fun f => { f with wroteT := true }) else x)
      | some z =>
        if !s.bentUp GB0 then (none, if tb.isSome && s.bentUp TB0 then x.onFr (fun f => { f with wroteT := true }) else x) else
        match (if tb.isSome && s.bentUp TB0 then x.onFr (fun f => { f with wroteT := true }) else x).gwStage z with
        | some s2 => (none, s2.onFr (fun f => { f with wroteG := true }))
        | none => (some ({ code := 14, bent := bentCode GB0 } : LoadErr), if tb.isSome && s.bentUp TB0 then x.onFr (fun f => { f with wroteT := true }) else x)).2
    rw [← hy]
    cases gb with
    | none => exact hys
    | some z =>
      dsimp only
      split
      · exact hys
      · cases hg : y.gwStage z with
        | none => exact hys
        | some v =>
          have hk : Keeps 0x40 y v := State.gwStage_keeps rfl (.refl _ y) z _ hg
          exact (hys.step (.of_regs (hk.at_ 5 rfl)) (hk.at_ 11 rfl)).wroteG true

/-- A check begun: FR_STATUS shows stage 6, and nothing is written yet. -/
def State.checkBegun (s : State) : State :=
  (s.setFld FR_STATUS 0 4 6).onFr (fun f => { f with checking := true, wroteT := false, wroteG := false, kept10 := false })

/-- May the delta in staging be checked? -/
def State.mayCheck (s : State) : Prop :=
  (s.mode = .solo ∨ s.mode = .lead ∨ s.mode = .shadow) ∧ s.bit FR_STATUS 5 = false ∧ s.fr.checking = false ∧ s.tw.admitted = false ∧ s.fr.recs ≠ []

theorem deltaCheck_checks {s : State} (h : s.mayCheck) (t : Nat) : ∃ z d, deltaCheck t s = z.onFr (fun f => { f with delta := some d }) ∧
    Staged (s.tick t).checkBegun z ∧ d.recs = imageRecs s.stageImg ∧ d.sects = imageSects s.stageImg := by
  obtain ⟨hm, hb, hc, ha, hr⟩ := h
  have hre : s.fr.recs.isEmpty = false := by
    cases hl : s.fr.recs with
    | nil => exact absurd hl hr
    | cons _ _ => rfl
  unfold deltaCheck
  extract_lets x img d front e1 y e3
  have hy : y = x.checkBegun := rfl
  rw [if_neg (by
    rw [show x.bit FR_STATUS 5 = s.bit FR_STATUS 5 from rfl, hb, show x.fr = s.fr from rfl, hc, hre, show x.tw = s.tw from rfl, ha, show x.mode = s.mode from rfl]
    obtain hm | hm | hm := hm <;> rw [hm] <;> decide)]
  clear_value e1
  cases e1 with
  | some e =>
    refine ⟨y, _, rfl, ?_, ?_, ?_⟩
    · rw [hy]
      exact .refl _
    · rfl
    · rfl
  | none =>
    refine ⟨(y.stageDelta d).2, _, rfl, ?_, ?_, ?_⟩
    · rw [hy]
      exact stageDelta_staged _ d
    · rfl
    · rfl

/-- START in service begins the check of the delta in staging. -/
theorem after_deltaCheck (s : State) (t : Nat) (ms : Master) (w : World) (hs : s.secureHost ms w) (hm : s.mode = .solo ∨ s.mode = .lead ∨ s.mode = .shadow)
    (hb : s.bit FR_STATUS 5 = false) (hc : s.fr.checking = false) (ha : s.tw.admitted = false) (hr : s.fr.recs ≠ []) : After (.deltaCheck t ms w) s fun u =>
      u.fr.checking = true ∧ u.fld FR_STATUS 0 4 = 6 ∧ u.bit FR_STATUS 5 = false ∧ u.mode = s.mode ∧ u.ep = s.ep ∧ u.fr.swapAt = s.fr.swapAt ∧ u.mz = s.mz ∧
      (∃ d, u.fr.delta = some d ∧ d.recs = imageRecs s.stageImg ∧ d.sects = imageSects s.stageImg) := by
  obtain ⟨z, d, hz, ⟨hzr, p, q, hzf⟩, hd⟩ := deltaCheck_checks (s := s.tick t) ⟨hm, hb, hc, ha, hr⟩ (s.tick t).now
  rw [tick_tick] at hzr hzf
  have hk : Keeps 0x208e2 (s.tick t) (deltaCheck (s.tick t).now (s.tick t)) := deltaCheck_keeps rfl (.refl _ _) _
  have hbo : RegsOnly [FR_STATUS] (s.tick t) ((s.tick t).setFld FR_STATUS 0 4 6) := (RegsOnly.refl _ _).setFld (by simp) 0 4 6
  have hbeg : sameRegs [FR_STATUS, TB_STATUS] (s.tick t) (s.tick t).checkBegun := hbo.same.mono (by simp)
  have hzs : sameRegs [FR_STATUS, TB_STATUS] (s.tick t) z := hbeg.trans (hzr.mono (by simp))
  have hf6 : z.fld FR_STATUS 0 4 = 6 := (hzr.fld (by decide) 0 4).trans ((fld_setFld_same (s.tick t) FR_STATUS 0 4 6 (by decide)).trans rfl)
  have hb5 : z.bit FR_STATUS 5 = false :=
    (hzr.bit (by decide) 5).trans ((bit_setFld_ne (s.tick t) FR_STATUS 0 4 6 5 (by decide) (by decide)).trans hb)
  have hpair : (s.mode == .solo || s.paired) = true := by
    unfold State.paired
    obtain hm | hm | hm := hm <;> rw [hm] <;> rfl
  have hwrite : (s.tick t).busWrite ms w FR_CTRL 1 1 = deltaCheck (s.tick t).now (s.tick t) := by
    refine busWrite_frCtrl (s := s.tick t) ⟨reaches_tick t hs.1, hs.2⟩ (.inl rfl) ?_ ?_ (hk.at_ 25 rfl)
    · unfold State.frCtrl
      rw [show (s.tick t).mode = s.mode from rfl]
      obtain hm | hm | hm := hm <;> rw [hm] <;> rfl
    · rw [hz]
      exact hzs EP_TBCFG (by decide)
  have heq : (if s.mode == .solo || s.paired then (s.tick t).busWrite ms w FR_CTRL 1 1 else s.tick t) = deltaCheck (s.tick t).now (s.tick t) := by
    rw [if_pos hpair, hwrite]
  have hmode : (deltaCheck (s.tick t).now (s.tick t)).mode = s.mode := hk.at_ 4 rfl
  have hep : (deltaCheck (s.tick t).now (s.tick t)).ep = s.ep := hk.at_ 10 rfl
  have hmz : (deltaCheck (s.tick t).now (s.tick t)).mz = s.mz := hk.at_ 13 rfl
  rw [hz] at heq hmode hep hmz
  refine after_of rfl heq fun b _ => ⟨?_, hf6, hb5, hmode, hep, ?_, hmz, d, rfl, hd⟩
  · exact (congrArg Loader.checking hzf).trans rfl
  · exact (congrArg Loader.swapAt hzf).trans rfl

/-! ### The verdict, ABORT, FWD and a staging error -/

/-- The check completes: the delta is armed. -/
theorem after_deltaArmed (s : State) (t : Nat) (d : Raising) (hc : s.fr.checking = true) (hd : s.fr.delta = some d) (hbad : d.bad = []) : After (.deltaArmed t) s fun u =>
    u.bit FR_STATUS 5 = true ∧ u.bit FR_EVENT 4 = true ∧ u.fld FR_STATUS 0 4 = (if s.fr.full then 4 else 3) ∧ u.fr = { s.fr with checking := false, gone01 := false } ∧
    sameRegs [FR_STATUS, FR_EVENT] s u ∧ u = { s with now := max s.now t, regs := u.regs, fr := u.fr, hb := u.hb } := by
  have heq : deltaArmed t s = ((((s.tick t).stageBack).setBit FR_STATUS 5 true).evt FR_EVENT 4).onFr (fun f => { f with checking := false, gone01 := false }) := by
    unfold deltaArmed
    extract_lets x
    rw [if_neg (by rw [show x.fr.checking = s.fr.checking from rfl, hc]; decide), show x.fr.delta = some d from hd]
    simp only [hbad]
    rfl
  obtain ⟨x, hx⟩ : ∃ x, x = ((s.tick t).stageBack).setBit FR_STATUS 5 true := ⟨_, rfl⟩
  rw [← hx] at heq
  have hxo : RegsOnly [FR_STATUS, FR_EVENT] (s.tick t) (x.evt FR_EVENT 4) := by
    rw [hx]
    exact (((RegsOnly.refl _ _).setFld (by simp) 0 4 _).setBit (by simp) 5 true).evt (by simp) 4
  have hev : RegsOnly [FR_EVENT] x (x.evt FR_EVENT 4) := (RegsOnly.refl _ x).evt (by simp) 4
  have h5 : (x.evt FR_EVENT 4).bit FR_STATUS 5 = true :=
    (hev.same.bit (by decide) 5).trans (by rw [hx, bit_setBit _ _ _ _ _ (by decide), if_pos rfl])
  have h4 : (x.evt FR_EVENT 4).bit FR_EVENT 4 = true := bit_evt_same _ _ _ (by decide)
  have hf : (x.evt FR_EVENT 4).fld FR_STATUS 0 4 = if s.fr.full then 4 else 3 := by
    refine (hev.same.fld (by decide) 0 4).trans ((fld_congr_bits (s := (s.tick t).stageBack) fun k hk => ?_).trans ?_)
    · rw [hx, bit_setBit _ _ _ _ _ (by omega), if_neg (by omega)]
    · refine (fld_setFld_same (s.tick t) FR_STATUS 0 4 _ (by decide)).trans ?_
      show (if s.fr.full then 4 else 3) % 2 ^ 4 = _
      split <;> rfl
  clear hx hev
  generalize x.evt FR_EVENT 4 = y at *
  have hsame := hxo.same
  obtain ⟨R, hR⟩ := hxo.regs_eq
  rw [hR] at heq h5 h4 hf hsame
  exact after_of rfl heq fun b _ => ⟨h5, h4, hf, rfl, hsame, rfl⟩

/-- The check completes with a failed check: the delta is refused with its code. -/
theorem after_deltaRefused (s : State) (t : Nat) (d : Raising) (hc : s.fr.checking = true) (hd : s.fr.delta = some d) (e : Nat) (rest : List Nat)
    (hbad : d.bad = e :: rest) : After (.deltaArmed t) s fun u =>
      u.rdN FR_ERR = e % 2 ^ 32 ∧ u.bit FR_EVENT 2 = true ∧ u.bit FR_STATUS 5 = s.bit FR_STATUS 5 ∧ (s.fr.wroteT || s.fr.wroteG → u.bit FR_STATUS 6 = true) ∧
      u.fr = s.fr.abandon ∧ sameRegs [FR_STATUS, FR_EVENT, FR_ERR] s u ∧ u = { s with now := max s.now t, regs := u.regs, fr := u.fr, hb := u.hb } := by
  have heq : deltaArmed t s = (((s.tick t).endCheck).wrN FR_ERR e).evt FR_EVENT 2 := by
    unfold deltaArmed
    extract_lets x
    rw [if_neg (by rw [show x.fr.checking = s.fr.checking from rfl, hc]; decide), show x.fr.delta = some d from hd]
    simp only [hbad]
    rfl
  obtain ⟨Q, hQ, hs, h5, h6⟩ := endCheck_ends (s.tick t)
  generalize (s.tick t).endCheck = x at *
  have hxo : RegsOnly [FR_EVENT, FR_ERR] x ((x.wrN FR_ERR e).evt FR_EVENT 2) := ((RegsOnly.refl _ x).wrN (by simp) e).evt (by simp) 2
  have herr : ((x.wrN FR_ERR e).evt FR_EVENT 2).rdN FR_ERR = e % 2 ^ 32 := (rdN_evt_ne _ _ _ _ (by decide)).trans (rdN_wrN_same x FR_ERR e)
  have hev : ((x.wrN FR_ERR e).evt FR_EVENT 2).bit FR_EVENT 2 = true := bit_evt_same _ _ _ (by decide)
  have h5' := (hxo.same.bit (a := FR_STATUS) (by decide) 5).trans h5
  have h6' := fun hw => (hxo.same.bit (a := FR_STATUS) (by decide) 6).trans (h6 hw)
  have hsame : sameRegs [FR_STATUS, FR_EVENT, FR_ERR] s ((x.wrN FR_ERR e).evt FR_EVENT 2) := (hs.mono (by simp) : sameRegs [FR_STATUS, FR_EVENT, FR_ERR] s x).trans (hxo.same.mono (by simp))
  generalize (x.wrN FR_ERR e).evt FR_EVENT 2 = y at *
  obtain ⟨R, hR⟩ := hxo.regs_eq
  rw [hR, hQ] at heq herr hev h5' h6' hsame
  exact after_of rfl heq fun b _ => ⟨herr, hev, h5', h6', rfl, hsame, rfl⟩

/-- ABORT ends a check. -/
theorem after_deltaAbort (s : State) (ms : Master) (w : World) (hs : s.secureHost ms w) (hc : s.fr.checking = true) : After (.deltaAbort ms w) s fun u =>
    u.fr = s.fr.abandon ∧ (s.fr.wroteT || s.fr.wroteG → u.bit FR_STATUS 6 = true) ∧ sameRegs [FR_STATUS] s u ∧ u = { s with regs := u.regs, fr := u.fr, hb := u.hb } := by
  obtain ⟨R, hR, hsame, -, h6⟩ := endCheck_ends s
  have heq : s.busWrite ms w FR_CTRL 0x10 0x10 = s.endCheck := by
    refine busWrite_frCtrl hs (.inr (.inr rfl)) ?_ (hsame EP_TBCFG (by decide)) (by rw [hR])
    show s.deltaAbort = s.endCheck
    unfold State.deltaAbort
    rw [if_pos hc]
  generalize s.endCheck = y at *
  rw [hR] at heq hsame h6
  exact after_of rfl heq fun b _ => ⟨rfl, h6, hsame, rfl⟩

/-- FWD copies the staging to the peer. -/
theorem after_stagingForward (s : State) (ms : Master) (w : World) (hs : s.secureHost ms w) (hm : s.mode = .lead ∨ s.mode = .shadow) (hp : s.pairedFrame = true) :
    After (.stagingForward ms w) s fun u =>
      u.fr = { s.fr with peerStage := s.stageImg } ∧ u = { s with fr := u.fr, hb := u.hb } ∧ sameBridge s u := by
  have heq : s.busWrite ms w FR_CTRL 8 8 = { s with fr := { s.fr with peerStage := s.stageImg } } := by
    refine busWrite_frCtrl hs (.inr (.inl rfl)) ?_ rfl rfl
    show s.stagingForward = _
    unfold State.stagingForward
    rw [if_pos (by rw [hp]; obtain hm | hm := hm <;> rw [hm] <;> rfl)]
    rfl
  exact after_hb rfl heq rfl fun b hb => ⟨rfl, rfl, hb⟩

/-- An uncorrectable error in armed staging disarms the delta and is an F2. -/
theorem after_stagingError (s : State) (t : Nat) (hb : s.bit FR_STATUS 5 = true) (hsw : s.fr.switched = false) (hm : s.mode = .solo) (hf : s.fld FLT_STATUS 0 5 = 0) :
    After (.stagingError t) s fun u =>
      u.bit FR_STATUS 5 = false ∧ u.bit FR_STATUS 6 = true ∧ u.fr = { s.fr.abandon with swapAt := none } ∧ faultNoted 2 0x23 0xFF 0xFF s u ∧
      sameRegs (FR_STATUS :: faultRegs 2) s u ∧ u = { s with now := max s.now t, regs := u.regs, fr := u.fr, flt := u.flt, hb := u.hb } := by
  obtain ⟨Q, hQ, hs, h5, h6⟩ := dropDelta_drops (s := s.tick t) hsw
  have heq : stagingError t s = (s.tick t).dropDelta.raiseFault 2 0x23 0xFF 0xFF := if_pos (by
    show (s.bit FR_STATUS 5 && !s.fr.switched) = true
    rw [hb, hsw]
    rfl)
  generalize (s.tick t).dropDelta = x at *
  have hxf : x.fld FLT_STATUS 0 5 = 0 := (hs.fld (by decide) 0 5).trans hf
  have hfault : ∃ f, x.raiseFault 2 0x23 0xFF 0xFF = { (x.noted 2 0x23 0xFF 0xFF x.stampEp x.now) with flt := f } := by
    have hm' : (x.noted 2 0x23 0xFF 0xFF x.stampEp x.now).mode = .solo := by
      rw [(noted_only ..).frame, hQ]
      exact hm
    rw [raiseFault_free _ _ _ _ hxf, faultResult_f2]
    generalize x.noted 2 0x23 0xFF 0xFF x.stampEp x.now = y at *
    have hhit : y.f2Hit 0xFF = { y with flt := { y.flt with f2At := y.now, f2Iso := [] } } := rfl
    rw [hm', if_neg (by simp), hhit]
    unfold State.leaveStep
    rw [if_neg (by show ¬ (y.mode == .shadow) = true; rw [hm']; decide)]
    exact ⟨_, rfl⟩
  obtain ⟨f, hfault⟩ := hfault
  have hn := (noted_now x (cls := 2) (cause := 0x23) (src := 0xFF) (unit := 0xFF) (by decide) (by decide) (by decide) (by decide)).left
    (t := s) (hs.rdN (by decide)).symm
  have hno := noted_only x 2 0x23 0xFF 0xFF x.stampEp x.now
  rw [hfault] at heq
  generalize x.noted 2 0x23 0xFF 0xFF x.stampEp x.now = y at *
  have h5' := (hno.same.bit (a := FR_STATUS) (by decide) 5).trans h5
  have h6' := (hno.same.bit (a := FR_STATUS) (by decide) 6).trans h6
  have hsame : sameRegs (FR_STATUS :: faultRegs 2) s y := (hs.mono (by simp) : sameRegs (FR_STATUS :: faultRegs 2) s x).trans (hno.same.mono (List.subset_cons_self _ _))
  obtain ⟨R, hR⟩ := hno.regs_eq
  rw [hR, hQ] at heq h5' h6' hsame hn
  exact after_of rfl heq fun b _ => ⟨h5', h6', rfl, hn, hsame, rfl⟩

end Sys2Proof.Machine
end

section
namespace Sys2Proof.Proofs
open Sys2Proof Sys2Proof.Machine

/-- Settles O19: a delta from its check to its end. -/
theorem deltaCheckAndArming : Obligations.DeltaCheckAndArming := by
  unfold Obligations.DeltaCheckAndArming
  exact ⟨after_deltaCheck, fun s t d hc hd => ⟨after_deltaArmed s t d hc hd, after_deltaRefused s t d hc hd⟩, after_deltaAbort, after_stagingForward, after_stagingError⟩

end Sys2Proof.Proofs
end

section
/-! PROOFS. Swap commands, and the start of epoch G (R105, R106, R109, R111, R113, R554). -/
set_option Elab.async false
namespace Sys2Proof.Machine
open Sys2Proof

/-! ### Swap commands -/

/-- A swap command too early, or for a scheduled swap too near or begun, is refused with LATE. -/
theorem swapSchedule_late {s : State} {c g : Nat}
    (h : g < c + 16 ∨ (∃ g', s.fr.swapAt = some g' ∧ s.bit FR_STATUS 5 = true ∧ (g' < c + 16 ∨ s.fr.switched = true))) :
    swapSchedule c g s = (s.recordCmd c { accepted := false, event := 6, armed := s.bit FR_STATUS 5 }).evt FR_EVENT 6 := by
  unfold swapSchedule
  extract_lets armed refuse early
  rw [if_pos]
  obtain h | ⟨g', h1, h2, h3⟩ := h
  · simp [h]
  · have he : early = true := by
      show (match s.fr.swapAt with | some g' => armed && (decide (g' < c + 16) || s.fr.switched) | none => false) = true
      rw [h1, show armed = s.bit FR_STATUS 5 from rfl, h2]
      simpa using h3
    simp [he]

/-- With no delta armed no scheduled swap is too near. -/
theorem swapSchedule_notArmed {s : State} {c g : Nat} (hg : c + 16 ≤ g) (hb : s.bit FR_STATUS 5 = false) :
    swapSchedule c g s = (s.recordCmd c { accepted := false, event := 7, armed := s.bit FR_STATUS 5 }).evt FR_EVENT 7 := by
  unfold swapSchedule
  extract_lets armed refuse early
  have ha : armed = false := hb
  have he : early = false := by
    show (match s.fr.swapAt with | some g' => armed && (decide (g' < c + 16) || s.fr.switched) | none => false) = false
    rw [ha]
    split <;> rfl
  rw [if_neg (by rw [he]; simp; omega), ha, if_pos (by decide)]

/-- A swap command in time, with a delta armed, schedules its epoch. -/
theorem swapSchedule_schedules {s : State} {c g : Nat} (hb : s.bit FR_STATUS 5 = true) (hg : c + 16 ≤ g)
    (h : ∀ g', s.fr.swapAt = some g' → c + 16 ≤ g' ∧ s.fr.switched = false) :
    swapSchedule c g s = (s.recordCmd c { armed := true }).onFr (fun f => { f with swapAt := some g }) := by
  unfold swapSchedule
  extract_lets armed refuse early
  have ha : armed = true := hb
  have he : early = false := by
    show (match s.fr.swapAt with | some g' => armed && (decide (g' < c + 16) || s.fr.switched) | none => false) = false
    cases hs : s.fr.swapAt with
    | none => rfl
    | some g' =>
      obtain ⟨h1, h2⟩ := h g' hs
      simp only [h2]
      rw [decide_eq_false (by omega)]
      exact Bool.and_false _
  rw [if_neg (by rw [he]; simp; omega), ha, if_neg (by decide)]

/-- A processed swap command of epoch c. -/
theorem after_swapSchedule (s : State) (c g : Nat) (hs : s.takesCommands) :
    (s.bit FR_STATUS 5 = true → c + 16 ≤ g → (∀ g', s.fr.swapAt = some g' → c + 16 ≤ g' ∧ s.fr.switched = false) → After (.swapSchedule c g) s fun u =>
      u.fr = { s.fr with swapAt := some g } ∧ u = { s with fr := u.fr, ep := { s.ep with outcomes := u.ep.outcomes }, hb := u.hb } ∧ sameBridge s u) ∧
    (g < c + 16 ∨ (∃ g', s.fr.swapAt = some g' ∧ s.bit FR_STATUS 5 = true ∧ (g' < c + 16 ∨ s.fr.switched = true)) → After (.swapSchedule c g) s fun u =>
      u.bit FR_EVENT 6 = true ∧ sameRegs [FR_EVENT] s u ∧ u = { s with regs := u.regs, ep := { s.ep with outcomes := u.ep.outcomes }, hb := u.hb } ∧ sameBridge s u) ∧
    (c + 16 ≤ g → s.bit FR_STATUS 5 = false → After (.swapSchedule c g) s fun u =>
      u.bit FR_EVENT 7 = true ∧ sameRegs [FR_EVENT] s u ∧ u = { s with regs := u.regs, ep := { s.ep with outcomes := u.ep.outcomes }, hb := u.hb } ∧ sameBridge s u) := by
  obtain ⟨hd, ha, hh⟩ := hs
  have hrefused : ∀ k < 32, ∀ o : CmdOutcome, swapSchedule c g s = (s.recordCmd c o).evt FR_EVENT k → After (.swapSchedule c g) s fun u =>
      u.bit FR_EVENT k = true ∧ sameRegs [FR_EVENT] s u ∧ u = { s with regs := u.regs, ep := { s.ep with outcomes := u.ep.outcomes }, hb := u.hb } ∧ sameBridge s u := by
    intro k hk o he
    have hp := (processed_unheld (s := s) (needsEpoch := true) (f := swapSchedule c g) hd (fun _ => ha) (by rw [he]; exact hh)).trans he
    have ho : RegsOnly [FR_EVENT] (s.recordCmd c o) ((s.recordCmd c o).evt FR_EVENT k) := (RegsOnly.refl _ _).evt (by simp) k
    have hb := bit_evt_same (s.recordCmd c o) FR_EVENT k hk
    generalize (s.recordCmd c o).evt FR_EVENT k = y at *
    have hsame : sameRegs [FR_EVENT] s y := ho.same
    obtain ⟨R, hR⟩ := ho.regs_eq
    rw [hR] at hp hb hsame
    exact after_hb rfl hp rfl fun b hb' => ⟨hb, hsame, rfl, hb'⟩
  refine ⟨fun hb hg h => ?_, fun h => hrefused 6 (by decide) _ (swapSchedule_late h), fun hg hb => hrefused 7 (by decide) _ (swapSchedule_notArmed hg hb)⟩
  have he := swapSchedule_schedules hb hg h
  have hp := (processed_unheld (s := s) (needsEpoch := true) (f := swapSchedule c g) hd (fun _ => ha) (by rw [he]; exact hh)).trans he
  exact after_hb rfl hp rfl fun b hb' => ⟨rfl, rfl, hb'⟩

/-! ### Disarming -/

theorem mort_unswap {s : State} (h : s.fr.switched = true) {m : Nat} (hm : m < s.mz.length) :
    s.unswap.mort m = { s.mort m with newDesc := (s.mort m).newDesc.map fun _ => (s.mort m).desc } := by
  unfold State.unswap
  rw [if_neg (by rw [h]; decide)]
  show nth (s.mz.map fun x => if x.newDesc.isSome then { x with newDesc := some x.desc } else x) m = _
  have hx : nth (s.mz.map fun x => if x.newDesc.isSome then { x with newDesc := some x.desc } else x) m =
      if (s.mort m).newDesc.isSome then { s.mort m with newDesc := some (s.mort m).desc } else s.mort m := by
    unfold State.mort nth
    rw [List.getD_eq_getElem?_getD, List.getElem?_map, List.getD_eq_getElem?_getD, List.getElem?_eq_getElem hm]
    rfl
  rw [hx]
  generalize s.mort m = x
  cases hn : x.newDesc with
  | none => rw [if_neg (by decide), Option.map_none, ← hn]
  | some o => rw [if_pos (by rfl), Option.map_some]

theorem bent_unswap {s : State} (h : s.fr.switched = true) {k : Nat} (hk : k < 13) (hb : s.fr.back.contains k = true) : s.unswap.bent k = .isolated := by
  unfold State.unswap
  rw [if_neg (by rw [h]; decide)]
  show ((List.range 13).map fun i => if s.fr.back.contains i then BentSt.isolated else s.bent i).getD k _ = _
  rw [List.getD_eq_getElem?_getD, List.getElem?_map, List.getElem?_range hk]
  show (if s.fr.back.contains k then BentSt.isolated else s.bent k) = _
  rw [if_pos hb]

/-- A disarm processed after G has begun takes the swap back as well. -/
theorem after_deltaDisarm_switched (s : State) (c : Nat) (hs : s.takesCommands) (hb : s.bit FR_STATUS 5 = true) (hsw : s.fr.switched = true) (hl : s.mz.length = 128) :
    After (.deltaDisarm c) s fun u =>
      u.bit FR_STATUS 5 = false ∧ u.fr.swapAt = none ∧ u.fr.delta = none ∧ u.fr.switched = false ∧ (∀ k < 13, s.fr.back.contains k = true → u.bent k = .isolated) ∧
      (∀ m < 128, u.mort m = { s.mort m with newDesc := (s.mort m).newDesc.map fun _ => (s.mort m).desc }) ∧ sameRegs [FR_STATUS] s u ∧
      u = { s with regs := u.regs, mz := u.mz, fr := u.fr, ep := { s.ep with outcomes := u.ep.outcomes }, hb := u.hb } ∧ sameBridge s u := by
  obtain ⟨hd, ha, hh⟩ := hs
  obtain ⟨x, hx⟩ : ∃ x, x = s.recordCmd c { armed := s.bit FR_STATUS 5 } := ⟨_, rfl⟩
  have he : deltaDisarm c s = { (x.unswap.setBit FR_STATUS 5 false).setBit FR_STATUS 6 true with
      fr := { x.unswap.fr.abandon with swapAt := none } } := by
    have hd' : deltaDisarm c s = if s.bit FR_STATUS 5 then x.dropDelta else x := by rw [hx]; rfl
    rw [hd', if_pos hb]
    rfl
  have hxs : x.fr.switched = true := by rw [hx]; exact hsw
  have hbent : ∀ k < 13, s.fr.back.contains k = true → x.unswap.bent k = .isolated := fun k hk hbk => bent_unswap hxs hk (by rw [hx]; exact hbk)
  have hmort : ∀ m < 128, x.unswap.mort m = { s.mort m with newDesc := (s.mort m).newDesc.map fun _ => (s.mort m).desc } := fun m hm =>
    (mort_unswap hxs (by rw [hx]; exact hl.symm ▸ hm)).trans (by rw [hx]; rfl)
  have hsw' : x.unswap.fr.switched = false := by
    unfold State.unswap
    rw [if_neg (by rw [hxs]; decide)]
  have hk : Keeps 0x2800 x x.unswap := State.unswap_keeps rfl (.refl _ x)
  have hframe : x.unswap = { x with fr := x.unswap.fr, mz := x.unswap.mz } := hk.frame
  have ho : RegsOnly [FR_STATUS] x.unswap ((x.unswap.setBit FR_STATUS 5 false).setBit FR_STATUS 6 true) :=
    ((RegsOnly.refl _ _).setBit (by simp) 5 false).setBit (by simp) 6 true
  have h5 : ((x.unswap.setBit FR_STATUS 5 false).setBit FR_STATUS 6 true).bit FR_STATUS 5 = false := by
    rw [bit_setBit _ _ _ _ _ (by decide), if_neg (by decide), bit_setBit _ _ _ _ _ (by decide), if_pos rfl]
  generalize (x.unswap.setBit FR_STATUS 5 false).setBit FR_STATUS 6 true = y at *
  have hsame : sameRegs [FR_STATUS] s y := ho.same.left (t := s) (by rw [hframe, hx]; rfl)
  obtain ⟨R, hR⟩ := ho.regs_eq
  generalize x.unswap = v at *
  rw [hR, hframe, hx] at he h5
  rw [hR] at hsame
  have hp := (processed_unheld (s := s) (needsEpoch := true) (f := deltaDisarm c) hd (fun _ => ha) (by rw [he]; exact hh)).trans he
  exact after_hb rfl hp rfl fun b hb' => ⟨h5, rfl, rfl, hsw', hbent, hmort, hsame, rfl, hb'⟩

/-- A disarm before G begins cancels the delta and its swap; with no delta armed it is on record alone. -/
theorem after_deltaDisarm (s : State) (c : Nat) (hs : s.takesCommands) :
    (s.bit FR_STATUS 5 = true → s.fr.switched = false → After (.deltaDisarm c) s fun u =>
      u.bit FR_STATUS 5 = false ∧ u.bit FR_STATUS 6 = true ∧ u.fr = { s.fr.abandon with swapAt := none } ∧ sameRegs [FR_STATUS] s u ∧
      u = { s with regs := u.regs, fr := u.fr, ep := { s.ep with outcomes := u.ep.outcomes }, hb := u.hb } ∧ sameBridge s u) ∧
    (s.bit FR_STATUS 5 = false → After (.deltaDisarm c) s fun u =>
      u = { s with ep := { s.ep with outcomes := u.ep.outcomes }, hb := u.hb } ∧ sameBridge s u) := by
  obtain ⟨hd, ha, hh⟩ := hs
  obtain ⟨x, hx⟩ : ∃ x, x = s.recordCmd c { armed := s.bit FR_STATUS 5 } := ⟨_, rfl⟩
  have he : deltaDisarm c s = if s.bit FR_STATUS 5 then x.dropDelta else x := by rw [hx]; rfl
  refine ⟨fun hb hsw => ?_, fun hb => ?_⟩
  · rw [if_pos hb] at he
    obtain ⟨R, hR, hsame, h5, h6⟩ := dropDelta_drops (s := x) (by rw [hx]; exact hsw)
    have hsame' : sameRegs [FR_STATUS] s x.dropDelta := hsame.left (t := s) (by rw [hx]; rfl)
    generalize x.dropDelta = y at *
    rw [hR, hx] at he h5 h6 hsame'
    have hp := (processed_unheld (s := s) (needsEpoch := true) (f := deltaDisarm c) hd (fun _ => ha) (by rw [he]; exact hh)).trans he
    exact after_hb rfl hp rfl fun b hb' => ⟨h5, h6, rfl, hsame', rfl, hb'⟩
  · rw [if_neg (by rw [hb]; decide), hx] at he
    have hp := (processed_unheld (s := s) (needsEpoch := true) (f := deltaDisarm c) hd (fun _ => ha) (by rw [he]; exact hh)).trans he
    exact after_hb rfl hp rfl fun b hb' => ⟨rfl, hb'⟩

/-! ### The start of epoch G -/

/-- A re-tenoned mortise keeps its tenon and has the new descriptor and its resume epoch; with nothing on the wire its pins are released (R111, R113). -/
theorem retenon_self (s : State) {m : Nat} (g : Nat) (d : Octets) (hl : s.mz.length = 128) (hm : m < 128) :
    ((s.retenon m g d).mort m).newDesc = some d ∧ ((s.retenon m g d).mort m).tenon = (s.mort m).tenon ∧ ((s.retenon m g d).mort m).resume = some (s.resumeEpoch m g) ∧
      ((s.mort m).resume = none → s.onWire m = false → ((s.retenon m g d).mort m).st = .loading ∧ ((s.retenon m g d).mort m).pins = .pidle) := by
  unfold State.retenon
  extract_lets A x from_ drain busy s1 s2 s3
  have hm1 : m < s.mz.length := hl ▸ hm
  have K : Keeps 0x42820 s (s2.flushMort m) :=
    State.flushMort_keeps rfl (State.onFr_keeps rfl (State.wrN_keeps rfl (State.wrN_keeps rfl (State.onMort_keeps rfl (.refl _ s) _ _) _ _) _ _) _) _
  have K3 : Keeps 0x42820 s s3 := State.onMort_keeps rfl K _ _
  have h2 : (s2.mort m).newDesc = some d ∧ (s2.mort m).tenon = (s.mort m).tenon ∧ (s2.mort m).resume = some (s.resumeEpoch m g) := by
    rw [show s2.mort m = _ from mort_onMort_same s _ hm1]
    exact ⟨rfl, rfl, rfl⟩
  have h3 : (s3.mort m).newDesc = (s2.mort m).newDesc ∧ (s3.mort m).tenon = (s2.mort m).tenon ∧ (s3.mort m).resume = (s2.mort m).resume := by
    have hl2 : (s2.flushPort m).2.mz.length = 128 := by
      have K2 : Keeps 0x42820 s s2 :=
        State.onFr_keeps rfl (State.wrN_keeps rfl (State.wrN_keeps rfl (State.onMort_keeps rfl (.refl _ s) _ _) _ _) _ _) _
      exact (show Keeps 0x42820 s (s2.flushPort m).2 from State.flushPort_keeps rfl K2 m).len_mz hl
    have hfp : (s2.flushPort m).2.mort m = s2.mort m := (State.flushPort_keeps (c := 0x40000) rfl (.refl _ s2) m).mort_eq rfl m
    have hfm : ((s2.flushMort m).mort m).newDesc = (s2.mort m).newDesc ∧ ((s2.flushMort m).mort m).tenon = (s2.mort m).tenon ∧
        ((s2.flushMort m).mort m).resume = (s2.mort m).resume := by
      rw [show (s2.flushMort m).mort m = _ from mort_onMort_same (s2.flushPort m).2 _ (hl2 ▸ hm), hfp]
      exact ⟨rfl, rfl, rfl⟩
    rw [show s3.mort m = _ from mort_onMort_same _ _ (by rw [K.len_mz hl]; exact hm)]
    exact hfm
  split
  next hx =>
    refine ⟨h2.1, h2.2.1, h2.2.2, fun hr => ?_⟩
    rw [show x.resume = none from hr] at hx
    cases hx
  next hx =>
    have h3' := (⟨h3.1.trans h2.1, h3.2.1.trans h2.2.1, h3.2.2.trans h2.2.2⟩ :
      (s3.mort m).newDesc = some d ∧ (s3.mort m).tenon = (s.mort m).tenon ∧ (s3.mort m).resume = some (s.resumeEpoch m g))
    split
    next hb =>
      refine ⟨h3'.1, h3'.2.1, h3'.2.2, fun _ hw => ?_⟩
      rw [show busy = false from hw] at hb
      cases hb
    next hb =>
      rw [mort_releasePins_same _ (by rw [K3.len_mz hl]; exact hm)]
      exact ⟨h3'.1, h3'.2.1, h3'.2.2, fun _ _ => ⟨rfl, rfl⟩⟩

/-- Of several re-tenonings at G, each mortise has the one of its own, at the resume epoch and with the wire as they stood. -/
theorem foldl_retenon_at (s : State) (g : Nat) (l : List (Nat × Octets)) (hp : l.Pairwise fun x y => x.1 ≠ y.1) {y : Nat × Octets} (hy : y ∈ l) (hl : s.mz.length = 128) :
    ∃ v : State, (l.foldl (fun s x => s.retenon x.1 g x.2) s).mort y.1 = (v.retenon y.1 g y.2).mort y.1 ∧ v.mz.length = 128 ∧ v.mort y.1 = s.mort y.1 ∧
      v.elen = s.elen ∧ v.onWire y.1 = s.onWire y.1 := by
  induction l generalizing s with
  | nil => cases hy
  | cons x l ih =>
    obtain ⟨hx, hp⟩ := List.pairwise_cons.mp hp
    rw [List.foldl_cons]
    cases hy with
    | head => exact ⟨s, foldl_view (State.mort · y.1) _ _ _ fun s z hz => mort_retenon_ne s g z.2 (hx z hz), hl, rfl, rfl, rfl⟩
    | tail _ hy =>
      have hne : y.1 ≠ x.1 := (hx y hy).symm
      obtain ⟨v, h1, h2, h3, h4, h5⟩ := ih (s.retenon x.1 g x.2) hp hy ((retenon_keeps_refl s x.1 g x.2).len_mz hl)
      refine ⟨v, h1, h2, h3.trans (mort_retenon_ne s g x.2 hne), h4.trans ?_, h5.trans (onWire_retenon_ne s g x.2 hne)⟩
      unfold State.elen State.fld
      rw [rdN_retenon s x.1 g x.2 (.inl (by decide))]

/-- The mortise bents of a delta that are not in service: they enter with the swap (R108). -/
def State.swapBack (s : State) (d : Raising) : List Nat := (List.range 8).filter (fun k => (deltaSect d k).isSome && !s.bentUp k)

/-- The start of G begun: what the loader holds while the bents change. -/
def State.swapBegun (s : State) (d : Raising) : State :=
  s.onFr (fun f => { f with
    switched := true, back := s.swapBack d
    sects := match deltaSect d SB0 with
      | some x => assocPut s.fr.sects SB0 x
      | none => s.fr.sects })

/-- The mortises a delta changes are re-tenoned. -/
def State.swapRetenoned (s : State) (g : Nat) (d : Raising) : State := (s.changedMorts d).foldl (fun s x => s.retenon x.1 g x.2) (s.swapBegun d)

/-- The mortise bents of a delta take their sections: those that come back enter service. -/
def State.swapBents (s : State) (g : Nat) (d : Raising) (back : List Nat) : State :=
  (List.range 8).foldl (fun s k =>
    match deltaSect d k with
    | some x =>
      if back.contains k then (s.configMB k x).bentIn g k
      else { s with banks := updAt s.banks k (fun b => { b with decl := mbBankv x }) }
    | none => s) s

/-- The mortises take their plans from a new SB0. -/
def State.swapPlans (s : State) (d : Raising) (back : List Nat) : State :=
  match deltaSect d SB0 with
  | some x => ((List.range 128).filter (fun m => !back.contains (m / 16))).foldl (fun (s : State) m => s.planSwap m x) s
  | none => s

theorem swapNow_eq {s : State} {d : Raising} (hs : s.fr.switched = false) (hd : s.fr.delta = some d) (g : Nat) :
    s.swapNow g = (((s.swapRetenoned g d).swapBents g d (s.swapBack d)).swapPlans d (s.swapBack d)).onFr (fun f => { f with sects := s.fr.sects }) := by
  unfold State.swapNow
  rw [if_neg (by simp [hs]), hd]
  rfl

theorem mort_swapBents {s z : State} {g : Nat} {d : Raising} {m : Nat} (hup : s.bentUp (m / 16) = true) : (z.swapBents g d (s.swapBack d)).mort m = z.mort m := by
  refine foldl_view (State.mort · m) _ _ _ fun s' k _ => ?_
  split
  · split
    · rename_i hk
      have hne : m / 16 ≠ k := by
        rintro rfl
        simp [State.swapBack, hup] at hk
      rw [mort_bentIn_ne _ _ hne, mort_configMB_ne _ _ hne]
    · rfl
  · rfl

theorem mort_swapPlans (z : State) (d : Raising) (back : List Nat) (m : Nat) : ∃ c, (z.swapPlans d back).mort m = { z.mort m with can := c } := by
  unfold State.swapPlans
  split
  · rename_i x _
    generalize (List.range 128).filter (fun m => !back.contains (m / 16)) = l
    induction l generalizing z with
    | nil => exact ⟨_, rfl⟩
    | cons k l ih =>
      obtain ⟨c, hc⟩ := ih (z.planSwap k x)
      obtain ⟨c', hc'⟩ := mort_planSwap z k m x
      exact ⟨c, by rw [List.foldl_cons, hc, hc']⟩
  · exact ⟨_, rfl⟩

/-- A mortise whose bent is in service is as its own re-tenoning left it, but that a matrix may wait in its CAN tenon. -/
theorem mort_swapNow {s : State} {d : Raising} (hs : s.fr.switched = false) (hd : s.fr.delta = some d) (g : Nat) {m : Nat} (hup : s.bentUp (m / 16) = true) :
    ∃ c, (s.swapNow g).mort m = { (s.swapRetenoned g d).mort m with can := c } := by
  rw [swapNow_eq hs hd, State.onFr_mort]
  obtain ⟨c, hc⟩ := mort_swapPlans ((s.swapRetenoned g d).swapBents g d (s.swapBack d)) d (s.swapBack d) m
  rw [mort_swapBents hup] at hc
  exact ⟨c, hc⟩

/-- A mortise that the delta leaves alone stays as it is where SB0 does. -/
theorem mort_swapNow_other {s : State} {d : Raising} (hs : s.fr.switched = false) (hd : s.fr.delta = some d) (g : Nat) {m : Nat} (hup : s.bentUp (m / 16) = true)
    (hno : deltaSect d SB0 = none) (hm : ((s.changedMorts d).all fun y => y.1 != m) = true) : (s.swapNow g).mort m = s.mort m := by
  have hplan : ∀ z : State, z.swapPlans d (s.swapBack d) = z := fun z => by
    unfold State.swapPlans
    rw [hno]
  rw [swapNow_eq hs hd, State.onFr_mort, hplan, mort_swapBents hup]
  refine (foldl_view (State.mort · m) _ _ _ fun z y hy => mort_retenon_ne z g y.2 ?_).trans rfl
  have hne := List.all_eq_true.mp hm y hy
  rintro rfl
  simp at hne

/-- What the start of G leaves of the loader: the swap under way, and the delta still in hand. -/
def Loader.underSwap (f : Loader) : Bool × Option Nat × Option Raising := (f.switched, f.swapAt, f.delta)

theorem configMB_underSwap (s : State) (k : Nat) (x : Octets) : (s.configMB k x).fr.underSwap = s.fr.underSwap := by
  unfold State.configMB
  exact foldl_view (fun z => z.fr.underSwap) _ _ _ fun z j _ => congrArg Loader.underSwap ((State.configMort_keeps (c := 0x2020) rfl (.refl _ z) _ _).at_ 11 rfl)

theorem configMB_epSpan (s : State) (k : Nat) (x : Octets) : (s.configMB k x).epSpan = s.epSpan :=
  congrArg (fun e : EpochEng => { e with due := [] }) ((State.configMB_keeps (c := 0x6820) rfl (.refl _ s) k x).at_ 10 rfl)

theorem bentIn_underSwap (s : State) (n i : Nat) : (s.bentIn n i).fr.underSwap = s.fr.underSwap := by
  unfold State.bentIn
  extract_lets a b
  have hb : b.fr.underSwap = s.fr.underSwap := rfl
  clear_value b
  split
  · exact (congrArg Loader.underSwap ((State.enterMB_keeps (c := 0x4002420) rfl (.refl _ b) _ _).at_ 11 rfl)).trans hb
  · exact hb

theorem swapBents_loader (z : State) (g : Nat) (d : Raising) (back : List Nat) :
    (z.swapBents g d back).fr.underSwap = z.fr.underSwap ∧ (z.swapBents g d back).epSpan = z.epSpan := by
  constructor
  · refine foldl_view (fun z => z.fr.underSwap) _ _ _ fun x k _ => ?_
    split
    · split
      · exact (bentIn_underSwap _ g k).trans (configMB_underSwap _ _ _)
      · rfl
    · rfl
  · refine foldl_view State.epSpan _ _ _ fun x k _ => ?_
    split
    · split
      · exact (bentIn_epSpan _ g k).trans (configMB_epSpan _ _ _)
      · rfl
    · rfl

theorem retenon_underSwap (s : State) (m g : Nat) (d : Octets) : (s.retenon m g d).fr.underSwap = s.fr.underSwap := by
  unfold State.retenon
  extract_lets A x from_ drain busy s1 s2 s3
  have h2 : s2.fr.underSwap = s.fr.underSwap := rfl
  have h3 : s3.fr.underSwap = s2.fr.underSwap := by
    have hk : Keeps 0x42020 s2 s3 := State.onMort_keeps rfl (State.flushMort_keeps rfl (.refl _ s2) m) _ _
    exact congrArg Loader.underSwap (hk.at_ 11 rfl)
  split
  · exact h2
  · split
    · exact h3.trans h2
    · exact h3.trans h2

theorem swapNow_loader {s : State} {d : Raising} (hs : s.fr.switched = false) (hd : s.fr.delta = some d) (g : Nat) :
    (s.swapNow g).fr.underSwap = (true, s.fr.swapAt, s.fr.delta) ∧ (s.swapNow g).epSpan = s.epSpan := by
  have hplan : ∀ z : State, (z.swapPlans d (s.swapBack d)).fr = z.fr ∧ (z.swapPlans d (s.swapBack d)).ep = z.ep := fun z => by
    have hk : Keeps 0x2020 z (z.swapPlans d (s.swapBack d)) := by
      unfold State.swapPlans
      split
      · exact Keeps.foldl (fun _ _ hz => State.planSwap_keeps rfl hz _ _) _ (.refl _ z)
      · exact .refl _ z
    exact ⟨hk.at_ 11 rfl, hk.at_ 10 rfl⟩
  have hret : (s.swapRetenoned g d).fr.underSwap = (s.swapBegun d).fr.underSwap ∧ (s.swapRetenoned g d).ep = (s.swapBegun d).ep :=
    ⟨foldl_view (fun z => z.fr.underSwap) _ _ _ fun z y _ => retenon_underSwap z y.1 g y.2,
      foldl_view (fun z => z.ep) _ _ _ fun z y _ => (retenon_keeps_refl z y.1 g y.2).at_ 10 rfl⟩
  rw [swapNow_eq hs hd]
  obtain ⟨b1, b2⟩ := swapBents_loader (s.swapRetenoned g d) g d (s.swapBack d)
  obtain ⟨p1, p2⟩ := hplan ((s.swapRetenoned g d).swapBents g d (s.swapBack d))
  refine ⟨?_, ?_⟩
  · exact (congrArg Loader.underSwap p1).trans (b1.trans (hret.1.trans rfl))
  · exact (congrArg (fun e : EpochEng => ({ e with due := [] } : EpochEng)) p2).trans (b2.trans (congrArg (fun e : EpochEng => ({ e with due := [] } : EpochEng)) hret.2))

theorem elen_pos (s : State) : 0 < s.elen := Nat.mul_pos (by decide) (Nat.pow_pos (by decide))

theorem cdiv_eq {a b : Nat} (h : 0 < b) : cdiv a b = (a + b - 1) / b := if_neg (by omega)

end Sys2Proof.Machine
end

section
namespace Sys2Proof.Proofs
open Sys2Proof Sys2Proof.Machine

/-- The start of epoch G re-tenons the changed mortises. -/
theorem after_swap (s : State) (g c : Nat) (d : Raising) (hok : s.ok) (hg : s.fr.swapAt = some g) (hc : s.ep.cur = some c) (hgc : g ≤ c)
    (hs : s.fr.switched = false) (hd : s.fr.delta = some d) : After (.swap g) s fun u =>
      u.fr.switched = true ∧ u.fr.swapAt = some g ∧ u.fr.delta = some d ∧ u.ep = { s.ep with due := u.ep.due } ∧ u.mode = s.mode ∧ u.now = s.now ∧
      (∀ y ∈ s.changedMorts d, (u.mort y.1).newDesc = some y.2 ∧ (u.mort y.1).tenon = (s.mort y.1).tenon ∧
        (u.mort y.1).resume = some (g + ((leAt (s.mort y.1).desc 2 2 + 3000) * 1000 + s.elen - 1) / s.elen) ∧
        ((s.mort y.1).resume = none → s.onWire y.1 = true → (u.mort y.1).st = .draining) ∧
        ((s.mort y.1).resume = none → s.onWire y.1 = false → (u.mort y.1).st = .loading ∧ (u.mort y.1).pins = .pidle)) ∧
      (deltaSect d SB0 = none → ∀ m < 128, s.bentUp (m / 16) = true → ((s.changedMorts d).all fun y => y.1 != m) = true → u.mort m = s.mort m) := by
  obtain ⟨-, -, hl, -, -⟩ := hok
  have e : swap g s = s.swapNow g := if_pos (by simp [hg, hc, hgc])
  have hk : Keeps 0x4846c20 s (s.swapNow g) := State.swapNow_keeps rfl (.refl _ s) g
  obtain ⟨hload, hspan⟩ := swapNow_loader hs hd g
  have hchanged : ∀ y ∈ s.changedMorts d, ((s.swapNow g).mort y.1).newDesc = some y.2 ∧ ((s.swapNow g).mort y.1).tenon = (s.mort y.1).tenon ∧
      ((s.swapNow g).mort y.1).resume = some (g + ((leAt (s.mort y.1).desc 2 2 + 3000) * 1000 + s.elen - 1) / s.elen) ∧
      ((s.mort y.1).resume = none → s.onWire y.1 = true → ((s.swapNow g).mort y.1).st = .draining) ∧
      ((s.mort y.1).resume = none → s.onWire y.1 = false → ((s.swapNow g).mort y.1).st = .loading ∧ ((s.swapNow g).mort y.1).pins = .pidle) := fun y hy => by
    obtain ⟨hm, hup⟩ := mem_changedMorts hy
    obtain ⟨x, hx⟩ := mort_swapNow hs hd g hup
    obtain ⟨v, h1, h2, h3, h4, h5⟩ := foldl_retenon_at (s.swapBegun d) g (s.changedMorts d) (changedMorts_pairwise s d) hy hl
    obtain ⟨r1, r2, r3, r4⟩ := retenon_self v g y.2 h2 hm
    have hfold : (s.swapRetenoned g d).mort y.1 = (v.retenon y.1 g y.2).mort y.1 := h1
    have hres : v.resumeEpoch y.1 g = g + ((leAt (s.mort y.1).desc 2 2 + 3000) * 1000 + s.elen - 1) / s.elen := by
      unfold State.resumeEpoch
      rw [h3, h4, cdiv_eq (elen_pos _)]
      rfl
    rw [hx, hfold]
    refine ⟨r1, r2.trans (by rw [h3]; rfl), r3.trans (by rw [hres]), fun hr hw => ?_, fun hr hw => ?_⟩
    · exact (retenon_drains v g y.2 h2 hm (by rw [h3]; exact hr) (h5.trans hw)).1
    · exact r4 (by rw [h3]; exact hr) (h5.trans hw)
  have hother := fun (hno : deltaSect d SB0 = none) m (_ : m < 128) (hup : s.bentUp (m / 16) = true) (hm : ((s.changedMorts d).all fun y => y.1 != m) = true) =>
    mort_swapNow_other hs hd g hup hno hm
  have hmode : (s.swapNow g).mode = s.mode := hk.at_ 4 rfl
  have hnow : (s.swapNow g).now = s.now := hk.at_ 1 rfl
  generalize s.swapNow g = u at *
  obtain ⟨l1, l2⟩ := Prod.mk.inj hload
  obtain ⟨l2, l3⟩ := Prod.mk.inj l2
  exact after_of rfl e fun b _ => ⟨l1, l2.trans hg, l3.trans hd, epSpan_eq hspan, hmode, hnow, hchanged, hother⟩

/-- Settles O20: swap commands and disarming by the outcome each has, and the start of G by what each mortise's re-tenoning leaves. -/
theorem swaps : Obligations.Swaps := by
  unfold Obligations.Swaps
  refine ⟨after_swapSchedule, fun s c hs => ⟨fun hb hsw => ?_, after_deltaDisarm_switched s c hs, (after_deltaDisarm s c hs).2⟩, after_swap⟩
  exact (after_deltaDisarm s c hs).1 hb hsw

end Sys2Proof.Proofs
end

section
/-! PROOFS. Bank and pin faults, inhibits, host copy, and how a unit begins to drive (R125, R126, R130, R134, R137, R142, R145, R179). -/
set_option Elab.async false
namespace Sys2Proof.Machine
open Sys2Proof

/-! ### Folds over mortises -/

/-- A fold in which each step establishes its own fact and no step undoes another's. -/
theorem foldl_establish {f : State → Nat → State} {P : State → Nat → Prop} (l : List Nat) (hown : ∀ z, ∀ j ∈ l, P (f z j) j) (hkeep : ∀ z, ∀ j ∈ l, ∀ i, P z i → P (f z j) i)
    (s : State) : ∀ j ∈ l, P (l.foldl f s) j := by
  have hall : ∀ (l' : List Nat) z i, l' ⊆ l → P z i → P (l'.foldl f z) i := fun l' => by
    induction l' with
    | nil => exact fun z i _ hz => hz
    | cons x xs ih => exact fun z i hs hz => ih _ i (fun y hy => hs (List.mem_cons_of_mem _ hy)) (hkeep z x (hs List.mem_cons_self) i hz)
  have hmem : ∀ (l' : List Nat) z, l' ⊆ l → ∀ j ∈ l', P (l'.foldl f z) j := fun l' => by
    induction l' with
    | nil => exact fun z _ j hj => absurd hj List.not_mem_nil
    | cons x xs ih =>
      intro z hs j hj
      have hs' : xs ⊆ l := fun y hy => hs (List.mem_cons_of_mem _ hy)
      obtain rfl | hj := List.mem_cons.mp hj
      · exact hall xs _ j hs' (hown z j (hs List.mem_cons_self))
      · exact ih _ hs' j hj
  exact hmem l s fun _ h => h

/-- Epoch `n` is being stamped and has not been processed: its event bits wait for its processing. -/
def State.waitsFor (s : State) (n : Nat) : Prop := s.ep.cur.isSome = true ∧ (∀ x, s.ep.done = some x → x < n) ∧ s.stampEp = n

theorem waitsFor_of {s t : State} {n : Nat} {d : List (Nat × Upd)} (h : s.waitsFor n) (he : t.ep = { s.ep with due := d }) (hn : t.now = s.now)
    (hr : t.rd EP_CTRL = s.rd EP_CTRL) : t.waitsFor n := by
  obtain ⟨h1, h2, h3⟩ := h
  exact ⟨by rw [he]; exact h1, by rw [he]; exact h2, (stampEp_congr (by rw [he]) (by rw [he]) hn hr).trans h3⟩

/-- Event bits of an epoch not yet processed, over a list of units: each waits. -/
theorem foldl_due {f : State → Nat → State} {n k : Nat} {a : Nat → Nat}
    (h : ∀ z j, z.waitsFor n → (f z j).ep = { z.ep with due := z.ep.due ++ [(n, .or (a j) (2 ^ k))] } ∧ (f z j).now = z.now ∧ (f z j).rd EP_CTRL = z.rd EP_CTRL)
    (l : List Nat) {s : State} (hs : s.waitsFor n) :
    (l.foldl f s).waitsFor n ∧ (l.foldl f s).ep = { s.ep with due := s.ep.due ++ l.map fun j => (n, .or (a j) (2 ^ k)) } := by
  induction l generalizing s with
  | nil => exact ⟨hs, by simp⟩
  | cons j l ih =>
    obtain ⟨h1, h2, h3⟩ := h s j hs
    obtain ⟨i1, i2⟩ := ih (waitsFor_of hs h1 h2 h3)
    refine ⟨i1, i2.trans ?_⟩
    rw [h1]
    simp

/-! ### A bank's sensed class -/

/-- A mortise of an isolated bent (R132, R141): nothing waits or is on the wire, and the pins take their idle states. -/
def Mortise.isolated (x : Mortise) : Mortise :=
  { x with
    pins := if x.pins == .tenon then .pidle else x.pins
    can := { x.can with objs := List.replicate 32 {}, wire := none }
    lin := { x.lin with bufs := List.replicate 64 {}, sending := none, hdr := none }
    t1s := { x.t1s with queue := [], burst := 0 } }

/-- The queue of a mortise flushed and counted, with what its tenon held. -/
def State.isoFlushed (s : State) (m : Nat) : State :=
  { (s.flushPort m).2 with fr := { s.fr with isoFlush := s.fr.isoFlush + (s.flushPort m).1 + (s.mort m).unsent } }

/-- One mortise of a bent that is isolated. -/
def State.isolateMort (s : State) (m : Nat) : State := ((s.isoFlushed m).onMort m Mortise.isolated).evtOf (s.isoFlushed m).stampEp (MZ_EVENT m) 5

theorem isolateBent_eq (s : State) {i : Nat} (hi : i < 8) : ∃ z : State, z.mz = s.mz ∧ z.ep = s.ep ∧ z.now = s.now ∧ z.regs = s.regs ∧
    s.isolateBent i = (List.range 16).foldl (fun s j => s.isolateMort (16 * i + j)) z := by
  unfold State.isolateBent
  extract_lets a f b
  rw [if_pos hi]
  exact ⟨b, rfl, rfl, rfl, rfl, congrArg (fun g => (List.range 16).foldl g b) (funext fun z => funext fun j => rfl)⟩

theorem isolateMort_mort (s : State) (m k : Nat) : ((s.isolateMort m).mort m).pins ≠ .tenon ∧ ((s.mort k).pins ≠ .tenon → ((s.isolateMort m).mort k).pins ≠ .tenon) := by
  have hp : ∀ x : Mortise, x.isolated.pins ≠ .tenon := idlePins_not_tenon
  unfold State.isolateMort
  rw [mort_evtOf, mort_evtOf, mort_onMort, mort_onMort]
  constructor
  · split
    · exact hp _
    next hlt =>
      have : (s.isoFlushed m).mort m = default := by
        unfold State.mort nth
        rw [List.getD_eq_getElem?_getD, List.getElem?_eq_none (by simpa using hlt)]
        rfl
      rw [this]
      decide
  · intro hk
    split
    · exact hp _
    · exact hk

theorem isolateMort_due {s : State} {n : Nat} (h : s.waitsFor n) (m : Nat) : (s.isolateMort m).ep = { s.ep with due := s.ep.due ++ [(n, .or (MZ_EVENT m) (2 ^ 5))] } ∧
    (s.isolateMort m).now = s.now ∧ (s.isolateMort m).rd EP_CTRL = s.rd EP_CTRL := by
  have hy : (s.isoFlushed m).waitsFor n := waitsFor_of h (d := s.ep.due) rfl rfl rfl
  obtain ⟨hc, hd, hst⟩ := hy
  unfold State.isolateMort
  rw [hst, evtOf_waits (s := (s.isoFlushed m).onMort m Mortise.isolated) _ _ hc hd]
  exact ⟨rfl, rfl, rfl⟩

theorem isolateBent_mort {s : State} {i n : Nat} (hi : i < 8) (hn : s.waitsFor n) :
    (∀ j < 16, ((s.isolateBent i).mort (16 * i + j)).pins ≠ .tenon) ∧
      (s.isolateBent i).ep = { s.ep with due := s.ep.due ++ (List.range 16).map fun j => (n, .or (MZ_EVENT (16 * i + j)) (2 ^ 5)) } := by
  obtain ⟨z, -, hep, hnow, hreg, he⟩ := isolateBent_eq s hi
  rw [he]
  constructor
  · exact fun j hj => foldl_establish (P := fun z j => (z.mort (16 * i + j)).pins ≠ .tenon) (List.range 16) (fun z j _ => (isolateMort_mort z _ 0).1)
      (fun z j _ k hz => (isolateMort_mort z _ _).2 hz) z j (List.mem_range.mpr hj)
  · have hz : z.waitsFor n := waitsFor_of hn (d := s.ep.due) hep hnow (rd_congr hreg _)
    refine (foldl_due (n := n) (k := 5) (a := fun j => MZ_EVENT (16 * i + j)) (fun z j hz => isolateMort_due hz _) (List.range 16) hz).2.trans ?_
    rw [hep]

/-- An event bit in each of the sixteen pages of a bent, waiting for the processing of epoch `n`. -/
def bentEvents (n k w : Nat) : List (Nat × Upd) := (List.range 16).map fun j => (n, .or (MZ_EVENT (16 * k + j)) w)

theorem mem_bentEvents {n k w j : Nat} (h : j < 16) : (n, Upd.or (MZ_EVENT (16 * k + j)) w) ∈ bentEvents n k w :=
  List.mem_map_of_mem (f := fun j => (n, Upd.or (MZ_EVENT (16 * k + j)) w)) (List.mem_range.mpr h)

theorem f2Hit_some {s : State} {src i : Nat} (h : bentIdx src = some i) : s.f2Hit src = { s with flt := { s.flt with f2At := s.now, f2Iso := [] } }.isolateBent i := by
  simp only [State.f2Hit, h]

/-- A bank in service whose sensed class differs from the declared one isolates its bent. -/
theorem after_bankFault (s : State) (t k cls n : Nat) (hk : k < 8) (hd : s.dieOn = true) (hm : s.mode = .solo) (hup : s.bentUp k = true) (hbl : s.banks.length = 8)
    (hfl : s.fr.bents.length = 13) (hcls : cls % 4 ≠ (nth s.banks k).decl) (hf : s.fld FLT_STATUS 0 5 = 0) (hn : (s.tick t).epochNow = some n)
    (hdone : ∀ x, s.ep.done = some x → x < n) : After (.bankFault t k cls) s fun u =>
      (nth u.banks k).sensed = cls % 4 ∧ (∀ j < 16, (n, Upd.or (MZ_EVENT (16 * k + j)) 8) ∈ u.ep.due ∧ (n, Upd.or (MZ_EVENT (16 * k + j)) 32) ∈ u.ep.due) ∧
      u.bent k = .isolated ∧ (∀ i < 13, i ≠ k → u.bent i = s.bent i) ∧ faultNoted 2 0x21 k 0xFF s u ∧ (∀ j < 16, (u.mort (16 * k + j)).pins ≠ .tenon) ∧
      u.mode = .solo ∧ u.ep = { s.ep with due := u.ep.due } ∧ u.now = max s.now t := by
  obtain ⟨x, hx⟩ : ∃ x, x = (s.tick t).senseBank k cls := ⟨_, rfl⟩
  obtain ⟨hcur, hst⟩ := stamping_of_epochNow hn
  have hxw : x.waitsFor n := by rw [hx]; exact ⟨hcur, hdone, hst⟩
  obtain ⟨z, hz⟩ : ∃ z, z = (List.range 16).foldl (fun s j => s.evtOf s.stampEp (MZ_EVENT (16 * k + j)) 3) x := ⟨_, rfl⟩
  have heq : bankFault t k cls s = z.raiseFault 2 0x21 k 0xFF := by
    have hdecl : (nth ((s.tick t).senseBank k cls).banks k).decl = (nth s.banks k).decl := by
      show (nth (updAt s.banks k _) k).decl = _
      rw [nth_updAt]
      split <;> rfl
    unfold bankFault
    extract_lets y w
    rw [if_neg (by omega), if_neg (by
      rw [show w.dieOn = s.dieOn from rfl, hd, show w.bentUp k = s.bentUp k from rfl, hup, show (nth w.banks k).decl = (nth s.banks k).decl from hdecl]
      simpa using hcls), hz, hx]
  obtain ⟨hzw, hzep⟩ := foldl_due (f := fun s j => s.evtOf s.stampEp (MZ_EVENT (16 * k + j)) 3) (n := n) (k := 3) (a := fun j => MZ_EVENT (16 * k + j)) (fun z j hz => by
    obtain ⟨h1, h2, h3⟩ := hz
    dsimp only
    rw [h3, evtOf_waits _ _ h1 h2]
    exact ⟨rfl, rfl, rfl⟩) (List.range 16) hxw
  rw [← hz] at hzw hzep
  have hzk : Keeps 0x4000420 x z := by rw [hz]; exact Keeps.foldl (fun _ _ h => State.evtOf_keeps rfl h _ _ _) _ (.refl _ x)
  have hzs : SameStamp ((List.range 128).map MZ_EVENT) x z := by
    rw [hz]
    refine SameStamp.foldl _ (fun u j hj => (SameStamp.refl _ u).evtOf (List.mem_map_of_mem (List.mem_range.mpr ?_)) _ _) (.refl _ x)
    have := List.mem_range.mp hj
    omega
  have hzfr : z.fr = s.fr := by rw [show z.fr = x.fr from hzk.at_ 11 rfl, hx]; rfl
  have hzmode : z.mode = .solo := by rw [show z.mode = x.mode from hzk.at_ 4 rfl, hx]; exact hm
  have hzbanks : z.banks = x.banks := hzk.at_ 14 rfl
  clear hz
  have hMZ : ∀ a : Nat, a < 0x100000 → a ∉ (List.range 128).map MZ_EVENT := fun a ha h => by
    obtain ⟨m, -, rfl⟩ := List.mem_map.mp h
    unfold MZ_EVENT at ha
    omega
  have hxr : ∀ a, x.rdN a = s.rdN a := fun a => by rw [hx]; rfl
  have hxf : x.fld FLT_STATUS 0 5 = 0 := by rw [State.fld, hxr]; exact hf
  have hzf : z.fld FLT_STATUS 0 5 = 0 := by
    rw [hzs.same.fld (hMZ _ (by decide)) 0 5, hxf]
  have hbi : bentIdx k = some k := if_pos hk
  have hnote := (raiseFault_noted (s := z) (cls := 2) (cause := 0x21) (src := k) (unit := 0xFF) hzf (by decide) (by decide) (by omega) (by decide)).left (t := s) (by
    rw [hzs.same.rdN (hMZ _ (by decide)), hxr])
  have hbents := bent_of_set (i := k) (bents_raiseFault_f2 (s := z) (cause := 0x21) (unit := 0xFF) hzf hbi) (by rw [hzfr, hfl]; omega)
  have hnow : (z.raiseFault 2 0x21 k 0xFF).now = s.now.max t := by
    rw [(raiseFault_sameStamp (s := z) 0x21 k 0xFF hzf (cls := 2) (by decide)).now, hzs.now, hx]
    rfl
  obtain ⟨v, hv⟩ : ∃ v : State, v = z.noted 2 0x21 k 0xFF z.stampEp z.now := ⟨_, rfl⟩
  obtain ⟨y, hy⟩ : ∃ y : State, y = { v with flt := { v.flt with f2At := v.now, f2Iso := [] } } := ⟨_, rfl⟩
  have hno := noted_only z 2 0x21 k 0xFF z.stampEp z.now
  rw [← hv] at hno
  have hyw : y.waitsFor n := waitsFor_of hzw (d := z.ep.due) (by rw [hy, hno.frame]) (by rw [hy, hno.frame]) (by
    rw [hy]
    exact hno.same EP_CTRL (EP_CTRL_not_faultReg (by decide)))
  have hymode : y.mode = .solo := by rw [hy, hno.frame]; exact hzmode
  have hyep : y.ep = z.ep := by rw [hy, hno.frame]
  have hybanks : y.banks = z.banks := by rw [hy, hno.frame]
  have hres : z.raiseFault 2 0x21 k 0xFF = y.isolateBent k := by
    have hvmode : v.mode = .solo := by rw [hno.frame]; exact hzmode
    have hik : Keeps 0x4043c20 y (y.isolateBent k) := State.isolateBent_keeps rfl (.refl _ y) k
    have himode : (y.isolateBent k).mode = .solo := (show (y.isolateBent k).mode = y.mode from hik.at_ 4 rfl).trans hymode
    have hhit : v.f2Hit k = y.isolateBent k := by rw [f2Hit_some hbi, hy]
    rw [raiseFault_free _ _ _ _ hzf, ← hv, faultResult_f2, hvmode, if_neg (by simp), hhit]
    unfold State.leaveStep
    rw [himode]
    rfl
  obtain ⟨hpins, hdue⟩ := isolateBent_mort hk hyw
  have hik : Keeps 0x4043c20 y (y.isolateBent k) := State.isolateBent_keeps rfl (.refl _ y) k
  have humode : (y.isolateBent k).mode = y.mode := hik.at_ 4 rfl
  have hubanks : (y.isolateBent k).banks = y.banks := hik.at_ 14 rfl
  rw [hres] at heq hnote hbents hnow
  generalize y.isolateBent k = u at *
  have hxep : x.ep = s.ep := by rw [hx]; rfl
  have huep : u.ep = { s.ep with due := s.ep.due ++ bentEvents n k 8 ++ bentEvents n k 32 } := by
    rw [hdue, hyep, hzep, hxep]
    rfl
  have hdues : u.ep.due = s.ep.due ++ bentEvents n k 8 ++ bentEvents n k 32 := by rw [huep]
  refine after_of rfl heq fun b _ => ⟨?_, fun j hj => ?_, hbents.1, fun i _ hne => (hbents.2 i hne).trans ?_, hnote, hpins, humode.trans hymode, ?_, hnow⟩
  · show (nth u.banks k).sensed = _
    rw [hubanks, hybanks, hzbanks, hx]
    show (nth (updAt s.banks k _) k).sensed = _
    rw [nth_updAt, if_pos ⟨rfl, by omega⟩]
  · show _ ∈ u.ep.due ∧ _ ∈ u.ep.due
    rw [hdues]
    exact ⟨List.mem_append_left _ (List.mem_append_right _ (mem_bentEvents hj)), List.mem_append_right _ (mem_bentEvents hj)⟩
  · unfold State.bent
    rw [hzfr]
  · show u.ep = { s.ep with due := u.ep.due }
    rw [hdues]
    exact huep

/-- The supply of an unpowered bank leaves its pins at high impedance. -/
theorem after_bankPowerUp (s : State) (t k cls : Nat) (hk : k < 8) (hbl : s.banks.length = 8) (hl : s.mz.length = 128) (hs : (nth s.banks k).sensed = 2) (hcls : cls % 4 ≠ 2) :
    After (.bankPowerUp t k cls) s fun u =>
      (nth u.banks k).sensed = cls % 4 ∧ (∀ j < 16, (u.mort (16 * k + j)).pins = .highZ) ∧ (∀ m < 128, m / 16 ≠ k → u.mort m = s.mort m) ∧
      u = { s with now := max s.now t, mz := u.mz, banks := u.banks, hb := u.hb } ∧ sameBridge s u := by
  obtain ⟨x, hx⟩ : ∃ x, x = (s.tick t).senseBank k cls := ⟨_, rfl⟩
  have heq : bankPowerUp t k cls s = (List.range 16).foldl (fun s j => s.onMort (16 * k + j) (fun x => { x with pins := .highZ })) x := by
    unfold bankPowerUp
    extract_lets y
    rw [if_neg (by
      rw [show y.banks = s.banks from rfl, hs]
      simpa using ⟨hk, hcls⟩), hx]
  have hxl : x.mz.length = 128 := by rw [hx]; exact hl
  have hsensed : (nth x.banks k).sensed = cls % 4 := by
    rw [hx]
    show (nth (updAt s.banks k _) k).sensed = _
    rw [nth_updAt, if_pos ⟨rfl, by omega⟩]
  have hframe : ∀ (l : List Nat) (z : State), l.foldl (fun s j => s.onMort (16 * k + j) (fun x => { x with pins := .highZ })) z =
      { z with mz := (l.foldl (fun s j => s.onMort (16 * k + j) (fun x => { x with pins := .highZ })) z).mz } := fun l => by
    induction l with
    | nil => exact fun z => rfl
    | cons j l ih => exact fun z => (ih _).trans rfl
  have hpins : ∀ j < 16, (((List.range 16).foldl (fun s j => s.onMort (16 * k + j) (fun x => { x with pins := .highZ })) x).mort (16 * k + j)).pins = .highZ := by
    have hlen : ∀ (l : List Nat) (z : State), z.mz.length = 128 → (l.foldl (fun s j => s.onMort (16 * k + j) (fun x => { x with pins := .highZ })) z).mz.length = 128 := fun l => by
      induction l with
      | nil => exact fun z hz => hz
      | cons j l ih => exact fun z hz => ih _ (by simpa [State.onMort, updAt] using hz)
    have hset : ∀ (l : List Nat) (z : State), z.mz.length = 128 → l ⊆ List.range 16 → ∀ j, (j ∈ l ∨ (z.mort (16 * k + j)).pins = .highZ) →
        ((l.foldl (fun s j => s.onMort (16 * k + j) (fun x => { x with pins := .highZ })) z).mort (16 * k + j)).pins = .highZ := fun l => by
      induction l with
      | nil => exact fun z _ _ j hj => hj.resolve_left List.not_mem_nil
      | cons i l ih =>
        intro z hz hsub j hj
        refine ih _ (by simpa [State.onMort, updAt] using hz) (fun a ha => hsub (List.mem_cons_of_mem _ ha)) j ?_
        have hi := List.mem_range.mp (hsub List.mem_cons_self)
        by_cases hij : j = i
        · subst hij
          right
          rw [mort_onMort_same _ _ (by rw [hz]; omega)]
        · refine (hj.imp (fun h => (List.mem_cons.mp h).resolve_left hij) fun h => ?_)
          rw [mort_onMort_ne _ _ (by omega)]
          exact h
    exact fun j hj => hset _ x hxl (fun _ h => h) j (.inl (List.mem_range.mpr hj))
  have hother : ∀ m < 128, m / 16 ≠ k → ((List.range 16).foldl (fun s j => s.onMort (16 * k + j) (fun x => { x with pins := .highZ })) x).mort m = s.mort m := fun m _ hm =>
    (foldl_view (State.mort · m) _ _ x fun z j hj => mort_onMort_ne z _ (by have := List.mem_range.mp hj; omega)).trans (by rw [hx]; rfl)
  have hfr := hframe (List.range 16) x
  generalize (List.range 16).foldl (fun s j => s.onMort (16 * k + j) (fun x => { x with pins := .highZ })) x = y at *
  obtain ⟨L, hL⟩ : ∃ L, y = { x with mz := L } := ⟨_, hfr⟩
  rw [hL] at heq hpins hother
  subst hx
  exact after_hb rfl heq rfl fun b hb => ⟨hsensed, hpins, hother, rfl, hb⟩

/-- An output pin that does not follow its level is a notice. -/
theorem after_pinFault (s : State) (t m pin : Nat) (hd : s.dieOn = true) (hm : m < 128) (hp : pin < 4) (hdr : s.pinDriven m pin = true) (hf : s.fld FLT_STATUS 0 5 = 0) :
    After (.pinFault t m pin) s fun u =>
      u.bit (MZ_EVENT m) 2 = true ∧ faultNoted 0 0x05 (m / 16) m s u ∧ sameRegs (MZ_EVENT m :: faultRegs 0) s u ∧
      u = { s with now := max s.now t, regs := u.regs, hb := u.hb } := by
  obtain ⟨x, hx⟩ : ∃ x, x = (s.tick t).evt (MZ_EVENT m) 2 := ⟨_, rfl⟩
  have hMZ : ∀ a : Nat, a < 0x100000 → a ≠ MZ_EVENT m := fun a ha => by unfold MZ_EVENT; omega
  have hxo : RegsOnly [MZ_EVENT m] (s.tick t) x := by rw [hx]; exact (RegsOnly.refl _ _).evt (by simp) 2
  have hbit : x.bit (MZ_EVENT m) 2 = true := by rw [hx]; exact bit_evt_same _ _ _ (by decide)
  have hxf : x.fld FLT_STATUS 0 5 = 0 := (hxo.same.fld (by simpa using hMZ FLT_STATUS (by decide)) 0 5).trans hf
  have heq : pinFault t m pin s = x.noted 0 0x05 (m / 16) m x.stampEp x.now := by
    rw [← notice_free 0x05 (m / 16) m hxf, hx]
    unfold pinFault
    exact if_pos (by
      show (s.dieOn && decide (m < 128) && decide (pin < 4) && s.pinDriven m pin) = true
      rw [hd, decide_eq_true hm, decide_eq_true hp, hdr]
      rfl)
  have hn := (noted_now x (cls := 0) (cause := 0x05) (src := m / 16) (unit := m) (by decide) (by decide) (by omega) (by omega)).left
    (t := s) (hxo.same.rdN (by simpa using hMZ (FLT_CNT 0) (by decide))).symm
  have hno := noted_only x 0 0x05 (m / 16) m x.stampEp x.now
  generalize x.noted 0 0x05 (m / 16) m x.stampEp x.now = y at *
  have hmz : MZ_EVENT m ∉ faultRegs 0 := by
    have h : ∀ a ∈ faultRegs 0, a < 0x100000 := by decide
    exact fun hmem => hMZ _ (h _ hmem) rfl
  have hbit' := (hno.same.bit hmz 2).trans hbit
  have hsame : sameRegs (MZ_EVENT m :: faultRegs 0) s y := (hxo.same.mono (by simp) : sameRegs (MZ_EVENT m :: faultRegs 0) s x).trans (hno.same.mono (List.subset_cons_self _ _))
  obtain ⟨R, hR⟩ := hno.regs_eq
  obtain ⟨Q, hQ⟩ := hxo.regs_eq
  rw [hR, hQ] at heq hbit' hsame hn
  exact after_of rfl heq fun b _ => ⟨hbit', hn, hsame, rfl⟩

/-! ### Commands to a mortise -/

/-- A processed inhibit acts on its mortise alone and shows in MZ_CTRL. -/
theorem after_inhibit {i : Instr} {s : State} {m k : Nat} {on : Bool} {f : State → State} (g : Mortise → Mortise) (h : exec i s = .next (s.settle (s.processed false f)))
    (hf : f s = (s.onMort m g).setBit (MZ_CTRL m) k on) (hs : s.takesCommands) (hm : m < 128) (hl : s.mz.length = 128) (hk : k < 32) : After i s fun u =>
      u.mort m = g (s.mort m) ∧ (∀ j < 128, j ≠ m → u.mort j = s.mort j) ∧ u.bit (MZ_CTRL m) k = on ∧
      (∀ j < 32, j ≠ k → u.bit (MZ_CTRL m) j = s.bit (MZ_CTRL m) j) ∧ sameRegs [MZ_CTRL m] s u ∧ u = { s with regs := u.regs, mz := u.mz, hb := u.hb } ∧ sameBridge s u := by
  obtain ⟨hd, ha, hh⟩ := hs
  have hp := (processed_unheld (s := s) (needsEpoch := false) (f := f) hd (fun h => by cases h) (by rw [hf]; exact hh)).trans hf
  have hown := mort_onMort_same s g (hl.symm ▸ hm : m < s.mz.length)
  have hother : ∀ j < 128, j ≠ m → (s.onMort m g).mort j = s.mort j := fun j _ hj => mort_onMort_ne s g hj
  have ho : RegsOnly [MZ_CTRL m] (s.onMort m g) ((s.onMort m g).setBit (MZ_CTRL m) k on) := (RegsOnly.refl _ _).setBit (by simp) k on
  have hb1 : ((s.onMort m g).setBit (MZ_CTRL m) k on).bit (MZ_CTRL m) k = on := (bit_setBit _ _ _ _ _ hk).trans (if_pos rfl)
  have hb2 : ∀ j < 32, j ≠ k → ((s.onMort m g).setBit (MZ_CTRL m) k on).bit (MZ_CTRL m) j = s.bit (MZ_CTRL m) j := fun j hj hne =>
    (bit_setBit _ _ _ _ _ hj).trans ((if_neg hne).trans rfl)
  generalize (s.onMort m g).setBit (MZ_CTRL m) k on = y at *
  have hsame : sameRegs [MZ_CTRL m] s y := ho.same
  obtain ⟨R, hR⟩ := ho.regs_eq
  rw [hR] at hp hb1 hb2 hsame
  exact after_hb h hp rfl fun b hb => ⟨hown, hother, hb1, hb2, hsame, rfl, hb⟩

/-- A processed MZ_HCOPY write sets enable, mode and ring. -/
theorem after_hostCopyControl (s : State) (c m v : Nat) (hs : s.takesCommands) (hm : m < 128) : After (.hostCopyControl c m v) s fun u =>
    u.rdN (MZ_HCOPY m) = v &&& 0xF7 ∧ sameRegs [MZ_HCOPY m] s u ∧ u = { s with regs := u.regs, hb := u.hb } ∧ sameBridge s u := by
  obtain ⟨hd, ha, hh⟩ := hs
  have hf : hostCopyControl m v s = s.wrN (MZ_HCOPY m) (v &&& 0xF7) := if_pos hm
  have hp := (processed_unheld (s := s) (needsEpoch := false) (f := hostCopyControl m v) hd (fun h => by cases h) (by rw [hf]; exact hh)).trans hf
  have ho : RegsOnly [MZ_HCOPY m] s (s.wrN (MZ_HCOPY m) (v &&& 0xF7)) := (RegsOnly.refl _ _).wrN (by simp) _
  have hrd : (s.wrN (MZ_HCOPY m) (v &&& 0xF7)).rdN (MZ_HCOPY m) = v &&& 0xF7 := by
    rw [rdN_wrN_same]
    exact Nat.mod_eq_of_lt (Nat.lt_of_le_of_lt Nat.and_le_right (by decide))
  generalize s.wrN (MZ_HCOPY m) (v &&& 0xF7) = y at *
  have hsame := ho.same
  obtain ⟨R, hR⟩ := ho.regs_eq
  rw [hR] at hp hrd hsame
  exact after_hb rfl hp rfl fun b hb => ⟨hrd, hsame, rfl, hb⟩

/-! ### Beginning to drive -/

theorem mort_canReport (s : State) (m code obj reason idw rowcol k : Nat) : (s.canReport m code obj reason idw rowcol).mort k = s.mort k := by
  have h : Keeps 0x420 s (s.canReport m code obj reason idw rowcol) := State.canReport_keeps rfl (.refl _ s) _ _ _ _ _ _
  exact h.mort_eq rfl k

/-- A change of one mortise's CAN tenon leaves the other mortises, and its pins, as they are. -/
theorem mort_onCan_pins (s : State) (m : Nat) (f : CanSt → CanSt) (k : Nat) : (k ≠ m → (s.onCan m f).mort k = s.mort k) ∧ ((s.onCan m f).mort m).pins = (s.mort m).pins := by
  refine ⟨fun h => mort_onMort_ne s _ h, ?_⟩
  unfold State.onCan
  rw [mort_onMort]
  split <;> rfl

theorem mort_canWait_pins (s : State) (m t k : Nat) : (k ≠ m → (s.canWait m t).mort k = s.mort k) ∧ ((s.canWait m t).mort m).pins = (s.mort m).pins :=
  mort_onCan_pins s m (fun c => { c with waitTil := some (t + cdiv (11 * s.tnPs m) 1000) }) k

/-- Beginning to drive touches the tenon's own state of its mortise, and no other mortise. -/
theorem mort_canBeginDriving (s : State) (m k : Nat) : (k ≠ m → (s.canBeginDriving m).mort k = s.mort k) ∧ ((s.canBeginDriving m).mort m).pins = (s.mort m).pins := by
  unfold State.canBeginDriving
  extract_lets lone fresh x y z
  have hx : (k ≠ m → x.mort k = s.mort k) ∧ (x.mort m).pins = (s.mort m).pins := by
    obtain ⟨h1, h2⟩ := mort_onCan_pins s m (fun c => { c with objs := c.objs.map fresh, wire := none, recov := false, lone := lone }) k
    obtain ⟨h3, h4⟩ := mort_canWait_pins (s.onCan m fun c => { c with objs := c.objs.map fresh, wire := none, recov := false, lone := lone }) m s.now k
    exact ⟨fun h => (h3 h).trans (h1 h), h4.trans h2⟩
  have hz : ∀ k, z.mort k = x.mort k := fun k => by simp only [z, y, State.txWire, State.setFld_mort, State.setBit_mort, State.wrN_mort]
  clear_value z x
  split
  · rw [mort_canReport, mort_canReport, hz, hz]
    exact hx
  · rw [hz, hz]
    exact hx

theorem mort_t1sReport (s : State) (m code reason : Nat) (drive : Bool) (k : Nat) : (s.t1sReport m code reason drive).mort k = s.mort k := by
  have h : Keeps 0x420 s (s.t1sReport m code reason drive) := State.t1sReport_keeps rfl (.refl _ s) _ _ _ _
  exact h.mort_eq rfl k

theorem mort_onT1s_pins (s : State) (m : Nat) (f : T1sSt → T1sSt) (k : Nat) : (k ≠ m → (s.onT1s m f).mort k = s.mort k) ∧ ((s.onT1s m f).mort m).pins = (s.mort m).pins := by
  refine ⟨fun h => mort_onMort_ne s _ h, ?_⟩
  unfold State.onT1s
  rw [mort_onMort]
  split <;> rfl

theorem mort_t1sWithdraw_pins (s : State) (m k : Nat) : (k ≠ m → (s.t1sWithdraw m).mort k = s.mort k) ∧ ((s.t1sWithdraw m).mort m).pins = (s.mort m).pins := by
  unfold State.t1sWithdraw
  extract_lets n x
  have hx : ∀ k, x.mort k = s.mort k := fun k => foldl_view (State.mort · k) _ _ s fun z _ _ => mort_t1sReport z _ _ _ _ k
  clear_value x
  split
  · exact ⟨fun _ => rfl, rfl⟩
  · obtain ⟨h1, h2⟩ := mort_onT1s_pins x m (fun x => { x with burst := 0, queue := x.queue.map (fun q => (q.1, true, q.2.2)) }) k
    exact ⟨fun h => (h1 h).trans (hx k), h2.trans (by rw [hx])⟩

theorem mort_t1sBeginDriving (s : State) (m k : Nat) : (k ≠ m → (s.t1sBeginDriving m).mort k = s.mort k) ∧ ((s.t1sBeginDriving m).mort m).pins = (s.mort m).pins := by
  obtain ⟨h1, h2⟩ := mort_onT1s_pins s m (fun x => { x with attempts := 0, burst := 0, queue := x.queue.map (fun q => (q.1, false, q.2.2)) }) k
  unfold State.t1sBeginDriving
  generalize s.onT1s m _ = x at *
  obtain ⟨h3, h4⟩ := mort_t1sWithdraw_pins x m k
  exact ⟨fun h => (h3 h).trans (h1 h), h4.trans h2⟩

theorem mort_linBeginDriving (s : State) (m k : Nat) : (k ≠ m → (s.linBeginDriving m).mort k = s.mort k) ∧ ((s.linBeginDriving m).mort m).pins = (s.mort m).pins := by
  refine ⟨fun h => mort_onMort_ne s _ h, ?_⟩
  unfold State.linBeginDriving State.onLin
  rw [mort_onMort]
  split <;> rfl

/-- Does the tenon of a mortise take its pins when its unit begins to drive? -/
def State.takesPins (s : State) (m : Nat) : Prop := (s.mort m).st = .inService ∧ (s.mort m).tenon ≠ .idle ∧ s.bentUp (m / 16) = true

theorem beginDrivingMort_other (s : State) {m k : Nat} (h : k ≠ m) : (s.beginDrivingMort m).mort k = s.mort k := by
  unfold State.beginDrivingMort
  split
  · rfl
  · extract_lets x
    have hx : x.mort k = s.mort k := mort_onMort_ne s _ h
    split
    · exact ((mort_canBeginDriving x m k).1 h).trans hx
    · exact ((mort_linBeginDriving x m k).1 h).trans hx
    · exact ((mort_t1sBeginDriving x m k).1 h).trans hx

theorem beginDrivingMort_takes {s : State} {m : Nat} (hl : m < s.mz.length) (h : s.takesPins m) : ((s.beginDrivingMort m).mort m).pins = .tenon := by
  obtain ⟨h1, h2, h3⟩ := h
  unfold State.beginDrivingMort
  rw [if_neg (by rw [h1, h3, beq_false_of_ne h2]; decide)]
  extract_lets x
  have hx : (x.mort m).pins = .tenon := by rw [show x.mort m = _ from mort_onMort_same s _ hl]
  split
  · exact (mort_canBeginDriving x m m).2.trans hx
  · exact (mort_linBeginDriving x m m).2.trans hx
  · exact (mort_t1sBeginDriving x m m).2.trans hx

theorem beginDrivingMort_leaves {s : State} {m : Nat} (h : ¬ s.takesPins m) : s.beginDrivingMort m = s := by
  unfold State.beginDrivingMort
  refine if_pos ?_
  unfold State.takesPins at h
  by_cases h1 : (s.mort m).st = .inService
  · by_cases h2 : (s.mort m).tenon = .idle
    · rw [h2]
      simp
    · have h3 : s.bentUp (m / 16) = false := by simpa using fun h3 => h ⟨h1, h2, h3⟩
      rw [h3]
      simp
  · rw [show ((s.mort m).st != .inService) = true by simpa using h1]
    rfl

/-- Over the mortises in turn, each takes its pins by what it is at first. -/
theorem foldl_beginDrivingMort (l : List Nat) (hn : l.Nodup) (s : State) (hs : s.mz.length = 128) (hl : ∀ m ∈ l, m < 128) (m : Nat) :
    (m ∈ l → s.takesPins m → ((l.foldl State.beginDrivingMort s).mort m).pins = .tenon) ∧ ((m ∉ l ∨ ¬ s.takesPins m) → (l.foldl State.beginDrivingMort s).mort m = s.mort m) := by
  induction l generalizing s with
  | nil => exact ⟨fun h => absurd h List.not_mem_nil, fun _ => rfl⟩
  | cons x l ih =>
    obtain ⟨hx, hn⟩ := List.nodup_cons.mp hn
    have hk : Keeps 0x2420 s (s.beginDrivingMort x) := State.beginDrivingMort_keeps rfl (.refl _ s) x
    have hpins : ∀ k, k ≠ x → ((s.beginDrivingMort x).takesPins k ↔ s.takesPins k) := fun k hne => by
      unfold State.takesPins State.bentUp State.bent
      rw [beginDrivingMort_other s hne, show (s.beginDrivingMort x).fr = s.fr from hk.at_ 11 rfl]
    obtain ⟨i1, i2⟩ := ih hn (s.beginDrivingMort x) (hk.len_mz hs) fun m hm => hl m (List.mem_cons_of_mem _ hm)
    rw [List.foldl_cons]
    by_cases hmx : m = x
    · subst hmx
      refine ⟨fun _ ht => ?_, fun hor => ?_⟩
      · rw [i2 (.inl hx)]
        exact beginDrivingMort_takes (hs.symm ▸ hl m List.mem_cons_self) ht
      · have hno := hor.resolve_left fun h => h List.mem_cons_self
        rw [i2 (.inl hx), beginDrivingMort_leaves hno]
    · refine ⟨fun hmem ht => i1 ((List.mem_cons.mp hmem).resolve_left hmx) ((hpins m hmx).mpr ht), fun hor => ?_⟩
      rw [i2 (hor.imp (fun h hm => h (List.mem_cons_of_mem _ hm)) fun h ht => h ((hpins m hmx).mp ht)), beginDrivingMort_other s hmx]

/-- A unit that may drive and does not yet begins to. -/
theorem after_beginDriving (s : State) (t : Nat) (hd : s.dieOn = true) (hm : s.mayDrive = true) (hdr : s.tw.driving = false) (hl : s.mz.length = 128) :
    After (.beginDriving t) s fun u =>
      u.tw = { s.tw with driving := true } ∧
      (∀ m < 128, (s.mort m).st = .inService → (s.mort m).tenon ≠ .idle → s.bentUp (m / 16) = true → (u.mort m).pins = .tenon) ∧
      (∀ m < 128, ((s.mort m).st ≠ .inService ∨ (s.mort m).tenon = .idle ∨ s.bentUp (m / 16) = false) → u.mort m = s.mort m) ∧
      u.mode = s.mode ∧ u.now = max s.now t := by
  obtain ⟨x, hx⟩ : ∃ x, x = (s.tick t).onTw (fun w => { w with driving := true }) := ⟨_, rfl⟩
  have heq : beginDriving t s = (List.range 128).foldl State.beginDrivingMort x := by
    unfold beginDriving
    extract_lets y
    rw [if_neg (by
      rw [show y.dieOn = s.dieOn from rfl, hd, show y.mayDrive = s.mayDrive from rfl, hm, show y.tw = s.tw from rfl, hdr]
      decide), hx]
  have htw := beginDriving_drives (s := s) t hd hm
  have hmode := beginDriving_mode s t
  have hfold := foldl_beginDrivingMort (List.range 128) List.nodup_range x (by rw [hx]; exact hl) fun m hm => List.mem_range.mp hm
  have hk : Keeps 0x2420 x ((List.range 128).foldl State.beginDrivingMort x) := Keeps.foldl (fun _ _ h => State.beginDrivingMort_keeps rfl h _) _ (.refl _ x)
  have hnow : ((List.range 128).foldl State.beginDrivingMort x).now = max s.now t := (show _ = x.now from hk.at_ 1 rfl).trans (by rw [hx]; rfl)
  have hmort : ∀ m, x.mort m = s.mort m := fun m => by rw [hx]; rfl
  have htakes : ∀ m, x.takesPins m ↔ s.takesPins m := fun m => by rw [hx]; exact Iff.rfl
  rw [heq] at htw hmode
  generalize (List.range 128).foldl State.beginDrivingMort x = u at *
  refine after_of rfl heq fun b _ => ⟨htw, fun m hm h1 h2 h3 => (hfold m).1 (List.mem_range.mpr hm) ((htakes m).mpr ⟨h1, h2, h3⟩), fun m _ h => ?_, hmode, hnow⟩
  refine ((hfold m).2 (.inr fun ht => ?_)).trans (hmort m)
  obtain ⟨h1, h2, h3⟩ := (htakes m).mp ht
  obtain h | h | h := h
  · exact h h1
  · exact h2 h
  · rw [h] at h3
    cases h3

end Sys2Proof.Machine
end

section
namespace Sys2Proof.Proofs
open Sys2Proof Sys2Proof.Machine

/-- Settles O23: bank and pin faults, the commands to a mortise, and the start of driving. -/
theorem mortiseFaultsAndControls : Obligations.MortiseFaultsAndControls := by
  unfold Obligations.MortiseFaultsAndControls
  refine ⟨after_bankFault, after_bankPowerUp, after_pinFault, fun s c m on hs hm hl => ⟨?_, ?_, fun v => after_hostCopyControl s c m v hs hm⟩, after_beginDriving⟩
  · exact after_inhibit (fun x => { x with txinh := on }) rfl (if_pos hm) hs hm hl (by decide)
  · exact after_inhibit (fun x => { x with rxinh := on }) rfl (if_pos hm) hs hm hl (by decide)

end Sys2Proof.Proofs
end

section
/-! PROOFS. The time base: Sync and Announce messages, holdover, loss and the peer delay (R40 to R45, R249, R551). -/
set_option Elab.async false
namespace Sys2Proof.Machine
open Sys2Proof

/-! ### Port roles and messages -/

theorem ptpRole_congr {x y : State} {b : Nat} (hr : y.tbRole = x.tbRole) (hc : y.rd (EB_PTPCFG b) = x.rd (EB_PTPCFG b)) (hg : y.tb.gm = x.tb.gm)
    (hs : y.tb.slvPort = x.tb.slvPort) : y.ptpRole b = x.ptpRole b := by
  rw [State.ptpRole, State.bit, State.fld, State.rdN, hc, hr, hg, hs]
  rfl

/-- Port roles follow EP_TBCFG, the bay's EB_PTPCFG and what the best master clock algorithm has chosen. -/
theorem ptpRole_same {l : List Nat} {x y : State} {b : Nat} (h : sameRegs l x y) (ht : EP_TBCFG ∉ l) (hc : EB_PTPCFG b ∉ l) (hg : y.tb.gm = x.tb.gm)
    (hs : y.tb.slvPort = x.tb.slvPort) : y.ptpRole b = x.ptpRole b :=
  ptpRole_congr (tbRole_congr (h _ ht)) (h _ hc) hg hs

theorem EP_EVENT_not_role (b : Nat) : EP_TBCFG ∉ [EP_EVENT] ∧ EB_PTPCFG b ∉ [EP_EVENT] := by
  refine ⟨by decide, fun h => ?_⟩
  have h := List.mem_singleton.1 h
  unfold EB_PTPCFG EP_EVENT at h
  omega

/-- A message sent is relayed. -/
theorem relayed_ptpSend {s x : State} (kind domain b : Nat) (ho : x.tb.out = s.tb.out) (ha : x.tb.asCapable = s.tb.asCapable) :
    relayed kind b domain s (x.ptpSend kind domain b) := by
  show x.tb.out ++ ((List.range 12).filter (fun k => k != b && x.ptpRole k == 1 && x.tb.asCapable.contains k)).map (fun k => (kind, k, domain)) = _
  rw [ho, ha]
  rfl

/-- It stays so while neither the port roles nor the messages sent change. -/
theorem relayed.right {kind b domain : Nat} {s x y : State} (h : relayed kind b domain s x) (ho : y.tb.out = x.tb.out) (hr : sameRegs [EP_EVENT] x y)
    (hg : y.tb.gm = x.tb.gm) (hs : y.tb.slvPort = x.tb.slvPort) : relayed kind b domain s y := by
  have hrole (k : Nat) : y.ptpRole k = x.ptpRole k := ptpRole_same hr (EP_EVENT_not_role k).1 (EP_EVENT_not_role k).2 hg hs
  unfold relayed at *
  simp only [hrole]
  exact ho.trans h

/-! ### Locking and losing -/

/-- The time base Locked, without the realignment of the first lock. -/
def State.locked (s : State) (gm : Bool) : State :=
  s.onTb fun b => { b with st := .locked, gm := gm, firstLock := true, good := 0, relock := false, lastSync := s.now }

theorem realign_none {s : State} (h : s.ep.cur = none ∨ s.tb.firstLock = true) : s.realign = s := by
  obtain h | h := h <;> simp [State.realign, h]

theorem lockTb_none {s : State} (gm : Bool) (h : s.ep.cur = none ∨ s.tb.firstLock = true) : s.lockTb gm = s.locked gm := by
  rw [State.lockTb, realign_none h]
  rfl

/-- The epoch in progress lengthened at the first lock. -/
def State.realigned (s : State) : State :=
  (s.onEp fun e => { e with stop := cdiv (s.now + s.elen) s.elen * s.elen }).evt EP_EVENT 10

theorem lockTb_first {s : State} {e : Nat} (gm : Bool) (he : s.ep.cur = some e) (hf : s.tb.firstLock = false) : s.lockTb gm = s.realigned.locked gm := by
  have h : s.realign = s.realigned := by simp [State.realign, he, hf, State.realigned]
  rw [State.lockTb, h]
  rfl

/-- The first multiple of E at least E after the lock. -/
theorem realign_stop (n : Nat) {e : Nat} (h : 0 < e) :
    cdiv (n + e) e * e % e = 0 ∧ n + e ≤ cdiv (n + e) e * e ∧ cdiv (n + e) e * e < n + 2 * e := by
  refine ⟨Nat.mul_mod_left .., ?_⟩
  rw [cdiv_eq h]
  have h1 := Nat.div_add_mod (n + e + e - 1) e
  have h2 := Nat.mod_lt (n + e + e - 1) h
  rw [Nat.mul_comm] at h1
  omega

theorem f3Ask_sameRegs (s : State) (lead : Bool) : sameRegs (TW_EVENT :: TW_CNT 3 :: tecRegs) s (s.f3Ask lead) := by
  have hask (t : State) (ht : t.regs = s.regs) :
      sameRegs (TW_EVENT :: TW_CNT 3 :: tecRegs) s (if lead then t.selfFence.onTw (fun w => { w with demote := false }) else t) := by
    split
    · obtain ⟨w, h, -⟩ := selfFence_only t
      generalize t.selfFence = v at h
      exact ((h.same.left rfl).left ht.symm).right rfl
    · exact .of_regs ht
  unfold State.f3Ask
  split
  · exact hask _ rfl
  · exact hask _ rfl
  · exact hask _ rfl
  · exact .of_regs rfl
  · exact .of_regs rfl

theorem bit_loseGuar {s : State} {k : Nat} (e : Nat) (hk : k < 32) (h : s.bit EP_EVENT k = true) : (s.loseGuar e).bit EP_EVENT k = true := by
  unfold State.loseGuar
  split
  · rw [bit_evt _ _ _ _ hk, show State.bit { s with ep := { s.ep with guar := false, lossEp := e } } EP_EVENT k = s.bit EP_EVENT k from rfl, h]
    rfl
  · exact h

/-- An F3 clears no bit of EP_EVENT. -/
theorem bit_raiseFault_f3 {s : State} {k : Nat} (cause src unit : Nat) (hf : s.fld FLT_STATUS 0 5 = 0) (hk : k < 32) (h : s.bit EP_EVENT k = true) :
    (s.raiseFault 3 cause src unit).bit EP_EVENT k = true := by
  have hno : EP_EVENT ∉ TW_EVENT :: TW_CNT 3 :: tecRegs := fun h => by
    simp only [List.mem_cons] at h
    obtain h | h | h := h
    · exact absurd h (by decide)
    · exact absurd h (by decide)
    · have h := tecRegs_above h
      unfold EP_EVENT at h
      omega
  rw [raiseFault_free _ _ _ _ hf, faultResult_f3_eq, (f3Ask_sameRegs _ _).bit hno]
  refine bit_loseGuar _ hk ?_
  rw [(cancelSwap_sameStamp _).same.bit (by decide), (noted_only ..).same.bit (by decide)]
  exact h

/-- A time base that is lost: it is Lost, which is an F3. -/
theorem loseTb_facts {s : State} (h : s.fld FLT_STATUS 0 5 = 0) :
    s.loseTb.tb = { s.tb with st := .lost, gm := false, relock := false } ∧ s.loseTb.bit EP_EVENT 1 = true ∧ faultNoted 3 0x32 0x20 0xFF s s.loseTb ∧
    s.loseTb.now = s.now := by
  obtain ⟨x, hx⟩ : ∃ x, x = (s.onTb fun b => { b with st := .lost, gm := false, relock := false }).evt EP_EVENT 1 := ⟨_, rfl⟩
  have hl : s.loseTb = x.raiseFault 3 0x32 0x20 0xFF := by rw [hx]; rfl
  have hxs : sameRegs [EP_EVENT] s x := by
    rw [hx]
    exact (((RegsOnly.refl [EP_EVENT] _).evt (by simp) 1).same.left rfl)
  have hxf : x.fld FLT_STATUS 0 5 = 0 := by rw [hxs.fld (by decide)]; exact h
  have hk := State.raiseFault_keeps (c := 0x4243c20) rfl (.refl _ x) 3 0x32 0x20 0xFF
  have hss := raiseFault_sameStamp (s := x) (cls := 3) 0x32 0x20 0xFF hxf (by decide)
  have hnote := raiseFault_noted (s := x) (cls := 3) (cause := 0x32) (src := 0x20) (unit := 0xFF) hxf (by decide) (by decide) (by decide) (by decide)
  rw [hl]
  refine ⟨(show (x.raiseFault 3 0x32 0x20 0xFF).tb = x.tb from hk.at_ 9 rfl).trans (by rw [hx]; rfl), ?_, hnote.left (hxs.rdN (by decide)).symm, ?_⟩
  · refine bit_raiseFault_f3 _ _ _ hxf (by decide) ?_
    rw [hx]
    exact bit_evt_same _ _ _ (by decide)
  · exact hss.now.trans (by rw [hx]; rfl)

/-! ### The servo -/

/-- A count of Sync messages that does not reach four is kept. -/
theorem servo_counts {s : State} {o : Int} {n : Nat} (hst : s.tb.st = .unsync ∨ s.tb.st = .holdover ∧ s.tb.relock = true)
    (hn : n = if (o - s.slewLeft).natAbs < 100 then s.tb.good + 1 else 0) (h : n < 4) : s.servo o = s.onTb fun b => { b with good := n } := by
  unfold State.servo
  rw [← hn]
  obtain h1 | ⟨h1, h2⟩ := hst
  · simp only [h1]
    exact if_neg (by omega)
  · simp only [h1]
    rw [if_pos h2]
    exact if_neg (by omega)

/-- The fourth in a row locks the time base. -/
theorem servo_locks {s : State} {o : Int} (hst : s.tb.st = .unsync ∨ s.tb.st = .holdover ∧ s.tb.relock = true) (ho : (o - s.slewLeft).natAbs < 100)
    (h : 3 ≤ s.tb.good) : s.servo o = s.lockTb false := by
  unfold State.servo
  rw [if_pos ho]
  obtain h1 | ⟨h1, h2⟩ := hst
  · simp only [h1]
    exact if_pos (by omega)
  · simp only [h1]
    rw [if_pos h2]
    exact if_pos (by omega)

/-- While Locked the servo takes a rate of at most 200 ppm. -/
theorem servo_locked {s : State} (o : Int) (hst : s.tb.st = .locked) :
    ∃ r : Int, -200000 ≤ r ∧ r ≤ 200000 ∧ s.servo o = { s with free := s.free + 1, tb := { s.tb with rate := r } } := by
  refine ⟨(((s.fresh 32).1 % 400001 : Nat) : Int) - 200000, ?_, ?_, ?_⟩
  · have h := Nat.mod_lt (s.fresh 32).1 (show 0 < 400001 by decide)
    omega
  · have h := Nat.mod_lt (s.fresh 32).1 (show 0 < 400001 by decide)
    omega
  · have h : s.servo o = s.servoRate := by
      unfold State.servo
      simp only [hst]
    rw [h]
    rfl

/-- The first valid Sync message in Holdover, within STEPLIM, is the re-lock. -/
theorem servo_relocks {s : State} {o : Int} (hst : s.tb.st = .holdover) (hr : s.tb.relock = false) (h : o.natAbs ≤ max 1 (s.fld EP_HOLD 16 16) * 1000) :
    s.servo o = (s.onTb fun b => { b with relock := true, good := 1, slew := o, slewAt := s.now }).evt EP_EVENT 2 := by
  unfold State.servo
  simp only [hst, hr]
  exact if_pos h

/-- A greater offset loses the time base. -/
theorem servo_loses {s : State} {o : Int} (hst : s.tb.st = .holdover) (hr : s.tb.relock = false) (h : max 1 (s.fld EP_HOLD 16 16) * 1000 < o.natAbs) :
    s.servo o = s.loseTb := by
  unfold State.servo
  simp only [hst, hr]
  exact if_neg (Nat.not_le.mpr h)

/-! ### Sync messages -/

/-- The unit with a valid Sync message of its slave port taken and relayed, before the servo acts. -/
def State.syncTaken (s : State) (t b domain : Nat) : State :=
  ((s.tick t).onTb fun x => { x with lastSync := (s.tick t).now, slvPort := b }).ptpSend 0 domain b

theorem slaveBay_role {s : State} {b : Nat} (h : s.slaveBay b = true) : s.tbRole ≠ 2 ∧ s.ptpRole b ≠ 3 := by
  unfold State.slaveBay at h
  rw [Bool.and_eq_true, Bool.and_eq_true, decide_eq_true_eq] at h
  obtain ⟨⟨hb, hc⟩, hr⟩ := h
  refine ⟨fun h2 => by rw [h2] at hr; exact Bool.false_ne_true hr, fun h3 => ?_⟩
  rw [State.ptpRole, if_neg (by rw [hc]; simp; omega)] at h3
  split at h3
  · exact absurd h3 (by decide)
  · next hrole =>
    simp [hrole, h3] at hr
  · split at h3 <;> exact absurd h3 (by decide)

/-- A valid Sync message is relayed and moves the servo by the offset that RXLAT has corrected. -/
theorem gptpSyncReceived_eq {s : State} {b domain : Nat} (t : Nat) (o : Int) (hd : s.dieOn = true) (hdom : domain = s.fld EP_TBCFG 0 8) (hg : s.tb.gm = false)
    (hb : s.slaveBay b = true) : s.gptpSyncReceived t b domain (o + s.fld (EB_PTPLAT b) 0 16) = (s.syncTaken t b domain).servo o := by
  obtain ⟨h2, h3⟩ := slaveBay_role hb
  unfold State.gptpSyncReceived
  extract_lets x y
  rw [if_neg (by
    rw [show x.dieOn = s.dieOn from rfl, show x.tbRole = s.tbRole from rfl, show x.ptpRole b = s.ptpRole b from rfl, hd]
    simp [h2, h3]), if_neg (by rw [show x.fld EP_TBCFG 0 8 = s.fld EP_TBCFG 0 8 from rfl, hdom]; simp),
    if_neg (by rw [show x.tb = s.tb from rfl, show x.slaveBay b = s.slaveBay b from rfl, hg, hb]; decide)]
  show y.servo (o + ↑(s.fld (EB_PTPLAT b) 0 16) - ↑(s.fld (EB_PTPLAT b) 0 16)) = _
  rw [show o + ↑(s.fld (EB_PTPLAT b) 0 16) - ↑(s.fld (EB_PTPLAT b) 0 16) = o by omega]
  rfl

theorem syncTaken_frame (s : State) (t b domain : Nat) : s.syncTaken t b domain =
    { s with
      now := max s.now t
      tb := { s.tb with lastSync := max s.now t, slvPort := b, out := (s.syncTaken t b domain).tb.out } } := rfl

theorem syncTaken_relayed (s : State) (t b domain : Nat) : relayed 0 b domain s (s.syncTaken t b domain) := relayed_ptpSend _ _ _ rfl rfl

end Sys2Proof.Machine
end

section
namespace Sys2Proof.Proofs
open Sys2Proof Sys2Proof.Machine

/-- A valid Sync message that only counts, with the count `n` it leaves. -/
theorem after_syncCounted {s : State} {b domain n : Nat} (t : Nat) {o : Int} (hd : s.dieOn = true) (hdom : domain = s.fld EP_TBCFG 0 8) (hg : s.tb.gm = false)
    (hb : s.slaveBay b = true) (hst : s.tb.st = .unsync ∨ (s.tb.st = .holdover ∧ s.tb.relock = true))
    (hn : n = if (o - (s.tick t).slewLeft).natAbs < 100 then s.tb.good + 1 else 0) (h4 : n < 4) :
    After (.gptpSyncReceived t b domain (o + s.fld (EB_PTPLAT b) 0 16)) s fun u =>
      u.tb = { s.tb with lastSync := max s.now t, slvPort := b, out := u.tb.out, good := n } ∧ relayed 0 b domain s u ∧
      u = { s with now := max s.now t, tb := u.tb, hb := u.hb } ∧ sameBridge s u := by
  have heq := (gptpSyncReceived_eq t o hd hdom hg hb).trans (servo_counts (s := s.syncTaken t b domain) hst hn h4)
  refine after_hb rfl heq rfl fun h hh => ⟨rfl, ?_, rfl, hh⟩
  exact (syncTaken_relayed s t b domain).right rfl (sameRegs.of_regs rfl) rfl rfl

/-- The Sync message that locks a time base Locked before, or with no epoch in progress. -/
theorem after_syncLocks {s : State} {b domain : Nat} (t : Nat) {o : Int} (hd : s.dieOn = true) (hdom : domain = s.fld EP_TBCFG 0 8) (hg : s.tb.gm = false)
    (hb : s.slaveBay b = true) (hst : s.tb.st = .unsync ∨ (s.tb.st = .holdover ∧ s.tb.relock = true)) (ho : (o - (s.tick t).slewLeft).natAbs < 100)
    (h3 : 3 ≤ s.tb.good) (hf : s.ep.cur = none ∨ s.tb.firstLock = true) :
    After (.gptpSyncReceived t b domain (o + s.fld (EB_PTPLAT b) 0 16)) s fun u =>
      u.tb = { s.tb with lastSync := max s.now t, slvPort := b, out := u.tb.out, good := 0, relock := false, st := .locked, gm := false, firstLock := true } ∧
      relayed 0 b domain s u ∧ u = { s with now := max s.now t, tb := u.tb, hb := u.hb } ∧ sameBridge s u := by
  have heq := ((gptpSyncReceived_eq t o hd hdom hg hb).trans (servo_locks (s := s.syncTaken t b domain) hst ho h3)).trans (lockTb_none false hf)
  refine after_hb rfl heq rfl fun h hh => ⟨rfl, ?_, rfl, hh⟩
  exact (syncTaken_relayed s t b domain).right rfl (sameRegs.of_regs rfl) hg.symm rfl

/-- The first lock in service realigns the epoch in progress. -/
theorem after_syncRealigns {s : State} {b domain e : Nat} (t : Nat) {o : Int} (hd : s.dieOn = true) (hdom : domain = s.fld EP_TBCFG 0 8) (hg : s.tb.gm = false)
    (hb : s.slaveBay b = true) (hst : s.tb.st = .unsync) (ho : (o - (s.tick t).slewLeft).natAbs < 100) (h3 : 3 ≤ s.tb.good) (he : s.ep.cur = some e)
    (hf : s.tb.firstLock = false) :
    After (.gptpSyncReceived t b domain (o + s.fld (EB_PTPLAT b) 0 16)) s fun u =>
      u.ep = { s.ep with stop := u.ep.stop } ∧ u.ep.stop % s.elen = 0 ∧ max s.now t + s.elen ≤ u.ep.stop ∧ u.ep.stop < max s.now t + 2 * s.elen ∧
      u.tb.st = .locked ∧ u.tb.firstLock = true ∧ u.bit EP_EVENT 10 = true ∧ sameRegs [EP_EVENT] s u ∧
      u = { s with now := max s.now t, regs := u.regs, ep := u.ep, tb := u.tb, hb := u.hb } := by
  have heq := ((gptpSyncReceived_eq t o hd hdom hg hb).trans (servo_locks (s := s.syncTaken t b domain) (.inl hst) ho h3)).trans (lockTb_first false he hf)
  obtain ⟨h1, h2, h4⟩ := realign_stop (max s.now t) (elen_pos s)
  obtain ⟨y, hy⟩ : ∃ y, y = (s.syncTaken t b domain).onEp fun e => { e with stop := cdiv (max s.now t + s.elen) s.elen * s.elen } := ⟨_, rfl⟩
  have ho := (RegsOnly.refl [EP_EVENT] y).evt (a := EP_EVENT) (by simp) 10
  obtain ⟨R, hR⟩ := ho.regs_eq
  have hbit : (y.evt EP_EVENT 10).bit EP_EVENT 10 = true := bit_evt_same _ _ _ (by decide)
  have hsame := ho.same
  have hre : (s.syncTaken t b domain).realigned = y.evt EP_EVENT 10 := by rw [hy]; rfl
  rw [hre, hR] at heq
  rw [hR] at hbit hsame
  subst hy
  exact after_of rfl heq fun h _ => ⟨rfl, h1, h2, h4, rfl, rfl, hbit, (hsame.left rfl).right rfl, rfl⟩

/-- Settles O24: a valid Sync message of the slave port is relayed, and the servo counts, locks, realigns, corrects, re-locks or loses by the state it finds. -/
theorem timeBaseSync : Obligations.TimeBaseSync := by
  unfold Obligations.TimeBaseSync
  refine ⟨fun s t b domain o hd hdom hg hb => ⟨fun hst => ⟨fun ho h3 => ?_, fun ho => ?_, fun ho h3 hf => after_syncLocks t hd hdom hg hb hst ho h3 hf⟩, fun hst => ?_,
    fun hst hr ho => ?_, fun hst hr ho hf => ?_⟩, fun s t b domain e o hd hdom hg hb hst ho h3 he hf => after_syncRealigns t hd hdom hg hb hst ho h3 he hf⟩
  · exact after_syncCounted t hd hdom hg hb hst (by rw [if_pos ho]) (by omega)
  · exact after_syncCounted t hd hdom hg hb hst (by rw [if_neg (by omega)]) (by decide)
  · obtain ⟨r, h1, h2, hr⟩ := servo_locked (s := s.syncTaken t b domain) o hst
    refine after_hb rfl ((gptpSyncReceived_eq t o hd hdom hg hb).trans hr) rfl fun h hh => ⟨rfl, h1, h2, ?_, rfl, hh⟩
    exact (syncTaken_relayed s t b domain).right rfl (sameRegs.of_regs rfl) rfl rfl
  · have heq := (gptpSyncReceived_eq t o hd hdom hg hb).trans (servo_relocks (s := s.syncTaken t b domain) hst hr ho)
    obtain ⟨y, hy⟩ : ∃ y, y = (s.syncTaken t b domain).onTb fun b => { b with relock := true, good := 1, slew := o, slewAt := max s.now t } := ⟨_, rfl⟩
    have hyo := (RegsOnly.refl [EP_EVENT] y).evt (a := EP_EVENT) (by simp) 2
    obtain ⟨R, hR⟩ := hyo.regs_eq
    have hbit : (y.evt EP_EVENT 2).bit EP_EVENT 2 = true := bit_evt_same _ _ _ (by decide)
    have hsame := hyo.same
    replace heq : s.gptpSyncReceived t b domain (o + s.fld (EB_PTPLAT b) 0 16) = y.evt EP_EVENT 2 := by rw [heq, hy]; rfl
    rw [hR] at heq hbit hsame
    subst hy
    refine after_of rfl heq fun h _ => ⟨rfl, ?_, hbit, (hsame.left rfl).right rfl, rfl⟩
    exact (syncTaken_relayed s t b domain).right rfl ((hsame.left rfl).right rfl) rfl rfl
  · have heq := (gptpSyncReceived_eq t o hd hdom hg hb).trans (servo_loses (s := s.syncTaken t b domain) hst hr ho)
    obtain ⟨h1, h2, h3, h4⟩ := loseTb_facts (s := s.syncTaken t b domain) hf
    refine after_of rfl heq fun h _ => ⟨(congrArg (·.st) h1).trans rfl, h2, h3.left (t := s) rfl, h4⟩

/-- A peer delay measurement. -/
theorem after_pdelay (s : State) (t b delay d : Nat) (hd : s.dieOn = true) (hr : s.ptpRole b ≠ 3)
    (hdd : d = delay - (s.fld (EB_PTPLAT b) 0 16 + s.fld (EB_PTPLAT b) 16 16) / 2) : After (.pdelayExchange t b delay) s fun u =>
      u.rdN (EB_PTPDLY b) = d % 2 ^ 32 ∧ u.bit (EB_STATUS b) 19 = decide (d ≤ s.fld (EB_PTPCFG b) 16 16) ∧
      u.tb.asCapable.contains b = decide (d ≤ s.fld (EB_PTPCFG b) 16 16) ∧
      u.tb.annBy = (if d ≤ s.fld (EB_PTPCFG b) 16 16 ∧ s.tb.annBy = none ∧ s.tb.best = none ∧ s.tb.gm = false then some (t + 3000000000) else s.tb.annBy) ∧
      u.tb = { s.tb with asCapable := u.tb.asCapable, annBy := u.tb.annBy, out := s.tb.out ++ [(0x2, b, 0)] } ∧
      sameRegs [EB_PTPDLY b, EB_STATUS b] s u ∧ u = { s with now := max s.now t, regs := u.regs, tb := u.tb, hb := u.hb } := by
  obtain ⟨k, hk⟩ : ∃ k, k = decide (d ≤ s.fld (EB_PTPCFG b) 16 16) := ⟨_, rfl⟩
  obtain ⟨y, hy⟩ : ∃ y, y = ((s.tick t).wrN (EB_PTPDLY b) d).setBit (EB_STATUS b) 19 k := ⟨_, rfl⟩
  have ho : RegsOnly [EB_PTPDLY b, EB_STATUS b] (s.tick t) y := by
    rw [hy]
    exact ((RegsOnly.refl _ (s.tick t)).wrN (by simp) _).setBit (by simp) _ _
  have hne : EB_PTPDLY b ≠ EB_STATUS b := by unfold EB_PTPDLY EB_STATUS; omega
  have h1 : y.rdN (EB_PTPDLY b) = d % 2 ^ 32 := by rw [hy, rdN_setBit_ne _ _ _ _ _ hne, rdN_wrN_same]
  have h2 : y.bit (EB_STATUS b) 19 = k := by rw [hy, bit_setBit _ _ _ _ _ (by decide), if_pos rfl]
  have heq : s.pdelayExchange t b delay = y.onTb fun x => { x with
      asCapable := if k then (if x.asCapable.contains b then x.asCapable else x.asCapable ++ [b]) else x.asCapable.filter (· != b)
      annBy := if k && x.annBy.isNone && x.best.isNone && !x.gm then some (t + 3000000000) else x.annBy
      out := x.out ++ [(0x2, b, 0)] } := by
    unfold State.pdelayExchange
    extract_lets x d' ok z
    rw [if_neg (by rw [show x.dieOn = s.dieOn from rfl, show x.ptpRole b = s.ptpRole b from rfl, hd]; simp [hr])]
    have hok : ok = k := by rw [hk, hdd]; rfl
    rw [hy, show z = ((s.tick t).wrN (EB_PTPDLY b) d').setBit (EB_STATUS b) 19 ok from rfl, hok, show d' = d from hdd.symm]
  have hsame := ho.same
  obtain ⟨R, hR⟩ := ho.regs_eq
  rw [hR] at heq h1 h2 hsame
  rw [← hk]
  refine after_of rfl heq fun h _ => ⟨h1, h2, ?_, ?_, rfl, (hsame.left rfl).right rfl, rfl⟩
  · show (if k then (if s.tb.asCapable.contains b then s.tb.asCapable else s.tb.asCapable ++ [b]) else s.tb.asCapable.filter (· != b)).contains b = k
    cases k with
    | true =>
      rw [if_pos rfl]
      split
      · assumption
      · simp
    | false => simp
  · show (if k && s.tb.annBy.isNone && s.tb.best.isNone && !s.tb.gm then some (t + 3000000000) else s.tb.annBy) = _
    refine if_congr ?_ rfl rfl
    rw [hk]
    simp [and_assoc]

/-- The announce receipt time ends at a grandmaster-capable unit. -/
theorem after_announceTimeout (s : State) (t x : Nat) (hd : s.dieOn = true) (ha : s.tb.annBy = some x) (hx : x ≤ t) (hr : s.tbRole = 1) (hg : s.tb.gm = false)
    (hst : s.tb.st ≠ .lost) (hf : s.ep.cur = none ∨ s.tb.firstLock = true) : After (.announceTimeout t) s fun u =>
      u.tb = { s.tb with
        best := none, annBy := none, st := .locked, gm := true, firstLock := true, good := 0, relock := false, lastSync := max s.now t, slvPort := 0xFF,
        out := u.tb.out } ∧ relayed 0xB 0xFF (s.fld EP_TBCFG 0 8) s u ∧ u = { s with now := max s.now t, tb := u.tb, hb := u.hb } ∧ sameBridge s u := by
  have heq : s.announceTimeout t =
      ((((s.tick t).onTb fun x => { x with best := none, annBy := none }).locked true).onTb fun x => { x with slvPort := 0xFF }).ptpSend 0xB (s.fld EP_TBCFG 0 8)
        0xFF := by
    unfold State.announceTimeout
    extract_lets v
    simp only [show v.tb = s.tb from rfl, ha]
    rw [if_neg (by rw [show v.dieOn = s.dieOn from rfl, hd]; simp; omega)]
    rename_i w
    rw [if_pos (by
      show (s.tbRole == 1 && !s.tb.gm && s.tb.st != .lost) = true
      rw [hr, hg]; simpa using hst), lockTb_none (s := w) true hf] <;> rfl
  exact after_hb rfl heq rfl fun h hh => ⟨rfl, relayed_ptpSend _ _ _ rfl rfl, rfl, hh⟩

/-- An Announce message of a clock that wins. -/
theorem after_announce (s : State) (t b domain : Nat) (vec : List Nat) (hd : s.dieOn = true) (hb : b < 12) (hc : s.bit (EB_PTPCFG b) 0 = true)
    (hdom : domain = s.fld EP_TBCFG 0 8) (hr : s.tbRole = 0 ∨ (s.tbRole = 1 ∧ betterClock vec s.ownVec = true))
    (hbest : ∀ x, s.tb.best = some x → x.1 = b ∨ betterClock vec x.2 = true) : After (.announceReceived t b domain vec) s fun u =>
      u.tb = { s.tb with
        best := some (b, vec), annBy := some (t + 3000000000), gm := false, slvPort := b,
        lastSync := if s.tb.gm then max s.now t else s.tb.lastSync, out := u.tb.out } ∧
      relayed 0xB b domain s u ∧ u = { s with now := max s.now t, tb := u.tb, hb := u.hb } ∧ sameBridge s u := by
  have heq : s.announceReceived t b domain vec = ((s.tick t).onTb fun x => { x with
      best := some (b, vec), annBy := some (t + 3000000000), gm := false, slvPort := b, lastSync := if x.gm then (s.tick t).now else x.lastSync }).ptpSend
        0xB domain b := by
    unfold State.announceReceived
    extract_lets v wins
    have hr2 : s.tbRole < 2 := by omega
    have hw : wins = true := by
      show ((s.tbRole == 0 || betterClock vec s.ownVec) && s.tb.best.all (fun x => x.1 == b || betterClock vec x.2)) = true
      rw [Bool.and_eq_true]
      refine ⟨?_, ?_⟩
      · obtain h | ⟨-, h⟩ := hr <;> simp [h]
      · cases hs : s.tb.best with
        | none => rfl
        | some x => simpa using hbest x hs
    rw [if_neg (by
      show ¬(!s.dieOn || decide (12 ≤ b) || !s.bit (EB_PTPCFG b) 0 || domain != s.fld EP_TBCFG 0 8 || decide (2 ≤ s.tbRole)) = true
      rw [hd, hc, hdom]; simp; omega), if_pos hw]
  exact after_hb rfl heq rfl fun h hh => ⟨rfl, relayed_ptpSend _ _ _ rfl rfl, rfl, hh⟩

/-- Settles O25: the silence of a sync port, the end of holdover and of the announce receipt time, and the messages that choose a master and measure a link. -/
theorem holdoverLossAndMasters : Obligations.HoldoverLossAndMasters := by
  unfold Obligations.HoldoverLossAndMasters
  refine ⟨fun s t hd hst hg ht => ?_, fun s t hd hst ht hf => ?_, after_announceTimeout, after_announce, after_pdelay⟩
  · obtain ⟨y, hy⟩ : ∃ y, y = (s.tick t).onTb fun x => { x with st := .holdover, good := 0, relock := false, holdAt := t } := ⟨_, rfl⟩
    have heq : s.tbHoldover t = y.evt EP_EVENT 0 := by
      unfold State.tbHoldover
      extract_lets v
      rw [if_neg (by
        show ¬(!s.dieOn || s.tb.gm || decide (t < s.tb.lastSync + 3 * s.syncNs)) = true
        rw [hd, hg]; simp; omega)]
      simp only [show v.tb = s.tb from rfl, hst]
      rw [hy]
    have hyo := (RegsOnly.refl [EP_EVENT] y).evt (a := EP_EVENT) (by simp) 0
    obtain ⟨R, hR⟩ := hyo.regs_eq
    have hbit : (y.evt EP_EVENT 0).bit EP_EVENT 0 = true := bit_evt_same _ _ _ (by decide)
    have hsame := hyo.same
    rw [hR] at heq hbit hsame
    subst hy
    exact after_of rfl heq fun h _ => ⟨rfl, hbit, (hsame.left rfl).right rfl, rfl⟩
  · have heq : s.tbLost t = (s.tick t).loseTb := if_pos (by
      show (s.dieOn && s.tb.st == .holdover && decide (s.tb.holdAt + max 10 (s.fld EP_HOLD 0 16) * 1000000 < t)) = true
      rw [hd, hst]; simpa using ht)
    obtain ⟨h1, h2, h3, h4⟩ := loseTb_facts (s := s.tick t) hf
    exact after_of rfl heq fun h _ => ⟨h1.trans rfl, h2, h3.left (t := s) rfl, h4⟩

end Sys2Proof.Proofs
end

section
/-! PROOFS. Records, matching and fills of the twins (R60 to R67). -/
set_option Elab.async false
namespace Sys2Proof.Machine
open Sys2Proof

/-- Counting records stamped too far apart changes of the epoch engine only the one-sided records seen (R70). -/
theorem skewMisses_ep (s : State) (n : Nat) (own peer : List PeerRec) : ∃ l, (s.skewMisses n own peer).ep = { s.ep with seen := l } := by
  have key (l : List PeerRec) (f : State → PeerRec → State) (hf : ∀ t r, ∃ l, (f t r).ep = { t.ep with seen := l }) :
      ∀ t : State, ∃ k, (l.foldl f t).ep = { t.ep with seen := k } := by
    induction l with
    | nil => exact fun t => ⟨t.ep.seen, rfl⟩
    | cons r rs ih =>
      intro t
      obtain ⟨k, hk⟩ := hf t r
      obtain ⟨k', hk'⟩ := ih (f t r)
      exact ⟨k', by rw [List.foldl_cons, hk', hk]⟩
  refine key _ _ (fun t r => ?_) s
  dsimp only
  split
  · exact ⟨_, rfl⟩
  · exact ⟨_, rfl⟩

theorem sameInput_comm (a b : PeerRec) : sameInput a b = sameInput b a := by
  have h : sameInput a b = true ↔ sameInput b a = true := by
    simp only [sameInput, Bool.and_eq_true, Bool.or_eq_true, beq_iff_eq]
    constructor <;> · rintro ⟨⟨⟨h1, h2⟩, h3⟩, h4⟩; exact ⟨⟨⟨h1.symm, h2.symm⟩, h3.symm⟩, by omega⟩
  exact Bool.eq_iff_iff.2 h

/-- Two records that may match are the one pair, on either twin. -/
theorem matchRecs_one {n : Nat} {a b : PeerRec} (h : sameInput a b = true) (he : a.stamp = n ∨ b.stamp = n) : matchRecs n [a] [b] = [(a, b)] := by
  have hf : [b].find? (fun b => sameInput a b && (a.stamp == n || b.stamp == n)) = some b := by
    rw [List.find?_cons_of_pos]
    rw [h]
    simpa using he
  rw [matchRecs, hf]
  simp [matchRecs]

/-- The machine with the matching of an epoch decided, once its records and the peer's are at hand (R61 to R63). -/
def State.matchFound (s : State) (n : Nat) (inputs : List Input) (recs : List PeerRec) : State :=
  let s := s.onEp (fun e => { e with inputs := inputs, peer := recs })
  let alone := s.ep.inputs.filter (fun i => !i.matched && i.stamp == n)
  let s := (s.onEp (fun e => { e with fillsOut := e.fillsOut ++ alone })).inc (EP_CNT 3) alone.length
  s.skewMisses n ((alone.map inRec).filter (fun r => r.cls == 1 || r.cls == 2)) (s.ep.peer.filter (fun r => !r.matched && r.stamp == n && (r.cls == 1 || r.cls == 2)))

/-- The records not yet matched that an epoch's matching looks at. -/
def openRecs (n : Nat) (l : List PeerRec) : List PeerRec := l.filter (fun r => !r.matched && (r.stamp == n || r.stamp == n + 1))

/-- The pairs that the matching of an epoch finds, own record first. -/
def State.matchPairs (s : State) (n : Nat) : List (PeerRec × PeerRec) :=
  let own := openRecs n ((s.ep.inputs.filter (fun i => !i.matched)).map inRec)
  if s.pid == 0 then matchRecs n own (openRecs n s.ep.peer) else (matchRecs n (openRecs n s.ep.peer) own).map (fun p => (p.2, p.1))

/-- The matching of an epoch whose records have arrived on both sides. -/
theorem matchingDecided_eq {s : State} {t n c : Nat} (hsv : s.serving = true) (hp : s.paired = true) (hs : s.ep.sent.contains n = true)
    (hd : s.ep.decided.contains n = false) (hc : s.ep.cur = some c) (hn : n + 1 < c) (ht : s.epochEnd n + s.elen + 2000 + s.elen / 16 ≤ t)
    (hj : s.tw.joinAt = none) (hg : ∀ k ∈ [n - 1, n, n + 1], s.ep.peerGot.contains k = true) :
    s.matchingDecided t n =
      ((s.tick t).onEp fun e => { e with decided := recentEps n e.decided ++ [n] }).matchFound n
        ((s.matchPairs n).foldl (fun x p => markPair x.1 x.2 p.1 p.2) (s.ep.inputs, s.ep.peer)).1
        ((s.matchPairs n).foldl (fun x p => markPair x.1 x.2 p.1 p.2) (s.ep.inputs, s.ep.peer)).2 := by
  unfold State.matchingDecided
  extract_lets x y first need open_ own peer pairs
  rw [if_neg (by
    show ¬(!s.serving || !s.paired || !s.ep.sent.contains n || s.ep.decided.contains n || !s.ep.cur.any (fun c => n + 1 < c) ||
      decide (t < s.epochEnd n + s.elen + 2000 + s.elen / 16)) = true
    rw [hsv, hp, hs, hd, hc]
    simp [hn, ht]), if_neg (by
    show ¬(!(([n - 1, n, n + 1].filter (fun k => decide (s.tw.joinAt.getD 0 ≤ k))).all fun k => s.ep.peerGot.contains k)) = true
    rw [hj]
    simpa using hg)]
  rfl

/-- What the matching leaves of an epoch: its inputs and records, the inputs that go to the peer, and their count. -/
theorem matchFound_facts (s : State) (n : Nat) (inputs : List Input) (recs : List PeerRec) :
    (s.matchFound n inputs recs).ep.inputs = inputs ∧ (s.matchFound n inputs recs).ep.peer = recs ∧
    (s.matchFound n inputs recs).ep.fillsOut = s.ep.fillsOut ++ inputs.filter (fun i => !i.matched && i.stamp == n) ∧
    (s.matchFound n inputs recs).ep.decided = s.ep.decided ∧ (s.matchFound n inputs recs).mode = s.mode ∧
    (s.matchFound n inputs recs).rdN (EP_CNT 3) = (s.rdN (EP_CNT 3) + (inputs.filter (fun i => !i.matched && i.stamp == n)).length) % 2 ^ 32 := by
  unfold State.matchFound
  extract_lets x alone y
  obtain ⟨l, hl⟩ := skewMisses_ep y n ((alone.map inRec).filter (fun r => r.cls == 1 || r.cls == 2))
    (y.ep.peer.filter (fun r => !r.matched && r.stamp == n && (r.cls == 1 || r.cls == 2)))
  have hk := State.skewMisses_keeps (c := 0x4000480) rfl (.refl _ y) n ((alone.map inRec).filter (fun r => r.cls == 1 || r.cls == 2))
    (y.ep.peer.filter (fun r => !r.matched && r.stamp == n && (r.cls == 1 || r.cls == 2)))
  generalize y.skewMisses n ((alone.map inRec).filter (fun r => r.cls == 1 || r.cls == 2))
    (y.ep.peer.filter (fun r => !r.matched && r.stamp == n && (r.cls == 1 || r.cls == 2))) = z at *
  have hcnt : y.rdN (EP_CNT 3) = (s.rdN (EP_CNT 3) + alone.length) % 2 ^ 32 := rdN_inc_same _ _ _
  have hrd : z.rdN (EP_CNT 3) = y.rdN (EP_CNT 3) := congrArg BitVec.toNat (rd_congr (hk.at_ 5 rfl) _)
  refine ⟨?_, ?_, ?_, ?_, (show z.mode = y.mode from hk.at_ 4 rfl), hrd.trans hcnt⟩
  all_goals rw [hl] <;> rfl

end Sys2Proof.Machine
end

section
namespace Sys2Proof.Proofs
open Sys2Proof Sys2Proof.Machine

/-- An own input and a peer's record of it are paired. -/
theorem after_matched {s : State} {t n c : Nat} {i : Input} {r : PeerRec} (hsv : s.serving = true) (hp : s.paired = true) (hs : s.ep.sent.contains n = true)
    (hd : s.ep.decided.contains n = false) (hc : s.ep.cur = some c) (hn : n + 1 < c) (ht : s.epochEnd n + s.elen + 2000 + s.elen / 16 ≤ t)
    (hj : s.tw.joinAt = none) (hg : ∀ k ∈ [n - 1, n, n + 1], s.ep.peerGot.contains k = true) (hi : s.ep.inputs = [i]) (hm : i.matched = false) (hst : i.stamp = n)
    (hr : s.ep.peer = [r]) (hrm : r.matched = false) (hrs : r.stamp = n ∨ r.stamp = n + 1) (hsame : sameInput (inRec i) r = true) :
    After (.matchingDecided t n) s fun u =>
      u.ep.inputs = [{ i with matched := true, inEp := n, mate := r.pos }] ∧ u.ep.peer = [{ r with matched := true, inEp := n, mate := i.pos }] ∧
      u.ep.fillsOut = s.ep.fillsOut ∧ n ∈ u.ep.decided ∧ u.rdN (EP_CNT 3) = s.rdN (EP_CNT 3) ∧ u.mode = s.mode := by
  have hpairs : s.matchPairs n = [(inRec i, r)] := by
    have ho : openRecs n ([i].filter (fun i => !i.matched) |>.map inRec) = [inRec i] := by simp [openRecs, hm, inRec, hst]
    have hq : openRecs n [r] = [r] := by simpa [openRecs, hrm] using hrs
    unfold State.matchPairs
    dsimp only
    rw [hi, hr, ho, hq, matchRecs_one hsame (.inl hst), matchRecs_one ((sameInput_comm _ _).trans hsame) (.inr hst)]
    split <;> rfl
  have hmark : markPair [i] [r] (inRec i) r =
      ([{ i with matched := true, inEp := n, mate := r.pos }], [{ r with matched := true, inEp := n, mate := i.pos }]) := by
    have he : min (inRec i).stamp r.stamp = n := by
      show min i.stamp r.stamp = n
      omega
    unfold markPair
    rw [he]
    simp [inRec]
  have heq := matchingDecided_eq hsv hp hs hd hc hn ht hj hg
  rw [hpairs, hi, hr, List.foldl_cons, List.foldl_nil, hmark] at heq
  refine after_of rfl heq fun h _ => ?_
  obtain ⟨h1, h2, h3, h4, h5, h6⟩ := matchFound_facts ((s.tick t).onEp fun e => { e with decided := recentEps n e.decided ++ [n] }) n
    [{ i with matched := true, inEp := n, mate := r.pos }] [{ r with matched := true, inEp := n, mate := i.pos }]
  exact ⟨h1, h2, h3.trans (List.append_nil _), h4.symm ▸ List.mem_append_right _ (List.mem_singleton.2 rfl), h6.trans (Nat.mod_eq_of_lt (BitVec.isLt _)), h5⟩

/-- An own input without a record goes to the peer. -/
theorem after_alone {s : State} {t n c : Nat} {i : Input} (hsv : s.serving = true) (hp : s.paired = true) (hs : s.ep.sent.contains n = true)
    (hd : s.ep.decided.contains n = false) (hc : s.ep.cur = some c) (hn : n + 1 < c) (ht : s.epochEnd n + s.elen + 2000 + s.elen / 16 ≤ t)
    (hj : s.tw.joinAt = none) (hg : ∀ k ∈ [n - 1, n, n + 1], s.ep.peerGot.contains k = true) (hi : s.ep.inputs = [i]) (hm : i.matched = false) (hst : i.stamp = n)
    (hr : s.ep.peer = []) : After (.matchingDecided t n) s fun u =>
      u.ep.inputs = [i] ∧ u.ep.fillsOut = s.ep.fillsOut ++ [i] ∧ n ∈ u.ep.decided ∧ u.rdN (EP_CNT 3) = (s.rdN (EP_CNT 3) + 1) % 2 ^ 32 ∧ u.mode = s.mode := by
  have hpairs : s.matchPairs n = [] := by
    have ho : openRecs n ([i].filter (fun i => !i.matched) |>.map inRec) = [inRec i] := by simp [openRecs, hm, inRec, hst]
    unfold State.matchPairs
    rw [hi, hr, ho]
    split <;> simp [openRecs, matchRecs]
  have heq := matchingDecided_eq hsv hp hs hd hc hn ht hj hg
  rw [hpairs, List.foldl_nil, hi] at heq
  have halone : [i].filter (fun i => !i.matched && i.stamp == n) = [i] := by simp [hm, hst]
  refine after_of rfl heq fun h _ => ?_
  obtain ⟨h1, -, h3, h4, h5, h6⟩ := matchFound_facts ((s.tick t).onEp fun e => { e with decided := recentEps n e.decided ++ [n] }) n [i] s.ep.peer
  rw [halone] at h3 h6
  exact ⟨h1, h3, h4.symm ▸ List.mem_append_right _ (List.mem_singleton.2 rfl), h6, h5⟩

/-- A fill arrives by the deadline of its epoch. -/
theorem after_fill (s : State) (t : Nat) (i : Input) (hp : s.paired = true) (hf : s.ep.fillsIn = []) (hs : s.ep.sent.contains i.inEp = true)
    (hd : s.ep.deadline.contains i.inEp = false) (ht : t ≤ s.epochEnd i.inEp + 5 * s.elen / 2) : After (.fillReceived t i) s fun u =>
      u.ep = { s.ep with fillsIn := [{ i with acked := true }] } ∧ u.rdN (EP_CNT 4) = (s.rdN (EP_CNT 4) + 1) % 2 ^ 32 ∧ sameRegs [EP_CNT 4] s u ∧
      u = { s with now := max s.now t, regs := u.regs, ep := u.ep, hb := u.hb } ∧ sameBridge s u := by
  obtain ⟨y, hy⟩ : ∃ y, y = (s.tick t).onEp fun e => { e with fillsIn := [{ i with acked := true }] } := ⟨_, rfl⟩
  have heq : s.fillReceived t i = y.inc (EP_CNT 4) := by
    unfold State.fillReceived
    extract_lets x n known ok
    have hk : known = false := by
      show s.ep.fillsIn.any _ = false
      rw [hf]
      rfl
    have ho : ok = true := by
      show (s.replaying i.inEp || (s.ep.sent.contains i.inEp && !s.ep.deadline.contains i.inEp && decide (t ≤ s.epochEnd i.inEp + 5 * s.elen / 2))) = true
      rw [hs, hd, decide_eq_true ht]
      exact Bool.or_true _
    rw [if_neg (by rw [show x.paired = s.paired from rfl, hp, hk, ho]; decide), hy]
    show State.inc (x.onEp fun e => { e with fillsIn := s.ep.fillsIn ++ [{ i with acked := true }] }) (EP_CNT 4) = _
    rw [hf]
    rfl
  have hc : (y.inc (EP_CNT 4)).rdN (EP_CNT 4) = (s.rdN (EP_CNT 4) + 1) % 2 ^ 32 := by
    rw [rdN_inc_same, hy]
    rfl
  have ho := (RegsOnly.refl [EP_CNT 4] y).inc (a := EP_CNT 4) (by simp) 1
  have hsame := ho.same
  obtain ⟨R, hR⟩ := ho.regs_eq
  rw [hR] at heq hc hsame
  subst hy
  exact after_hb rfl heq rfl fun h hh => ⟨rfl, hc, (hsame.left rfl).right rfl, rfl, hh⟩

/-- Settles O27: the records of an epoch sealed, received and matched, and the fills sent, taken, acknowledged and left out. -/
theorem pairedExchange : Obligations.PairedExchange := by
  unfold Obligations.PairedExchange
  refine ⟨fun s t n c hsv hp hc hn hk ht => ?_, fun s t n recs hp hg => ?_, fun s t n c i hsv hp hs hd hc hn ht hj _ hg hi hm hst _ =>
    ⟨fun r hr hrm hrs hsame => after_matched hsv hp hs hd hc hn ht hj hg hi hm hst hr hrm hrs hsame, fun hr => after_alone hsv hp hs hd hc hn ht hj hg hi hm hst hr⟩,
    after_fill, fun s t f hf hi ht => ?_, fun s t n hp hd hn ht => ?_⟩
  · have heq : s.recordsSealSend t n =
        (s.tick t).onEp fun e => { e with sealed := some n, sent := if s.exchanging n then recentEps n e.sent ++ [n] else e.sent } := by
      have hany : s.ep.sealed.any (fun c => n ≤ c) = false := by
        cases hx : s.ep.sealed with
        | none => rfl
        | some k => simpa using hk k hx
      unfold State.recordsSealSend
      extract_lets x both
      rw [if_pos (by
        show (s.serving && s.paired && s.ep.cur.any (fun c => n < c) && !s.ep.sealed.any (fun c => n ≤ c) && decide (s.epochEnd n + 1500 ≤ t)) = true
        rw [hsv, hp, hc, hany]
        simpa using ⟨hn, ht⟩)]
      rfl
    refine after_hb rfl heq rfl fun h hh => ⟨rfl, fun hx => ?_, fun hx => if_neg (by rw [hx]; decide), rfl, rfl, hh⟩
    show n ∈ if s.exchanging n then recentEps n s.ep.sent ++ [n] else s.ep.sent
    rw [if_pos hx]
    exact List.mem_append_right _ (List.mem_singleton.2 rfl)
  · have heq : s.peerRecordsReceived t n recs = (s.tick t).onEp fun e =>
        { e with peerGot := recentEps n e.peerGot ++ [n], peer := e.peer ++ recs.map (fun r => { r with stamp := n, matched := false, inEp := n }) } :=
      if_neg (by rw [show (s.tick t).paired = s.paired from rfl, show (s.tick t).ep = s.ep from rfl, hp, hg]; decide)
    exact after_hb rfl heq rfl fun h hh => ⟨rfl, List.mem_append_right _ (List.mem_singleton.2 rfl), rfl, rfl, hh⟩
  · have heq : s.fillAckReceived t f.cls f.port f.pos = (s.tick t).onEp fun e => { e with fillsOut := [], inputs := [{ f with acked := true }] } := by
      unfold State.fillAckReceived
      extract_lets x hit
      have hh : hit f = true := by simp [hit]
      have hfind : x.ep.fillsOut.find? hit = some f := by
        rw [show x.ep.fillsOut = s.ep.fillsOut from rfl, hf]
        exact List.find?_cons_of_pos hh
      simp only [hfind]
      rw [if_neg (show ¬x.epochEnd f.stamp + 5 * x.elen / 2 < t from Nat.not_lt.2 ht)]
      show x.onEp _ = _
      have h1 : s.ep.fillsOut.filter (fun i => !hit i) = [] := by simp [hf, hh]
      have h2 : s.ep.inputs.map (fun i => if hit i && i.stamp == f.stamp then { i with acked := true } else i) = [{ f with acked := true }] := by simp [hi, hh]
      show { x with ep := { s.ep with
        fillsOut := s.ep.fillsOut.filter (fun i => !hit i)
        inputs := s.ep.inputs.map (fun i => if hit i && i.stamp == f.stamp then { i with acked := true } else i) } } = _
      rw [h1, h2]
      rfl
    exact after_hb rfl heq rfl fun h hh => ⟨rfl, rfl, hh⟩
  · have heq : s.fillDeadline t n = (s.tick t).onEp fun e => { e with
        deadline := recentEps n e.deadline ++ [n]
        fillsOut := e.fillsOut.filter (fun i => i.stamp != n)
        inputs := e.inputs.filter (fun i => i.inEp != n || i.matched || i.acked) } :=
      if_neg (by
        show ¬(!s.paired || !s.ep.decided.contains n || s.ep.deadline.contains n || decide (t < s.epochEnd n + 5 * s.elen / 2)) = true
        rw [hp, hd, hn]
        simp [ht])
    exact after_hb rfl heq rfl fun h hh => ⟨List.mem_append_right _ (List.mem_singleton.2 rfl), rfl, rfl, rfl, rfl, hh⟩

end Sys2Proof.Proofs
end

section
/-! PROOFS. What the processing of an epoch keeps: the time, and which epochs are stamped, released, processed and completed, with the digest shown (R22, R74 to R76). -/
set_option Elab.async false
namespace Sys2Proof.Machine
open Sys2Proof

/-- Every field of the state but the time base's instant and the epoch numbers. -/
abbrev allButRun : Nat := 0x3FFFFFD

/-- What an operation keeps in the processing of an epoch: the instant and the epoch numbers. -/
abbrev RunKept (s t : State) : Prop := Keeps allButRun s t

/-- The same for an operation that may have no result. -/
abbrev RunKeptO (s : State) (o : Option State) : Prop := KeepsO allButRun s o

theorem RunKept.run {s t : State} (h : RunKept s t) : t.ep.cur = s.ep.cur ∧ t.ep.rel = s.ep.rel ∧ t.ep.running = s.ep.running ∧ t.ep.done = s.ep.done ∧
    t.ep.digest = s.ep.digest ∧ t.now = s.now := by
  have he : epRun t.ep = epRun s.ep := h.at_ 26 rfl
  simp only [epRun, Prod.mk.injEq] at he
  obtain ⟨h1, h2, h3, h4, h5⟩ := he
  exact ⟨h1, h2, h3, h4, h5, h.at_ 1 rfl⟩

theorem tick_now (s : State) : s.tick s.now = s := by
  show { s with now := max s.now s.now } = s
  rw [Nat.max_self]

section
variable {s0 s : State} (h : RunKept s0 s)
include h

/-! ### Faults -/

theorem RunKept.evtOf (n a k : Nat) : RunKept s0 (s.evtOf n a k) := by
  unfold State.evtOf
  exact .ite (fun _ => State.evt_keeps rfl h _ _) fun _ => .set_epR rfl h _ rfl

omit h in
theorem isolateBent_run (s : State) (i : Nat) : RunKept s (s.isolateBent i) := by
  unfold State.isolateBent
  extract_lets s1 f s2
  have h2 : RunKept s s2 := .set_flt rfl (State.onFr_keeps rfl (State.setBent_keeps rfl (.refl _ s) _ _) _) _
  refine .ite (fun _ => .foldl (fun u j hu => ?_) _ h2) fun _ => .ite (fun _ => .foldl (fun u p hu => ?_) _ h2) fun _ => h2
  · have hf : RunKept s (u.flushPort (16 * i + j)).2 := State.flushPort_keeps rfl hu _
    exact RunKept.evtOf (State.onMort_keeps rfl (.set_fr rfl hf _) _ _) _ _ _
  · have hf : RunKept s (u.flushPort p).2 := State.flushPort_keeps rfl hu _
    exact State.onFr_keeps rfl hf _

omit h in
theorem f2Hit_run (s : State) (src : Nat) : RunKept s (s.f2Hit src) := by
  unfold State.f2Hit
  split
  · exact .trans (.set_flt rfl (.refl _ s) _) (isolateBent_run _ _)
  · exact .set_flt rfl (.refl _ s) _

omit h in
theorem f3Ask_run (s : State) (lead : Bool) : RunKept s (s.f3Ask lead) := by
  have hask (t : State) (ht : RunKept s t) : RunKept s (if lead then t.selfFence.onTw (fun w => { w with demote := false }) else t) :=
    .ite (fun _ => State.onTw_keeps rfl (State.selfFence_keeps rfl ht) _) fun _ => ht
  unfold State.f3Ask
  split
  · exact hask _ (.set_flt rfl (.refl _ s) _)
  · exact hask _ (.set_flt rfl (.refl _ s) _)
  · exact hask _ (.set_flt rfl (.refl _ s) _)
  · exact .set_flt rfl (.refl _ s) _
  · exact .refl _ s

theorem RunKept.faultResult (cls src : Nat) : RunKept s0 (s.faultResult cls src) := by
  refine h.trans ?_
  have hlost (e : Nat) : RunKept s (s.cancelSwap.loseGuar e) := State.loseGuar_keeps rfl (State.cancelSwap_keeps rfl (.refl _ s)) _
  by_cases h2 : cls = 2
  · subst h2
    rw [faultResult_f2]
    exact .ite (fun _ => State.selfFence_keeps rfl (f2Hit_run s src)) fun _ => State.leaveStep_keeps rfl (f2Hit_run s src)
  by_cases h3 : cls = 3
  · subst h3
    rw [faultResult_f3_eq]
    exact (hlost _).trans (f3Ask_run _ _)
  by_cases h4 : cls = 4
  · subst h4
    rw [faultResult_f4_eq]
    exact .set_flt rfl (hlost _) _
  · have he : s.faultResult cls src = s := by simp [State.faultResult, h2, h3, h4]
    rw [he]
    exact .refl _ s

theorem RunKept.recordAt (cls cause src unit ep ts : Nat) : RunKept s0 (s.recordAt cls cause src unit ep ts) := by
  unfold State.recordAt
  extract_lets s1 n s2
  have h1 : RunKept s0 s1 := State.inc_keeps rfl h _ _
  have h2 : RunKept s0 s2 := State.setFld_keeps rfl h1 _ _ _ _
  have hw (t : State) (ht : RunKept s0 t) (a b c d x y z w : Nat) : RunKept s0 ((((t.wrN a x).wrN b y).wrN c z).wrN d w) :=
    State.wrN_keeps rfl (State.wrN_keeps rfl (State.wrN_keeps rfl (State.wrN_keeps rfl ht _ _) _ _) _ _) _ _
  split
  refine .ite (fun _ => .ite (fun _ => h2) fun _ => hw _ h2 ..) fun _ => ?_
  exact RunKept.faultResult (State.setBit_keeps rfl (State.setBit_keeps rfl (hw _ h1 ..) _ _ _) _ _ _) _ _

theorem RunKept.raiseFault (cls cause src unit : Nat) : RunKept s0 (s.raiseFault cls cause src unit) := by
  unfold State.raiseFault State.recordFault
  have h1 := h.recordAt cls cause src unit s.stampEp s.now
  exact .ite (fun _ => h1.recordAt ..) fun _ => .ite (fun _ => h1.recordAt ..) fun _ => h1

theorem RunKept.applyUpd (u : Upd) : RunKept s0 (s.applyUpd u) := by
  cases u with
  | add a n => exact State.inc_keeps rfl h _ _
  | or a m => exact State.wrN_keeps rfl h _ _
  | put a lo w v => exact State.setFld_keeps rfl h _ _ _ _
  | note cause src unit ep ts => exact h.recordAt ..

theorem RunKept.applyHeld : RunKept s0 s.applyHeld := .set_held rfl (.foldl (fun _ u hu => RunKept.applyUpd hu u) _ h) _

theorem RunKept.applyDue (n : Nat) : RunKept s0 (s.applyDue n) := .foldl (fun _ u hu => RunKept.applyUpd hu u) _ (.set_epR rfl h _ rfl)

theorem RunKept.countError (i : Nat) : RunKept s0 (s.countError i) := by
  unfold State.countError
  exact .ite (fun _ => h) fun _ => .ite (fun _ => RunKept.raiseFault (.set_flt rfl h _) ..) fun _ => .set_flt rfl h _

theorem RunKept.readErrors (ecc : List (Nat × Bool)) (pos : Nat) : RunKept s0 (s.readErrors ecc pos).2 := by
  have hone (t : State) (e : Nat × Bool) (ht : RunKept s0 t) : RunKept s0 (t.tableError e.2) :=
    .ite (fun _ => ht.raiseFault ..) fun _ => (RunKept.raiseFault (State.evt_keeps rfl (State.inc_keeps rfl ht _ _) _ _) ..).countError _
  unfold State.readErrors
  extract_lets mine t
  have ht : RunKept s0 t := .foldl hone _ h
  split
  · exact State.freeResult_keeps rfl ht
  · exact ht

/-! ### Changes at their epoch (R74) -/

theorem RunKept.beginCommits (l : List Commit) : RunKept s0 (State.beginCommits l s) := by
  induction l generalizing s with
  | nil => exact .set_ks rfl h _
  | cons c cs ih =>
    rw [State.beginCommits]
    have hworn : RunKept s0 (s.wornCommit c) := by
      unfold State.wornCommit
      split
      · exact h.raiseFault ..
      · exact State.setFld_keeps rfl (State.endUpdate_keeps rfl h) _ _ _ _
      · exact h
    exact .ite (fun _ => ih hworn) fun _ => .set_ks rfl h _

theorem RunKept.commit (c : Commit) : RunKept s0 (s.commit c) := by
  unfold State.commit
  split
  · exact h.beginCommits _
  · exact .set_ks rfl h _

theorem RunKept.abandon : RunKept s0 s.abandon := by
  unfold State.abandon
  extract_lets dead x y
  have hy : RunKept s0 y := State.endUpdate_keeps rfl (Keeps.set_ks rfl h _)
  exact RunKept.raiseFault (State.evt_keeps rfl hy _ _) ..

theorem RunKept.keyUpdateInForce (n : Nat) : RunKept s0 (s.keyUpdateInForce n) := by
  unfold State.keyUpdateInForce
  split
  · exact .ite (fun _ => .ite (fun _ => State.recordVector_keeps rfl (State.takeUpdate_keeps rfl h _ _) _)
      fun _ => .ite (fun _ => State.recordVector_keeps rfl h.abandon _) fun _ => h) fun _ => h
  · exact h

theorem RunKept.startUpdate (u : KeyUpd) (eff : Option Nat) : RunKept s0 (s.startUpdate u eff) :=
  RunKept.commit (State.setFld_keeps rfl (.set_ks rfl h _) _ _ _ _) _

theorem RunKept.keyUpdateApply (c a : Nat) : RunKept s0 (s.keyUpdateApply c a) := by
  unfold State.keyUpdateApply
  extract_lets staged
  clear_value staged
  refine .ite (fun _ => ?_) fun _ => .ite (fun _ => ?_) fun _ => h
  · cases staged with
    | some u => exact State.evt_keeps rfl (h.startUpdate _ _) _ _
    | none => exact State.inc_keeps rfl (State.evt_keeps rfl h _ _) _ _
  · have href (k : Nat) (o : CmdOutcome) : RunKept s0 (((s.cEvt KS_EVENT k).cInc (KS_CNT 1)).recordCmd c o) :=
      State.recordCmd_keeps rfl (State.cInc_keeps rfl (State.cEvt_keeps rfl h _ _) _ _) _ _
    cases staged with
    | none => exact href _ _
    | some u => exact .ite (fun _ => href _ _) fun _ => State.recordCmd_keeps rfl (State.cEvt_keeps rfl (h.startUpdate _ _) _ _) _ _

theorem RunKept.prefixEffect (n : Nat) : RunKept s0 (s.prefixEffect n) := by
  unfold State.prefixEffect
  split
  · exact h
  · extract_lets c x y
    have hx : RunKept s0 x := .set_tab rfl h _
    have hy : RunKept s0 y := .ite (fun _ => State.lpmEffect_keeps rfl hx _) fun _ => RunKept.raiseFault (State.setBit_keeps rfl hx _ _ _) ..
    exact State.cPut_keeps rfl (State.tcamShow_keeps rfl hy) _ _ _ _

theorem RunKept.scanDone (r i : Nat) (b : Bool) : RunKept s0 (s.scanDone r i b) := by
  unfold State.scanDone
  extract_lets x y
  have hx : RunKept s0 x := State.wrN_keeps rfl h _ _
  exact .ite (fun _ => RunKept.raiseFault (State.evt_keeps rfl (State.inc_keeps rfl hx _ _) _ _) ..) fun _ => RunKept.raiseFault (State.evt_keeps rfl hx _ _) ..

theorem RunKept.scanRepair (r i : Nat) (sh : Octets) : RunKept s0 (s.scanRepair r i sh) := by
  have hdone (t : State) (ht : RunKept s0 t) (b : Bool) : RunKept s0 (t.scanDone r i b) := ht.scanDone _ _ _
  unfold State.scanRepair
  extract_lets present k x y
  have hx : RunKept s0 x := State.tcamRebuild_keeps rfl (State.memW_keeps rfl h _ _) _
  have hy : RunKept s0 y := by
    unfold y
    split
    all_goals exact State.memW_keeps rfl h _ _
  refine .ite (fun _ => ?_) fun _ => .ite (fun _ => .ite (fun _ => hdone _ h _) fun _ => hdone _ hx _) fun _ => hdone _ hy _
  split
  · exact .ite (fun _ => hdone _ (State.putHent_keeps rfl h _ _ _) _) fun _ => hdone _ (State.hdelete_keeps rfl h _ _) _
  · refine .ite (fun _ => h) fun _ => ?_
    split
    next t ht => exact hdone _ (Keeps.ofO ht (State.hinsert_keeps rfl h _ _)) _
    next => exact hdone _ h _

theorem RunKept.scanRepairs : RunKept s0 s.scanRepairs :=
  .foldl (fun _ x hx => RunKept.scanRepair hx x.region x.idx x.shadow) _ (.set_tab rfl h _)

/-! ### Bents that enter service (R97, R106) -/

theorem RunKept.enterMort (g m : Nat) : RunKept s0 (s.enterMort g m) := by
  unfold State.enterMort
  refine .ite (fun _ => State.onMort_keeps rfl h _ _) fun _ => ?_
  extract_lets x y z
  have hx : RunKept s0 x := State.takePins_keeps rfl (State.onMort_keeps rfl h _ _) _
  have hy : RunKept s0 y := .ite (fun _ => State.linStart_keeps rfl hx _ _) fun _ => hx
  have hz : RunKept s0 z := .ite (fun _ => State.onCan_keeps rfl hy _ _) fun _ => hy
  exact hz.evtOf _ _ _

theorem RunKept.bentIn (g i : Nat) : RunKept s0 (s.bentIn g i) := by
  unfold State.bentIn
  extract_lets x y
  have hy : RunKept s0 y := State.onPw_keeps rfl (State.setBent_keeps rfl h _ _) _
  exact .ite (fun _ => .foldl (fun _ _ hu => RunKept.enterMort (State.loadHcopy_keeps rfl hu _ _) _ _) _ hy) fun _ => hy

theorem RunKept.tbLoad (x : Octets) : RunKeptO s0 (s.tbLoad x) := by
  unfold State.tbLoad
  extract_lets s1 n s2 s3 s4
  have h3 : RunKept s0 s3 := State.tbHead_keeps rfl (.set_tab rfl (State.memClear_keeps rfl (State.memClear_keeps rfl h _ _) _ _) _) _
  have h4 : RunKept s0 s4 := .foldl (fun _ _ hu => State.memW_keeps rfl hu _ _) _ h3
  refine Keeps.bindO (Keeps.bindO (State.insertAll_keeps rfl h4 _ _ _) fun _ h6 => State.insertAll_keeps rfl h6 _ _ _) fun _ h7 => ?_
  extract_lets t1 t2
  have k1 : RunKept s0 t1 := .foldl (fun _ _ hu => State.memW_keeps rfl hu _ _) _ h7
  have k2 : RunKept s0 t2 := State.tcamShow_keeps rfl (.foldl (fun _ _ hu => State.tcamAdd_keeps rfl hu _) _ k1)
  exact Keeps.iteO (fun _ => Keeps.noneO) fun _ =>
    Keeps.someO (State.tabShow_keeps rfl (RunKept.applyHeld k2) _ fun _ hu _ _ _ _ => State.setFld_keeps rfl hu _ _ _ _)

theorem RunKept.configBent (p : Nat × Octets) : RunKept s0 (s.configBent p) := by
  unfold State.configBent
  extract_lets i x
  have hx : RunKept s0 x := .set_fr rfl h _
  exact .ite (fun _ => State.configMB_keeps rfl hx _ _) fun _ => .ite (fun _ => Keeps.getD (hx.tbLoad _) hx) fun _ =>
    .ite (fun _ => State.sbLoad_keeps rfl hx _) fun _ => .ite (fun _ => State.kbLoad_keeps rfl hx _) fun _ =>
    .ite (fun _ => State.gwLoad_keeps rfl hx _) fun _ => State.pbLoad_keeps rfl hx _

theorem RunKept.lateBent (i : Nat) (x : Option Octets) : RunKept s0 (s.lateBent i x) := by
  unfold State.lateBent
  split
  · exact RunKept.bentIn (.ite (fun _ => .set_fr rfl h _) fun _ => h.configBent _) _ _
  · extract_lets y
    have hy : RunKept s0 y := RunKept.raiseFault (State.evt_keeps rfl h _ _) ..
    exact .ite (fun _ => hy.trans (isolateBent_run _ _)) fun _ => hy

theorem RunKept.lateNow : RunKept s0 s.lateNow := by
  unfold State.lateNow
  split
  · exact h
  · refine .foldl (fun u i hu => .ite (fun _ => hu) fun _ => ?_) _ h
    split
    · exact .ite (fun _ => RunKept.lateBent hu _ _) fun _ => hu
    · exact RunKept.lateBent hu _ _

theorem RunKept.fullService : RunKept s0 s.fullService := by
  unfold State.fullService
  extract_lets x
  have hx : RunKept s0 x := State.onFr_keeps rfl (State.evt_keeps rfl (State.setFld_keeps rfl h _ _ _ _) _ _) _
  exact .ite (fun _ => .ite (fun _ => hx.commit _) fun _ => hx) fun _ => hx

theorem RunKept.lateProcess : RunKept s0 s.lateProcess := by
  unfold State.lateProcess
  split
  · exact h
  · exact State.onFr_keeps rfl (RunKept.fullService (.foldl (fun _ _ hu => .ite (fun _ => RunKept.lateBent hu _ _) fun _ => hu) _ h)) _

theorem RunKept.swapNow (g : Nat) : RunKept s0 (s.swapNow g) := by
  unfold State.swapNow
  refine .ite (fun _ => h) fun _ => ?_
  split
  · exact h
  · extract_lets d back x1 after x2 x3 x4 x5
    have h2 : RunKept s0 x2 := State.onFr_keeps rfl h _
    have h3 : RunKept s0 x3 := .foldl (fun _ _ hu => State.retenon_keeps rfl hu _ _ _) _ h2
    have h4 : RunKept s0 x4 := by
      refine .foldl (fun u i hu => ?_) _ h3
      split
      · exact .ite (fun _ => RunKept.bentIn (State.configMB_keeps rfl hu _ _) _ _)
          fun _ => .set_banks rfl hu _ fun hl => (updAt_length _ _ _).trans hl
      · exact hu
    have h5 : RunKept s0 x5 := by
      unfold x5
      split
      · exact .foldl (fun _ _ hu => State.planSwap_keeps rfl hu _ _) _ h4
      · exact h4
    exact State.onFr_keeps rfl h5 _

theorem RunKept.swapBent (g i : Nat) (x : Octets) : RunKept s0 (s.swapBent g i x) := by
  unfold State.swapBent
  exact .ite (fun _ => RunKept.bentIn (h.configBent _) _ _) fun _ => .ite (fun _ => State.tbSwitch_keeps rfl h _) fun _ =>
    .ite (fun _ => State.sbSwap_keeps rfl h _ _) fun _ => .ite (fun _ => State.kbSwap_keeps rfl h _) fun _ =>
    .ite (fun _ => State.gwSwitch_keeps rfl h _ _) fun _ => State.pbLoad_keeps rfl h _

theorem RunKept.swapProcess (g : Nat) : RunKept s0 (s.swapProcess g) := by
  unfold State.swapProcess
  split
  · exact h
  · extract_lets s1 t gw s2 s3 s4 s5 after s6 s7
    have h2 : RunKept s0 s2 := State.beginPurge_keeps rfl (h.swapNow g) _ _ _
    have h3 : RunKept s0 s3 := by
      refine .foldl (fun u m hu => ?_) _ h2
      split
      · exact State.retenonCovered_keeps rfl hu _ _
      · exact hu
    have h4 : RunKept s0 s4 := by
      refine .foldl (fun u i hu => ?_) _ h3
      split
      · exact RunKept.swapBent hu _ _ _
      · exact hu
    have h5 : RunKept s0 s5 := by
      refine .foldl (fun u r hu => ?_) _ h4
      split
      · exact State.setBent_keeps rfl hu _ _
      · exact hu
    have h6 : RunKept s0 s6 := State.onFr_keeps rfl h5 _
    exact State.f2Back_keeps rfl (State.evt_keeps rfl (State.setBit_keeps rfl (State.showFrame_keeps rfl h6) _ _ _) _ _)

theorem RunKept.namedChanges (n : Nat) : RunKept s0 (s.namedChanges n) := by
  unfold State.namedChanges
  extract_lets x y
  have hx : RunKept s0 x := .ite (fun _ => h.lateNow.lateProcess) fun _ => h
  have hy : RunKept s0 y := .ite (fun _ => hx.swapProcess n) fun _ => hx
  exact ((hy.keyUpdateInForce n).prefixEffect n).scanRepairs

/-! ### Commands (R13) -/

theorem RunKept.wkCommand (c v : Nat) : RunKept s0 (s.wkCommand c v) := by
  have hreq (t : State) (ht : RunKept s0 t) : RunKept s0 (t.sleepRequest t.now c) := by
    unfold State.sleepRequest
    rw [tick_now]
    refine .ite (fun _ => .ite (fun _ => ht) fun _ => ?_) fun _ => .ite (fun _ => ht) fun _ => State.decideSleep_keeps rfl ht _ _
    exact State.evt_keeps rfl (State.evt_keeps rfl (State.inc_keeps rfl (State.setBit_keeps rfl (State.setFld_keeps rfl (State.setFld_keeps rfl
      (State.beginQuiesce_keeps rfl (State.onWk_keeps rfl ht _)) _ _ _ _) _ _ _ _) _ _ _) _ _) _ _) _ _
  have hcancel (t : State) (ht : RunKept s0 t) : RunKept s0 (t.sleepCancel t.now) := by
    unfold State.sleepCancel
    rw [tick_now]
    dsimp only
    split
    · exact State.cancelSleep_keeps rfl ht _
    · exact .ite (fun _ => ht) fun _ => State.sleepDone_keeps rfl (RunKept.applyHeld (State.cancelSleep_keeps rfl ht _)) _
  have hout (t : State) (ht : RunKept s0 t) : RunKept s0 (wakeOutRequest t.now t) := by
    unfold wakeOutRequest
    rw [tick_now]
    exact .ite (fun _ => State.startPulse_keeps rfl ht _) fun _ => ht
  unfold State.wkCommand
  extract_lets x1 x2 x3 x4
  have h1 : RunKept s0 x1 := .ite (fun _ => hreq s h) fun _ => h
  have h2 : RunKept s0 x2 := .ite (fun _ => State.sleepGo_keeps rfl h1 _) fun _ => h1
  have h3 : RunKept s0 x3 := .ite (fun _ => hcancel x2 h2) fun _ => h2
  have h4 : RunKept s0 x4 := .ite (fun _ => State.awakeRestart_keeps rfl h3) fun _ => h3
  exact .ite (fun _ => hout x4 h4) fun _ => h4

theorem RunKept.ledgerWrite (c a v : Nat) (cap : List Nat) : RunKept s0 (s.ledgerWrite c a v cap) := by
  have hupd : RunKept s0 (s.updateCommand c v cap) := by
    unfold State.updateCommand
    exact .ite (fun _ => RunKept.keyUpdateApply (State.wrN_keeps rfl h _ _) _ _) fun _ => State.wrN_keeps rfl h _ _
  have hwk (m : Nat) : RunKept s0 (s.wkWrite c a v m) :=
    .ite (fun _ => h.wkCommand _ _) fun _ => .ite (fun _ => State.voteWrite_keeps rfl h _ _) fun _ =>
      .ite (fun _ => State.ringWrite_keeps rfl h _ _ _ _ _) fun _ => State.putMask_keeps rfl h _ _ _
  unfold State.ledgerWrite
  extract_lets m
  exact .ite (fun _ => .ite (fun _ => h) fun _ => State.swapCommand_keeps rfl h _ _ _) fun _ => .ite (fun _ => hupd) fun _ =>
    .ite (fun _ => .ite (fun _ => h) fun _ => State.sgCommand_keeps rfl h _ _ _) fun _ =>
    .ite (fun _ => .ite (fun _ => h) fun _ => State.tbCommand_keeps rfl h _ _ _) fun _ =>
    .ite (fun _ => .ite (fun _ => h) fun _ => State.scCommand_keeps rfl h _ _ _) fun _ =>
    .ite (fun _ => .ite (fun _ => h) fun _ => State.cpCommand_keeps rfl h _ _) fun _ =>
    .ite (fun _ => .ite (fun _ => State.handoverCommand_keeps rfl h _) fun _ => h) fun _ =>
    .ite (fun _ => State.mzWrite_keeps rfl h _ _ _ _) fun _ => .ite (fun _ => State.scWrite_keeps rfl h _ _ _ _) fun _ =>
    .ite (fun _ => hwk _) fun _ => State.putMask_keeps rfl h _ _ _

/-! ### The inputs of a ledger -/

omit h in
theorem RunKept.runInput {a : Budgets × State} (h : RunKept s0 a.2) (n : Nat) (ecc : List (Nat × Bool)) (x : Nat × Input) :
    RunKept s0 (State.runInput n ecc a x).2 := by
  obtain ⟨b, s⟩ := a
  obtain ⟨pos, i⟩ := x
  unfold State.runInput
  dsimp only
  generalize s.admitInput b pos i = ab
  obtain ⟨adm, b'⟩ := ab
  dsimp only
  generalize hes : (if adm = true then (s.onCp fun c => { c with left := s.cipherCost i.cls i.port, inp := portCode i }).readErrors ecc pos
    else (none, s.onCp fun c => { c with left := s.cipherCost i.cls i.port, inp := portCode i })) = es
  have h1 : RunKept s0 (s.onCp fun c => { c with left := s.cipherCost i.cls i.port, inp := portCode i }) := State.onCp_keeps rfl h _
  have h2 : RunKept s0 es.2 := by
    rw [← hes]
    split
    · exact h1.readErrors _ _
    · exact h1
  obtain ⟨err, t⟩ := es
  dsimp only
  replace h2 : RunKept s0 t := h2
  split
  · exact State.mortInput_keeps rfl h2 _ _ _ _ _
  · exact .ite (fun _ => State.admitDrop_keeps rfl h2) fun _ => .ite (fun _ => h2) fun _ => h2.ledgerWrite ..
  · have h3 : RunKept s0 (t.cInc (EB_CNT i.port 0)) := State.cInc_keeps rfl h2 _ _
    exact .ite (fun _ => State.admitDrop_keeps rfl h3) fun _ => .ite (fun _ => State.bayEventDone_keeps rfl h3 _ _) fun _ => State.bayInput_keeps rfl h3 _ _ _ _
  · exact .ite (fun _ => State.ringFrameInput_keeps rfl h2 _ _ _ _) fun _ => State.admitDrop_keeps rfl h2

end

end Sys2Proof.Machine
end

section
/-! PROOFS. The release of a ledger, the end of an epoch's processing, overrun and the comparison of the twins (R22, R68, R69, R74 to R77, R554). -/
set_option Elab.async false
namespace Sys2Proof.Machine
open Sys2Proof

/-! ### Release and completion -/

theorem RunKept.refl (s : State) : RunKept s s := Keeps.refl _ s

/-- The machine with a ledger released, before its changes and inputs. -/
def State.released (s : State) (n : Nat) : State :=
  (((s.onEp (fun e => { e with
      rel := some n, running := some n, runIn := s.stampEp, digest := ledgerDigest (s.ledgerOf n), digests := e.digests ++ [(n, ledgerDigest (s.ledgerOf n))] })).cInc
    (EP_CNT 0) (s.ledgerOf n).length).cInc (EP_CNT 2) (s.stampMerges (s.ledgerOf n))).dropLedger n

/-- The processing of a released ledger: the changes of its epoch, then its inputs in canonical order. -/
def State.processLedger (s : State) (n : Nat) (ecc : List (Nat × Bool)) (l : List Input) : State :=
  let s := s.namedChanges n
  let s := (if s.serves TB0 n then s.tabBegin else s).wkBegin
  let (_, s) := ((List.range l.length).zip l).foldl (State.runInput n ecc) (s.budgets, s)
  let s := s.onCp (fun c => { c with left := 2 ^ 32, inp := 0xFF })
  s.gwTimerBegin

theorem processLedger_run (s : State) (n : Nat) (ecc : List (Nat × Bool)) (l : List Input) : RunKept s (s.processLedger n ecc l) := by
  unfold State.processLedger
  extract_lets x y
  have hx : RunKept s x := (RunKept.refl s).namedChanges n
  have hy : RunKept s y := State.wkBegin_keeps rfl (.ite (fun _ => State.tabBegin_keeps rfl hx) fun _ => hx)
  have hz : RunKept s (((List.range l.length).zip l).foldl (State.runInput n ecc) (y.budgets, y)).2 :=
    keepFold (Q := fun a : Budgets × State => RunKept s a.2) (fun a x ha => RunKept.runInput ha n ecc x) _ hy
  exact State.gwTimerBegin_keeps rfl (State.onCp_keeps rfl hz _)

theorem ledgerRelease_eq {s : State} {t n : Nat} (ecc : List (Nat × Bool)) (hsv : s.serving = true) (hr : s.replaying n = false) (hrun : s.ep.running = none)
    (h0 : s.ep.rel = none → n = 0) (h1 : ∀ r, s.ep.rel = some r → n = r + 1) (ht : s.epochEnd (n + s.ep.lag) ≤ t) (hl : s.ledgerReady n = true)
    (hc : ∀ c, s.wk.cEp = some c → n ≤ c) : s.ledgerRelease t n ecc = ((s.tick t).released n).processLedger n ecc ((s.tick t).ledgerOf n) := by
  unfold State.ledgerRelease
  extract_lets x next replay l dig merges
  have hnext : next = n := by
    show (match s.ep.rel with | some r => r + 1 | none => 0) = n
    cases hs : s.ep.rel with
    | none => exact (h0 hs).symm
    | some r => exact (h1 r hs).symm
  have hrep : replay = false := hr
  have hany : s.wk.cEp.any (fun c => decide (c < n)) = false := by
    cases hs : s.wk.cEp with
    | none => rfl
    | some c => simpa using hc c hs
  rw [if_neg (by
    rw [hnext, hrep]
    show ¬(!(s.serving || false) || s.ep.running.isSome || n != n || (!false && decide (t < s.epochEnd (n + s.ep.lag))) || !s.ledgerReady n ||
      s.wk.cEp.any (fun c => decide (c < n))) = true
    rw [hsv, hrun, hl, hany]
    simpa using ht)]
  rfl

/-- What the processing of an epoch leaves before it is marked as done. -/
def State.timerSteps (s : State) (n : Nat) : State :=
  let s := (s.wkTimer n).quiesceShow n
  let s := if s.serves TB0 n then (s.tabTimer n).tabShow State.cPut else s
  let s := (List.range 128).foldl (fun s m => (s.canFree m).t1sFree m) s
  let s := (s.cbEpoch).select n
  let s := (List.range 128).foldl (fun s m => if (s.mort m).tenon == .can then s.canComplete m else s) s
  s.grantEpoch.sleepDone n

theorem timerSteps_run (s : State) (n : Nat) : RunKept s (s.timerSteps n) := by
  unfold State.timerSteps
  extract_lets x1 x2 x3 x4 x5
  have h1 : RunKept s x1 := State.quiesceShow_keeps rfl (State.wkTimer_keeps rfl (.refl _ s) _) _
  have h2 : RunKept s x2 :=
    .ite (fun _ => State.tabShow_keeps rfl (State.tabTimer_keeps rfl h1 _) _ fun _ hu _ _ _ _ => State.cPut_keeps rfl hu _ _ _ _) fun _ => h1
  have h3 : RunKept s x3 := .foldl (fun _ _ hu => State.t1sFree_keeps rfl (State.canFree_keeps rfl hu _) _) _ h2
  have h4 : RunKept s x4 := State.select_keeps rfl (State.cbEpoch_keeps rfl h3) _
  have h5 : RunKept s x5 := .foldl (fun _ _ hu => .ite (fun _ => State.canComplete_keeps rfl hu _) fun _ => hu) _ h4
  exact State.sleepDone_keeps rfl (State.grantEpoch_keeps rfl h5) _

theorem processingComplete_eq {s : State} {n : Nat} (t : Nat) (h : s.ep.running = some n) :
    s.processingComplete t n = ((((s.tick t).timerSteps n).applyHeld).onEp (fun e => { e with done := some n, running := none })).applyDue n :=
  if_neg (by
    show ¬(s.ep.running != some n) = true
    rw [h]
    simp)

/-! ### The vectors of receive rings -/

theorem sendVec_rxDue (s : State) (fn vec : Nat) : (s.sendVec fn vec).hb.rxDue = s.hb.rxDue := by
  unfold State.sendVec
  split
  · show (if fn = 0 then { s.hb with pba0 := s.hb.pba0 ||| 2 ^ vec } else { s.hb with pba1 := s.hb.pba1 ||| 2 ^ vec }).rxDue = _
    split <;> rfl
  · rfl

theorem foldl_rxDue {α : Type} {f : State → α → State} (hf : ∀ s x, (f s x).hb.rxDue = s.hb.rxDue) (l : List α) (s : State) :
    (l.foldl f s).hb.rxDue = s.hb.rxDue := by
  induction l generalizing s with
  | nil => rfl
  | cons x xs ih => exact (ih _).trans (hf s x)

theorem ringVecs_rxDue (s : State) : s.ringVecs.hb.rxDue = [] := by
  refine foldl_rxDue (fun u k => ?_) _ _
  unfold State.ringVec
  extract_lets ctl
  split
  · exact sendVec_rxDue _ _ _
  · rfl

theorem settle_rxDue (s : State) {x : State} (h : x.hb.rxDue = []) : (s.settle x).hb.rxDue = [] := by
  unfold State.settle
  extract_lets y was now
  refine (foldl_rxDue (fun u k => ?_) _ _).trans (show y.hb.rxDue = [] from ?_)
  · split
    · exact sendVec_rxDue _ _ _
    · rfl
  · show (if x.atOnce then x.ringVecs else x).hb.rxDue = []
    split
    · exact ringVecs_rxDue x
    · exact h

/-! ### Comparison (R69, R554) -/

/-- Equal outcome records bring nothing. -/
theorem compareOutcomes_same (s : State) (n : Nat) (o : OutcomeRec) : s.compareOutcomes n o o = s := by
  have hone (u : State) (c : CmdOutcome) : u.compareCmd (c, c) = u := by
    unfold State.compareCmd
    cases c.swap <;> cases c.armed <;> cases c.accepted <;> rfl
  have hall (l : List CmdOutcome) (u : State) : (l.zip l).foldl State.compareCmd u = u := by
    induction l generalizing u with
    | nil => rfl
    | cons c cs ih =>
      rw [List.zip_cons_cons, List.foldl_cons, hone]
      exact ih u
  unfold State.compareOutcomes
  extract_lets x y
  rw [if_neg (by simp)]
  exact hall _ _

/-- The record that this unit keeps of an epoch's commands. -/
def State.outcomeOf (s : State) (n : Nat) : OutcomeRec := (s.ep.outcomes.find? (fun o => o.epoch == n)).getD { epoch := n }

/-- The digest of the peer, where it differs from the unit's own (R69). -/
def State.digestsDiffer (s : State) (n : Nat) : State :=
  if (s.flagEpoch 4).mode == .lead then (s.flagEpoch 4).onTw (fun w => { w with peerInStep := false, joinAt := none }) else (s.flagEpoch 4).leaveGuar n

theorem ledgerCompare_eq {s : State} {t n own : Nat} (d : Nat) (o : OutcomeRec) (hp : s.paired = true) (hs : s.ep.sent.contains n = true)
    (ht : s.epochEnd n + 4 * s.elen ≤ t) (ho : assoc s.ep.digests n = some own) :
    s.ledgerCompare t n (some d) (some o) =
      ((if d != own then (s.tick t).digestsDiffer n else if s.tw.joinAt == some n then (s.tick t).enterStep else s.tick t).compareOutcomes n (s.outcomeOf n)
        o).pruneEpochs n := by
  unfold State.ledgerCompare
  extract_lets x
  rw [if_neg (by
    show ¬(!s.paired || !s.ep.sent.contains n || decide (t < s.epochEnd n + 4 * s.elen)) = true
    rw [hp, hs]
    simpa using ht)]
  simp only [show x.ep = s.ep from rfl, ho]
  rfl

end Sys2Proof.Machine
end

section
namespace Sys2Proof.Proofs
open Sys2Proof Sys2Proof.Machine

/-- The ledger of the next epoch is released at its time. -/
theorem after_release {s : State} {t n : Nat} (ecc : List (Nat × Bool)) (hsv : s.serving = true) (hr : s.replaying n = false) (hrun : s.ep.running = none)
    (h0 : s.ep.rel = none → n = 0) (h1 : ∀ r, s.ep.rel = some r → n = r + 1) (ht : s.epochEnd (n + s.ep.lag) ≤ t) (hl : s.ledgerReady n = true)
    (hc : ∀ c, s.wk.cEp = some c → n ≤ c) : After (.ledgerRelease t n ecc) s fun u =>
      u.ep.rel = some n ∧ u.ep.running = some n ∧ u.ep.digest = ledgerDigest (s.ledgerOf n) ∧ u.ep.cur = s.ep.cur ∧ u.ep.done = s.ep.done ∧ u.now = max s.now t := by
  have heq := ledgerRelease_eq ecc hsv hr hrun h0 h1 ht hl hc
  obtain ⟨hcur, hrel, hru, hdone, hdig, hnow⟩ := (processLedger_run ((s.tick t).released n) n ecc ((s.tick t).ledgerOf n)).run
  generalize ((s.tick t).released n).processLedger n ecc ((s.tick t).ledgerOf n) = y at *
  refine after_of rfl heq fun b _ => ?_
  exact ⟨hrel, hru, hdig, hcur, hdone, hnow⟩

/-- The processing of an epoch completes. -/
theorem after_complete {s : State} {t n : Nat} (hr : s.ep.running = some n) : After (.epochProcessingComplete t n) s fun u =>
    u.ep.done = some n ∧ u.ep.running = none ∧ u.held = [] ∧ u.ep.cur = s.ep.cur ∧ u.ep.rel = s.ep.rel ∧ u.ep.digest = s.ep.digest ∧ u.hb.rxDue = [] ∧ u.now = max s.now t := by
  obtain ⟨z, hz⟩ : ∃ z, z = ((s.tick t).timerSteps n).applyHeld := ⟨_, rfl⟩
  obtain ⟨y, hy⟩ : ∃ y, y = z.onEp (fun e => { e with done := some n, running := none }) := ⟨_, rfl⟩
  have heq : s.processingComplete t n = y.applyDue n := by rw [processingComplete_eq t hr, hy, hz]
  have hzheld : z.held = [] := by rw [hz]; rfl
  obtain ⟨hcur, hrel, -, -, hdig, hnow⟩ := ((timerSteps_run (s.tick t) n).applyHeld).run
  rw [← hz] at hcur hrel hdig hnow
  obtain ⟨kcur, krel, krun, kdone, kdig, know⟩ := ((RunKept.refl y).applyDue n).run
  have hheld : (y.applyDue n).held = y.held := (State.applyDue_keeps (c := 0x4243c20) rfl (.refl _ y) n).at_ 7 rfl
  obtain ⟨u, hu⟩ : ∃ u, u = s.settle ((s.processingComplete t n).ringVecs) := ⟨_, rfl⟩
  have hset := settle_eq s ((s.processingComplete t n).ringVecs)
  have hvec : (s.processingComplete t n).ringVecs = { s.processingComplete t n with hb := (s.processingComplete t n).ringVecs.hb } := by
    obtain ⟨_, _, _, _, _, e⟩ := ringVecs_frame (s.processingComplete t n)
    rw [e]
  refine ⟨u, by rw [hu]; rfl, ?_⟩
  have hrx : u.hb.rxDue = [] := by
    rw [hu]
    exact settle_rxDue s (ringVecs_rxDue _)
  have hep : u.ep = (y.applyDue n).ep := by rw [hu, hset, hvec, heq]
  have huh : u.held = (y.applyDue n).held := by rw [hu, hset, hvec, heq]
  have hun : u.now = (y.applyDue n).now := by rw [hu, hset, hvec, heq]
  show u.ep.done = some n ∧ u.ep.running = none ∧ u.held = [] ∧ u.ep.cur = s.ep.cur ∧ u.ep.rel = s.ep.rel ∧ u.ep.digest = s.ep.digest ∧ u.hb.rxDue = [] ∧
    u.now = max s.now t
  rw [hep, huh, hun, kdone, krun, hheld, kcur, krel, kdig, know, hy]
  clear hz
  exact ⟨rfl, rfl, hzheld, hcur, hrel, hdig, hrx, hnow⟩

/-- A processing not complete at the end of the epoch in which it runs. -/
theorem after_overrun {s : State} {t n : Nat} (hr : s.ep.running = some n) (hm : s.mode = .solo) (ht : s.epochEnd s.ep.runIn ≤ t) (hf : s.fld FLT_STATUS 0 5 = 0)
    (hsw : s.fr.swapAt = none) : After (.epochOverrun t) s fun u =>
      u.bit EP_EVENT 8 = true ∧ faultNoted 3 0x33 0x20 0xFF s u ∧ u.flt.holdAt = some ((s.tick t).stampEp + 1) ∧ u.ep.guar = false ∧ (s.ep.guar = true → u.ep.lossEp = n) ∧ u.mode = .solo ∧
      sameRegs (EP_EVENT :: faultRegs 3) s u ∧ u = { s with now := max s.now t, regs := u.regs, ep := { s.ep with guar := false, lossEp := u.ep.lossEp }, flt := u.flt, hb := u.hb } := by
  obtain ⟨e, he⟩ : ∃ e : EpochEng, e = { s.ep with guar := false, lossEp := if s.ep.guar then n else s.ep.lossEp } := ⟨_, rfl⟩
  obtain ⟨w, hw⟩ : ∃ w : State, w = { s.tick t with ep := e } := ⟨_, rfl⟩
  obtain ⟨x, hx⟩ : ∃ x, x = ((s.tick t).evt EP_EVENT 8).loseGuar n := ⟨_, rfl⟩
  have hxo : RegsOnly [EP_EVENT] w x := by
    rw [hx, hw, he]
    unfold State.loseGuar
    by_cases hg : s.ep.guar = true
    · rw [if_pos (show ((s.tick t).evt EP_EVENT 8).ep.guar = true from hg), if_pos hg]
      exact ((RegsOnly.refl [EP_EVENT] { s.tick t with ep := { s.ep with guar := false, lossEp := n } }).evt (by simp) 8).evt (by simp) 9
    · have hgf : s.ep.guar = false := by simpa using hg
      rw [if_neg (show ¬((s.tick t).evt EP_EVENT 8).ep.guar = true from hg), if_neg hg, ← hgf]
      exact (RegsOnly.refl [EP_EVENT] (s.tick t)).evt (by simp) 8
  have hbit : x.bit EP_EVENT 8 = true := by
    rw [hx]
    exact bit_loseGuar _ (by decide) (bit_evt_same _ _ _ (by decide))
  have hws : sameRegs [EP_EVENT] s x := hxo.same.left (by rw [hw]; rfl)
  have hxf : x.fld FLT_STATUS 0 5 = 0 := (hws.fld (by decide) _ _).trans hf
  have hstamp : x.stampEp = (s.tick t).stampEp := by
    rw [hxo.stampEp (by decide), hw, he]
    rfl
  obtain ⟨y, hy⟩ : ∃ y, y = x.noted 3 0x33 0x20 0xFF x.stampEp x.now := ⟨_, rfl⟩
  have heq : s.epochOverrun t = { y with flt := { x.flt with holdAt := some ((s.tick t).stampEp + 1) } } := by
    unfold State.epochOverrun
    extract_lets v
    simp only [show v.ep = s.ep from rfl, hr]
    rw [if_neg (show ¬t < v.epochEnd s.ep.runIn from Nat.not_lt.2 ht), show (v.evt EP_EVENT 8).loseGuar n = x from hx.symm, hy, ← hstamp]
    have hxframe := hxo.frame
    exact raiseFault_f3 _ _ _ hxf (by rw [hxframe, hw]; exact hm) (by rw [hxframe, hw]; exact hsw) (by rw [hxframe, hw, he])
  have hnote : faultNoted 3 0x33 0x20 0xFF s y := by
    rw [hy]
    exact (noted_now x (cls := 3) (by decide) (by decide) (by decide) (by decide)).left (hws.rdN (by decide)).symm
  have hyo : RegsOnly (EP_EVENT :: faultRegs 3) w y := by
    rw [hy]
    exact (hxo.mono (by simp)).trans ((noted_only ..).mono (by simp))
  have hbit' : y.bit EP_EVENT 8 = true := by
    rw [hy, (noted_only ..).same.bit (by decide)]
    exact hbit
  have hsame : sameRegs (EP_EVENT :: faultRegs 3) s y := hyo.same.left (by rw [hw]; rfl)
  have hflt : x.flt = s.flt := by rw [hxo.frame, hw]; rfl
  obtain ⟨R, hR⟩ := hyo.regs_eq
  rw [hR, hflt] at heq
  rw [hR] at hnote hbit' hsame
  have hl : s.ep.guar = true → e.lossEp = n := fun hg => by rw [he]; exact if_pos hg
  have hee : e = { s.ep with guar := false, lossEp := e.lossEp } := by rw [he]
  have hg : e.guar = false := by rw [he]
  clear he
  subst hw
  exact after_of rfl heq fun b _ => ⟨hbit', hnote, rfl, hg, hl, hm, hsame, by rw [← hee]; rfl⟩

/-- Differing digests on the Shadow. -/
theorem after_digestsDiffer {s : State} {t n own d : Nat} (hp : s.paired = true) (hs : s.ep.sent.contains n = true) (ht : s.epochEnd n + 4 * s.elen ≤ t)
    (ho : assoc s.ep.digests n = some own) (hd : d ≠ own) (hm : s.mode = .shadow) (hf : s.fld FLT_STATUS 0 5 = 0) :
    After (.ledgerCompare t n (some d) (some (s.outcomeOf n))) s fun u =>
      u.bit EP_EVENT 4 = true ∧ faultNoted 0 0x06 0x20 0xFF s u ∧ u.rdN (EP_CNT 6) = (s.rdN (EP_CNT 6) + 1) % 2 ^ 32 ∧ u.tw.inStep = false ∧ u.mode = .shadow ∧
      sameRegs (EP_EVENT :: EP_CNT 6 :: faultRegs 0) s u := by
  obtain ⟨x, hx⟩ : ∃ x, x = (s.tick t).evt EP_EVENT 4 := ⟨_, rfl⟩
  obtain ⟨y, hy⟩ : ∃ y, y = x.noted 0 0x06 0x20 0xFF x.stampEp x.now := ⟨_, rfl⟩
  obtain ⟨z, hz⟩ : ∃ z, z = y.inc (EP_CNT 6) := ⟨_, rfl⟩
  obtain ⟨v, hv⟩ : ∃ v, v = z.leaveGuar n := ⟨_, rfl⟩
  have hxo : RegsOnly [EP_EVENT] (s.tick t) x := by
    rw [hx]
    exact (RegsOnly.refl [EP_EVENT] _).evt (by simp) 4
  have hxs : sameRegs [EP_EVENT] s x := hxo.same.left rfl
  have hyo : RegsOnly (faultRegs 0) x y := by
    rw [hy]
    exact noted_only ..
  have hzo : RegsOnly [EP_CNT 6] y z := by
    rw [hz]
    exact (RegsOnly.refl [EP_CNT 6] y).inc (by simp) 1
  have hzm : z.mode = .shadow := by rw [hzo.frame, hyo.frame, hxo.frame]; exact hm
  have hv' : v = z.leaveStep.loseGuar n := by
    rw [hv, State.leaveGuar, hzm]
    rfl
  have hvs : SameStamp [EP_EVENT] z v := by
    rw [hv']
    exact (leaveStep_sameStamp _ z).trans (loseGuar_sameStamp _ n)
  have hstep : z.leaveStep = z.onTw (fun w => { w with inStep := false, catchUp := 0 }) := by
    rw [State.leaveStep, hzm]
    rfl
  have hvk : Keeps 0x420 z.leaveStep v := by
    rw [hv']
    exact State.loseGuar_keeps rfl (.refl _ _) n
  have hvtw : v.tw.inStep = false := by
    rw [show v.tw = z.leaveStep.tw from hvk.at_ 21 rfl, hstep]
    rfl
  have hvm : v.mode = .shadow := by
    rw [show v.mode = z.leaveStep.mode from hvk.at_ 4 rfl, hstep]
    exact hzm
  have heq := ledgerCompare_eq d (s.outcomeOf n) hp hs ht ho
  rw [if_pos (by simpa using hd), compareOutcomes_same, show (s.tick t).digestsDiffer n = v from by
    have hfl : (s.tick t).flagEpoch 4 = z := by
      rw [hz, hy, State.flagEpoch, ← hx, notice_free (s := x) _ _ _ ((hxs.fld (a := FLT_STATUS) (by decide) _ _).trans hf)]
    rw [State.digestsDiffer, hfl, hzm, hv]
    rfl] at heq
  have hnz : faultNoted 0 0x06 0x20 0xFF s z := by
    have h1 : faultNoted 0 0x06 0x20 0xFF s y := by
      rw [hy]
      exact (noted_now x (cls := 0) (by decide) (by decide) (by decide) (by decide)).left (hxs.rdN (by decide)).symm
    exact h1.right (fun a ha => hzo.same a fun h => absurd (List.mem_singleton.1 h ▸ ha) (by decide)) (hzo.stampEp (by decide)) (by rw [hzo.frame])
  have hnv : faultNoted 0 0x06 0x20 0xFF s v :=
    hnz.right (fun a ha => hvs.same a fun h => absurd (List.mem_singleton.1 h ▸ ha) (by decide)) (hvs.stampEp (by decide)) hvs.now
  have hbit : v.bit EP_EVENT 4 = true := by
    rw [hv']
    refine bit_loseGuar _ (by decide) ?_
    rw [(leaveStep_sameStamp [] z).same.bit (by simp), hzo.same.bit (by decide), hyo.same.bit (by decide), hx]
    exact bit_evt_same _ _ _ (by decide)
  have hcnt : v.rdN (EP_CNT 6) = (s.rdN (EP_CNT 6) + 1) % 2 ^ 32 := by
    rw [hvs.same.rdN (by decide), hz, rdN_inc_same, hyo.same.rdN (by decide), hxs.rdN (by decide)]
  have hsame : sameRegs (EP_EVENT :: EP_CNT 6 :: faultRegs 0) s v :=
    (((hxs.mono (by simp)).trans (hyo.same.mono fun a ha => List.mem_cons_of_mem _ (List.mem_cons_of_mem _ ha))).trans (hzo.same.mono (by simp))).trans
      (hvs.same.mono (by simp))
  clear hv hv' hvs hvk
  exact after_of rfl heq fun b _ => ⟨hbit, hnv, hcnt, hvtw, hvm, hsame⟩

/-- A Shadow not armed for a swap command when its peer was. -/
theorem after_notArmed {s : State} {t n own : Nat} {a b : CmdOutcome} (hp : s.paired = true) (hs : s.ep.sent.contains n = true)
    (ht : s.epochEnd n + 4 * s.elen ≤ t) (ho : assoc s.ep.digests n = some own) (hj : s.tw.joinAt = none) (hout : s.ep.outcomes = [{ epoch := n, cmds := [a] }])
    (ha : a.swap = true) (haa : a.armed = false) (hba : b.armed = true) (hm : s.mode = .shadow) (hf : s.fld FLT_STATUS 0 5 = 0) :
    After (.ledgerCompare t n (some own) (some { epoch := n, cmds := [b] })) s fun u =>
      faultNoted 2 0x24 0x21 0xFF s u ∧ u.tw.inStep = false ∧ u.mode = .shadow ∧ sameRegs (faultRegs 2) s u := by
  obtain ⟨y, hy⟩ : ∃ y, y = (s.tick t).noted 2 0x24 0x21 0xFF (s.tick t).stampEp (s.tick t).now := ⟨_, rfl⟩
  obtain ⟨z, hz⟩ : ∃ z : State, z = { y with flt := { y.flt with f2At := y.now, f2Iso := [] } } := ⟨_, rfl⟩
  have hyo : RegsOnly (faultRegs 2) (s.tick t) y := by
    rw [hy]
    exact noted_only ..
  have hzm : z.mode = .shadow := by rw [hz, show State.mode _ = y.mode from rfl, hyo.frame]; exact hm
  have hleave (v : State) (hv : v.mode = .shadow) : v.leaveStep = v.onTw (fun w => { w with inStep := false, catchUp := 0 }) := by
    rw [State.leaveStep, hv]
    rfl
  have hrf : ((s.tick t).raiseFault 2 0x24 0x21 0xFF).leaveStep = z.onTw (fun w => { w with inStep := false, catchUp := 0 }) := by
    have hlead : (y.mode == .lead && y.tw.peerInStep) = false := by
      rw [show y.mode = z.mode by rw [hz], hzm]
      rfl
    rw [raiseFault_free _ _ _ _ (show (s.tick t).fld FLT_STATUS 0 5 = 0 from hf), ← hy, faultResult_f2, hlead, if_neg (by decide),
      show y.f2Hit 0x21 = z by rw [hz]; rfl, hleave z hzm]
    rw [hleave (z.onTw _) hzm]
    rfl
  have hmine : s.outcomeOf n = { epoch := n, cmds := [a] } := by
    rw [State.outcomeOf, hout]
    simp
  have heq := ledgerCompare_eq own { epoch := n, cmds := [b] } hp hs ht ho
  rw [if_neg (by simp), if_neg (by rw [hj]; simp), hmine] at heq
  have hcmp : (s.tick t).compareOutcomes n { epoch := n, cmds := [a] } { epoch := n, cmds := [b] } =
      z.onTw (fun w => { w with inStep := false, catchUp := 0 }) := by
    have hone : (s.tick t).compareCmd (a, b) = ((s.tick t).raiseFault 2 0x24 0x21 0xFF).leaveStep := by
      unfold State.compareCmd
      rw [if_pos ha, if_pos (by rw [haa, hba]; rfl)]
    rw [← hrf, ← hone]
    unfold State.compareOutcomes
    extract_lets v w
    rw [if_neg (by simp)]
    rfl
  rw [hcmp] at heq
  have hnote : faultNoted 2 0x24 0x21 0xFF s y := by
    rw [hy]
    exact (noted_now (s.tick t) (cls := 2) (by decide) (by decide) (by decide) (by decide)).left rfl
  have hsame : sameRegs (faultRegs 2) s y := hyo.same.left rfl
  clear hcmp hrf hy
  subst hz
  exact after_of rfl heq fun b _ => ⟨hnote, rfl, hzm, hsame⟩

/-- Settles O28: release, completion, overrun, and the comparison of digests and outcome records. -/
theorem releaseCompletionDigests : Obligations.ReleaseCompletionDigests := by
  unfold Obligations.ReleaseCompletionDigests
  refine ⟨fun s t n ecc hsv hr hrun h0 h1 ht hl hc => after_release ecc hsv hr hrun h0 h1 ht hl hc, fun s t n hr => after_complete hr,
    fun s t n hr hm ht hf hsw => after_overrun hr hm ht hf hsw, fun s t n own hp hs ht ho => ⟨fun hj => ?_, fun d hd hm hf => ?_, fun a b hj hout ha haa hba hm hf => ?_⟩⟩
  · have heq := ledgerCompare_eq own (s.outcomeOf n) hp hs ht ho
    rw [if_neg (by simp), if_neg (by rw [hj]; simp), compareOutcomes_same] at heq
    exact after_hb rfl heq rfl fun b hb => ⟨rfl, rfl, hb⟩
  · exact after_digestsDiffer hp hs ht ho hd hm hf
  · exact after_notArmed hp hs ht ho hj hout ha haa hba hm hf

end Sys2Proof.Proofs
end

section
/-! PROOFS. Key update packets and commits of the key store (R370, R382 to R395, R554). -/
set_option Elab.async false
namespace Sys2Proof.Machine
open Sys2Proof

/-! ### Checks and staging (R386, R387) -/

theorem bits_above_setFld (s : State) (a w v : Nat) {k : Nat} (hk : k < 32) (h : w ≤ k) : (s.setFld a 0 w v).bit a k = s.bit a k :=
  bit_setFld_ne s a 0 w v k hk (.inr (by omega))

/-- The packet's check, with what it shows of the code, the slot and the operation. -/
def State.checkShown (s : State) (t : Nat) : State :=
  (((s.tick t).setFld KS_UPST 8 4 (s.packetChecks s.packet).1).setFld KS_UPST 16 5 (s.packetChecks s.packet).2.slot).setFld KS_UPST 24 3
    (s.packetChecks s.packet).2.op

theorem checkShown_facts (s : State) (t : Nat) :
    RegsOnly [KS_UPST] (s.tick t) (s.checkShown t) ∧ (s.checkShown t).fld KS_UPST 8 4 = (s.packetChecks s.packet).1 % 16 := by
  refine ⟨(((RegsOnly.refl [KS_UPST] _).setFld (by simp) _ _ _).setFld (by simp) _ _ _).setFld (by simp) _ _ _, ?_⟩
  rw [State.checkShown, fld_setFld_ne _ _ _ _ _ _ _ (by decide) (.inl (by decide)), fld_setFld_ne _ _ _ _ _ _ _ (by decide) (.inl (by decide)),
    fld_setFld_same _ _ _ _ _ (by decide)]
  rfl

/-- The key check value of a staged key shown (R391). -/
def State.showCheckValue (s : State) (u : KeyUpd) : State :=
  if u.op == 1 then (s.wrN KS_UPKCV_L (leAt (kcvOf u.data u.slot) 0 4)).wrN KS_UPKCV_H (leAt (kcvOf u.data u.slot) 4 4) else s

theorem showCheckValue_only (s : State) (u : KeyUpd) : RegsOnly [KS_UPKCV_L, KS_UPKCV_H] s (s.showCheckValue u) :=
  .ite (fun _ => ((RegsOnly.refl _ s).wrN (by simp) _).wrN (by simp) _) fun _ => .refl _ s

theorem keyCheckComplete_eq {s : State} (t : Nat) (hd : s.dieOn = true) (hs : s.fld KS_UPST 0 3 = 1) : s.keyCheckComplete t =
    if (s.packetChecks s.packet).1 == 0 then
      (({ s.checkShown t with ks := { s.ks with upd := some (s.packetChecks s.packet).2, effect := none } }.setFld KS_UPST 0 3 2).evt KS_EVENT 0).showCheckValue
        (s.packetChecks s.packet).2
    else (((s.checkShown t).setFld KS_UPST 0 3 0).evt KS_EVENT 1).inc (KS_CNT 2) := by
  unfold State.keyCheckComplete
  rw [if_pos (by rw [hd, hs]; rfl)]
  rfl

theorem fld_evt_ne (s : State) {a b : Nat} (k : Nat) {lo w : Nat} (h : b ≠ a) : (s.evt a k).fld b lo w = s.fld b lo w := fld_wrN_ne _ _ _ _ _ _ h

theorem fld_inc_ne (s : State) {a b : Nat} (n : Nat) {lo w : Nat} (h : b ≠ a) : (s.inc a n).fld b lo w = s.fld b lo w := fld_wrN_ne _ _ _ _ _ _ h

/-! ### Commits (R392 to R395) -/

/-- The bank not in force with the header of a commit. -/
def State.headerBanks (s : State) (c : Commit) : List NvBank :=
  updAt s.ks.banks (1 - s.ks.bank) fun b => { b with ok := false, hdr := some (commitHdr (nth s.ks.banks s.ks.bank).seq c) }

theorem beginCommits_begins {s : State} {c : Commit} (cs : List Commit) (hw : wornFor s.nvOther.wear c = false) :
    State.beginCommits (c :: cs) s = { s with ks := { s.ks with commits := c :: cs, banks := s.headerBanks c } } := by
  rw [State.beginCommits, if_neg (by rw [hw]; decide)]
  rfl

/-- A commit asked for with none waiting begins, where wear allows it. -/
theorem commit_begins {s : State} {c : Commit} (hc : s.ks.commits = []) (hw : wornFor s.nvOther.wear c = false) :
    s.commit c = { s with ks := { s.ks with commits := [c], banks := s.headerBanks c } } := by
  unfold State.commit
  simp only [hc]
  exact beginCommits_begins [] hw

/-- The bank in force keeps its contents, the other has the header. -/
theorem headerBanks_facts {s : State} (c : Commit) (hl : s.ks.banks.length = 2) (hb : s.ks.bank < 2) :
    nth (s.headerBanks c) s.ks.bank = nth s.ks.banks s.ks.bank ∧ nth (s.headerBanks c) (1 - s.ks.bank) =
      { nth s.ks.banks (1 - s.ks.bank) with ok := false, hdr := some (commitHdr (nth s.ks.banks s.ks.bank).seq c) } := by
  unfold State.headerBanks
  rw [nth_updAt, nth_updAt, if_neg (by omega), if_pos ⟨rfl, by omega⟩]
  exact ⟨rfl, rfl⟩

/-- The banks once the commit in progress has completed. -/
def State.flippedBanks (s : State) (img : NvImage) : List NvBank :=
  updAt s.ks.banks (1 - s.ks.bank) fun b => { b with seq := (nth s.ks.banks s.ks.bank).seq + 1, ok := true, img := img, wear := s.nvOther.wear + 1 }

theorem flippedBanks_facts {s : State} (img : NvImage) (hl : s.ks.banks.length = 2) (hb : s.ks.bank < 2) :
    nth (s.flippedBanks img) s.ks.bank = nth s.ks.banks s.ks.bank ∧ (nth (s.flippedBanks img) (1 - s.ks.bank)).seq = (nth s.ks.banks s.ks.bank).seq + 1 ∧
    (nth (s.flippedBanks img) (1 - s.ks.bank)).ok = true ∧ (nth (s.flippedBanks img) (1 - s.ks.bank)).img = img ∧
    (nth (s.flippedBanks img) (1 - s.ks.bank)).wear = s.nvOther.wear + 1 := by
  unfold State.flippedBanks
  rw [nth_updAt, nth_updAt, if_neg (by omega), if_pos ⟨rfl, by omega⟩]
  exact ⟨rfl, rfl, rfl, rfl, rfl⟩

/-- The key store with a commit's change in the image and the other bank in force. -/
def State.flipped (s : State) (t : Nat) (c : Commit) : State :=
  { s.tick t with ks := { s.ks with cur := s.ks.cur.apply c, banks := s.flippedBanks (s.ks.cur.apply c), bank := 1 - s.ks.bank } }

theorem flipBank_eq {s : State} (t : Nat) (c : Commit) (hw : s.nvOther.wear < 94999) :
    { s.tick t with ks := { s.ks with cur := s.ks.cur.apply c } }.flipBank = s.flipped t c := by
  unfold State.flipBank
  extract_lets o seq was img b x
  rw [if_neg]
  · rfl
  · show ¬((s.nvOther.wear + 1 == 95000 && s.dieOn) = true)
    simp
    omega

/-- A commit that completes: what follows for its update, with no commit left. -/
theorem nvkmCommitComplete_ok {s : State} {c : Commit} (t : Nat) (hc : s.ks.commits = [c]) (hw : s.nvOther.wear < 94999) : s.nvkmCommitComplete t true =
    State.beginCommits [] (match c with
      | .update u live => (s.flipped t c).updateCommitted u live
      | _ => s.flipped t c) := by
  unfold State.nvkmCommitComplete
  simp only [hc]
  rw [show (s.tick t).ks = s.ks from rfl, if_pos trivial, flipBank_eq t c hw]
  cases c <;> rfl

/-- The machine with the last update on record (R393). -/
def State.updateShown (s : State) (u : KeyUpd) : State :=
  { s with ks := { s.ks with last := some (u.slot, u.op, 1, u.counter) } }.showLast u.slot u.op 1 u.counter

theorem updateShown_only (s : State) (u : KeyUpd) :
    RegsOnly [KS_LASTUP, KS_LASTCNT] { s with ks := { s.ks with last := some (u.slot, u.op, 1, u.counter) } } (s.updateShown u) :=
  ((RegsOnly.refl _ _).wrN (by simp) _).wrN (by simp) _

/-- A completed update waits in STATE 0x4 for its epoch, or comes into force at once where it named none (R388). -/
theorem updateCommitted_eq {s : State} (u : KeyUpd) (hd : s.dieOn = true) :
    s.updateCommitted u false = s.updateShown u ∧ (∀ a, s.ks.effect = some a → s.updateCommitted u true = (s.updateShown u).setFld KS_UPST 0 3 4) ∧
    (s.ks.effect = none → s.updateCommitted u true = (s.updateShown u).takeUpdate u false) := by
  have hset : s.setLast u 1 = s.updateShown u := if_pos hd
  have heff : (s.updateShown u).ks.effect = s.ks.effect := rfl
  unfold State.updateCommitted
  rw [hset]
  refine ⟨rfl, fun a ha => ?_, fun ha => ?_⟩
  all_goals
    dsimp only
    rw [if_pos rfl, heff, ha]

theorem take_cur (k : KeyStore) (u : KeyUpd) : (k.take u).cur = k.cur ∧ (k.take u).banks = k.banks ∧ (k.take u).bank = k.bank ∧ (k.take u).commits = k.commits := by
  unfold KeyStore.take
  split <;> exact ⟨rfl, rfl, rfl, rfl⟩

/-- An update in force outside an epoch's processing: the root registers, its count and event. -/
theorem takeUpdate_only (s : State) (u : KeyUpd) : RegsOnly [KS_UPST, KS_CNT 0, KS_EVENT] { s with ks := { s.ks.take u with upd := none, effect := none } }
    (s.takeUpdate u false) := (((RegsOnly.refl _ _).setFld (by simp) _ _ _).inc (by simp) 1).evt (by simp) 5

/-- Whatever commit completes, the bank in force is the other one with its change, and no commit is left. -/
theorem nvkmCommitComplete_frame {s : State} (t : Nat) (c : Commit) (hd : s.dieOn = true) (hc : s.ks.commits = [c]) (hw : s.nvOther.wear < 94999) :
    ∃ (k : KeyStore) (y : State), RegsOnly [KS_LASTUP, KS_LASTCNT, KS_UPST, KS_CNT 0, KS_EVENT] { s.flipped t c with ks := k } y ∧
      (k.cur = s.ks.cur.apply c ∧ k.banks = s.flippedBanks (s.ks.cur.apply c) ∧ k.bank = 1 - s.ks.bank) ∧
      s.nvkmCommitComplete t true = { y with ks := { k with commits := [] } } := by
  rw [nvkmCommitComplete_ok t hc hw]
  have hdone (k : KeyStore) (y : State) (hk : y.ks = k) : State.beginCommits [] y = { y with ks := { k with commits := [] } } := by
    rw [← hk]
    rfl
  cases c with
  | update u live =>
    obtain ⟨h1, h2, h3⟩ := updateCommitted_eq (s := s.flipped t (.update u live)) u hd
    have hshown := (updateShown_only (s.flipped t (.update u live)) u).mono (l' := [KS_LASTUP, KS_LASTCNT, KS_UPST, KS_CNT 0, KS_EVENT]) (by simp)
    cases live with
    | false => exact ⟨_, _, hshown, ⟨rfl, rfl, rfl⟩, (congrArg (State.beginCommits []) h1).trans (hdone _ _ rfl)⟩
    | true =>
      cases he : s.ks.effect with
      | some a => exact ⟨_, _, hshown.setFld (by simp) _ _ _, ⟨rfl, rfl, rfl⟩, (congrArg (State.beginCommits []) (h2 a he)).trans (hdone _ _ rfl)⟩
      | none =>
        obtain ⟨x, hx⟩ : ∃ x, x = (s.flipped t (.update u true)).updateShown u := ⟨_, rfl⟩
        rw [← hx] at hshown h3
        have hk : x.ks = { (s.flipped t (.update u true)).ks with last := some (u.slot, u.op, 1, u.counter) } := by rw [hx]; rfl
        obtain ⟨k1, k2, k3, -⟩ := take_cur x.ks u
        obtain ⟨R, hR⟩ := hshown.regs_eq
        have hto := (takeUpdate_only x u).mono (l' := [KS_LASTUP, KS_LASTCNT, KS_UPST, KS_CNT 0, KS_EVENT]) (by simp)
        have hto' : RegsOnly [KS_LASTUP, KS_LASTCNT, KS_UPST, KS_CNT 0, KS_EVENT]
            { s.flipped t (.update u true) with ks := { x.ks.take u with upd := none, effect := none } }
            { x with ks := { x.ks.take u with upd := none, effect := none } } := by
          refine ⟨?_, (hshown.same.left rfl).right rfl⟩
          generalize { x.ks.take u with upd := none, effect := none } = k
          rw [hR]
        refine ⟨_, _, hto'.trans hto, ⟨k1.trans (by rw [hk]; rfl), k2.trans (by rw [hk]; rfl), k3.trans (by rw [hk]; rfl)⟩,
          (congrArg (State.beginCommits []) (h3 he)).trans (hdone _ _ rfl)⟩
  | floor n => exact ⟨_, s.flipped t (.floor n), .refl _ _, ⟨rfl, rfl, rfl⟩, rfl⟩
  | tampCfg src v => exact ⟨_, s.flipped t (.tampCfg src v), .refl _ _, ⟨rfl, rfl, rfl⟩, rfl⟩
  | response => exact ⟨_, s.flipped t .response, .refl _ _, ⟨rfl, rfl, rfl⟩, rfl⟩

/-- A commit under way that goes on for an abandoned update (R389). -/
def Commit.orphan : Commit → Commit
  | .update u _ => .update u false
  | c => c

/-- What an abandoned update leaves but for the registers. -/
def State.abandoned (s : State) : State :=
  { s with
    ks := { s.ks with commits := s.ks.commits.map Commit.orphan, upd := none, effect := none }
    flt := { s.flt with holdAt := some (s.stampEp + 1) } }

/-- An update abandoned in Solo with no handler active is an F3 (R389). -/
theorem abandon_facts {s : State} (hm : s.mode = .solo) (hf : s.fld FLT_STATUS 0 5 = 0) (hs : s.fr.swapAt = none) (hg : s.ep.guar = false) :
    RegsOnly (KS_UPST :: KS_EVENT :: faultRegs 3) s.abandoned s.abandon ∧ s.abandon.fld KS_UPST 0 3 = 0 ∧ s.abandon.bit KS_EVENT 6 = true ∧
      faultNoted 3 0x35 0x23 0xFF s s.abandon ∧ s.abandon.stampEp = s.stampEp := by
  obtain ⟨w, hw⟩ : ∃ w : State, w = { s with ks := { s.ks with commits := s.ks.commits.map Commit.orphan, upd := none, effect := none } } := ⟨_, rfl⟩
  obtain ⟨x, hx⟩ : ∃ x, x = (w.setFld KS_UPST 0 3 0).evt KS_EVENT 6 := ⟨_, rfl⟩
  have horphan : s.abandon = x.raiseFault 3 0x35 0x23 0xFF := by
    rw [hx, hw]
    unfold State.abandon
    extract_lets dead y z
    have hd : dead = Commit.orphan := by
      funext c
      cases c <;> rfl
    rw [show z = { s with ks := { s.ks with commits := s.ks.commits.map dead } }.endUpdate from rfl, hd]
    rfl
  have hxo : RegsOnly [KS_UPST, KS_EVENT] w x := by
    rw [hx]
    exact ((RegsOnly.refl _ w).setFld (by simp) _ _ _).evt (by simp) 6
  have hxs : sameRegs [KS_UPST, KS_EVENT] s x := hxo.same.left (by rw [hw])
  have hxf : x.fld FLT_STATUS 0 5 = 0 := (hxs.fld (by decide) _ _).trans hf
  obtain ⟨y, hy⟩ : ∃ y, y = x.noted 3 0x35 0x23 0xFF x.stampEp x.now := ⟨_, rfl⟩
  have hyo : RegsOnly (faultRegs 3) x y := by
    rw [hy]
    exact noted_only ..
  have hstamp : x.stampEp = s.stampEp := by
    rw [hxo.stampEp (by decide), hw]
    rfl
  have hframe := hxo.frame
  have heq : s.abandon = { y with flt := { s.flt with holdAt := some (s.stampEp + 1) } } := by
    rw [horphan, hy, ← hstamp, show s.flt = x.flt by rw [hframe, hw]]
    exact raiseFault_f3 _ _ _ hxf (by rw [hframe, hw]; exact hm) (by rw [hframe, hw]; exact hs) (by rw [hframe, hw]; exact hg)
  have hnote : faultNoted 3 0x35 0x23 0xFF s y := by
    rw [hy]
    exact (noted_now x (cls := 3) (by decide) (by decide) (by decide) (by decide)).left (hxs.rdN (by decide)).symm
  have hall : RegsOnly (KS_UPST :: KS_EVENT :: faultRegs 3) w y := (hxo.mono (by simp)).trans (hyo.mono (by simp))
  have h0 : y.fld KS_UPST 0 3 = 0 := by
    rw [hyo.same.fld (by decide), hx, fld_evt_ne _ _ (by decide), fld_setFld_same _ _ _ _ _ (by decide)]
    rfl
  have h6 : y.bit KS_EVENT 6 = true := by
    rw [hyo.same.bit (by decide), hx]
    exact bit_evt_same _ _ _ (by decide)
  have hys : y.stampEp = s.stampEp := (hyo.stampEp (by decide)).trans hstamp
  rw [heq]
  refine ⟨⟨?_, (hall.same.left (by rw [hw]; rfl)).right rfl⟩, h0, h6, hnote, hys⟩
  obtain ⟨R, hR⟩ := hall.regs_eq
  rw [hR, hw]
  rfl

end Sys2Proof.Machine
end

section
namespace Sys2Proof.Proofs
open Sys2Proof Sys2Proof.Machine

theorem secureHost_tick {s : State} {ms : Master} {w : World} (t : Nat) (h : s.secureHost ms w) : (s.tick t).secureHost ms w := h

/-- A host starts the check of the packet. -/
theorem after_packetCheck (s : State) (t : Nat) (ms : Master) (w : World) (hs : s.secureHost ms w) (h0 : s.fld KS_UPST 0 3 = 0) :
    After (.keyPacketCheck t ms w) s fun u =>
      u.fld KS_UPST 0 3 = 1 ∧ (∀ k < 32, 3 ≤ k → u.bit KS_UPST k = s.bit KS_UPST k) ∧ sameRegs [KS_UPST] s u ∧
      u = { s with now := max s.now t, regs := u.regs, hb := u.hb } ∧ sameBridge s u := by
  obtain ⟨hre, hh, hw⟩ := hs
  obtain ⟨y, hy⟩ : ∃ y, y = (s.tick t).setFld KS_UPST 0 3 1 := ⟨_, rfl⟩
  have heq : (s.tick t).busWrite ms w KS_UPCTL 1 1 = y := by
    refine busWrite_starts .ksUp (reaches_tick t hre) (by decide) (by decide +kernel) ?_ (by decide) (by decide) (by decide) ?_
      (by rw [hy]; exact tbRole_congr (((RegsOnly.refl [KS_UPST] (s.tick t)).setFld (by simp) _ _ _).same _ (by decide))) (by rw [hy]; rfl)
    · show ((isHost ms || ms == .scarf) && worldOf ms w == .secure) = true
      rw [hh, hw]
      rfl
    · show (s.tick t).keyPacketCheck (s.tick t).now = y
      rw [hy, State.keyPacketCheck, if_pos (by show (s.dieOn && s.fld KS_UPST 0 3 == 0) = true; rw [hre.1, h0]; rfl), tick_now]
  have hyo : RegsOnly [KS_UPST] (s.tick t) y := by
    rw [hy]
    exact (RegsOnly.refl [KS_UPST] (s.tick t)).setFld (by simp) _ _ _
  have h1 : y.fld KS_UPST 0 3 = 1 := by
    rw [hy, fld_setFld_same _ _ _ _ _ (by decide)]
    rfl
  have h2 (k : Nat) (hk : k < 32) (h3 : 3 ≤ k) : y.bit KS_UPST k = s.bit KS_UPST k := by
    rw [hy]
    exact bits_above_setFld (s.tick t) KS_UPST 3 1 hk h3
  have hsame := hyo.same
  obtain ⟨R, hR⟩ := hyo.regs_eq
  rw [hR] at heq h1 hsame
  simp only [hR] at h2
  exact after_hb rfl heq rfl fun b hb => ⟨h1, h2, (hsame.left rfl).right rfl, rfl, hb⟩

/-- The check of the packet ends. -/
theorem after_checkComplete (s : State) (t : Nat) (hd : s.dieOn = true) (h1 : s.fld KS_UPST 0 3 = 1) : After (.keyCheckComplete t) s fun u =>
    u.fld KS_UPST 8 4 = (s.packetChecks s.packet).1 % 16 ∧ sameRegs [KS_UPST, KS_EVENT, KS_CNT 2, KS_UPKCV_L, KS_UPKCV_H] s u ∧
    u = { s with now := max s.now t, regs := u.regs, ks := u.ks, hb := u.hb } ∧
    ((s.packetChecks s.packet).1 = 0 → u.fld KS_UPST 0 3 = 2 ∧ u.bit KS_EVENT 0 = true ∧ u.ks = { s.ks with upd := some (s.packetChecks s.packet).2, effect := none } ∧
      u.rd (KS_CNT 2) = s.rd (KS_CNT 2)) ∧
    ((s.packetChecks s.packet).1 ≠ 0 → u.fld KS_UPST 0 3 = 0 ∧ u.bit KS_EVENT 1 = true ∧ u.ks = s.ks ∧ u.rdN (KS_CNT 2) = (s.rdN (KS_CNT 2) + 1) % 2 ^ 32) := by
  have heq := keyCheckComplete_eq t hd h1
  obtain ⟨hxo, hcode⟩ := checkShown_facts s t
  obtain ⟨x, hx⟩ : ∃ x, x = s.checkShown t := ⟨_, rfl⟩
  obtain ⟨code, hc⟩ : ∃ c, c = (s.packetChecks s.packet).1 := ⟨_, rfl⟩
  obtain ⟨upd, hu⟩ : ∃ c, c = (s.packetChecks s.packet).2 := ⟨_, rfl⟩
  rw [← hx] at heq hxo hcode
  rw [← hc] at heq hcode ⊢
  rw [← hu] at heq ⊢
  obtain ⟨R, hR⟩ := hxo.regs_eq
  have hxs : sameRegs [KS_UPST] s x := hxo.same.left rfl
  by_cases h0 : code = 0
  · obtain ⟨w, hw⟩ : ∃ w : State, w = { s.tick t with ks := { s.ks with upd := some upd, effect := none } } := ⟨_, rfl⟩
    obtain ⟨v, hv⟩ : ∃ v : State, v = ({ x with ks := { s.ks with upd := some upd, effect := none } }.setFld KS_UPST 0 3 2).evt KS_EVENT 0 := ⟨_, rfl⟩
    have hvo : RegsOnly [KS_UPST, KS_EVENT] w v := by
      have h : RegsOnly [KS_UPST, KS_EVENT] w { x with ks := { s.ks with upd := some upd, effect := none } } := by
        refine ⟨by rw [hw, hR], ?_⟩
        rw [hw]
        exact ((hxo.same.mono (by simp)).left rfl).right rfl
      rw [hv]
      exact (h.setFld (by simp) _ _ _).evt (by simp) 0
    have hko := showCheckValue_only v upd
    rw [if_pos (by rw [h0]; rfl), ← hv] at heq
    have h2 : (v.showCheckValue upd).fld KS_UPST 0 3 = 2 := by
      rw [hko.same.fld (by decide), hv, fld_evt_ne _ _ (by decide), fld_setFld_same _ _ _ _ _ (by decide)]
      rfl
    have h8 : (v.showCheckValue upd).fld KS_UPST 8 4 = code % 16 := by
      rw [hko.same.fld (by decide), hv, fld_evt_ne _ _ (by decide), fld_setFld_ne _ _ _ _ _ _ _ (by decide) (.inr (by decide))]
      exact ((sameRegs.of_regs (l := []) (s := x) rfl).fld (by simp) _ _).trans hcode
    have he : (v.showCheckValue upd).bit KS_EVENT 0 = true := by
      rw [hko.same.bit (by decide), hv]
      exact bit_evt_same _ _ _ (by decide)
    have hwr : w.regs = s.regs := by rw [hw]; rfl
    have hall := (hvo.mono (l' := [KS_UPST, KS_EVENT, KS_CNT 2, KS_UPKCV_L, KS_UPKCV_H]) (by simp)).trans (hko.mono (by simp))
    have hsame : sameRegs [KS_UPST, KS_EVENT, KS_CNT 2, KS_UPKCV_L, KS_UPKCV_H] s (v.showCheckValue upd) := hall.same.left hwr.symm
    have hcnt : (v.showCheckValue upd).rd (KS_CNT 2) = s.rd (KS_CNT 2) :=
      ((hko.same _ (by decide)).trans (hvo.same _ (by decide))).trans (rd_congr hwr _)
    obtain ⟨Q, hQ⟩ := hall.regs_eq
    rw [hQ] at heq h2 h8 he hsame hcnt
    subst hw
    exact after_of rfl heq fun b _ => ⟨h8, hsame, rfl, fun _ => ⟨h2, he, rfl, hcnt⟩, fun h => absurd h0 h⟩
  · obtain ⟨v, hv⟩ : ∃ v : State, v = ((x.setFld KS_UPST 0 3 0).evt KS_EVENT 1).inc (KS_CNT 2) := ⟨_, rfl⟩
    rw [if_neg (by simpa using h0), ← hv] at heq
    have hvo : RegsOnly [KS_UPST, KS_EVENT, KS_CNT 2, KS_UPKCV_L, KS_UPKCV_H] (s.tick t) v := by
      rw [hv]
      exact (((hxo.mono (by simp)).setFld (by simp) _ _ _).evt (by simp) 1).inc (by simp) 1
    have h2 : v.fld KS_UPST 0 3 = 0 := by
      rw [hv, fld_inc_ne _ _ (by decide), fld_evt_ne _ _ (by decide), fld_setFld_same _ _ _ _ _ (by decide)]
      rfl
    have h8 : v.fld KS_UPST 8 4 = code % 16 := by
      rw [hv, fld_inc_ne _ _ (by decide), fld_evt_ne _ _ (by decide), fld_setFld_ne _ _ _ _ _ _ _ (by decide) (.inr (by decide))]
      exact hcode
    have he : v.bit KS_EVENT 1 = true := by
      rw [hv, State.inc, bit_wrN_ne _ _ _ _ _ (by decide)]
      exact bit_evt_same _ _ _ (by decide)
    have hcnt : v.rdN (KS_CNT 2) = (s.rdN (KS_CNT 2) + 1) % 2 ^ 32 := by
      rw [hv, rdN_inc_same, rdN_evt_ne _ _ _ _ (by decide), rdN_setFld_ne _ _ _ _ _ _ (by decide), hxs.rdN (by decide)]
    have hsame : sameRegs [KS_UPST, KS_EVENT, KS_CNT 2, KS_UPKCV_L, KS_UPKCV_H] s v := hvo.same.left rfl
    obtain ⟨Q, hQ⟩ := hvo.regs_eq
    rw [hQ] at heq h2 h8 he hsame hcnt
    exact after_of rfl heq fun b _ => ⟨h8, hsame, rfl, fun h => absurd h h0, fun _ => ⟨h2, he, rfl, hcnt⟩⟩

/-- A staged packet is discarded, and nothing from STATE 0x3 on. -/
theorem after_discard (s : State) (ms : Master) (w : World) (hs : s.secureHost ms w) :
    (s.fld KS_UPST 0 3 = 2 → After (.keyPacketDiscard ms w) s fun u =>
      u.fld KS_UPST 0 3 = 0 ∧ u.ks = { s.ks with upd := none, effect := none } ∧ sameRegs [KS_UPST] s u ∧ u = { s with regs := u.regs, ks := u.ks, hb := u.hb } ∧ sameBridge s u) ∧
    (3 ≤ s.fld KS_UPST 0 3 → After (.keyPacketDiscard ms w) s fun u => u = { s with hb := u.hb } ∧ sameBridge s u) := by
  obtain ⟨hre, hh, hw⟩ := hs
  have hwrite (y : State) (hy : s.keyPacketDiscard = y) (hr : y.tbRole = s.tbRole) (hb : y.hb = s.hb) : s.busWrite ms w KS_UPCTL 2 2 = y := by
    refine busWrite_starts .ksUp hre (by decide) (by decide +kernel) ?_ (by decide) (by decide) (by decide) ?_ hr (by rw [hb])
    · show ((isHost ms || ms == .scarf) && worldOf ms w == .secure) = true
      rw [hh, hw]
      rfl
    · exact hy
  refine ⟨fun h2 => ?_, fun h3 => ?_⟩
  · obtain ⟨x, hx⟩ : ∃ x : State, x = { s with ks := { s.ks with upd := none, effect := none } } := ⟨_, rfl⟩
    obtain ⟨y, hy⟩ : ∃ y, y = x.setFld KS_UPST 0 3 0 := ⟨_, rfl⟩
    have hyo : RegsOnly [KS_UPST] x y := by
      rw [hy]
      exact (RegsOnly.refl [KS_UPST] x).setFld (by simp) _ _ _
    have h0 : y.fld KS_UPST 0 3 = 0 := by
      rw [hy, fld_setFld_same _ _ _ _ _ (by decide)]
      rfl
    have hsame : sameRegs [KS_UPST] s y := hyo.same.left (by rw [hx])
    have heq : s.busWrite ms w KS_UPCTL 2 2 = y := by
      refine hwrite y ?_ (tbRole_congr (hsame _ (by decide))) (by rw [hyo.frame, hx])
      rw [State.keyPacketDiscard, if_pos (by rw [hre.1, h2]; rfl), hy, hx]
      rfl
    obtain ⟨R, hR⟩ := hyo.regs_eq
    rw [hR] at heq h0 hsame
    subst hx
    exact after_hb rfl heq rfl fun b hb => ⟨h0, rfl, hsame.right rfl, rfl, hb⟩
  · refine after_hb rfl (hwrite s ?_ rfl rfl) rfl fun b hb => ⟨rfl, hb⟩
    exact if_neg (by rw [hre.1]; simp; omega)

/-- A command of an epoch being processed, whose meaning changes no epoch and no bridge. -/
theorem after_inProcessing {i : Instr} {s x : State} {needsEpoch : Bool} {f : State → State} {P : State → Prop}
    (h : exec i s = .next (s.settle (s.processed needsEpoch f))) (hp : s.inProcessing) (e : f s = x) (hr : x.ep.running = s.ep.running) (hx : x.hb = s.hb)
    (k : ∀ b : Bridge, sameBridge s { x with hb := b } → P { x with hb := b }) : After i s P := by
  obtain ⟨hd, ha, hrun⟩ := hp
  exact after_hb h ((processed_running hd ha (by rw [e, hr]; exact hrun)).trans e) hx k

theorem keyUpdateApply_serving {s : State} (c a : Nat) (h : s.inService) : s.keyUpdateApply c a =
    match if s.fld KS_UPST 0 3 == 2 then s.ks.upd else none with
    | none => ((s.cEvt KS_EVENT 4).cInc (KS_CNT 1)).recordCmd c { swap := false, accepted := false, event := 4 }
    | some u =>
      if a < c + s.keyLead then ((s.cEvt KS_EVENT 3).cInc (KS_CNT 1)).recordCmd c { swap := false, accepted := false, event := 3 }
      else ((s.startUpdate u (some a)).cEvt KS_EVENT 2).recordCmd c { swap := false, accepted := true } := by
  obtain ⟨⟨-, ha, -⟩, hsv, -⟩ := h
  unfold State.keyUpdateApply
  extract_lets staged
  rw [if_neg (by rw [ha]; decide), if_pos hsv] <;> rfl

/-- An apply command without a staged update, or too early, is refused. -/
theorem after_applyRefused {s : State} {c a : Nat} (k : Nat) (hs : s.inService)
    (h : s.keyUpdateApply c a = ((s.cEvt KS_EVENT k).cInc (KS_CNT 1)).recordCmd c { swap := false, accepted := false, event := k }) :
    After (.keyUpdateApply c a) s fun u =>
      u.held = s.held ++ [.or KS_EVENT (2 ^ k), .add (KS_CNT 1) 1] ∧ u = { s with held := u.held, ep := { s.ep with outcomes := u.ep.outcomes }, hb := u.hb } ∧ sameBridge s u :=
  after_inProcessing rfl hs.1 h rfl rfl fun _ hb => ⟨List.append_assoc .., rfl, hb⟩

/-- An apply command in time begins the commit of the staged update. -/
theorem after_applyBegins {s : State} {c a : Nat} {x : KeyUpd} (hs : s.inService) (h2 : s.fld KS_UPST 0 3 = 2) (hu : s.ks.upd = some x)
    (ha : c + cdiv 50000000 s.elen ≤ a) (hc : s.ks.commits = []) (hw : s.nvOther.wear < 100000) (hl : s.ks.banks.length = 2) (hb : s.ks.bank < 2) :
    After (.keyUpdateApply c a) s fun u =>
      u.fld KS_UPST 0 3 = 3 ∧ u.ks = { s.ks with effect := some a, commits := [.update x true], banks := u.ks.banks } ∧
      nth u.ks.banks s.ks.bank = nth s.ks.banks s.ks.bank ∧
      nth u.ks.banks (1 - s.ks.bank) = { nth s.ks.banks (1 - s.ks.bank) with ok := false, hdr := some ((nth s.ks.banks s.ks.bank).seq + 1, x.slot, x.op, x.counter) } ∧
      u.held = s.held ++ [.or KS_EVENT (2 ^ 2)] ∧ sameRegs [KS_UPST] s u ∧
      u = { s with regs := u.regs, held := u.held, ep := { s.ep with outcomes := u.ep.outcomes }, ks := u.ks, hb := u.hb } ∧ sameBridge s u := by
  obtain ⟨v, hv⟩ : ∃ v : State, v = { s with ks := { s.ks with effect := some a } } := ⟨_, rfl⟩
  obtain ⟨y, hy⟩ : ∃ y, y = v.setFld KS_UPST 0 3 3 := ⟨_, rfl⟩
  have hyo : RegsOnly [KS_UPST] v y := by
    rw [hy]
    exact (RegsOnly.refl [KS_UPST] v).setFld (by simp) _ _ _
  have h3 : y.fld KS_UPST 0 3 = 3 := by
    rw [hy, fld_setFld_same _ _ _ _ _ (by decide)]
    rfl
  have hsame : sameRegs [KS_UPST] s y := hyo.same.left (by rw [hv])
  obtain ⟨R, hR⟩ := hyo.regs_eq
  have hks : y.ks = { s.ks with effect := some a } := by rw [hR, hv]
  have hother : y.nvOther = s.nvOther := by rw [State.nvOther, hks]; rfl
  have hbanks : y.headerBanks (.update x true) = s.headerBanks (.update x true) := by rw [State.headerBanks, hks]; rfl
  obtain ⟨hb1, hb2⟩ := headerBanks_facts (.update x true) hl hb
  have hstart : s.startUpdate x (some a) = { y with ks := { y.ks with commits := [.update x true], banks := s.headerBanks (.update x true) } } := by
    have hst : s.startUpdate x (some a) = y.commit (.update x true) := by rw [hy, hv]; rfl
    rw [hst, ← hbanks]
    exact commit_begins (by rw [hks]; exact hc) (by rw [hother]; show decide (100000 ≤ s.nvOther.wear) = false; simpa using hw)
  have heq := keyUpdateApply_serving c a hs
  rw [if_pos (by rw [h2]; rfl), hu] at heq
  dsimp only at heq
  rw [if_neg (show ¬a < c + s.keyLead from Nat.not_lt.2 ha), hstart] at heq
  generalize s.headerBanks (.update x true) = banks at *
  rw [hks] at heq
  rw [hR] at heq h3 hsame
  subst hv
  exact after_inProcessing rfl hs.1 heq rfl rfl fun b hb => ⟨h3, rfl, hb1, hb2, rfl, hsame.right rfl, rfl, hb⟩

/-- Settles O51: the packet checked, staged and discarded, the apply command, and a shelf entry zeroised. -/
theorem keyUpdates : Obligations.KeyUpdates := by
  unfold Obligations.KeyUpdates
  refine ⟨after_packetCheck, after_checkComplete, after_discard, fun s c a hs => ⟨fun h2 => ?_, fun x h2 hu => ⟨fun ha => ?_, fun ha hc hw hl hb => ?_⟩⟩,
    fun s k e he hg => ?_⟩
  · refine after_applyRefused 4 hs ?_
    rw [keyUpdateApply_serving c a hs, if_neg (by simpa using h2)]
  · refine after_applyRefused 3 hs ?_
    rw [keyUpdateApply_serving c a hs, if_pos (by rw [h2]; rfl), hu]
    exact if_pos ha
  · exact after_applyBegins hs h2 hu ha hc hw hl hb
  · have heq : s.shelfEntryZeroise k = { s with ks := { s.ks with shelf := s.ks.shelf.eraseIdx k } } := by
      unfold State.shelfEntryZeroise
      simp only [he]
      exact if_pos (by simpa using hg)
    exact after_hb rfl heq rfl fun b hb => ⟨rfl, rfl, hb⟩

/-- A commit that completes. -/
theorem after_commitComplete {s : State} (t : Nat) {c : Commit} (hd : s.dieOn = true) (hc : s.ks.commits = [c]) (hl : s.ks.banks.length = 2) (hb : s.ks.bank < 2)
    (hw : s.nvOther.wear < 94999) : After (.nvkmCommitComplete t true) s fun u =>
      u.ks.cur = s.ks.cur.apply c ∧ u.ks.bank = 1 - s.ks.bank ∧ u.ks.commits = [] ∧ nth u.ks.banks s.ks.bank = nth s.ks.banks s.ks.bank ∧
      (nth u.ks.banks u.ks.bank).seq = (nth s.ks.banks s.ks.bank).seq + 1 ∧ (nth u.ks.banks u.ks.bank).ok = true ∧ (nth u.ks.banks u.ks.bank).img = u.ks.cur ∧
      (nth u.ks.banks u.ks.bank).wear = s.nvOther.wear + 1 ∧ sameRegs [KS_LASTUP, KS_LASTCNT, KS_UPST, KS_CNT 0, KS_EVENT] s u ∧
      u = { s with now := max s.now t, regs := u.regs, ks := u.ks, hb := u.hb } := by
  obtain ⟨k, y, hyo, ⟨k1, k2, k3⟩, heq⟩ := nvkmCommitComplete_frame t c hd hc hw
  obtain ⟨f1, f2, f3, f4, f5⟩ := flippedBanks_facts (s.ks.cur.apply c) hl hb
  have hsame : sameRegs [KS_LASTUP, KS_LASTCNT, KS_UPST, KS_CNT 0, KS_EVENT] s y := hyo.same.left rfl
  obtain ⟨R, hR⟩ := hyo.regs_eq
  rw [hR] at heq hsame
  refine after_of rfl heq fun b _ => ?_
  show k.cur = _ ∧ k.bank = _ ∧ ([] : List Commit) = [] ∧ nth k.banks s.ks.bank = _ ∧ (nth k.banks k.bank).seq = _ ∧ (nth k.banks k.bank).ok = true ∧
    (nth k.banks k.bank).img = k.cur ∧ (nth k.banks k.bank).wear = _ ∧ _
  rw [k1, k2, k3]
  exact ⟨rfl, rfl, rfl, f1, f2, f3, f4, f5, hsame.right rfl, rfl⟩

/-- The commit of an update that named an effect epoch completes. -/
theorem after_updateWaits {s : State} (t : Nat) {x : KeyUpd} {a : Nat} (hd : s.dieOn = true) (hc : s.ks.commits = [.update x true]) (hw : s.nvOther.wear < 94999)
    (he : s.ks.effect = some a) : After (.nvkmCommitComplete t true) s fun u =>
      u.fld KS_UPST 0 3 = 4 ∧ u.ks.slots = s.ks.slots ∧ u.ks.upd = s.ks.upd ∧ u.ks.effect = some a ∧ u.rdN KS_LASTCNT = x.counter % 2 ^ 32 := by
  obtain ⟨-, h2, -⟩ := updateCommitted_eq (s := s.flipped t (.update x true)) x hd
  obtain ⟨z, hz⟩ : ∃ z, z = (s.flipped t (.update x true)).updateShown x := ⟨_, rfl⟩
  obtain ⟨y, hy⟩ : ∃ y, y = z.setFld KS_UPST 0 3 4 := ⟨_, rfl⟩
  have heq : s.nvkmCommitComplete t true = State.beginCommits [] y :=
    (nvkmCommitComplete_ok t hc hw).trans (congrArg (State.beginCommits []) ((h2 a he).trans (by rw [hy, hz])))
  have h4 : y.fld KS_UPST 0 3 = 4 := by
    rw [hy, fld_setFld_same _ _ _ _ _ (by decide)]
    rfl
  have hcnt : y.rdN KS_LASTCNT = x.counter % 2 ^ 32 := by
    rw [hy, rdN_setFld_ne _ _ _ _ _ _ (by decide), hz]
    exact rdN_wrN_same _ _ _
  have hks : y.ks = { (s.flipped t (.update x true)).ks with last := some (x.slot, x.op, 1, x.counter) } := by rw [hy, hz]; rfl
  refine after_of rfl heq fun b _ => ⟨h4, ?_, ?_, ?_, hcnt⟩
  · exact (congrArg (·.slots) hks).trans rfl
  · exact (congrArg (·.upd) hks).trans rfl
  · exact (congrArg (·.effect) hks).trans he

/-- The commit of an update that named none completes. -/
theorem after_updateAtOnce {s : State} (t : Nat) {x : KeyUpd} (hd : s.dieOn = true) (hc : s.ks.commits = [.update x true]) (hw : s.nvOther.wear < 94999)
    (he : s.ks.effect = none) : After (.nvkmCommitComplete t true) s fun u =>
      u.fld KS_UPST 0 3 = 0 ∧ u.ks.upd = none ∧ u.bit KS_EVENT 5 = true ∧ u.rdN (KS_CNT 0) = (s.rdN (KS_CNT 0) + 1) % 2 ^ 32 := by
  obtain ⟨-, -, h3⟩ := updateCommitted_eq (s := s.flipped t (.update x true)) x hd
  obtain ⟨z, hz⟩ : ∃ z, z = (s.flipped t (.update x true)).updateShown x := ⟨_, rfl⟩
  obtain ⟨v, hv⟩ : ∃ v : State, v = { z with ks := { z.ks.take x with upd := none, effect := none } } := ⟨_, rfl⟩
  obtain ⟨y, hy⟩ : ∃ y, y = ((v.setFld KS_UPST 0 3 0).inc (KS_CNT 0)).evt KS_EVENT 5 := ⟨_, rfl⟩
  have heq : s.nvkmCommitComplete t true = State.beginCommits [] y :=
    (nvkmCommitComplete_ok t hc hw).trans (congrArg (State.beginCommits []) ((h3 he).trans (by rw [hy, hv, hz]; rfl)))
  have h0 : y.fld KS_UPST 0 3 = 0 := by
    rw [hy, fld_evt_ne _ _ (by decide), fld_inc_ne _ _ (by decide), fld_setFld_same _ _ _ _ _ (by decide)]
    rfl
  have hcnt : y.rdN (KS_CNT 0) = (s.rdN (KS_CNT 0) + 1) % 2 ^ 32 := by
    have hz0 : z.rdN (KS_CNT 0) = s.rdN (KS_CNT 0) := by
      rw [hz, (updateShown_only _ x).same.rdN (by decide)]
      rfl
    rw [hy, rdN_evt_ne _ _ _ _ (by decide), rdN_inc_same, rdN_setFld_ne _ _ _ _ _ _ (by decide), ← hz0, hv]
    rfl
  have h5 : y.bit KS_EVENT 5 = true := by
    rw [hy]
    exact bit_evt_same _ _ _ (by decide)
  have hupd : y.ks.upd = none := by rw [hy, hv]; rfl
  exact after_of rfl heq fun b _ => ⟨h0, hupd, h5, hcnt⟩

/-- The commit of an update fails. -/
theorem after_commitFails {s : State} (t : Nat) {x : KeyUpd} (hc : s.ks.commits = [.update x true]) (hm : s.mode = .solo) (hf : s.fld FLT_STATUS 0 5 = 0)
    (hs : s.fr.swapAt = none) (hg : s.ep.guar = false) : After (.nvkmCommitComplete t false) s fun u =>
      u.ks = { s.ks with commits := [], upd := none, effect := none } ∧ u.fld KS_UPST 0 3 = 0 ∧ u.bit KS_EVENT 6 = true ∧ faultNoted 3 0x35 0x23 0xFF s u ∧
      u.flt.holdAt = some (u.stampEp + 1) ∧ sameRegs (KS_UPST :: KS_EVENT :: faultRegs 3) s u := by
  obtain ⟨ho, h0, h6, hn, hst⟩ := abandon_facts (s := s.tick t) hm hf hs hg
  obtain ⟨y, hy⟩ : ∃ y, y = (s.tick t).abandon := ⟨_, rfl⟩
  rw [← hy] at ho h0 h6 hn hst
  have heq : s.nvkmCommitComplete t false = State.beginCommits [] y := by
    unfold State.nvkmCommitComplete
    simp only [hc]
    rw [hy]
    rfl
  have hks : y.ks = (s.tick t).abandoned.ks := by rw [ho.frame]
  have hflt : y.flt = (s.tick t).abandoned.flt := by rw [ho.frame]
  refine after_of rfl heq fun b _ => ⟨?_, h0, h6, hn.left (t := s) rfl, ?_, (ho.same.left rfl).right rfl⟩
  · show { y.ks with commits := [] } = _
    rw [hks]
    rfl
  · show y.flt.holdAt = some (y.stampEp + 1)
    rw [hflt, hst]
    rfl

/-- A committed update comes into force at its effect epoch. -/
theorem after_inForce {s : State} {n : Nat} {x : KeyUpd} (hu : s.ks.upd = some x) (he : s.ks.effect = some n) (h4 : s.fld KS_UPST 0 3 = 4)
    (hop : x.op = 1 ∨ x.op = 2) (hcl : s.ks.cleared = false) (hl : x.slot < s.ks.slots.length) : After (.keyUpdateInForce n) s fun u =>
      u.slot x.slot = nth s.ks.cur.slots x.slot ∧ (∀ k, k ≠ x.slot → u.slot k = s.slot k) ∧ u.ks = { s.ks with slots := u.ks.slots, upd := none, effect := none } ∧
      u.fld KS_UPST 0 3 = 0 ∧ u.held = s.held ++ [.add (KS_CNT 0) 1, .or KS_EVENT (2 ^ 5)] ∧ sameRegs [KS_UPST] s u ∧
      u = { s with regs := u.regs, held := u.held, ep := { s.ep with outcomes := u.ep.outcomes }, ks := u.ks, hb := u.hb } ∧ sameBridge s u := by
  obtain ⟨slots, hsl⟩ : ∃ l, l = updAt s.ks.slots x.slot (fun _ => nth s.ks.cur.slots x.slot) := ⟨_, rfl⟩
  have htake : s.ks.take x = { s.ks with slots := slots } := by
    unfold KeyStore.take
    obtain h | h := hop <;> simp only [h, hcl, hsl, Bool.false_eq_true, if_false]
  obtain ⟨v, hv⟩ : ∃ v : State, v = { s with ks := { s.ks with slots := slots, upd := none, effect := none } } := ⟨_, rfl⟩
  obtain ⟨y, hy⟩ : ∃ y, y = v.setFld KS_UPST 0 3 0 := ⟨_, rfl⟩
  have hyo : RegsOnly [KS_UPST] v y := by
    rw [hy]
    exact (RegsOnly.refl [KS_UPST] v).setFld (by simp) _ _ _
  have h0 : y.fld KS_UPST 0 3 = 0 := by
    rw [hy, fld_setFld_same _ _ _ _ _ (by decide)]
    rfl
  have hsame : sameRegs [KS_UPST] s y := hyo.same.left (by rw [hv])
  have heq : s.keyUpdateInForce n = ((y.cInc (KS_CNT 0)).cEvt KS_EVENT 5).recordVector n := by
    unfold State.keyUpdateInForce
    simp only [hu]
    rw [if_pos (by rw [he]; simp), if_pos (by rw [h4]; rfl), hy, hv]
    show (({ s with ks := s.ks.take x }.endUpdate.cInc (KS_CNT 0)).cEvt KS_EVENT 5).recordVector n = _
    rw [htake]
    rfl
  obtain ⟨R, hR⟩ := hyo.regs_eq
  rw [hR] at heq h0 hsame
  subst hv
  refine after_hb rfl heq rfl fun b hb => ⟨?_, fun k hk => ?_, rfl, h0, List.append_assoc .., hsame.right rfl, rfl, hb⟩
  · show nth slots x.slot = _
    rw [hsl, nth_updAt, if_pos ⟨rfl, hl⟩]
  · show nth slots k = nth s.ks.slots k
    rw [hsl, nth_updAt, if_neg fun h => hk h.1]

/-- An update not committed by its effect epoch is abandoned. -/
theorem after_tooLate {s : State} {n : Nat} {x : KeyUpd} (hu : s.ks.upd = some x) (he : s.ks.effect = some n) (h3 : s.fld KS_UPST 0 3 = 3) (hm : s.mode = .solo)
    (hf : s.fld FLT_STATUS 0 5 = 0) (hs : s.fr.swapAt = none) (hg : s.ep.guar = false) : After (.keyUpdateInForce n) s fun u =>
      u.ks.upd = none ∧ u.ks.effect = none ∧ u.ks.slots = s.ks.slots ∧ u.ks.cur = s.ks.cur ∧ u.bit KS_EVENT 6 = true ∧ faultNoted 3 0x35 0x23 0xFF s u ∧
      sameRegs (KS_UPST :: KS_EVENT :: faultRegs 3) s u := by
  obtain ⟨ho, h0, h6, hn, -⟩ := abandon_facts hm hf hs hg
  obtain ⟨y, hy⟩ : ∃ y, y = s.abandon := ⟨_, rfl⟩
  rw [← hy] at ho h0 h6 hn
  have heq : s.keyUpdateInForce n = y.recordVector n := by
    unfold State.keyUpdateInForce
    simp only [hu]
    rw [if_pos (by rw [he]; simp), if_neg (by rw [h3]; decide), if_pos (by rw [h3]; rfl), hy]
  have hks : y.ks = s.abandoned.ks := by rw [ho.frame]
  refine after_of rfl heq fun b _ => ⟨?_, ?_, ?_, ?_, h6, hn, (ho.same.left rfl).right rfl⟩
  · exact (congrArg (·.upd) hks).trans rfl
  · exact (congrArg (·.effect) hks).trans rfl
  · exact (congrArg (·.slots) hks).trans rfl
  · exact (congrArg (·.cur) hks).trans rfl

/-- Settles O52: a commit completes or fails, and at the effect epoch an update comes into force or is abandoned. -/
theorem keyCommits : Obligations.KeyCommits := by
  unfold Obligations.KeyCommits
  refine ⟨fun s t c hd hc hl hb hw => ⟨after_commitComplete t hd hc hl hb hw, fun x a hx he => ?_, fun x hx he => ?_, fun x hx hm hf hs hg => ?_⟩,
    fun s n x hu he => ⟨fun h4 hop hcl hl => after_inForce hu he h4 hop hcl hl, fun h3 hm hf hs hg => after_tooLate hu he h3 hm hf hs hg⟩⟩
  · exact after_updateWaits t hd (by rw [hc, hx]) hw he
  · exact after_updateAtOnce t hd (by rw [hc, hx]) hw he
  · exact after_commitFails t (by rw [hc, hx]) hm hf hs hg

end Sys2Proof.Proofs
end

section
/-! PROOFS. Tamper responses, the tamper configuration and the Yalaemal statement (R394, R396 to R402). -/
set_option Elab.async false
namespace Sys2Proof.Machine
open Sys2Proof

/-! ### Erasure (R397, R398) -/

/-- The image after a tamper response of this machine's mode. -/
def State.tamperedImage (s : State) (t src : Nat) : NvImage := s.ks.cur.tamper t src (modeCode s.mode)

/-- The machine with the tamper response begun, where no commit was under way. -/
def State.erased (s : State) (t src : Nat) : State :=
  { s.tick t with ks := { s.ks with cur := s.tamperedImage t src, commits := [.response], banks := s.headerBanks .response } }

theorem tamperErase_eq {s : State} (t src : Nat) (h : s.ks.commits = []) : (s.tick t).tamperErase t src = s.erased t src := by
  unfold State.tamperErase
  have hp : (s.tick t).preempted = none := by
    unfold State.preempted
    simp only [show (s.tick t).ks = s.ks from rfl, h]
  simp only [hp, show (s.tick t).ks = s.ks from rfl, h]
  exact beginCommits_begins [] rfl

theorem nth_erase (l : List RootSlot) (k : Nat) : nth (l.map RootSlot.erase) k = (nth l k).erase := List.getD_map l default RootSlot.erase

theorem tamperedImage_facts (s : State) (t src : Nat) :
    (∀ k, (nth s.ks.cur.slots k).tampered = true → (nth (s.tamperedImage t src).slots k).key = zeros 32 ∧ (nth (s.tamperedImage t src).slots k).state = 2 ∧
      (nth (s.tamperedImage t src).slots k).attr = 0 ∧ (nth (s.tamperedImage t src).slots k).counter = (nth s.ks.cur.slots k).counter) ∧
    (∀ k, (nth s.ks.cur.slots k).tampered = false → nth (s.tamperedImage t src).slots k = nth s.ks.cur.slots k) := by
  have hslots (k : Nat) : nth (s.tamperedImage t src).slots k = (nth s.ks.cur.slots k).erase := nth_erase _ _
  refine ⟨fun k hk => ?_, fun k hk => ?_⟩
  · rw [hslots, RootSlot.erase, if_pos hk]
    exact ⟨rfl, rfl, rfl, rfl⟩
  · rw [hslots, RootSlot.erase, if_neg (by rw [hk]; decide)]

/-! ### Zeroisation (R397, R427) -/

/-- The registers of a host job's result. -/
def hjOutRegs : List Nat := [CP_HJOUT 0, CP_HJOUT 1, CP_HJOUT 2, CP_HJOUT 3]

/-- The result of a host job zeroised. -/
def State.zeroOut (s : State) : State := (((s.wrN (CP_HJOUT 0) 0).wrN (CP_HJOUT 1) 0).wrN (CP_HJOUT 2) 0).wrN (CP_HJOUT 3) 0

theorem zeroOut_only (s : State) : RegsOnly hjOutRegs s s.zeroOut :=
  ((((RegsOnly.refl hjOutRegs s).wrN (by simp [hjOutRegs]) _).wrN (by simp [hjOutRegs]) _).wrN (by simp [hjOutRegs]) _).wrN (by simp [hjOutRegs]) _

theorem zeroOut_zero (s : State) {i : Nat} (h : i < 4) : s.zeroOut.rdN (CP_HJOUT i) = 0 := by
  unfold State.zeroOut
  match i, h with
  | 0, _ => rw [rdN_wrN_ne _ _ _ _ (by decide), rdN_wrN_ne _ _ _ _ (by decide), rdN_wrN_ne _ _ _ _ (by decide), rdN_wrN_same]; rfl
  | 1, _ => rw [rdN_wrN_ne _ _ _ _ (by decide), rdN_wrN_ne _ _ _ _ (by decide), rdN_wrN_same]; rfl
  | 2, _ => rw [rdN_wrN_ne _ _ _ _ (by decide), rdN_wrN_same]; rfl
  | 3, _ => rw [rdN_wrN_same]; rfl

/-- The key store with its root keys and shelf zeroised. -/
def KeyStore.zeroised (k : KeyStore) : KeyStore :=
  { k with cleared := true, shelf := [], slots := k.slots.map (fun x => { x.erase with key := zeros 32 }) }

/-- The key store zeroised, and the check of a packet aborted. -/
def State.keysZeroised (s : State) : State :=
  if s.fld KS_UPST 0 3 == 1 then { s with ks := s.ks.zeroised }.endUpdate else { s with ks := s.ks.zeroised }

/-- A host job under way aborted, and its result zeroised. -/
def State.jobAborted (s : State) : State :=
  if s.bit CP_HJCTL 2 then ({ s with cp := { s.cp with job := none } }.setBit CP_HJCTL 2 false).zeroOut else s.zeroOut

theorem tamperClear_eq (s : State) : s.tamperClear = ((s.keysZeroised.evt KS_EVENT 7).inc (KS_CNT 6)).jobAborted := rfl

/-- The registers that a tamper response brings up to date with the frame die on. -/
def tamperRegs : List Nat := KS_UPST :: KS_EVENT :: KS_CNT 6 :: CP_HJCTL :: hjOutRegs

/-- What zeroisation leaves. -/
theorem tamperClear_facts (s : State) : ∃ k c, RegsOnly tamperRegs { s with ks := k, cp := c } s.tamperClear ∧
    (k.cur = s.ks.cur ∧ k.commits = s.ks.commits ∧ k.cleared = true ∧ k.shelf = [] ∧ k.slots = s.ks.slots.map (fun x => { x.erase with key := zeros 32 })) ∧
    s.tamperClear.bit KS_EVENT 7 = true ∧ s.tamperClear.rdN (KS_CNT 6) = (s.rdN (KS_CNT 6) + 1) % 2 ^ 32 ∧ ∀ i < 4, s.tamperClear.rdN (CP_HJOUT i) = 0 := by
  have hkeys : ∃ k, RegsOnly [KS_UPST] { s with ks := k } s.keysZeroised ∧
      (k.cur = s.ks.cur ∧ k.commits = s.ks.commits ∧ k.cleared = true ∧ k.shelf = [] ∧ k.slots = s.ks.slots.map (fun x => { x.erase with key := zeros 32 })) := by
    unfold State.keysZeroised
    split
    · refine ⟨{ s.ks.zeroised with upd := none, effect := none }, ?_, rfl, rfl, rfl, rfl, rfl⟩
      exact (RegsOnly.refl [KS_UPST] { s with ks := { s.ks.zeroised with upd := none, effect := none } }).setFld (by simp) _ _ _
    · exact ⟨s.ks.zeroised, .refl _ _, rfl, rfl, rfl, rfl, rfl⟩
  obtain ⟨k, hko, hk⟩ := hkeys
  obtain ⟨x, hx⟩ : ∃ x, x = s.keysZeroised := ⟨_, rfl⟩
  obtain ⟨y, hy⟩ : ∃ y, y = (x.evt KS_EVENT 7).inc (KS_CNT 6) := ⟨_, rfl⟩
  rw [tamperClear_eq, ← hx, ← hy]
  rw [← hx] at hko
  have hxs : sameRegs [KS_UPST] s x := hko.same.left rfl
  have hyo : RegsOnly [KS_UPST, KS_EVENT, KS_CNT 6] { s with ks := k } y := by
    rw [hy]
    exact ((hko.mono (by simp)).evt (by simp) 7).inc (by simp) 1
  have hev : y.bit KS_EVENT 7 = true := by
    rw [hy, State.inc, bit_wrN_ne _ _ _ _ _ (by decide)]
    exact bit_evt_same _ _ _ (by decide)
  have hcnt : y.rdN (KS_CNT 6) = (s.rdN (KS_CNT 6) + 1) % 2 ^ 32 := by rw [hy, rdN_inc_same, rdN_evt_ne _ _ _ _ (by decide), hxs.rdN (by decide)]
  have hjob : ∃ c, RegsOnly (CP_HJCTL :: hjOutRegs) { y with cp := c } y.jobAborted ∧ ∀ i < 4, y.jobAborted.rdN (CP_HJOUT i) = 0 := by
    unfold State.jobAborted
    split
    · refine ⟨{ y.cp with job := none }, ?_, fun _ hi => zeroOut_zero _ hi⟩
      exact ((RegsOnly.refl _ _).setBit (by simp) _ _).trans ((zeroOut_only _).mono (by simp))
    · exact ⟨y.cp, (zeroOut_only y).mono (by simp), fun _ hi => zeroOut_zero _ hi⟩
  obtain ⟨c, hjo, hj⟩ := hjob
  have hjs : sameRegs (CP_HJCTL :: hjOutRegs) y y.jobAborted := hjo.same.left rfl
  obtain ⟨R, hR⟩ := hyo.regs_eq
  refine ⟨k, c, ?_, hk, ?_, ?_, hj⟩
  · have h1 : RegsOnly [KS_UPST, KS_EVENT, KS_CNT 6] { s with ks := k, cp := c } { y with cp := c } := by
      refine ⟨by rw [hR], (hyo.same.left rfl).right rfl⟩
    exact (h1.mono (by simp [tamperRegs])).trans (hjo.mono fun a ha => by simp only [tamperRegs, List.mem_cons] at *; tauto)
  · rw [hjs.bit (by decide)]
    exact hev
  · rw [hjs.rdN (by decide)]
    exact hcnt

/-! ### The statement (R399 to R402) -/

/-- The registers of KS_STMT. -/
def stmtRegs : List Nat := (List.range 54).map KS_STMT

theorem putStatement_only (s : State) (d : Octets) : RegsOnly stmtRegs s (s.putStatement d) :=
  RegsOnly.foldl _ (fun u k hk => (RegsOnly.refl _ u).wrN (List.mem_map_of_mem hk) _) (.refl _ s)

theorem KS_STMT_ne {j k : Nat} (h : j ≠ k) : KS_STMT j ≠ KS_STMT k := by
  unfold KS_STMT
  omega

/-- KS_STMT holds the octets of the statement. -/
theorem rdN_putStatement (s : State) (d : Octets) {k : Nat} (hk : k < 54) : (s.putStatement d).rdN (KS_STMT k) = leAt d (4 * k) 4 := by
  have key (n : Nat) : k < n → ((List.range n).foldl (fun s k => s.wrN (KS_STMT k) (leAt d (4 * k) 4)) s).rdN (KS_STMT k) = leAt d (4 * k) 4 := by
    induction n with
    | zero => exact fun h => absurd h (Nat.not_lt_zero k)
    | succ n ih =>
      intro h
      rw [List.range_succ, List.foldl_append, List.foldl_cons, List.foldl_nil]
      by_cases hn : k = n
      · rw [hn, rdN_wrN_same, Nat.mod_eq_of_lt (leAt_lt d (4 * n) 4)]
      · rw [rdN_wrN_ne _ _ _ _ (KS_STMT_ne hn)]
        exact ih (by omega)
  exact key 54 hk

theorem not_stmtReg {a : Nat} (h : a < 0x380400) : a ∉ stmtRegs := by
  intro hm
  obtain ⟨k, -, rfl⟩ := List.mem_map.1 hm
  unfold KS_STMT at h
  omega

end Sys2Proof.Machine
end

section
namespace Sys2Proof.Proofs
open Sys2Proof Sys2Proof.Machine

/-- A configured tamper source while the frame die is off. -/
theorem tamperDetected_off {s : State} (t : Nat) {src : Nat} (h6 : src < 6) (hv : s.sill.vsill = true) (hb : (nth s.ks.cur.tamp src).testBit 0 = true)
    (hc : s.ks.commits = []) (hd : s.dieOn = false) : (s.tamperDetected t src).tamperWake t src =
      if (nth s.ks.cur.tamp src).testBit 2 && (s.mode == .sill || s.mode == .watch) then
        ((s.erased t src).onKs fun k => { k with tamperPend := k.tamperPend + 1 }).onSill fun x => { x with latched := x.latched ++ [{ src := 5, idx := src, at_ := t }] }
      else (s.erased t src).onKs fun k => { k with tamperPend := k.tamperPend + 1 } := by
  have hdet : s.tamperDetected t src = if (nth s.ks.cur.tamp src).testBit 2 && (s.mode == .sill || s.mode == .watch) then
        ((s.erased t src).onKs fun k => { k with tamperPend := k.tamperPend + 1 }).onSill fun x => { x with latched := x.latched ++ [{ src := 5, idx := src, at_ := t }] }
      else (s.erased t src).onKs fun k => { k with tamperPend := k.tamperPend + 1 } := by
    unfold State.tamperDetected
    extract_lets x wake y z
    rw [if_neg (by
      show ¬(decide (6 ≤ src) || !s.sill.vsill || !(nth s.ks.cur.tamp src).testBit 0) = true
      rw [hv, hb]
      simp
      omega), if_pos (by rw [show y = s.erased t src from tamperErase_eq t src hc]; show (!s.dieOn) = true; rw [hd]; rfl)]
    have hz : z = (s.erased t src).onKs fun k => { k with tamperPend := k.tamperPend + 1 } :=
      congrArg (fun v : State => v.onKs fun k => { k with tamperPend := k.tamperPend + 1 }) (tamperErase_eq t src hc)
    rw [hz]
    rfl
  have hoff (u : State) (hu : u.sill.dieOn = false) : u.tamperWake t src = u := by
    unfold State.tamperWake State.armedInQuiesce
    rw [show u.dieOn = false from hu]
    rfl
  rw [hoff, hdet]
  rw [hdet]
  split
  · exact hd
  · exact hd

/-- A configured tamper source with the frame die on: the root registers are zeroised before the fault. -/
theorem tamperDetected_on {s : State} (t : Nat) {src : Nat} (h6 : src < 6) (hv : s.sill.vsill = true) (hb : (nth s.ks.cur.tamp src).testBit 0 = true)
    (hc : s.ks.commits = []) (hd : s.dieOn = true) : s.tamperDetected t src =
      match s.mode with
      | .bench => (s.erased t src).tamperClear.notice 0x09 0x23
      | .raise => ((s.erased t src).tamperClear.onFr (fun f => { f with hand := none })).raiseFault 3 0x34 0x23 0xFF
      | _ => (s.erased t src).tamperClear.raiseFault 3 0x34 0x23 0xFF := by
  have hm : (s.erased t src).tamperClear.mode = s.mode := (State.tamperClear_keeps (c := 0x180020) rfl (.refl _ (s.erased t src))).at_ 4 rfl
  unfold State.tamperDetected
  extract_lets x wake y z u
  rw [if_neg (by
    show ¬(decide (6 ≤ src) || !s.sill.vsill || !(nth s.ks.cur.tamp src).testBit 0) = true
    rw [hv, hb]
    simp
    omega), if_neg (by show ¬((!y.dieOn) = true); rw [show y = s.erased t src from tamperErase_eq t src hc]; show ¬((!s.dieOn) = true); rw [hd]; decide)]
  rw [show u = (s.erased t src).tamperClear from congrArg State.tamperClear (tamperErase_eq t src hc), hm] <;> rfl

theorem tamperWake_frame (s : State) (t src : Nat) : ∃ d : SillDie, s.tamperWake t src = { s with sill := d } ∧ (s.wk.st = 0 → d = s.sill) := by
  unfold State.tamperWake
  split
  · next h =>
    have hst : s.wk.st ≠ 0 := fun h0 => by simp [State.armedInQuiesce, h0] at h
    unfold State.latch
    split
    · exact ⟨_, rfl, fun h0 => absurd h0 hst⟩
    · split
      · exact ⟨_, rfl, fun h0 => absurd h0 hst⟩
      · exact ⟨_, rfl, fun _ => rfl⟩
  · exact ⟨_, rfl, fun _ => rfl⟩

/-- Whether the frame die runs or not, the sill die has erased and begun its commit. -/
theorem tamper_erases {s : State} (t : Nat) {src : Nat} (h6 : src < 6) (hv : s.sill.vsill = true) (hb : (nth s.ks.cur.tamp src).testBit 0 = true)
    (hc : s.ks.commits = []) : ((s.tamperDetected t src).tamperWake t src).ks.cur = s.tamperedImage t src ∧
      ((s.tamperDetected t src).tamperWake t src).ks.commits = [.response] ∧ ((s.tamperDetected t src).tamperWake t src).now = max s.now t := by
  by_cases hd : s.dieOn = true
  · obtain ⟨k, c, ho, ⟨h1, h2, -⟩, -⟩ := tamperClear_facts (s.erased t src)
    obtain ⟨x, hx⟩ : ∃ x, x = (s.erased t src).tamperClear := ⟨_, rfl⟩
    rw [← hx] at ho
    have hxk : x.ks = k := by rw [ho.frame]
    have hxn : x.now = max s.now t := by rw [ho.frame]; rfl
    have hdet : (s.tamperDetected t src).ks = x.ks ∧ (s.tamperDetected t src).now = x.now := by
      have hfault (u : State) (cls cause un : Nat) : (u.raiseFault cls cause 0x23 un).ks = u.ks ∧ (u.raiseFault cls cause 0x23 un).now = u.now :=
        have hk := State.raiseFault_keeps (c := 0x4243c20) rfl (.refl _ u) cls cause 0x23 un
        ⟨hk.at_ 19 rfl, hk.at_ 1 rfl⟩
      rw [tamperDetected_on t h6 hv hb hc hd, ← hx]
      split
      · exact hfault x 0 0x09 0xFF
      · exact hfault (x.onFr fun f => { f with hand := none }) 3 0x34 0xFF
      · exact hfault x 3 0x34 0xFF
    obtain ⟨d, hw, -⟩ := tamperWake_frame (s.tamperDetected t src) t src
    rw [hw]
    show (s.tamperDetected t src).ks.cur = _ ∧ (s.tamperDetected t src).ks.commits = _ ∧ (s.tamperDetected t src).now = _
    rw [hdet.1, hdet.2, hxk, h1, h2]
    exact ⟨rfl, rfl, hxn⟩
  · rw [tamperDetected_off t h6 hv hb hc (by simpa using hd)]
    split <;> exact ⟨rfl, rfl, rfl⟩

/-- What a tamper response leaves in NVKM. -/
theorem after_tamperErases {s : State} (t : Nat) {src : Nat} (h6 : src < 6) (hv : s.sill.vsill = true) (hb : (nth s.ks.cur.tamp src).testBit 0 = true)
    (hc : s.ks.commits = []) : After (.tamperDetected t src) s fun u =>
      (∀ k, (nth s.ks.cur.slots k).tampered = true → (nth u.ks.cur.slots k).key = zeros 32 ∧ (nth u.ks.cur.slots k).state = 2 ∧ (nth u.ks.cur.slots k).attr = 0 ∧
        (nth u.ks.cur.slots k).counter = (nth s.ks.cur.slots k).counter) ∧
      (∀ k, (nth s.ks.cur.slots k).tampered = false → nth u.ks.cur.slots k = nth s.ks.cur.slots k) ∧ u.ks.cur.tcount = min 0xFFFFFFFF (s.ks.cur.tcount + 1) ∧
      u.ks.cur.lc = s.ks.cur.lc ∧ u.ks.cur.auth = s.ks.cur.auth ∧ u.ks.commits = [.response] ∧ u.now = max s.now t := by
  obtain ⟨h1, h2, h3⟩ := tamper_erases t h6 hv hb hc
  obtain ⟨f1, f2⟩ := tamperedImage_facts s t src
  obtain ⟨y, hy⟩ : ∃ y, y = (s.tamperDetected t src).tamperWake t src := ⟨_, rfl⟩
  rw [← hy] at h1 h2 h3
  refine after_of rfl hy.symm fun b _ => ?_
  show (∀ k, _ → (nth y.ks.cur.slots k).key = zeros 32 ∧ (nth y.ks.cur.slots k).state = 2 ∧ (nth y.ks.cur.slots k).attr = 0 ∧
    (nth y.ks.cur.slots k).counter = _) ∧ (∀ k, _ → nth y.ks.cur.slots k = _) ∧ y.ks.cur.tcount = _ ∧ y.ks.cur.lc = _ ∧ y.ks.cur.auth = _ ∧ y.ks.commits = _ ∧ y.now = _
  rw [h1, h2, h3]
  exact ⟨f1, f2, rfl, rfl, rfl, rfl, rfl⟩

/-- With the frame die off the event waits for the next start. -/
theorem after_tamperOff {s : State} (t : Nat) {src : Nat} (h6 : src < 6) (hv : s.sill.vsill = true) (hb : (nth s.ks.cur.tamp src).testBit 0 = true)
    (hc : s.ks.commits = []) (hd : s.dieOn = false) : After (.tamperDetected t src) s fun u =>
      u.ks = { s.ks with cur := u.ks.cur, commits := [.response], banks := u.ks.banks, tamperPend := s.ks.tamperPend + 1 } ∧
      u = { s with now := max s.now t, ks := u.ks, sill := { s.sill with latched := u.sill.latched }, hb := u.hb } ∧
      ((nth s.ks.cur.tamp src).testBit 2 = true → s.mode = .watch → u.sill.latched = s.sill.latched ++ [{ src := 5, idx := src, at_ := t }]) := by
  have heq := tamperDetected_off t h6 hv hb hc hd
  by_cases h : ((nth s.ks.cur.tamp src).testBit 2 && (s.mode == .sill || s.mode == .watch)) = true
  · rw [if_pos h] at heq
    exact after_of rfl heq fun b _ => ⟨rfl, rfl, fun _ _ => rfl⟩
  · rw [if_neg h] at heq
    exact after_of rfl heq fun b _ => ⟨rfl, rfl, fun h2 hm => absurd (by rw [h2, hm]; rfl) h⟩

/-- With the frame die on the root keys are zeroised, and an F3 follows. -/
theorem after_tamperOn {s : State} (t : Nat) {src : Nat} (h6 : src < 6) (hv : s.sill.vsill = true) (hb : (nth s.ks.cur.tamp src).testBit 0 = true)
    (hc : s.ks.commits = []) (hd : s.dieOn = true) (hm : s.mode = .solo) (hst : s.wk.st = 0) (hf : s.fld FLT_STATUS 0 5 = 0) (hs : s.fr.swapAt = none)
    (hg : s.ep.guar = false) : After (.tamperDetected t src) s fun u =>
      u.ks.cleared = true ∧ u.ks.shelf = [] ∧ (∀ k, k < s.ks.slots.length → (u.slot k).key = zeros 32) ∧ u.bit KS_EVENT 7 = true ∧ u.rdN (KS_CNT 6) = (s.rdN (KS_CNT 6) + 1) % 2 ^ 32 ∧
      (∀ i < 4, u.rdN (CP_HJOUT i) = 0) ∧ faultNoted 3 0x34 0x23 0xFF s u ∧ u.mode = .solo := by
  obtain ⟨k, c, ho, ⟨-, -, hcl, hsh, hsl⟩, h7, h6', hj⟩ := tamperClear_facts (s.erased t src)
  obtain ⟨x, hx⟩ : ∃ x, x = (s.erased t src).tamperClear := ⟨_, rfl⟩
  rw [← hx] at ho h7 h6' hj
  have hframe := ho.frame
  have hxs : sameRegs tamperRegs s x := ho.same.left rfl
  have hxf : x.fld FLT_STATUS 0 5 = 0 := (hxs.fld (by decide) _ _).trans hf
  obtain ⟨y, hy⟩ : ∃ y, y = x.noted 3 0x34 0x23 0xFF x.stampEp x.now := ⟨_, rfl⟩
  have hyo : RegsOnly (faultRegs 3) x y := by
    rw [hy]
    exact noted_only ..
  obtain ⟨z, hz⟩ : ∃ z : State, z = { y with flt := { x.flt with holdAt := some (x.stampEp + 1) } } := ⟨_, rfl⟩
  have hdet : s.tamperDetected t src = z := by
    rw [tamperDetected_on t h6 hv hb hc hd, ← hx, hm, hz, hy]
    exact raiseFault_f3 _ _ _ hxf (by rw [hframe]; exact hm) (by rw [hframe]; exact hs) (by rw [hframe]; exact hg)
  have hyx := hyo.frame
  have hzm : z.mode = .solo := by rw [hz, show State.mode _ = y.mode from rfl, hyx, hframe]; exact hm
  have hzk : z.ks = k := by rw [hz, show State.ks _ = y.ks from rfl, hyx, hframe]
  have hzw : z.wk.st = 0 := by rw [hz, show State.wk _ = y.wk from rfl, hyx, hframe]; exact hst
  have hny : faultNoted 3 0x34 0x23 0xFF s y := by
    rw [hy]
    exact (noted_now x (cls := 3) (by decide) (by decide) (by decide) (by decide)).left (hxs.rdN (by decide)).symm
  have hnote : faultNoted 3 0x34 0x23 0xFF s z := by rw [hz]; exact hny
  have hzs : sameRegs (faultRegs 3) x z := by rw [hz]; exact hyo.same.right rfl
  have heq : (s.tamperDetected t src).tamperWake t src = z := by
    obtain ⟨d, hw, hd0⟩ := tamperWake_frame z t src
    rw [hdet, hw, hd0 hzw]
  have k7 : z.bit KS_EVENT 7 = true := by rw [hzs.bit (by decide)]; exact h7
  have k6 : z.rdN (KS_CNT 6) = (s.rdN (KS_CNT 6) + 1) % 2 ^ 32 := by
    rw [hzs.rdN (by decide), h6']
    rfl
  have kj (i : Nat) (hi : i < 4) : z.rdN (CP_HJOUT i) = 0 := by
    rw [hzs.rdN (by match i, hi with | 0, _ => decide | 1, _ => decide | 2, _ => decide | 3, _ => decide)]
    exact hj i hi
  refine after_of rfl heq fun b _ => ⟨?_, ?_, fun j hjl => ?_, k7, k6, kj, hnote, hzm⟩
  · exact (congrArg (·.cleared) hzk).trans hcl
  · exact (congrArg (·.shelf) hzk).trans hsh
  · show (nth z.ks.slots j).key = zeros 32
    rw [hzk, hsl, show (s.erased t src).ks.slots = s.ks.slots from rfl, nth, List.getD_eq_getElem?_getD, List.getElem?_map, List.getElem?_eq_getElem hjl]
    rfl

/-- A write of KS_TAMPCFG in Blank or Provisioned is a commit, later a violation. -/
theorem after_tampCfg {s : State} {ms : Master} {w : World} {src : Nat} (val : Word) (hs : s.secureHost ms w) (h6 : src < 6) :
    (s.ks.lc ≤ 1 → s.ks.commits = [] → s.nvOther.wear < 100000 → After (.tamperConfigWrite ms w src val) s fun u =>
      u.ks = { s.ks with commits := [.tampCfg src (val.toNat &&& 0xFF07)], banks := u.ks.banks } ∧ u = { s with ks := u.ks, hb := u.hb } ∧ sameBridge s u) ∧
    (2 ≤ s.ks.lc → After (.tamperConfigWrite ms w src val) s fun u =>
      u.rdN FLT_VIOL = min 0xFFFFFFFF (s.rdN FLT_VIOL + 1) ∧ sameRegs [FLT_VIOL] s u ∧ u = { s with regs := u.regs, hb := u.hb } ∧ sameBridge s u) := by
  obtain ⟨hre, hh, hw⟩ := hs
  have hrows : ∀ k < 6, ((hitRow (KS_TAMPCFG k)).any fun r => r.ten == .any && (r.pol == .tamp && (!inTenonArea r && r.fields.all fun f => !f.ledger))) = true := by
    decide +kernel
  obtain ⟨r, hr, -, hp⟩ := rowAt_of_any (hrows src h6) s
  simp only [Bool.and_eq_true, beq_iff_eq, Bool.not_eq_true', List.all_eq_true] at hp
  obtain ⟨hpol, hten, hled⟩ := hp
  have ha : KS_TAMPCFG src % 4 = 0 := by unfold KS_TAMPCFG; omega
  have hidx : (KS_TAMPCFG src - KS_TAMPCFG 0) / 4 = src := by unfold KS_TAMPCFG; omega
  have hlt : KS_TAMPCFG src < 0x800000 := by unfold KS_TAMPCFG; omega
  have hval : BitVec.ofNat 32 (val.toNat % 4294967296) = val := by
    rw [Nat.mod_eq_of_lt (show val.toNat < 4294967296 from val.isLt), BitVec.ofNat_toNat]
    exact BitVec.setWidth_eq val
  have hmay : s.mayWrite r.pol (KS_TAMPCFG src) ms (worldOf ms w) = decide (s.ks.lc ≤ 1) := by
    rw [hpol]
    show (isHost ms && worldOf ms w == .secure && decide (s.ks.lc ≤ 1)) = _
    rw [hh, hw]
    exact Bool.true_and _
  have hwrite (y : State) (hy : s.localWrite ms (worldOf ms w) (KS_TAMPCFG src) 4 (val.toNat % 2 ^ 32) 0xFFFFFFFF 0 = y) (hb : y.hb = s.hb) :
      (if src < 6 then s.busWrite ms w (KS_TAMPCFG src) val.toNat else s) = y := by
    rw [if_pos h6, busWrite_reaches _ _ _ _ _ _ hre hlt, hy]
    exact unstall_empty _ (by rw [hb]; exact hre.2.2.1)
  refine ⟨fun hlc hc hwear => ?_, fun hlc => ?_⟩
  · have hcfg : s.tamperConfigWrite src val =
        { s with ks := { s.ks with commits := [.tampCfg src (val.toNat &&& 0xFF07)], banks := s.headerBanks (.tampCfg src (val.toNat &&& 0xFF07)) } } := by
      rw [State.tamperConfigWrite, if_pos (by rw [hre.1, decide_eq_true h6, decide_eq_true hlc]; rfl)]
      exact commit_begins hc (by show decide (100000 ≤ s.nvOther.wear) = false; simpa using hwear)
    have hloc : s.localWrite ms (worldOf ms w) (KS_TAMPCFG src) 4 (val.toNat % 2 ^ 32) 0xFFFFFFFF 0 = s.tamperConfigWrite src val := by
      rw [localWrite_row s ms _ _ _ _ _ r ha hr (by rw [hmay]; exact decide_eq_true hlc) hled]
      simp [State.plainWrite, State.tenonShut, hten, hpol, hidx, hval]
    exact after_hb rfl (hwrite _ (hloc.trans hcfg) rfl) rfl fun b hb => ⟨rfl, rfl, hb⟩
  · have hloc : s.localWrite ms (worldOf ms w) (KS_TAMPCFG src) 4 (val.toNat % 2 ^ 32) 0xFFFFFFFF 0 = s.violation :=
      localWrite_refused _ _ _ (.inr ⟨r, hr, by rw [hmay]; exact decide_eq_false (by omega)⟩)
    have ho := violation_only s
    have hv : s.violation.rdN FLT_VIOL = min 0xFFFFFFFF (s.rdN FLT_VIOL + 1) := (rdN_wrN_same _ _ _).trans (Nat.mod_eq_of_lt (by omega))
    have hsame := ho.same
    have heq := hwrite _ hloc rfl
    obtain ⟨R, hR⟩ := ho.regs_eq
    rw [hR] at heq hv hsame
    exact after_hb rfl heq rfl fun b hb => ⟨hv, hsame.right rfl, rfl, hb⟩

/-- A request captures a statement. -/
theorem after_attest (s : State) (t : Nat) (ms : Master) (w : World) (hre : s.reaches ms (worldOf ms w)) (hh : isHost ms = true) (hb : s.bit KS_ATTCTL 1 = false) :
    After (.attestationRequest t ms w) s fun u =>
      u.ks = { s.ks with att := some s.statement } ∧ u.bit KS_ATTCTL 1 = true ∧ u.bit KS_ATTCTL 2 = false ∧ (∀ k < 54, u.rdN (KS_STMT k) = 0) ∧
      sameRegs (KS_ATTCTL :: (List.range 54).map KS_STMT) s u ∧
      u = { s with now := max s.now t, regs := u.regs, ks := u.ks, hb := u.hb } ∧ sameBridge s u := by
  obtain ⟨x, hx⟩ : ∃ x : State, x = { s.tick t with ks := { s.ks with att := some s.statement } } := ⟨_, rfl⟩
  obtain ⟨p, hp⟩ : ∃ p, p = x.putStatement (zeros 216) := ⟨_, rfl⟩
  obtain ⟨y, hy⟩ : ∃ y, y = (p.setBit KS_ATTCTL 2 false).setBit KS_ATTCTL 1 true := ⟨_, rfl⟩
  have hpo : RegsOnly stmtRegs x p := by
    rw [hp]
    exact putStatement_only _ _
  have hyo : RegsOnly (KS_ATTCTL :: stmtRegs) x y := by
    rw [hy]
    exact (((hpo.mono (by simp)).setBit (by simp) _ _).setBit (by simp) _ _)
  have hsame : sameRegs (KS_ATTCTL :: stmtRegs) s y := hyo.same.left (by rw [hx]; rfl)
  have hrole : EP_TBCFG ∉ KS_ATTCTL :: stmtRegs := fun h => by
    obtain h | h := List.mem_cons.1 h
    · exact absurd h (by decide)
    · exact not_stmtReg (by decide) h
  have heq : (s.tick t).busWrite ms w KS_ATTCTL 1 1 = y := by
    refine busWrite_starts .att (reaches_tick t hre) (by decide) (by decide +kernel) ?_ (by decide) (by decide) (by decide) ?_
      (tbRole_congr (hsame _ hrole)) (by rw [hyo.frame, hx])
    · show (isHost ms || ms == .scarf || (ms == .jtag && s.ks.lc == 3)) = true
      rw [hh]
      rfl
    · show (s.tick t).attestationRequest (s.tick t).now = y
      rw [hy, hp, hx, State.attestationRequest, if_pos (by show (s.dieOn && !s.bit KS_ATTCTL 1) = true; rw [hre.1, hb]; rfl), tick_now]
      rfl
  have h1 : y.bit KS_ATTCTL 1 = true := by rw [hy, bit_setBit _ _ _ _ _ (by decide), if_pos rfl]
  have h2 : y.bit KS_ATTCTL 2 = false := by
    rw [hy, bit_setBit _ _ _ _ _ (by decide), if_neg (by decide), bit_setBit _ _ _ _ _ (by decide), if_pos rfl]
  have h0 (k : Nat) (hk : k < 54) : y.rdN (KS_STMT k) = 0 := by
    have hz : ∀ k < 54, leAt (zeros 216) (4 * k) 4 = 0 := by decide +kernel
    have hne : KS_STMT k ≠ KS_ATTCTL := by unfold KS_STMT KS_ATTCTL; omega
    rw [hy, rdN_setBit_ne _ _ _ _ _ hne, rdN_setBit_ne _ _ _ _ _ hne, hp, rdN_putStatement _ _ hk, hz k hk]
  obtain ⟨R, hR⟩ := hyo.regs_eq
  rw [hR] at heq h1 h2 hsame
  simp only [hR] at h0
  generalize s.statement = st at *
  subst hx
  exact after_hb rfl heq rfl fun b hb => ⟨rfl, h1, h2, h0, hsame.right rfl, rfl, hb⟩

/-- Once signed the statement stands in KS_STMT. -/
theorem after_statementReady {s : State} (t : Nat) {d : Octets} (ha : s.ks.att = some d) : After (.statementReady t) s fun u =>
    (∀ k < 54, u.rdN (KS_STMT k) = leAt (d ++ ecdsaSign Config.attestKey.toNat (sha256 d)) (4 * k) 4) ∧ u.ks = { s.ks with att := none } ∧ u.bit KS_ATTCTL 1 = false ∧
    u.bit KS_ATTCTL 2 = true ∧ u.bit KS_EVENT 9 = true ∧ u.rdN (KS_CNT 7) = (s.rdN (KS_CNT 7) + 1) % 2 ^ 32 ∧
    sameRegs (KS_ATTCTL :: KS_EVENT :: KS_CNT 7 :: (List.range 54).map KS_STMT) s u ∧ u = { s with now := max s.now t, regs := u.regs, ks := u.ks, hb := u.hb } := by
  obtain ⟨o, ho⟩ : ∃ o, o = d ++ ecdsaSign Config.attestKey.toNat (sha256 d) := ⟨_, rfl⟩
  rw [← ho]
  obtain ⟨p, hp⟩ : ∃ p, p = (s.tick t).putStatement o := ⟨_, rfl⟩
  obtain ⟨y, hy⟩ : ∃ y, y = (((p.setBit KS_ATTCTL 1 false).setBit KS_ATTCTL 2 true).evt KS_EVENT 9).inc (KS_CNT 7) := ⟨_, rfl⟩
  have hpo : RegsOnly stmtRegs (s.tick t) p := by
    rw [hp]
    exact putStatement_only _ _
  have hyo : RegsOnly (KS_ATTCTL :: KS_EVENT :: KS_CNT 7 :: stmtRegs) (s.tick t) y := by
    rw [hy]
    exact (((((hpo.mono fun a ha => by simp [ha]).setBit (by simp) _ _).setBit (by simp) _ _).evt (by simp) 9).inc (by simp) 1)
  have heq : s.statementReady t = { y with ks := { s.ks with att := none } } := by
    unfold State.statementReady
    simp only [ha]
    rw [← ho, ← hp, hy]
    have hk : p.ks = s.ks := by rw [hpo.frame]; rfl
    rw [hk]
    rfl
  have hev : ((p.setBit KS_ATTCTL 1 false).setBit KS_ATTCTL 2 true).rdN (KS_CNT 7) = s.rdN (KS_CNT 7) := by
    rw [rdN_setBit_ne _ _ _ _ _ (by decide), rdN_setBit_ne _ _ _ _ _ (by decide), hpo.same.rdN (not_stmtReg (by decide))]
    rfl
  have h1 : y.bit KS_ATTCTL 1 = false := by
    rw [hy, State.inc, bit_wrN_ne _ _ _ _ _ (by decide), State.evt, bit_wrN_ne _ _ _ _ _ (by decide), bit_setBit _ _ _ _ _ (by decide), if_neg (by decide),
      bit_setBit _ _ _ _ _ (by decide), if_pos rfl]
  have h2 : y.bit KS_ATTCTL 2 = true := by
    rw [hy, State.inc, bit_wrN_ne _ _ _ _ _ (by decide), State.evt, bit_wrN_ne _ _ _ _ _ (by decide), bit_setBit _ _ _ _ _ (by decide), if_pos rfl]
  have h9 : y.bit KS_EVENT 9 = true := by
    rw [hy, State.inc, bit_wrN_ne _ _ _ _ _ (by decide)]
    exact bit_evt_same _ _ _ (by decide)
  have hcnt : y.rdN (KS_CNT 7) = (s.rdN (KS_CNT 7) + 1) % 2 ^ 32 := by rw [hy, rdN_inc_same, rdN_evt_ne _ _ _ _ (by decide), hev]
  have hst (k : Nat) (hk : k < 54) : y.rdN (KS_STMT k) = leAt o (4 * k) 4 := by
    have hn1 : KS_STMT k ≠ KS_ATTCTL := by unfold KS_STMT KS_ATTCTL; omega
    have hn2 : KS_STMT k ≠ KS_EVENT := by unfold KS_STMT KS_EVENT; omega
    have hn3 : KS_STMT k ≠ KS_CNT 7 := by unfold KS_STMT KS_CNT; omega
    rw [hy, rdN_inc_ne _ _ _ _ hn3, rdN_evt_ne _ _ _ _ hn2, rdN_setBit_ne _ _ _ _ _ hn1, rdN_setBit_ne _ _ _ _ _ hn1, hp, rdN_putStatement _ _ hk]
  have hsame : sameRegs (KS_ATTCTL :: KS_EVENT :: KS_CNT 7 :: stmtRegs) s y := hyo.same.left rfl
  obtain ⟨R, hR⟩ := hyo.regs_eq
  rw [hR] at heq h1 h2 h9 hcnt hsame
  simp only [hR] at hst
  exact after_of rfl heq fun b _ => ⟨hst, rfl, h1, h2, h9, hcnt, hsame.right rfl, rfl⟩

/-- Settles O53: what a tamper response erases and zeroises, the tamper configuration, and the statement captured and signed. -/
theorem tamperAndStatements : Obligations.TamperAndStatements := by
  unfold Obligations.TamperAndStatements
  exact ⟨fun s t src h6 hv hb hc => ⟨after_tamperErases t h6 hv hb hc, fun hd => after_tamperOff t h6 hv hb hc hd,
    fun hd hm hst hf hs hg => after_tamperOn t h6 hv hb hc hd hm hst hf hs hg⟩, fun s ms w src val hs h6 => after_tampCfg val hs h6, after_attest,
    fun s t d ha => after_statementReady t ha⟩

end Sys2Proof.Proofs
end

section
/-! PROOFS. The sleep sequence (R472 to R478, R495). -/
set_option Elab.async false
namespace Sys2Proof.Machine
open Sys2Proof

/-! ### Masks of numbered items -/

/-- A mask summed from the powers of the indices that satisfy `p` stays under the power of their bound, and holds just their bits. -/
theorem maskSum_below (p : Nat → Bool) (n : Nat) : (((List.range n).filter p).map (2 ^ ·)).sum < 2 ^ n ∧
    ∀ k, ((((List.range n).filter p).map (2 ^ ·)).sum).testBit k = (decide (k < n) && p k) := by
  induction n with
  | zero => exact ⟨Nat.one_pos, fun k => by simp⟩
  | succ n ih =>
    obtain ⟨hlt, hbit⟩ := ih
    rw [List.range_succ, List.filter_append, List.map_append, List.sum_append]
    obtain ⟨x, hx⟩ : ∃ x, x = (((List.range n).filter p).map (2 ^ ·)).sum := ⟨_, rfl⟩
    rw [← hx] at hlt hbit ⊢
    cases hp : p n with
    | false =>
      simp only [List.filter_cons, hp, List.filter_nil, List.map_nil, List.sum_nil, Nat.add_zero, Bool.false_eq_true, if_false]
      refine ⟨by rw [Nat.pow_succ]; omega, fun k => ?_⟩
      rw [hbit k]
      by_cases hk : k = n
      · rw [hk, hp, Bool.and_false, Bool.and_false]
      · rw [decide_eq_decide.mpr (show k < n ↔ k < n + 1 by omega)]
    | true =>
      simp only [List.filter_cons, hp, List.filter_nil, List.map_cons, List.map_nil, List.sum_cons, List.sum_nil, Nat.add_zero, if_true]
      refine ⟨by rw [Nat.pow_succ]; omega, fun k => ?_⟩
      rw [Nat.add_comm]
      rcases Nat.lt_trichotomy k n with h | h | h
      · rw [Nat.testBit_two_pow_add_gt h, hbit k, decide_eq_true h, decide_eq_true (Nat.lt_succ_of_lt h)]
      · rw [h, Nat.testBit_two_pow_add_eq, hbit n, hp]
        simp
      · rw [Nat.testBit_lt_two_pow (lt_of_lt_of_le (by rw [Nat.pow_succ]; omega) (Nat.pow_le_pow_right (by decide) h)), decide_eq_false (by omega), Bool.false_and]

/-! ### Quiesce begins (R474, R481) -/

/-- The listeners that the configuration enables and that may not be armed. -/
def State.lstLeft (s : State) : Nat := ((s.lstEnabled.filter (fun k => !s.lstMay k)).map (2 ^ ·)).sum

theorem lstLeft_testBit (s : State) {k : Nat} (hk : k < 16) : s.lstLeft.testBit k = (s.bit (WK_LST_CFG k) 7 && !s.lstMay k) := by
  unfold State.lstLeft State.lstEnabled
  rw [List.filter_filter, (maskSum_below _ 16).2 k, decide_eq_true hk, Bool.true_and, Bool.and_comm]

/-- In quiesce the tenons with nothing on the wire let go of their pins (R474). -/
theorem letGo_quiesced {s : State} (hq : s.wk.quiesce = true) (n : Nat) :
    ∃ z, (List.range n).foldl (fun s m => s.letGo m) s = { s with mz := z } ∧ ∀ m < n, s.txBusy m = false → m < s.mz.length → (nth z m).pins ≠ .tenon := by
  suffices h : ∃ z, (List.range n).foldl (fun s m => s.letGo m) s = { s with mz := z } ∧ z.length = s.mz.length ∧ (∀ m, n ≤ m → nth z m = s.mort m) ∧
      ∀ m < n, s.txBusy m = false → m < s.mz.length → (nth z m).pins ≠ .tenon by
    obtain ⟨z, hz, -, -, hp⟩ := h
    exact ⟨z, hz, hp⟩
  induction n with
  | zero => exact ⟨s.mz, rfl, rfl, fun m _ => rfl, fun m hm => absurd hm (Nat.not_lt_zero m)⟩
  | succ n ih =>
    obtain ⟨z, hz, hl, hkeep, hp⟩ := ih
    rw [List.range_succ, List.foldl_append, hz]
    obtain ⟨x, hx⟩ : ∃ x : State, x = { s with mz := z } := ⟨_, rfl⟩
    have hxn : x.mort n = s.mort n := by
      rw [hx]
      exact hkeep n (Nat.le_refl n)
    have hbusy : x.txBusy n = s.txBusy n := txBusy_congr (by rw [hx]) hxn (by rw [hx]; rfl)
    have hgo : x.letGo n = if s.txBusy n = false then x.onMort n Mortise.idlePins else x := by
      unfold State.letGo
      rw [hbusy, show x.wk.quiesce = true by rw [hx]; exact hq, Bool.or_true, Bool.true_and]
      cases s.txBusy n <;> rfl
    rw [List.foldl_cons, List.foldl_nil, ← hx, hgo]
    by_cases hb : s.txBusy n = false
    · rw [if_pos hb]
      refine ⟨updAt z n Mortise.idlePins, by rw [hx]; rfl, by rw [updAt_length, hl], fun m hm => ?_, fun m hm hmb hml => ?_⟩
      · rw [nth_updAt, if_neg (by omega)]
        exact hkeep m (by omega)
      · rw [nth_updAt]
        by_cases he : m = n
        · rw [if_pos ⟨he, by rw [hl]; omega⟩]
          exact idlePins_not_tenon _
        · rw [if_neg (by omega)]
          exact hp m (by omega) hmb hml
    · rw [if_neg hb, hx]
      refine ⟨z, rfl, hl, fun m hm => hkeep m (by omega), fun m hm hmb hml => hp m ?_ hmb hml⟩
      have : m ≠ n := fun he => hb (he ▸ hmb)
      omega

/-- The start of quiesce arms the sources, marks the listeners left out, and lets the idle pins go. -/
theorem beginQuiesce_eq (s : State) : ∃ z, s.beginQuiesce = { s with
      mz := z, wk := { s.wk with st := 2, quiesce := true, pinsAt := none, lstOff := s.lstLeft }
      sill := { s.armSill.sill with latched := [], lstErr := List.replicate 16 0 } } ∧
    ∀ m < 128, s.txBusy m = false → m < s.mz.length → (nth z m).pins ≠ .tenon := by
  obtain ⟨x, hx⟩ : ∃ x : State, x = { s with
      wk := { s.wk with st := 2, quiesce := true, pinsAt := none, lstOff := s.lstLeft }
      sill := { s.armSill.sill with latched := [], lstErr := List.replicate 16 0 } } := ⟨_, rfl⟩
  obtain ⟨z, hz, hp⟩ := letGo_quiesced (s := x) (by rw [hx]) 128
  refine ⟨z, ?_, fun m hm hb hl => hp m hm ?_ (by rw [hx]; exact hl)⟩
  · show (List.range 128).foldl (fun s m => s.letGo m) { s with
      wk := { s.wk with st := 2, quiesce := true, pinsAt := none, lstOff := s.lstLeft }
      sill := { s.armSill.sill with latched := [], lstErr := List.replicate 16 0 } } = _
    rw [← hx, hz, hx]
  · rw [← hb, hx]
    rfl

/-- The wake configuration the sill die takes (R474, R479). -/
theorem armSill_sill (s : State) : s.armSill.sill.inEn = s.fld WK_WKCFG 0 8 ∧ s.armSill.sill.timer = s.fld WK_TIMER 0 24 ∧
    s.armSill.sill.dwell = s.fld WK_SLPCFG 16 8 ∧ s.armSill.sill.latched = s.sill.latched ∧
    s.armSill.sill.phys = (if s.wk.sill then 0 else s.fld WK_T1SARM 0 16 &&& s.physUp) ∧ (s.wk.sill = true → s.armSill.sill.listeners = 0) := by
  refine ⟨rfl, rfl, rfl, rfl, ?_, fun h => ?_⟩
  · show (if (!s.wk.sill) = true then _ else 0) = _
    cases s.wk.sill <;> rfl
  · show (if (!s.wk.sill) = true then _ else 0) = 0
    rw [h]
    rfl

theorem tick_again (s : State) (t : Nat) : (s.tick t).tick t = s.tick t := by
  show ({ s with now := max (max s.now t) t } : State) = { s with now := max s.now t }
  rw [max_assoc, max_self]

/-- A processed command with an instant of its own, of an epoch whose processing runs. -/
theorem after_tickedProcessing {i : Instr} {s x : State} {t : Nat} {needsEpoch : Bool} {f : State → State} {P : State → Prop}
    (h : exec i s = .next (s.settle ((s.tick t).processed needsEpoch f))) (hp : s.inProcessing) (e : f (s.tick t) = x) (hr : x.ep.running = s.ep.running) (hx : x.hb = s.hb)
    (k : ∀ b : Bridge, sameBridge s { x with hb := b } → P { x with hb := b }) : After i s P := by
  obtain ⟨hd, ha, hrun⟩ := hp
  exact after_hb h ((processed_running (s := s.tick t) hd ha (by rw [e, hr]; exact hrun)).trans e) hx k

/-! ### Deciding, hurrying and ending a sleep (R472, R473, R475) -/

theorem decideSleep_forced {s : State} (c : Nat) (hst : s.wk.st = 0) (hgo : s.wk.go ≠ some c) : s.decideSleep c true = { s with
    held := s.held ++ [.put WK_STATUS 0 2 1, .put WK_STATUS 2 1 1, .add (WK_CNT 0) 1, .or WK_EVENT 1]
    wk := { s.wk with
      st := 1, forced := true, sill := s.bit WK_SLPCFG 1, qEp := some (c + cdiv (max 1 (s.fld WK_SLPCFG 4 10) * 1000000) s.elen), cEp := none
      cancel := s.wk.cancel.filter (fun x => x == c) } } := by
  unfold State.decideSleep
  have hne : (s.wk.go == some c) = false := beq_eq_false_iff_ne.mpr hgo
  rw [if_neg (by rw [hst]; decide), hne]
  simp [State.cPut, State.cInc, State.cEvt, State.hold, State.onWk, b2n]

theorem cancelSleep_ends {s : State} (x : Nat) (hst : s.wk.st ≠ 0) (hb : s.wk.benchAt = none) (hc : ∀ k, s.wk.cEp = some k → x ≤ k) :
    s.cancelSleep x = { s with
      held := s.held ++ [.put WK_STATUS 0 2 0, .put WK_STATUS 2 1 0, .add (WK_CNT 1) 1, .or WK_EVENT (2 ^ 1)]
      wk := { s.wk with st := 0, forced := false, cEp := none, cancel := some x }, sill := { s.sill with latched := [] } } := by
  have hany : (s.wk.cEp.any fun c => decide (c < x)) = false := by
    cases h : s.wk.cEp with
    | none => rfl
    | some k => exact decide_eq_false (Nat.not_lt.mpr (hc k h))
  unfold State.cancelSleep
  rw [hany, hb, if_neg (by simpa using hst)]
  simp [State.cPut, State.cInc, State.cEvt, State.hold, State.onWk, State.onSill]

/-! ### The commit point (R476) -/

/-- The pins after a reset of the frame die are those the reset gives. -/
theorem dieReset_pins (s : State) (pins : PinCond) (hp : pins ≠ .tenon) (m : Nat) : ((s.dieReset pins).mort m).pins ≠ .tenon := by
  unfold State.dieReset State.mort nth
  rw [List.getD_eq_getElem?_getD, List.getElem?_map]
  cases s.leaveHold.dieRegs.gradeRegs.mz[m]? with
  | none => exact fun h => by cases h
  | some x => exact hp

end Sys2Proof.Machine

namespace Sys2Proof.Proofs
open Sys2Proof Sys2Proof.Machine

theorem sleep_commands (s : State) (t c : Nat) (hin : s.inService) :
    (s.wk.st = 0 → s.wk.go ≠ some c → After (.sleepRequest t c) s fun u =>
      u.wk = { s.wk with
        st := 1, forced := true, sill := s.bit WK_SLPCFG 1, qEp := some (c + cdiv (max 1 (s.fld WK_SLPCFG 4 10) * 1000000) s.elen), cEp := none
        cancel := s.wk.cancel.filter (fun x => x == c) } ∧
      u.held = s.held ++ [.put WK_STATUS 0 2 1, .put WK_STATUS 2 1 1, .add (WK_CNT 0) 1, .or WK_EVENT 1] ∧
      u = { s with now := max s.now t, held := u.held, wk := u.wk, hb := u.hb } ∧ sameBridge s u) ∧
    (∀ q, s.wk.st = 1 → s.wk.qEp = some q → After (.sleepGo c) s fun u =>
      u.wk = { s.wk with go := some c, qEp := some (min q (c + 1)) } ∧ u = { s with wk := u.wk, hb := u.hb } ∧ sameBridge s u) ∧
    (∀ x, s.ep.running = some x → s.wk.st ≠ 0 → s.wk.benchAt = none → (∀ k, s.wk.cEp = some k → x ≤ k) → After (.sleepCancel t) s fun u =>
      u.wk = { s.wk with st := 0, forced := false, cEp := none, cancel := some x } ∧ u.sill = { s.sill with latched := [] } ∧
      u.held = s.held ++ [.put WK_STATUS 0 2 0, .put WK_STATUS 2 1 0, .add (WK_CNT 1) 1, .or WK_EVENT (2 ^ 1)] ∧
      u = { s with now := max s.now t, held := u.held, wk := u.wk, sill := u.sill, hb := u.hb } ∧ sameBridge s u) ∧
    (After (.awakeRestart c) s fun u =>
      u.wk = { s.wk with awake := 0, expired := false, nets := s.wk.nets.map (fun x => { x with blocked := [] }) } ∧ u.held = s.held ++ [.put WK_STATUS 3 1 0] ∧
      u = { s with held := u.held, wk := u.wk, hb := u.hb } ∧ sameBridge s u) := by
  obtain ⟨hp, hsv, -⟩ := hin
  have hmodes : s.mode ≠ .bench ∧ s.mode ≠ .raise := by
    constructor <;> intro h <;> rw [State.serving, h] at hsv <;> exact absurd hsv (by simp)
  refine ⟨fun hst hgo => ?_, fun q hst hq => ?_, fun x hx hst hb hc => ?_, ?_⟩
  · have e : (s.tick t).sleepRequest t c = { s with
        now := max s.now t
        held := s.held ++ [.put WK_STATUS 0 2 1, .put WK_STATUS 2 1 1, .add (WK_CNT 0) 1, .or WK_EVENT 1]
        wk := { s.wk with
          st := 1, forced := true, sill := s.bit WK_SLPCFG 1, qEp := some (c + cdiv (max 1 (s.fld WK_SLPCFG 4 10) * 1000000) s.elen), cEp := none
          cancel := s.wk.cancel.filter (fun x => x == c) } } := by
      unfold State.sleepRequest
      rw [tick_again, if_neg (by simpa using hmodes.1), if_neg (by simpa using hmodes.2)]
      exact decideSleep_forced c hst hgo
    exact after_tickedProcessing rfl hp e rfl rfl fun b hb => ⟨rfl, rfl, rfl, hb⟩
  · have e : s.sleepGo c = { s with wk := { s.wk with go := some c, qEp := some (min q (c + 1)) } } := by
      unfold State.sleepGo
      rw [if_pos (by show (s.wk.st == 1) = true; rw [hst]; rfl)]
      show { s with wk := { s.wk with go := some c, qEp := s.wk.qEp.map (fun q => min q (c + 1)) } } = _
      rw [hq]
      rfl
    exact after_inProcessing rfl hp e rfl rfl fun b hb => ⟨rfl, rfl, hb⟩
  · have e : (s.tick t).sleepCancel t = { s with
        now := max s.now t
        held := s.held ++ [.put WK_STATUS 0 2 0, .put WK_STATUS 2 1 0, .add (WK_CNT 1) 1, .or WK_EVENT (2 ^ 1)]
        wk := { s.wk with st := 0, forced := false, cEp := none, cancel := some x }, sill := { s.sill with latched := [] } } := by
      unfold State.sleepCancel
      have hrun : (s.tick t).ep.running = some x := hx
      rw [tick_again]
      dsimp only
      rw [hrun]
      exact cancelSleep_ends (s := s.tick t) x hst hb hc
    exact after_tickedProcessing rfl hp e rfl rfl fun b hb => ⟨rfl, rfl, rfl, rfl, hb⟩
  · exact after_inProcessing (x := { s with
        held := s.held ++ [.put WK_STATUS 3 1 0]
        wk := { s.wk with awake := 0, expired := false, nets := s.wk.nets.map (fun x => { x with blocked := [] }) } }) rfl hp rfl rfl rfl
      fun b hb => ⟨rfl, rfl, rfl, hb⟩

theorem sleepRequest_bench (s : State) (t c : Nat) (hd : s.dieOn = true) (hm : s.mode = .bench) (hh : s.held = []) (hst : s.wk.st = 0) :
    After (.sleepRequest t c) s fun u =>
      u.wk = { s.wk with
        st := 2, forced := true, sill := s.bit WK_SLPCFG 1, benchAt := some (max s.now t + (s.drMax + 1000) * 1000), quiesce := true, pinsAt := none, lstOff := u.wk.lstOff } ∧
      u.fld WK_STATUS 0 2 = 2 ∧ u.bit WK_STATUS 2 = true ∧ u.bit WK_EVENT 2 = true ∧ u.rdN (WK_CNT 0) = (s.rdN (WK_CNT 0) + 1) % 2 ^ 32 ∧
      sameRegs [WK_STATUS, WK_EVENT, WK_CNT 0] s u ∧ u.mode = .bench ∧ u.now = max s.now t := by
  obtain ⟨w, hw⟩ : ∃ w : State, w = (s.tick t).onWk fun w => { w with
      forced := true, sill := (s.tick t).bit WK_SLPCFG 1, benchAt := some ((s.tick t).now + ((s.tick t).drMax + 1000) * 1000) } := ⟨_, rfl⟩
  obtain ⟨z, hz, -⟩ := beginQuiesce_eq w
  obtain ⟨x, hx⟩ : ∃ x, x = w.beginQuiesce := ⟨_, rfl⟩
  obtain ⟨a, ha⟩ : ∃ a, a = ((x.setFld WK_STATUS 0 2 2).setFld WK_STATUS 16 16 x.wk.lstOff).setBit WK_STATUS 2 true := ⟨_, rfl⟩
  obtain ⟨y, hy⟩ : ∃ y, y = ((a.inc (WK_CNT 0)).evt WK_EVENT 0).evt WK_EVENT 2 := ⟨_, rfl⟩
  have e : (s.tick t).sleepRequest t c = y := by
    unfold State.sleepRequest
    rw [tick_again, if_pos (by show (s.mode == .bench) = true; rw [hm]; rfl), if_neg (by show ¬(s.wk.st != 0) = true; rw [hst]; decide), hy, ha, hx, hw]
  have hao : RegsOnly [WK_STATUS] x a := by
    rw [ha]
    exact (((RegsOnly.refl _ x).setFld (by simp) 0 2 2).setFld (by simp) 16 16 x.wk.lstOff).setBit (by simp) 2 true
  have hay : RegsOnly [WK_EVENT, WK_CNT 0] a y := by
    rw [hy]
    exact (((RegsOnly.refl _ a).inc (by simp) 1).evt (by simp) 0).evt (by simp) 2
  have hxs : x.regs = s.regs := by rw [hx, hz, hw]; rfl
  have hrd : ∀ r, x.rdN r = s.rdN r := fun r => congrArg BitVec.toNat (rd_congr hxs r)
  have hf1 : y.fld WK_STATUS 0 2 = 2 := by
    rw [hay.same.fld (by decide), ha, show ∀ q : State, (q.setBit WK_STATUS 2 true).fld WK_STATUS 0 2 = q.fld WK_STATUS 0 2 from fun q => fld_congr_bits fun k hk => by
      rw [bit_setBit _ _ _ _ _ (by omega), if_neg (by omega)], fld_setFld_ne _ _ _ _ _ _ _ (by decide) (by decide), fld_setFld_same _ _ _ _ _ (by decide)] <;> rfl
  have hb1 : y.bit WK_STATUS 2 = true := by
    rw [hay.same.bit (by decide), ha, bit_setBit _ _ _ _ _ (by decide), if_pos rfl]
  have hb2 : y.bit WK_EVENT 2 = true := by rw [hy, bit_evt_same _ _ _ (by decide)]
  have hc : y.rdN (WK_CNT 0) = (s.rdN (WK_CNT 0) + 1) % 2 ^ 32 := by
    rw [hy, rdN_evt_ne _ _ _ _ (by decide), rdN_evt_ne _ _ _ _ (by decide), rdN_inc_same, hao.same.rdN (by decide), hrd]
  have hall : sameRegs [WK_STATUS, WK_EVENT, WK_CNT 0] s y := (sameRegs.of_regs hxs).trans
    ((hao.mono (by simp)).trans (hay.mono (by simp)) : RegsOnly [WK_STATUS, WK_EVENT, WK_CNT 0] x y).same
  have hfr := ((hao.mono (by simp)).trans (hay.mono (by simp)) : RegsOnly [WK_STATUS, WK_EVENT, WK_CNT 0] x y).frame
  have hyh : y.held = [] := by rw [hfr, hx, hz, hw]; exact hh
  have hwk : y.wk = { s.wk with
      st := 2, forced := true, sill := s.bit WK_SLPCFG 1, benchAt := some (max s.now t + (s.drMax + 1000) * 1000), quiesce := true, pinsAt := none, lstOff := y.wk.lstOff } := by
    rw [hfr, hx, hz, hw]
    rfl
  have hmode : y.mode = .bench := by rw [hfr, hx, hz, hw]; exact hm
  have hnow : y.now = max s.now t := by rw [hfr, hx, hz, hw]; rfl
  exact after_of rfl ((processed_unheld (f := fun s => s.sleepRequest t c) (s := s.tick t) hd (by simp) (by rw [e]; exact hyh)).trans e)
    fun _ _ => ⟨hwk, hf1, hb1, hb2, hc, hall, hmode, hnow⟩

theorem quiesceStart_begins (s : State) (t q c : Nat) (hst : s.wk.st = 1) (hq : s.wk.qEp = some q) (hc : s.ep.cur = some c) (hqc : q ≤ c) (hmz : s.mz.length = 128) :
    After (.quiesceStart t q) s fun u =>
      u.wk = { s.wk with st := 2, quiesce := true, pinsAt := none, lstOff := u.wk.lstOff, cEp := some (q + cdiv ((s.drMax + 1000) * 1000) s.elen) } ∧
      (∀ k < 16, u.wk.lstOff.testBit k = (s.bit (WK_LST_CFG k) 7 && !s.lstMay k)) ∧
      u.sill.inEn = s.fld WK_WKCFG 0 8 ∧ u.sill.timer = s.fld WK_TIMER 0 24 ∧ u.sill.latched = [] ∧ u.sill.phys = (if s.wk.sill then 0 else s.fld WK_T1SARM 0 16 &&& s.physUp) ∧
      (∀ m < 128, (s.tick t).txBusy m = false → (u.mort m).pins ≠ .tenon) ∧
      u = { s with now := max s.now t, mz := u.mz, wk := u.wk, sill := u.sill, hb := u.hb } := by
  obtain ⟨w, hw⟩ : ∃ w : State, w = (s.tick t).onWk fun w => { w with cEp := some (q + cdiv ((s.drMax + 1000) * 1000) s.elen) } := ⟨_, rfl⟩
  obtain ⟨z, hz, hpins⟩ := beginQuiesce_eq w
  obtain ⟨d, hd⟩ : ∃ d, d = ({ w.armSill.sill with latched := [], lstErr := List.replicate 16 0 } : SillDie) := ⟨_, rfl⟩
  have hleft : ∀ k < 16, w.lstLeft.testBit k = (s.bit (WK_LST_CFG k) 7 && !s.lstMay k) := fun k hk => by
    rw [lstLeft_testBit w hk, hw]
    rfl
  obtain ⟨hin, htm, -, -, hph, -⟩ := armSill_sill w
  have hsill : d.inEn = s.fld WK_WKCFG 0 8 ∧ d.timer = s.fld WK_TIMER 0 24 ∧ d.latched = [] ∧ d.phys = (if s.wk.sill then 0 else s.fld WK_T1SARM 0 16 &&& s.physUp) := by
    rw [hd]
    refine ⟨hin.trans ?_, htm.trans ?_, rfl, hph.trans ?_⟩ <;> rw [hw] <;> rfl
  have e : s.quiesceStart t q = { s with
      now := max s.now t, mz := z, sill := d
      wk := { s.wk with st := 2, quiesce := true, pinsAt := none, lstOff := w.lstLeft, cEp := some (q + cdiv ((s.drMax + 1000) * 1000) s.elen) } } := by
    unfold State.quiesceStart
    rw [if_pos (by show (s.wk.st == 1 && s.wk.qEp == some q && s.ep.cur.any fun c => decide (q ≤ c)) = true; rw [hst, hq, hc]; simp [hqc])]
    refine Eq.trans (congrArg State.beginQuiesce (?_ : _ = w)) (hz.trans ?_)
    · rw [hw]
      rfl
    · rw [← hd, hw]
      rfl
  obtain ⟨hs1, hs2, hs3, hs4⟩ := hsill
  have hpin : ∀ m < 128, (s.tick t).txBusy m = false → (nth z m).pins ≠ .tenon := fun m hm hb => hpins m hm (by rw [← hb, hw]; rfl) (by rw [hw]; show m < s.mz.length; omega)
  exact after_of rfl e fun b _ => ⟨rfl, hleft, hs1, hs2, hs3, hs4, hpin, rfl⟩

theorem sleepCommit_powersDown (s : State) (t : Nat) (hd : s.dieOn = true) (hc : (s.tick t).atCommit t = true) : After (.sleepCommit t) s fun u =>
    u.mode = (if s.wk.sill then .sill else .watch) ∧ u.dieOn = false ∧ u.mem = [] ∧ u.sill.enables = false ∧ u.sill.inh = !s.wk.sill ∧ u.sill.commitAt = t ∧
    u.sill.latched = s.sill.latched ∧ u.sill.inEn = s.fld WK_WKCFG 0 8 ∧ u.sill.timer = s.fld WK_TIMER 0 24 ∧ u.sill.dwell = s.fld WK_SLPCFG 16 8 ∧
    (s.wk.sill = true → u.sill.listeners = 0 ∧ u.sill.phys = 0) ∧ (∀ m < 128, (u.mort m).pins ≠ .tenon) ∧ u.tw.pairId = s.tw.pairId ∧ u.tw.gen = s.tw.gen ∧ u.ks = s.ks ∧
    u.now = max s.now t ∧ u.pending = s.pending := by
  obtain ⟨a, ha⟩ : ∃ a, a = (s.tick t).armSill := ⟨_, rfl⟩
  obtain ⟨hin, htm, hdw, hlat, hph, hls⟩ := armSill_sill (s.tick t)
  rw [← ha] at hin htm hdw hlat hph hls
  have hpins := dieReset_pins a .psleep (by decide)
  obtain ⟨hsill, htw, hks, hnow, hpend, -⟩ := dieReset_fields a .psleep
  obtain ⟨x, hx⟩ : ∃ x, x = a.dieReset .psleep := ⟨_, rfl⟩
  rw [← hx] at hpins hsill htw hks hnow hpend
  have hmode : ((if s.wk.sill = true then Mode.sill else .watch) == Mode.watch) = !s.wk.sill := by cases s.wk.sill <;> rfl
  have e : sleepCommit t s = { x with
      mode := if s.wk.sill then .sill else .watch, mem := []
      sill := { x.sill with listeners := x.sill.listeners &&& s.sill.listeners, enables := false, inh := !s.wk.sill, commitAt := t, powerT := none, fails := 0 } } := by
    unfold sleepCommit
    rw [if_neg (by show ¬(!s.dieOn || !(s.tick t).atCommit t) = true; rw [hd, hc]; decide), ← hmode, hx, ha]
    rfl
  refine after_settle (x := sleepCommit t s) rfl fun u hu _ => ?_
  rw [hu, e]
  refine ⟨rfl, ?_, rfl, rfl, rfl, rfl, ?_, ?_, ?_, ?_, fun h => ⟨?_, ?_⟩, fun m _ => hpins m, ?_, ?_, ?_, ?_, ?_⟩
  · show x.sill.dieOn = false
    rw [hsill]
  · show x.sill.latched = _
    rw [hsill]
    exact hlat
  · show x.sill.inEn = _
    rw [hsill]
    exact hin
  · show x.sill.timer = _
    rw [hsill]
    exact htm
  · show x.sill.dwell = _
    rw [hsill]
    exact hdw
  · show x.sill.listeners &&& _ = 0
    rw [hsill]
    show a.sill.listeners &&& _ = 0
    rw [hls h, Nat.zero_and]
  · show x.sill.phys = 0
    rw [hsill]
    exact hph.trans (if_pos h)
  · show x.tw.pairId = _
    rw [htw, ha]
    rfl
  · show x.tw.gen = _
    rw [htw, ha]
    rfl
  · show x.ks = _
    rw [hks, ha]
    rfl
  · show x.now = _
    rw [hnow, ha]
    rfl
  · show x.pending = _
    rw [hpend, ha]
    rfl

/-- Settles O55, clause by clause: each command by what its operation leaves of the sleep engine, the start of quiesce by the fold over the mortises that lets idle pins
go, the commit point by the reset of the frame die that it is. -/
theorem sleepSequence : Obligations.SleepSequence :=
  ⟨fun s t c h => sleep_commands s t c h, fun s t c hd hm hh hst => sleepRequest_bench s t c hd hm hh hst,
    fun s t q c hst hq hc hqc hmz => quiesceStart_begins s t q c hst hq hc hqc hmz, fun s t hd hc => sleepCommit_powersDown s t hd hc⟩

end Sys2Proof.Proofs
end

section
/-! PROOFS. Consent rings, partial networks and the maximum awake time (R486 to R495). -/
set_option Elab.async false
namespace Sys2Proof.Machine
open Sys2Proof

/-! ### What an egress frame of a mortise touches (R556) -/

/-- One machine is another but for covered updates, the queues, the frames lost to isolation, and one register. -/
def SentBy (a : Nat) (s t : State) : Prop :=
  t = { s with regs := t.regs, held := t.held, fr := { s.fr with isoDrop := t.fr.isoDrop }, sch := t.sch } ∧ sameRegs [a] s t

theorem SentBy.refl (a : Nat) (s : State) : SentBy a s s := ⟨rfl, sameRegs.refl _ s⟩

theorem SentBy.trans {a : Nat} {s t u : State} (h : SentBy a s t) (k : SentBy a t u) : SentBy a s u := by
  obtain ⟨ht, hts⟩ := h
  obtain ⟨hu, hus⟩ := k
  refine ⟨?_, hts.trans hus⟩
  obtain ⟨r, hr⟩ : ∃ r, r = t.regs := ⟨_, rfl⟩
  obtain ⟨l, hl⟩ : ∃ l, l = t.held := ⟨_, rfl⟩
  obtain ⟨d, hd⟩ : ∃ d, d = t.fr.isoDrop := ⟨_, rfl⟩
  obtain ⟨q, hq⟩ : ∃ q, q = t.sch := ⟨_, rfl⟩
  rw [← hr, ← hl, ← hd, ← hq] at ht
  subst ht
  exact hu

theorem SentBy.held {a : Nat} (s : State) (l : List Upd) : SentBy a s { s with held := l } := ⟨rfl, sameRegs.of_regs rfl⟩

theorem SentBy.isoLoss (a : Nat) (s : State) : SentBy a s s.isoLoss := ⟨rfl, sameRegs.of_regs rfl⟩

theorem SentBy.enqueueOk (a : Nat) (s : State) (e : Egress) : SentBy a s (s.enqueueOk e) := by
  have h := State.enqueueOk_keeps (c := 0x40080) rfl (.refl _ s) e
  have hfr : (s.enqueueOk e).fr = s.fr := h.at_ 11 rfl
  have hregs : (s.enqueueOk e).regs = s.regs := h.at_ 5 rfl
  exact ⟨by rw [hfr, hregs]; exact h.frame, sameRegs.of_regs hregs⟩

/-- A frame that the check of its mortise refuses is counted alone. -/
theorem SentBy.mortCheck (a : Nat) {s t : State} {e : Egress} (h : s.mortCheck e = .error t) : SentBy a s t := by
  unfold State.mortCheck at h
  extract_lets m at h
  split at h <;> split at h <;> cases h <;> exact SentBy.held s _

theorem SentBy.mortDiscard {s t : State} {n : Nat} {e : Egress} (h : s.mortDiscard n e = some t) : SentBy (MZ_CNT e.port 6) s t := by
  unfold State.mortDiscard at h
  extract_lets m x at h
  split at h
  · cases h
    exact .isoLoss _ s
  split at h
  · cases h
    exact .held s _
  split at h
  · split at h
    · cases h
      exact .held s _
    split at h
    · cases h
      exact ⟨rfl, ((RegsOnly.refl [MZ_CNT e.port 6] s).inc (List.mem_singleton.mpr rfl) 1).same⟩
    split at h <;> cases h
    exact .held s _
  · split at h <;> cases h
    exact .held s _

/-- A frame for a mortise, enqueued or discarded, touches no register but that mortise's counter of frames before a swap. -/
theorem SentBy.enqueue (s : State) (n : Nat) {e : Egress} (hp : e.port < 128) : SentBy (MZ_CNT e.port 6) s (s.enqueue n e) := by
  unfold State.enqueue
  split
  · exact .isoLoss _ s
  split
  · rename_i hd
    exact .mortDiscard hd
  · split
    · rename_i hc
      exact .mortCheck _ hc
    · exact (SentBy.held s _).trans (.enqueueOk _ _ _)

/-! ### What the timer step of a ring touches -/

/-- The counter of the ring's mortise that its frames may advance. -/
def State.ringCnt (s : State) (r : Nat) : Nat := MZ_CNT (s.fld (WK_RNG_CFG r) 0 7) 6

/-- One machine is another but for ring `r` and for what the ring's frames touch. -/
structure RingStepped (r : Nat) (s t : State) : Prop where
  frame : t = { s with regs := t.regs, held := t.held, fr := { s.fr with isoDrop := t.fr.isoDrop }, sch := t.sch, wk := { s.wk with rings := t.wk.rings } }
  regs : sameRegs [s.ringCnt r] s t
  others : ∀ j, j ≠ r → t.ring j = s.ring j
  len : t.wk.rings.length = s.wk.rings.length

theorem ringCnt_below (s : State) (r : Nat) : s.ringCnt r < 0x180020 := by
  have h : s.fld (WK_RNG_CFG r) 0 7 < 2 ^ 7 := Nat.mod_lt _ (by decide)
  unfold State.ringCnt
  show 0x100020 + 0x1000 * _ + 0x4 * 6 < _
  omega

theorem ringCnt_above (s : State) (r : Nat) : 0x100000 ≤ s.ringCnt r := by
  unfold State.ringCnt
  show _ ≤ 0x100020 + 0x1000 * _ + 0x4 * 6
  omega

/-- Registers of the WK block and of the epoch engine are none of the counters of a mortise. -/
theorem apart_ringCnt (s : State) (r : Nat) {a : Nat} (h : a < 0x100000 ∨ 0x180020 ≤ a) : a ∉ [s.ringCnt r] := by
  have hb := ringCnt_below s r
  have ha := ringCnt_above s r
  rw [List.mem_singleton]
  omega

theorem RingStepped.wk_rd {r a : Nat} {s t : State} (h : RingStepped r s t) (ha : a < 0x100000 ∨ 0x180020 ≤ a) : t.rdN a = s.rdN a := h.regs.rdN (apart_ringCnt s r ha)

theorem RingStepped.cnt {r : Nat} {s t : State} (h : RingStepped r s t) : t.ringCnt r = s.ringCnt r := by
  have : t.rdN (WK_RNG_CFG r) = s.rdN (WK_RNG_CFG r) := h.wk_rd (.inr (by unfold WK_RNG_CFG; omega))
  rw [State.ringCnt, State.fld, this]
  rfl

theorem RingStepped.refl (r : Nat) (s : State) : RingStepped r s s := ⟨rfl, sameRegs.refl _ s, fun _ _ => rfl, rfl⟩

theorem RingStepped.trans {r : Nat} {s t u : State} (h : RingStepped r s t) (k : RingStepped r t u) : RingStepped r s u := by
  refine ⟨?_, h.regs.trans (h.cnt ▸ k.regs), fun j hj => (k.others j hj).trans (h.others j hj), k.len.trans h.len⟩
  have ht := h.frame
  have hu := k.frame
  obtain ⟨x, hx⟩ : ∃ x, x = t.regs := ⟨_, rfl⟩
  obtain ⟨l, hl⟩ : ∃ l, l = t.held := ⟨_, rfl⟩
  obtain ⟨d, hd⟩ : ∃ d, d = t.fr.isoDrop := ⟨_, rfl⟩
  obtain ⟨q, hq⟩ : ∃ q, q = t.sch := ⟨_, rfl⟩
  obtain ⟨w, hw⟩ : ∃ w, w = t.wk.rings := ⟨_, rfl⟩
  rw [← hx, ← hl, ← hd, ← hq, ← hw] at ht
  clear h k hx hl hd hq hw
  subst ht
  exact hu

theorem RingStepped.sent {r : Nat} {s t : State} (h : SentBy (s.ringCnt r) s t) : RingStepped r s t := by
  obtain ⟨ht, hs⟩ := h
  have hwk : t.wk = s.wk := by rw [ht]
  refine ⟨?_, hs, fun j _ => by rw [State.ring, hwk]; rfl, by rw [hwk]⟩
  rw [hwk]
  exact ht

theorem RingStepped.held {r : Nat} (s : State) (l : List Upd) : RingStepped r s { s with held := l } := .sent (.held s l)

theorem RingStepped.onRing (r : Nat) (s : State) (f : Ring → Ring) : RingStepped r s (s.onRing r f) :=
  ⟨rfl, sameRegs.of_regs rfl, fun j hj => by
    show nth (updAt s.wk.rings r f) j = _
    rw [nth_updAt, if_neg fun h => hj h.1]
    rfl, updAt_length ..⟩

theorem ring_onRing (s : State) {r : Nat} (f : Ring → Ring) (h : r < s.wk.rings.length) : (s.onRing r f).ring r = f (s.ring r) := by
  show nth (updAt s.wk.rings r f) r = _
  rw [nth_updAt, if_pos ⟨rfl, h⟩]
  rfl

theorem RingStepped.ringSend (s : State) (n r dest flags consent : Nat) : RingStepped r s (s.ringSend n r dest flags consent) :=
  .sent (SentBy.enqueue s n (e := { port := s.fld (WK_RNG_CFG r) 0 7, cls := 7, octets := _, rel := n + 1 + s.ep.lag }) (Nat.mod_lt _ (by decide)))

theorem ring_ringSend (s : State) (n r dest flags consent : Nat) : (s.ringSend n r dest flags consent).ring r = s.ring r := by
  have h := State.ringSend_keeps (c := 0x408a0) rfl (.refl _ s) n r dest flags consent
  rw [State.ring, show (s.ringSend n r dest flags consent).wk = s.wk from h.at_ 22 rfl]
  rfl

theorem RingStepped.ringSleep (s : State) (r : Nat) : RingStepped r s (s.ringSleep r) := by
  unfold State.ringSleep
  split
  · exact .refl r s
  · exact (RingStepped.onRing r s _).trans (.held _ _)

/-! ### What a ring's step reads of it -/

theorem RingStepped.ready {r : Nat} {s t : State} (h : RingStepped r s t) : t.ringReady r = s.ringReady r := by
  have hb : t.rdN WK_RVOTE = s.rdN WK_RVOTE := h.wk_rd (.inr (by decide))
  have he : t.wk.expired = s.wk.expired := by rw [h.frame]
  rw [State.ringReady, State.bit, hb, he]
  rfl

theorem RingStepped.elen {r : Nat} {s t : State} (h : RingStepped r s t) : t.elen = s.elen := by
  have hb : t.rdN EP_CTRL = s.rdN EP_CTRL := h.wk_rd (.inl (by decide))
  rw [State.elen, State.fld, hb]
  rfl

theorem RingStepped.times {r : Nat} {s t : State} (h : RingStepped r s t) : t.ringTyp r = s.ringTyp r ∧ t.ringMax r = s.ringMax r ∧ t.ringNode r = s.ringNode r := by
  have hc : t.rdN (WK_RNG_CFG r) = s.rdN (WK_RNG_CFG r) := h.wk_rd (.inr (by unfold WK_RNG_CFG; omega))
  have ht : t.rdN (WK_RNG_TIM r) = s.rdN (WK_RNG_TIM r) := h.wk_rd (.inr (by unfold WK_RNG_TIM; omega))
  refine ⟨?_, ?_, ?_⟩
  · rw [State.ringTyp, State.ringEps, State.fld, ht, h.elen]
    rfl
  · rw [State.ringMax, State.ringEps, State.fld, ht, h.elen]
    rfl
  · rw [State.ringNode, State.fld, hc]
    rfl

theorem RingStepped.members {r n : Nat} {s t : State} (h : RingStepped r s t) (hm : (t.ring r).members = (s.ring r).members) :
    t.ringMembers n r = s.ringMembers n r := by
  obtain ⟨-, hmax, hnode⟩ := h.times
  rw [State.ringMembers, hmax, hnode, hm]
  rfl

/-- A ring whose start is not due is not due to start after a step that leaves it or takes its ALIVE away. -/
theorem RingStepped.startDue_false {r n : Nat} {s t : State} (h : RingStepped r s t) (hs : s.startDue n r = false) (ha : (s.ring r).asleep = false)
    (hm : (t.ring r).members = (s.ring r).members) (hal : (t.ring r).aliveAt = (s.ring r).aliveAt) : t.startDue n r = false := by
  obtain ⟨htyp, -, hnode⟩ := h.times
  rw [State.startDue, ha] at hs
  rw [State.startDue, htyp, hnode, h.members hm, hal, Bool.and_assoc]
  rw [Bool.and_assoc, Bool.not_false, Bool.true_and] at hs
  rw [hs, Bool.and_false]

theorem RingStepped.lossDue_false {r n : Nat} {s t : State} (h : RingStepped r s t) (hs : s.lossDue n r = false) (ha : (s.ring r).asleep = false)
    (htok : (t.ring r).tokenAt = (s.ring r).tokenAt) : t.lossDue n r = false := by
  obtain ⟨-, hmax, -⟩ := h.times
  rw [State.lossDue, ha, Bool.not_false, Bool.true_and] at hs
  rw [State.lossDue, hmax, htok, hs, Bool.and_false]

/-! ### The parts of a ring's step -/

theorem ring_ringSleep {s : State} {r : Nat} (ha : (s.ring r).asleep = false) (hl : r < s.wk.rings.length) :
    (s.ringSleep r).ring r = { s.ring r with asleep := true, pass := none } := by
  unfold State.ringSleep
  rw [ha, if_neg (by decide)]
  exact ring_onRing s _ hl

/-- A pass (R489): the frame goes on with the new count, and the ring is asleep where every member has consented. -/
theorem ringDoPass_ring {s : State} {n r c : Nat} (ha : (s.ring r).asleep = false) (hl : r < s.wk.rings.length) :
    RingStepped r s (s.ringDoPass n r c) ∧ ∃ b, (s.ringReady r = false → b = false) ∧
      (s.ringDoPass n r c).ring r = { s.ring r with pass := none, consent := if s.ringReady r then min (c + 1) 255 else 0, asleep := b } := by
  unfold State.ringDoPass
  extract_lets rdy new ack x y
  have hx : RingStepped r s x := .ringSend ..
  have hxr : x.ring r = s.ring r := ring_ringSend ..
  have hxl : r < x.wk.rings.length := by rw [hx.len]; exact hl
  have hy : RingStepped r s y := hx.trans (.onRing r x _)
  have hyr : y.ring r = { s.ring r with pass := none, consent := new } := by rw [← hxr]; exact ring_onRing x _ hxl
  clear_value y
  by_cases hack : ack = true
  · rw [if_pos hack]
    refine ⟨hy.trans (.ringSleep y r), true, fun h => ?_, ?_⟩
    · rw [show ack = (s.ringReady r && decide ((s.ringMembers n r).length ≤ new)) from rfl, h] at hack
      exact absurd hack (by simp)
    · rw [ring_ringSleep (by rw [hyr]; exact ha) (by rw [hy.len]; exact hl), hyr]
  · rw [if_neg hack]
    exact ⟨hy, false, fun _ => rfl, by rw [hyr, ← ha]⟩

/-- An ALIVE frame (R490). -/
theorem ringAlive_ring {s : State} {n r : Nat} (hl : r < s.wk.rings.length) :
    RingStepped r s (s.ringAlive n r) ∧ (s.ringAlive n r).ring r = { s.ring r with owe := false, aliveAt := some n, consent := 0 } := by
  unfold State.ringAlive
  have hx : RingStepped r s (s.ringSend n r (s.ringNode r) 8 0) := .ringSend ..
  refine ⟨hx.trans (.onRing r _ _), ?_⟩
  rw [ring_onRing _ _ (by rw [hx.len]; exact hl), ring_ringSend]

/-- The loss of a ring's token (R491). -/
def State.ringLoss (s : State) (n r : Nat) : State :=
  ((s.onRing r (fun x => { x with lost := true, members := [], tokenAt := n })).cEvt WK_EVENT 5).ringAlive n r

theorem ringLoss_ring {s : State} {n r : Nat} (hl : r < s.wk.rings.length) : RingStepped r s (s.ringLoss n r) ∧
    (s.ringLoss n r).ring r = { s.ring r with lost := true, members := [], tokenAt := n, owe := false, aliveAt := some n, consent := 0 } := by
  obtain ⟨x, hx⟩ : ∃ x, x = (s.onRing r (fun x => { x with lost := true, members := [], tokenAt := n })).cEvt WK_EVENT 5 := ⟨_, rfl⟩
  have hxs : RingStepped r s x := by
    rw [hx]
    exact (RingStepped.onRing r s _).trans (.held _ _)
  have hxr : x.ring r = { s.ring r with lost := true, members := [], tokenAt := n } := by
    rw [hx]
    exact ring_onRing s _ hl
  obtain ⟨hs, hr⟩ := ringAlive_ring (s := x) (n := n) (by rw [hxs.len]; exact hl)
  unfold State.ringLoss
  rw [← hx]
  exact ⟨hxs.trans hs, by rw [hr, hxr]⟩

/-- The end of a ring's step: how long the ring has been alone, its sleep where that is long enough, and its status (R491). -/
def State.ringEnd (s : State) (n r : Nat) : State :=
  let alone := (s.ringMembers n r).length == 1
  let s := s.onRing r (fun x => { x with aloneAt := if alone then x.aloneAt else n + 1 })
  let s := if alone && decide ((s.ring r).aloneAt + s.ringMax r ≤ n + 1) && s.ringReady r then s.ringSleep r else s
  s.ringShow n r

theorem ringEnd_ring {s : State} {n r : Nat} (hl : r < s.wk.rings.length) : RingStepped r s (s.ringEnd n r) ∧
    ∃ k b p, (s.ringReady r = false → b = (s.ring r).asleep) ∧ ((s.ring r).pass = none → p = none) ∧
      (s.ringEnd n r).ring r = { s.ring r with aloneAt := k, asleep := b, pass := p } := by
  unfold State.ringEnd
  extract_lets alone x y
  have hx : RingStepped r s x := .onRing r s _
  have hxr : x.ring r = { s.ring r with aloneAt := if alone = true then (s.ring r).aloneAt else n + 1 } := ring_onRing s _ hl
  have hready : x.ringReady r = s.ringReady r := hx.ready
  have hxl : r < x.wk.rings.length := by rw [hx.len]; exact hl
  have hshow : ∀ z : State, RingStepped r z (z.ringShow n r) ∧ (z.ringShow n r).ring r = z.ring r := fun z => ⟨.held z _, rfl⟩
  obtain ⟨hs, hr⟩ := hshow y
  suffices h : RingStepped r x y ∧ ∃ b p, (x.ringReady r = false → b = (s.ring r).asleep) ∧ ((s.ring r).pass = none → p = none) ∧ y.ring r = { x.ring r with asleep := b, pass := p } by
    obtain ⟨hy, b, p, hb, hp, hyr⟩ := h
    exact ⟨(hx.trans hy).trans hs, _, b, p, fun h => hb (hready.trans h), hp, by rw [hr, hyr, hxr]⟩
  have hasleep : (x.ring r).asleep = (s.ring r).asleep := by rw [hxr]
  have hpass : (x.ring r).pass = (s.ring r).pass := by rw [hxr]
  clear_value x
  by_cases hc : (alone && decide ((x.ring r).aloneAt + x.ringMax r ≤ n + 1) && x.ringReady r) = true
  · rw [show y = x.ringSleep r from if_pos hc]
    by_cases ha : (x.ring r).asleep = true
    · have hsame : x.ringSleep r = x := if_pos ha
      rw [hsame]
      exact ⟨.refl r x, (x.ring r).asleep, (x.ring r).pass, fun _ => hasleep, fun h => hpass.trans h, rfl⟩
    · refine ⟨.ringSleep x r, true, none, fun h => ?_, fun _ => rfl, ring_ringSleep (by simpa using ha) hxl⟩
      rw [h, Bool.and_false] at hc
      exact absurd hc (by decide)
  · rw [show y = x from if_neg hc]
    exact ⟨.refl r x, (x.ring r).asleep, (x.ring r).pass, fun _ => hasleep, fun h => hpass.trans h, rfl⟩

/-- The pass of a token in a ring's step (R489). -/
def State.ringPassStep (s : State) (n r : Nat) : State :=
  match (s.ring r).pass with
  | some (e, c) => if !(s.ring r).asleep && e ≤ n then s.ringDoPass n r c else s
  | none => s

/-- The start of a ring in its step (R491). -/
def State.ringStartStep (s : State) (n r : Nat) : State :=
  if s.startDue n r then (s.onRing r (fun x => { x with aliveAt := none })).ringDoPass n r 0 else s

/-- The loss of a ring's token in its step (R491). -/
def State.ringLossStep (s : State) (n r : Nat) : State := if s.lossDue n r then s.ringLoss n r else s

theorem ringPassStep_none {s : State} {n r : Nat} (h : (s.ring r).pass = none) : s.ringPassStep n r = s := by
  unfold State.ringPassStep
  rw [h]

theorem ringPassStep_due {s : State} {n r e k : Nat} (ha : (s.ring r).asleep = false) (hp : (s.ring r).pass = some (e, k)) (he : e ≤ n) :
    s.ringPassStep n r = s.ringDoPass n r k := by
  unfold State.ringPassStep
  rw [hp, ha]
  exact if_pos (by simpa using he)

/-- The step of a ring that is awake and owes no ALIVE. -/
theorem ringStep_awake {s : State} {n r : Nat} (hen : s.bit (WK_RNG_CFG r) 7 = true) (ha : (s.ring r).asleep = false) (ho : (s.ring r).owe = false) :
    s.ringStep n r = (((s.ringPassStep n r).ringStartStep n r).ringLossStep n r).ringEnd n r := by
  unfold State.ringStep
  rw [if_neg (by rw [hen]; decide), ha]
  simp only [Bool.false_and, Bool.false_eq_true, if_false, ho]
  rfl

/-! ### The timer step up to a ring -/

theorem filter_range_done (d k : Nat) (h : k ≤ d) : (List.range k).filter (fun r => decide (d ≤ r)) = [] :=
  List.filter_eq_nil_iff.mpr fun r hr => by
    have := List.mem_range.mp hr
    simpa using (by omega : r < d)

theorem filter_range_next (d : Nat) : (List.range (d + 1)).filter (fun r => decide (d ≤ r)) = [d] := by
  rw [List.range_succ, List.filter_append, filter_range_done d d (Nat.le_refl d)]
  simp

/-- The rings before the one in hand are done. -/
theorem wkRings_done {s : State} {n k : Nat} (hw : s.wk.woke = true) (hk : k ≤ s.wk.ringsDone) : s.wkRings n k = s := by
  unfold State.wkRings State.wkStart
  rw [if_pos hw]
  show ((((List.range k).filter fun r => decide (s.wk.ringsDone ≤ r)).foldl (fun s r => s.ringStep n r) s).onWk fun w => { w with ringsDone := max s.wk.ringsDone k }) = s
  rw [filter_range_done _ _ hk, Nat.max_eq_left hk]
  rfl

theorem wkRings_next {s : State} {n r : Nat} (hw : s.wk.woke = true) (hr : s.wk.ringsDone = r) :
    s.wkRings n (r + 1) = (s.ringStep n r).onWk fun w => { w with ringsDone := r + 1 } := by
  unfold State.wkRings State.wkStart
  rw [if_pos hw]
  show ((((List.range (r + 1)).filter fun k => decide (s.wk.ringsDone ≤ k)).foldl (fun s r => s.ringStep n r) s).onWk fun w => { w with ringsDone := max s.wk.ringsDone (r + 1) }) = _
  rw [hr, filter_range_next, Nat.max_eq_right (Nat.le_succ r)]
  rfl

theorem wkNets_next {s : State} {n p : Nat} (hw : s.wk.woke = true) (hr : s.wk.ringsDone = 32) (hp : s.wk.netsDone = p) :
    s.wkNets n (p + 1) = (s.netStep n p).onWk fun w => { w with netsDone := p + 1 } := by
  unfold State.wkNets
  rw [wkRings_done hw (by rw [hr])]
  show ((((List.range (p + 1)).filter fun k => decide (s.wk.netsDone ≤ k)).foldl (fun s p => s.netStep n p) s).onWk fun w => { w with netsDone := max s.wk.netsDone (p + 1) }) = _
  rw [hp, filter_range_next, Nat.max_eq_right (Nat.le_succ p)]
  rfl

theorem ringTurn_true {s : State} {n r : Nat} (hrun : s.ep.running = some n) (hr : r < 32) (hd : s.wk.ringsDone = r) (hen : s.bit (WK_RNG_CFG r) 7 = true) :
    s.ringTurn n r = true := by
  unfold State.ringTurn
  rw [hrun, hd, hen]
  simpa using hr

/-- A command of the timer step that brings it past ring `r`: the step of that ring, with its bridge. -/
theorem after_ringStep {i : Instr} {s x : State} {n r : Nat} {P : State → Prop} (h : exec i s = .next (s.settle (s.wkRings n (r + 1))))
    (hw : s.wk.woke = true) (hd : s.wk.ringsDone = r) (e : s.ringStep n r = x) (hx : RingStepped r s x)
    (k : ∀ u : State, u.ring r = x.ring r → u.wk.ringsDone = r + 1 → (∀ j, j ≠ r → u.ring j = s.ring j) → sameRegs [s.ringCnt r] s u →
      u = { s with regs := u.regs, held := u.held, fr := { s.fr with isoDrop := u.fr.isoDrop }, sch := u.sch, wk := { s.wk with rings := u.wk.rings, ringsDone := r + 1 }, hb := u.hb } →
      P u) : After i s P := by
  refine after_settle h fun u hu _ => ?_
  rw [wkRings_next hw hd, e] at hu
  have hwk : u.wk = { x.wk with ringsDone := r + 1 } := by rw [hu]; rfl
  refine k u (by rw [State.ring, hwk]; rfl) (by rw [hwk]) (fun j hj => ?_) ?_ ?_
  · rw [← hx.others j hj, State.ring, hwk]
    rfl
  · exact hx.regs.right (by rw [hu]; rfl)
  · have hf := hx.frame
    obtain ⟨rs, hrs⟩ : ∃ rs, rs = x.regs := ⟨_, rfl⟩
    obtain ⟨l, hl⟩ : ∃ l, l = x.held := ⟨_, rfl⟩
    obtain ⟨d, hd⟩ : ∃ d, d = x.fr.isoDrop := ⟨_, rfl⟩
    obtain ⟨q, hq⟩ : ∃ q, q = x.sch := ⟨_, rfl⟩
    obtain ⟨w, hw⟩ : ∃ w, w = x.wk.rings := ⟨_, rfl⟩
    rw [← hrs, ← hl, ← hd, ← hq, ← hw] at hf
    clear hx hrs hl hd hq hw e hwk
    subst hf
    obtain ⟨b, hb⟩ : ∃ b, b = u.hb := ⟨_, rfl⟩
    rw [← hb] at hu
    subst hu
    rfl

/-! ### Partial networks (R493) -/

theorem net_onNet (s : State) {p : Nat} (f : PartNet → PartNet) (h : p < s.wk.nets.length) : (s.onNet p f).net p = f (s.net p) := by
  show nth (updAt s.wk.nets p f) p = _
  rw [nth_updAt, if_pos ⟨rfl, h⟩]
  rfl

/-- A network whose timer has ended, and which nobody here demands, is awake no longer. -/
theorem netStep_ends {s : State} {n p e : Nat} (hl : p < s.wk.nets.length) (hen : s.bit (WK_PN_CFG p) 16 = true) (hu : (s.net p).until_ = some e) (he : e ≤ n)
    (hown : s.pnOwn p = false) (haw : (s.net p).awake = true) : ∃ z v, s.netStep n p = { s with
      held := s.held ++ [.or WK_EVENT (2 ^ 7), .put (WK_PN_STAT p) 0 32 v], wk := { s.wk with nets := z } } ∧
    nth z p = { s.net p with until_ := none, awake := false } ∧ ∀ j, j ≠ p → nth z j = s.net j := by
  unfold State.netStep
  rw [if_neg (by rw [hen]; decide)]
  extract_lets x now_ was y i z d
  have hx : x.net p = { s.net p with until_ := none } := by
    refine (net_onNet s _ hl).trans ?_
    dsimp only
    rw [hu, Option.filter_some_neg (by simpa using he)]
  have hnow : now_ = false := by
    show ((x.net p).until_.isSome || s.pnOwn p) = false
    rw [hx, hown]
    rfl
  have hwas : was = true := by
    show (x.net p).awake = true
    rw [hx]
    exact haw
  have hy : y.net p = { s.net p with until_ := none, awake := false } := by
    refine (net_onNet x _ (by rw [show x.wk.nets.length = s.wk.nets.length from updAt_length ..]; exact hl)).trans ?_
    rw [hx, hnow]
  have hothers : ∀ j, j ≠ p → y.net j = s.net j := fun j hj => by
    show nth (updAt (updAt s.wk.nets p _) p _) j = _
    rw [nth_updAt, if_neg fun h => hj h.1, nth_updAt, if_neg fun h => hj h.1]
    rfl
  have hz : z = y.cEvt WK_EVENT 7 := by
    show (if (now_ && !was) = true then _ else if (was && !now_) = true then _ else _) = _
    rw [hnow, hwas]
    rfl
  rw [hz]
  exact ⟨y.wk.nets, _, congrArg (fun l => { s with held := l, wk := { s.wk with nets := y.wk.nets } }) (List.append_assoc s.held [_] [_]), hy, hothers⟩

/-! ### The maximum awake time (R495) -/

/-- The network after the expiry: one that only others keep awake is blocked for the port that kept it. -/
def PartNet.block (x : PartNet) : PartNet := { x with blocked := if x.blocked.contains x.lastport then x.blocked else x.blocked ++ [x.lastport] }

/-- Does the expiry of the awake time block network `p`? -/
def State.blocksNet (s : State) (p : Nat) : Bool := s.bit (WK_PN_CFG p) 16 && s.bit (WK_PN_CFG p) 17 && (s.net p).until_.isSome

theorem block_mem (x : PartNet) : x.lastport ∈ x.block.blocked := by
  unfold PartNet.block
  split
  · rename_i h
    simpa using h
  · simp

theorem blockNets_fold (s : State) (hl : s.wk.nets.length = 32) : ∀ n ≤ 32, ∃ z : List PartNet,
    (List.range n).foldl (fun s p => if s.blocksNet p then s.onNet p PartNet.block else s) s = { s with wk := { s.wk with nets := z } } ∧ z.length = 32 ∧
      ∀ p < 32, nth z p = if p < n ∧ s.blocksNet p = true then (s.net p).block else s.net p := by
  intro n
  induction n with
  | zero => exact fun _ => ⟨s.wk.nets, rfl, hl, fun p _ => (if_neg fun h => absurd h.1 (Nat.not_lt_zero p)).symm⟩
  | succ n ih =>
    intro hn
    obtain ⟨z, hz, hzl, hp⟩ := ih (by omega)
    rw [List.range_succ, List.foldl_append, hz, List.foldl_cons, List.foldl_nil]
    have hnet : nth z n = s.net n := (hp n (by omega)).trans (if_neg fun h => absurd h.1 (Nat.lt_irrefl n))
    have hcond : ({ s with wk := { s.wk with nets := z } } : State).blocksNet n = s.blocksNet n := by
      show (_ && (nth z n).until_.isSome) = _
      rw [hnet]
      rfl
    rw [hcond]
    by_cases hb : s.blocksNet n = true
    · rw [if_pos hb]
      refine ⟨updAt z n PartNet.block, rfl, by rw [updAt_length, hzl], fun p hp32 => ?_⟩
      rw [nth_updAt]
      by_cases he : p = n
      · subst he
        rw [if_pos ⟨rfl, by omega⟩, if_pos ⟨Nat.lt_succ_self p, hb⟩, hnet]
      · rw [if_neg fun h => he h.1, hp p hp32]
        by_cases hlt : p < n
        · simp only [hlt, Nat.lt_succ_of_lt hlt, true_and]
        · rw [if_neg fun h => hlt h.1, if_neg fun h => absurd h.1 (by omega)]
    · rw [if_neg hb]
      refine ⟨z, rfl, hzl, fun p hp32 => ?_⟩
      rw [hp p hp32]
      by_cases he : p = n
      · subst he
        rw [if_neg fun h => hb h.2, if_neg fun h => hb h.2]
      · by_cases hlt : p < n
        · simp only [hlt, Nat.lt_succ_of_lt hlt, true_and]
        · rw [if_neg fun h => hlt h.1, if_neg fun h => absurd h.1 (by omega)]

/-- With no timer step of the gateway in hand its part of the step is over (R286). -/
theorem gwTimer_idle {s : State} (n : Nat) (h : s.gw.part = 0) : s.gwTimer n = s := by
  have h1 : s.toTimeouts n = s := if_neg (by rw [h]; decide)
  have h2 : s.toSends n = s := by
    unfold State.toSends
    rw [h1]
    exact if_neg (by rw [h]; decide)
  unfold State.gwTimer
  rw [h2]
  exact if_neg (by rw [h]; decide)

/-- The expiry of the awake time, in the order in which its networks are blocked. -/
theorem awakeExpire_eq {s : State} (hl : s.wk.nets.length = 32) : ∃ z : List PartNet, s.awakeExpire = { s with
      held := s.held ++ [.put WK_STATUS 3 1 1, .or WK_EVENT (2 ^ 8)], wk := { s.wk with expired := true, nets := z } } ∧
    ∀ p < 32, nth z p = if s.blocksNet p = true then (s.net p).block else s.net p := by
  obtain ⟨x, hx⟩ : ∃ x : State, x = { s with wk := { s.wk with expired := true } } := ⟨_, rfl⟩
  obtain ⟨z, hz, -, hp⟩ := blockNets_fold x (by rw [hx]; exact hl) 32 (Nat.le_refl 32)
  refine ⟨z, ?_, fun p hp32 => ?_⟩
  · show (State.cPut ((List.range 32).foldl (fun s p => if s.blocksNet p then s.onNet p PartNet.block else s) { s with wk := { s.wk with expired := true } })
      WK_STATUS 3 1 1).cEvt WK_EVENT 8 = _
    rw [← hx, hz, hx]
    exact congrArg (fun l => { s with held := l, wk := { s.wk with expired := true, nets := z } }) (List.append_assoc s.held [_] [_])
  · rw [hp p hp32, hx]
    simp only [hp32, true_and]
    rfl

end Sys2Proof.Machine

namespace Sys2Proof.Proofs
open Sys2Proof Sys2Proof.Machine

theorem ring_turns (s : State) (n r : Nat) (hrun : s.ep.running = some n) (hr : r < 32) (hl : s.wk.rings.length = 32) (hw : s.wk.woke = true) (hd : s.wk.ringsDone = r)
    (hen : s.bit (WK_RNG_CFG r) 7 = true) (ha : (s.ring r).asleep = false) (ho : (s.ring r).owe = false) :
    (∀ e k : Nat, (s.ring r).pass = some (e, k) → e ≤ n → s.startDue n r = false → s.lossDue n r = false → After (.ringPass n r) s fun u =>
      (u.ring r).pass = none ∧ (u.ring r).consent = (if s.ringReady r then min (k + 1) 255 else 0) ∧ (s.ringReady r = false → (u.ring r).asleep = false) ∧
      u.wk.ringsDone = r + 1 ∧ (∀ j, j ≠ r → u.ring j = s.ring j) ∧ sameRegs [MZ_CNT (s.fld (WK_RNG_CFG r) 0 7) 6] s u ∧
      u = { s with regs := u.regs, held := u.held, fr := { s.fr with isoDrop := u.fr.isoDrop }, sch := u.sch, wk := { s.wk with rings := u.wk.rings, ringsDone := r + 1 }, hb := u.hb }) ∧
    ((s.ring r).pass = none → s.startDue n r = true → s.lossDue n r = false → After (.ringStart n r) s fun u =>
      (u.ring r).aliveAt = none ∧ (u.ring r).consent = (if s.ringReady r then 1 else 0) ∧ (s.ringReady r = false → (u.ring r).asleep = false) ∧ u.wk.ringsDone = r + 1 ∧
      (∀ j, j ≠ r → u.ring j = s.ring j) ∧
      u = { s with regs := u.regs, held := u.held, fr := { s.fr with isoDrop := u.fr.isoDrop }, sch := u.sch, wk := { s.wk with rings := u.wk.rings, ringsDone := r + 1 }, hb := u.hb }) ∧
    ((s.ring r).pass = none → s.startDue n r = false → s.lossDue n r = true → After (.ringLost n r) s fun u =>
      (u.ring r).lost = true ∧ (u.ring r).members = [] ∧ (u.ring r).tokenAt = n ∧ (u.ring r).aliveAt = some n ∧ (u.ring r).consent = 0 ∧ u.wk.ringsDone = r + 1 ∧
      (∀ j, j ≠ r → u.ring j = s.ring j) ∧
      u = { s with regs := u.regs, held := u.held, fr := { s.fr with isoDrop := u.fr.isoDrop }, sch := u.sch, wk := { s.wk with rings := u.wk.rings, ringsDone := r + 1 }, hb := u.hb }) := by
  have hturn := ringTurn_true hrun hr hd hen
  have hat : s.wkRings n r = s := wkRings_done hw (by rw [hd])
  have hlen : r < s.wk.rings.length := by rw [hl]; exact hr
  refine ⟨fun e k hp he hst hlo => ?_, fun hp hst hlo => ?_, fun hp hst hlo => ?_⟩
  · have hdue : s.passDue n r = true := by
      rw [State.passDue, ha, hp]
      simpa using he
    obtain ⟨hs, b, hb, hx⟩ := ringDoPass_ring (n := n) (c := k) ha hlen
    obtain ⟨ht, j, b', p, hb', hp', hy⟩ := ringEnd_ring (s := s.ringDoPass n r k) (n := n) (by rw [hs.len]; exact hlen)
    have hst' := hs.startDue_false hst ha (by rw [hx]) (by rw [hx])
    have hlo' := hs.lossDue_false hlo ha (by rw [hx])
    have e1 : s.ringStep n r = (s.ringDoPass n r k).ringEnd n r := by
      rw [ringStep_awake hen ha ho, ringPassStep_due ha hp he, show (s.ringDoPass n r k).ringStartStep n r = _ from if_neg (by rw [hst']; decide),
        show (s.ringDoPass n r k).ringLossStep n r = _ from if_neg (by rw [hlo']; decide)]
    have e0 : s.ringPass n r = s.wkRings n (r + 1) := if_pos (by rw [hturn, hat, hdue]; rfl)
    refine after_ringStep (congrArg (fun x => Host.Outcome.next (s.settle x)) e0) hw hd e1 (hs.trans ht) fun u hu hdone hoth hreg hf => ?_
    refine ⟨by rw [hu, hy]; exact hp' (by rw [hx]), by rw [hu, hy, hx], fun h => ?_, hdone, hoth, hreg, hf⟩
    rw [hu, hy]
    exact (hb' (hs.ready.trans h)).trans (by rw [hx]; exact hb h)
  · obtain ⟨x, hx⟩ : ∃ x, x = s.onRing r (fun x => { x with aliveAt := none }) := ⟨_, rfl⟩
    have hxs : RingStepped r s x := by rw [hx]; exact .onRing r s _
    have hxr : x.ring r = { s.ring r with aliveAt := none } := by rw [hx]; exact ring_onRing s _ hlen
    obtain ⟨hs, b, hb, hy⟩ := ringDoPass_ring (s := x) (n := n) (r := r) (c := 0) (by rw [hxr]; exact ha) (by rw [hxs.len]; exact hlen)
    have hsy := hxs.trans hs
    obtain ⟨ht, j, b', p, hb', -, hz⟩ := ringEnd_ring (s := x.ringDoPass n r 0) (n := n) (by rw [hsy.len]; exact hlen)
    have hlo' := hsy.lossDue_false hlo ha (by rw [hy, hxr])
    have e1 : s.ringStep n r = (x.ringDoPass n r 0).ringEnd n r := by
      rw [ringStep_awake hen ha ho, ringPassStep_none hp, show s.ringStartStep n r = _ from if_pos hst, ← hx,
        show (x.ringDoPass n r 0).ringLossStep n r = _ from if_neg (by rw [hlo']; decide)]
    have e0 : s.ringStart n r = s.wkRings n (r + 1) := if_pos (by rw [hturn, hat, hst]; rfl)
    refine after_ringStep (congrArg (fun x => Host.Outcome.next (s.settle x)) e0) hw hd e1 (hsy.trans ht) fun u hu hdone hoth _ hf => ?_
    refine ⟨by rw [hu, hz, hy, hxr], ?_, fun h => ?_, hdone, hoth, hf⟩
    · rw [hu, hz, hy, hxs.ready]
      rfl
    · rw [hu, hz]
      exact (hb' (hsy.ready.trans h)).trans (by rw [hy]; exact hb (hxs.ready.trans h))
  · obtain ⟨hs, hx⟩ := ringLoss_ring (s := s) (n := n) hlen
    obtain ⟨ht, j, b', p, -, -, hy⟩ := ringEnd_ring (s := s.ringLoss n r) (n := n) (by rw [hs.len]; exact hlen)
    have e1 : s.ringStep n r = (s.ringLoss n r).ringEnd n r := by
      rw [ringStep_awake hen ha ho, ringPassStep_none hp, show s.ringStartStep n r = _ from if_neg (by rw [hst]; decide),
        show s.ringLossStep n r = _ from if_pos hlo]
    have e0 : s.ringLost n r = s.wkRings n (r + 1) := if_pos (by rw [hturn, hat, hlo]; rfl)
    refine after_ringStep (congrArg (fun x => Host.Outcome.next (s.settle x)) e0) hw hd e1 (hs.trans ht) fun u hu hdone hoth _ hf => ?_
    rw [hu, hy, hx]
    exact ⟨rfl, rfl, rfl, rfl, rfl, hdone, hoth, hf⟩

theorem pnTimeout_ends (s : State) (n p e : Nat) (hrun : s.ep.running = some n) (hp : p < 32) (hl : s.wk.nets.length = 32) (hw : s.wk.woke = true)
    (hrd : s.wk.ringsDone = 32) (hnd : s.wk.netsDone = p) (hen : s.bit (WK_PN_CFG p) 16 = true) (hu : (s.net p).until_ = some e) (he : e ≤ n) (hown : s.pnOwn p = false)
    (haw : (s.net p).awake = true) : After (.pnTimeout n p) s fun u =>
      u.net p = { s.net p with until_ := none, awake := false } ∧ (∀ j, j ≠ p → u.net j = s.net j) ∧ u.wk = { s.wk with nets := u.wk.nets, netsDone := p + 1 } ∧
      (∃ v, u.held = s.held ++ [.or WK_EVENT (2 ^ 7), .put (WK_PN_STAT p) 0 32 v]) ∧ u = { s with held := u.held, wk := u.wk, hb := u.hb } ∧ sameBridge s u := by
  obtain ⟨z, v, hz, hnet, hoth⟩ := netStep_ends (n := n) (by rw [hl]; exact hp) hen hu he hown haw
  have e : s.pnTimeout n p = { s with
      held := s.held ++ [.or WK_EVENT (2 ^ 7), .put (WK_PN_STAT p) 0 32 v], wk := { s.wk with nets := z, netsDone := p + 1 } } := by
    unfold State.pnTimeout
    rw [if_pos (by rw [hrun, hnd, hu]; simp [hp, he]), wkNets_next hw hrd hnd, hz]
    rfl
  exact after_hb rfl e rfl fun b hb => ⟨hnet, hoth, rfl, ⟨v, rfl⟩, rfl, hb⟩

theorem maxAwakeExpiry_blocks (s : State) (n : Nat) (hrun : s.ep.running = some n) (hw : s.wk.woke = false) (hg : s.gw.part = 0) (hdue : s.awakeDue = true)
    (hl : s.wk.nets.length = 32) : After (.maxAwakeExpiry n) s fun u =>
    u.wk = { s.wk with expired := true, awake := s.wk.awake + 1, woke := true, nets := u.wk.nets } ∧ u.held = s.held ++ [.put WK_STATUS 3 1 1, .or WK_EVENT (2 ^ 8)] ∧
    (∀ p < 32, s.bit (WK_PN_CFG p) 16 = true → s.bit (WK_PN_CFG p) 17 = true → (s.net p).until_.isSome = true → (s.net p).lastport ∈ (u.net p).blocked) ∧
    (∀ p < 32, (s.bit (WK_PN_CFG p) 16 = false ∨ s.bit (WK_PN_CFG p) 17 = false ∨ (s.net p).until_ = none) → u.net p = s.net p) ∧
    u = { s with held := u.held, wk := u.wk, hb := u.hb } ∧ sameBridge s u := by
  obtain ⟨z, hz, hnet⟩ := awakeExpire_eq hl
  have e : s.maxAwakeExpiry n = { s with
      held := s.held ++ [.put WK_STATUS 3 1 1, .or WK_EVENT (2 ^ 8)]
      wk := { s.wk with expired := true, awake := s.wk.awake + 1, woke := true, nets := z } } := by
    unfold State.maxAwakeExpiry State.wkStart
    rw [if_pos (by rw [hrun, hw, hdue]; simp), if_neg (by rw [hw]; decide), gwTimer_idle n hg]
    dsimp only
    rw [if_pos hdue, hz]
    rfl
  have hyes : ∀ p < 32, s.bit (WK_PN_CFG p) 16 = true → s.bit (WK_PN_CFG p) 17 = true → (s.net p).until_.isSome = true → (s.net p).lastport ∈ (nth z p).blocked :=
    fun p hp h1 h2 h3 => by
      rw [hnet p hp, if_pos (by rw [State.blocksNet, h1, h2, h3]; rfl)]
      exact block_mem _
  have hno : ∀ p < 32, (s.bit (WK_PN_CFG p) 16 = false ∨ s.bit (WK_PN_CFG p) 17 = false ∨ (s.net p).until_ = none) → nth z p = s.net p := fun p hp h => by
    rw [hnet p hp, if_neg]
    unfold State.blocksNet
    rcases h with h | h | h <;> rw [h] <;> simp
  exact after_hb rfl e rfl fun b hb => ⟨rfl, rfl, hyes, hno, rfl, hb⟩

/-- Settles O56: the timer step comes to one ring or network, and the step of that ring is taken apart into its pass, start, loss and end. -/
theorem networkManagement : Obligations.NetworkManagement :=
  ⟨fun s n r hrun hr hl hw hd hen ha ho => ring_turns s n r hrun hr hl hw hd hen ha ho,
    fun s n p e hrun hp hl hw hrd hnd hen hu he hown haw => pnTimeout_ends s n p e hrun hp hl hw hrd hnd hen hu he hown haw,
    fun s n hrun hw hg hdue hl => maxAwakeExpiry_blocks s n hrun hw hg hdue hl⟩

end Sys2Proof.Proofs
end

section
/-! PROOFS. What an operation of one tenon touches, and the reception of a CAN frame (R154, R163 to R170, R182). -/
set_option Elab.async false
namespace Sys2Proof.Machine
open Sys2Proof

/-! ### Steps of one tenon -/

/-- One machine is another but for the registers of a list and the tenon's own state of mortise `m`. -/
structure TenonStep (m : Nat) (l : List Nat) (s t : State) : Prop where
  frame : t = { s with regs := t.regs, mz := t.mz }
  regs : sameRegs l s t
  others : ∀ k, k ≠ m → t.mort k = s.mort k
  len : t.mz.length = s.mz.length
  own : t.mort m = { s.mort m with can := (t.mort m).can, lin := (t.mort m).lin, t1s := (t.mort m).t1s }

theorem TenonStep.refl (m : Nat) (l : List Nat) (s : State) : TenonStep m l s s := ⟨rfl, sameRegs.refl l s, fun _ _ => rfl, rfl, rfl⟩

theorem TenonStep.trans {m : Nat} {l : List Nat} {s t u : State} (h : TenonStep m l s t) (k : TenonStep m l t u) : TenonStep m l s u := by
  refine ⟨?_, h.regs.trans k.regs, fun j hj => (k.others j hj).trans (h.others j hj), k.len.trans h.len, ?_⟩
  · have ht := h.frame
    have hu := k.frame
    obtain ⟨r, hr⟩ : ∃ r, r = t.regs := ⟨_, rfl⟩
    obtain ⟨z, hz⟩ : ∃ z, z = t.mz := ⟨_, rfl⟩
    rw [← hr, ← hz] at ht
    clear h k hr hz
    subst ht
    exact hu
  · have hu := k.own
    rw [h.own] at hu
    exact hu

theorem TenonStep.mono {m : Nat} {l l' : List Nat} {s t : State} (h : TenonStep m l s t) (k : l ⊆ l') : TenonStep m l' s t :=
  ⟨h.frame, h.regs.mono k, h.others, h.len, h.own⟩

theorem TenonStep.of_regs {m : Nat} {l : List Nat} {s t : State} (h : RegsOnly l s t) : TenonStep m l s t := by
  have hm : t.mz = s.mz := by rw [h.frame]
  refine ⟨by rw [hm]; exact h.frame, h.same, fun j _ => congrArg (fun z => nth z j) hm, by rw [hm], ?_⟩
  have : t.mort m = s.mort m := congrArg (fun z => nth z m) hm
  rw [this]

theorem RegsOnly.mort {l : List Nat} {s t : State} (h : RegsOnly l s t) (m : Nat) : t.mort m = s.mort m := by
  rw [h.frame]
  rfl

theorem TenonStep.onCan (m : Nat) (s : State) (f : CanSt → CanSt) : TenonStep m [] s (s.onCan m f) := by
  refine ⟨rfl, sameRegs.of_regs rfl, fun j hj => mort_onMort_ne s _ hj, updAt_length .., ?_⟩
  unfold State.onCan
  rw [mort_onMort]
  split <;> rfl

theorem TenonStep.same {m : Nat} {l : List Nat} {s t : State} (h : TenonStep m l s t) : sameMorts m s t := fun k _ hk => h.others k hk

theorem TenonStep.fields {m : Nat} {l : List Nat} {s t : State} (h : TenonStep m l s t) : t.ep = s.ep ∧ t.now = s.now ∧ t.tw = s.tw ∧ t.mode = s.mode ∧ t.wk = s.wk := by
  rw [h.frame]
  exact ⟨rfl, rfl, rfl, rfl, rfl⟩

theorem TenonStep.tenon {m : Nat} {l : List Nat} {s t : State} (h : TenonStep m l s t) : (t.mort m).tenon = (s.mort m).tenon ∧ (t.mort m).st = (s.mort m).st ∧
    (t.mort m).pins = (s.mort m).pins ∧ (t.mort m).desc = (s.mort m).desc := by
  rw [h.own]
  exact ⟨rfl, rfl, rfl, rfl⟩

theorem mayDrive_congr {s t : State} (hm : t.mode = s.mode) (hw : t.tw = s.tw) : t.mayDrive = s.mayDrive := by
  unfold State.mayDrive
  rw [hm, hw]

theorem TenonStep.drives {m : Nat} {l : List Nat} {s t : State} (h : TenonStep m l s t) : t.drives m = s.drives m := by
  obtain ⟨-, -, htw, hmode, -⟩ := h.fields
  obtain ⟨-, -, hp, -⟩ := h.tenon
  rw [State.drives, mayDrive_congr hmode htw, htw, hp]
  rfl

theorem TenonStep.isCan {m : Nat} {l : List Nat} {s t : State} (h : TenonStep m l s t) : t.isCan m = s.isCan m := by
  obtain ⟨ht, hst, -, -⟩ := h.tenon
  rw [State.isCan, ht, hst]
  rfl

theorem mort_onCan {s : State} {m : Nat} (f : CanSt → CanSt) (h : m < s.mz.length) : (s.onCan m f).mort m = { s.mort m with can := f (s.mort m).can } :=
  mort_onMort_same s _ h

/-! ### The error state of a CAN tenon (R185) -/

/-- The error state that counters lead to: bus-off stays until its recovery. -/
def State.errNext (s : State) (m tec rec : Nat) : Nat := if s.fld (CN_STATUS m) 8 2 == 2 then 2 else errState tec rec

/-- The registers after the counters and the state they give have been set, before a change is reported. -/
def State.errRegs (s : State) (m tec rec : Nat) : State :=
  let x := ((s.setFld (CN_ERRC m) 0 9 (min 256 tec)).setFld (CN_ERRC m) 16 8 (min 255 rec)).setBit (CN_ERRC m) 24 (rec ≥ 128)
  (x.setFld (CN_STATUS m) 8 2 (s.errNext m tec rec)).setBit (CN_STATUS m) 10 (tec ≥ 96 || rec ≥ 96)

theorem ERRC_ne_STATUS (m : Nat) : CN_ERRC m ≠ CN_STATUS m := by
  unfold CN_ERRC CN_STATUS
  omega

theorem errRegs_only (s : State) (m tec rec : Nat) : RegsOnly [CN_ERRC m, CN_STATUS m] s (s.errRegs m tec rec) :=
  (((((RegsOnly.refl _ s).setFld (by simp) 0 9 _).setFld (by simp) 16 8 _).setBit (by simp) 24 _).setFld (by simp) 8 2 _).setBit (by simp) 10 _

theorem fld_setBit_ne (s : State) (a b k lo w : Nat) (v : Bool) (hw : lo + w ≤ 32) (h : a = b → k < lo ∨ lo + w ≤ k) : (s.setBit a k v).fld b lo w = s.fld b lo w := by
  by_cases hab : a = b
  · subst hab
    exact fld_congr_bits fun j hj => by rw [bit_setBit _ _ _ _ _ (by omega), if_neg (by have := h rfl; omega)]
  · exact fld_wrN_ne _ _ _ _ _ _ (Ne.symm hab)

theorem fld_errc_setFld_status (s : State) (m lo w v lo' w' : Nat) : (s.setFld (CN_STATUS m) lo w v).fld (CN_ERRC m) lo' w' = s.fld (CN_ERRC m) lo' w' :=
  fld_wrN_ne _ _ _ _ _ _ (ERRC_ne_STATUS m)

/-- The counters and the error state as set. -/
theorem errRegs_fields (s : State) (m tec rec : Nat) :
    (s.errRegs m tec rec).fld (CN_ERRC m) 0 9 = min 256 tec % 2 ^ 9 ∧ (s.errRegs m tec rec).fld (CN_ERRC m) 16 8 = min 255 rec % 2 ^ 8 ∧
    (s.errRegs m tec rec).fld (CN_STATUS m) 8 2 = s.errNext m tec rec % 2 ^ 2 ∧
    (s.errRegs m tec rec).bit (CN_STATUS m) 10 = (tec ≥ 96 || rec ≥ 96) ∧
    ∀ k < 32, (k < 8 ∨ 11 ≤ k) → (s.errRegs m tec rec).bit (CN_STATUS m) k = s.bit (CN_STATUS m) k := by
  have hne := ERRC_ne_STATUS m
  unfold State.errRegs
  extract_lets x
  have hx : RegsOnly [CN_ERRC m] s x := (((RegsOnly.refl _ s).setFld (by simp) 0 9 _).setFld (by simp) 16 8 _).setBit (by simp) 24 _
  have h1 : x.fld (CN_ERRC m) 0 9 = min 256 tec % 2 ^ 9 := by
    rw [fld_setBit_ne _ _ _ _ _ _ _ (by decide) (fun _ => by decide), fld_setFld_ne _ _ _ _ _ _ _ (by decide) (by decide), fld_setFld_same _ _ _ _ _ (by decide)]
  have h2 : x.fld (CN_ERRC m) 16 8 = min 255 rec % 2 ^ 8 := by
    rw [fld_setBit_ne _ _ _ _ _ _ _ (by decide) (fun _ => by decide), fld_setFld_same _ _ _ _ _ (by decide)]
  have hs : x.rdN (CN_STATUS m) = s.rdN (CN_STATUS m) := hx.same.rdN (by rw [List.mem_singleton]; exact hne.symm)
  clear_value x
  refine ⟨?_, ?_, ?_, ?_, fun k hk h => ?_⟩
  · rw [fld_setBit_ne _ _ _ _ _ _ _ (by decide) (fun h => absurd h hne.symm), fld_errc_setFld_status, h1]
  · rw [fld_setBit_ne _ _ _ _ _ _ _ (by decide) (fun h => absurd h hne.symm), fld_errc_setFld_status, h2]
  · rw [fld_setBit_ne _ _ _ _ _ _ _ (by decide) (fun _ => by decide), fld_setFld_same _ _ _ _ _ (by decide)]
  · rw [bit_setBit _ _ _ _ _ (by decide), if_pos rfl]
  · rw [bit_setBit _ _ _ _ _ hk, if_neg (by omega), bit_setFld_ne _ _ _ _ _ _ hk (by omega), State.bit, hs]
    rfl

/-- A report of a unit that does not drive goes nowhere (R64). -/
theorem canReport_undriven {s : State} {m : Nat} (h : s.drives m = false) (code obj reason idw rowcol : Nat) : s.canReport m code obj reason idw rowcol = s :=
  if_neg (by rw [h]; decide)

/-- Counters that leave the error state and the warning, or those of a unit that does not drive, are set without a report. -/
theorem setErr_quiet {s : State} {m tec rec : Nat}
    (h : s.drives m = true → s.fld (CN_STATUS m) 8 2 = s.errNext m tec rec ∧ s.bit (CN_STATUS m) 10 = (tec ≥ 96 || rec ≥ 96)) :
    s.setErr m tec rec = s.errRegs m tec rec := by
  have e : s.setErr m tec rec = if s.fld (CN_STATUS m) 8 2 ≠ s.errNext m tec rec ∨ s.bit (CN_STATUS m) 10 ≠ (tec ≥ 96 || rec ≥ 96)
      then (s.errRegs m tec rec).canReport m 4 0xFF 0 0 0 else s.errRegs m tec rec := rfl
  rw [e]
  by_cases hc : s.fld (CN_STATUS m) 8 2 ≠ s.errNext m tec rec ∨ s.bit (CN_STATUS m) 10 ≠ (tec ≥ 96 || rec ≥ 96)
  · rw [if_pos hc]
    refine canReport_undriven ?_ ..
    rw [(TenonStep.of_regs (m := m) (errRegs_only s m tec rec)).drives]
    by_contra hd
    obtain ⟨h1, h2⟩ := h (by simpa using hd)
    exact hc.elim (fun k => k h1) fun k => k h2
  · exact if_neg hc

/-! ### Reception (R154, R163) -/

theorem natLE_length4 (n : Nat) : (natLE 4 n).length = 4 := length_natLE 4 n

/-- The format octet of a decoded record keeps its format. -/
theorem recFmt_canDecode {r : Octets} (h : recFmt r ≠ 3) : recFmt (canDecode r) = recFmt r := by
  have hlt : recFmt r < 4 := Nat.mod_lt _ (by decide)
  have hoct : ∀ (a : Octets) (x y : BitVec 8) (b : Octets), a.length = 4 → oct (a ++ [x, y] ++ b) 4 = x.toNat := by
    intro a x y b ha
    simp [oct, List.getD_eq_getElem?_getD, ha]
  have e : oct (canDecode r) 4 = (if recFmt r == 0 then 0 else if recFmt r == 1 then oct r 4 % 16 else 2 + 16 * b2n ((oct r 4).testBit 4)) % 2 ^ 8 := by
    unfold canDecode
    simp only [List.append_assoc]
    rw [← List.append_assoc]
    rw [hoct _ _ _ _ (natLE_length4 _), BitVec.toNat_ofNat]
  unfold recFmt
  rw [e]
  have hf : oct r 4 % 4 = recFmt r := rfl
  have hb : b2n ((oct r 4).testBit 4) ≤ 1 := by
    cases (oct r 4).testBit 4 <;> decide
  split
  · rename_i h0
    have : recFmt r = 0 := by simpa using h0
    omega
  · split
    · omega
    · rename_i h0 h1
      have h0' : recFmt r ≠ 0 := by simpa using h0
      have h1' : recFmt r ≠ 1 := by simpa using h1
      omega

/-- A frame within a wait for 11 recessive bits, or of the bus format that does not exist, is not received. -/
theorem canFrameReceived_none {s : State} {t m sof : Nat} {r : Octets} (h : s.canWaits m sof = true ∨ recFmt r = 3) : canFrameReceived t m sof r s = s.tick t := by
  refine if_pos ?_
  show (!s.isCan m || recFmt r == 3 || s.canWaits m sof) = true
  rcases h with h | h <;> rw [h] <;> simp

/-- The end of a wait: the tenon is integrated. -/
theorem canIntegrated_step {s : State} {m : Nat} (hl : m < s.mz.length) : TenonStep m [CN_STATUS m] s (s.canIntegrated m) ∧
    (s.canIntegrated m).mort m = { s.mort m with can := { (s.mort m).can with waitTil := none } } ∧ (s.canIntegrated m).bit (CN_STATUS m) 11 = true ∧
    ∀ k < 32, k ≠ 11 → (s.canIntegrated m).bit (CN_STATUS m) k = s.bit (CN_STATUS m) k := by
  refine ⟨((TenonStep.onCan m s _).mono (by simp)).trans (.of_regs ((RegsOnly.refl _ _).setBit (by simp) 11 true)), mort_onCan (fun c => { c with waitTil := none }) hl, ?_, fun k hk h => ?_⟩
  · exact (bit_setBit _ _ _ _ _ (by decide)).trans (if_pos rfl)
  · exact (bit_setBit _ _ _ _ _ hk).trans (if_neg h)

/-- The wait that a format the tenon lacks begins (R154). -/
theorem canWait_step {s : State} {m : Nat} (t : Nat) (hl : m < s.mz.length) : TenonStep m [CN_STATUS m] s (s.canWait m t) ∧
    (s.canWait m t).mort m = { s.mort m with can := { (s.mort m).can with waitTil := some (t + cdiv (11 * s.tnPs m) 1000) } } ∧ (s.canWait m t).bit (CN_STATUS m) 11 = false := by
  refine ⟨((TenonStep.onCan m s _).mono (by simp)).trans (.of_regs ((RegsOnly.refl _ _).setBit (by simp) 11 false)),
    mort_onCan (fun c => { c with waitTil := some (t + cdiv (11 * s.tnPs m) 1000) }) hl, ?_⟩
  exact (bit_setBit _ _ _ _ _ (by decide)).trans (if_pos rfl)

/-- The conditions under which a frame received leaves the error state as it is: in restricted operation, or error-active without an error received. -/
def State.canQuiet (s : State) (m : Nat) : Prop :=
  (s.mort m).can.opmode = 1 ∨ (s.fld (CN_ERRC m) 0 9 < 96 ∧ s.fld (CN_ERRC m) 16 8 = 0 ∧ s.fld (CN_STATUS m) 8 2 = 0 ∧ s.bit (CN_STATUS m) 10 = false)

/-- The machine once a frame received is counted and has ended what it ends. -/
def State.canCounted (s : State) (m : Nat) : State :=
  let s := (s.canIntegrated m).inc (MZ_CNT m 1)
  let s := if s.canMode m == 1 then s else s.setErr m (s.fld (CN_ERRC m) 0 9) (recLower (s.fld (CN_ERRC m) 16 8))
  s.loneEnd m

/-- What becomes of a frame that is counted and is no echo (R163, R169, R196). -/
def State.canTaken (s : State) (m sof : Nat) (r : Octets) : State :=
  let s := s.cellCapture m r
  let s := if s.isReference m r then
      ((s.onCan m (fun c => { c with lastRef := s.now })).setBit (CN_TTSTAT m) 12 false).cycleStart m (bitsN (oct r 16) 0 6) sof
    else s
  if (s.mort m).st == .inService then s.stampIn { cls := 2, port := m, kind := .frame, octets := r } else s

/-- Counters within the error-active range, and no report of them, whichever way they are set. -/
theorem errNext_active {s : State} {m tec rec : Nat} (h : s.fld (CN_STATUS m) 8 2 = 0) (ht : tec < 128) (hr : rec < 128) : s.errNext m tec rec = 0 := by
  unfold State.errNext errState
  rw [h, if_neg (by decide), if_neg (by omega), if_neg (by omega)]

theorem setErr_step {s : State} {m tec rec : Nat}
    (h : s.drives m = true → s.fld (CN_STATUS m) 8 2 = 0 ∧ s.bit (CN_STATUS m) 10 = false ∧ tec < 96 ∧ rec < 96) :
    s.setErr m tec rec = s.errRegs m tec rec ∧ TenonStep m [CN_ERRC m, CN_STATUS m] s (s.setErr m tec rec) ∧ (s.setErr m tec rec).mort m = s.mort m ∧
    ∀ k < 32, (k < 8 ∨ 11 ≤ k) → (s.setErr m tec rec).bit (CN_STATUS m) k = s.bit (CN_STATUS m) k := by
  have e : s.setErr m tec rec = s.errRegs m tec rec := setErr_quiet fun hd => by
    obtain ⟨h1, h2, h3, h4⟩ := h hd
    exact ⟨by rw [errNext_active h1 (by omega) (by omega), h1], by rw [h2, decide_eq_false (by omega), decide_eq_false (by omega)]; rfl⟩
  obtain ⟨-, -, -, -, hk⟩ := errRegs_fields s m tec rec
  have ho := errRegs_only s m tec rec
  rw [e]
  exact ⟨rfl, .of_regs ho, ho.mort m, hk⟩

/-- The end of the lone-node state (R193), which only a unit that drives reports. -/
theorem loneEnd_step {s : State} {m : Nat} (hl : m < s.mz.length) (h : s.drives m = true → (s.mort m).can.lone = false) : TenonStep m [CN_LONE m] s (s.loneEnd m) ∧
    (s.loneEnd m).mort m = { s.mort m with can := { (s.mort m).can with lone := false } } := by
  unfold State.loneEnd
  extract_lets x
  have hx : RegsOnly [CN_LONE m] s x := (RegsOnly.refl _ s).setFld (by simp) 8 8 0
  have hxs : TenonStep m [CN_LONE m] s x := .of_regs hx
  have hxm : x.mort m = s.mort m := rfl
  have hxl : m < x.mz.length := hl
  clear_value x
  by_cases hc : (x.mort m).can.lone = true
  · rw [if_pos hc]
    have hy := (TenonStep.onCan m x fun c => { c with lone := false }).mono (l' := [CN_LONE m]) (by simp)
    have hd : (x.onCan m fun c => { c with lone := false }).drives m = false := by
      rw [hy.drives, hxs.drives]
      by_contra hd
      rw [hxm, h (by simpa using hd)] at hc
      exact absurd hc (by decide)
    rw [canReport_undriven hd, mort_onCan (fun c => { c with lone := false }) hxl, hxm]
    exact ⟨hxs.trans hy, rfl⟩
  · rw [if_neg hc]
    refine ⟨hxs, ?_⟩
    have : (s.mort m).can.lone = false := by rw [← hxm]; simpa using hc
    rw [hxm, ← this]

/-- A frame that the tenon has the format of, received outside a wait. -/
theorem canFrameReceived_supported {s : State} {t m sof : Nat} {r : Octets} (hc : s.isCan m = true) (hw : s.canWaits m sof = false) (hf : recFmt r ≠ 3)
    (h1 : recFmt r = 1 → s.bit (CN_CFG m) 0 = true) (h2 : recFmt r = 2 → s.bit (CN_CFG m) 1 = true) :
    canFrameReceived t m sof r s =
      if ((s.tick t).canCounted m).canEcho m (canDecode r) then (s.tick t).canCounted m else ((s.tick t).canCounted m).canTaken m sof (canDecode r) := by
  have hcfg : ((s.tick t).canIntegrated m).rdN (CN_CFG m) = s.rdN (CN_CFG m) := rdN_setBit_ne _ _ _ _ _ (by unfold CN_CFG CN_STATUS; omega)
  unfold canFrameReceived
  rw [if_neg (by
    show ¬(!s.isCan m || recFmt r == 3 || s.canWaits m sof) = true
    rw [hc, hw]
    simpa using hf)]
  dsimp only
  rw [if_neg (by
    rw [recFmt_canDecode hf, hcfg]
    intro h
    rcases Bool.or_eq_true_iff.mp h with h | h <;> obtain ⟨ha, hb⟩ := Bool.and_eq_true_iff.mp h
    · rw [show (s.rdN (CN_CFG m)).testBit 0 = true from h1 (by simpa using ha)] at hb
      exact absurd hb (by decide)
    · rw [show (s.rdN (CN_CFG m)).testBit 1 = true from h2 (by simpa using ha)] at hb
      exact absurd hb (by decide))]
  rfl

theorem canCounted_step {s : State} {m : Nat} (hl : m < s.mz.length) (hq : s.drives m = true → s.canQuiet m) (hlone : s.drives m = true → (s.mort m).can.lone = false) :
    TenonStep m [MZ_CNT m 1, CN_LONE m, CN_STATUS m, CN_ERRC m] s (s.canCounted m) ∧
    (s.canCounted m).mort m = { s.mort m with can := { (s.mort m).can with waitTil := none, lone := false } } ∧
    (s.canCounted m).rdN (MZ_CNT m 1) = (s.rdN (MZ_CNT m 1) + 1) % 2 ^ 32 ∧ (s.canCounted m).bit (CN_STATUS m) 11 = true := by
  obtain ⟨hi, him, hi11, hibits⟩ := canIntegrated_step hl
  unfold State.canCounted
  extract_lets x y
  have hxo : RegsOnly [MZ_CNT m 1] (s.canIntegrated m) x := (RegsOnly.refl _ _).inc (by simp) 1
  have hxm : x.mort m = { s.mort m with can := { (s.mort m).can with waitTil := none } } := him
  have hxs : TenonStep m [MZ_CNT m 1, CN_STATUS m] s x := (hi.mono (by simp)).trans (.of_regs (hxo.mono (by simp)))
  have hxc : x.rdN (MZ_CNT m 1) = (s.rdN (MZ_CNT m 1) + 1) % 2 ^ 32 := by
    refine (rdN_inc_same ..).trans ?_
    rw [hi.regs.rdN (by simp [MZ_CNT, CN_STATUS]; omega)]
  have hxstat : x.rdN (CN_STATUS m) = (s.canIntegrated m).rdN (CN_STATUS m) := hxo.same.rdN (by simp [MZ_CNT, CN_STATUS]; omega)
  have hx11 : x.bit (CN_STATUS m) 11 = true := by rw [State.bit, hxstat]; exact hi11
  have hx10 : x.bit (CN_STATUS m) 10 = s.bit (CN_STATUS m) 10 := by rw [State.bit, hxstat]; exact hibits 10 (by decide) (by decide)
  have hxest : x.fld (CN_STATUS m) 8 2 = s.fld (CN_STATUS m) 8 2 := by
    rw [State.fld, hxstat]
    exact fld_congr_bits fun k hk => hibits (8 + k) (by omega) (by omega)
  have hxerr : x.rdN (CN_ERRC m) = s.rdN (CN_ERRC m) := hxs.regs.rdN (by simp [MZ_CNT, CN_STATUS, CN_ERRC]; omega)
  have hxd := hxs.drives
  have hxl : m < x.mz.length := by rw [hxs.len]; exact hl
  clear_value x
  have hy : TenonStep m [CN_ERRC m, CN_STATUS m] x y ∧ y.mort m = x.mort m ∧ y.bit (CN_STATUS m) 11 = true := by
    by_cases hmode : (x.canMode m == 1) = true
    · rw [show y = x from if_pos hmode]
      exact ⟨.refl _ _ _, rfl, hx11⟩
    · rw [show y = x.setErr m (x.fld (CN_ERRC m) 0 9) (recLower (x.fld (CN_ERRC m) 16 8)) from if_neg hmode]
      obtain ⟨-, hs, hm, hk⟩ := setErr_step (s := x) (m := m) (tec := x.fld (CN_ERRC m) 0 9) (rec := recLower (x.fld (CN_ERRC m) 16 8)) fun hd => by
        rcases hq (hxd.symm.trans hd) with hop | ⟨h1, h2, h3, h4⟩
        · refine absurd ?_ hmode
          rw [State.canMode, hd, hxm]
          simpa using hop
        · have hrec : x.fld (CN_ERRC m) 16 8 = 0 := by rw [State.fld, hxerr]; exact h2
          have htec : x.fld (CN_ERRC m) 0 9 < 96 := by rw [State.fld, hxerr]; exact h1
          exact ⟨hxest.trans h3, hx10.trans h4, htec, by rw [hrec]; decide⟩
      exact ⟨hs, hm, (hk 11 (by decide) (by decide)).trans hx11⟩
  obtain ⟨hys, hym, hy11⟩ := hy
  clear_value y
  obtain ⟨hz, hzm⟩ := loneEnd_step (s := y) (m := m) (by rw [hys.len]; exact hxl) fun hd => by
    rw [hym, hxm]
    exact hlone (hxd.symm.trans (hys.drives.symm.trans hd))
  refine ⟨(hxs.mono (by simp)).trans ((hys.mono (by simp)).trans (hz.mono (by simp))), by rw [hzm, hym, hxm], ?_, ?_⟩
  · rw [hz.regs.rdN (by simp [MZ_CNT, CN_LONE]; omega), hys.regs.rdN (by simp [MZ_CNT, CN_ERRC, CN_STATUS]; omega), hxc]
  · rw [hz.regs.bit (by simp [CN_STATUS, CN_LONE]), hy11]

/-! ### What a step leaves of the conditions read later -/

/-- The registers of mortise `m` that its counters, its error state and its matrix status occupy. -/
def canShown (m : Nat) : List Nat := [MZ_CNT m 1, CN_LONE m, CN_STATUS m, CN_ERRC m, CN_PCSTAT m, MZ_EVENT m, CN_TTSTAT m]

theorem canEcho_congr {m : Nat} {l : List Nat} {s t : State} (h : TenonStep m l s t) (ho : (t.mort m).can.objs = (s.mort m).can.objs) (r : Octets) :
    t.canEcho m r = s.canEcho m r := by
  rw [State.canEcho, h.drives, ho]
  rfl

theorem cellHit_congr {m : Nat} {s t : State} (h : TenonStep m (canShown m) s t) {k : Nat} (hk : k < 4) (r : Octets) : t.cellHit m k r = s.cellHit m k r := by
  have h1 : t.rdN (CN_PC_ID m k) = s.rdN (CN_PC_ID m k) := h.regs.rdN (by
    simp [canShown, CN_PC_ID, MZ_CNT, CN_LONE, CN_STATUS, CN_ERRC, CN_PCSTAT, MZ_EVENT, CN_TTSTAT]; omega)
  have h2 : t.rdN (CN_PC_MASK m k) = s.rdN (CN_PC_MASK m k) := h.regs.rdN (by
    simp [canShown, CN_PC_MASK, MZ_CNT, CN_LONE, CN_STATUS, CN_ERRC, CN_PCSTAT, MZ_EVENT, CN_TTSTAT]; omega)
  rw [State.cellHit, h1, h2]
  rfl

theorem isReference_congr {m : Nat} {s t : State} (h : TenonStep m (canShown m) s t) (hx : (t.mort m).can.newMx = (s.mort m).can.newMx) (r : Octets) :
    t.isReference m r = s.isReference m r := by
  have h1 : t.rdN (CN_TTCFG m) = s.rdN (CN_TTCFG m) := h.regs.rdN (by
    simp [canShown, CN_TTCFG, MZ_CNT, CN_LONE, CN_STATUS, CN_ERRC, CN_PCSTAT, MZ_EVENT, CN_TTSTAT]; omega)
  have h2 : t.ttWord m (CN_TTCFG m) = s.ttWord m (CN_TTCFG m) := by
    rw [State.ttWord, State.fld, h1, hx]
    rfl
  rw [State.isReference, h2]
  rfl

/-! ### Priority cells (R169, R170) -/

theorem cellCapture_none {s : State} {m : Nat} {r : Octets} (h : ∀ k < 4, s.cellHit m k r = false) : s.cellCapture m r = s := by
  have hf : (List.range 4).find? (fun k => s.cellHit m k r) = none := List.find?_range_eq_none.mpr fun k hk => by rw [h k hk]; rfl
  unfold State.cellCapture
  rw [hf]

/-- The lowest cell that a frame matches, with its old frame read, takes it. -/
theorem cellCapture_first {s : State} {m k : Nat} {r : Octets} (hk : k < 4) (hit : s.cellHit m k r = true) (hlow : ∀ j < k, s.cellHit m j r = false)
    (hnew : s.bit (CN_PCSTAT m) k = false) :
    s.cellCapture m r = ((s.onCan m (fun c => { c with cells := c.cells.set k (r, s.now % 2 ^ 32) })).setBit (CN_PCSTAT m) k true).evt (MZ_EVENT m) (16 + k) := by
  have hf : (List.range 4).find? (fun k => s.cellHit m k r) = some k := List.find?_range_eq_some.mpr
    ⟨hit, List.mem_range.mpr hk, fun j hj => by rw [hlow j hj]; rfl⟩
  unfold State.cellCapture
  rw [hf]
  dsimp only
  rw [hnew]
  rfl

/-- Whatever cell takes a frame, a capture touches the cells and their status alone. -/
theorem cellCapture_step {s : State} {m : Nat} (hl : m < s.mz.length) (r : Octets) : TenonStep m [CN_PCSTAT m, MZ_EVENT m] s (s.cellCapture m r) ∧
    ∃ cs, (s.cellCapture m r).mort m = { s.mort m with can := { (s.mort m).can with cells := cs } } := by
  unfold State.cellCapture
  split
  · exact ⟨.refl _ _ _, (s.mort m).can.cells, rfl⟩
  · rename_i k _
    extract_lets x
    have hx : RegsOnly [CN_PCSTAT m, MZ_EVENT m] s x := by
      show RegsOnly _ s (if _ then _ else _)
      split
      · exact ((RegsOnly.refl _ s).setBit (by simp) _ _).evt (by simp) _
      · exact .refl _ s
    have hxm := hx.mort m
    have hxl : m < x.mz.length := by rw [hx.frame]; exact hl
    clear_value x
    refine ⟨(TenonStep.of_regs hx).trans (((TenonStep.onCan m x _).mono (by simp)).trans (.of_regs (((RegsOnly.refl _ _).setBit (by simp) _ _).evt (by simp) _))), ?_⟩
    exact ⟨_, (mort_onCan (fun c => { c with cells := c.cells.set k (r, x.now % 2 ^ 32) }) hxl).trans (by rw [hxm])⟩

/-! ### Stamping -/

/-- An input stamped after a step that leaves the epoch engine is an input stamped from the start. -/
theorem stampedOne_left {s x u : State} {cls port : Nat} {kind : InKind} {o : Octets} (h : stampedOne x u cls port kind o) (he : x.ep = s.ep) :
    stampedOne s u cls port kind o := by
  unfold stampedOne at h ⊢
  rw [he] at h
  exact h

/-- A step that leaves the epoch engine and the instant keeps an input stamped before it. -/
theorem stampedOne_right {s x u : State} {m cls port : Nat} {l : List Nat} {kind : InKind} {o : Octets} (h : stampedOne s x cls port kind o) (k : TenonStep m l x u)
    (hl : EP_CTRL ∉ l) : stampedOne s u cls port kind o := by
  obtain ⟨i, hi, h1, h2, h3, h4, h5, h6, h7⟩ := h
  obtain ⟨hep, hnow, -⟩ := k.fields
  have hepoch : u.epochNow = x.epochNow := by
    have : u.rdN EP_CTRL = x.rdN EP_CTRL := k.regs.rdN hl
    rw [State.epochNow, State.elen, State.fld, hep, hnow, this]
    rfl
  exact ⟨i, by rw [hep]; exact hi, h1, h2, h3, h4, by rw [hepoch]; exact h5, by rw [hnow]; exact h6, by rw [hep]; exact h7⟩

theorem stampIn_after {s x : State} {m : Nat} {l : List Nat} (h : TenonStep m l s x) (i : Input) (hc : s.ep.cur.isSome = true) :
    stampedOne s (x.stampIn i) i.cls i.port i.kind i.octets ∧ x.stampIn i = { x with ep := (x.stampIn i).ep } := by
  obtain ⟨hep, -⟩ := h.fields
  obtain ⟨h1, h2⟩ := stampIn_one (s := x) i (by rw [hep]; exact hc)
  exact ⟨stampedOne_left h1 hep, by rw [h2]⟩

/-! ### Commands of a tenon -/

/-- A command that answers a step of one tenon, from the state `w` in which its meaning begins. -/
theorem after_tenon {i : Instr} {s w x y : State} {m : Nat} {l : List Nat} {P : State → Prop} (h : exec i s = .next (s.settle y)) (e : y = x) (hw : w.hb = s.hb)
    (hx : TenonStep m l w x)
    (k : ∀ b : Bridge, sameBridge s { x with hb := b } → ({ x with hb := b } : State) = { w with regs := x.regs, mz := x.mz, hb := b } → P { x with hb := b }) : After i s P :=
  after_hb h e (by rw [hx.frame]; exact hw) fun b hb => k b hb (congrArg (fun z : State => { z with hb := b }) hx.frame)

/-- The same where the step ends in one input stamped. -/
theorem after_stamped {i : Instr} {s w x y : State} {m : Nat} {l : List Nat} {P : State → Prop} (n : Input) (h : exec i s = .next (s.settle y)) (e : y = x.stampIn n)
    (hw : w.hb = s.hb) (hx : TenonStep m l w x) (hc : w.ep.cur.isSome = true)
    (k : ∀ u : State, (∀ a, u.rd a = x.rd a) → (∀ j, u.mort j = x.mort j) → stampedOne w u n.cls n.port n.kind n.octets → sameBridge s u → u.now = w.now →
      u = { w with regs := u.regs, ep := u.ep, mz := u.mz, hb := u.hb } → P u) : After i s P := by
  obtain ⟨hst, hf⟩ := stampIn_after hx n hc
  obtain ⟨z, hz⟩ : ∃ z, z = x.stampIn n := ⟨_, rfl⟩
  rw [← hz] at e hst hf
  have hframe : z = { w with regs := z.regs, ep := z.ep, mz := z.mz } := by
    have hx' := hx.frame
    obtain ⟨r, hr⟩ : ∃ r, r = x.regs := ⟨_, rfl⟩
    obtain ⟨q, hq⟩ : ∃ q, q = x.mz := ⟨_, rfl⟩
    obtain ⟨p, hp⟩ : ∃ p, p = z.ep := ⟨_, rfl⟩
    rw [← hr, ← hq] at hx'
    rw [← hp] at hf
    clear hx hst e hz hr hq hp
    subst hx'
    subst hf
    rfl
  have hrd : ∀ a, z.rd a = x.rd a := fun a => rd_congr (by rw [hf]) a
  have hmort : ∀ j, z.mort j = x.mort j := fun j => by
    rw [hf]
    rfl
  exact after_hb h e (by rw [hframe]; exact hw) fun b hb => k _ hrd hmort hst hb (by rw [hframe]) (congrArg (fun v : State => { v with hb := b }) hframe)

/-- A frame that is no reference message is captured where a cell matches it, and stamped. -/
theorem canTaken_plain {s x : State} {m sof : Nat} {r : Octets} (hx : s.cellCapture m r = x) (hr : x.isReference m r = false) (hs : ((x.mort m).st == .inService) = true) :
    s.canTaken m sof r = x.stampIn { cls := 2, port := m, kind := .frame, octets := r } := by
  unfold State.canTaken
  rw [hx]
  simp only [hr, Bool.false_eq_true, if_false]
  exact if_pos hs

end Sys2Proof.Machine

namespace Sys2Proof.Proofs
open Sys2Proof Sys2Proof.Machine

theorem canReceived_frame {s : State} {t m sof : Nat} {r : Octets} (hm : m < 128) (hz : s.mz.length = 128) (hten : (s.mort m).tenon = .can)
    (hst : (s.mort m).st = .inService) (hcur : s.ep.cur.isSome = true) (hq : s.drives m = true → s.canQuiet m) (hw : s.canWaits m sof = false) (hf : recFmt r ≠ 3)
    (h1 : recFmt r = 1 → s.bit (CN_CFG m) 0 = true) (h2 : recFmt r = 2 → s.bit (CN_CFG m) 1 = true) (hlone : (s.mort m).can.lone = false)
    (href : s.isReference m (canDecode r) = false) :
    (s.canEcho m (canDecode r) = false → (∀ k < 4, s.cellHit m k (canDecode r) = false) → After (.canFrameReceived t m ⟨sof, r⟩) s fun u =>
      stampedOne s u 2 m .frame (canDecode r) ∧ u.rdN (MZ_CNT m 1) = (s.rdN (MZ_CNT m 1) + 1) % 2 ^ 32 ∧ u.bit (CN_STATUS m) 11 = true ∧
      u.mort m = { s.mort m with can := { (s.mort m).can with waitTil := none } } ∧ sameMorts m s u ∧
      sameRegs [MZ_CNT m 1, CN_LONE m, CN_STATUS m, CN_ERRC m] s u ∧
      u = { s with now := max s.now t, regs := u.regs, ep := u.ep, mz := u.mz, hb := u.hb } ∧ sameBridge s u) ∧
    (s.canEcho m (canDecode r) = true → After (.canFrameReceived t m ⟨sof, r⟩) s fun u =>
      u.ep = s.ep ∧ u.rdN (MZ_CNT m 1) = (s.rdN (MZ_CNT m 1) + 1) % 2 ^ 32 ∧ (u.mort m).can.cells = (s.mort m).can.cells ∧
      sameRegs [MZ_CNT m 1, CN_LONE m, CN_STATUS m, CN_ERRC m] s u) ∧
    (∀ k < 4, s.canEcho m (canDecode r) = false → s.cellHit m k (canDecode r) = true → (∀ j < k, s.cellHit m j (canDecode r) = false) → s.bit (CN_PCSTAT m) k = false →
      (s.mort m).can.cells.length = 4 → After (.canFrameReceived t m ⟨sof, r⟩) s fun u =>
        stampedOne s u 2 m .frame (canDecode r) ∧ (u.mort m).can.cells = (s.mort m).can.cells.set k (canDecode r, u.now % 2 ^ 32) ∧ u.bit (CN_PCSTAT m) k = true ∧
        u.bit (MZ_EVENT m) (16 + k) = true ∧ sameRegs [MZ_CNT m 1, CN_LONE m, CN_STATUS m, CN_ERRC m, CN_PCSTAT m, MZ_EVENT m] s u) := by
  have hl : m < s.mz.length := by rw [hz]; exact hm
  have hcan : s.isCan m = true := by rw [State.isCan, hten, hst]; rfl
  obtain ⟨hy, hym, hycnt, hy11⟩ := canCounted_step (s := s.tick t) (m := m) hl hq fun _ => hlone
  have e := canFrameReceived_supported (t := t) hcan hw hf h1 h2
  obtain ⟨y, hyd⟩ : ∃ y, y = (s.tick t).canCounted m := ⟨_, rfl⟩
  rw [← hyd] at hy hym hycnt hy11 e
  have hshown : TenonStep m (canShown m) (s.tick t) y := hy.mono (by simp [canShown])
  have hecho : y.canEcho m (canDecode r) = s.canEcho m (canDecode r) := canEcho_congr hy (by rw [hym]) _
  have hhit : ∀ k < 4, y.cellHit m k (canDecode r) = s.cellHit m k (canDecode r) := fun k hk => cellHit_congr hshown hk _
  have hrefy : ∀ x, TenonStep m (canShown m) (s.tick t) x → (x.mort m).can.newMx = (s.mort m).can.newMx → x.isReference m (canDecode r) = false := fun x hx hn =>
    (isReference_congr hx hn _).trans href
  have hym' : y.mort m = { s.mort m with can := { (s.mort m).can with waitTil := none } } := by
    rw [hym]
    show ({ s.mort m with can := { (s.mort m).can with waitTil := none, lone := false } } : Mortise) = _
    rw [← hlone]
  have hsrv : ∀ x, TenonStep m (canShown m) (s.tick t) x → ((x.mort m).st == .inService) = true := fun x hx => by
    rw [hx.tenon.2.1]
    exact beq_iff_eq.mpr hst
  have hyl : m < y.mz.length := by rw [hy.len]; exact hl
  clear hyd
  refine ⟨fun he hc => ?_, fun he => ?_, fun k hk he hit hlow hnew hcells => ?_⟩
  · have e' : canFrameReceived t m sof r s = y.stampIn { cls := 2, port := m, kind := .frame, octets := canDecode r } := by
      rw [e, hecho, he, if_neg (by decide)]
      exact canTaken_plain (cellCapture_none fun k hk => (hhit k hk).trans (hc k hk)) (hrefy y hshown (by rw [hym'])) (hsrv y hshown)
    refine after_stamped (w := s.tick t) _ rfl e' rfl hy hcur fun u hrd hmort hstamp hb hnow hframe => ?_
    refine ⟨hstamp, ?_, ?_, (hmort m).trans hym', fun j _ hj => (hmort j).trans (hy.others j hj), fun a ha => (hrd a).trans (hy.regs a ha), hframe, hb⟩
    · rw [State.rdN, hrd]
      exact hycnt
    · rw [State.bit, State.rdN, hrd]
      exact hy11
  · have e' : canFrameReceived t m sof r s = y := by rw [e, hecho, he, if_pos rfl]
    obtain ⟨hep, -⟩ := hy.fields
    exact after_tenon (w := s.tick t) rfl e' rfl hy fun b hb hframe => ⟨hep, hycnt, by
      show (y.mort m).can.cells = _
      rw [hym'], hy.regs⟩
  · obtain ⟨x, hxd⟩ : ∃ x, x = y.cellCapture m (canDecode r) := ⟨_, rfl⟩
    have hpc : y.bit (CN_PCSTAT m) k = false := by
      rw [hy.regs.bit (by simp [MZ_CNT, CN_LONE, CN_STATUS, CN_ERRC, CN_PCSTAT]; omega)]
      exact hnew
    have hcap := cellCapture_first (s := y) (m := m) (r := canDecode r) hk ((hhit k hk).trans hit) (fun j hj => (hhit j (by omega)).trans (hlow j hj)) hpc
    obtain ⟨hstep, cs, hcs⟩ := cellCapture_step (s := y) hyl (canDecode r)
    have hxm : x.mort m = { s.mort m with can := { (s.mort m).can with waitTil := none, cells := (s.mort m).can.cells.set k (canDecode r, y.now % 2 ^ 32) } } := by
      rw [hxd, hcap]
      refine (mort_onCan (s := y) (fun c => { c with cells := c.cells.set k (canDecode r, y.now % 2 ^ 32) }) hyl).trans ?_
      rw [hym']
    have hx1 : x.bit (CN_PCSTAT m) k = true := by
      rw [hxd, hcap, State.bit, rdN_evt_ne _ _ _ _ (by simp [MZ_EVENT, CN_PCSTAT])]
      exact (bit_setBit _ _ _ _ _ (by omega)).trans (if_pos rfl)
    have hx2 : x.bit (MZ_EVENT m) (16 + k) = true := by rw [hxd, hcap, bit_evt_same _ _ _ (by omega)]
    rw [← hxd] at hstep
    have hxs : TenonStep m [MZ_CNT m 1, CN_LONE m, CN_STATUS m, CN_ERRC m, CN_PCSTAT m, MZ_EVENT m] (s.tick t) x := (hy.mono (by simp)).trans (hstep.mono (by simp))
    have hxshown : TenonStep m (canShown m) (s.tick t) x := hxs.mono (by simp [canShown])
    have e' : canFrameReceived t m sof r s = x.stampIn { cls := 2, port := m, kind := .frame, octets := canDecode r } := by
      rw [e, hecho, he, if_neg (by decide)]
      exact canTaken_plain hxd.symm (hrefy x hxshown (by rw [hxm])) (hsrv x hxshown)
    have hyn : y.now = (s.tick t).now := hy.fields.2.1
    refine after_stamped (w := s.tick t) _ rfl e' rfl hxs hcur fun u hrd hmort hstamp hb hnow hframe => ?_
    refine ⟨hstamp, ?_, ?_, ?_, fun a ha => (hrd a).trans (hxs.regs a ha)⟩
    · rw [hmort, hxm, hnow, hyn]
    · rw [State.bit, State.rdN, hrd]
      exact hx1
    · rw [State.bit, State.rdN, hrd]
      exact hx2

theorem canReceived_lacking {s : State} {t m sof : Nat} {r : Octets} (hm : m < 128) (hz : s.mz.length = 128) (hten : (s.mort m).tenon = .can)
    (hst : (s.mort m).st = .inService) (hq : s.drives m = true → s.canQuiet m) (hw : s.canWaits m sof = false) (hf : recFmt r ≠ 3)
    (hlack : (recFmt r = 1 ∧ s.bit (CN_CFG m) 0 = false) ∨ (recFmt r = 2 ∧ s.bit (CN_CFG m) 1 = false)) :
    (s.bit (CN_CFG m) 3 = true → After (.canFrameReceived t m ⟨sof, r⟩) s fun u =>
      u.ep = s.ep ∧ (u.mort m).can.waitTil = some (t + cdiv (11 * s.tnPs m) 1000) ∧ u.bit (CN_STATUS m) 11 = false ∧ u.bit (MZ_EVENT m) 29 = true ∧
      sameMorts m s u ∧ sameRegs [MZ_EVENT m, CN_STATUS m] s u ∧ u = { s with now := max s.now t, regs := u.regs, mz := u.mz, hb := u.hb }) ∧
    (s.bit (CN_CFG m) 3 = false → After (.canFrameReceived t m ⟨sof, r⟩) s fun u =>
      u.ep = s.ep ∧ u.rdN (MZ_CNT m 2) = (s.rdN (MZ_CNT m 2) + 1) % 2 ^ 32 ∧ sameMorts m s u ∧ sameRegs [MZ_CNT m 2, CN_STATUS m, CN_ERRC m] s u ∧
      u = { s with now := max s.now t, regs := u.regs, mz := u.mz, hb := u.hb }) := by
  have hl : m < s.mz.length := by rw [hz]; exact hm
  have hcan : s.isCan m = true := by rw [State.isCan, hten, hst]; rfl
  obtain ⟨hx, hxm, -, hxbits⟩ := canIntegrated_step (s := s.tick t) (m := m) hl
  obtain ⟨x, hxd⟩ : ∃ x, x = (s.tick t).canIntegrated m := ⟨_, rfl⟩
  have hcfg : ∀ k, (x.rdN (CN_CFG m)).testBit k = s.bit (CN_CFG m) k := fun k => by
    rw [hxd, hx.regs.rdN (by simp [CN_CFG, CN_STATUS])]
    rfl
  have e : canFrameReceived t m sof r s = if s.bit (CN_CFG m) 3 then (x.canWait m t).evt (MZ_EVENT m) 29
      else if (x.inc (MZ_CNT m 2)).canMode m == 1 then (x.inc (MZ_CNT m 2)).canWait m t
      else (x.inc (MZ_CNT m 2)).setErr m ((x.inc (MZ_CNT m 2)).fld (CN_ERRC m) 0 9) ((x.inc (MZ_CNT m 2)).fld (CN_ERRC m) 16 8 + 1) := by
    unfold canFrameReceived
    rw [if_neg (by
      show ¬(!s.isCan m || recFmt r == 3 || s.canWaits m sof) = true
      rw [hcan, hw]
      simpa using hf)]
    dsimp only
    rw [← hxd, if_pos (by
      rw [recFmt_canDecode hf, hcfg, hcfg]
      rcases hlack with ⟨h1, h2⟩ | ⟨h1, h2⟩ <;> rw [h1, h2] <;> simp), hcfg 3]
  rw [← hxd] at hx hxm hxbits
  have hxl : m < x.mz.length := by rw [hx.len]; exact hl
  clear hxd
  refine ⟨fun hp => ?_, fun hp => ?_⟩
  · obtain ⟨hy, hym, hy11⟩ := canWait_step (s := x) t hxl
    obtain ⟨y, hyd⟩ : ∃ y, y = x.canWait m t := ⟨_, rfl⟩
    rw [hp, if_pos rfl, ← hyd] at e
    rw [← hyd] at hy hym hy11
    clear hyd
    have htn : x.tnPs m = s.tnPs m := by
      have h1 : x.rdN (CN_BTIM_N m) = s.rdN (CN_BTIM_N m) := hx.regs.rdN (by simp [CN_BTIM_N, CN_STATUS])
      have h2 : x.kclkPs m = s.kclkPs m := by
        rw [State.kclkPs, hx.tenon.2.2.2]
        rfl
      rw [State.tnPs, h1, h2]
      rfl
    have hz : TenonStep m [MZ_EVENT m, CN_STATUS m] (s.tick t) (y.evt (MZ_EVENT m) 29) :=
      (hx.mono (by simp)).trans ((hy.mono (by simp)).trans (.of_regs ((RegsOnly.refl _ y).evt (by simp) 29)))
    have hz11 : (y.evt (MZ_EVENT m) 29).bit (CN_STATUS m) 11 = false := by
      rw [State.bit, rdN_evt_ne _ _ _ _ (by simp [MZ_EVENT, CN_STATUS])]
      exact hy11
    have hz29 : (y.evt (MZ_EVENT m) 29).bit (MZ_EVENT m) 29 = true := bit_evt_same _ _ _ (by decide)
    have hzm : ((y.evt (MZ_EVENT m) 29).mort m).can.waitTil = some (t + cdiv (11 * s.tnPs m) 1000) := by
      rw [State.evt_mort, hym, htn]
    obtain ⟨hep, -⟩ := hz.fields
    exact after_tenon (w := s.tick t) rfl e rfl hz fun b hb hframe => ⟨hep, hzm, hz11, hz29, hz.same, hz.regs, hframe⟩
  · rw [hp, if_neg (by decide)] at e
    obtain ⟨y, hyd⟩ : ∃ y, y = x.inc (MZ_CNT m 2) := ⟨_, rfl⟩
    have hyo : RegsOnly [MZ_CNT m 2] x y := by rw [hyd]; exact (RegsOnly.refl _ x).inc (by simp) 1
    have hycnt : y.rdN (MZ_CNT m 2) = (s.rdN (MZ_CNT m 2) + 1) % 2 ^ 32 := by
      rw [hyd, rdN_inc_same, hx.regs.rdN (by simp [MZ_CNT, CN_STATUS]; omega)]
      rfl
    have hys : TenonStep m [MZ_CNT m 2, CN_STATUS m] (s.tick t) y := (hx.mono (by simp)).trans (.of_regs (hyo.mono (by simp)))
    have hystat : y.rdN (CN_STATUS m) = x.rdN (CN_STATUS m) := hyo.same.rdN (by simp [MZ_CNT, CN_STATUS]; omega)
    have hyerr : y.rdN (CN_ERRC m) = s.rdN (CN_ERRC m) := hys.regs.rdN (by simp [MZ_CNT, CN_STATUS, CN_ERRC]; omega)
    have hym : y.mort m = x.mort m := hyo.mort m
    have hyl : m < y.mz.length := by rw [hys.len]; exact hl
    rw [← hyd] at e
    clear hyd
    obtain ⟨z, hz⟩ : ∃ z, z = if y.canMode m == 1 then y.canWait m t else y.setErr m (y.fld (CN_ERRC m) 0 9) (y.fld (CN_ERRC m) 16 8 + 1) := ⟨_, rfl⟩
    rw [← hz] at e
    have hzs : TenonStep m [CN_STATUS m, CN_ERRC m] y z := by
      rw [hz]
      by_cases hmode : (y.canMode m == 1) = true
      · rw [if_pos hmode]
        exact (canWait_step t hyl).1.mono (by simp)
      · rw [if_neg hmode]
        refine (setErr_step fun hd => ?_).2.1.mono (by simp)
        rcases hq (hys.drives.symm.trans hd) with hop | ⟨h1, h2, h3, h4⟩
        · refine absurd ?_ hmode
          rw [State.canMode, hd, hym, hxm]
          simpa using hop
        · have hrec : y.fld (CN_ERRC m) 16 8 = 0 := by rw [State.fld, hyerr]; exact h2
          have htec : y.fld (CN_ERRC m) 0 9 < 96 := by rw [State.fld, hyerr]; exact h1
          have hest : y.fld (CN_STATUS m) 8 2 = 0 := by
            rw [State.fld, hystat]
            exact (fld_congr_bits fun k hk => hxbits (8 + k) (by omega) (by omega)).trans h3
          have h10 : y.bit (CN_STATUS m) 10 = false := by
            rw [State.bit, hystat]
            exact (hxbits 10 (by decide) (by decide)).trans h4
          exact ⟨hest, h10, htec, by omega⟩
    have hall : TenonStep m [MZ_CNT m 2, CN_STATUS m, CN_ERRC m] (s.tick t) z := (hys.mono (by simp)).trans (hzs.mono (by simp))
    have hzcnt : z.rdN (MZ_CNT m 2) = (s.rdN (MZ_CNT m 2) + 1) % 2 ^ 32 := by
      rw [hzs.regs.rdN (by simp [MZ_CNT, CN_STATUS, CN_ERRC]; omega), hycnt]
    obtain ⟨hep, -⟩ := hall.fields
    exact after_tenon (w := s.tick t) rfl e rfl hall fun b hb hframe => ⟨hep, hzcnt, hall.same, hall.regs, hframe⟩

/-- Settles O37: the branches of the reception of one frame, each a step of the tenon's own registers and state, and the stamp that ends it. -/
theorem canReception : Obligations.CanReception := by
  intro s t m sof r hm hz hten hst hcur
  refine ⟨fun h => ?_, fun hq hw hf => ⟨fun h1 h2 hlone href => ?_, fun hlack => ?_⟩⟩
  · exact after_hb rfl (canFrameReceived_none h) rfl fun b hb => ⟨rfl, hb⟩
  · exact canReceived_frame hm hz hten hst hcur hq hw hf h1 h2 hlone href
  · exact canReceived_lacking hm hz hten hst hq hw hf hlack

end Sys2Proof.Proofs
end

section
/-! PROOFS. The transmission of CAN frames: arbitration, confirmation and failed attempts (R158, R165, R177, R179, R184). -/
set_option Elab.async false
namespace Sys2Proof.Machine
open Sys2Proof

/-! ### Event records (R165) -/

/-- The record of a CAN event. -/
def canEventRec (code obj st reason idw rowcol : Nat) : Octets :=
  padTo 16 ([BitVec.ofNat 8 code, BitVec.ofNat 8 obj, BitVec.ofNat 8 st, BitVec.ofNat 8 reason] ++ natLE 4 idw ++ natLE 2 rowcol)

theorem canEventRec_head (code obj st reason idw rowcol : Nat) : (canEventRec code obj st reason idw rowcol).take 2 = [BitVec.ofNat 8 code, BitVec.ofNat 8 obj] ∧
    oct (canEventRec code obj st reason idw rowcol) 3 = reason % 2 ^ 8 ∧ leAt (canEventRec code obj st reason idw rowcol) 4 4 = idw % 2 ^ 32 := by
  have h4 : (natLE 4 idw).length = 4 := length_natLE 4 idw
  refine ⟨by simp [canEventRec, padTo], by simp [canEventRec, padTo, oct], ?_⟩
  have hs : slice (canEventRec code obj st reason idw rowcol) 4 4 = natLE 4 idw := by
    simp [canEventRec, padTo, slice, h4, List.take_append]
  rw [leAt, hs, leNat_natLE]
  rfl

/-- A report of a unit that drives is one event stamped (R64). -/
theorem canReport_driven {s : State} {m : Nat} (h : s.drives m = true) (code obj reason idw rowcol : Nat) :
    s.canReport m code obj reason idw rowcol = s.stampIn { cls := 2, port := m, kind := .event, octets := canEventRec code obj (s.canState m) reason idw rowcol } :=
  if_pos h

/-! ### Objects -/

theorem canObj_onObj {s : State} {m k : Nat} (f : CanObj → CanObj) (hl : m < s.mz.length) (j : Nat) :
    (s.onObj m k f).canObj m j = if j = k ∧ k < (s.mort m).can.objs.length then f (s.canObj m k) else s.canObj m j := by
  unfold State.canObj State.onObj
  rw [mort_onCan _ hl]
  exact nth_updAt ..

theorem onObj_step (s : State) (m k : Nat) (f : CanObj → CanObj) : TenonStep m [] s (s.onObj m k f) := .onCan m s _

theorem canStart_step (s : State) (m k : Nat) : TenonStep m [] s (s.canStart m k) := .onCan m s fun c => { c with wire := some k, wireRec := s.objRec m k, wireLen := lenField (s.objRec m k) }

theorem winner_mem {s : State} {m k : Nat} {l : List Nat} (h : s.winner m l = some k) : k ∈ l := by
  unfold State.winner at h
  suffices hg : ∀ (l : List Nat) (b : Option Nat), (l.foldl (fun best k =>
      let key := fun j => (arbKey ((s.canObj m j).active.map (·.octets) |>.getD []), (s.canObj m j).ord)
      match best with
      | none => some k
      | some b => if (key k).1 < (key b).1 ∨ ((key k).1 = (key b).1 ∧ (key k).2 < (key b).2) then some k else some b) b) = some k → k ∈ l ∨ b = some k by
    exact (hg l none h).resolve_right (by simp)
  intro l
  induction l with
  | nil => exact fun b h => .inr h
  | cons x l ih =>
    intro b h
    rw [List.foldl_cons] at h
    rcases ih _ h with hm | hb
    · exact .inl (List.mem_cons_of_mem x hm)
    · cases b with
      | none => exact .inl (by simp_all)
      | some b =>
        dsimp only at hb
        split at hb
        · exact .inl (by simp_all)
        · exact .inr hb

theorem offerable_lt {s : State} {m k : Nat} {p : Nat → Bool} (h : k ∈ s.offerable m p) : k < 32 := List.mem_range.mp (List.mem_filter.mp h).1

/-- What a tenon may offer, and which of it wins, are read from its objects and their registers. -/
theorem offerable_congr {s t : State} {m : Nat} (ho : (t.mort m).can.objs = (s.mort m).can.objs) {p q : Nat → Bool} (hp : ∀ k < 32, p k = q k) :
    t.offerable m p = s.offerable m q := by
  unfold State.offerable
  refine List.filter_congr fun k hk => ?_
  rw [State.canObj, ho, hp k (List.mem_range.mp hk)]
  rfl

theorem winner_congr {s t : State} {m : Nat} (ho : (t.mort m).can.objs = (s.mort m).can.objs) (l : List Nat) : t.winner m l = s.winner m l := by
  have h : ∀ j, t.canObj m j = s.canObj m j := fun j => by
    rw [State.canObj, ho]
    rfl
  unfold State.winner
  simp only [h]

theorem objRec_congr {s t : State} {m k : Nat} (hk : k < 32) (ho : (t.mort m).can.objs = (s.mort m).can.objs) : t.objRec m k = s.objRec m k := by
  have hne : (k == 32) = false := beq_eq_false_iff_ne.mpr (by omega)
  unfold State.objRec
  rw [hne, State.canObj, ho]
  rfl

/-- The bits of CN_TXWIRE are the sent marks. -/
theorem sum_ite_filter (p : Nat → Bool) (l : List Nat) : (l.map (fun k => if p k then 2 ^ k else 0)).sum = ((l.filter p).map (2 ^ ·)).sum := by
  induction l with
  | nil => rfl
  | cons x l ih =>
    rw [List.map_cons, List.sum_cons, ih, List.filter_cons]
    split
    · rw [List.map_cons, List.sum_cons]
    · rw [Nat.zero_add]

theorem txWire_bit (s : State) (m : Nat) {k : Nat} (hk : k < 32) : (s.txWire m).bit (CN_TXWIRE m) k = (s.canObj m k).sent := by
  unfold State.txWire
  rw [sum_ite_filter (fun k => (s.canObj m k).sent), State.bit, rdN_wrN_same, Nat.testBit_mod_two_pow, (maskSum_below _ 32).2 k, decide_eq_true hk]
  rfl

/-! ### The column of the matrix (R194) -/

theorem colSync_same {s : State} {m t c0 : Nat} (hc : (s.mort m).can.cycleAt = some c0) (h : s.colAt m ((t - c0) / 1000) = s.fld (CN_TTSTAT m) 8 4) : s.colSync m t = s := by
  unfold State.colSync
  rw [hc]
  exact if_pos (beq_iff_eq.mpr h)

/-- Following the time touches the column shown and the marks of its window alone. -/
theorem colSync_step {s : State} {m : Nat} (t : Nat) (hl : m < s.mz.length) : TenonStep m [CN_TTSTAT m] s (s.colSync m t) ∧
    ∃ a b, (s.colSync m t).mort m = { s.mort m with can := { (s.mort m).can with tried := a, missed := b } } := by
  unfold State.colSync
  split
  · exact ⟨.refl _ _ _, (s.mort m).can.tried, (s.mort m).can.missed, rfl⟩
  · dsimp only
    split
    · exact ⟨.refl _ _ _, (s.mort m).can.tried, (s.mort m).can.missed, rfl⟩
    · exact ⟨(TenonStep.of_regs ((RegsOnly.refl _ s).setFld (by simp) 8 4 _)).trans ((TenonStep.onCan m _ _).mono (by simp)), false, false,
        mort_onCan (s := s.setFld (CN_TTSTAT m) 8 4 _) (fun c => { c with tried := false, missed := false }) hl⟩

/-! ### The start of arbitration (R177, R179) -/

theorem canArbitrationStart_waits {s : State} {t m : Nat} (h : s.canWaits m t = true) : canArbitrationStart t m s = s.tick t :=
  if_pos (by show (!s.isCan m || s.canWaits m t) = true; rw [h, Bool.or_true])

theorem canDriving_isCan {s : State} {m : Nat} (h : s.canDriving m) : s.isCan m = true := by
  obtain ⟨-, -, hten, hst, -⟩ := h
  rw [State.isCan, hten, hst]
  rfl

/-- A tenon that drives in normal mode is ready once no wait is left, nothing is on the wire and it is not bus-off. -/
theorem canReady_driving {s x : State} {m : Nat} {l : List Nat} (h : s.canDriving m) (hx : TenonStep m l s x) (hop : (x.mort m).can.opmode = (s.mort m).can.opmode)
    (hw : x.canWaits m x.now = false) (hwire : (x.mort m).can.wire = none) (he : x.fld (CN_STATUS m) 8 2 ≠ 2) : x.canReady m = true := by
  have hcan := canDriving_isCan h
  obtain ⟨-, -, -, hst, hd, hop0, hq, -⟩ := h
  obtain ⟨-, -, -, -, hwk⟩ := hx.fields
  rw [State.canReady, hx.isCan, hcan, hx.drives, hd, hop, hop0, hw, hwire, hx.tenon.2.1, hst, hwk, hq]
  simpa using he

/-- The tenon integrated and its column brought up to the instant, as the start of arbitration finds them. -/
theorem canArbitrationStart_eq {s : State} {t m : Nat} (hc : s.isCan m = true) (hw : s.canWaits m t = false) {y : State}
    (hy : ((s.tick t).canIntegrated m).colSync m t = y) (hr : y.canReady m = true) :
    canArbitrationStart t m s =
      let ty := if y.bit (CN_CFG m) 6 then (if y.bit (CN_TTSTAT m) 13 then (y.window m).2 else 2) else 0
      if ty == 0 then
        match y.winner m (y.offerable m (fun k => !(y.bit (CN_OBJ m k) 31))) with
        | some k => y.canStart m k
        | none => y
      else if ty == 3 && y.fld (CN_TTCFG m) 0 2 == 2 && !(y.mort m).can.tried then (y.canStart m 32).onCan m (fun c => { c with tried := true })
      else y := by
  unfold canArbitrationStart
  rw [if_neg (by show ¬(!s.isCan m || s.canWaits m t) = true; rw [hc, hw]; decide)]
  dsimp only
  rw [hy, if_neg (by rw [hr]; decide)] <;> rfl

/-! ### The end of a frame (R158, R165) -/

theorem tdcMeasured_classic {s : State} {m : Nat} (v : Option Nat) (h : recFmt (s.mort m).can.wireRec = 0) : s.tdcMeasured m v = s := by
  unfold State.tdcMeasured
  simp only [h]
  rfl

/-- The delay measured in an FD frame with switching is shown, with its saturation (R158, R159). -/
theorem tdcMeasured_fd {s : State} {m v : Nat} (h : recFmt (s.mort m).can.wireRec = 1) (hb : (oct (s.mort m).can.wireRec 4).testBit 2 = true)
    (hen : s.bit (CN_TDC_D m) 7 = true) (hv : s.fld (CN_TDC_D m) 8 7 ≤ v) :
    s.tdcMeasured m (some v) = if v + s.fld (CN_TDC_D m) 0 7 > 127
      then ((s.setFld (CN_TDC_D m) 16 7 v).setBit (CN_TDC_D m) 23 (decide (v + s.fld (CN_TDC_D m) 0 7 > 127))).evt (MZ_EVENT m) 28
      else (s.setFld (CN_TDC_D m) 16 7 v).setBit (CN_TDC_D m) 23 (decide (v + s.fld (CN_TDC_D m) 0 7 > 127)) := by
  unfold State.tdcMeasured
  simp only [h, hb, hen]
  rw [if_pos (by decide), if_neg (Nat.not_lt.mpr hv)]

/-- What a measured delay may touch. -/
theorem tdcMeasured_fd_step {s : State} {m v : Nat} (h : recFmt (s.mort m).can.wireRec = 1) (hb : (oct (s.mort m).can.wireRec 4).testBit 2 = true)
    (hen : s.bit (CN_TDC_D m) 7 = true) (hv : s.fld (CN_TDC_D m) 8 7 ≤ v) (hlt : v < 128) :
    RegsOnly [CN_TDC_D m, MZ_EVENT m] s (s.tdcMeasured m (some v)) ∧ (s.tdcMeasured m (some v)).fld (CN_TDC_D m) 16 7 = v ∧
    (s.tdcMeasured m (some v)).bit (CN_TDC_D m) 23 = decide (127 < v + s.fld (CN_TDC_D m) 0 7) ∧
    (127 < v + s.fld (CN_TDC_D m) 0 7 → (s.tdcMeasured m (some v)).bit (MZ_EVENT m) 28 = true) := by
  obtain ⟨x, hx⟩ : ∃ x, x = (s.setFld (CN_TDC_D m) 16 7 v).setBit (CN_TDC_D m) 23 (decide (v + s.fld (CN_TDC_D m) 0 7 > 127)) := ⟨_, rfl⟩
  have hxo : RegsOnly [CN_TDC_D m] s x := by rw [hx]; exact ((RegsOnly.refl _ s).setFld (by simp) 16 7 v).setBit (by simp) 23 _
  have hxf : x.fld (CN_TDC_D m) 16 7 = v := by
    rw [hx, fld_setBit_ne _ _ _ _ _ _ _ (by decide) (fun _ => by decide), fld_setFld_same _ _ _ _ _ (by decide)]
    exact Nat.mod_eq_of_lt hlt
  have hxb : x.bit (CN_TDC_D m) 23 = decide (127 < v + s.fld (CN_TDC_D m) 0 7) := by
    rw [hx]
    exact (bit_setBit _ _ _ _ _ (by decide)).trans (if_pos rfl)
  rw [tdcMeasured_fd h hb hen hv, ← hx]
  by_cases hsat : v + s.fld (CN_TDC_D m) 0 7 > 127
  · rw [if_pos hsat]
    have ho : RegsOnly [MZ_EVENT m] x (x.evt (MZ_EVENT m) 28) := (RegsOnly.refl _ x).evt (by simp) 28
    have hn : CN_TDC_D m ∉ [MZ_EVENT m] := by simp [CN_TDC_D, MZ_EVENT]
    exact ⟨(hxo.mono (by simp)).trans (ho.mono (by simp)), (ho.same.fld hn 16 7).trans hxf, (ho.same.bit hn 23).trans hxb, fun _ => bit_evt_same _ _ _ (by decide)⟩
  · rw [if_neg hsat]
    exact ⟨hxo.mono (by simp), hxf, hxb, fun h => absurd h hsat⟩

/-- The state of a tenon in which the frame of object `k` ends: error-active, and not lone. -/
def State.canEnds (s : State) (m k : Nat) : Prop :=
  k < 32 ∧ (s.mort m).can.wire = some k ∧ (s.mort m).can.objs.length = 32 ∧ s.fld (CN_STATUS m) 8 2 = 0 ∧ s.bit (CN_STATUS m) 10 = false ∧
  s.fld (CN_ERRC m) 0 9 < 96 ∧ s.fld (CN_ERRC m) 16 8 < 96 ∧ (s.mort m).can.lone = false

/-- The wire is free, TEC has fallen by one and the lone-node state has ended. -/
def State.canOffWire (s : State) (m : Nat) : State :=
  let s := s.onCan m (fun c => { c with wire := none })
  (s.setErr m (s.fld (CN_ERRC m) 0 9 - 1) (s.fld (CN_ERRC m) 16 8)).loneEnd m

theorem canOffWire_step {s : State} {m k : Nat} (hl : m < s.mz.length) (he : s.canEnds m k) : TenonStep m [CN_ERRC m, CN_STATUS m, CN_LONE m] s (s.canOffWire m) ∧
    (s.canOffWire m).mort m = { s.mort m with can := { (s.mort m).can with wire := none } } ∧ (s.canOffWire m).fld (CN_ERRC m) 0 9 = s.fld (CN_ERRC m) 0 9 - 1 := by
  obtain ⟨-, -, -, hest, hwarn, htec, hrec, hlone⟩ := he
  unfold State.canOffWire
  extract_lets a
  have has : TenonStep m [] s a := .onCan m s _
  have ham : a.mort m = { s.mort m with can := { (s.mort m).can with wire := none } } := mort_onCan (fun c => { c with wire := none }) hl
  have hard : ∀ r, a.rdN r = s.rdN r := fun r => has.regs.rdN (by simp)
  have haerr : ∀ lo w, a.fld (CN_ERRC m) lo w = s.fld (CN_ERRC m) lo w := fun lo w => by rw [State.fld, hard]; rfl
  have hal : m < a.mz.length := by rw [has.len]; exact hl
  clear_value a
  obtain ⟨hbr, hbs, hbm, -⟩ := setErr_step (s := a) (m := m) (tec := a.fld (CN_ERRC m) 0 9 - 1) (rec := a.fld (CN_ERRC m) 16 8) fun _ => by
    rw [haerr, haerr, State.fld, State.bit, hard]
    exact ⟨hest, hwarn, by omega, hrec⟩
  obtain ⟨b, hb⟩ : ∃ b, b = a.setErr m (a.fld (CN_ERRC m) 0 9 - 1) (a.fld (CN_ERRC m) 16 8) := ⟨_, rfl⟩
  rw [← hb] at hbr hbs hbm ⊢
  obtain ⟨hcs, hcm⟩ := loneEnd_step (s := b) (m := m) (by rw [hbs.len]; exact hal) fun _ => by rw [hbm, ham]; exact hlone
  refine ⟨(has.mono (by simp)).trans ((hbs.mono (by simp)).trans (hcs.mono (by simp))), ?_, ?_⟩
  · rw [hcm, hbm, ham]
    show ({ s.mort m with can := { (s.mort m).can with wire := none, lone := false } } : Mortise) = _
    rw [← hlone]
  · rw [hcs.regs.fld (by simp [CN_ERRC, CN_LONE]), hbr, (errRegs_fields _ _ _ _).1, haerr, Nat.min_eq_right (by omega), Nat.mod_eq_of_lt (by omega)]

/-- The object of a frame sent well is marked, the mark shown, and the frame counted (R165). -/
def State.canMarked (s : State) (m k : Nat) : State := ((s.onObj m k (fun o => { o with sent := true })).txWire m).inc (CN_CNT m 2)

theorem canMarked_step {s : State} {m k : Nat} (hl : m < s.mz.length) (hk : k < 32) (hobjs : (s.mort m).can.objs.length = 32) :
    TenonStep m [CN_TXWIRE m, CN_CNT m 2] s (s.canMarked m k) ∧ ((s.canMarked m k).mort m).can.wire = (s.mort m).can.wire ∧
    (∀ j, (s.canMarked m k).canObj m j = if j = k then { s.canObj m k with sent := true } else s.canObj m j) ∧ (s.canMarked m k).bit (CN_TXWIRE m) k = true ∧
    (s.canMarked m k).rdN (CN_CNT m 2) = (s.rdN (CN_CNT m 2) + 1) % 2 ^ 32 := by
  have hne : CN_CNT m 2 ≠ CN_TXWIRE m := by unfold CN_CNT CN_TXWIRE; omega
  obtain ⟨d, hd⟩ : ∃ d, d = s.onObj m k (fun o => { o with sent := true }) := ⟨_, rfl⟩
  have hds : TenonStep m [] s d := by rw [hd]; exact onObj_step s m k _
  have hobj : ∀ j, d.canObj m j = if j = k then { s.canObj m k with sent := true } else s.canObj m j := fun j => by
    rw [hd, canObj_onObj _ hl]
    simp only [hobjs, hk, and_true]
  have hwire : (d.mort m).can.wire = (s.mort m).can.wire := by rw [hd, State.onObj, mort_onCan _ hl]
  unfold State.canMarked
  rw [← hd]
  have ho : RegsOnly [CN_TXWIRE m, CN_CNT m 2] d ((d.txWire m).inc (CN_CNT m 2)) := ((RegsOnly.refl _ d).wrN (by simp) _).inc (by simp) 1
  have hown := ho.mort m
  refine ⟨(hds.mono (by simp)).trans (.of_regs ho), by rw [hown]; exact hwire, fun j => ?_, ?_, ?_⟩
  · rw [State.canObj, hown]
    exact hobj j
  · refine (bit_wrN_ne _ _ _ _ _ hne.symm).trans ?_
    rw [txWire_bit d m hk, hobj, if_pos rfl]
  · rw [rdN_inc_same, show (d.txWire m).rdN (CN_CNT m 2) = d.rdN (CN_CNT m 2) from rdN_wrN_ne _ _ _ _ hne, hds.regs.rdN (by simp)]

/-- The frame of an object ends well: the wire is free, the object is marked, counted and confirmed (R165). -/
theorem canTransmitEnd_confirms {s x : State} {t m k tdcv : Nat} {l : List Nat} (hd : s.canDriving m) (he : s.canEnds m k)
    (hx : (s.tick t).tdcMeasured m (some tdcv) = x) (hxo : RegsOnly l (s.tick t) x) (hl : l ⊆ [CN_TDC_D m, MZ_EVENT m]) :
    ∃ y o, canTransmitEnd t m tdcv s = y.stampIn { cls := 2, port := m, kind := .event, octets := o } ∧ y.drives m = true ∧
      TenonStep m [CN_TXWIRE m, CN_CNT m 2, CN_ERRC m, CN_STATUS m, CN_LONE m] x y ∧
      (y.mort m).can.wire = none ∧ (∀ j, y.canObj m j = if j = k then { s.canObj m k with sent := true } else s.canObj m j) ∧
      y.bit (CN_TXWIRE m) k = true ∧ y.rdN (CN_CNT m 2) = (s.rdN (CN_CNT m 2) + 1) % 2 ^ 32 ∧ y.fld (CN_ERRC m) 0 9 = s.fld (CN_ERRC m) 0 9 - 1 ∧
      o.take 2 = [1, BitVec.ofNat 8 k] ∧ leAt o 4 4 = recIdw (s.mort m).can.wireRec := by
  have hcan := canDriving_isCan hd
  obtain ⟨hm, hz, -, -, hdr, -⟩ := hd
  have hxm : x.mort m = s.mort m := hxo.mort m
  have hxs : TenonStep m l (s.tick t) x := .of_regs hxo
  have hxl : m < x.mz.length := by rw [hxs.len]; show m < s.mz.length; omega
  have hread : ∀ a, a ≠ CN_TDC_D m → a ≠ MZ_EVENT m → x.rdN a = s.rdN a := fun a h1 h2 => hxo.same.rdN fun h => by
    rcases List.mem_cons.mp (hl h) with h | h
    · exact h1 h
    · exact h2 (List.mem_singleton.mp h)
  have hxstat : x.rdN (CN_STATUS m) = s.rdN (CN_STATUS m) := hread _ (by simp [CN_STATUS, CN_TDC_D]) (by simp [CN_STATUS, MZ_EVENT])
  have hxerr : x.rdN (CN_ERRC m) = s.rdN (CN_ERRC m) := hread _ (by simp [CN_ERRC, CN_TDC_D]) (by simp [CN_ERRC, MZ_EVENT])
  have hxcnt : x.rdN (CN_CNT m 2) = s.rdN (CN_CNT m 2) := hread _ (by simp [CN_CNT, CN_TDC_D]; omega) (by simp [CN_CNT, MZ_EVENT]; omega)
  have hxe : x.canEnds m k := by
    unfold State.canEnds State.fld State.bit
    rw [hxm, hxstat, hxerr]
    exact he
  obtain ⟨hcs, hcm, hctec⟩ := canOffWire_step hxl hxe
  obtain ⟨hk, hwire, hobjs, -⟩ := he
  obtain ⟨c, hc⟩ : ∃ c, c = x.canOffWire m := ⟨_, rfl⟩
  rw [← hc] at hcs hcm hctec
  have hobj : ∀ j, c.canObj m j = s.canObj m j := fun j => by rw [State.canObj, hcm, hxm]; rfl
  obtain ⟨hys, hywire, hyobj, hybit, hycnt⟩ := canMarked_step (s := c) (m := m) (by rw [hcs.len]; exact hxl) hk (by rw [hcm, hxm]; exact hobjs)
  obtain ⟨y, hy⟩ : ∃ y, y = c.canMarked m k := ⟨_, rfl⟩
  rw [← hy] at hys hywire hyobj hybit hycnt
  have hall : TenonStep m [CN_TXWIRE m, CN_CNT m 2, CN_ERRC m, CN_STATUS m, CN_LONE m] x y := (hcs.mono (by simp)).trans (hys.mono (by simp))
  have hydr : y.drives m = true := hall.drives.trans (hxs.drives.trans hdr)
  obtain ⟨hhead, -, hidw⟩ := canEventRec_head 1 k (y.canState m) 0 (recIdw (s.mort m).can.wireRec) 0
  refine ⟨y, canEventRec 1 k (y.canState m) 0 (recIdw (s.mort m).can.wireRec) 0, ?_, hydr, hall, by rw [hywire, hcm], fun j => by rw [hyobj, hobj, hobj], hybit, ?_, ?_, hhead,
    hidw.trans (Nat.mod_eq_of_lt (leAt_lt _ 0 4))⟩
  · have hw : ((s.tick t).mort m).can.wire = some k := hwire
    rw [← canReport_driven hydr, hy, hc, ← hx]
    unfold canTransmitEnd
    rw [if_neg (by show ¬(!s.isCan m) = true; rw [hcan]; decide)]
    dsimp only
    rw [hw]
    dsimp only
    rw [if_neg (by rw [beq_iff_eq]; omega)]
    rfl
  · rw [hycnt, hcs.regs.rdN (by simp [CN_CNT, CN_ERRC, CN_STATUS, CN_LONE]; omega), hxcnt]
  · rw [hys.regs.fld (by simp [CN_TXWIRE, CN_CNT, CN_ERRC]; omega), hctec, State.fld, hxerr]
    rfl

/-! ### An attempt that failed (R180, R184) -/

/-- What an attempt that failed leaves: the wire is free, and a lost arbitration is counted. -/
def State.canFailed (s : State) (m : Nat) (lost : Bool) : State :=
  let s := s.onCan m (fun c => { c with wire := none })
  if lost then s.inc (CN_CNT m 3) else s

theorem canFailed_step {s : State} {m : Nat} (lost : Bool) (hl : m < s.mz.length) : TenonStep m [CN_CNT m 3] s (s.canFailed m lost) ∧
    (s.canFailed m lost).mort m = { s.mort m with can := { (s.mort m).can with wire := none } } ∧
    (s.canFailed m lost).rdN (CN_CNT m 3) = (s.rdN (CN_CNT m 3) + (if lost then 1 else 0)) % 2 ^ 32 := by
  have hm : (s.onCan m fun c => { c with wire := none }).mort m = _ := mort_onCan (fun c => { c with wire := none }) hl
  cases lost with
  | true =>
    refine ⟨((TenonStep.onCan m s _).mono (by simp)).trans (.of_regs ((RegsOnly.refl _ _).inc (by simp) 1)), hm, ?_⟩
    exact rdN_inc_same ..
  | false => exact ⟨(TenonStep.onCan m s fun c => { c with wire := none }).mono (by simp), hm, (Nat.mod_eq_of_lt (BitVec.isLt _)).symm⟩

theorem canTransmitFailed_object {s : State} {t m k : Nat} (lost : Bool) (tdcv : Option Nat) (hc : s.isCan m = true) (hk : k < 32) (hw : (s.mort m).can.wire = some k)
    (hf : recFmt (s.mort m).can.wireRec = 0) :
    canTransmitFailed t m lost tdcv s = ((s.tick t).canFailed m lost).canNotSent m k (if lost then 1 else 2) := by
  have hk32 : (k == 32) = false := beq_eq_false_iff_ne.mpr (by omega)
  have hw' : ((s.tick t).mort m).can.wire = some k := hw
  unfold canTransmitFailed
  rw [if_neg (by show ¬(!s.isCan m) = true; rw [hc]; decide)]
  dsimp only
  rw [hw']
  dsimp only
  rw [tdcMeasured_classic (s := s.tick t) tdcv hf, hk32]
  simp only [Bool.false_and, Bool.not_false, Bool.and_true]
  rfl

/-- An object whose attempt is not to be tried again is spent and reported (R184). -/
theorem canNotSent_spent {s : State} {m k reason : Nat} (hk : k < 32) (h : s.bit (CN_CFG m) 4 = true ∨ (s.canObj m k).abort = true) :
    s.canNotSent m k reason = (s.onObj m k (fun o => { o with spent := true })).canReport m 2 k reason (recIdw (s.objRec m k)) 0 := by
  refine if_pos ?_
  rcases h with h | h <;> rw [h] <;> simp [hk]

theorem canNotSent_again {s : State} {m k reason : Nat} (h : s.bit (CN_CFG m) 4 = false) (ha : (s.canObj m k).abort = false) : s.canNotSent m k reason = s :=
  if_neg (by rw [h, ha]; simp)

/-- A tenon that drives keeps its pins as a transmission ends. -/
theorem letGo_driving {s : State} {m : Nat} (hd : s.drives m = true) (hq : s.wk.quiesce = false) : s.letGo m = s := by
  have h : (s.mayDrive && s.tw.driving) = true := (Bool.and_eq_true_iff.mp hd).1
  unfold State.letGo
  rw [h, hq]
  rfl

end Sys2Proof.Machine

namespace Sys2Proof.Proofs
open Sys2Proof Sys2Proof.Machine

theorem canArbitration_starts {s : State} {t m k : Nat} (hd : s.canDriving m) (hw : s.canWaits m t = false) (hwire : (s.mort m).can.wire = none)
    (he : s.fld (CN_STATUS m) 8 2 ≠ 2) (hmx : s.bit (CN_CFG m) 6 = false) (hwin : s.winner m (s.offerable m fun j => !(s.bit (CN_OBJ m j) 31)) = some k) :
    After (.canArbitrationStart t m) s fun u =>
      (u.mort m).can = { (s.mort m).can with
        waitTil := none, wire := some k, wireRec := s.objRec m k, wireLen := lenField (s.objRec m k), tried := (u.mort m).can.tried, missed := (u.mort m).can.missed } ∧
      u.mort m = { s.mort m with can := (u.mort m).can } ∧ sameMorts m s u ∧ u.bit (CN_STATUS m) 11 = true ∧
      sameRegs [CN_STATUS m, CN_TTSTAT m] s u ∧ u = { s with now := max s.now t, regs := u.regs, mz := u.mz, hb := u.hb } ∧ sameBridge s u := by
  have hcan := canDriving_isCan hd
  have hl : m < s.mz.length := by
    obtain ⟨hm, hz, -⟩ := hd
    omega
  obtain ⟨hx, hxm, hx11, hxbits⟩ := canIntegrated_step (s := s.tick t) (m := m) hl
  obtain ⟨x, hxd⟩ : ∃ x, x = (s.tick t).canIntegrated m := ⟨_, rfl⟩
  rw [← hxd] at hx hxm hx11 hxbits
  have hxl : m < x.mz.length := by rw [hx.len]; exact hl
  obtain ⟨hy, a, b, hym⟩ := colSync_step (s := x) (m := m) t hxl
  obtain ⟨y, hyd⟩ : ∃ y, y = x.colSync m t := ⟨_, rfl⟩
  rw [← hyd] at hy hym
  have hys : TenonStep m [CN_STATUS m, CN_TTSTAT m] (s.tick t) y := (hx.mono (by simp)).trans (hy.mono (by simp))
  have hym' : y.mort m = { s.mort m with can := { (s.mort m).can with waitTil := none, tried := a, missed := b } } := by rw [hym, hxm]; rfl
  have hobjs : (y.mort m).can.objs = (s.mort m).can.objs := by rw [hym']
  have hstat : y.rdN (CN_STATUS m) = x.rdN (CN_STATUS m) := hy.regs.rdN (by simp [CN_STATUS, CN_TTSTAT])
  have hest : y.fld (CN_STATUS m) 8 2 ≠ 2 := by
    rw [State.fld, hstat]
    rw [show bitsN (x.rdN (CN_STATUS m)) 8 2 = s.fld (CN_STATUS m) 8 2 from fld_congr_bits fun j hj => hxbits (8 + j) (by omega) (by omega)]
    exact he
  have hready : y.canReady m = true := canReady_driving (s := s.tick t) hd hys (by rw [hym']; rfl) (by rw [State.canWaits, hym']; rfl) (by rw [hym']; exact hwire) hest
  have hcfg : y.bit (CN_CFG m) 6 = false := by
    rw [hys.regs.bit (by simp [CN_CFG, CN_STATUS, CN_TTSTAT])]
    exact hmx
  have hoff : y.offerable m (fun j => !(y.bit (CN_OBJ m j) 31)) = s.offerable m fun j => !(s.bit (CN_OBJ m j) 31) := offerable_congr hobjs fun j hj => by
    rw [hys.regs.bit (by simp [CN_OBJ, CN_STATUS, CN_TTSTAT]; omega)]
    rfl
  have hk : k < 32 := offerable_lt (winner_mem hwin)
  have hrec : y.objRec m k = s.objRec m k := objRec_congr hk hobjs
  have hyl : m < y.mz.length := by rw [hys.len]; exact hl
  have e : canArbitrationStart t m s = y.canStart m k := by
    rw [canArbitrationStart_eq hcan hw (by rw [hyd, hxd]) hready]
    dsimp only
    rw [hcfg, hoff, winner_congr hobjs, hwin]
    rfl
  have hz : TenonStep m [CN_STATUS m, CN_TTSTAT m] (s.tick t) (y.canStart m k) := hys.trans ((canStart_step y m k).mono (by simp))
  have hzm : (y.canStart m k).mort m = { s.mort m with can := { (s.mort m).can with
      waitTil := none, wire := some k, wireRec := s.objRec m k, wireLen := lenField (s.objRec m k), tried := a, missed := b } } := by
    refine (mort_onCan (fun c => { c with wire := some k, wireRec := y.objRec m k, wireLen := lenField (y.objRec m k) }) hyl).trans ?_
    rw [hrec, hym']
  have hz11 : (y.canStart m k).bit (CN_STATUS m) 11 = true := by
    show (y.rdN (CN_STATUS m)).testBit 11 = true
    rw [hstat]
    exact hx11
  obtain ⟨z, hzd⟩ : ∃ z, z = y.canStart m k := ⟨_, rfl⟩
  rw [← hzd] at hz hzm hz11 e
  have hcan' : (z.mort m).can = { (s.mort m).can with
      waitTil := none, wire := some k, wireRec := s.objRec m k, wireLen := lenField (s.objRec m k), tried := (z.mort m).can.tried, missed := (z.mort m).can.missed } := by rw [hzm]
  exact after_tenon (w := s.tick t) rfl e rfl hz fun b hb hframe => ⟨hcan', by
    show z.mort m = { s.mort m with can := (z.mort m).can }
    rw [hzm], hz.same, hz11, hz.regs, hframe, hb⟩

/-- What a confirmed transmission leaves, from the machine `x` in which its delay has been measured. -/
theorem after_confirmed {s x : State} {t m k tdcv : Nat} {l : List Nat} {P : State → Prop} (hd : s.canDriving m) (he : s.canEnds m k)
    (hx : (s.tick t).tdcMeasured m (some tdcv) = x) (hxo : RegsOnly l (s.tick t) x) (hl : l ⊆ [CN_TDC_D m, MZ_EVENT m])
    (hP : ∀ u : State, (u.mort m).can.wire = none → (∀ j, u.canObj m j = if j = k then { s.canObj m k with sent := true } else s.canObj m j) → sameMorts m s u →
      u.bit (CN_TXWIRE m) k = true → u.rdN (CN_CNT m 2) = (s.rdN (CN_CNT m 2) + 1) % 2 ^ 32 → u.fld (CN_ERRC m) 0 9 = s.fld (CN_ERRC m) 0 9 - 1 →
      (∃ o : Octets, stampedOne s u 2 m .event o ∧ o.take 2 = [1, BitVec.ofNat 8 k] ∧ leAt o 4 4 = recIdw (s.mort m).can.wireRec) →
      sameRegs [CN_TXWIRE m, CN_CNT m 2, CN_ERRC m, CN_STATUS m, CN_LONE m] x u → P u) : After (.canTransmitEnd t m tdcv) s P := by
  obtain ⟨y, o, e, hdr, hys, hwire, hobj, hbit, hcnt, htec, hhead, hidw⟩ := canTransmitEnd_confirms (t := t) hd he hx hxo hl
  have hall : TenonStep m (l ++ [CN_TXWIRE m, CN_CNT m 2, CN_ERRC m, CN_STATUS m, CN_LONE m]) (s.tick t) y :=
    ((TenonStep.of_regs hxo).mono (List.subset_append_left _ _)).trans (hys.mono (List.subset_append_right _ _))
  obtain ⟨-, -, -, -, -, -, hq, hcur⟩ := hd
  obtain ⟨hst, hf⟩ := stampIn_after hall { cls := 2, port := m, kind := .event, octets := o } hcur
  have hgo : (canTransmitEnd t m tdcv s).letGo m = y.stampIn { cls := 2, port := m, kind := .event, octets := o } := by
    rw [e]
    refine letGo_driving ?_ ?_
    · rw [hf]
      exact hdr
    · rw [hf]
      show y.wk.quiesce = false
      rw [hall.fields.2.2.2.2]
      exact hq
  refine after_stamped (w := s.tick t) _ rfl hgo rfl hall hcur fun u hrd hmort hstamp _ _ _ => ?_
  have hrdN : ∀ a, u.rdN a = y.rdN a := fun a => congrArg BitVec.toNat (hrd a)
  refine hP u (by rw [hmort]; exact hwire) (fun j => by rw [State.canObj, hmort]; exact hobj j) (fun j _ hj => (hmort j).trans (hall.others j hj)) ?_ ?_ ?_
    ⟨o, hstamp, hhead, hidw⟩ fun a ha => (hrd a).trans (hys.regs a ha)
  · rw [State.bit, hrdN]
    exact hbit
  · rw [hrdN]
    exact hcnt
  · rw [State.fld, hrdN]
    exact htec

theorem canTransmit_ends {s : State} {t m k tdcv : Nat} (hd : s.canDriving m) (he : s.canEnds m k) :
    (recFmt (s.mort m).can.wireRec = 0 → After (.canTransmitEnd t m tdcv) s fun u =>
      (u.mort m).can.wire = none ∧ (u.canObj m k) = { s.canObj m k with sent := true } ∧ (∀ j < 32, j ≠ k → u.canObj m j = s.canObj m j) ∧ sameMorts m s u ∧
      u.bit (CN_TXWIRE m) k = true ∧ u.rdN (CN_CNT m 2) = (s.rdN (CN_CNT m 2) + 1) % 2 ^ 32 ∧ u.fld (CN_ERRC m) 0 9 = s.fld (CN_ERRC m) 0 9 - 1 ∧
      (∃ o : Octets, stampedOne s u 2 m .event o ∧ o.take 2 = [1, BitVec.ofNat 8 k] ∧ leAt o 4 4 = recIdw (s.mort m).can.wireRec) ∧
      sameRegs [CN_TXWIRE m, CN_CNT m 2, CN_ERRC m, CN_STATUS m, CN_LONE m] s u) ∧
    (recFmt (s.mort m).can.wireRec = 1 → (oct (s.mort m).can.wireRec 4).testBit 2 = true → s.bit (CN_TDC_D m) 7 = true → s.fld (CN_TDC_D m) 8 7 ≤ tdcv → tdcv < 128 →
      After (.canTransmitEnd t m tdcv) s fun u =>
        u.fld (CN_TDC_D m) 16 7 = tdcv ∧ u.bit (CN_TDC_D m) 23 = decide (127 < tdcv + s.fld (CN_TDC_D m) 0 7) ∧
        (127 < tdcv + s.fld (CN_TDC_D m) 0 7 → u.bit (MZ_EVENT m) 28 = true) ∧ (u.mort m).can.wire = none ∧ u.canObj m k = { s.canObj m k with sent := true } ∧
        sameRegs [CN_TDC_D m, MZ_EVENT m, CN_TXWIRE m, CN_CNT m 2, CN_ERRC m, CN_STATUS m, CN_LONE m] s u) := by
  refine ⟨fun hf => ?_, fun hf hsw hen hv hlt => ?_⟩
  · refine after_confirmed hd he (tdcMeasured_classic (s := s.tick t) _ hf) (RegsOnly.refl [] _) (by simp) fun u hw hobj hs hb hc ht ho hr => ?_
    exact ⟨hw, by rw [hobj, if_pos rfl], fun j _ hj => by rw [hobj, if_neg hj], hs, hb, hc, ht, ho, hr⟩
  · obtain ⟨hxo, hx1, hx2, hx3⟩ := tdcMeasured_fd_step (s := s.tick t) hf hsw hen hv hlt
    refine after_confirmed hd he rfl hxo (List.Subset.refl _) fun u hw hobj _ _ _ _ _ hr => ?_
    have h1 : CN_TDC_D m ∉ [CN_TXWIRE m, CN_CNT m 2, CN_ERRC m, CN_STATUS m, CN_LONE m] := by simp [CN_TDC_D, CN_TXWIRE, CN_CNT, CN_ERRC, CN_STATUS, CN_LONE]; omega
    have h2 : MZ_EVENT m ∉ [CN_TXWIRE m, CN_CNT m 2, CN_ERRC m, CN_STATUS m, CN_LONE m] := by simp [MZ_EVENT, CN_TXWIRE, CN_CNT, CN_ERRC, CN_STATUS, CN_LONE]; omega
    exact ⟨(hr.fld h1 16 7).trans hx1, (hr.bit h1 23).trans hx2, fun h => (hr.bit h2 28).trans (hx3 h), hw, by rw [hobj, if_pos rfl],
      (hxo.same.mono (by simp) : sameRegs _ s _).trans (hr.mono (by simp))⟩

theorem canTransmit_fails {s : State} {t m k : Nat} (lost : Bool) (tdcv : Option Nat) (hd : s.canDriving m) (hk : k < 32) (hw : (s.mort m).can.wire = some k)
    (hobjs : (s.mort m).can.objs.length = 32) (hf : recFmt (s.mort m).can.wireRec = 0) :
    (s.bit (CN_CFG m) 4 = true → After (.canTransmitFailed t m ⟨lost, tdcv⟩) s fun u =>
      (u.mort m).can.wire = none ∧ u.canObj m k = { s.canObj m k with spent := true } ∧ (∀ j < 32, j ≠ k → u.canObj m j = s.canObj m j) ∧ sameMorts m s u ∧
      (∃ o : Octets, stampedOne s u 2 m .event o ∧ o.take 2 = [2, BitVec.ofNat 8 k] ∧ oct o 3 = (if lost then 1 else 2)) ∧
      u.rdN (CN_CNT m 3) = (s.rdN (CN_CNT m 3) + (if lost then 1 else 0)) % 2 ^ 32 ∧ sameRegs [CN_CNT m 3] s u) ∧
    (s.bit (CN_CFG m) 4 = false → (s.canObj m k).abort = false → After (.canTransmitFailed t m ⟨lost, tdcv⟩) s fun u =>
      u.mort m = { s.mort m with can := { (s.mort m).can with wire := none } } ∧ sameMorts m s u ∧ sameRegs [CN_CNT m 3] s u ∧
      u = { s with now := max s.now t, regs := u.regs, mz := u.mz, hb := u.hb }) := by
  have e := canTransmitFailed_object (t := t) lost tdcv (canDriving_isCan hd) hk hw hf
  obtain ⟨hm, hz, -, -, hdr, -, hq, hcur⟩ := hd
  obtain ⟨hx, hxm, hxcnt⟩ := canFailed_step (s := s.tick t) (m := m) lost (by show m < s.mz.length; omega)
  obtain ⟨x, hxd⟩ : ∃ x, x = (s.tick t).canFailed m lost := ⟨_, rfl⟩
  rw [← hxd] at hx hxm hxcnt e
  have hxl : m < x.mz.length := by rw [hx.len]; show m < s.mz.length; omega
  have hobj : ∀ j, x.canObj m j = s.canObj m j := fun j => by rw [State.canObj, hxm]; rfl
  have hcfg : ∀ j, x.bit (CN_CFG m) j = s.bit (CN_CFG m) j := fun j => hx.regs.bit (by simp [CN_CFG, CN_CNT]; omega) j
  have hquiet : ∀ y : State, TenonStep m [CN_CNT m 3] (s.tick t) y → y.drives m = true ∧ y.wk.quiesce = false := fun y hy =>
    ⟨hy.drives.trans hdr, by rw [hy.fields.2.2.2.2]; exact hq⟩
  clear hxd
  refine ⟨fun hone => ?_, fun hno hab => ?_⟩
  · obtain ⟨y, hy⟩ : ∃ y, y = x.onObj m k (fun o => { o with spent := true }) := ⟨_, rfl⟩
    have hys : TenonStep m [CN_CNT m 3] (s.tick t) y := by rw [hy]; exact hx.trans ((onObj_step x m k _).mono (by simp))
    have hyobj : ∀ j, y.canObj m j = if j = k then { s.canObj m k with spent := true } else s.canObj m j := fun j => by
      rw [hy, canObj_onObj _ hxl, hobj, hobj, hxm]
      show (if j = k ∧ k < (s.mort m).can.objs.length then _ else _) = _
      simp only [hobjs, hk, and_true]
    have hywire : (y.mort m).can.wire = none := by rw [hy, State.onObj, mort_onCan _ hxl, hxm]
    obtain ⟨hydr, hyq⟩ := hquiet y hys
    obtain ⟨hhead, hreason, -⟩ := canEventRec_head 2 k (y.canState m) (if lost then 1 else 2) (recIdw (x.objRec m k)) 0
    obtain ⟨i, hi⟩ : ∃ i : Input, i = { cls := 2, port := m, kind := .event, octets := canEventRec 2 k (y.canState m) (if lost then 1 else 2) (recIdw (x.objRec m k)) 0 } := ⟨_, rfl⟩
    obtain ⟨-, hf⟩ := stampIn_after hys i hcur
    have hgo : (canTransmitFailed t m lost tdcv s).letGo m = y.stampIn i := by
      have e' : canTransmitFailed t m lost tdcv s = y.stampIn i := by
        rw [e, canNotSent_spent hk (.inl ((hcfg 4).trans hone)), ← hy, canReport_driven hydr, ← hi]
      rw [e']
      exact letGo_driving (by rw [hf]; exact hydr) (by rw [hf]; exact hyq)
    refine after_stamped (w := s.tick t) i rfl hgo rfl hys hcur fun u hrd hmort hstamp _ _ _ => ?_
    have hycnt : y.rdN (CN_CNT m 3) = x.rdN (CN_CNT m 3) := by rw [hy]; rfl
    refine ⟨by rw [hmort]; exact hywire, by rw [State.canObj, hmort]; exact (hyobj k).trans (if_pos rfl), fun j _ hj => by rw [State.canObj, hmort]; exact (hyobj j).trans (if_neg hj),
      fun j _ hj => (hmort j).trans (hys.others j hj), ⟨i.octets, ?_, ?_, ?_⟩, ?_, fun a ha => (hrd a).trans (hys.regs a ha)⟩
    · rw [hi] at hstamp ⊢
      exact hstamp
    · rw [hi]
      exact hhead
    · rw [hi]
      refine hreason.trans ?_
      cases lost <;> rfl
    · rw [State.rdN, hrd]
      exact hycnt.trans hxcnt
  · have hgo : (canTransmitFailed t m lost tdcv s).letGo m = x := by
      rw [e, canNotSent_again ((hcfg 4).trans hno) (by rw [hobj]; exact hab)]
      exact letGo_driving (hquiet x hx).1 (hquiet x hx).2
    exact after_tenon (w := s.tick t) rfl hgo rfl hx fun b hb hframe => ⟨hxm, hx.same, hx.regs, hframe⟩

/-- Settles O38: the start of arbitration by the winner among the objects offered, the end of a frame by the steps that free the wire and mark the object, a failed attempt
by whether it may be tried again. -/
theorem canTransmission : Obligations.CanTransmission := by
  intro s t m k hd
  refine ⟨fun hw hwire he hmx hwin => canArbitration_starts hd hw hwire he hmx hwin, fun hw => ?_, fun tdcv hk hw ho h1 h2 h3 h4 h5 => ?_, fun lost tdcv hk hw ho hf => ?_⟩
  · exact after_hb rfl (canArbitrationStart_waits hw) rfl fun b hb => ⟨rfl, hb⟩
  · exact canTransmit_ends hd ⟨hk, hw, ho, h1, h2, h3, h4, h5⟩
  · exact canTransmit_fails lost tdcv hd hk hw ho hf

end Sys2Proof.Proofs
end

section
/-! PROOFS. CAN errors up to bus-off, recovery, operating modes and aborts (R180, R183, R185 to R187). -/
set_option Elab.async false
namespace Sys2Proof.Machine
open Sys2Proof

/-! ### A transmitter's error (R185, R186) -/

/-- A transmitter's error of a classic frame, no suspect, is counted alone. -/
theorem canBusError_transmit {s : State} {t m : Nat} (tdcv : Option Nat) (hc : s.isCan m = true) (hf : recFmt (s.mort m).can.wireRec = 0) :
    canBusError t m .transmit false tdcv s = (s.tick t).canCount m t .transmit := by
  have htdc : (s.tick t).tdcMeasured m tdcv = s.tick t := tdcMeasured_classic tdcv hf
  unfold canBusError
  rw [if_neg (by show ¬(!s.isCan m) = true; rw [hc]; decide)]
  have hr : ((CanErr.transmit == CanErr.receive) || (CanErr.transmit == CanErr.receivePrimary)) = false := rfl
  simp only [hr, Bool.false_eq_true, if_false, htdc, ite_self]
  cases ((s.tick t).mort m).can.wire <;> rfl

/-- What the counters of a driving transmitter become. -/
theorem canCount_transmit {s : State} {m t : Nat} (hd : s.drives m = true) (hop : (s.mort m).can.opmode = 0) (he : s.fld (CN_STATUS m) 8 2 ≠ 2) {x : State}
    (hx : s.setErr m (s.fld (CN_ERRC m) 0 9 + 8) (s.fld (CN_ERRC m) 16 8) = x) :
    s.canCount m t .transmit =
      if x.fld (CN_STATUS m) 8 2 == 2 then
        let y := x.onCan m (fun c => { c with wire := none, recov := x.bit (CN_CFG m) 5 })
        match (x.mort m).can.wire with
        | some k => (y.canNotSent m k 3).onObj m k (fun o => { o with spent := true })
        | none => y
      else x := by
  have hmode : (s.canMode m == 1) = false := by rw [State.canMode, hd, hop]; rfl
  have hne : (s.fld (CN_STATUS m) 8 2 == 2) = false := beq_eq_false_iff_ne.mpr he
  have hcnt : errCount (s.fld (CN_STATUS m) 8 2 == 1) (s.drives m) .transmit (s.fld (CN_ERRC m) 0 9) (s.fld (CN_ERRC m) 16 8) =
      (s.fld (CN_ERRC m) 0 9 + 8, s.fld (CN_ERRC m) 16 8) := by rw [hd]; rfl
  unfold State.canCount
  rw [if_neg (by rw [hmode]; decide)]
  simp only [hcnt, hne, Bool.false_eq_true, if_false, hx, bne, Bool.not_false, Bool.true_and] <;> rfl

/-- A change of the error state of a driving tenon is reported, after its registers are set (R185). -/
theorem setErr_reports {s : State} {m tec rec : Nat} (hd : s.drives m = true) (h : s.fld (CN_STATUS m) 8 2 ≠ s.errNext m tec rec) :
    s.setErr m tec rec = (s.errRegs m tec rec).stampIn
      { cls := 2, port := m, kind := .event, octets := canEventRec 4 0xFF ((s.errRegs m tec rec).canState m) 0 0 0 } := by
  have e : s.setErr m tec rec = if s.fld (CN_STATUS m) 8 2 ≠ s.errNext m tec rec ∨ s.bit (CN_STATUS m) 10 ≠ (tec ≥ 96 || rec ≥ 96)
      then (s.errRegs m tec rec).canReport m 4 0xFF 0 0 0 else s.errRegs m tec rec := rfl
  rw [e, if_pos (.inl h), canReport_driven ((TenonStep.of_regs (m := m) (errRegs_only s m tec rec)).drives.trans hd)]

/-! ### Recovery from bus-off (R187) -/

/-- The tenon once its recovery has run: error-active with cleared counters. -/
def State.canRecovered (s : State) (m : Nat) : State :=
  let s := (s.onCan m (fun c => { c with recov := false })).setFld (CN_STATUS m) 8 2 0
  let s := ((s.setFld (CN_ERRC m) 0 9 0).setFld (CN_ERRC m) 16 8 0).setBit (CN_ERRC m) 24 false
  s.setBit (CN_STATUS m) 10 false

theorem canRecovered_step {s : State} {m : Nat} (hl : m < s.mz.length) : TenonStep m [CN_ERRC m, CN_STATUS m] s (s.canRecovered m) ∧
    ((s.canRecovered m).mort m).can.recov = false ∧ (s.canRecovered m).fld (CN_STATUS m) 8 2 = 0 ∧ (s.canRecovered m).bit (CN_STATUS m) 10 = false ∧
    (s.canRecovered m).fld (CN_ERRC m) 0 9 = 0 ∧ (s.canRecovered m).fld (CN_ERRC m) 16 8 = 0 := by
  have hne := ERRC_ne_STATUS m
  unfold State.canRecovered
  extract_lets x y
  have hx : TenonStep m [CN_ERRC m, CN_STATUS m] s x := ((TenonStep.onCan m s _).mono (by simp)).trans (.of_regs ((RegsOnly.refl _ _).setFld (by simp) 8 2 0))
  have hxm : (x.mort m).can.recov = false := by
    show ((s.onCan m fun c => { c with recov := false }).mort m).can.recov = false
    rw [mort_onCan (fun c => { c with recov := false }) hl]
  have hxe : x.fld (CN_STATUS m) 8 2 = 0 := fld_setFld_same _ _ _ _ _ (by decide)
  clear_value x
  have hy : RegsOnly [CN_ERRC m] x y := (((RegsOnly.refl _ x).setFld (by simp) 0 9 0).setFld (by simp) 16 8 0).setBit (by simp) 24 false
  have hy1 : y.fld (CN_ERRC m) 0 9 = 0 := by
    refine (fld_setBit_ne _ _ _ _ _ _ _ (by decide) fun _ => by decide).trans ?_
    rw [fld_setFld_ne _ _ _ _ _ _ _ (by decide) (by decide)]
    exact fld_setFld_same _ _ _ _ _ (by decide)
  have hy2 : y.fld (CN_ERRC m) 16 8 = 0 := by
    refine (fld_setBit_ne _ _ _ _ _ _ _ (by decide) fun _ => by decide).trans ?_
    exact fld_setFld_same _ _ _ _ _ (by decide)
  clear_value y
  have hz : RegsOnly [CN_STATUS m] y (y.setBit (CN_STATUS m) 10 false) := (RegsOnly.refl _ y).setBit (by simp) 10 false
  have herr : CN_ERRC m ∉ [CN_STATUS m] := by rw [List.mem_singleton]; exact hne
  refine ⟨hx.trans (.of_regs ((hy.mono (by simp)).trans (hz.mono (by simp)))), ?_, ?_, ?_, (hz.same.fld herr 0 9).trans hy1, (hz.same.fld herr 16 8).trans hy2⟩
  · rw [hz.mort m, hy.mort m]
    exact hxm
  · rw [fld_setBit_ne _ _ _ _ _ _ _ (by decide) fun _ => by decide, hy.same.fld (by rw [List.mem_singleton]; exact hne.symm)]
    exact hxe
  · exact (bit_setBit _ _ _ _ _ (by decide)).trans (if_pos rfl)

/-! ### Processed commands of a tenon (R144) -/

/-- A command for the area of a mortise that runs its tenon, with no re-tenoning open, takes effect. -/
theorem tenonCommand_runs {c m : Nat} {k : Tenon} {f : State → State} {s : State} (hm : m < 128) (hw : (s.mort m).window = none) (ht : (s.mort m).tenon = k)
    (hst : (s.mort m).st = .inService) : tenonCommand c m k f s = f s := by
  unfold tenonCommand
  extract_lets x kind
  have hk : kind = true := by
    show ((s.mort m).tenon == k || _) = true
    rw [ht, beq_self_eq_true, Bool.true_or]
  have hi : (x.st == .idle) = false := by
    show ((s.mort m).st == .idle) = false
    rw [hst]
    rfl
  have hsh : x.shut c = false := by
    show (s.mort m).shut c = false
    rw [Mortise.shut, hw]
    rfl
  refine if_neg ?_
  rw [hsh, hi, hk]
  simpa using hm

/-- A processed command that steps one tenon, its meaning begun in `w`. -/
theorem after_tenonCommand {i : Instr} {s w x : State} {m c : Nat} {k : Tenon} {l : List Nat} {f : State → State} {P : State → Prop}
    (h : exec i s = .next (s.settle (w.processed false (tenonCommand c m k f)))) (hs : w.takesCommands) (hw : w.hb = s.hb) (hm : m < 128)
    (hwin : (w.mort m).window = none) (ht : (w.mort m).tenon = k) (hst : (w.mort m).st = .inService) (e : f w = x) (hx : TenonStep m l w x)
    (kP : ∀ b : Bridge, sameBridge s { x with hb := b } → ({ x with hb := b } : State) = { w with regs := x.regs, mz := x.mz, hb := b } → P { x with hb := b }) : After i s P := by
  obtain ⟨hd, -, hh⟩ := hs
  have e' := (tenonCommand_runs (c := c) (f := f) hm hwin ht hst).trans e
  have hheld : x.held = [] := by rw [hx.frame]; exact hh
  exact after_tenon h ((processed_unheld (s := w) hd (fun h => by cases h) (by rw [e']; exact hheld)).trans e') hw hx kP

/-- The same where the command ends in one input stamped. -/
theorem after_tenonStamped {i : Instr} {s w x : State} {m c : Nat} {k : Tenon} {l : List Nat} {f : State → State} {P : State → Prop} (n : Input)
    (h : exec i s = .next (s.settle (w.processed false (tenonCommand c m k f)))) (hs : w.takesCommands) (hw : w.hb = s.hb) (hm : m < 128)
    (hwin : (w.mort m).window = none) (ht : (w.mort m).tenon = k) (hst : (w.mort m).st = .inService) (e : f w = x.stampIn n) (hx : TenonStep m l w x)
    (hc : w.ep.cur.isSome = true)
    (kP : ∀ u : State, u = { x with ep := u.ep, hb := u.hb } → stampedOne w u n.cls n.port n.kind n.octets → sameBridge s u → P u) : After i s P := by
  obtain ⟨hd, -, hh⟩ := hs
  have e' := (tenonCommand_runs (c := c) (f := f) hm hwin ht hst).trans e
  obtain ⟨hstamp, hf⟩ := stampIn_after hx n hc
  have hfr := hx.frame
  have hheld : (x.stampIn n).held = [] := by
    rw [hf, hfr]
    exact hh
  have hbr : (x.stampIn n).hb = s.hb := by
    rw [hf, hfr]
    exact hw
  exact after_hb h ((processed_unheld (s := w) hd (fun h => by cases h) (by rw [e']; exact hheld)).trans e') hbr fun b hb =>
    kP _ (congrArg (fun z : State => { z with hb := b }) hf) hstamp hb

/-! ### An abort (R180) -/

/-- A fold over the objects that acts on one of them alone. -/
theorem foldl_oneBit (g : State → Nat → State) (k n : Nat) (s : State) :
    (List.range n).foldl (fun s j => if (2 ^ k).testBit j then g s j else s) s = if k < n then g s k else s := by
  induction n with
  | zero => rfl
  | succ n ih =>
    rw [List.range_succ, List.foldl_append, ih, List.foldl_cons, List.foldl_nil, Nat.testBit_two_pow]
    by_cases hn : k = n
    · subst hn
      rw [if_neg (Nat.lt_irrefl k), if_pos (Nat.lt_succ_self k), if_pos (decide_eq_true rfl)]
    · rw [if_neg (by simpa using hn)]
      by_cases hlt : k < n
      · rw [if_pos hlt, if_pos (by omega)]
      · rw [if_neg hlt, if_neg (by omega)]

/-- The abort of one object that is active, neither sent nor spent, and has no next slot, on a tenon that drives. -/
theorem canTxAbort_one {s : State} {m k : Nat} (hc : s.isCan m = true) (hd : s.drives m = true) (hk : k < 32) (ha : (s.canObj m k).active.isSome = true)
    (hn : (s.canObj m k).nxt = none) (hs : (s.canObj m k).sent = false) (hp : (s.canObj m k).spent = false) :
    canTxAbort m (2 ^ k) s = if (s.mort m).can.wire == some k then s.onObj m k (fun o => { o with abort := true })
      else (s.onObj m k (fun o => { o with spent := true })).canReport m 3 k 0 (recIdw (s.objRec m k)) 0 := by
  unfold canTxAbort
  rw [if_neg (by rw [hc]; decide)]
  refine (foldl_oneBit _ k 32 s).trans ?_
  rw [if_pos hk]
  simp only [hn, Option.isSome_none, Bool.false_eq_true, if_false, hd, ha, hs, hp, Bool.not_false, Bool.and_self, Bool.not_true]

end Sys2Proof.Machine

namespace Sys2Proof.Proofs
open Sys2Proof Sys2Proof.Machine

theorem canError_counts {s : State} {t m : Nat} (tdcv : Option Nat) (hd : s.canDriving m) (hwarn : s.bit (CN_STATUS m) 10 = decide (96 ≤ s.fld (CN_ERRC m) 0 9))
    (hrec : s.fld (CN_ERRC m) 16 8 < 96) (hf : recFmt (s.mort m).can.wireRec = 0) (he : s.fld (CN_STATUS m) 8 2 = 0) (htec : s.fld (CN_ERRC m) 0 9 + 8 < 96) :
    After (.canBusError t m .transmit ⟨false, tdcv⟩) s fun u =>
      u.fld (CN_ERRC m) 0 9 = s.fld (CN_ERRC m) 0 9 + 8 ∧ u.fld (CN_ERRC m) 16 8 = s.fld (CN_ERRC m) 16 8 ∧ u.fld (CN_STATUS m) 8 2 = 0 ∧ u.mz = s.mz ∧ u.ep = s.ep ∧
      sameRegs [CN_ERRC m, CN_STATUS m] s u ∧ u = { s with now := max s.now t, regs := u.regs, hb := u.hb } := by
  have hcan := canDriving_isCan hd
  obtain ⟨hm, hz, -, -, hdr, hop, hq, hcur⟩ := hd
  obtain ⟨x, hx⟩ : ∃ x, x = (s.tick t).errRegs m (s.fld (CN_ERRC m) 0 9 + 8) (s.fld (CN_ERRC m) 16 8) := ⟨_, rfl⟩
  have hxo : RegsOnly [CN_ERRC m, CN_STATUS m] (s.tick t) x := by rw [hx]; exact errRegs_only ..
  obtain ⟨h1, h2, h3, -⟩ := errRegs_fields (s.tick t) m (s.fld (CN_ERRC m) 0 9 + 8) (s.fld (CN_ERRC m) 16 8)
  rw [← hx] at h1 h2 h3
  have hnext : (s.tick t).errNext m (s.fld (CN_ERRC m) 0 9 + 8) (s.fld (CN_ERRC m) 16 8) = 0 := errNext_active he (by omega) (by omega)
  rw [hnext] at h3
  have hset : (s.tick t).setErr m ((s.tick t).fld (CN_ERRC m) 0 9 + 8) ((s.tick t).fld (CN_ERRC m) 16 8) = x := by
    rw [hx]
    refine (setErr_step (s := s.tick t) fun _ => ⟨he, ?_, htec, hrec⟩).1
    exact hwarn.trans (decide_eq_false (by omega))
  have hxs : TenonStep m [CN_ERRC m, CN_STATUS m] (s.tick t) x := .of_regs hxo
  have e : (canBusError t m .transmit false tdcv s).letGo m = x := by
    rw [canBusError_transmit tdcv hcan hf, canCount_transmit (s := s.tick t) hdr hop (by rw [show (s.tick t).fld (CN_STATUS m) 8 2 = 0 from he]; decide) hset, h3, if_neg (by decide)]
    exact letGo_driving (hxs.drives.trans hdr) (by rw [hxs.fields.2.2.2.2]; exact hq)
  have hframe := hxo.frame
  have hmz : x.mz = s.mz := by rw [hframe]; rfl
  have hep : x.ep = s.ep := by rw [hframe]; rfl
  exact after_hb rfl e (by rw [hframe]; rfl) fun b _ => ⟨h1.trans (by rw [Nat.min_eq_right (by omega), Nat.mod_eq_of_lt (by omega)]),
    h2.trans (by rw [Nat.min_eq_right (by omega), Nat.mod_eq_of_lt (by omega)]), h3, hmz, hep, hxo.same, congrArg (fun z : State => { z with hb := b }) hframe⟩

theorem canError_busOff {s : State} {t m k : Nat} (tdcv : Option Nat) (hd : s.canDriving m) (hf : recFmt (s.mort m).can.wireRec = 0)
    (hk : k < 32) (he : s.fld (CN_STATUS m) 8 2 = 1) (htec : 248 ≤ s.fld (CN_ERRC m) 0 9) (hone : s.bit (CN_CFG m) 4 = false) (hw : (s.mort m).can.wire = some k)
    (hobjs : (s.mort m).can.objs.length = 32) (hab : (s.canObj m k).abort = false) : After (.canBusError t m .transmit ⟨false, tdcv⟩) s fun u =>
      u.fld (CN_STATUS m) 8 2 = 2 ∧ (u.mort m).can.wire = none ∧ (u.mort m).can.recov = s.bit (CN_CFG m) 5 ∧ sameMorts m s u ∧
      u.canObj m k = { s.canObj m k with spent := true } ∧ (∀ j < 32, j ≠ k → u.canObj m j = s.canObj m j) ∧
      (∃ o : Octets, stampedOne s u 2 m .event o ∧ o.take 2 = [4, 0xFF]) ∧ sameRegs [CN_ERRC m, CN_STATUS m] s u := by
  have hcan := canDriving_isCan hd
  obtain ⟨hm, hz, -, -, hdr, hop, hq, hcur⟩ := hd
  have hl : m < s.mz.length := by omega
  -- the registers are set and the change is reported
  obtain ⟨r, hr⟩ : ∃ r, r = (s.tick t).errRegs m (s.fld (CN_ERRC m) 0 9 + 8) (s.fld (CN_ERRC m) 16 8) := ⟨_, rfl⟩
  have hro : RegsOnly [CN_ERRC m, CN_STATUS m] (s.tick t) r := by rw [hr]; exact errRegs_only ..
  obtain ⟨-, -, h3, -⟩ := errRegs_fields (s.tick t) m (s.fld (CN_ERRC m) 0 9 + 8) (s.fld (CN_ERRC m) 16 8)
  have hnext : (s.tick t).errNext m (s.fld (CN_ERRC m) 0 9 + 8) (s.fld (CN_ERRC m) 16 8) = 2 := by
    unfold State.errNext errState
    rw [show (s.tick t).fld (CN_STATUS m) 8 2 = 1 from he, if_neg (by decide), if_pos (by omega)]
  rw [← hr, hnext] at h3
  obtain ⟨i, hi⟩ : ∃ i : Input, i = { cls := 2, port := m, kind := .event, octets := canEventRec 4 0xFF (r.canState m) 0 0 0 } := ⟨_, rfl⟩
  have hset : (s.tick t).setErr m ((s.tick t).fld (CN_ERRC m) 0 9 + 8) ((s.tick t).fld (CN_ERRC m) 16 8) = r.stampIn i := by
    rw [hi, hr]
    exact setErr_reports hdr (by
      rw [show (s.tick t).fld (CN_STATUS m) 8 2 = 1 from he]
      exact fun h => absurd (h.trans hnext) (by decide))
  have hrs : TenonStep m [CN_ERRC m, CN_STATUS m] (s.tick t) r := .of_regs hro
  obtain ⟨hst, hfx⟩ := stampIn_after hrs i hcur
  obtain ⟨x, hx⟩ : ∃ x, x = r.stampIn i := ⟨_, rfl⟩
  rw [← hx] at hset hst hfx
  have hxrd : ∀ a, x.rd a = r.rd a := fun a => rd_congr (by rw [hfx]) a
  have hxm : ∀ j, x.mort j = s.mort j := fun j => by
    have : x.mort j = r.mort j := by rw [hfx]; rfl
    rw [this, hro.mort j]
    rfl
  have hxl : m < x.mz.length := by
    have : x.mz = s.mz := by rw [hfx, hro.frame]; rfl
    rw [this]
    exact hl
  have hxcfg : ∀ j, x.bit (CN_CFG m) j = s.bit (CN_CFG m) j := fun j => by
    rw [State.bit, State.rdN, hxrd]
    exact hro.same.bit (by simp [CN_CFG, CN_ERRC, CN_STATUS]) j
  have hxest : x.fld (CN_STATUS m) 8 2 = 2 := by
    rw [State.fld, State.rdN, hxrd]
    exact h3
  have hxhb : x.hb = s.hb ∧ x.wk = s.wk ∧ x.mode = s.mode ∧ x.tw = s.tw := by
    rw [hfx, hro.frame]
    exact ⟨rfl, rfl, rfl, rfl⟩
  -- the frame leaves the wire and is spent
  obtain ⟨y, hy⟩ : ∃ y, y = x.onCan m (fun c => { c with wire := none, recov := x.bit (CN_CFG m) 5 }) := ⟨_, rfl⟩
  have hys : TenonStep m [] x y := by rw [hy]; exact .onCan m x _
  have hym : y.mort m = { s.mort m with can := { (s.mort m).can with wire := none, recov := s.bit (CN_CFG m) 5 } } := by
    rw [hy, mort_onCan _ hxl, hxm, hxcfg]
  have hyobj : ∀ j, y.canObj m j = s.canObj m j := fun j => by rw [State.canObj, hym]; rfl
  obtain ⟨z, hzd⟩ : ∃ z, z = y.onObj m k (fun o => { o with spent := true }) := ⟨_, rfl⟩
  have hzs : TenonStep m [] x z := by rw [hzd]; exact hys.trans (onObj_step y m k _)
  have hyl : m < y.mz.length := by rw [hys.len]; exact hxl
  have hzobj : ∀ j, z.canObj m j = if j = k then { s.canObj m k with spent := true } else s.canObj m j := fun j => by
    rw [hzd, canObj_onObj _ hyl, hyobj, hyobj, hym]
    show (if j = k ∧ k < (s.mort m).can.objs.length then _ else _) = _
    simp only [hobjs, hk, and_true]
  have hzm : (z.mort m).can.wire = none ∧ (z.mort m).can.recov = s.bit (CN_CFG m) 5 := by
    rw [hzd, State.onObj, mort_onCan _ hyl, hym]
    exact ⟨rfl, rfl⟩
  have hdrz : z.drives m = true := by
    rw [hzs.drives, State.drives, mayDrive_congr hxhb.2.2.1 hxhb.2.2.2, hxhb.2.2.2, hxm]
    exact hdr
  have e : (canBusError t m .transmit false tdcv s).letGo m = z := by
    have hxw : (x.mort m).can.wire = some k := by rw [hxm]; exact hw
    have hagain : y.canNotSent m k 3 = y := canNotSent_again ((hys.regs.bit (by simp) 4).trans ((hxcfg 4).trans hone)) (by rw [hyobj]; exact hab)
    rw [canBusError_transmit tdcv hcan hf, canCount_transmit (s := s.tick t) hdr hop (by rw [show (s.tick t).fld (CN_STATUS m) 8 2 = 1 from he]; decide) hset, hxest,
      if_pos (by decide)]
    dsimp only
    rw [hxw, ← hy]
    dsimp only
    rw [hagain, ← hzd]
    exact letGo_driving hdrz (by rw [hzs.fields.2.2.2.2, hxhb.2.1]; exact hq)
  have hstz := stampedOne_right hst hzs (by simp)
  have hzrd : ∀ a, z.rd a = r.rd a := fun a => (hzs.regs a (by simp)).trans (hxrd a)
  have hz2 : z.fld (CN_STATUS m) 8 2 = 2 := (hzs.regs.fld (by simp) 8 2).trans hxest
  have hzo : sameMorts m s z := fun j _ hj => (hzs.others j hj).trans (hxm j)
  have hzr : sameRegs [CN_ERRC m, CN_STATUS m] s z := fun a ha => (hzrd a).trans (hro.same a ha)
  have hev : ∃ o : Octets, stampedOne s z 2 m .event o ∧ o.take 2 = [4, 0xFF] := ⟨i.octets, by
    rw [hi] at hstz ⊢
    exact hstz, by
    rw [hi]
    exact (canEventRec_head 4 0xFF (r.canState m) 0 0 0).1⟩
  exact after_hb rfl e (by rw [hzs.frame]; exact hxhb.1) fun b _ => ⟨hz2, hzm.1, hzm.2, hzo, (hzobj k).trans (if_pos rfl), fun j _ hj => (hzobj j).trans (if_neg hj), hev, hzr⟩

theorem canRecovery_ends {s : State} {t m : Nat} (hd : s.canDriving m) (he : s.fld (CN_STATUS m) 8 2 = 2) (hr : (s.mort m).can.recov = true) :
    After (.busOffRecovered t m) s fun u =>
      (u.mort m).can.recov = false ∧ u.fld (CN_STATUS m) 8 2 = 0 ∧ u.bit (CN_STATUS m) 10 = false ∧ u.fld (CN_ERRC m) 0 9 = 0 ∧ u.fld (CN_ERRC m) 16 8 = 0 ∧
      (∃ o : Octets, stampedOne s u 2 m .event o ∧ o.take 2 = [4, 0xFF]) ∧ sameMorts m s u ∧ sameRegs [CN_ERRC m, CN_STATUS m] s u := by
  have hcan := canDriving_isCan hd
  obtain ⟨hm, hz, -, -, hdr, -, -, hcur⟩ := hd
  obtain ⟨hx, h1, h2, h3, h4, h5⟩ := canRecovered_step (s := s.tick t) (m := m) (by show m < s.mz.length; omega)
  obtain ⟨x, hxd⟩ : ∃ x, x = (s.tick t).canRecovered m := ⟨_, rfl⟩
  rw [← hxd] at hx h1 h2 h3 h4 h5
  have e : busOffRecovered t m s = x.stampIn { cls := 2, port := m, kind := .event, octets := canEventRec 4 0xFF (x.canState m) 0 0 0 } := by
    rw [← canReport_driven (hx.drives.trans hdr), hxd]
    exact if_pos (by
      show (s.isCan m && s.fld (CN_STATUS m) 8 2 == 2 && (s.mort m).can.recov) = true
      rw [hcan, he, hr]
      rfl)
  refine after_stamped (w := s.tick t) _ rfl e rfl hx hcur fun u hrd hmort hstamp _ _ _ => ?_
  have hrdN : ∀ a, u.rdN a = x.rdN a := fun a => congrArg BitVec.toNat (hrd a)
  unfold State.fld State.bit
  rw [hmort, hrdN, hrdN]
  exact ⟨h1, h2, h3, h4, h5, ⟨_, hstamp, (canEventRec_head 4 0xFF (x.canState m) 0 0 0).1⟩, fun j _ hj => (hmort j).trans (hx.others j hj), fun a ha => (hrd a).trans (hx.regs a ha)⟩

theorem can_commands {s : State} {c m : Nat} (hd : s.canDriving m) (hs : s.takesCommands) (hwin : (s.mort m).window = none) :
    (s.fld (CN_STATUS m) 8 2 = 2 → After (.busOffRecoveryRequest c m) s fun u =>
      u.mort m = { s.mort m with can := { (s.mort m).can with recov := true } } ∧ sameMorts m s u ∧ u = { s with mz := u.mz, hb := u.hb } ∧ sameBridge s u) ∧
    (∀ mode < 3, After (.canOpmodeWrite c m mode) s fun u =>
      u.mort m = { s.mort m with can := { (s.mort m).can with pendOp := some mode } } ∧ sameMorts m s u ∧ u.fld (CN_CTRL m) 0 2 = mode ∧ sameRegs [CN_CTRL m] s u ∧
      u = { s with regs := u.regs, mz := u.mz, hb := u.hb } ∧ sameBridge s u) := by
  have hcan := canDriving_isCan hd
  obtain ⟨hm, hz, hten, hst, -⟩ := hd
  have hl : m < s.mz.length := by omega
  refine ⟨fun he => ?_, fun mode hmode => ?_⟩
  · have e : busOffRecoveryRequest m s = s.onCan m (fun c => { c with recov := true }) := if_pos (by rw [hcan, he]; rfl)
    have hx : TenonStep m [] s (s.onCan m (fun c => { c with recov := true })) := .onCan m s _
    exact after_tenonCommand (w := s) rfl hs rfl hm hwin hten hst e hx fun b hb _ => ⟨mort_onCan (fun c => { c with recov := true }) hl, hx.same, rfl, hb⟩
  · have e : canOpmodeWrite m (mode % 4) s = (s.setFld (CN_CTRL m) 0 2 mode).onCan m (fun c => { c with pendOp := some mode }) := by
      unfold canOpmodeWrite
      rw [Nat.mod_eq_of_lt (by omega), if_pos (by rw [hcan]; simpa using hmode)]
    have hx : TenonStep m [CN_CTRL m] s ((s.setFld (CN_CTRL m) 0 2 mode).onCan m (fun c => { c with pendOp := some mode })) :=
      (TenonStep.of_regs ((RegsOnly.refl _ s).setFld (by simp) 0 2 mode)).trans ((TenonStep.onCan m _ _).mono (by simp))
    have hf : (s.setFld (CN_CTRL m) 0 2 mode).fld (CN_CTRL m) 0 2 = mode := (fld_setFld_same _ _ _ _ _ (by decide)).trans (Nat.mod_eq_of_lt (by omega))
    exact after_tenonCommand (w := s) rfl hs rfl hm hwin hten hst e hx fun b hb hframe =>
      ⟨mort_onCan (s := s.setFld (CN_CTRL m) 0 2 mode) (fun c => { c with pendOp := some mode }) hl, hx.same, hf, hx.regs, hframe, hb⟩

theorem can_aborts {s : State} {t m k : Nat} (hd : s.canDriving m) (hs : s.takesCommands) (hwin : (s.mort m).window = none) (hk : k < 32)
    (hobjs : (s.mort m).can.objs.length = 32) (ha : (s.canObj m k).active.isSome = true) (hn : (s.canObj m k).nxt = none) (hsent : (s.canObj m k).sent = false)
    (hsp : (s.canObj m k).spent = false) :
    ((s.mort m).can.wire ≠ some k → After (.canTxAbort t m (2 ^ k)) s fun u =>
      u.canObj m k = { s.canObj m k with spent := true } ∧ (∀ j < 32, j ≠ k → u.canObj m j = s.canObj m j) ∧ sameMorts m s u ∧
      (∃ o : Octets, stampedOne s u 2 m .event o ∧ o.take 2 = [3, BitVec.ofNat 8 k]) ∧ u = { s with now := max s.now t, ep := u.ep, mz := u.mz, hb := u.hb }) ∧
    ((s.mort m).can.wire = some k → After (.canTxAbort t m (2 ^ k)) s fun u =>
      u.canObj m k = { s.canObj m k with abort := true } ∧ (∀ j < 32, j ≠ k → u.canObj m j = s.canObj m j) ∧ sameMorts m s u ∧
      u = { s with now := max s.now t, mz := u.mz, hb := u.hb }) := by
  have hcan := canDriving_isCan hd
  obtain ⟨hm, hz, hten, hst, hdr, -, -, hcur⟩ := hd
  have hl : m < (s.tick t).mz.length := by show m < s.mz.length; omega
  have hone := canTxAbort_one (s := s.tick t) hcan hdr hk ha hn hsent hsp
  have hobj : ∀ (f : CanObj → CanObj) j, ((s.tick t).onObj m k f).canObj m j = if j = k then f (s.canObj m k) else s.canObj m j := fun f j => by
    rw [canObj_onObj _ hl]
    show (if j = k ∧ k < (s.mort m).can.objs.length then f (s.canObj m k) else s.canObj m j) = _
    simp only [hobjs, hk, and_true]
  refine ⟨fun hw => ?_, fun hw => ?_⟩
  · obtain ⟨x, hx⟩ : ∃ x, x = (s.tick t).onObj m k (fun o => { o with spent := true }) := ⟨_, rfl⟩
    have hxs : TenonStep m [] (s.tick t) x := by rw [hx]; exact onObj_step _ m k _
    have hxo := hobj fun o => { o with spent := true }
    obtain ⟨i, hi⟩ : ∃ i : Input, i = { cls := 2, port := m, kind := .event, octets := canEventRec 3 k (x.canState m) 0 (recIdw ((s.tick t).objRec m k)) 0 } := ⟨_, rfl⟩
    have e : canTxAbort m (2 ^ k) (s.tick t) = x.stampIn i := by
      rw [hone, if_neg (by show ¬((s.mort m).can.wire == some k) = true; simpa using hw), ← hx, canReport_driven (hxs.drives.trans hdr), ← hi]
    rw [← hx] at hxo
    refine after_tenonStamped (w := s.tick t) i rfl hs rfl hm hwin hten hst e hxs hcur fun u hu hstamp _ => ?_
    have hmort : ∀ j, u.mort j = x.mort j := fun j => by
      rw [hu]
      rfl
    refine ⟨by rw [State.canObj, hmort]; exact (hxo k).trans (if_pos rfl), fun j _ hj => by rw [State.canObj, hmort]; exact (hxo j).trans (if_neg hj),
      fun j _ hj => (hmort j).trans (hxs.others j hj), ⟨i.octets, ?_, ?_⟩, ?_⟩
    · rw [hi] at hstamp ⊢
      exact hstamp
    · rw [hi]
      exact (canEventRec_head 3 k (x.canState m) 0 _ 0).1
    · rw [hu, hx]
      rfl
  · have e : canTxAbort m (2 ^ k) (s.tick t) = (s.tick t).onObj m k (fun o => { o with abort := true }) := by
      rw [hone, if_pos (by show ((s.mort m).can.wire == some k) = true; simpa using hw)]
    have hx : TenonStep m [] (s.tick t) ((s.tick t).onObj m k (fun o => { o with abort := true })) := onObj_step _ m k _
    have hxo := hobj fun o => { o with abort := true }
    exact after_tenonCommand (w := s.tick t) rfl hs rfl hm hwin hten hst e hx fun b _ hframe =>
      ⟨(hxo k).trans (if_pos rfl), fun j _ hj => (hxo j).trans (if_neg hj), hx.same, hframe⟩

/-- Settles O39: the counters of a transmitter's error and the branch they lead to, the recovery by the registers it clears, and the processed commands by what each does
to the tenon's own state. -/
theorem canErrorsAndCommands : Obligations.CanErrorsAndCommands := by
  refine ⟨fun s t m tdcv hd hwarn hrec hf => ⟨fun he htec => canError_counts tdcv hd hwarn hrec hf he htec, fun k hk he htec hone hw ho hab =>
    canError_busOff tdcv hd hf hk he htec hone hw ho hab⟩, fun s t m hd he hr => canRecovery_ends hd he hr, fun s c m hd hs hwin => ?_⟩
  obtain ⟨h1, h2⟩ := can_commands (c := c) hd hs hwin
  exact ⟨h1, h2, fun t k hk ho ha hn hsent hsp => can_aborts hd hs hwin hk ho ha hn hsent hsp⟩

end Sys2Proof.Proofs
end

section
/-! PROOFS. The CAN schedule matrix: cycles, reference messages, exclusive windows and lost references (R194 to R201). -/
set_option Elab.async false
namespace Sys2Proof.Machine
open Sys2Proof

/-- A command that ends in one input stamped after a step of one tenon: all else is that step's. -/
theorem after_oneStamp {i : Instr} {s w x y : State} {m : Nat} {l : List Nat} {P : State → Prop} (n : Input) (h : exec i s = .next (s.settle y)) (e : y = x.stampIn n)
    (hw : w.hb = s.hb) (hx : TenonStep m l w x) (hc : w.ep.cur.isSome = true)
    (kP : ∀ u : State, u = { x with ep := u.ep, hb := u.hb } → stampedOne w u n.cls n.port n.kind n.octets → sameBridge s u → P u) : After i s P := by
  obtain ⟨hstamp, hf⟩ := stampIn_after hx n hc
  have hbr : (x.stampIn n).hb = s.hb := by
    rw [hf, hx.frame]
    exact hw
  exact after_hb h e hbr fun b hb => kP _ (congrArg (fun z : State => { z with hb := b }) hf) hstamp hb

/-! ### A basic cycle begins (R195, R196) -/

/-- A cycle of row `row` from `at_` on, with no matrix waiting. -/
def State.cycleBegun (s : State) (m row at_ : Nat) : State :=
  (((s.onCan m (fun c => { c with cycleAt := some at_, tried := false, missed := false })).setFld (CN_TTSTAT m) 0 6 row).setFld (CN_TTSTAT m) 8 4 0).setBit (CN_TTSTAT m) 13 true

theorem cycleStart_begins {s : State} {m : Nat} (row at_ : Nat) (h : (s.mort m).can.newMx = none) : s.cycleStart m row at_ = s.cycleBegun m row at_ := by
  unfold State.cycleStart
  rw [h, ite_self]
  rfl

theorem cycleBegun_step {s : State} {m : Nat} (row at_ : Nat) (hl : m < s.mz.length) (hr : row < 64) : TenonStep m [CN_TTSTAT m] s (s.cycleBegun m row at_) ∧
    (s.cycleBegun m row at_).mort m = { s.mort m with can := { (s.mort m).can with cycleAt := some at_, tried := false, missed := false } } ∧
    (s.cycleBegun m row at_).fld (CN_TTSTAT m) 0 6 = row ∧ (s.cycleBegun m row at_).fld (CN_TTSTAT m) 8 4 = 0 ∧ (s.cycleBegun m row at_).bit (CN_TTSTAT m) 13 = true ∧
    (s.cycleBegun m row at_).bit (CN_TTSTAT m) 12 = s.bit (CN_TTSTAT m) 12 := by
  obtain ⟨x, hx⟩ : ∃ x, x = s.onCan m (fun c => { c with cycleAt := some at_, tried := false, missed := false }) := ⟨_, rfl⟩
  have hxs : TenonStep m [] s x := by rw [hx]; exact .onCan m s _
  have hxm : x.mort m = { s.mort m with can := { (s.mort m).can with cycleAt := some at_, tried := false, missed := false } } := by
    rw [hx]
    exact mort_onCan (fun c => { c with cycleAt := some at_, tried := false, missed := false }) hl
  unfold State.cycleBegun
  rw [← hx]
  have ho : RegsOnly [CN_TTSTAT m] x (((x.setFld (CN_TTSTAT m) 0 6 row).setFld (CN_TTSTAT m) 8 4 0).setBit (CN_TTSTAT m) 13 true) :=
    (((RegsOnly.refl _ x).setFld (by simp) 0 6 row).setFld (by simp) 8 4 0).setBit (by simp) 13 true
  refine ⟨(hxs.mono (by simp)).trans (.of_regs ho), by rw [ho.mort m, hxm], ?_, ?_, ?_, ?_⟩
  · rw [fld_setBit_ne _ _ _ _ _ _ _ (by decide) fun _ => by decide, fld_setFld_ne _ _ _ _ _ _ _ (by decide) (by decide), fld_setFld_same _ _ _ _ _ (by decide)]
    exact Nat.mod_eq_of_lt hr
  · rw [fld_setBit_ne _ _ _ _ _ _ _ (by decide) fun _ => by decide]
    exact fld_setFld_same _ _ _ _ _ (by decide)
  · exact (bit_setBit _ _ _ _ _ (by decide)).trans (if_pos rfl)
  · rw [bit_setBit _ _ _ _ _ (by decide), if_neg (by decide), bit_setFld_ne _ _ _ _ _ _ (by decide) (by decide), bit_setFld_ne _ _ _ _ _ _ (by decide) (by decide)]
    exact hxs.regs.bit (by simp) 12

/-- The row a time gives is one of the sixty-four. -/
theorem row_lt (n q : Nat) : n % (bitsN q 2 6 + 1) < 64 := by
  have h : bitsN q 2 6 < 2 ^ 6 := Nat.mod_lt _ (by decide)
  have := Nat.mod_lt n (show 0 < bitsN q 2 6 + 1 by omega)
  omega

/-- In local and reference-master mode a cycle begins at each multiple of BCLEN (R195). -/
theorem basicCycleStart_begins {s : State} {t m : Nat} (hc : s.isCan m = true) (hmode : s.fld (CN_TTCFG m) 0 2 = 1 ∨ s.fld (CN_TTCFG m) 0 2 = 2)
    (hbc : s.fld (CN_TTBC m) 0 16 ≠ 0) (ht : t % (1000 * s.fld (CN_TTBC m) 0 16) = 0) (hn : (s.mort m).can.newMx = none) :
    basicCycleStart t m s = (s.tick t).cycleBegun m (t / (1000 * s.fld (CN_TTBC m) 0 16) % (s.fld (CN_TTCFG m) 2 6 + 1)) t := by
  have hne : (s.fld (CN_TTCFG m) 0 2 == 0) = false := beq_eq_false_iff_ne.mpr (by omega)
  have hword : ∀ a, (s.tick t).ttWord m a = s.rdN a := fun a => by
    show (if (s.fld (CN_TTCFG m) 0 2 == 0) = true then _ else s.rdN a) = _
    rw [hne, if_neg (by decide)]
  have hcfg : s.rdN (CN_TTCFG m) % 4 = 1 ∨ s.rdN (CN_TTCFG m) % 4 = 2 := hmode
  unfold basicCycleStart
  dsimp only
  rw [hword, hword]
  have hcond : ((s.tick t).isCan m && (s.rdN (CN_TTCFG m) % 4 == 1 || s.rdN (CN_TTCFG m) % 4 == 2) && decide (bitsN (s.rdN (CN_TTBC m)) 0 16 ≠ 0) &&
      decide (t % (1000 * bitsN (s.rdN (CN_TTBC m)) 0 16) = 0)) = true := by
    rw [show (s.tick t).isCan m = true from hc, decide_eq_true (p := bitsN (s.rdN (CN_TTBC m)) 0 16 ≠ 0) hbc, decide_eq_true (p := t % (1000 * bitsN (s.rdN (CN_TTBC m)) 0 16) = 0) ht]
    rcases hcfg with h | h <;> rw [h] <;> rfl
  rw [if_pos hcond]
  exact cycleStart_begins _ _ hn

/-! ### A reference message is received (R196) -/

/-- The tenon once it has taken a reference message and its cycle has begun. -/
def State.referenced (s : State) (m row sof : Nat) : State :=
  ((s.onCan m (fun c => { c with lastRef := s.now })).setBit (CN_TTSTAT m) 12 false).cycleBegun m row sof

theorem referenced_step {s : State} {m row : Nat} (sof : Nat) (hl : m < s.mz.length) (hr : row < 64) : TenonStep m [CN_TTSTAT m] s (s.referenced m row sof) ∧
    ((s.referenced m row sof).mort m).can.cycleAt = some sof ∧ ((s.referenced m row sof).mort m).can.lastRef = s.now ∧
    (s.referenced m row sof).fld (CN_TTSTAT m) 0 6 = row ∧ (s.referenced m row sof).fld (CN_TTSTAT m) 8 4 = 0 ∧ (s.referenced m row sof).bit (CN_TTSTAT m) 12 = false ∧
    (s.referenced m row sof).bit (CN_TTSTAT m) 13 = true := by
  obtain ⟨x, hx⟩ : ∃ x, x = (s.onCan m (fun c => { c with lastRef := s.now })).setBit (CN_TTSTAT m) 12 false := ⟨_, rfl⟩
  have hxs : TenonStep m [CN_TTSTAT m] s x := by
    rw [hx]
    exact ((TenonStep.onCan m s _).mono (by simp)).trans (.of_regs ((RegsOnly.refl _ _).setBit (by simp) 12 false))
  have hxm : x.mort m = { s.mort m with can := { (s.mort m).can with lastRef := s.now } } := by
    rw [hx]
    exact mort_onCan (fun c => { c with lastRef := s.now }) hl
  have hx12 : x.bit (CN_TTSTAT m) 12 = false := by
    rw [hx]
    exact (bit_setBit _ _ _ _ _ (by decide)).trans (if_pos rfl)
  obtain ⟨hys, hym, h1, h2, h3, h4⟩ := cycleBegun_step (s := x) row sof (by rw [hxs.len]; exact hl) hr
  unfold State.referenced
  rw [← hx]
  refine ⟨hxs.trans hys, by rw [hym], by rw [hym, hxm], h1, h2, h4.trans hx12, h3⟩

theorem canTaken_reference {s x : State} {m sof : Nat} {r : Octets} (hx : s.cellCapture m r = x) (hr : x.isReference m r = true) (hn : (x.mort m).can.newMx = none)
    (hl : m < x.mz.length) (hs : (x.mort m).st = .inService) :
    s.canTaken m sof r = (x.referenced m (bitsN (oct r 16) 0 6) sof).stampIn { cls := 2, port := m, kind := .frame, octets := r } := by
  have hn' : (((x.onCan m (fun c => { c with lastRef := x.now })).setBit (CN_TTSTAT m) 12 false).mort m).can.newMx = none := by
    show ((x.onCan m (fun c => { c with lastRef := x.now })).mort m).can.newMx = none
    rw [mort_onCan (fun c => { c with lastRef := x.now }) hl]
    exact hn
  obtain ⟨hys, -⟩ := referenced_step (m := m) sof hl (show bitsN (oct r 16) 0 6 < 64 from Nat.mod_lt _ (by decide))
  unfold State.canTaken
  rw [hx]
  simp only [hr, if_true]
  rw [cycleStart_begins _ _ hn']
  exact if_pos (by
    show (((x.referenced m (bitsN (oct r 16) 0 6) sof).mort m).st == .inService) = true
    rw [hys.tenon.2.1, hs]
    rfl)

/-! ### Windows (R197, R198) -/

theorem window_congr {s t : State} {m : Nat} {l : List Nat} (h : sameRegs l s t) (hs : CN_TTSTAT m ∉ l) (hx : ∀ j, CN_TTMX m j ∉ l) : t.window m = s.window m := by
  have h1 : t.rdN (CN_TTSTAT m) = s.rdN (CN_TTSTAT m) := h.rdN hs
  have h2 : ∀ j, t.rdN (CN_TTMX m j) = s.rdN (CN_TTMX m j) := fun j => h.rdN (hx j)
  unfold State.window State.mxCell
  simp only [State.fld, h1, h2]

theorem colAt_congr {s t : State} {m : Nat} {l : List Nat} (h : sameRegs l s t) (hs : CN_TTCFG m ∉ l) (hx : ∀ j, CN_TTCOL m j ∉ l) (us : Nat) : t.colAt m us = s.colAt m us := by
  have h1 : t.rdN (CN_TTCFG m) = s.rdN (CN_TTCFG m) := h.rdN hs
  have h2 : t.colOff m = s.colOff m := funext fun c => h.fld (hx _) _ _
  rw [State.colAt, h2, State.fld, h1]
  rfl

/-- An exclusive window in which the frame of its TT object waits to be started. -/
theorem exclusiveDue_waiting {s : State} {m k : Nat} (hw : s.window m = (k, 1)) (hr : s.bit (CN_TTSTAT m) 12 = false) (htr : (s.mort m).can.tried = false)
    (hen : s.bit (CN_CFG m) 6 = true) (ho : s.bit (CN_OBJ m k) 31 = true) (hoff : s.offerable m (fun j => j == k) = [k]) : s.exclusiveDue m k = true := by
  have hf : s.offerable m (fun j => j == k && s.bit (CN_OBJ m j) 31) = [k] := by
    rw [← hoff]
    refine List.filter_congr fun j _ => ?_
    have : (j == k && s.bit (CN_OBJ m j) 31) = (j == k) := by
      by_cases hj : j = k
      · rw [hj, ho, Bool.and_true]
      · rw [beq_eq_false_iff_ne.mpr hj, Bool.false_and]
    dsimp only
    rw [this]
  simp only [State.exclusiveDue, hw, hr, htr, hen, hf, beq_self_eq_true, Bool.not_false, Bool.and_self]

/-- A miss not yet reported for the window is one event 0x08 of its object. -/
theorem missReport_first {s : State} {m k : Nat} (hd : s.drives m = true) (hm : (s.mort m).can.missed = false) (hl : m < s.mz.length) :
    ∃ o x, s.missReport m k = x.stampIn { cls := 2, port := m, kind := .event, octets := o } ∧ o.take 2 = [8, BitVec.ofNat 8 k] ∧ TenonStep m [] s x ∧
      x.mort m = { s.mort m with can := { (s.mort m).can with missed := true } } ∧ x = { s with mz := x.mz } := by
  obtain ⟨x, hx⟩ : ∃ x, x = s.onCan m (fun c => { c with missed := true }) := ⟨_, rfl⟩
  have hxs : TenonStep m [] s x := by rw [hx]; exact .onCan m s _
  refine ⟨_, x, ?_, (canEventRec_head 8 k (x.canState m) 0 (recIdw (s.objRec m k)) (s.fld (CN_TTSTAT m) 0 6 + 256 * s.fld (CN_TTSTAT m) 8 4)).1, hxs,
    by rw [hx]; exact mort_onCan (fun c => { c with missed := true }) hl, by rw [hx]; rfl⟩
  rw [← canReport_driven (hxs.drives.trans hd), hx]
  unfold State.missReport
  rw [if_neg (by rw [hm]; decide)]

theorem window_index {s : State} {m k : Nat} (h : s.offerable m (fun j => j == k) = [k]) : k < 32 := offerable_lt (by rw [h]; exact List.mem_singleton.mpr rfl)

end Sys2Proof.Machine

namespace Sys2Proof.Proofs
open Sys2Proof Sys2Proof.Machine

theorem basicCycle_starts (s : State) (t m : Nat) (hm : m < 128) (hz : s.mz.length = 128) (hten : (s.mort m).tenon = .can) (hst : (s.mort m).st = .inService)
    (hmode : s.fld (CN_TTCFG m) 0 2 = 1 ∨ s.fld (CN_TTCFG m) 0 2 = 2) (hbc : s.fld (CN_TTBC m) 0 16 ≠ 0) (ht : t % (1000 * s.fld (CN_TTBC m) 0 16) = 0)
    (hn : (s.mort m).can.newMx = none) : After (.basicCycleStart t m) s fun u =>
      u.fld (CN_TTSTAT m) 0 6 = t / (1000 * s.fld (CN_TTBC m) 0 16) % (s.fld (CN_TTCFG m) 2 6 + 1) ∧ u.fld (CN_TTSTAT m) 8 4 = 0 ∧ u.bit (CN_TTSTAT m) 13 = true ∧
      u.mort m = { s.mort m with can := { (s.mort m).can with cycleAt := some t, tried := false, missed := false } } ∧ sameMorts m s u ∧
      sameRegs [CN_TTSTAT m] s u ∧ u = { s with now := max s.now t, regs := u.regs, mz := u.mz, hb := u.hb } ∧ sameBridge s u := by
  have hcan : s.isCan m = true := by rw [State.isCan, hten, hst]; rfl
  have e := basicCycleStart_begins hcan hmode hbc ht hn
  obtain ⟨hx, hxm, h1, h2, h3, -⟩ := cycleBegun_step (s := s.tick t) (m := m) (t / (1000 * s.fld (CN_TTBC m) 0 16) % (s.fld (CN_TTCFG m) 2 6 + 1)) t
    (by show m < s.mz.length; omega) (row_lt _ _)
  obtain ⟨x, hxd⟩ : ∃ x, x = (s.tick t).cycleBegun m (t / (1000 * s.fld (CN_TTBC m) 0 16) % (s.fld (CN_TTCFG m) 2 6 + 1)) t := ⟨_, rfl⟩
  rw [← hxd] at e hx hxm h1 h2 h3
  exact after_tenon (w := s.tick t) rfl e rfl hx fun b hb hframe => ⟨h1, h2, h3, hxm, hx.same, hx.regs, hframe, hb⟩

theorem reference_starts (s : State) (t m sof : Nat) (r : Octets) (hm : m < 128) (hz : s.mz.length = 128) (hten : (s.mort m).tenon = .can)
    (hst : (s.mort m).st = .inService) (hd : s.drives m = false) (hcur : s.ep.cur.isSome = true) (hw : s.canWaits m sof = false) (hf : recFmt r = 0)
    (href : s.isReference m (canDecode r) = true) (hecho : s.canEcho m (canDecode r) = false) (hn : (s.mort m).can.newMx = none) :
    After (.canFrameReceived t m ⟨sof, r⟩) s fun u =>
      (u.mort m).can.cycleAt = some sof ∧ (u.mort m).can.lastRef = max s.now t ∧ u.fld (CN_TTSTAT m) 0 6 = bitsN (oct (canDecode r) 16) 0 6 ∧
      u.fld (CN_TTSTAT m) 8 4 = 0 ∧ u.bit (CN_TTSTAT m) 12 = false ∧ u.bit (CN_TTSTAT m) 13 = true ∧ stampedOne s u 2 m .frame (canDecode r) ∧ sameMorts m s u ∧
      sameRegs [MZ_CNT m 1, CN_LONE m, CN_STATUS m, CN_ERRC m, CN_PCSTAT m, MZ_EVENT m, CN_TTSTAT m] s u := by
  have hcan : s.isCan m = true := by rw [State.isCan, hten, hst]; rfl
  have hnd : (s.tick t).drives m = true → False := fun h => absurd (hd.symm.trans h) (by decide)
  obtain ⟨hy, hym, -⟩ := canCounted_step (s := s.tick t) (m := m) (by show m < s.mz.length; omega) (fun h => (hnd h).elim) fun h => (hnd h).elim
  have e := canFrameReceived_supported (t := t) hcan hw (by rw [hf]; decide) (fun h => absurd (hf.symm.trans h) (by decide)) fun h => absurd (hf.symm.trans h) (by decide)
  obtain ⟨y, hyd⟩ : ∃ y, y = (s.tick t).canCounted m := ⟨_, rfl⟩
  rw [← hyd] at hy hym e
  have hyecho : y.canEcho m (canDecode r) = false := (canEcho_congr hy (by rw [hym]) _).trans hecho
  have hyl : m < y.mz.length := by rw [hy.len]; show m < s.mz.length; omega
  obtain ⟨hx, cs, hxm⟩ := cellCapture_step (s := y) hyl (canDecode r)
  obtain ⟨x, hxd⟩ : ∃ x, x = y.cellCapture m (canDecode r) := ⟨_, rfl⟩
  rw [← hxd] at hx hxm
  have hxs : TenonStep m (canShown m) (s.tick t) x := (hy.mono (by simp [canShown])).trans (hx.mono (by simp [canShown]))
  have hxn : (x.mort m).can.newMx = (s.mort m).can.newMx := by rw [hxm, hym]; rfl
  have hxl : m < x.mz.length := by rw [hx.len]; exact hyl
  have hxst : (x.mort m).st = .inService := hxs.tenon.2.1.trans hst
  have hxnow : x.now = max s.now t := hxs.fields.2.1
  obtain ⟨hz', h1, h2, h3, h4, h5, h6⟩ := referenced_step (m := m) sof hxl (show bitsN (oct (canDecode r) 16) 0 6 < 64 from Nat.mod_lt _ (by decide))
  have e' : canFrameReceived t m sof r s = (x.referenced m (bitsN (oct (canDecode r) 16) 0 6) sof).stampIn { cls := 2, port := m, kind := .frame, octets := canDecode r } := by
    rw [e, hyecho, if_neg (by decide)]
    exact canTaken_reference hxd.symm ((isReference_congr hxs hxn _).trans href) (hxn.trans hn) hxl hxst
  obtain ⟨z, hzd⟩ : ∃ z, z = x.referenced m (bitsN (oct (canDecode r) 16) 0 6) sof := ⟨_, rfl⟩
  rw [← hzd] at hz' h1 h2 h3 h4 h5 h6 e'
  have hzs : TenonStep m (canShown m) (s.tick t) z := hxs.trans (hz'.mono (by simp [canShown]))
  refine after_stamped (w := s.tick t) _ rfl e' rfl hzs hcur fun u hrd hmort hstamp _ _ _ => ?_
  have hrdN : ∀ a, u.rdN a = z.rdN a := fun a => congrArg BitVec.toNat (hrd a)
  unfold State.fld State.bit
  rw [hmort, hrdN]
  exact ⟨h1, h2.trans hxnow, h3, h4, h5, h6, hstamp, fun j _ hj => (hmort j).trans (hzs.others j hj), fun a ha => (hrd a).trans (hzs.regs a ha)⟩

theorem referenceWindow_starts (s : State) (t m c0 : Nat) (hd : s.canDriving m) (he : s.fld (CN_STATUS m) 8 2 ≠ 2) (hc0 : (s.mort m).can.cycleAt = some c0)
    (hen : s.bit (CN_CFG m) 6 = true) (htr : (s.mort m).can.tried = false) (hw : s.canWaits m t = false) (hwire : (s.mort m).can.wire = none)
    (hcol : s.colAt m ((t - c0) / 1000) = s.fld (CN_TTSTAT m) 8 4) (hwin : (s.window m).2 = 3) (hrun : s.bit (CN_TTSTAT m) 13 = true) (hmode : s.fld (CN_TTCFG m) 0 2 = 2) :
    After (.canArbitrationStart t m) s fun u =>
      u.mort m = { s.mort m with can := { (s.mort m).can with
        waitTil := none, wire := some 32, wireRec := s.refRec m, wireLen := lenField (s.refRec m), tried := true } } ∧ sameMorts m s u ∧
      sameRegs [CN_STATUS m] s u ∧ u = { s with now := max s.now t, regs := u.regs, mz := u.mz, hb := u.hb } ∧ sameBridge s u := by
  have hcan := canDriving_isCan hd
  have hl : m < s.mz.length := by
    obtain ⟨hm, hz, -⟩ := hd
    omega
  obtain ⟨hx, hxm, -, hxbits⟩ := canIntegrated_step (s := s.tick t) (m := m) hl
  obtain ⟨x, hxd⟩ : ∃ x, x = (s.tick t).canIntegrated m := ⟨_, rfl⟩
  rw [← hxd] at hx hxm hxbits
  have hxm' : x.mort m = { s.mort m with can := { (s.mort m).can with waitTil := none } } := hxm
  have hxl : m < x.mz.length := by rw [hx.len]; exact hl
  have hstat : ∀ a, a ≠ CN_STATUS m → x.rdN a = s.rdN a := fun a ha => hx.regs.rdN (by simpa using ha)
  have htt : x.rdN (CN_TTSTAT m) = s.rdN (CN_TTSTAT m) := hstat _ (by simp [CN_TTSTAT, CN_STATUS])
  have hcfg : x.rdN (CN_TTCFG m) = s.rdN (CN_TTCFG m) := hstat _ (by simp [CN_TTCFG, CN_STATUS])
  have hen' : x.bit (CN_CFG m) 6 = true := by
    rw [State.bit, hstat _ (by simp [CN_CFG, CN_STATUS])]
    exact hen
  have hsync : x.colSync m t = x := by
    refine colSync_same (c0 := c0) (by rw [hxm']; exact hc0) ?_
    rw [colAt_congr hx.regs (by simp [CN_TTCFG, CN_STATUS]) (fun j => by simp [CN_TTCOL, CN_STATUS]; omega), State.fld, htt]
    exact hcol
  have hxw : x.window m = s.window m := window_congr hx.regs (by simp [CN_TTSTAT, CN_STATUS]) fun j => by simp [CN_TTMX, CN_STATUS]; omega
  have hest : x.fld (CN_STATUS m) 8 2 ≠ 2 := by
    rw [show x.fld (CN_STATUS m) 8 2 = s.fld (CN_STATUS m) 8 2 from fld_congr_bits fun j hj => hxbits (8 + j) (by omega) (by omega)]
    exact he
  have hready : x.canReady m = true := canReady_driving (s := s.tick t) hd hx (by rw [hxm']; rfl) (by rw [State.canWaits, hxm']; rfl) (by rw [hxm']; exact hwire) hest
  have hrec : x.objRec m 32 = s.refRec m := by
    show x.refRec m = _
    unfold State.refRec
    simp only [State.fld, htt, hcfg]
  obtain ⟨z, hzd⟩ : ∃ z, z = (x.canStart m 32).onCan m (fun c => { c with tried := true }) := ⟨_, rfl⟩
  have e : canArbitrationStart t m s = z := by
    rw [canArbitrationStart_eq hcan hw (by rw [← hxd]; exact hsync) hready]
    dsimp only
    rw [hen', show x.bit (CN_TTSTAT m) 13 = true by rw [State.bit, htt]; exact hrun, hxw, hwin, State.fld, hcfg,
      show bitsN (s.rdN (CN_TTCFG m)) 0 2 = 2 from hmode, show (x.mort m).can.tried = false by rw [hxm']; exact htr, hzd]
    rfl
  have hstart : (x.canStart m 32).mort m = { x.mort m with can := { (x.mort m).can with wire := some 32, wireRec := x.objRec m 32, wireLen := lenField (x.objRec m 32) } } :=
    mort_onCan (fun c => { c with wire := some 32, wireRec := x.objRec m 32, wireLen := lenField (x.objRec m 32) }) hxl
  have hzm : z.mort m = { s.mort m with can := { (s.mort m).can with
      waitTil := none, wire := some 32, wireRec := s.refRec m, wireLen := lenField (s.refRec m), tried := true } } := by
    rw [hzd, mort_onCan _ (by rw [(canStart_step x m 32).len]; exact hxl), hstart, hrec, hxm']
  have hzs : TenonStep m [CN_STATUS m] (s.tick t) z := by
    rw [hzd]
    exact hx.trans (((canStart_step x m 32).mono (by simp)).trans ((TenonStep.onCan m _ _).mono (by simp)))
  exact after_tenon (w := s.tick t) rfl e rfl hzs fun b hb hframe => ⟨hzm, hzs.same, hzs.regs, hframe, hb⟩

/-- What an exclusive window asks of the tenon that its frame waits for. -/
structure ExclusiveWaits (s : State) (m c0 k : Nat) : Prop where
  driving : s.canDriving m
  live : s.fld (CN_STATUS m) 8 2 ≠ 2
  cycle : (s.mort m).can.cycleAt = some c0
  enabled : s.bit (CN_CFG m) 6 = true
  untried : (s.mort m).can.tried = false
  window : s.window m = (k, 1)
  found : s.bit (CN_TTSTAT m) 12 = false
  timed : s.bit (CN_OBJ m k) 31 = true
  offered : s.offerable m (fun j => j == k) = [k]

theorem ExclusiveWaits.due {s : State} {m c0 k : Nat} (h : ExclusiveWaits s m c0 k) : s.exclusiveDue m k = true :=
  exclusiveDue_waiting h.window h.found h.untried h.enabled h.timed h.offered

theorem exclusiveWindow_opens {s : State} {t m c0 k : Nat} (h : ExclusiveWaits s m c0 k) (hw : s.canWaits m (max s.now t) = false) (hwire : (s.mort m).can.wire = none)
    (hcol : s.colAt m ((t - c0) / 1000) = s.fld (CN_TTSTAT m) 8 4) :
    (s.twNs m (s.objRec m k) ≤ c0 + s.colEnd m (s.fld (CN_TTSTAT m) 8 4) - t → After (.exclusiveWindowOpen t m false) s fun u =>
      u.mort m = { s.mort m with can := { (s.mort m).can with wire := some k, wireRec := s.objRec m k, wireLen := lenField (s.objRec m k), tried := true } } ∧
      sameMorts m s u ∧ u = { s with now := max s.now t, mz := u.mz, hb := u.hb } ∧ sameBridge s u) ∧
    (c0 + s.colEnd m (s.fld (CN_TTSTAT m) 8 4) - t < s.twNs m (s.objRec m k) → (s.mort m).can.missed = false → After (.exclusiveWindowOpen t m false) s fun u =>
      u.mort m = { s.mort m with can := { (s.mort m).can with missed := true } } ∧ (∃ o : Octets, stampedOne s u 2 m .event o ∧ o.take 2 = [8, BitVec.ofNat 8 k]) ∧
      sameMorts m s u ∧ u = { s with now := max s.now t, ep := u.ep, mz := u.mz, hb := u.hb }) := by
  have hcan := canDriving_isCan h.driving
  have hready : (s.tick t).canReady m = true := canReady_driving (s := s.tick t) (x := s.tick t) (l := []) h.driving (.refl _ _ _) rfl hw hwire h.live
  obtain ⟨hm, hz, -, -, hdr, -, -, hcur⟩ := h.driving
  have hl : m < (s.tick t).mz.length := by show m < s.mz.length; omega
  have hsync : (s.tick t).colSync m t = s.tick t := colSync_same (s := s.tick t) h.cycle hcol
  have e : exclusiveWindowOpen t m false s = if s.twNs m (s.objRec m k) ≤ c0 + s.colEnd m (s.fld (CN_TTSTAT m) 8 4) - t
      then ((s.tick t).canStart m k).onCan m (fun c => { c with tried := true }) else (s.tick t).missReport m k := by
    have hc : ((s.tick t).mort m).can.cycleAt = some c0 := h.cycle
    have hk : ((s.tick t).window m).1 = k := congrArg Prod.fst h.window
    have hdue : (s.tick t).exclusiveDue m k = true := h.due
    unfold exclusiveWindowOpen
    rw [if_neg (by show ¬(!s.isCan m) = true; rw [hcan]; decide)]
    dsimp only
    rw [hsync, hc, hk]
    dsimp only
    rw [hready, hdue, if_pos (by decide)]
    rfl
  refine ⟨fun hfit => ?_, fun hlate hmiss => ?_⟩
  · rw [if_pos hfit] at e
    obtain ⟨z, hzd⟩ : ∃ z, z = ((s.tick t).canStart m k).onCan m (fun c => { c with tried := true }) := ⟨_, rfl⟩
    have hstart : ((s.tick t).canStart m k).mort m = { s.mort m with can := { (s.mort m).can with wire := some k, wireRec := s.objRec m k, wireLen := lenField (s.objRec m k) } } :=
      mort_onCan (s := s.tick t) (fun c => { c with wire := some k, wireRec := s.objRec m k, wireLen := lenField (s.objRec m k) }) hl
    have hzm : z.mort m = { s.mort m with can := { (s.mort m).can with wire := some k, wireRec := s.objRec m k, wireLen := lenField (s.objRec m k), tried := true } } := by
      rw [hzd, mort_onCan _ (by rw [(canStart_step (s.tick t) m k).len]; exact hl), hstart]
    have hzs : TenonStep m [] (s.tick t) z := by
      rw [hzd]
      exact (canStart_step _ m k).trans (.onCan m _ _)
    rw [← hzd] at e
    refine after_tenon (w := s.tick t) rfl e rfl hzs fun b hb hframe => ⟨hzm, hzs.same, ?_, hb⟩
    rw [hzd]
    rfl
  · rw [if_neg (Nat.not_le.mpr hlate)] at e
    obtain ⟨o, x, he, hhead, hxs, hxm, hxf⟩ := missReport_first (k := k) (show (s.tick t).drives m = true from hdr) hmiss hl
    refine after_oneStamp (w := s.tick t) _ rfl (e.trans he) rfl hxs hcur fun u hu hstamp _ => ⟨?_, ⟨o, hstamp, hhead⟩, fun j _ hj => ?_, ?_⟩
    · rw [hu]
      exact hxm
    · rw [hu]
      exact hxs.others j hj
    · rw [hu, hxf]
      rfl

theorem exclusiveWindow_ends {s : State} {t m c0 k : Nat} (h : ExclusiveWaits s m c0 k) (ht : c0 < t)
    (hcol : s.colAt m ((t - 1 - c0) / 1000) = s.fld (CN_TTSTAT m) 8 4) (hend : t = c0 + s.colEnd m (s.fld (CN_TTSTAT m) 8 4)) :
    ((s.mort m).can.missed = false → s.bit (CN_CFG m) 4 = false → After (.windowEnd t m) s fun u =>
      u.mort m = { s.mort m with can := { (s.mort m).can with missed := true } } ∧ (∃ o : Octets, stampedOne s u 2 m .event o ∧ o.take 2 = [8, BitVec.ofNat 8 k]) ∧
      sameMorts m s u ∧ u = { s with now := max s.now t, ep := u.ep, mz := u.mz, hb := u.hb }) ∧
    ((s.mort m).can.missed = true → s.bit (CN_CFG m) 4 = true → (s.mort m).can.objs.length = 32 → After (.windowEnd t m) s fun u =>
      u.canObj m k = { s.canObj m k with spent := true } ∧ (∃ o : Octets, stampedOne s u 2 m .event o ∧ o.take 2 = [2, BitVec.ofNat 8 k] ∧ oct o 3 = 4) ∧
      sameMorts m s u ∧ u = { s with now := max s.now t, ep := u.ep, mz := u.mz, hb := u.hb }) := by
  have hcan := canDriving_isCan h.driving
  have hkl := window_index h.offered
  obtain ⟨hm, hz, -, -, hdr, hop, -, hcur⟩ := h.driving
  have hl : m < (s.tick t).mz.length := by show m < s.mz.length; omega
  have hsync : (s.tick t).colSync m (t - 1) = s.tick t := colSync_same (s := s.tick t) h.cycle hcol
  have hmode : (s.tick t).canMode m = 0 := by
    rw [State.canMode, show (s.tick t).drives m = true from hdr, if_pos rfl]
    exact hop
  have e : windowEnd t m s = if ((s.tick t).missReport m k).bit (CN_CFG m) 4 then ((s.tick t).missReport m k).canNotSent m k 4 else (s.tick t).missReport m k := by
    have hc : ((s.tick t).mort m).can.cycleAt = some c0 := h.cycle
    have hk : ((s.tick t).window m).1 = k := congrArg Prod.fst h.window
    have hdue : (s.tick t).exclusiveDue m k = true := h.due
    have hne : ((s.tick t).fld (CN_STATUS m) 8 2 != 2) = true := by simpa using h.live
    have hte : (t == c0 + (s.tick t).colEnd m ((s.tick t).fld (CN_TTSTAT m) 8 4)) = true := beq_iff_eq.mpr hend
    unfold windowEnd
    dsimp only
    rw [hc]
    dsimp only
    rw [if_neg (by show ¬(!s.isCan m || decide (t ≤ c0)) = true; rw [hcan, decide_eq_false (Nat.not_le.mpr ht)]; decide), hsync, hk, hte, hmode, hne, hdue, if_pos (by decide)]
  refine ⟨fun hmiss hone => ?_, fun hmiss hone hobjs => ?_⟩
  · obtain ⟨o, x, he, hhead, hxs, hxm, hxf⟩ := missReport_first (k := k) (show (s.tick t).drives m = true from hdr) hmiss hl
    have hbit : ((s.tick t).missReport m k).bit (CN_CFG m) 4 = false := by
      obtain ⟨-, hf⟩ := stampIn_after hxs { cls := 2, port := m, kind := .event, octets := o } hcur
      rw [he, hf, hxf]
      exact hone
    rw [hbit, if_neg (by decide)] at e
    refine after_oneStamp (w := s.tick t) _ rfl (e.trans he) rfl hxs hcur fun u hu hstamp _ => ⟨?_, ⟨o, hstamp, hhead⟩, fun j _ hj => ?_, ?_⟩
    · rw [hu]
      exact hxm
    · rw [hu]
      exact hxs.others j hj
    · rw [hu, hxf]
      rfl
  · have hsame : (s.tick t).missReport m k = s.tick t := if_pos hmiss
    obtain ⟨x, hx⟩ : ∃ x, x = (s.tick t).onObj m k (fun o => { o with spent := true }) := ⟨_, rfl⟩
    have hxs : TenonStep m [] (s.tick t) x := by rw [hx]; exact onObj_step _ m k _
    have hxo : x.canObj m k = { s.canObj m k with spent := true } := by
      rw [hx, canObj_onObj _ hl]
      exact if_pos ⟨rfl, by show k < (s.mort m).can.objs.length; omega⟩
    obtain ⟨hhead, hreason, -⟩ := canEventRec_head 2 k (x.canState m) 4 (recIdw ((s.tick t).objRec m k)) 0
    have e' : windowEnd t m s = x.stampIn { cls := 2, port := m, kind := .event, octets := canEventRec 2 k (x.canState m) 4 (recIdw ((s.tick t).objRec m k)) 0 } := by
      rw [e, hsame, show (s.tick t).bit (CN_CFG m) 4 = true from hone, if_pos rfl, canNotSent_spent (s := s.tick t) hkl (.inl hone), ← hx, canReport_driven (hxs.drives.trans hdr)]
    refine after_oneStamp (w := s.tick t) _ rfl e' rfl hxs hcur fun u hu hstamp _ => ⟨?_, ⟨_, hstamp, hhead, hreason⟩, fun j _ hj => ?_, ?_⟩
    · rw [hu]
      exact hxo
    · rw [hu]
      exact hxs.others j hj
    · rw [hu, hx]
      rfl

theorem reference_isLost (s : State) (t m : Nat) (hten : (s.mort m).tenon = .can) (hst : (s.mort m).st = .inService) (hmode : s.fld (CN_TTCFG m) 0 2 = 3)
    (ht : (s.mort m).can.lastRef + 2000 * s.fld (CN_TTBC m) 0 16 ≤ t) : After (.referenceLost t m) s fun u =>
      u.bit (CN_TTSTAT m) 12 = true ∧ u.bit (CN_TTSTAT m) 13 = s.bit (CN_TTSTAT m) 13 ∧ u.bit (MZ_EVENT m) 30 = true ∧ sameRegs [CN_TTSTAT m, MZ_EVENT m] s u ∧
      u = { s with now := max s.now t, regs := u.regs, hb := u.hb } := by
  have hcan : s.isCan m = true := by rw [State.isCan, hten, hst]; rfl
  obtain ⟨x, hx⟩ : ∃ x, x = ((s.tick t).setBit (CN_TTSTAT m) 12 true).evt (MZ_EVENT m) 30 := ⟨_, rfl⟩
  have ho : RegsOnly [CN_TTSTAT m, MZ_EVENT m] (s.tick t) x := by rw [hx]; exact ((RegsOnly.refl _ _).setBit (by simp) 12 true).evt (by simp) 30
  have e : referenceLost t m s = x := by
    rw [hx]
    exact if_pos (by
      show (s.isCan m && s.fld (CN_TTCFG m) 0 2 == 3 && decide (t ≥ (s.mort m).can.lastRef + 2000 * s.fld (CN_TTBC m) 0 16)) = true
      rw [hcan, hmode, decide_eq_true (p := t ≥ _) ht]
      rfl)
  have hne : MZ_EVENT m ≠ CN_TTSTAT m := by unfold MZ_EVENT CN_TTSTAT; omega
  have hb : ∀ k < 32, x.bit (CN_TTSTAT m) k = if k = 12 then true else s.bit (CN_TTSTAT m) k := fun k hk => by
    rw [hx, State.bit, rdN_evt_ne _ _ _ _ hne.symm]
    exact bit_setBit (s.tick t) _ _ _ _ hk
  have h30 : x.bit (MZ_EVENT m) 30 = true := by rw [hx, bit_evt_same _ _ _ (by decide)]
  exact after_hb rfl e (by rw [ho.frame]; rfl) fun b _ => ⟨(hb 12 (by decide)).trans (if_pos rfl), (hb 13 (by decide)).trans (if_neg (by decide)), h30, ho.same,
    congrArg (fun z : State => { z with hb := b }) ho.frame⟩

/-- Settles O40: the start of a cycle by its time or by a reference message, and the windows of the matrix by the column that runs and what waits in it. -/
theorem canScheduleMatrix : Obligations.CanScheduleMatrix := by
  refine ⟨fun s t m hm hz hten hst hmode hbc ht hn => basicCycle_starts s t m hm hz hten hst hmode hbc ht hn,
    fun s t m sof r hm hz hten hst hd hcur hw hf href hecho hn => reference_starts s t m sof r hm hz hten hst hd hcur hw hf href hecho hn,
    fun s t m c0 k hd he hc0 hen htr => ⟨fun hw hwire hcol hwin hrun hmode => referenceWindow_starts s t m c0 hd he hc0 hen htr hw hwire hcol hwin hrun hmode,
      fun hwin hlost ho hoff => ?_⟩, fun s t m _ hten hst hmode ht => reference_isLost s t m hten hst hmode ht⟩
  have h : ExclusiveWaits s m c0 k := ⟨hd, he, hc0, hen, htr, hwin, hlost, ho, hoff⟩
  exact ⟨fun hw hwire hcol => exclusiveWindow_opens h hw hwire hcol, fun ht hcol hend => exclusiveWindow_ends h ht hcol hend⟩

end Sys2Proof.Proofs
end

section
/-! PROOFS. LIN slots, headers, responses and received frames (R208 to R218). -/
set_option Elab.async false
namespace Sys2Proof.Machine
open Sys2Proof

/-! ### Steps of a LIN tenon -/

theorem TenonStep.onLin (m : Nat) (s : State) (f : LinSt → LinSt) : TenonStep m [] s (s.onLin m f) := by
  refine ⟨rfl, sameRegs.of_regs rfl, fun j hj => mort_onMort_ne s _ hj, updAt_length .., ?_⟩
  unfold State.onLin
  rw [mort_onMort]
  split <;> rfl

theorem mort_onLin {s : State} {m : Nat} (f : LinSt → LinSt) (h : m < s.mz.length) : (s.onLin m f).mort m = { s.mort m with lin := f (s.mort m).lin } :=
  mort_onMort_same s _ h

theorem mort_linActive {s : State} {m : Nat} (h : m < s.mz.length) : (s.linActive m).mort m = { s.mort m with lin := { (s.mort m).lin with act := s.now } } :=
  mort_onLin (fun l => { l with act := s.now }) h

theorem TenonStep.isLin {m : Nat} {l : List Nat} {s t : State} (h : TenonStep m l s t) : t.isLin m = s.isLin m := by
  obtain ⟨ht, hst, -, -⟩ := h.tenon
  rw [State.isLin, ht, hst]
  rfl

theorem linDriving_isLin {s : State} {m : Nat} (h : s.linDriving m) : s.isLin m = true := by
  obtain ⟨-, -, hten, hst, -⟩ := h
  rw [State.isLin, hten, hst]
  rfl

theorem linDriving_len {s : State} {m : Nat} (h : s.linDriving m) (t : Nat) : m < (s.tick t).mz.length := by
  obtain ⟨hm, hz, -⟩ := h
  show m < s.mz.length
  omega

/-! ### Identifiers (R206) -/

theorem linPid_fid {f : Nat} (h : f < 64) : linPid f % 64 = f := by
  unfold linPid
  dsimp only
  omega

/-! ### A commander's slot (R216, R218) -/

/-- The first slot of a table, when the tenon has had none and nothing waits for its boundary. -/
theorem linNext_first {s : State} {m : Nat} (hr : (s.mort m).lin.resolve = none) (hs : (s.mort m).lin.slot.2 = 64) : s.linNext m = (((s.mort m).lin.table, 0), none) := by
  unfold State.linNext
  dsimp only
  rw [hr]
  dsimp only
  rw [if_pos (by rw [hs])]

/-- A change of a mortise that leaves it as it is leaves the machine. -/
theorem onMort_self {s : State} {m : Nat} {f : Mortise → Mortise} (hl : m < s.mz.length) (h : f (s.mort m) = s.mort m) : s.onMort m f = s := by
  have hz : updAt s.mz m f = s.mz := by
    refine List.ext_getElem (updAt_length ..) fun j h1 h2 => ?_
    refine (List.getElem_modify f m s.mz j h1).trans ?_
    split
    · rename_i hj
      subst hj
      have hm : s.mort m = s.mz[m] := by
        rw [State.mort, nth, List.getD_eq_getElem?_getD, List.getElem?_eq_getElem hl]
        rfl
      rw [← hm]
      exact h
    · rfl
  exact congrArg (fun z => { s with mz := z }) hz

/-- With no control write waiting, a boundary changes nothing of the schedule (R220). -/
theorem linControls_none {s : State} {m : Nat} (h : (s.mort m).lin.ctl = []) (hl : m < s.mz.length) : s.linControls m = s := by
  have hx : (s.onLin m fun l => { l with ctl := l.ctl.filter (fun c => s.now < c.1) }) = s := onMort_self hl (by dsimp only; rw [h, List.filter_nil, ← h])
  unfold State.linControls
  dsimp only
  rw [hx, h]
  rfl

/-- The slot that begins at `e` with an unconditional entry of a FID published elsewhere (R216). -/
theorem linRunSlot_first {s : State} {m e f rtab slot : Nat} (hl : m < s.mz.length) (hr : (s.mort m).lin.resolve = none) (hs : (s.mort m).lin.slot.2 = 64)
    (hsl : (s.mort m).lin.sleepSlot = false) (hrun : s.linRuns m = true) (hent : s.linEntry m (s.mort m).lin.table 0 = (f, 1, rtab, slot)) (hpub : s.linPub m f = false) :
    ∃ x, s.linRunSlot m e = x ∧ TenonStep m [LN_STATUS m] s x ∧ x.fld (LN_STATUS m) 8 6 = 0 ∧ x.mort m = { s.mort m with lin := { (s.mort m).lin with
      slot := ((s.mort m).lin.table, 0), resume := none, sending := none, slotEnd := some (e + slot * 100000), hdr := some (s.linHdrOf m f e) } } := by
  obtain ⟨y, hy⟩ : ∃ y, y = s.onLin m (fun l => { l with
      slot := ((s.mort m).lin.table, 0), resume := none, resolve := none, sleepSlot := false, sending := none, slotEnd := some (e + slot * 100000)
      hdr := some (s.linHdrOf m f e) }) := ⟨_, rfl⟩
  have hys : TenonStep m [] s y := by rw [hy]; exact .onLin m s _
  have hym : y.mort m = { s.mort m with lin := { (s.mort m).lin with
      slot := ((s.mort m).lin.table, 0), resume := none, sending := none, slotEnd := some (e + slot * 100000), hdr := some (s.linHdrOf m f e) } } := by
    rw [hy, mort_onLin _ hl]
    show ({ s.mort m with lin := { (s.mort m).lin with
      slot := ((s.mort m).lin.table, 0), resume := none, resolve := none, sleepSlot := false, sending := none, slotEnd := some (e + slot * 100000)
      hdr := some (s.linHdrOf m f e) } } : Mortise) = _
    rw [← hr, ← hsl]
  have ho : RegsOnly [LN_STATUS m] y (y.setFld (LN_STATUS m) 8 6 0) := (RegsOnly.refl _ y).setFld (by simp) 8 6 0
  have hpub' : (y.setFld (LN_STATUS m) 8 6 0).linPub m f = false := by
    rw [← hpub]
    have h1 : ∀ k, (y.setFld (LN_STATUS m) 8 6 0).bit (LN_PUB_L m) k = s.bit (LN_PUB_L m) k := fun k =>
      (ho.same.bit (by simp [LN_PUB_L, LN_STATUS]) k).trans (hys.regs.bit (by simp) k)
    have h2 : ∀ k, (y.setFld (LN_STATUS m) 8 6 0).bit (LN_PUB_H m) k = s.bit (LN_PUB_H m) k := fun k =>
      (ho.same.bit (by simp [LN_PUB_H, LN_STATUS]) k).trans (hys.regs.bit (by simp) k)
    unfold State.linPub
    rw [h1, h2]
  refine ⟨y.setFld (LN_STATUS m) 8 6 0, ?_, (hys.mono (by simp)).trans (.of_regs ho), (fld_setFld_same _ _ _ _ _ (by decide)).trans rfl, (ho.mort m).trans hym⟩
  unfold State.linRunSlot
  rw [linNext_first hr hs]
  dsimp only
  rw [hent, hrun]
  dsimp only
  simp only [beq_self_eq_true, Bool.true_or, Bool.and_self, if_true]
  rw [← hy]
  exact if_pos (by rw [hpub']; rfl)

/-! ### The response decision (R214) -/

theorem linPub_congr {m f : Nat} {l : List Nat} {s t : State} (h : sameRegs l s t) (h1 : LN_PUB_L m ∉ l) (h2 : LN_PUB_H m ∉ l) : t.linPub m f = s.linPub m f := by
  unfold State.linPub
  rw [h.bit h1, h.bit h2]

theorem linEnh_congr {m f : Nat} {l : List Nat} {s t : State} (h : sameRegs l s t) (h1 : LN_ENH_L m ∉ l) (h2 : LN_ENH_H m ∉ l) : t.linEnh m f = s.linEnh m f := by
  unfold State.linEnh
  rw [h.bit h1, h.bit h2]

theorem stampEp_step {m : Nat} {l : List Nat} {s t : State} (h : TenonStep m l s t) (hl : EP_CTRL ∉ l) : t.stampEp = s.stampEp := by
  obtain ⟨hep, hnow, -⟩ := h.fields
  have : t.rdN EP_CTRL = s.rdN EP_CTRL := h.regs.rdN hl
  rw [State.stampEp, State.epochNow, State.elen, State.fld, hep, hnow, this]
  rfl

/-- A driving tenon decides for the last frame released, and starts its response. -/
theorem linDecide_some {s : State} {m f a : Nat} {e : Egress} (hp : s.linPub m f = true) (hc : linChoose (s.linBuf m f) s.stampEp = some e) (hd : s.drives m = true)
    (hq : s.wk.quiesce = false) (hl : m < s.mz.length) : TenonStep m [] s (s.linDecide m f a) ∧ (s.linDecide m f a).regs = s.regs ∧
    (s.linDecide m f a).mort m = { s.mort m with lin := { (s.mort m).lin with
      bufs := updAt (s.mort m).lin.bufs f (fun b => { b with sent := some e }), sending := some (f, s.linResponse m f e.octets, a) } } := by
  obtain ⟨x, hx⟩ : ∃ x, x = s.onLin m (fun l => { l with bufs := updAt l.bufs f (fun b => { b with sent := some e }) }) := ⟨_, rfl⟩
  have hxs : TenonStep m [] s x := by rw [hx]; exact .onLin m s _
  have hxm : x.mort m = { s.mort m with lin := { (s.mort m).lin with bufs := updAt (s.mort m).lin.bufs f (fun b => { b with sent := some e }) } } := by
    rw [hx]
    exact mort_onLin (fun l => { l with bufs := updAt l.bufs f (fun b => { b with sent := some e }) }) hl
  have hxr : x.linResponse m f e.octets = s.linResponse m f e.octets := by
    unfold State.linResponse
    rw [linEnh_congr hxs.regs (by simp) (by simp)]
  have heq : s.linDecide m f a = x.onLin m (fun l => { l with sending := some (f, s.linResponse m f e.octets, a) }) := by
    unfold State.linDecide
    rw [if_neg (by rw [hp]; decide), hc]
    dsimp only
    rw [← hx, hxs.drives, hd, hxs.fields.2.2.2.2, hq, hxr]
    rfl
  rw [heq]
  refine ⟨hxs.trans (.onLin m x _), by rw [hx]; rfl, ?_⟩
  rw [mort_onLin _ (by rw [hxs.len]; exact hl), hxm]

theorem linDecide_none {s : State} {m f a : Nat} (hp : s.linPub m f = true) (hc : linChoose (s.linBuf m f) s.stampEp = none) :
    s.linDecide m f a = (s.inc (LN_CNT m 5)).evt (MZ_EVENT m) 21 := by
  unfold State.linDecide
  rw [if_neg (by rw [hp]; decide), hc]

/-! ### Headers and frames (R208, R211) -/

/-- A header of this bit time with right parity is on the bus, and a published FID's response is decided. -/
theorem linHeaderReceived_good {s : State} {t m start brk f : Nat} {dev : Int} (hlin : s.isLin m = true) (hst : (s.mort m).st = .inService) (hr : s.bit (LN_CFG m) 0 = false)
    (hb : 11 ≤ brk) (h1 : -150 ≤ dev) (h2 : dev ≤ 150) (hf : f < 64) :
    linHeaderReceived t m start brk (linPid f) dev s =
      (((s.tick t).linActive m).onLin m (fun l => { l with hdr := some { fid := f, pid := linPid f, start := start, brk := brk }, sending := none })).linDecide m f
        (t + s.linBitNs m * (1000 + dev).toNat / 1000) := by
  unfold linHeaderReceived
  rw [if_neg (by
    show ¬(!s.isLin m || s.bit (LN_CFG m) 0 || decide (brk < 11)) = true
    rw [hlin, hr, decide_eq_false (by omega)]
    decide)]
  dsimp only
  rw [if_neg (by omega), linPid_fid hf, if_neg (fun h => h rfl)]
  have hst' : (((((s.tick t).linActive m).onLin m fun l => { l with hdr := some { fid := f, pid := linPid f, start := start, brk := brk }, sending := none }).mort m).st
      != .inService) = false := by
    have h : TenonStep m [] (s.tick t) (((s.tick t).linActive m).onLin m fun l => { l with hdr := some { fid := f, pid := linPid f, start := start, brk := brk }, sending := none }) :=
      (TenonStep.onLin m (s.tick t) (fun l => { l with act := (s.tick t).now })).trans (.onLin m _ _)
    rw [h.tenon.2.1]
    show ((s.mort m).st != .inService) = false
    rw [hst]
    rfl
  rw [hst', if_neg (by decide)]
  rfl

theorem linRecord_congr {m : Nat} {l : List Nat} {s t : State} (h : sameRegs l s t) (h1 : LN_ENH_L m ∉ l) (h2 : LN_ENH_H m ∉ l) (r : Octets) :
    t.linRecord m r = s.linRecord m r := by
  unfold State.linRecord
  simp only [linEnh_congr h h1 h2]

/-- A whole frame with right parity and checksum, no go-to-sleep frame, is counted, and stamped unless this tenon publishes it (R211). -/
theorem linFrameReceived_good {s x : State} {t m f : Nat} {r : Octets} (hlin : s.isLin m = true) (hst : (s.mort m).st = .inService) (hf : f < 64) (hpid : oct r 0 = linPid f)
    (hlen : oct r 2 = s.linLen m f) (hd : (slice r 4 (oct r 2)).length = oct r 2) (hck : oct r 3 = linChecksum (s.linEnh m f) (linPid f) (slice r 4 (oct r 2)))
    (hsl : f ≠ 0x3C ∨ oct (slice r 4 (oct r 2)) 0 ≠ 0)
    (hx : ((((s.tick t).inc (MZ_CNT m 1)).linActive m).onLin m fun l => { l with hdr := none }) = x) (hxs : TenonStep m [MZ_CNT m 1] (s.tick t) x) :
    linFrameReceived t m r s = if s.linPub m f then x else x.stampIn { cls := 2, port := m, kind := .frame, octets := s.linRecord m r } := by
  have hgood : (linPid f == oct r 0 && oct r 2 == (s.tick t).linLen m f && (slice r 4 (oct r 2)).length == oct r 2 &&
      oct r 3 == linChecksum ((s.tick t).linEnh m f) (oct r 0) (slice r 4 (oct r 2))) = true := by
    rw [hpid, beq_self_eq_true, show (oct r 2 == (s.tick t).linLen m f) = true from beq_iff_eq.mpr hlen, hd, beq_self_eq_true,
      show (oct r 3 == linChecksum ((s.tick t).linEnh m f) (linPid f) (slice r 4 (oct r 2))) = true from beq_iff_eq.mpr hck]
    rfl
  have hsleep : (f == 0x3C && oct (slice r 4 (oct r 2)) 0 == 0) = false := by
    rcases hsl with h | h
    · rw [beq_eq_false_iff_ne.mpr h, Bool.false_and]
    · rw [beq_eq_false_iff_ne.mpr h, Bool.and_false]
  have hpub : x.linPub m f = s.linPub m f := linPub_congr hxs.regs (by simp [LN_PUB_L, MZ_CNT]; omega) (by simp [LN_PUB_H, MZ_CNT]; omega)
  have hrec : x.linRecord m r = s.linRecord m r := linRecord_congr hxs.regs (by simp [LN_ENH_L, MZ_CNT]; omega) (by simp [LN_ENH_H, MZ_CNT]; omega) r
  have hsrv : ((x.mort m).st == .inService) = true := by
    rw [hxs.tenon.2.1]
    exact beq_iff_eq.mpr hst
  have hf64 : oct r 0 % 64 = f := by rw [hpid, linPid_fid hf]
  unfold linFrameReceived
  rw [if_neg (by show ¬(!s.isLin m) = true; rw [hlin]; decide)]
  dsimp only
  rw [hf64, hgood, if_neg (by decide), hx, hpub, hrec, hsrv, hsleep, if_neg (by decide), Bool.and_true]
  cases s.linPub m f <;> rfl

end Sys2Proof.Machine

namespace Sys2Proof.Proofs
open Sys2Proof Sys2Proof.Machine

theorem linSlot_starts (s : State) (t m e f rtab slot : Nat) (hd : s.linDriving m) (hcfg : s.bit (LN_CFG m) 0 = true) (hend : (s.mort m).lin.slotEnd = some e) (het : e ≤ t)
    (hctl : (s.mort m).lin.ctl = []) (hcoll : (s.mort m).lin.coll = false) (hss : (s.mort m).lin.sleepSlot = false) (hsr : (s.mort m).lin.sleepReq = false)
    (hres : (s.mort m).lin.resolve = none) (hslot : (s.mort m).lin.slot.2 = 64) (hrun : (s.mort m).lin.run = true) (hrest : (s.mort m).lin.rest = false)
    (hsl : s.bit (LN_STATUS m) 3 = false) (hent : s.linEntry m (s.mort m).lin.table 0 = (f, 1, rtab, slot)) (hpub : s.linPub m f = false) :
    After (.linSlotStart t m) s fun u =>
      u.mort m = { s.mort m with lin := { (s.mort m).lin with
        slot := ((s.mort m).lin.table, 0), resume := none, sending := none, slotEnd := some (e + slot * 100000), hdr := some (s.linHdrOf m f e), act := max s.now t } } ∧
      sameMorts m s u ∧ u.fld (LN_STATUS m) 8 6 = 0 ∧ sameRegs [LN_STATUS m] s u ∧
      u = { s with now := max s.now t, regs := u.regs, mz := u.mz, hb := u.hb } ∧ sameBridge s u := by
  have hlin := linDriving_isLin hd
  have hl := linDriving_len hd t
  obtain ⟨-, -, -, hst, -, hq, -⟩ := hd
  have hruns : (s.tick t).linRuns m = true := by
    show ((s.mort m).lin.run && !(s.mort m).lin.rest && !s.bit (LN_STATUS m) 3 && !s.wk.quiesce) = true
    rw [hrun, hrest, hsl, hq]
    rfl
  obtain ⟨x, hx, hxs, hxf, hxm⟩ := linRunSlot_first (s := s.tick t) (e := e) hl hres hslot hss hruns hent hpub
  have hxl : m < x.mz.length := by rw [hxs.len]; exact hl
  have e' : linSlotStart t m s = x.linActive m := by
    have h1 : ((s.tick t).mort m).lin.slotEnd = some e := hend
    have h2 : ((s.tick t).mort m).lin.coll = false := hcoll
    have h3 : ((s.tick t).mort m).lin.sleepSlot = false := hss
    have h4 : ((s.tick t).mort m).lin.sleepReq = false := hsr
    unfold linSlotStart
    dsimp only
    rw [h1]
    dsimp only
    rw [if_neg (by
      show ¬(!s.isLin m || !s.bit (LN_CFG m) 0 || (s.mort m).st != .inService || decide (t < e)) = true
      rw [hlin, hcfg, hst, decide_eq_false (Nat.not_lt.mpr het)]
      decide), h2, h3]
    simp only [Bool.false_eq_true, if_false]
    rw [linControls_none (s := s.tick t) hctl hl, h4, if_neg Bool.false_ne_true, hx, if_pos (by rw [hxm]; rfl)]
  have hys : TenonStep m [LN_STATUS m] (s.tick t) (x.linActive m) := hxs.trans ((TenonStep.onLin m x fun l => { l with act := x.now }).mono (by simp))
  have hym : (x.linActive m).mort m = { s.mort m with lin := { (s.mort m).lin with
      slot := ((s.mort m).lin.table, 0), resume := none, sending := none, slotEnd := some (e + slot * 100000), hdr := some (s.linHdrOf m f e), act := max s.now t } } := by
    rw [mort_linActive hxl, hxm, hxs.fields.2.1]
    rfl
  exact after_tenon (w := s.tick t) rfl e' rfl hys fun b hb hframe => ⟨hym, hys.same, hxf, hys.regs, hframe, hb⟩

theorem linHeader_received (s : State) (t m start brk f : Nat) (dev : Int) (hd : s.linDriving m) (hcfg : s.bit (LN_CFG m) 0 = false) :
    (brk < 11 → After (.linHeaderReceived t m ⟨start, brk, linPid f⟩ dev) s fun u => u = { s with now := max s.now t, hb := u.hb } ∧ sameBridge s u) ∧
    (11 ≤ brk → (150 < dev ∨ dev < -150) → After (.linHeaderReceived t m ⟨start, brk, linPid f⟩ dev) s fun u =>
      u.rdN (LN_CNT m 7) = (s.rdN (LN_CNT m 7) + 1) % 2 ^ 32 ∧ u.bit (MZ_EVENT m) 22 = true ∧ sameRegs [LN_CNT m 7, MZ_EVENT m] s u ∧
      u.mort m = { s.mort m with lin := { (s.mort m).lin with act := max s.now t } } ∧ sameMorts m s u ∧
      u = { s with now := max s.now t, regs := u.regs, mz := u.mz, hb := u.hb }) ∧
    (11 ≤ brk → -150 ≤ dev → dev ≤ 150 → f < 64 → s.linPub m f = true →
      (∀ e, linChoose (s.linBuf m f) (s.tick t).stampEp = some e → After (.linHeaderReceived t m ⟨start, brk, linPid f⟩ dev) s fun u =>
        u.mort m = { s.mort m with lin := { (s.mort m).lin with
          bufs := updAt (s.mort m).lin.bufs f (fun b => { b with sent := some e }), hdr := some { fid := f, pid := linPid f, start := start, brk := brk }
          sending := some (f, s.linResponse m f e.octets, t + s.linBitNs m * (1000 + dev).toNat / 1000), act := max s.now t } } ∧ sameMorts m s u ∧
        u = { s with now := max s.now t, mz := u.mz, hb := u.hb } ∧ sameBridge s u) ∧
      (linChoose (s.linBuf m f) (s.tick t).stampEp = none → After (.linHeaderReceived t m ⟨start, brk, linPid f⟩ dev) s fun u =>
        (u.mort m).lin.sending = none ∧ u.rdN (LN_CNT m 5) = (s.rdN (LN_CNT m 5) + 1) % 2 ^ 32 ∧ u.bit (MZ_EVENT m) 21 = true ∧ sameMorts m s u ∧
        sameRegs [LN_CNT m 5, MZ_EVENT m] s u)) := by
  have hlin := linDriving_isLin hd
  have hl := linDriving_len hd t
  obtain ⟨-, -, -, hst, hdr, hq, -⟩ := hd
  obtain ⟨a, ha⟩ : ∃ a, a = (s.tick t).linActive m := ⟨_, rfl⟩
  have has : TenonStep m [] (s.tick t) a := by rw [ha]; exact .onLin m _ fun l => { l with act := (s.tick t).now }
  have ham : a.mort m = { s.mort m with lin := { (s.mort m).lin with act := max s.now t } } := by
    rw [ha]
    exact mort_linActive hl
  have hal : m < a.mz.length := by rw [has.len]; exact hl
  have haregs : a.regs = s.regs := by rw [ha]; rfl
  refine ⟨fun hb => ?_, fun hb hdev => ?_, fun hb h1 h2 hf hpub => ?_⟩
  · have e : linHeaderReceived t m start brk (linPid f) dev s = s.tick t := if_pos (by
      show (!s.isLin m || s.bit (LN_CFG m) 0 || decide (brk < 11)) = true
      rw [decide_eq_true hb, Bool.or_true])
    exact after_hb rfl e rfl fun b hb => ⟨rfl, hb⟩
  · have e : linHeaderReceived t m start brk (linPid f) dev s = (a.inc (LN_CNT m 7)).evt (MZ_EVENT m) 22 := by
      unfold linHeaderReceived
      rw [if_neg (by
        show ¬(!s.isLin m || s.bit (LN_CFG m) 0 || decide (brk < 11)) = true
        rw [hlin, hcfg, decide_eq_false (by omega)]
        decide)]
      dsimp only
      rw [if_pos (by omega), ha]
    have hne : LN_CNT m 7 ≠ MZ_EVENT m := by unfold LN_CNT MZ_EVENT; omega
    obtain ⟨x, hx⟩ : ∃ x, x = (a.inc (LN_CNT m 7)).evt (MZ_EVENT m) 22 := ⟨_, rfl⟩
    have hxo : RegsOnly [LN_CNT m 7, MZ_EVENT m] a x := by rw [hx]; exact ((RegsOnly.refl _ a).inc (by simp) 1).evt (by simp) 22
    have hxc : x.rdN (LN_CNT m 7) = (s.rdN (LN_CNT m 7) + 1) % 2 ^ 32 := by
      rw [hx, rdN_evt_ne _ _ _ _ hne, rdN_inc_same, has.regs.rdN (by simp)]
      rfl
    have hxb : x.bit (MZ_EVENT m) 22 = true := by rw [hx, bit_evt_same _ _ _ (by decide)]
    have hxs : TenonStep m [LN_CNT m 7, MZ_EVENT m] (s.tick t) x := (has.mono (by simp)).trans (.of_regs hxo)
    have hxm : x.mort m = { s.mort m with lin := { (s.mort m).lin with act := max s.now t } } := (hxo.mort m).trans ham
    exact after_tenon (w := s.tick t) rfl (e.trans hx.symm) rfl hxs fun b _ hframe => ⟨hxc, hxb, hxs.regs, hxm, hxs.same, hframe⟩
  · have e := linHeaderReceived_good (t := t) (start := start) hlin hst hcfg hb h1 h2 hf
    obtain ⟨y, hy⟩ : ∃ y, y = a.onLin m (fun l => { l with hdr := some { fid := f, pid := linPid f, start := start, brk := brk }, sending := none }) := ⟨_, rfl⟩
    rw [← ha, ← hy] at e
    have hys : TenonStep m [] (s.tick t) y := by rw [hy]; exact has.trans (.onLin m a _)
    have hym : y.mort m = { s.mort m with lin := { (s.mort m).lin with
        hdr := some { fid := f, pid := linPid f, start := start, brk := brk }, sending := none, act := max s.now t } } := by
      rw [hy, mort_onLin _ hal, ham]
    have hyl : m < y.mz.length := by rw [hys.len]; exact hl
    have hyregs : y.regs = s.regs := by rw [hy]; exact haregs
    have hypub : y.linPub m f = true := (linPub_congr hys.regs (by simp) (by simp)).trans hpub
    have hybuf : y.linBuf m f = s.linBuf m f := by rw [State.linBuf, hym]; rfl
    have hyep : y.stampEp = (s.tick t).stampEp := stampEp_step hys (by simp)
    refine ⟨fun eg hc => ?_, fun hc => ?_⟩
    · obtain ⟨hz, hzr, hzm⟩ := linDecide_some (a := t + s.linBitNs m * (1000 + dev).toNat / 1000) hypub (by rw [hybuf, hyep]; exact hc) (hys.drives.trans hdr)
        (by rw [hys.fields.2.2.2.2]; exact hq) hyl
      obtain ⟨z, hzd⟩ : ∃ z, z = y.linDecide m f (t + s.linBitNs m * (1000 + dev).toNat / 1000) := ⟨_, rfl⟩
      rw [← hzd] at hz hzr hzm e
      have hzs := hys.trans hz
      have hzm' : z.mort m = { s.mort m with lin := { (s.mort m).lin with
          bufs := updAt (s.mort m).lin.bufs f (fun b => { b with sent := some eg }), hdr := some { fid := f, pid := linPid f, start := start, brk := brk }
          sending := some (f, s.linResponse m f eg.octets, t + s.linBitNs m * (1000 + dev).toNat / 1000), act := max s.now t } } := by
        have hr : y.linResponse m f eg.octets = s.linResponse m f eg.octets := by
          unfold State.linResponse
          rw [linEnh_congr hys.regs (by simp) (by simp)]
          rfl
        rw [hzm, hr, hym]
      have hzf : z = { s with now := max s.now t, mz := z.mz } := by
        have h := hzs.frame
        rw [hzr, hyregs] at h
        exact h
      exact after_tenon (w := s.tick t) rfl e rfl hzs fun b hb _ => ⟨hzm', hzs.same, congrArg (fun v : State => { v with hb := b }) hzf, hb⟩
    · rw [linDecide_none hypub (by rw [hybuf, hyep]; exact hc)] at e
      have hne : LN_CNT m 5 ≠ MZ_EVENT m := by unfold LN_CNT MZ_EVENT; omega
      obtain ⟨x, hx⟩ : ∃ x, x = (y.inc (LN_CNT m 5)).evt (MZ_EVENT m) 21 := ⟨_, rfl⟩
      have hxo : RegsOnly [LN_CNT m 5, MZ_EVENT m] y x := by rw [hx]; exact ((RegsOnly.refl _ y).inc (by simp) 1).evt (by simp) 21
      have hxc : x.rdN (LN_CNT m 5) = (s.rdN (LN_CNT m 5) + 1) % 2 ^ 32 := by
        rw [hx, rdN_evt_ne _ _ _ _ hne, rdN_inc_same, hys.regs.rdN (by simp)]
        rfl
      have hxb : x.bit (MZ_EVENT m) 21 = true := by rw [hx, bit_evt_same _ _ _ (by decide)]
      have hxs : TenonStep m [LN_CNT m 5, MZ_EVENT m] (s.tick t) x := (hys.mono (by simp)).trans (.of_regs hxo)
      have hxm : (x.mort m).lin.sending = none := by rw [hxo.mort m, hym]
      exact after_tenon (w := s.tick t) rfl (e.trans hx.symm) rfl hxs fun b _ _ => ⟨hxm, hxc, hxb, hxs.same, hxs.regs⟩

theorem linFrame_received (s : State) (t m f : Nat) (r : Octets) (hd : s.linDriving m) (hf : f < 64) (hpid : oct r 0 = linPid f) (hlen : oct r 2 = s.linLen m f)
    (hdl : (slice r 4 (oct r 2)).length = oct r 2) (hck : oct r 3 = linChecksum (s.linEnh m f) (linPid f) (slice r 4 (oct r 2)))
    (hsl : f ≠ 0x3C ∨ oct (slice r 4 (oct r 2)) 0 ≠ 0) :
    (s.linPub m f = false → After (.linFrameReceived t m r) s fun u =>
      stampedOne s u 2 m .frame (s.linRecord m r) ∧ u.rdN (MZ_CNT m 1) = (s.rdN (MZ_CNT m 1) + 1) % 2 ^ 32 ∧
      u.mort m = { s.mort m with lin := { (s.mort m).lin with hdr := none, act := max s.now t } } ∧ sameMorts m s u ∧ sameRegs [MZ_CNT m 1] s u ∧
      u = { s with now := max s.now t, regs := u.regs, ep := u.ep, mz := u.mz, hb := u.hb } ∧ sameBridge s u) ∧
    (s.linPub m f = true → After (.linFrameReceived t m r) s fun u =>
      u.ep = s.ep ∧ u.rdN (MZ_CNT m 1) = (s.rdN (MZ_CNT m 1) + 1) % 2 ^ 32 ∧ sameMorts m s u ∧ sameRegs [MZ_CNT m 1] s u) := by
  have hlin := linDriving_isLin hd
  have hl := linDriving_len hd t
  obtain ⟨-, -, -, hst, -, -, hcur⟩ := hd
  obtain ⟨a, ha⟩ : ∃ a, a = (s.tick t).inc (MZ_CNT m 1) := ⟨_, rfl⟩
  have hao : RegsOnly [MZ_CNT m 1] (s.tick t) a := by rw [ha]; exact (RegsOnly.refl _ _).inc (by simp) 1
  have has : TenonStep m [MZ_CNT m 1] (s.tick t) a := .of_regs hao
  have hal : m < a.mz.length := by rw [has.len]; exact hl
  have hacnt : a.rdN (MZ_CNT m 1) = (s.rdN (MZ_CNT m 1) + 1) % 2 ^ 32 := by
    rw [ha]
    exact rdN_inc_same ..
  have hbs : TenonStep m [MZ_CNT m 1] (s.tick t) (a.linActive m) := has.trans ((TenonStep.onLin m a fun l => { l with act := a.now }).mono (by simp))
  obtain ⟨x, hx⟩ : ∃ x, x = (a.linActive m).onLin m (fun l => { l with hdr := none }) := ⟨_, rfl⟩
  have hxs : TenonStep m [MZ_CNT m 1] (s.tick t) x := by rw [hx]; exact hbs.trans ((TenonStep.onLin m _ _).mono (by simp))
  have hxm : x.mort m = { s.mort m with lin := { (s.mort m).lin with hdr := none, act := max s.now t } } := by
    rw [hx, mort_onLin _ (by rw [hbs.len]; exact hl), mort_linActive hal, hao.mort m, hao.frame]
    rfl
  have hxcnt : x.rdN (MZ_CNT m 1) = (s.rdN (MZ_CNT m 1) + 1) % 2 ^ 32 := by
    rw [hx]
    exact hacnt
  have e := linFrameReceived_good (t := t) hlin hst hf hpid hlen hdl hck hsl (by rw [hx, ha]) hxs
  refine ⟨fun hp => ?_, fun hp => ?_⟩
  · rw [hp, if_neg (by decide)] at e
    refine after_stamped (w := s.tick t) _ rfl e rfl hxs hcur fun u hrd hmort hstamp hb _ hframe => ?_
    exact ⟨hstamp, (congrArg BitVec.toNat (hrd _)).trans hxcnt, (hmort m).trans hxm, fun j _ hj => (hmort j).trans (hxs.others j hj), fun a ha => (hrd a).trans (hxs.regs a ha),
      hframe, hb⟩
  · rw [hp, if_pos rfl] at e
    exact after_tenon (w := s.tick t) rfl e rfl hxs fun b _ _ => ⟨hxs.fields.1, hxcnt, hxs.same, hxs.regs⟩

/-- Settles O41: the slot by the entry it begins, the header by its break, bit time and the response decided, the frame by its checks. -/
theorem linSlotsAndFrames : Obligations.LinSlotsAndFrames :=
  ⟨fun s t m e f rtab slot hd hcfg hend het hctl hcoll hss hsr hres hslot hrun hrest hsl hent hpub =>
      linSlot_starts s t m e f rtab slot hd hcfg hend het hctl hcoll hss hsr hres hslot hrun hrest hsl hent hpub,
    fun s t m start brk f dev hd hcfg => linHeader_received s t m start brk f dev hd hcfg,
    fun s t m f r hd hf hpid hlen hdl hck hsl => linFrame_received s t m f r hd hf hpid hlen hdl hck hsl⟩

end Sys2Proof.Proofs
end

section
/-! PROOFS. LIN events with their reasons, and processed LIN commands (R209, R219 to R222). -/
set_option Elab.async false
namespace Sys2Proof.Machine
open Sys2Proof

/-! ### Reports of a driving tenon (R221) -/

theorem linReport_driven {s : State} {m : Nat} (hd : s.drives m = true) (hst : (s.mort m).st = .inService) (code reason fid : Nat) (drive : Bool) :
    s.linReport m code reason fid drive =
      s.stampIn { cls := 2, port := m, kind := .event, octets := padTo 16 [BitVec.ofNat 8 code, BitVec.ofNat 8 reason, BitVec.ofNat 8 fid] } := by
  unfold State.linReport
  rw [hd, hst]
  cases drive <;> rfl

/-- A command whose meaning ends in a report of a driving tenon. -/
theorem after_linReport {i : Instr} {s x y : State} {t m : Nat} {l : List Nat} {P : State → Prop} (code reason fid : Nat) (drive : Bool) (hd : s.linDriving m)
    (h : exec i s = .next (s.settle y)) (e : y = x.linReport m code reason fid drive) (hx : TenonStep m l (s.tick t) x)
    (k : ∀ u : State, stampedOne s u 2 m .event (padTo 16 [BitVec.ofNat 8 code, BitVec.ofNat 8 reason, BitVec.ofNat 8 fid]) → (∀ a, u.rdN a = x.rdN a) →
      u.mort m = x.mort m → sameMorts m s u → sameRegs l s u → P u) : After i s P := by
  obtain ⟨-, -, -, hst, hdr, -, hcur⟩ := hd
  have hxst : (x.mort m).st = .inService := hx.tenon.2.1.trans hst
  rw [linReport_driven (hx.drives.trans hdr) hxst] at e
  refine after_stamped (w := s.tick t) _ h e rfl hx hcur fun u hrd hmort hstamp _ _ _ => ?_
  exact k u hstamp (fun a => congrArg BitVec.toNat (hrd a)) (hmort m) (fun j _ hj => (hmort j).trans (hx.others j hj)) fun a ha => (hrd a).trans (hx.regs a ha)

/-- Whether an event-triggered slot runs is read from the tenon, its configuration and its schedule (R219). -/
theorem linEvtSlot_congr {m : Nat} {l : List Nat} {s t : State} (h : TenonStep m l s t) (hc : LN_CFG m ∉ l) (hsch : ∀ i, LN_SCH m i ∉ l)
    (hss : (t.mort m).lin.sleepSlot = (s.mort m).lin.sleepSlot) (hsl : (t.mort m).lin.slot = (s.mort m).lin.slot) : t.linEvtSlot m = s.linEvtSlot m := by
  have hw : t.linEntry m (s.mort m).lin.slot.1 (s.mort m).lin.slot.2 = s.linEntry m (s.mort m).lin.slot.1 (s.mort m).lin.slot.2 := by
    unfold State.linEntry
    rw [h.regs.rdN (hsch _)]
  unfold State.linEvtSlot
  simp only [hss, hsl, h.isLin, h.regs.bit hc, hw]

/-! ### The end of a response (R209, R219, R221) -/

/-- The machine whose tenon sees the bus active at the end of a frame: `f` is what ends with it. -/
def State.linEnded (s : State) (m : Nat) (f : LinSt → LinSt) : State := (s.linActive m).onLin m f

theorem linEnded_step (s : State) (m : Nat) (f : LinSt → LinSt) : TenonStep m [] s (s.linEnded m f) :=
  (TenonStep.onLin m s fun l => { l with act := s.now }).trans (.onLin m _ f)

theorem mort_linEnded {s : State} {m : Nat} (f : LinSt → LinSt) (h : m < s.mz.length) :
    (s.linEnded m f).mort m = { s.mort m with lin := f { (s.mort m).lin with act := s.now } } := by
  have hs : TenonStep m [] s (s.linActive m) := .onLin m s fun l => { l with act := s.now }
  have hl : m < (s.linActive m).mz.length := by rw [hs.len]; exact h
  unfold State.linEnded
  rw [mort_onLin f hl, mort_linActive h]

theorem linLate_of {s : State} {t m f reason : Nat}
    (h : 3 ≤ reason ∨ (∃ h, (s.mort m).lin.hdr = some h ∧ h.fid = f ∧ h.start + s.linFrameMax m (s.linLen m f) ≤ t)) :
    (decide (reason < 3) && !((s.mort m).lin.hdr.any fun h => h.fid == f && decide (h.start + s.linFrameMax m (s.linLen m f) ≤ t))) = false := by
  rcases h with h | ⟨x, hx, hf, ht⟩
  · rw [decide_eq_false (by omega), Bool.false_and]
  · rw [hx, Option.any_some, hf, beq_self_eq_true, decide_eq_true ht]
    exact Bool.and_false _

/-- A response in error ends its frame, is counted, and is reported or collides (R219, R221). -/
theorem linResponseError_eq {s x : State} {t m f reason : Nat} (hlin : s.isLin m = true) (h1 : 1 ≤ reason) (h5 : reason ≤ 5)
    (hl : 3 ≤ reason ∨ (∃ h, (s.mort m).lin.hdr = some h ∧ h.fid = f ∧ h.start + s.linFrameMax m (s.linLen m f) ≤ t))
    (hx : x = ((s.tick t).inc (MZ_CNT m 2)).linEnded m fun l => { l with hdr := none }) :
    linResponseError t m f reason s = if x.linEvtSlot m && (reason == 3 || reason == 5) then x.onLin m (fun l => { l with coll := true }) else x.linReport m 2 reason f false := by
  have hlate := linLate_of hl
  unfold linResponseError
  dsimp only
  rw [if_neg (by
    show ¬((!s.isLin m || decide (reason < 1) || decide (5 < reason) ||
      (decide (reason < 3) && !((s.mort m).lin.hdr.any fun h => h.fid == f && decide (h.start + s.linFrameMax m (s.linLen m f) ≤ t)))) = true)
    rw [hlin, hlate, decide_eq_false (show ¬reason < 1 by omega), decide_eq_false (show ¬5 < reason by omega)]
    decide), hx]
  rfl

theorem linTxFailed_eq {s x : State} {t m f a reason : Nat} {d : Octets} (hlin : s.isLin m = true) (hd : s.drives m = true) (hs : (s.mort m).lin.sending = some (f, d, a))
    (hr : reason = 1 ∨ reason = 2) (hx : x = (s.tick t).linEnded m fun l => { l with sending := none, hdr := none }) (hev : reason = 2 ∨ x.linEvtSlot m = false) :
    linTxFailed t m reason s = x.linReport m 6 reason f true := by
  have hc : (s.isLin m && s.drives m && (reason == 1 || reason == 2)) = true := by
    rw [hlin, hd]
    rcases hr with rfl | rfl <;> rfl
  have hs' : ((s.tick t).mort m).lin.sending = some (f, d, a) := hs
  have hk : (x.linEvtSlot m && reason == 1) = false := by
    rcases hev with h | h
    · rw [h]
      exact Bool.and_false _
    · rw [h, Bool.false_and]
  unfold linTxFailed
  dsimp only
  rw [if_pos (show ((s.tick t).isLin m && (s.tick t).drives m && (reason == 1 || reason == 2)) = true from hc), hs']
  dsimp only
  rw [show ((s.tick t).linActive m).onLin m (fun l => { l with sending := none, hdr := none }) = x from hx.symm, if_neg (by rw [hk]; decide)]

/-! ### Covered updates outside the processing -/

/-- A covered field update that nothing holds is made at once (R76). -/
theorem applyHeld_cPut {x : State} (h : x.held = []) (a lo w v : Nat) : (x.cPut a lo w v).applyHeld = x.setFld a lo w v := by
  have h' : (x.cPut a lo w v).held = [.put a lo w v] := by
    show x.held ++ [_] = _
    rw [h]
    rfl
  have : (x.cPut a lo w v).applyHeld = { x.setFld a lo w v with held := [] } := by
    unfold State.applyHeld
    rw [h']
    rfl
  rw [this]
  show _ = ({ x.setFld a lo w v with held := x.held } : State)
  rw [h]

/-! ### Control writes that wait for their slot boundary (R220) -/

theorem linCtl_step (s : State) (c m : Nat) (tb : Option Nat) (run : Option Bool) (sleep : Bool) : TenonStep m [] s (s.linCtl c m tb run sleep) :=
  .onLin m s fun l => { l with ctl := l.ctl ++ [(s.epochStart (c + s.ep.lag + 2), tb, run, sleep)] }

theorem mort_linCtl {s : State} {m : Nat} (c : Nat) (tb : Option Nat) (run : Option Bool) (sleep : Bool) (h : m < s.mz.length) :
    (s.linCtl c m tb run sleep).mort m =
      { s.mort m with lin := { (s.mort m).lin with ctl := (s.mort m).lin.ctl ++ [(s.epochStart (c + s.ep.lag + 2), tb, run, sleep)] } } :=
  mort_onLin (fun l => { l with ctl := l.ctl ++ [(s.epochStart (c + s.ep.lag + 2), tb, run, sleep)] }) h

/-- A control write that shows in LN_CTRL at once: `g` shows it, before and after. -/
theorem linCtl_shown {s y z : State} {m c : Nat} {tb : Option Nat} {run : Option Bool} {sleep : Bool} (hl : m < s.mz.length) (hy : RegsOnly [LN_CTRL m] s y)
    (hz : RegsOnly [LN_CTRL m] (y.linCtl c m tb run sleep) z) : TenonStep m [LN_CTRL m] s z ∧
      z.mort m = { s.mort m with lin := { (s.mort m).lin with ctl := (s.mort m).lin.ctl ++ [(s.epochStart (c + s.ep.lag + 2), tb, run, sleep)] } } := by
  have hys : TenonStep m [LN_CTRL m] s y := .of_regs hy
  have hep : y.ep = s.ep := hys.fields.1
  have hes : y.epochStart (c + y.ep.lag + 2) = s.epochStart (c + s.ep.lag + 2) := by
    rw [hep]
    exact epochStart_congr hep (hy.same.rdN (by simp [EP_CTRL, LN_CTRL]; omega)) _
  refine ⟨hys.trans (((linCtl_step y c m tb run sleep).mono (by simp)).trans (.of_regs hz)), ?_⟩
  rw [hz.mort m, mort_linCtl c tb run sleep (by rw [hys.len]; exact hl), hes, hy.mort m]

end Sys2Proof.Machine

namespace Sys2Proof.Proofs
open Sys2Proof Sys2Proof.Machine

theorem linResponse_fails (s : State) (t m f reason : Nat) (hd : s.linDriving m) (h1 : 1 ≤ reason) (h5 : reason ≤ 5)
    (hlt : 3 ≤ reason ∨ (∃ h, (s.mort m).lin.hdr = some h ∧ h.fid = f ∧ h.start + s.linFrameMax m (s.linLen m f) ≤ t)) :
    (s.linEvtSlot m = false ∨ (reason ≠ 3 ∧ reason ≠ 5) → After (.linResponseError t m f reason) s fun u =>
      stampedOne s u 2 m .event (padTo 16 [2, BitVec.ofNat 8 reason, BitVec.ofNat 8 f]) ∧ u.rdN (MZ_CNT m 2) = (s.rdN (MZ_CNT m 2) + 1) % 2 ^ 32 ∧
      u.mort m = { s.mort m with lin := { (s.mort m).lin with hdr := none, act := max s.now t } } ∧ sameMorts m s u ∧ sameRegs [MZ_CNT m 2] s u) ∧
    (s.linEvtSlot m = true → (reason = 3 ∨ reason = 5) → After (.linResponseError t m f reason) s fun u =>
      u.ep = s.ep ∧ u.mort m = { s.mort m with lin := { (s.mort m).lin with hdr := none, act := max s.now t, coll := true } } ∧ sameMorts m s u ∧ sameRegs [MZ_CNT m 2] s u) := by
  have hl := linDriving_len hd t
  obtain ⟨a, ha⟩ : ∃ a, a = (s.tick t).inc (MZ_CNT m 2) := ⟨_, rfl⟩
  have hao : RegsOnly [MZ_CNT m 2] (s.tick t) a := by rw [ha]; exact (RegsOnly.refl [MZ_CNT m 2] _).inc (List.mem_singleton_self _) 1
  have hacnt : a.rdN (MZ_CNT m 2) = (s.rdN (MZ_CNT m 2) + 1) % 2 ^ 32 := by
    rw [ha]
    exact rdN_inc_same ..
  have has : TenonStep m [MZ_CNT m 2] (s.tick t) a := .of_regs hao
  obtain ⟨x, hx⟩ : ∃ x, x = a.linEnded m (fun l => { l with hdr := none }) := ⟨_, rfl⟩
  have hxs : TenonStep m [MZ_CNT m 2] (s.tick t) x := by rw [hx]; exact has.trans ((linEnded_step _ _ _).mono (by simp))
  have hxm : x.mort m = { s.mort m with lin := { (s.mort m).lin with hdr := none, act := max s.now t } } := by
    rw [hx, mort_linEnded _ (by rw [has.len]; exact hl), hao.mort m, has.fields.2.1]
    rfl
  have hxcnt : x.rdN (MZ_CNT m 2) = (s.rdN (MZ_CNT m 2) + 1) % 2 ^ 32 := by
    rw [hx]
    exact hacnt
  have hev : x.linEvtSlot m = s.linEvtSlot m :=
    linEvtSlot_congr (s := s.tick t) hxs (by simp only [List.mem_singleton]; unfold LN_CFG MZ_CNT; omega) (fun i => by simp only [List.mem_singleton]; unfold LN_SCH MZ_CNT; omega) (by rw [hxm]; rfl) (by rw [hxm]; rfl)
  have e := linResponseError_eq (linDriving_isLin hd) h1 h5 hlt (x := x) (by rw [hx, ha])
  rw [hev] at e
  refine ⟨fun hno => ?_, fun hyes hr => ?_⟩
  · rw [if_neg (by
      rcases hno with h | ⟨h3, h5⟩
      · rw [h]
        simp
      · rw [beq_eq_false_iff_ne.mpr h3, beq_eq_false_iff_ne.mpr h5]
        simp)] at e
    exact after_linReport (t := t) 2 reason f false hd rfl e hxs fun u hst hrd hm hsm hsr => ⟨hst, (hrd _).trans hxcnt, hm.trans hxm, hsm, hsr⟩
  · rw [hyes, if_pos (by rcases hr with rfl | rfl <;> rfl)] at e
    have hys : TenonStep m [MZ_CNT m 2] (s.tick t) (x.onLin m fun l => { l with coll := true }) := hxs.trans ((TenonStep.onLin m x _).mono (by simp))
    have hym : (x.onLin m fun l => { l with coll := true }).mort m = { s.mort m with lin := { (s.mort m).lin with hdr := none, act := max s.now t, coll := true } } := by
      rw [mort_onLin _ (by rw [hxs.len]; exact hl), hxm]
    exact after_tenon (w := s.tick t) rfl e rfl hys fun b _ _ => ⟨hys.fields.1, hym, hys.same, hys.regs⟩

theorem linCollision_reported (s : State) (t m f rtab slot e : Nat) (hd : s.linDriving m) (hev : s.linEvtSlot m = true)
    (hent : s.linEntry m (s.mort m).lin.slot.1 (s.mort m).lin.slot.2 = (f, 2, rtab, slot)) (hend : (s.mort m).lin.slotEnd = some e) :
    (e ≤ t → After (.linEventCollision t m) s fun u =>
      stampedOne s u 2 m .event (padTo 16 [3, 0, BitVec.ofNat 8 f]) ∧
      u.mort m = { s.mort m with lin := { (s.mort m).lin with resolve := some rtab, coll := false } } ∧ sameMorts m s u ∧ sameRegs [] s u) ∧
    (t < e → After (.linEventCollision t m) s fun u =>
      u.mort m = { s.mort m with lin := { (s.mort m).lin with coll := true } } ∧ sameMorts m s u ∧ u = { s with now := max s.now t, mz := u.mz, hb := u.hb }) := by
  have hl := linDriving_len hd t
  have h1 : ¬(!(s.tick t).linEvtSlot m) = true := by
    show ¬(!s.linEvtSlot m) = true
    rw [hev]
    decide
  have h2 : ((s.tick t).mort m).lin.slotEnd = some e := hend
  refine ⟨fun he => ?_, fun he => ?_⟩
  · obtain ⟨-, -, -, hst, hdr, -, hcur⟩ := hd
    obtain ⟨x, hx⟩ : ∃ x, x = (s.tick t).onLin m (fun l => { l with coll := false }) := ⟨_, rfl⟩
    have hxs : TenonStep m [] (s.tick t) x := by rw [hx]; exact .onLin m _ _
    have hxm : x.mort m = { s.mort m with lin := { (s.mort m).lin with coll := false } } := by
      rw [hx]
      exact mort_onLin (fun l => { l with coll := false }) hl
    obtain ⟨n, hn⟩ : ∃ n : Input, n = { cls := 2, port := m, kind := .event, octets := padTo 16 [3, 0, BitVec.ofNat 8 f] } := ⟨_, rfl⟩
    obtain ⟨hstamp, hf⟩ := stampIn_after hxs n hcur
    have hrep : x.linReport m 3 0 f false = x.stampIn n := by
      rw [hn]
      exact linReport_driven (hxs.drives.trans hdr) (hxs.tenon.2.1.trans hst) 3 0 f false
    have hent' : (s.tick t).linEntry m ((s.tick t).mort m).lin.slot.1 ((s.tick t).mort m).lin.slot.2 = (f, 2, rtab, slot) := hent
    obtain ⟨z, hz⟩ : ∃ z, z = x.stampIn n := ⟨_, rfl⟩
    have e' : linEventCollision t m s = z.onLin m fun l => { l with resolve := some rtab } := by
      unfold linEventCollision
      dsimp only
      rw [if_neg h1, h2, if_pos (show (some e).any (fun e => decide (e ≤ t)) = true from decide_eq_true he)]
      unfold State.linCollide
      dsimp only
      rw [hent']
      dsimp only
      rw [← hx, hrep, ← hz]
      refine if_pos ?_
      rw [hz, hf]
      exact hxs.drives.trans hdr
    rw [← hz] at hstamp hf
    have hzm : z.mort m = x.mort m := by
      rw [hf]
      rfl
    have hzl : m < z.mz.length := by
      rw [hf]
      exact hxs.len.symm ▸ hl
    have hys : TenonStep m [] z (z.onLin m fun l => { l with resolve := some rtab }) := .onLin m z _
    have hzr : ∀ a, z.rd a = x.rd a := fun a => rd_congr (by rw [hf]) a
    have hb : (z.onLin m fun l => { l with resolve := some rtab }).hb = s.hb := by
      rw [hys.frame, hf, hxs.frame]
      rfl
    refine after_hb rfl e' hb fun b hb => ?_
    refine ⟨?_, (mort_onLin (fun l => { l with resolve := some rtab }) hzl).trans (by rw [hzm, hxm]), fun j _ hj => ?_, fun a _ => (hzr a).trans (hxs.regs a (by simp))⟩
    · rw [hn] at hstamp
      exact hstamp
    · refine (hys.others j hj).trans (Eq.trans ?_ (hxs.others j hj))
      rw [hf]
      rfl
  · have e' : linEventCollision t m s = (s.tick t).onLin m fun l => { l with coll := true } := by
      unfold linEventCollision
      dsimp only
      rw [if_neg h1, h2, if_neg (show ¬(some e).any (fun e => decide (e ≤ t)) = true by rw [Option.any_some, decide_eq_false (Nat.not_le.mpr he)]; decide)]
    have hys : TenonStep m [] (s.tick t) ((s.tick t).onLin m fun l => { l with coll := true }) := .onLin m _ _
    exact after_tenon (w := s.tick t) rfl e' rfl hys fun b _ hframe => ⟨mort_onLin (fun l => { l with coll := true }) hl, hys.same, hframe⟩

theorem linOwn_ends (s : State) (t m f a : Nat) (d : Octets) (hd : s.linDriving m) (hsend : (s.mort m).lin.sending = some (f, d, a)) :
    (f ≠ 0x3C ∨ oct d 0 ≠ 0 → After (.linTransmitConfirm t m) s fun u =>
      stampedOne s u 2 m .event (padTo 16 [1, 0, BitVec.ofNat 8 f]) ∧
      u.mort m = { s.mort m with lin := { (s.mort m).lin with sending := none, hdr := none, act := max s.now t } } ∧ sameMorts m s u ∧ sameRegs [] s u) ∧
    (∀ reason, (reason = 1 ∨ reason = 2) → (reason = 2 ∨ s.linEvtSlot m = false) → After (.linTxFailed t m reason) s fun u =>
      stampedOne s u 2 m .event (padTo 16 [6, BitVec.ofNat 8 reason, BitVec.ofNat 8 f]) ∧
      u.mort m = { s.mort m with lin := { (s.mort m).lin with sending := none, hdr := none, act := max s.now t } } ∧ sameMorts m s u ∧ sameRegs [] s u) := by
  have hl := linDriving_len hd t
  have hlin := linDriving_isLin hd
  obtain ⟨x, hx⟩ : ∃ x, x = (s.tick t).linEnded m (fun l => { l with sending := none, hdr := none }) := ⟨_, rfl⟩
  have hxs : TenonStep m [] (s.tick t) x := by rw [hx]; exact linEnded_step _ _ _
  have hxm : x.mort m = { s.mort m with lin := { (s.mort m).lin with sending := none, hdr := none, act := max s.now t } } := by
    rw [hx]
    exact mort_linEnded (s := s.tick t) (fun l => { l with sending := none, hdr := none }) hl
  obtain ⟨-, -, -, hst, hdr, hq, hcur⟩ := id hd
  have hgo : ∀ (code reason fid : Nat), (x.linReport m code reason fid true).letGo m = x.linReport m code reason fid true := fun code reason fid => by
    rw [linReport_driven (hxs.drives.trans hdr) (hxs.tenon.2.1.trans hst)]
    obtain ⟨-, hf⟩ := stampIn_after hxs { cls := 2, port := m, kind := .event, octets := padTo 16 [BitVec.ofNat 8 code, BitVec.ofNat 8 reason, BitVec.ofNat 8 fid] } hcur
    refine letGo_driving ?_ ?_
    · rw [hf]
      exact hxs.drives.trans hdr
    · rw [hf]
      show x.wk.quiesce = false
      rw [hxs.fields.2.2.2.2]
      exact hq
  refine ⟨fun hsl => ?_, fun reason hr hev => ?_⟩
  · have hs' : ((s.tick t).mort m).lin.sending = some (f, d, a) := hsend
    have hslp : (f == 0x3C && oct d 0 == 0) = false := by
      rcases hsl with h | h
      · rw [beq_eq_false_iff_ne.mpr h, Bool.false_and]
      · rw [beq_eq_false_iff_ne.mpr h, Bool.and_false]
    have e : linTransmitConfirm t m s = x.linReport m 1 0 f true := by
      unfold linTransmitConfirm
      dsimp only
      rw [hs']
      dsimp only
      rw [if_neg (by show ¬(!s.isLin m || !s.drives m) = true; rw [hlin, hdr]; decide), hslp, if_neg (by decide), hx]
      rfl
    have e' : (linTransmitConfirm t m s).letGo m = x.linReport m 1 0 f true := by rw [e, hgo]
    exact after_linReport (t := t) 1 0 f true hd rfl e' hxs fun u hst _ hm hsm hsr => ⟨hst, hm.trans hxm, hsm, hsr⟩
  · have hxev : x.linEvtSlot m = s.linEvtSlot m := linEvtSlot_congr (s := s.tick t) hxs (by simp) (by simp) (by rw [hxm]; rfl) (by rw [hxm]; rfl)
    have e := linTxFailed_eq (t := t) hlin hdr hsend hr hx (by rw [hxev]; exact hev)
    have e' : (linTxFailed t m reason s).letGo m = x.linReport m 6 reason f true := by rw [e, hgo]
    exact after_linReport (t := t) 6 reason f true hd rfl e' hxs fun u hst _ hm hsm hsr => ⟨hst, hm.trans hxm, hsm, hsr⟩

theorem linBus_reports (s : State) (t m : Nat) (hd : s.linDriving m) :
    (s.bit (LN_STATUS m) 3 = false → (s.mort m).lin.act + s.fld (LN_TIMEO m) 0 14 * 1000000 ≤ t → After (.linBusIdleTimeout t m) s fun u =>
      stampedOne s u 2 m .event (padTo 16 [4, 2, 0xFF]) ∧ u.mort m = { s.mort m with lin := { (s.mort m).lin with act := max s.now t } } ∧ sameMorts m s u ∧ sameRegs [] s u) ∧
    (∀ us, s.bit (LN_STATUS m) 3 = true → 150 ≤ us → After (.linWakePulseReceived t m us) s fun u =>
      stampedOne s u 2 m .event (padTo 16 [5, 0, 0xFF]) ∧ u.mort m = { s.mort m with lin := { (s.mort m).lin with act := max s.now t } } ∧ sameMorts m s u ∧ sameRegs [] s u) := by
  have hlin := linDriving_isLin hd
  have hxs : TenonStep m [] (s.tick t) ((s.tick t).linActive m) := .onLin m (s.tick t) fun l => { l with act := (s.tick t).now }
  have hxm := mort_linActive (s := s.tick t) (linDriving_len hd t)
  refine ⟨fun hsl hi => ?_, fun us hsl hu => ?_⟩
  · have e : linBusIdleTimeout t m s = ((s.tick t).linActive m).linReport m 4 2 0xFF false := by
      refine if_pos ?_
      show (s.isLin m && !s.bit (LN_STATUS m) 3 && decide ((s.mort m).lin.act + s.fld (LN_TIMEO m) 0 14 * 1000000 ≤ t)) = true
      rw [hlin, hsl, decide_eq_true hi]
      rfl
    exact after_linReport (t := t) 4 2 0xFF false hd rfl e hxs fun u hst _ hm hsm hsr => ⟨hst, hm.trans hxm, hsm, hsr⟩
  · have e : linWakePulseReceived t m us s = ((s.tick t).linActive m).linReport m 5 0 0xFF false := by
      refine if_pos ?_
      show (s.isLin m && s.bit (LN_STATUS m) 3 && decide (us ≥ 150)) = true
      rw [hlin, hsl, decide_eq_true hu]
      rfl
    exact after_linReport (t := t) 5 0 0xFF false hd rfl e hxs fun u hst _ hm hsm hsr => ⟨hst, hm.trans hxm, hsm, hsr⟩

theorem linControl_waits (s : State) (c m : Nat) (hd : s.linDriving m) (ht : s.takesCommands) (hwin : (s.mort m).window = none) :
    (∀ table < 4, After (.linTableWrite c m table) s fun u =>
      u.mort m = { s.mort m with lin := { (s.mort m).lin with ctl := (s.mort m).lin.ctl ++ [(s.epochStart (c + s.ep.lag + 2), some table, none, false)] } } ∧ sameMorts m s u ∧
      u.fld (LN_CTRL m) 0 2 = table ∧ sameRegs [LN_CTRL m] s u ∧ u = { s with regs := u.regs, mz := u.mz, hb := u.hb } ∧ sameBridge s u) ∧
    (∀ run : Bool, After (.linRunWrite c m run) s fun u =>
      u.mort m = { s.mort m with lin := { (s.mort m).lin with ctl := (s.mort m).lin.ctl ++ [(s.epochStart (c + s.ep.lag + 2), none, some run, false)] } } ∧ sameMorts m s u ∧
      u.bit (LN_CTRL m) 2 = run ∧ sameRegs [LN_CTRL m] s u ∧ u = { s with regs := u.regs, mz := u.mz, hb := u.hb } ∧ sameBridge s u) ∧
    (s.bit (LN_CFG m) 0 = true → After (.linSleepCommand c m) s fun u =>
      u.mort m = { s.mort m with lin := { (s.mort m).lin with ctl := (s.mort m).lin.ctl ++ [(s.epochStart (c + s.ep.lag + 2), none, none, true)] } } ∧ sameMorts m s u ∧
      u = { s with mz := u.mz, hb := u.hb } ∧ sameBridge s u) ∧
    (s.bit (LN_CFG m) 0 = false → After (.linSleepCommand c m) s fun u => u = { s with hb := u.hb } ∧ sameBridge s u) := by
  have hlin := linDriving_isLin hd
  obtain ⟨hm, hz, hten, hst, -⟩ := hd
  have hl : m < s.mz.length := by omega
  refine ⟨fun table htab => ?_, fun run => ?_, fun hcfg => ?_, fun hcfg => ?_⟩
  · have hy : RegsOnly [LN_CTRL m] s (s.setFld (LN_CTRL m) 0 2 table) := (RegsOnly.refl _ s).setFld (by simp) 0 2 table
    obtain ⟨hxs, hxm⟩ := linCtl_shown (c := c) (tb := some table) (run := none) (sleep := false) hl hy ((RegsOnly.refl _ _).setFld (List.mem_singleton_self _) 0 2 table)
    have e : (linTableWrite c m (table % 4) s).setFld (LN_CTRL m) 0 2 table =
        ((s.setFld (LN_CTRL m) 0 2 table).linCtl c m (some table) none false).setFld (LN_CTRL m) 0 2 table := by
      unfold linTableWrite
      rw [if_pos hlin, Nat.mod_mod, Nat.mod_eq_of_lt htab]
    exact after_tenonCommand (w := s) rfl ht rfl hm hwin hten hst e hxs fun b hb hframe =>
      ⟨hxm, hxs.same, (fld_setFld_same _ _ _ _ _ (by decide)).trans (Nat.mod_eq_of_lt htab), hxs.regs, hframe, hb⟩
  · have hy : RegsOnly [LN_CTRL m] s (s.setBit (LN_CTRL m) 2 run) := (RegsOnly.refl _ s).setBit (by simp) 2 run
    obtain ⟨hxs, hxm⟩ := linCtl_shown (c := c) (tb := none) (run := some run) (sleep := false) hl hy ((RegsOnly.refl _ _).setBit (List.mem_singleton_self _) 2 run)
    have e : (linRunWrite c m run s).setBit (LN_CTRL m) 2 run = ((s.setBit (LN_CTRL m) 2 run).linCtl c m none (some run) false).setBit (LN_CTRL m) 2 run := by
      unfold linRunWrite
      rw [if_pos hlin]
    exact after_tenonCommand (w := s) rfl ht rfl hm hwin hten hst e hxs fun b hb hframe =>
      ⟨hxm, hxs.same, (bit_setBit _ _ _ _ _ (by decide)).trans (if_pos rfl), hxs.regs, hframe, hb⟩
  · have hxs := linCtl_step s c m none none true
    have e : linSleepCommand c m s = s.linCtl c m none none true := if_pos (by rw [hlin, hcfg]; rfl)
    exact after_tenonCommand (w := s) rfl ht rfl hm hwin hten hst e hxs fun b hb hframe => ⟨mort_linCtl c none none true hl, hxs.same, hframe, hb⟩
  · have e : linSleepCommand c m s = s := if_neg (by rw [hlin, hcfg]; decide)
    exact after_tenonCommand (w := s) rfl ht rfl hm hwin hten hst e (.refl m [] s) fun b hb hframe => ⟨rfl, hb⟩

theorem linWake_requested (s : State) (c m : Nat) (hd : s.linDriving m) (ht : s.takesCommands) (hwin : (s.mort m).window = none) (hrun : s.ep.running = none) :
    After (.linWakeRequest c m) s fun u =>
      u.mort m = { s.mort m with lin := { (s.mort m).lin with act := s.now, pulse := some (s.now + s.fld (LN_TIMEO m) 16 9 * 10000) } } ∧ sameMorts m s u ∧
      u.bit (LN_STATUS m) 3 = false ∧ sameRegs [LN_STATUS m] s u ∧ u = { s with regs := u.regs, mz := u.mz, hb := u.hb } ∧ sameBridge s u := by
  have hlin := linDriving_isLin hd
  obtain ⟨hm, hz, hten, hst, hdr, -⟩ := hd
  obtain ⟨hdie, hat, hh⟩ := ht
  have hl : m < s.mz.length := by omega
  obtain ⟨x, hx⟩ : ∃ x, x = (s.linActive m).onLin m (fun l => { l with pulse := some (s.now + s.fld (LN_TIMEO m) 16 9 * 10000) }) := ⟨_, rfl⟩
  have hxs : TenonStep m [] s x := by rw [hx]; exact linEnded_step _ _ _
  have hxm : x.mort m = { s.mort m with lin := { (s.mort m).lin with act := s.now, pulse := some (s.now + s.fld (LN_TIMEO m) 16 9 * 10000) } } := by
    rw [hx]
    exact mort_linEnded (fun l => { l with pulse := some (s.now + s.fld (LN_TIMEO m) 16 9 * 10000) }) hl
  have hxh : x.held = [] := by
    rw [hxs.frame]
    exact hh
  have hy : tenonCommand c m .lin (linWakeRequest m) s = x.cPut (LN_STATUS m) 3 1 0 := by
    rw [tenonCommand_runs hm hwin hten hst, hx]
    unfold linWakeRequest
    rw [if_pos hlin, if_pos hdr]
  have hyr : (x.cPut (LN_STATUS m) 3 1 0).ep.running = none := by
    show x.ep.running = none
    rw [hxs.fields.1]
    exact hrun
  have e : s.processed false (tenonCommand c m .lin (linWakeRequest m)) = x.setBit (LN_STATUS m) 3 false := by
    unfold State.processed
    rw [hdie, hat, hy, hyr]
    exact applyHeld_cPut hxh (LN_STATUS m) 3 1 0
  have ho : RegsOnly [LN_STATUS m] x (x.setBit (LN_STATUS m) 3 false) := (RegsOnly.refl _ x).setBit (by simp) 3 false
  have hzs : TenonStep m [LN_STATUS m] s (x.setBit (LN_STATUS m) 3 false) := (hxs.mono (by simp)).trans (.of_regs ho)
  exact after_tenon (w := s) rfl e rfl hzs fun b hb hframe =>
    ⟨(ho.mort m).trans hxm, hzs.same, (bit_setBit _ _ _ _ _ (by decide)).trans (if_pos rfl), hzs.regs, hframe, hb⟩

/-- Settles O42: each event by the report that ends it, each processed command by what it leaves to the slot boundary. -/
theorem linEventsAndCommands : Obligations.LinEventsAndCommands :=
  ⟨fun s t m f hd _ => ⟨fun reason h1 h5 hlt => linResponse_fails s t m f reason hd h1 h5 hlt,
      fun rtab slot e hev hent hend => linCollision_reported s t m f rtab slot e hd hev hent hend,
      fun d a hsend => linOwn_ends s t m f a d hd hsend, (linBus_reports s t m hd).1, (linBus_reports s t m hd).2⟩,
    fun s c m hd ht hwin => by
      obtain ⟨htab, hrun, hslp, hresp⟩ := linControl_waits s c m hd ht hwin
      exact ⟨htab, hrun, hslp, hresp, linWake_requested s c m hd ht hwin⟩⟩

end Sys2Proof.Proofs
end

section
/-! PROOFS. The T1S tenons: frames, PLCA, transmit opportunities, and the integrated PHY (R226 to R238). -/
set_option Elab.async false
namespace Sys2Proof.Machine
open Sys2Proof

/-! ### Steps of a T1S tenon -/

theorem TenonStep.onT1s (m : Nat) (s : State) (f : T1sSt → T1sSt) : TenonStep m [] s (s.onT1s m f) := by
  refine ⟨rfl, sameRegs.of_regs rfl, fun j hj => mort_onMort_ne s _ hj, updAt_length .., ?_⟩
  unfold State.onT1s
  rw [mort_onMort]
  split <;> rfl

theorem mort_onT1s {s : State} {m : Nat} (f : T1sSt → T1sSt) (h : m < s.mz.length) : (s.onT1s m f).mort m = { s.mort m with t1s := f (s.mort m).t1s } :=
  mort_onMort_same s _ h

theorem t1sDriving_isT1s {s : State} {m : Nat} (h : s.t1sDriving m) : s.isT1s m = true := by
  obtain ⟨-, -, hten, hst, -⟩ := h
  rw [State.isT1s, hten, hst]
  rfl

theorem t1sDriving_len {s : State} {m : Nat} (h : s.t1sDriving m) (t : Nat) : m < (s.tick t).mz.length := by
  obtain ⟨hm, hz, -⟩ := h
  show m < s.mz.length
  omega

/-- A driving tenon that steps keeps its pins (R107, R474). -/
theorem letGo_step {s x : State} {m : Nat} {l : List Nat} (t : Nat) (hd : s.t1sDriving m) (hx : TenonStep m l (s.tick t) x) : x.letGo m = x := by
  obtain ⟨-, -, -, -, hdr, hq, -⟩ := hd
  exact letGo_driving (hx.drives.trans hdr) (by rw [hx.fields.2.2.2.2]; exact hq)

/-! ### Reports (R230) -/

/-- The event record of a tenon in state `x`: CODE, REASON and STATE. -/
def t1sEventRec (code reason : Nat) (x : T1sSt) : Octets :=
  padTo 16 [BitVec.ofNat 8 code, BitVec.ofNat 8 reason, BitVec.ofNat 8 (b2n x.plca + 2 * b2n x.disc)]

theorem t1sEventRec_head (code reason : Nat) (x : T1sSt) : (t1sEventRec code reason x).take 2 = [BitVec.ofNat 8 code, BitVec.ofNat 8 reason] := rfl

/-- The input of an event of mortise `m`. -/
def eventIn (m : Nat) (o : Octets) : Input := { cls := 2, port := m, kind := .event, octets := o }

theorem t1sReport_driven {s : State} {m : Nat} (hd : s.drives m = true) (hst : (s.mort m).st = .inService) (code reason : Nat) (drive : Bool) :
    s.t1sReport m code reason drive = s.stampIn (eventIn m (t1sEventRec code reason (s.mort m).t1s)) := by
  unfold State.t1sReport
  dsimp only
  rw [hd, hst]
  cases drive <;> rfl

theorem t1sReport_step {s x : State} {t m : Nat} {l : List Nat} (hd : s.t1sDriving m) (hx : TenonStep m l (s.tick t) x) (code reason : Nat) (drive : Bool) :
    x.t1sReport m code reason drive = x.stampIn (eventIn m (t1sEventRec code reason (x.mort m).t1s)) := by
  obtain ⟨-, -, -, hst, hdr, -⟩ := hd
  exact t1sReport_driven (hx.drives.trans hdr) (hx.tenon.2.1.trans hst) code reason drive

/-- Stamping an input and changing a tenon do not meet. -/
theorem onT1s_stampIn (s : State) (n : Input) (m : Nat) (f : T1sSt → T1sSt) : (s.stampIn n).onT1s m f = (s.onT1s m f).stampIn n := by
  unfold State.stampIn
  rw [show (s.onT1s m f).epochNow = s.epochNow from rfl]
  cases s.epochNow <;> rfl

theorem letGo_stampIn {s x : State} {t m : Nat} {l : List Nat} (hd : s.t1sDriving m) (hx : TenonStep m l (s.tick t) x) (n : Input) : (x.stampIn n).letGo m = x.stampIn n := by
  obtain ⟨-, -, -, -, hdr, hq, hcur⟩ := hd
  obtain ⟨-, hf⟩ := stampIn_after hx n hcur
  refine letGo_driving ?_ ?_
  · rw [hf]
    exact hx.drives.trans hdr
  · rw [hf]
    show x.wk.quiesce = false
    rw [hx.fields.2.2.2.2]
    exact hq

/-- A command that ends in one input stamped by a driving tenon. -/
theorem after_t1sStamp {i : Instr} {s x y : State} {t m : Nat} {l : List Nat} {P : State → Prop} (n : Input) (hd : s.t1sDriving m) (h : exec i s = .next (s.settle y))
    (e : y = x.stampIn n) (hx : TenonStep m l (s.tick t) x)
    (k : ∀ u : State, stampedOne s u n.cls n.port n.kind n.octets → (∀ a, u.rdN a = x.rdN a) → u.mz = x.mz → sameMorts m s u → sameRegs l s u → P u) : After i s P := by
  obtain ⟨-, -, -, -, -, -, hcur⟩ := hd
  refine after_oneStamp (w := s.tick t) n h e rfl hx hcur fun u hu hstamp _ => ?_
  have hrd : ∀ a, u.rd a = x.rd a := fun a => rd_congr (by rw [hu]) a
  have hmz : u.mz = x.mz := by rw [hu]
  exact k u hstamp (fun a => congrArg BitVec.toNat (hrd a)) hmz (fun j _ hj => (congrArg (fun z => nth z j) hmz).trans (hx.others j hj))
    fun a ha => (hrd a).trans (hx.regs a ha)

/-! ### Transmit opportunities (R229) -/

/-- Where the first frame of the queue is not sent, it is the first that waits. -/
theorem waiting_cons {x : T1sSt} {e : Egress} {rest : List (Egress × Bool × Bool)} (h : x.queue = (e, false, false) :: rest) : ∃ l, x.waiting = 0 :: l := by
  unfold T1sSt.waiting
  rw [h, List.length_cons, List.range_succ_eq_map]
  exact ⟨_, List.filter_cons_of_pos rfl⟩

/-- A phase of a transmit opportunity of a driving tenon whose first queued frame waits. -/
theorem t1sTransmitOpportunity_eq {s : State} {t m : Nat} {e : Egress} {rest : List (Egress × Bool × Bool)} (hd : s.t1sDriving m) (hdisc : (s.mort m).t1s.disc = false)
    (hq : (s.mort m).t1s.queue = (e, false, false) :: rest) (ph : T1sTx) :
    t1sTransmitOpportunity t m ph s =
      let plca := s.bit (T1_CFG m) 0 && (s.mort m).t1s.plca
      let may := !((s.mort m).t1s.waking.any fun e => t < e)
      match ph with
      | .start =>
        if !may || (s.mort m).t1s.burst != 0 then s.tick t
        else (s.tick t).onT1s m (fun x => { x with burst := if plca then min x.waiting.length (s.fld (T1_PLCA m) 24 8 + 1) else 1 })
      | .sent =>
        if (s.mort m).t1s.burst == 0 then s.tick t
        else ((s.tick t).t1sSendOne m 0).onT1s m (fun x => { x with attempts := 0, burst := if may then x.burst - 1 else 0 })
      | .collided =>
        if (s.mort m).t1s.burst == 0 then s.tick t else
        let y := (((s.tick t).inc (T1_CNT m 3)).evt (MZ_EVENT m) 22).onT1s m (fun x => { x with burst := 0 })
        if plca then y
        else if (s.mort m).t1s.attempts + 1 < 16 then y.onT1s m (fun x => { x with attempts := x.attempts + 1 })
        else (y.onT1s m (fun x => { x with attempts := 0, queue := updAt x.queue 0 (fun q => (q.1, true, q.2.2)) })).t1sReport m 2 1 true := by
  have ht := t1sDriving_isT1s hd
  obtain ⟨-, -, -, hst, hdr, hqs, -⟩ := hd
  obtain ⟨l, hl⟩ := waiting_cons hq
  have hl' : ((s.tick t).mort m).t1s.waiting = 0 :: l := hl
  have hmay : (((s.tick t).mort m).st == .inService && !(s.tick t).wk.quiesce) = true := by
    show ((s.mort m).st == .inService && !s.wk.quiesce) = true
    rw [hst, hqs]
    rfl
  unfold t1sTransmitOpportunity
  dsimp only
  rw [hl', hmay, if_neg (by
    show ¬(!s.isT1s m || !s.drives m || (s.mort m).t1s.disc || (0 :: l).isEmpty) = true
    rw [ht, hdr, hdisc]
    exact Bool.false_ne_true), Bool.true_and] <;> rfl

/-! ### Several inputs stamped one after another -/

/-- Inputs have been stamped, of these ports and first two octets, and nothing else has changed outside the epoch engine. -/
def stampedAll (s z : State) (l : List (Nat × Octets)) : Prop :=
  z = { s with ep := z.ep } ∧ z.ep.cur = s.ep.cur ∧ ∃ ins, z.ep.handing = s.ep.handing ++ ins ∧ ins.map (fun x => (x.port, x.octets.take 2)) = l

theorem stampedAll.refl (s : State) : stampedAll s s [] := ⟨rfl, rfl, [], (List.append_nil _).symm, rfl⟩

theorem stampedAll.trans {s y z : State} {l k : List (Nat × Octets)} (h : stampedAll s y l) (g : stampedAll y z k) : stampedAll s z (l ++ k) := by
  obtain ⟨hf, hc, a, ha, hl⟩ := h
  obtain ⟨gf, gc, b, hb, gl⟩ := g
  refine ⟨?_, gc.trans hc, a ++ b, by rw [hb, ha, List.append_assoc], by rw [List.map_append, hl, gl]⟩
  obtain ⟨p, hp⟩ : ∃ p, p = y.ep := ⟨_, rfl⟩
  rw [← hp] at hf
  rw [hf] at gf
  exact gf

theorem stampedAll.stampIn {s : State} (n : Input) (h : s.ep.cur.isSome = true) : stampedAll s (s.stampIn n) [(n.port, n.octets.take 2)] := by
  obtain ⟨⟨x, hx, -, hp, -, ho, -, -, hep⟩, hf⟩ := stampIn_one n h
  refine ⟨by rw [hf], by rw [hep], [x], hx, ?_⟩
  rw [List.map_singleton, hp, ho]

/-- The reports of withdrawn frames of a driving tenon (R235). -/
theorem withdrawn_reported {s : State} {m : Nat} (hdr : s.drives m = true) (hst : (s.mort m).st = .inService) (hc : s.ep.cur.isSome = true) (k : Nat) :
    stampedAll s ((List.range k).foldl (fun s _ => s.t1sReport m 2 2 true) s) (List.replicate k (m, [2, 2])) := by
  induction k with
  | zero => exact .refl s
  | succ k ih =>
    obtain ⟨z, hz⟩ : ∃ z, z = (List.range k).foldl (fun s _ => s.t1sReport m 2 2 true) s := ⟨_, rfl⟩
    rw [List.range_succ, List.foldl_append, List.replicate_succ', ← hz]
    rw [← hz] at ih
    obtain ⟨hf, hcur, -⟩ := id ih
    have hzd : z.drives m = true := by rw [hf]; exact hdr
    have hzs : (z.mort m).st = .inService := by rw [hf]; exact hst
    refine ih.trans ?_
    show stampedAll z (z.t1sReport m 2 2 true) _
    rw [t1sReport_driven hzd hzs]
    exact .stampIn _ (by rw [hcur]; exact hc)

/-! ### The integrated PHY (R234, R235) -/

/-- The tenon of a PHY that disconnects at `t`, before its frames are withdrawn. -/
def State.t1sCut (s : State) (m t : Nat) (x : T1sSt) : T1sSt :=
  { x with
    disc := true, off := decide (s.fld (T1_PHY m) 4 4 ≤ (s.mort m).t1s.retries), holdAt := none, burst := 0, waking := none
    reconAt := if s.fld (T1_PHY m) 4 4 ≤ (s.mort m).t1s.retries then none else some (t + s.fld (T1_PHY m) 8 10 * 1000000) }

/-- The queue of a tenon whose frames are withdrawn. -/
def t1sEmptied (x : T1sSt) : T1sSt := { x with burst := 0, queue := x.queue.map fun q => (q.1, true, q.2.2) }

theorem phyDisconnect_limit {s : State} (t : Nat) {m : Nat} (hd : s.t1sDriving m) (hdisc : (s.mort m).t1s.disc = false) : phyDisconnect t m true s = (s.tick t).setBit (T1_STATUS m) 8 true := by
  have ht := t1sDriving_isT1s hd
  obtain ⟨-, -, hten, -⟩ := hd
  unfold phyDisconnect
  dsimp only
  rw [if_neg (by show ¬(!s.isT1s m || (s.mort m).tenon != .t1sInt || (s.mort m).t1s.disc) = true; rw [ht, hten, hdisc]; decide), if_pos rfl]

theorem phyDisconnect_cut {s : State} (t : Nat) {m : Nat} (hd : s.t1sDriving m) (hdisc : (s.mort m).t1s.disc = false) :
    phyDisconnect t m false s =
      (((((s.tick t).onT1s m (s.t1sCut m t)).setBit (T1_STATUS m) 8 false).setBit (T1_STATUS m) 9 true).t1sReport m 4
        (if s.fld (T1_PHY m) 4 4 ≤ (s.mort m).t1s.retries then 2 else 1) false).t1sWithdraw m := by
  have ht := t1sDriving_isT1s hd
  obtain ⟨-, -, hten, -⟩ := hd
  unfold phyDisconnect
  dsimp only
  rw [if_neg (by show ¬(!s.isT1s m || (s.mort m).tenon != .t1sInt || (s.mort m).t1s.disc) = true; rw [ht, hten, hdisc]; decide), if_neg Bool.false_ne_true]
  rfl

theorem t1sWithdraw_driven {s : State} {m : Nat} (hdr : s.drives m = true) (hdisc : (s.mort m).t1s.disc = true) :
    s.t1sWithdraw m = ((List.range (s.mort m).t1s.waiting.length).foldl (fun s _ => s.t1sReport m 2 2 true) s).onT1s m t1sEmptied := by
  unfold State.t1sWithdraw
  rw [if_neg (by rw [hdr, hdisc]; decide)]
  rfl

end Sys2Proof.Machine

namespace Sys2Proof.Proofs
open Sys2Proof Sys2Proof.Machine

theorem t1sFrame_received (s : State) (t m : Nat) (hd : s.t1sDriving m) (hdisc : (s.mort m).t1s.disc = false) :
    (∀ frame : Octets, 64 ≤ frame.length → frame.length ≤ s.fld (T1_CFG m) 16 14 → After (.t1sFrameReceived t m frame false) s fun u =>
      stampedOne s u 2 m .frame (t1sRecord frame) ∧ u.rdN (MZ_CNT m 1) = (s.rdN (MZ_CNT m 1) + 1) % 2 ^ 32 ∧ u.mz = s.mz ∧ sameRegs [MZ_CNT m 1] s u) ∧
    (∀ (frame : Octets) (fcsErr : Bool), (fcsErr = true ∨ frame.length < 64 ∨ s.fld (T1_CFG m) 16 14 < frame.length) → After (.t1sFrameReceived t m frame fcsErr) s fun u =>
      u.ep = s.ep ∧ u.mz = s.mz ∧ u.rdN (T1_CNT m 0) = (s.rdN (T1_CNT m 0) + 1) % 2 ^ 32 ∧ u.rdN (MZ_CNT m 2) = (s.rdN (MZ_CNT m 2) + 1) % 2 ^ 32 ∧
      u.bit (MZ_EVENT m) 21 = true ∧ sameRegs [T1_CNT m 0, MZ_CNT m 2, MZ_EVENT m] s u) := by
  have ht := t1sDriving_isT1s hd
  have hon : ¬(!(s.tick t).isT1s m || ((s.tick t).mort m).t1s.disc) = true := by
    show ¬(!s.isT1s m || (s.mort m).t1s.disc) = true
    rw [ht, hdisc]
    decide
  refine ⟨fun frame h64 hmax => ?_, fun frame fcsErr hbad => ?_⟩
  · obtain ⟨-, -, -, hst, hdr, -⟩ := id hd
    obtain ⟨x, hx⟩ : ∃ x, x = (s.tick t).inc (MZ_CNT m 1) := ⟨_, rfl⟩
    have hxo : RegsOnly [MZ_CNT m 1] (s.tick t) x := by rw [hx]; exact (RegsOnly.refl [MZ_CNT m 1] _).inc (List.mem_singleton_self _) 1
    have hxs : TenonStep m [MZ_CNT m 1] (s.tick t) x := .of_regs hxo
    have hno : (!x.drives m && (x.mort m).t1s.queue.any (fun q => q.1.octets == t1sRecord frame) || (x.mort m).st != .inService) = false := by
      rw [hxs.drives, hxs.tenon.2.1, show (s.tick t).drives m = true from hdr, show ((s.tick t).mort m).st = .inService from hst]
      rfl
    have e : t1sFrameReceived t m frame false s = x.stampIn { cls := 2, port := m, kind := .frame, octets := t1sRecord frame } := by
      unfold t1sFrameReceived
      dsimp only
      rw [if_neg hon, if_neg (by
        show ¬((false || decide (frame.length < 64) || decide (s.fld (T1_CFG m) 16 14 < frame.length)) = true)
        rw [decide_eq_false (Nat.not_lt.mpr h64), decide_eq_false (Nat.not_lt.mpr hmax)]
        decide), ← hx, hno]
      rfl
    refine after_t1sStamp (t := t) _ hd rfl e hxs fun u hst hrd hmz _ hsr => ⟨hst, (hrd _).trans ?_, hmz.trans (by rw [hxo.frame]; rfl), hsr⟩
    rw [hx]
    exact rdN_inc_same ..
  · obtain ⟨a, ha⟩ : ∃ a, a = (s.tick t).inc (T1_CNT m 0) := ⟨_, rfl⟩
    obtain ⟨b, hb⟩ : ∃ b, b = a.inc (MZ_CNT m 2) := ⟨_, rfl⟩
    obtain ⟨x, hx⟩ : ∃ x, x = b.evt (MZ_EVENT m) 21 := ⟨_, rfl⟩
    have hao : RegsOnly [T1_CNT m 0, MZ_CNT m 2, MZ_EVENT m] (s.tick t) a := by rw [ha]; exact (RegsOnly.refl [T1_CNT m 0, MZ_CNT m 2, MZ_EVENT m] _).inc (by simp) 1
    have hbo : RegsOnly [T1_CNT m 0, MZ_CNT m 2, MZ_EVENT m] (s.tick t) b := by rw [hb]; exact hao.inc (by simp) 1
    have hxo : RegsOnly [T1_CNT m 0, MZ_CNT m 2, MZ_EVENT m] (s.tick t) x := by rw [hx]; exact hbo.evt (by simp) 21
    have hc0 : x.rdN (T1_CNT m 0) = (s.rdN (T1_CNT m 0) + 1) % 2 ^ 32 := by
      rw [hx, rdN_evt_ne _ _ _ _ (by unfold T1_CNT MZ_EVENT; omega), hb, rdN_inc_ne _ _ _ _ (by unfold T1_CNT MZ_CNT; omega), ha]
      exact rdN_inc_same ..
    have hc2 : x.rdN (MZ_CNT m 2) = (s.rdN (MZ_CNT m 2) + 1) % 2 ^ 32 := by
      rw [hx, rdN_evt_ne _ _ _ _ (by unfold MZ_CNT MZ_EVENT; omega), hb, rdN_inc_same, ha, rdN_inc_ne _ _ _ _ (by unfold MZ_CNT T1_CNT; omega)]
      rfl
    have hbit : x.bit (MZ_EVENT m) 21 = true := by
      rw [hx]
      exact bit_evt_same _ _ _ (by decide)
    have hcond : (fcsErr || decide (frame.length < 64) || decide ((s.tick t).fld (T1_CFG m) 16 14 < frame.length)) = true := by
      rw [Bool.or_eq_true, Bool.or_eq_true, decide_eq_true_eq, decide_eq_true_eq, or_assoc]
      exact hbad
    have e : t1sFrameReceived t m frame fcsErr s = x := by
      unfold t1sFrameReceived
      dsimp only
      rw [if_neg hon, if_pos hcond, hx, hb, ha]
    exact after_tenon (m := m) (w := s.tick t) rfl e rfl (.of_regs hxo) fun b _ _ => ⟨by show x.ep = _; rw [hxo.frame]; rfl, by show x.mz = _; rw [hxo.frame]; rfl, hc0, hc2, hbit, hxo.same⟩

theorem plca_changes (s : State) (t m : Nat) (hd : s.t1sDriving m) (hdisc : (s.mort m).t1s.disc = false) :
    (s.bit (T1_CFG m) 0 = true → (s.mort m).t1s.plca = false → After (.plcaBeacon t m false) s fun u =>
      stampedOne s u 2 m .event (padTo 16 [3, 0, 1]) ∧ u.mort m = { s.mort m with t1s := { (s.mort m).t1s with plca := true, beaconAt := t } } ∧ sameMorts m s u ∧ sameRegs [] s u) ∧
    ((s.mort m).t1s.plca = true → (s.mort m).t1s.beaconAt + 400000 ≤ t → After (.plcaInactive t m) s fun u =>
      stampedOne s u 2 m .event (padTo 16 [3, 0, 0]) ∧ u.mort m = { s.mort m with t1s := { (s.mort m).t1s with plca := false } } ∧ sameMorts m s u ∧ sameRegs [] s u) := by
  have ht := t1sDriving_isT1s hd
  have hl := t1sDriving_len hd t
  refine ⟨fun hcfg hpl => ?_, fun hpl hb => ?_⟩
  · obtain ⟨x, hx⟩ : ∃ x, x = (s.tick t).onT1s m (fun x => { x with plca := true, beaconAt := t }) := ⟨_, rfl⟩
    have hxs : TenonStep m [] (s.tick t) x := by rw [hx]; exact .onT1s m _ _
    have hxm : x.mort m = { s.mort m with t1s := { (s.mort m).t1s with plca := true, beaconAt := t } } := by
      rw [hx]
      exact mort_onT1s (fun x => { x with plca := true, beaconAt := t }) hl
    have e : plcaBeacon t m false s = x.stampIn (eventIn m (t1sEventRec 3 0 (x.mort m).t1s)) := by
      have hpl' : ((s.tick t).mort m).t1s.plca = false := hpl
      rw [← t1sReport_step hd hxs 3 0 false]
      unfold plcaBeacon
      dsimp only
      rw [if_neg (by show ¬(!(s.isT1s m && s.bit (T1_CFG m) 0 && !(s.mort m).t1s.disc && (!false || _))) = true; rw [ht, hcfg, hdisc]; simp), hpl',
        if_neg Bool.false_ne_true, hx]
    have hrec : t1sEventRec 3 0 (x.mort m).t1s = padTo 16 [3, 0, 1] := by
      rw [hxm]
      unfold t1sEventRec
      dsimp only
      rw [hdisc]
      rfl
    rw [hrec] at e
    exact after_t1sStamp (t := t) _ hd rfl e hxs fun u hst _ hmz hsm hsr => ⟨hst, (congrArg (fun z => nth z m) hmz).trans hxm, hsm, hsr⟩
  · obtain ⟨x, hx⟩ : ∃ x, x = (s.tick t).onT1s m (fun x => { x with plca := false }) := ⟨_, rfl⟩
    have hxs : TenonStep m [] (s.tick t) x := by rw [hx]; exact .onT1s m _ _
    have hxm : x.mort m = { s.mort m with t1s := { (s.mort m).t1s with plca := false } } := by
      rw [hx]
      exact mort_onT1s (fun x => { x with plca := false }) hl
    have e : plcaInactive t m s = x.stampIn (eventIn m (t1sEventRec 3 0 (x.mort m).t1s)) := by
      rw [← t1sReport_step hd hxs 3 0 false, hx]
      refine if_pos ?_
      show (s.isT1s m && (s.mort m).t1s.plca && decide ((s.mort m).t1s.beaconAt + 400000 ≤ t)) = true
      rw [ht, hpl, decide_eq_true hb]
      rfl
    have hrec : t1sEventRec 3 0 (x.mort m).t1s = padTo 16 [3, 0, 0] := by
      rw [hxm]
      unfold t1sEventRec
      dsimp only
      rw [hdisc]
      rfl
    rw [hrec] at e
    exact after_t1sStamp (t := t) _ hd rfl e hxs fun u hst _ hmz hsm hsr => ⟨hst, (congrArg (fun z => nth z m) hmz).trans hxm, hsm, hsr⟩

theorem t1sOpportunity_sends (s : State) (t m : Nat) (e : Egress) (rest : List (Egress × Bool × Bool)) (hd : s.t1sDriving m) (hdisc : (s.mort m).t1s.disc = false)
    (hq : (s.mort m).t1s.queue = (e, false, false) :: rest) :
    ((s.mort m).t1s.burst = 0 → (∀ w, (s.mort m).t1s.waking = some w → w ≤ t) → After (.t1sTransmitOpportunity t m .start) s fun u =>
      u.mort m = { s.mort m with t1s := { (s.mort m).t1s with
        burst := if s.bit (T1_CFG m) 0 && (s.mort m).t1s.plca then min (s.mort m).t1s.waiting.length (s.fld (T1_PLCA m) 24 8 + 1) else 1 } } ∧
      sameMorts m s u ∧ u = { s with now := max s.now t, mz := u.mz, hb := u.hb } ∧ sameBridge s u) ∧
    ((s.mort m).t1s.burst ≠ 0 → (s.mort m).t1s.waking = none → After (.t1sTransmitOpportunity t m .sent) s fun u =>
      (u.mort m).t1s = { (s.mort m).t1s with queue := (e, true, false) :: rest, attempts := 0, burst := (s.mort m).t1s.burst - 1 } ∧
      (∃ o : Octets, stampedOne s u 2 m .event o ∧ o.take 2 = [1, 0]) ∧
      u.rdN (T1_CNT m 2) = (s.rdN (T1_CNT m 2) + 1) % 2 ^ 32 ∧ sameMorts m s u ∧ sameRegs [T1_CNT m 2] s u) := by
  have hl := t1sDriving_len hd t
  refine ⟨fun hb hw => ?_, fun hb hw => ?_⟩
  · obtain ⟨f, hf⟩ : ∃ f : T1sSt → T1sSt, f = fun x => { x with burst := if s.bit (T1_CFG m) 0 && (s.mort m).t1s.plca then min x.waiting.length (s.fld (T1_PLCA m) 24 8 + 1) else 1 } :=
      ⟨_, rfl⟩
    have hxs : TenonStep m [] (s.tick t) ((s.tick t).onT1s m f) := .onT1s m _ _
    have hmay : ((s.mort m).t1s.waking.any fun e => decide (t < e)) = false := by
      cases h : (s.mort m).t1s.waking with
      | none => rfl
      | some w => exact decide_eq_false (Nat.not_lt.mpr (hw w h))
    have e' : (t1sTransmitOpportunity t m .start s).letGo m = (s.tick t).onT1s m f := by
      rw [t1sTransmitOpportunity_eq hd hdisc hq]
      dsimp only
      rw [hmay, hb, if_neg (by decide), ← hf]
      exact letGo_step t hd hxs
    refine after_tenon (w := s.tick t) rfl e' rfl hxs fun b hb hframe => ⟨(mort_onT1s f hl).trans ?_, hxs.same, hframe, hb⟩
    rw [hf]
    rfl
  · obtain ⟨f, hf⟩ : ∃ f : T1sSt → T1sSt, f = fun x => { x with queue := updAt x.queue 0 (fun q => (q.1, true, q.2.2)) } := ⟨_, rfl⟩
    obtain ⟨g, hg⟩ : ∃ g : T1sSt → T1sSt, g = fun x => { x with attempts := 0, burst := x.burst - 1 } := ⟨_, rfl⟩
    obtain ⟨a, ha⟩ : ∃ a, a = (s.tick t).onT1s m f := ⟨_, rfl⟩
    have has : TenonStep m [T1_CNT m 2] (s.tick t) a := by rw [ha]; exact (TenonStep.onT1s m _ f).mono (by simp)
    have ham : a.mort m = { s.mort m with t1s := f (s.mort m).t1s } := by
      rw [ha]
      exact mort_onT1s f hl
    obtain ⟨b, hbx⟩ : ∃ b, b = a.inc (T1_CNT m 2) := ⟨_, rfl⟩
    have hbo : RegsOnly [T1_CNT m 2] a b := by rw [hbx]; exact (RegsOnly.refl [T1_CNT m 2] _).inc (List.mem_singleton_self _) 1
    have hbs : TenonStep m [T1_CNT m 2] (s.tick t) b := has.trans (.of_regs hbo)
    obtain ⟨x, hx⟩ : ∃ x, x = b.onT1s m g := ⟨_, rfl⟩
    have hxs : TenonStep m [T1_CNT m 2] (s.tick t) x := by rw [hx]; exact hbs.trans ((TenonStep.onT1s m _ g).mono (by simp))
    have hxm : (x.mort m).t1s = { (s.mort m).t1s with queue := (e, true, false) :: rest, attempts := 0, burst := (s.mort m).t1s.burst - 1 } := by
      rw [hx, mort_onT1s g (by rw [hbs.len]; exact hl), hbo.mort m, ham, hg, hf]
      dsimp only
      rw [hq]
      rfl
    have hmay : ((s.mort m).t1s.waking.any fun e => decide (t < e)) = false := by rw [hw]; rfl
    have e1 : t1sTransmitOpportunity t m .sent s = x.stampIn (eventIn m (t1sEventRec 1 0 (b.mort m).t1s)) := by
      rw [t1sTransmitOpportunity_eq hd hdisc hq]
      dsimp only
      rw [hmay, if_neg (by rw [beq_eq_false_iff_ne.mpr hb]; decide)]
      unfold State.t1sSendOne
      rw [← hf, ← ha, ← hbx, t1sReport_step hd hbs 1 0 true, onT1s_stampIn, hx, hg]
      rfl
    have e' : (t1sTransmitOpportunity t m .sent s).letGo m = x.stampIn (eventIn m (t1sEventRec 1 0 (b.mort m).t1s)) := by
      rw [e1]
      exact letGo_stampIn hd hxs _
    refine after_t1sStamp (t := t) _ hd rfl e' hxs fun u hst hrd hmz hsm hsr => ⟨?_, ⟨_, hst, rfl⟩, (hrd _).trans ?_, hsm, hsr⟩
    · exact (congrArg (fun z => (nth z m).t1s) hmz).trans hxm
    · rw [hx]
      show b.rdN (T1_CNT m 2) = _
      rw [hbx, rdN_inc_same, ha]
      rfl

theorem t1sOpportunity_collides (s : State) (t m : Nat) (e : Egress) (rest : List (Egress × Bool × Bool)) (hd : s.t1sDriving m) (hdisc : (s.mort m).t1s.disc = false)
    (hq : (s.mort m).t1s.queue = (e, false, false) :: rest) (hb : (s.mort m).t1s.burst ≠ 0) (hpl : s.bit (T1_CFG m) 0 = false ∨ (s.mort m).t1s.plca = false) :
    ((s.mort m).t1s.attempts < 15 → After (.t1sTransmitOpportunity t m .collided) s fun u =>
      (u.mort m).t1s = { (s.mort m).t1s with burst := 0, attempts := (s.mort m).t1s.attempts + 1 } ∧ u.ep = s.ep ∧
      u.rdN (T1_CNT m 3) = (s.rdN (T1_CNT m 3) + 1) % 2 ^ 32 ∧ u.bit (MZ_EVENT m) 22 = true ∧ sameMorts m s u ∧ sameRegs [T1_CNT m 3, MZ_EVENT m] s u) ∧
    (15 ≤ (s.mort m).t1s.attempts → After (.t1sTransmitOpportunity t m .collided) s fun u =>
      (u.mort m).t1s = { (s.mort m).t1s with burst := 0, attempts := 0, queue := (e, true, false) :: rest } ∧
      (∃ o : Octets, stampedOne s u 2 m .event o ∧ o.take 2 = [2, 1]) ∧ sameMorts m s u ∧ sameRegs [T1_CNT m 3, MZ_EVENT m] s u) := by
  have hl := t1sDriving_len hd t
  have hplca : (s.bit (T1_CFG m) 0 && (s.mort m).t1s.plca) = false := by
    rcases hpl with h | h
    · rw [h, Bool.false_and]
    · rw [h, Bool.and_false]
  obtain ⟨a, ha⟩ : ∃ a, a = ((s.tick t).inc (T1_CNT m 3)).evt (MZ_EVENT m) 22 := ⟨_, rfl⟩
  have hao : RegsOnly [T1_CNT m 3, MZ_EVENT m] (s.tick t) a := by rw [ha]; exact ((RegsOnly.refl [T1_CNT m 3, MZ_EVENT m] _).inc (by simp) 1).evt (by simp) 22
  have has : TenonStep m [T1_CNT m 3, MZ_EVENT m] (s.tick t) a := .of_regs hao
  have hcnt : a.rdN (T1_CNT m 3) = (s.rdN (T1_CNT m 3) + 1) % 2 ^ 32 := by
    rw [ha, rdN_evt_ne _ _ _ _ (by unfold T1_CNT MZ_EVENT; omega)]
    exact rdN_inc_same ..
  have hevt : a.bit (MZ_EVENT m) 22 = true := by
    rw [ha]
    exact bit_evt_same _ _ _ (by decide)
  obtain ⟨y, hy⟩ : ∃ y, y = a.onT1s m (fun x => { x with burst := 0 }) := ⟨_, rfl⟩
  have hys : TenonStep m [T1_CNT m 3, MZ_EVENT m] (s.tick t) y := by rw [hy]; exact has.trans ((TenonStep.onT1s m _ _).mono (by simp))
  have hyl : m < y.mz.length := by rw [hys.len]; exact hl
  have hym : y.mort m = { s.mort m with t1s := { (s.mort m).t1s with burst := 0 } } := by
    rw [hy, mort_onT1s _ (by rw [has.len]; exact hl), hao.mort m]
    rfl
  have e0 := t1sTransmitOpportunity_eq (t := t) hd hdisc hq .collided
  dsimp only at e0
  rw [if_neg (by rw [beq_eq_false_iff_ne.mpr hb]; decide), ← ha, ← hy, hplca, if_neg Bool.false_ne_true] at e0
  refine ⟨fun hatt => ?_, fun hatt => ?_⟩
  · rw [if_pos (by omega)] at e0
    obtain ⟨x, hx⟩ : ∃ x, x = y.onT1s m (fun x => { x with attempts := x.attempts + 1 }) := ⟨_, rfl⟩
    have hxs : TenonStep m [T1_CNT m 3, MZ_EVENT m] (s.tick t) x := by rw [hx]; exact hys.trans ((TenonStep.onT1s m _ _).mono (by simp))
    have hxm : (x.mort m).t1s = { (s.mort m).t1s with burst := 0, attempts := (s.mort m).t1s.attempts + 1 } := by rw [hx, mort_onT1s _ hyl, hym]
    have hxr : x.regs = a.regs := by rw [hx, hy]; rfl
    rw [← hx] at e0
    have e' : (t1sTransmitOpportunity t m .collided s).letGo m = x := by
      rw [e0]
      exact letGo_step t hd hxs
    refine after_tenon (w := s.tick t) rfl e' rfl hxs fun b _ _ => ⟨hxm, hxs.fields.1, ?_, ?_, hxs.same, hxs.regs⟩
    · exact (congrArg BitVec.toNat (rd_congr hxr _)).trans hcnt
    · exact (congrArg (fun v : Word => v.toNat.testBit 22) (rd_congr hxr (MZ_EVENT m))).trans hevt
  · rw [if_neg (by omega)] at e0
    obtain ⟨x, hx⟩ : ∃ x, x = y.onT1s m (fun x => { x with attempts := 0, queue := updAt x.queue 0 (fun q => (q.1, true, q.2.2)) }) := ⟨_, rfl⟩
    have hxs : TenonStep m [T1_CNT m 3, MZ_EVENT m] (s.tick t) x := by rw [hx]; exact hys.trans ((TenonStep.onT1s m _ _).mono (by simp))
    have hxm : (x.mort m).t1s = { (s.mort m).t1s with burst := 0, attempts := 0, queue := (e, true, false) :: rest } := by
      rw [hx, mort_onT1s _ hyl, hym]
      dsimp only
      rw [hq]
      rfl
    rw [← hx, t1sReport_step hd hxs 2 1 true] at e0
    have e' : (t1sTransmitOpportunity t m .collided s).letGo m = x.stampIn (eventIn m (t1sEventRec 2 1 (x.mort m).t1s)) := by
      rw [e0]
      exact letGo_stampIn hd hxs _
    exact after_t1sStamp (t := t) _ hd rfl e' hxs fun u hst _ hmz hsm hsr => ⟨(congrArg (fun z => (nth z m).t1s) hmz).trans hxm, ⟨_, hst, rfl⟩, hsm, hsr⟩

theorem phy_disconnects (s : State) (t m : Nat) (hd : s.t1sDriving m) (hdisc : (s.mort m).t1s.disc = false) :
    (After (.phyDisconnect t ⟨m, true⟩) s fun u =>
      u.bit (T1_STATUS m) 8 = true ∧ sameRegs [T1_STATUS m] s u ∧ u = { s with now := max s.now t, regs := u.regs, hb := u.hb } ∧ sameBridge s u) ∧
    (After (.phyDisconnect t ⟨m, false⟩) s fun u =>
      u.mort m = { s.mort m with t1s := { (s.mort m).t1s with
        disc := true, off := decide (s.fld (T1_PHY m) 4 4 ≤ (s.mort m).t1s.retries), holdAt := none, burst := 0, waking := none
        reconAt := if s.fld (T1_PHY m) 4 4 ≤ (s.mort m).t1s.retries then none else some (t + s.fld (T1_PHY m) 8 10 * 1000000)
        queue := (s.mort m).t1s.queue.map fun q => (q.1, true, q.2.2) } } ∧
      u.ep.handing.take s.ep.handing.length = s.ep.handing ∧
      (u.ep.handing.drop s.ep.handing.length).map (fun x => (x.port, x.octets.take 2)) =
        (m, [4, if s.fld (T1_PHY m) 4 4 ≤ (s.mort m).t1s.retries then 2 else 1]) :: List.replicate (s.mort m).t1s.waiting.length (m, [2, 2]) ∧
      u.bit (T1_STATUS m) 9 = true ∧ u.bit (T1_STATUS m) 8 = false ∧ sameMorts m s u ∧ sameRegs [T1_STATUS m] s u) := by
  have hl := t1sDriving_len hd t
  refine ⟨?_, ?_⟩
  · obtain ⟨x, hx⟩ : ∃ x, x = (s.tick t).setBit (T1_STATUS m) 8 true := ⟨_, rfl⟩
    have hxo : RegsOnly [T1_STATUS m] (s.tick t) x := by rw [hx]; exact (RegsOnly.refl [T1_STATUS m] _).setBit (List.mem_singleton_self _) 8 true
    have hxs : TenonStep m [T1_STATUS m] (s.tick t) x := .of_regs hxo
    have hbit : x.bit (T1_STATUS m) 8 = true := by
      rw [hx]
      exact (bit_setBit _ _ _ _ _ (by decide)).trans (if_pos rfl)
    have e : (phyDisconnect t m true s).letGo m = x := by
      rw [phyDisconnect_limit t hd hdisc, ← hx]
      exact letGo_step t hd hxs
    refine after_tenon (w := s.tick t) rfl e rfl hxs fun b hb _ => ⟨hbit, hxs.regs, congrArg (fun z : State => { z with hb := b }) hxo.frame, hb⟩
  · obtain ⟨-, -, -, hst, hdr, hqs, hcur⟩ := id hd
    obtain ⟨a, ha⟩ : ∃ a, a = (s.tick t).onT1s m (s.t1sCut m t) := ⟨_, rfl⟩
    have has : TenonStep m [T1_STATUS m] (s.tick t) a := by rw [ha]; exact (TenonStep.onT1s m _ _).mono (by simp)
    have ham : a.mort m = { s.mort m with t1s := s.t1sCut m t (s.mort m).t1s } := by
      rw [ha]
      exact mort_onT1s (s.t1sCut m t) hl
    obtain ⟨x, hx⟩ : ∃ x, x = (a.setBit (T1_STATUS m) 8 false).setBit (T1_STATUS m) 9 true := ⟨_, rfl⟩
    have hxo : RegsOnly [T1_STATUS m] a x := by
      rw [hx]
      exact ((RegsOnly.refl [T1_STATUS m] _).setBit (List.mem_singleton_self _) 8 false).setBit (List.mem_singleton_self _) 9 true
    have hxs : TenonStep m [T1_STATUS m] (s.tick t) x := has.trans (.of_regs hxo)
    have hxm : x.mort m = { s.mort m with t1s := s.t1sCut m t (s.mort m).t1s } := (hxo.mort m).trans ham
    have hbit9 : x.bit (T1_STATUS m) 9 = true := by
      rw [hx]
      exact (bit_setBit _ _ _ _ _ (by decide)).trans (if_pos rfl)
    have hbit8 : x.bit (T1_STATUS m) 8 = false := by
      rw [hx, bit_setBit _ _ _ _ _ (by decide), if_neg (by decide)]
      exact (bit_setBit _ _ _ _ _ (by decide)).trans (if_pos rfl)
    obtain ⟨code, hcode⟩ : ∃ code, code = if s.fld (T1_PHY m) 4 4 ≤ (s.mort m).t1s.retries then 2 else 1 := ⟨_, rfl⟩
    obtain ⟨p, hp⟩ : ∃ p, p = x.t1sReport m 4 code false := ⟨_, rfl⟩
    have hxc : x.ep.cur.isSome = true := by rw [hxs.fields.1]; exact hcur
    have hpa : stampedAll x p [(m, [4, BitVec.ofNat 8 code])] := by
      rw [hp, t1sReport_step hd hxs]
      exact .stampIn _ hxc
    obtain ⟨hpf, hpc, -⟩ := id hpa
    have hpd : p.drives m = true := by rw [hpf]; exact hxs.drives.trans hdr
    have hpm : p.mort m = { s.mort m with t1s := s.t1sCut m t (s.mort m).t1s } := by rw [hpf]; exact hxm
    obtain ⟨q, hq⟩ : ∃ q, q = (List.range (s.mort m).t1s.waiting.length).foldl (fun s _ => s.t1sReport m 2 2 true) p := ⟨_, rfl⟩
    have hqa : stampedAll x q ([(m, [4, BitVec.ofNat 8 code])] ++ List.replicate (s.mort m).t1s.waiting.length (m, [2, 2])) := by
      rw [hq]
      exact hpa.trans (withdrawn_reported hpd (by rw [hpm]; exact hst) (by rw [hpc]; exact hxc) _)
    obtain ⟨hqf, -, ins, hins, hmap⟩ := hqa
    obtain ⟨y, hy⟩ : ∃ y, y = q.onT1s m t1sEmptied := ⟨_, rfl⟩
    have hys : TenonStep m [] q y := by rw [hy]; exact .onT1s m _ _
    have e1 : phyDisconnect t m false s = y := by
      rw [phyDisconnect_cut t hd hdisc, ← ha, ← hx, ← hcode, ← hp, t1sWithdraw_driven hpd (by rw [hpm]; rfl), hy, hq, hpm]
      rfl
    have hyd : y.drives m = true := by
      rw [hys.drives, hqf]
      exact hxs.drives.trans hdr
    have hyq : y.wk.quiesce = false := by
      rw [hys.fields.2.2.2.2, hqf]
      show x.wk.quiesce = false
      rw [hxs.fields.2.2.2.2]
      exact hqs
    have e' : (phyDisconnect t m false s).letGo m = y := by
      rw [e1]
      exact letGo_driving hyd hyq
    have hyh : y.ep.handing = s.ep.handing ++ ins := by
      rw [hys.fields.1, hins, hxs.fields.1]
      rfl
    have hql : m < q.mz.length := by
      rw [hqf]
      show m < x.mz.length
      rw [hxs.len]
      exact hl
    have hym : y.mort m = { s.mort m with t1s := t1sEmptied (s.t1sCut m t (s.mort m).t1s) } := by
      rw [hy, mort_onT1s _ hql, show q.mort m = x.mort m by rw [hqf]; rfl, hxm]
    have hyr : ∀ z, y.rd z = x.rd z := fun z => (hys.regs z (by simp)).trans (rd_congr (by rw [hqf]) z)
    have hybit : ∀ k, y.bit (T1_STATUS m) k = x.bit (T1_STATUS m) k := fun k => congrArg (fun v : Word => v.toNat.testBit k) (hyr _)
    have hhb : y.hb = s.hb := by
      rw [hys.frame, hqf]
      show x.hb = s.hb
      rw [hxs.frame]
      rfl
    refine after_hb rfl e' hhb fun b _ => ⟨hym, ?_, ?_, (hybit 9).trans hbit9, (hybit 8).trans hbit8, fun j _ hj => ?_, fun z hz => (hyr z).trans (hxs.regs z hz)⟩
    · show y.ep.handing.take s.ep.handing.length = _
      rw [hyh, List.take_left]
    · show (y.ep.handing.drop s.ep.handing.length).map _ = _
      rw [hyh, List.drop_left, hmap, hcode]
      split <;> rfl
    · refine (hys.others j hj).trans (Eq.trans ?_ (hxs.others j hj))
      rw [hqf]
      rfl

theorem phy_reconnects (s : State) (t m : Nat) (hd : s.t1sDriving m) :
    (∀ r, (s.mort m).t1s.disc = true → (s.mort m).t1s.off = false → (s.mort m).t1s.reconAt = some r → r ≤ t → After (.phyReconnect t m false) s fun u =>
      u.mort m = { s.mort m with t1s := { (s.mort m).t1s with
        disc := false, reconAt := none, retries := (s.mort m).t1s.retries + 1, holdAt := some (t + s.fld (T1_PHY m) 8 10 * 1000000) } } ∧
      u.bit (T1_STATUS m) 9 = false ∧ sameMorts m s u ∧ sameRegs [T1_STATUS m] s u ∧
      u = { s with now := max s.now t, regs := u.regs, mz := u.mz, hb := u.hb } ∧ sameBridge s u) ∧
    (∀ h, (s.mort m).t1s.disc = false → (s.mort m).t1s.holdAt = some h → h ≤ t → After (.phyReconnect t m true) s fun u =>
      u.mort m = { s.mort m with t1s := { (s.mort m).t1s with holdAt := none, retries := 0 } } ∧ sameMorts m s u ∧
      (∃ o : Octets, stampedOne s u 2 m .event o ∧ o.take 2 = [4, 3]) ∧ sameRegs [] s u) := by
  have ht := t1sDriving_isT1s hd
  have hl := t1sDriving_len hd t
  obtain ⟨-, -, hten, -⟩ := id hd
  have hon : ¬(!(s.tick t).isT1s m || ((s.tick t).mort m).tenon != .t1sInt) = true := by
    show ¬(!s.isT1s m || (s.mort m).tenon != .t1sInt) = true
    rw [ht, hten]
    decide
  refine ⟨fun r hdisc hoff hrec hr => ?_, fun h hdisc hhold hh => ?_⟩
  · obtain ⟨f, hf⟩ : ∃ f : T1sSt → T1sSt, f = fun x => { x with disc := false, reconAt := none, retries := x.retries + 1, holdAt := some (t + s.fld (T1_PHY m) 8 10 * 1000000) } :=
      ⟨_, rfl⟩
    obtain ⟨a, ha⟩ : ∃ a, a = (s.tick t).onT1s m f := ⟨_, rfl⟩
    have has : TenonStep m [T1_STATUS m] (s.tick t) a := by rw [ha]; exact (TenonStep.onT1s m _ f).mono (by simp)
    obtain ⟨x, hx⟩ : ∃ x, x = a.setBit (T1_STATUS m) 9 false := ⟨_, rfl⟩
    have hxo : RegsOnly [T1_STATUS m] a x := by rw [hx]; exact (RegsOnly.refl [T1_STATUS m] _).setBit (List.mem_singleton_self _) 9 false
    have hxs : TenonStep m [T1_STATUS m] (s.tick t) x := has.trans (.of_regs hxo)
    have hxm : x.mort m = { s.mort m with t1s := { (s.mort m).t1s with
        disc := false, reconAt := none, retries := (s.mort m).t1s.retries + 1, holdAt := some (t + s.fld (T1_PHY m) 8 10 * 1000000) } } := by
      rw [hxo.mort m, ha, mort_onT1s f hl, hf]
      rfl
    have hbit : x.bit (T1_STATUS m) 9 = false := by
      rw [hx]
      exact (bit_setBit _ _ _ _ _ (by decide)).trans (if_pos rfl)
    have e : phyReconnect t m false s = x := by
      unfold phyReconnect
      dsimp only
      rw [if_neg hon, if_neg Bool.false_ne_true, if_pos (by
        show ((s.mort m).t1s.disc && !(s.mort m).t1s.off && (s.mort m).t1s.reconAt.any fun r => decide (r ≤ t)) = true
        rw [hdisc, hoff, hrec]
        exact decide_eq_true hr), hx, ha, hf]
      rfl
    exact after_tenon (w := s.tick t) rfl e rfl hxs fun b hb hframe => ⟨hxm, hbit, hxs.same, hxs.regs, hframe, hb⟩
  · obtain ⟨x, hx⟩ : ∃ x, x = (s.tick t).onT1s m (fun x => { x with holdAt := none, retries := 0 }) := ⟨_, rfl⟩
    have hxs : TenonStep m [] (s.tick t) x := by rw [hx]; exact .onT1s m _ _
    have hxm : x.mort m = { s.mort m with t1s := { (s.mort m).t1s with holdAt := none, retries := 0 } } := by
      rw [hx]
      exact mort_onT1s (fun x => { x with holdAt := none, retries := 0 }) hl
    have e : phyReconnect t m true s = x.stampIn (eventIn m (t1sEventRec 4 3 (x.mort m).t1s)) := by
      rw [← t1sReport_step hd hxs 4 3 false]
      unfold phyReconnect
      dsimp only
      rw [if_neg hon, if_pos rfl, if_pos (by
        show (!(s.mort m).t1s.disc && (s.mort m).t1s.holdAt.any fun h => decide (h ≤ t)) = true
        rw [hdisc, hhold]
        exact decide_eq_true hh), hx]
    exact after_t1sStamp (t := t) _ hd rfl e hxs fun u hst _ hmz hsm hsr => ⟨(congrArg (fun z => nth z m) hmz).trans hxm, hsm, ⟨_, hst, rfl⟩, hsr⟩

theorem phy_commanded (s : State) (c m : Nat) (hd : s.t1sDriving m) (htc : s.takesCommands) (hwin : (s.mort m).window = none) :
    ((s.mort m).t1s.off = true → After (.phyResetCommand c m) s fun u =>
      (u.mort m).t1s.disc = false ∧ (u.mort m).t1s.off = false ∧ (u.mort m).t1s.retries = 0 ∧ u.bit (T1_STATUS m) 9 = false ∧ sameMorts m s u ∧ sameRegs [T1_STATUS m] s u ∧
      u = { s with regs := u.regs, mz := u.mz, hb := u.hb } ∧ sameBridge s u) ∧
    ((s.mort m).t1s.disc = false → After (.t1sWakeRequest c m) s fun u =>
      u.mort m = { s.mort m with t1s := { (s.mort m).t1s with waking := some (s.now + 1000000) } } ∧ sameMorts m s u ∧ u = { s with mz := u.mz, hb := u.hb } ∧ sameBridge s u) := by
  have ht := t1sDriving_isT1s hd
  obtain ⟨hm, hz, hten, hst, hdr, -⟩ := hd
  have hl : m < s.mz.length := by omega
  refine ⟨fun hoff => ?_, fun hdisc => ?_⟩
  · obtain ⟨f, hf⟩ : ∃ f : T1sSt → T1sSt,
        f = fun x => { x with disc := false, off := false, retries := 0, reconAt := none, holdAt := some (s.now + s.fld (T1_PHY m) 8 10 * 1000000) } := ⟨_, rfl⟩
    have has : TenonStep m [T1_STATUS m] s (s.onT1s m f) := (TenonStep.onT1s m s f).mono (by simp)
    have ham := mort_onT1s f hl
    have hxo : RegsOnly [T1_STATUS m] (s.onT1s m f) ((s.onT1s m f).setBit (T1_STATUS m) 9 false) := (RegsOnly.refl [T1_STATUS m] _).setBit (List.mem_singleton_self _) 9 false
    have hxs : TenonStep m [T1_STATUS m] s ((s.onT1s m f).setBit (T1_STATUS m) 9 false) := has.trans (.of_regs hxo)
    have hxm : (((s.onT1s m f).setBit (T1_STATUS m) 9 false).mort m).t1s = f (s.mort m).t1s := by rw [hxo.mort m, ham]
    have e : phyResetCommand m s = (s.onT1s m f).setBit (T1_STATUS m) 9 false := by
      rw [hf]
      exact if_pos (by rw [ht, hten, hoff]; rfl)
    refine after_tenonCommand (w := s) rfl htc rfl hm hwin hten hst e hxs fun b hb hframe =>
      ⟨(congrArg T1sSt.disc hxm).trans ?_, (congrArg T1sSt.off hxm).trans ?_, (congrArg T1sSt.retries hxm).trans ?_,
        (bit_setBit _ _ _ _ _ (by decide)).trans (if_pos rfl), hxs.same, hxs.regs, hframe, hb⟩ <;> rw [hf]
  · have hxs : TenonStep m [] s (s.onT1s m fun x => { x with waking := some (s.now + 1000000) }) := .onT1s m s _
    have e : t1sWakeRequest m s = s.onT1s m fun x => { x with waking := some (s.now + 1000000) } := if_pos (by rw [ht, hten, hdr, hdisc]; rfl)
    exact after_tenonCommand (w := s) rfl htc rfl hm hwin hten hst e hxs fun b hb hframe => ⟨mort_onT1s (fun x => { x with waking := some (s.now + 1000000) }) hl, hxs.same, hframe, hb⟩

theorem phy_wakes (s : State) (t m us : Nat) (hd : s.t1sDriving m) (hdisc : (s.mort m).t1s.disc = false) (hus : s.fld (T1_PHY m) 18 8 < us) (hmode : s.mode ≠ .watch)
    (hwk : s.wk.st ≠ 2) : After (.phyWakeDetect t m us) s fun u => (∃ o : Octets, stampedOne s u 2 m .event o ∧ o.take 2 = [5, 0]) ∧ u.mz = s.mz ∧ u.sill = s.sill ∧ sameRegs [] s u := by
  have ht := t1sDriving_isT1s hd
  obtain ⟨-, -, hten, hst, hdr, hqs, hcur⟩ := id hd
  have hxs : TenonStep m [] (s.tick t) (s.tick t) := .refl m [] _
  obtain ⟨n, hn⟩ : ∃ n, n = eventIn m (t1sEventRec 5 0 (s.mort m).t1s) := ⟨_, rfl⟩
  have e0 : t1sWakeInService t m us s = (s.tick t).stampIn n := by
    have hr := t1sReport_step hd hxs 5 0 false
    have hc : ((s.tick t).isT1s m && ((s.tick t).mort m).tenon == .t1sInt && !((s.tick t).mort m).t1s.disc && decide ((s.tick t).fld (T1_PHY m) 18 8 < us)) = true := by
      show (s.isT1s m && (s.mort m).tenon == .t1sInt && !(s.mort m).t1s.disc && decide (s.fld (T1_PHY m) 18 8 < us)) = true
      rw [ht, hten, hdisc, decide_eq_true hus]
      rfl
    rw [hn]
    exact (if_pos hc).trans hr
  obtain ⟨-, hf⟩ := stampIn_after hxs n hcur
  have e : phyWakeDetect t m us s = (s.tick t).stampIn n := by
    have hno : (((s.tick t).stampIn n).mode == .watch || ((s.tick t).stampIn n).armedInQuiesce) = false := by
      rw [hf]
      show (s.mode == .watch || (s.dieOn && s.wk.st == 2)) = false
      rw [beq_eq_false_iff_ne.mpr hmode, beq_eq_false_iff_ne.mpr hwk, Bool.and_false, Bool.or_false]
    unfold phyWakeDetect
    dsimp only
    rw [e0, hno, Bool.and_false, if_neg Bool.false_ne_true]
  refine after_oneStamp (w := s.tick t) n rfl e rfl hxs hcur fun u hu hstamp _ => ?_
  have ho : n.octets.take 2 = [5, 0] := by
    rw [hn]
    rfl
  have hst' : stampedOne s u 2 m .event n.octets := by
    rw [hn] at hstamp ⊢
    exact hstamp
  exact ⟨⟨n.octets, hst', ho⟩, by rw [hu]; rfl, by rw [hu]; rfl, fun a _ => rd_congr (by rw [hu]; rfl) a⟩

/-- Settles O43: a tenon's steps and the inputs they stamp, by the phase of the opportunity and the state of the PHY. -/
theorem t1sTenons : Obligations.T1sTenons :=
  ⟨fun s t m hd hdisc => by
      obtain ⟨hgood, hbad⟩ := t1sFrame_received s t m hd hdisc
      obtain ⟨hbeacon, hinact⟩ := plca_changes s t m hd hdisc
      refine ⟨hgood, hbad, hbeacon, hinact, fun e rest hq => ?_⟩
      obtain ⟨hstart, hsent⟩ := t1sOpportunity_sends s t m e rest hd hdisc hq
      exact ⟨hstart, hsent, t1sOpportunity_collides s t m e rest hd hdisc hq⟩,
    fun s t m hd => by
      obtain ⟨hre, hheld⟩ := phy_reconnects s t m hd
      exact ⟨fun hdisc => (phy_disconnects s t m hd hdisc).1, fun hdisc => (phy_disconnects s t m hd hdisc).2, hre, hheld, fun c htc hwin => phy_commanded s c m hd htc hwin,
        fun us hdisc hus hmode hwk => phy_wakes s t m us hd hdisc hus hmode hwk⟩⟩

end Sys2Proof.Proofs
end

section
/-! PROOFS. The Ethernet bays: reception, the link, MDIO, pauses and transmission (R240 to R264, R349). -/
set_option Elab.async false
namespace Sys2Proof.Machine
open Sys2Proof

/-! ### The state of a bay -/

theorem bay_onBay_same {s : State} {b : Nat} (f : Bay → Bay) (h : b < s.bays.length) : (s.onBay b f).bay b = f (s.bay b) := by
  rw [bay_onBay, if_pos ⟨rfl, h⟩]

theorem bay_onBay_ne (s : State) {b k : Nat} (f : Bay → Bay) (h : k ≠ b) : (s.onBay b f).bay k = s.bay k := by
  rw [bay_onBay, if_neg (fun hk => h hk.1)]

theorem RegsOnly.bay {l : List Nat} {s t : State} (h : RegsOnly l s t) (k : Nat) : t.bay k = s.bay k := by
  rw [h.frame]
  rfl

/-- Two changes that agree on the bay are the same change. -/
theorem onBay_congr {s : State} {b : Nat} {f g : Bay → Bay} (h : f (s.bay b) = g (s.bay b)) : s.onBay b f = s.onBay b g := by
  refine congrArg (fun z => { s with bays := z }) (List.ext_getElem? fun j => ?_)
  show (s.bays.modify b f)[j]? = (s.bays.modify b g)[j]?
  rw [List.getElem?_modify, List.getElem?_modify]
  split
  · rename_i hj
    subst hj
    cases hx : s.bays[b]? with
    | none => rfl
    | some x =>
      have hbx : s.bay b = x := by rw [State.bay, nth, List.getD_eq_getElem?_getD, hx]; rfl
      rw [hbx] at h
      exact congrArg some h
  · rfl

theorem length_onBay (s : State) (b : Nat) (f : Bay → Bay) : (s.onBay b f).bays.length = s.bays.length := updAt_length ..

/-! ### The receive path (R243 to R262) -/

theorem ethLimit_congr {b : Nat} {l : List Nat} {s t : State} (h : sameRegs l s t) (hl : EB_RXCFG b ∉ l) (f : Octets) : t.ethLimit b f = s.ethLimit b f := by
  unfold State.ethLimit
  rw [h.fld hl]

theorem isMacControl_congr {b : Nat} {l : List Nat} {s t : State} (h : sameRegs l s t) (h1 : EB_MACADDR_L b ∉ l) (h2 : EB_MACADDR_H b ∉ l) (f : Octets) :
    t.isMacControl b f = s.isMacControl b f := by
  unfold State.isMacControl
  rw [h.rdN h1, h.fld h2]

/-- The definition is unfolded as a function: the equation of its value at an argument would have the kernel evaluate the 128 octet positions. -/
theorem wakeOctets_congr {b : Nat} {l : List Nat} {s t : State} (h : sameRegs l s t) (h1 : ∀ k j, EB_WP_M b k j ∉ l) (k : Nat) (f : Octets) :
    t.wakeOctets b k f = s.wakeOctets b k f := by
  have hmask : (List.range 4).foldl (fun a j => a + t.rdN (EB_WP_M b k j) * 2 ^ (32 * j)) 0 = (List.range 4).foldl (fun a j => a + s.rdN (EB_WP_M b k j) * 2 ^ (32 * j)) 0 := by
    simp only [h.rdN (h1 _ _)]
  have key : ∀ F : State → Nat → Nat → Octets → Option Octets, F = State.wakeOctets → F t b k f = F s b k f := by
    intro F hF
    delta State.wakeOctets at hF
    subst hF
    beta_reduce
    rw [hmask]
  exact key _ rfl

theorem wakeMatch_congr {b : Nat} {l : List Nat} {s t : State} (h : sameRegs l s t) (h1 : ∀ k j, EB_WP_M b k j ∉ l) (h2 : ∀ k, EB_WP_CTL b k ∉ l) (f : Octets) :
    t.wakeMatch b f = s.wakeMatch b f := by
  unfold State.wakeMatch
  simp only [wakeOctets_congr h h1, h.bit (h2 _), h.fld (h2 _)]

/-- A good frame that is neither a MAC Control nor a gPTP frame is counted, and then filtered by wake pattern or stamped. -/
theorem bayFrameReceived_good {s y : State} {t b : Nat} {f : Octets} (hd : s.dieOn = true) (hb : b < 12) (hm : s.fld (EB_MACCFG b) 0 3 ≠ 7) (h64 : 64 ≤ f.length)
    (hlim : f.length ≤ s.ethLimit b f) (hmac : s.isMacControl b f = false) (hptp : s.bit (EB_PTPCFG b) 0 = false) (hy : y = (s.tick t).inc (EB_CNT b 2)) :
    bayFrameReceived t b f false false s = if s.mode == .raise || s.mode == .bench || s.mode == .hold then y.wakeFilter b f else y.bayStamp b f 0 := by
  have hyo : RegsOnly [EB_CNT b 2] (s.tick t) y := by rw [hy]; exact (RegsOnly.refl [EB_CNT b 2] _).inc (List.mem_singleton_self _) 1
  have hymac : y.isMacControl b f = false :=
    (isMacControl_congr hyo.same (by simp only [List.mem_singleton]; unfold EB_MACADDR_L EB_CNT; omega) (by simp only [List.mem_singleton]; unfold EB_MACADDR_H EB_CNT; omega) f).trans hmac
  have hyptp : y.bit (EB_PTPCFG b) 0 = false := (hyo.same.bit (by simp only [List.mem_singleton]; unfold EB_PTPCFG EB_CNT; omega) 0).trans hptp
  have hmode : y.mode = s.mode := by
    rw [hyo.frame]
    rfl
  unfold bayFrameReceived
  dsimp only
  rw [if_neg (by
    show ¬(!s.dieOn || decide (12 ≤ b) || s.fld (EB_MACCFG b) 0 3 == 7) = true
    rw [hd, decide_eq_false (by omega), beq_eq_false_iff_ne.mpr hm]
    decide), if_neg (by
    show ¬(false || false || decide (f.length < 64) || decide (s.ethLimit b f < f.length)) = true
    rw [decide_eq_false (Nat.not_lt.mpr h64), decide_eq_false (Nat.not_lt.mpr hlim)]
    decide), ← hy, hymac, if_neg Bool.false_ne_true, hyptp, Bool.false_and, if_neg Bool.false_ne_true, hmode]

/-- The counter of a bad frame's cause (R244). -/
def badCnt (b : Nat) (f : Octets) (err : Bool) : Nat := EB_CNT b (if err then 3 else if f.length < 64 then 4 else 5)

theorem badCnt_range (b : Nat) (f : Octets) (err : Bool) : EB_CNT b 3 ≤ badCnt b f err ∧ badCnt b f err ≤ EB_CNT b 5 := by
  unfold badCnt EB_CNT
  split <;> [skip; split] <;> omega

/-- A bad frame is counted by its cause, and goes no further where BADDEL is clear. -/
theorem bayFrameReceived_bad {s : State} {t b : Nat} {f : Octets} {fcsErr codeErr : Bool} (hd : s.dieOn = true) (hb : b < 12) (hm : s.fld (EB_MACCFG b) 0 3 ≠ 7)
    (hbad : fcsErr = true ∨ codeErr = true ∨ f.length < 64 ∨ s.ethLimit b f < f.length) (hdel : s.bit (EB_RXCFG b) 14 = false) :
    bayFrameReceived t b f fcsErr codeErr s = ((s.tick t).inc (badCnt b f (fcsErr || codeErr))).evt (EB_EVENT b) 6 := by
  obtain ⟨y, hy⟩ : ∃ y, y = ((s.tick t).inc (badCnt b f (fcsErr || codeErr))).evt (EB_EVENT b) 6 := ⟨_, rfl⟩
  have hyo : RegsOnly [badCnt b f (fcsErr || codeErr), EB_EVENT b] (s.tick t) y := by
    rw [hy]
    exact ((RegsOnly.refl [badCnt b f (fcsErr || codeErr), EB_EVENT b] _).inc (by simp) 1).evt (by simp) 6
  have hydel : y.bit (EB_RXCFG b) 14 = false := by
    refine (hyo.same.bit ?_ 14).trans hdel
    have := badCnt_range b f (fcsErr || codeErr)
    simp only [List.mem_cons, List.not_mem_nil, or_false]
    unfold EB_CNT at this
    unfold EB_RXCFG EB_EVENT
    omega
  unfold bayFrameReceived
  dsimp only
  rw [if_neg (by
    show ¬(!s.dieOn || decide (12 ≤ b) || s.fld (EB_MACCFG b) 0 3 == 7) = true
    rw [hd, decide_eq_false (by omega), beq_eq_false_iff_ne.mpr hm]
    decide), if_pos (by
    show (fcsErr || codeErr || decide (f.length < 64) || decide (s.ethLimit b f < f.length)) = true
    rw [Bool.or_eq_true, Bool.or_eq_true, Bool.or_eq_true, decide_eq_true_eq, decide_eq_true_eq, or_assoc, or_assoc]
    exact hbad)]
  rw [show EB_CNT b (if (fcsErr || codeErr) = true then 3 else if f.length < 64 then 4 else 5) = badCnt b f (fcsErr || codeErr) from rfl, ← hy, hydel, Bool.and_false, Bool.false_and, if_neg Bool.false_ne_true]

/-! ### The wire pause (R257) -/

theorem pfcShown {s : State} {b ps : Nat} (h : ∀ c < 8, (s.bay b).pfc.getD c 0 ≤ ps) (n : Nat) (hn : n ≤ 8) {z : State}
    (hz : (List.range n).foldl (fun s c => s.setBit (EB_STATUS b) (8 + c) (ps < (s.bay b).pfc.getD c 0)) s = z) :
    RegsOnly [EB_STATUS b] s z ∧ z.bit (EB_STATUS b) 7 = s.bit (EB_STATUS b) 7 ∧ ∀ c < n, z.bit (EB_STATUS b) (8 + c) = false := by
  induction n generalizing z with
  | zero =>
    subst hz
    exact ⟨.refl _ s, rfl, fun c hc => absurd hc (Nat.not_lt_zero c)⟩
  | succ n ih =>
    obtain ⟨y, hy⟩ : ∃ y, (List.range n).foldl (fun s c => s.setBit (EB_STATUS b) (8 + c) (ps < (s.bay b).pfc.getD c 0)) s = y := ⟨_, rfl⟩
    obtain ⟨ho, h7, hc8⟩ := ih (by omega) hy
    rw [List.range_succ, List.foldl_append, hy] at hz
    have hoff : decide (ps < (y.bay b).pfc.getD n 0) = false := by
      rw [ho.bay b]
      exact decide_eq_false (Nat.not_lt.mpr (h n (by omega)))
    have hz' : z = y.setBit (EB_STATUS b) (8 + n) false := by
      rw [← hz, List.foldl_cons, List.foldl_nil, hoff]
    rw [hz']
    refine ⟨ho.setBit (List.mem_singleton_self _) _ _, (bit_setBit _ _ _ _ _ (by decide)).trans ((if_neg (by omega)).trans h7), fun c hc => ?_⟩
    rw [bit_setBit _ _ _ _ _ (by omega)]
    split
    · rfl
    · exact hc8 c (by omega)

/-- With every pause over, the status shows none. -/
theorem showPause_over {s : State} {b : Nat} (hall : (s.bay b).pauseAll ≤ s.now * 1000) (hc : ∀ c < 8, (s.bay b).pfc.getD c 0 ≤ s.now * 1000) :
    RegsOnly [EB_STATUS b] s (s.showPause b) ∧ (s.showPause b).bit (EB_STATUS b) 7 = false ∧ ∀ c < 8, (s.showPause b).bit (EB_STATUS b) (8 + c) = false := by
  obtain ⟨y, hy⟩ : ∃ y, y = s.setBit (EB_STATUS b) 7 false := ⟨_, rfl⟩
  have hyo : RegsOnly [EB_STATUS b] s y := by rw [hy]; exact (RegsOnly.refl [EB_STATUS b] _).setBit (List.mem_singleton_self _) _ _
  have hz : s.showPause b = (List.range 8).foldl (fun z c => z.setBit (EB_STATUS b) (8 + c) (s.now * 1000 < (z.bay b).pfc.getD c 0)) y := by
    unfold State.showPause
    dsimp only
    rw [decide_eq_false (Nat.not_lt.mpr hall), ← hy]
  obtain ⟨ho, h7, h8⟩ := pfcShown (s := y) (ps := s.now * 1000) (fun c h => by rw [hyo.bay b]; exact hc c h) 8 (Nat.le_refl 8) hz.symm
  refine ⟨hyo.trans ho, h7.trans ?_, h8⟩
  rw [hy]
  exact (bit_setBit _ _ _ _ _ (by decide)).trans (if_pos rfl)

/-! ### The link (R242) -/

theorem bayLink_up {s : State} {b rate : Nat} (hr : s.bayRate b = some rate) (hp : (s.bay b).phy = false) :
    s.bayLink b true = s.onBay b fun x => { x with phy := true, since := s.now, speed := rate } := by
  unfold State.bayLink
  dsimp only
  rw [hp, if_neg (show ¬(true == false) = true by decide), if_pos rfl, hr]
  rfl

theorem bayLink_down {s : State} {b : Nat} (hp : (s.bay b).phy = true) (hw : (s.bay b).wireEnd ≤ s.now * 1000) :
    s.bayLink b false = (s.inc (EB_CNT b 11) (s.bay b).fifo.length).onBay b fun x => { x with phy := false, since := s.now, fifo := [] } := by
  have hlost : ((s.bay b).wire.isSome && decide (s.now * 1000 < (s.bay b).wireEnd)) = false := by rw [decide_eq_false (Nat.not_lt.mpr hw), Bool.and_false]
  unfold State.bayLink
  dsimp only
  rw [hp, if_neg (show ¬(false == true) = true by decide), if_neg Bool.false_ne_true, hlost]
  exact onBay_congr rfl

/-! ### Transmission (R349) -/

theorem bitPs_pos (v : Nat) : 0 < bitPs v := by
  unfold bitPs
  split <;> decide

/-- A frame that is no stream has nothing to end with it. -/
theorem bayTransmit_plain {s x : State} {t b : Nat} {e : Egress} (hx : bayFrameTransmit t b s = x) (hw : (x.bay b).wire = some e) (he : e.stream = none) : bayTransmit t b s = x := by
  have hs : x.streamSent b e = x := by
    unfold State.streamSent
    rw [he]
  unfold bayTransmit
  dsimp only
  rw [hx, hw]
  dsimp only
  rw [hs]
  exact ite_self x

end Sys2Proof.Machine

namespace Sys2Proof.Proofs
open Sys2Proof Sys2Proof.Machine

theorem bayFrame_good (s : State) (t b : Nat) (f : Octets) (hd : s.dieOn = true) (hb : b < 12) (hm : s.fld (EB_MACCFG b) 0 3 ≠ 7) (h64 : 64 ≤ f.length)
    (hlim : f.length ≤ s.ethLimit b f) (hmac : s.isMacControl b f = false) (hptp : s.bit (EB_PTPCFG b) 0 = false) :
    ((s.mode = .solo ∨ s.mode = .lead ∨ s.mode = .shadow) → s.ep.cur.isSome = true → After (.bayFrameReceived t b f false false) s fun u =>
      stampedOne s u 1 b .frame (bayRecord f 0) ∧ u.rdN (EB_CNT b 2) = (s.rdN (EB_CNT b 2) + 1) % 2 ^ 32 ∧ sameRegs [EB_CNT b 2] s u ∧
      u = { s with now := max s.now t, regs := u.regs, ep := u.ep, hb := u.hb } ∧ sameBridge s u) ∧
    (s.mode = .raise → s.wakeMatch b f = none → After (.bayFrameReceived t b f false false) s fun u =>
      u.rdN (EB_CNT b 6) = (s.rdN (EB_CNT b 6) + 1) % 2 ^ 32 ∧ u.rdN (EB_CNT b 2) = (s.rdN (EB_CNT b 2) + 1) % 2 ^ 32 ∧ sameRegs [EB_CNT b 2, EB_CNT b 6] s u ∧ u.ep = s.ep) := by
  obtain ⟨y, hy⟩ : ∃ y, y = (s.tick t).inc (EB_CNT b 2) := ⟨_, rfl⟩
  have hyo : RegsOnly [EB_CNT b 2] (s.tick t) y := by rw [hy]; exact (RegsOnly.refl [EB_CNT b 2] _).inc (List.mem_singleton_self _) 1
  have hcnt : y.rdN (EB_CNT b 2) = (s.rdN (EB_CNT b 2) + 1) % 2 ^ 32 := by
    rw [hy]
    exact rdN_inc_same ..
  have e0 := bayFrameReceived_good (t := t) hd hb hm h64 hlim hmac hptp hy
  refine ⟨fun hmode hcur => ?_, fun hmode hno => ?_⟩
  · have hserve : (s.mode == .raise || s.mode == .bench || s.mode == .hold) = false := by rcases hmode with h | h | h <;> rw [h] <;> rfl
    rw [hserve, if_neg Bool.false_ne_true] at e0
    refine after_oneStamp (m := 0) (w := s.tick t) _ rfl e0 rfl (.of_regs hyo) hcur fun u hu hstamp hbr => ?_
    have hrd : ∀ a, u.rd a = y.rd a := fun a => rd_congr (by rw [hu]) a
    refine ⟨hstamp, (congrArg BitVec.toNat (hrd _)).trans hcnt, fun a ha => (hrd a).trans (hyo.same a ha), ?_, hbr⟩
    obtain ⟨R, hR⟩ := hyo.regs_eq
    rw [hR] at hu
    have hur : u.regs = R := by rw [hu]
    rw [hur]
    exact hu
  · have hsy : sameRegs [EB_CNT b 2] s y := hyo.same
    have hyno : y.wakeMatch b f = none :=
      (wakeMatch_congr hsy (fun k j => by simp only [List.mem_singleton]; unfold EB_WP_M EB_CNT; omega)
        (fun k => by simp only [List.mem_singleton]; unfold EB_WP_CTL EB_CNT; omega) f).trans hno
    have e : bayFrameReceived t b f false false s = y.inc (EB_CNT b 6) := by
      rw [e0, hmode, if_pos (by rfl)]
      unfold State.wakeFilter
      rw [hyno]
    have hxo : RegsOnly [EB_CNT b 2, EB_CNT b 6] (s.tick t) (y.inc (EB_CNT b 6)) := (hyo.mono (by simp)).inc (by simp) 1
    refine after_tenon (m := 0) (w := s.tick t) rfl e rfl (.of_regs hxo) fun c _ _ => ⟨(rdN_inc_same ..).trans ?_, (rdN_inc_ne _ _ _ _ (by unfold EB_CNT; omega)).trans hcnt, hxo.same, ?_⟩
    · rw [hyo.same.rdN (by simp only [List.mem_singleton]; unfold EB_CNT; omega)]
      rfl
    · show (y.inc (EB_CNT b 6)).ep = _
      rw [hxo.frame]
      rfl

theorem bayFrame_bad (s : State) (t b : Nat) (f : Octets) (fcsErr codeErr : Bool) (hd : s.dieOn = true) (hb : b < 12) (hm : s.fld (EB_MACCFG b) 0 3 ≠ 7)
    (hbad : fcsErr = true ∨ codeErr = true ∨ f.length < 64 ∨ s.ethLimit b f < f.length) (hdel : s.bit (EB_RXCFG b) 14 = false) :
    After (.bayFrameReceived t b f fcsErr codeErr) s fun u =>
      u.ep = s.ep ∧ u.bit (EB_EVENT b) 6 = true ∧
      u.rdN (EB_CNT b (if fcsErr || codeErr then 3 else if f.length < 64 then 4 else 5)) =
        (s.rdN (EB_CNT b (if fcsErr || codeErr then 3 else if f.length < 64 then 4 else 5)) + 1) % 2 ^ 32 ∧
      sameRegs [EB_EVENT b, EB_CNT b (if fcsErr || codeErr then 3 else if f.length < 64 then 4 else 5)] s u ∧ u = { s with now := max s.now t, regs := u.regs, hb := u.hb } := by
  have hne : badCnt b f (fcsErr || codeErr) ≠ EB_EVENT b := by
    have := badCnt_range b f (fcsErr || codeErr)
    unfold EB_CNT at this
    unfold EB_EVENT
    omega
  obtain ⟨a, ha⟩ : ∃ a, a = badCnt b f (fcsErr || codeErr) := ⟨_, rfl⟩
  have e := bayFrameReceived_bad (t := t) hd hb hm hbad hdel
  show After _ s fun u => u.ep = s.ep ∧ u.bit (EB_EVENT b) 6 = true ∧ u.rdN (badCnt b f (fcsErr || codeErr)) = (s.rdN (badCnt b f (fcsErr || codeErr)) + 1) % 2 ^ 32 ∧
    sameRegs [EB_EVENT b, badCnt b f (fcsErr || codeErr)] s u ∧ u = { s with now := max s.now t, regs := u.regs, hb := u.hb }
  rw [← ha] at e hne ⊢
  have hxo : RegsOnly [EB_EVENT b, a] (s.tick t) (((s.tick t).inc a).evt (EB_EVENT b) 6) := ((RegsOnly.refl [EB_EVENT b, a] _).inc (by simp) 1).evt (by simp) 6
  refine after_tenon (m := 0) (w := s.tick t) rfl e rfl (.of_regs hxo) fun c _ _ =>
    ⟨?_, bit_evt_same _ _ _ (by decide), (rdN_evt_ne _ _ _ _ hne).trans (rdN_inc_same ..), hxo.same, congrArg (fun z : State => { z with hb := c }) hxo.frame⟩
  show (((s.tick t).inc a).evt (EB_EVENT b) 6).ep = _
  rw [hxo.frame]
  rfl

theorem bayLink_changes (s : State) (t b : Nat) (hd : s.dieOn = true) (hb : b < 12) (hl : s.bays.length = 12) :
    (∀ rate, s.bayRate b = some rate → (s.bay b).phy = false → After (.linkChange t b ⟨true, false⟩) s fun u =>
      u.bay b = { s.bay b with phy := true, since := max s.now t, speed := rate } ∧ (∀ k < 12, k ≠ b → u.bay k = s.bay k) ∧
      u = { s with now := max s.now t, bays := u.bays, hb := u.hb } ∧ sameBridge s u) ∧
    ((s.bay b).phy = true → (s.bay b).wireEnd ≤ max s.now t * 1000 → After (.linkChange t b ⟨false, false⟩) s fun u =>
      u.bay b = { s.bay b with phy := false, since := max s.now t, fifo := [] } ∧ (∀ k < 12, k ≠ b → u.bay k = s.bay k) ∧
      u.rdN (EB_CNT b 11) = (s.rdN (EB_CNT b 11) + (s.bay b).fifo.length) % 2 ^ 32 ∧ sameRegs [EB_CNT b 11] s u ∧
      u = { s with now := max s.now t, regs := u.regs, bays := u.bays, hb := u.hb } ∧ sameBridge s u) := by
  have hlen : b < (s.tick t).bays.length := by
    show b < s.bays.length
    omega
  have hon : ¬(!(s.tick t).dieOn || decide (12 ≤ b)) = true := by
    show ¬(!s.dieOn || decide (12 ≤ b)) = true
    rw [hd, decide_eq_false (by omega)]
    decide
  refine ⟨fun rate hrate hphy => ?_, fun hphy hwire => ?_⟩
  · have hrate' : (s.tick t).bayRate b = some rate := hrate
    have hphy' : ((s.tick t).bay b).phy = false := hphy
    have e : linkChange t b true false s = (s.tick t).onBay b fun x => { x with phy := true, since := max s.now t, speed := rate } := by
      unfold linkChange
      dsimp only
      rw [if_neg hon, if_pos (show (!false) = true from rfl), hrate']
      exact bayLink_up hrate' hphy'
    exact after_hb rfl e rfl fun c hc => ⟨bay_onBay_same (fun x => { x with phy := true, since := max s.now t, speed := rate }) hlen, fun k _ hk => bay_onBay_ne (s.tick t) _ hk, rfl, hc⟩
  · have hphy' : ((s.tick t).bay b).phy = true := hphy
    obtain ⟨y, hy⟩ : ∃ y, y = (s.tick t).inc (EB_CNT b 11) (s.bay b).fifo.length := ⟨_, rfl⟩
    have hyo : RegsOnly [EB_CNT b 11] (s.tick t) y := by rw [hy]; exact (RegsOnly.refl [EB_CNT b 11] _).inc (List.mem_singleton_self _) _
    have hcnt : y.rdN (EB_CNT b 11) = (s.rdN (EB_CNT b 11) + (s.bay b).fifo.length) % 2 ^ 32 := by
      rw [hy]
      exact rdN_inc_same ..
    have e : linkChange t b false false s = y.onBay b fun x => { x with phy := false, since := max s.now t, fifo := [] } := by
      unfold linkChange
      dsimp only
      rw [if_neg hon, if_pos (show (!false) = true from rfl), Bool.false_and, hy]
      exact bayLink_down hphy' hwire
    have hyb : ∀ k, y.bay k = s.bay k := fun k => hyo.bay k
    have hbay := bay_onBay_same (s := y) (fun x => { x with phy := false, since := max s.now t, fifo := [] }) (b := b) (by rw [hyo.frame]; exact hlen)
    refine after_hb rfl e (by show y.hb = _; rw [hyo.frame]; rfl) fun c hc =>
      ⟨hbay.trans (by rw [hyb]), fun k _ hk => (bay_onBay_ne y _ hk).trans (hyb k), hcnt, hyo.same, ?_, hc⟩
    obtain ⟨R, hR⟩ := hyo.regs_eq
    rw [hR]
    rfl

theorem bayLink_shown (s : State) (t b : Nat) (up : Bool) (hd : s.dieOn = true) (hb : b < 12) (hl : s.bays.length = 12) (hcur : s.ep.cur.isSome = true)
    (hphy : (s.bay b).phy = up) (hup : (s.bay b).up = !up) (hsince : (s.bay b).since + 1000000 ≤ t) : After (.linkChange t b ⟨up, true⟩) s fun u =>
      u.bay b = { s.bay b with up := up } ∧ (∀ k < 12, k ≠ b → u.bay k = s.bay k) ∧ u.bit (EB_STATUS b) 0 = up ∧ u.fld (EB_STATUS b) 1 3 = (s.bay b).speed % 8 ∧
      (∃ o : Octets, stampedOne s u 1 b .event o ∧ oct o 0 = (if up then 1 else 2)) ∧ sameRegs [EB_STATUS b] s u ∧
      u = { s with now := max s.now t, regs := u.regs, ep := u.ep, bays := u.bays, hb := u.hb } := by
  have hlen : b < (s.tick t).bays.length := by
    show b < s.bays.length
    omega
  obtain ⟨w, hw⟩ : ∃ w, w = (s.tick t).onBay b fun x => { x with up := up } := ⟨_, rfl⟩
  have hwb : w.bay b = { s.bay b with up := up } := by
    rw [hw]
    exact bay_onBay_same (fun x => { x with up := up }) hlen
  have hwo : ∀ k, k ≠ b → w.bay k = s.bay k := fun k hk => by
    rw [hw]
    exact bay_onBay_ne (s.tick t) _ hk
  have hwr : w.regs = s.regs := by rw [hw]; rfl
  have hwep : w.ep = s.ep := by rw [hw]; rfl
  have hwf : w = { s.tick t with bays := w.bays } := by rw [hw]; rfl
  obtain ⟨y, hy⟩ : ∃ y, y = (w.setBit (EB_STATUS b) 0 up).setFld (EB_STATUS b) 1 3 (s.bay b).speed := ⟨_, rfl⟩
  have hyo : RegsOnly [EB_STATUS b] w y := by
    rw [hy]
    exact ((RegsOnly.refl [EB_STATUS b] _).setBit (List.mem_singleton_self _) _ _).setFld (List.mem_singleton_self _) _ _ _
  have hbit : y.bit (EB_STATUS b) 0 = up := by
    rw [hy, bit_setFld_ne _ _ _ _ _ _ (by decide) (.inl (by decide))]
    exact (bit_setBit _ _ _ _ _ (by decide)).trans (if_pos rfl)
  have hfld : y.fld (EB_STATUS b) 1 3 = (s.bay b).speed % 8 := by
    rw [hy]
    exact fld_setFld_same _ _ _ _ _ (by decide)
  obtain ⟨n, hn⟩ : ∃ n : Input, n = { cls := 1, port := b, kind := .event, octets := padTo 24 (y.bayEvent b (if up then 1 else 2) 0 (List.replicate 8 0)) } := ⟨_, rfl⟩
  have hq : (up != (s.bay b).phy || (s.bay b).phy == (s.bay b).up || decide (t < (s.bay b).since + 1000000)) = false := by
    rw [hphy, hup, decide_eq_false (Nat.not_lt.mpr hsince)]
    cases up <;> rfl
  have e : linkChange t b up true s = y.stampIn n := by
    unfold linkChange
    dsimp only
    rw [if_neg (by
      show ¬(!s.dieOn || decide (12 ≤ b)) = true
      rw [hd, decide_eq_false (by omega)]
      decide), if_neg (by decide), if_neg (by
      show ¬(up != (s.bay b).phy || (s.bay b).phy == (s.bay b).up || decide (t < (s.bay b).since + 1000000)) = true
      rw [hq]
      decide), show (s.tick t).bay b = s.bay b from rfl, hphy, hn, hy, hw]
    have hx : ((s.tick t).onBay b fun x => { x with up := x.phy }) = (s.tick t).onBay b fun x => { x with up := up } :=
      onBay_congr (show ({ s.bay b with up := (s.bay b).phy } : Bay) = { s.bay b with up := up } by rw [hphy])
    rw [hx]
    rfl
  have hoct : oct n.octets 0 = if up then 1 else 2 := by
    rw [hn]
    cases up <;> rfl
  have hyep : y.ep = s.ep := by
    rw [hyo.frame]
    exact hwep
  obtain ⟨hst, hf⟩ := stampIn_one (s := y) n (by rw [hyep]; exact hcur)
  obtain ⟨z, hz⟩ : ∃ z, z = y.stampIn n := ⟨_, rfl⟩
  rw [← hz] at hst hf e
  have hst' : stampedOne s z 1 b .event n.octets := by
    have := stampedOne_left hst hyep
    rw [hn] at this ⊢
    exact this
  have hzr : z.regs = y.regs := by rw [hf]
  have hzb : ∀ k, z.bay k = w.bay k := fun k => by
    rw [hf]
    exact hyo.bay k
  obtain ⟨p, hp⟩ : ∃ p, p = z.ep := ⟨_, rfl⟩
  obtain ⟨R, hR⟩ := hyo.regs_eq
  have hfr : z = { s.tick t with regs := R, bays := w.bays, ep := p } := by
    rw [hp, hf, hR, hwf]
  refine after_hb rfl e (by rw [hfr]; rfl) fun c _ => ⟨(hzb b).trans hwb, fun k _ hk => (hzb k).trans (hwo k hk), ?_, ?_, ⟨n.octets, hst', hoct⟩, fun a ha => ?_, ?_⟩
  · exact (congrArg (fun v : Word => v.toNat.testBit 0) (rd_congr hzr _)).trans hbit
  · exact (congrArg (fun v : Word => bitsN v.toNat 1 3) (rd_congr hzr _)).trans hfld
  · exact (rd_congr hzr a).trans ((hyo.same a ha).trans (rd_congr hwr a))
  · rw [hfr]
    rfl

theorem autoneg_word (s : State) (b speed : Nat) (hd : s.dieOn = true) (hb : b < 12) (hl : s.bays.length = 12) (han : s.bit (EB_MACCFG b) 4 = true)
    (hm : s.fld (EB_MACCFG b) 0 3 = 0) :
    (After (.autonegWordReceived b true speed) s fun u =>
      (u.bay b).an = none ∧ u.bit (EB_STATUS b) 4 = true ∧ u.bit (EB_EVENT b) 4 = true ∧ sameRegs [EB_STATUS b, EB_EVENT b] s u ∧ (∀ k < 12, k ≠ b → u.bay k = s.bay k) ∧
      u = { s with regs := u.regs, bays := u.bays, hb := u.hb }) ∧
    (After (.autonegWordReceived b false speed) s fun u =>
      u.bay b = { s.bay b with an := some (speed % 8) } ∧ u.bit (EB_STATUS b) 4 = false ∧ sameRegs [EB_STATUS b] s u ∧ (∀ k < 12, k ≠ b → u.bay k = s.bay k) ∧
      u = { s with regs := u.regs, bays := u.bays, hb := u.hb }) := by
  have hlen : b < s.bays.length := by omega
  have hon : ¬(!s.dieOn || decide (12 ≤ b) || !s.bit (EB_MACCFG b) 4 || (s.fld (EB_MACCFG b) 0 3 != 0 && s.fld (EB_MACCFG b) 0 3 != 2)) = true := by
    rw [hd, decide_eq_false (by omega), han, hm]
    decide
  refine ⟨?_, ?_⟩
  · obtain ⟨w, hw⟩ : ∃ w, w = s.onBay b fun x => { x with an := none } := ⟨_, rfl⟩
    obtain ⟨y, hy⟩ : ∃ y, y = (w.setBit (EB_STATUS b) 4 true).evt (EB_EVENT b) 4 := ⟨_, rfl⟩
    have hyo : RegsOnly [EB_STATUS b, EB_EVENT b] w y := by rw [hy]; exact ((RegsOnly.refl [EB_STATUS b, EB_EVENT b] _).setBit (by simp) _ _).evt (by simp) 4
    have h4 : y.bit (EB_STATUS b) 4 = true := by
      have hne : EB_STATUS b ≠ EB_EVENT b := by unfold EB_STATUS EB_EVENT; omega
      rw [hy, State.bit, rdN_evt_ne _ _ _ _ hne]
      exact (bit_setBit _ _ _ _ _ (by decide)).trans (if_pos rfl)
    have he4 : y.bit (EB_EVENT b) 4 = true := by
      rw [hy]
      exact bit_evt_same _ _ _ (by decide)
    have hwb : (w.bay b).an = none := by rw [hw, bay_onBay_same (fun x => { x with an := none }) hlen]
    have hwo : ∀ k, k ≠ b → w.bay k = s.bay k := fun k hk => by
      rw [hw]
      exact bay_onBay_ne s _ hk
    have e : autonegWordReceived b true speed s = y := by
      unfold autonegWordReceived
      rw [if_neg hon, if_pos rfl, hy, hw]
    obtain ⟨R, hR⟩ := hyo.regs_eq
    have hfr : y = { s with regs := R, bays := w.bays } := by
      rw [hR, hw]
      rfl
    refine after_hb rfl e (by rw [hfr]) fun c _ => ⟨?_, h4, he4, fun a ha => (hyo.same a ha).trans (rd_congr (by rw [hw]; rfl) a), fun k _ hk => (hyo.bay k).trans (hwo k hk), ?_⟩
    · exact (congrArg Bay.an (hyo.bay b)).trans hwb
    · rw [hfr]
  · obtain ⟨w, hw⟩ : ∃ w, w = s.onBay b fun x => { x with an := some (speed % 8) } := ⟨_, rfl⟩
    obtain ⟨y, hy⟩ : ∃ y, y = w.setBit (EB_STATUS b) 4 false := ⟨_, rfl⟩
    have hyo : RegsOnly [EB_STATUS b] w y := by rw [hy]; exact (RegsOnly.refl [EB_STATUS b] _).setBit (List.mem_singleton_self _) _ _
    have h4 : y.bit (EB_STATUS b) 4 = false := by
      rw [hy]
      exact (bit_setBit _ _ _ _ _ (by decide)).trans (if_pos rfl)
    have hwb : w.bay b = { s.bay b with an := some (speed % 8) } := by
      rw [hw]
      exact bay_onBay_same (fun x => { x with an := some (speed % 8) }) hlen
    have hwo : ∀ k, k ≠ b → w.bay k = s.bay k := fun k hk => by
      rw [hw]
      exact bay_onBay_ne s _ hk
    have e : autonegWordReceived b false speed s = y := by
      unfold autonegWordReceived
      rw [if_neg hon, if_neg Bool.false_ne_true, hy, hw]
    obtain ⟨R, hR⟩ := hyo.regs_eq
    have hfr : y = { s with regs := R, bays := w.bays } := by
      rw [hR, hw]
      rfl
    refine after_hb rfl e (by rw [hfr]) fun c _ =>
      ⟨(hyo.bay b).trans hwb, h4, fun a ha => (hyo.same a ha).trans (rd_congr (by rw [hw]; rfl) a), fun k _ hk => (hyo.bay k).trans (hwo k hk), ?_⟩
    rw [hfr]

theorem pause_ends (s : State) (t b : Nat) (hd : s.dieOn = true) (hb : b < 12) (hall : (s.bay b).pauseAll ≤ t * 1000) (hc : ∀ c < 8, (s.bay b).pfc.getD c 0 ≤ t * 1000) :
    After (.pauseExpiry t b) s fun u =>
      u.bit (EB_STATUS b) 7 = false ∧ (∀ c < 8, u.bit (EB_STATUS b) (8 + c) = false) ∧ sameRegs [EB_STATUS b] s u ∧ u = { s with now := max s.now t, regs := u.regs, hb := u.hb } := by
  have hle : t * 1000 ≤ (s.tick t).now * 1000 := Nat.mul_le_mul_right _ (Nat.le_max_right _ _)
  obtain ⟨ho, h7, h8⟩ := showPause_over (s := s.tick t) (b := b) (hall.trans hle) fun c h => (hc c h).trans hle
  have e : pauseExpiry t b s = (s.tick t).showPause b := if_pos (by
    show (s.dieOn && decide (b < 12)) = true
    rw [hd, decide_eq_true hb]
    rfl)
  exact after_tenon (m := 0) (w := s.tick t) rfl e rfl (.of_regs ho) fun c _ _ => ⟨h7, h8, ho.same, congrArg (fun z : State => { z with hb := c }) ho.frame⟩

theorem mdio_starts (s : State) (ms : Master) (w : World) (v : Word) (hs : s.secureHost ms w) (hbusy : s.bit EB_MDIO_STAT 16 = false) (h45 : v.getLsbD 28 = true) :
    After (.mdioCommand ms w v) s fun u =>
      u.bit EB_MDIO_STAT 16 = true ∧ u.rdN EB_MDIO_CMD = v.toNat % 2 ^ 29 ∧ sameRegs [EB_MDIO_STAT, EB_MDIO_CMD] s u ∧ u = { s with regs := u.regs, hb := u.hb } ∧ sameBridge s u := by
  obtain ⟨x, hx⟩ : ∃ x, x = (s.wrN EB_MDIO_CMD (bitsN v.toNat 0 29)).setBit EB_MDIO_STAT 16 true := ⟨_, rfl⟩
  have hxo : RegsOnly [EB_MDIO_STAT, EB_MDIO_CMD] s x := by
    rw [hx]
    exact ((RegsOnly.refl [EB_MDIO_STAT, EB_MDIO_CMD] s).wrN (by decide) _).setBit (by decide) _ _
  have h16 : x.bit EB_MDIO_STAT 16 = true := by
    rw [hx]
    exact (bit_setBit _ _ _ _ _ (by decide)).trans (if_pos rfl)
  have hcmd : x.rdN EB_MDIO_CMD = v.toNat % 2 ^ 29 := by
    rw [hx, rdN_setBit_ne _ _ _ _ _ (by decide), rdN_wrN_same, bitsN, Nat.shiftRight_zero]
    exact Nat.mod_eq_of_lt (Nat.lt_of_lt_of_le (Nat.mod_lt _ (by decide)) (by decide))
  have hact : s.mdioStart (BitVec.ofNat 32 v.toNat) = x := by
    have h28 : v.toNat.testBit 28 = true := h45
    unfold State.mdioStart
    rw [BitVec.ofNat_toNat, BitVec.setWidth_eq]
    dsimp only
    rw [hbusy, h28, Bool.not_true, Bool.false_and, Bool.or_false, if_neg Bool.false_ne_true, hx]
  have e : s.busWrite ms w EB_MDIO_CMD v.toNat = x := by
    refine busWrite_starts .std hs.1 (by decide) (by decide +kernel) (secureHost_mayWrite hs EB_MDIO_CMD) (by decide) (by decide) v.isLt ?_
      (tbRole_congr (hxo.same _ (by decide))) (by rw [hxo.frame])
    rw [and_ones v.isLt]
    exact hact
  exact after_tenon (m := 0) (w := s) rfl e rfl (.of_regs hxo) fun c hc _ => ⟨h16, hcmd, hxo.same, congrArg (fun z : State => { z with hb := c }) hxo.frame, hc⟩

theorem mdio_ends (s : State) (rdata : Nat) (ack : Bool) (hbusy : s.bit EB_MDIO_STAT 16 = true) (h45 : s.bit EB_MDIO_CMD 28 = true) (hop : s.fld EB_MDIO_CMD 26 2 = 2) :
    After (.mdioDone rdata ack) s fun u =>
      u.bit EB_MDIO_STAT 16 = false ∧ u.fld EB_MDIO_STAT 0 16 = rdata % 2 ^ 16 ∧ u.bit EB_MDIO_STAT 17 = !ack ∧ u.bit (EB_EVENT 0) 9 = true ∧
      sameRegs [EB_MDIO_STAT, EB_EVENT 0] s u ∧ u = { s with regs := u.regs, hb := u.hb } := by
  obtain ⟨a, ha⟩ : ∃ a, a = s.setBit EB_MDIO_STAT 16 false := ⟨_, rfl⟩
  obtain ⟨y, hy⟩ : ∃ y, y = a.setFld EB_MDIO_STAT 0 16 rdata := ⟨_, rfl⟩
  obtain ⟨z, hz⟩ : ∃ z, z = y.setBit EB_MDIO_STAT 17 (!ack) := ⟨_, rfl⟩
  obtain ⟨x, hx⟩ : ∃ x, x = z.evt (EB_EVENT 0) 9 := ⟨_, rfl⟩
  have hxo : RegsOnly [EB_MDIO_STAT, EB_EVENT 0] s x := by
    rw [hx, hz, hy, ha]
    exact ((((RegsOnly.refl [EB_MDIO_STAT, EB_EVENT 0] s).setBit (by decide) _ _).setFld (by decide) _ _ _).setBit (by decide) _ _).evt (by decide) 9
  have hstat : x.rdN EB_MDIO_STAT = z.rdN EB_MDIO_STAT := by
    rw [hx]
    exact rdN_evt_ne _ _ _ _ (by decide)
  have h16 : x.bit EB_MDIO_STAT 16 = false := by
    rw [State.bit, hstat]
    show z.bit EB_MDIO_STAT 16 = false
    rw [hz, bit_setBit _ _ _ _ _ (by decide), if_neg (by decide), hy, bit_setFld_ne _ _ _ _ _ _ (by decide) (.inr (by decide)), ha]
    exact (bit_setBit _ _ _ _ _ (by decide)).trans (if_pos rfl)
  have h17 : x.bit EB_MDIO_STAT 17 = !ack := by
    rw [State.bit, hstat]
    show z.bit EB_MDIO_STAT 17 = _
    rw [hz]
    exact (bit_setBit _ _ _ _ _ (by decide)).trans (if_pos rfl)
  have hdata : x.fld EB_MDIO_STAT 0 16 = rdata % 2 ^ 16 := by
    rw [State.fld, hstat]
    show z.fld EB_MDIO_STAT 0 16 = _
    rw [hz, fld_setBit_ne y EB_MDIO_STAT EB_MDIO_STAT 17 0 16 _ (by decide) (fun _ => .inr (by decide)), hy]
    exact fld_setFld_same _ _ _ _ _ (by decide)
  have h9 : x.bit (EB_EVENT 0) 9 = true := by
    rw [hx]
    exact bit_evt_same _ _ _ (by decide)
  have e : mdioDone rdata ack s = x := by
    have h45' : (s.rdN EB_MDIO_CMD).testBit 28 = true := h45
    have hop' : bitsN (s.rdN EB_MDIO_CMD) 26 2 = 2 := hop
    unfold mdioDone
    rw [if_neg (by rw [hbusy]; decide)]
    dsimp only
    rw [h45', hop', if_pos rfl, if_pos (by decide), hx, hz, hy, ha]
  exact after_tenon (m := 0) (w := s) rfl e rfl (.of_regs hxo) fun c _ _ => ⟨h16, hdata, h17, h9, hxo.same, congrArg (fun z : State => { z with hb := c }) hxo.frame⟩

theorem bay_transmits (s : State) (t b : Nat) (e : Egress) (hd : s.dieOn = true) (hb : b < 12) (hl : s.bays.length = 12) (hm : s.mode = .solo) (hoff : s.tw.egressOff = false)
    (hphy : (s.bay b).phy = true) (hwire : (s.bay b).wireEnd ≤ max s.now t * 1000) (hear : earliest ((s.bay b).heads (max s.now t * 1000)) = some e)
    (hstart : e.start ≤ max s.now t) (hclose : e.close = none) (hstream : e.stream = none) : After (.bayFrameTransmit t b) s fun u =>
      (u.bay b).fifo = (s.bay b).fifo.erase e ∧ (u.bay b).wire = some { e with octets := bayRecord (macOctets e) 0 } ∧ max s.now t * 1000 < (u.bay b).wireEnd ∧
      (∀ k < 12, k ≠ b → u.bay k = s.bay k) ∧ u.rdN (EB_CNT b 10) = (s.rdN (EB_CNT b 10) + 1) % 2 ^ 32 ∧ sameRegs [EB_CNT b 10] s u ∧
      u = { s with now := max s.now t, regs := u.regs, bays := u.bays, hb := u.hb } ∧ sameBridge s u := by
  have hlen : b < (s.tick t).bays.length := by
    show b < s.bays.length
    omega
  obtain ⟨fin, hfin⟩ : ∃ fin, fin = (s.tick t).now * 1000 + 8 * ((recFrame e.octets).length + 8) * bitPs ((s.tick t).bay b).speed := ⟨_, rfl⟩
  have hlt : max s.now t * 1000 < fin := by
    have h8 : 0 < 8 * ((recFrame e.octets).length + 8) * bitPs ((s.tick t).bay b).speed := Nat.mul_pos (by omega) (bitPs_pos _)
    rw [hfin]
    exact Nat.lt_add_of_pos_right h8
  obtain ⟨a, ha⟩ : ∃ a, a = (s.tick t).onBay b fun x => { x with fifo := x.fifo.erase e } := ⟨_, rfl⟩
  have hab : a.bay b = { s.bay b with fifo := (s.bay b).fifo.erase e } := by
    rw [ha]
    exact bay_onBay_same (fun x => { x with fifo := x.fifo.erase e }) hlen
  obtain ⟨w, hw⟩ : ∃ w, w = a.onBay b fun x => { x with wire := some { e with octets := bayRecord (macOctets e) 0 }, wireEnd := fin } := ⟨_, rfl⟩
  have hwb : w.bay b = { s.bay b with fifo := (s.bay b).fifo.erase e, wire := some { e with octets := bayRecord (macOctets e) 0 }, wireEnd := fin } := by
    rw [hw, bay_onBay_same (fun x => { x with wire := some { e with octets := bayRecord (macOctets e) 0 }, wireEnd := fin })
      (by rw [ha, length_onBay]; exact hlen), hab]
  have hwo : ∀ k, k ≠ b → w.bay k = s.bay k := fun k hk => by
    rw [hw, bay_onBay_ne a _ hk, ha]
    exact bay_onBay_ne (s.tick t) _ hk
  have hwf : w = { s.tick t with bays := w.bays } := by
    rw [hw, ha]
    rfl
  obtain ⟨x, hx⟩ : ∃ x, x = w.inc (EB_CNT b 10) := ⟨_, rfl⟩
  have hxo : RegsOnly [EB_CNT b 10] w x := by rw [hx]; exact (RegsOnly.refl [EB_CNT b 10] _).inc (List.mem_singleton_self _) 1
  have hcnt : x.rdN (EB_CNT b 10) = (s.rdN (EB_CNT b 10) + 1) % 2 ^ 32 := by
    rw [hx, rdN_inc_same, hwf]
    rfl
  have hear' : earliest (((s.tick t).bay b).heads ((s.tick t).now * 1000)) = some e := hear
  have e1 : bayFrameTransmit t b s = x := by
    unfold bayFrameTransmit
    dsimp only
    rw [if_neg (by
      show ¬(!s.dieOn || decide (12 ≤ b) || !((s.mode == .solo || s.mode == .lead || (s.mode == .shadow && s.tw.inStep) || s.mode == .hold) && !s.tw.egressOff) ||
        !(s.bay b).phy || decide (max s.now t * 1000 < (s.bay b).wireEnd)) = true
      rw [hd, decide_eq_false (show ¬12 ≤ b by omega), hm, hoff, hphy, decide_eq_false (Nat.not_lt.mpr hwire)]
      exact Bool.false_ne_true), hear']
    dsimp only
    rw [if_neg (show ¬(s.tick t).now < e.start from Nat.not_lt.mpr hstart), if_neg (by rw [hclose, Option.any_none]; decide), ← hfin, ← ha, ← hw, ← hx]
  have hxb : x.bay b = { s.bay b with fifo := (s.bay b).fifo.erase e, wire := some { e with octets := bayRecord (macOctets e) 0 }, wireEnd := fin } := (hxo.bay b).trans hwb
  have e2 : bayTransmit t b s = x := bayTransmit_plain (e := { e with octets := bayRecord (macOctets e) 0 }) e1 (by rw [hxb]) hstream
  obtain ⟨R, hR⟩ := hxo.regs_eq
  have hfr : x = { s.tick t with regs := R, bays := w.bays } := by rw [hR, hwf]
  have hwr : w.regs = s.regs := by
    rw [hwf]
    rfl
  refine after_hb rfl e2 (by rw [hfr]; rfl) fun c hc => ⟨congrArg Bay.fifo hxb, congrArg Bay.wire hxb, ?_, fun k _ hk => (hxo.bay k).trans (hwo k hk), hcnt,
    fun r hr => (hxo.same r hr).trans (rd_congr hwr r), ?_, hc⟩
  · rw [show (({ x with hb := c } : State).bay b).wireEnd = fin from congrArg Bay.wireEnd hxb]
    exact hlt
  · rw [hfr]
    rfl

/-- Settles O44: what each event of a bay writes, counts and stamps, by the check that decides it. -/
theorem bays : Obligations.Bays :=
  ⟨fun s t b f hd hb hm => ⟨fun h64 hlim hmac hptp => bayFrame_good s t b f hd hb hm h64 hlim hmac hptp,
      fun fcsErr codeErr hbad hdel => bayFrame_bad s t b f fcsErr codeErr hd hb hm hbad hdel⟩,
    fun s t b hd hb hl => by
      obtain ⟨hup, hdown⟩ := bayLink_changes s t b hd hb hl
      exact ⟨hup, hdown, fun up hcur hphy hu hsince => bayLink_shown s t b up hd hb hl hcur hphy hu hsince⟩,
    fun s b speed hd hb hl han hm => autoneg_word s b speed hd hb hl han hm,
    fun s t b hd hb hall hc => pause_ends s t b hd hb hall hc,
    fun s ms w v hs hbusy h45 => mdio_starts s ms w v hs hbusy h45,
    fun s rdata ack hbusy h45 hop => mdio_ends s rdata ack hbusy h45 hop,
    fun s t b e hd hb hl hm hoff hphy hwire hear hstart hclose hstream => bay_transmits s t b e hd hb hl hm hoff hphy hwire hear hstart hclose hstream⟩

end Sys2Proof.Proofs
end
